-- ==== Sys2Proof/Word.lean ====
section
/-! DEFINITION. Word types and the plainest arithmetic on them: little-endian words of the RM9632 (R3), complemented words (R10). -/

namespace Sys2Proof

/-- A 32-bit word: the unqualified "word" of the manual. -/
abbrev Word := BitVec 32
/-- A 16-bit field. -/
abbrev Half := BitVec 16
/-- A byte. -/
abbrev Byte := BitVec 8
/-- A 64-bit word, always written with its size. -/
abbrev Word64 := BitVec 64

/-- Bits [lo+len-1:lo] of a word as a number. -/
def bitsOf {w : Nat} (v : BitVec w) (lo len : Nat) : Nat := (v.toNat >>> lo) % 2 ^ len

/-- A Bool as a bit. -/
def bit (b : Bool) : Nat := if b then 1 else 0

/-- The complemented word of a 16-bit value (R10): the value in [15:0], its complement in [31:16]. -/
def cword (v : Half) : Word := (~~~v) ++ v

/-- The low half of a word. -/
def lowHalf (w : Word) : Half := w.extractLsb' 0 16
/-- The high half of a word. -/
def highHalf (w : Word) : Half := w.extractLsb' 16 16

/-- The check of a complemented word (R10, R326). -/
def cwordOk (w : Word) : Bool := decide (highHalf w = ~~~(lowHalf w))

/-- A signed number as a 16-bit two's-complement field. -/
def half (i : Int) : Half := BitVec.ofInt 16 i
/-- A signed number as a word. -/
def wordI (i : Int) : Word := BitVec.ofInt 32 i
/-- A natural number as a word. -/
def word (n : Nat) : Word := BitVec.ofNat 32 n

/-- A counter that holds at its largest value. -/
def satInc (max n : Nat) : Nat := if n < max then n + 1 else max

/-- A number clamped to a range. -/
def clampI (lo hi x : Int) : Int := max lo (min hi x)

/-- The divisor-rounding-up quotient. -/
def ceilDiv (a b : Nat) : Nat := (a + b - 1) / b

end Sys2Proof
end

