-- ==== Sys2Proof/Config.lean ====
section
/-! DEFINITION. Config: what the manual leaves open, as opaque free values (no body can be evaluated or reasoned about), each named in an assumption-log entry. -/

namespace Sys2Proof.Config

/-- 20 x log10 of the DAC digital gain m / 2^19 x 2^(e-32), in 0.01 dB (R115, R125: the manual gives the formula, no rounding; log 14). -/
opaque dacGainDb : Nat → Nat → Int

/-- The power ratio 10^(x/1000) of a level of x in 0.01 dB, in units of 2^-64 (R108, R110: no rounding is given; log 14). -/
opaque powerOfDb : Int → Nat

/-- The largest entry of |G| of the growth test is compared in exact arithmetic; this is the energy Σ|w|² of a coefficient set in 0.01 dB (R125 TAPE; log 14). -/
opaque energyDb : Nat → Int

/-- What "round" gives at an exact half in VEXT (Table 8-4 does not say which way): true rounds up (log 15). -/
opaque vextHalfUp : Int → Bool

/-- What "round" gives in EX2 at the only exact half, GA = -65,536 (Table 8-4; log 15). -/
opaque ex2HalfUp : Bool

/-- The ratio of two energies in 0.01 dB (telemetry of R279; no rounding is given; log 14). -/
opaque ratioDb : Nat → Nat → Int

/-- Whether the ECDSA P-256 signature of a closed image verifies against the public key in ROM (R229: the key's value is not in the manual; log 16). -/
opaque signatureOk : List Word → Bool

/-- Words of test-address memories whose contents the manual does not lay out (staging, delay lines, register copies: R411; log 17). -/
opaque testWord : Nat → Nat → BitVec 64

/-- Capture memory before a capture has completed (R283: undefined; log 6). -/
opaque captureWord : Nat → Nat → Word

/-- Which errors of three or more symbols imitate a single-symbol error (R327: at most 4% of such patterns; log 18). -/
opaque imitates : Nat → Bool

/-- The VCO band the oscillator calibration chooses (SYN_STAT.VCO_BAND: a diagnostic code that may differ from part to part; log 19). -/
opaque vcoBand : Nat → Byte

/-- The coefficients of a preset's default bank (Table 2-4 names them, R39 bounds their response, no value is given; log 20). -/
opaque presetBank : Nat → Nat → List Word

/-- A fresh free value for a measured figure the manual does not bound (log 13). -/
opaque freeValue : Nat → Word

/-- The response of a slot coefficient bank at one of the frequencies R46 tests: true when it meets the condition (the manual gives the test, not the arithmetic of its evaluation; log 21). -/
opaque bankResponseOk : Nat → Nat → Nat → List Word → Bool

/-- The Subsystem ID and Device Serial Number fuses (Table 9-1, R403; log 22). -/
opaque fuseIdentity : BitVec 80

/-- Which way a rounding "to nearest" goes at an exact half where the manual does not say: SLOT_LAT (R41), the step of INTERP = 1 (R154), the loop's request as a gain code (R155), by a number of the site and the value (log 15). -/
opaque halfUp : Nat → Int → Bool

/-- A live measured figure that a register shows and that the manual leaves to the hardware, by register address and time (log 13). -/
opaque measured : Nat → Nat → Word

/-- The entry of the library image that a library task of an engine uses (R248 names none; log 27). -/
opaque libEntry : Nat → Nat

/-- Units of 64 instruction times that MAXRUN shows for an execution (its rounding is not given; log 15). -/
opaque runUnits : Nat → Nat

/-- What the metadata of a staged store image holds, whose layout the manual does not give (R341, R412): 0 PCC, 1 newest checkpoint, 16 + i word i of the authorisation table (log 17). -/
opaque imageMeta : Nat → List (Nat × BitVec 64) → Nat

/-- A stored coefficient after power steps have scaled it by an amount in 0.01 dB (R115 gives no rounding; log 14). -/
opaque scaledCoef : Int → BitVec 64 → BitVec 64

/-- The level of a test multiplexer output that shows an oscillator whose phase the manual does not fix (Table 14-6, SEL 5 and 6), by selection, index and time (log 17). -/
opaque tmuxPhase : Nat → Nat → Nat → Bool

/-- Whether the rate difference estimated from the last 16 TIME messages (times and offsets, in ticks) exceeds 0.05 ppm (R371 gives no estimator; log 28). -/
opaque rateFar : List (Nat × Int) → Bool

end Sys2Proof.Config
end

