-- ==== Sys2Proof/Syntax.lean ====
section
/-! DEFINITION. The commands the RM9632 takes, and the operand types they carry: descriptors of HP (Tables 9-7 to 9-9), register accesses, frames of MP, TAP instructions, pin events, and the device's own timed and detector steps with what the hardware measured at them. -/

namespace Sys2Proof

/-- Execution class of a descriptor (Table 7-5, R219). -/
inductive Cls where | a | b | c | d
deriving DecidableEq, Repr

/-- The header fields of a descriptor that its work uses (Table 9-7), and the command ring it stands in. -/
structure DHdr where
  ring : Fin 16
  tag : Word
  cls : Cls
  notify : Bool
deriving DecidableEq, Repr

/-- What a read of host memory returned (R267, R268): the words, or the failure after the retry. -/
inductive HostData where
  | words (ws : List Word)
  /-- 1 UR, 2 CA, 3 poisoned, 4 ECRC, 5 timeout (Table 9-11). -/
  | failed (code : Fin 6)
deriving DecidableEq, Repr

/-- What the fetch of one 64-byte descriptor returned (R267, R270). -/
inductive Fetch where
  | bytes (bs : List Byte)
  | failed (code : Fin 6)
deriving DecidableEq, Repr

/-- Direction of a chain. -/
inductive Dir where | rx | tx
deriving DecidableEq, Repr

/-- The register spaces that HP writes: BAR0, BAR2 (MSI-X table included), BAR4, and the two PCI Express configuration words whose bits R257 and R298 name. -/
inductive RegSpace where | bar0 | bar2 | bar4 | pciCommand | msixControl
deriving DecidableEq, Repr

/-- A port that can read BAR0 (R206). -/
inductive RdPort where | hp | mp | tp
deriving DecidableEq, Repr

/-- The straps of Table 14-1 (levels of the pins). -/
structure Straps where
  testEn : Bool
  devEn : Bool
  casMaster : Bool
  casId : BitVec 4
  refSel : Bool
  /-- the AUTH_WE pin (R188): no strap, its level only -/
  authWe : Bool
deriving DecidableEq, Repr

/-- The rails the device watches (R423). -/
inductive Rail where | vddCore | vddConv | vdda | vddSer | vddAux
deriving DecidableEq, Repr

/-- Where a deadline was missed (R211, R122). -/
inductive MissLevel where
  | slot (n : Fin 256)
  | rx (n : Fin 32)
  | tx (n : Fin 32)
  | estimate (cx : Fin 64)
deriving DecidableEq, Repr

/-- What an automatic gain loop's window measured (R153): power in 0.01 dB relative to transmit full scale, and whether the period is void. -/
structure LoopMeas where
  slot : Fin 256
  power : Int
  void : Bool
deriving DecidableEq, Repr

/-- A block-floating coefficient (R105): I and Q mantissas and the exponent of its 16-tap block. -/
structure Coef where
  mi : Int
  mq : Int
  e : Nat
deriving DecidableEq, Repr

/-- What one adaptation cycle delivered (R107-R110): the candidate's coefficients as formed, the residual energies of the window (one unit for both), whether every block of the window was valid, whether a power step took effect in it, and whether its gradient is usable. -/
structure CycleMeas where
  cand : List Coef
  em : Nat
  esh : Nat
  valid : Bool
  stepped : Bool
  gradient : Bool
deriving DecidableEq, Repr

/-- What a measurement window accumulated (R124): valid samples M, coupling energy in 0.01 dB (none: E_h = 0), residual energy in 0.01 dB (none: R = 0), tap energy in 0.01 dB. -/
structure WindowMeas where
  samples : Nat
  eh : Option Int
  r : Option Int
  tape : Int
deriving DecidableEq, Repr

/-- What one OSC window found (R178): bin powers over their slow average, the bin's power share and level for the line test; the largest rho in 1/256 and the slots whose lag fired; the window's power in 0.1 dBFS; whether the window lay wholly in the on-period. -/
structure OscMeas where
  bin : Fin 51
  rise : Int
  halfShare : Bool
  binDbfs : Int
  rho : Fin 257
  lagSlots : List (Fin 256 × Fin 257)
  powerDbfs : Int
  onPeriod : Bool
deriving DecidableEq, Repr

/-- A WINTER scope object (R169). -/
inductive WScope where
  | slot (n : Fin 256)
  | chain (n : Fin 32)
  | tile (k : Fin 4)
  | device
deriving DecidableEq, Repr

/-- What the scrubber reads (R329): a coded memory word of the test address space, a block's fault-register copies, a complemented word of a register. -/
inductive ScrubTarget where
  | memWord (addr : Word)
  | faultRegs (blk : Fin 16)
  | compl (addr : Word)
  | policy
deriving DecidableEq, Repr

/-- Trap causes of TASK_STAT.TRAP. -/
inductive TrapCause where | illegal | align | daddr | iaddr | port | cw | mem | trap
deriving DecidableEq, Repr

/-- A general register of a loop engine. -/
abbrev Reg := Fin 16
/-- A vector register of a loop engine. -/
abbrev VReg := Fin 8

/-- How a training step of a Jarond port ended (Table 13-5). -/
inductive TrainResult where
  | passed (genMax : Nat) (pverMin pverMax : Nat) (partnerId : BitVec 4) (partnerPort : BitVec 2) (partnerMaster : Bool) (jl2Req : Bool)
  | exceeded
  | skew
deriving DecidableEq, Repr

/-- A received link header block (Table 13-4) and whether its CRC-8 and block are valid. -/
structure LinkHdr where
  fn : BitVec 24
  ack : Byte
  credit : Byte
  nak : Bool
  ok : Bool
deriving DecidableEq, Repr

/-- A received stream cell (R376): a pair of samples, IDLE, or a block error. -/
inductive Cell where
  | pair (i0 q0 i1 q1 : Half)
  | idle
  | blockError
deriving DecidableEq, Repr

/-- The header of a received message (Table 13-9), the port it arrived on, and whether its CRC is right. -/
structure MsgHdr where
  port : Fin 4
  lseq : Byte
  resp : Bool
  src : BitVec 4
  dst : Byte
  mseq : Half
  crcOk : Bool
deriving DecidableEq, Repr

/-- One entry of a CAP message (Table 13-10). -/
structure CapEntry where
  slot : Byte
  clear : Bool
  cap : Word
deriving DecidableEq, Repr

/-- The work of a descriptor: one constructor per operand layout of Table 9-9. -/
inductive Desc where
  | nop
  | fence (all : Byte)
  | abort (ring : Byte) (index : Half)
  | slotConfig (slot preset rate destKind : Byte) (dest bw : Half) (rxfreq txfreq : Word) (pdly : Half)
  | slotEnable (slot : Byte)
  | slotDisable (slot : Byte)
  | slotGainSet (slot : Byte) (gain : Word)
  | slotCoefLoad (slot : Byte) (banktag nblk : Half) (addr : Word64) (data : HostData)
  | slotBankSwap (slot xfade : Byte)
  | chainState (chain dir target flags : Byte)
  | chainTune (chain dir mode losel : Byte) (fw ifofs : Word) (pdly : Half)
  | calRun (chain dir mask : Byte)
  | txPowerStep (chain mode delta : Byte) (index : Word) (at_ : Word64)
  | txPowerTableLoad (chain : Byte) (addr : Word64) (data : HostData)
  | tunerSet (chain wordT : Byte) (at_ : Word64)
  | tunerSetRaw (bus cs len : Byte) (raw : Word) (at_ : Word64)
  | cxAssign (cx release tx rx join : Byte) (bulk extRxg : Half)
  | cxReset (cx : Byte)
  | cxResetSeed (cx xfade : Byte) (len : Word) (addr : Word64) (data : HostData)
  | cxFreeze (freeze : Byte) (mask : Word64)
  | gclLutLoad (set : Byte) (luttag : Half) (addr : Word64) (data : HostData)
  | gclBankSwap (set : Byte)
  | gclSetpoint (slot fields flags : Byte) (setpoint win : Half) (lutset : Byte) (slewUp slewDn margin : Half)
  | installationModel (cx : Byte) (isoMin isoMax rateMax : Half)
  | protConfig (param object : Byte) (value : Word)
  | authorisationWrite (entry : Byte) (w0 w1 w2 w3 w4 : Word)
  | winterEnter (scope index : Byte) (reason : Half)
  | winterRelease (scope index override_ : Byte)
  | leImageLoad (first count : Byte) (len : Word) (addr : Word64) (data : HostData)
  | leTaskStart (engine task entry sev : Byte) (period phase : Word) (nobj : Byte) (param : Word64) (data : HostData)
  | leTaskStop (engine task : Byte)
  | capture (point index trig shift : Byte) (len pre : Word) (at_ addr : Word64)
  | telemetrySubscribe (sub ring kind index : Byte) (mask period : Word)
  | recNote (note : Half) (data : List Word)
  | recFlush
  | jlStreamOpen (port stream dir rate txch : Byte) (bw : Half) (txfreq : Word) (pdly : Half)
  | jlStreamClose (port stream : Byte)
deriving DecidableEq, Repr

/-- The commands: one constructor per row of spec/opcode_table.json, in the table's order. -/
inductive Instr where
  /-- NOP (R272) -/
  | nop (h : DHdr)
  /-- FENCE (R277) -/
  | fence (h : DHdr) (all : Byte)
  /-- FENCE_ACCEPT (R277) -/
  | fenceAccept (ring : Fin 16)
  /-- ABORT (R278) -/
  | abort (h : DHdr) (ring : Byte) (index : Half)
  /-- SLOT_CONFIG (R35) -/
  | slotConfig (h : DHdr) (slot preset rate destKind : Byte) (dest bw : Half) (rxfreq txfreq : Word) (pdly : Half)
  /-- SLOT_ENABLE (R36) -/
  | slotEnable (h : DHdr) (slot : Byte)
  /-- SLOT_DISABLE (R37) -/
  | slotDisable (h : DHdr) (slot : Byte)
  /-- SLOT_GAIN_SET (R138) -/
  | slotGainSet (h : DHdr) (slot : Byte) (gain : Word)
  /-- SLOT_COEF_LOAD (R46) -/
  | slotCoefLoad (h : DHdr) (slot : Byte) (banktag nblk : Half) (addr : Word64) (data : HostData)
  /-- SLOT_BANK_SWAP (R47) -/
  | slotBankSwap (h : DHdr) (slot xfade : Byte)
  /-- CHAIN_STATE (R67) -/
  | chainState (h : DHdr) (chain dir target flags : Byte)
  /-- CHAIN_TUNE (R63) -/
  | chainTune (h : DHdr) (chain dir mode losel : Byte) (fw ifofs : Word) (pdly : Half)
  /-- CAL_RUN (R74) -/
  | calRun (h : DHdr) (chain dir mask : Byte)
  /-- TX_POWER_STEP (R91) -/
  | txPowerStep (h : DHdr) (chain mode delta : Byte) (index : Word) (at_ : Word64)
  /-- TX_POWER_TABLE_LOAD (R90) -/
  | txPowerTableLoad (h : DHdr) (chain : Byte) (addr : Word64) (data : HostData)
  /-- TUNER_SET (R88) -/
  | tunerSet (h : DHdr) (chain wordT : Byte) (at_ : Word64)
  /-- TUNER_SET_RAW (R88) -/
  | tunerSetRaw (h : DHdr) (bus cs len : Byte) (raw : Word) (at_ : Word64)
  /-- CX_ASSIGN (R103) -/
  | cxAssign (h : DHdr) (cx release tx rx join : Byte) (bulk extRxg : Half)
  /-- CX_RESET (R117) -/
  | cxReset (h : DHdr) (cx : Byte)
  /-- CX_RESET_SEED (R118) -/
  | cxResetSeed (h : DHdr) (cx xfade : Byte) (len : Word) (addr : Word64) (data : HostData)
  /-- CX_FREEZE (R116) -/
  | cxFreeze (h : DHdr) (freeze : Byte) (mask : Word64)
  /-- GCL_LUT_LOAD (R159) -/
  | gclLutLoad (h : DHdr) (set : Byte) (luttag : Half) (addr : Word64) (data : HostData)
  /-- GCL_BANK_SWAP (R160) -/
  | gclBankSwap (h : DHdr) (set : Byte)
  /-- GCL_SETPOINT (R163) -/
  | gclSetpoint (h : DHdr) (slot fields flags : Byte) (setpoint win : Half) (lutset : Byte) (slewUp slewDn margin : Half)
  /-- INSTALLATION_MODEL (R151) -/
  | installationModel (h : DHdr) (cx : Byte) (isoMin isoMax rateMax : Half)
  /-- PROT_CONFIG (R185) -/
  | protConfig (h : DHdr) (param object : Byte) (value : Word)
  /-- AUTHORISATION_WRITE (R188) -/
  | authorisationWrite (h : DHdr) (entry : Byte) (w0 w1 w2 w3 w4 : Word)
  /-- WINTER_ENTER (R191) -/
  | winterEnter (h : DHdr) (scope index : Byte) (reason : Half)
  /-- WINTER_RELEASE (R195) -/
  | winterRelease (h : DHdr) (scope index override_ : Byte)
  /-- LE_IMAGE_LOAD (R230) -/
  | leImageLoad (h : DHdr) (first count : Byte) (len : Word) (addr : Word64) (data : HostData)
  /-- LE_TASK_START (R242) -/
  | leTaskStart (h : DHdr) (engine task entry sev : Byte) (period phase : Word) (nobj : Byte) (param : Word64) (data : HostData)
  /-- LE_TASK_STOP (R247) -/
  | leTaskStop (h : DHdr) (engine task : Byte)
  /-- CAPTURE (R283) -/
  | capture (h : DHdr) (point index trig shift : Byte) (len pre : Word) (at_ addr : Word64)
  /-- TELEMETRY_SUBSCRIBE (R279) -/
  | telemetrySubscribe (h : DHdr) (sub ring kind index : Byte) (mask period : Word)
  /-- REC_NOTE (R355) -/
  | recNote (h : DHdr) (note : Half) (data : List Word)
  /-- REC_FLUSH (R356) -/
  | recFlush (h : DHdr)
  /-- JL_STREAM_OPEN (R379) -/
  | jlStreamOpen (h : DHdr) (port stream dir rate txch : Byte) (bw : Half) (txfreq : Word) (pdly : Half)
  /-- JL_STREAM_CLOSE (R381) -/
  | jlStreamClose (h : DHdr) (port stream : Byte)
  /-- DESCRIPTOR_FETCH (R264) -/
  | descriptorFetch (f : Fetch) (data : HostData)
  /-- FETCH_RETRY (R267) -/
  | fetchRetry (ring : Fin 16) (f : Fetch) (data : HostData)
  /-- CR_TAIL_DOORBELL (R262) -/
  | crTailDoorbell (ring : Fin 16) (v : Word)
  /-- CQ_HEAD_DOORBELL (R262) -/
  | cqHeadDoorbell (ring : Fin 16) (v : Word)
  /-- TR_HEAD_DOORBELL (R262) -/
  | trHeadDoorbell (ring : Fin 4) (v : Word)
  /-- ER_HEAD_DOORBELL (R262) -/
  | erHeadDoorbell (v : Word)
  /-- CR_ENABLE (R266) -/
  | crEnable (ring : Fin 16) (v : Word)
  /-- CR_DRAIN (R266) -/
  | crDrain (ring : Fin 16) (v : Word)
  /-- CR_RESTART (R266) -/
  | crRestart (ring : Fin 16) (v : Word)
  /-- TR_CFG_WRITE (R289) -/
  | trCfgWrite (ring : Fin 4) (v : Word)
  /-- ER_CFG_WRITE (R289) -/
  | erCfgWrite (v : Word)
  /-- FUNCTION_RESET (R256) -/
  | functionReset
  /-- BUS_MASTER_DISABLE (R257) -/
  | busMasterDisable
  /-- UNSUPPORTED_ACCESS (R6) -/
  | unsupportedAccess (sp : RegSpace) (off size : Nat) (write : Bool)
  /-- REGISTER_WRITE (R7) -/
  | registerWrite (sp : RegSpace) (off : Nat) (v : Word)
  /-- READ_CLEAR (R7) -/
  | readClear (off : Nat)
  /-- LO_HALF_READ (R206) -/
  | loHalfRead (port : RdPort) (off : Nat)
  /-- SEV_WRITE (R315) -/
  | sevWrite (blk : Fin 16) (which : Bool) (v : Word)
  /-- FAULT_ACK (R312) -/
  | faultAck (blk : Fin 16) (v : Word)
  /-- FLT_POLICY_WRITE (R323) -/
  | fltPolicyWrite (v : Word)
  /-- TIM_SLACK_CLR (R224) -/
  | timSlackClr (v : Word)
  /-- CH_CFG_WRITE (R77) -/
  | chCfgWrite (dir : Dir) (chain : Fin 32) (v : Word)
  /-- TDD_REGISTER_WRITE (R77) -/
  | tddRegisterWrite (sched : Fin 4) (reg : Nat) (v : Word)
  /-- TDDSW_CFG_WRITE (R96) -/
  | tddswCfgWrite (v : Word)
  /-- JL_PORT_CFG_WRITE (R361) -/
  | jlPortCfgWrite (port : Fin 4) (v : Word)
  /-- JL_AGRP_WRITE (R387) -/
  | jlAgrpWrite (dir : Dir) (chain : Fin 32) (v : Word)
  /-- GEN_VID_WRITE (R440) -/
  | genVidWrite (v : Word)
  /-- REC_CURSOR_HI_WRITE (R353) -/
  | recCursorHiWrite (v : Word)
  /-- TST_TMUX_WRITE (R410) -/
  | tstTmuxWrite (pin : Fin 8) (v : Word)
  /-- INTC_CLAIM (R299) -/
  | intcClaim
  /-- INTC_EOI (R300) -/
  | intcEoi (v : Word)
  /-- VEC_MASK_SET (R303) -/
  | vecMaskSet (half : Fin 2) (v : Word)
  /-- VEC_MASK_CLR (R304) -/
  | vecMaskClr (half : Fin 2) (v : Word)
  /-- VEC_MASK_READ (R303) -/
  | vecMaskRead (half : Fin 2)
  /-- VEC_PEND_SET (R294) -/
  | vecPendSet (half : Fin 2) (v : Word)
  /-- VEC_PEND_CLR (R294) -/
  | vecPendClr (half : Fin 2) (v : Word)
  /-- SRC_EN_SET (R293) -/
  | srcEnSet (w : Fin 16) (v : Word)
  /-- SRC_EN_CLR (R293) -/
  | srcEnClr (w : Fin 16) (v : Word)
  /-- SRC_LAT_SET (R293) -/
  | srcLatSet (w : Fin 16) (v : Word)
  /-- SRC_LAT_CLR (R293) -/
  | srcLatClr (w : Fin 16) (v : Word)
  /-- SRC_CFG_WRITE (R293) -/
  | srcCfgWrite (src : Fin 512) (v : Word)
  /-- VEC_CFG_WRITE (R307) -/
  | vecCfgWrite (vec : Fin 64) (v : Word)
  /-- VEC_COAL_WRITE (R307) -/
  | vecCoalWrite (vec : Fin 64) (v : Word)
  /-- PRIGROUP_WRITE (R297) -/
  | prigroupWrite (v : Word)
  /-- VECTOR_LAUNCH (R296) -/
  | vectorLaunch (supervisor : Bool)
  /-- COALESCE_TIMER (R295) -/
  | coalesceTimer (vec : Fin 64)
  /-- SUPERVISOR_VECTOR (R305) -/
  | supervisorVector (vec : Fin 64)
  /-- READ32 (R286) -/
  | read32 (off : BitVec 24) (pec : Byte)
  /-- REC_CURSOR (R286) -/
  | recCursor (seq : BitVec 48) (pec : Byte)
  /-- REC_READ (R286) -/
  | recRead (off : Half) (pec : Byte)
  /-- FORCE_WINTER (R287) -/
  | forceWinter (key pec : Byte)
  /-- FORCE_WITHDRAW (R287) -/
  | forceWithdraw (key pec : Byte)
  /-- IDENT (R286) -/
  | ident (pec : Byte)
  /-- EXTEST (R409) -/
  | extest (cells : BitVec 3412)
  /-- SAMPLE_PRELOAD (R408) -/
  | samplePreload (cells : BitVec 3412)
  /-- IDCODE (R408) -/
  | idcode
  /-- CLAMP (R409) -/
  | clamp
  /-- HIGHZ (R409) -/
  | highz
  /-- EXTEST_PULSE (R409) -/
  | extestPulse (cells : BitVec 3412)
  /-- EXTEST_TRAIN (R409) -/
  | extestTrain (cells : BitVec 3412)
  /-- BYPASS (R408) -/
  | bypass (code : Byte)
  /-- TAP_RESET (R408) -/
  | tapReset
  /-- TMUXSEL (R410) -/
  | tmuxsel (dr : Word)
  /-- FLTINJ_RAISE_SOURCE (R330) -/
  | fltinjRaiseSource (blk src : Fin 16) (obj : Byte)
  /-- FLTINJ_INVERT_SEV_N (R330) -/
  | fltinjInvertSevN (blk : Fin 16)
  /-- FLTINJ_INVERT_STATUS_COPY (R330) -/
  | fltinjInvertStatusCopy (blk src : Fin 16)
  /-- FLTINJ_INVERT_SYMBOLS (R330) -/
  | fltinjInvertSymbols (mask : BitVec 10) (addr : Word)
  /-- FLTINJ_INVERT_COMPLEMENT (R330) -/
  | fltinjInvertComplement (addr : Word)
  /-- FLTINJ_SUPPRESS_HEARTBEAT (R325) -/
  | fltinjSuppressHeartbeat (le : Fin 4)
  /-- TSTACC_READ_WORD (R412) -/
  | tstaccReadWord (addr : Word)
  /-- TSTACC_WRITE_WORD (R412) -/
  | tstaccWriteWord (addr : Word) (data : Word64)
  /-- TSTACC_WRITE_OPH (R339) -/
  | tstaccWriteOph (data : Word64)
  /-- TSTACC_STAGE_IMAGE (R412) -/
  | tstaccStageImage (addr : Word) (data : Word64)
  /-- TSTACC_RESTORE_IMAGE (R341) -/
  | tstaccRestoreImage
  /-- TSTACC_READ_REGISTER (R412) -/
  | tstaccReadRegister (addr : Word)
  /-- TSTACC_FAULT_ACK (R312) -/
  | tstaccFaultAck (addr : Word) (data : Word64)
  /-- SYS_RST_N_FALL (R400) -/
  | sysRstNFall
  /-- SYS_RST_N_RISE (R402) -/
  | sysRstNRise
  /-- STRAP_PIN_CHANGE (R402) -/
  | strapPinChange (pins : Straps)
  /-- FUSE_STAGE_END (R403) -/
  | fuseStageEnd (ok : Bool) (vidFloor : BitVec 6)
  /-- RECORDER_MOUNT (R340) -/
  | recorderMount (authOk : Bool)
  /-- SUPERVISOR_BOOT (R403) -/
  | supervisorBoot (romOk : Bool)
  /-- MEMORY_SELF_TEST (R403) -/
  | memorySelfTest (fails : List Word)
  /-- CLOCK_ALIGNMENT (R207) -/
  | clockAlignment
  /-- SPRING_FAIL (R403) -/
  | springFail
  /-- FRAME_ABSENT (R207) -/
  | frameAbsent
  /-- SPRING_PROOF (R403) -/
  | springProof (passA passB : Word)
  /-- RELEASE_POINT (R403) -/
  | releasePoint
  /-- PERST_N_DEASSERT (R404) -/
  | perstNDeassert
  /-- RAIL_UNDERVOLTAGE (R423) -/
  | railUndervoltage (rail : Rail)
  /-- INTERNAL_RESET_END (R423) -/
  | internalResetEnd
  /-- PFAIL_N_FALL (R349) -/
  | pfailNFall
  /-- PFAIL_N_RETURN (R350) -/
  | pfailNReturn
  /-- REFERENCE_LOSS (R59) -/
  | referenceLoss (tiles : BitVec 4) (refLost : Bool)
  /-- TILE_REALIGN (R208) -/
  | tileRealign (tile : Fin 4)
  /-- ELASTIC_BUFFER_SLIP (R209) -/
  | elasticBufferSlip (dir : Dir) (chain : Fin 32) (distance : Nat)
  /-- FRAME_IN_EDGE (R79) -/
  | frameInEdge
  /-- SYNC_DETECTION (R79) -/
  | syncDetection (sched : Fin 4)
  /-- SYNC_LOSS (R80) -/
  | syncLoss (sched : Fin 4)
  /-- FRAME_EDGE (R374) -/
  | frameEdge
  /-- TUNING_COMMIT (R63) -/
  | tuningCommit (dir : Dir) (chain : Fin 32)
  /-- LOCK_REACHED (R67) -/
  | lockReached (dir : Dir) (chain : Fin 32)
  /-- LOCK_TIMEOUT (R67) -/
  | lockTimeout (dir : Dir) (chain : Fin 32)
  /-- LOCK_LOST (R72) -/
  | lockLost (dir : Dir) (chain : Fin 32)
  /-- CHAIN_TRANSITION_END (R65) -/
  | chainTransitionEnd (dir : Dir) (chain : Fin 32)
  /-- CHAIN_STATE_HELD_START (R69) -/
  | chainStateHeldStart (dir : Dir) (chain : Fin 32)
  /-- CAL_START (R74) -/
  | calStart (dir : Dir) (chain : Fin 32)
  /-- CAL_END (R74) -/
  | calEnd (dir : Dir) (chain : Fin 32) (pass : Bool) (figure : Byte)
  /-- TDD_PERIOD_EDGE (R82) -/
  | tddPeriodEdge (sched : Fin 4) (service : Bool)
  /-- TURNAROUND_STEP (R82) -/
  | turnaroundStep (sched : Fin 4) (service : Bool)
  /-- FECB_FRAME_START (R87) -/
  | fecbFrameStart (bus : Fin 8)
  /-- FECB_FRAME_END (R86) -/
  | fecbFrameEnd (bus : Fin 8) (sdi : BitVec 24)
  /-- POWER_STEP_APPLY (R91) -/
  | powerStepApply (chain : Fin 32)
  /-- POWER_TABLE_COMMIT (R90) -/
  | powerTableCommit (chain : Fin 32)
  /-- VSWR_WINDOW (R93) -/
  | vswrWindow (chain : Fin 32) (whole : Bool) (psum prfl : Int)
  /-- TUNER_SEARCH_TRIAL (R94) -/
  | tunerSearchTrial (chain : Fin 32) (rl : Int)
  /-- SLOT_ENABLE_BOUNDARY (R36) -/
  | slotEnableBoundary (slot : Fin 256)
  /-- SLOT_SETTLED (R38) -/
  | slotSettled (slot : Fin 256)
  /-- SLOT_DISABLE_BOUNDARY (R37) -/
  | slotDisableBoundary (slot : Fin 256)
  /-- SLOT_DISABLE_END (R37) -/
  | slotDisableEnd (slot : Fin 256)
  /-- SLOT_COEF_WRITTEN (R46) -/
  | slotCoefWritten (slot : Fin 256)
  /-- SLOT_SWAP_BEGIN (R47) -/
  | slotSwapBegin (slot : Fin 256)
  /-- SLOT_FADE_END (R47) -/
  | slotFadeEnd (slot : Fin 256)
  /-- DEADLINE_MISS (R211) -/
  | deadlineMiss (level : MissLevel)
  /-- SLACK_CHECK (R214) -/
  | slackCheck (tile : Fin 4) (reports : List (Fin 64 × Fin 101 × Bool))
  /-- AUTUMN_STAGE_ADVANCE (R215) -/
  | autumnStageAdvance (tile : Fin 4)
  /-- AUTUMN_EXIT (R216) -/
  | autumnExit (tile : Fin 4)
  /-- VID_RAISE (R217) -/
  | vidRaise
  /-- VID_LOWER (R217) -/
  | vidLower
  /-- GAIN_TICK (R136) -/
  | gainTick (meas : List LoopMeas)
  /-- CAP_CUT (R137) -/
  | capCut (slot : Fin 256)
  /-- CX_CYCLE (R107) -/
  | cxCycle (cx : Fin 64) (c : CycleMeas)
  /-- CX_WINDOW_CLOSE (R124) -/
  | cxWindowClose (cx : Fin 64) (w : WindowMeas)
  /-- CX_SEARCH_END (R123) -/
  | cxSearchEnd (cx : Fin 64) (peak : Nat) (overMean : Int) (samples : Nat)
  /-- CX_SEED_LOADED (R118) -/
  | cxSeedLoaded (cx : Fin 64)
  /-- CX_SEED_SCREEN_END (R118) -/
  | cxSeedScreenEnd (cx : Fin 64) (validBlocks : Nat) (em esh : Nat)
  /-- CX_SEED_FADE_END (R118) -/
  | cxSeedFadeEnd (cx : Fin 64)
  /-- OSC_WINDOW (R178) -/
  | oscWindow (rx : Fin 32) (w : OscMeas)
  /-- BRIDGE_REOPEN (R174) -/
  | bridgeReopen (chain : Fin 32)
  /-- NRISE_EVAL (R180) -/
  | nriseEval (rx : Fin 32) (floor : Int)
  /-- DONOR_LOSS_EVAL (R181) -/
  | donorLossEval (group : Fin 64) (powers : List (Fin 256 × Int))
  /-- OOBE_WINDOW (R182) -/
  | oobeWindow (chain : Fin 32) (slots : List (Fin 256 × Int × Int))
  /-- TDD_SYNC_LOSS_ENTRY (R183) -/
  | tddSyncLossEntry (chain : Fin 32)
  /-- TEMP_SAMPLE (R184) -/
  | tempSample (sensor : Fin 5) (temp : Int)
  /-- AUTH_CHECK (R187) -/
  | authCheck (slot : Fin 256)
  /-- AUTH_STORE_END (R188) -/
  | authStoreEnd (entry : Fin 64)
  /-- CAUSE_CLEAR_TIMER (R190) -/
  | causeClearTimer (scope : WScope) (cause : Fin 16)
  /-- RELEASE_PROOF_END (R196) -/
  | releaseProofEnd (scope : WScope) (passA passB : Word)
  /-- RELEASE_COMMIT (R196) -/
  | releaseCommit (scope : WScope)
  /-- NET_READBACK (R194) -/
  | netReadback (following complementOk : Word)
  /-- GRACE_EXPIRY (R317) -/
  | graceExpiry (blk src : Fin 16)
  /-- SCRUB_CHECK (R329) -/
  | scrubCheck (t : ScrubTarget)
  /-- SCRUB_PASS_END (R329) -/
  | scrubPassEnd (ms : Half)
  /-- SUPERVISOR_HEARTBEAT (R325) -/
  | supervisorHeartbeat (le : Fin 4)
  /-- SUP_STALL (R325) -/
  | supStall (le : Fin 4)
  /-- ALIVE_HALF_PERIOD (R324) -/
  | aliveHalfPeriod
  /-- TASK_RELEASE (R243) -/
  | taskRelease (engine : Fin 128) (task : Fin 8)
  /-- TASK_DISPATCH (R243) -/
  | taskDispatch (engine : Fin 128)
  /-- TASK_TRAP (R246) -/
  | taskTrap (engine : Fin 128) (cause : TrapCause)
  /-- LE_LOAD_END (R248) -/
  | leLoadEnd
  /-- ADD (R233) -/
  | add (e : Fin 128) (gd ga gb : Reg)
  /-- SUB (R233) -/
  | sub (e : Fin 128) (gd ga gb : Reg)
  /-- AND (R232) -/
  | and_ (e : Fin 128) (gd ga gb : Reg)
  /-- OR (R232) -/
  | or_ (e : Fin 128) (gd ga gb : Reg)
  /-- XOR (R232) -/
  | xor_ (e : Fin 128) (gd ga gb : Reg)
  /-- SLL (R232) -/
  | sll (e : Fin 128) (gd ga gb : Reg)
  /-- SRL (R232) -/
  | srl (e : Fin 128) (gd ga gb : Reg)
  /-- SRA (R232) -/
  | sra (e : Fin 128) (gd ga gb : Reg)
  /-- MUL (R232) -/
  | mul (e : Fin 128) (gd ga gb : Reg)
  /-- MULH (R232) -/
  | mulh (e : Fin 128) (gd ga gb : Reg)
  /-- SLT (R232) -/
  | slt (e : Fin 128) (gd ga gb : Reg)
  /-- SLTU (R232) -/
  | sltu (e : Fin 128) (gd ga gb : Reg)
  /-- MIN (R232) -/
  | min_ (e : Fin 128) (gd ga gb : Reg)
  /-- MAX (R232) -/
  | max_ (e : Fin 128) (gd ga gb : Reg)
  /-- ADDS (R233) -/
  | adds (e : Fin 128) (gd ga gb : Reg)
  /-- SUBS (R233) -/
  | subs (e : Fin 128) (gd ga gb : Reg)
  /-- CLZ (R232) -/
  | clz (e : Fin 128) (gd ga : Reg)
  /-- LG2 (R232) -/
  | lg2 (e : Fin 128) (gd ga : Reg)
  /-- EX2 (R232) -/
  | ex2 (e : Fin 128) (gd ga : Reg)
  /-- ADDI (R232) -/
  | addi (e : Fin 128) (gd ga : Reg) (imm : BitVec 18)
  /-- ANDI (R232) -/
  | andi (e : Fin 128) (gd ga : Reg) (imm : BitVec 18)
  /-- ORI (R232) -/
  | ori (e : Fin 128) (gd ga : Reg) (imm : BitVec 18)
  /-- XORI (R232) -/
  | xori (e : Fin 128) (gd ga : Reg) (imm : BitVec 18)
  /-- SLTI (R232) -/
  | slti (e : Fin 128) (gd ga : Reg) (imm : BitVec 18)
  /-- LUI (R232) -/
  | lui (e : Fin 128) (gd : Reg) (imm : BitVec 18)
  /-- SLLI (R232) -/
  | slli (e : Fin 128) (gd ga : Reg) (sh : BitVec 5)
  /-- SRLI (R232) -/
  | srli (e : Fin 128) (gd ga : Reg) (sh : BitVec 5)
  /-- SRAI (R232) -/
  | srai (e : Fin 128) (gd ga : Reg) (sh : BitVec 5)
  /-- LDW (R234) -/
  | ldw (e : Fin 128) (gd ga : Reg) (imm : BitVec 18)
  /-- STW (R234) -/
  | stw (e : Fin 128) (gs ga : Reg) (imm : BitVec 18)
  /-- LDH (R234) -/
  | ldh (e : Fin 128) (gd ga : Reg) (imm : BitVec 18)
  /-- STH (R234) -/
  | sth (e : Fin 128) (gs ga : Reg) (imm : BitVec 18)
  /-- BEQ (R232) -/
  | beq (e : Fin 128) (ga gb : Reg) (ofs : BitVec 18)
  /-- BNE (R232) -/
  | bne (e : Fin 128) (ga gb : Reg) (ofs : BitVec 18)
  /-- BLT (R232) -/
  | blt (e : Fin 128) (ga gb : Reg) (ofs : BitVec 18)
  /-- BGE (R232) -/
  | bge (e : Fin 128) (ga gb : Reg) (ofs : BitVec 18)
  /-- BLTU (R232) -/
  | bltu (e : Fin 128) (ga gb : Reg) (ofs : BitVec 18)
  /-- BGEU (R232) -/
  | bgeu (e : Fin 128) (ga gb : Reg) (ofs : BitVec 18)
  /-- JAL (R232) -/
  | jal (e : Fin 128) (ofs : BitVec 26)
  /-- JALR (R232) -/
  | jalr (e : Fin 128) (gd ga : Reg) (imm : BitVec 18)
  /-- PRD (R238) -/
  | prd (e : Fin 128) (g gi : Reg) (paddr : Half) (live : Option Word)
  /-- PWR (R240) -/
  | pwr (e : Fin 128) (g gi : Reg) (paddr : Half)
  /-- PRDC (R238) -/
  | prdc (e : Fin 128) (g gi : Reg) (paddr : Half)
  /-- PWRC (R240) -/
  | pwrc (e : Fin 128) (g gi : Reg) (paddr : Half)
  /-- VADD (R235) -/
  | vadd (e : Fin 128) (vd va vb : VReg)
  /-- VSUB (R235) -/
  | vsub (e : Fin 128) (vd va vb : VReg)
  /-- VMUL (R235) -/
  | vmul (e : Fin 128) (vd va vb : VReg)
  /-- VCMUL (R235) -/
  | vcmul (e : Fin 128) (vd va vb : VReg)
  /-- VCMULJ (R235) -/
  | vcmulj (e : Fin 128) (vd va vb : VReg)
  /-- VDOT (R235) -/
  | vdot (e : Fin 128) (vd va vb : VReg)
  /-- VENER (R235) -/
  | vener (e : Fin 128) (vd va : VReg)
  /-- VSHX (R235) -/
  | vshx (e : Fin 128) (vd va : VReg) (gb : Reg)
  /-- VMOV (R235) -/
  | vmov (e : Fin 128) (vd va : VReg)
  /-- VEXT (R232) -/
  | vext (e : Fin 128) (gd : Reg) (va : VReg) (lane : Fin 16) (frac : BitVec 5)
  /-- VINS (R232) -/
  | vins (e : Fin 128) (vd : VReg) (ga : Reg) (lane : Fin 16) (frac : BitVec 5)
  /-- VLD (R236) -/
  | vld (e : Fin 128) (vd : VReg) (ga : Reg) (imm : BitVec 19)
  /-- VST (R236) -/
  | vst (e : Fin 128) (vd : VReg) (ga : Reg) (imm : BitVec 19)
  /-- NOP_INSTRUCTION (R232) -/
  | nopInstruction (e : Fin 128)
  /-- WAIT (R240) -/
  | wait (e : Fin 128)
  /-- TRAP (R232) -/
  | trap (e : Fin 128)
  /-- TELEMETRY_SNAPSHOT (R281) -/
  | telemetrySnapshot (sub : Fin 64) (meas : List (Fin 32 × Word))
  /-- CAPTURE_START (R283) -/
  | captureStart
  /-- CAPTURE_END (R283) -/
  | captureEnd (oldest : BitVec 24) (samples : List Word)
  /-- EVENT_COPY (R282) -/
  | eventCopy
  /-- FLUSH_START (R346) -/
  | flushStart
  /-- FLUSH_END (R346) -/
  | flushEnd (badVerify : List Nat)
  /-- PERIODIC_FLUSH (R347) -/
  | periodicFlush
  /-- SUMMARY_RECORD (R343) -/
  | summaryRecord (code : BitVec 12)
  /-- LINK_TRAINING_STEP (R366) -/
  | linkTrainingStep (port : Fin 4) (r : TrainResult)
  /-- TRAINING_RESTART (R366) -/
  | trainingRestart (port : Fin 4)
  /-- LINK_HEADER (R365) -/
  | linkHeader (port : Fin 4) (hdr : LinkHdr)
  /-- HEADER_LOSS (R365) -/
  | headerLoss (port : Fin 4)
  /-- BLOCK_ERROR_RATE (R366) -/
  | blockErrorRate (port : Fin 4) (errors : Nat)
  /-- STREAM_CELL (R376) -/
  | streamCell (port : Fin 4) (stream : Fin 12) (cell : Cell)
  /-- MESSAGE_RETRANSMIT (R382) -/
  | messageRetransmit (port : Fin 4)
  /-- RETRY_EXHAUSTED (R382) -/
  | retryExhausted (port : Fin 4)
  /-- HEARTBEAT (R384) -/
  | heartbeat (m : MsgHdr) (epoch : Word) (ndev : Byte)
  /-- HEARTBEAT_SEND (R384) -/
  | heartbeatSend
  /-- HEARTBEAT_LOSS (R373) -/
  | heartbeatLoss
  /-- TIME (R370) -/
  | time (m : MsgHdr) (dt : Word64) (framePh : Word) (depth : Byte)
  /-- TIME_SEND (R370) -/
  | timeSend (port : Fin 4)
  /-- DELAY_REQ (R369) -/
  | delayReq (m : MsgHdr) (t1 t2 t3 : Word64)
  /-- DELAY_RESP (R369) -/
  | delayResp (m : MsgHdr) (t1 t2 t3 t4 : Word64)
  /-- JOIN (R362) -/
  | join (m : MsgHdr) (pver upport : Byte) (reach : List Half)
  /-- JOIN_RESPONSE (R362) -/
  | joinResponse (m : MsgHdr) (result : Byte)
  /-- REPORT (R389) -/
  | report (m : MsgHdr) (rseq : Half) (full : Bool) (entries : List Word64)
  /-- REPORT_SEND (R388) -/
  | reportSend (full : Bool)
  /-- REPORT_RESPONSE (R391) -/
  | reportResponse (m : MsgHdr)
  /-- CAP (R390) -/
  | cap (m : MsgHdr) (cseq : Half) (last : Bool) (entries : List CapEntry)
  /-- CAP_RESPONSE (R389) -/
  | capResponse (m : MsgHdr) (cseq : Half)
  /-- STREAM_REQ (R380) -/
  | streamReq (m : MsgHdr) (stream rate column phase : Byte) (start : Word64)
  /-- STREAM_REQ_RESPONSE (R380) -/
  | streamReqResponse (m : MsgHdr) (result : Byte)
  /-- STREAM_REQ_REPEAT (R380) -/
  | streamReqRepeat (port : Fin 4) (stream : Fin 12)
  /-- STREAM_CLOSE (R380) -/
  | streamClose (m : MsgHdr) (stream : Byte)
  /-- STREAM_START (R380) -/
  | streamStart (port : Fin 4) (recv : Bool) (stream : Fin 12)
  /-- STREAM_STOP (R381) -/
  | streamStop (port : Fin 4) (stream : Fin 12)
  /-- REQUEST_REISSUE (R386) -/
  | requestReissue (dst : Fin 16)
  /-- MASTER_LOST (R372) -/
  | masterLost
  /-- CASCADE_HOLDOVER_TIMEOUT (R392) -/
  | cascadeHoldoverTimeout
  /-- REFERENCE_RETURN (R59) -/
  | referenceReturn (tiles : BitVec 4)
  /-- CX_FREEZE_BOUNDARY (R116) -/
  | cxFreezeBoundary
  /-- CX_RESET_BOUNDARY (R117) -/
  | cxResetBoundary (cx : Fin 64)
  /-- RECEIVE_STREAM_RAMP_DOWN (R381) -/
  | receiveStreamRampDown (port : Fin 4) (stream : Fin 12)
  /-- LUT_LOAD_END (R159) -/
  | lutLoadEnd (set : Fin 16)
  /-- CAP_STALE (R148) -/
  | capStale (cx : Fin 64)
  /-- BAD_CMD (R286) -/
  | badCmd (cmd : Byte) (args : List Byte) (pec : Byte)
  /-- SAT_SLOT (R25) -/
  | satSlot (slot : Fin 256)
  /-- SAT_CHAIN (R45) -/
  | satChain (chain : Fin 32)
  /-- DCB_RANGE (R29) -/
  | dcbRange (rx : Fin 32) (estI estQ : Half)
  /-- SYMBOL_ERROR (R328) -/
  | symbolError (addr : Word)
deriving DecidableEq, Repr

end Sys2Proof
end

