-- ==== Sys2Proof/WellFormed.lean ====
section
/-! DEFINITION. Well-formed commands: those that can arise on the hardware. The types of Sys2Proof.Syntax already bound every index; these are the bounds that they do not carry. The meanings are total on every command, well-formed or not. -/

namespace Sys2Proof

/-- A failure code of a host read is 1 to 5 (Table 9-11). -/
def HostData.wf : HostData → Bool
  | .words _ => true
  | .failed c => decide (1 ≤ c.val)

/-- A descriptor has 64 bytes (R263). -/
def Fetch.wf : Fetch → Bool
  | .bytes bs => decide (bs.length = 64)
  | .failed c => decide (1 ≤ c.val)

/-- A block-floating coefficient: 20-bit mantissas and a 6-bit exponent (R105). -/
def Coef.wf (c : Coef) : Bool :=
  decide (-524288 ≤ c.mi ∧ c.mi ≤ 524287 ∧ -524288 ≤ c.mq ∧ c.mq ≤ 524287 ∧ c.e < 64)

/-- An access that R6 and R259 answer with Unsupported Request: not aligned, or not of 32 bits (64 bits in the MSI-X table). -/
def accessUnsupported (sp : RegSpace) (off size : Nat) : Bool :=
  match sp with
  | .bar0 => !(decide (size = 4) && decide (off % 4 = 0))
  | .bar2 => !((decide (size = 4) && decide (off % 4 = 0)) || (decide (size = 8) && decide (off % 8 = 0) && decide (0x8000 ≤ off) && decide (off < 0x8400)))
  | _ => false

/-- The offsets of a TDD schedule (Table 16-2): CFG, OFS, SIDE, TIM, STAT, SSBF and the 32 pattern words. -/
def tddRegWf (reg : Nat) : Bool := decide (reg % 4 = 0) && decide (reg < 0xC0)

/-- The bounds of a command's operands that its types do not carry; a command without an arm of its own has none. -/
def Instr.wf (i : Instr) : Bool :=
  match i with
  | .slotCoefLoad _ _ _ _ _ d => d.wf
  | .txPowerTableLoad _ _ _ d => d.wf
  | .cxResetSeed _ _ _ _ _ d => d.wf
  | .gclLutLoad _ _ _ _ d => d.wf
  | .leImageLoad _ _ _ _ _ d => d.wf
  | .leTaskStart _ _ _ _ _ _ _ _ _ d => d.wf
  | .recNote _ _ data => decide (data.length = 8)
  | .descriptorFetch f d => f.wf && d.wf
  | .fetchRetry _ f d => f.wf && d.wf
  | .unsupportedAccess sp off size _ => accessUnsupported sp off size
  | .registerWrite _ off _ => decide (off % 4 = 0)
  | .readClear off => decide (off % 4 = 0)
  | .loHalfRead _ off => decide (off % 4 = 0)
  | .bypass code => !([0x00, 0x01, 0x02, 0x03, 0x04, 0x05, 0x06, 0x20, 0x21, 0x22] : List Byte).contains code
  | .tddRegisterWrite _ reg _ => tddRegWf reg
  | .badCmd cmd _ _ => !([0x01, 0x10, 0x11, 0x40, 0x41, 0x7F] : List Byte).contains cmd
  | .cxCycle _ c => c.cand.all Coef.wf
  | .join _ _ _ reach => decide (reach.length = 4)
  | .report _ _ _ entries => decide (1 ≤ entries.length ∧ entries.length ≤ 6)
  | .cap _ _ _ entries => decide (entries.length ≤ 6)
  | _ => true

end Sys2Proof
end

