-- ==== Sys2Proof/Decode.lean ====
section
/-! DEFINITION. The command that a word of spec/opcode_table.json spells. The table gives none of its rows a bit: the manual's commands are descriptors, register accesses, frames, pin events and the device's own steps, and their operands do not stand in one word. The bytes of a descriptor are read in Sys2Proof.Machine.Operands, the words of a loop engine's instruction in Sys2Proof.Machine.Uskihar. -/

namespace Sys2Proof

/-- No row of the table has bits, so no word spells a command. -/
def decodeTableWord (_nbits _w : Nat) : Option Instr := none

end Sys2Proof
end

