-- ==== Sys2Proof/Machine/Tab.lean ====
section
/-! DEFINITION. Tables: the one form in which the model holds indexed state (slots, chains, engines, memories). A table lists (index, value) pairs in rising order of index and lists no entry that equals the table's default, so equal contents are equal data. -/

namespace Sys2Proof.Machine

/-- A table of values by index. -/
abbrev Tab (α : Type) := List (Nat × α)

/-- The value at index i; d where nothing is listed. -/
def Tab.get {α : Type} (t : Tab α) (d : α) (i : Nat) : α :=
  match t with
  | [] => d
  | (k, v) :: r => if k = i then v else Tab.get r d i

/-- The table without index i. -/
def Tab.erase {α : Type} (t : Tab α) (i : Nat) : Tab α :=
  match t with
  | [] => []
  | (k, v) :: r => if k = i then Tab.erase r i else (k, v) :: Tab.erase r i

/-- The table with index i put in its place. -/
def Tab.insert {α : Type} (t : Tab α) (i : Nat) (v : α) : Tab α :=
  match t with
  | [] => [(i, v)]
  | (k, x) :: r => if i < k then (i, v) :: (k, x) :: r else (k, x) :: Tab.insert r i v

/-- Write v at index i; a value equal to the default is not listed. -/
def Tab.set {α : Type} [DecidableEq α] (t : Tab α) (d : α) (i : Nat) (v : α) : Tab α :=
  if v = d then Tab.erase t i else Tab.insert (Tab.erase t i) i v

/-- Change the value at index i. -/
def Tab.upd {α : Type} [DecidableEq α] (t : Tab α) (d : α) (i : Nat) (f : α → α) : Tab α :=
  t.set d i (f (t.get d i))

/-- The canonical form: indices strictly rising, no entry equal to the default. -/
def Tab.wf {α : Type} [DecidableEq α] (t : Tab α) (d : α) : Bool :=
  match t with
  | [] => true
  | (k, v) :: r => decide (v ≠ d) && r.all (fun e => decide (k < e.1)) && Tab.wf r d

end Sys2Proof.Machine
end

