-- ==== Sys2Proof/Machine/StHost.lean ====
section
/-! DEFINITION. The state of the host side: rings and descriptors (chapter 9), interrupts (chapter 10), fault registers and their supervision (chapter 11), the Diwell recorder and its store (chapter 12). -/

namespace Sys2Proof.Machine

/-- Completion statuses (Table 9-11). -/
inductive Status where
  | ok | aborted | abortTooLate | refusedDeadline | refusedPort | refusedState | badDescriptor | timeoutLock | winterActive | fetchError | superseded
deriving DecidableEq, Repr

/-- An accepted descriptor that has not completed (R219, R263): its identity, its work, and how far it has come. -/
structure Pend where
  id : Nat
  ring : Nat
  index : Half
  tag : Word
  op : Byte
  cls : Cls
  notify : Bool
  /-- acceptance, DTIME in ns and time in ticks -/
  accDt : Word64
  acc : Nat
  /-- past its commit point (R220, R278) -/
  committed : Bool
  /-- its completion is discarded (R256) -/
  discard : Bool
  desc : Desc
  /-- the start or due time of its work, in ticks, and a number its chapter keeps with it -/
  start : Nat
  aux : Nat
deriving DecidableEq, Repr

/-- One aligned write of the device to host memory: address, 32-bit words (R275, R280, R282, R283, R298). -/
structure HostWrite where
  addr : Nat
  words : List Word
deriving DecidableEq, Repr

/-- A completion (Table 9-10) before it has its place in the ring. -/
structure Compl where
  ring : Nat
  tag : Word
  op : Byte
  status : Status
  index : Half
  accDt : Word64
  doneDt : Word64
  res : Word
  res2 : Half
  notify : Bool
deriving DecidableEq, Repr

/-- Command ring states (Table 9-6). -/
inductive RingSt where | disabled | running | stopped | draining
deriving DecidableEq, Repr

/-- A FENCE that waits at HEAD (R277): its header and the ids it waits for. -/
structure FenceWait where
  hdr : DHdr
  waits : List Nat
deriving DecidableEq, Repr

/-- A command ring and its completion ring (R260-R266). -/
structure CmdRing where
  crLo : Word
  crHi : Word
  cqLo : Word
  cqHi : Word
  privOper : Bool
  privCfg : Bool
  size : Nat
  st : RingSt
  cause : Nat
  head : Half
  tail : Half
  ctail : Half
  chead : Half
  fence : Option FenceWait
  /-- the time of a descriptor read that failed once (R267) -/
  retry : Option Nat
deriving DecidableEq, Repr

/-- A command ring at reset (R289). -/
def CmdRing.reset : CmdRing :=
  { crLo := 0, crHi := 0, cqLo := 0, cqHi := 0, privOper := true, privCfg := true, size := 6, st := .disabled, cause := 0,
    head := 0, tail := 0, ctail := 0, chead := 0, fence := none, retry := none }

/-- A telemetry ring, and the event ring with its write-back address (R260, R282, R289). -/
structure OutRing where
  lo : Word
  hi : Word
  wbLo : Word
  wbHi : Word
  en : Bool
  minsev : Nat
  size : Nat
  tail : Half
  head : Half
  drop : Word
deriving DecidableEq, Repr

/-- A telemetry ring at reset. -/
def OutRing.reset : OutRing :=
  { lo := 0, hi := 0, wbLo := 0, wbHi := 0, en := false, minsev := 0, size := 6, tail := 0, head := 0, drop := 0 }

/-- A telemetry subscription (R279, R281). -/
structure Sub where
  active : Bool
  kind : Nat
  ring : Nat
  index : Nat
  mask : Word
  period : Word
  /-- snapshots since its start; a drop to be shown as GAP -/
  count : Nat
  gap : Bool
deriving DecidableEq, Repr

/-- No subscription. -/
def Sub.reset : Sub := { active := false, kind := 0, ring := 0, index := 0, mask := 0, period := 0, count := 0, gap := false }

/-- STATUS byte of MP (R286). -/
inductive MpStatus where | ok | busy | badPec | refused | badCmd
deriving DecidableEq, Repr

/-- The capture under way (R283): the id of its descriptor, whether it has triggered, and since when it runs. -/
structure CapRun where
  id : Nat
  triggered : Bool
  since : Nat
deriving DecidableEq, Repr

/-- The HIF block (chapter 9). -/
structure Hif where
  flrWinter : Bool
  busMaster : Bool
  msixEn : Bool
  msixMask : Bool
  rings : Tab CmdRing
  tr : Tab OutRing
  er : OutRing
  subs : Tab Sub
  outstanding : List Pend
  nextId : Nat
  /-- round-robin pointer of R265 -/
  rr : Nat
  /-- completions held while Bus Master Enable is clear (R257) -/
  held : List Compl
  hostWrites : List HostWrite
  refDl : Tab Nat
  refOther : Tab Nat
  pecErr : Nat
  mgmtForce : Bool
  mpStatus : MpStatus
  mpData : List Byte
  mpCursor : Nat
  /-- HIF_CAPT.STATE 3 and OLDEST, and the capture under way -/
  captDone : Bool
  captOldest : BitVec 24
  captRun : Option CapRun
  /-- capture memory, by word offset from 0x40_0000; captures completed so far (the free value of words not yet defined depends on it) -/
  captMem : Tab Word
  captValid : Bool
  captLen : Nat
  captCount : Nat
  /-- BAR2 doorbell registers: last valid values are the counts above; MSI-X table words (offset / 4) -/
  msix : Tab Word
  /-- _HI half latched per port (0 HP, 1 MP, 2 TP) and _LO register (R206), and the value each port read last -/
  hiLatch : Tab Word
  rdData : Tab Word
  urCount : Nat
deriving DecidableEq, Repr

/-- Default of an MSI-X table word: the Vector Control words have their mask bit set (PRESUMED, log 4). -/
def msixDefault (i : Nat) : Word := if i % 4 = 3 then 1 else 0

/-- HIF at reset. -/
def Hif.reset : Hif :=
  { flrWinter := false, busMaster := false, msixEn := false, msixMask := false, rings := [], tr := [],
    er := { OutRing.reset with minsev := 1 }, subs := [], outstanding := [], nextId := 0, rr := 0, held := [], hostWrites := [],
    refDl := [], refOther := [], pecErr := 0, mgmtForce := false, mpStatus := .busy, mpData := [], mpCursor := 1,
    captDone := false, captOldest := 0, captRun := none, captMem := [], captValid := false, captLen := 0, captCount := 0, msix := [],
    hiLatch := [], rdData := [], urCount := 0 }

/-- One interrupt vector (R294-R302). -/
structure Vec where
  target : Nat
  prio : Byte
  /-- VEC_COAL as written, and as in force since the last launch (R307) -/
  cnt : Nat
  time : Nat
  cntUse : Nat
  timeUse : Nat
  mask : Bool
  pend : Bool
  ripe : Bool
  active : Bool
  evcnt : Nat
  /-- time of the first event since the last launch -/
  first : Option Nat
  seen : Bool
  spur : Nat
  launches : Nat
deriving DecidableEq, Repr

/-- A vector at reset (R307). -/
def Vec.reset : Vec :=
  { target := 0, prio := 0x80, cnt := 1, time := 0, cntUse := 1, timeUse := 0, mask := true, pend := false, ripe := false, active := false,
    evcnt := 0, first := none, seen := false, spur := 0, launches := 0 }

/-- SRC_CFG fields of a source (R293, R307). -/
structure SrcCfg where
  urgent : Bool
  vector : Nat
deriving DecidableEq, Repr

/-- SRC_CFG at reset. -/
def SrcCfg.reset : SrcCfg := { urgent := false, vector := 0 }

/-- The INTC block (chapter 10). -/
structure Intc where
  prigroup : Byte
  wrBlocked : Bool
  vecs : Tab Vec
  srcs : Tab SrcCfg
  en : BitVec 512
  lat : BitVec 512
  /-- value INTC_CLAIM returned last to HP -/
  claimed : Option Nat
deriving DecidableEq, Repr

/-- INTC at reset. -/
def Intc.reset : Intc := { prigroup := 0xF0, wrBlocked := false, vecs := [], srcs := [], en := 0, lat := 0, claimed := none }

/-- The scope in which an occurrence acts (R316, Table 11-3; SCOPE codes of Table 11-1). -/
inductive FScope where
  | slot (n : Nat)
  | tx (n : Nat)
  | tile (k : Nat)
  | device
  | rx (n : Nat)
  | task (e t : Nat)
deriving DecidableEq, Repr

/-- The state a block keeps of one fault source (R309-R321). -/
structure FSrc where
  status : Bool
  level : Nat
  /-- SEV at the first occurrence (R319) -/
  sevFirst : Nat
  repeats : Nat
  tFirst : Word64
  scopes : List FScope
  /-- the end of the running grace timer, in ticks -/
  grace : Option Nat
  inj : Bool
  /-- the hidden copy disagrees (R321, FLTINJ kind 3) -/
  copyBad : Bool
deriving DecidableEq, Repr

/-- A clear source. -/
def FSrc.reset : FSrc :=
  { status := false, level := 0, sevFirst := 0, repeats := 0, tFirst := 0, scopes := [], grace := none, inj := false, copyBad := false }

/-- The FLT block, and every block's fault registers (chapter 11). Sources by 16 x b + s; SEV registers by 2 x b + (0 for sources 0-7, 1 for sources 8-15: PROT only). -/
structure Flt where
  policy : Word
  srcs : Tab FSrc
  sev : Tab Word
  /-- SEV registers found to disagree, whose reset SEV is in use (R321) -/
  sevLost : Tab Bool
  grace : Tab Half
  wrrej : Nat
  regfault : Nat
  passes : Half
  passMs : Half
  corr : Word
  unc : Word
  /-- ALIVE: toggling, pin level, stops, the time of its last half-period boundary -/
  toggling : Bool
  alive : Bool
  stops : Nat
  halfAt : Nat
  /-- the watchdog: running, last heartbeat of each supervisor engine, end of its suppression, missed bits, stall -/
  hbRun : Bool
  hb : Tab Nat
  hbOff : Tab Nat
  hbMiss : BitVec 4
  stall : Bool
  /-- poisoned memory words, correctable errors (word, symbol) and inverted complements by test address (R327, R330) -/
  poisoned : List Nat
  flipped : List (Nat × Nat)
  badCompl : List Nat
deriving DecidableEq, Repr

/-- FLT at reset. -/
def Flt.reset : Flt :=
  { policy := 0xFFFF0000, srcs := [], sev := [], sevLost := [], grace := [], wrrej := 0, regfault := 0, passes := 0, passMs := 0, corr := 0, unc := 0,
    toggling := false, alive := false, stops := 0, halfAt := 0, hbRun := false, hb := [], hbOff := [], hbMiss := 0, stall := false,
    poisoned := [], flipped := [], badCompl := [] }

/-- A record (Table 12-1) without its CHECK, which follows from the rest. -/
structure Rec where
  seq : Nat
  code : Nat
  oph : Nat
  sev : Nat
  summary : Bool
  src : Byte
  pcc : Word
  dtime : Word64
  data : BitVec 256
deriving DecidableEq, Repr

/-- The token bucket and the pending counts of a code (R342, R343). -/
structure Bucket where
  rate : Nat
  burst : Nat
  /-- fill, in tokens x 2,304,000,000,000 (ticks per second), and the time it stood so -/
  fill : Nat
  at_ : Nat
  supp : Nat
  drop : Nat
  firstOph : Nat
  lastOph : Nat
  maxSev : Nat
  src : Byte
deriving DecidableEq, Repr

/-- One token in the unit of `Bucket.fill`. -/
def tokenUnit : Nat := 2304000000000

/-- REC_LIMIT at reset, with a full bucket (log 23). -/
def Bucket.reset : Bucket :=
  { rate := 0x28, burst := 0x10, fill := 0x10 * tokenUnit, at_ := 0, supp := 0, drop := 0, firstOph := 0, lastOph := 0, maxSev := 0, src := 0 }

/-- A flush in progress (R346): its start, the last SEQ it carries, how many entries, whether it writes a checkpoint, whether it ends the PFAIL sequence. -/
structure Flush where
  start : Nat
  upTo : Nat
  n : Nat
  ckpt : Bool
  pfail : Bool
deriving DecidableEq, Repr

/-- The non-volatile store (R348, R188): records by slot, slots mapped to spares, checkpoints, PCC, authorisation table words by 5 x e + w. -/
structure Store where
  slots : Tab Rec
  spares : List Nat
  ckpts : List Nat
  pcc : Word
  auth : Tab Word
  /-- the store has been mounted before (it is not blank) -/
  used : Bool
  /-- the highest SEQ assigned before the last reset: no number is assigned twice (R337) -/
  lastSeq : Nat
deriving DecidableEq, Repr

/-- A blank store (log 8). -/
def Store.blank : Store := { slots := [], spares := [], ckpts := [], pcc := 0, auth := [], used := false, lastSeq := 0 }

/-- The REC block (chapter 12). -/
structure Recd where
  mounted : Bool
  curLo : Word
  curHi : Half
  cursor : Nat
  nextSeq : Nat
  /-- OPH at `ophAt` (ticks) -/
  ophBase : Nat
  ophAt : Nat
  buf : List Rec
  tombs : List Rec
  /-- records that wait for their copy to the event ring (R282), oldest first -/
  copyq : List Rec
  buckets : Tab Bucket
  flush : Option Flush
  want : Bool
  wantCkpt : Bool
  intakeClosed : Bool
  pfailLow : Bool
  pfailAt : Nat
  pfailOph : Nat
  dropHi : Nat
  dropLo : Nat
  lastFlush : Nat
  store : Store
  /-- the staging area of TSTACC for a store image (R412): words by address -/
  staging : Tab Word64
deriving DecidableEq, Repr

/-- REC at reset over a store. -/
def Recd.resetOn (st : Store) : Recd :=
  { mounted := false, curLo := 1, curHi := 0, cursor := 1, nextSeq := 0, ophBase := 0, ophAt := 0, buf := [], tombs := [], copyq := [], buckets := [],
    flush := none, want := false, wantCkpt := false, intakeClosed := false, pfailLow := false, pfailAt := 0, pfailOph := 0,
    dropHi := 0, dropLo := 0, lastFlush := 0, store := st, staging := [] }

end Sys2Proof.Machine
end

