-- ==== Sys2Proof/Machine/StLoop.lean ====
section
/-! DEFINITION. The state of timing (chapter 7), loop engines (chapter 8), the cascade (chapter 13), SPRING, straps and the test port (chapter 14). -/

namespace Sys2Proof.Machine

/-- A slack sensor (R212-R214, R224). -/
structure Slack where
  now : Nat
  min : Nat
  miss : Bool
deriving DecidableEq, Repr

/-- A sensor at reset. -/
def Slack.reset : Slack := { now := 100, min := 100, miss := false }

/-- A tile's timing state (R209-R217, R224). -/
structure TileT where
  stage : Nat
  slackDp : Nat
  slackAll : Nat
  autCnt : Nat
  zbCnt : Nat
  rxSlip : Byte
  txSlip : Byte
  /-- when the tile entered its present stage, and since when its slack over all sensors has been 12 percent or more (R215, R216) -/
  stageAt : Nat
  goodAt : Option Nat
  /-- since when its datapath slack has been 8 percent or more (R214) -/
  dpGoodAt : Option Nat
  /-- buffers wait for realignment at the next frame edge -/
  realign : Bool
deriving DecidableEq, Repr

/-- A tile at reset. -/
def TileT.reset : TileT :=
  { stage := 0, slackDp := 100, slackAll := 100, autCnt := 0, zbCnt := 0, rxSlip := 0, txSlip := 0, stageAt := 0, goodAt := none, dpGoodAt := none, realign := false }

/-- The TIM block and the VID state (chapter 7, R440). -/
structure Tim where
  dtRun : Bool
  /-- the time, in ticks, at which DTIME was 0 (it may lie before the start of time) -/
  dtOrigin : Int
  /-- a correction being slewed in at 1 ns per ms (R371): its size in ticks and since when -/
  slew : Int
  slewAt : Nat
  align : Nat
  srcUsed : Nat
  tileOk : BitVec 4
  /-- DTIME of an aligned frame edge modulo 10 ms, in ticks -/
  framePh : Nat
  edgeCnt : Nat
  ferr : Int
  /-- the last FRAME_IN edge, and the last aligned frame edge, in ticks -/
  frameIn : Option Nat
  frameOut : Option Nat
  slack : Tab Slack
  tiles : Tab TileT
  vidMode : Bool
  vidCeil : Nat
  vidFloor : Nat
  vidFixed : Nat
  vidNow : Nat
  /-- slack seen below 20 percent in this millisecond; slack at 40 percent or more throughout this second -/
  vidLow : Bool
  vidHigh : Bool
deriving DecidableEq, Repr

/-- TIM at reset. -/
def Tim.reset : Tim :=
  { dtRun := false, dtOrigin := 0, slew := 0, slewAt := 0, align := 0, srcUsed := 0, tileOk := 0, framePh := 0, edgeCnt := 0, ferr := 0, frameIn := none, frameOut := none,
    slack := [], tiles := [], vidMode := false, vidCeil := 40, vidFloor := 0, vidFixed := 30, vidNow := 30, vidLow := false, vidHigh := true }

/-- SPRING, straps, pins and the test port (chapter 14, 15). -/
structure Tst where
  /-- SYS_RST_N low, or a rail fault holds the device in reset -/
  inReset : Bool
  railHold : Bool
  stage : Nat
  stopped : Bool
  proofFail : BitVec 4
  /-- the proofs of stage 6 have ended; a scan instruction was selected since the last rise (R409) -/
  proved : Bool
  scanned : Bool
  frameInt : Bool
  readyMs : Nat
  stageAt : Nat
  /-- the last rising edge of SYS_RST_N or end of an internal reset -/
  riseAt : Nat
  straps : Straps
  pins : Straps
  changed : Bool
  bistCnt : Nat
  bistMs : Nat
  bistAddr : Word
  tmux : Tab Word
  perstHigh : Bool
  linkTraining : Bool
  mpAnswers : Bool
  /-- the TAP: instruction, boundary register, data registers, TSTACC result -/
  ir : Byte
  bsr : BitVec 3412
  tapOut : Word64
  tstStatus : Nat
  words : Tab Word64
deriving DecidableEq, Repr

/-- A vector register: one BF20/6 block of 16 lanes (R231, R235). -/
structure VBlk where
  e : Nat
  m : List Int
deriving DecidableEq, Repr

/-- A vector of zeros. -/
def VBlk.zero : VBlk := { e := 0, m := List.replicate 16 0 }

/-- Task states (Table 8-7). -/
inductive TaskSt where | stopped | waiting | ready | running | trapped
deriving DecidableEq, Repr

/-- A task of a loop engine (R241-R247, TASK_* registers). -/
structure Task where
  st : TaskSt
  prot : Bool
  entry : Nat
  sev : Nat
  /-- PERIOD and PHASE in µs -/
  period : Nat
  phase : Nat
  overrun : Bool
  consec : Nat
  trap : Nat
  /-- longest execution in instruction times -/
  maxrun : Nat
  ovrCnt : Nat
  ovr : Nat
  runs : Nat
  args : List Word
  objs : List Word
  /-- the last values committed to OUT0-OUT15 -/
  outs : Tab Word
  /-- DTIME of the present release; the time of the last release (of the start, before the first) -/
  relDt : Word64
  lastRel : Nat
  /-- releases without an overrun since the last one (R245) -/
  good : Nat
  /-- the LE_TASK_START that waits for the first release -/
  startId : Option Nat
deriving DecidableEq, Repr

/-- A STOPPED task. -/
def Task.reset : Task :=
  { st := .stopped, prot := false, entry := 0, sev := 0, period := 0, phase := 0, overrun := false, consec := 0, trap := 0, maxrun := 0, ovrCnt := 0, ovr := 0,
    runs := 0, args := [], objs := [], outs := [], relDt := 0, lastRel := 0, good := 0, startId := none }

/-- A loop engine: image, memories, registers (R226-R231). Instruction memory by word, data memory by byte; both read 0 where nothing is listed. -/
structure Eng where
  loaded : Bool
  imgId : Word
  /-- WCET (units of 64 instruction times) and first instruction of each entry -/
  entries : List (Nat × Nat)
  /-- instructions loaded -/
  ninstr : Nat
  imem : Tab Word
  dmem : Tab Byte
  vsat : Bool
  g : Tab Word
  v : Tab VBlk
  pc : Nat
  running : Option Nat
  /-- instruction times used by the present execution -/
  ran : Nat
  /-- buffered port writes, oldest first (R240) -/
  writes : List (Nat × Word)
deriving DecidableEq, Repr

/-- Engine n at reset: LE0-LE3 run from ROM and read LOADED. -/
def Eng.reset (n : Nat) : Eng :=
  { loaded := decide (n < 4), imgId := 0, entries := [], ninstr := 0, imem := [], dmem := [], vsat := false, g := [], v := [], pc := 0, running := none, ran := 0,
    writes := [] }

/-- The loop engines (chapter 8). Tasks by 8 x engine + task. -/
structure Le where
  libRunning : Bool
  libLoaded : Bool
  engs : Tab Eng
  tasks : Tab Task
deriving DecidableEq, Repr

/-- Engines at reset. -/
def Le.reset : Le := { libRunning := false, libLoaded := false, engs := [], tasks := [] }

/-- A message of a link (Table 13-9), without its LSEQ and CRC, which the link adds. -/
structure JMsg where
  mtype : Nat
  resp : Bool
  src : Nat
  dst : Nat
  mseq : Nat
  body : List Byte
deriving DecidableEq, Repr

/-- A message sent and not yet acknowledged (R382). -/
structure JTx where
  lseq : Nat
  msg : JMsg
  first : Nat
  last : Nat
  tries : Nat
deriving DecidableEq, Repr

/-- JL_PORT_STAT.STATE. -/
inductive PortSt where | down | training | up
deriving DecidableEq, Repr

/-- A Jarond port (R361-R369, R382). -/
structure Port where
  /-- ROLE as written, and as in force since the last training -/
  cfgRole : Nat
  role : Nat
  jl2En : Bool
  st : PortSt
  /-- step of Table 13-5 under way, at the final rate, and when it began -/
  step : Nat
  final : Bool
  stepAt : Nat
  jl2 : Bool
  pver : Nat
  pid : Nat
  pport : Nat
  pmaster : Bool
  downCause : Nat
  downAt : Nat
  /-- one-way delay in ps, and the sum and number of the exchanges of step 5 in units of 2^-16 ns -/
  dPs : Nat
  exSum : Int
  exN : Nat
  retryCnt : Nat
  blkErr : Nat
  upCnt : Nat
  disc : Nat
  lastHdr : Nat
  fn : Nat
  /-- next LSEQ to send, last LSEQ taken, buffers freed, CREDIT last received, NAK owed -/
  txSeq : Nat
  rxSeq : Nat
  freed : Nat
  credit : Nat
  nakOwed : Bool
  waitq : List JMsg
  unacked : List JTx
  /-- last TIME sent -/
  timeAt : Option Nat
  /-- IDs that lie beyond the port (learnt from JOIN) -/
  beyond : Nat
deriving DecidableEq, Repr

/-- Port p at reset on a master or a member (JL_PORT_CFG). -/
def Port.reset (member : Bool) (p : Nat) : Port :=
  { cfgRole := if member ∧ p = 0 then 1 else 2, role := 0, jl2En := true, st := .down, step := 0, final := false, stepAt := 0, jl2 := false, pver := 0,
    pid := 0, pport := 0, pmaster := false, downCause := 0, downAt := 0, dPs := 0, exSum := 0, exN := 0, retryCnt := 0, blkErr := 0, upCnt := 0, disc := 0,
    lastHdr := 0, fn := 0, txSeq := 0, rxSeq := 255, freed := 0, credit := 0, nakOwed := false, waitq := [], unacked := [], timeAt := none, beyond := 0 }

/-- Stream states (Table 13-8). -/
inductive StrSt where | closed | listen | pending | active | unmatched
deriving DecidableEq, Repr

/-- A stream of a port and direction (R375-R381). -/
structure Strm where
  st : StrSt
  rate : Nat
  col : Nat
  phase : Nat
  txch : Nat
  bw : Nat
  txfreq : Int
  pdly : Half
  gated : Bool
  sat : Nat
  err : Nat
  /-- START, in ticks; response RESULT 0 received; the open that waits -/
  start : Option Nat
  agreed : Bool
  id : Option Nat
  reqAt : Nat
  /-- a close under way: the JL_STREAM_CLOSE -/
  closing : Option Nat
  /-- the pair placed last, and pairs since START -/
  pair : Option (Half × Half × Half × Half)
  pairs : Nat
deriving DecidableEq, Repr

/-- A CLOSED stream. -/
def Strm.reset : Strm :=
  { st := .closed, rate := 0, col := 0, phase := 0, txch := 0, bw := 0, txfreq := 0, pdly := 0, gated := false, sat := 0, err := 0, start := none, agreed := false,
    id := none, reqAt := 0, closing := none, pair := none, pairs := 0 }

/-- A request that waits for its response (R385, R386). -/
structure JReq where
  msg : JMsg
  at_ : Nat
  tries : Nat
deriving DecidableEq, Repr

/-- A REPORT that the master has executed and will answer when the CAPs it caused are answered (R391): the response, and the requests (destination, MSEQ) it waits for. -/
structure Owed where
  resp : JMsg
  waits : List (Nat × Nat)
deriving DecidableEq, Repr

/-- JL_DOMAIN.TIME. -/
inductive JTime where | none | locking | locked | holdover
deriving DecidableEq, Repr

/-- The Jarond block (chapter 13). Streams by 24 x port + 12 x direction + stream (direction 0 send, 1 receive); antenna groups by chain (TXn at 32 + n). -/
structure Jl where
  timeout : Nat
  time : JTime
  depth : Nat
  caphold : Bool
  members : Nat
  cseq : Nat
  holdAt : Option Nat
  /-- out of the domain (R362), or held in HOLDOVER (R373), until the next reset -/
  conflict : Bool
  farHeld : Bool
  hbAt : Nat
  epoch : Word
  ndev : Byte
  /-- the master's ID, from its HEARTBEAT -/
  masterId : Nat
  /-- offsets of the last 16 TIME messages, in ticks, with their times -/
  diffs : List (Nat × Int)
  ports : Tab Port
  strs : Tab Strm
  agrp : Tab Nat
  /-- MSEQ: next expected and stored responses by source; next to send by destination; requests outstanding and waiting -/
  exp : Tab Nat
  resps : Tab (List JMsg)
  nextSeq : Tab Nat
  reqs : List JReq
  reqq : List JMsg
  /-- the member's side: RSEQ, time of its last REPORT, the report is owed, a FULL one is owed, transmit chains whose raise awaits its answer (R391) -/
  rseq : Nat
  reportAt : Nat
  dirty : Bool
  needFull : Bool
  raises : List (Nat × Nat)
  raisesNew : List Nat
  /-- the member has JOINed since its last lock (R393) -/
  joined : Bool
  /-- the master's side: report entries by member, caps last sent by 256 x ID + slot, CSEQ by member, REPORTs whose answer is owed -/
  figs : Tab (List Word64)
  /-- REACH0-REACH3 of each member's JOIN -/
  reach : Tab (List Half)
  caps : Tab Int
  capSeq : Tab Nat
  owed : List Owed
  lastHb : Nat
deriving DecidableEq, Repr

/-- The Jarond block at reset; TIME reads LOCKED on the master. -/
def Jl.resetOn (master : Bool) : Jl :=
  { timeout := 200, time := if master then .locked else .none, depth := 0, caphold := false, members := 0, cseq := 0, holdAt := none, conflict := false,
    farHeld := false, hbAt := 0, epoch := 0, ndev := 0, masterId := 0, diffs := [], ports := [], strs := [], agrp := [], exp := [], resps := [], nextSeq := [], reqs := [],
    reqq := [], rseq := 0, reportAt := 0, dirty := false, needFull := false, raises := [], raisesNew := [], joined := false, figs := [], reach := [], caps := [], capSeq := [],
    owed := [], lastHb := 0 }

end Sys2Proof.Machine
end

