-- ==== Sys2Proof/Machine/StRadio.lean ====
section
/-! DEFINITION. The state of the radio side: chains, synthesisers, TDD schedules and front-end buses (chapter 3), band slots (chapter 2), cancellers (chapter 4), gain loops (chapter 5), protection and WINTER (chapter 6). -/

namespace Sys2Proof.Machine

/-- Chain states (Table 3-2). -/
inductive ChSt where | sleep | standby | synth | rxOn | txOn
deriving DecidableEq, Repr

/-- CH_STAT.LOCK. -/
inductive Lock where | none | settling | locked | failed
deriving DecidableEq, Repr

/-- A chain of either direction (R60-R75, R96). Chains are indexed RXn at n, TXn at 32 + n. -/
structure Chain where
  role : Nat
  sched : Nat
  st : ChSt
  lock : Lock
  quad : Bool
  fw : Nat
  losel : Bool
  ifofs : Int
  /-- the transition in progress: the state it leads to and its starting boundary -/
  trans : Option (ChSt × Nat)
  /-- the walk in progress: the id of its CHAIN_STATE and its TARGET -/
  walk : Option (Nat × ChSt)
  /-- the start of settling -/
  settleAt : Nat
  unmet : BitVec 4
  fail : BitVec 4
  done : BitVec 4
  imgDb : Byte
  resid : Byte
  /-- the running foreground calibration: id of its CAL_RUN, its bit, its start -/
  cal : Option (Nat × Nat × Nat)
  dcHold : Bool
  lnaByp : Bool
deriving DecidableEq, Repr

/-- Default role of a chain (Table 1-2). -/
def roleDefault (i : Nat) : Nat := if i < 16 then 0 else if i < 32 then 2 else if i < 48 then 1 else 3

/-- A chain at reset. -/
def Chain.reset (i : Nat) : Chain :=
  { role := roleDefault i, sched := 0, st := .sleep, lock := .none, quad := false, fw := 0, losel := false, ifofs := 0, trans := none, walk := none,
    settleAt := 0, unmet := 5, fail := 0, done := 0, imgDb := 0, resid := 0, cal := none, dcHold := false, lnaByp := false }

/-- A power step that has committed and waits for its DAC gain change (R91): new index, when, the id of its descriptor. -/
structure PwrStep where
  index : Nat
  at_ : Nat
  id : Option Nat
deriving DecidableEq, Repr

/-- What a power step asks for (R91, R93, R182, R190): an index, a signed change clamped to 0-127, or the saved index of a tuner search. -/
inductive PwrAsk where
  | index (i : Nat)
  | delta (d : Int)
deriving DecidableEq, Repr

/-- A tuner search in progress (R94): trial 0-31, best word and its return loss, best of the coarse stage, the index to restore. -/
structure Search where
  trial : Nat
  bestWord : Nat
  bestRl : Option Int
  coarse : Nat
  restore : Nat
deriving DecidableEq, Repr

/-- What only a transmit chain holds (R89-R96). -/
structure TxCh where
  /-- TX_PWR, a complemented word -/
  pwr : Word
  map : Word
  vswrCfg : Word
  pdly : Half
  /-- power-table entry in use, latched until the next step (R90); the last entry with a non-zero DAC gain (R115) -/
  entry : Word64
  kept : Option Word64
  table : Tab Word64
  steps : List PwrStep
  /-- a step without a frame waiting for its boundary (PA_FECB = 0): what, AT in ticks, descriptor -/
  waiting : List (PwrAsk × Nat × Option Nat)
  rlValid : Bool
  rl : Int
  level : Nat
  tuner : Byte
  runAlert : Nat
  runStep : Nat
  runWinter : Nat
  runGood : Nat
  /-- the lowered index in force after a VSWR step (R95) -/
  lowered : Option Nat
  search : Option Search
  lastSearch : Option Nat
  satCnt : Word
  pSum : Int
deriving DecidableEq, Repr

/-- A transmit chain at reset. -/
def TxCh.reset : TxCh :=
  { pwr := 0xFFFF0000, map := 0x0A000000, vswrCfg := 0x78643C23, pdly := 0, entry := 0, kept := none, table := [], steps := [], waiting := [],
    rlValid := false, rl := 0, level := 0, tuner := 0, runAlert := 0, runStep := 0, runWinter := 0, runGood := 0, lowered := none, search := none,
    lastSearch := none, satCnt := 0, pSum := 0 }

/-- The DC-blocking stage of a receive chain (R26-R29). -/
structure Dcb where
  guard_ : Nat
  tcExp : Nat
  estI : Half
  estQ : Half
  range : Bool
  /-- set by the first tuning commit: before it no offset frequency is defined and IDLE keeps its reset value -/
  tuned : Bool
deriving DecidableEq, Repr

/-- The DC-blocking stage at reset. -/
def Dcb.reset : Dcb := { guard_ := 1, tcExp := 16, estI := 0, estQ := 0, range := false, tuned := false }

/-- What an FECB frame carries (R87). -/
inductive FrameKind where
  | power (ask : PwrAsk)
  | tuner (w : Byte)
  | raw (bits : BitVec 24) (len : Nat)
deriving DecidableEq, Repr

/-- A queued FECB frame: priority 0 power step, 1 tuner, 2 raw; chain (power, tuner), chip select, earliest start, descriptor, and for a device-initiated frame its scheduled start. -/
structure Frame where
  prio : Nat
  chain : Nat
  cs : Nat
  kind : FrameKind
  at_ : Nat
  id : Option Nat
  sched : Option Nat
deriving DecidableEq, Repr

/-- An FECB bus (R86, R87). -/
structure Fecb where
  div : Nat
  mode3 : Bool
  gap : Nat
  tmpl : Tab Word
  queue : List Frame
  /-- the frame in progress, its bits and its end -/
  cur : Option (Frame × BitVec 24 × Nat)
  /-- the time from which the next frame may start -/
  freeAt : Nat
deriving DecidableEq, Repr

/-- A bus at reset. -/
def Fecb.reset : Fecb := { div := 4, mode3 := false, gap := 2, tmpl := [], queue := [], cur := none, freeAt := 0 }

/-- The reading of one antenna that a schedule switches (R82, R83): side 0 donor, 1 service. -/
structure Ant where
  /-- the direction whose chains are ungated: none, transmit or receive -/
  txOpen : Bool
  rxOpen : Bool
  /-- PA_EN may be high; LNAB is driven high by the turnaround; TDDSW stands in its transmit position -/
  paOk : Bool
  lnabHigh : Bool
  swTx : Bool
  /-- a turnaround in progress: leaving transmit, its start, steps done -/
  turn : Option (Bool × Nat × Nat)
deriving DecidableEq, Repr

/-- An antenna while no turnaround has run: its receive position (R80). -/
def Ant.reset : Ant := { txOpen := false, rxOpen := true, paOk := false, lnabHigh := false, swTx := false, turn := none }

/-- TDD_STAT.SYNC. -/
inductive Sync where | off | acquiring | locked | holdover
deriving DecidableEq, Repr

/-- A TDD schedule (R77-R82). -/
structure Sched where
  cfg : Word
  ofs : Word
  side : Word
  tim : Word
  ssbf : Word
  pat : Tab Word
  sync : Sync
  wrBlocked : Bool
  lossCnt : Nat
  hits : Nat
  lastEv : Option Nat
  refEv : Nat
  /-- when SYNC became HOLDOVER and when it last became LOCKED -/
  lossAt : Option Nat
  lockedAt : Option Nat
  donor : Ant
  service : Ant
deriving DecidableEq, Repr

/-- A schedule at reset. -/
def Sched.reset : Sched :=
  { cfg := 0, ofs := 0, side := 0, tim := 0x00AF6419, ssbf := 0, pat := [], sync := .off, wrBlocked := false, lossCnt := 0, hits := 0, lastEv := none,
    refEv := 0, lossAt := none, lockedAt := none, donor := Ant.reset, service := Ant.reset }

/-- The RFE block (chapter 3). -/
structure Rfe where
  chains : Tab Chain
  tx : Tab TxCh
  dcb : Tab Dcb
  fecb : Tab Fecb
  scheds : Tab Sched
  tddsw : Word
  refOk : Bool
  ckLocked : BitVec 4
deriving DecidableEq, Repr

/-- RFE at reset. -/
def Rfe.reset : Rfe := { chains := [], tx := [], dcb := [], fecb := [], scheds := [], tddsw := 0, refOk := false, ckLocked := 0 }

/-- Slot states (Table 2-4). -/
inductive SlotSt where | free | configured | settling | active | held
deriving DecidableEq, Repr

/-- A cross-fade in progress (R47, R48): its swap, its length in slot samples, its start, when it was paused, and the time it has stood still. -/
structure Fade where
  id : Nat
  len : Nat
  start : Nat
  paused : Option Nat
  lost : Nat
deriving DecidableEq, Repr

/-- A band slot (R31-R52). -/
structure Slot where
  st : SlotSt
  preset : Nat
  rate : Nat
  bw : Nat
  rxfreq : Int
  txfreq : Int
  stream : Bool
  dest : Half
  pdly : Half
  ntaps : Nat
  bankA : List Word
  bankB : List Word
  tagA : Half
  tagB : Half
  activeB : Bool
  fade : Option Fade
  settleAt : Nat
  /-- the start of a ramp-down under R37 and the SLOT_DISABLE it belongs to -/
  ramp : Option (Nat × Nat)
  satCnt : Word
  supCnt : Nat
  shortCnt : Nat
  /-- GROUP of the entry that authorises the slot (R181) -/
  group : Option Nat
deriving DecidableEq, Repr

/-- A FREE slot. -/
def Slot.reset : Slot :=
  { st := .free, preset := 0, rate := 0, bw := 0, rxfreq := 0, txfreq := 0, stream := false, dest := 0, pdly := 0, ntaps := 0, bankA := [], bankB := [],
    tagA := 0, tagB := 0, activeB := false, fade := none, settleAt := 0, ramp := none, satCnt := 0, supCnt := 0, shortCnt := 0, group := none }

/-- Instance states (Table 4-3). -/
inductive CxSt where | unassigned | idle | search | acquire | track | joined
deriving DecidableEq, Repr

/-- The phase of a seed under R118. -/
inductive SeedPhase where | loading | screening | waiting | fading
deriving DecidableEq, Repr

/-- A seed under way (R118, R119). -/
structure Seed where
  id : Nat
  phase : SeedPhase
  screened : Bool
  since : Nat
  set : List Coef
  /-- the power-step scaling of the set since it was loaded, in 0.01 dB (R115) -/
  scale : Int
  len : Nat
  paused : Option Nat
  lost : Nat
deriving DecidableEq, Repr

/-- The CX block's policy registers. -/
structure CxPolicy where
  eps : Nat
  muExp : Nat
  growthExp : Nat
  dwin : Nat
  refMin : Nat
  eMax : Int
  eFloor : Int
  peakTh : Nat
  srchExp : Nat
  pre : Nat
deriving DecidableEq, Repr

/-- CX policy at reset. -/
def CxPolicy.reset : CxPolicy :=
  { eps := 16, muExp := 4, growthExp := 3, dwin := 10, refMin := 50, eMax := 1200, eFloor := -6000, peakTh := 12, srchExp := 21, pre := 32 }

/-- A canceller instance (chapter 4) with its installation model and plausibility (R150, R151). Figures in 0.01 dB. -/
structure Inst where
  st : CxSt
  heldSt : CxSt
  tx : Nat
  rx : Nat
  join : Bool
  auto : Bool
  bulk : Nat
  peak : Nat
  searched : Bool
  extRxg : Int
  valid : Bool
  iso : Int
  ll : Int
  depth : Int
  dmeas : Int
  tape : Int
  pubAt : Option Nat
  frozen : Bool
  main : List Coef
  /-- the power-step scaling of the main set since it was formed, in 0.01 dB (R115) -/
  scale : Int
  /-- the shadow of the last tested cycle, and whether the gradient of the last cycle is usable: a candidate is then in flight -/
  cand : Option (List Coef)
  gradOk : Bool
  cycleAt : Nat
  winAt : Nat
  /-- the policy that the running cycle, and the running window or search, began with, where a write has changed it since (R129) -/
  cycPol : Option CxPolicy
  winPol : Option CxPolicy
  promo : Word
  rejRes : Nat
  rejGrowth : Nat
  blocked : Nat
  seedRej : Nat
  seed : Option Seed
  /-- the previous publication of ISO since VALID was cleared: value and time (R150) -/
  prevIso : Option (Int × Nat)
  lastEh : Option Int
  /-- speculative telemetry values (R279) -/
  specRatio : Word
  specEnergy : Word
  isoMin : Nat
  isoMax : Nat
  rateMax : Nat
  implaus : Bool
  failRange : Bool
  failJump : Bool
  failRate : Bool
  good : Nat
  staleSeen : Bool
deriving DecidableEq, Repr

/-- An instance at reset. -/
def Inst.reset : Inst :=
  { st := .unassigned, heldSt := .acquire, tx := 0, rx := 0, join := false, auto := false, bulk := 0, peak := 0, searched := false, extRxg := 0, valid := false,
    iso := 0, ll := 0, depth := 0, dmeas := 0, tape := 0, pubAt := none, frozen := false, main := [], scale := 0, cand := none, gradOk := false, cycleAt := 0,
    winAt := 0, cycPol := none, winPol := none, promo := 0, rejRes := 0, rejGrowth := 0, blocked := 0, seedRej := 0, seed := none, prevIso := none, lastEh := none, specRatio := 0,
    specEnergy := 0, isoMin := 0, isoMax := 20000, rateMax := 65535, implaus := false, failRange := false, failJump := false, failRate := false, good := 0,
    staleSeen := false }

/-- A slot's gain stage and loop (chapter 5). Gains in codes of 0.05 dB; the accumulator in hundredths of a code; set-points in 0.01 dB and their accumulator in 0.0005 dB. -/
structure Gain where
  agcEn : Bool
  agcSrc : Bool
  spRef : Bool
  interp : Bool
  lutset : Nat
  win : Nat
  host : Int
  target : Int
  acc : Int
  applied : Int
  cap : Int
  capl : Int
  capm : Int
  mcapValid : Bool
  spTarget : Int
  spAcc : Int
  spEff : Int
  pmeas : Option Int
  /-- PMEAS_SEQ: periods that were not void -/
  pmeasSeq : Nat
  slewUp : Nat
  slewDn : Nat
  margin : Nat
  marginUse : Nat
  cold : Bool
  stale : Bool
  nogov : Bool
  govCx : Nat
  ramp : Nat
  /-- the present tick interval's move, and the set-point's, have been used (R134) -/
  used : Bool
  spUsed : Bool
  /-- R111: a move above 0.05 dB or a cut in this interval; quiet intervals still needed -/
  fastNow : Bool
  quietLeft : Nat
  /-- an accumulator above CAP waits for the cut of R137 -/
  cutDue : Bool
  agcLimit : Bool
  limitSince : Option Nat
  bankB : Bool
  request : Option Int
  nrise : Option Int
  marginQ : Option Int
  supCnt : Nat
  cutCnt : Nat
  /-- an object released while the slot stayed muted held OSC (R199) -/
  oscHeld : Bool
deriving DecidableEq, Repr

/-- A gain stage at reset. -/
def Gain.reset : Gain :=
  { agcEn := false, agcSrc := false, spRef := false, interp := false, lutset := 0, win := 100, host := 0, target := 0, acc := -120000, applied := -1200,
    cap := -1200, capl := -1200, capm := -1200, mcapValid := false, spTarget := -2000, spAcc := -40000, spEff := -2000, pmeas := none, pmeasSeq := 0, slewUp := 100, slewDn := 100,
    margin := 1500, marginUse := 2500, cold := false, stale := false, nogov := false, govCx := 0, ramp := 0, used := false, spUsed := false, fastNow := false,
    quietLeft := 0, cutDue := false, agcLimit := false, limitSince := none, bankB := false, request := none, nrise := none, marginQ := none, supCnt := 0, cutCnt := 0, oscHeld := false }

/-- A lookup-table set (R158-R161): entries by 64 x bank + j. -/
structure Lut where
  entries : Tab Half
  tagA : Half
  tagB : Half
  activeB : Bool
deriving DecidableEq, Repr

/-- A set at reset. -/
def Lut.reset : Lut := { entries := [], tagA := 0, tagB := 0, activeB := false }

/-- v[j] of the half-correction table (R158). -/
def lutDefault (i : Nat) : Half := half (250 * ((i % 64 : Nat) : Int) - 8000)

/-- The phase of a WINTER_RELEASE (R196): its descriptor, the start of its proof, whether the proof has passed. -/
structure Release where
  id : Nat
  since : Nat
  passed : Bool
deriving DecidableEq, Repr

/-- A WINTER scope object (R169, R190, R202). -/
structure WObj where
  cause : Half
  cleared : Half
  /-- the time of each cause's last entry -/
  entries : Tab Nat
  age : Option Nat
  oscAge : Option Nat
  oscTimes : List Nat
  proofOk : Bool
  /-- fault sources (16 x b + s) whose FAULT is not yet cleared (R313) -/
  faultBy : List Nat
  /-- receive chains that fired OSC for the object -/
  oscBy : List Nat
  /-- tasks (8 x e + t) whose overrun set OVERRUN -/
  overBy : List Nat
  release : Option Release
  reason : Half
deriving DecidableEq, Repr

/-- A scope object outside WINTER. -/
def WObj.reset : WObj :=
  { cause := 0, cleared := 0, entries := [], age := none, oscAge := none, oscTimes := [], proofOk := false, faultBy := [], oscBy := [], overBy := [],
    release := none, reason := 0 }

/-- The mute nets of a transmit chain (R171-R174, R194, R198). -/
structure Net where
  bridge : Option Nat
  unmute : Option Nat
  proofA : Bool
  proofB : Bool
  proofAt : Option Nat
  /-- OOBE: steps, failing windows in a row, since when every counted window was good, the hold, the last ACLR -/
  oSteps : Nat
  oRun : Nat
  oGood : Option Nat
  oHold : Bool
  aclr : Int
deriving DecidableEq, Repr

/-- A chain's nets at reset. -/
def Net.reset : Net :=
  { bridge := none, unmute := none, proofA := false, proofB := false, proofAt := none, oSteps := 0, oRun := 0, oGood := none, oHold := false, aclr := 0 }

/-- The detectors of a receive chain (R178, R180). -/
structure RxDet where
  rho : Nat
  bin : Nat
  detCnt : Nat
  lastDet : Option Nat
  /-- NRISE: step of the sequence, ms above, ms in recovery, learned reference with its samples, last rise -/
  nStep : Nat
  nRun : Nat
  nGood : Nat
  nSum : Int
  nN : Nat
  nRef : Option Int
  rise : Int
  learning : Bool
deriving DecidableEq, Repr

/-- A receive chain's detectors at reset. -/
def RxDet.reset : RxDet :=
  { rho := 0, bin := 0, detCnt := 0, lastDet := none, nStep := 0, nRun := 0, nGood := 0, nSum := 0, nN := 0, nRef := none, rise := 0, learning := false }

/-- DONOR_LOSS of a group (R181): in force, ms low, ms at or above DL_MIN + 3 dB by slot. -/
structure Group where
  lost : Bool
  lowMs : Nat
  good : Tab Nat
deriving DecidableEq, Repr

/-- A group at reset. -/
def Group.reset : Group := { lost := false, lowMs := 0, good := [] }

/-- The PROT block (chapter 6). Scope objects: slot n at n, chain n at 256 + n, tile k at 288 + k, the device at 292. -/
structure Prot where
  objs : Tab WObj
  nets : Tab Net
  rx : Tab RxDet
  groups : Tab Group
  /-- parameters by 32 x PARAM + object; objects whose ATTACH has been written -/
  params : Tab Int
  attachSet : Tab Bool
  /-- authorisation words by 5 x e + w -/
  auth : Tab Word
  restoreFail : Bool
  wrCnt : Nat
  temps : Tab Int
  /-- last read-back of the nets (R194) -/
  readbackAt : Nat
deriving DecidableEq, Repr

/-- Default of an object: outside WINTER, but for the device, which enters RESET at reset (R202). -/
def wobjDefault (i : Nat) : WObj :=
  if i = 292 then { WObj.reset with cause := 0x8000, entries := [(15, 0)], age := some 0 } else WObj.reset

/-- PROT at reset. -/
def Prot.reset : Prot :=
  { objs := [], nets := [], rx := [], groups := [], params := [], attachSet := [], auth := [], restoreFail := false, wrCnt := 0,
    temps := [], readbackAt := 0 }

end Sys2Proof.Machine
end

