-- ==== Sys2Proof/Machine/State.lean ====
section
/-! DEFINITION. State: everything the manual gives the RM9632, as plain data, with the queue of commands that wait; the state at reset; the reasons a step may stop. -/

namespace Sys2Proof.Machine

/-- The machine's state. Time is counted in ticks of 1/2304 ns, in which every grid of the device is whole (log 1). -/
structure State where
  now : Nat
  hif : Hif
  intc : Intc
  flt : Flt
  recd : Recd
  rfe : Rfe
  slots : Tab Slot
  cx : Tab Inst
  cxPol : CxPolicy
  gcl : Tab Gain
  luts : Tab Lut
  prot : Prot
  tim : Tim
  le : Le
  jl : Jl
  tst : Tst
  /-- the MODEL's own field: counts the uses of Config.freeValue (log 13) -/
  freeCnt : Nat
  /-- commands that wait, first in, first out -/
  pending : List Instr
deriving DecidableEq, Repr

/-- Why a step faults. No command of the manual stops the block, so no meaning raises one. -/
inductive Fault where
  /-- never raised by a meaning: kept so that the type has a name for an internal stop (safe) -/
  | internal
deriving DecidableEq, Repr

/-- Why a step refuses. -/
inductive Refusal where
  /-- a command whose meaning is not modelled yet; raised by an arm of exec only (safe) -/
  | notModelled (mnemonic : String)
deriving DecidableEq, Repr

/-- The pins of the model's reset: master, external reference, the others low (DESIGN CHOICE, log 10). -/
def Straps.default : Straps := { testEn := false, devEn := false, casMaster := true, casId := 0, refSel := true, authWe := false }

/-- SPRING at the rising edge of SYS_RST_N (R402). -/
def Tst.resetOn (p : Straps) : Tst :=
  { inReset := false, railHold := false, stage := 1, stopped := false, proofFail := 0, proved := false, scanned := false, frameInt := false, readyMs := 0, stageAt := 0, riseAt := 0, straps := p, pins := p,
    changed := false, bistCnt := 0, bistMs := 0, bistAddr := 0, tmux := [], perstHigh := false, linkTraining := false, mpAnswers := false,
    ir := 2, bsr := 0, tapOut := 0, tstStatus := 0, words := [] }

/-- The machine right after reset: SYS_RST_N has just risen, the straps are latched, SPRING stage 1 begins, and the device is in WINTER with cause RESET (R402). -/
def State.reset : State :=
  { now := 0, hif := Hif.reset, intc := Intc.reset, flt := Flt.reset, recd := Recd.resetOn Store.blank, rfe := Rfe.reset, slots := [], cx := [],
    cxPol := CxPolicy.reset, gcl := [], luts := [], prot := Prot.reset, tim := { Tim.reset with dtRun := true }, le := Le.reset, jl := Jl.resetOn Straps.default.casMaster,
    tst := Tst.resetOn Straps.default, freeCnt := 0, pending := [] }

end Sys2Proof.Machine
end

