-- ==== Sys2Proof/Machine/Ops.lean ====
section
/-! DEFINITION. The shared operations every meaning uses: time and its grids, access to indexed state, records entering the recorder (R335-R345), interrupt events (R291-R302), completions (R275), and what contains what (R169). -/

namespace Sys2Proof.Machine

/-- The outcome of a command that ends in a next state. -/
abbrev Out := Host.Outcome State Fault Refusal

/-! ## Time (R205, R210, R442) -/

/-- Ticks in a nanosecond. -/
def tns : Nat := 2304
/-- Ticks in a microsecond. -/
def tus : Nat := 2304000
/-- Ticks in a millisecond. -/
def tms : Nat := 2304000000
/-- Ticks in a second. -/
def tsec : Nat := 2304000000000
/-- Ticks in a chain-grid block of 64 chain-rate samples. -/
def chainBlk : Nat := 200000
/-- Ticks in a chain-rate sample. -/
def chainSmp : Nat := 3125
/-- Ticks in a gain tick interval (R133). -/
def gainTk : Nat := 115200000

/-- Ticks in a 64-sample block of rate index k (Table 2-3, R442). -/
def slotBlk (k : Nat) : Nat := 76800000 / 2 ^ k

/-- What has been slewed in by time t: 1 ns per ms at most (R371, R373). -/
def Tim.slewed (x : Tim) (t : Int) : Int :=
  let k := max 0 ((t - x.slewAt) / 1000000)
  if 0 ≤ x.slew then min x.slew k else max x.slew (-k)

/-- DTIME in ticks as it runs at time t. -/
def State.dtAt (s : State) (t : Int) : Int := t - s.tim.dtOrigin + s.tim.slewed t

/-- DTIME in ticks: 0 while DTIME does not run (R205, R372). -/
def State.dtTicks (s : State) : Nat := if s.tim.dtRun then (s.dtAt s.now).toNat else 0

/-- DTIME in whole nanoseconds. -/
def State.dtNs (s : State) : Nat := s.dtTicks / tns

/-- DTIME (R205). -/
def State.dtime (s : State) : Word64 := BitVec.ofNat 64 s.dtNs

/-- The present instant lies on the grid of g ticks: DTIME reaches a multiple of g here. -/
def State.onGrid (s : State) (g : Nat) : Bool := s.tim.dtRun && decide (s.dtAt s.now / (g : Int) ≠ s.dtAt ((s.now : Int) - 1) / (g : Int))

/-- The first grid boundary after the present instant, as a time. -/
def State.nextGrid (s : State) (g : Nat) : Nat := s.now + (g - s.dtTicks % g)

/-- The first grid boundary at or after time t. -/
def State.gridAtOrAfter (s : State) (g t : Nat) : Nat :=
  let d := (s.dtTicks + (t - s.now)) % g
  if d = 0 then t else t + (g - d)

/-- DTIME in ticks from an aligned frame edge, on which every chain and slot grid has a boundary (R207, R442). -/
def State.smpAt (s : State) (t : Int) : Int := s.dtAt t - s.tim.framePh

/-- The present instant is a boundary of the chain or slot grid of g ticks (R207, R442). -/
def State.onSmp (s : State) (g : Nat) : Bool := s.tim.dtRun && decide (s.smpAt s.now / (g : Int) ≠ s.smpAt ((s.now : Int) - 1) / (g : Int))

/-- The first boundary of a chain or slot grid after the present instant, as a time. -/
def State.nextSmp (s : State) (g : Nat) : Nat := s.now + (g - (s.smpAt s.now % g).toNat)

/-- The first boundary of a chain or slot grid at or after time t. -/
def State.smpAtOrAfter (s : State) (g t : Nat) : Nat :=
  let d := ((s.smpAt s.now + (t - s.now : Nat)) % g).toNat
  if d = 0 then t else t + (g - d)

/-- Whole milliseconds since time t, held at 0xFFFF_FFFF. -/
def State.msSince (s : State) (t : Nat) : Nat := min 0xFFFFFFFF ((s.now - t) / tms)

/-! ## Access to indexed state -/

/-- Chain i (RXn at n, TXn at 32 + n). -/
def State.chain (s : State) (i : Nat) : Chain := s.rfe.chains.get (Chain.reset i) i
/-- Change chain i. -/
def State.updChain (s : State) (i : Nat) (f : Chain → Chain) : State :=
  { s with rfe := { s.rfe with chains := s.rfe.chains.upd (Chain.reset i) i f } }
/-- Transmit-chain state of TXn. -/
def State.txc (s : State) (n : Nat) : TxCh := s.rfe.tx.get TxCh.reset n
/-- Change the transmit-chain state of TXn. -/
def State.updTx (s : State) (n : Nat) (f : TxCh → TxCh) : State := { s with rfe := { s.rfe with tx := s.rfe.tx.upd TxCh.reset n f } }
/-- DC-blocking stage of RXn. -/
def State.dcb (s : State) (n : Nat) : Dcb := s.rfe.dcb.get Dcb.reset n
/-- Change the DC-blocking stage of RXn. -/
def State.updDcb (s : State) (n : Nat) (f : Dcb → Dcb) : State := { s with rfe := { s.rfe with dcb := s.rfe.dcb.upd Dcb.reset n f } }
/-- FECB bus n. -/
def State.fecb (s : State) (n : Nat) : Fecb := s.rfe.fecb.get Fecb.reset n
/-- Change FECB bus n. -/
def State.updFecb (s : State) (n : Nat) (f : Fecb → Fecb) : State := { s with rfe := { s.rfe with fecb := s.rfe.fecb.upd Fecb.reset n f } }
/-- TDD schedule t. -/
def State.sched (s : State) (t : Nat) : Sched := s.rfe.scheds.get Sched.reset t
/-- Change TDD schedule t. -/
def State.updSched (s : State) (t : Nat) (f : Sched → Sched) : State := { s with rfe := { s.rfe with scheds := s.rfe.scheds.upd Sched.reset t f } }
/-- Slot n. -/
def State.slot (s : State) (n : Nat) : Slot := s.slots.get Slot.reset n
/-- Change slot n. -/
def State.updSlot (s : State) (n : Nat) (f : Slot → Slot) : State := { s with slots := s.slots.upd Slot.reset n f }
/-- Canceller instance i. -/
def State.inst (s : State) (i : Nat) : Inst := s.cx.get Inst.reset i
/-- Change instance i. -/
def State.updInst (s : State) (i : Nat) (f : Inst → Inst) : State := { s with cx := s.cx.upd Inst.reset i f }
/-- Gain stage of slot n. -/
def State.gain (s : State) (n : Nat) : Gain := s.gcl.get Gain.reset n
/-- Change the gain stage of slot n. -/
def State.updGain (s : State) (n : Nat) (f : Gain → Gain) : State := { s with gcl := s.gcl.upd Gain.reset n f }
/-- Lookup-table set i. -/
def State.lut (s : State) (i : Nat) : Lut := s.luts.get Lut.reset i
/-- Change lookup-table set i. -/
def State.updLut (s : State) (i : Nat) (f : Lut → Lut) : State := { s with luts := s.luts.upd Lut.reset i f }
/-- WINTER scope object i. -/
def State.wobj (s : State) (i : Nat) : WObj := s.prot.objs.get (wobjDefault i) i
/-- Change scope object i. -/
def State.updObj (s : State) (i : Nat) (f : WObj → WObj) : State := { s with prot := { s.prot with objs := s.prot.objs.upd (wobjDefault i) i f } }
/-- Mute nets of TXn. -/
def State.net (s : State) (n : Nat) : Net := s.prot.nets.get Net.reset n
/-- Change the mute nets of TXn. -/
def State.updNet (s : State) (n : Nat) (f : Net → Net) : State := { s with prot := { s.prot with nets := s.prot.nets.upd Net.reset n f } }
/-- Detectors of RXn. -/
def State.rxDet (s : State) (n : Nat) : RxDet := s.prot.rx.get RxDet.reset n
/-- Change the detectors of RXn. -/
def State.updRxDet (s : State) (n : Nat) (f : RxDet → RxDet) : State := { s with prot := { s.prot with rx := s.prot.rx.upd RxDet.reset n f } }
/-- Command ring n. -/
def State.ring (s : State) (n : Nat) : CmdRing := s.hif.rings.get CmdRing.reset n
/-- Change command ring n. -/
def State.updRing (s : State) (n : Nat) (f : CmdRing → CmdRing) : State := { s with hif := { s.hif with rings := s.hif.rings.upd CmdRing.reset n f } }
/-- Telemetry ring m. -/
def State.trRing (s : State) (m : Nat) : OutRing := s.hif.tr.get OutRing.reset m
/-- Change telemetry ring m. -/
def State.updTr (s : State) (m : Nat) (f : OutRing → OutRing) : State := { s with hif := { s.hif with tr := s.hif.tr.upd OutRing.reset m f } }
/-- Interrupt vector v. -/
def State.vec (s : State) (v : Nat) : Vec := s.intc.vecs.get Vec.reset v
/-- Change interrupt vector v. -/
def State.updVec (s : State) (v : Nat) (f : Vec → Vec) : State := { s with intc := { s.intc with vecs := s.intc.vecs.upd Vec.reset v f } }
/-- Fault source s of block b, by 16 x b + s. -/
def State.fsrc (s : State) (k : Nat) : FSrc := s.flt.srcs.get FSrc.reset k
/-- Change a fault source. -/
def State.updFsrc (s : State) (k : Nat) (f : FSrc → FSrc) : State := { s with flt := { s.flt with srcs := s.flt.srcs.upd FSrc.reset k f } }
/-- Tile k's timing. -/
def State.tileT (s : State) (k : Nat) : TileT := s.tim.tiles.get TileT.reset k
/-- Change tile k's timing. -/
def State.updTile (s : State) (k : Nat) (f : TileT → TileT) : State := { s with tim := { s.tim with tiles := s.tim.tiles.upd TileT.reset k f } }
/-- Engine n. -/
def State.eng (s : State) (n : Nat) : Eng := s.le.engs.get (Eng.reset n) n
/-- Change engine n. -/
def State.updEng (s : State) (n : Nat) (f : Eng → Eng) : State := { s with le := { s.le with engs := s.le.engs.upd (Eng.reset n) n f } }
/-- Task t of engine e, by 8 x e + t. -/
def State.task (s : State) (k : Nat) : Task := s.le.tasks.get Task.reset k
/-- Change a task. -/
def State.updTask (s : State) (k : Nat) (f : Task → Task) : State := { s with le := { s.le with tasks := s.le.tasks.upd Task.reset k f } }
/-- Jarond port p. -/
def State.port (s : State) (p : Nat) : Port := s.jl.ports.get (Port.reset (!s.tst.straps.casMaster) p) p
/-- Change Jarond port p. -/
def State.updPort (s : State) (p : Nat) (f : Port → Port) : State :=
  { s with jl := { s.jl with ports := s.jl.ports.upd (Port.reset (!s.tst.straps.casMaster) p) p f } }
/-- A stream, by 24 x port + 12 x direction + stream. -/
def State.strm (s : State) (k : Nat) : Strm := s.jl.strs.get Strm.reset k
/-- Change a stream. -/
def State.updStrm (s : State) (k : Nat) (f : Strm → Strm) : State := { s with jl := { s.jl with strs := s.jl.strs.upd Strm.reset k f } }
/-- Antenna group of a chain (TXn at 32 + n). -/
def State.agrp (s : State) (i : Nat) : Nat := s.jl.agrp.get 0 i
/-- Token bucket of a code. -/
def State.bucket (s : State) (c : Nat) : Bucket := s.recd.buckets.get Bucket.reset c
/-- Change a token bucket. -/
def State.updBucket (s : State) (c : Nat) (f : Bucket → Bucket) : State :=
  { s with recd := { s.recd with buckets := s.recd.buckets.upd Bucket.reset c f } }

/-- A list of indices folded over the state. -/
def State.each (s : State) (l : List Nat) (f : Nat → State → State) : State := l.foldl (fun a i => f i a) s

/-- A fresh free value (log 13). -/
def State.free (s : State) : Word × State := (Config.freeValue s.freeCnt, { s with freeCnt := s.freeCnt + 1 })

/-! ## Scopes (R169, R170) -/

/-- The object number of a chain, a tile and the device. -/
def objChain (c : Nat) : Nat := 256 + c
/-- The object of tile k. -/
def objTile (k : Nat) : Nat := 288 + k
/-- The device's object. -/
def objDevice : Nat := 292

/-- The transmit chain a slot is routed to. -/
def Slot.txDest (x : Slot) : Option Nat := if x.st = .free ∨ x.stream then none else some (x.dest.toNat % 32)

/-- The scope objects that contain slot n (R169). -/
def State.slotScopes (s : State) (n : Nat) : List Nat :=
  match (s.slot n).txDest with
  | some c => [n, objChain c, objTile (c / 8), objDevice]
  | none => [n, objDevice]

/-- The scope objects that contain TXc. -/
def txScopes (c : Nat) : List Nat := [objChain c, objTile (c / 8), objDevice]

/-- A scope object is in WINTER (R170). -/
def State.inWinter (s : State) (i : Nat) : Bool := decide ((s.wobj i).cause ≠ 0)

/-- A slot is muted (R170). -/
def State.slotMuted (s : State) (n : Nat) : Bool := (s.slotScopes n).any s.inWinter

/-- A transmit chain is muted (R170). -/
def State.txMuted (s : State) (c : Nat) : Bool := (txScopes c).any s.inWinter

/-- The slots that are not FREE, in rising order. -/
def State.heldSlots (s : State) : List Nat := (s.slots.filter (fun e => decide (e.2.st ≠ .free))).map (fun e => e.1)

/-- The held slots of RXr. -/
def State.rxSlots (s : State) (r : Nat) : List Nat := s.heldSlots.filter (fun n => decide (n / 8 = r))

/-- The held slots routed to TXc. -/
def State.txSlots (s : State) (c : Nat) : List Nat := s.heldSlots.filter (fun n => decide ((s.slot n).txDest = some c))

/-! ## Coded memories (R327, R328, R411) -/

/-- The test address of word 0 of memory kind k of object o of block b (R411). -/
def testBase (b o k : Nat) : Nat := b * 2 ^ 28 + o * 2 ^ 20 + k * 2 ^ 16

/-- A poisoned word. -/
def State.wordPoisoned (s : State) (a : Nat) : Bool := s.flt.poisoned.contains a

/-- The owner writes the words of a memory: they are correctly coded again (R328). -/
def State.memWritten (s : State) (base : Nat) : State :=
  { s with flt := { s.flt with poisoned := s.flt.poisoned.filter (fun a => decide (a / 2 ^ 16 ≠ base / 2 ^ 16)),
                               flipped := s.flt.flipped.filter (fun e => decide (e.1 / 2 ^ 16 ≠ base / 2 ^ 16)) } }

/-! ## The recorder's intake (R337, R338, R342-R345) -/

/-- Present OPH (R338). -/
def State.oph (s : State) : Nat := if s.recd.mounted then s.recd.ophBase + (s.now - s.recd.ophAt) / tms else 0

/-- A value laid at a byte offset of a record's data. -/
def fld (off v : Nat) : Nat := v <<< (8 * off)

/-- The fill of a bucket at present (R342). -/
def Bucket.fillNow (b : Bucket) (now : Nat) : Nat := min (b.burst * tokenUnit) (b.fill + b.rate * (now - b.at_))

/-- A bucket brought up to the present. -/
def Bucket.sync (b : Bucket) (now : Nat) : Bucket := { b with fill := b.fillNow now, at_ := now }

/-- Count a suppressed or dropped record for the next summary (R343). -/
def Bucket.count (b : Bucket) (dropped : Bool) (oph sev : Nat) (src : Byte) : Bucket :=
  { b with
    supp := if dropped then b.supp else satInc 0xFFFF b.supp
    drop := if dropped then satInc 0xFFFF b.drop else b.drop
    firstOph := if b.supp = 0 ∧ b.drop = 0 then oph else b.firstOph
    lastOph := oph
    maxSev := if b.supp = 0 ∧ b.drop = 0 then sev else max b.maxSev sev
    src := src }

/-- Ask for a flush (R346). -/
def State.askFlush (s : State) (ckpt : Bool) : State :=
  { s with recd := { s.recd with want := true, wantCkpt := s.recd.wantCkpt || ckpt } }

/-- Put a record at the end of the buffer (R337), with the triggers of R346 and the copy of R282. -/
def State.bufferPut (s : State) (code sev : Nat) (summary : Bool) (src : Byte) (data : BitVec 256) : State :=
  let r : Rec := { seq := s.recd.nextSeq, code := code, oph := s.oph, sev := sev, summary := summary, src := src, pcc := s.recd.store.pcc,
                   dtime := s.dtime, data := data }
  let copy := s.hif.er.en && decide (s.hif.er.minsev ≤ sev)
  let s1 := { s with recd := { s.recd with nextSeq := s.recd.nextSeq + 1, buf := s.recd.buf ++ [r],
                                           copyq := if copy then s.recd.copyq ++ [r] else s.recd.copyq } }
  if 2 ≤ sev ∨ s1.recd.buf.length = 768 then s1.askFlush false else s1

/-- The oldest record of severity 0 that no flush holds (R344, R345). -/
def Recd.displaceable (r : Recd) : Option Rec :=
  let lim := match r.flush with | some f => f.upTo | none => 0
  r.buf.find? (fun x => decide (x.sev = 0 ∧ lim < x.seq))

/-- Count a record lost by severity (R344, R350). -/
def State.countDrop (s : State) (sev : Nat) : State :=
  if 2 ≤ sev then { s with recd := { s.recd with dropHi := satInc 0xFFFF s.recd.dropHi } }
  else { s with recd := { s.recd with dropLo := satInc 0xFFFF s.recd.dropLo } }

/-- A record that holds its token meets the buffer (R344, R345); the Bool tells that a record of severity 2 or more was lost there. -/
def State.bufferEnter (s : State) (code sev : Nat) (summary : Bool) (src : Byte) (data : BitVec 256) : Bool × State :=
  if s.recd.buf.length < 1024 then (false, s.bufferPut code sev summary src data)
  else
    match (if 2 ≤ sev ∧ s.recd.tombs.length < 256 then s.recd.displaceable else none) with
    | some d =>
      let s1 := { s with recd := { s.recd with buf := s.recd.buf.filter (fun x => decide (x.seq ≠ d.seq)), tombs := s.recd.tombs ++ [d] } }
      (false, s1.bufferPut code sev summary src data)
    | none => (decide (2 ≤ sev), (s.updBucket code (fun b => b.count true s.oph sev src)).countDrop sev)

/-- A record arises (R342-R345, R349). Before the mount the recorder takes none (log 24). -/
def State.record0 (s : State) (code sev : Nat) (src : Byte) (bypass : Bool) (data : Nat) : Bool × State :=
  if !s.recd.mounted then (false, s)
  else if s.recd.intakeClosed then (false, s.countDrop sev)
  else if bypass then s.bufferEnter code sev false src (BitVec.ofNat 256 data)
  else
    let b := (s.bucket code).sync s.now
    if b.fill < tokenUnit then (false, s.updBucket code (fun _ => b.count false s.oph sev src))
    else (s.updBucket code (fun _ => { b with fill := b.fill - tokenUnit })).bufferEnter code sev false src (BitVec.ofNat 256 data)

/-- A record whose loss raises nothing further. -/
def State.recordQ (s : State) (code sev : Nat) (src : Byte) (bypass : Bool) (data : Nat) : State := (s.record0 code sev src bypass data).2

/-! ## Interrupt events (R292-R295, R302) -/

/-- The level of fault source k = 16 x b + s asserts its interrupt source (R292). -/
def State.faultAsserted (s : State) (k : Nat) : Bool := (s.fsrc k).status && decide (1 ≤ (s.fsrc k).level)

/-- Whether interrupt source n is asserted: level sources 64-319 (Table 10-1). -/
def State.srcLevel (s : State) (n : Nat) : Bool := decide (64 ≤ n ∧ n < 320) && s.faultAsserted (n - 64)

/-- SRC_CFG of interrupt source n. -/
def State.srcCfg (s : State) (n : Nat) : SrcCfg := s.intc.srcs.get SrcCfg.reset n

/-- An enabled source that is asserted or latched. -/
def State.srcHot (s : State) (n : Nat) : Bool := s.intc.en.getLsbD n && (s.srcLevel n || s.intc.lat.getLsbD n)

/-- Some enabled source of vector v is asserted or latched (R302). -/
def State.vecHot (s : State) (v : Nat) : Bool := (List.range 512).any (fun n => decide ((s.srcCfg n).vector = v) && s.srcHot n)

/-- Some enabled level source of vector v is asserted (R294, R301). -/
def State.vecLevel (s : State) (v : Nat) : Bool :=
  (List.range 512).any (fun n => s.intc.en.getLsbD n && decide ((s.srcCfg n).vector = v) && s.srcLevel n)

/-- SEEN of every ACTIVE vector follows its sources (R302). -/
def State.seenSync (s : State) : State :=
  s.each ((s.intc.vecs.filter (fun e => e.2.active && !e.2.seen)).map (fun e => e.1))
    (fun v a => if a.vecHot v then a.updVec v (fun x => { x with seen := true }) else a)

/-- One event of a vector (R293-R295). -/
def Vec.event (x : Vec) (now : Nat) (urgent : Bool) : Vec :=
  let n := satInc 255 x.evcnt
  { x with pend := true, evcnt := n, first := match x.first with | some t => some t | none => some now,
           ripe := x.ripe || urgent || decide (x.cntUse ≤ n) || decide (x.timeUse = 0) }

/-- An event of interrupt source n, whose enable is judged by the caller. -/
def State.srcEvent (s : State) (n : Nat) : State :=
  (s.updVec (s.srcCfg n).vector (fun x => x.event s.now (s.srcCfg n).urgent)).seenSync

/-- An event of an edge source: an enabled one latches and counts (R293). -/
def State.irqEdge (s : State) (n : Nat) : State :=
  if s.intc.en.getLsbD n then ({ s with intc := { s.intc with lat := s.intc.lat ||| BitVec.twoPow 512 n } }).srcEvent n else s

/-- The rise of a level source (R293). -/
def State.irqRise (s : State) (n : Nat) : State := if s.intc.en.getLsbD n then s.srcEvent n else s

/-! ## Completions (R263-R266, R275, R276) -/

/-- Codes of Table 9-11. -/
def Status.code : Status → Nat
  | .ok => 0 | .aborted => 1 | .abortTooLate => 2 | .refusedDeadline => 3 | .refusedPort => 4 | .refusedState => 5
  | .badDescriptor => 6 | .timeoutLock => 7 | .winterActive => 8 | .fetchError => 9 | .superseded => 10

/-- The PHASE bit of a ring entry with count k (R261). -/
def phaseBit (size : Nat) (k : Half) : Nat := 1 - (k.toNat >>> size) % 2

/-- The address of the entry with count k (R260). -/
def entryAddr (lo hi : Word) (bytes size : Nat) (k : Half) : Nat := hi.toNat * 2 ^ 32 + lo.toNat + bytes * (k.toNat % 2 ^ size)

/-- The eight words of a completion (Table 9-10). -/
def Compl.words (c : Compl) (phase : Nat) : List Word :=
  [c.tag, word (c.op.toNat + c.status.code * 2 ^ 8 + c.index.toNat * 2 ^ 16),
   c.accDt.extractLsb' 0 32, c.accDt.extractLsb' 32 32, c.doneDt.extractLsb' 0 32, c.doneDt.extractLsb' 32 32,
   c.res, word (c.res2.toNat + phase * 2 ^ 31)]

/-- A ring's accepted descriptors that still owe a completion. -/
def State.ringWork (s : State) (n : Nat) : Nat :=
  (s.hif.outstanding.filter (fun p => decide (p.ring = n) && !p.discard)).length + (s.hif.held.filter (fun c => decide (c.ring = n))).length

/-- DRAINING ends when the last completion is written (Table 9-6). -/
def State.drainCheck (s : State) (n : Nat) : State :=
  if (s.ring n).st = .draining ∧ s.ringWork n = 0 ∧ (s.ring n).fence = none then s.updRing n (fun r => { r with st := .disabled }) else s

/-- A host write leaves the device. -/
def State.hostWrite (s : State) (addr : Nat) (ws : List Word) : State :=
  { s with hif := { s.hif with hostWrites := s.hif.hostWrites ++ [{ addr := addr, words := ws }] } }

/-- Write a completion into its ring and signal it (R275). -/
def State.putCompl (s : State) (c : Compl) : State :=
  let r := s.ring c.ring
  let s1 := (s.hostWrite (entryAddr r.cqLo r.cqHi 32 r.size r.ctail) (c.words (phaseBit r.size r.ctail))).updRing c.ring (fun r => { r with ctail := r.ctail + 1 })
  if c.notify || decide (c.status ≠ .ok) then s1.irqEdge c.ring else s1

/-- The completion leaves, or waits while Bus Master Enable is clear (R257). -/
def State.sendCompl (s : State) (c : Compl) : State :=
  let s1 := if s.hif.busMaster && !decide ((s.ring c.ring).st = .stopped ∧ (s.ring c.ring).cause = 3) then s.putCompl c else { s with hif := { s.hif with held := s.hif.held ++ [c] } }
  (if c.op = 1 ∨ c.op = 2 ∨ c.op = 0 then s1
   else s1.recordQ (0x300 + c.op.toNat) (if c.status = .ok then 0 else 1) 0x20 false
     (fld 0 c.tag.toNat + fld 4 c.status.code + fld 5 c.ring + fld 6 c.index.toNat + fld 8 c.accDt.toNat + fld 16 c.doneDt.toNat
       + fld 24 c.res.toNat + fld 28 c.res2.toNat)).drainCheck c.ring

/-- End an accepted descriptor with a status (R275); its completion is discarded after an event of R256. -/
def State.complete (s : State) (p : Pend) (st : Status) (res : Word) (res2 : Half) : State :=
  let s1 := { s with hif := { s.hif with outstanding := s.hif.outstanding.filter (fun q => decide (q.id ≠ p.id)) } }
  if p.discard then s1
  else s1.sendCompl { ring := p.ring, tag := p.tag, op := p.op, status := st, index := p.index, accDt := p.accDt, doneDt := s.dtime, res := res,
                      res2 := res2, notify := p.notify }

/-- The outstanding descriptor with an id. -/
def State.pend? (s : State) (id : Nat) : Option Pend := s.hif.outstanding.find? (fun p => decide (p.id = id))

/-- End the descriptor with an id, if it is outstanding. -/
def State.completeId (s : State) (id : Nat) (st : Status) (res : Word) (res2 : Half) : State :=
  match s.pend? id with
  | some p => s.complete p st res res2
  | none => s

/-- End, in acceptance order, every outstanding descriptor that f picks. -/
def State.completeAll (s : State) (f : Pend → Bool) (st : Status) : State :=
  (s.hif.outstanding.filter f).foldl (fun a p => a.complete p st 0 0) s

/-- Change an outstanding descriptor. -/
def State.updPend (s : State) (id : Nat) (f : Pend → Pend) : State :=
  { s with hif := { s.hif with outstanding := s.hif.outstanding.map (fun p => if p.id = id then f p else p) } }

/-- The outstanding descriptors that f picks, in acceptance order. -/
def State.pends (s : State) (f : Pend → Bool) : List Pend := s.hif.outstanding.filter f

end Sys2Proof.Machine
end

