-- ==== Sys2Proof/Machine/Faults.lean ====
section
/-! DEFINITION. WINTER entry with everything it ends (R169-R200), and the one operation by which every block raises a fault: occurrence, repeat, escalation, scope, record, interrupt (R309-R322). -/

namespace Sys2Proof.Machine

/-! ## Severity registers (R309, R310, R315) -/

/-- Reset SEV of block b; PROT (b = 13) has a second register for sources 8-15. -/
def sevReset (b : Nat) (hi : Bool) : Half :=
  match b with
  | 0 => 0x007F | 1 => 0x1453 | 2 => 0x0013 | 3 => 0x057B | 4 => 0x2962 | 5 => 0x1AF5 | 6 => 0x9BCF | 7 => 0x9BCF | 8 => 0x9BCF | 9 => 0x9BCF
  | 10 => 0x408F | 11 => 0x198F | 12 => 0x058F | 13 => if hi then 0x1F77 else 0x55CF | 14 => 0x5E4F | _ => 0x694F

/-- Floors of block b's sources, from source 0 (the tables of the chapters). Sources beyond the list are unused. -/
def floors (b : Nat) : List Nat :=
  match b with
  | 0 => [3, 3, 3, 1] | 1 => [3, 0, 0, 0, 0, 0, 0, 0] | 2 => [3, 0, 0, 0] | 3 => [3, 1, 3, 1, 0, 1] | 4 => [1, 0, 1, 0, 0, 1, 1]
  | 5 => [0, 0, 3, 3, 1, 1, 0] | 6 => [3, 3, 0, 3, 3, 1, 0, 1] | 7 => [3, 3, 0, 3, 3, 1, 0, 1] | 8 => [3, 3, 0, 3, 3, 1, 0, 1] | 9 => [3, 3, 0, 3, 3, 1, 0, 1]
  | 10 => [3, 3, 0, 2, 0, 0, 0, 0] | 11 => [3, 3, 0, 2, 0, 2, 0] | 12 => [3, 3, 0, 1, 0, 0]
  | 13 => [3, 3, 0, 3, 1, 1, 1, 1, 3, 1, 3, 1, 3, 3, 1] | 14 => [3, 3, 0, 0, 2, 3, 0, 0] | _ => [3, 3, 0, 0, 1, 1, 1, 1]

/-- The key of a block's SEV register. -/
def sevKey (b : Nat) (hi : Bool) : Nat := 2 * b + bit hi

/-- A block's SEV register as stored. -/
def State.sevReg (s : State) (b : Nat) (hi : Bool) : Word := s.flt.sev.get (cword (sevReset b hi)) (sevKey b hi)

/-- The SEV register disagrees with its complement and its reset SEV is in use (R321). -/
def State.sevIsLost (s : State) (b : Nat) (hi : Bool) : Bool := s.flt.sevLost.get false (sevKey b hi) || !cwordOk (s.sevReg b hi)

/-- The SEV in force (R310, R321). -/
def State.sevUse (s : State) (b : Nat) (hi : Bool) : Half := if s.sevIsLost b hi then sevReset b hi else lowHalf (s.sevReg b hi)

/-- The SEV field of source n of block b. -/
def State.sev (s : State) (b n : Nat) : Nat := bitsOf (s.sevUse b (decide (8 ≤ n ∧ b = 13))) (2 * (n % (if b = 13 then 8 else 16))) 2

/-- GRACE_MS of block b. -/
def State.graceMs (s : State) (b : Nat) : Nat := (s.flt.grace.get 0x03E8 b).toNat

/-- The bits of FLT_POLICY in force: all 1 when the word fails its check (R323). -/
def State.policyBit (s : State) (i : Nat) : Bool := !cwordOk s.flt.policy || s.flt.policy.getLsbD i

/-! ## WINTER entry (R169-R174, R190, R200) -/

/-- SCOPE code and INDEX of a scope object (Table 11-1). -/
def objCode (i : Nat) : Nat × Nat :=
  if i < 256 then (0, i) else if i < 288 then (1, i - 256) else if i < 292 then (2, i - 288) else (3, 0)

/-- The transmit chains of a scope object that it mutes by their nets. -/
def objTx (i : Nat) : List Nat :=
  if i < 256 then [] else if i < 288 then [i - 256] else if i < 292 then (List.range 8).map (fun c => 8 * (i - 288) + c) else List.range 32

/-- The held slots that scope object i contains. -/
def State.objSlots (s : State) (i : Nat) : List Nat := s.heldSlots.filter (fun n => (s.slotScopes n).contains i)

/-- A SLOT_COEF_LOAD of slot n. -/
def isCoefLoad (n : Nat) (p : Pend) : Bool := match p.desc with | .slotCoefLoad sl _ _ _ _ => decide (sl.toNat = n) | _ => false

/-- A SLOT_BANK_SWAP of slot n. -/
def isBankSwap (n : Nat) (p : Pend) : Bool := match p.desc with | .slotBankSwap sl _ => decide (sl.toNat = n) | _ => false

/-- The held loads of a slot that no earlier swap holds any more begin now (R49); `aux` is 1 from then on. -/
def State.loadsStart (s : State) (n : Nat) : State :=
  (s.pends (fun p => isCoefLoad n p && decide (p.aux = 0))).foldl
    (fun a p => if (a.pends (fun q => isBankSwap n q && decide (q.id < p.id))).isEmpty then a.updPend p.id (fun q => { q with aux := 1, start := a.now }) else a) s

/-- End a slot's fade with k = L: the new bank is active, its swap completes OK (R47, R200), and the loads it held begin (R49). -/
def State.fadeFinish (s : State) (n : Nat) : State :=
  match (s.slot n).fade with
  | some f => ((s.updSlot n (fun x => { x with fade := none, activeB := !x.activeB })).completeId f.id .ok 0 0).loadsStart n
  | none => s

/-- Whether a descriptor is a SLOT_GAIN_SET of slot n. -/
def isGainSet (n : Nat) (p : Pend) : Bool := match p.desc with | .slotGainSet sl _ => decide (sl.toNat = n) | _ => false

/-- Whether a descriptor is a GCL_BANK_SWAP of a set. -/
def isLutSwap (i : Nat) (p : Pend) : Bool := match p.desc with | .gclBankSwap st => decide (st.toNat = i) | _ => false

/-- The slots whose enabled loop uses a set (GCL_LSTAT.USERS). -/
def State.lutUsers (s : State) (i : Nat) : List Nat := (s.gcl.filter (fun e => e.2.agcEn && decide (e.2.lutset = i))).map (fun e => e.1)

/-- A GCL_BANK_SWAP completes when every loop that uses the set has switched (R160). -/
def State.lutSwapCheck (s : State) (i : Nat) : State :=
  if (s.lutUsers i).all (fun n => decide ((s.gain n).bankB = (s.lut i).activeB)) then s.completeAll (isLutSwap i) .ok else s

/-- A loop suspended by WINTER counts as switched (R200). -/
def State.lutSuspend (s : State) (n : Nat) : State :=
  if (s.gain n).agcEn then (s.updGain n (fun g => { g with bankB := (s.lut g.lutset).activeB })).lutSwapCheck (s.gain n).lutset else s

/-- An instance's published values are cleared (R126). -/
def Inst.clearPub (x : Inst) : Inst := { x with valid := false, iso := 0, ll := 0, depth := 0, prevIso := none }

/-- A seed reaches k = L: it is the main set, VALID is cleared, measurement restarts, the instance is in ACQUIRE (while IDLE, it resumes there), and its descriptor completes OK (R118, R119, R121). -/
def State.seedInstall (s : State) (i : Nat) : State :=
  match (s.inst i).seed with
  | some d =>
    (s.updInst i (fun x => { x.clearPub with
      main := d.set, scale := d.scale, gradOk := false, st := if x.st = .idle then .idle else .acquire, heldSt := .acquire, winAt := s.now, cycPol := none, winPol := none
      cycleAt := s.smpAtOrAfter chainBlk s.now, seed := none })).completeId d.id .ok 0 0
  | none => s

/-- The assigned instances whose transmit chain is TXc. -/
def State.txInsts (s : State) (c : Nat) : List Nat :=
  (s.cx.filter (fun e => decide (e.2.tx = c ∧ e.2.st ≠ .unassigned ∧ e.2.st ≠ .joined))).map (fun e => e.1)

/-- A slot comes to be contained in a WINTER (R142, R200). -/
def State.slotEntersWinter (s : State) (n : Nat) : State :=
  ((s.fadeFinish n).completeAll (isGainSet n) .winterActive).lutSuspend n

/-- A transmit chain comes to be muted: interrupt source TXn mute, seed fades end (R119), unmute edges end (R200). -/
def State.txEntersWinter (s : State) (c : Nat) : State :=
  let s1 := (s.updNet c (fun x => { x with unmute := none, bridge := none })).irqEdge (320 + c)
  s1.each ((s1.txInsts c).filter (fun i => match (s1.inst i).seed with | some d => decide (d.phase = .fading) | none => false)) (fun i a => a.seedInstall i)

/-- The bridge of net A for a slot-scope WINTER (R174). -/
def State.bridgeNet (s : State) (n : Nat) : State :=
  match (s.slot n).txDest with
  | some c =>
    if s.txMuted c then s
    else s.updNet c (fun x => { x with bridge := some (s.smpAtOrAfter chainBlk (s.now + 157 * tns + (s.txc c).pdly.toNat * 288)) })
  | none => s

/-- The scope objects that contain a captured object (R283). -/
def State.captScopes (s : State) (point index : Nat) : List Nat :=
  if point ≤ 1 then (s.rxSlots index).flatMap s.slotScopes
  else if point ≤ 3 then s.slotScopes index
  else if point = 4 then txScopes index else []

/-- A TRIG 1 capture triggers at the first WINTER decision in a scope that contains its object (R283). -/
def State.captTrigger (s : State) (obj : Nat) : State :=
  match s.hif.captRun with
  | some r =>
    if r.triggered then s
    else match s.pend? r.id with
      | some p =>
        match p.desc with
        | .capture pt ix trig _ _ _ _ _ =>
          if trig = 1 ∧ (s.captScopes pt.toNat ix.toNat).contains obj then
            { s with hif := { s.hif with captRun := some { r with triggered := true, since := s.now } } }.updPend r.id (fun q => { q with committed := true })
          else s
        | _ => s
      | none => s
  | none => s

/-- A record writer: code, severity, SRC, bypass, data. -/
abbrev RecF := State → Nat → Nat → Byte → Bool → Nat → State

/-- Set a cause on a scope object (R190): an entry restarts the ages, records 0x0200, ends a release in progress (R196), and mutes at once what the object contains (R171-R174, R200). -/
def State.winterSetWith (recF : RecF) (s : State) (i : Nat) (cause : Nat) (reason : Half) : State :=
  let o := s.wobj i
  if o.cause.getLsbD cause then s.updObj i (fun o => { o with cleared := o.cleared &&& ~~~(BitVec.twoPow 16 cause) })
  else
    let slots := (s.objSlots i).filter (fun n => !s.slotMuted n)
    let txs := (objTx i).filter (fun c => !s.txMuted c)
    let rel := o.release
    let s1 := if i < 256 then s.bridgeNet i else s
    let s2 := s1.updObj i (fun o => { o with
      cause := o.cause ||| BitVec.twoPow 16 cause, cleared := o.cleared &&& ~~~(BitVec.twoPow 16 cause), age := some s.now,
      entries := o.entries.set 0 cause (s.now), oscAge := if cause = 0 then some s.now else o.oscAge,
      oscTimes := if cause = 0 then (o.oscTimes.filter (fun t => decide (s.now - t ≤ 600 * tsec))) ++ [s.now] else o.oscTimes,
      release := none, reason := reason })
    let s3 := recF s2 0x200 2 0x0D true (fld 0 (objCode i).1 + fld 1 (objCode i).2 + fld 2 (2 ^ cause) + fld 4 reason.toNat)
    let s4 := match rel with
      | some r => s3.completeId r.id .winterActive (cword (s3.wobj i).cause) 0
      | none => s3
    let s5 := (s4.each slots (fun n a => a.slotEntersWinter n)).each txs (fun c a => a.txEntersWinter c)
    s5.captTrigger i

/-! ## Occurrences (R309-R319) -/

/-- SCOPE code, INDEX and TASK of a scope (Table 11-1). -/
def FScope.code : FScope → Nat × Nat × Nat
  | .slot n => (0, n, 0) | .tx n => (1, n, 0) | .tile k => (2, k, 0) | .device => (3, 0, 0) | .rx n => (4, n, 0) | .task e t => (5, e - 64, t)

/-- The scope objects of a task's object list: its slots in path scope, its transmit chains in chain scope (Table 11-3). -/
def Task.scopeObjs (x : Task) : List Nat :=
  x.objs.filterMap (fun w => if bitsOf w 30 2 = 0 then some (bitsOf w 0 8) else if bitsOf w 30 2 = 1 then some (objChain (bitsOf w 0 8)) else none)

/-- The scope objects that a scope stands for (R316). -/
def State.scopeObjs (s : State) (f : FScope) : List Nat :=
  match f with
  | .slot n => [n]
  | .tx n => [objChain n]
  | .tile k => [objTile k]
  | .device => [objDevice]
  | .rx n => s.rxSlots n
  | .task e t => (s.task (8 * e + t)).scopeObjs

/-- The objects, smallest first, that contain scope object i. -/
def State.above (s : State) (i : Nat) : List Nat :=
  if i < 256 then s.slotScopes i else if i < 288 then txScopes (i - 256) else if i < 292 then [i, objDevice] else [objDevice]

/-- The scope whose object has a number. -/
def objScope (i : Nat) : FScope := if i < 256 then .slot i else if i < 288 then .tx (i - 256) else if i < 292 then .tile (i - 288) else .device

/-- The smallest scope object that contains all of a list of scopes (R318). -/
def State.enclosing (s : State) (l : List FScope) : FScope :=
  let os := l.flatMap s.scopeObjs
  match os with
  | [] => .device
  | o :: r => match (s.above o).find? (fun c => r.all (fun p => (s.above p).contains c)) with
    | some c => objScope c
    | none => .device

/-- Add a scope to those recorded for a bit: at most eight distinct ones (R318). -/
def State.addScope (s : State) (l : List FScope) (f : FScope) : List FScope :=
  if l.contains f then l else if l.length < 8 then l ++ [f] else [s.enclosing (l ++ [f])]

/-- PROT sources whose own action is their WINTER and that set no FAULT (R177). -/
def ownWinter (k : Nat) : Bool := [16 * 13 + 3, 16 * 13 + 8, 16 * 13 + 10, 16 * 13 + 12, 16 * 13 + 13, 16 * 13 + 14].contains k

/-- FAULT on every object of a scope, remembered by its source (R313, R318). -/
def State.faultWinter (recF : RecF) (s : State) (k : Nat) (f : FScope) : State :=
  if ownWinter k then s
  else s.each (s.scopeObjs f) (fun i a =>
    (a.winterSetWith recF i 8 0).updObj i (fun o => { o with faultBy := if o.faultBy.contains k then o.faultBy else o.faultBy ++ [k] }))

/-- The record of an event of source k (Table 11-1). -/
def State.faultRecord (recF : RecF) (s : State) (k : Nat) (kind : Nat) (f : FScope) (inj : Bool) : State :=
  let x := s.fsrc k
  recF s (0x100 + k) x.level (BitVec.ofNat 8 (k / 16)) (decide (kind ≠ 1))
    (fld 0 kind + fld 1 x.level + fld 2 f.code.1 + fld 3 f.code.2.1 + fld 4 x.repeats + fld 6 (bit inj) + fld 7 f.code.2.2 + fld 8 x.tFirst.toNat)

/-- The end of a grace timer that starts now (R317). -/
def State.graceEnd (s : State) (k : Nat) : Nat := s.now + s.graceMs (k / 16) * tms

/-- A first occurrence (R309, R314): kind 0, or 5 after a disagreement of the source's state (R321). -/
def State.firstOccur (recF : RecF) (s : State) (k : Nat) (kind : Nat) (f : FScope) (inj : Bool) : State :=
  let v := s.sev (k / 16) (k % 16)
  let s1 := s.updFsrc k (fun _ => { status := true, level := v, sevFirst := v, repeats := 0, tFirst := s.dtime, scopes := [f],
                                    grace := if v = 2 then some (s.graceEnd k) else none, inj := inj, copyBad := false })
  let s2 := if 1 ≤ v then s1.irqRise (64 + k) else s1
  let s3 := s2.faultRecord recF k kind f inj
  if v = 3 then s3.faultWinter recF k f else s3

/-- An escalation to level 3 acts in every recorded scope (R318). -/
def State.escalateWinter (recF : RecF) (s : State) (k : Nat) : State :=
  ((s.fsrc k).scopes).foldl (fun a f => a.faultWinter recF k f) s

/-- A repeat (R309, R318, R319). -/
def State.repeatOccur (recF : RecF) (s : State) (k : Nat) (f : FScope) (inj : Bool) : State :=
  let s1 := s.updFsrc k (fun x => { x with repeats := satInc 0xFFFF x.repeats, scopes := s.addScope x.scopes f, inj := inj })
  let s2 := s1.faultRecord recF k 1 f inj
  let x := s2.fsrc k
  if s2.policyBit 0 && decide (1 ≤ x.sevFirst ∧ x.level < 3) then
    let s3 := s2.updFsrc k (fun x => { x with level := x.level + 1, grace := if x.level + 1 = 2 then some (s2.graceEnd k) else none })
    let s4 := s3.faultRecord recF k 3 f inj
    if x.level + 1 = 3 then s4.escalateWinter recF k else s4
  else if x.level = 3 then s2.faultWinter recF k f
  else s2

/-- An occurrence of source k in a scope (R309). -/
def State.occurWith (recF : RecF) (s : State) (k : Nat) (f : FScope) (inj : Bool) : State :=
  if (s.fsrc k).status then s.repeatOccur recF k f inj else s.firstOccur recF k 0 f inj

/-- A record; the loss of one of severity 2 or more in the buffer raises REC DROP (R344, Table 12-3). -/
def State.record : RecF := fun s code sev src bypass data =>
  match s.record0 code sev src bypass data with
  | (true, s1) => s1.occurWith State.recordQ (16 * 4 + 4) .device false
  | (false, s1) => s1

/-- Set a WINTER cause on an object. -/
def State.winterSet (s : State) (i cause : Nat) (reason : Half) : State := s.winterSetWith State.record i cause reason

/-- REGFAULT for one disagreement (R321, R322). Copies disagree only after an injection, so its records carry INJ (R331). -/
def State.regfault (s : State) : State :=
  let s1 := { s with flt := { s.flt with regfault := satInc 0xFFFF s.flt.regfault } }
  let s2 := s1.occurWith State.record (16 * 3 + 1) .device true
  if s2.policyBit 1 then
    (s2.winterSet objDevice 8 0).updObj objDevice (fun o => { o with faultBy := if o.faultBy.contains 49 then o.faultBy else o.faultBy ++ [49] })
  else s2

/-- A block compares one SEV register with its complement (R321). -/
def State.checkSev (s : State) (b : Nat) (hi : Bool) : State :=
  if !cwordOk (s.sevReg b hi) && !s.flt.sevLost.get false (sevKey b hi) then
    ({ s with flt := { s.flt with sevLost := s.flt.sevLost.set false (sevKey b hi) true } }).regfault
  else s

/-- A block compares both copies of one source's state (R321). -/
def State.checkCopy (s : State) (k : Nat) : State :=
  if (s.fsrc k).copyBad then
    let f := match (s.fsrc k).scopes with | f :: _ => f | [] => FScope.device
    (s.firstOccur State.record k 5 f true).regfault
  else s

/-- A block checks its copies (R321): at every occurrence, acknowledgement and timer expiry. -/
def State.checkCopies (s : State) (b : Nat) : State :=
  (((s.checkSev b false).checkSev b true)).each ((List.range 16).map (fun n => 16 * b + n)) (fun k a => a.checkCopy k)

/-- FLT_POLICY is checked at every occurrence (R323, Table 11-4). -/
def State.checkPolicy (s : State) : State := if cwordOk s.flt.policy then s else s.occurWith State.record (16 * 3) .device true

/-- Raise source n of block b in a scope; inj marks an injected fault (R331). -/
def State.raiseI (s : State) (b n : Nat) (f : FScope) (inj : Bool) : State :=
  ((s.checkPolicy).checkCopies b).occurWith State.record (16 * b + n) f inj

/-- Raise source n of block b in a scope. -/
def State.raise (s : State) (b n : Nat) (f : FScope) : State := s.raiseI b n f false

/-- Mark a WINTER cause cleared on an object that holds it (R190). -/
def State.clearCause (s : State) (i cause : Nat) : State :=
  if (s.wobj i).cause.getLsbD cause then s.updObj i (fun o => { o with cleared := o.cleared ||| BitVec.twoPow 16 cause }) else s

end Sys2Proof.Machine
end

