-- ==== Sys2Proof/Machine/Flags.lean ====
section
/-! DEFINITION. Flags and pins that follow from the state: TDD periods (R78-R81, R443), PA_EN, LNAB and TDDSW (R83-R85), the mute nets (R171-R174, R198), the DC-blocking freezes (R27), the cancellers' overlap and blocks (R100, R109, R111). -/

namespace Sys2Proof.Machine

/-! ## TDD patterns (R77-R81) -/

/-- Ticks in a pattern tick of 1 / 30.72 MHz. -/
def patTk : Nat := 75000

/-- TDD_CFG.SRC. -/
def Sched.src (x : Sched) : Nat := bitsOf x.cfg 30 2
/-- TDD_CFG.NPAT. -/
def Sched.npat (x : Sched) : Nat := bitsOf x.cfg 12 6
/-- The pattern period in ticks (TDD_CFG.PERIOD). -/
def Sched.period (x : Sched) : Nat :=
  (match bitsOf x.cfg 18 3 with
   | 0 => 500000 | 1 => 625000 | 2 => 1000000 | 3 => 1250000 | 4 => 2000000 | 5 => 2500000 | 6 => 5000000 | _ => 10000000) * tns
/-- The burst period in ticks: 5 ms for LTE (source 3), TDD_CFG.BURST for NR (Table 3-8). -/
def Sched.burst (x : Sched) : Nat := if x.src = 3 then 5 * tms else 5 * 2 ^ bitsOf x.cfg 26 3 * tms
/-- The entries of the pattern: kind and start in ticks. -/
def Sched.entries (x : Sched) : List (Nat × Nat) :=
  (List.range x.npat).map (fun i => (bitsOf (x.pat.get 0 i) 30 2, bitsOf (x.pat.get 0 i) 0 19 * patTk))
/-- SVC_DL_DLY in ticks. -/
def Sched.dlDly (x : Sched) : Nat := bitsOf x.side 16 16 * tns
/-- SVC_UL_ADV in ticks. -/
def Sched.ulAdv (x : Sched) : Nat := bitsOf x.side 0 16 * tns

/-- Entries start in strictly rising order. -/
def ordered : List (Nat × Nat) → Bool
  | [] => true
  | [_] => true
  | a :: b :: r => decide (a.2 < b.2) && ordered (b :: r)

/-- Each entry with the kinds before and after it and its duration, across the wrap (R78). -/
def withNeighbours (period : Nat) (l : List (Nat × Nat)) : List (Nat × Nat × Nat × Nat) :=
  let n := l.length
  (List.range n).map (fun i =>
    let e := l.getD i (0, 0)
    let p := l.getD ((i + n - 1) % n) (0, 0)
    let q := l.getD ((i + 1) % n) (0, 0)
    (e.1, p.1, q.1, if i + 1 = n then period - e.2 + q.2 else q.2 - e.2))

/-- The pattern is valid (R78). -/
def Sched.patValid (x : Sched) : Bool :=
  decide (1 ≤ x.npat ∧ x.npat ≤ 32) && x.entries.all (fun e => decide (e.1 ≠ 0 ∧ e.2 < x.period)) && ordered x.entries &&
  (withNeighbours x.period x.entries).all (fun e =>
    decide (e.1 ≠ 3) || (decide (800 * tns ≤ e.2.2.2) &&
      (!decide (e.2.1 = 1 ∧ e.2.2.1 = 2) || decide (800 * tns + x.dlDly + x.ulAdv ≤ e.2.2.2))))

/-- The phase of time t (shifted) in the pattern. -/
def Sched.phase (x : Sched) (t : Int) : Nat := ((t - x.refEv - bitsOf x.ofs 0 24 * tns) % x.period).toNat

/-- The kind of period at a phase: the last entry at or before it, or the pattern's last entry (R78). -/
def Sched.kindAt (x : Sched) (ph : Nat) : Nat :=
  match (x.entries.filter (fun e => decide (e.2 ≤ ph))).getLast? with
  | some e => e.1
  | none => match x.entries.getLast? with | some e => e.1 | none => 0

/-- The shift of a side and direction: service downlink is late, service uplink early (R81). -/
def Sched.shift (x : Sched) (service : Bool) (up : Bool) : Int := if !service then 0 else if up then -(x.ulAdv : Int) else x.dlDly

/-- Whether the periods of a direction run on a side at time t (R81). -/
def Sched.dirOn (x : Sched) (service up : Bool) (t : Int) : Bool :=
  decide (x.kindAt (x.phase (t - x.shift service up)) = if up then 2 else 1)

/-- The kind of the last DL or UL period that began at or before a phase, across the wrap. -/
def Sched.lastKind (x : Sched) (ph : Nat) : Nat :=
  let l := x.entries.filter (fun e => decide (e.1 ≠ 3))
  match (l.filter (fun e => decide (e.2 ≤ ph))).getLast? with
  | some e => e.1
  | none => match l.getLast? with | some e => e.1 | none => 0

/-- Where an antenna stands when its schedule starts to switch in the middle of a pattern: the transmit position in its side's transmit period, or in the gap after its receive period; else the receive position (R80-R83; log 36). -/
def Sched.antAt (x : Sched) (service : Bool) (now : Nat) : Ant :=
  let tx := !service
  let kind := if tx then 2 else 1
  if x.dirOn service tx now ||
      (!x.dirOn service (!tx) now && decide (x.lastKind (x.phase ((now : Int) - x.shift service tx)) ≠ kind ∧ x.lastKind (x.phase ((now : Int) - x.shift service tx)) ≠ 0)) then
    { txOpen := true, rxOpen := false, paOk := true, lnabHigh := true, swTx := true, turn := none }
  else Ant.reset

/-- A role's direction is uplink (CH_CFG.ROLE 2, 3). -/
def roleUp (r : Nat) : Bool := decide (2 ≤ r)
/-- A role's side is service (CH_CFG.ROLE 1, 2). -/
def roleService (r : Nat) : Bool := decide (r = 1 ∨ r = 2)

/-- Whether chain i (TX from 32 on) is in its on-period at time t (R80, R81). -/
def State.onAt (s : State) (i : Nat) (t : Int) : Bool :=
  let c := s.chain i
  if c.sched = 0 ∨ 4 < c.sched then true
  else
    let x := s.sched (c.sched - 1)
    if x.sync = .off ∨ x.sync = .acquiring then decide (i < 32) else x.dirOn (roleService c.role) (roleUp c.role) t

/-- Whether chain i is in its on-period (CH_STAT.ON_PERIOD). -/
def State.onNow (s : State) (i : Nat) : Bool := s.onAt i s.now

/-- Ticks since the latest start of an on-period of chain i in its pattern; none for a chain without off-periods (R27). -/
def State.sinceOn (s : State) (i : Nat) : Option Nat :=
  let c := s.chain i
  if c.sched = 0 ∨ 4 < c.sched then none
  else
    let x := s.sched (c.sched - 1)
    if x.sync = .off ∨ x.sync = .acquiring then none
    else
      let k := if roleUp c.role then 2 else 1
      let ph := x.phase ((s.now : Int) - x.shift (roleService c.role) (roleUp c.role))
      let l := x.entries
      let n := l.length
      let ds := (List.range n).filterMap (fun j =>
        let e := l.getD j (0, 0)
        let p := l.getD ((j + n - 1) % n) (0, 0)
        if e.1 = k ∧ p.1 ≠ k then some ((ph + x.period - e.2) % x.period) else none)
      ds.foldl (fun a d => match a with | some m => some (min m d) | none => some d) none

/-- Time until chain i is next in its on-period, in ticks: 0 when it is; none when the off-period has no end (R443). -/
def State.untilOn (s : State) (i : Nat) : Option Nat :=
  if s.onNow i then some 0
  else
    let c := s.chain i
    let x := s.sched (c.sched - 1)
    if x.sync = .off ∨ x.sync = .acquiring then none
    else
      let k := if roleUp c.role then 2 else 1
      let ph := x.phase ((s.now : Int) - x.shift (roleService c.role) (roleUp c.role))
      (x.entries.filter (fun e => decide (e.1 = k))).foldl
        (fun a e => let d := (e.2 + x.period - ph) % x.period
                    match a with | some m => some (min m d) | none => some d) none

/-- The on-time of chain i in one pattern period, in ticks. -/
def State.onPerPeriod (s : State) (i : Nat) : Nat :=
  let x := s.sched ((s.chain i).sched - 1)
  let k := if roleUp (s.chain i).role then 2 else 1
  ((withNeighbours x.period x.entries).filter (fun e => decide (e.1 = k))).foldl (fun a e => a + e.2.2.2) 0

/-- The on-stretches of a pattern as start and length, over the period before the present one and the two after it, starts counted from one period before the origin. -/
def Sched.stretches (x : Sched) (k : Nat) : List (Nat × Nat) :=
  let st := ((withNeighbours x.period x.entries).zip x.entries).filter (fun e => decide (e.1.1 = k)) |>.map (fun e => (e.2.2, e.1.2.2.2))
  (List.range 4).flatMap (fun j => st.map (fun e => (e.1 + j * x.period, e.2)))

/-- The instant at which w ticks of the stretches have passed since instant p; none if they do not hold as much. -/
def useStretches (p w : Nat) : List (Nat × Nat) → Option Nat
  | [] => none
  | (a, d) :: r =>
    let a' := max a p
    if a + d ≤ p then useStretches p w r
    else if w ≤ a + d - a' then some (a' + w) else useStretches p (w - (a + d - a')) r

/-- Time that w ticks of on-time of chain i take, off-periods included, counted from now (R51, R443). None: without end. -/
def State.withOff (s : State) (i w : Nat) : Option Nat :=
  let c := s.chain i
  if w = 0 then some 0
  else if c.sched = 0 ∨ 4 < c.sched then some w
  else
    let x := s.sched (c.sched - 1)
    if x.sync = .off ∨ x.sync = .acquiring then (if i < 32 then some w else none)
    else
      let k := if roleUp c.role then 2 else 1
      let on := s.onPerPeriod i
      if on = 0 then none
      else
        let full := (w - 1) / on
        let p := x.period + x.phase ((s.now : Int) - x.shift (roleService c.role) (roleUp c.role))
        match useStretches p (w - full * on) (x.stretches k) with
        | some t => some (full * x.period + (t - p))
        | none => none

/-! ## Front-end pins (R82-R85, R198) -/

/-- The antenna that chain i's schedule switches on its side. -/
def State.ant (s : State) (i : Nat) : Ant :=
  let x := s.sched ((s.chain i).sched - 1)
  if roleService (s.chain i).role then x.service else x.donor

/-- TDD allows PA_EN of TXn: FDD; or in its on-period, past T3 of the turnaround that began it; or not yet T1 past the end of the on-period (R84, R80). -/
def State.tddPa (s : State) (n : Nat) : Bool :=
  let c := s.chain (32 + n)
  if c.sched = 0 ∨ 4 < c.sched then true
  else
    let x := s.sched (c.sched - 1)
    if x.sync = .off ∨ x.sync = .acquiring then false
    else
      let a := s.ant (32 + n)
      a.paOk && (s.onNow (32 + n) || (match a.turn with | some (true, _, _) => true | _ => false))

/-- TXn is in TX_ON, or far enough into its entry, and not yet out of it (R71). -/
def State.txEdge (s : State) (n : Nat) : Bool :=
  let c := s.chain (32 + n)
  match c.st, c.trans with
  | .txOn, none => true
  | .txOn, some (_, t) => decide (s.now < t + 5100 * tns)
  | .synth, some (.txOn, t) => decide (t + 12 * tus ≤ s.now)
  | _, _ => false

/-- A scan instruction that holds the PA_EN, TDDSW and DAC pins low is selected (R409). -/
def State.scanHeld (s : State) : Bool := [0, 3, 4, 5, 6].contains s.tst.ir && !s.tst.straps.testEn

/-- PA_ENn (R84, R198, R407). -/
def State.paEn (s : State) (n : Nat) : Bool :=
  !s.tst.inReset && !s.scanHeld && s.txEdge n && s.tddPa n && !s.txMuted n && decide ((s.chain (32 + n)).cal = none ∧ (s.chain (32 + n)).unmet = 0) &&
  (match (s.net n).unmute with | some t => decide (t + 12 * tus ≤ s.now) | none => true)

/-- LNABn (R85). -/
def State.lnab (s : State) (n : Nat) : Bool :=
  let c := s.chain n
  !s.tst.inReset && (decide (c.st ≠ .rxOn ∨ c.cal ≠ none) || c.lnaByp ||
    (if c.sched = 0 ∨ 4 < c.sched then false
     else let x := s.sched (c.sched - 1)
          if x.sync = .off ∨ x.sync = .acquiring then false else (s.ant n).lnabHigh))

/-- TDDSWp (R80, R83). -/
def State.tddsw (s : State) (p : Nat) : Bool :=
  let v := bitsOf s.rfe.tddsw (4 * p) 4
  let x := s.sched (v % 4)
  !s.tst.inReset && !s.scanHeld && decide (8 ≤ v) && !decide (x.sync = .off ∨ x.sync = .acquiring) && (if (v / 4) % 2 = 1 then x.service.swTx else x.donor.swTx)

/-! ## Mute nets (R172, R174, R198) -/

/-- Net A of TXn is closed: muted, bridging, or not yet at 13 µs of its unmuting. -/
def State.netA (s : State) (n : Nat) : Bool :=
  s.txMuted n || (match (s.net n).bridge with | some _ => true | none => false) ||
  (match (s.net n).unmute with | some t => decide (s.now < t + 13 * tus) | none => false)

/-- Net B of TXn is closed exactly while the chain is muted. -/
def State.netB (s : State) (n : Nat) : Bool := s.txMuted n

/-- The slot gate of slot n is closed: its own WINTER, or a device WINTER for a stream (Table 6-2). -/
def State.gateClosed (s : State) (n : Nat) : Bool := s.inWinter n || ((s.slot n).stream && s.inWinter objDevice)

/-! ## DC blocking (R26, R27) -/

/-- f_DC - f_W of RXn in 10 Hz: the LO in QUAD, 0 Hz in DIRECT. -/
def State.dcOffset (s : State) (n : Nat) : Int := if (s.chain n).quad then -((s.chain n).ifofs * 1000) else -((s.chain n).fw : Int)

/-- DCB_STATUS.IDLE: f_DC outside ±368.64 MHz. -/
def State.dcbIdle (s : State) (n : Nat) : Bool := !(s.dcb n).tuned || decide (36864000 < (s.dcOffset n).natAbs)

/-- DCB_STATUS.FROZEN_TDD (R27). -/
def State.dcbFrozen (s : State) (n : Nat) : Bool :=
  decide ((s.chain n).st ≠ .rxOn) || !s.onNow n ||
  (match s.sinceOn n with | some d => decide (d < (s.dcb n).guard_ * tus) | none => false)

/-! ## Cancellers (R98, R100, R109, R111, R114) -/

/-- Δf of an instance in 10 Hz (R98). -/
def State.cxDelta (s : State) (i : Nat) : Int := ((s.chain (32 + (s.inst i).tx)).fw : Int) - ((s.chain (s.inst i).rx).fw : Int)

/-- NO_OVERLAP (R100). -/
def State.noOverlap (s : State) (i : Nat) : Bool := decide (60000000 ≤ (s.cxDelta i).natAbs)

/-- PAUSED: the tile of the receive chain is in AUTUMN (R114). -/
def State.cxPaused (s : State) (i : Nat) : Bool := decide ((s.tileT ((s.inst i).rx / 8)).stage ≠ 0)

/-- RUN of Table 4-3. -/
def State.cxRun (s : State) (i : Nat) : Bool :=
  let x := s.inst i
  decide (x.st ≠ .unassigned ∧ x.st ≠ .joined ∧ (s.chain x.rx).st = .rxOn) && !s.noOverlap i

/-- The transmit chain of an instance is in TX_ON outside every WINTER scope (R103, R117, R118). -/
def State.cxRadiates (s : State) (i : Nat) : Bool :=
  decide ((s.chain (32 + (s.inst i).tx)).st = .txOn) && !s.txMuted (s.inst i).tx

/-- BLK_RAMP: some slot of the transmit chain ramps fast (R111). -/
def State.blkRamp (s : State) (i : Nat) : Bool := (s.txSlots (s.inst i).tx).any (fun n => decide ((s.gain n).quietLeft ≠ 0))

/-- Taps of an instance: 768 joined, else 384. -/
def Inst.ntaps (x : Inst) : Nat := if x.join then 768 else 384

/-! ## Gain (R136) -/

/-- TX_PWR's index, the last that passed its check (R326). -/
def TxCh.index (x : TxCh) : Nat := bitsOf x.pwr 0 7

/-- EXP_OUT of a power-table entry in 0.01 dBm (Table 3-10). -/
def expOut (e : Word64) : Int := (e.extractLsb' 32 16).toInt

/-- PROT_HOLD of a slot: a protection reduction in force on its destination (R136, R180, R182, R93). -/
def State.protHold (s : State) (n : Nat) : Bool :=
  match (s.slot n).txDest with
  | some c => decide (2 ≤ (s.txc c).level) || (s.net c).oHold || (s.txSlots c).any (fun m => decide ((s.gain m).nrise ≠ none))
  | none => false

end Sys2Proof.Machine
end

