-- ==== Sys2Proof/Machine/Operands.lean ====
section
/-! DEFINITION. Descriptor operands: the 64 bytes of a descriptor read as its operand layout (Tables 9-7 to 9-9, R269 step 1, R270, R271, R273). -/

namespace Sys2Proof.Machine

/-- Byte i of a descriptor. -/
def dByte (bs : List Byte) (i : Nat) : Byte := bs.getD i 0
/-- A u16 at offset i (R3). -/
def dHalf (bs : List Byte) (i : Nat) : Half := dByte bs (i + 1) ++ dByte bs i
/-- A u32 at offset i. -/
def dWord (bs : List Byte) (i : Nat) : Word := dHalf bs (i + 2) ++ dHalf bs i
/-- A u64 at offset i. -/
def dWord64 (bs : List Byte) (i : Nat) : Word64 := dWord bs (i + 4) ++ dWord bs i

/-- The operand bytes each opcode's layout lists, as offset and size (Table 9-9); GCL_SETPOINT and PROT_CONFIG by KIND. None: no such opcode, or no such KIND. -/
def layout (op : Nat) (kind : Nat) : Option (List (Nat × Nat)) :=
  match op with
  | 0x01 => some [] | 0x02 => some [(8, 1)] | 0x03 => some [(8, 1), (0xA, 2)]
  | 0x10 => some [(8, 4), (0xC, 4), (0x10, 8), (0x18, 2)]
  | 0x11 => some [(8, 1)] | 0x12 => some [(8, 1)] | 0x13 => some [(8, 1), (0xC, 4)]
  | 0x14 => some [(8, 1), (0xA, 4), (0x10, 8)] | 0x15 => some [(8, 2)]
  | 0x20 => some [(8, 4)] | 0x21 => some [(8, 4), (0xC, 8), (0x14, 2)] | 0x22 => some [(8, 3)]
  | 0x23 => some [(8, 3), (0xC, 4), (0x10, 8), (0x18, 8)] | 0x24 => some [(8, 6), (0x10, 4), (0x18, 8)]
  | 0x30 => some [(8, 5), (0xE, 4)] | 0x31 => some [(8, 3), (0xC, 4), (0x10, 8)] | 0x32 => some [(8, 1), (0x10, 8)]
  | 0x40 => some [(8, 1), (0xA, 2), (0x10, 8)] | 0x41 => some [(8, 1)]
  | 0x42 => if kind = 0 then some [(8, 4), (0xC, 5), (0x12, 6)] else if kind = 1 then some [(8, 2), (0xC, 6)] else none
  | 0x50 => if kind = 0 then some [(8, 3), (0xC, 4)] else if kind = 1 then some [(8, 2), (0xC, 20)] else none
  | 0x51 => some [(8, 4)] | 0x52 => some [(8, 3)]
  | 0x60 => some [(8, 2), (0xC, 12)] | 0x61 => some [(8, 13), (0x18, 8)] | 0x62 => some [(8, 2)]
  | 0x70 => some [(8, 12), (0x18, 16)] | 0x71 => some [(8, 12)]
  | 0x80 => some [(8, 2), (0x10, 32)] | 0x81 => some []
  | 0x90 => some [(8, 5), (0xE, 8)] | 0x91 => some [(8, 2)]
  | _ => none

/-- An opcode of Table 9-8. -/
def knownOp (op : Nat) : Bool := (layout op 0).isSome

/-- The first reserved operand byte that is not 0 (R270). -/
def firstReserved (bs : List Byte) (l : List (Nat × Nat)) : Option Nat :=
  ((List.range 56).map (fun i => i + 8)).find? (fun i => decide (dByte bs i ≠ 0) && !l.any (fun e => decide (e.1 ≤ i ∧ i < e.1 + e.2)))

/-- Step 1 of R269: the offset of the first failing header field, layout selector or reserved byte. -/
def headerFault (bs : List Byte) : Option Nat :=
  let op := (dByte bs 0).toNat
  if !knownOp op then some 0
  else if dByte bs 1 ≠ 1 then some 1
  else if 8 ≤ (dByte bs 2).toNat then some 2
  else if dByte bs 3 ≠ 0 then some 3
  else match layout op (dByte bs 8).toNat with
    | none => some 8
    | some l => firstReserved bs l

/-- The class of CTRL[1:0]. -/
def clsOf (n : Nat) : Cls := match n % 4 with | 0 => .a | 1 => .b | 2 => .c | _ => .d

/-- The header of a descriptor taken from a ring (Table 9-7). -/
def hdrOf (ring : Fin 16) (bs : List Byte) : DHdr :=
  { ring := ring, tag := dWord bs 4, cls := clsOf (dByte bs 2).toNat, notify := (dByte bs 2).getLsbD 2 }

/-- The operands of a descriptor whose header has passed (Table 9-9), with what its host data read returned. -/
def operandsOf (bs : List Byte) (data : HostData) : Desc :=
  let b := dByte bs
  let h := dHalf bs
  let w := dWord bs
  let q := dWord64 bs
  match (b 0).toNat with
  | 0x01 => .nop
  | 0x02 => .fence (b 8)
  | 0x03 => .abort (b 8) (h 0xA)
  | 0x10 => .slotConfig (b 8) (b 9) (b 0xA) (b 0xB) (h 0xC) (h 0xE) (w 0x10) (w 0x14) (h 0x18)
  | 0x11 => .slotEnable (b 8)
  | 0x12 => .slotDisable (b 8)
  | 0x13 => .slotGainSet (b 8) (w 0xC)
  | 0x14 => .slotCoefLoad (b 8) (h 0xA) (h 0xC) (q 0x10) data
  | 0x15 => .slotBankSwap (b 8) (b 9)
  | 0x20 => .chainState (b 8) (b 9) (b 0xA) (b 0xB)
  | 0x21 => .chainTune (b 8) (b 9) (b 0xA) (b 0xB) (w 0xC) (w 0x10) (h 0x14)
  | 0x22 => .calRun (b 8) (b 9) (b 0xA)
  | 0x23 => if b 9 = 2 then .txPowerTableLoad (b 8) (q 0x18) data else .txPowerStep (b 8) (b 9) (b 0xA) (w 0xC) (q 0x10)
  | 0x24 => if b 8 = 0 then .tunerSet (b 9) (b 0xA) (q 0x18) else .tunerSetRaw (b 0xB) (b 0xC) (b 0xD) (w 0x10) (q 0x18)
  | 0x30 => .cxAssign (b 8) (b 9) (b 0xA) (b 0xB) (b 0xC) (h 0xE) (h 0x10)
  | 0x31 => if b 9 = 0 then .cxReset (b 8) else .cxResetSeed (b 8) (b 0xA) (w 0xC) (q 0x10) data
  | 0x32 => .cxFreeze (b 8) (q 0x10)
  | 0x40 => .gclLutLoad (b 8) (h 0xA) (q 0x10) data
  | 0x41 => .gclBankSwap (b 8)
  | 0x42 => if b 8 = 0 then .gclSetpoint (b 9) (b 0xA) (b 0xB) (h 0xC) (h 0xE) (b 0x10) (h 0x12) (h 0x14) (h 0x16)
            else .installationModel (b 9) (h 0xC) (h 0xE) (h 0x10)
  | 0x50 => if b 8 = 0 then .protConfig (b 9) (b 0xA) (w 0xC) else .authorisationWrite (b 9) (w 0xC) (w 0x10) (w 0x14) (w 0x18) (w 0x1C)
  | 0x51 => .winterEnter (b 8) (b 9) (h 0xA)
  | 0x52 => .winterRelease (b 8) (b 9) (b 0xA)
  | 0x60 => .leImageLoad (b 8) (b 9) (w 0xC) (q 0x10) data
  | 0x61 => .leTaskStart (b 8) (b 9) (b 0xA) (b 0xB) (w 0xC) (w 0x10) (b 0x14) (q 0x18) data
  | 0x62 => .leTaskStop (b 8) (b 9)
  | 0x70 => .capture (b 8) (b 9) (b 0xA) (b 0xB) (w 0xC) (w 0x10) (q 0x18) (q 0x20)
  | 0x71 => .telemetrySubscribe (b 8) (b 9) (b 0xA) (b 0xB) (w 0xC) (w 0x10)
  | 0x80 => .recNote (h 8) ((List.range 8).map (fun i => w (0x10 + 4 * i)))
  | 0x81 => .recFlush
  | 0x90 => .jlStreamOpen (b 8) (b 9) (b 0xA) (b 0xB) (b 0xC) (h 0xE) (w 0x10) (h 0x14)
  | _ => .jlStreamClose (b 8) (b 9)

/-- A MODE or KIND byte outside its range, where it selects the operation (0x23, 0x24, 0x31): its offset. -/
def selectorFault (bs : List Byte) : Option Nat :=
  match (dByte bs 0).toNat with
  | 0x23 => if 2 < (dByte bs 9).toNat then some 9 else none
  | 0x24 => if 1 < (dByte bs 8).toNat then some 8 else none
  | 0x31 => if 1 < (dByte bs 9).toNat then some 9 else none
  | _ => none

/-- OPCODE of a descriptor (Table 9-8). -/
def opOf : Desc → Byte
  | .nop => 0x01 | .fence .. => 0x02 | .abort .. => 0x03 | .slotConfig .. => 0x10 | .slotEnable .. => 0x11 | .slotDisable .. => 0x12
  | .slotGainSet .. => 0x13 | .slotCoefLoad .. => 0x14 | .slotBankSwap .. => 0x15 | .chainState .. => 0x20 | .chainTune .. => 0x21
  | .calRun .. => 0x22 | .txPowerStep .. => 0x23 | .txPowerTableLoad .. => 0x23 | .tunerSet .. => 0x24 | .tunerSetRaw .. => 0x24
  | .cxAssign .. => 0x30 | .cxReset .. => 0x31 | .cxResetSeed .. => 0x31 | .cxFreeze .. => 0x32 | .gclLutLoad .. => 0x40
  | .gclBankSwap .. => 0x41 | .gclSetpoint .. => 0x42 | .installationModel .. => 0x42 | .protConfig .. => 0x50 | .authorisationWrite .. => 0x50
  | .winterEnter .. => 0x51 | .winterRelease .. => 0x52 | .leImageLoad .. => 0x60 | .leTaskStart .. => 0x61 | .leTaskStop .. => 0x62
  | .capture .. => 0x70 | .telemetrySubscribe .. => 0x71 | .recNote .. => 0x80 | .recFlush => 0x81 | .jlStreamOpen .. => 0x90
  | .jlStreamClose .. => 0x91

/-- The first of a list of operand checks (offset, passes) that fails (R269 step 3). -/
def firstBad (l : List (Nat × Bool)) : Option Nat := (l.find? (fun e => !e.2)).map (fun e => e.1)

/-- A refusal: status, RESULT, RESULT2. -/
structure Refuse where
  st : Status
  res : Word
  res2 : Half
deriving DecidableEq, Repr

/-- REFUSED_STATE with RESULT 0. -/
def refState : Option Refuse := some { st := .refusedState, res := 0, res2 := 0 }
/-- BAD_DESCRIPTOR with an offset. -/
def refBad (off : Nat) : Option Refuse := some { st := .badDescriptor, res := word off, res2 := 0 }

/-- What the chapters say of a descriptor: its range, its state, its worst-case time in ticks (none: without end). -/
structure Checks where
  range : Option Nat
  state : Option Refuse
  worst : Option Nat
deriving DecidableEq, Repr

end Sys2Proof.Machine
end

