-- ==== Sys2Proof/Machine/Gains.lean ====
section
/-! DEFINITION. Gain loops, caps, lookup tables and ramps (chapter 5), with the margin clamp of PROT (R179). Gains in codes of 0.05 dB, accumulators in 0.0005 dB, figures in 0.01 dB. -/

namespace Sys2Proof.Machine

/-- The quotient to nearest; at an exact half the way the free value says (log 15). -/
def divNearest (site : Nat) (x : Int) (d : Nat) : Int :=
  let q := x / d
  let r := x % d
  if 2 * r < d then q else if (d : Int) < 2 * r then q + 1 else if Config.halfUp site x then q + 1 else q

/-- The code nearest to an accumulator of u units per code; halfway, the code applied before (R133). -/
def nearestCode (u : Nat) (acc prev : Int) : Int :=
  let q := acc / u
  let r := acc % u
  if 2 * r < u then q else if (u : Int) < 2 * r then q + 1 else if prev ≤ q then q else q + 1

/-- Set the accumulator and its applied code. -/
def Gain.setAcc (g : Gain) (a : Int) : Gain := { g with acc := a, applied := nearestCode 100 a g.applied }

/-- Set the set-point accumulator. -/
def Gain.setSp (g : Gain) (a : Int) : Gain := { g with spAcc := a, spEff := nearestCode 20 a g.spEff }

/-- EFFECTIVE as GCL shows it (R166). -/
def State.effShown (s : State) (n : Nat) : Int :=
  let g := s.gain n
  match (s.slot n).st with
  | .active => g.applied
  | .settling => max (-1200) (min g.target g.cap - 400)
  | _ => -1200

/-- CAPPED (GCL_STAT). -/
def State.capped (s : State) (n : Nat) : Bool := decide (s.effShown n = (s.gain n).cap ∧ (s.gain n).cap < (s.gain n).target)

/-! ## The gain-margin cap (R145-R148) -/

/-- EXP_OUT of TXc's present entry in 0.01 dBm. -/
def State.expOutOf (s : State) (c : Nat) : Int := expOut (s.txc c).entry

/-- The governing set of a slot (R145). -/
def State.govSet (s : State) (n : Nat) : List Nat :=
  match (s.slot n).txDest with
  | some c => (s.cx.filter (fun e => decide (e.2.st ≠ .unassigned ∧ e.2.st ≠ .joined ∧ (e.2.tx = c ∨ e.2.rx = n / 8)))).map (fun e => e.1)
  | none => []

/-- AGE of an instance in ms (CX_AGE). -/
def State.cxAge (s : State) (i : Nat) : Nat := match (s.inst i).pubAt with | some t => s.msSince t | none => 0xFFFFFFFF

/-- Complemented words of CX held corrupt: the instance counts with VALID = 0 (R326); by the word addresses 0x000A_0000 + 0x400 x i + 0x14 to 0x1C. -/
def State.cxBad (s : State) (i : Nat) : Bool := s.flt.badCompl.any (fun a => decide (0xA0014 + 0x400 * i ≤ a ∧ a ≤ 0xA001C + 0x400 * i))

/-- VALID as the margin task and PROT use it. -/
def State.cxValid (s : State) (i : Nat) : Bool := (s.inst i).valid && !s.cxBad i

/-- The figure and margin of one governing instance (Table 5-1), whether it is cold. -/
def State.govFigure (s : State) (m : Nat) (i : Nat) : Option (Int × Nat × Bool) :=
  let x := s.inst i
  if s.noOverlap i then none
  else if s.cxValid i then
    some (x.ll + x.depth, if x.implaus ∨ 5000 < s.cxAge i then max m 2500 else m, false)
  else some ((x.isoMin : Int) - s.expOutOf x.tx - x.extRxg - 200, max m 2500, true)

/-- The lowest of the contributions F - m: value, instance, margin used, cold (R147). -/
def lowestFig : List (Nat × Int × Nat × Bool) → Option (Int × Nat × Nat × Bool)
  | [] => none
  | (i, f, m, c) :: r => match lowestFig r with
    | some (v, j, mm, cc) => if f - m ≤ v then some (f - m, i, m, c) else some (v, j, mm, cc)
    | none => some (f - m, i, m, c)

/-- A figure in 0.01 dB rounded down to a whole code and clamped (R147). -/
def toCode (x : Int) : Int := clampI (-1200) 1200 (x / 5)

/-- The lower of a value and an optional clamp. -/
def optMin (x : Int) (c : Option Int) : Int := match c with | some y => min x y | none => x

/-- Recompute a slot's caps (R19, R147, R148), and mark the cut of R137 when CAP falls below the accumulator. -/
def State.capSlot (s : State) (n : Nat) : State :=
  let x := s.slot n
  let g0 := s.gain n
  let gov := s.govSet n
  let figs := gov.filterMap (fun i => (s.govFigure g0.margin i).map (fun f => (i, f.1, f.2.1, f.2.2)))
  let low := lowestFig figs
  let part : Int := if x.stream then 6000 else if gov = [] then -6000 else match low with | some (v, _, _, _) => v | none => 6000
  let capl := clampI (-1200) 1200 (optMin (optMin (toCode part) g0.nrise) g0.marginQ)
  let cap := if g0.mcapValid then min capl g0.capm else capl
  s.updGain n (fun g => { g with
    capl := capl, cap := cap, nogov := !x.stream && decide (gov = []),
    govCx := match low with | some (_, i, _, _) => i | none => 0
    marginUse := match low with | some (_, _, m, _) => m | none => g.margin
    cold := match low with | some (_, _, _, c) => c | none => false
    stale := gov.any (fun i => (s.inst i).valid && decide (5000 < s.cxAge i))
    cutDue := g.cutDue || decide (x.st = .active ∧ cap * 100 < g.acc) })

/-- The margin task recomputes every affected cap (R148), here every held slot's; it runs with the loop library. -/
def State.capAll (s : State) : State := if s.le.libRunning then s.each s.heldSlots (fun n a => a.capSlot n) else s

/-! ## Completions of ramps (R139, R164) -/

/-- The condition of R139. -/
def State.gainReached (s : State) (n : Nat) : Bool :=
  let g := s.gain n
  if g.agcEn then decide (g.applied ≤ g.host) else decide (g.applied = min g.host g.cap)

/-- End the SLOT_GAIN_SETs of slot n with a status and the EFFECTIVE reached (R139, Table 9-8). -/
def State.endGainSets (s : State) (n : Nat) (st : Status) : State :=
  (s.pends (isGainSet n)).foldl (fun a p => a.complete p st (cword (half (s.gain n).applied)) (BitVec.ofNat 16 (bit (s.capped n)))) s

/-- Complete an outstanding SLOT_GAIN_SET whose condition holds. -/
def State.gainSetCheck (s : State) (n : Nat) : State := if s.gainReached n then s.endGainSets n .ok else s

/-- A GCL_SETPOINT with the SETPOINT group, of slot n. -/
def isSetpoint (n : Nat) (p : Pend) : Bool :=
  match p.desc with | .gclSetpoint sl f _ _ _ _ _ _ _ => decide (sl.toNat = n) && f.getLsbD 0 | _ => false

/-- Complete a set-point ramp that has arrived (R164). -/
def State.setpointCheck (s : State) (n : Nat) : State :=
  let g := s.gain n
  if g.spEff = g.spTarget ∧ g.spAcc = g.spTarget * 20 then
    (s.pends (isSetpoint n)).foldl (fun a p => a.complete p .ok (word (half g.spEff).toNat) 0) s
  else s

/-! ## SLOT_GAIN_SET (R132, R138-R141) -/

/-- The gain code of a gain word. -/
def gainCode (w : Word) : Int := (lowHalf w).toInt

/-- A gain word that passes R132. -/
def gainWordOk (w : Word) : Bool := cwordOk w && decide (-1200 ≤ gainCode w ∧ gainCode w ≤ 1200)

/-- The number of moves and the worst-case time of a ramp over d with allowance a (R140). -/
def State.rampWorst (s : State) (d a : Nat) (used : Bool) : Nat :=
  if d = 0 then 0
  else (if used then s.nextGrid gainTk - s.now else chainBlk) + (ceilDiv d (max a 1) - 1) * gainTk

/-- The worst-case time of a SLOT_GAIN_SET (R140). -/
def State.gainSetWorst (s : State) (n : Nat) (code : Int) : Nat :=
  let g := s.gain n
  if (s.slot n).st ≠ .active ∨ s.slotMuted n then 0
  else
    let dest := if g.agcEn then min (g.acc) (code * 100) else min code g.cap * 100
    let up := decide (g.acc < dest)
    s.rampWorst (dest - g.acc).natAbs (if up then g.slewUp else g.slewDn) g.used

/-- Checks of SLOT_GAIN_SET. -/
def chkSlotGainSet (sl : Byte) (w : Word) (s : State) : Checks :=
  { range := firstBad [(0xC, gainWordOk w)]
    state := if (s.slot sl.toNat).st = .free then refState else none
    worst := some (s.gainSetWorst sl.toNat (gainCode w)) }

/-- A SLOT_GAIN_SET takes effect at acceptance (R138, R139, R141). -/
def startSlotGainSet (p : Pend) (n : Nat) (code : Int) (s : State) : State :=
  let olds := (s.pends (isGainSet n)).filter (fun q => decide (q.id ≠ p.id))
  let s0 := olds.foldl (fun a q => (a.complete q .superseded 0 0).updGain n (fun g => { g with supCnt := satInc 0xFFFF g.supCnt })) s
  let s1 := s0.updGain n (fun g => { g with host := code, target := if g.agcEn then g.target else code })
  match (s.slot n).st with
  | .active => if s.slotMuted n then s1.complete p .winterActive 0 0 else s1.gainSetCheck n
  | _ => s1.complete p .ok (cword (half (s1.effShown n))) (BitVec.ofNat 16 (bit (s1.capped n)))

/-- An ABORT of a SLOT_GAIN_SET before its commit (R143): the ramp stops, HOST becomes the present EFFECTIVE. -/
def abortSlotGainSet (p : Pend) (n : Nat) (s : State) : State :=
  let e := s.effShown n
  let s1 := s.updGain n (fun g => { g with host := e, target := if g.agcEn then g.target else e })
  s1.complete p .aborted (cword (half e)) (BitVec.ofNat 16 (bit (s1.capped n)))

/-! ## GCL_SETPOINT (R162-R164) -/

/-- Checks of GCL_SETPOINT, KIND 0. -/
def chkGclSetpoint (sl f fl : Byte) (sp win : Half) (ls : Byte) (su sd m : Half) (s : State) : Checks :=
  let n := sl.toNat
  let g := s.gain n
  let agc := f.getLsbD 1
  let ref := if agc then fl.getLsbD 2 else g.spRef
  let x := sp.toInt
  { range := firstBad [
      (0xA, decide (1 ≤ f.toNat ∧ f.toNat ≤ 15)), (0xB, decide (fl.toNat < 16)),
      (0xC, !f.getLsbD 0 || (if ref then decide (-3000 ≤ x ∧ x ≤ 6000) else decide (-8000 ≤ x ∧ x ≤ 0))),
      (0xE, !agc || decide (1 ≤ win.toNat ∧ win.toNat ≤ 1000)), (0x10, !agc || decide (ls.toNat ≤ 15)),
      (0x12, !f.getLsbD 2 || decide (1 ≤ su.toNat ∧ su.toNat ≤ 5000)), (0x14, !f.getLsbD 2 || decide (1 ≤ sd.toNat ∧ sd.toNat ≤ 5000)),
      (0x16, !f.getLsbD 3 || decide (1000 ≤ m.toNat ∧ m.toNat ≤ 4000))]
    state :=
      if f.getLsbD 2 && decide (su.toNat < g.slewUp ∨ sd.toNat < g.slewDn) && !(s.pends (fun p => isGainSet n p || isSetpoint n p)).isEmpty then refState
      else if agc && fl.getLsbD 2 && decide ((s.slot n).st = .free ∨ (s.slot n).stream) then refState
      else none
    worst := some (if f.getLsbD 0 then
        let d := x * 20 - g.spAcc
        s.rampWorst d.natAbs (if 0 ≤ d then (if f.getLsbD 2 then su.toNat else g.slewUp) else (if f.getLsbD 2 then sd.toNat else g.slewDn)) g.spUsed
      else 0) }

/-- A GCL_SETPOINT takes effect (R163, R164). -/
def startGclSetpoint (p : Pend) (n : Nat) (f fl : Byte) (sp win : Half) (ls : Byte) (su sd m : Half) (s : State) : State :=
  let agc := f.getLsbD 1
  let en := fl.getLsbD 0
  let s1 := if agc ∧ en ≠ (s.gain n).agcEn then
      (s.pends (isGainSet n)).foldl (fun a q => (a.complete q .superseded 0 0).updGain n (fun g => { g with supCnt := satInc 0xFFFF g.supCnt })) s
    else s
  let s2 := s1.updGain n (fun g => { g with
    agcEn := if agc then en else g.agcEn, agcSrc := if agc then fl.getLsbD 1 else g.agcSrc, spRef := if agc then fl.getLsbD 2 else g.spRef
    interp := if agc then fl.getLsbD 3 else g.interp, win := if agc then win.toNat else g.win, lutset := if agc then ls.toNat else g.lutset
    target := if agc && !en then g.host else g.target
    slewUp := if f.getLsbD 2 then su.toNat else g.slewUp, slewDn := if f.getLsbD 2 then sd.toNat else g.slewDn
    margin := if f.getLsbD 3 then m.toNat else g.margin })
  let s3 := if f.getLsbD 3 then s2.capAll else s2
  if f.getLsbD 0 then
    let olds := (s3.pends (isSetpoint n)).filter (fun q => decide (q.id ≠ p.id))
    let s4 := olds.foldl (fun a q => (a.complete q .superseded (word (half (a.gain n).spEff).toNat) 0).updGain n (fun g => { g with supCnt := satInc 0xFFFF g.supCnt })) s3
    (s4.updGain n (fun g => { g with spTarget := sp.toInt })).setpointCheck n
  else s3.complete p .ok (word (half (s3.gain n).spEff).toNat) 0

/-- An ABORT of a set-point ramp (R143 with SP_EFF for EFFECTIVE, R164). -/
def abortSetpoint (p : Pend) (n : Nat) (s : State) : State :=
  let e := (s.gain n).spEff
  (s.updGain n (fun g => { g with spTarget := e, spAcc := e * 20 })).complete p .aborted (word (half e).toNat) 0

/-- Checks of GCL_SETPOINT, KIND 1. -/
def chkInstallationModel (cx : Byte) (mn mx rt : Half) (s : State) : Checks :=
  { range := firstBad [(9, decide (cx.toNat ≤ 63)), (0xC, decide (mn.toNat ≤ 20000)), (0xE, decide (mx.toNat ≤ 20000 ∧ mn.toNat ≤ mx.toNat)), (0x10, decide (1 ≤ rt.toNat))]
    state := if (s.inst cx.toNat).st = .joined then refState else none
    worst := some 0 }

/-- An installation model takes effect (R151, R162). RESULT is SP_EFF in [15:0], and no slot is named: a free value (Table 9-8; log 35). -/
def startInstallationModel (p : Pend) (i : Nat) (mn mx rt : Half) (s : State) : State :=
  let (v, s1) := s.free
  ((s1.updInst i (fun x => { x with isoMin := mn.toNat, isoMax := mx.toNat, rateMax := rt.toNat, good := 0 })).capAll).complete p .ok (v &&& 0xFFFF) 0

/-! ## Lookup tables (R158-R161) -/

/-- Entry j of bank b of a set. -/
def Lut.entry (l : Lut) (b : Bool) (j : Nat) : Int := (l.entries.get (lutDefault (64 * bit b + j)) (64 * bit b + j)).toInt

/-- The 64 signed entries in 32 words of host memory (R274). -/
def lutWords (ws : List Word) : List Int := ws.flatMap (fun w => [(lowHalf w).toInt, (highHalf w).toInt])

/-- The condition of R159 on entry i, in 0.001 dB: e_i = i/2 - 16 dB. -/
def lutEntryOk (i : Nat) (v : Int) : Bool :=
  let e : Int := 500 * i - 16000
  decide (0 ≤ v * e ∧ (v.natAbs : Int) ≤ max ((e.natAbs : Int) - 250) 0)

/-- A whole table passes R159. -/
def lutOk (vs : List Int) : Bool := decide (vs.length = 64) && (List.range 64).all (fun i => lutEntryOk i (vs.getD i 0))

/-- What a data read fails with (R268, R274): FETCH_ERROR with its code, BAD_DESCRIPTOR 0xFF on contents. -/
def dataRefuse (d : HostData) (ok : List Word → Bool) : Option Refuse :=
  match d with
  | .failed c => some { st := .fetchError, res := word c.val, res2 := 0 }
  | .words ws => if ok ws then none else refBad 0xFF

/-- The worst-case time shown when a class below B cannot succeed: the deadline of class B (log 25). -/
def classB : Nat := 2 * tms

/-- Checks of GCL_LUT_LOAD. -/
def chkGclLutLoad (st : Byte) (s : State) : Checks :=
  { range := firstBad [(8, decide (st.toNat ≤ 15))]
    state := if (s.pends (isLutSwap st.toNat)).isEmpty then none else refState
    worst := some classB }

/-- Put a list of entries into a bank. -/
def Lut.fill (l : Lut) (b : Bool) (vs : List Int) : Lut :=
  { l with entries := (List.range 64).foldl (fun t j => Tab.set t (lutDefault (64 * bit b + j)) (64 * bit b + j) (half (vs.getD j 0))) l.entries }

/-- A GCL_LUT_LOAD of a set. -/
def isLutLoad (i : Nat) (p : Pend) : Bool := match p.desc with | .gclLutLoad st _ _ _ => decide (st.toNat = i) | _ => false

/-- The load of a set ends: the inactive bank and its tag are written (R159). -/
def State.lutLoadEnd (s : State) (i : Nat) : State :=
  match (s.pends (isLutLoad i)).head? with
  | some p => match p.desc with
    | .gclLutLoad _ tag _ (.words ws) =>
      let b := !(s.lut i).activeB
      (((s.updLut i (fun l => if b then { l.fill b (lutWords ws) with tagB := tag } else { l.fill b (lutWords ws) with tagA := tag }))).memWritten
        (testBase 12 i (8 + bit b))).complete p .ok 0 0
    | _ => s
  | none => s

/-- A loop's period in ticks (R152). -/
def Gain.period (g : Gain) : Nat := ceilDiv (g.win * 10) 50 * gainTk

/-- Checks of GCL_BANK_SWAP (R161). -/
def chkGclBankSwap (st : Byte) (s : State) : Checks :=
  { range := firstBad [(8, decide (st.toNat ≤ 15))], state := none
    worst := some ((s.lutUsers st.toNat).foldl (fun a n => max a (s.gain n).period) 0) }

/-- A GCL_BANK_SWAP inverts ACTIVE at acceptance (R160, R161). -/
def startGclBankSwap (p : Pend) (i : Nat) (s : State) : State :=
  let olds := (s.pends (isLutSwap i)).filter (fun q => decide (q.id ≠ p.id))
  let s1 := olds.foldl (fun a q => a.complete q .superseded 0 0) s
  let s2 := s1.updLut i (fun l => { l with activeB := !l.activeB })
  let s3 := s2.each ((s2.lutUsers i).filter (fun n => s2.slotMuted n)) (fun n a => a.updGain n (fun g => { g with bankB := (a.lut i).activeB }))
  s3.lutSwapCheck i

/-! ## The gain tick (R133-R137, R152-R157, R179) -/

/-- PROT's bound Q of a slot (R179): none where it forms none. -/
def State.marginBound (s : State) (n : Nat) : Option Int :=
  let x := s.slot n
  if x.st ≠ .active ∨ x.txDest = none then none
  else
    let gov := s.govSet n
    let live := gov.filter (fun i => !s.noOverlap i)
    if gov = [] then some (-1200)
    else if live = [] then none
    else
      let q (i : Nat) : Int := let y := s.inst i
        if s.cxValid i then y.ll + min y.dmeas 4000 - 1000 else (y.isoMin : Int) - s.expOutOf y.tx - y.extRxg - 200 - 1000
      some (toCode (live.foldl (fun a i => min a (q i)) 100000))

/-- MARGIN at a gain tick (R179). -/
def State.marginTick (s : State) (n : Nat) : State :=
  let q := s.marginBound n
  let s1 := (s.updGain n (fun g => { g with marginQ := q })).capSlot n
  match q with
  | some b =>
    if b < (s1.gain n).applied then (s1.updGain n (fun g => { g with cutDue := true })).raise 13 4 (.slot n) else s1
  | none => s1

/-- The error of a loop in 0.01 dB (R153, R154). -/
def State.agcPower (s : State) (n : Nat) (m : LoopMeas) : Int :=
  m.power + (if (s.gain n).spRef then (match (s.slot n).txDest with | some c => s.expOutOf c | none => 0) else 0)

/-- A set with the entries of its poisoned words at step 0 (Table 11-5): four entries to a word. -/
def State.lutUse (s : State) (i : Nat) : Lut :=
  let bad := s.flt.poisoned.filterMap (fun a =>
    if a / 2 ^ 16 = testBase 12 i 8 / 2 ^ 16 then some (a % 2 ^ 16) else if a / 2 ^ 16 = testBase 12 i 9 / 2 ^ 16 then some (16 + a % 2 ^ 16) else none)
  bad.foldl (fun l w => { l with entries := (List.range 4).foldl (fun t j => Tab.set t (lutDefault (4 * w + j)) (4 * w + j) 0) l.entries }) (s.lut i)

/-- The step of the loop's bank for an error, in 0.001 dB (R154). -/
def lutStep (l : Lut) (b interp : Bool) (err : Int) : Int :=
  let x := err + 1600
  if interp then
    if x ≤ 0 then l.entry b 0
    else if 63 * 50 ≤ x then l.entry b 63
    else
      let i := (x / 50).toNat
      divNearest 1 (l.entry b i * 50 + (x % 50) * (l.entry b (i + 1) - l.entry b i)) 50
  else l.entry b (clampI 0 63 ((x + 25) / 50)).toNat

/-- The loop's request in accumulator units before its clamp (R155), or the open-engine task's (R157). -/
def Gain.rawRequest (g : Gain) (l : Lut) (err : Int) : Option Int :=
  if g.agcSrc then g.request.map (fun r => r * 100) else some (g.acc + 2 * lutStep l g.bankB g.interp err)

/-- The loop at one of its sample boundaries with its measurement (R153-R157). -/
def State.agcStep (s : State) (n : Nat) (m : LoopMeas) : State :=
  if m.void then s
  else
    let g := s.gain n
    let p := s.agcPower n m
    let err := g.spEff - p
    let s0 := s.updGain n (fun g => { g with pmeas := some p, pmeasSeq := g.pmeasSeq + 1 })
    match g.rawRequest (s.lutUse g.lutset) err with
    | none => s0
    | some r =>
      let req := clampI (-120000) (g.host * 100) r
      let lim := decide (g.host * 100 < r ∨ g.cap * 100 < req) || (s.protHold n && decide (g.acc < req))
      let bad := lim && decide (300 < err.natAbs)
      let since := if bad then (match g.limitSince with | some t => some t | none => some s.now) else none
      let hit := match since with | some t => decide (tsec ≤ s.now - t) | none => false
      let s1 := s0.updGain n (fun g => { g with target := min g.host (divNearest 2 req 100), request := none, limitSince := since, agcLimit := hit })
      if hit && !g.agcLimit then s1.raise 12 5 (.slot n) else s1

/-- One ramp move of a slot, if the interval's allowance is unused (R134, R136). -/
def State.gainMove (s : State) (n : Nat) : State :=
  let g := s.gain n
  if g.used then s
  else
    let lim := min g.target g.cap * 100
    let a := if g.acc < lim then (if s.protHold n then g.acc else min lim (g.acc + g.slewUp)) else if lim < g.acc then max lim (g.acc - g.slewDn) else g.acc
    s.updGain n (fun g => { g.setAcc a with
      used := decide (a ≠ g.acc), fastNow := g.fastNow || decide (100 < (a - g.acc).natAbs)
      ramp := if g.acc < a then 1 else if a < g.acc then 2 else 0 })

/-- One move of a set-point ramp (R164). -/
def State.spMove (s : State) (n : Nat) : State :=
  let g := s.gain n
  if g.spUsed then s
  else
    let t := g.spTarget * 20
    let a := if g.spAcc < t then min t (g.spAcc + g.slewUp) else if t < g.spAcc then max t (g.spAcc - g.slewDn) else g.spAcc
    (s.updGain n (fun g => { g.setSp a with spUsed := decide (a ≠ g.spAcc) })).setpointCheck n

/-- The tick interval that ends leaves its mark on R111 and a new one begins (R134). -/
def Gain.newInterval (g : Gain) : Gain :=
  { g with quietLeft := if g.fastNow then 4 else g.quietLeft - 1, fastNow := false, used := false, spUsed := false }

/-- Whether the present tick is a sample boundary of a slot's loop (R152). -/
def State.loopBoundary (s : State) (n : Nat) : Bool := (s.gain n).agcEn && s.onGrid (s.gain n).period

/-- One slot at a gain tick (R136, R160). -/
def State.tickSlot (s : State) (meas : List LoopMeas) (n : Nat) : State :=
  let s1 := s.updGain n Gain.newInterval
  let s2 := if (s.slot n).st = .active then s1.marginTick n else s1
  let b := s2.loopBoundary n
  let s3 := if b then (s2.updGain n (fun g => { g with bankB := (s2.lut g.lutset).activeB })) else s2
  let s3' := if b then (s3.pends (isLutSwap (s3.gain n).lutset)).foldl (fun a p => a.updPend p.id (fun q => { q with committed := true })) s3 else s3
  let s3'' := if b then s3'.lutSwapCheck (s3'.gain n).lutset else s3'
  let s4 := if (s3''.slot n).st = .active ∧ !s3''.slotMuted n then
      let s5 := if b then (match meas.find? (fun m => decide (m.slot.val = n)) with | some m => s3''.agcStep n m | none => s3'') else s3''
      (s5.gainMove n).gainSetCheck n
    else s3''
  s4.spMove n

/-- The slots whose gain stage a tick visits: held slots, and slots with gain state of their own. -/
def State.gainSlots (s : State) : List Nat := (s.gcl.map (fun e => e.1)) ++ (s.heldSlots.filter (fun n => !(s.gcl.map (fun e => e.1)).contains n))

/-- At a chain-grid boundary between ticks, a request accepted in this interval uses the interval's unused move (R134). -/
def State.earlyMove (s : State) (n : Nat) : State :=
  let s1 := if (s.slot n).st = .active ∧ !s.slotMuted n ∧ !(s.pends (fun p => isGainSet n p && decide (p.acc < s.now))).isEmpty then (s.gainMove n).gainSetCheck n else s
  if (s1.pends (fun p => isSetpoint n p && decide (p.acc < s1.now))).isEmpty then s1 else s1.spMove n

/-- GAIN_TICK: the tick at a multiple of 50,000 ns, and the early moves at any other chain-grid boundary (log 26). -/
def State.gainTick (s : State) (meas : List LoopMeas) : State :=
  if s.onGrid gainTk then s.each s.gainSlots (fun n a => a.tickSlot meas n)
  else if s.onSmp chainBlk then s.each s.gainSlots (fun n a => a.earlyMove n)
  else s

/-- The cap cut at the chain-grid boundary after the cap was written (R137). -/
def State.capCut (s : State) (n : Nat) : State :=
  let g := s.gain n
  if g.cutDue ∧ s.onSmp chainBlk then
    if g.cap * 100 < g.acc then
      (s.updGain n (fun g => { g.setAcc (g.cap * 100) with cutDue := false, fastNow := true, cutCnt := satInc 0xFFFF g.cutCnt })).gainSetCheck n
    else s.updGain n (fun g => { g with cutDue := false })
  else s

/-- A slot enters ACTIVE: its start level (R144). -/
def State.gainStart (s : State) (n : Nat) : State :=
  s.updGain n (fun g =>
    let t := if g.agcEn then g.host else g.target
    { g with target := t, acc := max (-120000) ((min t g.cap - 400) * 100), applied := max (-1200) (min t g.cap - 400), used := false, quietLeft := g.quietLeft })

/-- A slot leaves the last WINTER that contained it: its restart level (R199). -/
def State.gainRestart (s : State) (n : Nat) (osc : Bool) : State :=
  s.updGain n (fun g => let d := if osc then 600 else 400
    { g with acc := max (-120000) ((min g.target g.cap - d) * 100), applied := max (-1200) (min g.target g.cap - d) })

/-- An instance's AGE passes 5,000 ms (R148, Table 5-4). -/
def State.capStale (s : State) (i : Nat) : State :=
  let x := s.inst i
  if x.valid ∧ 5000 < s.cxAge i ∧ !x.staleSeen then ((s.updInst i (fun x => { x with staleSeen := true })).raise 12 4 (.rx x.rx)).capAll else s

end Sys2Proof.Machine
end

