-- ==== Sys2Proof/Machine/Auth.lean ====
section
/-! DEFINITION. The band authorisation table and the checks of it (R186-R189), for slots (R187) and for received streams (R379), with the groups of R181. -/

namespace Sys2Proof.Machine

/-- Word w of entry e (PA_ENTRY). -/
def State.authWord (s : State) (e w : Nat) : Word := s.prot.auth.get (cword 0) (5 * e + w)

/-- The edges of an entry in kHz: F_LO, F_HI. -/
def authEdges (w : Nat → Word) : Nat × Nat :=
  ((lowHalf (w 1)).toNat * 65536 + (lowHalf (w 2)).toNat, (lowHalf (w 3)).toNat * 65536 + (lowHalf (w 4)).toNat)

/-- An entry reads valid: every word passes its check and VALID is 1 (R186, R189, R326). -/
def State.authValid (s : State) (e : Nat) : Bool :=
  (List.range 5).all (fun w => cwordOk (s.authWord e w)) && (s.authWord e 0).getLsbD 15

/-- The lowest entry of a direction that covers lo to hi, in Hz (R181, R187). -/
def State.authCover (s : State) (up : Bool) (lo hi : Int) : Option Nat :=
  (List.range 64).find? (fun e =>
    s.authValid e && decide ((s.authWord e 0).getLsbD 14 = up) &&
      decide ((((authEdges (s.authWord e)).1 * 1000 : Nat) : Int) ≤ lo ∧ hi ≤ (((authEdges (s.authWord e)).2 * 1000 : Nat) : Int)))

/-- GROUP of an entry. -/
def State.authGroup (s : State) (e : Nat) : Nat := bitsOf (s.authWord e 0) 8 6

/-- The entry that authorises a passband on TXc: centre f and width bw of 10 kHz, relative to f_W (R187). -/
def State.authPass (s : State) (c : Nat) (f : Int) (bw : Nat) : Option Nat :=
  let x := s.chain (32 + c)
  let mid : Int := (x.fw : Int) * 10 + f
  s.authCover (roleUp x.role) (mid - bw * 5000) (mid + bw * 5000)

/-- The received streams placed on TXc (R16, R379). -/
def State.placements (s : State) (c : Nat) : List Nat :=
  (s.jl.strs.filter (fun e => decide ((e.1 / 12) % 2 = 1 ∧ e.2.st ≠ .closed ∧ e.2.txch = c))).map (fun e => e.1)

/-- One slot meets the check of R187: its GROUP is taken afresh, and UNAUTH entered or cleared. -/
def State.authSlot (s : State) (n : Nat) : State :=
  match (s.slot n).txDest with
  | none => s.clearCause n 6
  | some c =>
    match s.authPass c (s.slot n).txfreq (s.slot n).bw with
    | some e => (s.updSlot n (fun x => { x with group := some (s.authGroup e) })).clearCause n 6
    | none =>
      let s1 := s.updSlot n (fun x => { x with group := none })
      if (s.wobj n).cause.getLsbD 6 && !(s.wobj n).cleared.getLsbD 6 then s1
      else (s1.raise 13 10 (.slot n)).winterSet n 6 0

/-- One placement meets the check: its gate closes and STREAM_UNAUTH is raised, or it reopens (R379). -/
def State.authStream (s : State) (k : Nat) : State :=
  let x := s.strm k
  match s.authPass x.txch x.txfreq x.bw with
  | some _ => s.updStrm k (fun x => { x with gated := false })
  | none => if x.gated then s else (s.updStrm k (fun x => { x with gated := true })).raise 15 7 (.tx x.txch)

/-- The check of every slot and stream of TXc, at the commit of a tuning change (R187). -/
def State.authChain (s : State) (c : Nat) : State :=
  let s1 := s.each (s.txSlots c) (fun n a => a.authSlot n)
  s1.each (s1.placements c) (fun k a => a.authStream k)

/-- AUTH_CHECK: the periodic check, or the one that follows a change of the table, of a held slot and of the placements (R187, R379). -/
def State.authCheck (s : State) (n : Nat) : State :=
  let s1 := if (s.slot n).st = .free then s else s.authSlot n
  s1.each ((List.range 32).flatMap s1.placements) (fun k a => a.authStream k)

/-- Checks of AUTHORISATION_WRITE (R188); a failed combination is reported at its later operand (log 29). -/
def chkAuthWrite (e : Byte) (w0 w1 w2 w3 w4 : Word) : Checks :=
  let ws := [w0, w1, w2, w3, w4]
  let ed := authEdges (fun i => ws.getD i 0)
  let inB (f : Nat) : Bool := decide (400000 ≤ f ∧ f ≤ 7125000)
  { range := firstBad [(9, decide (e.toNat < 64)), (0xC, cwordOk w0), (0x10, cwordOk w1), (0x14, cwordOk w2 && (!cwordOk w1 || inB ed.1)), (0x18, cwordOk w3),
      (0x1C, cwordOk w4 && inB ed.2 && decide (ed.1 < ed.2))]
    state := none, worst := some (200 * tus) }

/-- An AUTHORISATION_WRITE takes effect at acceptance (R188); its descriptor waits for the store. -/
def startAuthWrite (e : Nat) (w0 w1 w2 w3 w4 : Word) (s : State) : State :=
  let put (t : Tab Word) (i : Nat) (w : Word) : Tab Word := t.set (cword 0) (5 * e + i) w
  { s with prot := { s.prot with auth := put (put (put (put (put s.prot.auth 0 w0) 1 w1) 2 w2) 3 w3) 4 w4, wrCnt := satInc 0xFFFF s.prot.wrCnt } }

/-- An AUTHORISATION_WRITE of an entry. -/
def isAuthWrite (e : Nat) (p : Pend) : Bool := match p.desc with | .authorisationWrite x _ _ _ _ _ => decide (x.toNat = e) | _ => false

/-- AUTH_STORE_END: the store write of an entry ends and its descriptor completes (R188). -/
def State.authStoreEnd (s : State) (e : Nat) : State :=
  match (s.pends (isAuthWrite e)).head? with
  | some p => match p.desc with
    | .authorisationWrite _ w0 w1 w2 w3 w4 =>
      let put (t : Tab Word) (i : Nat) (w : Word) : Tab Word := t.set (cword 0) (5 * e + i) w
      let t := put (put (put (put (put s.recd.store.auth 0 w0) 1 w1) 2 w2) 3 w3) 4 w4
      ({ s with recd := { s.recd with store := { s.recd.store with auth := t } } }).complete p .ok 0 0
    | _ => s
  | none => s

end Sys2Proof.Machine
end

