-- ==== Sys2Proof/Machine/Slots.lean ====
section
/-! DEFINITION. Band slots (chapter 2): definition, limits and latency (R31-R43), states (R35-R38), coefficient banks and EQUINOX swaps (R46-R53), saturation and DC-blocking events (R25, R29, R45). -/

namespace Sys2Proof.Machine

/-! ## Figures of a slot -/

/-- The automatic rate index of a bandwidth (R32): the smallest of 0-8 at which the rate is at least 1.2 B. -/
def autoRate (bw : Nat) : Nat :=
  match (List.range 9).find? (fun k => decide (12 * bw ≤ 1920 * 2 ^ k)) with
  | some k => k
  | none => 8

/-- K_p in tenths (R33). -/
def presetK (p : Nat) : Nat := match p with | 0 => 91 | 1 => 227 | 2 => 545 | _ => 1270

/-- C in tenths of a µs·MHz (Table 2-5). -/
def presetC (p : Nat) : Nat := match p with | 0 => 165 | 1 => 330 | 2 => 660 | _ => 1320

/-- NTAPS (R33). -/
def ntapsOf (p k bw : Nat) : Nat :=
  let m := ceilDiv (presetK p * (1920 * 2 ^ k)) (100 * bw)
  max 15 (if m % 2 = 0 then m + 1 else m)

/-- Ticks in a sample of the slot's rate. -/
def slotSmp (k : Nat) : Nat := slotBlk k / 64

/-- SLOT_LAT in ps (R40, R41). -/
def State.slotLat (s : State) (n : Nat) : Nat :=
  let x := s.slot n
  if x.st = .free then 0
  else
    let chain := match x.txDest with | some c => (s.txc c).pdly.toNat | none => 0
    125 * (2080 + (divNearest 3 ((80000 * presetC x.preset : Nat) : Int) x.bw).toNat + x.pdly.toNat + chain)

/-- The settling time has passed: at least 2 C / B since settling began (R38). -/
def Slot.settledBy (x : Slot) (now : Nat) : Bool := decide (20 * presetC x.preset * tus ≤ (now - x.settleAt) * x.bw)

/-- Blocks of a bank (R274). -/
def blocksOf (ntaps : Nat) : Nat := ceilDiv ((ntaps + 1) / 2) 16

/-! ## Limits (R34) -/

/-- Held bandwidth of RXr without slot n, in 10 kHz. -/
def State.rxOcc (s : State) (r n : Nat) : Nat := ((s.rxSlots r).filter (fun m => decide (m ≠ n))).foldl (fun a m => a + (s.slot m).bw) 0

/-- The passbands routed to TXc without slot n and stream k: centre and bandwidth (R34). -/
def State.txBands (s : State) (c n k : Nat) : List (Int × Nat) :=
  (((s.txSlots c).filter (fun m => decide (m ≠ n))).map (fun m => ((s.slot m).txfreq, (s.slot m).bw))) ++
  (((s.placements c).filter (fun m => decide (m ≠ k))).map (fun m => ((s.strm m).txfreq, (s.strm m).bw)))

/-- A passband fits on a transmit chain beside others (R34). -/
def bandFits (l : List (Int × Nat)) (f : Int) (bw : Nat) : Bool :=
  decide (l.foldl (fun a e => a + e.2) 0 + bw ≤ 60000) && decide (l.length < 64) &&
  l.all (fun e => decide ((e.2 + bw) * 5000 ≤ (e.1 - f).natAbs))

/-- A send stream is open at a rate (R34). -/
def State.sendOpen (s : State) (dest : Half) (k : Nat) : Bool :=
  let x := s.strm (24 * bitsOf dest 8 2 + bitsOf dest 0 5)
  decide ((x.st = .active ∨ x.st = .unmatched) ∧ x.rate = k ∧ x.closing = none)

/-! ## SLOT_CONFIG -/

/-- The rate index that a SLOT_CONFIG gives. -/
def rateIdx (rate : Byte) (bw : Half) : Nat := if rate = 0 then autoRate bw.toNat else rate.toNat - 1

/-- A passband lies in the chain window (Table 2-2). -/
def inWindow (f : Int) (bw : Nat) : Bool := decide (f.natAbs * 2 + bw * 10000 ≤ 600000000)

/-- The operand checks of Table 2-2 and R33; with BW = 0 SLOT alone counts (R31). -/
def slotConfigRange (preset rate kind : Byte) (dest bw : Half) (rxf txf : Word) : Option Nat :=
  if bw = 0 then none
  else firstBad [
    (9, decide (preset.toNat ≤ 3)), (0xA, decide (rate.toNat ≤ 9)), (0xB, decide (kind.toNat ≤ 1)),
    (0xC, if kind = 0 then decide (dest.toNat < 32) else decide (dest.toNat < 1024 ∧ bitsOf dest 5 3 = 0 ∧ bitsOf dest 0 5 < 12)),
    (0xE, decide (140 ≤ bw.toNat ∧ bw.toNat ≤ 40000)), (0x10, inWindow rxf.toInt bw.toNat), (0x14, decide (kind = 1) || inWindow txf.toInt bw.toNat),
    (0xA, decide (autoRate bw.toNat ≤ rateIdx rate bw)), (0xA, decide (ntapsOf preset.toNat (rateIdx rate bw) bw.toNat ≤ 319))]

/-- Checks of SLOT_CONFIG (R34, R35, R187). -/
def chkSlotConfig (sl preset rate kind : Byte) (dest bw : Half) (rxf txf : Word) (s : State) : Checks :=
  let n := sl.toNat
  let c := dest.toNat % 32
  { range := slotConfigRange preset rate kind dest bw rxf txf
    state :=
      if (s.slot n).st ≠ .free ∧ (s.slot n).st ≠ .configured then refState
      else if bw = 0 then none
      else if 60000 < s.rxOcc (n / 8) n + bw.toNat then refState
      else if kind = 1 then (if s.sendOpen dest (rateIdx rate bw) then none else refState)
      else if bandFits (s.txBands c n 96) txf.toInt bw.toNat && (s.authPass c txf.toInt bw.toNat).isSome then none
      else refState
    worst := some classB }

/-- Every descriptor of a CONFIGURED slot that has not completed ends SUPERSEDED (R35). -/
def State.slotSupersede (s : State) (n : Nat) : State :=
  let isIt (p : Pend) : Bool := isCoefLoad n p || isBankSwap n p || (match p.desc with | .slotEnable sl => decide (sl.toNat = n) | _ => false)
  (s.pends isIt).foldl (fun a p =>
    let b := a.complete p .superseded 0 0
    if isBankSwap n p then b.updSlot n (fun x => { x with supCnt := satInc 0xFFFF x.supCnt }) else b) s

/-- A SLOT_CONFIG takes effect (R35, R41, R181, R390). -/
def startSlotConfig (p : Pend) (n : Nat) (preset rate kind : Byte) (dest bw : Half) (rxf txf : Word) (pdly : Half) (s : State) : State :=
  let old := s.slot n
  let s1 := if old.st = .configured then s.slotSupersede n else s
  let cur := s1.slot n
  let keep : Slot := { Slot.reset with satCnt := cur.satCnt, supCnt := cur.supCnt, shortCnt := cur.shortCnt }
  if bw = 0 then
    ((s1.updSlot n (fun _ => keep)).capAll).complete p .ok 0 0
  else
    let k := rateIdx rate bw
    let nt := ntapsOf preset.toNat k bw.toNat
    let bank := Config.presetBank preset.toNat nt
    let x : Slot := { keep with
      st := .configured, preset := preset.toNat, rate := k, bw := bw.toNat, rxfreq := rxf.toInt, txfreq := txf.toInt, stream := decide (kind = 1),
      dest := dest, pdly := pdly, ntaps := nt, bankA := bank, bankB := bank }
    let s2 := s1.updSlot n (fun _ => x)
    let s3 := if kind = 1 then s2 else
      s2.updSlot n (fun x => { x with group := (s2.authPass (dest.toNat % 32) txf.toInt bw.toNat).map s2.authGroup })
    let held := decide (kind = 1) && decide (s3.agrp (n / 8) ≠ 0)
    let s4 := s3.updGain n (fun g => { g with mcapValid := held, capm := -1200 })
    ({ s4.capAll with jl := { s4.capAll.jl with dirty := true } }).complete p .ok (word (k * 2 ^ 12 + nt)) 0

/-! ## SLOT_ENABLE and SLOT_DISABLE -/

/-- A SLOT_ENABLE of slot n. -/
def isSlotEnable (n : Nat) (p : Pend) : Bool := match p.desc with | .slotEnable sl => decide (sl.toNat = n) | _ => false
/-- A SLOT_DISABLE of slot n. -/
def isSlotDisable (n : Nat) (p : Pend) : Bool := match p.desc with | .slotDisable sl => decide (sl.toNat = n) | _ => false

/-- Checks of SLOT_ENABLE. -/
def chkSlotEnable (sl : Byte) (s : State) : Checks :=
  { range := none
    state := if (s.slot sl.toNat).st = .free then refState else none
    worst := some (if (s.slot sl.toNat).st = .configured then s.nextSmp chainBlk - s.now else 0) }

/-- A SLOT_ENABLE waits for its boundary, or has no effect (Table 2-4). -/
def startSlotEnable (p : Pend) (n : Nat) (s : State) : State := if (s.slot n).st = .configured then s else s.complete p .ok 0 0

/-- Checks of SLOT_DISABLE. -/
def chkSlotDisable (sl : Byte) (s : State) : Checks :=
  { range := none, state := none
    worst := some (match (s.slot sl.toNat).st with | .free => 0 | .configured => 0 | _ => s.nextSmp chainBlk - s.now + chainBlk) }

/-- A SLOT_DISABLE waits for its boundary, or has no effect (Table 2-4). -/
def startSlotDisable (p : Pend) (n : Nat) (s : State) : State :=
  match (s.slot n).st with
  | .free => s.complete p .ok 0 0
  | .configured => s.complete p .ok 0 0
  | _ => s

/-- SLOT_ENABLE_BOUNDARY: at the first chain-grid boundary after acceptance the slot enters SETTLING or HELD (R36, Table 2-4). -/
def State.slotEnableBoundary (s : State) (n : Nat) : State :=
  let due := s.pends (fun p => isSlotEnable n p && decide (p.acc < s.now))
  if (s.slot n).st = .configured ∧ s.onSmp chainBlk ∧ !due.isEmpty then
    let on := decide ((s.chain (n / 8)).st = .rxOn)
    due.foldl (fun a p => a.complete p .ok 0 0) (s.updSlot n (fun x => { x with st := if on then .settling else .held, settleAt := s.now }))
  else s

/-- SLOT_SETTLED: SETTLING ends at a slot-grid boundary and the gain starts (R38, R144). -/
def State.slotSettled (s : State) (n : Nat) : State :=
  let x := s.slot n
  if x.st = .settling ∧ s.onSmp (slotBlk x.rate) ∧ x.settledBy s.now then ((s.updSlot n (fun x => { x with st := .active })).capAll).gainStart n else s

/-- SLOT_DISABLE_BOUNDARY: the ramp-down begins and its descriptor commits (R37). -/
def State.slotDisableBoundary (s : State) (n : Nat) : State :=
  let x := s.slot n
  match x.ramp, (s.pends (fun p => isSlotDisable n p && decide (p.acc < s.now))).head? with
  | none, some p =>
    if s.onSmp chainBlk && decide (x.st = .settling ∨ x.st = .active ∨ x.st = .held) then
      (s.updSlot n (fun x => { x with ramp := some (s.now, p.id) })).updPend p.id (fun q => { q with committed := true })
    else s
  | _, _ => s

/-- SLOT_DISABLE_END: 64 chain-rate samples later the slot is CONFIGURED; a fade ends with k = L (R37, Table 2-4). -/
def State.slotDisableEnd (s : State) (n : Nat) : State :=
  match (s.slot n).ramp with
  | some (t, _) =>
    if t + chainBlk ≤ s.now then
      let s1 := (s.fadeFinish n).updSlot n (fun x => { x with st := .configured, ramp := none })
      s1.completeAll (isSlotDisable n) .ok
    else s
  | none => s

/-- The slots of RXr when it leaves RX_ON: SETTLING and ACTIVE become HELD (Table 2-4). -/
def State.rxLeft (s : State) (r : Nat) : State :=
  s.each (s.rxSlots r) (fun n a => match (a.slot n).st with
    | .settling => a.updSlot n (fun x => { x with st := .held })
    | .active => a.updSlot n (fun x => { x with st := .held })
    | _ => a)

/-- The slots of RXr when it enters RX_ON: HELD becomes SETTLING again (Table 2-4). -/
def State.rxEntered (s : State) (r : Nat) : State :=
  s.each (s.rxSlots r) (fun n a => if (a.slot n).st = .held then a.updSlot n (fun x => { x with st := .settling, settleAt := a.now }) else a)

/-! ## Banks (R46-R52) -/

/-- Exponent and mantissa of a coefficient word (R274). -/
def coefE (w : Word) : Nat := bitsOf w 26 6
/-- The 20-bit mantissa. -/
def coefM (w : Word) : Int := (w.extractLsb' 0 20).toInt

/-- The word format of R274: reserved bits 0, one exponent per block, zero padding after the centre tap. -/
def bankWordsOk (ntaps : Nat) (ws : List Word) : Bool :=
  decide (ws.length = 16 * blocksOf ntaps) && ws.all (fun w => decide (bitsOf w 20 6 = 0)) &&
  (List.range ws.length).all (fun i => decide (coefE (ws.getD i 0) = coefE (ws.getD (16 * (i / 16)) 0))) &&
  (ws.drop ((ntaps + 1) / 2)).all (fun w => decide (coefM w = 0))

/-- A bank passes R46 and R274: its words, and its response at the centre and across each stopband (log 21). -/
def bankOk (x : Slot) (ws : List Word) : Bool := bankWordsOk x.ntaps ws && Config.bankResponseOk x.preset x.rate x.bw ws

/-- The load time that admission counts (R46). -/
def loadTime (ntaps : Nat) : Nat := (40 + blocksOf ntaps) * tus

/-- Samples of a fade by XFADE (R47). -/
def xfadeLen (x : Nat) : Nat := if x = 0 then 0 else 64 * 2 ^ x

/-- The on-time a fade still needs, in ticks. -/
def Fade.left (f : Fade) (k now : Nat) : Nat :=
  let at_ := match f.paused with | some t => t | none => now
  f.len * slotSmp k - (at_ - f.start - f.lost)

/-- The length of an outstanding swap that has not begun, in ticks of on-time: 0 where it runs hard (Table 2-4, R200). -/
def State.swapLen (s : State) (n : Nat) (p : Pend) : Nat :=
  match p.desc with
  | .slotBankSwap _ xf => if (s.slot n).st = .configured ∨ s.slotMuted n then 0 else xfadeLen xf.toNat * slotSmp (s.slot n).rate
  | _ => 0

/-- The end of the loads of a slot being written ahead of a descriptor, at worst. -/
def State.loadsEnd (s : State) (n : Nat) : Nat :=
  (s.pends (fun p => isCoefLoad n p && decide (p.aux = 1))).foldl (fun a p => max a (p.start + loadTime (s.slot n).ntaps)) s.now

/-- The time until the fade in progress and some swaps still to begin have ended, with off-periods (R51, R443); none: without end. -/
def State.swapsEnd (s : State) (n : Nat) (ahead : List Pend) (own : Nat) : Option Nat :=
  let x := s.slot n
  let w := ahead.foldl (fun a p => a + s.swapLen n p) own
  match x.fade with
  | some f => s.withOff (n / 8) (f.left x.rate s.now + w)
  | none =>
    let t := s.smpAtOrAfter (slotBlk x.rate) (max (s.now + 1) (s.loadsEnd n))
    (({ s with now := t }).withOff (n / 8) w).map (fun d => t - s.now + d)

/-- The swaps of a slot that have not begun. -/
def State.waitingSwaps (s : State) (n : Nat) : List Pend := s.pends (fun p => isBankSwap n p && !p.committed)

/-- Checks of SLOT_COEF_LOAD (R46, R51, R274); the host data are judged at acceptance (log 30). Classes below B cannot succeed. -/
def chkSlotCoefLoad (sl : Byte) (nblk : Half) (addr : Word64) (s : State) : Checks :=
  let x := s.slot sl.toNat
  { range := firstBad [(0x10, decide (addr.toNat % 64 = 0))]
    state := if x.st = .free then refState else if nblk.toNat ≠ blocksOf x.ntaps then refBad 0xC else none
    worst := if x.fade = none ∧ (s.waitingSwaps sl.toNat).isEmpty then some (loadTime x.ntaps)
             else (s.swapsEnd sl.toNat (s.waitingSwaps sl.toNat) 0).map (fun t => t + loadTime x.ntaps) }

/-- A load begins at once, or is held (R49). -/
def startSlotCoefLoad (n : Nat) (s : State) : State := s.loadsStart n

/-- SLOT_COEF_WRITTEN: the oldest load that has begun ends in the inactive bank (R46). -/
def State.slotCoefWritten (s : State) (n : Nat) : State :=
  match (s.pends (fun p => isCoefLoad n p && decide (p.aux = 1))).head? with
  | some p => match p.desc with
    | .slotCoefLoad _ tag _ _ (.words ws) =>
      ((s.updSlot n (fun x => if x.activeB then { x with bankA := ws, tagA := tag } else { x with bankB := ws, tagB := tag })).memWritten
        (testBase 10 n (if (s.slot n).activeB then 0 else 1))).complete p .ok 0 0
    | _ => s
  | none => s

/-- A swap accepted now is queued (R50): a fade is in progress, a swap awaits its boundary, or a load accepted before is still to be written. -/
def State.swapQueues (s : State) (n : Nat) : Bool :=
  decide ((s.slot n).fade ≠ none) || !(s.waitingSwaps n).isEmpty || !(s.pends (isCoefLoad n)).isEmpty

/-- Checks of SLOT_BANK_SWAP (R47, R51): a queued swap ahead would be replaced and does not count. -/
def chkSlotBankSwap (sl xf : Byte) (s : State) : Checks :=
  let n := sl.toNat
  let x := s.slot n
  let own := if x.st = .configured ∨ s.slotMuted n then 0 else xfadeLen xf.toNat * slotSmp x.rate
  { range := firstBad [(9, decide (xf.toNat < 7))]
    state := if x.st = .free then refState else none
    worst := s.swapsEnd n ((s.waitingSwaps n).filter (fun p => decide (p.aux = 0))) own }

/-- A SLOT_BANK_SWAP waits for its boundary, or replaces the queued one (R50); `aux` 1 marks a queued swap. -/
def startSlotBankSwap (p : Pend) (n : Nat) (s : State) : State :=
  let others := { s with hif := { s.hif with outstanding := s.hif.outstanding.filter (fun q => decide (q.id ≠ p.id)) } }
  if others.swapQueues n then
    let s1 := ((s.waitingSwaps n).filter (fun q => decide (q.aux = 1 ∧ q.id ≠ p.id))).foldl
      (fun a q => ((a.complete q .superseded 0 0).updSlot n (fun x => { x with supCnt := satInc 0xFFFF x.supCnt })).loadsStart n) s
    s1.updPend p.id (fun q => { q with aux := 1 })
  else s

/-- SLOT_SWAP_BEGIN: at a slot-grid boundary the next swap commits; its cross-fade or its hard swap begins (R47, R50, R200). -/
def State.slotSwapBegin (s : State) (n : Nat) : State :=
  let x := s.slot n
  match (s.waitingSwaps n).head? with
  | some p =>
    if decide (x.st ≠ .free ∧ x.fade = none ∧ p.acc < s.now) && s.onSmp (slotBlk x.rate) && (s.pends (fun q => isCoefLoad n q && decide (q.id < p.id))).isEmpty then
      let s1 := s.updPend p.id (fun q => { q with committed := true, aux := 0 })
      let len := match p.desc with | .slotBankSwap _ xf => xfadeLen xf.toNat | _ => 0
      if len = 0 ∨ x.st = .configured ∨ s.slotMuted n then
        ((s1.updSlot n (fun x => { x with activeB := !x.activeB })).completeId p.id .ok 0 0).loadsStart n
      else s1.updSlot n (fun x => { x with fade := some { id := p.id, len := len, start := s.now, paused := if s.onNow (n / 8) then none else some s.now, lost := 0 } })
    else s
  | none => s

/-- The deadline of a class in ticks (R218, Table 7-5); D has none. -/
def clsDeadline : Cls → Option Nat
  | .a => some (20 * tus) | .b => some (2 * tms) | .c => some (100 * tms) | .d => none

/-- The fade would end after its deadline, and this is the last slot-grid boundary before it (R52). -/
def State.fadeShort (s : State) (n : Nat) (f : Fade) : Bool :=
  match s.pend? f.id with
  | some p => match clsDeadline p.cls with
    | some d =>
      let dl := p.acc + d
      let k := (s.slot n).rate
      s.onSmp (slotBlk k) && decide (s.now ≤ dl ∧ dl < s.now + slotBlk k) &&
      (match s.withOff (n / 8) (f.left k s.now) with | some t => decide (dl < s.now + t) | none => true)
    | none => false
  | none => false

/-- SLOT_FADE_END: k = L; or the shortened end of R52. -/
def State.slotFadeEnd (s : State) (n : Nat) : State :=
  match (s.slot n).fade with
  | some f =>
    if f.paused = none ∧ f.left (s.slot n).rate s.now = 0 then s.fadeFinish n
    else if s.fadeShort n f then
      (((s.updSlot n (fun x => { x with shortCnt := satInc 0xFFFF x.shortCnt })).fadeFinish n)).raise 10 6 (.slot n)
    else s
  | none => s

/-- When a pause since t ended: the start of the present on-period of chain i (R48). -/
def State.resumeAt (s : State) (i t : Nat) : Nat := match s.sinceOn i with | some d => max t (s.now - d) | none => s.now

/-- The fade of a slot pauses and resumes with the on-periods of its receive chain (R48). -/
def State.fadeSync (s : State) (n : Nat) : State :=
  match (s.slot n).fade with
  | some f =>
    match s.onNow (n / 8), f.paused with
    | false, none => s.updSlot n (fun x => { x with fade := some { f with paused := some s.now } })
    | true, some t => s.updSlot n (fun x => { x with fade := some { f with paused := none, lost := f.lost + (s.resumeAt (n / 8) t - t) } })
    | _, _ => s
  | none => s

/-! ## Events of the sample path -/

/-- SAT_SLOT (R25). -/
def State.satSlot (s : State) (n : Nat) : State :=
  (s.updSlot n (fun x => { x with satCnt := if x.satCnt = 0xFFFFFFFF then x.satCnt else x.satCnt + 1 })).raise 10 4 (.slot n)

/-- SAT_CHAIN (R45). -/
def State.satChain (s : State) (c : Nat) : State :=
  (s.updTx c (fun x => { x with satCnt := if x.satCnt = 0xFFFFFFFF then x.satCnt else x.satCnt + 1 })).raise 10 5 (.tx c)

/-- The magnitude of an estimate is above 0.1 of full scale (R29). -/
def dcbAbove (i q : Half) : Bool := decide (32768 * 32768 < 100 * (i.toInt * i.toInt + q.toInt * q.toInt))

/-- DCB_RANGE: the estimate of a receive chain has moved to (i, q); above 0.1 of full scale RANGE is set and the source raised (R26, R27, R29). -/
def State.dcbRange (s : State) (r : Nat) (i q : Half) : State :=
  if s.dcbIdle r || s.dcbFrozen r || (s.chain r).dcHold then s
  else
    let s1 := s.updDcb r (fun d => { d with estI := i, estQ := q, range := dcbAbove i q })
    if dcbAbove i q then s1.raise 10 7 (.rx r) else s1

end Sys2Proof.Machine
end

