-- ==== Sys2Proof/Machine/Cancel.lean ====
section
/-! DEFINITION. The cancellers (chapter 4): assignment, speculation cycles, power-step rescaling, freeze, reset and seeds, states, delay search, measurement windows and publication (R98-R128), with the plausibility supervisor (R150, R151). -/

namespace Sys2Proof.Machine

/-! ## Coefficients (R105, R106) -/

/-- The energy of a coefficient set, in units of 2^-102. -/
def energyOf (l : List Coef) : Nat := l.foldl (fun a c => a + (c.mi * c.mi + c.mq * c.mq).toNat * 4 ^ c.e) 0

/-- A level in 0.01 dB as an energy in the unit of `energyOf` (log 14). -/
def energyAt (x : Int) : Nat := Config.powerOfDb x * 2 ^ 38

/-- The energy of the main set, its power-step scaling included. -/
def Inst.mainEnergy (x : Inst) : Nat := if x.scale = 0 then energyOf x.main else energyOf x.main * Config.powerOfDb x.scale / 2 ^ 64

/-- One entry of a coefficient set in host memory: its two words (R106). -/
def coefOf (lo hi : Word) : Coef :=
  { mi := (lo.extractLsb' 0 20).toInt, mq := (((hi ++ lo).extractLsb' 20 20).toInt), e := bitsOf hi 26 6 }

/-- A coefficient set from its host words. -/
def coefSet : List Word → List Coef
  | lo :: hi :: r => coefOf lo hi :: coefSet r
  | _ => []

/-- The contents of a set: length N, reserved bits 0, one exponent per 16 taps (R106). -/
def coefSetOk (n : Nat) (ws : List Word) : Bool :=
  decide (ws.length = 2 * n) && (List.range n).all (fun i => decide (bitsOf (ws.getD (2 * i + 1) 0) 8 18 = 0)) &&
  (List.range n).all (fun i => decide (bitsOf (ws.getD (2 * i + 1) 0) 26 6 = bitsOf (ws.getD (2 * (16 * (i / 16)) + 1) 0) 26 6))

/-! ## States (R121) -/

/-- Events that change RUN move the instance (Table 4-3). -/
def State.cxRunSync (s : State) (i : Nat) : State :=
  let x := s.inst i
  match x.st with
  | .idle =>
    if s.cxRun i then
      let st := if x.auto && !x.searched then CxSt.search else x.heldSt
      s.updInst i (fun x => { x with st := st, gradOk := false, cycleAt := s.smpAtOrAfter chainBlk s.now, winAt := s.now, cycPol := none, winPol := none })
    else s
  | .unassigned => s
  | .joined => s
  | st => if s.cxRun i then s else s.updInst i (fun x => { x with st := .idle, heldSt := if st = .search then .acquire else st, gradOk := false })

/-- Every instance on a chain (TXn at 32 + n) follows its RUN. -/
def State.cxChainSync (s : State) (c : Nat) : State :=
  s.each ((s.cx.filter (fun e => if c < 32 then decide (e.2.rx = c) else decide (e.2.tx = c - 32))).map (fun e => e.1)) (fun i a => a.cxRunSync i)

/-- A seed under way ends without effect. -/
def State.seedDrop (s : State) (i : Nat) (st : Status) : State :=
  match (s.inst i).seed with
  | some d => (s.updInst i (fun x => { x with seed := none })).completeId d.id st 0 0
  | none => s

/-- The reset of R117: main set and shadow zero, VALID cleared, measurement restarted; ACQUIRE, IDLE or SEARCH. BULK is kept. -/
def State.cxZero (s : State) (i : Nat) : State :=
  let x := s.inst i
  if x.st = .unassigned ∨ x.st = .joined then s
  else
    let st := if !s.cxRun i then CxSt.idle else if x.auto && !x.searched then .search else .acquire
    s.updInst i (fun x => { x.clearPub with main := [], scale := 0, cand := none, gradOk := false, st := st, heldSt := .acquire, winAt := s.now, cycleAt := s.smpAtOrAfter chainBlk s.now, cycPol := none, winPol := none })

/-- The pair's chains carry an antenna group: a change of published figures is reported to the master (R388). -/
def State.cxReport (s : State) (i : Nat) : State :=
  if s.agrp (32 + (s.inst i).tx) ≠ 0 ∧ s.agrp (s.inst i).rx ≠ 0 then { s with jl := { s.jl with dirty := true } } else s

/-- A tuning change committed on a chain resets every instance on it, whatever its transmit chain does (R120). -/
def State.cxRetune (s : State) (c : Nat) : State :=
  let l := (s.cx.filter (fun e => decide (e.2.st ≠ .unassigned ∧ e.2.st ≠ .joined) && (if c < 32 then decide (e.2.rx = c) else decide (e.2.tx = c - 32)))).map (fun e => e.1)
  s.each l (fun i a => (((a.seedDrop i .superseded).cxZero i).cxReport i))

/-! ## CX_ASSIGN (R102-R104) -/

/-- Checks of CX_ASSIGN. -/
def chkCxAssign (cx rel tx rx join : Byte) (bulk ext : Half) (s : State) : Checks :=
  let i := cx.toNat
  let x := s.inst i
  let go := decide (rel = 0)
  { range := firstBad [(8, decide (i ≤ 63)), (9, decide (rel.toNat ≤ 1)), (0xA, !go || decide (tx.toNat ≤ 31)), (0xB, !go || decide (rx.toNat ≤ 31)),
      (0xC, !go || decide (join.toNat ≤ 1)), (0xE, !go || decide (bulk.toNat ≤ 8191 ∨ bulk = 0xFFFF)), (0x10, !go || decide (-1000 ≤ ext.toInt ∧ ext.toInt ≤ 6000))]
    state :=
      if x.st = .joined then refState
      else if x.st ≠ .unassigned ∧ s.cxRadiates i then refState
      else if !go then none
      else if s.cx.any (fun e => decide (e.1 ≠ i ∧ e.2.st ≠ .unassigned ∧ e.2.st ≠ .joined ∧ e.2.tx = tx.toNat ∧ e.2.rx = rx.toNat)) then refState
      else if join = 1 ∧ (i % 2 = 1 ∨ ((s.inst (i + 1)).st ≠ .unassigned ∧ (s.inst (i + 1)).st ≠ .joined)) then refState
      else none
    worst := some classB }

/-- An instance returns to UNASSIGNED: published values cleared, its model and counters kept. -/
def Inst.release (x : Inst) : Inst :=
  { x.clearPub with st := .unassigned, tx := 0, rx := 0, join := false, auto := false, bulk := 0, peak := 0, searched := false, extRxg := 0, frozen := false, main := [], scale := 0,
                    cand := none, gradOk := false, heldSt := .acquire, dmeas := 0, tape := 0, lastEh := none }

/-- A CX_ASSIGN takes effect (R103, R104, R121): a changed pair, bulk delay or join is a fresh assignment (log 31). -/
def startCxAssign (p : Pend) (i : Nat) (rel tx rx join : Byte) (bulk ext : Half) (s : State) : State :=
  let x := s.inst i
  let auto := decide (bulk = 0xFFFF)
  let free (a : State) : State := if (a.inst i).join then a.updInst (i + 1) Inst.release else a
  if rel = 1 then
    ((((free (s.seedDrop i .superseded)).updInst i Inst.release).cxReport i).capAll).complete p .ok 0 0
  else if x.st ≠ .unassigned ∧ x.tx = tx.toNat ∧ x.rx = rx.toNat ∧ x.join = decide (join = 1) ∧ x.auto = auto ∧ (auto ∨ x.bulk = bulk.toNat) then
    ((s.updInst i (fun x => { x with extRxg := ext.toInt })).capAll).complete p .ok 0 0
  else
    let s1 := (free (s.seedDrop i .superseded)).updInst i (fun x => { x.release with
      st := .idle, tx := tx.toNat, rx := rx.toNat, join := decide (join = 1), auto := auto, bulk := if auto then 0 else bulk.toNat, extRxg := ext.toInt })
    let s2 := if join = 1 then s1.updInst (i + 1) (fun x => { x.release with st := .joined }) else s1
    ((s2.cxRunSync i).capAll).complete p .ok 0 0

/-! ## Reset, freeze and seeds (R116-R119) -/

/-- Checks of CX_RESET, MODE 0. -/
def chkCxReset (cx : Byte) (s : State) : Checks :=
  let x := s.inst cx.toNat
  { range := firstBad [(8, decide (cx.toNat ≤ 63))]
    state := if x.st = .joined ∨ x.seed ≠ none ∨ (x.st ≠ .unassigned ∧ s.cxRadiates cx.toNat) then refState else none
    worst := some (s.nextSmp chainBlk - s.now) }

/-- A CX_RESET, MODE 0, of an instance. -/
def isCxReset (i : Nat) (p : Pend) : Bool := match p.desc with | .cxReset c => decide (c.toNat = i) | _ => false

/-- CX_RESET_BOUNDARY: at the first chain-grid boundary after acceptance (R117). -/
def State.cxResetBoundary (s : State) (i : Nat) : State :=
  let due := s.pends (fun p => isCxReset i p && decide (p.acc < s.now))
  if s.onSmp chainBlk ∧ !due.isEmpty then due.foldl (fun a p => a.complete p .ok 0 0) (((s.cxZero i).cxReport i).capAll) else s

/-- Checks of CX_FREEZE. -/
def chkCxFreeze (fr : Byte) (s : State) : Checks :=
  { range := firstBad [(8, decide (fr.toNat ≤ 1))], state := none, worst := some (s.nextSmp chainBlk - s.now) }

/-- A CX_FREEZE. -/
def isCxFreeze (p : Pend) : Bool := match p.desc with | .cxFreeze _ _ => true | _ => false

/-- FROZEN of the masked instances follows a CX_FREEZE, and a frozen one drops its candidate (R116). -/
def State.cxFreezeApply (s : State) (p : Pend) : State :=
  match p.desc with
  | .cxFreeze fr mask =>
    s.each ((List.range 64).filter (fun i => mask.getLsbD i)) (fun i a =>
      if (a.inst i).st = .unassigned ∨ (a.inst i).st = .joined then a
      else a.updInst i (fun x => { x with frozen := decide (fr = 1), gradOk := x.gradOk && decide (fr ≠ 1) }))
  | _ => s

/-- CX_FREEZE_BOUNDARY: the accepted CX_FREEZEs act in order (R116). -/
def State.cxFreezeBoundary (s : State) : State :=
  let due := s.pends (fun p => isCxFreeze p && decide (p.acc < s.now))
  if s.onSmp chainBlk then due.foldl (fun a p => (a.cxFreezeApply p).complete p .ok 0 0) s else s

/-- The instance's seed is screened: ACQUIRE or TRACK on a radiating chain (R118). -/
def State.seedScreens (s : State) (i : Nat) : Bool := decide ((s.inst i).st = .acquire ∨ (s.inst i).st = .track) && s.cxRadiates i

/-- The time of a seed at acceptance: load, screen, fade with the off-periods of both chains (R118, R443; log 32). -/
def State.seedWorst (s : State) (i len : Nat) : Option Nat :=
  let t := 40 * tus + (if s.seedScreens i then 5 * tms else 0)
  let s1 : State := { s with now := s.now + t }
  let w := len * chainSmp
  match s1.withOff (s.inst i).rx w, s1.withOff (32 + (s.inst i).tx) w with
  | some a, some b => some (t + a + b - w)
  | _, _ => none

/-- Checks of CX_RESET, MODE 1. -/
def chkCxResetSeed (cx xf : Byte) (len : Word) (s : State) : Checks :=
  let x := s.inst cx.toNat
  { range := firstBad [(8, decide (cx.toNat ≤ 63)), (0xA, decide (xf.toNat < 7))]
    state := if x.st = .joined ∨ x.st = .unassigned ∨ x.st = .search ∨ x.seed ≠ none then refState else if len.toNat ≠ 8 * x.ntaps then refBad 0xC else none
    worst := s.seedWorst cx.toNat (xfadeLen xf.toNat) }

/-- A seed begins to load (R118). -/
def startCxResetSeed (p : Pend) (i : Nat) (xf : Byte) (ws : List Word) (s : State) : State :=
  s.updInst i (fun x => { x with
    seed := some { id := p.id, phase := .loading, screened := s.seedScreens i, since := s.now, set := coefSet ws, scale := 0, len := xfadeLen xf.toNat, paused := none, lost := 0 } })

/-- Both chains of an instance are in their on-periods. -/
def State.cxBothOn (s : State) (i : Nat) : Bool := s.onNow (s.inst i).rx && s.onNow (32 + (s.inst i).tx)

/-- The fade of a seed begins at the next chain-grid boundary, unless the seed was not screened and its chain radiates (R118). -/
def State.seedFade (s : State) (i : Nat) (d : Seed) : State :=
  if !d.screened && s.cxRadiates i then s.seedDrop i .refusedState
  else
    let t := s.smpAtOrAfter chainBlk s.now
    ((s.updInst i (fun x => { x with gradOk := false, seed := some { d with phase := .fading, since := t, paused := if s.cxBothOn i then none else some t } }))).updPend d.id (fun q => { q with committed := true })

/-- CX_SEED_LOADED (R118). -/
def State.cxSeedLoaded (s : State) (i : Nat) : State :=
  match (s.inst i).seed with
  | some d =>
    if d.phase ≠ .loading then s
    else if d.screened then s.updInst i (fun x => { x with seed := some { d with phase := .screening, since := s.now } })
    else s.seedFade i d
  | none => s

/-- CX_SEED_SCREEN_END: four valid blocks, or 5 ms after the load (R110, R118). -/
def State.cxSeedScreenEnd (s : State) (i blocks em esh : Nat) : State :=
  match (s.inst i).seed with
  | some d =>
    if d.phase ≠ .screening ∨ (blocks < 4 ∧ s.now < d.since + 5 * tms) then s
    else if 4 ≤ blocks ∧ esh * 1024 ≤ em * (1024 + s.cxPol.eps) ∧ energyOf d.set ≤ energyAt s.cxPol.eMax then s.seedFade i d
    else ((s.updInst i (fun x => { x with seedRej := satInc 0xFFFF x.seedRej })).seedDrop i .refusedState).raise 11 6 (.rx (s.inst i).rx)
  | none => s

/-- CX_SEED_FADE_END: k = L (R118). -/
def State.cxSeedFadeEnd (s : State) (i : Nat) : State :=
  match (s.inst i).seed with
  | some d =>
    if d.phase = .fading ∧ d.paused = none ∧ d.since + d.len * chainSmp + d.lost ≤ s.now then (((s.seedInstall i).cxReport i).capAll) else s
  | none => s

/-- A seed fade pauses outside the common on-period (R119). -/
def State.cxSeedSync (s : State) (i : Nat) : State :=
  match (s.inst i).seed with
  | some d =>
    if d.phase ≠ .fading then s
    else match s.cxBothOn i, d.paused with
      | false, none => s.updInst i (fun x => { x with seed := some { d with paused := some s.now } })
      | true, some t => s.updInst i (fun x => { x with seed := some { d with paused := none, lost := d.lost + (max (s.resumeAt (s.inst i).rx t) (s.resumeAt (32 + (s.inst i).tx) t) - t) } })
      | _, _ => s
  | none => s

/-! ## Cycles (R107-R114) -/

/-- What the state alone says of a cycle's blocks (R109): both chains on, in their on-periods, unmuted, the instance adapting. -/
def State.cxBlocksOk (s : State) (i : Nat) : Bool :=
  let x := s.inst i
  decide ((s.chain x.rx).st = .rxOn) && s.cxRadiates i && s.onAt x.rx ((s.now : Int) - 1) && s.onAt (32 + x.tx) ((s.now : Int) - 1) && !x.frozen

/-- The growth test of R110. -/
def growthOk (pol : CxPolicy) (ec ew : Nat) : Bool :=
  decide (((ec : Int) - ew) * 2 ^ pol.growthExp ≤ (max ew (energyAt pol.eFloor) : Nat)) && decide (ec ≤ energyAt pol.eMax)

/-- The policy of an instance's running cycle (R129). -/
def State.cycPolicy (s : State) (i : Nat) : CxPolicy := (s.inst i).cycPol.getD s.cxPol

/-- The policy of its running window or search (R129). -/
def State.winPolicy (s : State) (i : Nat) : CxPolicy := (s.inst i).winPol.getD s.cxPol

/-- A candidate that has run its window is tested (R110-R112). -/
def State.cxTest (s : State) (i : Nat) (c : CycleMeas) : State :=
  let x := s.inst i
  let ok := c.valid && s.cxBlocksOk i
  let s1 := s.updInst i (fun x => { x with cand := some c.cand, specRatio := wordI (Config.ratioDb c.esh c.em), specEnergy := wordI (Config.energyDb (energyOf c.cand)) })
  if !ok then s1.updInst i (fun x => { x with blocked := satInc 0xFFFF x.blocked })
  else if c.em * (1024 + (s.cycPolicy i).eps) < c.esh * 1024 then s1.updInst i (fun x => { x with rejRes := satInc 0xFFFF x.rejRes })
  else if !growthOk (s.cycPolicy i) (energyOf c.cand) x.mainEnergy then s1.updInst i (fun x => { x with rejGrowth := satInc 0xFFFF x.rejGrowth })
  else if s.blkRamp i || decide (x.seed ≠ none) || c.stepped then s1.updInst i (fun x => { x with blocked := satInc 0xFFFF x.blocked })
  else s1.updInst i (fun x => { x with main := c.cand, scale := 0, promo := if x.promo = 0xFFFFFFFF then x.promo else x.promo + 1 })

/-- CX_CYCLE: the boundary after block 4 of a cycle (Table 4-2). -/
def State.cxCycle (s : State) (i : Nat) (c : CycleMeas) : State :=
  let x := s.inst i
  if decide ((x.st = .acquire ∨ x.st = .track) ∧ x.cycleAt < s.now ∧ (s.now - x.cycleAt) % (5 * chainBlk) = 0) then
    let s1 := if x.gradOk && !s.cxPaused i then s.cxTest i c else s
    let fading := match x.seed with | some d => decide (d.phase = .fading) | none => false
    s1.updInst i (fun x => { x with cycleAt := s.now, cycPol := none, gradOk := c.gradient && c.valid && s.cxBlocksOk i && !s.cxPaused i && !fading })
  else s

/-! ## Power steps (R115) -/

/-- The DAC gain's mantissa and exponent of a power-table entry (Table 3-10). -/
def dacM (e : Word64) : Nat := bitsOf e 0 20
/-- Its exponent. -/
def dacE (e : Word64) : Nat := bitsOf e 20 6

/-- K of an entry in 0.01 dB. -/
def kOf (e : Word64) : Int := expOut e - Config.dacGainDb (dacM e) (dacE e)

/-- ΔK of a step to an entry (R115). -/
def TxCh.deltaK (x : TxCh) (e : Word64) : Int :=
  if dacM e = 0 then 0 else match x.kept with | some k => kOf e - kOf k | none => 0

/-- Every instance of TXc follows a power step: sets scaled, candidate dropped, measurement restarted, LOOPLOSS republished (R115). -/
def State.cxRescale (s : State) (c : Nat) (dK dExp : Int) : State :=
  s.each (s.txInsts c) (fun i a =>
    (a.updInst i (fun x => { x with
      scale := x.scale + dK
      seed := x.seed.map (fun d => if d.phase = .loading ∨ d.phase = .fading then { d with scale := d.scale + dK } else d)
      blocked := if x.gradOk then satInc 0xFFFF x.blocked else x.blocked, gradOk := false, winAt := a.now, winPol := none
      ll := if x.valid then clampI (-10000) 20000 (x.ll - dExp) else x.ll })).cxReport i)

/-! ## Search and measurement (R123-R126, R150, R151) -/

/-- CX_SEARCH_END: a search of 2^SRCH_EXP valid samples ends with the lag of its largest peak, in 0.01 dB over the mean (R123). -/
def State.cxSearchEnd (s : State) (i peak : Nat) (ovr : Int) (samples : Nat) : State :=
  let x := s.inst i
  let pol := s.winPolicy i
  if x.st ≠ .search ∨ samples < 2 ^ pol.srchExp ∨ (if x.join then 8958 else 8574) < peak then s
  else if (pol.peakTh : Int) * 100 ≤ ovr then
    s.updInst i (fun x => { x with bulk := min 8191 (peak - pol.pre), peak := peak, searched := true, st := .acquire, gradOk := false, cycleAt := s.smpAtOrAfter chainBlk s.now, winAt := s.now, cycPol := none, winPol := none })
  else (s.updInst i (fun x => { x with winPol := none })).raise 11 4 (.rx x.rx)

/-- One publication against the installation model (R150, R151). -/
def State.plausible (s : State) (i : Nat) (iso : Int) : State :=
  let x := s.inst i
  let fRange := !decide ((x.isoMin : Int) ≤ iso ∧ iso ≤ x.isoMax)
  let fJump := match x.prevIso with | some (v, _) => decide (1000 < (iso - v).natAbs) | none => false
  let fRate := match x.prevIso with | some (v, t) => decide (x.rateMax * (s.now - t) < (iso - v).natAbs * tsec) | none => false
  if fRange || fJump || fRate then
    (s.updInst i (fun x => { x with implaus := true, good := 0, failRange := fRange, failJump := fJump, failRate := fRate })).raise 12 3 (.rx x.rx)
  else
    s.updInst i (fun x => { x with good := satInc 10 x.good, implaus := x.implaus && decide (x.good + 1 < 10) })

/-- The figures of Table 4-4 are published (R125, R126). -/
def State.publish (s : State) (i : Nat) (w : WindowMeas) : State :=
  let x := s.inst i
  let e := (s.txc x.tx).entry
  let dac := Config.dacGainDb (dacM e) (dacE e)
  let d : Int := match w.eh, w.r with
    | _, none => 4000
    | none, some _ => -4000
    | some h, some r => clampI (-4000) 4000 (h - r)
  let ll : Int := match w.eh with | some h => clampI (-10000) 20000 (-h - dac) | none => 20000
  let iso : Int := match w.eh with | some h => clampI 0 20000 (expOut e - dac + x.extRxg + 200 - h) | none => 20000
  let s1 := s.plausible i iso
  let s2 := s1.updInst i (fun x => { x with
    valid := true, iso := iso, ll := ll, depth := min d 3500, dmeas := d, tape := clampI (-10000) 10000 w.tape, pubAt := some s.now, staleSeen := false
    prevIso := some (iso, s.now), lastEh := w.eh, st := if x.st = .acquire then .track else x.st })
  let s3 := if d < 0 then s2.raise 11 3 (.rx x.rx) else s2
  (s3.cxReport i).capAll

/-- CX_WINDOW_CLOSE: a window of DWIN ms has closed; it is discarded below 2^20 valid samples, or with no DAC gain (R124). -/
def State.cxWindowClose (s : State) (i : Nat) (w : WindowMeas) : State :=
  let x := s.inst i
  if (x.st ≠ .acquire ∧ x.st ≠ .track) ∨ s.now < x.winAt + (s.winPolicy i).dwin * tms then s
  else
    let s1 := s.updInst i (fun x => { x with winAt := s.now, winPol := none })
    if w.samples < 2 ^ 20 ∨ dacM (s.txc x.tx).entry = 0 then s1 else s1.publish i w

end Sys2Proof.Machine
end

