-- ==== Sys2Proof/Machine/Chains.lean ====
section
/-! DEFINITION. Radio chains (chapter 3): tuning and locks (R60-R63, R72), states and walks (R64-R71), calibrations (R73-R75), loss and return of the reference (R59). Chains are numbered RXn at n, TXn at 32 + n. -/

namespace Sys2Proof.Machine

/-- The number of a chain by its direction. -/
def chIdx (dir : Dir) (n : Nat) : Nat := match dir with | .rx => n | .tx => 32 + n

/-- The number of a chain by a descriptor's DIR byte. -/
def chIdxB (dir ch : Byte) : Nat := if dir = 1 then 32 + ch.toNat else ch.toNat

/-- The tile of chain i. -/
def chTile (i : Nat) : Nat := (i % 32) / 8

/-- The scope of a fault of chain i (R97). -/
def chScope (i : Nat) : FScope := if i < 32 then .rx i else .tx (i - 32)

/-- Codes of Table 3-2. -/
def ChSt.code : ChSt → Nat | .sleep => 0 | .standby => 1 | .synth => 2 | .rxOn => 3 | .txOn => 4

/-- The state with a code. -/
def chStOf (n : Nat) : ChSt := match n with | 0 => .sleep | 1 => .standby | 2 => .synth | 3 => .rxOn | _ => .txOn

/-- The height of a state on the walk: RX_ON and TX_ON stand beside each other. -/
def ChSt.rank : ChSt → Nat | .sleep => 0 | .standby => 1 | .synth => 2 | .rxOn => 3 | .txOn => 3

/-- The neighbour of a on the way to b. -/
def chNext (a b : ChSt) : ChSt :=
  if a.rank < b.rank then (match a with | .sleep => .standby | .standby => .synth | _ => b)
  else if b.rank < a.rank then (match a with | .standby => .sleep | .synth => .standby | _ => .synth)
  else a

/-- Maximum of a transition, in ticks (Table 3-3). -/
def stepMax (ext : Bool) (a b : ChSt) : Nat :=
  match a, b with
  | .sleep, .standby => if ext then 200 * tus else 2 * tms
  | .standby, .synth => 160 * tus
  | .synth, .rxOn => 12 * tus
  | .synth, .txOn => 18 * tus
  | .txOn, .synth => 6 * tus
  | _, _ => 2 * tus

/-- The sum of the maxima along a walk (R68); n bounds the number of steps. -/
def walkMax (ext : Bool) (n : Nat) (a b : ChSt) : Nat :=
  match n with
  | 0 => 0
  | n + 1 => if a.rank = b.rank then 0 else stepMax ext a (chNext a b) + walkMax ext n (chNext a b) b

/-- A chain as it stands at a time: a transition into SYNTH shows from its boundary on (Table 3-4). -/
def Chain.at (c : Chain) (now : Nat) : Chain :=
  match c.st, c.trans with
  | .standby, some (.synth, t) => if t ≤ now then { c with st := .synth, lock := .settling, settleAt := t, trans := none } else c
  | _, _ => c

/-- Chain i at present. -/
def State.chainNow (s : State) (i : Nat) : Chain := (s.chain i).at s.now

/-- Bring chain i up to the present. -/
def State.chainSync (s : State) (i : Nat) : State := s.updChain i (fun c => c.at s.now)

/-- f_LO of a QUAD chain in 10 Hz (R60). -/
def Chain.fLo (c : Chain) : Int := (c.fw : Int) - c.ifofs * 1000

/-- The chains on the LO of chain i that are in SYNTH or above, itself included; a DIRECT chain stands alone (R60, R72). -/
def State.loChains (s : State) (i : Nat) : List Nat :=
  let c := s.chainNow i
  if !c.quad then [i]
  else ((List.range 8).map (fun k => 32 * (i / 32) + 8 * chTile i + k)).filter
    (fun j => decide (j = i) || (let d := s.chainNow j; d.quad && decide (d.losel = c.losel ∧ 2 ≤ d.st.rank)))

/-! ## Descriptors of a chain -/

/-- A CHAIN_STATE of chain i. -/
def isChainState (i : Nat) (p : Pend) : Bool := match p.desc with | .chainState ch d _ _ => decide (chIdxB d ch = i) | _ => false
/-- A CHAIN_TUNE of chain i. -/
def isChainTune (i : Nat) (p : Pend) : Bool := match p.desc with | .chainTune ch d _ _ _ _ _ => decide (chIdxB d ch = i) | _ => false
/-- A CAL_RUN of chain i. -/
def isCalRun (i : Nat) (p : Pend) : Bool := match p.desc with | .calRun ch d _ => decide (chIdxB d ch = i) | _ => false
/-- A CAL_RUN of a chain of tile k. -/
def isTileCal (k : Nat) (p : Pend) : Bool := match p.desc with | .calRun ch _ _ => decide (ch.toNat / 8 = k) | _ => false
/-- TARGET of a CHAIN_STATE. -/
def Pend.target (p : Pend) : ChSt := match p.desc with | .chainState _ _ t _ => chStOf t.toNat | _ => .sleep
/-- MASK of a CAL_RUN. -/
def Pend.mask (p : Pend) : Byte := match p.desc with | .calRun _ _ m => m | _ => 0
/-- The chain a CAL_RUN names. -/
def Pend.calChain (p : Pend) : Nat := match p.desc with | .calRun ch d _ => chIdxB d ch | _ => 0

/-- A CHAIN_STATE is held for chain i: accepted, its walk not begun (R69; CH_STAT.HELD). -/
def State.heldStates (s : State) (i : Nat) : List Pend := s.pends (fun p => isChainState i p && decide (p.aux = 0))

/-- A CAL_RUN that covers every bit of UNMET runs or is queued (R75). -/
def State.calCovers (s : State) (i : Nat) : Bool :=
  let u := (s.chain i).unmet.setWidth 8
  !(s.pends (fun p => isCalRun i p && decide (u &&& ~~~p.mask = 0))).isEmpty

/-- Chain i is quiescent (R68): no walk, transition, settling, calibration or accepted descriptor of these kinds. -/
def State.chQuiet (s : State) (i : Nat) : Bool :=
  let c := s.chainNow i
  decide (c.trans = none ∧ c.walk = none ∧ c.lock ≠ .settling ∧ c.cal = none) && (s.pends (fun p => isCalRun i p || isChainState i p)).isEmpty

/-! ## Worst-case times (R68, R69, R74) -/

/-- Time left for lock (R69). -/
def State.lockLeft (s : State) (i : Nat) : Nat :=
  let c := s.chainNow i
  if c.lock = .settling then 160 * tus - (s.now - c.settleAt) else 0

/-- Maximum of one calibration by its bit (Table 3-6). -/
def calMax (b : Nat) : Nat := match b with | 2 => 500 * tus | 0 => tms | _ => 2 * tms

/-- Maximum of the calibrations of a mask. -/
def maskMax (m : Nat) : Nat := (if m.testBit 2 then calMax 2 else 0) + (if m.testBit 0 then calMax 0 else 0) + (if m.testBit 3 then calMax 3 else 0)

/-- The calibrations a mask selects on a chain: no image rejection in DIRECT (R74). -/
def calMask (quad : Bool) (m : Byte) : Nat := if quad then m.toNat else m.toNat % 8

/-- What is left of a running CAL_RUN of chain i, at most. -/
def State.calLeft (s : State) (i : Nat) (aux : Nat) : Nat :=
  match (s.chain i).cal with
  | some (_, b, t) => (calMax b - (s.now - t)) + maskMax (aux - 2 ^ b)
  | none => 0

/-- Put a number into a rising list. -/
def insertUp (x : Nat) : List Nat → List Nat
  | [] => [x]
  | y :: r => if x ≤ y then x :: y :: r else y :: insertUp x r

/-- One queued CAL_RUN takes the place that is free first, not before its chain is locked and its chain's earlier one has ended. Places and ends count from now. -/
def calPlace (lock dur ch : Nat) (st : List Nat × List (Nat × Nat)) : List Nat × List (Nat × Nat) :=
  match st.1 with
  | [] => st
  | f :: r =>
    let own := (st.2.filter (fun e => decide (e.1 = ch))).foldl (fun a e => max a e.2) 0
    let e := max (max f lock) own + dur
    (insertUp e r, st.2 ++ [(ch, e)])

/-- The ends of the calibrations running and queued on tile k, by chain, with one more of a chain and length at the end of the queue (R74). -/
def State.calEnds (s : State) (k : Nat) (extra : List (Nat × Nat)) : List (Nat × Nat) :=
  let l := s.pends (isTileCal k)
  let run := (l.filter (fun p => p.committed)).map (fun p => (p.calChain, s.calLeft p.calChain p.aux))
  let que := ((l.filter (fun p => !p.committed)).map (fun p => (p.calChain, maskMax p.aux))) ++ extra
  let places := run.foldl (fun a e => insertUp e.2 a) (List.replicate (4 - run.length) 0)
  (que.foldl (fun a e => calPlace (s.lockLeft e.1) e.2 e.1 a) (places, run)).2

/-- The end of the last calibration of chain i. -/
def State.calEndOf (s : State) (i : Nat) : Nat := ((s.calEnds (chTile i) []).filter (fun e => decide (e.1 = i))).foldl (fun a e => max a e.2) 0

/-- What is left, at most, of the walk in progress on chain i, and the state it leads to (R69). -/
def State.walkLeft (s : State) (i : Nat) : Nat × ChSt :=
  let c := s.chainNow i
  let ext := s.tst.straps.refSel
  match c.walk with
  | some (_, g) => match c.trans with
    | some (nx, t) => (stepMax ext c.st nx - (s.now - t) + walkMax ext 4 nx g, g)
    | none => (s.lockLeft i + walkMax ext 4 c.st g, g)
  | none => (s.lockLeft i, c.st)

/-- T of R69 for a CHAIN_STATE to TARGET. -/
def State.heldWorst (s : State) (i : Nat) (target : ChSt) : Nat :=
  let ext := s.tst.straps.refSel
  let w := s.walkLeft i
  let cal := s.calEndOf i - s.lockLeft i
  let q := (s.heldStates i).foldl (fun a p => (a.1 + walkMax ext 4 a.2 p.target, p.target)) (w.1 + cal, w.2)
  q.1 + walkMax ext 4 q.2 target

/-! ## CHAIN_STATE (R66-R70, R75, R78) -/

/-- Chain i follows a schedule without a valid pattern (R78). -/
def State.noPattern (s : State) (i : Nat) : Bool :=
  let t := (s.chain i).sched
  decide (1 ≤ t ∧ t ≤ 4) && !(s.sched (t - 1)).patValid

/-- Checks of CHAIN_STATE, whose class decides whether a held one fits (R69). -/
def chkChainState (cls : Cls) (ch dir target : Byte) (s : State) : Checks :=
  let i := chIdxB dir ch
  let c := s.chainNow i
  let g := chStOf target.toNat
  let on := decide (3 ≤ target.toNat)
  let quiet := s.chQuiet i
  let t := s.heldWorst i g
  { range := firstBad [(8, decide (ch.toNat < 32)), (9, decide (dir.toNat ≤ 1)),
      (0xA, decide (target.toNat ≤ 4) && !decide (target = 3 ∧ dir = 1) && !decide (target = 4 ∧ dir = 0))]
    state :=
      if quiet && decide (c.st = g) then none
      else if on && s.noPattern i then refState
      else if on && decide (c.st = .synth ∧ c.lock = .failed) then refState
      else if on && decide (c.unmet ≠ 0) && !s.calCovers i then refState
      else if !quiet && (match clsDeadline cls with | some d => decide (d < t) | none => false) then refState
      else none
    worst := some (if quiet then walkMax s.tst.straps.refSel 4 c.st g else 0) }

/-- A walk begins at boundary t (R70). -/
def State.walkBegin (s : State) (i : Nat) (p : Pend) (t : Nat) : State :=
  (s.updChain i (fun c => { c with walk := some (p.id, p.target), trans := some (chNext c.st p.target, t) })).updPend p.id (fun q => { q with aux := 1, start := t })

/-- A CHAIN_STATE takes its operands at acceptance (R27, R85) and begins its walk, is done, or is held (R67-R69). -/
def startChainState (p : Pend) (i : Nat) (flags : Byte) (s : State) : State :=
  let s1 := (s.chainSync i).updChain i (fun c => { c with dcHold := flags.getLsbD 0, lnaByp := decide (i < 32) && flags.getLsbD 1 })
  let others := { s1 with hif := { s1.hif with outstanding := s1.hif.outstanding.filter (fun q => decide (q.id ≠ p.id)) } }
  if others.chQuiet i then
    if (s1.chain i).st = p.target then s1.complete p .ok 0 0 else s1.walkBegin i p (s1.nextSmp chainBlk)
  else s1

/-- The completion of a walk carries its start (R70). -/
def State.walkDone (s : State) (p : Pend) : State := s.complete p .ok (word ((s.dtAt p.start).toNat / tns - p.accDt.toNat)) 0

/-- The walk of chain i ends with a status other than OK. -/
def State.walkFail (s : State) (i : Nat) (st : Status) : State :=
  match (s.chain i).walk with
  | some (id, _) => (s.updChain i (fun c => { c with walk := none })).completeId id st 0 0
  | none => s

/-- The walk of chain i goes on from its present state at boundary t, or is complete; RX_ON and TX_ON need LOCKED and UNMET clear (R67, R75). -/
def State.walkStep (s : State) (i t : Nat) : State :=
  let c := s.chain i
  match c.walk with
  | none => s
  | some (id, g) =>
    if c.st = g then
      let s1 := s.updChain i (fun c => { c with walk := none })
      match s.pend? id with | some p => s1.walkDone p | none => s1
    else
      let n := chNext c.st g
      if 3 ≤ n.rank then
        if c.lock = .settling then s
        else if c.lock = .locked ∧ c.unmet = 0 then s.updChain i (fun c => { c with trans := some (n, t) })
        else s.walkFail i .refusedState
      else s.updChain i (fun c => { c with trans := some (n, t) })

/-- A chain takes a state, with what leaving or entering RX_ON does to its slots and instances (Tables 2-4, 4-3, 3-7). -/
def State.moveChain (s : State) (i : Nat) (g : ChSt) : State :=
  let was := (s.chain i).st
  let s1 := s.updChain i (fun c => { c with
    st := g
    lock := if g = .standby ∧ 2 ≤ was.rank then .none else c.lock
    unmet := if was = .sleep ∧ g ≠ .sleep then c.unmet ||| 5 else c.unmet
    done := if was = .sleep ∧ g ≠ .sleep then c.done &&& ~~~5 else c.done })
  if was = .rxOn ∧ g ≠ .rxOn then (s1.rxLeft i).cxChainSync i
  else if was ≠ .rxOn ∧ g = .rxOn then (s1.rxEntered i).cxChainSync i
  else s1

/-- CHAIN_TRANSITION_END: the transition to a neighbour ends; the entry to TX_ON takes 18 µs and its exit 6 µs (Table 3-5), the others at most Table 3-3. -/
def State.chainTransitionEnd (s0 : State) (i : Nat) : State :=
  let s := s0.chainSync i
  match (s.chain i).trans with
  | some (g, t) =>
    let need := if g = .txOn then 18 * tus else if (s.chain i).st = .txOn then 6 * tus else 0
    if t + need ≤ s.now ∧ g ≠ .synth ∨ t + need ≤ s.now ∧ 3 ≤ (s.chain i).st.rank then
      ((s.updChain i (fun c => { c with trans := none })).moveChain i g).walkStep i (s.smpAtOrAfter chainBlk s.now)
    else s
  | none => s

/-- CHAIN_STATE_HELD_START: at a chain-grid boundary after the transient the oldest held CHAIN_STATE takes effect (R69). -/
def State.chainHeldStart (s0 : State) (i : Nat) : State :=
  let s := s0.chainSync i
  let c := s.chain i
  match (s.heldStates i).head? with
  | some p =>
    if s.onSmp chainBlk && decide (c.walk = none ∧ c.trans = none ∧ c.lock ≠ .settling ∧ c.cal = none ∧ p.acc < s.now) &&
        (s.pends (fun q => isCalRun i q && decide (q.id < p.id))).isEmpty then
      if c.st = p.target then s.complete p .ok 0 0
      else if 3 ≤ (chNext c.st p.target).rank ∧ (c.lock ≠ .locked ∨ c.unmet ≠ 0) then s.complete p .refusedState 0 0
      else s.walkBegin i p s.now
    else s
  | none => s

/-! ## CHAIN_TUNE (R61-R63) -/

/-- A CHAIN_TUNE changes no tuning (delay-only). -/
def Chain.delayOnly (c : Chain) (mode losel : Byte) (fw ifofs : Word) : Bool :=
  decide (c.quad = decide (mode = 1) ∧ c.fw = fw.toNat) && (decide (mode = 0) || decide (c.losel = decide (losel = 1) ∧ c.ifofs = ifofs.toInt))

/-- Another chain of the tile, direction and LOSEL runs at a different f_LO (R62). -/
def State.loTaken (s : State) (i : Nat) (losel : Bool) (f : Int) : Bool :=
  (List.range 8).any (fun k =>
    let j := 32 * (i / 32) + 8 * chTile i + k
    let d := s.chainNow j
    decide (j ≠ i ∧ d.losel = losel ∧ 2 ≤ d.st.rank ∧ d.fLo ≠ f) && d.quad)

/-- Checks of CHAIN_TUNE (Table 3-1, R43, R61, R62). -/
def chkChainTune (ch dir mode losel : Byte) (fw ifofs : Word) (pdly : Half) (s : State) : Checks :=
  let i := chIdxB dir ch
  let c := s.chainNow i
  let f : Int := (fw.toNat : Int) - ifofs.toInt * 1000
  let delay := c.delayOnly mode losel fw ifofs
  { range := firstBad [
      (8, decide (ch.toNat < 32)), (9, decide (dir.toNat ≤ 1)), (0xA, decide (mode.toNat ≤ 1)), (0xB, decide (losel.toNat ≤ 1)),
      (0xC, if mode = 0 then decide (70000000 ≤ fw.toNat ∧ fw.toNat ≤ 390000000) else decide (360000000 ≤ fw.toNat ∧ fw.toNat ≤ 682500000)),
      (0x10, decide (-80000 ≤ ifofs.toInt ∧ ifofs.toInt ≤ 80000)), (0x10, decide (mode = 0) || decide (330000000 ≤ f ∧ f ≤ 720000000))]
    state :=
      if !delay && !decide (c.st = .standby ∨ c.st = .synth) then refState
      else if !delay && decide (mode = 1) && s.loTaken i (decide (losel = 1)) f then refState
      else if decide (dir = 1 ∧ pdly ≠ (s.txc ch.toNat).pdly) &&
          ((s.txSlots ch.toNat).any (fun n => decide ((s.slot n).st = .settling ∨ (s.slot n).st = .active)) || !(s.placements ch.toNat).isEmpty) then refState
      else none
    worst := some ((s.nextSmp chainBlk - s.now) + (if !delay && decide (c.st = .synth) then 160 * tus + chainBlk else 0)) }

/-- A CHAIN_TUNE waits for its boundary; `aux` 1 marks a tuning change. -/
def startChainTune (p : Pend) (i : Nat) (mode losel : Byte) (fw ifofs : Word) (s : State) : State :=
  if (s.chainNow i).delayOnly mode losel fw ifofs then s else s.updPend p.id (fun q => { q with aux := 1 })

/-- Another chain of chain i's LO is locked at the same f_LO (R62). -/
def State.loRuns (s : State) (i : Nat) : Bool :=
  (s.chain i).quad && (s.loChains i).any (fun j => decide (j ≠ i ∧ (s.chainNow j).lock = .locked ∧ (s.chainNow j).fLo = (s.chain i).fLo))

/-- The tuning of a CHAIN_TUNE enters the chain (R63, Table 3-7): UNMET, and LOCK for a chain in SYNTH. -/
def State.tuneApply (s : State) (i : Nat) (mode losel : Byte) (fw ifofs : Word) : State :=
  let q := decide (mode = 1)
  let s1 := s.updChain i (fun c => { c with
    quad := q, fw := fw.toNat, losel := decide (losel = 1), ifofs := if q then ifofs.toInt else 0
    unmet := if q then c.unmet ||| 9 else (c.unmet ||| 1) &&& 7
    done := if q then c.done &&& 6 else c.done &&& 14
    imgDb := if q then c.imgDb else 0 })
  let s2 := if (s1.chain i).st = .synth then
      s1.updChain i (fun c => if s1.loRuns i then { c with lock := .locked, settleAt := s.now, trans := none, unmet := c.unmet &&& 13 }
                              else { c with lock := .settling, settleAt := s.now, trans := none })
    else s1
  let s3 := if i < 32 then s2.each (s2.rxSlots i) (fun n a => a.authSlot n) else s2.authChain (i - 32)
  ((s3.cxRetune i).cxChainSync i).capAll

/-- One CHAIN_TUNE commits (R28, R42, R63). -/
def State.tuneOne (s : State) (i : Nat) (p : Pend) : State :=
  match p.desc with
  | .chainTune _ _ mode losel fw ifofs pdly =>
    let s1 := if i < 32 then s.updDcb i (fun d => { d with estI := 0, estQ := 0, range := false, tuned := d.tuned || decide (p.aux = 1) })
              else s.updTx (i - 32) (fun x => { x with pdly := pdly })
    if p.aux = 0 then s1.complete p .ok 0 0
    else
      let s2 := (s1.updPend p.id (fun q => { q with committed := true })).tuneApply i mode losel fw ifofs
      if (s2.chain i).st = .synth then s2 else s2.completeId p.id .ok 0 0
  | _ => s

/-- TUNING_COMMIT: at the first chain-grid boundary after acceptance (R63). -/
def State.tuningCommit (s0 : State) (i : Nat) : State :=
  let s := s0.chainSync i
  let due := s.pends (fun p => isChainTune i p && !p.committed && decide (p.acc < s.now))
  if s.onSmp chainBlk then due.foldl (fun a p => a.tuneOne i p) s else s

/-! ## Locks (R63, R67, R72) -/

/-- One chain of a settling LO is LOCKED (Tables 3-4, 3-7); `settleAt` keeps the instant. -/
def State.lockOne (s : State) (i : Nat) : State :=
  let s1 := s.updChain i (fun c => { c with lock := .locked, settleAt := s.now, unmet := c.unmet &&& 13, fail := c.fail &&& 13, done := c.done ||| 2 })
  match (s1.chain i).walk with
  | some (_, g) => if g = .synth ∧ (s1.chain i).trans = none then s1.walkStep i s1.now else s1
  | none => s1

/-- LOCK_REACHED: the LO or path of chain i locks; at the first chain-grid boundary after lock its tunes complete and its walk goes on (R63, R67). -/
def State.lockReached (s0 : State) (i : Nat) : State :=
  let s := s0.chainSync i
  let c := s.chain i
  if c.lock = .settling then
    if s.now ≤ c.settleAt + 160 * tus then
      s.each ((s.loChains i).filter (fun j => decide ((s.chainNow j).lock = .settling ∧ (s.chainNow j).fLo = c.fLo))) (fun j a => (a.chainSync j).lockOne j)
    else s
  else if decide (c.lock = .locked ∧ c.settleAt < s.now) && s.onSmp chainBlk then
    let s1 := s.completeAll (fun p => isChainTune i p && p.committed) .ok
    if c.trans = none then s1.walkStep i s1.now else s1
  else s

/-- LOCK becomes FAILED (Table 3-7). -/
def State.lockFailed (s : State) (i : Nat) : State :=
  s.updChain i (fun c => { c with lock := .failed, unmet := c.unmet ||| 2, fail := c.fail ||| 2, done := c.done &&& 13 })

/-- A walk upward of chain i ends TIMEOUT_LOCK, and what is held for RX_ON or TX_ON (R69, R72); `g` is the lowest target of a walk that fails. -/
def State.upFail (s : State) (i g : Nat) : State :=
  let s1 := match (s.chain i).walk with
    | some (_, t) => if g ≤ t.rank then s.walkFail i .timeoutLock else s
    | none => s
  s1.completeAll (fun p => isChainState i p && decide (p.aux = 0 ∧ 3 ≤ p.target.rank)) .timeoutLock

/-- LOCK_TIMEOUT: 160 µs without lock (R63, Table 3-4). -/
def State.lockTimeout (s0 : State) (i : Nat) : State :=
  let s := s0.chainSync i
  let c := s.chain i
  if c.lock = .settling ∧ c.settleAt + 160 * tus ≤ s.now then
    let s1 := (s.lockFailed i).raise (6 + chTile i) 3 (chScope i)
    ((s1.completeAll (fun p => isChainTune i p && p.committed) .timeoutLock).completeAll (isCalRun i) .timeoutLock).upFail i 2
  else s

/-- One chain of a lost LO (R72). -/
def State.lockLostOne (s0 : State) (i : Nat) : State :=
  let s := s0.chainSync i
  let s1 := s.raise (6 + chTile i) 3 (chScope i)
  let c := s1.chain i
  let down : Bool := match c.trans with | some (g, _) => decide (g = .standby) | none => false
  let s2 := (s1.updChain i (fun c => { c with trans := if down then c.trans else none, cal := none })).moveChain i .synth
  let s3 := s2.updChain i (fun c => { c with lock := .settling, settleAt := s.now })
  let s4 := (s3.completeAll (isCalRun i) .timeoutLock).upFail i 3
  if (s4.chain i).trans = none ∧ 3 ≤ c.st.rank then s4.walkStep i (s4.smpAtOrAfter chainBlk s4.now) else s4

/-- LOCK_LOST: the LO or converter path of chain i loses lock (R72). -/
def State.lockLost (s0 : State) (i : Nat) : State :=
  let s := s0.chainSync i
  let hit (j : Nat) : Bool := decide ((s.chainNow j).lock = .locked ∧ 2 ≤ (s.chainNow j).st.rank)
  if hit i then s.each ((s.loChains i).filter hit) (fun j a => a.lockLostOne j) else s

/-- A chain falls to STANDBY with its tile's converter clock (R59). -/
def State.ckDrop (s0 : State) (i : Nat) : State :=
  let s := s0.chainSync i
  if (s.chain i).st = .sleep then s
  else
    let s1 := (s.updChain i (fun c => { c with trans := none, cal := none })).moveChain i .standby
    let s2 := s1.lockFailed i
    let s3 := s2.walkFail i .timeoutLock
    s3.completeAll (fun p => isChainState i p || isChainTune i p || isCalRun i p) .timeoutLock

/-- REFERENCE_LOSS: CKk of the tiles lose lock, all four with the reference (R59). -/
def State.referenceLoss (s : State) (tiles : BitVec 4) (refLost : Bool) : State :=
  let m := if refLost then s.rfe.ckLocked else tiles &&& s.rfe.ckLocked
  let s1 := { s with rfe := { s.rfe with refOk := s.rfe.refOk && !refLost, ckLocked := s.rfe.ckLocked &&& ~~~m }, tim := { s.tim with tileOk := s.tim.tileOk &&& ~~~m } }
  s1.each ((List.range 4).filter (fun k => m.getLsbD k)) (fun k a =>
    (a.raise (6 + k) 4 (.tile k)).each ((List.range 64).filter (fun i => decide (chTile i = k))) (fun i b => b.ckDrop i))

/-- REFERENCE_RETURN: CKk of the tiles relock, and their buffers await the next frame edge (R59). -/
def State.referenceReturn (s : State) (tiles : BitVec 4) : State :=
  let m := tiles &&& ~~~s.rfe.ckLocked
  let s1 := { s with rfe := { s.rfe with refOk := true, ckLocked := s.rfe.ckLocked ||| m } }
  s1.each ((List.range 4).filter (fun k => m.getLsbD k)) (fun k a => a.updTile k (fun x => { x with realign := true }))

/-! ## CAL_RUN (R73-R75) -/

/-- Checks of CAL_RUN; from AUTUMN stage 2 on, no deadline can be met (Table 7-4). -/
def chkCalRun (ch dir mask : Byte) (s : State) : Checks :=
  let i := chIdxB dir ch
  let c := s.chainNow i
  let m := calMask c.quad mask
  { range := firstBad [(8, decide (ch.toNat < 32)), (9, decide (dir.toNat ≤ 1)), (0xA, decide (mask &&& 0xF2 = 0))]
    state := if c.st = .synth ∧ (c.lock = .locked ∨ c.lock = .settling) then none else refState
    worst := if 2 ≤ (s.tileT (chTile i)).stage then none else some (if m = 0 then 0 else ((s.calEnds (chTile i) [(i, maskMax m)]).getLast?.map (fun e => e.2)).getD 0) }

/-- A CAL_RUN is queued; `aux` holds the calibrations still to run. One that selects nothing is done (R74). -/
def startCalRun (p : Pend) (i : Nat) (mask : Byte) (s : State) : State :=
  let m := calMask (s.chainNow i).quad mask
  if m = 0 then s.complete p .ok 0 0 else s.updPend p.id (fun q => { q with aux := m })

/-- The calibration that runs next of a set: filter, offset, image. -/
def calFirst (m : Nat) : Nat := if m.testBit 2 then 2 else if m.testBit 0 then 0 else 3

/-- Chain i can be calibrated now. -/
def State.calReady (s : State) (i : Nat) : Bool :=
  let c := s.chainNow i
  decide (c.st = .synth ∧ c.lock = .locked ∧ c.trans = none ∧ c.cal = none)

/-- CAL_START: the oldest CAL_RUN of chain i starts at a chain-grid boundary, when no older one of the tile could take the free place (R74). -/
def State.calStart (s0 : State) (i : Nat) : State :=
  let s := s0.chainSync i
  let k := chTile i
  let q := s.pends (fun p => isTileCal k p && !p.committed && decide (p.acc < s.now))
  match q.find? (fun p => s.calReady p.calChain) with
  | some p =>
    if p.calChain = i ∧ s.onSmp chainBlk ∧ ((List.range 64).filter (fun j => decide (chTile j = k ∧ (s.chain j).cal ≠ none))).length < 4 then
      (s.updChain i (fun c => { c with cal := some (p.id, calFirst p.aux, s.now) })).updPend p.id (fun r => { r with committed := true, start := s.now })
    else s
  | none => s

/-- Whether a calibration passes (Table 3-6): the figure achieved decides for image and offset. -/
def calPassed (b : Nat) (pass : Bool) (figure : Byte) : Bool := if b = 3 then decide (60 ≤ figure.toNat) else if b = 0 then decide (70 ≤ figure.toNat) else pass

/-- A calibration's result enters CH_CAL, a failure CAL_FAIL (R74, R75). -/
def State.calResult (s : State) (i b : Nat) (ok : Bool) (figure : Byte) : State :=
  let m : BitVec 4 := BitVec.twoPow 4 b
  let s1 := s.updChain i (fun c => { c with
    imgDb := if b = 3 then figure else c.imgDb, resid := if b = 0 then figure else c.resid
    unmet := if ok then c.unmet &&& ~~~m else c.unmet, done := if ok then c.done ||| m else c.done, fail := if ok then c.fail &&& ~~~m else c.fail ||| m })
  if ok then s1 else s1.raise (6 + chTile i) 5 (chScope i)

/-- CAL_END: a calibration ends; the next of its CAL_RUN begins at once, or the CAL_RUN completes, and what was held on it may be refused (R74, R75). -/
def State.calEnd (s0 : State) (i : Nat) (pass : Bool) (figure : Byte) : State :=
  let s := s0.chainSync i
  match (s.chain i).cal with
  | some (id, b, t) =>
    if s.now ≤ t then s
    else
      let s1 := s.calResult i b (calPassed b pass figure) figure
      let left := ((s.pend? id).map (fun p => p.aux - 2 ^ b)).getD 0
      let s2 := s1.updPend id (fun p => { p with aux := left })
      if left ≠ 0 then s2.updChain i (fun c => { c with cal := some (id, calFirst left, s.now) })
      else
        let s3 := (s2.updChain i (fun c => { c with cal := none })).completeId id .ok 0 0
        if (s3.chain i).unmet ≠ 0 ∧ !s3.calCovers i then
          s3.completeAll (fun p => isChainState i p && decide (p.aux = 0 ∧ 3 ≤ p.target.rank)) .refusedState
        else s3
  | none => s

end Sys2Proof.Machine
end

