-- ==== Sys2Proof/Machine/Tdd.lean ====
section
/-! DEFINITION. TDD schedules (R77-R83): the guarded registers, acquisition and loss of the frame reference, period edges and turnarounds. -/

namespace Sys2Proof.Machine

/-- Chain i is in SLEEP or STANDBY. -/
def State.chainLow (s : State) (i : Nat) : Bool := decide ((s.chainNow i).st.rank ≤ 1)

/-- The chains that follow schedule t. -/
def State.followers (s : State) (t : Nat) : List Nat := (List.range 64).filter (fun i => decide ((s.chain i).sched = t + 1))

/-- Every chain that follows schedule t is in SLEEP or STANDBY. -/
def State.schedLow (s : State) (t : Nat) : Bool := (s.followers t).all s.chainLow

/-- A refused write marks a schedule (R77). -/
def State.wrBlock (s : State) (t : Nat) : State := s.updSched t (fun x => { x with wrBlocked := true })

/-- CH_CFG_WRITE: ROLE and TDD_SCHED of chain i; a TDD_SCHED of 5-7 is ignored (R77). -/
def State.chCfgWrite (s : State) (i : Nat) (v : Word) : State :=
  let t := bitsOf v 4 3
  let old := (s.chain i).sched
  if 4 < t then s
  else if s.chainLow i then s.updChain i (fun c => { c with role := bitsOf v 0 2, sched := t })
  else
    let s1 := if 1 ≤ old then s.wrBlock (old - 1) else s
    if 1 ≤ t then s1.wrBlock (t - 1) else s1

/-- SYNC after a write of SRC: OFF without a source, ACQUIRING with another one. -/
def Sched.withCfg (x : Sched) (v : Word) : Sched :=
  let b := if 6 ≤ bitsOf v 26 3 then bitsOf x.cfg 26 3 else bitsOf v 26 3
  let y := { x with cfg := (v &&& 0xE3FFF000) ||| word (b * 2 ^ 26) }
  if y.src = x.src then y
  else { y with sync := if y.src = 0 then .off else .acquiring, hits := 0, lastEv := none, donor := Ant.reset, service := Ant.reset }

/-- A TDD_TIM that keeps 0 < T1 < T2 < T3 < 200 (R82). -/
def timOk (v : Word) : Bool := decide (0 < bitsOf v 0 8 ∧ bitsOf v 0 8 < bitsOf v 8 8 ∧ bitsOf v 8 8 < bitsOf v 16 8 ∧ bitsOf v 16 8 < 200)

/-- The effect of a write to a register of a schedule, by its offset. -/
def Sched.write (x : Sched) (reg : Nat) (v : Word) : Sched :=
  if reg = 0 then x.withCfg v
  else if reg = 4 then (if bitsOf v 0 24 ≤ 9999999 then { x with ofs := v &&& 0x00FFFFFF } else x)
  else if reg = 8 then { x with side := v }
  else if reg = 0xC then (if timOk v then { x with tim := v &&& 0x00FFFFFF } else x)
  else if reg = 0x14 then { x with ssbf := v }
  else if 0x40 ≤ reg ∧ reg < 0xC0 ∧ reg % 4 = 0 then { x with pat := x.pat.set 0 ((reg - 0x40) / 4) (v &&& 0xC007FFFF) }
  else x

/-- The offsets of a schedule's writable registers. -/
def schedReg (reg : Nat) : Bool := decide (reg = 0 ∨ reg = 4 ∨ reg = 8 ∨ reg = 0xC ∨ reg = 0x14 ∨ (0x40 ≤ reg ∧ reg < 0xC0 ∧ reg % 4 = 0))

/-- TDD_REGISTER_WRITE (R77, R82, R96). -/
def State.tddRegWrite (s : State) (t reg : Nat) (v : Word) : State :=
  if !schedReg reg then s else if s.schedLow t then s.updSched t (fun x => x.write reg v) else s.wrBlock t

/-- The schedules that keep a TDDSW_CFG write from taking effect: those a changed pin names before and after it whose chains are not low (R96). -/
def State.tddswBlocks (s : State) (v : Word) : List Nat :=
  (List.range 4).filter (fun t => !s.schedLow t && (List.range 8).any (fun p =>
    decide (bitsOf v (4 * p) 4 ≠ bitsOf s.rfe.tddsw (4 * p) 4 ∧ (bitsOf v (4 * p) 2 = t ∨ bitsOf s.rfe.tddsw (4 * p) 2 = t))))

/-- TDDSW_CFG_WRITE (R96). -/
def State.tddswWrite (s : State) (v : Word) : State :=
  let bad := s.tddswBlocks v
  if bad.isEmpty then { s with rfe := { s.rfe with tddsw := v } } else s.each bad (fun t a => a.wrBlock t)

/-! ## The frame reference (R79, R80, Table 3-8) -/

/-- A difference of two times. -/
def absDiff (a b : Nat) : Nat := if a ≤ b then b - a else a - b

/-- SYNC becomes LOCKED at an event. -/
def Sched.lock (x : Sched) (now : Nat) : Sched :=
  let y := { x with sync := .locked, refEv := now, lastEv := some now, lockedAt := some now }
  if x.sync = .holdover then y else { y with donor := y.antAt false now, service := y.antAt true now }

/-- One FRAME_IN edge reaches a schedule of source 1. -/
def Sched.frameIn (x : Sched) (now : Nat) : Sched :=
  if x.src ≠ 1 then x
  else if x.sync = .locked then
    (match x.lastEv with
     | some t => if (absDiff (now - t) (10 * tms)) ≤ tus ∨ (absDiff (now - t) (20 * tms)) ≤ tus then { x with refEv := now, lastEv := some now } else x
     | none => { x with lastEv := some now })
  else match x.lastEv with
    | some t => if absDiff (now - t) (10 * tms) ≤ tus then x.lock now else { x with lastEv := some now }
    | none => { x with lastEv := some now }

/-- One detection reaches a schedule of source 2 or 3: the third in a row within 0.5 µs of prediction acquires. -/
def Sched.detect (x : Sched) (now : Nat) : Sched :=
  if x.src < 2 then x
  else
    let near (k : Nat) : Bool := match x.lastEv with | some t => decide (absDiff (now - t) (k * x.burst) ≤ 500 * tns) | none => false
    if x.sync = .locked then
      if near 1 || near 2 || near 3 then
        let frame := if x.src = 3 then 10 * tms else x.burst
        { x with lastEv := some now, refEv := if x.src = 3 ∧ tms < (now - x.refEv) % frame ∧ (now - x.refEv) % frame + tms < frame then x.refEv else now }
      else x
    else
      let h := if near 1 then x.hits + 1 else 1
      if 3 ≤ h then { x.lock now with hits := 0 } else { x with hits := h, lastEv := some now }

/-- The fades on the chains of a schedule's side follow its on-periods (R48, R119). -/
def State.sideSync (s : State) (t : Nat) (service : Bool) : State :=
  let l := (s.followers t).filter (fun i => decide (roleService (s.chain i).role = service))
  let s1 := s.each (l.filter (fun i => decide (i < 32))) (fun r a => a.each (a.rxSlots r) (fun n b => b.fadeSync n))
  s1.each ((s1.cx.filter (fun e => l.contains e.2.rx || l.contains (32 + e.2.tx))).map (fun e => e.1)) (fun i a => a.cxSeedSync i)

/-- What follows a schedule's switching on both sides, after a change of SYNC (R48, R80). -/
def State.schedSync (s : State) (t : Nat) : State := (s.sideSync t false).sideSync t true

/-- SYNC_DETECTION: on a receive chain that delivers samples. -/
def State.syncDetection (s : State) (t : Nat) : State :=
  if (s.chain (bitsOf (s.sched t).cfg 21 5)).st = .rxOn then (s.updSched t (fun x => x.detect s.now)).schedSync t else s

/-- The time by which the next event must have come, or synchronisation is lost. -/
def Sched.lostAt (x : Sched) : Option Nat :=
  x.lastEv.map (fun t => if x.src = 1 then t + 20 * tms + tus else t + 4 * x.burst + 500 * tns)

/-- SYNC_LOSS: HOLDOVER, LOSS_CNT, and the trigger in the scope of every transmit chain that follows the schedule (R80, R183). -/
def State.syncLoss (s : State) (t : Nat) : State :=
  let x := s.sched t
  let due := match x.lostAt with | some d => decide (d ≤ s.now) | none => false
  if decide (x.sync = .locked) && due then
    let s1 := s.updSched t (fun x => { x with sync := .holdover, lossCnt := satInc 0xFFFF x.lossCnt, hits := 0, lastEv := none, lossAt := some s.now, lockedAt := none })
    s1.each ((s1.followers t).filter (fun i => decide (32 ≤ i))) (fun i a => a.raise 13 9 (.tx (i - 32)))
  else s

/-! ## Turnarounds (R82) -/

/-- The schedule switches (R80). -/
def Sched.runs (x : Sched) : Bool := decide (x.sync = .locked ∨ x.sync = .holdover)

/-- One antenna of a schedule. -/
def Sched.antOf (x : Sched) (service : Bool) : Ant := if service then x.service else x.donor

/-- Change one antenna of a schedule. -/
def Sched.setAnt (x : Sched) (service : Bool) (a : Ant) : Sched := if service then { x with service := a } else { x with donor := a }

/-- A direction's periods end at this instant on a side. -/
def Sched.ends (x : Sched) (service up : Bool) (now : Nat) : Bool := x.dirOn service up ((now : Int) - 1) && !x.dirOn service up now

/-- TDD_PERIOD_EDGE: an edge of the pattern at one antenna; the end of its transmit or receive period gates that chain and starts the turnaround (Table 3-9, t = 0). The service side transmits in DL periods, the donor side in UL periods. -/
def State.tddPeriodEdge (s : State) (t : Nat) (service : Bool) : State :=
  let x := s.sched t
  if !x.runs then s
  else
    let a := x.antOf service
    let a1 := if x.ends service (!service) s.now then { a with txOpen := false, turn := some (true, s.now, 0) }
              else if x.ends service service s.now then { a with rxOpen := false, turn := some (false, s.now, 0) } else a
    (s.updSched t (fun y => y.setAnt service a1)).sideSync t service

/-- The instants of a turnaround's steps after its start, in ticks. -/
def turnAt (tim : Word) (k : Nat) : Nat :=
  match k with | 0 => bitsOf tim 0 8 * 4 * tns | 1 => bitsOf tim 8 8 * 4 * tns | 2 => bitsOf tim 16 8 * 4 * tns | _ => 800 * tns

/-- Step k of a turnaround (Table 3-9). -/
def Ant.stepTurn (a : Ant) (leaveTx : Bool) (k : Nat) : Ant :=
  match leaveTx, k with
  | true, 0 => { a with paOk := false }
  | true, 1 => { a with swTx := false }
  | true, 2 => { a with lnabHigh := false }
  | true, _ => { a with rxOpen := true }
  | false, 0 => { a with lnabHigh := true }
  | false, 1 => { a with swTx := true }
  | false, 2 => { a with paOk := true }
  | false, _ => { a with txOpen := true }

/-- TURNAROUND_STEP: the next step of a turnaround whose time has come. -/
def State.turnStep (s : State) (t : Nat) (service : Bool) : State :=
  let x := s.sched t
  let a := x.antOf service
  match a.turn with
  | some (l, t0, k) =>
    if x.runs && decide (t0 + turnAt x.tim k ≤ s.now) then
      s.updSched t (fun y => y.setAnt service { a.stepTurn l k with turn := if 3 ≤ k then none else some (l, t0, k + 1) })
    else s
  | none => s

/-- TDD_SYNC_LOSS_ENTRY: a chain enters WINTER at the next edge of its on-period after the loss, or 1 ms after it (R183). -/
def State.tddLossEntry (s : State) (c : Nat) : State :=
  let t := (s.chain (32 + c)).sched
  if t = 0 ∨ 4 < t then s
  else match (s.sched (t - 1)).lossAt with
    | some l =>
      let edge := s.onAt (32 + c) ((s.now : Int) - 1) != s.onAt (32 + c) s.now
      let last := (s.wobj (objChain c)).entries.get 0 5
      if decide (l < s.now ∧ (last = 0 ∨ last < l)) && (edge || decide (l + tms ≤ s.now)) then
        (s.winterSet (objChain c) 5 0).updObj (objChain c) (fun o => { o with entries := o.entries.set 0 5 s.now })
      else s
    | none => s

end Sys2Proof.Machine
end

