-- ==== Sys2Proof/Machine/Power.lean ====
section
/-! DEFINITION. Transmit power: the front-end buses (R86-R88), the power table and its steps (R89-R91), return loss, mismatch actions and the tuner search (R92-R95). -/

namespace Sys2Proof.Machine

/-! ## Buses (R86, R87) -/

/-- Ticks in an SCK period. -/
def Fecb.sck (b : Fecb) : Nat := 9375 * (max b.div 4 + 1)

/-- LEN of a chip select's template. -/
def Fecb.len (b : Fecb) (cs : Nat) : Nat := bitsOf (b.tmpl.get 0 cs) 16 2

/-- Length field of a frame: 0 8 bits, 1 16 bits, 2 24 bits. -/
def Frame.len (f : Frame) (b : Fecb) : Nat := match f.kind with | .raw _ l => l | _ => b.len f.cs

/-- Time on the bus of a frame of a length field, chip-select edges included. -/
def Fecb.frameTime (b : Fecb) (len : Nat) : Nat := (8 * (len + 1) + 2) * b.sck

/-- The bits of a frame around a code byte (R87). -/
def Fecb.build (b : Fecb) (cs code : Nat) : BitVec 24 :=
  let p := bitsOf (b.tmpl.get 0 cs) 0 16
  match b.len cs with | 0 => BitVec.ofNat 24 code | 1 => BitVec.ofNat 24 (p % 256 * 256 + code) | _ => BitVec.ofNat 24 (p * 256 + code)

/-- The bus of a transmit chain's PA and of its tuner (TX_MAP). -/
def TxCh.paBus (x : TxCh) (c : Nat) : Nat := 2 * (c / 8) + bitsOf x.map 1 1
/-- PA chip select. -/
def TxCh.paCs (x : TxCh) : Nat := bitsOf x.map 2 2
/-- PA codes go over FECB. -/
def TxCh.paFecb (x : TxCh) : Bool := x.map.getLsbD 0
/-- The tuner's bus. -/
def TxCh.tunBus (x : TxCh) (c : Nat) : Nat := 2 * (c / 8) + bitsOf x.map 16 1
/-- The tuner's chip select. -/
def TxCh.tunCs (x : TxCh) : Nat := bitsOf x.map 17 2
/-- PA_DLY in ticks. -/
def TxCh.paDly (x : TxCh) : Nat := bitsOf x.map 24 8 * 50 * tns

/-- How long a frame of a priority would wait on bus b: the frame in progress, its gap, and the queued frames of equal or higher priority (R87). -/
def State.busWait (s : State) (b prio : Nat) : Nat :=
  let f := s.fecb b
  let busy := match f.cur with | some (_, _, e) => (e - s.now) + f.gap * f.sck | none => f.freeAt - s.now
  busy + (f.queue.filter (fun q => decide (q.prio ≤ prio))).foldl (fun a q => a + f.frameTime (q.len f) + f.gap * f.sck) 0

/-- A DTIME operand in ns as a time: at present when it is past or 0 (R88). -/
def State.atTime (s : State) (v : Word64) : Nat := if v.toNat * tns ≤ s.dtTicks then s.now else s.now + (v.toNat * tns - s.dtTicks)

/-- Queue a frame on a bus. -/
def State.queueFrame (s : State) (b : Nat) (f : Frame) : State := s.updFecb b (fun x => { x with queue := x.queue ++ [f] })

/-- The frame that starts next among those whose time has come: highest priority, then first queued (R87). -/
def Fecb.pick (b : Fecb) (now : Nat) : Option Frame :=
  let l := b.queue.filter (fun f => decide (f.at_ ≤ now))
  l.foldl (fun a f => match a with
    | some g => if f.prio < g.prio ∨ (f.prio = g.prio ∧ f.at_ < g.at_) then some f else some g
    | none => some f) none

/-- Take the first occurrence of a frame off a queue. -/
def dropFrame (f : Frame) : List Frame → List Frame
  | [] => []
  | g :: r => if g = f then r else g :: dropFrame f r

/-! ## Power steps (R89-R91) -/

/-- The index that a committed step has set, or TX_PWR's (R91). -/
def TxCh.base (x : TxCh) : Nat := match x.steps.getLast? with | some p => p.index | none => x.index

/-- The index a step leads to from an index: a change is clamped to 0-127. -/
def PwrAsk.target (a : PwrAsk) (base : Nat) : Nat := match a with | .index i => i | .delta d => (clampI 0 127 ((base : Int) + d)).toNat

/-- Whether R95 or R182 forbids a raise to an index. -/
def State.raiseBarred (s : State) (c i : Nat) : Bool :=
  let x := s.txc c
  decide (2 ≤ x.level ∧ (match x.lowered with | some l => l | none => x.base) < i) || ((s.net c).oHold && decide (x.base < i))

/-- The first chain-rate sample after a time. -/
def State.sampleAfter (s : State) (t : Nat) : Nat := t + (chainSmp - (s.dtTicks + (t - s.now)) % chainSmp)

/-- The gain of a chain changes: TX_PWR, the latched entry, and what follows from it (R90, R91, R115, R391). A poisoned entry leaves the index in use (Table 11-5). -/
def State.applyPower (s : State) (c i : Nat) : State :=
  if s.wordPoisoned (testBase (6 + c / 8) c 7 + i) then s else
  let x := s.txc c
  let e := x.table.get 0 i
  let dExp := expOut e - expOut x.entry
  let s1 := s.updTx c (fun x => { x with pwr := cword (BitVec.ofNat 16 i), entry := e, kept := if dacM e = 0 then x.kept else some e })
  let s2 := (s1.cxRescale c (x.deltaK e) dExp).capAll
  if dExp ≠ 0 ∧ s.agrp (32 + c) ≠ 0 ∧ !(s.placements c).isEmpty then
    { s2 with jl := { s2.jl with dirty := true, raisesNew := if dExp < 0 ∨ s2.jl.raisesNew.contains c then s2.jl.raisesNew else s2.jl.raisesNew ++ [c] } }
  else s2

/-- A step that the device starts on its own (R93, R94, R182, R190): its frame is queued with its scheduled start, or it waits for a boundary. -/
def State.devStep (s : State) (c : Nat) (a : PwrAsk) : State :=
  let x := s.txc c
  if x.paFecb then
    let b := x.paBus c
    s.queueFrame b { prio := 0, chain := c, cs := x.paCs, kind := .power a, at_ := s.now, id := none, sched := some (s.now + s.busWait b 0) }
  else s.updTx c (fun x => { x with waiting := x.waiting ++ [(a, s.now, none)] })

/-- Steps of a chain accepted and not completed. -/
def isPowerStep (c : Nat) (p : Pend) : Bool := match p.desc with | .txPowerStep ch _ _ _ _ => decide (ch.toNat = c) | _ => false

/-- The index a new step is judged against (R91): its own in MODE 0; in MODE 1 from the highest of TX_PWR and what the accepted steps will set. -/
def State.judgedIndex (s : State) (c : Nat) (mode delta : Byte) (index : Word) : Nat :=
  if mode = 0 then bitsOf index 0 7
  else PwrAsk.target (.delta delta.toInt) ((s.pends (isPowerStep c)).foldl (fun a p => max a p.aux) (s.txc c).index)

/-- R149: the rise of EXP_OUT that the slots of a chain allow, in 0.01 dB. -/
def State.riseRoom (s : State) (c : Nat) : Option Int :=
  ((s.txSlots c).filter (fun n => decide ((s.slot n).st = .settling ∨ (s.slot n).st = .active))).foldl
    (fun a n => let r := ((s.gain n).cap - s.effShown n) * 5 + 300
                match a with | some m => some (min m r) | none => some r) none

/-- A raise is refused at acceptance (R95, R149, R182, R391). -/
def State.raiseRefused (s : State) (c i : Nat) : Bool :=
  let x := s.txc c
  let d := expOut (x.table.get 0 i) - expOut x.entry
  s.raiseBarred c i ||
  (decide (0 < d) && (match s.riseRoom c with | some r => decide (r < d) | none => false)) ||
  (decide (0 < d ∧ s.agrp (32 + c) ≠ 0) && !(s.placements c).isEmpty &&
    (decide (300 < d) || s.jl.raises.any (fun e => decide (e.1 = c)) || s.jl.raisesNew.contains c))

/-- The time until a frame asked for at a time has ended on a bus, or none when the queue is full (R87). -/
def State.frameWorst (s : State) (b prio len at_ : Nat) : Option Nat :=
  if 16 ≤ (s.fecb b).queue.length then none else some (max (at_ - s.now) (s.busWait b prio) + (s.fecb b).frameTime len)


/-- Checks of TX_POWER_STEP, MODE 0 and 1. -/
def chkTxPowerStep (ch mode delta : Byte) (index : Word) (at_ : Word64) (s : State) : Checks :=
  let c := ch.toNat
  let x := s.txc c
  let t := s.atTime at_
  { range := firstBad [(8, decide (c < 32)), (9, decide (mode.toNat ≤ 1)), (0xA, decide (mode = 0 ∨ delta ≠ 0x80)),
      (0xC, decide (mode = 1) || (cwordOk index && decide ((lowHalf index).toNat ≤ 127)))]
    state := if s.raiseRefused c (s.judgedIndex c mode delta index) then refState else none
    worst := if x.paFecb then (s.frameWorst (x.paBus c) 0 ((s.fecb (x.paBus c)).len x.paCs) t).map (fun w => w + x.paDly + chainSmp)
             else some (s.nextSmp chainBlk - s.now + (t - s.now) + chainSmp) }

/-- A TX_POWER_STEP queues its frame, or waits for its boundary (R91). `aux` keeps the index it was judged by. -/
def startTxPowerStep (p : Pend) (c : Nat) (mode delta : Byte) (index : Word) (at_ : Word64) (s : State) : State :=
  let x := s.txc c
  let t := s.atTime at_
  let a : PwrAsk := if mode = 0 then .index (bitsOf index 0 7) else .delta delta.toInt
  let others := { s with hif := { s.hif with outstanding := s.hif.outstanding.filter (fun q => decide (q.id ≠ p.id)) } }
  let s1 := s.updPend p.id (fun q => { q with aux := others.judgedIndex c mode delta index })
  if x.paFecb then s1.queueFrame (x.paBus c) { prio := 0, chain := c, cs := x.paCs, kind := .power a, at_ := t, id := some p.id, sched := none }
  else s1.updTx c (fun x => { x with waiting := x.waiting ++ [(a, t, some p.id)] })

/-- A power-table entry's DAC gain is at most 1.0 and not negative (R90). -/
def dacOk (e : Word64) : Bool := !(e.getLsbD 19) && decide (dacM e * 2 ^ dacE e ≤ 2 ^ 51)

/-- The 128 entries in 256 words of host memory. -/
def tableOf (ws : List Word) : List Word64 := (List.range 128).map (fun i => ws.getD (2 * i + 1) 0 ++ ws.getD (2 * i) 0)

/-- A table passes R90. -/
def tableOk (ws : List Word) : Bool :=
  let l := tableOf ws
  decide (ws.length = 256) && l.all dacOk && (List.range 127).all (fun i => decide (expOut (l.getD i 0) ≤ expOut (l.getD (i + 1) 0)))

/-- Checks of TX_POWER_STEP, MODE 2. -/
def chkTxPowerTableLoad (ch : Byte) : Checks :=
  { range := firstBad [(8, decide (ch.toNat < 32))], state := none, worst := some (200 * tus) }

/-- A table load of a chain. -/
def isTableLoad (c : Nat) (p : Pend) : Bool := match p.desc with | .txPowerTableLoad ch _ _ => decide (ch.toNat = c) | _ => false

/-- POWER_TABLE_COMMIT: the oldest checked table becomes the chain's; the entry in use stays (R90). -/
def State.tableCommit (s : State) (c : Nat) : State :=
  match (s.pends (isTableLoad c)).head? with
  | some p => match p.desc with
    | .txPowerTableLoad _ _ (.words ws) =>
      let l := tableOf ws
      ((s.updTx c (fun x => { x with table := (List.range 128).foldl (fun t i => Tab.set t 0 i (l.getD i 0)) x.table })).memWritten (testBase (6 + c / 8) c 7)).complete p .ok (s.txc c).pwr 0
    | _ => s
  | none => s

/-! ## Tuner and raw frames (R88, R95) -/

/-- A tuner search runs on a chain (VSWR_STAT.SEARCH). -/
def TxCh.searching (x : TxCh) : Bool := decide (x.search ≠ none)

/-- Checks of TUNER_SET, KIND 0. -/
def chkTunerSet (chain : Byte) (at_ : Word64) (s : State) : Checks :=
  let c := chain.toNat
  let x := s.txc c
  { range := firstBad [(9, decide (c < 32))]
    state := if x.searching then refState else none
    worst := s.frameWorst (x.tunBus c) 1 ((s.fecb (x.tunBus c)).len x.tunCs) (s.atTime at_) }

/-- A TUNER_SET queues its frame. -/
def startTunerSet (p : Pend) (c : Nat) (w : Byte) (at_ : Word64) (s : State) : State :=
  let x := s.txc c
  s.queueFrame (x.tunBus c) { prio := 1, chain := c, cs := x.tunCs, kind := .tuner w, at_ := s.atTime at_, id := some p.id, sched := none }

/-- A chip select is mapped as the PA of a chain in TX_ON (R88). -/
def State.paInUse (s : State) (b cs : Nat) : Bool :=
  (List.range 32).any (fun c => let x := s.txc c
    x.paFecb && decide ((s.chain (32 + c)).st = .txOn ∧ x.paBus c = b ∧ x.paCs = cs))

/-- Checks of TUNER_SET, KIND 1. -/
def chkTunerSetRaw (bus cs len : Byte) (at_ : Word64) (s : State) : Checks :=
  { range := firstBad [(0xB, decide (bus.toNat ≤ 7)), (0xC, decide (cs.toNat ≤ 3)), (0xD, decide (len.toNat ≤ 2))]
    state := if s.paInUse bus.toNat cs.toNat then refState else none
    worst := s.frameWorst bus.toNat 2 len.toNat (s.atTime at_) }

/-- A raw TUNER_SET queues its frame. -/
def startTunerSetRaw (p : Pend) (bus cs len : Byte) (raw : Word) (at_ : Word64) (s : State) : State :=
  s.queueFrame bus.toNat { prio := 2, chain := 0, cs := cs.toNat, kind := .raw (raw.extractLsb' 0 24) len.toNat, at_ := s.atTime at_, id := some p.id, sched := none }

/-! ## Frames on the bus -/

/-- The code byte of a frame that starts, and for a power step the index it commits. -/
def State.frameBits (s : State) (b : Nat) (f : Frame) : BitVec 24 × Option Nat :=
  let x := s.txc f.chain
  match f.kind with
  | .power a => let i := a.target x.base
                ((s.fecb b).build f.cs (bitsOf (x.table.get 0 i) 26 6), some i)
  | .tuner w => ((s.fecb b).build f.cs w.toNat, none)
  | .raw bits _ => (bits, none)

/-- FECB_FRAME_START: the next frame starts; a power step commits here, or is refused because a raise is barred; a late device frame raises FECB_LATE (R87, R91). -/
def State.frameStart (s : State) (b : Nat) : State :=
  let f := s.fecb b
  match f.cur, f.pick s.now with
  | none, some q =>
    if s.now < f.freeAt then s
    else
      let s1 := s.updFecb b (fun x => { x with queue := dropFrame q x.queue })
      let fb := s.frameBits b q
      let barred := match fb.2, q.id with | some i, some _ => s.raiseBarred q.chain i | _, _ => false
      if barred then (match q.id with | some id => s1.completeId id .refusedState 0 0 | none => s1)
      else
        let e := s.now + f.frameTime (q.len f)
        let s2 := s1.updFecb b (fun x => { x with cur := some (q, fb.1, e) })
        let s3 := match q.id with | some id => s2.updPend id (fun p => { p with committed := true, start := s.now }) | none => s2
        let s4 := match fb.2 with
          | some i => s3.updTx q.chain (fun x => { x with steps := x.steps ++ [{ index := i, at_ := s.sampleAfter (e + x.paDly), id := q.id }] })
          | none => s3
        match q.sched with
        | some t => if t < s.now then s4.raise (6 + b / 2) 7 (.tile (b / 2)) else s4
        | none => s4
  | _, _ => s

/-- FECB_FRAME_END: the frame is over; a tuner or raw frame completes, a raw one with its SDI bits (R86-R88). -/
def State.frameEnd (s : State) (b : Nat) (sdi : BitVec 24) : State :=
  let f := s.fecb b
  match f.cur with
  | some (q, _, e) =>
    if s.now < e then s
    else
      let s1 := s.updFecb b (fun x => { x with cur := none, freeAt := e + x.gap * x.sck })
      match q.kind with
      | .power _ => s1
      | .tuner w =>
        let s2 := s1.updTx q.chain (fun x => { x with tuner := w })
        (match q.id with | some id => s2.completeId id .ok 0 0 | none => s2)
      | .raw _ l => (match q.id with | some id => s1.completeId id .ok (word (sdi.toNat % 2 ^ (8 * (l + 1)))) 0 | none => s1)
  | none => s

/-- POWER_STEP_APPLY: the oldest committed step whose sample has come changes the gain; a step without a frame commits at the chain-grid boundary at or after AT and has its sample after that boundary (R91). -/
def State.powerApply (s : State) (c : Nat) : State :=
  let x := s.txc c
  match x.steps with
  | p :: r =>
    if p.at_ ≤ s.now then
      let s1 := (s.updTx c (fun x => { x with steps := r })).applyPower c p.index
      (match p.id with | some id => s1.completeId id .ok (s1.txc c).pwr 0 | none => s1)
    else s
  | [] =>
    match x.waiting.find? (fun w => decide (w.2.1 ≤ s.now)) with
    | some w =>
      if s.onSmp chainBlk then
        let i := w.1.target x.base
        let s1 := s.updTx c (fun x => { x with waiting := x.waiting.erase w })
        let s2 := s1.updTx c (fun x => { x with steps := [{ index := i, at_ := s.sampleAfter s.now, id := w.2.2 }] })
        match w.2.2 with
        | some id => if s.raiseBarred c i then s1.completeId id .refusedState 0 0
                     else s2.updPend id (fun p => { p with committed := true, start := s.now })
        | none => s2
      else s
    | none => s

/-! ## Aerial mismatch (R92-R95) -/

/-- Thresholds of VSWR_CFG in 0.01 dB. -/
def TxCh.alertTh (x : TxCh) : Int := bitsOf x.vswrCfg 16 8 * 10
/-- STEP_TH. -/
def TxCh.stepTh (x : TxCh) : Int := bitsOf x.vswrCfg 8 8 * 10
/-- WINTER_TH. -/
def TxCh.winterTh (x : TxCh) : Int := bitsOf x.vswrCfg 0 8 * 10
/-- COUPLING. -/
def TxCh.coupling (x : TxCh) : Int := bitsOf x.vswrCfg 24 8 * 25

/-- Queue a frame of a tuner search. -/
def State.searchFrame (s : State) (c : Nat) (w : Nat) : State :=
  let x := s.txc c
  let b := x.tunBus c
  s.queueFrame b { prio := 1, chain := c, cs := x.tunCs, kind := .tuner (BitVec.ofNat 8 w), at_ := s.now, id := none, sched := some (s.now + s.busWait b 1) }

/-- The word of trial k (R94). -/
def trialWord (k coarse : Nat) : Nat := if k < 16 then 16 * k + 8 else 16 * coarse + (k - 16)

/-- A step condition: the index goes down by 12, and a search starts when a tuner is fitted and none started within 10 s (R93, R94). -/
def State.vswrStep (s : State) (c : Nat) : State :=
  let x := s.txc c
  let low := PwrAsk.target (.delta (-12)) x.base
  let s1 := (s.updTx c (fun x => { x with lowered := some low, runStep := 0 })).devStep c (.delta (-12))
  let free := match x.lastSearch with | some t => decide (t + 10 * tsec ≤ s.now) | none => true
  if x.map.getLsbD 15 && free && s.le.libRunning then
    (s1.updTx c (fun x' => { x' with search := some { trial := 0, bestWord := 0, bestRl := none, coarse := 0, restore := x.base }, lastSearch := some s.now })).searchFrame c (trialWord 0 0)
  else s1

/-- A VSWR WINTER ends a search at once, with the best word found so far (R95). -/
def State.searchStop (s : State) (c : Nat) : State :=
  match (s.txc c).search with
  | some q =>
    let s1 := s.updTx c (fun x => { x with search := none })
    if q.bestRl = none then s1 else s1.searchFrame c q.bestWord
  | none => s

/-- A window that counts, with whether it is good and its RL (R93). -/
def State.vswrCount (s : State) (c : Nat) (good : Bool) (rl : Int) : State :=
  let x := s.txc c
  let ra := if good then 0 else x.runAlert + 1
  let rs := if good ∨ x.stepTh ≤ rl then 0 else x.runStep + 1
  let rw := if good ∨ x.winterTh ≤ rl then 0 else x.runWinter + 1
  let rg := if good then x.runGood + 1 else 0
  let up := if 2 ≤ rw then 3 else if 50 ≤ rs then 2 else if 50 ≤ ra then 1 else 0
  let lvl := if 50 ≤ rg then 0 else max x.level up
  let s1 := s.updTx c (fun x => { x with runAlert := ra, runStep := rs, runWinter := rw, runGood := rg, level := lvl, lowered := if lvl < 2 then none else x.lowered })
  let s2 := if x.level = 0 ∧ 1 ≤ lvl then s1.raise (6 + c / 8) 6 (.tx c) else s1
  let s3 := if 50 ≤ rs ∧ !x.searching then s2.vswrStep c else s2
  if 2 ≤ rw then (((s3.updTx c (fun x => { x with runWinter := 0 })).searchStop c).raise 13 8 (.tx c)).winterSet (objChain c) 4 0 else s3

/-- VSWR_WINDOW: one 20 µs window (R92). Powers in 0.01 dB. -/
def State.vswrWindow (s : State) (c : Nat) (whole : Bool) (psum prfl : Int) : State :=
  let x := s.txc c
  let fwd := expOut x.entry + psum
  let rl := fwd - (prfl + x.coupling)
  let seen := whole && decide ((s.chain (32 + c)).st = .txOn) && s.onNow (32 + c) && !s.txMuted c && decide (-4000 ≤ psum)
  let s1 := s.updTx c (fun x => { x with pSum := psum })
  if !seen then s1
  else if prfl < -3500 then (if x.alertTh ≤ fwd - x.coupling + 3500 then s1.vswrCount c true x.alertTh else s1)
  else if 500 < prfl then s1
  else (s1.updTx c (fun x => { x with rlValid := true, rl := rl })).vswrCount c (decide (x.alertTh ≤ rl)) rl

/-- TUNER_SEARCH_TRIAL: the two windows of a trial gave a return loss; the next trial starts, or the search ends (R94). -/
def State.searchTrial (s : State) (c : Nat) (rl : Int) : State :=
  let x := s.txc c
  let f := s.fecb (x.tunBus c)
  let own (q : Frame) : Bool := decide (q.chain = c ∧ q.prio = 1)
  let sent := !f.queue.any own && !(match f.cur with | some (q, _, _) => own q | none => false)
  match x.search with
  | some q =>
    if !sent then s
    else
      let better := match q.bestRl with | some b => decide (b < rl) | none => true
      let w := if better then trialWord q.trial q.coarse else q.bestWord
      let r := if better then rl else q.bestRl.getD rl
      if q.trial < 31 then
        let co := if q.trial = 15 then w / 16 else q.coarse
        (s.updTx c (fun x => { x with search := some { q with trial := q.trial + 1, bestWord := w, bestRl := some r, coarse := co } })).searchFrame c (trialWord (q.trial + 1) co)
      else
        let s1 := (s.updTx c (fun x => { x with search := none })).searchFrame c w
        if x.alertTh ≤ r then (s1.updTx c (fun x => { x with lowered := some q.restore })).devStep c (.index q.restore) else s1
  | none => s

end Sys2Proof.Machine
end

