-- ==== Sys2Proof/Machine/Protect.lean ====
section
/-! DEFINITION. Network protection (chapter 6): parameters, the triggers OSC, NRISE, DONOR_LOSS, OOBE and TEMP (R178-R184), entering and releasing WINTER with the proofs of the mute mechanisms (R190-R199). -/

namespace Sys2Proof.Machine

/-! ## Parameters (R185, Table 6-5) -/

/-- Default of a parameter; ATTACH has its own rule. -/
def paramDefault (p : Nat) : Int :=
  match p with | 0 => 16 | 1 => 3 | 2 => 100 | 3 => 179 | 4 => 30 | 5 => -32768 | 6 => -800 | 7 => 450 | 8 => 100 | _ => 0

/-- PR_PARAM: the value in force of parameter p of object j (R185). -/
def State.param (s : State) (p j : Nat) : Int :=
  if p = 9 ∧ !s.prot.attachSet.get false j then (match (s.chain j).role with | 2 => 1 | 0 => 2 | _ => 0)
  else s.prot.params.get (paramDefault p) (32 * p + j)

/-- A value lies in a parameter's range. -/
def paramOk (p : Nat) (v : Int) : Bool :=
  match p with
  | 0 => decide (4 ≤ v ∧ v ≤ 64) | 1 => decide (1 ≤ v ∧ v ≤ 3) | 2 => decide (60 ≤ v ∧ v ≤ 200) | 3 => decide (128 ≤ v ∧ v ≤ 243)
  | 4 => decide (10 ≤ v ∧ v ≤ 100) | 5 => decide ((-1400 ≤ v ∧ v ≤ -300) ∨ v = -32768) | 6 => decide (-1200 ≤ v ∧ v ≤ -300)
  | 7 => decide (200 ≤ v ∧ v ≤ 700) | 8 => decide (85 ≤ v ∧ v ≤ 105) | _ => decide (0 ≤ v ∧ v ≤ 3)

/-- The objects of a parameter's kind: the device for TEMP_HI, else 32 chains. -/
def paramObjs (p : Nat) : Nat := if p = 8 then 1 else 32

/-- Checks of PROT_CONFIG, KIND 0. -/
def chkProtConfig (param object : Byte) (value : Word) : Checks :=
  let p := param.toNat
  { range := firstBad [(9, decide (p ≤ 9)), (0xA, decide (object.toNat < paramObjs p ∨ object = 0xFF)), (0xC, paramOk p value.toInt)]
    state := none, worst := some 0 }

/-- Set one parameter of one object. -/
def State.setParam (s : State) (p j : Nat) (v : Int) : State :=
  { s with prot := { s.prot with params := s.prot.params.set (paramDefault p) (32 * p + j) v,
                                 attachSet := if p = 9 then s.prot.attachSet.set false j true else s.prot.attachSet } }

/-- A PROT_CONFIG takes effect (R185). -/
def startProtConfig (p : Pend) (param object : Byte) (value : Word) (s : State) : State :=
  let n := param.toNat
  let l := if object = 0xFF then List.range (paramObjs n) else [object.toNat]
  (s.each l (fun j a => a.setParam n j value.toInt)).complete p .ok 0 0

/-! ## Triggers -/

/-- A slot's receive passband overlaps bin k of the line test: k - 25 in 11.52 MHz (R178). -/
def Slot.overBin (x : Slot) (bin : Nat) : Bool :=
  let c : Int := ((bin : Int) - 25) * 11520000
  let h : Int := (x.bw : Int) * 5000
  decide (x.rxfreq - h < c + 5760000 ∧ c - 5760000 < x.rxfreq + h)

/-- OSC on one slot: the occurrence, its WINTER, and LATCH at the third entry in 600 s (R178, R197); `inj` marks an injected one (R331). -/
def State.oscEntry (s : State) (n : Nat) (inj : Bool) : State :=
  let was := (s.wobj n).cause.getLsbD 0
  let s1 := (s.raiseI 13 3 (.slot n) inj).winterSet n 0 0
  let times := ((s1.wobj n).oscTimes.filter (fun t => decide (s1.now - t ≤ 600 * tsec)))
  if !was && decide (3 ≤ times.length) then
    (if (s1.wobj n).cause.getLsbD 14 then s1.winterSet n 14 0 else (s1.raiseI 13 14 (.slot n) inj).winterSet n 14 0)
  else s1

/-- OSC on one slot, detected on chain r (R178). -/
def State.oscSlot (s : State) (r n : Nat) : State :=
  (s.oscEntry n false).updObj n (fun o => { o with oscBy := if o.oscBy.contains r then o.oscBy else o.oscBy ++ [r] })

/-- OSC_WINDOW: one window of a receive chain's detector (R178). -/
def State.oscWindow (s : State) (r : Nat) (w : OscMeas) : State :=
  if (s.chain r).st ≠ .rxOn ∨ !w.onPeriod then s
  else
    let mode := s.param 1 r
    let line := decide (mode % 2 = 1 ∧ s.param 2 r ≤ w.rise ∧ -600 ≤ w.binDbfs) && w.halfShare
    let own := s.rxSlots r
    let act := own.filter (fun n => decide ((s.slot n).st = .active))
    let ovl := act.filter (fun n => (s.slot n).overBin w.bin.val)
    let lineSet := if !line then [] else if ovl.isEmpty then own else ovl
    let lagSet := if 2 ≤ mode ∧ -600 ≤ w.powerDbfs then
        ((w.lagSlots.filter (fun e => decide (s.param 3 r ≤ (e.2.val : Int)) && act.contains e.1.val)).map (fun e => e.1.val))
      else []
    let hit := own.filter (fun n => lineSet.contains n || lagSet.contains n)
    let det := line || !lagSet.isEmpty
    let s1 := s.updRxDet r (fun d => { d with
      rho := min 255 w.rho.val, bin := if line then w.bin.val else d.bin
      detCnt := if det then satInc 0xFFFF d.detCnt else d.detCnt, lastDet := if det then some s.now else d.lastDet })
    s1.each hit (fun n a => a.oscSlot r n)

/-- BRIDGE_REOPEN: the bridge of net A ends at its boundary (R174). -/
def State.bridgeReopen (s : State) (c : Nat) : State :=
  match (s.net c).bridge with
  | some t => if t ≤ s.now then s.updNet c (fun x => { x with bridge := none }) else s
  | none => s

/-- REF of NRISE in 0.01 dBFS: the parameter, or the learned mean (R180). -/
def State.nriseRef (s : State) (r : Nat) : Option Int := if s.param 5 r = -32768 then (s.rxDet r).nRef else some (s.param 5 r * 10)

/-- A sample of the floor while the reference is learned: 60 s from the first ACTIVE slot (R180). -/
def RxDet.learn (d : RxDet) (active : Bool) (f : Int) : RxDet :=
  if d.nRef ≠ none ∨ (!active ∧ d.nN = 0) then d
  else
    let n := d.nN + 1
    let t := d.nSum + f
    if 60000 ≤ n then { d with nN := n, nSum := t, nRef := some (divNearest 4 t n), learning := false } else { d with nN := n, nSum := t, learning := true }

/-- A step of NRISE (R180): clamps 3 dB down, or WINTER after the fourth. -/
def State.nriseStep (s : State) (r : Nat) : State :=
  let k := (s.rxDet r).nStep
  let s1 := s.updRxDet r (fun d => { d with nStep := k + 1, nRun := 0 })
  if k < 4 then
    let s2 := s1.each (s1.rxSlots r) (fun n a =>
      a.updGain n (fun g => { g with nrise := some (max (-1200) ((match g.nrise with | some v => if k = 0 then a.effShown n else v | none => a.effShown n) - 60)) }))
    let s3 := s2.capAll
    if k = 0 then s3.raise 13 5 (.rx r) else s3
  else s1.each (s1.rxSlots r) (fun n a => a.winterSet n 1 0)

/-- NRISE_EVAL: the floor of one millisecond, in 0.01 dBFS (R180). -/
def State.nriseEval (s : State) (r : Nat) (f : Int) : State :=
  let act := (s.rxSlots r).any (fun n => decide ((s.slot n).st = .active))
  if s.param 9 r % 2 = 0 ∨ (s.chain r).st ≠ .rxOn ∨ !act then s
  else
    let s1 := s.updRxDet r (fun d => d.learn act f)
    match s1.nriseRef r with
    | none => s1
    | some ref =>
      let th := s.param 4 r * 10
      let x := f - ref
      let s2 := s1.updRxDet r (fun d => { d with rise := x, nRun := if th < x then d.nRun + 1 else 0, nGood := if x ≤ th - 100 then d.nGood + 1 else 0 })
      let d := s2.rxDet r
      if 1000 ≤ d.nGood ∧ d.nStep ≠ 0 then
        let s3 := s2.updRxDet r (fun d => { d with nStep := 0, nRun := 0 })
        (s3.each (s3.rxSlots r) (fun n a => (a.updGain n (fun g => { g with nrise := none })).clearCause n 1)).capAll
      else if 100 ≤ d.nRun ∧ d.nStep < 5 then s2.nriseStep r
      else s2

/-- The downlink slots that DONOR_LOSS watches for a group (R181). -/
def State.dlWatch (s : State) (g : Nat) : List Nat :=
  s.heldSlots.filter (fun n => decide ((s.slot n).st = .active ∧ (s.slot n).group = some g ∧ 2 ≤ s.param 9 (n / 8)))

/-- The slots of a group whose destination is an uplink transmit chain. -/
def State.dlVictims (s : State) (g : Nat) : List Nat :=
  s.heldSlots.filter (fun n => decide ((s.slot n).group = some g) && (match (s.slot n).txDest with | some c => roleUp (s.chain (32 + c)).role | none => false))

/-- A group in the PROT block. -/
def State.group (s : State) (g : Nat) : Group := s.prot.groups.get Group.reset g
/-- Change a group. -/
def State.updGroup (s : State) (g : Nat) (f : Group → Group) : State := { s with prot := { s.prot with groups := s.prot.groups.upd Group.reset g f } }

/-- DONOR_LOSS_EVAL: one millisecond of slot powers in 0.1 dBFS, on-period samples only (R181). -/
def State.donorLossEval (s : State) (g : Nat) (powers : List (Fin 256 × Int)) : State :=
  let seen := (s.dlWatch g).filterMap (fun n => (powers.find? (fun e => decide (e.1.val = n))).map (fun e => (n, e.2 - s.param 6 (n / 8))))
  if seen.isEmpty then s
  else
    let low := seen.all (fun e => decide (e.2 < 0))
    let s1 := s.updGroup g (fun x => { x with
      lowMs := if low then satInc 0xFFFF x.lowMs else 0
      good := seen.foldl (fun t e => t.set 0 e.1 (if 30 ≤ e.2 ∧ x.lost then t.get 0 e.1 + 1 else 0)) x.good })
    let x := s1.group g
    if x.lost then
      if x.good.any (fun e => decide (1000 ≤ e.2)) then
        (s1.updGroup g (fun x => { x with lost := false, good := [] })).each (s1.dlVictims g) (fun n a => a.clearCause n 2)
      else s1
    else if 50 ≤ x.lowMs then
      (s1.updGroup g (fun x => { x with lost := true, good := [] })).each (s1.dlVictims g) (fun n a => (a.raise 13 6 (.slot n)).winterSet n 2 0)
    else s1

/-- OOBE_WINDOW: the ACLR and power of each routed slot in one 20 µs window, in 0.01 dB (R182). -/
def State.oobeWindow (s : State) (c : Nat) (slots : List (Fin 256 × Int × Int)) : State :=
  let x := s.net c
  if s.txMuted c then s.updNet c (fun x => { x with oGood := none })
  else
    let on := decide ((s.chain (32 + c)).st = .txOn) && s.onNow (32 + c)
    let l := slots.filter (fun e => on && (s.txSlots c).contains e.1.val && decide (-4000 ≤ e.2.2))
    match l with
    | [] => s
    | e :: r =>
      let m := r.foldl (fun a e => min a e.2.1) e.2.1
      let th := s.param 7 c * 10
      let run := if m < th then x.oRun + 1 else 0
      let good := if !x.oHold ∨ m < th + 300 then none else (match x.oGood with | some t => some t | none => some s.now)
      let done := match good with | some t => decide (tsec ≤ s.now - t) | none => false
      let s1 := s.updNet c (fun x => { x with aclr := m, oRun := run, oGood := if done then none else good, oHold := x.oHold && !done, oSteps := if done then 0 else x.oSteps })
      if run < 50 then s1
      else
        let s2 := s1.updNet c (fun x => { x with oRun := 0 })
        if x.oSteps < 3 then
          let s3 := (s2.updNet c (fun x => { x with oSteps := x.oSteps + 1, oHold := true })).devStep c (.delta (-4))
          if x.oSteps = 0 then s3.raise 13 7 (.tx c) else s3
        else s2.winterSet (objChain c) 3 0

/-- The object that a sensor mutes by TEMP_CRIT (R184). -/
def sensorObj (k : Nat) : Nat := if k < 4 then objTile k else objDevice

/-- TEMP_SAMPLE, in 0.1 °C (R184, GEN_TEMP). -/
def State.tempSample (s : State) (k : Nat) (t : Int) : State :=
  let hiTh := s.param 8 0
  let was := s.prot.temps.any (fun e => decide (hiTh * 10 ≤ e.2))
  let s1 := { s with prot := { s.prot with temps := s.prot.temps.set 0 k t } }
  let s2 := if decide (hiTh * 10 ≤ t) && !was then s1.raise 13 11 .device else s1
  let o := sensorObj k
  let inForce := (s2.wobj o).cause.getLsbD 7 && !(s2.wobj o).cleared.getLsbD 7
  if 1100 ≤ t ∧ !inForce then (s2.raise 13 12 (objScope o)).winterSet o 7 0
  else if t ≤ 1000 then s2.clearCause o 7
  else s2

/-! ## Causes that clear by time (Table 6-7) -/

/-- The scope object of a command. -/
def scopeOf : WScope → Nat
  | .slot n => n.val | .chain n => objChain n.val | .tile k => objTile k.val | .device => objDevice

/-- Whether the condition of a timed cause has cleared on an object. -/
def State.causeOver (s : State) (i cause : Nat) : Bool :=
  let o := s.wobj i
  let since := o.entries.get 0 cause
  match cause with
  | 0 => o.oscBy.all (fun r => match (s.rxDet r).lastDet with | some t => decide (t + tsec ≤ s.now) | none => true)
  | 3 => decide (since + tsec ≤ s.now)
  | 4 => decide (since + tsec ≤ s.now)
  | 5 => match (s.chain (32 + (i - 256))).sched with
    | 0 => false
    | t + 1 => decide ((s.sched t).sync = .locked) && (match (s.sched t).lockedAt with | some a => decide (a + tsec ≤ s.now) | none => false)
  | _ => false

/-- CAUSE_CLEAR_TIMER (R190). -/
def State.causeClear (s : State) (i cause : Nat) : State := if s.causeOver i cause then s.clearCause i cause else s

/-! ## Entering WINTER (R191) -/

/-- The object of SCOPE and INDEX. -/
def scopeObj (scope index : Byte) : Nat :=
  match scope.toNat with | 0 => index.toNat | 1 => objChain index.toNat | 2 => objTile index.toNat | _ => objDevice

/-- INDEX is in the range of SCOPE. -/
def indexOk (scope index : Byte) : Bool :=
  match scope.toNat with | 0 => true | 1 => decide (index.toNat < 32) | 2 => decide (index.toNat < 4) | _ => true

/-- Checks of WINTER_ENTER. -/
def chkWinterEnter (scope index : Byte) : Checks :=
  { range := firstBad [(8, decide (scope.toNat ≤ 3)), (9, indexOk scope index)], state := none, worst := some (394 * tns) }

/-- A WINTER_ENTER takes effect at acceptance (R191). -/
def startWinterEnter (p : Pend) (scope index : Byte) (reason : Half) (s : State) : State := (s.winterSet (scopeObj scope index) 9 reason).complete p .ok 0 0

/-! ## Proofs (R192-R194) -/

/-- The result of a chain proof: net A, net B (R192). A failure is NET_PROOF in chain scope; a pass marks it cleared (R194, R195). -/
def State.chainProof (s : State) (c : Nat) (a b : Bool) : State :=
  let s1 := (s.updNet c (fun x => { x with proofA := a, proofB := b, proofAt := some s.now })).updObj (objChain c) (fun o => { o with proofOk := a && b })
  if a && b then s1.clearCause (objChain c) 13 else (s1.raise 13 13 (.tx c)).winterSet (objChain c) 13 0

/-- Chain proofs of a list of chains by masks. -/
def State.chainProofs (s : State) (l : List Nat) (a b : Word) : State := s.each l (fun c x => x.chainProof c (a.getLsbD c) (b.getLsbD c))

/-- The tile proofs of a list of tiles: PROOF_OK of each tile is that of its eight chains (R192, PW_INFO). -/
def State.tileProofs (s : State) (l : List Nat) (a b : Word) : State :=
  s.each l (fun k x => (x.chainProofs (objTx (objTile k)) a b).updObj (objTile k) (fun o => { o with proofOk := (objTx (objTile k)).all (fun c => a.getLsbD c && b.getLsbD c) }))

/-- NET_READBACK: the read-back of every 900 s (R194). -/
def State.netReadback (s : State) (following complOk : Word) : State :=
  if s.now < s.prot.readbackAt + 899 * tsec then s
  else
    let s1 := { s with prot := { s.prot with readbackAt := s.now } }
    s1.each (List.range 32) (fun c a =>
      let b := if following.getLsbD c then a else (a.raise 13 13 (.tx c)).winterSet (objChain c) 13 0
      if complOk.getLsbD c then b else b.raise 13 0 (.tx c))

/-! ## Release (R195-R199) -/

/-- PW_CAUSE of an object. -/
def State.pwCause (s : State) (i : Nat) : Word := cword (s.wobj i).cause

/-- A release is not refused (R195). -/
def State.releasable (s : State) (i : Nat) (ovr : Bool) : Bool :=
  let o := s.wobj i
  let free : Half := if ovr then 0x6200 else 0x2200
  decide (o.cause &&& ~~~o.cleared &&& ~~~free = 0) &&
  (match o.age with | some t => decide (t + tsec ≤ s.now) | none => true) &&
  (!o.cause.getLsbD 0 || (match o.oscAge with | some t => decide (t + 5 * tsec ≤ s.now) | none => true))

/-- The proof time of a scope (R196). -/
def proofTime (i : Nat) : Nat := if i < 256 then 2 * tus else if i < 292 then tms else 4 * tms

/-- The worst case of a release: its proof and the chain-grid boundary after it (R196, R220). -/
def releaseWorst (i : Nat) : Nat := proofTime i + chainBlk

/-- Checks of WINTER_RELEASE. -/
def chkWinterRelease (scope index ovr : Byte) (s : State) : Checks :=
  let i := scopeObj scope index
  { range := firstBad [(8, decide (scope.toNat ≤ 3)), (9, indexOk scope index), (0xA, decide (ovr.toNat ≤ 1))]
    state := if s.inWinter i && !s.releasable i (decide (ovr = 1)) then some { st := .refusedState, res := s.pwCause i, res2 := 0 } else none
    worst := some (if s.inWinter i then releaseWorst i else 0) }

/-- A WINTER_RELEASE begins its proof, or has no effect (R195, R196). -/
def startWinterRelease (p : Pend) (i : Nat) (s : State) : State :=
  if !s.inWinter i then s.complete p .ok (s.pwCause i) 0
  else if (s.wobj i).release = none then s.updObj i (fun o => { o with release := some { id := p.id, since := s.now, passed := false } })
  else s

/-- A WINTER_RELEASE of an object. -/
def isRelease (i : Nat) (p : Pend) : Bool := match p.desc with | .winterRelease sc ix _ => decide (scopeObj sc ix = i) | _ => false

/-- Every release of an object ends with a status and PW_CAUSE as RESULT. -/
def State.endReleases (s : State) (i : Nat) (st : Status) : State :=
  (s.pends (isRelease i)).foldl (fun a p => a.complete p st (a.pwCause i) 0) (s.updObj i (fun o => { o with release := none }))

/-- RELEASE_PROOF_END: the proof of the object's mechanisms ends; its result stands in the masks by chain, and for a slot in bit 0 (R193, R196). -/
def State.releaseProof (s : State) (i : Nat) (a b : Word) : State :=
  match (s.wobj i).release with
  | some r =>
    if r.passed ∨ s.now ≤ r.since then s
    else
      let l := objTx i
      let ok := if i < 256 then a.getLsbD 0 && b.getLsbD 0 else l.all (fun c => a.getLsbD c && b.getLsbD c)
      let s1 := (if i < 288 then s.chainProofs l a b else s.tileProofs (if i < 292 then [i - 288] else List.range 4) a b).updObj i (fun o => { o with proofOk := ok })
      if ok then s1.updObj i (fun o => { o with release := o.release.map (fun q => { q with passed := true, since := s.now }) })
      else
        let s2 := if i < 256 then (s1.raise 13 13 (.slot i)).winterSet i 13 0 else s1
        s2.endReleases i .winterActive
  | none => s

/-- What leaving WINTER does to a transmit chain: the unmute edges (R198) and the interrupt source TXn mute (Table 10-1). -/
def State.txLeaves (s : State) (c : Nat) : State := (s.updNet c (fun x => { x with unmute := some s.now })).irqEdge (320 + c)

/-- What leaving the last WINTER does to a slot (R160, R199, R200). -/
def State.slotLeaves (s : State) (n : Nat) (osc : Bool) : State :=
  let o := osc || (s.gain n).oscHeld
  (s.updGain n (fun g => { g with oscHeld := false, bankB := (s.lut g.lutset).activeB })).gainRestart n o

/-- PW_CAUSE of an object clears: its record, what it released of chains and slots, the hold of OOBE, the restart after VSWR, and LATCH (R182, R190, R196-R199). -/
def State.releaseObj (s : State) (i : Nat) (ovr : Bool) : State :=
  let o := s.wobj i
  let slots := (s.objSlots i).filter s.slotMuted
  let txs := (objTx i).filter s.txMuted
  let s1 := s.updObj i (fun o => { o with cause := 0, cleared := 0, faultBy := [], oscBy := [], overBy := [], release := none, oscTimes := if ovr then [] else o.oscTimes })
  let s2 := s1.record 0x201 1 0x0D true (fld 0 (objCode i).1 + fld 1 (objCode i).2 + fld 2 (bit ovr) + fld 4 o.cause.toNat)
  let s3 := s2.each (txs.filter (fun c => !s2.txMuted c)) (fun c a => a.txLeaves c)
  let s4 := s3.each slots (fun n a => if a.slotMuted n then a.updGain n (fun g => { g with oscHeld := g.oscHeld || o.cause.getLsbD 0 }) else a.slotLeaves n (o.cause.getLsbD 0))
  if 256 ≤ i ∧ i < 288 then
    let c := i - 256
    let s5 := if o.cause.getLsbD 3 then s4.updNet c (fun x => { x with oHold := false, oSteps := 0, oRun := 0, oGood := none }) else s4
    if o.cause.getLsbD 4 then s5.devStep c (.delta (-12)) else s5
  else s4

/-- RELEASE_COMMIT: the chain-grid boundary after a passed proof (R196). A cause set anew since acceptance prevails. -/
def State.releaseCommit (s : State) (i : Nat) : State :=
  match (s.wobj i).release with
  | some r =>
    if r.passed ∧ r.since < s.now ∧ s.onSmp chainBlk then
      let ovr := (s.pends (isRelease i)).any (fun p => match p.desc with | .winterRelease _ _ o => decide (o = 1) | _ => false)
      if s.releasable i ovr then (s.releaseObj i ovr).endReleases i .ok else s.endReleases i .winterActive
    else s
  | none => s

end Sys2Proof.Machine
end

