-- ==== Sys2Proof/Machine/Timing.lean ====
section
/-! DEFINITION. Timing (chapter 7): frame edges and realignment (R207-R209), missed deadlines (R211), slack and AUTUMN (R212-R216), the core supply request (R217, R440). -/

namespace Sys2Proof.Machine

/-- Ticks in a 10 ms frame. -/
def frameTk : Nat := 10 * tms

/-- The offset of the present instant from the aligned frame grid, in ticks, between minus and plus half a frame. -/
def State.frameOfs (s : State) : Int :=
  ((s.dtTicks : Int) - s.tim.framePh + frameTk / 2) % frameTk - frameTk / 2

/-- FRAME_DRIFT concerns all four tiles at once: one occurrence with four scopes (R208, R225). -/
def State.frameDrift (s : State) : State :=
  let s1 := s.raise 5 5 (.tile 0)
  s1.each [1, 2, 3] (fun k a =>
    let b := a.updFsrc 85 (fun x => { x with scopes := a.addScope x.scopes (.tile k) })
    if (b.fsrc 85).level = 3 then b.faultWinter State.record 85 (.tile k) else b)

/-- FRAME_IN_EDGE: the schedules of source 1 (R79); the alignment that waits for a pair of edges 10 ms apart (R207); drift from the aligned grid (R208). -/
def State.frameInEdge (s : State) : State :=
  let pair := match s.tim.frameIn with | some t => decide (absDiff (s.now - t) frameTk ≤ tus ∧ s.tst.stageAt ≤ t) | none => false
  let s1 := s.each (List.range 4) (fun t a => (a.updSched t (fun x => x.frameIn s.now)).schedSync t)
  let s2 := { s1 with tim := { s1.tim with frameIn := some s.now } }
  if s.tim.align = 1 then
    if pair && s.tst.straps.casMaster && decide (s.tim.srcUsed = 0) then { s2 with tim := { s2.tim with srcUsed := 2, framePh := s.dtTicks % frameTk } } else s2
  else if s.tim.align = 2 then
    let o := s.frameOfs
    let s3 := { s2 with tim := { s2.tim with edgeCnt := (s2.tim.edgeCnt + 1) % 65536, ferr := o * 2 / (tns : Int) } }
    if 20 * tns < o.natAbs then s3.frameDrift else s3
  else s2

/-- FRAME_EDGE: an aligned frame edge drives FRAME_OUT and raises the FRAME source (R374, Table 10-1). -/
def State.frameEdge (s : State) : State :=
  if s.tim.align = 2 ∧ s.tim.dtRun ∧ s.frameOfs = 0 then ({ s with tim := { s.tim with frameOut := some s.now } }).irqEdge 23 else s

/-- TILE_REALIGN: at a frame edge the buffers of a tile that waits are realigned (R59, R208). -/
def State.tileRealign (s : State) (k : Nat) : State :=
  if (s.tileT k).realign && s.rfe.ckLocked.getLsbD k && decide (s.tim.align = 2 ∧ s.frameOfs = 0) then
    (({ s with tim := { s.tim with tileOk := s.tim.tileOk ||| BitVec.twoPow 4 k } }).updTile k (fun x => { x with realign := false, rxSlip := 0, txSlip := 0 }))
  else s

/-- ELASTIC_BUFFER_SLIP: a pointer distance outside 4-60 (R209). -/
def State.bufferSlip (s : State) (i distance : Nat) : State :=
  if 4 ≤ distance ∧ distance ≤ 60 then s
  else
    let k := chTile i
    let m : Byte := BitVec.twoPow 8 (i % 8)
    let s1 := { s with tim := { s.tim with tileOk := s.tim.tileOk &&& ~~~(BitVec.twoPow 4 k) } }
    (s1.updTile k (fun x => { x with rxSlip := if i < 32 then x.rxSlip ||| m else x.rxSlip, txSlip := if i < 32 then x.txSlip else x.txSlip ||| m, realign := true })).raise 5 3 (.tile k)

/-- The tile whose up-converter takes the zeros of a missed block, the tile whose datapath missed, and the source and scope (R211, R122). -/
def State.missOf (s : State) : MissLevel → Nat × Nat × Nat × Nat × FScope
  | .slot n => ((match (s.slot n).txDest with | some c => c / 8 | none => n.val / 64), n.val / 64, 10, 3, .slot n)
  | .rx n => (n / 8, n / 8, 10, 3, .rx n)
  | .tx n => (n / 8, n / 8, 10, 3, .tx n)
  | .estimate i => ((s.inst i).rx / 8, (s.inst i).rx / 8, 11, 5, .rx (s.inst i).rx)

/-- DEADLINE_MISS: the zeroed block, its DEADLINE source, and the slack of 0 that puts the tile into WINTER (R211, R214). -/
def State.deadlineMiss (s : State) (l : MissLevel) : State :=
  let m := s.missOf l
  let s1 := s.updTile m.1 (fun x => { x with zbCnt := satInc 0xFFFF x.zbCnt })
  let s2 := s1.raise m.2.2.1 m.2.2.2.1 m.2.2.2.2
  let was := (s2.tileT m.2.1).slackDp
  let s3 := s2.updTile m.2.1 (fun x => { x with slackDp := 0, slackAll := 0, goodAt := none, dpGoodAt := none })
  if 2 ≤ was then s3.raise 5 2 (.tile m.2.1) else s3

/-- The least report of a list, or a default where there is none. -/
def leastOr (d : Nat) (l : List Nat) : Nat := match l with | [] => d | x :: r => r.foldl min x

/-- One sensor's report (R212, R213). -/
def Slack.report (x : Slack) (pct : Nat) (miss : Bool) : Slack := { now := pct, min := Nat.min x.min pct, miss := x.miss || miss }

/-- Sensor i's register state. -/
def State.slackOf (s : State) (i : Nat) : Slack := s.tim.slack.get Slack.reset i

/-- SLACK_CHECK: one chain-grid block's reports of a tile meet the thresholds (R213-R215). -/
def State.slackCheck (s : State) (k : Nat) (reports : List (Fin 64 × Fin 101 × Bool)) : State :=
  if !s.onSmp chainBlk then s
  else
    let x := s.tileT k
    let all := leastOr x.slackAll (reports.map (fun r => r.2.1.val))
    let dp := leastOr x.slackDp ((reports.filter (fun r => decide (r.1.val < 56))).map (fun r => r.2.1.val))
    let tab := reports.foldl (fun t r => Tab.upd t Slack.reset (64 * k + r.1.val) (fun y => y.report r.2.1.val (r.2.2 && decide (r.1.val < 56)))) s.tim.slack
    let since (ok : Bool) (o : Option Nat) : Option Nat := if !ok then none else match o with | some t => some t | none => some s.now
    let enter := decide (x.stage = 0 ∧ all < 8)
    let s1 := { s with tim := { s.tim with slack := tab, vidLow := s.tim.vidLow || decide (all < 20), vidHigh := s.tim.vidHigh && decide (40 ≤ all) } }
    let s2 := s1.updTile k (fun x => { x with
      slackAll := all, slackDp := dp, goodAt := since (decide (12 ≤ all)) x.goodAt, dpGoodAt := since (decide (8 ≤ dp)) x.dpGoodAt
      stage := if enter then 1 else x.stage, stageAt := if enter then s.now else x.stageAt, autCnt := if enter then satInc 0xFFFF x.autCnt else x.autCnt })
    let s3 := if all < 20 ∧ 20 ≤ x.slackAll then s2.raise 5 0 .device else s2
    let s4 := if enter then s3.raise 5 1 .device else s3
    if dp < 2 ∧ 2 ≤ x.slackDp then s4.raise 5 2 (.tile k) else s4

/-- AUTUMN_STAGE_ADVANCE: at the end of each millisecond of a stage (R215). -/
def State.autumnAdvance (s : State) (k : Nat) : State :=
  let x := s.tileT k
  if 1 ≤ x.stage ∧ x.stage < 3 ∧ x.stageAt < s.now ∧ (s.now - x.stageAt) % tms = 0 ∧ x.slackAll < 8 then
    s.updTile k (fun x => { x with stage := x.stage + 1, stageAt := s.now })
  else s

/-- AUTUMN_EXIT: 100 ms at 12 percent or more (R216). -/
def State.autumnExit (s : State) (k : Nat) : State :=
  let x := s.tileT k
  match x.goodAt with
  | some t => if 1 ≤ x.stage ∧ t + 100 * tms ≤ s.now then s.updTile k (fun x => { x with stage := 0, stageAt := s.now }) else s
  | none => s

/-- VID_FIXED clamped (R217). -/
def Tim.vidClamped (x : Tim) : Nat := min x.vidCeil (max x.vidFloor x.vidFixed)

/-- VID_RAISE: a multiple of 1,000,000 ns; the fixed code applies, or the request rises (R217). -/
def State.vidRaise (s : State) : State :=
  if !s.onGrid tms || decide (s.tst.stage ≤ 1) then s
  else
    let x := s.tim
    let s1 := { s with tim := { x with vidLow := false, vidNow := if x.vidMode then x.vidClamped else if x.vidLow ∧ x.vidNow < x.vidCeil then x.vidNow + 1 else min x.vidNow x.vidCeil } }
    if !x.vidMode && x.vidLow && decide (x.vidCeil ≤ x.vidNow) then s1.raise 5 6 .device else s1

/-- VID_LOWER: a multiple of 1,000,000,000 ns; the request falls (R217). -/
def State.vidLower (s : State) : State :=
  if !s.onGrid tsec || decide (s.tst.stage ≤ 1) then s
  else
    let x := s.tim
    { s with tim := { x with vidHigh := true, vidNow := if !x.vidMode && x.vidHigh && decide (x.vidFloor < x.vidNow) then x.vidNow - 1 else x.vidNow } }

/-- GEN_VID_WRITE (R440). -/
def State.genVidWrite (s : State) (v : Word) : State :=
  let c := bitsOf v 24 6
  { s with tim := { s.tim with vidMode := v.getLsbD 31, vidCeil := if s.tim.vidFloor ≤ c ∧ c ≤ 40 then c else s.tim.vidCeil, vidFixed := bitsOf v 8 6 } }

/-- TIM_SLACK_CLR (R224). -/
def State.timSlackClr (s : State) (v : Word) : State :=
  if v.getLsbD 0 then
    { s with tim := { s.tim with slack := s.tim.slack.foldl (fun t e => Tab.set t Slack.reset e.1 { e.2 with min := 100, miss := false }) s.tim.slack } }
  else s

end Sys2Proof.Machine
end

