-- ==== Sys2Proof/Machine/Uskihar.lean ====
section
/-! DEFINITION. The Uskihar instruction set (R231-R236): instructions, their 32-bit words, and the arithmetic of general registers and block-floating vectors. -/

namespace Sys2Proof.Machine

/-! ## Instructions (Tables 8-3, 8-4) -/

/-- Three-register operations, by FN 0x00-0x0F. -/
inductive ROp where | add | sub | and_ | or_ | xor_ | sll | srl | sra | mul | mulh | slt | sltu | min_ | max_ | adds | subs
deriving DecidableEq, Repr
/-- One-operand operations, FN 0x10-0x12. -/
inductive R1Op where | clz | lg2 | ex2
deriving DecidableEq, Repr
/-- Immediate operations. -/
inductive IOp where | addi | andi | ori | xori | slti | ldw | stw | ldh | sth | jalr
deriving DecidableEq, Repr
/-- Shifts by an immediate. -/
inductive ShOp where | slli | srli | srai
deriving DecidableEq, Repr
/-- Branches. -/
inductive BOp where | beq | bne | blt | bge | bltu | bgeu
deriving DecidableEq, Repr
/-- Port instructions. -/
inductive POp where | prd | pwr | prdc | pwrc
deriving DecidableEq, Repr
/-- Vector operations of two sources. -/
inductive VOp where | vadd | vsub | vmul | vcmul | vcmulj | vdot
deriving DecidableEq, Repr
/-- Vector operations of one source. -/
inductive V1Op where | vener | vmov
deriving DecidableEq, Repr

/-- A Uskihar instruction. -/
inductive UIns where
  | r (op : ROp) (gd ga gb : Reg)
  | r1 (op : R1Op) (gd ga : Reg)
  | i (op : IOp) (gd ga : Reg) (imm : BitVec 18)
  | lui (gd : Reg) (imm : BitVec 18)
  | sh (op : ShOp) (gd ga : Reg) (n : BitVec 5)
  | b (op : BOp) (ga gb : Reg) (ofs : BitVec 18)
  | jal (ofs : BitVec 26)
  | p (op : POp) (g gi : Reg) (paddr : Half)
  | v (op : VOp) (vd va vb : VReg)
  | v1 (op : V1Op) (vd va : VReg)
  | vshx (vd va : VReg) (gb : Reg)
  | vext (gd : Reg) (va : VReg) (lane : Fin 16) (frac : BitVec 5)
  | vins (vd : VReg) (ga : Reg) (lane : Fin 16) (frac : BitVec 5)
  | vld (vd : VReg) (ga : Reg) (imm : BitVec 19)
  | vst (vd : VReg) (ga : Reg) (imm : BitVec 19)
  | nop
  | wait
  | trap
deriving DecidableEq, Repr

/-- FN of a three-register operation. -/
def ROp.fn : ROp → Nat
  | .add => 0 | .sub => 1 | .and_ => 2 | .or_ => 3 | .xor_ => 4 | .sll => 5 | .srl => 6 | .sra => 7 | .mul => 8 | .mulh => 9 | .slt => 10
  | .sltu => 11 | .min_ => 12 | .max_ => 13 | .adds => 14 | .subs => 15
/-- The operation of an FN. -/
def rOp (n : Nat) : Option ROp :=
  match n with
  | 0 => some .add | 1 => some .sub | 2 => some .and_ | 3 => some .or_ | 4 => some .xor_ | 5 => some .sll | 6 => some .srl | 7 => some .sra
  | 8 => some .mul | 9 => some .mulh | 10 => some .slt | 11 => some .sltu | 12 => some .min_ | 13 => some .max_ | 14 => some .adds | 15 => some .subs
  | _ => none
/-- FN of a one-operand operation. -/
def R1Op.fn : R1Op → Nat | .clz => 0x10 | .lg2 => 0x11 | .ex2 => 0x12
/-- OP of an immediate operation. -/
def IOp.op : IOp → Nat
  | .addi => 1 | .andi => 2 | .ori => 3 | .xori => 4 | .slti => 5 | .ldw => 0x10 | .stw => 0x11 | .ldh => 0x12 | .sth => 0x13 | .jalr => 0x1F
/-- The immediate operation of an OP. -/
def iOp (n : Nat) : Option IOp :=
  match n with
  | 1 => some .addi | 2 => some .andi | 3 => some .ori | 4 => some .xori | 5 => some .slti | 0x10 => some .ldw | 0x11 => some .stw | 0x12 => some .ldh
  | 0x13 => some .sth | 0x1F => some .jalr | _ => none
/-- OP of a shift. -/
def ShOp.op : ShOp → Nat | .slli => 7 | .srli => 8 | .srai => 9
/-- The shift of an OP. -/
def shOp (n : Nat) : Option ShOp := match n with | 7 => some .slli | 8 => some .srli | 9 => some .srai | _ => none
/-- OP of a branch. -/
def BOp.op : BOp → Nat | .beq => 0x18 | .bne => 0x19 | .blt => 0x1A | .bge => 0x1B | .bltu => 0x1C | .bgeu => 0x1D
/-- The branch of an OP. -/
def bOp (n : Nat) : Option BOp :=
  match n with | 0x18 => some .beq | 0x19 => some .bne | 0x1A => some .blt | 0x1B => some .bge | 0x1C => some .bltu | 0x1D => some .bgeu | _ => none
/-- OP of a port instruction. -/
def POp.op : POp → Nat | .prd => 0x20 | .pwr => 0x21 | .prdc => 0x22 | .pwrc => 0x23
/-- The port instruction of an OP. -/
def pOp (n : Nat) : Option POp := match n with | 0x20 => some .prd | 0x21 => some .pwr | 0x22 => some .prdc | 0x23 => some .pwrc | _ => none
/-- FN of a vector operation. -/
def VOp.fn : VOp → Nat | .vadd => 0 | .vsub => 1 | .vmul => 2 | .vcmul => 3 | .vcmulj => 4 | .vdot => 5
/-- The vector operation of an FN. -/
def vOp (n : Nat) : Option VOp :=
  match n with | 0 => some .vadd | 1 => some .vsub | 2 => some .vmul | 3 => some .vcmul | 4 => some .vcmulj | 5 => some .vdot | _ => none
/-- The complex products name even registers only (R232). -/
def VOp.pairs : VOp → Bool | .vcmul => true | .vcmulj => true | _ => false

/-- The word of an instruction as a number (Table 8-3). -/
def UIns.enc : UIns → Nat
  | .r op gd ga gb => gd.val * 2 ^ 22 + ga.val * 2 ^ 18 + gb.val * 2 ^ 14 + op.fn
  | .r1 op gd ga => gd.val * 2 ^ 22 + ga.val * 2 ^ 18 + op.fn
  | .i op gd ga imm => op.op * 2 ^ 26 + gd.val * 2 ^ 22 + ga.val * 2 ^ 18 + imm.toNat
  | .lui gd imm => 6 * 2 ^ 26 + gd.val * 2 ^ 22 + imm.toNat
  | .sh op gd ga n => op.op * 2 ^ 26 + gd.val * 2 ^ 22 + ga.val * 2 ^ 18 + n.toNat
  | .b op ga gb ofs => op.op * 2 ^ 26 + ga.val * 2 ^ 22 + gb.val * 2 ^ 18 + ofs.toNat
  | .jal ofs => 0x1E * 2 ^ 26 + ofs.toNat
  | .p op g gi a => op.op * 2 ^ 26 + g.val * 2 ^ 22 + gi.val * 2 ^ 18 + a.toNat
  | .v op vd va vb => 0x30 * 2 ^ 26 + vd.val * 2 ^ 23 + va.val * 2 ^ 20 + vb.val * 2 ^ 17 + op.fn
  | .v1 .vener vd va => 0x30 * 2 ^ 26 + vd.val * 2 ^ 23 + va.val * 2 ^ 20 + 6
  | .v1 .vmov vd va => 0x30 * 2 ^ 26 + vd.val * 2 ^ 23 + va.val * 2 ^ 20 + 8
  | .vshx vd va gb => 0x30 * 2 ^ 26 + vd.val * 2 ^ 23 + va.val * 2 ^ 20 + gb.val * 2 ^ 13 + 7
  | .vext gd va lane frac => 0x32 * 2 ^ 26 + gd.val * 2 ^ 22 + va.val * 2 ^ 19 + lane.val * 2 ^ 15 + frac.toNat * 2 ^ 10
  | .vins vd ga lane frac => 0x33 * 2 ^ 26 + vd.val * 2 ^ 23 + ga.val * 2 ^ 19 + lane.val * 2 ^ 15 + frac.toNat * 2 ^ 10
  | .vld vd ga imm => 0x34 * 2 ^ 26 + vd.val * 2 ^ 23 + ga.val * 2 ^ 19 + imm.toNat
  | .vst vd ga imm => 0x35 * 2 ^ 26 + vd.val * 2 ^ 23 + ga.val * 2 ^ 19 + imm.toNat
  | .nop => 0x3F * 2 ^ 26
  | .wait => 0x3F * 2 ^ 26 + 1
  | .trap => 0x3F * 2 ^ 26 + 2

/-- The encoding exists: complex products name even registers. -/
def UIns.wf : UIns → Bool
  | .v op vd va vb => !op.pairs || decide (vd.val % 2 = 0 ∧ va.val % 2 = 0 ∧ vb.val % 2 = 0)
  | _ => true

/-- Field [lo+3:lo] as a general register. -/
def regAt (w lo : Nat) : Reg := ⟨w / 2 ^ lo % 16, Nat.mod_lt _ (by decide)⟩
/-- Field [lo+2:lo] as a vector register. -/
def vregAt (w lo : Nat) : VReg := ⟨w / 2 ^ lo % 8, Nat.mod_lt _ (by decide)⟩

/-- OP 0x00: FN chooses; CLZ has GB 0, LG2 and EX2 do not read it. -/
def decR (w : Nat) : Option UIns :=
  if w / 64 % 256 ≠ 0 then none
  else match w % 64 with
    | 0x10 => if w / 2 ^ 14 % 16 = 0 then some (.r1 .clz (regAt w 22) (regAt w 18)) else none
    | 0x11 => some (.r1 .lg2 (regAt w 22) (regAt w 18))
    | 0x12 => some (.r1 .ex2 (regAt w 22) (regAt w 18))
    | n => (rOp n).map (fun o => .r o (regAt w 22) (regAt w 18) (regAt w 14))

/-- OP 0x30: FN chooses; fields not read are 0. -/
def decV (w : Nat) : Option UIns :=
  if w / 64 % 128 ≠ 0 then none
  else
    let gb0 := decide (w / 2 ^ 13 % 16 = 0)
    let vb0 := decide (w / 2 ^ 17 % 8 = 0)
    match w % 64 with
    | 6 => if gb0 && vb0 then some (.v1 .vener (vregAt w 23) (vregAt w 20)) else none
    | 7 => if vb0 then some (.vshx (vregAt w 23) (vregAt w 20) (regAt w 13)) else none
    | 8 => if gb0 && vb0 then some (.v1 .vmov (vregAt w 23) (vregAt w 20)) else none
    | n => match vOp n with
      | some o => if gb0 && UIns.wf (.v o (vregAt w 23) (vregAt w 20) (vregAt w 17)) then some (.v o (vregAt w 23) (vregAt w 20) (vregAt w 17)) else none
      | none => none

/-- The instruction of a word; none traps ILLEGAL (R232). -/
def uDecode (w : Nat) : Option UIns :=
  match w / 2 ^ 26 % 64 with
  | 0 => decR w
  | 6 => if w / 2 ^ 18 % 16 = 0 then some (.lui (regAt w 22) (BitVec.ofNat 18 w)) else none
  | 0x1E => some (.jal (BitVec.ofNat 26 w))
  | 0x30 => decV w
  | 0x32 => if w % 1024 = 0 then some (.vext (regAt w 22) (vregAt w 19) (regAt w 15) (BitVec.ofNat 5 (w / 2 ^ 10))) else none
  | 0x33 => if w % 1024 = 0 then some (.vins (vregAt w 23) (regAt w 19) (regAt w 15) (BitVec.ofNat 5 (w / 2 ^ 10))) else none
  | 0x34 => some (.vld (vregAt w 23) (regAt w 19) (BitVec.ofNat 19 w))
  | 0x35 => some (.vst (vregAt w 23) (regAt w 19) (BitVec.ofNat 19 w))
  | 0x3F => if w / 64 % 256 ≠ 0 then none else (match w % 64 with | 0 => some .nop | 1 => some .wait | 2 => some .trap | _ => none)
  | o =>
    match iOp o with
    | some x => some (.i x (regAt w 22) (regAt w 18) (BitVec.ofNat 18 w))
    | none =>
      match shOp o with
      | some x => if w / 32 % 8192 = 0 then some (.sh x (regAt w 22) (regAt w 18) (BitVec.ofNat 5 w)) else none
      | none =>
        match bOp o with
        | some x => some (.b x (regAt w 22) (regAt w 18) (BitVec.ofNat 18 w))
        | none =>
          match pOp o with
          | some x => if w / 2 ^ 16 % 4 = 0 then some (.p x (regAt w 22) (regAt w 18) (BitVec.ofNat 16 w)) else none
          | none => none

/-! ## Integer arithmetic (R232, R233) -/

/-- A word saturated to the signed range. -/
def satWord (x : Int) : Word := BitVec.ofInt 32 (clampI (-2147483648) 2147483647 x)

/-- A Bool as a word. -/
def boolWord (b : Bool) : Word := if b then 1 else 0

/-- A three-register operation. -/
def ROp.eval (op : ROp) (a b : Word) : Word :=
  match op with
  | .add => a + b
  | .sub => a - b
  | .and_ => a &&& b
  | .or_ => a ||| b
  | .xor_ => a ^^^ b
  | .sll => a <<< (b.toNat % 32)
  | .srl => a >>> (b.toNat % 32)
  | .sra => a.sshiftRight (b.toNat % 32)
  | .mul => a * b
  | .mulh => BitVec.ofInt 32 (a.toInt * b.toInt / 2 ^ 32)
  | .slt => boolWord (decide (a.toInt < b.toInt))
  | .sltu => boolWord (decide (a.toNat < b.toNat))
  | .min_ => if a.toInt ≤ b.toInt then a else b
  | .max_ => if a.toInt ≤ b.toInt then b else a
  | .adds => satWord (a.toInt + b.toInt)
  | .subs => satWord (a.toInt - b.toInt)

/-- Leading zeros of a word. -/
def clzOf (a : Word) : Word := if a = 0 then 32 else word (31 - Nat.log2 a.toNat)

/-- LG2: round(65,536 x log2 a). As 131,072 x log2 a is log2 of a power of a, its whole part is exact, and half of it to nearest is the result. -/
def lg2Of (a : Word) : Word := if a = 0 then 0x80000000 else word ((Nat.log2 (a.toNat ^ 131072) + 1) / 2)

/-- The largest r below 2^n above acc with (2r - 1)^65,536 at most 2^(g + 65,536): bit by bit. -/
def ex2Bits (g : Nat) : Nat → Nat → Nat
  | 0, acc => acc
  | n + 1, acc => let c := acc + 2 ^ n
                  if (2 * c - 1) ^ 65536 ≤ 2 ^ (g + 65536) then ex2Bits g n c else ex2Bits g n acc

/-- EX2: round(2^(a / 65,536)); the one exact half, at -65,536, goes as the free value says (log 15). -/
def ex2Of (a : Word) : Word :=
  let g := a.toInt
  if g < -65536 then 0
  else if g = -65536 then boolWord Config.ex2HalfUp
  else if g < 0 then 1
  else if 32 * 65536 ≤ g then 0xFFFFFFFF
  else word (min 0xFFFFFFFF (ex2Bits g.toNat 33 0))

/-- A one-operand operation. -/
def R1Op.eval (op : R1Op) (a : Word) : Word := match op with | .clz => clzOf a | .lg2 => lg2Of a | .ex2 => ex2Of a

/-- A register operation with an immediate (R232): logical ones zero-extend it. -/
def IOp.eval (op : IOp) (a : Word) (imm : BitVec 18) : Word :=
  match op with
  | .andi => a &&& imm.setWidth 32
  | .ori => a ||| imm.setWidth 32
  | .xori => a ^^^ imm.setWidth 32
  | .slti => boolWord (decide (a.toInt < imm.toInt))
  | _ => a + imm.signExtend 32

/-- A shift by an immediate. -/
def ShOp.eval (op : ShOp) (a : Word) (n : BitVec 5) : Word :=
  match op with | .slli => a <<< n.toNat | .srli => a >>> n.toNat | .srai => a.sshiftRight n.toNat

/-- A branch is taken. -/
def BOp.taken (op : BOp) (a b : Word) : Bool :=
  match op with
  | .beq => decide (a = b) | .bne => decide (a ≠ b) | .blt => decide (a.toInt < b.toInt) | .bge => decide (b.toInt ≤ a.toInt)
  | .bltu => decide (a.toNat < b.toNat) | .bgeu => decide (b.toNat ≤ a.toNat)

/-! ## Vectors (R235): exact lane values n x 2^(-51 - sh) -/

/-- n / 2^k to nearest, ties to even. -/
def roundEven (n : Int) (k : Nat) : Int :=
  let d : Int := 2 ^ k
  let q := n / d
  let r := n % d
  if 2 * r < d then q else if d < 2 * r then q + 1 else if q % 2 = 0 then q else q + 1

/-- A lane's mantissa at exponent e. -/
def laneAt (sh e : Nat) (n : Int) : Int := roundEven n (e + sh)

/-- A mantissa fits. -/
def fits (m : Int) : Bool := decide (-524288 ≤ m ∧ m ≤ 524287)

/-- The largest mantissa of a number's sign. -/
def bigOf (n : Int) : Int := if n < 0 then -524288 else if n = 0 then 0 else 524287

/-- The block of exact lanes: the smallest exponent at which every lane fits; or saturation, with VSAT. -/
def vNorm (sh : Nat) (l : List Int) : VBlk × Bool :=
  match (List.range 64).find? (fun e => l.all (fun n => fits (laneAt sh e n))) with
  | some e => ({ e := e, m := l.map (laneAt sh e) }, false)
  | none => ({ e := 63, m := l.map bigOf }, true)

/-- Lane j of a vector in units of 2^-51. -/
def VBlk.lane (b : VBlk) (j : Nat) : Int := b.m.getD j 0 * 2 ^ b.e

/-- The lanes of a vector. -/
def VBlk.lanes (b : VBlk) : List Int := (List.range 16).map b.lane

/-- A lane-wise combination of two vectors. -/
def lanes2 (f : Int → Int → Int) (a b : VBlk) : List Int := (List.range 16).map (fun j => f (a.lane j) (b.lane j))

/-- Lane 0 holds a number, the others 0. -/
def lane0 (n : Int) : List Int := n :: List.replicate 15 0

/-- A vector operation of two sources that writes one register. -/
def VOp.eval (op : VOp) (a b : VBlk) : VBlk × Bool :=
  match op with
  | .vadd => vNorm 0 (lanes2 (· + ·) a b)
  | .vsub => vNorm 0 (lanes2 (· - ·) a b)
  | .vmul => vNorm 51 (lanes2 (· * ·) a b)
  | .vdot => vNorm 51 (lane0 ((lanes2 (· * ·) a b).foldl (· + ·) 0))
  | .vcmul => vNorm 51 (lanes2 (· * ·) a b)
  | .vcmulj => vNorm 51 (lanes2 (· * ·) a b)

/-- A complex product, or a product with the conjugate: the I and the Q register. -/
def cmulEval (conj : Bool) (ai aq bi bq : VBlk) : (VBlk × Bool) × (VBlk × Bool) :=
  let s : Int := if conj then -1 else 1
  let re := (List.range 16).map (fun j => ai.lane j * bi.lane j - s * (aq.lane j * bq.lane j))
  let im := (List.range 16).map (fun j => aq.lane j * bi.lane j + s * (ai.lane j * bq.lane j))
  (vNorm 51 re, vNorm 51 im)

/-- VSHX: the exponent moves, clamped at 0, saturating above 63. -/
def vshxEval (a : VBlk) (g : Word) : VBlk × Bool :=
  let e := (a.e : Int) + g.toInt
  if 63 < e then ({ e := 63, m := a.m.map bigOf }, true) else ({ a with e := e.toNat }, false)

/-- VEXT: a lane times 2^frac, to nearest, saturated (a half goes as the free value says, log 15). -/
def vextEval (a : VBlk) (lane frac : Nat) : Word :=
  let n := a.lane lane * 2 ^ frac
  let d : Int := 2 ^ 51
  let q := n / d
  let r := n % d
  satWord (if 2 * r < d then q else if d < 2 * r then q + 1 else if Config.vextHalfUp n then q + 1 else q)

/-- VINS: lane j becomes g / 2^frac, and the vector is renormalised. -/
def vinsEval (a : VBlk) (g : Word) (lane frac : Nat) : VBlk × Bool :=
  vNorm 0 ((List.range 16).map (fun j => if j = lane then g.toInt * 2 ^ (51 - frac) else a.lane j))

/-- The word of a lane in data memory (R236). -/
def laneWord (b : VBlk) (j : Nat) : Word := BitVec.ofNat 32 (b.e * 2 ^ 26) ||| (BitVec.ofInt 20 (b.m.getD j 0)).setWidth 32

/-- The vector that sixteen words of data memory hold. -/
def blkOf (ws : List Word) : VBlk :=
  { e := bitsOf (ws.getD 0 0) 26 6, m := (List.range 16).map (fun j => ((ws.getD j 0).extractLsb' 0 20).toInt) }

/-- Instruction times (Table 8-4), with 2 for a branch taken. -/
def UIns.cost : UIns → Bool → Nat
  | .r op _ _ _, _ => (match op with | .mul => 2 | .mulh => 2 | _ => 1)
  | .r1 op _ _, _ => (match op with | .clz => 1 | _ => 8)
  | .i op _ _ _, _ => (match op with | .jalr => 2 | _ => 1)
  | .b _ _ _ _, taken => if taken then 2 else 1
  | .jal _, _ => 2
  | .p op _ _ _, _ => (match op with | .prd => 8 | .prdc => 8 | _ => 2)
  | .v op _ _ _, _ => (match op with | .vadd => 4 | .vsub => 4 | .vmul => 4 | _ => 8)
  | .v1 op _ _, _ => (match op with | .vener => 8 | .vmov => 4)
  | .vshx _ _ _, _ => 4
  | .vext _ _ _ _, _ => 2
  | .vins _ _ _ _, _ => 2
  | .vld _ _ _, _ => 4
  | .vst _ _ _, _ => 4
  | _, _ => 1

end Sys2Proof.Machine
end

