-- ==== Sys2Proof/Machine/Engines.lean ====
section
/-! DEFINITION. Loop engines (chapter 8): images and their loading, tasks and their schedule, loop ports, traps, and the execution of one Uskihar instruction. -/

namespace Sys2Proof.Machine

/-! ## Images (R228-R230, Tables 8-1, 8-2) -/

/-- Byte i of a list of little-endian words. -/
def byteAt (ws : List Word) (i : Nat) : Nat := bitsOf (ws.getD (i / 4) 0) (8 * (i % 4)) 8

/-- One bit step of the reflected CRC-32 of IEEE 802.3. -/
def crcBit (c : Nat) : Nat := if c % 2 = 1 then (c / 2) ^^^ 0xEDB88320 else c / 2

/-- One byte of the CRC-32. -/
def crcByte (c b : Nat) : Nat := (List.range 8).foldl (fun a _ => crcBit a) (c ^^^ b)

/-- CRC-32 over a list of words, least significant byte first. -/
def crc32 (ws : List Word) : Nat := (ws.foldl (fun c w => (List.range 4).foldl (fun a j => crcByte a (bitsOf w (8 * j) 8)) c) 0xFFFFFFFF) ^^^ 0xFFFFFFFF

/-- TEXT_LEN, DATA_LEN, BSS_LEN, NENTRY and KIND of an image. -/
def imgText (ws : List Word) : Nat := (ws.getD 4 0).toNat
/-- DATA_LEN. -/
def imgData (ws : List Word) : Nat := (ws.getD 5 0).toNat
/-- BSS_LEN. -/
def imgBss (ws : List Word) : Nat := (ws.getD 6 0).toNat
/-- KIND. -/
def imgKind (ws : List Word) : Nat := byteAt ws 8
/-- NENTRY. -/
def imgEntries (ws : List Word) : Nat := byteAt ws 9
/-- Entry j: WCET and first instruction. -/
def imgEntry (ws : List Word) (j : Nat) : Nat × Nat := (bitsOf (ws.getD (8 + j) 0) 16 16, bitsOf (ws.getD (8 + j) 0) 0 16)

/-- The entries of Table 8-1: the first NENTRY begin below TEXT_LEN / 4, the others are 0. -/
def imgEntriesOk (ws : List Word) : Bool :=
  (List.range 8).all (fun j => if j < imgEntries ws then decide ((imgEntry ws j).2 < imgText ws / 4) else decide (ws.getD (8 + j) 0 = 0))

/-- Every check of R228 and R229 on LEN bytes sent to FIRST. -/
def imageOk (first len : Nat) (ws : List Word) : Bool :=
  let t := imgText ws
  let d := imgData ws
  decide (ws.getD 0 0 = 0x554B5331 ∧ (ws.getD 1 0) = 0x00010001 ∧ imgKind ws ≤ 1 ∧ 1 ≤ imgEntries ws ∧ imgEntries ws ≤ 8 ∧ byteAt ws 0xA = 0 ∧ byteAt ws 0xB = 0
    ∧ t % 4 = 0 ∧ 4 ≤ t ∧ t ≤ 16384 ∧ d % 4 = 0 ∧ imgBss ws % 4 = 0 ∧ d + imgBss ws ≤ 32768
    ∧ len = 64 + t + d + 64 * imgKind ws ∧ ws.length * 4 = len ∧ (first = 4 → imgKind ws = 1))
  && imgEntriesOk ws && decide (crc32 ((ws.drop 16).take ((t + d) / 4)) = (ws.getD 7 0).toNat)
  && (decide (imgKind ws = 0) || Config.signatureOk ws)

/-- The canonical table of a list of values from index 0. -/
def tabOf {α : Type} [DecidableEq α] (d : α) (l : List α) : Tab α := ((List.range l.length).zip l).filter (fun e => decide (e.2 ≠ d))

/-- Load an image into one engine (R230). -/
def Eng.load (x : Eng) (ws : List Word) : Eng :=
  let n := imgText ws / 4
  { x with
    loaded := true, imgId := ws.getD 3 0, entries := (List.range (imgEntries ws)).map (imgEntry ws), ninstr := n
    imem := tabOf 0 ((ws.drop 16).take n)
    dmem := tabOf 0 (((ws.drop (16 + n)).take (imgData ws / 4)).flatMap (fun w => (List.range 4).map (fun j => w.extractLsb' (8 * j) 8)))
    vsat := false }

/-- The key of task t of engine e. -/
def taskKey (e t : Nat) : Nat := 8 * e + t

/-- The tasks of an engine that are not STOPPED. -/
def State.startedTasks (s : State) (e : Nat) : List Nat := (List.range 8).filter (fun t => decide ((s.task (taskKey e t)).st ≠ .stopped))

/-- Range, state and time of an LE_IMAGE_LOAD (Table 8-2, R227, R230). -/
def chkImageLoad (first count : Byte) (len : Word) (addr : Word64) (s : State) : Checks :=
  let f := first.toNat
  let c := count.toNat
  { range := firstBad [
      (8, decide (f = 4 ∨ (64 ≤ f ∧ f ≤ 127))),
      (9, if f = 4 then decide (c = 60) else decide (1 ≤ c ∧ c ≤ 64 ∧ f + c ≤ 128)),
      (0xC, decide (68 ≤ len.toNat ∧ len.toNat ≤ 49280)), (0x10, decide (addr.toNat % 64 = 0))]
    state := if f = 4 then (if s.inWinter objDevice then none else refState)
             else if ((List.range c).map (fun k => f + k)).all (fun e => (s.startedTasks e).isEmpty) then none else refState
    worst := some (4 * tms + c * 200 * tus) }

/-! ## Tasks (R241-R248) -/

/-- A started task stops (R247): its execution is abandoned, and a start still waiting for its first release is superseded. -/
def State.stopTask (s : State) (e t : Nat) : State :=
  let k := taskKey e t
  let s1 := if (s.eng e).running = some t then s.updEng e (fun x => { x with running := none, writes := [] }) else s
  let s2 := match (s1.task k).startId with | some id => s1.completeId id .superseded 0 0 | none => s1
  s2.updTask k (fun x => { x with st := .stopped, startId := none })

/-- The supervisor stops every library task (R230). -/
def State.libStop (s : State) : State :=
  let s1 := s.each ((List.range 60).map (fun k => k + 4)) (fun e a => a.each (a.startedTasks e) (fun t b => b.stopTask e t))
  { s1 with le := { s1.le with libRunning := false } }

/-- An accepted LE_IMAGE_LOAD: a closed one stops the library (R230). -/
def startImageLoad (first : Byte) (s : State) : State := if first.toNat = 4 then s.libStop else s

/-- A task as it starts: WAITING, counters cleared (Table 8-7). -/
def Task.started (prot : Bool) (entry sev period phase : Nat) (args objs : List Word) (now : Nat) (id : Option Nat) : Task :=
  { Task.reset with st := .waiting, prot := prot, entry := entry, sev := sev, period := period, phase := phase, args := args, objs := objs, lastRel := now, startId := id }

/-- An object word (R241). -/
def objWord (kind : Nat) (wr : Bool) (i : Nat) : Word := word (kind * 2 ^ 30 + bit wr * 2 ^ 29 + i)

/-- The library's tasks but the gain loops: engine, protection, period in µs, severity, objects (Table 8-8; the objects by log 27). -/
def libTasks : List (Nat × Bool × Nat × Nat × List Word) :=
  (List.range 8).map (fun k => (4 + k, true, 10, 0, (List.range 32).map (fun j => objWord 0 true (32 * k + j)))) ++
  (List.range 8).map (fun k => (44 + k, true, 100, 0, (List.range 32).map (fun j => objWord 0 true (32 * k + j)))) ++
  (List.range 4).map (fun k => (52 + k, false, 10, 2, (List.range 8).map (fun j => objWord 1 true (8 * k + j)))) ++
  (List.range 4).map (fun k => (56 + k, false, 50, 1, (List.range 8).map (fun j => objWord 1 true (8 * k + j)))) ++
  (List.range 4).map (fun k => (60 + k, false, 10, 2, (List.range 8).map (fun j => objWord 1 true (8 * k + j))))

/-- The library's gain-loop task of a slot runs while its loop is enabled with AGC_SRC = 0 (Table 8-8). -/
def State.libAgcSync (s : State) (n : Nat) : State :=
  let e := 12 + n / 8
  let t := n % 8
  let g := s.gain n
  if s.le.libRunning && g.agcEn && !g.agcSrc then
    let p := g.period / tus
    if (s.task (taskKey e t)).st = .stopped then
      s.updTask (taskKey e t) (fun _ => Task.started false (Config.libEntry e) 2 p 0 [] [objWord 0 true n] s.now none)
    else s.updTask (taskKey e t) (fun x => { x with period := p })
  else if (s.task (taskKey e t)).st = .stopped then s
  else s.stopTask e t

/-- The supervisor places the library's tasks (R248). -/
def State.libPlace (s : State) : State :=
  let s1 := libTasks.foldl (fun a x => a.updTask (taskKey x.1 0) (fun _ => Task.started x.2.1 (Config.libEntry x.1) x.2.2.2.1 x.2.2.1 0 [] x.2.2.2.2 s.now none)) s
  let s2 := { s1 with le := { s1.le with libRunning := true, libLoaded := true } }
  (s2.each (List.range 256) (fun n a => a.libAgcSync n)).capAll

/-- An LE_IMAGE_LOAD. -/
def isImageLoad (p : Pend) : Bool := match p.desc with | .leImageLoad .. => true | _ => false

/-- LE_LOAD_END: the oldest load writes its engines and completes; a library load then starts the library (R230, R248). -/
def State.loadEnd (s : State) : State :=
  match (s.pends isImageLoad).head? with
  | some p => match p.desc with
    | .leImageLoad first count _ _ (.words ws) =>
      if s.now ≤ p.acc then s
      else
        let s1 := s.each ((List.range count.toNat).map (fun k => first.toNat + k)) (fun e a => ((a.updEng e (fun x => x.load ws)).memWritten (testBase 14 e 5)).memWritten (testBase 14 e 6))
        let s2 := s1.complete p .ok 0 0
        if first.toNat = 4 then s2.libPlace else s2
    | _ => s
  | none => s

/-- WCET of a task's entry, in units of 64 instruction times. -/
def State.wcet (s : State) (e entry : Nat) : Nat := ((s.eng e).entries.getD entry (0, 0)).1

/-- WCET in ps at 2.857 ns an instruction time (R242). -/
def wcetPs (w : Nat) : Nat := w * 64 * 2857

/-- A sum of fractions as numerator and denominator. -/
def fracSum : List (Nat × Nat) → Nat × Nat
  | [] => (0, 1)
  | (n, d) :: r => let p := fracSum r; (n * p.2 + p.1 * d, d * p.2)

/-- W and P of an engine's started tasks, in ps. -/
def State.taskLoads (s : State) (e : Nat) : List (Nat × Nat) :=
  (s.startedTasks e).map (fun t => let x := s.task (taskKey e t); (wcetPs (s.wcet e x.entry), x.period * 1000000))

/-- Every task's time and the longest other one's fit its period (R242, blocking). -/
def blockingOk (l : List (Nat × Nat)) : Bool :=
  (List.range l.length).all (fun j => let x := l.getD j (0, 1)
    decide (x.1 + (((List.range l.length).filter (fun i => decide (i ≠ j))).foldl (fun a i => max a (l.getD i (0, 1)).1) 0) ≤ x.2))

/-- Both tests of R242. -/
def schedOk (l : List (Nat × Nat)) : Bool := let u := fracSum l; decide (10 * u.1 ≤ 9 * u.2) && blockingOk l

/-- KIND and INDEX of an object word. -/
def objKind (w : Word) : Nat := bitsOf w 30 2
/-- INDEX of an object word. -/
def objIdx (w : Word) : Nat := bitsOf w 0 8

/-- An object word is legal (R241). -/
def objOk (w : Word) : Bool :=
  decide (bitsOf w 8 21 = 0) && (match objKind w with
    | 0 => true
    | 1 => decide (objIdx w < 32)
    | 2 => !w.getLsbD 29 && decide (objIdx w < 32)
    | _ => !w.getLsbD 29 && decide (objIdx w < 64))

/-- The parameter block of NOBJ objects (R241). -/
def paramsOk (nobj : Nat) (ws : List Word) : Bool := decide (ws.length = 16 + nobj) && (ws.drop 16).all objOk

/-- A started task of any engine holds WRITE on one of the objects (R242). -/
def State.writeTaken (s : State) (l : List Word) : Bool :=
  s.le.tasks.any (fun e => decide (e.2.st ≠ .stopped) &&
    e.2.objs.any (fun w => w.getLsbD 29 && l.any (fun v => v.getLsbD 29 && decide (objKind v = objKind w ∧ objIdx v = objIdx w))))

/-- Ticks from now to a task's next release after time t (R242): DTIME next at PHASE + k x PERIOD. -/
def State.toRelease (s : State) (period phase : Nat) : Nat :=
  let p := period * tus
  let f := phase * tus
  if s.dtTicks < f then f - s.dtTicks else p - (s.dtTicks - f) % p

/-- Range, state and time of an LE_TASK_START (Table 8-6, R242). -/
def chkTaskStart (engine task entry sev : Byte) (period phase : Word) (nobj : Byte) (param : Word64) (data : HostData) (s : State) : Checks :=
  let e := engine.toNat
  let x := s.eng e
  let objs := match data with | .words ws => (ws.drop 16).take nobj.toNat | .failed _ => []
  { range := firstBad [
      (8, decide (64 ≤ e ∧ e ≤ 127)), (9, decide (task.toNat ≤ 7)), (0xA, decide (entry.toNat < (if x.loaded then x.entries.length else 8))), (0xB, decide (sev.toNat ≤ 3)),
      (0xC, decide (10 ≤ period.toNat ∧ period.toNat ≤ 10000000)), (0x10, decide (phase.toNat < period.toNat)), (0x14, decide (nobj.toNat ≤ 32)),
      (0x18, decide (param.toNat % 4 = 0))]
    state :=
      if !x.loaded || decide ((s.task (taskKey e task.toNat)).st ≠ .stopped) then refState
      else if s.writeTaken objs then refState
      else if schedOk (s.taskLoads e ++ [(wcetPs (s.wcet e entry.toNat), period.toNat * 1000000)]) then none else refState
    worst := some (s.toRelease period.toNat phase.toNat) }

/-- An LE_TASK_START makes its task WAITING (R242, Table 8-7). -/
def startTaskStart (p : Pend) (engine task entry sev : Byte) (period phase : Word) (nobj : Byte) (ws : List Word) (s : State) : State :=
  s.updTask (taskKey engine.toNat task.toNat) (fun _ =>
    Task.started false entry.toNat sev.toNat period.toNat phase.toNat (ws.take 16) ((ws.drop 16).take nobj.toNat) s.now (some p.id))

/-- Range and time of an LE_TASK_STOP (R227, R247). -/
def chkTaskStop (engine task : Byte) (s : State) : Checks :=
  let x := s.task (taskKey engine.toNat task.toNat)
  { range := firstBad [(8, decide (64 ≤ engine.toNat ∧ engine.toNat ≤ 127)), (9, decide (task.toNat ≤ 7))]
    state := none
    worst := some (if x.st = .running then s.toRelease x.period x.phase else 0) }

/-- An LE_TASK_STOP (R247): at once unless the task is RUNNING. -/
def startTaskStop (p : Pend) (engine task : Byte) (s : State) : State :=
  match (s.task (taskKey engine.toNat task.toNat)).st with
  | .stopped => s.complete p .ok 0 0
  | .running => s
  | _ => (s.stopTask engine.toNat task.toNat).complete p .ok 0 0

/-- An LE_TASK_STOP of a task. -/
def isTaskStop (e t : Nat) (p : Pend) : Bool := match p.desc with | .leTaskStop x y => decide (x.toNat = e ∧ y.toNat = t) | _ => false

/-- A stop waits for the running task. -/
def State.stopWaits (s : State) (e t : Nat) : Bool := !(s.pends (isTaskStop e t)).isEmpty

/-- The waiting stops of a task take effect. -/
def State.stopNow (s : State) (e t : Nat) : State := (s.stopTask e t).completeAll (isTaskStop e t) .ok

/-- Instant t is at or past a release of the task after its last one. -/
def State.releaseDue (s : State) (x : Task) : Bool :=
  let p : Int := x.period * tus
  let f : Int := x.phase * tus
  s.tim.dtRun && decide (x.lastRel < s.now ∧ f ≤ s.dtAt s.now ∧
    ((s.dtAt s.now - f) / p ≠ (s.dtAt x.lastRel - f) / p ∨ s.dtAt x.lastRel < f))

/-- Raise TASK_OVR at a task's own severity (Table 8-10). -/
def State.raiseOvr (s : State) (e t : Nat) : State :=
  let k := sevKey 14 false
  let s1 := (s.checkPolicy).checkCopies 14
  let old := s1.flt.sev
  let lost := s1.flt.sevLost
  let v : Half := (s1.sevUse 14 false &&& 0xFF3F) ||| BitVec.ofNat 16 ((s1.task (taskKey e t)).sev * 64)
  let s2 := { s1 with flt := { s1.flt with sev := s1.flt.sev.set (cword (sevReset 14 false)) k (cword v), sevLost := s1.flt.sevLost.set false k false } }
  let s3 := s2.occurWith State.record (16 * 14 + 3) (.task e t) false
  { s3 with flt := { s3.flt with sev := old, sevLost := lost } }

/-- The overrun rule (R245). -/
def State.overrun (s : State) (e t : Nat) : State :=
  let k := taskKey e t
  let s1 := if (s.eng e).running = some t then s.updEng e (fun x => { x with running := none, writes := [] }) else s
  let s2 := s1.updTask k (fun x => { x with
    st := .ready, ovrCnt := satInc 0xFFFF x.ovrCnt, ovr := satInc 0xFFFFFFFF x.ovr, overrun := true, consec := min 3 (x.consec + 1), good := 0 })
  let x := s2.task k
  if x.prot ∧ x.consec = 2 then
    let s3 := s2.raise 14 4 (.task e t)
    s3.each x.scopeObjs (fun i a => (a.winterSet i 12 0).updObj i (fun o => { o with overBy := if o.overBy.contains k then o.overBy else o.overBy ++ [k] }))
  else if !x.prot ∧ x.consec = 3 ∧ (s.task k).consec = 2 then s2.raiseOvr e t
  else s2

/-- A release without an overrun; the second in a row clears the cause OVERRUN (R245). -/
def State.cleanRelease (s : State) (e t : Nat) : State :=
  let k := taskKey e t
  let s1 := s.updTask k (fun x => { x with st := .ready, good := x.good + 1 })
  if 2 ≤ (s1.task k).good then
    s1.each ((s1.prot.objs.filter (fun o => o.2.overBy.contains k)).map (fun o => o.1)) (fun i a =>
      let b := a.updObj i (fun o => { o with overBy := o.overBy.filter (fun j => decide (j ≠ k)) })
      if (b.wobj i).overBy = [] then b.clearCause i 12 else b)
  else s1

/-- TASK_RELEASE (R243-R245, R247). -/
def State.taskRelease (s : State) (e t : Nat) : State :=
  let k := taskKey e t
  let x := s.task k
  if x.st = .stopped ∨ x.st = .trapped ∨ !s.releaseDue x then s
  else if x.st = .running ∧ s.stopWaits e t then s.stopNow e t
  else
    let s1 := if x.st = .waiting then s.cleanRelease e t else s.overrun e t
    let s2 := s1.updTask k (fun x => { x with runs := (x.runs + 1) % 65536, relDt := s.dtime, lastRel := s.now, startId := none })
    match x.startId with
    | some id => s2.completeId id .ok 0 0
    | none => s2

/-- The READY task an idle engine runs: the shortest PERIOD, then the lowest index (R243). -/
def pickTask : List (Nat × Nat) → Option (Nat × Nat)
  | [] => none
  | (t, p) :: r => match pickTask r with
    | some (u, q) => if p ≤ q then some (t, p) else some (u, q)
    | none => some (t, p)

/-- TASK_DISPATCH: an idle engine begins its READY task with fresh registers (R231, R243). -/
def State.taskDispatch (s : State) (e : Nat) : State :=
  if (s.eng e).running ≠ none then s
  else
    match pickTask (((List.range 8).filter (fun t => decide ((s.task (taskKey e t)).st = .ready))).map (fun t => (t, (s.task (taskKey e t)).period))) with
    | none => s
    | some (t, _) =>
      (s.updEng e (fun x => { x with
        running := some t, pc := 4 * (x.entries.getD (s.task (taskKey e t)).entry (0, 0)).2, ran := 0, writes := [], v := []
        g := (Tab.set [] (0 : Word) 13 (word t)).set 0 14 0x8000 })).updTask (taskKey e t) (fun x => { x with st := .running })

/-! ## Traps (R234, R238-R240, R246) -/

/-- TASK_STAT.TRAP. -/
def trapCode : TrapCause → Nat
  | .illegal => 1 | .align => 2 | .daddr => 3 | .iaddr => 4 | .port => 5 | .cw => 6 | .mem => 7 | .trap => 8

/-- A task traps (R246); inj marks an injected fault (R331). -/
def State.takeTrapI (s : State) (e t : Nat) (c : TrapCause) (inj : Bool) : State :=
  let s1 := if (s.eng e).running = some t then s.updEng e (fun x => { x with running := none, writes := [] }) else s
  let s2 := s1.updTask (taskKey e t) (fun x => { x with st := .trapped, trap := trapCode c })
  s2.raiseI 14 (if e < 64 then 5 else 6) (.task e t) inj

/-- A task traps. -/
def State.takeTrap (s : State) (e t : Nat) (c : TrapCause) : State := s.takeTrapI e t c false

/-- Every started task of an engine traps with cause MEM (R246). -/
def State.memTrap (s : State) (e : Nat) : State :=
  s.each ((s.startedTasks e).filter (fun t => decide ((s.task (taskKey e t)).st ≠ .trapped))) (fun t a => (a.takeTrapI e t .mem true).raiseI 14 1 (.task e t) true)

/-! ## Registers and data memory (R226, R231, R234, R236) -/

/-- General register r of engine e: G0 reads 0. -/
def State.eReg (s : State) (e : Nat) (r : Reg) : Word := if r.val = 0 then 0 else (s.eng e).g.get 0 r.val

/-- Write a general register: writes to G0 are discarded. -/
def State.eSetReg (s : State) (e : Nat) (r : Reg) (w : Word) : State := if r.val = 0 then s else s.updEng e (fun x => { x with g := x.g.set 0 r.val w })

/-- Vector register v. -/
def State.eVec (s : State) (e : Nat) (v : VReg) : VBlk := (s.eng e).v.get VBlk.zero v.val

/-- Write a vector register with the outcome of its normalisation. -/
def State.eSetVec (s : State) (e : Nat) (v : VReg) (b : VBlk × Bool) : State :=
  s.updEng e (fun x => { x with v := x.v.set VBlk.zero v.val b.1, vsat := x.vsat || b.2 })

/-- The odd partner of an even vector register. -/
def vNext (v : VReg) : VReg := ⟨(v.val + 1) % 8, Nat.mod_lt _ (by decide)⟩

/-- A byte of data memory. -/
def Eng.byte (x : Eng) (a : Nat) : Byte := x.dmem.get 0 a

/-- The n bytes of data memory from an address, as a number. -/
def Eng.load? (x : Eng) (a : Nat) : Nat → Nat
  | 0 => 0
  | n + 1 => (x.byte a).toNat + 256 * Eng.load? x (a + 1) n

/-- Store n bytes of a number. -/
def Eng.store (x : Eng) (a v : Nat) : Nat → Eng
  | 0 => x
  | n + 1 => Eng.store { x with dmem := x.dmem.set 0 a (BitVec.ofNat 8 v) } (a + 1) (v / 256) n

/-! ## Loop ports (R237-R240, Table 8-5) -/

/-- The object kind, index and offset of a port address. -/
def portObj (a : Nat) : Option (Nat × Nat × Nat) :=
  if 0x1000 ≤ a ∧ a < 0x2000 then some (0, (a - 0x1000) / 16, a % 16)
  else if 0x2000 ≤ a ∧ a < 0x2200 then some (1, (a - 0x2000) / 16, a % 16)
  else if 0x2200 ≤ a ∧ a < 0x2400 then some (2, (a - 0x2200) / 16, a % 16)
  else if 0x2400 ≤ a ∧ a < 0x2800 then some (3, (a - 0x2400) / 16, a % 16)
  else none

/-- A task port. -/
def taskPort (a : Nat) : Bool := decide (a ≤ 4 ∨ (0x10 ≤ a ∧ a < 0x31))

/-- A task port that takes writes. -/
def taskWPort (a : Nat) : Bool := decide (0x20 ≤ a ∧ a < 0x31)

/-- The task's list names the object; with WRITE, if asked. -/
def Task.lists (x : Task) (kind i : Nat) (wr : Bool) : Bool := x.objs.any (fun w => decide (objKind w = kind ∧ objIdx w = i) && (!wr || w.getLsbD 29))

/-- A read of a port address is allowed (R239). -/
def Task.mayRead (x : Task) (e a : Nat) : Bool :=
  decide (e < 64) || taskPort a || (match portObj a with | some (k, i, _) => x.lists k i false | none => false)

/-- The W ports of an object. -/
def objWPort (kind off : Nat) : Bool := decide ((kind = 0 ∧ (off = 8 ∨ off = 9)) ∨ (kind = 1 ∧ off = 8))

/-- A write of a port address is allowed (R237, R239). -/
def Task.mayWrite (x : Task) (e a : Nat) : Bool :=
  taskWPort a || (decide (e < 64 ∧ 0x8000 ≤ a)) ||
  (match portObj a with | some (k, i, o) => objWPort k o && (decide (e < 64) || x.lists k i true) | none => false)

/-- A port whose writes are complemented words. -/
def cwPort (a : Nat) : Bool := match portObj a with | some (k, _, o) => objWPort k o | none => false

/-- The address, in the test address space, of the register a complemented-word port mirrors. -/
def portReg (kind i off : Nat) : Nat :=
  match kind with
  | 0 => 0xB0000 + 0x40 * i + (match off with | 3 => 0xC | 4 => 8 | 5 => 4 | _ => 0x10)
  | 1 => 0x80000 + 0x4000 * (i / 8) + 0x800 + 0x100 * (i % 8) + 0x10
  | _ => 0xA0000 + 0x400 * i + 0x14 + 4 * off

/-- A complemented word as stored: an inverted complement (R330) shows. -/
def State.cwShown (s : State) (addr : Nat) (w : Word) : Word := if s.flt.badCompl.contains addr then lowHalf w ++ lowHalf w else w

/-- Code of an instance state (Table 4-3). -/
def CxSt.code : CxSt → Nat | .unassigned => 0 | .idle => 1 | .search => 2 | .acquire => 3 | .track => 4 | .joined => 5

/-- FLAGS of a slot (Table 8-5). -/
def State.slotFlags (s : State) (n : Nat) : Word :=
  word (bit (decide ((s.slot n).st = .active)) + 2 * bit (s.slotMuted n) + 4 * bit (s.capped n) + 8 * bit (s.protHold n) + 16 * bit (s.gain n).agcSrc
    + 32 * bit (decide ((s.gain n).ramp ≠ 0)))

/-- CHFLAGS of a chain (Table 8-5). -/
def State.chFlags (s : State) (i : Nat) : Word :=
  word ((s.chainNow i).st.code + 8 * bit (s.onNow i) + 16 * bit (decide (32 ≤ i) && s.txMuted (i - 32)))

/-- A slot's ports. -/
def State.slotPort (s : State) (n off : Nat) : Word :=
  let g := s.gain n
  let r := s.cwShown (portReg 0 n off)
  match off with
  | 0 => match g.pmeas with | some p => wordI p | none => 0xFFFF8000
  | 1 => word g.pmeasSeq
  | 2 => wordI g.spEff
  | 3 => r (cword (half (s.effShown n)))
  | 4 => r (cword (half g.target))
  | 5 => r (cword (half g.host))
  | 6 => r (cword (half g.cap))
  | 7 => s.slotFlags n
  | _ => 0

/-- A transmit chain's ports. -/
def State.txPort (s : State) (n off : Nat) : Word :=
  let x := s.txc n
  match off with
  | 0 => s.cwShown (portReg 1 n 0) x.pwr
  | 1 => wordI (expOut x.entry)
  | 2 => wordI x.pSum
  | 3 => wordI x.rl
  | 4 => s.chFlags (32 + n)
  | _ => 0

/-- A receive chain's ports; RXPWR is measured (log 13). -/
def State.rxPort (s : State) (n off : Nat) (live : Option Word) : Word :=
  match off with
  | 0 => match live with | some w => w | none => Config.measured (2 ^ 32 + 0x2200 + 16 * n) s.now
  | 1 => wordI (s.rxDet n).rise
  | 4 => s.chFlags n
  | _ => 0

/-- An instance's ports. -/
def State.cxPort (s : State) (i off : Nat) : Word :=
  let x := s.inst i
  let r := s.cwShown (portReg 3 i off)
  match off with
  | 0 => r (cword (half x.iso))
  | 1 => r (cword (half x.ll))
  | 2 => r (cword (half x.depth))
  | 3 => wordI x.dmeas
  | 4 => word (s.cxAge i)
  | 5 => word (x.st.code + 8 * bit x.valid + 16 * bit x.frozen)
  | _ => 0

/-- A task port. -/
def Task.port (x : Task) (a : Nat) : Word :=
  if a = 0 then x.relDt.extractLsb' 0 32
  else if a = 1 then x.relDt.extractLsb' 32 32
  else if a = 2 then word x.period
  else if a = 3 then word x.runs
  else if a = 4 then word x.ovr
  else if 0x10 ≤ a ∧ a < 0x20 then x.args.getD (a - 0x10) 0
  else 0

/-- The value of a port (R237, R238). The ports at 0x8000 and above show the hardware's own value. -/
def State.portValue (s : State) (e t a : Nat) (live : Option Word) : Word :=
  match portObj a with
  | some (0, n, off) => s.slotPort n off
  | some (1, n, off) => s.txPort n off
  | some (2, n, off) => s.rxPort n off live
  | some (_, i, off) => s.cxPort i off
  | none => if 0x8000 ≤ a then (match live with | some w => w | none => Config.measured (2 ^ 32 + a) s.now) else (s.task (taskKey e t)).port a

/-- The scope of the object of a port, for CW_MISMATCH (R238). -/
def portScope (e t a : Nat) : FScope :=
  match portObj a with
  | some (0, n, _) => .slot n
  | some (1, n, _) => .tx n
  | some (2, n, _) => .rx n
  | some (_, _, _) => .task e t
  | none => .task e t

/-! ## Execution of one instruction -/

/-- The running task of an engine, and the instruction at its PC. -/
def State.ukAt (s : State) (e : Nat) : Option (Nat × UIns) :=
  let x := s.eng e
  match x.running with
  | none => none
  | some t => if x.pc % 4 = 0 ∧ x.pc < 4 * x.ninstr then (uDecode (x.imem.get 0 (x.pc / 4)).toNat).map (fun u => (t, u)) else none

/-- The data address of an access. -/
def State.uAddr (s : State) (e : Nat) (ga : Reg) (imm : Int) : Nat := (s.eReg e ga + BitVec.ofInt 32 imm).toNat

/-- A data access of n bytes traps (R234). -/
def dataTrap (a n : Nat) : Option TrapCause := if a % n ≠ 0 then some .align else if 0x8000 < a + n then some .daddr else none

/-- The port address of a port instruction. -/
def State.uPort (s : State) (e : Nat) (gi : Reg) (paddr : Half) : Nat := ((s.eReg e gi).toNat + paddr.toNat) % 65536

/-- Whether every buffered write passes its check at commit (R238, R250). -/
def writeOk (w : Nat × Word) : Bool :=
  !cwPort w.1 || (cwordOk w.2 && (match portObj w.1 with | some (0, _, 8) => true | _ => decide (lowHalf w.2 = 1)))

/-- The trap an instruction takes on the present state, if any. -/
def State.ukTraps (s : State) (e t : Nat) (u : UIns) : Option TrapCause :=
  let x := s.task (taskKey e t)
  match u with
  | .i .ldw _ ga imm => dataTrap (s.uAddr e ga imm.toInt) 4
  | .i .stw _ ga imm => dataTrap (s.uAddr e ga imm.toInt) 4
  | .i .ldh _ ga imm => dataTrap (s.uAddr e ga imm.toInt) 2
  | .i .sth _ ga imm => dataTrap (s.uAddr e ga imm.toInt) 2
  | .i .jalr _ ga imm => if s.uAddr e ga imm.toInt % 4 ≠ 0 then some .align else none
  | .vld _ ga imm => dataTrap (s.uAddr e ga imm.toInt) 64
  | .vst _ ga imm => dataTrap (s.uAddr e ga imm.toInt) 64
  | .p .prd _ gi a => if x.mayRead e (s.uPort e gi a) then none else some .port
  | .p .prdc _ gi a =>
    if !x.mayRead e (s.uPort e gi a) then some .port else if cwordOk (s.portValue e t (s.uPort e gi a) none) then none else some .cw
  | .p .pwr _ gi a => if x.mayWrite e (s.uPort e gi a) then none else some .port
  | .p .pwrc _ gi a => if x.mayWrite e (s.uPort e gi a) then none else some .port
  | .wait => if (s.eng e).writes.all writeOk then none else some .cw
  | .trap => some .trap
  | _ => none

/-- What a trapping instruction does: PRDC on a failed complement raises CW_MISMATCH as well (R238). -/
def State.ukTrap (s : State) (e t : Nat) (u : UIns) (c : TrapCause) : State :=
  match u with
  | .p .prdc _ gi a => if c = .cw then (s.takeTrapI e t c true).raiseI 14 0 (portScope e t (s.uPort e gi a)) true else s.takeTrap e t c
  | _ => s.takeTrap e t c

/-- PC and instruction times after an instruction. -/
def State.ukNext (s : State) (e : Nat) (pc cost : Nat) : State := s.updEng e (fun x => { x with pc := pc, ran := x.ran + cost })

/-- PC of the next instruction in line. -/
def State.pcNext (s : State) (e : Nat) : Nat := (s.eng e).pc + 4

/-- Execute instruction u if it is the one at the engine's PC: its trap, or its effect f on the state and the running task. -/
def State.ukRun (s : State) (e : Nat) (u : UIns) (f : Nat → State → State) : State :=
  match s.ukAt e with
  | some (t, v) => if v = u then (match s.ukTraps e t u with | some c => s.ukTrap e t u c | none => f t s) else s
  | none => s

/-- A register instruction: the result, then the next instruction. -/
def State.ukReg (s : State) (e : Nat) (u : UIns) (gd : Reg) (val : State → Word) : State :=
  s.ukRun e u (fun _ a => (a.eSetReg e gd (val a)).ukNext e (a.pcNext e) (u.cost false))

/-- A vector instruction. -/
def State.ukVec (s : State) (e : Nat) (u : UIns) (vd : VReg) (val : State → VBlk × Bool) : State :=
  s.ukRun e u (fun _ a => (a.eSetVec e vd (val a)).ukNext e (a.pcNext e) (u.cost false))

/-- A complex product. -/
def State.ukCmul (s : State) (e : Nat) (u : UIns) (conj : Bool) (vd va vb : VReg) : State :=
  s.ukRun e u (fun _ a =>
    let p := cmulEval conj (a.eVec e va) (a.eVec e (vNext va)) (a.eVec e vb) (a.eVec e (vNext vb))
    ((a.eSetVec e vd p.1).eSetVec e (vNext vd) p.2).ukNext e (a.pcNext e) (u.cost false))

/-- A branch: OFS counts instructions from the next one. -/
def State.ukBranch (s : State) (e : Nat) (u : UIns) (op : BOp) (ga gb : Reg) (ofs : BitVec 18) : State :=
  s.ukRun e u (fun _ a =>
    let taken := op.taken (a.eReg e ga) (a.eReg e gb)
    a.ukNext e (if taken then (((a.pcNext e : Int) + 4 * ofs.toInt) % 2 ^ 32).toNat else a.pcNext e) (u.cost taken))

/-- JAL. -/
def State.ukJal (s : State) (e : Nat) (ofs : BitVec 26) : State :=
  s.ukRun e (.jal ofs) (fun _ a => (a.eSetReg e 15 (word (a.pcNext e))).ukNext e (((a.pcNext e : Int) + 4 * ofs.toInt) % 2 ^ 32).toNat 2)

/-- JALR: the target is read before the link is written. -/
def State.ukJalr (s : State) (e : Nat) (gd ga : Reg) (imm : BitVec 18) : State :=
  s.ukRun e (.i .jalr gd ga imm) (fun _ a => (a.eSetReg e gd (word (a.pcNext e))).ukNext e (a.uAddr e ga imm.toInt) 2)

/-- A load of n bytes. -/
def State.ukLoad (s : State) (e : Nat) (u : UIns) (gd ga : Reg) (imm : BitVec 18) (n : Nat) (ext : Nat → Word) : State :=
  s.ukReg e u gd (fun a => ext ((a.eng e).load? (a.uAddr e ga imm.toInt) n))

/-- A store of n bytes. -/
def State.ukStore (s : State) (e : Nat) (u : UIns) (gs ga : Reg) (imm : BitVec 18) (n : Nat) : State :=
  s.ukRun e u (fun _ a => (a.updEng e (fun x => x.store (a.uAddr e ga imm.toInt) (a.eReg e gs).toNat n)).ukNext e (a.pcNext e) 1)

/-- VLD (R236). -/
def State.ukVld (s : State) (e : Nat) (vd : VReg) (ga : Reg) (imm : BitVec 19) : State :=
  s.ukVec e (.vld vd ga imm) vd (fun a => (blkOf ((List.range 16).map (fun j => word ((a.eng e).load? (a.uAddr e ga imm.toInt + 4 * j) 4))), false))

/-- VST (R236). -/
def State.ukVst (s : State) (e : Nat) (vd : VReg) (ga : Reg) (imm : BitVec 19) : State :=
  s.ukRun e (.vst vd ga imm) (fun _ a =>
    (a.updEng e (fun x => (List.range 16).foldl (fun y j => y.store (a.uAddr e ga imm.toInt + 4 * j) (laneWord (a.eVec e vd) j).toNat 4) x)).ukNext e (a.pcNext e) 4)

/-- A port read: PRD gives the word, PRDC its low half sign-extended. -/
def State.ukPortRead (s : State) (e : Nat) (checked : Bool) (g gi : Reg) (paddr : Half) (live : Option Word) : State :=
  s.ukRun e (.p (if checked then .prdc else .prd) g gi paddr) (fun t a =>
    let v := a.portValue e t (a.uPort e gi paddr) live
    (a.eSetReg e g (if checked then (lowHalf v).signExtend 32 else v)).ukNext e (a.pcNext e) 8)

/-- A port write is buffered (R240); PWRC adds the complement. -/
def State.ukPortWrite (s : State) (e : Nat) (compl : Bool) (g gi : Reg) (paddr : Half) : State :=
  s.ukRun e (.p (if compl then .pwrc else .pwr) g gi paddr) (fun _ a =>
    let v := a.eReg e g
    let w := if compl then cword (lowHalf v) else v
    (a.updEng e (fun x => { x with writes := x.writes ++ [(a.uPort e gi paddr, w)] })).ukNext e (a.pcNext e) 2)

/-- One buffered write takes effect (R237, R249, R250). -/
def State.commitWrite (s : State) (e t : Nat) (w : Nat × Word) : State :=
  if 0x20 ≤ w.1 ∧ w.1 < 0x30 then s.updTask (taskKey e t) (fun x => { x with outs := x.outs.set 0 (w.1 - 0x20) w.2 })
  else if w.1 = 0x30 then
    (s.record (0xF00 + bitsOf w.2 24 8) 0 (BitVec.ofNat 8 (0x80 + e)) false (fld 0 (bitsOf w.2 0 24) + fld 3 t)).irqEdge (384 + e)
  else
    let reason := BitVec.ofNat 16 (0xE000 + 16 * (e - 64) + t)
    match portObj w.1 with
    | some (0, n, 8) => if (s.gain n).agcSrc then s.updGain n (fun g => { g with request := some (gainCode w.2) }) else s
    | some (0, n, 9) => s.winterSet n 9 reason
    | some (1, n, 8) => s.winterSet (objChain n) 9 reason
    | _ => s

/-- The units of 64 instruction times of an execution (MAXRUN). -/
def Task.longest (x : Task) (ran : Nat) : Task := { x with maxrun := max x.maxrun (min 0xFFFF (Config.runUnits ran)) }

/-- WAIT: the writes commit in order, and the release ends (R240, R244, R247). At the next release or later it does not complete (R245). -/
def State.ukWait (s : State) (e : Nat) : State :=
  s.ukRun e .wait (fun t a =>
    if a.releaseDue (a.task (taskKey e t)) then a
    else
      let ran := (a.eng e).ran + 1
      let s1 := (a.eng e).writes.foldl (fun b w => b.commitWrite e t w) a
      let s2 := (s1.updEng e (fun x => { x with running := none, writes := [], ran := ran, pc := x.pc + 4 })).updTask (taskKey e t) (fun x =>
        { x.longest ran with st := .waiting, consec := 0 })
      if s2.stopWaits e t then s2.stopNow e t else s2)

/-- TASK_TRAP: the trap the hardware takes on the present state with a given cause; a cause that does not hold changes nothing. -/
def State.taskTrap (s : State) (e : Nat) (c : TrapCause) : State :=
  if c = .mem then s.memTrap e
  else
    let x := s.eng e
    match x.running with
    | none => s
    | some t =>
      if 4 * x.ninstr ≤ x.pc then (if c = .iaddr then s.takeTrap e t c else s)
      else match uDecode (x.imem.get 0 (x.pc / 4)).toNat with
        | none => if c = .illegal then s.takeTrap e t c else s
        | some u => if s.ukTraps e t u = some c then s.ukTrap e t u c else s

end Sys2Proof.Machine
end

