-- ==== Sys2Proof/Machine/IntcCmds.lean ====
section
/-! DEFINITION. Interrupt delivery (chapter 10): enables and latches, pending and ripe vectors, the launch points, claims and completions. -/

namespace Sys2Proof.Machine

/-- An edge source of Table 10-1. -/
def edgeSrc (n : Nat) : Bool := decide (n ≤ 23 ∨ (320 ≤ n ∧ n ≤ 351) ∨ (384 ≤ n ∧ n ≤ 511))

/-- A level source of Table 10-1. -/
def levelSrc (n : Nat) : Bool := decide (64 ≤ n ∧ n ≤ 319)

/-- INTC_STAT.WR_BLOCKED. -/
def State.intcBlocked (s : State) : State := { s with intc := { s.intc with wrBlocked := true } }

/-- The bits of a written word, as numbers from a base, in rising order. -/
def wordBits (base : Nat) (v : Word) : List Nat := ((List.range 32).filter (fun i => v.getLsbD i)).map (fun i => base + i)

/-- A written word at its place among the 512 sources. -/
def srcMask (w : Nat) (v : Word) : BitVec 512 := (v.setWidth 512) <<< (32 * w)

/-- SRC_EN_SET: reserved sources are enabled like others but never raise (R291, R293). -/
def State.srcEnSet (s : State) (w : Nat) (v : Word) : State := ({ s with intc := { s.intc with en := s.intc.en ||| srcMask w v } }).seenSync

/-- SRC_EN_CLR. -/
def State.srcEnClr (s : State) (w : Nat) (v : Word) : State := { s with intc := { s.intc with en := s.intc.en &&& ~~~(srcMask w v) } }

/-- SRC_LAT_SET: an edge event of each named edge source (R293). -/
def State.srcLatSet (s : State) (w : Nat) (v : Word) : State := s.each ((wordBits (32 * w) v).filter edgeSrc) (fun n a => a.irqEdge n)

/-- SRC_LAT_CLR. -/
def State.srcLatClr (s : State) (w : Nat) (v : Word) : State := { s with intc := { s.intc with lat := s.intc.lat &&& ~~~(srcMask w v) } }

/-- SRC_CFG: ignored for reserved sources, blocked while the source is enabled (R291, R293). -/
def State.srcCfgWrite (s : State) (n : Nat) (v : Word) : State :=
  if !(edgeSrc n || levelSrc n) then s
  else if s.intc.en.getLsbD n then s.intcBlocked
  else { s with intc := { s.intc with srcs := s.intc.srcs.set SrcCfg.reset n { urgent := v.getLsbD 30, vector := bitsOf v 0 6 } } }

/-- VEC_CFG: blocked unless masked and not ACTIVE; TARGET 3 is ignored (R307). -/
def State.vecCfgWrite (s : State) (v : Nat) (w : Word) : State :=
  if !(s.vec v).mask || (s.vec v).active then s.intcBlocked
  else if bitsOf w 30 2 = 3 then s
  else s.updVec v (fun x => { x with target := bitsOf w 30 2, prio := w.extractLsb' 0 8 })

/-- VEC_COAL: in force from the vector's next launch; CNT 0 leaves CNT unchanged (R307). -/
def State.vecCoalWrite (s : State) (v : Nat) (w : Word) : State :=
  s.updVec v (fun x => { x with cnt := if bitsOf w 24 8 = 0 then x.cnt else bitsOf w 24 8, time := bitsOf w 0 16 })

/-- Some INT_N vector is ACTIVE (INTC_STAT.RUN). -/
def State.intnRuns (s : State) : Bool := (List.range 64).any (fun v => (s.vec v).active && decide ((s.vec v).target = 1))

/-- PRIGROUP: blocked while an INT_N vector is ACTIVE (R297). -/
def State.prigroupWrite (s : State) (v : Word) : State :=
  if s.intnRuns then s.intcBlocked else { s with intc := { s.intc with prigroup := v.extractLsb' 0 8 } }

/-- The group of a vector (R297). -/
def State.vecGroup (s : State) (v : Nat) : Nat := ((s.vec v).prio &&& s.intc.prigroup).toNat
/-- Its sub-priority. -/
def State.vecSub (s : State) (v : Nat) : Nat := ((s.vec v).prio &&& ~~~s.intc.prigroup).toNat

/-- RUNGRP: the highest group among the ACTIVE INT_N vectors (R299); 0 with none. -/
def State.runGrp (s : State) : Nat :=
  ((List.range 64).filter (fun v => (s.vec v).active && decide ((s.vec v).target = 1))).foldl (fun a v => max a (s.vecGroup v)) 0

/-- The configuration word of a vector is poisoned: it counts as masked (Table 11-5). -/
def State.vecPoisoned (s : State) (v : Nat) : Bool := s.flt.poisoned.any (fun a => decide (a / 2 ^ 20 = 0x200 + v))

/-- Word i of an MSI-X table entry (Table 9-3). -/
def State.msixWord (s : State) (i : Nat) : Word := s.hif.msix.get (msixDefault i) i

/-- The conditions of R298 on MSI-X vector v. -/
def State.msixOpen (s : State) (v : Nat) : Bool := s.hif.msixEn && !s.hif.msixMask && s.hif.busMaster && !(s.msixWord (4 * v + 3)).getLsbD 0

/-- Pending and ripe, not ACTIVE, not masked in VEC_MASK (R296). -/
def State.vecArmed (s : State) (v : Nat) : Bool := let x := s.vec v; x.pend && x.ripe && !x.active && !x.mask && !s.vecPoisoned v

/-- A vector is ready at the launch point of a target (R296, R298, R299). -/
def State.vecReady (s : State) (target v : Nat) : Bool :=
  decide ((s.vec v).target = target) && s.vecArmed v &&
  (match target with
   | 0 => s.msixOpen v
   | 1 => !s.intnRuns || decide (s.runGrp < s.vecGroup v)
   | _ => true)

/-- The bit of the pending bit array: a vector that waits only on the PCI Express masks (R298). -/
def State.msixPba (s : State) (v : Nat) : Bool :=
  decide ((s.vec v).target = 0) && s.vecArmed v && (!s.hif.msixEn || s.hif.msixMask || (s.msixWord (4 * v + 3)).getLsbD 0)

/-- Vector a goes before vector b (R297). -/
def State.vecBefore (s : State) (a b : Nat) : Bool :=
  decide (s.vecGroup b < s.vecGroup a ∨ (s.vecGroup a = s.vecGroup b ∧ (s.vecSub b < s.vecSub a ∨ (s.vecSub a = s.vecSub b ∧ a < b))))

/-- The vector that a target's launch point takes. -/
def State.pickVec (s : State) (target : Nat) : Option Nat :=
  ((List.range 64).filter (s.vecReady target)).foldl (fun a v => match a with | some u => if s.vecBefore v u then some v else some u | none => some v) none

/-- INT_N is driven low (R299). -/
def State.intN (s : State) : Bool := !s.tst.inReset && (s.pickVec 1).isSome

/-- The launch is the claim (R296, R302, R307). -/
def State.claim (s : State) (v : Nat) : State :=
  s.updVec v (fun x => { x with
    pend := false, active := true, ripe := false, evcnt := 0, first := none, seen := s.vecHot v, launches := satInc 0xFFFFFFFF x.launches, cntUse := x.cnt, timeUse := x.time })

/-- A vector becomes pending without an event (R294, R301): its timer starts if it does not run. -/
def Vec.rePend (x : Vec) (now : Nat) : Vec :=
  { x with pend := true, first := match x.first with | some t => some t | none => some now,
           ripe := x.ripe || decide (x.timeUse = 0) || decide (x.cntUse ≤ x.evcnt) }

/-- Completion of a vector (R300-R302). -/
def State.vecComplete (s : State) (v : Nat) : State :=
  let seen := (s.vec v).seen || s.vecHot v
  let s1 := s.updVec v (fun x => { x with active := false, seen := seen })
  let s2 := if s1.vecLevel v then s1.updVec v (fun x => x.rePend s1.now) else s1
  if seen then s2 else (s2.updVec v (fun x => { x with spur := satInc 0xFFFF x.spur })).raise 2 3 .device

/-- INTC_EOI (R300). -/
def State.intcEoi (s : State) (v : Word) : State :=
  let n := bitsOf v 0 6
  if (s.vec n).active ∧ (s.vec n).target ≠ 2 then s.vecComplete n else s.raise 2 2 .device

/-- INTC_CLAIM's value for a claim. -/
def claimWord (c : Option Nat) : Word := match c with | some v => word v | none => 0x80000000

/-- INTC_CLAIM: an HP read claims the first ready INT_N vector (R299). -/
def State.intcClaim (s : State) : State :=
  let c := s.pickVec 1
  let s1 : State := { s with intc := { s.intc with claimed := c }, hif := { s.hif with rdData := s.hif.rdData.set 0 0 (claimWord c) } }
  match c with
  | some v => s1.claim v
  | none => s1

/-- VEC_MASK_SET and VEC_MASK_CLR. -/
def State.vecMask (s : State) (half : Nat) (v : Word) (m : Bool) : State := s.each (wordBits (32 * half) v) (fun n a => a.updVec n (fun x => { x with mask := m }))

/-- A word of one bit per vector. -/
def State.vecWord (_s : State) (half : Nat) (f : Nat → Bool) : Word := word ((List.range 32).foldl (fun a i => a + bit (f (32 * half + i)) * 2 ^ i) 0)

/-- VEC_MASK_READ: every earlier write has taken effect, as commands act in order (R303). -/
def State.vecMaskRead (s : State) (half : Nat) : State :=
  { s with hif := { s.hif with rdData := s.hif.rdData.set 0 0 (s.vecWord half (fun v => (s.vec v).mask)) } }

/-- VEC_PEND_SET: pending and ripe (R294, R295). -/
def State.vecPendSet (s : State) (half : Nat) (v : Word) : State := s.each (wordBits (32 * half) v) (fun n a => a.updVec n (fun x => { x with pend := true, ripe := true }))

/-- VEC_PEND_CLR: pending again at once while an enabled level source is asserted (R294). -/
def State.vecPendClr (s : State) (half : Nat) (v : Word) : State :=
  s.each (wordBits (32 * half) v) (fun n a =>
    let b := a.updVec n (fun x => { x with pend := false, ripe := false })
    if b.vecLevel n then b.updVec n (fun x => x.rePend b.now) else b)

/-- VECTOR_LAUNCH: the MSI-X launch point sends its message, the supervisor's claims (R296-R298, R305). -/
def State.vectorLaunch (s : State) (supervisor : Bool) : State :=
  if supervisor then (match s.pickVec 2 with | some v => s.claim v | none => s)
  else match s.pickVec 0 with
    | some v => (s.hostWrite ((s.msixWord (4 * v + 1)).toNat * 2 ^ 32 + (s.msixWord (4 * v)).toNat) [s.msixWord (4 * v + 2)]).claim v
    | none => s

/-- COALESCE_TIMER (R295). -/
def State.coalesceTimer (s : State) (v : Nat) : State :=
  let x := s.vec v
  match x.first with
  | some t => if x.pend ∧ t + x.timeUse * tus ≤ s.now then s.updVec v (fun x => { x with ripe := true }) else s
  | none => s

/-- The asserted or latched sources of a vector, lowest first. -/
def State.vecSources (s : State) (v : Nat) : List Nat := (List.range 512).filter (fun n => decide ((s.srcCfg n).vector = v) && s.srcHot n)

/-- SUPERVISOR_VECTOR: the supervisor logs a launched vector and completes it (R305). -/
def State.supervisorVector (s : State) (v : Nat) : State :=
  if (s.vec v).active ∧ (s.vec v).target = 2 then
    let l := (s.vecSources v).take 8
    let s1 := s.record (0xE00 + v) 0 0x02 false ((List.range 8).foldl (fun a i => a + fld (2 * i) (l.getD i 0xFFFF)) 0)
    let s2 := s1.each (l.filter edgeSrc) (fun n a => { a with intc := { a.intc with lat := a.intc.lat &&& ~~~(BitVec.twoPow 512 n) } })
    s2.vecComplete v
  else s

/-- The events of R256 complete every ACTIVE vector of target 0 or 1 (R306). -/
def State.intcFlr (s : State) : State :=
  s.each ((List.range 64).filter (fun v => (s.vec v).active && decide ((s.vec v).target ≤ 1))) (fun v a => a.vecComplete v)

end Sys2Proof.Machine
end

