-- ==== Sys2Proof/Machine/Recorder.lean ====
section
/-! DEFINITION. The Diwell recorder (chapter 12): record words, summaries, flushes to the store, power failure, mount and restore, and the commands REC_NOTE and REC_FLUSH. -/

namespace Sys2Proof.Machine

/-! ## Record layout (R335, Table 12-1) -/

/-- A record's bytes as a number, CHECK 0. -/
def Rec.number (r : Rec) : Nat :=
  fld 0 r.seq + fld 6 r.code + fld 8 r.oph + fld 0xE (r.sev + 4 * bit r.summary) + fld 0xF r.src.toNat + fld 0x10 r.pcc.toNat + fld 0x14 r.dtime.toNat + fld 0x20 r.data.toNat

/-- The words of a record before its CHECK is laid in. -/
def Rec.rawWords (r : Rec) : List Word := (List.range 16).map (fun i => word (r.number >>> (32 * i)))

/-- CHECK: the CRC-32 of bytes 0x00-0x1B and 0x20-0x3F. -/
def Rec.check (r : Rec) : Nat := crc32 (r.rawWords.take 7 ++ r.rawWords.drop 8)

/-- The sixteen words of a record. -/
def Rec.words (r : Rec) : List Word := r.rawWords.take 7 ++ [word r.check] ++ r.rawWords.drop 8

/-- What a slot without a committed record shows: 64 zero bytes (R353). -/
def Rec.blank : Rec := { seq := 0, code := 0, oph := 0, sev := 0, summary := false, src := 0, pcc := 0, dtime := 0, data := 0 }

/-- The slots of the store. -/
def storeSlots : Nat := 131072

/-- The committed record of a slot. -/
def Store.slot (x : Store) (i : Nat) : Rec := x.slots.get Rec.blank (i % storeSlots)

/-- The newest committed SEQ; 0 with none. -/
def Store.newest (x : Store) : Nat := x.slots.foldl (fun a e => max a e.2.seq) 0

/-- The oldest committed SEQ held; 0 with none. -/
def Store.oldest (x : Store) : Nat := x.slots.foldl (fun a e => if a = 0 then e.2.seq else min a e.2.seq) 0

/-- Entry i of the window at a cursor (R353). -/
def State.windowEntry (s : State) (cursor i : Nat) : List Word :=
  let r := s.recd.store.slot (cursor + i)
  if r.seq = 0 then List.replicate 16 0 else r.words

/-- REC_CURSOR_HI_WRITE (R353). -/
def State.recCursorHi (s : State) (v : Word) : State :=
  { s with recd := { s.recd with curHi := lowHalf v, cursor := (lowHalf v).toNat * 2 ^ 32 + s.recd.curLo.toNat } }

/-! ## Summaries (R343) -/

/-- DATA of a summary. -/
def Bucket.summaryData (b : Bucket) : Nat := fld 0 b.supp + fld 4 b.drop + fld 8 b.firstOph + fld 14 b.lastOph

/-- A record of a severity would find its place in the buffer (R344, R345). -/
def State.bufferTakes (s : State) (sev : Nat) : Bool :=
  decide (s.recd.buf.length < 1024) || (decide (2 ≤ sev ∧ s.recd.tombs.length < 256) && s.recd.displaceable.isSome)

/-- A code's summary enters the buffer and its counts begin again; one that finds no place leaves them. -/
def State.summary (s : State) (c : Nat) : State :=
  let b := s.bucket c
  if b.supp = 0 ∧ b.drop = 0 then s
  else if s.bufferTakes b.maxSev then
    (s.bufferEnter c b.maxSev true b.src (BitVec.ofNat 256 b.summaryData)).2.updBucket c (fun b => { b with supp := 0, drop := 0, firstOph := 0, lastOph := 0, maxSev := 0, src := 0 })
  else (s.bufferEnter c b.maxSev true b.src (BitVec.ofNat 256 b.summaryData)).2

/-- Every owed summary, without its token: at a 1 s flush and at a power failure. -/
def State.summaries (s : State) : State := s.each (s.recd.buckets.map (fun e => e.1)) (fun c a => a.summary c)

/-- SUMMARY_RECORD: the bucket holds a token again, which the summary takes. -/
def State.summaryRecord (s : State) (c : Nat) : State :=
  let b := (s.bucket c).sync s.now
  if !s.recd.mounted ∨ (b.supp = 0 ∧ b.drop = 0) ∨ b.fill < tokenUnit then s
  else (s.updBucket c (fun _ => { b with fill := b.fill - tokenUnit })).summary c

/-! ## Flushes (R346-R348) -/

/-- A flush begins with what the buffer and the tombstone list hold. -/
def State.flushBegin (s : State) : State :=
  let s1 := if s.recd.wantCkpt then s.summaries else s
  { s1 with recd := { s1.recd with
      flush := some { start := s1.now, upTo := s1.recd.nextSeq - 1, n := s1.recd.buf.length + s1.recd.tombs.length, ckpt := s1.recd.wantCkpt, pfail := s1.recd.intakeClosed }
      want := false, wantCkpt := false } }

/-- FLUSH_START: a trigger is in force and no flush runs (R346). -/
def State.flushStart (s : State) : State := if s.recd.mounted ∧ s.recd.want ∧ s.recd.flush = none then s.flushBegin else s

/-- PERIODIC_FLUSH: a whole second of DTIME asks for a flush with a checkpoint (R346, R347). -/
def State.periodicFlush (s : State) : State := if s.recd.mounted && s.onGrid tsec then (s.askFlush true).flushStart else s

/-- The tombstone of a displaced record as it is written (R345). -/
def Rec.tomb (r : Rec) : Rec := { r with code := 5, sev := 0, summary := false, data := BitVec.ofNat 256 (fld 0 r.code + fld 2 r.sev) }

/-- The records and tombstones of a flush. -/
def Recd.flushed (x : Recd) (upTo : Nat) : List Rec := (x.buf ++ x.tombs.map Rec.tomb).filter (fun r => decide (r.seq ≤ upTo))

/-- A REC_FLUSH. -/
def isRecFlush (p : Pend) : Bool := match p.desc with | .recFlush => true | _ => false

/-- Every record up to a SEQ is committed. -/
def Recd.committedTo (x : Recd) (q : Nat) : Bool := x.buf.all (fun r => decide (q < r.seq)) && x.tombs.all (fun r => decide (q < r.seq))

/-- The REC_FLUSHes whose condition holds complete (R356); `aux` is the last SEQ assigned before acceptance. -/
def State.recFlushCheck (s : State) : State :=
  if s.recd.intakeClosed ∧ (s.recd.flush ≠ none ∨ s.recd.want) then s
  else s.completeAll (fun p => isRecFlush p && (s.recd.intakeClosed || s.recd.committedTo p.aux)) .ok

/-- A slot that failed its verify twice is mapped to a spare (R348). -/
def State.storeFail (s : State) (slot : Nat) : State :=
  let sp := s.recd.store.spares ++ [slot]
  let s1 : State := { s with recd := { s.recd with store := { s.recd.store with spares := sp } } }
  let s2 : State := s1.raise 4 2 .device
  if sp.length = 768 then s2.raise 4 3 .device else s2

/-- The bound on a flush's time, in ticks (R346). -/
def flushBound (n : Nat) : Nat := tus + n * 33 * tns

/-- FLUSH_END: the flush's records are committed in SEQ order; the list names the SEQs whose write failed its verify twice (R346-R349). -/
def State.flushEnd (s : State) (bad : List Nat) : State :=
  match s.recd.flush with
  | none => s
  | some f =>
    if s.now ≤ f.start then s
    else
      let l := s.recd.flushed f.upTo
      let el := s.now - f.start
      let st := { s.recd.store with
        slots := l.foldl (fun t r => Tab.set t Rec.blank (r.seq % storeSlots) r) s.recd.store.slots
        ckpts := if f.ckpt then (s.recd.store.ckpts ++ [s.oph]).drop (s.recd.store.ckpts.length + 1 - 64) else s.recd.store.ckpts }
      let s1 := { s with recd := { s.recd with
        store := st, buf := s.recd.buf.filter (fun r => decide (f.upTo < r.seq)), tombs := s.recd.tombs.filter (fun r => decide (f.upTo < r.seq))
        flush := none, lastFlush := min 0xFFFF (el / (10 * tns)) } }
      let s2 := s1.each ((bad.filter (fun q => l.any (fun r => decide (r.seq = q)))).map (fun q => q % storeSlots)) (fun i a => a.storeFail i)
      let s3 := if flushBound f.n < el then s2.raise 4 6 .device else s2
      s3.recFlushCheck

/-! ## Commands (R355, R356) -/

/-- Checks of REC_NOTE. -/
def chkRecNote (note : Half) (s : State) : Checks :=
  { range := firstBad [(8, decide (note.toNat ≤ 511))]
    state := if 1024 ≤ s.recd.buf.length ∨ s.recd.intakeClosed then refState else none
    worst := some 0 }

/-- A list of words laid out as bytes. -/
def wordsNumber (ws : List Word) : Nat := ((List.range ws.length).zip ws).foldl (fun a e => a + fld (4 * e.1) e.2.toNat) 0

/-- A REC_NOTE writes its record and completes with its sequence number. -/
def startRecNote (p : Pend) (note : Half) (data : List Word) (s : State) : State :=
  (s.record (0xC00 + note.toNat) 0 0x20 true (wordsNumber (data.take 8))).complete p .ok (word s.recd.nextSeq) 0

/-- Checks of REC_FLUSH: the flush in progress and its own take at most 44.3 µs. -/
def chkRecFlush : Checks := { range := none, state := none, worst := some (44300 * tns) }

/-- A REC_FLUSH asks for a flush. -/
def startRecFlush (p : Pend) (s : State) : State :=
  let s1 := s.updPend p.id (fun q => { q with aux := s.recd.nextSeq - 1 })
  (if s.recd.intakeClosed then s1 else s1.askFlush false).recFlushCheck

/-! ## Power failure (R349, R350) -/

/-- PFAIL_N_FALL. -/
def State.pfailFall (s : State) : State :=
  let s0 := s.irqEdge 22
  if !s0.recd.mounted then { s0 with recd := { s0.recd with pfailLow := true, pfailAt := s0.now } }
  else
    let s1 := (s0.bufferEnter 4 2 false 4 (BitVec.ofNat 256 (fld 0 s0.recd.buf.length))).2
    let s2 := s1.summaries
    ({ s2 with recd := { s2.recd with intakeClosed := true, pfailLow := true, pfailAt := s.now, pfailOph := s.oph } }).askFlush true

/-- PFAIL_N_RETURN: 10 ms high without a reset. -/
def State.pfailReturn (s : State) : State :=
  if s.recd.pfailLow ∧ s.recd.pfailAt + 10 * tms ≤ s.now then
    let s1 := { s with recd := { s.recd with intakeClosed := false, pfailLow := false } }
    s1.record 7 1 4 true (fld 0 s.recd.pfailOph)
  else s

/-! ## Mount and restore (R337-R341) -/

/-- The OPH a store resumes from (R338): the larger of its newest checkpoint and its newest record's, plus 1 ms. -/
def Store.resume (x : Store) : Nat := max (x.ckpts.foldl max 0) (x.slots.foldl (fun a e => max a e.2.oph) 0) + 1

/-- The recorder mounts its store (R340): SEQ, OPH and PCC continue, and record 0x0001 is written. -/
def State.mount (s : State) : State :=
  let st := s.recd.store
  let blank := !st.used
  let oph := if blank then 0 else st.resume
  let pcc := word (min 0xFFFFFFFF (st.pcc.toNat + 1))
  let s1 := { s with recd := { s.recd with
    mounted := true, nextSeq := max st.newest st.lastSeq + 1, ophBase := oph, ophAt := s.now, store := { st with pcc := pcc, used := true } } }
  let s2 := s1.record 1 0 4 true (fld 0 pcc.toNat + fld 4 oph + fld 10 (bit blank))
  if !blank && decide (st.newest = 0) then s2.raise 4 5 .device else s2

/-- A record as its words spell it. -/
def recOfWords (ws : List Word) : Rec :=
  let n := wordsNumber ws
  let f (off len : Nat) : Nat := (n >>> (8 * off)) % 2 ^ (8 * len)
  { seq := f 0 6, code := f 6 2, oph := f 8 6, sev := f 0xE 1 % 4, summary := decide ((f 0xE 1 / 4) % 2 = 1), src := BitVec.ofNat 8 (f 0xF 1), pcc := word (f 0x10 4),
    dtime := BitVec.ofNat 64 (f 0x14 8), data := BitVec.ofNat 256 (f 0x20 32) }

/-- The record a staged image holds in a slot: one whose words are whole, in its own slot. -/
def Recd.imageSlot (x : Recd) (i : Nat) : Option Rec :=
  let ws := (List.range 8).flatMap (fun j => let w := x.staging.get 0 (8 * i + j); [w.extractLsb' 0 32, w.extractLsb' 32 32])
  let r := recOfWords ws
  if r.seq ≠ 0 ∧ r.seq % storeSlots = i ∧ r.words = ws then some r else none

/-- The records of a staged image, by the slots its words name. -/
def Recd.imageSlots (x : Recd) : Tab Rec :=
  (x.staging.map (fun e => e.1 / 8)).foldl (fun t i => match (if i < storeSlots then x.imageSlot i else none) with | some r => Tab.set t Rec.blank i r | none => t) []

/-- The staged image becomes the store (R341, R412): SEQ, OPH and PCC continue from the larger values, and record 0x0002 is written. -/
def State.restoreImage (s : State) : State :=
  let g := s.recd.staging
  let img : Store := { slots := s.recd.imageSlots, spares := s.recd.store.spares, ckpts := [Config.imageMeta 1 g], pcc := word (Config.imageMeta 0 g), used := true, lastSeq := s.recd.store.lastSeq
                       auth := (List.range 320).foldl (fun t i => Tab.set t (cword 0) i (word (Config.imageMeta (16 + i) g))) [] }
  let before := s.oph
  let oph := max before (img.resume - 1) + 1
  let s1 := { s with recd := { s.recd with
    nextSeq := max (s.recd.nextSeq - 1) img.newest + 1, ophBase := oph, ophAt := s.now
    store := { img with pcc := word (max img.pcc.toNat s.recd.store.pcc.toNat) } } }
  s1.record 2 1 0x23 true (fld 0 before + fld 6 oph)

/-- TSTACC operation 3: OPH never goes back (R339). -/
def State.writeOph (s : State) (v : Nat) : State :=
  if v < s.oph then s else { s with recd := { s.recd with ophBase := v, ophAt := s.now } }

/-! ## Symbol errors in the buffer (R355) -/

/-- The buffer entry that holds a word is lost: record 0x0006 stands in its place, at its SEQ and times. -/
def State.recEntryLost (s : State) (w : Nat) : State :=
  match s.recd.buf[w / 8]? with
  | some r => { s with recd := { s.recd with buf := s.recd.buf.map (fun x => if x.seq = r.seq then { r with code := 6, sev := 2, summary := false, src := 4, data := 0 } else x) } }
  | none => s

end Sys2Proof.Machine
end

