-- ==== Sys2Proof/Machine/FaultCmds.lean ====
section
/-! DEFINITION. Fault handling (chapter 11): severity writes, acknowledgement with condition sources, grace expiry, the policy word, the scrubber and the symbol code, complemented words, the watchdog and ALIVE, and fault injection (R309-R334). -/

namespace Sys2Proof.Machine

/-! ## Severity, grace and policy registers (R315, R317, R323) -/

/-- A severity half with every field at its floor or above; fields of unused sources are 0 (R315). -/
def floorSev (b : Nat) (hi : Bool) (v : Half) : Half :=
  let l := if b = 13 then (if hi then (floors b).drop 8 else (floors b).take 8) else floors b
  BitVec.ofNat 16 ((List.range 8).foldl (fun a i => a + (match l[i]? with | some f => max f (bitsOf v (2 * i) 2) | none => 0) * 4 ^ i) 0)

/-- A refused write of a severity register or of the policy (R315, R323). -/
def State.writeRejected (s : State) : State := ({ s with flt := { s.flt with wrrej := satInc 0xFFFF s.flt.wrrej } }).raise 3 4 .device

/-- SEV_WRITE (R315). Only PROT has a second register. -/
def State.sevWrite (s : State) (b : Nat) (hi : Bool) (v : Word) : State :=
  if hi ∧ b ≠ 13 then s
  else if !cwordOk v then s.writeRejected
  else { s with flt := { s.flt with
    sev := s.flt.sev.set (cword (sevReset b hi)) (sevKey b hi) (cword (floorSev b hi (lowHalf v))), sevLost := s.flt.sevLost.set false (sevKey b hi) false } }

/-- A write of a block's GRACE register: 0 leaves it unchanged. -/
def State.graceWrite (s : State) (b : Nat) (v : Word) : State :=
  if lowHalf v = 0 then s else { s with flt := { s.flt with grace := s.flt.grace.set 0x03E8 b (lowHalf v) } }

/-- FLT_POLICY_WRITE (R323): nothing while LOCK is in force. -/
def State.policyWrite (s : State) (v : Word) : State :=
  if s.policyBit 15 then s
  else if !cwordOk v then s.writeRejected
  else { s with flt := { s.flt with policy := cword (lowHalf v &&& 0x8003) } }

/-! ## Acknowledgement and grace (R312, R313, R317-R320) -/

/-- The scopes in which the condition of source k is present; none for an event source (R313 and the chapters' tables). -/
def State.condScopes (s : State) (k : Nat) : List FScope :=
  let b := k / 16
  let n := k % 16
  let was := (s.fsrc k).scopes
  if 6 ≤ b ∧ b ≤ 9 then
    if n = 6 then (((List.range 8).map (fun c => 8 * (b - 6) + c)).filter (fun c => decide (1 ≤ (s.txc c).level))).map FScope.tx
    else if n = 4 then (if s.rfe.ckLocked.getLsbD (b - 6) then [] else [.tile (b - 6)])
    else []
  else if k = 82 then
    was.filter (fun f => match f with
      | .tile t => (match (s.tileT t).dpGoodAt with | some g => decide (s.now < g + tsec) | none => true)
      | _ => true)
  else if k = 50 then (if s.flt.stall then [.device] else [])
  else if k = 0 ∨ k = 1 then was
  else if k = 2 then (if s.rfe.ckLocked = 0xF then [] else [.device])
  else if k = 197 then ((List.range 256).filter (fun n => (s.gain n).agcLimit)).map FScope.slot
  else []

/-- One occurrence with several scopes. -/
def State.occurIn (s : State) (k : Nat) (l : List FScope) (inj : Bool) : State :=
  match l with
  | [] => s
  | f :: r =>
    r.foldl (fun a g =>
      let b := a.updFsrc k (fun x => { x with scopes := a.addScope x.scopes g })
      if (b.fsrc k).level = 3 then b.faultWinter State.record k g else b) (s.occurWith State.record k f inj)

/-- Raise one occurrence with several scopes. -/
def State.raiseIn (s : State) (b n : Nat) (l : List FScope) (inj : Bool) : State := ((s.checkPolicy).checkCopies b).occurIn (16 * b + n) l inj

/-- A source no longer holds FAULT on the objects outside a list; where none is left the cause is marked cleared (R313). -/
def State.faultDrop (s : State) (k : Nat) (keep : List Nat) : State :=
  s.each ((s.prot.objs.filter (fun e => e.2.faultBy.contains k && !keep.contains e.1)).map (fun e => e.1)) (fun i a =>
    let b := a.updObj i (fun o => { o with faultBy := o.faultBy.filter (fun j => decide (j ≠ k)) })
    if (b.wobj i).faultBy = [] then b.clearCause i 8 else b)

/-- The acknowledgement of a set source. -/
def State.ackOne (s : State) (k : Nat) : State :=
  let x := s.fsrc k
  let still := s.condScopes k
  let s1 := s.updFsrc k (fun _ => { FSrc.reset with level := s.sev (k / 16) (k % 16) })
  let s2 := State.record s1 (0x100 + k) (s1.fsrc k).level (BitVec.ofNat 8 (k / 16)) true
    (let f := match x.scopes with | f :: _ => f | [] => FScope.device
     fld 0 4 + fld 1 (s1.fsrc k).level + fld 2 f.code.1 + fld 3 f.code.2.1 + fld 6 (bit x.inj) + fld 7 f.code.2.2 + fld 8 x.tFirst.toNat)
  let s3 := (s2.updFsrc k (fun _ => FSrc.reset)).faultDrop k (still.flatMap s2.scopeObjs)
  s3.occurIn k still x.inj

/-- GRACE_EXPIRY (R317, R318). -/
def State.graceExpiry (s : State) (k : Nat) : State :=
  match (s.fsrc k).grace with
  | some t =>
    if t ≤ s.now then
      let s1 := s.checkCopies (k / 16)
      if (s1.fsrc k).grace = some t then
        let s2 := s1.updFsrc k (fun x => { x with level := 3, grace := none })
        let f := match (s2.fsrc k).scopes with | f :: _ => f | [] => FScope.device
        (s2.faultRecord State.record k 2 f (s2.fsrc k).inj).escalateWinter State.record k
      else s1
    else s
  | none => s

/-- FAULT_ACK: every bit written 1 whose STATUS is set; an expiry that is due prevails (R312, R320). -/
def State.faultAck (s : State) (b : Nat) (v : Word) : State :=
  let ks := ((List.range 16).filter (fun n => v.getLsbD n)).map (fun n => 16 * b + n)
  let s1 := (s.checkCopies b).each ks (fun k a => a.graceExpiry k)
  s1.each ks (fun k a => if (a.fsrc k).status then a.ackOne k else a)

/-! ## Symbol-coded memories (R327-R329) -/

/-- The source and scopes that a holder raises for the word at a test address (Table 11-5): block, SYM_UNCORR's number, SYM_CORR's number, scopes. -/
def State.symHolder (s : State) (a : Nat) : Option (Nat × Nat × Nat × List FScope) :=
  let b := a / 2 ^ 28
  let o := a / 2 ^ 20 % 256
  match b with
  | 10 => some (10, 1, 2, [.slot o])
  | 11 => some (11, 1, 2, [.rx (s.inst (o % 64)).rx])
  | 12 => some (12, 1, 2, match s.lutUsers o with | [] => [.device] | l => l.map FScope.slot)
  | 13 => some (13, 1, 2, [.tx (o % 32)])
  | 14 => some (14, 1, 2, if o % 128 < 4 then [.device] else match s.startedTasks (o % 128) with | [] => [.task (o % 128) 0] | l => l.map (FScope.task (o % 128)))
  | 15 => some (15, 1, 2, [.device])
  | 1 => some (1, 0, 1, [.device])
  | 2 => some (2, 0, 1, [.device])
  | 4 => some (4, 0, 1, [.device])
  | _ => if 6 ≤ b ∧ b ≤ 9 then some (b, 1, 2, [.tx (o % 32)]) else none

/-- A descriptor that reads host data and has not committed. -/
def hasData (p : Pend) : Bool :=
  !p.committed && (match p.desc with
    | .slotCoefLoad .. => true | .txPowerTableLoad .. => true | .cxResetSeed .. => true | .gclLutLoad .. => true | .leImageLoad .. => true | .leTaskStart .. => true
    | _ => false)

/-- What an uncorrectable word does beyond its fault (Table 11-5, R246, R355). -/
def State.symLost (s : State) (a : Nat) : State :=
  match a / 2 ^ 28 with
  | 1 => match (s.pends hasData).head? with | some p => s.complete p .badDescriptor 0xFF 0 | none => s
  | 4 => s.recEntryLost (a % 2 ^ 16)
  | 14 => s.each ((s.startedTasks (a / 2 ^ 20 % 128)).filter (fun t => decide ((s.task (taskKey (a / 2 ^ 20 % 128) t)).st ≠ .trapped)))
            (fun t x => x.takeTrapI (a / 2 ^ 20 % 128) t .mem true)
  | _ => s

/-- A read or the scrubber finds what a word holds (R327-R329): nothing, a correctable error, or an uncorrectable one. -/
def State.symFound (s : State) (a : Nat) (scrub : Bool) : State :=
  match s.symHolder a with
  | none => s
  | some h =>
    let n := (s.flt.flipped.filter (fun e => decide (e.1 = a))).length
    let s1 : State := { s with flt := { s.flt with flipped := s.flt.flipped.filter (fun e => decide (e.1 ≠ a)) } }
    if n = 0 then s
    else if n = 1 ∨ (3 ≤ n ∧ Config.imitates a) then
      let s2 : State := if scrub then { s1 with flt := { s1.flt with corr := s1.flt.corr + (if s1.flt.corr = 0xFFFFFFFF then 0 else 1) } } else s1
      s2.raiseIn h.1 h.2.2.1 h.2.2.2 true
    else
      let s2 : State := { s1 with flt := { s1.flt with
        poisoned := if s1.flt.poisoned.contains a then s1.flt.poisoned else s1.flt.poisoned ++ [a]
        unc := if scrub ∧ s1.flt.unc ≠ 0xFFFFFFFF then s1.flt.unc + 1 else s1.flt.unc } }
      (s2.symLost a).raiseIn h.1 h.2.1 h.2.2.2 true

/-! ## Complemented words (R326, Table 11-4) -/

/-- The scope object whose PW_CAUSE lies at an offset of PROT. -/
def pwObj (off : Nat) : Option Nat :=
  if off % 16 ≠ 0 then none
  else if off < 0x1000 then some (off / 16)
  else if off < 0x1200 then some (objChain ((off - 0x1000) / 16))
  else if 0x1200 ≤ off ∧ off < 0x1240 then some (objTile ((off - 0x1200) / 16))
  else if off = 0x1240 then some objDevice else none

/-- The transmit chains of a direction. -/
def State.dirTx (s : State) (up : Bool) : List Nat := (List.range 32).filter (fun c => decide (roleUp (s.chain (32 + c)).role = up))

/-- The value that stands in for a complemented word of GCL (Table 11-4): -60.00 dB. -/
def Gain.substitute (g : Gain) (off : Nat) : Gain :=
  match off with
  | 0x04 => { g with host := -1200 }
  | 0x08 => { g with target := -1200 }
  | 0x0C => { g with acc := -120000, applied := -1200 }
  | 0x10 => { g with cap := -1200 }
  | 0x14 => { g with capl := -1200 }
  | _ => { g with capm := -1200 }

/-- What a corrupt PW_CAUSE word of object i raises: CW_MISMATCH, in the scope of the chains it mutes (R326). -/
def State.complObj (s : State) (i : Nat) : State :=
  if i < 256 then (match (s.slot i).txDest with | some c => s.raiseI 13 0 (.tx c) true | none => s.raiseI 13 0 (.slot i) true)
  else s.raiseIn 13 0 ((objTx i).map FScope.tx) true

/-- What a corrupt complemented word at a BAR0 offset loses and raises (R326, R331). -/
def State.complLost (s : State) (a : Nat) : State :=
  if 0xB0000 ≤ a ∧ a < 0xB4000 then
    (s.updGain ((a - 0xB0000) / 0x40) (fun g => g.substitute (a % 0x40))).raiseI 12 0 (.slot ((a - 0xB0000) / 0x40)) true
  else if 0xA0000 ≤ a ∧ a < 0xB0000 then
    (s.updInst ((a - 0xA0000) / 0x400) (fun x => x.clearPub)).raiseI 11 0 (.rx (s.inst ((a - 0xA0000) / 0x400)).rx) true
  else if 0x80000 ≤ a ∧ a < 0x90000 then
    s.raiseI (6 + (a - 0x80000) / 0x4000) 0 (.tx (8 * ((a - 0x80000) / 0x4000) + (a % 0x4000 - 0x800) / 0x100)) true
  else if 0xC5000 ≤ a ∧ a < 0xC5800 then
    s.raiseIn 13 0 ((s.dirTx ((s.authWord ((a - 0xC5000) / 0x20) 0).getLsbD 14)).map FScope.tx) true
  else match pwObj (a - 0xC0000) with | some i => s.complObj i | none => s

/-- A check of the complemented register word at a BAR0 offset: a bad one raises its source and its substitute stands in (R326, Table 11-4). -/
def State.checkCompl (s : State) (a : Nat) : State :=
  if !s.flt.badCompl.contains a then s
  else ({ s with flt := { s.flt with badCompl := s.flt.badCompl.filter (fun x => decide (x ≠ a)) } }).complLost a

/-- Every complemented word of a range that is due a check. -/
def State.complSweep (s : State) (lo hi : Nat) : State := s.each (s.flt.badCompl.filter (fun a => decide (lo ≤ a ∧ a < hi))) (fun a x => x.checkCompl a)

/-- The register words that are complemented words with a stored complement (Table 11-4). -/
def complWord (a : Nat) : Bool :=
  (decide (0xB0000 ≤ a ∧ a < 0xB4000) && [4, 8, 0xC, 0x10, 0x14, 0x18].contains (a % 0x40)) ||
  (decide (0xA0000 ≤ a ∧ a < 0xB0000) && [0x14, 0x18, 0x1C].contains (a % 0x400)) ||
  (decide (0x80000 ≤ a ∧ a < 0x90000 ∧ 0x800 ≤ a % 0x4000 ∧ a % 0x4000 < 0x1000 ∧ a % 0x100 = 0x10)) ||
  (decide (0xC5000 ≤ a ∧ a < 0xC5800 ∧ a % 0x20 ≤ 0x10 ∧ a % 4 = 0)) ||
  (decide (0xC0000 ≤ a ∧ a < 0xC2000) && (pwObj (a - 0xC0000)).isSome)

/-! ## The scrubber and the watchdog (R324, R325, R329) -/

/-- SCRUB_CHECK. -/
def State.scrubCheck (s : State) : ScrubTarget → State
  | .memWord a => s.symFound a.toNat true
  | .faultRegs b => s.checkCopies b.val
  | .compl a => s.checkCompl a.toNat
  | .policy => s.checkPolicy

/-- SCRUB_PASS_END: a pass longer than 1 s raises SCRUB_LATE. -/
def State.scrubPass (s : State) (ms : Half) : State :=
  let s1 : State := { s with flt := { s.flt with passes := s.flt.passes + 1, passMs := ms } }
  if 1000 < ms.toNat then s1.raise 3 3 .device else s1

/-- SUPERVISOR_HEARTBEAT: a suppressed one is not written (R325, R330). -/
def State.heartbeatLe (s : State) (n : Nat) : State :=
  if s.now < s.flt.hbOff.get 0 n then s
  else { s with flt := { s.flt with hbRun := true, hb := s.flt.hb.set 0 n s.now, hbMiss := s.flt.hbMiss &&& ~~~(BitVec.twoPow 4 n) } }

/-- SUP_STALL: 1 ms since the last heartbeat written by LE n (R325). -/
def State.supStall (s : State) (n : Nat) : State :=
  let t := s.flt.hb.get 0 n
  if s.flt.hbRun && !s.flt.hbMiss.getLsbD n && decide (t + tms ≤ s.now) then
    ({ s with flt := { s.flt with hbMiss := s.flt.hbMiss ||| BitVec.twoPow 4 n, stall := true } }).raiseI 3 2 .device (decide (t < s.flt.hbOff.get 0 n))
  else s

/-- ALIVE may toggle (R324). -/
def State.aliveOk (s : State) : Bool := !s.inWinter objDevice && !s.flt.stall

/-- ALIVE_HALF_PERIOD: a boundary of the internal oscillator, 500 µs ± 1% after the last (R324). -/
def State.aliveHalf (s : State) : State :=
  if s.tst.inReset ∨ s.now < s.flt.halfAt + 495 * tus then s
  else
    let x := { s.flt with halfAt := s.now }
    if s.aliveOk then { s with flt := { x with toggling := true, alive := if x.toggling then !x.alive else true } }
    else { s with flt := { x with toggling := false, alive := false, stops := if x.toggling then satInc 0xFFFF x.stops else x.stops } }

/-! ## Fault injection (R330, R331, Table 11-6) -/

/-- The port takes instruction code c (R408). -/
def State.tapIr (s : State) (c : Byte) : State := { s with tst := { s.tst with ir := c } }

/-- An injection executes only with TEST_EN latched high, and raises INJECTED (R330, R331). -/
def State.inject (s : State) (f : State → State) : State :=
  let s1 := s.tapIr 0x20
  if s1.tst.straps.testEn then (f s1).raiseI 3 5 .device true else { s1 with tst := { s1.tst with tapOut := 0 } }

/-- The scope of a source for an object index (R316, R330); a chain index above 31 names a receive chain where the source serves both directions. -/
def State.injScope (s : State) (b n o : Nat) : FScope :=
  if b = 5 then (if n = 2 ∨ n = 3 ∨ n = 5 then .tile (o % 4) else .device)
  else if 6 ≤ b ∧ b ≤ 9 then
    (if n = 4 ∨ n = 7 then .tile (b - 6) else if n = 3 ∨ n = 5 then (if o % 64 < 32 then .tx (o % 32) else .rx (o % 32)) else .tx (o % 32))
  else if b = 10 then (if n = 5 then .tx (o % 32) else if n = 7 then .rx (o % 32) else .slot o)
  else if b = 11 then .rx (s.inst (o % 64)).rx
  else if b = 12 then (if n = 3 ∨ n = 4 then .rx (s.inst (o % 64)).rx else .slot o)
  else if b = 13 then
    (if n = 5 then .rx (o % 32) else if n = 3 ∨ n = 4 ∨ n = 6 ∨ n = 10 ∨ n = 14 then .slot o else if n = 11 then .device
     else if n = 12 then (if o % 8 < 4 then .tile (o % 4) else .device) else .tx (o % 32))
  else if b = 14 then (if o % 128 < 4 then .device else .task (o % 128) (match s.startedTasks (o % 128) with | t :: _ => t | [] => 0))
  else if b = 15 then (if n = 0 then .slot o else if n = 7 then .tx (o % 32) else .device)
  else .device

/-- The WINTER cause that is a PROT source's own action (R177). -/
def ownCause (n : Nat) : Option Nat := match n with | 3 => some 0 | 8 => some 4 | 10 => some 6 | 12 => some 7 | 13 => some 13 | 14 => some 14 | _ => none

/-- KIND 1: the source is raised for the object; a trigger whose action is its own WINTER takes it (R177, R331). Sources a block does not have do nothing. -/
def State.injRaise (s : State) (b n o : Nat) : State :=
  if (floors b).length ≤ n then s
  else if b = 13 ∧ n = 3 then s.oscEntry o true
  else
    let f := s.injScope b n o
    let s1 := s.raiseI b n f true
    match (if b = 13 then ownCause n else none) with
    | some c => s1.each (s1.scopeObjs f) (fun i a => a.winterSet i c 0)
    | none => s1

/-- KIND 2: SEV_N of a block is inverted in storage. -/
def State.injSev (s : State) (b : Nat) : State :=
  let flip (a : State) (hi : Bool) : State :=
    { a with flt := { a.flt with sev := a.flt.sev.set (cword (sevReset b hi)) (sevKey b hi) (a.sevReg b hi ^^^ 0xFFFF0000) } }
  if b = 13 then flip (flip s false) true else flip s false

/-- KIND 3: the hidden copy of a STATUS bit is inverted. -/
def State.injCopy (s : State) (k : Nat) : State := s.updFsrc k (fun x => { x with copyBad := !x.copyBad })

/-- KIND 4: bit 0 of each selected symbol of a word is inverted; a second inversion restores it. -/
def State.injSymbols (s : State) (m : BitVec 10) (a : Nat) : State :=
  if (s.symHolder a).isNone then s
  else
    let l := (List.range 10).filter (fun i => m.getLsbD i)
    { s with flt := { s.flt with flipped := l.foldl (fun t i => if t.contains (a, i) then t.filter (fun e => decide (e ≠ (a, i))) else t ++ [(a, i)]) s.flt.flipped } }

/-- The BAR0 offset of a block's STATUS register. -/
def fltBase (b : Nat) : Nat :=
  match b with
  | 0 => 0x100 | 1 => 0x13F00 | 2 => 0x21800 | 3 => 0x30200 | 4 => 0x4C000 | 5 => 0x50800 | 6 => 0x81400 | 7 => 0x85400 | 8 => 0x89400 | 9 => 0x8D400
  | 10 => 0x92090 | 11 => 0xA0380 | 12 => 0xB8010 | 13 => 0xC6010 | 14 => 0xD8010 | _ => 0xE0C00

/-- The SEV register at a BAR0 offset. -/
def sevAt (a : Nat) : Option (Nat × Bool) :=
  if a = 0xC6018 then some (13, true) else ((List.range 16).find? (fun b => decide (fltBase b + 4 = a))).map (fun b => (b, false))

/-- KIND 5: the complement half of a complemented word is inverted. -/
def State.injCompl (s : State) (a : Nat) : State :=
  if a = 0x30000 then { s with flt := { s.flt with policy := s.flt.policy ^^^ 0xFFFF0000 } }
  else match sevAt a with
    | some (b, hi) => { s with flt := { s.flt with sev := s.flt.sev.set (cword (sevReset b hi)) (sevKey b hi) (s.sevReg b hi ^^^ 0xFFFF0000) } }
    | none =>
      if !complWord a then s
      else if 0xC5000 ≤ a ∧ a < 0xC5800 then
        let i := 5 * ((a - 0xC5000) / 0x20) + a % 0x20 / 4
        { s with prot := { s.prot with auth := s.prot.auth.set (cword 0) i (s.prot.auth.get (cword 0) i ^^^ 0xFFFF0000) }
                 flt := { s.flt with badCompl := if s.flt.badCompl.contains a then s.flt.badCompl.filter (fun x => decide (x ≠ a)) else s.flt.badCompl ++ [a] } }
      else { s with flt := { s.flt with badCompl := if s.flt.badCompl.contains a then s.flt.badCompl.filter (fun x => decide (x ≠ a)) else s.flt.badCompl ++ [a] } }

/-- KIND 6: the heartbeat of a supervisor engine is suppressed for 2 ms. -/
def State.injHeartbeat (s : State) (n : Nat) : State := { s with flt := { s.flt with hbOff := s.flt.hbOff.set 0 n (s.now + 2 * tms) } }

end Sys2Proof.Machine
end

