-- ==== Sys2Proof/Machine/HostPort.lean ====
section
/-! DEFINITION. The host port (chapter 9): rings and doorbells, function reset and bus mastering, the event ring, subscriptions and captures. -/

namespace Sys2Proof.Machine

/-! ## Command rings (R260-R266, Table 9-6) -/

/-- A RUNNING ring stops; a FENCE or a failed fetch at HEAD is read again after the restart. -/
def State.stopRing (s : State) (n cause : Nat) : State :=
  if (s.ring n).st = .running then s.updRing n (fun r => { r with st := .stopped, cause := cause, fence := none, retry := none }) else s

/-- The completions of a ring that were held while Bus Master Enable was clear are written (R257). -/
def State.flushHeld (s : State) (n : Nat) : State :=
  let l := s.hif.held.filter (fun c => decide (c.ring = n))
  let s1 : State := { s with hif := { s.hif with held := s.hif.held.filter (fun c => decide (c.ring ≠ n)) } }
  (l.foldl (fun a c => a.putCompl c) s1).drainCheck n

/-- Held completions of a ring that no longer stands STOPPED leave when the bus is open. -/
def State.flushHeldIf (s : State) (n : Nat) : State := if s.hif.busMaster then s.flushHeld n else s

/-- SIZE as a configuration write leaves it. -/
def sizeWrite (open_ : Bool) (old : Nat) (v : Word) : Nat := let n := bitsOf v 0 4; if open_ ∧ 6 ≤ n ∧ n ≤ 12 then n else old

/-- A write of CR_CFG (R266, R285, R288). -/
def State.crCfgWrite (s : State) (n : Nat) (v : Word) : State :=
  let off := decide ((s.ring n).st = .disabled)
  let s1 := s.updRing n (fun r => { r with
    privOper := v.getLsbD 30 && (r.privOper || off), privCfg := v.getLsbD 29 && (r.privCfg || off), size := sizeWrite off r.size v })
  if v.getLsbD 31 then
    if off then s1.updRing n (fun r => { r with st := .running, cause := 0, head := 0, tail := 0, ctail := 0, chead := 0, fence := none, retry := none }) else s1
  else
    match (s.ring n).st with
    | .running => (s1.updRing n (fun r => { r with st := .draining, cause := 0, fence := none, retry := none })).drainCheck n
    | .stopped => ((s1.updRing n (fun r => { r with st := .draining, cause := 0, fence := none, retry := none })).flushHeldIf n).drainCheck n
    | _ => s1

/-- CR_CTL.RESTART (R266, R257). -/
def State.crRestart (s : State) (n : Nat) (v : Word) : State :=
  if v.getLsbD 0 ∧ (s.ring n).st = .stopped ∧ s.hif.busMaster then (s.updRing n (fun r => { r with st := .running, cause := 0 })).flushHeld n else s

/-- Writes of a ring's base words, only while DISABLED (R288). -/
def State.crBaseWrite (s : State) (n reg : Nat) (v : Word) : State :=
  if (s.ring n).st ≠ .disabled then s
  else s.updRing n (fun r => match reg with
    | 0 => { r with crLo := v &&& 0xFFFFFFC0 } | 1 => { r with crHi := v } | 2 => { r with cqLo := v &&& 0xFFFFFFE0 } | _ => { r with cqHi := v })

/-- A doorbell's value: none when bits [31:16] are not 0 (R262). -/
def doorbell (v : Word) : Option Half := if highHalf v = 0 then some (lowHalf v) else none

/-- An invalid consumer doorbell. -/
def State.dbRange (s : State) : State := s.raise 1 3 .device

/-- CR_TAIL doorbell (R262). -/
def State.crTail (s : State) (n : Nat) (v : Word) : State :=
  let r := s.ring n
  match doorbell v with
  | some c => if (c - r.tail).toNat ≤ 2 ^ r.size - (r.tail - r.head).toNat then s.updRing n (fun r => { r with tail := c }) else (s.stopRing n 2).dbRange
  | none => (s.stopRing n 2).dbRange

/-- CQ_HEAD doorbell. -/
def State.cqHead (s : State) (n : Nat) (v : Word) : State :=
  let r := s.ring n
  match doorbell v with
  | some c => if (c - r.chead).toNat ≤ (r.ctail - r.chead).toNat then s.updRing n (fun r => { r with chead := c }) else s.dbRange
  | none => s.dbRange

/-- TR_HEAD doorbell. -/
def State.trHead (s : State) (m : Nat) (v : Word) : State :=
  let r := s.trRing m
  match doorbell v with
  | some c => if (c - r.head).toNat ≤ (r.tail - r.head).toNat then s.updTr m (fun r => { r with head := c }) else s.dbRange
  | none => s.dbRange

/-- ER_HEAD doorbell. -/
def State.erHead (s : State) (v : Word) : State :=
  let r := s.hif.er
  match doorbell v with
  | some c => if (c - r.head).toNat ≤ (r.tail - r.head).toNat then { s with hif := { s.hif with er := { r with head := c } } } else s.dbRange
  | none => s.dbRange

/-! ## Telemetry and event rings (R288, R289) -/

/-- A telemetry or event ring after a write of its configuration: disabling sets the pointers to 0. -/
def OutRing.cfg (r : OutRing) (v : Word) : OutRing :=
  let n := sizeWrite (!r.en) r.size v
  if v.getLsbD 31 then { r with en := true, size := n } else { r with en := false, size := n, tail := 0, head := 0 }

/-- TR_CFG_WRITE. -/
def State.trCfgWrite (s : State) (m : Nat) (v : Word) : State := s.updTr m (fun r => r.cfg v)

/-- ER_CFG_WRITE. -/
def State.erCfgWrite (s : State) (v : Word) : State := { s with hif := { s.hif with er := { s.hif.er.cfg v with minsev := bitsOf v 4 2 } } }

/-- A base or write-back word of a telemetry or event ring, only while it is disabled. -/
def OutRing.base (r : OutRing) (reg : Nat) (v : Word) : OutRing :=
  if r.en then r
  else match reg with | 0 => { r with lo := v &&& 0xFFFFFFC0 } | 1 => { r with hi := v } | 2 => { r with wbLo := v &&& 0xFFFFFFFC } | _ => { r with wbHi := v }

/-- EVENT_COPY: the oldest waiting record goes to the event ring, then TAIL to its write-back address (R282). Nothing leaves while Bus Master Enable is clear (R257). -/
def State.eventCopy (s : State) : State :=
  match s.recd.copyq with
  | [] => s
  | r :: rest =>
    let e := s.hif.er
    let s1 : State := { s with recd := { s.recd with copyq := rest } }
    if !e.en then s1
    else if !s.hif.busMaster then s
    else if (e.tail - e.head).toNat = 2 ^ e.size then
      ({ s1 with hif := { s1.hif with er := { e with drop := if e.drop = 0xFFFFFFFF then e.drop else e.drop + 1 } } }).raise 1 5 .device
    else
      let t := e.tail + 1
      let s2 := s1.hostWrite (entryAddr e.lo e.hi 64 e.size e.tail) r.words
      let s3 : State := { s2 with hif := { s2.hif with er := { e with tail := t } } }
      (s3.hostWrite (e.wbHi.toNat * 2 ^ 32 + e.wbLo.toNat) [word t.toNat]).irqEdge 20

/-! ## Bus mastering and function reset (R256, R257) -/

/-- BUS_MASTER_DISABLE. -/
def State.busMasterOff (s : State) : State :=
  ({ s with hif := { s.hif with busMaster := false } }).each (List.range 16) (fun n a => a.stopRing n 3)

/-- Bus Master Enable is set: rings that wait for no restart get their held completions. -/
def State.busMasterOn (s : State) : State :=
  ({ s with hif := { s.hif with busMaster := true } }).each (List.range 16) (fun n a => if (a.ring n).st = RingSt.stopped ∧ (a.ring n).cause = 3 then a else a.flushHeld n)

/-- The end of the running capture, as far as its memory goes. -/
def Hif.captStop (h : Hif) : Hif := { h with captRun := none, captValid := false }

/-- The fault registers of HIF return to their reset values; FAULT causes they set are marked cleared. -/
def State.hifFaultsReset (s : State) : State :=
  let s1 := s.each ((List.range 16).map (fun n => 16 + n)) (fun k a => (a.updFsrc k (fun _ => FSrc.reset)).faultDrop k [])
  { s1 with flt := { s1.flt with sev := s1.flt.sev.set (cword (sevReset 1 false)) (sevKey 1 false) (cword (sevReset 1 false)), sevLost := s1.flt.sevLost.set false (sevKey 1 false) false,
                                 grace := s1.flt.grace.set 0x03E8 1 0x03E8 } }

/-- FUNCTION_RESET: an event of R256. -/
def State.functionReset (s : State) : State :=
  let s0 := if s.hif.flrWinter then s.winterSet objDevice 9 0 else s
  let h := s0.hif
  let cap := match h.captRun with | some r => some r.id | none => none
  let s1 : State := { s0 with hif := { Hif.reset with
    outstanding := (h.outstanding.filter (fun p => decide (cap ≠ some p.id))).map (fun p => { p with discard := true })
    nextId := h.nextId, hostWrites := h.hostWrites, mgmtForce := h.mgmtForce, mpStatus := h.mpStatus, mpData := h.mpData, mpCursor := h.mpCursor
    captMem := h.captMem, captValid := h.captValid && decide (cap = none), captLen := h.captLen, captCount := h.captCount, captOldest := h.captOldest
    hiLatch := h.hiLatch, rdData := h.rdData, urCount := h.urCount } }
  ((s1.hifFaultsReset).intcFlr).raise 1 6 .device

/-- An access that completes as Unsupported Request: to BAR0 or BAR2, not an aligned 32-bit one, nor an aligned 64-bit one to the MSI-X table (R6, R259). -/
def unsupportedOn (sp : RegSpace) (off size : Nat) : Bool :=
  match sp with
  | .bar0 => !decide (size = 4 ∧ off % 4 = 0)
  | .bar2 => !decide ((size = 4 ∧ off % 4 = 0) ∨ (size = 8 ∧ off % 8 = 0 ∧ 0x8000 ≤ off ∧ off < 0x8400))
  | _ => false

/-- UNSUPPORTED_ACCESS: completes as Unsupported Request and changes no state of the device; the count is the model's own (R6, R259). -/
def State.unsupported (s : State) : State := { s with hif := { s.hif with urCount := s.hif.urCount + 1 } }

/-! ## Subscriptions (R279) -/

/-- The number of set bits of a mask below a width. -/
def maskBits (v : Word) (n : Nat) : Nat := ((List.range n).filter (fun i => v.getLsbD i)).length

/-- INDEX is in the range of KIND (Table 9-13). -/
def subIndexOk (kind index : Nat) : Bool :=
  match kind with | 0 => true | 1 => decide (index < 32) | 2 => decide (index < 32) | 3 => decide (index < 64) | 4 => decide (64 ≤ index ∧ index ≤ 127) | _ => decide (index < 4)

/-- Checks of TELEMETRY_SUBSCRIBE. -/
def chkSubscribe (sub ring kind index : Byte) (mask period : Word) : Checks :=
  let k := kind.toNat
  { range := firstBad [(8, decide (sub.toNat < 64)), (9, decide (ring.toNat < 4)), (0xA, decide (k ≤ 5)), (0xB, subIndexOk k index.toNat),
      (0xC, decide (maskBits mask (if k = 4 then 29 else 32) ≤ 12) && !decide (k = 3 ∧ mask &&& 0xFFFF ≠ 0 ∧ mask >>> 16 ≠ 0)),
      (0x10, decide (period = 0 ∨ (period.toNat % 50 = 0 ∧ 50 ≤ period.toNat ∧ period.toNat ≤ 10000000)))]
    state := none, worst := some 0 }

/-- A TELEMETRY_SUBSCRIBE sets, replaces or cancels its subscription. -/
def startSubscribe (p : Pend) (sub ring kind index : Byte) (mask period : Word) (s : State) : State :=
  let x : Sub := if period = 0 then Sub.reset
    else { active := true, kind := kind.toNat, ring := ring.toNat, index := index.toNat, mask := mask, period := period, count := 0, gap := false }
  ({ s with hif := { s.hif with subs := s.hif.subs.set Sub.reset sub.toNat x } }).complete p .ok 0 0

/-! ## Captures (R283) -/

/-- A CAPTURE. -/
def isCapture (p : Pend) : Bool := match p.desc with | .capture .. => true | _ => false

/-- Ticks in a sample of a capture point. -/
def State.captSample (s : State) (point index : Nat) : Nat := if point = 2 ∨ point = 3 then slotBlk (s.slot index).rate / 64 else chainSmp

/-- Words of a capture: LEN, or two for each tap of the instance. -/
def State.captWords (s : State) (point index len : Nat) : Nat := if point = 5 then 2 * (s.inst index).ntaps else len

/-- The time a capture takes from its start, or none while it waits for a WINTER decision. -/
def State.captTime (s : State) (point index trig len : Nat) (at_ : Word64) : Option Nat :=
  if point = 5 then some (s.atTime at_ - s.now)
  else if trig = 0 then some (s.atTime at_ - s.now + len * s.captSample point index) else none

/-- The time of the captures already accepted. -/
def State.captQueueTime (s : State) : Option Nat :=
  (s.pends isCapture).foldl (fun a p => match a, p.desc with
    | some t, .capture pt ix tr _ ln _ at_ _ => (s.captTime pt.toNat ix.toNat tr.toNat ln.toNat at_).map (fun u => t + u)
    | _, _ => none) (some 0)

/-- The deadline of class C, shown for a capture no lower class can complete (log 25). -/
def classC : Nat := 100 * tms

/-- Checks of CAPTURE. -/
def chkCapture (cls : Cls) (point index trig shift : Byte) (len pre : Word) (at_ addr : Word64) (s : State) : Checks :=
  let pt := point.toNat
  let coef := decide (pt = 5)
  { range := firstBad [
      (8, decide (pt ≤ 5)), (9, if pt = 2 ∨ pt = 3 then true else if coef then decide (index.toNat < 64) else decide (index.toNat < 32)),
      (0xA, coef || (decide (trig.toNat ≤ 1) && !decide (trig = 1 ∧ cls ≠ .d))), (0xB, coef || decide (shift.toNat ≤ 15)),
      (0xC, coef || decide (1 ≤ len.toNat ∧ len.toNat ≤ 3145728)), (0x10, coef || decide (trig = 0 ∨ pre.toNat ≤ len.toNat)), (0x20, decide (addr.toNat % 64 = 0))]
    state := if coef && decide ((s.inst index.toNat).st = .joined) then refState else none
    worst :=
      match s.captQueueTime, s.captTime pt index.toNat trig.toNat len.toNat at_ with
      | some a, some b => some (match cls with | .a => max (a + b) classC | .b => max (a + b) classC | _ => a + b)
      | _, _ => none }

/-- The next accepted capture begins when none runs (R283). -/
def State.captNext (s : State) : State :=
  match s.hif.captRun, (s.pends isCapture).head? with
  | none, some p => { s with hif := { s.hif with captRun := some { id := p.id, triggered := false, since := s.now }, captDone := false, captValid := false } }
  | _, _ => s

/-- CAPTURE_START: a queued capture begins; one triggered by time commits at its first sample. -/
def State.captStart (s : State) : State :=
  let s1 := s.captNext
  match s1.hif.captRun with
  | some r =>
    match s1.pend? r.id with
    | some p => match p.desc with
      | .capture pt _ tr _ _ _ at_ _ =>
        if !r.triggered && decide (pt = 5 ∨ tr = 0) && decide (at_.toNat * tns ≤ s1.dtTicks) then
          ({ s1 with hif := { s1.hif with captRun := some { r with triggered := true, since := s1.now } } }).updPend r.id (fun q => { q with committed := true })
        else s1
      | _ => s1
    | none => s1
  | none => s1

/-- A coefficient in the 8-byte form of R106, as two words. -/
def coefWords (scale : Int) (c : Coef) : List Word :=
  let w : Word64 := BitVec.ofNat 64 ((BitVec.ofInt 20 c.mi).toNat + (BitVec.ofInt 20 c.mq).toNat * 2 ^ 20 + c.e * 2 ^ 58)
  let v := if scale = 0 then w else Config.scaledCoef scale w
  [v.extractLsb' 0 32, v.extractLsb' 32 32]

/-- The main set of an instance as words; absent coefficients are 0. -/
def Inst.mainWords (x : Inst) : List Word := (List.range x.ntaps).flatMap (fun k => coefWords x.scale (x.main.getD k { mi := 0, mq := 0, e := 0 }))

/-- Words of capture memory. -/
def captCap : Nat := 3145728

/-- Lay samples into capture memory from a word on, around its end. -/
def captPut (t : Tab Word) (at_ : Nat) : List Word → Tab Word
  | [] => t
  | w :: r => captPut (Tab.set t 0 (at_ % captCap) w) (at_ + 1) r

/-- The running capture has filled its memory (R283): LEN samples from its start, or LEN - PRE from its decision. -/
def State.captFull (s : State) (r : CapRun) (point index trig len pre : Nat) : Bool :=
  r.triggered && decide (point = 5 ∨ r.since + (if trig = 0 then len - 1 else len - pre) * s.captSample point index ≤ s.now)

/-- CAPTURE_END: the samples stand in memory, go to the host if asked, and the capture completes (R283). A copy waits while Bus Master Enable is clear. -/
def State.captEnd (s : State) (oldest : BitVec 24) (samples : List Word) : State :=
  match s.hif.captRun with
  | some r =>
    match s.pend? r.id with
    | some p => match p.desc with
      | .capture pt ix tr _ ln pre _ addr =>
        let ws := if pt = 5 then (s.inst ix.toNat).mainWords else samples
        let o := if pt = 5 ∨ tr = 0 then 0 else oldest.toNat
        if !s.captFull r pt.toNat ix.toNat tr.toNat ln.toNat pre.toNat || decide (ws.length ≠ s.captWords pt.toNat ix.toNat ln.toNat) || decide (captCap ≤ o) then s
        else if addr ≠ 0 ∧ !s.hif.busMaster then s
        else
          let s1 := if addr = 0 then s else s.hostWrite addr.toNat ws
          let s2 : State := { s1 with hif := { s1.hif with
            captMem := captPut s1.hif.captMem o ws, captValid := true, captLen := ws.length, captCount := s1.hif.captCount + 1, captOldest := BitVec.ofNat 24 o
            captRun := none, captDone := true } }
          (s2.complete p .ok (word (0x400000 + 4 * o)) 0).captNext
      | _ => s
    | none => s
  | none => s

/-- An uncommitted capture is aborted: its memory is left as it is, and the next begins. -/
def State.captAbort (s : State) (p : Pend) : State :=
  let s1 := (s.free).2.complete p .aborted (s.free).1 0
  match s1.hif.captRun with
  | some r => if r.id = p.id then ({ s1 with hif := s1.hif.captStop }).captNext else s1
  | none => s1

/-- The word at an index of capture memory: defined from the oldest sample of the last completed capture on, else a free value (log 6). -/
def State.captWord (s : State) (i : Nat) : Word :=
  let o := s.hif.captOldest.toNat
  if s.hif.captValid && decide ((i + captCap - o) % captCap < s.hif.captLen) then s.hif.captMem.get 0 i else Config.captureWord s.hif.captCount i

end Sys2Proof.Machine
end

