-- ==== Sys2Proof/Machine/Cascade.lean ====
section
/-! DEFINITION. Cascading (chapter 13): ports and their training, messages with credit and retry, time across the domain, streams, reports and master caps, and the loss of the master (R360-R398). -/

namespace Sys2Proof.Machine

/-! ## Ports and links (R361-R367, R382) -/

/-- This device is the master. -/
def State.isMaster (s : State) : Bool := s.tst.straps.casMaster
/-- CAS_ID. -/
def State.ownId (s : State) : Nat := s.tst.straps.casId.toNat
/-- The upstream port of a member. -/
def State.upPort (s : State) : Option Nat := (List.range 4).find? (fun p => decide ((s.port p).cfgRole = 1))
/-- A port in its present role leads upstream. -/
def Port.isUp (x : Port) : Bool := decide (x.role = 1)
/-- A link that carries messages: UP, or in its delay measurement. -/
def Port.open_ (x : Port) : Bool := decide (x.st = .up ∨ (x.st = .training ∧ x.step = 5))

/-- A number as n little-endian bytes. -/
def leBytes (n v : Nat) : List Byte := (List.range n).map (fun i => BitVec.ofNat 8 (v >>> (8 * i)))

/-- Messages sent and not yet returned as credit. -/
def Port.used (x : Port) : Nat := (x.txSeq + 256 - x.credit) % 256

/-- Put a message on the link: it takes the next LSEQ and a credit. -/
def Port.push (x : Port) (now : Nat) (m : JMsg) : Port :=
  { x with txSeq := (x.txSeq + 1) % 256, unacked := x.unacked ++ [{ lseq := x.txSeq, msg := m, first := now, last := now, tries := 1 }] }

/-- Waiting messages leave as far as credit goes. -/
def Port.drain (x : Port) (now : Nat) (q : List JMsg) : Port :=
  match q with
  | [] => { x with waitq := [] }
  | m :: r => if x.open_ ∧ x.used < 16 then Port.drain (x.push now m) now r else { x with waitq := m :: r }

/-- Send a message on port p: at once with a credit, else it waits (R382). A link that carries no messages loses it. -/
def State.portSend (s : State) (p : Nat) (m : JMsg) : State :=
  if (s.port p).open_ then s.updPort p (fun x => x.drain s.now (x.waitq ++ [m])) else s

/-- A link-local message of this device. -/
def State.localMsg (s : State) (p mtype : Nat) (resp : Bool) (body : List Byte) : JMsg :=
  { mtype := mtype, resp := resp, src := s.ownId, dst := (s.port p).pid, mseq := 0, body := body }

/-- JL_PORT_CFG_WRITE (R361). -/
def State.portCfgWrite (s : State) (p : Nat) (v : Word) : State :=
  let r := bitsOf v 0 2
  if r = 3 ∨ (r = 1 ∧ (s.isMaster ∨ (List.range 4).any (fun q => decide (q ≠ p ∧ (s.port q).cfgRole = 1)))) then s
  else s.updPort p (fun x => { x with cfgRole := r, jl2En := v.getLsbD 3 })

/-- JL_AGRP_WRITE: only in SLEEP or STANDBY (R387). -/
def State.agrpWrite (s : State) (i : Nat) (v : Word) : State :=
  let c := s.chainNow i
  if (c.st = .sleep ∨ c.st = .standby) ∧ c.trans = none then { s with jl := { s.jl with agrp := s.jl.agrp.set 0 i (bitsOf v 0 6), dirty := true } } else s

/-! ## Streams: capacity and ends (R375, R380) -/

/-- The state's index of stream n of a port; recv chooses the direction. -/
def strIdx (p : Nat) (recv : Bool) (n : Nat) : Nat := 24 * p + 12 * bit recv + n

/-- Columns of a direction. -/
def Port.columns (x : Port) : Nat := if x.jl2 then 12 else 2

/-- Two streams of one column do not collide (R375). -/
def shareOk (k1 p1 k2 p2 : Nat) : Bool := if k1 ≤ k2 then decide (p1 % 2 ^ (8 - k2) ≠ p2) else decide (p2 % 2 ^ (8 - k1) ≠ p1)

/-- A stream that occupies its column. -/
def Strm.holds (x : Strm) (recv : Bool) : Bool :=
  match x.st with | .closed => false | .listen => recv && x.agreed | _ => true

/-- The streams of a direction that hold columns: rate, column, phase. -/
def State.strUse (s : State) (p : Nat) (recv : Bool) (but : Nat) : List (Nat × Nat × Nat) :=
  ((List.range 12).filter (fun n => decide (n ≠ but) && (s.strm (strIdx p recv n)).holds recv)).map (fun n =>
    let x := s.strm (strIdx p recv n)
    (x.rate, x.col, x.phase))

/-- The lowest column, and within it the lowest phase, that fits a rate (R375). -/
def State.strFit (s : State) (p : Nat) (recv : Bool) (n k : Nat) : Option (Nat × Nat) :=
  let use := s.strUse p recv n
  ((List.range (s.port p).columns).flatMap (fun c => (List.range (2 ^ (8 - k))).map (fun f => (c, f)))).find? (fun cf =>
    use.all (fun u => decide (u.2.1 ≠ cf.1) || shareOk u.1 u.2.2 k cf.2))

/-- Units that a direction uses (JL_PORT_UNITS). -/
def State.strUnits (s : State) (p : Nat) (recv : Bool) : Nat := (s.strUse p recv 99).foldl (fun a u => a + 2 ^ u.1) 0

/-- Ticks between schedule boundaries (R380). -/
def schedTk : Nat := 16384 * tns

/-- STREAM_CLOSE for a stream, with the direction as this device sees it. -/
def State.closeMsg (s : State) (p : Nat) (recv : Bool) (n : Nat) : JMsg := s.localMsg p 0x22 false (leBytes 4 (n + 128 * bit recv))

/-- A pending open ends: CLOSED, TIMEOUT_LOCK, and STREAM_CLOSE when the link allows (Table 13-8, R394). -/
def State.openFails (s : State) (p n : Nat) (st : Status) (tell : Bool) : State :=
  let k := strIdx p false n
  let x := s.strm k
  let s1 := s.updStrm k (fun _ => { Strm.reset with sat := x.sat, err := x.err })
  let s2 := match x.id with | some id => s1.completeId id st 0 0 | none => s1
  if !tell then s2
  else if (s2.port p).open_ then s2.portSend p (s2.closeMsg p false n)
  else s2.updPort p (fun y => { y with waitq := y.waitq ++ [s2.closeMsg p false n] })

/-- Every pending open ends when TIME leaves LOCKED (R394). -/
def State.opensEnd (s : State) (ports : List Nat) : State :=
  s.each ports (fun p a => a.each (List.range 12) (fun n b => if (b.strm (strIdx p false n)).st = .pending then b.openFails p n .timeoutLock true else b))

/-- What a link going down does to its streams (Table 13-8). -/
def State.strDown (s : State) (p : Nat) : State :=
  let s1 := s.opensEnd [p]
  s1.each (List.range 12) (fun n a =>
    let b := a.updStrm (strIdx p false n) (fun x => if x.st = .active then { x with st := .unmatched, start := none, agreed := false } else { x with start := none, agreed := false })
    b.updStrm (strIdx p true n) (fun x => if x.st = .active then { x with st := .listen, start := none, agreed := false, pair := none } else { x with start := none, agreed := false }))

/-! ## Time, holdover (R370-R373, R392) -/

/-- A LOCKED member moves to HOLDOVER (R373, R392, R394). -/
def State.toHoldover (s : State) : State :=
  if s.isMaster ∨ s.jl.time ≠ .locked then s
  else
    let s1 := ({ s with jl := { s.jl with time := .holdover, caphold := true, holdAt := some s.now, joined := false, diffs := [] } }).raise 15 4 .device
    s1.opensEnd (List.range 4)

/-- The link of a port goes down with a cause (R365, R366, R382). -/
def State.linkDown (s : State) (p cause : Nat) : State :=
  if (s.port p).st = .down then s
  else
    let up := (s.port p).isUp
    let s1 := s.updPort p (fun x => { x with st := .down, step := 0, final := false, downCause := cause, downAt := s.now, waitq := [], unacked := [], nakOwed := false, timeAt := none, beyond := 0 })
    let s2 := (s1.strDown p).raise 15 3 .device
    if up then s2.toHoldover else s2

/-- DTIME restarts its slewing from the present: what has been slewed in is kept, and a new correction begins (R371, R373). -/
def Tim.slewTo (x : Tim) (now : Nat) (d : Int) : Tim := { x with dtOrigin := x.dtOrigin - x.slewed now, slew := d, slewAt := now }

/-- The one-way delay of a port in ticks. -/
def Port.delay (x : Port) : Nat := x.dPs * 2304 / 1000

/-- The masks of JOIN: the partner and what has been learnt beyond each port. -/
def State.reachOf (s : State) (p : Nat) : Nat := let x := s.port p; if x.st = .up then x.beyond ||| 2 ^ x.pid else x.beyond

/-! ## Requests (R384-R386) -/

/-- The port towards an ID: the downstream port beyond which it lies, else upstream. -/
def State.route (s : State) (dst : Nat) : Option Nat :=
  match (List.range 4).find? (fun p => decide ((s.port p).role = 2 ∧ (s.port p).st = .up ∧ (s.reachOf p).testBit dst)) with
  | some p => some p
  | none => (List.range 4).find? (fun p => decide ((s.port p).role = 1 ∧ (s.port p).st = .up))

/-- Send a routed message. -/
def State.routeSend (s : State) (m : JMsg) : State := match s.route m.dst with | some p => s.portSend p m | none => s

/-- Requests to a destination that wait for their answer. -/
def State.reqsTo (s : State) (dst : Nat) : List JReq := s.jl.reqs.filter (fun r => decide (r.msg.dst = dst))

/-- Queued requests of a destination go out while fewer than 8 are outstanding (R385). -/
def State.reqRelease (s : State) (dst : Nat) : State :=
  let n := 8 - (s.reqsTo dst).length
  let go := (s.jl.reqq.filter (fun m => decide (m.dst = dst))).take n
  let s1 : State := { s with jl := { s.jl with reqq := s.jl.reqq.filter (fun m => !go.contains m), reqs := s.jl.reqs ++ go.map (fun m => { msg := m, at_ := s.now, tries := 0 }) } }
  go.foldl (fun a m => a.routeSend m) s1

/-- Issue a request: it takes the next MSEQ of its destination. -/
def State.request (s : State) (dst mtype : Nat) (body : List Byte) : Nat × State :=
  let q := s.jl.nextSeq.get 0 dst
  let m : JMsg := { mtype := mtype, resp := false, src := s.ownId, dst := dst, mseq := q, body := body }
  (q, ({ s with jl := { s.jl with nextSeq := s.jl.nextSeq.set 0 dst ((q + 1) % 65536), reqq := s.jl.reqq ++ [m] } }).reqRelease dst)

/-- A request is answered. -/
def State.answered (s : State) (src mtype mseq : Nat) : State :=
  ({ s with jl := { s.jl with reqs := s.jl.reqs.filter (fun r => !decide (r.msg.dst = src ∧ r.msg.mtype = mtype ∧ r.msg.mseq = mseq)) } }).reqRelease src

/-- A message is discarded under R384 or R385. -/
def State.discardMsg (s : State) (p : Nat) : State := s.updPort p (fun x => { x with disc := satInc 0xFFFF x.disc })

/-- Send a response and store it among the last 8 (R385). -/
def State.respond (s : State) (m : JMsg) : State :=
  ({ s with jl := { s.jl with resps := s.jl.resps.upd [] m.dst (fun l => (l ++ [m]).drop (l.length + 1 - 8)) } }).routeSend m

/-- The exactly-once rule for a request (R385): f executes it. -/
def State.once (s : State) (h : MsgHdr) (f : State → State) : State :=
  let src := h.src.toNat
  let e := s.jl.exp.get 0 src
  let back := (e + 65536 - h.mseq.toNat) % 65536
  if back = 0 then f { s with jl := { s.jl with exp := s.jl.exp.set 0 src ((e + 1) % 65536) } }
  else if back ≤ 8 then
    match (s.jl.resps.get [] src).find? (fun m => decide (m.mseq = h.mseq.toNat)) with
    | some m => s.routeSend m
    | none => s
  else s.discardMsg h.port.val

/-- A received message at the link (R382): out of order or damaged, it is discarded and NAK is owed; else f handles it. -/
def State.linkTake (s : State) (h : MsgHdr) (f : State → State) : State :=
  let p := h.port.val
  let x := s.port p
  if !x.open_ then s
  else if !h.crcOk ∨ h.lseq.toNat ≠ (x.rxSeq + 1) % 256 then s.updPort p (fun x => { x with nakOwed := true })
  else f (s.updPort p (fun x => { x with rxSeq := h.lseq.toNat, freed := (x.freed + 1) % 256, nakOwed := false }))

/-- A link-local message. -/
def State.takeLocal (s : State) (h : MsgHdr) (needUp : Bool) (f : State → State) : State :=
  s.linkTake h (fun a => if needUp ∧ !(a.port h.port.val).isUp then a.discardMsg h.port.val else f a)

/-- A routed message: executed here, forwarded, or discarded (R384). ok tells whether this device may execute one that came by this port. -/
def State.takeRouted (s : State) (h : MsgHdr) (mtype : Nat) (body : List Byte) (ok : State → Bool) (learn f : State → State) : State :=
  s.linkTake h (fun a =>
    let m : JMsg := { mtype := mtype, resp := h.resp, src := h.src.toNat, dst := h.dst.toNat, mseq := h.mseq.toNat, body := body }
    let b := learn a
    if h.dst = 0xFF then
      if ok b then f (b.each ((List.range 4).filter (fun q => decide (q ≠ h.port.val ∧ (b.port q).role = 2))) (fun q c => c.portSend q m)) else b.discardMsg h.port.val
    else if h.dst.toNat ≠ b.ownId then b.routeSend m
    else if ok b then f b else b.discardMsg h.port.val)

/-! ## Training and headers (R365-R367, R369) -/

/-- A timestamp: DTIME in ns in [63:16], fractions below (R368). -/
def State.stamp (s : State) : Nat := s.dtTicks * 65536 / tns

/-- TRAINING_RESTART: 100 ms after a port went DOWN; a port that never trained begins at once (R366). -/
def State.trainStart (s : State) (p : Nat) : State :=
  let x := s.port p
  if s.tst.inReset ∨ x.st ≠ .down ∨ x.cfgRole = 0 ∨ (x.downCause ≠ 0 ∧ s.now < x.downAt + 100 * tms) then s
  else s.updPort p (fun x => { x with st := .training, role := x.cfgRole, step := 1, final := false, stepAt := s.now, jl2 := false })

/-- Step 4 and the start of step 5: the version is negotiated, and the downstream side sends its DELAY_REQs (R367, R369). -/
def State.trainVersion (s : State) (p pmin pmax : Nat) : State :=
  let v := min 2 pmax
  if v < max 1 pmin then (s.updPort p (fun x => { x with pver := v })).linkDown p 3
  else
    let s1 := s.updPort p (fun x => { x with pver := v, step := 5, final := true, stepAt := s.now, exSum := 0, exN := 0, txSeq := 0, rxSeq := 255, freed := 0, credit := 0, unacked := [] })
    if (s1.port p).isUp then s1.each (List.range 16) (fun _ a => a.portSend p (a.localMsg p 3 false (leBytes 12 a.stamp))) else s1

/-- The link comes UP (R366). -/
def State.linkUp (s : State) (p : Nat) : State :=
  s.updPort p (fun x => ({ x with st := .up, step := 6, upCnt := satInc 0xFFFF x.upCnt, lastHdr := s.now, timeAt := none, downCause := 0 } : Port).drain s.now x.waitq)

/-- The limit of a step in ticks; step 1 has none. -/
def stepLimit (n : Nat) : Option Nat := match n with | 2 => some (2 * tms) | 3 => some (4 * tms) | 5 => some tms | _ => none

/-- LINK_TRAINING_STEP (Table 13-5). -/
def State.trainStep (s : State) (p : Nat) (r : TrainResult) : State :=
  let x := s.port p
  if x.st ≠ .training then s
  else match r with
    | .skew => if x.step = 2 ∨ x.step = 3 then s.linkDown p 2 else s
    | .exceeded => match stepLimit x.step with
      | some l => if x.stepAt + l ≤ s.now then s.linkDown p (if x.step = 5 then 1 else 2) else s
      | none => s
    | .passed gen pmin pmax pid pport pm jl2 =>
      match x.step with
      | 1 => s.updPort p (fun x => { x with step := 2, stepAt := s.now })
      | 2 =>
        let fast := x.jl2En && jl2 && decide (2 ≤ gen)
        let s1 := s.updPort p (fun x => { x with pid := pid.toNat, pport := pport.toNat, pmaster := pm, jl2 := fast })
        if fast then s1.updPort p (fun x => { x with step := 3, stepAt := s.now }) else s1.trainVersion p pmin pmax
      | 3 => s.trainVersion p pmin pmax
      | 5 =>
        if x.exN < 16 then s
        else if x.isUp ∧ 40 * 65536 * 32 < x.exSum then s.linkDown p 4
        else (s.updPort p (fun x => { x with dPs := if x.isUp then min 0xFFFF (x.exSum * 1000 / (65536 * 32)).toNat else x.dPs })).linkUp p
      | _ => s

/-- DELAY_REQ: answered with its stamps (R369). -/
def State.delayReq (s : State) (h : MsgHdr) (t1 t2 t3 : Word64) : State :=
  s.takeLocal h false (fun a =>
    (a.updPort h.port.val (fun x => { x with exN := min 16 (x.exN + 1) })).portSend h.port.val
      (a.localMsg h.port.val 4 true (leBytes 8 t1.toNat ++ leBytes 8 t2.toNat ++ leBytes 12 t3.toNat)))

/-- DELAY_RESP: one exchange of the downstream side (R369). -/
def State.delayResp (s : State) (h : MsgHdr) (t1 t2 t3 t4 : Word64) : State :=
  s.takeLocal h true (fun a => a.updPort h.port.val (fun x =>
    if x.step = 5 ∧ x.exN < 16 then { x with exN := x.exN + 1, exSum := x.exSum + (((t4.toNat : Int) - t1.toNat) - ((t3.toNat : Int) - t2.toNat)) } else x))

/-- The unacknowledged messages are sent again, from the oldest, each at most 4 times (R382). -/
def State.retransmit (s : State) (p : Nat) : State :=
  s.updPort p (fun x =>
    let n := (x.unacked.filter (fun t => decide (t.tries < 4))).length
    { x with unacked := x.unacked.map (fun t => if t.tries < 4 then { t with tries := t.tries + 1, last := s.now } else t), retryCnt := min 0xFFFF (x.retryCnt + n) })

/-- The messages after the one an ACK names. -/
def ackDrop (ack : Nat) (l : List JTx) : List JTx := if l.any (fun t => decide (t.lseq = ack)) then (l.dropWhile (fun t => decide (t.lseq ≠ ack))).drop 1 else l

/-- LINK_HEADER: FN, ACK, CREDIT, NAK (R365, R382). -/
def State.linkHeader (s : State) (p : Nat) (h : LinkHdr) : State :=
  if !(s.port p).open_ then s
  else if !h.ok then s.updPort p (fun x => { x with blkErr := satInc 0xFFFF x.blkErr })
  else
    let s1 := s.updPort p (fun x => ({ x with lastHdr := s.now, fn := h.fn.toNat, credit := h.credit.toNat, unacked := ackDrop h.ack.toNat x.unacked } : Port).drain s.now x.waitq)
    if h.nak then s1.retransmit p else s1

/-- HEADER_LOSS: 16 frames without a valid header (R365). -/
def State.headerLoss (s : State) (p : Nat) : State := if (s.port p).st = .up ∧ (s.port p).lastHdr + 1024 * tns ≤ s.now then s.linkDown p 1 else s

/-- BLOCK_ERROR_RATE: more than one block in a million over 1 ms (R366). -/
def State.blockErrors (s : State) (p errors : Nat) : State :=
  if (s.port p).st = .up ∧ (if (s.port p).jl2 then 3125000 else 625000) < errors * 1000000 then s.linkDown p 6 else s

/-- MESSAGE_RETRANSMIT: 500 ns without an ACK (R382). -/
def State.msgRetransmit (s : State) (p : Nat) : State :=
  match (s.port p).unacked with
  | t :: _ => if t.tries < 4 ∧ t.last + 500 * tns ≤ s.now ∧ s.now ≤ t.first + 1500 * tns then s.retransmit p else s
  | [] => s

/-- RETRY_EXHAUSTED: 2 µs after the first attempt (R382). -/
def State.retryExhausted (s : State) (p : Nat) : State :=
  match (s.port p).unacked with
  | t :: _ => if t.first + 2 * tus ≤ s.now then s.linkDown p 5 else s
  | [] => s

/-! ## Heartbeat and TIME (R370-R373, R384) -/

/-- HEARTBEAT received. -/
def State.heartbeat (s : State) (h : MsgHdr) (epoch : Word) (ndev : Byte) : State :=
  s.takeRouted h 1 (leBytes 4 epoch.toNat ++ leBytes 8 ndev.toNat) (fun a => (a.port h.port.val).isUp) id
    (fun a => { a with jl := { a.jl with lastHb := a.now, epoch := epoch, ndev := ndev, masterId := h.src.toNat } })

/-- Devices of the domain as the master knows them. -/
def Jl.devices (x : Jl) : Nat := 1 + ((List.range 16).filter (fun i => x.members.testBit i)).length

/-- HEARTBEAT_SEND: every 1 ms on the master. -/
def State.heartbeatSend (s : State) : State :=
  if s.isMaster ∧ s.jl.hbAt + tms ≤ s.now then
    let m : JMsg := { mtype := 1, resp := false, src := s.ownId, dst := 255, mseq := 0, body := leBytes 4 s.jl.epoch.toNat ++ leBytes 8 s.jl.devices }
    ({ s with jl := { s.jl with hbAt := s.now, ndev := BitVec.ofNat 8 s.jl.devices } }).each ((List.range 4).filter (fun p => decide ((s.port p).role = 2 ∧ (s.port p).st = PortSt.up))) (fun p a => a.portSend p m)
  else s

/-- HEARTBEAT_LOSS: 3 ms without HEARTBEAT (R373). -/
def State.heartbeatLoss (s : State) : State := if s.jl.lastHb + 3 * tms ≤ s.now then s.toHoldover else s

/-- TIME_SEND: a LOCKED partner above depth 4, at link-up and every 1 ms (R370). -/
def State.timeSend (s : State) (p : Nat) : State :=
  let x := s.port p
  let due : Bool := match x.timeAt with | none => true | some t => decide (t + tms ≤ s.now)
  if x.st = .up ∧ x.role = 2 ∧ (s.isMaster ∨ s.jl.time = .locked) ∧ s.jl.depth < 4 ∧ due = true then
    (s.updPort p (fun x => { x with timeAt := some s.now })).portSend p (s.localMsg p 2 false (leBytes 8 (s.dtNs / 64 * 64) ++ leBytes 4 (s.tim.framePh / tns) ++ leBytes 8 s.jl.depth))
  else s

/-- A member has become LOCKED: JOIN goes to the master, whose ID is the source of its HEARTBEAT (R370, R373). -/
def State.lockedJoin (s : State) : State :=
  let up := match s.upPort with | some p => p | none => 0
  let reach := (List.range 4).flatMap (fun p => leBytes 2 (s.reachOf p))
  let s1 : State := { s with jl := { s.jl with time := .locked, caphold := false, holdAt := none, lastHb := s.now, joined := true, needFull := true } }
  (s1.request s1.jl.masterId 5 ([BitVec.ofNat 8 (s.port up).pver, BitVec.ofNat 8 up, 0, 0] ++ reach)).2

/-- TIME received from upstream at the start of its frame (R370-R373). -/
def State.timeTake (s : State) (h : MsgHdr) (dt : Word64) (framePh : Word) (depth : Byte) : State :=
  s.takeLocal h true (fun a =>
    if a.isMaster ∨ a.jl.conflict then a
    else
      let want : Int := dt.toNat * tns + (a.port h.port.val).delay
      let off : Int := want - a.dtAt a.now
      match a.jl.time with
      | .none =>
        { a with tim := { a.tim with dtRun := true, dtOrigin := a.now - want, slew := 0, slewAt := a.now, framePh := framePh.toNat * tns, srcUsed := 3 }
                 jl := { a.jl with time := .locking, depth := depth.toNat + 1 } }
      | .locking => a
      | .locked =>
        let l := (a.jl.diffs ++ [(a.now, off)]).drop (a.jl.diffs.length + 1 - 16)
        if 20 * tns < off.natAbs || (decide (l.length = 16) && Config.rateFar l) then (({ a with jl := { a.jl with diffs := l } }).raise 15 6 .device).toHoldover
        else { a with tim := a.tim.slewTo a.now off, jl := { a.jl with diffs := l } }
      | .holdover =>
        if a.jl.farHeld then a
        else if 20 * tns < off.natAbs then ({ a with jl := { a.jl with farHeld := true } }).raise 15 6 .device
        else
          let b : State := { a with tim := a.tim.slewTo a.now off, jl := { a.jl with depth := depth.toNat + 1 } }
          if off.natAbs ≤ 576 then b.lockedJoin else b)

/-- MASTER_LOST: 100 ms without a first lock (R372). -/
def State.masterLost (s : State) : State :=
  if !s.isMaster ∧ (s.jl.time = .none ∨ s.jl.time = .locking) ∧ s.tst.riseAt + 100 * tms ≤ s.now then s.raise 15 4 .device else s

/-- CASCADE_HOLDOVER_TIMEOUT: 100 ms in HOLDOVER (R392). -/
def State.holdoverTimeout (s : State) : State :=
  match s.jl.holdAt with
  | some t => if s.jl.time = .holdover ∧ t + 100 * tms ≤ s.now then s.each ((s.gcl.filter (fun e => e.2.mcapValid)).map (fun e => e.1)) (fun n a => a.winterSet n 11 0) else s
  | none => s

/-! ## Streams: descriptors and messages (R376-R381) -/

/-- A schedule boundary at least 8 µs away. -/
def State.startTime (s : State) : Nat := s.gridAtOrAfter schedTk (s.now + 8 * tus)

/-- A DTIME in ns as a time. -/
def State.ofDtime (s : State) (v : Nat) : Nat := ((v * tns : Nat) + s.now : Int) - s.dtTicks |>.toNat

/-- Checks of JL_STREAM_OPEN (R378, R379). -/
def chkStreamOpen (port stream dir rate txch : Byte) (bw : Half) (txfreq : Word) (pdly : Half) (s : State) : Checks :=
  let p := port.toNat
  let recv := decide (dir = 1)
  let x := s.port p
  let k := strIdx p recv stream.toNat
  { range := firstBad [
      (8, decide (p ≤ 3)), (9, decide (stream.toNat ≤ 11)), (0xA, decide (dir.toNat ≤ 1)), (0xB, decide (rate.toNat ≤ (if x.pver = 1 then 6 else 8))),
      (0xC, if recv then decide (txch.toNat ≤ 31) else decide (txch = 0)),
      (0xE, if recv then decide (140 ≤ bw.toNat ∧ bw.toNat ≤ 40000 ∧ autoRate bw.toNat ≤ rate.toNat) else decide (bw = 0)),
      (0x10, if recv then inWindow txfreq.toInt bw.toNat else decide (txfreq = 0)), (0x14, recv || decide (pdly = 0))]
    state :=
      if x.st ≠ .up ∨ s.jl.time ≠ .locked ∨ (s.strm k).st ≠ .closed then refState
      else if (s.strFit p recv stream.toNat rate.toNat).isNone then refState
      else if recv && !(bandFits (s.txBands txch.toNat 256 k) txfreq.toInt bw.toNat && (s.authPass txch.toNat txfreq.toInt bw.toNat).isSome) then refState
      else none
    worst := some (if recv then 0 else classB) }

/-- STREAM_REQ for a stream with its START. -/
def State.streamReqSend (s : State) (p n : Nat) : State :=
  let x := s.strm (strIdx p false n)
  let t := s.startTime
  let dt := (s.dtTicks + (t - s.now)) / tns
  (s.updStrm (strIdx p false n) (fun x => { x with start := some t, agreed := false, reqAt := s.now })).portSend p
    (s.localMsg p 0x20 false (leBytes 1 n ++ leBytes 1 x.rate ++ leBytes 1 x.col ++ leBytes 1 x.phase ++ leBytes 4 0 ++ leBytes 12 dt))

/-- A JL_STREAM_OPEN takes effect (Table 13-8). -/
def startStreamOpen (p : Pend) (port stream dir rate txch : Byte) (bw : Half) (txfreq : Word) (pdly : Half) (s : State) : State :=
  let pt := port.toNat
  let n := stream.toNat
  let recv := decide (dir = 1)
  let k := strIdx pt recv n
  let s1 : State := { s with jl := { s.jl with dirty := true } }
  if recv then
    (s1.updStrm k (fun x => { Strm.reset with
      st := .listen, rate := rate.toNat, txch := txch.toNat, bw := bw.toNat, txfreq := txfreq.toInt, pdly := pdly, sat := x.sat, err := x.err })).complete p .ok 0 0
  else
    match s.strFit pt false n rate.toNat with
    | some (c, f) =>
      (s1.updStrm k (fun x => { Strm.reset with st := .pending, rate := rate.toNat, col := c, phase := f, id := some p.id, sat := x.sat, err := x.err })).streamReqSend pt n
    | none => s1

/-- A slot names a send stream. -/
def State.strNamed (s : State) (p n : Nat) : Bool :=
  s.heldSlots.any (fun m => (s.slot m).stream && decide (bitsOf (s.slot m).dest 8 2 = p ∧ bitsOf (s.slot m).dest 0 5 = n))

/-- Checks of JL_STREAM_CLOSE (R381). -/
def chkStreamClose (port stream : Byte) (s : State) : Checks :=
  let recv := stream.getLsbD 7
  let n := stream.toNat % 16
  { range := firstBad [(8, decide (port.toNat ≤ 3)), (9, decide (stream.toNat % 128 ≤ 11))]
    state := if !recv && s.strNamed port.toNat n then refState else none
    worst := some (if recv then s.nextSmp chainBlk - s.now + chainBlk else s.nextGrid schedTk - s.now) }

/-- A JL_STREAM_CLOSE waits for its boundary; a CLOSED stream needs nothing. -/
def startStreamClose (p : Pend) (port stream : Byte) (s : State) : State :=
  let k := strIdx port.toNat (stream.getLsbD 7) (stream.toNat % 16)
  if (s.strm k).st = .closed then s.complete p .ok 0 0
  else s.updStrm k (fun x => { x with closing := match x.closing with | some id => some id | none => some p.id })

/-- A JL_STREAM_CLOSE of a stream. -/
def isStreamClose (k : Nat) (p : Pend) : Bool := match p.desc with | .jlStreamClose pt st => decide (strIdx pt.toNat (st.getLsbD 7) (st.toNat % 16) = k) | _ => false

/-- A stream is CLOSED, its closes complete OK, and the partner hears of it. -/
def State.streamClosed (s : State) (p : Nat) (recv : Bool) (n : Nat) : State :=
  let k := strIdx p recv n
  let x := s.strm k
  let s1 := s.updStrm k (fun _ => { Strm.reset with sat := x.sat, err := x.err })
  let s2 := match x.id with | some id => s1.completeId id .superseded 0 0 | none => s1
  (({ s2 with jl := { s2.jl with dirty := true } }).completeAll (isStreamClose k) .ok).portSend p (s2.closeMsg p recv n)

/-- STREAM_STOP: a closing send stream stops at the next schedule boundary (R381). -/
def State.streamStop (s : State) (p n : Nat) : State :=
  let x := s.strm (strIdx p false n)
  if x.closing ≠ none ∧ s.onGrid schedTk ∧ (s.pends (isStreamClose (strIdx p false n))).any (fun q => decide (q.acc < s.now)) then s.streamClosed p false n else s

/-- RECEIVE_STREAM_RAMP_DOWN: the ramp begins at the next chain-grid boundary and ends one block later (R381). -/
def State.streamRamp (s : State) (p n : Nat) : State :=
  let k := strIdx p true n
  if (s.strm k).closing = none ∨ !s.onSmp chainBlk then s
  else match (s.pends (isStreamClose k)).head? with
    | some q =>
      if s.now ≤ q.acc then s
      else if q.committed then s.streamClosed p true n
      else s.updPend q.id (fun q => { q with committed := true, start := s.now })
    | none => s.streamClosed p true n

/-- STREAM_REQ received (Table 13-8). -/
def State.streamReq (s : State) (h : MsgHdr) (stream rate column phase : Byte) (start : Word64) : State :=
  s.takeLocal h false (fun a =>
    let p := h.port.val
    let k := strIdx p true (stream.toNat % 12)
    let x := a.strm k
    let r := if x.st ≠ .listen ∨ 11 < stream.toNat then 1 else if x.rate ≠ rate.toNat then 2 else 0
    let b := if r = 0 then a.updStrm k (fun x => { x with col := column.toNat, phase := phase.toNat, start := some (a.ofDtime start.toNat), agreed := true }) else a
    b.portSend p (a.localMsg p 0x20 true (leBytes 4 r)))

/-- The send stream of a port whose STREAM_REQ is the oldest without a response. -/
def State.oldestReq (s : State) (p : Nat) : Option Nat :=
  (((List.range 12).filter (fun n => let x := s.strm (strIdx p false n); decide (x.start ≠ none) && !x.agreed)).foldl (fun a n =>
    let t := (s.strm (strIdx p false n)).reqAt
    match a with
    | some (u, m) => if t < u then some (t, n) else some (u, m)
    | none => some (t, n)) none).map (fun e => e.2)

/-- STREAM_REQ_RESPONSE: it answers the oldest request of the port (Table 13-8). -/
def State.streamReqResponse (s : State) (h : MsgHdr) (result : Byte) : State :=
  s.takeLocal h false (fun a =>
    let p := h.port.val
    match a.oldestReq p with
    | none => a
    | some n =>
      let k := strIdx p false n
      if result = 0 then a.updStrm k (fun x => { x with agreed := match x.start with | some t => decide (a.now < t) | none => false })
      else if (a.strm k).st = .pending then a.openFails p n .refusedState false
      else a.updStrm k (fun x => { x with start := none }))

/-- STREAM_REQ_REPEAT: an UNMATCHED stream asks again every 10 ms while the link is UP. -/
def State.streamReqRepeat (s : State) (p n : Nat) : State :=
  let x := s.strm (strIdx p false n)
  if x.st = .unmatched ∧ (s.port p).st = .up ∧ x.reqAt + 10 * tms ≤ s.now then s.streamReqSend p n else s

/-- STREAM_CLOSE received: bit 7 is the direction as its sender sees it (Table 13-8). -/
def State.streamClose (s : State) (h : MsgHdr) (stream : Byte) : State :=
  s.takeLocal h false (fun a =>
    let n := stream.toNat % 16
    if 12 ≤ n then a
    else if stream.getLsbD 7 then
      a.updStrm (strIdx h.port.val false n) (fun x => if x.st = .active then { x with st := .unmatched, start := none, agreed := false } else { x with agreed := false })
    else a.updStrm (strIdx h.port.val true n) (fun x =>
      if x.st = .active ∨ x.st = .listen then { x with st := .listen, start := none, agreed := false, pair := none } else x))

/-- STREAM_START: at START the stream is ACTIVE, or an open that got no answer ends (Table 13-8). -/
def State.streamStart (s : State) (p : Nat) (recv : Bool) (n : Nat) : State :=
  let k := strIdx p recv n
  let x := s.strm k
  match x.start with
  | none => s
  | some t =>
    if s.now < t then s
    else if recv then (if x.st = .listen ∧ x.agreed then s.updStrm k (fun x => { x with st := .active, start := none, pairs := 0 }) else s)
    else if x.st = .pending then
      if x.agreed ∧ s.jl.time = .locked then
        let s1 := s.updStrm k (fun x => { x with st := .active, start := none, id := none, pairs := 0 })
        match x.id with | some id => s1.completeId id .ok 0 0 | none => s1
      else s.openFails p n .timeoutLock true
    else if x.st = .unmatched then
      (if x.agreed then s.updStrm k (fun x => { x with st := .active, start := none, pairs := 0 }) else s.updStrm k (fun x => { x with start := none }))
    else s

/-- STREAM_CELL: a pair is placed, or zeros for a damaged cell (R376). -/
def State.streamCell (s : State) (p n : Nat) (c : Cell) : State :=
  let k := strIdx p true n
  let s1 := match c with | .blockError => s.updPort p (fun x => { x with blkErr := satInc 0xFFFF x.blkErr }) | _ => s
  if (s1.strm k).st ≠ .active then s1
  else match c with
    | .pair a b d e => s1.updStrm k (fun x => { x with pair := some (a, b, d, e), pairs := x.pairs + 1 })
    | .idle => s1.updStrm k (fun x => { x with pair := none })
    | .blockError => s1.updStrm k (fun x => { x with pair := some (0, 0, 0, 0), pairs := x.pairs + 1, err := satInc 0xFFFF x.err })

/-! ## Reports and master caps (R387-R391) -/

/-- The report entries of this device (Table 13-11). -/
def State.ownEntries (s : State) : List Word64 :=
  let inst := (s.cx.filter (fun e => decide (e.2.st ≠ .unassigned ∧ e.2.st ≠ .joined ∧ s.agrp (32 + e.2.tx) ≠ 0 ∧ s.agrp e.2.rx ≠ 0))).map (fun e =>
    BitVec.ofNat 64 (1 + 16 * bit (s.cxValid e.1) + 32 * bit e.2.implaus + 64 * bit (decide (5000 < s.cxAge e.1)) + fld 1 e.1 + fld 2 (s.agrp (32 + e.2.tx)) + fld 3 (s.agrp e.2.rx)
      + fld 4 (cword (half e.2.iso)).toNat))
  let sent := (s.heldSlots.filter (fun n => (s.slot n).stream)).map (fun n =>
    let ext := ((s.cx.filter (fun e => decide (e.2.rx = n / 8 ∧ e.2.st ≠ .unassigned ∧ e.2.st ≠ .joined))).map (fun e => e.2.extRxg))
    let ex := match ext with | [] => 0 | x :: r => r.foldl max x
    BitVec.ofNat 64 (2 + fld 1 n + fld 2 (16 * bitsOf (s.slot n).dest 8 2 + bitsOf (s.slot n).dest 0 4) + fld 3 (s.agrp (n / 8)) + fld 4 (half ex).toNat + fld 6 (s.gain n).margin))
  let place := (s.jl.strs.filter (fun e => decide ((e.1 / 12) % 2 = 1 ∧ e.2.st ≠ .closed))).map (fun e =>
    BitVec.ofNat 64 (3 + fld 1 (16 * (e.1 / 24) + e.1 % 12) + fld 2 e.2.txch + fld 3 (s.agrp (32 + e.2.txch)) + fld 4 (half (s.expOutOf e.2.txch)).toNat))
  inst ++ sent ++ place

/-- Byte i of an entry. -/
def entB (e : Word64) (i : Nat) : Nat := bitsOf e (8 * i) 8
/-- Kind of an entry. -/
def entKind (e : Word64) : Nat := entB e 0 % 16
/-- A signed half of an entry. -/
def entI (e : Word64) (i : Nat) : Int := (e.extractLsb' (8 * i) 16).toInt

/-- Two entries speak of the same object. -/
def entSame (a b : Word64) : Bool := decide (entKind a = entKind b ∧ entB a 1 = entB b 1)

/-- A report laid over what is known: a FULL one begins anew. -/
def mergeEntries (old new : List Word64) (full : Bool) : List Word64 := if full then new else (old.filter (fun a => !new.any (entSame a))) ++ new

/-- REACH of port p of device d, as the master knows it. -/
def State.reachKnown (s : State) (d p : Nat) : Nat := if d = s.ownId then s.reachOf p else ((s.jl.reach.get [] d).getD p 0).toNat

/-- The placement of the stream that device d sends on a port (R389): on a device beyond that port, on a port beyond which d lies. -/
def State.placementOf (s : State) (d p n : Nat) : Option Word64 :=
  (((List.range 16).filter (fun e => decide (e ≠ d) && (s.reachKnown d p).testBit e)).flatMap (fun e =>
    (s.jl.figs.get [] e).filter (fun w => decide (entKind w = 3 ∧ entB w 1 % 16 = n) && (s.reachKnown e (entB w 1 / 16)).testBit d))).head?

/-- F of a pair of groups, none for minus infinity (R389). -/
def State.capF (s : State) (gt gr : Nat) (margin : Int) : Option Int :=
  let l := (s.jl.figs.flatMap (fun e => e.2)).filter (fun w => decide (entKind w = 1 ∧ entB w 2 = gt ∧ entB w 3 = gr))
  if l.isEmpty ∨ l.any (fun w => !w.getLsbD 4) then none
  else
    let f (w : Word64) : Int := entI w 4 - (if w.getLsbD 5 ∨ w.getLsbD 6 then max margin 2500 else margin)
    match l.map f with | [] => none | x :: r => some (r.foldl min x)

/-- Nothing sent, and CLEAR, among the caps last sent. -/
def capUnsent : Int := 99999
/-- CLEAR. -/
def capClear : Int := 88888

/-- The master cap of a sent-stream entry of device d (R389); none while its placement is not known. -/
def State.masterCap (s : State) (d : Nat) (w : Word64) : Option Int :=
  match s.placementOf d (entB w 2 / 16) (entB w 2 % 16) with
  | none => if entB w 3 = 0 then some capClear else none
  | some q =>
    if entB w 3 = 0 ∨ entB q 3 = 0 then some capClear
    else match s.capF (entB q 3) (entB w 3) (entI w 6) with
      | none => some (-1200)
      | some f => some (toCode (f - entI w 4 - entI q 4 - 200))

/-- One CAP entry executes on this device (R390, Table 11-4). -/
def State.capExec (s : State) (e : CapEntry) : State :=
  let n := e.slot.toNat
  if e.clear then s.updGain n (fun g => { g with mcapValid := false, capm := -1200 })
  else if cwordOk e.cap then s.updGain n (fun g => { g with mcapValid := true, capm := gainCode e.cap })
  else (s.updGain n (fun g => { g with mcapValid := true, capm := -1200 })).raise 15 0 (.slot n)

/-- A cap as an entry. -/
def capEntry (n : Nat) (c : Int) : CapEntry := { slot := BitVec.ofNat 8 n, clear := decide (c = capClear), cap := if c = capClear then 0 else cword (half c) }

/-- The bytes of an entry. -/
def CapEntry.bytes (e : CapEntry) : List Byte := [e.slot, if e.clear then 1 else 0, 0, 0] ++ leBytes 4 e.cap.toNat

/-- A list in pieces of at most n. -/
def chunks {α : Type} (n : Nat) : Nat → List α → List (List α)
  | 0, _ => []
  | k + 1, l => if l.length ≤ n then [l] else l.take n :: chunks n k (l.drop n)

/-- Entries in one message to a device (R367, Table 13-10). -/
def State.perMsg (s : State) (dst : Nat) : Nat := match s.route dst with | some p => if (s.port p).pver = 1 then 2 else 6 | none => 6

/-- The body of one CAP message. -/
def capBody (cseq : Nat) (last : Bool) (l : List CapEntry) : List Byte := leBytes 2 cseq ++ [if last then 1 else 0, BitVec.ofNat 8 l.length] ++ l.flatMap CapEntry.bytes

/-- The caps of device d that changed, or all of them for a full set. -/
def State.capsDue (s : State) (d : Nat) (full : Bool) : List (Nat × Int) :=
  ((s.jl.figs.get [] d).filter (fun w => decide (entKind w = 2))).filterMap (fun w =>
    match s.masterCap d w with
    | some c => if full ∨ s.jl.caps.get capUnsent (256 * d + entB w 1) ≠ c then some (entB w 1, c) else none
    | none => none)

/-- Send device d its caps: on the master itself they execute at once (R389). The requests sent are returned. -/
def State.capsSend (s : State) (d : Nat) (full : Bool) : List (Nat × Nat) × State :=
  let l := s.capsDue d full
  if l.isEmpty ∧ !full then ([], s)
  else
    let s1 : State := { s with jl := { s.jl with caps := l.foldl (fun t e => Tab.set t capUnsent (256 * d + e.1) e.2) s.jl.caps } }
    if d = s.ownId then ([], ((l.foldl (fun a e => a.capExec (capEntry e.1 e.2)) s1).capAll))
    else
      let q := (s1.jl.capSeq.get 0 d + 1) % 65536
      let s2 : State := { s1 with jl := { s1.jl with capSeq := s1.jl.capSeq.set 0 d q } }
      let ms := chunks (s2.perMsg d) 300 (l.map (fun e => capEntry e.1 e.2))
      let n := ms.length
      ((List.range n).zip ms).foldl (fun a e =>
        let r := a.2.request d 0x11 (capBody q (full && decide (e.1 + 1 = n)) e.2)
        (a.1 ++ [(d, r.1)], r.2)) ([], s2)

/-- Every changed cap of the domain goes out; the requests that carry them. -/
def State.capsUpdate (s : State) : List (Nat × Nat) × State :=
  (s.jl.figs.map (fun e => e.1)).foldl (fun a d => let r := a.2.capsSend d false; (a.1 ++ r.1, r.2)) ([], s)

/-- A report whose caps have all been answered is answered itself; the master's own ends the wait of its chains (R391). -/
def State.owedCheck (s : State) : State :=
  let done := s.jl.owed.filter (fun o => o.waits.isEmpty)
  let s1 : State := { s with jl := { s.jl with owed := s.jl.owed.filter (fun o => !o.waits.isEmpty) } }
  done.foldl (fun a o =>
    if o.resp.dst = a.ownId then ({ a with jl := { a.jl with raises := a.jl.raises.filter (fun e => decide (e.2 ≠ o.resp.mseq)) } } : State) else a.respond o.resp) s1

/-- A report is owed its answer after the caps it caused. -/
def State.owe (s : State) (resp : JMsg) (waits : List (Nat × Nat)) : State :=
  ({ s with jl := { s.jl with owed := s.jl.owed ++ [Owed.mk resp waits] } } : State).owedCheck

/-- REPORT received by the master (R385, R389, R391). -/
def State.report (s : State) (h : MsgHdr) (rseq : Half) (full : Bool) (entries : List Word64) : State :=
  let body := leBytes 2 rseq.toNat ++ [if full then 1 else 0, BitVec.ofNat 8 entries.length] ++ entries.flatMap (fun e => leBytes 8 e.toNat)
  s.takeRouted h 0x10 body (fun a => a.isMaster) id (fun a => a.once h (fun b =>
    let src := h.src.toNat
    let c : State := { b with jl := { b.jl with figs := b.jl.figs.upd [] src (fun l => mergeEntries l entries full) } }
    let r := c.capsUpdate
    r.2.owe { mtype := 0x10, resp := true, src := b.ownId, dst := src, mseq := h.mseq.toNat, body := leBytes 4 0 } r.1))

/-- REPORT_SEND: on a change, or a FULL one every second; the master keeps its own figures without messages (R388). -/
def State.reportSend (s : State) (full : Bool) : State :=
  let due := if full then s.jl.needFull || decide (s.jl.reportAt + tsec ≤ s.now) else s.jl.dirty
  let on := s.isMaster || (decide (s.jl.time = .locked) && s.jl.joined && !s.jl.conflict)
  if !due || !on then s
  else
    let es := s.ownEntries
    let s1 : State := { s with jl := { s.jl with dirty := false, needFull := s.jl.needFull && !full, reportAt := if full then s.now else s.jl.reportAt, rseq := (s.jl.rseq + 1) % 65536
                                                 raisesNew := [] } }
    let news := s.jl.raisesNew
    if s.isMaster then
      let id := s1.jl.rseq
      let s2 : State := { s1 with jl := { s1.jl with figs := s1.jl.figs.set [] s.ownId es, raises := s1.jl.raises ++ news.map (fun c => (c, id)) } }
      let r := s2.capsUpdate
      r.2.owe { mtype := 0x10, resp := true, src := s.ownId, dst := s.ownId, mseq := id, body := [] } r.1
    else
      let ms := if es.isEmpty then [] else chunks (s.perMsg s.jl.masterId) 300 es
      let r := ((List.range ms.length).zip ms).foldl (fun a e =>
        let q := a.2.request s.jl.masterId 0x10 (leBytes 2 s1.jl.rseq ++ [if full ∧ e.1 = 0 then 1 else 0, BitVec.ofNat 8 e.2.length] ++ e.2.flatMap (fun w => leBytes 8 w.toNat))
        (q.1, q.2)) (0, s1)
      { r.2 with jl := { r.2.jl with raises := r.2.jl.raises ++ (if ms.isEmpty then [] else news.map (fun c => (c, r.1))) } }

/-- REPORT_RESPONSE (R391). -/
def State.reportResponse (s : State) (h : MsgHdr) : State :=
  s.takeRouted h 0x10 (leBytes 4 0) (fun a => (a.port h.port.val).isUp) id (fun a =>
    let b := a.answered h.src.toNat 0x10 h.mseq.toNat
    { b with jl := { b.jl with raises := b.jl.raises.filter (fun e => decide (e.2 ≠ h.mseq.toNat)) } })

/-- The CASCADE cause clears once a member is LOCKED and a LAST set has executed after its JOIN (R393). -/
def State.cascadeClear (s : State) : State :=
  if s.jl.time = .locked ∧ s.jl.joined then
    s.each ((s.prot.objs.filter (fun e => decide (e.1 < 256) && e.2.cause.getLsbD 11)).map (fun e => e.1)) (fun i a => a.clearCause i 11)
  else s

/-- CAP received from upstream (R385, R390, R393). -/
def State.capTake (s : State) (h : MsgHdr) (cseq : Half) (last : Bool) (entries : List CapEntry) : State :=
  s.takeRouted h 0x11 (capBody cseq.toNat last entries) (fun a => (a.port h.port.val).isUp) id (fun a => a.once h (fun b =>
    let c := (entries.foldl (fun x e => x.capExec e) b).capAll
    let d := if last then ({ c with jl := { c.jl with cseq := cseq.toNat } }).cascadeClear else c
    d.respond { mtype := 0x11, resp := true, src := b.ownId, dst := h.src.toNat, mseq := h.mseq.toNat, body := leBytes 4 cseq.toNat }))

/-- A request of the master is answered: no owed REPORT waits for it any more (R391). -/
def State.owedWithout (s : State) (dst mseq : Nat) : State :=
  { s with jl := { s.jl with owed := s.jl.owed.map (fun o => { o with waits := o.waits.filter (fun w => decide (w.1 ≠ dst ∨ w.2 ≠ mseq)) }) } }

/-- CAP_RESPONSE received by the master (R391). -/
def State.capResponse (s : State) (h : MsgHdr) (cseq : Half) : State :=
  s.takeRouted h 0x11 (leBytes 4 cseq.toNat) (fun a => a.isMaster) id (fun a =>
    let b := a.answered h.src.toNat 0x11 h.mseq.toNat
    (b.owedWithout h.src.toNat h.mseq.toNat).owedCheck)

/-- What a JOIN teaches a port: its sender and what lies beyond it (R384). -/
def State.joinLearn (s : State) (h : MsgHdr) (upport : Byte) (reach : List Half) : State :=
  if (s.port h.port.val).role = 2 then
    s.updPort h.port.val (fun x => { x with beyond := x.beyond ||| 2 ^ h.src.toNat ||| ((List.range 4).foldl (fun a q => if q = upport.toNat then a else a ||| (reach.getD q 0).toNat) 0) })
  else s

/-- An ID that the master already knows by another way (R362). -/
def State.idTaken (s : State) (h : MsgHdr) : Bool :=
  let i := h.src.toNat
  decide (i = s.ownId) || (s.jl.members.testBit i && (List.range 4).any (fun q => decide (q ≠ h.port.val) && (s.port q).beyond.testBit i))

/-- JOIN received by the master (R362, R389). -/
def State.joinTake (s : State) (h : MsgHdr) (pver upport : Byte) (reach : List Half) : State :=
  let body := [pver, upport, 0, 0] ++ reach.flatMap (fun r => leBytes 2 r.toNat)
  let taken := s.idTaken h
  s.takeRouted h 5 body (fun a => a.isMaster) (fun a => if a.isMaster ∧ taken then a else a.joinLearn h upport reach) (fun a => a.once h (fun b =>
    let i := h.src.toNat
    let c : State := if taken then b else { b with jl := { b.jl with members := b.jl.members ||| 2 ^ i, reach := b.jl.reach.set [] i reach } }
    let d := c.respond { mtype := 5, resp := true, src := b.ownId, dst := i, mseq := h.mseq.toNat, body := leBytes 4 (bit taken) }
    if taken then d else (d.capsSend i true).2))

/-- JOIN_RESPONSE received by a member (R362). -/
def State.joinResponse (s : State) (h : MsgHdr) (result : Byte) : State :=
  s.takeRouted h 5 (leBytes 4 result.toNat) (fun a => (a.port h.port.val).isUp) id (fun a =>
    let b := a.answered h.src.toNat 5 h.mseq.toNat
    if result = 1 then ({ b with jl := { b.jl with conflict := true, joined := false } }).raise 15 5 .device else b)

/-- The third re-issue stayed unanswered: the master deletes the destination's figures, a member begins again with a FULL report (R386). -/
def State.requestLost (s : State) (r : JReq) : State :=
  let d := r.msg.dst
  let s1 : State := { s with jl := { s.jl with reqs := s.jl.reqs.filter (fun q => decide (q ≠ r)) } }
  if s.isMaster then
    let s2 : State := { s1 with jl := { s1.jl with figs := s1.jl.figs.set [] d [], members := if s1.jl.members.testBit d then s1.jl.members - 2 ^ d else s1.jl.members } }
    ((s2.owedWithout d r.msg.mseq).capsUpdate.2).owedCheck
  else { s1 with jl := { s1.jl with needFull := true } }

/-- REQUEST_REISSUE: the oldest request to a destination past JL_TIMEOUT (R386). -/
def State.reissue (s : State) (dst : Nat) : State :=
  match (s.reqsTo dst).head? with
  | some r =>
    if s.now < r.at_ + s.jl.timeout * tus then s
    else if r.tries < 3 then
      ({ s with jl := { s.jl with reqs := s.jl.reqs.map (fun q => if q = r then { q with at_ := s.now, tries := q.tries + 1 } else q) } }).routeSend r.msg
    else (s.requestLost r).reqRelease dst
  | none => s

end Sys2Proof.Machine
end

