-- ==== Sys2Proof/Machine/Descriptor.lean ====
section
/-! DEFINITION. Descriptors as a whole (R263-R278): taking one from its ring, the five steps of R269, acceptance, fences, aborts, and failed fetches. -/

namespace Sys2Proof.Machine

/-! ## Step 2: privilege (R227, R272, R285) -/

/-- The privilege an opcode needs (Table 9-8): 0 none, 1 OPERATE, 2 CONFIGURE. -/
def privNeed : Desc → Nat
  | .nop => 0 | .fence .. => 0
  | .slotConfig .. => 2 | .slotCoefLoad .. => 2 | .txPowerTableLoad .. => 2 | .cxAssign .. => 2 | .gclLutLoad .. => 2 | .installationModel .. => 2
  | .protConfig .. => 2 | .authorisationWrite .. => 2 | .leImageLoad .. => 2 | .jlStreamOpen .. => 2 | .jlStreamClose .. => 2
  | .abort .. => 1 | .slotEnable .. => 1 | .slotDisable .. => 1 | .slotGainSet .. => 1 | .slotBankSwap .. => 1 | .chainState .. => 1 | .chainTune .. => 1
  | .calRun .. => 1 | .txPowerStep .. => 1 | .tunerSet .. => 1 | .tunerSetRaw .. => 1 | .cxReset .. => 1 | .cxResetSeed .. => 1 | .cxFreeze .. => 1
  | .gclBankSwap .. => 1 | .gclSetpoint .. => 1 | .winterEnter .. => 1 | .winterRelease .. => 1 | .leTaskStart .. => 1 | .leTaskStop .. => 1
  | .capture .. => 1 | .telemetrySubscribe .. => 1 | .recNote .. => 1 | .recFlush => 1

/-- REFUSED_PORT with its RESULT (Table 9-11). -/
def refPort (n : Nat) : Option Refuse := some { st := .refusedPort, res := word n, res2 := 0 }

/-- LE4-LE63, which only the supervisor starts and stops (R227). -/
def closedEngine : Desc → Bool
  | .leTaskStart e _ _ _ _ _ _ _ _ => decide (4 ≤ e.toNat ∧ e.toNat ≤ 63)
  | .leTaskStop e _ => decide (4 ≤ e.toNat ∧ e.toNat ≤ 63)
  | _ => false

/-- An AUTHORISATION_WRITE, which needs AUTH_WE. -/
def isAuth : Desc → Bool | .authorisationWrite .. => true | _ => false

/-- The privilege check of a need on a ring. -/
def CmdRing.lacks (r : CmdRing) (need : Nat) : Option Refuse :=
  if need = 1 ∧ !r.privOper then refPort 1 else if need = 2 ∧ !r.privCfg then refPort 2 else none

/-- Step 2 of R269. -/
def State.privRefuse (s : State) (ring : Nat) (d : Desc) : Option Refuse :=
  match (s.ring ring).lacks (privNeed d) with
  | some r => some r
  | none => if isAuth d ∧ !s.tst.pins.authWe then refPort 3 else if closedEngine d then refPort 4 else none

/-! ## Steps 3 to 5 (R220, R269) -/

/-- The target of an ABORT among the outstanding descriptors. -/
def State.abortTarget (s : State) (ring : Nat) (index : Half) : Option Pend :=
  s.hif.outstanding.find? (fun p => decide (p.ring = ring ∧ p.index = index) && !p.discard)

/-- Checks of an ABORT: its target has been taken (Table 9-12). -/
def chkAbort (ring : Byte) (index : Half) (s : State) : Checks :=
  { range := firstBad [(8, decide (ring.toNat < 16))]
    state := if (s.abortTarget ring.toNat index).isNone ∧ (index - (s.ring ring.toNat).head).toNat < 32768 then refState else none
    worst := some 0 }

/-- A check that passes at once. -/
def chkNone : Checks := { range := none, state := none, worst := some 0 }

/-- The checks that an opcode's chapter makes (R269 steps 3 to 5). -/
def checksOf (cls : Cls) (d : Desc) (s : State) : Checks :=
  match d with
  | .nop => chkNone
  | .fence a => { chkNone with range := firstBad [(8, decide (a.toNat ≤ 1))] }
  | .abort r i => chkAbort r i s
  | .slotConfig sl pr rt dk ds bw rx tx _ => chkSlotConfig sl pr rt dk ds bw rx tx s
  | .slotEnable sl => chkSlotEnable sl s
  | .slotDisable sl => chkSlotDisable sl s
  | .slotGainSet sl g => chkSlotGainSet sl g s
  | .slotCoefLoad sl _ n a _ => chkSlotCoefLoad sl n a s
  | .slotBankSwap sl x => chkSlotBankSwap sl x s
  | .chainState c dr t _ => chkChainState cls c dr t s
  | .chainTune c dr m l fw fo pd => chkChainTune c dr m l fw fo pd s
  | .calRun c dr m => chkCalRun c dr m s
  | .txPowerStep c m dl ix at_ => chkTxPowerStep c m dl ix at_ s
  | .txPowerTableLoad c _ _ => chkTxPowerTableLoad c
  | .tunerSet c _ at_ => chkTunerSet c at_ s
  | .tunerSetRaw b c l _ at_ => chkTunerSetRaw b c l at_ s
  | .cxAssign c rl tx rx j b e => chkCxAssign c rl tx rx j b e s
  | .cxReset c => chkCxReset c s
  | .cxResetSeed c x l _ _ => chkCxResetSeed c x l s
  | .cxFreeze f _ => chkCxFreeze f s
  | .gclLutLoad st _ _ _ => chkGclLutLoad st s
  | .gclBankSwap st => chkGclBankSwap st s
  | .gclSetpoint sl f fl sp w ls su sd m => chkGclSetpoint sl f fl sp w ls su sd m s
  | .installationModel c mn mx rt => chkInstallationModel c mn mx rt s
  | .protConfig p o v => chkProtConfig p o v
  | .authorisationWrite e w0 w1 w2 w3 w4 => chkAuthWrite e w0 w1 w2 w3 w4
  | .winterEnter sc ix _ => chkWinterEnter sc ix
  | .winterRelease sc ix ov => chkWinterRelease sc ix ov s
  | .leImageLoad f c l a _ => chkImageLoad f c l a s
  | .leTaskStart e t en sv pe ph nb pm dt => chkTaskStart e t en sv pe ph nb pm dt s
  | .leTaskStop e t => chkTaskStop e t s
  | .capture pt ix tr sh ln pr at_ ad => chkCapture cls pt ix tr sh ln pr at_ ad s
  | .telemetrySubscribe sb rg kd ix mk pe => chkSubscribe sb rg kd ix mk pe
  | .recNote n _ => chkRecNote n s
  | .recFlush => chkRecFlush
  | .jlStreamOpen p st dr rt tc bw tf pd => chkStreamOpen p st dr rt tc bw tf pd s
  | .jlStreamClose p st => chkStreamClose p st s

/-- Descriptors of a class accepted and not completed (HIF_ADM.OUT). -/
def State.classOut (s : State) (k : Cls) : Nat := (s.hif.outstanding.filter (fun p => decide (p.cls = k))).length

/-- The most of a class that may be outstanding (Table 7-5). -/
def clsLimit : Cls → Option Nat | .a => some 32 | .b => some 64 | .c => some 32 | .d => none

/-- The class has its maximum outstanding. -/
def State.classFull (s : State) (k : Cls) : Bool := match clsLimit k with | some n => decide (n ≤ s.classOut k) | none => false

/-- A worst-case time in µs, rounded up and saturating (Table 9-11). -/
def worstUs : Option Nat → Word
  | some t => word (min 0xFFFFFFFF (ceilDiv t tus))
  | none => 0xFFFFFFFF

/-- A worst-case time lies beyond the deadline of a class; class D has none (R220, R222). -/
def beyondDeadline (k : Cls) (t : Option Nat) : Bool :=
  match clsDeadline k, t with
  | none, _ => false
  | some _, none => true
  | some d, some t => decide (d < t)

/-- Step 5 of R269. -/
def State.timeRefuse (s : State) (k : Cls) (t : Option Nat) : Option Refuse :=
  if s.classFull k || beyondDeadline k t then some { st := .refusedDeadline, res := worstUs t, res2 := BitVec.ofNat 16 (bit (s.classFull k)) } else none

/-- Steps 2 to 5 of R269. -/
def State.examine (s : State) (h : DHdr) (d : Desc) : Option Refuse :=
  let k := checksOf h.cls d s
  match s.privRefuse h.ring.val d, k.range, k.state with
  | some r, _, _ => some r
  | none, some off, _ => refBad off
  | none, none, some r => some r
  | none, none, none => s.timeRefuse h.cls k.worst

/-! ## Host data (R268, R274; log 30) -/

/-- What the host data of a descriptor fail with, if they do. -/
def dataFault (d : Desc) (s : State) : Option Refuse :=
  match d with
  | .slotCoefLoad sl _ _ _ x => dataRefuse x (bankOk (s.slot sl.toNat))
  | .txPowerTableLoad _ _ x => dataRefuse x tableOk
  | .cxResetSeed c _ _ _ x => dataRefuse x (coefSetOk (s.inst c.toNat).ntaps)
  | .gclLutLoad _ _ _ x => dataRefuse x (fun ws => lutOk (lutWords ws))
  | .leImageLoad f _ l _ x => dataRefuse x (imageOk f.toNat l.toNat)
  | .leTaskStart _ _ _ _ _ _ n _ x => dataRefuse x (paramsOk n.toNat)
  | _ => none

/-- The words of a host read. -/
def dataWords : HostData → List Word | .words l => l | .failed _ => []

/-- An image that fails its checks raises IMG_REJECT (R229). -/
def State.imgReject (s : State) (d : Desc) (r : Refuse) : State :=
  match d with
  | .leImageLoad f _ _ _ _ => if r.st = .badDescriptor then s.raise 14 7 (.task f.toNat 0) else s
  | _ => s

/-! ## Aborts (R278, Table 9-12) -/

/-- The commit point of a descriptor is its acceptance. -/
def atAccept : Desc → Bool
  | .nop => true | .fence .. => true | .abort .. => true | .slotConfig .. => true | .cxAssign .. => true | .protConfig .. => true | .authorisationWrite .. => true
  | .winterEnter .. => true | .telemetrySubscribe .. => true | .recNote .. => true | .recFlush => true | .installationModel .. => true
  | .gclSetpoint _ f _ _ _ _ _ _ _ => !f.getLsbD 0
  | .jlStreamOpen _ _ dr _ _ _ _ _ => decide (dr = 1)
  | _ => false

/-- A descriptor is at or past its commit point. -/
def State.pastCommit (s : State) (p : Pend) : Bool :=
  p.committed || atAccept p.desc ||
  (match p.desc with
   | .chainState .. => decide (p.aux = 1 ∧ p.start ≤ s.now)
   | .gclBankSwap st => (s.lutUsers st.toNat).any (fun n => decide ((s.gain n).bankB = (s.lut st.toNat).activeB))
   | _ => false)

/-- A frame of a descriptor leaves its bus, or its wait for a boundary. -/
def State.dropFrames (s : State) (id : Nat) : State :=
  let s1 := s.each (List.range 8) (fun b a => a.updFecb b (fun x => { x with queue := x.queue.filter (fun f => decide (f.id ≠ some id)) }))
  s1.each (List.range 32) (fun c a => a.updTx c (fun x => { x with waiting := x.waiting.filter (fun w => decide (w.2.2 ≠ some id)) }))

/-- An aborted release hands its proof to another of the object, or ends it; the WINTER stays (R196). -/
def State.abortRelease (s : State) (p : Pend) (i : Nat) : State :=
  let s1 := s.complete p .aborted (s.pwCause i) 0
  s1.updObj i (fun o => match o.release with
    | some r => if r.id = p.id then { o with release := ((s1.pends (isRelease i)).head?).map (fun q => { r with id := q.id }) } else o
    | none => o)

/-- An aborted walk: the chain stays where it is. -/
def State.abortWalk (s : State) (p : Pend) (i : Nat) : State :=
  if p.aux = 1 then (s.updChain i (fun c => { c with walk := none, trans := none })).complete p .aborted (word ((s.dtAt p.start).toNat / tns - p.accDt.toNat)) 0
  else s.free.2.complete p .aborted s.free.1 0

/-- The abort of a target before its commit point (R278 and the chapters). -/
def State.abortPend (s : State) (p : Pend) : State :=
  match p.desc with
  | .slotGainSet sl _ => abortSlotGainSet p sl.toNat s
  | .gclSetpoint sl _ _ _ _ _ _ _ _ => abortSetpoint p sl.toNat s
  | .slotBankSwap sl _ => (s.complete p .aborted 0 0).loadsStart sl.toNat
  | .chainState c dr _ _ => s.abortWalk p (chIdxB dr c)
  | .txPowerStep c _ _ _ _ => (s.dropFrames p.id).complete p .aborted (s.txc c.toNat).pwr 0
  | .txPowerTableLoad c _ _ => s.complete p .aborted (s.txc c.toNat).pwr 0
  | .tunerSet .. => (s.dropFrames p.id).complete p .aborted 0 0
  | .tunerSetRaw .. => (s.free.2.dropFrames p.id).complete p .aborted s.free.1 0
  | .cxResetSeed c _ _ _ _ => s.seedDrop c.toNat .aborted
  | .gclBankSwap st => ((s.updLut st.toNat (fun l => { l with activeB := !l.activeB })).complete p .aborted 0 0)
  | .winterRelease sc ix _ => s.abortRelease p (scopeObj sc ix)
  | .leImageLoad f _ _ _ _ => if f.toNat = 4 then (s.complete p .aborted 0 0).libPlace else s.complete p .aborted 0 0
  | .leTaskStart e t _ _ _ _ _ _ _ => (s.complete p .aborted 0 0).stopTask e.toNat t.toNat
  | .capture .. => s.captAbort p
  | .jlStreamOpen pt st _ _ _ _ _ _ => s.openFails pt.toNat st.toNat .aborted true
  | .jlStreamClose pt st =>
    let k := strIdx pt.toNat (st.getLsbD 7) (st.toNat % 16)
    let s1 := s.complete p .aborted 0 0
    s1.updStrm k (fun x => { x with closing := ((s1.pends (isStreamClose k)).head?).map (fun q => q.id) })
  | _ => s.complete p .aborted 0 0

/-- An accepted ABORT (Table 9-12). -/
def startAbort (p : Pend) (ring : Byte) (index : Half) (s : State) : State :=
  let res := word (ring.toNat % 16 * 65536 + index.toNat)
  match s.abortTarget ring.toNat index with
  | some t => if t.id = p.id ∨ s.pastCommit t then s.complete p .abortTooLate res 0 else (s.abortPend t).complete p .ok res 0
  | none => s.complete p .abortTooLate res 0

/-! ## Acceptance -/

/-- What an accepted descriptor does at once; what comes later is a command of its own. -/
def startOf (p : Pend) (s : State) : State :=
  match p.desc with
  | .nop => s.complete p .ok 0 0
  | .fence _ => s.complete p .ok 0 0
  | .abort r i => startAbort p r i s
  | .slotConfig sl pr rt dk ds bw rx tx pd => startSlotConfig p sl.toNat pr rt dk ds bw rx tx pd s
  | .slotEnable sl => startSlotEnable p sl.toNat s
  | .slotDisable sl => startSlotDisable p sl.toNat s
  | .slotGainSet sl g => startSlotGainSet p sl.toNat (gainCode g) s
  | .slotCoefLoad sl _ _ _ _ => startSlotCoefLoad sl.toNat s
  | .slotBankSwap sl _ => startSlotBankSwap p sl.toNat s
  | .chainState c dr _ fl => startChainState p (chIdxB dr c) fl s
  | .chainTune c dr m l fw fo _ => startChainTune p (chIdxB dr c) m l fw fo s
  | .calRun c dr m => startCalRun p (chIdxB dr c) m s
  | .txPowerStep c m dl ix at_ => startTxPowerStep p c.toNat m dl ix at_ s
  | .txPowerTableLoad .. => s
  | .tunerSet c w at_ => startTunerSet p c.toNat w at_ s
  | .tunerSetRaw b c l r at_ => startTunerSetRaw p b c l r at_ s
  | .cxAssign c rl tx rx j b e => startCxAssign p c.toNat rl tx rx j b e s
  | .cxReset _ => s
  | .cxResetSeed c x _ _ dt => startCxResetSeed p c.toNat x (dataWords dt) s
  | .cxFreeze .. => s
  | .gclLutLoad .. => s
  | .gclBankSwap st => startGclBankSwap p st.toNat s
  | .gclSetpoint sl f fl sp w ls su sd m => startGclSetpoint p sl.toNat f fl sp w ls su sd m s
  | .installationModel c mn mx rt => startInstallationModel p c.toNat mn mx rt s
  | .protConfig pm o v => startProtConfig p pm o v s
  | .authorisationWrite e w0 w1 w2 w3 w4 => startAuthWrite e.toNat w0 w1 w2 w3 w4 s
  | .winterEnter sc ix rs => startWinterEnter p sc ix rs s
  | .winterRelease sc ix _ => startWinterRelease p (scopeObj sc ix) s
  | .leImageLoad f _ _ _ _ => startImageLoad f s
  | .leTaskStart e t en sv pe ph nb _ dt => startTaskStart p e t en sv pe ph nb (dataWords dt) s
  | .leTaskStop e t => startTaskStop p e t s
  | .capture .. => s.captNext
  | .telemetrySubscribe sb rg kd ix mk pe => startSubscribe p sb rg kd ix mk pe s
  | .recNote n dt => startRecNote p n dt s
  | .recFlush => startRecFlush p s
  | .jlStreamOpen pt st dr rt tc bw tf pd => startStreamOpen p pt st dr rt tc bw tf pd s
  | .jlStreamClose pt st => startStreamClose p pt st s

/-- The descriptor at HEAD of a ring as accepted now. -/
def State.mkPend (s : State) (h : DHdr) (d : Desc) : Pend :=
  { id := s.hif.nextId, ring := h.ring.val, index := (s.ring h.ring.val).head, tag := h.tag, op := opOf d, cls := h.cls, notify := h.notify, accDt := s.dtime,
    acc := s.now, committed := false, discard := false, desc := d, start := 0, aux := 0 }

/-- HEAD passes a descriptor (R263). -/
def State.pass (s : State) (ring : Nat) : State := s.updRing ring (fun r => { r with head := r.head + 1 })

/-- A completion at the instant of examination: ACC_DTIME is DONE_DTIME (R269). -/
def State.answerNow (s : State) (ring : Nat) (tag : Word) (op : Byte) (index : Half) (notify : Bool) (r : Refuse) : State :=
  s.sendCompl { ring := ring, tag := tag, op := op, status := r.st, index := index, accDt := s.dtime, doneDt := s.dtime, res := r.res, res2 := r.res2, notify := notify }

/-- HIF_REF counts a refusal (R276, R289). -/
def State.countRefuse (s : State) (cls : Cls) (r : Refuse) : State :=
  let k := match cls with | .a => 0 | .b => 1 | .c => 2 | .d => 3
  if r.st = .refusedDeadline then { s with hif := { s.hif with refDl := s.hif.refDl.upd 0 k (satInc 0xFFFF) } }
  else { s with hif := { s.hif with refOther := s.hif.refOther.upd 0 k (satInc 0xFFFF) } }

/-- A refused descriptor completes at once and changes nothing else (R269). -/
def State.refuse (s : State) (ring : Nat) (tag : Word) (op : Byte) (k : Cls) (notify : Bool) (r : Refuse) : State :=
  let i := (s.ring ring).head
  ((s.pass ring).countRefuse k r).answerNow ring tag op i notify r

/-- Acceptance (R263, R269). -/
def State.accept (s : State) (h : DHdr) (d : Desc) : State :=
  let p := s.mkPend h d
  let s1 := s.pass h.ring.val
  startOf p { s1 with hif := { s1.hif with nextId := s1.hif.nextId + 1, outstanding := s1.hif.outstanding ++ [p] } }

/-- The descriptors a FENCE waits for (R277). -/
def State.fenceWaits (s : State) (ring : Nat) (all : Byte) : List Nat :=
  (s.hif.outstanding.filter (fun p => decide (all = 1 ∨ p.ring = ring) && (!p.discard || decide (all = 1)))).map (fun p => p.id)

/-- A FENCE with nothing to wait for is accepted; another waits at HEAD (R277). -/
def State.takeFence (s : State) (h : DHdr) (all : Byte) : State :=
  let w := s.fenceWaits h.ring.val all
  if w.isEmpty then s.accept h (.fence all) else s.updRing h.ring.val (fun r => { r with fence := some { hdr := h, waits := w } })

/-- A descriptor that passes its examination: a FENCE waits, bad host data end it, else it is accepted. -/
def State.receive (s : State) (h : DHdr) (d : Desc) : State :=
  match d with
  | .fence all => s.takeFence h all
  | _ =>
    match dataFault d s with
    | some r => ((s.pass h.ring.val).imgReject d r).answerNow h.ring.val h.tag (opOf d) (s.ring h.ring.val).head h.notify r
    | none => s.accept h d

/-- The descriptor at HEAD of a ring is examined (R269). -/
def State.runDesc (s : State) (h : DHdr) (d : Desc) : State :=
  match s.examine h d with
  | some r => s.refuse h.ring.val h.tag (opOf d) h.cls h.notify r
  | none => s.receive h d

/-! ## Taking a descriptor (R263-R267, R372, R405) -/

/-- The device takes descriptors at all: past the release point, and on a member in LOCKED. -/
def State.takesDescs (s : State) : Bool :=
  !s.tst.inReset && decide (s.tst.stage = 7) && (s.isMaster || decide (s.jl.time = .locked)) && s.hif.busMaster

/-- An entry of the completion ring can be reserved (R264). -/
def State.cqFree (s : State) (n : Nat) : Bool := let r := s.ring n; decide ((r.ctail - r.chead).toNat + s.ringWork n < 2 ^ r.size)

/-- A ring whose next descriptor can be taken. -/
def State.canTake (s : State) (n : Nat) : Bool :=
  let r := s.ring n
  s.takesDescs && decide (r.st = .running ∧ r.head ≠ r.tail ∧ r.fence = none ∧ r.retry = none) && s.cqFree n

/-- Round-robin service moves past a ring (R265). -/
def State.served (s : State) (n : Nat) : State := { s with hif := { s.hif with rr := (n + 1) % 16 } }

/-- A descriptor command: the descriptor at HEAD of its ring, if one can be taken. -/
def State.submit (s : State) (h : DHdr) (d : Desc) : State := if s.canTake h.ring.val then (s.served h.ring.val).runDesc h d else s

/-- The lowest failing operand offset of a descriptor whose MODE or KIND selects no operation. -/
def selectorBad (bs : List Byte) (off : Nat) : Nat :=
  match (dByte bs 0).toNat with
  | 0x23 => if 32 ≤ (dByte bs 8).toNat then 8 else off
  | 0x31 => if 64 ≤ (dByte bs 8).toNat then 8 else off
  | _ => off

/-- A descriptor of 64 bytes at HEAD of a ring (R269). -/
def State.takeBytes (s : State) (n : Fin 16) (bs : List Byte) (data : HostData) : State :=
  let h := hdrOf n bs
  match headerFault bs, selectorFault bs with
  | some off, _ => s.refuse n.val h.tag (dByte bs 0) h.cls h.notify { st := .badDescriptor, res := word off, res2 := 0 }
  | none, some off =>
    match (s.ring n.val).lacks 1 with
    | some r => s.refuse n.val h.tag (dByte bs 0) h.cls h.notify r
    | none => s.refuse n.val h.tag (dByte bs 0) h.cls h.notify { st := .badDescriptor, res := word (selectorBad bs off), res2 := 0 }
  | none, none => s.runDesc h (operandsOf bs data)

/-- The ring that round-robin service comes to next. -/
def State.nextRing (s : State) : Option (Fin 16) :=
  ((List.range 16).map (fun k => Fin.ofNat 16 (s.hif.rr + k))).find? (fun n => s.canTake n.val)

/-- DESCRIPTOR_FETCH (R264, R265, R267). -/
def State.fetch (s : State) (f : Fetch) (data : HostData) : State :=
  match s.nextRing with
  | none => s
  | some n =>
    match f with
    | .bytes bs => (s.served n.val).takeBytes n bs data
    | .failed _ => (s.served n.val).updRing n.val (fun r => { r with retry := some s.now })

/-- The second failure of a descriptor read: FETCH_ERROR, and the ring stops (R267). -/
def State.fetchError (s : State) (n : Nat) (code : Fin 6) : State :=
  let i := (s.ring n).head
  let s1 := s.answerNow n 0xFFFFFFFF 0 i false { st := .fetchError, res := word code.val, res2 := 0 }
  (s1.stopRing n 1).raise 1 2 .device

/-- FETCH_RETRY: 10 µs after the failure (R267). -/
def State.fetchRetry (s : State) (n : Fin 16) (f : Fetch) (data : HostData) : State :=
  match (s.ring n.val).retry with
  | none => s
  | some t =>
    let s1 := s.updRing n.val (fun r => { r with retry := none })
    if s.now < t + 10 * tus ∨ !s1.canTake n.val then s
    else match f with
      | .bytes bs => s1.takeBytes n bs data
      | .failed c => s1.fetchError n.val c

/-- FENCE_ACCEPT: what the FENCE at HEAD waits for has completed (R277). -/
def State.fenceAccept (s : State) (n : Nat) : State :=
  match (s.ring n).fence with
  | none => s
  | some w =>
    if !s.takesDescs ∨ s.hif.outstanding.any (fun p => w.waits.contains p.id) then s
    else
      let s1 := s.updRing n (fun r => { r with fence := none })
      match s1.timeRefuse w.hdr.cls (some 0) with
      | some r => s1.refuse n w.hdr.tag 2 w.hdr.cls w.hdr.notify r
      | none => s1.accept w.hdr (.fence 0)

end Sys2Proof.Machine
end

