-- ==== Sys2Proof/Machine/Spring.lean ====
section
/-! DEFINITION. SPRING, reset and straps (R399-R407, R423), the test access port (R408-R409), the test multiplexers (R410) and factory access (R411, R412). -/

namespace Sys2Proof.Machine

/-! ## Reset (R400, R402, R423) -/

/-- The pins whose level the straps latch. -/
def strapLevels (x : Straps) : Straps := { x with authWe := false }

/-- The TST block as a reset leaves it: the port keeps its own state. -/
def Tst.afterReset (x : Tst) (now : Nat) : Tst :=
  { Tst.resetOn x.pins with
    riseAt := now, stageAt := now, perstHigh := x.perstHigh, ir := x.ir, bsr := x.bsr, tapOut := x.tapOut, tstStatus := x.tstStatus }

/-- Every block returns to reset but the test port and the non-volatile store (R400). Host writes already made stay made. -/
def State.resetBlocks (s : State) : State :=
  { s with
    hif := { Hif.reset with hostWrites := s.hif.hostWrites, captCount := s.hif.captCount, urCount := s.hif.urCount }
    intc := Intc.reset, flt := Flt.reset, recd := Recd.resetOn { s.recd.store with lastSeq := max s.recd.store.lastSeq (s.recd.nextSeq - 1) }, rfe := Rfe.reset, slots := [], cx := [], cxPol := CxPolicy.reset, gcl := [], luts := []
    prot := Prot.reset, tim := Tim.reset, le := Le.reset, jl := { Jl.resetOn s.tst.pins.casMaster with epoch := s.jl.epoch }, tst := s.tst.afterReset s.now }

/-- SYS_RST_N_FALL. -/
def State.resetFall (s : State) : State :=
  let s1 := s.resetBlocks
  { s1 with tst := { s1.tst with inReset := true, railHold := false, straps := s.tst.straps } }

/-- The straps are latched, DTIME starts on a master, the device is in WINTER with cause RESET, and SPRING stage 1 begins (R205, R402, R403). -/
def State.springStart (s : State) : State :=
  let s1 := s.resetBlocks
  let m := s.tst.pins.casMaster
  ({ s1 with
    tim := { s1.tim with dtRun := m, dtOrigin := s.now, slewAt := s.now }
    jl := { s1.jl with lastHb := s.now, epoch := if m then s.jl.epoch + 1 else s.jl.epoch }
    flt := { s1.flt with halfAt := s.now }
    prot := { s1.prot with readbackAt := s.now } }).updObj objDevice (fun o => { o with entries := [(15, s.now)], age := some s.now })

/-- SYS_RST_N_RISE. -/
def State.resetRise (s : State) : State := if s.tst.inReset ∧ !s.tst.railHold then s.springStart else s

/-- RAIL_UNDERVOLTAGE: as a reset, held until the rail has recovered (R423). -/
def State.railDown (s : State) : State :=
  if s.tst.inReset then s
  else let s1 := s.resetFall
       { s1 with tst := { s1.tst with railHold := true } }

/-- INTERNAL_RESET_END: the rail has been within its limits for 1 ms. -/
def State.railUp (s : State) : State := if s.tst.inReset ∧ s.tst.railHold then s.springStart else s

/-- STRAP_PIN_CHANGE: after the latch it sets CHANGED and raises STRAP_CHANGE; AUTH_WE is a level and no strap (R188, R402). -/
def State.strapChange (s : State) (p : Straps) : State :=
  let s1 := { s with tst := { s.tst with pins := p } }
  if s.tst.inReset ∨ strapLevels p = strapLevels s.tst.pins then s1
  else ({ s1 with tst := { s1.tst with changed := true } }).raise 0 3 .device

/-! ## Stages (R403-R405, Table 14-2) -/

/-- SPRING is in a stage. -/
def State.inStage (s : State) (n : Nat) : Bool := !s.tst.inReset && !s.tst.stopped && decide (s.tst.stage = n)

/-- The next stage begins. -/
def State.stageTo (s : State) (n : Nat) : State := { s with tst := { s.tst with stage := n, stageAt := s.now } }

/-- SPRING stops at its stage. -/
def State.springStop (s : State) : State := { s with tst := { s.tst with stopped := true } }

/-- FUSE_STAGE_END: VID follows GEN_VID from here on; a bad fuse stops SPRING, and the link still trains (R403, R404). -/
def State.fuseEnd (s : State) (ok : Bool) (floor : BitVec 6) : State :=
  if !s.inStage 1 then s
  else
    let s1 := { s with tst := { s.tst with linkTraining := s.tst.perstHigh } }
    if ok then ({ s1 with tim := { s1.tim with vidFloor := floor.toNat } }).stageTo 2
    else (s1.raise 0 0 .device).springStop

/-- The table is restored from the store and every word checked (R189). -/
def State.authRestore (s : State) (ok : Bool) : State :=
  if ok && s.recd.store.auth.all (fun e => cwordOk e.2) then { s with prot := { s.prot with auth := s.recd.store.auth, restoreFail := false } }
  else ({ s with prot := { s.prot with auth := [], restoreFail := true } }).raise 13 1 .device

/-- RECORDER_MOUNT. -/
def State.mountStage (s : State) (authOk : Bool) : State := if !s.inStage 2 then s else ((s.mount).authRestore authOk).stageTo 3

/-- SUPERVISOR_BOOT: heartbeats and MP begin, ports with a role begin training; a bad ROM stops SPRING. -/
def State.bootStage (s : State) (ok : Bool) : State :=
  if !s.inStage 3 then s
  else if ok then
    let s1 := { s with flt := { s.flt with hbRun := true, hb := (List.range 4).foldl (fun t n => Tab.set t 0 n s.now) [] }, tst := { s.tst with mpAnswers := true } }
    (s1.each (List.range 4) (fun p a => a.trainStart p)).stageTo 4
  else (s.raise 3 2 .device).springStop

/-- The memories, one address each, of a list of failing words. -/
def failedMems (l : List Nat) : List Nat := l.foldl (fun a x => if a.any (fun y => decide (y / 2 ^ 16 = x / 2 ^ 16)) then a else a ++ [x]) []

/-- MEMORY_SELF_TEST: BIST_FAIL in the scope of each failing memory's holder; every word is left correctly coded. -/
def State.bistStage (s : State) (fails : List Word) : State :=
  if !s.inStage 4 then s
  else
    let l := (fails.map (fun w => w.toNat)).filter (fun a => (s.symHolder a).isSome)
    let ms := failedMems l
    let s1 := { s with flt := { s.flt with flipped := [], poisoned := [] }
                       tst := { s.tst with bistCnt := ms.length, bistMs := (s.now - s.tst.stageAt) * 100 / tms, bistAddr := word (l.headD 0) }
                       tim := { s.tim with align := 1 } }
    (ms.foldl (fun a x => match a.symHolder x with | some h => a.raiseIn 0 1 h.2.2.2 false | none => a) s1).stageTo 5

/-- SPRING_FAIL: CK0-CK3 are not locked 1 ms into stage 5. -/
def State.springFail (s : State) : State :=
  if s.inStage 5 && decide (s.tst.stageAt + tms ≤ s.now ∧ s.rfe.ckLocked ≠ 0xF) then s.raise 0 2 .device else s

/-- FRAME_ABSENT: no pair of edges within 25 ms; the master takes its internal frame (Table 7-1). -/
def State.frameAbsent (s : State) : State :=
  if s.inStage 5 && s.isMaster && decide (s.tim.srcUsed = 0 ∧ s.tst.stageAt + 25 * tms ≤ s.now) then
    ({ s with tim := { s.tim with srcUsed := 1, framePh := 0 } }).raise 5 4 .device
  else s

/-- A frame to align on is here: the pair of FRAME_IN edges, the internal frame of DTIME 0 + n x 10 ms (at once: the stage ends within 26 ms, Table 14-2), or an edge of the master's frame. -/
def State.alignReady (s : State) : Bool :=
  if s.isMaster then decide (s.tim.srcUsed = 2 ∨ s.tim.srcUsed = 1)
  else decide (s.tim.srcUsed = 3 ∧ s.jl.time = .locking ∧ s.frameOfs = 0)

/-- CLOCK_ALIGNMENT: CK0-CK3 are locked and every buffer is aligned on one frame edge; a member is then LOCKED and joins (R207, R370). -/
def State.alignStage (s : State) : State :=
  if s.inStage 5 && s.alignReady then
    let s1 := ({ s with rfe := { s.rfe with refOk := true, ckLocked := 0xF }, tim := { s.tim with tileOk := 0xF, align := 2 }, tst := { s.tst with frameInt := decide (s.tim.srcUsed = 1) } }).stageTo 6
    if s.isMaster then s1 else s1.lockedJoin
  else s

/-- SPRING_PROOF: the chains of every tile have been proved; a failing chain takes NET_PROOF (R192, R194). -/
def State.proofStage (s : State) (a b : Word) : State :=
  if !s.inStage 6 ∨ s.tst.proved then s
  else
    let bad : BitVec 4 := (List.range 4).foldl (fun m k =>
      if (List.range 8).all (fun c => a.getLsbD (8 * k + c) && b.getLsbD (8 * k + c)) then m else m ||| BitVec.twoPow 4 k) 0
    let s1 := (s.tileProofs (List.range 4) a b).updObj objDevice (fun o => { o with proofOk := decide (bad = 0) })
    { s1 with tst := { s1.tst with proofFail := bad, proved := true } }

/-- RELEASE_POINT: the RESET cause is cleared, unless a scan instruction set it since the rise (R403, R409). -/
def State.releasePoint (s : State) : State :=
  if s.inStage 6 && s.tst.proved then
    let s1 := { s with tst := { s.tst with stage := 7, readyMs := min 0xFFFF ((s.now - s.tst.riseAt) / tms) } }
    if s.tst.scanned then s1 else s1.clearCause objDevice 15
  else s

/-- PERST_N_DEASSERT: link training waits for the end of stage 1 (R404). -/
def State.perstRise (s : State) : State :=
  { s with tst := { s.tst with perstHigh := true, linkTraining := s.tst.linkTraining || (!s.tst.inReset && (decide (2 ≤ s.tst.stage) || s.tst.stopped)) } }

/-! ## The test access port (R408, R409) -/

/-- A scan instruction of R409 is selected: the RESET cause in device scope, with TEST_EN low. -/
def State.scanSelect (s : State) (c : Byte) : State :=
  let s1 := s.tapIr c
  if s.tst.straps.testEn then s1
  else
    let s2 := s1.winterSet objDevice 15 0
    { s2 with tst := { s2.tst with scanned := true } }

/-- The boundary register is loaded. -/
def State.bsrLoad (s : State) (v : BitVec 3412) : State := { s with tst := { s.tst with bsr := v } }

/-- What the data register shifts out next. -/
def State.tapShow (s : State) (v : Word64) : State := { s with tst := { s.tst with tapOut := v } }

/-- A code that Table 14-5 lists. -/
def tapListed (c : Byte) : Bool := [0, 1, 2, 3, 4, 5, 6, 0x20, 0x21, 0x22].contains c

/-! ## Test multiplexers (R410, Table 14-6) -/

/-- A selection and index that may be written. -/
def tmuxOk (v : Nat) : Bool :=
  let i := v / 256 % 256
  match v % 256 with
  | 0 => true | 1 => true | 2 => decide (i < 4) | 3 => decide (i < 32) | 4 => decide (i < 32) | 5 => decide (i < 4) | 6 => true | 7 => decide (i < 4) | 8 => decide (i < 32)
  | _ => false

/-- TST_TMUX of a pin is written. -/
def State.tmuxPut (s : State) (p : Nat) (v : Word) : State :=
  let n := v.toNat % 65536
  if tmuxOk n then { s with tst := { s.tst with tmux := s.tst.tmux.set 0 p (word n) } } else s

/-- TST_TMUX_WRITE: from HP, only with DEV_EN latched high. -/
def State.tmuxWrite (s : State) (p : Nat) (v : Word) : State := if s.tst.straps.devEn then s.tmuxPut p v else s

/-- TMUXSEL: from TP, only with TEST_EN latched high. -/
def State.tmuxSel (s : State) (v : Word) : State :=
  let s1 := s.tapIr 0x21
  if s.tst.straps.testEn then s1.tmuxPut (bitsOf v 24 3) v else s1.tapShow 0

/-- The level of TMUXp (Table 14-6). -/
def State.tmuxPin (s : State) (p : Nat) : Bool :=
  let v := (s.tst.tmux.get 0 p).toNat
  let i := v / 256
  if s.tst.inReset ∨ (!s.tst.straps.devEn ∧ !s.tst.straps.testEn) then false
  else match v % 256 with
    | 1 => (match s.tim.frameOut with | some t => decide (s.now < t + tus) | none => false)
    | 2 => s.tim.dtRun && decide ((s.smpAt s.now % chainBlk).toNat < 100000)
    | 3 => s.netA i
    | 4 => s.netB i
    | 5 => Config.tmuxPhase 5 i s.now
    | 6 => Config.tmuxPhase 6 0 s.now
    | 7 => decide ((s.tileT i).slackAll < 8)
    | 8 => (match (s.rxDet i).lastDet with | some t => decide (s.now < t + 40 * tns) | none => false)
    | _ => false

/-! ## Factory access (R411, R412) -/

/-- Two 32-bit words as one 64-bit word, the first in the low half (R3). -/
def pair64 (lo hi : Word) : Word64 := hi ++ lo

/-- Byte list to a 64-bit word. -/
def bytes64 (f : Nat → Byte) : Word64 := BitVec.ofNat 64 ((List.range 8).foldl (fun a j => a + (f j).toNat * 2 ^ (8 * j)) 0)

/-- The word at a test address that names one: its memory's contents where the manual lays them out, else a free value (R411; log 17). -/
def State.tstWord (s : State) (a : Nat) : Option Word64 :=
  let b := a / 2 ^ 28
  let o := a / 2 ^ 20 % 256
  let k := a / 2 ^ 16 % 16
  let w := a % 2 ^ 16
  let other : Option Word64 := some (match (s.tst.words.find? (fun e => decide (e.1 = a))) with | some e => e.2 | none => Config.testWord a s.now)
  let two (l : List Word) : Option Word64 := if 2 * w < l.length then some (pair64 (l.getD (2 * w) 0) (l.getD (2 * w + 1) 0)) else none
  if k = 12 then other
  else match b with
    | 10 => if k = 0 then two (s.slot o).bankA else if k = 1 then two (s.slot o).bankB else if k = 2 then other else none
    | 11 => if 64 ≤ o then none
            else if k = 3 then two (s.inst o).mainWords
            else if k = 4 then (match (s.inst o).cand with | some l => two (l.flatMap (coefWords 0)) | none => other)
            else if k = 2 then other else none
    | 14 => if 128 ≤ o then none
            else if k = 5 then (if w < 2048 then some (pair64 ((s.eng o).imem.get 0 (2 * w)) ((s.eng o).imem.get 0 (2 * w + 1))) else none)
            else if k = 6 then (if w < 4096 then some (bytes64 (fun j => (s.eng o).dmem.get 0 (8 * w + j))) else none)
            else none
    | 12 => if o < 16 ∧ (k = 8 ∨ k = 9) ∧ w < 16 then
              some (BitVec.ofNat 64 ((List.range 4).foldl (fun x j => x + (half ((s.lut o).entry (decide (k = 9)) (4 * w + j))).toNat * 2 ^ (16 * j)) 0))
            else none
    | 4 => if o = 0 ∧ k = 10 then
             (if w < 8192 then some (match s.recd.buf[w / 8]? with
               | some r => pair64 (r.words.getD (2 * (w % 8)) 0) (r.words.getD (2 * (w % 8) + 1) 0)
               | none => 0) else none)
           else none
    | 1 => if k = 11 then other else none
    | 2 => if k = 11 then other else none
    | 13 => if k = 11 then other else none
    | 15 => other
    | _ => if 6 ≤ b ∧ b ≤ 9 ∧ k = 7 ∧ o / 8 = b - 6 ∧ w < 128 then some ((s.txc o).table.get 0 w) else none

/-- A factory operation: the port takes TSTACC; with TEST_EN low nothing executes and zeros shift out (R412). -/
def State.tstacc (s : State) (f : State → Nat × Word64 × State) : State :=
  let s1 := s.tapIr 0x22
  if s1.tst.straps.testEn then
    let r := f s1
    { r.2.2 with tst := { r.2.2.tst with tapOut := r.2.1, tstStatus := r.1 } }
  else { s1 with tst := { s1.tst with tapOut := 0, tstStatus := 0 } }

/-- Operation 1: the word, corrected if correctable; a poisoned word reads a free value (R328). -/
def State.tstRead (s : State) (a : Nat) : State :=
  s.tstacc (fun x =>
    match x.tstWord a with
    | none => (2, 0, x)
    | some v =>
      let y := x.symFound a false
      if y.wordPoisoned a then (0, (y.free).1 ++ (y.free).2.free.1, (y.free).2.free.2) else (0, v, y))

/-- Two words put into a list of words. -/
def putPair (l : List Word) (w : Nat) (v : Word64) : List Word := (l.set (2 * w) (v.extractLsb' 0 32)).set (2 * w + 1) (v.extractLsb' 32 32)

/-- The contents that a factory write leaves. -/
def State.tstPut (s : State) (a : Nat) (v : Word64) : State :=
  let b := a / 2 ^ 28
  let o := a / 2 ^ 20 % 256
  let k := a / 2 ^ 16 % 16
  let w := a % 2 ^ 16
  let other : State := { s with tst := { s.tst with words := s.tst.words.filter (fun e => decide (e.1 < a)) ++ [(a, v)] ++ s.tst.words.filter (fun e => decide (a < e.1)) } }
  if k = 12 then other
  else match b with
    | 10 => if k = 0 then s.updSlot o (fun x => { x with bankA := putPair x.bankA w v }) else if k = 1 then s.updSlot o (fun x => { x with bankB := putPair x.bankB w v }) else other
    | 11 => if k = 3 then s.updInst o (fun x => { x with main := coefSet (putPair x.mainWords w v), scale := 0 })
            else if k = 4 ∧ (s.inst o).cand ≠ none then s.updInst o (fun x => { x with cand := x.cand.map (fun l => coefSet (putPair (l.flatMap (coefWords 0)) w v)) })
            else other
    | 14 => if k = 5 then s.updEng o (fun x => { x with imem := (x.imem.set 0 (2 * w) (v.extractLsb' 0 32)).set 0 (2 * w + 1) (v.extractLsb' 32 32) })
            else s.updEng o (fun x => { x with dmem := (List.range 8).foldl (fun t j => Tab.set t 0 (8 * w + j) (v.extractLsb' (8 * j) 8)) x.dmem })
    | 12 => s.updLut o (fun l => { l with entries := (List.range 4).foldl (fun t j =>
              let i := 64 * (k - 8) + 4 * w + j
              Tab.set t (lutDefault i) i (v.extractLsb' (16 * j) 16)) l.entries })
    | 4 => match s.recd.buf[w / 8]? with
           | some r => { s with recd := { s.recd with buf := s.recd.buf.set (w / 8) (recOfWords (putPair r.words (w % 8) v)) } }
           | none => s
    | _ => if 6 ≤ b ∧ b ≤ 9 then s.updTx o (fun x => { x with table := x.table.set 0 w v }) else other

/-- One word is written with fresh check bits: it is neither poisoned nor flipped (R328, R412). -/
def State.wordFresh (s : State) (a : Nat) : State :=
  { s with flt := { s.flt with poisoned := s.flt.poisoned.filter (fun x => decide (x ≠ a)), flipped := s.flt.flipped.filter (fun e => decide (e.1 ≠ a)) } }

/-- Operation 2; an address that names no word is ignored (R411). -/
def State.tstWrite (s : State) (a : Nat) (v : Word64) : State :=
  s.tstacc (fun x => if (x.tstWord a).isNone then (2, 0, x) else (0, v, (x.tstPut a v).wordFresh a))

/-- Operation 3 (R339). -/
def State.tstOph (s : State) (v : Word64) : State := s.tstacc (fun x => (0, v, x.writeOph (bitsOf v 0 48)))

/-- Operation 4: a word of the staging area. -/
def State.tstStage (s : State) (a : Nat) (v : Word64) : State :=
  s.tstacc (fun x => (0, v, { x with recd := { x.recd with staging := x.recd.staging.set 0 a v } }))

/-- Operation 5: refused unless device-scope WINTER holds (R341). -/
def State.tstRestore (s : State) : State := s.tstacc (fun x => if x.inWinter objDevice then (0, 0, x.restoreImage) else (1, 0, x))

/-- Operation 7: an ACK register (R312). -/
def State.tstAck (s : State) (a : Nat) (v : Word64) : State :=
  s.tstacc (fun x => if a % 2 ^ 28 = 0 then (0, v, x.faultAck (a / 2 ^ 28) (v.extractLsb' 0 32)) else (2, 0, x))

end Sys2Proof.Machine
end

