-- ==== Sys2Proof/Machine/RegRadio.lean ====
section
/-! DEFINITION. What the registers of the radio blocks show: SLOT, RFE, CX, GCL and PROT (the register sections of chapters 2 to 6). -/

namespace Sys2Proof.Machine

/-- A word built of fields: low bit and value. -/
def pack (l : List (Nat × Nat)) : Word := word (l.foldl (fun a e => a + e.2 * 2 ^ e.1) 0)

/-- A signed number as a 16-bit field. -/
def h16 (i : Int) : Nat := (half i).toNat

/-- One bit per member of a range. -/
def bitSet (n : Nat) (f : Nat → Bool) : Nat := (List.range n).foldl (fun a i => a + bit (f i) * 2 ^ i) 0

/-! ## SLOT (R54, R55) -/

/-- Code of a slot state (Table 2-4). -/
def SlotSt.code : SlotSt → Nat | .free => 0 | .configured => 1 | .settling => 2 | .active => 3 | .held => 4

/-- A register of slot n, by its offset. -/
def State.slotReg (s : State) (n off : Nat) : Word :=
  let x := s.slot n
  match off with
  | 0x00 => pack [(20, x.rate), (18, x.preset), (17, bit (s.slotMuted n && decide (x.st ≠ .free))), (16, bit (decide (x.st = .settling ∨ x.st = .held))),
      (12, bit (!(s.waitingSwaps n).isEmpty)), (11, bit x.fade.isSome),
      (10, bit (match x.fade with | some f => f.paused.isSome | none => false)), (9, bit x.activeB), (0, x.st.code)]
  | 0x04 => word x.bw
  | 0x08 => wordI x.rxfreq
  | 0x0C => wordI x.txfreq
  | 0x10 => pack [(31, bit x.stream), (8, if x.stream then bitsOf x.dest 8 2 else 0), (0, bitsOf x.dest 0 5)]
  | 0x14 => word x.pdly.toNat
  | 0x18 => word (s.slotLat n)
  | 0x1C => x.tagB ++ x.tagA
  | 0x20 => word x.ntaps
  | 0x24 => x.satCnt
  | 0x28 => pack [(16, x.supCnt), (0, x.shortCnt)]
  | _ => 0

/-- The sources routed to TXc: its slots and its placed receive streams (TXC_OCC). -/
def State.txSources (s : State) (c : Nat) : List Nat :=
  (s.txSlots c).map (fun n => (s.slot n).bw) ++ (s.placements c).map (fun k => (s.strm k).bw)

/-- A register of RXn and TXn in the SLOT block. -/
def State.slotChReg (s : State) (n off : Nat) : Word :=
  let d := s.dcb n
  match off with
  | 0x80 => pack [(8, d.guard_), (0, d.tcExp)]
  | 0x84 => pack [(3, bit (s.dcbIdle n)), (2, bit d.range), (1, bit (s.chain n).dcHold), (0, bit (s.dcbFrozen n))]
  | 0x88 => d.estQ ++ d.estI
  | 0x8C => word (s.txc n).pdly.toNat
  | 0x90 => pack [(16, (s.rxSlots n).length), (0, (s.rxSlots n).foldl (fun a m => a + (s.slot m).bw) 0)]
  | 0x94 => pack [(16, (s.txSources n).length), (0, (s.txSources n).foldl (fun a b => a + b) 0)]
  | 0x98 => (s.txc n).satCnt
  | _ => 0

/-- The SLOT block. -/
def State.slotBlock (s : State) (off : Nat) : Word :=
  if off = 0x2080 then 0x40480100
  else if 0x2080 ≤ off ∧ off < 0x2100 then 0
  else if off % 0x100 < 0x80 then s.slotReg (off / 0x100) (off % 0x100)
  else if off < 0x2000 then s.slotChReg (off / 0x100) (off % 0x100)
  else 0

/-! ## RFE (R96) -/

/-- Code of CH_STAT.LOCK. -/
def Lock.code : Lock → Nat | .none => 0 | .settling => 1 | .locked => 2 | .failed => 3

/-- Code of TDD_STAT.SYNC. -/
def Sync.code : Sync → Nat | .off => 0 | .acquiring => 1 | .locked => 2 | .holdover => 3

/-- CH_STAT.TARGET: the target of the walk in progress, else of the transition (R64); 0 in SLEEP, and `free` where no transition leads anywhere (log 34). -/
def Chain.targetCode (c : Chain) (free : Word) : Nat :=
  match c.walk, c.trans with
  | some (_, g), _ => g.code
  | none, some (g, _) => g.code
  | none, none => if c.st = .sleep then 0 else free.toNat % 8

/-- A register common to chains of both directions. -/
def State.chReg (s : State) (i off : Nat) : Word :=
  let c := s.chainNow i
  match off with
  | 0x00 => pack [(4, c.sched), (0, c.role)]
  | 0x04 => pack [(20, c.targetCode (Config.freeValue s.freeCnt)), (19, bit c.trans.isSome), (18, bit (!(s.heldStates i).isEmpty)), (16, c.lock.code), (15, bit c.cal.isSome),
      (14, bit (s.onNow i)), (13, bit (if i < 32 then s.lnab i else s.paEn (i - 32))), (12, bit c.quad), (11, bit c.losel), (0, c.st.code)]
  | 0x08 => word c.fw
  | 0x0C => pack [(24, c.imgDb.toNat), (16, c.resid.toNat), (8, c.unmet.toNat), (4, c.fail.toNat), (0, c.done.toNat)]
  | _ => 0

/-- A register of TXn. -/
def State.txReg (s : State) (n off : Nat) : Word :=
  let x := s.txc n
  match off with
  | 0x10 => s.cwShown (portReg 1 n 0) x.pwr
  | 0x14 => x.map
  | 0x18 => x.vswrCfg
  | 0x1C => pack [(31, bit x.rlValid), (30, bit x.searching), (28, x.level), (16, x.tuner.toNat), (0, h16 x.rl)]
  | _ => s.chReg (32 + n) off

/-- The chains that use SY(4k + y): QUAD chains of its tile and direction on its LO in SYNTH or above (R60). -/
def State.synUsers (s : State) (k y : Nat) : List Nat :=
  ((List.range 8).map (fun c => 32 * (y / 2) + 8 * k + c)).filter
    (fun i => let c := s.chainNow i; c.quad && decide (c.losel = decide (y % 2 = 1) ∧ 2 ≤ c.st.rank))

/-- Some chain of the direction of SY(4k + y) has been tuned. -/
def State.synTuned (s : State) (k y : Nat) : Bool :=
  (List.range 8).any (fun c => decide ((s.chain (32 * (y / 2) + 8 * k + c)).fw ≠ 0))

/-- A register of SY(4k + y); the frequency that a synthesiser without users keeps is not stated (log 13). -/
def State.synReg (s : State) (k y off : Nat) : Word :=
  let us := s.synUsers k y
  let lock := match us with | i :: _ => (s.chainNow i).lock | [] => Lock.none
  match off with
  | 0 => pack [(16, bitSet 8 (fun c => us.contains (32 * (y / 2) + 8 * k + c))), (8, if lock = .none then 0 else (Config.vcoBand (4 * k + y + 16 * s.now)).toNat),
      (0, lock.code)]
  | 4 => match us with
    | i :: _ => wordI (s.chainNow i).fLo
    | [] => if s.synTuned k y then Config.measured (0x81004 + 0x4000 * k + 0x10 * y) s.now else 0
  | _ => 0

/-- A register of CKk: 11.79648 GHz in 10 Hz, programmed from SPRING stage 5 on (R58). -/
def State.ckReg (s : State) (k off : Nat) : Word :=
  let on := s.rfe.ckLocked.getLsbD k
  match off with
  | 0 => if on then pack [(8, (Config.vcoBand (256 + k)).toNat), (0, 2)]
         else if s.tst.stage < 5 then 0
         else pack [(8, (Config.vcoBand (256 + k)).toNat), (0, if s.tst.stage = 5 then 1 else 3)]
  | 4 => if s.tst.stage < 5 then 0 else 1179648000
  | _ => 0

/-- A register of FECB bus b, by its offset. -/
def State.fecbReg (s : State) (b off : Nat) : Word :=
  let x := s.fecb b
  if off = 0 then pack [(24, x.div), (21, bit x.mode3), (20, bit x.mode3), (16, x.gap)]
  else if 0x10 ≤ off ∧ off < 0x20 then x.tmpl.get 0 ((off - 0x10) / 4)
  else 0

/-- A register of TSt. -/
def State.tddReg (s : State) (t off : Nat) : Word :=
  let x := s.sched t
  match off with
  | 0x00 => x.cfg | 0x04 => x.ofs | 0x08 => x.side | 0x0C => x.tim
  | 0x10 => pack [(16, x.lossCnt), (4, bit x.wrBlocked), (3, bit x.patValid), (0, x.sync.code)]
  | 0x14 => x.ssbf
  | _ => if 0x40 ≤ off ∧ off < 0xC0 then x.pat.get 0 ((off - 0x40) / 4) else 0

/-- The RFE window of tile k. -/
def State.rfeBlock (s : State) (k off : Nat) : Word :=
  if off < 0x800 then s.chReg (8 * k + off / 0x100) (off % 0x100)
  else if off < 0x1000 then s.txReg (8 * k + (off - 0x800) / 0x100) (off % 0x100)
  else if off < 0x1040 then s.synReg k ((off - 0x1000) / 0x10) (off % 0x10)
  else if off < 0x1050 then s.ckReg k (off % 0x10)
  else if 0x1200 ≤ off ∧ off < 0x1280 then s.fecbReg (2 * k + (off - 0x1200) / 0x40) (off % 0x40)
  else if k = 0 ∧ off = 0x3000 then pack [(2, bit s.rfe.refOk), (1, bit s.tst.straps.refSel), (0, bit (decide (s.rfe.ckLocked = 0xF)))]
  else if k = 0 ∧ off = 0x3004 then s.rfe.tddsw
  else if k = 0 ∧ 0x3100 ≤ off ∧ off < 0x3500 then s.tddReg ((off - 0x3100) / 0x100) (off % 0x100)
  else 0

/-! ## CX (R129, R130) -/

/-- A register of instance i. -/
def State.cxReg (s : State) (i off : Nat) : Word :=
  let x := s.inst i
  let a := x.st ≠ .unassigned
  match off with
  | 0x00 => pack [(31, bit x.join), (16, if x.st = .unassigned ∨ x.st = .joined then 0 else x.ntaps), (8, x.rx), (0, x.tx)]
  | 0x04 => pack [(31, bit (s.cxValid i)), (30, bit x.frozen), (29, bit (decide a && s.noOverlap i)), (28, bit (decide a && s.cxPaused i)),
      (27, bit (decide a && s.blkRamp i)), (26, bit x.seed.isSome), (0, x.st.code)]
  | 0x08 => pack [(16, x.peak), (15, bit x.auto), (0, x.bulk)]
  | 0x0C => word (h16 x.extRxg)
  | 0x10 => if a then wordI (s.cxDelta i) else 0
  | 0x14 => s.cwShown (portReg 3 i 0) (cword (half x.iso))
  | 0x18 => s.cwShown (portReg 3 i 1) (cword (half x.ll))
  | 0x1C => s.cwShown (portReg 3 i 2) (cword (half x.depth))
  | 0x20 => word (h16 x.dmeas)
  | 0x24 => word (h16 x.tape)
  | 0x28 => word (s.cxAge i)
  | 0x2C => x.promo
  | 0x30 => pack [(16, x.rejRes), (0, x.rejGrowth)]
  | 0x34 => pack [(16, x.blocked), (0, x.seedRej)]
  | _ => 0

/-- CX_POLICY, CX_TAPLIM and CX_SRCH. -/
def CxPolicy.reg (p : CxPolicy) (off : Nat) : Word :=
  match off with
  | 0x304 => pack [(24, p.eps), (20, p.muExp), (16, p.growthExp), (8, p.dwin), (0, p.refMin)]
  | 0x308 => pack [(16, h16 p.eMax), (0, h16 p.eFloor)]
  | 0x30C => pack [(16, p.peakTh), (8, p.srchExp), (0, p.pre)]
  | _ => 0

/-- The CX block. -/
def State.cxBlock (s : State) (off : Nat) : Word :=
  if off = 0x300 then 0x40230300
  else if 0x300 ≤ off ∧ off < 0x400 then s.cxPol.reg off
  else s.cxReg (off / 0x400) (off % 0x400)

/-! ## GCL (R166, R167) -/

/-- A register of slot n in the GCL block. -/
def State.gclReg (s : State) (n off : Nat) : Word :=
  let g := s.gain n
  let cw (v : Int) : Word := s.cwShown (0xB0000 + 0x40 * n + off) (cword (half v))
  match off with
  | 0x00 => pack [(31, bit g.agcEn), (30, bit g.agcSrc), (29, bit g.spRef), (28, bit g.interp), (24, g.lutset), (0, g.win)]
  | 0x04 => cw g.host
  | 0x08 => cw g.target
  | 0x0C => cw (s.effShown n)
  | 0x10 => cw g.cap
  | 0x14 => cw g.capl
  | 0x18 => cw g.capm
  | 0x1C => pack [(16, h16 g.spEff), (0, h16 g.spTarget)]
  | 0x20 => match g.pmeas with | some p => word (h16 p) | none => 0x8000
  | 0x24 => pack [(16, g.slewUp), (0, g.slewDn)]
  | 0x28 => pack [(16, g.margin), (0, g.marginUse)]
  | 0x2C => pack [(31, bit (s.capped n)), (30, bit g.cold), (29, bit ((s.govSet n).any (fun i => (s.inst i).implaus))), (28, bit g.stale), (27, bit g.nogov),
      (26, bit g.mcapValid), (25, bit (s.protHold n)), (24, bit (decide ((s.slot n).st ≠ .free) && s.slotMuted n)), (23, bit g.agcLimit), (22, bit g.bankB),
      (20, g.ramp), (8, g.govCx)]
  | 0x30 => pack [(16, g.supCnt), (0, g.cutCnt)]
  | _ => 0

/-- A register of the installation model of instance i. -/
def State.modelReg (s : State) (i off : Nat) : Word :=
  let x := s.inst i
  match off with
  | 0 => pack [(16, x.isoMax), (0, x.isoMin)]
  | 4 => word x.rateMax
  | 8 => pack [(31, bit x.implaus), (30, bit x.failRange), (29, bit x.failJump), (28, bit x.failRate), (8, x.good)]
  | _ => 0

/-- A status register of set i. -/
def State.lutReg (s : State) (i off : Nat) : Word :=
  let l := s.lut i
  match off with
  | 0 => pack [(31, bit (!(s.pends (isLutSwap i)).isEmpty)), (30, bit l.activeB), (29, bit (!(s.pends (isLutLoad i)).isEmpty)), (0, (s.lutUsers i).length)]
  | 4 => l.tagB ++ l.tagA
  | _ => 0

/-- The GCL block. -/
def State.gclBlock (s : State) (off : Nat) : Word :=
  if off < 0x4000 then s.gclReg (off / 0x40) (off % 0x40)
  else if off < 0x4400 then s.modelReg ((off - 0x4000) / 0x10) (off % 0x10)
  else if 0x5000 ≤ off ∧ off < 0x5100 then s.lutReg ((off - 0x5000) / 0x10) (off % 0x10)
  else if 0x6000 ≤ off ∧ off < 0x8000 then word (h16 ((s.lut ((off - 0x6000) / 0x200)).entry (decide (off % 0x200 ≥ 0x100)) (off % 0x100 / 4)))
  else if off = 0x8000 then 0x10190A32
  else 0

/-! ## PROT (R201, R202) -/

/-- Milliseconds since an instant, all ones without one. -/
def State.ageMs (s : State) (t : Option Nat) : Word := match t with | some x => word (s.msSince x) | none => 0xFFFFFFFF

/-- A register of scope object i's group. -/
def State.groupReg (s : State) (i off : Nat) : Word :=
  let o := s.wobj i
  match off with
  | 0 => s.cwShown (0xC0000 + (if i < 256 then 0x10 * i else if i < 288 then 0x1000 + 0x10 * (i - 256) else if i < 292 then 0x1200 + 0x10 * (i - 288) else 0x1240)) (s.pwCause i)
  | 4 => pack [(31, bit (decide (i < 256) && o.cause.getLsbD 14)), (29, min 3 (o.oscTimes.filter (fun t => decide (s.now - t ≤ 600 * tsec))).length),
      (28, bit o.proofOk), (0, o.cleared.toNat)]
  | 8 => s.ageMs o.age
  | 0xC => s.ageMs o.oscAge
  | _ => 0

/-- A register of TXn's nets. -/
def State.netReg (s : State) (n off : Nat) : Word :=
  let x := s.net n
  match off with
  | 0 => pack [(31, bit x.proofA), (30, bit x.proofB), (2, match x.proofAt with | some t => min 0xFFFF ((s.now - t) / tsec) | none => 0),
      (1, bit (s.netB n)), (0, bit (s.netA n))]
  | 4 => pack [(16, x.oSteps), (0, h16 x.aclr)]
  | _ => 0

/-- A register of RXn's detectors. -/
def State.detReg (s : State) (n off : Nat) : Word :=
  let x := s.rxDet n
  match off with
  | 0 => pack [(24, min 255 x.rho), (18, x.bin), (0, x.detCnt)]
  | 4 => pack [(16, match s.nriseRef n with | some r => h16 (divNearest 5 r 10) | none => 0x8000), (0, h16 x.rise)]
  | _ => 0

/-- The PROT block. -/
def State.protBlock (s : State) (off : Nat) : Word :=
  if off < 0x1000 then s.groupReg (off / 0x10) (off % 0x10)
  else if off < 0x1200 then s.groupReg (objChain ((off - 0x1000) / 0x10)) (off % 0x10)
  else if off < 0x1240 then s.groupReg (objTile ((off - 0x1200) / 0x10)) (off % 0x10)
  else if off < 0x1250 then s.groupReg objDevice (off % 0x10)
  else if 0x2000 ≤ off ∧ off < 0x2200 then s.netReg ((off - 0x2000) / 0x10) (off % 0x10)
  else if 0x3000 ≤ off ∧ off < 0x3200 then s.detReg ((off - 0x3000) / 0x10) (off % 0x10)
  else if 0x3400 ≤ off ∧ off < 0x3500 then
    let g := s.group ((off - 0x3400) / 4)
    pack [(31, bit g.lost), (0, min 0xFFFF g.lowMs)]
  else if 0x4000 ≤ off ∧ off < 0x4500 then
    (let p := (off - 0x4000) / 0x80; let j := off % 0x80 / 4; if j < paramObjs p then wordI (s.param p j) else 0)
  else if 0x5000 ≤ off ∧ off < 0x5800 then (if off % 0x20 < 0x14 then s.authWord ((off - 0x5000) / 0x20) (off % 0x20 / 4) else 0)
  else if off = 0x5800 then
    pack [(31, bit s.tst.pins.authWe), (30, bit s.prot.restoreFail), (16, ((List.range 64).filter s.authValid).length), (0, s.prot.wrCnt)]
  else 0

end Sys2Proof.Machine
end

