-- ==== Sys2Proof/Machine/RegHost.lean ====
section
/-! DEFINITION. What the other registers of BAR0, BAR2 and BAR4 show: GEN, HIF, INTC, FLT, REC, TIM, LE, JL, TST, every block's fault registers, doorbells, the recorder window and capture memory (chapters 7 to 14 and 16); and the _LO/_HI latches (R206). -/

namespace Sys2Proof.Machine

/-! ## GEN and TIM (R223, R224, R440) -/

/-- The GEN block. -/
def State.genBlock (s : State) (off : Nat) : Word :=
  let x := s.tim
  match off with
  | 0 => 0x9632
  | 4 => 0xB0
  | 8 => pack [(31, bit x.vidMode), (24, x.vidCeil), (16, x.vidFloor), (8, x.vidFixed), (0, x.vidNow)]
  | _ => if 0x10 ≤ off ∧ off < 0x24 then word (h16 (s.prot.temps.get 0 ((off - 0x10) / 4))) else 0

/-- A register of tile k in the TIM block. -/
def State.tileReg (s : State) (k off : Nat) : Word :=
  let x := s.tileT k
  match off with
  | 0 => pack [(24, x.stage), (8, x.slackAll), (0, x.slackDp)]
  | 4 => pack [(16, x.autCnt), (0, x.zbCnt)]
  | 8 => pack [(8, x.txSlip.toNat), (0, x.rxSlip.toNat)]
  | _ => 0

/-- The TIM block but for the latched half of DTIME. -/
def State.timBlock (s : State) (off : Nat) : Word :=
  let x := s.tim
  if off = 0 then s.dtime.extractLsb' 0 32
  else if off = 8 then pack [(30, x.align), (28, x.srcUsed), (24, x.tileOk.toNat), (0, x.framePh / tns)]
  else if off = 0xC then pack [(16, x.edgeCnt % 65536), (0, h16 x.ferr)]
  else if 0x100 ≤ off ∧ off < 0x140 then s.tileReg ((off - 0x100) / 0x10) (off % 0x10)
  else if 0x400 ≤ off ∧ off < 0x800 then (let y := s.slackOf ((off - 0x400) / 4); pack [(31, bit y.miss), (8, y.min), (0, y.now)])
  else 0

/-! ## HIF (R288, R289) -/

/-- Code of a ring state (Table 9-6). -/
def RingSt.code : RingSt → Nat | .disabled => 0 | .running => 1 | .stopped => 2 | .draining => 3

/-- A register of command ring n. -/
def State.ringReg (s : State) (n off : Nat) : Word :=
  let r := s.ring n
  match off with
  | 0x00 => r.crLo | 0x04 => r.crHi | 0x08 => r.cqLo | 0x0C => r.cqHi
  | 0x10 => pack [(31, bit (decide (r.st = .running ∨ r.st = .stopped))), (30, bit r.privOper), (29, bit r.privCfg), (0, r.size)]
  | 0x14 => pack [(30, r.st.code), (29, bit r.fence.isSome), (26, r.cause), (0, r.head.toNat)]
  | 0x18 => r.ctail ++ r.chead
  | _ => 0

/-- A register of telemetry ring m. -/
def State.trReg (s : State) (m off : Nat) : Word :=
  let r := s.trRing m
  match off with
  | 0x00 => r.lo | 0x04 => r.hi
  | 0x08 => pack [(31, bit r.en), (0, r.size)]
  | 0x0C => r.tail ++ r.head
  | 0x10 => r.drop
  | _ => 0

/-- A register of the event ring. -/
def OutRing.erReg (r : OutRing) (off : Nat) : Word :=
  match off with
  | 0x00 => r.lo | 0x04 => r.hi | 0x08 => r.wbLo | 0x0C => r.wbHi
  | 0x10 => pack [(31, bit r.en), (4, r.minsev), (0, r.size)]
  | 0x14 => r.tail ++ r.head
  | 0x18 => r.drop
  | _ => 0

/-- A register of a subscription. -/
def Sub.reg (x : Sub) (off : Nat) : Word :=
  match off with
  | 0 => pack [(31, bit x.active), (28, x.kind), (24, x.ring), (0, x.index)]
  | 4 => x.mask
  | 8 => x.period
  | _ => 0

/-- A class by its index in HIF_ADM. -/
def clsAt (n : Nat) : Cls := match n with | 0 => .a | 1 => .b | 2 => .c | _ => .d

/-- HIF_CAPT: armed before the trigger of TRIG 1, capturing from the trigger on (R283). -/
def State.captReg (s : State) : Word :=
  let st : Nat := match s.hif.captRun with
    | some r => if r.triggered then 2 else (match s.pend? r.id with
        | some p => (match p.desc with | .capture _ _ trig _ _ _ _ _ => if trig = 1 then 1 else 2 | _ => 2)
        | none => 2)
    | none => if s.hif.captDone then 3 else 0
  pack [(30, st), (0, s.hif.captOldest.toNat)]

/-- The HIF block. -/
def State.hifBlock (s : State) (off : Nat) : Word :=
  let h := s.hif
  if off = 0 then 0x10414040
  else if off = 4 then word (bit h.flrWinter)
  else if off = 0xC then pack [(31, bit h.mgmtForce), (24, 0x60 + s.ownId), (0, h.pecErr)]
  else if off = 0x10 then s.captReg
  else if 0x20 ≤ off ∧ off < 0x30 then
    (let k := clsAt ((off - 0x20) / 4); pack [(24, match clsLimit k with | some n => n | none => 0), (0, s.classOut k)])
  else if 0x30 ≤ off ∧ off < 0x40 then (let c := (off - 0x30) / 4; pack [(16, h.refDl.get 0 c), (0, h.refOther.get 0 c)])
  else if 0x1000 ≤ off ∧ off < 0x1400 then s.ringReg ((off - 0x1000) / 0x40) (off % 0x40)
  else if 0x2000 ≤ off ∧ off < 0x2080 then s.trReg ((off - 0x2000) / 0x20) (off % 0x20)
  else if 0x2100 ≤ off ∧ off < 0x2120 then h.er.erReg (off - 0x2100)
  else if 0x3000 ≤ off ∧ off < 0x3400 then (h.subs.get Sub.reset ((off - 0x3000) / 0x10)).reg (off % 0x10)
  else 0

/-! ## INTC (R307) -/

/-- A register of vector v. -/
def State.vecReg (s : State) (v off : Nat) : Word :=
  let x := s.vec v
  match off with
  | 0 => pack [(30, x.target), (0, x.prio.toNat)]
  | 4 => pack [(24, x.cnt), (0, x.time)]
  | 8 => pack [(24, x.evcnt), (17, bit x.seen), (16, bit x.ripe), (0, x.spur)]
  | 0xC => word x.launches
  | _ => 0

/-- SRC_RAW of a source: the level of a level source, the latch of an edge source. -/
def State.srcRaw (s : State) (n : Nat) : Bool := if levelSrc n then s.srcLevel n else s.intc.lat.getLsbD n

/-- A word of one bit per source. -/
def srcWord (w : Nat) (f : Nat → Bool) : Word := word (bitSet 32 (fun i => f (32 * w + i)))

/-- The INTC block. -/
def State.intcBlock (s : State) (off : Nat) : Word :=
  let x := s.intc
  let h := off % 8 / 4
  let w := off % 0x40 / 4
  if off = 0 then 0x02000040
  else if off = 4 then x.prigroup.setWidth 32
  else if off = 8 then pack [(31, bit s.intN), (30, bit x.wrBlocked), (16, bit s.intnRuns), (8, s.runGrp)]
  else if off = 0x10 then claimWord x.claimed
  else if 0x20 ≤ off ∧ off < 0x30 then s.vecWord h (fun v => (s.vec v).mask)
  else if 0x30 ≤ off ∧ off < 0x40 then s.vecWord h (fun v => (s.vec v).pend)
  else if 0x40 ≤ off ∧ off < 0x48 then s.vecWord h (fun v => (s.vec v).active)
  else if 0x100 ≤ off ∧ off < 0x500 then s.vecReg ((off - 0x100) / 0x10) (off % 0x10)
  else if 0x800 ≤ off ∧ off < 0x1000 then
    (let n := (off - 0x800) / 4; pack [(31, bit (levelSrc n)), (30, bit (s.srcCfg n).urgent), (0, (s.srcCfg n).vector)])
  else if 0x1000 ≤ off ∧ off < 0x1080 then srcWord w (fun n => x.en.getLsbD n)
  else if 0x1080 ≤ off ∧ off < 0x1100 then srcWord w (fun n => x.lat.getLsbD n)
  else if 0x1100 ≤ off ∧ off < 0x1140 then srcWord w s.srcRaw
  else 0

/-! ## FLT and the blocks' fault registers (R309, R332, R333) -/

/-- STATUS of block b. -/
def State.faultStatus (s : State) (b : Nat) : Nat := bitSet 16 (fun n => (s.fsrc (16 * b + n)).status)

/-- A source whose level stands above its SEV (FLT_BSTAT.ESC). -/
def State.escAt (s : State) (b n : Nat) : Bool := (s.fsrc (16 * b + n)).status && decide (s.sev b n < (s.fsrc (16 * b + n)).level)

/-- FLT_EFF of block b. -/
def State.effWord (s : State) (b : Nat) : Word :=
  word ((List.range 16).foldl (fun a n => a + (if (s.fsrc (16 * b + n)).status then (s.fsrc (16 * b + n)).level else s.sev b n) * 4 ^ n) 0)

/-- FLT_BSTAT of block b. -/
def State.bstatWord (s : State) (b : Nat) : Word :=
  pack [(16, bitSet 16 (fun n => (s.fsrc (16 * b + n)).grace.isSome)), (0, bitSet 16 (s.escAt b))]

/-- The FLT block. -/
def State.fltBlock (s : State) (off : Nat) : Word :=
  let x := s.flt
  if 0x100 ≤ off ∧ off < 0x200 then
    (if off % 0x10 = 0 then s.effWord ((off - 0x100) / 0x10) else if off % 0x10 = 4 then s.bstatWord ((off - 0x100) / 0x10) else 0)
  else match off with
    | 0x00 => x.policy
    | 0x04 => pack [(16, bitSet 16 (fun b => (List.range 16).any (s.escAt b))), (0, bitSet 16 (fun b => decide (s.faultStatus b ≠ 0)))]
    | 0x08 => pack [(31, bit x.toggling), (30, bit x.stall), (26, x.hbMiss.toNat), (0, x.stops)]
    | 0x0C => pack [(16, x.wrrej), (0, x.regfault)]
    | 0x10 => x.passes ++ x.passMs
    | 0x14 => x.corr
    | 0x18 => x.unc
    | _ => 0

/-- The registers that each block's STATUS, SEV, ACK and GRACE stand for. -/
inductive FltReg where
  | status (b : Nat)
  | sev (b : Nat) (hi : Bool)
  | ack (b : Nat)
  | grace (b : Nat)
deriving DecidableEq, Repr

/-- The fault register at a BAR0 offset (Table 16-1). -/
def fltRegAt (off : Nat) : Option FltReg :=
  (List.range 16).findSome? (fun b =>
    let a := fltBase b
    if off = a then some (.status b)
    else if off = a + 4 then some (.sev b false)
    else if b = 13 then (if off = a + 8 then some (.sev b true) else if off = a + 0xC then some (.ack b) else if off = a + 0x10 then some (.grace b) else none)
    else if off = a + 8 then some (.ack b) else if off = a + 0xC then some (.grace b) else none)

/-- What a fault register shows. -/
def State.fltRegShow (s : State) : FltReg → Word
  | .status b => word (s.faultStatus b)
  | .sev b hi => s.sevReg b hi
  | .ack _ => 0
  | .grace b => word (s.graceMs b)

/-! ## REC (R357, R358) -/

/-- The REC block but for the latched halves. -/
def State.recBlock (s : State) (off : Nat) : Word :=
  let x := s.recd
  if 0x4000 ≤ off ∧ off < 0x8000 then (let b := s.bucket ((off - 0x4000) / 4); pack [(16, b.rate), (0, b.burst)])
  else if 0x8000 ≤ off ∧ off < 0xC000 then (let b := s.bucket ((off - 0x8000) / 4); pack [(16, b.supp), (0, b.drop)])
  else match off with
    | 0x00 => 0x00110400
    | 0x08 => x.curLo
    | 0x0C => x.curHi.setWidth 32
    | 0x10 => word x.nextSeq
    | 0x18 => word x.store.oldest
    | 0x20 => word x.store.newest
    | 0x28 => word s.oph
    | 0x30 => if x.mounted then x.store.pcc else 0
    | 0x34 => pack [(31, bit x.flush.isSome), (30, bit x.intakeClosed), (16, x.tombs.length), (0, x.buf.length)]
    | 0x38 => pack [(16, x.dropHi), (0, x.dropLo)]
    | 0x3C => pack [(31, bit x.mounted), (16, min 1024 x.store.spares.length), (0, x.lastFlush)]
    | _ => 0

/-! ## LE (R252, R253) -/

/-- Code of a task state (Table 8-7). -/
def TaskSt.code : TaskSt → Nat | .stopped => 0 | .waiting => 1 | .ready => 2 | .running => 3 | .trapped => 4

/-- Some tile is at AUTUMN stage 3: the open engines are throttled (R215). -/
def State.throttled (s : State) (e : Nat) : Bool := decide (64 ≤ e) && (List.range 4).any (fun k => decide ((s.tileT k).stage = 3))

/-- A register of engine e. -/
def State.engReg (s : State) (e off : Nat) : Word :=
  let x := s.eng e
  match off with
  | 0 => pack [(30, if e < 4 then 0 else if e < 64 then 1 else 2), (29, bit x.loaded), (28, bit (s.throttled e)), (27, bit x.vsat),
      (8, bitSet 8 (fun t => decide ((s.task (taskKey e t)).st = .trapped))), (0, bitSet 8 (fun t => decide ((s.task (taskKey e t)).st ≠ .stopped)))]
  | 4 => x.imgId
  | 8 => (let u := fracSum (s.taskLoads e)
          let busy := bitsOf (Config.measured (0xD0008 + 0x100 * e) s.now) 0 10
          pack [(16, ceilDiv (1000 * u.1) u.2 % 1024), (0, if s.startedTasks e = [] then 0 else min 1000 busy)])
  | _ => 0

/-- A register of task t of engine e. -/
def State.taskReg (s : State) (e t off : Nat) : Word :=
  let x := s.task (taskKey e t)
  match off with
  | 0 => pack [(31, bit x.prot), (28, x.entry), (26, x.sev), (0, x.period)]
  | 4 => word x.phase
  | 8 => pack [(29, x.st.code), (28, bit x.overrun), (26, x.consec), (20, x.trap), (0, x.maxrun)]
  | 0xC => pack [(16, x.ovrCnt), (0, x.runs % 65536)]
  | _ => 0

/-- The LE block. -/
def State.leBlock (s : State) (off : Nat) : Word :=
  if off < 0x8000 then
    (if off % 0x100 < 0x10 then s.engReg (off / 0x100) (off % 0x100)
     else if 0x20 ≤ off % 0x100 ∧ off % 0x100 < 0xA0 then s.taskReg (off / 0x100) ((off % 0x100 - 0x20) / 0x10) (off % 0x10)
     else 0)
  else if off = 0x8000 then 0x80100123
  else if off = 0x8004 then pack [(31, bit s.le.libRunning), (30, bit s.le.libLoaded)]
  else 0

/-! ## JL (R395, R396) -/

/-- Code of JL_DOMAIN.TIME. -/
def JTime.code : JTime → Nat | .none => 0 | .locking => 1 | .locked => 2 | .holdover => 3

/-- Code of a port state. -/
def PortSt.code : PortSt → Nat | .down => 0 | .training => 1 | .up => 2

/-- Code of a stream state (Table 13-8). -/
def StrSt.code : StrSt → Nat | .closed => 0 | .listen => 1 | .pending => 2 | .active => 3 | .unmatched => 4

/-- A register of port p. -/
def State.portReg_ (s : State) (p off : Nat) : Word :=
  let x := s.port p
  match off with
  | 0x00 => pack [(3, bit x.jl2En), (0, x.cfgRole)]
  | 0x04 => pack [(29, x.st.code), (28, bit x.jl2), (24, x.pver), (20, x.pid), (18, x.pport), (17, bit x.pmaster), (12, x.downCause)]
  | 0x08 => word (min 0xFFFF x.dPs)
  | 0x0C => pack [(16, s.strUnits p false), (0, s.strUnits p true)]
  | 0x10 => pack [(16, x.retryCnt), (0, x.blkErr)]
  | 0x14 => pack [(16, x.upCnt), (0, x.disc)]
  | _ => 0

/-- A register of a stream, by its index. -/
def State.strReg (s : State) (k off : Nat) : Word :=
  let x := s.strm k
  match off with
  | 0 => pack [(29, x.st.code), (20, x.rate), (16, x.col), (8, x.phase), (5, bit x.gated), (0, if (k / 12) % 2 = 1 then x.txch else 0)]
  | 4 => pack [(16, x.sat), (0, x.err)]
  | _ => 0

/-- The JL block. -/
def State.jlBlock (s : State) (off : Nat) : Word :=
  let x := s.jl
  if off = 0 then 0x040C0201
  else if off = 4 then
    pack [(31, bit s.isMaster), (24, s.ownId), (22, x.time.code), (19, x.depth), (18, bit x.caphold), (16, s.upPort.getD 0), (0, x.members)]
  else if off = 8 then word x.timeout
  else if off = 0xC then pack [(16, x.cseq), (0, match x.holdAt with | some t => min 0xFFFF (s.msSince t) | none => 0)]
  else if 0x100 ≤ off ∧ off < 0x200 then s.portReg_ ((off - 0x100) / 0x40) (off % 0x40)
  else if 0x400 ≤ off ∧ off < 0x800 then
    (let d := off % 0x100 / 0x80; let n := off % 0x80 / 8; if n < 12 then s.strReg (strIdx ((off - 0x400) / 0x100) (decide (d = 1)) n) (off % 8) else 0)
  else if 0x800 ≤ off ∧ off < 0x900 then word (s.agrp (32 * ((off - 0x800) / 0x80) + off % 0x80 / 4))
  else 0

/-! ## TST (R413) -/

/-- The TST block. -/
def State.tstBlock (s : State) (off : Nat) : Word :=
  let x := s.tst
  match off with
  | 0x00 => pack [(29, x.stage), (28, bit x.stopped), (24, x.proofFail.toNat), (23, bit x.frameInt), (0, x.readyMs % 65536)]
  | 0x04 => pack [(31, bit x.straps.testEn), (30, bit x.straps.devEn), (29, bit x.straps.casMaster), (28, bit x.straps.refSel), (24, s.ownId), (0, bit x.changed)]
  | 0x08 => pack [(16, min 0xFFFF x.bistCnt), (0, min 0xFFFF x.bistMs)]
  | 0x0C => x.bistAddr
  | _ => if 0x10 ≤ off ∧ off < 0x30 then x.tmux.get 0 ((off - 0x10) / 4) else 0

/-! ## BAR0 as a whole (R9, R206, R439, Table 16-1) -/

/-- The _LO/_HI pairs that R206 latches: the offset of the _LO register and the whole value. -/
def State.loPair (s : State) (off : Nat) : Option Nat :=
  if off = 0x50000 then some s.dtime.toNat
  else if off = 0x40010 then some s.recd.nextSeq
  else if off = 0x40018 then some s.recd.store.oldest
  else if off = 0x40020 then some s.recd.store.newest
  else if off = 0x40028 then some s.oph
  else none

/-- The key of a port. -/
def portKey : RdPort → Nat | .hp => 0 | .mp => 1 | .tp => 2

/-- The offset of a _HI register shows the reading port's latch (R206). -/
def hiOffset (off : Nat) : Bool := [0x50004, 0x40014, 0x4001C, 0x40024, 0x4002C].contains off

/-- A port's latch of the _HI half of a pair. -/
def State.latchOf (s : State) (port : RdPort) (off : Nat) : Word := s.hif.hiLatch.get 0 (2 ^ 20 * portKey port + off)

/-- What the BAR0 register at an offset shows to a port. -/
def State.regShow (s : State) (port : RdPort) (off : Nat) : Word :=
  if off % 4 ≠ 0 then 0
  else if hiOffset off then s.latchOf port off
  else match fltRegAt off with
    | some r => s.fltRegShow r
    | none =>
      match off / 0x10000 with
      | 0 => s.genBlock off
      | 1 => s.hifBlock (off - 0x10000)
      | 2 => s.intcBlock (off - 0x20000)
      | 3 => s.fltBlock (off - 0x30000)
      | 4 => s.recBlock (off - 0x40000)
      | 5 => s.timBlock (off - 0x50000)
      | 8 => s.rfeBlock ((off - 0x80000) / 0x4000) (off % 0x4000)
      | 9 => s.slotBlock (off - 0x90000)
      | 10 => s.cxBlock (off - 0xA0000)
      | 11 => s.gclBlock (off - 0xB0000)
      | 12 => s.protBlock (off - 0xC0000)
      | 13 => s.leBlock (off - 0xD0000)
      | 14 => s.jlBlock (off - 0xE0000)
      | 15 => s.tstBlock (off - 0xF0000)
      | _ => 0

/-- A read of BAR0: its value, and the latch that a _LO read sets in the port's own copy (R206). -/
def State.readReg (s : State) (port : RdPort) (off : Nat) : Word × State :=
  (s.regShow port off,
   match s.loPair off with
   | some v => { s with hif := { s.hif with hiLatch := s.hif.hiLatch.set 0 (2 ^ 20 * portKey port + off + 4) (word (v / 2 ^ 32)) } }
   | none => s)

/-- A read whose value the port holds. -/
def State.portRead (s : State) (port : RdPort) (off : Nat) : State :=
  let r := s.readReg port off
  { r.2 with hif := { r.2.hif with rdData := r.2.hif.rdData.set 0 (portKey port) r.1 } }

/-! ## BAR2 and BAR4 (Tables 9-3, 9-4) -/

/-- BAR2: the doorbells' last valid values, the MSI-X table and its pending bit array. -/
def State.bar2 (s : State) (off : Nat) : Word :=
  if off % 4 ≠ 0 then 0
  else if off < 0x1000 then
    (if off % 0x100 = 0 then (s.ring (off / 0x100)).tail.setWidth 32 else if off % 0x100 = 4 then (s.ring (off / 0x100)).chead.setWidth 32 else 0)
  else if off < 0x1400 then (if off % 0x100 = 0 then (s.trRing ((off - 0x1000) / 0x100)).head.setWidth 32 else 0)
  else if off = 0x1400 then s.hif.er.head.setWidth 32
  else if 0x8000 ≤ off ∧ off < 0x8400 then s.msixWord ((off - 0x8000) / 4)
  else if 0x9000 ≤ off ∧ off < 0x9008 then s.vecWord ((off - 0x9000) / 4) s.msixPba
  else 0

/-- BAR4: the recorder window at CURSOR and capture memory. -/
def State.bar4 (s : State) (off : Nat) : Word :=
  if off % 4 ≠ 0 then 0
  else if off < 0x1000 then (s.windowEntry s.recd.cursor (off / 64)).getD (off % 64 / 4) 0
  else if 0x400000 ≤ off ∧ off < 0x1000000 then s.captWord ((off - 0x400000) / 4)
  else 0

end Sys2Proof.Machine
end

