-- ==== Sys2Proof/Machine/RegAccess.lean ====
section
/-! DEFINITION. Accesses: writes of every register space (R7-R10, R54, R77, R96, R129, R166, R201, R223, R252, R288, R307, R332, R357, R395, R413, R440), read-clear, the management port (R286, R287), TSTACC register reads (R412) and telemetry snapshots (R279-R281). -/

namespace Sys2Proof.Machine

/-! ## Writable registers without an effect of their own -/

/-- DCB_CFG: a TC_EXP outside 10-24 leaves that field unchanged. -/
def State.dcbCfgWrite (s : State) (n : Nat) (v : Word) : State :=
  s.updDcb n (fun d => { d with guard_ := bitsOf v 8 5, tcExp := if 10 ≤ bitsOf v 0 5 ∧ bitsOf v 0 5 ≤ 24 then bitsOf v 0 5 else d.tcExp })

/-- TX_MAP: only while the chain is in SLEEP or STANDBY; a refused write marks the schedule the chain follows (R77, R96). -/
def State.txMapWrite (s : State) (n : Nat) (v : Word) : State :=
  let t := (s.chain (32 + n)).sched
  if s.chainLow (32 + n) then s.updTx n (fun x => { x with map := v &&& 0xFF07800F })
  else if 1 ≤ t ∧ t ≤ 4 then s.wrBlock (t - 1) else s

/-- VSWR_CFG: WINTER_TH < STEP_TH < ALERT_TH, WINTER_TH at least 35, ALERT_TH at most 200, or nothing changes. -/
def State.vswrCfgWrite (s : State) (n : Nat) (v : Word) : State :=
  let a := bitsOf v 16 8
  let b := bitsOf v 8 8
  let c := bitsOf v 0 8
  if 35 ≤ c ∧ c < b ∧ b < a ∧ a ≤ 200 then s.updTx n (fun x => { x with vswrCfg := v }) else s

/-- FECB_CFG, in force from the next frame. -/
def State.fecbCfgWrite (s : State) (b : Nat) (v : Word) : State :=
  s.updFecb b (fun x => { x with
    div := bitsOf v 24 5, mode3 := if v.getLsbD 21 = v.getLsbD 20 then v.getLsbD 20 else x.mode3, gap := if bitsOf v 16 4 = 0 then x.gap else bitsOf v 16 4 })

/-- FECB_TMPL of a chip select; a LEN of 3 is ignored. -/
def State.fecbTmplWrite (s : State) (b cs : Nat) (v : Word) : State :=
  if bitsOf v 16 2 = 3 then s else s.updFecb b (fun x => { x with tmpl := x.tmpl.set 0 cs (v &&& 0x3FFFF) })

/-- The instances that adapt or search keep the policy they run under until their next cycle, window or search (R129). -/
def State.cxPolKeep (s : State) : State :=
  { s with cx := s.cx.foldl (fun t e => Tab.set t Inst.reset e.1
      (if e.2.st = .acquire ∨ e.2.st = .track ∨ e.2.st = .search then { e.2 with cycPol := some (e.2.cycPol.getD s.cxPol), winPol := some (e.2.winPol.getD s.cxPol) } else e.2)) s.cx }

/-- CX_POLICY, CX_TAPLIM and CX_SRCH (R129). -/
def CxPolicy.write (p : CxPolicy) (off : Nat) (v : Word) : CxPolicy :=
  match off with
  | 0x304 =>
    let mu := bitsOf v 20 4
    let gr := bitsOf v 16 4
    let dw := bitsOf v 8 8
    let rf := bitsOf v 0 8
    { p with eps := bitsOf v 24 8, muExp := if 1 ≤ mu ∧ mu ≤ 12 then mu else p.muExp, growthExp := if gr ≤ 10 then gr else p.growthExp,
             dwin := if dw = 0 then p.dwin else dw, refMin := if 20 ≤ rf ∧ rf ≤ 80 then rf else p.refMin }
  | 0x308 => if (lowHalf v).toInt < (highHalf v).toInt then { p with eMax := (highHalf v).toInt, eFloor := (lowHalf v).toInt } else p
  | 0x30C =>
    let pk := bitsOf v 16 8
    let sx := bitsOf v 8 5
    { p with peakTh := if 6 ≤ pk ∧ pk ≤ 30 then pk else p.peakTh, srchExp := if 18 ≤ sx ∧ sx ≤ 24 then sx else p.srchExp, pre := bitsOf v 0 6 }
  | _ => p

/-- A write of a CX policy register. -/
def State.cxPolWrite (s : State) (off : Nat) (v : Word) : State := { s.cxPolKeep with cxPol := s.cxPol.write off v }

/-- REC_LIMIT of a code: a BURST of 0 leaves that field unchanged (R342). -/
def State.recLimitWrite (s : State) (c : Nat) (v : Word) : State :=
  s.updBucket c (fun b =>
    let y := b.sync s.now
    let n := if bitsOf v 0 8 = 0 then y.burst else bitsOf v 0 8
    { y with rate := bitsOf v 16 16, burst := n, fill := min y.fill (n * tokenUnit) })

/-- JL_TIMEOUT: a value below 32 leaves it unchanged. -/
def State.jlTimeoutWrite (s : State) (v : Word) : State :=
  if bitsOf v 0 16 < 32 then s else { s with jl := { s.jl with timeout := bitsOf v 0 16 } }

/-! ## Writes of BAR0 by block -/

/-- A write of a fault register; STATUS takes none (R312, R315, R317). -/
def State.fltRegWrite (s : State) (r : FltReg) (v : Word) : State :=
  match r with
  | .status _ => s
  | .sev b hi => s.sevWrite b hi v
  | .ack b => s.faultAck b v
  | .grace b => s.graceWrite b v

/-- A write in the HIF block (R288). -/
def State.hifWrite (s : State) (off : Nat) (v : Word) : State :=
  if off = 4 then { s with hif := { s.hif with flrWinter := v.getLsbD 0 } }
  else if 0x1000 ≤ off ∧ off < 0x1400 then
    (let n := (off - 0x1000) / 0x40
     let r := off % 0x40
     if r < 0x10 then s.crBaseWrite n (r / 4) v else if r = 0x10 then s.crCfgWrite n v else if r = 0x1C then s.crRestart n v else s)
  else if 0x2000 ≤ off ∧ off < 0x2080 then
    (let m := (off - 0x2000) / 0x20
     let r := off % 0x20
     if r < 8 then s.updTr m (fun x => x.base (r / 4) v) else if r = 8 then s.trCfgWrite m v else s)
  else if 0x2100 ≤ off ∧ off < 0x2110 then { s with hif := { s.hif with er := s.hif.er.base ((off - 0x2100) / 4) v } }
  else if off = 0x2110 then s.erCfgWrite v
  else s

/-- A write in the INTC block (R307). -/
def State.intcWrite (s : State) (off : Nat) (v : Word) : State :=
  let h := off % 8 / 4
  let w := off % 0x40 / 4
  if off = 4 then s.prigroupWrite v
  else if off = 0x14 then s.intcEoi v
  else if 0x20 ≤ off ∧ off < 0x28 then s.vecMask h v true
  else if 0x28 ≤ off ∧ off < 0x30 then s.vecMask h v false
  else if 0x30 ≤ off ∧ off < 0x38 then s.vecPendSet h v
  else if 0x38 ≤ off ∧ off < 0x40 then s.vecPendClr h v
  else if 0x100 ≤ off ∧ off < 0x500 then
    (let n := (off - 0x100) / 0x10; if off % 0x10 = 0 then s.vecCfgWrite n v else if off % 0x10 = 4 then s.vecCoalWrite n v else s)
  else if 0x800 ≤ off ∧ off < 0x1000 then s.srcCfgWrite ((off - 0x800) / 4) v
  else if 0x1000 ≤ off ∧ off < 0x1040 then s.srcEnSet w v
  else if 0x1040 ≤ off ∧ off < 0x1080 then s.srcEnClr w v
  else if 0x1080 ≤ off ∧ off < 0x10C0 then s.srcLatSet w v
  else if 0x10C0 ≤ off ∧ off < 0x1100 then s.srcLatClr w v
  else s

/-- A write in the REC block (R357). -/
def State.recWrite (s : State) (off : Nat) (v : Word) : State :=
  if off = 8 then { s with recd := { s.recd with curLo := v } }
  else if off = 0xC then s.recCursorHi v
  else if 0x4000 ≤ off ∧ off < 0x8000 then s.recLimitWrite ((off - 0x4000) / 4) v
  else s

/-- A write in the RFE window of tile k (R96). -/
def State.rfeWrite (s : State) (k off : Nat) (v : Word) : State :=
  if off < 0x1000 then
    (let i := 32 * (off / 0x800) + 8 * k + off % 0x800 / 0x100
     let r := off % 0x100
     if r = 0 then s.chCfgWrite i v
     else if off < 0x800 then s
     else if r = 0x14 then s.txMapWrite (i - 32) v
     else if r = 0x18 then s.vswrCfgWrite (i - 32) v
     else s)
  else if 0x1200 ≤ off ∧ off < 0x1280 then
    (let b := 2 * k + (off - 0x1200) / 0x40
     let r := off % 0x40
     if r = 0 then s.fecbCfgWrite b v else if 0x10 ≤ r ∧ r < 0x20 then s.fecbTmplWrite b ((r - 0x10) / 4) v else s)
  else if k = 0 ∧ off = 0x3004 then s.tddswWrite v
  else if k = 0 ∧ 0x3100 ≤ off ∧ off < 0x3500 then s.tddRegWrite ((off - 0x3100) / 0x100) (off % 0x100) v
  else s

/-- A write in the JL block (R395). -/
def State.jlWrite (s : State) (off : Nat) (v : Word) : State :=
  if off = 8 then s.jlTimeoutWrite v
  else if 0x100 ≤ off ∧ off < 0x200 ∧ off % 0x40 = 0 then s.portCfgWrite ((off - 0x100) / 0x40) v
  else if 0x800 ≤ off ∧ off < 0x900 then s.agrpWrite (32 * ((off - 0x800) / 0x80) + off % 0x80 / 4) v
  else s

/-- A write of BAR0 at an aligned offset. -/
def State.bar0Write (s : State) (off : Nat) (v : Word) : State :=
  match fltRegAt off with
  | some r => s.fltRegWrite r v
  | none =>
    match off / 0x10000 with
    | 0 => if off = 8 then s.genVidWrite v else s
    | 1 => s.hifWrite (off - 0x10000) v
    | 2 => s.intcWrite (off - 0x20000) v
    | 3 => if off = 0x30000 then s.policyWrite v else s
    | 4 => s.recWrite (off - 0x40000) v
    | 5 => if off = 0x50010 then s.timSlackClr v else s
    | 8 => s.rfeWrite ((off - 0x80000) / 0x4000) (off % 0x4000) v
    | 9 => if off < 0x92000 ∧ off % 0x100 = 0x80 then s.dcbCfgWrite ((off - 0x90000) / 0x100) v else s
    | 10 => if 0xA0304 ≤ off ∧ off < 0xA0310 then s.cxPolWrite (off - 0xA0000) v else s
    | 14 => s.jlWrite (off - 0xE0000) v
    | 15 => if 0xF0010 ≤ off ∧ off < 0xF0030 then s.tmuxWrite ((off - 0xF0010) / 4) v else s
    | _ => s

/-- A write of BAR2: doorbells and the MSI-X table (Table 9-3). -/
def State.bar2Write (s : State) (off : Nat) (v : Word) : State :=
  if off < 0x1000 then (if off % 0x100 = 0 then s.crTail (off / 0x100) v else if off % 0x100 = 4 then s.cqHead (off / 0x100) v else s)
  else if off < 0x1400 then (if off % 0x100 = 0 then s.trHead ((off - 0x1000) / 0x100) v else s)
  else if off = 0x1400 then s.erHead v
  else if 0x8000 ≤ off ∧ off < 0x8400 then
    (let i := (off - 0x8000) / 4; { s with hif := { s.hif with msix := s.hif.msix.set (msixDefault i) i v } })
  else s

/-- REGISTER_WRITE (R7): an unaligned offset is no register (R6). -/
def State.regWrite (s : State) (sp : RegSpace) (off : Nat) (v : Word) : State :=
  match sp with
  | .bar0 => if off % 4 = 0 then s.bar0Write off v else s.unsupported
  | .bar2 => if off % 4 = 0 then s.bar2Write off v else s.unsupported
  | .bar4 => s
  | .pciCommand => if v.getLsbD 2 then s.busMasterOn else s.busMasterOff
  | .msixControl => { s with hif := { s.hif with msixEn := v.getLsbD 15, msixMask := v.getLsbD 14 } }

/-! ## Read-clear (R7) -/

/-- The RC fields of the register at an offset are cleared. -/
def State.rcClear (s : State) (off : Nat) : State :=
  let b := off / 0x10000
  let o := off % 0x10000
  if b = 1 then
    (if o = 0xC then { s with hif := { s.hif with pecErr := 0 } }
     else if 0x30 ≤ o ∧ o < 0x40 then { s with hif := { s.hif with refDl := s.hif.refDl.set 0 ((o - 0x30) / 4) 0, refOther := s.hif.refOther.set 0 ((o - 0x30) / 4) 0 } }
     else if 0x2000 ≤ o ∧ o < 0x2080 ∧ o % 0x20 = 0x10 then s.updTr ((o - 0x2000) / 0x20) (fun r => { r with drop := 0 })
     else if o = 0x2118 then { s with hif := { s.hif with er := { s.hif.er with drop := 0 } } }
     else s)
  else if b = 2 then
    (if o = 8 then { s with intc := { s.intc with wrBlocked := false } }
     else if 0x100 ≤ o ∧ o < 0x500 ∧ o % 0x10 = 8 then s.updVec ((o - 0x100) / 0x10) (fun x => { x with spur := 0 })
     else if 0x100 ≤ o ∧ o < 0x500 ∧ o % 0x10 = 0xC then s.updVec ((o - 0x100) / 0x10) (fun x => { x with launches := 0 })
     else s)
  else if b = 3 then
    (match o with
     | 0x08 => { s with flt := { s.flt with stops := 0 } }
     | 0x0C => { s with flt := { s.flt with wrrej := 0, regfault := 0 } }
     | 0x14 => { s with flt := { s.flt with corr := 0 } }
     | 0x18 => { s with flt := { s.flt with unc := 0 } }
     | _ => s)
  else if b = 4 then (if o = 0x38 then { s with recd := { s.recd with dropHi := 0, dropLo := 0 } } else s)
  else if b = 5 then (if 0x100 ≤ o ∧ o < 0x140 ∧ o % 0x10 = 4 then s.updTile ((o - 0x100) / 0x10) (fun x => { x with autCnt := 0, zbCnt := 0 }) else s)
  else if b = 8 then
    (if 0x3100 ≤ o ∧ o < 0x3500 ∧ o % 0x100 = 0x10 then s.updSched ((o - 0x3100) / 0x100) (fun x => { x with lossCnt := 0, wrBlocked := false }) else s)
  else if b = 9 then
    (if o < 0x2000 ∧ o % 0x100 = 0x98 then s.updTx (o / 0x100) (fun x => { x with satCnt := 0 })
     else if o % 0x100 = 0x24 then s.updSlot (o / 0x100) (fun x => { x with satCnt := 0 })
     else if o % 0x100 = 0x28 then s.updSlot (o / 0x100) (fun x => { x with supCnt := 0, shortCnt := 0 })
     else s)
  else if b = 10 then
    (match o % 0x400 with
     | 0x2C => s.updInst (o / 0x400) (fun x => { x with promo := 0 })
     | 0x30 => s.updInst (o / 0x400) (fun x => { x with rejRes := 0, rejGrowth := 0 })
     | 0x34 => s.updInst (o / 0x400) (fun x => { x with blocked := 0, seedRej := 0 })
     | _ => s)
  else if b = 11 then (if o < 0x4000 ∧ o % 0x40 = 0x30 then s.updGain (o / 0x40) (fun g => { g with supCnt := 0, cutCnt := 0 }) else s)
  else if b = 12 then (if 0x3000 ≤ o ∧ o < 0x3200 ∧ o % 0x10 = 0 then s.updRxDet ((o - 0x3000) / 0x10) (fun x => { x with detCnt := 0 }) else s)
  else if b = 13 then
    (if o < 0x8000 ∧ 0x20 ≤ o % 0x100 ∧ o % 0x100 < 0xA0 ∧ o % 0x10 = 0xC then
       s.updTask (taskKey (o / 0x100) ((o % 0x100 - 0x20) / 0x10)) (fun x => { x with ovrCnt := 0 }) else s)
  else if b = 14 then
    (if 0x100 ≤ o ∧ o < 0x200 ∧ o % 0x40 = 0x10 then s.updPort ((o - 0x100) / 0x40) (fun x => { x with retryCnt := 0, blkErr := 0 })
     else if 0x100 ≤ o ∧ o < 0x200 ∧ o % 0x40 = 0x14 then s.updPort ((o - 0x100) / 0x40) (fun x => { x with upCnt := 0, disc := 0 })
     else if 0x400 ≤ o ∧ o < 0x800 ∧ o % 8 = 4 ∧ o % 0x80 < 0x60 then
       s.updStrm (strIdx ((o - 0x400) / 0x100) (decide (o % 0x100 ≥ 0x80)) (o % 0x80 / 8)) (fun x => { x with sat := 0, err := 0 })
     else s)
  else s

/-- READ_CLEAR: HP reads a BAR0 register, and its RC fields clear (R7); the reads with an effect of their own have it. -/
def State.readClear (s : State) (off : Nat) : State :=
  if off = 0x20010 then s.intcClaim
  else if off % 4 = 0 then (s.portRead .hp off).rcClear off
  else s.unsupported

/-! ## The management port (R286, R287, Table 9-17) -/

/-- One byte of the PEC: CRC-8 with polynomial x^8 + x^2 + x + 1. -/
def pecByte (c : Nat) (b : Byte) : Nat :=
  (List.range 8).foldl (fun a _ => if 128 ≤ a then ((2 * a) % 256) ^^^ 7 else 2 * a) (c ^^^ b.toNat)

/-- PEC over the bytes of a frame. -/
def pecOf (bs : List Byte) : Byte := BitVec.ofNat 8 (bs.foldl pecByte 0)

/-- The response that a read frame returns. -/
def State.mpAnswer (s : State) (st : MpStatus) (data : List Byte) : State := { s with hif := { s.hif with mpStatus := st, mpData := data } }

/-- A write frame: nothing answers before the end of SPRING stage 3; a wrong PEC executes nothing (R286). -/
def State.mpFrame (s : State) (cmd : Byte) (args : List Byte) (pec : Byte) (f : State → State) : State :=
  if !s.tst.mpAnswers || s.tst.inReset then s
  else if pecOf (BitVec.ofNat 8 (2 * (0x60 + s.ownId)) :: cmd :: args) ≠ pec then
    (({ s with hif := { s.hif with pecErr := satInc 0xFFFF s.hif.pecErr } }).raise 1 7 .device).mpAnswer .badPec []
  else f s

/-- READ32: one BAR0 register through MP's latch, RC fields kept. -/
def State.mpRead32 (s : State) (off : BitVec 24) (pec : Byte) : State :=
  s.mpFrame 1 (leBytes 3 off.toNat) pec (fun x =>
    if off.toNat % 4 ≠ 0 ∨ 2 ^ 20 ≤ off.toNat then x.mpAnswer .refused []
    else
      let y := x.portRead .mp off.toNat
      y.mpAnswer .ok (leBytes 4 (y.hif.rdData.get 0 1).toNat))

/-- REC_CURSOR: MP's own cursor. -/
def State.mpRecCursor (s : State) (seq : BitVec 48) (pec : Byte) : State :=
  s.mpFrame 0x10 (leBytes 6 seq.toNat) pec (fun x => ({ x with hif := { x.hif with mpCursor := seq.toNat } }).mpAnswer .ok [])

/-- REC_READ: 32 bytes of the window at MP's cursor (R353). -/
def State.mpRecRead (s : State) (off : Half) (pec : Byte) : State :=
  s.mpFrame 0x11 (leBytes 2 off.toNat) pec (fun x =>
    if off.toNat % 32 ≠ 0 ∨ 4064 < off.toNat then x.mpAnswer .refused []
    else x.mpAnswer .ok ((((x.windowEntry x.hif.mpCursor (off.toNat / 64)).drop (off.toNat % 64 / 4)).take 8).flatMap (fun w => leBytes 4 w.toNat)))

/-- FORCE_WINTER: the MGMT cause in device scope at the frame's STOP; another key is refused (R287). -/
def State.mpForce (s : State) (key pec : Byte) : State :=
  s.mpFrame 0x40 [key] pec (fun x =>
    if key ≠ 0xA5 then x.mpAnswer .refused []
    else ((({ x with hif := { x.hif with mgmtForce := true } }).winterSet objDevice 10 0).irqEdge 21).mpAnswer .ok [])

/-- FORCE_WITHDRAW: the MGMT cause is marked cleared (R287). -/
def State.mpWithdraw (s : State) (key pec : Byte) : State :=
  s.mpFrame 0x41 [key] pec (fun x =>
    if key ≠ 0x5A then x.mpAnswer .refused []
    else ((({ x with hif := { x.hif with mgmtForce := false } }).clearCause objDevice 10).irqEdge 21).mpAnswer .ok [])

/-- IDENT: GEN_ID, stepping, CAS_ID. -/
def State.mpIdent (s : State) (pec : Byte) : State :=
  s.mpFrame 0x7F [] pec (fun x => x.mpAnswer .ok (leBytes 4 0x9632 ++ [0xB0, BitVec.ofNat 8 x.ownId]))

/-- BAD_CMD: a CMD outside Table 9-17, or a frame of another length. -/
def State.mpBad (s : State) (cmd : Byte) (args : List Byte) (pec : Byte) : State := s.mpFrame cmd args pec (fun x => x.mpAnswer .badCmd [])

/-! ## TSTACC operation 6 (R412) -/

/-- A BAR0 register through TP's latch, RC fields kept. -/
def State.tstReg (s : State) (a : Nat) : State :=
  s.tstacc (fun x =>
    if a % 4 ≠ 0 ∨ 2 ^ 20 ≤ a then (2, 0, x)
    else
      let y := x.portRead .tp a
      (0, (y.hif.rdData.get 0 2).setWidth 64, y))

/-! ## Telemetry (R279-R281) -/

/-- The value of one MASK bit of a subscription (Table 9-13); none for a bit that selects nothing. -/
def State.teleValue (s : State) (x : Sub) (meas : List (Fin 32 × Word)) (b : Nat) : Option Word :=
  let i := x.index
  match x.kind with
  | 0 => match b with
    | 0 => some (s.gclReg i 0x0C) | 1 => some (s.gclReg i 8) | 2 => some (s.gclReg i 4) | 3 => some (s.gclReg i 0x10) | 4 => some (s.gclReg i 0x14)
    | 5 => some (s.gclReg i 0x18) | 6 => some (s.gclReg i 0x1C) | 7 => some (s.gclReg i 0x20) | 8 => some (s.gclReg i 0x2C) | 9 => some (s.slotReg i 0)
    | 10 => some (s.slotReg i 0x24) | 11 => some (s.slotReg i 0x18) | _ => none
  | 1 => match b with
    | 0 => some (s.txReg i 0x10) | 1 => some (wordI (s.txc i).pSum) | 2 => some (wordI (s.txc i).rl) | 3 => some (s.txReg i 0x1C) | 4 => some (s.chReg (32 + i) 4)
    | 5 => some (s.netReg i 4) | 6 => some (s.groupReg (objChain i) 0) | 7 => some (s.slotChReg i 0x98) | _ => none
  | 2 => match b with
    | 0 => some (match meas.find? (fun e => decide (e.1.val = 0)) with | some e => e.2 | none => Config.measured (2 ^ 32 + 0x2200 + 16 * i) s.now)
    | 1 => some (s.detReg i 4) | 2 => some (s.chReg i 4) | 3 => some (s.slotChReg i 0x88) | 4 => some (s.detReg i 0) | _ => none
  | 3 => match b with
    | 0 => some (s.cxReg i 0x14) | 1 => some (s.cxReg i 0x18) | 2 => some (s.cxReg i 0x1C) | 3 => some (s.cxReg i 0x20) | 4 => some (s.cxReg i 0x24)
    | 5 => some (s.cxReg i 4) | 6 => some (s.cxReg i 0x2C) | 7 => some (s.cxReg i 0x30) | 8 => some (s.cxReg i 0x34) | 9 => some (s.cxReg i 0x28)
    | 16 => some (s.inst i).specRatio | 17 => some (s.inst i).specEnergy | _ => none
  | 4 => if b < 16 then some ((s.task (taskKey i (bitsOf x.mask 29 3))).outs.get 0 b) else none
  | _ => match b with
    | 0 => some (s.tileReg i 0) | 1 => some (s.tileReg i 4) | 2 => some (s.tileReg i 8) | 3 => some (wordI (s.prot.temps.get 0 i)) | _ => none

/-- The values of a snapshot, in order of increasing bit. -/
def State.teleValues (s : State) (x : Sub) (meas : List (Fin 32 × Word)) : List Word :=
  ((List.range (if x.kind = 4 then 29 else 32)).filter (fun b => x.mask.getLsbD b)).filterMap (s.teleValue x meas)

/-- The tile of a subscription's object (R281). -/
def State.teleTile (s : State) (x : Sub) : Nat :=
  match x.kind with
  | 0 => x.index / 64 | 1 => x.index / 8 | 2 => x.index / 8 | 3 => (s.inst x.index).rx / 8 | 4 => x.index / 32 | _ => x.index

/-- The words of a telemetry entry (Table 9-14). -/
def teleEntry (sub : Nat) (x : Sub) (dt : Word64) (vals : List Word) (decim : Bool) (phase : Nat) : List Word :=
  [dt.extractLsb' 0 32, dt.extractLsb' 32 32, pack [(0, sub), (8, x.kind), (16, x.index), (24, vals.length)],
   pack [(0, bit (decide (x.kind = 3 ∧ x.mask >>> 16 ≠ 0))), (1, bit decim), (2, bit x.gap), (31, phase)]] ++ (List.range 12).map (fun j => vals.getD j 0)

/-- TELEMETRY_SNAPSHOT: written, decimated by 4 in AUTUMN, or dropped when the ring is full (R281); nothing leaves while Bus Master Enable is clear. -/
def State.telemetry (s : State) (sub : Nat) (meas : List (Fin 32 × Word)) : State :=
  let x := s.hif.subs.get Sub.reset sub
  if !x.active || !s.onGrid (x.period.toNat * tus) then s
  else
    let decim := decide ((s.tileT (s.teleTile x)).stage ≠ 0)
    let put (y : Sub) (a : State) : State := { a with hif := { a.hif with subs := a.hif.subs.set Sub.reset sub { y with count := x.count + 1 } } }
    let r := s.trRing x.ring
    if (decim && decide (x.count % 4 ≠ 0)) || !r.en || !s.hif.busMaster then put x s
    else if (r.tail - r.head).toNat = 2 ^ r.size then
      (put { x with gap := true } (s.updTr x.ring (fun y => { y with drop := if y.drop = 0xFFFFFFFF then y.drop else y.drop + 1 }))).raise 1 4 .device
    else
      let e := teleEntry sub x s.dtime (s.teleValues x meas) decim (phaseBit r.size r.tail)
      ((put { x with gap := false } ((s.hostWrite (entryAddr r.lo r.hi 64 r.size r.tail) e).updTr x.ring (fun y => { y with tail := y.tail + 1 }))).irqEdge (16 + x.ring))

end Sys2Proof.Machine
end

