-- ==== Sys2Proof/Machine/Live.lean ====
section
/-! DEFINITION. What is common to the commands' meanings: while SYS_RST_N is low, or a rail fault holds the device in reset, every block but the test access port is in reset and a command changes nothing (R400, R423). -/

namespace Sys2Proof.Machine

/-- A command acts on a device that is out of reset. -/
def State.live (s : State) (f : State → State) : Out := .next (if s.tst.inReset then s else f s)

end Sys2Proof.Machine
end

