-- ==== Sys2Proof/Machine/CancellerSteps.lean ====
section
/-! DEFINITION. Adaptation cycles, windows, searches and seeds (chapter 4). -/

namespace Sys2Proof.Machine

/-- CX_CYCLE: At the boundary after block 4 of a cycle, the device tests a candidate and promotes or discards it (R107). -/
def execCxCycle (cx : Fin 64) (c : CycleMeas) (s : State) : Out :=
  s.live (fun x => x.cxCycle cx.val c)

/-- CX_WINDOW_CLOSE: A measurement window closes and, if not discarded, publishes ISO, LOOPLOSS and DEPTH (R124). -/
def execCxWindowClose (cx : Fin 64) (w : WindowMeas) (s : State) : Out :=
  s.live (fun x => x.cxWindowClose cx.val w)

/-- CX_SEARCH_END: The delay search ends with a peak that sets D, or fails and restarts (R123). -/
def execCxSearchEnd (cx : Fin 64) (peak : Nat) (overMean : Int) (samples : Nat) (s : State) : Out :=
  s.live (fun x => x.cxSearchEnd cx.val peak overMean samples)

/-- CX_SEED_LOADED: A seed finishes loading and begins screening or its fade (R118). -/
def execCxSeedLoaded (cx : Fin 64) (s : State) : Out :=
  s.live (fun x => x.cxSeedLoaded cx.val)

/-- CX_SEED_SCREEN_END: A seed screen ends after four valid blocks or 5 ms, passing or failing the seed (R118). -/
def execCxSeedScreenEnd (cx : Fin 64) (validBlocks : Nat) (em esh : Nat) (s : State) : Out :=
  s.live (fun x => x.cxSeedScreenEnd cx.val validBlocks em esh)

/-- CX_SEED_FADE_END: At the end of the seed fade the seed is the main set and the instance enters ACQUIRE (R118). -/
def execCxSeedFadeEnd (cx : Fin 64) (s : State) : Out :=
  s.live (fun x => x.cxSeedFadeEnd cx.val)

/-- CX_FREEZE_BOUNDARY: At the first chain-grid boundary after acceptance, FROZEN is set or cleared for the masked instances and their candidates in flight are discarded (R116). -/
def execCxFreezeBoundary (s : State) : Out :=
  s.live (fun x => x.cxFreezeBoundary)

/-- CX_RESET_BOUNDARY: At the first chain-grid boundary after acceptance, the instance's main set and shadow are zeroed, VALID is cleared and the instance enters ACQUIRE, IDLE or SEARCH (R117). -/
def execCxResetBoundary (cx : Fin 64) (s : State) : Out :=
  s.live (fun x => x.cxResetBoundary cx.val)

end Sys2Proof.Machine
end

