-- ==== Sys2Proof/Machine/Clocking.lean ====
section
/-! DEFINITION. References, frame edges, elastic buffers, deadlines, slack, AUTUMN and the core voltage (chapters 3, 7). -/

namespace Sys2Proof.Machine

/-- REFERENCE_LOSS: Loss of the reference or of CKk lock raises CK_UNLOCK and drops the tile's chains to STANDBY with LOCK FAILED (R59). -/
def execReferenceLoss (tiles : BitVec 4) (refLost : Bool) (s : State) : Out :=
  s.live (fun x => x.referenceLoss tiles refLost)

/-- TILE_REALIGN: At the next frame edge after relock or a slip, a tile's elastic buffers are realigned (R208). -/
def execTileRealign (tile : Fin 4) (s : State) : Out :=
  s.live (fun x => x.tileRealign tile.val)

/-- ELASTIC_BUFFER_SLIP: A buffer's pointer distance leaves 4–60 samples: EB_SLIP is raised and realignment is scheduled (R209). -/
def execElasticBufferSlip (dir : Dir) (chain : Fin 32) (distance : Nat) (s : State) : Out :=
  s.live (fun x => x.bufferSlip (chIdx dir chain.val) distance)

/-- FRAME_IN_EDGE: A FRAME_IN rising edge drives schedule acquisition and loss, and drift checks against the aligned grid (R79). -/
def execFrameInEdge (s : State) : Out :=
  s.live (fun x => x.frameInEdge)

/-- FRAME_EDGE: An aligned 10 ms frame edge drives FRAME_OUT high for 1 µs and raises the FRAME interrupt source (R374). -/
def execFrameEdge (s : State) : Out :=
  s.live (fun x => x.frameEdge)

/-- DEADLINE_MISS: A block that misses its deadline is replaced by zeros at the up-converter and raises DEADLINE (R211). -/
def execDeadlineMiss (level : MissLevel) (s : State) : Out :=
  s.live (fun x => x.deadlineMiss level)

/-- SLACK_CHECK: Each chain-grid block, each tile's slack is compared with WARN, ACT and FAIL (R214). -/
def execSlackCheck (tile : Fin 4) (reports : List (Fin 64 × Fin 101 × Bool)) (s : State) : Out :=
  s.live (fun x => x.slackCheck tile.val reports)

/-- AUTUMN_STAGE_ADVANCE: Each 1 ms with slack still below 8% moves the tile to its next AUTUMN stage (R215). -/
def execAutumnStageAdvance (tile : Fin 4) (s : State) : Out :=
  s.live (fun x => x.autumnAdvance tile.val)

/-- AUTUMN_EXIT: After 100 ms at 12% slack or more, a tile ends every AUTUMN stage at one block (R216). -/
def execAutumnExit (tile : Fin 4) (s : State) : Out :=
  s.live (fun x => x.autumnExit tile.val)

/-- VID_RAISE: At each millisecond, an adaptive VID request rises one code if any slack fell below 20% (R217). -/
def execVidRaise (s : State) : Out :=
  s.live (fun x => x.vidRaise)

/-- VID_LOWER: At each second, an adaptive VID request falls one code if all slack stayed at 40% or more (R217). -/
def execVidLower (s : State) : Out :=
  s.live (fun x => x.vidLower)

/-- REFERENCE_RETURN: When the reference returns, CKk relocks by itself, ending the CK_UNLOCK condition, and the tile's buffers are realigned at the next frame pulse (R59). -/
def execReferenceReturn (tiles : BitVec 4) (s : State) : Out :=
  s.live (fun x => x.referenceReturn tiles)

end Sys2Proof.Machine
end

