-- ==== Sys2Proof/Machine/Descriptors.lean ====
section
/-! DEFINITION. The descriptor commands (Table 9-8): each is the descriptor at HEAD of its ring; and the fetches that bring descriptors as bytes. -/

namespace Sys2Proof.Machine

/-- NOP: Descriptor opcode 0x01 that does nothing and completes OK at acceptance (R272). -/
def execNop (h : DHdr) (s : State) : Out :=
  s.live (fun x => x.submit h .nop)

/-- FENCE: Descriptor opcode 0x02 that holds back its ring, and with ALL = 1 every ring, until earlier work has completed (R277). -/
def execFence (h : DHdr) (all : Byte) (s : State) : Out :=
  s.live (fun x => x.submit h (.fence all))

/-- FENCE_ACCEPT: A waiting FENCE is accepted and completes once every descriptor it waits for has completed (R277). -/
def execFenceAccept (ring : Fin 16) (s : State) : Out :=
  s.live (fun x => x.fenceAccept ring.val)

/-- ABORT: Descriptor opcode 0x03 that arbitrates against a named target's commit point and aborts it, or finds it too late or not yet taken (R278). -/
def execAbort (h : DHdr) (ring : Byte) (index : Half) (s : State) : Out :=
  s.live (fun x => x.submit h (.abort ring index))

/-- SLOT_CONFIG: Defines, redefines or releases a band slot, checks limits and authorisation, and supersedes pending slot descriptors (R35). -/
def execSlotConfig (h : DHdr) (slot preset rate destKind : Byte) (dest bw : Half) (rxfreq txfreq : Word) (pdly : Half) (s : State) : Out :=
  s.live (fun x => x.submit h (.slotConfig slot preset rate destKind dest bw rxfreq txfreq pdly))

/-- SLOT_ENABLE: Requests that a configured slot start at the next chain-grid block boundary of its destination (R36). -/
def execSlotEnable (h : DHdr) (slot : Byte) (s : State) : Out :=
  s.live (fun x => x.submit h (.slotEnable slot))

/-- SLOT_DISABLE: Requests that a slot ramp out of its routing sum or stream and return to CONFIGURED (R37). -/
def execSlotDisable (h : DHdr) (slot : Byte) (s : State) : Out :=
  s.live (fun x => x.submit h (.slotDisable slot))

/-- SLOT_GAIN_SET: Sets a slot's HOST gain from a complemented gain word and starts a ramp admitted under R140 (R138). -/
def execSlotGainSet (h : DHdr) (slot : Byte) (gain : Word) (s : State) : Out :=
  s.live (fun x => x.submit h (.slotGainSet slot gain))

/-- SLOT_COEF_LOAD: Fetches, checks and writes a slot's inactive coefficient bank, or holds the load behind a fade (R46). -/
def execSlotCoefLoad (h : DHdr) (slot : Byte) (banktag nblk : Half) (addr : Word64) (data : HostData) (s : State) : Out :=
  s.live (fun x => x.submit h (.slotCoefLoad slot banktag nblk addr data))

/-- SLOT_BANK_SWAP: Requests an EQUINOX swap of a slot's coefficient banks with a cross-fade, queued behind a fade or load (R47). -/
def execSlotBankSwap (h : DHdr) (slot xfade : Byte) (s : State) : Out :=
  s.live (fun x => x.submit h (.slotBankSwap slot xfade))

/-- CHAIN_STATE: Walks a chain towards a target power state, or holds the walk behind a transient, after admission (R67). -/
def execChainState (h : DHdr) (chain dir target flags : Byte) (s : State) : Out :=
  s.live (fun x => x.submit h (.chainState chain dir target flags))

/-- CHAIN_TUNE: Requests a tuning change or a delay-only tune of a chain (R63). -/
def execChainTune (h : DHdr) (chain dir mode losel : Byte) (fw ifofs : Word) (pdly : Half) (s : State) : Out :=
  s.live (fun x => x.submit h (.chainTune chain dir mode losel fw ifofs pdly))

/-- CAL_RUN: Queues the foreground calibrations selected by MASK on a chain (R74). -/
def execCalRun (h : DHdr) (chain dir mask : Byte) (s : State) : Out :=
  s.live (fun x => x.submit h (.calRun chain dir mask))

/-- TX_POWER_STEP: Sets or adds to a transmit chain's power index and queues the PA frame that commits the step (R91). -/
def execTxPowerStep (h : DHdr) (chain mode delta : Byte) (index : Word) (at_ : Word64) (s : State) : Out :=
  s.live (fun x => x.submit h (.txPowerStep chain mode delta index at_))

/-- TX_POWER_TABLE_LOAD: TX_POWER_STEP with MODE 2: fetches and checks 128 power-table entries into staging (R90). -/
def execTxPowerTableLoad (h : DHdr) (chain : Byte) (addr : Word64) (data : HostData) (s : State) : Out :=
  s.live (fun x => x.submit h (.txPowerTableLoad chain addr data))

/-- TUNER_SET: TUNER_SET with KIND 0: queues an 8-bit tuner word to a transmit chain's tuner at AT (R88). -/
def execTunerSet (h : DHdr) (chain wordT : Byte) (at_ : Word64) (s : State) : Out :=
  s.live (fun x => x.submit h (.tunerSet chain wordT at_))

/-- TUNER_SET_RAW: TUNER_SET with KIND 1: queues a raw FECB frame of up to 24 bits and returns the SDI bits (R88). -/
def execTunerSetRaw (h : DHdr) (bus cs len : Byte) (raw : Word) (at_ : Word64) (s : State) : Out :=
  s.live (fun x => x.submit h (.tunerSetRaw bus cs len raw at_))

/-- CX_ASSIGN: Assigns, rejoins, unjoins or releases a canceller instance for a transmit and receive chain pair (R103). -/
def execCxAssign (h : DHdr) (cx release tx rx join : Byte) (bulk extRxg : Half) (s : State) : Out :=
  s.live (fun x => x.submit h (.cxAssign cx release tx rx join bulk extRxg))

/-- CX_RESET: CX_RESET with MODE 0: zeroes an instance's main set and shadow and restarts measurement (R117). -/
def execCxReset (h : DHdr) (cx : Byte) (s : State) : Out :=
  s.live (fun x => x.submit h (.cxReset cx))

/-- CX_RESET_SEED: CX_RESET with MODE 1: loads a coefficient seed, screens it if the chain radiates, and installs it by cross-fade (R118). -/
def execCxResetSeed (h : DHdr) (cx xfade : Byte) (len : Word) (addr : Word64) (data : HostData) (s : State) : Out :=
  s.live (fun x => x.submit h (.cxResetSeed cx xfade len addr data))

/-- CX_FREEZE: Sets or clears FROZEN for every instance in a 64-bit mask at the next chain-grid boundary (R116). -/
def execCxFreeze (h : DHdr) (freeze : Byte) (mask : Word64) (s : State) : Out :=
  s.live (fun x => x.submit h (.cxFreeze freeze mask))

/-- GCL_LUT_LOAD: Checks and writes 64 entries and a tag into the inactive bank of a lookup-table set (R159). -/
def execGclLutLoad (h : DHdr) (set : Byte) (luttag : Half) (addr : Word64) (data : HostData) (s : State) : Out :=
  s.live (fun x => x.submit h (.gclLutLoad set luttag addr data))

/-- GCL_BANK_SWAP: Inverts a lookup-table set's ACTIVE bit so that its loops switch bank at their next loop sample boundary (R160). -/
def execGclBankSwap (h : DHdr) (set : Byte) (s : State) : Out :=
  s.live (fun x => x.submit h (.gclBankSwap set))

/-- GCL_SETPOINT: GCL_SETPOINT with KIND 0: applies set-point, AGC, slew and margin groups to a slot's loop (R163). -/
def execGclSetpoint (h : DHdr) (slot fields flags : Byte) (setpoint win : Half) (lutset : Byte) (slewUp slewDn margin : Half) (s : State) : Out :=
  s.live (fun x => x.submit h (.gclSetpoint slot fields flags setpoint win lutset slewUp slewDn margin))

/-- INSTALLATION_MODEL: GCL_SETPOINT with KIND 1: enters an instance's installation model and resets its good count (R151). -/
def execInstallationModel (h : DHdr) (cx : Byte) (isoMin isoMax rateMax : Half) (s : State) : Out :=
  s.live (fun x => x.submit h (.installationModel cx isoMin isoMax rateMax))

/-- PROT_CONFIG: PROT_CONFIG with KIND 0: sets one protection parameter for one object or for all objects (R185). -/
def execProtConfig (h : DHdr) (param object : Byte) (value : Word) (s : State) : Out :=
  s.live (fun x => x.submit h (.protConfig param object value))

/-- AUTHORISATION_WRITE: PROT_CONFIG with KIND 1: writes one band authorisation entry from HP while AUTH_WE is high (R188). -/
def execAuthorisationWrite (h : DHdr) (entry : Byte) (w0 w1 w2 w3 w4 : Word) (s : State) : Out :=
  s.live (fun x => x.submit h (.authorisationWrite entry w0 w1 w2 w3 w4))

/-- WINTER_ENTER: Sets the HOST cause on a slot, chain, tile or device and mutes its scope (R191). -/
def execWinterEnter (h : DHdr) (scope index : Byte) (reason : Half) (s : State) : Out :=
  s.live (fun x => x.submit h (.winterEnter scope index reason))

/-- WINTER_RELEASE: Checks causes and hold-off ages of an object in WINTER and starts the proof of its mute mechanisms (R195). -/
def execWinterRelease (h : DHdr) (scope index override_ : Byte) (s : State) : Out :=
  s.live (fun x => x.submit h (.winterRelease scope index override_))

/-- LE_IMAGE_LOAD: Fetches and checks an engine image, then writes it to a range of engines (R230). -/
def execLeImageLoad (h : DHdr) (first count : Byte) (len : Word) (addr : Word64) (data : HostData) (s : State) : Out :=
  s.live (fun x => x.submit h (.leImageLoad first count len addr data))

/-- LE_TASK_START: Starts a task on an open engine after the schedulability and write-ownership checks (R242). -/
def execLeTaskStart (h : DHdr) (engine task entry sev : Byte) (period phase : Word) (nobj : Byte) (param : Word64) (data : HostData) (s : State) : Out :=
  s.live (fun x => x.submit h (.leTaskStart engine task entry sev period phase nobj param data))

/-- LE_TASK_STOP: Stops a task at once, or at its WAIT or its next release if it is running (R247). -/
def execLeTaskStop (h : DHdr) (engine task : Byte) (s : State) : Out :=
  s.live (fun x => x.submit h (.leTaskStop engine task))

/-- CAPTURE: Arms a capture of one sample-path point into capture memory, with a time or WINTER trigger (R283). -/
def execCapture (h : DHdr) (point index trig shift : Byte) (len pre : Word) (at_ addr : Word64) (s : State) : Out :=
  s.live (fun x => x.submit h (.capture point index trig shift len pre at_ addr))

/-- TELEMETRY_SUBSCRIBE: Sets, replaces or cancels a periodic telemetry subscription (R279). -/
def execTelemetrySubscribe (h : DHdr) (sub ring kind index : Byte) (mask period : Word) (s : State) : Out :=
  s.live (fun x => x.submit h (.telemetrySubscribe sub ring kind index mask period))

/-- REC_NOTE: Writes a host note record into the recorder (R355). -/
def execRecNote (h : DHdr) (note : Half) (data : List Word) (s : State) : Out :=
  s.live (fun x => x.submit h (.recNote note data))

/-- REC_FLUSH: Requests that every record already numbered be committed to the store (R356). -/
def execRecFlush (h : DHdr) (s : State) : Out :=
  s.live (fun x => x.submit h .recFlush)

/-- JL_STREAM_OPEN: Opens a send stream with a STREAM_REQ, or reserves a receive placement that listens (R379). -/
def execJlStreamOpen (h : DHdr) (port stream dir rate txch : Byte) (bw : Half) (txfreq : Word) (pdly : Half) (s : State) : Out :=
  s.live (fun x => x.submit h (.jlStreamOpen port stream dir rate txch bw txfreq pdly))

/-- JL_STREAM_CLOSE: Closes a send or receive stream and sends STREAM_CLOSE to the partner (R381). -/
def execJlStreamClose (h : DHdr) (port stream : Byte) (s : State) : Out :=
  s.live (fun x => x.submit h (.jlStreamClose port stream))

/-- DESCRIPTOR_FETCH: Once a completion entry is reserved, the device fetches the next descriptor of a running ring in round-robin order (R264). -/
def execDescriptorFetch (f : Fetch) (data : HostData) (s : State) : Out :=
  s.live (fun x => x.fetch f data)

/-- FETCH_RETRY: 10 µs after a failed descriptor read the device retries it once, and stops the ring with FETCH_ERROR if the retry fails (R267). -/
def execFetchRetry (ring : Fin 16) (f : Fetch) (data : HostData) (s : State) : Out :=
  s.live (fun x => x.fetchRetry ring f data)

end Sys2Proof.Machine
end

