-- ==== Sys2Proof/Machine/Diwell.lean ====
section
/-! DEFINITION. The recorder's steps, the event ring, telemetry and capture (chapters 9, 12). -/

namespace Sys2Proof.Machine

/-- TELEMETRY_SNAPSHOT: At each subscription period, one telemetry entry is written, decimated or dropped (R281). -/
def execTelemetrySnapshot (sub : Fin 64) (meas : List (Fin 32 × Word)) (s : State) : Out :=
  s.live (fun x => x.telemetry sub.val meas)

/-- CAPTURE_START: A queued capture begins when the running one ends, and a time-triggered capture commits at its first sample (R283). -/
def execCaptureStart (s : State) : Out :=
  s.live (fun x => x.captStart)

/-- CAPTURE_END: A capture finishes filling memory, copies to the host if asked, and completes (R283). -/
def execCaptureEnd (oldest : BitVec 24) (samples : List Word) (s : State) : Out :=
  s.live (fun x => x.captEnd oldest samples)

/-- EVENT_COPY: A recorder record at or above MINSEV is copied to the event ring and TAIL is written back (R282). -/
def execEventCopy (s : State) : Out :=
  s.live (fun x => x.eventCopy)

/-- FLUSH_START: A flush begins, on a trigger or at the end of the previous flush (R346). -/
def execFlushStart (s : State) : Out :=
  s.live (fun x => x.flushStart)

/-- FLUSH_END: A flush commits its records and tombstones to the store, completing waiting REC_FLUSH descriptors (R346). -/
def execFlushEnd (badVerify : List Nat) (s : State) : Out :=
  s.live (fun x => x.flushEnd badVerify)

/-- PERIODIC_FLUSH: Each whole second a flush starts and writes an OPH checkpoint (R347). -/
def execPeriodicFlush (s : State) : Out :=
  s.live (fun x => x.periodicFlush)

/-- SUMMARY_RECORD: When a code's bucket regains a token, one summary record of its suppressed and dropped counts is written (R343). -/
def execSummaryRecord (code : BitVec 12) (s : State) : Out :=
  s.live (fun x => x.summaryRecord code.toNat)

end Sys2Proof.Machine
end

