-- ==== Sys2Proof/Machine/Instructions.lean ====
section
/-! DEFINITION. The Uskihar instructions (Table 8-4), each executed by an engine whose PC stands at it. -/

namespace Sys2Proof.Machine

/-- ADD: GD = GA + GB, wrapping (R233). -/
def execAdd (e : Fin 128) (gd ga gb : Reg) (s : State) : Out :=
  s.live (fun x => x.ukReg e.val (.r .add gd ga gb) gd (fun a => ROp.eval .add (a.eReg e.val ga) (a.eReg e.val gb)))

/-- SUB: GD = GA − GB, wrapping (R233). -/
def execSub (e : Fin 128) (gd ga gb : Reg) (s : State) : Out :=
  s.live (fun x => x.ukReg e.val (.r .sub gd ga gb) gd (fun a => ROp.eval .sub (a.eReg e.val ga) (a.eReg e.val gb)))

/-- AND: Bitwise AND of GA and GB (R232). -/
def execAnd (e : Fin 128) (gd ga gb : Reg) (s : State) : Out :=
  s.live (fun x => x.ukReg e.val (.r .and_ gd ga gb) gd (fun a => ROp.eval .and_ (a.eReg e.val ga) (a.eReg e.val gb)))

/-- OR: Bitwise OR of GA and GB (R232). -/
def execOr (e : Fin 128) (gd ga gb : Reg) (s : State) : Out :=
  s.live (fun x => x.ukReg e.val (.r .or_ gd ga gb) gd (fun a => ROp.eval .or_ (a.eReg e.val ga) (a.eReg e.val gb)))

/-- XOR: Bitwise XOR of GA and GB (R232). -/
def execXor (e : Fin 128) (gd ga gb : Reg) (s : State) : Out :=
  s.live (fun x => x.ukReg e.val (.r .xor_ gd ga gb) gd (fun a => ROp.eval .xor_ (a.eReg e.val ga) (a.eReg e.val gb)))

/-- SLL: Shifts GA left by GB[4:0] (R232). -/
def execSll (e : Fin 128) (gd ga gb : Reg) (s : State) : Out :=
  s.live (fun x => x.ukReg e.val (.r .sll gd ga gb) gd (fun a => ROp.eval .sll (a.eReg e.val ga) (a.eReg e.val gb)))

/-- SRL: Shifts GA right logically by GB[4:0] (R232). -/
def execSrl (e : Fin 128) (gd ga gb : Reg) (s : State) : Out :=
  s.live (fun x => x.ukReg e.val (.r .srl gd ga gb) gd (fun a => ROp.eval .srl (a.eReg e.val ga) (a.eReg e.val gb)))

/-- SRA: Shifts GA right arithmetically by GB[4:0] (R232). -/
def execSra (e : Fin 128) (gd ga gb : Reg) (s : State) : Out :=
  s.live (fun x => x.ukReg e.val (.r .sra gd ga gb) gd (fun a => ROp.eval .sra (a.eReg e.val ga) (a.eReg e.val gb)))

/-- MUL: Low 32 bits of GA × GB (R232). -/
def execMul (e : Fin 128) (gd ga gb : Reg) (s : State) : Out :=
  s.live (fun x => x.ukReg e.val (.r .mul gd ga gb) gd (fun a => ROp.eval .mul (a.eReg e.val ga) (a.eReg e.val gb)))

/-- MULH: High 32 bits of the signed 64-bit product (R232). -/
def execMulh (e : Fin 128) (gd ga gb : Reg) (s : State) : Out :=
  s.live (fun x => x.ukReg e.val (.r .mulh gd ga gb) gd (fun a => ROp.eval .mulh (a.eReg e.val ga) (a.eReg e.val gb)))

/-- SLT: Signed less-than comparison into GD (R232). -/
def execSlt (e : Fin 128) (gd ga gb : Reg) (s : State) : Out :=
  s.live (fun x => x.ukReg e.val (.r .slt gd ga gb) gd (fun a => ROp.eval .slt (a.eReg e.val ga) (a.eReg e.val gb)))

/-- SLTU: Unsigned less-than comparison into GD (R232). -/
def execSltu (e : Fin 128) (gd ga gb : Reg) (s : State) : Out :=
  s.live (fun x => x.ukReg e.val (.r .sltu gd ga gb) gd (fun a => ROp.eval .sltu (a.eReg e.val ga) (a.eReg e.val gb)))

/-- MIN: Signed minimum of GA and GB (R232). -/
def execMin (e : Fin 128) (gd ga gb : Reg) (s : State) : Out :=
  s.live (fun x => x.ukReg e.val (.r .min_ gd ga gb) gd (fun a => ROp.eval .min_ (a.eReg e.val ga) (a.eReg e.val gb)))

/-- MAX: Signed maximum of GA and GB (R232). -/
def execMax (e : Fin 128) (gd ga gb : Reg) (s : State) : Out :=
  s.live (fun x => x.ukReg e.val (.r .max_ gd ga gb) gd (fun a => ROp.eval .max_ (a.eReg e.val ga) (a.eReg e.val gb)))

/-- ADDS: Saturating addition (R233). -/
def execAdds (e : Fin 128) (gd ga gb : Reg) (s : State) : Out :=
  s.live (fun x => x.ukReg e.val (.r .adds gd ga gb) gd (fun a => ROp.eval .adds (a.eReg e.val ga) (a.eReg e.val gb)))

/-- SUBS: Saturating subtraction (R233). -/
def execSubs (e : Fin 128) (gd ga gb : Reg) (s : State) : Out :=
  s.live (fun x => x.ukReg e.val (.r .subs gd ga gb) gd (fun a => ROp.eval .subs (a.eReg e.val ga) (a.eReg e.val gb)))

/-- CLZ: Counts the leading zeros of GA (R232). -/
def execClz (e : Fin 128) (gd ga : Reg) (s : State) : Out :=
  s.live (fun x => x.ukReg e.val (.r1 .clz gd ga) gd (fun a => R1Op.eval .clz (a.eReg e.val ga)))

/-- LG2: Fixed-point log2 of unsigned GA (R232). -/
def execLg2 (e : Fin 128) (gd ga : Reg) (s : State) : Out :=
  s.live (fun x => x.ukReg e.val (.r1 .lg2 gd ga) gd (fun a => R1Op.eval .lg2 (a.eReg e.val ga)))

/-- EX2: Fixed-point 2 to the power of signed GA, saturating (R232). -/
def execEx2 (e : Fin 128) (gd ga : Reg) (s : State) : Out :=
  s.live (fun x => x.ukReg e.val (.r1 .ex2 gd ga) gd (fun a => R1Op.eval .ex2 (a.eReg e.val ga)))

/-- ADDI: GD = GA + IMM (R232). -/
def execAddi (e : Fin 128) (gd ga : Reg) (imm : BitVec 18) (s : State) : Out :=
  s.live (fun x => x.ukReg e.val (.i .addi gd ga imm) gd (fun a => IOp.eval .addi (a.eReg e.val ga) imm))

/-- ANDI: Bitwise AND with a zero-extended immediate (R232). -/
def execAndi (e : Fin 128) (gd ga : Reg) (imm : BitVec 18) (s : State) : Out :=
  s.live (fun x => x.ukReg e.val (.i .andi gd ga imm) gd (fun a => IOp.eval .andi (a.eReg e.val ga) imm))

/-- ORI: Bitwise OR with a zero-extended immediate (R232). -/
def execOri (e : Fin 128) (gd ga : Reg) (imm : BitVec 18) (s : State) : Out :=
  s.live (fun x => x.ukReg e.val (.i .ori gd ga imm) gd (fun a => IOp.eval .ori (a.eReg e.val ga) imm))

/-- XORI: Bitwise XOR with a zero-extended immediate (R232). -/
def execXori (e : Fin 128) (gd ga : Reg) (imm : BitVec 18) (s : State) : Out :=
  s.live (fun x => x.ukReg e.val (.i .xori gd ga imm) gd (fun a => IOp.eval .xori (a.eReg e.val ga) imm))

/-- SLTI: Signed compare with an immediate (R232). -/
def execSlti (e : Fin 128) (gd ga : Reg) (imm : BitVec 18) (s : State) : Out :=
  s.live (fun x => x.ukReg e.val (.i .slti gd ga imm) gd (fun a => IOp.eval .slti (a.eReg e.val ga) imm))

/-- LUI: GD = IMM << 14 (R232). -/
def execLui (e : Fin 128) (gd : Reg) (imm : BitVec 18) (s : State) : Out :=
  s.live (fun x => x.ukReg e.val (.lui gd imm) gd (fun _ => imm.setWidth 32 <<< 14))

/-- SLLI: Left shift by an immediate (R232). -/
def execSlli (e : Fin 128) (gd ga : Reg) (sh : BitVec 5) (s : State) : Out :=
  s.live (fun x => x.ukReg e.val (.sh .slli gd ga sh) gd (fun a => ShOp.eval .slli (a.eReg e.val ga) sh))

/-- SRLI: Logical right shift by an immediate (R232). -/
def execSrli (e : Fin 128) (gd ga : Reg) (sh : BitVec 5) (s : State) : Out :=
  s.live (fun x => x.ukReg e.val (.sh .srli gd ga sh) gd (fun a => ShOp.eval .srli (a.eReg e.val ga) sh))

/-- SRAI: Arithmetic right shift by an immediate (R232). -/
def execSrai (e : Fin 128) (gd ga : Reg) (sh : BitVec 5) (s : State) : Out :=
  s.live (fun x => x.ukReg e.val (.sh .srai gd ga sh) gd (fun a => ShOp.eval .srai (a.eReg e.val ga) sh))

/-- LDW: Loads an aligned word from data memory (R234). -/
def execLdw (e : Fin 128) (gd ga : Reg) (imm : BitVec 18) (s : State) : Out :=
  s.live (fun x => x.ukLoad e.val (.i .ldw gd ga imm) gd ga imm 4 word)

/-- STW: Stores an aligned word to data memory (R234). -/
def execStw (e : Fin 128) (gs ga : Reg) (imm : BitVec 18) (s : State) : Out :=
  s.live (fun x => x.ukStore e.val (.i .stw gs ga imm) gs ga imm 4)

/-- LDH: Loads a sign-extended half-word (R234). -/
def execLdh (e : Fin 128) (gd ga : Reg) (imm : BitVec 18) (s : State) : Out :=
  s.live (fun x => x.ukLoad e.val (.i .ldh gd ga imm) gd ga imm 2 (fun n => (BitVec.ofNat 16 n).signExtend 32))

/-- STH: Stores a half-word (R234). -/
def execSth (e : Fin 128) (gs ga : Reg) (imm : BitVec 18) (s : State) : Out :=
  s.live (fun x => x.ukStore e.val (.i .sth gs ga imm) gs ga imm 2)

/-- BEQ: Branches if GA equals GB (R232). -/
def execBeq (e : Fin 128) (ga gb : Reg) (ofs : BitVec 18) (s : State) : Out :=
  s.live (fun x => x.ukBranch e.val (.b .beq ga gb ofs) .beq ga gb ofs)

/-- BNE: Branches if GA differs from GB (R232). -/
def execBne (e : Fin 128) (ga gb : Reg) (ofs : BitVec 18) (s : State) : Out :=
  s.live (fun x => x.ukBranch e.val (.b .bne ga gb ofs) .bne ga gb ofs)

/-- BLT: Branches if GA is less than GB, signed (R232). -/
def execBlt (e : Fin 128) (ga gb : Reg) (ofs : BitVec 18) (s : State) : Out :=
  s.live (fun x => x.ukBranch e.val (.b .blt ga gb ofs) .blt ga gb ofs)

/-- BGE: Branches if GA is at least GB, signed (R232). -/
def execBge (e : Fin 128) (ga gb : Reg) (ofs : BitVec 18) (s : State) : Out :=
  s.live (fun x => x.ukBranch e.val (.b .bge ga gb ofs) .bge ga gb ofs)

/-- BLTU: Branches if GA is less than GB, unsigned (R232). -/
def execBltu (e : Fin 128) (ga gb : Reg) (ofs : BitVec 18) (s : State) : Out :=
  s.live (fun x => x.ukBranch e.val (.b .bltu ga gb ofs) .bltu ga gb ofs)

/-- BGEU: Branches if GA is at least GB, unsigned (R232). -/
def execBgeu (e : Fin 128) (ga gb : Reg) (ofs : BitVec 18) (s : State) : Out :=
  s.live (fun x => x.ukBranch e.val (.b .bgeu ga gb ofs) .bgeu ga gb ofs)

/-- JAL: Jumps by OFS and links PC + 4 into G15 (R232). -/
def execJal (e : Fin 128) (ofs : BitVec 26) (s : State) : Out :=
  s.live (fun x => x.ukJal e.val ofs)

/-- JALR: Jumps to GA + IMM and links PC + 4 into GD (R232). -/
def execJalr (e : Fin 128) (gd ga : Reg) (imm : BitVec 18) (s : State) : Out :=
  s.live (fun x => x.ukJalr e.val gd ga imm)

/-- PRD: Reads a loop port, subject to the task's object list (R238). -/
def execPrd (e : Fin 128) (g gi : Reg) (paddr : Half) (live : Option Word) (s : State) : Out :=
  s.live (fun x => x.ukPortRead e.val false g gi paddr live)

/-- PWR: Buffers a write to a loop port until WAIT (R240). -/
def execPwr (e : Fin 128) (g gi : Reg) (paddr : Half) (s : State) : Out :=
  s.live (fun x => x.ukPortWrite e.val false g gi paddr)

/-- PRDC: Reads and checks a complemented-word port, trapping with cause CW on a mismatch (R238). -/
def execPrdc (e : Fin 128) (g gi : Reg) (paddr : Half) (s : State) : Out :=
  s.live (fun x => x.ukPortRead e.val true g gi paddr none)

/-- PWRC: Buffers a complemented-word port write until WAIT (R240). -/
def execPwrc (e : Fin 128) (g gi : Reg) (paddr : Half) (s : State) : Out :=
  s.live (fun x => x.ukPortWrite e.val true g gi paddr)

/-- VADD: Lane-wise block-floating addition (R235). -/
def execVadd (e : Fin 128) (vd va vb : VReg) (s : State) : Out :=
  s.live (fun x => x.ukVec e.val (.v .vadd vd va vb) vd (fun a => VOp.eval .vadd (a.eVec e.val va) (a.eVec e.val vb)))

/-- VSUB: Lane-wise block-floating subtraction (R235). -/
def execVsub (e : Fin 128) (vd va vb : VReg) (s : State) : Out :=
  s.live (fun x => x.ukVec e.val (.v .vsub vd va vb) vd (fun a => VOp.eval .vsub (a.eVec e.val va) (a.eVec e.val vb)))

/-- VMUL: Lane-wise block-floating multiplication (R235). -/
def execVmul (e : Fin 128) (vd va vb : VReg) (s : State) : Out :=
  s.live (fun x => x.ukVec e.val (.v .vmul vd va vb) vd (fun a => VOp.eval .vmul (a.eVec e.val va) (a.eVec e.val vb)))

/-- VCMUL: Complex multiplication of vector register pairs (R235). -/
def execVcmul (e : Fin 128) (vd va vb : VReg) (s : State) : Out :=
  s.live (fun x => x.ukCmul e.val (.v .vcmul vd va vb) false vd va vb)

/-- VCMULJ: Complex multiplication by the conjugate of a vector register pair (R235). -/
def execVcmulj (e : Fin 128) (vd va vb : VReg) (s : State) : Out :=
  s.live (fun x => x.ukCmul e.val (.v .vcmulj vd va vb) true vd va vb)

/-- VDOT: Dot product into lane 0 (R235). -/
def execVdot (e : Fin 128) (vd va vb : VReg) (s : State) : Out :=
  s.live (fun x => x.ukVec e.val (.v .vdot vd va vb) vd (fun a => VOp.eval .vdot (a.eVec e.val va) (a.eVec e.val vb)))

/-- VENER: Sum of lane squares into lane 0 (R235). -/
def execVener (e : Fin 128) (vd va : VReg) (s : State) : Out :=
  s.live (fun x => x.ukVec e.val (.v1 .vener vd va) vd (fun a => VOp.eval .vdot (a.eVec e.val va) (a.eVec e.val va)))

/-- VSHX: Adds GB to a vector's exponent, clamping with saturation (R235). -/
def execVshx (e : Fin 128) (vd va : VReg) (gb : Reg) (s : State) : Out :=
  s.live (fun x => x.ukVec e.val (.vshx vd va gb) vd (fun a => vshxEval (a.eVec e.val va) (a.eReg e.val gb)))

/-- VMOV: Copies a vector register (R235). -/
def execVmov (e : Fin 128) (vd va : VReg) (s : State) : Out :=
  s.live (fun x => x.ukVec e.val (.v1 .vmov vd va) vd (fun a => (a.eVec e.val va, false)))

/-- VEXT: Extracts a scaled lane into a general register (R232). -/
def execVext (e : Fin 128) (gd : Reg) (va : VReg) (lane : Fin 16) (frac : BitVec 5) (s : State) : Out :=
  s.live (fun x => x.ukReg e.val (.vext gd va lane frac) gd (fun a => vextEval (a.eVec e.val va) lane.val frac.toNat))

/-- VINS: Inserts a scaled general register into a lane and renormalises (R232). -/
def execVins (e : Fin 128) (vd : VReg) (ga : Reg) (lane : Fin 16) (frac : BitVec 5) (s : State) : Out :=
  s.live (fun x => x.ukVec e.val (.vins vd ga lane frac) vd (fun a => vinsEval (a.eVec e.val vd) (a.eReg e.val ga) lane.val frac.toNat))

/-- VLD: Loads a 64-byte vector from data memory (R236). -/
def execVld (e : Fin 128) (vd : VReg) (ga : Reg) (imm : BitVec 19) (s : State) : Out :=
  s.live (fun x => x.ukVld e.val vd ga imm)

/-- VST: Stores a 64-byte vector to data memory (R236). -/
def execVst (e : Fin 128) (vd : VReg) (ga : Reg) (imm : BitVec 19) (s : State) : Out :=
  s.live (fun x => x.ukVst e.val vd ga imm)

/-- NOP_INSTRUCTION: Uskihar instruction that does nothing (R232). -/
def execNopInstruction (e : Fin 128) (s : State) : Out :=
  s.live (fun x => x.ukRun e.val .nop (fun _ a => a.ukNext e.val (a.pcNext e.val) 1))

/-- WAIT: Commits the release's buffered port writes in order and ends the release (R240). -/
def execWait (e : Fin 128) (s : State) : Out :=
  s.live (fun x => x.ukWait e.val)

/-- TRAP: Uskihar instruction that traps with cause TRAP (R232). -/
def execTrap (e : Fin 128) (s : State) : Out :=
  s.live (fun x => x.ukRun e.val .trap (fun _ a => a))

end Sys2Proof.Machine
end

