-- ==== Sys2Proof/Machine/Interrupts.lean ====
section
/-! DEFINITION. The interrupt controller commands (chapter 10). -/

namespace Sys2Proof.Machine

/-- INTC_CLAIM: An HP read returns and claims the first ready INT_N vector, or returns NONE (R299). -/
def execIntcClaim (s : State) : Out :=
  s.live (fun x => x.intcClaim)

/-- INTC_EOI: Completes an ACTIVE vector and re-pends it if a level source is still asserted (R300). -/
def execIntcEoi (v : Word) (s : State) : Out :=
  s.live (fun x => x.intcEoi v)

/-- VEC_MASK_SET: Masks vectors at the launch point, before or after a launch but never during it (R303). -/
def execVecMaskSet (half : Fin 2) (v : Word) (s : State) : Out :=
  s.live (fun x => x.vecMask half.val v true)

/-- VEC_MASK_CLR: Unmasks vectors (R304). -/
def execVecMaskClr (half : Fin 2) (v : Word) (s : State) : Out :=
  s.live (fun x => x.vecMask half.val v false)

/-- VEC_MASK_READ: An HP read of a mask register returns only after every earlier INTC write has reached the launch points (R303). -/
def execVecMaskRead (half : Fin 2) (s : State) : Out :=
  s.live (fun x => x.vecMaskRead half.val)

/-- VEC_PEND_SET: Makes vectors pending and ripe (R294). -/
def execVecPendSet (half : Fin 2) (v : Word) (s : State) : Out :=
  s.live (fun x => x.vecPendSet half.val v)

/-- VEC_PEND_CLR: Clears pending vectors, which re-pend at once while an enabled level source is asserted (R294). -/
def execVecPendClr (half : Fin 2) (v : Word) (s : State) : Out :=
  s.live (fun x => x.vecPendClr half.val v)

/-- SRC_EN_SET: Enables interrupt sources (R293). -/
def execSrcEnSet (w : Fin 16) (v : Word) (s : State) : Out :=
  s.live (fun x => x.srcEnSet w.val v)

/-- SRC_EN_CLR: Disables interrupt sources (R293). -/
def execSrcEnClr (w : Fin 16) (v : Word) (s : State) : Out :=
  s.live (fun x => x.srcEnClr w.val v)

/-- SRC_LAT_SET: Sets edge-source latches and counts each as an event of its vector (R293). -/
def execSrcLatSet (w : Fin 16) (v : Word) (s : State) : Out :=
  s.live (fun x => x.srcLatSet w.val v)

/-- SRC_LAT_CLR: Clears edge-source latches (R293). -/
def execSrcLatClr (w : Fin 16) (v : Word) (s : State) : Out :=
  s.live (fun x => x.srcLatClr w.val v)

/-- SRC_CFG_WRITE: Sets a source's vector and urgency, ignored with WR_BLOCKED while the source is enabled (R293). -/
def execSrcCfgWrite (src : Fin 512) (v : Word) (s : State) : Out :=
  s.live (fun x => x.srcCfgWrite src.val v)

/-- VEC_CFG_WRITE: Sets a vector's target and priority, ignored with WR_BLOCKED unless the vector is masked and not ACTIVE (R307). -/
def execVecCfgWrite (vec : Fin 64) (v : Word) (s : State) : Out :=
  s.live (fun x => x.vecCfgWrite vec.val v)

/-- VEC_COAL_WRITE: Sets a vector's coalescing count and time, effective at its next launch (R307). -/
def execVecCoalWrite (vec : Fin 64) (v : Word) (s : State) : Out :=
  s.live (fun x => x.vecCoalWrite vec.val v)

/-- PRIGROUP_WRITE: Sets the priority group mask, ignored with WR_BLOCKED while an INT_N vector is ACTIVE (R297). -/
def execPrigroupWrite (v : Word) (s : State) : Out :=
  s.live (fun x => x.prigroupWrite v)

/-- VECTOR_LAUNCH: A launch point issues a ripe, unmasked, non-ACTIVE vector as its claim, in group, sub-priority and number order (R296). -/
def execVectorLaunch (supervisor : Bool) (s : State) : Out :=
  s.live (fun x => x.vectorLaunch supervisor)

/-- COALESCE_TIMER: TIME µs after the first event since the last launch, a pending vector becomes ripe (R295). -/
def execCoalesceTimer (vec : Fin 64) (s : State) : Out :=
  s.live (fun x => x.coalesceTimer vec.val)

/-- SUPERVISOR_VECTOR: The supervisor records a launched supervisor vector's sources, clears their latches and completes the vector (R305). -/
def execSupervisorVector (vec : Fin 64) (s : State) : Out :=
  s.live (fun x => x.supervisorVector vec.val)

end Sys2Proof.Machine
end

