-- ==== Sys2Proof/Machine/Jarond.lean ====
section
/-! DEFINITION. Jarond links, messages and streams (chapter 13). -/

namespace Sys2Proof.Machine

/-- LINK_TRAINING_STEP: A Jarond training step ends or exceeds its limit, advancing the port or taking it DOWN (R366). -/
def execLinkTrainingStep (port : Fin 4) (r : TrainResult) (s : State) : Out :=
  s.live (fun x => x.trainStep port.val r)

/-- TRAINING_RESTART: 100 ms after a port goes DOWN, training restarts (R366). -/
def execTrainingRestart (port : Fin 4) (s : State) : Out :=
  s.live (fun x => x.trainStart port.val)

/-- LINK_HEADER: A link frame's header block delivers FN, ACK, CREDIT and NAK (R365). -/
def execLinkHeader (port : Fin 4) (hdr : LinkHdr) (s : State) : Out :=
  s.live (fun x => x.linkHeader port.val hdr)

/-- HEADER_LOSS: 16 frames without a valid header take the link down (R365). -/
def execHeaderLoss (port : Fin 4) (s : State) : Out :=
  s.live (fun x => x.headerLoss port.val)

/-- BLOCK_ERROR_RATE: A block error rate above 10^−6 over 1 ms takes the link down (R366). -/
def execBlockErrorRate (port : Fin 4) (errors : Nat) (s : State) : Out :=
  s.live (fun x => x.blockErrors port.val errors)

/-- STREAM_CELL: A received stream cell yields a sample pair, or zeros on a block error, for placement at its hop latency (R376). -/
def execStreamCell (port : Fin 4) (stream : Fin 12) (cell : Cell) (s : State) : Out :=
  s.live (fun x => x.streamCell port.val stream.val cell)

/-- MESSAGE_RETRANSMIT: On NAK, or 500 ns without ACK, the sender retransmits from its oldest unacknowledged message (R382). -/
def execMessageRetransmit (port : Fin 4) (s : State) : Out :=
  s.live (fun x => x.msgRetransmit port.val)

/-- RETRY_EXHAUSTED: A message still unacknowledged 2 µs after its first attempt takes the link DOWN with cause RETRY (R382). -/
def execRetryExhausted (port : Fin 4) (s : State) : Out :=
  s.live (fun x => x.retryExhausted port.val)

/-- HEARTBEAT: Master-to-all heartbeat message received, forwarded and executed (R384). -/
def execHeartbeat (m : MsgHdr) (epoch : Word) (ndev : Byte) (s : State) : Out :=
  s.live (fun x => x.heartbeat m epoch ndev)

/-- HEARTBEAT_SEND: Every 1 ms the master sends HEARTBEAT to all members (R384). -/
def execHeartbeatSend (s : State) : Out :=
  s.live (fun x => x.heartbeatSend)

/-- HEARTBEAT_LOSS: 3 ms without HEARTBEAT, or an upstream link down, moves a locked member to HOLDOVER (R373). -/
def execHeartbeatLoss (s : State) : Out :=
  s.live (fun x => x.heartbeatLoss)

/-- TIME: A received TIME message locks or slews the member's DTIME, or raises TIME_FAR (R370). -/
def execTime (m : MsgHdr) (dt : Word64) (framePh : Word) (depth : Byte) (s : State) : Out :=
  s.live (fun x => x.timeTake m dt framePh depth)

/-- TIME_SEND: At link-up and every 1 ms, a locked upstream partner sends TIME downstream (R370). -/
def execTimeSend (port : Fin 4) (s : State) : Out :=
  s.live (fun x => x.timeSend port.val)

/-- DELAY_REQ: A delay request message received during step 5 is answered with timestamps (R369). -/
def execDelayReq (m : MsgHdr) (t1 t2 t3 : Word64) (s : State) : Out :=
  s.live (fun x => x.delayReq m t1 t2 t3)

/-- DELAY_RESP: A delay response message contributes one exchange to the one-way delay estimate (R369). -/
def execDelayResp (m : MsgHdr) (t1 t2 t3 t4 : Word64) (s : State) : Out :=
  s.live (fun x => x.delayResp m t1 t2 t3 t4)

/-- JOIN: A member's JOIN received by the master, answered with OK or ID_CONFLICT, followed by a full cap set (R362). -/
def execJoin (m : MsgHdr) (pver upport : Byte) (reach : List Half) (s : State) : Out :=
  s.live (fun x => x.joinTake m pver upport reach)

/-- JOIN_RESPONSE: A member receives its JOIN response and raises ID_CONFLICT if refused (R362). -/
def execJoinResponse (m : MsgHdr) (result : Byte) (s : State) : Out :=
  s.live (fun x => x.joinResponse m result)

/-- REPORT: A member's report of instances, streams and placements, from which the master forms master caps (R389). -/
def execReport (m : MsgHdr) (rseq : Half) (full : Bool) (entries : List Word64) (s : State) : Out :=
  s.live (fun x => x.report m rseq full entries)

/-- REPORT_SEND: A member sends a REPORT within 100 µs of a change, or a FULL report every 1 s (R388). -/
def execReportSend (full : Bool) (s : State) : Out :=
  s.live (fun x => x.reportSend full)

/-- REPORT_RESPONSE: The master's answer to a REPORT, allowing further power raises on placement chains (R391). -/
def execReportResponse (m : MsgHdr) (s : State) : Out :=
  s.live (fun x => x.reportResponse m)

/-- CAP: A master cap message received from upstream sets or clears a slot's master cap (R390). -/
def execCap (m : MsgHdr) (cseq : Half) (last : Bool) (entries : List CapEntry) (s : State) : Out :=
  s.live (fun x => x.capTake m cseq last entries)

/-- CAP_RESPONSE: A member's answer to a CAP message, received by the master (R389). -/
def execCapResponse (m : MsgHdr) (cseq : Half) (s : State) : Out :=
  s.live (fun x => x.capResponse m cseq)

/-- STREAM_REQ: A stream request received by a listening port, answered by result and scheduling the stream active at START (R380). -/
def execStreamReq (m : MsgHdr) (stream rate column phase : Byte) (start : Word64) (s : State) : Out :=
  s.live (fun x => x.streamReq m stream rate column phase start)

/-- STREAM_REQ_RESPONSE: The response to a STREAM_REQ moves a pending send stream towards ACTIVE or CLOSED (R380). -/
def execStreamReqResponse (m : MsgHdr) (result : Byte) (s : State) : Out :=
  s.live (fun x => x.streamReqResponse m result)

/-- STREAM_REQ_REPEAT: Every 10 ms an UNMATCHED send stream repeats its STREAM_REQ (R380). -/
def execStreamReqRepeat (port : Fin 4) (stream : Fin 12) (s : State) : Out :=
  s.live (fun x => x.streamReqRepeat port.val stream.val)

/-- STREAM_CLOSE: A stream close message from the partner moves a stream to UNMATCHED or LISTEN (R380). -/
def execStreamClose (m : MsgHdr) (stream : Byte) (s : State) : Out :=
  s.live (fun x => x.streamClose m stream)

/-- STREAM_START: At START a stream becomes ACTIVE, or a pending open that got no answer completes TIMEOUT_LOCK (R380). -/
def execStreamStart (port : Fin 4) (recv : Bool) (stream : Fin 12) (s : State) : Out :=
  s.live (fun x => x.streamStart port.val recv stream.val)

/-- STREAM_STOP: A closed send stream stops at the next schedule boundary (R381). -/
def execStreamStop (port : Fin 4) (stream : Fin 12) (s : State) : Out :=
  s.live (fun x => x.streamStop port.val stream.val)

/-- REQUEST_REISSUE: A request unanswered for JL_TIMEOUT is re-issued with the same MSEQ, and dropped after the third re-issue (R386). -/
def execRequestReissue (dst : Fin 16) (s : State) : Out :=
  s.live (fun x => x.reissue dst.val)

/-- MASTER_LOST: 100 ms without a first lock raises MASTER_LOST (R372). -/
def execMasterLost (s : State) : Out :=
  s.live (fun x => x.masterLost)

/-- CASCADE_HOLDOVER_TIMEOUT: 100 ms in HOLDOVER puts every slot with a master cap into WINTER with cause CASCADE (R392). -/
def execCascadeHoldoverTimeout (s : State) : Out :=
  s.live (fun x => x.holdoverTimeout)

/-- RECEIVE_STREAM_RAMP_DOWN: At the next chain-grid boundary after a receive-stream close, the placement ramps down over 64 chain-rate samples (R381). -/
def execReceiveStreamRampDown (port : Fin 4) (stream : Fin 12) (s : State) : Out :=
  s.live (fun x => x.streamRamp port.val stream.val)

end Sys2Proof.Machine
end

