-- ==== Sys2Proof/Machine/LoopTasks.lean ====
section
/-! DEFINITION. Task releases, dispatch and image loads of the loop engines (chapter 8). -/

namespace Sys2Proof.Machine

/-- TASK_RELEASE: A task release makes the task READY, and the engine applies the overrun rule if the last execution has not finished (R243). -/
def execTaskRelease (engine : Fin 128) (task : Fin 8) (s : State) : Out :=
  s.live (fun x => x.taskRelease engine.val task.val)

/-- TASK_DISPATCH: An idle engine starts its READY task of shortest period with fresh registers (R243). -/
def execTaskDispatch (engine : Fin 128) (s : State) : Out :=
  s.live (fun x => x.taskDispatch engine.val)

/-- TASK_TRAP: A trap discards a release's writes, records its cause and stops further releases (R246). -/
def execTaskTrap (engine : Fin 128) (cause : TrapCause) (s : State) : Out :=
  s.live (fun x => x.taskTrap engine.val cause)

/-- LE_LOAD_END: An image load ends; after a library load, the supervisor places and starts the library tasks (R248). -/
def execLeLoadEnd (s : State) : Out :=
  s.live (fun x => x.loadEnd)

end Sys2Proof.Machine
end

