-- ==== Sys2Proof/Machine/Ports.lean ====
section
/-! DEFINITION. The management port, the test access port, fault injection and factory access (chapters 9, 11, 14). -/

namespace Sys2Proof.Machine

/-- READ32: MP command 0x01 that reads one BAR0 register without clearing RC fields (R286). -/
def execRead32 (off : BitVec 24) (pec : Byte) (s : State) : Out :=
  s.live (fun x => x.mpRead32 off pec)

/-- REC_CURSOR: MP command 0x10 that sets MP's own recorder cursor (R286). -/
def execRecCursor (seq : BitVec 48) (pec : Byte) (s : State) : Out :=
  s.live (fun x => x.mpRecCursor seq pec)

/-- REC_READ: MP command 0x11 that returns 32 bytes of the recorder window at MP's cursor (R286). -/
def execRecRead (off : Half) (pec : Byte) (s : State) : Out :=
  s.live (fun x => x.mpRecRead off pec)

/-- FORCE_WINTER: MP command 0x40 that sets the MGMT cause in device scope at the frame's STOP (R287). -/
def execForceWinter (key pec : Byte) (s : State) : Out :=
  s.live (fun x => x.mpForce key pec)

/-- FORCE_WITHDRAW: MP command 0x41 that marks the MGMT cause cleared (R287). -/
def execForceWithdraw (key pec : Byte) (s : State) : Out :=
  s.live (fun x => x.mpWithdraw key pec)

/-- IDENT: MP command 0x7F that returns GEN_ID, stepping and CAS_ID (R286). -/
def execIdent (pec : Byte) (s : State) : Out :=
  s.live (fun x => x.mpIdent pec)

/-- EXTEST: TAP instruction 0x00 that drives the boundary register and sets the RESET cause in device scope (R409). -/
def execExtest (cells : BitVec 3412) (s : State) : Out :=
  .next ((s.scanSelect 0).bsrLoad cells)

/-- SAMPLE_PRELOAD: TAP instruction 0x01 that samples or preloads the boundary register (R408). -/
def execSamplePreload (cells : BitVec 3412) (s : State) : Out :=
  .next ((s.tapIr 1).bsrLoad cells)

/-- IDCODE: TAP instruction 0x02 that selects the 32-bit identification register (R408). -/
def execIdcode (s : State) : Out :=
  .next ((s.tapIr 2).tapShow 0x196325B3)

/-- CLAMP: TAP instruction 0x03 that clamps the pins and sets the RESET cause in device scope (R409). -/
def execClamp (s : State) : Out :=
  .next (s.scanSelect 3)

/-- HIGHZ: TAP instruction 0x04 that floats the outputs and sets the RESET cause in device scope (R409). -/
def execHighz (s : State) : Out :=
  .next (s.scanSelect 4)

/-- EXTEST_PULSE: TAP instruction 0x05, the IEEE 1149.6 pulse test, which sets the RESET cause in device scope (R409). -/
def execExtestPulse (cells : BitVec 3412) (s : State) : Out :=
  .next ((s.scanSelect 5).bsrLoad cells)

/-- EXTEST_TRAIN: TAP instruction 0x06, the IEEE 1149.6 train test, which sets the RESET cause in device scope (R409). -/
def execExtestTrain (cells : BitVec 3412) (s : State) : Out :=
  .next ((s.scanSelect 6).bsrLoad cells)

/-- BYPASS: TAP instruction 0xFF, or any unlisted code, which selects the bypass register (R408). -/
def execBypass (code : Byte) (s : State) : Out :=
  .next (if tapListed code then s else (s.tapIr code).tapShow 0)

/-- TAP_RESET: TRST_N low, or five TCK cycles with TMS high, resets the test access port alone (R408). -/
def execTapReset (s : State) : Out :=
  .next (s.tapIr 2)

/-- TMUXSEL: TAP data register update that selects a test multiplexer signal while TEST_EN is high (R410). -/
def execTmuxsel (dr : Word) (s : State) : Out :=
  s.live (fun x => x.tmuxSel dr)

/-- FLTINJ_RAISE_SOURCE: FLTINJ kind 1 raises a fault source of a block for an object, handled as a real fault and marked INJ (R330). -/
def execFltinjRaiseSource (blk src : Fin 16) (obj : Byte) (s : State) : Out :=
  s.live (fun x => x.inject (fun y => y.injRaise blk.val src.val obj.toNat))

/-- FLTINJ_INVERT_SEV_N: FLTINJ kind 2 inverts a block's stored SEV_N (R330). -/
def execFltinjInvertSevN (blk : Fin 16) (s : State) : Out :=
  s.live (fun x => x.inject (fun y => y.injSev blk.val))

/-- FLTINJ_INVERT_STATUS_COPY: FLTINJ kind 3 inverts the hidden copy of one STATUS bit (R330). -/
def execFltinjInvertStatusCopy (blk src : Fin 16) (s : State) : Out :=
  s.live (fun x => x.inject (fun y => y.injCopy (16 * blk.val + src.val)))

/-- FLTINJ_INVERT_SYMBOLS: FLTINJ kind 4 inverts bit 0 of selected symbols of a memory word (R330). -/
def execFltinjInvertSymbols (mask : BitVec 10) (addr : Word) (s : State) : Out :=
  s.live (fun x => x.inject (fun y => y.injSymbols mask addr.toNat))

/-- FLTINJ_INVERT_COMPLEMENT: FLTINJ kind 5 inverts the complement half of a complemented word (R330). -/
def execFltinjInvertComplement (addr : Word) (s : State) : Out :=
  s.live (fun x => x.inject (fun y => y.injCompl addr.toNat))

/-- FLTINJ_SUPPRESS_HEARTBEAT: FLTINJ kind 6 suppresses one supervisor engine's heartbeat for 2 ms (R325). -/
def execFltinjSuppressHeartbeat (le : Fin 4) (s : State) : Out :=
  s.live (fun x => x.inject (fun y => y.injHeartbeat le.val))

/-- TSTACC_READ_WORD: TSTACC operation 1 reads a test-address word, corrected if correctable (R412). -/
def execTstaccReadWord (addr : Word) (s : State) : Out :=
  s.live (fun x => x.tstRead addr.toNat)

/-- TSTACC_WRITE_WORD: TSTACC operation 2 writes a test-address word with fresh check bits (R412). -/
def execTstaccWriteWord (addr : Word) (data : Word64) (s : State) : Out :=
  s.live (fun x => x.tstWrite addr.toNat data)

/-- TSTACC_WRITE_OPH: TSTACC operation 3 writes OPH, ignored if below the present value (R339). -/
def execTstaccWriteOph (data : Word64) (s : State) : Out :=
  s.live (fun x => x.tstOph data)

/-- TSTACC_STAGE_IMAGE: TSTACC operation 4 writes data into the store-image staging area (R412). -/
def execTstaccStageImage (addr : Word) (data : Word64) (s : State) : Out :=
  s.live (fun x => x.tstStage addr.toNat data)

/-- TSTACC_RESTORE_IMAGE: TSTACC operation 5 restores the staged store image under device-scope WINTER and writes record 0x0002 (R341). -/
def execTstaccRestoreImage (s : State) : Out :=
  s.live (fun x => x.tstRestore)

/-- TSTACC_READ_REGISTER: TSTACC operation 6 reads a BAR0 register through TP's own latch without clearing RC fields (R412). -/
def execTstaccReadRegister (addr : Word) (s : State) : Out :=
  s.live (fun x => x.tstReg addr.toNat)

/-- TSTACC_FAULT_ACK: TSTACC operation 7 writes a block's fault ACK register from TP (R312). -/
def execTstaccFaultAck (addr : Word) (data : Word64) (s : State) : Out :=
  s.live (fun x => x.tstAck addr.toNat data)

/-- BAD_CMD: An MP write frame with a CMD that is not in Table 9-17 is answered with STATUS BAD_CMD and executes nothing (R286). -/
def execBadCmd (cmd : Byte) (args : List Byte) (pec : Byte) (s : State) : Out :=
  s.live (fun x => x.mpBad cmd args pec)

end Sys2Proof.Machine
end

