-- ==== Sys2Proof/Machine/ProtectionSteps.lean ====
section
/-! DEFINITION. Protection detectors, WINTER release, fault supervision (chapters 6, 11). -/

namespace Sys2Proof.Machine

/-- OSC_WINDOW: At the end of each OSC window the line and autocorrelation tests run and may put slots into WINTER with cause OSC (R178). -/
def execOscWindow (rx : Fin 32) (w : OscMeas) (s : State) : Out :=
  s.live (fun x => x.oscWindow rx.val w)

/-- BRIDGE_REOPEN: Net A that bridged a slot-scope WINTER ramps up again at its chain-grid boundary (R174). -/
def execBridgeReopen (chain : Fin 32) (s : State) : Out :=
  s.live (fun x => x.bridgeReopen chain.val)

/-- NRISE_EVAL: Every 1 ms the noise floor rise is evaluated, stepping clamps towards WINTER or recovering (R180). -/
def execNriseEval (rx : Fin 32) (floor : Int) (s : State) : Out :=
  s.live (fun x => x.nriseEval rx.val floor)

/-- DONOR_LOSS_EVAL: After 50 ms of a group's downlink slots below DL_MIN, the group's uplink slots enter WINTER; recovery clears the cause (R181). -/
def execDonorLossEval (group : Fin 64) (powers : List (Fin 256 × Int)) (s : State) : Out :=
  s.live (fun x => x.donorLossEval group.val powers)

/-- OOBE_WINDOW: Each 20 µs ACLR window counts towards power steps, hold release and WINTER with cause OOBE (R182). -/
def execOobeWindow (chain : Fin 32) (slots : List (Fin 256 × Int × Int)) (s : State) : Out :=
  s.live (fun x => x.oobeWindow chain.val slots)

/-- TDD_SYNC_LOSS_ENTRY: At the next on-period edge, or 1 ms after a sync loss, a chain enters WINTER with cause TDD_SYNC_LOSS (R183). -/
def execTddSyncLossEntry (chain : Fin 32) (s : State) : Out :=
  s.live (fun x => x.tddLossEntry chain.val)

/-- TEMP_SAMPLE: Each 1 ms sensor update fires TEMP_HI or TEMP_CRIT, or clears TEMP_CRIT (R184). -/
def execTempSample (sensor : Fin 5) (temp : Int) (s : State) : Out :=
  s.live (fun x => x.tempSample sensor.val temp)

/-- AUTH_CHECK: A periodic check, or one within 1 ms of a table change, of slot passbands against the authorisation table (R187). -/
def execAuthCheck (slot : Fin 256) (s : State) : Out :=
  s.live (fun x => (x.complSweep 0xC5000 0xC5800).authCheck slot.val)

/-- AUTH_STORE_END: The non-volatile write of an authorisation entry ends and the descriptor completes (R188). -/
def execAuthStoreEnd (entry : Fin 64) (s : State) : Out :=
  s.live (fun x => x.authStoreEnd entry.val)

/-- CAUSE_CLEAR_TIMER: A WINTER cause becomes cleared after its timed condition, such as 1 s since an OOBE or VSWR entry (R190). -/
def execCauseClearTimer (scope : WScope) (cause : Fin 16) (s : State) : Out :=
  s.live (fun x => x.causeClear (scopeOf scope) cause.val)

/-- RELEASE_PROOF_END: The gate, chain or tile proof of a release ends; failure completes WINTER_ACTIVE (R196). -/
def execReleaseProofEnd (scope : WScope) (passA passB : Word) (s : State) : Out :=
  s.live (fun x => x.releaseProof (scopeOf scope) passA passB)

/-- RELEASE_COMMIT: At the next chain-grid boundary after a passed proof PW_CAUSE clears, and the chain unmutes with its edges and restart level (R196). -/
def execReleaseCommit (scope : WScope) (s : State) : Out :=
  s.live (fun x => x.releaseCommit (scopeOf scope))

/-- NET_READBACK: Every 900 s the net control words, complements and drives are read back (R194). -/
def execNetReadback (following complementOk : Word) (s : State) : Out :=
  s.live (fun x => x.netReadback following complementOk)

/-- GRACE_EXPIRY: A grace timer expires and raises the bit's effective level to 3 (R317). -/
def execGraceExpiry (blk src : Fin 16) (s : State) : Out :=
  s.live (fun x => x.graceExpiry (16 * blk.val + src.val))

/-- SCRUB_CHECK: The background scrubber checks and corrects a memory word or register copy (R329). -/
def execScrubCheck (t : ScrubTarget) (s : State) : Out :=
  s.live (fun x => x.scrubCheck t)

/-- SCRUB_PASS_END: A scrub pass completes, raising SCRUB_LATE if it took longer than 1 s (R329). -/
def execScrubPassEnd (ms : Half) (s : State) : Out :=
  s.live (fun x => x.scrubPass ms)

/-- SUPERVISOR_HEARTBEAT: A supervisor engine writes its heartbeat to the FLT watchdog (R325). -/
def execSupervisorHeartbeat (le : Fin 4) (s : State) : Out :=
  s.live (fun x => x.heartbeatLe le.val)

/-- SUP_STALL: 1 ms without a heartbeat from a supervisor engine marks the supervisor stalled (R325). -/
def execSupStall (le : Fin 4) (s : State) : Out :=
  s.live (fun x => x.supStall le.val)

/-- ALIVE_HALF_PERIOD: At each 500 µs boundary ALIVE toggles, or is driven low or resumes according to its conditions (R324). -/
def execAliveHalfPeriod (s : State) : Out :=
  s.live (fun x => x.aliveHalf)

/-- SYMBOL_ERROR: A datapath or engine read of a symbol-coded word finds a correctable or uncorrectable error, which corrects or poisons the word and raises SYM_CORR or SYM_UNCORR (R328). -/
def execSymbolError (addr : Word) (s : State) : Out :=
  s.live (fun x => x.symFound addr.toNat false)

end Sys2Proof.Machine
end

