-- ==== Sys2Proof/Machine/RadioChains.lean ====
section
/-! DEFINITION. Tuning, chain states, calibration, TDD, FECB frames, power steps and VSWR (chapter 3). -/

namespace Sys2Proof.Machine

/-- SYNC_DETECTION: A PSS and SSS correlation on DET_CHAIN counts towards acquisition of a source 2 or 3 schedule (R79). -/
def execSyncDetection (sched : Fin 4) (s : State) : Out :=
  s.live (fun x => x.syncDetection sched.val)

/-- SYNC_LOSS: Missing edges or bursts put a schedule into HOLDOVER and raise TDD_SYNC_LOSS (R80). -/
def execSyncLoss (sched : Fin 4) (s : State) : Out :=
  s.live (fun x => x.syncLoss sched.val)

/-- TUNING_COMMIT: At a chain-grid boundary a tuning change commits: relock begins, the DC estimate restarts, instances reset and authorisation is rechecked (R63). -/
def execTuningCommit (dir : Dir) (chain : Fin 32) (s : State) : Out :=
  s.live (fun x => x.tuningCommit (chIdx dir chain.val))

/-- LOCK_REACHED: An LO or converter path reaches lock, completing tunes and resuming walks and held descriptors at the next boundary (R67). -/
def execLockReached (dir : Dir) (chain : Fin 32) (s : State) : Out :=
  s.live (fun x => x.lockReached (chIdx dir chain.val))

/-- LOCK_TIMEOUT: 160 µs without lock sets LOCK FAILED and completes pending tunes, walks and calibrations with TIMEOUT_LOCK (R67). -/
def execLockTimeout (dir : Dir) (chain : Fin 32) (s : State) : Out :=
  s.live (fun x => x.lockTimeout (chIdx dir chain.val))

/-- LOCK_LOST: A locked chain loses lock: LO_UNLOCK mutes it, drops it to SYNTH SETTLING and ends its calibrations (R72). -/
def execLockLost (dir : Dir) (chain : Fin 32) (s : State) : Out :=
  s.live (fun x => x.lockLost (chIdx dir chain.val))

/-- CHAIN_TRANSITION_END: A chain completes a transition between neighbouring states and continues its walk or completes its CHAIN_STATE (R65). -/
def execChainTransitionEnd (dir : Dir) (chain : Fin 32) (s : State) : Out :=
  s.live (fun x => x.chainTransitionEnd (chIdx dir chain.val))

/-- CHAIN_STATE_HELD_START: A held CHAIN_STATE takes effect at the first chain-grid boundary after the transient ahead of it ends (R69). -/
def execChainStateHeldStart (dir : Dir) (chain : Fin 32) (s : State) : Out :=
  s.live (fun x => x.chainHeldStart (chIdx dir chain.val))

/-- CAL_START: A queued calibration starts at the first boundary at which the chain is locked and the tile has a free place (R74). -/
def execCalStart (dir : Dir) (chain : Fin 32) (s : State) : Out :=
  s.live (fun x => x.calStart (chIdx dir chain.val))

/-- CAL_END: One foreground calibration ends with pass or fail, and the next one runs or the CAL_RUN completes (R74). -/
def execCalEnd (dir : Dir) (chain : Fin 32) (pass : Bool) (figure : Byte) (s : State) : Out :=
  s.live (fun x => x.calEnd (chIdx dir chain.val) pass figure)

/-- TDD_PERIOD_EDGE: The end of a TDD period on one antenna gates the leaving chain and starts the turnaround (R82). -/
def execTddPeriodEdge (sched : Fin 4) (service : Bool) (s : State) : Out :=
  s.live (fun x => x.tddPeriodEdge sched.val service)

/-- TURNAROUND_STEP: At T1, T2, T3 and 800 ns of a turnaround, the device moves PA_EN, TDDSW, LNAB or the chain gating (R82). -/
def execTurnaroundStep (sched : Fin 4) (service : Bool) (s : State) : Out :=
  s.live (fun x => x.turnStep sched.val service)

/-- FECB_FRAME_START: A bus starts its highest-priority queued frame, committing any power step it carries (R87). -/
def execFecbFrameStart (bus : Fin 8) (s : State) : Out :=
  s.live (fun x => x.frameStart bus.val)

/-- FECB_FRAME_END: A frame ends, completing a tuner or raw frame with its SDI bits (R86). -/
def execFecbFrameEnd (bus : Fin 8) (sdi : BitVec 24) (s : State) : Out :=
  s.live (fun x => x.frameEnd bus.val sdi)

/-- POWER_STEP_APPLY: PA_DLY after the PA frame, or at a chain-grid boundary, the DAC gain changes and TX_PWR shows the new index (R91). -/
def execPowerStepApply (chain : Fin 32) (s : State) : Out :=
  s.live (fun x => (x.complSweep 0x80000 0x90000).powerApply chain.val)

/-- POWER_TABLE_COMMIT: A checked power table is copied from staging into the chain's table (R90). -/
def execPowerTableCommit (chain : Fin 32) (s : State) : Out :=
  s.live (fun x => x.tableCommit chain.val)

/-- VSWR_WINDOW: Each 20 µs window evaluates return loss and acts on runs of bad windows by level (R93). -/
def execVswrWindow (chain : Fin 32) (whole : Bool) (psum prfl : Int) (s : State) : Out :=
  s.live (fun x => x.vswrWindow chain.val whole psum prfl)

/-- TUNER_SEARCH_TRIAL: The library tries one tuner word per frame, settling time and two valid windows, and keeps the best word (R94). -/
def execTunerSearchTrial (chain : Fin 32) (rl : Int) (s : State) : Out :=
  s.live (fun x => x.searchTrial chain.val rl)

/-- SAT_CHAIN: A chain-rate block with a sample beyond transmit full scale saturates, increments TXC_SATCNT and raises SAT_CHAIN (R45). -/
def execSatChain (chain : Fin 32) (s : State) : Out :=
  s.live (fun x => x.satChain chain.val)

/-- DCB_RANGE: The DC-blocking estimate exceeds 0.1 of full scale, which sets DCB_STATUS.RANGE and raises DCB_RANGE (R29). -/
def execDcbRange (rx : Fin 32) (estI estQ : Half) (s : State) : Out :=
  s.live (fun x => x.dcbRange rx.val estI estQ)

end Sys2Proof.Machine
end

