-- ==== Sys2Proof/Machine/Registers.lean ====
section
/-! DEFINITION. Doorbells, ring and register writes, reads with an effect, function reset and bus mastering. -/

namespace Sys2Proof.Machine

/-- CR_TAIL_DOORBELL: Command ring doorbell write; an invalid value stops the ring with DB_RANGE (R262). -/
def execCrTailDoorbell (ring : Fin 16) (v : Word) (s : State) : Out :=
  s.live (fun x => x.crTail ring.val v)

/-- CQ_HEAD_DOORBELL: Completion ring consumer doorbell write, checked for range (R262). -/
def execCqHeadDoorbell (ring : Fin 16) (v : Word) (s : State) : Out :=
  s.live (fun x => x.cqHead ring.val v)

/-- TR_HEAD_DOORBELL: Telemetry ring consumer doorbell write, checked for range (R262). -/
def execTrHeadDoorbell (ring : Fin 4) (v : Word) (s : State) : Out :=
  s.live (fun x => x.trHead ring.val v)

/-- ER_HEAD_DOORBELL: Event ring consumer doorbell write, checked for range (R262). -/
def execErHeadDoorbell (v : Word) (s : State) : Out :=
  s.live (fun x => x.erHead v)

/-- CR_ENABLE: Writing CR_CFG.EN = 1 on a DISABLED ring zeroes its pointers and sets it RUNNING (R266). -/
def execCrEnable (ring : Fin 16) (v : Word) (s : State) : Out :=
  s.live (fun x => x.crCfgWrite ring.val v)

/-- CR_DRAIN: Writing CR_CFG.EN = 0 stops taking descriptors and drains the ring towards DISABLED (R266). -/
def execCrDrain (ring : Fin 16) (v : Word) (s : State) : Out :=
  s.live (fun x => x.crCfgWrite ring.val v)

/-- CR_RESTART: Writing CR_CTL.RESTART resumes a STOPPED ring at HEAD when Bus Master Enable is set (R266). -/
def execCrRestart (ring : Fin 16) (v : Word) (s : State) : Out :=
  s.live (fun x => x.crRestart ring.val v)

/-- TR_CFG_WRITE: Enables a telemetry ring, or disables it and zeroes its pointers (R289). -/
def execTrCfgWrite (ring : Fin 4) (v : Word) (s : State) : Out :=
  s.live (fun x => x.trCfgWrite ring.val v)

/-- ER_CFG_WRITE: Enables the event ring, or disables it and zeroes its pointers (R289). -/
def execErCfgWrite (v : Word) (s : State) : Out :=
  s.live (fun x => x.erCfgWrite v)

/-- FUNCTION_RESET: A function-level reset, hot reset, link-down or D3hot entry disables rings, ends subscriptions and resets the HIF block (R256). -/
def execFunctionReset (s : State) : Out :=
  s.live (fun x => x.functionReset)

/-- BUS_MASTER_DISABLE: Clearing Bus Master Enable stops every running ring with CAUSE BME and suspends host writes (R257). -/
def execBusMasterDisable (s : State) : Out :=
  s.live (fun x => x.busMasterOff)

/-- UNSUPPORTED_ACCESS: A BAR0 or BAR2 access that is not an aligned 32-bit access completes as Unsupported Request and changes nothing (R6). -/
def execUnsupportedAccess (sp : RegSpace) (off size : Nat) (_write : Bool) (s : State) : Out :=
  s.live (fun x => if unsupportedOn sp off size then x.unsupported else x)

/-- REGISTER_WRITE: A write to a writable register that has no behaviour of its own sets its RW fields under its access codes (R7). -/
def execRegisterWrite (sp : RegSpace) (off : Nat) (v : Word) (s : State) : Out :=
  s.live (fun x => x.regWrite sp off v)

/-- READ_CLEAR: An HP read of an RC register returns its value and then clears the field (R7). -/
def execReadClear (off : Nat) (s : State) : Out :=
  s.live (fun x => x.readClear off)

/-- LO_HALF_READ: A read of a _LO register latches the matching _HI half into the reading port's own copy (R206). -/
def execLoHalfRead (port : RdPort) (off : Nat) (s : State) : Out :=
  s.live (fun x => x.portRead port off)

/-- SEV_WRITE: A write to a block's SEV register is checked as a complemented word, and fields below a floor are raised to that floor (R315). -/
def execSevWrite (blk : Fin 16) (which : Bool) (v : Word) (s : State) : Out :=
  s.live (fun x => x.sevWrite blk.val which v)

/-- FAULT_ACK: Writing 1 to a block ACK bit clears STATUS, stops grace and restores the effective level to SEV (R312). -/
def execFaultAck (blk : Fin 16) (v : Word) (s : State) : Out :=
  s.live (fun x => x.faultAck blk.val v)

/-- FLT_POLICY_WRITE: Writes the complemented fault policy word, unless LOCK is set or the halves do not complement (R323). -/
def execFltPolicyWrite (v : Word) (s : State) : Out :=
  s.live (fun x => x.policyWrite v)

/-- TIM_SLACK_CLR: Writing 1 sets every slack MIN to 100 and clears every MISS bit (R224). -/
def execTimSlackClr (v : Word) (s : State) : Out :=
  s.live (fun x => x.timSlackClr v)

/-- CH_CFG_WRITE: Writes a chain's role and schedule only while the affected chains are in SLEEP or STANDBY, or sets WR_BLOCKED (R77). -/
def execChCfgWrite (dir : Dir) (chain : Fin 32) (v : Word) (s : State) : Out :=
  s.live (fun x => x.chCfgWrite (chIdx dir chain.val) v)

/-- TDD_REGISTER_WRITE: Writes a schedule register only while every chain that follows the schedule is in SLEEP or STANDBY, or sets WR_BLOCKED (R77). -/
def execTddRegisterWrite (sched : Fin 4) (reg : Nat) (v : Word) (s : State) : Out :=
  s.live (fun x => x.tddRegWrite sched.val reg v)

/-- TDDSW_CFG_WRITE: Changes the TDDSW pin bindings only when the chains of both the old and new schedules are quiet, or ignores the whole write (R96). -/
def execTddswCfgWrite (v : Word) (s : State) : Out :=
  s.live (fun x => x.tddswWrite v)

/-- JL_PORT_CFG_WRITE: Sets a port's role and JL2 enable, ignoring writes that would give a member a second upstream port or the master any upstream port (R361). -/
def execJlPortCfgWrite (port : Fin 4) (v : Word) (s : State) : Out :=
  s.live (fun x => x.portCfgWrite port.val v)

/-- JL_AGRP_WRITE: Sets a chain's antenna group only while the chain is in SLEEP or STANDBY (R387). -/
def execJlAgrpWrite (dir : Dir) (chain : Fin 32) (v : Word) (s : State) : Out :=
  s.live (fun x => x.agrpWrite (chIdx dir chain.val) v)

/-- GEN_VID_WRITE: Writes the VID mode, ceiling and fixed code, which take effect at the next millisecond (R440). -/
def execGenVidWrite (v : Word) (s : State) : Out :=
  s.live (fun x => x.genVidWrite v)

/-- REC_CURSOR_HI_WRITE: Sets the recorder cursor, and the BAR4 window follows it at once (R353). -/
def execRecCursorHiWrite (v : Word) (s : State) : Out :=
  s.live (fun x => x.recCursorHi v)

/-- TST_TMUX_WRITE: Selects a test multiplexer signal from HP, only while DEV_EN is latched high (R410). -/
def execTstTmuxWrite (pin : Fin 8) (v : Word) (s : State) : Out :=
  s.live (fun x => x.tmuxWrite pin.val v)

end Sys2Proof.Machine
end

