-- ==== Sys2Proof/Machine/SlotSteps.lean ====
section
/-! DEFINITION. Slot states, banks and fades, gain ticks and caps (chapters 2, 5). -/

namespace Sys2Proof.Machine

/-- SLOT_ENABLE_BOUNDARY: At the enable boundary a configured slot enters SETTLING or HELD (R36). -/
def execSlotEnableBoundary (slot : Fin 256) (s : State) : Out :=
  s.live (fun x => x.slotEnableBoundary slot.val)

/-- SLOT_SETTLED: At a slot-grid boundary at least 2 × C / B after settling began, the slot becomes ACTIVE at its start level (R38). -/
def execSlotSettled (slot : Fin 256) (s : State) : Out :=
  s.live (fun x => x.slotSettled slot.val)

/-- SLOT_DISABLE_BOUNDARY: At the chain-grid boundary after commit, a slot's raised-cosine ramp-down begins (R37). -/
def execSlotDisableBoundary (slot : Fin 256) (s : State) : Out :=
  s.live (fun x => x.slotDisableBoundary slot.val)

/-- SLOT_DISABLE_END: At the end of the ramp-down the slot enters CONFIGURED and any fade is finished (R37). -/
def execSlotDisableEnd (slot : Fin 256) (s : State) : Out :=
  s.live (fun x => x.slotDisableEnd slot.val)

/-- SLOT_COEF_WRITTEN: A held or running coefficient load finishes writing the inactive bank (R46). -/
def execSlotCoefWritten (slot : Fin 256) (s : State) : Out :=
  s.live (fun x => x.slotCoefWritten slot.val)

/-- SLOT_SWAP_BEGIN: At a slot-grid boundary a swap commits and its cross-fade, or its hard swap, begins (R47). -/
def execSlotSwapBegin (slot : Fin 256) (s : State) : Out :=
  s.live (fun x => x.slotSwapBegin slot.val)

/-- SLOT_FADE_END: At k = L the new bank becomes active, the swap completes and held loads or queued swaps proceed (R47). -/
def execSlotFadeEnd (slot : Fin 256) (s : State) : Out :=
  s.live (fun x => x.slotFadeEnd slot.val)

/-- GAIN_TICK: Every 50 µs, each active slot updates its loop target and moves EFFECTIVE towards min(TARGET, CAP) under slew and hold (R136). -/
def execGainTick (meas : List LoopMeas) (s : State) : Out :=
  s.live (fun x => (x.complSweep 0xA0000 0xC2000).gainTick meas)

/-- CAP_CUT: At the chain-grid boundary after a lower cap is written, the accumulator is cut to the cap without slew (R137). -/
def execCapCut (slot : Fin 256) (s : State) : Out :=
  s.live (fun x => x.capCut slot.val)

/-- LUT_LOAD_END: A lookup-table load finishes writing the inactive bank, clears LOAD_BUSY and completes (R159). -/
def execLutLoadEnd (set : Fin 16) (s : State) : Out :=
  s.live (fun x => x.lutLoadEnd set.val)

/-- CAP_STALE: A governing instance's AGE passes 5,000 ms, which raises CAP_STALE and forces a recomputation of the affected caps at the fallback margin (R148). -/
def execCapStale (cx : Fin 64) (s : State) : Out :=
  s.live (fun x => (x.capStale cx.val).cxReport cx.val)

/-- SAT_SLOT: A slot block that needs an exponent above 31 saturates, increments SLOT_SATCNT and raises SAT_SLOT (R25). -/
def execSatSlot (slot : Fin 256) (s : State) : Out :=
  s.live (fun x => x.satSlot slot.val)

end Sys2Proof.Machine
end

