-- ==== Sys2Proof/Machine/Startup.lean ====
section
/-! DEFINITION. Reset, straps, rails, the stages of SPRING, and PFAIL_N (chapters 12, 14, 15). -/

namespace Sys2Proof.Machine

/-- SYS_RST_N_FALL: Reset assertion zeroes the DACs, drives front-end pins low, cuts FECB frames and resets every block except the TAP (R400). -/
def execSysRstNFall (s : State) : Out :=
  .next (s.resetFall)

/-- SYS_RST_N_RISE: Reset deassertion latches the straps, sets device WINTER with cause RESET and starts SPRING (R402). -/
def execSysRstNRise (s : State) : Out :=
  .next (s.resetRise)

/-- STRAP_PIN_CHANGE: A strap pin that changes after the latch sets CHANGED and raises STRAP_CHANGE (R402). -/
def execStrapPinChange (pins : Straps) (s : State) : Out :=
  .next (s.strapChange pins)

/-- FUSE_STAGE_END: SPRING stage 1 ends: fuses checked, VID follows GEN_VID, or SPRING stops on FUSE_FAIL (R403). -/
def execFuseStageEnd (ok : Bool) (vidFloor : BitVec 6) (s : State) : Out :=
  s.live (fun x => x.fuseEnd ok vidFloor)

/-- RECORDER_MOUNT: SPRING stage 2 ends: store mounted, PCC incremented, OPH resumed and authorisation table restored (R340). -/
def execRecorderMount (authOk : Bool) (s : State) : Out :=
  s.live (fun x => x.mountStage authOk)

/-- SUPERVISOR_BOOT: SPRING stage 3 ends: ROM checked, supervisor heartbeats running, MP answering and Jarond training begun (R403). -/
def execSupervisorBoot (romOk : Bool) (s : State) : Out :=
  s.live (fun x => x.bootStage romOk)

/-- MEMORY_SELF_TEST: SPRING stage 4 ends: march test of every coded memory and register copy, with BIST_FAIL on failures (R403). -/
def execMemorySelfTest (fails : List Word) (s : State) : Out :=
  s.live (fun x => x.bistStage fails)

/-- CLOCK_ALIGNMENT: SPRING stage 5 ends: converter clocks locked and every elastic buffer aligned on one frame edge (R207). -/
def execClockAlignment (s : State) : Out :=
  s.live (fun x => x.alignStage)

/-- SPRING_FAIL: CK0–CK3 are not locked 1 ms into stage 5 (R403). -/
def execSpringFail (s : State) : Out :=
  s.live (fun x => x.springFail)

/-- FRAME_ABSENT: No valid FRAME_IN pair arrives within 25 ms, so the master aligns on its internal frame (R207). -/
def execFrameAbsent (s : State) : Out :=
  s.live (fun x => x.frameAbsent)

/-- SPRING_PROOF: SPRING stage 6 ends after the tile proofs of CT0–CT3, with NET_PROOF on failing chains (R403). -/
def execSpringProof (passA passB : Word) (s : State) : Out :=
  s.live (fun x => x.proofStage passA passB)

/-- RELEASE_POINT: SPRING stage 7: the RESET cause becomes cleared and the device starts taking descriptors (R403). -/
def execReleasePoint (s : State) : Out :=
  s.live (fun x => x.releasePoint)

/-- PERST_N_DEASSERT: PERST_N deassertion starts PCI Express link training once stage 1 has ended (R404). -/
def execPerstNDeassert (s : State) : Out :=
  .next (s.perstRise)

/-- RAIL_UNDERVOLTAGE: A monitored rail below 92% for 1 µs acts as a reset and holds the device in reset (R423). -/
def execRailUndervoltage (_rail : Rail) (s : State) : Out :=
  .next (s.railDown)

/-- INTERNAL_RESET_END: After the rail has been within limits for 1 ms, the device latches the straps and runs SPRING (R423). -/
def execInternalResetEnd (s : State) : Out :=
  .next (s.railUp)

/-- PFAIL_N_FALL: Power-fail warning: closes recorder intake, writes record 0x0004 and flushes everything with a checkpoint (R349). -/
def execPfailNFall (s : State) : Out :=
  s.live (fun x => x.pfailFall)

/-- PFAIL_N_RETURN: After PFAIL_N has stayed high for 10 ms, the recorder reopens intake and writes record 0x0007 (R350). -/
def execPfailNReturn (s : State) : Out :=
  s.live (fun x => x.pfailReturn)

end Sys2Proof.Machine
end

