-- ==== Sys2Proof/Machine/Dispatch.lean ====
section
/-! DEFINITION. exec: one arm per command, each a direct call of its meaning. -/

namespace Sys2Proof.Machine

/-- The effect of a command on everything but the queue. -/
def exec (i : Instr) (s : State) : Host.Outcome State Fault Refusal :=
  match i with
  | .nop h => Sys2Proof.Machine.execNop h s
  | .fence h all => Sys2Proof.Machine.execFence h all s
  | .fenceAccept ring => Sys2Proof.Machine.execFenceAccept ring s
  | .abort h ring index => Sys2Proof.Machine.execAbort h ring index s
  | .slotConfig h slot preset rate destKind dest bw rxfreq txfreq pdly => Sys2Proof.Machine.execSlotConfig h slot preset rate destKind dest bw rxfreq txfreq pdly s
  | .slotEnable h slot => Sys2Proof.Machine.execSlotEnable h slot s
  | .slotDisable h slot => Sys2Proof.Machine.execSlotDisable h slot s
  | .slotGainSet h slot gain => Sys2Proof.Machine.execSlotGainSet h slot gain s
  | .slotCoefLoad h slot banktag nblk addr data => Sys2Proof.Machine.execSlotCoefLoad h slot banktag nblk addr data s
  | .slotBankSwap h slot xfade => Sys2Proof.Machine.execSlotBankSwap h slot xfade s
  | .chainState h chain dir target flags => Sys2Proof.Machine.execChainState h chain dir target flags s
  | .chainTune h chain dir mode losel fw ifofs pdly => Sys2Proof.Machine.execChainTune h chain dir mode losel fw ifofs pdly s
  | .calRun h chain dir mask => Sys2Proof.Machine.execCalRun h chain dir mask s
  | .txPowerStep h chain mode delta index at_ => Sys2Proof.Machine.execTxPowerStep h chain mode delta index at_ s
  | .txPowerTableLoad h chain addr data => Sys2Proof.Machine.execTxPowerTableLoad h chain addr data s
  | .tunerSet h chain wordT at_ => Sys2Proof.Machine.execTunerSet h chain wordT at_ s
  | .tunerSetRaw h bus cs len raw at_ => Sys2Proof.Machine.execTunerSetRaw h bus cs len raw at_ s
  | .cxAssign h cx release tx rx join bulk extRxg => Sys2Proof.Machine.execCxAssign h cx release tx rx join bulk extRxg s
  | .cxReset h cx => Sys2Proof.Machine.execCxReset h cx s
  | .cxResetSeed h cx xfade len addr data => Sys2Proof.Machine.execCxResetSeed h cx xfade len addr data s
  | .cxFreeze h freeze mask => Sys2Proof.Machine.execCxFreeze h freeze mask s
  | .gclLutLoad h set luttag addr data => Sys2Proof.Machine.execGclLutLoad h set luttag addr data s
  | .gclBankSwap h set => Sys2Proof.Machine.execGclBankSwap h set s
  | .gclSetpoint h slot fields flags setpoint win lutset slewUp slewDn margin => Sys2Proof.Machine.execGclSetpoint h slot fields flags setpoint win lutset slewUp slewDn margin s
  | .installationModel h cx isoMin isoMax rateMax => Sys2Proof.Machine.execInstallationModel h cx isoMin isoMax rateMax s
  | .protConfig h param object value => Sys2Proof.Machine.execProtConfig h param object value s
  | .authorisationWrite h entry w0 w1 w2 w3 w4 => Sys2Proof.Machine.execAuthorisationWrite h entry w0 w1 w2 w3 w4 s
  | .winterEnter h scope index reason => Sys2Proof.Machine.execWinterEnter h scope index reason s
  | .winterRelease h scope index override_ => Sys2Proof.Machine.execWinterRelease h scope index override_ s
  | .leImageLoad h first count len addr data => Sys2Proof.Machine.execLeImageLoad h first count len addr data s
  | .leTaskStart h engine task entry sev period phase nobj param data => Sys2Proof.Machine.execLeTaskStart h engine task entry sev period phase nobj param data s
  | .leTaskStop h engine task => Sys2Proof.Machine.execLeTaskStop h engine task s
  | .capture h point index trig shift len pre at_ addr => Sys2Proof.Machine.execCapture h point index trig shift len pre at_ addr s
  | .telemetrySubscribe h sub ring kind index mask period => Sys2Proof.Machine.execTelemetrySubscribe h sub ring kind index mask period s
  | .recNote h note data => Sys2Proof.Machine.execRecNote h note data s
  | .recFlush h => Sys2Proof.Machine.execRecFlush h s
  | .jlStreamOpen h port stream dir rate txch bw txfreq pdly => Sys2Proof.Machine.execJlStreamOpen h port stream dir rate txch bw txfreq pdly s
  | .jlStreamClose h port stream => Sys2Proof.Machine.execJlStreamClose h port stream s
  | .descriptorFetch f data => Sys2Proof.Machine.execDescriptorFetch f data s
  | .fetchRetry ring f data => Sys2Proof.Machine.execFetchRetry ring f data s
  | .crTailDoorbell ring v => Sys2Proof.Machine.execCrTailDoorbell ring v s
  | .cqHeadDoorbell ring v => Sys2Proof.Machine.execCqHeadDoorbell ring v s
  | .trHeadDoorbell ring v => Sys2Proof.Machine.execTrHeadDoorbell ring v s
  | .erHeadDoorbell v => Sys2Proof.Machine.execErHeadDoorbell v s
  | .crEnable ring v => Sys2Proof.Machine.execCrEnable ring v s
  | .crDrain ring v => Sys2Proof.Machine.execCrDrain ring v s
  | .crRestart ring v => Sys2Proof.Machine.execCrRestart ring v s
  | .trCfgWrite ring v => Sys2Proof.Machine.execTrCfgWrite ring v s
  | .erCfgWrite v => Sys2Proof.Machine.execErCfgWrite v s
  | .functionReset => Sys2Proof.Machine.execFunctionReset s
  | .busMasterDisable => Sys2Proof.Machine.execBusMasterDisable s
  | .unsupportedAccess sp off size write => Sys2Proof.Machine.execUnsupportedAccess sp off size write s
  | .registerWrite sp off v => Sys2Proof.Machine.execRegisterWrite sp off v s
  | .readClear off => Sys2Proof.Machine.execReadClear off s
  | .loHalfRead port off => Sys2Proof.Machine.execLoHalfRead port off s
  | .sevWrite blk which v => Sys2Proof.Machine.execSevWrite blk which v s
  | .faultAck blk v => Sys2Proof.Machine.execFaultAck blk v s
  | .fltPolicyWrite v => Sys2Proof.Machine.execFltPolicyWrite v s
  | .timSlackClr v => Sys2Proof.Machine.execTimSlackClr v s
  | .chCfgWrite dir chain v => Sys2Proof.Machine.execChCfgWrite dir chain v s
  | .tddRegisterWrite sched reg v => Sys2Proof.Machine.execTddRegisterWrite sched reg v s
  | .tddswCfgWrite v => Sys2Proof.Machine.execTddswCfgWrite v s
  | .jlPortCfgWrite port v => Sys2Proof.Machine.execJlPortCfgWrite port v s
  | .jlAgrpWrite dir chain v => Sys2Proof.Machine.execJlAgrpWrite dir chain v s
  | .genVidWrite v => Sys2Proof.Machine.execGenVidWrite v s
  | .recCursorHiWrite v => Sys2Proof.Machine.execRecCursorHiWrite v s
  | .tstTmuxWrite pin v => Sys2Proof.Machine.execTstTmuxWrite pin v s
  | .intcClaim => Sys2Proof.Machine.execIntcClaim s
  | .intcEoi v => Sys2Proof.Machine.execIntcEoi v s
  | .vecMaskSet half v => Sys2Proof.Machine.execVecMaskSet half v s
  | .vecMaskClr half v => Sys2Proof.Machine.execVecMaskClr half v s
  | .vecMaskRead half => Sys2Proof.Machine.execVecMaskRead half s
  | .vecPendSet half v => Sys2Proof.Machine.execVecPendSet half v s
  | .vecPendClr half v => Sys2Proof.Machine.execVecPendClr half v s
  | .srcEnSet w v => Sys2Proof.Machine.execSrcEnSet w v s
  | .srcEnClr w v => Sys2Proof.Machine.execSrcEnClr w v s
  | .srcLatSet w v => Sys2Proof.Machine.execSrcLatSet w v s
  | .srcLatClr w v => Sys2Proof.Machine.execSrcLatClr w v s
  | .srcCfgWrite src v => Sys2Proof.Machine.execSrcCfgWrite src v s
  | .vecCfgWrite vec v => Sys2Proof.Machine.execVecCfgWrite vec v s
  | .vecCoalWrite vec v => Sys2Proof.Machine.execVecCoalWrite vec v s
  | .prigroupWrite v => Sys2Proof.Machine.execPrigroupWrite v s
  | .vectorLaunch supervisor => Sys2Proof.Machine.execVectorLaunch supervisor s
  | .coalesceTimer vec => Sys2Proof.Machine.execCoalesceTimer vec s
  | .supervisorVector vec => Sys2Proof.Machine.execSupervisorVector vec s
  | .read32 off pec => Sys2Proof.Machine.execRead32 off pec s
  | .recCursor seq pec => Sys2Proof.Machine.execRecCursor seq pec s
  | .recRead off pec => Sys2Proof.Machine.execRecRead off pec s
  | .forceWinter key pec => Sys2Proof.Machine.execForceWinter key pec s
  | .forceWithdraw key pec => Sys2Proof.Machine.execForceWithdraw key pec s
  | .ident pec => Sys2Proof.Machine.execIdent pec s
  | .extest cells => Sys2Proof.Machine.execExtest cells s
  | .samplePreload cells => Sys2Proof.Machine.execSamplePreload cells s
  | .idcode => Sys2Proof.Machine.execIdcode s
  | .clamp => Sys2Proof.Machine.execClamp s
  | .highz => Sys2Proof.Machine.execHighz s
  | .extestPulse cells => Sys2Proof.Machine.execExtestPulse cells s
  | .extestTrain cells => Sys2Proof.Machine.execExtestTrain cells s
  | .bypass code => Sys2Proof.Machine.execBypass code s
  | .tapReset => Sys2Proof.Machine.execTapReset s
  | .tmuxsel dr => Sys2Proof.Machine.execTmuxsel dr s
  | .fltinjRaiseSource blk src obj => Sys2Proof.Machine.execFltinjRaiseSource blk src obj s
  | .fltinjInvertSevN blk => Sys2Proof.Machine.execFltinjInvertSevN blk s
  | .fltinjInvertStatusCopy blk src => Sys2Proof.Machine.execFltinjInvertStatusCopy blk src s
  | .fltinjInvertSymbols mask addr => Sys2Proof.Machine.execFltinjInvertSymbols mask addr s
  | .fltinjInvertComplement addr => Sys2Proof.Machine.execFltinjInvertComplement addr s
  | .fltinjSuppressHeartbeat le => Sys2Proof.Machine.execFltinjSuppressHeartbeat le s
  | .tstaccReadWord addr => Sys2Proof.Machine.execTstaccReadWord addr s
  | .tstaccWriteWord addr data => Sys2Proof.Machine.execTstaccWriteWord addr data s
  | .tstaccWriteOph data => Sys2Proof.Machine.execTstaccWriteOph data s
  | .tstaccStageImage addr data => Sys2Proof.Machine.execTstaccStageImage addr data s
  | .tstaccRestoreImage => Sys2Proof.Machine.execTstaccRestoreImage s
  | .tstaccReadRegister addr => Sys2Proof.Machine.execTstaccReadRegister addr s
  | .tstaccFaultAck addr data => Sys2Proof.Machine.execTstaccFaultAck addr data s
  | .sysRstNFall => Sys2Proof.Machine.execSysRstNFall s
  | .sysRstNRise => Sys2Proof.Machine.execSysRstNRise s
  | .strapPinChange pins => Sys2Proof.Machine.execStrapPinChange pins s
  | .fuseStageEnd ok vidFloor => Sys2Proof.Machine.execFuseStageEnd ok vidFloor s
  | .recorderMount authOk => Sys2Proof.Machine.execRecorderMount authOk s
  | .supervisorBoot romOk => Sys2Proof.Machine.execSupervisorBoot romOk s
  | .memorySelfTest fails => Sys2Proof.Machine.execMemorySelfTest fails s
  | .clockAlignment => Sys2Proof.Machine.execClockAlignment s
  | .springFail => Sys2Proof.Machine.execSpringFail s
  | .frameAbsent => Sys2Proof.Machine.execFrameAbsent s
  | .springProof passA passB => Sys2Proof.Machine.execSpringProof passA passB s
  | .releasePoint => Sys2Proof.Machine.execReleasePoint s
  | .perstNDeassert => Sys2Proof.Machine.execPerstNDeassert s
  | .railUndervoltage rail => Sys2Proof.Machine.execRailUndervoltage rail s
  | .internalResetEnd => Sys2Proof.Machine.execInternalResetEnd s
  | .pfailNFall => Sys2Proof.Machine.execPfailNFall s
  | .pfailNReturn => Sys2Proof.Machine.execPfailNReturn s
  | .referenceLoss tiles refLost => Sys2Proof.Machine.execReferenceLoss tiles refLost s
  | .tileRealign tile => Sys2Proof.Machine.execTileRealign tile s
  | .elasticBufferSlip dir chain distance => Sys2Proof.Machine.execElasticBufferSlip dir chain distance s
  | .frameInEdge => Sys2Proof.Machine.execFrameInEdge s
  | .syncDetection sched => Sys2Proof.Machine.execSyncDetection sched s
  | .syncLoss sched => Sys2Proof.Machine.execSyncLoss sched s
  | .frameEdge => Sys2Proof.Machine.execFrameEdge s
  | .tuningCommit dir chain => Sys2Proof.Machine.execTuningCommit dir chain s
  | .lockReached dir chain => Sys2Proof.Machine.execLockReached dir chain s
  | .lockTimeout dir chain => Sys2Proof.Machine.execLockTimeout dir chain s
  | .lockLost dir chain => Sys2Proof.Machine.execLockLost dir chain s
  | .chainTransitionEnd dir chain => Sys2Proof.Machine.execChainTransitionEnd dir chain s
  | .chainStateHeldStart dir chain => Sys2Proof.Machine.execChainStateHeldStart dir chain s
  | .calStart dir chain => Sys2Proof.Machine.execCalStart dir chain s
  | .calEnd dir chain pass figure => Sys2Proof.Machine.execCalEnd dir chain pass figure s
  | .tddPeriodEdge sched service => Sys2Proof.Machine.execTddPeriodEdge sched service s
  | .turnaroundStep sched service => Sys2Proof.Machine.execTurnaroundStep sched service s
  | .fecbFrameStart bus => Sys2Proof.Machine.execFecbFrameStart bus s
  | .fecbFrameEnd bus sdi => Sys2Proof.Machine.execFecbFrameEnd bus sdi s
  | .powerStepApply chain => Sys2Proof.Machine.execPowerStepApply chain s
  | .powerTableCommit chain => Sys2Proof.Machine.execPowerTableCommit chain s
  | .vswrWindow chain whole psum prfl => Sys2Proof.Machine.execVswrWindow chain whole psum prfl s
  | .tunerSearchTrial chain rl => Sys2Proof.Machine.execTunerSearchTrial chain rl s
  | .slotEnableBoundary slot => Sys2Proof.Machine.execSlotEnableBoundary slot s
  | .slotSettled slot => Sys2Proof.Machine.execSlotSettled slot s
  | .slotDisableBoundary slot => Sys2Proof.Machine.execSlotDisableBoundary slot s
  | .slotDisableEnd slot => Sys2Proof.Machine.execSlotDisableEnd slot s
  | .slotCoefWritten slot => Sys2Proof.Machine.execSlotCoefWritten slot s
  | .slotSwapBegin slot => Sys2Proof.Machine.execSlotSwapBegin slot s
  | .slotFadeEnd slot => Sys2Proof.Machine.execSlotFadeEnd slot s
  | .deadlineMiss level => Sys2Proof.Machine.execDeadlineMiss level s
  | .slackCheck tile reports => Sys2Proof.Machine.execSlackCheck tile reports s
  | .autumnStageAdvance tile => Sys2Proof.Machine.execAutumnStageAdvance tile s
  | .autumnExit tile => Sys2Proof.Machine.execAutumnExit tile s
  | .vidRaise => Sys2Proof.Machine.execVidRaise s
  | .vidLower => Sys2Proof.Machine.execVidLower s
  | .gainTick meas => Sys2Proof.Machine.execGainTick meas s
  | .capCut slot => Sys2Proof.Machine.execCapCut slot s
  | .cxCycle cx c => Sys2Proof.Machine.execCxCycle cx c s
  | .cxWindowClose cx w => Sys2Proof.Machine.execCxWindowClose cx w s
  | .cxSearchEnd cx peak overMean samples => Sys2Proof.Machine.execCxSearchEnd cx peak overMean samples s
  | .cxSeedLoaded cx => Sys2Proof.Machine.execCxSeedLoaded cx s
  | .cxSeedScreenEnd cx validBlocks em esh => Sys2Proof.Machine.execCxSeedScreenEnd cx validBlocks em esh s
  | .cxSeedFadeEnd cx => Sys2Proof.Machine.execCxSeedFadeEnd cx s
  | .oscWindow rx w => Sys2Proof.Machine.execOscWindow rx w s
  | .bridgeReopen chain => Sys2Proof.Machine.execBridgeReopen chain s
  | .nriseEval rx floor => Sys2Proof.Machine.execNriseEval rx floor s
  | .donorLossEval group powers => Sys2Proof.Machine.execDonorLossEval group powers s
  | .oobeWindow chain slots => Sys2Proof.Machine.execOobeWindow chain slots s
  | .tddSyncLossEntry chain => Sys2Proof.Machine.execTddSyncLossEntry chain s
  | .tempSample sensor temp => Sys2Proof.Machine.execTempSample sensor temp s
  | .authCheck slot => Sys2Proof.Machine.execAuthCheck slot s
  | .authStoreEnd entry => Sys2Proof.Machine.execAuthStoreEnd entry s
  | .causeClearTimer scope cause => Sys2Proof.Machine.execCauseClearTimer scope cause s
  | .releaseProofEnd scope passA passB => Sys2Proof.Machine.execReleaseProofEnd scope passA passB s
  | .releaseCommit scope => Sys2Proof.Machine.execReleaseCommit scope s
  | .netReadback following complementOk => Sys2Proof.Machine.execNetReadback following complementOk s
  | .graceExpiry blk src => Sys2Proof.Machine.execGraceExpiry blk src s
  | .scrubCheck t => Sys2Proof.Machine.execScrubCheck t s
  | .scrubPassEnd ms => Sys2Proof.Machine.execScrubPassEnd ms s
  | .supervisorHeartbeat le => Sys2Proof.Machine.execSupervisorHeartbeat le s
  | .supStall le => Sys2Proof.Machine.execSupStall le s
  | .aliveHalfPeriod => Sys2Proof.Machine.execAliveHalfPeriod s
  | .taskRelease engine task => Sys2Proof.Machine.execTaskRelease engine task s
  | .taskDispatch engine => Sys2Proof.Machine.execTaskDispatch engine s
  | .taskTrap engine cause => Sys2Proof.Machine.execTaskTrap engine cause s
  | .leLoadEnd => Sys2Proof.Machine.execLeLoadEnd s
  | .add e gd ga gb => Sys2Proof.Machine.execAdd e gd ga gb s
  | .sub e gd ga gb => Sys2Proof.Machine.execSub e gd ga gb s
  | .and_ e gd ga gb => Sys2Proof.Machine.execAnd e gd ga gb s
  | .or_ e gd ga gb => Sys2Proof.Machine.execOr e gd ga gb s
  | .xor_ e gd ga gb => Sys2Proof.Machine.execXor e gd ga gb s
  | .sll e gd ga gb => Sys2Proof.Machine.execSll e gd ga gb s
  | .srl e gd ga gb => Sys2Proof.Machine.execSrl e gd ga gb s
  | .sra e gd ga gb => Sys2Proof.Machine.execSra e gd ga gb s
  | .mul e gd ga gb => Sys2Proof.Machine.execMul e gd ga gb s
  | .mulh e gd ga gb => Sys2Proof.Machine.execMulh e gd ga gb s
  | .slt e gd ga gb => Sys2Proof.Machine.execSlt e gd ga gb s
  | .sltu e gd ga gb => Sys2Proof.Machine.execSltu e gd ga gb s
  | .min_ e gd ga gb => Sys2Proof.Machine.execMin e gd ga gb s
  | .max_ e gd ga gb => Sys2Proof.Machine.execMax e gd ga gb s
  | .adds e gd ga gb => Sys2Proof.Machine.execAdds e gd ga gb s
  | .subs e gd ga gb => Sys2Proof.Machine.execSubs e gd ga gb s
  | .clz e gd ga => Sys2Proof.Machine.execClz e gd ga s
  | .lg2 e gd ga => Sys2Proof.Machine.execLg2 e gd ga s
  | .ex2 e gd ga => Sys2Proof.Machine.execEx2 e gd ga s
  | .addi e gd ga imm => Sys2Proof.Machine.execAddi e gd ga imm s
  | .andi e gd ga imm => Sys2Proof.Machine.execAndi e gd ga imm s
  | .ori e gd ga imm => Sys2Proof.Machine.execOri e gd ga imm s
  | .xori e gd ga imm => Sys2Proof.Machine.execXori e gd ga imm s
  | .slti e gd ga imm => Sys2Proof.Machine.execSlti e gd ga imm s
  | .lui e gd imm => Sys2Proof.Machine.execLui e gd imm s
  | .slli e gd ga sh => Sys2Proof.Machine.execSlli e gd ga sh s
  | .srli e gd ga sh => Sys2Proof.Machine.execSrli e gd ga sh s
  | .srai e gd ga sh => Sys2Proof.Machine.execSrai e gd ga sh s
  | .ldw e gd ga imm => Sys2Proof.Machine.execLdw e gd ga imm s
  | .stw e gs ga imm => Sys2Proof.Machine.execStw e gs ga imm s
  | .ldh e gd ga imm => Sys2Proof.Machine.execLdh e gd ga imm s
  | .sth e gs ga imm => Sys2Proof.Machine.execSth e gs ga imm s
  | .beq e ga gb ofs => Sys2Proof.Machine.execBeq e ga gb ofs s
  | .bne e ga gb ofs => Sys2Proof.Machine.execBne e ga gb ofs s
  | .blt e ga gb ofs => Sys2Proof.Machine.execBlt e ga gb ofs s
  | .bge e ga gb ofs => Sys2Proof.Machine.execBge e ga gb ofs s
  | .bltu e ga gb ofs => Sys2Proof.Machine.execBltu e ga gb ofs s
  | .bgeu e ga gb ofs => Sys2Proof.Machine.execBgeu e ga gb ofs s
  | .jal e ofs => Sys2Proof.Machine.execJal e ofs s
  | .jalr e gd ga imm => Sys2Proof.Machine.execJalr e gd ga imm s
  | .prd e g gi paddr live => Sys2Proof.Machine.execPrd e g gi paddr live s
  | .pwr e g gi paddr => Sys2Proof.Machine.execPwr e g gi paddr s
  | .prdc e g gi paddr => Sys2Proof.Machine.execPrdc e g gi paddr s
  | .pwrc e g gi paddr => Sys2Proof.Machine.execPwrc e g gi paddr s
  | .vadd e vd va vb => Sys2Proof.Machine.execVadd e vd va vb s
  | .vsub e vd va vb => Sys2Proof.Machine.execVsub e vd va vb s
  | .vmul e vd va vb => Sys2Proof.Machine.execVmul e vd va vb s
  | .vcmul e vd va vb => Sys2Proof.Machine.execVcmul e vd va vb s
  | .vcmulj e vd va vb => Sys2Proof.Machine.execVcmulj e vd va vb s
  | .vdot e vd va vb => Sys2Proof.Machine.execVdot e vd va vb s
  | .vener e vd va => Sys2Proof.Machine.execVener e vd va s
  | .vshx e vd va gb => Sys2Proof.Machine.execVshx e vd va gb s
  | .vmov e vd va => Sys2Proof.Machine.execVmov e vd va s
  | .vext e gd va lane frac => Sys2Proof.Machine.execVext e gd va lane frac s
  | .vins e vd ga lane frac => Sys2Proof.Machine.execVins e vd ga lane frac s
  | .vld e vd ga imm => Sys2Proof.Machine.execVld e vd ga imm s
  | .vst e vd ga imm => Sys2Proof.Machine.execVst e vd ga imm s
  | .nopInstruction e => Sys2Proof.Machine.execNopInstruction e s
  | .wait e => Sys2Proof.Machine.execWait e s
  | .trap e => Sys2Proof.Machine.execTrap e s
  | .telemetrySnapshot sub meas => Sys2Proof.Machine.execTelemetrySnapshot sub meas s
  | .captureStart => Sys2Proof.Machine.execCaptureStart s
  | .captureEnd oldest samples => Sys2Proof.Machine.execCaptureEnd oldest samples s
  | .eventCopy => Sys2Proof.Machine.execEventCopy s
  | .flushStart => Sys2Proof.Machine.execFlushStart s
  | .flushEnd badVerify => Sys2Proof.Machine.execFlushEnd badVerify s
  | .periodicFlush => Sys2Proof.Machine.execPeriodicFlush s
  | .summaryRecord code => Sys2Proof.Machine.execSummaryRecord code s
  | .linkTrainingStep port r => Sys2Proof.Machine.execLinkTrainingStep port r s
  | .trainingRestart port => Sys2Proof.Machine.execTrainingRestart port s
  | .linkHeader port hdr => Sys2Proof.Machine.execLinkHeader port hdr s
  | .headerLoss port => Sys2Proof.Machine.execHeaderLoss port s
  | .blockErrorRate port errors => Sys2Proof.Machine.execBlockErrorRate port errors s
  | .streamCell port stream cell => Sys2Proof.Machine.execStreamCell port stream cell s
  | .messageRetransmit port => Sys2Proof.Machine.execMessageRetransmit port s
  | .retryExhausted port => Sys2Proof.Machine.execRetryExhausted port s
  | .heartbeat m epoch ndev => Sys2Proof.Machine.execHeartbeat m epoch ndev s
  | .heartbeatSend => Sys2Proof.Machine.execHeartbeatSend s
  | .heartbeatLoss => Sys2Proof.Machine.execHeartbeatLoss s
  | .time m dt framePh depth => Sys2Proof.Machine.execTime m dt framePh depth s
  | .timeSend port => Sys2Proof.Machine.execTimeSend port s
  | .delayReq m t1 t2 t3 => Sys2Proof.Machine.execDelayReq m t1 t2 t3 s
  | .delayResp m t1 t2 t3 t4 => Sys2Proof.Machine.execDelayResp m t1 t2 t3 t4 s
  | .join m pver upport reach => Sys2Proof.Machine.execJoin m pver upport reach s
  | .joinResponse m result => Sys2Proof.Machine.execJoinResponse m result s
  | .report m rseq full entries => Sys2Proof.Machine.execReport m rseq full entries s
  | .reportSend full => Sys2Proof.Machine.execReportSend full s
  | .reportResponse m => Sys2Proof.Machine.execReportResponse m s
  | .cap m cseq last entries => Sys2Proof.Machine.execCap m cseq last entries s
  | .capResponse m cseq => Sys2Proof.Machine.execCapResponse m cseq s
  | .streamReq m stream rate column phase start => Sys2Proof.Machine.execStreamReq m stream rate column phase start s
  | .streamReqResponse m result => Sys2Proof.Machine.execStreamReqResponse m result s
  | .streamReqRepeat port stream => Sys2Proof.Machine.execStreamReqRepeat port stream s
  | .streamClose m stream => Sys2Proof.Machine.execStreamClose m stream s
  | .streamStart port recv stream => Sys2Proof.Machine.execStreamStart port recv stream s
  | .streamStop port stream => Sys2Proof.Machine.execStreamStop port stream s
  | .requestReissue dst => Sys2Proof.Machine.execRequestReissue dst s
  | .masterLost => Sys2Proof.Machine.execMasterLost s
  | .cascadeHoldoverTimeout => Sys2Proof.Machine.execCascadeHoldoverTimeout s
  | .referenceReturn tiles => Sys2Proof.Machine.execReferenceReturn tiles s
  | .cxFreezeBoundary => Sys2Proof.Machine.execCxFreezeBoundary s
  | .cxResetBoundary cx => Sys2Proof.Machine.execCxResetBoundary cx s
  | .receiveStreamRampDown port stream => Sys2Proof.Machine.execReceiveStreamRampDown port stream s
  | .lutLoadEnd set => Sys2Proof.Machine.execLutLoadEnd set s
  | .capStale cx => Sys2Proof.Machine.execCapStale cx s
  | .badCmd cmd args pec => Sys2Proof.Machine.execBadCmd cmd args pec s
  | .satSlot slot => Sys2Proof.Machine.execSatSlot slot s
  | .satChain chain => Sys2Proof.Machine.execSatChain chain s
  | .dcbRange rx estI estQ => Sys2Proof.Machine.execDcbRange rx estI estQ s
  | .symbolError addr => Sys2Proof.Machine.execSymbolError addr s

end Sys2Proof.Machine
end

