-- ==== Sys2Proof/Safety.lean ====
section
/-! DEFINITION. What a good run is, in the terms the statements use: the device out of reset, and what two states have in common. -/

namespace Sys2Proof.Machine

/-- The device is out of reset: SYS_RST_N is high and no rail fault holds it (R400, R423). -/
def State.runs (s : State) : Prop := s.tst.inReset = false

/-- Word w of a bit array, written v, names element n: 32 elements a word (R304, R307). -/
def named (w : Nat) (v : Word) (n : Nat) : Bool := decide (n / 32 = w) && v.getLsbD (n % 32)

/-! ## One element of one part has changed -/

/-- From s to t at most chain i has changed. -/
def State.onlyChain (s t : State) (i : Nat) : Prop := t = { s with rfe := { s.rfe with chains := t.rfe.chains } } ∧ ∀ j, j ≠ i → t.chain j = s.chain j

/-- From s to t at most the transmit-chain state of TXi has changed. -/
def State.onlyTxc (s t : State) (i : Nat) : Prop := t = { s with rfe := { s.rfe with tx := t.rfe.tx } } ∧ ∀ j, j ≠ i → t.txc j = s.txc j

/-- From s to t at most the DC-blocking stage of RXi has changed. -/
def State.onlyDcb (s t : State) (i : Nat) : Prop := t = { s with rfe := { s.rfe with dcb := t.rfe.dcb } } ∧ ∀ j, j ≠ i → t.dcb j = s.dcb j

/-- From s to t at most front-end bus i has changed. -/
def State.onlyFecb (s t : State) (i : Nat) : Prop := t = { s with rfe := { s.rfe with fecb := t.rfe.fecb } } ∧ ∀ j, j ≠ i → t.fecb j = s.fecb j

/-- From s to t at most TDD schedule i has changed. -/
def State.onlySched (s t : State) (i : Nat) : Prop := t = { s with rfe := { s.rfe with scheds := t.rfe.scheds } } ∧ ∀ j, j ≠ i → t.sched j = s.sched j

/-- From s to t at most slot i has changed. -/
def State.onlySlot (s t : State) (i : Nat) : Prop := t = { s with slots := t.slots } ∧ ∀ j, j ≠ i → t.slot j = s.slot j

/-- From s to t at most canceller instance i has changed. -/
def State.onlyInst (s t : State) (i : Nat) : Prop := t = { s with cx := t.cx } ∧ ∀ j, j ≠ i → t.inst j = s.inst j

/-- From s to t at most the gain stage of slot i has changed. -/
def State.onlyGain (s t : State) (i : Nat) : Prop := t = { s with gcl := t.gcl } ∧ ∀ j, j ≠ i → t.gain j = s.gain j

/-- From s to t at most lookup-table set i has changed. -/
def State.onlyLut (s t : State) (i : Nat) : Prop := t = { s with luts := t.luts } ∧ ∀ j, j ≠ i → t.lut j = s.lut j

/-- From s to t at most scope object i has changed. -/
def State.onlyWobj (s t : State) (i : Nat) : Prop := t = { s with prot := { s.prot with objs := t.prot.objs } } ∧ ∀ j, j ≠ i → t.wobj j = s.wobj j

/-- From s to t at most the mute nets of TXi has changed. -/
def State.onlyNet (s t : State) (i : Nat) : Prop := t = { s with prot := { s.prot with nets := t.prot.nets } } ∧ ∀ j, j ≠ i → t.net j = s.net j

/-- From s to t at most the detectors of RXi has changed. -/
def State.onlyRxDet (s t : State) (i : Nat) : Prop := t = { s with prot := { s.prot with rx := t.prot.rx } } ∧ ∀ j, j ≠ i → t.rxDet j = s.rxDet j

/-- From s to t at most command ring i has changed. -/
def State.onlyRing (s t : State) (i : Nat) : Prop := t = { s with hif := { s.hif with rings := t.hif.rings } } ∧ ∀ j, j ≠ i → t.ring j = s.ring j

/-- From s to t at most telemetry ring i has changed. -/
def State.onlyTrRing (s t : State) (i : Nat) : Prop := t = { s with hif := { s.hif with tr := t.hif.tr } } ∧ ∀ j, j ≠ i → t.trRing j = s.trRing j

/-- From s to t at most interrupt vector i has changed. -/
def State.onlyVec (s t : State) (i : Nat) : Prop := t = { s with intc := { s.intc with vecs := t.intc.vecs } } ∧ ∀ j, j ≠ i → t.vec j = s.vec j

/-- From s to t at most fault source i has changed. -/
def State.onlyFsrc (s t : State) (i : Nat) : Prop := t = { s with flt := { s.flt with srcs := t.flt.srcs } } ∧ ∀ j, j ≠ i → t.fsrc j = s.fsrc j

/-- From s to t at most the timing of tile i has changed. -/
def State.onlyTileT (s t : State) (i : Nat) : Prop := t = { s with tim := { s.tim with tiles := t.tim.tiles } } ∧ ∀ j, j ≠ i → t.tileT j = s.tileT j

/-- From s to t at most loop engine i has changed. -/
def State.onlyEng (s t : State) (i : Nat) : Prop := t = { s with le := { s.le with engs := t.le.engs } } ∧ ∀ j, j ≠ i → t.eng j = s.eng j

/-- From s to t at most task i has changed. -/
def State.onlyTask (s t : State) (i : Nat) : Prop := t = { s with le := { s.le with tasks := t.le.tasks } } ∧ ∀ j, j ≠ i → t.task j = s.task j

/-- From s to t at most Jarond port i has changed. -/
def State.onlyPort (s t : State) (i : Nat) : Prop := t = { s with jl := { s.jl with ports := t.jl.ports } } ∧ ∀ j, j ≠ i → t.port j = s.port j

/-- From s to t at most stream i has changed. -/
def State.onlyStrm (s t : State) (i : Nat) : Prop := t = { s with jl := { s.jl with strs := t.jl.strs } } ∧ ∀ j, j ≠ i → t.strm j = s.strm j

/-- From s to t at most the token bucket of code i has changed. -/
def State.onlyBucket (s t : State) (i : Nat) : Prop := t = { s with recd := { s.recd with buckets := t.recd.buckets } } ∧ ∀ j, j ≠ i → t.bucket j = s.bucket j

/-! ## Interrupt vectors -/

/-- From s to t vector v has been claimed, and no other vector has changed (R296, R302, R307). -/
def State.Claimed (s : State) (v : Nat) (t : State) : Prop :=
  (∀ u, u ≠ v → t.vec u = s.vec u) ∧
  t.vec v = { s.vec v with pend := false, active := true, ripe := false, evcnt := 0, first := none, seen := s.vecHot v,
                           launches := satInc 0xFFFFFFFF (s.vec v).launches, cntUse := (s.vec v).cnt, timeUse := (s.vec v).time }

/-- From s to t vector v has been completed, and nothing else has changed (R300-R302): it is not ACTIVE, it is pending again when an enabled level source is asserted, and a claim without SEEN is counted. -/
def State.Ended (s : State) (v : Nat) (t : State) : Prop :=
  t = { s with intc := { s.intc with vecs := t.intc.vecs } } ∧ (∀ u, u ≠ v → t.vec u = s.vec u) ∧
  (t.vec v).active = false ∧ (t.vec v).seen = ((s.vec v).seen || s.vecHot v) ∧ (t.vec v).pend = ((s.vec v).pend || s.vecLevel v) ∧
  ((s.vec v).ripe = true → (t.vec v).ripe = true) ∧ (s.vecLevel v = false → (t.vec v).ripe = (s.vec v).ripe) ∧
  (t.vec v).spur = if (s.vec v).seen || s.vecHot v then (s.vec v).spur else satInc 0xFFFF (s.vec v).spur

/-! ## What an alarm may change -/

/-- Everything that raising a fault, its record, its interrupt, the WINTER it decides and what that WINTER ends may change: completions and rings, interrupt latches and vectors, the sources and the severity checks, the recorder's intake, the slots, cancellers and loops whose fades end, the scope objects and the mute nets. All else is as it was (R309-R322, R190, R200). -/
def State.alarmed (s t : State) : Prop :=
  t = { s with
    hif := { s.hif with rings := t.hif.rings, outstanding := t.hif.outstanding, held := t.hif.held, hostWrites := t.hif.hostWrites, captRun := t.hif.captRun }
    intc := { s.intc with lat := t.intc.lat, vecs := t.intc.vecs }
    flt := { s.flt with srcs := t.flt.srcs, sevLost := t.flt.sevLost, regfault := t.flt.regfault }
    recd := { s.recd with nextSeq := t.recd.nextSeq, buf := t.recd.buf, copyq := t.recd.copyq, want := t.recd.want, wantCkpt := t.recd.wantCkpt, dropHi := t.recd.dropHi, dropLo := t.recd.dropLo, tombs := t.recd.tombs, buckets := t.recd.buckets }
    slots := t.slots, cx := t.cx, gcl := t.gcl, prot := { s.prot with objs := t.prot.objs, nets := t.prot.nets } }

/-! ## The management port and the test port -/

/-- The PEC of a frame is right: the CRC over the address byte, CMD and the arguments (R286). -/
def State.pecRight (s : State) (cmd : Byte) (args : List Byte) (pec : Byte) : Bool :=
  decide (pecOf (BitVec.ofNat 8 (2 * (0x60 + s.ownId)) :: cmd :: args) = pec)
/-! ## Loop engines -/

/-- From s to t engine e has run one instruction of n instruction times that writes w to general register r (R231): G0 stays 0, nothing else of the device has changed. -/
def State.WroteG (s : State) (e : Nat) (r : Reg) (w : Word) (n : Nat) (t : State) : Prop :=
  s.onlyEng t e ∧ t.eng e = { s.eng e with g := (t.eng e).g, pc := (s.eng e).pc + 4, ran := (s.eng e).ran + n } ∧
  ∀ x : Reg, t.eReg e x = if x = r ∧ r.val ≠ 0 then w else s.eReg e x

/-- From s to t engine e has run one instruction of n instruction times that writes block b to vector register r, saturated or not (R235). -/
def State.WroteV (s : State) (e : Nat) (r : VReg) (b : VBlk) (sat : Bool) (n : Nat) (t : State) : Prop :=
  s.onlyEng t e ∧ t.eng e = { s.eng e with v := (t.eng e).v, vsat := (s.eng e).vsat || sat, pc := (s.eng e).pc + 4, ran := (s.eng e).ran + n } ∧
  ∀ x : VReg, t.eVec e x = if x = r then b else s.eVec e x

/-- From s to t engine e has run one instruction of n instruction times that stores the k bytes of w, least significant first, from data address a. -/
def State.WroteM (s : State) (e a k w n : Nat) (t : State) : Prop :=
  s.onlyEng t e ∧ t.eng e = { s.eng e with dmem := (t.eng e).dmem, pc := (s.eng e).pc + 4, ran := (s.eng e).ran + n } ∧
  ∀ j, (t.eng e).byte j = if a ≤ j ∧ j < a + k then BitVec.ofNat 8 (w / 256 ^ (j - a)) else (s.eng e).byte j

/-- Block b holds the exact lanes l, in units of 2^(-51 - sh), as R235 says: the smallest exponent at which every lane fits, each lane rounded to nearest with ties to even; or, where none fits, every lane saturated at exponent 63. -/
def Normed (sh : Nat) (l : List Int) (b : VBlk) (sat : Bool) : Prop :=
  (sat = false ∧ b.e ≤ 63 ∧ b.m = l.map (fun n => roundEven n (b.e + sh)) ∧ (∀ m ∈ b.m, -524288 ≤ m ∧ m ≤ 524287) ∧
    ∀ x, x < b.e → ∃ n ∈ l, roundEven n (x + sh) < -524288 ∨ 524287 < roundEven n (x + sh)) ∨
  (sat = true ∧ b.e = 63 ∧ b.m = l.map (fun n => if n < 0 then -524288 else if n = 0 then 0 else 524287) ∧
    ∀ x, x ≤ 63 → ∃ n ∈ l, roundEven n (x + sh) < -524288 ∨ 524287 < roundEven n (x + sh))

/-! ## Descriptors -/

/-- The header and the operands of a command that is a descriptor row of the table (Table 9-8); none for every other command. -/
def descriptorOf : Instr → Option (DHdr × Desc)
  | .nop h => some (h, .nop)
  | .fence h x0 => some (h, .fence x0)
  | .abort h x0 x1 => some (h, .abort x0 x1)
  | .slotConfig h x0 x1 x2 x3 x4 x5 x6 x7 x8 => some (h, .slotConfig x0 x1 x2 x3 x4 x5 x6 x7 x8)
  | .slotEnable h x0 => some (h, .slotEnable x0)
  | .slotDisable h x0 => some (h, .slotDisable x0)
  | .slotGainSet h x0 x1 => some (h, .slotGainSet x0 x1)
  | .slotCoefLoad h x0 x1 x2 x3 x4 => some (h, .slotCoefLoad x0 x1 x2 x3 x4)
  | .slotBankSwap h x0 x1 => some (h, .slotBankSwap x0 x1)
  | .chainState h x0 x1 x2 x3 => some (h, .chainState x0 x1 x2 x3)
  | .chainTune h x0 x1 x2 x3 x4 x5 x6 => some (h, .chainTune x0 x1 x2 x3 x4 x5 x6)
  | .calRun h x0 x1 x2 => some (h, .calRun x0 x1 x2)
  | .txPowerStep h x0 x1 x2 x3 x4 => some (h, .txPowerStep x0 x1 x2 x3 x4)
  | .txPowerTableLoad h x0 x1 x2 => some (h, .txPowerTableLoad x0 x1 x2)
  | .tunerSet h x0 x1 x2 => some (h, .tunerSet x0 x1 x2)
  | .tunerSetRaw h x0 x1 x2 x3 x4 => some (h, .tunerSetRaw x0 x1 x2 x3 x4)
  | .cxAssign h x0 x1 x2 x3 x4 x5 x6 => some (h, .cxAssign x0 x1 x2 x3 x4 x5 x6)
  | .cxReset h x0 => some (h, .cxReset x0)
  | .cxResetSeed h x0 x1 x2 x3 x4 => some (h, .cxResetSeed x0 x1 x2 x3 x4)
  | .cxFreeze h x0 x1 => some (h, .cxFreeze x0 x1)
  | .gclLutLoad h x0 x1 x2 x3 => some (h, .gclLutLoad x0 x1 x2 x3)
  | .gclBankSwap h x0 => some (h, .gclBankSwap x0)
  | .gclSetpoint h x0 x1 x2 x3 x4 x5 x6 x7 x8 => some (h, .gclSetpoint x0 x1 x2 x3 x4 x5 x6 x7 x8)
  | .installationModel h x0 x1 x2 x3 => some (h, .installationModel x0 x1 x2 x3)
  | .protConfig h x0 x1 x2 => some (h, .protConfig x0 x1 x2)
  | .authorisationWrite h x0 x1 x2 x3 x4 x5 => some (h, .authorisationWrite x0 x1 x2 x3 x4 x5)
  | .winterEnter h x0 x1 x2 => some (h, .winterEnter x0 x1 x2)
  | .winterRelease h x0 x1 x2 => some (h, .winterRelease x0 x1 x2)
  | .leImageLoad h x0 x1 x2 x3 x4 => some (h, .leImageLoad x0 x1 x2 x3 x4)
  | .leTaskStart h x0 x1 x2 x3 x4 x5 x6 x7 x8 => some (h, .leTaskStart x0 x1 x2 x3 x4 x5 x6 x7 x8)
  | .leTaskStop h x0 x1 => some (h, .leTaskStop x0 x1)
  | .capture h x0 x1 x2 x3 x4 x5 x6 x7 => some (h, .capture x0 x1 x2 x3 x4 x5 x6 x7)
  | .telemetrySubscribe h x0 x1 x2 x3 x4 x5 => some (h, .telemetrySubscribe x0 x1 x2 x3 x4 x5)
  | .recNote h x0 x1 => some (h, .recNote x0 x1)
  | .recFlush h => some (h, .recFlush)
  | .jlStreamOpen h x0 x1 x2 x3 x4 x5 x6 x7 => some (h, .jlStreamOpen x0 x1 x2 x3 x4 x5 x6 x7)
  | .jlStreamClose h x0 x1 => some (h, .jlStreamClose x0 x1)
  | _ => none

/-- The descriptor at HEAD of its ring can be taken, and it passes steps 2 to 5 of R269: its privilege, its operands' ranges, the state, and its class and deadline; and its host data are good. -/
structure State.takes (s : State) (h : DHdr) (d : Desc) : Prop where
  runs : s.runs
  can : s.canTake h.ring.val = true
  priv : s.privRefuse h.ring.val d = none
  range : (checksOf h.cls d s).range = none
  state : (checksOf h.cls d s).state = none
  time : s.timeRefuse h.cls (checksOf h.cls d s).worst = none
  data : dataFault d s = none

/-- The state at the acceptance of a descriptor, before what it does itself (R263, R265, R269): HEAD has passed it, round-robin service goes on with the next ring, and it is outstanding. -/
def State.accepted (s : State) (h : DHdr) (d : Desc) : State :=
  { s with hif := { s.hif with
      rr := (h.ring.val + 1) % 16, rings := s.hif.rings.upd CmdRing.reset h.ring.val (fun r => { r with head := r.head + 1 })
      nextId := s.hif.nextId + 1, outstanding := s.hif.outstanding ++ [s.mkPend h d] } }

/-- The number of a class: A 0, B 1, C 2, D 3. -/
def clsNumber : Cls → Nat | .a => 0 | .b => 1 | .c => 2 | .d => 3

/-- From s to t the descriptor at HEAD of its ring has been answered at its examination (R263, R265, R269, R275): HEAD has passed it and its completion is sent with the tag, the opcode and the index of the descriptor, both times being the present; with count it counts in HIF_REF (R276). -/
def State.Answered (s : State) (h : DHdr) (d : Desc) (r : Refuse) (count : Bool) (t : State) : Prop :=
  ∃ u : State, u = { s with hif := { s.hif with rr := (h.ring.val + 1) % 16, rings := u.hif.rings, refDl := u.hif.refDl, refOther := u.hif.refOther } } ∧
    u.ring h.ring.val = { s.ring h.ring.val with head := (s.ring h.ring.val).head + 1 } ∧ (∀ m, m ≠ h.ring.val → u.ring m = s.ring m) ∧
    (∀ k, u.hif.refDl.get 0 k = if count = true ∧ r.st = .refusedDeadline ∧ k = clsNumber h.cls then satInc 0xFFFF (s.hif.refDl.get 0 k) else s.hif.refDl.get 0 k) ∧
    (∀ k, u.hif.refOther.get 0 k = if count = true ∧ r.st ≠ .refusedDeadline ∧ k = clsNumber h.cls then satInc 0xFFFF (s.hif.refOther.get 0 k) else s.hif.refOther.get 0 k) ∧
    t = u.sendCompl { ring := h.ring.val, tag := h.tag, op := opOf d, status := r.st, index := (s.ring h.ring.val).head, accDt := s.dtime, doneDt := s.dtime, res := r.res, res2 := r.res2, notify := h.notify }

/-! ## Jarond -/

/-- The header of a command that is a received message of Table 13-10; none for every other command. -/
def messageOf : Instr → Option MsgHdr
  | .heartbeat m .. => some m
  | .time m .. => some m
  | .delayReq m .. => some m
  | .delayResp m .. => some m
  | .join m .. => some m
  | .joinResponse m _ => some m
  | .report m .. => some m
  | .reportResponse m => some m
  | .cap m .. => some m
  | .capResponse m _ => some m
  | .streamReq m .. => some m
  | .streamReqResponse m _ => some m
  | .streamClose m _ => some m
  | _ => none

/-- The link takes a message: it carries messages, the message is whole, and its LSEQ is the next (R382). -/
def State.linkRight (s : State) (h : MsgHdr) : Prop :=
  (s.port h.port.val).open_ = true ∧ h.crcOk = true ∧ h.lseq.toNat = ((s.port h.port.val).rxSeq + 1) % 256

/-- The state once the link has taken a message and freed its buffer (R382). -/
def State.linkTook (s : State) (h : MsgHdr) : State :=
  s.updPort h.port.val (fun x => { x with rxSeq := h.lseq.toNat, freed := (x.freed + 1) % 256, nakOwed := false })

/-- From s to t the link of port p has gone down with a cause (R366): its messages are lost, LINK_DOWN is raised, and a LOCKED member whose upstream link it was is in HOLDOVER (R373). -/
def State.wentDown (s : State) (p cause : Nat) (t : State) : Prop :=
  (t.port p).st = .down ∧ (t.port p).downCause = cause ∧ (t.port p).downAt = s.now ∧ (t.port p).unacked = [] ∧ (t.fsrc (16 * 15 + 3)).status = true ∧
  (∀ q, q ≠ p → (t.port q).st = (s.port q).st) ∧
  (t.jl.time = if (s.port p).role = 1 ∧ s.isMaster = false ∧ s.jl.time = .locked then .holdover else s.jl.time)

end Sys2Proof.Machine
end

