-- ==== Sys2Proof/Certificates/Slice0/Obligations.lean ====
section
/-! DEFINITION. The statements for the provers, taken from the numbered rules of the manual. Each command of the table completes in the statement of its family. -/

open Sys2Proof Sys2Proof.Machine

/-- Reset and straps (R400, R402, R423): the fall of SYS_RST_N returns every block but the test access port to reset and keeps the non-volatile store, while uncommitted records are lost; its rise latches the pins as straps, starts SPRING in stage 1 and puts the device in WINTER with cause RESET alone; an undervoltage does as the fall and holds the device until the rail has recovered; a strap pin that changes after the latch changes nothing but CHANGED and the fault STRAP_CHANGE. -/
def Obligations.ResetAndStraps : Prop :=
  (∀ (s : State), ∃ t, exec .sysRstNFall s = .next t ∧ t.tst.inReset = true ∧ t.rfe = Rfe.reset ∧ t.intc = Intc.reset ∧ t.flt = Flt.reset ∧ t.prot = Prot.reset ∧ t.tim = Tim.reset ∧ t.le = Le.reset ∧
    t.slots = [] ∧ t.cx = [] ∧ t.gcl = [] ∧ t.luts = [] ∧ t.cxPol = CxPolicy.reset ∧ t.hif.rings = [] ∧ t.hif.outstanding = [] ∧ t.recd.buf = [] ∧ t.recd.mounted = false ∧
    t.recd.store.slots = s.recd.store.slots ∧ t.recd.store.ckpts = s.recd.store.ckpts ∧ t.recd.store.pcc = s.recd.store.pcc ∧ t.recd.store.auth = s.recd.store.auth ∧
    t.tst.ir = s.tst.ir ∧ t.tst.bsr = s.tst.bsr ∧ t.tst.tapOut = s.tst.tapOut ∧ t.tst.pins = s.tst.pins ∧ t.tst.tmux = []) ∧
  (∀ (s : State), s.tst.inReset = true → s.tst.railHold = false → ∃ t, exec .sysRstNRise s = .next t ∧ t.tst.inReset = false ∧ t.tst.straps = s.tst.pins ∧ t.tst.stage = 1 ∧ t.tst.stopped = false ∧
    t.tst.changed = false ∧ t.tim.dtRun = s.tst.pins.casMaster ∧ (t.wobj objDevice).cause = BitVec.twoPow 16 15 ∧ (t.wobj objDevice).cleared = 0 ∧ (∀ i, i ≠ objDevice → t.wobj i = wobjDefault i) ∧
    t.rfe = Rfe.reset ∧ t.slots = [] ∧ (s.tst.pins.casMaster = true → t.dtime = 0)) ∧
  (∀ (s : State), s.tst.inReset = false ∨ s.tst.railHold = true → exec .sysRstNRise s = .next s) ∧
  (∀ (s : State) (r : Rail), s.runs → ∃ t u, exec (.railUndervoltage r) s = .next t ∧ exec .sysRstNFall s = .next u ∧ t = { u with tst := { u.tst with railHold := true } } ∧ t.tst.inReset = true) ∧
  (∀ (s : State) (r : Rail), s.tst.inReset = true → exec (.railUndervoltage r) s = .next s) ∧
  (∀ (s : State), s.tst.inReset = true → s.tst.railHold = true →
    exec .internalResetEnd s = exec .sysRstNRise { s with tst := { s.tst with railHold := false } }) ∧
  (∀ (s : State), s.runs ∨ s.tst.railHold = false → exec .internalResetEnd s = .next s) ∧
  (∀ (s : State) (p : Straps), s.runs → ∃ t, exec (.strapPinChange p) s = .next t ∧ t.tst.straps = s.tst.straps ∧ t.tst.pins = p ∧
    ({ p with authWe := false } ≠ { s.tst.pins with authWe := false } → t.tst.changed = true ∧ (t.fsrc 3).status = true ∧ s.alarmed { t with tst := s.tst }) ∧
    ({ p with authWe := false } = { s.tst.pins with authWe := false } → t = { s with tst := { s.tst with pins := p } })) ∧
  (∀ (s : State), exec .perstNDeassert s = .next { s with tst := { s.tst with perstHigh := true, linkTraining := s.tst.linkTraining || (!s.tst.inReset && (decide (2 ≤ s.tst.stage) || s.tst.stopped)) } })

/-- The stages of SPRING (R403, Table 14-2): each ends in the next one with its work done; a failure of stage 1 or 3 raises its fault and stops SPRING in that stage; a failure in another stage raises its fault and SPRING goes on; at the release point the RESET cause becomes cleared. -/
def Obligations.SpringStages : Prop :=
  (∀ (s : State) (f : BitVec 6), s.inStage 1 = true → exec (.fuseStageEnd true f) s =
    .next { s with tst := { s.tst with linkTraining := s.tst.perstHigh, stage := 2, stageAt := s.now }, tim := { s.tim with vidFloor := f.toNat } }) ∧
  (∀ (s : State) (f : BitVec 6), s.inStage 1 = true → ∃ t, exec (.fuseStageEnd false f) s = .next t ∧ t.tst = { s.tst with linkTraining := s.tst.perstHigh, stopped := true } ∧ (t.fsrc 0).status = true ∧ s.alarmed { t with tst := s.tst }) ∧
  (∀ (s : State) (ok : Bool), s.inStage 2 = true → ∃ t, exec (.recorderMount ok) s = .next t ∧ t.tst = { s.tst with stage := 3, stageAt := s.now } ∧ t.recd.mounted = true ∧
    t.recd.store.pcc = word (min 0xFFFFFFFF (s.recd.store.pcc.toNat + 1)) ∧ s.recd.store.newest < t.recd.nextSeq ∧
    (ok = true → (∀ e ∈ s.recd.store.auth, cwordOk e.2 = true) → t.prot.auth = s.recd.store.auth ∧ t.prot.restoreFail = false) ∧
    (ok = false ∨ (∃ e ∈ s.recd.store.auth, cwordOk e.2 = false) → t.prot.auth = [] ∧ t.prot.restoreFail = true ∧ (t.fsrc (16 * 13 + 1)).status = true)) ∧
  (∀ (s : State), s.inStage 3 = true → ∃ t, exec (.supervisorBoot true) s = .next t ∧ t.tst = { s.tst with stage := 4, stageAt := s.now, mpAnswers := true } ∧ t.flt.hbRun = true ∧ (∀ n, n < 4 → t.flt.hb.get 0 n = s.now) ∧
    ∀ p, p < 4 → (s.port p).st = .down → (s.port p).cfgRole ≠ 0 → (s.port p).downCause = 0 → (t.port p).st = .training ∧ (t.port p).role = (s.port p).cfgRole) ∧
  (∀ (s : State), s.inStage 3 = true → ∃ t, exec (.supervisorBoot false) s = .next t ∧ t.tst = { s.tst with stopped := true } ∧ (t.fsrc (16 * 3 + 2)).status = true ∧ s.alarmed { t with tst := s.tst }) ∧
  (∀ (s : State), s.inStage 4 = true → exec (.memorySelfTest []) s = .next { s with
    flt := { s.flt with flipped := [], poisoned := [] }, tst := { s.tst with bistCnt := 0, bistMs := (s.now - s.tst.stageAt) * 100 / tms, bistAddr := 0, stage := 5, stageAt := s.now }, tim := { s.tim with align := 1 } }) ∧
  (∀ (s : State) (l : List Word), s.inStage 4 = true → ∃ t, exec (.memorySelfTest l) s = .next t ∧ t.tst.stage = 5 ∧ t.tst.bistCnt = (failedMems ((l.map (fun w => w.toNat)).filter (fun a => (s.symHolder a).isSome))).length ∧
    t.flt.flipped = [] ∧ t.flt.poisoned = [] ∧ t.tim = { s.tim with align := 1 } ∧ ((∃ w ∈ l, (s.symHolder w.toNat).isSome = true) → (t.fsrc 1).status = true)) ∧
  (∀ (s : State), s.inStage 5 = true → s.tst.stageAt + tms ≤ s.now → s.rfe.ckLocked ≠ 0xF → exec .springFail s = .next (s.raise 0 2 .device)) ∧
  (∀ (s : State), s.inStage 5 = true → s.isMaster = true → s.tim.srcUsed = 0 → s.tst.stageAt + 25 * tms ≤ s.now →
    exec .frameAbsent s = .next (({ s with tim := { s.tim with srcUsed := 1, framePh := 0 } }).raise 5 4 .device)) ∧
  (∀ (s : State), s.inStage 5 = true → s.isMaster = true → s.tim.srcUsed = 1 ∨ s.tim.srcUsed = 2 → ∃ t, exec .clockAlignment s = .next t ∧ t.rfe = { s.rfe with refOk := true, ckLocked := 0xF } ∧
    t.tim = { s.tim with tileOk := 0xF, align := 2 } ∧ t.tst = { s.tst with frameInt := decide (s.tim.srcUsed = 1), stage := 6, stageAt := s.now } ∧ t = { s with rfe := t.rfe, tim := t.tim, tst := t.tst }) ∧
  (∀ (s : State) (a b : Word), s.inStage 6 = true → s.tst.proved = false → ∃ t, exec (.springProof a b) s = .next t ∧ t.tst.proved = true ∧ t.tst.stage = 6 ∧
    (∀ k : Nat, k < 4 → t.tst.proofFail.getLsbD k = !((List.range 8).all (fun c => a.getLsbD (8 * k + c) && b.getLsbD (8 * k + c)))) ∧
    ∀ c : Nat, c < 32 → (a.getLsbD c && b.getLsbD c) = false → (t.wobj (objChain c)).cause.getLsbD 13 = true) ∧
  (∀ (s : State), s.inStage 6 = true → s.tst.proved = true → s.tst.scanned = false → ∃ t, exec .releasePoint s = .next t ∧ t.tst.stage = 7 ∧
    ((s.wobj objDevice).cause.getLsbD 15 = true → (t.wobj objDevice).cleared.getLsbD 15 = true) ∧ (t.wobj objDevice).cause = (s.wobj objDevice).cause ∧
    t = { s with tst := t.tst, prot := { s.prot with objs := t.prot.objs } })

/-- The power-fail warning (R349, R350): its fall closes intake, writes record 0x0004 with every owed summary and asks for a flush with a checkpoint; ten milliseconds after its return the intake opens again and record 0x0007 is written. -/
def Obligations.PowerFail : Prop :=
  (∀ (s : State), s.runs → s.recd.mounted = true → ∃ t, exec .pfailNFall s = .next t ∧ t.recd.intakeClosed = true ∧ t.recd.want = true ∧ t.recd.wantCkpt = true ∧ t.recd.pfailLow = true ∧ t.recd.pfailAt = s.now ∧
    t.recd.store = s.recd.store ∧ t.recd.flush = s.recd.flush ∧ t = { s with recd := t.recd, intc := t.intc } ∧
    (s.recd.buf.length + s.recd.buckets.length < 1024 → (∃ r ∈ t.recd.buf, r.code = 4 ∧ r.seq = s.recd.nextSeq ∧ r.sev = 2) ∧ ∀ r ∈ s.recd.buf, r ∈ t.recd.buf)) ∧
  (∀ (s : State), s.runs → s.recd.mounted = false → ∃ t, exec .pfailNFall s = .next t ∧ t.recd = { s.recd with pfailLow := true, pfailAt := s.now } ∧ t = { s with recd := t.recd, intc := t.intc }) ∧
  (∀ (s : State), s.runs → s.recd.pfailLow = true → s.recd.pfailAt + 10 * tms ≤ s.now → ∃ t, exec .pfailNReturn s = .next t ∧
    t.recd.intakeClosed = false ∧ t.recd.pfailLow = false ∧ t.recd.store = s.recd.store ∧ t = { s with recd := t.recd } ∧
    (s.recd.mounted = true → s.recd.buf.length < 1024 → ∃ r, t.recd.buf = s.recd.buf ++ [r] ∧ r.code = 7 ∧ r.seq = s.recd.nextSeq ∧ r.sev = 1 ∧ t.recd.nextSeq = s.recd.nextSeq + 1)) ∧
  (∀ (s : State), s.runs → s.recd.pfailLow = false ∨ s.now < s.recd.pfailAt + 10 * tms → exec .pfailNReturn s = .next s)

/-- The management port (R286, R287): a frame with a wrong PEC executes nothing, counts in PEC_ERR and raises MP_PEC; READ32 returns its register and clears nothing in it; FORCE_WINTER sets the MGMT cause in device scope, FORCE_WITHDRAW marks it cleared; a wrong key, an unaligned offset and an unknown command change nothing but the response; IDENT returns GEN_ID, stepping and CAS_ID. Before the end of SPRING stage 3 the port does not answer (R405). -/
def Obligations.ManagementPort : Prop :=
  (∀ (s : State) (off : BitVec 24) (seq : BitVec 48) (win : Half) (key pec bad : Byte) (l : List Byte) (f : Instr × Byte × List Byte), s.runs → s.tst.mpAnswers = true →
    f ∈ [(Instr.read32 off pec, (0x01 : Byte), leBytes 3 off.toNat), (.recCursor seq pec, 0x10, leBytes 6 seq.toNat), (.recRead win pec, 0x11, leBytes 2 win.toNat), (.forceWinter key pec, 0x40, [key]), (.forceWithdraw key pec, 0x41, [key]), (.ident pec, 0x7F, []), (.badCmd bad l pec, bad, l)] → s.pecRight f.2.1 f.2.2 pec = false →
    ∃ u : State, u = ({ s with hif := { s.hif with pecErr := satInc 0xFFFF s.hif.pecErr } }).raise 1 7 .device ∧ exec f.1 s = .next { u with hif := { u.hif with mpStatus := .badPec, mpData := [] } }) ∧
  (∀ (s : State) (off : BitVec 24) (seq : BitVec 48) (win : Half) (key pec bad : Byte) (l : List Byte) (f : Instr × Byte × List Byte), s.runs → s.tst.mpAnswers = false →
    f ∈ [(Instr.read32 off pec, (0x01 : Byte), leBytes 3 off.toNat), (.recCursor seq pec, 0x10, leBytes 6 seq.toNat), (.recRead win pec, 0x11, leBytes 2 win.toNat), (.forceWinter key pec, 0x40, [key]), (.forceWithdraw key pec, 0x41, [key]), (.ident pec, 0x7F, []), (.badCmd bad l pec, bad, l)] → exec f.1 s = .next s) ∧
  (∀ (s : State) (off : BitVec 24) (pec : Byte), s.runs → s.tst.mpAnswers = true → s.pecRight 1 (leBytes 3 off.toNat) pec = true → off.toNat % 4 = 0 → off.toNat < 2 ^ 20 →
    ∃ t, exec (.read32 off pec) s = .next t ∧ t.hif.mpStatus = .ok ∧ t.hif.mpData = leBytes 4 (s.regShow .mp off.toNat).toNat ∧
      t = { s with hif := { s.hif with mpStatus := .ok, mpData := t.hif.mpData, rdData := t.hif.rdData, hiLatch := t.hif.hiLatch } }) ∧
  (∀ (s : State) (off : BitVec 24) (pec : Byte), s.runs → s.tst.mpAnswers = true → s.pecRight 1 (leBytes 3 off.toNat) pec = true → off.toNat % 4 ≠ 0 ∨ 2 ^ 20 ≤ off.toNat →
    exec (.read32 off pec) s = .next { s with hif := { s.hif with mpStatus := .refused, mpData := [] } }) ∧
  (∀ (s : State) (seq : BitVec 48) (pec : Byte), s.runs → s.tst.mpAnswers = true → s.pecRight 0x10 (leBytes 6 seq.toNat) pec = true →
    exec (.recCursor seq pec) s = .next { s with hif := { s.hif with mpCursor := seq.toNat, mpStatus := .ok, mpData := [] } }) ∧
  (∀ (s : State) (off : Half) (pec : Byte), s.runs → s.tst.mpAnswers = true → s.pecRight 0x11 (leBytes 2 off.toNat) pec = true → off.toNat % 32 = 0 → off.toNat ≤ 4064 →
    ∃ d : List Byte, d.length = 32 ∧ exec (.recRead off pec) s = .next { s with hif := { s.hif with mpStatus := .ok, mpData := d } }) ∧
  (∀ (s : State) (off : Half) (pec : Byte), s.runs → s.tst.mpAnswers = true → s.pecRight 0x11 (leBytes 2 off.toNat) pec = true → off.toNat % 32 ≠ 0 ∨ 4064 < off.toNat →
    exec (.recRead off pec) s = .next { s with hif := { s.hif with mpStatus := .refused, mpData := [] } }) ∧
  (∀ (s : State) (pec : Byte), s.runs → s.tst.mpAnswers = true → s.pecRight 0x40 [0xA5] pec = true → ∃ t, exec (.forceWinter 0xA5 pec) s = .next t ∧
    (t.wobj objDevice).cause.getLsbD 10 = true ∧ t.hif.mgmtForce = true ∧ t.hif.mpStatus = .ok ∧ s.alarmed { t with hif := { t.hif with mgmtForce := s.hif.mgmtForce, mpStatus := s.hif.mpStatus, mpData := s.hif.mpData } }) ∧
  (∀ (s : State) (pec : Byte), s.runs → s.tst.mpAnswers = true → s.pecRight 0x41 [0x5A] pec = true → ∃ t, exec (.forceWithdraw 0x5A pec) s = .next t ∧ t.hif.mgmtForce = false ∧ t.hif.mpStatus = .ok ∧
    (t.wobj objDevice).cause = (s.wobj objDevice).cause ∧ ((s.wobj objDevice).cause.getLsbD 10 = true → (t.wobj objDevice).cleared.getLsbD 10 = true) ∧ ∀ i, i ≠ objDevice → t.wobj i = s.wobj i) ∧
  (∀ (s : State) (key pec : Byte), s.runs → s.tst.mpAnswers = true → (key ≠ 0xA5 → s.pecRight 0x40 [key] pec = true → exec (.forceWinter key pec) s = .next { s with hif := { s.hif with mpStatus := .refused, mpData := [] } }) ∧
    (key ≠ 0x5A → s.pecRight 0x41 [key] pec = true → exec (.forceWithdraw key pec) s = .next { s with hif := { s.hif with mpStatus := .refused, mpData := [] } })) ∧
  (∀ (s : State) (pec : Byte), s.runs → s.tst.mpAnswers = true → s.pecRight 0x7F [] pec = true →
    exec (.ident pec) s = .next { s with hif := { s.hif with mpStatus := .ok, mpData := [0x32, 0x96, 0, 0, 0xB0, BitVec.ofNat 8 s.ownId] } }) ∧
  (∀ (s : State) (cmd : Byte) (args : List Byte) (pec : Byte), s.runs → s.tst.mpAnswers = true → s.pecRight cmd args pec = true →
    exec (.badCmd cmd args pec) s = .next { s with hif := { s.hif with mpStatus := .badCmd, mpData := [] } })

/-- The test access port (R408, R409, R410), in reset and out of it: each instruction selects its register; a scan instruction that drives pins sets the RESET cause in device scope unless TEST_EN is latched high; IDCODE reads 0x1963_25B3; TMUXSEL acts with TEST_EN high alone. -/
def Obligations.TestAccessPort : Prop :=
  (∀ (s : State) (v : BitVec 3412) (i : Instr) (c : Byte), (i, c) ∈ [(Instr.extest v, (0 : Byte)), (.clamp, 3), (.highz, 4), (.extestPulse v, 5), (.extestTrain v, 6)] → s.tst.straps.testEn = false →
    ∃ t, exec i s = .next t ∧ (t.wobj objDevice).cause.getLsbD 15 = true ∧ t.tst.ir = c ∧ t.tst.scanned = true ∧ (c ∉ [(3 : Byte), 4] → t.tst.bsr = v) ∧
      s.alarmed { t with tst := s.tst } ∧ t.tst.straps = s.tst.straps ∧ t.tst.inReset = s.tst.inReset) ∧
  (∀ (s : State) (v : BitVec 3412) (i : Instr) (c : Byte), (i, c) ∈ [(Instr.extest v, (0 : Byte)), (.extestPulse v, 5), (.extestTrain v, 6), (.samplePreload v, 1)] → s.tst.straps.testEn = true ∨ c = 1 →
    exec i s = .next { s with tst := { s.tst with ir := c, bsr := v } }) ∧
  (∀ (s : State) (i : Instr) (c : Byte), (i, c) ∈ [(Instr.clamp, (3 : Byte)), (.highz, 4)] → s.tst.straps.testEn = true → exec i s = .next { s with tst := { s.tst with ir := c } }) ∧
  (∀ (s : State), exec .idcode s = .next { s with tst := { s.tst with ir := 2, tapOut := 0x196325B3 } } ∧ exec .tapReset s = .next { s with tst := { s.tst with ir := 2 } }) ∧
  (∀ (s : State) (c : Byte), tapListed c = false → exec (.bypass c) s = .next { s with tst := { s.tst with ir := c, tapOut := 0 } }) ∧
  (∀ (s : State) (v : Word), s.runs → s.tst.straps.testEn = false → exec (.tmuxsel v) s = .next { s with tst := { s.tst with ir := 0x21, tapOut := 0 } }) ∧
  (∀ (s : State) (v : Word), s.runs → s.tst.straps.testEn = true → ∃ t, exec (.tmuxsel v) s = .next t ∧ t = { s with tst := { s.tst with ir := 0x21, tmux := t.tst.tmux } } ∧
    ∀ p : Nat, t.tst.tmux.get 0 p = if p = bitsOf v 24 3 ∧ tmuxOk (v.toNat % 65536) = true then word (v.toNat % 65536) else s.tst.tmux.get 0 p)

/-- Fault injection (R330, R331): with TEST_EN low nothing executes and zeros shift out; with TEST_EN high the injection has its effect and INJECTED is raised. -/
def Obligations.FaultInjection : Prop :=
  (∀ (s : State) (b n : Fin 16) (o : Byte) (m : BitVec 10) (a : Word) (le : Fin 4) (c : Instr), s.runs → c ∈ [Instr.fltinjRaiseSource b n o, .fltinjInvertSevN b, .fltinjInvertStatusCopy b n, .fltinjInvertSymbols m a, .fltinjInvertComplement a, .fltinjSuppressHeartbeat le] → s.tst.straps.testEn = false → exec c s = .next { s with tst := { s.tst with ir := 0x20, tapOut := 0 } }) ∧
  (∀ (s : State) (b n : Fin 16) (o : Byte) (m : BitVec 10) (a : Word) (le : Fin 4) (c : Instr), s.runs → c ∈ [Instr.fltinjRaiseSource b n o, .fltinjInvertSevN b, .fltinjInvertStatusCopy b n, .fltinjInvertSymbols m a, .fltinjInvertComplement a, .fltinjSuppressHeartbeat le] → s.tst.straps.testEn = true → ∃ t, exec c s = .next t ∧ (t.fsrc (16 * 3 + 5)).status = true) ∧
  (∀ (s : State) (b n : Fin 16) (o : Byte), s.runs → s.tst.straps.testEn = true → (n : Nat) < (floors b).length → ¬(b = 13 ∧ n = 3) →
    ∃ t, exec (.fltinjRaiseSource b n o) s = .next t ∧ (t.fsrc (16 * b + n)).status = true) ∧
  (∀ (s : State) (b : Fin 16), s.runs → s.tst.straps.testEn = true → ∃ u : State, exec (.fltinjInvertSevN b) s = .next (u.raiseI 3 5 .device true) ∧ u = { s with flt := { s.flt with sev := u.flt.sev }, tst := { s.tst with ir := 0x20 } } ∧
    u.sevReg b false = s.sevReg b false ^^^ 0xFFFF0000) ∧
  (∀ (s : State) (b n : Fin 16), s.runs → s.tst.straps.testEn = true → ∃ u : State, exec (.fltinjInvertStatusCopy b n) s = .next (u.raiseI 3 5 .device true) ∧ u = { s with flt := { s.flt with srcs := u.flt.srcs }, tst := { s.tst with ir := 0x20 } } ∧
    ∀ k, u.fsrc k = if k = 16 * b + n then { s.fsrc k with copyBad := !(s.fsrc k).copyBad } else s.fsrc k) ∧
  (∀ (s : State) (m : BitVec 10) (a : Word), s.runs → s.tst.straps.testEn = true → (s.symHolder a.toNat).isSome = true → ∃ u : State, exec (.fltinjInvertSymbols m a) s = .next (u.raiseI 3 5 .device true) ∧
    u = { s with flt := { s.flt with flipped := u.flt.flipped }, tst := { s.tst with ir := 0x20 } } ∧
    ∀ (b i : Nat), (b, i) ∈ u.flt.flipped ↔ ¬((b, i) ∈ s.flt.flipped ↔ (b = a.toNat ∧ i < 10 ∧ m.getLsbD i = true))) ∧
  (∀ (s : State), s.runs → s.tst.straps.testEn = true → exec (.fltinjInvertComplement 0x30000) s = .next (({ s with flt := { s.flt with policy := s.flt.policy ^^^ 0xFFFF0000 }, tst := { s.tst with ir := 0x20 } }).raiseI 3 5 .device true)) ∧
  (∀ (s : State) (n : Fin 4), s.runs → s.tst.straps.testEn = true → ∃ u : State, exec (.fltinjSuppressHeartbeat n) s = .next (u.raiseI 3 5 .device true) ∧ u = { s with flt := { s.flt with hbOff := u.flt.hbOff }, tst := { s.tst with ir := 0x20 } } ∧
    ∀ k : Nat, u.flt.hbOff.get 0 k = if k = n then s.now + 2 * tms else s.flt.hbOff.get 0 k)

/-- Factory access (R411, R412): with TEST_EN low nothing executes and zeros shift out; with TEST_EN high each operation completes, and what it leaves is read back. -/
def Obligations.FactoryAccess : Prop :=
  (∀ (s : State) (a : Word) (v : Word64) (c : Instr), s.runs → c ∈ [Instr.tstaccReadWord a, .tstaccWriteWord a v, .tstaccWriteOph v, .tstaccStageImage a v, .tstaccRestoreImage, .tstaccReadRegister a, .tstaccFaultAck a v] → s.tst.straps.testEn = false → exec c s = .next { s with tst := { s.tst with ir := 0x22, tapOut := 0, tstStatus := 0 } }) ∧
  (∀ (s : State) (a : Word) (v : Word64), s.runs → s.tst.straps.testEn = true → s.tstWord a.toNat = none →
    exec (.tstaccReadWord a) s = .next { s with tst := { s.tst with ir := 0x22, tapOut := 0, tstStatus := 2 } } ∧ exec (.tstaccWriteWord a v) s = .next { s with tst := { s.tst with ir := 0x22, tapOut := 0, tstStatus := 2 } }) ∧
  (∀ (s : State) (a : Word) (v : Word64), s.runs → s.tst.straps.testEn = true → s.tstWord a.toNat = some v → s.flt.flipped = [] → s.wordPoisoned a.toNat = false →
    exec (.tstaccReadWord a) s = .next { s with tst := { s.tst with ir := 0x22, tapOut := v, tstStatus := 0 } }) ∧
  (∀ (s : State) (e w : Nat) (a : Word) (v : Word64), s.runs → s.tst.straps.testEn = true → e < 128 → w < 4096 → a.toNat = testBase 14 e 6 + w →
    ∃ t, exec (.tstaccWriteWord a v) s = .next t ∧ (∀ j, j < 8 → (t.eng e).dmem.get 0 (8 * w + j) = v.extractLsb' (8 * j) 8) ∧ (∀ k, k < 8 * w ∨ 8 * w + 8 ≤ k → (t.eng e).dmem.get 0 k = (s.eng e).dmem.get 0 k) ∧
      (∀ d, d ≠ e → t.eng d = s.eng d) ∧ t.wordPoisoned a.toNat = false ∧ t.tst.tstStatus = 0) ∧
  (∀ (s : State) (v : Word64), s.runs → s.tst.straps.testEn = true → ∃ t, exec (.tstaccWriteOph v) s = .next t ∧ t.tst.tstStatus = 0 ∧ t.recd.store = s.recd.store ∧ t.recd.buf = s.recd.buf ∧
    (s.recd.mounted = true → t.oph = max s.oph (bitsOf v 0 48))) ∧
  (∀ (s : State) (a : Word) (v : Word64), s.runs → s.tst.straps.testEn = true → ∃ t, exec (.tstaccStageImage a v) s = .next t ∧ t = { s with recd := { s.recd with staging := t.recd.staging }, tst := t.tst } ∧
    t.recd.staging.get 0 a.toNat = v ∧ ∀ b, b ≠ a.toNat → t.recd.staging.get 0 b = s.recd.staging.get 0 b) ∧
  (∀ (s : State), s.runs → s.tst.straps.testEn = true → s.inWinter objDevice = false → exec .tstaccRestoreImage s = .next { s with tst := { s.tst with ir := 0x22, tapOut := 0, tstStatus := 1 } }) ∧
  (∀ (s : State), s.runs → s.tst.straps.testEn = true → s.inWinter objDevice = true → ∃ t, exec .tstaccRestoreImage s = .next t ∧ t.tst.tstStatus = 0 ∧ t.recd.store.slots = s.recd.imageSlots ∧ s.recd.nextSeq ≤ t.recd.nextSeq ∧
    s.recd.store.pcc.toNat ≤ t.recd.store.pcc.toNat ∧ (s.recd.mounted = true → s.oph < t.oph)) ∧
  (∀ (s : State) (a : Word), s.runs → s.tst.straps.testEn = true → a.toNat % 4 = 0 → a.toNat < 2 ^ 20 → ∃ t, exec (.tstaccReadRegister a) s = .next t ∧ t.tst.tapOut = (({ s with tst := { s.tst with ir := 0x22 } } : State).regShow .tp a.toNat).setWidth 64 ∧ t.tst.tstStatus = 0 ∧
    t = { s with hif := { s.hif with rdData := t.hif.rdData, hiLatch := t.hif.hiLatch }, tst := t.tst }) ∧
  (∀ (s : State) (b : Fin 16) (a : Word) (v : Word64) (u : State), s.runs → s.tst.straps.testEn = true → a.toNat = b.val * 2 ^ 28 → exec (.faultAck b (v.extractLsb' 0 32)) { s with tst := { s.tst with ir := 0x22 } } = .next u →
    exec (.tstaccFaultAck a v) s = .next { u with tst := { u.tst with tapOut := v, tstStatus := 0 } })

/-- Writes to the source registers of INTC (R293, R302): SRC_EN_SET and SRC_EN_CLR set and clear enables, SRC_LAT_CLR clears latches, SRC_LAT_SET latches and counts only enabled edge sources, and SRC_CFG is written only while its source is disabled. Nothing outside INTC changes. -/
def Obligations.InterruptSourceWrites : Prop :=
  (∀ (s : State) (w : Fin 16) (v : Word), s.runs → ∃ t, exec (.srcEnSet w v) s = .next t ∧
    t = { s with intc := { s.intc with en := t.intc.en, vecs := t.intc.vecs } } ∧
    (∀ n, t.intc.en.getLsbD n = (s.intc.en.getLsbD n || named w v n)) ∧
    (∀ u, t.vec u = { s.vec u with seen := (t.vec u).seen } ∧ ((s.vec u).active = true → (t.vec u).seen = ((s.vec u).seen || t.vecHot u)))) ∧
  (∀ (s : State) (w : Fin 16) (v : Word), s.runs → ∃ t, exec (.srcEnClr w v) s = .next t ∧
    t = { s with intc := { s.intc with en := t.intc.en } } ∧ ∀ n, t.intc.en.getLsbD n = (s.intc.en.getLsbD n && !named w v n)) ∧
  (∀ (s : State) (w : Fin 16) (v : Word), s.runs → ∃ t, exec (.srcLatClr w v) s = .next t ∧
    t = { s with intc := { s.intc with lat := t.intc.lat } } ∧ ∀ n, t.intc.lat.getLsbD n = (s.intc.lat.getLsbD n && !named w v n)) ∧
  (∀ (s : State) (w : Fin 16) (v : Word), s.runs → ∃ t, exec (.srcLatSet w v) s = .next t ∧
    t = { s with intc := { s.intc with lat := t.intc.lat, vecs := t.intc.vecs } } ∧
    (∀ n, t.intc.lat.getLsbD n = (s.intc.lat.getLsbD n || (named w v n && edgeSrc n && s.intc.en.getLsbD n))) ∧
    (∀ n, named w v n = true → edgeSrc n = true → s.intc.en.getLsbD n = true →
      (t.vec (s.srcCfg n).vector).pend = true ∧ ((s.srcCfg n).urgent = true → (t.vec (s.srcCfg n).vector).ripe = true)) ∧
    (∀ u, (∀ n, named w v n = true → edgeSrc n = true → s.intc.en.getLsbD n = true → (s.srcCfg n).vector ≠ u) →
      t.vec u = { s.vec u with seen := (t.vec u).seen })) ∧
  (∀ (s : State) (n : Fin 512) (v : Word), s.runs → ∃ t, exec (.srcCfgWrite n v) s = .next t ∧
    ((edgeSrc n || levelSrc n) = true → s.intc.en.getLsbD n = false →
      t = { s with intc := { s.intc with srcs := t.intc.srcs } } ∧ (t.srcCfg n) = { urgent := v.getLsbD 30, vector := bitsOf v 0 6 } ∧
      ∀ m : Nat, m ≠ n → t.srcCfg m = s.srcCfg m) ∧
    ((edgeSrc n || levelSrc n) = true → s.intc.en.getLsbD n = true → t = { s with intc := { s.intc with wrBlocked := true } }) ∧
    ((edgeSrc n || levelSrc n) = false → t = s))

/-- Writes to the vector registers of INTC (R294, R297, R303, R304, R307): which vectors they change, in which fields, and when they are ignored with WR_BLOCKED. -/
def Obligations.InterruptVectorWrites : Prop :=
  (∀ (s : State) (h : Fin 2) (v : Word), s.runs → ∃ t, exec (.vecMaskSet h v) s = .next t ∧
    t = { s with intc := { s.intc with vecs := t.intc.vecs } } ∧ ∀ u, t.vec u = if named h v u then { s.vec u with mask := true } else s.vec u) ∧
  (∀ (s : State) (h : Fin 2) (v : Word), s.runs → ∃ t, exec (.vecMaskClr h v) s = .next t ∧
    t = { s with intc := { s.intc with vecs := t.intc.vecs } } ∧ ∀ u, t.vec u = if named h v u then { s.vec u with mask := false } else s.vec u) ∧
  (∀ (s : State) (h : Fin 2), s.runs → ∃ t, exec (.vecMaskRead h) s = .next t ∧
    t = { s with hif := { s.hif with rdData := t.hif.rdData } } ∧ (∀ p, p ≠ 0 → t.hif.rdData.get 0 p = s.hif.rdData.get 0 p) ∧
    ∀ i, i < 32 → (t.hif.rdData.get 0 0).getLsbD i = (s.vec (32 * h + i)).mask) ∧
  (∀ (s : State) (h : Fin 2) (v : Word), s.runs → ∃ t, exec (.vecPendSet h v) s = .next t ∧
    t = { s with intc := { s.intc with vecs := t.intc.vecs } } ∧ ∀ u, t.vec u = if named h v u then { s.vec u with pend := true, ripe := true } else s.vec u) ∧
  (∀ (s : State) (h : Fin 2) (v : Word), s.runs → ∃ t, exec (.vecPendClr h v) s = .next t ∧
    t = { s with intc := { s.intc with vecs := t.intc.vecs } } ∧
    ∀ u, t.vec u = if named h v u then (if s.vecLevel u then ({ s.vec u with pend := false, ripe := false } : Vec).rePend s.now else { s.vec u with pend := false, ripe := false })
      else s.vec u) ∧
  (∀ (s : State) (n : Fin 64) (w : Word), s.runs → ∃ t, exec (.vecCfgWrite n w) s = .next t ∧
    ((s.vec n).mask = true → (s.vec n).active = false → bitsOf w 30 2 ≠ 3 →
      t = { s with intc := { s.intc with vecs := t.intc.vecs } } ∧ (∀ u : Nat, u ≠ n → t.vec u = s.vec u) ∧
      t.vec n = { s.vec n with target := bitsOf w 30 2, prio := w.extractLsb' 0 8 }) ∧
    ((s.vec n).mask = true → (s.vec n).active = false → bitsOf w 30 2 = 3 → t = s) ∧
    ((s.vec n).mask = false ∨ (s.vec n).active = true → t = { s with intc := { s.intc with wrBlocked := true } })) ∧
  (∀ (s : State) (n : Fin 64) (w : Word), s.runs → ∃ t, exec (.vecCoalWrite n w) s = .next t ∧
    t = { s with intc := { s.intc with vecs := t.intc.vecs } } ∧ (∀ u : Nat, u ≠ n → t.vec u = s.vec u) ∧
    t.vec n = { s.vec n with time := bitsOf w 0 16, cnt := if bitsOf w 24 8 = 0 then (s.vec n).cnt else bitsOf w 24 8 }) ∧
  (∀ (s : State) (v : Word), s.runs → ∃ t, exec (.prigroupWrite v) s = .next t ∧
    ((∃ u, u < 64 ∧ (s.vec u).active = true ∧ (s.vec u).target = 1) → t = { s with intc := { s.intc with wrBlocked := true } }) ∧
    ((∀ u, u < 64 → (s.vec u).active = true → (s.vec u).target ≠ 1) → t = { s with intc := { s.intc with prigroup := v.extractLsb' 0 8 } }))

/-- The launch points (R296, R297, R299): the launch is the claim, and it takes a ready vector before which no other ready vector goes; with none ready, INTC_CLAIM reads NONE and the other launch points do nothing. -/
def Obligations.InterruptLaunches : Prop :=
  (∀ (s : State), s.runs → ∃ t, exec .intcClaim s = .next t ∧
    t = { s with intc := { s.intc with vecs := t.intc.vecs, claimed := t.intc.claimed }, hif := { s.hif with rdData := t.hif.rdData } } ∧
    (∀ p, p ≠ 0 → t.hif.rdData.get 0 p = s.hif.rdData.get 0 p) ∧
    ((∀ v, v < 64 → s.vecReady 1 v = false) → t.hif.rdData.get 0 0 = 0x80000000 ∧ t.intc.claimed = none ∧ t.intc.vecs = s.intc.vecs) ∧
    ((∃ v, v < 64 ∧ s.vecReady 1 v = true) → ∃ v, v < 64 ∧ s.vecReady 1 v = true ∧ (∀ u, u < 64 → s.vecReady 1 u = true → u ≠ v → s.vecBefore v u = true) ∧
      t.hif.rdData.get 0 0 = word v ∧ t.intc.claimed = some v ∧ s.Claimed v t)) ∧
  (∀ (s : State), s.runs → ∃ t, exec (.vectorLaunch true) s = .next t ∧
    t = { s with intc := { s.intc with vecs := t.intc.vecs } } ∧
    ((∀ v, v < 64 → s.vecReady 2 v = false) → t = s) ∧
    ((∃ v, v < 64 ∧ s.vecReady 2 v = true) → ∃ v, v < 64 ∧ s.vecReady 2 v = true ∧ (∀ u, u < 64 → s.vecReady 2 u = true → u ≠ v → s.vecBefore v u = true) ∧ s.Claimed v t)) ∧
  (∀ (s : State), s.runs → ∃ t, exec (.vectorLaunch false) s = .next t ∧
    t = { s with intc := { s.intc with vecs := t.intc.vecs }, hif := { s.hif with hostWrites := t.hif.hostWrites } } ∧
    ((∀ v, v < 64 → s.vecReady 0 v = false) → t = s) ∧
    ((∃ v, v < 64 ∧ s.vecReady 0 v = true) → ∃ v, v < 64 ∧ s.vecReady 0 v = true ∧ (∀ u, u < 64 → s.vecReady 0 u = true → u ≠ v → s.vecBefore v u = true) ∧ s.Claimed v t ∧
      t.hif.hostWrites = s.hif.hostWrites ++ [{ addr := (s.msixWord (4 * v + 1)).toNat * 2 ^ 32 + (s.msixWord (4 * v)).toNat, words := [s.msixWord (4 * v + 2)] }])) ∧
  (∀ (s : State) (v : Fin 64), s.runs → ∃ t, exec (.coalesceTimer v) s = .next t ∧
    t = { s with intc := { s.intc with vecs := t.intc.vecs } } ∧ (∀ u : Nat, u ≠ v → t.vec u = s.vec u) ∧
    (∀ f, (s.vec v).first = some f → (s.vec v).pend = true → f + (s.vec v).timeUse * tus ≤ s.now → t.vec v = { s.vec v with ripe := true }) ∧
    (∀ f, (s.vec v).first = some f → (s.vec v).pend = false ∨ s.now < f + (s.vec v).timeUse * tus → t = s) ∧
    ((s.vec v).first = none → t = s))

/-- Completion of a vector (R300, R301, R302, R305): INTC_EOI of an ACTIVE vector of target 0 or 1, and the supervisor's own completion, end ACTIVE and make the vector pending again when an enabled level source of it is asserted; a claim without SEEN counts and raises SPURIOUS; an INTC_EOI of any other vector raises EOI_ERR. -/
def Obligations.InterruptCompletion : Prop :=
  (∀ (s : State) (v : Word), s.runs → (s.vec (bitsOf v 0 6)).active = true → (s.vec (bitsOf v 0 6)).target ≠ 2 →
    ∃ u, s.Ended (bitsOf v 0 6) u ∧
      exec (.intcEoi v) s = .next (if (s.vec (bitsOf v 0 6)).seen || s.vecHot (bitsOf v 0 6) then u else u.raise 2 3 .device)) ∧
  (∀ (s : State) (v : Word), s.runs → (s.vec (bitsOf v 0 6)).active = false ∨ (s.vec (bitsOf v 0 6)).target = 2 →
    exec (.intcEoi v) s = .next (s.raise 2 2 .device)) ∧
  (∀ (s : State) (v : Fin 64), s.runs → (s.vec v).active = true → (s.vec v).target = 2 →
    ∃ (r u : State), r = { s with recd := r.recd, intc := { s.intc with lat := r.intc.lat } } ∧
      r.recd = (s.record (0xE00 + v) 0 0x02 false ((List.range 8).foldl (fun a i => a + fld (2 * i) (((s.vecSources v).take 8).getD i 0xFFFF)) 0)).recd ∧
      (∀ n, r.intc.lat.getLsbD n = (s.intc.lat.getLsbD n && !(((s.vecSources v).take 8).contains n && edgeSrc n))) ∧
      r.Ended v u ∧ exec (.supervisorVector v) s = .next (if (r.vec v).seen || r.vecHot v then u else u.raise 2 3 .device)) ∧
  (∀ (s : State) (v : Fin 64), s.runs → (s.vec v).active = false ∨ (s.vec v).target ≠ 2 → exec (.supervisorVector v) s = .next s)

/-- Every doorbell is checked (R262): a valid one becomes the count of its ring and changes nothing else; an invalid consumer doorbell is ignored and raises DB_RANGE; an invalid CR_TAIL leaves TAIL unchanged, stops a RUNNING ring with CAUSE DB_RANGE and raises DB_RANGE. -/
def Obligations.DoorbellsChecked : Prop :=
  (∀ (s : State) (n : Fin 16) (v : Word), s.runs → highHalf v = 0 →
    (lowHalf v - (s.ring n).tail).toNat ≤ 2 ^ (s.ring n).size - ((s.ring n).tail - (s.ring n).head).toNat →
    ∃ t, exec (.crTailDoorbell n v) s = .next t ∧ s.onlyRing t n ∧ t.ring n = { s.ring n with tail := lowHalf v }) ∧
  (∀ (s : State) (n : Fin 16) (v : Word), s.runs →
    highHalf v ≠ 0 ∨ 2 ^ (s.ring n).size - ((s.ring n).tail - (s.ring n).head).toNat < (lowHalf v - (s.ring n).tail).toNat →
    ∃ u, exec (.crTailDoorbell n v) s = .next (u.raise 1 3 .device) ∧ s.onlyRing u n ∧
      u.ring n = if (s.ring n).st = .running then { s.ring n with st := .stopped, cause := 2, fence := none, retry := none } else s.ring n) ∧
  (∀ (s : State) (n : Fin 16) (v : Word), s.runs → highHalf v = 0 → (lowHalf v - (s.ring n).chead).toNat ≤ ((s.ring n).ctail - (s.ring n).chead).toNat →
    ∃ t, exec (.cqHeadDoorbell n v) s = .next t ∧ s.onlyRing t n ∧ t.ring n = { s.ring n with chead := lowHalf v }) ∧
  (∀ (s : State) (n : Fin 16) (v : Word), s.runs → highHalf v ≠ 0 ∨ ((s.ring n).ctail - (s.ring n).chead).toNat < (lowHalf v - (s.ring n).chead).toNat →
    exec (.cqHeadDoorbell n v) s = .next (s.raise 1 3 .device)) ∧
  (∀ (s : State) (n : Fin 4) (v : Word), s.runs → highHalf v = 0 → (lowHalf v - (s.trRing n).head).toNat ≤ ((s.trRing n).tail - (s.trRing n).head).toNat →
    ∃ t, exec (.trHeadDoorbell n v) s = .next t ∧ s.onlyTrRing t n ∧ t.trRing n = { s.trRing n with head := lowHalf v }) ∧
  (∀ (s : State) (n : Fin 4) (v : Word), s.runs → highHalf v ≠ 0 ∨ ((s.trRing n).tail - (s.trRing n).head).toNat < (lowHalf v - (s.trRing n).head).toNat →
    exec (.trHeadDoorbell n v) s = .next (s.raise 1 3 .device)) ∧
  (∀ (s : State) (v : Word), s.runs → highHalf v = 0 → (lowHalf v - s.hif.er.head).toNat ≤ (s.hif.er.tail - s.hif.er.head).toNat →
    exec (.erHeadDoorbell v) s = .next { s with hif := { s.hif with er := { s.hif.er with head := lowHalf v } } }) ∧
  (∀ (s : State) (v : Word), s.runs → highHalf v ≠ 0 ∨ (s.hif.er.tail - s.hif.er.head).toNat < (lowHalf v - s.hif.er.head).toNat →
    exec (.erHeadDoorbell v) s = .next (s.raise 1 3 .device))

/-- The states of a command ring (R266, Table 9-6) and the events that move it: CR_CFG.EN written 1 on a DISABLED ring zeroes its counts and sets it RUNNING; EN written 0 on a RUNNING or STOPPED ring sets it DRAINING, and DISABLED as soon as it owes no completion; RESTART of a STOPPED ring with Bus Master Enable set resumes at HEAD with CAUSE cleared and its held completions written; clearing Bus Master Enable stops every RUNNING ring with CAUSE BME (R257). -/
def Obligations.CommandRingStates : Prop :=
  (∀ (s : State) (n : Fin 16) (v : Word), s.runs → v.getLsbD 31 = true → (s.ring n).st = .disabled →
    ∃ t, exec (.crEnable n v) s = .next t ∧ s.onlyRing t n ∧ (t.ring n).st = .running ∧ (t.ring n).cause = 0 ∧
      (t.ring n).head = 0 ∧ (t.ring n).tail = 0 ∧ (t.ring n).ctail = 0 ∧ (t.ring n).chead = 0 ∧
      (t.ring n).privOper = v.getLsbD 30 ∧ (t.ring n).privCfg = v.getLsbD 29 ∧
      (t.ring n).size = if 6 ≤ bitsOf v 0 4 ∧ bitsOf v 0 4 ≤ 12 then bitsOf v 0 4 else (s.ring n).size) ∧
  (∀ (s : State) (n : Fin 16) (v : Word), s.runs → v.getLsbD 31 = true → (s.ring n).st ≠ .disabled →
    ∃ t, exec (.crEnable n v) s = .next t ∧ s.onlyRing t n ∧
      t.ring n = { s.ring n with privOper := v.getLsbD 30 && (s.ring n).privOper, privCfg := v.getLsbD 29 && (s.ring n).privCfg }) ∧
  (∀ (s : State) (n : Fin 16) (v : Word), s.runs → v.getLsbD 31 = false → (s.ring n).st = .running ∨ (s.ring n).st = .stopped →
    ∃ t, exec (.crDrain n v) s = .next t ∧
      t = { s with hif := { s.hif with rings := t.hif.rings, held := t.hif.held, hostWrites := t.hif.hostWrites }, intc := { s.intc with lat := t.intc.lat, vecs := t.intc.vecs } } ∧
      (t.ring n).st = (if t.ringWork n = 0 then .disabled else .draining) ∧ (t.ring n).head = (s.ring n).head ∧ (t.ring n).tail = (s.ring n).tail ∧
      (∀ m : Nat, m ≠ n → t.ring m = s.ring m) ∧ ((s.ring n).st = .running → t.hif.held = s.hif.held ∧ t.hif.hostWrites = s.hif.hostWrites)) ∧
  (∀ (s : State) (n : Fin 16) (v : Word), s.runs → v.getLsbD 0 = true → (s.ring n).st = .stopped → s.hif.busMaster = true →
    ∃ t, exec (.crRestart n v) s = .next t ∧
      t = { s with hif := { s.hif with rings := t.hif.rings, held := t.hif.held, hostWrites := t.hif.hostWrites }, intc := { s.intc with lat := t.intc.lat, vecs := t.intc.vecs } } ∧
      (t.ring n).st = .running ∧ (t.ring n).cause = 0 ∧ (t.ring n).head = (s.ring n).head ∧ (t.ring n).tail = (s.ring n).tail ∧
      (∀ m : Nat, m ≠ n → t.ring m = s.ring m) ∧ t.hif.held = s.hif.held.filter (fun c => decide (c.ring ≠ n.val)) ∧
      ∃ l, t.hif.hostWrites = s.hif.hostWrites ++ l ∧ l.length = (s.hif.held.filter (fun c => decide (c.ring = n.val))).length) ∧
  (∀ (s : State) (n : Fin 16) (v : Word), s.runs → v.getLsbD 0 = false ∨ (s.ring n).st ≠ .stopped ∨ s.hif.busMaster = false → exec (.crRestart n v) s = .next s) ∧
  (∀ (s : State), s.runs → ∃ t, exec .busMasterDisable s = .next t ∧ t = { s with hif := { s.hif with busMaster := false, rings := t.hif.rings } } ∧
    ∀ n, t.ring n = if n < 16 ∧ (s.ring n).st = .running then { s.ring n with st := .stopped, cause := 3, fence := none, retry := none } else s.ring n)

/-- Telemetry and event rings: a configuration write enables the ring, or disables it and sets its counts to 0 (R289, TR_CFG and ER_CFG). An event of R256 disables every ring, cancels every subscription, ends a capture, returns the HIF registers to their reset values, makes the completions of accepted work to be discarded, and raises LINK_DOWN; with FLR_WINTER it first enters WINTER with cause HOST. -/
def Obligations.OutRingsAndFunctionReset : Prop :=
  (∀ (s : State) (n : Fin 4) (v : Word), s.runs → ∃ t, exec (.trCfgWrite n v) s = .next t ∧ s.onlyTrRing t n ∧
    (v.getLsbD 31 = true → t.trRing n = { s.trRing n with en := true, size := (t.trRing n).size }) ∧
    (v.getLsbD 31 = false → t.trRing n = { s.trRing n with en := false, tail := 0, head := 0, size := (t.trRing n).size }) ∧
    (t.trRing n).size = if (s.trRing n).en = false ∧ 6 ≤ bitsOf v 0 4 ∧ bitsOf v 0 4 ≤ 12 then bitsOf v 0 4 else (s.trRing n).size) ∧
  (∀ (s : State) (v : Word), s.runs → ∃ e, exec (.erCfgWrite v) s = .next { s with hif := { s.hif with er := e } } ∧ e.minsev = bitsOf v 4 2 ∧
    (v.getLsbD 31 = true → e = { s.hif.er with en := true, size := e.size, minsev := e.minsev }) ∧
    (v.getLsbD 31 = false → e = { s.hif.er with en := false, tail := 0, head := 0, size := e.size, minsev := e.minsev }) ∧
    e.size = if s.hif.er.en = false ∧ 6 ≤ bitsOf v 0 4 ∧ bitsOf v 0 4 ≤ 12 then bitsOf v 0 4 else s.hif.er.size) ∧
  (∀ (s : State), s.runs → ∃ (a b t : State),
    a = (if s.hif.flrWinter then s.winterSet objDevice 9 0 else s) ∧ b = { a with hif := b.hif } ∧
    (∀ n, b.ring n = CmdRing.reset) ∧ (∀ m, b.trRing m = OutRing.reset) ∧ b.hif.er = { OutRing.reset with minsev := 1 } ∧ b.hif.subs = [] ∧
    b.hif.busMaster = false ∧ b.hif.captRun = none ∧ b.hif.flrWinter = false ∧ (∀ q ∈ b.hif.outstanding, q.discard = true) ∧ b.hif.hostWrites = a.hif.hostWrites ∧
    t = ((b.hifFaultsReset).intcFlr).raise 1 6 .device ∧ exec .functionReset s = .next t ∧
    (t.fsrc (16 + 6)).status = true ∧ (s.hif.flrWinter = true → (t.wobj objDevice).cause.getLsbD 9 = true))

/-- Severity writes (R315): a word whose halves do not complement is ignored, counted in WRREJ and raises SEV_WR_REJ; any other write leaves each used source at the larger of its field and its floor and each unused source at 0, in a register that holds the value with its complement; no other register changes. -/
def Obligations.SeverityWrites : Prop :=
  (∀ (s : State) (b : Fin 16) (hi : Bool) (v : Word), s.runs → (hi = true → b = 13) → cwordOk v = false →
    exec (.sevWrite b hi v) s = .next (({ s with flt := { s.flt with wrrej := satInc 0xFFFF s.flt.wrrej } }).raise 3 4 .device)) ∧
  (∀ (s : State) (b : Fin 16) (hi : Bool) (v : Word), s.runs → (hi = true → b = 13) → cwordOk v = true →
    ∃ t, exec (.sevWrite b hi v) s = .next t ∧ t = { s with flt := { s.flt with sev := t.flt.sev, sevLost := t.flt.sevLost } } ∧
      cwordOk (t.sevReg b hi) = true ∧ t.sevIsLost b hi = false ∧
      (∀ i : Nat, i < 8 → t.sev b (i + 8 * bit hi) =
        match (floors b)[i + 8 * bit hi]? with | some f => max f (bitsOf (lowHalf v) (2 * i) 2) | none => 0) ∧
      (∀ (c : Nat) (k : Bool), sevKey c k ≠ sevKey b hi → t.sevReg c k = s.sevReg c k ∧ t.sevIsLost c k = s.sevIsLost c k)) ∧
  (∀ (s : State) (b : Fin 16) (v : Word), s.runs → b ≠ 13 → exec (.sevWrite b true v) s = .next s)

/-- FLT_POLICY (R323): nothing changes while LOCK is in force; else a word whose halves do not complement is ignored, counted and raises SEV_WR_REJ; else the policy bits and LOCK are stored as a complemented word. -/
def Obligations.PolicyWrites : Prop :=
  (∀ (s : State) (v : Word), s.runs → s.policyBit 15 = true → exec (.fltPolicyWrite v) s = .next s) ∧
  (∀ (s : State) (v : Word), s.runs → s.policyBit 15 = false → cwordOk v = false →
    exec (.fltPolicyWrite v) s = .next (({ s with flt := { s.flt with wrrej := satInc 0xFFFF s.flt.wrrej } }).raise 3 4 .device)) ∧
  (∀ (s : State) (v : Word), s.runs → s.policyBit 15 = false → cwordOk v = true →
    ∃ t, exec (.fltPolicyWrite v) s = .next t ∧ t = { s with flt := { s.flt with policy := t.flt.policy } } ∧ cwordOk t.flt.policy = true ∧
      ∀ i : Nat, i < 16 → t.policyBit i = (v.getLsbD i && (i == 0 || i == 1 || i == 15)))

/-- Acknowledgement of one set source (R312, R313), after the checks of the block's copies (R321) and an expired grace timer, and with room in the recorder's buffer for its record: with no lasting condition the source is clear, at no level, without repeats, scopes or a grace timer, and FAULT is marked cleared on every object that no other source holds in FAULT; with a lasting condition the source is set anew. A clear bit, and a word of 0, change nothing further. -/
def Obligations.FaultAcknowledge : Prop :=
  (∀ (s : State) (b n : Fin 16) (u : State), s.runs → u = (s.checkCopies b).graceExpiry (16 * b + n) →
    (u.fsrc (16 * b + n)).status = true → u.condScopes (16 * b + n) = [] → u.recd.buf.length < 1024 →
    ∃ t, exec (.faultAck b (BitVec.twoPow 32 n)) s = .next t ∧ t.fsrc (16 * b + n) = FSrc.reset ∧
      (∀ i o, (i, o) ∈ u.prot.objs → u.wobj i = o → o.faultBy = [16 * b.val + n.val] → o.cause.getLsbD 8 = true →
        (t.wobj i).cleared.getLsbD 8 = true ∧ (t.wobj i).faultBy = [])) ∧
  (∀ (s : State) (b n : Fin 16) (u : State), s.runs → u = (s.checkCopies b).graceExpiry (16 * b + n) →
    (u.fsrc (16 * b + n)).status = true → u.condScopes (16 * b + n) ≠ [] →
    ∃ t, exec (.faultAck b (BitVec.twoPow 32 n)) s = .next t ∧ (t.fsrc (16 * b + n)).status = true) ∧
  (∀ (s : State) (b n : Fin 16) (u : State), s.runs → u = (s.checkCopies b).graceExpiry (16 * b + n) →
    (u.fsrc (16 * b + n)).status = false → exec (.faultAck b (BitVec.twoPow 32 n)) s = .next u) ∧
  (∀ (s : State) (b : Fin 16), s.runs → exec (.faultAck b 0) s = .next (s.checkCopies b))

/-- The set-up registers of chains and TDD schedules (R77, R82, R96): CH_CFG is written only while its chain is in SLEEP or STANDBY, and a register of a schedule only while every chain that follows it is; a refused write sets WR_BLOCKED of the schedules concerned and changes nothing else. -/
def Obligations.RadioSetupWrites : Prop :=
  (∀ (s : State) (d : Dir) (c : Fin 32) (v : Word), s.runs → bitsOf v 4 3 ≤ 4 → s.chainLow (chIdx d c) = true →
    ∃ t, exec (.chCfgWrite d c v) s = .next t ∧ s.onlyChain t (chIdx d c) ∧
      t.chain (chIdx d c) = { s.chain (chIdx d c) with role := bitsOf v 0 2, sched := bitsOf v 4 3 }) ∧
  (∀ (s : State) (d : Dir) (c : Fin 32) (v : Word), s.runs → bitsOf v 4 3 ≤ 4 → s.chainLow (chIdx d c) = false →
    ∃ t, exec (.chCfgWrite d c v) s = .next t ∧ t = { s with rfe := { s.rfe with scheds := t.rfe.scheds } } ∧
      ∀ k, t.sched k = if (s.chain (chIdx d c)).sched = k + 1 ∨ bitsOf v 4 3 = k + 1 then { s.sched k with wrBlocked := true } else s.sched k) ∧
  (∀ (s : State) (d : Dir) (c : Fin 32) (v : Word), s.runs → 4 < bitsOf v 4 3 → exec (.chCfgWrite d c v) s = .next s) ∧
  (∀ (s : State) (k : Fin 4) (r : Nat) (v : Word), s.runs → schedReg r = true → (∀ i, i < 64 → (s.chain i).sched = k + 1 → s.chainLow i = true) →
    ∃ t, exec (.tddRegisterWrite k r v) s = .next t ∧ s.onlySched t k ∧
      (r = 4 → (t.sched k).ofs = if bitsOf v 0 24 ≤ 9999999 then v &&& 0x00FFFFFF else (s.sched k).ofs) ∧ (r = 8 → (t.sched k).side = v) ∧
      (r = 0xC → (t.sched k).tim = if 0 < bitsOf v 0 8 ∧ bitsOf v 0 8 < bitsOf v 8 8 ∧ bitsOf v 8 8 < bitsOf v 16 8 ∧ bitsOf v 16 8 < 200 then v &&& 0x00FFFFFF else (s.sched k).tim) ∧
      (r = 0x14 → (t.sched k).ssbf = v) ∧ (∀ j, j < 32 → r = 0x40 + 4 * j → (t.sched k).pat.get 0 j = v &&& 0xC007FFFF) ∧
      (r ≠ 0 → (t.sched k).cfg = (s.sched k).cfg ∧ (t.sched k).sync = (s.sched k).sync) ∧ (r = 0 → (t.sched k).cfg &&& 0xE3FFF000 = v &&& 0xE3FFF000)) ∧
  (∀ (s : State) (k : Fin 4) (r : Nat) (v : Word), s.runs → schedReg r = true → (∃ i, i < 64 ∧ (s.chain i).sched = k + 1 ∧ s.chainLow i = false) →
    ∃ t, exec (.tddRegisterWrite k r v) s = .next t ∧ s.onlySched t k ∧ t.sched k = { s.sched k with wrBlocked := true }) ∧
  (∀ (s : State) (v : Word), s.runs → (∀ k, k < 4 → s.schedLow k = true) → exec (.tddswCfgWrite v) s = .next { s with rfe := { s.rfe with tddsw := v } }) ∧
  (∀ (s : State) (v : Word) (p k : Nat), s.runs → p < 8 → k < 4 → s.schedLow k = false → bitsOf v (4 * p) 4 ≠ bitsOf s.rfe.tddsw (4 * p) 4 →
    bitsOf v (4 * p) 2 = k ∨ bitsOf s.rfe.tddsw (4 * p) 2 = k →
    ∃ t, exec (.tddswCfgWrite v) s = .next t ∧ t = { s with rfe := { s.rfe with scheds := t.rfe.scheds } } ∧ (t.sched k).wrBlocked = true)

/-- The other set-up registers: JL_PORT_CFG (R361), JL_AGRP (R387), GEN_VID (R440), REC_CURSOR_HI (R353), TST_TMUX from HP (R413) and TIM_SLACK_CLR (R224), each with the conditions under which it takes effect. -/
def Obligations.OtherSetupWrites : Prop :=
  (∀ (s : State) (p : Fin 4) (v : Word), s.runs → bitsOf v 0 2 ≠ 3 →
    (bitsOf v 0 2 = 1 → s.isMaster = false ∧ ∀ q, q < 4 → q ≠ p.val → (s.port q).cfgRole ≠ 1) →
    ∃ t, exec (.jlPortCfgWrite p v) s = .next t ∧ s.onlyPort t p ∧ t.port p = { s.port p with cfgRole := bitsOf v 0 2, jl2En := v.getLsbD 3 }) ∧
  (∀ (s : State) (p : Fin 4) (v : Word), s.runs → bitsOf v 0 2 = 3 ∨ (bitsOf v 0 2 = 1 ∧ (s.isMaster = true ∨ ∃ q, q < 4 ∧ q ≠ p.val ∧ (s.port q).cfgRole = 1)) →
    exec (.jlPortCfgWrite p v) s = .next s) ∧
  (∀ (s : State) (d : Dir) (c : Fin 32) (v : Word), s.runs → (s.chainNow (chIdx d c)).trans = none →
    (s.chainNow (chIdx d c)).st = .sleep ∨ (s.chainNow (chIdx d c)).st = .standby →
    ∃ t, exec (.jlAgrpWrite d c v) s = .next t ∧ t = { s with jl := { s.jl with agrp := t.jl.agrp, dirty := true } } ∧ t.agrp (chIdx d c) = bitsOf v 0 6 ∧
      ∀ j, j ≠ chIdx d c → t.agrp j = s.agrp j) ∧
  (∀ (s : State) (d : Dir) (c : Fin 32) (v : Word), s.runs → (s.chainNow (chIdx d c)).trans ≠ none ∨ ((s.chainNow (chIdx d c)).st ≠ .sleep ∧ (s.chainNow (chIdx d c)).st ≠ .standby) →
    exec (.jlAgrpWrite d c v) s = .next s) ∧
  (∀ (s : State) (v : Word), s.runs → exec (.genVidWrite v) s = .next { s with tim := { s.tim with vidMode := v.getLsbD 31, vidFixed := bitsOf v 8 6, vidCeil := if s.tim.vidFloor ≤ bitsOf v 24 6 ∧ bitsOf v 24 6 ≤ 40 then bitsOf v 24 6 else s.tim.vidCeil } }) ∧
  (∀ (s : State) (v : Word), s.runs → exec (.recCursorHiWrite v) s = .next { s with recd := { s.recd with curHi := lowHalf v, cursor := (lowHalf v).toNat * 2 ^ 32 + s.recd.curLo.toNat } }) ∧
  (∀ (s : State) (p : Fin 8) (v : Word), s.runs → s.tst.straps.devEn = true → tmuxOk (v.toNat % 65536) = true →
    ∃ t, exec (.tstTmuxWrite p v) s = .next t ∧ t = { s with tst := { s.tst with tmux := t.tst.tmux } } ∧ t.tst.tmux.get 0 p = word (v.toNat % 65536) ∧
      ∀ q : Nat, q ≠ p → t.tst.tmux.get 0 q = s.tst.tmux.get 0 q) ∧
  (∀ (s : State) (p : Fin 8) (v : Word), s.runs → s.tst.straps.devEn = false ∨ tmuxOk (v.toNat % 65536) = false → exec (.tstTmuxWrite p v) s = .next s) ∧
  (∀ (s : State) (v : Word), s.runs → v.getLsbD 0 = true → ∃ t, exec (.timSlackClr v) s = .next t ∧ t = { s with tim := { s.tim with slack := t.tim.slack } } ∧
    (∀ i, (t.tim.slack.get Slack.reset i).min = 100 ∧ (t.tim.slack.get Slack.reset i).miss = false) ∧
    (s.tim.slack.wf Slack.reset = true → ∀ i, (t.tim.slack.get Slack.reset i).now = (s.tim.slack.get Slack.reset i).now)) ∧
  (∀ (s : State) (v : Word), s.runs → v.getLsbD 0 = false → exec (.timSlackClr v) s = .next s)

/-- Register accesses as such: an access that is not an aligned 32-bit one (or an aligned 64-bit one to the MSI-X table) changes nothing but the model's count of them (R6, R259); a write of a register that a command of its own names is that command; an MSI-X table word reads as written, BAR4 takes no writes; a read returns the register's value and then its RC fields read 0 (R7); a _LO read latches the upper half for its own port alone (R206). -/
def Obligations.RegisterAccess : Prop :=
  (∀ (s : State) (sp : RegSpace) (off size : Nat) (w : Bool), s.runs → unsupportedOn sp off size = true →
    exec (.unsupportedAccess sp off size w) s = .next { s with hif := { s.hif with urCount := s.hif.urCount + 1 } }) ∧
  (∀ (s : State) (sp : RegSpace) (off size : Nat) (w : Bool), s.runs → unsupportedOn sp off size = false → exec (.unsupportedAccess sp off size w) s = .next s) ∧
  (∀ (s : State) (n : Fin 16) (v : Word), s.runs → exec (.registerWrite .bar2 (0x100 * n) v) s = exec (.crTailDoorbell n v) s ∧
    exec (.registerWrite .bar2 (0x100 * n + 4) v) s = exec (.cqHeadDoorbell n v) s ∧ exec (.registerWrite .bar0 (0x1101C + 0x40 * n) v) s = exec (.crRestart n v) s) ∧
  (∀ (s : State) (v : Word), s.runs → exec (.registerWrite .bar0 0x30000 v) s = exec (.fltPolicyWrite v) s ∧ exec (.registerWrite .bar0 8 v) s = exec (.genVidWrite v) s ∧
    exec (.registerWrite .bar0 0x20014 v) s = exec (.intcEoi v) s ∧ exec (.registerWrite .bar0 0x20004 v) s = exec (.prigroupWrite v) s) ∧
  (∀ (s : State) (v : Word), s.runs → exec (.registerWrite .bar0 0x10004 v) s = .next { s with hif := { s.hif with flrWinter := v.getLsbD 0 } } ∧
    exec (.registerWrite .bar0 0x40008 v) s = .next { s with recd := { s.recd with curLo := v } } ∧
    exec (.registerWrite .msixControl 0 v) s = .next { s with hif := { s.hif with msixEn := v.getLsbD 15, msixMask := v.getLsbD 14 } }) ∧
  (∀ (s : State) (off : Nat) (v : Word), s.runs → exec (.registerWrite .bar4 off v) s = .next s) ∧
  (∀ (s : State) (i : Fin 256) (v : Word), s.runs → ∃ t, exec (.registerWrite .bar2 (0x8000 + 4 * i) v) s = .next t ∧ t = { s with hif := { s.hif with msix := t.hif.msix } } ∧
    t.msixWord i = v ∧ ∀ j : Nat, j ≠ i → t.msixWord j = s.msixWord j) ∧
  (∀ (s : State) (off : Nat), s.runs → off % 4 = 0 → off ≠ 0x20010 → ∃ t, exec (.readClear off) s = .next t ∧ t.hif.rdData.get 0 0 = s.regShow .hp off ∧
    (off = 0x20008 → t.intc.wrBlocked = false) ∧ (off = 0x3000C → t.flt.wrrej = 0 ∧ t.flt.regfault = 0) ∧ (off = 0x40038 → t.recd.dropHi = 0 ∧ t.recd.dropLo = 0) ∧
    (∀ n : Nat, n < 256 → off = 0x90024 + 0x100 * n → (t.slot n).satCnt = 0) ∧ (∀ c : Nat, c < 32 → off = 0xC3000 + 0x10 * c → (t.rxDet c).detCnt = 0)) ∧
  (∀ (s : State) (p : RdPort) (off : Nat), s.runs → ∃ t, exec (.loHalfRead p off) s = .next t ∧
    t = { s with hif := { s.hif with rdData := t.hif.rdData, hiLatch := t.hif.hiLatch } } ∧ t.hif.rdData.get 0 (portKey p) = s.regShow p off ∧
    (∀ v, s.loPair off = some v → t.latchOf p (off + 4) = word (v / 2 ^ 32)) ∧ (s.loPair off = none → t.hif.hiLatch = s.hif.hiLatch) ∧
    ∀ (q : RdPort) (o : Nat), q ≠ p → o < 2 ^ 20 → t.latchOf q o = s.latchOf q o)

/-- Loss and return of clocks (R59, R208, R209): a lost reference or converter clock raises CK_UNLOCK in each tile concerned and drops its chains above SLEEP to STANDBY with LOCK FAILED, leaving every other chain as it was; on return the clocks relock and the tiles await the next aligned frame edge, at which their buffers are realigned; a pointer distance outside 4 to 60 raises EB_SLIP in the tile and asks for that realignment. -/
def Obligations.ClockLossAndRealignment : Prop :=
  (∀ (s : State) (tiles : BitVec 4) (lost : Bool), s.runs → ∃ (t : State) (m : BitVec 4), exec (.referenceLoss tiles lost) s = .next t ∧ m = (if lost then s.rfe.ckLocked else tiles &&& s.rfe.ckLocked) ∧
    t.rfe.refOk = (s.rfe.refOk && !lost) ∧ t.rfe.ckLocked = s.rfe.ckLocked &&& ~~~m ∧ t.tim = { s.tim with tileOk := s.tim.tileOk &&& ~~~m } ∧
    (∀ k, k < 4 → m.getLsbD k = true → (t.fsrc (16 * (6 + k) + 4)).status = true) ∧
    (∀ i, i < 64 → m.getLsbD (chTile i) = true → (s.chainNow i).st ≠ .sleep → (t.chain i).st = .standby ∧ (t.chain i).lock = .failed ∧ (t.chain i).trans = none ∧ (t.chain i).walk = none ∧ (t.chain i).cal = none) ∧
    (∀ i, i < 64 → m.getLsbD (chTile i) = false ∨ (s.chain i).st = .sleep → t.chain i = s.chain i) ∧
    t.le = s.le ∧ t.jl = s.jl ∧ t.tst = s.tst ∧ t.cxPol = s.cxPol ∧ t.luts = s.luts) ∧
  (∀ (s : State) (tiles : BitVec 4), s.runs → ∃ t, exec (.referenceReturn tiles) s = .next t ∧ t.rfe = { s.rfe with refOk := true, ckLocked := s.rfe.ckLocked ||| (tiles &&& ~~~s.rfe.ckLocked) } ∧
    (∀ k, k < 4 → t.tileT k = if (tiles &&& ~~~s.rfe.ckLocked).getLsbD k then { s.tileT k with realign := true } else s.tileT k) ∧
    t = { s with rfe := t.rfe, tim := { s.tim with tiles := t.tim.tiles } }) ∧
  (∀ (s : State) (k : Fin 4), s.runs → (s.tileT k.val).realign = true → s.rfe.ckLocked.getLsbD k.val = true → s.tim.align = 2 → s.frameOfs = 0 → ∃ t, exec (.tileRealign k) s = .next t ∧
    t.tileT k.val = { s.tileT k.val with realign := false, rxSlip := 0, txSlip := 0 } ∧ (∀ j, j ≠ k.val → t.tileT j = s.tileT j) ∧
    t = { s with tim := { s.tim with tileOk := s.tim.tileOk ||| BitVec.twoPow 4 k.val, tiles := t.tim.tiles } }) ∧
  (∀ (s : State) (k : Fin 4), s.runs → (s.tileT k.val).realign = false ∨ s.rfe.ckLocked.getLsbD k.val = false ∨ s.tim.align ≠ 2 ∨ s.frameOfs ≠ 0 → exec (.tileRealign k) s = .next s) ∧
  (∀ (s : State) (d : Dir) (c : Fin 32) (n : Nat), s.runs → 4 ≤ n → n ≤ 60 → exec (.elasticBufferSlip d c n) s = .next s) ∧
  (∀ (s : State) (d : Dir) (c : Fin 32) (n : Nat), s.runs → n < 4 ∨ 60 < n → ∃ t, exec (.elasticBufferSlip d c n) s = .next t ∧ ({ s with tim := t.tim } : State).alarmed t ∧
    (t.fsrc (16 * 5 + 3)).status = true ∧ (t.tileT (c.val / 8)).realign = true ∧ t.tim.tileOk.getLsbD (c.val / 8) = false ∧
    (d = .rx → (t.tileT (c.val / 8)).rxSlip.getLsbD (c.val % 8) = true) ∧ (d = .tx → (t.tileT (c.val / 8)).txSlip.getLsbD (c.val % 8) = true) ∧ ∀ j, j ≠ c.val / 8 → t.tileT j = s.tileT j)

/-- Frame edges (R79, R207, R208, R374): an edge of FRAME_IN reaches every schedule of source 1, of which one that saw an edge 10 ms earlier is acquired; during alignment a pair 10 ms apart makes FRAME_IN the master's source; after it an edge more than 20 ns off the aligned grid raises FRAME_DRIFT and moves nothing; an aligned frame edge drives FRAME_OUT and raises the FRAME interrupt source. -/
def Obligations.FrameEdges : Prop :=
  (∀ (s : State), s.runs → ∃ t, exec .frameInEdge s = .next t ∧ (∀ k, k < 4 → t.sched k = (s.sched k).frameIn s.now) ∧
    (∀ k, k < 4 → (s.sched k).src ≠ 1 → t.sched k = s.sched k) ∧
    (∀ k e, k < 4 → (s.sched k).src = 1 → (s.sched k).sync ≠ .locked → (s.sched k).lastEv = some e → absDiff (s.now - e) (10 * tms) ≤ tus → (t.sched k).sync = .locked ∧ (t.sched k).refEv = s.now) ∧
    t.tim.frameIn = some s.now ∧ (s.tim.align ≠ 2 → t.tim.edgeCnt = s.tim.edgeCnt ∧ t.flt = s.flt) ∧
    (∀ e, s.tim.align = 1 → s.tst.straps.casMaster = true → s.tim.srcUsed = 0 → s.tim.frameIn = some e → absDiff (s.now - e) (10 * tms) ≤ tus → s.tst.stageAt ≤ e → t.tim.srcUsed = 2) ∧
    (s.tim.align = 2 → t.tim = { s.tim with frameIn := some s.now, edgeCnt := (s.tim.edgeCnt + 1) % 65536, ferr := s.frameOfs * 2 / (tns : Int) }) ∧
    (s.tim.align = 2 → 20 * tns < s.frameOfs.natAbs → (t.fsrc (16 * 5 + 5)).status = true) ∧
    (s.frameOfs.natAbs ≤ 20 * tns → t.flt = s.flt ∧ t.recd = s.recd ∧ t.intc = s.intc) ∧
    ({ s with rfe := t.rfe, tim := t.tim } : State).alarmed t) ∧
  (∀ (s : State), s.runs → s.tim.align = 2 → s.tim.dtRun = true → s.frameOfs = 0 → ∃ t, exec .frameEdge s = .next t ∧ t = ({ s with tim := { s.tim with frameOut := some s.now } } : State).irqEdge 23 ∧ (s.intc.en.getLsbD 23 = true → t.intc.lat.getLsbD 23 = true)) ∧
  (∀ (s : State), s.runs → s.tim.align ≠ 2 ∨ s.tim.dtRun = false ∨ s.frameOfs ≠ 0 → exec .frameEdge s = .next s)

/-- Deadlines, slack, AUTUMN and the core supply request (R211, R213 to R217): a missed block counts a zero block, raises its DEADLINE source and stands as a slack of 0, with SLACK_FAIL where it was 2 or more; each chain-grid block of reports sets the tile slacks, raises SLACK_WARN below 20 and SLACK_FAIL below 2 as each is crossed, and enters AUTUMN below 8; AUTUMN advances at the end of each millisecond still below 8, to stage 3, and ends after 100 ms at 12 or more; VID follows its rule each millisecond and each second. -/
def Obligations.DeadlinesSlackAndSupply : Prop :=
  (∀ (s : State) (l : MissLevel), s.runs → ∃ t, exec (.deadlineMiss l) s = .next t ∧ ({ s with tim := t.tim } : State).alarmed t ∧
    (t.fsrc (16 * (s.missOf l).2.2.1 + (s.missOf l).2.2.2.1)).status = true ∧ (t.tileT (s.missOf l).1).zbCnt = satInc 0xFFFF (s.tileT (s.missOf l).1).zbCnt ∧
    (t.tileT (s.missOf l).2.1).slackDp = 0 ∧ (t.tileT (s.missOf l).2.1).slackAll = 0 ∧ (2 ≤ (s.tileT (s.missOf l).2.1).slackDp → (t.fsrc (16 * 5 + 2)).status = true) ∧
    ∀ j, j ≠ (s.missOf l).1 → j ≠ (s.missOf l).2.1 → t.tileT j = s.tileT j) ∧
  (∀ (s : State) (k : Fin 4) (r : List (Fin 64 × Fin 101 × Bool)), s.runs → s.onSmp chainBlk = false → exec (.slackCheck k r) s = .next s) ∧
  (∀ (s : State) (k : Fin 4) (r : List (Fin 64 × Fin 101 × Bool)), s.runs → s.onSmp chainBlk = true → ∃ (t : State) (all dp : Nat), exec (.slackCheck k r) s = .next t ∧ ({ s with tim := t.tim } : State).alarmed t ∧
    all = leastOr (s.tileT k.val).slackAll (r.map (fun e => e.2.1.val)) ∧ dp = leastOr (s.tileT k.val).slackDp ((r.filter (fun e => decide (e.1.val < 56))).map (fun e => e.2.1.val)) ∧
    (t.tileT k.val).slackAll = all ∧ (t.tileT k.val).slackDp = dp ∧ (∀ j, j ≠ k.val → t.tileT j = s.tileT j) ∧
    (t.tileT k.val).stage = (if (s.tileT k.val).stage = 0 ∧ all < 8 then 1 else (s.tileT k.val).stage) ∧
    (all < 20 → 20 ≤ (s.tileT k.val).slackAll → (t.fsrc (16 * 5)).status = true) ∧ (all < 8 → (s.tileT k.val).stage = 0 → (t.fsrc (16 * 5 + 1)).status = true) ∧
    (dp < 2 → 2 ≤ (s.tileT k.val).slackDp → (t.fsrc (16 * 5 + 2)).status = true) ∧
    (all < 20 → t.tim.vidLow = true) ∧ (all < 40 → t.tim.vidHigh = false)) ∧
  (∀ (s : State) (k : Fin 4), s.runs → (s.tileT k.val).stage = 1 ∨ (s.tileT k.val).stage = 2 → (s.tileT k.val).stageAt < s.now → (s.now - (s.tileT k.val).stageAt) % tms = 0 → (s.tileT k.val).slackAll < 8 →
    ∃ t, exec (.autumnStageAdvance k) s = .next t ∧ t.tileT k.val = { s.tileT k.val with stage := (s.tileT k.val).stage + 1, stageAt := s.now } ∧ s.onlyTileT t k.val) ∧
  (∀ (s : State) (k : Fin 4), s.runs → (s.tileT k.val).stage = 0 ∨ (s.tileT k.val).stage = 3 ∨ 8 ≤ (s.tileT k.val).slackAll → exec (.autumnStageAdvance k) s = .next s) ∧
  (∀ (s : State) (k : Fin 4) (g : Nat), s.runs → 1 ≤ (s.tileT k.val).stage → (s.tileT k.val).goodAt = some g → g + 100 * tms ≤ s.now →
    ∃ t, exec (.autumnExit k) s = .next t ∧ t.tileT k.val = { s.tileT k.val with stage := 0, stageAt := s.now } ∧ s.onlyTileT t k.val) ∧
  (∀ (s : State) (k : Fin 4), s.runs → (s.tileT k.val).goodAt = none ∨ (∃ g, (s.tileT k.val).goodAt = some g ∧ s.now < g + 100 * tms) → exec (.autumnExit k) s = .next s) ∧
  (∀ (s : State), s.runs → s.onGrid tms = true → 2 ≤ s.tst.stage → ∃ t, exec .vidRaise s = .next t ∧ ({ s with tim := t.tim } : State).alarmed t ∧ t.tim = { s.tim with vidLow := false, vidNow := t.tim.vidNow } ∧
    (s.tim.vidMode = true → t.tim.vidNow = min s.tim.vidCeil (max s.tim.vidFloor s.tim.vidFixed)) ∧
    (s.tim.vidMode = false → s.tim.vidLow = true → s.tim.vidNow < s.tim.vidCeil → t.tim.vidNow = s.tim.vidNow + 1) ∧
    (s.tim.vidMode = false → s.tim.vidLow = true → s.tim.vidCeil ≤ s.tim.vidNow → t.tim.vidNow = s.tim.vidCeil ∧ (t.fsrc (16 * 5 + 6)).status = true) ∧
    (s.tim.vidMode = true ∨ s.tim.vidLow = false ∨ s.tim.vidNow < s.tim.vidCeil → t = { s with tim := t.tim })) ∧
  (∀ (s : State), s.runs → s.onGrid tms = false ∨ s.tst.stage ≤ 1 → exec .vidRaise s = .next s) ∧
  (∀ (s : State), s.runs → s.onGrid tsec = true → 2 ≤ s.tst.stage → exec .vidLower s = .next { s with tim := { s.tim with vidHigh := true, vidNow := if s.tim.vidMode = false ∧ s.tim.vidHigh = true ∧ s.tim.vidFloor < s.tim.vidNow then s.tim.vidNow - 1 else s.tim.vidNow } }) ∧
  (∀ (s : State), s.runs → s.onGrid tsec = false ∨ s.tst.stage ≤ 1 → exec .vidLower s = .next s)

/-- TDD schedules (R79, R80, R82): a detection on a receiving chain reaches its schedule, and the third in a row within 0.5 µs of prediction acquires it; a schedule that has missed its events goes to HOLDOVER, counts the loss and raises TDD_SYNC_LOSS for every transmit chain that follows it; the end of a transmit or receive period gates that side and starts the turnaround of Table 3-9, whose steps follow at T1, T2, T3 and 800 ns in their order. -/
def Obligations.TddSwitching : Prop :=
  (∀ (s : State) (k : Fin 4), s.runs → (s.chain (bitsOf (s.sched k.val).cfg 21 5)).st = .rxOn → ∃ t, exec (.syncDetection k) s = .next t ∧ t.sched k.val = (s.sched k.val).detect s.now ∧
    (∀ e, 2 ≤ (s.sched k.val).src → (s.sched k.val).sync ≠ .locked → 2 ≤ (s.sched k.val).hits → (s.sched k.val).lastEv = some e → absDiff (s.now - e) (s.sched k.val).burst ≤ 500 * tns →
      (t.sched k.val).sync = .locked ∧ (t.sched k.val).refEv = s.now) ∧
    (∀ j, j ≠ k.val → t.sched j = s.sched j) ∧ t = { s with rfe := { s.rfe with scheds := t.rfe.scheds }, slots := t.slots, cx := t.cx }) ∧
  (∀ (s : State) (k : Fin 4), s.runs → (s.chain (bitsOf (s.sched k.val).cfg 21 5)).st ≠ .rxOn → exec (.syncDetection k) s = .next s) ∧
  (∀ (s : State) (k : Fin 4) (d : Nat), s.runs → (s.sched k.val).sync = .locked → (s.sched k.val).lostAt = some d → d ≤ s.now → ∃ t, exec (.syncLoss k) s = .next t ∧
    t.sched k.val = { s.sched k.val with sync := .holdover, lossCnt := satInc 0xFFFF (s.sched k.val).lossCnt, hits := 0, lastEv := none, lossAt := some s.now, lockedAt := none } ∧
    (∀ j, j ≠ k.val → t.sched j = s.sched j) ∧ (∀ c, c < 32 → (s.chain (32 + c)).sched = k.val + 1 → (t.fsrc (16 * 13 + 9)).status = true) ∧
    ({ s with rfe := { s.rfe with scheds := t.rfe.scheds } } : State).alarmed t) ∧
  (∀ (s : State) (k : Fin 4), s.runs → (s.sched k.val).sync ≠ .locked ∨ (s.sched k.val).lostAt = none ∨ (∃ d, (s.sched k.val).lostAt = some d ∧ s.now < d) → exec (.syncLoss k) s = .next s) ∧
  (∀ (s : State) (k : Fin 4) (sv : Bool), s.runs → (s.sched k.val).runs = true → ∃ t, exec (.tddPeriodEdge k sv) s = .next t ∧ t = { s with rfe := { s.rfe with scheds := t.rfe.scheds }, slots := t.slots, cx := t.cx } ∧
    (∀ j, j ≠ k.val → t.sched j = s.sched j) ∧ (t.sched k.val).antOf (!sv) = (s.sched k.val).antOf (!sv) ∧
    ((s.sched k.val).ends sv (!sv) s.now = true → (t.sched k.val).antOf sv = { (s.sched k.val).antOf sv with txOpen := false, turn := some (true, s.now, 0) }) ∧
    ((s.sched k.val).ends sv (!sv) s.now = false → (s.sched k.val).ends sv sv s.now = true → (t.sched k.val).antOf sv = { (s.sched k.val).antOf sv with rxOpen := false, turn := some (false, s.now, 0) }) ∧
    ((s.sched k.val).ends sv (!sv) s.now = false → (s.sched k.val).ends sv sv s.now = false → t.sched k.val = s.sched k.val)) ∧
  (∀ (s : State) (k : Fin 4) (sv : Bool), s.runs → (s.sched k.val).runs = false → exec (.tddPeriodEdge k sv) s = .next s ∧ exec (.turnaroundStep k sv) s = .next s) ∧
  (∀ (s : State) (k : Fin 4) (sv l : Bool) (t0 n : Nat), s.runs → (s.sched k.val).runs = true → ((s.sched k.val).antOf sv).turn = some (l, t0, n) → t0 + turnAt (s.sched k.val).tim n ≤ s.now → ∃ t, exec (.turnaroundStep k sv) s = .next t ∧
    s.onlySched t k.val ∧ (t.sched k.val).antOf (!sv) = (s.sched k.val).antOf (!sv) ∧ ((t.sched k.val).antOf sv).turn = (if 3 ≤ n then none else some (l, t0, n + 1)) ∧
    (l = true → n = 0 → ((t.sched k.val).antOf sv).paOk = false) ∧ (l = true → n = 1 → ((t.sched k.val).antOf sv).swTx = false) ∧ (l = true → n = 2 → ((t.sched k.val).antOf sv).lnabHigh = false) ∧ (l = true → 3 ≤ n → ((t.sched k.val).antOf sv).rxOpen = true) ∧
    (l = false → n = 0 → ((t.sched k.val).antOf sv).lnabHigh = true) ∧ (l = false → n = 1 → ((t.sched k.val).antOf sv).swTx = true) ∧ (l = false → n = 2 → ((t.sched k.val).antOf sv).paOk = true) ∧ (l = false → 3 ≤ n → ((t.sched k.val).antOf sv).txOpen = true)) ∧
  (∀ (s : State) (k : Fin 4) (sv : Bool), s.runs → ((s.sched k.val).antOf sv).turn = none ∨ (∃ l t0 n, ((s.sched k.val).antOf sv).turn = some (l, t0, n) ∧ s.now < t0 + turnAt (s.sched k.val).tim n) → exec (.turnaroundStep k sv) s = .next s)

/-- Tuning and lock (R63, R67, R72, Tables 3-4 and 3-7): a due CHAIN_TUNE commits at a chain-grid boundary, stores the tuning and its calibration requirements, and completes at once for a chain below SYNTH; a chain in SYNTH starts to settle and its CHAIN_TUNE stays until lock. Lock within 160 µs makes every settling chain of the LO LOCKED; at the next boundary its tunes have ended. At 160 µs without lock the chain is FAILED, LO_UNLOCK is raised and its tunes and calibrations have ended. A lost lock moves every chain of the LO that ran to SYNTH, SETTLING, ends its calibration and raises LO_UNLOCK. -/
def Obligations.TuningAndLock : Prop :=
  (∀ (s : State) (d : Dir) (c : Fin 32) (p : Pend), s.runs → s.onSmp chainBlk = true → (s.chainSync (chIdx d c.val)).pends (fun p => isChainTune (chIdx d c.val) p && !p.committed && decide (p.acc < s.now)) = [p] → p.aux = 0 →
    ∃ u : State, exec (.tuningCommit d c) s = .next (u.complete p .ok 0 0) ∧ u = { s with rfe := u.rfe } ∧ (∀ j, u.chain j = (s.chainSync (chIdx d c.val)).chain j) ∧
      (∀ mode losel fw ifofs pdly ch dr, p.desc = .chainTune ch dr mode losel fw ifofs pdly → d = .tx → u.txc c.val = { s.txc c.val with pdly := pdly })) ∧
  (∀ (s : State) (d : Dir) (c : Fin 32) (p : Pend) (ch dr mode losel : Byte) (fw ifofs : Word) (pdly : Half), s.runs → s.onSmp chainBlk = true →
    (s.chainSync (chIdx d c.val)).pends (fun p => isChainTune (chIdx d c.val) p && !p.committed && decide (p.acc < s.now)) = [p] → p.aux = 1 → p.desc = .chainTune ch dr mode losel fw ifofs pdly →
    ∃ t, exec (.tuningCommit d c) s = .next t ∧ (∀ j, j ≠ chIdx d c.val → t.chain j = s.chain j) ∧ (t.chain (chIdx d c.val)).st = (s.chainNow (chIdx d c.val)).st ∧
      (t.chain (chIdx d c.val)).fw = fw.toNat ∧ (t.chain (chIdx d c.val)).quad = decide (mode = 1) ∧ (t.chain (chIdx d c.val)).losel = decide (losel = 1) ∧
      (t.chain (chIdx d c.val)).unmet.getLsbD 0 = true ∧ ((t.chain (chIdx d c.val)).unmet.getLsbD 3 = decide (mode = 1)) ∧
      ((s.chainNow (chIdx d c.val)).st ≠ .synth → (t.chain (chIdx d c.val)).lock = (s.chainNow (chIdx d c.val)).lock ∧ ∀ q ∈ t.hif.outstanding, q.id ≠ p.id) ∧
      ((s.chainNow (chIdx d c.val)).st = .synth → (t.chain (chIdx d c.val)).settleAt = s.now ∧ (t.chain (chIdx d c.val)).trans = none ∧
        ((t.chain (chIdx d c.val)).lock = .settling ∨ ((t.chain (chIdx d c.val)).lock = .locked ∧ ∃ j, j ≠ chIdx d c.val ∧ (s.chainNow j).lock = .locked ∧ (s.chainNow j).fLo = (t.chain (chIdx d c.val)).fLo)))) ∧
  (∀ (s : State) (d : Dir) (c : Fin 32), s.runs → s.onSmp chainBlk = false ∨ (s.chainSync (chIdx d c.val)).pends (fun p => isChainTune (chIdx d c.val) p && !p.committed && decide (p.acc < s.now)) = [] →
    exec (.tuningCommit d c) s = .next (s.chainSync (chIdx d c.val))) ∧
  (∀ (s : State) (d : Dir) (c : Fin 32), s.runs → (s.chainNow (chIdx d c.val)).lock = .settling → s.now ≤ (s.chainNow (chIdx d c.val)).settleAt + 160 * tus → ∃ t, exec (.lockReached d c) s = .next t ∧
    t = { s with hif := t.hif, intc := t.intc, recd := t.recd, rfe := { s.rfe with chains := t.rfe.chains } } ∧
    (∀ j, j = chIdx d c.val ∨ (j ∈ s.loChains (chIdx d c.val) ∧ (s.chainNow j).lock = .settling ∧ (s.chainNow j).fLo = (s.chainNow (chIdx d c.val)).fLo) →
      (t.chain j).lock = .locked ∧ (t.chain j).settleAt = s.now ∧ (t.chain j).unmet = (s.chainNow j).unmet &&& 13 ∧ (t.chain j).fail = (s.chainNow j).fail &&& 13 ∧ (t.chain j).done = (s.chainNow j).done ||| 2 ∧ (t.chain j).st = (s.chainNow j).st) ∧
    (∀ j, j ∉ s.loChains (chIdx d c.val) → t.chain j = s.chain j)) ∧
  (∀ (s : State) (d : Dir) (c : Fin 32), s.runs → (s.chainNow (chIdx d c.val)).lock = .settling → (s.chainNow (chIdx d c.val)).settleAt + 160 * tus < s.now → exec (.lockReached d c) s = .next (s.chainSync (chIdx d c.val))) ∧
  (∀ (s : State) (d : Dir) (c : Fin 32), s.runs → (s.chainNow (chIdx d c.val)).lock = .locked → (s.chainNow (chIdx d c.val)).settleAt < s.now → s.onSmp chainBlk = true → ∃ t, exec (.lockReached d c) s = .next t ∧
    (∀ q ∈ t.hif.outstanding, ¬ (isChainTune (chIdx d c.val) q = true ∧ q.committed = true)) ∧ (t.chain (chIdx d c.val)).lock = .locked ∧ (t.chain (chIdx d c.val)).st = (s.chainNow (chIdx d c.val)).st ∧
    (∀ j, j ≠ chIdx d c.val → t.chain j = s.chain j) ∧
    (∀ id g, (s.chainNow (chIdx d c.val)).walk = some (id, g) → (s.chainNow (chIdx d c.val)).trans = none → (s.chainNow (chIdx d c.val)).st = .synth → 3 ≤ g.rank → (s.chainNow (chIdx d c.val)).unmet = 0 → (t.chain (chIdx d c.val)).trans = some (g, s.now))) ∧
  (∀ (s : State) (d : Dir) (c : Fin 32), s.runs → (s.chainNow (chIdx d c.val)).lock = .settling → (s.chainNow (chIdx d c.val)).settleAt + 160 * tus ≤ s.now → ∃ t, exec (.lockTimeout d c) s = .next t ∧
    (t.chain (chIdx d c.val)).lock = .failed ∧ (t.chain (chIdx d c.val)).unmet = (s.chainNow (chIdx d c.val)).unmet ||| 2 ∧ (t.chain (chIdx d c.val)).st = (s.chainNow (chIdx d c.val)).st ∧ (∀ j, j ≠ chIdx d c.val → t.chain j = s.chain j) ∧
    (t.fsrc (16 * (6 + chTile (chIdx d c.val)) + 3)).status = true ∧ (∀ q ∈ t.hif.outstanding, isCalRun (chIdx d c.val) q = false ∧ ¬ (isChainTune (chIdx d c.val) q = true ∧ q.committed = true)) ∧
    ({ s with rfe := t.rfe } : State).alarmed t) ∧
  (∀ (s : State) (d : Dir) (c : Fin 32), s.runs → (s.chainNow (chIdx d c.val)).lock ≠ .settling ∨ s.now < (s.chainNow (chIdx d c.val)).settleAt + 160 * tus → exec (.lockTimeout d c) s = .next (s.chainSync (chIdx d c.val))) ∧
  (∀ (s : State) (d : Dir) (c : Fin 32), s.runs → (s.chainNow (chIdx d c.val)).lock = .locked → 2 ≤ (s.chainNow (chIdx d c.val)).st.rank → ∃ t, exec (.lockLost d c) s = .next t ∧
    (∀ j, j = chIdx d c.val ∨ (j ∈ s.loChains (chIdx d c.val) ∧ (s.chainNow j).lock = .locked ∧ 2 ≤ (s.chainNow j).st.rank) →
      (t.chain j).st = .synth ∧ (t.chain j).lock = .settling ∧ (t.chain j).settleAt = s.now ∧ (t.chain j).cal = none ∧ (t.fsrc (16 * (6 + chTile j) + 3)).status = true ∧ ∀ q ∈ t.hif.outstanding, isCalRun j q = false) ∧
    (∀ j, j ∉ s.loChains (chIdx d c.val) → t.chain j = s.chain j) ∧ ({ s with rfe := t.rfe } : State).alarmed t) ∧
  (∀ (s : State) (d : Dir) (c : Fin 32), s.runs → (s.chainNow (chIdx d c.val)).lock ≠ .locked ∨ (s.chainNow (chIdx d c.val)).st.rank < 2 → exec (.lockLost d c) s = .next (s.chainSync (chIdx d c.val)))

/-- Walks and calibrations (R67 to R70, R74, R75): a transition that has lasted its time leaves the chain in the state it led to, where the walk ends or goes on; a held CHAIN_STATE takes effect at a boundary after the transient; a calibration starts for the oldest ready CAL_RUN while its tile has a free place, and its end enters the figure, clears or sets the bit in UNMET, DONE and FAIL, raises CAL_FAIL on a failure, and starts the next one or ends the CAL_RUN. -/
def Obligations.WalksAndCalibrations : Prop :=
  (∀ (s : State) (d : Dir) (c : Fin 32) (g : ChSt) (t0 : Nat), s.runs → (s.chainNow (chIdx d c.val)).trans = some (g, t0) →
    t0 + (if g = .txOn then 18 * tus else if (s.chainNow (chIdx d c.val)).st = .txOn then 6 * tus else 0) ≤ s.now → g ≠ .synth ∨ 3 ≤ (s.chainNow (chIdx d c.val)).st.rank → ∃ t, exec (.chainTransitionEnd d c) s = .next t ∧
    (t.chain (chIdx d c.val)).st = g ∧ (∀ j, j ≠ chIdx d c.val → t.chain j = s.chain j) ∧
    (g = .standby → 2 ≤ (s.chainNow (chIdx d c.val)).st.rank → (t.chain (chIdx d c.val)).lock = .none) ∧ ((s.chainNow (chIdx d c.val)).st = .sleep → g ≠ .sleep → (t.chain (chIdx d c.val)).unmet = (s.chainNow (chIdx d c.val)).unmet ||| 5) ∧
    ((s.chainNow (chIdx d c.val)).walk = none → (t.chain (chIdx d c.val)).trans = none) ∧
    (∀ id, (s.chainNow (chIdx d c.val)).walk = some (id, g) → (t.chain (chIdx d c.val)).walk = none ∧ (t.chain (chIdx d c.val)).trans = none ∧ ∀ q ∈ t.hif.outstanding, q.id ≠ id) ∧
    (∀ id g', (s.chainNow (chIdx d c.val)).walk = some (id, g') → g ≠ g' → (chNext g g').rank ≤ 2 → (t.chain (chIdx d c.val)).trans = some (chNext g g', s.smpAtOrAfter chainBlk s.now)) ∧
    t = { s with hif := t.hif, intc := t.intc, recd := t.recd, rfe := { s.rfe with chains := t.rfe.chains }, slots := t.slots, cx := t.cx }) ∧
  (∀ (s : State) (d : Dir) (c : Fin 32), s.runs → (s.chainNow (chIdx d c.val)).trans = none ∨ (∃ g t0, (s.chainNow (chIdx d c.val)).trans = some (g, t0) ∧ s.now < t0) → exec (.chainTransitionEnd d c) s = .next (s.chainSync (chIdx d c.val))) ∧
  (∀ (s : State) (d : Dir) (c : Fin 32) (p : Pend) (r : List Pend), s.runs → s.heldStates (chIdx d c.val) = p :: r → s.onSmp chainBlk = true → (s.chainNow (chIdx d c.val)).walk = none → (s.chainNow (chIdx d c.val)).trans = none →
    (s.chainNow (chIdx d c.val)).lock ≠ .settling → (s.chainNow (chIdx d c.val)).cal = none → p.acc < s.now → s.pends (fun q => isCalRun (chIdx d c.val) q && decide (q.id < p.id)) = [] →
    ((s.chainNow (chIdx d c.val)).st = p.target → exec (.chainStateHeldStart d c) s = .next ((s.chainSync (chIdx d c.val)).complete p .ok 0 0)) ∧
    ((s.chainNow (chIdx d c.val)).st ≠ p.target → 3 ≤ (chNext (s.chainNow (chIdx d c.val)).st p.target).rank → (s.chainNow (chIdx d c.val)).lock ≠ .locked ∨ (s.chainNow (chIdx d c.val)).unmet ≠ 0 →
      exec (.chainStateHeldStart d c) s = .next ((s.chainSync (chIdx d c.val)).complete p .refusedState 0 0)) ∧
    ((s.chainNow (chIdx d c.val)).st ≠ p.target → (chNext (s.chainNow (chIdx d c.val)).st p.target).rank ≤ 2 ∨ ((s.chainNow (chIdx d c.val)).lock = .locked ∧ (s.chainNow (chIdx d c.val)).unmet = 0) → ∃ t, exec (.chainStateHeldStart d c) s = .next t ∧
      t.chain (chIdx d c.val) = { s.chainNow (chIdx d c.val) with walk := some (p.id, p.target), trans := some (chNext (s.chainNow (chIdx d c.val)).st p.target, s.now) } ∧ (∀ j, j ≠ chIdx d c.val → t.chain j = s.chain j) ∧
      t = { s with rfe := { s.rfe with chains := t.rfe.chains }, hif := { s.hif with outstanding := s.hif.outstanding.map (fun q => if q.id = p.id then { q with aux := 1, start := s.now } else q) } })) ∧
  (∀ (s : State) (d : Dir) (c : Fin 32), s.runs → s.heldStates (chIdx d c.val) = [] ∨ s.onSmp chainBlk = false → exec (.chainStateHeldStart d c) s = .next (s.chainSync (chIdx d c.val))) ∧
  (∀ (s : State) (d : Dir) (c : Fin 32) (p : Pend), s.runs → s.onSmp chainBlk = true →
    ((s.chainSync (chIdx d c.val)).pends (fun p => isTileCal (chTile (chIdx d c.val)) p && !p.committed && decide (p.acc < s.now))).find? (fun p => (s.chainSync (chIdx d c.val)).calReady p.calChain) = some p → p.calChain = chIdx d c.val →
    ((List.range 64).filter (fun j => decide (chTile j = chTile (chIdx d c.val) ∧ ((s.chainSync (chIdx d c.val)).chain j).cal ≠ none))).length < 4 → ∃ t, exec (.calStart d c) s = .next t ∧
    t.chain (chIdx d c.val) = { s.chainNow (chIdx d c.val) with cal := some (p.id, calFirst p.aux, s.now) } ∧ (∀ j, j ≠ chIdx d c.val → t.chain j = s.chain j) ∧
    t = { s with rfe := { s.rfe with chains := t.rfe.chains }, hif := { s.hif with outstanding := s.hif.outstanding.map (fun q => if q.id = p.id then { q with committed := true, start := s.now } else q) } }) ∧
  (∀ (s : State) (d : Dir) (c : Fin 32), s.runs → s.onSmp chainBlk = false → exec (.calStart d c) s = .next (s.chainSync (chIdx d c.val))) ∧
  (∀ (s : State) (d : Dir) (c : Fin 32) (pass : Bool) (fig : Byte) (id b t0 : Nat), s.runs → (s.chainNow (chIdx d c.val)).cal = some (id, b, t0) → t0 < s.now → b < 4 → ∃ t, exec (.calEnd d c pass fig) s = .next t ∧
    (∀ j, j ≠ chIdx d c.val → t.chain j = s.chain j) ∧ (t.chain (chIdx d c.val)).st = (s.chainNow (chIdx d c.val)).st ∧ (b = 3 → (t.chain (chIdx d c.val)).imgDb = fig) ∧ (b = 0 → (t.chain (chIdx d c.val)).resid = fig) ∧
    (calPassed b pass fig = true → (t.chain (chIdx d c.val)).unmet.getLsbD b = false ∧ (t.chain (chIdx d c.val)).done.getLsbD b = true ∧ (t.chain (chIdx d c.val)).fail.getLsbD b = false) ∧
    (calPassed b pass fig = false → (t.chain (chIdx d c.val)).unmet = (s.chainNow (chIdx d c.val)).unmet ∧ (t.chain (chIdx d c.val)).fail.getLsbD b = true ∧ (t.fsrc (16 * (6 + chTile (chIdx d c.val)) + 5)).status = true) ∧
    (∀ p, s.pend? id = some p → p.aux - 2 ^ b ≠ 0 → (t.chain (chIdx d c.val)).cal = some (id, calFirst (p.aux - 2 ^ b), s.now)) ∧
    (∀ p, s.pend? id = some p → p.aux - 2 ^ b = 0 → (t.chain (chIdx d c.val)).cal = none ∧ ∀ q ∈ t.hif.outstanding, q.id ≠ id) ∧
    ({ s with rfe := { s.rfe with chains := t.rfe.chains } } : State).alarmed t) ∧
  (∀ (s : State) (d : Dir) (c : Fin 32) (pass : Bool) (fig : Byte), s.runs → (s.chainNow (chIdx d c.val)).cal = none → exec (.calEnd d c pass fig) s = .next (s.chainSync (chIdx d c.val)))

/-- Front-end frames and power steps (R86 to R91): the picked frame starts on a free bus; a power frame commits its step, to take effect at the sample after the end of the frame and PA_DLY, or its step is refused at that instant where a raise is barred; a late device frame raises FECB_LATE. A frame that has ended frees the bus; a tuner frame leaves its word in the tuner, a raw one completes with its SDI bits. At its sample a step sets TX_PWR and the entry in use and its descriptor ends. A checked table becomes the chain's while the entry in use stays. -/
def Obligations.FramesAndPowerSteps : Prop :=
  (∀ (s : State) (b : Fin 8), s.runs → (s.fecb b.val).cur ≠ none ∨ (s.fecb b.val).pick s.now = none ∨ s.now < (s.fecb b.val).freeAt → exec (.fecbFrameStart b) s = .next s) ∧
  (∀ (s : State) (b : Fin 8) (q : Frame) (a : PwrAsk) (id : Nat), s.runs → (s.fecb b.val).cur = none → (s.fecb b.val).pick s.now = some q → (s.fecb b.val).freeAt ≤ s.now → q.kind = .power a → q.id = some id →
    s.raiseBarred q.chain (a.target (s.txc q.chain).base) = true → ∃ u : State, exec (.fecbFrameStart b) s = .next (u.completeId id .refusedState 0 0) ∧ s.onlyFecb u b.val ∧ u.fecb b.val = { s.fecb b.val with queue := dropFrame q (s.fecb b.val).queue }) ∧
  (∀ (s : State) (b : Fin 8) (q : Frame), s.runs → (s.fecb b.val).cur = none → (s.fecb b.val).pick s.now = some q → (s.fecb b.val).freeAt ≤ s.now →
    (∀ a id, q.kind = .power a → q.id = some id → s.raiseBarred q.chain (a.target (s.txc q.chain).base) = false) → ∃ t, exec (.fecbFrameStart b) s = .next t ∧
    t.fecb b.val = { s.fecb b.val with queue := dropFrame q (s.fecb b.val).queue, cur := some (q, (s.frameBits b.val q).1, s.now + (s.fecb b.val).frameTime (q.len (s.fecb b.val))) } ∧ (∀ j, j ≠ b.val → t.fecb j = s.fecb j) ∧
    (∀ a, q.kind = .power a → t.txc q.chain = { s.txc q.chain with steps := (s.txc q.chain).steps ++
      [{ index := a.target (s.txc q.chain).base, at_ := s.sampleAfter (s.now + (s.fecb b.val).frameTime (q.len (s.fecb b.val)) + (s.txc q.chain).paDly), id := q.id }] }) ∧
    ((∀ a, q.kind ≠ .power a) → ∀ j, t.txc j = s.txc j) ∧ (∀ j, j ≠ q.chain → t.txc j = s.txc j) ∧ (∀ j, t.chain j = s.chain j) ∧
    (∀ d, q.sched = some d → d < s.now → (t.fsrc (16 * (6 + b.val / 2) + 7)).status = true) ∧ (q.sched = none → t.flt = s.flt) ∧ ({ s with rfe := t.rfe } : State).alarmed t) ∧
  (∀ (s : State) (b : Fin 8) (sdi : BitVec 24), s.runs → (s.fecb b.val).cur = none ∨ (∃ q w e, (s.fecb b.val).cur = some (q, w, e) ∧ s.now < e) → exec (.fecbFrameEnd b sdi) s = .next s) ∧
  (∀ (s : State) (b : Fin 8) (sdi : BitVec 24) (q : Frame) (w : BitVec 24) (e : Nat), s.runs → (s.fecb b.val).cur = some (q, w, e) → e ≤ s.now → ∃ t, exec (.fecbFrameEnd b sdi) s = .next t ∧
    t.fecb b.val = { s.fecb b.val with cur := none, freeAt := e + (s.fecb b.val).gap * (s.fecb b.val).sck } ∧ (∀ j, j ≠ b.val → t.fecb j = s.fecb j) ∧ (∀ j, t.chain j = s.chain j) ∧
    (∀ x, q.kind = .tuner x → t.txc q.chain = { s.txc q.chain with tuner := x }) ∧ (∀ j, j ≠ q.chain → t.txc j = s.txc j) ∧
    (∀ a, q.kind = .power a → t = { s with rfe := t.rfe } ∧ ∀ j, t.txc j = s.txc j) ∧
    (∀ id, q.id = some id → (∀ a, q.kind ≠ .power a) → ∀ p ∈ t.hif.outstanding, p.id ≠ id) ∧
    (∀ x l id, q.kind = .raw x l → q.id = some id → ∃ u : State, t = u.completeId id .ok (word (sdi.toNat % 2 ^ (8 * (l + 1)))) 0 ∧ s.onlyFecb u b.val)) ∧
  (∀ (s : State) (c : Fin 32) (p : PwrStep) (r : List PwrStep), s.runs → (s.txc c.val).steps = p :: r → p.at_ ≤ s.now → s.wordPoisoned (testBase (6 + c.val / 8) c.val 7 + p.index) = false → ∃ t, exec (.powerStepApply c) s = .next t ∧
    (t.txc c.val).steps = r ∧ (t.txc c.val).pwr = cword (BitVec.ofNat 16 p.index) ∧ (t.txc c.val).entry = (s.txc c.val).table.get 0 p.index ∧ (t.txc c.val).table = (s.txc c.val).table ∧ (∀ j, j ≠ c.val → t.txc j = s.txc j) ∧
    (∀ id, p.id = some id → ∀ q ∈ t.hif.outstanding, q.id ≠ id) ∧ (∀ j, t.chain j = s.chain j) ∧ t.le = s.le ∧ t.tim = s.tim ∧ t.cxPol = s.cxPol ∧ t.tst = s.tst) ∧
  (∀ (s : State) (c : Fin 32) (p : PwrStep) (r : List PwrStep), s.runs → (s.txc c.val).steps = p :: r → p.at_ ≤ s.now → s.wordPoisoned (testBase (6 + c.val / 8) c.val 7 + p.index) = true → ∃ t, exec (.powerStepApply c) s = .next t ∧
    t.txc c.val = { s.txc c.val with steps := r } ∧ (∀ j, j ≠ c.val → t.txc j = s.txc j) ∧ (∀ id, p.id = some id → ∀ q ∈ t.hif.outstanding, q.id ≠ id)) ∧
  (∀ (s : State) (c : Fin 32) (w : PwrAsk × Nat × Option Nat), s.runs → (s.txc c.val).steps = [] → (s.txc c.val).waiting.find? (fun w => decide (w.2.1 ≤ s.now)) = some w → s.onSmp chainBlk = true → ∃ t, exec (.powerStepApply c) s = .next t ∧
    (∀ j, j ≠ c.val → t.txc j = s.txc j) ∧ (t.txc c.val).waiting = (s.txc c.val).waiting.erase w ∧ (t.txc c.val).pwr = (s.txc c.val).pwr ∧
    (w.2.2 = none ∨ (s.complSweep 0x80000 0x90000).raiseBarred c.val (w.1.target (s.txc c.val).base) = false → (t.txc c.val).steps = [{ index := w.1.target (s.txc c.val).base, at_ := s.sampleAfter s.now, id := w.2.2 }]) ∧
    (∀ id, w.2.2 = some id → (s.complSweep 0x80000 0x90000).raiseBarred c.val (w.1.target (s.txc c.val).base) = true → (t.txc c.val).steps = [] ∧ ∀ q ∈ t.hif.outstanding, q.id ≠ id)) ∧
  (∀ (s : State) (c : Fin 32), s.runs → (∀ p ∈ (s.txc c.val).steps.head?, s.now < p.at_) → ((s.txc c.val).steps = [] → (s.txc c.val).waiting.find? (fun w => decide (w.2.1 ≤ s.now)) = none ∨ s.onSmp chainBlk = false) →
    ∃ t, exec (.powerStepApply c) s = .next t ∧ t.rfe = s.rfe ∧ t.le = s.le ∧ t.tim = s.tim ∧ t.jl = s.jl ∧ t.tst = s.tst ∧ (s.flt.badCompl = [] → t = s)) ∧
  (∀ (s : State) (c : Fin 32) (p : Pend) (ch : Byte) (a : Word64) (ws : List Word), s.runs → (s.pends (isTableLoad c.val)).head? = some p → p.desc = .txPowerTableLoad ch a (.words ws) → ∃ t, exec (.powerTableCommit c) s = .next t ∧
    (∀ i, i < 128 → (t.txc c.val).table.get 0 i = (tableOf ws).getD i 0) ∧ (t.txc c.val).entry = (s.txc c.val).entry ∧ (t.txc c.val).pwr = (s.txc c.val).pwr ∧ (∀ j, j ≠ c.val → t.txc j = s.txc j) ∧ (∀ q ∈ t.hif.outstanding, q.id ≠ p.id)) ∧
  (∀ (s : State) (c : Fin 32), s.runs → s.pends (isTableLoad c.val) = [] → exec (.powerTableCommit c) s = .next s)

/-- Aerial mismatch, saturation and DC blocking (R26, R27, R29, R92 to R94): a window outside the conditions counts for nothing; a valid one sets RL and the runs, from which LEVEL, RL_ALERT, the step of minus 12 entries and the VSWR WINTER follow as Table 3-11 gives them; a search goes through its 32 trials, keeps the best word, leaves it in the tuner at its end and restores the index where the best return loss reaches ALERT_TH; each saturation at a chain counts and raises its source; a DC estimate that moves is held, and above 0.1 of full scale raises DCB_RANGE. -/
def Obligations.MismatchAndSaturation : Prop :=
  (∀ (s : State) (c : Fin 32) (whole : Bool) (psum prfl : Int), s.runs → whole = false ∨ (s.chain (32 + c.val)).st ≠ .txOn ∨ s.onNow (32 + c.val) = false ∨ s.txMuted c.val = true ∨ psum < -4000 ∨ 500 < prfl →
    ∃ t, exec (.vswrWindow c whole psum prfl) s = .next t ∧ s.onlyTxc t c.val ∧ t.txc c.val = { s.txc c.val with pSum := psum }) ∧
  (∀ (s : State) (c : Fin 32) (psum prfl rl : Int) (ra rs rw rg lvl : Nat), s.runs → (s.chain (32 + c.val)).st = .txOn → s.onNow (32 + c.val) = true → s.txMuted c.val = false → -4000 ≤ psum → -3500 ≤ prfl → prfl ≤ 500 →
    rl = expOut (s.txc c.val).entry + psum - (prfl + (s.txc c.val).coupling) →
    ra = (if (s.txc c.val).alertTh ≤ rl then 0 else (s.txc c.val).runAlert + 1) → rs = (if (s.txc c.val).alertTh ≤ rl ∨ (s.txc c.val).stepTh ≤ rl then 0 else (s.txc c.val).runStep + 1) →
    rw = (if (s.txc c.val).alertTh ≤ rl ∨ (s.txc c.val).winterTh ≤ rl then 0 else (s.txc c.val).runWinter + 1) → rg = (if (s.txc c.val).alertTh ≤ rl then (s.txc c.val).runGood + 1 else 0) →
    lvl = (if 50 ≤ rg then 0 else max (s.txc c.val).level (if 2 ≤ rw then 3 else if 50 ≤ rs then 2 else if 50 ≤ ra then 1 else 0)) → ∃ t, exec (.vswrWindow c true psum prfl) s = .next t ∧
    (t.txc c.val).rl = rl ∧ (t.txc c.val).rlValid = true ∧ (t.txc c.val).runAlert = ra ∧ (t.txc c.val).runGood = rg ∧ (t.txc c.val).level = lvl ∧ (∀ j, j ≠ c.val → t.txc j = s.txc j) ∧ (∀ j, t.chain j = s.chain j) ∧
    ((s.txc c.val).level = 0 → 1 ≤ lvl → rw < 2 → (t.fsrc (16 * (6 + c.val / 8) + 6)).status = true) ∧
    (50 ≤ rs → (s.txc c.val).search = none → (t.txc c.val).lowered = some (PwrAsk.target (.delta (-12)) (s.txc c.val).base)) ∧
    (50 ≤ rs → (s.txc c.val).search = none → rw < 2 → (s.txc c.val).map.getLsbD 15 = true → (s.txc c.val).lastSearch = none → s.le.libRunning = true → ∃ q, (t.txc c.val).search = some q ∧ q.trial = 0 ∧ q.restore = (s.txc c.val).base) ∧
    (2 ≤ rw → (∃ u : State, t = (u.raise 13 8 (.tx c.val)).winterSet (objChain c.val) 4 0) ∧ (t.wobj (objChain c.val)).cause.getLsbD 4 = true ∧ (t.txc c.val).search = none) ∧
    ({ s with rfe := t.rfe } : State).alarmed t) ∧
  (∀ (s : State) (c : Fin 32) (psum prfl : Int), s.runs → (s.chain (32 + c.val)).st = .txOn → s.onNow (32 + c.val) = true → s.txMuted c.val = false → -4000 ≤ psum → prfl < -3500 → ∃ t, exec (.vswrWindow c true psum prfl) s = .next t ∧
    (t.txc c.val).pSum = psum ∧ (t.txc c.val).rl = (s.txc c.val).rl ∧ ((t.txc c.val).runGood = if (s.txc c.val).alertTh ≤ expOut (s.txc c.val).entry + psum - (s.txc c.val).coupling + 3500 then (s.txc c.val).runGood + 1 else (s.txc c.val).runGood) ∧
    ({ s with rfe := t.rfe } : State).alarmed t) ∧
  (∀ (s : State) (c : Fin 32) (rl : Int) (q : Search) (better : Bool), s.runs → (s.txc c.val).search = some q → (s.fecb ((s.txc c.val).tunBus c.val)).queue.any (fun f => decide (f.chain = c.val ∧ f.prio = 1)) = false →
    (∀ f w e, (s.fecb ((s.txc c.val).tunBus c.val)).cur = some (f, w, e) → ¬ (f.chain = c.val ∧ f.prio = 1)) → better = (match q.bestRl with | some b => decide (b < rl) | none => true) → ∃ t, exec (.tunerSearchTrial c rl) s = .next t ∧ t = { s with rfe := t.rfe } ∧
    (∀ j, j ≠ c.val → t.txc j = s.txc j) ∧ (∀ j, t.chain j = s.chain j) ∧
    (q.trial < 31 → ∃ q', (t.txc c.val).search = some q' ∧ q'.trial = q.trial + 1 ∧ q'.bestWord = (if better then trialWord q.trial q.coarse else q.bestWord) ∧ q'.bestRl = some (if better then rl else q.bestRl.getD rl) ∧ q'.restore = q.restore ∧
      ∃ f, (t.fecb ((s.txc c.val).tunBus c.val)).queue = (s.fecb ((s.txc c.val).tunBus c.val)).queue ++ [f] ∧ f.kind = .tuner (BitVec.ofNat 8 (trialWord (q.trial + 1) q'.coarse))) ∧
    (31 ≤ q.trial → (t.txc c.val).search = none ∧ ((s.txc c.val).alertTh ≤ (if better then rl else q.bestRl.getD rl) → (t.txc c.val).lowered = some q.restore) ∧
      ((if better then rl else q.bestRl.getD rl) < (s.txc c.val).alertTh → (t.txc c.val).lowered = (s.txc c.val).lowered ∧
        ∃ f, (t.fecb ((s.txc c.val).tunBus c.val)).queue = (s.fecb ((s.txc c.val).tunBus c.val)).queue ++ [f] ∧ f.kind = .tuner (BitVec.ofNat 8 (if better then trialWord q.trial q.coarse else q.bestWord))))) ∧
  (∀ (s : State) (c : Fin 32) (rl : Int), s.runs → (s.txc c.val).search = none → exec (.tunerSearchTrial c rl) s = .next s) ∧
  (∀ (s : State) (c : Fin 32), s.runs → ∃ t, exec (.satChain c) s = .next t ∧ (t.txc c.val).satCnt = (if (s.txc c.val).satCnt = 0xFFFFFFFF then (s.txc c.val).satCnt else (s.txc c.val).satCnt + 1) ∧ (t.fsrc (16 * 10 + 5)).status = true ∧
    (∀ j, j ≠ c.val → t.txc j = s.txc j) ∧ ({ s with rfe := { s.rfe with tx := t.rfe.tx } } : State).alarmed t) ∧
  (∀ (s : State) (r : Fin 32) (i q : Half), s.runs → s.dcbIdle r.val = true ∨ s.dcbFrozen r.val = true ∨ (s.chain r.val).dcHold = true → exec (.dcbRange r i q) s = .next s) ∧
  (∀ (s : State) (r : Fin 32) (i q : Half), s.runs → s.dcbIdle r.val = false → s.dcbFrozen r.val = false → (s.chain r.val).dcHold = false → ∃ t, exec (.dcbRange r i q) s = .next t ∧
    t.dcb r.val = { s.dcb r.val with estI := i, estQ := q, range := decide (32768 * 32768 < 100 * (i.toInt * i.toInt + q.toInt * q.toInt)) } ∧ (∀ j, j ≠ r.val → t.dcb j = s.dcb j) ∧
    (32768 * 32768 < 100 * (i.toInt * i.toInt + q.toInt * q.toInt) → (t.fsrc (16 * 10 + 7)).status = true) ∧ (100 * (i.toInt * i.toInt + q.toInt * q.toInt) ≤ 32768 * 32768 → t.flt = s.flt) ∧
    ({ s with rfe := { s.rfe with dcb := t.rfe.dcb } } : State).alarmed t)

/-- Slot states (R36, R37, R38, R144, Table 2-4): at the enable boundary a CONFIGURED slot with a waiting SLOT_ENABLE becomes SETTLING, or HELD where its chain is not in RX_ON, and the descriptors end; a settled slot becomes ACTIVE at 20 dB below the lower of TARGET and CAP; a disable begins the ramp-down and commits; 64 chain-rate samples later the slot is CONFIGURED, a fade in progress has ended with the new bank active, and the SLOT_DISABLE descriptors end. At any other instant nothing changes. -/
def Obligations.SlotStateSteps : Prop :=
  (∀ (s : State) (n : Fin 256), s.runs → (s.slot n.val).st = .configured → s.onSmp chainBlk = true → (∃ p ∈ s.hif.outstanding, isSlotEnable n.val p = true ∧ p.acc < s.now) → ∃ t, exec (.slotEnableBoundary n) s = .next t ∧
    t.slot n.val = { s.slot n.val with st := if (s.chain (n.val / 8)).st = .rxOn then .settling else .held, settleAt := s.now } ∧ (∀ j, j ≠ n.val → t.slot j = s.slot j) ∧
    (∀ q ∈ t.hif.outstanding, isSlotEnable n.val q = true → s.now ≤ q.acc) ∧ t.flt = s.flt ∧ ({ s with slots := t.slots } : State).alarmed t) ∧
  (∀ (s : State) (n : Fin 256), s.runs → (s.slot n.val).st ≠ .configured ∨ s.onSmp chainBlk = false ∨ (∀ p ∈ s.hif.outstanding, isSlotEnable n.val p = true → s.now ≤ p.acc) → exec (.slotEnableBoundary n) s = .next s) ∧
  (∀ (s : State) (n : Fin 256), s.runs → (s.slot n.val).st = .settling → s.onSmp (slotBlk (s.slot n.val).rate) = true → (s.slot n.val).settledBy s.now = true → ∃ t, exec (.slotSettled n) s = .next t ∧
    t = { s with slots := t.slots, gcl := t.gcl } ∧ t.slot n.val = { s.slot n.val with st := .active } ∧ (∀ j, j ≠ n.val → t.slot j = s.slot j) ∧ (∀ j, j ≠ n.val → (t.gain j).acc = (s.gain j).acc ∧ (t.gain j).applied = (s.gain j).applied) ∧
    (t.gain n.val).target = (if (s.gain n.val).agcEn then (s.gain n.val).host else (s.gain n.val).target) ∧ (t.gain n.val).host = (s.gain n.val).host ∧
    (t.gain n.val).acc = max (-120000) ((min (t.gain n.val).target (t.gain n.val).cap - 400) * 100) ∧ (t.gain n.val).applied = max (-1200) (min (t.gain n.val).target (t.gain n.val).cap - 400)) ∧
  (∀ (s : State) (n : Fin 256), s.runs → (s.slot n.val).st ≠ .settling ∨ s.onSmp (slotBlk (s.slot n.val).rate) = false ∨ (s.slot n.val).settledBy s.now = false → exec (.slotSettled n) s = .next s) ∧
  (∀ (s : State) (n : Fin 256) (p : Pend), s.runs → (s.slot n.val).ramp = none → (s.pends (fun p => isSlotDisable n.val p && decide (p.acc < s.now))).head? = some p → s.onSmp chainBlk = true →
    (s.slot n.val).st = .settling ∨ (s.slot n.val).st = .active ∨ (s.slot n.val).st = .held → ∃ t, exec (.slotDisableBoundary n) s = .next t ∧ t = { s with slots := t.slots, hif := { s.hif with outstanding := t.hif.outstanding } } ∧
    t.slot n.val = { s.slot n.val with ramp := some (s.now, p.id) } ∧ (∀ j, j ≠ n.val → t.slot j = s.slot j) ∧ (∀ q ∈ t.hif.outstanding, q.id = p.id → q.committed = true)) ∧
  (∀ (s : State) (n : Fin 256), s.runs → (s.slot n.val).ramp ≠ none ∨ s.pends (fun p => isSlotDisable n.val p && decide (p.acc < s.now)) = [] ∨ s.onSmp chainBlk = false ∨ (s.slot n.val).st = .free ∨ (s.slot n.val).st = .configured → exec (.slotDisableBoundary n) s = .next s) ∧
  (∀ (s : State) (n : Fin 256) (r : Nat × Nat), s.runs → (s.slot n.val).ramp = some r → r.1 + chainBlk ≤ s.now → ∃ t, exec (.slotDisableEnd n) s = .next t ∧
    t.slot n.val = { s.slot n.val with st := .configured, ramp := none, fade := none, activeB := (s.slot n.val).activeB != (s.slot n.val).fade.isSome } ∧ (∀ j, j ≠ n.val → t.slot j = s.slot j) ∧
    (∀ q ∈ t.hif.outstanding, isSlotDisable n.val q = false) ∧ t.flt = s.flt ∧ ({ s with slots := t.slots } : State).alarmed t) ∧
  (∀ (s : State) (n : Fin 256), s.runs → (∀ r ∈ (s.slot n.val).ramp, s.now < r.1 + chainBlk) → exec (.slotDisableEnd n) s = .next s)

/-- Coefficient banks, fades and tables (R25, R46 to R50, R52, R159, R200): a load that has begun ends in the inactive bank and its tag, and the memory's test marks are gone; a swap whose boundary has come turns the banks at once where its length is 0, the slot CONFIGURED or muted, and begins its cross-fade otherwise, paused in an off-period; at k = L the new bank is active and the swap ends; a fade that would pass its deadline ends there, counted, with SWAP_SHORT; a table load writes the inactive bank of its set; a saturation at a slot counts and raises its source. -/
def Obligations.BanksAndFades : Prop :=
  (∀ (s : State) (n : Fin 256) (p : Pend) (sl : Byte) (tag nb : Half) (a : Word64) (ws : List Word), s.runs → (s.pends (fun p => isCoefLoad n.val p && decide (p.aux = 1))).head? = some p → p.desc = .slotCoefLoad sl tag nb a (.words ws) →
    ∃ t, exec (.slotCoefWritten n) s = .next t ∧ t.slot n.val = (if (s.slot n.val).activeB then { s.slot n.val with bankA := ws, tagA := tag } else { s.slot n.val with bankB := ws, tagB := tag }) ∧ (∀ j, j ≠ n.val → t.slot j = s.slot j) ∧
    (∀ x ∈ t.flt.poisoned, x / 2 ^ 16 ≠ testBase 10 n.val (if (s.slot n.val).activeB then 0 else 1) / 2 ^ 16) ∧ (∀ q ∈ t.hif.outstanding, q.id ≠ p.id) ∧ ({ s with slots := t.slots, flt := { s.flt with poisoned := t.flt.poisoned, flipped := t.flt.flipped } } : State).alarmed t) ∧
  (∀ (s : State) (n : Fin 256), s.runs → s.pends (fun p => isCoefLoad n.val p && decide (p.aux = 1)) = [] → exec (.slotCoefWritten n) s = .next s) ∧
  (∀ (s : State) (n : Fin 256) (p : Pend) (sl xf : Byte), s.runs → (s.waitingSwaps n.val).head? = some p → p.desc = .slotBankSwap sl xf → (s.slot n.val).st ≠ .free → (s.slot n.val).fade = none → p.acc < s.now → s.onSmp (slotBlk (s.slot n.val).rate) = true →
    s.pends (fun q => isCoefLoad n.val q && decide (q.id < p.id)) = [] → ∃ t, exec (.slotSwapBegin n) s = .next t ∧ (∀ j, j ≠ n.val → t.slot j = s.slot j) ∧ t.flt = s.flt ∧ ({ s with slots := t.slots } : State).alarmed t ∧
    (xfadeLen xf.toNat = 0 ∨ (s.slot n.val).st = .configured ∨ s.slotMuted n.val = true → t.slot n.val = { s.slot n.val with activeB := !(s.slot n.val).activeB } ∧ ∀ q ∈ t.hif.outstanding, q.id ≠ p.id) ∧
    (xfadeLen xf.toNat ≠ 0 → (s.slot n.val).st ≠ .configured → s.slotMuted n.val = false → (∀ q ∈ t.hif.outstanding, q.id = p.id → q.committed = true) ∧
      t.slot n.val = { s.slot n.val with fade := some { id := p.id, len := xfadeLen xf.toNat, start := s.now, paused := if s.onNow (n.val / 8) then none else some s.now, lost := 0 } })) ∧
  (∀ (s : State) (n : Fin 256), s.runs → s.waitingSwaps n.val = [] ∨ (s.slot n.val).st = .free ∨ (s.slot n.val).fade ≠ none ∨ s.onSmp (slotBlk (s.slot n.val).rate) = false → exec (.slotSwapBegin n) s = .next s) ∧
  (∀ (s : State) (n : Fin 256) (f : Fade), s.runs → (s.slot n.val).fade = some f → f.paused = none → f.left (s.slot n.val).rate s.now = 0 → ∃ t, exec (.slotFadeEnd n) s = .next t ∧
    t.slot n.val = { s.slot n.val with fade := none, activeB := !(s.slot n.val).activeB } ∧ (∀ j, j ≠ n.val → t.slot j = s.slot j) ∧ (∀ q ∈ t.hif.outstanding, q.id ≠ f.id) ∧ t.flt = s.flt ∧ ({ s with slots := t.slots } : State).alarmed t) ∧
  (∀ (s : State) (n : Fin 256) (f : Fade), s.runs → (s.slot n.val).fade = some f → ¬ (f.paused = none ∧ f.left (s.slot n.val).rate s.now = 0) → s.fadeShort n.val f = true → ∃ u : State, exec (.slotFadeEnd n) s = .next (u.raise 10 6 (.slot n.val)) ∧
    ((u.raise 10 6 (.slot n.val)).fsrc (16 * 10 + 6)).status = true ∧ u.slot n.val = { s.slot n.val with fade := none, activeB := !(s.slot n.val).activeB, shortCnt := satInc 0xFFFF (s.slot n.val).shortCnt } ∧
    (∀ j, j ≠ n.val → u.slot j = s.slot j) ∧ (∀ q ∈ u.hif.outstanding, q.id ≠ f.id) ∧ ({ s with slots := u.slots } : State).alarmed u) ∧
  (∀ (s : State) (n : Fin 256), s.runs → (∀ f ∈ (s.slot n.val).fade, ¬ (f.paused = none ∧ f.left (s.slot n.val).rate s.now = 0) ∧ s.fadeShort n.val f = false) → exec (.slotFadeEnd n) s = .next s) ∧
  (∀ (s : State) (k : Fin 16) (p : Pend) (st : Byte) (tag : Half) (a : Word64) (ws : List Word), s.runs → (s.pends (isLutLoad k.val)).head? = some p → p.desc = .gclLutLoad st tag a (.words ws) → ∃ t, exec (.lutLoadEnd k) s = .next t ∧
    (∀ j, j < 64 → (t.lut k.val).entry (!(s.lut k.val).activeB) j = (half ((lutWords ws).getD j 0)).toInt ∧ (t.lut k.val).entry (s.lut k.val).activeB j = (s.lut k.val).entry (s.lut k.val).activeB j) ∧
    (t.lut k.val).activeB = (s.lut k.val).activeB ∧ (if (s.lut k.val).activeB then (t.lut k.val).tagA else (t.lut k.val).tagB) = tag ∧ (∀ j, j ≠ k.val → t.lut j = s.lut j) ∧ (∀ q ∈ t.hif.outstanding, q.id ≠ p.id)) ∧
  (∀ (s : State) (k : Fin 16), s.runs → s.pends (isLutLoad k.val) = [] → exec (.lutLoadEnd k) s = .next s) ∧
  (∀ (s : State) (n : Fin 256), s.runs → ∃ u : State, exec (.satSlot n) s = .next (u.raise 10 4 (.slot n.val)) ∧ ((u.raise 10 4 (.slot n.val)).fsrc (16 * 10 + 4)).status = true ∧ s.onlySlot u n.val ∧
    u.slot n.val = { s.slot n.val with satCnt := if (s.slot n.val).satCnt = 0xFFFFFFFF then (s.slot n.val).satCnt else (s.slot n.val).satCnt + 1 })

/-- Gain ticks and caps (R134, R136, R137, R139, R148, R152 to R155, R164): at a tick every loop-less slot that is ACTIVE and not muted moves its accumulator towards the lower of TARGET and CAP by at most its slew, downwards only where protection holds raises, and every set-point moves towards its target by its slew; a loop at its boundary takes its measurement, and the hardware loop's target is the lower of HOST and the request; between ticks and boundaries nothing moves. A cap written below the accumulator cuts it without slew at the next chain boundary, counted, and the slot's SLOT_GAIN_SETs that have arrived end. A governing instance that passes 5,000 ms raises CAP_STALE once and the caps are formed again. -/
def Obligations.GainTicksAndCaps : Prop :=
  (∀ (s : State) (meas : List LoopMeas), s.runs → s.onGrid gainTk = false → s.onSmp chainBlk = false → exec (.gainTick meas) s = .next (s.complSweep 0xA0000 0xC2000)) ∧
  (∀ (s : State) (meas : List LoopMeas) (n : Nat), s.runs → s.flt.badCompl = [] → s.onGrid gainTk = true → s.gainSlots.Nodup → n ∈ s.gainSlots →
    (∀ m ∈ s.gainSlots, (s.gain m).agcEn = false ∧ ∀ b, s.marginBound m = some b → (s.gain m).applied ≤ b) → ∃ t, exec (.gainTick meas) s = .next t ∧ t = { s with gcl := t.gcl, hif := t.hif, intc := t.intc, recd := t.recd } ∧
    (t.gain n).target = (s.gain n).target ∧ (t.gain n).host = (s.gain n).host ∧
    ((s.slot n).st = .active → s.slotMuted n = false → (t.gain n).marginQ = s.marginBound n ∧ (t.gain n).cap ≤ (t.gain n).capl ∧ (∀ b, s.marginBound n = some b → (t.gain n).capl ≤ max (-1200) b) ∧
      (t.gain n).acc = (if (s.gain n).acc < min (s.gain n).target (t.gain n).cap * 100 then (if s.protHold n then (s.gain n).acc else min (min (s.gain n).target (t.gain n).cap * 100) ((s.gain n).acc + (s.gain n).slewUp))
        else if min (s.gain n).target (t.gain n).cap * 100 < (s.gain n).acc then max (min (s.gain n).target (t.gain n).cap * 100) ((s.gain n).acc - (s.gain n).slewDn) else (s.gain n).acc) ∧
      ((t.gain n).applied = min (s.gain n).host (t.gain n).cap → ∀ q ∈ t.hif.outstanding, isGainSet n q = false)) ∧
    ((s.slot n).st ≠ .active ∨ s.slotMuted n = true → (t.gain n).acc = (s.gain n).acc ∧ (t.gain n).applied = (s.gain n).applied) ∧
    (t.gain n).spAcc = (if (s.gain n).spAcc < (s.gain n).spTarget * 20 then min ((s.gain n).spTarget * 20) ((s.gain n).spAcc + (s.gain n).slewUp) else if (s.gain n).spTarget * 20 < (s.gain n).spAcc then max ((s.gain n).spTarget * 20) ((s.gain n).spAcc - (s.gain n).slewDn) else (s.gain n).spAcc)) ∧
  (∀ (s : State) (meas : List LoopMeas) (m : LoopMeas) (r : Int), s.runs → s.flt.badCompl = [] → s.onGrid gainTk = true → s.gainSlots = [m.slot.val] → (s.slot m.slot.val).st = .active → s.slotMuted m.slot.val = false → (∀ b, s.marginBound m.slot.val = some b → (s.gain m.slot.val).applied ≤ b) →
    s.loopBoundary m.slot.val = true → (s.gain m.slot.val).agcSrc = false → meas.find? (fun x => decide (x.slot.val = m.slot.val)) = some m → m.void = false →
    r = clampI (-120000) ((s.gain m.slot.val).host * 100) ((s.gain m.slot.val).acc + 2 * lutStep (s.lutUse (s.gain m.slot.val).lutset) (s.lut (s.gain m.slot.val).lutset).activeB (s.gain m.slot.val).interp ((s.gain m.slot.val).spEff - s.agcPower m.slot.val m)) →
    (s.gain m.slot.val).limitSince = none → ∃ t, exec (.gainTick meas) s = .next t ∧
    (t.gain m.slot.val).pmeas = some (s.agcPower m.slot.val m) ∧ (t.gain m.slot.val).pmeasSeq = (s.gain m.slot.val).pmeasSeq + 1 ∧ (t.gain m.slot.val).bankB = (s.lut (s.gain m.slot.val).lutset).activeB ∧ (t.gain m.slot.val).target = min (s.gain m.slot.val).host (divNearest 2 r 100) ∧ t.slots = s.slots) ∧
  (∀ (s : State) (n : Fin 256), s.runs → (s.gain n.val).cutDue = true → s.onSmp chainBlk = true → (s.gain n.val).cap * 100 < (s.gain n.val).acc → ∃ t, exec (.capCut n) s = .next t ∧
    t.gain n.val = { (s.gain n.val).setAcc ((s.gain n.val).cap * 100) with cutDue := false, fastNow := true, cutCnt := satInc 0xFFFF (s.gain n.val).cutCnt } ∧ (∀ j, j ≠ n.val → t.gain j = s.gain j) ∧
    (t.gainReached n.val = true → ∀ q ∈ t.hif.outstanding, isGainSet n.val q = false) ∧ (t.gainReached n.val = false → t.hif = s.hif) ∧ t.flt = s.flt ∧ ({ s with gcl := t.gcl } : State).alarmed t) ∧
  (∀ (s : State) (n : Fin 256), s.runs → (s.gain n.val).cutDue = true → s.onSmp chainBlk = true → (s.gain n.val).acc ≤ (s.gain n.val).cap * 100 → ∃ t, exec (.capCut n) s = .next t ∧ s.onlyGain t n.val ∧ t.gain n.val = { s.gain n.val with cutDue := false }) ∧
  (∀ (s : State) (n : Fin 256), s.runs → (s.gain n.val).cutDue = false ∨ s.onSmp chainBlk = false → exec (.capCut n) s = .next s) ∧
  (∀ (s : State) (i : Fin 64), s.runs → (s.inst i.val).valid = true → 5000 < s.cxAge i.val → (s.inst i.val).staleSeen = false → ∃ u : State, exec (.capStale i) s = .next ((((u.raise 12 4 (.rx (s.inst i.val).rx)).capAll)).cxReport i.val) ∧
    s.onlyInst u i.val ∧ u.inst i.val = { s.inst i.val with staleSeen := true } ∧ (((((u.raise 12 4 (.rx (s.inst i.val).rx)).capAll)).cxReport i.val).fsrc (16 * 12 + 4)).status = true) ∧
  (∀ (s : State) (i : Fin 64), s.runs → (s.inst i.val).valid = false ∨ s.cxAge i.val ≤ 5000 ∨ (s.inst i.val).staleSeen = true → exec (.capStale i) s = .next (s.cxReport i.val))

/-- Speculation cycles (R107 to R114, Table 4-2): only at the boundary that ends a cycle of an instance in ACQUIRE or TRACK does anything change, and then only that instance; a candidate in flight is tested: an invalid window or adaptation that stands blocks it, a residual energy above the main set's by more than the margin rejects it, too large a growth rejects it, a ramp, a seed or a step blocks it, and otherwise it becomes the main set and PROMO counts; whichever it is, exactly one counter counts and the next candidate exists only where the gradient of this cycle is usable. -/
def Obligations.SpeculationCycles : Prop :=
  (∀ (s : State) (i : Fin 64) (c : CycleMeas), s.runs → ((s.inst i.val).st ≠ .acquire ∧ (s.inst i.val).st ≠ .track) ∨ s.now ≤ (s.inst i.val).cycleAt ∨ (s.now - (s.inst i.val).cycleAt) % (5 * chainBlk) ≠ 0 → exec (.cxCycle i c) s = .next s) ∧
  (∀ (s : State) (i : Fin 64) (c : CycleMeas) (ok grad : Bool), s.runs → (s.inst i.val).st = .acquire ∨ (s.inst i.val).st = .track → (s.inst i.val).cycleAt < s.now → (s.now - (s.inst i.val).cycleAt) % (5 * chainBlk) = 0 →
    ok = (c.valid && s.cxBlocksOk i.val) → grad = (c.gradient && ok && !s.cxPaused i.val && (match (s.inst i.val).seed with | some d => decide (d.phase ≠ .fading) | none => true)) → ∃ t, exec (.cxCycle i c) s = .next t ∧ s.onlyInst t i.val ∧
    ((s.inst i.val).gradOk = false ∨ s.cxPaused i.val = true → t.inst i.val = { s.inst i.val with cycleAt := s.now, cycPol := none, gradOk := grad }) ∧
    ((s.inst i.val).gradOk = true → s.cxPaused i.val = false → ∃ y : Inst, y = { s.inst i.val with cycleAt := s.now, cycPol := none, gradOk := grad, cand := some c.cand, specRatio := wordI (Config.ratioDb c.esh c.em), specEnergy := wordI (Config.energyDb (energyOf c.cand)) } ∧
      (ok = false → t.inst i.val = { y with blocked := satInc 0xFFFF y.blocked }) ∧
      (ok = true → c.em * (1024 + (s.cycPolicy i.val).eps) < c.esh * 1024 → t.inst i.val = { y with rejRes := satInc 0xFFFF y.rejRes }) ∧
      (ok = true → c.esh * 1024 ≤ c.em * (1024 + (s.cycPolicy i.val).eps) → growthOk (s.cycPolicy i.val) (energyOf c.cand) (s.inst i.val).mainEnergy = false → t.inst i.val = { y with rejGrowth := satInc 0xFFFF y.rejGrowth }) ∧
      (ok = true → c.esh * 1024 ≤ c.em * (1024 + (s.cycPolicy i.val).eps) → growthOk (s.cycPolicy i.val) (energyOf c.cand) (s.inst i.val).mainEnergy = true → s.blkRamp i.val = true ∨ (s.inst i.val).seed ≠ none ∨ c.stepped = true → t.inst i.val = { y with blocked := satInc 0xFFFF y.blocked }) ∧
      (ok = true → c.esh * 1024 ≤ c.em * (1024 + (s.cycPolicy i.val).eps) → growthOk (s.cycPolicy i.val) (energyOf c.cand) (s.inst i.val).mainEnergy = true → s.blkRamp i.val = false → (s.inst i.val).seed = none → c.stepped = false →
        t.inst i.val = { y with main := c.cand, scale := 0, promo := if y.promo = 0xFFFFFFFF then y.promo else y.promo + 1 })))

/-- Delay searches and measurement windows (R123 to R126, R150, R151): a search that has its samples takes its peak less PRE, at most 8,191, as the delay and goes to ACQUIRE where the peak stands PEAK_TH over the mean, and raises SRCH_FAIL otherwise; a window that ends with too few samples or no DAC gain publishes nothing and the next begins; otherwise ISO, LOOPLOSS, DEPTH and the others are published by Table 4-4, an instance in ACQUIRE enters TRACK, a negative depth raises DEPTH_NEG, and a publication outside the installation model, or one that jumps or moves too fast, raises IMPLAUSIBLE. -/
def Obligations.SearchesAndWindows : Prop :=
  (∀ (s : State) (i : Fin 64) (peak : Nat) (ovr : Int) (n : Nat), s.runs → (s.inst i.val).st ≠ .search ∨ n < 2 ^ (s.winPolicy i.val).srchExp ∨ (if (s.inst i.val).join then 8958 else 8574) < peak → exec (.cxSearchEnd i peak ovr n) s = .next s) ∧
  (∀ (s : State) (i : Fin 64) (peak : Nat) (ovr : Int) (n : Nat), s.runs → (s.inst i.val).st = .search → 2 ^ (s.winPolicy i.val).srchExp ≤ n → peak ≤ (if (s.inst i.val).join then 8958 else 8574) → ((s.winPolicy i.val).peakTh : Int) * 100 ≤ ovr →
    ∃ t, exec (.cxSearchEnd i peak ovr n) s = .next t ∧ s.onlyInst t i.val ∧
    t.inst i.val = { s.inst i.val with bulk := min 8191 (peak - (s.winPolicy i.val).pre), peak := peak, searched := true, st := .acquire, gradOk := false, cycleAt := s.smpAtOrAfter chainBlk s.now, winAt := s.now, cycPol := none, winPol := none }) ∧
  (∀ (s : State) (i : Fin 64) (peak : Nat) (ovr : Int) (n : Nat), s.runs → (s.inst i.val).st = .search → 2 ^ (s.winPolicy i.val).srchExp ≤ n → peak ≤ (if (s.inst i.val).join then 8958 else 8574) → ovr < ((s.winPolicy i.val).peakTh : Int) * 100 →
    ∃ u : State, exec (.cxSearchEnd i peak ovr n) s = .next (u.raise 11 4 (.rx (s.inst i.val).rx)) ∧ s.onlyInst u i.val ∧ u.inst i.val = { s.inst i.val with winPol := none } ∧ ((u.raise 11 4 (.rx (s.inst i.val).rx)).fsrc (16 * 11 + 4)).status = true) ∧
  (∀ (s : State) (i : Fin 64) (w : WindowMeas), s.runs → ((s.inst i.val).st ≠ .acquire ∧ (s.inst i.val).st ≠ .track) ∨ s.now < (s.inst i.val).winAt + (s.winPolicy i.val).dwin * tms → exec (.cxWindowClose i w) s = .next s) ∧
  (∀ (s : State) (i : Fin 64) (w : WindowMeas), s.runs → (s.inst i.val).st = .acquire ∨ (s.inst i.val).st = .track → (s.inst i.val).winAt + (s.winPolicy i.val).dwin * tms ≤ s.now → w.samples < 2 ^ 20 ∨ dacM (s.txc (s.inst i.val).tx).entry = 0 →
    ∃ t, exec (.cxWindowClose i w) s = .next t ∧ s.onlyInst t i.val ∧ t.inst i.val = { s.inst i.val with winAt := s.now, winPol := none }) ∧
  (∀ (s : State) (i : Fin 64) (w : WindowMeas) (e : Word64) (dac d iso ll : Int) (bad : Bool), s.runs → (s.inst i.val).st = .acquire ∨ (s.inst i.val).st = .track → (s.inst i.val).winAt + (s.winPolicy i.val).dwin * tms ≤ s.now → 2 ^ 20 ≤ w.samples →
    e = (s.txc (s.inst i.val).tx).entry → dacM e ≠ 0 → dac = Config.dacGainDb (dacM e) (dacE e) → d = (match w.eh, w.r with | _, none => 4000 | none, some _ => -4000 | some h, some r => clampI (-4000) 4000 (h - r)) →
    ll = (match w.eh with | some h => clampI (-10000) 20000 (-h - dac) | none => 20000) → iso = (match w.eh with | some h => clampI 0 20000 (expOut e - dac + (s.inst i.val).extRxg + 200 - h) | none => 20000) →
    (bad = true ↔ iso < (s.inst i.val).isoMin ∨ (s.inst i.val).isoMax < iso ∨ (∃ v x, (s.inst i.val).prevIso = some (v, x) ∧ (1000 < (iso - v).natAbs ∨ (s.inst i.val).rateMax * (s.now - x) < (iso - v).natAbs * tsec))) →
    ∃ u : State, exec (.cxWindowClose i w) s = .next (((if d < 0 then u.raise 11 3 (.rx (s.inst i.val).rx) else u).cxReport i.val).capAll) ∧ s.alarmed u ∧
    (u.inst i.val).valid = true ∧ (u.inst i.val).iso = iso ∧ (u.inst i.val).ll = ll ∧ (u.inst i.val).dmeas = d ∧ (u.inst i.val).depth = min d 3500 ∧ (u.inst i.val).tape = clampI (-10000) 10000 w.tape ∧ (u.inst i.val).pubAt = some s.now ∧ (u.inst i.val).lastEh = w.eh ∧
    (bad = true → (u.fsrc (16 * 12 + 3)).status = true) ∧
    (bad = false → s.onlyInst u i.val ∧ (u.inst i.val).st = .track ∧ (u.inst i.val).winAt = s.now ∧ (u.inst i.val).main = (s.inst i.val).main ∧ (u.inst i.val).implaus = ((s.inst i.val).implaus && decide ((s.inst i.val).good + 1 < 10))) ∧
    (d < 0 → ((((if d < 0 then u.raise 11 3 (.rx (s.inst i.val).rx) else u).cxReport i.val).capAll).fsrc (16 * 11 + 3)).status = true))

/-- Seeds, freezes and resets (R116 to R121): a loaded seed is screened where its chain radiates, and fades in from the next boundary otherwise; a screened one fades only after four valid blocks with its residual and its energy in bounds, and ends REFUSED_STATE, counted, with SEED_REJ raised, otherwise; at k = L it is the main set, VALID is cleared, the instance is in ACQUIRE and its descriptor ends; at a chain boundary the accepted CX_FREEZEs set FROZEN of the instances they mask, and a CX_RESET zeroes its instance and clears its figures. -/
def Obligations.SeedsFreezesAndResets : Prop :=
  (∀ (s : State) (i : Fin 64) (d : Seed), s.runs → (s.inst i.val).seed = some d → d.phase = .loading → ∃ t, exec (.cxSeedLoaded i) s = .next t ∧
    (d.screened = true → s.onlyInst t i.val ∧ t.inst i.val = { s.inst i.val with seed := some { d with phase := .screening, since := s.now } }) ∧ (d.screened = false → s.cxRadiates i.val = true → ∃ u : State, t = u.completeId d.id .refusedState 0 0 ∧ s.onlyInst u i.val ∧ u.inst i.val = { s.inst i.val with seed := none }) ∧
    (d.screened = false → s.cxRadiates i.val = false → t = { s with cx := t.cx, hif := { s.hif with outstanding := t.hif.outstanding } } ∧ (∀ j, j ≠ i.val → t.inst j = s.inst j) ∧ (∀ q ∈ t.hif.outstanding, q.id = d.id → q.committed = true) ∧
      t.inst i.val = { s.inst i.val with gradOk := false, seed := some { d with phase := .fading, since := s.smpAtOrAfter chainBlk s.now, paused := if s.cxBothOn i.val then none else some (s.smpAtOrAfter chainBlk s.now) } })) ∧
  (∀ (s : State) (i : Fin 64), s.runs → (∀ d ∈ (s.inst i.val).seed, d.phase ≠ .loading) → exec (.cxSeedLoaded i) s = .next s) ∧
  (∀ (s : State) (i : Fin 64) (d : Seed) (b em esh : Nat), s.runs → (s.inst i.val).seed = some d → d.phase = .screening → 4 ≤ b → esh * 1024 ≤ em * (1024 + s.cxPol.eps) → energyOf d.set ≤ energyAt s.cxPol.eMax → (d.screened = true ∨ s.cxRadiates i.val = false) →
    ∃ t, exec (.cxSeedScreenEnd i b em esh) s = .next t ∧ t = { s with cx := t.cx, hif := { s.hif with outstanding := t.hif.outstanding } } ∧ (∀ j, j ≠ i.val → t.inst j = s.inst j) ∧ (∀ q ∈ t.hif.outstanding, q.id = d.id → q.committed = true) ∧
    t.inst i.val = { s.inst i.val with gradOk := false, seed := some { d with phase := .fading, since := s.smpAtOrAfter chainBlk s.now, paused := if s.cxBothOn i.val then none else some (s.smpAtOrAfter chainBlk s.now) } }) ∧
  (∀ (s : State) (i : Fin 64) (d : Seed) (b em esh : Nat), s.runs → (s.inst i.val).seed = some d → d.phase = .screening → (4 ≤ b ∨ d.since + 5 * tms ≤ s.now) → (b < 4 ∨ em * (1024 + s.cxPol.eps) < esh * 1024 ∨ energyAt s.cxPol.eMax < energyOf d.set) →
    ∃ u : State, exec (.cxSeedScreenEnd i b em esh) s = .next ((u.completeId d.id .refusedState 0 0).raise 11 6 (.rx (s.inst i.val).rx)) ∧ s.onlyInst u i.val ∧ u.inst i.val = { s.inst i.val with seed := none, seedRej := satInc 0xFFFF (s.inst i.val).seedRej } ∧
    (((u.completeId d.id .refusedState 0 0).raise 11 6 (.rx (s.inst i.val).rx)).fsrc (16 * 11 + 6)).status = true) ∧
  (∀ (s : State) (i : Fin 64) (b em esh : Nat), s.runs → (∀ d ∈ (s.inst i.val).seed, d.phase ≠ .screening ∨ (b < 4 ∧ s.now < d.since + 5 * tms)) → exec (.cxSeedScreenEnd i b em esh) s = .next s) ∧
  (∀ (s : State) (i : Fin 64) (d : Seed), s.runs → (s.inst i.val).seed = some d → d.phase = .fading → d.paused = none → d.since + d.len * chainSmp + d.lost ≤ s.now → ∃ t, exec (.cxSeedFadeEnd i) s = .next t ∧
    (t.inst i.val).main = d.set ∧ (t.inst i.val).scale = d.scale ∧ (t.inst i.val).valid = false ∧ (t.inst i.val).seed = none ∧ ((t.inst i.val).st = if (s.inst i.val).st = .idle then .idle else .acquire) ∧ (∀ j, j ≠ i.val → t.inst j = s.inst j) ∧
    (∀ q ∈ t.hif.outstanding, q.id ≠ d.id) ∧ t.flt = s.flt ∧ t.rfe = s.rfe ∧ t.prot = s.prot ∧ t.slots = s.slots) ∧
  (∀ (s : State) (i : Fin 64), s.runs → (∀ d ∈ (s.inst i.val).seed, d.phase ≠ .fading ∨ d.paused ≠ none ∨ s.now < d.since + d.len * chainSmp + d.lost) → exec (.cxSeedFadeEnd i) s = .next s) ∧
  (∀ (s : State) (p : Pend) (fr : Byte) (mask : Word64) (i : Nat), s.runs → s.onSmp chainBlk = true → s.pends (fun p => isCxFreeze p && decide (p.acc < s.now)) = [p] → p.desc = .cxFreeze fr mask → i < 64 → ∃ t, exec .cxFreezeBoundary s = .next t ∧
    (t.inst i = if mask.getLsbD i = true ∧ (s.inst i).st ≠ .unassigned ∧ (s.inst i).st ≠ .joined then { s.inst i with frozen := decide (fr = 1), gradOk := (s.inst i).gradOk && decide (fr ≠ 1) } else s.inst i) ∧
    (∀ q ∈ t.hif.outstanding, q.id ≠ p.id) ∧ t.flt = s.flt ∧ ({ s with cx := t.cx } : State).alarmed t) ∧
  (∀ (s : State), s.runs → s.onSmp chainBlk = false ∨ s.pends (fun p => isCxFreeze p && decide (p.acc < s.now)) = [] → exec .cxFreezeBoundary s = .next s) ∧
  (∀ (s : State) (i : Fin 64), s.runs → s.onSmp chainBlk = true → (∃ p ∈ s.hif.outstanding, isCxReset i.val p = true ∧ p.acc < s.now) → (s.inst i.val).st ≠ .unassigned → (s.inst i.val).st ≠ .joined → ∃ t, exec (.cxResetBoundary i) s = .next t ∧
    (t.inst i.val).main = [] ∧ (t.inst i.val).valid = false ∧ (t.inst i.val).cand = none ∧ (t.inst i.val).bulk = (s.inst i.val).bulk ∧
    ((t.inst i.val).st = if s.cxRun i.val = false then .idle else if (s.inst i.val).auto = true ∧ (s.inst i.val).searched = false then .search else .acquire) ∧ (∀ j, j ≠ i.val → t.inst j = s.inst j) ∧
    (∀ q ∈ t.hif.outstanding, isCxReset i.val q = true → s.now ≤ q.acc) ∧ t.flt = s.flt ∧ t.rfe = s.rfe ∧ t.prot = s.prot ∧ t.slots = s.slots) ∧
  (∀ (s : State) (i : Fin 64), s.runs → s.onSmp chainBlk = false ∨ s.pends (fun p => isCxReset i.val p && decide (p.acc < s.now)) = [] → exec (.cxResetBoundary i) s = .next s)

/-- Taking and examining descriptors (R264, R265, R267, R269, R272, R276, R285, R220): a descriptor that cannot be taken stays; one that is taken is examined in the order of R269, privilege, operand ranges, state, then class and deadline, and the first failure answers it, changing nothing else; host data that fail answer it uncounted; a fetch runs the descriptor that its bytes spell on the next ring in turn; a read that fails waits 10 µs for one retry, whose failure writes a FETCH_ERROR and stops the ring. -/
def Obligations.DescriptorExamination : Prop :=
  (∀ (s : State) (i : Instr) (h : DHdr) (d : Desc), s.runs → descriptorOf i = some (h, d) → s.canTake h.ring.val = false → exec i s = .next s) ∧
  (∀ (s : State) (i : Instr) (h : DHdr) (d : Desc), s.runs → descriptorOf i = some (h, d) → s.canTake h.ring.val = true →
    (∀ n : Nat, (privNeed d = 1 ∧ (s.ring h.ring.val).privOper = false ∧ n = 1) ∨ (privNeed d = 2 ∧ (s.ring h.ring.val).privCfg = false ∧ n = 2) ∨ ((s.ring h.ring.val).lacks (privNeed d) = none ∧ isAuth d = true ∧ s.tst.pins.authWe = false ∧ n = 3) ∨
        ((s.ring h.ring.val).lacks (privNeed d) = none ∧ isAuth d = false ∧ closedEngine d = true ∧ n = 4) →
      ∃ t, exec i s = .next t ∧ s.Answered h d { st := .refusedPort, res := word n, res2 := 0 } true t) ∧
    (∀ off, s.privRefuse h.ring.val d = none → (checksOf h.cls d s).range = some off → ∃ t, exec i s = .next t ∧ s.Answered h d { st := .badDescriptor, res := word off, res2 := 0 } true t) ∧
    (∀ r, s.privRefuse h.ring.val d = none → (checksOf h.cls d s).range = none → (checksOf h.cls d s).state = some r → ∃ t, exec i s = .next t ∧ s.Answered h d r true t) ∧
    (∀ w : Option Nat, s.privRefuse h.ring.val d = none → (checksOf h.cls d s).range = none → (checksOf h.cls d s).state = none → (checksOf h.cls d s).worst = w →
      s.classFull h.cls = true ∨ (∃ x, clsDeadline h.cls = some x ∧ ∀ y, w = some y → x < y) →
      ∃ t, exec i s = .next t ∧ s.Answered h d { st := .refusedDeadline, res := worstUs w, res2 := BitVec.ofNat 16 (bit (s.classFull h.cls)) } true t) ∧
    (∀ r, s.examine h d = none → dataFault d s = some r → (∀ a b c e x, d ≠ .leImageLoad a b c e x) → ∃ t, exec i s = .next t ∧ s.Answered h d r false t)) ∧
  (∀ (s : State) (f : Fetch) (data : HostData), s.runs → (∀ n : Fin 16, s.canTake n.val = false) → exec (.descriptorFetch f data) s = .next s) ∧
  (∀ (s : State) (n : Fin 16) (bs : List Byte) (data : HostData) (i : Instr), s.runs → s.canTake n.val = true → (∀ m : Fin 16, s.canTake m.val = true → (n.val + 16 - s.hif.rr % 16) % 16 ≤ (m.val + 16 - s.hif.rr % 16) % 16) →
    (headerFault bs = none → selectorFault bs = none → descriptorOf i = some (hdrOf n bs, operandsOf bs data) → exec (.descriptorFetch (.bytes bs) data) s = exec i s) ∧
    (∀ c, exec (.descriptorFetch (.failed c) data) s = .next { s with hif := { s.hif with rr := (n.val + 1) % 16, rings := s.hif.rings.upd CmdRing.reset n.val (fun r => { r with retry := some s.now }) } })) ∧
  (∀ (s : State) (n : Fin 16) (f : Fetch) (data : HostData), s.runs → (∀ x ∈ (s.ring n.val).retry, s.now < x + 10 * tus) → exec (.fetchRetry n f data) s = .next s) ∧
  (∀ (s : State) (n : Fin 16) (x : Nat) (c : Fin 6) (data : HostData) (u : State), s.runs → (s.ring n.val).retry = some x → x + 10 * tus ≤ s.now → u = s.updRing n.val (fun r => { r with retry := none }) → u.canTake n.val = true →
    (∃ v : State, exec (.fetchRetry n (.failed c) data) s = .next (v.raise 1 2 .device) ∧ (v.ring n.val).st = .stopped ∧ (v.ring n.val).cause = 1 ∧ (v.ring n.val).head = (s.ring n.val).head ∧ (v.ring n.val).retry = none ∧ ((v.raise 1 2 .device).fsrc (16 * 1 + 2)).status = true ∧
      v = (u.sendCompl { ring := n.val, tag := 0xFFFFFFFF, op := 0, status := .fetchError, index := (s.ring n.val).head, accDt := s.dtime, doneDt := s.dtime, res := word c.val, res2 := 0, notify := false }).stopRing n.val 1) ∧
    (∀ (bs : List Byte) (i : Instr), headerFault bs = none → selectorFault bs = none → descriptorOf i = some (hdrOf n bs, operandsOf bs data) → s.hif.rr = (n.val + 1) % 16 → exec (.fetchRetry n (.bytes bs) data) s = exec i u))

/-- Ring and slot descriptors accepted (R35, R36, R37, R46, R47, R50, R138, R272, R277, R278): a NOP completes; a FENCE completes when nothing it waits for is outstanding and waits at HEAD otherwise; an ABORT of a target past its commit point is too late, and one before it ends the target ABORTED; SLOT_CONFIG defines or releases its slot and no other; an enable or disable with nothing to do completes and otherwise waits for its boundary; a gain is set at once and supersedes the earlier ones; a coefficient load begins where no swap is before it; a swap during a fade is queued in place of an earlier queued one. -/
def Obligations.RingAndSlotDescriptors : Prop :=
  (∀ (s : State) (h : DHdr), s.takes h .nop → exec (.nop h) s = .next ((s.accepted h .nop).complete (s.mkPend h .nop) .ok 0 0)) ∧
  (∀ (s : State) (h : DHdr) (all : Byte), s.takes h (.fence all) → ((∀ q ∈ s.hif.outstanding, all ≠ 1 ∧ (q.ring ≠ h.ring.val ∨ q.discard = true)) → exec (.fence h all) s = .next ((s.accepted h (.fence all)).complete (s.mkPend h (.fence all)) .ok 0 0)) ∧
    ((∃ q ∈ s.hif.outstanding, all = 1 ∨ (q.ring = h.ring.val ∧ q.discard = false)) → ∃ (w : FenceWait) (t : State), exec (.fence h all) s = .next t ∧ w.hdr = h ∧ (∀ id, id ∈ w.waits ↔ ∃ q ∈ s.hif.outstanding, q.id = id ∧ (all = 1 ∨ (q.ring = h.ring.val ∧ q.discard = false))) ∧
      t = { s with hif := { s.hif with rr := (h.ring.val + 1) % 16, rings := s.hif.rings.upd CmdRing.reset h.ring.val (fun r => { r with fence := some w }) } } ∧ t.canTake h.ring.val = false)) ∧
  (∀ (s : State) (n : Fin 16), s.runs → (∀ w ∈ (s.ring n.val).fence, s.takesDescs = false ∨ ∃ q ∈ s.hif.outstanding, q.id ∈ w.waits) → exec (.fenceAccept n) s = .next s) ∧
  (∀ (s : State) (n : Fin 16) (w : FenceWait), s.runs → (s.ring n.val).fence = some w → w.hdr.ring = n → s.takesDescs = true → (∀ q ∈ s.hif.outstanding, q.id ∉ w.waits) → s.classFull w.hdr.cls = false → ∃ (u : State) (p : Pend), exec (.fenceAccept n) s = .next (u.complete p .ok 0 0) ∧
    p.id = s.hif.nextId ∧ p.ring = n.val ∧ p.tag = w.hdr.tag ∧ p.op = 2 ∧ p.index = (s.ring n.val).head ∧ p.notify = w.hdr.notify ∧ p.accDt = s.dtime ∧
    u = { s with hif := { s.hif with nextId := s.hif.nextId + 1, outstanding := s.hif.outstanding ++ [p], rings := u.hif.rings } } ∧ u.ring n.val = { s.ring n.val with head := (s.ring n.val).head + 1, fence := none } ∧ ∀ m, m ≠ n.val → u.ring m = s.ring m) ∧
  (∀ (s : State) (h : DHdr) (r : Byte) (i : Half) (A : State) (p : Pend), s.takes h (.abort r i) → A = s.accepted h (.abort r i) → p = s.mkPend h (.abort r i) →
    (∀ q, A.abortTarget r.toNat i = some q → A.pastCommit q = true ∨ q.id = p.id → exec (.abort h r i) s = .next (A.complete p .abortTooLate (word (r.toNat % 16 * 65536 + i.toNat)) 0)) ∧
    (A.abortTarget r.toNat i = none → exec (.abort h r i) s = .next (A.complete p .abortTooLate (word (r.toNat % 16 * 65536 + i.toNat)) 0)) ∧
    (∀ q, A.abortTarget r.toNat i = some q → q.id ≠ p.id → A.pastCommit q = false → opOf q.desc ∈ ([0x11, 0x12, 0x14, 0x21, 0x22, 0x32, 0x40, 0x62] : List Byte) → exec (.abort h r i) s = .next ((A.complete q .aborted 0 0).complete p .ok (word (r.toNat % 16 * 65536 + i.toNat)) 0)) ∧
    (∀ q, A.abortTarget r.toNat i = some q → q.id ≠ p.id → A.pastCommit q = false → exec (.abort h r i) s = .next ((A.abortPend q).complete p .ok (word (r.toNat % 16 * 65536 + i.toNat)) 0))) ∧
  (∀ (s : State) (h : DHdr) (sl pr rt dk : Byte) (ds bw : Half) (rx tx : Word) (pd : Half), s.takes h (.slotConfig sl pr rt dk ds bw rx tx pd) → ∃ t, exec (.slotConfig h sl pr rt dk ds bw rx tx pd) s = .next t ∧ (∀ m, m ≠ sl.toNat → t.slot m = s.slot m) ∧
    (∀ q ∈ t.hif.outstanding, q ∈ s.hif.outstanding ∧ ((s.slot sl.toNat).st = .configured → isCoefLoad sl.toNat q = false ∧ isBankSwap sl.toNat q = false)) ∧ t.rfe = s.rfe ∧ t.cx = s.cx ∧ t.flt = s.flt ∧ t.prot = s.prot ∧
    (bw = 0 → t.slot sl.toNat = { Slot.reset with satCnt := (t.slot sl.toNat).satCnt, supCnt := (t.slot sl.toNat).supCnt, shortCnt := (t.slot sl.toNat).shortCnt }) ∧
    (bw ≠ 0 → ∀ k nt : Nat, k = rateIdx rt bw → nt = ntapsOf pr.toNat k bw.toNat → t.slot sl.toNat = { Slot.reset with
      satCnt := (t.slot sl.toNat).satCnt, supCnt := (t.slot sl.toNat).supCnt, shortCnt := (t.slot sl.toNat).shortCnt, group := (t.slot sl.toNat).group,
      st := .configured, preset := pr.toNat, rate := k, bw := bw.toNat, rxfreq := rx.toInt, txfreq := tx.toInt, stream := decide (dk = 1), dest := ds, pdly := pd, ntaps := nt,
      bankA := Config.presetBank pr.toNat nt, bankB := Config.presetBank pr.toNat nt })) ∧
  (∀ (s : State) (h : DHdr) (sl : Byte), s.takes h (.slotEnable sl) → exec (.slotEnable h sl) s = .next (if (s.slot sl.toNat).st = .configured then s.accepted h (.slotEnable sl) else (s.accepted h (.slotEnable sl)).complete (s.mkPend h (.slotEnable sl)) .ok 0 0)) ∧
  (∀ (s : State) (h : DHdr) (sl : Byte), s.takes h (.slotDisable sl) → exec (.slotDisable h sl) s = .next (if (s.slot sl.toNat).st = .free ∨ (s.slot sl.toNat).st = .configured then (s.accepted h (.slotDisable sl)).complete (s.mkPend h (.slotDisable sl)) .ok 0 0 else s.accepted h (.slotDisable sl))) ∧
  (∀ (s : State) (h : DHdr) (sl : Byte) (g : Word), s.takes h (.slotGainSet sl g) → ∃ t, exec (.slotGainSet h sl g) s = .next t ∧
    t.gain sl.toNat = { s.gain sl.toNat with host := gainCode g, target := if (s.gain sl.toNat).agcEn then (s.gain sl.toNat).target else gainCode g, supCnt := (t.gain sl.toNat).supCnt } ∧ (∀ m, m ≠ sl.toNat → t.gain m = s.gain m) ∧
    (∀ q ∈ t.hif.outstanding, isGainSet sl.toNat q = true → q.id = s.hif.nextId) ∧ ((s.slot sl.toNat).st ≠ .active ∨ s.slotMuted sl.toNat = true → ∀ q ∈ t.hif.outstanding, isGainSet sl.toNat q = false) ∧
    t.slots = s.slots ∧ t.rfe = s.rfe ∧ t.cx = s.cx ∧ t.prot = s.prot ∧ t.flt = s.flt) ∧
  (∀ (s : State) (h : DHdr) (sl : Byte) (tag nb : Half) (addr : Word64) (data : HostData) (A : State), s.takes h (.slotCoefLoad sl tag nb addr data) → A = s.accepted h (.slotCoefLoad sl tag nb addr data) → s.pends (isCoefLoad sl.toNat) = [] →
    (s.pends (isBankSwap sl.toNat) = [] → exec (.slotCoefLoad h sl tag nb addr data) s = .next (A.updPend s.hif.nextId (fun q => { q with aux := 1, start := s.now }))) ∧
    ((∃ q ∈ s.pends (isBankSwap sl.toNat), q.id < s.hif.nextId) → exec (.slotCoefLoad h sl tag nb addr data) s = .next A)) ∧
  (∀ (s : State) (h : DHdr) (sl x : Byte), s.takes h (.slotBankSwap sl x) →
    ((s.slot sl.toNat).fade = none → s.waitingSwaps sl.toNat = [] → s.pends (isCoefLoad sl.toNat) = [] → exec (.slotBankSwap h sl x) s = .next (s.accepted h (.slotBankSwap sl x))) ∧
    ((s.slot sl.toNat).fade ≠ none → ∃ t, exec (.slotBankSwap h sl x) s = .next t ∧ (∀ q ∈ t.hif.outstanding, q.id = s.hif.nextId → q.aux = 1) ∧ (∀ r ∈ s.waitingSwaps sl.toNat, r.aux = 1 → r.id ≠ s.hif.nextId → ∀ q ∈ t.hif.outstanding, q.id ≠ r.id) ∧
      (∀ m, t.slot m = { s.slot m with supCnt := (t.slot m).supCnt }) ∧ (∀ m, m ≠ sl.toNat → t.slot m = s.slot m) ∧ t.rfe = s.rfe ∧ t.gcl = s.gcl ∧ t.cx = s.cx ∧ t.prot = s.prot ∧ t.flt = s.flt))

/-- Chain, canceller and gain descriptors accepted (R63, R67, R68, R70, R74, R88, R90, R91, R103, R116, R117, R118): a CHAIN_STATE on a quiescent chain that is there completes and otherwise begins its walk at the next boundary, and on a busy chain it is held; a tuning change, a calibration, a freeze, a reset or a load waits for its own step; power steps and tuner words queue their frame on the bus of TX_MAP; CX_ASSIGN assigns or releases its instance; a seed is taken in LOADING; a set swap inverts ACTIVE; GCL_SETPOINT writes the groups that FIELDS names; an installation model replaces the bounds and clears the good count. -/
def Obligations.RadioDescriptors : Prop :=
  (∀ (s : State) (h : DHdr) (ch dr tg fl : Byte) (i : Nat) (c : Chain) (A : State) (d : Desc), d = .chainState ch dr tg fl → s.takes h d → i = chIdxB dr ch → A = s.accepted h d → c = { s.chainNow i with dcHold := fl.getLsbD 0, lnaByp := decide (i < 32) && fl.getLsbD 1 } →
    (s.chQuiet i = true → c.st = chStOf tg.toNat → ∃ u : State, exec (.chainState h ch dr tg fl) s = .next (u.complete (s.mkPend h d) .ok 0 0) ∧ A.onlyChain u i ∧ u.chain i = c) ∧
    (s.chQuiet i = true → c.st ≠ chStOf tg.toNat → ∃ u : State, exec (.chainState h ch dr tg fl) s = .next (u.updPend s.hif.nextId (fun q => { q with aux := 1, start := s.nextSmp chainBlk })) ∧ A.onlyChain u i ∧
      u.chain i = { c with walk := some (s.hif.nextId, chStOf tg.toNat), trans := some (chNext c.st (chStOf tg.toNat), s.nextSmp chainBlk) }) ∧
    (c.trans ≠ none ∨ c.walk ≠ none ∨ c.lock = .settling ∨ c.cal ≠ none → ∃ t, exec (.chainState h ch dr tg fl) s = .next t ∧ A.onlyChain t i ∧ t.chain i = c)) ∧
  (∀ (s : State) (h : DHdr) (ch dr md lo : Byte) (fw fo : Word) (pd : Half) (d : Desc), d = .chainTune ch dr md lo fw fo pd → s.takes h d → exec (.chainTune h ch dr md lo fw fo pd) s = .next (if (s.chainNow (chIdxB dr ch)).delayOnly md lo fw fo then s.accepted h d else (s.accepted h d).updPend s.hif.nextId (fun q => { q with aux := 1 }))) ∧
  (∀ (s : State) (h : DHdr) (ch dr m : Byte) (d : Desc) (k : Nat), d = .calRun ch dr m → s.takes h d → k = calMask (s.chainNow (chIdxB dr ch)).quad m →
    exec (.calRun h ch dr m) s = .next (if k = 0 then (s.accepted h d).complete (s.mkPend h d) .ok 0 0 else (s.accepted h d).updPend s.hif.nextId (fun q => { q with aux := k }))) ∧
  (∀ (s : State) (h : DHdr) (c md dl : Byte) (ix : Word) (tm : Word64) (d : Desc) (a : PwrAsk), d = .txPowerStep c md dl ix tm → s.takes h d → a = (if md = 0 then .index (bitsOf ix 0 7) else .delta dl.toInt) → ∃ t, exec (.txPowerStep h c md dl ix tm) s = .next t ∧
    t.hif.outstanding.map (fun q => q.id) = (s.accepted h d).hif.outstanding.map (fun q => q.id) ∧ t = { s.accepted h d with hif := { (s.accepted h d).hif with outstanding := t.hif.outstanding }, rfe := t.rfe } ∧
    ((s.txc c.toNat).paFecb = true → t.rfe = { s.rfe with fecb := t.rfe.fecb } ∧ (∀ b, b ≠ (s.txc c.toNat).paBus c.toNat → t.fecb b = s.fecb b) ∧
      ∃ f : Frame, f = { prio := 0, chain := c.toNat, cs := (s.txc c.toNat).paCs, kind := .power a, at_ := s.atTime tm, id := some s.hif.nextId, sched := none } ∧ t.fecb ((s.txc c.toNat).paBus c.toNat) = { s.fecb ((s.txc c.toNat).paBus c.toNat) with queue := (s.fecb ((s.txc c.toNat).paBus c.toNat)).queue ++ [f] }) ∧
    ((s.txc c.toNat).paFecb = false → t.rfe = { s.rfe with tx := t.rfe.tx } ∧ (∀ b, b ≠ c.toNat → t.txc b = s.txc b) ∧ t.txc c.toNat = { s.txc c.toNat with waiting := (s.txc c.toNat).waiting ++ [(a, s.atTime tm, some s.hif.nextId)] })) ∧
  (∀ (s : State) (h : DHdr) (c w : Byte) (tm : Word64) (d : Desc) (b : Nat), d = .tunerSet c w tm → s.takes h d → b = (s.txc c.toNat).tunBus c.toNat → ∃ t, exec (.tunerSet h c w tm) s = .next t ∧ (s.accepted h d).onlyFecb t b ∧
    t.fecb b = { s.fecb b with queue := (s.fecb b).queue ++ [{ prio := 1, chain := c.toNat, cs := (s.txc c.toNat).tunCs, kind := .tuner w, at_ := s.atTime tm, id := some s.hif.nextId, sched := none }] }) ∧
  (∀ (s : State) (h : DHdr) (b cs ln : Byte) (raw : Word) (tm : Word64) (d : Desc), d = .tunerSetRaw b cs ln raw tm → s.takes h d → ∃ t, exec (.tunerSetRaw h b cs ln raw tm) s = .next t ∧ (s.accepted h d).onlyFecb t b.toNat ∧
    t.fecb b.toNat = { s.fecb b.toNat with queue := (s.fecb b.toNat).queue ++ [{ prio := 2, chain := 0, cs := cs.toNat, kind := .raw (raw.extractLsb' 0 24) ln.toNat, at_ := s.atTime tm, id := some s.hif.nextId, sched := none }] }) ∧
  (∀ (s : State) (h : DHdr) (c : Byte) (addr : Word64) (data : HostData), s.takes h (.txPowerTableLoad c addr data) → exec (.txPowerTableLoad h c addr data) s = .next (s.accepted h (.txPowerTableLoad c addr data))) ∧
  (∀ (s : State) (h : DHdr) (c : Byte), s.takes h (.cxReset c) → exec (.cxReset h c) s = .next (s.accepted h (.cxReset c))) ∧
  (∀ (s : State) (h : DHdr) (f : Byte) (m : Word64), s.takes h (.cxFreeze f m) → exec (.cxFreeze h f m) s = .next (s.accepted h (.cxFreeze f m))) ∧
  (∀ (s : State) (h : DHdr) (st : Byte) (tag : Half) (addr : Word64) (data : HostData), s.takes h (.gclLutLoad st tag addr data) → exec (.gclLutLoad h st tag addr data) s = .next (s.accepted h (.gclLutLoad st tag addr data))) ∧
  (∀ (s : State) (h : DHdr) (c rl tx rx j : Byte) (b e : Half) (d : Desc), d = .cxAssign c rl tx rx j b e → s.takes h d → ∃ t, exec (.cxAssign h c rl tx rx j b e) s = .next t ∧ (∀ q ∈ t.hif.outstanding, q ∈ s.hif.outstanding) ∧ t.slots = s.slots ∧ t.rfe = s.rfe ∧ t.prot = s.prot ∧ t.flt = s.flt ∧
    (∀ m, m ≠ c.toNat → m ≠ c.toNat + 1 → t.inst m = s.inst m) ∧ (rl = 1 → t.inst c.toNat = ({ s.inst c.toNat with seed := none } : Inst).release) ∧
    (rl = 0 → (t.inst c.toNat).st ≠ .unassigned ∧ (t.inst c.toNat).tx = tx.toNat ∧ (t.inst c.toNat).rx = rx.toNat ∧ (t.inst c.toNat).join = decide (j = 1) ∧ (t.inst c.toNat).extRxg = e.toInt ∧
      ((s.inst c.toNat).st = .unassigned → (t.inst c.toNat).main = [] ∧ (t.inst c.toNat).valid = false ∧ (t.inst c.toNat).auto = decide (b = 0xFFFF) ∧ ((t.inst c.toNat).bulk = if b = 0xFFFF then 0 else b.toNat) ∧ (j = 1 → (t.inst (c.toNat + 1)).st = .joined)))) ∧
  (∀ (s : State) (h : DHdr) (c x : Byte) (len : Word) (addr : Word64) (ws : List Word) (d : Desc), d = .cxResetSeed c x len addr (.words ws) → s.takes h d → ∃ t, exec (.cxResetSeed h c x len addr (.words ws)) s = .next t ∧ (s.accepted h d).onlyInst t c.toNat ∧
    t.inst c.toNat = { s.inst c.toNat with seed := some { id := s.hif.nextId, phase := .loading, screened := s.seedScreens c.toNat, since := s.now, set := coefSet ws, scale := 0, len := xfadeLen x.toNat, paused := none, lost := 0 } }) ∧
  (∀ (s : State) (h : DHdr) (st : Byte), s.takes h (.gclBankSwap st) → ∃ t, exec (.gclBankSwap h st) s = .next t ∧ t.lut st.toNat = { s.lut st.toNat with activeB := !(s.lut st.toNat).activeB } ∧ (∀ m, m ≠ st.toNat → t.lut m = s.lut m) ∧
    (∀ m, t.gain m = { s.gain m with bankB := (t.gain m).bankB }) ∧ (∀ q ∈ t.hif.outstanding, isLutSwap st.toNat q = true → q.id = s.hif.nextId) ∧ ((∀ m ∈ s.lutUsers st.toNat, (s.gain m).bankB ≠ (s.lut st.toNat).activeB) → ∀ q ∈ t.hif.outstanding, isLutSwap st.toNat q = false)) ∧
  (∀ (s : State) (h : DHdr) (sl f fl : Byte) (sp w : Half) (ls : Byte) (su sd m : Half) (d : Desc) (g : Gain), d = .gclSetpoint sl f fl sp w ls su sd m → s.takes h d → g = s.gain sl.toNat → ∃ t, exec (.gclSetpoint h sl f fl sp w ls su sd m) s = .next t ∧ t.slots = s.slots ∧ t.cx = s.cx ∧ t.rfe = s.rfe ∧ t.flt = s.flt ∧ t.prot = s.prot ∧
    (f.getLsbD 0 = true → (t.gain sl.toNat).spTarget = sp.toInt ∧ ∀ q ∈ t.hif.outstanding, isSetpoint sl.toNat q = true → q.id = s.hif.nextId) ∧ (f.getLsbD 0 = false → (t.gain sl.toNat).spTarget = g.spTarget ∧ ∀ q ∈ t.hif.outstanding, q.id ≠ s.hif.nextId) ∧
    ((t.gain sl.toNat).agcEn = if f.getLsbD 1 then fl.getLsbD 0 else g.agcEn) ∧ ((t.gain sl.toNat).agcSrc = if f.getLsbD 1 then fl.getLsbD 1 else g.agcSrc) ∧ ((t.gain sl.toNat).spRef = if f.getLsbD 1 then fl.getLsbD 2 else g.spRef) ∧ ((t.gain sl.toNat).win = if f.getLsbD 1 then w.toNat else g.win) ∧
    ((t.gain sl.toNat).lutset = if f.getLsbD 1 then ls.toNat else g.lutset) ∧ ((t.gain sl.toNat).slewUp = if f.getLsbD 2 then su.toNat else g.slewUp) ∧ ((t.gain sl.toNat).slewDn = if f.getLsbD 2 then sd.toNat else g.slewDn) ∧ ((t.gain sl.toNat).margin = if f.getLsbD 3 then m.toNat else g.margin) ∧ (t.gain sl.toNat).host = g.host ∧
    (f.getLsbD 1 = true → fl.getLsbD 0 = false → (t.gain sl.toNat).target = g.host)) ∧
  (∀ (s : State) (h : DHdr) (c : Byte) (mn mx rt : Half) (d : Desc), d = .installationModel c mn mx rt → s.takes h d → ∃ u : State, exec (.installationModel h c mn mx rt) s = .next (u.complete (s.mkPend h d) .ok (Config.freeValue s.freeCnt &&& 0xFFFF) 0) ∧
    (∀ m, m ≠ c.toNat → u.inst m = s.inst m) ∧ u.inst c.toNat = { s.inst c.toNat with isoMin := mn.toNat, isoMax := mx.toNat, rateMax := rt.toNat, good := 0 } ∧ u = { s.accepted h d with freeCnt := s.freeCnt + 1, cx := u.cx, gcl := u.gcl })

/-- Protection, engine, host and cascade descriptors accepted (R185, R188, R190, R191, R195, R242, R247, R279, R283, R355, R356, R379): PROT_CONFIG sets its parameter of its objects; an authorisation entry is written with its five words; WINTER_ENTER sets cause HOST; WINTER_RELEASE of an object in WINTER starts its proof; a task started is WAITING with its period, phase and objects, and one stopped is STOPPED at once unless it runs; a capture takes the queue's head; a subscription replaces the one of its number; a note is recorded under its number; a flush is asked for; a receive stream listens, a send stream is PENDING and sends STREAM_REQ; a close completes where nothing is open. -/
def Obligations.ServiceDescriptors : Prop :=
  (∀ (s : State) (h : DHdr) (pm ob : Byte) (v : Word) (d : Desc), d = .protConfig pm ob v → s.takes h d → ∃ u : State, exec (.protConfig h pm ob v) s = .next (u.complete (s.mkPend h d) .ok 0 0) ∧
    u = { s.accepted h d with prot := { s.prot with params := u.prot.params, attachSet := u.prot.attachSet } } ∧
    (∀ j, (ob ≠ 0xFF ∧ ob.toNat = j) ∨ (ob = 0xFF ∧ j < paramObjs pm.toNat) → u.param pm.toNat j = v.toInt) ∧ (∀ p j, p ≤ 9 → j < 32 → (p ≠ pm.toNat ∨ (ob.toNat ≠ j ∧ ob ≠ 0xFF)) → u.param p j = s.param p j)) ∧
  (∀ (s : State) (h : DHdr) (e : Byte) (w0 w1 w2 w3 w4 : Word) (d : Desc), d = .authorisationWrite e w0 w1 w2 w3 w4 → s.takes h d → ∃ t, exec (.authorisationWrite h e w0 w1 w2 w3 w4) s = .next t ∧ t = { s.accepted h d with prot := { s.prot with auth := t.prot.auth, wrCnt := satInc 0xFFFF s.prot.wrCnt } } ∧
    t.authWord e.toNat 0 = w0 ∧ t.authWord e.toNat 1 = w1 ∧ t.authWord e.toNat 2 = w2 ∧ t.authWord e.toNat 3 = w3 ∧ t.authWord e.toNat 4 = w4 ∧ ∀ x k, x ≠ e.toNat → k < 5 → t.authWord x k = s.authWord x k) ∧
  (∀ (s : State) (h : DHdr) (sc ix : Byte) (rs : Half) (d : Desc) (i : Nat), d = .winterEnter sc ix rs → s.takes h d → i = scopeObj sc ix → ∃ u : State, exec (.winterEnter h sc ix rs) s = .next (u.complete (s.mkPend h d) .ok 0 0) ∧ (s.accepted h d).alarmed u ∧ (u.wobj i).cause.getLsbD 9 = true ∧
    (u.wobj i).cleared.getLsbD 9 = false ∧ (∀ j c, (s.wobj j).cause.getLsbD c = true → (u.wobj j).cause.getLsbD c = true) ∧ ((s.wobj i).cause.getLsbD 9 = false → (u.wobj i).release = none ∧ (u.wobj i).age = some s.now)) ∧
  (∀ (s : State) (h : DHdr) (sc ix ov : Byte) (d : Desc) (i : Nat), d = .winterRelease sc ix ov → s.takes h d → i = scopeObj sc ix →
    (s.inWinter i = false → exec (.winterRelease h sc ix ov) s = .next ((s.accepted h d).complete (s.mkPend h d) .ok (s.pwCause i) 0)) ∧
    (s.inWinter i = true → (s.wobj i).release = none → ∃ t, exec (.winterRelease h sc ix ov) s = .next t ∧ (s.accepted h d).onlyWobj t i ∧ t.wobj i = { s.wobj i with release := some { id := s.hif.nextId, since := s.now, passed := false } }) ∧
    (s.inWinter i = true → (s.wobj i).release ≠ none → exec (.winterRelease h sc ix ov) s = .next (s.accepted h d))) ∧
  (∀ (s : State) (h : DHdr) (f c : Byte) (len : Word) (addr : Word64) (data : HostData) (d : Desc), d = .leImageLoad f c len addr data → s.takes h d → (f ≠ 4 → exec (.leImageLoad h f c len addr data) s = .next (s.accepted h d)) ∧
    (f = 4 → ∃ t, exec (.leImageLoad h f c len addr data) s = .next t ∧ t.le.libRunning = false ∧ (∀ e k, 4 ≤ e → e < 64 → k < 8 → (t.task (taskKey e k)).st = .stopped) ∧ t.rfe = s.rfe ∧ t.slots = s.slots ∧ t.cx = s.cx ∧ t.prot = s.prot)) ∧
  (∀ (s : State) (h : DHdr) (e t en sv : Byte) (pe ph : Word) (nb : Byte) (pm : Word64) (ws : List Word) (d : Desc) (k : Nat), d = .leTaskStart e t en sv pe ph nb pm (.words ws) → s.takes h d → k = taskKey e.toNat t.toNat → ∃ u, exec (.leTaskStart h e t en sv pe ph nb pm (.words ws)) s = .next u ∧ (s.accepted h d).onlyTask u k ∧
    (u.task k).st = .waiting ∧ (u.task k).prot = false ∧ (u.task k).entry = en.toNat ∧ (u.task k).sev = sv.toNat ∧ (u.task k).period = pe.toNat ∧ (u.task k).phase = ph.toNat ∧ (u.task k).args = ws.take 16 ∧ (u.task k).objs = (ws.drop 16).take nb.toNat ∧ (u.task k).startId = some s.hif.nextId) ∧
  (∀ (s : State) (h : DHdr) (e t : Byte) (d : Desc) (k : Nat), d = .leTaskStop e t → s.takes h d → k = taskKey e.toNat t.toNat → ((s.task k).st = .stopped → exec (.leTaskStop h e t) s = .next ((s.accepted h d).complete (s.mkPend h d) .ok 0 0)) ∧ ((s.task k).st = .running → exec (.leTaskStop h e t) s = .next (s.accepted h d)) ∧
    ((s.task k).st ≠ .stopped → (s.task k).st ≠ .running → ∃ u, exec (.leTaskStop h e t) s = .next u ∧ (u.task k).st = .stopped ∧ (∀ j, j ≠ k → u.task j = s.task j) ∧ ∀ q ∈ u.hif.outstanding, q.id ≠ s.hif.nextId)) ∧
  (∀ (s : State) (h : DHdr) (pt ix tr sh : Byte) (ln pr : Word) (tm ad : Word64) (d : Desc), d = .capture pt ix tr sh ln pr tm ad → s.takes h d → (s.hif.captRun ≠ none → exec (.capture h pt ix tr sh ln pr tm ad) s = .next (s.accepted h d)) ∧
    (s.hif.captRun = none → s.pends isCapture = [] → ∃ t, exec (.capture h pt ix tr sh ln pr tm ad) s = .next t ∧ t = { s.accepted h d with hif := { (s.accepted h d).hif with captRun := some { id := s.hif.nextId, triggered := false, since := s.now }, captDone := false, captValid := false } })) ∧
  (∀ (s : State) (h : DHdr) (sb rg kd ix : Byte) (mk pe : Word) (d : Desc), d = .telemetrySubscribe sb rg kd ix mk pe → s.takes h d → ∃ u : State, exec (.telemetrySubscribe h sb rg kd ix mk pe) s = .next (u.complete (s.mkPend h d) .ok 0 0) ∧
    u = { s.accepted h d with hif := { (s.accepted h d).hif with subs := u.hif.subs } } ∧ (∀ m, m ≠ sb.toNat → u.hif.subs.get Sub.reset m = s.hif.subs.get Sub.reset m) ∧
    u.hif.subs.get Sub.reset sb.toNat = if pe = 0 then Sub.reset else { active := true, kind := kd.toNat, ring := rg.toNat, index := ix.toNat, mask := mk, period := pe, count := 0, gap := false }) ∧
  (∀ (s : State) (h : DHdr) (n : Half) (ws : List Word) (d : Desc), d = .recNote n ws → s.takes h d → s.recd.mounted = true → s.recd.buf.length + s.recd.buckets.length < 1024 → ∃ u : State, exec (.recNote h n ws) s = .next (u.complete (s.mkPend h d) .ok (word s.recd.nextSeq) 0) ∧
    (s.accepted h d).alarmed u ∧ ∃ r ∈ u.recd.buf, r.code = 0xC00 + n.toNat ∧ r.seq = s.recd.nextSeq) ∧
  (∀ (s : State) (h : DHdr) (d : Desc), d = .recFlush → s.takes h d → s.recd.intakeClosed = false → s.recd.committedTo (s.recd.nextSeq - 1) = false → (∀ q ∈ s.hif.outstanding, q.id ≠ s.hif.nextId) → ∃ t, exec (.recFlush h) s = .next t ∧ t.recd.want = true ∧ t.recd.store = s.recd.store ∧
    (∃ q ∈ t.hif.outstanding, q.id = s.hif.nextId ∧ q.aux = s.recd.nextSeq - 1) ∧ t.rfe = s.rfe ∧ t.prot = s.prot) ∧
  (∀ (s : State) (h : DHdr) (pt st dr rt tc : Byte) (bw : Half) (tf : Word) (pd : Half) (d : Desc) (k : Nat), d = .jlStreamOpen pt st dr rt tc bw tf pd → s.takes h d → k = strIdx pt.toNat (decide (dr = 1)) st.toNat → ∃ t, exec (.jlStreamOpen h pt st dr rt tc bw tf pd) s = .next t ∧ t.jl.dirty = true ∧ (∀ j, j ≠ k → t.strm j = s.strm j) ∧ t.rfe = s.rfe ∧ t.slots = s.slots ∧ t.prot = s.prot ∧
    (dr = 1 → t.strm k = { Strm.reset with st := .listen, rate := rt.toNat, txch := tc.toNat, bw := bw.toNat, txfreq := tf.toInt, pdly := pd, sat := (s.strm k).sat, err := (s.strm k).err } ∧ ∀ q ∈ t.hif.outstanding, q.id ≠ s.hif.nextId) ∧
    (dr = 0 → ∃ c f, s.strFit pt.toNat false st.toNat rt.toNat = some (c, f) ∧ (t.strm k).st = .pending ∧ (t.strm k).rate = rt.toNat ∧ (t.strm k).col = c ∧ (t.strm k).phase = f ∧ (t.strm k).id = some s.hif.nextId ∧ (t.strm k).agreed = false ∧ (t.strm k).reqAt = s.now ∧ (t.strm k).start = some s.startTime)) ∧
  (∀ (s : State) (h : DHdr) (pt st : Byte) (d : Desc) (k : Nat), d = .jlStreamClose pt st → s.takes h d → k = strIdx pt.toNat (st.getLsbD 7) (st.toNat % 16) → ((s.strm k).st = .closed → exec (.jlStreamClose h pt st) s = .next ((s.accepted h d).complete (s.mkPend h d) .ok 0 0)) ∧
    ((s.strm k).st ≠ .closed → ∃ t, exec (.jlStreamClose h pt st) s = .next t ∧ (s.accepted h d).onlyStrm t k ∧ t.strm k = { s.strm k with closing := some ((s.strm k).closing.getD s.hif.nextId) }))

/-- The protection triggers (R178 to R184): a window on a receive chain that is on, with the line test met, enters OSC WINTER on every ACTIVE slot of the chain that overlaps the bin, or on all its slots where none does, and with the lag test met on the slots named; a window with neither changes only the detector. NRISE lowers every slot of the chain by 3 dB at each of four steps and enters WINTER at the fifth, and lifts its clamps after 1,000 good milliseconds. DONOR_LOSS, OOBE, the loss of TDD lock and the temperatures enter or clear their causes as chapter 6 gives them. -/
def Obligations.ProtectionTriggers : Prop :=
  (∀ (s : State) (r : Fin 32) (w : OscMeas), s.runs → (s.chain r.val).st ≠ .rxOn ∨ w.onPeriod = false → exec (.oscWindow r w) s = .next s) ∧
  (∀ (s : State) (r : Fin 32) (w : OscMeas) (line : Bool) (act : List Nat), s.runs → (s.chain r.val).st = .rxOn → w.onPeriod = true → act = (s.rxSlots r.val).filter (fun n => decide ((s.slot n).st = .active)) →
    (line = true ↔ s.param 1 r.val % 2 = 1 ∧ s.param 2 r.val ≤ w.rise ∧ -600 ≤ w.binDbfs ∧ w.halfShare = true) → ∃ t, exec (.oscWindow r w) s = .next t ∧
    (t.rxDet r.val).rho = min 255 w.rho.val ∧ ((t.rxDet r.val).bin = if line then w.bin.val else (s.rxDet r.val).bin) ∧ (∀ j, j ≠ r.val → t.rxDet j = s.rxDet j) ∧ t.rfe = s.rfe ∧ t.prot.temps = s.prot.temps ∧
    (line = true → (t.rxDet r.val).detCnt = satInc 0xFFFF (s.rxDet r.val).detCnt ∧ (t.rxDet r.val).lastDet = some s.now) ∧
    (line = true → ∀ n ∈ act, (s.slot n).overBin w.bin.val = true → (t.wobj n).cause.getLsbD 0 = true ∧ (t.fsrc (16 * 13 + 3)).status = true) ∧
    (line = true → (∀ n ∈ act, (s.slot n).overBin w.bin.val = false) → ∀ n ∈ s.rxSlots r.val, (t.wobj n).cause.getLsbD 0 = true ∧ (t.fsrc (16 * 13 + 3)).status = true) ∧
    (2 ≤ s.param 1 r.val → -600 ≤ w.powerDbfs → ∀ e ∈ w.lagSlots, s.param 3 r.val ≤ (e.2.val : Int) → e.1.val ∈ act → (t.wobj e.1.val).cause.getLsbD 0 = true ∧ (t.rxDet r.val).detCnt = satInc 0xFFFF (s.rxDet r.val).detCnt) ∧
    (line = false → s.param 1 r.val < 2 ∨ w.powerDbfs < -600 ∨ (∀ e ∈ w.lagSlots, (e.2.val : Int) < s.param 3 r.val ∨ e.1.val ∉ act) → s.onlyRxDet t r.val ∧ (t.rxDet r.val).detCnt = (s.rxDet r.val).detCnt)) ∧
  (∀ (s : State) (r : Fin 32) (f : Int), s.runs → s.param 9 r.val % 2 = 0 ∨ (s.chain r.val).st ≠ .rxOn ∨ (∀ n ∈ s.rxSlots r.val, (s.slot n).st ≠ .active) → exec (.nriseEval r f) s = .next s) ∧
  (∀ (s : State) (r : Fin 32) (f ref : Int) (k : Nat), s.runs → s.param 9 r.val % 2 ≠ 0 → (s.chain r.val).st = .rxOn → (∃ n ∈ s.rxSlots r.val, (s.slot n).st = .active) → s.nriseRef r.val = some ref → (s.rxSlots r.val).Nodup → (s.rxDet r.val).nRef ≠ none → k = (s.rxDet r.val).nStep →
    (s.param 4 r.val * 10 < f - ref → 99 ≤ (s.rxDet r.val).nRun → k < 4 → (s.rxDet r.val).nGood < 1000 → ∃ u : State, exec (.nriseEval r f) s = .next (if k = 0 then u.raise 13 5 (.rx r.val) else u) ∧ (k = 0 → ((u.raise 13 5 (.rx r.val)).fsrc (16 * 13 + 5)).status = true) ∧
      u = { s with gcl := u.gcl, prot := { s.prot with rx := u.prot.rx } } ∧ (u.rxDet r.val).nStep = k + 1 ∧ (u.rxDet r.val).nRun = 0 ∧ (∀ n ∈ s.rxSlots r.val, (u.gain n).acc = (s.gain n).acc ∧
        (u.gain n).nrise = some (max (-1200) ((match (s.gain n).nrise with | some v => if k = 0 then s.effShown n else v | none => s.effShown n) - 60)))) ∧
    (s.param 4 r.val * 10 < f - ref → 99 ≤ (s.rxDet r.val).nRun → k = 4 → (s.rxDet r.val).nGood < 1000 → ∃ t, exec (.nriseEval r f) s = .next t ∧ (∀ n ∈ s.rxSlots r.val, (t.wobj n).cause.getLsbD 1 = true) ∧ (t.rxDet r.val).nStep = 5 ∧ t.rfe = s.rfe) ∧
    (f - ref ≤ s.param 4 r.val * 10 - 100 → 999 ≤ (s.rxDet r.val).nGood → k ≠ 0 → ∃ t, exec (.nriseEval r f) s = .next t ∧ (t.rxDet r.val).nStep = 0 ∧ (∀ n ∈ s.rxSlots r.val, (t.gain n).nrise = none ∧ ((s.wobj n).cause.getLsbD 1 = true → (t.wobj n).cleared.getLsbD 1 = true)) ∧ t.flt = s.flt ∧ t.rfe = s.rfe) ∧
    (f - ref ≤ s.param 4 r.val * 10 → (s.rxDet r.val).nGood < 999 → ∃ t, exec (.nriseEval r f) s = .next t ∧ s.onlyRxDet t r.val ∧ (t.rxDet r.val).rise = f - ref ∧ (t.rxDet r.val).nRun = 0 ∧ (t.rxDet r.val).nStep = k)) ∧
  (∀ (s : State) (g : Fin 64) (p : List (Fin 256 × Int)), s.runs → (∀ n ∈ s.dlWatch g.val, p.find? (fun e => decide (e.1.val = n)) = none) → exec (.donorLossEval g p) s = .next s) ∧
  (∀ (s : State) (g : Fin 64) (p : List (Fin 256 × Int)), s.runs → (∃ n ∈ s.dlWatch g.val, (p.find? (fun e => decide (e.1.val = n))).isSome) → (∀ n ∈ s.dlWatch g.val, ∀ e, p.find? (fun e => decide (e.1.val = n)) = some e → e.2 < s.param 6 (n / 8)) → (s.group g.val).lost = false → ∃ t, exec (.donorLossEval g p) s = .next t ∧
    (49 ≤ (s.group g.val).lowMs → (t.group g.val).lost = true ∧ ∀ n ∈ s.dlVictims g.val, (t.wobj n).cause.getLsbD 2 = true ∧ (t.fsrc (16 * 13 + 6)).status = true) ∧
    ((s.group g.val).lowMs < 49 → t = { s with prot := { s.prot with groups := t.prot.groups } } ∧ (t.group g.val).lost = false ∧ (t.group g.val).lowMs = (s.group g.val).lowMs + 1)) ∧
  (∀ (s : State) (g : Fin 64) (p : List (Fin 256 × Int)) (n : Nat) (e : Fin 256 × Int), s.runs → s.dlWatch g.val = [n] → p.find? (fun e => decide (e.1.val = n)) = some e → (s.group g.val).lost = true → s.param 6 (n / 8) + 30 ≤ e.2 → 999 ≤ (s.group g.val).good.get 0 n →
    ∃ t, exec (.donorLossEval g p) s = .next t ∧ (t.group g.val).lost = false ∧ (∀ m ∈ s.dlVictims g.val, (s.wobj m).cause.getLsbD 2 = true → (t.wobj m).cleared.getLsbD 2 = true) ∧ t = { s with prot := t.prot }) ∧
  (∀ (s : State) (c : Fin 32) (l : List (Fin 256 × Int × Int)), s.runs → s.txMuted c.val = true → ∃ t, exec (.oobeWindow c l) s = .next t ∧ s.onlyNet t c.val ∧ t.net c.val = { s.net c.val with oGood := none }) ∧
  (∀ (s : State) (c : Fin 32) (l : List (Fin 256 × Int × Int)), s.runs → s.txMuted c.val = false → (s.chain (32 + c.val)).st ≠ .txOn ∨ s.onNow (32 + c.val) = false ∨ (∀ e ∈ l, e.1.val ∉ s.txSlots c.val ∨ e.2.2 < -4000) → exec (.oobeWindow c l) s = .next s) ∧
  (∀ (s : State) (c : Fin 32) (l k : List (Fin 256 × Int × Int)) (m : Int), s.runs → s.txMuted c.val = false → (s.chain (32 + c.val)).st = .txOn → s.onNow (32 + c.val) = true → k = l.filter (fun e => decide (e.1.val ∈ s.txSlots c.val ∧ -4000 ≤ e.2.2)) → (∃ e ∈ k, e.2.1 = m) → (∀ e ∈ k, m ≤ e.2.1) → m < s.param 7 c.val * 10 →
    ((s.net c.val).oRun < 49 → ∃ t, exec (.oobeWindow c l) s = .next t ∧ s.onlyNet t c.val ∧ t.net c.val = { s.net c.val with aclr := m, oRun := (s.net c.val).oRun + 1, oGood := none }) ∧
    (49 ≤ (s.net c.val).oRun → (s.net c.val).oSteps < 3 → ∃ u : State, exec (.oobeWindow c l) s = .next (if (s.net c.val).oSteps = 0 then (u.devStep c.val (.delta (-4))).raise 13 7 (.tx c.val) else u.devStep c.val (.delta (-4))) ∧ s.onlyNet u c.val ∧
      u.net c.val = { s.net c.val with aclr := m, oRun := 0, oGood := none, oSteps := (s.net c.val).oSteps + 1, oHold := true }) ∧
    (49 ≤ (s.net c.val).oRun → 3 ≤ (s.net c.val).oSteps → ∃ t, exec (.oobeWindow c l) s = .next t ∧ (t.wobj (objChain c.val)).cause.getLsbD 3 = true ∧ t.rfe = s.rfe)) ∧
  (∀ (s : State) (c : Fin 32) (k l : Nat), s.runs → (s.chain (32 + c.val)).sched = k + 1 → k < 4 → (s.sched k).lossAt = some l → l < s.now → ((s.wobj (objChain c.val)).entries.get 0 5 = 0 ∨ (s.wobj (objChain c.val)).entries.get 0 5 < l) →
    (s.onAt (32 + c.val) ((s.now : Int) - 1) ≠ s.onAt (32 + c.val) s.now ∨ l + tms ≤ s.now) → ∃ t, exec (.tddSyncLossEntry c) s = .next t ∧ (t.wobj (objChain c.val)).cause.getLsbD 5 = true ∧ (t.wobj (objChain c.val)).entries.get 0 5 = s.now ∧ t.rfe = s.rfe) ∧
  (∀ (s : State) (c : Fin 32), s.runs → (s.chain (32 + c.val)).sched = 0 ∨ (∃ k, (s.chain (32 + c.val)).sched = k + 1 ∧ (4 ≤ k ∨ (s.sched k).lossAt = none ∨ (∀ l, (s.sched k).lossAt = some l → s.now ≤ l ∨ ((s.wobj (objChain c.val)).entries.get 0 5 ≠ 0 ∧ l ≤ (s.wobj (objChain c.val)).entries.get 0 5)))) → exec (.tddSyncLossEntry c) s = .next s) ∧
  (∀ (s : State) (k : Fin 5) (x : Int), s.runs → ∃ t, exec (.tempSample k x) s = .next t ∧ t.prot.temps = s.prot.temps.set 0 k.val x ∧ t.rfe = s.rfe ∧
    (s.param 8 0 * 10 ≤ x → (∀ e ∈ s.prot.temps, e.2 < s.param 8 0 * 10) → (t.fsrc (16 * 13 + 11)).status = true) ∧
    (1100 ≤ x → x < s.param 8 0 * 10 → ((s.wobj (sensorObj k.val)).cause.getLsbD 7 = false ∨ (s.wobj (sensorObj k.val)).cleared.getLsbD 7 = true) → (t.wobj (sensorObj k.val)).cause.getLsbD 7 = true ∧ (t.fsrc (16 * 13 + 12)).status = true) ∧
    (x ≤ 1000 → x < s.param 8 0 * 10 → t.flt = s.flt ∧ ((s.wobj (sensorObj k.val)).cause.getLsbD 7 = true → (t.wobj (sensorObj k.val)).cleared.getLsbD 7 = true) ∧ t = { s with prot := t.prot }))

/-- Leaving WINTER (R172 to R174, R190, R192 to R200): a timed cause whose condition is over is marked cleared and stays in PW_CAUSE; the proof of a release marks it passed, or ends its descriptors WINTER_ACTIVE with NET_PROOF on each chain that failed; at the next chain boundary a passed release that is still allowed clears every cause of the object and ends its descriptors, and one no longer allowed ends them and clears nothing; the read-back of every 900 s enters NET_PROOF on each chain whose nets do not follow; a bridge ends at its boundary. -/
def Obligations.LeavingWinter : Prop :=
  (∀ (s : State) (o : WScope) (c : Fin 16), s.runs → s.causeOver (scopeOf o) c.val = true → (s.wobj (scopeOf o)).cause.getLsbD c.val = true → ∃ t, exec (.causeClearTimer o c) s = .next t ∧ s.onlyWobj t (scopeOf o) ∧
    t.wobj (scopeOf o) = { s.wobj (scopeOf o) with cleared := (s.wobj (scopeOf o)).cleared ||| BitVec.twoPow 16 c.val }) ∧
  (∀ (s : State) (o : WScope) (c : Fin 16), s.runs → s.causeOver (scopeOf o) c.val = false ∨ (s.wobj (scopeOf o)).cause.getLsbD c.val = false → exec (.causeClearTimer o c) s = .next s) ∧
  (∀ (s : State) (o : WScope) (a b : Word), s.runs → (∀ r ∈ (s.wobj (scopeOf o)).release, r.passed = true ∨ s.now ≤ r.since) → exec (.releaseProofEnd o a b) s = .next s) ∧
  (∀ (s : State) (o : WScope) (a b : Word) (r : Release), s.runs → (s.wobj (scopeOf o)).release = some r → r.passed = false → r.since < s.now → ∃ t, exec (.releaseProofEnd o a b) s = .next t ∧
    t.rfe = s.rfe ∧
    (∀ c ∈ objTx (scopeOf o), a.getLsbD c = false ∨ b.getLsbD c = false → (t.wobj (objChain c)).cause.getLsbD 13 = true ∧ (t.fsrc (16 * 13 + 13)).status = true) ∧
    ((256 ≤ scopeOf o → ∀ c ∈ objTx (scopeOf o), a.getLsbD c = true ∧ b.getLsbD c = true) → (scopeOf o < 256 → a.getLsbD 0 = true ∧ b.getLsbD 0 = true) →
      (t.wobj (scopeOf o)).release = some { r with passed := true, since := s.now } ∧ (t.wobj (scopeOf o)).proofOk = true ∧ (∀ c ∈ objTx (scopeOf o), (t.net c).proofA = true ∧ (t.net c).proofB = true ∧ (t.net c).proofAt = some s.now) ∧ t.flt = s.flt ∧ t.hif = s.hif) ∧
    ((scopeOf o < 256 ∧ (a.getLsbD 0 = false ∨ b.getLsbD 0 = false)) ∨ (256 ≤ scopeOf o ∧ ∃ c ∈ objTx (scopeOf o), a.getLsbD c = false ∨ b.getLsbD c = false) →
      (t.wobj (scopeOf o)).release = none ∧ (t.wobj (scopeOf o)).cause = ((t.wobj (scopeOf o)).cause ||| (s.wobj (scopeOf o)).cause) ∧ ∀ q ∈ t.hif.outstanding, isRelease (scopeOf o) q = false)) ∧
  (∀ (s : State) (o : WScope), s.runs → (∀ r ∈ (s.wobj (scopeOf o)).release, r.passed = false ∨ s.now ≤ r.since) ∨ s.onSmp chainBlk = false → exec (.releaseCommit o) s = .next s) ∧
  (∀ (s : State) (o : WScope) (r : Release) (ovr : Bool), s.runs → (s.wobj (scopeOf o)).release = some r → r.passed = true → r.since < s.now → s.onSmp chainBlk = true → s.recd.buf.length < 1024 →
    (ovr = true ↔ ∃ p ∈ s.hif.outstanding, isRelease (scopeOf o) p = true ∧ ∃ x y, p.desc = .winterRelease x y 1) → ∃ t, exec (.releaseCommit o) s = .next t ∧
    (t.wobj (scopeOf o)).release = none ∧ (∀ q ∈ t.hif.outstanding, isRelease (scopeOf o) q = false) ∧ (∀ j, j ≠ scopeOf o → t.wobj j = s.wobj j) ∧ t.flt = s.flt ∧ t.cx = s.cx ∧
    (s.releasable (scopeOf o) ovr = true → (t.wobj (scopeOf o)).cause = 0 ∧ (t.wobj (scopeOf o)).cleared = 0) ∧ (s.releasable (scopeOf o) ovr = false → (t.wobj (scopeOf o)).cause = (s.wobj (scopeOf o)).cause ∧ t.rfe = s.rfe ∧ t.gcl = s.gcl)) ∧
  (∀ (s : State) (f c : Word), s.runs → s.now < s.prot.readbackAt + 899 * tsec → exec (.netReadback f c) s = .next s) ∧
  (∀ (s : State) (f c : Word), s.runs → s.prot.readbackAt + 899 * tsec ≤ s.now → ∃ t, exec (.netReadback f c) s = .next t ∧ t.prot.readbackAt = s.now ∧ t.rfe = s.rfe ∧
    ∀ n, n < 32 → (f.getLsbD n = false → (t.wobj (objChain n)).cause.getLsbD 13 = true ∧ (t.fsrc (16 * 13 + 13)).status = true) ∧ (c.getLsbD n = false → (t.fsrc (16 * 13)).status = true)) ∧
  (∀ (s : State) (f c : Word), s.runs → s.prot.readbackAt + 899 * tsec ≤ s.now → (∀ n, n < 32 → f.getLsbD n = true ∧ c.getLsbD n = true) → exec (.netReadback f c) s = .next { s with prot := { s.prot with readbackAt := s.now } }) ∧
  (∀ (s : State) (c : Fin 32) (b : Nat), s.runs → (s.net c.val).bridge = some b → b ≤ s.now → ∃ t, exec (.bridgeReopen c) s = .next t ∧ s.onlyNet t c.val ∧ t.net c.val = { s.net c.val with bridge := none }) ∧
  (∀ (s : State) (c : Fin 32), s.runs → (∀ b ∈ (s.net c.val).bridge, s.now < b) → exec (.bridgeReopen c) s = .next s)

/-- Authorisation (R187 to R189, R379): the check of a held slot takes its GROUP from the entry that covers its passband and marks UNAUTH cleared, or where none covers it takes no GROUP, raises UNAUTH and enters the slot's WINTER, once while that cause stands; the gate of every placed stream follows its own check; the end of an entry's store write puts its five words into the store and ends the descriptor. -/
def Obligations.AuthorisationSteps : Prop :=
  (∀ (s : State) (n : Fin 256) (c e : Nat), s.runs → s.flt.badCompl = [] → (∀ d, d < 32 → s.placements d = []) → (s.slot n.val).st ≠ .free → (s.slot n.val).txDest = some c → s.authPass c (s.slot n.val).txfreq (s.slot n.val).bw = some e → ∃ t, exec (.authCheck n) s = .next t ∧
    t.slot n.val = { s.slot n.val with group := some (s.authGroup e) } ∧ (∀ j, j ≠ n.val → t.slot j = s.slot j) ∧ ((s.wobj n.val).cause.getLsbD 6 = true → (t.wobj n.val).cleared.getLsbD 6 = true) ∧ (∀ j, (t.wobj j).cause = (s.wobj j).cause) ∧ t = { s with slots := t.slots, prot := t.prot }) ∧
  (∀ (s : State) (n : Fin 256) (c : Nat), s.runs → s.flt.badCompl = [] → (∀ d, d < 32 → s.placements d = []) → (s.slot n.val).st ≠ .free → (s.slot n.val).txDest = some c → s.authPass c (s.slot n.val).txfreq (s.slot n.val).bw = none → ∃ t, exec (.authCheck n) s = .next t ∧
    ((s.wobj n.val).cause.getLsbD 6 = true → (s.wobj n.val).cleared.getLsbD 6 = false → s.onlySlot t n.val ∧ t.slot n.val = { s.slot n.val with group := none }) ∧
    ((s.wobj n.val).cause.getLsbD 6 = false ∨ (s.wobj n.val).cleared.getLsbD 6 = true → (t.wobj n.val).cause.getLsbD 6 = true ∧ (t.fsrc (16 * 13 + 10)).status = true ∧ s.alarmed t)) ∧
  (∀ (s : State) (n : Fin 256), s.runs → s.flt.badCompl = [] → (∀ d, d < 32 → s.placements d = []) → (s.slot n.val).st = .free → exec (.authCheck n) s = .next s) ∧
  (∀ (s : State) (n : Fin 256) (d k : Nat), s.runs → s.flt.badCompl = [] → d < 32 → k ∈ s.placements d → ∃ t, exec (.authCheck n) s = .next t ∧ (t.strm k).gated = (s.authPass (s.strm k).txch (s.strm k).txfreq (s.strm k).bw).isNone ∧
    ((s.strm k).gated = false → s.authPass (s.strm k).txch (s.strm k).txfreq (s.strm k).bw = none → (t.fsrc (16 * 15 + 7)).status = true)) ∧
  (∀ (s : State) (e : Fin 64) (p : Pend) (b : Byte) (w0 w1 w2 w3 w4 : Word), s.runs → (s.pends (isAuthWrite e.val)).head? = some p → p.desc = .authorisationWrite b w0 w1 w2 w3 w4 → ∃ t, exec (.authStoreEnd e) s = .next t ∧
    (∀ i, i < 5 → t.recd.store.auth.get (cword 0) (5 * e.val + i) = [w0, w1, w2, w3, w4].getD i 0) ∧ (∀ j, j / 5 ≠ e.val → t.recd.store.auth.get (cword 0) j = s.recd.store.auth.get (cword 0) j) ∧ t.prot = s.prot ∧ (∀ q ∈ t.hif.outstanding, q.id ≠ p.id)) ∧
  (∀ (s : State) (e : Fin 64), s.runs → s.pends (isAuthWrite e.val) = [] → exec (.authStoreEnd e) s = .next s)

/-- The device's checks of itself (R317, R318, R321, R324, R325, R327 to R329): a grace timer that ends lifts its bit to level 3, records it and enters WINTER in its scopes; the scrubber counts and raises a word with one wrong symbol and poisons one with two; a pass over 1 s raises SCRUB_LATE; a heartbeat is noted unless suppressed, and one missing for 1 ms raises SUP_STALL once; the alive output toggles while every engine's heartbeat stands and stops, counted, when one does not. -/
def Obligations.SelfChecks : Prop :=
  (∀ (s : State) (b n : Fin 16) (x : Nat), s.runs → (s.fsrc (16 * b.val + n.val)).grace = some x → x ≤ s.now → ∃ u : State, u = s.checkCopies b.val ∧ ((u.fsrc (16 * b.val + n.val)).grace ≠ some x → exec (.graceExpiry b n) s = .next u) ∧
    ((u.fsrc (16 * b.val + n.val)).grace = some x → ∃ v : State, u.onlyFsrc v (16 * b.val + n.val) ∧ v.fsrc (16 * b.val + n.val) = { u.fsrc (16 * b.val + n.val) with level := 3, grace := none } ∧ ∃ t, exec (.graceExpiry b n) s = .next t ∧ v.alarmed t ∧ v.recd.nextSeq ≤ t.recd.nextSeq ∧
      (ownWinter (16 * b.val + n.val) = false → v.recd.buf.length < 1024 → ∀ f ∈ (v.fsrc (16 * b.val + n.val)).scopes, ∀ i, (f = .device ∧ i = objDevice) ∨ (f = .slot i) ∨ (∃ c, f = .tx c ∧ i = objChain c) ∨ (∃ k, f = .tile k ∧ i = objTile k) → (t.wobj i).cause.getLsbD 8 = true))) ∧
  (∀ (s : State) (b n : Fin 16), s.runs → (∀ x ∈ (s.fsrc (16 * b.val + n.val)).grace, s.now < x) → exec (.graceExpiry b n) s = .next s) ∧
  (∀ (s : State) (a : Word), s.runs → s.symHolder a.toNat = none ∨ (∀ e ∈ s.flt.flipped, e.1 ≠ a.toNat) → exec (.scrubCheck (.memWord a)) s = .next s ∧ exec (.symbolError a) s = .next s) ∧
  (∀ (s : State) (a : Word) (b n m : Nat) (fs : List FScope), s.runs → s.symHolder a.toNat = some (b, n, m, fs) → (s.flt.flipped.filter (fun e => decide (e.1 = a.toNat))).length = 1 → ∃ u v : State, exec (.scrubCheck (.memWord a)) s = .next (u.raiseIn b m fs true) ∧ exec (.symbolError a) s = .next (v.raiseIn b m fs true) ∧
    v = { s with flt := { s.flt with flipped := s.flt.flipped.filter (fun e => decide (e.1 ≠ a.toNat)) } } ∧ u = { v with flt := { v.flt with corr := if s.flt.corr = 0xFFFFFFFF then s.flt.corr else s.flt.corr + 1 } }) ∧
  (∀ (s : State) (a : Word) (b n m : Nat) (fs : List FScope), s.runs → s.symHolder a.toNat = some (b, n, m, fs) → (s.flt.flipped.filter (fun e => decide (e.1 = a.toNat))).length = 2 → ∃ u v : State, exec (.scrubCheck (.memWord a)) s = .next ((u.symLost a.toNat).raiseIn b n fs true) ∧ exec (.symbolError a) s = .next ((v.symLost a.toNat).raiseIn b n fs true) ∧
    v = { s with flt := { s.flt with flipped := s.flt.flipped.filter (fun e => decide (e.1 ≠ a.toNat)), poisoned := if s.flt.poisoned.contains a.toNat then s.flt.poisoned else s.flt.poisoned ++ [a.toNat] } } ∧ u = { v with flt := { v.flt with unc := if s.flt.unc = 0xFFFFFFFF then s.flt.unc else s.flt.unc + 1 } }) ∧
  (∀ (s : State) (b : Fin 16) (a : Word), s.runs → exec (.scrubCheck (.faultRegs b)) s = .next (s.checkCopies b.val) ∧ exec (.scrubCheck .policy) s = .next s.checkPolicy ∧ (a.toNat ∉ s.flt.badCompl → exec (.scrubCheck (.compl a)) s = .next s)) ∧
  (∀ (s : State) (ms : Half), s.runs → ∃ u : State, exec (.scrubPassEnd ms) s = .next (if 1000 < ms.toNat then u.raise 3 3 .device else u) ∧ u = { s with flt := { s.flt with passes := s.flt.passes + 1, passMs := ms } } ∧ ((u.raise 3 3 .device).fsrc (16 * 3 + 3)).status = true) ∧
  (∀ (s : State) (n : Fin 4), s.runs → (s.now < s.flt.hbOff.get 0 n.val → exec (.supervisorHeartbeat n) s = .next s) ∧ (s.flt.hbOff.get 0 n.val ≤ s.now → ∃ t, exec (.supervisorHeartbeat n) s = .next t ∧
      t = { s with flt := { s.flt with hbRun := true, hb := t.flt.hb, hbMiss := t.flt.hbMiss } } ∧ t.flt.hb.get 0 n.val = s.now ∧ (∀ j, j ≠ n.val → t.flt.hb.get 0 j = s.flt.hb.get 0 j) ∧ (∀ j, t.flt.hbMiss.getLsbD j = (s.flt.hbMiss.getLsbD j && decide (j ≠ n.val))))) ∧
  (∀ (s : State) (n : Fin 4), s.runs → s.flt.hbRun = true → s.flt.hbMiss.getLsbD n.val = false → s.flt.hb.get 0 n.val + tms ≤ s.now → ∃ t, exec (.supStall n) s = .next t ∧ (t.fsrc (16 * 3 + 2)).status = true ∧ t.flt.hbMiss.getLsbD n.val = true ∧ t.flt.stall = true ∧ t.rfe = s.rfe) ∧
  (∀ (s : State) (n : Fin 4), s.runs → s.flt.hbRun = false ∨ s.flt.hbMiss.getLsbD n.val = true ∨ s.now < s.flt.hb.get 0 n.val + tms → exec (.supStall n) s = .next s) ∧
  (∀ (s : State), s.runs → (s.now < s.flt.halfAt + 495 * tus → exec .aliveHalfPeriod s = .next s) ∧ (s.flt.halfAt + 495 * tus ≤ s.now → ∃ t, exec .aliveHalfPeriod s = .next t ∧ t.flt.halfAt = s.now ∧ t = { s with flt := t.flt } ∧ t.flt.srcs = s.flt.srcs ∧
    ((s.wobj objDevice).cause = 0 → s.flt.stall = false → t.flt.toggling = true ∧ t.flt.alive = (if s.flt.toggling then !s.flt.alive else true) ∧ t.flt.stops = s.flt.stops) ∧
    ((s.wobj objDevice).cause ≠ 0 ∨ s.flt.stall = true → t.flt.toggling = false ∧ t.flt.alive = false ∧ t.flt.stops = if s.flt.toggling then satInc 0xFFFF s.flt.stops else s.flt.stops)))

/-- Register instructions (R231 to R233, Table 8-4): the instruction at an engine's PC writes its result to GD, where it is not G0, moves PC to the next word and takes its instruction times; no other register, no memory and no other part of the device changes. LG2 and EX2 round exactly; the one exact half of EX2 is free between 0 and 1 (log 15). -/
def Obligations.RegisterInstructions : Prop :=
  (∀ (s : State) (e : Fin 128) (t : Nat) (gd ga gb : Reg) (a b : Word), s.runs → a = s.eReg e.val ga → b = s.eReg e.val gb →
    (s.ukAt e.val = some (t, .r .add gd ga gb) → ∃ u, exec (.add e gd ga gb) s = .next u ∧ s.WroteG e.val gd (a + b) 1 u) ∧
    (s.ukAt e.val = some (t, .r .sub gd ga gb) → ∃ u, exec (.sub e gd ga gb) s = .next u ∧ s.WroteG e.val gd (a - b) 1 u) ∧
    (s.ukAt e.val = some (t, .r .and_ gd ga gb) → ∃ u, exec (.and_ e gd ga gb) s = .next u ∧ s.WroteG e.val gd (a &&& b) 1 u) ∧
    (s.ukAt e.val = some (t, .r .or_ gd ga gb) → ∃ u, exec (.or_ e gd ga gb) s = .next u ∧ s.WroteG e.val gd (a ||| b) 1 u) ∧
    (s.ukAt e.val = some (t, .r .xor_ gd ga gb) → ∃ u, exec (.xor_ e gd ga gb) s = .next u ∧ s.WroteG e.val gd (a ^^^ b) 1 u) ∧
    (s.ukAt e.val = some (t, .r .sll gd ga gb) → ∃ u, exec (.sll e gd ga gb) s = .next u ∧ s.WroteG e.val gd (a <<< (b.toNat % 32)) 1 u) ∧
    (s.ukAt e.val = some (t, .r .srl gd ga gb) → ∃ u, exec (.srl e gd ga gb) s = .next u ∧ s.WroteG e.val gd (a >>> (b.toNat % 32)) 1 u) ∧
    (s.ukAt e.val = some (t, .r .sra gd ga gb) → ∃ u, exec (.sra e gd ga gb) s = .next u ∧ s.WroteG e.val gd (a.sshiftRight (b.toNat % 32)) 1 u) ∧
    (s.ukAt e.val = some (t, .r .mul gd ga gb) → ∃ u, exec (.mul e gd ga gb) s = .next u ∧ s.WroteG e.val gd (a * b) 2 u) ∧
    (s.ukAt e.val = some (t, .r .mulh gd ga gb) → ∃ u, exec (.mulh e gd ga gb) s = .next u ∧ s.WroteG e.val gd (BitVec.ofInt 32 (a.toInt * b.toInt / 2 ^ 32)) 2 u) ∧
    (s.ukAt e.val = some (t, .r .slt gd ga gb) → ∃ u, exec (.slt e gd ga gb) s = .next u ∧ s.WroteG e.val gd (if a.toInt < b.toInt then 1 else 0) 1 u) ∧
    (s.ukAt e.val = some (t, .r .sltu gd ga gb) → ∃ u, exec (.sltu e gd ga gb) s = .next u ∧ s.WroteG e.val gd (if a.toNat < b.toNat then 1 else 0) 1 u) ∧
    (s.ukAt e.val = some (t, .r .min_ gd ga gb) → ∃ u, exec (.min_ e gd ga gb) s = .next u ∧ s.WroteG e.val gd (if a.toInt ≤ b.toInt then a else b) 1 u) ∧
    (s.ukAt e.val = some (t, .r .max_ gd ga gb) → ∃ u, exec (.max_ e gd ga gb) s = .next u ∧ s.WroteG e.val gd (if a.toInt ≤ b.toInt then b else a) 1 u) ∧
    (s.ukAt e.val = some (t, .r .adds gd ga gb) → ∃ u, exec (.adds e gd ga gb) s = .next u ∧ s.WroteG e.val gd (BitVec.ofInt 32 (max (-2147483648) (min 2147483647 (a.toInt + b.toInt)))) 1 u) ∧
    (s.ukAt e.val = some (t, .r .subs gd ga gb) → ∃ u, exec (.subs e gd ga gb) s = .next u ∧ s.WroteG e.val gd (BitVec.ofInt 32 (max (-2147483648) (min 2147483647 (a.toInt - b.toInt)))) 1 u)) ∧
  (∀ (s : State) (e : Fin 128) (t : Nat) (gd ga : Reg) (a : Word), s.runs → a = s.eReg e.val ga →
    (s.ukAt e.val = some (t, .r1 .clz gd ga) → ∃ (u : State) (n : Nat), exec (.clz e gd ga) s = .next u ∧ s.WroteG e.val gd (BitVec.ofNat 32 n) 1 u ∧ n ≤ 32 ∧ a.toNat < 2 ^ (32 - n) ∧ (n < 32 → 2 ^ (31 - n) ≤ a.toNat)) ∧
    (s.ukAt e.val = some (t, .r1 .lg2 gd ga) → a = 0 → ∃ u, exec (.lg2 e gd ga) s = .next u ∧ s.WroteG e.val gd 0x80000000 8 u) ∧
    (s.ukAt e.val = some (t, .r1 .lg2 gd ga) → a ≠ 0 → ∃ (u : State) (n : Nat), exec (.lg2 e gd ga) s = .next u ∧ s.WroteG e.val gd (BitVec.ofNat 32 n) 8 u ∧
      2 ^ (2 * n) ≤ 2 * a.toNat ^ 131072 ∧ a.toNat ^ 131072 < 2 ^ (2 * n + 1)) ∧
    (s.ukAt e.val = some (t, .r1 .ex2 gd ga) → a.toInt < -65536 → ∃ u, exec (.ex2 e gd ga) s = .next u ∧ s.WroteG e.val gd 0 8 u) ∧
    (s.ukAt e.val = some (t, .r1 .ex2 gd ga) → a.toInt = -65536 → ∃ u, exec (.ex2 e gd ga) s = .next u ∧ (s.WroteG e.val gd 0 8 u ∨ s.WroteG e.val gd 1 8 u)) ∧
    (∀ x : Nat, s.ukAt e.val = some (t, .r1 .ex2 gd ga) → a.toInt + 65536 = x → 0 < x → x < 33 * 65536 → ∃ (u : State) (n : Nat), exec (.ex2 e gd ga) s = .next u ∧
      s.WroteG e.val gd (BitVec.ofNat 32 (min 0xFFFFFFFF n)) 8 u ∧ 1 ≤ n ∧ (2 * n - 1) ^ 65536 ≤ 2 ^ x ∧ 2 ^ x < (2 * n + 1) ^ 65536) ∧
    (s.ukAt e.val = some (t, .r1 .ex2 gd ga) → 32 * 65536 ≤ a.toInt → ∃ u, exec (.ex2 e gd ga) s = .next u ∧ s.WroteG e.val gd 0xFFFFFFFF 8 u)) ∧
  (∀ (s : State) (e : Fin 128) (t : Nat) (gd ga : Reg) (imm : BitVec 18) (sh : BitVec 5) (a : Word), s.runs → a = s.eReg e.val ga →
    (s.ukAt e.val = some (t, .i .addi gd ga imm) → ∃ u, exec (.addi e gd ga imm) s = .next u ∧ s.WroteG e.val gd (a + imm.signExtend 32) 1 u) ∧
    (s.ukAt e.val = some (t, .i .andi gd ga imm) → ∃ u, exec (.andi e gd ga imm) s = .next u ∧ s.WroteG e.val gd (a &&& imm.setWidth 32) 1 u) ∧
    (s.ukAt e.val = some (t, .i .ori gd ga imm) → ∃ u, exec (.ori e gd ga imm) s = .next u ∧ s.WroteG e.val gd (a ||| imm.setWidth 32) 1 u) ∧
    (s.ukAt e.val = some (t, .i .xori gd ga imm) → ∃ u, exec (.xori e gd ga imm) s = .next u ∧ s.WroteG e.val gd (a ^^^ imm.setWidth 32) 1 u) ∧
    (s.ukAt e.val = some (t, .i .slti gd ga imm) → ∃ u, exec (.slti e gd ga imm) s = .next u ∧ s.WroteG e.val gd (if a.toInt < imm.toInt then 1 else 0) 1 u) ∧
    (s.ukAt e.val = some (t, .lui gd imm) → ∃ u, exec (.lui e gd imm) s = .next u ∧ s.WroteG e.val gd (imm.setWidth 32 <<< 14) 1 u) ∧
    (s.ukAt e.val = some (t, .sh .slli gd ga sh) → ∃ u, exec (.slli e gd ga sh) s = .next u ∧ s.WroteG e.val gd (a <<< sh.toNat) 1 u) ∧
    (s.ukAt e.val = some (t, .sh .srli gd ga sh) → ∃ u, exec (.srli e gd ga sh) s = .next u ∧ s.WroteG e.val gd (a >>> sh.toNat) 1 u) ∧
    (s.ukAt e.val = some (t, .sh .srai gd ga sh) → ∃ u, exec (.srai e gd ga sh) s = .next u ∧ s.WroteG e.val gd (a.sshiftRight sh.toNat) 1 u))

/-- Data memory (R234, R236): a misaligned access traps ALIGN, one that ends above 0x7FFF traps DADDR; the others load the little-endian bytes, LDH with its sign, or store the bytes of GS; VLD takes the exponent from bits [31:26] of the first word and each mantissa from bits [19:0] of its word, and VST stores sixteen words with one exponent. -/
def Obligations.MemoryInstructions : Prop :=
  (∀ (s : State) (e : Fin 128) (t a : Nat) (r ga : Reg) (imm : BitVec 18), s.runs → a = (s.eReg e.val ga + imm.signExtend 32).toNat →
    (s.ukAt e.val = some (t, .i .ldw r ga imm) → a % 4 = 0 → a + 4 ≤ 0x8000 → ∃ u, exec (.ldw e r ga imm) s = .next u ∧
      s.WroteG e.val r ((s.eng e.val).byte (a + 3) ++ (s.eng e.val).byte (a + 2) ++ (s.eng e.val).byte (a + 1) ++ (s.eng e.val).byte a) 1 u) ∧
    (s.ukAt e.val = some (t, .i .ldh r ga imm) → a % 2 = 0 → a + 2 ≤ 0x8000 → ∃ u, exec (.ldh e r ga imm) s = .next u ∧
      s.WroteG e.val r (((s.eng e.val).byte (a + 1) ++ (s.eng e.val).byte a).signExtend 32) 1 u) ∧
    (s.ukAt e.val = some (t, .i .stw r ga imm) → a % 4 = 0 → a + 4 ≤ 0x8000 → ∃ u, exec (.stw e r ga imm) s = .next u ∧ s.WroteM e.val a 4 (s.eReg e.val r).toNat 1 u) ∧
    (s.ukAt e.val = some (t, .i .sth r ga imm) → a % 2 = 0 → a + 2 ≤ 0x8000 → ∃ u, exec (.sth e r ga imm) s = .next u ∧ s.WroteM e.val a 2 (s.eReg e.val r).toNat 1 u) ∧
    (a % 4 ≠ 0 → (s.ukAt e.val = some (t, .i .ldw r ga imm) → exec (.ldw e r ga imm) s = .next (s.takeTrap e.val t .align)) ∧
      (s.ukAt e.val = some (t, .i .stw r ga imm) → exec (.stw e r ga imm) s = .next (s.takeTrap e.val t .align))) ∧
    (a % 2 ≠ 0 → (s.ukAt e.val = some (t, .i .ldh r ga imm) → exec (.ldh e r ga imm) s = .next (s.takeTrap e.val t .align)) ∧
      (s.ukAt e.val = some (t, .i .sth r ga imm) → exec (.sth e r ga imm) s = .next (s.takeTrap e.val t .align))) ∧
    (0x8000 ≤ a → a % 4 = 0 → (s.ukAt e.val = some (t, .i .ldw r ga imm) → exec (.ldw e r ga imm) s = .next (s.takeTrap e.val t .daddr)) ∧
      (s.ukAt e.val = some (t, .i .stw r ga imm) → exec (.stw e r ga imm) s = .next (s.takeTrap e.val t .daddr))) ∧
    (0x8000 ≤ a → a % 2 = 0 → (s.ukAt e.val = some (t, .i .ldh r ga imm) → exec (.ldh e r ga imm) s = .next (s.takeTrap e.val t .daddr)) ∧
      (s.ukAt e.val = some (t, .i .sth r ga imm) → exec (.sth e r ga imm) s = .next (s.takeTrap e.val t .daddr)))) ∧
  (∀ (s : State) (e : Fin 128) (t a : Nat) (v : VReg) (ga : Reg) (imm : BitVec 19), s.runs → a = (s.eReg e.val ga + imm.signExtend 32).toNat →
    (s.ukAt e.val = some (t, .vld v ga imm) → a % 64 = 0 → a + 64 ≤ 0x8000 → ∃ (u : State) (b : VBlk), exec (.vld e v ga imm) s = .next u ∧ s.WroteV e.val v b false 4 u ∧
      b.e = ((s.eng e.val).byte (a + 3)).toNat / 4 ∧ b.m.length = 16 ∧
      ∀ j, j < 16 → b.m.getD j 0 = (((s.eng e.val).byte (a + 4 * j + 2) ++ (s.eng e.val).byte (a + 4 * j + 1) ++ (s.eng e.val).byte (a + 4 * j)).setWidth 20).toInt) ∧
    (s.ukAt e.val = some (t, .vst v ga imm) → a % 64 = 0 → a + 64 ≤ 0x8000 → (s.eVec e.val v).e < 64 → ∃ u, exec (.vst e v ga imm) s = .next u ∧ s.onlyEng u e.val ∧
      u.eng e.val = { s.eng e.val with dmem := (u.eng e.val).dmem, pc := (s.eng e.val).pc + 4, ran := (s.eng e.val).ran + 4 } ∧
      (∀ j, j < a ∨ a + 64 ≤ j → (u.eng e.val).byte j = (s.eng e.val).byte j) ∧
      ∀ j, j < 16 → (u.eng e.val).byte (a + 4 * j + 3) ++ (u.eng e.val).byte (a + 4 * j + 2) ++ (u.eng e.val).byte (a + 4 * j + 1) ++ (u.eng e.val).byte (a + 4 * j) =
        BitVec.ofNat 6 (s.eVec e.val v).e ++ (0 : BitVec 6) ++ BitVec.ofInt 20 ((s.eVec e.val v).m.getD j 0)) ∧
    (a % 64 ≠ 0 → (s.ukAt e.val = some (t, .vld v ga imm) → exec (.vld e v ga imm) s = .next (s.takeTrap e.val t .align)) ∧
      (s.ukAt e.val = some (t, .vst v ga imm) → exec (.vst e v ga imm) s = .next (s.takeTrap e.val t .align))) ∧
    (0x8000 ≤ a → a % 64 = 0 → (s.ukAt e.val = some (t, .vld v ga imm) → exec (.vld e v ga imm) s = .next (s.takeTrap e.val t .daddr)) ∧
      (s.ukAt e.val = some (t, .vst v ga imm) → exec (.vst e v ga imm) s = .next (s.takeTrap e.val t .daddr))))

/-- Vector instructions (R235): each forms its exact lanes and normalises them, VSAT is set by a saturation and stays, VSHX moves the exponent alone, VEXT rounds a scaled lane to nearest, where an exact half is free (log 15), and VINS replaces one lane; the complex products write an even register and the next one. -/
def Obligations.VectorInstructions : Prop :=
  (∀ (s : State) (e : Fin 128) (t : Nat) (vd va vb : VReg) (a b : VBlk), s.runs → a = s.eVec e.val va → b = s.eVec e.val vb →
    (s.ukAt e.val = some (t, .v .vadd vd va vb) → ∃ u r sat, exec (.vadd e vd va vb) s = .next u ∧ s.WroteV e.val vd r sat 4 u ∧ Normed 0 ((List.range 16).map (fun j => a.lane j + b.lane j)) r sat) ∧
    (s.ukAt e.val = some (t, .v .vsub vd va vb) → ∃ u r sat, exec (.vsub e vd va vb) s = .next u ∧ s.WroteV e.val vd r sat 4 u ∧ Normed 0 ((List.range 16).map (fun j => a.lane j - b.lane j)) r sat) ∧
    (s.ukAt e.val = some (t, .v .vmul vd va vb) → ∃ u r sat, exec (.vmul e vd va vb) s = .next u ∧ s.WroteV e.val vd r sat 4 u ∧ Normed 51 ((List.range 16).map (fun j => a.lane j * b.lane j)) r sat) ∧
    (s.ukAt e.val = some (t, .v .vdot vd va vb) → ∃ u r sat, exec (.vdot e vd va vb) s = .next u ∧ s.WroteV e.val vd r sat 8 u ∧
      Normed 51 (((List.range 16).map (fun j => a.lane j * b.lane j)).sum :: List.replicate 15 0) r sat) ∧
    (s.ukAt e.val = some (t, .v1 .vener vd va) → ∃ u r sat, exec (.vener e vd va) s = .next u ∧ s.WroteV e.val vd r sat 8 u ∧
      Normed 51 (((List.range 16).map (fun j => a.lane j * a.lane j)).sum :: List.replicate 15 0) r sat) ∧
    (s.ukAt e.val = some (t, .v1 .vmov vd va) → ∃ u, exec (.vmov e vd va) s = .next u ∧ s.WroteV e.val vd a false 4 u)) ∧
  (∀ (s : State) (e : Fin 128) (t : Nat) (vd va vb : VReg) (ai aq bi bq : VBlk), s.runs → ai = s.eVec e.val va → aq = s.eVec e.val (va + 1) → bi = s.eVec e.val vb → bq = s.eVec e.val (vb + 1) →
    (s.ukAt e.val = some (t, .v .vcmul vd va vb) → ∃ (u : State) (x y : VBlk) (p q : Bool), exec (.vcmul e vd va vb) s = .next u ∧ s.onlyEng u e.val ∧
      u.eng e.val = { s.eng e.val with v := (u.eng e.val).v, vsat := (s.eng e.val).vsat || p || q, pc := (s.eng e.val).pc + 4, ran := (s.eng e.val).ran + 8 } ∧
      (∀ r : VReg, u.eVec e.val r = if r = vd + 1 then y else if r = vd then x else s.eVec e.val r) ∧
      Normed 51 ((List.range 16).map (fun j => ai.lane j * bi.lane j - aq.lane j * bq.lane j)) x p ∧ Normed 51 ((List.range 16).map (fun j => aq.lane j * bi.lane j + ai.lane j * bq.lane j)) y q) ∧
    (s.ukAt e.val = some (t, .v .vcmulj vd va vb) → ∃ (u : State) (x y : VBlk) (p q : Bool), exec (.vcmulj e vd va vb) s = .next u ∧ s.onlyEng u e.val ∧
      u.eng e.val = { s.eng e.val with v := (u.eng e.val).v, vsat := (s.eng e.val).vsat || p || q, pc := (s.eng e.val).pc + 4, ran := (s.eng e.val).ran + 8 } ∧
      (∀ r : VReg, u.eVec e.val r = if r = vd + 1 then y else if r = vd then x else s.eVec e.val r) ∧
      Normed 51 ((List.range 16).map (fun j => ai.lane j * bi.lane j + aq.lane j * bq.lane j)) x p ∧ Normed 51 ((List.range 16).map (fun j => aq.lane j * bi.lane j - ai.lane j * bq.lane j)) y q)) ∧
  (∀ (s : State) (e : Fin 128) (t : Nat) (vd va : VReg) (g : Reg) (lane : Fin 16) (frac : BitVec 5) (a : VBlk), s.runs → a = s.eVec e.val va →
    (s.ukAt e.val = some (t, .vshx vd va g) → (a.e : Int) + (s.eReg e.val g).toInt ≤ 63 → ∃ u, exec (.vshx e vd va g) s = .next u ∧ s.WroteV e.val vd { a with e := ((a.e : Int) + (s.eReg e.val g).toInt).toNat } false 4 u) ∧
    (s.ukAt e.val = some (t, .vshx vd va g) → 63 < (a.e : Int) + (s.eReg e.val g).toInt → ∃ u, exec (.vshx e vd va g) s = .next u ∧
      s.WroteV e.val vd { e := 63, m := a.m.map (fun n => if n < 0 then -524288 else if n = 0 then 0 else 524287) } true 4 u) ∧
    (s.ukAt e.val = some (t, .vext g va lane frac) → ∃ (u : State) (q : Int), exec (.vext e g va lane frac) s = .next u ∧ s.WroteG e.val g (BitVec.ofInt 32 (max (-2147483648) (min 2147483647 q))) 2 u ∧
      2 * q * 2 ^ 51 - 2 ^ 51 ≤ 2 * (a.lane lane.val * 2 ^ frac.toNat) ∧ 2 * (a.lane lane.val * 2 ^ frac.toNat) ≤ 2 * q * 2 ^ 51 + 2 ^ 51) ∧
    (s.ukAt e.val = some (t, .vins vd g lane frac) → ∃ u r sat, exec (.vins e vd g lane frac) s = .next u ∧ s.WroteV e.val vd r sat 2 u ∧
      Normed 0 ((List.range 16).map (fun j => if j = lane.val then (s.eReg e.val g).toInt * 2 ^ (51 - frac.toNat) else (s.eVec e.val vd).lane j)) r sat))

/-- Control and loop ports (R232, R234, R237 to R240, R249, R250): branches compare GA with GB and count from the next instruction, JAL and JALR link PC + 4, and JALR to a misaligned target traps ALIGN; PRD and PRDC read a port the task may read, PRDC checks the complement, PWR and PWRC buffer a write the task may write, and what it may not traps PORT. WAIT commits the buffered writes in order and ends the release, or, at or past the next release, changes nothing (log); a failed check of a buffered write traps CW. NOP takes one instruction time, TRAP traps. -/
def Obligations.ControlAndPorts : Prop :=
  (∀ (s : State) (e : Fin 128) (t n c : Nat) (ga gb : Reg) (ofs : BitVec 18) (a b : Word) (taken : Prop), s.runs → a = s.eReg e.val ga → b = s.eReg e.val gb → (taken ∧ c = 2 ∧ (n : Int) = ((s.eng e.val).pc + 4 + 4 * ofs.toInt) % 2 ^ 32) ∨ (¬taken ∧ c = 1 ∧ n = (s.eng e.val).pc + 4) →
    (s.ukAt e.val = some (t, .b .beq ga gb ofs) → (taken ↔ a = b) → exec (.beq e ga gb ofs) s = .next (s.updEng e.val (fun x => { x with pc := n, ran := x.ran + c }))) ∧
    (s.ukAt e.val = some (t, .b .bne ga gb ofs) → (taken ↔ a ≠ b) → exec (.bne e ga gb ofs) s = .next (s.updEng e.val (fun x => { x with pc := n, ran := x.ran + c }))) ∧
    (s.ukAt e.val = some (t, .b .blt ga gb ofs) → (taken ↔ a.toInt < b.toInt) → exec (.blt e ga gb ofs) s = .next (s.updEng e.val (fun x => { x with pc := n, ran := x.ran + c }))) ∧
    (s.ukAt e.val = some (t, .b .bge ga gb ofs) → (taken ↔ b.toInt ≤ a.toInt) → exec (.bge e ga gb ofs) s = .next (s.updEng e.val (fun x => { x with pc := n, ran := x.ran + c }))) ∧
    (s.ukAt e.val = some (t, .b .bltu ga gb ofs) → (taken ↔ a.toNat < b.toNat) → exec (.bltu e ga gb ofs) s = .next (s.updEng e.val (fun x => { x with pc := n, ran := x.ran + c }))) ∧
    (s.ukAt e.val = some (t, .b .bgeu ga gb ofs) → (taken ↔ b.toNat ≤ a.toNat) → exec (.bgeu e ga gb ofs) s = .next (s.updEng e.val (fun x => { x with pc := n, ran := x.ran + c })))) ∧
  (∀ (s : State) (e : Fin 128) (t : Nat) (gd ga : Reg) (ofs : BitVec 26) (imm : BitVec 18), s.runs →
    (s.ukAt e.val = some (t, .jal ofs) → ∃ u, exec (.jal e ofs) s = .next u ∧ s.onlyEng u e.val ∧ (∀ x : Reg, u.eReg e.val x = if x = 15 then BitVec.ofNat 32 ((s.eng e.val).pc + 4) else s.eReg e.val x) ∧
      ((u.eng e.val).pc : Int) = ((s.eng e.val).pc + 4 + 4 * ofs.toInt) % 2 ^ 32 ∧ u.eng e.val = { s.eng e.val with g := (u.eng e.val).g, pc := (u.eng e.val).pc, ran := (s.eng e.val).ran + 2 }) ∧
    (s.ukAt e.val = some (t, .i .jalr gd ga imm) → (s.eReg e.val ga + imm.signExtend 32).toNat % 4 = 0 → ∃ u, exec (.jalr e gd ga imm) s = .next u ∧ s.onlyEng u e.val ∧
      (∀ x : Reg, u.eReg e.val x = if x = gd ∧ gd.val ≠ 0 then BitVec.ofNat 32 ((s.eng e.val).pc + 4) else s.eReg e.val x) ∧
      u.eng e.val = { s.eng e.val with g := (u.eng e.val).g, pc := (s.eReg e.val ga + imm.signExtend 32).toNat, ran := (s.eng e.val).ran + 2 }) ∧
    (s.ukAt e.val = some (t, .i .jalr gd ga imm) → (s.eReg e.val ga + imm.signExtend 32).toNat % 4 ≠ 0 → exec (.jalr e gd ga imm) s = .next (s.takeTrap e.val t .align)) ∧
    (s.ukAt e.val = some (t, .nop) → exec (.nopInstruction e) s = .next (s.updEng e.val (fun x => { x with pc := x.pc + 4, ran := x.ran + 1 }))) ∧
    (s.ukAt e.val = some (t, .trap) → exec (.trap e) s = .next (s.takeTrap e.val t .trap))) ∧
  (∀ (s : State) (e : Fin 128) (t a : Nat) (g gi : Reg) (p : Half) (live : Option Word) (x : Task) (v : Word), s.runs → a = ((s.eReg e.val gi).toNat + p.toNat) % 65536 → x = s.task (taskKey e.val t) →
    (s.ukAt e.val = some (t, .p .prd g gi p) → x.mayRead e.val a = true → v = s.portValue e.val t a live → ∃ u, exec (.prd e g gi p live) s = .next u ∧ s.WroteG e.val g v 8 u) ∧
    (s.ukAt e.val = some (t, .p .prd g gi p) → x.mayRead e.val a = false → exec (.prd e g gi p live) s = .next (s.takeTrap e.val t .port)) ∧
    (s.ukAt e.val = some (t, .p .prdc g gi p) → x.mayRead e.val a = true → v = s.portValue e.val t a none → v.extractLsb' 16 16 = ~~~(v.extractLsb' 0 16) → ∃ u, exec (.prdc e g gi p) s = .next u ∧ s.WroteG e.val g ((v.extractLsb' 0 16).signExtend 32) 8 u) ∧
    (s.ukAt e.val = some (t, .p .prdc g gi p) → x.mayRead e.val a = true → v = s.portValue e.val t a none → v.extractLsb' 16 16 ≠ ~~~(v.extractLsb' 0 16) → ∃ u, exec (.prdc e g gi p) s = .next u ∧
      (u.task (taskKey e.val t)).st = .trapped ∧ (u.task (taskKey e.val t)).trap = 6 ∧ (u.fsrc (16 * 14)).status = true) ∧
    (s.ukAt e.val = some (t, .p .prdc g gi p) → x.mayRead e.val a = false → exec (.prdc e g gi p) s = .next (s.takeTrap e.val t .port)) ∧
    (s.ukAt e.val = some (t, .p .pwr g gi p) → x.mayWrite e.val a = true → exec (.pwr e g gi p) s = .next (s.updEng e.val (fun y => { y with writes := y.writes ++ [(a, s.eReg e.val g)], pc := y.pc + 4, ran := y.ran + 2 }))) ∧
    (s.ukAt e.val = some (t, .p .pwr g gi p) → x.mayWrite e.val a = false → exec (.pwr e g gi p) s = .next (s.takeTrap e.val t .port)) ∧
    (s.ukAt e.val = some (t, .p .pwrc g gi p) → x.mayWrite e.val a = true → exec (.pwrc e g gi p) s = .next (s.updEng e.val (fun y => { y with writes := y.writes ++ [(a, ~~~((s.eReg e.val g).extractLsb' 0 16) ++ (s.eReg e.val g).extractLsb' 0 16)], pc := y.pc + 4, ran := y.ran + 2 }))) ∧
    (s.ukAt e.val = some (t, .p .pwrc g gi p) → x.mayWrite e.val a = false → exec (.pwrc e g gi p) s = .next (s.takeTrap e.val t .port))) ∧
  (∀ (s : State) (e : Fin 128) (t : Nat) (u : State), s.runs → s.ukAt e.val = some (t, .wait) → u = (s.eng e.val).writes.foldl (fun b w => b.commitWrite e.val t w) s →
    (¬ (∀ w ∈ (s.eng e.val).writes, cwPort w.1 = true → w.2.extractLsb' 16 16 = ~~~(w.2.extractLsb' 0 16) ∧ ((∃ n, portObj w.1 = some (0, n, 8)) ∨ w.2.extractLsb' 0 16 = 1)) → exec (.wait e) s = .next (s.takeTrap e.val t .cw)) ∧
    ((∀ w ∈ (s.eng e.val).writes, cwPort w.1 = true → w.2.extractLsb' 16 16 = ~~~(w.2.extractLsb' 0 16) ∧ ((∃ n, portObj w.1 = some (0, n, 8)) ∨ w.2.extractLsb' 0 16 = 1)) → s.releaseDue (s.task (taskKey e.val t)) = true → exec (.wait e) s = .next s) ∧
    ((∀ w ∈ (s.eng e.val).writes, cwPort w.1 = true → w.2.extractLsb' 16 16 = ~~~(w.2.extractLsb' 0 16) ∧ ((∃ n, portObj w.1 = some (0, n, 8)) ∨ w.2.extractLsb' 0 16 = 1)) → s.releaseDue (s.task (taskKey e.val t)) = false → u.pends (isTaskStop e.val t) = [] →
      ∃ v, exec (.wait e) s = .next v ∧ v = { u with le := v.le } ∧ (∀ j, j ≠ taskKey e.val t → v.task j = u.task j) ∧
        v.task (taskKey e.val t) = { u.task (taskKey e.val t) with st := .waiting, consec := 0, maxrun := (v.task (taskKey e.val t)).maxrun } ∧ (u.task (taskKey e.val t)).maxrun ≤ (v.task (taskKey e.val t)).maxrun ∧
        v.eng e.val = { u.eng e.val with running := none, writes := [], ran := (s.eng e.val).ran + 1, pc := (u.eng e.val).pc + 4 } ∧ ∀ j, j ≠ e.val → v.eng j = u.eng j)) ∧
  (∀ (s : State) (e t n : Nat) (w : Word),
    (n < 16 → (s.commitWrite e t (0x20 + n, w)).task (taskKey e t) = { s.task (taskKey e t) with outs := (s.task (taskKey e t)).outs.set 0 n w } ∧ s.onlyTask (s.commitWrite e t (0x20 + n, w)) (taskKey e t)) ∧
    ((s.commitWrite e t (0x30, w)) = (s.record (0xF00 + bitsOf w 24 8) 0 (BitVec.ofNat 8 (0x80 + e)) false (fld 0 (bitsOf w 0 24) + fld 3 t)).irqEdge (384 + e)) ∧
    (n < 256 → (s.gain n).agcSrc = true → s.onlyGain (s.commitWrite e t (0x1008 + 16 * n, w)) n ∧ (s.commitWrite e t (0x1008 + 16 * n, w)).gain n = { s.gain n with request := some (gainCode w) }) ∧
    (n < 256 → (s.gain n).agcSrc = false → s.commitWrite e t (0x1008 + 16 * n, w) = s) ∧
    (n < 256 → s.commitWrite e t (0x1009 + 16 * n, w) = s.winterSet n 9 (BitVec.ofNat 16 (0xE000 + 16 * (e - 64) + t))) ∧
    (n < 32 → s.commitWrite e t (0x2008 + 16 * n, w) = s.winterSet (objChain n) 9 (BitVec.ofNat 16 (0xE000 + 16 * (e - 64) + t))))

/-- Tasks of the loop engines (R230, R231, R243 to R248): a release makes a task READY, counts it and notes DTIME; one that finds the task READY or RUNNING applies the overrun rule, and a stop that waits takes effect instead; an idle engine starts the READY task of shortest period and lowest index with fresh registers; a trap whose cause holds discards the buffered writes, records the cause and raises the trap source of the engine; the end of a load writes the image to every engine of its range, and a library load starts the library. -/
def Obligations.TaskSchedule : Prop :=
  (∀ (s : State) (e : Fin 128) (t : Fin 8), s.runs → (s.task (taskKey e.val t.val)).st = .stopped ∨ (s.task (taskKey e.val t.val)).st = .trapped ∨ s.releaseDue (s.task (taskKey e.val t.val)) = false → exec (.taskRelease e t) s = .next s) ∧
  (∀ (s : State) (e : Fin 128) (t : Fin 8) (x : Task), s.runs → x = s.task (taskKey e.val t.val) → s.releaseDue x = true → x.st = .waiting → x.startId = none → x.good = 0 → ∃ u, exec (.taskRelease e t) s = .next u ∧ s.onlyTask u (taskKey e.val t.val) ∧
    u.task (taskKey e.val t.val) = { x with st := .ready, runs := (x.runs + 1) % 65536, relDt := s.dtime, lastRel := s.now, good := 1 }) ∧
  (∀ (s : State) (e : Fin 128) (t : Fin 8) (x : Task), s.runs → x = s.task (taskKey e.val t.val) → s.releaseDue x = true → x.st = .waiting → x.startId = none → 1 ≤ x.good → ∃ u, exec (.taskRelease e t) s = .next u ∧ u = { s with le := { s.le with tasks := u.le.tasks }, prot := { s.prot with objs := u.prot.objs } } ∧
    u.task (taskKey e.val t.val) = { x with st := .ready, runs := (x.runs + 1) % 65536, relDt := s.dtime, lastRel := s.now, good := x.good + 1 } ∧ (∀ i, (u.wobj i).cause = (s.wobj i).cause) ∧
    ∀ i, (s.wobj i).overBy = [taskKey e.val t.val] → (s.wobj i).cause.getLsbD 12 = true → (u.wobj i).cleared.getLsbD 12 = true) ∧
  (∀ (s : State) (e : Fin 128) (t : Fin 8) (x : Task) (id : Nat), s.runs → x = s.task (taskKey e.val t.val) → s.releaseDue x = true → x.st = .waiting → x.startId = some id → x.good = 0 → ∃ v, exec (.taskRelease e t) s = .next (v.completeId id .ok 0 0) ∧ s.onlyTask v (taskKey e.val t.val) ∧
    v.task (taskKey e.val t.val) = { x with st := .ready, runs := (x.runs + 1) % 65536, relDt := s.dtime, lastRel := s.now, good := 1, startId := none }) ∧
  (∀ (s : State) (e : Fin 128) (t : Fin 8) (x : Task), s.runs → x = s.task (taskKey e.val t.val) → s.releaseDue x = true → x.st = .running → s.pends (isTaskStop e.val t.val) ≠ [] → ∃ u, exec (.taskRelease e t) s = .next u ∧
    (u.task (taskKey e.val t.val)).st = .stopped ∧ (u.task (taskKey e.val t.val)).ovr = x.ovr ∧ ((s.eng e.val).running = some t.val → (u.eng e.val).running = none) ∧ ∀ q ∈ u.hif.outstanding, isTaskStop e.val t.val q = false) ∧
  (∀ (s : State) (e : Fin 128) (t : Fin 8) (x : Task), s.runs → x = s.task (taskKey e.val t.val) → s.releaseDue x = true → x.st = .ready ∨ (x.st = .running ∧ s.pends (isTaskStop e.val t.val) = []) → ∃ u, exec (.taskRelease e t) s = .next u ∧
    (u.task (taskKey e.val t.val)) = { x with st := .ready, ovrCnt := satInc 0xFFFF x.ovrCnt, ovr := satInc 0xFFFFFFFF x.ovr, overrun := true, consec := min 3 (x.consec + 1), good := 0, runs := (x.runs + 1) % 65536, relDt := s.dtime, lastRel := s.now, startId := none } ∧
    ((s.eng e.val).running = some t.val → (u.eng e.val).running = none ∧ (u.eng e.val).writes = []) ∧
    (x.prot = true → x.consec = 1 → (u.fsrc (16 * 14 + 4)).status = true ∧ ∀ i ∈ x.scopeObjs, (u.wobj i).cause.getLsbD 12 = true) ∧ (x.prot = false → x.consec = 2 → (u.fsrc (16 * 14 + 3)).status = true)) ∧
  (∀ (s : State) (e : Fin 128), s.runs → (s.eng e.val).running ≠ none ∨ (∀ t, t < 8 → (s.task (taskKey e.val t)).st ≠ .ready) → exec (.taskDispatch e) s = .next s) ∧
  (∀ (s : State) (e : Fin 128) (t : Nat) (x : Task), s.runs → (s.eng e.val).running = none → t < 8 → x = s.task (taskKey e.val t) → x.st = .ready →
    (∀ j, j < 8 → (s.task (taskKey e.val j)).st = .ready → x.period < (s.task (taskKey e.val j)).period ∨ (x.period = (s.task (taskKey e.val j)).period ∧ t ≤ j)) → ∃ u, exec (.taskDispatch e) s = .next u ∧
    u = { s with le := u.le } ∧ (∀ j, j ≠ taskKey e.val t → u.task j = s.task j) ∧ (∀ j, j ≠ e.val → u.eng j = s.eng j) ∧ u.task (taskKey e.val t) = { x with st := .running } ∧
    u.eng e.val = { s.eng e.val with running := some t, pc := 4 * ((s.eng e.val).entries.getD x.entry (0, 0)).2, ran := 0, writes := [], v := [], g := (u.eng e.val).g } ∧
    (∀ r : Reg, u.eReg e.val r = if r = 13 then BitVec.ofNat 32 t else if r = 14 then 0x8000 else 0)) ∧
  (∀ (s : State) (e : Fin 128), s.runs → (∀ c, c ≠ .mem → (s.eng e.val).running = none → exec (.taskTrap e c) s = .next s) ∧ exec (.taskTrap e .mem) s = .next (s.memTrap e.val)) ∧
  (∀ (s : State) (e : Fin 128) (t : Nat), s.runs → (s.eng e.val).running = some t →
    (4 * (s.eng e.val).ninstr ≤ (s.eng e.val).pc → exec (.taskTrap e .iaddr) s = .next (s.takeTrap e.val t .iaddr)) ∧
    ((s.eng e.val).pc < 4 * (s.eng e.val).ninstr → exec (.taskTrap e .iaddr) s = .next s) ∧
    ((s.eng e.val).pc < 4 * (s.eng e.val).ninstr → uDecode ((s.eng e.val).imem.get 0 ((s.eng e.val).pc / 4)).toNat = none → exec (.taskTrap e .illegal) s = .next (s.takeTrap e.val t .illegal)) ∧
    (∀ (u : UIns) (c : TrapCause), c ≠ .mem → (s.eng e.val).pc < 4 * (s.eng e.val).ninstr → uDecode ((s.eng e.val).imem.get 0 ((s.eng e.val).pc / 4)).toNat = some u →
      exec (.taskTrap e c) s = .next (if s.ukTraps e.val t u = some c then s.ukTrap e.val t u c else s))) ∧
  (∀ (s : State) (e t : Nat) (c : TrapCause), ((s.takeTrap e t c).task (taskKey e t)) = { s.task (taskKey e t) with st := .trapped, trap := match c with | .illegal => 1 | .align => 2 | .daddr => 3 | .iaddr => 4 | .port => 5 | .cw => 6 | .mem => 7 | .trap => 8 } ∧
    ((s.eng e).running = some t → ((s.takeTrap e t c).eng e).running = none ∧ ((s.takeTrap e t c).eng e).writes = []) ∧ (∀ j, j ≠ e → (s.takeTrap e t c).eng j = s.eng j) ∧ (∀ j, j ≠ taskKey e t → (s.takeTrap e t c).task j = s.task j) ∧
    ((s.takeTrap e t c).fsrc (16 * 14 + if e < 64 then 5 else 6)).status = true ∧ ({ s with le := (s.takeTrap e t c).le } : State).alarmed (s.takeTrap e t c)) ∧
  (∀ (s : State), s.runs → s.pends isImageLoad = [] → exec .leLoadEnd s = .next s) ∧
  (∀ (s : State) (p : Pend) (first count : Byte) (len : Word) (addr : Word64) (ws : List Word), s.runs → (s.pends isImageLoad).head? = some p → p.desc = .leImageLoad first count len addr (.words ws) → first.toNat + count.toNat ≤ 128 →
    (s.now ≤ p.acc → exec .leLoadEnd s = .next s) ∧
    (p.acc < s.now → ∃ u v : State, exec .leLoadEnd s = .next (if first.toNat = 4 then v.libPlace else v) ∧ v = u.complete p .ok 0 0 ∧ u = { s with le := u.le, flt := { s.flt with poisoned := u.flt.poisoned, flipped := u.flt.flipped } } ∧ u.le.tasks = s.le.tasks ∧
      (∀ k, first.toNat ≤ k → k < first.toNat + count.toNat → u.eng k = (s.eng k).load ws) ∧ (∀ k, k < first.toNat ∨ first.toNat + count.toNat ≤ k → u.eng k = s.eng k) ∧ (v.libPlace).le.libRunning = true)) ∧
  (∀ (x : Eng) (ws : List Word) (n j : Nat), imgText ws = 4 * n → 16 + n ≤ ws.length → (x.load ws).loaded = true ∧ (x.load ws).imgId = ws.getD 3 0 ∧ (x.load ws).ninstr = n ∧ (j < n → (x.load ws).imem.get 0 j = ws.getD (16 + j) 0) ∧ (x.load ws).vsat = false)

/-- Telemetry, the event ring and capture (R280 to R283): a snapshot is due on the grid of its subscription's period; it is written at the ring's tail with its interrupt, only counted where its tile is in AUTUMN and its turn is not the fourth, and counted as dropped with a gap where the ring is full; the oldest waiting record goes to the event ring, is dropped where that ring is full and forgotten where it is disabled; a queued capture begins when none runs and one triggered by time commits at its first sample; a full one stands in capture memory, goes to the host and completes. -/
def Obligations.TelemetryAndCapture : Prop :=
  (∀ (s : State) (i : Fin 64) (l : List (Fin 32 × Word)) (x : Sub), s.runs → s.hif.subs.get Sub.reset i.val = x → x.active = false ∨ s.onGrid (x.period.toNat * tus) = false → exec (.telemetrySnapshot i l) s = .next s) ∧
  (∀ (s : State) (i : Fin 64) (l : List (Fin 32 × Word)) (x : Sub) (autumn : Bool), s.runs → s.hif.subs.get Sub.reset i.val = x → x.active = true → s.onGrid (x.period.toNat * tus) = true → (autumn = true ↔ (s.tileT (s.teleTile x)).stage ≠ 0) →
    ((autumn = true ∧ x.count % 4 ≠ 0) ∨ (s.trRing x.ring).en = false → ∃ t, exec (.telemetrySnapshot i l) s = .next t ∧ t = { s with hif := { s.hif with subs := t.hif.subs } } ∧ t.hif.subs.get Sub.reset i.val = { x with count := x.count + 1 }) ∧
    (autumn = false ∨ x.count % 4 = 0 → (s.trRing x.ring).en = true → s.hif.busMaster = true → ((s.trRing x.ring).tail - (s.trRing x.ring).head).toNat = 2 ^ (s.trRing x.ring).size → ∃ u : State, exec (.telemetrySnapshot i l) s = .next (u.raise 1 4 .device) ∧
      ((u.raise 1 4 .device).fsrc (16 * 1 + 4)).status = true ∧ u = { s with hif := { s.hif with subs := u.hif.subs, tr := u.hif.tr } } ∧ u.hif.subs.get Sub.reset i.val = { x with count := x.count + 1, gap := true } ∧
      u.trRing x.ring = { s.trRing x.ring with drop := if (s.trRing x.ring).drop = 0xFFFFFFFF then (s.trRing x.ring).drop else (s.trRing x.ring).drop + 1 } ∧ (∀ m, m ≠ x.ring → u.trRing m = s.trRing m)) ∧
    (autumn = false ∨ x.count % 4 = 0 → (s.trRing x.ring).en = true → s.hif.busMaster = true → ((s.trRing x.ring).tail - (s.trRing x.ring).head).toNat ≠ 2 ^ (s.trRing x.ring).size → ∃ u : State, exec (.telemetrySnapshot i l) s = .next (u.irqEdge (16 + x.ring)) ∧
      u = { s with hif := { s.hif with subs := u.hif.subs, tr := u.hif.tr, hostWrites := u.hif.hostWrites } } ∧ u.hif.subs.get Sub.reset i.val = { x with count := x.count + 1, gap := false } ∧ (∀ j, j ≠ i.val → u.hif.subs.get Sub.reset j = s.hif.subs.get Sub.reset j) ∧
      u.trRing x.ring = { s.trRing x.ring with tail := (s.trRing x.ring).tail + 1 } ∧ (∀ m, m ≠ x.ring → u.trRing m = s.trRing m) ∧
      u.hif.hostWrites = s.hif.hostWrites ++ [{ addr := entryAddr (s.trRing x.ring).lo (s.trRing x.ring).hi 64 (s.trRing x.ring).size (s.trRing x.ring).tail, words := teleEntry i.val x s.dtime (s.teleValues x l) autumn (phaseBit (s.trRing x.ring).size (s.trRing x.ring).tail) }])) ∧
  (∀ (s : State), s.runs → s.recd.copyq = [] ∨ (s.hif.er.en = true ∧ s.hif.busMaster = false) → exec .eventCopy s = .next s) ∧
  (∀ (s : State) (r : Rec) (q : List Rec), s.runs → s.recd.copyq = r :: q →
    (s.hif.er.en = false → exec .eventCopy s = .next { s with recd := { s.recd with copyq := q } }) ∧
    (s.hif.er.en = true → s.hif.busMaster = true → (s.hif.er.tail - s.hif.er.head).toNat = 2 ^ s.hif.er.size → ∃ u : State, exec .eventCopy s = .next (u.raise 1 5 .device) ∧ ((u.raise 1 5 .device).fsrc (16 * 1 + 5)).status = true ∧
      u = { s with recd := { s.recd with copyq := q }, hif := { s.hif with er := { s.hif.er with drop := if s.hif.er.drop = 0xFFFFFFFF then s.hif.er.drop else s.hif.er.drop + 1 } } }) ∧
    (s.hif.er.en = true → s.hif.busMaster = true → (s.hif.er.tail - s.hif.er.head).toNat ≠ 2 ^ s.hif.er.size → ∃ u : State, exec .eventCopy s = .next (u.irqEdge 20) ∧
      u = { s with recd := { s.recd with copyq := q }, hif := { s.hif with er := { s.hif.er with tail := s.hif.er.tail + 1 }, hostWrites := s.hif.hostWrites ++
        [{ addr := entryAddr s.hif.er.lo s.hif.er.hi 64 s.hif.er.size s.hif.er.tail, words := r.words }, { addr := s.hif.er.wbHi.toNat * 2 ^ 32 + s.hif.er.wbLo.toNat, words := [word (s.hif.er.tail + 1).toNat] }] } })) ∧
  (∀ (s : State), s.runs → s.hif.captRun = none → s.pends isCapture = [] → exec .captureStart s = .next s) ∧
  (∀ (s : State) (p : Pend) (pt ix tr sh : Byte) (n pre : Word) (at_ ad : Word64), s.runs → s.hif.captRun = none → (s.pends isCapture).head? = some p → p.desc = .capture pt ix tr sh n pre at_ ad → s.pend? p.id = some p → ∃ t, exec .captureStart s = .next t ∧
    t.hif.captDone = false ∧ t.hif.captValid = false ∧ t = { s with hif := { s.hif with captRun := t.hif.captRun, captDone := t.hif.captDone, captValid := t.hif.captValid, outstanding := t.hif.outstanding } } ∧
    ((pt = 5 ∨ tr = 0) → at_.toNat * tns ≤ s.dtTicks → t.hif.captRun = some { id := p.id, triggered := true, since := s.now } ∧ t.hif.outstanding = s.hif.outstanding.map (fun q => if q.id = p.id then { q with committed := true } else q)) ∧
    ((pt ≠ 5 ∧ tr ≠ 0) ∨ s.dtTicks < at_.toNat * tns → t.hif.captRun = some { id := p.id, triggered := false, since := s.now } ∧ t.hif.outstanding = s.hif.outstanding)) ∧
  (∀ (s : State) (o : BitVec 24) (l : List Word), s.runs → s.hif.captRun = none → exec (.captureEnd o l) s = .next s) ∧
  (∀ (s : State) (o : BitVec 24) (l w : List Word) (k : Nat) (r : CapRun) (p : Pend) (pt ix tr sh : Byte) (n pre : Word) (at_ ad : Word64), s.runs → s.hif.captRun = some r → s.pend? r.id = some p → p.desc = .capture pt ix tr sh n pre at_ ad → w = (if pt = 5 then (s.inst ix.toNat).mainWords else l) → k = (if pt = 5 ∨ tr = 0 then 0 else o.toNat) →
    (s.captFull r pt.toNat ix.toNat tr.toNat n.toNat pre.toNat = false ∨ (ad ≠ 0 ∧ s.hif.busMaster = false) → exec (.captureEnd o l) s = .next s) ∧
    (s.captFull r pt.toNat ix.toNat tr.toNat n.toNat pre.toNat = true → w.length = (if pt = 5 then 2 * (s.inst ix.toNat).ntaps else n.toNat) → k < 3145728 → ad = 0 ∨ s.hif.busMaster = true → ∃ u : State, exec (.captureEnd o l) s = .next ((u.complete p .ok (word (0x400000 + 4 * k)) 0).captNext) ∧
      u = { s with hif := u.hif } ∧ u.hif.captRun = none ∧ u.hif.captDone = true ∧ u.hif.captOldest.toNat = k ∧ u.hif.captLen = w.length ∧ u.hif.hostWrites = (if ad = 0 then s.hif.hostWrites else s.hif.hostWrites ++ [{ addr := ad.toNat, words := w }]) ∧
      (∀ j, j < w.length → w.length ≤ 3145728 → u.captWord ((k + j) % 3145728) = w.getD j 0)))

/-- The recorder's flushes (R343, R346 to R348, R356): a flush that is asked for begins with what the buffer holds when none runs; its end commits each of its records to the slot of its number, takes them from the buffer, writes its checkpoint and ends the REC_FLUSHes that waited for it, with the faults of a failed write and of a late end; each whole second asks for a flush with a checkpoint; a code whose bucket holds a token again writes one summary of what it lost. -/
def Obligations.RecorderFlushes : Prop :=
  (∀ (s : State), s.runs → s.recd.mounted = false ∨ s.recd.want = false ∨ s.recd.flush ≠ none → exec .flushStart s = .next s) ∧
  (∀ (s : State), s.runs → s.recd.mounted = true → s.recd.want = true → s.recd.flush = none → s.recd.wantCkpt = false → exec .flushStart s = .next { s with recd := { s.recd with
      flush := some { start := s.now, upTo := s.recd.nextSeq - 1, n := s.recd.buf.length + s.recd.tombs.length, ckpt := false, pfail := s.recd.intakeClosed }, want := false } }) ∧
  (∀ (s : State), s.runs → s.recd.mounted = true → s.recd.want = true → s.recd.flush = none → s.recd.wantCkpt = true → ∃ t, exec .flushStart s = .next t ∧ t = { s with recd := t.recd } ∧ s.recd.nextSeq ≤ t.recd.nextSeq ∧ t.recd.want = false ∧ t.recd.wantCkpt = false ∧
    t.recd.flush = some { start := s.now, upTo := t.recd.nextSeq - 1, n := t.recd.buf.length + t.recd.tombs.length, ckpt := true, pfail := s.recd.intakeClosed }) ∧
  (∀ (s : State), s.runs → s.recd.mounted = false ∨ s.onGrid tsec = false → exec .periodicFlush s = .next s) ∧
  (∀ (s : State) (f : Flush), s.runs → s.recd.mounted = true → s.onGrid tsec = true → s.recd.flush = some f → exec .periodicFlush s = .next { s with recd := { s.recd with want := true, wantCkpt := true } }) ∧
  (∀ (s : State), s.runs → s.recd.mounted = true → s.onGrid tsec = true → s.recd.flush = none → ∃ t, exec .periodicFlush s = .next t ∧ t = { s with recd := t.recd } ∧ (∃ f, t.recd.flush = some f ∧ f.ckpt = true ∧ f.start = s.now ∧ f.upTo = t.recd.nextSeq - 1)) ∧
  (∀ (s : State) (l : List Nat), s.runs → (∀ f ∈ s.recd.flush, s.now ≤ f.start) → exec (.flushEnd l) s = .next s) ∧
  (∀ (s : State) (l : List Nat) (f : Flush), s.runs → s.recd.flush = some f → f.start < s.now → ∃ u : State,
    u = { s with recd := { s.recd with store := { s.recd.store with slots := u.recd.store.slots, ckpts := u.recd.store.ckpts }, buf := s.recd.buf.filter (fun r => decide (f.upTo < r.seq)), tombs := s.recd.tombs.filter (fun r => decide (f.upTo < r.seq)), flush := none, lastFlush := min 0xFFFF ((s.now - f.start) / (10 * tns)) } } ∧
    (∀ r ∈ s.recd.flushed f.upTo, (∀ q ∈ s.recd.flushed f.upTo, q.seq % 131072 = r.seq % 131072 → q = r) → u.recd.store.slot r.seq = r) ∧ (∀ i, (∀ r ∈ s.recd.flushed f.upTo, r.seq % 131072 ≠ i % 131072) → u.recd.store.slot i = s.recd.store.slot i) ∧
    (f.ckpt = true → s.recd.store.ckpts.length < 64 → u.recd.store.ckpts = s.recd.store.ckpts ++ [s.oph]) ∧ (f.ckpt = false → u.recd.store.ckpts = s.recd.store.ckpts) ∧
    (l = [] → s.now - f.start ≤ tus + f.n * 33 * tns → exec (.flushEnd l) s = .next u.recFlushCheck ∧ ((∀ p ∈ s.hif.outstanding, isRecFlush p = false) → u.recFlushCheck = u) ∧
      (s.recd.intakeClosed = false → ∀ q ∈ u.recFlushCheck.hif.outstanding, isRecFlush q = true → u.recd.committedTo q.aux = false)) ∧
    (l = [] → tus + f.n * 33 * tns < s.now - f.start → exec (.flushEnd l) s = .next (u.raise 4 6 .device).recFlushCheck ∧ ((u.raise 4 6 .device).fsrc (16 * 4 + 6)).status = true) ∧
    (∀ r ∈ s.recd.flushed f.upTo, l = [r.seq] → s.now - f.start ≤ tus + f.n * 33 * tns → ∃ v : State, exec (.flushEnd l) s = .next (if s.recd.store.spares.length = 767 then (v.raise 4 2 .device).raise 4 3 .device else v.raise 4 2 .device).recFlushCheck ∧ ((v.raise 4 2 .device).fsrc (16 * 4 + 2)).status = true ∧
      v = { u with recd := { u.recd with store := { u.recd.store with spares := s.recd.store.spares ++ [r.seq % 131072] } } })) ∧
  (∀ (s : State) (c : BitVec 12), s.runs → s.recd.mounted = false ∨ ((s.bucket c.toNat).supp = 0 ∧ (s.bucket c.toNat).drop = 0) ∨ (s.bucket c.toNat).fillNow s.now < tokenUnit → exec (.summaryRecord c) s = .next s) ∧
  (∀ (s : State) (c : BitVec 12), s.runs → s.recd.mounted = true → ¬ ((s.bucket c.toNat).supp = 0 ∧ (s.bucket c.toNat).drop = 0) → tokenUnit ≤ (s.bucket c.toNat).fillNow s.now → s.recd.buf.length < 1024 → ∃ t r, exec (.summaryRecord c) s = .next t ∧ t.recd.buf = s.recd.buf ++ [r] ∧
    r.seq = s.recd.nextSeq ∧ r.code = c.toNat ∧ r.summary = true ∧ r.sev = (s.bucket c.toNat).maxSev ∧ r.src = (s.bucket c.toNat).src ∧ r.data = BitVec.ofNat 256 (s.bucket c.toNat).summaryData ∧ t.recd.nextSeq = s.recd.nextSeq + 1 ∧
    t = { s with recd := t.recd } ∧ (∀ j, j ≠ c.toNat → t.bucket j = s.bucket j) ∧ t.bucket c.toNat = { s.bucket c.toNat with fill := (s.bucket c.toNat).fillNow s.now - tokenUnit, at_ := s.now, supp := 0, drop := 0, firstOph := 0, lastOph := 0, maxSev := 0, src := 0 })

/-- Links and streams (R365, R366, R367, R369, R376, R380, R381, R382, Tables 13-5 and 13-8): a message that the link does not take in order owes a NAK and does nothing; training goes through its steps, ends UP, or takes the port DOWN with its cause; a link goes down after 16 frames without a header, on block errors, or 2 µs after an unacknowledged message; a NAK or 500 ns send the unacknowledged messages again; a STREAM_REQ is answered by its result; a stream is ACTIVE at its START when both sides agreed, and a pending open that got no answer ends; a close ends its stream at the boundary; cells are placed, a damaged one as zeros. -/
def Obligations.LinksAndStreams : Prop :=
  (∀ (s : State) (i : Instr) (h : MsgHdr), s.runs → messageOf i = some h → ((s.port h.port.val).open_ = false → exec i s = .next s) ∧
    ((s.port h.port.val).open_ = true → h.crcOk = false ∨ h.lseq.toNat ≠ ((s.port h.port.val).rxSeq + 1) % 256 → exec i s = .next (s.updPort h.port.val (fun x => { x with nakOwed := true })))) ∧
  (∀ (s : State) (p : Fin 4), s.runs → ((s.port p.val).st ≠ .down ∨ (s.port p.val).cfgRole = 0 ∨ ((s.port p.val).downCause ≠ 0 ∧ s.now < (s.port p.val).downAt + 100 * tms) → exec (.trainingRestart p) s = .next s) ∧
    ((s.port p.val).st = .down → (s.port p.val).cfgRole ≠ 0 → (s.port p.val).downCause = 0 ∨ (s.port p.val).downAt + 100 * tms ≤ s.now →
      exec (.trainingRestart p) s = .next (s.updPort p.val (fun x => { x with st := .training, role := x.cfgRole, step := 1, final := false, stepAt := s.now, jl2 := false })))) ∧
  (∀ (s : State) (p : Fin 4) (r : TrainResult), s.runs → (s.port p.val).st ≠ .training → exec (.linkTrainingStep p r) s = .next s) ∧
  (∀ (s : State) (p : Fin 4), s.runs → (s.port p.val).st = .training → ((s.port p.val).step = 2 ∨ (s.port p.val).step = 3 → ∃ t, exec (.linkTrainingStep p .skew) s = .next t ∧ s.wentDown p.val 2 t) ∧
    (∀ n l, (n, l) ∈ [(2, 2 * tms), (3, 4 * tms), (5, tms)] → (s.port p.val).step = n → (s.now < (s.port p.val).stepAt + l → exec (.linkTrainingStep p .exceeded) s = .next s) ∧
      ((s.port p.val).stepAt + l ≤ s.now → ∃ t, exec (.linkTrainingStep p .exceeded) s = .next t ∧ s.wentDown p.val (if n = 5 then 1 else 2) t))) ∧
  (∀ (s : State) (p : Fin 4) (g a b : Nat) (id : BitVec 4) (pp : BitVec 2) (pm j : Bool) (x : Port), s.runs → x = s.port p.val → x.st = .training →
    (x.step = 1 → exec (.linkTrainingStep p (.passed g a b id pp pm j)) s = .next (s.updPort p.val (fun x => { x with step := 2, stepAt := s.now }))) ∧
    (x.step = 2 → x.jl2En = true → j = true → 2 ≤ g → ∃ t, exec (.linkTrainingStep p (.passed g a b id pp pm j)) s = .next t ∧ s.onlyPort t p.val ∧ t.port p.val = { x with pid := id.toNat, pport := pp.toNat, pmaster := pm, jl2 := true, step := 3, stepAt := s.now }) ∧
    ((x.step = 2 ∧ (x.jl2En = false ∨ j = false ∨ g < 2)) ∨ x.step = 3 → min 2 b < max 1 a → ∃ t, exec (.linkTrainingStep p (.passed g a b id pp pm j)) s = .next t ∧ s.wentDown p.val 3 t ∧ (t.port p.val).pver = min 2 b) ∧
    ((x.step = 2 ∧ (x.jl2En = false ∨ j = false ∨ g < 2)) ∨ x.step = 3 → max 1 a ≤ min 2 b → ∃ u : State, s.onlyPort u p.val ∧ (u.port p.val).st = .training ∧ (u.port p.val).step = 5 ∧ (u.port p.val).pver = min 2 b ∧ (u.port p.val).final = true ∧ (u.port p.val).exN = 0 ∧ (u.port p.val).exSum = 0 ∧ (u.port p.val).stepAt = s.now ∧
      (x.step = 2 → (u.port p.val).pid = id.toNat ∧ (u.port p.val).pport = pp.toNat ∧ (u.port p.val).jl2 = false) ∧ (x.step = 3 → (u.port p.val).jl2 = x.jl2) ∧
      exec (.linkTrainingStep p (.passed g a b id pp pm j)) s = .next (if x.role = 1 then u.each (List.range 16) (fun _ c => c.portSend p.val (c.localMsg p.val 3 false (leBytes 12 c.stamp))) else u)) ∧
    (x.step = 5 → x.exN < 16 → exec (.linkTrainingStep p (.passed g a b id pp pm j)) s = .next s) ∧
    (x.step = 5 → 16 ≤ x.exN → x.role = 1 → 40 * 65536 * 32 < x.exSum → ∃ t, exec (.linkTrainingStep p (.passed g a b id pp pm j)) s = .next t ∧ s.wentDown p.val 4 t) ∧
    (x.step = 5 → 16 ≤ x.exN → x.role ≠ 1 ∨ x.exSum ≤ 40 * 65536 * 32 → ∃ t, exec (.linkTrainingStep p (.passed g a b id pp pm j)) s = .next t ∧ s.onlyPort t p.val ∧ (t.port p.val).st = .up ∧ (t.port p.val).step = 6 ∧ (t.port p.val).upCnt = satInc 0xFFFF x.upCnt ∧ (t.port p.val).downCause = 0 ∧ (t.port p.val).timeAt = none ∧ (t.port p.val).lastHdr = s.now ∧
      ((t.port p.val).dPs = if x.role = 1 then min 0xFFFF (x.exSum * 1000 / (65536 * 32)).toNat else x.dPs))) ∧
  (∀ (s : State) (p : Fin 4) (h : LinkHdr), s.runs → ((s.port p.val).open_ = false → exec (.linkHeader p h) s = .next s) ∧ ((s.port p.val).open_ = true → h.ok = false → exec (.linkHeader p h) s = .next (s.updPort p.val (fun x => { x with blkErr := satInc 0xFFFF x.blkErr }))) ∧
    ((s.port p.val).open_ = true → h.ok = true → ∃ t, exec (.linkHeader p h) s = .next t ∧ s.onlyPort t p.val ∧ (t.port p.val).lastHdr = s.now ∧ (t.port p.val).fn = h.fn.toNat ∧ (t.port p.val).credit = h.credit.toNat ∧ (t.port p.val).st = (s.port p.val).st ∧
      (h.nak = false → (t.port p.val).retryCnt = (s.port p.val).retryCnt ∧ ((s.port p.val).waitq = [] → (t.port p.val).unacked = ackDrop h.ack.toNat (s.port p.val).unacked)) ∧
      (h.nak = true → (s.port p.val).waitq = [] → (t.port p.val).unacked = (ackDrop h.ack.toNat (s.port p.val).unacked).map (fun t => if t.tries < 4 then { t with tries := t.tries + 1, last := s.now } else t)))) ∧
  (∀ (s : State) (p : Fin 4), s.runs → ((s.port p.val).st = .up → (s.port p.val).lastHdr + 1024 * tns ≤ s.now → ∃ t, exec (.headerLoss p) s = .next t ∧ s.wentDown p.val 1 t) ∧ ((s.port p.val).st ≠ .up ∨ s.now < (s.port p.val).lastHdr + 1024 * tns → exec (.headerLoss p) s = .next s)) ∧
  (∀ (s : State) (p : Fin 4) (n l : Nat), s.runs → l = (if (s.port p.val).jl2 then 3125000 else 625000) → ((s.port p.val).st = .up → l < n * 1000000 → ∃ t, exec (.blockErrorRate p n) s = .next t ∧ s.wentDown p.val 6 t) ∧ ((s.port p.val).st ≠ .up ∨ n * 1000000 ≤ l → exec (.blockErrorRate p n) s = .next s)) ∧
  (∀ (s : State) (p : Fin 4), s.runs → (s.port p.val).unacked = [] → exec (.messageRetransmit p) s = .next s ∧ exec (.retryExhausted p) s = .next s) ∧
  (∀ (s : State) (p : Fin 4) (x : JTx) (l : List JTx), s.runs → (s.port p.val).unacked = x :: l →
    ((s.port p.val).st ≠ .down → x.first + 2 * tus ≤ s.now → ∃ t, exec (.retryExhausted p) s = .next t ∧ s.wentDown p.val 5 t) ∧ (s.now < x.first + 2 * tus → exec (.retryExhausted p) s = .next s) ∧
    (4 ≤ x.tries ∨ s.now < x.last + 500 * tns ∨ x.first + 1500 * tns < s.now → exec (.messageRetransmit p) s = .next s) ∧
    (x.tries < 4 → x.last + 500 * tns ≤ s.now → s.now ≤ x.first + 1500 * tns → ∃ t, exec (.messageRetransmit p) s = .next t ∧ s.onlyPort t p.val ∧
      t.port p.val = { s.port p.val with unacked := (x :: l).map (fun t => if t.tries < 4 then { t with tries := t.tries + 1, last := s.now } else t), retryCnt := min 0xFFFF ((s.port p.val).retryCnt + ((x :: l).filter (fun t => decide (t.tries < 4))).length) })) ∧
  (∀ (s : State) (h : MsgHdr) (t1 t2 t3 : Word64), s.runs → s.linkRight h → ∃ u : State, exec (.delayReq h t1 t2 t3) s = .next (u.portSend h.port.val (u.localMsg h.port.val 4 true (leBytes 8 t1.toNat ++ leBytes 8 t2.toNat ++ leBytes 12 t3.toNat))) ∧ s.onlyPort u h.port.val ∧
    u.port h.port.val = { (s.linkTook h).port h.port.val with exN := min 16 ((s.port h.port.val).exN + 1) }) ∧
  (∀ (s : State) (h : MsgHdr) (t1 t2 t3 t4 : Word64) (x : Port), s.runs → s.linkRight h → x = (s.linkTook h).port h.port.val → ∃ t, exec (.delayResp h t1 t2 t3 t4) s = .next t ∧ s.onlyPort t h.port.val ∧ t.port h.port.val =
    if x.role ≠ 1 then { x with disc := satInc 0xFFFF x.disc } else if x.step = 5 ∧ x.exN < 16 then { x with exN := x.exN + 1, exSum := x.exSum + (((t4.toNat : Int) - t1.toNat) - ((t3.toNat : Int) - t2.toNat)) } else x) ∧
  (∀ (s : State) (h : MsgHdr) (n rate col ph : Byte) (st : Word64) (k r : Nat) (x : Strm), s.runs → s.linkRight h → k = strIdx h.port.val true (n.toNat % 12) → x = s.strm k → r = (if x.st ≠ .listen ∨ 11 < n.toNat then 1 else if x.rate ≠ rate.toNat then 2 else 0) →
    ∃ u : State, exec (.streamReq h n rate col ph st) s = .next (u.portSend h.port.val (u.localMsg h.port.val 0x20 true (leBytes 4 r))) ∧ (s.linkTook h).onlyStrm u k ∧ u.strm k = if r = 0 then { x with col := col.toNat, phase := ph.toNat, start := some (s.ofDtime st.toNat), agreed := true } else x) ∧
  (∀ (s : State) (h : MsgHdr) (r : Byte), s.runs → s.linkRight h → (s.oldestReq h.port.val = none → exec (.streamReqResponse h r) s = .next (s.linkTook h)) ∧
    (∀ n k, s.oldestReq h.port.val = some n → k = strIdx h.port.val false n → ∃ t, exec (.streamReqResponse h r) s = .next t ∧ (∀ j, j ≠ k → t.strm j = s.strm j) ∧ (r = 0 → t.strm k = { s.strm k with agreed := match (s.strm k).start with | some x => decide (s.now < x) | none => false }) ∧
      (r ≠ 0 → (s.strm k).st ≠ .pending → t.strm k = { s.strm k with start := none }) ∧ (r ≠ 0 → (s.strm k).st = .pending → t.strm k = { Strm.reset with sat := (s.strm k).sat, err := (s.strm k).err } ∧ ∀ q ∈ t.hif.outstanding, some q.id ≠ (s.strm k).id))) ∧
  (∀ (s : State) (p : Fin 4) (n : Fin 12) (k : Nat) (x : Strm), s.runs → k = strIdx p.val false n.val → x = s.strm k → (x.st ≠ .unmatched ∨ (s.port p.val).st ≠ .up ∨ s.now < x.reqAt + 10 * tms → exec (.streamReqRepeat p n) s = .next s) ∧
    (x.st = .unmatched → (s.port p.val).st = .up → x.reqAt + 10 * tms ≤ s.now → ∃ (u : State) (b : List Byte), exec (.streamReqRepeat p n) s = .next (u.portSend p.val (u.localMsg p.val 0x20 false (leBytes 1 n.val ++ leBytes 1 x.rate ++ leBytes 1 x.col ++ leBytes 1 x.phase ++ leBytes 4 0 ++ b))) ∧ s.onlyStrm u k ∧
      u.strm k = { x with start := some s.startTime, agreed := false, reqAt := s.now })) ∧
  (∀ (s : State) (h : MsgHdr) (b : Byte) (k : Nat), s.runs → s.linkRight h → k = strIdx h.port.val (!b.getLsbD 7) (b.toNat % 16) → (12 ≤ b.toNat % 16 → exec (.streamClose h b) s = .next (s.linkTook h)) ∧
    (b.toNat % 16 < 12 → ∃ t, exec (.streamClose h b) s = .next t ∧ (s.linkTook h).onlyStrm t k ∧
      t.strm k = if b.getLsbD 7 then (if (s.strm k).st = .active then { s.strm k with st := .unmatched, start := none, agreed := false } else { s.strm k with agreed := false })
        else if (s.strm k).st = .active ∨ (s.strm k).st = .listen then { s.strm k with st := .listen, start := none, agreed := false, pair := none } else s.strm k)) ∧
  (∀ (s : State) (p : Fin 4) (rc : Bool) (n : Fin 12) (k : Nat) (x : Strm), s.runs → k = strIdx p.val rc n.val → x = s.strm k → ((∀ a ∈ x.start, s.now < a) → exec (.streamStart p rc n) s = .next s) ∧
    (∀ a, x.start = some a → a ≤ s.now → x.agreed = true → (rc = true ∧ x.st = .listen) ∨ (rc = false ∧ x.st = .unmatched) → exec (.streamStart p rc n) s = .next (s.updStrm k (fun x => { x with st := .active, start := none, pairs := 0 }))) ∧
    (∀ a, x.start = some a → a ≤ s.now → rc = false → x.st = .pending → x.agreed = true → s.jl.time = .locked → ∃ t, exec (.streamStart p rc n) s = .next t ∧ t.strm k = { x with st := .active, start := none, id := none, pairs := 0 } ∧ (∀ j, j ≠ k → t.strm j = s.strm j) ∧ ∀ q ∈ t.hif.outstanding, some q.id ≠ x.id) ∧
    (∀ a, x.start = some a → a ≤ s.now → rc = false → x.st = .pending → x.agreed = false ∨ s.jl.time ≠ .locked → ∃ t, exec (.streamStart p rc n) s = .next t ∧ t.strm k = { Strm.reset with sat := x.sat, err := x.err } ∧ (∀ j, j ≠ k → t.strm j = s.strm j) ∧ ∀ q ∈ t.hif.outstanding, some q.id ≠ x.id)) ∧
  (∀ (s : State) (p : Fin 4) (n : Fin 12) (k : Nat), s.runs → k = strIdx p.val false n.val → ((s.strm k).closing = none ∨ s.onGrid schedTk = false ∨ (∀ q ∈ s.pends (isStreamClose k), s.now ≤ q.acc) → exec (.streamStop p n) s = .next s) ∧
    ((s.strm k).closing ≠ none → s.onGrid schedTk = true → (∃ q ∈ s.pends (isStreamClose k), q.acc < s.now) → ∃ t, exec (.streamStop p n) s = .next t ∧ t.strm k = { Strm.reset with sat := (s.strm k).sat, err := (s.strm k).err } ∧ (∀ j, j ≠ k → t.strm j = s.strm j) ∧ t.jl.dirty = true ∧ ∀ q ∈ t.hif.outstanding, isStreamClose k q = false)) ∧
  (∀ (s : State) (p : Fin 4) (n : Fin 12) (k : Nat), s.runs → k = strIdx p.val true n.val → ((s.strm k).closing = none ∨ s.onSmp chainBlk = false → exec (.receiveStreamRampDown p n) s = .next s) ∧
    (∀ q l, (s.strm k).closing ≠ none → s.onSmp chainBlk = true → s.pends (isStreamClose k) = q :: l → (s.now ≤ q.acc → exec (.receiveStreamRampDown p n) s = .next s) ∧
      (q.acc < s.now → q.committed = false → exec (.receiveStreamRampDown p n) s = .next (s.updPend q.id (fun q => { q with committed := true, start := s.now }))) ∧
      (q.acc < s.now → q.committed = true → ∃ t, exec (.receiveStreamRampDown p n) s = .next t ∧ t.strm k = { Strm.reset with sat := (s.strm k).sat, err := (s.strm k).err } ∧ (∀ j, j ≠ k → t.strm j = s.strm j) ∧ t.jl.dirty = true ∧ ∀ q ∈ t.hif.outstanding, isStreamClose k q = false))) ∧
  (∀ (s : State) (p : Fin 4) (n : Fin 12) (k : Nat), s.runs → k = strIdx p.val true n.val → (s.strm k).st = .active → (∀ a b c d, exec (.streamCell p n (.pair a b c d)) s = .next (s.updStrm k (fun x => { x with pair := some (a, b, c, d), pairs := x.pairs + 1 }))) ∧ exec (.streamCell p n .idle) s = .next (s.updStrm k (fun x => { x with pair := none })) ∧
    exec (.streamCell p n .blockError) s = .next ((s.updPort p.val (fun x => { x with blkErr := satInc 0xFFFF x.blkErr })).updStrm k (fun x => { x with pair := some (0, 0, 0, 0), pairs := x.pairs + 1, err := satInc 0xFFFF x.err }))) ∧
  (∀ (s : State) (p : Fin 4) (n : Fin 12) (c : Cell), s.runs → (s.strm (strIdx p.val true n.val)).st ≠ .active → c ≠ .blockError → exec (.streamCell p n c) s = .next s)

/-- The domain (R362, R370, R371, R372, R373, R384, R385, R386, R389, R390, R391, R392): a routed message for another device goes on by its route; HEARTBEAT from upstream keeps the domain, and 3 ms without it put a LOCKED member in HOLDOVER; TIME sets DTIME, slews it, or raises TIME_FAR; a request is executed once, by its MSEQ; JOIN makes a member and is answered, an ID conflict is refused; a REPORT replaces or merges the figures of its sender; a CAP sets or clears the master cap of each slot it names, a bad word as −12 dB with CAP_BAD; an answer frees its request; a request unanswered for JL_TIMEOUT is sent again three times; 100 ms in HOLDOVER put every slot with a master cap in WINTER with cause CASCADE. -/
def Obligations.DomainMessages : Prop :=
  (∀ (s : State) (i : Instr) (h : MsgHdr), s.runs → messageOf i = some h → s.linkRight h → h.dst ≠ 0xFF → h.dst.toNat ≠ s.ownId →
    (∃ a b, i = .heartbeat h a b) ∨ (∃ a, i = .joinResponse h a) ∨ (∃ a b c, i = .report h a b c) ∨ i = .reportResponse h ∨ (∃ a b c, i = .cap h a b c) ∨ (∃ a, i = .capResponse h a) →
    ∃ m : JMsg, m.resp = h.resp ∧ m.src = h.src.toNat ∧ m.dst = h.dst.toNat ∧ m.mseq = h.mseq.toNat ∧ exec i s = .next ((s.linkTook h).routeSend m)) ∧
  (∀ (s : State) (h : MsgHdr) (e : Word) (n : Byte), s.runs → s.linkRight h → h.dst = 0xFF → ((s.port h.port.val).role ≠ 1 → exec (.heartbeat h e n) s = .next ((s.linkTook h).discardMsg h.port.val)) ∧
    ((s.port h.port.val).role = 1 → ∃ t, exec (.heartbeat h e n) s = .next t ∧ t = { s with jl := { s.jl with ports := t.jl.ports, lastHb := s.now, epoch := e, ndev := n, masterId := h.src.toNat } } ∧ ∀ q, (t.port q).st = (s.port q).st)) ∧
  (∀ (s : State), s.runs → (s.isMaster = false ∨ s.now < s.jl.hbAt + tms → exec .heartbeatSend s = .next s) ∧ (s.isMaster = true → s.jl.hbAt + tms ≤ s.now → ∃ t, exec .heartbeatSend s = .next t ∧
    t = { s with jl := { s.jl with hbAt := s.now, ndev := BitVec.ofNat 8 s.jl.devices, ports := t.jl.ports } } ∧ ∀ q, (s.port q).role ≠ 2 ∨ (s.port q).st ≠ .up → t.port q = s.port q)) ∧
  (∀ (s : State), s.runs → (s.now < s.jl.lastHb + 3 * tms ∨ s.isMaster = true ∨ s.jl.time ≠ .locked → exec .heartbeatLoss s = .next s) ∧
    (s.jl.lastHb + 3 * tms ≤ s.now → s.isMaster = false → s.jl.time = .locked → ∃ t, exec .heartbeatLoss s = .next t ∧ t.jl.time = .holdover ∧ t.jl.caphold = true ∧ t.jl.holdAt = some s.now ∧ t.jl.joined = false ∧ (t.fsrc (16 * 15 + 4)).status = true)) ∧
  (∀ (s : State) (h : MsgHdr) (d : Word64) (f : Word) (n : Byte) (w : Int), s.runs → s.linkRight h → w = d.toNat * tns + (s.port h.port.val).delay →
    ((s.port h.port.val).role ≠ 1 → exec (.time h d f n) s = .next ((s.linkTook h).discardMsg h.port.val)) ∧ ((s.port h.port.val).role = 1 → s.isMaster = true ∨ s.jl.conflict = true ∨ s.jl.time = .locking → exec (.time h d f n) s = .next (s.linkTook h)) ∧
    ((s.port h.port.val).role = 1 → s.isMaster = false → s.jl.conflict = false → (s.jl.time = .none → ∃ t, exec (.time h d f n) s = .next t ∧ t.tim = { s.tim with dtRun := true, dtOrigin := s.now - w, slew := 0, slewAt := s.now, framePh := f.toNat * tns, srcUsed := 3 } ∧ t.jl.time = .locking ∧ t.jl.depth = n.toNat + 1) ∧
      (s.jl.time = .locked → 20 * tns < (w - s.dtAt s.now).natAbs → ∃ t, exec (.time h d f n) s = .next t ∧ t.jl.time = .holdover ∧ (t.fsrc (16 * 15 + 6)).status = true ∧ (t.fsrc (16 * 15 + 4)).status = true) ∧
      (s.jl.time = .locked → (w - s.dtAt s.now).natAbs ≤ 20 * tns → s.jl.diffs.length < 15 → ∃ t, exec (.time h d f n) s = .next t ∧ t.tim = s.tim.slewTo s.now (w - s.dtAt s.now) ∧ t.jl.time = .locked ∧ t.jl.diffs = s.jl.diffs ++ [(s.now, w - s.dtAt s.now)]) ∧
      (s.jl.time = .holdover → s.jl.farHeld = true → exec (.time h d f n) s = .next (s.linkTook h)) ∧
      (s.jl.time = .holdover → s.jl.farHeld = false → 20 * tns < (w - s.dtAt s.now).natAbs → ∃ t, exec (.time h d f n) s = .next t ∧ t.jl.farHeld = true ∧ t.jl.time = .holdover ∧ (t.fsrc (16 * 15 + 6)).status = true) ∧
      (s.jl.time = .holdover → s.jl.farHeld = false → (w - s.dtAt s.now).natAbs ≤ 20 * tns → ∃ t, exec (.time h d f n) s = .next t ∧ t.tim = s.tim.slewTo s.now (w - s.dtAt s.now) ∧ t.jl.depth = n.toNat + 1 ∧ (t.jl.time = if (w - s.dtAt s.now).natAbs ≤ 576 then .locked else .holdover)))) ∧
  (∀ (s : State) (p : Fin 4) (due : Prop), s.runs → (due ↔ (s.port p.val).st = .up ∧ (s.port p.val).role = 2 ∧ (s.isMaster = true ∨ s.jl.time = .locked) ∧ s.jl.depth < 4 ∧ ∀ x ∈ (s.port p.val).timeAt, x + tms ≤ s.now) → (¬due → exec (.timeSend p) s = .next s) ∧
    (due → ∃ u : State, s.onlyPort u p.val ∧ u.port p.val = { s.port p.val with timeAt := some s.now } ∧ exec (.timeSend p) s = .next (u.portSend p.val (s.localMsg p.val 2 false (leBytes 8 (s.dtNs / 64 * 64) ++ leBytes 4 (s.tim.framePh / tns) ++ leBytes 8 s.jl.depth))))) ∧
  (∀ (s : State), s.runs → ((s.isMaster = false ∧ (s.jl.time = .none ∨ s.jl.time = .locking) ∧ s.tst.riseAt + 100 * tms ≤ s.now) → exec .masterLost s = .next (s.raise 15 4 .device) ∧ ((s.raise 15 4 .device).fsrc (16 * 15 + 4)).status = true) ∧
    (s.isMaster = true ∨ s.jl.time = .locked ∨ s.jl.time = .holdover ∨ s.now < s.tst.riseAt + 100 * tms → exec .masterLost s = .next s)) ∧
  (∀ (s : State), s.runs → (s.jl.time ≠ .holdover ∨ (∀ a ∈ s.jl.holdAt, s.now < a + 100 * tms) → exec .cascadeHoldoverTimeout s = .next s) ∧
    (∀ a, s.jl.holdAt = some a → s.jl.time = .holdover → a + 100 * tms ≤ s.now → ∃ t, exec .cascadeHoldoverTimeout s = .next t ∧ s.alarmed t ∧ ∀ e ∈ s.gcl, e.2.mcapValid = true → (t.wobj e.1).cause.getLsbD 11 = true)) ∧
  (∀ (s : State) (h : MsgHdr) (v up : Byte) (r : List Half) (e : Nat), s.runs → s.linkRight h → h.dst.toNat = s.ownId → s.isMaster = true → e = s.jl.exp.get 0 h.src.toNat → h.mseq.toNat = e → e < 65536 →
    (s.idTaken h = true → ∃ u : State, exec (.join h v up r) s = .next (u.respond { mtype := 5, resp := true, src := s.ownId, dst := h.src.toNat, mseq := h.mseq.toNat, body := leBytes 4 1 }) ∧ u.jl.members = s.jl.members ∧ u.jl.exp.get 0 h.src.toNat = (e + 1) % 65536) ∧
    (s.idTaken h = false → ∃ t, exec (.join h v up r) s = .next t ∧ t.jl.members = s.jl.members ||| 2 ^ h.src.toNat ∧ t.jl.reach.get [] h.src.toNat = r ∧ t.jl.exp.get 0 h.src.toNat = (e + 1) % 65536 ∧ t.rfe = s.rfe ∧ t.slots = s.slots ∧ t.cx = s.cx)) ∧
  (∀ (s : State) (h : MsgHdr) (r : Byte), s.runs → s.linkRight h → h.dst.toNat = s.ownId → ((s.port h.port.val).role ≠ 1 → exec (.joinResponse h r) s = .next ((s.linkTook h).discardMsg h.port.val)) ∧
    ((s.port h.port.val).role = 1 → r = 1 → ∃ t, exec (.joinResponse h r) s = .next t ∧ t.jl.conflict = true ∧ t.jl.joined = false ∧ (t.fsrc (16 * 15 + 5)).status = true) ∧
    ((s.port h.port.val).role = 1 → r ≠ 1 → ∃ t, exec (.joinResponse h r) s = .next t ∧ t.jl.conflict = s.jl.conflict ∧ t.jl.joined = s.jl.joined ∧ t.jl.time = s.jl.time ∧ t.flt = s.flt ∧ t.tim = s.tim)) ∧
  (∀ (s : State) (h : MsgHdr) (q : Half) (f : Bool) (l : List Word64) (e : Nat), s.runs → s.linkRight h → h.dst.toNat = s.ownId → e = s.jl.exp.get 0 h.src.toNat → e < 65536 → (s.isMaster = false → exec (.report h q f l) s = .next ((s.linkTook h).discardMsg h.port.val)) ∧
    (s.isMaster = true → h.mseq.toNat = e → ∃ t, exec (.report h q f l) s = .next t ∧ t.jl.figs.get [] h.src.toNat = mergeEntries (s.jl.figs.get [] h.src.toNat) l f ∧ (∀ d, d ≠ h.src.toNat → t.jl.figs.get [] d = s.jl.figs.get [] d) ∧ t.jl.exp.get 0 h.src.toNat = (e + 1) % 65536 ∧ t.rfe = s.rfe ∧ t.slots = s.slots) ∧
    (s.isMaster = true → 8 < (e + 65536 - h.mseq.toNat) % 65536 → exec (.report h q f l) s = .next ((s.linkTook h).discardMsg h.port.val))) ∧
  (∀ (s : State) (f : Bool), s.runs → ((if f then s.jl.needFull = false ∧ s.now < s.jl.reportAt + tsec else s.jl.dirty = false) ∨ (s.isMaster = false ∧ (s.jl.time ≠ .locked ∨ s.jl.joined = false ∨ s.jl.conflict = true)) → exec (.reportSend f) s = .next s) ∧
    ((if f then s.jl.needFull = true ∨ s.jl.reportAt + tsec ≤ s.now else s.jl.dirty = true) → s.isMaster = true ∨ (s.jl.time = .locked ∧ s.jl.joined = true ∧ s.jl.conflict = false) → ∃ t, exec (.reportSend f) s = .next t ∧ t.jl.dirty = false ∧ t.jl.rseq = (s.jl.rseq + 1) % 65536 ∧ (t.jl.reportAt = if f then s.now else s.jl.reportAt) ∧ t.jl.needFull = (s.jl.needFull && !f) ∧ t.jl.raisesNew = [] ∧
      (s.isMaster = true → t.jl.figs.get [] s.ownId = s.ownEntries) ∧ t.rfe = s.rfe ∧ t.slots = s.slots ∧ t.cx = s.cx)) ∧
  (∀ (s : State) (h : MsgHdr), s.runs → s.linkRight h → h.dst.toNat = s.ownId → ((s.port h.port.val).role ≠ 1 → exec (.reportResponse h) s = .next ((s.linkTook h).discardMsg h.port.val)) ∧
    ((s.port h.port.val).role = 1 → ∃ t, exec (.reportResponse h) s = .next t ∧ t.jl.raises = s.jl.raises.filter (fun e => decide (e.2 ≠ h.mseq.toNat)) ∧ t.flt = s.flt ∧ t.rfe = s.rfe ∧ t.tim = s.tim)) ∧
  (∀ (s : State) (h : MsgHdr) (q : Half) (l : Bool) (x : CapEntry) (e : Nat), s.runs → s.linkRight h → h.dst.toNat = s.ownId → (s.port h.port.val).role = 1 → e = s.jl.exp.get 0 h.src.toNat → h.mseq.toNat = e → e < 65536 → ∃ t, exec (.cap h q l [x]) s = .next t ∧ t.jl.exp.get 0 h.src.toNat = (e + 1) % 65536 ∧ (t.jl.cseq = if l then q.toNat else s.jl.cseq) ∧
    ((t.gain x.slot.toNat).mcapValid = !x.clear) ∧ ((t.gain x.slot.toNat).capm = if x.clear = false ∧ cwordOk x.cap = true then gainCode x.cap else -1200) ∧ (x.clear = false → cwordOk x.cap = false → (t.fsrc (16 * 15 + 0)).status = true) ∧ (∀ n, n ≠ x.slot.toNat → (t.gain n).mcapValid = (s.gain n).mcapValid ∧ (t.gain n).capm = (s.gain n).capm)) ∧
  (∀ (s : State) (h : MsgHdr) (q : Half), s.runs → s.linkRight h → h.dst.toNat = s.ownId → (s.isMaster = false → exec (.capResponse h q) s = .next ((s.linkTook h).discardMsg h.port.val)) ∧
    (s.isMaster = true → ∃ t, exec (.capResponse h q) s = .next t ∧ t.flt = s.flt ∧ t.rfe = s.rfe ∧ t.jl.figs = s.jl.figs ∧ ∀ o ∈ t.jl.owed, (h.src.toNat, h.mseq.toNat) ∉ o.waits)) ∧
  (∀ (s : State) (d : Fin 16), s.runs → (s.reqsTo d.val = [] → exec (.requestReissue d) s = .next s) ∧ (∀ r l, s.reqsTo d.val = r :: l → (s.now < r.at_ + s.jl.timeout * tus → exec (.requestReissue d) s = .next s) ∧
    (r.at_ + s.jl.timeout * tus ≤ s.now → r.tries < 3 → ∃ u : State, exec (.requestReissue d) s = .next (u.routeSend r.msg) ∧ u = { s with jl := { s.jl with reqs := s.jl.reqs.map (fun q => if q = r then { q with at_ := s.now, tries := q.tries + 1 } else q) } }) ∧
    (r.at_ + s.jl.timeout * tus ≤ s.now → 3 ≤ r.tries → ∃ t, exec (.requestReissue d) s = .next t ∧ (s.isMaster = true → t.jl.figs.get [] d.val = [] ∧ t.jl.members.testBit d.val = false) ∧ (s.isMaster = false → t.jl.needFull = true))))

/-- A step takes the command at the front of the queue and runs it on the machine with the queue's rest. -/
def Obligations.StepRunsFront : Prop :=
  ∀ (c : Instr) (l : List Instr) (s : State), s.pending = c :: l → step s = exec c { s with pending := l }

/-- The model's time and its commands in reset (choices of the model, logs 1 and 43): with nothing waiting a step lets one tick pass and changes nothing else; a command takes no time and leaves the queue; while the device is held in reset every command but those of the test port and of the pins changes nothing. -/
def Obligations.IdleAndHeld : Prop :=
  (∀ (s : State), s.pending = [] → step s = .next { s with now := s.now + 1 }) ∧
  (∀ (c : Instr) (s : State), ∃ t, exec c s = .next t ∧ t.now = s.now ∧ t.pending = s.pending) ∧
  (∀ (c : Instr) (s : State), s.tst.inReset = true → (match c with
      | .extest .. | .samplePreload .. | .idcode .. | .clamp .. | .highz .. | .extestPulse .. | .extestTrain .. | .bypass .. | .tapReset .. | .sysRstNRise .. | .sysRstNFall .. | .strapPinChange .. | .perstNDeassert .. | .railUndervoltage .. | .internalResetEnd .. => False
      | _ => True) → exec c s = .next s)

/-- What registers of every block read at reset, by their BAR0 offsets, as the GEN block and Table 16-2 give them (R440, R441); the straps are those of a device that stands alone. -/
def Obligations.ResetRegisters : Prop :=
  (∀ e ∈ ([(0x00000, 0x00009632), (0x00004, 0x000000B0), (0x00008, 0x28001E1E), (0x00104, 0xFF80007F), (0x0010C, 0x000003E8), (0x10000, 0x10414040), (0x1000C, 0x60000000), (0x10010, 0x00000000), (0x10020, 0x20000000), (0x10024, 0x40000000), (0x10028, 0x20000000), (0x1002C, 0x00000000), (0x11010, 0x60000006), (0x12008, 0x00000006), (0x12110, 0x00000016), (0x20000, 0x02000040)] : List (Nat × Word)), State.reset.regShow .hp e.1 = e.2) ∧
  (∀ e ∈ ([(0x20004, 0x000000F0), (0x20010, 0x80000000), (0x20020, 0xFFFFFFFF), (0x20100, 0x00000080), (0x20104, 0x01000000), (0x20900, 0x80000000), (0x30000, 0xFFFF0000), (0x30100, 0x0000007F), (0x40000, 0x00110400), (0x40008, 0x00000001), (0x44000, 0x00280010), (0x50100, 0x00006464), (0x50400, 0x00006464), (0x8000C, 0x00000500), (0x80810, 0xFFFF0000), (0x80814, 0x0A000000)] : List (Nat × Word)), State.reset.regShow .hp e.1 = e.2) ∧
  (∀ e ∈ ([(0x80818, 0x78643C23), (0x81200, 0x04020000), (0x8310C, 0x00AF6419), (0x90080, 0x00000110), (0x92080, 0x40480100), (0xA0014, 0xFFFF0000), (0xA0028, 0xFFFFFFFF), (0xA0300, 0x40230300), (0xA0304, 0x10430A32), (0xA0308, 0x04B0E890), (0xA030C, 0x000C1520), (0xB0000, 0x00000064), (0xB0004, 0xFFFF0000), (0xB000C, 0x04AFFB50), (0xB001C, 0xF830F830), (0xB0020, 0x00008000)] : List (Nat × Word)), State.reset.regShow .hp e.1 = e.2) ∧
  (∀ e ∈ ([(0xB0024, 0x00640064), (0xB0028, 0x05DC09C4), (0xB4000, 0x4E200000), (0xB4004, 0x0000FFFF), (0xB8000, 0x10190A32), (0xC0000, 0xFFFF0000), (0xC1240, 0x7FFF8000), (0xC1248, 0x00000000), (0xC2000, 0x00000003), (0xC3004, 0x80000000), (0xC5000, 0xFFFF0000), (0xD8000, 0x80100123), (0xE0000, 0x040C0201), (0xE0008, 0x000000C8), (0xE0100, 0x0000000A), (0xF0000, 0x20000000)] : List (Nat × Word)), State.reset.regShow .hp e.1 = e.2)

/-- No port and no event sets a source below its floor: where every SEV register holds at least the floor of each of its sources, every command leaves it so (R315). -/
def Obligations.FloorsKept : Prop :=
  ∀ (c : Instr) (s t : State), (∀ b n, b < 16 → n < (floors b).length → (floors b).getD n 0 ≤ bitsOf (lowHalf (s.sevReg b (decide (8 ≤ n ∧ b = 13)))) (2 * (n % (if b = 13 then 8 else 16))) 2) → exec c s = .next t →
    (∀ b n, b < 16 → n < (floors b).length → (floors b).getD n 0 ≤ bitsOf (lowHalf (t.sevReg b (decide (8 ≤ n ∧ b = 13)))) (2 * (n % (if b = 13 then 8 else 16))) 2 ∧ (floors b).getD n 0 ≤ t.sev b n)

/-- After reset every source's severity in force is at or above its floor (R315). -/
def Obligations.FloorsAtReset : Prop :=
  ∀ b n, b < 16 → n < (floors b).length → (floors b).getD n 0 ≤ bitsOf (lowHalf (State.reset.sevReg b (decide (8 ≤ n ∧ b = 13)))) (2 * (n % (if b = 13 then 8 else 16))) 2 ∧ (floors b).getD n 0 ≤ State.reset.sev b n

/-- Record numbers only grow (R337): no command but a reset and the mount takes the recorder's next number back; a reset keeps the last number assigned in the store; the mount goes on above it and above every record it holds. -/
def Obligations.RecordNumbersGrow : Prop :=
  (∀ (c : Instr) (s t : State), exec c s = .next t → (match c with | .sysRstNFall .. | .sysRstNRise .. | .railUndervoltage .. | .internalResetEnd .. | .recorderMount .. => False | _ => True) → s.recd.nextSeq ≤ t.recd.nextSeq) ∧
  (∀ (s t : State), exec .sysRstNFall s = .next t → s.recd.store.lastSeq ≤ t.recd.store.lastSeq ∧ s.recd.nextSeq ≤ t.recd.store.lastSeq + 1) ∧
  (∀ (s t : State) (b : Bool), s.runs → s.tst.stage = 2 → s.tst.stopped = false → exec (.recorderMount b) s = .next t → s.recd.store.lastSeq < t.recd.nextSeq ∧ s.recd.store.newest < t.recd.nextSeq)

/-- WINTER is left and faults are dropped only as the manual says (R190, R196, R312): a WINTER cause once set stands through every command but a release's commit and a reset; a fault's STATUS once set stands through every command but an acknowledgement and a reset. -/
def Obligations.CausesAndFaultsStand : Prop :=
  (∀ (c : Instr) (s t : State), exec c s = .next t → (match c with | .sysRstNFall .. | .sysRstNRise .. | .railUndervoltage .. | .internalResetEnd .. | .releaseCommit .. => False | _ => True) → ∀ i k, (s.wobj i).cause.getLsbD k = true → (t.wobj i).cause.getLsbD k = true) ∧
  (∀ (c : Instr) (s t : State), exec c s = .next t → (match c with | .sysRstNFall .. | .sysRstNRise .. | .railUndervoltage .. | .internalResetEnd .. | .functionReset .. | .registerWrite .. | .faultAck .. | .tstaccFaultAck .. => False | _ => True) →
    ∀ k, (s.fsrc k).status = true → (t.fsrc k).status = true)

/-- A loop engine's instruction is read back from its word: decoding the encoding of every instruction that has one gives it, with every operand at every value (Tables 8-3, 8-4). -/
def Obligations.UskiharRoundTrip : Prop :=
  ∀ u : UIns, u.wf = true → u.enc < 2 ^ 32 ∧ uDecode u.enc = some u

/-- Words written out from the manual's tables decode to their instructions, and a word that no row gives decodes to none (Tables 8-3, 8-4). -/
def Obligations.UskiharWords : Prop :=
  uDecode 0x80401200 = some (.p .prd 1 0 0x1200) ∧ uDecode 0x24CC0001 = some (.sh .srai 3 3 1) ∧ uDecode 0x8D001208 = some (.p .pwrc 4 0 0x1208) ∧ uDecode 0xFC000001 = some .wait ∧ uDecode 0xFC000003 = none ∧ uDecode 0x00000013 = none
end

