-- ==== Sys2Proof/Laws/Tab.lean ====
section
/-! SUPPORT. The laws of tables: what reads after a write, and that every write keeps the canonical form. -/

namespace Sys2Proof.Machine

variable {α : Type}

@[simp] theorem Tab.get_nil (d : α) (i : Nat) : Tab.get [] d i = d := rfl

theorem Tab.get_cons (k : Nat) (v : α) (r : Tab α) (d : α) (i : Nat) : Tab.get ((k, v) :: r) d i = if k = i then v else Tab.get r d i := rfl

/-- An erased index reads as the default, and every other index reads as before. -/
theorem Tab.get_erase (t : Tab α) (d : α) (i j : Nat) : (Tab.erase t i).get d j = if i = j then d else t.get d j := by
  induction t with
  | nil => simp [Tab.erase]
  | cons e r ih =>
    obtain ⟨k, v⟩ := e
    unfold Tab.erase
    split
    · subst k
      rw [ih, Tab.get_cons]
      by_cases h : i = j <;> simp [h]
    · rw [Tab.get_cons, ih, Tab.get_cons]
      by_cases h : k = j
      · subst j; simp [Ne.symm ‹¬k = i›]
      · simp [h]

/-- After an insertion at i: the new value at i, before at every other index, if i was not listed. -/
theorem Tab.get_insert (t : Tab α) (d : α) (i j : Nat) (v : α) (h : ∀ e ∈ t, e.1 ≠ i) :
    (Tab.insert t i v).get d j = if i = j then v else t.get d j := by
  induction t with
  | nil => rfl
  | cons e r ih =>
    obtain ⟨k, x⟩ := e
    have hk : k ≠ i := h (k, x) (by simp)
    have hr : ∀ e ∈ r, e.1 ≠ i := fun e he => h e (by simp [he])
    unfold Tab.insert
    split
    · rfl
    · rw [Tab.get_cons, ih hr, Tab.get_cons]
      by_cases hj : k = j
      · subst j; simp [Ne.symm hk]
      · simp [hj]

/-- An erased index is not listed. -/
theorem Tab.erase_not_mem (t : Tab α) (i : Nat) : ∀ e ∈ Tab.erase t i, e.1 ≠ i := by
  induction t with
  | nil => intro e he; cases he
  | cons e r ih =>
    obtain ⟨k, v⟩ := e
    unfold Tab.erase
    split
    · exact ih
    · intro e he
      cases he with
      | head => assumption
      | tail _ h => exact ih e h

/-- What is listed after an erasure was listed before. -/
theorem Tab.erase_subset (t : Tab α) (i : Nat) : ∀ e ∈ Tab.erase t i, e ∈ t := by
  induction t with
  | nil => intro e he; cases he
  | cons e r ih =>
    obtain ⟨k, v⟩ := e
    unfold Tab.erase
    split
    · intro e he; exact List.mem_cons_of_mem _ (ih e he)
    · intro e he
      cases he with
      | head => exact List.mem_cons_self
      | tail _ h => exact List.mem_cons_of_mem _ (ih e h)

/-- What is listed after an insertion is the new entry or was listed before. -/
theorem Tab.mem_insert (t : Tab α) (i : Nat) (v : α) (e : Nat × α) (h : e ∈ Tab.insert t i v) : e = (i, v) ∨ e ∈ t := by
  induction t with
  | nil => exact Or.inl (List.mem_singleton.mp h)
  | cons x r ih =>
    obtain ⟨k, y⟩ := x
    unfold Tab.insert at h
    split at h
    · cases h with
      | head => exact Or.inl rfl
      | tail _ h => exact Or.inr h
    · cases h with
      | head => exact Or.inr List.mem_cons_self
      | tail _ h => exact (ih h).imp id (List.mem_cons_of_mem _)

/-- An erasure undoes an insertion at the same index. -/
theorem Tab.erase_insert (t : Tab α) (i : Nat) (v : α) : Tab.erase (Tab.insert t i v) i = Tab.erase t i := by
  induction t with
  | nil => simp [Tab.insert, Tab.erase]
  | cons e r ih =>
    obtain ⟨k, x⟩ := e
    unfold Tab.insert
    split
    · rw [Tab.erase, if_pos rfl]
    · rw [Tab.erase, Tab.erase, ih]

/-- Erasing twice is erasing once. -/
theorem Tab.erase_erase (t : Tab α) (i : Nat) : Tab.erase (Tab.erase t i) i = Tab.erase t i := by
  induction t with
  | nil => rfl
  | cons e r ih =>
    obtain ⟨k, x⟩ := e
    by_cases h : k = i
    · simp only [Tab.erase, if_pos h]; exact ih
    · simp only [Tab.erase, if_neg h]; rw [ih]

variable [DecidableEq α]

/-- A read after a write: the value written at its index, the old value at every other. -/
theorem Tab.get_set (t : Tab α) (d : α) (i j : Nat) (v : α) : (t.set d i v).get d j = if i = j then v else t.get d j := by
  unfold Tab.set
  split
  · subst v; exact Tab.get_erase t d i j
  · rw [Tab.get_insert _ _ _ _ _ (Tab.erase_not_mem t i), Tab.get_erase]
    by_cases h : i = j <;> simp [h]

@[simp] theorem Tab.get_set_self (t : Tab α) (d : α) (i : Nat) (v : α) : (t.set d i v).get d i = v := by simp [Tab.get_set]

/-- A write leaves the other indices alone, whatever default they are read with. -/
theorem Tab.get_set_ne (t : Tab α) (d d' : α) (i j : Nat) (v : α) (h : i ≠ j) : (t.set d i v).get d' j = t.get d' j := by
  unfold Tab.set
  split
  · rw [Tab.get_erase]; simp [h]
  · rw [Tab.get_insert _ _ _ _ _ (Tab.erase_not_mem t i), Tab.get_erase]; simp [h]

/-- The last write of an index counts. -/
theorem Tab.set_set (t : Tab α) (d d' : α) (i : Nat) (v w : α) : (t.set d i v).set d' i w = t.set d' i w := by
  have h : Tab.erase (t.set d i v) i = Tab.erase t i := by
    unfold Tab.set
    split
    · exact Tab.erase_erase t i
    · rw [Tab.erase_insert, Tab.erase_erase]
  conv => lhs; rw [Tab.set, h]
  rfl

@[simp] theorem Tab.get_upd_self (t : Tab α) (d : α) (i : Nat) (f : α → α) : (t.upd d i f).get d i = f (t.get d i) := Tab.get_set_self t d i _

/-- Two changes of one index are one. -/
theorem Tab.upd_upd (t : Tab α) (d : α) (i : Nat) (f g : α → α) : (t.upd d i f).upd d i g = t.upd d i (fun x => g (f x)) := by
  unfold Tab.upd
  rw [Tab.get_set_self, Tab.set_set]

theorem Tab.get_upd_ne (t : Tab α) (d d' : α) (i j : Nat) (f : α → α) (h : i ≠ j) : (t.upd d i f).get d' j = t.get d' j := Tab.get_set_ne t d d' i j _ h

/-- Erasing keeps the canonical form. -/
theorem Tab.erase_wf (t : Tab α) (d : α) (i : Nat) (h : t.wf d = true) : (Tab.erase t i).wf d = true := by
  induction t with
  | nil => rfl
  | cons e r ih =>
    obtain ⟨k, v⟩ := e
    simp only [Tab.wf, Bool.and_eq_true, decide_eq_true_eq, List.all_eq_true] at h
    obtain ⟨⟨hv, hk⟩, hr⟩ := h
    unfold Tab.erase
    split
    · exact ih hr
    · simp only [Tab.wf, Bool.and_eq_true, decide_eq_true_eq, List.all_eq_true]
      exact ⟨⟨hv, fun e he => hk e (Tab.erase_subset r i e he)⟩, ih hr⟩

/-- Inserting a value other than the default at an index that is not listed keeps the canonical form. -/
theorem Tab.insert_wf (t : Tab α) (d : α) (i : Nat) (v : α) (h : t.wf d = true) (hn : ∀ e ∈ t, e.1 ≠ i) (hv : v ≠ d) : (Tab.insert t i v).wf d = true := by
  induction t with
  | nil => simp [Tab.insert, Tab.wf, hv]
  | cons e r ih =>
    obtain ⟨k, x⟩ := e
    have h0 := h
    simp only [Tab.wf, Bool.and_eq_true, decide_eq_true_eq, List.all_eq_true] at h
    obtain ⟨⟨hx, hk⟩, hr⟩ := h
    have hki : k ≠ i := hn (k, x) (by simp)
    unfold Tab.insert
    split
    · rename_i hlt
      rw [Tab.wf]
      simp only [Bool.and_eq_true, decide_eq_true_eq, List.all_eq_true]
      refine ⟨⟨hv, fun e he => ?_⟩, h0⟩
      cases he with
      | head => exact hlt
      | tail _ he => exact Nat.lt_trans hlt (hk e he)
    · simp only [Tab.wf, Bool.and_eq_true, decide_eq_true_eq, List.all_eq_true]
      refine ⟨⟨hx, fun e he => ?_⟩, ih hr (fun e he => hn e (by simp [he]))⟩
      rcases Tab.mem_insert r i v e he with rfl | he
      · exact Nat.lt_of_le_of_ne (Nat.le_of_not_lt ‹_›) hki
      · exact hk e he

/-- Every write keeps the canonical form. -/
theorem Tab.set_wf (t : Tab α) (d : α) (i : Nat) (v : α) (h : t.wf d = true) : (t.set d i v).wf d = true := by
  unfold Tab.set
  split
  · exact Tab.erase_wf t d i h
  · exact Tab.insert_wf _ d i v (Tab.erase_wf t d i h) (Tab.erase_not_mem t i) ‹_›

/-- Every change of one entry keeps the canonical form. -/
theorem Tab.upd_wf (t : Tab α) (d : α) (i : Nat) (f : α → α) (h : t.wf d = true) : (t.upd d i f).wf d = true := Tab.set_wf t d i _ h

/-- A fold that writes a list of entries into a table: the last entry for an index is what it reads. -/
theorem Tab.get_foldl_other (l : List (Nat × α)) (f : α → α) (t : Tab α) (d : α) (i : Nat) (h : ∀ e ∈ l, e.1 ≠ i) :
    (l.foldl (fun a e => Tab.set a d e.1 (f e.2)) t).get d i = t.get d i := by
  induction l generalizing t with
  | nil => rfl
  | cons e r ih =>
    rw [List.foldl_cons, ih _ (fun x hx => h x (List.mem_cons_of_mem _ hx)), Tab.get_set_ne _ _ _ _ _ _ (h e (List.mem_cons_self ..))]

/-- A change of every entry of a canonical table that keeps the default is the change of what every index reads. -/
theorem Tab.get_map (l : Tab α) (f : α → α) (t : Tab α) (d : α) (i : Nat) (hw : l.wf d = true) (hd : f d = d)
    (ht : (∀ e ∈ l, e.1 ≠ i) → t.get d i = d) : (l.foldl (fun a e => Tab.set a d e.1 (f e.2)) t).get d i = f (l.get d i) := by
  induction l generalizing t with
  | nil => rw [Tab.get_nil, hd]; exact ht (fun e he => by cases he)
  | cons e r ih =>
    obtain ⟨k, v⟩ := e
    unfold Tab.wf at hw
    simp only [Bool.and_eq_true, List.all_eq_true, decide_eq_true_eq] at hw
    rw [List.foldl_cons, Tab.get_cons]
    by_cases hk : k = i
    · subst hk
      rw [if_pos rfl, Tab.get_foldl_other _ _ _ _ _ (fun x hx => by have := hw.1.2 x hx; omega), Tab.get_set_self]
    · rw [if_neg hk]
      refine ih _ hw.2 (fun hr => ?_)
      rw [Tab.get_set_ne _ _ _ _ _ _ hk]
      exact ht (fun x hx => by
        rcases List.mem_cons.mp hx with hx | hx
        · subst hx; exact hk
        · exact hr x hx)

omit [DecidableEq α] in
/-- What a canonical table reads at an index it does not list. -/
theorem Tab.get_absent (t : Tab α) (d : α) (i : Nat) (h : ∀ e ∈ t, e.1 ≠ i) : t.get d i = d := by
  induction t with
  | nil => rfl
  | cons e r ih =>
    obtain ⟨k, v⟩ := e
    rw [Tab.get_cons, if_neg (h _ (List.mem_cons_self ..))]
    exact ih (fun x hx => h x (List.mem_cons_of_mem _ hx))

end Sys2Proof.Machine
end

