-- ==== Sys2Proof/Laws/State.lean ====
section
/-! SUPPORT. What each change of one part of the state leaves alone, and what is read after it: one lemma per field per update. -/

namespace Sys2Proof.Machine

variable (s : State) (i j : Nat)

/-! ## updChain -/

@[simp] theorem State.updChain_now (f : Chain → Chain) : (s.updChain i f).now = s.now := rfl
@[simp] theorem State.updChain_hif (f : Chain → Chain) : (s.updChain i f).hif = s.hif := rfl
@[simp] theorem State.updChain_intc (f : Chain → Chain) : (s.updChain i f).intc = s.intc := rfl
@[simp] theorem State.updChain_flt (f : Chain → Chain) : (s.updChain i f).flt = s.flt := rfl
@[simp] theorem State.updChain_recd (f : Chain → Chain) : (s.updChain i f).recd = s.recd := rfl
@[simp] theorem State.updChain_slots (f : Chain → Chain) : (s.updChain i f).slots = s.slots := rfl
@[simp] theorem State.updChain_cx (f : Chain → Chain) : (s.updChain i f).cx = s.cx := rfl
@[simp] theorem State.updChain_cxPol (f : Chain → Chain) : (s.updChain i f).cxPol = s.cxPol := rfl
@[simp] theorem State.updChain_gcl (f : Chain → Chain) : (s.updChain i f).gcl = s.gcl := rfl
@[simp] theorem State.updChain_luts (f : Chain → Chain) : (s.updChain i f).luts = s.luts := rfl
@[simp] theorem State.updChain_prot (f : Chain → Chain) : (s.updChain i f).prot = s.prot := rfl
@[simp] theorem State.updChain_tim (f : Chain → Chain) : (s.updChain i f).tim = s.tim := rfl
@[simp] theorem State.updChain_le (f : Chain → Chain) : (s.updChain i f).le = s.le := rfl
@[simp] theorem State.updChain_jl (f : Chain → Chain) : (s.updChain i f).jl = s.jl := rfl
@[simp] theorem State.updChain_tst (f : Chain → Chain) : (s.updChain i f).tst = s.tst := rfl
@[simp] theorem State.updChain_freeCnt (f : Chain → Chain) : (s.updChain i f).freeCnt = s.freeCnt := rfl
@[simp] theorem State.updChain_pending (f : Chain → Chain) : (s.updChain i f).pending = s.pending := rfl
@[simp] theorem State.updChain_rfe_tx (f : Chain → Chain) : (s.updChain i f).rfe.tx = s.rfe.tx := rfl
@[simp] theorem State.updChain_rfe_dcb (f : Chain → Chain) : (s.updChain i f).rfe.dcb = s.rfe.dcb := rfl
@[simp] theorem State.updChain_rfe_fecb (f : Chain → Chain) : (s.updChain i f).rfe.fecb = s.rfe.fecb := rfl
@[simp] theorem State.updChain_rfe_scheds (f : Chain → Chain) : (s.updChain i f).rfe.scheds = s.rfe.scheds := rfl
@[simp] theorem State.updChain_rfe_tddsw (f : Chain → Chain) : (s.updChain i f).rfe.tddsw = s.rfe.tddsw := rfl
@[simp] theorem State.updChain_rfe_refOk (f : Chain → Chain) : (s.updChain i f).rfe.refOk = s.rfe.refOk := rfl
@[simp] theorem State.updChain_rfe_ckLocked (f : Chain → Chain) : (s.updChain i f).rfe.ckLocked = s.rfe.ckLocked := rfl

@[simp] theorem State.chain_updChain (f : Chain → Chain) : (s.updChain i f).chain i = f (s.chain i) := Tab.get_upd_self _ _ _ _
theorem State.chain_updChain_ne (f : Chain → Chain) (h : i ≠ j) : (s.updChain i f).chain j = s.chain j := Tab.get_upd_ne _ _ _ _ _ _ h
theorem State.chain_updChain_at (f : Chain → Chain) : (s.updChain i f).chain j = if i = j then f (s.chain i) else s.chain j := by
  split
  · subst j; exact State.chain_updChain s i f
  · exact State.chain_updChain_ne s i j f ‹_›
theorem State.updChain_twice (f g : Chain → Chain) : (s.updChain i f).updChain i g = s.updChain i (fun x => g (f x)) := by
  unfold State.updChain; dsimp only; rw [Tab.upd_upd]
@[simp] theorem State.txc_updChain (f : Chain → Chain) : (s.updChain i f).txc j = s.txc j := rfl
@[simp] theorem State.dcb_updChain (f : Chain → Chain) : (s.updChain i f).dcb j = s.dcb j := rfl
@[simp] theorem State.fecb_updChain (f : Chain → Chain) : (s.updChain i f).fecb j = s.fecb j := rfl
@[simp] theorem State.sched_updChain (f : Chain → Chain) : (s.updChain i f).sched j = s.sched j := rfl
@[simp] theorem State.slot_updChain (f : Chain → Chain) : (s.updChain i f).slot j = s.slot j := rfl
@[simp] theorem State.inst_updChain (f : Chain → Chain) : (s.updChain i f).inst j = s.inst j := rfl
@[simp] theorem State.gain_updChain (f : Chain → Chain) : (s.updChain i f).gain j = s.gain j := rfl
@[simp] theorem State.lut_updChain (f : Chain → Chain) : (s.updChain i f).lut j = s.lut j := rfl
@[simp] theorem State.wobj_updChain (f : Chain → Chain) : (s.updChain i f).wobj j = s.wobj j := rfl
@[simp] theorem State.net_updChain (f : Chain → Chain) : (s.updChain i f).net j = s.net j := rfl
@[simp] theorem State.rxDet_updChain (f : Chain → Chain) : (s.updChain i f).rxDet j = s.rxDet j := rfl
@[simp] theorem State.ring_updChain (f : Chain → Chain) : (s.updChain i f).ring j = s.ring j := rfl
@[simp] theorem State.trRing_updChain (f : Chain → Chain) : (s.updChain i f).trRing j = s.trRing j := rfl
@[simp] theorem State.vec_updChain (f : Chain → Chain) : (s.updChain i f).vec j = s.vec j := rfl
@[simp] theorem State.fsrc_updChain (f : Chain → Chain) : (s.updChain i f).fsrc j = s.fsrc j := rfl
@[simp] theorem State.tileT_updChain (f : Chain → Chain) : (s.updChain i f).tileT j = s.tileT j := rfl
@[simp] theorem State.eng_updChain (f : Chain → Chain) : (s.updChain i f).eng j = s.eng j := rfl
@[simp] theorem State.task_updChain (f : Chain → Chain) : (s.updChain i f).task j = s.task j := rfl
@[simp] theorem State.port_updChain (f : Chain → Chain) : (s.updChain i f).port j = s.port j := rfl
@[simp] theorem State.strm_updChain (f : Chain → Chain) : (s.updChain i f).strm j = s.strm j := rfl
@[simp] theorem State.bucket_updChain (f : Chain → Chain) : (s.updChain i f).bucket j = s.bucket j := rfl

/-! ## updTx -/

@[simp] theorem State.updTx_now (f : TxCh → TxCh) : (s.updTx i f).now = s.now := rfl
@[simp] theorem State.updTx_hif (f : TxCh → TxCh) : (s.updTx i f).hif = s.hif := rfl
@[simp] theorem State.updTx_intc (f : TxCh → TxCh) : (s.updTx i f).intc = s.intc := rfl
@[simp] theorem State.updTx_flt (f : TxCh → TxCh) : (s.updTx i f).flt = s.flt := rfl
@[simp] theorem State.updTx_recd (f : TxCh → TxCh) : (s.updTx i f).recd = s.recd := rfl
@[simp] theorem State.updTx_slots (f : TxCh → TxCh) : (s.updTx i f).slots = s.slots := rfl
@[simp] theorem State.updTx_cx (f : TxCh → TxCh) : (s.updTx i f).cx = s.cx := rfl
@[simp] theorem State.updTx_cxPol (f : TxCh → TxCh) : (s.updTx i f).cxPol = s.cxPol := rfl
@[simp] theorem State.updTx_gcl (f : TxCh → TxCh) : (s.updTx i f).gcl = s.gcl := rfl
@[simp] theorem State.updTx_luts (f : TxCh → TxCh) : (s.updTx i f).luts = s.luts := rfl
@[simp] theorem State.updTx_prot (f : TxCh → TxCh) : (s.updTx i f).prot = s.prot := rfl
@[simp] theorem State.updTx_tim (f : TxCh → TxCh) : (s.updTx i f).tim = s.tim := rfl
@[simp] theorem State.updTx_le (f : TxCh → TxCh) : (s.updTx i f).le = s.le := rfl
@[simp] theorem State.updTx_jl (f : TxCh → TxCh) : (s.updTx i f).jl = s.jl := rfl
@[simp] theorem State.updTx_tst (f : TxCh → TxCh) : (s.updTx i f).tst = s.tst := rfl
@[simp] theorem State.updTx_freeCnt (f : TxCh → TxCh) : (s.updTx i f).freeCnt = s.freeCnt := rfl
@[simp] theorem State.updTx_pending (f : TxCh → TxCh) : (s.updTx i f).pending = s.pending := rfl
@[simp] theorem State.updTx_rfe_chains (f : TxCh → TxCh) : (s.updTx i f).rfe.chains = s.rfe.chains := rfl
@[simp] theorem State.updTx_rfe_dcb (f : TxCh → TxCh) : (s.updTx i f).rfe.dcb = s.rfe.dcb := rfl
@[simp] theorem State.updTx_rfe_fecb (f : TxCh → TxCh) : (s.updTx i f).rfe.fecb = s.rfe.fecb := rfl
@[simp] theorem State.updTx_rfe_scheds (f : TxCh → TxCh) : (s.updTx i f).rfe.scheds = s.rfe.scheds := rfl
@[simp] theorem State.updTx_rfe_tddsw (f : TxCh → TxCh) : (s.updTx i f).rfe.tddsw = s.rfe.tddsw := rfl
@[simp] theorem State.updTx_rfe_refOk (f : TxCh → TxCh) : (s.updTx i f).rfe.refOk = s.rfe.refOk := rfl
@[simp] theorem State.updTx_rfe_ckLocked (f : TxCh → TxCh) : (s.updTx i f).rfe.ckLocked = s.rfe.ckLocked := rfl

@[simp] theorem State.txc_updTx (f : TxCh → TxCh) : (s.updTx i f).txc i = f (s.txc i) := Tab.get_upd_self _ _ _ _
theorem State.txc_updTx_ne (f : TxCh → TxCh) (h : i ≠ j) : (s.updTx i f).txc j = s.txc j := Tab.get_upd_ne _ _ _ _ _ _ h
theorem State.txc_updTx_at (f : TxCh → TxCh) : (s.updTx i f).txc j = if i = j then f (s.txc i) else s.txc j := by
  split
  · subst j; exact State.txc_updTx s i f
  · exact State.txc_updTx_ne s i j f ‹_›
theorem State.updTx_twice (f g : TxCh → TxCh) : (s.updTx i f).updTx i g = s.updTx i (fun x => g (f x)) := by
  unfold State.updTx; dsimp only; rw [Tab.upd_upd]
@[simp] theorem State.chain_updTx (f : TxCh → TxCh) : (s.updTx i f).chain j = s.chain j := rfl
@[simp] theorem State.dcb_updTx (f : TxCh → TxCh) : (s.updTx i f).dcb j = s.dcb j := rfl
@[simp] theorem State.fecb_updTx (f : TxCh → TxCh) : (s.updTx i f).fecb j = s.fecb j := rfl
@[simp] theorem State.sched_updTx (f : TxCh → TxCh) : (s.updTx i f).sched j = s.sched j := rfl
@[simp] theorem State.slot_updTx (f : TxCh → TxCh) : (s.updTx i f).slot j = s.slot j := rfl
@[simp] theorem State.inst_updTx (f : TxCh → TxCh) : (s.updTx i f).inst j = s.inst j := rfl
@[simp] theorem State.gain_updTx (f : TxCh → TxCh) : (s.updTx i f).gain j = s.gain j := rfl
@[simp] theorem State.lut_updTx (f : TxCh → TxCh) : (s.updTx i f).lut j = s.lut j := rfl
@[simp] theorem State.wobj_updTx (f : TxCh → TxCh) : (s.updTx i f).wobj j = s.wobj j := rfl
@[simp] theorem State.net_updTx (f : TxCh → TxCh) : (s.updTx i f).net j = s.net j := rfl
@[simp] theorem State.rxDet_updTx (f : TxCh → TxCh) : (s.updTx i f).rxDet j = s.rxDet j := rfl
@[simp] theorem State.ring_updTx (f : TxCh → TxCh) : (s.updTx i f).ring j = s.ring j := rfl
@[simp] theorem State.trRing_updTx (f : TxCh → TxCh) : (s.updTx i f).trRing j = s.trRing j := rfl
@[simp] theorem State.vec_updTx (f : TxCh → TxCh) : (s.updTx i f).vec j = s.vec j := rfl
@[simp] theorem State.fsrc_updTx (f : TxCh → TxCh) : (s.updTx i f).fsrc j = s.fsrc j := rfl
@[simp] theorem State.tileT_updTx (f : TxCh → TxCh) : (s.updTx i f).tileT j = s.tileT j := rfl
@[simp] theorem State.eng_updTx (f : TxCh → TxCh) : (s.updTx i f).eng j = s.eng j := rfl
@[simp] theorem State.task_updTx (f : TxCh → TxCh) : (s.updTx i f).task j = s.task j := rfl
@[simp] theorem State.port_updTx (f : TxCh → TxCh) : (s.updTx i f).port j = s.port j := rfl
@[simp] theorem State.strm_updTx (f : TxCh → TxCh) : (s.updTx i f).strm j = s.strm j := rfl
@[simp] theorem State.bucket_updTx (f : TxCh → TxCh) : (s.updTx i f).bucket j = s.bucket j := rfl

/-! ## updDcb -/

@[simp] theorem State.updDcb_now (f : Dcb → Dcb) : (s.updDcb i f).now = s.now := rfl
@[simp] theorem State.updDcb_hif (f : Dcb → Dcb) : (s.updDcb i f).hif = s.hif := rfl
@[simp] theorem State.updDcb_intc (f : Dcb → Dcb) : (s.updDcb i f).intc = s.intc := rfl
@[simp] theorem State.updDcb_flt (f : Dcb → Dcb) : (s.updDcb i f).flt = s.flt := rfl
@[simp] theorem State.updDcb_recd (f : Dcb → Dcb) : (s.updDcb i f).recd = s.recd := rfl
@[simp] theorem State.updDcb_slots (f : Dcb → Dcb) : (s.updDcb i f).slots = s.slots := rfl
@[simp] theorem State.updDcb_cx (f : Dcb → Dcb) : (s.updDcb i f).cx = s.cx := rfl
@[simp] theorem State.updDcb_cxPol (f : Dcb → Dcb) : (s.updDcb i f).cxPol = s.cxPol := rfl
@[simp] theorem State.updDcb_gcl (f : Dcb → Dcb) : (s.updDcb i f).gcl = s.gcl := rfl
@[simp] theorem State.updDcb_luts (f : Dcb → Dcb) : (s.updDcb i f).luts = s.luts := rfl
@[simp] theorem State.updDcb_prot (f : Dcb → Dcb) : (s.updDcb i f).prot = s.prot := rfl
@[simp] theorem State.updDcb_tim (f : Dcb → Dcb) : (s.updDcb i f).tim = s.tim := rfl
@[simp] theorem State.updDcb_le (f : Dcb → Dcb) : (s.updDcb i f).le = s.le := rfl
@[simp] theorem State.updDcb_jl (f : Dcb → Dcb) : (s.updDcb i f).jl = s.jl := rfl
@[simp] theorem State.updDcb_tst (f : Dcb → Dcb) : (s.updDcb i f).tst = s.tst := rfl
@[simp] theorem State.updDcb_freeCnt (f : Dcb → Dcb) : (s.updDcb i f).freeCnt = s.freeCnt := rfl
@[simp] theorem State.updDcb_pending (f : Dcb → Dcb) : (s.updDcb i f).pending = s.pending := rfl
@[simp] theorem State.updDcb_rfe_chains (f : Dcb → Dcb) : (s.updDcb i f).rfe.chains = s.rfe.chains := rfl
@[simp] theorem State.updDcb_rfe_tx (f : Dcb → Dcb) : (s.updDcb i f).rfe.tx = s.rfe.tx := rfl
@[simp] theorem State.updDcb_rfe_fecb (f : Dcb → Dcb) : (s.updDcb i f).rfe.fecb = s.rfe.fecb := rfl
@[simp] theorem State.updDcb_rfe_scheds (f : Dcb → Dcb) : (s.updDcb i f).rfe.scheds = s.rfe.scheds := rfl
@[simp] theorem State.updDcb_rfe_tddsw (f : Dcb → Dcb) : (s.updDcb i f).rfe.tddsw = s.rfe.tddsw := rfl
@[simp] theorem State.updDcb_rfe_refOk (f : Dcb → Dcb) : (s.updDcb i f).rfe.refOk = s.rfe.refOk := rfl
@[simp] theorem State.updDcb_rfe_ckLocked (f : Dcb → Dcb) : (s.updDcb i f).rfe.ckLocked = s.rfe.ckLocked := rfl

@[simp] theorem State.dcb_updDcb (f : Dcb → Dcb) : (s.updDcb i f).dcb i = f (s.dcb i) := Tab.get_upd_self _ _ _ _
theorem State.dcb_updDcb_ne (f : Dcb → Dcb) (h : i ≠ j) : (s.updDcb i f).dcb j = s.dcb j := Tab.get_upd_ne _ _ _ _ _ _ h
theorem State.dcb_updDcb_at (f : Dcb → Dcb) : (s.updDcb i f).dcb j = if i = j then f (s.dcb i) else s.dcb j := by
  split
  · subst j; exact State.dcb_updDcb s i f
  · exact State.dcb_updDcb_ne s i j f ‹_›
theorem State.updDcb_twice (f g : Dcb → Dcb) : (s.updDcb i f).updDcb i g = s.updDcb i (fun x => g (f x)) := by
  unfold State.updDcb; dsimp only; rw [Tab.upd_upd]
@[simp] theorem State.chain_updDcb (f : Dcb → Dcb) : (s.updDcb i f).chain j = s.chain j := rfl
@[simp] theorem State.txc_updDcb (f : Dcb → Dcb) : (s.updDcb i f).txc j = s.txc j := rfl
@[simp] theorem State.fecb_updDcb (f : Dcb → Dcb) : (s.updDcb i f).fecb j = s.fecb j := rfl
@[simp] theorem State.sched_updDcb (f : Dcb → Dcb) : (s.updDcb i f).sched j = s.sched j := rfl
@[simp] theorem State.slot_updDcb (f : Dcb → Dcb) : (s.updDcb i f).slot j = s.slot j := rfl
@[simp] theorem State.inst_updDcb (f : Dcb → Dcb) : (s.updDcb i f).inst j = s.inst j := rfl
@[simp] theorem State.gain_updDcb (f : Dcb → Dcb) : (s.updDcb i f).gain j = s.gain j := rfl
@[simp] theorem State.lut_updDcb (f : Dcb → Dcb) : (s.updDcb i f).lut j = s.lut j := rfl
@[simp] theorem State.wobj_updDcb (f : Dcb → Dcb) : (s.updDcb i f).wobj j = s.wobj j := rfl
@[simp] theorem State.net_updDcb (f : Dcb → Dcb) : (s.updDcb i f).net j = s.net j := rfl
@[simp] theorem State.rxDet_updDcb (f : Dcb → Dcb) : (s.updDcb i f).rxDet j = s.rxDet j := rfl
@[simp] theorem State.ring_updDcb (f : Dcb → Dcb) : (s.updDcb i f).ring j = s.ring j := rfl
@[simp] theorem State.trRing_updDcb (f : Dcb → Dcb) : (s.updDcb i f).trRing j = s.trRing j := rfl
@[simp] theorem State.vec_updDcb (f : Dcb → Dcb) : (s.updDcb i f).vec j = s.vec j := rfl
@[simp] theorem State.fsrc_updDcb (f : Dcb → Dcb) : (s.updDcb i f).fsrc j = s.fsrc j := rfl
@[simp] theorem State.tileT_updDcb (f : Dcb → Dcb) : (s.updDcb i f).tileT j = s.tileT j := rfl
@[simp] theorem State.eng_updDcb (f : Dcb → Dcb) : (s.updDcb i f).eng j = s.eng j := rfl
@[simp] theorem State.task_updDcb (f : Dcb → Dcb) : (s.updDcb i f).task j = s.task j := rfl
@[simp] theorem State.port_updDcb (f : Dcb → Dcb) : (s.updDcb i f).port j = s.port j := rfl
@[simp] theorem State.strm_updDcb (f : Dcb → Dcb) : (s.updDcb i f).strm j = s.strm j := rfl
@[simp] theorem State.bucket_updDcb (f : Dcb → Dcb) : (s.updDcb i f).bucket j = s.bucket j := rfl

/-! ## updFecb -/

@[simp] theorem State.updFecb_now (f : Fecb → Fecb) : (s.updFecb i f).now = s.now := rfl
@[simp] theorem State.updFecb_hif (f : Fecb → Fecb) : (s.updFecb i f).hif = s.hif := rfl
@[simp] theorem State.updFecb_intc (f : Fecb → Fecb) : (s.updFecb i f).intc = s.intc := rfl
@[simp] theorem State.updFecb_flt (f : Fecb → Fecb) : (s.updFecb i f).flt = s.flt := rfl
@[simp] theorem State.updFecb_recd (f : Fecb → Fecb) : (s.updFecb i f).recd = s.recd := rfl
@[simp] theorem State.updFecb_slots (f : Fecb → Fecb) : (s.updFecb i f).slots = s.slots := rfl
@[simp] theorem State.updFecb_cx (f : Fecb → Fecb) : (s.updFecb i f).cx = s.cx := rfl
@[simp] theorem State.updFecb_cxPol (f : Fecb → Fecb) : (s.updFecb i f).cxPol = s.cxPol := rfl
@[simp] theorem State.updFecb_gcl (f : Fecb → Fecb) : (s.updFecb i f).gcl = s.gcl := rfl
@[simp] theorem State.updFecb_luts (f : Fecb → Fecb) : (s.updFecb i f).luts = s.luts := rfl
@[simp] theorem State.updFecb_prot (f : Fecb → Fecb) : (s.updFecb i f).prot = s.prot := rfl
@[simp] theorem State.updFecb_tim (f : Fecb → Fecb) : (s.updFecb i f).tim = s.tim := rfl
@[simp] theorem State.updFecb_le (f : Fecb → Fecb) : (s.updFecb i f).le = s.le := rfl
@[simp] theorem State.updFecb_jl (f : Fecb → Fecb) : (s.updFecb i f).jl = s.jl := rfl
@[simp] theorem State.updFecb_tst (f : Fecb → Fecb) : (s.updFecb i f).tst = s.tst := rfl
@[simp] theorem State.updFecb_freeCnt (f : Fecb → Fecb) : (s.updFecb i f).freeCnt = s.freeCnt := rfl
@[simp] theorem State.updFecb_pending (f : Fecb → Fecb) : (s.updFecb i f).pending = s.pending := rfl
@[simp] theorem State.updFecb_rfe_chains (f : Fecb → Fecb) : (s.updFecb i f).rfe.chains = s.rfe.chains := rfl
@[simp] theorem State.updFecb_rfe_tx (f : Fecb → Fecb) : (s.updFecb i f).rfe.tx = s.rfe.tx := rfl
@[simp] theorem State.updFecb_rfe_dcb (f : Fecb → Fecb) : (s.updFecb i f).rfe.dcb = s.rfe.dcb := rfl
@[simp] theorem State.updFecb_rfe_scheds (f : Fecb → Fecb) : (s.updFecb i f).rfe.scheds = s.rfe.scheds := rfl
@[simp] theorem State.updFecb_rfe_tddsw (f : Fecb → Fecb) : (s.updFecb i f).rfe.tddsw = s.rfe.tddsw := rfl
@[simp] theorem State.updFecb_rfe_refOk (f : Fecb → Fecb) : (s.updFecb i f).rfe.refOk = s.rfe.refOk := rfl
@[simp] theorem State.updFecb_rfe_ckLocked (f : Fecb → Fecb) : (s.updFecb i f).rfe.ckLocked = s.rfe.ckLocked := rfl

@[simp] theorem State.fecb_updFecb (f : Fecb → Fecb) : (s.updFecb i f).fecb i = f (s.fecb i) := Tab.get_upd_self _ _ _ _
theorem State.fecb_updFecb_ne (f : Fecb → Fecb) (h : i ≠ j) : (s.updFecb i f).fecb j = s.fecb j := Tab.get_upd_ne _ _ _ _ _ _ h
theorem State.fecb_updFecb_at (f : Fecb → Fecb) : (s.updFecb i f).fecb j = if i = j then f (s.fecb i) else s.fecb j := by
  split
  · subst j; exact State.fecb_updFecb s i f
  · exact State.fecb_updFecb_ne s i j f ‹_›
theorem State.updFecb_twice (f g : Fecb → Fecb) : (s.updFecb i f).updFecb i g = s.updFecb i (fun x => g (f x)) := by
  unfold State.updFecb; dsimp only; rw [Tab.upd_upd]
@[simp] theorem State.chain_updFecb (f : Fecb → Fecb) : (s.updFecb i f).chain j = s.chain j := rfl
@[simp] theorem State.txc_updFecb (f : Fecb → Fecb) : (s.updFecb i f).txc j = s.txc j := rfl
@[simp] theorem State.dcb_updFecb (f : Fecb → Fecb) : (s.updFecb i f).dcb j = s.dcb j := rfl
@[simp] theorem State.sched_updFecb (f : Fecb → Fecb) : (s.updFecb i f).sched j = s.sched j := rfl
@[simp] theorem State.slot_updFecb (f : Fecb → Fecb) : (s.updFecb i f).slot j = s.slot j := rfl
@[simp] theorem State.inst_updFecb (f : Fecb → Fecb) : (s.updFecb i f).inst j = s.inst j := rfl
@[simp] theorem State.gain_updFecb (f : Fecb → Fecb) : (s.updFecb i f).gain j = s.gain j := rfl
@[simp] theorem State.lut_updFecb (f : Fecb → Fecb) : (s.updFecb i f).lut j = s.lut j := rfl
@[simp] theorem State.wobj_updFecb (f : Fecb → Fecb) : (s.updFecb i f).wobj j = s.wobj j := rfl
@[simp] theorem State.net_updFecb (f : Fecb → Fecb) : (s.updFecb i f).net j = s.net j := rfl
@[simp] theorem State.rxDet_updFecb (f : Fecb → Fecb) : (s.updFecb i f).rxDet j = s.rxDet j := rfl
@[simp] theorem State.ring_updFecb (f : Fecb → Fecb) : (s.updFecb i f).ring j = s.ring j := rfl
@[simp] theorem State.trRing_updFecb (f : Fecb → Fecb) : (s.updFecb i f).trRing j = s.trRing j := rfl
@[simp] theorem State.vec_updFecb (f : Fecb → Fecb) : (s.updFecb i f).vec j = s.vec j := rfl
@[simp] theorem State.fsrc_updFecb (f : Fecb → Fecb) : (s.updFecb i f).fsrc j = s.fsrc j := rfl
@[simp] theorem State.tileT_updFecb (f : Fecb → Fecb) : (s.updFecb i f).tileT j = s.tileT j := rfl
@[simp] theorem State.eng_updFecb (f : Fecb → Fecb) : (s.updFecb i f).eng j = s.eng j := rfl
@[simp] theorem State.task_updFecb (f : Fecb → Fecb) : (s.updFecb i f).task j = s.task j := rfl
@[simp] theorem State.port_updFecb (f : Fecb → Fecb) : (s.updFecb i f).port j = s.port j := rfl
@[simp] theorem State.strm_updFecb (f : Fecb → Fecb) : (s.updFecb i f).strm j = s.strm j := rfl
@[simp] theorem State.bucket_updFecb (f : Fecb → Fecb) : (s.updFecb i f).bucket j = s.bucket j := rfl

/-! ## updSched -/

@[simp] theorem State.updSched_now (f : Sched → Sched) : (s.updSched i f).now = s.now := rfl
@[simp] theorem State.updSched_hif (f : Sched → Sched) : (s.updSched i f).hif = s.hif := rfl
@[simp] theorem State.updSched_intc (f : Sched → Sched) : (s.updSched i f).intc = s.intc := rfl
@[simp] theorem State.updSched_flt (f : Sched → Sched) : (s.updSched i f).flt = s.flt := rfl
@[simp] theorem State.updSched_recd (f : Sched → Sched) : (s.updSched i f).recd = s.recd := rfl
@[simp] theorem State.updSched_slots (f : Sched → Sched) : (s.updSched i f).slots = s.slots := rfl
@[simp] theorem State.updSched_cx (f : Sched → Sched) : (s.updSched i f).cx = s.cx := rfl
@[simp] theorem State.updSched_cxPol (f : Sched → Sched) : (s.updSched i f).cxPol = s.cxPol := rfl
@[simp] theorem State.updSched_gcl (f : Sched → Sched) : (s.updSched i f).gcl = s.gcl := rfl
@[simp] theorem State.updSched_luts (f : Sched → Sched) : (s.updSched i f).luts = s.luts := rfl
@[simp] theorem State.updSched_prot (f : Sched → Sched) : (s.updSched i f).prot = s.prot := rfl
@[simp] theorem State.updSched_tim (f : Sched → Sched) : (s.updSched i f).tim = s.tim := rfl
@[simp] theorem State.updSched_le (f : Sched → Sched) : (s.updSched i f).le = s.le := rfl
@[simp] theorem State.updSched_jl (f : Sched → Sched) : (s.updSched i f).jl = s.jl := rfl
@[simp] theorem State.updSched_tst (f : Sched → Sched) : (s.updSched i f).tst = s.tst := rfl
@[simp] theorem State.updSched_freeCnt (f : Sched → Sched) : (s.updSched i f).freeCnt = s.freeCnt := rfl
@[simp] theorem State.updSched_pending (f : Sched → Sched) : (s.updSched i f).pending = s.pending := rfl
@[simp] theorem State.updSched_rfe_chains (f : Sched → Sched) : (s.updSched i f).rfe.chains = s.rfe.chains := rfl
@[simp] theorem State.updSched_rfe_tx (f : Sched → Sched) : (s.updSched i f).rfe.tx = s.rfe.tx := rfl
@[simp] theorem State.updSched_rfe_dcb (f : Sched → Sched) : (s.updSched i f).rfe.dcb = s.rfe.dcb := rfl
@[simp] theorem State.updSched_rfe_fecb (f : Sched → Sched) : (s.updSched i f).rfe.fecb = s.rfe.fecb := rfl
@[simp] theorem State.updSched_rfe_tddsw (f : Sched → Sched) : (s.updSched i f).rfe.tddsw = s.rfe.tddsw := rfl
@[simp] theorem State.updSched_rfe_refOk (f : Sched → Sched) : (s.updSched i f).rfe.refOk = s.rfe.refOk := rfl
@[simp] theorem State.updSched_rfe_ckLocked (f : Sched → Sched) : (s.updSched i f).rfe.ckLocked = s.rfe.ckLocked := rfl

@[simp] theorem State.sched_updSched (f : Sched → Sched) : (s.updSched i f).sched i = f (s.sched i) := Tab.get_upd_self _ _ _ _
theorem State.sched_updSched_ne (f : Sched → Sched) (h : i ≠ j) : (s.updSched i f).sched j = s.sched j := Tab.get_upd_ne _ _ _ _ _ _ h
theorem State.sched_updSched_at (f : Sched → Sched) : (s.updSched i f).sched j = if i = j then f (s.sched i) else s.sched j := by
  split
  · subst j; exact State.sched_updSched s i f
  · exact State.sched_updSched_ne s i j f ‹_›
theorem State.updSched_twice (f g : Sched → Sched) : (s.updSched i f).updSched i g = s.updSched i (fun x => g (f x)) := by
  unfold State.updSched; dsimp only; rw [Tab.upd_upd]
@[simp] theorem State.chain_updSched (f : Sched → Sched) : (s.updSched i f).chain j = s.chain j := rfl
@[simp] theorem State.txc_updSched (f : Sched → Sched) : (s.updSched i f).txc j = s.txc j := rfl
@[simp] theorem State.dcb_updSched (f : Sched → Sched) : (s.updSched i f).dcb j = s.dcb j := rfl
@[simp] theorem State.fecb_updSched (f : Sched → Sched) : (s.updSched i f).fecb j = s.fecb j := rfl
@[simp] theorem State.slot_updSched (f : Sched → Sched) : (s.updSched i f).slot j = s.slot j := rfl
@[simp] theorem State.inst_updSched (f : Sched → Sched) : (s.updSched i f).inst j = s.inst j := rfl
@[simp] theorem State.gain_updSched (f : Sched → Sched) : (s.updSched i f).gain j = s.gain j := rfl
@[simp] theorem State.lut_updSched (f : Sched → Sched) : (s.updSched i f).lut j = s.lut j := rfl
@[simp] theorem State.wobj_updSched (f : Sched → Sched) : (s.updSched i f).wobj j = s.wobj j := rfl
@[simp] theorem State.net_updSched (f : Sched → Sched) : (s.updSched i f).net j = s.net j := rfl
@[simp] theorem State.rxDet_updSched (f : Sched → Sched) : (s.updSched i f).rxDet j = s.rxDet j := rfl
@[simp] theorem State.ring_updSched (f : Sched → Sched) : (s.updSched i f).ring j = s.ring j := rfl
@[simp] theorem State.trRing_updSched (f : Sched → Sched) : (s.updSched i f).trRing j = s.trRing j := rfl
@[simp] theorem State.vec_updSched (f : Sched → Sched) : (s.updSched i f).vec j = s.vec j := rfl
@[simp] theorem State.fsrc_updSched (f : Sched → Sched) : (s.updSched i f).fsrc j = s.fsrc j := rfl
@[simp] theorem State.tileT_updSched (f : Sched → Sched) : (s.updSched i f).tileT j = s.tileT j := rfl
@[simp] theorem State.eng_updSched (f : Sched → Sched) : (s.updSched i f).eng j = s.eng j := rfl
@[simp] theorem State.task_updSched (f : Sched → Sched) : (s.updSched i f).task j = s.task j := rfl
@[simp] theorem State.port_updSched (f : Sched → Sched) : (s.updSched i f).port j = s.port j := rfl
@[simp] theorem State.strm_updSched (f : Sched → Sched) : (s.updSched i f).strm j = s.strm j := rfl
@[simp] theorem State.bucket_updSched (f : Sched → Sched) : (s.updSched i f).bucket j = s.bucket j := rfl

/-! ## updSlot -/

@[simp] theorem State.updSlot_now (f : Slot → Slot) : (s.updSlot i f).now = s.now := rfl
@[simp] theorem State.updSlot_hif (f : Slot → Slot) : (s.updSlot i f).hif = s.hif := rfl
@[simp] theorem State.updSlot_intc (f : Slot → Slot) : (s.updSlot i f).intc = s.intc := rfl
@[simp] theorem State.updSlot_flt (f : Slot → Slot) : (s.updSlot i f).flt = s.flt := rfl
@[simp] theorem State.updSlot_recd (f : Slot → Slot) : (s.updSlot i f).recd = s.recd := rfl
@[simp] theorem State.updSlot_rfe (f : Slot → Slot) : (s.updSlot i f).rfe = s.rfe := rfl
@[simp] theorem State.updSlot_cx (f : Slot → Slot) : (s.updSlot i f).cx = s.cx := rfl
@[simp] theorem State.updSlot_cxPol (f : Slot → Slot) : (s.updSlot i f).cxPol = s.cxPol := rfl
@[simp] theorem State.updSlot_gcl (f : Slot → Slot) : (s.updSlot i f).gcl = s.gcl := rfl
@[simp] theorem State.updSlot_luts (f : Slot → Slot) : (s.updSlot i f).luts = s.luts := rfl
@[simp] theorem State.updSlot_prot (f : Slot → Slot) : (s.updSlot i f).prot = s.prot := rfl
@[simp] theorem State.updSlot_tim (f : Slot → Slot) : (s.updSlot i f).tim = s.tim := rfl
@[simp] theorem State.updSlot_le (f : Slot → Slot) : (s.updSlot i f).le = s.le := rfl
@[simp] theorem State.updSlot_jl (f : Slot → Slot) : (s.updSlot i f).jl = s.jl := rfl
@[simp] theorem State.updSlot_tst (f : Slot → Slot) : (s.updSlot i f).tst = s.tst := rfl
@[simp] theorem State.updSlot_freeCnt (f : Slot → Slot) : (s.updSlot i f).freeCnt = s.freeCnt := rfl
@[simp] theorem State.updSlot_pending (f : Slot → Slot) : (s.updSlot i f).pending = s.pending := rfl

@[simp] theorem State.slot_updSlot (f : Slot → Slot) : (s.updSlot i f).slot i = f (s.slot i) := Tab.get_upd_self _ _ _ _
theorem State.slot_updSlot_ne (f : Slot → Slot) (h : i ≠ j) : (s.updSlot i f).slot j = s.slot j := Tab.get_upd_ne _ _ _ _ _ _ h
theorem State.slot_updSlot_at (f : Slot → Slot) : (s.updSlot i f).slot j = if i = j then f (s.slot i) else s.slot j := by
  split
  · subst j; exact State.slot_updSlot s i f
  · exact State.slot_updSlot_ne s i j f ‹_›
theorem State.updSlot_twice (f g : Slot → Slot) : (s.updSlot i f).updSlot i g = s.updSlot i (fun x => g (f x)) := by
  unfold State.updSlot; dsimp only; rw [Tab.upd_upd]
@[simp] theorem State.chain_updSlot (f : Slot → Slot) : (s.updSlot i f).chain j = s.chain j := rfl
@[simp] theorem State.txc_updSlot (f : Slot → Slot) : (s.updSlot i f).txc j = s.txc j := rfl
@[simp] theorem State.dcb_updSlot (f : Slot → Slot) : (s.updSlot i f).dcb j = s.dcb j := rfl
@[simp] theorem State.fecb_updSlot (f : Slot → Slot) : (s.updSlot i f).fecb j = s.fecb j := rfl
@[simp] theorem State.sched_updSlot (f : Slot → Slot) : (s.updSlot i f).sched j = s.sched j := rfl
@[simp] theorem State.inst_updSlot (f : Slot → Slot) : (s.updSlot i f).inst j = s.inst j := rfl
@[simp] theorem State.gain_updSlot (f : Slot → Slot) : (s.updSlot i f).gain j = s.gain j := rfl
@[simp] theorem State.lut_updSlot (f : Slot → Slot) : (s.updSlot i f).lut j = s.lut j := rfl
@[simp] theorem State.wobj_updSlot (f : Slot → Slot) : (s.updSlot i f).wobj j = s.wobj j := rfl
@[simp] theorem State.net_updSlot (f : Slot → Slot) : (s.updSlot i f).net j = s.net j := rfl
@[simp] theorem State.rxDet_updSlot (f : Slot → Slot) : (s.updSlot i f).rxDet j = s.rxDet j := rfl
@[simp] theorem State.ring_updSlot (f : Slot → Slot) : (s.updSlot i f).ring j = s.ring j := rfl
@[simp] theorem State.trRing_updSlot (f : Slot → Slot) : (s.updSlot i f).trRing j = s.trRing j := rfl
@[simp] theorem State.vec_updSlot (f : Slot → Slot) : (s.updSlot i f).vec j = s.vec j := rfl
@[simp] theorem State.fsrc_updSlot (f : Slot → Slot) : (s.updSlot i f).fsrc j = s.fsrc j := rfl
@[simp] theorem State.tileT_updSlot (f : Slot → Slot) : (s.updSlot i f).tileT j = s.tileT j := rfl
@[simp] theorem State.eng_updSlot (f : Slot → Slot) : (s.updSlot i f).eng j = s.eng j := rfl
@[simp] theorem State.task_updSlot (f : Slot → Slot) : (s.updSlot i f).task j = s.task j := rfl
@[simp] theorem State.port_updSlot (f : Slot → Slot) : (s.updSlot i f).port j = s.port j := rfl
@[simp] theorem State.strm_updSlot (f : Slot → Slot) : (s.updSlot i f).strm j = s.strm j := rfl
@[simp] theorem State.bucket_updSlot (f : Slot → Slot) : (s.updSlot i f).bucket j = s.bucket j := rfl

/-! ## updInst -/

@[simp] theorem State.updInst_now (f : Inst → Inst) : (s.updInst i f).now = s.now := rfl
@[simp] theorem State.updInst_hif (f : Inst → Inst) : (s.updInst i f).hif = s.hif := rfl
@[simp] theorem State.updInst_intc (f : Inst → Inst) : (s.updInst i f).intc = s.intc := rfl
@[simp] theorem State.updInst_flt (f : Inst → Inst) : (s.updInst i f).flt = s.flt := rfl
@[simp] theorem State.updInst_recd (f : Inst → Inst) : (s.updInst i f).recd = s.recd := rfl
@[simp] theorem State.updInst_rfe (f : Inst → Inst) : (s.updInst i f).rfe = s.rfe := rfl
@[simp] theorem State.updInst_slots (f : Inst → Inst) : (s.updInst i f).slots = s.slots := rfl
@[simp] theorem State.updInst_cxPol (f : Inst → Inst) : (s.updInst i f).cxPol = s.cxPol := rfl
@[simp] theorem State.updInst_gcl (f : Inst → Inst) : (s.updInst i f).gcl = s.gcl := rfl
@[simp] theorem State.updInst_luts (f : Inst → Inst) : (s.updInst i f).luts = s.luts := rfl
@[simp] theorem State.updInst_prot (f : Inst → Inst) : (s.updInst i f).prot = s.prot := rfl
@[simp] theorem State.updInst_tim (f : Inst → Inst) : (s.updInst i f).tim = s.tim := rfl
@[simp] theorem State.updInst_le (f : Inst → Inst) : (s.updInst i f).le = s.le := rfl
@[simp] theorem State.updInst_jl (f : Inst → Inst) : (s.updInst i f).jl = s.jl := rfl
@[simp] theorem State.updInst_tst (f : Inst → Inst) : (s.updInst i f).tst = s.tst := rfl
@[simp] theorem State.updInst_freeCnt (f : Inst → Inst) : (s.updInst i f).freeCnt = s.freeCnt := rfl
@[simp] theorem State.updInst_pending (f : Inst → Inst) : (s.updInst i f).pending = s.pending := rfl

@[simp] theorem State.inst_updInst (f : Inst → Inst) : (s.updInst i f).inst i = f (s.inst i) := Tab.get_upd_self _ _ _ _
theorem State.inst_updInst_ne (f : Inst → Inst) (h : i ≠ j) : (s.updInst i f).inst j = s.inst j := Tab.get_upd_ne _ _ _ _ _ _ h
theorem State.inst_updInst_at (f : Inst → Inst) : (s.updInst i f).inst j = if i = j then f (s.inst i) else s.inst j := by
  split
  · subst j; exact State.inst_updInst s i f
  · exact State.inst_updInst_ne s i j f ‹_›
theorem State.updInst_twice (f g : Inst → Inst) : (s.updInst i f).updInst i g = s.updInst i (fun x => g (f x)) := by
  unfold State.updInst; dsimp only; rw [Tab.upd_upd]
@[simp] theorem State.chain_updInst (f : Inst → Inst) : (s.updInst i f).chain j = s.chain j := rfl
@[simp] theorem State.txc_updInst (f : Inst → Inst) : (s.updInst i f).txc j = s.txc j := rfl
@[simp] theorem State.dcb_updInst (f : Inst → Inst) : (s.updInst i f).dcb j = s.dcb j := rfl
@[simp] theorem State.fecb_updInst (f : Inst → Inst) : (s.updInst i f).fecb j = s.fecb j := rfl
@[simp] theorem State.sched_updInst (f : Inst → Inst) : (s.updInst i f).sched j = s.sched j := rfl
@[simp] theorem State.slot_updInst (f : Inst → Inst) : (s.updInst i f).slot j = s.slot j := rfl
@[simp] theorem State.gain_updInst (f : Inst → Inst) : (s.updInst i f).gain j = s.gain j := rfl
@[simp] theorem State.lut_updInst (f : Inst → Inst) : (s.updInst i f).lut j = s.lut j := rfl
@[simp] theorem State.wobj_updInst (f : Inst → Inst) : (s.updInst i f).wobj j = s.wobj j := rfl
@[simp] theorem State.net_updInst (f : Inst → Inst) : (s.updInst i f).net j = s.net j := rfl
@[simp] theorem State.rxDet_updInst (f : Inst → Inst) : (s.updInst i f).rxDet j = s.rxDet j := rfl
@[simp] theorem State.ring_updInst (f : Inst → Inst) : (s.updInst i f).ring j = s.ring j := rfl
@[simp] theorem State.trRing_updInst (f : Inst → Inst) : (s.updInst i f).trRing j = s.trRing j := rfl
@[simp] theorem State.vec_updInst (f : Inst → Inst) : (s.updInst i f).vec j = s.vec j := rfl
@[simp] theorem State.fsrc_updInst (f : Inst → Inst) : (s.updInst i f).fsrc j = s.fsrc j := rfl
@[simp] theorem State.tileT_updInst (f : Inst → Inst) : (s.updInst i f).tileT j = s.tileT j := rfl
@[simp] theorem State.eng_updInst (f : Inst → Inst) : (s.updInst i f).eng j = s.eng j := rfl
@[simp] theorem State.task_updInst (f : Inst → Inst) : (s.updInst i f).task j = s.task j := rfl
@[simp] theorem State.port_updInst (f : Inst → Inst) : (s.updInst i f).port j = s.port j := rfl
@[simp] theorem State.strm_updInst (f : Inst → Inst) : (s.updInst i f).strm j = s.strm j := rfl
@[simp] theorem State.bucket_updInst (f : Inst → Inst) : (s.updInst i f).bucket j = s.bucket j := rfl

/-! ## updGain -/

@[simp] theorem State.updGain_now (f : Gain → Gain) : (s.updGain i f).now = s.now := rfl
@[simp] theorem State.updGain_hif (f : Gain → Gain) : (s.updGain i f).hif = s.hif := rfl
@[simp] theorem State.updGain_intc (f : Gain → Gain) : (s.updGain i f).intc = s.intc := rfl
@[simp] theorem State.updGain_flt (f : Gain → Gain) : (s.updGain i f).flt = s.flt := rfl
@[simp] theorem State.updGain_recd (f : Gain → Gain) : (s.updGain i f).recd = s.recd := rfl
@[simp] theorem State.updGain_rfe (f : Gain → Gain) : (s.updGain i f).rfe = s.rfe := rfl
@[simp] theorem State.updGain_slots (f : Gain → Gain) : (s.updGain i f).slots = s.slots := rfl
@[simp] theorem State.updGain_cx (f : Gain → Gain) : (s.updGain i f).cx = s.cx := rfl
@[simp] theorem State.updGain_cxPol (f : Gain → Gain) : (s.updGain i f).cxPol = s.cxPol := rfl
@[simp] theorem State.updGain_luts (f : Gain → Gain) : (s.updGain i f).luts = s.luts := rfl
@[simp] theorem State.updGain_prot (f : Gain → Gain) : (s.updGain i f).prot = s.prot := rfl
@[simp] theorem State.updGain_tim (f : Gain → Gain) : (s.updGain i f).tim = s.tim := rfl
@[simp] theorem State.updGain_le (f : Gain → Gain) : (s.updGain i f).le = s.le := rfl
@[simp] theorem State.updGain_jl (f : Gain → Gain) : (s.updGain i f).jl = s.jl := rfl
@[simp] theorem State.updGain_tst (f : Gain → Gain) : (s.updGain i f).tst = s.tst := rfl
@[simp] theorem State.updGain_freeCnt (f : Gain → Gain) : (s.updGain i f).freeCnt = s.freeCnt := rfl
@[simp] theorem State.updGain_pending (f : Gain → Gain) : (s.updGain i f).pending = s.pending := rfl

@[simp] theorem State.gain_updGain (f : Gain → Gain) : (s.updGain i f).gain i = f (s.gain i) := Tab.get_upd_self _ _ _ _
theorem State.gain_updGain_ne (f : Gain → Gain) (h : i ≠ j) : (s.updGain i f).gain j = s.gain j := Tab.get_upd_ne _ _ _ _ _ _ h
theorem State.gain_updGain_at (f : Gain → Gain) : (s.updGain i f).gain j = if i = j then f (s.gain i) else s.gain j := by
  split
  · subst j; exact State.gain_updGain s i f
  · exact State.gain_updGain_ne s i j f ‹_›
theorem State.updGain_twice (f g : Gain → Gain) : (s.updGain i f).updGain i g = s.updGain i (fun x => g (f x)) := by
  unfold State.updGain; dsimp only; rw [Tab.upd_upd]
@[simp] theorem State.chain_updGain (f : Gain → Gain) : (s.updGain i f).chain j = s.chain j := rfl
@[simp] theorem State.txc_updGain (f : Gain → Gain) : (s.updGain i f).txc j = s.txc j := rfl
@[simp] theorem State.dcb_updGain (f : Gain → Gain) : (s.updGain i f).dcb j = s.dcb j := rfl
@[simp] theorem State.fecb_updGain (f : Gain → Gain) : (s.updGain i f).fecb j = s.fecb j := rfl
@[simp] theorem State.sched_updGain (f : Gain → Gain) : (s.updGain i f).sched j = s.sched j := rfl
@[simp] theorem State.slot_updGain (f : Gain → Gain) : (s.updGain i f).slot j = s.slot j := rfl
@[simp] theorem State.inst_updGain (f : Gain → Gain) : (s.updGain i f).inst j = s.inst j := rfl
@[simp] theorem State.lut_updGain (f : Gain → Gain) : (s.updGain i f).lut j = s.lut j := rfl
@[simp] theorem State.wobj_updGain (f : Gain → Gain) : (s.updGain i f).wobj j = s.wobj j := rfl
@[simp] theorem State.net_updGain (f : Gain → Gain) : (s.updGain i f).net j = s.net j := rfl
@[simp] theorem State.rxDet_updGain (f : Gain → Gain) : (s.updGain i f).rxDet j = s.rxDet j := rfl
@[simp] theorem State.ring_updGain (f : Gain → Gain) : (s.updGain i f).ring j = s.ring j := rfl
@[simp] theorem State.trRing_updGain (f : Gain → Gain) : (s.updGain i f).trRing j = s.trRing j := rfl
@[simp] theorem State.vec_updGain (f : Gain → Gain) : (s.updGain i f).vec j = s.vec j := rfl
@[simp] theorem State.fsrc_updGain (f : Gain → Gain) : (s.updGain i f).fsrc j = s.fsrc j := rfl
@[simp] theorem State.tileT_updGain (f : Gain → Gain) : (s.updGain i f).tileT j = s.tileT j := rfl
@[simp] theorem State.eng_updGain (f : Gain → Gain) : (s.updGain i f).eng j = s.eng j := rfl
@[simp] theorem State.task_updGain (f : Gain → Gain) : (s.updGain i f).task j = s.task j := rfl
@[simp] theorem State.port_updGain (f : Gain → Gain) : (s.updGain i f).port j = s.port j := rfl
@[simp] theorem State.strm_updGain (f : Gain → Gain) : (s.updGain i f).strm j = s.strm j := rfl
@[simp] theorem State.bucket_updGain (f : Gain → Gain) : (s.updGain i f).bucket j = s.bucket j := rfl

/-! ## updLut -/

@[simp] theorem State.updLut_now (f : Lut → Lut) : (s.updLut i f).now = s.now := rfl
@[simp] theorem State.updLut_hif (f : Lut → Lut) : (s.updLut i f).hif = s.hif := rfl
@[simp] theorem State.updLut_intc (f : Lut → Lut) : (s.updLut i f).intc = s.intc := rfl
@[simp] theorem State.updLut_flt (f : Lut → Lut) : (s.updLut i f).flt = s.flt := rfl
@[simp] theorem State.updLut_recd (f : Lut → Lut) : (s.updLut i f).recd = s.recd := rfl
@[simp] theorem State.updLut_rfe (f : Lut → Lut) : (s.updLut i f).rfe = s.rfe := rfl
@[simp] theorem State.updLut_slots (f : Lut → Lut) : (s.updLut i f).slots = s.slots := rfl
@[simp] theorem State.updLut_cx (f : Lut → Lut) : (s.updLut i f).cx = s.cx := rfl
@[simp] theorem State.updLut_cxPol (f : Lut → Lut) : (s.updLut i f).cxPol = s.cxPol := rfl
@[simp] theorem State.updLut_gcl (f : Lut → Lut) : (s.updLut i f).gcl = s.gcl := rfl
@[simp] theorem State.updLut_prot (f : Lut → Lut) : (s.updLut i f).prot = s.prot := rfl
@[simp] theorem State.updLut_tim (f : Lut → Lut) : (s.updLut i f).tim = s.tim := rfl
@[simp] theorem State.updLut_le (f : Lut → Lut) : (s.updLut i f).le = s.le := rfl
@[simp] theorem State.updLut_jl (f : Lut → Lut) : (s.updLut i f).jl = s.jl := rfl
@[simp] theorem State.updLut_tst (f : Lut → Lut) : (s.updLut i f).tst = s.tst := rfl
@[simp] theorem State.updLut_freeCnt (f : Lut → Lut) : (s.updLut i f).freeCnt = s.freeCnt := rfl
@[simp] theorem State.updLut_pending (f : Lut → Lut) : (s.updLut i f).pending = s.pending := rfl

@[simp] theorem State.lut_updLut (f : Lut → Lut) : (s.updLut i f).lut i = f (s.lut i) := Tab.get_upd_self _ _ _ _
theorem State.lut_updLut_ne (f : Lut → Lut) (h : i ≠ j) : (s.updLut i f).lut j = s.lut j := Tab.get_upd_ne _ _ _ _ _ _ h
theorem State.lut_updLut_at (f : Lut → Lut) : (s.updLut i f).lut j = if i = j then f (s.lut i) else s.lut j := by
  split
  · subst j; exact State.lut_updLut s i f
  · exact State.lut_updLut_ne s i j f ‹_›
theorem State.updLut_twice (f g : Lut → Lut) : (s.updLut i f).updLut i g = s.updLut i (fun x => g (f x)) := by
  unfold State.updLut; dsimp only; rw [Tab.upd_upd]
@[simp] theorem State.chain_updLut (f : Lut → Lut) : (s.updLut i f).chain j = s.chain j := rfl
@[simp] theorem State.txc_updLut (f : Lut → Lut) : (s.updLut i f).txc j = s.txc j := rfl
@[simp] theorem State.dcb_updLut (f : Lut → Lut) : (s.updLut i f).dcb j = s.dcb j := rfl
@[simp] theorem State.fecb_updLut (f : Lut → Lut) : (s.updLut i f).fecb j = s.fecb j := rfl
@[simp] theorem State.sched_updLut (f : Lut → Lut) : (s.updLut i f).sched j = s.sched j := rfl
@[simp] theorem State.slot_updLut (f : Lut → Lut) : (s.updLut i f).slot j = s.slot j := rfl
@[simp] theorem State.inst_updLut (f : Lut → Lut) : (s.updLut i f).inst j = s.inst j := rfl
@[simp] theorem State.gain_updLut (f : Lut → Lut) : (s.updLut i f).gain j = s.gain j := rfl
@[simp] theorem State.wobj_updLut (f : Lut → Lut) : (s.updLut i f).wobj j = s.wobj j := rfl
@[simp] theorem State.net_updLut (f : Lut → Lut) : (s.updLut i f).net j = s.net j := rfl
@[simp] theorem State.rxDet_updLut (f : Lut → Lut) : (s.updLut i f).rxDet j = s.rxDet j := rfl
@[simp] theorem State.ring_updLut (f : Lut → Lut) : (s.updLut i f).ring j = s.ring j := rfl
@[simp] theorem State.trRing_updLut (f : Lut → Lut) : (s.updLut i f).trRing j = s.trRing j := rfl
@[simp] theorem State.vec_updLut (f : Lut → Lut) : (s.updLut i f).vec j = s.vec j := rfl
@[simp] theorem State.fsrc_updLut (f : Lut → Lut) : (s.updLut i f).fsrc j = s.fsrc j := rfl
@[simp] theorem State.tileT_updLut (f : Lut → Lut) : (s.updLut i f).tileT j = s.tileT j := rfl
@[simp] theorem State.eng_updLut (f : Lut → Lut) : (s.updLut i f).eng j = s.eng j := rfl
@[simp] theorem State.task_updLut (f : Lut → Lut) : (s.updLut i f).task j = s.task j := rfl
@[simp] theorem State.port_updLut (f : Lut → Lut) : (s.updLut i f).port j = s.port j := rfl
@[simp] theorem State.strm_updLut (f : Lut → Lut) : (s.updLut i f).strm j = s.strm j := rfl
@[simp] theorem State.bucket_updLut (f : Lut → Lut) : (s.updLut i f).bucket j = s.bucket j := rfl

/-! ## updObj -/

@[simp] theorem State.updObj_now (f : WObj → WObj) : (s.updObj i f).now = s.now := rfl
@[simp] theorem State.updObj_hif (f : WObj → WObj) : (s.updObj i f).hif = s.hif := rfl
@[simp] theorem State.updObj_intc (f : WObj → WObj) : (s.updObj i f).intc = s.intc := rfl
@[simp] theorem State.updObj_flt (f : WObj → WObj) : (s.updObj i f).flt = s.flt := rfl
@[simp] theorem State.updObj_recd (f : WObj → WObj) : (s.updObj i f).recd = s.recd := rfl
@[simp] theorem State.updObj_rfe (f : WObj → WObj) : (s.updObj i f).rfe = s.rfe := rfl
@[simp] theorem State.updObj_slots (f : WObj → WObj) : (s.updObj i f).slots = s.slots := rfl
@[simp] theorem State.updObj_cx (f : WObj → WObj) : (s.updObj i f).cx = s.cx := rfl
@[simp] theorem State.updObj_cxPol (f : WObj → WObj) : (s.updObj i f).cxPol = s.cxPol := rfl
@[simp] theorem State.updObj_gcl (f : WObj → WObj) : (s.updObj i f).gcl = s.gcl := rfl
@[simp] theorem State.updObj_luts (f : WObj → WObj) : (s.updObj i f).luts = s.luts := rfl
@[simp] theorem State.updObj_tim (f : WObj → WObj) : (s.updObj i f).tim = s.tim := rfl
@[simp] theorem State.updObj_le (f : WObj → WObj) : (s.updObj i f).le = s.le := rfl
@[simp] theorem State.updObj_jl (f : WObj → WObj) : (s.updObj i f).jl = s.jl := rfl
@[simp] theorem State.updObj_tst (f : WObj → WObj) : (s.updObj i f).tst = s.tst := rfl
@[simp] theorem State.updObj_freeCnt (f : WObj → WObj) : (s.updObj i f).freeCnt = s.freeCnt := rfl
@[simp] theorem State.updObj_pending (f : WObj → WObj) : (s.updObj i f).pending = s.pending := rfl
@[simp] theorem State.updObj_prot_nets (f : WObj → WObj) : (s.updObj i f).prot.nets = s.prot.nets := rfl
@[simp] theorem State.updObj_prot_rx (f : WObj → WObj) : (s.updObj i f).prot.rx = s.prot.rx := rfl
@[simp] theorem State.updObj_prot_groups (f : WObj → WObj) : (s.updObj i f).prot.groups = s.prot.groups := rfl
@[simp] theorem State.updObj_prot_params (f : WObj → WObj) : (s.updObj i f).prot.params = s.prot.params := rfl
@[simp] theorem State.updObj_prot_attachSet (f : WObj → WObj) : (s.updObj i f).prot.attachSet = s.prot.attachSet := rfl
@[simp] theorem State.updObj_prot_auth (f : WObj → WObj) : (s.updObj i f).prot.auth = s.prot.auth := rfl
@[simp] theorem State.updObj_prot_restoreFail (f : WObj → WObj) : (s.updObj i f).prot.restoreFail = s.prot.restoreFail := rfl
@[simp] theorem State.updObj_prot_wrCnt (f : WObj → WObj) : (s.updObj i f).prot.wrCnt = s.prot.wrCnt := rfl
@[simp] theorem State.updObj_prot_temps (f : WObj → WObj) : (s.updObj i f).prot.temps = s.prot.temps := rfl
@[simp] theorem State.updObj_prot_readbackAt (f : WObj → WObj) : (s.updObj i f).prot.readbackAt = s.prot.readbackAt := rfl

@[simp] theorem State.wobj_updObj (f : WObj → WObj) : (s.updObj i f).wobj i = f (s.wobj i) := Tab.get_upd_self _ _ _ _
theorem State.wobj_updObj_ne (f : WObj → WObj) (h : i ≠ j) : (s.updObj i f).wobj j = s.wobj j := Tab.get_upd_ne _ _ _ _ _ _ h
theorem State.wobj_updObj_at (f : WObj → WObj) : (s.updObj i f).wobj j = if i = j then f (s.wobj i) else s.wobj j := by
  split
  · subst j; exact State.wobj_updObj s i f
  · exact State.wobj_updObj_ne s i j f ‹_›
theorem State.updObj_twice (f g : WObj → WObj) : (s.updObj i f).updObj i g = s.updObj i (fun x => g (f x)) := by
  unfold State.updObj; dsimp only; rw [Tab.upd_upd]
@[simp] theorem State.chain_updObj (f : WObj → WObj) : (s.updObj i f).chain j = s.chain j := rfl
@[simp] theorem State.txc_updObj (f : WObj → WObj) : (s.updObj i f).txc j = s.txc j := rfl
@[simp] theorem State.dcb_updObj (f : WObj → WObj) : (s.updObj i f).dcb j = s.dcb j := rfl
@[simp] theorem State.fecb_updObj (f : WObj → WObj) : (s.updObj i f).fecb j = s.fecb j := rfl
@[simp] theorem State.sched_updObj (f : WObj → WObj) : (s.updObj i f).sched j = s.sched j := rfl
@[simp] theorem State.slot_updObj (f : WObj → WObj) : (s.updObj i f).slot j = s.slot j := rfl
@[simp] theorem State.inst_updObj (f : WObj → WObj) : (s.updObj i f).inst j = s.inst j := rfl
@[simp] theorem State.gain_updObj (f : WObj → WObj) : (s.updObj i f).gain j = s.gain j := rfl
@[simp] theorem State.lut_updObj (f : WObj → WObj) : (s.updObj i f).lut j = s.lut j := rfl
@[simp] theorem State.net_updObj (f : WObj → WObj) : (s.updObj i f).net j = s.net j := rfl
@[simp] theorem State.rxDet_updObj (f : WObj → WObj) : (s.updObj i f).rxDet j = s.rxDet j := rfl
@[simp] theorem State.ring_updObj (f : WObj → WObj) : (s.updObj i f).ring j = s.ring j := rfl
@[simp] theorem State.trRing_updObj (f : WObj → WObj) : (s.updObj i f).trRing j = s.trRing j := rfl
@[simp] theorem State.vec_updObj (f : WObj → WObj) : (s.updObj i f).vec j = s.vec j := rfl
@[simp] theorem State.fsrc_updObj (f : WObj → WObj) : (s.updObj i f).fsrc j = s.fsrc j := rfl
@[simp] theorem State.tileT_updObj (f : WObj → WObj) : (s.updObj i f).tileT j = s.tileT j := rfl
@[simp] theorem State.eng_updObj (f : WObj → WObj) : (s.updObj i f).eng j = s.eng j := rfl
@[simp] theorem State.task_updObj (f : WObj → WObj) : (s.updObj i f).task j = s.task j := rfl
@[simp] theorem State.port_updObj (f : WObj → WObj) : (s.updObj i f).port j = s.port j := rfl
@[simp] theorem State.strm_updObj (f : WObj → WObj) : (s.updObj i f).strm j = s.strm j := rfl
@[simp] theorem State.bucket_updObj (f : WObj → WObj) : (s.updObj i f).bucket j = s.bucket j := rfl

/-! ## updNet -/

@[simp] theorem State.updNet_now (f : Net → Net) : (s.updNet i f).now = s.now := rfl
@[simp] theorem State.updNet_hif (f : Net → Net) : (s.updNet i f).hif = s.hif := rfl
@[simp] theorem State.updNet_intc (f : Net → Net) : (s.updNet i f).intc = s.intc := rfl
@[simp] theorem State.updNet_flt (f : Net → Net) : (s.updNet i f).flt = s.flt := rfl
@[simp] theorem State.updNet_recd (f : Net → Net) : (s.updNet i f).recd = s.recd := rfl
@[simp] theorem State.updNet_rfe (f : Net → Net) : (s.updNet i f).rfe = s.rfe := rfl
@[simp] theorem State.updNet_slots (f : Net → Net) : (s.updNet i f).slots = s.slots := rfl
@[simp] theorem State.updNet_cx (f : Net → Net) : (s.updNet i f).cx = s.cx := rfl
@[simp] theorem State.updNet_cxPol (f : Net → Net) : (s.updNet i f).cxPol = s.cxPol := rfl
@[simp] theorem State.updNet_gcl (f : Net → Net) : (s.updNet i f).gcl = s.gcl := rfl
@[simp] theorem State.updNet_luts (f : Net → Net) : (s.updNet i f).luts = s.luts := rfl
@[simp] theorem State.updNet_tim (f : Net → Net) : (s.updNet i f).tim = s.tim := rfl
@[simp] theorem State.updNet_le (f : Net → Net) : (s.updNet i f).le = s.le := rfl
@[simp] theorem State.updNet_jl (f : Net → Net) : (s.updNet i f).jl = s.jl := rfl
@[simp] theorem State.updNet_tst (f : Net → Net) : (s.updNet i f).tst = s.tst := rfl
@[simp] theorem State.updNet_freeCnt (f : Net → Net) : (s.updNet i f).freeCnt = s.freeCnt := rfl
@[simp] theorem State.updNet_pending (f : Net → Net) : (s.updNet i f).pending = s.pending := rfl
@[simp] theorem State.updNet_prot_objs (f : Net → Net) : (s.updNet i f).prot.objs = s.prot.objs := rfl
@[simp] theorem State.updNet_prot_rx (f : Net → Net) : (s.updNet i f).prot.rx = s.prot.rx := rfl
@[simp] theorem State.updNet_prot_groups (f : Net → Net) : (s.updNet i f).prot.groups = s.prot.groups := rfl
@[simp] theorem State.updNet_prot_params (f : Net → Net) : (s.updNet i f).prot.params = s.prot.params := rfl
@[simp] theorem State.updNet_prot_attachSet (f : Net → Net) : (s.updNet i f).prot.attachSet = s.prot.attachSet := rfl
@[simp] theorem State.updNet_prot_auth (f : Net → Net) : (s.updNet i f).prot.auth = s.prot.auth := rfl
@[simp] theorem State.updNet_prot_restoreFail (f : Net → Net) : (s.updNet i f).prot.restoreFail = s.prot.restoreFail := rfl
@[simp] theorem State.updNet_prot_wrCnt (f : Net → Net) : (s.updNet i f).prot.wrCnt = s.prot.wrCnt := rfl
@[simp] theorem State.updNet_prot_temps (f : Net → Net) : (s.updNet i f).prot.temps = s.prot.temps := rfl
@[simp] theorem State.updNet_prot_readbackAt (f : Net → Net) : (s.updNet i f).prot.readbackAt = s.prot.readbackAt := rfl

@[simp] theorem State.net_updNet (f : Net → Net) : (s.updNet i f).net i = f (s.net i) := Tab.get_upd_self _ _ _ _
theorem State.net_updNet_ne (f : Net → Net) (h : i ≠ j) : (s.updNet i f).net j = s.net j := Tab.get_upd_ne _ _ _ _ _ _ h
theorem State.net_updNet_at (f : Net → Net) : (s.updNet i f).net j = if i = j then f (s.net i) else s.net j := by
  split
  · subst j; exact State.net_updNet s i f
  · exact State.net_updNet_ne s i j f ‹_›
theorem State.updNet_twice (f g : Net → Net) : (s.updNet i f).updNet i g = s.updNet i (fun x => g (f x)) := by
  unfold State.updNet; dsimp only; rw [Tab.upd_upd]
@[simp] theorem State.chain_updNet (f : Net → Net) : (s.updNet i f).chain j = s.chain j := rfl
@[simp] theorem State.txc_updNet (f : Net → Net) : (s.updNet i f).txc j = s.txc j := rfl
@[simp] theorem State.dcb_updNet (f : Net → Net) : (s.updNet i f).dcb j = s.dcb j := rfl
@[simp] theorem State.fecb_updNet (f : Net → Net) : (s.updNet i f).fecb j = s.fecb j := rfl
@[simp] theorem State.sched_updNet (f : Net → Net) : (s.updNet i f).sched j = s.sched j := rfl
@[simp] theorem State.slot_updNet (f : Net → Net) : (s.updNet i f).slot j = s.slot j := rfl
@[simp] theorem State.inst_updNet (f : Net → Net) : (s.updNet i f).inst j = s.inst j := rfl
@[simp] theorem State.gain_updNet (f : Net → Net) : (s.updNet i f).gain j = s.gain j := rfl
@[simp] theorem State.lut_updNet (f : Net → Net) : (s.updNet i f).lut j = s.lut j := rfl
@[simp] theorem State.wobj_updNet (f : Net → Net) : (s.updNet i f).wobj j = s.wobj j := rfl
@[simp] theorem State.rxDet_updNet (f : Net → Net) : (s.updNet i f).rxDet j = s.rxDet j := rfl
@[simp] theorem State.ring_updNet (f : Net → Net) : (s.updNet i f).ring j = s.ring j := rfl
@[simp] theorem State.trRing_updNet (f : Net → Net) : (s.updNet i f).trRing j = s.trRing j := rfl
@[simp] theorem State.vec_updNet (f : Net → Net) : (s.updNet i f).vec j = s.vec j := rfl
@[simp] theorem State.fsrc_updNet (f : Net → Net) : (s.updNet i f).fsrc j = s.fsrc j := rfl
@[simp] theorem State.tileT_updNet (f : Net → Net) : (s.updNet i f).tileT j = s.tileT j := rfl
@[simp] theorem State.eng_updNet (f : Net → Net) : (s.updNet i f).eng j = s.eng j := rfl
@[simp] theorem State.task_updNet (f : Net → Net) : (s.updNet i f).task j = s.task j := rfl
@[simp] theorem State.port_updNet (f : Net → Net) : (s.updNet i f).port j = s.port j := rfl
@[simp] theorem State.strm_updNet (f : Net → Net) : (s.updNet i f).strm j = s.strm j := rfl
@[simp] theorem State.bucket_updNet (f : Net → Net) : (s.updNet i f).bucket j = s.bucket j := rfl

/-! ## updRxDet -/

@[simp] theorem State.updRxDet_now (f : RxDet → RxDet) : (s.updRxDet i f).now = s.now := rfl
@[simp] theorem State.updRxDet_hif (f : RxDet → RxDet) : (s.updRxDet i f).hif = s.hif := rfl
@[simp] theorem State.updRxDet_intc (f : RxDet → RxDet) : (s.updRxDet i f).intc = s.intc := rfl
@[simp] theorem State.updRxDet_flt (f : RxDet → RxDet) : (s.updRxDet i f).flt = s.flt := rfl
@[simp] theorem State.updRxDet_recd (f : RxDet → RxDet) : (s.updRxDet i f).recd = s.recd := rfl
@[simp] theorem State.updRxDet_rfe (f : RxDet → RxDet) : (s.updRxDet i f).rfe = s.rfe := rfl
@[simp] theorem State.updRxDet_slots (f : RxDet → RxDet) : (s.updRxDet i f).slots = s.slots := rfl
@[simp] theorem State.updRxDet_cx (f : RxDet → RxDet) : (s.updRxDet i f).cx = s.cx := rfl
@[simp] theorem State.updRxDet_cxPol (f : RxDet → RxDet) : (s.updRxDet i f).cxPol = s.cxPol := rfl
@[simp] theorem State.updRxDet_gcl (f : RxDet → RxDet) : (s.updRxDet i f).gcl = s.gcl := rfl
@[simp] theorem State.updRxDet_luts (f : RxDet → RxDet) : (s.updRxDet i f).luts = s.luts := rfl
@[simp] theorem State.updRxDet_tim (f : RxDet → RxDet) : (s.updRxDet i f).tim = s.tim := rfl
@[simp] theorem State.updRxDet_le (f : RxDet → RxDet) : (s.updRxDet i f).le = s.le := rfl
@[simp] theorem State.updRxDet_jl (f : RxDet → RxDet) : (s.updRxDet i f).jl = s.jl := rfl
@[simp] theorem State.updRxDet_tst (f : RxDet → RxDet) : (s.updRxDet i f).tst = s.tst := rfl
@[simp] theorem State.updRxDet_freeCnt (f : RxDet → RxDet) : (s.updRxDet i f).freeCnt = s.freeCnt := rfl
@[simp] theorem State.updRxDet_pending (f : RxDet → RxDet) : (s.updRxDet i f).pending = s.pending := rfl
@[simp] theorem State.updRxDet_prot_objs (f : RxDet → RxDet) : (s.updRxDet i f).prot.objs = s.prot.objs := rfl
@[simp] theorem State.updRxDet_prot_nets (f : RxDet → RxDet) : (s.updRxDet i f).prot.nets = s.prot.nets := rfl
@[simp] theorem State.updRxDet_prot_groups (f : RxDet → RxDet) : (s.updRxDet i f).prot.groups = s.prot.groups := rfl
@[simp] theorem State.updRxDet_prot_params (f : RxDet → RxDet) : (s.updRxDet i f).prot.params = s.prot.params := rfl
@[simp] theorem State.updRxDet_prot_attachSet (f : RxDet → RxDet) : (s.updRxDet i f).prot.attachSet = s.prot.attachSet := rfl
@[simp] theorem State.updRxDet_prot_auth (f : RxDet → RxDet) : (s.updRxDet i f).prot.auth = s.prot.auth := rfl
@[simp] theorem State.updRxDet_prot_restoreFail (f : RxDet → RxDet) : (s.updRxDet i f).prot.restoreFail = s.prot.restoreFail := rfl
@[simp] theorem State.updRxDet_prot_wrCnt (f : RxDet → RxDet) : (s.updRxDet i f).prot.wrCnt = s.prot.wrCnt := rfl
@[simp] theorem State.updRxDet_prot_temps (f : RxDet → RxDet) : (s.updRxDet i f).prot.temps = s.prot.temps := rfl
@[simp] theorem State.updRxDet_prot_readbackAt (f : RxDet → RxDet) : (s.updRxDet i f).prot.readbackAt = s.prot.readbackAt := rfl

@[simp] theorem State.rxDet_updRxDet (f : RxDet → RxDet) : (s.updRxDet i f).rxDet i = f (s.rxDet i) := Tab.get_upd_self _ _ _ _
theorem State.rxDet_updRxDet_ne (f : RxDet → RxDet) (h : i ≠ j) : (s.updRxDet i f).rxDet j = s.rxDet j := Tab.get_upd_ne _ _ _ _ _ _ h
theorem State.rxDet_updRxDet_at (f : RxDet → RxDet) : (s.updRxDet i f).rxDet j = if i = j then f (s.rxDet i) else s.rxDet j := by
  split
  · subst j; exact State.rxDet_updRxDet s i f
  · exact State.rxDet_updRxDet_ne s i j f ‹_›
theorem State.updRxDet_twice (f g : RxDet → RxDet) : (s.updRxDet i f).updRxDet i g = s.updRxDet i (fun x => g (f x)) := by
  unfold State.updRxDet; dsimp only; rw [Tab.upd_upd]
@[simp] theorem State.chain_updRxDet (f : RxDet → RxDet) : (s.updRxDet i f).chain j = s.chain j := rfl
@[simp] theorem State.txc_updRxDet (f : RxDet → RxDet) : (s.updRxDet i f).txc j = s.txc j := rfl
@[simp] theorem State.dcb_updRxDet (f : RxDet → RxDet) : (s.updRxDet i f).dcb j = s.dcb j := rfl
@[simp] theorem State.fecb_updRxDet (f : RxDet → RxDet) : (s.updRxDet i f).fecb j = s.fecb j := rfl
@[simp] theorem State.sched_updRxDet (f : RxDet → RxDet) : (s.updRxDet i f).sched j = s.sched j := rfl
@[simp] theorem State.slot_updRxDet (f : RxDet → RxDet) : (s.updRxDet i f).slot j = s.slot j := rfl
@[simp] theorem State.inst_updRxDet (f : RxDet → RxDet) : (s.updRxDet i f).inst j = s.inst j := rfl
@[simp] theorem State.gain_updRxDet (f : RxDet → RxDet) : (s.updRxDet i f).gain j = s.gain j := rfl
@[simp] theorem State.lut_updRxDet (f : RxDet → RxDet) : (s.updRxDet i f).lut j = s.lut j := rfl
@[simp] theorem State.wobj_updRxDet (f : RxDet → RxDet) : (s.updRxDet i f).wobj j = s.wobj j := rfl
@[simp] theorem State.net_updRxDet (f : RxDet → RxDet) : (s.updRxDet i f).net j = s.net j := rfl
@[simp] theorem State.ring_updRxDet (f : RxDet → RxDet) : (s.updRxDet i f).ring j = s.ring j := rfl
@[simp] theorem State.trRing_updRxDet (f : RxDet → RxDet) : (s.updRxDet i f).trRing j = s.trRing j := rfl
@[simp] theorem State.vec_updRxDet (f : RxDet → RxDet) : (s.updRxDet i f).vec j = s.vec j := rfl
@[simp] theorem State.fsrc_updRxDet (f : RxDet → RxDet) : (s.updRxDet i f).fsrc j = s.fsrc j := rfl
@[simp] theorem State.tileT_updRxDet (f : RxDet → RxDet) : (s.updRxDet i f).tileT j = s.tileT j := rfl
@[simp] theorem State.eng_updRxDet (f : RxDet → RxDet) : (s.updRxDet i f).eng j = s.eng j := rfl
@[simp] theorem State.task_updRxDet (f : RxDet → RxDet) : (s.updRxDet i f).task j = s.task j := rfl
@[simp] theorem State.port_updRxDet (f : RxDet → RxDet) : (s.updRxDet i f).port j = s.port j := rfl
@[simp] theorem State.strm_updRxDet (f : RxDet → RxDet) : (s.updRxDet i f).strm j = s.strm j := rfl
@[simp] theorem State.bucket_updRxDet (f : RxDet → RxDet) : (s.updRxDet i f).bucket j = s.bucket j := rfl

/-! ## updRing -/

@[simp] theorem State.updRing_now (f : CmdRing → CmdRing) : (s.updRing i f).now = s.now := rfl
@[simp] theorem State.updRing_intc (f : CmdRing → CmdRing) : (s.updRing i f).intc = s.intc := rfl
@[simp] theorem State.updRing_flt (f : CmdRing → CmdRing) : (s.updRing i f).flt = s.flt := rfl
@[simp] theorem State.updRing_recd (f : CmdRing → CmdRing) : (s.updRing i f).recd = s.recd := rfl
@[simp] theorem State.updRing_rfe (f : CmdRing → CmdRing) : (s.updRing i f).rfe = s.rfe := rfl
@[simp] theorem State.updRing_slots (f : CmdRing → CmdRing) : (s.updRing i f).slots = s.slots := rfl
@[simp] theorem State.updRing_cx (f : CmdRing → CmdRing) : (s.updRing i f).cx = s.cx := rfl
@[simp] theorem State.updRing_cxPol (f : CmdRing → CmdRing) : (s.updRing i f).cxPol = s.cxPol := rfl
@[simp] theorem State.updRing_gcl (f : CmdRing → CmdRing) : (s.updRing i f).gcl = s.gcl := rfl
@[simp] theorem State.updRing_luts (f : CmdRing → CmdRing) : (s.updRing i f).luts = s.luts := rfl
@[simp] theorem State.updRing_prot (f : CmdRing → CmdRing) : (s.updRing i f).prot = s.prot := rfl
@[simp] theorem State.updRing_tim (f : CmdRing → CmdRing) : (s.updRing i f).tim = s.tim := rfl
@[simp] theorem State.updRing_le (f : CmdRing → CmdRing) : (s.updRing i f).le = s.le := rfl
@[simp] theorem State.updRing_jl (f : CmdRing → CmdRing) : (s.updRing i f).jl = s.jl := rfl
@[simp] theorem State.updRing_tst (f : CmdRing → CmdRing) : (s.updRing i f).tst = s.tst := rfl
@[simp] theorem State.updRing_freeCnt (f : CmdRing → CmdRing) : (s.updRing i f).freeCnt = s.freeCnt := rfl
@[simp] theorem State.updRing_pending (f : CmdRing → CmdRing) : (s.updRing i f).pending = s.pending := rfl
@[simp] theorem State.updRing_hif_flrWinter (f : CmdRing → CmdRing) : (s.updRing i f).hif.flrWinter = s.hif.flrWinter := rfl
@[simp] theorem State.updRing_hif_busMaster (f : CmdRing → CmdRing) : (s.updRing i f).hif.busMaster = s.hif.busMaster := rfl
@[simp] theorem State.updRing_hif_msixEn (f : CmdRing → CmdRing) : (s.updRing i f).hif.msixEn = s.hif.msixEn := rfl
@[simp] theorem State.updRing_hif_msixMask (f : CmdRing → CmdRing) : (s.updRing i f).hif.msixMask = s.hif.msixMask := rfl
@[simp] theorem State.updRing_hif_tr (f : CmdRing → CmdRing) : (s.updRing i f).hif.tr = s.hif.tr := rfl
@[simp] theorem State.updRing_hif_er (f : CmdRing → CmdRing) : (s.updRing i f).hif.er = s.hif.er := rfl
@[simp] theorem State.updRing_hif_subs (f : CmdRing → CmdRing) : (s.updRing i f).hif.subs = s.hif.subs := rfl
@[simp] theorem State.updRing_hif_outstanding (f : CmdRing → CmdRing) : (s.updRing i f).hif.outstanding = s.hif.outstanding := rfl
@[simp] theorem State.updRing_hif_nextId (f : CmdRing → CmdRing) : (s.updRing i f).hif.nextId = s.hif.nextId := rfl
@[simp] theorem State.updRing_hif_rr (f : CmdRing → CmdRing) : (s.updRing i f).hif.rr = s.hif.rr := rfl
@[simp] theorem State.updRing_hif_held (f : CmdRing → CmdRing) : (s.updRing i f).hif.held = s.hif.held := rfl
@[simp] theorem State.updRing_hif_hostWrites (f : CmdRing → CmdRing) : (s.updRing i f).hif.hostWrites = s.hif.hostWrites := rfl
@[simp] theorem State.updRing_hif_refDl (f : CmdRing → CmdRing) : (s.updRing i f).hif.refDl = s.hif.refDl := rfl
@[simp] theorem State.updRing_hif_refOther (f : CmdRing → CmdRing) : (s.updRing i f).hif.refOther = s.hif.refOther := rfl
@[simp] theorem State.updRing_hif_pecErr (f : CmdRing → CmdRing) : (s.updRing i f).hif.pecErr = s.hif.pecErr := rfl
@[simp] theorem State.updRing_hif_mgmtForce (f : CmdRing → CmdRing) : (s.updRing i f).hif.mgmtForce = s.hif.mgmtForce := rfl
@[simp] theorem State.updRing_hif_mpStatus (f : CmdRing → CmdRing) : (s.updRing i f).hif.mpStatus = s.hif.mpStatus := rfl
@[simp] theorem State.updRing_hif_mpData (f : CmdRing → CmdRing) : (s.updRing i f).hif.mpData = s.hif.mpData := rfl
@[simp] theorem State.updRing_hif_mpCursor (f : CmdRing → CmdRing) : (s.updRing i f).hif.mpCursor = s.hif.mpCursor := rfl
@[simp] theorem State.updRing_hif_captDone (f : CmdRing → CmdRing) : (s.updRing i f).hif.captDone = s.hif.captDone := rfl
@[simp] theorem State.updRing_hif_captOldest (f : CmdRing → CmdRing) : (s.updRing i f).hif.captOldest = s.hif.captOldest := rfl
@[simp] theorem State.updRing_hif_captRun (f : CmdRing → CmdRing) : (s.updRing i f).hif.captRun = s.hif.captRun := rfl
@[simp] theorem State.updRing_hif_captMem (f : CmdRing → CmdRing) : (s.updRing i f).hif.captMem = s.hif.captMem := rfl
@[simp] theorem State.updRing_hif_captValid (f : CmdRing → CmdRing) : (s.updRing i f).hif.captValid = s.hif.captValid := rfl
@[simp] theorem State.updRing_hif_captLen (f : CmdRing → CmdRing) : (s.updRing i f).hif.captLen = s.hif.captLen := rfl
@[simp] theorem State.updRing_hif_captCount (f : CmdRing → CmdRing) : (s.updRing i f).hif.captCount = s.hif.captCount := rfl
@[simp] theorem State.updRing_hif_msix (f : CmdRing → CmdRing) : (s.updRing i f).hif.msix = s.hif.msix := rfl
@[simp] theorem State.updRing_hif_hiLatch (f : CmdRing → CmdRing) : (s.updRing i f).hif.hiLatch = s.hif.hiLatch := rfl
@[simp] theorem State.updRing_hif_rdData (f : CmdRing → CmdRing) : (s.updRing i f).hif.rdData = s.hif.rdData := rfl
@[simp] theorem State.updRing_hif_urCount (f : CmdRing → CmdRing) : (s.updRing i f).hif.urCount = s.hif.urCount := rfl

@[simp] theorem State.ring_updRing (f : CmdRing → CmdRing) : (s.updRing i f).ring i = f (s.ring i) := Tab.get_upd_self _ _ _ _
theorem State.ring_updRing_ne (f : CmdRing → CmdRing) (h : i ≠ j) : (s.updRing i f).ring j = s.ring j := Tab.get_upd_ne _ _ _ _ _ _ h
theorem State.ring_updRing_at (f : CmdRing → CmdRing) : (s.updRing i f).ring j = if i = j then f (s.ring i) else s.ring j := by
  split
  · subst j; exact State.ring_updRing s i f
  · exact State.ring_updRing_ne s i j f ‹_›
theorem State.updRing_twice (f g : CmdRing → CmdRing) : (s.updRing i f).updRing i g = s.updRing i (fun x => g (f x)) := by
  unfold State.updRing; dsimp only; rw [Tab.upd_upd]
@[simp] theorem State.chain_updRing (f : CmdRing → CmdRing) : (s.updRing i f).chain j = s.chain j := rfl
@[simp] theorem State.txc_updRing (f : CmdRing → CmdRing) : (s.updRing i f).txc j = s.txc j := rfl
@[simp] theorem State.dcb_updRing (f : CmdRing → CmdRing) : (s.updRing i f).dcb j = s.dcb j := rfl
@[simp] theorem State.fecb_updRing (f : CmdRing → CmdRing) : (s.updRing i f).fecb j = s.fecb j := rfl
@[simp] theorem State.sched_updRing (f : CmdRing → CmdRing) : (s.updRing i f).sched j = s.sched j := rfl
@[simp] theorem State.slot_updRing (f : CmdRing → CmdRing) : (s.updRing i f).slot j = s.slot j := rfl
@[simp] theorem State.inst_updRing (f : CmdRing → CmdRing) : (s.updRing i f).inst j = s.inst j := rfl
@[simp] theorem State.gain_updRing (f : CmdRing → CmdRing) : (s.updRing i f).gain j = s.gain j := rfl
@[simp] theorem State.lut_updRing (f : CmdRing → CmdRing) : (s.updRing i f).lut j = s.lut j := rfl
@[simp] theorem State.wobj_updRing (f : CmdRing → CmdRing) : (s.updRing i f).wobj j = s.wobj j := rfl
@[simp] theorem State.net_updRing (f : CmdRing → CmdRing) : (s.updRing i f).net j = s.net j := rfl
@[simp] theorem State.rxDet_updRing (f : CmdRing → CmdRing) : (s.updRing i f).rxDet j = s.rxDet j := rfl
@[simp] theorem State.trRing_updRing (f : CmdRing → CmdRing) : (s.updRing i f).trRing j = s.trRing j := rfl
@[simp] theorem State.vec_updRing (f : CmdRing → CmdRing) : (s.updRing i f).vec j = s.vec j := rfl
@[simp] theorem State.fsrc_updRing (f : CmdRing → CmdRing) : (s.updRing i f).fsrc j = s.fsrc j := rfl
@[simp] theorem State.tileT_updRing (f : CmdRing → CmdRing) : (s.updRing i f).tileT j = s.tileT j := rfl
@[simp] theorem State.eng_updRing (f : CmdRing → CmdRing) : (s.updRing i f).eng j = s.eng j := rfl
@[simp] theorem State.task_updRing (f : CmdRing → CmdRing) : (s.updRing i f).task j = s.task j := rfl
@[simp] theorem State.port_updRing (f : CmdRing → CmdRing) : (s.updRing i f).port j = s.port j := rfl
@[simp] theorem State.strm_updRing (f : CmdRing → CmdRing) : (s.updRing i f).strm j = s.strm j := rfl
@[simp] theorem State.bucket_updRing (f : CmdRing → CmdRing) : (s.updRing i f).bucket j = s.bucket j := rfl

/-! ## updTr -/

@[simp] theorem State.updTr_now (f : OutRing → OutRing) : (s.updTr i f).now = s.now := rfl
@[simp] theorem State.updTr_intc (f : OutRing → OutRing) : (s.updTr i f).intc = s.intc := rfl
@[simp] theorem State.updTr_flt (f : OutRing → OutRing) : (s.updTr i f).flt = s.flt := rfl
@[simp] theorem State.updTr_recd (f : OutRing → OutRing) : (s.updTr i f).recd = s.recd := rfl
@[simp] theorem State.updTr_rfe (f : OutRing → OutRing) : (s.updTr i f).rfe = s.rfe := rfl
@[simp] theorem State.updTr_slots (f : OutRing → OutRing) : (s.updTr i f).slots = s.slots := rfl
@[simp] theorem State.updTr_cx (f : OutRing → OutRing) : (s.updTr i f).cx = s.cx := rfl
@[simp] theorem State.updTr_cxPol (f : OutRing → OutRing) : (s.updTr i f).cxPol = s.cxPol := rfl
@[simp] theorem State.updTr_gcl (f : OutRing → OutRing) : (s.updTr i f).gcl = s.gcl := rfl
@[simp] theorem State.updTr_luts (f : OutRing → OutRing) : (s.updTr i f).luts = s.luts := rfl
@[simp] theorem State.updTr_prot (f : OutRing → OutRing) : (s.updTr i f).prot = s.prot := rfl
@[simp] theorem State.updTr_tim (f : OutRing → OutRing) : (s.updTr i f).tim = s.tim := rfl
@[simp] theorem State.updTr_le (f : OutRing → OutRing) : (s.updTr i f).le = s.le := rfl
@[simp] theorem State.updTr_jl (f : OutRing → OutRing) : (s.updTr i f).jl = s.jl := rfl
@[simp] theorem State.updTr_tst (f : OutRing → OutRing) : (s.updTr i f).tst = s.tst := rfl
@[simp] theorem State.updTr_freeCnt (f : OutRing → OutRing) : (s.updTr i f).freeCnt = s.freeCnt := rfl
@[simp] theorem State.updTr_pending (f : OutRing → OutRing) : (s.updTr i f).pending = s.pending := rfl
@[simp] theorem State.updTr_hif_flrWinter (f : OutRing → OutRing) : (s.updTr i f).hif.flrWinter = s.hif.flrWinter := rfl
@[simp] theorem State.updTr_hif_busMaster (f : OutRing → OutRing) : (s.updTr i f).hif.busMaster = s.hif.busMaster := rfl
@[simp] theorem State.updTr_hif_msixEn (f : OutRing → OutRing) : (s.updTr i f).hif.msixEn = s.hif.msixEn := rfl
@[simp] theorem State.updTr_hif_msixMask (f : OutRing → OutRing) : (s.updTr i f).hif.msixMask = s.hif.msixMask := rfl
@[simp] theorem State.updTr_hif_rings (f : OutRing → OutRing) : (s.updTr i f).hif.rings = s.hif.rings := rfl
@[simp] theorem State.updTr_hif_er (f : OutRing → OutRing) : (s.updTr i f).hif.er = s.hif.er := rfl
@[simp] theorem State.updTr_hif_subs (f : OutRing → OutRing) : (s.updTr i f).hif.subs = s.hif.subs := rfl
@[simp] theorem State.updTr_hif_outstanding (f : OutRing → OutRing) : (s.updTr i f).hif.outstanding = s.hif.outstanding := rfl
@[simp] theorem State.updTr_hif_nextId (f : OutRing → OutRing) : (s.updTr i f).hif.nextId = s.hif.nextId := rfl
@[simp] theorem State.updTr_hif_rr (f : OutRing → OutRing) : (s.updTr i f).hif.rr = s.hif.rr := rfl
@[simp] theorem State.updTr_hif_held (f : OutRing → OutRing) : (s.updTr i f).hif.held = s.hif.held := rfl
@[simp] theorem State.updTr_hif_hostWrites (f : OutRing → OutRing) : (s.updTr i f).hif.hostWrites = s.hif.hostWrites := rfl
@[simp] theorem State.updTr_hif_refDl (f : OutRing → OutRing) : (s.updTr i f).hif.refDl = s.hif.refDl := rfl
@[simp] theorem State.updTr_hif_refOther (f : OutRing → OutRing) : (s.updTr i f).hif.refOther = s.hif.refOther := rfl
@[simp] theorem State.updTr_hif_pecErr (f : OutRing → OutRing) : (s.updTr i f).hif.pecErr = s.hif.pecErr := rfl
@[simp] theorem State.updTr_hif_mgmtForce (f : OutRing → OutRing) : (s.updTr i f).hif.mgmtForce = s.hif.mgmtForce := rfl
@[simp] theorem State.updTr_hif_mpStatus (f : OutRing → OutRing) : (s.updTr i f).hif.mpStatus = s.hif.mpStatus := rfl
@[simp] theorem State.updTr_hif_mpData (f : OutRing → OutRing) : (s.updTr i f).hif.mpData = s.hif.mpData := rfl
@[simp] theorem State.updTr_hif_mpCursor (f : OutRing → OutRing) : (s.updTr i f).hif.mpCursor = s.hif.mpCursor := rfl
@[simp] theorem State.updTr_hif_captDone (f : OutRing → OutRing) : (s.updTr i f).hif.captDone = s.hif.captDone := rfl
@[simp] theorem State.updTr_hif_captOldest (f : OutRing → OutRing) : (s.updTr i f).hif.captOldest = s.hif.captOldest := rfl
@[simp] theorem State.updTr_hif_captRun (f : OutRing → OutRing) : (s.updTr i f).hif.captRun = s.hif.captRun := rfl
@[simp] theorem State.updTr_hif_captMem (f : OutRing → OutRing) : (s.updTr i f).hif.captMem = s.hif.captMem := rfl
@[simp] theorem State.updTr_hif_captValid (f : OutRing → OutRing) : (s.updTr i f).hif.captValid = s.hif.captValid := rfl
@[simp] theorem State.updTr_hif_captLen (f : OutRing → OutRing) : (s.updTr i f).hif.captLen = s.hif.captLen := rfl
@[simp] theorem State.updTr_hif_captCount (f : OutRing → OutRing) : (s.updTr i f).hif.captCount = s.hif.captCount := rfl
@[simp] theorem State.updTr_hif_msix (f : OutRing → OutRing) : (s.updTr i f).hif.msix = s.hif.msix := rfl
@[simp] theorem State.updTr_hif_hiLatch (f : OutRing → OutRing) : (s.updTr i f).hif.hiLatch = s.hif.hiLatch := rfl
@[simp] theorem State.updTr_hif_rdData (f : OutRing → OutRing) : (s.updTr i f).hif.rdData = s.hif.rdData := rfl
@[simp] theorem State.updTr_hif_urCount (f : OutRing → OutRing) : (s.updTr i f).hif.urCount = s.hif.urCount := rfl

@[simp] theorem State.trRing_updTr (f : OutRing → OutRing) : (s.updTr i f).trRing i = f (s.trRing i) := Tab.get_upd_self _ _ _ _
theorem State.trRing_updTr_ne (f : OutRing → OutRing) (h : i ≠ j) : (s.updTr i f).trRing j = s.trRing j := Tab.get_upd_ne _ _ _ _ _ _ h
theorem State.trRing_updTr_at (f : OutRing → OutRing) : (s.updTr i f).trRing j = if i = j then f (s.trRing i) else s.trRing j := by
  split
  · subst j; exact State.trRing_updTr s i f
  · exact State.trRing_updTr_ne s i j f ‹_›
theorem State.updTr_twice (f g : OutRing → OutRing) : (s.updTr i f).updTr i g = s.updTr i (fun x => g (f x)) := by
  unfold State.updTr; dsimp only; rw [Tab.upd_upd]
@[simp] theorem State.chain_updTr (f : OutRing → OutRing) : (s.updTr i f).chain j = s.chain j := rfl
@[simp] theorem State.txc_updTr (f : OutRing → OutRing) : (s.updTr i f).txc j = s.txc j := rfl
@[simp] theorem State.dcb_updTr (f : OutRing → OutRing) : (s.updTr i f).dcb j = s.dcb j := rfl
@[simp] theorem State.fecb_updTr (f : OutRing → OutRing) : (s.updTr i f).fecb j = s.fecb j := rfl
@[simp] theorem State.sched_updTr (f : OutRing → OutRing) : (s.updTr i f).sched j = s.sched j := rfl
@[simp] theorem State.slot_updTr (f : OutRing → OutRing) : (s.updTr i f).slot j = s.slot j := rfl
@[simp] theorem State.inst_updTr (f : OutRing → OutRing) : (s.updTr i f).inst j = s.inst j := rfl
@[simp] theorem State.gain_updTr (f : OutRing → OutRing) : (s.updTr i f).gain j = s.gain j := rfl
@[simp] theorem State.lut_updTr (f : OutRing → OutRing) : (s.updTr i f).lut j = s.lut j := rfl
@[simp] theorem State.wobj_updTr (f : OutRing → OutRing) : (s.updTr i f).wobj j = s.wobj j := rfl
@[simp] theorem State.net_updTr (f : OutRing → OutRing) : (s.updTr i f).net j = s.net j := rfl
@[simp] theorem State.rxDet_updTr (f : OutRing → OutRing) : (s.updTr i f).rxDet j = s.rxDet j := rfl
@[simp] theorem State.ring_updTr (f : OutRing → OutRing) : (s.updTr i f).ring j = s.ring j := rfl
@[simp] theorem State.vec_updTr (f : OutRing → OutRing) : (s.updTr i f).vec j = s.vec j := rfl
@[simp] theorem State.fsrc_updTr (f : OutRing → OutRing) : (s.updTr i f).fsrc j = s.fsrc j := rfl
@[simp] theorem State.tileT_updTr (f : OutRing → OutRing) : (s.updTr i f).tileT j = s.tileT j := rfl
@[simp] theorem State.eng_updTr (f : OutRing → OutRing) : (s.updTr i f).eng j = s.eng j := rfl
@[simp] theorem State.task_updTr (f : OutRing → OutRing) : (s.updTr i f).task j = s.task j := rfl
@[simp] theorem State.port_updTr (f : OutRing → OutRing) : (s.updTr i f).port j = s.port j := rfl
@[simp] theorem State.strm_updTr (f : OutRing → OutRing) : (s.updTr i f).strm j = s.strm j := rfl
@[simp] theorem State.bucket_updTr (f : OutRing → OutRing) : (s.updTr i f).bucket j = s.bucket j := rfl

/-! ## updVec -/

@[simp] theorem State.updVec_now (f : Vec → Vec) : (s.updVec i f).now = s.now := rfl
@[simp] theorem State.updVec_hif (f : Vec → Vec) : (s.updVec i f).hif = s.hif := rfl
@[simp] theorem State.updVec_flt (f : Vec → Vec) : (s.updVec i f).flt = s.flt := rfl
@[simp] theorem State.updVec_recd (f : Vec → Vec) : (s.updVec i f).recd = s.recd := rfl
@[simp] theorem State.updVec_rfe (f : Vec → Vec) : (s.updVec i f).rfe = s.rfe := rfl
@[simp] theorem State.updVec_slots (f : Vec → Vec) : (s.updVec i f).slots = s.slots := rfl
@[simp] theorem State.updVec_cx (f : Vec → Vec) : (s.updVec i f).cx = s.cx := rfl
@[simp] theorem State.updVec_cxPol (f : Vec → Vec) : (s.updVec i f).cxPol = s.cxPol := rfl
@[simp] theorem State.updVec_gcl (f : Vec → Vec) : (s.updVec i f).gcl = s.gcl := rfl
@[simp] theorem State.updVec_luts (f : Vec → Vec) : (s.updVec i f).luts = s.luts := rfl
@[simp] theorem State.updVec_prot (f : Vec → Vec) : (s.updVec i f).prot = s.prot := rfl
@[simp] theorem State.updVec_tim (f : Vec → Vec) : (s.updVec i f).tim = s.tim := rfl
@[simp] theorem State.updVec_le (f : Vec → Vec) : (s.updVec i f).le = s.le := rfl
@[simp] theorem State.updVec_jl (f : Vec → Vec) : (s.updVec i f).jl = s.jl := rfl
@[simp] theorem State.updVec_tst (f : Vec → Vec) : (s.updVec i f).tst = s.tst := rfl
@[simp] theorem State.updVec_freeCnt (f : Vec → Vec) : (s.updVec i f).freeCnt = s.freeCnt := rfl
@[simp] theorem State.updVec_pending (f : Vec → Vec) : (s.updVec i f).pending = s.pending := rfl
@[simp] theorem State.updVec_intc_prigroup (f : Vec → Vec) : (s.updVec i f).intc.prigroup = s.intc.prigroup := rfl
@[simp] theorem State.updVec_intc_wrBlocked (f : Vec → Vec) : (s.updVec i f).intc.wrBlocked = s.intc.wrBlocked := rfl
@[simp] theorem State.updVec_intc_srcs (f : Vec → Vec) : (s.updVec i f).intc.srcs = s.intc.srcs := rfl
@[simp] theorem State.updVec_intc_en (f : Vec → Vec) : (s.updVec i f).intc.en = s.intc.en := rfl
@[simp] theorem State.updVec_intc_lat (f : Vec → Vec) : (s.updVec i f).intc.lat = s.intc.lat := rfl
@[simp] theorem State.updVec_intc_claimed (f : Vec → Vec) : (s.updVec i f).intc.claimed = s.intc.claimed := rfl

@[simp] theorem State.vec_updVec (f : Vec → Vec) : (s.updVec i f).vec i = f (s.vec i) := Tab.get_upd_self _ _ _ _
theorem State.vec_updVec_ne (f : Vec → Vec) (h : i ≠ j) : (s.updVec i f).vec j = s.vec j := Tab.get_upd_ne _ _ _ _ _ _ h
theorem State.vec_updVec_at (f : Vec → Vec) : (s.updVec i f).vec j = if i = j then f (s.vec i) else s.vec j := by
  split
  · subst j; exact State.vec_updVec s i f
  · exact State.vec_updVec_ne s i j f ‹_›
theorem State.updVec_twice (f g : Vec → Vec) : (s.updVec i f).updVec i g = s.updVec i (fun x => g (f x)) := by
  unfold State.updVec; dsimp only; rw [Tab.upd_upd]
@[simp] theorem State.chain_updVec (f : Vec → Vec) : (s.updVec i f).chain j = s.chain j := rfl
@[simp] theorem State.txc_updVec (f : Vec → Vec) : (s.updVec i f).txc j = s.txc j := rfl
@[simp] theorem State.dcb_updVec (f : Vec → Vec) : (s.updVec i f).dcb j = s.dcb j := rfl
@[simp] theorem State.fecb_updVec (f : Vec → Vec) : (s.updVec i f).fecb j = s.fecb j := rfl
@[simp] theorem State.sched_updVec (f : Vec → Vec) : (s.updVec i f).sched j = s.sched j := rfl
@[simp] theorem State.slot_updVec (f : Vec → Vec) : (s.updVec i f).slot j = s.slot j := rfl
@[simp] theorem State.inst_updVec (f : Vec → Vec) : (s.updVec i f).inst j = s.inst j := rfl
@[simp] theorem State.gain_updVec (f : Vec → Vec) : (s.updVec i f).gain j = s.gain j := rfl
@[simp] theorem State.lut_updVec (f : Vec → Vec) : (s.updVec i f).lut j = s.lut j := rfl
@[simp] theorem State.wobj_updVec (f : Vec → Vec) : (s.updVec i f).wobj j = s.wobj j := rfl
@[simp] theorem State.net_updVec (f : Vec → Vec) : (s.updVec i f).net j = s.net j := rfl
@[simp] theorem State.rxDet_updVec (f : Vec → Vec) : (s.updVec i f).rxDet j = s.rxDet j := rfl
@[simp] theorem State.ring_updVec (f : Vec → Vec) : (s.updVec i f).ring j = s.ring j := rfl
@[simp] theorem State.trRing_updVec (f : Vec → Vec) : (s.updVec i f).trRing j = s.trRing j := rfl
@[simp] theorem State.fsrc_updVec (f : Vec → Vec) : (s.updVec i f).fsrc j = s.fsrc j := rfl
@[simp] theorem State.tileT_updVec (f : Vec → Vec) : (s.updVec i f).tileT j = s.tileT j := rfl
@[simp] theorem State.eng_updVec (f : Vec → Vec) : (s.updVec i f).eng j = s.eng j := rfl
@[simp] theorem State.task_updVec (f : Vec → Vec) : (s.updVec i f).task j = s.task j := rfl
@[simp] theorem State.port_updVec (f : Vec → Vec) : (s.updVec i f).port j = s.port j := rfl
@[simp] theorem State.strm_updVec (f : Vec → Vec) : (s.updVec i f).strm j = s.strm j := rfl
@[simp] theorem State.bucket_updVec (f : Vec → Vec) : (s.updVec i f).bucket j = s.bucket j := rfl

/-! ## updFsrc -/

@[simp] theorem State.updFsrc_now (f : FSrc → FSrc) : (s.updFsrc i f).now = s.now := rfl
@[simp] theorem State.updFsrc_hif (f : FSrc → FSrc) : (s.updFsrc i f).hif = s.hif := rfl
@[simp] theorem State.updFsrc_intc (f : FSrc → FSrc) : (s.updFsrc i f).intc = s.intc := rfl
@[simp] theorem State.updFsrc_recd (f : FSrc → FSrc) : (s.updFsrc i f).recd = s.recd := rfl
@[simp] theorem State.updFsrc_rfe (f : FSrc → FSrc) : (s.updFsrc i f).rfe = s.rfe := rfl
@[simp] theorem State.updFsrc_slots (f : FSrc → FSrc) : (s.updFsrc i f).slots = s.slots := rfl
@[simp] theorem State.updFsrc_cx (f : FSrc → FSrc) : (s.updFsrc i f).cx = s.cx := rfl
@[simp] theorem State.updFsrc_cxPol (f : FSrc → FSrc) : (s.updFsrc i f).cxPol = s.cxPol := rfl
@[simp] theorem State.updFsrc_gcl (f : FSrc → FSrc) : (s.updFsrc i f).gcl = s.gcl := rfl
@[simp] theorem State.updFsrc_luts (f : FSrc → FSrc) : (s.updFsrc i f).luts = s.luts := rfl
@[simp] theorem State.updFsrc_prot (f : FSrc → FSrc) : (s.updFsrc i f).prot = s.prot := rfl
@[simp] theorem State.updFsrc_tim (f : FSrc → FSrc) : (s.updFsrc i f).tim = s.tim := rfl
@[simp] theorem State.updFsrc_le (f : FSrc → FSrc) : (s.updFsrc i f).le = s.le := rfl
@[simp] theorem State.updFsrc_jl (f : FSrc → FSrc) : (s.updFsrc i f).jl = s.jl := rfl
@[simp] theorem State.updFsrc_tst (f : FSrc → FSrc) : (s.updFsrc i f).tst = s.tst := rfl
@[simp] theorem State.updFsrc_freeCnt (f : FSrc → FSrc) : (s.updFsrc i f).freeCnt = s.freeCnt := rfl
@[simp] theorem State.updFsrc_pending (f : FSrc → FSrc) : (s.updFsrc i f).pending = s.pending := rfl
@[simp] theorem State.updFsrc_flt_policy (f : FSrc → FSrc) : (s.updFsrc i f).flt.policy = s.flt.policy := rfl
@[simp] theorem State.updFsrc_flt_sev (f : FSrc → FSrc) : (s.updFsrc i f).flt.sev = s.flt.sev := rfl
@[simp] theorem State.updFsrc_flt_sevLost (f : FSrc → FSrc) : (s.updFsrc i f).flt.sevLost = s.flt.sevLost := rfl
@[simp] theorem State.updFsrc_flt_grace (f : FSrc → FSrc) : (s.updFsrc i f).flt.grace = s.flt.grace := rfl
@[simp] theorem State.updFsrc_flt_wrrej (f : FSrc → FSrc) : (s.updFsrc i f).flt.wrrej = s.flt.wrrej := rfl
@[simp] theorem State.updFsrc_flt_regfault (f : FSrc → FSrc) : (s.updFsrc i f).flt.regfault = s.flt.regfault := rfl
@[simp] theorem State.updFsrc_flt_passes (f : FSrc → FSrc) : (s.updFsrc i f).flt.passes = s.flt.passes := rfl
@[simp] theorem State.updFsrc_flt_passMs (f : FSrc → FSrc) : (s.updFsrc i f).flt.passMs = s.flt.passMs := rfl
@[simp] theorem State.updFsrc_flt_corr (f : FSrc → FSrc) : (s.updFsrc i f).flt.corr = s.flt.corr := rfl
@[simp] theorem State.updFsrc_flt_unc (f : FSrc → FSrc) : (s.updFsrc i f).flt.unc = s.flt.unc := rfl
@[simp] theorem State.updFsrc_flt_toggling (f : FSrc → FSrc) : (s.updFsrc i f).flt.toggling = s.flt.toggling := rfl
@[simp] theorem State.updFsrc_flt_alive (f : FSrc → FSrc) : (s.updFsrc i f).flt.alive = s.flt.alive := rfl
@[simp] theorem State.updFsrc_flt_stops (f : FSrc → FSrc) : (s.updFsrc i f).flt.stops = s.flt.stops := rfl
@[simp] theorem State.updFsrc_flt_halfAt (f : FSrc → FSrc) : (s.updFsrc i f).flt.halfAt = s.flt.halfAt := rfl
@[simp] theorem State.updFsrc_flt_hbRun (f : FSrc → FSrc) : (s.updFsrc i f).flt.hbRun = s.flt.hbRun := rfl
@[simp] theorem State.updFsrc_flt_hb (f : FSrc → FSrc) : (s.updFsrc i f).flt.hb = s.flt.hb := rfl
@[simp] theorem State.updFsrc_flt_hbOff (f : FSrc → FSrc) : (s.updFsrc i f).flt.hbOff = s.flt.hbOff := rfl
@[simp] theorem State.updFsrc_flt_hbMiss (f : FSrc → FSrc) : (s.updFsrc i f).flt.hbMiss = s.flt.hbMiss := rfl
@[simp] theorem State.updFsrc_flt_stall (f : FSrc → FSrc) : (s.updFsrc i f).flt.stall = s.flt.stall := rfl
@[simp] theorem State.updFsrc_flt_poisoned (f : FSrc → FSrc) : (s.updFsrc i f).flt.poisoned = s.flt.poisoned := rfl
@[simp] theorem State.updFsrc_flt_flipped (f : FSrc → FSrc) : (s.updFsrc i f).flt.flipped = s.flt.flipped := rfl
@[simp] theorem State.updFsrc_flt_badCompl (f : FSrc → FSrc) : (s.updFsrc i f).flt.badCompl = s.flt.badCompl := rfl

@[simp] theorem State.fsrc_updFsrc (f : FSrc → FSrc) : (s.updFsrc i f).fsrc i = f (s.fsrc i) := Tab.get_upd_self _ _ _ _
theorem State.fsrc_updFsrc_ne (f : FSrc → FSrc) (h : i ≠ j) : (s.updFsrc i f).fsrc j = s.fsrc j := Tab.get_upd_ne _ _ _ _ _ _ h
theorem State.fsrc_updFsrc_at (f : FSrc → FSrc) : (s.updFsrc i f).fsrc j = if i = j then f (s.fsrc i) else s.fsrc j := by
  split
  · subst j; exact State.fsrc_updFsrc s i f
  · exact State.fsrc_updFsrc_ne s i j f ‹_›
theorem State.updFsrc_twice (f g : FSrc → FSrc) : (s.updFsrc i f).updFsrc i g = s.updFsrc i (fun x => g (f x)) := by
  unfold State.updFsrc; dsimp only; rw [Tab.upd_upd]
@[simp] theorem State.chain_updFsrc (f : FSrc → FSrc) : (s.updFsrc i f).chain j = s.chain j := rfl
@[simp] theorem State.txc_updFsrc (f : FSrc → FSrc) : (s.updFsrc i f).txc j = s.txc j := rfl
@[simp] theorem State.dcb_updFsrc (f : FSrc → FSrc) : (s.updFsrc i f).dcb j = s.dcb j := rfl
@[simp] theorem State.fecb_updFsrc (f : FSrc → FSrc) : (s.updFsrc i f).fecb j = s.fecb j := rfl
@[simp] theorem State.sched_updFsrc (f : FSrc → FSrc) : (s.updFsrc i f).sched j = s.sched j := rfl
@[simp] theorem State.slot_updFsrc (f : FSrc → FSrc) : (s.updFsrc i f).slot j = s.slot j := rfl
@[simp] theorem State.inst_updFsrc (f : FSrc → FSrc) : (s.updFsrc i f).inst j = s.inst j := rfl
@[simp] theorem State.gain_updFsrc (f : FSrc → FSrc) : (s.updFsrc i f).gain j = s.gain j := rfl
@[simp] theorem State.lut_updFsrc (f : FSrc → FSrc) : (s.updFsrc i f).lut j = s.lut j := rfl
@[simp] theorem State.wobj_updFsrc (f : FSrc → FSrc) : (s.updFsrc i f).wobj j = s.wobj j := rfl
@[simp] theorem State.net_updFsrc (f : FSrc → FSrc) : (s.updFsrc i f).net j = s.net j := rfl
@[simp] theorem State.rxDet_updFsrc (f : FSrc → FSrc) : (s.updFsrc i f).rxDet j = s.rxDet j := rfl
@[simp] theorem State.ring_updFsrc (f : FSrc → FSrc) : (s.updFsrc i f).ring j = s.ring j := rfl
@[simp] theorem State.trRing_updFsrc (f : FSrc → FSrc) : (s.updFsrc i f).trRing j = s.trRing j := rfl
@[simp] theorem State.vec_updFsrc (f : FSrc → FSrc) : (s.updFsrc i f).vec j = s.vec j := rfl
@[simp] theorem State.tileT_updFsrc (f : FSrc → FSrc) : (s.updFsrc i f).tileT j = s.tileT j := rfl
@[simp] theorem State.eng_updFsrc (f : FSrc → FSrc) : (s.updFsrc i f).eng j = s.eng j := rfl
@[simp] theorem State.task_updFsrc (f : FSrc → FSrc) : (s.updFsrc i f).task j = s.task j := rfl
@[simp] theorem State.port_updFsrc (f : FSrc → FSrc) : (s.updFsrc i f).port j = s.port j := rfl
@[simp] theorem State.strm_updFsrc (f : FSrc → FSrc) : (s.updFsrc i f).strm j = s.strm j := rfl
@[simp] theorem State.bucket_updFsrc (f : FSrc → FSrc) : (s.updFsrc i f).bucket j = s.bucket j := rfl

/-! ## updTile -/

@[simp] theorem State.updTile_now (f : TileT → TileT) : (s.updTile i f).now = s.now := rfl
@[simp] theorem State.updTile_hif (f : TileT → TileT) : (s.updTile i f).hif = s.hif := rfl
@[simp] theorem State.updTile_intc (f : TileT → TileT) : (s.updTile i f).intc = s.intc := rfl
@[simp] theorem State.updTile_flt (f : TileT → TileT) : (s.updTile i f).flt = s.flt := rfl
@[simp] theorem State.updTile_recd (f : TileT → TileT) : (s.updTile i f).recd = s.recd := rfl
@[simp] theorem State.updTile_rfe (f : TileT → TileT) : (s.updTile i f).rfe = s.rfe := rfl
@[simp] theorem State.updTile_slots (f : TileT → TileT) : (s.updTile i f).slots = s.slots := rfl
@[simp] theorem State.updTile_cx (f : TileT → TileT) : (s.updTile i f).cx = s.cx := rfl
@[simp] theorem State.updTile_cxPol (f : TileT → TileT) : (s.updTile i f).cxPol = s.cxPol := rfl
@[simp] theorem State.updTile_gcl (f : TileT → TileT) : (s.updTile i f).gcl = s.gcl := rfl
@[simp] theorem State.updTile_luts (f : TileT → TileT) : (s.updTile i f).luts = s.luts := rfl
@[simp] theorem State.updTile_prot (f : TileT → TileT) : (s.updTile i f).prot = s.prot := rfl
@[simp] theorem State.updTile_le (f : TileT → TileT) : (s.updTile i f).le = s.le := rfl
@[simp] theorem State.updTile_jl (f : TileT → TileT) : (s.updTile i f).jl = s.jl := rfl
@[simp] theorem State.updTile_tst (f : TileT → TileT) : (s.updTile i f).tst = s.tst := rfl
@[simp] theorem State.updTile_freeCnt (f : TileT → TileT) : (s.updTile i f).freeCnt = s.freeCnt := rfl
@[simp] theorem State.updTile_pending (f : TileT → TileT) : (s.updTile i f).pending = s.pending := rfl
@[simp] theorem State.updTile_tim_dtRun (f : TileT → TileT) : (s.updTile i f).tim.dtRun = s.tim.dtRun := rfl
@[simp] theorem State.updTile_tim_dtOrigin (f : TileT → TileT) : (s.updTile i f).tim.dtOrigin = s.tim.dtOrigin := rfl
@[simp] theorem State.updTile_tim_slew (f : TileT → TileT) : (s.updTile i f).tim.slew = s.tim.slew := rfl
@[simp] theorem State.updTile_tim_slewAt (f : TileT → TileT) : (s.updTile i f).tim.slewAt = s.tim.slewAt := rfl
@[simp] theorem State.updTile_tim_align (f : TileT → TileT) : (s.updTile i f).tim.align = s.tim.align := rfl
@[simp] theorem State.updTile_tim_srcUsed (f : TileT → TileT) : (s.updTile i f).tim.srcUsed = s.tim.srcUsed := rfl
@[simp] theorem State.updTile_tim_tileOk (f : TileT → TileT) : (s.updTile i f).tim.tileOk = s.tim.tileOk := rfl
@[simp] theorem State.updTile_tim_framePh (f : TileT → TileT) : (s.updTile i f).tim.framePh = s.tim.framePh := rfl
@[simp] theorem State.updTile_tim_edgeCnt (f : TileT → TileT) : (s.updTile i f).tim.edgeCnt = s.tim.edgeCnt := rfl
@[simp] theorem State.updTile_tim_ferr (f : TileT → TileT) : (s.updTile i f).tim.ferr = s.tim.ferr := rfl
@[simp] theorem State.updTile_tim_frameIn (f : TileT → TileT) : (s.updTile i f).tim.frameIn = s.tim.frameIn := rfl
@[simp] theorem State.updTile_tim_frameOut (f : TileT → TileT) : (s.updTile i f).tim.frameOut = s.tim.frameOut := rfl
@[simp] theorem State.updTile_tim_slack (f : TileT → TileT) : (s.updTile i f).tim.slack = s.tim.slack := rfl
@[simp] theorem State.updTile_tim_vidMode (f : TileT → TileT) : (s.updTile i f).tim.vidMode = s.tim.vidMode := rfl
@[simp] theorem State.updTile_tim_vidCeil (f : TileT → TileT) : (s.updTile i f).tim.vidCeil = s.tim.vidCeil := rfl
@[simp] theorem State.updTile_tim_vidFloor (f : TileT → TileT) : (s.updTile i f).tim.vidFloor = s.tim.vidFloor := rfl
@[simp] theorem State.updTile_tim_vidFixed (f : TileT → TileT) : (s.updTile i f).tim.vidFixed = s.tim.vidFixed := rfl
@[simp] theorem State.updTile_tim_vidNow (f : TileT → TileT) : (s.updTile i f).tim.vidNow = s.tim.vidNow := rfl
@[simp] theorem State.updTile_tim_vidLow (f : TileT → TileT) : (s.updTile i f).tim.vidLow = s.tim.vidLow := rfl
@[simp] theorem State.updTile_tim_vidHigh (f : TileT → TileT) : (s.updTile i f).tim.vidHigh = s.tim.vidHigh := rfl

@[simp] theorem State.tileT_updTile (f : TileT → TileT) : (s.updTile i f).tileT i = f (s.tileT i) := Tab.get_upd_self _ _ _ _
theorem State.tileT_updTile_ne (f : TileT → TileT) (h : i ≠ j) : (s.updTile i f).tileT j = s.tileT j := Tab.get_upd_ne _ _ _ _ _ _ h
theorem State.tileT_updTile_at (f : TileT → TileT) : (s.updTile i f).tileT j = if i = j then f (s.tileT i) else s.tileT j := by
  split
  · subst j; exact State.tileT_updTile s i f
  · exact State.tileT_updTile_ne s i j f ‹_›
theorem State.updTile_twice (f g : TileT → TileT) : (s.updTile i f).updTile i g = s.updTile i (fun x => g (f x)) := by
  unfold State.updTile; dsimp only; rw [Tab.upd_upd]
@[simp] theorem State.chain_updTile (f : TileT → TileT) : (s.updTile i f).chain j = s.chain j := rfl
@[simp] theorem State.txc_updTile (f : TileT → TileT) : (s.updTile i f).txc j = s.txc j := rfl
@[simp] theorem State.dcb_updTile (f : TileT → TileT) : (s.updTile i f).dcb j = s.dcb j := rfl
@[simp] theorem State.fecb_updTile (f : TileT → TileT) : (s.updTile i f).fecb j = s.fecb j := rfl
@[simp] theorem State.sched_updTile (f : TileT → TileT) : (s.updTile i f).sched j = s.sched j := rfl
@[simp] theorem State.slot_updTile (f : TileT → TileT) : (s.updTile i f).slot j = s.slot j := rfl
@[simp] theorem State.inst_updTile (f : TileT → TileT) : (s.updTile i f).inst j = s.inst j := rfl
@[simp] theorem State.gain_updTile (f : TileT → TileT) : (s.updTile i f).gain j = s.gain j := rfl
@[simp] theorem State.lut_updTile (f : TileT → TileT) : (s.updTile i f).lut j = s.lut j := rfl
@[simp] theorem State.wobj_updTile (f : TileT → TileT) : (s.updTile i f).wobj j = s.wobj j := rfl
@[simp] theorem State.net_updTile (f : TileT → TileT) : (s.updTile i f).net j = s.net j := rfl
@[simp] theorem State.rxDet_updTile (f : TileT → TileT) : (s.updTile i f).rxDet j = s.rxDet j := rfl
@[simp] theorem State.ring_updTile (f : TileT → TileT) : (s.updTile i f).ring j = s.ring j := rfl
@[simp] theorem State.trRing_updTile (f : TileT → TileT) : (s.updTile i f).trRing j = s.trRing j := rfl
@[simp] theorem State.vec_updTile (f : TileT → TileT) : (s.updTile i f).vec j = s.vec j := rfl
@[simp] theorem State.fsrc_updTile (f : TileT → TileT) : (s.updTile i f).fsrc j = s.fsrc j := rfl
@[simp] theorem State.eng_updTile (f : TileT → TileT) : (s.updTile i f).eng j = s.eng j := rfl
@[simp] theorem State.task_updTile (f : TileT → TileT) : (s.updTile i f).task j = s.task j := rfl
@[simp] theorem State.port_updTile (f : TileT → TileT) : (s.updTile i f).port j = s.port j := rfl
@[simp] theorem State.strm_updTile (f : TileT → TileT) : (s.updTile i f).strm j = s.strm j := rfl
@[simp] theorem State.bucket_updTile (f : TileT → TileT) : (s.updTile i f).bucket j = s.bucket j := rfl

/-! ## updEng -/

@[simp] theorem State.updEng_now (f : Eng → Eng) : (s.updEng i f).now = s.now := rfl
@[simp] theorem State.updEng_hif (f : Eng → Eng) : (s.updEng i f).hif = s.hif := rfl
@[simp] theorem State.updEng_intc (f : Eng → Eng) : (s.updEng i f).intc = s.intc := rfl
@[simp] theorem State.updEng_flt (f : Eng → Eng) : (s.updEng i f).flt = s.flt := rfl
@[simp] theorem State.updEng_recd (f : Eng → Eng) : (s.updEng i f).recd = s.recd := rfl
@[simp] theorem State.updEng_rfe (f : Eng → Eng) : (s.updEng i f).rfe = s.rfe := rfl
@[simp] theorem State.updEng_slots (f : Eng → Eng) : (s.updEng i f).slots = s.slots := rfl
@[simp] theorem State.updEng_cx (f : Eng → Eng) : (s.updEng i f).cx = s.cx := rfl
@[simp] theorem State.updEng_cxPol (f : Eng → Eng) : (s.updEng i f).cxPol = s.cxPol := rfl
@[simp] theorem State.updEng_gcl (f : Eng → Eng) : (s.updEng i f).gcl = s.gcl := rfl
@[simp] theorem State.updEng_luts (f : Eng → Eng) : (s.updEng i f).luts = s.luts := rfl
@[simp] theorem State.updEng_prot (f : Eng → Eng) : (s.updEng i f).prot = s.prot := rfl
@[simp] theorem State.updEng_tim (f : Eng → Eng) : (s.updEng i f).tim = s.tim := rfl
@[simp] theorem State.updEng_jl (f : Eng → Eng) : (s.updEng i f).jl = s.jl := rfl
@[simp] theorem State.updEng_tst (f : Eng → Eng) : (s.updEng i f).tst = s.tst := rfl
@[simp] theorem State.updEng_freeCnt (f : Eng → Eng) : (s.updEng i f).freeCnt = s.freeCnt := rfl
@[simp] theorem State.updEng_pending (f : Eng → Eng) : (s.updEng i f).pending = s.pending := rfl
@[simp] theorem State.updEng_le_libRunning (f : Eng → Eng) : (s.updEng i f).le.libRunning = s.le.libRunning := rfl
@[simp] theorem State.updEng_le_libLoaded (f : Eng → Eng) : (s.updEng i f).le.libLoaded = s.le.libLoaded := rfl
@[simp] theorem State.updEng_le_tasks (f : Eng → Eng) : (s.updEng i f).le.tasks = s.le.tasks := rfl

@[simp] theorem State.eng_updEng (f : Eng → Eng) : (s.updEng i f).eng i = f (s.eng i) := Tab.get_upd_self _ _ _ _
theorem State.eng_updEng_ne (f : Eng → Eng) (h : i ≠ j) : (s.updEng i f).eng j = s.eng j := Tab.get_upd_ne _ _ _ _ _ _ h
theorem State.eng_updEng_at (f : Eng → Eng) : (s.updEng i f).eng j = if i = j then f (s.eng i) else s.eng j := by
  split
  · subst j; exact State.eng_updEng s i f
  · exact State.eng_updEng_ne s i j f ‹_›
theorem State.updEng_twice (f g : Eng → Eng) : (s.updEng i f).updEng i g = s.updEng i (fun x => g (f x)) := by
  unfold State.updEng; dsimp only; rw [Tab.upd_upd]
@[simp] theorem State.chain_updEng (f : Eng → Eng) : (s.updEng i f).chain j = s.chain j := rfl
@[simp] theorem State.txc_updEng (f : Eng → Eng) : (s.updEng i f).txc j = s.txc j := rfl
@[simp] theorem State.dcb_updEng (f : Eng → Eng) : (s.updEng i f).dcb j = s.dcb j := rfl
@[simp] theorem State.fecb_updEng (f : Eng → Eng) : (s.updEng i f).fecb j = s.fecb j := rfl
@[simp] theorem State.sched_updEng (f : Eng → Eng) : (s.updEng i f).sched j = s.sched j := rfl
@[simp] theorem State.slot_updEng (f : Eng → Eng) : (s.updEng i f).slot j = s.slot j := rfl
@[simp] theorem State.inst_updEng (f : Eng → Eng) : (s.updEng i f).inst j = s.inst j := rfl
@[simp] theorem State.gain_updEng (f : Eng → Eng) : (s.updEng i f).gain j = s.gain j := rfl
@[simp] theorem State.lut_updEng (f : Eng → Eng) : (s.updEng i f).lut j = s.lut j := rfl
@[simp] theorem State.wobj_updEng (f : Eng → Eng) : (s.updEng i f).wobj j = s.wobj j := rfl
@[simp] theorem State.net_updEng (f : Eng → Eng) : (s.updEng i f).net j = s.net j := rfl
@[simp] theorem State.rxDet_updEng (f : Eng → Eng) : (s.updEng i f).rxDet j = s.rxDet j := rfl
@[simp] theorem State.ring_updEng (f : Eng → Eng) : (s.updEng i f).ring j = s.ring j := rfl
@[simp] theorem State.trRing_updEng (f : Eng → Eng) : (s.updEng i f).trRing j = s.trRing j := rfl
@[simp] theorem State.vec_updEng (f : Eng → Eng) : (s.updEng i f).vec j = s.vec j := rfl
@[simp] theorem State.fsrc_updEng (f : Eng → Eng) : (s.updEng i f).fsrc j = s.fsrc j := rfl
@[simp] theorem State.tileT_updEng (f : Eng → Eng) : (s.updEng i f).tileT j = s.tileT j := rfl
@[simp] theorem State.task_updEng (f : Eng → Eng) : (s.updEng i f).task j = s.task j := rfl
@[simp] theorem State.port_updEng (f : Eng → Eng) : (s.updEng i f).port j = s.port j := rfl
@[simp] theorem State.strm_updEng (f : Eng → Eng) : (s.updEng i f).strm j = s.strm j := rfl
@[simp] theorem State.bucket_updEng (f : Eng → Eng) : (s.updEng i f).bucket j = s.bucket j := rfl

/-! ## updTask -/

@[simp] theorem State.updTask_now (f : Task → Task) : (s.updTask i f).now = s.now := rfl
@[simp] theorem State.updTask_hif (f : Task → Task) : (s.updTask i f).hif = s.hif := rfl
@[simp] theorem State.updTask_intc (f : Task → Task) : (s.updTask i f).intc = s.intc := rfl
@[simp] theorem State.updTask_flt (f : Task → Task) : (s.updTask i f).flt = s.flt := rfl
@[simp] theorem State.updTask_recd (f : Task → Task) : (s.updTask i f).recd = s.recd := rfl
@[simp] theorem State.updTask_rfe (f : Task → Task) : (s.updTask i f).rfe = s.rfe := rfl
@[simp] theorem State.updTask_slots (f : Task → Task) : (s.updTask i f).slots = s.slots := rfl
@[simp] theorem State.updTask_cx (f : Task → Task) : (s.updTask i f).cx = s.cx := rfl
@[simp] theorem State.updTask_cxPol (f : Task → Task) : (s.updTask i f).cxPol = s.cxPol := rfl
@[simp] theorem State.updTask_gcl (f : Task → Task) : (s.updTask i f).gcl = s.gcl := rfl
@[simp] theorem State.updTask_luts (f : Task → Task) : (s.updTask i f).luts = s.luts := rfl
@[simp] theorem State.updTask_prot (f : Task → Task) : (s.updTask i f).prot = s.prot := rfl
@[simp] theorem State.updTask_tim (f : Task → Task) : (s.updTask i f).tim = s.tim := rfl
@[simp] theorem State.updTask_jl (f : Task → Task) : (s.updTask i f).jl = s.jl := rfl
@[simp] theorem State.updTask_tst (f : Task → Task) : (s.updTask i f).tst = s.tst := rfl
@[simp] theorem State.updTask_freeCnt (f : Task → Task) : (s.updTask i f).freeCnt = s.freeCnt := rfl
@[simp] theorem State.updTask_pending (f : Task → Task) : (s.updTask i f).pending = s.pending := rfl
@[simp] theorem State.updTask_le_libRunning (f : Task → Task) : (s.updTask i f).le.libRunning = s.le.libRunning := rfl
@[simp] theorem State.updTask_le_libLoaded (f : Task → Task) : (s.updTask i f).le.libLoaded = s.le.libLoaded := rfl
@[simp] theorem State.updTask_le_engs (f : Task → Task) : (s.updTask i f).le.engs = s.le.engs := rfl

@[simp] theorem State.task_updTask (f : Task → Task) : (s.updTask i f).task i = f (s.task i) := Tab.get_upd_self _ _ _ _
theorem State.task_updTask_ne (f : Task → Task) (h : i ≠ j) : (s.updTask i f).task j = s.task j := Tab.get_upd_ne _ _ _ _ _ _ h
theorem State.task_updTask_at (f : Task → Task) : (s.updTask i f).task j = if i = j then f (s.task i) else s.task j := by
  split
  · subst j; exact State.task_updTask s i f
  · exact State.task_updTask_ne s i j f ‹_›
theorem State.updTask_twice (f g : Task → Task) : (s.updTask i f).updTask i g = s.updTask i (fun x => g (f x)) := by
  unfold State.updTask; dsimp only; rw [Tab.upd_upd]
@[simp] theorem State.chain_updTask (f : Task → Task) : (s.updTask i f).chain j = s.chain j := rfl
@[simp] theorem State.txc_updTask (f : Task → Task) : (s.updTask i f).txc j = s.txc j := rfl
@[simp] theorem State.dcb_updTask (f : Task → Task) : (s.updTask i f).dcb j = s.dcb j := rfl
@[simp] theorem State.fecb_updTask (f : Task → Task) : (s.updTask i f).fecb j = s.fecb j := rfl
@[simp] theorem State.sched_updTask (f : Task → Task) : (s.updTask i f).sched j = s.sched j := rfl
@[simp] theorem State.slot_updTask (f : Task → Task) : (s.updTask i f).slot j = s.slot j := rfl
@[simp] theorem State.inst_updTask (f : Task → Task) : (s.updTask i f).inst j = s.inst j := rfl
@[simp] theorem State.gain_updTask (f : Task → Task) : (s.updTask i f).gain j = s.gain j := rfl
@[simp] theorem State.lut_updTask (f : Task → Task) : (s.updTask i f).lut j = s.lut j := rfl
@[simp] theorem State.wobj_updTask (f : Task → Task) : (s.updTask i f).wobj j = s.wobj j := rfl
@[simp] theorem State.net_updTask (f : Task → Task) : (s.updTask i f).net j = s.net j := rfl
@[simp] theorem State.rxDet_updTask (f : Task → Task) : (s.updTask i f).rxDet j = s.rxDet j := rfl
@[simp] theorem State.ring_updTask (f : Task → Task) : (s.updTask i f).ring j = s.ring j := rfl
@[simp] theorem State.trRing_updTask (f : Task → Task) : (s.updTask i f).trRing j = s.trRing j := rfl
@[simp] theorem State.vec_updTask (f : Task → Task) : (s.updTask i f).vec j = s.vec j := rfl
@[simp] theorem State.fsrc_updTask (f : Task → Task) : (s.updTask i f).fsrc j = s.fsrc j := rfl
@[simp] theorem State.tileT_updTask (f : Task → Task) : (s.updTask i f).tileT j = s.tileT j := rfl
@[simp] theorem State.eng_updTask (f : Task → Task) : (s.updTask i f).eng j = s.eng j := rfl
@[simp] theorem State.port_updTask (f : Task → Task) : (s.updTask i f).port j = s.port j := rfl
@[simp] theorem State.strm_updTask (f : Task → Task) : (s.updTask i f).strm j = s.strm j := rfl
@[simp] theorem State.bucket_updTask (f : Task → Task) : (s.updTask i f).bucket j = s.bucket j := rfl

/-! ## updPort -/

@[simp] theorem State.updPort_now (f : Port → Port) : (s.updPort i f).now = s.now := rfl
@[simp] theorem State.updPort_hif (f : Port → Port) : (s.updPort i f).hif = s.hif := rfl
@[simp] theorem State.updPort_intc (f : Port → Port) : (s.updPort i f).intc = s.intc := rfl
@[simp] theorem State.updPort_flt (f : Port → Port) : (s.updPort i f).flt = s.flt := rfl
@[simp] theorem State.updPort_recd (f : Port → Port) : (s.updPort i f).recd = s.recd := rfl
@[simp] theorem State.updPort_rfe (f : Port → Port) : (s.updPort i f).rfe = s.rfe := rfl
@[simp] theorem State.updPort_slots (f : Port → Port) : (s.updPort i f).slots = s.slots := rfl
@[simp] theorem State.updPort_cx (f : Port → Port) : (s.updPort i f).cx = s.cx := rfl
@[simp] theorem State.updPort_cxPol (f : Port → Port) : (s.updPort i f).cxPol = s.cxPol := rfl
@[simp] theorem State.updPort_gcl (f : Port → Port) : (s.updPort i f).gcl = s.gcl := rfl
@[simp] theorem State.updPort_luts (f : Port → Port) : (s.updPort i f).luts = s.luts := rfl
@[simp] theorem State.updPort_prot (f : Port → Port) : (s.updPort i f).prot = s.prot := rfl
@[simp] theorem State.updPort_tim (f : Port → Port) : (s.updPort i f).tim = s.tim := rfl
@[simp] theorem State.updPort_le (f : Port → Port) : (s.updPort i f).le = s.le := rfl
@[simp] theorem State.updPort_tst (f : Port → Port) : (s.updPort i f).tst = s.tst := rfl
@[simp] theorem State.updPort_freeCnt (f : Port → Port) : (s.updPort i f).freeCnt = s.freeCnt := rfl
@[simp] theorem State.updPort_pending (f : Port → Port) : (s.updPort i f).pending = s.pending := rfl
@[simp] theorem State.updPort_jl_timeout (f : Port → Port) : (s.updPort i f).jl.timeout = s.jl.timeout := rfl
@[simp] theorem State.updPort_jl_time (f : Port → Port) : (s.updPort i f).jl.time = s.jl.time := rfl
@[simp] theorem State.updPort_jl_depth (f : Port → Port) : (s.updPort i f).jl.depth = s.jl.depth := rfl
@[simp] theorem State.updPort_jl_caphold (f : Port → Port) : (s.updPort i f).jl.caphold = s.jl.caphold := rfl
@[simp] theorem State.updPort_jl_members (f : Port → Port) : (s.updPort i f).jl.members = s.jl.members := rfl
@[simp] theorem State.updPort_jl_cseq (f : Port → Port) : (s.updPort i f).jl.cseq = s.jl.cseq := rfl
@[simp] theorem State.updPort_jl_holdAt (f : Port → Port) : (s.updPort i f).jl.holdAt = s.jl.holdAt := rfl
@[simp] theorem State.updPort_jl_conflict (f : Port → Port) : (s.updPort i f).jl.conflict = s.jl.conflict := rfl
@[simp] theorem State.updPort_jl_farHeld (f : Port → Port) : (s.updPort i f).jl.farHeld = s.jl.farHeld := rfl
@[simp] theorem State.updPort_jl_hbAt (f : Port → Port) : (s.updPort i f).jl.hbAt = s.jl.hbAt := rfl
@[simp] theorem State.updPort_jl_epoch (f : Port → Port) : (s.updPort i f).jl.epoch = s.jl.epoch := rfl
@[simp] theorem State.updPort_jl_ndev (f : Port → Port) : (s.updPort i f).jl.ndev = s.jl.ndev := rfl
@[simp] theorem State.updPort_jl_masterId (f : Port → Port) : (s.updPort i f).jl.masterId = s.jl.masterId := rfl
@[simp] theorem State.updPort_jl_diffs (f : Port → Port) : (s.updPort i f).jl.diffs = s.jl.diffs := rfl
@[simp] theorem State.updPort_jl_strs (f : Port → Port) : (s.updPort i f).jl.strs = s.jl.strs := rfl
@[simp] theorem State.updPort_jl_agrp (f : Port → Port) : (s.updPort i f).jl.agrp = s.jl.agrp := rfl
@[simp] theorem State.updPort_jl_exp (f : Port → Port) : (s.updPort i f).jl.exp = s.jl.exp := rfl
@[simp] theorem State.updPort_jl_resps (f : Port → Port) : (s.updPort i f).jl.resps = s.jl.resps := rfl
@[simp] theorem State.updPort_jl_nextSeq (f : Port → Port) : (s.updPort i f).jl.nextSeq = s.jl.nextSeq := rfl
@[simp] theorem State.updPort_jl_reqs (f : Port → Port) : (s.updPort i f).jl.reqs = s.jl.reqs := rfl
@[simp] theorem State.updPort_jl_reqq (f : Port → Port) : (s.updPort i f).jl.reqq = s.jl.reqq := rfl
@[simp] theorem State.updPort_jl_rseq (f : Port → Port) : (s.updPort i f).jl.rseq = s.jl.rseq := rfl
@[simp] theorem State.updPort_jl_reportAt (f : Port → Port) : (s.updPort i f).jl.reportAt = s.jl.reportAt := rfl
@[simp] theorem State.updPort_jl_dirty (f : Port → Port) : (s.updPort i f).jl.dirty = s.jl.dirty := rfl
@[simp] theorem State.updPort_jl_needFull (f : Port → Port) : (s.updPort i f).jl.needFull = s.jl.needFull := rfl
@[simp] theorem State.updPort_jl_raises (f : Port → Port) : (s.updPort i f).jl.raises = s.jl.raises := rfl
@[simp] theorem State.updPort_jl_raisesNew (f : Port → Port) : (s.updPort i f).jl.raisesNew = s.jl.raisesNew := rfl
@[simp] theorem State.updPort_jl_joined (f : Port → Port) : (s.updPort i f).jl.joined = s.jl.joined := rfl
@[simp] theorem State.updPort_jl_figs (f : Port → Port) : (s.updPort i f).jl.figs = s.jl.figs := rfl
@[simp] theorem State.updPort_jl_reach (f : Port → Port) : (s.updPort i f).jl.reach = s.jl.reach := rfl
@[simp] theorem State.updPort_jl_caps (f : Port → Port) : (s.updPort i f).jl.caps = s.jl.caps := rfl
@[simp] theorem State.updPort_jl_capSeq (f : Port → Port) : (s.updPort i f).jl.capSeq = s.jl.capSeq := rfl
@[simp] theorem State.updPort_jl_owed (f : Port → Port) : (s.updPort i f).jl.owed = s.jl.owed := rfl
@[simp] theorem State.updPort_jl_lastHb (f : Port → Port) : (s.updPort i f).jl.lastHb = s.jl.lastHb := rfl

@[simp] theorem State.port_updPort (f : Port → Port) : (s.updPort i f).port i = f (s.port i) := Tab.get_upd_self _ _ _ _
theorem State.port_updPort_ne (f : Port → Port) (h : i ≠ j) : (s.updPort i f).port j = s.port j := Tab.get_upd_ne _ _ _ _ _ _ h
theorem State.port_updPort_at (f : Port → Port) : (s.updPort i f).port j = if i = j then f (s.port i) else s.port j := by
  split
  · subst j; exact State.port_updPort s i f
  · exact State.port_updPort_ne s i j f ‹_›
theorem State.updPort_twice (f g : Port → Port) : (s.updPort i f).updPort i g = s.updPort i (fun x => g (f x)) := by
  unfold State.updPort; dsimp only; rw [Tab.upd_upd]
@[simp] theorem State.chain_updPort (f : Port → Port) : (s.updPort i f).chain j = s.chain j := rfl
@[simp] theorem State.txc_updPort (f : Port → Port) : (s.updPort i f).txc j = s.txc j := rfl
@[simp] theorem State.dcb_updPort (f : Port → Port) : (s.updPort i f).dcb j = s.dcb j := rfl
@[simp] theorem State.fecb_updPort (f : Port → Port) : (s.updPort i f).fecb j = s.fecb j := rfl
@[simp] theorem State.sched_updPort (f : Port → Port) : (s.updPort i f).sched j = s.sched j := rfl
@[simp] theorem State.slot_updPort (f : Port → Port) : (s.updPort i f).slot j = s.slot j := rfl
@[simp] theorem State.inst_updPort (f : Port → Port) : (s.updPort i f).inst j = s.inst j := rfl
@[simp] theorem State.gain_updPort (f : Port → Port) : (s.updPort i f).gain j = s.gain j := rfl
@[simp] theorem State.lut_updPort (f : Port → Port) : (s.updPort i f).lut j = s.lut j := rfl
@[simp] theorem State.wobj_updPort (f : Port → Port) : (s.updPort i f).wobj j = s.wobj j := rfl
@[simp] theorem State.net_updPort (f : Port → Port) : (s.updPort i f).net j = s.net j := rfl
@[simp] theorem State.rxDet_updPort (f : Port → Port) : (s.updPort i f).rxDet j = s.rxDet j := rfl
@[simp] theorem State.ring_updPort (f : Port → Port) : (s.updPort i f).ring j = s.ring j := rfl
@[simp] theorem State.trRing_updPort (f : Port → Port) : (s.updPort i f).trRing j = s.trRing j := rfl
@[simp] theorem State.vec_updPort (f : Port → Port) : (s.updPort i f).vec j = s.vec j := rfl
@[simp] theorem State.fsrc_updPort (f : Port → Port) : (s.updPort i f).fsrc j = s.fsrc j := rfl
@[simp] theorem State.tileT_updPort (f : Port → Port) : (s.updPort i f).tileT j = s.tileT j := rfl
@[simp] theorem State.eng_updPort (f : Port → Port) : (s.updPort i f).eng j = s.eng j := rfl
@[simp] theorem State.task_updPort (f : Port → Port) : (s.updPort i f).task j = s.task j := rfl
@[simp] theorem State.strm_updPort (f : Port → Port) : (s.updPort i f).strm j = s.strm j := rfl
@[simp] theorem State.bucket_updPort (f : Port → Port) : (s.updPort i f).bucket j = s.bucket j := rfl

/-! ## updStrm -/

@[simp] theorem State.updStrm_now (f : Strm → Strm) : (s.updStrm i f).now = s.now := rfl
@[simp] theorem State.updStrm_hif (f : Strm → Strm) : (s.updStrm i f).hif = s.hif := rfl
@[simp] theorem State.updStrm_intc (f : Strm → Strm) : (s.updStrm i f).intc = s.intc := rfl
@[simp] theorem State.updStrm_flt (f : Strm → Strm) : (s.updStrm i f).flt = s.flt := rfl
@[simp] theorem State.updStrm_recd (f : Strm → Strm) : (s.updStrm i f).recd = s.recd := rfl
@[simp] theorem State.updStrm_rfe (f : Strm → Strm) : (s.updStrm i f).rfe = s.rfe := rfl
@[simp] theorem State.updStrm_slots (f : Strm → Strm) : (s.updStrm i f).slots = s.slots := rfl
@[simp] theorem State.updStrm_cx (f : Strm → Strm) : (s.updStrm i f).cx = s.cx := rfl
@[simp] theorem State.updStrm_cxPol (f : Strm → Strm) : (s.updStrm i f).cxPol = s.cxPol := rfl
@[simp] theorem State.updStrm_gcl (f : Strm → Strm) : (s.updStrm i f).gcl = s.gcl := rfl
@[simp] theorem State.updStrm_luts (f : Strm → Strm) : (s.updStrm i f).luts = s.luts := rfl
@[simp] theorem State.updStrm_prot (f : Strm → Strm) : (s.updStrm i f).prot = s.prot := rfl
@[simp] theorem State.updStrm_tim (f : Strm → Strm) : (s.updStrm i f).tim = s.tim := rfl
@[simp] theorem State.updStrm_le (f : Strm → Strm) : (s.updStrm i f).le = s.le := rfl
@[simp] theorem State.updStrm_tst (f : Strm → Strm) : (s.updStrm i f).tst = s.tst := rfl
@[simp] theorem State.updStrm_freeCnt (f : Strm → Strm) : (s.updStrm i f).freeCnt = s.freeCnt := rfl
@[simp] theorem State.updStrm_pending (f : Strm → Strm) : (s.updStrm i f).pending = s.pending := rfl
@[simp] theorem State.updStrm_jl_timeout (f : Strm → Strm) : (s.updStrm i f).jl.timeout = s.jl.timeout := rfl
@[simp] theorem State.updStrm_jl_time (f : Strm → Strm) : (s.updStrm i f).jl.time = s.jl.time := rfl
@[simp] theorem State.updStrm_jl_depth (f : Strm → Strm) : (s.updStrm i f).jl.depth = s.jl.depth := rfl
@[simp] theorem State.updStrm_jl_caphold (f : Strm → Strm) : (s.updStrm i f).jl.caphold = s.jl.caphold := rfl
@[simp] theorem State.updStrm_jl_members (f : Strm → Strm) : (s.updStrm i f).jl.members = s.jl.members := rfl
@[simp] theorem State.updStrm_jl_cseq (f : Strm → Strm) : (s.updStrm i f).jl.cseq = s.jl.cseq := rfl
@[simp] theorem State.updStrm_jl_holdAt (f : Strm → Strm) : (s.updStrm i f).jl.holdAt = s.jl.holdAt := rfl
@[simp] theorem State.updStrm_jl_conflict (f : Strm → Strm) : (s.updStrm i f).jl.conflict = s.jl.conflict := rfl
@[simp] theorem State.updStrm_jl_farHeld (f : Strm → Strm) : (s.updStrm i f).jl.farHeld = s.jl.farHeld := rfl
@[simp] theorem State.updStrm_jl_hbAt (f : Strm → Strm) : (s.updStrm i f).jl.hbAt = s.jl.hbAt := rfl
@[simp] theorem State.updStrm_jl_epoch (f : Strm → Strm) : (s.updStrm i f).jl.epoch = s.jl.epoch := rfl
@[simp] theorem State.updStrm_jl_ndev (f : Strm → Strm) : (s.updStrm i f).jl.ndev = s.jl.ndev := rfl
@[simp] theorem State.updStrm_jl_masterId (f : Strm → Strm) : (s.updStrm i f).jl.masterId = s.jl.masterId := rfl
@[simp] theorem State.updStrm_jl_diffs (f : Strm → Strm) : (s.updStrm i f).jl.diffs = s.jl.diffs := rfl
@[simp] theorem State.updStrm_jl_ports (f : Strm → Strm) : (s.updStrm i f).jl.ports = s.jl.ports := rfl
@[simp] theorem State.updStrm_jl_agrp (f : Strm → Strm) : (s.updStrm i f).jl.agrp = s.jl.agrp := rfl
@[simp] theorem State.updStrm_jl_exp (f : Strm → Strm) : (s.updStrm i f).jl.exp = s.jl.exp := rfl
@[simp] theorem State.updStrm_jl_resps (f : Strm → Strm) : (s.updStrm i f).jl.resps = s.jl.resps := rfl
@[simp] theorem State.updStrm_jl_nextSeq (f : Strm → Strm) : (s.updStrm i f).jl.nextSeq = s.jl.nextSeq := rfl
@[simp] theorem State.updStrm_jl_reqs (f : Strm → Strm) : (s.updStrm i f).jl.reqs = s.jl.reqs := rfl
@[simp] theorem State.updStrm_jl_reqq (f : Strm → Strm) : (s.updStrm i f).jl.reqq = s.jl.reqq := rfl
@[simp] theorem State.updStrm_jl_rseq (f : Strm → Strm) : (s.updStrm i f).jl.rseq = s.jl.rseq := rfl
@[simp] theorem State.updStrm_jl_reportAt (f : Strm → Strm) : (s.updStrm i f).jl.reportAt = s.jl.reportAt := rfl
@[simp] theorem State.updStrm_jl_dirty (f : Strm → Strm) : (s.updStrm i f).jl.dirty = s.jl.dirty := rfl
@[simp] theorem State.updStrm_jl_needFull (f : Strm → Strm) : (s.updStrm i f).jl.needFull = s.jl.needFull := rfl
@[simp] theorem State.updStrm_jl_raises (f : Strm → Strm) : (s.updStrm i f).jl.raises = s.jl.raises := rfl
@[simp] theorem State.updStrm_jl_raisesNew (f : Strm → Strm) : (s.updStrm i f).jl.raisesNew = s.jl.raisesNew := rfl
@[simp] theorem State.updStrm_jl_joined (f : Strm → Strm) : (s.updStrm i f).jl.joined = s.jl.joined := rfl
@[simp] theorem State.updStrm_jl_figs (f : Strm → Strm) : (s.updStrm i f).jl.figs = s.jl.figs := rfl
@[simp] theorem State.updStrm_jl_reach (f : Strm → Strm) : (s.updStrm i f).jl.reach = s.jl.reach := rfl
@[simp] theorem State.updStrm_jl_caps (f : Strm → Strm) : (s.updStrm i f).jl.caps = s.jl.caps := rfl
@[simp] theorem State.updStrm_jl_capSeq (f : Strm → Strm) : (s.updStrm i f).jl.capSeq = s.jl.capSeq := rfl
@[simp] theorem State.updStrm_jl_owed (f : Strm → Strm) : (s.updStrm i f).jl.owed = s.jl.owed := rfl
@[simp] theorem State.updStrm_jl_lastHb (f : Strm → Strm) : (s.updStrm i f).jl.lastHb = s.jl.lastHb := rfl

@[simp] theorem State.strm_updStrm (f : Strm → Strm) : (s.updStrm i f).strm i = f (s.strm i) := Tab.get_upd_self _ _ _ _
theorem State.strm_updStrm_ne (f : Strm → Strm) (h : i ≠ j) : (s.updStrm i f).strm j = s.strm j := Tab.get_upd_ne _ _ _ _ _ _ h
theorem State.strm_updStrm_at (f : Strm → Strm) : (s.updStrm i f).strm j = if i = j then f (s.strm i) else s.strm j := by
  split
  · subst j; exact State.strm_updStrm s i f
  · exact State.strm_updStrm_ne s i j f ‹_›
theorem State.updStrm_twice (f g : Strm → Strm) : (s.updStrm i f).updStrm i g = s.updStrm i (fun x => g (f x)) := by
  unfold State.updStrm; dsimp only; rw [Tab.upd_upd]
@[simp] theorem State.chain_updStrm (f : Strm → Strm) : (s.updStrm i f).chain j = s.chain j := rfl
@[simp] theorem State.txc_updStrm (f : Strm → Strm) : (s.updStrm i f).txc j = s.txc j := rfl
@[simp] theorem State.dcb_updStrm (f : Strm → Strm) : (s.updStrm i f).dcb j = s.dcb j := rfl
@[simp] theorem State.fecb_updStrm (f : Strm → Strm) : (s.updStrm i f).fecb j = s.fecb j := rfl
@[simp] theorem State.sched_updStrm (f : Strm → Strm) : (s.updStrm i f).sched j = s.sched j := rfl
@[simp] theorem State.slot_updStrm (f : Strm → Strm) : (s.updStrm i f).slot j = s.slot j := rfl
@[simp] theorem State.inst_updStrm (f : Strm → Strm) : (s.updStrm i f).inst j = s.inst j := rfl
@[simp] theorem State.gain_updStrm (f : Strm → Strm) : (s.updStrm i f).gain j = s.gain j := rfl
@[simp] theorem State.lut_updStrm (f : Strm → Strm) : (s.updStrm i f).lut j = s.lut j := rfl
@[simp] theorem State.wobj_updStrm (f : Strm → Strm) : (s.updStrm i f).wobj j = s.wobj j := rfl
@[simp] theorem State.net_updStrm (f : Strm → Strm) : (s.updStrm i f).net j = s.net j := rfl
@[simp] theorem State.rxDet_updStrm (f : Strm → Strm) : (s.updStrm i f).rxDet j = s.rxDet j := rfl
@[simp] theorem State.ring_updStrm (f : Strm → Strm) : (s.updStrm i f).ring j = s.ring j := rfl
@[simp] theorem State.trRing_updStrm (f : Strm → Strm) : (s.updStrm i f).trRing j = s.trRing j := rfl
@[simp] theorem State.vec_updStrm (f : Strm → Strm) : (s.updStrm i f).vec j = s.vec j := rfl
@[simp] theorem State.fsrc_updStrm (f : Strm → Strm) : (s.updStrm i f).fsrc j = s.fsrc j := rfl
@[simp] theorem State.tileT_updStrm (f : Strm → Strm) : (s.updStrm i f).tileT j = s.tileT j := rfl
@[simp] theorem State.eng_updStrm (f : Strm → Strm) : (s.updStrm i f).eng j = s.eng j := rfl
@[simp] theorem State.task_updStrm (f : Strm → Strm) : (s.updStrm i f).task j = s.task j := rfl
@[simp] theorem State.port_updStrm (f : Strm → Strm) : (s.updStrm i f).port j = s.port j := rfl
@[simp] theorem State.bucket_updStrm (f : Strm → Strm) : (s.updStrm i f).bucket j = s.bucket j := rfl

/-! ## updBucket -/

@[simp] theorem State.updBucket_now (f : Bucket → Bucket) : (s.updBucket i f).now = s.now := rfl
@[simp] theorem State.updBucket_hif (f : Bucket → Bucket) : (s.updBucket i f).hif = s.hif := rfl
@[simp] theorem State.updBucket_intc (f : Bucket → Bucket) : (s.updBucket i f).intc = s.intc := rfl
@[simp] theorem State.updBucket_flt (f : Bucket → Bucket) : (s.updBucket i f).flt = s.flt := rfl
@[simp] theorem State.updBucket_rfe (f : Bucket → Bucket) : (s.updBucket i f).rfe = s.rfe := rfl
@[simp] theorem State.updBucket_slots (f : Bucket → Bucket) : (s.updBucket i f).slots = s.slots := rfl
@[simp] theorem State.updBucket_cx (f : Bucket → Bucket) : (s.updBucket i f).cx = s.cx := rfl
@[simp] theorem State.updBucket_cxPol (f : Bucket → Bucket) : (s.updBucket i f).cxPol = s.cxPol := rfl
@[simp] theorem State.updBucket_gcl (f : Bucket → Bucket) : (s.updBucket i f).gcl = s.gcl := rfl
@[simp] theorem State.updBucket_luts (f : Bucket → Bucket) : (s.updBucket i f).luts = s.luts := rfl
@[simp] theorem State.updBucket_prot (f : Bucket → Bucket) : (s.updBucket i f).prot = s.prot := rfl
@[simp] theorem State.updBucket_tim (f : Bucket → Bucket) : (s.updBucket i f).tim = s.tim := rfl
@[simp] theorem State.updBucket_le (f : Bucket → Bucket) : (s.updBucket i f).le = s.le := rfl
@[simp] theorem State.updBucket_jl (f : Bucket → Bucket) : (s.updBucket i f).jl = s.jl := rfl
@[simp] theorem State.updBucket_tst (f : Bucket → Bucket) : (s.updBucket i f).tst = s.tst := rfl
@[simp] theorem State.updBucket_freeCnt (f : Bucket → Bucket) : (s.updBucket i f).freeCnt = s.freeCnt := rfl
@[simp] theorem State.updBucket_pending (f : Bucket → Bucket) : (s.updBucket i f).pending = s.pending := rfl
@[simp] theorem State.updBucket_recd_mounted (f : Bucket → Bucket) : (s.updBucket i f).recd.mounted = s.recd.mounted := rfl
@[simp] theorem State.updBucket_recd_curLo (f : Bucket → Bucket) : (s.updBucket i f).recd.curLo = s.recd.curLo := rfl
@[simp] theorem State.updBucket_recd_curHi (f : Bucket → Bucket) : (s.updBucket i f).recd.curHi = s.recd.curHi := rfl
@[simp] theorem State.updBucket_recd_cursor (f : Bucket → Bucket) : (s.updBucket i f).recd.cursor = s.recd.cursor := rfl
@[simp] theorem State.updBucket_recd_nextSeq (f : Bucket → Bucket) : (s.updBucket i f).recd.nextSeq = s.recd.nextSeq := rfl
@[simp] theorem State.updBucket_recd_ophBase (f : Bucket → Bucket) : (s.updBucket i f).recd.ophBase = s.recd.ophBase := rfl
@[simp] theorem State.updBucket_recd_ophAt (f : Bucket → Bucket) : (s.updBucket i f).recd.ophAt = s.recd.ophAt := rfl
@[simp] theorem State.updBucket_recd_buf (f : Bucket → Bucket) : (s.updBucket i f).recd.buf = s.recd.buf := rfl
@[simp] theorem State.updBucket_recd_tombs (f : Bucket → Bucket) : (s.updBucket i f).recd.tombs = s.recd.tombs := rfl
@[simp] theorem State.updBucket_recd_copyq (f : Bucket → Bucket) : (s.updBucket i f).recd.copyq = s.recd.copyq := rfl
@[simp] theorem State.updBucket_recd_flush (f : Bucket → Bucket) : (s.updBucket i f).recd.flush = s.recd.flush := rfl
@[simp] theorem State.updBucket_recd_want (f : Bucket → Bucket) : (s.updBucket i f).recd.want = s.recd.want := rfl
@[simp] theorem State.updBucket_recd_wantCkpt (f : Bucket → Bucket) : (s.updBucket i f).recd.wantCkpt = s.recd.wantCkpt := rfl
@[simp] theorem State.updBucket_recd_intakeClosed (f : Bucket → Bucket) : (s.updBucket i f).recd.intakeClosed = s.recd.intakeClosed := rfl
@[simp] theorem State.updBucket_recd_pfailLow (f : Bucket → Bucket) : (s.updBucket i f).recd.pfailLow = s.recd.pfailLow := rfl
@[simp] theorem State.updBucket_recd_pfailAt (f : Bucket → Bucket) : (s.updBucket i f).recd.pfailAt = s.recd.pfailAt := rfl
@[simp] theorem State.updBucket_recd_pfailOph (f : Bucket → Bucket) : (s.updBucket i f).recd.pfailOph = s.recd.pfailOph := rfl
@[simp] theorem State.updBucket_recd_dropHi (f : Bucket → Bucket) : (s.updBucket i f).recd.dropHi = s.recd.dropHi := rfl
@[simp] theorem State.updBucket_recd_dropLo (f : Bucket → Bucket) : (s.updBucket i f).recd.dropLo = s.recd.dropLo := rfl
@[simp] theorem State.updBucket_recd_lastFlush (f : Bucket → Bucket) : (s.updBucket i f).recd.lastFlush = s.recd.lastFlush := rfl
@[simp] theorem State.updBucket_recd_store (f : Bucket → Bucket) : (s.updBucket i f).recd.store = s.recd.store := rfl
@[simp] theorem State.updBucket_recd_staging (f : Bucket → Bucket) : (s.updBucket i f).recd.staging = s.recd.staging := rfl

@[simp] theorem State.bucket_updBucket (f : Bucket → Bucket) : (s.updBucket i f).bucket i = f (s.bucket i) := Tab.get_upd_self _ _ _ _
theorem State.bucket_updBucket_ne (f : Bucket → Bucket) (h : i ≠ j) : (s.updBucket i f).bucket j = s.bucket j := Tab.get_upd_ne _ _ _ _ _ _ h
theorem State.bucket_updBucket_at (f : Bucket → Bucket) : (s.updBucket i f).bucket j = if i = j then f (s.bucket i) else s.bucket j := by
  split
  · subst j; exact State.bucket_updBucket s i f
  · exact State.bucket_updBucket_ne s i j f ‹_›
theorem State.updBucket_twice (f g : Bucket → Bucket) : (s.updBucket i f).updBucket i g = s.updBucket i (fun x => g (f x)) := by
  unfold State.updBucket; dsimp only; rw [Tab.upd_upd]
@[simp] theorem State.chain_updBucket (f : Bucket → Bucket) : (s.updBucket i f).chain j = s.chain j := rfl
@[simp] theorem State.txc_updBucket (f : Bucket → Bucket) : (s.updBucket i f).txc j = s.txc j := rfl
@[simp] theorem State.dcb_updBucket (f : Bucket → Bucket) : (s.updBucket i f).dcb j = s.dcb j := rfl
@[simp] theorem State.fecb_updBucket (f : Bucket → Bucket) : (s.updBucket i f).fecb j = s.fecb j := rfl
@[simp] theorem State.sched_updBucket (f : Bucket → Bucket) : (s.updBucket i f).sched j = s.sched j := rfl
@[simp] theorem State.slot_updBucket (f : Bucket → Bucket) : (s.updBucket i f).slot j = s.slot j := rfl
@[simp] theorem State.inst_updBucket (f : Bucket → Bucket) : (s.updBucket i f).inst j = s.inst j := rfl
@[simp] theorem State.gain_updBucket (f : Bucket → Bucket) : (s.updBucket i f).gain j = s.gain j := rfl
@[simp] theorem State.lut_updBucket (f : Bucket → Bucket) : (s.updBucket i f).lut j = s.lut j := rfl
@[simp] theorem State.wobj_updBucket (f : Bucket → Bucket) : (s.updBucket i f).wobj j = s.wobj j := rfl
@[simp] theorem State.net_updBucket (f : Bucket → Bucket) : (s.updBucket i f).net j = s.net j := rfl
@[simp] theorem State.rxDet_updBucket (f : Bucket → Bucket) : (s.updBucket i f).rxDet j = s.rxDet j := rfl
@[simp] theorem State.ring_updBucket (f : Bucket → Bucket) : (s.updBucket i f).ring j = s.ring j := rfl
@[simp] theorem State.trRing_updBucket (f : Bucket → Bucket) : (s.updBucket i f).trRing j = s.trRing j := rfl
@[simp] theorem State.vec_updBucket (f : Bucket → Bucket) : (s.updBucket i f).vec j = s.vec j := rfl
@[simp] theorem State.fsrc_updBucket (f : Bucket → Bucket) : (s.updBucket i f).fsrc j = s.fsrc j := rfl
@[simp] theorem State.tileT_updBucket (f : Bucket → Bucket) : (s.updBucket i f).tileT j = s.tileT j := rfl
@[simp] theorem State.eng_updBucket (f : Bucket → Bucket) : (s.updBucket i f).eng j = s.eng j := rfl
@[simp] theorem State.task_updBucket (f : Bucket → Bucket) : (s.updBucket i f).task j = s.task j := rfl
@[simp] theorem State.port_updBucket (f : Bucket → Bucket) : (s.updBucket i f).port j = s.port j := rfl
@[simp] theorem State.strm_updBucket (f : Bucket → Bucket) : (s.updBucket i f).strm j = s.strm j := rfl

end Sys2Proof.Machine
end

