-- ==== Sys2Proof/Laws/Interrupts.lean ====
section
/-! SUPPORT. What the operations of chapter 10 can do. -/

namespace Sys2Proof.Machine

variable (s : State)

/-- A fold of operations that each change only the vectors changes only the vectors. -/
theorem State.foldl_vecs {α : Type} (l : List α) (f : State → α → State)
    (hf : ∀ a x, f a x = { a with intc := { a.intc with vecs := (f a x).intc.vecs } }) :
    l.foldl f s = { s with intc := { s.intc with vecs := (l.foldl f s).intc.vecs } } := by
  induction l generalizing s with
  | nil => rfl
  | cons x r ih =>
    have h1 := hf s x
    have h2 := ih (f s x)
    simp only [List.foldl_cons]
    rw [h2]
    rw [h1]

/-- SEEN is the only thing the sampling of R302 changes, and only in the vectors. -/
theorem State.seenSync_frame : s.seenSync = { s with intc := { s.intc with vecs := s.seenSync.intc.vecs } } := by
  unfold State.seenSync State.each
  apply State.foldl_vecs
  intro a x
  dsimp only
  split <;> rfl

/-- Whether a vector has a hot source does not depend on the vectors. -/
theorem State.vecHot_vecs (x : Tab Vec) (v : Nat) : ({ s with intc := { s.intc with vecs := x } } : State).vecHot v = s.vecHot v := rfl

theorem State.vec_seen_fold (l : List Nat) (u : Nat) :
    (l.foldl (fun a v => if a.vecHot v then a.updVec v (fun x => { x with seen := true }) else a) s).vec u
      = if u ∈ l ∧ s.vecHot u = true then { s.vec u with seen := true } else s.vec u := by
  induction l generalizing s with
  | nil => simp
  | cons v r ih =>
    rw [List.foldl_cons, ih]
    by_cases hv : s.vecHot v = true
    · rw [if_pos hv]
      have hh : (s.updVec v (fun x => { x with seen := true })).vecHot u = s.vecHot u := rfl
      rw [hh]
      by_cases huv : v = u
      · subst huv; simp [hv]
      · rw [State.vec_updVec_ne _ _ _ _ huv]
        simp [Ne.symm huv]
    · rw [if_neg hv]
      by_cases huv : u = v
      · subst huv; simp [hv]
      · simp [huv]

/-- SEEN of a vector after the sampling of R302. -/
theorem State.seenSync_vec (u : Nat) : (s.seenSync.vec u = { s.vec u with seen := (s.seenSync.vec u).seen }) ∧
    ((s.vec u).active = true → (s.seenSync.vec u).seen = ((s.vec u).seen || s.vecHot u)) := by
  unfold State.seenSync State.each
  rw [State.vec_seen_fold]
  constructor
  · split <;> rfl
  · intro ha
    split
    · rename_i h; simp [h.2]
    · rename_i h
      by_cases hs : (s.vec u).seen = true
      · simp [hs]
      · have hm : u ∈ (s.intc.vecs.filter (fun e => e.2.active && !e.2.seen)).map (fun e => e.1) := by
          unfold State.vec at ha hs
          generalize s.intc.vecs = t at ha hs
          induction t with
          | nil => simp [Vec.reset] at ha
          | cons e r ih =>
            obtain ⟨k, x⟩ := e
            by_cases hk : k = u
            · subst hk
              rw [Tab.get_cons, if_pos rfl] at ha hs
              simp [ha, hs]
            · rw [Tab.get_cons, if_neg hk] at ha hs
              have := ih ha hs
              rw [List.filter_cons]
              split
              · simp only [List.map_cons, List.mem_cons]; exact .inr this
              · exact this
        have hn : ¬ s.vecHot u = true := fun hh => h ⟨hm, hh⟩
        simp [hs, hn]

/-- An event of an enabled edge source changes its latch and the vectors, and nothing else. -/
theorem State.srcEvent_frame (n : Nat) : s.srcEvent n = { s with intc := { s.intc with vecs := (s.srcEvent n).intc.vecs } } := by
  unfold State.srcEvent
  rw [State.seenSync_frame]
  rfl

/-- An edge event changes only latches and vectors of INTC. -/
theorem State.irqEdge_frame (n : Nat) : s.irqEdge n = { s with intc := { s.intc with lat := (s.irqEdge n).intc.lat, vecs := (s.irqEdge n).intc.vecs } } := by
  unfold State.irqEdge
  split
  · rw [State.srcEvent_frame]
  · rfl

/-- The rise of a level source changes only the vectors. -/
theorem State.irqRise_frame (n : Nat) : s.irqRise n = { s with intc := { s.intc with vecs := (s.irqRise n).intc.vecs } } := by
  unfold State.irqRise
  split
  · rw [State.srcEvent_frame]
  · rfl

/-- The latch after an edge event (R293). -/
theorem State.irqEdge_lat (n : Nat) (hn : n < 512) (m : Nat) :
    (s.irqEdge n).intc.lat.getLsbD m = (s.intc.lat.getLsbD m || (decide (m = n) && s.intc.en.getLsbD n)) := by
  unfold State.irqEdge
  split
  · rename_i h
    rw [State.srcEvent_frame]
    by_cases hm : m = n
    · subst hm; simp [h, hn]
    · simp [BitVec.getLsbD_or, BitVec.getLsbD_twoPow, hm, Ne.symm hm]
  · rename_i h
    simp [h]

/-- The vectors after an event of a source: its vector has one event more, and SEEN is sampled. -/
theorem State.srcEvent_vec (n u : Nat) :
    (s.srcEvent n).vec u = { (if (s.srcCfg n).vector = u then (s.vec u).event s.now (s.srcCfg n).urgent else s.vec u)
      with seen := ((s.srcEvent n).vec u).seen } := by
  refine (State.seenSync_vec _ u).1.trans ?_
  have h : (s.updVec (s.srcCfg n).vector (fun x => x.event s.now (s.srcCfg n).urgent)).vec u
      = (if (s.srcCfg n).vector = u then (s.vec u).event s.now (s.srcCfg n).urgent else s.vec u) := by
    split
    · rename_i h; subst h; exact State.vec_updVec _ _ _
    · rename_i h; exact State.vec_updVec_ne _ _ _ _ h
  rw [h]
  rfl

/-- The vectors after an edge event: an enabled source's vector has one event more, and SEEN is sampled. -/
theorem State.irqEdge_vec (n u : Nat) :
    (s.irqEdge n).vec u = { (if s.intc.en.getLsbD n = true ∧ (s.srcCfg n).vector = u then (s.vec u).event s.now (s.srcCfg n).urgent else s.vec u)
      with seen := ((s.irqEdge n).vec u).seen } := by
  by_cases h : s.intc.en.getLsbD n = true
  · have e : s.irqEdge n = ({ s with intc := { s.intc with lat := s.intc.lat ||| BitVec.twoPow 512 n } } : State).srcEvent n := if_pos h
    rw [e]
    refine (State.srcEvent_vec _ n u).trans ?_
    simp only [h, true_and]
    rfl
  · have e : s.irqEdge n = s := if_neg h
    have h2 : ¬ (s.intc.en.getLsbD n = true ∧ (s.srcCfg n).vector = u) := fun k => h k.1
    rw [e, if_neg h2]

/-- Selecting from a list the element that goes before all the others. -/
theorem fold_best (lt : Nat → Nat → Bool) (tr : ∀ a b c, lt a b = true → lt b c = true → lt a c = true) (tot : ∀ a b, a ≠ b → lt a b = true ∨ lt b a = true)
    (l : List Nat) (o : Option Nat) :
    match l.foldl (fun a v => match a with | some u => if lt v u then some v else some u | none => some v) o with
    | none => o = none ∧ l = []
    | some v => (o = some v ∨ v ∈ l) ∧ (∀ u, (o = some u ∨ u ∈ l) → u ≠ v → lt v u = true) := by
  induction l generalizing o with
  | nil => cases o <;> simp
  | cons x r ih =>
    rw [List.foldl_cons]
    have := ih (match o with | some u => if lt x u then some x else some u | none => some x)
    split at this
    · exfalso
      have h1 := this.1
      cases o with
      | none => cases h1
      | some u => dsimp only at h1; split at h1 <;> cases h1
    · rename_i v h
      obtain ⟨h1, h2⟩ := this
      cases o with
      | none =>
        simp only [Option.some.injEq] at h1 h2
        refine ⟨Or.inr (by rcases h1 with h1 | h1 <;> simp [h1]), ?_⟩
        intro u hu hne
        apply h2 u _ hne
        rcases hu with hu | hu
        · cases hu
        · rcases List.mem_cons.mp hu with hu | hu
          · exact .inl hu.symm
          · exact .inr hu
      | some u0 =>
        simp only at h1 h2
        by_cases hx : lt x u0 = true
        · simp only [hx, if_true, Option.some.injEq] at h1 h2
          refine ⟨Or.inr (by rcases h1 with h1 | h1 <;> simp [h1]), ?_⟩
          intro u hu hne
          rcases hu with hu | hu
          · cases hu
            by_cases hxv : x = v
            · subst hxv; exact hx
            · exact tr v x u0 (h2 x (.inl rfl) hxv) hx
          · rcases List.mem_cons.mp hu with hu | hu
            · subst hu; exact h2 u (.inl rfl) hne
            · exact h2 u (.inr hu) hne
        · simp only [hx] at h1 h2
          refine ⟨by rcases h1 with h1 | h1 <;> simp_all, ?_⟩
          intro u hu hne
          rcases hu with hu | hu
          · cases hu; exact h2 u0 (.inl (by simp)) hne
          · rcases List.mem_cons.mp hu with hu | hu
            · subst hu
              by_cases hu0 : u = u0
              · subst hu0; exact h2 u (.inl (by simp)) hne
              · have hl : lt u0 u = true := by
                  rcases tot u u0 hu0 with h' | h'
                  · exact absurd h' hx
                  · exact h'
                by_cases hv0 : u0 = v
                · subst hv0; exact hl
                · exact tr v u0 u (h2 u0 (.inl (by simp)) hv0) hl
            · exact h2 u (.inr hu) hne

/-- The launch point takes a ready vector before which no other ready vector goes, and nothing only when none is ready (R296, R297). -/
theorem State.pickVec_spec (target : Nat) :
    (s.pickVec target = none ∧ ∀ v, v < 64 → s.vecReady target v = false) ∨
    (∃ v, s.pickVec target = some v ∧ v < 64 ∧ s.vecReady target v = true ∧ ∀ u, u < 64 → s.vecReady target u = true → u ≠ v → s.vecBefore v u = true) := by
  have h := fold_best (fun a b => s.vecBefore a b)
    (by intro a b c; unfold State.vecBefore; simp only [decide_eq_true_eq]; omega)
    (by intro a b hab; unfold State.vecBefore; simp only [decide_eq_true_eq]; omega)
    ((List.range 64).filter (s.vecReady target)) none
  unfold State.pickVec
  split at h
  · rename_i h0
    left
    refine ⟨h0, ?_⟩
    intro v hv
    have := h.2
    rw [List.filter_eq_nil_iff] at this
    have h1 := this v (List.mem_range.mpr hv)
    simpa using h1
  · rename_i v h0
    right
    refine ⟨v, h0, ?_⟩
    obtain ⟨h1, h2⟩ := h
    have hm : v ∈ (List.range 64).filter (s.vecReady target) := by simpa using h1
    rw [List.mem_filter] at hm
    refine ⟨List.mem_range.mp hm.1, hm.2, ?_⟩
    intro u hu hr hne
    exact h2 u (.inr (List.mem_filter.mpr ⟨List.mem_range.mpr hu, hr⟩)) hne

/-- The numbers of the bits of a written word are those it names. -/
theorem mem_wordBits (w : Nat) (v : Word) (n : Nat) : n ∈ wordBits (32 * w) v ↔ named w v n = true := by
  unfold wordBits named
  simp only [List.mem_map, List.mem_filter, List.mem_range, Bool.and_eq_true, decide_eq_true_eq]
  constructor
  · rintro ⟨i, ⟨h1, h2⟩, rfl⟩
    refine ⟨by omega, ?_⟩
    have : (32 * w + i) % 32 = i := by omega
    rw [this]; exact h2
  · rintro ⟨h1, h2⟩
    exact ⟨n % 32, ⟨by omega, h2⟩, by omega⟩

/-- A written word at its place among the sources. -/
theorem srcMask_bit (w : Nat) (hw : w < 16) (v : Word) (n : Nat) : (srcMask w v).getLsbD n = named w v n := by
  unfold srcMask named
  simp only [BitVec.getLsbD_shiftLeft, BitVec.getLsbD_setWidth]
  by_cases h1 : n / 32 = w
  · have : n - 32 * w = n % 32 := by omega
    have h2 : n < 512 := by omega
    have h3 : ¬ n < 32 * w := by omega
    have h4 : n - 32 * w < 512 := by omega
    simp [h1, h2, h3, this]
    omega
  · by_cases h2 : n < 32 * w
    · simp [h1, h2]
    · have : v.getLsbD (n - 32 * w) = false := BitVec.getLsbD_of_ge _ _ (by omega)
      simp [h1, this]

/-- Changes of one vector at a time, over the vectors of a list, as one change of each that is listed. -/
theorem State.vec_each (l : List Nat) (f : Vec → Vec) (hf : ∀ x, f (f x) = f x) (u : Nat) :
    (s.each l (fun n a => a.updVec n f)).vec u = if u ∈ l then f (s.vec u) else s.vec u := by
  unfold State.each
  induction l generalizing s with
  | nil => simp
  | cons v r ih =>
    rw [List.foldl_cons, ih]
    by_cases huv : v = u
    · subst huv; simp [hf]
    · rw [State.vec_updVec_ne _ _ _ _ huv]; simp [Ne.symm huv]

/-- Operations on one vector at a time, over the vectors of a list. -/
theorem State.vec_each_of (I : State → Prop) (f : Nat → State → State) (g : Nat → Vec → Vec) (hI : ∀ n a, I a → I (f n a))
    (hs : ∀ n a, I a → (f n a).vec n = g n (a.vec n)) (hn : ∀ n a u, I a → n ≠ u → (f n a).vec u = a.vec u)
    (l : List Nat) (hl : l.Nodup) (h0 : I s) (u : Nat) : (s.each l f).vec u = if u ∈ l then g u (s.vec u) else s.vec u := by
  unfold State.each
  induction l generalizing s with
  | nil => simp
  | cons n r ih =>
    obtain ⟨hn1, hn2⟩ := List.nodup_cons.mp hl
    rw [List.foldl_cons, ih _ hn2 (hI n s h0)]
    by_cases hun : n = u
    · subst hun
      simp [hn1, hs n s h0]
    · rw [hn n s u h0 hun]
      simp [Ne.symm hun]

/-- The bits of a written word are listed once each. -/
theorem wordBits_nodup (b : Nat) (v : Word) : (wordBits b v).Nodup := by
  unfold wordBits
  refine List.Nodup.map ?_ (List.Nodup.filter _ List.nodup_range)
  intro i j h
  dsimp only at h
  omega

/-- A word of one bit per vector holds the bit of each vector at its place. -/
theorem State.vecWord_bit (h : Nat) (f : Nat → Bool) (i : Nat) (hi : i < 32) : (s.vecWord h f).getLsbD i = f (32 * h + i) := by
  unfold State.vecWord word
  have key : ∀ n, n ≤ 32 → ((List.range n).foldl (fun a i => a + bit (f (32 * h + i)) * 2 ^ i) 0) < 2 ^ n ∧
      ∀ j, j < n → ((List.range n).foldl (fun a i => a + bit (f (32 * h + i)) * 2 ^ i) 0).testBit j = f (32 * h + j) := by
    intro n
    induction n with
    | zero => intro _; exact ⟨by simp, fun j hj => absurd hj (by omega)⟩
    | succ n ih =>
      intro hn
      obtain ⟨i1, i2⟩ := ih (by omega)
      rw [List.range_succ, List.foldl_append]
      simp only [List.foldl_cons, List.foldl_nil]
      generalize (List.range n).foldl (fun a i => a + bit (f (32 * h + i)) * 2 ^ i) 0 = x at i1 i2 ⊢
      have hb : bit (f (32 * h + n)) ≤ 1 := by unfold bit; split <;> omega
      have e : x + bit (f (32 * h + n)) * 2 ^ n = 2 ^ n * bit (f (32 * h + n)) + x := by rw [Nat.mul_comm]; omega
      refine ⟨?_, ?_⟩
      · have : bit (f (32 * h + n)) * 2 ^ n ≤ 1 * 2 ^ n := Nat.mul_le_mul_right _ hb
        rw [Nat.pow_succ]; omega
      · intro j hj
        rw [e, Nat.testBit_two_pow_mul_add _ i1]
        by_cases hjn : j < n
        · rw [if_pos hjn]; exact i2 j hjn
        · have : j = n := by omega
          subst this
          rw [if_neg hjn, Nat.sub_self]
          unfold bit
          split <;> rename_i hh <;> simp [hh]
  have := (key 32 (Nat.le_refl _)).2 i hi
  rw [BitVec.getLsbD_ofNat]
  simp [hi, this]

end Sys2Proof.Machine
end

