-- ==== Sys2Proof/Laws/Calm.lean ====
section
/-! SUPPORT. Calm: what the machine's shared operations never change, but for the few that a tolerance names. -/

namespace Sys2Proof.Laws

open Sys2Proof.Machine

set_option linter.unreachableTactic false
set_option linter.unusedTactic false

/-- Which of the eight guarded things a step is allowed to change. -/
structure Tol where
  straps : Bool
  pol : Bool
  sev : Bool
  auth : Bool
  seq : Bool
  cause : Bool
  stat : Bool
  take : Bool
deriving DecidableEq, Repr

/-- From a to b, nothing guarded has changed that p does not tolerate: time and queue never; straps, CX policy, severity registers and authorisation table; record numbers only grow; WINTER causes are only added. -/
structure Calm (p : Tol) (a b : State) : Prop where
  now : b.now = a.now
  queue : b.pending = a.pending
  straps : p.straps = false → b.tst.straps = a.tst.straps
  pol : p.pol = false → b.cxPol = a.cxPol
  sev : p.sev = false → b.flt.sev = a.flt.sev
  auth : p.auth = false → b.prot.auth = a.prot.auth
  seq : p.seq = false → a.recd.nextSeq ≤ b.recd.nextSeq
  cause : p.cause = false → ∀ i k, (a.wobj i).cause.getLsbD k = true → (b.wobj i).cause.getLsbD k = true
  stat : p.stat = false → ∀ k, (a.fsrc k).status = true → (b.fsrc k).status = true
  wrote : ∃ l, b.hif.hostWrites = a.hif.hostWrites ++ l
  opens : p.take = false → ∀ q ∈ b.hif.outstanding, ∃ r ∈ a.hif.outstanding, (r.id, r.desc) = (q.id, q.desc)

theorem Calm.refl (p : Tol) (a : State) : Calm p a a :=
  ⟨rfl, rfl, fun _ => rfl, fun _ => rfl, fun _ => rfl, fun _ => rfl, fun _ => Nat.le_refl _, fun _ _ _ h => h, fun _ _ h => h, ⟨[], by simp⟩, fun _ q h => ⟨q, h, rfl⟩⟩

theorem Calm.of {p : Tol} {a s t : State} (h : Calm p a s) (h1 : t.now = s.now) (h2 : t.pending = s.pending) (h3 : t.tst.straps = s.tst.straps)
    (h4 : t.cxPol = s.cxPol) (h5 : t.flt.sev = s.flt.sev) (h6 : t.prot.auth = s.prot.auth) (h7 : t.recd.nextSeq = s.recd.nextSeq)
    (h8 : t.prot.objs = s.prot.objs) (h9 : t.flt.srcs = s.flt.srcs) (h10 : t.hif.hostWrites = s.hif.hostWrites)
    (h11 : t.hif.outstanding = s.hif.outstanding) : Calm p a t where
  now := h1.trans h.now
  queue := h2.trans h.queue
  straps := fun e => h3.trans (h.straps e)
  pol := fun e => h4.trans (h.pol e)
  sev := fun e => h5.trans (h.sev e)
  auth := fun e => h6.trans (h.auth e)
  seq := fun e => h7 ▸ h.seq e
  cause := fun e i k hk => by
    have := h.cause e i k hk
    simpa [State.wobj, h8] using this
  stat := fun e k hk => by
    have := h.stat e k hk
    simpa [State.fsrc, h9] using this
  wrote := h10 ▸ h.wrote
  opens := fun e => h11 ▸ h.opens e

variable {p : Tol} {a s : State}

theorem Calm.foldl {α : Type} {l : List α} {f : State → α → State} (h : Calm p a s) (hf : ∀ b x, Calm p a b → Calm p a (f b x)) :
    Calm p a (l.foldl f s) := by
  induction l generalizing s with
  | nil => exact h
  | cons x r ih => exact ih (hf s x h)

theorem Calm.each {l : List Nat} {f : Nat → State → State} (h : Calm p a s) (hf : ∀ i b, Calm p a b → Calm p a (f i b)) :
    Calm p a (s.each l f) := Calm.foldl h (fun b i hb => hf i b hb)


/-- A record update that leaves the guarded parts as they were. -/
theorem Calm.upd_of {n hif intc flt recd rfe slots cx cxPol gcl luts prot tim le jl tst fc pe} (h : Calm p a s) (h1 : n = s.now) (h2 : pe = s.pending)
    (h3 : tst.straps = s.tst.straps) (h4 : cxPol = s.cxPol) (h5 : flt.sev = s.flt.sev) (h6 : prot.auth = s.prot.auth)
    (h7 : recd.nextSeq = s.recd.nextSeq) (h8 : prot.objs = s.prot.objs) (h9 : flt.srcs = s.flt.srcs) (h10 : hif.hostWrites = s.hif.hostWrites)
    (h11 : hif.outstanding = s.hif.outstanding) :
    Calm p a ⟨n, hif, intc, flt, recd, rfe, slots, cx, cxPol, gcl, luts, prot, tim, le, jl, tst, fc, pe⟩ := Calm.of h h1 h2 h3 h4 h5 h6 h7 h8 h9 h10 h11

/-- A free value is drawn. -/
theorem Calm.free (h : Calm p a s) : Calm p a s.free.2 := Calm.of h rfl rfl rfl rfl rfl rfl rfl rfl rfl rfl rfl

/-- A record writer that keeps the machine calm. -/
def CalmRec (p : Tol) (f : RecF) : Prop := ∀ a b c sv sr by_ d, Calm p a b → Calm p a (f b c sv sr by_ d)

/-- Everything is tolerated. -/
def Tol.all : Tol := ⟨true, true, true, true, true, true, true, true⟩

/-- With every tolerance, time and queue are all that is guarded. -/
theorem Calm.loose {t : State} (h : Calm Tol.all a s) (h1 : t.now = s.now) (h2 : t.pending = s.pending) (h3 : t.hif.hostWrites = s.hif.hostWrites) : Calm Tol.all a t :=
  ⟨h1.trans h.now, h2.trans h.queue, fun e => absurd e (by decide), fun e => absurd e (by decide), fun e => absurd e (by decide), fun e => absurd e (by decide), fun e => absurd e (by decide), fun e => absurd e (by decide), fun e => absurd e (by decide), h3 ▸ h.wrote, fun e => absurd e (by decide)⟩


theorem Calm.trans {b c : State} (h : Calm p a b) (h' : Calm p b c) : Calm p a c :=
  ⟨h'.now.trans h.now, h'.queue.trans h.queue, fun e => (h'.straps e).trans (h.straps e), fun e => (h'.pol e).trans (h.pol e), fun e => (h'.sev e).trans (h.sev e),
    fun e => (h'.auth e).trans (h.auth e), fun e => Nat.le_trans (h.seq e) (h'.seq e), fun e i k hk => h'.cause e i k (h.cause e i k hk), fun e k hk => h'.stat e k (h.stat e k hk),
    by obtain ⟨l, hl⟩ := h.wrote; obtain ⟨m, hm⟩ := h'.wrote; exact ⟨l ++ m, by rw [hm, hl, List.append_assoc]⟩,
    fun e q hq => by obtain ⟨r, hr, e1⟩ := h'.opens e q hq; obtain ⟨r', hr', e2⟩ := h.opens e r hr; exact ⟨r', hr', e2.trans e1⟩⟩

theorem Calm.ite {c : Prop} [Decidable c] {x y : State} (h1 : c → Calm p a x) (h2 : ¬c → Calm p a y) : Calm p a (if c then x else y) := by
  split
  · exact h1 ‹_›
  · exact h2 ‹_›

/-- The severity registers change where that is tolerated. -/
theorem Calm.set_flt (hp : p.sev = true) (h : Calm p a s) {f : Flt} (hf : f.srcs = s.flt.srcs) : Calm p a { s with flt := f } :=
  ⟨h.now, h.queue, h.straps, h.pol, fun e => by simp [hp] at e, h.auth, h.seq, h.cause, fun e k hk => by have := h.stat e k hk; simpa [State.fsrc, hf] using this, h.wrote, h.opens⟩

/-- The authorisation table changes where that is tolerated. -/
theorem Calm.set_auth (hp : p.auth = true) (h : Calm p a s) {q : Prot} (hq : q.objs = s.prot.objs) : Calm p a { s with prot := q } :=
  ⟨h.now, h.queue, h.straps, h.pol, h.sev, fun e => by simp [hp] at e, h.seq, fun e i k hk => by have := h.cause e i k hk; simpa [State.wobj, hq] using this, h.stat, h.wrote, h.opens⟩

/-- The severity registers change for the time of one operation. -/
theorem Calm.around {f g : Flt} {t : State} (h1 : Calm p a s) (h2 : Calm p { s with flt := f } t) (hf : f.srcs = s.flt.srcs) (hg : g.sev = s.flt.sev) (hg' : g.srcs = t.flt.srcs) : Calm p a { t with flt := g } :=
  ⟨h2.now.trans h1.now, h2.queue.trans h1.queue, fun e => (h2.straps e).trans (h1.straps e), fun e => (h2.pol e).trans (h1.pol e),
    fun e => hg.trans (h1.sev e), fun e => (h2.auth e).trans (h1.auth e), fun e => Nat.le_trans (h1.seq e) (h2.seq e), fun e i k hk => h2.cause e i k (h1.cause e i k hk),
    fun e k hk => by have := h2.stat e k (by have := h1.stat e k hk; simpa [State.fsrc, hf] using this); simpa [State.fsrc, hg'] using this,
    by obtain ⟨l, hl⟩ := h1.wrote; obtain ⟨m, hm⟩ := h2.wrote; exact ⟨l ++ m, by rw [hm, hl, List.append_assoc]⟩,
    fun e q hq => by obtain ⟨r, hr, e1⟩ := h2.opens e q hq; obtain ⟨r', hr', e2⟩ := h1.opens e r hr; exact ⟨r', hr', e2.trans e1⟩⟩

/-- What an operation puts out leaves every earlier descriptor's absence in place. -/
theorem Calm.gone {b : State} {n : Nat} (h : Calm p a b) (ht : p.take = false) (hn : ∀ q ∈ a.hif.outstanding, q.id ≠ n) : ∀ q ∈ b.hif.outstanding, q.id ≠ n := by
  intro q hq he
  obtain ⟨r, hr, e⟩ := h.opens ht q hq
  exact hn r hr ((congrArg Prod.fst e).trans he)


theorem Calm.updGain (h : Calm p a s) : Calm p a (State.updGain s x1 x2) := by
  unfold State.updGain
  repeat' first | with_reducible assumption | (fail_if_no_progress with_reducible refine Calm.upd_of ?_ rfl rfl rfl rfl rfl rfl rfl rfl rfl rfl rfl)

theorem Calm.updRing (h : Calm p a s) : Calm p a (State.updRing s x1 x2) := by
  unfold State.updRing
  repeat' first | with_reducible assumption | (fail_if_no_progress with_reducible refine Calm.upd_of ?_ rfl rfl rfl rfl rfl rfl rfl rfl rfl rfl rfl)

theorem Calm.hostWrite (h : Calm p a s) : Calm p a (s.hostWrite x1 x2) :=
  ⟨h.now, h.queue, h.straps, h.pol, h.sev, h.auth, h.seq, h.cause, h.stat,
    by obtain ⟨l, hl⟩ := h.wrote; exact ⟨l ++ [{ addr := x1, words := x2 }], by simp [State.hostWrite, hl, List.append_assoc]⟩, h.opens⟩

theorem Calm.updVec (h : Calm p a s) : Calm p a (State.updVec s x1 x2) := by
  unfold State.updVec
  repeat' first | with_reducible assumption | (fail_if_no_progress with_reducible refine Calm.upd_of ?_ rfl rfl rfl rfl rfl rfl rfl rfl rfl rfl rfl)

theorem Calm.seenSync (h : Calm p a s) : Calm p a s.seenSync :=
  Calm.each h (fun _ _ hb => iteInduction (fun _ => Calm.updVec hb) (fun _ => hb))

theorem Calm.srcEvent (h : Calm p a s) : Calm p a (State.srcEvent s x1) := by
  unfold State.srcEvent
  repeat' first | with_reducible assumption | with_reducible apply Calm.seenSync | with_reducible apply Calm.updVec

theorem Calm.irqEdge (h : Calm p a s) : Calm p a (State.irqEdge s x1) := by
  unfold State.irqEdge
  repeat' first | with_reducible assumption | with_reducible apply Calm.srcEvent | with_reducible refine Calm.ite (fun _ => ?_) (fun _ => ?_) | (fail_if_no_progress with_reducible refine Calm.upd_of ?_ rfl rfl rfl rfl rfl rfl rfl rfl rfl rfl rfl)

theorem Calm.putCompl (h : Calm p a s) : Calm p a (State.putCompl s x1) := by
  unfold State.putCompl
  repeat' first | with_reducible assumption | with_reducible apply Calm.updRing | with_reducible apply Calm.hostWrite | with_reducible apply Calm.irqEdge | with_reducible refine Calm.ite (fun _ => ?_) (fun _ => ?_)

theorem Calm.drainCheck (h : Calm p a s) : Calm p a (State.drainCheck s x1) := by
  unfold State.drainCheck
  repeat' first | with_reducible assumption | with_reducible apply Calm.updRing | with_reducible refine Calm.ite (fun _ => ?_) (fun _ => ?_)

theorem Calm.askFlush (h : Calm p a s) : Calm p a (State.askFlush s x1) := by
  unfold State.askFlush
  repeat' first | with_reducible assumption | (fail_if_no_progress with_reducible refine Calm.upd_of ?_ rfl rfl rfl rfl rfl rfl rfl rfl rfl rfl rfl)

theorem Calm.bufferPut (h : Calm p a s) : Calm p a (s.bufferPut x1 x2 x3 x4 x5) := by
  unfold State.bufferPut
  have : ∀ cq buf, Calm p a { s with recd := { s.recd with nextSeq := s.recd.nextSeq + 1, buf := buf, copyq := cq } } := fun cq buf =>
    ⟨h.now, h.queue, h.straps, h.pol, h.sev, h.auth, fun e => Nat.le_succ_of_le (h.seq e), h.cause, h.stat, h.wrote, h.opens⟩
  dsimp only
  split
  · exact Calm.askFlush (this _ _)
  · exact this _ _

theorem Calm.countDrop (h : Calm p a s) : Calm p a (State.countDrop s x1) := by
  unfold State.countDrop
  repeat' first | with_reducible assumption | with_reducible refine Calm.ite (fun _ => ?_) (fun _ => ?_) | (fail_if_no_progress with_reducible refine Calm.upd_of ?_ rfl rfl rfl rfl rfl rfl rfl rfl rfl rfl rfl)

theorem Calm.updBucket (h : Calm p a s) : Calm p a (State.updBucket s x1 x2) := by
  unfold State.updBucket
  repeat' first | with_reducible assumption | (fail_if_no_progress with_reducible refine Calm.upd_of ?_ rfl rfl rfl rfl rfl rfl rfl rfl rfl rfl rfl)

theorem Calm.bufferEnter (h : Calm p a s) : Calm p a (s.bufferEnter x1 x2 x3 x4 x5).2 := by
  unfold State.bufferEnter
  split
  · exact Calm.bufferPut h
  · split
    · exact Calm.bufferPut (Calm.of h rfl rfl rfl rfl rfl rfl rfl rfl rfl rfl rfl)
    · exact Calm.countDrop (Calm.updBucket h)

theorem Calm.record0 (h : Calm p a s) : Calm p a (s.record0 x1 x2 x3 x4 x5).2 := by
  unfold State.record0
  dsimp only
  rw [apply_ite Prod.snd, apply_ite Prod.snd, apply_ite Prod.snd, apply_ite Prod.snd]
  exact Calm.ite (fun _ => h) (fun _ => Calm.ite (fun _ => Calm.countDrop h) (fun _ => Calm.ite (fun _ => Calm.bufferEnter h)
    (fun _ => Calm.ite (fun _ => Calm.updBucket h) (fun _ => Calm.bufferEnter (Calm.updBucket h)))))

theorem Calm.recordQ (h : Calm p a s) : Calm p a (State.recordQ s x1 x2 x3 x4 x5) := Calm.record0 h

theorem Calm.sendCompl (h : Calm p a s) : Calm p a (State.sendCompl s x1) := by
  unfold State.sendCompl
  repeat' first | with_reducible assumption | with_reducible apply Calm.putCompl | with_reducible apply Calm.drainCheck | with_reducible apply Calm.recordQ | with_reducible refine Calm.ite (fun _ => ?_) (fun _ => ?_) | (fail_if_no_progress with_reducible refine Calm.upd_of ?_ rfl rfl rfl rfl rfl rfl rfl rfl rfl rfl rfl)

theorem Calm.complete (h : Calm p a s) : Calm p a (s.complete x1 x2 x3 x4) := by
  have h1 : Calm p a { s with hif := { s.hif with outstanding := s.hif.outstanding.filter (fun q => decide (q.id ≠ x1.id)) } } :=
    ⟨h.now, h.queue, h.straps, h.pol, h.sev, h.auth, h.seq, h.cause, h.stat, h.wrote, fun e q hq => h.opens e q (List.mem_of_mem_filter hq)⟩
  unfold State.complete
  dsimp only
  exact Calm.ite (fun _ => h1) (fun _ => Calm.sendCompl h1)

theorem Calm.abortSlotGainSet (h : Calm p a s) : Calm p a (Sys2Proof.Machine.abortSlotGainSet x1 x2 s) := by
  unfold Sys2Proof.Machine.abortSlotGainSet
  repeat' first | with_reducible assumption | with_reducible apply Calm.updGain | with_reducible apply Calm.complete

theorem Calm.abortSetpoint (h : Calm p a s) : Calm p a (Sys2Proof.Machine.abortSetpoint x1 x2 s) := by
  unfold Sys2Proof.Machine.abortSetpoint
  repeat' first | with_reducible assumption | with_reducible apply Calm.complete | with_reducible apply Calm.updGain

theorem Calm.updPend (h : Calm p a s) (hf : ∀ q, ((x2 q).id, (x2 q).desc) = (q.id, q.desc)) : Calm p a (s.updPend x1 x2) :=
  ⟨h.now, h.queue, h.straps, h.pol, h.sev, h.auth, h.seq, h.cause, h.stat, h.wrote, fun e q hq => by
    obtain ⟨q', hq', rfl⟩ := List.mem_map.mp hq
    obtain ⟨r, hr, e1⟩ := h.opens e q' hq'
    refine ⟨r, hr, ?_⟩
    split
    · exact e1.trans (hf q').symm
    · exact e1⟩

theorem Calm.loadsStart (h : Calm p a s) : Calm p a (State.loadsStart s x1) := by
  unfold State.loadsStart
  repeat' first | with_reducible assumption | exact fun _ => rfl | with_reducible apply Calm.updPend | with_reducible apply Calm.foldl | with_reducible refine Calm.ite (fun _ => ?_) (fun _ => ?_) | intro _

theorem Calm.updChain (h : Calm p a s) : Calm p a (State.updChain s x1 x2) := by
  unfold State.updChain
  repeat' first | with_reducible assumption | (fail_if_no_progress with_reducible refine Calm.upd_of ?_ rfl rfl rfl rfl rfl rfl rfl rfl rfl rfl rfl)

theorem Calm.abortWalk (h : Calm p a s) : Calm p a (State.abortWalk s x1 x2) := by
  unfold State.abortWalk
  repeat' first | with_reducible assumption | with_reducible apply Calm.complete | with_reducible apply Calm.updChain | with_reducible apply Calm.free | with_reducible refine Calm.ite (fun _ => ?_) (fun _ => ?_)

theorem Calm.updFecb (h : Calm p a s) : Calm p a (State.updFecb s x1 x2) := by
  unfold State.updFecb
  repeat' first | with_reducible assumption | (fail_if_no_progress with_reducible refine Calm.upd_of ?_ rfl rfl rfl rfl rfl rfl rfl rfl rfl rfl rfl)

theorem Calm.updTx (h : Calm p a s) : Calm p a (State.updTx s x1 x2) := by
  unfold State.updTx
  repeat' first | with_reducible assumption | (fail_if_no_progress with_reducible refine Calm.upd_of ?_ rfl rfl rfl rfl rfl rfl rfl rfl rfl rfl rfl)

theorem Calm.dropFrames (h : Calm p a s) : Calm p a (State.dropFrames s x1) := by
  unfold State.dropFrames
  repeat' first | with_reducible assumption | with_reducible apply Calm.each | with_reducible apply Calm.updFecb | with_reducible apply Calm.updTx | intro _

theorem Calm.completeId (h : Calm p a s) : Calm p a (State.completeId s x1 x2 x3 x4) := by
  unfold State.completeId
  repeat' first | with_reducible assumption | with_reducible apply Calm.complete | split

theorem Calm.updInst (h : Calm p a s) : Calm p a (State.updInst s x1 x2) := by
  unfold State.updInst
  repeat' first | with_reducible assumption | (fail_if_no_progress with_reducible refine Calm.upd_of ?_ rfl rfl rfl rfl rfl rfl rfl rfl rfl rfl rfl)

theorem Calm.seedDrop (h : Calm p a s) : Calm p a (State.seedDrop s x1 x2) := by
  unfold State.seedDrop
  repeat' first | with_reducible assumption | with_reducible apply Calm.completeId | with_reducible apply Calm.updInst | split

theorem Calm.updLut (h : Calm p a s) : Calm p a (State.updLut s x1 x2) := by
  unfold State.updLut
  repeat' first | with_reducible assumption | (fail_if_no_progress with_reducible refine Calm.upd_of ?_ rfl rfl rfl rfl rfl rfl rfl rfl rfl rfl rfl)

theorem Calm.updObj (h : Calm p a s) (hf : ∀ o k, o.cause.getLsbD k = true → (f o).cause.getLsbD k = true) : Calm p a (s.updObj i f) where
  now := h.now
  queue := h.queue
  straps := h.straps
  pol := h.pol
  sev := h.sev
  auth := h.auth
  seq := h.seq
  cause := fun e j k hk => by
    have := h.cause e j k hk
    simp only [State.wobj, State.updObj] at this ⊢
    by_cases hij : i = j
    · subst hij; rw [Tab.get_upd_self]; exact hf _ _ this
    · rw [Tab.get_upd_ne _ _ _ _ _ _ hij]; exact this
  stat := h.stat
  wrote := h.wrote
  opens := h.opens

theorem Calm.abortRelease (h : Calm p a s) : Calm p a (State.abortRelease s x1 x2) := by
  unfold State.abortRelease
  repeat' first | with_reducible assumption | with_reducible apply Calm.complete | with_reducible apply Calm.updObj | intro _ | split

theorem Calm.updTask (h : Calm p a s) : Calm p a (State.updTask s x1 x2) := by
  unfold State.updTask
  repeat' first | with_reducible assumption | (fail_if_no_progress with_reducible refine Calm.upd_of ?_ rfl rfl rfl rfl rfl rfl rfl rfl rfl rfl rfl)

theorem Calm.capSlot (h : Calm p a s) : Calm p a (State.capSlot s x1) := by
  unfold State.capSlot
  repeat' first | with_reducible assumption | with_reducible apply Calm.updGain

theorem Calm.capAll (h : Calm p a s) : Calm p a (State.capAll s) := by
  unfold State.capAll
  repeat' first | with_reducible assumption | with_reducible apply Calm.each | with_reducible apply Calm.capSlot | with_reducible refine Calm.ite (fun _ => ?_) (fun _ => ?_) | intro _

theorem Calm.updEng (h : Calm p a s) : Calm p a (State.updEng s x1 x2) := by
  unfold State.updEng
  repeat' first | with_reducible assumption | (fail_if_no_progress with_reducible refine Calm.upd_of ?_ rfl rfl rfl rfl rfl rfl rfl rfl rfl rfl rfl)

theorem Calm.stopTask (h : Calm p a s) : Calm p a (State.stopTask s x1 x2) := by
  unfold State.stopTask
  repeat' first | with_reducible assumption | with_reducible apply Calm.updEng | with_reducible apply Calm.completeId | with_reducible apply Calm.updTask | split

theorem Calm.libAgcSync (h : Calm p a s) : Calm p a (State.libAgcSync s x1) := by
  unfold State.libAgcSync
  repeat' first | with_reducible assumption | with_reducible apply Calm.updTask | with_reducible apply Calm.stopTask | with_reducible refine Calm.ite (fun _ => ?_) (fun _ => ?_)

theorem Calm.libPlace (h : Calm p a s) : Calm p a (State.libPlace s) := by
  unfold State.libPlace
  repeat' first | with_reducible assumption | with_reducible apply Calm.updTask | with_reducible apply Calm.capAll | with_reducible apply Calm.each | with_reducible apply Calm.libAgcSync | with_reducible apply Calm.foldl | with_reducible refine Calm.ite (fun _ => ?_) (fun _ => ?_) | intro _ | (fail_if_no_progress with_reducible refine Calm.upd_of ?_ rfl rfl rfl rfl rfl rfl rfl rfl rfl rfl rfl) | dsimp only | split

theorem Calm.captNext (h : Calm p a s) : Calm p a (State.captNext s) := by
  unfold State.captNext
  repeat' first | with_reducible assumption | with_reducible refine Calm.ite (fun _ => ?_) (fun _ => ?_) | intro _ | (fail_if_no_progress with_reducible refine Calm.upd_of ?_ rfl rfl rfl rfl rfl rfl rfl rfl rfl rfl rfl) | dsimp only | split

theorem Calm.captAbort (h : Calm p a s) : Calm p a (State.captAbort s x1) := by
  unfold State.captAbort
  repeat' first | with_reducible assumption | with_reducible apply Calm.complete | with_reducible apply Calm.captNext | with_reducible apply Calm.free | with_reducible refine Calm.ite (fun _ => ?_) (fun _ => ?_) | intro _ | (fail_if_no_progress with_reducible refine Calm.upd_of ?_ rfl rfl rfl rfl rfl rfl rfl rfl rfl rfl rfl) | dsimp only | split

theorem Calm.updStrm (h : Calm p a s) : Calm p a (State.updStrm s x1 x2) := by
  unfold State.updStrm
  repeat' first | with_reducible assumption | (fail_if_no_progress with_reducible refine Calm.upd_of ?_ rfl rfl rfl rfl rfl rfl rfl rfl rfl rfl rfl)

theorem Calm.updPort (h : Calm p a s) : Calm p a (State.updPort s x1 x2) := by
  unfold State.updPort
  repeat' first | with_reducible assumption | (fail_if_no_progress with_reducible refine Calm.upd_of ?_ rfl rfl rfl rfl rfl rfl rfl rfl rfl rfl rfl)

theorem Calm.portSend (h : Calm p a s) : Calm p a (State.portSend s x1 x2) := by
  unfold State.portSend
  repeat' first | with_reducible assumption | with_reducible apply Calm.updPort | with_reducible refine Calm.ite (fun _ => ?_) (fun _ => ?_)

theorem Calm.openFails (h : Calm p a s) : Calm p a (State.openFails s x1 x2 x3 x4) := by
  unfold State.openFails
  repeat' first | with_reducible assumption | with_reducible apply Calm.updStrm | with_reducible apply Calm.completeId | with_reducible apply Calm.portSend | with_reducible apply Calm.updPort | with_reducible refine Calm.ite (fun _ => ?_) (fun _ => ?_) | split

theorem Calm.abortPend (h : Calm p a s) : Calm p a (State.abortPend s x1) := by
  unfold State.abortPend
  repeat' first | with_reducible assumption | with_reducible apply Calm.abortSlotGainSet | with_reducible apply Calm.abortSetpoint | with_reducible apply Calm.loadsStart | with_reducible apply Calm.complete | with_reducible apply Calm.abortWalk | with_reducible apply Calm.dropFrames | with_reducible apply Calm.seedDrop | with_reducible apply Calm.updLut | with_reducible apply Calm.abortRelease | with_reducible apply Calm.libPlace | with_reducible apply Calm.stopTask | with_reducible apply Calm.captAbort | with_reducible apply Calm.openFails | with_reducible apply Calm.updStrm | with_reducible apply Calm.free | split

theorem Calm.pass (h : Calm p a s) : Calm p a (State.pass s x1) := by
  unfold State.pass
  repeat' first | with_reducible assumption | with_reducible apply Calm.updRing

theorem Calm.startAbort (h : Calm p a s) : Calm p a (Sys2Proof.Machine.startAbort x1 x2 x3 s) := by
  unfold Sys2Proof.Machine.startAbort
  repeat' first | with_reducible assumption | with_reducible apply Calm.complete | with_reducible apply Calm.abortPend | split

theorem Calm.updSlot (h : Calm p a s) : Calm p a (State.updSlot s x1 x2) := by
  unfold State.updSlot
  repeat' first | with_reducible assumption | (fail_if_no_progress with_reducible refine Calm.upd_of ?_ rfl rfl rfl rfl rfl rfl rfl rfl rfl rfl rfl)

theorem Calm.slotSupersede (h : Calm p a s) : Calm p a (State.slotSupersede s x1) := by
  unfold State.slotSupersede
  repeat' first | with_reducible assumption | with_reducible apply Calm.complete | with_reducible apply Calm.updSlot | with_reducible apply Calm.foldl | with_reducible refine Calm.ite (fun _ => ?_) (fun _ => ?_) | intro _

theorem Calm.startSlotConfig (h : Calm p a s) : Calm p a (Sys2Proof.Machine.startSlotConfig x1 x2 x3 x4 x5 x6 x7 x8 x9 x10 s) := by
  unfold Sys2Proof.Machine.startSlotConfig
  repeat' first | with_reducible assumption | with_reducible apply Calm.slotSupersede | with_reducible apply Calm.complete | with_reducible apply Calm.capAll | with_reducible apply Calm.updSlot | with_reducible apply Calm.updGain | with_reducible refine Calm.ite (fun _ => ?_) (fun _ => ?_) | (fail_if_no_progress with_reducible refine Calm.upd_of ?_ rfl rfl rfl rfl rfl rfl rfl rfl rfl rfl rfl)

theorem Calm.startSlotEnable (h : Calm p a s) : Calm p a (Sys2Proof.Machine.startSlotEnable x1 x2 s) := by
  unfold Sys2Proof.Machine.startSlotEnable
  repeat' first | with_reducible assumption | with_reducible apply Calm.complete | with_reducible refine Calm.ite (fun _ => ?_) (fun _ => ?_)

theorem Calm.startSlotDisable (h : Calm p a s) : Calm p a (Sys2Proof.Machine.startSlotDisable x1 x2 s) := by
  unfold Sys2Proof.Machine.startSlotDisable
  repeat' first | with_reducible assumption | with_reducible apply Calm.complete | split

theorem Calm.endGainSets (h : Calm p a s) : Calm p a (State.endGainSets s x1 x2) := by
  unfold State.endGainSets
  repeat' first | with_reducible assumption | with_reducible apply Calm.complete | with_reducible apply Calm.foldl | intro _

theorem Calm.gainSetCheck (h : Calm p a s) : Calm p a (State.gainSetCheck s x1) := by
  unfold State.gainSetCheck
  repeat' first | with_reducible assumption | with_reducible apply Calm.endGainSets | with_reducible refine Calm.ite (fun _ => ?_) (fun _ => ?_)

theorem Calm.startSlotGainSet (h : Calm p a s) : Calm p a (Sys2Proof.Machine.startSlotGainSet x1 x2 x3 s) := by
  unfold Sys2Proof.Machine.startSlotGainSet
  repeat' first | with_reducible assumption | with_reducible apply Calm.updGain | with_reducible apply Calm.complete | with_reducible apply Calm.gainSetCheck | with_reducible apply Calm.foldl | with_reducible refine Calm.ite (fun _ => ?_) (fun _ => ?_) | intro _ | (fail_if_no_progress with_reducible refine Calm.upd_of ?_ rfl rfl rfl rfl rfl rfl rfl rfl rfl rfl rfl) | dsimp only | split

theorem Calm.startSlotCoefLoad (h : Calm p a s) : Calm p a (Sys2Proof.Machine.startSlotCoefLoad x1 s) := by
  unfold Sys2Proof.Machine.startSlotCoefLoad
  repeat' first | with_reducible assumption | with_reducible apply Calm.loadsStart

theorem Calm.startSlotBankSwap (h : Calm p a s) : Calm p a (Sys2Proof.Machine.startSlotBankSwap x1 x2 s) := by
  unfold Sys2Proof.Machine.startSlotBankSwap
  repeat' first | with_reducible assumption | exact fun _ => rfl | with_reducible apply Calm.loadsStart | with_reducible apply Calm.updSlot | with_reducible apply Calm.complete | with_reducible apply Calm.updPend | with_reducible apply Calm.foldl | with_reducible refine Calm.ite (fun _ => ?_) (fun _ => ?_) | intro _

theorem Calm.chainSync (h : Calm p a s) : Calm p a (State.chainSync s x1) := by
  unfold State.chainSync
  repeat' first | with_reducible assumption | with_reducible apply Calm.updChain

theorem Calm.walkBegin (h : Calm p a s) : Calm p a (State.walkBegin s x1 x2 x3) := by
  unfold State.walkBegin
  repeat' first | with_reducible assumption | exact fun _ => rfl | with_reducible apply Calm.updPend | with_reducible apply Calm.updChain

theorem Calm.startChainState (h : Calm p a s) : Calm p a (Sys2Proof.Machine.startChainState x1 x2 x3 s) := by
  unfold Sys2Proof.Machine.startChainState
  repeat' first | with_reducible assumption | with_reducible apply Calm.updChain | with_reducible apply Calm.chainSync | with_reducible apply Calm.complete | with_reducible apply Calm.walkBegin | with_reducible refine Calm.ite (fun _ => ?_) (fun _ => ?_)

theorem Calm.startChainTune (h : Calm p a s) : Calm p a (Sys2Proof.Machine.startChainTune x1 x2 x3 x4 x5 x6 s) := by
  unfold Sys2Proof.Machine.startChainTune
  repeat' first | with_reducible assumption | exact fun _ => rfl | with_reducible apply Calm.updPend | with_reducible refine Calm.ite (fun _ => ?_) (fun _ => ?_)

theorem Calm.startCalRun (h : Calm p a s) : Calm p a (Sys2Proof.Machine.startCalRun x1 x2 x3 s) := by
  unfold Sys2Proof.Machine.startCalRun
  repeat' first | with_reducible assumption | exact fun _ => rfl | with_reducible apply Calm.complete | with_reducible apply Calm.updPend | with_reducible refine Calm.ite (fun _ => ?_) (fun _ => ?_)

theorem Calm.queueFrame (h : Calm p a s) : Calm p a (State.queueFrame s x1 x2) := by
  unfold State.queueFrame
  repeat' first | with_reducible assumption | with_reducible apply Calm.updFecb

theorem Calm.startTxPowerStep (h : Calm p a s) : Calm p a (Sys2Proof.Machine.startTxPowerStep x1 x2 x3 x4 x5 x6 s) := by
  unfold Sys2Proof.Machine.startTxPowerStep
  repeat' first | with_reducible assumption | exact fun _ => rfl | with_reducible apply Calm.updPend | with_reducible apply Calm.queueFrame | with_reducible apply Calm.updTx | with_reducible refine Calm.ite (fun _ => ?_) (fun _ => ?_)

theorem Calm.startTunerSet (h : Calm p a s) : Calm p a (Sys2Proof.Machine.startTunerSet x1 x2 x3 x4 s) := by
  unfold Sys2Proof.Machine.startTunerSet
  repeat' first | with_reducible assumption | with_reducible apply Calm.queueFrame

theorem Calm.startTunerSetRaw (h : Calm p a s) : Calm p a (Sys2Proof.Machine.startTunerSetRaw x1 x2 x3 x4 x5 x6 s) := by
  unfold Sys2Proof.Machine.startTunerSetRaw
  repeat' first | with_reducible assumption | with_reducible apply Calm.queueFrame

theorem Calm.cxReport (h : Calm p a s) : Calm p a (State.cxReport s x1) := by
  unfold State.cxReport
  repeat' first | with_reducible assumption | with_reducible refine Calm.ite (fun _ => ?_) (fun _ => ?_) | (fail_if_no_progress with_reducible refine Calm.upd_of ?_ rfl rfl rfl rfl rfl rfl rfl rfl rfl rfl rfl)

theorem Calm.cxRunSync (h : Calm p a s) : Calm p a (State.cxRunSync s x1) := by
  unfold State.cxRunSync
  repeat' first | with_reducible assumption | with_reducible apply Calm.updInst | dsimp only | split

theorem Calm.startCxAssign (h : Calm p a s) : Calm p a (Sys2Proof.Machine.startCxAssign x1 x2 x3 x4 x5 x6 x7 x8 s) := by
  unfold Sys2Proof.Machine.startCxAssign
  repeat' first | with_reducible assumption | with_reducible apply Calm.updInst | with_reducible apply Calm.complete | with_reducible apply Calm.capAll | with_reducible apply Calm.cxReport | with_reducible apply Calm.seedDrop | with_reducible apply Calm.cxRunSync | with_reducible refine Calm.ite (fun _ => ?_) (fun _ => ?_)

theorem Calm.startCxResetSeed (h : Calm p a s) : Calm p a (Sys2Proof.Machine.startCxResetSeed x1 x2 x3 x4 s) := by
  unfold Sys2Proof.Machine.startCxResetSeed
  repeat' first | with_reducible assumption | with_reducible apply Calm.updInst

theorem Calm.completeAll (h : Calm p a s) : Calm p a (State.completeAll s x1 x2) := by
  unfold State.completeAll
  repeat' first | with_reducible assumption | with_reducible apply Calm.complete | with_reducible apply Calm.foldl | intro _

theorem Calm.lutSwapCheck (h : Calm p a s) : Calm p a (State.lutSwapCheck s x1) := by
  unfold State.lutSwapCheck
  repeat' first | with_reducible assumption | with_reducible apply Calm.completeAll | with_reducible refine Calm.ite (fun _ => ?_) (fun _ => ?_)

theorem Calm.startGclBankSwap (h : Calm p a s) : Calm p a (Sys2Proof.Machine.startGclBankSwap x1 x2 s) := by
  unfold Sys2Proof.Machine.startGclBankSwap
  repeat' first | with_reducible assumption | with_reducible apply Calm.complete | with_reducible apply Calm.updLut | with_reducible apply Calm.each | with_reducible apply Calm.updGain | with_reducible apply Calm.lutSwapCheck | with_reducible apply Calm.foldl | intro _

theorem Calm.setpointCheck (h : Calm p a s) : Calm p a (State.setpointCheck s x1) := by
  unfold State.setpointCheck
  repeat' first | with_reducible assumption | with_reducible apply Calm.complete | with_reducible apply Calm.foldl | with_reducible refine Calm.ite (fun _ => ?_) (fun _ => ?_) | intro _

theorem Calm.startGclSetpoint (h : Calm p a s) : Calm p a (Sys2Proof.Machine.startGclSetpoint x1 x2 x3 x4 x5 x6 x7 x8 x9 x10 s) := by
  unfold Sys2Proof.Machine.startGclSetpoint
  repeat' first | with_reducible assumption | with_reducible apply Calm.updGain | with_reducible apply Calm.complete | with_reducible apply Calm.capAll | with_reducible apply Calm.setpointCheck | with_reducible apply Calm.foldl | with_reducible refine Calm.ite (fun _ => ?_) (fun _ => ?_) | intro _

theorem Calm.startInstallationModel (h : Calm p a s) : Calm p a (Sys2Proof.Machine.startInstallationModel x1 x2 x3 x4 x5 s) := by
  unfold Sys2Proof.Machine.startInstallationModel
  repeat' first | with_reducible assumption | with_reducible apply Calm.complete | with_reducible apply Calm.capAll | with_reducible apply Calm.updInst | with_reducible apply Calm.free

theorem Calm.setParam (h : Calm p a s) : Calm p a (State.setParam s x1 x2 x3) := by
  unfold State.setParam
  repeat' first | with_reducible assumption | (fail_if_no_progress with_reducible refine Calm.upd_of ?_ rfl rfl rfl rfl rfl rfl rfl rfl rfl rfl rfl)

theorem Calm.startProtConfig (h : Calm p a s) : Calm p a (Sys2Proof.Machine.startProtConfig x1 x2 x3 x4 s) := by
  unfold Sys2Proof.Machine.startProtConfig
  repeat' first | with_reducible assumption | with_reducible apply Calm.complete | with_reducible apply Calm.each | with_reducible apply Calm.setParam | intro _

theorem Calm.startAuthWrite (hp : p.auth = true) (h : Calm p a s) : Calm p a (Sys2Proof.Machine.startAuthWrite x1 x2 x3 x4 x5 x6 s) :=
  ⟨h.now, h.queue, h.straps, h.pol, h.sev, fun e => by simp [hp] at e, h.seq, h.cause, h.stat, h.wrote, h.opens⟩

theorem Calm.updNet (h : Calm p a s) : Calm p a (State.updNet s x1 x2) := by
  unfold State.updNet
  repeat' first | with_reducible assumption | (fail_if_no_progress with_reducible refine Calm.upd_of ?_ rfl rfl rfl rfl rfl rfl rfl rfl rfl rfl rfl)

theorem Calm.bridgeNet (h : Calm p a s) : Calm p a (State.bridgeNet s x1) := by
  unfold State.bridgeNet
  repeat' first | with_reducible assumption | with_reducible apply Calm.updNet | split

theorem Calm.lutSuspend (h : Calm p a s) : Calm p a (State.lutSuspend s x1) := by
  unfold State.lutSuspend
  repeat' first | with_reducible assumption | with_reducible apply Calm.lutSwapCheck | with_reducible apply Calm.updGain | with_reducible refine Calm.ite (fun _ => ?_) (fun _ => ?_)

theorem Calm.fadeFinish (h : Calm p a s) : Calm p a (State.fadeFinish s x1) := by
  unfold State.fadeFinish
  repeat' first | with_reducible assumption | with_reducible apply Calm.loadsStart | with_reducible apply Calm.completeId | with_reducible apply Calm.updSlot | split

theorem Calm.slotEntersWinter (h : Calm p a s) : Calm p a (State.slotEntersWinter s x1) := by
  unfold State.slotEntersWinter
  repeat' first | with_reducible assumption | with_reducible apply Calm.lutSuspend | with_reducible apply Calm.completeAll | with_reducible apply Calm.fadeFinish

theorem Calm.seedInstall (h : Calm p a s) : Calm p a (State.seedInstall s x1) := by
  unfold State.seedInstall
  repeat' first | with_reducible assumption | with_reducible apply Calm.completeId | with_reducible apply Calm.updInst | split

theorem Calm.txEntersWinter (h : Calm p a s) : Calm p a (State.txEntersWinter s x1) := by
  unfold State.txEntersWinter
  repeat' first | with_reducible assumption | with_reducible apply Calm.irqEdge | with_reducible apply Calm.updNet | with_reducible apply Calm.each | with_reducible apply Calm.seedInstall | intro _

theorem Calm.captTrigger (h : Calm p a s) : Calm p a (State.captTrigger s x1) := by
  unfold State.captTrigger
  repeat' first | with_reducible assumption | exact fun _ => rfl | with_reducible apply Calm.updPend | with_reducible refine Calm.ite (fun _ => ?_) (fun _ => ?_) | intro _ | (fail_if_no_progress with_reducible refine Calm.upd_of ?_ rfl rfl rfl rfl rfl rfl rfl rfl rfl rfl rfl) | dsimp only | split

theorem Calm.winterSetWith {recF : RecF} (hr : CalmRec p recF) (h : Calm p a s) : Calm p a (s.winterSetWith recF x1 x2 x3) := by
  unfold State.winterSetWith
  dsimp only
  split
  · exact Calm.updObj h (fun _ _ hk => hk)
  · refine Calm.captTrigger (Calm.each (Calm.each ?_ (fun i b hb => Calm.slotEntersWinter hb)) (fun i b hb => Calm.txEntersWinter hb))
    have h1 : Calm p a (if x1 < 256 then s.bridgeNet x1 else s) := iteInduction (fun _ => Calm.bridgeNet h) (fun _ => h)
    split
    all_goals
      first
      | refine Calm.completeId (hr _ _ _ _ _ _ _ (Calm.updObj h1 ?_))
      | refine hr _ _ _ _ _ _ _ (Calm.updObj h1 ?_)
      intro o k hk
      simp [hk]

theorem Calm.faultWinter {recF : RecF} (hr : CalmRec p recF) (h : Calm p a s) : Calm p a (s.faultWinter recF x1 x2) := by
  unfold State.faultWinter
  split
  · exact h
  · exact Calm.each h (fun i b hb => Calm.updObj (Calm.winterSetWith hr hb) (fun _ _ hk => hk))

theorem Calm.escalateWinter {recF : RecF} (hr : CalmRec p recF) (h : Calm p a s) : Calm p a (s.escalateWinter recF x1) := Calm.foldl h (fun _ _ hb => Calm.faultWinter hr hb)

theorem Calm.faultRecord {recF : RecF} (hr : CalmRec p recF) (h : Calm p a s) : Calm p a (s.faultRecord recF x1 x2 x3 x4) := hr _ _ _ _ _ _ _ h

/-- A source's state changes where clearing STATUS is tolerated. -/
theorem Calm.updFsrc_any (hp : p.stat = true) (h : Calm p a s) : Calm p a (s.updFsrc i f) :=
  ⟨h.now, h.queue, h.straps, h.pol, h.sev, h.auth, h.seq, h.cause, fun e => by simp [hp] at e, h.wrote, h.opens⟩

theorem Calm.updFsrc (h : Calm p a s) (hf : ∀ x, x.status = true → (f x).status = true) : Calm p a (s.updFsrc i f) :=
  ⟨h.now, h.queue, h.straps, h.pol, h.sev, h.auth, h.seq, h.cause, fun e k hk => by
    have := h.stat e k hk
    simp only [State.fsrc, State.updFsrc] at this ⊢
    by_cases hij : i = k
    · subst hij; rw [Tab.get_upd_self]; exact hf _ this
    · rw [Tab.get_upd_ne _ _ _ _ _ _ hij]; exact this, h.wrote, h.opens⟩

theorem Calm.repeatOccur {recF : RecF} (hr : CalmRec p recF) (h : Calm p a s) : Calm p a (s.repeatOccur recF x1 x2 x3) := by
  unfold State.repeatOccur
  dsimp only
  repeat' first | with_reducible assumption | exact hr | with_reducible apply Calm.faultWinter | with_reducible apply Calm.escalateWinter | with_reducible apply Calm.faultRecord | with_reducible apply Calm.updFsrc | exact fun _ h => h | exact fun _ _ => rfl | split

theorem Calm.irqRise (h : Calm p a s) : Calm p a (State.irqRise s x1) := by
  unfold State.irqRise
  repeat' first | with_reducible assumption | with_reducible apply Calm.srcEvent | with_reducible refine Calm.ite (fun _ => ?_) (fun _ => ?_)

theorem Calm.firstOccur {recF : RecF} (hr : CalmRec p recF) (h : Calm p a s) : Calm p a (s.firstOccur recF x1 x2 x3 x4) := by
  unfold State.firstOccur
  dsimp only
  repeat' first | with_reducible assumption | exact hr | with_reducible apply Calm.faultWinter | with_reducible apply Calm.faultRecord | with_reducible apply Calm.irqRise | with_reducible apply Calm.updFsrc | exact fun _ h => h | exact fun _ _ => rfl | split

theorem Calm.recordQ_rec : CalmRec p State.recordQ := fun _ _ _ _ _ _ _ h => Calm.recordQ h

theorem Calm.record_rec : CalmRec p State.record := by
  intro a b c sv sr by_ d h
  have hq : Calm p a (b.record0 c sv sr by_ d).2 := Calm.record0 h
  unfold State.record
  split
  · rename_i s1 he
    rw [he] at hq
    exact iteInduction (fun _ => Calm.repeatOccur Calm.recordQ_rec hq) (fun _ => Calm.firstOccur Calm.recordQ_rec hq)
  · rename_i s1 he
    rw [he] at hq
    exact hq

theorem Calm.record (h : Calm p a s) : Calm p a (s.record x1 x2 x3 x4 x5) := Calm.record_rec _ _ _ _ _ _ _ h

theorem Calm.occurWith {recF : RecF} (hr : CalmRec p recF) (h : Calm p a s) : Calm p a (s.occurWith recF x1 x2 x3) :=
  iteInduction (fun _ => Calm.repeatOccur hr h) (fun _ => Calm.firstOccur hr h)

theorem Calm.winterSet (h : Calm p a s) : Calm p a (State.winterSet s x1 x2 x3) := by
  unfold State.winterSet
  repeat' first | with_reducible assumption | with_reducible apply Calm.record | exact Calm.record_rec | with_reducible apply Calm.winterSetWith

theorem Calm.startWinterEnter (h : Calm p a s) : Calm p a (Sys2Proof.Machine.startWinterEnter x1 x2 x3 x4 s) := by
  unfold Sys2Proof.Machine.startWinterEnter
  repeat' first | with_reducible assumption | with_reducible apply Calm.complete | with_reducible apply Calm.winterSet

theorem Calm.startWinterRelease (h : Calm p a s) : Calm p a (Sys2Proof.Machine.startWinterRelease x1 x2 s) := by
  unfold Sys2Proof.Machine.startWinterRelease
  repeat' first | with_reducible assumption | with_reducible apply Calm.complete | with_reducible apply Calm.updObj | with_reducible refine Calm.ite (fun _ => ?_) (fun _ => ?_) | intro _

theorem Calm.libStop (h : Calm p a s) : Calm p a (State.libStop s) := by
  unfold State.libStop
  repeat' first | with_reducible assumption | with_reducible apply Calm.each | with_reducible apply Calm.stopTask | with_reducible refine Calm.ite (fun _ => ?_) (fun _ => ?_) | intro _ | (fail_if_no_progress with_reducible refine Calm.upd_of ?_ rfl rfl rfl rfl rfl rfl rfl rfl rfl rfl rfl)

theorem Calm.startImageLoad (h : Calm p a s) : Calm p a (Sys2Proof.Machine.startImageLoad x1 s) := by
  unfold Sys2Proof.Machine.startImageLoad
  repeat' first | with_reducible assumption | with_reducible apply Calm.libStop | with_reducible refine Calm.ite (fun _ => ?_) (fun _ => ?_)

theorem Calm.startTaskStart (h : Calm p a s) : Calm p a (Sys2Proof.Machine.startTaskStart x1 x2 x3 x4 x5 x6 x7 x8 x9 s) := by
  unfold Sys2Proof.Machine.startTaskStart
  repeat' first | with_reducible assumption | with_reducible apply Calm.updTask

theorem Calm.startTaskStop (h : Calm p a s) : Calm p a (Sys2Proof.Machine.startTaskStop x1 x2 x3 s) := by
  unfold Sys2Proof.Machine.startTaskStop
  repeat' first | with_reducible assumption | with_reducible apply Calm.complete | with_reducible apply Calm.stopTask | split

theorem Calm.startSubscribe (h : Calm p a s) : Calm p a (Sys2Proof.Machine.startSubscribe x1 x2 x3 x4 x5 x6 x7 s) := by
  unfold Sys2Proof.Machine.startSubscribe
  repeat' first | with_reducible assumption | with_reducible apply Calm.complete | (fail_if_no_progress with_reducible refine Calm.upd_of ?_ rfl rfl rfl rfl rfl rfl rfl rfl rfl rfl rfl)

theorem Calm.startRecNote (h : Calm p a s) : Calm p a (Sys2Proof.Machine.startRecNote x1 x2 x3 s) := Calm.complete (Calm.record h)

theorem Calm.recFlushCheck (h : Calm p a s) : Calm p a (State.recFlushCheck s) := by
  unfold State.recFlushCheck
  repeat' first | with_reducible assumption | with_reducible apply Calm.completeAll | with_reducible refine Calm.ite (fun _ => ?_) (fun _ => ?_)

theorem Calm.startRecFlush (h : Calm p a s) : Calm p a (Sys2Proof.Machine.startRecFlush x1 s) := by
  unfold Sys2Proof.Machine.startRecFlush
  repeat' first | with_reducible assumption | exact fun _ => rfl | with_reducible apply Calm.updPend | with_reducible apply Calm.recFlushCheck | with_reducible apply Calm.askFlush | with_reducible refine Calm.ite (fun _ => ?_) (fun _ => ?_)

theorem Calm.streamReqSend (h : Calm p a s) : Calm p a (State.streamReqSend s x1 x2) := by
  unfold State.streamReqSend
  repeat' first | with_reducible assumption | with_reducible apply Calm.portSend | with_reducible apply Calm.updStrm

theorem Calm.startStreamOpen (h : Calm p a s) : Calm p a (Sys2Proof.Machine.startStreamOpen x1 x2 x3 x4 x5 x6 x7 x8 x9 s) := by
  unfold Sys2Proof.Machine.startStreamOpen
  repeat' first | with_reducible assumption | with_reducible apply Calm.complete | with_reducible apply Calm.updStrm | with_reducible apply Calm.streamReqSend | with_reducible refine Calm.ite (fun _ => ?_) (fun _ => ?_) | intro _ | (fail_if_no_progress with_reducible refine Calm.upd_of ?_ rfl rfl rfl rfl rfl rfl rfl rfl rfl rfl rfl) | dsimp only | split

theorem Calm.startStreamClose (h : Calm p a s) : Calm p a (Sys2Proof.Machine.startStreamClose x1 x2 x3 s) := by
  unfold Sys2Proof.Machine.startStreamClose
  repeat' first | with_reducible assumption | with_reducible apply Calm.complete | with_reducible apply Calm.updStrm | with_reducible refine Calm.ite (fun _ => ?_) (fun _ => ?_)

theorem Calm.startOf (hq : isAuth x1.desc = true → p.auth = true) (h : Calm p a s) : Calm p a (Sys2Proof.Machine.startOf x1 s) := by
  unfold Sys2Proof.Machine.startOf
  split
  all_goals first | with_reducible exact h | with_reducible exact Calm.complete h | with_reducible exact Calm.startAbort h | with_reducible exact Calm.startSlotConfig h | with_reducible exact Calm.startSlotEnable h | with_reducible exact Calm.startSlotDisable h | with_reducible exact Calm.startSlotGainSet h | with_reducible exact Calm.startSlotCoefLoad h | with_reducible exact Calm.startSlotBankSwap h | with_reducible exact Calm.startChainState h | with_reducible exact Calm.startChainTune h | with_reducible exact Calm.startCalRun h | with_reducible exact Calm.startTxPowerStep h | with_reducible exact Calm.startTunerSet h | with_reducible exact Calm.startTunerSetRaw h | with_reducible exact Calm.startCxAssign h | with_reducible exact Calm.startCxResetSeed h | with_reducible exact Calm.startGclBankSwap h | with_reducible exact Calm.startGclSetpoint h | with_reducible exact Calm.startInstallationModel h | with_reducible exact Calm.startProtConfig h | with_reducible exact Calm.startWinterEnter h | with_reducible exact Calm.startWinterRelease h | with_reducible exact Calm.startImageLoad h | with_reducible exact Calm.startTaskStart h | with_reducible exact Calm.startTaskStop h | with_reducible exact Calm.captNext h | with_reducible exact Calm.startSubscribe h | with_reducible exact Calm.startRecNote h | with_reducible exact Calm.startRecFlush h | with_reducible exact Calm.startStreamOpen h | with_reducible exact Calm.startStreamClose h | (rename_i e; exact Calm.startAuthWrite (hq (by rw [e]; rfl)) h)

theorem Calm.accept (hp_take : p.take = true) (hq : isAuth x2 = true → p.auth = true) (h : Calm p a s) : Calm p a (s.accept x1 x2) := by
  have h1 : Calm p a (s.pass x1.ring.val) := Calm.pass h
  unfold State.accept
  refine Calm.startOf hq ?_
  exact ⟨h1.now, h1.queue, h1.straps, h1.pol, h1.sev, h1.auth, h1.seq, h1.cause, h1.stat, h1.wrote, fun e => by simp [hp_take] at e⟩

theorem Calm.clearCause (h : Calm p a s) : Calm p a (State.clearCause s x1 x2) := by
  unfold State.clearCause
  repeat' first | with_reducible assumption | with_reducible apply Calm.updObj | with_reducible refine Calm.ite (fun _ => ?_) (fun _ => ?_) | intro _

theorem Calm.faultDrop (h : Calm p a s) : Calm p a (State.faultDrop s x1 x2) := by
  unfold State.faultDrop
  repeat' first | with_reducible assumption | with_reducible apply Calm.each | with_reducible apply Calm.updObj | with_reducible apply Calm.clearCause | with_reducible refine Calm.ite (fun _ => ?_) (fun _ => ?_) | intro _

theorem Calm.occurIn (h : Calm p a s) : Calm p a (State.occurIn s x1 x2 x3) := by
  unfold State.occurIn
  repeat' first | with_reducible assumption | exact fun _ h => h | exact fun _ _ => rfl | with_reducible apply Calm.record | exact Calm.record_rec | with_reducible apply Calm.updFsrc | with_reducible apply Calm.faultWinter | with_reducible apply Calm.occurWith | with_reducible apply Calm.foldl | with_reducible refine Calm.ite (fun _ => ?_) (fun _ => ?_) | intro _ | (fail_if_no_progress with_reducible refine Calm.upd_of ?_ rfl rfl rfl rfl rfl rfl rfl rfl rfl rfl rfl) | dsimp only | split

theorem Calm.ackOne (hp_stat : p.stat = true) (h : Calm p a s) : Calm p a (s.ackOne x1) :=
  Calm.occurIn (Calm.faultDrop (Calm.updFsrc_any hp_stat (Calm.record (Calm.updFsrc_any hp_stat h))))

theorem Calm.takeFence (hp_take : p.take = true) (h : Calm p a s) : Calm p a (s.takeFence x1 x2) :=
  iteInduction (fun _ => Calm.accept hp_take (fun e => by cases e) h) (fun _ => Calm.updRing h)

theorem Calm.answerNow (h : Calm p a s) : Calm p a (State.answerNow s x1 x2 x3 x4 x5 x6) := by
  unfold State.answerNow
  repeat' first | with_reducible assumption | with_reducible apply Calm.sendCompl

theorem Calm.regfault (h : Calm p a s) : Calm p a (State.regfault s) := by
  unfold State.regfault
  repeat' first | with_reducible assumption | with_reducible apply Calm.record | exact Calm.record_rec | with_reducible apply Calm.occurWith | with_reducible apply Calm.updObj | with_reducible apply Calm.winterSet | with_reducible refine Calm.ite (fun _ => ?_) (fun _ => ?_) | intro _ | (fail_if_no_progress with_reducible refine Calm.upd_of ?_ rfl rfl rfl rfl rfl rfl rfl rfl rfl rfl rfl)

theorem Calm.checkSev (h : Calm p a s) : Calm p a (State.checkSev s x1 x2) := by
  unfold State.checkSev
  repeat' first | with_reducible assumption | with_reducible apply Calm.regfault | with_reducible refine Calm.ite (fun _ => ?_) (fun _ => ?_) | (fail_if_no_progress with_reducible refine Calm.upd_of ?_ rfl rfl rfl rfl rfl rfl rfl rfl rfl rfl rfl)

theorem Calm.checkCopy (h : Calm p a s) : Calm p a (State.checkCopy s x1) := by
  unfold State.checkCopy
  repeat' first | with_reducible assumption | with_reducible apply Calm.record | exact Calm.record_rec | with_reducible apply Calm.regfault | with_reducible apply Calm.firstOccur | with_reducible refine Calm.ite (fun _ => ?_) (fun _ => ?_)

theorem Calm.checkCopies (h : Calm p a s) : Calm p a (State.checkCopies s x1) := by
  unfold State.checkCopies
  repeat' first | with_reducible assumption | with_reducible apply Calm.each | with_reducible apply Calm.checkSev | with_reducible apply Calm.checkCopy | intro _

theorem Calm.checkPolicy (h : Calm p a s) : Calm p a (State.checkPolicy s) := by
  unfold State.checkPolicy
  repeat' first | with_reducible assumption | with_reducible apply Calm.record | exact Calm.record_rec | with_reducible apply Calm.occurWith | with_reducible refine Calm.ite (fun _ => ?_) (fun _ => ?_)

theorem Calm.raiseI (h : Calm p a s) : Calm p a (State.raiseI s x1 x2 x3 x4) := by
  unfold State.raiseI
  repeat' first | with_reducible assumption | with_reducible apply Calm.record | exact Calm.record_rec | with_reducible apply Calm.occurWith | with_reducible apply Calm.checkCopies | with_reducible apply Calm.checkPolicy

theorem Calm.raise (h : Calm p a s) : Calm p a (State.raise s x1 x2 x3) := by
  unfold State.raise
  repeat' first | with_reducible assumption | with_reducible apply Calm.raiseI

theorem Calm.imgReject (h : Calm p a s) : Calm p a (State.imgReject s x1 x2) := by
  unfold State.imgReject
  repeat' first | with_reducible assumption | with_reducible apply Calm.raise | split

theorem Calm.receive (hp_take : p.take = true) (hq : isAuth x2 = true → p.auth = true) (h : Calm p a s) : Calm p a (s.receive x1 x2) := by
  unfold State.receive
  split
  · exact Calm.takeFence hp_take h
  · split
    · exact Calm.answerNow (Calm.imgReject (Calm.pass h))
    · exact Calm.accept hp_take hq h

theorem Calm.agcStep (h : Calm p a s) : Calm p a (State.agcStep s x1 x2) := by
  unfold State.agcStep
  repeat' first | with_reducible assumption | with_reducible apply Calm.updGain | with_reducible apply Calm.raise | dsimp only | split

theorem Calm.agrpWrite (h : Calm p a s) : Calm p a (State.agrpWrite s x1 x2) := by
  unfold State.agrpWrite
  repeat' first | with_reducible assumption | with_reducible refine Calm.ite (fun _ => ?_) (fun _ => ?_) | (fail_if_no_progress with_reducible refine Calm.upd_of ?_ rfl rfl rfl rfl rfl rfl rfl rfl rfl rfl rfl)

theorem Calm.stageTo (h : Calm p a s) : Calm p a (State.stageTo s x1) := by
  unfold State.stageTo
  repeat' first | with_reducible assumption | (fail_if_no_progress with_reducible refine Calm.upd_of ?_ rfl rfl rfl rfl rfl rfl rfl rfl rfl rfl rfl)

theorem Calm.routeSend (h : Calm p a s) : Calm p a (State.routeSend s x1) := by
  unfold State.routeSend
  repeat' first | with_reducible assumption | with_reducible apply Calm.portSend | split

theorem Calm.reqRelease (h : Calm p a s) : Calm p a (State.reqRelease s x1) := by
  unfold State.reqRelease
  repeat' first | with_reducible assumption | with_reducible apply Calm.routeSend | with_reducible apply Calm.foldl | with_reducible refine Calm.ite (fun _ => ?_) (fun _ => ?_) | intro _ | (fail_if_no_progress with_reducible refine Calm.upd_of ?_ rfl rfl rfl rfl rfl rfl rfl rfl rfl rfl rfl) | dsimp only | split

theorem Calm.capsFold {α β : Type} {r : β × State} {l : List α} {f : β × State → α → β × State} (h : Calm p a r.2) (hf : ∀ q x, Calm p a q.2 → Calm p a (f q x).2) :
    Calm p a (l.foldl f r).2 := by
  induction l generalizing r with
  | nil => exact h
  | cons x t ih => exact ih (hf r x h)

theorem Calm.request (h : Calm p a s) : Calm p a (s.request x1 x2 x3).2 := by
  unfold State.request
  repeat' first | with_reducible assumption | with_reducible apply Calm.reqRelease | (fail_if_no_progress with_reducible refine Calm.upd_of ?_ rfl rfl rfl rfl rfl rfl rfl rfl rfl rfl rfl) | dsimp only | split

theorem Calm.lockedJoin (h : Calm p a s) : Calm p a s.lockedJoin := Calm.request (Calm.of h rfl rfl rfl rfl rfl rfl rfl rfl rfl rfl rfl)

theorem Calm.alignStage (h : Calm p a s) : Calm p a (State.alignStage s) := by
  unfold State.alignStage
  repeat' first | with_reducible assumption | with_reducible apply Calm.stageTo | with_reducible apply Calm.lockedJoin | with_reducible refine Calm.ite (fun _ => ?_) (fun _ => ?_) | (fail_if_no_progress with_reducible refine Calm.upd_of ?_ rfl rfl rfl rfl rfl rfl rfl rfl rfl rfl rfl)

theorem Calm.aliveHalf (h : Calm p a s) : Calm p a (State.aliveHalf s) := by
  unfold State.aliveHalf
  repeat' first | with_reducible assumption | with_reducible refine Calm.ite (fun _ => ?_) (fun _ => ?_) | (fail_if_no_progress with_reducible refine Calm.upd_of ?_ rfl rfl rfl rfl rfl rfl rfl rfl rfl rfl rfl)

theorem Calm.answered (h : Calm p a s) : Calm p a (State.answered s x1 x2 x3) := by
  unfold State.answered
  repeat' first | with_reducible assumption | with_reducible apply Calm.reqRelease | (fail_if_no_progress with_reducible refine Calm.upd_of ?_ rfl rfl rfl rfl rfl rfl rfl rfl rfl rfl rfl)

theorem Calm.cxRescale (h : Calm p a s) : Calm p a (State.cxRescale s x1 x2 x3) := by
  unfold State.cxRescale
  repeat' first | with_reducible assumption | with_reducible apply Calm.each | with_reducible apply Calm.cxReport | with_reducible apply Calm.updInst | intro _

theorem Calm.applyPower (h : Calm p a s) : Calm p a (State.applyPower s x1 x2) := by
  unfold State.applyPower
  repeat' first | with_reducible assumption | with_reducible apply Calm.updTx | with_reducible apply Calm.capAll | with_reducible apply Calm.cxRescale | with_reducible refine Calm.ite (fun _ => ?_) (fun _ => ?_) | (fail_if_no_progress with_reducible refine Calm.upd_of ?_ rfl rfl rfl rfl rfl rfl rfl rfl rfl rfl rfl)

theorem Calm.authSlot (h : Calm p a s) : Calm p a (State.authSlot s x1) := by
  unfold State.authSlot
  repeat' first | with_reducible assumption | with_reducible apply Calm.clearCause | with_reducible apply Calm.updSlot | with_reducible apply Calm.winterSet | with_reducible apply Calm.raise | split

theorem Calm.authStream (h : Calm p a s) : Calm p a (State.authStream s x1) := by
  unfold State.authStream
  repeat' first | with_reducible assumption | with_reducible apply Calm.updStrm | with_reducible apply Calm.raise | dsimp only | split

theorem Calm.authChain (h : Calm p a s) : Calm p a (State.authChain s x1) := by
  unfold State.authChain
  repeat' first | with_reducible assumption | with_reducible apply Calm.each | with_reducible apply Calm.authSlot | with_reducible apply Calm.authStream | intro _

theorem Calm.authCheck (h : Calm p a s) : Calm p a (State.authCheck s x1) := by
  unfold State.authCheck
  repeat' first | with_reducible assumption | with_reducible apply Calm.authSlot | with_reducible apply Calm.each | with_reducible apply Calm.authStream | with_reducible refine Calm.ite (fun _ => ?_) (fun _ => ?_) | intro _

theorem Calm.authRestore (hp : p.auth = true) (h : Calm p a s) : Calm p a (s.authRestore x1) := by
  have : ∀ au b, Calm p a { s with prot := { s.prot with auth := au, restoreFail := b } } := fun au b =>
    ⟨h.now, h.queue, h.straps, h.pol, h.sev, fun e => by simp [hp] at e, h.seq, h.cause, h.stat, h.wrote, h.opens⟩
  exact iteInduction (fun _ => this _ _) (fun _ => Calm.raise (this _ _))

theorem Calm.authStoreEnd (h : Calm p a s) : Calm p a (State.authStoreEnd s x1) := by
  unfold State.authStoreEnd
  repeat' first | with_reducible assumption | with_reducible apply Calm.complete | with_reducible refine Calm.ite (fun _ => ?_) (fun _ => ?_) | intro _ | (fail_if_no_progress with_reducible refine Calm.upd_of ?_ rfl rfl rfl rfl rfl rfl rfl rfl rfl rfl rfl) | dsimp only | split

theorem Calm.updTile (h : Calm p a s) : Calm p a (State.updTile s x1 x2) := by
  unfold State.updTile
  repeat' first | with_reducible assumption | (fail_if_no_progress with_reducible refine Calm.upd_of ?_ rfl rfl rfl rfl rfl rfl rfl rfl rfl rfl rfl)

theorem Calm.autumnAdvance (h : Calm p a s) : Calm p a (State.autumnAdvance s x1) := by
  unfold State.autumnAdvance
  repeat' first | with_reducible assumption | with_reducible apply Calm.updTile | with_reducible refine Calm.ite (fun _ => ?_) (fun _ => ?_)

theorem Calm.autumnExit (h : Calm p a s) : Calm p a (State.autumnExit s x1) := by
  unfold State.autumnExit
  repeat' first | with_reducible assumption | with_reducible apply Calm.updTile | dsimp only | split

theorem Calm.writeRejected (h : Calm p a s) : Calm p a (State.writeRejected s) := by
  unfold State.writeRejected
  repeat' first | with_reducible assumption | with_reducible apply Calm.raise | (fail_if_no_progress with_reducible refine Calm.upd_of ?_ rfl rfl rfl rfl rfl rfl rfl rfl rfl rfl rfl)

theorem Calm.sevWrite (hp : p.sev = true) (h : Calm p a s) : Calm p a (s.sevWrite x1 x2 x3) := by
  unfold State.sevWrite
  split
  · exact h
  · split
    · exact Calm.writeRejected h
    · exact ⟨h.now, h.queue, h.straps, h.pol, fun e => by simp [hp] at e, h.auth, h.seq, h.cause, h.stat, h.wrote, h.opens⟩

theorem Calm.graceExpiry (h : Calm p a s) : Calm p a (State.graceExpiry s x1) := by
  unfold State.graceExpiry
  repeat' first | with_reducible assumption | exact fun _ h => h | exact fun _ _ => rfl | with_reducible apply Calm.record | exact Calm.record_rec | with_reducible apply Calm.checkCopies | with_reducible apply Calm.updFsrc | with_reducible apply Calm.escalateWinter | with_reducible apply Calm.faultRecord | with_reducible refine Calm.ite (fun _ => ?_) (fun _ => ?_) | split

theorem Calm.faultAck (hp_stat : p.stat = true) (h : Calm p a s) : Calm p a (State.faultAck s x1 x2) := by
  unfold State.faultAck
  repeat' first | with_reducible assumption | with_reducible apply Calm.each | with_reducible apply Calm.checkCopies | with_reducible apply Calm.graceExpiry | with_reducible apply Calm.ackOne | with_reducible refine Calm.ite (fun _ => ?_) (fun _ => ?_) | intro _

theorem Calm.graceWrite (h : Calm p a s) : Calm p a (State.graceWrite s x1 x2) := by
  unfold State.graceWrite
  repeat' first | with_reducible assumption | with_reducible refine Calm.ite (fun _ => ?_) (fun _ => ?_) | (fail_if_no_progress with_reducible refine Calm.upd_of ?_ rfl rfl rfl rfl rfl rfl rfl rfl rfl rfl rfl)

theorem Calm.fltRegWrite (hp_sev : p.sev = true) (hp_stat : p.stat = true) (h : Calm p a s) : Calm p a (State.fltRegWrite s x1 x2) := by
  unfold State.fltRegWrite
  repeat' first | with_reducible assumption | with_reducible apply Calm.sevWrite | with_reducible apply Calm.faultAck | with_reducible apply Calm.graceWrite | split

theorem Calm.genVidWrite (h : Calm p a s) : Calm p a (State.genVidWrite s x1) := by
  unfold State.genVidWrite
  repeat' first | with_reducible assumption | (fail_if_no_progress with_reducible refine Calm.upd_of ?_ rfl rfl rfl rfl rfl rfl rfl rfl rfl rfl rfl)

theorem Calm.crBaseWrite (h : Calm p a s) : Calm p a (State.crBaseWrite s x1 x2 x3) := by
  unfold State.crBaseWrite
  repeat' first | with_reducible assumption | with_reducible apply Calm.updRing | with_reducible refine Calm.ite (fun _ => ?_) (fun _ => ?_)

theorem Calm.flushHeld (h : Calm p a s) : Calm p a (State.flushHeld s x1) := by
  unfold State.flushHeld
  repeat' first | with_reducible assumption | with_reducible apply Calm.drainCheck | with_reducible apply Calm.putCompl | with_reducible apply Calm.foldl | with_reducible refine Calm.ite (fun _ => ?_) (fun _ => ?_) | intro _ | (fail_if_no_progress with_reducible refine Calm.upd_of ?_ rfl rfl rfl rfl rfl rfl rfl rfl rfl rfl rfl) | dsimp only | split

theorem Calm.flushHeldIf (h : Calm p a s) : Calm p a (State.flushHeldIf s x1) := by
  unfold State.flushHeldIf
  repeat' first | with_reducible assumption | with_reducible apply Calm.flushHeld | with_reducible refine Calm.ite (fun _ => ?_) (fun _ => ?_)

theorem Calm.crCfgWrite (h : Calm p a s) : Calm p a (State.crCfgWrite s x1 x2) := by
  unfold State.crCfgWrite
  repeat' first | with_reducible assumption | with_reducible apply Calm.updRing | with_reducible apply Calm.drainCheck | with_reducible apply Calm.flushHeldIf | with_reducible refine Calm.ite (fun _ => ?_) (fun _ => ?_) | split

theorem Calm.crRestart (h : Calm p a s) : Calm p a (State.crRestart s x1 x2) := by
  unfold State.crRestart
  repeat' first | with_reducible assumption | with_reducible apply Calm.flushHeld | with_reducible apply Calm.updRing | with_reducible refine Calm.ite (fun _ => ?_) (fun _ => ?_)

theorem Calm.updTr (h : Calm p a s) : Calm p a (State.updTr s x1 x2) := by
  unfold State.updTr
  repeat' first | with_reducible assumption | (fail_if_no_progress with_reducible refine Calm.upd_of ?_ rfl rfl rfl rfl rfl rfl rfl rfl rfl rfl rfl)

theorem Calm.trCfgWrite (h : Calm p a s) : Calm p a (State.trCfgWrite s x1 x2) := by
  unfold State.trCfgWrite
  repeat' first | with_reducible assumption | with_reducible apply Calm.updTr

theorem Calm.erCfgWrite (h : Calm p a s) : Calm p a (State.erCfgWrite s x1) := by
  unfold State.erCfgWrite
  repeat' first | with_reducible assumption | (fail_if_no_progress with_reducible refine Calm.upd_of ?_ rfl rfl rfl rfl rfl rfl rfl rfl rfl rfl rfl)

theorem Calm.hifWrite (h : Calm p a s) : Calm p a (State.hifWrite s x1 x2) := by
  unfold State.hifWrite
  repeat' first | with_reducible assumption | with_reducible apply Calm.crBaseWrite | with_reducible apply Calm.crCfgWrite | with_reducible apply Calm.crRestart | with_reducible apply Calm.updTr | with_reducible apply Calm.trCfgWrite | with_reducible apply Calm.erCfgWrite | with_reducible refine Calm.ite (fun _ => ?_) (fun _ => ?_) | (fail_if_no_progress with_reducible refine Calm.upd_of ?_ rfl rfl rfl rfl rfl rfl rfl rfl rfl rfl rfl)

theorem Calm.intcBlocked (h : Calm p a s) : Calm p a (State.intcBlocked s) := by
  unfold State.intcBlocked
  repeat' first | with_reducible assumption | (fail_if_no_progress with_reducible refine Calm.upd_of ?_ rfl rfl rfl rfl rfl rfl rfl rfl rfl rfl rfl)

theorem Calm.prigroupWrite (h : Calm p a s) : Calm p a (State.prigroupWrite s x1) := by
  unfold State.prigroupWrite
  repeat' first | with_reducible assumption | with_reducible apply Calm.intcBlocked | with_reducible refine Calm.ite (fun _ => ?_) (fun _ => ?_) | (fail_if_no_progress with_reducible refine Calm.upd_of ?_ rfl rfl rfl rfl rfl rfl rfl rfl rfl rfl rfl)

theorem Calm.vecComplete (h : Calm p a s) : Calm p a (State.vecComplete s x1) := by
  unfold State.vecComplete
  repeat' first | with_reducible assumption | with_reducible apply Calm.updVec | with_reducible apply Calm.raise | with_reducible refine Calm.ite (fun _ => ?_) (fun _ => ?_)

theorem Calm.intcEoi (h : Calm p a s) : Calm p a (State.intcEoi s x1) := by
  unfold State.intcEoi
  repeat' first | with_reducible assumption | with_reducible apply Calm.vecComplete | with_reducible apply Calm.raise | with_reducible refine Calm.ite (fun _ => ?_) (fun _ => ?_)

theorem Calm.vecMask (h : Calm p a s) : Calm p a (State.vecMask s x1 x2 x3) := by
  unfold State.vecMask
  repeat' first | with_reducible assumption | with_reducible apply Calm.each | with_reducible apply Calm.updVec | intro _

theorem Calm.vecPendSet (h : Calm p a s) : Calm p a (State.vecPendSet s x1 x2) := by
  unfold State.vecPendSet
  repeat' first | with_reducible assumption | with_reducible apply Calm.each | with_reducible apply Calm.updVec | intro _

theorem Calm.vecPendClr (h : Calm p a s) : Calm p a (State.vecPendClr s x1 x2) := by
  unfold State.vecPendClr
  repeat' first | with_reducible assumption | with_reducible apply Calm.each | with_reducible apply Calm.updVec | with_reducible refine Calm.ite (fun _ => ?_) (fun _ => ?_) | intro _

theorem Calm.vecCfgWrite (h : Calm p a s) : Calm p a (State.vecCfgWrite s x1 x2) := by
  unfold State.vecCfgWrite
  repeat' first | with_reducible assumption | with_reducible apply Calm.intcBlocked | with_reducible apply Calm.updVec | with_reducible refine Calm.ite (fun _ => ?_) (fun _ => ?_)

theorem Calm.vecCoalWrite (h : Calm p a s) : Calm p a (State.vecCoalWrite s x1 x2) := by
  unfold State.vecCoalWrite
  repeat' first | with_reducible assumption | with_reducible apply Calm.updVec

theorem Calm.srcCfgWrite (h : Calm p a s) : Calm p a (State.srcCfgWrite s x1 x2) := by
  unfold State.srcCfgWrite
  repeat' first | with_reducible assumption | with_reducible apply Calm.intcBlocked | with_reducible refine Calm.ite (fun _ => ?_) (fun _ => ?_) | (fail_if_no_progress with_reducible refine Calm.upd_of ?_ rfl rfl rfl rfl rfl rfl rfl rfl rfl rfl rfl)

theorem Calm.srcEnSet (h : Calm p a s) : Calm p a (State.srcEnSet s x1 x2) := by
  unfold State.srcEnSet
  repeat' first | with_reducible assumption | with_reducible apply Calm.seenSync | (fail_if_no_progress with_reducible refine Calm.upd_of ?_ rfl rfl rfl rfl rfl rfl rfl rfl rfl rfl rfl)

theorem Calm.srcEnClr (h : Calm p a s) : Calm p a (State.srcEnClr s x1 x2) := by
  unfold State.srcEnClr
  repeat' first | with_reducible assumption | (fail_if_no_progress with_reducible refine Calm.upd_of ?_ rfl rfl rfl rfl rfl rfl rfl rfl rfl rfl rfl)

theorem Calm.srcLatSet (h : Calm p a s) : Calm p a (State.srcLatSet s x1 x2) := by
  unfold State.srcLatSet
  repeat' first | with_reducible assumption | with_reducible apply Calm.each | with_reducible apply Calm.irqEdge | intro _

theorem Calm.srcLatClr (h : Calm p a s) : Calm p a (State.srcLatClr s x1 x2) := by
  unfold State.srcLatClr
  repeat' first | with_reducible assumption | (fail_if_no_progress with_reducible refine Calm.upd_of ?_ rfl rfl rfl rfl rfl rfl rfl rfl rfl rfl rfl)

theorem Calm.intcWrite (h : Calm p a s) : Calm p a (State.intcWrite s x1 x2) := by
  unfold State.intcWrite
  repeat' first | with_reducible assumption | with_reducible apply Calm.prigroupWrite | with_reducible apply Calm.intcEoi | with_reducible apply Calm.vecMask | with_reducible apply Calm.vecPendSet | with_reducible apply Calm.vecPendClr | with_reducible apply Calm.vecCfgWrite | with_reducible apply Calm.vecCoalWrite | with_reducible apply Calm.srcCfgWrite | with_reducible apply Calm.srcEnSet | with_reducible apply Calm.srcEnClr | with_reducible apply Calm.srcLatSet | with_reducible apply Calm.srcLatClr | with_reducible refine Calm.ite (fun _ => ?_) (fun _ => ?_)

theorem Calm.policyWrite (h : Calm p a s) : Calm p a (State.policyWrite s x1) := by
  unfold State.policyWrite
  repeat' first | with_reducible assumption | with_reducible apply Calm.writeRejected | with_reducible refine Calm.ite (fun _ => ?_) (fun _ => ?_) | (fail_if_no_progress with_reducible refine Calm.upd_of ?_ rfl rfl rfl rfl rfl rfl rfl rfl rfl rfl rfl)

theorem Calm.recCursorHi (h : Calm p a s) : Calm p a (State.recCursorHi s x1) := by
  unfold State.recCursorHi
  repeat' first | with_reducible assumption | (fail_if_no_progress with_reducible refine Calm.upd_of ?_ rfl rfl rfl rfl rfl rfl rfl rfl rfl rfl rfl)

theorem Calm.recLimitWrite (h : Calm p a s) : Calm p a (State.recLimitWrite s x1 x2) := by
  unfold State.recLimitWrite
  repeat' first | with_reducible assumption | with_reducible apply Calm.updBucket

theorem Calm.recWrite (h : Calm p a s) : Calm p a (State.recWrite s x1 x2) := by
  unfold State.recWrite
  repeat' first | with_reducible assumption | with_reducible apply Calm.recCursorHi | with_reducible apply Calm.recLimitWrite | with_reducible refine Calm.ite (fun _ => ?_) (fun _ => ?_) | (fail_if_no_progress with_reducible refine Calm.upd_of ?_ rfl rfl rfl rfl rfl rfl rfl rfl rfl rfl rfl)

theorem Calm.timSlackClr (h : Calm p a s) : Calm p a (State.timSlackClr s x1) := by
  unfold State.timSlackClr
  repeat' first | with_reducible assumption | with_reducible refine Calm.ite (fun _ => ?_) (fun _ => ?_) | (fail_if_no_progress with_reducible refine Calm.upd_of ?_ rfl rfl rfl rfl rfl rfl rfl rfl rfl rfl rfl)

theorem Calm.updSched (h : Calm p a s) : Calm p a (State.updSched s x1 x2) := by
  unfold State.updSched
  repeat' first | with_reducible assumption | (fail_if_no_progress with_reducible refine Calm.upd_of ?_ rfl rfl rfl rfl rfl rfl rfl rfl rfl rfl rfl)

theorem Calm.wrBlock (h : Calm p a s) : Calm p a (State.wrBlock s x1) := by
  unfold State.wrBlock
  repeat' first | with_reducible assumption | with_reducible apply Calm.updSched

theorem Calm.chCfgWrite (h : Calm p a s) : Calm p a (State.chCfgWrite s x1 x2) := by
  unfold State.chCfgWrite
  repeat' first | with_reducible assumption | with_reducible apply Calm.updChain | with_reducible apply Calm.wrBlock | with_reducible refine Calm.ite (fun _ => ?_) (fun _ => ?_)

theorem Calm.txMapWrite (h : Calm p a s) : Calm p a (State.txMapWrite s x1 x2) := by
  unfold State.txMapWrite
  repeat' first | with_reducible assumption | with_reducible apply Calm.updTx | with_reducible apply Calm.wrBlock | with_reducible refine Calm.ite (fun _ => ?_) (fun _ => ?_)

theorem Calm.vswrCfgWrite (h : Calm p a s) : Calm p a (State.vswrCfgWrite s x1 x2) := by
  unfold State.vswrCfgWrite
  repeat' first | with_reducible assumption | with_reducible apply Calm.updTx | with_reducible refine Calm.ite (fun _ => ?_) (fun _ => ?_)

theorem Calm.fecbCfgWrite (h : Calm p a s) : Calm p a (State.fecbCfgWrite s x1 x2) := by
  unfold State.fecbCfgWrite
  repeat' first | with_reducible assumption | with_reducible apply Calm.updFecb

theorem Calm.fecbTmplWrite (h : Calm p a s) : Calm p a (State.fecbTmplWrite s x1 x2 x3) := by
  unfold State.fecbTmplWrite
  repeat' first | with_reducible assumption | with_reducible apply Calm.updFecb | with_reducible refine Calm.ite (fun _ => ?_) (fun _ => ?_)

theorem Calm.tddswWrite (h : Calm p a s) : Calm p a (State.tddswWrite s x1) := by
  unfold State.tddswWrite
  repeat' first | with_reducible assumption | with_reducible apply Calm.each | with_reducible apply Calm.wrBlock | with_reducible refine Calm.ite (fun _ => ?_) (fun _ => ?_) | intro _ | (fail_if_no_progress with_reducible refine Calm.upd_of ?_ rfl rfl rfl rfl rfl rfl rfl rfl rfl rfl rfl)

theorem Calm.tddRegWrite (h : Calm p a s) : Calm p a (State.tddRegWrite s x1 x2 x3) := by
  unfold State.tddRegWrite
  repeat' first | with_reducible assumption | with_reducible apply Calm.updSched | with_reducible apply Calm.wrBlock | with_reducible refine Calm.ite (fun _ => ?_) (fun _ => ?_)

theorem Calm.rfeWrite (h : Calm p a s) : Calm p a (State.rfeWrite s x1 x2 x3) := by
  unfold State.rfeWrite
  repeat' first | with_reducible assumption | with_reducible apply Calm.chCfgWrite | with_reducible apply Calm.txMapWrite | with_reducible apply Calm.vswrCfgWrite | with_reducible apply Calm.fecbCfgWrite | with_reducible apply Calm.fecbTmplWrite | with_reducible apply Calm.tddswWrite | with_reducible apply Calm.tddRegWrite | with_reducible refine Calm.ite (fun _ => ?_) (fun _ => ?_)

theorem Calm.updDcb (h : Calm p a s) : Calm p a (State.updDcb s x1 x2) := by
  unfold State.updDcb
  repeat' first | with_reducible assumption | (fail_if_no_progress with_reducible refine Calm.upd_of ?_ rfl rfl rfl rfl rfl rfl rfl rfl rfl rfl rfl)

theorem Calm.dcbCfgWrite (h : Calm p a s) : Calm p a (State.dcbCfgWrite s x1 x2) := by
  unfold State.dcbCfgWrite
  repeat' first | with_reducible assumption | with_reducible apply Calm.updDcb

theorem Calm.cxPolKeep (h : Calm p a s) : Calm p a (State.cxPolKeep s) := by
  unfold State.cxPolKeep
  repeat' first | with_reducible assumption | (fail_if_no_progress with_reducible refine Calm.upd_of ?_ rfl rfl rfl rfl rfl rfl rfl rfl rfl rfl rfl)

theorem Calm.cxPolWrite (hp : p.pol = true) (h : Calm p a s) : Calm p a (s.cxPolWrite x1 x2) :=
  have h := Calm.cxPolKeep h
  ⟨h.now, h.queue, h.straps, fun e => by simp [hp] at e, h.sev, h.auth, h.seq, h.cause, h.stat, h.wrote, h.opens⟩

theorem Calm.jlTimeoutWrite (h : Calm p a s) : Calm p a (State.jlTimeoutWrite s x1) := by
  unfold State.jlTimeoutWrite
  repeat' first | with_reducible assumption | with_reducible refine Calm.ite (fun _ => ?_) (fun _ => ?_) | (fail_if_no_progress with_reducible refine Calm.upd_of ?_ rfl rfl rfl rfl rfl rfl rfl rfl rfl rfl rfl)

theorem Calm.portCfgWrite (h : Calm p a s) : Calm p a (State.portCfgWrite s x1 x2) := by
  unfold State.portCfgWrite
  repeat' first | with_reducible assumption | with_reducible apply Calm.updPort | with_reducible refine Calm.ite (fun _ => ?_) (fun _ => ?_)

theorem Calm.jlWrite (h : Calm p a s) : Calm p a (State.jlWrite s x1 x2) := by
  unfold State.jlWrite
  repeat' first | with_reducible assumption | with_reducible apply Calm.jlTimeoutWrite | with_reducible apply Calm.portCfgWrite | with_reducible apply Calm.agrpWrite | with_reducible refine Calm.ite (fun _ => ?_) (fun _ => ?_)

theorem Calm.tmuxPut (h : Calm p a s) : Calm p a (State.tmuxPut s x1 x2) := by
  unfold State.tmuxPut
  repeat' first | with_reducible assumption | with_reducible refine Calm.ite (fun _ => ?_) (fun _ => ?_) | (fail_if_no_progress with_reducible refine Calm.upd_of ?_ rfl rfl rfl rfl rfl rfl rfl rfl rfl rfl rfl)

theorem Calm.tmuxWrite (h : Calm p a s) : Calm p a (State.tmuxWrite s x1 x2) := by
  unfold State.tmuxWrite
  repeat' first | with_reducible assumption | with_reducible apply Calm.tmuxPut | with_reducible refine Calm.ite (fun _ => ?_) (fun _ => ?_)

theorem Calm.bar0Write (hp_pol : p.pol = true) (hp_sev : p.sev = true) (hp_stat : p.stat = true) (h : Calm p a s) : Calm p a (State.bar0Write s x1 x2) := by
  unfold State.bar0Write
  repeat' first | with_reducible assumption | with_reducible apply Calm.fltRegWrite | with_reducible apply Calm.genVidWrite | with_reducible apply Calm.hifWrite | with_reducible apply Calm.intcWrite | with_reducible apply Calm.policyWrite | with_reducible apply Calm.recWrite | with_reducible apply Calm.timSlackClr | with_reducible apply Calm.rfeWrite | with_reducible apply Calm.dcbCfgWrite | with_reducible apply Calm.cxPolWrite | with_reducible apply Calm.jlWrite | with_reducible apply Calm.tmuxWrite | split

theorem Calm.dbRange (h : Calm p a s) : Calm p a (State.dbRange s) := by
  unfold State.dbRange
  repeat' first | with_reducible assumption | with_reducible apply Calm.raise

theorem Calm.stopRing (h : Calm p a s) : Calm p a (State.stopRing s x1 x2) := by
  unfold State.stopRing
  repeat' first | with_reducible assumption | with_reducible apply Calm.updRing | with_reducible refine Calm.ite (fun _ => ?_) (fun _ => ?_)

theorem Calm.crTail (h : Calm p a s) : Calm p a (State.crTail s x1 x2) := by
  unfold State.crTail
  repeat' first | with_reducible assumption | with_reducible apply Calm.updRing | with_reducible apply Calm.dbRange | with_reducible apply Calm.stopRing | with_reducible refine Calm.ite (fun _ => ?_) (fun _ => ?_) | split

theorem Calm.cqHead (h : Calm p a s) : Calm p a (State.cqHead s x1 x2) := by
  unfold State.cqHead
  repeat' first | with_reducible assumption | with_reducible apply Calm.updRing | with_reducible apply Calm.dbRange | with_reducible refine Calm.ite (fun _ => ?_) (fun _ => ?_) | split

theorem Calm.trHead (h : Calm p a s) : Calm p a (State.trHead s x1 x2) := by
  unfold State.trHead
  repeat' first | with_reducible assumption | with_reducible apply Calm.updTr | with_reducible apply Calm.dbRange | with_reducible refine Calm.ite (fun _ => ?_) (fun _ => ?_) | split

theorem Calm.erHead (h : Calm p a s) : Calm p a (State.erHead s x1) := by
  unfold State.erHead
  repeat' first | with_reducible assumption | with_reducible apply Calm.dbRange | with_reducible refine Calm.ite (fun _ => ?_) (fun _ => ?_) | intro _ | (fail_if_no_progress with_reducible refine Calm.upd_of ?_ rfl rfl rfl rfl rfl rfl rfl rfl rfl rfl rfl) | dsimp only | split

theorem Calm.bar2Write (h : Calm p a s) : Calm p a (State.bar2Write s x1 x2) := by
  unfold State.bar2Write
  repeat' first | with_reducible assumption | with_reducible apply Calm.crTail | with_reducible apply Calm.cqHead | with_reducible apply Calm.trHead | with_reducible apply Calm.erHead | with_reducible refine Calm.ite (fun _ => ?_) (fun _ => ?_) | (fail_if_no_progress with_reducible refine Calm.upd_of ?_ rfl rfl rfl rfl rfl rfl rfl rfl rfl rfl rfl)

theorem Calm.raiseIn (h : Calm p a s) : Calm p a (State.raiseIn s x1 x2 x3 x4) := by
  unfold State.raiseIn
  repeat' first | with_reducible assumption | with_reducible apply Calm.occurIn | with_reducible apply Calm.checkCopies | with_reducible apply Calm.checkPolicy

theorem Calm.bistStage (h : Calm p a s) : Calm p a (State.bistStage s x1) := by
  unfold State.bistStage
  repeat' first | with_reducible assumption | with_reducible apply Calm.stageTo | with_reducible apply Calm.raiseIn | with_reducible apply Calm.foldl | with_reducible refine Calm.ite (fun _ => ?_) (fun _ => ?_) | intro _ | (fail_if_no_progress with_reducible refine Calm.upd_of ?_ rfl rfl rfl rfl rfl rfl rfl rfl rfl rfl rfl) | dsimp only | split

theorem Calm.opensEnd (h : Calm p a s) : Calm p a (State.opensEnd s x1) := by
  unfold State.opensEnd
  repeat' first | with_reducible assumption | with_reducible apply Calm.each | with_reducible apply Calm.openFails | with_reducible refine Calm.ite (fun _ => ?_) (fun _ => ?_) | intro _

theorem Calm.strDown (h : Calm p a s) : Calm p a (State.strDown s x1) := by
  unfold State.strDown
  repeat' first | with_reducible assumption | with_reducible apply Calm.opensEnd | with_reducible apply Calm.each | with_reducible apply Calm.updStrm | intro _

theorem Calm.toHoldover (h : Calm p a s) : Calm p a (State.toHoldover s) := by
  unfold State.toHoldover
  repeat' first | with_reducible assumption | with_reducible apply Calm.raise | with_reducible apply Calm.opensEnd | with_reducible refine Calm.ite (fun _ => ?_) (fun _ => ?_) | (fail_if_no_progress with_reducible refine Calm.upd_of ?_ rfl rfl rfl rfl rfl rfl rfl rfl rfl rfl rfl)

theorem Calm.linkDown (h : Calm p a s) : Calm p a (State.linkDown s x1 x2) := by
  unfold State.linkDown
  repeat' first | with_reducible assumption | with_reducible apply Calm.updPort | with_reducible apply Calm.raise | with_reducible apply Calm.strDown | with_reducible apply Calm.toHoldover | with_reducible refine Calm.ite (fun _ => ?_) (fun _ => ?_)

theorem Calm.blockErrors (h : Calm p a s) : Calm p a (State.blockErrors s x1 x2) := by
  unfold State.blockErrors
  repeat' first | with_reducible assumption | with_reducible apply Calm.linkDown | with_reducible refine Calm.ite (fun _ => ?_) (fun _ => ?_)

theorem Calm.trainStart (h : Calm p a s) : Calm p a (State.trainStart s x1) := by
  unfold State.trainStart
  repeat' first | with_reducible assumption | with_reducible apply Calm.updPort | with_reducible refine Calm.ite (fun _ => ?_) (fun _ => ?_)

theorem Calm.springStop (h : Calm p a s) : Calm p a (State.springStop s) := by
  unfold State.springStop
  repeat' first | with_reducible assumption | (fail_if_no_progress with_reducible refine Calm.upd_of ?_ rfl rfl rfl rfl rfl rfl rfl rfl rfl rfl rfl)

theorem Calm.bootStage (h : Calm p a s) : Calm p a (State.bootStage s x1) := by
  unfold State.bootStage
  repeat' first | with_reducible assumption | with_reducible apply Calm.stageTo | with_reducible apply Calm.each | with_reducible apply Calm.trainStart | with_reducible apply Calm.springStop | with_reducible apply Calm.raise | with_reducible refine Calm.ite (fun _ => ?_) (fun _ => ?_) | intro _ | (fail_if_no_progress with_reducible refine Calm.upd_of ?_ rfl rfl rfl rfl rfl rfl rfl rfl rfl rfl rfl)

theorem Calm.bridgeReopen (h : Calm p a s) : Calm p a (State.bridgeReopen s x1) := by
  unfold State.bridgeReopen
  repeat' first | with_reducible assumption | with_reducible apply Calm.updNet | split

theorem Calm.bsrLoad (h : Calm p a s) : Calm p a (State.bsrLoad s x1) := by
  unfold State.bsrLoad
  repeat' first | with_reducible assumption | (fail_if_no_progress with_reducible refine Calm.upd_of ?_ rfl rfl rfl rfl rfl rfl rfl rfl rfl rfl rfl)

theorem Calm.bufferSlip (h : Calm p a s) : Calm p a (State.bufferSlip s x1 x2) := by
  unfold State.bufferSlip
  repeat' first | with_reducible assumption | with_reducible apply Calm.raise | with_reducible apply Calm.updTile | with_reducible refine Calm.ite (fun _ => ?_) (fun _ => ?_) | (fail_if_no_progress with_reducible refine Calm.upd_of ?_ rfl rfl rfl rfl rfl rfl rfl rfl rfl rfl rfl)

theorem Calm.busMasterOff (h : Calm p a s) : Calm p a (State.busMasterOff s) := by
  unfold State.busMasterOff
  repeat' first | with_reducible assumption | with_reducible apply Calm.each | with_reducible apply Calm.stopRing | with_reducible refine Calm.ite (fun _ => ?_) (fun _ => ?_) | intro _ | (fail_if_no_progress with_reducible refine Calm.upd_of ?_ rfl rfl rfl rfl rfl rfl rfl rfl rfl rfl rfl)

theorem Calm.busMasterOn (h : Calm p a s) : Calm p a (State.busMasterOn s) := by
  unfold State.busMasterOn
  repeat' first | with_reducible assumption | with_reducible apply Calm.each | with_reducible apply Calm.flushHeld | with_reducible refine Calm.ite (fun _ => ?_) (fun _ => ?_) | intro _ | (fail_if_no_progress with_reducible refine Calm.upd_of ?_ rfl rfl rfl rfl rfl rfl rfl rfl rfl rfl rfl)

theorem Calm.calResult (h : Calm p a s) : Calm p a (State.calResult s x1 x2 x3 x4) := by
  unfold State.calResult
  repeat' first | with_reducible assumption | with_reducible apply Calm.updChain | with_reducible apply Calm.raise | with_reducible refine Calm.ite (fun _ => ?_) (fun _ => ?_)

theorem Calm.calEnd (h : Calm p a s) : Calm p a (State.calEnd s x1 x2 x3) := by
  unfold State.calEnd
  repeat' first | with_reducible assumption | exact fun _ => rfl | with_reducible apply Calm.chainSync | with_reducible apply Calm.calResult | with_reducible apply Calm.updPend | with_reducible apply Calm.updChain | with_reducible apply Calm.completeId | with_reducible apply Calm.completeAll | dsimp only | split

theorem Calm.calStart (h : Calm p a s) : Calm p a (State.calStart s x1) := by
  unfold State.calStart
  repeat' first | with_reducible assumption | exact fun _ => rfl | with_reducible apply Calm.chainSync | with_reducible apply Calm.updPend | with_reducible apply Calm.updChain | dsimp only | split

theorem Calm.capCut (h : Calm p a s) : Calm p a (State.capCut s x1) := by
  unfold State.capCut
  repeat' first | with_reducible assumption | with_reducible apply Calm.gainSetCheck | with_reducible apply Calm.updGain | with_reducible refine Calm.ite (fun _ => ?_) (fun _ => ?_)

theorem Calm.capExec (h : Calm p a s) : Calm p a (State.capExec s x1) := by
  unfold State.capExec
  repeat' first | with_reducible assumption | with_reducible apply Calm.updGain | with_reducible apply Calm.raise | with_reducible refine Calm.ite (fun _ => ?_) (fun _ => ?_)

theorem Calm.linkTake {f : State → State} (hf : ∀ b, Calm p a b → Calm p a (f b)) (h : Calm p a s) : Calm p a (s.linkTake x1 f) := by
  unfold State.linkTake
  dsimp only
  split
  · exact h
  · split
    · exact Calm.updPort h
    · exact hf _ (Calm.updPort h)

theorem Calm.discardMsg (h : Calm p a s) : Calm p a (State.discardMsg s x1) := by
  unfold State.discardMsg
  repeat' first | with_reducible assumption | with_reducible apply Calm.updPort

theorem Calm.once {f : State → State} (hf : ∀ b, Calm p a b → Calm p a (f b)) (h : Calm p a s) : Calm p a (s.once x1 f) := by
  unfold State.once
  dsimp only
  split
  · exact hf _ (Calm.of h rfl rfl rfl rfl rfl rfl rfl rfl rfl rfl rfl)
  · split
    · split
      · exact Calm.routeSend h
      · exact h
    · exact Calm.discardMsg h

theorem Calm.takeRouted {f g : State → State} (hf : ∀ b, Calm p a b → Calm p a (f b)) (hg : ∀ b, Calm p a b → Calm p a (g b)) (h : Calm p a s) : Calm p a (s.takeRouted x1 x2 x3 x4 f g) := by
  unfold State.takeRouted
  repeat' first | with_reducible assumption | with_reducible apply Calm.portSend | with_reducible apply Calm.each | with_reducible apply Calm.linkTake | with_reducible apply Calm.once | with_reducible apply Calm.discardMsg | with_reducible apply Calm.routeSend | with_reducible apply hf | with_reducible apply hg | intro _ | dsimp only | split

theorem Calm.respond (h : Calm p a s) : Calm p a (State.respond s x1) := by
  unfold State.respond
  repeat' first | with_reducible assumption | with_reducible apply Calm.routeSend | (fail_if_no_progress with_reducible refine Calm.upd_of ?_ rfl rfl rfl rfl rfl rfl rfl rfl rfl rfl rfl)

theorem Calm.owedCheck (h : Calm p a s) : Calm p a (State.owedCheck s) := by
  unfold State.owedCheck
  repeat' first | with_reducible assumption | with_reducible apply Calm.respond | with_reducible apply Calm.foldl | with_reducible refine Calm.ite (fun _ => ?_) (fun _ => ?_) | intro _ | (fail_if_no_progress with_reducible refine Calm.upd_of ?_ rfl rfl rfl rfl rfl rfl rfl rfl rfl rfl rfl) | dsimp only | split

theorem Calm.owedWithout (h : Calm p a s) : Calm p a (State.owedWithout s x1 x2) := by
  unfold State.owedWithout
  repeat' first | with_reducible assumption | (fail_if_no_progress with_reducible refine Calm.upd_of ?_ rfl rfl rfl rfl rfl rfl rfl rfl rfl rfl rfl)

theorem Calm.capResponse (h : Calm p a s) : Calm p a (State.capResponse s x1 x2) := by
  unfold State.capResponse
  repeat' first | with_reducible assumption | with_reducible apply Calm.takeRouted | with_reducible apply Calm.answered | with_reducible apply Calm.owedCheck | with_reducible apply Calm.owedWithout | with_reducible apply Calm.foldl | with_reducible refine Calm.ite (fun _ => ?_) (fun _ => ?_) | intro _ | (fail_if_no_progress with_reducible refine Calm.upd_of ?_ rfl rfl rfl rfl rfl rfl rfl rfl rfl rfl rfl) | dsimp only | simp only [id_eq] | split

theorem Calm.capStale (h : Calm p a s) : Calm p a (State.capStale s x1) := by
  unfold State.capStale
  repeat' first | with_reducible assumption | with_reducible apply Calm.capAll | with_reducible apply Calm.raise | with_reducible apply Calm.updInst | with_reducible refine Calm.ite (fun _ => ?_) (fun _ => ?_)

theorem Calm.cascadeClear (h : Calm p a s) : Calm p a (State.cascadeClear s) := by
  unfold State.cascadeClear
  repeat' first | with_reducible assumption | with_reducible apply Calm.each | with_reducible apply Calm.clearCause | with_reducible refine Calm.ite (fun _ => ?_) (fun _ => ?_) | intro _

theorem Calm.capTake (h : Calm p a s) : Calm p a (State.capTake s x1 x2 x3 x4) := by
  unfold State.capTake
  repeat' first | with_reducible assumption | with_reducible apply Calm.takeRouted | with_reducible apply Calm.once | with_reducible apply Calm.capAll | with_reducible apply Calm.capExec | with_reducible apply Calm.cascadeClear | with_reducible apply Calm.respond | with_reducible apply Calm.foldl | with_reducible refine Calm.ite (fun _ => ?_) (fun _ => ?_) | intro _ | (fail_if_no_progress with_reducible refine Calm.upd_of ?_ rfl rfl rfl rfl rfl rfl rfl rfl rfl rfl rfl) | dsimp only | simp only [id_eq] | split

theorem Calm.captEnd (h : Calm p a s) : Calm p a (State.captEnd s x1 x2) := by
  unfold State.captEnd
  repeat' first | with_reducible assumption | with_reducible apply Calm.hostWrite | with_reducible apply Calm.captNext | with_reducible apply Calm.complete | with_reducible refine Calm.ite (fun _ => ?_) (fun _ => ?_) | intro _ | (fail_if_no_progress with_reducible refine Calm.upd_of ?_ rfl rfl rfl rfl rfl rfl rfl rfl rfl rfl rfl) | dsimp only | split

theorem Calm.captStart (h : Calm p a s) : Calm p a (State.captStart s) := by
  unfold State.captStart
  repeat' first | with_reducible assumption | exact fun _ => rfl | with_reducible apply Calm.captNext | with_reducible apply Calm.updPend | with_reducible refine Calm.ite (fun _ => ?_) (fun _ => ?_) | intro _ | (fail_if_no_progress with_reducible refine Calm.upd_of ?_ rfl rfl rfl rfl rfl rfl rfl rfl rfl rfl rfl) | dsimp only | split

theorem Calm.causeClear (h : Calm p a s) : Calm p a (State.causeClear s x1 x2) := by
  unfold State.causeClear
  repeat' first | with_reducible assumption | with_reducible apply Calm.clearCause | with_reducible refine Calm.ite (fun _ => ?_) (fun _ => ?_)

theorem Calm.chainHeldStart (h : Calm p a s) : Calm p a (State.chainHeldStart s x1) := by
  unfold State.chainHeldStart
  repeat' first | with_reducible assumption | with_reducible apply Calm.chainSync | with_reducible apply Calm.complete | with_reducible apply Calm.walkBegin | dsimp only | split

theorem Calm.chainProof (h : Calm p a s) : Calm p a (State.chainProof s x1 x2 x3) := by
  unfold State.chainProof
  repeat' first | with_reducible assumption | with_reducible apply Calm.updObj | with_reducible apply Calm.updNet | with_reducible apply Calm.clearCause | with_reducible apply Calm.winterSet | with_reducible apply Calm.raise | with_reducible refine Calm.ite (fun _ => ?_) (fun _ => ?_) | intro _

theorem Calm.chainProofs (h : Calm p a s) : Calm p a (State.chainProofs s x1 x2 x3) := by
  unfold State.chainProofs
  repeat' first | with_reducible assumption | with_reducible apply Calm.each | with_reducible apply Calm.chainProof | intro _

theorem Calm.walkDone (h : Calm p a s) : Calm p a (State.walkDone s x1) := by
  unfold State.walkDone
  repeat' first | with_reducible assumption | with_reducible apply Calm.complete

theorem Calm.walkFail (h : Calm p a s) : Calm p a (State.walkFail s x1 x2) := by
  unfold State.walkFail
  repeat' first | with_reducible assumption | with_reducible apply Calm.completeId | with_reducible apply Calm.updChain | split

theorem Calm.walkStep (h : Calm p a s) : Calm p a (State.walkStep s x1 x2) := by
  unfold State.walkStep
  repeat' first | with_reducible assumption | with_reducible apply Calm.updChain | with_reducible apply Calm.walkDone | with_reducible apply Calm.walkFail | dsimp only | split

theorem Calm.cxChainSync (h : Calm p a s) : Calm p a (State.cxChainSync s x1) := by
  unfold State.cxChainSync
  repeat' first | with_reducible assumption | with_reducible apply Calm.each | with_reducible apply Calm.cxRunSync | intro _

theorem Calm.rxLeft (h : Calm p a s) : Calm p a (State.rxLeft s x1) := by
  unfold State.rxLeft
  repeat' first | with_reducible assumption | with_reducible apply Calm.each | with_reducible apply Calm.updSlot | intro _ | split

theorem Calm.rxEntered (h : Calm p a s) : Calm p a (State.rxEntered s x1) := by
  unfold State.rxEntered
  repeat' first | with_reducible assumption | with_reducible apply Calm.each | with_reducible apply Calm.updSlot | with_reducible refine Calm.ite (fun _ => ?_) (fun _ => ?_) | intro _

theorem Calm.moveChain (h : Calm p a s) : Calm p a (State.moveChain s x1 x2) := by
  unfold State.moveChain
  repeat' first | with_reducible assumption | with_reducible apply Calm.updChain | with_reducible apply Calm.cxChainSync | with_reducible apply Calm.rxLeft | with_reducible apply Calm.rxEntered | with_reducible refine Calm.ite (fun _ => ?_) (fun _ => ?_)

theorem Calm.chainTransitionEnd (h : Calm p a s) : Calm p a (State.chainTransitionEnd s x1) := by
  unfold State.chainTransitionEnd
  repeat' first | with_reducible assumption | with_reducible apply Calm.chainSync | with_reducible apply Calm.walkStep | with_reducible apply Calm.moveChain | with_reducible apply Calm.updChain | dsimp only | split

theorem Calm.complObj (h : Calm p a s) : Calm p a (State.complObj s x1) := by
  unfold State.complObj
  repeat' first | with_reducible assumption | with_reducible apply Calm.raiseI | with_reducible apply Calm.raiseIn | split

theorem Calm.complLost (h : Calm p a s) : Calm p a (State.complLost s x1) := by
  unfold State.complLost
  repeat' first | with_reducible assumption | with_reducible apply Calm.raiseI | with_reducible apply Calm.updGain | with_reducible apply Calm.updInst | with_reducible apply Calm.raiseIn | with_reducible apply Calm.complObj | split

theorem Calm.checkCompl (h : Calm p a s) : Calm p a (State.checkCompl s x1) := by
  unfold State.checkCompl
  repeat' first | with_reducible assumption | with_reducible apply Calm.complLost | with_reducible refine Calm.ite (fun _ => ?_) (fun _ => ?_) | (fail_if_no_progress with_reducible refine Calm.upd_of ?_ rfl rfl rfl rfl rfl rfl rfl rfl rfl rfl rfl)

theorem Calm.lockFailed (h : Calm p a s) : Calm p a (State.lockFailed s x1) := by
  unfold State.lockFailed
  repeat' first | with_reducible assumption | with_reducible apply Calm.updChain

theorem Calm.ckDrop (h : Calm p a s) : Calm p a (State.ckDrop s x1) := by
  unfold State.ckDrop
  repeat' first | with_reducible assumption | with_reducible apply Calm.chainSync | with_reducible apply Calm.moveChain | with_reducible apply Calm.updChain | with_reducible apply Calm.lockFailed | with_reducible apply Calm.walkFail | with_reducible apply Calm.completeAll | with_reducible refine Calm.ite (fun _ => ?_) (fun _ => ?_)

theorem Calm.claim (h : Calm p a s) : Calm p a (State.claim s x1) := by
  unfold State.claim
  repeat' first | with_reducible assumption | with_reducible apply Calm.updVec

theorem Calm.cleanRelease (h : Calm p a s) : Calm p a (State.cleanRelease s x1 x2) := by
  unfold State.cleanRelease
  repeat' first | with_reducible assumption | with_reducible apply Calm.updTask | with_reducible apply Calm.each | with_reducible apply Calm.updObj | with_reducible apply Calm.clearCause | with_reducible refine Calm.ite (fun _ => ?_) (fun _ => ?_) | intro _

theorem Calm.coalesceTimer (h : Calm p a s) : Calm p a (State.coalesceTimer s x1) := by
  unfold State.coalesceTimer
  repeat' first | with_reducible assumption | with_reducible apply Calm.updVec | dsimp only | split

theorem Calm.commitWrite (h : Calm p a s) : Calm p a (s.commitWrite x1 x2 x3) := by
  unfold State.commitWrite
  split
  · exact Calm.updTask h
  · split
    · exact Calm.irqEdge (Calm.record h)
    · dsimp only
      split
      · exact iteInduction (fun _ => Calm.updGain h) (fun _ => h)
      · exact Calm.winterSet h
      · exact Calm.winterSet h
      · exact h

theorem Calm.complSweep (h : Calm p a s) : Calm p a (State.complSweep s x1 x2) := by
  unfold State.complSweep
  repeat' first | with_reducible assumption | with_reducible apply Calm.each | with_reducible apply Calm.checkCompl | intro _

theorem Calm.countRefuse (h : Calm p a s) : Calm p a (State.countRefuse s x1 x2) := by
  unfold State.countRefuse
  repeat' first | with_reducible assumption | with_reducible refine Calm.ite (fun _ => ?_) (fun _ => ?_) | (fail_if_no_progress with_reducible refine Calm.upd_of ?_ rfl rfl rfl rfl rfl rfl rfl rfl rfl rfl rfl)

theorem Calm.cxTest (h : Calm p a s) : Calm p a (State.cxTest s x1 x2) := by
  unfold State.cxTest
  repeat' first | with_reducible assumption | with_reducible apply Calm.updInst | with_reducible refine Calm.ite (fun _ => ?_) (fun _ => ?_)

theorem Calm.cxCycle (h : Calm p a s) : Calm p a (State.cxCycle s x1 x2) := by
  unfold State.cxCycle
  repeat' first | with_reducible assumption | with_reducible apply Calm.cxTest | with_reducible apply Calm.updInst | with_reducible refine Calm.ite (fun _ => ?_) (fun _ => ?_)

theorem Calm.cxFreezeApply (h : Calm p a s) : Calm p a (State.cxFreezeApply s x1) := by
  unfold State.cxFreezeApply
  repeat' first | with_reducible assumption | with_reducible apply Calm.each | with_reducible apply Calm.updInst | intro _ | split

theorem Calm.cxFreezeBoundary (h : Calm p a s) : Calm p a (State.cxFreezeBoundary s) := by
  unfold State.cxFreezeBoundary
  repeat' first | with_reducible assumption | with_reducible apply Calm.complete | with_reducible apply Calm.cxFreezeApply | with_reducible apply Calm.foldl | with_reducible refine Calm.ite (fun _ => ?_) (fun _ => ?_) | intro _

theorem Calm.cxZero (h : Calm p a s) : Calm p a (State.cxZero s x1) := by
  unfold State.cxZero
  repeat' first | with_reducible assumption | with_reducible apply Calm.updInst | with_reducible refine Calm.ite (fun _ => ?_) (fun _ => ?_)

theorem Calm.cxResetBoundary (h : Calm p a s) : Calm p a (State.cxResetBoundary s x1) := by
  unfold State.cxResetBoundary
  repeat' first | with_reducible assumption | with_reducible apply Calm.complete | with_reducible apply Calm.capAll | with_reducible apply Calm.cxReport | with_reducible apply Calm.cxZero | with_reducible apply Calm.foldl | with_reducible refine Calm.ite (fun _ => ?_) (fun _ => ?_) | intro _

theorem Calm.cxRetune (h : Calm p a s) : Calm p a (State.cxRetune s x1) := by
  unfold State.cxRetune
  repeat' first | with_reducible assumption | with_reducible apply Calm.each | with_reducible apply Calm.cxReport | with_reducible apply Calm.cxZero | with_reducible apply Calm.seedDrop | intro _

theorem Calm.cxSearchEnd (h : Calm p a s) : Calm p a (State.cxSearchEnd s x1 x2 x3 x4) := by
  unfold State.cxSearchEnd
  repeat' first | with_reducible assumption | with_reducible apply Calm.updInst | with_reducible apply Calm.raise | with_reducible refine Calm.ite (fun _ => ?_) (fun _ => ?_)

theorem Calm.cxSeedFadeEnd (h : Calm p a s) : Calm p a (State.cxSeedFadeEnd s x1) := by
  unfold State.cxSeedFadeEnd
  repeat' first | with_reducible assumption | with_reducible apply Calm.capAll | with_reducible apply Calm.cxReport | with_reducible apply Calm.seedInstall | split

theorem Calm.seedFade (h : Calm p a s) : Calm p a (State.seedFade s x1 x2) := by
  unfold State.seedFade
  repeat' first | with_reducible assumption | exact fun _ => rfl | with_reducible apply Calm.seedDrop | with_reducible apply Calm.updPend | with_reducible apply Calm.updInst | with_reducible refine Calm.ite (fun _ => ?_) (fun _ => ?_)

theorem Calm.cxSeedLoaded (h : Calm p a s) : Calm p a (State.cxSeedLoaded s x1) := by
  unfold State.cxSeedLoaded
  repeat' first | with_reducible assumption | with_reducible apply Calm.updInst | with_reducible apply Calm.seedFade | split

theorem Calm.cxSeedScreenEnd (h : Calm p a s) : Calm p a (State.cxSeedScreenEnd s x1 x2 x3 x4) := by
  unfold State.cxSeedScreenEnd
  repeat' first | with_reducible assumption | with_reducible apply Calm.seedFade | with_reducible apply Calm.raise | with_reducible apply Calm.seedDrop | with_reducible apply Calm.updInst | split

theorem Calm.cxSeedSync (h : Calm p a s) : Calm p a (State.cxSeedSync s x1) := by
  unfold State.cxSeedSync
  repeat' first | with_reducible assumption | with_reducible apply Calm.updInst | split

theorem Calm.plausible (h : Calm p a s) : Calm p a (State.plausible s x1 x2) := by
  unfold State.plausible
  repeat' first | with_reducible assumption | with_reducible apply Calm.raise | with_reducible apply Calm.updInst | with_reducible refine Calm.ite (fun _ => ?_) (fun _ => ?_)

theorem Calm.publish (h : Calm p a s) : Calm p a (State.publish s x1 x2) := by
  unfold State.publish
  repeat' first | with_reducible assumption | with_reducible apply Calm.plausible | with_reducible apply Calm.updInst | with_reducible apply Calm.raise | with_reducible apply Calm.capAll | with_reducible apply Calm.cxReport | with_reducible refine Calm.ite (fun _ => ?_) (fun _ => ?_)

theorem Calm.cxWindowClose (h : Calm p a s) : Calm p a (State.cxWindowClose s x1 x2) := by
  unfold State.cxWindowClose
  repeat' first | with_reducible assumption | with_reducible apply Calm.updInst | with_reducible apply Calm.publish | with_reducible refine Calm.ite (fun _ => ?_) (fun _ => ?_)

theorem Calm.dcbRange (h : Calm p a s) : Calm p a (State.dcbRange s x1 x2 x3) := by
  unfold State.dcbRange
  repeat' first | with_reducible assumption | with_reducible apply Calm.updDcb | with_reducible apply Calm.raise | with_reducible refine Calm.ite (fun _ => ?_) (fun _ => ?_)

theorem Calm.deadlineMiss (h : Calm p a s) : Calm p a (State.deadlineMiss s x1) := by
  unfold State.deadlineMiss
  repeat' first | with_reducible assumption | with_reducible apply Calm.updTile | with_reducible apply Calm.raise | with_reducible refine Calm.ite (fun _ => ?_) (fun _ => ?_)

theorem Calm.takeLocal {f : State → State} (hf : ∀ b, Calm p a b → Calm p a (f b)) (h : Calm p a s) : Calm p a (s.takeLocal x1 x2 f) := by
  unfold State.takeLocal
  repeat' first | with_reducible assumption | exact hf | with_reducible apply Calm.linkTake | with_reducible apply Calm.once | with_reducible apply Calm.discardMsg | with_reducible apply hf | intro _ | dsimp only | split

theorem Calm.delayReq (h : Calm p a s) : Calm p a (State.delayReq s x1 x2 x3 x4) := by
  unfold State.delayReq
  repeat' first | with_reducible assumption | with_reducible apply Calm.takeLocal | with_reducible apply Calm.portSend | with_reducible apply Calm.updPort | intro _

theorem Calm.delayResp (h : Calm p a s) : Calm p a (State.delayResp s x1 x2 x3 x4 x5) := by
  unfold State.delayResp
  repeat' first | with_reducible assumption | with_reducible apply Calm.takeLocal | with_reducible apply Calm.updPort | intro _

theorem Calm.devStep (h : Calm p a s) : Calm p a (State.devStep s x1 x2) := by
  unfold State.devStep
  repeat' first | with_reducible assumption | with_reducible apply Calm.queueFrame | with_reducible apply Calm.updTx | with_reducible refine Calm.ite (fun _ => ?_) (fun _ => ?_)

theorem Calm.updGroup (h : Calm p a s) : Calm p a (State.updGroup s x1 x2) := by
  unfold State.updGroup
  repeat' first | with_reducible assumption | (fail_if_no_progress with_reducible refine Calm.upd_of ?_ rfl rfl rfl rfl rfl rfl rfl rfl rfl rfl rfl)

theorem Calm.donorLossEval (h : Calm p a s) : Calm p a (State.donorLossEval s x1 x2) := by
  unfold State.donorLossEval
  repeat' first | with_reducible assumption | with_reducible apply Calm.updGroup | with_reducible apply Calm.each | with_reducible apply Calm.clearCause | with_reducible apply Calm.winterSet | with_reducible apply Calm.raise | with_reducible refine Calm.ite (fun _ => ?_) (fun _ => ?_) | intro _

theorem Calm.eSetReg (h : Calm p a s) : Calm p a (State.eSetReg s x1 x2 x3) := by
  unfold State.eSetReg
  repeat' first | with_reducible assumption | with_reducible apply Calm.updEng | with_reducible refine Calm.ite (fun _ => ?_) (fun _ => ?_)

theorem Calm.eSetVec (h : Calm p a s) : Calm p a (State.eSetVec s x1 x2 x3) := by
  unfold State.eSetVec
  repeat' first | with_reducible assumption | with_reducible apply Calm.updEng

theorem Calm.gainMove (h : Calm p a s) : Calm p a (State.gainMove s x1) := by
  unfold State.gainMove
  repeat' first | with_reducible assumption | with_reducible apply Calm.updGain | with_reducible refine Calm.ite (fun _ => ?_) (fun _ => ?_)

theorem Calm.spMove (h : Calm p a s) : Calm p a (State.spMove s x1) := by
  unfold State.spMove
  repeat' first | with_reducible assumption | with_reducible apply Calm.setpointCheck | with_reducible apply Calm.updGain | with_reducible refine Calm.ite (fun _ => ?_) (fun _ => ?_)

theorem Calm.earlyMove (h : Calm p a s) : Calm p a (State.earlyMove s x1) := by
  unfold State.earlyMove
  repeat' first | with_reducible assumption | with_reducible apply Calm.gainSetCheck | with_reducible apply Calm.gainMove | with_reducible apply Calm.spMove | with_reducible refine Calm.ite (fun _ => ?_) (fun _ => ?_)

theorem Calm.endReleases (h : Calm p a s) : Calm p a (State.endReleases s x1 x2) := by
  unfold State.endReleases
  repeat' first | with_reducible assumption | with_reducible apply Calm.complete | with_reducible apply Calm.updObj | with_reducible apply Calm.foldl | intro _

theorem Calm.eventCopy (h : Calm p a s) : Calm p a (State.eventCopy s) := by
  unfold State.eventCopy
  repeat' first | with_reducible assumption | with_reducible apply Calm.raise | with_reducible apply Calm.hostWrite | with_reducible apply Calm.irqEdge | with_reducible refine Calm.ite (fun _ => ?_) (fun _ => ?_) | intro _ | (fail_if_no_progress with_reducible refine Calm.upd_of ?_ rfl rfl rfl rfl rfl rfl rfl rfl rfl rfl rfl) | dsimp only | split

theorem Calm.fadeSync (h : Calm p a s) : Calm p a (State.fadeSync s x1) := by
  unfold State.fadeSync
  repeat' first | with_reducible assumption | with_reducible apply Calm.updSlot | split

theorem Calm.refuse (h : Calm p a s) : Calm p a (State.refuse s x1 x2 x3 x4 x5 x6) := by
  unfold State.refuse
  repeat' first | with_reducible assumption | with_reducible apply Calm.answerNow | with_reducible apply Calm.countRefuse | with_reducible apply Calm.pass

theorem Calm.fenceAccept (hp_take : p.take = true) (h : Calm p a s) : Calm p a (s.fenceAccept x1) := by
  unfold State.fenceAccept
  split
  · exact h
  · split
    · exact h
    · dsimp only
      split
      · exact Calm.refuse (Calm.updRing h)
      · exact Calm.accept hp_take (fun e => by cases e) (Calm.updRing h)

theorem Calm.runDesc (hp_take : p.take = true) (hq : isAuth x2 = true → p.auth = true) (h : Calm p a s) : Calm p a (s.runDesc x1 x2) := by
  unfold State.runDesc
  split
  · exact Calm.refuse h
  · exact Calm.receive hp_take hq h

theorem Calm.takeBytes (hp : p.auth = true) (hp_take : p.take = true) (h : Calm p a s) : Calm p a (s.takeBytes x1 x2 x3) := by
  unfold State.takeBytes
  dsimp only
  split
  · exact Calm.refuse h
  · split
    · exact Calm.refuse h
    · exact Calm.refuse h
  · exact Calm.runDesc hp_take (fun _ => hp) h

theorem Calm.served (h : Calm p a s) : Calm p a (State.served s x1) := by
  unfold State.served
  repeat' first | with_reducible assumption | (fail_if_no_progress with_reducible refine Calm.upd_of ?_ rfl rfl rfl rfl rfl rfl rfl rfl rfl rfl rfl)

theorem Calm.fetch (hp_auth : p.auth = true) (hp_take : p.take = true) (h : Calm p a s) : Calm p a (State.fetch s x1 x2) := by
  unfold State.fetch
  repeat' first | with_reducible assumption | with_reducible apply Calm.takeBytes | with_reducible apply Calm.served | with_reducible apply Calm.updRing | split

theorem Calm.fetchError (h : Calm p a s) : Calm p a (State.fetchError s x1 x2) := by
  unfold State.fetchError
  repeat' first | with_reducible assumption | with_reducible apply Calm.answerNow | with_reducible apply Calm.raise | with_reducible apply Calm.stopRing

theorem Calm.fetchRetry (hp_auth : p.auth = true) (hp_take : p.take = true) (h : Calm p a s) : Calm p a (State.fetchRetry s x1 x2 x3) := by
  unfold State.fetchRetry
  repeat' first | with_reducible assumption | with_reducible apply Calm.updRing | with_reducible apply Calm.takeBytes | with_reducible apply Calm.fetchError | with_reducible refine Calm.ite (fun _ => ?_) (fun _ => ?_) | split

theorem Calm.summary (h : Calm p a s) : Calm p a (s.summary x1) := by
  unfold State.summary
  dsimp only
  split
  · exact h
  · split
    · exact Calm.updBucket (Calm.bufferEnter h)
    · exact Calm.bufferEnter h

theorem Calm.summaries (h : Calm p a s) : Calm p a (State.summaries s) := by
  unfold State.summaries
  repeat' first | with_reducible assumption | with_reducible apply Calm.each | with_reducible apply Calm.summary | intro _

theorem Calm.flushBegin (h : Calm p a s) : Calm p a (State.flushBegin s) := by
  unfold State.flushBegin
  repeat' first | with_reducible assumption | with_reducible apply Calm.summaries | with_reducible refine Calm.ite (fun _ => ?_) (fun _ => ?_) | (fail_if_no_progress with_reducible refine Calm.upd_of ?_ rfl rfl rfl rfl rfl rfl rfl rfl rfl rfl rfl)

theorem Calm.storeFail (h : Calm p a s) : Calm p a (State.storeFail s x1) := by
  unfold State.storeFail
  repeat' first | with_reducible assumption | with_reducible apply Calm.raise | with_reducible refine Calm.ite (fun _ => ?_) (fun _ => ?_) | (fail_if_no_progress with_reducible refine Calm.upd_of ?_ rfl rfl rfl rfl rfl rfl rfl rfl rfl rfl rfl)

theorem Calm.flushEnd (h : Calm p a s) : Calm p a (State.flushEnd s x1) := by
  unfold State.flushEnd
  repeat' first | with_reducible assumption | with_reducible apply Calm.each | with_reducible apply Calm.storeFail | with_reducible apply Calm.raise | with_reducible apply Calm.recFlushCheck | with_reducible refine Calm.ite (fun _ => ?_) (fun _ => ?_) | intro _ | (fail_if_no_progress with_reducible refine Calm.upd_of ?_ rfl rfl rfl rfl rfl rfl rfl rfl rfl rfl rfl) | dsimp only | split

theorem Calm.flushStart (h : Calm p a s) : Calm p a (State.flushStart s) := by
  unfold State.flushStart
  repeat' first | with_reducible assumption | with_reducible apply Calm.flushBegin | with_reducible refine Calm.ite (fun _ => ?_) (fun _ => ?_)

theorem Calm.frameAbsent (h : Calm p a s) : Calm p a (State.frameAbsent s) := by
  unfold State.frameAbsent
  repeat' first | with_reducible assumption | with_reducible apply Calm.raise | with_reducible refine Calm.ite (fun _ => ?_) (fun _ => ?_) | (fail_if_no_progress with_reducible refine Calm.upd_of ?_ rfl rfl rfl rfl rfl rfl rfl rfl rfl rfl rfl)

theorem Calm.frameDrift (h : Calm p a s) : Calm p a (State.frameDrift s) := by
  unfold State.frameDrift
  repeat' first | with_reducible assumption | exact fun _ h => h | exact fun _ _ => rfl | with_reducible apply Calm.record | exact Calm.record_rec | with_reducible apply Calm.raise | with_reducible apply Calm.each | with_reducible apply Calm.updFsrc | with_reducible apply Calm.faultWinter | with_reducible refine Calm.ite (fun _ => ?_) (fun _ => ?_) | intro _

theorem Calm.frameEdge (h : Calm p a s) : Calm p a (State.frameEdge s) := by
  unfold State.frameEdge
  repeat' first | with_reducible assumption | with_reducible apply Calm.irqEdge | with_reducible refine Calm.ite (fun _ => ?_) (fun _ => ?_) | (fail_if_no_progress with_reducible refine Calm.upd_of ?_ rfl rfl rfl rfl rfl rfl rfl rfl rfl rfl rfl)

theorem Calm.frameEnd (h : Calm p a s) : Calm p a (State.frameEnd s x1 x2) := by
  unfold State.frameEnd
  repeat' first | with_reducible assumption | with_reducible apply Calm.updFecb | with_reducible apply Calm.updTx | with_reducible apply Calm.completeId | dsimp only | split

theorem Calm.sideSync (h : Calm p a s) : Calm p a (State.sideSync s x1 x2) := by
  unfold State.sideSync
  repeat' first | with_reducible assumption | with_reducible apply Calm.each | with_reducible apply Calm.fadeSync | with_reducible apply Calm.cxSeedSync | intro _

theorem Calm.schedSync (h : Calm p a s) : Calm p a (State.schedSync s x1) := by
  unfold State.schedSync
  repeat' first | with_reducible assumption | with_reducible apply Calm.sideSync

theorem Calm.frameInEdge (h : Calm p a s) : Calm p a (State.frameInEdge s) := by
  unfold State.frameInEdge
  repeat' first | with_reducible assumption | with_reducible apply Calm.each | with_reducible apply Calm.schedSync | with_reducible apply Calm.updSched | with_reducible apply Calm.frameDrift | with_reducible refine Calm.ite (fun _ => ?_) (fun _ => ?_) | intro _ | (fail_if_no_progress with_reducible refine Calm.upd_of ?_ rfl rfl rfl rfl rfl rfl rfl rfl rfl rfl rfl)

theorem Calm.frameStart (h : Calm p a s) : Calm p a (State.frameStart s x1) := by
  unfold State.frameStart
  repeat' first | with_reducible assumption | exact fun _ => rfl | with_reducible apply Calm.updFecb | with_reducible apply Calm.completeId | with_reducible apply Calm.updPend | with_reducible apply Calm.updTx | with_reducible apply Calm.raise | dsimp only | split

theorem Calm.intcFlr (h : Calm p a s) : Calm p a (State.intcFlr s) := by
  unfold State.intcFlr
  repeat' first | with_reducible assumption | with_reducible apply Calm.each | with_reducible apply Calm.vecComplete | intro _

theorem Calm.hifFaultsReset (hp : p.sev = true) (hp_stat : p.stat = true) (h : Calm p a s) : Calm p a s.hifFaultsReset := by
  unfold State.hifFaultsReset
  have h1 : Calm p a (s.each ((List.range 16).map (fun n => 16 + n)) (fun k a => (a.updFsrc k (fun _ => FSrc.reset)).faultDrop k [])) :=
    Calm.each h (fun i b hb => Calm.faultDrop (Calm.updFsrc_any hp_stat hb))
  generalize s.each _ _ = b at *
  exact Calm.set_flt hp h1 rfl

theorem Calm.functionReset (hp_sev : p.sev = true) (hp_stat : p.stat = true) (h : Calm p a s) : Calm p a s.functionReset := by
  unfold State.functionReset
  have h0 : Calm p a (if s.hif.flrWinter then s.winterSet objDevice 9 0 else s) := Calm.ite (fun _ => Calm.winterSet h) (fun _ => h)
  generalize (if s.hif.flrWinter then s.winterSet objDevice 9 0 else s) = b at *
  refine Calm.raise (Calm.intcFlr (Calm.hifFaultsReset hp_sev hp_stat ?_))
  refine ⟨h0.now, h0.queue, h0.straps, h0.pol, h0.sev, h0.auth, h0.seq, h0.cause, h0.stat, h0.wrote, fun e q hq => ?_⟩
  obtain ⟨q', hq', rfl⟩ := List.mem_map.mp hq
  exact h0.opens e q' (List.mem_of_mem_filter hq')

theorem Calm.fuseEnd (h : Calm p a s) : Calm p a (State.fuseEnd s x1 x2) := by
  unfold State.fuseEnd
  repeat' first | with_reducible assumption | with_reducible apply Calm.stageTo | with_reducible apply Calm.springStop | with_reducible apply Calm.raise | with_reducible refine Calm.ite (fun _ => ?_) (fun _ => ?_) | (fail_if_no_progress with_reducible refine Calm.upd_of ?_ rfl rfl rfl rfl rfl rfl rfl rfl rfl rfl rfl)

theorem Calm.gainRestart (h : Calm p a s) : Calm p a (State.gainRestart s x1 x2) := by
  unfold State.gainRestart
  repeat' first | with_reducible assumption | with_reducible apply Calm.updGain

theorem Calm.gainStart (h : Calm p a s) : Calm p a (State.gainStart s x1) := by
  unfold State.gainStart
  repeat' first | with_reducible assumption | with_reducible apply Calm.updGain

theorem Calm.marginTick (h : Calm p a s) : Calm p a (State.marginTick s x1) := by
  unfold State.marginTick
  repeat' first | with_reducible assumption | with_reducible apply Calm.capSlot | with_reducible apply Calm.updGain | with_reducible apply Calm.raise | dsimp only | split

theorem Calm.tickSlot (h : Calm p a s) : Calm p a (State.tickSlot s x1 x2) := by
  unfold State.tickSlot
  repeat' first | with_reducible assumption | exact fun _ => rfl | with_reducible apply Calm.updGain | with_reducible apply Calm.marginTick | with_reducible apply Calm.updPend | with_reducible apply Calm.lutSwapCheck | with_reducible apply Calm.agcStep | with_reducible apply Calm.gainSetCheck | with_reducible apply Calm.gainMove | with_reducible apply Calm.spMove | with_reducible apply Calm.foldl | with_reducible refine Calm.ite (fun _ => ?_) (fun _ => ?_) | intro _ | (fail_if_no_progress with_reducible refine Calm.upd_of ?_ rfl rfl rfl rfl rfl rfl rfl rfl rfl rfl rfl) | dsimp only | split

theorem Calm.gainTick (h : Calm p a s) : Calm p a (State.gainTick s x1) := by
  unfold State.gainTick
  repeat' first | with_reducible assumption | with_reducible apply Calm.each | with_reducible apply Calm.tickSlot | with_reducible apply Calm.earlyMove | with_reducible refine Calm.ite (fun _ => ?_) (fun _ => ?_) | intro _

theorem Calm.headerLoss (h : Calm p a s) : Calm p a (State.headerLoss s x1) := by
  unfold State.headerLoss
  repeat' first | with_reducible assumption | with_reducible apply Calm.linkDown | with_reducible refine Calm.ite (fun _ => ?_) (fun _ => ?_)

theorem Calm.heartbeat (h : Calm p a s) : Calm p a (State.heartbeat s x1 x2 x3) := by
  unfold State.heartbeat
  repeat' first | with_reducible assumption | with_reducible apply Calm.takeRouted | with_reducible apply Calm.foldl | with_reducible refine Calm.ite (fun _ => ?_) (fun _ => ?_) | intro _ | (fail_if_no_progress with_reducible refine Calm.upd_of ?_ rfl rfl rfl rfl rfl rfl rfl rfl rfl rfl rfl) | dsimp only | simp only [id_eq] | split

theorem Calm.heartbeatLe (h : Calm p a s) : Calm p a (State.heartbeatLe s x1) := by
  unfold State.heartbeatLe
  repeat' first | with_reducible assumption | with_reducible refine Calm.ite (fun _ => ?_) (fun _ => ?_) | (fail_if_no_progress with_reducible refine Calm.upd_of ?_ rfl rfl rfl rfl rfl rfl rfl rfl rfl rfl rfl)

theorem Calm.heartbeatLoss (h : Calm p a s) : Calm p a (State.heartbeatLoss s) := by
  unfold State.heartbeatLoss
  repeat' first | with_reducible assumption | with_reducible apply Calm.toHoldover | with_reducible refine Calm.ite (fun _ => ?_) (fun _ => ?_)

theorem Calm.heartbeatSend (h : Calm p a s) : Calm p a (State.heartbeatSend s) := by
  unfold State.heartbeatSend
  repeat' first | with_reducible assumption | with_reducible apply Calm.each | with_reducible apply Calm.portSend | with_reducible refine Calm.ite (fun _ => ?_) (fun _ => ?_) | intro _ | (fail_if_no_progress with_reducible refine Calm.upd_of ?_ rfl rfl rfl rfl rfl rfl rfl rfl rfl rfl rfl)

theorem Calm.holdoverTimeout (h : Calm p a s) : Calm p a (State.holdoverTimeout s) := by
  unfold State.holdoverTimeout
  repeat' first | with_reducible assumption | with_reducible apply Calm.each | with_reducible apply Calm.winterSet | intro _ | split

theorem Calm.injCompl (hp : p.sev = true) (hq : p.auth = true) (h : Calm p a s) : Calm p a (s.injCompl x1) := by
  unfold State.injCompl
  split
  · exact Calm.of h rfl rfl rfl rfl rfl rfl rfl rfl rfl rfl rfl
  · split
    · exact ⟨h.now, h.queue, h.straps, h.pol, fun e => by simp [hp] at e, h.auth, h.seq, h.cause, h.stat, h.wrote, h.opens⟩
    · split
      · exact h
      · split
        · exact ⟨h.now, h.queue, h.straps, h.pol, h.sev, fun e => by simp [hq] at e, h.seq, h.cause, h.stat, h.wrote, h.opens⟩
        · exact Calm.of h rfl rfl rfl rfl rfl rfl rfl rfl rfl rfl rfl

theorem Calm.injCopy (h : Calm p a s) : Calm p a (State.injCopy s x1) := by
  unfold State.injCopy
  repeat' first | with_reducible assumption | exact fun _ h => h | exact fun _ _ => rfl | with_reducible apply Calm.updFsrc

theorem Calm.injHeartbeat (h : Calm p a s) : Calm p a (State.injHeartbeat s x1) := by
  unfold State.injHeartbeat
  repeat' first | with_reducible assumption | (fail_if_no_progress with_reducible refine Calm.upd_of ?_ rfl rfl rfl rfl rfl rfl rfl rfl rfl rfl rfl)

theorem Calm.oscEntry (h : Calm p a s) : Calm p a (State.oscEntry s x1 x2) := by
  unfold State.oscEntry
  repeat' first | with_reducible assumption | with_reducible apply Calm.winterSet | with_reducible apply Calm.raiseI | with_reducible refine Calm.ite (fun _ => ?_) (fun _ => ?_)

theorem Calm.injRaise (h : Calm p a s) : Calm p a (State.injRaise s x1 x2 x3) := by
  unfold State.injRaise
  repeat' first | with_reducible assumption | with_reducible apply Calm.oscEntry | with_reducible apply Calm.raiseI | with_reducible apply Calm.each | with_reducible apply Calm.winterSet | intro _ | split

theorem Calm.injSev (hp : p.sev = true) (h : Calm p a s) : Calm p a (s.injSev x1) := by
  unfold State.injSev
  dsimp only
  split <;> exact ⟨h.now, h.queue, h.straps, h.pol, fun e => by simp [hp] at e, h.auth, h.seq, h.cause, h.stat, h.wrote, h.opens⟩

theorem Calm.injSymbols (h : Calm p a s) : Calm p a (State.injSymbols s x1 x2) := by
  unfold State.injSymbols
  repeat' first | with_reducible assumption | with_reducible refine Calm.ite (fun _ => ?_) (fun _ => ?_) | (fail_if_no_progress with_reducible refine Calm.upd_of ?_ rfl rfl rfl rfl rfl rfl rfl rfl rfl rfl rfl)

theorem Calm.tapIr (h : Calm p a s) : Calm p a (State.tapIr s x1) := by
  unfold State.tapIr
  repeat' first | with_reducible assumption | (fail_if_no_progress with_reducible refine Calm.upd_of ?_ rfl rfl rfl rfl rfl rfl rfl rfl rfl rfl rfl)

theorem Calm.inject {f : State → State} (hf : ∀ b, Calm p a b → Calm p a (f b)) (h : Calm p a s) : Calm p a (s.inject f) := by
  have h1 : Calm p a (s.tapIr 0x20) := Calm.tapIr h
  unfold State.inject
  exact Calm.ite (fun _ => Calm.raiseI (hf _ h1)) (fun _ => Calm.of h1 rfl rfl rfl rfl rfl rfl rfl rfl rfl rfl rfl)

theorem Calm.intcClaim (h : Calm p a s) : Calm p a (State.intcClaim s) := by
  unfold State.intcClaim
  repeat' first | with_reducible assumption | with_reducible apply Calm.claim | with_reducible refine Calm.ite (fun _ => ?_) (fun _ => ?_) | intro _ | (fail_if_no_progress with_reducible refine Calm.upd_of ?_ rfl rfl rfl rfl rfl rfl rfl rfl rfl rfl rfl) | dsimp only | split

theorem Calm.joinLearn (h : Calm p a s) : Calm p a (State.joinLearn s x1 x2 x3) := by
  unfold State.joinLearn
  repeat' first | with_reducible assumption | with_reducible apply Calm.updPort | with_reducible refine Calm.ite (fun _ => ?_) (fun _ => ?_)

theorem Calm.joinResponse (h : Calm p a s) : Calm p a (State.joinResponse s x1 x2) := by
  unfold State.joinResponse
  repeat' first | with_reducible assumption | with_reducible apply Calm.takeRouted | with_reducible apply Calm.answered | with_reducible apply Calm.raise | with_reducible apply Calm.foldl | with_reducible refine Calm.ite (fun _ => ?_) (fun _ => ?_) | intro _ | (fail_if_no_progress with_reducible refine Calm.upd_of ?_ rfl rfl rfl rfl rfl rfl rfl rfl rfl rfl rfl) | dsimp only | simp only [id_eq] | split

theorem Calm.capsSend (h : Calm p a s) : Calm p a (s.capsSend x1 x2).2 := by
  unfold State.capsSend
  dsimp only
  split
  · exact h
  · split
    · exact Calm.capAll (Calm.foldl (Calm.of h rfl rfl rfl rfl rfl rfl rfl rfl rfl rfl rfl) (fun _ _ hb => Calm.capExec hb))
    · apply Calm.capsFold
      · exact Calm.of h rfl rfl rfl rfl rfl rfl rfl rfl rfl rfl rfl
      · exact fun _ _ hb => Calm.request hb

theorem Calm.capsUpdate (h : Calm p a s) : Calm p a s.capsUpdate.2 := by
  unfold State.capsUpdate
  exact Calm.capsFold h (fun _ _ hb => Calm.capsSend hb)

theorem Calm.requestLost (h : Calm p a s) : Calm p a (s.requestLost x1) := by
  unfold State.requestLost
  dsimp only
  split
  · exact Calm.owedCheck (Calm.capsUpdate (Calm.owedWithout (Calm.of h rfl rfl rfl rfl rfl rfl rfl rfl rfl rfl rfl)))
  · exact Calm.of h rfl rfl rfl rfl rfl rfl rfl rfl rfl rfl rfl

theorem Calm.joinTake (h : Calm p a s) : Calm p a (State.joinTake s x1 x2 x3 x4) := by
  unfold State.joinTake
  repeat' first | with_reducible assumption | with_reducible apply Calm.capsSend | with_reducible apply Calm.takeRouted | with_reducible apply Calm.joinLearn | with_reducible apply Calm.once | with_reducible apply Calm.respond | with_reducible refine Calm.ite (fun _ => ?_) (fun _ => ?_) | intro _ | (fail_if_no_progress with_reducible refine Calm.upd_of ?_ rfl rfl rfl rfl rfl rfl rfl rfl rfl rfl rfl)

theorem Calm.retransmit (h : Calm p a s) : Calm p a (State.retransmit s x1) := by
  unfold State.retransmit
  repeat' first | with_reducible assumption | with_reducible apply Calm.updPort

theorem Calm.linkHeader (h : Calm p a s) : Calm p a (State.linkHeader s x1 x2) := by
  unfold State.linkHeader
  repeat' first | with_reducible assumption | with_reducible apply Calm.updPort | with_reducible apply Calm.retransmit | with_reducible refine Calm.ite (fun _ => ?_) (fun _ => ?_)

theorem Calm.linkUp (h : Calm p a s) : Calm p a (State.linkUp s x1) := by
  unfold State.linkUp
  repeat' first | with_reducible assumption | with_reducible apply Calm.updPort

theorem Calm.memWritten (h : Calm p a s) : Calm p a (State.memWritten s x1) := by
  unfold State.memWritten
  repeat' first | with_reducible assumption | (fail_if_no_progress with_reducible refine Calm.upd_of ?_ rfl rfl rfl rfl rfl rfl rfl rfl rfl rfl rfl)

theorem Calm.loadEnd (h : Calm p a s) : Calm p a (State.loadEnd s) := by
  unfold State.loadEnd
  repeat' first | with_reducible assumption | with_reducible apply Calm.each | with_reducible apply Calm.memWritten | with_reducible apply Calm.updEng | with_reducible apply Calm.complete | with_reducible apply Calm.libPlace | intro _ | split

theorem Calm.upFail (h : Calm p a s) : Calm p a (State.upFail s x1 x2) := by
  unfold State.upFail
  repeat' first | with_reducible assumption | with_reducible apply Calm.walkFail | with_reducible apply Calm.completeAll | split

theorem Calm.lockLostOne (h : Calm p a s) : Calm p a (State.lockLostOne s x1) := by
  unfold State.lockLostOne
  repeat' first | with_reducible assumption | with_reducible apply Calm.chainSync | with_reducible apply Calm.raise | with_reducible apply Calm.moveChain | with_reducible apply Calm.updChain | with_reducible apply Calm.upFail | with_reducible apply Calm.completeAll | with_reducible apply Calm.walkStep | with_reducible refine Calm.ite (fun _ => ?_) (fun _ => ?_)

theorem Calm.lockLost (h : Calm p a s) : Calm p a (State.lockLost s x1) := by
  unfold State.lockLost
  repeat' first | with_reducible assumption | with_reducible apply Calm.chainSync | with_reducible apply Calm.each | with_reducible apply Calm.lockLostOne | with_reducible refine Calm.ite (fun _ => ?_) (fun _ => ?_) | intro _

theorem Calm.lockOne (h : Calm p a s) : Calm p a (State.lockOne s x1) := by
  unfold State.lockOne
  repeat' first | with_reducible assumption | with_reducible apply Calm.updChain | with_reducible apply Calm.walkStep | dsimp only | split

theorem Calm.lockReached (h : Calm p a s) : Calm p a (State.lockReached s x1) := by
  unfold State.lockReached
  repeat' first | with_reducible assumption | with_reducible apply Calm.chainSync | with_reducible apply Calm.each | with_reducible apply Calm.lockOne | with_reducible apply Calm.completeAll | with_reducible apply Calm.walkStep | with_reducible refine Calm.ite (fun _ => ?_) (fun _ => ?_) | intro _

theorem Calm.lockTimeout (h : Calm p a s) : Calm p a (State.lockTimeout s x1) := by
  unfold State.lockTimeout
  repeat' first | with_reducible assumption | with_reducible apply Calm.chainSync | with_reducible apply Calm.raise | with_reducible apply Calm.lockFailed | with_reducible apply Calm.upFail | with_reducible apply Calm.completeAll | with_reducible refine Calm.ite (fun _ => ?_) (fun _ => ?_)

theorem Calm.lutLoadEnd (h : Calm p a s) : Calm p a (State.lutLoadEnd s x1) := by
  unfold State.lutLoadEnd
  repeat' first | with_reducible assumption | with_reducible apply Calm.complete | with_reducible apply Calm.memWritten | with_reducible apply Calm.updLut | split

theorem Calm.masterLost (h : Calm p a s) : Calm p a (State.masterLost s) := by
  unfold State.masterLost
  repeat' first | with_reducible assumption | with_reducible apply Calm.raise | with_reducible refine Calm.ite (fun _ => ?_) (fun _ => ?_)

theorem Calm.takeTrapI (h : Calm p a s) : Calm p a (State.takeTrapI s x1 x2 x3 x4) := by
  unfold State.takeTrapI
  repeat' first | with_reducible assumption | with_reducible apply Calm.updEng | with_reducible apply Calm.updTask | with_reducible apply Calm.raiseI | with_reducible refine Calm.ite (fun _ => ?_) (fun _ => ?_)

theorem Calm.memTrap (h : Calm p a s) : Calm p a (State.memTrap s x1) := by
  unfold State.memTrap
  repeat' first | with_reducible assumption | with_reducible apply Calm.each | with_reducible apply Calm.raiseI | with_reducible apply Calm.takeTrapI | intro _

theorem Calm.mount (hp : p.seq = true) (h : Calm p a s) : Calm p a s.mount := by
  unfold State.mount
  have : ∀ q r, r.nextSeq = q → Calm p a { s with recd := r } := fun q r _ => ⟨h.now, h.queue, h.straps, h.pol, h.sev, h.auth, fun e => by simp [hp] at e, h.cause, h.stat, h.wrote, h.opens⟩
  dsimp only
  split
  · exact Calm.raise (Calm.record (this _ _ rfl))
  · exact Calm.record (this _ _ rfl)

theorem Calm.mountStage (hp_auth : p.auth = true) (hp_seq : p.seq = true) (h : Calm p a s) : Calm p a (State.mountStage s x1) := by
  unfold State.mountStage
  repeat' first | with_reducible assumption | with_reducible apply Calm.stageTo | with_reducible apply Calm.authRestore | with_reducible apply Calm.mount | with_reducible refine Calm.ite (fun _ => ?_) (fun _ => ?_)

theorem Calm.mpAnswer (h : Calm p a s) : Calm p a (State.mpAnswer s x1 x2) := by
  unfold State.mpAnswer
  repeat' first | with_reducible assumption | (fail_if_no_progress with_reducible refine Calm.upd_of ?_ rfl rfl rfl rfl rfl rfl rfl rfl rfl rfl rfl)

theorem Calm.mpFrame {f : State → State} (hf : Calm p a (f s)) (h : Calm p a s) : Calm p a (s.mpFrame x1 x2 x3 f) := by
  unfold State.mpFrame
  split
  · exact h
  · split
    · exact Calm.mpAnswer (Calm.raise (Calm.of h rfl rfl rfl rfl rfl rfl rfl rfl rfl rfl rfl))
    · exact hf

theorem Calm.mpBad (h : Calm p a s) : Calm p a (State.mpBad s x1 x2 x3) := by
  unfold State.mpBad
  repeat' first | with_reducible assumption | with_reducible apply Calm.mpFrame | with_reducible apply Calm.mpAnswer

theorem Calm.mpForce (h : Calm p a s) : Calm p a (State.mpForce s x1 x2) := by
  unfold State.mpForce
  repeat' first | with_reducible assumption | with_reducible apply Calm.mpFrame | with_reducible apply Calm.mpAnswer | with_reducible apply Calm.irqEdge | with_reducible apply Calm.winterSet | with_reducible refine Calm.ite (fun _ => ?_) (fun _ => ?_) | (fail_if_no_progress with_reducible refine Calm.upd_of ?_ rfl rfl rfl rfl rfl rfl rfl rfl rfl rfl rfl)

theorem Calm.mpIdent (h : Calm p a s) : Calm p a (State.mpIdent s x1) := by
  unfold State.mpIdent
  repeat' first | with_reducible assumption | with_reducible apply Calm.mpFrame | with_reducible apply Calm.mpAnswer

theorem Calm.readReg (h : Calm p a s) : Calm p a (s.readReg x1 x2).2 := by
  unfold State.readReg
  repeat' first | with_reducible assumption | (fail_if_no_progress with_reducible refine Calm.upd_of ?_ rfl rfl rfl rfl rfl rfl rfl rfl rfl rfl rfl) | dsimp only | split

theorem Calm.portRead (h : Calm p a s) : Calm p a (s.portRead x1 x2) := by
  have := Calm.readReg (x1 := x1) (x2 := x2) h
  exact Calm.of this rfl rfl rfl rfl rfl rfl rfl rfl rfl rfl rfl

theorem Calm.mpRead32 (h : Calm p a s) : Calm p a (State.mpRead32 s x1 x2) := by
  unfold State.mpRead32
  repeat' first | with_reducible assumption | with_reducible apply Calm.mpFrame | with_reducible apply Calm.mpAnswer | with_reducible apply Calm.portRead | with_reducible refine Calm.ite (fun _ => ?_) (fun _ => ?_)

theorem Calm.mpRecCursor (h : Calm p a s) : Calm p a (State.mpRecCursor s x1 x2) := by
  unfold State.mpRecCursor
  repeat' first | with_reducible assumption | with_reducible apply Calm.mpFrame | with_reducible apply Calm.mpAnswer | (fail_if_no_progress with_reducible refine Calm.upd_of ?_ rfl rfl rfl rfl rfl rfl rfl rfl rfl rfl rfl)

theorem Calm.mpRecRead (h : Calm p a s) : Calm p a (State.mpRecRead s x1 x2) := by
  unfold State.mpRecRead
  repeat' first | with_reducible assumption | with_reducible apply Calm.mpFrame | with_reducible apply Calm.mpAnswer | with_reducible refine Calm.ite (fun _ => ?_) (fun _ => ?_)

theorem Calm.mpWithdraw (h : Calm p a s) : Calm p a (State.mpWithdraw s x1 x2) := by
  unfold State.mpWithdraw
  repeat' first | with_reducible assumption | with_reducible apply Calm.mpFrame | with_reducible apply Calm.mpAnswer | with_reducible apply Calm.irqEdge | with_reducible apply Calm.clearCause | with_reducible refine Calm.ite (fun _ => ?_) (fun _ => ?_) | (fail_if_no_progress with_reducible refine Calm.upd_of ?_ rfl rfl rfl rfl rfl rfl rfl rfl rfl rfl rfl)

theorem Calm.msgRetransmit (h : Calm p a s) : Calm p a (State.msgRetransmit s x1) := by
  unfold State.msgRetransmit
  repeat' first | with_reducible assumption | with_reducible apply Calm.retransmit | split

theorem Calm.netReadback (h : Calm p a s) : Calm p a (State.netReadback s x1 x2) := by
  unfold State.netReadback
  repeat' first | with_reducible assumption | with_reducible apply Calm.each | with_reducible apply Calm.winterSet | with_reducible apply Calm.raise | with_reducible refine Calm.ite (fun _ => ?_) (fun _ => ?_) | intro _ | (fail_if_no_progress with_reducible refine Calm.upd_of ?_ rfl rfl rfl rfl rfl rfl rfl rfl rfl rfl rfl)

theorem Calm.updRxDet (h : Calm p a s) : Calm p a (State.updRxDet s x1 x2) := by
  unfold State.updRxDet
  repeat' first | with_reducible assumption | (fail_if_no_progress with_reducible refine Calm.upd_of ?_ rfl rfl rfl rfl rfl rfl rfl rfl rfl rfl rfl)

theorem Calm.nriseStep (h : Calm p a s) : Calm p a (State.nriseStep s x1) := by
  unfold State.nriseStep
  repeat' first | with_reducible assumption | with_reducible apply Calm.updRxDet | with_reducible apply Calm.each | with_reducible apply Calm.updGain | with_reducible apply Calm.capAll | with_reducible apply Calm.raise | with_reducible apply Calm.winterSet | with_reducible refine Calm.ite (fun _ => ?_) (fun _ => ?_) | intro _

theorem Calm.nriseEval (h : Calm p a s) : Calm p a (State.nriseEval s x1 x2) := by
  unfold State.nriseEval
  repeat' first | with_reducible assumption | with_reducible apply Calm.updRxDet | with_reducible apply Calm.capAll | with_reducible apply Calm.each | with_reducible apply Calm.clearCause | with_reducible apply Calm.updGain | with_reducible apply Calm.nriseStep | with_reducible refine Calm.ite (fun _ => ?_) (fun _ => ?_) | intro _ | dsimp only | split

theorem Calm.oobeWindow (h : Calm p a s) : Calm p a (State.oobeWindow s x1 x2) := by
  unfold State.oobeWindow
  repeat' first | with_reducible assumption | with_reducible apply Calm.updNet | with_reducible apply Calm.devStep | with_reducible apply Calm.raise | with_reducible apply Calm.winterSet | dsimp only | split

theorem Calm.oscSlot (h : Calm p a s) : Calm p a (State.oscSlot s x1 x2) := by
  unfold State.oscSlot
  repeat' first | with_reducible assumption | with_reducible apply Calm.updObj | with_reducible apply Calm.oscEntry | intro _

theorem Calm.oscWindow (h : Calm p a s) : Calm p a (State.oscWindow s x1 x2) := by
  unfold State.oscWindow
  repeat' first | with_reducible assumption | with_reducible apply Calm.updRxDet | with_reducible apply Calm.each | with_reducible apply Calm.oscSlot | with_reducible refine Calm.ite (fun _ => ?_) (fun _ => ?_) | intro _

theorem Calm.raiseOvr (h : Calm p a s) : Calm p a (s.raiseOvr x1 x2) := by
  unfold State.raiseOvr
  dsimp only
  have h1 : Calm p a (s.checkPolicy.checkCopies 14) := Calm.checkCopies (Calm.checkPolicy h)
  generalize s.checkPolicy.checkCopies 14 = s1 at *
  generalize hf : Flt.mk _ _ _ _ _ _ _ _ _ _ _ _ _ _ _ _ _ _ _ _ _ _ _ = f
  generalize hb : State.occurWith State.record { s1 with flt := f } (16 * 14 + 3) (FScope.task x1 x2) false = t
  exact Calm.around (f := f) h1 (hb ▸ Calm.occurWith Calm.record_rec (Calm.refl _ _)) (by rw [← hf]) rfl rfl

theorem Calm.overrun (h : Calm p a s) : Calm p a (State.overrun s x1 x2) := by
  unfold State.overrun
  repeat' first | with_reducible assumption | with_reducible apply Calm.updEng | with_reducible apply Calm.updTask | with_reducible apply Calm.raise | with_reducible apply Calm.each | with_reducible apply Calm.updObj | with_reducible apply Calm.winterSet | with_reducible apply Calm.raiseOvr | with_reducible refine Calm.ite (fun _ => ?_) (fun _ => ?_) | intro _

theorem Calm.owe (h : Calm p a s) : Calm p a (State.owe s x1 x2) := by
  unfold State.owe
  repeat' first | with_reducible assumption | with_reducible apply Calm.owedCheck | (fail_if_no_progress with_reducible refine Calm.upd_of ?_ rfl rfl rfl rfl rfl rfl rfl rfl rfl rfl rfl)

theorem Calm.periodicFlush (h : Calm p a s) : Calm p a (State.periodicFlush s) := by
  unfold State.periodicFlush
  repeat' first | with_reducible assumption | with_reducible apply Calm.flushStart | with_reducible apply Calm.askFlush | with_reducible refine Calm.ite (fun _ => ?_) (fun _ => ?_)

theorem Calm.perstRise (h : Calm p a s) : Calm p a (State.perstRise s) := by
  unfold State.perstRise
  repeat' first | with_reducible assumption | (fail_if_no_progress with_reducible refine Calm.upd_of ?_ rfl rfl rfl rfl rfl rfl rfl rfl rfl rfl rfl)

theorem Calm.pfailFall (h : Calm p a s) : Calm p a s.pfailFall := by
  unfold State.pfailFall
  dsimp only
  split
  · exact Calm.of (Calm.irqEdge h) rfl rfl rfl rfl rfl rfl rfl rfl rfl rfl rfl
  · exact Calm.askFlush (Calm.of (Calm.summaries (Calm.bufferEnter (Calm.irqEdge h))) rfl rfl rfl rfl rfl rfl rfl rfl rfl rfl rfl)

theorem Calm.pfailReturn (h : Calm p a s) : Calm p a s.pfailReturn := by
  unfold State.pfailReturn
  split
  · exact Calm.record (Calm.of h rfl rfl rfl rfl rfl rfl rfl rfl rfl rfl rfl)
  · exact h

theorem Calm.powerApply (h : Calm p a s) : Calm p a (State.powerApply s x1) := by
  unfold State.powerApply
  repeat' first | with_reducible assumption | exact fun _ => rfl | with_reducible apply Calm.applyPower | with_reducible apply Calm.updTx | with_reducible apply Calm.completeId | with_reducible apply Calm.updPend | dsimp only | split

theorem Calm.tileProofs (h : Calm p a s) : Calm p a (State.tileProofs s x1 x2 x3) := by
  unfold State.tileProofs
  repeat' first | with_reducible assumption | with_reducible apply Calm.each | with_reducible apply Calm.updObj | with_reducible apply Calm.chainProofs | intro _

theorem Calm.proofStage (h : Calm p a s) : Calm p a (State.proofStage s x1 x2) := by
  unfold State.proofStage
  repeat' first | with_reducible assumption | with_reducible apply Calm.updObj | with_reducible apply Calm.tileProofs | with_reducible refine Calm.ite (fun _ => ?_) (fun _ => ?_) | intro _ | (fail_if_no_progress with_reducible refine Calm.upd_of ?_ rfl rfl rfl rfl rfl rfl rfl rfl rfl rfl rfl)

theorem Calm.resetBlocks (h : Calm Tol.all a s) : Calm Tol.all a s.resetBlocks := Calm.loose h rfl rfl rfl

theorem Calm.resetFall (h : Calm Tol.all a s) : Calm Tol.all a s.resetFall := Calm.loose h rfl rfl rfl

theorem Calm.railDown (h : Calm Tol.all a s) : Calm Tol.all a (State.railDown s) := by
  unfold State.railDown
  repeat' first | with_reducible assumption | with_reducible apply Calm.resetFall | with_reducible refine Calm.ite (fun _ => ?_) (fun _ => ?_) | (fail_if_no_progress with_reducible refine Calm.upd_of ?_ rfl rfl rfl rfl rfl rfl rfl rfl rfl rfl rfl)

theorem Calm.springStart (h : Calm Tol.all a s) : Calm Tol.all a (State.springStart s) := by
  unfold State.springStart
  repeat' first | with_reducible assumption | with_reducible apply Calm.resetBlocks | with_reducible apply Calm.updObj | with_reducible refine Calm.ite (fun _ => ?_) (fun _ => ?_) | intro _ | (fail_if_no_progress with_reducible refine Calm.upd_of ?_ rfl rfl rfl rfl rfl rfl rfl rfl rfl rfl rfl)

theorem Calm.railUp (h : Calm Tol.all a s) : Calm Tol.all a (State.railUp s) := by
  unfold State.railUp
  repeat' first | with_reducible assumption | with_reducible apply Calm.springStart | with_reducible refine Calm.ite (fun _ => ?_) (fun _ => ?_)

theorem Calm.rcClear (h : Calm p a s) : Calm p a (State.rcClear s x1) := by
  unfold State.rcClear
  repeat' first | with_reducible assumption | with_reducible apply Calm.updTr | with_reducible apply Calm.updVec | with_reducible apply Calm.updTile | with_reducible apply Calm.updSched | with_reducible apply Calm.updTx | with_reducible apply Calm.updSlot | with_reducible apply Calm.updInst | with_reducible apply Calm.updGain | with_reducible apply Calm.updRxDet | with_reducible apply Calm.updTask | with_reducible apply Calm.updPort | with_reducible apply Calm.updStrm | with_reducible refine Calm.ite (fun _ => ?_) (fun _ => ?_) | intro _ | (fail_if_no_progress with_reducible refine Calm.upd_of ?_ rfl rfl rfl rfl rfl rfl rfl rfl rfl rfl rfl) | dsimp only | split

theorem Calm.unsupported (h : Calm p a s) : Calm p a (State.unsupported s) := by
  unfold State.unsupported
  repeat' first | with_reducible assumption | (fail_if_no_progress with_reducible refine Calm.upd_of ?_ rfl rfl rfl rfl rfl rfl rfl rfl rfl rfl rfl)

theorem Calm.readClear (h : Calm p a s) : Calm p a (State.readClear s x1) := by
  unfold State.readClear
  repeat' first | with_reducible assumption | with_reducible apply Calm.intcClaim | with_reducible apply Calm.rcClear | with_reducible apply Calm.portRead | with_reducible apply Calm.unsupported | with_reducible refine Calm.ite (fun _ => ?_) (fun _ => ?_)

theorem Calm.recEntryLost (h : Calm p a s) : Calm p a (State.recEntryLost s x1) := by
  unfold State.recEntryLost
  repeat' first | with_reducible assumption | with_reducible refine Calm.ite (fun _ => ?_) (fun _ => ?_) | intro _ | (fail_if_no_progress with_reducible refine Calm.upd_of ?_ rfl rfl rfl rfl rfl rfl rfl rfl rfl rfl rfl) | dsimp only | split

theorem Calm.referenceLoss (h : Calm p a s) : Calm p a (State.referenceLoss s x1 x2) := by
  unfold State.referenceLoss
  repeat' first | with_reducible assumption | with_reducible apply Calm.each | with_reducible apply Calm.raise | with_reducible apply Calm.ckDrop | with_reducible refine Calm.ite (fun _ => ?_) (fun _ => ?_) | intro _ | (fail_if_no_progress with_reducible refine Calm.upd_of ?_ rfl rfl rfl rfl rfl rfl rfl rfl rfl rfl rfl)

theorem Calm.referenceReturn (h : Calm p a s) : Calm p a (State.referenceReturn s x1) := by
  unfold State.referenceReturn
  repeat' first | with_reducible assumption | with_reducible apply Calm.each | with_reducible apply Calm.updTile | with_reducible refine Calm.ite (fun _ => ?_) (fun _ => ?_) | intro _ | (fail_if_no_progress with_reducible refine Calm.upd_of ?_ rfl rfl rfl rfl rfl rfl rfl rfl rfl rfl rfl)

theorem Calm.regWrite (hp_pol : p.pol = true) (hp_sev : p.sev = true) (hp_stat : p.stat = true) (h : Calm p a s) : Calm p a (State.regWrite s x1 x2 x3) := by
  unfold State.regWrite
  repeat' first | with_reducible assumption | with_reducible apply Calm.bar0Write | with_reducible apply Calm.unsupported | with_reducible apply Calm.bar2Write | with_reducible apply Calm.busMasterOn | with_reducible apply Calm.busMasterOff | with_reducible refine Calm.ite (fun _ => ?_) (fun _ => ?_) | intro _ | (fail_if_no_progress with_reducible refine Calm.upd_of ?_ rfl rfl rfl rfl rfl rfl rfl rfl rfl rfl rfl) | dsimp only | split

theorem Calm.reissue (h : Calm p a s) : Calm p a (State.reissue s x1) := by
  unfold State.reissue
  repeat' first | with_reducible assumption | with_reducible apply Calm.routeSend | with_reducible apply Calm.reqRelease | with_reducible apply Calm.requestLost | with_reducible refine Calm.ite (fun _ => ?_) (fun _ => ?_) | intro _ | (fail_if_no_progress with_reducible refine Calm.upd_of ?_ rfl rfl rfl rfl rfl rfl rfl rfl rfl rfl rfl) | dsimp only | split

theorem Calm.txLeaves (h : Calm p a s) : Calm p a (State.txLeaves s x1) := by
  unfold State.txLeaves
  repeat' first | with_reducible assumption | with_reducible apply Calm.irqEdge | with_reducible apply Calm.updNet

theorem Calm.slotLeaves (h : Calm p a s) : Calm p a (State.slotLeaves s x1 x2) := by
  unfold State.slotLeaves
  repeat' first | with_reducible assumption | with_reducible apply Calm.gainRestart | with_reducible apply Calm.updGain

theorem Calm.releaseObj (hp : p.cause = true) (h : Calm p a s) : Calm p a (s.releaseObj x1 x2) := by
  have h0 : ∀ f, Calm p a (s.updObj x1 f) := fun f => ⟨h.now, h.queue, h.straps, h.pol, h.sev, h.auth, h.seq, fun e => by simp [hp] at e, h.stat, h.wrote, h.opens⟩
  unfold State.releaseObj
  dsimp only
  repeat' first | with_reducible apply h0 | with_reducible assumption | with_reducible apply Calm.record | with_reducible apply Calm.each | with_reducible apply Calm.txLeaves | with_reducible apply Calm.slotLeaves | with_reducible apply Calm.updGain | with_reducible apply Calm.updNet | with_reducible apply Calm.devStep | with_reducible refine Calm.ite (fun _ => ?_) (fun _ => ?_) | intro _

theorem Calm.releaseCommit (hp_cause : p.cause = true) (h : Calm p a s) : Calm p a (State.releaseCommit s x1) := by
  unfold State.releaseCommit
  repeat' first | with_reducible assumption | with_reducible apply Calm.endReleases | with_reducible apply Calm.releaseObj | with_reducible refine Calm.ite (fun _ => ?_) (fun _ => ?_) | split

theorem Calm.releasePoint (h : Calm p a s) : Calm p a (State.releasePoint s) := by
  unfold State.releasePoint
  repeat' first | with_reducible assumption | with_reducible apply Calm.clearCause | with_reducible refine Calm.ite (fun _ => ?_) (fun _ => ?_) | (fail_if_no_progress with_reducible refine Calm.upd_of ?_ rfl rfl rfl rfl rfl rfl rfl rfl rfl rfl rfl)

theorem Calm.releaseProof (h : Calm p a s) : Calm p a (State.releaseProof s x1 x2 x3) := by
  unfold State.releaseProof
  repeat' first | with_reducible assumption | with_reducible apply Calm.updObj | with_reducible apply Calm.chainProofs | with_reducible apply Calm.tileProofs | with_reducible apply Calm.winterSet | with_reducible apply Calm.raise | with_reducible apply Calm.endReleases | with_reducible refine Calm.ite (fun _ => ?_) (fun _ => ?_) | intro _ | dsimp only | split

theorem Calm.report (h : Calm p a s) : Calm p a (State.report s x1 x2 x3 x4) := by
  unfold State.report
  repeat' first | with_reducible assumption | with_reducible apply Calm.capsUpdate | with_reducible apply Calm.takeRouted | with_reducible apply Calm.once | with_reducible apply Calm.owe | with_reducible apply Calm.foldl | with_reducible refine Calm.ite (fun _ => ?_) (fun _ => ?_) | intro _ | (fail_if_no_progress with_reducible refine Calm.upd_of ?_ rfl rfl rfl rfl rfl rfl rfl rfl rfl rfl rfl) | dsimp only | simp only [id_eq] | split

theorem Calm.reportResponse (h : Calm p a s) : Calm p a (State.reportResponse s x1) := by
  unfold State.reportResponse
  repeat' first | with_reducible assumption | with_reducible apply Calm.takeRouted | with_reducible apply Calm.answered | with_reducible apply Calm.foldl | with_reducible refine Calm.ite (fun _ => ?_) (fun _ => ?_) | intro _ | (fail_if_no_progress with_reducible refine Calm.upd_of ?_ rfl rfl rfl rfl rfl rfl rfl rfl rfl rfl rfl) | dsimp only | simp only [id_eq] | split

theorem Calm.reportSend (h : Calm p a s) : Calm p a (s.reportSend x1) := by
  unfold State.reportSend
  with_reducible refine Calm.ite (fun _ => h) (fun _ => Calm.ite (fun _ => Calm.owe (Calm.capsUpdate ?_)) (fun _ => Calm.upd_of (Calm.capsFold ?_ (fun _ _ hb => Calm.request hb)) rfl rfl rfl rfl rfl rfl rfl rfl rfl rfl rfl))
  all_goals (with_reducible refine Calm.upd_of h rfl rfl rfl rfl rfl rfl rfl rfl rfl rfl rfl)

theorem Calm.resetRise (h : Calm Tol.all a s) : Calm Tol.all a (State.resetRise s) := by
  unfold State.resetRise
  repeat' first | with_reducible assumption | with_reducible apply Calm.springStart | with_reducible refine Calm.ite (fun _ => ?_) (fun _ => ?_)

theorem Calm.restoreImage (h : Calm p a s) : Calm p a s.restoreImage := by
  unfold State.restoreImage
  refine Calm.record ⟨h.now, h.queue, h.straps, h.pol, h.sev, h.auth, fun e => ?_, h.cause, h.stat, h.wrote, h.opens⟩
  have := h.seq e
  dsimp only
  omega

theorem Calm.retryExhausted (h : Calm p a s) : Calm p a (State.retryExhausted s x1) := by
  unfold State.retryExhausted
  repeat' first | with_reducible assumption | with_reducible apply Calm.linkDown | split

theorem Calm.satChain (h : Calm p a s) : Calm p a (State.satChain s x1) := by
  unfold State.satChain
  repeat' first | with_reducible assumption | with_reducible apply Calm.raise | with_reducible apply Calm.updTx

theorem Calm.satSlot (h : Calm p a s) : Calm p a (State.satSlot s x1) := by
  unfold State.satSlot
  repeat' first | with_reducible assumption | with_reducible apply Calm.raise | with_reducible apply Calm.updSlot

theorem Calm.scanSelect (h : Calm p a s) : Calm p a (State.scanSelect s x1) := by
  unfold State.scanSelect
  repeat' first | with_reducible assumption | with_reducible apply Calm.tapIr | with_reducible apply Calm.winterSet | with_reducible refine Calm.ite (fun _ => ?_) (fun _ => ?_) | (fail_if_no_progress with_reducible refine Calm.upd_of ?_ rfl rfl rfl rfl rfl rfl rfl rfl rfl rfl rfl)

theorem Calm.symLost (h : Calm p a s) : Calm p a (State.symLost s x1) := by
  unfold State.symLost
  repeat' first | with_reducible assumption | with_reducible apply Calm.complete | with_reducible apply Calm.recEntryLost | with_reducible apply Calm.each | with_reducible apply Calm.takeTrapI | intro _ | split

theorem Calm.symFound (h : Calm p a s) : Calm p a (State.symFound s x1 x2) := by
  unfold State.symFound
  repeat' first | with_reducible assumption | with_reducible apply Calm.raiseIn | with_reducible apply Calm.symLost | with_reducible refine Calm.ite (fun _ => ?_) (fun _ => ?_) | intro _ | (fail_if_no_progress with_reducible refine Calm.upd_of ?_ rfl rfl rfl rfl rfl rfl rfl rfl rfl rfl rfl) | dsimp only | split

theorem Calm.scrubCheck (h : Calm p a s) : Calm p a (State.scrubCheck s x1) := by
  unfold State.scrubCheck
  repeat' first | with_reducible assumption | with_reducible apply Calm.symFound | with_reducible apply Calm.checkCopies | with_reducible apply Calm.checkCompl | with_reducible apply Calm.checkPolicy | split

theorem Calm.scrubPass (h : Calm p a s) : Calm p a (State.scrubPass s x1) := by
  unfold State.scrubPass
  repeat' first | with_reducible assumption | with_reducible apply Calm.raise | with_reducible refine Calm.ite (fun _ => ?_) (fun _ => ?_) | (fail_if_no_progress with_reducible refine Calm.upd_of ?_ rfl rfl rfl rfl rfl rfl rfl rfl rfl rfl rfl)

theorem Calm.searchFrame (h : Calm p a s) : Calm p a (State.searchFrame s x1 x2) := by
  unfold State.searchFrame
  repeat' first | with_reducible assumption | with_reducible apply Calm.queueFrame

theorem Calm.searchStop (h : Calm p a s) : Calm p a (State.searchStop s x1) := by
  unfold State.searchStop
  repeat' first | with_reducible assumption | with_reducible apply Calm.updTx | with_reducible apply Calm.searchFrame | split

theorem Calm.searchTrial (h : Calm p a s) : Calm p a (State.searchTrial s x1 x2) := by
  unfold State.searchTrial
  repeat' first | with_reducible assumption | with_reducible apply Calm.searchFrame | with_reducible apply Calm.updTx | with_reducible apply Calm.devStep | dsimp only | split

theorem Calm.slackCheck (h : Calm p a s) : Calm p a (State.slackCheck s x1 x2) := by
  unfold State.slackCheck
  repeat' first | with_reducible assumption | with_reducible apply Calm.updTile | with_reducible apply Calm.raise | with_reducible refine Calm.ite (fun _ => ?_) (fun _ => ?_) | (fail_if_no_progress with_reducible refine Calm.upd_of ?_ rfl rfl rfl rfl rfl rfl rfl rfl rfl rfl rfl)

theorem Calm.slotCoefWritten (h : Calm p a s) : Calm p a (State.slotCoefWritten s x1) := by
  unfold State.slotCoefWritten
  repeat' first | with_reducible assumption | with_reducible apply Calm.complete | with_reducible apply Calm.memWritten | with_reducible apply Calm.updSlot | split

theorem Calm.slotDisableBoundary (h : Calm p a s) : Calm p a (State.slotDisableBoundary s x1) := by
  unfold State.slotDisableBoundary
  repeat' first | with_reducible assumption | exact fun _ => rfl | with_reducible apply Calm.updPend | with_reducible apply Calm.updSlot | dsimp only | split

theorem Calm.slotDisableEnd (h : Calm p a s) : Calm p a (State.slotDisableEnd s x1) := by
  unfold State.slotDisableEnd
  repeat' first | with_reducible assumption | with_reducible apply Calm.updSlot | with_reducible apply Calm.fadeFinish | with_reducible apply Calm.completeAll | split

theorem Calm.slotEnableBoundary (h : Calm p a s) : Calm p a (State.slotEnableBoundary s x1) := by
  unfold State.slotEnableBoundary
  repeat' first | with_reducible assumption | with_reducible apply Calm.complete | with_reducible apply Calm.updSlot | with_reducible apply Calm.foldl | with_reducible refine Calm.ite (fun _ => ?_) (fun _ => ?_) | intro _

theorem Calm.slotFadeEnd (h : Calm p a s) : Calm p a (State.slotFadeEnd s x1) := by
  unfold State.slotFadeEnd
  repeat' first | with_reducible assumption | with_reducible apply Calm.fadeFinish | with_reducible apply Calm.raise | with_reducible apply Calm.updSlot | split

theorem Calm.slotSettled (h : Calm p a s) : Calm p a (State.slotSettled s x1) := by
  unfold State.slotSettled
  repeat' first | with_reducible assumption | with_reducible apply Calm.gainStart | with_reducible apply Calm.capAll | with_reducible apply Calm.updSlot | with_reducible refine Calm.ite (fun _ => ?_) (fun _ => ?_)

theorem Calm.slotSwapBegin (h : Calm p a s) : Calm p a (State.slotSwapBegin s x1) := by
  unfold State.slotSwapBegin
  repeat' first | with_reducible assumption | exact fun _ => rfl | with_reducible apply Calm.updPend | with_reducible apply Calm.loadsStart | with_reducible apply Calm.completeId | with_reducible apply Calm.updSlot | with_reducible refine Calm.ite (fun _ => ?_) (fun _ => ?_) | split

theorem Calm.springFail (h : Calm p a s) : Calm p a (State.springFail s) := by
  unfold State.springFail
  repeat' first | with_reducible assumption | with_reducible apply Calm.raise | with_reducible refine Calm.ite (fun _ => ?_) (fun _ => ?_)

theorem Calm.stopNow (h : Calm p a s) : Calm p a (State.stopNow s x1 x2) := by
  unfold State.stopNow
  repeat' first | with_reducible assumption | with_reducible apply Calm.completeAll | with_reducible apply Calm.stopTask

theorem Calm.strapChange (h : Calm p a s) : Calm p a (State.strapChange s x1) := by
  unfold State.strapChange
  repeat' first | with_reducible assumption | with_reducible apply Calm.raise | with_reducible refine Calm.ite (fun _ => ?_) (fun _ => ?_) | (fail_if_no_progress with_reducible refine Calm.upd_of ?_ rfl rfl rfl rfl rfl rfl rfl rfl rfl rfl rfl)

theorem Calm.streamCell (h : Calm p a s) : Calm p a (State.streamCell s x1 x2 x3) := by
  unfold State.streamCell
  repeat' first | with_reducible assumption | with_reducible apply Calm.updPort | with_reducible apply Calm.updStrm | with_reducible refine Calm.ite (fun _ => ?_) (fun _ => ?_) | split

theorem Calm.streamClose (h : Calm p a s) : Calm p a (State.streamClose s x1 x2) := by
  unfold State.streamClose
  repeat' first | with_reducible assumption | with_reducible apply Calm.takeLocal | with_reducible apply Calm.updStrm | with_reducible refine Calm.ite (fun _ => ?_) (fun _ => ?_) | intro _

theorem Calm.streamClosed (h : Calm p a s) : Calm p a (State.streamClosed s x1 x2 x3) := by
  unfold State.streamClosed
  repeat' first | with_reducible assumption | with_reducible apply Calm.updStrm | with_reducible apply Calm.completeId | with_reducible apply Calm.portSend | with_reducible apply Calm.completeAll | with_reducible refine Calm.ite (fun _ => ?_) (fun _ => ?_) | intro _ | (fail_if_no_progress with_reducible refine Calm.upd_of ?_ rfl rfl rfl rfl rfl rfl rfl rfl rfl rfl rfl) | dsimp only | split

theorem Calm.streamRamp (h : Calm p a s) : Calm p a (State.streamRamp s x1 x2) := by
  unfold State.streamRamp
  repeat' first | with_reducible assumption | exact fun _ => rfl | with_reducible apply Calm.streamClosed | with_reducible apply Calm.updPend | with_reducible refine Calm.ite (fun _ => ?_) (fun _ => ?_) | split

theorem Calm.streamReq (h : Calm p a s) : Calm p a (State.streamReq s x1 x2 x3 x4 x5 x6) := by
  unfold State.streamReq
  repeat' first | with_reducible assumption | with_reducible apply Calm.takeLocal | with_reducible apply Calm.updStrm | with_reducible apply Calm.portSend | with_reducible refine Calm.ite (fun _ => ?_) (fun _ => ?_) | intro _

theorem Calm.streamReqRepeat (h : Calm p a s) : Calm p a (State.streamReqRepeat s x1 x2) := by
  unfold State.streamReqRepeat
  repeat' first | with_reducible assumption | with_reducible apply Calm.streamReqSend | with_reducible refine Calm.ite (fun _ => ?_) (fun _ => ?_)

theorem Calm.streamReqResponse (h : Calm p a s) : Calm p a (State.streamReqResponse s x1 x2) := by
  unfold State.streamReqResponse
  repeat' first | with_reducible assumption | with_reducible apply Calm.takeLocal | with_reducible apply Calm.updStrm | with_reducible apply Calm.openFails | with_reducible refine Calm.ite (fun _ => ?_) (fun _ => ?_) | intro _ | dsimp only | split

theorem Calm.streamStart (h : Calm p a s) : Calm p a (State.streamStart s x1 x2 x3) := by
  unfold State.streamStart
  repeat' first | with_reducible assumption | with_reducible apply Calm.updStrm | with_reducible apply Calm.completeId | with_reducible apply Calm.openFails | dsimp only | split

theorem Calm.streamStop (h : Calm p a s) : Calm p a (State.streamStop s x1 x2) := by
  unfold State.streamStop
  repeat' first | with_reducible assumption | with_reducible apply Calm.streamClosed | with_reducible refine Calm.ite (fun _ => ?_) (fun _ => ?_)

theorem Calm.submit (hp_take : p.take = true) (hq : isAuth x2 = true → p.auth = true) (h : Calm p a s) : Calm p a (s.submit x1 x2) :=
  iteInduction (fun _ => Calm.runDesc hp_take hq (Calm.served h)) (fun _ => h)

theorem Calm.summaryRecord (h : Calm p a s) : Calm p a (State.summaryRecord s x1) := by
  unfold State.summaryRecord
  repeat' first | with_reducible assumption | with_reducible apply Calm.summary | with_reducible apply Calm.updBucket | with_reducible refine Calm.ite (fun _ => ?_) (fun _ => ?_)

theorem Calm.supStall (h : Calm p a s) : Calm p a (State.supStall s x1) := by
  unfold State.supStall
  repeat' first | with_reducible assumption | with_reducible apply Calm.raiseI | with_reducible refine Calm.ite (fun _ => ?_) (fun _ => ?_) | (fail_if_no_progress with_reducible refine Calm.upd_of ?_ rfl rfl rfl rfl rfl rfl rfl rfl rfl rfl rfl)

theorem Calm.supervisorVector (h : Calm p a s) : Calm p a (s.supervisorVector x1) := by
  unfold State.supervisorVector
  split
  · exact Calm.vecComplete (Calm.each (Calm.record h) (fun _ _ hb => Calm.of hb rfl rfl rfl rfl rfl rfl rfl rfl rfl rfl rfl))
  · exact h

theorem Calm.syncDetection (h : Calm p a s) : Calm p a (State.syncDetection s x1) := by
  unfold State.syncDetection
  repeat' first | with_reducible assumption | with_reducible apply Calm.schedSync | with_reducible apply Calm.updSched | with_reducible refine Calm.ite (fun _ => ?_) (fun _ => ?_)

theorem Calm.syncLoss (h : Calm p a s) : Calm p a (State.syncLoss s x1) := by
  unfold State.syncLoss
  repeat' first | with_reducible assumption | with_reducible apply Calm.updSched | with_reducible apply Calm.each | with_reducible apply Calm.raise | with_reducible refine Calm.ite (fun _ => ?_) (fun _ => ?_) | intro _

theorem Calm.tableCommit (h : Calm p a s) : Calm p a (State.tableCommit s x1) := by
  unfold State.tableCommit
  repeat' first | with_reducible assumption | with_reducible apply Calm.complete | with_reducible apply Calm.memWritten | with_reducible apply Calm.updTx | split

theorem Calm.takeTrap (h : Calm p a s) : Calm p a (State.takeTrap s x1 x2 x3) := by
  unfold State.takeTrap
  repeat' first | with_reducible assumption | with_reducible apply Calm.takeTrapI

theorem Calm.tapShow (h : Calm p a s) : Calm p a (State.tapShow s x1) := by
  unfold State.tapShow
  repeat' first | with_reducible assumption | (fail_if_no_progress with_reducible refine Calm.upd_of ?_ rfl rfl rfl rfl rfl rfl rfl rfl rfl rfl rfl)

theorem Calm.taskDispatch (h : Calm p a s) : Calm p a (State.taskDispatch s x1) := by
  unfold State.taskDispatch
  repeat' first | with_reducible assumption | with_reducible apply Calm.updTask | with_reducible apply Calm.updEng | split

theorem Calm.taskRelease (h : Calm p a s) : Calm p a (State.taskRelease s x1 x2) := by
  unfold State.taskRelease
  repeat' first | with_reducible assumption | with_reducible apply Calm.stopNow | with_reducible apply Calm.cleanRelease | with_reducible apply Calm.overrun | with_reducible apply Calm.updTask | with_reducible apply Calm.completeId | with_reducible refine Calm.ite (fun _ => ?_) (fun _ => ?_) | split

theorem Calm.ukTrap (h : Calm p a s) : Calm p a (State.ukTrap s x1 x2 x3 x4) := by
  unfold State.ukTrap
  repeat' first | with_reducible assumption | with_reducible apply Calm.raiseI | with_reducible apply Calm.takeTrapI | with_reducible apply Calm.takeTrap | split

theorem Calm.taskTrap (h : Calm p a s) : Calm p a (State.taskTrap s x1 x2) := by
  unfold State.taskTrap
  repeat' first | with_reducible assumption | with_reducible apply Calm.memTrap | with_reducible apply Calm.takeTrap | with_reducible apply Calm.ukTrap | dsimp only | split

theorem Calm.tddLossEntry (h : Calm p a s) : Calm p a (State.tddLossEntry s x1) := by
  unfold State.tddLossEntry
  repeat' first | with_reducible assumption | with_reducible apply Calm.updObj | with_reducible apply Calm.winterSet | with_reducible refine Calm.ite (fun _ => ?_) (fun _ => ?_) | intro _ | dsimp only | split

theorem Calm.tddPeriodEdge (h : Calm p a s) : Calm p a (State.tddPeriodEdge s x1 x2) := by
  unfold State.tddPeriodEdge
  repeat' first | with_reducible assumption | with_reducible apply Calm.sideSync | with_reducible apply Calm.updSched | with_reducible refine Calm.ite (fun _ => ?_) (fun _ => ?_)

theorem Calm.telemetry (h : Calm p a s) : Calm p a (State.telemetry s x1 x2) := by
  unfold State.telemetry
  repeat' first | with_reducible assumption | with_reducible apply Calm.raise | with_reducible apply Calm.updTr | with_reducible apply Calm.irqEdge | with_reducible apply Calm.hostWrite | with_reducible refine Calm.ite (fun _ => ?_) (fun _ => ?_) | (fail_if_no_progress with_reducible refine Calm.upd_of ?_ rfl rfl rfl rfl rfl rfl rfl rfl rfl rfl rfl)

theorem Calm.tempSample (h : Calm p a s) : Calm p a (State.tempSample s x1 x2) := by
  unfold State.tempSample
  repeat' first | with_reducible assumption | with_reducible apply Calm.raise | with_reducible apply Calm.winterSet | with_reducible apply Calm.clearCause | with_reducible refine Calm.ite (fun _ => ?_) (fun _ => ?_) | (fail_if_no_progress with_reducible refine Calm.upd_of ?_ rfl rfl rfl rfl rfl rfl rfl rfl rfl rfl rfl)

theorem Calm.tileRealign (h : Calm p a s) : Calm p a (State.tileRealign s x1) := by
  unfold State.tileRealign
  repeat' first | with_reducible assumption | with_reducible apply Calm.updTile | with_reducible refine Calm.ite (fun _ => ?_) (fun _ => ?_) | (fail_if_no_progress with_reducible refine Calm.upd_of ?_ rfl rfl rfl rfl rfl rfl rfl rfl rfl rfl rfl)

theorem Calm.timeSend (h : Calm p a s) : Calm p a (State.timeSend s x1) := by
  unfold State.timeSend
  repeat' first | with_reducible assumption | with_reducible apply Calm.portSend | with_reducible apply Calm.updPort | with_reducible refine Calm.ite (fun _ => ?_) (fun _ => ?_)

theorem Calm.timeTake (h : Calm p a s) : Calm p a (State.timeTake s x1 x2 x3 x4) := by
  unfold State.timeTake
  repeat' first | with_reducible assumption | with_reducible apply Calm.takeLocal | with_reducible apply Calm.toHoldover | with_reducible apply Calm.raise | with_reducible apply Calm.lockedJoin | with_reducible refine Calm.ite (fun _ => ?_) (fun _ => ?_) | intro _ | (fail_if_no_progress with_reducible refine Calm.upd_of ?_ rfl rfl rfl rfl rfl rfl rfl rfl rfl rfl rfl) | dsimp only | split

theorem Calm.tmuxSel (h : Calm p a s) : Calm p a (State.tmuxSel s x1) := by
  unfold State.tmuxSel
  repeat' first | with_reducible assumption | with_reducible apply Calm.tapIr | with_reducible apply Calm.tmuxPut | with_reducible apply Calm.tapShow | with_reducible refine Calm.ite (fun _ => ?_) (fun _ => ?_)

theorem Calm.trainVersion (h : Calm p a s) : Calm p a (State.trainVersion s x1 x2 x3) := by
  unfold State.trainVersion
  repeat' first | with_reducible assumption | with_reducible apply Calm.linkDown | with_reducible apply Calm.updPort | with_reducible apply Calm.each | with_reducible apply Calm.portSend | with_reducible refine Calm.ite (fun _ => ?_) (fun _ => ?_) | intro _

theorem Calm.trainStep (h : Calm p a s) : Calm p a (State.trainStep s x1 x2) := by
  unfold State.trainStep
  repeat' first | with_reducible assumption | with_reducible apply Calm.linkDown | with_reducible apply Calm.updPort | with_reducible apply Calm.trainVersion | with_reducible apply Calm.linkUp | with_reducible refine Calm.ite (fun _ => ?_) (fun _ => ?_) | split

theorem Calm.tstacc {f : State → Nat × Word64 × State} (hf : ∀ b, Calm p a b → Calm p a (f b).2.2) (h : Calm p a s) : Calm p a (s.tstacc f) := by
  have h1 : Calm p a (s.tapIr 0x22) := Calm.tapIr h
  unfold State.tstacc
  exact Calm.ite (fun _ => Calm.of (hf _ h1) rfl rfl rfl rfl rfl rfl rfl rfl rfl rfl rfl) (fun _ => Calm.of h1 rfl rfl rfl rfl rfl rfl rfl rfl rfl rfl rfl)

theorem Calm.tstAck (hp_stat : p.stat = true) (h : Calm p a s) : Calm p a (State.tstAck s x1 x2) := by
  unfold State.tstAck
  repeat' first | with_reducible assumption | with_reducible apply Calm.tstacc | with_reducible apply Calm.faultAck | intro _ | split

theorem Calm.writeOph (h : Calm p a s) : Calm p a (State.writeOph s x1) := by
  unfold State.writeOph
  repeat' first | with_reducible assumption | with_reducible refine Calm.ite (fun _ => ?_) (fun _ => ?_) | (fail_if_no_progress with_reducible refine Calm.upd_of ?_ rfl rfl rfl rfl rfl rfl rfl rfl rfl rfl rfl)

theorem Calm.tstOph (h : Calm p a s) : Calm p a (State.tstOph s x1) := by
  unfold State.tstOph
  repeat' first | with_reducible assumption | with_reducible apply Calm.tstacc | with_reducible apply Calm.writeOph | intro _

theorem Calm.tstPut (h : Calm p a s) : Calm p a (State.tstPut s x1 x2) := by
  unfold State.tstPut
  repeat' first | with_reducible assumption | with_reducible apply Calm.updSlot | with_reducible apply Calm.updInst | with_reducible apply Calm.updEng | with_reducible apply Calm.updLut | with_reducible apply Calm.updTx | with_reducible refine Calm.ite (fun _ => ?_) (fun _ => ?_) | intro _ | (fail_if_no_progress with_reducible refine Calm.upd_of ?_ rfl rfl rfl rfl rfl rfl rfl rfl rfl rfl rfl) | dsimp only | split

theorem Calm.tstRead (h : Calm p a s) : Calm p a (State.tstRead s x1) := by
  unfold State.tstRead
  repeat' first | with_reducible assumption | with_reducible apply Calm.tstacc | with_reducible apply Calm.symFound | with_reducible apply Calm.free | with_reducible refine Calm.ite (fun _ => ?_) (fun _ => ?_) | intro _ | dsimp only | split

theorem Calm.tstReg (h : Calm p a s) : Calm p a (State.tstReg s x1) := by
  unfold State.tstReg
  repeat' first | with_reducible assumption | with_reducible apply Calm.tstacc | with_reducible apply Calm.portRead | intro _ | split

theorem Calm.tstRestore (h : Calm p a s) : Calm p a (State.tstRestore s) := by
  unfold State.tstRestore
  repeat' first | with_reducible assumption | with_reducible apply Calm.tstacc | with_reducible apply Calm.restoreImage | intro _ | split

theorem Calm.tstStage (h : Calm p a s) : Calm p a (State.tstStage s x1 x2) := by
  unfold State.tstStage
  repeat' first | with_reducible assumption | with_reducible apply Calm.tstacc | with_reducible refine Calm.ite (fun _ => ?_) (fun _ => ?_) | intro _ | (fail_if_no_progress with_reducible refine Calm.upd_of ?_ rfl rfl rfl rfl rfl rfl rfl rfl rfl rfl rfl)

theorem Calm.wordFresh (h : Calm p a s) : Calm p a (State.wordFresh s x1) := by
  unfold State.wordFresh
  repeat' first | with_reducible assumption | (fail_if_no_progress with_reducible refine Calm.upd_of ?_ rfl rfl rfl rfl rfl rfl rfl rfl rfl rfl rfl)

theorem Calm.tstWrite (h : Calm p a s) : Calm p a (State.tstWrite s x1 x2) := by
  unfold State.tstWrite
  repeat' first | with_reducible assumption | with_reducible apply Calm.tstacc | with_reducible apply Calm.wordFresh | with_reducible apply Calm.tstPut | intro _ | split

theorem Calm.tuneApply (h : Calm p a s) : Calm p a (State.tuneApply s x1 x2 x3 x4 x5) := by
  unfold State.tuneApply
  repeat' first | with_reducible assumption | with_reducible apply Calm.updChain | with_reducible apply Calm.each | with_reducible apply Calm.authSlot | with_reducible apply Calm.authChain | with_reducible apply Calm.capAll | with_reducible apply Calm.cxChainSync | with_reducible apply Calm.cxRetune | with_reducible refine Calm.ite (fun _ => ?_) (fun _ => ?_) | intro _

theorem Calm.tuneOne (h : Calm p a s) : Calm p a (State.tuneOne s x1 x2) := by
  unfold State.tuneOne
  repeat' first | with_reducible assumption | exact fun _ => rfl | with_reducible apply Calm.updDcb | with_reducible apply Calm.updTx | with_reducible apply Calm.complete | with_reducible apply Calm.tuneApply | with_reducible apply Calm.updPend | with_reducible apply Calm.completeId | with_reducible refine Calm.ite (fun _ => ?_) (fun _ => ?_) | split

theorem Calm.tuningCommit (h : Calm p a s) : Calm p a (State.tuningCommit s x1) := by
  unfold State.tuningCommit
  repeat' first | with_reducible assumption | with_reducible apply Calm.chainSync | with_reducible apply Calm.tuneOne | with_reducible apply Calm.foldl | with_reducible refine Calm.ite (fun _ => ?_) (fun _ => ?_) | intro _

theorem Calm.turnStep (h : Calm p a s) : Calm p a (State.turnStep s x1 x2) := by
  unfold State.turnStep
  repeat' first | with_reducible assumption | with_reducible apply Calm.updSched | dsimp only | split

theorem Calm.ukRun {f : Nat → State → State} (hf : ∀ t, Calm p a (f t s)) (h : Calm p a s) : Calm p a (s.ukRun x1 x2 f) := by
  unfold State.ukRun
  split
  · split
    · split
      · exact Calm.ukTrap h
      · exact hf _
    · exact h
  · exact h

theorem Calm.ukNext (h : Calm p a s) : Calm p a (State.ukNext s x1 x2 x3) := by
  unfold State.ukNext
  repeat' first | with_reducible assumption | with_reducible apply Calm.updEng

theorem Calm.ukBranch (h : Calm p a s) : Calm p a (State.ukBranch s x1 x2 x3 x4 x5 x6) := by
  unfold State.ukBranch
  repeat' first | with_reducible assumption | with_reducible apply Calm.ukRun | with_reducible apply Calm.ukNext | intro _

theorem Calm.ukCmul (h : Calm p a s) : Calm p a (State.ukCmul s x1 x2 x3 x4 x5 x6) := by
  unfold State.ukCmul
  repeat' first | with_reducible assumption | with_reducible apply Calm.ukRun | with_reducible apply Calm.ukNext | with_reducible apply Calm.eSetVec | intro _

theorem Calm.ukJal (h : Calm p a s) : Calm p a (State.ukJal s x1 x2) := by
  unfold State.ukJal
  repeat' first | with_reducible assumption | with_reducible apply Calm.ukRun | with_reducible apply Calm.ukNext | with_reducible apply Calm.eSetReg | intro _

theorem Calm.ukJalr (h : Calm p a s) : Calm p a (State.ukJalr s x1 x2 x3 x4) := by
  unfold State.ukJalr
  repeat' first | with_reducible assumption | with_reducible apply Calm.ukRun | with_reducible apply Calm.ukNext | with_reducible apply Calm.eSetReg | intro _

theorem Calm.ukReg (h : Calm p a s) : Calm p a (State.ukReg s x1 x2 x3 x4) := by
  unfold State.ukReg
  repeat' first | with_reducible assumption | with_reducible apply Calm.ukRun | with_reducible apply Calm.ukNext | with_reducible apply Calm.eSetReg | intro _

theorem Calm.ukLoad (h : Calm p a s) : Calm p a (State.ukLoad s x1 x2 x3 x4 x5 x6 x7) := by
  unfold State.ukLoad
  repeat' first | with_reducible assumption | with_reducible apply Calm.ukReg

theorem Calm.ukPortRead (h : Calm p a s) : Calm p a (State.ukPortRead s x1 x2 x3 x4 x5 x6) := by
  unfold State.ukPortRead
  repeat' first | with_reducible assumption | with_reducible apply Calm.ukRun | with_reducible apply Calm.ukNext | with_reducible apply Calm.eSetReg | intro _

theorem Calm.ukPortWrite (h : Calm p a s) : Calm p a (State.ukPortWrite s x1 x2 x3 x4 x5) := by
  unfold State.ukPortWrite
  repeat' first | with_reducible assumption | with_reducible apply Calm.ukRun | with_reducible apply Calm.ukNext | with_reducible apply Calm.updEng | intro _

theorem Calm.ukStore (h : Calm p a s) : Calm p a (State.ukStore s x1 x2 x3 x4 x5 x6) := by
  unfold State.ukStore
  repeat' first | with_reducible assumption | with_reducible apply Calm.ukRun | with_reducible apply Calm.ukNext | with_reducible apply Calm.updEng | intro _

theorem Calm.ukVec (h : Calm p a s) : Calm p a (State.ukVec s x1 x2 x3 x4) := by
  unfold State.ukVec
  repeat' first | with_reducible assumption | with_reducible apply Calm.ukRun | with_reducible apply Calm.ukNext | with_reducible apply Calm.eSetVec | intro _

theorem Calm.ukVld (h : Calm p a s) : Calm p a (State.ukVld s x1 x2 x3 x4) := by
  unfold State.ukVld
  repeat' first | with_reducible assumption | with_reducible apply Calm.ukVec

theorem Calm.ukVst (h : Calm p a s) : Calm p a (State.ukVst s x1 x2 x3 x4) := by
  unfold State.ukVst
  repeat' first | with_reducible assumption | with_reducible apply Calm.ukRun | with_reducible apply Calm.ukNext | with_reducible apply Calm.updEng | intro _

theorem Calm.ukWait (h : Calm p a s) : Calm p a (State.ukWait s x1) := by
  unfold State.ukWait
  repeat' first | with_reducible assumption | with_reducible apply Calm.ukRun | with_reducible apply Calm.commitWrite | with_reducible apply Calm.updTask | with_reducible apply Calm.updEng | with_reducible apply Calm.stopNow | with_reducible apply Calm.foldl | with_reducible refine Calm.ite (fun _ => ?_) (fun _ => ?_) | intro _

theorem Calm.vecMaskRead (h : Calm p a s) : Calm p a (State.vecMaskRead s x1) := by
  unfold State.vecMaskRead
  repeat' first | with_reducible assumption | (fail_if_no_progress with_reducible refine Calm.upd_of ?_ rfl rfl rfl rfl rfl rfl rfl rfl rfl rfl rfl)

theorem Calm.vectorLaunch (h : Calm p a s) : Calm p a (State.vectorLaunch s x1) := by
  unfold State.vectorLaunch
  repeat' first | with_reducible assumption | with_reducible apply Calm.claim | with_reducible apply Calm.hostWrite | split

theorem Calm.vidLower (h : Calm p a s) : Calm p a (State.vidLower s) := by
  unfold State.vidLower
  repeat' first | with_reducible assumption | with_reducible refine Calm.ite (fun _ => ?_) (fun _ => ?_) | (fail_if_no_progress with_reducible refine Calm.upd_of ?_ rfl rfl rfl rfl rfl rfl rfl rfl rfl rfl rfl)

theorem Calm.vidRaise (h : Calm p a s) : Calm p a (State.vidRaise s) := by
  unfold State.vidRaise
  repeat' first | with_reducible assumption | with_reducible apply Calm.raise | with_reducible refine Calm.ite (fun _ => ?_) (fun _ => ?_) | (fail_if_no_progress with_reducible refine Calm.upd_of ?_ rfl rfl rfl rfl rfl rfl rfl rfl rfl rfl rfl)

theorem Calm.vswrStep (h : Calm p a s) : Calm p a (State.vswrStep s x1) := by
  unfold State.vswrStep
  repeat' first | with_reducible assumption | with_reducible apply Calm.devStep | with_reducible apply Calm.updTx | with_reducible apply Calm.searchFrame | with_reducible refine Calm.ite (fun _ => ?_) (fun _ => ?_)

theorem Calm.vswrCount (h : Calm p a s) : Calm p a (State.vswrCount s x1 x2 x3) := by
  unfold State.vswrCount
  repeat' first | with_reducible assumption | with_reducible apply Calm.updTx | with_reducible apply Calm.raise | with_reducible apply Calm.vswrStep | with_reducible apply Calm.winterSet | with_reducible apply Calm.searchStop | with_reducible refine Calm.ite (fun _ => ?_) (fun _ => ?_)

theorem Calm.vswrWindow (h : Calm p a s) : Calm p a (State.vswrWindow s x1 x2 x3 x4) := by
  unfold State.vswrWindow
  repeat' first | with_reducible assumption | with_reducible apply Calm.updTx | with_reducible apply Calm.vswrCount | with_reducible refine Calm.ite (fun _ => ?_) (fun _ => ?_)

end Sys2Proof.Laws
end

