-- ==== Sys2Proof/Laws/Records.lean ====
section
/-! SUPPORT. What a record, a completion and a raised source can do. -/

namespace Sys2Proof.Machine

variable (s : State)

/-- What holds of both branches holds of the choice between them. -/
theorem ite_both {α : Type} (P : α → Prop) {c : Prop} [Decidable c] {x y : α} (h1 : P x) (h2 : P y) : P (if c then x else y) := by
  split
  · exact h1
  · exact h2

/-- The intake changes only the recorder. -/
theorem State.bufferPut_frame (code sev : Nat) (sm : Bool) (src : Byte) (data : BitVec 256) :
    s.bufferPut code sev sm src data = { s with recd := (s.bufferPut code sev sm src data).recd } := by
  unfold State.bufferPut State.askFlush
  dsimp only
  split <;> rfl

/-- A counted loss changes only the recorder. -/
theorem State.countDrop_frame (sev : Nat) : s.countDrop sev = { s with recd := (s.countDrop sev).recd } := by
  unfold State.countDrop
  split <;> rfl

/-- A record that meets the buffer changes only the recorder. -/
theorem State.bufferEnter_frame (code sev : Nat) (sm : Bool) (src : Byte) (data : BitVec 256) :
    (s.bufferEnter code sev sm src data).2 = { s with recd := (s.bufferEnter code sev sm src data).2.recd } := by
  unfold State.bufferEnter
  split
  · exact State.bufferPut_frame _ _ _ _ _ _
  · split
    · dsimp only
      rw [State.bufferPut_frame]
    · rw [State.countDrop_frame]
      rfl

/-- The intake of a record changes only the recorder (R342-R345). -/
theorem State.recordQ_frame (code sev : Nat) (src : Byte) (bypass : Bool) (data : Nat) :
    s.recordQ code sev src bypass data = { s with recd := (s.recordQ code sev src bypass data).recd } := by
  have hu : ∀ (f : Bucket → Bucket) (x : Bool) (d : BitVec 256), ((s.updBucket code f).bufferEnter code sev x src d).2 = { s with recd := ((s.updBucket code f).bufferEnter code sev x src d).2.recd } := by
    intro f x d
    rw [State.bufferEnter_frame]
    rfl
  have key : ∀ P : State → Prop, P s → P (s.countDrop sev) → P (s.bufferEnter code sev false src (BitVec.ofNat 256 data)).2 →
      (∀ f, P (s.updBucket code f)) → (∀ f, P ((s.updBucket code f).bufferEnter code sev false src (BitVec.ofNat 256 data)).2) → P (s.recordQ code sev src bypass data) := by
    intro P h1 h2 h3 h4 h5
    unfold State.recordQ State.record0
    dsimp only
    rw [apply_ite Prod.snd, apply_ite Prod.snd, apply_ite Prod.snd, apply_ite Prod.snd]
    exact ite_both P h1 (ite_both P h2 (ite_both P h3 (ite_both P (h4 _) (h5 _))))
  exact key (fun t => t = { s with recd := t.recd }) rfl (State.countDrop_frame _ _) (State.bufferEnter_frame _ _ _ _ _ _) (fun _ => rfl) (fun _ => hu _ _ _)

/-- The loss of a record of severity 0 or 1 raises nothing. -/
theorem State.record0_low (code sev : Nat) (src : Byte) (bypass : Bool) (data : Nat) (h : sev < 2) : (s.record0 code sev src bypass data).1 = false := by
  have hb : ∀ (a : State) (x : Bool) (d : BitVec 256), (a.bufferEnter code sev x src d).1 = false := by
    intro a x d
    unfold State.bufferEnter
    split
    · rfl
    · split
      · rfl
      · simp; omega
  unfold State.record0
  dsimp only
  rw [apply_ite Prod.fst, apply_ite Prod.fst, apply_ite Prod.fst, apply_ite Prod.fst]
  exact ite_both (· = false) rfl (ite_both (· = false) rfl (ite_both (· = false) (hb _ _ _) (ite_both (· = false) rfl (hb _ _ _))))

/-- A record of severity 0 or 1 changes only the recorder. -/
theorem State.record_low (code sev : Nat) (src : Byte) (bypass : Bool) (data : Nat) (h : sev < 2) :
    s.record code sev src bypass data = s.recordQ code sev src bypass data := by
  have h0 := State.record0_low s code sev src bypass data h
  unfold State.record State.recordQ
  generalize s.record0 code sev src bypass data = x at h0
  obtain ⟨b, t⟩ := x
  dsimp only at h0
  subst h0
  rfl

end Sys2Proof.Machine
end

