-- ==== Sys2Proof/Laws/Alarm.lean ====
section
/-! SUPPORT. What raising a fault and deciding a WINTER leave alone: each operation they are made of stays within `State.alarmed`. -/

namespace Sys2Proof.Machine

set_option linter.unreachableTactic false
set_option linter.unusedTactic false

theorem State.alarmed_refl (s : State) : s.alarmed s := rfl

theorem State.alarmed_trans {a b c : State} (h : a.alarmed b) (h' : b.alarmed c) : a.alarmed c := by
  obtain ⟨h1, h2, h3, h4, h5, i1, i2, f1, f2, f3, r1, r2, r3, r4, r5, r6, r7, r8, r9, sl, cx, gc, p1, p2, rfl⟩ :
    ∃ h1 h2 h3 h4 h5 i1 i2 f1 f2 f3 r1 r2 r3 r4 r5 r6 r7 r8 r9 sl cx gc p1 p2, b = { a with
      hif := { a.hif with rings := h1, outstanding := h2, held := h3, hostWrites := h4, captRun := h5 }
      intc := { a.intc with lat := i1, vecs := i2 }
      flt := { a.flt with srcs := f1, sevLost := f2, regfault := f3 }
      recd := { a.recd with nextSeq := r1, buf := r2, copyq := r3, want := r4, wantCkpt := r5, dropHi := r6, dropLo := r7, tombs := r8, buckets := r9 }
      slots := sl, cx := cx, gcl := gc, prot := { a.prot with objs := p1, nets := p2 } } :=
    ⟨_, _, _, _, _, _, _, _, _, _, _, _, _, _, _, _, _, _, _, _, _, _, _, _, h⟩
  exact h'

variable {a s : State}

theorem State.alarmed_now {b : State} (h : a.alarmed b) : b.now = a.now := by
  have := congrArg (fun z : State => z.now) h
  exact this
theorem State.alarmed_rfe {b : State} (h : a.alarmed b) : b.rfe = a.rfe := by
  have := congrArg (fun z : State => z.rfe) h
  exact this
theorem State.alarmed_cxPol {b : State} (h : a.alarmed b) : b.cxPol = a.cxPol := by
  have := congrArg (fun z : State => z.cxPol) h
  exact this
theorem State.alarmed_luts {b : State} (h : a.alarmed b) : b.luts = a.luts := by
  have := congrArg (fun z : State => z.luts) h
  exact this
theorem State.alarmed_tim {b : State} (h : a.alarmed b) : b.tim = a.tim := by
  have := congrArg (fun z : State => z.tim) h
  exact this
theorem State.alarmed_le {b : State} (h : a.alarmed b) : b.le = a.le := by
  have := congrArg (fun z : State => z.le) h
  exact this
theorem State.alarmed_jl {b : State} (h : a.alarmed b) : b.jl = a.jl := by
  have := congrArg (fun z : State => z.jl) h
  exact this
theorem State.alarmed_tst {b : State} (h : a.alarmed b) : b.tst = a.tst := by
  have := congrArg (fun z : State => z.tst) h
  exact this
theorem State.alarmed_freeCnt {b : State} (h : a.alarmed b) : b.freeCnt = a.freeCnt := by
  have := congrArg (fun z : State => z.freeCnt) h
  exact this
theorem State.alarmed_pending {b : State} (h : a.alarmed b) : b.pending = a.pending := by
  have := congrArg (fun z : State => z.pending) h
  exact this
theorem State.alarmed_store {b : State} (h : a.alarmed b) : b.recd.store = a.recd.store := by
  have := congrArg (fun z : State => z.recd.store) h
  exact this
theorem State.alarmed_mounted {b : State} (h : a.alarmed b) : b.recd.mounted = a.recd.mounted := by
  have := congrArg (fun z : State => z.recd.mounted) h
  exact this
theorem State.alarmed_flush {b : State} (h : a.alarmed b) : b.recd.flush = a.recd.flush := by
  have := congrArg (fun z : State => z.recd.flush) h
  exact this
theorem State.alarmed_intakeClosed {b : State} (h : a.alarmed b) : b.recd.intakeClosed = a.recd.intakeClosed := by
  have := congrArg (fun z : State => z.recd.intakeClosed) h
  exact this
theorem State.alarmed_auth {b : State} (h : a.alarmed b) : b.prot.auth = a.prot.auth := by
  have := congrArg (fun z : State => z.prot.auth) h
  exact this
theorem State.alarmed_restoreFail {b : State} (h : a.alarmed b) : b.prot.restoreFail = a.prot.restoreFail := by
  have := congrArg (fun z : State => z.prot.restoreFail) h
  exact this
theorem State.alarmed_params {b : State} (h : a.alarmed b) : b.prot.params = a.prot.params := by
  have := congrArg (fun z : State => z.prot.params) h
  exact this
theorem State.alarmed_detectors {b : State} (h : a.alarmed b) : b.prot.rx = a.prot.rx := by
  have := congrArg (fun z : State => z.prot.rx) h
  exact this
theorem State.alarmed_temps {b : State} (h : a.alarmed b) : b.prot.temps = a.prot.temps := by
  have := congrArg (fun z : State => z.prot.temps) h
  exact this
theorem State.alarmed_groups {b : State} (h : a.alarmed b) : b.prot.groups = a.prot.groups := by
  have := congrArg (fun z : State => z.prot.groups) h
  exact this
theorem State.alarmed_busMaster {b : State} (h : a.alarmed b) : b.hif.busMaster = a.hif.busMaster := by
  have := congrArg (fun z : State => z.hif.busMaster) h
  exact this
theorem State.alarmed_nextId {b : State} (h : a.alarmed b) : b.hif.nextId = a.hif.nextId := by
  have := congrArg (fun z : State => z.hif.nextId) h
  exact this
theorem State.alarmed_subs {b : State} (h : a.alarmed b) : b.hif.subs = a.hif.subs := by
  have := congrArg (fun z : State => z.hif.subs) h
  exact this
theorem State.alarmed_tr {b : State} (h : a.alarmed b) : b.hif.tr = a.hif.tr := by
  have := congrArg (fun z : State => z.hif.tr) h
  exact this
theorem State.alarmed_er {b : State} (h : a.alarmed b) : b.hif.er = a.hif.er := by
  have := congrArg (fun z : State => z.hif.er) h
  exact this
theorem State.alarmed_policy {b : State} (h : a.alarmed b) : b.flt.policy = a.flt.policy := by
  have := congrArg (fun z : State => z.flt.policy) h
  exact this
theorem State.alarmed_sev {b : State} (h : a.alarmed b) : b.flt.sev = a.flt.sev := by
  have := congrArg (fun z : State => z.flt.sev) h
  exact this
theorem State.alarmed_grace {b : State} (h : a.alarmed b) : b.flt.grace = a.flt.grace := by
  have := congrArg (fun z : State => z.flt.grace) h
  exact this
theorem State.alarmed_wrrej {b : State} (h : a.alarmed b) : b.flt.wrrej = a.flt.wrrej := by
  have := congrArg (fun z : State => z.flt.wrrej) h
  exact this
theorem State.alarmed_poisoned {b : State} (h : a.alarmed b) : b.flt.poisoned = a.flt.poisoned := by
  have := congrArg (fun z : State => z.flt.poisoned) h
  exact this
theorem State.alarmed_flipped {b : State} (h : a.alarmed b) : b.flt.flipped = a.flt.flipped := by
  have := congrArg (fun z : State => z.flt.flipped) h
  exact this
theorem State.alarmed_en {b : State} (h : a.alarmed b) : b.intc.en = a.intc.en := by
  have := congrArg (fun z : State => z.intc.en) h
  exact this
theorem State.alarmed_srcs {b : State} (h : a.alarmed b) : b.intc.srcs = a.intc.srcs := by
  have := congrArg (fun z : State => z.intc.srcs) h
  exact this
theorem State.alarmed_mpStatus {b : State} (h : a.alarmed b) : b.hif.mpStatus = a.hif.mpStatus := by
  have := congrArg (fun z : State => z.hif.mpStatus) h
  exact this
theorem State.alarmed_mpData {b : State} (h : a.alarmed b) : b.hif.mpData = a.hif.mpData := by
  have := congrArg (fun z : State => z.hif.mpData) h
  exact this
theorem State.alarmed_rdData {b : State} (h : a.alarmed b) : b.hif.rdData = a.hif.rdData := by
  have := congrArg (fun z : State => z.hif.rdData) h
  exact this

theorem State.alarmed_foldl {α : Type} {l : List α} {f : State → α → State} (h : a.alarmed s) (hf : ∀ b x, a.alarmed b → a.alarmed (f b x)) : a.alarmed (l.foldl f s) := by
  induction l generalizing s with
  | nil => exact h
  | cons x r ih => exact ih (hf s x h)

theorem State.alarmed_each {l : List Nat} {f : Nat → State → State} (h : a.alarmed s) (hf : ∀ i b, a.alarmed b → a.alarmed (f i b)) : a.alarmed (s.each l f) :=
  State.alarmed_foldl h (fun b i hb => hf i b hb)

theorem State.alarmed_ite {c : Prop} [Decidable c] {x y : State} (h1 : a.alarmed x) (h2 : a.alarmed y) : a.alarmed (if c then x else y) := by
  split
  · exact h1
  · exact h2

theorem State.alarmed_updFsrc (h : a.alarmed s) : a.alarmed (s.updFsrc x0 x1) := State.alarmed_trans h rfl
theorem State.alarmed_updVec (h : a.alarmed s) : a.alarmed (s.updVec x0 x1) := State.alarmed_trans h rfl
theorem State.alarmed_updBucket (h : a.alarmed s) : a.alarmed (s.updBucket x0 x1) := State.alarmed_trans h rfl
theorem State.alarmed_askFlush (h : a.alarmed s) : a.alarmed (s.askFlush x0) := State.alarmed_trans h rfl
theorem State.alarmed_hostWrite (h : a.alarmed s) : a.alarmed (s.hostWrite x0 x1) := State.alarmed_trans h rfl
theorem State.alarmed_updRing (h : a.alarmed s) : a.alarmed (s.updRing x0 x1) := State.alarmed_trans h rfl
theorem State.alarmed_updPend (h : a.alarmed s) : a.alarmed (s.updPend x0 x1) := State.alarmed_trans h rfl
theorem State.alarmed_updSlot (h : a.alarmed s) : a.alarmed (s.updSlot x0 x1) := State.alarmed_trans h rfl
theorem State.alarmed_updGain (h : a.alarmed s) : a.alarmed (s.updGain x0 x1) := State.alarmed_trans h rfl
theorem State.alarmed_updInst (h : a.alarmed s) : a.alarmed (s.updInst x0 x1) := State.alarmed_trans h rfl
theorem State.alarmed_updNet (h : a.alarmed s) : a.alarmed (s.updNet x0 x1) := State.alarmed_trans h rfl
theorem State.alarmed_updObj (h : a.alarmed s) : a.alarmed (s.updObj x0 x1) := State.alarmed_trans h rfl

theorem State.alarmed_seenSync (h : a.alarmed s) : a.alarmed s.seenSync :=
  State.alarmed_each h (fun _ _ hb => State.alarmed_ite (State.alarmed_updVec hb) hb)

theorem State.alarmed_srcEvent (h : a.alarmed s) : a.alarmed (s.srcEvent x0) := State.alarmed_seenSync (State.alarmed_updVec h)

theorem State.alarmed_irqEdge (h : a.alarmed s) : a.alarmed (s.irqEdge x0) := by
  obtain ⟨l, v, e⟩ : ∃ l v, s.irqEdge x0 = { s with intc := { s.intc with lat := l, vecs := v } } := ⟨_, _, State.irqEdge_frame s x0⟩
  rw [e]
  exact State.alarmed_trans h rfl

theorem State.alarmed_irqRise (h : a.alarmed s) : a.alarmed (s.irqRise x0) := by
  obtain ⟨v, e⟩ : ∃ v, s.irqRise x0 = { s with intc := { s.intc with vecs := v } } := ⟨_, State.irqRise_frame s x0⟩
  rw [e]
  exact State.alarmed_trans h rfl

theorem State.alarmed_bufferPut (h : a.alarmed s) : a.alarmed (s.bufferPut x0 x1 x2 x3 x4) := by
  unfold State.bufferPut
  dsimp only
  exact State.alarmed_ite (State.alarmed_askFlush (State.alarmed_trans h rfl)) (State.alarmed_trans h rfl)

theorem State.alarmed_countDrop (h : a.alarmed s) : a.alarmed (s.countDrop x0) := State.alarmed_ite (State.alarmed_trans h rfl) (State.alarmed_trans h rfl)

theorem State.alarmed_bufferEnter (h : a.alarmed s) : a.alarmed (s.bufferEnter x0 x1 x2 x3 x4).2 := by
  unfold State.bufferEnter
  split
  · exact State.alarmed_bufferPut h
  · split
    · exact State.alarmed_bufferPut (State.alarmed_trans h rfl)
    · exact State.alarmed_countDrop (State.alarmed_updBucket h)

theorem State.record0_cases (P : State → Prop) (code sev : Nat) (src : Byte) (bypass : Bool) (data : Nat) (h1 : P s) (h2 : P (s.countDrop sev))
    (h3 : ∀ d, P (s.bufferEnter code sev false src d).2) (h4 : ∀ f, P (s.updBucket code f)) (h5 : ∀ f d, P ((s.updBucket code f).bufferEnter code sev false src d).2) :
    P (s.record0 code sev src bypass data).2 := by
  unfold State.record0
  dsimp only
  rw [apply_ite Prod.snd, apply_ite Prod.snd, apply_ite Prod.snd, apply_ite Prod.snd]
  exact ite_both P h1 (ite_both P h2 (ite_both P (h3 _) (ite_both P (h4 _) (h5 _ _))))

theorem State.alarmed_record0 (h : a.alarmed s) : a.alarmed (s.record0 x0 x1 x2 x3 x4).2 :=
  State.record0_cases (a.alarmed ·) x0 x1 x2 x3 x4 h (State.alarmed_countDrop h) (fun _ => State.alarmed_bufferEnter h) (fun _ => State.alarmed_updBucket h)
    (fun _ _ => State.alarmed_bufferEnter (State.alarmed_updBucket h))

theorem State.alarmed_recordQ (h : a.alarmed s) : a.alarmed (s.recordQ x0 x1 x2 x3 x4) := by
  unfold State.recordQ
  exact State.alarmed_record0 h

theorem State.alarmed_putCompl (h : a.alarmed s) : a.alarmed (s.putCompl x0) :=
  State.alarmed_ite (State.alarmed_irqEdge (State.alarmed_updRing (State.alarmed_hostWrite h))) (State.alarmed_updRing (State.alarmed_hostWrite h))

theorem State.alarmed_drainCheck (h : a.alarmed s) : a.alarmed (s.drainCheck x0) := State.alarmed_ite (State.alarmed_updRing h) h

theorem State.alarmed_sendCompl (h : a.alarmed s) : a.alarmed (s.sendCompl x0) := by
  unfold State.sendCompl
  dsimp only
  refine State.alarmed_drainCheck (State.alarmed_ite (State.alarmed_ite (State.alarmed_putCompl h) (State.alarmed_trans h rfl)) (State.alarmed_recordQ (State.alarmed_ite (State.alarmed_putCompl h) (State.alarmed_trans h rfl))))

theorem State.alarmed_complete (h : a.alarmed s) : a.alarmed (s.complete x0 x1 x2 x3) :=
  State.alarmed_ite (State.alarmed_trans h rfl) (State.alarmed_sendCompl (State.alarmed_trans h rfl))

theorem State.alarmed_completeId (h : a.alarmed s) : a.alarmed (s.completeId x0 x1 x2 x3) := by
  unfold State.completeId
  repeat' first | with_reducible assumption | intro _ | with_reducible apply State.alarmed_complete | with_reducible apply State.alarmed_ite | split

theorem State.alarmed_completeAll (h : a.alarmed s) : a.alarmed (s.completeAll x0 x1) := by
  unfold State.completeAll
  repeat' first | with_reducible assumption | intro _ | with_reducible apply State.alarmed_complete | with_reducible apply State.alarmed_foldl | with_reducible apply State.alarmed_ite | split

theorem State.alarmed_loadsStart (h : a.alarmed s) : a.alarmed (s.loadsStart x0) := by
  unfold State.loadsStart
  repeat' first | with_reducible assumption | intro _ | with_reducible apply State.alarmed_foldl | with_reducible apply State.alarmed_updPend | with_reducible apply State.alarmed_ite | split

theorem State.alarmed_fadeFinish (h : a.alarmed s) : a.alarmed (s.fadeFinish x0) := by
  unfold State.fadeFinish
  repeat' first | with_reducible assumption | intro _ | with_reducible apply State.alarmed_loadsStart | with_reducible apply State.alarmed_completeId | with_reducible apply State.alarmed_updSlot | with_reducible apply State.alarmed_ite | split

theorem State.alarmed_lutSwapCheck (h : a.alarmed s) : a.alarmed (s.lutSwapCheck x0) := by
  unfold State.lutSwapCheck
  repeat' first | with_reducible assumption | intro _ | with_reducible apply State.alarmed_completeAll | with_reducible apply State.alarmed_ite | split

theorem State.alarmed_lutSuspend (h : a.alarmed s) : a.alarmed (s.lutSuspend x0) := by
  unfold State.lutSuspend
  repeat' first | with_reducible assumption | intro _ | with_reducible apply State.alarmed_lutSwapCheck | with_reducible apply State.alarmed_updGain | with_reducible apply State.alarmed_ite | split

theorem State.alarmed_seedInstall (h : a.alarmed s) : a.alarmed (s.seedInstall x0) := by
  unfold State.seedInstall
  repeat' first | with_reducible assumption | intro _ | with_reducible apply State.alarmed_completeId | with_reducible apply State.alarmed_updInst | with_reducible apply State.alarmed_ite | split

theorem State.alarmed_slotEntersWinter (h : a.alarmed s) : a.alarmed (s.slotEntersWinter x0) := by
  unfold State.slotEntersWinter
  repeat' first | with_reducible assumption | intro _ | with_reducible apply State.alarmed_lutSuspend | with_reducible apply State.alarmed_completeAll | with_reducible apply State.alarmed_fadeFinish | with_reducible apply State.alarmed_ite | split

theorem State.alarmed_txEntersWinter (h : a.alarmed s) : a.alarmed (s.txEntersWinter x0) := by
  unfold State.txEntersWinter
  dsimp only
  repeat' first | with_reducible assumption | intro _ | with_reducible apply State.alarmed_each | with_reducible apply State.alarmed_seedInstall | with_reducible apply State.alarmed_irqEdge | with_reducible apply State.alarmed_updNet | with_reducible apply State.alarmed_ite | split

theorem State.alarmed_bridgeNet (h : a.alarmed s) : a.alarmed (s.bridgeNet x0) := by
  unfold State.bridgeNet
  repeat' first | with_reducible assumption | intro _ | with_reducible apply State.alarmed_updNet | with_reducible apply State.alarmed_ite | split

theorem State.alarmed_captTrigger (h : a.alarmed s) : a.alarmed (s.captTrigger x0) := by
  unfold State.captTrigger
  repeat' first | with_reducible assumption | with_reducible apply State.alarmed_ite | exact State.alarmed_updPend (State.alarmed_trans h rfl) | split

/-- A record writer stays within an alarm. -/
def AlarmRec (f : RecF) : Prop := ∀ a s x0 x1 x2 x3 x4, State.alarmed a s → State.alarmed a (f s x0 x1 x2 x3 x4)

variable {F : RecF}

theorem State.alarmed_winterSetWith (hF : AlarmRec F) (h : a.alarmed s) : a.alarmed (State.winterSetWith F s x0 x1 x2) := by
  unfold State.winterSetWith
  dsimp only
  by_cases hc : (s.wobj x0).cause.getLsbD x1 = true
  · rw [if_pos hc]; exact State.alarmed_updObj h
  · rw [if_neg hc]
    refine State.alarmed_captTrigger (State.alarmed_each (State.alarmed_each ?_ (fun _ _ hb => State.alarmed_slotEntersWinter hb)) (fun _ _ hb => State.alarmed_txEntersWinter hb))
    have h1 : a.alarmed (if x0 < 256 then s.bridgeNet x0 else s) := State.alarmed_ite (State.alarmed_bridgeNet h) h
    split
    · exact State.alarmed_completeId (hF _ _ _ _ _ _ _ (State.alarmed_updObj h1))
    · exact hF _ _ _ _ _ _ _ (State.alarmed_updObj h1)

theorem State.alarmed_faultWinter (hF : AlarmRec F) (h : a.alarmed s) : a.alarmed (State.faultWinter F s x0 x1) := by
  unfold State.faultWinter
  repeat' first | with_reducible assumption | intro _ | with_reducible apply State.alarmed_each | with_reducible apply State.alarmed_updObj | with_reducible apply State.alarmed_winterSetWith hF | with_reducible apply State.alarmed_ite | split

theorem State.alarmed_faultRecord (hF : AlarmRec F) (h : a.alarmed s) : a.alarmed (State.faultRecord F s x0 x1 x2 x3) := hF _ _ _ _ _ _ _ h

theorem State.alarmed_firstOccur (hF : AlarmRec F) (h : a.alarmed s) : a.alarmed (State.firstOccur F s x0 x1 x2 x3) := by
  unfold State.firstOccur
  dsimp only
  repeat' first | with_reducible assumption | intro _ | with_reducible apply State.alarmed_faultWinter hF | with_reducible apply State.alarmed_faultRecord hF | with_reducible apply State.alarmed_irqRise | with_reducible apply State.alarmed_updFsrc | with_reducible apply State.alarmed_ite | split

theorem State.alarmed_escalateWinter (hF : AlarmRec F) (h : a.alarmed s) : a.alarmed (State.escalateWinter F s x0) := by
  unfold State.escalateWinter
  repeat' first | with_reducible assumption | intro _ | with_reducible apply State.alarmed_foldl | with_reducible apply State.alarmed_faultWinter hF | with_reducible apply State.alarmed_ite | split

theorem State.alarmed_repeatOccur (hF : AlarmRec F) (h : a.alarmed s) : a.alarmed (State.repeatOccur F s x0 x1 x2) := by
  unfold State.repeatOccur
  dsimp only
  repeat' first | with_reducible assumption | intro _ | with_reducible apply State.alarmed_escalateWinter hF | with_reducible apply State.alarmed_faultWinter hF | with_reducible apply State.alarmed_faultRecord hF | with_reducible apply State.alarmed_updFsrc | with_reducible apply State.alarmed_ite | split

theorem State.alarmed_occurWith (hF : AlarmRec F) (h : a.alarmed s) : a.alarmed (State.occurWith F s x0 x1 x2) := by
  unfold State.occurWith
  repeat' first | with_reducible assumption | intro _ | with_reducible apply State.alarmed_repeatOccur hF | with_reducible apply State.alarmed_firstOccur hF | with_reducible apply State.alarmed_ite | split

theorem State.alarmed_quiet : AlarmRec State.recordQ := fun _ _ _ _ _ _ _ h => State.alarmed_recordQ h

theorem State.alarmed_record (h : a.alarmed s) : a.alarmed (s.record x0 x1 x2 x3 x4) := by
  have h0 := State.alarmed_record0 (x0 := x0) (x1 := x1) (x2 := x2) (x3 := x3) (x4 := x4) h
  unfold State.record
  split
  · rename_i hs; rw [hs] at h0; exact State.alarmed_occurWith State.alarmed_quiet h0
  · rename_i hs; rw [hs] at h0; exact h0

theorem State.alarmed_rec : AlarmRec State.record := fun _ _ _ _ _ _ _ h => State.alarmed_record h

theorem State.alarmed_winterSet (h : a.alarmed s) : a.alarmed (s.winterSet x0 x1 x2) := State.alarmed_winterSetWith State.alarmed_rec h

theorem State.alarmed_regfault (h : a.alarmed s) : a.alarmed s.regfault := by
  unfold State.regfault
  dsimp only
  have h1 := State.alarmed_occurWith (x0 := 16 * 3 + 1) (x1 := .device) (x2 := true) State.alarmed_rec (State.alarmed_trans h (rfl : s.alarmed { s with flt := { s.flt with regfault := satInc 0xFFFF s.flt.regfault } }))
  exact State.alarmed_ite (State.alarmed_updObj (State.alarmed_winterSet h1)) h1

theorem State.alarmed_checkSev (h : a.alarmed s) : a.alarmed (s.checkSev x0 x1) :=
  State.alarmed_ite (State.alarmed_regfault (State.alarmed_trans h rfl)) h

theorem State.alarmed_checkCopy (h : a.alarmed s) : a.alarmed (s.checkCopy x0) := by
  unfold State.checkCopy
  repeat' first | with_reducible assumption | intro _ | with_reducible apply State.alarmed_regfault | with_reducible apply State.alarmed_firstOccur State.alarmed_rec | with_reducible apply State.alarmed_ite | split

theorem State.alarmed_checkCopies (h : a.alarmed s) : a.alarmed (s.checkCopies x0) := by
  unfold State.checkCopies
  repeat' first | with_reducible assumption | intro _ | with_reducible apply State.alarmed_each | with_reducible apply State.alarmed_checkCopy | with_reducible apply State.alarmed_checkSev | with_reducible apply State.alarmed_ite | split

theorem State.alarmed_checkPolicy (h : a.alarmed s) : a.alarmed (s.checkPolicy ) := by
  unfold State.checkPolicy
  repeat' first | with_reducible assumption | intro _ | with_reducible apply State.alarmed_occurWith State.alarmed_rec | with_reducible apply State.alarmed_ite | split

theorem State.alarmed_raiseI (h : a.alarmed s) : a.alarmed (s.raiseI x0 x1 x2 x3) :=
  State.alarmed_occurWith State.alarmed_rec (State.alarmed_checkCopies (State.alarmed_checkPolicy h))

/-- Raising a fault stays within an alarm. -/
theorem State.alarmed_raise (h : a.alarmed s) : a.alarmed (s.raise x0 x1 x2) := State.alarmed_raiseI h

theorem State.alarmed_occurIn (h : a.alarmed s) : a.alarmed (s.occurIn x0 x1 x2) := by
  unfold State.occurIn
  repeat' first | dsimp only | with_reducible assumption | intro _ | with_reducible apply State.alarmed_foldl | with_reducible apply State.alarmed_updFsrc | with_reducible apply State.alarmed_faultWinter State.alarmed_rec | with_reducible apply State.alarmed_occurWith State.alarmed_rec | with_reducible apply State.alarmed_ite | split

theorem State.alarmed_raiseIn (h : a.alarmed s) : a.alarmed (s.raiseIn x0 x1 x2 x3) :=
  State.alarmed_occurIn (State.alarmed_checkCopies (State.alarmed_checkPolicy h))

theorem State.alarmed_clearCause (h : a.alarmed s) : a.alarmed (s.clearCause x0 x1) := State.alarmed_ite (State.alarmed_updObj h) h

end Sys2Proof.Machine
end

