-- ==== Sys2Proof/Laws/Kept.lean ====
section
/-! SUPPORT. Kept: which blocks of the state each shared operation of the machine may change. `Kept p a b` says that from a to b only the blocks that p names have changed; every operation has its lemma, whose hypotheses name the blocks it may change. -/

namespace Sys2Proof.Laws

open Sys2Proof.Machine

set_option Elab.async false
set_option linter.unusedSimpArgs false
set_option linter.unreachableTactic false
set_option linter.unusedTactic false
set_option linter.unusedVariables false

/-- The blocks of the state that may change. -/
structure Part where
  hif : Bool := false
  intc : Bool := false
  flt : Bool := false
  recd : Bool := false
  rfe : Bool := false
  slots : Bool := false
  cx : Bool := false
  cxPol : Bool := false
  gcl : Bool := false
  luts : Bool := false
  prot : Bool := false
  tim : Bool := false
  le : Bool := false
  jl : Bool := false
  tst : Bool := false
  freeCnt : Bool := false
deriving DecidableEq, Repr

/-- From a to b only blocks that p names have changed; time and queue have not. -/
structure Kept (p : Part) (a b : State) : Prop where
  hif : p.hif = false → b.hif = a.hif
  intc : p.intc = false → b.intc = a.intc
  flt : p.flt = false → b.flt = a.flt
  recd : p.recd = false → b.recd = a.recd
  rfe : p.rfe = false → b.rfe = a.rfe
  slots : p.slots = false → b.slots = a.slots
  cx : p.cx = false → b.cx = a.cx
  cxPol : p.cxPol = false → b.cxPol = a.cxPol
  gcl : p.gcl = false → b.gcl = a.gcl
  luts : p.luts = false → b.luts = a.luts
  prot : p.prot = false → b.prot = a.prot
  tim : p.tim = false → b.tim = a.tim
  le : p.le = false → b.le = a.le
  jl : p.jl = false → b.jl = a.jl
  tst : p.tst = false → b.tst = a.tst
  freeCnt : p.freeCnt = false → b.freeCnt = a.freeCnt
  now : b.now = a.now
  queue : b.pending = a.pending

theorem Kept.refl (p : Part) (a : State) : Kept p a a := ⟨fun _ => rfl, fun _ => rfl, fun _ => rfl, fun _ => rfl, fun _ => rfl, fun _ => rfl, fun _ => rfl, fun _ => rfl, fun _ => rfl, fun _ => rfl, fun _ => rfl, fun _ => rfl, fun _ => rfl, fun _ => rfl, fun _ => rfl, fun _ => rfl, rfl, rfl⟩

variable {p : Part} {a s : State}

theorem Kept.trans {b c : State} (h : Kept p a b) (h' : Kept p b c) : Kept p a c :=
  ⟨fun e => (h'.hif e).trans (h.hif e), fun e => (h'.intc e).trans (h.intc e), fun e => (h'.flt e).trans (h.flt e), fun e => (h'.recd e).trans (h.recd e), fun e => (h'.rfe e).trans (h.rfe e), fun e => (h'.slots e).trans (h.slots e), fun e => (h'.cx e).trans (h.cx e), fun e => (h'.cxPol e).trans (h.cxPol e), fun e => (h'.gcl e).trans (h.gcl e), fun e => (h'.luts e).trans (h.luts e), fun e => (h'.prot e).trans (h.prot e), fun e => (h'.tim e).trans (h.tim e), fun e => (h'.le e).trans (h.le e), fun e => (h'.jl e).trans (h.jl e), fun e => (h'.tst e).trans (h.tst e), fun e => (h'.freeCnt e).trans (h.freeCnt e), h'.now.trans h.now, h'.queue.trans h.queue⟩

/-- Every block that q names is named by p. -/
def Part.sub (q p : Part) : Bool := (!q.hif || p.hif) && (!q.intc || p.intc) && (!q.flt || p.flt) && (!q.recd || p.recd) && (!q.rfe || p.rfe) && (!q.slots || p.slots) && (!q.cx || p.cx) && (!q.cxPol || p.cxPol) && (!q.gcl || p.gcl) && (!q.luts || p.luts) && (!q.prot || p.prot) && (!q.tim || p.tim) && (!q.le || p.le) && (!q.jl || p.jl) && (!q.tst || p.tst) && (!q.freeCnt || p.freeCnt)

theorem Part.sub_of {q r p : Part} (h : r.sub p = true) (h' : q.sub r = true) : q.sub p = true := by
  simp only [Part.sub, Bool.and_eq_true, Bool.or_eq_true, Bool.not_eq_true', and_assoc] at h h' ⊢
  obtain ⟨hhif, hintc, hflt, hrecd, hrfe, hslots, hcx, hcxPol, hgcl, hluts, hprot, htim, hle, hjl, htst, hfreeCnt⟩ := h
  obtain ⟨ghif, gintc, gflt, grecd, grfe, gslots, gcx, gcxPol, ggcl, gluts, gprot, gtim, gle, gjl, gtst, gfreeCnt⟩ := h'
  exact ⟨ghif.elim Or.inl (fun e => hhif.elim (fun e2 => absurd (e.symm.trans e2) (by decide)) Or.inr), gintc.elim Or.inl (fun e => hintc.elim (fun e2 => absurd (e.symm.trans e2) (by decide)) Or.inr), gflt.elim Or.inl (fun e => hflt.elim (fun e2 => absurd (e.symm.trans e2) (by decide)) Or.inr), grecd.elim Or.inl (fun e => hrecd.elim (fun e2 => absurd (e.symm.trans e2) (by decide)) Or.inr), grfe.elim Or.inl (fun e => hrfe.elim (fun e2 => absurd (e.symm.trans e2) (by decide)) Or.inr), gslots.elim Or.inl (fun e => hslots.elim (fun e2 => absurd (e.symm.trans e2) (by decide)) Or.inr), gcx.elim Or.inl (fun e => hcx.elim (fun e2 => absurd (e.symm.trans e2) (by decide)) Or.inr), gcxPol.elim Or.inl (fun e => hcxPol.elim (fun e2 => absurd (e.symm.trans e2) (by decide)) Or.inr), ggcl.elim Or.inl (fun e => hgcl.elim (fun e2 => absurd (e.symm.trans e2) (by decide)) Or.inr), gluts.elim Or.inl (fun e => hluts.elim (fun e2 => absurd (e.symm.trans e2) (by decide)) Or.inr), gprot.elim Or.inl (fun e => hprot.elim (fun e2 => absurd (e.symm.trans e2) (by decide)) Or.inr), gtim.elim Or.inl (fun e => htim.elim (fun e2 => absurd (e.symm.trans e2) (by decide)) Or.inr), gle.elim Or.inl (fun e => hle.elim (fun e2 => absurd (e.symm.trans e2) (by decide)) Or.inr), gjl.elim Or.inl (fun e => hjl.elim (fun e2 => absurd (e.symm.trans e2) (by decide)) Or.inr), gtst.elim Or.inl (fun e => htst.elim (fun e2 => absurd (e.symm.trans e2) (by decide)) Or.inr), gfreeCnt.elim Or.inl (fun e => hfreeCnt.elim (fun e2 => absurd (e.symm.trans e2) (by decide)) Or.inr)⟩

/-- The blocks that an alarm may change: completions, interrupts, faults, records, and the WINTER it decides. -/
def Part.alarms : Part := { hif := true, intc := true, flt := true, recd := true, slots := true, cx := true, gcl := true, prot := true }

/-- An update of blocks that p names. -/
theorem Kept.of {q : Part} (hp : q.sub p = true) {t : State} (h : Kept p a s) (h_hif : q.hif = true ∨ t.hif = s.hif := by first | exact Or.inr rfl | exact Or.inl (by decide)) (h_intc : q.intc = true ∨ t.intc = s.intc := by first | exact Or.inr rfl | exact Or.inl (by decide)) (h_flt : q.flt = true ∨ t.flt = s.flt := by first | exact Or.inr rfl | exact Or.inl (by decide)) (h_recd : q.recd = true ∨ t.recd = s.recd := by first | exact Or.inr rfl | exact Or.inl (by decide)) (h_rfe : q.rfe = true ∨ t.rfe = s.rfe := by first | exact Or.inr rfl | exact Or.inl (by decide)) (h_slots : q.slots = true ∨ t.slots = s.slots := by first | exact Or.inr rfl | exact Or.inl (by decide)) (h_cx : q.cx = true ∨ t.cx = s.cx := by first | exact Or.inr rfl | exact Or.inl (by decide)) (h_cxPol : q.cxPol = true ∨ t.cxPol = s.cxPol := by first | exact Or.inr rfl | exact Or.inl (by decide)) (h_gcl : q.gcl = true ∨ t.gcl = s.gcl := by first | exact Or.inr rfl | exact Or.inl (by decide)) (h_luts : q.luts = true ∨ t.luts = s.luts := by first | exact Or.inr rfl | exact Or.inl (by decide)) (h_prot : q.prot = true ∨ t.prot = s.prot := by first | exact Or.inr rfl | exact Or.inl (by decide)) (h_tim : q.tim = true ∨ t.tim = s.tim := by first | exact Or.inr rfl | exact Or.inl (by decide)) (h_le : q.le = true ∨ t.le = s.le := by first | exact Or.inr rfl | exact Or.inl (by decide)) (h_jl : q.jl = true ∨ t.jl = s.jl := by first | exact Or.inr rfl | exact Or.inl (by decide)) (h_tst : q.tst = true ∨ t.tst = s.tst := by first | exact Or.inr rfl | exact Or.inl (by decide)) (h_freeCnt : q.freeCnt = true ∨ t.freeCnt = s.freeCnt := by first | exact Or.inr rfl | exact Or.inl (by decide)) (h_n : t.now = s.now := by rfl) (h_p : t.pending = s.pending := by rfl) : Kept p a t := by
  simp only [Part.sub, Bool.and_eq_true, Bool.or_eq_true, Bool.not_eq_true', and_assoc] at hp
  obtain ⟨ghif, gintc, gflt, grecd, grfe, gslots, gcx, gcxPol, ggcl, gluts, gprot, gtim, gle, gjl, gtst, gfreeCnt⟩ := hp
  exact ⟨fun e => (h_hif.elim (fun k => absurd (ghif.elim (fun e2 => k.symm.trans e2) (fun e2 => e2.symm.trans e)) (by decide)) id).trans (h.hif e), fun e => (h_intc.elim (fun k => absurd (gintc.elim (fun e2 => k.symm.trans e2) (fun e2 => e2.symm.trans e)) (by decide)) id).trans (h.intc e), fun e => (h_flt.elim (fun k => absurd (gflt.elim (fun e2 => k.symm.trans e2) (fun e2 => e2.symm.trans e)) (by decide)) id).trans (h.flt e), fun e => (h_recd.elim (fun k => absurd (grecd.elim (fun e2 => k.symm.trans e2) (fun e2 => e2.symm.trans e)) (by decide)) id).trans (h.recd e), fun e => (h_rfe.elim (fun k => absurd (grfe.elim (fun e2 => k.symm.trans e2) (fun e2 => e2.symm.trans e)) (by decide)) id).trans (h.rfe e), fun e => (h_slots.elim (fun k => absurd (gslots.elim (fun e2 => k.symm.trans e2) (fun e2 => e2.symm.trans e)) (by decide)) id).trans (h.slots e), fun e => (h_cx.elim (fun k => absurd (gcx.elim (fun e2 => k.symm.trans e2) (fun e2 => e2.symm.trans e)) (by decide)) id).trans (h.cx e), fun e => (h_cxPol.elim (fun k => absurd (gcxPol.elim (fun e2 => k.symm.trans e2) (fun e2 => e2.symm.trans e)) (by decide)) id).trans (h.cxPol e), fun e => (h_gcl.elim (fun k => absurd (ggcl.elim (fun e2 => k.symm.trans e2) (fun e2 => e2.symm.trans e)) (by decide)) id).trans (h.gcl e), fun e => (h_luts.elim (fun k => absurd (gluts.elim (fun e2 => k.symm.trans e2) (fun e2 => e2.symm.trans e)) (by decide)) id).trans (h.luts e), fun e => (h_prot.elim (fun k => absurd (gprot.elim (fun e2 => k.symm.trans e2) (fun e2 => e2.symm.trans e)) (by decide)) id).trans (h.prot e), fun e => (h_tim.elim (fun k => absurd (gtim.elim (fun e2 => k.symm.trans e2) (fun e2 => e2.symm.trans e)) (by decide)) id).trans (h.tim e), fun e => (h_le.elim (fun k => absurd (gle.elim (fun e2 => k.symm.trans e2) (fun e2 => e2.symm.trans e)) (by decide)) id).trans (h.le e), fun e => (h_jl.elim (fun k => absurd (gjl.elim (fun e2 => k.symm.trans e2) (fun e2 => e2.symm.trans e)) (by decide)) id).trans (h.jl e), fun e => (h_tst.elim (fun k => absurd (gtst.elim (fun e2 => k.symm.trans e2) (fun e2 => e2.symm.trans e)) (by decide)) id).trans (h.tst e), fun e => (h_freeCnt.elim (fun k => absurd (gfreeCnt.elim (fun e2 => k.symm.trans e2) (fun e2 => e2.symm.trans e)) (by decide)) id).trans (h.freeCnt e), h_n.trans h.now, h_p.trans h.queue⟩

/-- An update of blocks that p names, field by field. -/
theorem Kept.upd_of {q : Part} {n xhif xintc xflt xrecd xrfe xslots xcx xcxPol xgcl xluts xprot xtim xle xjl xtst xfreeCnt pe} (hp : q.sub p = true) (h : Kept p a s) (h_hif : q.hif = true ∨ xhif = s.hif) (h_intc : q.intc = true ∨ xintc = s.intc) (h_flt : q.flt = true ∨ xflt = s.flt) (h_recd : q.recd = true ∨ xrecd = s.recd) (h_rfe : q.rfe = true ∨ xrfe = s.rfe) (h_slots : q.slots = true ∨ xslots = s.slots) (h_cx : q.cx = true ∨ xcx = s.cx) (h_cxPol : q.cxPol = true ∨ xcxPol = s.cxPol) (h_gcl : q.gcl = true ∨ xgcl = s.gcl) (h_luts : q.luts = true ∨ xluts = s.luts) (h_prot : q.prot = true ∨ xprot = s.prot) (h_tim : q.tim = true ∨ xtim = s.tim) (h_le : q.le = true ∨ xle = s.le) (h_jl : q.jl = true ∨ xjl = s.jl) (h_tst : q.tst = true ∨ xtst = s.tst) (h_freeCnt : q.freeCnt = true ∨ xfreeCnt = s.freeCnt) (h_n : n = s.now) (h_p : pe = s.pending) :
    Kept p a ⟨n, xhif, xintc, xflt, xrecd, xrfe, xslots, xcx, xcxPol, xgcl, xluts, xprot, xtim, xle, xjl, xtst, xfreeCnt, pe⟩ := Kept.of hp h h_hif h_intc h_flt h_recd h_rfe h_slots h_cx h_cxPol h_gcl h_luts h_prot h_tim h_le h_jl h_tst h_freeCnt h_n h_p

theorem Kept.foldl {α : Type} {l : List α} {f : State → α → State} (h : Kept p a s) (hf : ∀ b x, Kept p a b → Kept p a (f b x)) : Kept p a (l.foldl f s) := by
  induction l generalizing s with
  | nil => exact h
  | cons x r ih => exact ih (hf s x h)

theorem Kept.each {l : List Nat} {f : Nat → State → State} (h : Kept p a s) (hf : ∀ i b, Kept p a b → Kept p a (f i b)) : Kept p a (s.each l f) := Kept.foldl h (fun b i hb => hf i b hb)

theorem Kept.ite {c : Prop} [Decidable c] {x y : State} (h1 : c → Kept p a x) (h2 : ¬c → Kept p a y) : Kept p a (if c then x else y) := by
  split
  · exact h1 ‹_›
  · exact h2 ‹_›

/-- A free value is drawn. -/
theorem Kept.free (h : Kept p a s) (hp : Part.sub { freeCnt := true } p = true := by first | decide | (refine Part.sub_of (by assumption) ?_; decide)) : Kept p a s.free.2 := Kept.of hp h

/-- A record writer that changes only what p names. -/
def KeptRec (p : Part) (f : RecF) : Prop := ∀ a b c sv sr by_ d, Kept p a b → Kept p a (f b c sv sr by_ d)


theorem Kept.updGain (h : Kept p a s) (hp : Part.sub { gcl := true } p = true := by first | decide | (refine Part.sub_of (by assumption) ?_; decide)) : Kept p a (State.updGain s x1 x2) := by
  unfold State.updGain
  repeat' first | with_reducible assumption | exact Part.sub_of hp (by decide) | with_reducible apply Kept.foldl | with_reducible apply Kept.each | with_reducible refine Kept.ite (fun _ => ?_) (fun _ => ?_) | intro _ | (fail_if_no_progress with_reducible refine Kept.upd_of hp ?_ ?_ ?_ ?_ ?_ ?_ ?_ ?_ ?_ ?_ ?_ ?_ ?_ ?_ ?_ ?_ ?_ rfl rfl <;> try first | exact Or.inr rfl | exact Or.inl (by decide)) | (simp only [id_eq]; assumption) | dsimp only | split

theorem Kept.updRing (h : Kept p a s) (hp : Part.sub { hif := true } p = true := by first | decide | (refine Part.sub_of (by assumption) ?_; decide)) : Kept p a (State.updRing s x1 x2) := by
  unfold State.updRing
  repeat' first | with_reducible assumption | exact Part.sub_of hp (by decide) | with_reducible apply Kept.foldl | with_reducible apply Kept.each | with_reducible refine Kept.ite (fun _ => ?_) (fun _ => ?_) | intro _ | (fail_if_no_progress with_reducible refine Kept.upd_of hp ?_ ?_ ?_ ?_ ?_ ?_ ?_ ?_ ?_ ?_ ?_ ?_ ?_ ?_ ?_ ?_ ?_ rfl rfl <;> try first | exact Or.inr rfl | exact Or.inl (by decide)) | (simp only [id_eq]; assumption) | dsimp only | split

theorem Kept.hostWrite (h : Kept p a s) (hp : Part.sub { hif := true } p = true := by first | decide | (refine Part.sub_of (by assumption) ?_; decide)) : Kept p a (State.hostWrite s x1 x2) := by
  unfold State.hostWrite
  repeat' first | with_reducible assumption | exact Part.sub_of hp (by decide) | with_reducible apply Kept.foldl | with_reducible apply Kept.each | with_reducible refine Kept.ite (fun _ => ?_) (fun _ => ?_) | intro _ | (fail_if_no_progress with_reducible refine Kept.upd_of hp ?_ ?_ ?_ ?_ ?_ ?_ ?_ ?_ ?_ ?_ ?_ ?_ ?_ ?_ ?_ ?_ ?_ rfl rfl <;> try first | exact Or.inr rfl | exact Or.inl (by decide)) | (simp only [id_eq]; assumption) | dsimp only | split

theorem Kept.updVec (h : Kept p a s) (hp : Part.sub { intc := true } p = true := by first | decide | (refine Part.sub_of (by assumption) ?_; decide)) : Kept p a (State.updVec s x1 x2) := by
  unfold State.updVec
  repeat' first | with_reducible assumption | exact Part.sub_of hp (by decide) | with_reducible apply Kept.foldl | with_reducible apply Kept.each | with_reducible refine Kept.ite (fun _ => ?_) (fun _ => ?_) | intro _ | (fail_if_no_progress with_reducible refine Kept.upd_of hp ?_ ?_ ?_ ?_ ?_ ?_ ?_ ?_ ?_ ?_ ?_ ?_ ?_ ?_ ?_ ?_ ?_ rfl rfl <;> try first | exact Or.inr rfl | exact Or.inl (by decide)) | (simp only [id_eq]; assumption) | dsimp only | split

theorem Kept.seenSync (h : Kept p a s) (hp : Part.sub { intc := true } p = true := by first | decide | (refine Part.sub_of (by assumption) ?_; decide))  : Kept p a s.seenSync :=
  Kept.each h (fun _ _ hb => iteInduction (fun _ => Kept.updVec hb hp) (fun _ => hb))

theorem Kept.srcEvent (h : Kept p a s) (hp : Part.sub { intc := true } p = true := by first | decide | (refine Part.sub_of (by assumption) ?_; decide)) : Kept p a (State.srcEvent s x1) := by
  unfold State.srcEvent
  repeat' first | with_reducible assumption | exact Part.sub_of hp (by decide) | with_reducible apply Kept.seenSync | with_reducible apply Kept.updVec | with_reducible apply Kept.foldl | with_reducible apply Kept.each | with_reducible refine Kept.ite (fun _ => ?_) (fun _ => ?_) | intro _ | (fail_if_no_progress with_reducible refine Kept.upd_of hp ?_ ?_ ?_ ?_ ?_ ?_ ?_ ?_ ?_ ?_ ?_ ?_ ?_ ?_ ?_ ?_ ?_ rfl rfl <;> try first | exact Or.inr rfl | exact Or.inl (by decide)) | (simp only [id_eq]; assumption) | dsimp only | split

theorem Kept.irqEdge (h : Kept p a s) (hp : Part.sub { intc := true } p = true := by first | decide | (refine Part.sub_of (by assumption) ?_; decide)) : Kept p a (State.irqEdge s x1) := by
  unfold State.irqEdge
  repeat' first | with_reducible assumption | exact Part.sub_of hp (by decide) | with_reducible apply Kept.srcEvent | with_reducible apply Kept.foldl | with_reducible apply Kept.each | with_reducible refine Kept.ite (fun _ => ?_) (fun _ => ?_) | intro _ | (fail_if_no_progress with_reducible refine Kept.upd_of hp ?_ ?_ ?_ ?_ ?_ ?_ ?_ ?_ ?_ ?_ ?_ ?_ ?_ ?_ ?_ ?_ ?_ rfl rfl <;> try first | exact Or.inr rfl | exact Or.inl (by decide)) | (simp only [id_eq]; assumption) | dsimp only | split

theorem Kept.putCompl (h : Kept p a s) (hp : Part.sub { hif := true, intc := true } p = true := by first | decide | (refine Part.sub_of (by assumption) ?_; decide)) : Kept p a (State.putCompl s x1) := by
  unfold State.putCompl
  repeat' first | with_reducible assumption | exact Part.sub_of hp (by decide) | with_reducible apply Kept.updRing | with_reducible apply Kept.hostWrite | with_reducible apply Kept.irqEdge | with_reducible apply Kept.foldl | with_reducible apply Kept.each | with_reducible refine Kept.ite (fun _ => ?_) (fun _ => ?_) | intro _ | (fail_if_no_progress with_reducible refine Kept.upd_of hp ?_ ?_ ?_ ?_ ?_ ?_ ?_ ?_ ?_ ?_ ?_ ?_ ?_ ?_ ?_ ?_ ?_ rfl rfl <;> try first | exact Or.inr rfl | exact Or.inl (by decide)) | (simp only [id_eq]; assumption) | dsimp only | split

theorem Kept.drainCheck (h : Kept p a s) (hp : Part.sub { hif := true } p = true := by first | decide | (refine Part.sub_of (by assumption) ?_; decide)) : Kept p a (State.drainCheck s x1) := by
  unfold State.drainCheck
  repeat' first | with_reducible assumption | exact Part.sub_of hp (by decide) | with_reducible apply Kept.updRing | with_reducible apply Kept.foldl | with_reducible apply Kept.each | with_reducible refine Kept.ite (fun _ => ?_) (fun _ => ?_) | intro _ | (fail_if_no_progress with_reducible refine Kept.upd_of hp ?_ ?_ ?_ ?_ ?_ ?_ ?_ ?_ ?_ ?_ ?_ ?_ ?_ ?_ ?_ ?_ ?_ rfl rfl <;> try first | exact Or.inr rfl | exact Or.inl (by decide)) | (simp only [id_eq]; assumption) | dsimp only | split

theorem Kept.askFlush (h : Kept p a s) (hp : Part.sub { recd := true } p = true := by first | decide | (refine Part.sub_of (by assumption) ?_; decide)) : Kept p a (State.askFlush s x1) := by
  unfold State.askFlush
  repeat' first | with_reducible assumption | exact Part.sub_of hp (by decide) | with_reducible apply Kept.foldl | with_reducible apply Kept.each | with_reducible refine Kept.ite (fun _ => ?_) (fun _ => ?_) | intro _ | (fail_if_no_progress with_reducible refine Kept.upd_of hp ?_ ?_ ?_ ?_ ?_ ?_ ?_ ?_ ?_ ?_ ?_ ?_ ?_ ?_ ?_ ?_ ?_ rfl rfl <;> try first | exact Or.inr rfl | exact Or.inl (by decide)) | (simp only [id_eq]; assumption) | dsimp only | split

theorem Kept.bufferPut (h : Kept p a s) (hp : Part.sub { recd := true } p = true := by first | decide | (refine Part.sub_of (by assumption) ?_; decide)) : Kept p a (State.bufferPut s x1 x2 x3 x4 x5) := by
  unfold State.bufferPut
  repeat' first | with_reducible assumption | exact Part.sub_of hp (by decide) | with_reducible apply Kept.askFlush | with_reducible apply Kept.foldl | with_reducible apply Kept.each | with_reducible refine Kept.ite (fun _ => ?_) (fun _ => ?_) | intro _ | (fail_if_no_progress with_reducible refine Kept.upd_of hp ?_ ?_ ?_ ?_ ?_ ?_ ?_ ?_ ?_ ?_ ?_ ?_ ?_ ?_ ?_ ?_ ?_ rfl rfl <;> try first | exact Or.inr rfl | exact Or.inl (by decide)) | (simp only [id_eq]; assumption) | dsimp only | split

theorem Kept.countDrop (h : Kept p a s) (hp : Part.sub { recd := true } p = true := by first | decide | (refine Part.sub_of (by assumption) ?_; decide)) : Kept p a (State.countDrop s x1) := by
  unfold State.countDrop
  repeat' first | with_reducible assumption | exact Part.sub_of hp (by decide) | with_reducible apply Kept.foldl | with_reducible apply Kept.each | with_reducible refine Kept.ite (fun _ => ?_) (fun _ => ?_) | intro _ | (fail_if_no_progress with_reducible refine Kept.upd_of hp ?_ ?_ ?_ ?_ ?_ ?_ ?_ ?_ ?_ ?_ ?_ ?_ ?_ ?_ ?_ ?_ ?_ rfl rfl <;> try first | exact Or.inr rfl | exact Or.inl (by decide)) | (simp only [id_eq]; assumption) | dsimp only | split

theorem Kept.updBucket (h : Kept p a s) (hp : Part.sub { recd := true } p = true := by first | decide | (refine Part.sub_of (by assumption) ?_; decide)) : Kept p a (State.updBucket s x1 x2) := by
  unfold State.updBucket
  repeat' first | with_reducible assumption | exact Part.sub_of hp (by decide) | with_reducible apply Kept.foldl | with_reducible apply Kept.each | with_reducible refine Kept.ite (fun _ => ?_) (fun _ => ?_) | intro _ | (fail_if_no_progress with_reducible refine Kept.upd_of hp ?_ ?_ ?_ ?_ ?_ ?_ ?_ ?_ ?_ ?_ ?_ ?_ ?_ ?_ ?_ ?_ ?_ rfl rfl <;> try first | exact Or.inr rfl | exact Or.inl (by decide)) | (simp only [id_eq]; assumption) | dsimp only | split

theorem Kept.bufferEnter (h : Kept p a s) (hp : Part.sub { recd := true } p = true := by first | decide | (refine Part.sub_of (by assumption) ?_; decide)) : Kept p a (s.bufferEnter x1 x2 x3 x4 x5).2 := by
  unfold State.bufferEnter
  split
  · exact Kept.bufferPut h
  · split
    · exact Kept.bufferPut (Kept.of hp h)
    · exact Kept.countDrop (Kept.updBucket h)

theorem Kept.record0 (h : Kept p a s) (hp : Part.sub { recd := true } p = true := by first | decide | (refine Part.sub_of (by assumption) ?_; decide)) : Kept p a (s.record0 x1 x2 x3 x4 x5).2 := by
  unfold State.record0
  dsimp only
  rw [apply_ite Prod.snd, apply_ite Prod.snd, apply_ite Prod.snd, apply_ite Prod.snd]
  exact Kept.ite (fun _ => h) (fun _ => Kept.ite (fun _ => Kept.countDrop h) (fun _ => Kept.ite (fun _ => Kept.bufferEnter h)
    (fun _ => Kept.ite (fun _ => Kept.updBucket h) (fun _ => Kept.bufferEnter (Kept.updBucket h)))))

theorem Kept.recordQ (h : Kept p a s) (hp : Part.sub { recd := true } p = true := by first | decide | (refine Part.sub_of (by assumption) ?_; decide)) : Kept p a (State.recordQ s x1 x2 x3 x4 x5) := by
  unfold State.recordQ
  exact Kept.record0 h

theorem Kept.sendCompl (h : Kept p a s) (hp : Part.sub { hif := true, intc := true, recd := true } p = true := by first | decide | (refine Part.sub_of (by assumption) ?_; decide)) : Kept p a (State.sendCompl s x1) := by
  unfold State.sendCompl
  repeat' first | with_reducible assumption | exact Part.sub_of hp (by decide) | with_reducible apply Kept.putCompl | with_reducible apply Kept.drainCheck | with_reducible apply Kept.recordQ | with_reducible apply Kept.foldl | with_reducible apply Kept.each | with_reducible refine Kept.ite (fun _ => ?_) (fun _ => ?_) | intro _ | (fail_if_no_progress with_reducible refine Kept.upd_of hp ?_ ?_ ?_ ?_ ?_ ?_ ?_ ?_ ?_ ?_ ?_ ?_ ?_ ?_ ?_ ?_ ?_ rfl rfl <;> try first | exact Or.inr rfl | exact Or.inl (by decide)) | (simp only [id_eq]; assumption) | dsimp only | split

theorem Kept.complete (h : Kept p a s) (hp : Part.sub { hif := true, intc := true, recd := true } p = true := by first | decide | (refine Part.sub_of (by assumption) ?_; decide)) : Kept p a (State.complete s x1 x2 x3 x4) := by
  unfold State.complete
  repeat' first | with_reducible assumption | exact Part.sub_of hp (by decide) | with_reducible apply Kept.sendCompl | with_reducible apply Kept.foldl | with_reducible apply Kept.each | with_reducible refine Kept.ite (fun _ => ?_) (fun _ => ?_) | intro _ | (fail_if_no_progress with_reducible refine Kept.upd_of hp ?_ ?_ ?_ ?_ ?_ ?_ ?_ ?_ ?_ ?_ ?_ ?_ ?_ ?_ ?_ ?_ ?_ rfl rfl <;> try first | exact Or.inr rfl | exact Or.inl (by decide)) | (simp only [id_eq]; assumption) | dsimp only | split

theorem Kept.abortSlotGainSet (h : Kept p a s) (hp : Part.sub { hif := true, intc := true, recd := true, gcl := true } p = true := by first | decide | (refine Part.sub_of (by assumption) ?_; decide)) : Kept p a (Sys2Proof.Machine.abortSlotGainSet x1 x2 s) := by
  unfold Sys2Proof.Machine.abortSlotGainSet
  repeat' first | with_reducible assumption | exact Part.sub_of hp (by decide) | with_reducible apply Kept.updGain | with_reducible apply Kept.complete | with_reducible apply Kept.foldl | with_reducible apply Kept.each | with_reducible refine Kept.ite (fun _ => ?_) (fun _ => ?_) | intro _ | (fail_if_no_progress with_reducible refine Kept.upd_of hp ?_ ?_ ?_ ?_ ?_ ?_ ?_ ?_ ?_ ?_ ?_ ?_ ?_ ?_ ?_ ?_ ?_ rfl rfl <;> try first | exact Or.inr rfl | exact Or.inl (by decide)) | (simp only [id_eq]; assumption) | dsimp only | split

theorem Kept.abortSetpoint (h : Kept p a s) (hp : Part.sub { hif := true, intc := true, recd := true, gcl := true } p = true := by first | decide | (refine Part.sub_of (by assumption) ?_; decide)) : Kept p a (Sys2Proof.Machine.abortSetpoint x1 x2 s) := by
  unfold Sys2Proof.Machine.abortSetpoint
  repeat' first | with_reducible assumption | exact Part.sub_of hp (by decide) | with_reducible apply Kept.complete | with_reducible apply Kept.updGain | with_reducible apply Kept.foldl | with_reducible apply Kept.each | with_reducible refine Kept.ite (fun _ => ?_) (fun _ => ?_) | intro _ | (fail_if_no_progress with_reducible refine Kept.upd_of hp ?_ ?_ ?_ ?_ ?_ ?_ ?_ ?_ ?_ ?_ ?_ ?_ ?_ ?_ ?_ ?_ ?_ rfl rfl <;> try first | exact Or.inr rfl | exact Or.inl (by decide)) | (simp only [id_eq]; assumption) | dsimp only | split

theorem Kept.updPend (h : Kept p a s) (hp : Part.sub { hif := true } p = true := by first | decide | (refine Part.sub_of (by assumption) ?_; decide)) : Kept p a (State.updPend s x1 x2) := by
  unfold State.updPend
  repeat' first | with_reducible assumption | exact Part.sub_of hp (by decide) | with_reducible apply Kept.foldl | with_reducible apply Kept.each | with_reducible refine Kept.ite (fun _ => ?_) (fun _ => ?_) | intro _ | (fail_if_no_progress with_reducible refine Kept.upd_of hp ?_ ?_ ?_ ?_ ?_ ?_ ?_ ?_ ?_ ?_ ?_ ?_ ?_ ?_ ?_ ?_ ?_ rfl rfl <;> try first | exact Or.inr rfl | exact Or.inl (by decide)) | (simp only [id_eq]; assumption) | dsimp only | split

theorem Kept.loadsStart (h : Kept p a s) (hp : Part.sub { hif := true } p = true := by first | decide | (refine Part.sub_of (by assumption) ?_; decide)) : Kept p a (State.loadsStart s x1) := by
  unfold State.loadsStart
  repeat' first | with_reducible assumption | exact Part.sub_of hp (by decide) | with_reducible apply Kept.updPend | with_reducible apply Kept.foldl | with_reducible apply Kept.each | with_reducible refine Kept.ite (fun _ => ?_) (fun _ => ?_) | intro _ | (fail_if_no_progress with_reducible refine Kept.upd_of hp ?_ ?_ ?_ ?_ ?_ ?_ ?_ ?_ ?_ ?_ ?_ ?_ ?_ ?_ ?_ ?_ ?_ rfl rfl <;> try first | exact Or.inr rfl | exact Or.inl (by decide)) | (simp only [id_eq]; assumption) | dsimp only | split

theorem Kept.updChain (h : Kept p a s) (hp : Part.sub { rfe := true } p = true := by first | decide | (refine Part.sub_of (by assumption) ?_; decide)) : Kept p a (State.updChain s x1 x2) := by
  unfold State.updChain
  repeat' first | with_reducible assumption | exact Part.sub_of hp (by decide) | with_reducible apply Kept.foldl | with_reducible apply Kept.each | with_reducible refine Kept.ite (fun _ => ?_) (fun _ => ?_) | intro _ | (fail_if_no_progress with_reducible refine Kept.upd_of hp ?_ ?_ ?_ ?_ ?_ ?_ ?_ ?_ ?_ ?_ ?_ ?_ ?_ ?_ ?_ ?_ ?_ rfl rfl <;> try first | exact Or.inr rfl | exact Or.inl (by decide)) | (simp only [id_eq]; assumption) | dsimp only | split

theorem Kept.abortWalk (h : Kept p a s) (hp : Part.sub { hif := true, intc := true, recd := true, rfe := true, freeCnt := true } p = true := by first | decide | (refine Part.sub_of (by assumption) ?_; decide)) : Kept p a (State.abortWalk s x1 x2) := by
  unfold State.abortWalk
  repeat' first | with_reducible assumption | exact Part.sub_of hp (by decide) | with_reducible apply Kept.complete | with_reducible apply Kept.updChain | with_reducible apply Kept.free | with_reducible apply Kept.foldl | with_reducible apply Kept.each | with_reducible refine Kept.ite (fun _ => ?_) (fun _ => ?_) | intro _ | (fail_if_no_progress with_reducible refine Kept.upd_of hp ?_ ?_ ?_ ?_ ?_ ?_ ?_ ?_ ?_ ?_ ?_ ?_ ?_ ?_ ?_ ?_ ?_ rfl rfl <;> try first | exact Or.inr rfl | exact Or.inl (by decide)) | (simp only [id_eq]; assumption) | dsimp only | split

theorem Kept.updFecb (h : Kept p a s) (hp : Part.sub { rfe := true } p = true := by first | decide | (refine Part.sub_of (by assumption) ?_; decide)) : Kept p a (State.updFecb s x1 x2) := by
  unfold State.updFecb
  repeat' first | with_reducible assumption | exact Part.sub_of hp (by decide) | with_reducible apply Kept.foldl | with_reducible apply Kept.each | with_reducible refine Kept.ite (fun _ => ?_) (fun _ => ?_) | intro _ | (fail_if_no_progress with_reducible refine Kept.upd_of hp ?_ ?_ ?_ ?_ ?_ ?_ ?_ ?_ ?_ ?_ ?_ ?_ ?_ ?_ ?_ ?_ ?_ rfl rfl <;> try first | exact Or.inr rfl | exact Or.inl (by decide)) | (simp only [id_eq]; assumption) | dsimp only | split

theorem Kept.updTx (h : Kept p a s) (hp : Part.sub { rfe := true } p = true := by first | decide | (refine Part.sub_of (by assumption) ?_; decide)) : Kept p a (State.updTx s x1 x2) := by
  unfold State.updTx
  repeat' first | with_reducible assumption | exact Part.sub_of hp (by decide) | with_reducible apply Kept.foldl | with_reducible apply Kept.each | with_reducible refine Kept.ite (fun _ => ?_) (fun _ => ?_) | intro _ | (fail_if_no_progress with_reducible refine Kept.upd_of hp ?_ ?_ ?_ ?_ ?_ ?_ ?_ ?_ ?_ ?_ ?_ ?_ ?_ ?_ ?_ ?_ ?_ rfl rfl <;> try first | exact Or.inr rfl | exact Or.inl (by decide)) | (simp only [id_eq]; assumption) | dsimp only | split

theorem Kept.dropFrames (h : Kept p a s) (hp : Part.sub { rfe := true } p = true := by first | decide | (refine Part.sub_of (by assumption) ?_; decide)) : Kept p a (State.dropFrames s x1) := by
  unfold State.dropFrames
  repeat' first | with_reducible assumption | exact Part.sub_of hp (by decide) | with_reducible apply Kept.each | with_reducible apply Kept.updFecb | with_reducible apply Kept.updTx | with_reducible apply Kept.foldl | with_reducible apply Kept.each | with_reducible refine Kept.ite (fun _ => ?_) (fun _ => ?_) | intro _ | (fail_if_no_progress with_reducible refine Kept.upd_of hp ?_ ?_ ?_ ?_ ?_ ?_ ?_ ?_ ?_ ?_ ?_ ?_ ?_ ?_ ?_ ?_ ?_ rfl rfl <;> try first | exact Or.inr rfl | exact Or.inl (by decide)) | (simp only [id_eq]; assumption) | dsimp only | split

theorem Kept.completeId (h : Kept p a s) (hp : Part.sub { hif := true, intc := true, recd := true } p = true := by first | decide | (refine Part.sub_of (by assumption) ?_; decide)) : Kept p a (State.completeId s x1 x2 x3 x4) := by
  unfold State.completeId
  repeat' first | with_reducible assumption | exact Part.sub_of hp (by decide) | with_reducible apply Kept.complete | with_reducible apply Kept.foldl | with_reducible apply Kept.each | with_reducible refine Kept.ite (fun _ => ?_) (fun _ => ?_) | intro _ | (fail_if_no_progress with_reducible refine Kept.upd_of hp ?_ ?_ ?_ ?_ ?_ ?_ ?_ ?_ ?_ ?_ ?_ ?_ ?_ ?_ ?_ ?_ ?_ rfl rfl <;> try first | exact Or.inr rfl | exact Or.inl (by decide)) | (simp only [id_eq]; assumption) | dsimp only | split

theorem Kept.updInst (h : Kept p a s) (hp : Part.sub { cx := true } p = true := by first | decide | (refine Part.sub_of (by assumption) ?_; decide)) : Kept p a (State.updInst s x1 x2) := by
  unfold State.updInst
  repeat' first | with_reducible assumption | exact Part.sub_of hp (by decide) | with_reducible apply Kept.foldl | with_reducible apply Kept.each | with_reducible refine Kept.ite (fun _ => ?_) (fun _ => ?_) | intro _ | (fail_if_no_progress with_reducible refine Kept.upd_of hp ?_ ?_ ?_ ?_ ?_ ?_ ?_ ?_ ?_ ?_ ?_ ?_ ?_ ?_ ?_ ?_ ?_ rfl rfl <;> try first | exact Or.inr rfl | exact Or.inl (by decide)) | (simp only [id_eq]; assumption) | dsimp only | split

theorem Kept.seedDrop (h : Kept p a s) (hp : Part.sub { hif := true, intc := true, recd := true, cx := true } p = true := by first | decide | (refine Part.sub_of (by assumption) ?_; decide)) : Kept p a (State.seedDrop s x1 x2) := by
  unfold State.seedDrop
  repeat' first | with_reducible assumption | exact Part.sub_of hp (by decide) | with_reducible apply Kept.completeId | with_reducible apply Kept.updInst | with_reducible apply Kept.foldl | with_reducible apply Kept.each | with_reducible refine Kept.ite (fun _ => ?_) (fun _ => ?_) | intro _ | (fail_if_no_progress with_reducible refine Kept.upd_of hp ?_ ?_ ?_ ?_ ?_ ?_ ?_ ?_ ?_ ?_ ?_ ?_ ?_ ?_ ?_ ?_ ?_ rfl rfl <;> try first | exact Or.inr rfl | exact Or.inl (by decide)) | (simp only [id_eq]; assumption) | dsimp only | split

theorem Kept.updLut (h : Kept p a s) (hp : Part.sub { luts := true } p = true := by first | decide | (refine Part.sub_of (by assumption) ?_; decide)) : Kept p a (State.updLut s x1 x2) := by
  unfold State.updLut
  repeat' first | with_reducible assumption | exact Part.sub_of hp (by decide) | with_reducible apply Kept.foldl | with_reducible apply Kept.each | with_reducible refine Kept.ite (fun _ => ?_) (fun _ => ?_) | intro _ | (fail_if_no_progress with_reducible refine Kept.upd_of hp ?_ ?_ ?_ ?_ ?_ ?_ ?_ ?_ ?_ ?_ ?_ ?_ ?_ ?_ ?_ ?_ ?_ rfl rfl <;> try first | exact Or.inr rfl | exact Or.inl (by decide)) | (simp only [id_eq]; assumption) | dsimp only | split

theorem Kept.updObj (h : Kept p a s) (hp : Part.sub { prot := true } p = true := by first | decide | (refine Part.sub_of (by assumption) ?_; decide)) : Kept p a (State.updObj s x1 x2) := by
  unfold State.updObj
  repeat' first | with_reducible assumption | exact Part.sub_of hp (by decide) | with_reducible apply Kept.foldl | with_reducible apply Kept.each | with_reducible refine Kept.ite (fun _ => ?_) (fun _ => ?_) | intro _ | (fail_if_no_progress with_reducible refine Kept.upd_of hp ?_ ?_ ?_ ?_ ?_ ?_ ?_ ?_ ?_ ?_ ?_ ?_ ?_ ?_ ?_ ?_ ?_ rfl rfl <;> try first | exact Or.inr rfl | exact Or.inl (by decide)) | (simp only [id_eq]; assumption) | dsimp only | split

theorem Kept.abortRelease (h : Kept p a s) (hp : Part.sub { hif := true, intc := true, recd := true, prot := true } p = true := by first | decide | (refine Part.sub_of (by assumption) ?_; decide)) : Kept p a (State.abortRelease s x1 x2) := by
  unfold State.abortRelease
  repeat' first | with_reducible assumption | exact Part.sub_of hp (by decide) | with_reducible apply Kept.complete | with_reducible apply Kept.updObj | with_reducible apply Kept.foldl | with_reducible apply Kept.each | with_reducible refine Kept.ite (fun _ => ?_) (fun _ => ?_) | intro _ | (fail_if_no_progress with_reducible refine Kept.upd_of hp ?_ ?_ ?_ ?_ ?_ ?_ ?_ ?_ ?_ ?_ ?_ ?_ ?_ ?_ ?_ ?_ ?_ rfl rfl <;> try first | exact Or.inr rfl | exact Or.inl (by decide)) | (simp only [id_eq]; assumption) | dsimp only | split

theorem Kept.updTask (h : Kept p a s) (hp : Part.sub { le := true } p = true := by first | decide | (refine Part.sub_of (by assumption) ?_; decide)) : Kept p a (State.updTask s x1 x2) := by
  unfold State.updTask
  repeat' first | with_reducible assumption | exact Part.sub_of hp (by decide) | with_reducible apply Kept.foldl | with_reducible apply Kept.each | with_reducible refine Kept.ite (fun _ => ?_) (fun _ => ?_) | intro _ | (fail_if_no_progress with_reducible refine Kept.upd_of hp ?_ ?_ ?_ ?_ ?_ ?_ ?_ ?_ ?_ ?_ ?_ ?_ ?_ ?_ ?_ ?_ ?_ rfl rfl <;> try first | exact Or.inr rfl | exact Or.inl (by decide)) | (simp only [id_eq]; assumption) | dsimp only | split

theorem Kept.capSlot (h : Kept p a s) (hp : Part.sub { gcl := true } p = true := by first | decide | (refine Part.sub_of (by assumption) ?_; decide)) : Kept p a (State.capSlot s x1) := by
  unfold State.capSlot
  repeat' first | with_reducible assumption | exact Part.sub_of hp (by decide) | with_reducible apply Kept.updGain | with_reducible apply Kept.foldl | with_reducible apply Kept.each | with_reducible refine Kept.ite (fun _ => ?_) (fun _ => ?_) | intro _ | (fail_if_no_progress with_reducible refine Kept.upd_of hp ?_ ?_ ?_ ?_ ?_ ?_ ?_ ?_ ?_ ?_ ?_ ?_ ?_ ?_ ?_ ?_ ?_ rfl rfl <;> try first | exact Or.inr rfl | exact Or.inl (by decide)) | (simp only [id_eq]; assumption) | dsimp only | split

theorem Kept.capAll (h : Kept p a s) (hp : Part.sub { gcl := true } p = true := by first | decide | (refine Part.sub_of (by assumption) ?_; decide)) : Kept p a (State.capAll s) := by
  unfold State.capAll
  repeat' first | with_reducible assumption | exact Part.sub_of hp (by decide) | with_reducible apply Kept.each | with_reducible apply Kept.capSlot | with_reducible apply Kept.foldl | with_reducible apply Kept.each | with_reducible refine Kept.ite (fun _ => ?_) (fun _ => ?_) | intro _ | (fail_if_no_progress with_reducible refine Kept.upd_of hp ?_ ?_ ?_ ?_ ?_ ?_ ?_ ?_ ?_ ?_ ?_ ?_ ?_ ?_ ?_ ?_ ?_ rfl rfl <;> try first | exact Or.inr rfl | exact Or.inl (by decide)) | (simp only [id_eq]; assumption) | dsimp only | split

theorem Kept.updEng (h : Kept p a s) (hp : Part.sub { le := true } p = true := by first | decide | (refine Part.sub_of (by assumption) ?_; decide)) : Kept p a (State.updEng s x1 x2) := by
  unfold State.updEng
  repeat' first | with_reducible assumption | exact Part.sub_of hp (by decide) | with_reducible apply Kept.foldl | with_reducible apply Kept.each | with_reducible refine Kept.ite (fun _ => ?_) (fun _ => ?_) | intro _ | (fail_if_no_progress with_reducible refine Kept.upd_of hp ?_ ?_ ?_ ?_ ?_ ?_ ?_ ?_ ?_ ?_ ?_ ?_ ?_ ?_ ?_ ?_ ?_ rfl rfl <;> try first | exact Or.inr rfl | exact Or.inl (by decide)) | (simp only [id_eq]; assumption) | dsimp only | split

theorem Kept.stopTask (h : Kept p a s) (hp : Part.sub { hif := true, intc := true, recd := true, le := true } p = true := by first | decide | (refine Part.sub_of (by assumption) ?_; decide)) : Kept p a (State.stopTask s x1 x2) := by
  unfold State.stopTask
  repeat' first | with_reducible assumption | exact Part.sub_of hp (by decide) | with_reducible apply Kept.updEng | with_reducible apply Kept.completeId | with_reducible apply Kept.updTask | with_reducible apply Kept.foldl | with_reducible apply Kept.each | with_reducible refine Kept.ite (fun _ => ?_) (fun _ => ?_) | intro _ | (fail_if_no_progress with_reducible refine Kept.upd_of hp ?_ ?_ ?_ ?_ ?_ ?_ ?_ ?_ ?_ ?_ ?_ ?_ ?_ ?_ ?_ ?_ ?_ rfl rfl <;> try first | exact Or.inr rfl | exact Or.inl (by decide)) | (simp only [id_eq]; assumption) | dsimp only | split

theorem Kept.libAgcSync (h : Kept p a s) (hp : Part.sub { hif := true, intc := true, recd := true, le := true } p = true := by first | decide | (refine Part.sub_of (by assumption) ?_; decide)) : Kept p a (State.libAgcSync s x1) := by
  unfold State.libAgcSync
  repeat' first | with_reducible assumption | exact Part.sub_of hp (by decide) | with_reducible apply Kept.updTask | with_reducible apply Kept.stopTask | with_reducible apply Kept.foldl | with_reducible apply Kept.each | with_reducible refine Kept.ite (fun _ => ?_) (fun _ => ?_) | intro _ | (fail_if_no_progress with_reducible refine Kept.upd_of hp ?_ ?_ ?_ ?_ ?_ ?_ ?_ ?_ ?_ ?_ ?_ ?_ ?_ ?_ ?_ ?_ ?_ rfl rfl <;> try first | exact Or.inr rfl | exact Or.inl (by decide)) | (simp only [id_eq]; assumption) | dsimp only | split

theorem Kept.libPlace (h : Kept p a s) (hp : Part.sub { hif := true, intc := true, recd := true, gcl := true, le := true } p = true := by first | decide | (refine Part.sub_of (by assumption) ?_; decide)) : Kept p a (State.libPlace s) := by
  unfold State.libPlace
  repeat' first | with_reducible assumption | exact Part.sub_of hp (by decide) | with_reducible apply Kept.updTask | with_reducible apply Kept.capAll | with_reducible apply Kept.each | with_reducible apply Kept.libAgcSync | with_reducible apply Kept.foldl | with_reducible apply Kept.each | with_reducible refine Kept.ite (fun _ => ?_) (fun _ => ?_) | intro _ | (fail_if_no_progress with_reducible refine Kept.upd_of hp ?_ ?_ ?_ ?_ ?_ ?_ ?_ ?_ ?_ ?_ ?_ ?_ ?_ ?_ ?_ ?_ ?_ rfl rfl <;> try first | exact Or.inr rfl | exact Or.inl (by decide)) | (simp only [id_eq]; assumption) | dsimp only | split

theorem Kept.captNext (h : Kept p a s) (hp : Part.sub { hif := true } p = true := by first | decide | (refine Part.sub_of (by assumption) ?_; decide)) : Kept p a (State.captNext s) := by
  unfold State.captNext
  repeat' first | with_reducible assumption | exact Part.sub_of hp (by decide) | with_reducible apply Kept.foldl | with_reducible apply Kept.each | with_reducible refine Kept.ite (fun _ => ?_) (fun _ => ?_) | intro _ | (fail_if_no_progress with_reducible refine Kept.upd_of hp ?_ ?_ ?_ ?_ ?_ ?_ ?_ ?_ ?_ ?_ ?_ ?_ ?_ ?_ ?_ ?_ ?_ rfl rfl <;> try first | exact Or.inr rfl | exact Or.inl (by decide)) | (simp only [id_eq]; assumption) | dsimp only | split

theorem Kept.captAbort (h : Kept p a s) (hp : Part.sub { hif := true, intc := true, recd := true, freeCnt := true } p = true := by first | decide | (refine Part.sub_of (by assumption) ?_; decide)) : Kept p a (State.captAbort s x1) := by
  unfold State.captAbort
  repeat' first | with_reducible assumption | exact Part.sub_of hp (by decide) | with_reducible apply Kept.complete | with_reducible apply Kept.captNext | with_reducible apply Kept.free | with_reducible apply Kept.foldl | with_reducible apply Kept.each | with_reducible refine Kept.ite (fun _ => ?_) (fun _ => ?_) | intro _ | (fail_if_no_progress with_reducible refine Kept.upd_of hp ?_ ?_ ?_ ?_ ?_ ?_ ?_ ?_ ?_ ?_ ?_ ?_ ?_ ?_ ?_ ?_ ?_ rfl rfl <;> try first | exact Or.inr rfl | exact Or.inl (by decide)) | (simp only [id_eq]; assumption) | dsimp only | split

theorem Kept.updStrm (h : Kept p a s) (hp : Part.sub { jl := true } p = true := by first | decide | (refine Part.sub_of (by assumption) ?_; decide)) : Kept p a (State.updStrm s x1 x2) := by
  unfold State.updStrm
  repeat' first | with_reducible assumption | exact Part.sub_of hp (by decide) | with_reducible apply Kept.foldl | with_reducible apply Kept.each | with_reducible refine Kept.ite (fun _ => ?_) (fun _ => ?_) | intro _ | (fail_if_no_progress with_reducible refine Kept.upd_of hp ?_ ?_ ?_ ?_ ?_ ?_ ?_ ?_ ?_ ?_ ?_ ?_ ?_ ?_ ?_ ?_ ?_ rfl rfl <;> try first | exact Or.inr rfl | exact Or.inl (by decide)) | (simp only [id_eq]; assumption) | dsimp only | split

theorem Kept.updPort (h : Kept p a s) (hp : Part.sub { jl := true } p = true := by first | decide | (refine Part.sub_of (by assumption) ?_; decide)) : Kept p a (State.updPort s x1 x2) := by
  unfold State.updPort
  repeat' first | with_reducible assumption | exact Part.sub_of hp (by decide) | with_reducible apply Kept.foldl | with_reducible apply Kept.each | with_reducible refine Kept.ite (fun _ => ?_) (fun _ => ?_) | intro _ | (fail_if_no_progress with_reducible refine Kept.upd_of hp ?_ ?_ ?_ ?_ ?_ ?_ ?_ ?_ ?_ ?_ ?_ ?_ ?_ ?_ ?_ ?_ ?_ rfl rfl <;> try first | exact Or.inr rfl | exact Or.inl (by decide)) | (simp only [id_eq]; assumption) | dsimp only | split

theorem Kept.portSend (h : Kept p a s) (hp : Part.sub { jl := true } p = true := by first | decide | (refine Part.sub_of (by assumption) ?_; decide)) : Kept p a (State.portSend s x1 x2) := by
  unfold State.portSend
  repeat' first | with_reducible assumption | exact Part.sub_of hp (by decide) | with_reducible apply Kept.updPort | with_reducible apply Kept.foldl | with_reducible apply Kept.each | with_reducible refine Kept.ite (fun _ => ?_) (fun _ => ?_) | intro _ | (fail_if_no_progress with_reducible refine Kept.upd_of hp ?_ ?_ ?_ ?_ ?_ ?_ ?_ ?_ ?_ ?_ ?_ ?_ ?_ ?_ ?_ ?_ ?_ rfl rfl <;> try first | exact Or.inr rfl | exact Or.inl (by decide)) | (simp only [id_eq]; assumption) | dsimp only | split

theorem Kept.openFails (h : Kept p a s) (hp : Part.sub { hif := true, intc := true, recd := true, jl := true } p = true := by first | decide | (refine Part.sub_of (by assumption) ?_; decide)) : Kept p a (State.openFails s x1 x2 x3 x4) := by
  unfold State.openFails
  repeat' first | with_reducible assumption | exact Part.sub_of hp (by decide) | with_reducible apply Kept.updStrm | with_reducible apply Kept.completeId | with_reducible apply Kept.portSend | with_reducible apply Kept.updPort | with_reducible apply Kept.foldl | with_reducible apply Kept.each | with_reducible refine Kept.ite (fun _ => ?_) (fun _ => ?_) | intro _ | (fail_if_no_progress with_reducible refine Kept.upd_of hp ?_ ?_ ?_ ?_ ?_ ?_ ?_ ?_ ?_ ?_ ?_ ?_ ?_ ?_ ?_ ?_ ?_ rfl rfl <;> try first | exact Or.inr rfl | exact Or.inl (by decide)) | (simp only [id_eq]; assumption) | dsimp only | split

theorem Kept.abortPend (h : Kept p a s) (hp : Part.sub { hif := true, intc := true, recd := true, rfe := true, cx := true, gcl := true, luts := true, prot := true, le := true, jl := true, freeCnt := true } p = true := by first | decide | (refine Part.sub_of (by assumption) ?_; decide)) : Kept p a (State.abortPend s x1) := by
  unfold State.abortPend
  repeat' first | with_reducible assumption | exact Part.sub_of hp (by decide) | with_reducible apply Kept.abortSlotGainSet | with_reducible apply Kept.abortSetpoint | with_reducible apply Kept.loadsStart | with_reducible apply Kept.complete | with_reducible apply Kept.abortWalk | with_reducible apply Kept.dropFrames | with_reducible apply Kept.seedDrop | with_reducible apply Kept.updLut | with_reducible apply Kept.abortRelease | with_reducible apply Kept.libPlace | with_reducible apply Kept.stopTask | with_reducible apply Kept.captAbort | with_reducible apply Kept.openFails | with_reducible apply Kept.updStrm | with_reducible apply Kept.free | with_reducible apply Kept.foldl | with_reducible apply Kept.each | with_reducible refine Kept.ite (fun _ => ?_) (fun _ => ?_) | intro _ | (fail_if_no_progress with_reducible refine Kept.upd_of hp ?_ ?_ ?_ ?_ ?_ ?_ ?_ ?_ ?_ ?_ ?_ ?_ ?_ ?_ ?_ ?_ ?_ rfl rfl <;> try first | exact Or.inr rfl | exact Or.inl (by decide)) | (simp only [id_eq]; assumption) | dsimp only | split

theorem Kept.pass (h : Kept p a s) (hp : Part.sub { hif := true } p = true := by first | decide | (refine Part.sub_of (by assumption) ?_; decide)) : Kept p a (State.pass s x1) := by
  unfold State.pass
  repeat' first | with_reducible assumption | exact Part.sub_of hp (by decide) | with_reducible apply Kept.updRing | with_reducible apply Kept.foldl | with_reducible apply Kept.each | with_reducible refine Kept.ite (fun _ => ?_) (fun _ => ?_) | intro _ | (fail_if_no_progress with_reducible refine Kept.upd_of hp ?_ ?_ ?_ ?_ ?_ ?_ ?_ ?_ ?_ ?_ ?_ ?_ ?_ ?_ ?_ ?_ ?_ rfl rfl <;> try first | exact Or.inr rfl | exact Or.inl (by decide)) | (simp only [id_eq]; assumption) | dsimp only | split

theorem Kept.startAbort (h : Kept p a s) (hp : Part.sub { hif := true, intc := true, recd := true, rfe := true, cx := true, gcl := true, luts := true, prot := true, le := true, jl := true, freeCnt := true } p = true := by first | decide | (refine Part.sub_of (by assumption) ?_; decide)) : Kept p a (Sys2Proof.Machine.startAbort x1 x2 x3 s) := by
  unfold Sys2Proof.Machine.startAbort
  repeat' first | with_reducible assumption | exact Part.sub_of hp (by decide) | with_reducible apply Kept.complete | with_reducible apply Kept.abortPend | with_reducible apply Kept.foldl | with_reducible apply Kept.each | with_reducible refine Kept.ite (fun _ => ?_) (fun _ => ?_) | intro _ | (fail_if_no_progress with_reducible refine Kept.upd_of hp ?_ ?_ ?_ ?_ ?_ ?_ ?_ ?_ ?_ ?_ ?_ ?_ ?_ ?_ ?_ ?_ ?_ rfl rfl <;> try first | exact Or.inr rfl | exact Or.inl (by decide)) | (simp only [id_eq]; assumption) | dsimp only | split

theorem Kept.updSlot (h : Kept p a s) (hp : Part.sub { slots := true } p = true := by first | decide | (refine Part.sub_of (by assumption) ?_; decide)) : Kept p a (State.updSlot s x1 x2) := by
  unfold State.updSlot
  repeat' first | with_reducible assumption | exact Part.sub_of hp (by decide) | with_reducible apply Kept.foldl | with_reducible apply Kept.each | with_reducible refine Kept.ite (fun _ => ?_) (fun _ => ?_) | intro _ | (fail_if_no_progress with_reducible refine Kept.upd_of hp ?_ ?_ ?_ ?_ ?_ ?_ ?_ ?_ ?_ ?_ ?_ ?_ ?_ ?_ ?_ ?_ ?_ rfl rfl <;> try first | exact Or.inr rfl | exact Or.inl (by decide)) | (simp only [id_eq]; assumption) | dsimp only | split

theorem Kept.slotSupersede (h : Kept p a s) (hp : Part.sub { hif := true, intc := true, recd := true, slots := true } p = true := by first | decide | (refine Part.sub_of (by assumption) ?_; decide)) : Kept p a (State.slotSupersede s x1) := by
  unfold State.slotSupersede
  repeat' first | with_reducible assumption | exact Part.sub_of hp (by decide) | with_reducible apply Kept.complete | with_reducible apply Kept.updSlot | with_reducible apply Kept.foldl | with_reducible apply Kept.each | with_reducible refine Kept.ite (fun _ => ?_) (fun _ => ?_) | intro _ | (fail_if_no_progress with_reducible refine Kept.upd_of hp ?_ ?_ ?_ ?_ ?_ ?_ ?_ ?_ ?_ ?_ ?_ ?_ ?_ ?_ ?_ ?_ ?_ rfl rfl <;> try first | exact Or.inr rfl | exact Or.inl (by decide)) | (simp only [id_eq]; assumption) | dsimp only | split

theorem Kept.startSlotConfig (h : Kept p a s) (hp : Part.sub { hif := true, intc := true, recd := true, slots := true, gcl := true, jl := true } p = true := by first | decide | (refine Part.sub_of (by assumption) ?_; decide)) : Kept p a (Sys2Proof.Machine.startSlotConfig x1 x2 x3 x4 x5 x6 x7 x8 x9 x10 s) := by
  unfold Sys2Proof.Machine.startSlotConfig
  repeat' first | with_reducible assumption | exact Part.sub_of hp (by decide) | with_reducible apply Kept.slotSupersede | with_reducible apply Kept.complete | with_reducible apply Kept.capAll | with_reducible apply Kept.updSlot | with_reducible apply Kept.updGain | with_reducible apply Kept.foldl | with_reducible apply Kept.each | with_reducible refine Kept.ite (fun _ => ?_) (fun _ => ?_) | intro _ | (fail_if_no_progress with_reducible refine Kept.upd_of hp ?_ ?_ ?_ ?_ ?_ ?_ ?_ ?_ ?_ ?_ ?_ ?_ ?_ ?_ ?_ ?_ ?_ rfl rfl <;> try first | exact Or.inr rfl | exact Or.inl (by decide)) | (simp only [id_eq]; assumption) | dsimp only | split

theorem Kept.startSlotEnable (h : Kept p a s) (hp : Part.sub { hif := true, intc := true, recd := true } p = true := by first | decide | (refine Part.sub_of (by assumption) ?_; decide)) : Kept p a (Sys2Proof.Machine.startSlotEnable x1 x2 s) := by
  unfold Sys2Proof.Machine.startSlotEnable
  repeat' first | with_reducible assumption | exact Part.sub_of hp (by decide) | with_reducible apply Kept.complete | with_reducible apply Kept.foldl | with_reducible apply Kept.each | with_reducible refine Kept.ite (fun _ => ?_) (fun _ => ?_) | intro _ | (fail_if_no_progress with_reducible refine Kept.upd_of hp ?_ ?_ ?_ ?_ ?_ ?_ ?_ ?_ ?_ ?_ ?_ ?_ ?_ ?_ ?_ ?_ ?_ rfl rfl <;> try first | exact Or.inr rfl | exact Or.inl (by decide)) | (simp only [id_eq]; assumption) | dsimp only | split

theorem Kept.startSlotDisable (h : Kept p a s) (hp : Part.sub { hif := true, intc := true, recd := true } p = true := by first | decide | (refine Part.sub_of (by assumption) ?_; decide)) : Kept p a (Sys2Proof.Machine.startSlotDisable x1 x2 s) := by
  unfold Sys2Proof.Machine.startSlotDisable
  repeat' first | with_reducible assumption | exact Part.sub_of hp (by decide) | with_reducible apply Kept.complete | with_reducible apply Kept.foldl | with_reducible apply Kept.each | with_reducible refine Kept.ite (fun _ => ?_) (fun _ => ?_) | intro _ | (fail_if_no_progress with_reducible refine Kept.upd_of hp ?_ ?_ ?_ ?_ ?_ ?_ ?_ ?_ ?_ ?_ ?_ ?_ ?_ ?_ ?_ ?_ ?_ rfl rfl <;> try first | exact Or.inr rfl | exact Or.inl (by decide)) | (simp only [id_eq]; assumption) | dsimp only | split

theorem Kept.endGainSets (h : Kept p a s) (hp : Part.sub { hif := true, intc := true, recd := true } p = true := by first | decide | (refine Part.sub_of (by assumption) ?_; decide)) : Kept p a (State.endGainSets s x1 x2) := by
  unfold State.endGainSets
  repeat' first | with_reducible assumption | exact Part.sub_of hp (by decide) | with_reducible apply Kept.complete | with_reducible apply Kept.foldl | with_reducible apply Kept.each | with_reducible refine Kept.ite (fun _ => ?_) (fun _ => ?_) | intro _ | (fail_if_no_progress with_reducible refine Kept.upd_of hp ?_ ?_ ?_ ?_ ?_ ?_ ?_ ?_ ?_ ?_ ?_ ?_ ?_ ?_ ?_ ?_ ?_ rfl rfl <;> try first | exact Or.inr rfl | exact Or.inl (by decide)) | (simp only [id_eq]; assumption) | dsimp only | split

theorem Kept.gainSetCheck (h : Kept p a s) (hp : Part.sub { hif := true, intc := true, recd := true } p = true := by first | decide | (refine Part.sub_of (by assumption) ?_; decide)) : Kept p a (State.gainSetCheck s x1) := by
  unfold State.gainSetCheck
  repeat' first | with_reducible assumption | exact Part.sub_of hp (by decide) | with_reducible apply Kept.endGainSets | with_reducible apply Kept.foldl | with_reducible apply Kept.each | with_reducible refine Kept.ite (fun _ => ?_) (fun _ => ?_) | intro _ | (fail_if_no_progress with_reducible refine Kept.upd_of hp ?_ ?_ ?_ ?_ ?_ ?_ ?_ ?_ ?_ ?_ ?_ ?_ ?_ ?_ ?_ ?_ ?_ rfl rfl <;> try first | exact Or.inr rfl | exact Or.inl (by decide)) | (simp only [id_eq]; assumption) | dsimp only | split

theorem Kept.startSlotGainSet (h : Kept p a s) (hp : Part.sub { hif := true, intc := true, recd := true, gcl := true } p = true := by first | decide | (refine Part.sub_of (by assumption) ?_; decide)) : Kept p a (Sys2Proof.Machine.startSlotGainSet x1 x2 x3 s) := by
  unfold Sys2Proof.Machine.startSlotGainSet
  repeat' first | with_reducible assumption | exact Part.sub_of hp (by decide) | with_reducible apply Kept.updGain | with_reducible apply Kept.complete | with_reducible apply Kept.gainSetCheck | with_reducible apply Kept.foldl | with_reducible apply Kept.each | with_reducible refine Kept.ite (fun _ => ?_) (fun _ => ?_) | intro _ | (fail_if_no_progress with_reducible refine Kept.upd_of hp ?_ ?_ ?_ ?_ ?_ ?_ ?_ ?_ ?_ ?_ ?_ ?_ ?_ ?_ ?_ ?_ ?_ rfl rfl <;> try first | exact Or.inr rfl | exact Or.inl (by decide)) | (simp only [id_eq]; assumption) | dsimp only | split

theorem Kept.startSlotCoefLoad (h : Kept p a s) (hp : Part.sub { hif := true } p = true := by first | decide | (refine Part.sub_of (by assumption) ?_; decide)) : Kept p a (Sys2Proof.Machine.startSlotCoefLoad x1 s) := by
  unfold Sys2Proof.Machine.startSlotCoefLoad
  repeat' first | with_reducible assumption | exact Part.sub_of hp (by decide) | with_reducible apply Kept.loadsStart | with_reducible apply Kept.foldl | with_reducible apply Kept.each | with_reducible refine Kept.ite (fun _ => ?_) (fun _ => ?_) | intro _ | (fail_if_no_progress with_reducible refine Kept.upd_of hp ?_ ?_ ?_ ?_ ?_ ?_ ?_ ?_ ?_ ?_ ?_ ?_ ?_ ?_ ?_ ?_ ?_ rfl rfl <;> try first | exact Or.inr rfl | exact Or.inl (by decide)) | (simp only [id_eq]; assumption) | dsimp only | split

theorem Kept.startSlotBankSwap (h : Kept p a s) (hp : Part.sub { hif := true, intc := true, recd := true, slots := true } p = true := by first | decide | (refine Part.sub_of (by assumption) ?_; decide)) : Kept p a (Sys2Proof.Machine.startSlotBankSwap x1 x2 s) := by
  unfold Sys2Proof.Machine.startSlotBankSwap
  repeat' first | with_reducible assumption | exact Part.sub_of hp (by decide) | with_reducible apply Kept.loadsStart | with_reducible apply Kept.updSlot | with_reducible apply Kept.complete | with_reducible apply Kept.updPend | with_reducible apply Kept.foldl | with_reducible apply Kept.each | with_reducible refine Kept.ite (fun _ => ?_) (fun _ => ?_) | intro _ | (fail_if_no_progress with_reducible refine Kept.upd_of hp ?_ ?_ ?_ ?_ ?_ ?_ ?_ ?_ ?_ ?_ ?_ ?_ ?_ ?_ ?_ ?_ ?_ rfl rfl <;> try first | exact Or.inr rfl | exact Or.inl (by decide)) | (simp only [id_eq]; assumption) | dsimp only | split

theorem Kept.chainSync (h : Kept p a s) (hp : Part.sub { rfe := true } p = true := by first | decide | (refine Part.sub_of (by assumption) ?_; decide)) : Kept p a (State.chainSync s x1) := by
  unfold State.chainSync
  repeat' first | with_reducible assumption | exact Part.sub_of hp (by decide) | with_reducible apply Kept.updChain | with_reducible apply Kept.foldl | with_reducible apply Kept.each | with_reducible refine Kept.ite (fun _ => ?_) (fun _ => ?_) | intro _ | (fail_if_no_progress with_reducible refine Kept.upd_of hp ?_ ?_ ?_ ?_ ?_ ?_ ?_ ?_ ?_ ?_ ?_ ?_ ?_ ?_ ?_ ?_ ?_ rfl rfl <;> try first | exact Or.inr rfl | exact Or.inl (by decide)) | (simp only [id_eq]; assumption) | dsimp only | split

theorem Kept.walkBegin (h : Kept p a s) (hp : Part.sub { hif := true, rfe := true } p = true := by first | decide | (refine Part.sub_of (by assumption) ?_; decide)) : Kept p a (State.walkBegin s x1 x2 x3) := by
  unfold State.walkBegin
  repeat' first | with_reducible assumption | exact Part.sub_of hp (by decide) | with_reducible apply Kept.updPend | with_reducible apply Kept.updChain | with_reducible apply Kept.foldl | with_reducible apply Kept.each | with_reducible refine Kept.ite (fun _ => ?_) (fun _ => ?_) | intro _ | (fail_if_no_progress with_reducible refine Kept.upd_of hp ?_ ?_ ?_ ?_ ?_ ?_ ?_ ?_ ?_ ?_ ?_ ?_ ?_ ?_ ?_ ?_ ?_ rfl rfl <;> try first | exact Or.inr rfl | exact Or.inl (by decide)) | (simp only [id_eq]; assumption) | dsimp only | split

theorem Kept.startChainState (h : Kept p a s) (hp : Part.sub { hif := true, intc := true, recd := true, rfe := true } p = true := by first | decide | (refine Part.sub_of (by assumption) ?_; decide)) : Kept p a (Sys2Proof.Machine.startChainState x1 x2 x3 s) := by
  unfold Sys2Proof.Machine.startChainState
  repeat' first | with_reducible assumption | exact Part.sub_of hp (by decide) | with_reducible apply Kept.updChain | with_reducible apply Kept.chainSync | with_reducible apply Kept.complete | with_reducible apply Kept.walkBegin | with_reducible apply Kept.foldl | with_reducible apply Kept.each | with_reducible refine Kept.ite (fun _ => ?_) (fun _ => ?_) | intro _ | (fail_if_no_progress with_reducible refine Kept.upd_of hp ?_ ?_ ?_ ?_ ?_ ?_ ?_ ?_ ?_ ?_ ?_ ?_ ?_ ?_ ?_ ?_ ?_ rfl rfl <;> try first | exact Or.inr rfl | exact Or.inl (by decide)) | (simp only [id_eq]; assumption) | dsimp only | split

theorem Kept.startChainTune (h : Kept p a s) (hp : Part.sub { hif := true } p = true := by first | decide | (refine Part.sub_of (by assumption) ?_; decide)) : Kept p a (Sys2Proof.Machine.startChainTune x1 x2 x3 x4 x5 x6 s) := by
  unfold Sys2Proof.Machine.startChainTune
  repeat' first | with_reducible assumption | exact Part.sub_of hp (by decide) | with_reducible apply Kept.updPend | with_reducible apply Kept.foldl | with_reducible apply Kept.each | with_reducible refine Kept.ite (fun _ => ?_) (fun _ => ?_) | intro _ | (fail_if_no_progress with_reducible refine Kept.upd_of hp ?_ ?_ ?_ ?_ ?_ ?_ ?_ ?_ ?_ ?_ ?_ ?_ ?_ ?_ ?_ ?_ ?_ rfl rfl <;> try first | exact Or.inr rfl | exact Or.inl (by decide)) | (simp only [id_eq]; assumption) | dsimp only | split

theorem Kept.startCalRun (h : Kept p a s) (hp : Part.sub { hif := true, intc := true, recd := true } p = true := by first | decide | (refine Part.sub_of (by assumption) ?_; decide)) : Kept p a (Sys2Proof.Machine.startCalRun x1 x2 x3 s) := by
  unfold Sys2Proof.Machine.startCalRun
  repeat' first | with_reducible assumption | exact Part.sub_of hp (by decide) | with_reducible apply Kept.complete | with_reducible apply Kept.updPend | with_reducible apply Kept.foldl | with_reducible apply Kept.each | with_reducible refine Kept.ite (fun _ => ?_) (fun _ => ?_) | intro _ | (fail_if_no_progress with_reducible refine Kept.upd_of hp ?_ ?_ ?_ ?_ ?_ ?_ ?_ ?_ ?_ ?_ ?_ ?_ ?_ ?_ ?_ ?_ ?_ rfl rfl <;> try first | exact Or.inr rfl | exact Or.inl (by decide)) | (simp only [id_eq]; assumption) | dsimp only | split

theorem Kept.queueFrame (h : Kept p a s) (hp : Part.sub { rfe := true } p = true := by first | decide | (refine Part.sub_of (by assumption) ?_; decide)) : Kept p a (State.queueFrame s x1 x2) := by
  unfold State.queueFrame
  repeat' first | with_reducible assumption | exact Part.sub_of hp (by decide) | with_reducible apply Kept.updFecb | with_reducible apply Kept.foldl | with_reducible apply Kept.each | with_reducible refine Kept.ite (fun _ => ?_) (fun _ => ?_) | intro _ | (fail_if_no_progress with_reducible refine Kept.upd_of hp ?_ ?_ ?_ ?_ ?_ ?_ ?_ ?_ ?_ ?_ ?_ ?_ ?_ ?_ ?_ ?_ ?_ rfl rfl <;> try first | exact Or.inr rfl | exact Or.inl (by decide)) | (simp only [id_eq]; assumption) | dsimp only | split

theorem Kept.startTxPowerStep (h : Kept p a s) (hp : Part.sub { hif := true, rfe := true } p = true := by first | decide | (refine Part.sub_of (by assumption) ?_; decide)) : Kept p a (Sys2Proof.Machine.startTxPowerStep x1 x2 x3 x4 x5 x6 s) := by
  unfold Sys2Proof.Machine.startTxPowerStep
  repeat' first | with_reducible assumption | exact Part.sub_of hp (by decide) | with_reducible apply Kept.updPend | with_reducible apply Kept.queueFrame | with_reducible apply Kept.updTx | with_reducible apply Kept.foldl | with_reducible apply Kept.each | with_reducible refine Kept.ite (fun _ => ?_) (fun _ => ?_) | intro _ | (fail_if_no_progress with_reducible refine Kept.upd_of hp ?_ ?_ ?_ ?_ ?_ ?_ ?_ ?_ ?_ ?_ ?_ ?_ ?_ ?_ ?_ ?_ ?_ rfl rfl <;> try first | exact Or.inr rfl | exact Or.inl (by decide)) | (simp only [id_eq]; assumption) | dsimp only | split

theorem Kept.startTunerSet (h : Kept p a s) (hp : Part.sub { rfe := true } p = true := by first | decide | (refine Part.sub_of (by assumption) ?_; decide)) : Kept p a (Sys2Proof.Machine.startTunerSet x1 x2 x3 x4 s) := by
  unfold Sys2Proof.Machine.startTunerSet
  repeat' first | with_reducible assumption | exact Part.sub_of hp (by decide) | with_reducible apply Kept.queueFrame | with_reducible apply Kept.foldl | with_reducible apply Kept.each | with_reducible refine Kept.ite (fun _ => ?_) (fun _ => ?_) | intro _ | (fail_if_no_progress with_reducible refine Kept.upd_of hp ?_ ?_ ?_ ?_ ?_ ?_ ?_ ?_ ?_ ?_ ?_ ?_ ?_ ?_ ?_ ?_ ?_ rfl rfl <;> try first | exact Or.inr rfl | exact Or.inl (by decide)) | (simp only [id_eq]; assumption) | dsimp only | split

theorem Kept.startTunerSetRaw (h : Kept p a s) (hp : Part.sub { rfe := true } p = true := by first | decide | (refine Part.sub_of (by assumption) ?_; decide)) : Kept p a (Sys2Proof.Machine.startTunerSetRaw x1 x2 x3 x4 x5 x6 s) := by
  unfold Sys2Proof.Machine.startTunerSetRaw
  repeat' first | with_reducible assumption | exact Part.sub_of hp (by decide) | with_reducible apply Kept.queueFrame | with_reducible apply Kept.foldl | with_reducible apply Kept.each | with_reducible refine Kept.ite (fun _ => ?_) (fun _ => ?_) | intro _ | (fail_if_no_progress with_reducible refine Kept.upd_of hp ?_ ?_ ?_ ?_ ?_ ?_ ?_ ?_ ?_ ?_ ?_ ?_ ?_ ?_ ?_ ?_ ?_ rfl rfl <;> try first | exact Or.inr rfl | exact Or.inl (by decide)) | (simp only [id_eq]; assumption) | dsimp only | split

theorem Kept.cxReport (h : Kept p a s) (hp : Part.sub { jl := true } p = true := by first | decide | (refine Part.sub_of (by assumption) ?_; decide)) : Kept p a (State.cxReport s x1) := by
  unfold State.cxReport
  repeat' first | with_reducible assumption | exact Part.sub_of hp (by decide) | with_reducible apply Kept.foldl | with_reducible apply Kept.each | with_reducible refine Kept.ite (fun _ => ?_) (fun _ => ?_) | intro _ | (fail_if_no_progress with_reducible refine Kept.upd_of hp ?_ ?_ ?_ ?_ ?_ ?_ ?_ ?_ ?_ ?_ ?_ ?_ ?_ ?_ ?_ ?_ ?_ rfl rfl <;> try first | exact Or.inr rfl | exact Or.inl (by decide)) | (simp only [id_eq]; assumption) | dsimp only | split

theorem Kept.cxRunSync (h : Kept p a s) (hp : Part.sub { cx := true } p = true := by first | decide | (refine Part.sub_of (by assumption) ?_; decide)) : Kept p a (State.cxRunSync s x1) := by
  unfold State.cxRunSync
  repeat' first | with_reducible assumption | exact Part.sub_of hp (by decide) | with_reducible apply Kept.updInst | with_reducible apply Kept.foldl | with_reducible apply Kept.each | with_reducible refine Kept.ite (fun _ => ?_) (fun _ => ?_) | intro _ | (fail_if_no_progress with_reducible refine Kept.upd_of hp ?_ ?_ ?_ ?_ ?_ ?_ ?_ ?_ ?_ ?_ ?_ ?_ ?_ ?_ ?_ ?_ ?_ rfl rfl <;> try first | exact Or.inr rfl | exact Or.inl (by decide)) | (simp only [id_eq]; assumption) | dsimp only | split

theorem Kept.startCxAssign (h : Kept p a s) (hp : Part.sub { hif := true, intc := true, recd := true, cx := true, gcl := true, jl := true } p = true := by first | decide | (refine Part.sub_of (by assumption) ?_; decide)) : Kept p a (Sys2Proof.Machine.startCxAssign x1 x2 x3 x4 x5 x6 x7 x8 s) := by
  unfold Sys2Proof.Machine.startCxAssign
  repeat' first | with_reducible assumption | exact Part.sub_of hp (by decide) | with_reducible apply Kept.updInst | with_reducible apply Kept.complete | with_reducible apply Kept.capAll | with_reducible apply Kept.cxReport | with_reducible apply Kept.seedDrop | with_reducible apply Kept.cxRunSync | with_reducible apply Kept.foldl | with_reducible apply Kept.each | with_reducible refine Kept.ite (fun _ => ?_) (fun _ => ?_) | intro _ | (fail_if_no_progress with_reducible refine Kept.upd_of hp ?_ ?_ ?_ ?_ ?_ ?_ ?_ ?_ ?_ ?_ ?_ ?_ ?_ ?_ ?_ ?_ ?_ rfl rfl <;> try first | exact Or.inr rfl | exact Or.inl (by decide)) | (simp only [id_eq]; assumption) | dsimp only | split

theorem Kept.startCxResetSeed (h : Kept p a s) (hp : Part.sub { cx := true } p = true := by first | decide | (refine Part.sub_of (by assumption) ?_; decide)) : Kept p a (Sys2Proof.Machine.startCxResetSeed x1 x2 x3 x4 s) := by
  unfold Sys2Proof.Machine.startCxResetSeed
  repeat' first | with_reducible assumption | exact Part.sub_of hp (by decide) | with_reducible apply Kept.updInst | with_reducible apply Kept.foldl | with_reducible apply Kept.each | with_reducible refine Kept.ite (fun _ => ?_) (fun _ => ?_) | intro _ | (fail_if_no_progress with_reducible refine Kept.upd_of hp ?_ ?_ ?_ ?_ ?_ ?_ ?_ ?_ ?_ ?_ ?_ ?_ ?_ ?_ ?_ ?_ ?_ rfl rfl <;> try first | exact Or.inr rfl | exact Or.inl (by decide)) | (simp only [id_eq]; assumption) | dsimp only | split

theorem Kept.completeAll (h : Kept p a s) (hp : Part.sub { hif := true, intc := true, recd := true } p = true := by first | decide | (refine Part.sub_of (by assumption) ?_; decide)) : Kept p a (State.completeAll s x1 x2) := by
  unfold State.completeAll
  repeat' first | with_reducible assumption | exact Part.sub_of hp (by decide) | with_reducible apply Kept.complete | with_reducible apply Kept.foldl | with_reducible apply Kept.each | with_reducible refine Kept.ite (fun _ => ?_) (fun _ => ?_) | intro _ | (fail_if_no_progress with_reducible refine Kept.upd_of hp ?_ ?_ ?_ ?_ ?_ ?_ ?_ ?_ ?_ ?_ ?_ ?_ ?_ ?_ ?_ ?_ ?_ rfl rfl <;> try first | exact Or.inr rfl | exact Or.inl (by decide)) | (simp only [id_eq]; assumption) | dsimp only | split

theorem Kept.lutSwapCheck (h : Kept p a s) (hp : Part.sub { hif := true, intc := true, recd := true } p = true := by first | decide | (refine Part.sub_of (by assumption) ?_; decide)) : Kept p a (State.lutSwapCheck s x1) := by
  unfold State.lutSwapCheck
  repeat' first | with_reducible assumption | exact Part.sub_of hp (by decide) | with_reducible apply Kept.completeAll | with_reducible apply Kept.foldl | with_reducible apply Kept.each | with_reducible refine Kept.ite (fun _ => ?_) (fun _ => ?_) | intro _ | (fail_if_no_progress with_reducible refine Kept.upd_of hp ?_ ?_ ?_ ?_ ?_ ?_ ?_ ?_ ?_ ?_ ?_ ?_ ?_ ?_ ?_ ?_ ?_ rfl rfl <;> try first | exact Or.inr rfl | exact Or.inl (by decide)) | (simp only [id_eq]; assumption) | dsimp only | split

theorem Kept.startGclBankSwap (h : Kept p a s) (hp : Part.sub { hif := true, intc := true, recd := true, gcl := true, luts := true } p = true := by first | decide | (refine Part.sub_of (by assumption) ?_; decide)) : Kept p a (Sys2Proof.Machine.startGclBankSwap x1 x2 s) := by
  unfold Sys2Proof.Machine.startGclBankSwap
  repeat' first | with_reducible assumption | exact Part.sub_of hp (by decide) | with_reducible apply Kept.complete | with_reducible apply Kept.updLut | with_reducible apply Kept.each | with_reducible apply Kept.updGain | with_reducible apply Kept.lutSwapCheck | with_reducible apply Kept.foldl | with_reducible apply Kept.each | with_reducible refine Kept.ite (fun _ => ?_) (fun _ => ?_) | intro _ | (fail_if_no_progress with_reducible refine Kept.upd_of hp ?_ ?_ ?_ ?_ ?_ ?_ ?_ ?_ ?_ ?_ ?_ ?_ ?_ ?_ ?_ ?_ ?_ rfl rfl <;> try first | exact Or.inr rfl | exact Or.inl (by decide)) | (simp only [id_eq]; assumption) | dsimp only | split

theorem Kept.setpointCheck (h : Kept p a s) (hp : Part.sub { hif := true, intc := true, recd := true } p = true := by first | decide | (refine Part.sub_of (by assumption) ?_; decide)) : Kept p a (State.setpointCheck s x1) := by
  unfold State.setpointCheck
  repeat' first | with_reducible assumption | exact Part.sub_of hp (by decide) | with_reducible apply Kept.complete | with_reducible apply Kept.foldl | with_reducible apply Kept.each | with_reducible refine Kept.ite (fun _ => ?_) (fun _ => ?_) | intro _ | (fail_if_no_progress with_reducible refine Kept.upd_of hp ?_ ?_ ?_ ?_ ?_ ?_ ?_ ?_ ?_ ?_ ?_ ?_ ?_ ?_ ?_ ?_ ?_ rfl rfl <;> try first | exact Or.inr rfl | exact Or.inl (by decide)) | (simp only [id_eq]; assumption) | dsimp only | split

theorem Kept.startGclSetpoint (h : Kept p a s) (hp : Part.sub { hif := true, intc := true, recd := true, gcl := true } p = true := by first | decide | (refine Part.sub_of (by assumption) ?_; decide)) : Kept p a (Sys2Proof.Machine.startGclSetpoint x1 x2 x3 x4 x5 x6 x7 x8 x9 x10 s) := by
  unfold Sys2Proof.Machine.startGclSetpoint
  repeat' first | with_reducible assumption | exact Part.sub_of hp (by decide) | with_reducible apply Kept.updGain | with_reducible apply Kept.complete | with_reducible apply Kept.capAll | with_reducible apply Kept.setpointCheck | with_reducible apply Kept.foldl | with_reducible apply Kept.each | with_reducible refine Kept.ite (fun _ => ?_) (fun _ => ?_) | intro _ | (fail_if_no_progress with_reducible refine Kept.upd_of hp ?_ ?_ ?_ ?_ ?_ ?_ ?_ ?_ ?_ ?_ ?_ ?_ ?_ ?_ ?_ ?_ ?_ rfl rfl <;> try first | exact Or.inr rfl | exact Or.inl (by decide)) | (simp only [id_eq]; assumption) | dsimp only | split

theorem Kept.startInstallationModel (h : Kept p a s) (hp : Part.sub { hif := true, intc := true, recd := true, cx := true, gcl := true, freeCnt := true } p = true := by first | decide | (refine Part.sub_of (by assumption) ?_; decide)) : Kept p a (Sys2Proof.Machine.startInstallationModel x1 x2 x3 x4 x5 s) := by
  unfold Sys2Proof.Machine.startInstallationModel
  repeat' first | with_reducible assumption | exact Part.sub_of hp (by decide) | with_reducible apply Kept.complete | with_reducible apply Kept.capAll | with_reducible apply Kept.updInst | with_reducible apply Kept.free | with_reducible apply Kept.foldl | with_reducible apply Kept.each | with_reducible refine Kept.ite (fun _ => ?_) (fun _ => ?_) | intro _ | (fail_if_no_progress with_reducible refine Kept.upd_of hp ?_ ?_ ?_ ?_ ?_ ?_ ?_ ?_ ?_ ?_ ?_ ?_ ?_ ?_ ?_ ?_ ?_ rfl rfl <;> try first | exact Or.inr rfl | exact Or.inl (by decide)) | (simp only [id_eq]; assumption) | dsimp only | split

theorem Kept.setParam (h : Kept p a s) (hp : Part.sub { prot := true } p = true := by first | decide | (refine Part.sub_of (by assumption) ?_; decide)) : Kept p a (State.setParam s x1 x2 x3) := by
  unfold State.setParam
  repeat' first | with_reducible assumption | exact Part.sub_of hp (by decide) | with_reducible apply Kept.foldl | with_reducible apply Kept.each | with_reducible refine Kept.ite (fun _ => ?_) (fun _ => ?_) | intro _ | (fail_if_no_progress with_reducible refine Kept.upd_of hp ?_ ?_ ?_ ?_ ?_ ?_ ?_ ?_ ?_ ?_ ?_ ?_ ?_ ?_ ?_ ?_ ?_ rfl rfl <;> try first | exact Or.inr rfl | exact Or.inl (by decide)) | (simp only [id_eq]; assumption) | dsimp only | split

theorem Kept.startProtConfig (h : Kept p a s) (hp : Part.sub { hif := true, intc := true, recd := true, prot := true } p = true := by first | decide | (refine Part.sub_of (by assumption) ?_; decide)) : Kept p a (Sys2Proof.Machine.startProtConfig x1 x2 x3 x4 s) := by
  unfold Sys2Proof.Machine.startProtConfig
  repeat' first | with_reducible assumption | exact Part.sub_of hp (by decide) | with_reducible apply Kept.complete | with_reducible apply Kept.each | with_reducible apply Kept.setParam | with_reducible apply Kept.foldl | with_reducible apply Kept.each | with_reducible refine Kept.ite (fun _ => ?_) (fun _ => ?_) | intro _ | (fail_if_no_progress with_reducible refine Kept.upd_of hp ?_ ?_ ?_ ?_ ?_ ?_ ?_ ?_ ?_ ?_ ?_ ?_ ?_ ?_ ?_ ?_ ?_ rfl rfl <;> try first | exact Or.inr rfl | exact Or.inl (by decide)) | (simp only [id_eq]; assumption) | dsimp only | split

theorem Kept.startAuthWrite (h : Kept p a s) (hp : Part.sub { prot := true } p = true := by first | decide | (refine Part.sub_of (by assumption) ?_; decide)) : Kept p a (Sys2Proof.Machine.startAuthWrite x1 x2 x3 x4 x5 x6 s) := by
  unfold Sys2Proof.Machine.startAuthWrite
  repeat' first | with_reducible assumption | exact Part.sub_of hp (by decide) | with_reducible apply Kept.foldl | with_reducible apply Kept.each | with_reducible refine Kept.ite (fun _ => ?_) (fun _ => ?_) | intro _ | (fail_if_no_progress with_reducible refine Kept.upd_of hp ?_ ?_ ?_ ?_ ?_ ?_ ?_ ?_ ?_ ?_ ?_ ?_ ?_ ?_ ?_ ?_ ?_ rfl rfl <;> try first | exact Or.inr rfl | exact Or.inl (by decide)) | (simp only [id_eq]; assumption) | dsimp only | split

theorem Kept.updNet (h : Kept p a s) (hp : Part.sub { prot := true } p = true := by first | decide | (refine Part.sub_of (by assumption) ?_; decide)) : Kept p a (State.updNet s x1 x2) := by
  unfold State.updNet
  repeat' first | with_reducible assumption | exact Part.sub_of hp (by decide) | with_reducible apply Kept.foldl | with_reducible apply Kept.each | with_reducible refine Kept.ite (fun _ => ?_) (fun _ => ?_) | intro _ | (fail_if_no_progress with_reducible refine Kept.upd_of hp ?_ ?_ ?_ ?_ ?_ ?_ ?_ ?_ ?_ ?_ ?_ ?_ ?_ ?_ ?_ ?_ ?_ rfl rfl <;> try first | exact Or.inr rfl | exact Or.inl (by decide)) | (simp only [id_eq]; assumption) | dsimp only | split

theorem Kept.bridgeNet (h : Kept p a s) (hp : Part.sub { prot := true } p = true := by first | decide | (refine Part.sub_of (by assumption) ?_; decide)) : Kept p a (State.bridgeNet s x1) := by
  unfold State.bridgeNet
  repeat' first | with_reducible assumption | exact Part.sub_of hp (by decide) | with_reducible apply Kept.updNet | with_reducible apply Kept.foldl | with_reducible apply Kept.each | with_reducible refine Kept.ite (fun _ => ?_) (fun _ => ?_) | intro _ | (fail_if_no_progress with_reducible refine Kept.upd_of hp ?_ ?_ ?_ ?_ ?_ ?_ ?_ ?_ ?_ ?_ ?_ ?_ ?_ ?_ ?_ ?_ ?_ rfl rfl <;> try first | exact Or.inr rfl | exact Or.inl (by decide)) | (simp only [id_eq]; assumption) | dsimp only | split

theorem Kept.lutSuspend (h : Kept p a s) (hp : Part.sub { hif := true, intc := true, recd := true, gcl := true } p = true := by first | decide | (refine Part.sub_of (by assumption) ?_; decide)) : Kept p a (State.lutSuspend s x1) := by
  unfold State.lutSuspend
  repeat' first | with_reducible assumption | exact Part.sub_of hp (by decide) | with_reducible apply Kept.lutSwapCheck | with_reducible apply Kept.updGain | with_reducible apply Kept.foldl | with_reducible apply Kept.each | with_reducible refine Kept.ite (fun _ => ?_) (fun _ => ?_) | intro _ | (fail_if_no_progress with_reducible refine Kept.upd_of hp ?_ ?_ ?_ ?_ ?_ ?_ ?_ ?_ ?_ ?_ ?_ ?_ ?_ ?_ ?_ ?_ ?_ rfl rfl <;> try first | exact Or.inr rfl | exact Or.inl (by decide)) | (simp only [id_eq]; assumption) | dsimp only | split

theorem Kept.fadeFinish (h : Kept p a s) (hp : Part.sub { hif := true, intc := true, recd := true, slots := true } p = true := by first | decide | (refine Part.sub_of (by assumption) ?_; decide)) : Kept p a (State.fadeFinish s x1) := by
  unfold State.fadeFinish
  repeat' first | with_reducible assumption | exact Part.sub_of hp (by decide) | with_reducible apply Kept.loadsStart | with_reducible apply Kept.completeId | with_reducible apply Kept.updSlot | with_reducible apply Kept.foldl | with_reducible apply Kept.each | with_reducible refine Kept.ite (fun _ => ?_) (fun _ => ?_) | intro _ | (fail_if_no_progress with_reducible refine Kept.upd_of hp ?_ ?_ ?_ ?_ ?_ ?_ ?_ ?_ ?_ ?_ ?_ ?_ ?_ ?_ ?_ ?_ ?_ rfl rfl <;> try first | exact Or.inr rfl | exact Or.inl (by decide)) | (simp only [id_eq]; assumption) | dsimp only | split

theorem Kept.slotEntersWinter (h : Kept p a s) (hp : Part.sub { hif := true, intc := true, recd := true, slots := true, gcl := true } p = true := by first | decide | (refine Part.sub_of (by assumption) ?_; decide)) : Kept p a (State.slotEntersWinter s x1) := by
  unfold State.slotEntersWinter
  repeat' first | with_reducible assumption | exact Part.sub_of hp (by decide) | with_reducible apply Kept.lutSuspend | with_reducible apply Kept.completeAll | with_reducible apply Kept.fadeFinish | with_reducible apply Kept.foldl | with_reducible apply Kept.each | with_reducible refine Kept.ite (fun _ => ?_) (fun _ => ?_) | intro _ | (fail_if_no_progress with_reducible refine Kept.upd_of hp ?_ ?_ ?_ ?_ ?_ ?_ ?_ ?_ ?_ ?_ ?_ ?_ ?_ ?_ ?_ ?_ ?_ rfl rfl <;> try first | exact Or.inr rfl | exact Or.inl (by decide)) | (simp only [id_eq]; assumption) | dsimp only | split

theorem Kept.seedInstall (h : Kept p a s) (hp : Part.sub { hif := true, intc := true, recd := true, cx := true } p = true := by first | decide | (refine Part.sub_of (by assumption) ?_; decide)) : Kept p a (State.seedInstall s x1) := by
  unfold State.seedInstall
  repeat' first | with_reducible assumption | exact Part.sub_of hp (by decide) | with_reducible apply Kept.completeId | with_reducible apply Kept.updInst | with_reducible apply Kept.foldl | with_reducible apply Kept.each | with_reducible refine Kept.ite (fun _ => ?_) (fun _ => ?_) | intro _ | (fail_if_no_progress with_reducible refine Kept.upd_of hp ?_ ?_ ?_ ?_ ?_ ?_ ?_ ?_ ?_ ?_ ?_ ?_ ?_ ?_ ?_ ?_ ?_ rfl rfl <;> try first | exact Or.inr rfl | exact Or.inl (by decide)) | (simp only [id_eq]; assumption) | dsimp only | split

theorem Kept.txEntersWinter (h : Kept p a s) (hp : Part.sub { hif := true, intc := true, recd := true, cx := true, prot := true } p = true := by first | decide | (refine Part.sub_of (by assumption) ?_; decide)) : Kept p a (State.txEntersWinter s x1) := by
  unfold State.txEntersWinter
  repeat' first | with_reducible assumption | exact Part.sub_of hp (by decide) | with_reducible apply Kept.irqEdge | with_reducible apply Kept.updNet | with_reducible apply Kept.each | with_reducible apply Kept.seedInstall | with_reducible apply Kept.foldl | with_reducible apply Kept.each | with_reducible refine Kept.ite (fun _ => ?_) (fun _ => ?_) | intro _ | (fail_if_no_progress with_reducible refine Kept.upd_of hp ?_ ?_ ?_ ?_ ?_ ?_ ?_ ?_ ?_ ?_ ?_ ?_ ?_ ?_ ?_ ?_ ?_ rfl rfl <;> try first | exact Or.inr rfl | exact Or.inl (by decide)) | (simp only [id_eq]; assumption) | dsimp only | split

theorem Kept.captTrigger (h : Kept p a s) (hp : Part.sub { hif := true } p = true := by first | decide | (refine Part.sub_of (by assumption) ?_; decide)) : Kept p a (State.captTrigger s x1) := by
  unfold State.captTrigger
  repeat' first | with_reducible assumption | exact Part.sub_of hp (by decide) | with_reducible apply Kept.updPend | with_reducible apply Kept.foldl | with_reducible apply Kept.each | with_reducible refine Kept.ite (fun _ => ?_) (fun _ => ?_) | intro _ | (fail_if_no_progress with_reducible refine Kept.upd_of hp ?_ ?_ ?_ ?_ ?_ ?_ ?_ ?_ ?_ ?_ ?_ ?_ ?_ ?_ ?_ ?_ ?_ rfl rfl <;> try first | exact Or.inr rfl | exact Or.inl (by decide)) | (simp only [id_eq]; assumption) | dsimp only | split

theorem Kept.winterSetWith {F : RecF} (hr : KeptRec p F) (h : Kept p a s) (hp : Part.sub { hif := true, intc := true, recd := true, slots := true, cx := true, gcl := true, prot := true } p = true := by first | decide | (refine Part.sub_of (by assumption) ?_; decide)) : Kept p a (State.winterSetWith F s x1 x2 x3) := by
  unfold State.winterSetWith
  dsimp only
  repeat' first | with_reducible assumption | intro _ | exact Part.sub_of hp (by decide) | refine hr _ _ _ _ _ _ _ ?_ | with_reducible apply Kept.updObj | with_reducible apply Kept.bridgeNet | with_reducible apply Kept.completeId | with_reducible apply Kept.each | with_reducible apply Kept.slotEntersWinter | with_reducible apply Kept.txEntersWinter | with_reducible apply Kept.captTrigger | with_reducible apply Kept.foldl | with_reducible apply Kept.each | with_reducible refine Kept.ite (fun _ => ?_) (fun _ => ?_) | dsimp only | split

theorem Kept.updFsrc (h : Kept p a s) (hp : Part.sub { flt := true } p = true := by first | decide | (refine Part.sub_of (by assumption) ?_; decide)) : Kept p a (State.updFsrc s x1 x2) := by
  unfold State.updFsrc
  repeat' first | with_reducible assumption | exact Part.sub_of hp (by decide) | with_reducible apply Kept.foldl | with_reducible apply Kept.each | with_reducible refine Kept.ite (fun _ => ?_) (fun _ => ?_) | intro _ | (fail_if_no_progress with_reducible refine Kept.upd_of hp ?_ ?_ ?_ ?_ ?_ ?_ ?_ ?_ ?_ ?_ ?_ ?_ ?_ ?_ ?_ ?_ ?_ rfl rfl <;> try first | exact Or.inr rfl | exact Or.inl (by decide)) | (simp only [id_eq]; assumption) | dsimp only | split

theorem Kept.faultRecord {F : RecF} (hr : KeptRec p F) (h : Kept p a s) (hp : Part.sub ({} : Part) p = true := by first | decide | (refine Part.sub_of (by assumption) ?_; decide)) : Kept p a (State.faultRecord F s x1 x2 x3 x4) := by
  unfold State.faultRecord
  repeat' first | with_reducible assumption | intro _ | exact Part.sub_of hp (by decide) | refine hr _ _ _ _ _ _ _ ?_ | with_reducible apply Kept.foldl | with_reducible apply Kept.each | with_reducible refine Kept.ite (fun _ => ?_) (fun _ => ?_) | dsimp only | split

theorem Kept.faultWinter {F : RecF} (hr : KeptRec p F) (h : Kept p a s) (hp : Part.sub { hif := true, intc := true, recd := true, slots := true, cx := true, gcl := true, prot := true } p = true := by first | decide | (refine Part.sub_of (by assumption) ?_; decide)) : Kept p a (State.faultWinter F s x1 x2) := by
  unfold State.faultWinter
  repeat' first | with_reducible assumption | intro _ | exact Part.sub_of hp (by decide) | refine hr _ _ _ _ _ _ _ ?_ | with_reducible apply Kept.each | with_reducible apply Kept.updObj | with_reducible apply Kept.winterSetWith hr | with_reducible apply Kept.foldl | with_reducible apply Kept.each | with_reducible refine Kept.ite (fun _ => ?_) (fun _ => ?_) | dsimp only | split

theorem Kept.escalateWinter {F : RecF} (hr : KeptRec p F) (h : Kept p a s) (hp : Part.sub { hif := true, intc := true, recd := true, slots := true, cx := true, gcl := true, prot := true } p = true := by first | decide | (refine Part.sub_of (by assumption) ?_; decide)) : Kept p a (State.escalateWinter F s x1) := by
  unfold State.escalateWinter
  repeat' first | with_reducible assumption | intro _ | exact Part.sub_of hp (by decide) | refine hr _ _ _ _ _ _ _ ?_ | with_reducible apply Kept.faultWinter hr | with_reducible apply Kept.foldl | with_reducible apply Kept.each | with_reducible refine Kept.ite (fun _ => ?_) (fun _ => ?_) | dsimp only | split

theorem Kept.repeatOccur {F : RecF} (hr : KeptRec p F) (h : Kept p a s) (hp : Part.sub Part.alarms p = true := by first | decide | (refine Part.sub_of (by assumption) ?_; decide)) : Kept p a (State.repeatOccur F s x1 x2 x3) := by
  unfold State.repeatOccur
  repeat' first | with_reducible assumption | intro _ | exact Part.sub_of hp (by decide) | refine hr _ _ _ _ _ _ _ ?_ | with_reducible apply Kept.updFsrc | with_reducible apply Kept.faultRecord hr | with_reducible apply Kept.escalateWinter hr | with_reducible apply Kept.faultWinter hr | with_reducible apply Kept.foldl | with_reducible apply Kept.each | with_reducible refine Kept.ite (fun _ => ?_) (fun _ => ?_) | dsimp only | split

theorem Kept.irqRise (h : Kept p a s) (hp : Part.sub { intc := true } p = true := by first | decide | (refine Part.sub_of (by assumption) ?_; decide)) : Kept p a (State.irqRise s x1) := by
  unfold State.irqRise
  repeat' first | with_reducible assumption | exact Part.sub_of hp (by decide) | with_reducible apply Kept.srcEvent | with_reducible apply Kept.foldl | with_reducible apply Kept.each | with_reducible refine Kept.ite (fun _ => ?_) (fun _ => ?_) | intro _ | (fail_if_no_progress with_reducible refine Kept.upd_of hp ?_ ?_ ?_ ?_ ?_ ?_ ?_ ?_ ?_ ?_ ?_ ?_ ?_ ?_ ?_ ?_ ?_ rfl rfl <;> try first | exact Or.inr rfl | exact Or.inl (by decide)) | (simp only [id_eq]; assumption) | dsimp only | split

theorem Kept.firstOccur {F : RecF} (hr : KeptRec p F) (h : Kept p a s) (hp : Part.sub Part.alarms p = true := by first | decide | (refine Part.sub_of (by assumption) ?_; decide)) : Kept p a (State.firstOccur F s x1 x2 x3 x4) := by
  unfold State.firstOccur
  repeat' first | with_reducible assumption | intro _ | exact Part.sub_of hp (by decide) | refine hr _ _ _ _ _ _ _ ?_ | with_reducible apply Kept.updFsrc | with_reducible apply Kept.irqRise | with_reducible apply Kept.faultRecord hr | with_reducible apply Kept.faultWinter hr | with_reducible apply Kept.foldl | with_reducible apply Kept.each | with_reducible refine Kept.ite (fun _ => ?_) (fun _ => ?_) | dsimp only | split

theorem Kept.occurWith {F : RecF} (hr : KeptRec p F) (h : Kept p a s) (hp : Part.sub Part.alarms p = true := by first | decide | (refine Part.sub_of (by assumption) ?_; decide)) : Kept p a (State.occurWith F s x1 x2 x3) := by
  unfold State.occurWith
  repeat' first | with_reducible assumption | intro _ | exact Part.sub_of hp (by decide) | refine hr _ _ _ _ _ _ _ ?_ | with_reducible apply Kept.repeatOccur hr | with_reducible apply Kept.firstOccur hr | with_reducible apply Kept.foldl | with_reducible apply Kept.each | with_reducible refine Kept.ite (fun _ => ?_) (fun _ => ?_) | dsimp only | split

theorem Kept.recordQ_rec (hp : Part.sub { recd := true } p = true := by first | decide | (refine Part.sub_of (by assumption) ?_; decide)) : KeptRec p State.recordQ := fun _ _ _ _ _ _ _ h => Kept.recordQ h

theorem Kept.record_rec (hp : Part.sub Part.alarms p = true := by first | decide | (refine Part.sub_of (by assumption) ?_; decide)) : KeptRec p State.record := by
  intro a b c sv sr by_ d h
  have hq : Kept p a (b.record0 c sv sr by_ d).2 := Kept.record0 h
  unfold State.record
  split
  · rename_i s1 he
    rw [he] at hq
    exact Kept.occurWith Kept.recordQ_rec hq
  · rename_i s1 he
    rw [he] at hq
    exact hq

theorem Kept.record (h : Kept p a s) (hp : Part.sub Part.alarms p = true := by first | decide | (refine Part.sub_of (by assumption) ?_; decide)) : Kept p a (s.record x1 x2 x3 x4 x5) := (Kept.record_rec : KeptRec p State.record) _ _ _ _ _ _ _ h

theorem Kept.winterSet (h : Kept p a s) (hp : Part.sub Part.alarms p = true := by first | decide | (refine Part.sub_of (by assumption) ?_; decide)) : Kept p a (State.winterSet s x1 x2 x3) := by
  unfold State.winterSet
  repeat' first | with_reducible assumption | with_reducible apply Kept.record | exact Kept.record_rec | exact Part.sub_of hp (by decide) | with_reducible apply Kept.winterSetWith | with_reducible apply Kept.foldl | with_reducible apply Kept.each | with_reducible refine Kept.ite (fun _ => ?_) (fun _ => ?_) | intro _ | (fail_if_no_progress with_reducible refine Kept.upd_of hp ?_ ?_ ?_ ?_ ?_ ?_ ?_ ?_ ?_ ?_ ?_ ?_ ?_ ?_ ?_ ?_ ?_ rfl rfl <;> try first | exact Or.inr rfl | exact Or.inl (by decide)) | (simp only [id_eq]; assumption) | dsimp only | split

theorem Kept.startWinterEnter (h : Kept p a s) (hp : Part.sub Part.alarms p = true := by first | decide | (refine Part.sub_of (by assumption) ?_; decide)) : Kept p a (Sys2Proof.Machine.startWinterEnter x1 x2 x3 x4 s) := by
  unfold Sys2Proof.Machine.startWinterEnter
  repeat' first | with_reducible assumption | exact Part.sub_of hp (by decide) | with_reducible apply Kept.complete | with_reducible apply Kept.winterSet | with_reducible apply Kept.foldl | with_reducible apply Kept.each | with_reducible refine Kept.ite (fun _ => ?_) (fun _ => ?_) | intro _ | (fail_if_no_progress with_reducible refine Kept.upd_of hp ?_ ?_ ?_ ?_ ?_ ?_ ?_ ?_ ?_ ?_ ?_ ?_ ?_ ?_ ?_ ?_ ?_ rfl rfl <;> try first | exact Or.inr rfl | exact Or.inl (by decide)) | (simp only [id_eq]; assumption) | dsimp only | split

theorem Kept.startWinterRelease (h : Kept p a s) (hp : Part.sub { hif := true, intc := true, recd := true, prot := true } p = true := by first | decide | (refine Part.sub_of (by assumption) ?_; decide)) : Kept p a (Sys2Proof.Machine.startWinterRelease x1 x2 s) := by
  unfold Sys2Proof.Machine.startWinterRelease
  repeat' first | with_reducible assumption | exact Part.sub_of hp (by decide) | with_reducible apply Kept.complete | with_reducible apply Kept.updObj | with_reducible apply Kept.foldl | with_reducible apply Kept.each | with_reducible refine Kept.ite (fun _ => ?_) (fun _ => ?_) | intro _ | (fail_if_no_progress with_reducible refine Kept.upd_of hp ?_ ?_ ?_ ?_ ?_ ?_ ?_ ?_ ?_ ?_ ?_ ?_ ?_ ?_ ?_ ?_ ?_ rfl rfl <;> try first | exact Or.inr rfl | exact Or.inl (by decide)) | (simp only [id_eq]; assumption) | dsimp only | split

theorem Kept.libStop (h : Kept p a s) (hp : Part.sub { hif := true, intc := true, recd := true, le := true } p = true := by first | decide | (refine Part.sub_of (by assumption) ?_; decide)) : Kept p a (State.libStop s) := by
  unfold State.libStop
  dsimp only
  generalize hu : State.each s _ _ = u
  have h1 : Kept p a u := hu ▸ Kept.each h (fun i b hb => Kept.each hb (fun j c hc => Kept.stopTask hc (Part.sub_of hp (by decide))))
  exact Kept.of hp h1

theorem Kept.startImageLoad (h : Kept p a s) (hp : Part.sub { hif := true, intc := true, recd := true, le := true } p = true := by first | decide | (refine Part.sub_of (by assumption) ?_; decide)) : Kept p a (Sys2Proof.Machine.startImageLoad x1 s) := by
  unfold Sys2Proof.Machine.startImageLoad
  repeat' first | with_reducible assumption | exact Part.sub_of hp (by decide) | with_reducible apply Kept.libStop | with_reducible apply Kept.foldl | with_reducible apply Kept.each | with_reducible refine Kept.ite (fun _ => ?_) (fun _ => ?_) | intro _ | (fail_if_no_progress with_reducible refine Kept.upd_of hp ?_ ?_ ?_ ?_ ?_ ?_ ?_ ?_ ?_ ?_ ?_ ?_ ?_ ?_ ?_ ?_ ?_ rfl rfl <;> try first | exact Or.inr rfl | exact Or.inl (by decide)) | (simp only [id_eq]; assumption) | dsimp only | split

theorem Kept.startTaskStart (h : Kept p a s) (hp : Part.sub { le := true } p = true := by first | decide | (refine Part.sub_of (by assumption) ?_; decide)) : Kept p a (Sys2Proof.Machine.startTaskStart x1 x2 x3 x4 x5 x6 x7 x8 x9 s) := by
  unfold Sys2Proof.Machine.startTaskStart
  repeat' first | with_reducible assumption | exact Part.sub_of hp (by decide) | with_reducible apply Kept.updTask | with_reducible apply Kept.foldl | with_reducible apply Kept.each | with_reducible refine Kept.ite (fun _ => ?_) (fun _ => ?_) | intro _ | (fail_if_no_progress with_reducible refine Kept.upd_of hp ?_ ?_ ?_ ?_ ?_ ?_ ?_ ?_ ?_ ?_ ?_ ?_ ?_ ?_ ?_ ?_ ?_ rfl rfl <;> try first | exact Or.inr rfl | exact Or.inl (by decide)) | (simp only [id_eq]; assumption) | dsimp only | split

theorem Kept.startTaskStop (h : Kept p a s) (hp : Part.sub { hif := true, intc := true, recd := true, le := true } p = true := by first | decide | (refine Part.sub_of (by assumption) ?_; decide)) : Kept p a (Sys2Proof.Machine.startTaskStop x1 x2 x3 s) := by
  unfold Sys2Proof.Machine.startTaskStop
  repeat' first | with_reducible assumption | exact Part.sub_of hp (by decide) | with_reducible apply Kept.complete | with_reducible apply Kept.stopTask | with_reducible apply Kept.foldl | with_reducible apply Kept.each | with_reducible refine Kept.ite (fun _ => ?_) (fun _ => ?_) | intro _ | (fail_if_no_progress with_reducible refine Kept.upd_of hp ?_ ?_ ?_ ?_ ?_ ?_ ?_ ?_ ?_ ?_ ?_ ?_ ?_ ?_ ?_ ?_ ?_ rfl rfl <;> try first | exact Or.inr rfl | exact Or.inl (by decide)) | (simp only [id_eq]; assumption) | dsimp only | split

theorem Kept.startSubscribe (h : Kept p a s) (hp : Part.sub { hif := true, intc := true, recd := true } p = true := by first | decide | (refine Part.sub_of (by assumption) ?_; decide)) : Kept p a (Sys2Proof.Machine.startSubscribe x1 x2 x3 x4 x5 x6 x7 s) := by
  unfold Sys2Proof.Machine.startSubscribe
  repeat' first | with_reducible assumption | exact Part.sub_of hp (by decide) | with_reducible apply Kept.complete | with_reducible apply Kept.foldl | with_reducible apply Kept.each | with_reducible refine Kept.ite (fun _ => ?_) (fun _ => ?_) | intro _ | (fail_if_no_progress with_reducible refine Kept.upd_of hp ?_ ?_ ?_ ?_ ?_ ?_ ?_ ?_ ?_ ?_ ?_ ?_ ?_ ?_ ?_ ?_ ?_ rfl rfl <;> try first | exact Or.inr rfl | exact Or.inl (by decide)) | (simp only [id_eq]; assumption) | dsimp only | split

theorem Kept.startRecNote (h : Kept p a s) (hp : Part.sub Part.alarms p = true := by first | decide | (refine Part.sub_of (by assumption) ?_; decide)) : Kept p a (Sys2Proof.Machine.startRecNote x1 x2 x3 s) := by
  unfold Sys2Proof.Machine.startRecNote
  repeat' first | with_reducible assumption | with_reducible apply Kept.record | exact Kept.record_rec | exact Part.sub_of hp (by decide) | with_reducible apply Kept.complete | with_reducible apply Kept.foldl | with_reducible apply Kept.each | with_reducible refine Kept.ite (fun _ => ?_) (fun _ => ?_) | intro _ | (fail_if_no_progress with_reducible refine Kept.upd_of hp ?_ ?_ ?_ ?_ ?_ ?_ ?_ ?_ ?_ ?_ ?_ ?_ ?_ ?_ ?_ ?_ ?_ rfl rfl <;> try first | exact Or.inr rfl | exact Or.inl (by decide)) | (simp only [id_eq]; assumption) | dsimp only | split

theorem Kept.recFlushCheck (h : Kept p a s) (hp : Part.sub { hif := true, intc := true, recd := true } p = true := by first | decide | (refine Part.sub_of (by assumption) ?_; decide)) : Kept p a (State.recFlushCheck s) := by
  unfold State.recFlushCheck
  repeat' first | with_reducible assumption | exact Part.sub_of hp (by decide) | with_reducible apply Kept.completeAll | with_reducible apply Kept.foldl | with_reducible apply Kept.each | with_reducible refine Kept.ite (fun _ => ?_) (fun _ => ?_) | intro _ | (fail_if_no_progress with_reducible refine Kept.upd_of hp ?_ ?_ ?_ ?_ ?_ ?_ ?_ ?_ ?_ ?_ ?_ ?_ ?_ ?_ ?_ ?_ ?_ rfl rfl <;> try first | exact Or.inr rfl | exact Or.inl (by decide)) | (simp only [id_eq]; assumption) | dsimp only | split

theorem Kept.startRecFlush (h : Kept p a s) (hp : Part.sub { hif := true, intc := true, recd := true } p = true := by first | decide | (refine Part.sub_of (by assumption) ?_; decide)) : Kept p a (Sys2Proof.Machine.startRecFlush x1 s) := by
  unfold Sys2Proof.Machine.startRecFlush
  repeat' first | with_reducible assumption | exact Part.sub_of hp (by decide) | with_reducible apply Kept.updPend | with_reducible apply Kept.recFlushCheck | with_reducible apply Kept.askFlush | with_reducible apply Kept.foldl | with_reducible apply Kept.each | with_reducible refine Kept.ite (fun _ => ?_) (fun _ => ?_) | intro _ | (fail_if_no_progress with_reducible refine Kept.upd_of hp ?_ ?_ ?_ ?_ ?_ ?_ ?_ ?_ ?_ ?_ ?_ ?_ ?_ ?_ ?_ ?_ ?_ rfl rfl <;> try first | exact Or.inr rfl | exact Or.inl (by decide)) | (simp only [id_eq]; assumption) | dsimp only | split

theorem Kept.streamReqSend (h : Kept p a s) (hp : Part.sub { jl := true } p = true := by first | decide | (refine Part.sub_of (by assumption) ?_; decide)) : Kept p a (State.streamReqSend s x1 x2) := by
  unfold State.streamReqSend
  repeat' first | with_reducible assumption | exact Part.sub_of hp (by decide) | with_reducible apply Kept.portSend | with_reducible apply Kept.updStrm | with_reducible apply Kept.foldl | with_reducible apply Kept.each | with_reducible refine Kept.ite (fun _ => ?_) (fun _ => ?_) | intro _ | (fail_if_no_progress with_reducible refine Kept.upd_of hp ?_ ?_ ?_ ?_ ?_ ?_ ?_ ?_ ?_ ?_ ?_ ?_ ?_ ?_ ?_ ?_ ?_ rfl rfl <;> try first | exact Or.inr rfl | exact Or.inl (by decide)) | (simp only [id_eq]; assumption) | dsimp only | split

theorem Kept.startStreamOpen (h : Kept p a s) (hp : Part.sub { hif := true, intc := true, recd := true, jl := true } p = true := by first | decide | (refine Part.sub_of (by assumption) ?_; decide)) : Kept p a (Sys2Proof.Machine.startStreamOpen x1 x2 x3 x4 x5 x6 x7 x8 x9 s) := by
  unfold Sys2Proof.Machine.startStreamOpen
  repeat' first | with_reducible assumption | exact Part.sub_of hp (by decide) | with_reducible apply Kept.complete | with_reducible apply Kept.updStrm | with_reducible apply Kept.streamReqSend | with_reducible apply Kept.foldl | with_reducible apply Kept.each | with_reducible refine Kept.ite (fun _ => ?_) (fun _ => ?_) | intro _ | (fail_if_no_progress with_reducible refine Kept.upd_of hp ?_ ?_ ?_ ?_ ?_ ?_ ?_ ?_ ?_ ?_ ?_ ?_ ?_ ?_ ?_ ?_ ?_ rfl rfl <;> try first | exact Or.inr rfl | exact Or.inl (by decide)) | (simp only [id_eq]; assumption) | dsimp only | split

theorem Kept.startStreamClose (h : Kept p a s) (hp : Part.sub { hif := true, intc := true, recd := true, jl := true } p = true := by first | decide | (refine Part.sub_of (by assumption) ?_; decide)) : Kept p a (Sys2Proof.Machine.startStreamClose x1 x2 x3 s) := by
  unfold Sys2Proof.Machine.startStreamClose
  repeat' first | with_reducible assumption | exact Part.sub_of hp (by decide) | with_reducible apply Kept.complete | with_reducible apply Kept.updStrm | with_reducible apply Kept.foldl | with_reducible apply Kept.each | with_reducible refine Kept.ite (fun _ => ?_) (fun _ => ?_) | intro _ | (fail_if_no_progress with_reducible refine Kept.upd_of hp ?_ ?_ ?_ ?_ ?_ ?_ ?_ ?_ ?_ ?_ ?_ ?_ ?_ ?_ ?_ ?_ ?_ rfl rfl <;> try first | exact Or.inr rfl | exact Or.inl (by decide)) | (simp only [id_eq]; assumption) | dsimp only | split

theorem Kept.startOf (h : Kept p a s) (hp : Part.sub { Part.alarms with rfe := true, luts := true, le := true, jl := true, freeCnt := true } p = true := by first | decide | (refine Part.sub_of (by assumption) ?_; decide)) : Kept p a (Sys2Proof.Machine.startOf x1 s) := by
  unfold Sys2Proof.Machine.startOf
  repeat' first | with_reducible assumption | exact Part.sub_of hp (by decide) | with_reducible apply Kept.complete | with_reducible apply Kept.startAbort | with_reducible apply Kept.startSlotConfig | with_reducible apply Kept.startSlotEnable | with_reducible apply Kept.startSlotDisable | with_reducible apply Kept.startSlotGainSet | with_reducible apply Kept.startSlotCoefLoad | with_reducible apply Kept.startSlotBankSwap | with_reducible apply Kept.startChainState | with_reducible apply Kept.startChainTune | with_reducible apply Kept.startCalRun | with_reducible apply Kept.startTxPowerStep | with_reducible apply Kept.startTunerSet | with_reducible apply Kept.startTunerSetRaw | with_reducible apply Kept.startCxAssign | with_reducible apply Kept.startCxResetSeed | with_reducible apply Kept.startGclBankSwap | with_reducible apply Kept.startGclSetpoint | with_reducible apply Kept.startInstallationModel | with_reducible apply Kept.startProtConfig | with_reducible apply Kept.startAuthWrite | with_reducible apply Kept.startWinterEnter | with_reducible apply Kept.startWinterRelease | with_reducible apply Kept.startImageLoad | with_reducible apply Kept.startTaskStart | with_reducible apply Kept.startTaskStop | with_reducible apply Kept.captNext | with_reducible apply Kept.startSubscribe | with_reducible apply Kept.startRecNote | with_reducible apply Kept.startRecFlush | with_reducible apply Kept.startStreamOpen | with_reducible apply Kept.startStreamClose | with_reducible apply Kept.foldl | with_reducible apply Kept.each | with_reducible refine Kept.ite (fun _ => ?_) (fun _ => ?_) | intro _ | (fail_if_no_progress with_reducible refine Kept.upd_of hp ?_ ?_ ?_ ?_ ?_ ?_ ?_ ?_ ?_ ?_ ?_ ?_ ?_ ?_ ?_ ?_ ?_ rfl rfl <;> try first | exact Or.inr rfl | exact Or.inl (by decide)) | (simp only [id_eq]; assumption) | dsimp only | split

theorem Kept.accept (h : Kept p a s) (hp : Part.sub { Part.alarms with rfe := true, luts := true, le := true, jl := true, freeCnt := true } p = true := by first | decide | (refine Part.sub_of (by assumption) ?_; decide)) : Kept p a (State.accept s x1 x2) := by
  unfold State.accept
  repeat' first | with_reducible assumption | exact Part.sub_of hp (by decide) | with_reducible apply Kept.pass | with_reducible apply Kept.startOf | with_reducible apply Kept.foldl | with_reducible apply Kept.each | with_reducible refine Kept.ite (fun _ => ?_) (fun _ => ?_) | intro _ | (fail_if_no_progress with_reducible refine Kept.upd_of hp ?_ ?_ ?_ ?_ ?_ ?_ ?_ ?_ ?_ ?_ ?_ ?_ ?_ ?_ ?_ ?_ ?_ rfl rfl <;> try first | exact Or.inr rfl | exact Or.inl (by decide)) | (simp only [id_eq]; assumption) | dsimp only | split

theorem Kept.clearCause (h : Kept p a s) (hp : Part.sub { prot := true } p = true := by first | decide | (refine Part.sub_of (by assumption) ?_; decide)) : Kept p a (State.clearCause s x1 x2) := by
  unfold State.clearCause
  repeat' first | with_reducible assumption | exact Part.sub_of hp (by decide) | with_reducible apply Kept.updObj | with_reducible apply Kept.foldl | with_reducible apply Kept.each | with_reducible refine Kept.ite (fun _ => ?_) (fun _ => ?_) | intro _ | (fail_if_no_progress with_reducible refine Kept.upd_of hp ?_ ?_ ?_ ?_ ?_ ?_ ?_ ?_ ?_ ?_ ?_ ?_ ?_ ?_ ?_ ?_ ?_ rfl rfl <;> try first | exact Or.inr rfl | exact Or.inl (by decide)) | (simp only [id_eq]; assumption) | dsimp only | split

theorem Kept.faultDrop (h : Kept p a s) (hp : Part.sub { prot := true } p = true := by first | decide | (refine Part.sub_of (by assumption) ?_; decide)) : Kept p a (State.faultDrop s x1 x2) := by
  unfold State.faultDrop
  repeat' first | with_reducible assumption | exact Part.sub_of hp (by decide) | with_reducible apply Kept.each | with_reducible apply Kept.updObj | with_reducible apply Kept.clearCause | with_reducible apply Kept.foldl | with_reducible apply Kept.each | with_reducible refine Kept.ite (fun _ => ?_) (fun _ => ?_) | intro _ | (fail_if_no_progress with_reducible refine Kept.upd_of hp ?_ ?_ ?_ ?_ ?_ ?_ ?_ ?_ ?_ ?_ ?_ ?_ ?_ ?_ ?_ ?_ ?_ rfl rfl <;> try first | exact Or.inr rfl | exact Or.inl (by decide)) | (simp only [id_eq]; assumption) | dsimp only | split

theorem Kept.occurIn (h : Kept p a s) (hp : Part.sub Part.alarms p = true := by first | decide | (refine Part.sub_of (by assumption) ?_; decide)) : Kept p a (State.occurIn s x1 x2 x3) := by
  unfold State.occurIn
  repeat' first | with_reducible assumption | with_reducible apply Kept.record | exact Kept.record_rec | exact Part.sub_of hp (by decide) | with_reducible apply Kept.updFsrc | with_reducible apply Kept.faultWinter | with_reducible apply Kept.occurWith | with_reducible apply Kept.foldl | with_reducible apply Kept.each | with_reducible refine Kept.ite (fun _ => ?_) (fun _ => ?_) | intro _ | (fail_if_no_progress with_reducible refine Kept.upd_of hp ?_ ?_ ?_ ?_ ?_ ?_ ?_ ?_ ?_ ?_ ?_ ?_ ?_ ?_ ?_ ?_ ?_ rfl rfl <;> try first | exact Or.inr rfl | exact Or.inl (by decide)) | (simp only [id_eq]; assumption) | dsimp only | split

theorem Kept.ackOne (h : Kept p a s) (hp : Part.sub Part.alarms p = true := by first | decide | (refine Part.sub_of (by assumption) ?_; decide)) : Kept p a (State.ackOne s x1) := by
  unfold State.ackOne
  repeat' first | with_reducible assumption | with_reducible apply Kept.record | exact Kept.record_rec | exact Part.sub_of hp (by decide) | with_reducible apply Kept.updFsrc | with_reducible apply Kept.faultDrop | with_reducible apply Kept.occurIn | with_reducible apply Kept.foldl | with_reducible apply Kept.each | with_reducible refine Kept.ite (fun _ => ?_) (fun _ => ?_) | intro _ | (fail_if_no_progress with_reducible refine Kept.upd_of hp ?_ ?_ ?_ ?_ ?_ ?_ ?_ ?_ ?_ ?_ ?_ ?_ ?_ ?_ ?_ ?_ ?_ rfl rfl <;> try first | exact Or.inr rfl | exact Or.inl (by decide)) | (simp only [id_eq]; assumption) | dsimp only | split

theorem Kept.takeFence (h : Kept p a s) (hp : Part.sub { Part.alarms with rfe := true, luts := true, le := true, jl := true, freeCnt := true } p = true := by first | decide | (refine Part.sub_of (by assumption) ?_; decide)) : Kept p a (State.takeFence s x1 x2) := by
  unfold State.takeFence
  repeat' first | with_reducible assumption | exact Part.sub_of hp (by decide) | with_reducible apply Kept.accept | with_reducible apply Kept.updRing | with_reducible apply Kept.foldl | with_reducible apply Kept.each | with_reducible refine Kept.ite (fun _ => ?_) (fun _ => ?_) | intro _ | (fail_if_no_progress with_reducible refine Kept.upd_of hp ?_ ?_ ?_ ?_ ?_ ?_ ?_ ?_ ?_ ?_ ?_ ?_ ?_ ?_ ?_ ?_ ?_ rfl rfl <;> try first | exact Or.inr rfl | exact Or.inl (by decide)) | (simp only [id_eq]; assumption) | dsimp only | split

theorem Kept.answerNow (h : Kept p a s) (hp : Part.sub { hif := true, intc := true, recd := true } p = true := by first | decide | (refine Part.sub_of (by assumption) ?_; decide)) : Kept p a (State.answerNow s x1 x2 x3 x4 x5 x6) := by
  unfold State.answerNow
  repeat' first | with_reducible assumption | exact Part.sub_of hp (by decide) | with_reducible apply Kept.sendCompl | with_reducible apply Kept.foldl | with_reducible apply Kept.each | with_reducible refine Kept.ite (fun _ => ?_) (fun _ => ?_) | intro _ | (fail_if_no_progress with_reducible refine Kept.upd_of hp ?_ ?_ ?_ ?_ ?_ ?_ ?_ ?_ ?_ ?_ ?_ ?_ ?_ ?_ ?_ ?_ ?_ rfl rfl <;> try first | exact Or.inr rfl | exact Or.inl (by decide)) | (simp only [id_eq]; assumption) | dsimp only | split

theorem Kept.regfault (h : Kept p a s) (hp : Part.sub Part.alarms p = true := by first | decide | (refine Part.sub_of (by assumption) ?_; decide)) : Kept p a (State.regfault s) := by
  unfold State.regfault
  repeat' first | with_reducible assumption | with_reducible apply Kept.record | exact Kept.record_rec | exact Part.sub_of hp (by decide) | with_reducible apply Kept.occurWith | with_reducible apply Kept.updObj | with_reducible apply Kept.winterSet | with_reducible apply Kept.foldl | with_reducible apply Kept.each | with_reducible refine Kept.ite (fun _ => ?_) (fun _ => ?_) | intro _ | (fail_if_no_progress with_reducible refine Kept.upd_of hp ?_ ?_ ?_ ?_ ?_ ?_ ?_ ?_ ?_ ?_ ?_ ?_ ?_ ?_ ?_ ?_ ?_ rfl rfl <;> try first | exact Or.inr rfl | exact Or.inl (by decide)) | (simp only [id_eq]; assumption) | dsimp only | split

theorem Kept.checkSev (h : Kept p a s) (hp : Part.sub Part.alarms p = true := by first | decide | (refine Part.sub_of (by assumption) ?_; decide)) : Kept p a (State.checkSev s x1 x2) := by
  unfold State.checkSev
  repeat' first | with_reducible assumption | exact Part.sub_of hp (by decide) | with_reducible apply Kept.regfault | with_reducible apply Kept.foldl | with_reducible apply Kept.each | with_reducible refine Kept.ite (fun _ => ?_) (fun _ => ?_) | intro _ | (fail_if_no_progress with_reducible refine Kept.upd_of hp ?_ ?_ ?_ ?_ ?_ ?_ ?_ ?_ ?_ ?_ ?_ ?_ ?_ ?_ ?_ ?_ ?_ rfl rfl <;> try first | exact Or.inr rfl | exact Or.inl (by decide)) | (simp only [id_eq]; assumption) | dsimp only | split

theorem Kept.checkCopy (h : Kept p a s) (hp : Part.sub Part.alarms p = true := by first | decide | (refine Part.sub_of (by assumption) ?_; decide)) : Kept p a (State.checkCopy s x1) := by
  unfold State.checkCopy
  repeat' first | with_reducible assumption | with_reducible apply Kept.record | exact Kept.record_rec | exact Part.sub_of hp (by decide) | with_reducible apply Kept.regfault | with_reducible apply Kept.firstOccur | with_reducible apply Kept.foldl | with_reducible apply Kept.each | with_reducible refine Kept.ite (fun _ => ?_) (fun _ => ?_) | intro _ | (fail_if_no_progress with_reducible refine Kept.upd_of hp ?_ ?_ ?_ ?_ ?_ ?_ ?_ ?_ ?_ ?_ ?_ ?_ ?_ ?_ ?_ ?_ ?_ rfl rfl <;> try first | exact Or.inr rfl | exact Or.inl (by decide)) | (simp only [id_eq]; assumption) | dsimp only | split

theorem Kept.checkCopies (h : Kept p a s) (hp : Part.sub Part.alarms p = true := by first | decide | (refine Part.sub_of (by assumption) ?_; decide)) : Kept p a (State.checkCopies s x1) := by
  unfold State.checkCopies
  repeat' first | with_reducible assumption | exact Part.sub_of hp (by decide) | with_reducible apply Kept.each | with_reducible apply Kept.checkSev | with_reducible apply Kept.checkCopy | with_reducible apply Kept.foldl | with_reducible apply Kept.each | with_reducible refine Kept.ite (fun _ => ?_) (fun _ => ?_) | intro _ | (fail_if_no_progress with_reducible refine Kept.upd_of hp ?_ ?_ ?_ ?_ ?_ ?_ ?_ ?_ ?_ ?_ ?_ ?_ ?_ ?_ ?_ ?_ ?_ rfl rfl <;> try first | exact Or.inr rfl | exact Or.inl (by decide)) | (simp only [id_eq]; assumption) | dsimp only | split

theorem Kept.checkPolicy (h : Kept p a s) (hp : Part.sub Part.alarms p = true := by first | decide | (refine Part.sub_of (by assumption) ?_; decide)) : Kept p a (State.checkPolicy s) := by
  unfold State.checkPolicy
  repeat' first | with_reducible assumption | with_reducible apply Kept.record | exact Kept.record_rec | exact Part.sub_of hp (by decide) | with_reducible apply Kept.occurWith | with_reducible apply Kept.foldl | with_reducible apply Kept.each | with_reducible refine Kept.ite (fun _ => ?_) (fun _ => ?_) | intro _ | (fail_if_no_progress with_reducible refine Kept.upd_of hp ?_ ?_ ?_ ?_ ?_ ?_ ?_ ?_ ?_ ?_ ?_ ?_ ?_ ?_ ?_ ?_ ?_ rfl rfl <;> try first | exact Or.inr rfl | exact Or.inl (by decide)) | (simp only [id_eq]; assumption) | dsimp only | split

theorem Kept.raiseI (h : Kept p a s) (hp : Part.sub Part.alarms p = true := by first | decide | (refine Part.sub_of (by assumption) ?_; decide)) : Kept p a (State.raiseI s x1 x2 x3 x4) := by
  unfold State.raiseI
  repeat' first | with_reducible assumption | with_reducible apply Kept.record | exact Kept.record_rec | exact Part.sub_of hp (by decide) | with_reducible apply Kept.occurWith | with_reducible apply Kept.checkCopies | with_reducible apply Kept.checkPolicy | with_reducible apply Kept.foldl | with_reducible apply Kept.each | with_reducible refine Kept.ite (fun _ => ?_) (fun _ => ?_) | intro _ | (fail_if_no_progress with_reducible refine Kept.upd_of hp ?_ ?_ ?_ ?_ ?_ ?_ ?_ ?_ ?_ ?_ ?_ ?_ ?_ ?_ ?_ ?_ ?_ rfl rfl <;> try first | exact Or.inr rfl | exact Or.inl (by decide)) | (simp only [id_eq]; assumption) | dsimp only | split

theorem Kept.raise (h : Kept p a s) (hp : Part.sub Part.alarms p = true := by first | decide | (refine Part.sub_of (by assumption) ?_; decide)) : Kept p a (State.raise s x1 x2 x3) := by
  unfold State.raise
  repeat' first | with_reducible assumption | exact Part.sub_of hp (by decide) | with_reducible apply Kept.raiseI | with_reducible apply Kept.foldl | with_reducible apply Kept.each | with_reducible refine Kept.ite (fun _ => ?_) (fun _ => ?_) | intro _ | (fail_if_no_progress with_reducible refine Kept.upd_of hp ?_ ?_ ?_ ?_ ?_ ?_ ?_ ?_ ?_ ?_ ?_ ?_ ?_ ?_ ?_ ?_ ?_ rfl rfl <;> try first | exact Or.inr rfl | exact Or.inl (by decide)) | (simp only [id_eq]; assumption) | dsimp only | split

theorem Kept.imgReject (h : Kept p a s) (hp : Part.sub Part.alarms p = true := by first | decide | (refine Part.sub_of (by assumption) ?_; decide)) : Kept p a (State.imgReject s x1 x2) := by
  unfold State.imgReject
  repeat' first | with_reducible assumption | exact Part.sub_of hp (by decide) | with_reducible apply Kept.raise | with_reducible apply Kept.foldl | with_reducible apply Kept.each | with_reducible refine Kept.ite (fun _ => ?_) (fun _ => ?_) | intro _ | (fail_if_no_progress with_reducible refine Kept.upd_of hp ?_ ?_ ?_ ?_ ?_ ?_ ?_ ?_ ?_ ?_ ?_ ?_ ?_ ?_ ?_ ?_ ?_ rfl rfl <;> try first | exact Or.inr rfl | exact Or.inl (by decide)) | (simp only [id_eq]; assumption) | dsimp only | split

theorem Kept.receive (h : Kept p a s) (hp : Part.sub { Part.alarms with rfe := true, luts := true, le := true, jl := true, freeCnt := true } p = true := by first | decide | (refine Part.sub_of (by assumption) ?_; decide)) : Kept p a (State.receive s x1 x2) := by
  unfold State.receive
  repeat' first | with_reducible assumption | exact Part.sub_of hp (by decide) | with_reducible apply Kept.takeFence | with_reducible apply Kept.answerNow | with_reducible apply Kept.imgReject | with_reducible apply Kept.pass | with_reducible apply Kept.accept | with_reducible apply Kept.foldl | with_reducible apply Kept.each | with_reducible refine Kept.ite (fun _ => ?_) (fun _ => ?_) | intro _ | (fail_if_no_progress with_reducible refine Kept.upd_of hp ?_ ?_ ?_ ?_ ?_ ?_ ?_ ?_ ?_ ?_ ?_ ?_ ?_ ?_ ?_ ?_ ?_ rfl rfl <;> try first | exact Or.inr rfl | exact Or.inl (by decide)) | (simp only [id_eq]; assumption) | dsimp only | split

theorem Kept.agcStep (h : Kept p a s) (hp : Part.sub Part.alarms p = true := by first | decide | (refine Part.sub_of (by assumption) ?_; decide)) : Kept p a (State.agcStep s x1 x2) := by
  unfold State.agcStep
  repeat' first | with_reducible assumption | exact Part.sub_of hp (by decide) | with_reducible apply Kept.updGain | with_reducible apply Kept.raise | with_reducible apply Kept.foldl | with_reducible apply Kept.each | with_reducible refine Kept.ite (fun _ => ?_) (fun _ => ?_) | intro _ | (fail_if_no_progress with_reducible refine Kept.upd_of hp ?_ ?_ ?_ ?_ ?_ ?_ ?_ ?_ ?_ ?_ ?_ ?_ ?_ ?_ ?_ ?_ ?_ rfl rfl <;> try first | exact Or.inr rfl | exact Or.inl (by decide)) | (simp only [id_eq]; assumption) | dsimp only | split

theorem Kept.agrpWrite (h : Kept p a s) (hp : Part.sub { jl := true } p = true := by first | decide | (refine Part.sub_of (by assumption) ?_; decide)) : Kept p a (State.agrpWrite s x1 x2) := by
  unfold State.agrpWrite
  repeat' first | with_reducible assumption | exact Part.sub_of hp (by decide) | with_reducible apply Kept.foldl | with_reducible apply Kept.each | with_reducible refine Kept.ite (fun _ => ?_) (fun _ => ?_) | intro _ | (fail_if_no_progress with_reducible refine Kept.upd_of hp ?_ ?_ ?_ ?_ ?_ ?_ ?_ ?_ ?_ ?_ ?_ ?_ ?_ ?_ ?_ ?_ ?_ rfl rfl <;> try first | exact Or.inr rfl | exact Or.inl (by decide)) | (simp only [id_eq]; assumption) | dsimp only | split

theorem Kept.stageTo (h : Kept p a s) (hp : Part.sub { tst := true } p = true := by first | decide | (refine Part.sub_of (by assumption) ?_; decide)) : Kept p a (State.stageTo s x1) := by
  unfold State.stageTo
  repeat' first | with_reducible assumption | exact Part.sub_of hp (by decide) | with_reducible apply Kept.foldl | with_reducible apply Kept.each | with_reducible refine Kept.ite (fun _ => ?_) (fun _ => ?_) | intro _ | (fail_if_no_progress with_reducible refine Kept.upd_of hp ?_ ?_ ?_ ?_ ?_ ?_ ?_ ?_ ?_ ?_ ?_ ?_ ?_ ?_ ?_ ?_ ?_ rfl rfl <;> try first | exact Or.inr rfl | exact Or.inl (by decide)) | (simp only [id_eq]; assumption) | dsimp only | split

theorem Kept.routeSend (h : Kept p a s) (hp : Part.sub { jl := true } p = true := by first | decide | (refine Part.sub_of (by assumption) ?_; decide)) : Kept p a (State.routeSend s x1) := by
  unfold State.routeSend
  repeat' first | with_reducible assumption | exact Part.sub_of hp (by decide) | with_reducible apply Kept.portSend | with_reducible apply Kept.foldl | with_reducible apply Kept.each | with_reducible refine Kept.ite (fun _ => ?_) (fun _ => ?_) | intro _ | (fail_if_no_progress with_reducible refine Kept.upd_of hp ?_ ?_ ?_ ?_ ?_ ?_ ?_ ?_ ?_ ?_ ?_ ?_ ?_ ?_ ?_ ?_ ?_ rfl rfl <;> try first | exact Or.inr rfl | exact Or.inl (by decide)) | (simp only [id_eq]; assumption) | dsimp only | split

theorem Kept.reqRelease (h : Kept p a s) (hp : Part.sub { jl := true } p = true := by first | decide | (refine Part.sub_of (by assumption) ?_; decide)) : Kept p a (State.reqRelease s x1) := by
  unfold State.reqRelease
  repeat' first | with_reducible assumption | exact Part.sub_of hp (by decide) | with_reducible apply Kept.routeSend | with_reducible apply Kept.foldl | with_reducible apply Kept.each | with_reducible refine Kept.ite (fun _ => ?_) (fun _ => ?_) | intro _ | (fail_if_no_progress with_reducible refine Kept.upd_of hp ?_ ?_ ?_ ?_ ?_ ?_ ?_ ?_ ?_ ?_ ?_ ?_ ?_ ?_ ?_ ?_ ?_ rfl rfl <;> try first | exact Or.inr rfl | exact Or.inl (by decide)) | (simp only [id_eq]; assumption) | dsimp only | split

theorem Kept.capsFold {α β : Type} {r : β × State} {l : List α} {f : β × State → α → β × State} (h : Kept p a r.2) (hf : ∀ q x, Kept p a q.2 → Kept p a (f q x).2) :
    Kept p a (l.foldl f r).2 := by
  induction l generalizing r with
  | nil => exact h
  | cons x t ih => exact ih (hf r x h)

theorem Kept.request (h : Kept p a s) (hp : Part.sub { jl := true } p = true := by first | decide | (refine Part.sub_of (by assumption) ?_; decide))  : Kept p a (s.request x1 x2 x3).2 := by
  unfold State.request
  repeat' first | with_reducible assumption | with_reducible apply Kept.reqRelease | (fail_if_no_progress with_reducible refine Kept.of hp h) | dsimp only | split

theorem Kept.lockedJoin (h : Kept p a s) (hp : Part.sub { jl := true } p = true := by first | decide | (refine Part.sub_of (by assumption) ?_; decide))  : Kept p a s.lockedJoin := Kept.request (Kept.of hp h)

theorem Kept.alignStage (h : Kept p a s) (hp : Part.sub { rfe := true, tim := true, jl := true, tst := true } p = true := by first | decide | (refine Part.sub_of (by assumption) ?_; decide)) : Kept p a (State.alignStage s) := by
  unfold State.alignStage
  repeat' first | with_reducible assumption | exact Part.sub_of hp (by decide) | with_reducible apply Kept.stageTo | with_reducible apply Kept.lockedJoin | with_reducible apply Kept.foldl | with_reducible apply Kept.each | with_reducible refine Kept.ite (fun _ => ?_) (fun _ => ?_) | intro _ | (fail_if_no_progress with_reducible refine Kept.upd_of hp ?_ ?_ ?_ ?_ ?_ ?_ ?_ ?_ ?_ ?_ ?_ ?_ ?_ ?_ ?_ ?_ ?_ rfl rfl <;> try first | exact Or.inr rfl | exact Or.inl (by decide)) | (simp only [id_eq]; assumption) | dsimp only | split

theorem Kept.aliveHalf (h : Kept p a s) (hp : Part.sub { flt := true } p = true := by first | decide | (refine Part.sub_of (by assumption) ?_; decide)) : Kept p a (State.aliveHalf s) := by
  unfold State.aliveHalf
  repeat' first | with_reducible assumption | exact Part.sub_of hp (by decide) | with_reducible apply Kept.foldl | with_reducible apply Kept.each | with_reducible refine Kept.ite (fun _ => ?_) (fun _ => ?_) | intro _ | (fail_if_no_progress with_reducible refine Kept.upd_of hp ?_ ?_ ?_ ?_ ?_ ?_ ?_ ?_ ?_ ?_ ?_ ?_ ?_ ?_ ?_ ?_ ?_ rfl rfl <;> try first | exact Or.inr rfl | exact Or.inl (by decide)) | (simp only [id_eq]; assumption) | dsimp only | split

theorem Kept.answered (h : Kept p a s) (hp : Part.sub { jl := true } p = true := by first | decide | (refine Part.sub_of (by assumption) ?_; decide)) : Kept p a (State.answered s x1 x2 x3) := by
  unfold State.answered
  repeat' first | with_reducible assumption | exact Part.sub_of hp (by decide) | with_reducible apply Kept.reqRelease | with_reducible apply Kept.foldl | with_reducible apply Kept.each | with_reducible refine Kept.ite (fun _ => ?_) (fun _ => ?_) | intro _ | (fail_if_no_progress with_reducible refine Kept.upd_of hp ?_ ?_ ?_ ?_ ?_ ?_ ?_ ?_ ?_ ?_ ?_ ?_ ?_ ?_ ?_ ?_ ?_ rfl rfl <;> try first | exact Or.inr rfl | exact Or.inl (by decide)) | (simp only [id_eq]; assumption) | dsimp only | split

theorem Kept.cxRescale (h : Kept p a s) (hp : Part.sub { cx := true, jl := true } p = true := by first | decide | (refine Part.sub_of (by assumption) ?_; decide)) : Kept p a (State.cxRescale s x1 x2 x3) := by
  unfold State.cxRescale
  repeat' first | with_reducible assumption | exact Part.sub_of hp (by decide) | with_reducible apply Kept.each | with_reducible apply Kept.cxReport | with_reducible apply Kept.updInst | with_reducible apply Kept.foldl | with_reducible apply Kept.each | with_reducible refine Kept.ite (fun _ => ?_) (fun _ => ?_) | intro _ | (fail_if_no_progress with_reducible refine Kept.upd_of hp ?_ ?_ ?_ ?_ ?_ ?_ ?_ ?_ ?_ ?_ ?_ ?_ ?_ ?_ ?_ ?_ ?_ rfl rfl <;> try first | exact Or.inr rfl | exact Or.inl (by decide)) | (simp only [id_eq]; assumption) | dsimp only | split

theorem Kept.applyPower (h : Kept p a s) (hp : Part.sub { rfe := true, cx := true, gcl := true, jl := true } p = true := by first | decide | (refine Part.sub_of (by assumption) ?_; decide)) : Kept p a (State.applyPower s x1 x2) := by
  unfold State.applyPower
  repeat' first | with_reducible assumption | exact Part.sub_of hp (by decide) | with_reducible apply Kept.updTx | with_reducible apply Kept.capAll | with_reducible apply Kept.cxRescale | with_reducible apply Kept.foldl | with_reducible apply Kept.each | with_reducible refine Kept.ite (fun _ => ?_) (fun _ => ?_) | intro _ | (fail_if_no_progress with_reducible refine Kept.upd_of hp ?_ ?_ ?_ ?_ ?_ ?_ ?_ ?_ ?_ ?_ ?_ ?_ ?_ ?_ ?_ ?_ ?_ rfl rfl <;> try first | exact Or.inr rfl | exact Or.inl (by decide)) | (simp only [id_eq]; assumption) | dsimp only | split

theorem Kept.authSlot (h : Kept p a s) (hp : Part.sub Part.alarms p = true := by first | decide | (refine Part.sub_of (by assumption) ?_; decide)) : Kept p a (State.authSlot s x1) := by
  unfold State.authSlot
  repeat' first | with_reducible assumption | exact Part.sub_of hp (by decide) | with_reducible apply Kept.clearCause | with_reducible apply Kept.updSlot | with_reducible apply Kept.winterSet | with_reducible apply Kept.raise | with_reducible apply Kept.foldl | with_reducible apply Kept.each | with_reducible refine Kept.ite (fun _ => ?_) (fun _ => ?_) | intro _ | (fail_if_no_progress with_reducible refine Kept.upd_of hp ?_ ?_ ?_ ?_ ?_ ?_ ?_ ?_ ?_ ?_ ?_ ?_ ?_ ?_ ?_ ?_ ?_ rfl rfl <;> try first | exact Or.inr rfl | exact Or.inl (by decide)) | (simp only [id_eq]; assumption) | dsimp only | split

theorem Kept.authStream (h : Kept p a s) (hp : Part.sub { Part.alarms with jl := true } p = true := by first | decide | (refine Part.sub_of (by assumption) ?_; decide)) : Kept p a (State.authStream s x1) := by
  unfold State.authStream
  repeat' first | with_reducible assumption | exact Part.sub_of hp (by decide) | with_reducible apply Kept.updStrm | with_reducible apply Kept.raise | with_reducible apply Kept.foldl | with_reducible apply Kept.each | with_reducible refine Kept.ite (fun _ => ?_) (fun _ => ?_) | intro _ | (fail_if_no_progress with_reducible refine Kept.upd_of hp ?_ ?_ ?_ ?_ ?_ ?_ ?_ ?_ ?_ ?_ ?_ ?_ ?_ ?_ ?_ ?_ ?_ rfl rfl <;> try first | exact Or.inr rfl | exact Or.inl (by decide)) | (simp only [id_eq]; assumption) | dsimp only | split

theorem Kept.authChain (h : Kept p a s) (hp : Part.sub { Part.alarms with jl := true } p = true := by first | decide | (refine Part.sub_of (by assumption) ?_; decide)) : Kept p a (State.authChain s x1) := by
  unfold State.authChain
  repeat' first | with_reducible assumption | exact Part.sub_of hp (by decide) | with_reducible apply Kept.each | with_reducible apply Kept.authSlot | with_reducible apply Kept.authStream | with_reducible apply Kept.foldl | with_reducible apply Kept.each | with_reducible refine Kept.ite (fun _ => ?_) (fun _ => ?_) | intro _ | (fail_if_no_progress with_reducible refine Kept.upd_of hp ?_ ?_ ?_ ?_ ?_ ?_ ?_ ?_ ?_ ?_ ?_ ?_ ?_ ?_ ?_ ?_ ?_ rfl rfl <;> try first | exact Or.inr rfl | exact Or.inl (by decide)) | (simp only [id_eq]; assumption) | dsimp only | split

theorem Kept.authCheck (h : Kept p a s) (hp : Part.sub { Part.alarms with jl := true } p = true := by first | decide | (refine Part.sub_of (by assumption) ?_; decide)) : Kept p a (State.authCheck s x1) := by
  unfold State.authCheck
  repeat' first | with_reducible assumption | exact Part.sub_of hp (by decide) | with_reducible apply Kept.authSlot | with_reducible apply Kept.each | with_reducible apply Kept.authStream | with_reducible apply Kept.foldl | with_reducible apply Kept.each | with_reducible refine Kept.ite (fun _ => ?_) (fun _ => ?_) | intro _ | (fail_if_no_progress with_reducible refine Kept.upd_of hp ?_ ?_ ?_ ?_ ?_ ?_ ?_ ?_ ?_ ?_ ?_ ?_ ?_ ?_ ?_ ?_ ?_ rfl rfl <;> try first | exact Or.inr rfl | exact Or.inl (by decide)) | (simp only [id_eq]; assumption) | dsimp only | split

theorem Kept.authRestore (h : Kept p a s) (hp : Part.sub Part.alarms p = true := by first | decide | (refine Part.sub_of (by assumption) ?_; decide)) : Kept p a (State.authRestore s x1) := by
  unfold State.authRestore
  repeat' first | with_reducible assumption | exact Part.sub_of hp (by decide) | with_reducible apply Kept.raise | with_reducible apply Kept.foldl | with_reducible apply Kept.each | with_reducible refine Kept.ite (fun _ => ?_) (fun _ => ?_) | intro _ | (fail_if_no_progress with_reducible refine Kept.upd_of hp ?_ ?_ ?_ ?_ ?_ ?_ ?_ ?_ ?_ ?_ ?_ ?_ ?_ ?_ ?_ ?_ ?_ rfl rfl <;> try first | exact Or.inr rfl | exact Or.inl (by decide)) | (simp only [id_eq]; assumption) | dsimp only | split

theorem Kept.authStoreEnd (h : Kept p a s) (hp : Part.sub { hif := true, intc := true, recd := true } p = true := by first | decide | (refine Part.sub_of (by assumption) ?_; decide)) : Kept p a (State.authStoreEnd s x1) := by
  unfold State.authStoreEnd
  repeat' first | with_reducible assumption | exact Part.sub_of hp (by decide) | with_reducible apply Kept.complete | with_reducible apply Kept.foldl | with_reducible apply Kept.each | with_reducible refine Kept.ite (fun _ => ?_) (fun _ => ?_) | intro _ | (fail_if_no_progress with_reducible refine Kept.upd_of hp ?_ ?_ ?_ ?_ ?_ ?_ ?_ ?_ ?_ ?_ ?_ ?_ ?_ ?_ ?_ ?_ ?_ rfl rfl <;> try first | exact Or.inr rfl | exact Or.inl (by decide)) | (simp only [id_eq]; assumption) | dsimp only | split

theorem Kept.updTile (h : Kept p a s) (hp : Part.sub { tim := true } p = true := by first | decide | (refine Part.sub_of (by assumption) ?_; decide)) : Kept p a (State.updTile s x1 x2) := by
  unfold State.updTile
  repeat' first | with_reducible assumption | exact Part.sub_of hp (by decide) | with_reducible apply Kept.foldl | with_reducible apply Kept.each | with_reducible refine Kept.ite (fun _ => ?_) (fun _ => ?_) | intro _ | (fail_if_no_progress with_reducible refine Kept.upd_of hp ?_ ?_ ?_ ?_ ?_ ?_ ?_ ?_ ?_ ?_ ?_ ?_ ?_ ?_ ?_ ?_ ?_ rfl rfl <;> try first | exact Or.inr rfl | exact Or.inl (by decide)) | (simp only [id_eq]; assumption) | dsimp only | split

theorem Kept.autumnAdvance (h : Kept p a s) (hp : Part.sub { tim := true } p = true := by first | decide | (refine Part.sub_of (by assumption) ?_; decide)) : Kept p a (State.autumnAdvance s x1) := by
  unfold State.autumnAdvance
  repeat' first | with_reducible assumption | exact Part.sub_of hp (by decide) | with_reducible apply Kept.updTile | with_reducible apply Kept.foldl | with_reducible apply Kept.each | with_reducible refine Kept.ite (fun _ => ?_) (fun _ => ?_) | intro _ | (fail_if_no_progress with_reducible refine Kept.upd_of hp ?_ ?_ ?_ ?_ ?_ ?_ ?_ ?_ ?_ ?_ ?_ ?_ ?_ ?_ ?_ ?_ ?_ rfl rfl <;> try first | exact Or.inr rfl | exact Or.inl (by decide)) | (simp only [id_eq]; assumption) | dsimp only | split

theorem Kept.autumnExit (h : Kept p a s) (hp : Part.sub { tim := true } p = true := by first | decide | (refine Part.sub_of (by assumption) ?_; decide)) : Kept p a (State.autumnExit s x1) := by
  unfold State.autumnExit
  repeat' first | with_reducible assumption | exact Part.sub_of hp (by decide) | with_reducible apply Kept.updTile | with_reducible apply Kept.foldl | with_reducible apply Kept.each | with_reducible refine Kept.ite (fun _ => ?_) (fun _ => ?_) | intro _ | (fail_if_no_progress with_reducible refine Kept.upd_of hp ?_ ?_ ?_ ?_ ?_ ?_ ?_ ?_ ?_ ?_ ?_ ?_ ?_ ?_ ?_ ?_ ?_ rfl rfl <;> try first | exact Or.inr rfl | exact Or.inl (by decide)) | (simp only [id_eq]; assumption) | dsimp only | split

theorem Kept.writeRejected (h : Kept p a s) (hp : Part.sub Part.alarms p = true := by first | decide | (refine Part.sub_of (by assumption) ?_; decide)) : Kept p a (State.writeRejected s) := by
  unfold State.writeRejected
  repeat' first | with_reducible assumption | exact Part.sub_of hp (by decide) | with_reducible apply Kept.raise | with_reducible apply Kept.foldl | with_reducible apply Kept.each | with_reducible refine Kept.ite (fun _ => ?_) (fun _ => ?_) | intro _ | (fail_if_no_progress with_reducible refine Kept.upd_of hp ?_ ?_ ?_ ?_ ?_ ?_ ?_ ?_ ?_ ?_ ?_ ?_ ?_ ?_ ?_ ?_ ?_ rfl rfl <;> try first | exact Or.inr rfl | exact Or.inl (by decide)) | (simp only [id_eq]; assumption) | dsimp only | split

theorem Kept.sevWrite (h : Kept p a s) (hp : Part.sub Part.alarms p = true := by first | decide | (refine Part.sub_of (by assumption) ?_; decide)) : Kept p a (State.sevWrite s x1 x2 x3) := by
  unfold State.sevWrite
  repeat' first | with_reducible assumption | exact Part.sub_of hp (by decide) | with_reducible apply Kept.writeRejected | with_reducible apply Kept.foldl | with_reducible apply Kept.each | with_reducible refine Kept.ite (fun _ => ?_) (fun _ => ?_) | intro _ | (fail_if_no_progress with_reducible refine Kept.upd_of hp ?_ ?_ ?_ ?_ ?_ ?_ ?_ ?_ ?_ ?_ ?_ ?_ ?_ ?_ ?_ ?_ ?_ rfl rfl <;> try first | exact Or.inr rfl | exact Or.inl (by decide)) | (simp only [id_eq]; assumption) | dsimp only | split

theorem Kept.graceExpiry (h : Kept p a s) (hp : Part.sub Part.alarms p = true := by first | decide | (refine Part.sub_of (by assumption) ?_; decide)) : Kept p a (State.graceExpiry s x1) := by
  unfold State.graceExpiry
  split
  · split
    · dsimp only
      have h1 : Kept p a (s.checkCopies (x1 / 16)) := Kept.checkCopies h
      generalize s.checkCopies (x1 / 16) = u at h1 ⊢
      split
      · have hr : KeptRec p State.record := Kept.record_rec
        exact Kept.escalateWinter hr (Kept.faultRecord hr (Kept.updFsrc h1))
      · exact h1
    · exact h
  · exact h

theorem Kept.faultAck (h : Kept p a s) (hp : Part.sub Part.alarms p = true := by first | decide | (refine Part.sub_of (by assumption) ?_; decide)) : Kept p a (State.faultAck s x1 x2) := by
  unfold State.faultAck
  repeat' first | with_reducible assumption | exact Part.sub_of hp (by decide) | with_reducible apply Kept.each | with_reducible apply Kept.checkCopies | with_reducible apply Kept.graceExpiry | with_reducible apply Kept.ackOne | with_reducible apply Kept.foldl | with_reducible apply Kept.each | with_reducible refine Kept.ite (fun _ => ?_) (fun _ => ?_) | intro _ | (fail_if_no_progress with_reducible refine Kept.upd_of hp ?_ ?_ ?_ ?_ ?_ ?_ ?_ ?_ ?_ ?_ ?_ ?_ ?_ ?_ ?_ ?_ ?_ rfl rfl <;> try first | exact Or.inr rfl | exact Or.inl (by decide)) | (simp only [id_eq]; assumption) | dsimp only | split

theorem Kept.graceWrite (h : Kept p a s) (hp : Part.sub { flt := true } p = true := by first | decide | (refine Part.sub_of (by assumption) ?_; decide)) : Kept p a (State.graceWrite s x1 x2) := by
  unfold State.graceWrite
  repeat' first | with_reducible assumption | exact Part.sub_of hp (by decide) | with_reducible apply Kept.foldl | with_reducible apply Kept.each | with_reducible refine Kept.ite (fun _ => ?_) (fun _ => ?_) | intro _ | (fail_if_no_progress with_reducible refine Kept.upd_of hp ?_ ?_ ?_ ?_ ?_ ?_ ?_ ?_ ?_ ?_ ?_ ?_ ?_ ?_ ?_ ?_ ?_ rfl rfl <;> try first | exact Or.inr rfl | exact Or.inl (by decide)) | (simp only [id_eq]; assumption) | dsimp only | split

theorem Kept.fltRegWrite (h : Kept p a s) (hp : Part.sub Part.alarms p = true := by first | decide | (refine Part.sub_of (by assumption) ?_; decide)) : Kept p a (State.fltRegWrite s x1 x2) := by
  unfold State.fltRegWrite
  repeat' first | with_reducible assumption | exact Part.sub_of hp (by decide) | with_reducible apply Kept.sevWrite | with_reducible apply Kept.faultAck | with_reducible apply Kept.graceWrite | with_reducible apply Kept.foldl | with_reducible apply Kept.each | with_reducible refine Kept.ite (fun _ => ?_) (fun _ => ?_) | intro _ | (fail_if_no_progress with_reducible refine Kept.upd_of hp ?_ ?_ ?_ ?_ ?_ ?_ ?_ ?_ ?_ ?_ ?_ ?_ ?_ ?_ ?_ ?_ ?_ rfl rfl <;> try first | exact Or.inr rfl | exact Or.inl (by decide)) | (simp only [id_eq]; assumption) | dsimp only | split

theorem Kept.genVidWrite (h : Kept p a s) (hp : Part.sub { tim := true } p = true := by first | decide | (refine Part.sub_of (by assumption) ?_; decide)) : Kept p a (State.genVidWrite s x1) := by
  unfold State.genVidWrite
  repeat' first | with_reducible assumption | exact Part.sub_of hp (by decide) | with_reducible apply Kept.foldl | with_reducible apply Kept.each | with_reducible refine Kept.ite (fun _ => ?_) (fun _ => ?_) | intro _ | (fail_if_no_progress with_reducible refine Kept.upd_of hp ?_ ?_ ?_ ?_ ?_ ?_ ?_ ?_ ?_ ?_ ?_ ?_ ?_ ?_ ?_ ?_ ?_ rfl rfl <;> try first | exact Or.inr rfl | exact Or.inl (by decide)) | (simp only [id_eq]; assumption) | dsimp only | split

theorem Kept.crBaseWrite (h : Kept p a s) (hp : Part.sub { hif := true } p = true := by first | decide | (refine Part.sub_of (by assumption) ?_; decide)) : Kept p a (State.crBaseWrite s x1 x2 x3) := by
  unfold State.crBaseWrite
  repeat' first | with_reducible assumption | exact Part.sub_of hp (by decide) | with_reducible apply Kept.updRing | with_reducible apply Kept.foldl | with_reducible apply Kept.each | with_reducible refine Kept.ite (fun _ => ?_) (fun _ => ?_) | intro _ | (fail_if_no_progress with_reducible refine Kept.upd_of hp ?_ ?_ ?_ ?_ ?_ ?_ ?_ ?_ ?_ ?_ ?_ ?_ ?_ ?_ ?_ ?_ ?_ rfl rfl <;> try first | exact Or.inr rfl | exact Or.inl (by decide)) | (simp only [id_eq]; assumption) | dsimp only | split

theorem Kept.flushHeld (h : Kept p a s) (hp : Part.sub { hif := true, intc := true } p = true := by first | decide | (refine Part.sub_of (by assumption) ?_; decide)) : Kept p a (State.flushHeld s x1) := by
  unfold State.flushHeld
  repeat' first | with_reducible assumption | exact Part.sub_of hp (by decide) | with_reducible apply Kept.drainCheck | with_reducible apply Kept.putCompl | with_reducible apply Kept.foldl | with_reducible apply Kept.each | with_reducible refine Kept.ite (fun _ => ?_) (fun _ => ?_) | intro _ | (fail_if_no_progress with_reducible refine Kept.upd_of hp ?_ ?_ ?_ ?_ ?_ ?_ ?_ ?_ ?_ ?_ ?_ ?_ ?_ ?_ ?_ ?_ ?_ rfl rfl <;> try first | exact Or.inr rfl | exact Or.inl (by decide)) | (simp only [id_eq]; assumption) | dsimp only | split

theorem Kept.flushHeldIf (h : Kept p a s) (hp : Part.sub { hif := true, intc := true } p = true := by first | decide | (refine Part.sub_of (by assumption) ?_; decide)) : Kept p a (State.flushHeldIf s x1) := by
  unfold State.flushHeldIf
  repeat' first | with_reducible assumption | exact Part.sub_of hp (by decide) | with_reducible apply Kept.flushHeld | with_reducible apply Kept.foldl | with_reducible apply Kept.each | with_reducible refine Kept.ite (fun _ => ?_) (fun _ => ?_) | intro _ | (fail_if_no_progress with_reducible refine Kept.upd_of hp ?_ ?_ ?_ ?_ ?_ ?_ ?_ ?_ ?_ ?_ ?_ ?_ ?_ ?_ ?_ ?_ ?_ rfl rfl <;> try first | exact Or.inr rfl | exact Or.inl (by decide)) | (simp only [id_eq]; assumption) | dsimp only | split

theorem Kept.crCfgWrite (h : Kept p a s) (hp : Part.sub { hif := true, intc := true } p = true := by first | decide | (refine Part.sub_of (by assumption) ?_; decide)) : Kept p a (State.crCfgWrite s x1 x2) := by
  unfold State.crCfgWrite
  repeat' first | with_reducible assumption | exact Part.sub_of hp (by decide) | with_reducible apply Kept.updRing | with_reducible apply Kept.drainCheck | with_reducible apply Kept.flushHeldIf | with_reducible apply Kept.foldl | with_reducible apply Kept.each | with_reducible refine Kept.ite (fun _ => ?_) (fun _ => ?_) | intro _ | (fail_if_no_progress with_reducible refine Kept.upd_of hp ?_ ?_ ?_ ?_ ?_ ?_ ?_ ?_ ?_ ?_ ?_ ?_ ?_ ?_ ?_ ?_ ?_ rfl rfl <;> try first | exact Or.inr rfl | exact Or.inl (by decide)) | (simp only [id_eq]; assumption) | dsimp only | split

theorem Kept.crRestart (h : Kept p a s) (hp : Part.sub { hif := true, intc := true } p = true := by first | decide | (refine Part.sub_of (by assumption) ?_; decide)) : Kept p a (State.crRestart s x1 x2) := by
  unfold State.crRestart
  repeat' first | with_reducible assumption | exact Part.sub_of hp (by decide) | with_reducible apply Kept.flushHeld | with_reducible apply Kept.updRing | with_reducible apply Kept.foldl | with_reducible apply Kept.each | with_reducible refine Kept.ite (fun _ => ?_) (fun _ => ?_) | intro _ | (fail_if_no_progress with_reducible refine Kept.upd_of hp ?_ ?_ ?_ ?_ ?_ ?_ ?_ ?_ ?_ ?_ ?_ ?_ ?_ ?_ ?_ ?_ ?_ rfl rfl <;> try first | exact Or.inr rfl | exact Or.inl (by decide)) | (simp only [id_eq]; assumption) | dsimp only | split

theorem Kept.updTr (h : Kept p a s) (hp : Part.sub { hif := true } p = true := by first | decide | (refine Part.sub_of (by assumption) ?_; decide)) : Kept p a (State.updTr s x1 x2) := by
  unfold State.updTr
  repeat' first | with_reducible assumption | exact Part.sub_of hp (by decide) | with_reducible apply Kept.foldl | with_reducible apply Kept.each | with_reducible refine Kept.ite (fun _ => ?_) (fun _ => ?_) | intro _ | (fail_if_no_progress with_reducible refine Kept.upd_of hp ?_ ?_ ?_ ?_ ?_ ?_ ?_ ?_ ?_ ?_ ?_ ?_ ?_ ?_ ?_ ?_ ?_ rfl rfl <;> try first | exact Or.inr rfl | exact Or.inl (by decide)) | (simp only [id_eq]; assumption) | dsimp only | split

theorem Kept.trCfgWrite (h : Kept p a s) (hp : Part.sub { hif := true } p = true := by first | decide | (refine Part.sub_of (by assumption) ?_; decide)) : Kept p a (State.trCfgWrite s x1 x2) := by
  unfold State.trCfgWrite
  repeat' first | with_reducible assumption | exact Part.sub_of hp (by decide) | with_reducible apply Kept.updTr | with_reducible apply Kept.foldl | with_reducible apply Kept.each | with_reducible refine Kept.ite (fun _ => ?_) (fun _ => ?_) | intro _ | (fail_if_no_progress with_reducible refine Kept.upd_of hp ?_ ?_ ?_ ?_ ?_ ?_ ?_ ?_ ?_ ?_ ?_ ?_ ?_ ?_ ?_ ?_ ?_ rfl rfl <;> try first | exact Or.inr rfl | exact Or.inl (by decide)) | (simp only [id_eq]; assumption) | dsimp only | split

theorem Kept.erCfgWrite (h : Kept p a s) (hp : Part.sub { hif := true } p = true := by first | decide | (refine Part.sub_of (by assumption) ?_; decide)) : Kept p a (State.erCfgWrite s x1) := by
  unfold State.erCfgWrite
  repeat' first | with_reducible assumption | exact Part.sub_of hp (by decide) | with_reducible apply Kept.foldl | with_reducible apply Kept.each | with_reducible refine Kept.ite (fun _ => ?_) (fun _ => ?_) | intro _ | (fail_if_no_progress with_reducible refine Kept.upd_of hp ?_ ?_ ?_ ?_ ?_ ?_ ?_ ?_ ?_ ?_ ?_ ?_ ?_ ?_ ?_ ?_ ?_ rfl rfl <;> try first | exact Or.inr rfl | exact Or.inl (by decide)) | (simp only [id_eq]; assumption) | dsimp only | split

theorem Kept.hifWrite (h : Kept p a s) (hp : Part.sub { hif := true, intc := true } p = true := by first | decide | (refine Part.sub_of (by assumption) ?_; decide)) : Kept p a (State.hifWrite s x1 x2) := by
  unfold State.hifWrite
  repeat' first | with_reducible assumption | exact Part.sub_of hp (by decide) | with_reducible apply Kept.crBaseWrite | with_reducible apply Kept.crCfgWrite | with_reducible apply Kept.crRestart | with_reducible apply Kept.updTr | with_reducible apply Kept.trCfgWrite | with_reducible apply Kept.erCfgWrite | with_reducible apply Kept.foldl | with_reducible apply Kept.each | with_reducible refine Kept.ite (fun _ => ?_) (fun _ => ?_) | intro _ | (fail_if_no_progress with_reducible refine Kept.upd_of hp ?_ ?_ ?_ ?_ ?_ ?_ ?_ ?_ ?_ ?_ ?_ ?_ ?_ ?_ ?_ ?_ ?_ rfl rfl <;> try first | exact Or.inr rfl | exact Or.inl (by decide)) | (simp only [id_eq]; assumption) | dsimp only | split

theorem Kept.intcBlocked (h : Kept p a s) (hp : Part.sub { intc := true } p = true := by first | decide | (refine Part.sub_of (by assumption) ?_; decide)) : Kept p a (State.intcBlocked s) := by
  unfold State.intcBlocked
  repeat' first | with_reducible assumption | exact Part.sub_of hp (by decide) | with_reducible apply Kept.foldl | with_reducible apply Kept.each | with_reducible refine Kept.ite (fun _ => ?_) (fun _ => ?_) | intro _ | (fail_if_no_progress with_reducible refine Kept.upd_of hp ?_ ?_ ?_ ?_ ?_ ?_ ?_ ?_ ?_ ?_ ?_ ?_ ?_ ?_ ?_ ?_ ?_ rfl rfl <;> try first | exact Or.inr rfl | exact Or.inl (by decide)) | (simp only [id_eq]; assumption) | dsimp only | split

theorem Kept.prigroupWrite (h : Kept p a s) (hp : Part.sub { intc := true } p = true := by first | decide | (refine Part.sub_of (by assumption) ?_; decide)) : Kept p a (State.prigroupWrite s x1) := by
  unfold State.prigroupWrite
  repeat' first | with_reducible assumption | exact Part.sub_of hp (by decide) | with_reducible apply Kept.intcBlocked | with_reducible apply Kept.foldl | with_reducible apply Kept.each | with_reducible refine Kept.ite (fun _ => ?_) (fun _ => ?_) | intro _ | (fail_if_no_progress with_reducible refine Kept.upd_of hp ?_ ?_ ?_ ?_ ?_ ?_ ?_ ?_ ?_ ?_ ?_ ?_ ?_ ?_ ?_ ?_ ?_ rfl rfl <;> try first | exact Or.inr rfl | exact Or.inl (by decide)) | (simp only [id_eq]; assumption) | dsimp only | split

theorem Kept.vecComplete (h : Kept p a s) (hp : Part.sub Part.alarms p = true := by first | decide | (refine Part.sub_of (by assumption) ?_; decide)) : Kept p a (State.vecComplete s x1) := by
  unfold State.vecComplete
  repeat' first | with_reducible assumption | exact Part.sub_of hp (by decide) | with_reducible apply Kept.updVec | with_reducible apply Kept.raise | with_reducible apply Kept.foldl | with_reducible apply Kept.each | with_reducible refine Kept.ite (fun _ => ?_) (fun _ => ?_) | intro _ | (fail_if_no_progress with_reducible refine Kept.upd_of hp ?_ ?_ ?_ ?_ ?_ ?_ ?_ ?_ ?_ ?_ ?_ ?_ ?_ ?_ ?_ ?_ ?_ rfl rfl <;> try first | exact Or.inr rfl | exact Or.inl (by decide)) | (simp only [id_eq]; assumption) | dsimp only | split

theorem Kept.intcEoi (h : Kept p a s) (hp : Part.sub Part.alarms p = true := by first | decide | (refine Part.sub_of (by assumption) ?_; decide)) : Kept p a (State.intcEoi s x1) := by
  unfold State.intcEoi
  repeat' first | with_reducible assumption | exact Part.sub_of hp (by decide) | with_reducible apply Kept.vecComplete | with_reducible apply Kept.raise | with_reducible apply Kept.foldl | with_reducible apply Kept.each | with_reducible refine Kept.ite (fun _ => ?_) (fun _ => ?_) | intro _ | (fail_if_no_progress with_reducible refine Kept.upd_of hp ?_ ?_ ?_ ?_ ?_ ?_ ?_ ?_ ?_ ?_ ?_ ?_ ?_ ?_ ?_ ?_ ?_ rfl rfl <;> try first | exact Or.inr rfl | exact Or.inl (by decide)) | (simp only [id_eq]; assumption) | dsimp only | split

theorem Kept.vecMask (h : Kept p a s) (hp : Part.sub { intc := true } p = true := by first | decide | (refine Part.sub_of (by assumption) ?_; decide)) : Kept p a (State.vecMask s x1 x2 x3) := by
  unfold State.vecMask
  repeat' first | with_reducible assumption | exact Part.sub_of hp (by decide) | with_reducible apply Kept.each | with_reducible apply Kept.updVec | with_reducible apply Kept.foldl | with_reducible apply Kept.each | with_reducible refine Kept.ite (fun _ => ?_) (fun _ => ?_) | intro _ | (fail_if_no_progress with_reducible refine Kept.upd_of hp ?_ ?_ ?_ ?_ ?_ ?_ ?_ ?_ ?_ ?_ ?_ ?_ ?_ ?_ ?_ ?_ ?_ rfl rfl <;> try first | exact Or.inr rfl | exact Or.inl (by decide)) | (simp only [id_eq]; assumption) | dsimp only | split

theorem Kept.vecPendSet (h : Kept p a s) (hp : Part.sub { intc := true } p = true := by first | decide | (refine Part.sub_of (by assumption) ?_; decide)) : Kept p a (State.vecPendSet s x1 x2) := by
  unfold State.vecPendSet
  repeat' first | with_reducible assumption | exact Part.sub_of hp (by decide) | with_reducible apply Kept.each | with_reducible apply Kept.updVec | with_reducible apply Kept.foldl | with_reducible apply Kept.each | with_reducible refine Kept.ite (fun _ => ?_) (fun _ => ?_) | intro _ | (fail_if_no_progress with_reducible refine Kept.upd_of hp ?_ ?_ ?_ ?_ ?_ ?_ ?_ ?_ ?_ ?_ ?_ ?_ ?_ ?_ ?_ ?_ ?_ rfl rfl <;> try first | exact Or.inr rfl | exact Or.inl (by decide)) | (simp only [id_eq]; assumption) | dsimp only | split

theorem Kept.vecPendClr (h : Kept p a s) (hp : Part.sub { intc := true } p = true := by first | decide | (refine Part.sub_of (by assumption) ?_; decide)) : Kept p a (State.vecPendClr s x1 x2) := by
  unfold State.vecPendClr
  repeat' first | with_reducible assumption | exact Part.sub_of hp (by decide) | with_reducible apply Kept.each | with_reducible apply Kept.updVec | with_reducible apply Kept.foldl | with_reducible apply Kept.each | with_reducible refine Kept.ite (fun _ => ?_) (fun _ => ?_) | intro _ | (fail_if_no_progress with_reducible refine Kept.upd_of hp ?_ ?_ ?_ ?_ ?_ ?_ ?_ ?_ ?_ ?_ ?_ ?_ ?_ ?_ ?_ ?_ ?_ rfl rfl <;> try first | exact Or.inr rfl | exact Or.inl (by decide)) | (simp only [id_eq]; assumption) | dsimp only | split

theorem Kept.vecCfgWrite (h : Kept p a s) (hp : Part.sub { intc := true } p = true := by first | decide | (refine Part.sub_of (by assumption) ?_; decide)) : Kept p a (State.vecCfgWrite s x1 x2) := by
  unfold State.vecCfgWrite
  repeat' first | with_reducible assumption | exact Part.sub_of hp (by decide) | with_reducible apply Kept.intcBlocked | with_reducible apply Kept.updVec | with_reducible apply Kept.foldl | with_reducible apply Kept.each | with_reducible refine Kept.ite (fun _ => ?_) (fun _ => ?_) | intro _ | (fail_if_no_progress with_reducible refine Kept.upd_of hp ?_ ?_ ?_ ?_ ?_ ?_ ?_ ?_ ?_ ?_ ?_ ?_ ?_ ?_ ?_ ?_ ?_ rfl rfl <;> try first | exact Or.inr rfl | exact Or.inl (by decide)) | (simp only [id_eq]; assumption) | dsimp only | split

theorem Kept.vecCoalWrite (h : Kept p a s) (hp : Part.sub { intc := true } p = true := by first | decide | (refine Part.sub_of (by assumption) ?_; decide)) : Kept p a (State.vecCoalWrite s x1 x2) := by
  unfold State.vecCoalWrite
  repeat' first | with_reducible assumption | exact Part.sub_of hp (by decide) | with_reducible apply Kept.updVec | with_reducible apply Kept.foldl | with_reducible apply Kept.each | with_reducible refine Kept.ite (fun _ => ?_) (fun _ => ?_) | intro _ | (fail_if_no_progress with_reducible refine Kept.upd_of hp ?_ ?_ ?_ ?_ ?_ ?_ ?_ ?_ ?_ ?_ ?_ ?_ ?_ ?_ ?_ ?_ ?_ rfl rfl <;> try first | exact Or.inr rfl | exact Or.inl (by decide)) | (simp only [id_eq]; assumption) | dsimp only | split

theorem Kept.srcCfgWrite (h : Kept p a s) (hp : Part.sub { intc := true } p = true := by first | decide | (refine Part.sub_of (by assumption) ?_; decide)) : Kept p a (State.srcCfgWrite s x1 x2) := by
  unfold State.srcCfgWrite
  repeat' first | with_reducible assumption | exact Part.sub_of hp (by decide) | with_reducible apply Kept.intcBlocked | with_reducible apply Kept.foldl | with_reducible apply Kept.each | with_reducible refine Kept.ite (fun _ => ?_) (fun _ => ?_) | intro _ | (fail_if_no_progress with_reducible refine Kept.upd_of hp ?_ ?_ ?_ ?_ ?_ ?_ ?_ ?_ ?_ ?_ ?_ ?_ ?_ ?_ ?_ ?_ ?_ rfl rfl <;> try first | exact Or.inr rfl | exact Or.inl (by decide)) | (simp only [id_eq]; assumption) | dsimp only | split

theorem Kept.srcEnSet (h : Kept p a s) (hp : Part.sub { intc := true } p = true := by first | decide | (refine Part.sub_of (by assumption) ?_; decide)) : Kept p a (State.srcEnSet s x1 x2) := by
  unfold State.srcEnSet
  repeat' first | with_reducible assumption | exact Part.sub_of hp (by decide) | with_reducible apply Kept.seenSync | with_reducible apply Kept.foldl | with_reducible apply Kept.each | with_reducible refine Kept.ite (fun _ => ?_) (fun _ => ?_) | intro _ | (fail_if_no_progress with_reducible refine Kept.upd_of hp ?_ ?_ ?_ ?_ ?_ ?_ ?_ ?_ ?_ ?_ ?_ ?_ ?_ ?_ ?_ ?_ ?_ rfl rfl <;> try first | exact Or.inr rfl | exact Or.inl (by decide)) | (simp only [id_eq]; assumption) | dsimp only | split

theorem Kept.srcEnClr (h : Kept p a s) (hp : Part.sub { intc := true } p = true := by first | decide | (refine Part.sub_of (by assumption) ?_; decide)) : Kept p a (State.srcEnClr s x1 x2) := by
  unfold State.srcEnClr
  repeat' first | with_reducible assumption | exact Part.sub_of hp (by decide) | with_reducible apply Kept.foldl | with_reducible apply Kept.each | with_reducible refine Kept.ite (fun _ => ?_) (fun _ => ?_) | intro _ | (fail_if_no_progress with_reducible refine Kept.upd_of hp ?_ ?_ ?_ ?_ ?_ ?_ ?_ ?_ ?_ ?_ ?_ ?_ ?_ ?_ ?_ ?_ ?_ rfl rfl <;> try first | exact Or.inr rfl | exact Or.inl (by decide)) | (simp only [id_eq]; assumption) | dsimp only | split

theorem Kept.srcLatSet (h : Kept p a s) (hp : Part.sub { intc := true } p = true := by first | decide | (refine Part.sub_of (by assumption) ?_; decide)) : Kept p a (State.srcLatSet s x1 x2) := by
  unfold State.srcLatSet
  repeat' first | with_reducible assumption | exact Part.sub_of hp (by decide) | with_reducible apply Kept.each | with_reducible apply Kept.irqEdge | with_reducible apply Kept.foldl | with_reducible apply Kept.each | with_reducible refine Kept.ite (fun _ => ?_) (fun _ => ?_) | intro _ | (fail_if_no_progress with_reducible refine Kept.upd_of hp ?_ ?_ ?_ ?_ ?_ ?_ ?_ ?_ ?_ ?_ ?_ ?_ ?_ ?_ ?_ ?_ ?_ rfl rfl <;> try first | exact Or.inr rfl | exact Or.inl (by decide)) | (simp only [id_eq]; assumption) | dsimp only | split

theorem Kept.srcLatClr (h : Kept p a s) (hp : Part.sub { intc := true } p = true := by first | decide | (refine Part.sub_of (by assumption) ?_; decide)) : Kept p a (State.srcLatClr s x1 x2) := by
  unfold State.srcLatClr
  repeat' first | with_reducible assumption | exact Part.sub_of hp (by decide) | with_reducible apply Kept.foldl | with_reducible apply Kept.each | with_reducible refine Kept.ite (fun _ => ?_) (fun _ => ?_) | intro _ | (fail_if_no_progress with_reducible refine Kept.upd_of hp ?_ ?_ ?_ ?_ ?_ ?_ ?_ ?_ ?_ ?_ ?_ ?_ ?_ ?_ ?_ ?_ ?_ rfl rfl <;> try first | exact Or.inr rfl | exact Or.inl (by decide)) | (simp only [id_eq]; assumption) | dsimp only | split

theorem Kept.intcWrite (h : Kept p a s) (hp : Part.sub Part.alarms p = true := by first | decide | (refine Part.sub_of (by assumption) ?_; decide)) : Kept p a (State.intcWrite s x1 x2) := by
  unfold State.intcWrite
  repeat' first | with_reducible assumption | exact Part.sub_of hp (by decide) | with_reducible apply Kept.prigroupWrite | with_reducible apply Kept.intcEoi | with_reducible apply Kept.vecMask | with_reducible apply Kept.vecPendSet | with_reducible apply Kept.vecPendClr | with_reducible apply Kept.vecCfgWrite | with_reducible apply Kept.vecCoalWrite | with_reducible apply Kept.srcCfgWrite | with_reducible apply Kept.srcEnSet | with_reducible apply Kept.srcEnClr | with_reducible apply Kept.srcLatSet | with_reducible apply Kept.srcLatClr | with_reducible apply Kept.foldl | with_reducible apply Kept.each | with_reducible refine Kept.ite (fun _ => ?_) (fun _ => ?_) | intro _ | (fail_if_no_progress with_reducible refine Kept.upd_of hp ?_ ?_ ?_ ?_ ?_ ?_ ?_ ?_ ?_ ?_ ?_ ?_ ?_ ?_ ?_ ?_ ?_ rfl rfl <;> try first | exact Or.inr rfl | exact Or.inl (by decide)) | (simp only [id_eq]; assumption) | dsimp only | split

theorem Kept.policyWrite (h : Kept p a s) (hp : Part.sub Part.alarms p = true := by first | decide | (refine Part.sub_of (by assumption) ?_; decide)) : Kept p a (State.policyWrite s x1) := by
  unfold State.policyWrite
  repeat' first | with_reducible assumption | exact Part.sub_of hp (by decide) | with_reducible apply Kept.writeRejected | with_reducible apply Kept.foldl | with_reducible apply Kept.each | with_reducible refine Kept.ite (fun _ => ?_) (fun _ => ?_) | intro _ | (fail_if_no_progress with_reducible refine Kept.upd_of hp ?_ ?_ ?_ ?_ ?_ ?_ ?_ ?_ ?_ ?_ ?_ ?_ ?_ ?_ ?_ ?_ ?_ rfl rfl <;> try first | exact Or.inr rfl | exact Or.inl (by decide)) | (simp only [id_eq]; assumption) | dsimp only | split

theorem Kept.recCursorHi (h : Kept p a s) (hp : Part.sub { recd := true } p = true := by first | decide | (refine Part.sub_of (by assumption) ?_; decide)) : Kept p a (State.recCursorHi s x1) := by
  unfold State.recCursorHi
  repeat' first | with_reducible assumption | exact Part.sub_of hp (by decide) | with_reducible apply Kept.foldl | with_reducible apply Kept.each | with_reducible refine Kept.ite (fun _ => ?_) (fun _ => ?_) | intro _ | (fail_if_no_progress with_reducible refine Kept.upd_of hp ?_ ?_ ?_ ?_ ?_ ?_ ?_ ?_ ?_ ?_ ?_ ?_ ?_ ?_ ?_ ?_ ?_ rfl rfl <;> try first | exact Or.inr rfl | exact Or.inl (by decide)) | (simp only [id_eq]; assumption) | dsimp only | split

theorem Kept.recLimitWrite (h : Kept p a s) (hp : Part.sub { recd := true } p = true := by first | decide | (refine Part.sub_of (by assumption) ?_; decide)) : Kept p a (State.recLimitWrite s x1 x2) := by
  unfold State.recLimitWrite
  repeat' first | with_reducible assumption | exact Part.sub_of hp (by decide) | with_reducible apply Kept.updBucket | with_reducible apply Kept.foldl | with_reducible apply Kept.each | with_reducible refine Kept.ite (fun _ => ?_) (fun _ => ?_) | intro _ | (fail_if_no_progress with_reducible refine Kept.upd_of hp ?_ ?_ ?_ ?_ ?_ ?_ ?_ ?_ ?_ ?_ ?_ ?_ ?_ ?_ ?_ ?_ ?_ rfl rfl <;> try first | exact Or.inr rfl | exact Or.inl (by decide)) | (simp only [id_eq]; assumption) | dsimp only | split

theorem Kept.recWrite (h : Kept p a s) (hp : Part.sub { recd := true } p = true := by first | decide | (refine Part.sub_of (by assumption) ?_; decide)) : Kept p a (State.recWrite s x1 x2) := by
  unfold State.recWrite
  repeat' first | with_reducible assumption | exact Part.sub_of hp (by decide) | with_reducible apply Kept.recCursorHi | with_reducible apply Kept.recLimitWrite | with_reducible apply Kept.foldl | with_reducible apply Kept.each | with_reducible refine Kept.ite (fun _ => ?_) (fun _ => ?_) | intro _ | (fail_if_no_progress with_reducible refine Kept.upd_of hp ?_ ?_ ?_ ?_ ?_ ?_ ?_ ?_ ?_ ?_ ?_ ?_ ?_ ?_ ?_ ?_ ?_ rfl rfl <;> try first | exact Or.inr rfl | exact Or.inl (by decide)) | (simp only [id_eq]; assumption) | dsimp only | split

theorem Kept.timSlackClr (h : Kept p a s) (hp : Part.sub { tim := true } p = true := by first | decide | (refine Part.sub_of (by assumption) ?_; decide)) : Kept p a (State.timSlackClr s x1) := by
  unfold State.timSlackClr
  repeat' first | with_reducible assumption | exact Part.sub_of hp (by decide) | with_reducible apply Kept.foldl | with_reducible apply Kept.each | with_reducible refine Kept.ite (fun _ => ?_) (fun _ => ?_) | intro _ | (fail_if_no_progress with_reducible refine Kept.upd_of hp ?_ ?_ ?_ ?_ ?_ ?_ ?_ ?_ ?_ ?_ ?_ ?_ ?_ ?_ ?_ ?_ ?_ rfl rfl <;> try first | exact Or.inr rfl | exact Or.inl (by decide)) | (simp only [id_eq]; assumption) | dsimp only | split

theorem Kept.updSched (h : Kept p a s) (hp : Part.sub { rfe := true } p = true := by first | decide | (refine Part.sub_of (by assumption) ?_; decide)) : Kept p a (State.updSched s x1 x2) := by
  unfold State.updSched
  repeat' first | with_reducible assumption | exact Part.sub_of hp (by decide) | with_reducible apply Kept.foldl | with_reducible apply Kept.each | with_reducible refine Kept.ite (fun _ => ?_) (fun _ => ?_) | intro _ | (fail_if_no_progress with_reducible refine Kept.upd_of hp ?_ ?_ ?_ ?_ ?_ ?_ ?_ ?_ ?_ ?_ ?_ ?_ ?_ ?_ ?_ ?_ ?_ rfl rfl <;> try first | exact Or.inr rfl | exact Or.inl (by decide)) | (simp only [id_eq]; assumption) | dsimp only | split

theorem Kept.wrBlock (h : Kept p a s) (hp : Part.sub { rfe := true } p = true := by first | decide | (refine Part.sub_of (by assumption) ?_; decide)) : Kept p a (State.wrBlock s x1) := by
  unfold State.wrBlock
  repeat' first | with_reducible assumption | exact Part.sub_of hp (by decide) | with_reducible apply Kept.updSched | with_reducible apply Kept.foldl | with_reducible apply Kept.each | with_reducible refine Kept.ite (fun _ => ?_) (fun _ => ?_) | intro _ | (fail_if_no_progress with_reducible refine Kept.upd_of hp ?_ ?_ ?_ ?_ ?_ ?_ ?_ ?_ ?_ ?_ ?_ ?_ ?_ ?_ ?_ ?_ ?_ rfl rfl <;> try first | exact Or.inr rfl | exact Or.inl (by decide)) | (simp only [id_eq]; assumption) | dsimp only | split

theorem Kept.chCfgWrite (h : Kept p a s) (hp : Part.sub { rfe := true } p = true := by first | decide | (refine Part.sub_of (by assumption) ?_; decide)) : Kept p a (State.chCfgWrite s x1 x2) := by
  unfold State.chCfgWrite
  repeat' first | with_reducible assumption | exact Part.sub_of hp (by decide) | with_reducible apply Kept.updChain | with_reducible apply Kept.wrBlock | with_reducible apply Kept.foldl | with_reducible apply Kept.each | with_reducible refine Kept.ite (fun _ => ?_) (fun _ => ?_) | intro _ | (fail_if_no_progress with_reducible refine Kept.upd_of hp ?_ ?_ ?_ ?_ ?_ ?_ ?_ ?_ ?_ ?_ ?_ ?_ ?_ ?_ ?_ ?_ ?_ rfl rfl <;> try first | exact Or.inr rfl | exact Or.inl (by decide)) | (simp only [id_eq]; assumption) | dsimp only | split

theorem Kept.txMapWrite (h : Kept p a s) (hp : Part.sub { rfe := true } p = true := by first | decide | (refine Part.sub_of (by assumption) ?_; decide)) : Kept p a (State.txMapWrite s x1 x2) := by
  unfold State.txMapWrite
  repeat' first | with_reducible assumption | exact Part.sub_of hp (by decide) | with_reducible apply Kept.updTx | with_reducible apply Kept.wrBlock | with_reducible apply Kept.foldl | with_reducible apply Kept.each | with_reducible refine Kept.ite (fun _ => ?_) (fun _ => ?_) | intro _ | (fail_if_no_progress with_reducible refine Kept.upd_of hp ?_ ?_ ?_ ?_ ?_ ?_ ?_ ?_ ?_ ?_ ?_ ?_ ?_ ?_ ?_ ?_ ?_ rfl rfl <;> try first | exact Or.inr rfl | exact Or.inl (by decide)) | (simp only [id_eq]; assumption) | dsimp only | split

theorem Kept.vswrCfgWrite (h : Kept p a s) (hp : Part.sub { rfe := true } p = true := by first | decide | (refine Part.sub_of (by assumption) ?_; decide)) : Kept p a (State.vswrCfgWrite s x1 x2) := by
  unfold State.vswrCfgWrite
  repeat' first | with_reducible assumption | exact Part.sub_of hp (by decide) | with_reducible apply Kept.updTx | with_reducible apply Kept.foldl | with_reducible apply Kept.each | with_reducible refine Kept.ite (fun _ => ?_) (fun _ => ?_) | intro _ | (fail_if_no_progress with_reducible refine Kept.upd_of hp ?_ ?_ ?_ ?_ ?_ ?_ ?_ ?_ ?_ ?_ ?_ ?_ ?_ ?_ ?_ ?_ ?_ rfl rfl <;> try first | exact Or.inr rfl | exact Or.inl (by decide)) | (simp only [id_eq]; assumption) | dsimp only | split

theorem Kept.fecbCfgWrite (h : Kept p a s) (hp : Part.sub { rfe := true } p = true := by first | decide | (refine Part.sub_of (by assumption) ?_; decide)) : Kept p a (State.fecbCfgWrite s x1 x2) := by
  unfold State.fecbCfgWrite
  repeat' first | with_reducible assumption | exact Part.sub_of hp (by decide) | with_reducible apply Kept.updFecb | with_reducible apply Kept.foldl | with_reducible apply Kept.each | with_reducible refine Kept.ite (fun _ => ?_) (fun _ => ?_) | intro _ | (fail_if_no_progress with_reducible refine Kept.upd_of hp ?_ ?_ ?_ ?_ ?_ ?_ ?_ ?_ ?_ ?_ ?_ ?_ ?_ ?_ ?_ ?_ ?_ rfl rfl <;> try first | exact Or.inr rfl | exact Or.inl (by decide)) | (simp only [id_eq]; assumption) | dsimp only | split

theorem Kept.fecbTmplWrite (h : Kept p a s) (hp : Part.sub { rfe := true } p = true := by first | decide | (refine Part.sub_of (by assumption) ?_; decide)) : Kept p a (State.fecbTmplWrite s x1 x2 x3) := by
  unfold State.fecbTmplWrite
  repeat' first | with_reducible assumption | exact Part.sub_of hp (by decide) | with_reducible apply Kept.updFecb | with_reducible apply Kept.foldl | with_reducible apply Kept.each | with_reducible refine Kept.ite (fun _ => ?_) (fun _ => ?_) | intro _ | (fail_if_no_progress with_reducible refine Kept.upd_of hp ?_ ?_ ?_ ?_ ?_ ?_ ?_ ?_ ?_ ?_ ?_ ?_ ?_ ?_ ?_ ?_ ?_ rfl rfl <;> try first | exact Or.inr rfl | exact Or.inl (by decide)) | (simp only [id_eq]; assumption) | dsimp only | split

theorem Kept.tddswWrite (h : Kept p a s) (hp : Part.sub { rfe := true } p = true := by first | decide | (refine Part.sub_of (by assumption) ?_; decide)) : Kept p a (State.tddswWrite s x1) := by
  unfold State.tddswWrite
  repeat' first | with_reducible assumption | exact Part.sub_of hp (by decide) | with_reducible apply Kept.each | with_reducible apply Kept.wrBlock | with_reducible apply Kept.foldl | with_reducible apply Kept.each | with_reducible refine Kept.ite (fun _ => ?_) (fun _ => ?_) | intro _ | (fail_if_no_progress with_reducible refine Kept.upd_of hp ?_ ?_ ?_ ?_ ?_ ?_ ?_ ?_ ?_ ?_ ?_ ?_ ?_ ?_ ?_ ?_ ?_ rfl rfl <;> try first | exact Or.inr rfl | exact Or.inl (by decide)) | (simp only [id_eq]; assumption) | dsimp only | split

theorem Kept.tddRegWrite (h : Kept p a s) (hp : Part.sub { rfe := true } p = true := by first | decide | (refine Part.sub_of (by assumption) ?_; decide)) : Kept p a (State.tddRegWrite s x1 x2 x3) := by
  unfold State.tddRegWrite
  repeat' first | with_reducible assumption | exact Part.sub_of hp (by decide) | with_reducible apply Kept.updSched | with_reducible apply Kept.wrBlock | with_reducible apply Kept.foldl | with_reducible apply Kept.each | with_reducible refine Kept.ite (fun _ => ?_) (fun _ => ?_) | intro _ | (fail_if_no_progress with_reducible refine Kept.upd_of hp ?_ ?_ ?_ ?_ ?_ ?_ ?_ ?_ ?_ ?_ ?_ ?_ ?_ ?_ ?_ ?_ ?_ rfl rfl <;> try first | exact Or.inr rfl | exact Or.inl (by decide)) | (simp only [id_eq]; assumption) | dsimp only | split

theorem Kept.rfeWrite (h : Kept p a s) (hp : Part.sub { rfe := true } p = true := by first | decide | (refine Part.sub_of (by assumption) ?_; decide)) : Kept p a (State.rfeWrite s x1 x2 x3) := by
  unfold State.rfeWrite
  repeat' first | with_reducible assumption | exact Part.sub_of hp (by decide) | with_reducible apply Kept.chCfgWrite | with_reducible apply Kept.txMapWrite | with_reducible apply Kept.vswrCfgWrite | with_reducible apply Kept.fecbCfgWrite | with_reducible apply Kept.fecbTmplWrite | with_reducible apply Kept.tddswWrite | with_reducible apply Kept.tddRegWrite | with_reducible apply Kept.foldl | with_reducible apply Kept.each | with_reducible refine Kept.ite (fun _ => ?_) (fun _ => ?_) | intro _ | (fail_if_no_progress with_reducible refine Kept.upd_of hp ?_ ?_ ?_ ?_ ?_ ?_ ?_ ?_ ?_ ?_ ?_ ?_ ?_ ?_ ?_ ?_ ?_ rfl rfl <;> try first | exact Or.inr rfl | exact Or.inl (by decide)) | (simp only [id_eq]; assumption) | dsimp only | split

theorem Kept.updDcb (h : Kept p a s) (hp : Part.sub { rfe := true } p = true := by first | decide | (refine Part.sub_of (by assumption) ?_; decide)) : Kept p a (State.updDcb s x1 x2) := by
  unfold State.updDcb
  repeat' first | with_reducible assumption | exact Part.sub_of hp (by decide) | with_reducible apply Kept.foldl | with_reducible apply Kept.each | with_reducible refine Kept.ite (fun _ => ?_) (fun _ => ?_) | intro _ | (fail_if_no_progress with_reducible refine Kept.upd_of hp ?_ ?_ ?_ ?_ ?_ ?_ ?_ ?_ ?_ ?_ ?_ ?_ ?_ ?_ ?_ ?_ ?_ rfl rfl <;> try first | exact Or.inr rfl | exact Or.inl (by decide)) | (simp only [id_eq]; assumption) | dsimp only | split

theorem Kept.dcbCfgWrite (h : Kept p a s) (hp : Part.sub { rfe := true } p = true := by first | decide | (refine Part.sub_of (by assumption) ?_; decide)) : Kept p a (State.dcbCfgWrite s x1 x2) := by
  unfold State.dcbCfgWrite
  repeat' first | with_reducible assumption | exact Part.sub_of hp (by decide) | with_reducible apply Kept.updDcb | with_reducible apply Kept.foldl | with_reducible apply Kept.each | with_reducible refine Kept.ite (fun _ => ?_) (fun _ => ?_) | intro _ | (fail_if_no_progress with_reducible refine Kept.upd_of hp ?_ ?_ ?_ ?_ ?_ ?_ ?_ ?_ ?_ ?_ ?_ ?_ ?_ ?_ ?_ ?_ ?_ rfl rfl <;> try first | exact Or.inr rfl | exact Or.inl (by decide)) | (simp only [id_eq]; assumption) | dsimp only | split

theorem Kept.cxPolKeep (h : Kept p a s) (hp : Part.sub { cx := true } p = true := by first | decide | (refine Part.sub_of (by assumption) ?_; decide)) : Kept p a (State.cxPolKeep s) := by
  unfold State.cxPolKeep
  repeat' first | with_reducible assumption | exact Part.sub_of hp (by decide) | with_reducible apply Kept.foldl | with_reducible apply Kept.each | with_reducible refine Kept.ite (fun _ => ?_) (fun _ => ?_) | intro _ | (fail_if_no_progress with_reducible refine Kept.upd_of hp ?_ ?_ ?_ ?_ ?_ ?_ ?_ ?_ ?_ ?_ ?_ ?_ ?_ ?_ ?_ ?_ ?_ rfl rfl <;> try first | exact Or.inr rfl | exact Or.inl (by decide)) | (simp only [id_eq]; assumption) | dsimp only | split

theorem Kept.cxPolWrite (h : Kept p a s) (hp : Part.sub { cx := true, cxPol := true } p = true := by first | decide | (refine Part.sub_of (by assumption) ?_; decide)) : Kept p a (State.cxPolWrite s x1 x2) := by
  unfold State.cxPolWrite
  repeat' first | with_reducible assumption | exact Part.sub_of hp (by decide) | with_reducible apply Kept.cxPolKeep | with_reducible apply Kept.foldl | with_reducible apply Kept.each | with_reducible refine Kept.ite (fun _ => ?_) (fun _ => ?_) | intro _ | (fail_if_no_progress with_reducible refine Kept.upd_of hp ?_ ?_ ?_ ?_ ?_ ?_ ?_ ?_ ?_ ?_ ?_ ?_ ?_ ?_ ?_ ?_ ?_ rfl rfl <;> try first | exact Or.inr rfl | exact Or.inl (by decide)) | (simp only [id_eq]; assumption) | dsimp only | split

theorem Kept.jlTimeoutWrite (h : Kept p a s) (hp : Part.sub { jl := true } p = true := by first | decide | (refine Part.sub_of (by assumption) ?_; decide)) : Kept p a (State.jlTimeoutWrite s x1) := by
  unfold State.jlTimeoutWrite
  repeat' first | with_reducible assumption | exact Part.sub_of hp (by decide) | with_reducible apply Kept.foldl | with_reducible apply Kept.each | with_reducible refine Kept.ite (fun _ => ?_) (fun _ => ?_) | intro _ | (fail_if_no_progress with_reducible refine Kept.upd_of hp ?_ ?_ ?_ ?_ ?_ ?_ ?_ ?_ ?_ ?_ ?_ ?_ ?_ ?_ ?_ ?_ ?_ rfl rfl <;> try first | exact Or.inr rfl | exact Or.inl (by decide)) | (simp only [id_eq]; assumption) | dsimp only | split

theorem Kept.portCfgWrite (h : Kept p a s) (hp : Part.sub { jl := true } p = true := by first | decide | (refine Part.sub_of (by assumption) ?_; decide)) : Kept p a (State.portCfgWrite s x1 x2) := by
  unfold State.portCfgWrite
  repeat' first | with_reducible assumption | exact Part.sub_of hp (by decide) | with_reducible apply Kept.updPort | with_reducible apply Kept.foldl | with_reducible apply Kept.each | with_reducible refine Kept.ite (fun _ => ?_) (fun _ => ?_) | intro _ | (fail_if_no_progress with_reducible refine Kept.upd_of hp ?_ ?_ ?_ ?_ ?_ ?_ ?_ ?_ ?_ ?_ ?_ ?_ ?_ ?_ ?_ ?_ ?_ rfl rfl <;> try first | exact Or.inr rfl | exact Or.inl (by decide)) | (simp only [id_eq]; assumption) | dsimp only | split

theorem Kept.jlWrite (h : Kept p a s) (hp : Part.sub { jl := true } p = true := by first | decide | (refine Part.sub_of (by assumption) ?_; decide)) : Kept p a (State.jlWrite s x1 x2) := by
  unfold State.jlWrite
  repeat' first | with_reducible assumption | exact Part.sub_of hp (by decide) | with_reducible apply Kept.jlTimeoutWrite | with_reducible apply Kept.portCfgWrite | with_reducible apply Kept.agrpWrite | with_reducible apply Kept.foldl | with_reducible apply Kept.each | with_reducible refine Kept.ite (fun _ => ?_) (fun _ => ?_) | intro _ | (fail_if_no_progress with_reducible refine Kept.upd_of hp ?_ ?_ ?_ ?_ ?_ ?_ ?_ ?_ ?_ ?_ ?_ ?_ ?_ ?_ ?_ ?_ ?_ rfl rfl <;> try first | exact Or.inr rfl | exact Or.inl (by decide)) | (simp only [id_eq]; assumption) | dsimp only | split

theorem Kept.tmuxPut (h : Kept p a s) (hp : Part.sub { tst := true } p = true := by first | decide | (refine Part.sub_of (by assumption) ?_; decide)) : Kept p a (State.tmuxPut s x1 x2) := by
  unfold State.tmuxPut
  repeat' first | with_reducible assumption | exact Part.sub_of hp (by decide) | with_reducible apply Kept.foldl | with_reducible apply Kept.each | with_reducible refine Kept.ite (fun _ => ?_) (fun _ => ?_) | intro _ | (fail_if_no_progress with_reducible refine Kept.upd_of hp ?_ ?_ ?_ ?_ ?_ ?_ ?_ ?_ ?_ ?_ ?_ ?_ ?_ ?_ ?_ ?_ ?_ rfl rfl <;> try first | exact Or.inr rfl | exact Or.inl (by decide)) | (simp only [id_eq]; assumption) | dsimp only | split

theorem Kept.tmuxWrite (h : Kept p a s) (hp : Part.sub { tst := true } p = true := by first | decide | (refine Part.sub_of (by assumption) ?_; decide)) : Kept p a (State.tmuxWrite s x1 x2) := by
  unfold State.tmuxWrite
  repeat' first | with_reducible assumption | exact Part.sub_of hp (by decide) | with_reducible apply Kept.tmuxPut | with_reducible apply Kept.foldl | with_reducible apply Kept.each | with_reducible refine Kept.ite (fun _ => ?_) (fun _ => ?_) | intro _ | (fail_if_no_progress with_reducible refine Kept.upd_of hp ?_ ?_ ?_ ?_ ?_ ?_ ?_ ?_ ?_ ?_ ?_ ?_ ?_ ?_ ?_ ?_ ?_ rfl rfl <;> try first | exact Or.inr rfl | exact Or.inl (by decide)) | (simp only [id_eq]; assumption) | dsimp only | split

theorem Kept.bar0Write (h : Kept p a s) (hp : Part.sub { Part.alarms with rfe := true, cxPol := true, tim := true, jl := true, tst := true } p = true := by first | decide | (refine Part.sub_of (by assumption) ?_; decide)) : Kept p a (State.bar0Write s x1 x2) := by
  unfold State.bar0Write
  repeat' first | with_reducible assumption | exact Part.sub_of hp (by decide) | with_reducible apply Kept.fltRegWrite | with_reducible apply Kept.genVidWrite | with_reducible apply Kept.hifWrite | with_reducible apply Kept.intcWrite | with_reducible apply Kept.policyWrite | with_reducible apply Kept.recWrite | with_reducible apply Kept.timSlackClr | with_reducible apply Kept.rfeWrite | with_reducible apply Kept.dcbCfgWrite | with_reducible apply Kept.cxPolWrite | with_reducible apply Kept.jlWrite | with_reducible apply Kept.tmuxWrite | with_reducible apply Kept.foldl | with_reducible apply Kept.each | with_reducible refine Kept.ite (fun _ => ?_) (fun _ => ?_) | intro _ | (fail_if_no_progress with_reducible refine Kept.upd_of hp ?_ ?_ ?_ ?_ ?_ ?_ ?_ ?_ ?_ ?_ ?_ ?_ ?_ ?_ ?_ ?_ ?_ rfl rfl <;> try first | exact Or.inr rfl | exact Or.inl (by decide)) | (simp only [id_eq]; assumption) | dsimp only | split

theorem Kept.dbRange (h : Kept p a s) (hp : Part.sub Part.alarms p = true := by first | decide | (refine Part.sub_of (by assumption) ?_; decide)) : Kept p a (State.dbRange s) := by
  unfold State.dbRange
  repeat' first | with_reducible assumption | exact Part.sub_of hp (by decide) | with_reducible apply Kept.raise | with_reducible apply Kept.foldl | with_reducible apply Kept.each | with_reducible refine Kept.ite (fun _ => ?_) (fun _ => ?_) | intro _ | (fail_if_no_progress with_reducible refine Kept.upd_of hp ?_ ?_ ?_ ?_ ?_ ?_ ?_ ?_ ?_ ?_ ?_ ?_ ?_ ?_ ?_ ?_ ?_ rfl rfl <;> try first | exact Or.inr rfl | exact Or.inl (by decide)) | (simp only [id_eq]; assumption) | dsimp only | split

theorem Kept.stopRing (h : Kept p a s) (hp : Part.sub { hif := true } p = true := by first | decide | (refine Part.sub_of (by assumption) ?_; decide)) : Kept p a (State.stopRing s x1 x2) := by
  unfold State.stopRing
  repeat' first | with_reducible assumption | exact Part.sub_of hp (by decide) | with_reducible apply Kept.updRing | with_reducible apply Kept.foldl | with_reducible apply Kept.each | with_reducible refine Kept.ite (fun _ => ?_) (fun _ => ?_) | intro _ | (fail_if_no_progress with_reducible refine Kept.upd_of hp ?_ ?_ ?_ ?_ ?_ ?_ ?_ ?_ ?_ ?_ ?_ ?_ ?_ ?_ ?_ ?_ ?_ rfl rfl <;> try first | exact Or.inr rfl | exact Or.inl (by decide)) | (simp only [id_eq]; assumption) | dsimp only | split

theorem Kept.crTail (h : Kept p a s) (hp : Part.sub Part.alarms p = true := by first | decide | (refine Part.sub_of (by assumption) ?_; decide)) : Kept p a (State.crTail s x1 x2) := by
  unfold State.crTail
  repeat' first | with_reducible assumption | exact Part.sub_of hp (by decide) | with_reducible apply Kept.updRing | with_reducible apply Kept.dbRange | with_reducible apply Kept.stopRing | with_reducible apply Kept.foldl | with_reducible apply Kept.each | with_reducible refine Kept.ite (fun _ => ?_) (fun _ => ?_) | intro _ | (fail_if_no_progress with_reducible refine Kept.upd_of hp ?_ ?_ ?_ ?_ ?_ ?_ ?_ ?_ ?_ ?_ ?_ ?_ ?_ ?_ ?_ ?_ ?_ rfl rfl <;> try first | exact Or.inr rfl | exact Or.inl (by decide)) | (simp only [id_eq]; assumption) | dsimp only | split

theorem Kept.cqHead (h : Kept p a s) (hp : Part.sub Part.alarms p = true := by first | decide | (refine Part.sub_of (by assumption) ?_; decide)) : Kept p a (State.cqHead s x1 x2) := by
  unfold State.cqHead
  repeat' first | with_reducible assumption | exact Part.sub_of hp (by decide) | with_reducible apply Kept.updRing | with_reducible apply Kept.dbRange | with_reducible apply Kept.foldl | with_reducible apply Kept.each | with_reducible refine Kept.ite (fun _ => ?_) (fun _ => ?_) | intro _ | (fail_if_no_progress with_reducible refine Kept.upd_of hp ?_ ?_ ?_ ?_ ?_ ?_ ?_ ?_ ?_ ?_ ?_ ?_ ?_ ?_ ?_ ?_ ?_ rfl rfl <;> try first | exact Or.inr rfl | exact Or.inl (by decide)) | (simp only [id_eq]; assumption) | dsimp only | split

theorem Kept.trHead (h : Kept p a s) (hp : Part.sub Part.alarms p = true := by first | decide | (refine Part.sub_of (by assumption) ?_; decide)) : Kept p a (State.trHead s x1 x2) := by
  unfold State.trHead
  repeat' first | with_reducible assumption | exact Part.sub_of hp (by decide) | with_reducible apply Kept.updTr | with_reducible apply Kept.dbRange | with_reducible apply Kept.foldl | with_reducible apply Kept.each | with_reducible refine Kept.ite (fun _ => ?_) (fun _ => ?_) | intro _ | (fail_if_no_progress with_reducible refine Kept.upd_of hp ?_ ?_ ?_ ?_ ?_ ?_ ?_ ?_ ?_ ?_ ?_ ?_ ?_ ?_ ?_ ?_ ?_ rfl rfl <;> try first | exact Or.inr rfl | exact Or.inl (by decide)) | (simp only [id_eq]; assumption) | dsimp only | split

theorem Kept.erHead (h : Kept p a s) (hp : Part.sub Part.alarms p = true := by first | decide | (refine Part.sub_of (by assumption) ?_; decide)) : Kept p a (State.erHead s x1) := by
  unfold State.erHead
  repeat' first | with_reducible assumption | exact Part.sub_of hp (by decide) | with_reducible apply Kept.dbRange | with_reducible apply Kept.foldl | with_reducible apply Kept.each | with_reducible refine Kept.ite (fun _ => ?_) (fun _ => ?_) | intro _ | (fail_if_no_progress with_reducible refine Kept.upd_of hp ?_ ?_ ?_ ?_ ?_ ?_ ?_ ?_ ?_ ?_ ?_ ?_ ?_ ?_ ?_ ?_ ?_ rfl rfl <;> try first | exact Or.inr rfl | exact Or.inl (by decide)) | (simp only [id_eq]; assumption) | dsimp only | split

theorem Kept.bar2Write (h : Kept p a s) (hp : Part.sub Part.alarms p = true := by first | decide | (refine Part.sub_of (by assumption) ?_; decide)) : Kept p a (State.bar2Write s x1 x2) := by
  unfold State.bar2Write
  repeat' first | with_reducible assumption | exact Part.sub_of hp (by decide) | with_reducible apply Kept.crTail | with_reducible apply Kept.cqHead | with_reducible apply Kept.trHead | with_reducible apply Kept.erHead | with_reducible apply Kept.foldl | with_reducible apply Kept.each | with_reducible refine Kept.ite (fun _ => ?_) (fun _ => ?_) | intro _ | (fail_if_no_progress with_reducible refine Kept.upd_of hp ?_ ?_ ?_ ?_ ?_ ?_ ?_ ?_ ?_ ?_ ?_ ?_ ?_ ?_ ?_ ?_ ?_ rfl rfl <;> try first | exact Or.inr rfl | exact Or.inl (by decide)) | (simp only [id_eq]; assumption) | dsimp only | split

theorem Kept.raiseIn (h : Kept p a s) (hp : Part.sub Part.alarms p = true := by first | decide | (refine Part.sub_of (by assumption) ?_; decide)) : Kept p a (State.raiseIn s x1 x2 x3 x4) := by
  unfold State.raiseIn
  repeat' first | with_reducible assumption | exact Part.sub_of hp (by decide) | with_reducible apply Kept.occurIn | with_reducible apply Kept.checkCopies | with_reducible apply Kept.checkPolicy | with_reducible apply Kept.foldl | with_reducible apply Kept.each | with_reducible refine Kept.ite (fun _ => ?_) (fun _ => ?_) | intro _ | (fail_if_no_progress with_reducible refine Kept.upd_of hp ?_ ?_ ?_ ?_ ?_ ?_ ?_ ?_ ?_ ?_ ?_ ?_ ?_ ?_ ?_ ?_ ?_ rfl rfl <;> try first | exact Or.inr rfl | exact Or.inl (by decide)) | (simp only [id_eq]; assumption) | dsimp only | split

theorem Kept.bistStage (h : Kept p a s) (hp : Part.sub { Part.alarms with tim := true, tst := true } p = true := by first | decide | (refine Part.sub_of (by assumption) ?_; decide)) : Kept p a (State.bistStage s x1) := by
  unfold State.bistStage
  repeat' first | with_reducible assumption | exact Part.sub_of hp (by decide) | with_reducible apply Kept.stageTo | with_reducible apply Kept.raiseIn | with_reducible apply Kept.foldl | with_reducible apply Kept.each | with_reducible refine Kept.ite (fun _ => ?_) (fun _ => ?_) | intro _ | (fail_if_no_progress with_reducible refine Kept.upd_of hp ?_ ?_ ?_ ?_ ?_ ?_ ?_ ?_ ?_ ?_ ?_ ?_ ?_ ?_ ?_ ?_ ?_ rfl rfl <;> try first | exact Or.inr rfl | exact Or.inl (by decide)) | (simp only [id_eq]; assumption) | dsimp only | split

theorem Kept.opensEnd (h : Kept p a s) (hp : Part.sub { hif := true, intc := true, recd := true, jl := true } p = true := by first | decide | (refine Part.sub_of (by assumption) ?_; decide)) : Kept p a (State.opensEnd s x1) := by
  unfold State.opensEnd
  repeat' first | with_reducible assumption | exact Part.sub_of hp (by decide) | with_reducible apply Kept.each | with_reducible apply Kept.openFails | with_reducible apply Kept.foldl | with_reducible apply Kept.each | with_reducible refine Kept.ite (fun _ => ?_) (fun _ => ?_) | intro _ | (fail_if_no_progress with_reducible refine Kept.upd_of hp ?_ ?_ ?_ ?_ ?_ ?_ ?_ ?_ ?_ ?_ ?_ ?_ ?_ ?_ ?_ ?_ ?_ rfl rfl <;> try first | exact Or.inr rfl | exact Or.inl (by decide)) | (simp only [id_eq]; assumption) | dsimp only | split

theorem Kept.strDown (h : Kept p a s) (hp : Part.sub { hif := true, intc := true, recd := true, jl := true } p = true := by first | decide | (refine Part.sub_of (by assumption) ?_; decide)) : Kept p a (State.strDown s x1) := by
  unfold State.strDown
  repeat' first | with_reducible assumption | exact Part.sub_of hp (by decide) | with_reducible apply Kept.opensEnd | with_reducible apply Kept.each | with_reducible apply Kept.updStrm | with_reducible apply Kept.foldl | with_reducible apply Kept.each | with_reducible refine Kept.ite (fun _ => ?_) (fun _ => ?_) | intro _ | (fail_if_no_progress with_reducible refine Kept.upd_of hp ?_ ?_ ?_ ?_ ?_ ?_ ?_ ?_ ?_ ?_ ?_ ?_ ?_ ?_ ?_ ?_ ?_ rfl rfl <;> try first | exact Or.inr rfl | exact Or.inl (by decide)) | (simp only [id_eq]; assumption) | dsimp only | split

theorem Kept.toHoldover (h : Kept p a s) (hp : Part.sub { Part.alarms with jl := true } p = true := by first | decide | (refine Part.sub_of (by assumption) ?_; decide)) : Kept p a (State.toHoldover s) := by
  unfold State.toHoldover
  repeat' first | with_reducible assumption | exact Part.sub_of hp (by decide) | with_reducible apply Kept.raise | with_reducible apply Kept.opensEnd | with_reducible apply Kept.foldl | with_reducible apply Kept.each | with_reducible refine Kept.ite (fun _ => ?_) (fun _ => ?_) | intro _ | (fail_if_no_progress with_reducible refine Kept.upd_of hp ?_ ?_ ?_ ?_ ?_ ?_ ?_ ?_ ?_ ?_ ?_ ?_ ?_ ?_ ?_ ?_ ?_ rfl rfl <;> try first | exact Or.inr rfl | exact Or.inl (by decide)) | (simp only [id_eq]; assumption) | dsimp only | split

theorem Kept.linkDown (h : Kept p a s) (hp : Part.sub { Part.alarms with jl := true } p = true := by first | decide | (refine Part.sub_of (by assumption) ?_; decide)) : Kept p a (State.linkDown s x1 x2) := by
  unfold State.linkDown
  repeat' first | with_reducible assumption | exact Part.sub_of hp (by decide) | with_reducible apply Kept.updPort | with_reducible apply Kept.raise | with_reducible apply Kept.strDown | with_reducible apply Kept.toHoldover | with_reducible apply Kept.foldl | with_reducible apply Kept.each | with_reducible refine Kept.ite (fun _ => ?_) (fun _ => ?_) | intro _ | (fail_if_no_progress with_reducible refine Kept.upd_of hp ?_ ?_ ?_ ?_ ?_ ?_ ?_ ?_ ?_ ?_ ?_ ?_ ?_ ?_ ?_ ?_ ?_ rfl rfl <;> try first | exact Or.inr rfl | exact Or.inl (by decide)) | (simp only [id_eq]; assumption) | dsimp only | split

theorem Kept.blockErrors (h : Kept p a s) (hp : Part.sub { Part.alarms with jl := true } p = true := by first | decide | (refine Part.sub_of (by assumption) ?_; decide)) : Kept p a (State.blockErrors s x1 x2) := by
  unfold State.blockErrors
  repeat' first | with_reducible assumption | exact Part.sub_of hp (by decide) | with_reducible apply Kept.linkDown | with_reducible apply Kept.foldl | with_reducible apply Kept.each | with_reducible refine Kept.ite (fun _ => ?_) (fun _ => ?_) | intro _ | (fail_if_no_progress with_reducible refine Kept.upd_of hp ?_ ?_ ?_ ?_ ?_ ?_ ?_ ?_ ?_ ?_ ?_ ?_ ?_ ?_ ?_ ?_ ?_ rfl rfl <;> try first | exact Or.inr rfl | exact Or.inl (by decide)) | (simp only [id_eq]; assumption) | dsimp only | split

theorem Kept.trainStart (h : Kept p a s) (hp : Part.sub { jl := true } p = true := by first | decide | (refine Part.sub_of (by assumption) ?_; decide)) : Kept p a (State.trainStart s x1) := by
  unfold State.trainStart
  repeat' first | with_reducible assumption | exact Part.sub_of hp (by decide) | with_reducible apply Kept.updPort | with_reducible apply Kept.foldl | with_reducible apply Kept.each | with_reducible refine Kept.ite (fun _ => ?_) (fun _ => ?_) | intro _ | (fail_if_no_progress with_reducible refine Kept.upd_of hp ?_ ?_ ?_ ?_ ?_ ?_ ?_ ?_ ?_ ?_ ?_ ?_ ?_ ?_ ?_ ?_ ?_ rfl rfl <;> try first | exact Or.inr rfl | exact Or.inl (by decide)) | (simp only [id_eq]; assumption) | dsimp only | split

theorem Kept.springStop (h : Kept p a s) (hp : Part.sub { tst := true } p = true := by first | decide | (refine Part.sub_of (by assumption) ?_; decide)) : Kept p a (State.springStop s) := by
  unfold State.springStop
  repeat' first | with_reducible assumption | exact Part.sub_of hp (by decide) | with_reducible apply Kept.foldl | with_reducible apply Kept.each | with_reducible refine Kept.ite (fun _ => ?_) (fun _ => ?_) | intro _ | (fail_if_no_progress with_reducible refine Kept.upd_of hp ?_ ?_ ?_ ?_ ?_ ?_ ?_ ?_ ?_ ?_ ?_ ?_ ?_ ?_ ?_ ?_ ?_ rfl rfl <;> try first | exact Or.inr rfl | exact Or.inl (by decide)) | (simp only [id_eq]; assumption) | dsimp only | split

theorem Kept.bootStage (h : Kept p a s) (hp : Part.sub { Part.alarms with jl := true, tst := true } p = true := by first | decide | (refine Part.sub_of (by assumption) ?_; decide)) : Kept p a (State.bootStage s x1) := by
  unfold State.bootStage
  repeat' first | with_reducible assumption | exact Part.sub_of hp (by decide) | with_reducible apply Kept.stageTo | with_reducible apply Kept.each | with_reducible apply Kept.trainStart | with_reducible apply Kept.springStop | with_reducible apply Kept.raise | with_reducible apply Kept.foldl | with_reducible apply Kept.each | with_reducible refine Kept.ite (fun _ => ?_) (fun _ => ?_) | intro _ | (fail_if_no_progress with_reducible refine Kept.upd_of hp ?_ ?_ ?_ ?_ ?_ ?_ ?_ ?_ ?_ ?_ ?_ ?_ ?_ ?_ ?_ ?_ ?_ rfl rfl <;> try first | exact Or.inr rfl | exact Or.inl (by decide)) | (simp only [id_eq]; assumption) | dsimp only | split

theorem Kept.bridgeReopen (h : Kept p a s) (hp : Part.sub { prot := true } p = true := by first | decide | (refine Part.sub_of (by assumption) ?_; decide)) : Kept p a (State.bridgeReopen s x1) := by
  unfold State.bridgeReopen
  repeat' first | with_reducible assumption | exact Part.sub_of hp (by decide) | with_reducible apply Kept.updNet | with_reducible apply Kept.foldl | with_reducible apply Kept.each | with_reducible refine Kept.ite (fun _ => ?_) (fun _ => ?_) | intro _ | (fail_if_no_progress with_reducible refine Kept.upd_of hp ?_ ?_ ?_ ?_ ?_ ?_ ?_ ?_ ?_ ?_ ?_ ?_ ?_ ?_ ?_ ?_ ?_ rfl rfl <;> try first | exact Or.inr rfl | exact Or.inl (by decide)) | (simp only [id_eq]; assumption) | dsimp only | split

theorem Kept.bsrLoad (h : Kept p a s) (hp : Part.sub { tst := true } p = true := by first | decide | (refine Part.sub_of (by assumption) ?_; decide)) : Kept p a (State.bsrLoad s x1) := by
  unfold State.bsrLoad
  repeat' first | with_reducible assumption | exact Part.sub_of hp (by decide) | with_reducible apply Kept.foldl | with_reducible apply Kept.each | with_reducible refine Kept.ite (fun _ => ?_) (fun _ => ?_) | intro _ | (fail_if_no_progress with_reducible refine Kept.upd_of hp ?_ ?_ ?_ ?_ ?_ ?_ ?_ ?_ ?_ ?_ ?_ ?_ ?_ ?_ ?_ ?_ ?_ rfl rfl <;> try first | exact Or.inr rfl | exact Or.inl (by decide)) | (simp only [id_eq]; assumption) | dsimp only | split

theorem Kept.bufferSlip (h : Kept p a s) (hp : Part.sub { Part.alarms with tim := true } p = true := by first | decide | (refine Part.sub_of (by assumption) ?_; decide)) : Kept p a (State.bufferSlip s x1 x2) := by
  unfold State.bufferSlip
  repeat' first | with_reducible assumption | exact Part.sub_of hp (by decide) | with_reducible apply Kept.raise | with_reducible apply Kept.updTile | with_reducible apply Kept.foldl | with_reducible apply Kept.each | with_reducible refine Kept.ite (fun _ => ?_) (fun _ => ?_) | intro _ | (fail_if_no_progress with_reducible refine Kept.upd_of hp ?_ ?_ ?_ ?_ ?_ ?_ ?_ ?_ ?_ ?_ ?_ ?_ ?_ ?_ ?_ ?_ ?_ rfl rfl <;> try first | exact Or.inr rfl | exact Or.inl (by decide)) | (simp only [id_eq]; assumption) | dsimp only | split

theorem Kept.busMasterOff (h : Kept p a s) (hp : Part.sub { hif := true } p = true := by first | decide | (refine Part.sub_of (by assumption) ?_; decide)) : Kept p a (State.busMasterOff s) := by
  unfold State.busMasterOff
  repeat' first | with_reducible assumption | exact Part.sub_of hp (by decide) | with_reducible apply Kept.each | with_reducible apply Kept.stopRing | with_reducible apply Kept.foldl | with_reducible apply Kept.each | with_reducible refine Kept.ite (fun _ => ?_) (fun _ => ?_) | intro _ | (fail_if_no_progress with_reducible refine Kept.upd_of hp ?_ ?_ ?_ ?_ ?_ ?_ ?_ ?_ ?_ ?_ ?_ ?_ ?_ ?_ ?_ ?_ ?_ rfl rfl <;> try first | exact Or.inr rfl | exact Or.inl (by decide)) | (simp only [id_eq]; assumption) | dsimp only | split

theorem Kept.busMasterOn (h : Kept p a s) (hp : Part.sub { hif := true, intc := true } p = true := by first | decide | (refine Part.sub_of (by assumption) ?_; decide)) : Kept p a (State.busMasterOn s) := by
  unfold State.busMasterOn
  repeat' first | with_reducible assumption | exact Part.sub_of hp (by decide) | with_reducible apply Kept.each | with_reducible apply Kept.flushHeld | with_reducible apply Kept.foldl | with_reducible apply Kept.each | with_reducible refine Kept.ite (fun _ => ?_) (fun _ => ?_) | intro _ | (fail_if_no_progress with_reducible refine Kept.upd_of hp ?_ ?_ ?_ ?_ ?_ ?_ ?_ ?_ ?_ ?_ ?_ ?_ ?_ ?_ ?_ ?_ ?_ rfl rfl <;> try first | exact Or.inr rfl | exact Or.inl (by decide)) | (simp only [id_eq]; assumption) | dsimp only | split

theorem Kept.calResult (h : Kept p a s) (hp : Part.sub { Part.alarms with rfe := true } p = true := by first | decide | (refine Part.sub_of (by assumption) ?_; decide)) : Kept p a (State.calResult s x1 x2 x3 x4) := by
  unfold State.calResult
  repeat' first | with_reducible assumption | exact Part.sub_of hp (by decide) | with_reducible apply Kept.updChain | with_reducible apply Kept.raise | with_reducible apply Kept.foldl | with_reducible apply Kept.each | with_reducible refine Kept.ite (fun _ => ?_) (fun _ => ?_) | intro _ | (fail_if_no_progress with_reducible refine Kept.upd_of hp ?_ ?_ ?_ ?_ ?_ ?_ ?_ ?_ ?_ ?_ ?_ ?_ ?_ ?_ ?_ ?_ ?_ rfl rfl <;> try first | exact Or.inr rfl | exact Or.inl (by decide)) | (simp only [id_eq]; assumption) | dsimp only | split

theorem Kept.calEnd (h : Kept p a s) (hp : Part.sub { Part.alarms with rfe := true } p = true := by first | decide | (refine Part.sub_of (by assumption) ?_; decide)) : Kept p a (State.calEnd s x1 x2 x3) := by
  unfold State.calEnd
  repeat' first | with_reducible assumption | exact Part.sub_of hp (by decide) | with_reducible apply Kept.chainSync | with_reducible apply Kept.calResult | with_reducible apply Kept.updPend | with_reducible apply Kept.updChain | with_reducible apply Kept.completeId | with_reducible apply Kept.completeAll | with_reducible apply Kept.foldl | with_reducible apply Kept.each | with_reducible refine Kept.ite (fun _ => ?_) (fun _ => ?_) | intro _ | (fail_if_no_progress with_reducible refine Kept.upd_of hp ?_ ?_ ?_ ?_ ?_ ?_ ?_ ?_ ?_ ?_ ?_ ?_ ?_ ?_ ?_ ?_ ?_ rfl rfl <;> try first | exact Or.inr rfl | exact Or.inl (by decide)) | (simp only [id_eq]; assumption) | dsimp only | split

theorem Kept.calStart (h : Kept p a s) (hp : Part.sub { hif := true, rfe := true } p = true := by first | decide | (refine Part.sub_of (by assumption) ?_; decide)) : Kept p a (State.calStart s x1) := by
  unfold State.calStart
  repeat' first | with_reducible assumption | exact Part.sub_of hp (by decide) | with_reducible apply Kept.chainSync | with_reducible apply Kept.updPend | with_reducible apply Kept.updChain | with_reducible apply Kept.foldl | with_reducible apply Kept.each | with_reducible refine Kept.ite (fun _ => ?_) (fun _ => ?_) | intro _ | (fail_if_no_progress with_reducible refine Kept.upd_of hp ?_ ?_ ?_ ?_ ?_ ?_ ?_ ?_ ?_ ?_ ?_ ?_ ?_ ?_ ?_ ?_ ?_ rfl rfl <;> try first | exact Or.inr rfl | exact Or.inl (by decide)) | (simp only [id_eq]; assumption) | dsimp only | split

theorem Kept.capCut (h : Kept p a s) (hp : Part.sub { hif := true, intc := true, recd := true, gcl := true } p = true := by first | decide | (refine Part.sub_of (by assumption) ?_; decide)) : Kept p a (State.capCut s x1) := by
  unfold State.capCut
  repeat' first | with_reducible assumption | exact Part.sub_of hp (by decide) | with_reducible apply Kept.gainSetCheck | with_reducible apply Kept.updGain | with_reducible apply Kept.foldl | with_reducible apply Kept.each | with_reducible refine Kept.ite (fun _ => ?_) (fun _ => ?_) | intro _ | (fail_if_no_progress with_reducible refine Kept.upd_of hp ?_ ?_ ?_ ?_ ?_ ?_ ?_ ?_ ?_ ?_ ?_ ?_ ?_ ?_ ?_ ?_ ?_ rfl rfl <;> try first | exact Or.inr rfl | exact Or.inl (by decide)) | (simp only [id_eq]; assumption) | dsimp only | split

theorem Kept.capExec (h : Kept p a s) (hp : Part.sub Part.alarms p = true := by first | decide | (refine Part.sub_of (by assumption) ?_; decide)) : Kept p a (State.capExec s x1) := by
  unfold State.capExec
  repeat' first | with_reducible assumption | exact Part.sub_of hp (by decide) | with_reducible apply Kept.updGain | with_reducible apply Kept.raise | with_reducible apply Kept.foldl | with_reducible apply Kept.each | with_reducible refine Kept.ite (fun _ => ?_) (fun _ => ?_) | intro _ | (fail_if_no_progress with_reducible refine Kept.upd_of hp ?_ ?_ ?_ ?_ ?_ ?_ ?_ ?_ ?_ ?_ ?_ ?_ ?_ ?_ ?_ ?_ ?_ rfl rfl <;> try first | exact Or.inr rfl | exact Or.inl (by decide)) | (simp only [id_eq]; assumption) | dsimp only | split

theorem Kept.linkTake {f : State → State} (hf : ∀ b, Kept p a b → Kept p a (f b)) (h : Kept p a s) (hp : Part.sub { jl := true } p = true := by first | decide | (refine Part.sub_of (by assumption) ?_; decide))  : Kept p a (s.linkTake x1 f) := by
  unfold State.linkTake
  dsimp only
  split
  · exact h
  · split
    · exact Kept.updPort h
    · exact hf _ (Kept.updPort h)

theorem Kept.discardMsg (h : Kept p a s) (hp : Part.sub { jl := true } p = true := by first | decide | (refine Part.sub_of (by assumption) ?_; decide)) : Kept p a (State.discardMsg s x1) := by
  unfold State.discardMsg
  repeat' first | with_reducible assumption | exact Part.sub_of hp (by decide) | with_reducible apply Kept.updPort | with_reducible apply Kept.foldl | with_reducible apply Kept.each | with_reducible refine Kept.ite (fun _ => ?_) (fun _ => ?_) | intro _ | (fail_if_no_progress with_reducible refine Kept.upd_of hp ?_ ?_ ?_ ?_ ?_ ?_ ?_ ?_ ?_ ?_ ?_ ?_ ?_ ?_ ?_ ?_ ?_ rfl rfl <;> try first | exact Or.inr rfl | exact Or.inl (by decide)) | (simp only [id_eq]; assumption) | dsimp only | split

theorem Kept.once {f : State → State} (hf : ∀ b, Kept p a b → Kept p a (f b)) (h : Kept p a s) (hp : Part.sub { jl := true } p = true := by first | decide | (refine Part.sub_of (by assumption) ?_; decide))  : Kept p a (s.once x1 f) := by
  unfold State.once
  dsimp only
  split
  · exact hf _ (Kept.of hp h)
  · split
    · split
      · exact Kept.routeSend h
      · exact h
    · exact Kept.discardMsg h

theorem Kept.takeRouted {f g : State → State} (hf : ∀ b, Kept p a b → Kept p a (f b)) (hg : ∀ b, Kept p a b → Kept p a (g b)) (h : Kept p a s) (hp : Part.sub { jl := true } p = true := by first | decide | (refine Part.sub_of (by assumption) ?_; decide))  : Kept p a (s.takeRouted x1 x2 x3 x4 f g) := by
  unfold State.takeRouted
  repeat' first | with_reducible assumption | with_reducible apply Kept.portSend | with_reducible apply Kept.each | with_reducible apply Kept.linkTake | with_reducible apply Kept.once | with_reducible apply Kept.discardMsg | with_reducible apply Kept.routeSend | with_reducible apply hf | with_reducible apply hg | intro _ | dsimp only | split

theorem Kept.respond (h : Kept p a s) (hp : Part.sub { jl := true } p = true := by first | decide | (refine Part.sub_of (by assumption) ?_; decide)) : Kept p a (State.respond s x1) := by
  unfold State.respond
  repeat' first | with_reducible assumption | exact Part.sub_of hp (by decide) | with_reducible apply Kept.routeSend | with_reducible apply Kept.foldl | with_reducible apply Kept.each | with_reducible refine Kept.ite (fun _ => ?_) (fun _ => ?_) | intro _ | (fail_if_no_progress with_reducible refine Kept.upd_of hp ?_ ?_ ?_ ?_ ?_ ?_ ?_ ?_ ?_ ?_ ?_ ?_ ?_ ?_ ?_ ?_ ?_ rfl rfl <;> try first | exact Or.inr rfl | exact Or.inl (by decide)) | (simp only [id_eq]; assumption) | dsimp only | split

theorem Kept.owedCheck (h : Kept p a s) (hp : Part.sub { jl := true } p = true := by first | decide | (refine Part.sub_of (by assumption) ?_; decide)) : Kept p a (State.owedCheck s) := by
  unfold State.owedCheck
  repeat' first | with_reducible assumption | exact Part.sub_of hp (by decide) | with_reducible apply Kept.respond | with_reducible apply Kept.foldl | with_reducible apply Kept.each | with_reducible refine Kept.ite (fun _ => ?_) (fun _ => ?_) | intro _ | (fail_if_no_progress with_reducible refine Kept.upd_of hp ?_ ?_ ?_ ?_ ?_ ?_ ?_ ?_ ?_ ?_ ?_ ?_ ?_ ?_ ?_ ?_ ?_ rfl rfl <;> try first | exact Or.inr rfl | exact Or.inl (by decide)) | (simp only [id_eq]; assumption) | dsimp only | split

theorem Kept.owedWithout (h : Kept p a s) (hp : Part.sub { jl := true } p = true := by first | decide | (refine Part.sub_of (by assumption) ?_; decide)) : Kept p a (State.owedWithout s x1 x2) := by
  unfold State.owedWithout
  repeat' first | with_reducible assumption | exact Part.sub_of hp (by decide) | with_reducible apply Kept.foldl | with_reducible apply Kept.each | with_reducible refine Kept.ite (fun _ => ?_) (fun _ => ?_) | intro _ | (fail_if_no_progress with_reducible refine Kept.upd_of hp ?_ ?_ ?_ ?_ ?_ ?_ ?_ ?_ ?_ ?_ ?_ ?_ ?_ ?_ ?_ ?_ ?_ rfl rfl <;> try first | exact Or.inr rfl | exact Or.inl (by decide)) | (simp only [id_eq]; assumption) | dsimp only | split

theorem Kept.capResponse (h : Kept p a s) (hp : Part.sub { jl := true } p = true := by first | decide | (refine Part.sub_of (by assumption) ?_; decide)) : Kept p a (State.capResponse s x1 x2) := by
  unfold State.capResponse
  repeat' first | with_reducible assumption | exact Part.sub_of hp (by decide) | with_reducible apply Kept.takeRouted | with_reducible apply Kept.answered | with_reducible apply Kept.owedCheck | with_reducible apply Kept.owedWithout | with_reducible apply Kept.foldl | with_reducible apply Kept.each | with_reducible refine Kept.ite (fun _ => ?_) (fun _ => ?_) | intro _ | (fail_if_no_progress with_reducible refine Kept.upd_of hp ?_ ?_ ?_ ?_ ?_ ?_ ?_ ?_ ?_ ?_ ?_ ?_ ?_ ?_ ?_ ?_ ?_ rfl rfl <;> try first | exact Or.inr rfl | exact Or.inl (by decide)) | (simp only [id_eq]; assumption) | dsimp only | split

theorem Kept.capStale (h : Kept p a s) (hp : Part.sub Part.alarms p = true := by first | decide | (refine Part.sub_of (by assumption) ?_; decide)) : Kept p a (State.capStale s x1) := by
  unfold State.capStale
  repeat' first | with_reducible assumption | exact Part.sub_of hp (by decide) | with_reducible apply Kept.capAll | with_reducible apply Kept.raise | with_reducible apply Kept.updInst | with_reducible apply Kept.foldl | with_reducible apply Kept.each | with_reducible refine Kept.ite (fun _ => ?_) (fun _ => ?_) | intro _ | (fail_if_no_progress with_reducible refine Kept.upd_of hp ?_ ?_ ?_ ?_ ?_ ?_ ?_ ?_ ?_ ?_ ?_ ?_ ?_ ?_ ?_ ?_ ?_ rfl rfl <;> try first | exact Or.inr rfl | exact Or.inl (by decide)) | (simp only [id_eq]; assumption) | dsimp only | split

theorem Kept.cascadeClear (h : Kept p a s) (hp : Part.sub { prot := true } p = true := by first | decide | (refine Part.sub_of (by assumption) ?_; decide)) : Kept p a (State.cascadeClear s) := by
  unfold State.cascadeClear
  repeat' first | with_reducible assumption | exact Part.sub_of hp (by decide) | with_reducible apply Kept.each | with_reducible apply Kept.clearCause | with_reducible apply Kept.foldl | with_reducible apply Kept.each | with_reducible refine Kept.ite (fun _ => ?_) (fun _ => ?_) | intro _ | (fail_if_no_progress with_reducible refine Kept.upd_of hp ?_ ?_ ?_ ?_ ?_ ?_ ?_ ?_ ?_ ?_ ?_ ?_ ?_ ?_ ?_ ?_ ?_ rfl rfl <;> try first | exact Or.inr rfl | exact Or.inl (by decide)) | (simp only [id_eq]; assumption) | dsimp only | split

theorem Kept.capTake (h : Kept p a s) (hp : Part.sub { Part.alarms with jl := true } p = true := by first | decide | (refine Part.sub_of (by assumption) ?_; decide)) : Kept p a (State.capTake s x1 x2 x3 x4) := by
  unfold State.capTake
  repeat' first | with_reducible assumption | exact Part.sub_of hp (by decide) | with_reducible apply Kept.takeRouted | with_reducible apply Kept.once | with_reducible apply Kept.capAll | with_reducible apply Kept.capExec | with_reducible apply Kept.cascadeClear | with_reducible apply Kept.respond | with_reducible apply Kept.foldl | with_reducible apply Kept.each | with_reducible refine Kept.ite (fun _ => ?_) (fun _ => ?_) | intro _ | (fail_if_no_progress with_reducible refine Kept.upd_of hp ?_ ?_ ?_ ?_ ?_ ?_ ?_ ?_ ?_ ?_ ?_ ?_ ?_ ?_ ?_ ?_ ?_ rfl rfl <;> try first | exact Or.inr rfl | exact Or.inl (by decide)) | (simp only [id_eq]; assumption) | dsimp only | split

theorem Kept.captEnd (h : Kept p a s) (hp : Part.sub { hif := true, intc := true, recd := true } p = true := by first | decide | (refine Part.sub_of (by assumption) ?_; decide)) : Kept p a (State.captEnd s x1 x2) := by
  unfold State.captEnd
  repeat' first | with_reducible assumption | exact Part.sub_of hp (by decide) | with_reducible apply Kept.hostWrite | with_reducible apply Kept.captNext | with_reducible apply Kept.complete | with_reducible apply Kept.foldl | with_reducible apply Kept.each | with_reducible refine Kept.ite (fun _ => ?_) (fun _ => ?_) | intro _ | (fail_if_no_progress with_reducible refine Kept.upd_of hp ?_ ?_ ?_ ?_ ?_ ?_ ?_ ?_ ?_ ?_ ?_ ?_ ?_ ?_ ?_ ?_ ?_ rfl rfl <;> try first | exact Or.inr rfl | exact Or.inl (by decide)) | (simp only [id_eq]; assumption) | dsimp only | split

theorem Kept.captStart (h : Kept p a s) (hp : Part.sub { hif := true } p = true := by first | decide | (refine Part.sub_of (by assumption) ?_; decide)) : Kept p a (State.captStart s) := by
  unfold State.captStart
  repeat' first | with_reducible assumption | exact Part.sub_of hp (by decide) | with_reducible apply Kept.captNext | with_reducible apply Kept.updPend | with_reducible apply Kept.foldl | with_reducible apply Kept.each | with_reducible refine Kept.ite (fun _ => ?_) (fun _ => ?_) | intro _ | (fail_if_no_progress with_reducible refine Kept.upd_of hp ?_ ?_ ?_ ?_ ?_ ?_ ?_ ?_ ?_ ?_ ?_ ?_ ?_ ?_ ?_ ?_ ?_ rfl rfl <;> try first | exact Or.inr rfl | exact Or.inl (by decide)) | (simp only [id_eq]; assumption) | dsimp only | split

theorem Kept.causeClear (h : Kept p a s) (hp : Part.sub { prot := true } p = true := by first | decide | (refine Part.sub_of (by assumption) ?_; decide)) : Kept p a (State.causeClear s x1 x2) := by
  unfold State.causeClear
  repeat' first | with_reducible assumption | exact Part.sub_of hp (by decide) | with_reducible apply Kept.clearCause | with_reducible apply Kept.foldl | with_reducible apply Kept.each | with_reducible refine Kept.ite (fun _ => ?_) (fun _ => ?_) | intro _ | (fail_if_no_progress with_reducible refine Kept.upd_of hp ?_ ?_ ?_ ?_ ?_ ?_ ?_ ?_ ?_ ?_ ?_ ?_ ?_ ?_ ?_ ?_ ?_ rfl rfl <;> try first | exact Or.inr rfl | exact Or.inl (by decide)) | (simp only [id_eq]; assumption) | dsimp only | split

theorem Kept.chainHeldStart (h : Kept p a s) (hp : Part.sub { hif := true, intc := true, recd := true, rfe := true } p = true := by first | decide | (refine Part.sub_of (by assumption) ?_; decide)) : Kept p a (State.chainHeldStart s x1) := by
  unfold State.chainHeldStart
  repeat' first | with_reducible assumption | exact Part.sub_of hp (by decide) | with_reducible apply Kept.chainSync | with_reducible apply Kept.complete | with_reducible apply Kept.walkBegin | with_reducible apply Kept.foldl | with_reducible apply Kept.each | with_reducible refine Kept.ite (fun _ => ?_) (fun _ => ?_) | intro _ | (fail_if_no_progress with_reducible refine Kept.upd_of hp ?_ ?_ ?_ ?_ ?_ ?_ ?_ ?_ ?_ ?_ ?_ ?_ ?_ ?_ ?_ ?_ ?_ rfl rfl <;> try first | exact Or.inr rfl | exact Or.inl (by decide)) | (simp only [id_eq]; assumption) | dsimp only | split

theorem Kept.chainProof (h : Kept p a s) (hp : Part.sub Part.alarms p = true := by first | decide | (refine Part.sub_of (by assumption) ?_; decide)) : Kept p a (State.chainProof s x1 x2 x3) := by
  unfold State.chainProof
  repeat' first | with_reducible assumption | exact Part.sub_of hp (by decide) | with_reducible apply Kept.updObj | with_reducible apply Kept.updNet | with_reducible apply Kept.clearCause | with_reducible apply Kept.winterSet | with_reducible apply Kept.raise | with_reducible apply Kept.foldl | with_reducible apply Kept.each | with_reducible refine Kept.ite (fun _ => ?_) (fun _ => ?_) | intro _ | (fail_if_no_progress with_reducible refine Kept.upd_of hp ?_ ?_ ?_ ?_ ?_ ?_ ?_ ?_ ?_ ?_ ?_ ?_ ?_ ?_ ?_ ?_ ?_ rfl rfl <;> try first | exact Or.inr rfl | exact Or.inl (by decide)) | (simp only [id_eq]; assumption) | dsimp only | split

theorem Kept.chainProofs (h : Kept p a s) (hp : Part.sub Part.alarms p = true := by first | decide | (refine Part.sub_of (by assumption) ?_; decide)) : Kept p a (State.chainProofs s x1 x2 x3) := by
  unfold State.chainProofs
  repeat' first | with_reducible assumption | exact Part.sub_of hp (by decide) | with_reducible apply Kept.each | with_reducible apply Kept.chainProof | with_reducible apply Kept.foldl | with_reducible apply Kept.each | with_reducible refine Kept.ite (fun _ => ?_) (fun _ => ?_) | intro _ | (fail_if_no_progress with_reducible refine Kept.upd_of hp ?_ ?_ ?_ ?_ ?_ ?_ ?_ ?_ ?_ ?_ ?_ ?_ ?_ ?_ ?_ ?_ ?_ rfl rfl <;> try first | exact Or.inr rfl | exact Or.inl (by decide)) | (simp only [id_eq]; assumption) | dsimp only | split

theorem Kept.walkDone (h : Kept p a s) (hp : Part.sub { hif := true, intc := true, recd := true } p = true := by first | decide | (refine Part.sub_of (by assumption) ?_; decide)) : Kept p a (State.walkDone s x1) := by
  unfold State.walkDone
  repeat' first | with_reducible assumption | exact Part.sub_of hp (by decide) | with_reducible apply Kept.complete | with_reducible apply Kept.foldl | with_reducible apply Kept.each | with_reducible refine Kept.ite (fun _ => ?_) (fun _ => ?_) | intro _ | (fail_if_no_progress with_reducible refine Kept.upd_of hp ?_ ?_ ?_ ?_ ?_ ?_ ?_ ?_ ?_ ?_ ?_ ?_ ?_ ?_ ?_ ?_ ?_ rfl rfl <;> try first | exact Or.inr rfl | exact Or.inl (by decide)) | (simp only [id_eq]; assumption) | dsimp only | split

theorem Kept.walkFail (h : Kept p a s) (hp : Part.sub { hif := true, intc := true, recd := true, rfe := true } p = true := by first | decide | (refine Part.sub_of (by assumption) ?_; decide)) : Kept p a (State.walkFail s x1 x2) := by
  unfold State.walkFail
  repeat' first | with_reducible assumption | exact Part.sub_of hp (by decide) | with_reducible apply Kept.completeId | with_reducible apply Kept.updChain | with_reducible apply Kept.foldl | with_reducible apply Kept.each | with_reducible refine Kept.ite (fun _ => ?_) (fun _ => ?_) | intro _ | (fail_if_no_progress with_reducible refine Kept.upd_of hp ?_ ?_ ?_ ?_ ?_ ?_ ?_ ?_ ?_ ?_ ?_ ?_ ?_ ?_ ?_ ?_ ?_ rfl rfl <;> try first | exact Or.inr rfl | exact Or.inl (by decide)) | (simp only [id_eq]; assumption) | dsimp only | split

theorem Kept.walkStep (h : Kept p a s) (hp : Part.sub { hif := true, intc := true, recd := true, rfe := true } p = true := by first | decide | (refine Part.sub_of (by assumption) ?_; decide)) : Kept p a (State.walkStep s x1 x2) := by
  unfold State.walkStep
  repeat' first | with_reducible assumption | exact Part.sub_of hp (by decide) | with_reducible apply Kept.updChain | with_reducible apply Kept.walkDone | with_reducible apply Kept.walkFail | with_reducible apply Kept.foldl | with_reducible apply Kept.each | with_reducible refine Kept.ite (fun _ => ?_) (fun _ => ?_) | intro _ | (fail_if_no_progress with_reducible refine Kept.upd_of hp ?_ ?_ ?_ ?_ ?_ ?_ ?_ ?_ ?_ ?_ ?_ ?_ ?_ ?_ ?_ ?_ ?_ rfl rfl <;> try first | exact Or.inr rfl | exact Or.inl (by decide)) | (simp only [id_eq]; assumption) | dsimp only | split

theorem Kept.cxChainSync (h : Kept p a s) (hp : Part.sub { cx := true } p = true := by first | decide | (refine Part.sub_of (by assumption) ?_; decide)) : Kept p a (State.cxChainSync s x1) := by
  unfold State.cxChainSync
  repeat' first | with_reducible assumption | exact Part.sub_of hp (by decide) | with_reducible apply Kept.each | with_reducible apply Kept.cxRunSync | with_reducible apply Kept.foldl | with_reducible apply Kept.each | with_reducible refine Kept.ite (fun _ => ?_) (fun _ => ?_) | intro _ | (fail_if_no_progress with_reducible refine Kept.upd_of hp ?_ ?_ ?_ ?_ ?_ ?_ ?_ ?_ ?_ ?_ ?_ ?_ ?_ ?_ ?_ ?_ ?_ rfl rfl <;> try first | exact Or.inr rfl | exact Or.inl (by decide)) | (simp only [id_eq]; assumption) | dsimp only | split

theorem Kept.rxLeft (h : Kept p a s) (hp : Part.sub { slots := true } p = true := by first | decide | (refine Part.sub_of (by assumption) ?_; decide)) : Kept p a (State.rxLeft s x1) := by
  unfold State.rxLeft
  repeat' first | with_reducible assumption | exact Part.sub_of hp (by decide) | with_reducible apply Kept.each | with_reducible apply Kept.updSlot | with_reducible apply Kept.foldl | with_reducible apply Kept.each | with_reducible refine Kept.ite (fun _ => ?_) (fun _ => ?_) | intro _ | (fail_if_no_progress with_reducible refine Kept.upd_of hp ?_ ?_ ?_ ?_ ?_ ?_ ?_ ?_ ?_ ?_ ?_ ?_ ?_ ?_ ?_ ?_ ?_ rfl rfl <;> try first | exact Or.inr rfl | exact Or.inl (by decide)) | (simp only [id_eq]; assumption) | dsimp only | split

theorem Kept.rxEntered (h : Kept p a s) (hp : Part.sub { slots := true } p = true := by first | decide | (refine Part.sub_of (by assumption) ?_; decide)) : Kept p a (State.rxEntered s x1) := by
  unfold State.rxEntered
  repeat' first | with_reducible assumption | exact Part.sub_of hp (by decide) | with_reducible apply Kept.each | with_reducible apply Kept.updSlot | with_reducible apply Kept.foldl | with_reducible apply Kept.each | with_reducible refine Kept.ite (fun _ => ?_) (fun _ => ?_) | intro _ | (fail_if_no_progress with_reducible refine Kept.upd_of hp ?_ ?_ ?_ ?_ ?_ ?_ ?_ ?_ ?_ ?_ ?_ ?_ ?_ ?_ ?_ ?_ ?_ rfl rfl <;> try first | exact Or.inr rfl | exact Or.inl (by decide)) | (simp only [id_eq]; assumption) | dsimp only | split

theorem Kept.moveChain (h : Kept p a s) (hp : Part.sub { rfe := true, slots := true, cx := true } p = true := by first | decide | (refine Part.sub_of (by assumption) ?_; decide)) : Kept p a (State.moveChain s x1 x2) := by
  unfold State.moveChain
  repeat' first | with_reducible assumption | exact Part.sub_of hp (by decide) | with_reducible apply Kept.updChain | with_reducible apply Kept.cxChainSync | with_reducible apply Kept.rxLeft | with_reducible apply Kept.rxEntered | with_reducible apply Kept.foldl | with_reducible apply Kept.each | with_reducible refine Kept.ite (fun _ => ?_) (fun _ => ?_) | intro _ | (fail_if_no_progress with_reducible refine Kept.upd_of hp ?_ ?_ ?_ ?_ ?_ ?_ ?_ ?_ ?_ ?_ ?_ ?_ ?_ ?_ ?_ ?_ ?_ rfl rfl <;> try first | exact Or.inr rfl | exact Or.inl (by decide)) | (simp only [id_eq]; assumption) | dsimp only | split

theorem Kept.chainTransitionEnd (h : Kept p a s) (hp : Part.sub { hif := true, intc := true, recd := true, rfe := true, slots := true, cx := true } p = true := by first | decide | (refine Part.sub_of (by assumption) ?_; decide)) : Kept p a (State.chainTransitionEnd s x1) := by
  unfold State.chainTransitionEnd
  repeat' first | with_reducible assumption | exact Part.sub_of hp (by decide) | with_reducible apply Kept.chainSync | with_reducible apply Kept.walkStep | with_reducible apply Kept.moveChain | with_reducible apply Kept.updChain | with_reducible apply Kept.foldl | with_reducible apply Kept.each | with_reducible refine Kept.ite (fun _ => ?_) (fun _ => ?_) | intro _ | (fail_if_no_progress with_reducible refine Kept.upd_of hp ?_ ?_ ?_ ?_ ?_ ?_ ?_ ?_ ?_ ?_ ?_ ?_ ?_ ?_ ?_ ?_ ?_ rfl rfl <;> try first | exact Or.inr rfl | exact Or.inl (by decide)) | (simp only [id_eq]; assumption) | dsimp only | split

theorem Kept.complObj (h : Kept p a s) (hp : Part.sub Part.alarms p = true := by first | decide | (refine Part.sub_of (by assumption) ?_; decide)) : Kept p a (State.complObj s x1) := by
  unfold State.complObj
  repeat' first | with_reducible assumption | exact Part.sub_of hp (by decide) | with_reducible apply Kept.raiseI | with_reducible apply Kept.raiseIn | with_reducible apply Kept.foldl | with_reducible apply Kept.each | with_reducible refine Kept.ite (fun _ => ?_) (fun _ => ?_) | intro _ | (fail_if_no_progress with_reducible refine Kept.upd_of hp ?_ ?_ ?_ ?_ ?_ ?_ ?_ ?_ ?_ ?_ ?_ ?_ ?_ ?_ ?_ ?_ ?_ rfl rfl <;> try first | exact Or.inr rfl | exact Or.inl (by decide)) | (simp only [id_eq]; assumption) | dsimp only | split

theorem Kept.complLost (h : Kept p a s) (hp : Part.sub Part.alarms p = true := by first | decide | (refine Part.sub_of (by assumption) ?_; decide)) : Kept p a (State.complLost s x1) := by
  unfold State.complLost
  repeat' first | with_reducible assumption | exact Part.sub_of hp (by decide) | with_reducible apply Kept.raiseI | with_reducible apply Kept.updGain | with_reducible apply Kept.updInst | with_reducible apply Kept.raiseIn | with_reducible apply Kept.complObj | with_reducible apply Kept.foldl | with_reducible apply Kept.each | with_reducible refine Kept.ite (fun _ => ?_) (fun _ => ?_) | intro _ | (fail_if_no_progress with_reducible refine Kept.upd_of hp ?_ ?_ ?_ ?_ ?_ ?_ ?_ ?_ ?_ ?_ ?_ ?_ ?_ ?_ ?_ ?_ ?_ rfl rfl <;> try first | exact Or.inr rfl | exact Or.inl (by decide)) | (simp only [id_eq]; assumption) | dsimp only | split

theorem Kept.checkCompl (h : Kept p a s) (hp : Part.sub Part.alarms p = true := by first | decide | (refine Part.sub_of (by assumption) ?_; decide)) : Kept p a (State.checkCompl s x1) := by
  unfold State.checkCompl
  repeat' first | with_reducible assumption | exact Part.sub_of hp (by decide) | with_reducible apply Kept.complLost | with_reducible apply Kept.foldl | with_reducible apply Kept.each | with_reducible refine Kept.ite (fun _ => ?_) (fun _ => ?_) | intro _ | (fail_if_no_progress with_reducible refine Kept.upd_of hp ?_ ?_ ?_ ?_ ?_ ?_ ?_ ?_ ?_ ?_ ?_ ?_ ?_ ?_ ?_ ?_ ?_ rfl rfl <;> try first | exact Or.inr rfl | exact Or.inl (by decide)) | (simp only [id_eq]; assumption) | dsimp only | split

theorem Kept.lockFailed (h : Kept p a s) (hp : Part.sub { rfe := true } p = true := by first | decide | (refine Part.sub_of (by assumption) ?_; decide)) : Kept p a (State.lockFailed s x1) := by
  unfold State.lockFailed
  repeat' first | with_reducible assumption | exact Part.sub_of hp (by decide) | with_reducible apply Kept.updChain | with_reducible apply Kept.foldl | with_reducible apply Kept.each | with_reducible refine Kept.ite (fun _ => ?_) (fun _ => ?_) | intro _ | (fail_if_no_progress with_reducible refine Kept.upd_of hp ?_ ?_ ?_ ?_ ?_ ?_ ?_ ?_ ?_ ?_ ?_ ?_ ?_ ?_ ?_ ?_ ?_ rfl rfl <;> try first | exact Or.inr rfl | exact Or.inl (by decide)) | (simp only [id_eq]; assumption) | dsimp only | split

theorem Kept.ckDrop (h : Kept p a s) (hp : Part.sub { hif := true, intc := true, recd := true, rfe := true, slots := true, cx := true } p = true := by first | decide | (refine Part.sub_of (by assumption) ?_; decide)) : Kept p a (State.ckDrop s x1) := by
  unfold State.ckDrop
  repeat' first | with_reducible assumption | exact Part.sub_of hp (by decide) | with_reducible apply Kept.chainSync | with_reducible apply Kept.moveChain | with_reducible apply Kept.updChain | with_reducible apply Kept.lockFailed | with_reducible apply Kept.walkFail | with_reducible apply Kept.completeAll | with_reducible apply Kept.foldl | with_reducible apply Kept.each | with_reducible refine Kept.ite (fun _ => ?_) (fun _ => ?_) | intro _ | (fail_if_no_progress with_reducible refine Kept.upd_of hp ?_ ?_ ?_ ?_ ?_ ?_ ?_ ?_ ?_ ?_ ?_ ?_ ?_ ?_ ?_ ?_ ?_ rfl rfl <;> try first | exact Or.inr rfl | exact Or.inl (by decide)) | (simp only [id_eq]; assumption) | dsimp only | split

theorem Kept.claim (h : Kept p a s) (hp : Part.sub { intc := true } p = true := by first | decide | (refine Part.sub_of (by assumption) ?_; decide)) : Kept p a (State.claim s x1) := by
  unfold State.claim
  repeat' first | with_reducible assumption | exact Part.sub_of hp (by decide) | with_reducible apply Kept.updVec | with_reducible apply Kept.foldl | with_reducible apply Kept.each | with_reducible refine Kept.ite (fun _ => ?_) (fun _ => ?_) | intro _ | (fail_if_no_progress with_reducible refine Kept.upd_of hp ?_ ?_ ?_ ?_ ?_ ?_ ?_ ?_ ?_ ?_ ?_ ?_ ?_ ?_ ?_ ?_ ?_ rfl rfl <;> try first | exact Or.inr rfl | exact Or.inl (by decide)) | (simp only [id_eq]; assumption) | dsimp only | split

theorem Kept.cleanRelease (h : Kept p a s) (hp : Part.sub { prot := true, le := true } p = true := by first | decide | (refine Part.sub_of (by assumption) ?_; decide)) : Kept p a (State.cleanRelease s x1 x2) := by
  unfold State.cleanRelease
  repeat' first | with_reducible assumption | exact Part.sub_of hp (by decide) | with_reducible apply Kept.updTask | with_reducible apply Kept.each | with_reducible apply Kept.updObj | with_reducible apply Kept.clearCause | with_reducible apply Kept.foldl | with_reducible apply Kept.each | with_reducible refine Kept.ite (fun _ => ?_) (fun _ => ?_) | intro _ | (fail_if_no_progress with_reducible refine Kept.upd_of hp ?_ ?_ ?_ ?_ ?_ ?_ ?_ ?_ ?_ ?_ ?_ ?_ ?_ ?_ ?_ ?_ ?_ rfl rfl <;> try first | exact Or.inr rfl | exact Or.inl (by decide)) | (simp only [id_eq]; assumption) | dsimp only | split

theorem Kept.coalesceTimer (h : Kept p a s) (hp : Part.sub { intc := true } p = true := by first | decide | (refine Part.sub_of (by assumption) ?_; decide)) : Kept p a (State.coalesceTimer s x1) := by
  unfold State.coalesceTimer
  repeat' first | with_reducible assumption | exact Part.sub_of hp (by decide) | with_reducible apply Kept.updVec | with_reducible apply Kept.foldl | with_reducible apply Kept.each | with_reducible refine Kept.ite (fun _ => ?_) (fun _ => ?_) | intro _ | (fail_if_no_progress with_reducible refine Kept.upd_of hp ?_ ?_ ?_ ?_ ?_ ?_ ?_ ?_ ?_ ?_ ?_ ?_ ?_ ?_ ?_ ?_ ?_ rfl rfl <;> try first | exact Or.inr rfl | exact Or.inl (by decide)) | (simp only [id_eq]; assumption) | dsimp only | split

theorem Kept.commitWrite (h : Kept p a s) (hp : Part.sub { Part.alarms with le := true } p = true := by first | decide | (refine Part.sub_of (by assumption) ?_; decide)) : Kept p a (State.commitWrite s x1 x2 x3) := by
  unfold State.commitWrite
  repeat' first | with_reducible assumption | with_reducible apply Kept.record | exact Kept.record_rec | exact Part.sub_of hp (by decide) | with_reducible apply Kept.updTask | with_reducible apply Kept.irqEdge | with_reducible apply Kept.updGain | with_reducible apply Kept.winterSet | with_reducible apply Kept.foldl | with_reducible apply Kept.each | with_reducible refine Kept.ite (fun _ => ?_) (fun _ => ?_) | intro _ | (fail_if_no_progress with_reducible refine Kept.upd_of hp ?_ ?_ ?_ ?_ ?_ ?_ ?_ ?_ ?_ ?_ ?_ ?_ ?_ ?_ ?_ ?_ ?_ rfl rfl <;> try first | exact Or.inr rfl | exact Or.inl (by decide)) | (simp only [id_eq]; assumption) | dsimp only | split

theorem Kept.complSweep (h : Kept p a s) (hp : Part.sub Part.alarms p = true := by first | decide | (refine Part.sub_of (by assumption) ?_; decide)) : Kept p a (State.complSweep s x1 x2) := by
  unfold State.complSweep
  repeat' first | with_reducible assumption | exact Part.sub_of hp (by decide) | with_reducible apply Kept.each | with_reducible apply Kept.checkCompl | with_reducible apply Kept.foldl | with_reducible apply Kept.each | with_reducible refine Kept.ite (fun _ => ?_) (fun _ => ?_) | intro _ | (fail_if_no_progress with_reducible refine Kept.upd_of hp ?_ ?_ ?_ ?_ ?_ ?_ ?_ ?_ ?_ ?_ ?_ ?_ ?_ ?_ ?_ ?_ ?_ rfl rfl <;> try first | exact Or.inr rfl | exact Or.inl (by decide)) | (simp only [id_eq]; assumption) | dsimp only | split

theorem Kept.countRefuse (h : Kept p a s) (hp : Part.sub { hif := true } p = true := by first | decide | (refine Part.sub_of (by assumption) ?_; decide)) : Kept p a (State.countRefuse s x1 x2) := by
  unfold State.countRefuse
  repeat' first | with_reducible assumption | exact Part.sub_of hp (by decide) | with_reducible apply Kept.foldl | with_reducible apply Kept.each | with_reducible refine Kept.ite (fun _ => ?_) (fun _ => ?_) | intro _ | (fail_if_no_progress with_reducible refine Kept.upd_of hp ?_ ?_ ?_ ?_ ?_ ?_ ?_ ?_ ?_ ?_ ?_ ?_ ?_ ?_ ?_ ?_ ?_ rfl rfl <;> try first | exact Or.inr rfl | exact Or.inl (by decide)) | (simp only [id_eq]; assumption) | dsimp only | split

theorem Kept.cxTest (h : Kept p a s) (hp : Part.sub { cx := true } p = true := by first | decide | (refine Part.sub_of (by assumption) ?_; decide)) : Kept p a (State.cxTest s x1 x2) := by
  unfold State.cxTest
  repeat' first | with_reducible assumption | exact Part.sub_of hp (by decide) | with_reducible apply Kept.updInst | with_reducible apply Kept.foldl | with_reducible apply Kept.each | with_reducible refine Kept.ite (fun _ => ?_) (fun _ => ?_) | intro _ | (fail_if_no_progress with_reducible refine Kept.upd_of hp ?_ ?_ ?_ ?_ ?_ ?_ ?_ ?_ ?_ ?_ ?_ ?_ ?_ ?_ ?_ ?_ ?_ rfl rfl <;> try first | exact Or.inr rfl | exact Or.inl (by decide)) | (simp only [id_eq]; assumption) | dsimp only | split

theorem Kept.cxCycle (h : Kept p a s) (hp : Part.sub { cx := true } p = true := by first | decide | (refine Part.sub_of (by assumption) ?_; decide)) : Kept p a (State.cxCycle s x1 x2) := by
  unfold State.cxCycle
  repeat' first | with_reducible assumption | exact Part.sub_of hp (by decide) | with_reducible apply Kept.cxTest | with_reducible apply Kept.updInst | with_reducible apply Kept.foldl | with_reducible apply Kept.each | with_reducible refine Kept.ite (fun _ => ?_) (fun _ => ?_) | intro _ | (fail_if_no_progress with_reducible refine Kept.upd_of hp ?_ ?_ ?_ ?_ ?_ ?_ ?_ ?_ ?_ ?_ ?_ ?_ ?_ ?_ ?_ ?_ ?_ rfl rfl <;> try first | exact Or.inr rfl | exact Or.inl (by decide)) | (simp only [id_eq]; assumption) | dsimp only | split

theorem Kept.cxFreezeApply (h : Kept p a s) (hp : Part.sub { cx := true } p = true := by first | decide | (refine Part.sub_of (by assumption) ?_; decide)) : Kept p a (State.cxFreezeApply s x1) := by
  unfold State.cxFreezeApply
  repeat' first | with_reducible assumption | exact Part.sub_of hp (by decide) | with_reducible apply Kept.each | with_reducible apply Kept.updInst | with_reducible apply Kept.foldl | with_reducible apply Kept.each | with_reducible refine Kept.ite (fun _ => ?_) (fun _ => ?_) | intro _ | (fail_if_no_progress with_reducible refine Kept.upd_of hp ?_ ?_ ?_ ?_ ?_ ?_ ?_ ?_ ?_ ?_ ?_ ?_ ?_ ?_ ?_ ?_ ?_ rfl rfl <;> try first | exact Or.inr rfl | exact Or.inl (by decide)) | (simp only [id_eq]; assumption) | dsimp only | split

theorem Kept.cxFreezeBoundary (h : Kept p a s) (hp : Part.sub { hif := true, intc := true, recd := true, cx := true } p = true := by first | decide | (refine Part.sub_of (by assumption) ?_; decide)) : Kept p a (State.cxFreezeBoundary s) := by
  unfold State.cxFreezeBoundary
  repeat' first | with_reducible assumption | exact Part.sub_of hp (by decide) | with_reducible apply Kept.complete | with_reducible apply Kept.cxFreezeApply | with_reducible apply Kept.foldl | with_reducible apply Kept.each | with_reducible refine Kept.ite (fun _ => ?_) (fun _ => ?_) | intro _ | (fail_if_no_progress with_reducible refine Kept.upd_of hp ?_ ?_ ?_ ?_ ?_ ?_ ?_ ?_ ?_ ?_ ?_ ?_ ?_ ?_ ?_ ?_ ?_ rfl rfl <;> try first | exact Or.inr rfl | exact Or.inl (by decide)) | (simp only [id_eq]; assumption) | dsimp only | split

theorem Kept.cxZero (h : Kept p a s) (hp : Part.sub { cx := true } p = true := by first | decide | (refine Part.sub_of (by assumption) ?_; decide)) : Kept p a (State.cxZero s x1) := by
  unfold State.cxZero
  repeat' first | with_reducible assumption | exact Part.sub_of hp (by decide) | with_reducible apply Kept.updInst | with_reducible apply Kept.foldl | with_reducible apply Kept.each | with_reducible refine Kept.ite (fun _ => ?_) (fun _ => ?_) | intro _ | (fail_if_no_progress with_reducible refine Kept.upd_of hp ?_ ?_ ?_ ?_ ?_ ?_ ?_ ?_ ?_ ?_ ?_ ?_ ?_ ?_ ?_ ?_ ?_ rfl rfl <;> try first | exact Or.inr rfl | exact Or.inl (by decide)) | (simp only [id_eq]; assumption) | dsimp only | split

theorem Kept.cxResetBoundary (h : Kept p a s) (hp : Part.sub { hif := true, intc := true, recd := true, cx := true, gcl := true, jl := true } p = true := by first | decide | (refine Part.sub_of (by assumption) ?_; decide)) : Kept p a (State.cxResetBoundary s x1) := by
  unfold State.cxResetBoundary
  repeat' first | with_reducible assumption | exact Part.sub_of hp (by decide) | with_reducible apply Kept.complete | with_reducible apply Kept.capAll | with_reducible apply Kept.cxReport | with_reducible apply Kept.cxZero | with_reducible apply Kept.foldl | with_reducible apply Kept.each | with_reducible refine Kept.ite (fun _ => ?_) (fun _ => ?_) | intro _ | (fail_if_no_progress with_reducible refine Kept.upd_of hp ?_ ?_ ?_ ?_ ?_ ?_ ?_ ?_ ?_ ?_ ?_ ?_ ?_ ?_ ?_ ?_ ?_ rfl rfl <;> try first | exact Or.inr rfl | exact Or.inl (by decide)) | (simp only [id_eq]; assumption) | dsimp only | split

theorem Kept.cxRetune (h : Kept p a s) (hp : Part.sub { hif := true, intc := true, recd := true, cx := true, jl := true } p = true := by first | decide | (refine Part.sub_of (by assumption) ?_; decide)) : Kept p a (State.cxRetune s x1) := by
  unfold State.cxRetune
  repeat' first | with_reducible assumption | exact Part.sub_of hp (by decide) | with_reducible apply Kept.each | with_reducible apply Kept.cxReport | with_reducible apply Kept.cxZero | with_reducible apply Kept.seedDrop | with_reducible apply Kept.foldl | with_reducible apply Kept.each | with_reducible refine Kept.ite (fun _ => ?_) (fun _ => ?_) | intro _ | (fail_if_no_progress with_reducible refine Kept.upd_of hp ?_ ?_ ?_ ?_ ?_ ?_ ?_ ?_ ?_ ?_ ?_ ?_ ?_ ?_ ?_ ?_ ?_ rfl rfl <;> try first | exact Or.inr rfl | exact Or.inl (by decide)) | (simp only [id_eq]; assumption) | dsimp only | split

theorem Kept.cxSearchEnd (h : Kept p a s) (hp : Part.sub Part.alarms p = true := by first | decide | (refine Part.sub_of (by assumption) ?_; decide)) : Kept p a (State.cxSearchEnd s x1 x2 x3 x4) := by
  unfold State.cxSearchEnd
  repeat' first | with_reducible assumption | exact Part.sub_of hp (by decide) | with_reducible apply Kept.updInst | with_reducible apply Kept.raise | with_reducible apply Kept.foldl | with_reducible apply Kept.each | with_reducible refine Kept.ite (fun _ => ?_) (fun _ => ?_) | intro _ | (fail_if_no_progress with_reducible refine Kept.upd_of hp ?_ ?_ ?_ ?_ ?_ ?_ ?_ ?_ ?_ ?_ ?_ ?_ ?_ ?_ ?_ ?_ ?_ rfl rfl <;> try first | exact Or.inr rfl | exact Or.inl (by decide)) | (simp only [id_eq]; assumption) | dsimp only | split

theorem Kept.cxSeedFadeEnd (h : Kept p a s) (hp : Part.sub { hif := true, intc := true, recd := true, cx := true, gcl := true, jl := true } p = true := by first | decide | (refine Part.sub_of (by assumption) ?_; decide)) : Kept p a (State.cxSeedFadeEnd s x1) := by
  unfold State.cxSeedFadeEnd
  repeat' first | with_reducible assumption | exact Part.sub_of hp (by decide) | with_reducible apply Kept.capAll | with_reducible apply Kept.cxReport | with_reducible apply Kept.seedInstall | with_reducible apply Kept.foldl | with_reducible apply Kept.each | with_reducible refine Kept.ite (fun _ => ?_) (fun _ => ?_) | intro _ | (fail_if_no_progress with_reducible refine Kept.upd_of hp ?_ ?_ ?_ ?_ ?_ ?_ ?_ ?_ ?_ ?_ ?_ ?_ ?_ ?_ ?_ ?_ ?_ rfl rfl <;> try first | exact Or.inr rfl | exact Or.inl (by decide)) | (simp only [id_eq]; assumption) | dsimp only | split

theorem Kept.seedFade (h : Kept p a s) (hp : Part.sub { hif := true, intc := true, recd := true, cx := true } p = true := by first | decide | (refine Part.sub_of (by assumption) ?_; decide)) : Kept p a (State.seedFade s x1 x2) := by
  unfold State.seedFade
  repeat' first | with_reducible assumption | exact Part.sub_of hp (by decide) | with_reducible apply Kept.seedDrop | with_reducible apply Kept.updPend | with_reducible apply Kept.updInst | with_reducible apply Kept.foldl | with_reducible apply Kept.each | with_reducible refine Kept.ite (fun _ => ?_) (fun _ => ?_) | intro _ | (fail_if_no_progress with_reducible refine Kept.upd_of hp ?_ ?_ ?_ ?_ ?_ ?_ ?_ ?_ ?_ ?_ ?_ ?_ ?_ ?_ ?_ ?_ ?_ rfl rfl <;> try first | exact Or.inr rfl | exact Or.inl (by decide)) | (simp only [id_eq]; assumption) | dsimp only | split

theorem Kept.cxSeedLoaded (h : Kept p a s) (hp : Part.sub { hif := true, intc := true, recd := true, cx := true } p = true := by first | decide | (refine Part.sub_of (by assumption) ?_; decide)) : Kept p a (State.cxSeedLoaded s x1) := by
  unfold State.cxSeedLoaded
  repeat' first | with_reducible assumption | exact Part.sub_of hp (by decide) | with_reducible apply Kept.updInst | with_reducible apply Kept.seedFade | with_reducible apply Kept.foldl | with_reducible apply Kept.each | with_reducible refine Kept.ite (fun _ => ?_) (fun _ => ?_) | intro _ | (fail_if_no_progress with_reducible refine Kept.upd_of hp ?_ ?_ ?_ ?_ ?_ ?_ ?_ ?_ ?_ ?_ ?_ ?_ ?_ ?_ ?_ ?_ ?_ rfl rfl <;> try first | exact Or.inr rfl | exact Or.inl (by decide)) | (simp only [id_eq]; assumption) | dsimp only | split

theorem Kept.cxSeedScreenEnd (h : Kept p a s) (hp : Part.sub Part.alarms p = true := by first | decide | (refine Part.sub_of (by assumption) ?_; decide)) : Kept p a (State.cxSeedScreenEnd s x1 x2 x3 x4) := by
  unfold State.cxSeedScreenEnd
  repeat' first | with_reducible assumption | exact Part.sub_of hp (by decide) | with_reducible apply Kept.seedFade | with_reducible apply Kept.raise | with_reducible apply Kept.seedDrop | with_reducible apply Kept.updInst | with_reducible apply Kept.foldl | with_reducible apply Kept.each | with_reducible refine Kept.ite (fun _ => ?_) (fun _ => ?_) | intro _ | (fail_if_no_progress with_reducible refine Kept.upd_of hp ?_ ?_ ?_ ?_ ?_ ?_ ?_ ?_ ?_ ?_ ?_ ?_ ?_ ?_ ?_ ?_ ?_ rfl rfl <;> try first | exact Or.inr rfl | exact Or.inl (by decide)) | (simp only [id_eq]; assumption) | dsimp only | split

theorem Kept.cxSeedSync (h : Kept p a s) (hp : Part.sub { cx := true } p = true := by first | decide | (refine Part.sub_of (by assumption) ?_; decide)) : Kept p a (State.cxSeedSync s x1) := by
  unfold State.cxSeedSync
  repeat' first | with_reducible assumption | exact Part.sub_of hp (by decide) | with_reducible apply Kept.updInst | with_reducible apply Kept.foldl | with_reducible apply Kept.each | with_reducible refine Kept.ite (fun _ => ?_) (fun _ => ?_) | intro _ | (fail_if_no_progress with_reducible refine Kept.upd_of hp ?_ ?_ ?_ ?_ ?_ ?_ ?_ ?_ ?_ ?_ ?_ ?_ ?_ ?_ ?_ ?_ ?_ rfl rfl <;> try first | exact Or.inr rfl | exact Or.inl (by decide)) | (simp only [id_eq]; assumption) | dsimp only | split

theorem Kept.plausible (h : Kept p a s) (hp : Part.sub Part.alarms p = true := by first | decide | (refine Part.sub_of (by assumption) ?_; decide)) : Kept p a (State.plausible s x1 x2) := by
  unfold State.plausible
  repeat' first | with_reducible assumption | exact Part.sub_of hp (by decide) | with_reducible apply Kept.raise | with_reducible apply Kept.updInst | with_reducible apply Kept.foldl | with_reducible apply Kept.each | with_reducible refine Kept.ite (fun _ => ?_) (fun _ => ?_) | intro _ | (fail_if_no_progress with_reducible refine Kept.upd_of hp ?_ ?_ ?_ ?_ ?_ ?_ ?_ ?_ ?_ ?_ ?_ ?_ ?_ ?_ ?_ ?_ ?_ rfl rfl <;> try first | exact Or.inr rfl | exact Or.inl (by decide)) | (simp only [id_eq]; assumption) | dsimp only | split

theorem Kept.publish (h : Kept p a s) (hp : Part.sub { Part.alarms with jl := true } p = true := by first | decide | (refine Part.sub_of (by assumption) ?_; decide)) : Kept p a (State.publish s x1 x2) := by
  unfold State.publish
  repeat' first | with_reducible assumption | exact Part.sub_of hp (by decide) | with_reducible apply Kept.plausible | with_reducible apply Kept.updInst | with_reducible apply Kept.raise | with_reducible apply Kept.capAll | with_reducible apply Kept.cxReport | with_reducible apply Kept.foldl | with_reducible apply Kept.each | with_reducible refine Kept.ite (fun _ => ?_) (fun _ => ?_) | intro _ | (fail_if_no_progress with_reducible refine Kept.upd_of hp ?_ ?_ ?_ ?_ ?_ ?_ ?_ ?_ ?_ ?_ ?_ ?_ ?_ ?_ ?_ ?_ ?_ rfl rfl <;> try first | exact Or.inr rfl | exact Or.inl (by decide)) | (simp only [id_eq]; assumption) | dsimp only | split

theorem Kept.cxWindowClose (h : Kept p a s) (hp : Part.sub { Part.alarms with jl := true } p = true := by first | decide | (refine Part.sub_of (by assumption) ?_; decide)) : Kept p a (State.cxWindowClose s x1 x2) := by
  unfold State.cxWindowClose
  repeat' first | with_reducible assumption | exact Part.sub_of hp (by decide) | with_reducible apply Kept.updInst | with_reducible apply Kept.publish | with_reducible apply Kept.foldl | with_reducible apply Kept.each | with_reducible refine Kept.ite (fun _ => ?_) (fun _ => ?_) | intro _ | (fail_if_no_progress with_reducible refine Kept.upd_of hp ?_ ?_ ?_ ?_ ?_ ?_ ?_ ?_ ?_ ?_ ?_ ?_ ?_ ?_ ?_ ?_ ?_ rfl rfl <;> try first | exact Or.inr rfl | exact Or.inl (by decide)) | (simp only [id_eq]; assumption) | dsimp only | split

theorem Kept.dcbRange (h : Kept p a s) (hp : Part.sub { Part.alarms with rfe := true } p = true := by first | decide | (refine Part.sub_of (by assumption) ?_; decide)) : Kept p a (State.dcbRange s x1 x2 x3) := by
  unfold State.dcbRange
  repeat' first | with_reducible assumption | exact Part.sub_of hp (by decide) | with_reducible apply Kept.updDcb | with_reducible apply Kept.raise | with_reducible apply Kept.foldl | with_reducible apply Kept.each | with_reducible refine Kept.ite (fun _ => ?_) (fun _ => ?_) | intro _ | (fail_if_no_progress with_reducible refine Kept.upd_of hp ?_ ?_ ?_ ?_ ?_ ?_ ?_ ?_ ?_ ?_ ?_ ?_ ?_ ?_ ?_ ?_ ?_ rfl rfl <;> try first | exact Or.inr rfl | exact Or.inl (by decide)) | (simp only [id_eq]; assumption) | dsimp only | split

theorem Kept.deadlineMiss (h : Kept p a s) (hp : Part.sub { Part.alarms with tim := true } p = true := by first | decide | (refine Part.sub_of (by assumption) ?_; decide)) : Kept p a (State.deadlineMiss s x1) := by
  unfold State.deadlineMiss
  repeat' first | with_reducible assumption | exact Part.sub_of hp (by decide) | with_reducible apply Kept.updTile | with_reducible apply Kept.raise | with_reducible apply Kept.foldl | with_reducible apply Kept.each | with_reducible refine Kept.ite (fun _ => ?_) (fun _ => ?_) | intro _ | (fail_if_no_progress with_reducible refine Kept.upd_of hp ?_ ?_ ?_ ?_ ?_ ?_ ?_ ?_ ?_ ?_ ?_ ?_ ?_ ?_ ?_ ?_ ?_ rfl rfl <;> try first | exact Or.inr rfl | exact Or.inl (by decide)) | (simp only [id_eq]; assumption) | dsimp only | split

theorem Kept.takeLocal {f : State → State} (hf : ∀ b, Kept p a b → Kept p a (f b)) (h : Kept p a s) (hp : Part.sub { jl := true } p = true := by first | decide | (refine Part.sub_of (by assumption) ?_; decide))  : Kept p a (s.takeLocal x1 x2 f) := by
  unfold State.takeLocal
  repeat' first | with_reducible assumption | exact hf | with_reducible apply Kept.linkTake | with_reducible apply Kept.once | with_reducible apply Kept.discardMsg | with_reducible apply hf | intro _ | dsimp only | split

theorem Kept.delayReq (h : Kept p a s) (hp : Part.sub { jl := true } p = true := by first | decide | (refine Part.sub_of (by assumption) ?_; decide)) : Kept p a (State.delayReq s x1 x2 x3 x4) := by
  unfold State.delayReq
  repeat' first | with_reducible assumption | exact Part.sub_of hp (by decide) | with_reducible apply Kept.takeLocal | with_reducible apply Kept.portSend | with_reducible apply Kept.updPort | with_reducible apply Kept.foldl | with_reducible apply Kept.each | with_reducible refine Kept.ite (fun _ => ?_) (fun _ => ?_) | intro _ | (fail_if_no_progress with_reducible refine Kept.upd_of hp ?_ ?_ ?_ ?_ ?_ ?_ ?_ ?_ ?_ ?_ ?_ ?_ ?_ ?_ ?_ ?_ ?_ rfl rfl <;> try first | exact Or.inr rfl | exact Or.inl (by decide)) | (simp only [id_eq]; assumption) | dsimp only | split

theorem Kept.delayResp (h : Kept p a s) (hp : Part.sub { jl := true } p = true := by first | decide | (refine Part.sub_of (by assumption) ?_; decide)) : Kept p a (State.delayResp s x1 x2 x3 x4 x5) := by
  unfold State.delayResp
  repeat' first | with_reducible assumption | exact Part.sub_of hp (by decide) | with_reducible apply Kept.takeLocal | with_reducible apply Kept.updPort | with_reducible apply Kept.foldl | with_reducible apply Kept.each | with_reducible refine Kept.ite (fun _ => ?_) (fun _ => ?_) | intro _ | (fail_if_no_progress with_reducible refine Kept.upd_of hp ?_ ?_ ?_ ?_ ?_ ?_ ?_ ?_ ?_ ?_ ?_ ?_ ?_ ?_ ?_ ?_ ?_ rfl rfl <;> try first | exact Or.inr rfl | exact Or.inl (by decide)) | (simp only [id_eq]; assumption) | dsimp only | split

theorem Kept.devStep (h : Kept p a s) (hp : Part.sub { rfe := true } p = true := by first | decide | (refine Part.sub_of (by assumption) ?_; decide)) : Kept p a (State.devStep s x1 x2) := by
  unfold State.devStep
  repeat' first | with_reducible assumption | exact Part.sub_of hp (by decide) | with_reducible apply Kept.queueFrame | with_reducible apply Kept.updTx | with_reducible apply Kept.foldl | with_reducible apply Kept.each | with_reducible refine Kept.ite (fun _ => ?_) (fun _ => ?_) | intro _ | (fail_if_no_progress with_reducible refine Kept.upd_of hp ?_ ?_ ?_ ?_ ?_ ?_ ?_ ?_ ?_ ?_ ?_ ?_ ?_ ?_ ?_ ?_ ?_ rfl rfl <;> try first | exact Or.inr rfl | exact Or.inl (by decide)) | (simp only [id_eq]; assumption) | dsimp only | split

theorem Kept.updGroup (h : Kept p a s) (hp : Part.sub { prot := true } p = true := by first | decide | (refine Part.sub_of (by assumption) ?_; decide)) : Kept p a (State.updGroup s x1 x2) := by
  unfold State.updGroup
  repeat' first | with_reducible assumption | exact Part.sub_of hp (by decide) | with_reducible apply Kept.foldl | with_reducible apply Kept.each | with_reducible refine Kept.ite (fun _ => ?_) (fun _ => ?_) | intro _ | (fail_if_no_progress with_reducible refine Kept.upd_of hp ?_ ?_ ?_ ?_ ?_ ?_ ?_ ?_ ?_ ?_ ?_ ?_ ?_ ?_ ?_ ?_ ?_ rfl rfl <;> try first | exact Or.inr rfl | exact Or.inl (by decide)) | (simp only [id_eq]; assumption) | dsimp only | split

theorem Kept.donorLossEval (h : Kept p a s) (hp : Part.sub Part.alarms p = true := by first | decide | (refine Part.sub_of (by assumption) ?_; decide)) : Kept p a (State.donorLossEval s x1 x2) := by
  unfold State.donorLossEval
  repeat' first | with_reducible assumption | exact Part.sub_of hp (by decide) | with_reducible apply Kept.updGroup | with_reducible apply Kept.each | with_reducible apply Kept.clearCause | with_reducible apply Kept.winterSet | with_reducible apply Kept.raise | with_reducible apply Kept.foldl | with_reducible apply Kept.each | with_reducible refine Kept.ite (fun _ => ?_) (fun _ => ?_) | intro _ | (fail_if_no_progress with_reducible refine Kept.upd_of hp ?_ ?_ ?_ ?_ ?_ ?_ ?_ ?_ ?_ ?_ ?_ ?_ ?_ ?_ ?_ ?_ ?_ rfl rfl <;> try first | exact Or.inr rfl | exact Or.inl (by decide)) | (simp only [id_eq]; assumption) | dsimp only | split

theorem Kept.eSetReg (h : Kept p a s) (hp : Part.sub { le := true } p = true := by first | decide | (refine Part.sub_of (by assumption) ?_; decide)) : Kept p a (State.eSetReg s x1 x2 x3) := by
  unfold State.eSetReg
  repeat' first | with_reducible assumption | exact Part.sub_of hp (by decide) | with_reducible apply Kept.updEng | with_reducible apply Kept.foldl | with_reducible apply Kept.each | with_reducible refine Kept.ite (fun _ => ?_) (fun _ => ?_) | intro _ | (fail_if_no_progress with_reducible refine Kept.upd_of hp ?_ ?_ ?_ ?_ ?_ ?_ ?_ ?_ ?_ ?_ ?_ ?_ ?_ ?_ ?_ ?_ ?_ rfl rfl <;> try first | exact Or.inr rfl | exact Or.inl (by decide)) | (simp only [id_eq]; assumption) | dsimp only | split

theorem Kept.eSetVec (h : Kept p a s) (hp : Part.sub { le := true } p = true := by first | decide | (refine Part.sub_of (by assumption) ?_; decide)) : Kept p a (State.eSetVec s x1 x2 x3) := by
  unfold State.eSetVec
  repeat' first | with_reducible assumption | exact Part.sub_of hp (by decide) | with_reducible apply Kept.updEng | with_reducible apply Kept.foldl | with_reducible apply Kept.each | with_reducible refine Kept.ite (fun _ => ?_) (fun _ => ?_) | intro _ | (fail_if_no_progress with_reducible refine Kept.upd_of hp ?_ ?_ ?_ ?_ ?_ ?_ ?_ ?_ ?_ ?_ ?_ ?_ ?_ ?_ ?_ ?_ ?_ rfl rfl <;> try first | exact Or.inr rfl | exact Or.inl (by decide)) | (simp only [id_eq]; assumption) | dsimp only | split

theorem Kept.gainMove (h : Kept p a s) (hp : Part.sub { gcl := true } p = true := by first | decide | (refine Part.sub_of (by assumption) ?_; decide)) : Kept p a (State.gainMove s x1) := by
  unfold State.gainMove
  repeat' first | with_reducible assumption | exact Part.sub_of hp (by decide) | with_reducible apply Kept.updGain | with_reducible apply Kept.foldl | with_reducible apply Kept.each | with_reducible refine Kept.ite (fun _ => ?_) (fun _ => ?_) | intro _ | (fail_if_no_progress with_reducible refine Kept.upd_of hp ?_ ?_ ?_ ?_ ?_ ?_ ?_ ?_ ?_ ?_ ?_ ?_ ?_ ?_ ?_ ?_ ?_ rfl rfl <;> try first | exact Or.inr rfl | exact Or.inl (by decide)) | (simp only [id_eq]; assumption) | dsimp only | split

theorem Kept.spMove (h : Kept p a s) (hp : Part.sub { hif := true, intc := true, recd := true, gcl := true } p = true := by first | decide | (refine Part.sub_of (by assumption) ?_; decide)) : Kept p a (State.spMove s x1) := by
  unfold State.spMove
  repeat' first | with_reducible assumption | exact Part.sub_of hp (by decide) | with_reducible apply Kept.setpointCheck | with_reducible apply Kept.updGain | with_reducible apply Kept.foldl | with_reducible apply Kept.each | with_reducible refine Kept.ite (fun _ => ?_) (fun _ => ?_) | intro _ | (fail_if_no_progress with_reducible refine Kept.upd_of hp ?_ ?_ ?_ ?_ ?_ ?_ ?_ ?_ ?_ ?_ ?_ ?_ ?_ ?_ ?_ ?_ ?_ rfl rfl <;> try first | exact Or.inr rfl | exact Or.inl (by decide)) | (simp only [id_eq]; assumption) | dsimp only | split

theorem Kept.earlyMove (h : Kept p a s) (hp : Part.sub { hif := true, intc := true, recd := true, gcl := true } p = true := by first | decide | (refine Part.sub_of (by assumption) ?_; decide)) : Kept p a (State.earlyMove s x1) := by
  unfold State.earlyMove
  repeat' first | with_reducible assumption | exact Part.sub_of hp (by decide) | with_reducible apply Kept.gainSetCheck | with_reducible apply Kept.gainMove | with_reducible apply Kept.spMove | with_reducible apply Kept.foldl | with_reducible apply Kept.each | with_reducible refine Kept.ite (fun _ => ?_) (fun _ => ?_) | intro _ | (fail_if_no_progress with_reducible refine Kept.upd_of hp ?_ ?_ ?_ ?_ ?_ ?_ ?_ ?_ ?_ ?_ ?_ ?_ ?_ ?_ ?_ ?_ ?_ rfl rfl <;> try first | exact Or.inr rfl | exact Or.inl (by decide)) | (simp only [id_eq]; assumption) | dsimp only | split

theorem Kept.endReleases (h : Kept p a s) (hp : Part.sub { hif := true, intc := true, recd := true, prot := true } p = true := by first | decide | (refine Part.sub_of (by assumption) ?_; decide)) : Kept p a (State.endReleases s x1 x2) := by
  unfold State.endReleases
  repeat' first | with_reducible assumption | exact Part.sub_of hp (by decide) | with_reducible apply Kept.complete | with_reducible apply Kept.updObj | with_reducible apply Kept.foldl | with_reducible apply Kept.each | with_reducible refine Kept.ite (fun _ => ?_) (fun _ => ?_) | intro _ | (fail_if_no_progress with_reducible refine Kept.upd_of hp ?_ ?_ ?_ ?_ ?_ ?_ ?_ ?_ ?_ ?_ ?_ ?_ ?_ ?_ ?_ ?_ ?_ rfl rfl <;> try first | exact Or.inr rfl | exact Or.inl (by decide)) | (simp only [id_eq]; assumption) | dsimp only | split

theorem Kept.eventCopy (h : Kept p a s) (hp : Part.sub Part.alarms p = true := by first | decide | (refine Part.sub_of (by assumption) ?_; decide)) : Kept p a (State.eventCopy s) := by
  unfold State.eventCopy
  repeat' first | with_reducible assumption | exact Part.sub_of hp (by decide) | with_reducible apply Kept.raise | with_reducible apply Kept.hostWrite | with_reducible apply Kept.irqEdge | with_reducible apply Kept.foldl | with_reducible apply Kept.each | with_reducible refine Kept.ite (fun _ => ?_) (fun _ => ?_) | intro _ | (fail_if_no_progress with_reducible refine Kept.upd_of hp ?_ ?_ ?_ ?_ ?_ ?_ ?_ ?_ ?_ ?_ ?_ ?_ ?_ ?_ ?_ ?_ ?_ rfl rfl <;> try first | exact Or.inr rfl | exact Or.inl (by decide)) | (simp only [id_eq]; assumption) | dsimp only | split

theorem Kept.fadeSync (h : Kept p a s) (hp : Part.sub { slots := true } p = true := by first | decide | (refine Part.sub_of (by assumption) ?_; decide)) : Kept p a (State.fadeSync s x1) := by
  unfold State.fadeSync
  repeat' first | with_reducible assumption | exact Part.sub_of hp (by decide) | with_reducible apply Kept.updSlot | with_reducible apply Kept.foldl | with_reducible apply Kept.each | with_reducible refine Kept.ite (fun _ => ?_) (fun _ => ?_) | intro _ | (fail_if_no_progress with_reducible refine Kept.upd_of hp ?_ ?_ ?_ ?_ ?_ ?_ ?_ ?_ ?_ ?_ ?_ ?_ ?_ ?_ ?_ ?_ ?_ rfl rfl <;> try first | exact Or.inr rfl | exact Or.inl (by decide)) | (simp only [id_eq]; assumption) | dsimp only | split

theorem Kept.refuse (h : Kept p a s) (hp : Part.sub { hif := true, intc := true, recd := true } p = true := by first | decide | (refine Part.sub_of (by assumption) ?_; decide)) : Kept p a (State.refuse s x1 x2 x3 x4 x5 x6) := by
  unfold State.refuse
  repeat' first | with_reducible assumption | exact Part.sub_of hp (by decide) | with_reducible apply Kept.answerNow | with_reducible apply Kept.countRefuse | with_reducible apply Kept.pass | with_reducible apply Kept.foldl | with_reducible apply Kept.each | with_reducible refine Kept.ite (fun _ => ?_) (fun _ => ?_) | intro _ | (fail_if_no_progress with_reducible refine Kept.upd_of hp ?_ ?_ ?_ ?_ ?_ ?_ ?_ ?_ ?_ ?_ ?_ ?_ ?_ ?_ ?_ ?_ ?_ rfl rfl <;> try first | exact Or.inr rfl | exact Or.inl (by decide)) | (simp only [id_eq]; assumption) | dsimp only | split

theorem Kept.fenceAccept (h : Kept p a s) (hp : Part.sub { Part.alarms with rfe := true, luts := true, le := true, jl := true, freeCnt := true } p = true := by first | decide | (refine Part.sub_of (by assumption) ?_; decide)) : Kept p a (State.fenceAccept s x1) := by
  unfold State.fenceAccept
  repeat' first | with_reducible assumption | exact Part.sub_of hp (by decide) | with_reducible apply Kept.updRing | with_reducible apply Kept.refuse | with_reducible apply Kept.accept | with_reducible apply Kept.foldl | with_reducible apply Kept.each | with_reducible refine Kept.ite (fun _ => ?_) (fun _ => ?_) | intro _ | (fail_if_no_progress with_reducible refine Kept.upd_of hp ?_ ?_ ?_ ?_ ?_ ?_ ?_ ?_ ?_ ?_ ?_ ?_ ?_ ?_ ?_ ?_ ?_ rfl rfl <;> try first | exact Or.inr rfl | exact Or.inl (by decide)) | (simp only [id_eq]; assumption) | dsimp only | split

theorem Kept.runDesc (h : Kept p a s) (hp : Part.sub { Part.alarms with rfe := true, luts := true, le := true, jl := true, freeCnt := true } p = true := by first | decide | (refine Part.sub_of (by assumption) ?_; decide)) : Kept p a (State.runDesc s x1 x2) := by
  unfold State.runDesc
  repeat' first | with_reducible assumption | exact Part.sub_of hp (by decide) | with_reducible apply Kept.refuse | with_reducible apply Kept.receive | with_reducible apply Kept.foldl | with_reducible apply Kept.each | with_reducible refine Kept.ite (fun _ => ?_) (fun _ => ?_) | intro _ | (fail_if_no_progress with_reducible refine Kept.upd_of hp ?_ ?_ ?_ ?_ ?_ ?_ ?_ ?_ ?_ ?_ ?_ ?_ ?_ ?_ ?_ ?_ ?_ rfl rfl <;> try first | exact Or.inr rfl | exact Or.inl (by decide)) | (simp only [id_eq]; assumption) | dsimp only | split

theorem Kept.takeBytes (h : Kept p a s) (hp : Part.sub { Part.alarms with rfe := true, luts := true, le := true, jl := true, freeCnt := true } p = true := by first | decide | (refine Part.sub_of (by assumption) ?_; decide)) : Kept p a (State.takeBytes s x1 x2 x3) := by
  unfold State.takeBytes
  repeat' first | with_reducible assumption | exact Part.sub_of hp (by decide) | with_reducible apply Kept.refuse | with_reducible apply Kept.runDesc | with_reducible apply Kept.foldl | with_reducible apply Kept.each | with_reducible refine Kept.ite (fun _ => ?_) (fun _ => ?_) | intro _ | (fail_if_no_progress with_reducible refine Kept.upd_of hp ?_ ?_ ?_ ?_ ?_ ?_ ?_ ?_ ?_ ?_ ?_ ?_ ?_ ?_ ?_ ?_ ?_ rfl rfl <;> try first | exact Or.inr rfl | exact Or.inl (by decide)) | (simp only [id_eq]; assumption) | dsimp only | split

theorem Kept.served (h : Kept p a s) (hp : Part.sub { hif := true } p = true := by first | decide | (refine Part.sub_of (by assumption) ?_; decide)) : Kept p a (State.served s x1) := by
  unfold State.served
  repeat' first | with_reducible assumption | exact Part.sub_of hp (by decide) | with_reducible apply Kept.foldl | with_reducible apply Kept.each | with_reducible refine Kept.ite (fun _ => ?_) (fun _ => ?_) | intro _ | (fail_if_no_progress with_reducible refine Kept.upd_of hp ?_ ?_ ?_ ?_ ?_ ?_ ?_ ?_ ?_ ?_ ?_ ?_ ?_ ?_ ?_ ?_ ?_ rfl rfl <;> try first | exact Or.inr rfl | exact Or.inl (by decide)) | (simp only [id_eq]; assumption) | dsimp only | split

theorem Kept.fetch (h : Kept p a s) (hp : Part.sub { Part.alarms with rfe := true, luts := true, le := true, jl := true, freeCnt := true } p = true := by first | decide | (refine Part.sub_of (by assumption) ?_; decide)) : Kept p a (State.fetch s x1 x2) := by
  unfold State.fetch
  repeat' first | with_reducible assumption | exact Part.sub_of hp (by decide) | with_reducible apply Kept.takeBytes | with_reducible apply Kept.served | with_reducible apply Kept.updRing | with_reducible apply Kept.foldl | with_reducible apply Kept.each | with_reducible refine Kept.ite (fun _ => ?_) (fun _ => ?_) | intro _ | (fail_if_no_progress with_reducible refine Kept.upd_of hp ?_ ?_ ?_ ?_ ?_ ?_ ?_ ?_ ?_ ?_ ?_ ?_ ?_ ?_ ?_ ?_ ?_ rfl rfl <;> try first | exact Or.inr rfl | exact Or.inl (by decide)) | (simp only [id_eq]; assumption) | dsimp only | split

theorem Kept.fetchError (h : Kept p a s) (hp : Part.sub Part.alarms p = true := by first | decide | (refine Part.sub_of (by assumption) ?_; decide)) : Kept p a (State.fetchError s x1 x2) := by
  unfold State.fetchError
  repeat' first | with_reducible assumption | exact Part.sub_of hp (by decide) | with_reducible apply Kept.answerNow | with_reducible apply Kept.raise | with_reducible apply Kept.stopRing | with_reducible apply Kept.foldl | with_reducible apply Kept.each | with_reducible refine Kept.ite (fun _ => ?_) (fun _ => ?_) | intro _ | (fail_if_no_progress with_reducible refine Kept.upd_of hp ?_ ?_ ?_ ?_ ?_ ?_ ?_ ?_ ?_ ?_ ?_ ?_ ?_ ?_ ?_ ?_ ?_ rfl rfl <;> try first | exact Or.inr rfl | exact Or.inl (by decide)) | (simp only [id_eq]; assumption) | dsimp only | split

theorem Kept.fetchRetry (h : Kept p a s) (hp : Part.sub { Part.alarms with rfe := true, luts := true, le := true, jl := true, freeCnt := true } p = true := by first | decide | (refine Part.sub_of (by assumption) ?_; decide)) : Kept p a (State.fetchRetry s x1 x2 x3) := by
  unfold State.fetchRetry
  repeat' first | with_reducible assumption | exact Part.sub_of hp (by decide) | with_reducible apply Kept.updRing | with_reducible apply Kept.takeBytes | with_reducible apply Kept.fetchError | with_reducible apply Kept.foldl | with_reducible apply Kept.each | with_reducible refine Kept.ite (fun _ => ?_) (fun _ => ?_) | intro _ | (fail_if_no_progress with_reducible refine Kept.upd_of hp ?_ ?_ ?_ ?_ ?_ ?_ ?_ ?_ ?_ ?_ ?_ ?_ ?_ ?_ ?_ ?_ ?_ rfl rfl <;> try first | exact Or.inr rfl | exact Or.inl (by decide)) | (simp only [id_eq]; assumption) | dsimp only | split

theorem Kept.summary (h : Kept p a s) (hp : Part.sub { recd := true } p = true := by first | decide | (refine Part.sub_of (by assumption) ?_; decide))  : Kept p a (s.summary x1) := by
  unfold State.summary
  dsimp only
  split
  · exact h
  · split
    · exact Kept.updBucket (Kept.bufferEnter h)
    · exact Kept.bufferEnter h

theorem Kept.summaries (h : Kept p a s) (hp : Part.sub { recd := true } p = true := by first | decide | (refine Part.sub_of (by assumption) ?_; decide)) : Kept p a (State.summaries s) := by
  unfold State.summaries
  repeat' first | with_reducible assumption | exact Part.sub_of hp (by decide) | with_reducible apply Kept.each | with_reducible apply Kept.summary | with_reducible apply Kept.foldl | with_reducible apply Kept.each | with_reducible refine Kept.ite (fun _ => ?_) (fun _ => ?_) | intro _ | (fail_if_no_progress with_reducible refine Kept.upd_of hp ?_ ?_ ?_ ?_ ?_ ?_ ?_ ?_ ?_ ?_ ?_ ?_ ?_ ?_ ?_ ?_ ?_ rfl rfl <;> try first | exact Or.inr rfl | exact Or.inl (by decide)) | (simp only [id_eq]; assumption) | dsimp only | split

theorem Kept.flushBegin (h : Kept p a s) (hp : Part.sub { recd := true } p = true := by first | decide | (refine Part.sub_of (by assumption) ?_; decide)) : Kept p a (State.flushBegin s) := by
  unfold State.flushBegin
  repeat' first | with_reducible assumption | exact Part.sub_of hp (by decide) | with_reducible apply Kept.summaries | with_reducible apply Kept.foldl | with_reducible apply Kept.each | with_reducible refine Kept.ite (fun _ => ?_) (fun _ => ?_) | intro _ | (fail_if_no_progress with_reducible refine Kept.upd_of hp ?_ ?_ ?_ ?_ ?_ ?_ ?_ ?_ ?_ ?_ ?_ ?_ ?_ ?_ ?_ ?_ ?_ rfl rfl <;> try first | exact Or.inr rfl | exact Or.inl (by decide)) | (simp only [id_eq]; assumption) | dsimp only | split

theorem Kept.storeFail (h : Kept p a s) (hp : Part.sub Part.alarms p = true := by first | decide | (refine Part.sub_of (by assumption) ?_; decide)) : Kept p a (State.storeFail s x1) := by
  unfold State.storeFail
  repeat' first | with_reducible assumption | exact Part.sub_of hp (by decide) | with_reducible apply Kept.raise | with_reducible apply Kept.foldl | with_reducible apply Kept.each | with_reducible refine Kept.ite (fun _ => ?_) (fun _ => ?_) | intro _ | (fail_if_no_progress with_reducible refine Kept.upd_of hp ?_ ?_ ?_ ?_ ?_ ?_ ?_ ?_ ?_ ?_ ?_ ?_ ?_ ?_ ?_ ?_ ?_ rfl rfl <;> try first | exact Or.inr rfl | exact Or.inl (by decide)) | (simp only [id_eq]; assumption) | dsimp only | split

theorem Kept.flushEnd (h : Kept p a s) (hp : Part.sub Part.alarms p = true := by first | decide | (refine Part.sub_of (by assumption) ?_; decide)) : Kept p a (State.flushEnd s x1) := by
  unfold State.flushEnd
  repeat' first | with_reducible assumption | exact Part.sub_of hp (by decide) | with_reducible apply Kept.each | with_reducible apply Kept.storeFail | with_reducible apply Kept.raise | with_reducible apply Kept.recFlushCheck | with_reducible apply Kept.foldl | with_reducible apply Kept.each | with_reducible refine Kept.ite (fun _ => ?_) (fun _ => ?_) | intro _ | (fail_if_no_progress with_reducible refine Kept.upd_of hp ?_ ?_ ?_ ?_ ?_ ?_ ?_ ?_ ?_ ?_ ?_ ?_ ?_ ?_ ?_ ?_ ?_ rfl rfl <;> try first | exact Or.inr rfl | exact Or.inl (by decide)) | (simp only [id_eq]; assumption) | dsimp only | split

theorem Kept.flushStart (h : Kept p a s) (hp : Part.sub { recd := true } p = true := by first | decide | (refine Part.sub_of (by assumption) ?_; decide)) : Kept p a (State.flushStart s) := by
  unfold State.flushStart
  repeat' first | with_reducible assumption | exact Part.sub_of hp (by decide) | with_reducible apply Kept.flushBegin | with_reducible apply Kept.foldl | with_reducible apply Kept.each | with_reducible refine Kept.ite (fun _ => ?_) (fun _ => ?_) | intro _ | (fail_if_no_progress with_reducible refine Kept.upd_of hp ?_ ?_ ?_ ?_ ?_ ?_ ?_ ?_ ?_ ?_ ?_ ?_ ?_ ?_ ?_ ?_ ?_ rfl rfl <;> try first | exact Or.inr rfl | exact Or.inl (by decide)) | (simp only [id_eq]; assumption) | dsimp only | split

theorem Kept.frameAbsent (h : Kept p a s) (hp : Part.sub { Part.alarms with tim := true } p = true := by first | decide | (refine Part.sub_of (by assumption) ?_; decide)) : Kept p a (State.frameAbsent s) := by
  unfold State.frameAbsent
  repeat' first | with_reducible assumption | exact Part.sub_of hp (by decide) | with_reducible apply Kept.raise | with_reducible apply Kept.foldl | with_reducible apply Kept.each | with_reducible refine Kept.ite (fun _ => ?_) (fun _ => ?_) | intro _ | (fail_if_no_progress with_reducible refine Kept.upd_of hp ?_ ?_ ?_ ?_ ?_ ?_ ?_ ?_ ?_ ?_ ?_ ?_ ?_ ?_ ?_ ?_ ?_ rfl rfl <;> try first | exact Or.inr rfl | exact Or.inl (by decide)) | (simp only [id_eq]; assumption) | dsimp only | split

theorem Kept.frameDrift (h : Kept p a s) (hp : Part.sub Part.alarms p = true := by first | decide | (refine Part.sub_of (by assumption) ?_; decide)) : Kept p a (State.frameDrift s) := by
  unfold State.frameDrift
  repeat' first | with_reducible assumption | with_reducible apply Kept.record | exact Kept.record_rec | exact Part.sub_of hp (by decide) | with_reducible apply Kept.raise | with_reducible apply Kept.each | with_reducible apply Kept.updFsrc | with_reducible apply Kept.faultWinter | with_reducible apply Kept.foldl | with_reducible apply Kept.each | with_reducible refine Kept.ite (fun _ => ?_) (fun _ => ?_) | intro _ | (fail_if_no_progress with_reducible refine Kept.upd_of hp ?_ ?_ ?_ ?_ ?_ ?_ ?_ ?_ ?_ ?_ ?_ ?_ ?_ ?_ ?_ ?_ ?_ rfl rfl <;> try first | exact Or.inr rfl | exact Or.inl (by decide)) | (simp only [id_eq]; assumption) | dsimp only | split

theorem Kept.frameEdge (h : Kept p a s) (hp : Part.sub { intc := true, tim := true } p = true := by first | decide | (refine Part.sub_of (by assumption) ?_; decide)) : Kept p a (State.frameEdge s) := by
  unfold State.frameEdge
  repeat' first | with_reducible assumption | exact Part.sub_of hp (by decide) | with_reducible apply Kept.irqEdge | with_reducible apply Kept.foldl | with_reducible apply Kept.each | with_reducible refine Kept.ite (fun _ => ?_) (fun _ => ?_) | intro _ | (fail_if_no_progress with_reducible refine Kept.upd_of hp ?_ ?_ ?_ ?_ ?_ ?_ ?_ ?_ ?_ ?_ ?_ ?_ ?_ ?_ ?_ ?_ ?_ rfl rfl <;> try first | exact Or.inr rfl | exact Or.inl (by decide)) | (simp only [id_eq]; assumption) | dsimp only | split

theorem Kept.frameEnd (h : Kept p a s) (hp : Part.sub { hif := true, intc := true, recd := true, rfe := true } p = true := by first | decide | (refine Part.sub_of (by assumption) ?_; decide)) : Kept p a (State.frameEnd s x1 x2) := by
  unfold State.frameEnd
  repeat' first | with_reducible assumption | exact Part.sub_of hp (by decide) | with_reducible apply Kept.updFecb | with_reducible apply Kept.updTx | with_reducible apply Kept.completeId | with_reducible apply Kept.foldl | with_reducible apply Kept.each | with_reducible refine Kept.ite (fun _ => ?_) (fun _ => ?_) | intro _ | (fail_if_no_progress with_reducible refine Kept.upd_of hp ?_ ?_ ?_ ?_ ?_ ?_ ?_ ?_ ?_ ?_ ?_ ?_ ?_ ?_ ?_ ?_ ?_ rfl rfl <;> try first | exact Or.inr rfl | exact Or.inl (by decide)) | (simp only [id_eq]; assumption) | dsimp only | split

theorem Kept.sideSync (h : Kept p a s) (hp : Part.sub { slots := true, cx := true } p = true := by first | decide | (refine Part.sub_of (by assumption) ?_; decide)) : Kept p a (State.sideSync s x1 x2) := by
  unfold State.sideSync
  repeat' first | with_reducible assumption | exact Part.sub_of hp (by decide) | with_reducible apply Kept.each | with_reducible apply Kept.fadeSync | with_reducible apply Kept.cxSeedSync | with_reducible apply Kept.foldl | with_reducible apply Kept.each | with_reducible refine Kept.ite (fun _ => ?_) (fun _ => ?_) | intro _ | (fail_if_no_progress with_reducible refine Kept.upd_of hp ?_ ?_ ?_ ?_ ?_ ?_ ?_ ?_ ?_ ?_ ?_ ?_ ?_ ?_ ?_ ?_ ?_ rfl rfl <;> try first | exact Or.inr rfl | exact Or.inl (by decide)) | (simp only [id_eq]; assumption) | dsimp only | split

theorem Kept.schedSync (h : Kept p a s) (hp : Part.sub { slots := true, cx := true } p = true := by first | decide | (refine Part.sub_of (by assumption) ?_; decide)) : Kept p a (State.schedSync s x1) := by
  unfold State.schedSync
  repeat' first | with_reducible assumption | exact Part.sub_of hp (by decide) | with_reducible apply Kept.sideSync | with_reducible apply Kept.foldl | with_reducible apply Kept.each | with_reducible refine Kept.ite (fun _ => ?_) (fun _ => ?_) | intro _ | (fail_if_no_progress with_reducible refine Kept.upd_of hp ?_ ?_ ?_ ?_ ?_ ?_ ?_ ?_ ?_ ?_ ?_ ?_ ?_ ?_ ?_ ?_ ?_ rfl rfl <;> try first | exact Or.inr rfl | exact Or.inl (by decide)) | (simp only [id_eq]; assumption) | dsimp only | split

theorem Kept.frameInEdge (h : Kept p a s) (hp : Part.sub { Part.alarms with rfe := true, tim := true } p = true := by first | decide | (refine Part.sub_of (by assumption) ?_; decide)) : Kept p a (State.frameInEdge s) := by
  unfold State.frameInEdge
  dsimp only
  generalize hu : State.each s _ _ = u
  have h1 : Kept p a u := hu ▸ Kept.each h (fun i b hb => Kept.schedSync (Kept.updSched hb (Part.sub_of hp (by decide))) (Part.sub_of hp (by decide)))
  refine Kept.ite (fun _ => Kept.ite (fun _ => Kept.of hp h1) (fun _ => Kept.of hp h1)) (fun _ => Kept.ite (fun _ => ?_) (fun _ => Kept.of hp h1))
  exact Kept.ite (fun _ => Kept.frameDrift (Kept.of hp h1) (Part.sub_of hp (by decide))) (fun _ => Kept.of hp h1)

theorem Kept.frameStart (h : Kept p a s) (hp : Part.sub { Part.alarms with rfe := true } p = true := by first | decide | (refine Part.sub_of (by assumption) ?_; decide)) : Kept p a (State.frameStart s x1) := by
  unfold State.frameStart
  repeat' first | with_reducible assumption | exact Part.sub_of hp (by decide) | with_reducible apply Kept.updFecb | with_reducible apply Kept.completeId | with_reducible apply Kept.updPend | with_reducible apply Kept.updTx | with_reducible apply Kept.raise | with_reducible apply Kept.foldl | with_reducible apply Kept.each | with_reducible refine Kept.ite (fun _ => ?_) (fun _ => ?_) | intro _ | (fail_if_no_progress with_reducible refine Kept.upd_of hp ?_ ?_ ?_ ?_ ?_ ?_ ?_ ?_ ?_ ?_ ?_ ?_ ?_ ?_ ?_ ?_ ?_ rfl rfl <;> try first | exact Or.inr rfl | exact Or.inl (by decide)) | (simp only [id_eq]; assumption) | dsimp only | split

theorem Kept.intcFlr (h : Kept p a s) (hp : Part.sub Part.alarms p = true := by first | decide | (refine Part.sub_of (by assumption) ?_; decide)) : Kept p a (State.intcFlr s) := by
  unfold State.intcFlr
  repeat' first | with_reducible assumption | exact Part.sub_of hp (by decide) | with_reducible apply Kept.each | with_reducible apply Kept.vecComplete | with_reducible apply Kept.foldl | with_reducible apply Kept.each | with_reducible refine Kept.ite (fun _ => ?_) (fun _ => ?_) | intro _ | (fail_if_no_progress with_reducible refine Kept.upd_of hp ?_ ?_ ?_ ?_ ?_ ?_ ?_ ?_ ?_ ?_ ?_ ?_ ?_ ?_ ?_ ?_ ?_ rfl rfl <;> try first | exact Or.inr rfl | exact Or.inl (by decide)) | (simp only [id_eq]; assumption) | dsimp only | split

theorem Kept.hifFaultsReset (h : Kept p a s) (hp : Part.sub { flt := true, prot := true } p = true := by first | decide | (refine Part.sub_of (by assumption) ?_; decide)) : Kept p a (State.hifFaultsReset s) := by
  unfold State.hifFaultsReset
  dsimp only
  generalize hu : State.each s _ _ = u
  have h1 : Kept p a u := hu ▸ Kept.each h (fun i b hb => Kept.faultDrop (Kept.updFsrc hb (Part.sub_of hp (by decide))) (Part.sub_of hp (by decide)))
  exact Kept.of hp h1

theorem Kept.functionReset (h : Kept p a s) (hp : Part.sub Part.alarms p = true := by first | decide | (refine Part.sub_of (by assumption) ?_; decide)) : Kept p a (State.functionReset s) := by
  unfold State.functionReset
  repeat' first | with_reducible assumption | exact Part.sub_of hp (by decide) | with_reducible apply Kept.winterSet | with_reducible apply Kept.raise | with_reducible apply Kept.intcFlr | with_reducible apply Kept.hifFaultsReset | with_reducible apply Kept.foldl | with_reducible apply Kept.each | with_reducible refine Kept.ite (fun _ => ?_) (fun _ => ?_) | intro _ | (fail_if_no_progress with_reducible refine Kept.upd_of hp ?_ ?_ ?_ ?_ ?_ ?_ ?_ ?_ ?_ ?_ ?_ ?_ ?_ ?_ ?_ ?_ ?_ rfl rfl <;> try first | exact Or.inr rfl | exact Or.inl (by decide)) | (simp only [id_eq]; assumption) | dsimp only | split

theorem Kept.fuseEnd (h : Kept p a s) (hp : Part.sub { Part.alarms with tim := true, tst := true } p = true := by first | decide | (refine Part.sub_of (by assumption) ?_; decide)) : Kept p a (State.fuseEnd s x1 x2) := by
  unfold State.fuseEnd
  repeat' first | with_reducible assumption | exact Part.sub_of hp (by decide) | with_reducible apply Kept.stageTo | with_reducible apply Kept.springStop | with_reducible apply Kept.raise | with_reducible apply Kept.foldl | with_reducible apply Kept.each | with_reducible refine Kept.ite (fun _ => ?_) (fun _ => ?_) | intro _ | (fail_if_no_progress with_reducible refine Kept.upd_of hp ?_ ?_ ?_ ?_ ?_ ?_ ?_ ?_ ?_ ?_ ?_ ?_ ?_ ?_ ?_ ?_ ?_ rfl rfl <;> try first | exact Or.inr rfl | exact Or.inl (by decide)) | (simp only [id_eq]; assumption) | dsimp only | split

theorem Kept.gainRestart (h : Kept p a s) (hp : Part.sub { gcl := true } p = true := by first | decide | (refine Part.sub_of (by assumption) ?_; decide)) : Kept p a (State.gainRestart s x1 x2) := by
  unfold State.gainRestart
  repeat' first | with_reducible assumption | exact Part.sub_of hp (by decide) | with_reducible apply Kept.updGain | with_reducible apply Kept.foldl | with_reducible apply Kept.each | with_reducible refine Kept.ite (fun _ => ?_) (fun _ => ?_) | intro _ | (fail_if_no_progress with_reducible refine Kept.upd_of hp ?_ ?_ ?_ ?_ ?_ ?_ ?_ ?_ ?_ ?_ ?_ ?_ ?_ ?_ ?_ ?_ ?_ rfl rfl <;> try first | exact Or.inr rfl | exact Or.inl (by decide)) | (simp only [id_eq]; assumption) | dsimp only | split

theorem Kept.gainStart (h : Kept p a s) (hp : Part.sub { gcl := true } p = true := by first | decide | (refine Part.sub_of (by assumption) ?_; decide)) : Kept p a (State.gainStart s x1) := by
  unfold State.gainStart
  repeat' first | with_reducible assumption | exact Part.sub_of hp (by decide) | with_reducible apply Kept.updGain | with_reducible apply Kept.foldl | with_reducible apply Kept.each | with_reducible refine Kept.ite (fun _ => ?_) (fun _ => ?_) | intro _ | (fail_if_no_progress with_reducible refine Kept.upd_of hp ?_ ?_ ?_ ?_ ?_ ?_ ?_ ?_ ?_ ?_ ?_ ?_ ?_ ?_ ?_ ?_ ?_ rfl rfl <;> try first | exact Or.inr rfl | exact Or.inl (by decide)) | (simp only [id_eq]; assumption) | dsimp only | split

theorem Kept.marginTick (h : Kept p a s) (hp : Part.sub Part.alarms p = true := by first | decide | (refine Part.sub_of (by assumption) ?_; decide)) : Kept p a (State.marginTick s x1) := by
  unfold State.marginTick
  repeat' first | with_reducible assumption | exact Part.sub_of hp (by decide) | with_reducible apply Kept.capSlot | with_reducible apply Kept.updGain | with_reducible apply Kept.raise | with_reducible apply Kept.foldl | with_reducible apply Kept.each | with_reducible refine Kept.ite (fun _ => ?_) (fun _ => ?_) | intro _ | (fail_if_no_progress with_reducible refine Kept.upd_of hp ?_ ?_ ?_ ?_ ?_ ?_ ?_ ?_ ?_ ?_ ?_ ?_ ?_ ?_ ?_ ?_ ?_ rfl rfl <;> try first | exact Or.inr rfl | exact Or.inl (by decide)) | (simp only [id_eq]; assumption) | dsimp only | split

theorem Kept.tickSlot (h : Kept p a s) (hp : Part.sub Part.alarms p = true := by first | decide | (refine Part.sub_of (by assumption) ?_; decide)) : Kept p a (State.tickSlot s x1 x2) := by
  unfold State.tickSlot
  repeat' first | with_reducible assumption | exact Part.sub_of hp (by decide) | with_reducible apply Kept.updGain | with_reducible apply Kept.marginTick | with_reducible apply Kept.updPend | with_reducible apply Kept.lutSwapCheck | with_reducible apply Kept.agcStep | with_reducible apply Kept.gainSetCheck | with_reducible apply Kept.gainMove | with_reducible apply Kept.spMove | with_reducible apply Kept.foldl | with_reducible apply Kept.each | with_reducible refine Kept.ite (fun _ => ?_) (fun _ => ?_) | intro _ | (fail_if_no_progress with_reducible refine Kept.upd_of hp ?_ ?_ ?_ ?_ ?_ ?_ ?_ ?_ ?_ ?_ ?_ ?_ ?_ ?_ ?_ ?_ ?_ rfl rfl <;> try first | exact Or.inr rfl | exact Or.inl (by decide)) | (simp only [id_eq]; assumption) | dsimp only | split

theorem Kept.gainTick (h : Kept p a s) (hp : Part.sub Part.alarms p = true := by first | decide | (refine Part.sub_of (by assumption) ?_; decide)) : Kept p a (State.gainTick s x1) := by
  unfold State.gainTick
  repeat' first | with_reducible assumption | exact Part.sub_of hp (by decide) | with_reducible apply Kept.each | with_reducible apply Kept.tickSlot | with_reducible apply Kept.earlyMove | with_reducible apply Kept.foldl | with_reducible apply Kept.each | with_reducible refine Kept.ite (fun _ => ?_) (fun _ => ?_) | intro _ | (fail_if_no_progress with_reducible refine Kept.upd_of hp ?_ ?_ ?_ ?_ ?_ ?_ ?_ ?_ ?_ ?_ ?_ ?_ ?_ ?_ ?_ ?_ ?_ rfl rfl <;> try first | exact Or.inr rfl | exact Or.inl (by decide)) | (simp only [id_eq]; assumption) | dsimp only | split

theorem Kept.headerLoss (h : Kept p a s) (hp : Part.sub { Part.alarms with jl := true } p = true := by first | decide | (refine Part.sub_of (by assumption) ?_; decide)) : Kept p a (State.headerLoss s x1) := by
  unfold State.headerLoss
  repeat' first | with_reducible assumption | exact Part.sub_of hp (by decide) | with_reducible apply Kept.linkDown | with_reducible apply Kept.foldl | with_reducible apply Kept.each | with_reducible refine Kept.ite (fun _ => ?_) (fun _ => ?_) | intro _ | (fail_if_no_progress with_reducible refine Kept.upd_of hp ?_ ?_ ?_ ?_ ?_ ?_ ?_ ?_ ?_ ?_ ?_ ?_ ?_ ?_ ?_ ?_ ?_ rfl rfl <;> try first | exact Or.inr rfl | exact Or.inl (by decide)) | (simp only [id_eq]; assumption) | dsimp only | split

theorem Kept.heartbeat (h : Kept p a s) (hp : Part.sub { jl := true } p = true := by first | decide | (refine Part.sub_of (by assumption) ?_; decide)) : Kept p a (State.heartbeat s x1 x2 x3) := by
  unfold State.heartbeat
  repeat' first | with_reducible assumption | exact Part.sub_of hp (by decide) | with_reducible apply Kept.takeRouted | with_reducible apply Kept.foldl | with_reducible apply Kept.each | with_reducible refine Kept.ite (fun _ => ?_) (fun _ => ?_) | intro _ | (fail_if_no_progress with_reducible refine Kept.upd_of hp ?_ ?_ ?_ ?_ ?_ ?_ ?_ ?_ ?_ ?_ ?_ ?_ ?_ ?_ ?_ ?_ ?_ rfl rfl <;> try first | exact Or.inr rfl | exact Or.inl (by decide)) | (simp only [id_eq]; assumption) | dsimp only | split

theorem Kept.heartbeatLe (h : Kept p a s) (hp : Part.sub { flt := true } p = true := by first | decide | (refine Part.sub_of (by assumption) ?_; decide)) : Kept p a (State.heartbeatLe s x1) := by
  unfold State.heartbeatLe
  repeat' first | with_reducible assumption | exact Part.sub_of hp (by decide) | with_reducible apply Kept.foldl | with_reducible apply Kept.each | with_reducible refine Kept.ite (fun _ => ?_) (fun _ => ?_) | intro _ | (fail_if_no_progress with_reducible refine Kept.upd_of hp ?_ ?_ ?_ ?_ ?_ ?_ ?_ ?_ ?_ ?_ ?_ ?_ ?_ ?_ ?_ ?_ ?_ rfl rfl <;> try first | exact Or.inr rfl | exact Or.inl (by decide)) | (simp only [id_eq]; assumption) | dsimp only | split

theorem Kept.heartbeatLoss (h : Kept p a s) (hp : Part.sub { Part.alarms with jl := true } p = true := by first | decide | (refine Part.sub_of (by assumption) ?_; decide)) : Kept p a (State.heartbeatLoss s) := by
  unfold State.heartbeatLoss
  repeat' first | with_reducible assumption | exact Part.sub_of hp (by decide) | with_reducible apply Kept.toHoldover | with_reducible apply Kept.foldl | with_reducible apply Kept.each | with_reducible refine Kept.ite (fun _ => ?_) (fun _ => ?_) | intro _ | (fail_if_no_progress with_reducible refine Kept.upd_of hp ?_ ?_ ?_ ?_ ?_ ?_ ?_ ?_ ?_ ?_ ?_ ?_ ?_ ?_ ?_ ?_ ?_ rfl rfl <;> try first | exact Or.inr rfl | exact Or.inl (by decide)) | (simp only [id_eq]; assumption) | dsimp only | split

theorem Kept.heartbeatSend (h : Kept p a s) (hp : Part.sub { jl := true } p = true := by first | decide | (refine Part.sub_of (by assumption) ?_; decide)) : Kept p a (State.heartbeatSend s) := by
  unfold State.heartbeatSend
  repeat' first | with_reducible assumption | exact Part.sub_of hp (by decide) | with_reducible apply Kept.each | with_reducible apply Kept.portSend | with_reducible apply Kept.foldl | with_reducible apply Kept.each | with_reducible refine Kept.ite (fun _ => ?_) (fun _ => ?_) | intro _ | (fail_if_no_progress with_reducible refine Kept.upd_of hp ?_ ?_ ?_ ?_ ?_ ?_ ?_ ?_ ?_ ?_ ?_ ?_ ?_ ?_ ?_ ?_ ?_ rfl rfl <;> try first | exact Or.inr rfl | exact Or.inl (by decide)) | (simp only [id_eq]; assumption) | dsimp only | split

theorem Kept.holdoverTimeout (h : Kept p a s) (hp : Part.sub Part.alarms p = true := by first | decide | (refine Part.sub_of (by assumption) ?_; decide)) : Kept p a (State.holdoverTimeout s) := by
  unfold State.holdoverTimeout
  repeat' first | with_reducible assumption | exact Part.sub_of hp (by decide) | with_reducible apply Kept.each | with_reducible apply Kept.winterSet | with_reducible apply Kept.foldl | with_reducible apply Kept.each | with_reducible refine Kept.ite (fun _ => ?_) (fun _ => ?_) | intro _ | (fail_if_no_progress with_reducible refine Kept.upd_of hp ?_ ?_ ?_ ?_ ?_ ?_ ?_ ?_ ?_ ?_ ?_ ?_ ?_ ?_ ?_ ?_ ?_ rfl rfl <;> try first | exact Or.inr rfl | exact Or.inl (by decide)) | (simp only [id_eq]; assumption) | dsimp only | split

theorem Kept.injCompl (h : Kept p a s) (hp : Part.sub { flt := true, prot := true } p = true := by first | decide | (refine Part.sub_of (by assumption) ?_; decide)) : Kept p a (State.injCompl s x1) := by
  unfold State.injCompl
  repeat' first | with_reducible assumption | exact Part.sub_of hp (by decide) | with_reducible apply Kept.foldl | with_reducible apply Kept.each | with_reducible refine Kept.ite (fun _ => ?_) (fun _ => ?_) | intro _ | (fail_if_no_progress with_reducible refine Kept.upd_of hp ?_ ?_ ?_ ?_ ?_ ?_ ?_ ?_ ?_ ?_ ?_ ?_ ?_ ?_ ?_ ?_ ?_ rfl rfl <;> try first | exact Or.inr rfl | exact Or.inl (by decide)) | (simp only [id_eq]; assumption) | dsimp only | split

theorem Kept.injCopy (h : Kept p a s) (hp : Part.sub { flt := true } p = true := by first | decide | (refine Part.sub_of (by assumption) ?_; decide)) : Kept p a (State.injCopy s x1) := by
  unfold State.injCopy
  repeat' first | with_reducible assumption | exact Part.sub_of hp (by decide) | with_reducible apply Kept.updFsrc | with_reducible apply Kept.foldl | with_reducible apply Kept.each | with_reducible refine Kept.ite (fun _ => ?_) (fun _ => ?_) | intro _ | (fail_if_no_progress with_reducible refine Kept.upd_of hp ?_ ?_ ?_ ?_ ?_ ?_ ?_ ?_ ?_ ?_ ?_ ?_ ?_ ?_ ?_ ?_ ?_ rfl rfl <;> try first | exact Or.inr rfl | exact Or.inl (by decide)) | (simp only [id_eq]; assumption) | dsimp only | split

theorem Kept.injHeartbeat (h : Kept p a s) (hp : Part.sub { flt := true } p = true := by first | decide | (refine Part.sub_of (by assumption) ?_; decide)) : Kept p a (State.injHeartbeat s x1) := by
  unfold State.injHeartbeat
  repeat' first | with_reducible assumption | exact Part.sub_of hp (by decide) | with_reducible apply Kept.foldl | with_reducible apply Kept.each | with_reducible refine Kept.ite (fun _ => ?_) (fun _ => ?_) | intro _ | (fail_if_no_progress with_reducible refine Kept.upd_of hp ?_ ?_ ?_ ?_ ?_ ?_ ?_ ?_ ?_ ?_ ?_ ?_ ?_ ?_ ?_ ?_ ?_ rfl rfl <;> try first | exact Or.inr rfl | exact Or.inl (by decide)) | (simp only [id_eq]; assumption) | dsimp only | split

theorem Kept.oscEntry (h : Kept p a s) (hp : Part.sub Part.alarms p = true := by first | decide | (refine Part.sub_of (by assumption) ?_; decide)) : Kept p a (State.oscEntry s x1 x2) := by
  unfold State.oscEntry
  repeat' first | with_reducible assumption | exact Part.sub_of hp (by decide) | with_reducible apply Kept.winterSet | with_reducible apply Kept.raiseI | with_reducible apply Kept.foldl | with_reducible apply Kept.each | with_reducible refine Kept.ite (fun _ => ?_) (fun _ => ?_) | intro _ | (fail_if_no_progress with_reducible refine Kept.upd_of hp ?_ ?_ ?_ ?_ ?_ ?_ ?_ ?_ ?_ ?_ ?_ ?_ ?_ ?_ ?_ ?_ ?_ rfl rfl <;> try first | exact Or.inr rfl | exact Or.inl (by decide)) | (simp only [id_eq]; assumption) | dsimp only | split

theorem Kept.injRaise (h : Kept p a s) (hp : Part.sub Part.alarms p = true := by first | decide | (refine Part.sub_of (by assumption) ?_; decide)) : Kept p a (State.injRaise s x1 x2 x3) := by
  unfold State.injRaise
  repeat' first | with_reducible assumption | exact Part.sub_of hp (by decide) | with_reducible apply Kept.oscEntry | with_reducible apply Kept.raiseI | with_reducible apply Kept.each | with_reducible apply Kept.winterSet | with_reducible apply Kept.foldl | with_reducible apply Kept.each | with_reducible refine Kept.ite (fun _ => ?_) (fun _ => ?_) | intro _ | (fail_if_no_progress with_reducible refine Kept.upd_of hp ?_ ?_ ?_ ?_ ?_ ?_ ?_ ?_ ?_ ?_ ?_ ?_ ?_ ?_ ?_ ?_ ?_ rfl rfl <;> try first | exact Or.inr rfl | exact Or.inl (by decide)) | (simp only [id_eq]; assumption) | dsimp only | split

theorem Kept.injSev (h : Kept p a s) (hp : Part.sub { flt := true } p = true := by first | decide | (refine Part.sub_of (by assumption) ?_; decide)) : Kept p a (State.injSev s x1) := by
  unfold State.injSev
  repeat' first | with_reducible assumption | exact Part.sub_of hp (by decide) | with_reducible apply Kept.foldl | with_reducible apply Kept.each | with_reducible refine Kept.ite (fun _ => ?_) (fun _ => ?_) | intro _ | (fail_if_no_progress with_reducible refine Kept.upd_of hp ?_ ?_ ?_ ?_ ?_ ?_ ?_ ?_ ?_ ?_ ?_ ?_ ?_ ?_ ?_ ?_ ?_ rfl rfl <;> try first | exact Or.inr rfl | exact Or.inl (by decide)) | (simp only [id_eq]; assumption) | dsimp only | split

theorem Kept.injSymbols (h : Kept p a s) (hp : Part.sub { flt := true } p = true := by first | decide | (refine Part.sub_of (by assumption) ?_; decide)) : Kept p a (State.injSymbols s x1 x2) := by
  unfold State.injSymbols
  repeat' first | with_reducible assumption | exact Part.sub_of hp (by decide) | with_reducible apply Kept.foldl | with_reducible apply Kept.each | with_reducible refine Kept.ite (fun _ => ?_) (fun _ => ?_) | intro _ | (fail_if_no_progress with_reducible refine Kept.upd_of hp ?_ ?_ ?_ ?_ ?_ ?_ ?_ ?_ ?_ ?_ ?_ ?_ ?_ ?_ ?_ ?_ ?_ rfl rfl <;> try first | exact Or.inr rfl | exact Or.inl (by decide)) | (simp only [id_eq]; assumption) | dsimp only | split

theorem Kept.tapIr (h : Kept p a s) (hp : Part.sub { tst := true } p = true := by first | decide | (refine Part.sub_of (by assumption) ?_; decide)) : Kept p a (State.tapIr s x1) := by
  unfold State.tapIr
  repeat' first | with_reducible assumption | exact Part.sub_of hp (by decide) | with_reducible apply Kept.foldl | with_reducible apply Kept.each | with_reducible refine Kept.ite (fun _ => ?_) (fun _ => ?_) | intro _ | (fail_if_no_progress with_reducible refine Kept.upd_of hp ?_ ?_ ?_ ?_ ?_ ?_ ?_ ?_ ?_ ?_ ?_ ?_ ?_ ?_ ?_ ?_ ?_ rfl rfl <;> try first | exact Or.inr rfl | exact Or.inl (by decide)) | (simp only [id_eq]; assumption) | dsimp only | split

theorem Kept.inject {f : State → State} (hf : ∀ b, Kept p a b → Kept p a (f b)) (h : Kept p a s) (hp : Part.sub { Part.alarms with tst := true } p = true := by first | decide | (refine Part.sub_of (by assumption) ?_; decide))  : Kept p a (s.inject f) := by
  have h1 : Kept p a (s.tapIr 0x20) := Kept.tapIr h
  unfold State.inject
  exact Kept.ite (fun _ => Kept.raiseI (hf _ h1)) (fun _ => Kept.of hp h1)

theorem Kept.intcClaim (h : Kept p a s) (hp : Part.sub { hif := true, intc := true } p = true := by first | decide | (refine Part.sub_of (by assumption) ?_; decide)) : Kept p a (State.intcClaim s) := by
  unfold State.intcClaim
  repeat' first | with_reducible assumption | exact Part.sub_of hp (by decide) | with_reducible apply Kept.claim | with_reducible apply Kept.foldl | with_reducible apply Kept.each | with_reducible refine Kept.ite (fun _ => ?_) (fun _ => ?_) | intro _ | (fail_if_no_progress with_reducible refine Kept.upd_of hp ?_ ?_ ?_ ?_ ?_ ?_ ?_ ?_ ?_ ?_ ?_ ?_ ?_ ?_ ?_ ?_ ?_ rfl rfl <;> try first | exact Or.inr rfl | exact Or.inl (by decide)) | (simp only [id_eq]; assumption) | dsimp only | split

theorem Kept.joinLearn (h : Kept p a s) (hp : Part.sub { jl := true } p = true := by first | decide | (refine Part.sub_of (by assumption) ?_; decide)) : Kept p a (State.joinLearn s x1 x2 x3) := by
  unfold State.joinLearn
  repeat' first | with_reducible assumption | exact Part.sub_of hp (by decide) | with_reducible apply Kept.updPort | with_reducible apply Kept.foldl | with_reducible apply Kept.each | with_reducible refine Kept.ite (fun _ => ?_) (fun _ => ?_) | intro _ | (fail_if_no_progress with_reducible refine Kept.upd_of hp ?_ ?_ ?_ ?_ ?_ ?_ ?_ ?_ ?_ ?_ ?_ ?_ ?_ ?_ ?_ ?_ ?_ rfl rfl <;> try first | exact Or.inr rfl | exact Or.inl (by decide)) | (simp only [id_eq]; assumption) | dsimp only | split

theorem Kept.joinResponse (h : Kept p a s) (hp : Part.sub { Part.alarms with jl := true } p = true := by first | decide | (refine Part.sub_of (by assumption) ?_; decide)) : Kept p a (State.joinResponse s x1 x2) := by
  unfold State.joinResponse
  repeat' first | with_reducible assumption | exact Part.sub_of hp (by decide) | with_reducible apply Kept.takeRouted | with_reducible apply Kept.answered | with_reducible apply Kept.raise | with_reducible apply Kept.foldl | with_reducible apply Kept.each | with_reducible refine Kept.ite (fun _ => ?_) (fun _ => ?_) | intro _ | (fail_if_no_progress with_reducible refine Kept.upd_of hp ?_ ?_ ?_ ?_ ?_ ?_ ?_ ?_ ?_ ?_ ?_ ?_ ?_ ?_ ?_ ?_ ?_ rfl rfl <;> try first | exact Or.inr rfl | exact Or.inl (by decide)) | (simp only [id_eq]; assumption) | dsimp only | split

theorem Kept.capsSend (h : Kept p a s) (hp : Part.sub { Part.alarms with jl := true } p = true := by first | decide | (refine Part.sub_of (by assumption) ?_; decide))  : Kept p a (s.capsSend x1 x2).2 := by
  unfold State.capsSend
  dsimp only
  split
  · exact h
  · split
    · exact Kept.capAll (Kept.foldl (Kept.of hp h) (fun _ _ hb => Kept.capExec hb))
    · apply Kept.capsFold
      · exact Kept.of hp h
      · exact fun _ _ hb => Kept.request hb

theorem Kept.capsUpdate (h : Kept p a s) (hp : Part.sub { Part.alarms with jl := true } p = true := by first | decide | (refine Part.sub_of (by assumption) ?_; decide))  : Kept p a s.capsUpdate.2 := by
  unfold State.capsUpdate
  exact Kept.capsFold h (fun _ _ hb => Kept.capsSend hb)

theorem Kept.requestLost (h : Kept p a s) (hp : Part.sub { Part.alarms with jl := true } p = true := by first | decide | (refine Part.sub_of (by assumption) ?_; decide))  : Kept p a (s.requestLost x1) := by
  unfold State.requestLost
  dsimp only
  split
  · exact Kept.owedCheck (Kept.capsUpdate (Kept.owedWithout (Kept.of hp h)))
  · exact Kept.of hp h

theorem Kept.joinTake (h : Kept p a s) (hp : Part.sub { Part.alarms with jl := true } p = true := by first | decide | (refine Part.sub_of (by assumption) ?_; decide)) : Kept p a (State.joinTake s x1 x2 x3 x4) := by
  unfold State.joinTake
  repeat' first | with_reducible assumption | with_reducible apply Kept.capsSend | exact Part.sub_of hp (by decide) | with_reducible apply Kept.takeRouted | with_reducible apply Kept.joinLearn | with_reducible apply Kept.once | with_reducible apply Kept.respond | with_reducible apply Kept.foldl | with_reducible apply Kept.each | with_reducible refine Kept.ite (fun _ => ?_) (fun _ => ?_) | intro _ | (fail_if_no_progress with_reducible refine Kept.upd_of hp ?_ ?_ ?_ ?_ ?_ ?_ ?_ ?_ ?_ ?_ ?_ ?_ ?_ ?_ ?_ ?_ ?_ rfl rfl <;> try first | exact Or.inr rfl | exact Or.inl (by decide)) | (simp only [id_eq]; assumption) | dsimp only | split

theorem Kept.retransmit (h : Kept p a s) (hp : Part.sub { jl := true } p = true := by first | decide | (refine Part.sub_of (by assumption) ?_; decide)) : Kept p a (State.retransmit s x1) := by
  unfold State.retransmit
  repeat' first | with_reducible assumption | exact Part.sub_of hp (by decide) | with_reducible apply Kept.updPort | with_reducible apply Kept.foldl | with_reducible apply Kept.each | with_reducible refine Kept.ite (fun _ => ?_) (fun _ => ?_) | intro _ | (fail_if_no_progress with_reducible refine Kept.upd_of hp ?_ ?_ ?_ ?_ ?_ ?_ ?_ ?_ ?_ ?_ ?_ ?_ ?_ ?_ ?_ ?_ ?_ rfl rfl <;> try first | exact Or.inr rfl | exact Or.inl (by decide)) | (simp only [id_eq]; assumption) | dsimp only | split

theorem Kept.linkHeader (h : Kept p a s) (hp : Part.sub { jl := true } p = true := by first | decide | (refine Part.sub_of (by assumption) ?_; decide)) : Kept p a (State.linkHeader s x1 x2) := by
  unfold State.linkHeader
  repeat' first | with_reducible assumption | exact Part.sub_of hp (by decide) | with_reducible apply Kept.updPort | with_reducible apply Kept.retransmit | with_reducible apply Kept.foldl | with_reducible apply Kept.each | with_reducible refine Kept.ite (fun _ => ?_) (fun _ => ?_) | intro _ | (fail_if_no_progress with_reducible refine Kept.upd_of hp ?_ ?_ ?_ ?_ ?_ ?_ ?_ ?_ ?_ ?_ ?_ ?_ ?_ ?_ ?_ ?_ ?_ rfl rfl <;> try first | exact Or.inr rfl | exact Or.inl (by decide)) | (simp only [id_eq]; assumption) | dsimp only | split

theorem Kept.linkUp (h : Kept p a s) (hp : Part.sub { jl := true } p = true := by first | decide | (refine Part.sub_of (by assumption) ?_; decide)) : Kept p a (State.linkUp s x1) := by
  unfold State.linkUp
  repeat' first | with_reducible assumption | exact Part.sub_of hp (by decide) | with_reducible apply Kept.updPort | with_reducible apply Kept.foldl | with_reducible apply Kept.each | with_reducible refine Kept.ite (fun _ => ?_) (fun _ => ?_) | intro _ | (fail_if_no_progress with_reducible refine Kept.upd_of hp ?_ ?_ ?_ ?_ ?_ ?_ ?_ ?_ ?_ ?_ ?_ ?_ ?_ ?_ ?_ ?_ ?_ rfl rfl <;> try first | exact Or.inr rfl | exact Or.inl (by decide)) | (simp only [id_eq]; assumption) | dsimp only | split

theorem Kept.memWritten (h : Kept p a s) (hp : Part.sub { flt := true } p = true := by first | decide | (refine Part.sub_of (by assumption) ?_; decide)) : Kept p a (State.memWritten s x1) := by
  unfold State.memWritten
  repeat' first | with_reducible assumption | exact Part.sub_of hp (by decide) | with_reducible apply Kept.foldl | with_reducible apply Kept.each | with_reducible refine Kept.ite (fun _ => ?_) (fun _ => ?_) | intro _ | (fail_if_no_progress with_reducible refine Kept.upd_of hp ?_ ?_ ?_ ?_ ?_ ?_ ?_ ?_ ?_ ?_ ?_ ?_ ?_ ?_ ?_ ?_ ?_ rfl rfl <;> try first | exact Or.inr rfl | exact Or.inl (by decide)) | (simp only [id_eq]; assumption) | dsimp only | split

theorem Kept.loadEnd (h : Kept p a s) (hp : Part.sub { hif := true, intc := true, flt := true, recd := true, gcl := true, le := true } p = true := by first | decide | (refine Part.sub_of (by assumption) ?_; decide)) : Kept p a (State.loadEnd s) := by
  unfold State.loadEnd
  repeat' first | with_reducible assumption | exact Part.sub_of hp (by decide) | with_reducible apply Kept.each | with_reducible apply Kept.memWritten | with_reducible apply Kept.updEng | with_reducible apply Kept.complete | with_reducible apply Kept.libPlace | with_reducible apply Kept.foldl | with_reducible apply Kept.each | with_reducible refine Kept.ite (fun _ => ?_) (fun _ => ?_) | intro _ | (fail_if_no_progress with_reducible refine Kept.upd_of hp ?_ ?_ ?_ ?_ ?_ ?_ ?_ ?_ ?_ ?_ ?_ ?_ ?_ ?_ ?_ ?_ ?_ rfl rfl <;> try first | exact Or.inr rfl | exact Or.inl (by decide)) | (simp only [id_eq]; assumption) | dsimp only | split

theorem Kept.upFail (h : Kept p a s) (hp : Part.sub { hif := true, intc := true, recd := true, rfe := true } p = true := by first | decide | (refine Part.sub_of (by assumption) ?_; decide)) : Kept p a (State.upFail s x1 x2) := by
  unfold State.upFail
  repeat' first | with_reducible assumption | exact Part.sub_of hp (by decide) | with_reducible apply Kept.walkFail | with_reducible apply Kept.completeAll | with_reducible apply Kept.foldl | with_reducible apply Kept.each | with_reducible refine Kept.ite (fun _ => ?_) (fun _ => ?_) | intro _ | (fail_if_no_progress with_reducible refine Kept.upd_of hp ?_ ?_ ?_ ?_ ?_ ?_ ?_ ?_ ?_ ?_ ?_ ?_ ?_ ?_ ?_ ?_ ?_ rfl rfl <;> try first | exact Or.inr rfl | exact Or.inl (by decide)) | (simp only [id_eq]; assumption) | dsimp only | split

theorem Kept.lockLostOne (h : Kept p a s) (hp : Part.sub { Part.alarms with rfe := true } p = true := by first | decide | (refine Part.sub_of (by assumption) ?_; decide)) : Kept p a (State.lockLostOne s x1) := by
  unfold State.lockLostOne
  repeat' first | with_reducible assumption | exact Part.sub_of hp (by decide) | with_reducible apply Kept.chainSync | with_reducible apply Kept.raise | with_reducible apply Kept.moveChain | with_reducible apply Kept.updChain | with_reducible apply Kept.upFail | with_reducible apply Kept.completeAll | with_reducible apply Kept.walkStep | with_reducible apply Kept.foldl | with_reducible apply Kept.each | with_reducible refine Kept.ite (fun _ => ?_) (fun _ => ?_) | intro _ | (fail_if_no_progress with_reducible refine Kept.upd_of hp ?_ ?_ ?_ ?_ ?_ ?_ ?_ ?_ ?_ ?_ ?_ ?_ ?_ ?_ ?_ ?_ ?_ rfl rfl <;> try first | exact Or.inr rfl | exact Or.inl (by decide)) | (simp only [id_eq]; assumption) | dsimp only | split

theorem Kept.lockLost (h : Kept p a s) (hp : Part.sub { Part.alarms with rfe := true } p = true := by first | decide | (refine Part.sub_of (by assumption) ?_; decide)) : Kept p a (State.lockLost s x1) := by
  unfold State.lockLost
  repeat' first | with_reducible assumption | exact Part.sub_of hp (by decide) | with_reducible apply Kept.chainSync | with_reducible apply Kept.each | with_reducible apply Kept.lockLostOne | with_reducible apply Kept.foldl | with_reducible apply Kept.each | with_reducible refine Kept.ite (fun _ => ?_) (fun _ => ?_) | intro _ | (fail_if_no_progress with_reducible refine Kept.upd_of hp ?_ ?_ ?_ ?_ ?_ ?_ ?_ ?_ ?_ ?_ ?_ ?_ ?_ ?_ ?_ ?_ ?_ rfl rfl <;> try first | exact Or.inr rfl | exact Or.inl (by decide)) | (simp only [id_eq]; assumption) | dsimp only | split

theorem Kept.lockOne (h : Kept p a s) (hp : Part.sub { hif := true, intc := true, recd := true, rfe := true } p = true := by first | decide | (refine Part.sub_of (by assumption) ?_; decide)) : Kept p a (State.lockOne s x1) := by
  unfold State.lockOne
  repeat' first | with_reducible assumption | exact Part.sub_of hp (by decide) | with_reducible apply Kept.updChain | with_reducible apply Kept.walkStep | with_reducible apply Kept.foldl | with_reducible apply Kept.each | with_reducible refine Kept.ite (fun _ => ?_) (fun _ => ?_) | intro _ | (fail_if_no_progress with_reducible refine Kept.upd_of hp ?_ ?_ ?_ ?_ ?_ ?_ ?_ ?_ ?_ ?_ ?_ ?_ ?_ ?_ ?_ ?_ ?_ rfl rfl <;> try first | exact Or.inr rfl | exact Or.inl (by decide)) | (simp only [id_eq]; assumption) | dsimp only | split

theorem Kept.lockReached (h : Kept p a s) (hp : Part.sub { hif := true, intc := true, recd := true, rfe := true } p = true := by first | decide | (refine Part.sub_of (by assumption) ?_; decide)) : Kept p a (State.lockReached s x1) := by
  unfold State.lockReached
  repeat' first | with_reducible assumption | exact Part.sub_of hp (by decide) | with_reducible apply Kept.chainSync | with_reducible apply Kept.each | with_reducible apply Kept.lockOne | with_reducible apply Kept.completeAll | with_reducible apply Kept.walkStep | with_reducible apply Kept.foldl | with_reducible apply Kept.each | with_reducible refine Kept.ite (fun _ => ?_) (fun _ => ?_) | intro _ | (fail_if_no_progress with_reducible refine Kept.upd_of hp ?_ ?_ ?_ ?_ ?_ ?_ ?_ ?_ ?_ ?_ ?_ ?_ ?_ ?_ ?_ ?_ ?_ rfl rfl <;> try first | exact Or.inr rfl | exact Or.inl (by decide)) | (simp only [id_eq]; assumption) | dsimp only | split

theorem Kept.lockTimeout (h : Kept p a s) (hp : Part.sub { Part.alarms with rfe := true } p = true := by first | decide | (refine Part.sub_of (by assumption) ?_; decide)) : Kept p a (State.lockTimeout s x1) := by
  unfold State.lockTimeout
  repeat' first | with_reducible assumption | exact Part.sub_of hp (by decide) | with_reducible apply Kept.chainSync | with_reducible apply Kept.raise | with_reducible apply Kept.lockFailed | with_reducible apply Kept.upFail | with_reducible apply Kept.completeAll | with_reducible apply Kept.foldl | with_reducible apply Kept.each | with_reducible refine Kept.ite (fun _ => ?_) (fun _ => ?_) | intro _ | (fail_if_no_progress with_reducible refine Kept.upd_of hp ?_ ?_ ?_ ?_ ?_ ?_ ?_ ?_ ?_ ?_ ?_ ?_ ?_ ?_ ?_ ?_ ?_ rfl rfl <;> try first | exact Or.inr rfl | exact Or.inl (by decide)) | (simp only [id_eq]; assumption) | dsimp only | split

theorem Kept.lutLoadEnd (h : Kept p a s) (hp : Part.sub { hif := true, intc := true, flt := true, recd := true, luts := true } p = true := by first | decide | (refine Part.sub_of (by assumption) ?_; decide)) : Kept p a (State.lutLoadEnd s x1) := by
  unfold State.lutLoadEnd
  repeat' first | with_reducible assumption | exact Part.sub_of hp (by decide) | with_reducible apply Kept.complete | with_reducible apply Kept.memWritten | with_reducible apply Kept.updLut | with_reducible apply Kept.foldl | with_reducible apply Kept.each | with_reducible refine Kept.ite (fun _ => ?_) (fun _ => ?_) | intro _ | (fail_if_no_progress with_reducible refine Kept.upd_of hp ?_ ?_ ?_ ?_ ?_ ?_ ?_ ?_ ?_ ?_ ?_ ?_ ?_ ?_ ?_ ?_ ?_ rfl rfl <;> try first | exact Or.inr rfl | exact Or.inl (by decide)) | (simp only [id_eq]; assumption) | dsimp only | split

theorem Kept.masterLost (h : Kept p a s) (hp : Part.sub Part.alarms p = true := by first | decide | (refine Part.sub_of (by assumption) ?_; decide)) : Kept p a (State.masterLost s) := by
  unfold State.masterLost
  repeat' first | with_reducible assumption | exact Part.sub_of hp (by decide) | with_reducible apply Kept.raise | with_reducible apply Kept.foldl | with_reducible apply Kept.each | with_reducible refine Kept.ite (fun _ => ?_) (fun _ => ?_) | intro _ | (fail_if_no_progress with_reducible refine Kept.upd_of hp ?_ ?_ ?_ ?_ ?_ ?_ ?_ ?_ ?_ ?_ ?_ ?_ ?_ ?_ ?_ ?_ ?_ rfl rfl <;> try first | exact Or.inr rfl | exact Or.inl (by decide)) | (simp only [id_eq]; assumption) | dsimp only | split

theorem Kept.takeTrapI (h : Kept p a s) (hp : Part.sub { Part.alarms with le := true } p = true := by first | decide | (refine Part.sub_of (by assumption) ?_; decide)) : Kept p a (State.takeTrapI s x1 x2 x3 x4) := by
  unfold State.takeTrapI
  repeat' first | with_reducible assumption | exact Part.sub_of hp (by decide) | with_reducible apply Kept.updEng | with_reducible apply Kept.updTask | with_reducible apply Kept.raiseI | with_reducible apply Kept.foldl | with_reducible apply Kept.each | with_reducible refine Kept.ite (fun _ => ?_) (fun _ => ?_) | intro _ | (fail_if_no_progress with_reducible refine Kept.upd_of hp ?_ ?_ ?_ ?_ ?_ ?_ ?_ ?_ ?_ ?_ ?_ ?_ ?_ ?_ ?_ ?_ ?_ rfl rfl <;> try first | exact Or.inr rfl | exact Or.inl (by decide)) | (simp only [id_eq]; assumption) | dsimp only | split

theorem Kept.memTrap (h : Kept p a s) (hp : Part.sub { Part.alarms with le := true } p = true := by first | decide | (refine Part.sub_of (by assumption) ?_; decide)) : Kept p a (State.memTrap s x1) := by
  unfold State.memTrap
  repeat' first | with_reducible assumption | exact Part.sub_of hp (by decide) | with_reducible apply Kept.each | with_reducible apply Kept.raiseI | with_reducible apply Kept.takeTrapI | with_reducible apply Kept.foldl | with_reducible apply Kept.each | with_reducible refine Kept.ite (fun _ => ?_) (fun _ => ?_) | intro _ | (fail_if_no_progress with_reducible refine Kept.upd_of hp ?_ ?_ ?_ ?_ ?_ ?_ ?_ ?_ ?_ ?_ ?_ ?_ ?_ ?_ ?_ ?_ ?_ rfl rfl <;> try first | exact Or.inr rfl | exact Or.inl (by decide)) | (simp only [id_eq]; assumption) | dsimp only | split

theorem Kept.mount (h : Kept p a s) (hp : Part.sub Part.alarms p = true := by first | decide | (refine Part.sub_of (by assumption) ?_; decide)) : Kept p a (State.mount s) := by
  unfold State.mount
  repeat' first | with_reducible assumption | with_reducible apply Kept.record | exact Kept.record_rec | exact Part.sub_of hp (by decide) | with_reducible apply Kept.raise | with_reducible apply Kept.foldl | with_reducible apply Kept.each | with_reducible refine Kept.ite (fun _ => ?_) (fun _ => ?_) | intro _ | (fail_if_no_progress with_reducible refine Kept.upd_of hp ?_ ?_ ?_ ?_ ?_ ?_ ?_ ?_ ?_ ?_ ?_ ?_ ?_ ?_ ?_ ?_ ?_ rfl rfl <;> try first | exact Or.inr rfl | exact Or.inl (by decide)) | (simp only [id_eq]; assumption) | dsimp only | split

theorem Kept.mountStage (h : Kept p a s) (hp : Part.sub { Part.alarms with tst := true } p = true := by first | decide | (refine Part.sub_of (by assumption) ?_; decide)) : Kept p a (State.mountStage s x1) := by
  unfold State.mountStage
  repeat' first | with_reducible assumption | exact Part.sub_of hp (by decide) | with_reducible apply Kept.stageTo | with_reducible apply Kept.authRestore | with_reducible apply Kept.mount | with_reducible apply Kept.foldl | with_reducible apply Kept.each | with_reducible refine Kept.ite (fun _ => ?_) (fun _ => ?_) | intro _ | (fail_if_no_progress with_reducible refine Kept.upd_of hp ?_ ?_ ?_ ?_ ?_ ?_ ?_ ?_ ?_ ?_ ?_ ?_ ?_ ?_ ?_ ?_ ?_ rfl rfl <;> try first | exact Or.inr rfl | exact Or.inl (by decide)) | (simp only [id_eq]; assumption) | dsimp only | split

theorem Kept.mpAnswer (h : Kept p a s) (hp : Part.sub { hif := true } p = true := by first | decide | (refine Part.sub_of (by assumption) ?_; decide)) : Kept p a (State.mpAnswer s x1 x2) := by
  unfold State.mpAnswer
  repeat' first | with_reducible assumption | exact Part.sub_of hp (by decide) | with_reducible apply Kept.foldl | with_reducible apply Kept.each | with_reducible refine Kept.ite (fun _ => ?_) (fun _ => ?_) | intro _ | (fail_if_no_progress with_reducible refine Kept.upd_of hp ?_ ?_ ?_ ?_ ?_ ?_ ?_ ?_ ?_ ?_ ?_ ?_ ?_ ?_ ?_ ?_ ?_ rfl rfl <;> try first | exact Or.inr rfl | exact Or.inl (by decide)) | (simp only [id_eq]; assumption) | dsimp only | split

theorem Kept.mpFrame {f : State → State} (hf : Kept p a (f s)) (h : Kept p a s) (hp : Part.sub Part.alarms p = true := by first | decide | (refine Part.sub_of (by assumption) ?_; decide))  : Kept p a (s.mpFrame x1 x2 x3 f) := by
  unfold State.mpFrame
  split
  · exact h
  · split
    · exact Kept.mpAnswer (Kept.raise (Kept.of hp h))
    · exact hf

theorem Kept.mpBad (h : Kept p a s) (hp : Part.sub Part.alarms p = true := by first | decide | (refine Part.sub_of (by assumption) ?_; decide)) : Kept p a (State.mpBad s x1 x2 x3) := by
  unfold State.mpBad
  repeat' first | with_reducible assumption | exact Part.sub_of hp (by decide) | with_reducible apply Kept.mpFrame | with_reducible apply Kept.mpAnswer | with_reducible apply Kept.foldl | with_reducible apply Kept.each | with_reducible refine Kept.ite (fun _ => ?_) (fun _ => ?_) | intro _ | (fail_if_no_progress with_reducible refine Kept.upd_of hp ?_ ?_ ?_ ?_ ?_ ?_ ?_ ?_ ?_ ?_ ?_ ?_ ?_ ?_ ?_ ?_ ?_ rfl rfl <;> try first | exact Or.inr rfl | exact Or.inl (by decide)) | (simp only [id_eq]; assumption) | dsimp only | split

theorem Kept.mpForce (h : Kept p a s) (hp : Part.sub Part.alarms p = true := by first | decide | (refine Part.sub_of (by assumption) ?_; decide)) : Kept p a (State.mpForce s x1 x2) := by
  unfold State.mpForce
  repeat' first | with_reducible assumption | exact Part.sub_of hp (by decide) | with_reducible apply Kept.mpFrame | with_reducible apply Kept.mpAnswer | with_reducible apply Kept.irqEdge | with_reducible apply Kept.winterSet | with_reducible apply Kept.foldl | with_reducible apply Kept.each | with_reducible refine Kept.ite (fun _ => ?_) (fun _ => ?_) | intro _ | (fail_if_no_progress with_reducible refine Kept.upd_of hp ?_ ?_ ?_ ?_ ?_ ?_ ?_ ?_ ?_ ?_ ?_ ?_ ?_ ?_ ?_ ?_ ?_ rfl rfl <;> try first | exact Or.inr rfl | exact Or.inl (by decide)) | (simp only [id_eq]; assumption) | dsimp only | split

theorem Kept.mpIdent (h : Kept p a s) (hp : Part.sub Part.alarms p = true := by first | decide | (refine Part.sub_of (by assumption) ?_; decide)) : Kept p a (State.mpIdent s x1) := by
  unfold State.mpIdent
  repeat' first | with_reducible assumption | exact Part.sub_of hp (by decide) | with_reducible apply Kept.mpFrame | with_reducible apply Kept.mpAnswer | with_reducible apply Kept.foldl | with_reducible apply Kept.each | with_reducible refine Kept.ite (fun _ => ?_) (fun _ => ?_) | intro _ | (fail_if_no_progress with_reducible refine Kept.upd_of hp ?_ ?_ ?_ ?_ ?_ ?_ ?_ ?_ ?_ ?_ ?_ ?_ ?_ ?_ ?_ ?_ ?_ rfl rfl <;> try first | exact Or.inr rfl | exact Or.inl (by decide)) | (simp only [id_eq]; assumption) | dsimp only | split

theorem Kept.readReg (h : Kept p a s) (hp : Part.sub { hif := true } p = true := by first | decide | (refine Part.sub_of (by assumption) ?_; decide))  : Kept p a (s.readReg x1 x2).2 := by
  unfold State.readReg
  dsimp only
  split
  · exact Kept.of hp h
  · exact h

theorem Kept.portRead (h : Kept p a s) (hp : Part.sub { hif := true } p = true := by first | decide | (refine Part.sub_of (by assumption) ?_; decide))  : Kept p a (s.portRead x1 x2) := by
  have := Kept.readReg (x1 := x1) (x2 := x2) h
  exact Kept.of hp this

theorem Kept.mpRead32 (h : Kept p a s) (hp : Part.sub Part.alarms p = true := by first | decide | (refine Part.sub_of (by assumption) ?_; decide)) : Kept p a (State.mpRead32 s x1 x2) := by
  unfold State.mpRead32
  repeat' first | with_reducible assumption | exact Part.sub_of hp (by decide) | with_reducible apply Kept.mpFrame | with_reducible apply Kept.mpAnswer | with_reducible apply Kept.portRead | with_reducible apply Kept.foldl | with_reducible apply Kept.each | with_reducible refine Kept.ite (fun _ => ?_) (fun _ => ?_) | intro _ | (fail_if_no_progress with_reducible refine Kept.upd_of hp ?_ ?_ ?_ ?_ ?_ ?_ ?_ ?_ ?_ ?_ ?_ ?_ ?_ ?_ ?_ ?_ ?_ rfl rfl <;> try first | exact Or.inr rfl | exact Or.inl (by decide)) | (simp only [id_eq]; assumption) | dsimp only | split

theorem Kept.mpRecCursor (h : Kept p a s) (hp : Part.sub Part.alarms p = true := by first | decide | (refine Part.sub_of (by assumption) ?_; decide)) : Kept p a (State.mpRecCursor s x1 x2) := by
  unfold State.mpRecCursor
  repeat' first | with_reducible assumption | exact Part.sub_of hp (by decide) | with_reducible apply Kept.mpFrame | with_reducible apply Kept.mpAnswer | with_reducible apply Kept.foldl | with_reducible apply Kept.each | with_reducible refine Kept.ite (fun _ => ?_) (fun _ => ?_) | intro _ | (fail_if_no_progress with_reducible refine Kept.upd_of hp ?_ ?_ ?_ ?_ ?_ ?_ ?_ ?_ ?_ ?_ ?_ ?_ ?_ ?_ ?_ ?_ ?_ rfl rfl <;> try first | exact Or.inr rfl | exact Or.inl (by decide)) | (simp only [id_eq]; assumption) | dsimp only | split

theorem Kept.mpRecRead (h : Kept p a s) (hp : Part.sub Part.alarms p = true := by first | decide | (refine Part.sub_of (by assumption) ?_; decide)) : Kept p a (State.mpRecRead s x1 x2) := by
  unfold State.mpRecRead
  repeat' first | with_reducible assumption | exact Part.sub_of hp (by decide) | with_reducible apply Kept.mpFrame | with_reducible apply Kept.mpAnswer | with_reducible apply Kept.foldl | with_reducible apply Kept.each | with_reducible refine Kept.ite (fun _ => ?_) (fun _ => ?_) | intro _ | (fail_if_no_progress with_reducible refine Kept.upd_of hp ?_ ?_ ?_ ?_ ?_ ?_ ?_ ?_ ?_ ?_ ?_ ?_ ?_ ?_ ?_ ?_ ?_ rfl rfl <;> try first | exact Or.inr rfl | exact Or.inl (by decide)) | (simp only [id_eq]; assumption) | dsimp only | split

theorem Kept.mpWithdraw (h : Kept p a s) (hp : Part.sub Part.alarms p = true := by first | decide | (refine Part.sub_of (by assumption) ?_; decide)) : Kept p a (State.mpWithdraw s x1 x2) := by
  unfold State.mpWithdraw
  repeat' first | with_reducible assumption | exact Part.sub_of hp (by decide) | with_reducible apply Kept.mpFrame | with_reducible apply Kept.mpAnswer | with_reducible apply Kept.irqEdge | with_reducible apply Kept.clearCause | with_reducible apply Kept.foldl | with_reducible apply Kept.each | with_reducible refine Kept.ite (fun _ => ?_) (fun _ => ?_) | intro _ | (fail_if_no_progress with_reducible refine Kept.upd_of hp ?_ ?_ ?_ ?_ ?_ ?_ ?_ ?_ ?_ ?_ ?_ ?_ ?_ ?_ ?_ ?_ ?_ rfl rfl <;> try first | exact Or.inr rfl | exact Or.inl (by decide)) | (simp only [id_eq]; assumption) | dsimp only | split

theorem Kept.msgRetransmit (h : Kept p a s) (hp : Part.sub { jl := true } p = true := by first | decide | (refine Part.sub_of (by assumption) ?_; decide)) : Kept p a (State.msgRetransmit s x1) := by
  unfold State.msgRetransmit
  repeat' first | with_reducible assumption | exact Part.sub_of hp (by decide) | with_reducible apply Kept.retransmit | with_reducible apply Kept.foldl | with_reducible apply Kept.each | with_reducible refine Kept.ite (fun _ => ?_) (fun _ => ?_) | intro _ | (fail_if_no_progress with_reducible refine Kept.upd_of hp ?_ ?_ ?_ ?_ ?_ ?_ ?_ ?_ ?_ ?_ ?_ ?_ ?_ ?_ ?_ ?_ ?_ rfl rfl <;> try first | exact Or.inr rfl | exact Or.inl (by decide)) | (simp only [id_eq]; assumption) | dsimp only | split

theorem Kept.netReadback (h : Kept p a s) (hp : Part.sub Part.alarms p = true := by first | decide | (refine Part.sub_of (by assumption) ?_; decide)) : Kept p a (State.netReadback s x1 x2) := by
  unfold State.netReadback
  repeat' first | with_reducible assumption | exact Part.sub_of hp (by decide) | with_reducible apply Kept.each | with_reducible apply Kept.winterSet | with_reducible apply Kept.raise | with_reducible apply Kept.foldl | with_reducible apply Kept.each | with_reducible refine Kept.ite (fun _ => ?_) (fun _ => ?_) | intro _ | (fail_if_no_progress with_reducible refine Kept.upd_of hp ?_ ?_ ?_ ?_ ?_ ?_ ?_ ?_ ?_ ?_ ?_ ?_ ?_ ?_ ?_ ?_ ?_ rfl rfl <;> try first | exact Or.inr rfl | exact Or.inl (by decide)) | (simp only [id_eq]; assumption) | dsimp only | split

theorem Kept.updRxDet (h : Kept p a s) (hp : Part.sub { prot := true } p = true := by first | decide | (refine Part.sub_of (by assumption) ?_; decide)) : Kept p a (State.updRxDet s x1 x2) := by
  unfold State.updRxDet
  repeat' first | with_reducible assumption | exact Part.sub_of hp (by decide) | with_reducible apply Kept.foldl | with_reducible apply Kept.each | with_reducible refine Kept.ite (fun _ => ?_) (fun _ => ?_) | intro _ | (fail_if_no_progress with_reducible refine Kept.upd_of hp ?_ ?_ ?_ ?_ ?_ ?_ ?_ ?_ ?_ ?_ ?_ ?_ ?_ ?_ ?_ ?_ ?_ rfl rfl <;> try first | exact Or.inr rfl | exact Or.inl (by decide)) | (simp only [id_eq]; assumption) | dsimp only | split

theorem Kept.nriseStep (h : Kept p a s) (hp : Part.sub Part.alarms p = true := by first | decide | (refine Part.sub_of (by assumption) ?_; decide)) : Kept p a (State.nriseStep s x1) := by
  unfold State.nriseStep
  repeat' first | with_reducible assumption | exact Part.sub_of hp (by decide) | with_reducible apply Kept.updRxDet | with_reducible apply Kept.each | with_reducible apply Kept.updGain | with_reducible apply Kept.capAll | with_reducible apply Kept.raise | with_reducible apply Kept.winterSet | with_reducible apply Kept.foldl | with_reducible apply Kept.each | with_reducible refine Kept.ite (fun _ => ?_) (fun _ => ?_) | intro _ | (fail_if_no_progress with_reducible refine Kept.upd_of hp ?_ ?_ ?_ ?_ ?_ ?_ ?_ ?_ ?_ ?_ ?_ ?_ ?_ ?_ ?_ ?_ ?_ rfl rfl <;> try first | exact Or.inr rfl | exact Or.inl (by decide)) | (simp only [id_eq]; assumption) | dsimp only | split

theorem Kept.nriseEval (h : Kept p a s) (hp : Part.sub Part.alarms p = true := by first | decide | (refine Part.sub_of (by assumption) ?_; decide)) : Kept p a (State.nriseEval s x1 x2) := by
  unfold State.nriseEval
  repeat' first | with_reducible assumption | exact Part.sub_of hp (by decide) | with_reducible apply Kept.updRxDet | with_reducible apply Kept.capAll | with_reducible apply Kept.each | with_reducible apply Kept.clearCause | with_reducible apply Kept.updGain | with_reducible apply Kept.nriseStep | with_reducible apply Kept.foldl | with_reducible apply Kept.each | with_reducible refine Kept.ite (fun _ => ?_) (fun _ => ?_) | intro _ | (fail_if_no_progress with_reducible refine Kept.upd_of hp ?_ ?_ ?_ ?_ ?_ ?_ ?_ ?_ ?_ ?_ ?_ ?_ ?_ ?_ ?_ ?_ ?_ rfl rfl <;> try first | exact Or.inr rfl | exact Or.inl (by decide)) | (simp only [id_eq]; assumption) | dsimp only | split

theorem Kept.oobeWindow (h : Kept p a s) (hp : Part.sub { Part.alarms with rfe := true } p = true := by first | decide | (refine Part.sub_of (by assumption) ?_; decide)) : Kept p a (State.oobeWindow s x1 x2) := by
  unfold State.oobeWindow
  repeat' first | with_reducible assumption | exact Part.sub_of hp (by decide) | with_reducible apply Kept.updNet | with_reducible apply Kept.devStep | with_reducible apply Kept.raise | with_reducible apply Kept.winterSet | with_reducible apply Kept.foldl | with_reducible apply Kept.each | with_reducible refine Kept.ite (fun _ => ?_) (fun _ => ?_) | intro _ | (fail_if_no_progress with_reducible refine Kept.upd_of hp ?_ ?_ ?_ ?_ ?_ ?_ ?_ ?_ ?_ ?_ ?_ ?_ ?_ ?_ ?_ ?_ ?_ rfl rfl <;> try first | exact Or.inr rfl | exact Or.inl (by decide)) | (simp only [id_eq]; assumption) | dsimp only | split

theorem Kept.oscSlot (h : Kept p a s) (hp : Part.sub Part.alarms p = true := by first | decide | (refine Part.sub_of (by assumption) ?_; decide)) : Kept p a (State.oscSlot s x1 x2) := by
  unfold State.oscSlot
  repeat' first | with_reducible assumption | exact Part.sub_of hp (by decide) | with_reducible apply Kept.updObj | with_reducible apply Kept.oscEntry | with_reducible apply Kept.foldl | with_reducible apply Kept.each | with_reducible refine Kept.ite (fun _ => ?_) (fun _ => ?_) | intro _ | (fail_if_no_progress with_reducible refine Kept.upd_of hp ?_ ?_ ?_ ?_ ?_ ?_ ?_ ?_ ?_ ?_ ?_ ?_ ?_ ?_ ?_ ?_ ?_ rfl rfl <;> try first | exact Or.inr rfl | exact Or.inl (by decide)) | (simp only [id_eq]; assumption) | dsimp only | split

theorem Kept.oscWindow (h : Kept p a s) (hp : Part.sub Part.alarms p = true := by first | decide | (refine Part.sub_of (by assumption) ?_; decide)) : Kept p a (State.oscWindow s x1 x2) := by
  unfold State.oscWindow
  repeat' first | with_reducible assumption | exact Part.sub_of hp (by decide) | with_reducible apply Kept.updRxDet | with_reducible apply Kept.each | with_reducible apply Kept.oscSlot | with_reducible apply Kept.foldl | with_reducible apply Kept.each | with_reducible refine Kept.ite (fun _ => ?_) (fun _ => ?_) | intro _ | (fail_if_no_progress with_reducible refine Kept.upd_of hp ?_ ?_ ?_ ?_ ?_ ?_ ?_ ?_ ?_ ?_ ?_ ?_ ?_ ?_ ?_ ?_ ?_ rfl rfl <;> try first | exact Or.inr rfl | exact Or.inl (by decide)) | (simp only [id_eq]; assumption) | dsimp only | split

theorem Kept.raiseOvr (h : Kept p a s) (hp : Part.sub Part.alarms p = true := by first | decide | (refine Part.sub_of (by assumption) ?_; decide)) : Kept p a (State.raiseOvr s x1 x2) := by
  unfold State.raiseOvr
  dsimp only
  have h1 : Kept p a ((s.checkPolicy).checkCopies 14) := Kept.checkCopies (Kept.checkPolicy h hp) hp
  generalize (s.checkPolicy).checkCopies 14 = u at h1 ⊢
  generalize hw : State.occurWith State.record _ _ _ _ = w
  have hr : KeptRec p State.record := Kept.record_rec hp
  have h2 : Kept p a w := hw ▸ Kept.occurWith hr (Kept.of hp h1) hp
  exact Kept.of hp h2

theorem Kept.overrun (h : Kept p a s) (hp : Part.sub { Part.alarms with le := true } p = true := by first | decide | (refine Part.sub_of (by assumption) ?_; decide)) : Kept p a (State.overrun s x1 x2) := by
  unfold State.overrun
  repeat' first | with_reducible assumption | exact Part.sub_of hp (by decide) | with_reducible apply Kept.updEng | with_reducible apply Kept.updTask | with_reducible apply Kept.raise | with_reducible apply Kept.each | with_reducible apply Kept.updObj | with_reducible apply Kept.winterSet | with_reducible apply Kept.raiseOvr | with_reducible apply Kept.foldl | with_reducible apply Kept.each | with_reducible refine Kept.ite (fun _ => ?_) (fun _ => ?_) | intro _ | (fail_if_no_progress with_reducible refine Kept.upd_of hp ?_ ?_ ?_ ?_ ?_ ?_ ?_ ?_ ?_ ?_ ?_ ?_ ?_ ?_ ?_ ?_ ?_ rfl rfl <;> try first | exact Or.inr rfl | exact Or.inl (by decide)) | (simp only [id_eq]; assumption) | dsimp only | split

theorem Kept.owe (h : Kept p a s) (hp : Part.sub { jl := true } p = true := by first | decide | (refine Part.sub_of (by assumption) ?_; decide)) : Kept p a (State.owe s x1 x2) := by
  unfold State.owe
  repeat' first | with_reducible assumption | exact Part.sub_of hp (by decide) | with_reducible apply Kept.owedCheck | with_reducible apply Kept.foldl | with_reducible apply Kept.each | with_reducible refine Kept.ite (fun _ => ?_) (fun _ => ?_) | intro _ | (fail_if_no_progress with_reducible refine Kept.upd_of hp ?_ ?_ ?_ ?_ ?_ ?_ ?_ ?_ ?_ ?_ ?_ ?_ ?_ ?_ ?_ ?_ ?_ rfl rfl <;> try first | exact Or.inr rfl | exact Or.inl (by decide)) | (simp only [id_eq]; assumption) | dsimp only | split

theorem Kept.periodicFlush (h : Kept p a s) (hp : Part.sub { recd := true } p = true := by first | decide | (refine Part.sub_of (by assumption) ?_; decide)) : Kept p a (State.periodicFlush s) := by
  unfold State.periodicFlush
  repeat' first | with_reducible assumption | exact Part.sub_of hp (by decide) | with_reducible apply Kept.flushStart | with_reducible apply Kept.askFlush | with_reducible apply Kept.foldl | with_reducible apply Kept.each | with_reducible refine Kept.ite (fun _ => ?_) (fun _ => ?_) | intro _ | (fail_if_no_progress with_reducible refine Kept.upd_of hp ?_ ?_ ?_ ?_ ?_ ?_ ?_ ?_ ?_ ?_ ?_ ?_ ?_ ?_ ?_ ?_ ?_ rfl rfl <;> try first | exact Or.inr rfl | exact Or.inl (by decide)) | (simp only [id_eq]; assumption) | dsimp only | split

theorem Kept.perstRise (h : Kept p a s) (hp : Part.sub { tst := true } p = true := by first | decide | (refine Part.sub_of (by assumption) ?_; decide)) : Kept p a (State.perstRise s) := by
  unfold State.perstRise
  repeat' first | with_reducible assumption | exact Part.sub_of hp (by decide) | with_reducible apply Kept.foldl | with_reducible apply Kept.each | with_reducible refine Kept.ite (fun _ => ?_) (fun _ => ?_) | intro _ | (fail_if_no_progress with_reducible refine Kept.upd_of hp ?_ ?_ ?_ ?_ ?_ ?_ ?_ ?_ ?_ ?_ ?_ ?_ ?_ ?_ ?_ ?_ ?_ rfl rfl <;> try first | exact Or.inr rfl | exact Or.inl (by decide)) | (simp only [id_eq]; assumption) | dsimp only | split

theorem Kept.pfailFall (h : Kept p a s) (hp : Part.sub { intc := true, recd := true } p = true := by first | decide | (refine Part.sub_of (by assumption) ?_; decide))  : Kept p a s.pfailFall := by
  unfold State.pfailFall
  dsimp only
  split
  · exact Kept.of hp (Kept.irqEdge h)
  · exact Kept.askFlush (Kept.of hp (Kept.summaries (Kept.bufferEnter (Kept.irqEdge h))))

theorem Kept.pfailReturn (h : Kept p a s) (hp : Part.sub Part.alarms p = true := by first | decide | (refine Part.sub_of (by assumption) ?_; decide)) : Kept p a (State.pfailReturn s) := by
  unfold State.pfailReturn
  repeat' first | with_reducible assumption | with_reducible apply Kept.record | exact Kept.record_rec | exact Part.sub_of hp (by decide) | with_reducible apply Kept.foldl | with_reducible apply Kept.each | with_reducible refine Kept.ite (fun _ => ?_) (fun _ => ?_) | intro _ | (fail_if_no_progress with_reducible refine Kept.upd_of hp ?_ ?_ ?_ ?_ ?_ ?_ ?_ ?_ ?_ ?_ ?_ ?_ ?_ ?_ ?_ ?_ ?_ rfl rfl <;> try first | exact Or.inr rfl | exact Or.inl (by decide)) | (simp only [id_eq]; assumption) | dsimp only | split

theorem Kept.powerApply (h : Kept p a s) (hp : Part.sub { hif := true, intc := true, recd := true, rfe := true, cx := true, gcl := true, jl := true } p = true := by first | decide | (refine Part.sub_of (by assumption) ?_; decide)) : Kept p a (State.powerApply s x1) := by
  unfold State.powerApply
  repeat' first | with_reducible assumption | exact Part.sub_of hp (by decide) | with_reducible apply Kept.applyPower | with_reducible apply Kept.updTx | with_reducible apply Kept.completeId | with_reducible apply Kept.updPend | with_reducible apply Kept.foldl | with_reducible apply Kept.each | with_reducible refine Kept.ite (fun _ => ?_) (fun _ => ?_) | intro _ | (fail_if_no_progress with_reducible refine Kept.upd_of hp ?_ ?_ ?_ ?_ ?_ ?_ ?_ ?_ ?_ ?_ ?_ ?_ ?_ ?_ ?_ ?_ ?_ rfl rfl <;> try first | exact Or.inr rfl | exact Or.inl (by decide)) | (simp only [id_eq]; assumption) | dsimp only | split

theorem Kept.tileProofs (h : Kept p a s) (hp : Part.sub Part.alarms p = true := by first | decide | (refine Part.sub_of (by assumption) ?_; decide)) : Kept p a (State.tileProofs s x1 x2 x3) := by
  unfold State.tileProofs
  repeat' first | with_reducible assumption | exact Part.sub_of hp (by decide) | with_reducible apply Kept.each | with_reducible apply Kept.updObj | with_reducible apply Kept.chainProofs | with_reducible apply Kept.foldl | with_reducible apply Kept.each | with_reducible refine Kept.ite (fun _ => ?_) (fun _ => ?_) | intro _ | (fail_if_no_progress with_reducible refine Kept.upd_of hp ?_ ?_ ?_ ?_ ?_ ?_ ?_ ?_ ?_ ?_ ?_ ?_ ?_ ?_ ?_ ?_ ?_ rfl rfl <;> try first | exact Or.inr rfl | exact Or.inl (by decide)) | (simp only [id_eq]; assumption) | dsimp only | split

theorem Kept.proofStage (h : Kept p a s) (hp : Part.sub { Part.alarms with tst := true } p = true := by first | decide | (refine Part.sub_of (by assumption) ?_; decide)) : Kept p a (State.proofStage s x1 x2) := by
  unfold State.proofStage
  repeat' first | with_reducible assumption | exact Part.sub_of hp (by decide) | with_reducible apply Kept.updObj | with_reducible apply Kept.tileProofs | with_reducible apply Kept.foldl | with_reducible apply Kept.each | with_reducible refine Kept.ite (fun _ => ?_) (fun _ => ?_) | intro _ | (fail_if_no_progress with_reducible refine Kept.upd_of hp ?_ ?_ ?_ ?_ ?_ ?_ ?_ ?_ ?_ ?_ ?_ ?_ ?_ ?_ ?_ ?_ ?_ rfl rfl <;> try first | exact Or.inr rfl | exact Or.inl (by decide)) | (simp only [id_eq]; assumption) | dsimp only | split

theorem Kept.resetBlocks (h : Kept p a s) (hp : Part.sub { Part.alarms with rfe := true, cxPol := true, luts := true, tim := true, le := true, jl := true, tst := true } p = true := by first | decide | (refine Part.sub_of (by assumption) ?_; decide)) : Kept p a (State.resetBlocks s) := by
  unfold State.resetBlocks
  repeat' first | with_reducible assumption | exact Part.sub_of hp (by decide) | with_reducible apply Kept.foldl | with_reducible apply Kept.each | with_reducible refine Kept.ite (fun _ => ?_) (fun _ => ?_) | intro _ | (fail_if_no_progress with_reducible refine Kept.upd_of hp ?_ ?_ ?_ ?_ ?_ ?_ ?_ ?_ ?_ ?_ ?_ ?_ ?_ ?_ ?_ ?_ ?_ rfl rfl <;> try first | exact Or.inr rfl | exact Or.inl (by decide)) | (simp only [id_eq]; assumption) | dsimp only | split

theorem Kept.resetFall (h : Kept p a s) (hp : Part.sub { Part.alarms with rfe := true, cxPol := true, luts := true, tim := true, le := true, jl := true, tst := true } p = true := by first | decide | (refine Part.sub_of (by assumption) ?_; decide)) : Kept p a (State.resetFall s) := by
  unfold State.resetFall
  repeat' first | with_reducible assumption | exact Part.sub_of hp (by decide) | with_reducible apply Kept.resetBlocks | with_reducible apply Kept.foldl | with_reducible apply Kept.each | with_reducible refine Kept.ite (fun _ => ?_) (fun _ => ?_) | intro _ | (fail_if_no_progress with_reducible refine Kept.upd_of hp ?_ ?_ ?_ ?_ ?_ ?_ ?_ ?_ ?_ ?_ ?_ ?_ ?_ ?_ ?_ ?_ ?_ rfl rfl <;> try first | exact Or.inr rfl | exact Or.inl (by decide)) | (simp only [id_eq]; assumption) | dsimp only | split

theorem Kept.railDown (h : Kept p a s) (hp : Part.sub { Part.alarms with rfe := true, cxPol := true, luts := true, tim := true, le := true, jl := true, tst := true } p = true := by first | decide | (refine Part.sub_of (by assumption) ?_; decide)) : Kept p a (State.railDown s) := by
  unfold State.railDown
  repeat' first | with_reducible assumption | exact Part.sub_of hp (by decide) | with_reducible apply Kept.resetFall | with_reducible apply Kept.foldl | with_reducible apply Kept.each | with_reducible refine Kept.ite (fun _ => ?_) (fun _ => ?_) | intro _ | (fail_if_no_progress with_reducible refine Kept.upd_of hp ?_ ?_ ?_ ?_ ?_ ?_ ?_ ?_ ?_ ?_ ?_ ?_ ?_ ?_ ?_ ?_ ?_ rfl rfl <;> try first | exact Or.inr rfl | exact Or.inl (by decide)) | (simp only [id_eq]; assumption) | dsimp only | split

theorem Kept.springStart (h : Kept p a s) (hp : Part.sub { Part.alarms with rfe := true, cxPol := true, luts := true, tim := true, le := true, jl := true, tst := true } p = true := by first | decide | (refine Part.sub_of (by assumption) ?_; decide)) : Kept p a (State.springStart s) := by
  unfold State.springStart
  repeat' first | with_reducible assumption | exact Part.sub_of hp (by decide) | with_reducible apply Kept.resetBlocks | with_reducible apply Kept.updObj | with_reducible apply Kept.foldl | with_reducible apply Kept.each | with_reducible refine Kept.ite (fun _ => ?_) (fun _ => ?_) | intro _ | (fail_if_no_progress with_reducible refine Kept.upd_of hp ?_ ?_ ?_ ?_ ?_ ?_ ?_ ?_ ?_ ?_ ?_ ?_ ?_ ?_ ?_ ?_ ?_ rfl rfl <;> try first | exact Or.inr rfl | exact Or.inl (by decide)) | (simp only [id_eq]; assumption) | dsimp only | split

theorem Kept.railUp (h : Kept p a s) (hp : Part.sub { Part.alarms with rfe := true, cxPol := true, luts := true, tim := true, le := true, jl := true, tst := true } p = true := by first | decide | (refine Part.sub_of (by assumption) ?_; decide)) : Kept p a (State.railUp s) := by
  unfold State.railUp
  repeat' first | with_reducible assumption | exact Part.sub_of hp (by decide) | with_reducible apply Kept.springStart | with_reducible apply Kept.foldl | with_reducible apply Kept.each | with_reducible refine Kept.ite (fun _ => ?_) (fun _ => ?_) | intro _ | (fail_if_no_progress with_reducible refine Kept.upd_of hp ?_ ?_ ?_ ?_ ?_ ?_ ?_ ?_ ?_ ?_ ?_ ?_ ?_ ?_ ?_ ?_ ?_ rfl rfl <;> try first | exact Or.inr rfl | exact Or.inl (by decide)) | (simp only [id_eq]; assumption) | dsimp only | split

theorem Kept.rcClear (h : Kept p a s) (hp : Part.sub { Part.alarms with rfe := true, tim := true, le := true, jl := true } p = true := by first | decide | (refine Part.sub_of (by assumption) ?_; decide)) : Kept p a (State.rcClear s x1) := by
  unfold State.rcClear
  repeat' first | with_reducible assumption | exact Part.sub_of hp (by decide) | with_reducible apply Kept.updTr | with_reducible apply Kept.updVec | with_reducible apply Kept.updTile | with_reducible apply Kept.updSched | with_reducible apply Kept.updTx | with_reducible apply Kept.updSlot | with_reducible apply Kept.updInst | with_reducible apply Kept.updGain | with_reducible apply Kept.updRxDet | with_reducible apply Kept.updTask | with_reducible apply Kept.updPort | with_reducible apply Kept.updStrm | with_reducible apply Kept.foldl | with_reducible apply Kept.each | with_reducible refine Kept.ite (fun _ => ?_) (fun _ => ?_) | intro _ | (fail_if_no_progress with_reducible refine Kept.upd_of hp ?_ ?_ ?_ ?_ ?_ ?_ ?_ ?_ ?_ ?_ ?_ ?_ ?_ ?_ ?_ ?_ ?_ rfl rfl <;> try first | exact Or.inr rfl | exact Or.inl (by decide)) | (simp only [id_eq]; assumption) | dsimp only | split

theorem Kept.unsupported (h : Kept p a s) (hp : Part.sub { hif := true } p = true := by first | decide | (refine Part.sub_of (by assumption) ?_; decide)) : Kept p a (State.unsupported s) := by
  unfold State.unsupported
  repeat' first | with_reducible assumption | exact Part.sub_of hp (by decide) | with_reducible apply Kept.foldl | with_reducible apply Kept.each | with_reducible refine Kept.ite (fun _ => ?_) (fun _ => ?_) | intro _ | (fail_if_no_progress with_reducible refine Kept.upd_of hp ?_ ?_ ?_ ?_ ?_ ?_ ?_ ?_ ?_ ?_ ?_ ?_ ?_ ?_ ?_ ?_ ?_ rfl rfl <;> try first | exact Or.inr rfl | exact Or.inl (by decide)) | (simp only [id_eq]; assumption) | dsimp only | split

theorem Kept.readClear (h : Kept p a s) (hp : Part.sub { Part.alarms with rfe := true, tim := true, le := true, jl := true } p = true := by first | decide | (refine Part.sub_of (by assumption) ?_; decide)) : Kept p a (State.readClear s x1) := by
  unfold State.readClear
  repeat' first | with_reducible assumption | exact Part.sub_of hp (by decide) | with_reducible apply Kept.intcClaim | with_reducible apply Kept.rcClear | with_reducible apply Kept.portRead | with_reducible apply Kept.unsupported | with_reducible apply Kept.foldl | with_reducible apply Kept.each | with_reducible refine Kept.ite (fun _ => ?_) (fun _ => ?_) | intro _ | (fail_if_no_progress with_reducible refine Kept.upd_of hp ?_ ?_ ?_ ?_ ?_ ?_ ?_ ?_ ?_ ?_ ?_ ?_ ?_ ?_ ?_ ?_ ?_ rfl rfl <;> try first | exact Or.inr rfl | exact Or.inl (by decide)) | (simp only [id_eq]; assumption) | dsimp only | split

theorem Kept.recEntryLost (h : Kept p a s) (hp : Part.sub { recd := true } p = true := by first | decide | (refine Part.sub_of (by assumption) ?_; decide)) : Kept p a (State.recEntryLost s x1) := by
  unfold State.recEntryLost
  repeat' first | with_reducible assumption | exact Part.sub_of hp (by decide) | with_reducible apply Kept.foldl | with_reducible apply Kept.each | with_reducible refine Kept.ite (fun _ => ?_) (fun _ => ?_) | intro _ | (fail_if_no_progress with_reducible refine Kept.upd_of hp ?_ ?_ ?_ ?_ ?_ ?_ ?_ ?_ ?_ ?_ ?_ ?_ ?_ ?_ ?_ ?_ ?_ rfl rfl <;> try first | exact Or.inr rfl | exact Or.inl (by decide)) | (simp only [id_eq]; assumption) | dsimp only | split

theorem Kept.referenceLoss (h : Kept p a s) (hp : Part.sub { Part.alarms with rfe := true, tim := true } p = true := by first | decide | (refine Part.sub_of (by assumption) ?_; decide)) : Kept p a (State.referenceLoss s x1 x2) := by
  unfold State.referenceLoss
  repeat' first | with_reducible assumption | exact Part.sub_of hp (by decide) | with_reducible apply Kept.each | with_reducible apply Kept.raise | with_reducible apply Kept.ckDrop | with_reducible apply Kept.foldl | with_reducible apply Kept.each | with_reducible refine Kept.ite (fun _ => ?_) (fun _ => ?_) | intro _ | (fail_if_no_progress with_reducible refine Kept.upd_of hp ?_ ?_ ?_ ?_ ?_ ?_ ?_ ?_ ?_ ?_ ?_ ?_ ?_ ?_ ?_ ?_ ?_ rfl rfl <;> try first | exact Or.inr rfl | exact Or.inl (by decide)) | (simp only [id_eq]; assumption) | dsimp only | split

theorem Kept.referenceReturn (h : Kept p a s) (hp : Part.sub { rfe := true, tim := true } p = true := by first | decide | (refine Part.sub_of (by assumption) ?_; decide)) : Kept p a (State.referenceReturn s x1) := by
  unfold State.referenceReturn
  repeat' first | with_reducible assumption | exact Part.sub_of hp (by decide) | with_reducible apply Kept.each | with_reducible apply Kept.updTile | with_reducible apply Kept.foldl | with_reducible apply Kept.each | with_reducible refine Kept.ite (fun _ => ?_) (fun _ => ?_) | intro _ | (fail_if_no_progress with_reducible refine Kept.upd_of hp ?_ ?_ ?_ ?_ ?_ ?_ ?_ ?_ ?_ ?_ ?_ ?_ ?_ ?_ ?_ ?_ ?_ rfl rfl <;> try first | exact Or.inr rfl | exact Or.inl (by decide)) | (simp only [id_eq]; assumption) | dsimp only | split

theorem Kept.regWrite (h : Kept p a s) (hp : Part.sub { Part.alarms with rfe := true, cxPol := true, tim := true, jl := true, tst := true } p = true := by first | decide | (refine Part.sub_of (by assumption) ?_; decide)) : Kept p a (State.regWrite s x1 x2 x3) := by
  unfold State.regWrite
  repeat' first | with_reducible assumption | exact Part.sub_of hp (by decide) | with_reducible apply Kept.bar0Write | with_reducible apply Kept.unsupported | with_reducible apply Kept.bar2Write | with_reducible apply Kept.busMasterOn | with_reducible apply Kept.busMasterOff | with_reducible apply Kept.foldl | with_reducible apply Kept.each | with_reducible refine Kept.ite (fun _ => ?_) (fun _ => ?_) | intro _ | (fail_if_no_progress with_reducible refine Kept.upd_of hp ?_ ?_ ?_ ?_ ?_ ?_ ?_ ?_ ?_ ?_ ?_ ?_ ?_ ?_ ?_ ?_ ?_ rfl rfl <;> try first | exact Or.inr rfl | exact Or.inl (by decide)) | (simp only [id_eq]; assumption) | dsimp only | split

theorem Kept.reissue (h : Kept p a s) (hp : Part.sub { Part.alarms with jl := true } p = true := by first | decide | (refine Part.sub_of (by assumption) ?_; decide)) : Kept p a (State.reissue s x1) := by
  unfold State.reissue
  repeat' first | with_reducible assumption | exact Part.sub_of hp (by decide) | with_reducible apply Kept.routeSend | with_reducible apply Kept.reqRelease | with_reducible apply Kept.requestLost | with_reducible apply Kept.foldl | with_reducible apply Kept.each | with_reducible refine Kept.ite (fun _ => ?_) (fun _ => ?_) | intro _ | (fail_if_no_progress with_reducible refine Kept.upd_of hp ?_ ?_ ?_ ?_ ?_ ?_ ?_ ?_ ?_ ?_ ?_ ?_ ?_ ?_ ?_ ?_ ?_ rfl rfl <;> try first | exact Or.inr rfl | exact Or.inl (by decide)) | (simp only [id_eq]; assumption) | dsimp only | split

theorem Kept.txLeaves (h : Kept p a s) (hp : Part.sub { intc := true, prot := true } p = true := by first | decide | (refine Part.sub_of (by assumption) ?_; decide)) : Kept p a (State.txLeaves s x1) := by
  unfold State.txLeaves
  repeat' first | with_reducible assumption | exact Part.sub_of hp (by decide) | with_reducible apply Kept.irqEdge | with_reducible apply Kept.updNet | with_reducible apply Kept.foldl | with_reducible apply Kept.each | with_reducible refine Kept.ite (fun _ => ?_) (fun _ => ?_) | intro _ | (fail_if_no_progress with_reducible refine Kept.upd_of hp ?_ ?_ ?_ ?_ ?_ ?_ ?_ ?_ ?_ ?_ ?_ ?_ ?_ ?_ ?_ ?_ ?_ rfl rfl <;> try first | exact Or.inr rfl | exact Or.inl (by decide)) | (simp only [id_eq]; assumption) | dsimp only | split

theorem Kept.slotLeaves (h : Kept p a s) (hp : Part.sub { gcl := true } p = true := by first | decide | (refine Part.sub_of (by assumption) ?_; decide)) : Kept p a (State.slotLeaves s x1 x2) := by
  unfold State.slotLeaves
  repeat' first | with_reducible assumption | exact Part.sub_of hp (by decide) | with_reducible apply Kept.gainRestart | with_reducible apply Kept.updGain | with_reducible apply Kept.foldl | with_reducible apply Kept.each | with_reducible refine Kept.ite (fun _ => ?_) (fun _ => ?_) | intro _ | (fail_if_no_progress with_reducible refine Kept.upd_of hp ?_ ?_ ?_ ?_ ?_ ?_ ?_ ?_ ?_ ?_ ?_ ?_ ?_ ?_ ?_ ?_ ?_ rfl rfl <;> try first | exact Or.inr rfl | exact Or.inl (by decide)) | (simp only [id_eq]; assumption) | dsimp only | split

theorem Kept.releaseObj (h : Kept p a s) (hp : Part.sub { Part.alarms with rfe := true } p = true := by first | decide | (refine Part.sub_of (by assumption) ?_; decide)) : Kept p a (State.releaseObj s x1 x2) := by
  unfold State.releaseObj
  repeat' first | with_reducible assumption | with_reducible apply Kept.record | exact Kept.record_rec | exact Part.sub_of hp (by decide) | with_reducible apply Kept.updObj | with_reducible apply Kept.each | with_reducible apply Kept.txLeaves | with_reducible apply Kept.updGain | with_reducible apply Kept.slotLeaves | with_reducible apply Kept.updNet | with_reducible apply Kept.devStep | with_reducible apply Kept.foldl | with_reducible apply Kept.each | with_reducible refine Kept.ite (fun _ => ?_) (fun _ => ?_) | intro _ | (fail_if_no_progress with_reducible refine Kept.upd_of hp ?_ ?_ ?_ ?_ ?_ ?_ ?_ ?_ ?_ ?_ ?_ ?_ ?_ ?_ ?_ ?_ ?_ rfl rfl <;> try first | exact Or.inr rfl | exact Or.inl (by decide)) | (simp only [id_eq]; assumption) | dsimp only | split

theorem Kept.releaseCommit (h : Kept p a s) (hp : Part.sub { Part.alarms with rfe := true } p = true := by first | decide | (refine Part.sub_of (by assumption) ?_; decide)) : Kept p a (State.releaseCommit s x1) := by
  unfold State.releaseCommit
  repeat' first | with_reducible assumption | exact Part.sub_of hp (by decide) | with_reducible apply Kept.endReleases | with_reducible apply Kept.releaseObj | with_reducible apply Kept.foldl | with_reducible apply Kept.each | with_reducible refine Kept.ite (fun _ => ?_) (fun _ => ?_) | intro _ | (fail_if_no_progress with_reducible refine Kept.upd_of hp ?_ ?_ ?_ ?_ ?_ ?_ ?_ ?_ ?_ ?_ ?_ ?_ ?_ ?_ ?_ ?_ ?_ rfl rfl <;> try first | exact Or.inr rfl | exact Or.inl (by decide)) | (simp only [id_eq]; assumption) | dsimp only | split

theorem Kept.releasePoint (h : Kept p a s) (hp : Part.sub { prot := true, tst := true } p = true := by first | decide | (refine Part.sub_of (by assumption) ?_; decide)) : Kept p a (State.releasePoint s) := by
  unfold State.releasePoint
  repeat' first | with_reducible assumption | exact Part.sub_of hp (by decide) | with_reducible apply Kept.clearCause | with_reducible apply Kept.foldl | with_reducible apply Kept.each | with_reducible refine Kept.ite (fun _ => ?_) (fun _ => ?_) | intro _ | (fail_if_no_progress with_reducible refine Kept.upd_of hp ?_ ?_ ?_ ?_ ?_ ?_ ?_ ?_ ?_ ?_ ?_ ?_ ?_ ?_ ?_ ?_ ?_ rfl rfl <;> try first | exact Or.inr rfl | exact Or.inl (by decide)) | (simp only [id_eq]; assumption) | dsimp only | split

theorem Kept.releaseProof (h : Kept p a s) (hp : Part.sub Part.alarms p = true := by first | decide | (refine Part.sub_of (by assumption) ?_; decide)) : Kept p a (State.releaseProof s x1 x2 x3) := by
  unfold State.releaseProof
  repeat' first | with_reducible assumption | exact Part.sub_of hp (by decide) | with_reducible apply Kept.updObj | with_reducible apply Kept.chainProofs | with_reducible apply Kept.tileProofs | with_reducible apply Kept.winterSet | with_reducible apply Kept.raise | with_reducible apply Kept.endReleases | with_reducible apply Kept.foldl | with_reducible apply Kept.each | with_reducible refine Kept.ite (fun _ => ?_) (fun _ => ?_) | intro _ | (fail_if_no_progress with_reducible refine Kept.upd_of hp ?_ ?_ ?_ ?_ ?_ ?_ ?_ ?_ ?_ ?_ ?_ ?_ ?_ ?_ ?_ ?_ ?_ rfl rfl <;> try first | exact Or.inr rfl | exact Or.inl (by decide)) | (simp only [id_eq]; assumption) | dsimp only | split

theorem Kept.report (h : Kept p a s) (hp : Part.sub { Part.alarms with jl := true } p = true := by first | decide | (refine Part.sub_of (by assumption) ?_; decide)) : Kept p a (State.report s x1 x2 x3 x4) := by
  unfold State.report
  repeat' first | with_reducible assumption | with_reducible apply Kept.capsUpdate | exact Part.sub_of hp (by decide) | with_reducible apply Kept.takeRouted | with_reducible apply Kept.once | with_reducible apply Kept.owe | with_reducible apply Kept.foldl | with_reducible apply Kept.each | with_reducible refine Kept.ite (fun _ => ?_) (fun _ => ?_) | intro _ | (fail_if_no_progress with_reducible refine Kept.upd_of hp ?_ ?_ ?_ ?_ ?_ ?_ ?_ ?_ ?_ ?_ ?_ ?_ ?_ ?_ ?_ ?_ ?_ rfl rfl <;> try first | exact Or.inr rfl | exact Or.inl (by decide)) | (simp only [id_eq]; assumption) | dsimp only | split

theorem Kept.reportResponse (h : Kept p a s) (hp : Part.sub { jl := true } p = true := by first | decide | (refine Part.sub_of (by assumption) ?_; decide)) : Kept p a (State.reportResponse s x1) := by
  unfold State.reportResponse
  repeat' first | with_reducible assumption | exact Part.sub_of hp (by decide) | with_reducible apply Kept.takeRouted | with_reducible apply Kept.answered | with_reducible apply Kept.foldl | with_reducible apply Kept.each | with_reducible refine Kept.ite (fun _ => ?_) (fun _ => ?_) | intro _ | (fail_if_no_progress with_reducible refine Kept.upd_of hp ?_ ?_ ?_ ?_ ?_ ?_ ?_ ?_ ?_ ?_ ?_ ?_ ?_ ?_ ?_ ?_ ?_ rfl rfl <;> try first | exact Or.inr rfl | exact Or.inl (by decide)) | (simp only [id_eq]; assumption) | dsimp only | split

theorem Kept.reportSend (h : Kept p a s) (hp : Part.sub { Part.alarms with jl := true } p = true := by first | decide | (refine Part.sub_of (by assumption) ?_; decide))  : Kept p a (s.reportSend x1) := by
  unfold State.reportSend
  with_reducible refine Kept.ite (fun _ => h) (fun _ => Kept.ite (fun _ => Kept.owe (Kept.capsUpdate ?_)) (fun _ => Kept.of hp (Kept.capsFold ?_ (fun _ _ hb => Kept.request hb))))
  all_goals (with_reducible refine Kept.of hp h)

theorem Kept.resetRise (h : Kept p a s) (hp : Part.sub { Part.alarms with rfe := true, cxPol := true, luts := true, tim := true, le := true, jl := true, tst := true } p = true := by first | decide | (refine Part.sub_of (by assumption) ?_; decide)) : Kept p a (State.resetRise s) := by
  unfold State.resetRise
  repeat' first | with_reducible assumption | exact Part.sub_of hp (by decide) | with_reducible apply Kept.springStart | with_reducible apply Kept.foldl | with_reducible apply Kept.each | with_reducible refine Kept.ite (fun _ => ?_) (fun _ => ?_) | intro _ | (fail_if_no_progress with_reducible refine Kept.upd_of hp ?_ ?_ ?_ ?_ ?_ ?_ ?_ ?_ ?_ ?_ ?_ ?_ ?_ ?_ ?_ ?_ ?_ rfl rfl <;> try first | exact Or.inr rfl | exact Or.inl (by decide)) | (simp only [id_eq]; assumption) | dsimp only | split

theorem Kept.restoreImage (h : Kept p a s) (hp : Part.sub Part.alarms p = true := by first | decide | (refine Part.sub_of (by assumption) ?_; decide)) : Kept p a (State.restoreImage s) := by
  unfold State.restoreImage
  repeat' first | with_reducible assumption | with_reducible apply Kept.record | exact Kept.record_rec | exact Part.sub_of hp (by decide) | with_reducible apply Kept.foldl | with_reducible apply Kept.each | with_reducible refine Kept.ite (fun _ => ?_) (fun _ => ?_) | intro _ | (fail_if_no_progress with_reducible refine Kept.upd_of hp ?_ ?_ ?_ ?_ ?_ ?_ ?_ ?_ ?_ ?_ ?_ ?_ ?_ ?_ ?_ ?_ ?_ rfl rfl <;> try first | exact Or.inr rfl | exact Or.inl (by decide)) | (simp only [id_eq]; assumption) | dsimp only | split

theorem Kept.retryExhausted (h : Kept p a s) (hp : Part.sub { Part.alarms with jl := true } p = true := by first | decide | (refine Part.sub_of (by assumption) ?_; decide)) : Kept p a (State.retryExhausted s x1) := by
  unfold State.retryExhausted
  repeat' first | with_reducible assumption | exact Part.sub_of hp (by decide) | with_reducible apply Kept.linkDown | with_reducible apply Kept.foldl | with_reducible apply Kept.each | with_reducible refine Kept.ite (fun _ => ?_) (fun _ => ?_) | intro _ | (fail_if_no_progress with_reducible refine Kept.upd_of hp ?_ ?_ ?_ ?_ ?_ ?_ ?_ ?_ ?_ ?_ ?_ ?_ ?_ ?_ ?_ ?_ ?_ rfl rfl <;> try first | exact Or.inr rfl | exact Or.inl (by decide)) | (simp only [id_eq]; assumption) | dsimp only | split

theorem Kept.satChain (h : Kept p a s) (hp : Part.sub { Part.alarms with rfe := true } p = true := by first | decide | (refine Part.sub_of (by assumption) ?_; decide)) : Kept p a (State.satChain s x1) := by
  unfold State.satChain
  repeat' first | with_reducible assumption | exact Part.sub_of hp (by decide) | with_reducible apply Kept.raise | with_reducible apply Kept.updTx | with_reducible apply Kept.foldl | with_reducible apply Kept.each | with_reducible refine Kept.ite (fun _ => ?_) (fun _ => ?_) | intro _ | (fail_if_no_progress with_reducible refine Kept.upd_of hp ?_ ?_ ?_ ?_ ?_ ?_ ?_ ?_ ?_ ?_ ?_ ?_ ?_ ?_ ?_ ?_ ?_ rfl rfl <;> try first | exact Or.inr rfl | exact Or.inl (by decide)) | (simp only [id_eq]; assumption) | dsimp only | split

theorem Kept.satSlot (h : Kept p a s) (hp : Part.sub Part.alarms p = true := by first | decide | (refine Part.sub_of (by assumption) ?_; decide)) : Kept p a (State.satSlot s x1) := by
  unfold State.satSlot
  repeat' first | with_reducible assumption | exact Part.sub_of hp (by decide) | with_reducible apply Kept.raise | with_reducible apply Kept.updSlot | with_reducible apply Kept.foldl | with_reducible apply Kept.each | with_reducible refine Kept.ite (fun _ => ?_) (fun _ => ?_) | intro _ | (fail_if_no_progress with_reducible refine Kept.upd_of hp ?_ ?_ ?_ ?_ ?_ ?_ ?_ ?_ ?_ ?_ ?_ ?_ ?_ ?_ ?_ ?_ ?_ rfl rfl <;> try first | exact Or.inr rfl | exact Or.inl (by decide)) | (simp only [id_eq]; assumption) | dsimp only | split

theorem Kept.scanSelect (h : Kept p a s) (hp : Part.sub { Part.alarms with tst := true } p = true := by first | decide | (refine Part.sub_of (by assumption) ?_; decide)) : Kept p a (State.scanSelect s x1) := by
  unfold State.scanSelect
  repeat' first | with_reducible assumption | exact Part.sub_of hp (by decide) | with_reducible apply Kept.tapIr | with_reducible apply Kept.winterSet | with_reducible apply Kept.foldl | with_reducible apply Kept.each | with_reducible refine Kept.ite (fun _ => ?_) (fun _ => ?_) | intro _ | (fail_if_no_progress with_reducible refine Kept.upd_of hp ?_ ?_ ?_ ?_ ?_ ?_ ?_ ?_ ?_ ?_ ?_ ?_ ?_ ?_ ?_ ?_ ?_ rfl rfl <;> try first | exact Or.inr rfl | exact Or.inl (by decide)) | (simp only [id_eq]; assumption) | dsimp only | split

theorem Kept.symLost (h : Kept p a s) (hp : Part.sub { Part.alarms with le := true } p = true := by first | decide | (refine Part.sub_of (by assumption) ?_; decide)) : Kept p a (State.symLost s x1) := by
  unfold State.symLost
  repeat' first | with_reducible assumption | exact Part.sub_of hp (by decide) | with_reducible apply Kept.complete | with_reducible apply Kept.recEntryLost | with_reducible apply Kept.each | with_reducible apply Kept.takeTrapI | with_reducible apply Kept.foldl | with_reducible apply Kept.each | with_reducible refine Kept.ite (fun _ => ?_) (fun _ => ?_) | intro _ | (fail_if_no_progress with_reducible refine Kept.upd_of hp ?_ ?_ ?_ ?_ ?_ ?_ ?_ ?_ ?_ ?_ ?_ ?_ ?_ ?_ ?_ ?_ ?_ rfl rfl <;> try first | exact Or.inr rfl | exact Or.inl (by decide)) | (simp only [id_eq]; assumption) | dsimp only | split

theorem Kept.symFound (h : Kept p a s) (hp : Part.sub { Part.alarms with le := true } p = true := by first | decide | (refine Part.sub_of (by assumption) ?_; decide)) : Kept p a (State.symFound s x1 x2) := by
  unfold State.symFound
  repeat' first | with_reducible assumption | exact Part.sub_of hp (by decide) | with_reducible apply Kept.raiseIn | with_reducible apply Kept.symLost | with_reducible apply Kept.foldl | with_reducible apply Kept.each | with_reducible refine Kept.ite (fun _ => ?_) (fun _ => ?_) | intro _ | (fail_if_no_progress with_reducible refine Kept.upd_of hp ?_ ?_ ?_ ?_ ?_ ?_ ?_ ?_ ?_ ?_ ?_ ?_ ?_ ?_ ?_ ?_ ?_ rfl rfl <;> try first | exact Or.inr rfl | exact Or.inl (by decide)) | (simp only [id_eq]; assumption) | dsimp only | split

theorem Kept.scrubCheck (h : Kept p a s) (hp : Part.sub { Part.alarms with le := true } p = true := by first | decide | (refine Part.sub_of (by assumption) ?_; decide)) : Kept p a (State.scrubCheck s x1) := by
  unfold State.scrubCheck
  repeat' first | with_reducible assumption | exact Part.sub_of hp (by decide) | with_reducible apply Kept.symFound | with_reducible apply Kept.checkCopies | with_reducible apply Kept.checkCompl | with_reducible apply Kept.checkPolicy | with_reducible apply Kept.foldl | with_reducible apply Kept.each | with_reducible refine Kept.ite (fun _ => ?_) (fun _ => ?_) | intro _ | (fail_if_no_progress with_reducible refine Kept.upd_of hp ?_ ?_ ?_ ?_ ?_ ?_ ?_ ?_ ?_ ?_ ?_ ?_ ?_ ?_ ?_ ?_ ?_ rfl rfl <;> try first | exact Or.inr rfl | exact Or.inl (by decide)) | (simp only [id_eq]; assumption) | dsimp only | split

theorem Kept.scrubPass (h : Kept p a s) (hp : Part.sub Part.alarms p = true := by first | decide | (refine Part.sub_of (by assumption) ?_; decide)) : Kept p a (State.scrubPass s x1) := by
  unfold State.scrubPass
  repeat' first | with_reducible assumption | exact Part.sub_of hp (by decide) | with_reducible apply Kept.raise | with_reducible apply Kept.foldl | with_reducible apply Kept.each | with_reducible refine Kept.ite (fun _ => ?_) (fun _ => ?_) | intro _ | (fail_if_no_progress with_reducible refine Kept.upd_of hp ?_ ?_ ?_ ?_ ?_ ?_ ?_ ?_ ?_ ?_ ?_ ?_ ?_ ?_ ?_ ?_ ?_ rfl rfl <;> try first | exact Or.inr rfl | exact Or.inl (by decide)) | (simp only [id_eq]; assumption) | dsimp only | split

theorem Kept.searchFrame (h : Kept p a s) (hp : Part.sub { rfe := true } p = true := by first | decide | (refine Part.sub_of (by assumption) ?_; decide)) : Kept p a (State.searchFrame s x1 x2) := by
  unfold State.searchFrame
  repeat' first | with_reducible assumption | exact Part.sub_of hp (by decide) | with_reducible apply Kept.queueFrame | with_reducible apply Kept.foldl | with_reducible apply Kept.each | with_reducible refine Kept.ite (fun _ => ?_) (fun _ => ?_) | intro _ | (fail_if_no_progress with_reducible refine Kept.upd_of hp ?_ ?_ ?_ ?_ ?_ ?_ ?_ ?_ ?_ ?_ ?_ ?_ ?_ ?_ ?_ ?_ ?_ rfl rfl <;> try first | exact Or.inr rfl | exact Or.inl (by decide)) | (simp only [id_eq]; assumption) | dsimp only | split

theorem Kept.searchStop (h : Kept p a s) (hp : Part.sub { rfe := true } p = true := by first | decide | (refine Part.sub_of (by assumption) ?_; decide)) : Kept p a (State.searchStop s x1) := by
  unfold State.searchStop
  repeat' first | with_reducible assumption | exact Part.sub_of hp (by decide) | with_reducible apply Kept.updTx | with_reducible apply Kept.searchFrame | with_reducible apply Kept.foldl | with_reducible apply Kept.each | with_reducible refine Kept.ite (fun _ => ?_) (fun _ => ?_) | intro _ | (fail_if_no_progress with_reducible refine Kept.upd_of hp ?_ ?_ ?_ ?_ ?_ ?_ ?_ ?_ ?_ ?_ ?_ ?_ ?_ ?_ ?_ ?_ ?_ rfl rfl <;> try first | exact Or.inr rfl | exact Or.inl (by decide)) | (simp only [id_eq]; assumption) | dsimp only | split

theorem Kept.searchTrial (h : Kept p a s) (hp : Part.sub { rfe := true } p = true := by first | decide | (refine Part.sub_of (by assumption) ?_; decide)) : Kept p a (State.searchTrial s x1 x2) := by
  unfold State.searchTrial
  repeat' first | with_reducible assumption | exact Part.sub_of hp (by decide) | with_reducible apply Kept.searchFrame | with_reducible apply Kept.updTx | with_reducible apply Kept.devStep | with_reducible apply Kept.foldl | with_reducible apply Kept.each | with_reducible refine Kept.ite (fun _ => ?_) (fun _ => ?_) | intro _ | (fail_if_no_progress with_reducible refine Kept.upd_of hp ?_ ?_ ?_ ?_ ?_ ?_ ?_ ?_ ?_ ?_ ?_ ?_ ?_ ?_ ?_ ?_ ?_ rfl rfl <;> try first | exact Or.inr rfl | exact Or.inl (by decide)) | (simp only [id_eq]; assumption) | dsimp only | split

theorem Kept.slackCheck (h : Kept p a s) (hp : Part.sub { Part.alarms with tim := true } p = true := by first | decide | (refine Part.sub_of (by assumption) ?_; decide)) : Kept p a (State.slackCheck s x1 x2) := by
  unfold State.slackCheck
  repeat' first | with_reducible assumption | exact Part.sub_of hp (by decide) | with_reducible apply Kept.updTile | with_reducible apply Kept.raise | with_reducible apply Kept.foldl | with_reducible apply Kept.each | with_reducible refine Kept.ite (fun _ => ?_) (fun _ => ?_) | intro _ | (fail_if_no_progress with_reducible refine Kept.upd_of hp ?_ ?_ ?_ ?_ ?_ ?_ ?_ ?_ ?_ ?_ ?_ ?_ ?_ ?_ ?_ ?_ ?_ rfl rfl <;> try first | exact Or.inr rfl | exact Or.inl (by decide)) | (simp only [id_eq]; assumption) | dsimp only | split

theorem Kept.slotCoefWritten (h : Kept p a s) (hp : Part.sub { hif := true, intc := true, flt := true, recd := true, slots := true } p = true := by first | decide | (refine Part.sub_of (by assumption) ?_; decide)) : Kept p a (State.slotCoefWritten s x1) := by
  unfold State.slotCoefWritten
  repeat' first | with_reducible assumption | exact Part.sub_of hp (by decide) | with_reducible apply Kept.complete | with_reducible apply Kept.memWritten | with_reducible apply Kept.updSlot | with_reducible apply Kept.foldl | with_reducible apply Kept.each | with_reducible refine Kept.ite (fun _ => ?_) (fun _ => ?_) | intro _ | (fail_if_no_progress with_reducible refine Kept.upd_of hp ?_ ?_ ?_ ?_ ?_ ?_ ?_ ?_ ?_ ?_ ?_ ?_ ?_ ?_ ?_ ?_ ?_ rfl rfl <;> try first | exact Or.inr rfl | exact Or.inl (by decide)) | (simp only [id_eq]; assumption) | dsimp only | split

theorem Kept.slotDisableBoundary (h : Kept p a s) (hp : Part.sub { hif := true, slots := true } p = true := by first | decide | (refine Part.sub_of (by assumption) ?_; decide)) : Kept p a (State.slotDisableBoundary s x1) := by
  unfold State.slotDisableBoundary
  repeat' first | with_reducible assumption | exact Part.sub_of hp (by decide) | with_reducible apply Kept.updPend | with_reducible apply Kept.updSlot | with_reducible apply Kept.foldl | with_reducible apply Kept.each | with_reducible refine Kept.ite (fun _ => ?_) (fun _ => ?_) | intro _ | (fail_if_no_progress with_reducible refine Kept.upd_of hp ?_ ?_ ?_ ?_ ?_ ?_ ?_ ?_ ?_ ?_ ?_ ?_ ?_ ?_ ?_ ?_ ?_ rfl rfl <;> try first | exact Or.inr rfl | exact Or.inl (by decide)) | (simp only [id_eq]; assumption) | dsimp only | split

theorem Kept.slotDisableEnd (h : Kept p a s) (hp : Part.sub { hif := true, intc := true, recd := true, slots := true } p = true := by first | decide | (refine Part.sub_of (by assumption) ?_; decide)) : Kept p a (State.slotDisableEnd s x1) := by
  unfold State.slotDisableEnd
  repeat' first | with_reducible assumption | exact Part.sub_of hp (by decide) | with_reducible apply Kept.updSlot | with_reducible apply Kept.fadeFinish | with_reducible apply Kept.completeAll | with_reducible apply Kept.foldl | with_reducible apply Kept.each | with_reducible refine Kept.ite (fun _ => ?_) (fun _ => ?_) | intro _ | (fail_if_no_progress with_reducible refine Kept.upd_of hp ?_ ?_ ?_ ?_ ?_ ?_ ?_ ?_ ?_ ?_ ?_ ?_ ?_ ?_ ?_ ?_ ?_ rfl rfl <;> try first | exact Or.inr rfl | exact Or.inl (by decide)) | (simp only [id_eq]; assumption) | dsimp only | split

theorem Kept.slotEnableBoundary (h : Kept p a s) (hp : Part.sub { hif := true, intc := true, recd := true, slots := true } p = true := by first | decide | (refine Part.sub_of (by assumption) ?_; decide)) : Kept p a (State.slotEnableBoundary s x1) := by
  unfold State.slotEnableBoundary
  repeat' first | with_reducible assumption | exact Part.sub_of hp (by decide) | with_reducible apply Kept.complete | with_reducible apply Kept.updSlot | with_reducible apply Kept.foldl | with_reducible apply Kept.each | with_reducible refine Kept.ite (fun _ => ?_) (fun _ => ?_) | intro _ | (fail_if_no_progress with_reducible refine Kept.upd_of hp ?_ ?_ ?_ ?_ ?_ ?_ ?_ ?_ ?_ ?_ ?_ ?_ ?_ ?_ ?_ ?_ ?_ rfl rfl <;> try first | exact Or.inr rfl | exact Or.inl (by decide)) | (simp only [id_eq]; assumption) | dsimp only | split

theorem Kept.slotFadeEnd (h : Kept p a s) (hp : Part.sub Part.alarms p = true := by first | decide | (refine Part.sub_of (by assumption) ?_; decide)) : Kept p a (State.slotFadeEnd s x1) := by
  unfold State.slotFadeEnd
  repeat' first | with_reducible assumption | exact Part.sub_of hp (by decide) | with_reducible apply Kept.fadeFinish | with_reducible apply Kept.raise | with_reducible apply Kept.updSlot | with_reducible apply Kept.foldl | with_reducible apply Kept.each | with_reducible refine Kept.ite (fun _ => ?_) (fun _ => ?_) | intro _ | (fail_if_no_progress with_reducible refine Kept.upd_of hp ?_ ?_ ?_ ?_ ?_ ?_ ?_ ?_ ?_ ?_ ?_ ?_ ?_ ?_ ?_ ?_ ?_ rfl rfl <;> try first | exact Or.inr rfl | exact Or.inl (by decide)) | (simp only [id_eq]; assumption) | dsimp only | split

theorem Kept.slotSettled (h : Kept p a s) (hp : Part.sub { slots := true, gcl := true } p = true := by first | decide | (refine Part.sub_of (by assumption) ?_; decide)) : Kept p a (State.slotSettled s x1) := by
  unfold State.slotSettled
  repeat' first | with_reducible assumption | exact Part.sub_of hp (by decide) | with_reducible apply Kept.gainStart | with_reducible apply Kept.capAll | with_reducible apply Kept.updSlot | with_reducible apply Kept.foldl | with_reducible apply Kept.each | with_reducible refine Kept.ite (fun _ => ?_) (fun _ => ?_) | intro _ | (fail_if_no_progress with_reducible refine Kept.upd_of hp ?_ ?_ ?_ ?_ ?_ ?_ ?_ ?_ ?_ ?_ ?_ ?_ ?_ ?_ ?_ ?_ ?_ rfl rfl <;> try first | exact Or.inr rfl | exact Or.inl (by decide)) | (simp only [id_eq]; assumption) | dsimp only | split

theorem Kept.slotSwapBegin (h : Kept p a s) (hp : Part.sub { hif := true, intc := true, recd := true, slots := true } p = true := by first | decide | (refine Part.sub_of (by assumption) ?_; decide)) : Kept p a (State.slotSwapBegin s x1) := by
  unfold State.slotSwapBegin
  repeat' first | with_reducible assumption | exact Part.sub_of hp (by decide) | with_reducible apply Kept.updPend | with_reducible apply Kept.loadsStart | with_reducible apply Kept.completeId | with_reducible apply Kept.updSlot | with_reducible apply Kept.foldl | with_reducible apply Kept.each | with_reducible refine Kept.ite (fun _ => ?_) (fun _ => ?_) | intro _ | (fail_if_no_progress with_reducible refine Kept.upd_of hp ?_ ?_ ?_ ?_ ?_ ?_ ?_ ?_ ?_ ?_ ?_ ?_ ?_ ?_ ?_ ?_ ?_ rfl rfl <;> try first | exact Or.inr rfl | exact Or.inl (by decide)) | (simp only [id_eq]; assumption) | dsimp only | split

theorem Kept.springFail (h : Kept p a s) (hp : Part.sub Part.alarms p = true := by first | decide | (refine Part.sub_of (by assumption) ?_; decide)) : Kept p a (State.springFail s) := by
  unfold State.springFail
  repeat' first | with_reducible assumption | exact Part.sub_of hp (by decide) | with_reducible apply Kept.raise | with_reducible apply Kept.foldl | with_reducible apply Kept.each | with_reducible refine Kept.ite (fun _ => ?_) (fun _ => ?_) | intro _ | (fail_if_no_progress with_reducible refine Kept.upd_of hp ?_ ?_ ?_ ?_ ?_ ?_ ?_ ?_ ?_ ?_ ?_ ?_ ?_ ?_ ?_ ?_ ?_ rfl rfl <;> try first | exact Or.inr rfl | exact Or.inl (by decide)) | (simp only [id_eq]; assumption) | dsimp only | split

theorem Kept.stopNow (h : Kept p a s) (hp : Part.sub { hif := true, intc := true, recd := true, le := true } p = true := by first | decide | (refine Part.sub_of (by assumption) ?_; decide)) : Kept p a (State.stopNow s x1 x2) := by
  unfold State.stopNow
  repeat' first | with_reducible assumption | exact Part.sub_of hp (by decide) | with_reducible apply Kept.completeAll | with_reducible apply Kept.stopTask | with_reducible apply Kept.foldl | with_reducible apply Kept.each | with_reducible refine Kept.ite (fun _ => ?_) (fun _ => ?_) | intro _ | (fail_if_no_progress with_reducible refine Kept.upd_of hp ?_ ?_ ?_ ?_ ?_ ?_ ?_ ?_ ?_ ?_ ?_ ?_ ?_ ?_ ?_ ?_ ?_ rfl rfl <;> try first | exact Or.inr rfl | exact Or.inl (by decide)) | (simp only [id_eq]; assumption) | dsimp only | split

theorem Kept.strapChange (h : Kept p a s) (hp : Part.sub { Part.alarms with tst := true } p = true := by first | decide | (refine Part.sub_of (by assumption) ?_; decide)) : Kept p a (State.strapChange s x1) := by
  unfold State.strapChange
  repeat' first | with_reducible assumption | exact Part.sub_of hp (by decide) | with_reducible apply Kept.raise | with_reducible apply Kept.foldl | with_reducible apply Kept.each | with_reducible refine Kept.ite (fun _ => ?_) (fun _ => ?_) | intro _ | (fail_if_no_progress with_reducible refine Kept.upd_of hp ?_ ?_ ?_ ?_ ?_ ?_ ?_ ?_ ?_ ?_ ?_ ?_ ?_ ?_ ?_ ?_ ?_ rfl rfl <;> try first | exact Or.inr rfl | exact Or.inl (by decide)) | (simp only [id_eq]; assumption) | dsimp only | split

theorem Kept.streamCell (h : Kept p a s) (hp : Part.sub { jl := true } p = true := by first | decide | (refine Part.sub_of (by assumption) ?_; decide)) : Kept p a (State.streamCell s x1 x2 x3) := by
  unfold State.streamCell
  repeat' first | with_reducible assumption | exact Part.sub_of hp (by decide) | with_reducible apply Kept.updPort | with_reducible apply Kept.updStrm | with_reducible apply Kept.foldl | with_reducible apply Kept.each | with_reducible refine Kept.ite (fun _ => ?_) (fun _ => ?_) | intro _ | (fail_if_no_progress with_reducible refine Kept.upd_of hp ?_ ?_ ?_ ?_ ?_ ?_ ?_ ?_ ?_ ?_ ?_ ?_ ?_ ?_ ?_ ?_ ?_ rfl rfl <;> try first | exact Or.inr rfl | exact Or.inl (by decide)) | (simp only [id_eq]; assumption) | dsimp only | split

theorem Kept.streamClose (h : Kept p a s) (hp : Part.sub { jl := true } p = true := by first | decide | (refine Part.sub_of (by assumption) ?_; decide)) : Kept p a (State.streamClose s x1 x2) := by
  unfold State.streamClose
  repeat' first | with_reducible assumption | exact Part.sub_of hp (by decide) | with_reducible apply Kept.takeLocal | with_reducible apply Kept.updStrm | with_reducible apply Kept.foldl | with_reducible apply Kept.each | with_reducible refine Kept.ite (fun _ => ?_) (fun _ => ?_) | intro _ | (fail_if_no_progress with_reducible refine Kept.upd_of hp ?_ ?_ ?_ ?_ ?_ ?_ ?_ ?_ ?_ ?_ ?_ ?_ ?_ ?_ ?_ ?_ ?_ rfl rfl <;> try first | exact Or.inr rfl | exact Or.inl (by decide)) | (simp only [id_eq]; assumption) | dsimp only | split

theorem Kept.streamClosed (h : Kept p a s) (hp : Part.sub { hif := true, intc := true, recd := true, jl := true } p = true := by first | decide | (refine Part.sub_of (by assumption) ?_; decide)) : Kept p a (State.streamClosed s x1 x2 x3) := by
  unfold State.streamClosed
  repeat' first | with_reducible assumption | exact Part.sub_of hp (by decide) | with_reducible apply Kept.updStrm | with_reducible apply Kept.completeId | with_reducible apply Kept.portSend | with_reducible apply Kept.completeAll | with_reducible apply Kept.foldl | with_reducible apply Kept.each | with_reducible refine Kept.ite (fun _ => ?_) (fun _ => ?_) | intro _ | (fail_if_no_progress with_reducible refine Kept.upd_of hp ?_ ?_ ?_ ?_ ?_ ?_ ?_ ?_ ?_ ?_ ?_ ?_ ?_ ?_ ?_ ?_ ?_ rfl rfl <;> try first | exact Or.inr rfl | exact Or.inl (by decide)) | (simp only [id_eq]; assumption) | dsimp only | split

theorem Kept.streamRamp (h : Kept p a s) (hp : Part.sub { hif := true, intc := true, recd := true, jl := true } p = true := by first | decide | (refine Part.sub_of (by assumption) ?_; decide)) : Kept p a (State.streamRamp s x1 x2) := by
  unfold State.streamRamp
  repeat' first | with_reducible assumption | exact Part.sub_of hp (by decide) | with_reducible apply Kept.streamClosed | with_reducible apply Kept.updPend | with_reducible apply Kept.foldl | with_reducible apply Kept.each | with_reducible refine Kept.ite (fun _ => ?_) (fun _ => ?_) | intro _ | (fail_if_no_progress with_reducible refine Kept.upd_of hp ?_ ?_ ?_ ?_ ?_ ?_ ?_ ?_ ?_ ?_ ?_ ?_ ?_ ?_ ?_ ?_ ?_ rfl rfl <;> try first | exact Or.inr rfl | exact Or.inl (by decide)) | (simp only [id_eq]; assumption) | dsimp only | split

theorem Kept.streamReq (h : Kept p a s) (hp : Part.sub { jl := true } p = true := by first | decide | (refine Part.sub_of (by assumption) ?_; decide)) : Kept p a (State.streamReq s x1 x2 x3 x4 x5 x6) := by
  unfold State.streamReq
  repeat' first | with_reducible assumption | exact Part.sub_of hp (by decide) | with_reducible apply Kept.takeLocal | with_reducible apply Kept.updStrm | with_reducible apply Kept.portSend | with_reducible apply Kept.foldl | with_reducible apply Kept.each | with_reducible refine Kept.ite (fun _ => ?_) (fun _ => ?_) | intro _ | (fail_if_no_progress with_reducible refine Kept.upd_of hp ?_ ?_ ?_ ?_ ?_ ?_ ?_ ?_ ?_ ?_ ?_ ?_ ?_ ?_ ?_ ?_ ?_ rfl rfl <;> try first | exact Or.inr rfl | exact Or.inl (by decide)) | (simp only [id_eq]; assumption) | dsimp only | split

theorem Kept.streamReqRepeat (h : Kept p a s) (hp : Part.sub { jl := true } p = true := by first | decide | (refine Part.sub_of (by assumption) ?_; decide)) : Kept p a (State.streamReqRepeat s x1 x2) := by
  unfold State.streamReqRepeat
  repeat' first | with_reducible assumption | exact Part.sub_of hp (by decide) | with_reducible apply Kept.streamReqSend | with_reducible apply Kept.foldl | with_reducible apply Kept.each | with_reducible refine Kept.ite (fun _ => ?_) (fun _ => ?_) | intro _ | (fail_if_no_progress with_reducible refine Kept.upd_of hp ?_ ?_ ?_ ?_ ?_ ?_ ?_ ?_ ?_ ?_ ?_ ?_ ?_ ?_ ?_ ?_ ?_ rfl rfl <;> try first | exact Or.inr rfl | exact Or.inl (by decide)) | (simp only [id_eq]; assumption) | dsimp only | split

theorem Kept.streamReqResponse (h : Kept p a s) (hp : Part.sub { hif := true, intc := true, recd := true, jl := true } p = true := by first | decide | (refine Part.sub_of (by assumption) ?_; decide)) : Kept p a (State.streamReqResponse s x1 x2) := by
  unfold State.streamReqResponse
  repeat' first | with_reducible assumption | exact Part.sub_of hp (by decide) | with_reducible apply Kept.takeLocal | with_reducible apply Kept.updStrm | with_reducible apply Kept.openFails | with_reducible apply Kept.foldl | with_reducible apply Kept.each | with_reducible refine Kept.ite (fun _ => ?_) (fun _ => ?_) | intro _ | (fail_if_no_progress with_reducible refine Kept.upd_of hp ?_ ?_ ?_ ?_ ?_ ?_ ?_ ?_ ?_ ?_ ?_ ?_ ?_ ?_ ?_ ?_ ?_ rfl rfl <;> try first | exact Or.inr rfl | exact Or.inl (by decide)) | (simp only [id_eq]; assumption) | dsimp only | split

theorem Kept.streamStart (h : Kept p a s) (hp : Part.sub { hif := true, intc := true, recd := true, jl := true } p = true := by first | decide | (refine Part.sub_of (by assumption) ?_; decide)) : Kept p a (State.streamStart s x1 x2 x3) := by
  unfold State.streamStart
  repeat' first | with_reducible assumption | exact Part.sub_of hp (by decide) | with_reducible apply Kept.updStrm | with_reducible apply Kept.completeId | with_reducible apply Kept.openFails | with_reducible apply Kept.foldl | with_reducible apply Kept.each | with_reducible refine Kept.ite (fun _ => ?_) (fun _ => ?_) | intro _ | (fail_if_no_progress with_reducible refine Kept.upd_of hp ?_ ?_ ?_ ?_ ?_ ?_ ?_ ?_ ?_ ?_ ?_ ?_ ?_ ?_ ?_ ?_ ?_ rfl rfl <;> try first | exact Or.inr rfl | exact Or.inl (by decide)) | (simp only [id_eq]; assumption) | dsimp only | split

theorem Kept.streamStop (h : Kept p a s) (hp : Part.sub { hif := true, intc := true, recd := true, jl := true } p = true := by first | decide | (refine Part.sub_of (by assumption) ?_; decide)) : Kept p a (State.streamStop s x1 x2) := by
  unfold State.streamStop
  repeat' first | with_reducible assumption | exact Part.sub_of hp (by decide) | with_reducible apply Kept.streamClosed | with_reducible apply Kept.foldl | with_reducible apply Kept.each | with_reducible refine Kept.ite (fun _ => ?_) (fun _ => ?_) | intro _ | (fail_if_no_progress with_reducible refine Kept.upd_of hp ?_ ?_ ?_ ?_ ?_ ?_ ?_ ?_ ?_ ?_ ?_ ?_ ?_ ?_ ?_ ?_ ?_ rfl rfl <;> try first | exact Or.inr rfl | exact Or.inl (by decide)) | (simp only [id_eq]; assumption) | dsimp only | split

theorem Kept.submit (h : Kept p a s) (hp : Part.sub { Part.alarms with rfe := true, luts := true, le := true, jl := true, freeCnt := true } p = true := by first | decide | (refine Part.sub_of (by assumption) ?_; decide)) : Kept p a (State.submit s x1 x2) := by
  unfold State.submit
  repeat' first | with_reducible assumption | exact Part.sub_of hp (by decide) | with_reducible apply Kept.runDesc | with_reducible apply Kept.served | with_reducible apply Kept.foldl | with_reducible apply Kept.each | with_reducible refine Kept.ite (fun _ => ?_) (fun _ => ?_) | intro _ | (fail_if_no_progress with_reducible refine Kept.upd_of hp ?_ ?_ ?_ ?_ ?_ ?_ ?_ ?_ ?_ ?_ ?_ ?_ ?_ ?_ ?_ ?_ ?_ rfl rfl <;> try first | exact Or.inr rfl | exact Or.inl (by decide)) | (simp only [id_eq]; assumption) | dsimp only | split

theorem Kept.summaryRecord (h : Kept p a s) (hp : Part.sub { recd := true } p = true := by first | decide | (refine Part.sub_of (by assumption) ?_; decide)) : Kept p a (State.summaryRecord s x1) := by
  unfold State.summaryRecord
  repeat' first | with_reducible assumption | exact Part.sub_of hp (by decide) | with_reducible apply Kept.summary | with_reducible apply Kept.updBucket | with_reducible apply Kept.foldl | with_reducible apply Kept.each | with_reducible refine Kept.ite (fun _ => ?_) (fun _ => ?_) | intro _ | (fail_if_no_progress with_reducible refine Kept.upd_of hp ?_ ?_ ?_ ?_ ?_ ?_ ?_ ?_ ?_ ?_ ?_ ?_ ?_ ?_ ?_ ?_ ?_ rfl rfl <;> try first | exact Or.inr rfl | exact Or.inl (by decide)) | (simp only [id_eq]; assumption) | dsimp only | split

theorem Kept.supStall (h : Kept p a s) (hp : Part.sub Part.alarms p = true := by first | decide | (refine Part.sub_of (by assumption) ?_; decide)) : Kept p a (State.supStall s x1) := by
  unfold State.supStall
  repeat' first | with_reducible assumption | exact Part.sub_of hp (by decide) | with_reducible apply Kept.raiseI | with_reducible apply Kept.foldl | with_reducible apply Kept.each | with_reducible refine Kept.ite (fun _ => ?_) (fun _ => ?_) | intro _ | (fail_if_no_progress with_reducible refine Kept.upd_of hp ?_ ?_ ?_ ?_ ?_ ?_ ?_ ?_ ?_ ?_ ?_ ?_ ?_ ?_ ?_ ?_ ?_ rfl rfl <;> try first | exact Or.inr rfl | exact Or.inl (by decide)) | (simp only [id_eq]; assumption) | dsimp only | split

theorem Kept.supervisorVector (h : Kept p a s) (hp : Part.sub Part.alarms p = true := by first | decide | (refine Part.sub_of (by assumption) ?_; decide)) : Kept p a (State.supervisorVector s x1) := by
  unfold State.supervisorVector
  repeat' first | with_reducible assumption | with_reducible apply Kept.record | exact Kept.record_rec | exact Part.sub_of hp (by decide) | with_reducible apply Kept.each | with_reducible apply Kept.vecComplete | with_reducible apply Kept.foldl | with_reducible apply Kept.each | with_reducible refine Kept.ite (fun _ => ?_) (fun _ => ?_) | intro _ | (fail_if_no_progress with_reducible refine Kept.upd_of hp ?_ ?_ ?_ ?_ ?_ ?_ ?_ ?_ ?_ ?_ ?_ ?_ ?_ ?_ ?_ ?_ ?_ rfl rfl <;> try first | exact Or.inr rfl | exact Or.inl (by decide)) | (simp only [id_eq]; assumption) | dsimp only | split

theorem Kept.syncDetection (h : Kept p a s) (hp : Part.sub { rfe := true, slots := true, cx := true } p = true := by first | decide | (refine Part.sub_of (by assumption) ?_; decide)) : Kept p a (State.syncDetection s x1) := by
  unfold State.syncDetection
  repeat' first | with_reducible assumption | exact Part.sub_of hp (by decide) | with_reducible apply Kept.schedSync | with_reducible apply Kept.updSched | with_reducible apply Kept.foldl | with_reducible apply Kept.each | with_reducible refine Kept.ite (fun _ => ?_) (fun _ => ?_) | intro _ | (fail_if_no_progress with_reducible refine Kept.upd_of hp ?_ ?_ ?_ ?_ ?_ ?_ ?_ ?_ ?_ ?_ ?_ ?_ ?_ ?_ ?_ ?_ ?_ rfl rfl <;> try first | exact Or.inr rfl | exact Or.inl (by decide)) | (simp only [id_eq]; assumption) | dsimp only | split

theorem Kept.syncLoss (h : Kept p a s) (hp : Part.sub { Part.alarms with rfe := true } p = true := by first | decide | (refine Part.sub_of (by assumption) ?_; decide)) : Kept p a (State.syncLoss s x1) := by
  unfold State.syncLoss
  repeat' first | with_reducible assumption | exact Part.sub_of hp (by decide) | with_reducible apply Kept.updSched | with_reducible apply Kept.each | with_reducible apply Kept.raise | with_reducible apply Kept.foldl | with_reducible apply Kept.each | with_reducible refine Kept.ite (fun _ => ?_) (fun _ => ?_) | intro _ | (fail_if_no_progress with_reducible refine Kept.upd_of hp ?_ ?_ ?_ ?_ ?_ ?_ ?_ ?_ ?_ ?_ ?_ ?_ ?_ ?_ ?_ ?_ ?_ rfl rfl <;> try first | exact Or.inr rfl | exact Or.inl (by decide)) | (simp only [id_eq]; assumption) | dsimp only | split

theorem Kept.tableCommit (h : Kept p a s) (hp : Part.sub { hif := true, intc := true, flt := true, recd := true, rfe := true } p = true := by first | decide | (refine Part.sub_of (by assumption) ?_; decide)) : Kept p a (State.tableCommit s x1) := by
  unfold State.tableCommit
  repeat' first | with_reducible assumption | exact Part.sub_of hp (by decide) | with_reducible apply Kept.complete | with_reducible apply Kept.memWritten | with_reducible apply Kept.updTx | with_reducible apply Kept.foldl | with_reducible apply Kept.each | with_reducible refine Kept.ite (fun _ => ?_) (fun _ => ?_) | intro _ | (fail_if_no_progress with_reducible refine Kept.upd_of hp ?_ ?_ ?_ ?_ ?_ ?_ ?_ ?_ ?_ ?_ ?_ ?_ ?_ ?_ ?_ ?_ ?_ rfl rfl <;> try first | exact Or.inr rfl | exact Or.inl (by decide)) | (simp only [id_eq]; assumption) | dsimp only | split

theorem Kept.takeTrap (h : Kept p a s) (hp : Part.sub { Part.alarms with le := true } p = true := by first | decide | (refine Part.sub_of (by assumption) ?_; decide)) : Kept p a (State.takeTrap s x1 x2 x3) := by
  unfold State.takeTrap
  repeat' first | with_reducible assumption | exact Part.sub_of hp (by decide) | with_reducible apply Kept.takeTrapI | with_reducible apply Kept.foldl | with_reducible apply Kept.each | with_reducible refine Kept.ite (fun _ => ?_) (fun _ => ?_) | intro _ | (fail_if_no_progress with_reducible refine Kept.upd_of hp ?_ ?_ ?_ ?_ ?_ ?_ ?_ ?_ ?_ ?_ ?_ ?_ ?_ ?_ ?_ ?_ ?_ rfl rfl <;> try first | exact Or.inr rfl | exact Or.inl (by decide)) | (simp only [id_eq]; assumption) | dsimp only | split

theorem Kept.tapShow (h : Kept p a s) (hp : Part.sub { tst := true } p = true := by first | decide | (refine Part.sub_of (by assumption) ?_; decide)) : Kept p a (State.tapShow s x1) := by
  unfold State.tapShow
  repeat' first | with_reducible assumption | exact Part.sub_of hp (by decide) | with_reducible apply Kept.foldl | with_reducible apply Kept.each | with_reducible refine Kept.ite (fun _ => ?_) (fun _ => ?_) | intro _ | (fail_if_no_progress with_reducible refine Kept.upd_of hp ?_ ?_ ?_ ?_ ?_ ?_ ?_ ?_ ?_ ?_ ?_ ?_ ?_ ?_ ?_ ?_ ?_ rfl rfl <;> try first | exact Or.inr rfl | exact Or.inl (by decide)) | (simp only [id_eq]; assumption) | dsimp only | split

theorem Kept.taskDispatch (h : Kept p a s) (hp : Part.sub { le := true } p = true := by first | decide | (refine Part.sub_of (by assumption) ?_; decide)) : Kept p a (State.taskDispatch s x1) := by
  unfold State.taskDispatch
  repeat' first | with_reducible assumption | exact Part.sub_of hp (by decide) | with_reducible apply Kept.updTask | with_reducible apply Kept.updEng | with_reducible apply Kept.foldl | with_reducible apply Kept.each | with_reducible refine Kept.ite (fun _ => ?_) (fun _ => ?_) | intro _ | (fail_if_no_progress with_reducible refine Kept.upd_of hp ?_ ?_ ?_ ?_ ?_ ?_ ?_ ?_ ?_ ?_ ?_ ?_ ?_ ?_ ?_ ?_ ?_ rfl rfl <;> try first | exact Or.inr rfl | exact Or.inl (by decide)) | (simp only [id_eq]; assumption) | dsimp only | split

theorem Kept.taskRelease (h : Kept p a s) (hp : Part.sub { Part.alarms with le := true } p = true := by first | decide | (refine Part.sub_of (by assumption) ?_; decide)) : Kept p a (State.taskRelease s x1 x2) := by
  unfold State.taskRelease
  repeat' first | with_reducible assumption | exact Part.sub_of hp (by decide) | with_reducible apply Kept.stopNow | with_reducible apply Kept.cleanRelease | with_reducible apply Kept.overrun | with_reducible apply Kept.updTask | with_reducible apply Kept.completeId | with_reducible apply Kept.foldl | with_reducible apply Kept.each | with_reducible refine Kept.ite (fun _ => ?_) (fun _ => ?_) | intro _ | (fail_if_no_progress with_reducible refine Kept.upd_of hp ?_ ?_ ?_ ?_ ?_ ?_ ?_ ?_ ?_ ?_ ?_ ?_ ?_ ?_ ?_ ?_ ?_ rfl rfl <;> try first | exact Or.inr rfl | exact Or.inl (by decide)) | (simp only [id_eq]; assumption) | dsimp only | split

theorem Kept.ukTrap (h : Kept p a s) (hp : Part.sub { Part.alarms with le := true } p = true := by first | decide | (refine Part.sub_of (by assumption) ?_; decide)) : Kept p a (State.ukTrap s x1 x2 x3 x4) := by
  unfold State.ukTrap
  repeat' first | with_reducible assumption | exact Part.sub_of hp (by decide) | with_reducible apply Kept.raiseI | with_reducible apply Kept.takeTrapI | with_reducible apply Kept.takeTrap | with_reducible apply Kept.foldl | with_reducible apply Kept.each | with_reducible refine Kept.ite (fun _ => ?_) (fun _ => ?_) | intro _ | (fail_if_no_progress with_reducible refine Kept.upd_of hp ?_ ?_ ?_ ?_ ?_ ?_ ?_ ?_ ?_ ?_ ?_ ?_ ?_ ?_ ?_ ?_ ?_ rfl rfl <;> try first | exact Or.inr rfl | exact Or.inl (by decide)) | (simp only [id_eq]; assumption) | dsimp only | split

theorem Kept.taskTrap (h : Kept p a s) (hp : Part.sub { Part.alarms with le := true } p = true := by first | decide | (refine Part.sub_of (by assumption) ?_; decide)) : Kept p a (State.taskTrap s x1 x2) := by
  unfold State.taskTrap
  repeat' first | with_reducible assumption | exact Part.sub_of hp (by decide) | with_reducible apply Kept.memTrap | with_reducible apply Kept.takeTrap | with_reducible apply Kept.ukTrap | with_reducible apply Kept.foldl | with_reducible apply Kept.each | with_reducible refine Kept.ite (fun _ => ?_) (fun _ => ?_) | intro _ | (fail_if_no_progress with_reducible refine Kept.upd_of hp ?_ ?_ ?_ ?_ ?_ ?_ ?_ ?_ ?_ ?_ ?_ ?_ ?_ ?_ ?_ ?_ ?_ rfl rfl <;> try first | exact Or.inr rfl | exact Or.inl (by decide)) | (simp only [id_eq]; assumption) | dsimp only | split

theorem Kept.tddLossEntry (h : Kept p a s) (hp : Part.sub Part.alarms p = true := by first | decide | (refine Part.sub_of (by assumption) ?_; decide)) : Kept p a (State.tddLossEntry s x1) := by
  unfold State.tddLossEntry
  repeat' first | with_reducible assumption | exact Part.sub_of hp (by decide) | with_reducible apply Kept.updObj | with_reducible apply Kept.winterSet | with_reducible apply Kept.foldl | with_reducible apply Kept.each | with_reducible refine Kept.ite (fun _ => ?_) (fun _ => ?_) | intro _ | (fail_if_no_progress with_reducible refine Kept.upd_of hp ?_ ?_ ?_ ?_ ?_ ?_ ?_ ?_ ?_ ?_ ?_ ?_ ?_ ?_ ?_ ?_ ?_ rfl rfl <;> try first | exact Or.inr rfl | exact Or.inl (by decide)) | (simp only [id_eq]; assumption) | dsimp only | split

theorem Kept.tddPeriodEdge (h : Kept p a s) (hp : Part.sub { rfe := true, slots := true, cx := true } p = true := by first | decide | (refine Part.sub_of (by assumption) ?_; decide)) : Kept p a (State.tddPeriodEdge s x1 x2) := by
  unfold State.tddPeriodEdge
  repeat' first | with_reducible assumption | exact Part.sub_of hp (by decide) | with_reducible apply Kept.sideSync | with_reducible apply Kept.updSched | with_reducible apply Kept.foldl | with_reducible apply Kept.each | with_reducible refine Kept.ite (fun _ => ?_) (fun _ => ?_) | intro _ | (fail_if_no_progress with_reducible refine Kept.upd_of hp ?_ ?_ ?_ ?_ ?_ ?_ ?_ ?_ ?_ ?_ ?_ ?_ ?_ ?_ ?_ ?_ ?_ rfl rfl <;> try first | exact Or.inr rfl | exact Or.inl (by decide)) | (simp only [id_eq]; assumption) | dsimp only | split

theorem Kept.telemetry (h : Kept p a s) (hp : Part.sub Part.alarms p = true := by first | decide | (refine Part.sub_of (by assumption) ?_; decide)) : Kept p a (State.telemetry s x1 x2) := by
  unfold State.telemetry
  repeat' first | with_reducible assumption | exact Part.sub_of hp (by decide) | with_reducible apply Kept.raise | with_reducible apply Kept.updTr | with_reducible apply Kept.irqEdge | with_reducible apply Kept.hostWrite | with_reducible apply Kept.foldl | with_reducible apply Kept.each | with_reducible refine Kept.ite (fun _ => ?_) (fun _ => ?_) | intro _ | (fail_if_no_progress with_reducible refine Kept.upd_of hp ?_ ?_ ?_ ?_ ?_ ?_ ?_ ?_ ?_ ?_ ?_ ?_ ?_ ?_ ?_ ?_ ?_ rfl rfl <;> try first | exact Or.inr rfl | exact Or.inl (by decide)) | (simp only [id_eq]; assumption) | dsimp only | split

theorem Kept.tempSample (h : Kept p a s) (hp : Part.sub Part.alarms p = true := by first | decide | (refine Part.sub_of (by assumption) ?_; decide)) : Kept p a (State.tempSample s x1 x2) := by
  unfold State.tempSample
  repeat' first | with_reducible assumption | exact Part.sub_of hp (by decide) | with_reducible apply Kept.raise | with_reducible apply Kept.winterSet | with_reducible apply Kept.clearCause | with_reducible apply Kept.foldl | with_reducible apply Kept.each | with_reducible refine Kept.ite (fun _ => ?_) (fun _ => ?_) | intro _ | (fail_if_no_progress with_reducible refine Kept.upd_of hp ?_ ?_ ?_ ?_ ?_ ?_ ?_ ?_ ?_ ?_ ?_ ?_ ?_ ?_ ?_ ?_ ?_ rfl rfl <;> try first | exact Or.inr rfl | exact Or.inl (by decide)) | (simp only [id_eq]; assumption) | dsimp only | split

theorem Kept.tileRealign (h : Kept p a s) (hp : Part.sub { tim := true } p = true := by first | decide | (refine Part.sub_of (by assumption) ?_; decide)) : Kept p a (State.tileRealign s x1) := by
  unfold State.tileRealign
  repeat' first | with_reducible assumption | exact Part.sub_of hp (by decide) | with_reducible apply Kept.updTile | with_reducible apply Kept.foldl | with_reducible apply Kept.each | with_reducible refine Kept.ite (fun _ => ?_) (fun _ => ?_) | intro _ | (fail_if_no_progress with_reducible refine Kept.upd_of hp ?_ ?_ ?_ ?_ ?_ ?_ ?_ ?_ ?_ ?_ ?_ ?_ ?_ ?_ ?_ ?_ ?_ rfl rfl <;> try first | exact Or.inr rfl | exact Or.inl (by decide)) | (simp only [id_eq]; assumption) | dsimp only | split

theorem Kept.timeSend (h : Kept p a s) (hp : Part.sub { jl := true } p = true := by first | decide | (refine Part.sub_of (by assumption) ?_; decide)) : Kept p a (State.timeSend s x1) := by
  unfold State.timeSend
  repeat' first | with_reducible assumption | exact Part.sub_of hp (by decide) | with_reducible apply Kept.portSend | with_reducible apply Kept.updPort | with_reducible apply Kept.foldl | with_reducible apply Kept.each | with_reducible refine Kept.ite (fun _ => ?_) (fun _ => ?_) | intro _ | (fail_if_no_progress with_reducible refine Kept.upd_of hp ?_ ?_ ?_ ?_ ?_ ?_ ?_ ?_ ?_ ?_ ?_ ?_ ?_ ?_ ?_ ?_ ?_ rfl rfl <;> try first | exact Or.inr rfl | exact Or.inl (by decide)) | (simp only [id_eq]; assumption) | dsimp only | split

theorem Kept.timeTake (h : Kept p a s) (hp : Part.sub { Part.alarms with tim := true, jl := true } p = true := by first | decide | (refine Part.sub_of (by assumption) ?_; decide)) : Kept p a (State.timeTake s x1 x2 x3 x4) := by
  unfold State.timeTake
  repeat' first | with_reducible assumption | exact Part.sub_of hp (by decide) | with_reducible apply Kept.takeLocal | with_reducible apply Kept.toHoldover | with_reducible apply Kept.raise | with_reducible apply Kept.lockedJoin | with_reducible apply Kept.foldl | with_reducible apply Kept.each | with_reducible refine Kept.ite (fun _ => ?_) (fun _ => ?_) | intro _ | (fail_if_no_progress with_reducible refine Kept.upd_of hp ?_ ?_ ?_ ?_ ?_ ?_ ?_ ?_ ?_ ?_ ?_ ?_ ?_ ?_ ?_ ?_ ?_ rfl rfl <;> try first | exact Or.inr rfl | exact Or.inl (by decide)) | (simp only [id_eq]; assumption) | dsimp only | split

theorem Kept.tmuxSel (h : Kept p a s) (hp : Part.sub { tst := true } p = true := by first | decide | (refine Part.sub_of (by assumption) ?_; decide)) : Kept p a (State.tmuxSel s x1) := by
  unfold State.tmuxSel
  repeat' first | with_reducible assumption | exact Part.sub_of hp (by decide) | with_reducible apply Kept.tapIr | with_reducible apply Kept.tmuxPut | with_reducible apply Kept.tapShow | with_reducible apply Kept.foldl | with_reducible apply Kept.each | with_reducible refine Kept.ite (fun _ => ?_) (fun _ => ?_) | intro _ | (fail_if_no_progress with_reducible refine Kept.upd_of hp ?_ ?_ ?_ ?_ ?_ ?_ ?_ ?_ ?_ ?_ ?_ ?_ ?_ ?_ ?_ ?_ ?_ rfl rfl <;> try first | exact Or.inr rfl | exact Or.inl (by decide)) | (simp only [id_eq]; assumption) | dsimp only | split

theorem Kept.trainVersion (h : Kept p a s) (hp : Part.sub { Part.alarms with jl := true } p = true := by first | decide | (refine Part.sub_of (by assumption) ?_; decide)) : Kept p a (State.trainVersion s x1 x2 x3) := by
  unfold State.trainVersion
  repeat' first | with_reducible assumption | exact Part.sub_of hp (by decide) | with_reducible apply Kept.linkDown | with_reducible apply Kept.updPort | with_reducible apply Kept.each | with_reducible apply Kept.portSend | with_reducible apply Kept.foldl | with_reducible apply Kept.each | with_reducible refine Kept.ite (fun _ => ?_) (fun _ => ?_) | intro _ | (fail_if_no_progress with_reducible refine Kept.upd_of hp ?_ ?_ ?_ ?_ ?_ ?_ ?_ ?_ ?_ ?_ ?_ ?_ ?_ ?_ ?_ ?_ ?_ rfl rfl <;> try first | exact Or.inr rfl | exact Or.inl (by decide)) | (simp only [id_eq]; assumption) | dsimp only | split

theorem Kept.trainStep (h : Kept p a s) (hp : Part.sub { Part.alarms with jl := true } p = true := by first | decide | (refine Part.sub_of (by assumption) ?_; decide)) : Kept p a (State.trainStep s x1 x2) := by
  unfold State.trainStep
  repeat' first | with_reducible assumption | exact Part.sub_of hp (by decide) | with_reducible apply Kept.linkDown | with_reducible apply Kept.updPort | with_reducible apply Kept.trainVersion | with_reducible apply Kept.linkUp | with_reducible apply Kept.foldl | with_reducible apply Kept.each | with_reducible refine Kept.ite (fun _ => ?_) (fun _ => ?_) | intro _ | (fail_if_no_progress with_reducible refine Kept.upd_of hp ?_ ?_ ?_ ?_ ?_ ?_ ?_ ?_ ?_ ?_ ?_ ?_ ?_ ?_ ?_ ?_ ?_ rfl rfl <;> try first | exact Or.inr rfl | exact Or.inl (by decide)) | (simp only [id_eq]; assumption) | dsimp only | split

theorem Kept.tstacc {f : State → Nat × Word64 × State} (hf : ∀ b, Kept p a b → Kept p a (f b).2.2) (h : Kept p a s) (hp : Part.sub { tst := true } p = true := by first | decide | (refine Part.sub_of (by assumption) ?_; decide))  : Kept p a (s.tstacc f) := by
  have h1 : Kept p a (s.tapIr 0x22) := Kept.tapIr h
  unfold State.tstacc
  exact Kept.ite (fun _ => Kept.of hp (hf _ h1)) (fun _ => Kept.of hp h1)

theorem Kept.tstAck (h : Kept p a s) (hp : Part.sub { Part.alarms with tst := true } p = true := by first | decide | (refine Part.sub_of (by assumption) ?_; decide)) : Kept p a (State.tstAck s x1 x2) := by
  unfold State.tstAck
  repeat' first | with_reducible assumption | exact Part.sub_of hp (by decide) | with_reducible apply Kept.tstacc | with_reducible apply Kept.faultAck | with_reducible apply Kept.foldl | with_reducible apply Kept.each | with_reducible refine Kept.ite (fun _ => ?_) (fun _ => ?_) | intro _ | (fail_if_no_progress with_reducible refine Kept.upd_of hp ?_ ?_ ?_ ?_ ?_ ?_ ?_ ?_ ?_ ?_ ?_ ?_ ?_ ?_ ?_ ?_ ?_ rfl rfl <;> try first | exact Or.inr rfl | exact Or.inl (by decide)) | (simp only [id_eq]; assumption) | dsimp only | split

theorem Kept.writeOph (h : Kept p a s) (hp : Part.sub { recd := true } p = true := by first | decide | (refine Part.sub_of (by assumption) ?_; decide)) : Kept p a (State.writeOph s x1) := by
  unfold State.writeOph
  repeat' first | with_reducible assumption | exact Part.sub_of hp (by decide) | with_reducible apply Kept.foldl | with_reducible apply Kept.each | with_reducible refine Kept.ite (fun _ => ?_) (fun _ => ?_) | intro _ | (fail_if_no_progress with_reducible refine Kept.upd_of hp ?_ ?_ ?_ ?_ ?_ ?_ ?_ ?_ ?_ ?_ ?_ ?_ ?_ ?_ ?_ ?_ ?_ rfl rfl <;> try first | exact Or.inr rfl | exact Or.inl (by decide)) | (simp only [id_eq]; assumption) | dsimp only | split

theorem Kept.tstOph (h : Kept p a s) (hp : Part.sub { recd := true, tst := true } p = true := by first | decide | (refine Part.sub_of (by assumption) ?_; decide)) : Kept p a (State.tstOph s x1) := by
  unfold State.tstOph
  repeat' first | with_reducible assumption | exact Part.sub_of hp (by decide) | with_reducible apply Kept.tstacc | with_reducible apply Kept.writeOph | with_reducible apply Kept.foldl | with_reducible apply Kept.each | with_reducible refine Kept.ite (fun _ => ?_) (fun _ => ?_) | intro _ | (fail_if_no_progress with_reducible refine Kept.upd_of hp ?_ ?_ ?_ ?_ ?_ ?_ ?_ ?_ ?_ ?_ ?_ ?_ ?_ ?_ ?_ ?_ ?_ rfl rfl <;> try first | exact Or.inr rfl | exact Or.inl (by decide)) | (simp only [id_eq]; assumption) | dsimp only | split

theorem Kept.tstPut (h : Kept p a s) (hp : Part.sub { recd := true, rfe := true, slots := true, cx := true, luts := true, le := true, tst := true } p = true := by first | decide | (refine Part.sub_of (by assumption) ?_; decide)) : Kept p a (State.tstPut s x1 x2) := by
  unfold State.tstPut
  repeat' first | with_reducible assumption | exact Part.sub_of hp (by decide) | with_reducible apply Kept.updSlot | with_reducible apply Kept.updInst | with_reducible apply Kept.updEng | with_reducible apply Kept.updLut | with_reducible apply Kept.updTx | with_reducible apply Kept.foldl | with_reducible apply Kept.each | with_reducible refine Kept.ite (fun _ => ?_) (fun _ => ?_) | intro _ | (fail_if_no_progress with_reducible refine Kept.upd_of hp ?_ ?_ ?_ ?_ ?_ ?_ ?_ ?_ ?_ ?_ ?_ ?_ ?_ ?_ ?_ ?_ ?_ rfl rfl <;> try first | exact Or.inr rfl | exact Or.inl (by decide)) | (simp only [id_eq]; assumption) | dsimp only | split

theorem Kept.tstRead (h : Kept p a s) (hp : Part.sub { Part.alarms with le := true, tst := true, freeCnt := true } p = true := by first | decide | (refine Part.sub_of (by assumption) ?_; decide)) : Kept p a (State.tstRead s x1) := by
  unfold State.tstRead
  repeat' first | with_reducible assumption | exact Part.sub_of hp (by decide) | with_reducible apply Kept.tstacc | with_reducible apply Kept.symFound | with_reducible apply Kept.free | with_reducible apply Kept.foldl | with_reducible apply Kept.each | with_reducible refine Kept.ite (fun _ => ?_) (fun _ => ?_) | intro _ | (fail_if_no_progress with_reducible refine Kept.upd_of hp ?_ ?_ ?_ ?_ ?_ ?_ ?_ ?_ ?_ ?_ ?_ ?_ ?_ ?_ ?_ ?_ ?_ rfl rfl <;> try first | exact Or.inr rfl | exact Or.inl (by decide)) | (simp only [id_eq]; assumption) | dsimp only | split

theorem Kept.tstReg (h : Kept p a s) (hp : Part.sub { hif := true, tst := true } p = true := by first | decide | (refine Part.sub_of (by assumption) ?_; decide)) : Kept p a (State.tstReg s x1) := by
  unfold State.tstReg
  repeat' first | with_reducible assumption | exact Part.sub_of hp (by decide) | with_reducible apply Kept.tstacc | with_reducible apply Kept.portRead | with_reducible apply Kept.foldl | with_reducible apply Kept.each | with_reducible refine Kept.ite (fun _ => ?_) (fun _ => ?_) | intro _ | (fail_if_no_progress with_reducible refine Kept.upd_of hp ?_ ?_ ?_ ?_ ?_ ?_ ?_ ?_ ?_ ?_ ?_ ?_ ?_ ?_ ?_ ?_ ?_ rfl rfl <;> try first | exact Or.inr rfl | exact Or.inl (by decide)) | (simp only [id_eq]; assumption) | dsimp only | split

theorem Kept.tstRestore (h : Kept p a s) (hp : Part.sub { Part.alarms with tst := true } p = true := by first | decide | (refine Part.sub_of (by assumption) ?_; decide)) : Kept p a (State.tstRestore s) := by
  unfold State.tstRestore
  repeat' first | with_reducible assumption | exact Part.sub_of hp (by decide) | with_reducible apply Kept.tstacc | with_reducible apply Kept.restoreImage | with_reducible apply Kept.foldl | with_reducible apply Kept.each | with_reducible refine Kept.ite (fun _ => ?_) (fun _ => ?_) | intro _ | (fail_if_no_progress with_reducible refine Kept.upd_of hp ?_ ?_ ?_ ?_ ?_ ?_ ?_ ?_ ?_ ?_ ?_ ?_ ?_ ?_ ?_ ?_ ?_ rfl rfl <;> try first | exact Or.inr rfl | exact Or.inl (by decide)) | (simp only [id_eq]; assumption) | dsimp only | split

theorem Kept.tstStage (h : Kept p a s) (hp : Part.sub { recd := true, tst := true } p = true := by first | decide | (refine Part.sub_of (by assumption) ?_; decide)) : Kept p a (State.tstStage s x1 x2) := by
  unfold State.tstStage
  repeat' first | with_reducible assumption | exact Part.sub_of hp (by decide) | with_reducible apply Kept.tstacc | with_reducible apply Kept.foldl | with_reducible apply Kept.each | with_reducible refine Kept.ite (fun _ => ?_) (fun _ => ?_) | intro _ | (fail_if_no_progress with_reducible refine Kept.upd_of hp ?_ ?_ ?_ ?_ ?_ ?_ ?_ ?_ ?_ ?_ ?_ ?_ ?_ ?_ ?_ ?_ ?_ rfl rfl <;> try first | exact Or.inr rfl | exact Or.inl (by decide)) | (simp only [id_eq]; assumption) | dsimp only | split

theorem Kept.wordFresh (h : Kept p a s) (hp : Part.sub { flt := true } p = true := by first | decide | (refine Part.sub_of (by assumption) ?_; decide)) : Kept p a (State.wordFresh s x1) := by
  unfold State.wordFresh
  repeat' first | with_reducible assumption | exact Part.sub_of hp (by decide) | with_reducible apply Kept.foldl | with_reducible apply Kept.each | with_reducible refine Kept.ite (fun _ => ?_) (fun _ => ?_) | intro _ | (fail_if_no_progress with_reducible refine Kept.upd_of hp ?_ ?_ ?_ ?_ ?_ ?_ ?_ ?_ ?_ ?_ ?_ ?_ ?_ ?_ ?_ ?_ ?_ rfl rfl <;> try first | exact Or.inr rfl | exact Or.inl (by decide)) | (simp only [id_eq]; assumption) | dsimp only | split

theorem Kept.tstWrite (h : Kept p a s) (hp : Part.sub { flt := true, recd := true, rfe := true, slots := true, cx := true, luts := true, le := true, tst := true } p = true := by first | decide | (refine Part.sub_of (by assumption) ?_; decide)) : Kept p a (State.tstWrite s x1 x2) := by
  unfold State.tstWrite
  repeat' first | with_reducible assumption | exact Part.sub_of hp (by decide) | with_reducible apply Kept.tstacc | with_reducible apply Kept.wordFresh | with_reducible apply Kept.tstPut | with_reducible apply Kept.foldl | with_reducible apply Kept.each | with_reducible refine Kept.ite (fun _ => ?_) (fun _ => ?_) | intro _ | (fail_if_no_progress with_reducible refine Kept.upd_of hp ?_ ?_ ?_ ?_ ?_ ?_ ?_ ?_ ?_ ?_ ?_ ?_ ?_ ?_ ?_ ?_ ?_ rfl rfl <;> try first | exact Or.inr rfl | exact Or.inl (by decide)) | (simp only [id_eq]; assumption) | dsimp only | split

theorem Kept.tuneApply (h : Kept p a s) (hp : Part.sub { Part.alarms with rfe := true, jl := true } p = true := by first | decide | (refine Part.sub_of (by assumption) ?_; decide)) : Kept p a (State.tuneApply s x1 x2 x3 x4 x5) := by
  unfold State.tuneApply
  repeat' first | with_reducible assumption | exact Part.sub_of hp (by decide) | with_reducible apply Kept.updChain | with_reducible apply Kept.each | with_reducible apply Kept.authSlot | with_reducible apply Kept.authChain | with_reducible apply Kept.capAll | with_reducible apply Kept.cxChainSync | with_reducible apply Kept.cxRetune | with_reducible apply Kept.foldl | with_reducible apply Kept.each | with_reducible refine Kept.ite (fun _ => ?_) (fun _ => ?_) | intro _ | (fail_if_no_progress with_reducible refine Kept.upd_of hp ?_ ?_ ?_ ?_ ?_ ?_ ?_ ?_ ?_ ?_ ?_ ?_ ?_ ?_ ?_ ?_ ?_ rfl rfl <;> try first | exact Or.inr rfl | exact Or.inl (by decide)) | (simp only [id_eq]; assumption) | dsimp only | split

theorem Kept.tuneOne (h : Kept p a s) (hp : Part.sub { Part.alarms with rfe := true, jl := true } p = true := by first | decide | (refine Part.sub_of (by assumption) ?_; decide)) : Kept p a (State.tuneOne s x1 x2) := by
  unfold State.tuneOne
  repeat' first | with_reducible assumption | exact Part.sub_of hp (by decide) | with_reducible apply Kept.updDcb | with_reducible apply Kept.updTx | with_reducible apply Kept.complete | with_reducible apply Kept.tuneApply | with_reducible apply Kept.updPend | with_reducible apply Kept.completeId | with_reducible apply Kept.foldl | with_reducible apply Kept.each | with_reducible refine Kept.ite (fun _ => ?_) (fun _ => ?_) | intro _ | (fail_if_no_progress with_reducible refine Kept.upd_of hp ?_ ?_ ?_ ?_ ?_ ?_ ?_ ?_ ?_ ?_ ?_ ?_ ?_ ?_ ?_ ?_ ?_ rfl rfl <;> try first | exact Or.inr rfl | exact Or.inl (by decide)) | (simp only [id_eq]; assumption) | dsimp only | split

theorem Kept.tuningCommit (h : Kept p a s) (hp : Part.sub { Part.alarms with rfe := true, jl := true } p = true := by first | decide | (refine Part.sub_of (by assumption) ?_; decide)) : Kept p a (State.tuningCommit s x1) := by
  unfold State.tuningCommit
  repeat' first | with_reducible assumption | exact Part.sub_of hp (by decide) | with_reducible apply Kept.chainSync | with_reducible apply Kept.tuneOne | with_reducible apply Kept.foldl | with_reducible apply Kept.each | with_reducible refine Kept.ite (fun _ => ?_) (fun _ => ?_) | intro _ | (fail_if_no_progress with_reducible refine Kept.upd_of hp ?_ ?_ ?_ ?_ ?_ ?_ ?_ ?_ ?_ ?_ ?_ ?_ ?_ ?_ ?_ ?_ ?_ rfl rfl <;> try first | exact Or.inr rfl | exact Or.inl (by decide)) | (simp only [id_eq]; assumption) | dsimp only | split

theorem Kept.turnStep (h : Kept p a s) (hp : Part.sub { rfe := true } p = true := by first | decide | (refine Part.sub_of (by assumption) ?_; decide)) : Kept p a (State.turnStep s x1 x2) := by
  unfold State.turnStep
  repeat' first | with_reducible assumption | exact Part.sub_of hp (by decide) | with_reducible apply Kept.updSched | with_reducible apply Kept.foldl | with_reducible apply Kept.each | with_reducible refine Kept.ite (fun _ => ?_) (fun _ => ?_) | intro _ | (fail_if_no_progress with_reducible refine Kept.upd_of hp ?_ ?_ ?_ ?_ ?_ ?_ ?_ ?_ ?_ ?_ ?_ ?_ ?_ ?_ ?_ ?_ ?_ rfl rfl <;> try first | exact Or.inr rfl | exact Or.inl (by decide)) | (simp only [id_eq]; assumption) | dsimp only | split

theorem Kept.ukRun {f : Nat → State → State} (hf : ∀ t, Kept p a (f t s)) (h : Kept p a s) (hp : Part.sub { Part.alarms with le := true } p = true := by first | decide | (refine Part.sub_of (by assumption) ?_; decide))  : Kept p a (s.ukRun x1 x2 f) := by
  unfold State.ukRun
  split
  · split
    · split
      · exact Kept.ukTrap h
      · exact hf _
    · exact h
  · exact h

theorem Kept.ukNext (h : Kept p a s) (hp : Part.sub { le := true } p = true := by first | decide | (refine Part.sub_of (by assumption) ?_; decide)) : Kept p a (State.ukNext s x1 x2 x3) := by
  unfold State.ukNext
  repeat' first | with_reducible assumption | exact Part.sub_of hp (by decide) | with_reducible apply Kept.updEng | with_reducible apply Kept.foldl | with_reducible apply Kept.each | with_reducible refine Kept.ite (fun _ => ?_) (fun _ => ?_) | intro _ | (fail_if_no_progress with_reducible refine Kept.upd_of hp ?_ ?_ ?_ ?_ ?_ ?_ ?_ ?_ ?_ ?_ ?_ ?_ ?_ ?_ ?_ ?_ ?_ rfl rfl <;> try first | exact Or.inr rfl | exact Or.inl (by decide)) | (simp only [id_eq]; assumption) | dsimp only | split

theorem Kept.ukBranch (h : Kept p a s) (hp : Part.sub { Part.alarms with le := true } p = true := by first | decide | (refine Part.sub_of (by assumption) ?_; decide)) : Kept p a (State.ukBranch s x1 x2 x3 x4 x5 x6) := by
  unfold State.ukBranch
  repeat' first | with_reducible assumption | exact Part.sub_of hp (by decide) | with_reducible apply Kept.ukRun | with_reducible apply Kept.ukNext | with_reducible apply Kept.foldl | with_reducible apply Kept.each | with_reducible refine Kept.ite (fun _ => ?_) (fun _ => ?_) | intro _ | (fail_if_no_progress with_reducible refine Kept.upd_of hp ?_ ?_ ?_ ?_ ?_ ?_ ?_ ?_ ?_ ?_ ?_ ?_ ?_ ?_ ?_ ?_ ?_ rfl rfl <;> try first | exact Or.inr rfl | exact Or.inl (by decide)) | (simp only [id_eq]; assumption) | dsimp only | split

theorem Kept.ukCmul (h : Kept p a s) (hp : Part.sub { Part.alarms with le := true } p = true := by first | decide | (refine Part.sub_of (by assumption) ?_; decide)) : Kept p a (State.ukCmul s x1 x2 x3 x4 x5 x6) := by
  unfold State.ukCmul
  repeat' first | with_reducible assumption | exact Part.sub_of hp (by decide) | with_reducible apply Kept.ukRun | with_reducible apply Kept.ukNext | with_reducible apply Kept.eSetVec | with_reducible apply Kept.foldl | with_reducible apply Kept.each | with_reducible refine Kept.ite (fun _ => ?_) (fun _ => ?_) | intro _ | (fail_if_no_progress with_reducible refine Kept.upd_of hp ?_ ?_ ?_ ?_ ?_ ?_ ?_ ?_ ?_ ?_ ?_ ?_ ?_ ?_ ?_ ?_ ?_ rfl rfl <;> try first | exact Or.inr rfl | exact Or.inl (by decide)) | (simp only [id_eq]; assumption) | dsimp only | split

theorem Kept.ukJal (h : Kept p a s) (hp : Part.sub { Part.alarms with le := true } p = true := by first | decide | (refine Part.sub_of (by assumption) ?_; decide)) : Kept p a (State.ukJal s x1 x2) := by
  unfold State.ukJal
  repeat' first | with_reducible assumption | exact Part.sub_of hp (by decide) | with_reducible apply Kept.ukRun | with_reducible apply Kept.ukNext | with_reducible apply Kept.eSetReg | with_reducible apply Kept.foldl | with_reducible apply Kept.each | with_reducible refine Kept.ite (fun _ => ?_) (fun _ => ?_) | intro _ | (fail_if_no_progress with_reducible refine Kept.upd_of hp ?_ ?_ ?_ ?_ ?_ ?_ ?_ ?_ ?_ ?_ ?_ ?_ ?_ ?_ ?_ ?_ ?_ rfl rfl <;> try first | exact Or.inr rfl | exact Or.inl (by decide)) | (simp only [id_eq]; assumption) | dsimp only | split

theorem Kept.ukJalr (h : Kept p a s) (hp : Part.sub { Part.alarms with le := true } p = true := by first | decide | (refine Part.sub_of (by assumption) ?_; decide)) : Kept p a (State.ukJalr s x1 x2 x3 x4) := by
  unfold State.ukJalr
  repeat' first | with_reducible assumption | exact Part.sub_of hp (by decide) | with_reducible apply Kept.ukRun | with_reducible apply Kept.ukNext | with_reducible apply Kept.eSetReg | with_reducible apply Kept.foldl | with_reducible apply Kept.each | with_reducible refine Kept.ite (fun _ => ?_) (fun _ => ?_) | intro _ | (fail_if_no_progress with_reducible refine Kept.upd_of hp ?_ ?_ ?_ ?_ ?_ ?_ ?_ ?_ ?_ ?_ ?_ ?_ ?_ ?_ ?_ ?_ ?_ rfl rfl <;> try first | exact Or.inr rfl | exact Or.inl (by decide)) | (simp only [id_eq]; assumption) | dsimp only | split

theorem Kept.ukReg (h : Kept p a s) (hp : Part.sub { Part.alarms with le := true } p = true := by first | decide | (refine Part.sub_of (by assumption) ?_; decide)) : Kept p a (State.ukReg s x1 x2 x3 x4) := by
  unfold State.ukReg
  repeat' first | with_reducible assumption | exact Part.sub_of hp (by decide) | with_reducible apply Kept.ukRun | with_reducible apply Kept.ukNext | with_reducible apply Kept.eSetReg | with_reducible apply Kept.foldl | with_reducible apply Kept.each | with_reducible refine Kept.ite (fun _ => ?_) (fun _ => ?_) | intro _ | (fail_if_no_progress with_reducible refine Kept.upd_of hp ?_ ?_ ?_ ?_ ?_ ?_ ?_ ?_ ?_ ?_ ?_ ?_ ?_ ?_ ?_ ?_ ?_ rfl rfl <;> try first | exact Or.inr rfl | exact Or.inl (by decide)) | (simp only [id_eq]; assumption) | dsimp only | split

theorem Kept.ukLoad (h : Kept p a s) (hp : Part.sub { Part.alarms with le := true } p = true := by first | decide | (refine Part.sub_of (by assumption) ?_; decide)) : Kept p a (State.ukLoad s x1 x2 x3 x4 x5 x6 x7) := by
  unfold State.ukLoad
  repeat' first | with_reducible assumption | exact Part.sub_of hp (by decide) | with_reducible apply Kept.ukReg | with_reducible apply Kept.foldl | with_reducible apply Kept.each | with_reducible refine Kept.ite (fun _ => ?_) (fun _ => ?_) | intro _ | (fail_if_no_progress with_reducible refine Kept.upd_of hp ?_ ?_ ?_ ?_ ?_ ?_ ?_ ?_ ?_ ?_ ?_ ?_ ?_ ?_ ?_ ?_ ?_ rfl rfl <;> try first | exact Or.inr rfl | exact Or.inl (by decide)) | (simp only [id_eq]; assumption) | dsimp only | split

theorem Kept.ukPortRead (h : Kept p a s) (hp : Part.sub { Part.alarms with le := true } p = true := by first | decide | (refine Part.sub_of (by assumption) ?_; decide)) : Kept p a (State.ukPortRead s x1 x2 x3 x4 x5 x6) := by
  unfold State.ukPortRead
  repeat' first | with_reducible assumption | exact Part.sub_of hp (by decide) | with_reducible apply Kept.ukRun | with_reducible apply Kept.ukNext | with_reducible apply Kept.eSetReg | with_reducible apply Kept.foldl | with_reducible apply Kept.each | with_reducible refine Kept.ite (fun _ => ?_) (fun _ => ?_) | intro _ | (fail_if_no_progress with_reducible refine Kept.upd_of hp ?_ ?_ ?_ ?_ ?_ ?_ ?_ ?_ ?_ ?_ ?_ ?_ ?_ ?_ ?_ ?_ ?_ rfl rfl <;> try first | exact Or.inr rfl | exact Or.inl (by decide)) | (simp only [id_eq]; assumption) | dsimp only | split

theorem Kept.ukPortWrite (h : Kept p a s) (hp : Part.sub { Part.alarms with le := true } p = true := by first | decide | (refine Part.sub_of (by assumption) ?_; decide)) : Kept p a (State.ukPortWrite s x1 x2 x3 x4 x5) := by
  unfold State.ukPortWrite
  repeat' first | with_reducible assumption | exact Part.sub_of hp (by decide) | with_reducible apply Kept.ukRun | with_reducible apply Kept.ukNext | with_reducible apply Kept.updEng | with_reducible apply Kept.foldl | with_reducible apply Kept.each | with_reducible refine Kept.ite (fun _ => ?_) (fun _ => ?_) | intro _ | (fail_if_no_progress with_reducible refine Kept.upd_of hp ?_ ?_ ?_ ?_ ?_ ?_ ?_ ?_ ?_ ?_ ?_ ?_ ?_ ?_ ?_ ?_ ?_ rfl rfl <;> try first | exact Or.inr rfl | exact Or.inl (by decide)) | (simp only [id_eq]; assumption) | dsimp only | split

theorem Kept.ukStore (h : Kept p a s) (hp : Part.sub { Part.alarms with le := true } p = true := by first | decide | (refine Part.sub_of (by assumption) ?_; decide)) : Kept p a (State.ukStore s x1 x2 x3 x4 x5 x6) := by
  unfold State.ukStore
  repeat' first | with_reducible assumption | exact Part.sub_of hp (by decide) | with_reducible apply Kept.ukRun | with_reducible apply Kept.ukNext | with_reducible apply Kept.updEng | with_reducible apply Kept.foldl | with_reducible apply Kept.each | with_reducible refine Kept.ite (fun _ => ?_) (fun _ => ?_) | intro _ | (fail_if_no_progress with_reducible refine Kept.upd_of hp ?_ ?_ ?_ ?_ ?_ ?_ ?_ ?_ ?_ ?_ ?_ ?_ ?_ ?_ ?_ ?_ ?_ rfl rfl <;> try first | exact Or.inr rfl | exact Or.inl (by decide)) | (simp only [id_eq]; assumption) | dsimp only | split

theorem Kept.ukVec (h : Kept p a s) (hp : Part.sub { Part.alarms with le := true } p = true := by first | decide | (refine Part.sub_of (by assumption) ?_; decide)) : Kept p a (State.ukVec s x1 x2 x3 x4) := by
  unfold State.ukVec
  repeat' first | with_reducible assumption | exact Part.sub_of hp (by decide) | with_reducible apply Kept.ukRun | with_reducible apply Kept.ukNext | with_reducible apply Kept.eSetVec | with_reducible apply Kept.foldl | with_reducible apply Kept.each | with_reducible refine Kept.ite (fun _ => ?_) (fun _ => ?_) | intro _ | (fail_if_no_progress with_reducible refine Kept.upd_of hp ?_ ?_ ?_ ?_ ?_ ?_ ?_ ?_ ?_ ?_ ?_ ?_ ?_ ?_ ?_ ?_ ?_ rfl rfl <;> try first | exact Or.inr rfl | exact Or.inl (by decide)) | (simp only [id_eq]; assumption) | dsimp only | split

theorem Kept.ukVld (h : Kept p a s) (hp : Part.sub { Part.alarms with le := true } p = true := by first | decide | (refine Part.sub_of (by assumption) ?_; decide)) : Kept p a (State.ukVld s x1 x2 x3 x4) := by
  unfold State.ukVld
  repeat' first | with_reducible assumption | exact Part.sub_of hp (by decide) | with_reducible apply Kept.ukVec | with_reducible apply Kept.foldl | with_reducible apply Kept.each | with_reducible refine Kept.ite (fun _ => ?_) (fun _ => ?_) | intro _ | (fail_if_no_progress with_reducible refine Kept.upd_of hp ?_ ?_ ?_ ?_ ?_ ?_ ?_ ?_ ?_ ?_ ?_ ?_ ?_ ?_ ?_ ?_ ?_ rfl rfl <;> try first | exact Or.inr rfl | exact Or.inl (by decide)) | (simp only [id_eq]; assumption) | dsimp only | split

theorem Kept.ukVst (h : Kept p a s) (hp : Part.sub { Part.alarms with le := true } p = true := by first | decide | (refine Part.sub_of (by assumption) ?_; decide)) : Kept p a (State.ukVst s x1 x2 x3 x4) := by
  unfold State.ukVst
  repeat' first | with_reducible assumption | exact Part.sub_of hp (by decide) | with_reducible apply Kept.ukRun | with_reducible apply Kept.ukNext | with_reducible apply Kept.updEng | with_reducible apply Kept.foldl | with_reducible apply Kept.each | with_reducible refine Kept.ite (fun _ => ?_) (fun _ => ?_) | intro _ | (fail_if_no_progress with_reducible refine Kept.upd_of hp ?_ ?_ ?_ ?_ ?_ ?_ ?_ ?_ ?_ ?_ ?_ ?_ ?_ ?_ ?_ ?_ ?_ rfl rfl <;> try first | exact Or.inr rfl | exact Or.inl (by decide)) | (simp only [id_eq]; assumption) | dsimp only | split

theorem Kept.ukWait (h : Kept p a s) (hp : Part.sub { Part.alarms with le := true } p = true := by first | decide | (refine Part.sub_of (by assumption) ?_; decide)) : Kept p a (State.ukWait s x1) := by
  unfold State.ukWait
  repeat' first | with_reducible assumption | exact Part.sub_of hp (by decide) | with_reducible apply Kept.ukRun | with_reducible apply Kept.commitWrite | with_reducible apply Kept.updTask | with_reducible apply Kept.updEng | with_reducible apply Kept.stopNow | with_reducible apply Kept.foldl | with_reducible apply Kept.each | with_reducible refine Kept.ite (fun _ => ?_) (fun _ => ?_) | intro _ | (fail_if_no_progress with_reducible refine Kept.upd_of hp ?_ ?_ ?_ ?_ ?_ ?_ ?_ ?_ ?_ ?_ ?_ ?_ ?_ ?_ ?_ ?_ ?_ rfl rfl <;> try first | exact Or.inr rfl | exact Or.inl (by decide)) | (simp only [id_eq]; assumption) | dsimp only | split

theorem Kept.vecMaskRead (h : Kept p a s) (hp : Part.sub { hif := true } p = true := by first | decide | (refine Part.sub_of (by assumption) ?_; decide)) : Kept p a (State.vecMaskRead s x1) := by
  unfold State.vecMaskRead
  repeat' first | with_reducible assumption | exact Part.sub_of hp (by decide) | with_reducible apply Kept.foldl | with_reducible apply Kept.each | with_reducible refine Kept.ite (fun _ => ?_) (fun _ => ?_) | intro _ | (fail_if_no_progress with_reducible refine Kept.upd_of hp ?_ ?_ ?_ ?_ ?_ ?_ ?_ ?_ ?_ ?_ ?_ ?_ ?_ ?_ ?_ ?_ ?_ rfl rfl <;> try first | exact Or.inr rfl | exact Or.inl (by decide)) | (simp only [id_eq]; assumption) | dsimp only | split

theorem Kept.vectorLaunch (h : Kept p a s) (hp : Part.sub { hif := true, intc := true } p = true := by first | decide | (refine Part.sub_of (by assumption) ?_; decide)) : Kept p a (State.vectorLaunch s x1) := by
  unfold State.vectorLaunch
  repeat' first | with_reducible assumption | exact Part.sub_of hp (by decide) | with_reducible apply Kept.claim | with_reducible apply Kept.hostWrite | with_reducible apply Kept.foldl | with_reducible apply Kept.each | with_reducible refine Kept.ite (fun _ => ?_) (fun _ => ?_) | intro _ | (fail_if_no_progress with_reducible refine Kept.upd_of hp ?_ ?_ ?_ ?_ ?_ ?_ ?_ ?_ ?_ ?_ ?_ ?_ ?_ ?_ ?_ ?_ ?_ rfl rfl <;> try first | exact Or.inr rfl | exact Or.inl (by decide)) | (simp only [id_eq]; assumption) | dsimp only | split

theorem Kept.vidLower (h : Kept p a s) (hp : Part.sub { tim := true } p = true := by first | decide | (refine Part.sub_of (by assumption) ?_; decide)) : Kept p a (State.vidLower s) := by
  unfold State.vidLower
  repeat' first | with_reducible assumption | exact Part.sub_of hp (by decide) | with_reducible apply Kept.foldl | with_reducible apply Kept.each | with_reducible refine Kept.ite (fun _ => ?_) (fun _ => ?_) | intro _ | (fail_if_no_progress with_reducible refine Kept.upd_of hp ?_ ?_ ?_ ?_ ?_ ?_ ?_ ?_ ?_ ?_ ?_ ?_ ?_ ?_ ?_ ?_ ?_ rfl rfl <;> try first | exact Or.inr rfl | exact Or.inl (by decide)) | (simp only [id_eq]; assumption) | dsimp only | split

theorem Kept.vidRaise (h : Kept p a s) (hp : Part.sub { Part.alarms with tim := true } p = true := by first | decide | (refine Part.sub_of (by assumption) ?_; decide)) : Kept p a (State.vidRaise s) := by
  unfold State.vidRaise
  repeat' first | with_reducible assumption | exact Part.sub_of hp (by decide) | with_reducible apply Kept.raise | with_reducible apply Kept.foldl | with_reducible apply Kept.each | with_reducible refine Kept.ite (fun _ => ?_) (fun _ => ?_) | intro _ | (fail_if_no_progress with_reducible refine Kept.upd_of hp ?_ ?_ ?_ ?_ ?_ ?_ ?_ ?_ ?_ ?_ ?_ ?_ ?_ ?_ ?_ ?_ ?_ rfl rfl <;> try first | exact Or.inr rfl | exact Or.inl (by decide)) | (simp only [id_eq]; assumption) | dsimp only | split

theorem Kept.vswrStep (h : Kept p a s) (hp : Part.sub { rfe := true } p = true := by first | decide | (refine Part.sub_of (by assumption) ?_; decide)) : Kept p a (State.vswrStep s x1) := by
  unfold State.vswrStep
  repeat' first | with_reducible assumption | exact Part.sub_of hp (by decide) | with_reducible apply Kept.devStep | with_reducible apply Kept.updTx | with_reducible apply Kept.searchFrame | with_reducible apply Kept.foldl | with_reducible apply Kept.each | with_reducible refine Kept.ite (fun _ => ?_) (fun _ => ?_) | intro _ | (fail_if_no_progress with_reducible refine Kept.upd_of hp ?_ ?_ ?_ ?_ ?_ ?_ ?_ ?_ ?_ ?_ ?_ ?_ ?_ ?_ ?_ ?_ ?_ rfl rfl <;> try first | exact Or.inr rfl | exact Or.inl (by decide)) | (simp only [id_eq]; assumption) | dsimp only | split

theorem Kept.vswrCount (h : Kept p a s) (hp : Part.sub { Part.alarms with rfe := true } p = true := by first | decide | (refine Part.sub_of (by assumption) ?_; decide)) : Kept p a (State.vswrCount s x1 x2 x3) := by
  unfold State.vswrCount
  repeat' first | with_reducible assumption | exact Part.sub_of hp (by decide) | with_reducible apply Kept.updTx | with_reducible apply Kept.raise | with_reducible apply Kept.vswrStep | with_reducible apply Kept.winterSet | with_reducible apply Kept.searchStop | with_reducible apply Kept.foldl | with_reducible apply Kept.each | with_reducible refine Kept.ite (fun _ => ?_) (fun _ => ?_) | intro _ | (fail_if_no_progress with_reducible refine Kept.upd_of hp ?_ ?_ ?_ ?_ ?_ ?_ ?_ ?_ ?_ ?_ ?_ ?_ ?_ ?_ ?_ ?_ ?_ rfl rfl <;> try first | exact Or.inr rfl | exact Or.inl (by decide)) | (simp only [id_eq]; assumption) | dsimp only | split

theorem Kept.vswrWindow (h : Kept p a s) (hp : Part.sub { Part.alarms with rfe := true } p = true := by first | decide | (refine Part.sub_of (by assumption) ?_; decide)) : Kept p a (State.vswrWindow s x1 x2 x3 x4) := by
  unfold State.vswrWindow
  repeat' first | with_reducible assumption | exact Part.sub_of hp (by decide) | with_reducible apply Kept.updTx | with_reducible apply Kept.vswrCount | with_reducible apply Kept.foldl | with_reducible apply Kept.each | with_reducible refine Kept.ite (fun _ => ?_) (fun _ => ?_) | intro _ | (fail_if_no_progress with_reducible refine Kept.upd_of hp ?_ ?_ ?_ ?_ ?_ ?_ ?_ ?_ ?_ ?_ ?_ ?_ ?_ ?_ ?_ ?_ ?_ rfl rfl <;> try first | exact Or.inr rfl | exact Or.inl (by decide)) | (simp only [id_eq]; assumption) | dsimp only | split

end Sys2Proof.Laws
end

