-- ==== Sys2Proof/Laws/Chains.lean ====
section
/-! SUPPORT. Radio chains: what each shared operation does to a chain, and that it does it to no other. -/

namespace Sys2Proof.Laws

open Sys2Proof.Machine

variable {p : Part} {a b s : State}

/-- What Kept says, as one equation. -/
theorem Kept.frame (k : Kept p a b) : b = { a with hif := bif p.hif then b.hif else a.hif, intc := bif p.intc then b.intc else a.intc, flt := bif p.flt then b.flt else a.flt, recd := bif p.recd then b.recd else a.recd, rfe := bif p.rfe then b.rfe else a.rfe, slots := bif p.slots then b.slots else a.slots, cx := bif p.cx then b.cx else a.cx, cxPol := bif p.cxPol then b.cxPol else a.cxPol, gcl := bif p.gcl then b.gcl else a.gcl, luts := bif p.luts then b.luts else a.luts, prot := bif p.prot then b.prot else a.prot, tim := bif p.tim then b.tim else a.tim, le := bif p.le then b.le else a.le, jl := bif p.jl then b.jl else a.jl, tst := bif p.tst then b.tst else a.tst, freeCnt := bif p.freeCnt then b.freeCnt else a.freeCnt } := by
  obtain ⟨hhif, hintc, hflt, hrecd, hrfe, hslots, hcx, hcxPol, hgcl, hluts, hprot, htim, hle, hjl, htst, hfreeCnt, hn, hq⟩ := k
  have ehif : (bif p.hif then b.hif else a.hif) = b.hif := by
    cases hp : p.hif
    · exact (hhif hp).symm
    · rfl
  have eintc : (bif p.intc then b.intc else a.intc) = b.intc := by
    cases hp : p.intc
    · exact (hintc hp).symm
    · rfl
  have eflt : (bif p.flt then b.flt else a.flt) = b.flt := by
    cases hp : p.flt
    · exact (hflt hp).symm
    · rfl
  have erecd : (bif p.recd then b.recd else a.recd) = b.recd := by
    cases hp : p.recd
    · exact (hrecd hp).symm
    · rfl
  have erfe : (bif p.rfe then b.rfe else a.rfe) = b.rfe := by
    cases hp : p.rfe
    · exact (hrfe hp).symm
    · rfl
  have eslots : (bif p.slots then b.slots else a.slots) = b.slots := by
    cases hp : p.slots
    · exact (hslots hp).symm
    · rfl
  have ecx : (bif p.cx then b.cx else a.cx) = b.cx := by
    cases hp : p.cx
    · exact (hcx hp).symm
    · rfl
  have ecxPol : (bif p.cxPol then b.cxPol else a.cxPol) = b.cxPol := by
    cases hp : p.cxPol
    · exact (hcxPol hp).symm
    · rfl
  have egcl : (bif p.gcl then b.gcl else a.gcl) = b.gcl := by
    cases hp : p.gcl
    · exact (hgcl hp).symm
    · rfl
  have eluts : (bif p.luts then b.luts else a.luts) = b.luts := by
    cases hp : p.luts
    · exact (hluts hp).symm
    · rfl
  have eprot : (bif p.prot then b.prot else a.prot) = b.prot := by
    cases hp : p.prot
    · exact (hprot hp).symm
    · rfl
  have etim : (bif p.tim then b.tim else a.tim) = b.tim := by
    cases hp : p.tim
    · exact (htim hp).symm
    · rfl
  have ele : (bif p.le then b.le else a.le) = b.le := by
    cases hp : p.le
    · exact (hle hp).symm
    · rfl
  have ejl : (bif p.jl then b.jl else a.jl) = b.jl := by
    cases hp : p.jl
    · exact (hjl hp).symm
    · rfl
  have etst : (bif p.tst then b.tst else a.tst) = b.tst := by
    cases hp : p.tst
    · exact (htst hp).symm
    · rfl
  have efreeCnt : (bif p.freeCnt then b.freeCnt else a.freeCnt) = b.freeCnt := by
    cases hp : p.freeCnt
    · exact (hfreeCnt hp).symm
    · rfl
  rw [ehif, eintc, eflt, erecd, erfe, eslots, ecx, ecxPol, egcl, eluts, eprot, etim, ele, ejl, etst, efreeCnt, ← hn, ← hq]

/-- Chains stand where the RFE block does. -/
theorem Kept.chain (k : Kept p a b) (e : p.rfe = false) (i : Nat) : b.chain i = a.chain i := by unfold State.chain; rw [k.rfe e]

/-- Transmit chains stand where the RFE block does. -/
theorem Kept.txc (k : Kept p a b) (e : p.rfe = false) (i : Nat) : b.txc i = a.txc i := by unfold State.txc; rw [k.rfe e]

/-- A step repeated over distinct elements acts on each once, where it stands as it stood, and leaves every other as it was. -/
theorem each_at {β : Type} (v : State → Nat → β) (I : State → Prop) (f : Nat → State → State) (hf : ∀ i c j, j ≠ i → v (f i c) j = v c j) (hI : ∀ i c, I c → I (f i c))
    (l : List Nat) : ∀ c : State, I c → l.Nodup → ∀ j, (j ∉ l → v (c.each l f) j = v c j) ∧ (j ∈ l → ∃ d, I d ∧ v d j = v c j ∧ v (c.each l f) j = v (f j d) j) := by
  induction l with
  | nil => intro c _ _ j; exact ⟨fun _ => rfl, fun h => absurd h (by simp)⟩
  | cons m r ih =>
    intro c hc hn j
    rw [List.nodup_cons] at hn
    obtain ⟨i1, i2⟩ := ih (f m c) (hI m c hc) hn.2 j
    refine ⟨?_, ?_⟩
    · intro hj
      rw [List.mem_cons, not_or] at hj
      exact (i1 hj.2).trans (hf m c j hj.1)
    · intro hj
      by_cases hm : j = m
      · subst hm
        exact ⟨c, hc, rfl, i1 hn.1⟩
      · obtain ⟨d, hd, h1, h2⟩ := i2 ((List.mem_cons.mp hj).resolve_left hm)
        exact ⟨d, hd, h1.trans (hf m c j hm), h2⟩

theorem chainSync_chain (s : State) (i j : Nat) : (s.chainSync i).chain j = if i = j then s.chainNow i else s.chain j := by
  unfold State.chainSync
  by_cases h : i = j
  · subst h; rw [if_pos rfl, State.chain_updChain]; rfl
  · rw [if_neg h, State.chain_updChain_ne _ _ _ _ h]

/-- A chain takes its state, its LOCK, UNMET and DONE; the slots and instances on it follow. -/
theorem moveChain_chain (s : State) (i : Nat) (g : ChSt) (j : Nat) : (s.moveChain i g).chain j =
    if i = j then { s.chain i with
      st := g
      lock := if g = .standby ∧ 2 ≤ (s.chain i).st.rank then .none else (s.chain i).lock
      unmet := if (s.chain i).st = .sleep ∧ g ≠ .sleep then (s.chain i).unmet ||| 5 else (s.chain i).unmet
      done := if (s.chain i).st = .sleep ∧ g ≠ .sleep then (s.chain i).done &&& ~~~5 else (s.chain i).done } else s.chain j := by
  unfold State.moveChain
  dsimp only
  have k : ∀ u : State, Kept { slots := true, cx := true } u ((u.rxLeft i).cxChainSync i) := fun u => Kept.cxChainSync (Kept.rxLeft (Kept.refl _ u))
  have k' : ∀ u : State, Kept { slots := true, cx := true } u ((u.rxEntered i).cxChainSync i) := fun u => Kept.cxChainSync (Kept.rxEntered (Kept.refl _ u))
  by_cases h : i = j
  · subst h
    rw [if_pos rfl]
    split
    · rw [(k _).chain rfl, State.chain_updChain]
    · split
      · rw [(k' _).chain rfl, State.chain_updChain]
      · rw [State.chain_updChain]
  · rw [if_neg h]
    split
    · rw [(k _).chain rfl, State.chain_updChain_ne _ _ _ _ h]
    · split
      · rw [(k' _).chain rfl, State.chain_updChain_ne _ _ _ _ h]
      · rw [State.chain_updChain_ne _ _ _ _ h]

/-- A completion touches no chain. -/
theorem completeId_chain (s : State) (id : Nat) (st : Status) (r : Word) (x : Half) (j : Nat) : (s.completeId id st r x).chain j = s.chain j :=
  (Kept.completeId (p := { hif := true, intc := true, recd := true }) (Kept.refl _ s)).chain rfl j

theorem complete_chain (s : State) (q : Pend) (st : Status) (r : Word) (x : Half) (j : Nat) : (s.complete q st r x).chain j = s.chain j :=
  (Kept.complete (p := { hif := true, intc := true, recd := true }) (Kept.refl _ s)).chain rfl j

theorem completeAll_chain (s : State) (f : Pend → Bool) (st : Status) (j : Nat) : (s.completeAll f st).chain j = s.chain j :=
  (Kept.completeAll (p := { hif := true, intc := true, recd := true }) (Kept.refl _ s)).chain rfl j

theorem raise_chain (s : State) (b n : Nat) (f : FScope) (j : Nat) : (s.raise b n f).chain j = s.chain j :=
  (Kept.raise (p := Part.alarms) (Kept.refl _ s)).chain rfl j

theorem lockFailed_chain (s : State) (i j : Nat) : (s.lockFailed i).chain j =
    if i = j then { s.chain i with lock := .failed, unmet := (s.chain i).unmet ||| 2, fail := (s.chain i).fail ||| 2, done := (s.chain i).done &&& 13 } else s.chain j := by
  unfold State.lockFailed
  by_cases h : i = j
  · subst h; rw [if_pos rfl, State.chain_updChain]
  · rw [if_neg h, State.chain_updChain_ne _ _ _ _ h]

theorem walkFail_chain (s : State) (i : Nat) (st : Status) (j : Nat) : (s.walkFail i st).chain j = if i = j then { s.chain i with walk := none } else s.chain j := by
  unfold State.walkFail
  split
  · rw [completeId_chain]
    by_cases h : i = j
    · subst h; rw [if_pos rfl, State.chain_updChain]
    · rw [if_neg h, State.chain_updChain_ne _ _ _ _ h]
  · rename_i hw
    by_cases h : i = j
    · subst h; rw [if_pos rfl]; rw [← hw]
    · rw [if_neg h]

theorem updChain_chain (s : State) (i : Nat) (f : Chain → Chain) (j : Nat) : (s.updChain i f).chain j = if i = j then f (s.chain i) else s.chain j := by
  by_cases h : i = j
  · subst h; rw [if_pos rfl, State.chain_updChain]
  · rw [if_neg h, State.chain_updChain_ne _ _ _ _ h]

/-- A chain that falls with its tile's clock stands in STANDBY with LOCK FAILED; one in SLEEP is not concerned (R59). -/
theorem ckDrop_chain (s : State) (i j : Nat) : (s.ckDrop i).chain j =
    if i = j then
      if (s.chainNow i).st = .sleep then s.chainNow i
      else { s.chainNow i with trans := none, cal := none, walk := none, st := .standby, lock := .failed, unmet := (s.chainNow i).unmet ||| 2, fail := (s.chainNow i).fail ||| 2, done := (s.chainNow i).done &&& 13 }
    else s.chain j := by
  unfold State.ckDrop
  dsimp only
  rw [chainSync_chain, if_pos rfl]
  by_cases hs : (s.chainNow i).st = .sleep
  · rw [if_pos hs, chainSync_chain, if_pos hs]
  · rw [if_neg hs, if_neg hs, completeAll_chain, walkFail_chain, lockFailed_chain, lockFailed_chain, moveChain_chain, moveChain_chain, updChain_chain, updChain_chain]
    simp only [if_true, chainSync_chain]
    by_cases h : i = j
    · subst h
      simp only [if_true, hs, false_and, if_false]
    · simp only [if_neg h]

/-- From a to b the RFE block has changed in its chains alone. -/
def RfeChains (a b : State) : Prop := b.rfe = { a.rfe with chains := b.rfe.chains }

theorem RfeChains.refl (a : State) : RfeChains a a := rfl

theorem RfeChains.trans {c : State} (h : RfeChains a b) (h' : RfeChains b c) : RfeChains a c := by
  unfold RfeChains at h h' ⊢
  rw [h', h]

theorem Kept.rfeChains (k : Kept p a b) (e : p.rfe = false) : RfeChains a b := by unfold RfeChains; rw [k.rfe e]

theorem updChain_rfeChains (s : State) (i : Nat) (f : Chain → Chain) : RfeChains s (s.updChain i f) := rfl

theorem chainSync_rfeChains (s : State) (i : Nat) : RfeChains s (s.chainSync i) := rfl

theorem lockFailed_rfeChains (s : State) (i : Nat) : RfeChains s (s.lockFailed i) := rfl

theorem completeId_rfeChains (s : State) (id : Nat) (st : Status) (r : Word) (x : Half) : RfeChains s (s.completeId id st r x) :=
  (Kept.completeId (p := { hif := true, intc := true, recd := true }) (Kept.refl _ s)).rfeChains rfl

theorem complete_rfeChains (s : State) (q : Pend) (st : Status) (r : Word) (x : Half) : RfeChains s (s.complete q st r x) :=
  (Kept.complete (p := { hif := true, intc := true, recd := true }) (Kept.refl _ s)).rfeChains rfl

theorem completeAll_rfeChains (s : State) (f : Pend → Bool) (st : Status) : RfeChains s (s.completeAll f st) :=
  (Kept.completeAll (p := { hif := true, intc := true, recd := true }) (Kept.refl _ s)).rfeChains rfl

theorem raise_rfeChains (s : State) (b n : Nat) (f : FScope) : RfeChains s (s.raise b n f) :=
  (Kept.raise (p := Part.alarms) (Kept.refl _ s)).rfeChains rfl

theorem walkFail_rfeChains (s : State) (i : Nat) (st : Status) : RfeChains s (s.walkFail i st) := by
  unfold State.walkFail
  split
  · exact (updChain_rfeChains s i _).trans (completeId_rfeChains _ _ _ _ _)
  · exact RfeChains.refl s

theorem moveChain_rfeChains (s : State) (i : Nat) (g : ChSt) : RfeChains s (s.moveChain i g) := by
  unfold State.moveChain
  dsimp only
  have k : ∀ u : State, RfeChains u ((u.rxLeft i).cxChainSync i) := fun u => (Kept.cxChainSync (p := { slots := true, cx := true }) (Kept.rxLeft (Kept.refl _ u))).rfeChains rfl
  have k' : ∀ u : State, RfeChains u ((u.rxEntered i).cxChainSync i) := fun u => (Kept.cxChainSync (p := { slots := true, cx := true }) (Kept.rxEntered (Kept.refl _ u))).rfeChains rfl
  split
  · exact (updChain_rfeChains s i _).trans (k _)
  · split
    · exact (updChain_rfeChains s i _).trans (k' _)
    · exact updChain_rfeChains s i _

theorem ckDrop_rfeChains (s : State) (i : Nat) : RfeChains s (s.ckDrop i) := by
  unfold State.ckDrop
  dsimp only
  split
  · exact chainSync_rfeChains s i
  · exact ((((chainSync_rfeChains s i).trans (updChain_rfeChains _ i _)).trans (moveChain_rfeChains _ i _)).trans
      ((lockFailed_rfeChains _ i).trans (walkFail_rfeChains _ i _))).trans (completeAll_rfeChains _ _ _)

/-- A property that a step keeps is kept by its repetition. -/
theorem each_keep (P : State → Prop) (f : Nat → State → State) (hf : ∀ i c, P c → P (f i c)) (l : List Nat) : ∀ u : State, P u → P (u.each l f) := by
  induction l with
  | nil => exact fun u h => h
  | cons x r ih => exact fun u h => ih _ (hf x u h)

/-- What one round of a repetition establishes and every other keeps holds at its end. -/
theorem each_once (P : State → Prop) (f : Nat → State → State) (hf : ∀ i c, P c → P (f i c)) (l : List Nat) (k : Nat) (hk : k ∈ l) (h : ∀ c, P (f k c)) (u : State) : P (u.each l f) := by
  induction l generalizing u with
  | nil => exact absurd hk (by simp)
  | cons x r ih =>
    by_cases hx : k ∈ r
    · exact ih hx _
    · have : k = x := (List.mem_cons.mp hk).resolve_right hx
      subst this
      exact each_keep P f hf r _ (h u)

end Sys2Proof.Laws
end

