-- ==== Sys2Proof/Laws/Only.lean ====
section
/-! SUPPORT. Each change of one element of one part changes at most that element. -/

namespace Sys2Proof.Machine

variable (s : State) (i : Nat)

theorem State.updChain_only (f : Chain → Chain) : s.onlyChain (s.updChain i f) i := ⟨rfl, fun _ h => State.chain_updChain_ne s _ _ f (Ne.symm h)⟩
theorem State.updTx_only (f : TxCh → TxCh) : s.onlyTxc (s.updTx i f) i := ⟨rfl, fun _ h => State.txc_updTx_ne s _ _ f (Ne.symm h)⟩
theorem State.updDcb_only (f : Dcb → Dcb) : s.onlyDcb (s.updDcb i f) i := ⟨rfl, fun _ h => State.dcb_updDcb_ne s _ _ f (Ne.symm h)⟩
theorem State.updFecb_only (f : Fecb → Fecb) : s.onlyFecb (s.updFecb i f) i := ⟨rfl, fun _ h => State.fecb_updFecb_ne s _ _ f (Ne.symm h)⟩
theorem State.updSched_only (f : Sched → Sched) : s.onlySched (s.updSched i f) i := ⟨rfl, fun _ h => State.sched_updSched_ne s _ _ f (Ne.symm h)⟩
theorem State.updSlot_only (f : Slot → Slot) : s.onlySlot (s.updSlot i f) i := ⟨rfl, fun _ h => State.slot_updSlot_ne s _ _ f (Ne.symm h)⟩
theorem State.updInst_only (f : Inst → Inst) : s.onlyInst (s.updInst i f) i := ⟨rfl, fun _ h => State.inst_updInst_ne s _ _ f (Ne.symm h)⟩
theorem State.updGain_only (f : Gain → Gain) : s.onlyGain (s.updGain i f) i := ⟨rfl, fun _ h => State.gain_updGain_ne s _ _ f (Ne.symm h)⟩
theorem State.updLut_only (f : Lut → Lut) : s.onlyLut (s.updLut i f) i := ⟨rfl, fun _ h => State.lut_updLut_ne s _ _ f (Ne.symm h)⟩
theorem State.updObj_only (f : WObj → WObj) : s.onlyWobj (s.updObj i f) i := ⟨rfl, fun _ h => State.wobj_updObj_ne s _ _ f (Ne.symm h)⟩
theorem State.updNet_only (f : Net → Net) : s.onlyNet (s.updNet i f) i := ⟨rfl, fun _ h => State.net_updNet_ne s _ _ f (Ne.symm h)⟩
theorem State.updRxDet_only (f : RxDet → RxDet) : s.onlyRxDet (s.updRxDet i f) i := ⟨rfl, fun _ h => State.rxDet_updRxDet_ne s _ _ f (Ne.symm h)⟩
theorem State.updRing_only (f : CmdRing → CmdRing) : s.onlyRing (s.updRing i f) i := ⟨rfl, fun _ h => State.ring_updRing_ne s _ _ f (Ne.symm h)⟩
theorem State.updTr_only (f : OutRing → OutRing) : s.onlyTrRing (s.updTr i f) i := ⟨rfl, fun _ h => State.trRing_updTr_ne s _ _ f (Ne.symm h)⟩
theorem State.updVec_only (f : Vec → Vec) : s.onlyVec (s.updVec i f) i := ⟨rfl, fun _ h => State.vec_updVec_ne s _ _ f (Ne.symm h)⟩
theorem State.updFsrc_only (f : FSrc → FSrc) : s.onlyFsrc (s.updFsrc i f) i := ⟨rfl, fun _ h => State.fsrc_updFsrc_ne s _ _ f (Ne.symm h)⟩
theorem State.updTile_only (f : TileT → TileT) : s.onlyTileT (s.updTile i f) i := ⟨rfl, fun _ h => State.tileT_updTile_ne s _ _ f (Ne.symm h)⟩
theorem State.updEng_only (f : Eng → Eng) : s.onlyEng (s.updEng i f) i := ⟨rfl, fun _ h => State.eng_updEng_ne s _ _ f (Ne.symm h)⟩
theorem State.updTask_only (f : Task → Task) : s.onlyTask (s.updTask i f) i := ⟨rfl, fun _ h => State.task_updTask_ne s _ _ f (Ne.symm h)⟩
theorem State.updPort_only (f : Port → Port) : s.onlyPort (s.updPort i f) i := ⟨rfl, fun _ h => State.port_updPort_ne s _ _ f (Ne.symm h)⟩
theorem State.updStrm_only (f : Strm → Strm) : s.onlyStrm (s.updStrm i f) i := ⟨rfl, fun _ h => State.strm_updStrm_ne s _ _ f (Ne.symm h)⟩
theorem State.updBucket_only (f : Bucket → Bucket) : s.onlyBucket (s.updBucket i f) i := ⟨rfl, fun _ h => State.bucket_updBucket_ne s _ _ f (Ne.symm h)⟩

end Sys2Proof.Machine
end

