-- ==== Sys2Proof/Laws/Rings.lean ====
section
/-! SUPPORT. What writing completions and moving rings can do. -/

namespace Sys2Proof.Machine

/-- The parts that writing completions changes. -/
def State.rung (s t : State) : Prop :=
  t = { s with hif := { s.hif with rings := t.hif.rings, held := t.hif.held, hostWrites := t.hif.hostWrites }, intc := { s.intc with lat := t.intc.lat, vecs := t.intc.vecs } }

theorem State.rung_refl (s : State) : s.rung s := rfl

theorem State.rung_trans {a b c : State} (h : a.rung b) (h' : b.rung c) : a.rung c := by
  obtain ⟨r, e, w, l, v, rfl⟩ : ∃ r e w l v, b = { a with hif := { a.hif with rings := r, held := e, hostWrites := w }, intc := { a.intc with lat := l, vecs := v } } := ⟨_, _, _, _, _, h⟩
  exact h'

variable (s : State)

/-- Writing one completion: one host write, CTAIL of its ring one further, and the ring's interrupt source where it signals (R275). -/
theorem State.putCompl_spec (c : Compl) :
    s.rung (s.putCompl c) ∧ (s.putCompl c).hif.held = s.hif.held ∧
    (∃ w, (s.putCompl c).hif.hostWrites = s.hif.hostWrites ++ [w]) ∧ (∀ m, m ≠ c.ring → (s.putCompl c).ring m = s.ring m) ∧
    (s.putCompl c).ring c.ring = { s.ring c.ring with ctail := (s.ring c.ring).ctail + 1 } := by
  unfold State.putCompl
  dsimp only
  split
  · refine ⟨?_, ?_, ?_, ?_, ?_⟩
    · unfold State.rung
      rw [State.irqEdge_frame]
      rfl
    · rw [State.irqEdge_frame]; rfl
    · rw [State.irqEdge_frame]; exact ⟨_, rfl⟩
    · intro m hm
      rw [State.irqEdge_frame]
      exact State.ring_updRing_ne _ _ _ _ (Ne.symm hm)
    · rw [State.irqEdge_frame]
      exact State.ring_updRing _ _ _
  · exact ⟨rfl, rfl, ⟨_, rfl⟩, fun m hm => State.ring_updRing_ne _ _ _ _ (Ne.symm hm), State.ring_updRing _ _ _⟩

/-- Writing a list of completions of one ring. -/
theorem State.putCompls_spec (n : Nat) (l : List Compl) (hl : ∀ c ∈ l, c.ring = n) :
    s.rung (l.foldl (fun a c => a.putCompl c) s) ∧ (l.foldl (fun a c => a.putCompl c) s).hif.held = s.hif.held ∧
    (∃ w, (l.foldl (fun a c => a.putCompl c) s).hif.hostWrites = s.hif.hostWrites ++ w ∧ w.length = l.length) ∧
    (∀ m, m ≠ n → (l.foldl (fun a c => a.putCompl c) s).ring m = s.ring m) ∧
    (∃ k, (l.foldl (fun a c => a.putCompl c) s).ring n = { s.ring n with ctail := k }) := by
  induction l generalizing s with
  | nil => exact ⟨rfl, rfl, ⟨[], by simp, rfl⟩, fun _ _ => rfl, ⟨(s.ring n).ctail, rfl⟩⟩
  | cons c r ih =>
    obtain ⟨p1, p2, ⟨w, p3⟩, p4, p5⟩ := State.putCompl_spec s c
    obtain ⟨i1, i2, ⟨w', i3, i3'⟩, i4, ⟨k, i5⟩⟩ := ih (s.putCompl c) (fun x hx => hl x (List.mem_cons_of_mem _ hx))
    have hc : c.ring = n := hl c List.mem_cons_self
    simp only [List.foldl_cons]
    refine ⟨State.rung_trans p1 i1, i2.trans p2, ⟨w :: w', ?_, by simp [i3']⟩, fun m hm => (i4 m hm).trans (p4 m (by rw [hc]; exact hm)), ⟨k, ?_⟩⟩
    · rw [i3, p3, List.append_assoc]; rfl
    · rw [hc] at p5
      rw [i5, p5]

/-- The end of DRAINING changes only its ring's state. -/
theorem State.drainCheck_spec (n : Nat) : s.onlyRing (s.drainCheck n) n ∧
    (s.drainCheck n).ring n = { s.ring n with st := if (s.ring n).st = .draining ∧ s.ringWork n = 0 ∧ (s.ring n).fence = none then .disabled else (s.ring n).st } := by
  unfold State.drainCheck
  split
  · exact ⟨State.updRing_only _ _ _, State.ring_updRing _ _ _⟩
  · exact ⟨⟨rfl, fun _ _ => rfl⟩, rfl⟩

/-- The completions of a ring that were held are written (R257). -/
theorem State.flushHeld_spec (n : Nat) :
    s.rung (s.flushHeld n) ∧ (s.flushHeld n).hif.held = s.hif.held.filter (fun c => decide (c.ring ≠ n)) ∧
    (∃ w, (s.flushHeld n).hif.hostWrites = s.hif.hostWrites ++ w ∧ w.length = (s.hif.held.filter (fun c => decide (c.ring = n))).length) ∧
    (∀ m, m ≠ n → (s.flushHeld n).ring m = s.ring m) ∧
    (∃ k x, (s.flushHeld n).ring n = { s.ring n with ctail := k, st := x } ∧
      (x = if (s.ring n).st = .draining ∧ (s.flushHeld n).ringWork n = 0 ∧ (s.ring n).fence = none then .disabled else (s.ring n).st)) := by
  obtain ⟨s0, hs0⟩ : ∃ x : State, x = { s with hif := { s.hif with held := s.hif.held.filter (fun c => decide (c.ring ≠ n)) } } := ⟨_, rfl⟩
  have q1 : s.rung s0 := by rw [hs0]; rfl
  have q2 : s0.hif.held = s.hif.held.filter (fun c => decide (c.ring ≠ n)) := by rw [hs0]
  have q3 : s0.hif.hostWrites = s.hif.hostWrites := by rw [hs0]
  have q4 : ∀ m, s0.ring m = s.ring m := fun m => by rw [hs0]; rfl
  obtain ⟨p1, p2, ⟨w, p3, p3'⟩, p4, ⟨k, p5⟩⟩ := State.putCompls_spec s0 n
    (s.hif.held.filter (fun c => decide (c.ring = n))) (by intro c hc; simpa using (List.mem_filter.mp hc).2)
  obtain ⟨b, hb⟩ : ∃ x, x = (s.hif.held.filter (fun c => decide (c.ring = n))).foldl (fun a c => a.putCompl c) s0 := ⟨_, rfl⟩
  have e : s.flushHeld n = b.drainCheck n := by rw [hb, hs0]; rfl
  rw [← hb] at p1 p2 p3 p4 p5
  rw [q2] at p2
  rw [q3] at p3
  rw [q4] at p5
  rw [e]
  obtain ⟨⟨d1, d2⟩, d3⟩ := State.drainCheck_spec b n
  have hh : (b.drainCheck n).hif.held = b.hif.held := by rw [d1]
  have hw : (b.drainCheck n).hif.hostWrites = b.hif.hostWrites := by rw [d1]
  have hr : (b.drainCheck n).ringWork n = b.ringWork n := by unfold State.ringWork; rw [d1]
  refine ⟨?_, by rw [hh]; exact p2, ⟨w, by rw [hw]; exact p3, p3'⟩, fun m hm => ((d2 m hm).trans (p4 m hm)).trans (q4 m), ?_⟩
  · clear hs0
    refine State.rung_trans (State.rung_trans q1 p1) ?_
    unfold State.rung
    rw [d1]
  · refine ⟨k, _, ?_, rfl⟩
    rw [d3, p5, hr]

end Sys2Proof.Machine
end

