-- ==== Sys2Proof/Laws/Completions.lean ====
section
/-! SUPPORT. The end of accepted descriptors: what is outstanding afterwards. -/

namespace Sys2Proof.Laws

open Sys2Proof.Machine

variable {s : State}

/-- Sending a completion leaves what is outstanding. -/
theorem sendCompl_outstanding (s : State) (c : Compl) : (s.sendCompl c).hif.outstanding = s.hif.outstanding := by
  unfold State.sendCompl
  dsimp only
  obtain ⟨u, hu⟩ : ∃ u : State, u = if s.hif.busMaster && !decide ((s.ring c.ring).st = .stopped ∧ (s.ring c.ring).cause = 3) then s.putCompl c else { s with hif := { s.hif with held := s.hif.held ++ [c] } } := ⟨_, rfl⟩
  rw [← hu]
  have h1 : u.hif.outstanding = s.hif.outstanding := by
    rw [hu]
    split
    · rw [(State.putCompl_spec s c).1]
    · rfl
  rw [(State.drainCheck_spec _ _).1.1]
  rw [← h1]
  split
  · rfl
  · show (State.recordQ u _ _ _ _ _).hif.outstanding = _
    rw [(Kept.recordQ (p := { recd := true }) (Kept.refl _ u)).hif rfl]

/-- A descriptor that ends is no longer outstanding. -/
theorem complete_outstanding (s : State) (p : Pend) (st : Status) (r : Word) (x : Half) :
    (s.complete p st r x).hif.outstanding = s.hif.outstanding.filter (fun q => decide (q.id ≠ p.id)) := by
  unfold State.complete
  dsimp only
  split
  · rfl
  · rw [sendCompl_outstanding]

/-- The descriptor found by an id has it. -/
theorem pend_id {id : Nat} {p : Pend} (h : s.pend? id = some p) : p.id = id :=
  of_decide_eq_true (@List.find?_some Pend (fun p => decide (p.id = id)) p s.hif.outstanding h)

theorem completeId_outstanding (s : State) (id : Nat) (st : Status) (r : Word) (x : Half) :
    (s.completeId id st r x).hif.outstanding = s.hif.outstanding.filter (fun q => decide (q.id ≠ id)) := by
  unfold State.completeId
  split
  · rename_i p hp
    have : p.id = id := pend_id hp
    rw [complete_outstanding, this]
  · rename_i hp
    symm
    rw [List.filter_eq_self]
    intro q hq
    have := List.find?_eq_none.mp hp q hq
    simpa using this

theorem completeAll_fold (l : List Pend) (st : Status) (u : State) (q : Pend) :
    q ∈ (l.foldl (fun a p => a.complete p st 0 0) u).hif.outstanding ↔ q ∈ u.hif.outstanding ∧ ∀ r ∈ l, q.id ≠ r.id := by
  induction l generalizing u with
  | nil => simp
  | cons x r ih =>
    rw [List.foldl_cons, ih, complete_outstanding, List.mem_filter, decide_eq_true_eq]
    constructor
    · rintro ⟨⟨a, b⟩, c⟩
      exact ⟨a, fun y hy => (List.mem_cons.mp hy).elim (fun e => e ▸ b) (fun hy => c y hy)⟩
    · rintro ⟨a, b⟩
      exact ⟨⟨a, b x List.mem_cons_self⟩, fun y hy => b y (List.mem_cons_of_mem _ hy)⟩

/-- After every descriptor that f picks has ended, none that f picks is outstanding. -/
theorem completeAll_outstanding (s : State) (f : Pend → Bool) (st : Status) (q : Pend) :
    q ∈ (s.completeAll f st).hif.outstanding ↔ q ∈ s.hif.outstanding ∧ ∀ r ∈ s.hif.outstanding, f r = true → q.id ≠ r.id := by
  unfold State.completeAll
  rw [completeAll_fold]
  simp only [List.mem_filter, and_imp]

theorem completeAll_none (s : State) (f : Pend → Bool) (st : Status) : ∀ q ∈ (s.completeAll f st).hif.outstanding, f q = false := by
  intro q hq
  rw [completeAll_outstanding] at hq
  cases h : f q
  · rfl
  · exact absurd rfl (hq.2 q hq.1 h)

theorem completeAll_sub (s : State) (f : Pend → Bool) (st : Status) : ∀ q ∈ (s.completeAll f st).hif.outstanding, q ∈ s.hif.outstanding :=
  fun q hq => ((completeAll_outstanding s f st q).mp hq).1

/-- What is outstanding after a walk has failed. -/
theorem walkFail_sub (s : State) (i : Nat) (st : Status) : ∀ q ∈ (s.walkFail i st).hif.outstanding, q ∈ s.hif.outstanding := by
  intro q hq
  unfold State.walkFail at hq
  split at hq
  · rw [completeId_outstanding, List.mem_filter] at hq; exact hq.1
  · exact hq

theorem walkStep_ne (s : State) (i t j : Nat) (h : j ≠ i) : (s.walkStep i t).chain j = s.chain j := by
  have hij : ¬ i = j := fun e => h e.symm
  unfold State.walkStep
  dsimp only
  split
  · rfl
  · split
    · split
      · unfold State.walkDone
        rw [complete_chain, updChain_chain, if_neg hij]
      · rw [updChain_chain, if_neg hij]
    · split
      · split
        · rfl
        · split
          · rw [updChain_chain, if_neg hij]
          · rw [walkFail_chain, if_neg hij]
      · rw [updChain_chain, if_neg hij]

/-- Going on with a walk changes nothing of the chain but the walk and its transition. -/
theorem walkStep_own (s : State) (i t : Nat) : (s.walkStep i t).chain i = { s.chain i with walk := ((s.walkStep i t).chain i).walk, trans := ((s.walkStep i t).chain i).trans } := by
  unfold State.walkStep
  dsimp only
  split
  · rfl
  · split
    · split
      · unfold State.walkDone
        rw [complete_chain, updChain_chain, if_pos rfl]
      · rw [updChain_chain, if_pos rfl]
    · split
      · split
        · rfl
        · split
          · rw [updChain_chain, if_pos rfl]
          · rw [walkFail_chain, if_pos rfl]
      · rw [updChain_chain, if_pos rfl]

theorem walkStep_rfeChains (s : State) (i t : Nat) : RfeChains s (s.walkStep i t) := by
  unfold State.walkStep
  dsimp only
  split
  · exact RfeChains.refl s
  · split
    · split
      · exact (updChain_rfeChains s i _).trans (complete_rfeChains _ _ _ _ _)
      · exact updChain_rfeChains s i _
    · split
      · split
        · exact RfeChains.refl s
        · split
          · exact updChain_rfeChains s i _
          · exact walkFail_rfeChains s i _
      · exact updChain_rfeChains s i _

/-- A walk that ends leaves its descriptor neither in the chain nor outstanding. -/
theorem walkStep_done (s : State) (i t id : Nat) (h : (s.chain i).walk = some (id, (s.chain i).st)) :
    ((s.walkStep i t).chain i).walk = none ∧ ((s.walkStep i t).chain i).trans = (s.chain i).trans ∧ ∀ q ∈ (s.walkStep i t).hif.outstanding, q.id ≠ id := by
  unfold State.walkStep
  dsimp only
  rw [h]
  dsimp only
  rw [if_pos rfl]
  split
  · rename_i p hp
    unfold State.walkDone
    rw [complete_chain, updChain_chain, if_pos rfl]
    refine ⟨rfl, rfl, ?_⟩
    intro q hq
    have hid : p.id = id := pend_id hp
    rw [complete_outstanding, List.mem_filter, decide_eq_true_eq, hid] at hq
    exact hq.2
  · rename_i hp
    rw [updChain_chain, if_pos rfl]
    refine ⟨rfl, rfl, ?_⟩
    intro q hq he
    exact absurd (List.find?_eq_none.mp hp q hq) (by simp [he])

/-- A walk that goes on to a state below RX_ON and TX_ON starts its next transition. -/
theorem walkStep_next (s : State) (i t id : Nat) (g : ChSt) (h : (s.chain i).walk = some (id, g)) (hg : (s.chain i).st ≠ g) (hn : (chNext (s.chain i).st g).rank ≤ 2) :
    ((s.walkStep i t).chain i).trans = some (chNext (s.chain i).st g, t) := by
  unfold State.walkStep
  dsimp only
  rw [h]
  dsimp only
  rw [if_neg hg, if_neg (by omega), updChain_chain, if_pos rfl]

/-- A walk into RX_ON or TX_ON starts its transition on a locked chain without a calibration due. -/
theorem walkStep_top (s : State) (i t id : Nat) (g : ChSt) (h : (s.chain i).walk = some (id, g)) (hg : (s.chain i).st ≠ g) (hn : 3 ≤ (chNext (s.chain i).st g).rank)
    (hl : (s.chain i).lock = .locked) (hu : (s.chain i).unmet = 0) : ((s.walkStep i t).chain i).trans = some (chNext (s.chain i).st g, t) := by
  unfold State.walkStep
  dsimp only
  rw [h]
  dsimp only
  rw [if_neg hg, if_pos hn, if_neg (by rw [hl]; decide), if_pos ⟨hl, hu⟩, updChain_chain, if_pos rfl]

/-- What is outstanding after a walk has gone on was outstanding before. -/
theorem walkStep_sub (s : State) (i t : Nat) : ∀ q ∈ (s.walkStep i t).hif.outstanding, q ∈ s.hif.outstanding := by
  intro q hq
  unfold State.walkStep at hq
  dsimp only at hq
  split at hq
  · exact hq
  · split at hq
    · split at hq
      · unfold State.walkDone at hq
        rw [complete_outstanding, List.mem_filter] at hq; exact hq.1
      · exact hq
    · split at hq
      · split at hq
        · exact hq
        · split at hq
          · exact hq
          · exact walkFail_sub _ _ _ q hq
      · exact hq

end Sys2Proof.Laws
end

