-- ==== Sys2Proof/Laws/Locks.lean ====
section
/-! SUPPORT. Tuning, lock and its loss: what becomes of the chain concerned, and that no other chain changes. -/

namespace Sys2Proof.Laws

open Sys2Proof.Machine

variable {s : State}

/-- A chain in SYNTH or above, or without a transition, stands as it is. -/
theorem chain_at_self (c : Chain) (n : Nat) (h : c.st ≠ .standby ∨ c.trans = none) : c.at n = c := by
  unfold Chain.at
  split
  · rename_i h1 h2
    rcases h with h | h
    · exact absurd h1 h
    · rw [h] at h2; cases h2
  · rfl

/-- A chain brought up to the present stands as it is, or stands in SYNTH. -/
theorem chain_at_cases (c : Chain) (n : Nat) : c.at n = c ∨ (c.at n).st = .synth := by
  unfold Chain.at
  split
  · split
    · exact .inr rfl
    · exact .inl rfl
  · exact .inl rfl

/-- A chain brought up to the present twice is brought up once. -/
theorem chain_at_idem (c : Chain) (n : Nat) : (c.at n).at n = c.at n := by
  rcases chain_at_cases c n with h | h
  · rw [h, h]
  · exact chain_at_self _ _ (.inl (by rw [h]; decide))

theorem chainSync_now (s : State) (i : Nat) : (s.chainSync i).now = s.now := rfl

theorem chainNow_sync (s : State) (i j : Nat) : (s.chainSync i).chainNow j = s.chainNow j := by
  unfold State.chainNow
  rw [chainSync_chain, chainSync_now]
  by_cases h : i = j
  · subst h; rw [if_pos rfl]; exact chain_at_idem _ _
  · rw [if_neg h]

/-- The tuning that enters a chain (R63, Table 3-7). -/
theorem tuneApply_chain (s : State) (i : Nat) (mode losel : Byte) (fw ifofs : Word) :
    (∀ j, j ≠ i → (s.tuneApply i mode losel fw ifofs).chain j = s.chain j) ∧
    ∃ c : Chain, c = { s.chain i with
        quad := decide (mode = 1), fw := fw.toNat, losel := decide (losel = 1), ifofs := if decide (mode = 1) then ifofs.toInt else 0
        unmet := if decide (mode = 1) then (s.chain i).unmet ||| 9 else ((s.chain i).unmet ||| 1) &&& 7
        done := if decide (mode = 1) then (s.chain i).done &&& 6 else (s.chain i).done &&& 14
        imgDb := if decide (mode = 1) then (s.chain i).imgDb else 0 } ∧
      (s.tuneApply i mode losel fw ifofs).chain i = if c.st = .synth then
        (if (s.updChain i (fun _ => c)).loRuns i then { c with lock := .locked, settleAt := s.now, trans := none, unmet := c.unmet &&& 13 } else { c with lock := .settling, settleAt := s.now, trans := none }) else c := by
  obtain ⟨g, hg⟩ : ∃ g : Chain → Chain, g = fun c => { c with
    quad := decide (mode = 1), fw := fw.toNat, losel := decide (losel = 1), ifofs := if decide (mode = 1) then ifofs.toInt else 0
    unmet := if decide (mode = 1) then c.unmet ||| 9 else (c.unmet ||| 1) &&& 7
    done := if decide (mode = 1) then c.done &&& 6 else c.done &&& 14
    imgDb := if decide (mode = 1) then c.imgDb else 0 } := ⟨_, rfl⟩
  obtain ⟨s1, hs1⟩ : ∃ x : State, x = s.updChain i g := ⟨_, rfl⟩
  obtain ⟨s2, hs2⟩ : ∃ x : State, x = if (s1.chain i).st = .synth then
      s1.updChain i (fun c => if s1.loRuns i then { c with lock := .locked, settleAt := s.now, trans := none, unmet := c.unmet &&& 13 }
                              else { c with lock := .settling, settleAt := s.now, trans := none })
    else s1 := ⟨_, rfl⟩
  have e : s.tuneApply i mode losel fw ifofs = (((if i < 32 then s2.each (s2.rxSlots i) (fun n a => a.authSlot n) else s2.authChain (i - 32)).cxRetune i).cxChainSync i).capAll := by
    rw [hs2, hs1, hg]; rfl
  have k : Kept { Part.alarms with jl := true } s2 (s.tuneApply i mode losel fw ifofs) := by
    rw [e]
    refine Kept.capAll (Kept.cxChainSync (Kept.cxRetune ?_))
    split
    · exact Kept.each (Kept.refl _ _) (fun n b hb => Kept.authSlot hb)
    · exact Kept.authChain (Kept.refl _ _)
  have hk : ∀ j, (s.tuneApply i mode losel fw ifofs).chain j = s2.chain j := fun j => k.chain rfl j
  have h1 : ∀ j, s1.chain j = if i = j then g (s.chain i) else s.chain j := by intro j; rw [hs1, updChain_chain]
  have h2 : s1 = s.updChain i (fun _ => g (s.chain i)) := by rw [hs1]; rfl
  refine ⟨?_, g (s.chain i), by rw [hg], ?_⟩
  · intro j hj
    rw [hk, hs2]
    split
    · rw [updChain_chain, if_neg (Ne.symm hj), h1, if_neg (Ne.symm hj)]
    · rw [h1, if_neg (Ne.symm hj)]
  · rw [hk, hs2, ← h2]
    have h3 := h1 i
    rw [if_pos rfl] at h3
    rw [h3]
    by_cases hc : (g (s.chain i)).st = .synth
    · rw [if_pos hc, if_pos hc, updChain_chain, if_pos rfl, h3]
    · rw [if_neg hc, if_neg hc, h3]

/-- A chain whose LO locks (Tables 3-4, 3-7). -/
theorem lockOne_chain (s : State) (i j : Nat) : (s.lockOne i).chain j =
    if i = j then { s.chain i with lock := .locked, settleAt := s.now, unmet := (s.chain i).unmet &&& 13, fail := (s.chain i).fail &&& 13, done := (s.chain i).done ||| 2,
                                   walk := ((s.lockOne i).chain i).walk, trans := ((s.lockOne i).chain i).trans } else s.chain j := by
  obtain ⟨s1, hs1⟩ : ∃ x : State, x = s.updChain i (fun c => { c with lock := .locked, settleAt := s.now, unmet := c.unmet &&& 13, fail := c.fail &&& 13, done := c.done ||| 2 }) := ⟨_, rfl⟩
  have e : s.lockOne i = s1 ∨ s.lockOne i = s1.walkStep i s1.now := by
    unfold State.lockOne
    dsimp only
    rw [← hs1]
    split
    · split
      · exact .inr rfl
      · exact .inl rfl
    · exact .inl rfl
  have h1 : ∀ j, s1.chain j = if i = j then _ else s.chain j := fun j => by rw [hs1]; exact updChain_chain _ _ _ _
  by_cases h : i = j
  · subst h
    rw [if_pos rfl]
    have h2 := h1 i
    rw [if_pos rfl] at h2
    rcases e with e | e
    · rw [e, h2]
    · rw [e, walkStep_own, h2]
  · rw [if_neg h]
    rcases e with e | e
    · rw [e, h1, if_neg h]
    · rw [e, walkStep_ne _ _ _ _ (Ne.symm h), h1, if_neg h]

theorem lockOne_rfeChains (s : State) (i : Nat) : RfeChains s (s.lockOne i) := by
  unfold State.lockOne
  dsimp only
  split
  · split
    · exact (updChain_rfeChains s i _).trans (walkStep_rfeChains _ i _)
    · exact updChain_rfeChains s i _
  · exact updChain_rfeChains s i _

theorem upFail_chain (s : State) (i g j : Nat) : (s.upFail i g).chain j = if i = j then { s.chain i with walk := ((s.upFail i g).chain i).walk } else s.chain j := by
  unfold State.upFail
  dsimp only
  rw [completeAll_chain, completeAll_chain]
  by_cases h : i = j
  · subst h
    rw [if_pos rfl]
    split
    · split
      · rw [walkFail_chain, if_pos rfl]
      · rfl
    · rfl
  · rw [if_neg h]
    split
    · split
      · rw [walkFail_chain, if_neg h]
      · rfl
    · rfl

theorem upFail_sub (s : State) (i g : Nat) : ∀ q ∈ (s.upFail i g).hif.outstanding, q ∈ s.hif.outstanding := by
  intro q hq
  unfold State.upFail at hq
  dsimp only at hq
  have := completeAll_sub _ _ _ q hq
  split at this
  · split at this
    · exact walkFail_sub _ _ _ q this
    · exact this
  · exact this

theorem upFail_kept (s : State) (i g : Nat) : Kept { hif := true, intc := true, recd := true, rfe := true } s (s.upFail i g) := Kept.upFail (Kept.refl _ s)

end Sys2Proof.Laws
end

