-- ==== Sys2Proof/Laws/Raise.lean ====
section
/-! SUPPORT. What a raised source and a WINTER entry always leave: the STATUS bit set, and the cause held. -/

namespace Sys2Proof.Machine

open Sys2Proof.Laws

/-- No tolerance at all. -/
def noTol : Tol := ⟨false, false, false, false, false, false, false, false⟩

/-- After an occurrence its STATUS bit is set (R309). -/
theorem State.occurWith_status (s : State) (k : Nat) (f : FScope) (inj : Bool) : ((s.occurWith State.record k f inj).fsrc k).status = true := by
  unfold State.occurWith
  split
  · rename_i h
    exact (Calm.repeatOccur (p := noTol) Calm.record_rec (Calm.refl noTol s)).stat rfl k h
  · unfold State.firstOccur
    dsimp only
    obtain ⟨s1, hs1⟩ : ∃ x : State, x = s.updFsrc k (fun _ => { status := true, level := s.sev (k / 16) (k % 16), sevFirst := s.sev (k / 16) (k % 16), repeats := 0, tFirst := s.dtime, scopes := [f], grace := if s.sev (k / 16) (k % 16) = 2 then some (s.graceEnd k) else none, inj := inj, copyBad := false }) := ⟨_, rfl⟩
    have h1 : (s1.fsrc k).status = true := by rw [hs1, State.fsrc_updFsrc]
    rw [← hs1]
    have c0 := Calm.refl noTol s1
    refine (?_ : Calm noTol s1 _).stat rfl k h1
    have c2 : Calm noTol s1 (State.faultRecord State.record (if 1 ≤ s.sev (k / 16) (k % 16) then s1.irqRise (64 + k) else s1) k 0 f inj) :=
      Calm.faultRecord Calm.record_rec (Calm.ite (fun _ => Calm.irqRise c0) (fun _ => c0))
    exact Calm.ite (fun _ => Calm.faultWinter Calm.record_rec c2) (fun _ => c2)

/-- A raised source's STATUS bit is set. -/
theorem State.raise_status (s : State) (b n : Nat) (f : FScope) : ((s.raise b n f).fsrc (16 * b + n)).status = true := by
  unfold State.raise State.raiseI
  exact State.occurWith_status _ _ _ _

/-- An injected source's STATUS bit is set. -/
theorem State.raiseI_status (s : State) (b n : Nat) (f : FScope) (inj : Bool) : ((s.raiseI b n f inj).fsrc (16 * b + n)).status = true := by
  unfold State.raiseI
  exact State.occurWith_status _ _ _ _

/-- After a WINTER entry the object holds the cause (R190). -/
theorem State.winterSet_cause (s : State) (i c : Nat) (r : Half) (hc : c < 16) : ((s.winterSet i c r).wobj i).cause.getLsbD c = true := by
  unfold State.winterSet State.winterSetWith
  dsimp only
  split
  · rename_i h
    rw [State.wobj_updObj]
    exact h
  · obtain ⟨s2, hs2⟩ : ∃ x : State, x = (if i < 256 then s.bridgeNet i else s).updObj i (fun o => { o with cause := o.cause ||| BitVec.twoPow 16 c, cleared := o.cleared &&& ~~~(BitVec.twoPow 16 c), age := some s.now, entries := o.entries.set 0 c (s.now), oscAge := if c = 0 then some s.now else o.oscAge, oscTimes := if c = 0 then (o.oscTimes.filter (fun t => decide (s.now - t ≤ 600 * tsec))) ++ [s.now] else o.oscTimes, release := none, reason := r }) := ⟨_, rfl⟩
    have h2 : (s2.wobj i).cause.getLsbD c = true := by rw [hs2, State.wobj_updObj]; simp [hc]
    rw [← hs2]
    have c0 := Calm.refl noTol s2
    refine (?_ : Calm noTol s2 _).cause rfl i c h2
    refine Calm.captTrigger (Calm.each (Calm.each ?_ (fun i b hb => Calm.slotEntersWinter hb)) (fun i b hb => Calm.txEntersWinter hb))
    split
    · exact Calm.completeId (Calm.record c0)
    · exact Calm.record c0

/-- A record that finds room in the buffer changes only the recorder. -/
theorem State.record_room (s : State) (code sev : Nat) (src : Byte) (bypass : Bool) (data : Nat) (h : s.recd.buf.length < 1024) :
    s.record code sev src bypass data = s.recordQ code sev src bypass data := by
  have hb : ∀ (a : State) (x : Bool) (d : BitVec 256), a.recd.buf.length < 1024 → (a.bufferEnter code sev x src d).1 = false := by
    intro a x d ha
    unfold State.bufferEnter
    rw [if_pos ha]
  have h0 : (s.record0 code sev src bypass data).1 = false := by
    unfold State.record0
    dsimp only
    rw [apply_ite Prod.fst, apply_ite Prod.fst, apply_ite Prod.fst, apply_ite Prod.fst]
    exact ite_both (· = false) rfl (ite_both (· = false) rfl (ite_both (· = false) (hb _ _ _ h) (ite_both (· = false) rfl (hb _ _ _ h))))
  unfold State.record State.recordQ
  generalize s.record0 code sev src bypass data = x at h0
  obtain ⟨b, t⟩ := x
  dsimp only at h0
  subst h0
  rfl

/-- Marking a cause cleared changes only its object. -/
theorem State.clearCause_only (s : State) (i c : Nat) : s.onlyWobj (s.clearCause i c) i := by
  unfold State.clearCause
  split
  · exact State.updObj_only _ _ _
  · exact ⟨rfl, fun _ _ => rfl⟩

/-- One step of dropping a source from an object's FAULT. -/
theorem State.faultDrop_one (s : State) (k i : Nat) :
    let b := s.updObj i (fun o => { o with faultBy := o.faultBy.filter (fun j => decide (j ≠ k)) })
    let t := if (b.wobj i).faultBy = [] then b.clearCause i 8 else b
    s.onlyWobj t i ∧ (t.wobj i).faultBy = (s.wobj i).faultBy.filter (fun j => decide (j ≠ k)) ∧ (t.wobj i).cause = (s.wobj i).cause ∧
      ((s.wobj i).cleared.getLsbD 8 = true → (t.wobj i).cleared.getLsbD 8 = true) ∧
      ((s.wobj i).faultBy.filter (fun j => decide (j ≠ k)) = [] → (s.wobj i).cause.getLsbD 8 = true → (t.wobj i).cleared.getLsbD 8 = true) := by
  dsimp only
  obtain ⟨b, hb⟩ : ∃ x, x = s.updObj i (fun o => { o with faultBy := o.faultBy.filter (fun j => decide (j ≠ k)) }) := ⟨_, rfl⟩
  have ho : s.onlyWobj b i := by rw [hb]; exact State.updObj_only _ _ _
  have hw : b.wobj i = { s.wobj i with faultBy := (s.wobj i).faultBy.filter (fun j => decide (j ≠ k)) } := by rw [hb]; exact State.wobj_updObj _ _ _
  rw [← hb]
  have hcl : s.onlyWobj (b.clearCause i 8) i := by
    obtain ⟨c1, c2⟩ := State.clearCause_only b i 8
    refine ⟨?_, fun j hj => (c2 j hj).trans (ho.2 j hj)⟩
    obtain ⟨x, hx⟩ : ∃ x, b = { s with prot := { s.prot with objs := x } } := ⟨_, ho.1⟩
    obtain ⟨y, hy⟩ : ∃ y, b.clearCause i 8 = { b with prot := { b.prot with objs := y } } := ⟨_, c1⟩
    rw [hy, hx]
  split
  · rename_i hfb
    refine ⟨hcl, ?_⟩
    unfold State.clearCause
    split
    · rw [State.wobj_updObj, hw]
      exact ⟨rfl, rfl, fun _ => by simp, fun _ _ => by simp⟩
    · rename_i hnc
      rw [hw]
      refine ⟨rfl, rfl, fun h => h, fun _ hc => ?_⟩
      rw [hw] at hnc
      exact absurd hc hnc
  · rename_i hfb
    refine ⟨ho, ?_⟩
    rw [hw] at hfb ⊢
    exact ⟨rfl, rfl, fun h => h, fun he => absurd he hfb⟩

/-- Dropping a source from FAULT: only scope objects change, and an object it alone held in FAULT has FAULT marked cleared (R313). -/
theorem State.faultDrop_spec (s : State) (k : Nat) (keep : List Nat) :
    s.faultDrop k keep = { s with prot := { s.prot with objs := (s.faultDrop k keep).prot.objs } } ∧
    ∀ i o, (i, o) ∈ s.prot.objs → o.faultBy.contains k = true → keep.contains i = false → (s.wobj i).faultBy.filter (fun j => decide (j ≠ k)) = [] →
      (s.wobj i).cause.getLsbD 8 = true → ((s.faultDrop k keep).wobj i).cleared.getLsbD 8 = true ∧ ((s.faultDrop k keep).wobj i).faultBy = [] := by
  have key : ∀ (l : List Nat) (s : State),
      ∃ t, t = s.each l (fun i a =>
        let b := a.updObj i (fun o => { o with faultBy := o.faultBy.filter (fun j => decide (j ≠ k)) })
        if (b.wobj i).faultBy = [] then b.clearCause i 8 else b) ∧
      t = { s with prot := { s.prot with objs := t.prot.objs } } ∧
      ∀ i, (s.wobj i).cause.getLsbD 8 = true → ((s.wobj i).faultBy.filter (fun j => decide (j ≠ k)) = [] → i ∈ l → (t.wobj i).cleared.getLsbD 8 = true ∧ (t.wobj i).faultBy = []) ∧
        ((s.wobj i).cleared.getLsbD 8 = true → (s.wobj i).faultBy = [] → (t.wobj i).cleared.getLsbD 8 = true ∧ (t.wobj i).faultBy = []) := by
    intro l
    induction l with
    | nil => intro s; exact ⟨s, rfl, rfl, fun i _ => ⟨fun _ h => (by cases h), fun h1 h2 => ⟨h1, h2⟩⟩⟩
    | cons m r ih =>
      intro s
      obtain ⟨⟨f1, f2⟩, f3, f4, f5, f6⟩ := State.faultDrop_one s k m
      obtain ⟨u, hu⟩ : ∃ x : State, x = (let b := s.updObj m (fun o => { o with faultBy := o.faultBy.filter (fun j => decide (j ≠ k)) })
        if (b.wobj m).faultBy = [] then b.clearCause m 8 else b) := ⟨_, rfl⟩
      dsimp only at f1 f2 f3 f4 f5 f6 hu
      rw [← hu] at f1 f2 f3 f4 f5 f6
      obtain ⟨t, ht, t1, t2⟩ := ih u
      refine ⟨t, by rw [ht, hu]; rfl, ?_, ?_⟩
      · obtain ⟨x, hx⟩ : ∃ x, u = { s with prot := { s.prot with objs := x } } := ⟨_, f1⟩
        obtain ⟨y, hy⟩ : ∃ y, t = { u with prot := { u.prot with objs := y } } := ⟨_, t1⟩
        rw [hy, hx]
      · intro i hc
        by_cases him : i = m
        · subst him
          have hc' : (u.wobj i).cause.getLsbD 8 = true := by rw [f4]; exact hc
          refine ⟨fun h1 _ => (t2 i hc').2 (f6 h1 hc) (by rw [f3]; exact h1), fun h1 h2 => (t2 i hc').2 (f5 h1) (by rw [f3, h2]; rfl)⟩
        · have hw := f2 i him
          have hc' : (u.wobj i).cause.getLsbD 8 = true := by rw [hw]; exact hc
          refine ⟨fun h1 h2 => (t2 i hc').1 (by rw [hw]; exact h1) (by
            rcases List.mem_cons.mp h2 with h2 | h2
            · exact absurd h2 him
            · exact h2), fun h1 h2 => (t2 i hc').2 (by rw [hw]; exact h1) (by rw [hw]; exact h2)⟩
  obtain ⟨t, ht, t1, t2⟩ := key ((s.prot.objs.filter (fun e => e.2.faultBy.contains k && !keep.contains e.1)).map (fun e => e.1)) s
  have e : s.faultDrop k keep = t := by rw [ht]; rfl
  rw [e]
  refine ⟨t1, fun i o hm hk hkeep hf hc => (t2 i hc).1 hf ?_⟩
  exact List.mem_map.mpr ⟨(i, o), List.mem_filter.mpr ⟨hm, by simp only [hk, hkeep]; rfl⟩, rfl⟩

/-- After one occurrence in a list of scopes its STATUS bit is set. -/
theorem State.occurIn_status (s : State) (k : Nat) (l : List FScope) (inj : Bool) (hl : l ≠ []) : ((s.occurIn k l inj).fsrc k).status = true := by
  cases l with
  | nil => exact absurd rfl hl
  | cons f r =>
    unfold State.occurIn
    have h1 := State.occurWith_status s k f inj
    refine (?_ : Calm noTol (s.occurWith State.record k f inj) _).stat rfl k h1
    refine Calm.foldl (Calm.refl _ _) (fun b x hb => ?_)
    dsimp only
    have hc : Calm noTol (s.occurWith State.record k f inj) (b.updFsrc k (fun y => { y with scopes := b.addScope y.scopes x })) := Calm.updFsrc hb (fun _ h => h)
    exact Calm.ite (fun _ => Calm.faultWinter Calm.record_rec hc) (fun _ => hc)

/-- The acknowledgement of a source whose condition does not last: its record, its reset state, and FAULT dropped (R312, R313). -/
theorem State.ackOne_quiet (s : State) (k : Nat) (h : s.condScopes k = []) :
    ∃ lv b d, s.ackOne k = (((s.updFsrc k (fun _ => { FSrc.reset with level := s.sev (k / 16) (k % 16) })).record (0x100 + k) lv b true d).updFsrc k (fun _ => FSrc.reset)).faultDrop k [] := by
  unfold State.ackOne
  dsimp only
  rw [h, List.flatMap_nil]
  unfold State.occurIn
  exact ⟨_, _, _, rfl⟩

end Sys2Proof.Machine
end

