-- ==== Sys2Proof/Laws/AlarmRfe.lean ====
section
/-! SUPPORT. What an alarm may change, and the RFE block besides: lock, walks and calibrations. -/

namespace Sys2Proof.Laws

open Sys2Proof.Machine

variable {a s : State}

/-- From a to t at most the RFE block and what an alarm may change has changed. -/
def AlarmedRfe (a t : State) : Prop := ({ a with rfe := t.rfe } : State).alarmed t

theorem AlarmedRfe.refl (a : State) : AlarmedRfe a a := rfl

theorem AlarmedRfe.trans {b c : State} (h : AlarmedRfe a b) (h' : AlarmedRfe b c) : AlarmedRfe a c := by
  unfold AlarmedRfe at h h' ⊢
  have e : ({ a with rfe := c.rfe } : State).alarmed { b with rfe := c.rfe } := by
    unfold State.alarmed at h ⊢
    rw [h]
  exact State.alarmed_trans e h'

/-- An alarm. -/
theorem AlarmedRfe.of {t : State} (h : AlarmedRfe a s) (k : s.alarmed t) : AlarmedRfe a t := by
  refine h.trans ?_
  unfold AlarmedRfe
  rw [State.alarmed_rfe k]
  exact k

theorem AlarmedRfe.set (h : AlarmedRfe a s) (r : Rfe) : AlarmedRfe a { s with rfe := r } := h.trans (by unfold AlarmedRfe; rfl)

/-- A step that touches slots and instances only, besides RFE. -/
theorem AlarmedRfe.slots {t : State} (h : AlarmedRfe a s) (k : Kept { rfe := true, slots := true, cx := true, gcl := true } s t) : AlarmedRfe a t := by
  refine h.trans ?_
  unfold AlarmedRfe State.alarmed
  have f := k.frame
  rw [f]; rfl

theorem AlarmedRfe.updChain (h : AlarmedRfe a s) (i : Nat) (f : Chain → Chain) : AlarmedRfe a (s.updChain i f) := h.set _
theorem AlarmedRfe.updTx (h : AlarmedRfe a s) (i : Nat) (f : TxCh → TxCh) : AlarmedRfe a (s.updTx i f) := h.set _
theorem AlarmedRfe.updFecb (h : AlarmedRfe a s) (i : Nat) (f : Fecb → Fecb) : AlarmedRfe a (s.updFecb i f) := h.set _
theorem AlarmedRfe.chainSync (h : AlarmedRfe a s) (i : Nat) : AlarmedRfe a (s.chainSync i) := h.set _
theorem AlarmedRfe.lockFailed (h : AlarmedRfe a s) (i : Nat) : AlarmedRfe a (s.lockFailed i) := h.set _
theorem AlarmedRfe.updPend (h : AlarmedRfe a s) (i : Nat) (f : Pend → Pend) : AlarmedRfe a (s.updPend i f) := h.of (State.alarmed_updPend (State.alarmed_refl _))
theorem AlarmedRfe.complete (h : AlarmedRfe a s) (p : Pend) (st : Status) (r : Word) (x : Half) : AlarmedRfe a (s.complete p st r x) := h.of (State.alarmed_complete (State.alarmed_refl _))
theorem AlarmedRfe.completeId (h : AlarmedRfe a s) (i : Nat) (st : Status) (r : Word) (x : Half) : AlarmedRfe a (s.completeId i st r x) := h.of (State.alarmed_completeId (State.alarmed_refl _))
theorem AlarmedRfe.completeAll (h : AlarmedRfe a s) (f : Pend → Bool) (st : Status) : AlarmedRfe a (s.completeAll f st) := h.of (State.alarmed_completeAll (State.alarmed_refl _))
theorem AlarmedRfe.raise (h : AlarmedRfe a s) (b n : Nat) (f : FScope) : AlarmedRfe a (s.raise b n f) := h.of (State.alarmed_raise (State.alarmed_refl _))
theorem AlarmedRfe.winterSet (h : AlarmedRfe a s) (b n : Nat) (f : Half) : AlarmedRfe a (s.winterSet b n f) := h.of (State.alarmed_winterSet (State.alarmed_refl _))

theorem AlarmedRfe.moveChain (h : AlarmedRfe a s) (i : Nat) (g : ChSt) : AlarmedRfe a (s.moveChain i g) := h.slots (Kept.moveChain (Kept.refl _ _))

theorem AlarmedRfe.walkFail (h : AlarmedRfe a s) (i : Nat) (st : Status) : AlarmedRfe a (s.walkFail i st) := by
  unfold State.walkFail
  split
  · refine AlarmedRfe.completeId ?_ _ _ _ _
    exact h.updChain _ _
  · exact h

theorem AlarmedRfe.walkStep (h : AlarmedRfe a s) (i t : Nat) : AlarmedRfe a (s.walkStep i t) := by
  unfold State.walkStep
  dsimp only
  split
  · exact h
  · split
    · split
      · unfold State.walkDone
        refine AlarmedRfe.complete ?_ _ _ _ _
        exact h.updChain _ _
      · exact h.updChain _ _
    · split
      · split
        · exact h
        · split
          · exact h.updChain _ _
          · exact h.walkFail _ _
      · exact h.updChain _ _

theorem AlarmedRfe.upFail (h : AlarmedRfe a s) (i g : Nat) : AlarmedRfe a (s.upFail i g) := by
  unfold State.upFail
  dsimp only
  refine AlarmedRfe.completeAll ?_ _ _
  split
  · split
    · exact h.walkFail _ _
    · exact h
  · exact h

/-- The steps of a lost lock, one chain (R72). -/
theorem lockLostOne_steps (s : State) (i : Nat) : ∃ (s1 s2 s3 s4 : State) (x : Chain → Chain), s1 = (s.chainSync i).raise (6 + chTile i) 3 (chScope i) ∧ (∀ c, (x c).cal = none) ∧ s2 = (s1.updChain i x).moveChain i .synth ∧
    s3 = s2.updChain i (fun c => { c with lock := .settling, settleAt := s.now }) ∧ s4 = (s3.completeAll (isCalRun i) .timeoutLock).upFail i 3 ∧
    (s.lockLostOne i = s4 ∨ s.lockLostOne i = s4.walkStep i (s4.smpAtOrAfter chainBlk s4.now)) := by
  obtain ⟨down, e0⟩ : ∃ down : Bool, s.lockLostOne i =
      (let s1 := (s.chainSync i).raise (6 + chTile i) 3 (chScope i)
       let s2 := (s1.updChain i (fun c => { c with trans := if down then c.trans else none, cal := none })).moveChain i .synth
       let s3 := s2.updChain i (fun c => { c with lock := .settling, settleAt := s.now })
       let s4 := (s3.completeAll (isCalRun i) .timeoutLock).upFail i 3
       if (s4.chain i).trans = none ∧ 3 ≤ (s1.chain i).st.rank then s4.walkStep i (s4.smpAtOrAfter chainBlk s4.now) else s4) := by
    unfold State.lockLostOne
    exact ⟨_, rfl⟩
  refine ⟨_, _, _, _, fun c => { c with trans := if down then c.trans else none, cal := none }, rfl, fun _ => rfl, rfl, rfl, rfl, ?_⟩
  dsimp only at e0
  by_cases hc : ((((((((s.chainSync i).raise (6 + chTile i) 3 (chScope i)).updChain i (fun c => { c with trans := if down then c.trans else none, cal := none })).moveChain i .synth).updChain i (fun c => { c with lock := .settling, settleAt := s.now })).completeAll (isCalRun i) .timeoutLock).upFail i 3).chain i).trans = none ∧ 3 ≤ (((s.chainSync i).raise (6 + chTile i) 3 (chScope i)).chain i).st.rank
  · rw [if_pos hc] at e0; exact .inr e0
  · rw [if_neg hc] at e0; exact .inl e0

theorem AlarmedRfe.lockLostOne (h : AlarmedRfe a s) (i : Nat) : AlarmedRfe a (s.lockLostOne i) := by
  obtain ⟨s1, s2, s3, s4, x, e1, _, e2, e3, e4, e⟩ := lockLostOne_steps s i
  have h4 : AlarmedRfe a s4 := by
    rw [e4]
    refine AlarmedRfe.upFail ?_ _ _
    refine AlarmedRfe.completeAll ?_ _ _
    rw [e3]
    refine AlarmedRfe.updChain ?_ _ _
    rw [e2]
    refine AlarmedRfe.moveChain ?_ _ _
    refine AlarmedRfe.updChain ?_ _ _
    rw [e1]
    refine AlarmedRfe.raise ?_ _ _ _
    exact h.chainSync i
  rcases e with e | e
  · rw [e]; exact h4
  · rw [e]; exact h4.walkStep _ _

/-- A lost lock (R72): the chain stands in SYNTH, SETTLING, without a calibration, its CAL_RUNs have ended, LO_UNLOCK is raised, and no other chain has changed. -/
theorem lockLostOne_spec (s : State) (i : Nat) :
    (∀ j, j ≠ i → (s.lockLostOne i).chain j = s.chain j) ∧
    ((s.lockLostOne i).chain i).st = .synth ∧ ((s.lockLostOne i).chain i).lock = .settling ∧ ((s.lockLostOne i).chain i).settleAt = s.now ∧ ((s.lockLostOne i).chain i).cal = none ∧
    ((s.lockLostOne i).fsrc (16 * (6 + chTile i) + 3)).status = true ∧ (∀ q ∈ (s.lockLostOne i).hif.outstanding, isCalRun i q = false) ∧
    (s.lockLostOne i).now = s.now := by
  obtain ⟨s1, s2, s3, s4, x, e1, hx, e2, e3, e4, e⟩ := lockLostOne_steps s i
  have c1 : ∀ j, s1.chain j = (s.chainSync i).chain j := fun j => by rw [e1, raise_chain]
  have c2 : ∀ j, j ≠ i → s2.chain j = s.chain j := by
    intro j h
    rw [e2, moveChain_chain, if_neg (Ne.symm h), updChain_chain, if_neg (Ne.symm h), c1, chainSync_chain, if_neg (Ne.symm h)]
  have c2i : (s2.chain i).st = .synth ∧ (s2.chain i).cal = none := by
    rw [e2, moveChain_chain, if_pos rfl, updChain_chain, if_pos rfl]
    exact ⟨rfl, hx _⟩
  have c3i : s3.chain i = { s2.chain i with lock := .settling, settleAt := s.now } := by rw [e3, updChain_chain, if_pos rfl]
  have c3 : ∀ j, j ≠ i → s3.chain j = s.chain j := by
    intro j h; rw [e3, updChain_chain, if_neg (Ne.symm h), c2 j h]
  have c4i : s4.chain i = { s3.chain i with walk := (s4.chain i).walk } := by
    rw [e4, upFail_chain, if_pos rfl, completeAll_chain]
  have c4 : ∀ j, j ≠ i → s4.chain j = s.chain j := by
    intro j h; rw [e4, upFail_chain, if_neg (Ne.symm h), completeAll_chain, c3 j h]
  have own : (s4.chain i).st = .synth ∧ (s4.chain i).lock = .settling ∧ (s4.chain i).settleAt = s.now ∧ (s4.chain i).cal = none := by
    rw [c4i, c3i]; exact ⟨c2i.1, rfl, rfl, c2i.2⟩
  have k : Calm noTol s1 s4 := by
    rw [e4]
    refine Calm.upFail ?_
    refine Calm.completeAll ?_
    rw [e3]
    refine Calm.updChain ?_
    rw [e2]
    refine Calm.moveChain ?_
    refine Calm.updChain ?_
    exact Calm.refl _ _
  have hst4 : (s4.fsrc (16 * (6 + chTile i) + 3)).status = true := by
    refine k.stat rfl _ ?_
    rw [e1]; exact State.raise_status _ _ _ _
  have hout : ∀ q ∈ s4.hif.outstanding, isCalRun i q = false := by
    intro q hq
    rw [e4] at hq
    exact completeAll_none _ _ _ q (upFail_sub _ _ _ q hq)
  have hnow : s4.now = s.now := by
    refine k.now.trans ?_
    rw [e1]
    exact (Calm.raise (p := noTol) (Calm.refl _ (s.chainSync i))).now
  rcases e with e | e
  · rw [e]; exact ⟨c4, own.1, own.2.1, own.2.2.1, own.2.2.2, hst4, hout, hnow⟩
  · rw [e]
    have kw : Calm noTol s4 (s4.walkStep i (s4.smpAtOrAfter chainBlk s4.now)) := Calm.walkStep (Calm.refl _ s4)
    refine ⟨fun j h => (walkStep_ne _ _ _ _ h).trans (c4 j h), ?_, ?_, ?_, ?_, kw.stat rfl _ hst4, fun q hq => hout q (walkStep_sub _ _ _ q hq), kw.now.trans hnow⟩
    · rw [walkStep_own]; exact own.1
    · rw [walkStep_own]; exact own.2.1
    · rw [walkStep_own]; exact own.2.2.1
    · rw [walkStep_own]; exact own.2.2.2

end Sys2Proof.Laws
end

