-- ==== Sys2Proof/Laws/Bits.lean ====
section
/-! SUPPORT. Bits, complemented words and packed digits. -/

namespace Sys2Proof.Machine

/-- The bits of a complemented word. -/
theorem cword_bit (x : Half) (i : Nat) : (cword x).getLsbD i = if i < 16 then x.getLsbD i else (~~~x).getLsbD (i - 16) :=
  BitVec.getLsbD_append (x := ~~~x) (y := x) (i := i)

/-- A complemented word holds its value. -/
@[simp] theorem lowHalf_cword (x : Half) : lowHalf (cword x) = x := by
  unfold lowHalf
  apply BitVec.eq_of_getLsbD_eq
  intro i hi
  rw [BitVec.getLsbD_extractLsb', Nat.zero_add, cword_bit, if_pos hi]
  simp [hi]

/-- A complemented word passes its check (R10). -/
@[simp] theorem cwordOk_cword (x : Half) : cwordOk (cword x) = true := by
  unfold cwordOk
  rw [lowHalf_cword, decide_eq_true_eq]
  unfold highHalf
  apply BitVec.eq_of_getLsbD_eq
  intro i hi
  rw [BitVec.getLsbD_extractLsb', cword_bit, if_neg (by omega)]
  simp [hi]

/-- Digits to base 4, packed from the least significant. -/
theorem digits4 (d : Nat → Nat) (hd : ∀ i, d i < 4) (n : Nat) :
    (List.range n).foldl (fun a i => a + d i * 4 ^ i) 0 < 4 ^ n ∧
    ∀ k, k < n → (List.range n).foldl (fun a i => a + d i * 4 ^ i) 0 / 4 ^ k % 4 = d k := by
  induction n with
  | zero => exact ⟨by simp, fun k hk => absurd hk (by omega)⟩
  | succ n ih =>
    obtain ⟨i1, i2⟩ := ih
    rw [List.range_succ, List.foldl_append]
    simp only [List.foldl_cons, List.foldl_nil]
    generalize (List.range n).foldl (fun a i => a + d i * 4 ^ i) 0 = x at i1 i2 ⊢
    refine ⟨?_, ?_⟩
    · have : d n * 4 ^ n ≤ 3 * 4 ^ n := Nat.mul_le_mul_right _ (by have := hd n; omega)
      rw [Nat.pow_succ]; omega
    · intro k hk
      by_cases hkn : k = n
      · subst hkn
        rw [Nat.add_mul_div_right _ _ (by positivity), Nat.div_eq_of_lt i1]
        have := hd k
        omega
      · have hk' : k < n := by omega
        have e : 4 ^ n = 4 ^ k * (4 * 4 ^ (n - k - 1)) := by
          rw [← Nat.pow_succ', ← Nat.pow_add]; congr 1; omega
        have : x + d n * 4 ^ n = x + 4 ^ k * (4 * (4 ^ (n - k - 1) * d n)) := by rw [e]; ring
        rw [this, Nat.add_mul_div_left _ _ (by positivity), Nat.add_mul_mod_self_left]
        exact i2 k hk'

/-- A field of a word given as a number. -/
theorem bitsOf_ofNat (w n lo len : Nat) (h : n < 2 ^ w) : bitsOf (BitVec.ofNat w n) lo len = n / 2 ^ lo % 2 ^ len := by
  unfold bitsOf
  rw [BitVec.toNat_ofNat, Nat.mod_eq_of_lt h, Nat.shiftRight_eq_div_pow]

/-- A field is smaller than its width allows. -/
theorem bitsOf_lt {w : Nat} (v : BitVec w) (lo len : Nat) : bitsOf v lo len < 2 ^ len := Nat.mod_lt _ (by positivity)

/-- The severity half after a write (R315): each field its source's floor or above, each unused source 0. -/
theorem floorSev_field (b : Nat) (hi : Bool) (v : Half) (i : Nat) (hi8 : i < 8) (hf : ∀ f ∈ floors b, f < 4) :
    bitsOf (floorSev b hi v) (2 * i) 2 =
      (match (if b = 13 then (if hi then (floors b).drop 8 else (floors b).take 8) else floors b)[i]? with | some f => max f (bitsOf v (2 * i) 2) | none => 0) := by
  unfold floorSev
  dsimp only
  generalize hl : (if b = 13 then (if hi then (floors b).drop 8 else (floors b).take 8) else floors b) = l
  have hl' : ∀ f ∈ l, f < 4 := by
    intro f h
    rw [← hl] at h
    apply hf
    split at h
    · split at h
      · exact List.mem_of_mem_drop h
      · exact List.mem_of_mem_take h
    · exact h
  have hd : ∀ i, (match l[i]? with | some f => max f (bitsOf v (2 * i) 2) | none => 0) < 4 := by
    intro i
    split
    · rename_i f h
      have h1 := hl' f (List.mem_of_getElem? h)
      have h2 := bitsOf_lt v (2 * i) 2
      exact Nat.max_lt.mpr ⟨h1, h2⟩
    · omega
  obtain ⟨d1, d2⟩ := digits4 _ hd 8
  have h16 : (4 : Nat) ^ 8 = 2 ^ 16 := by norm_num
  rw [h16] at d1
  have h4 : (4 : Nat) ^ i = 2 ^ (2 * i) := by rw [Nat.pow_mul]
  have d3 := d2 i hi8
  rw [h4] at d3
  exact (bitsOf_ofNat 16 _ _ _ d1).trans d3

end Sys2Proof.Machine
end

