-- ==== Sys2Proof/Laws/Live.lean ====
section
/-! SUPPORT. A command on a device out of reset, and on one in reset. -/

namespace Sys2Proof.Machine

variable {s : State} {i : Instr} {f : State → State}

/-- A command whose meaning acts out of reset answers its effect there. -/
theorem exec_live (he : exec i s = s.live f) (h : s.runs) : exec i s = .next (f s) := by
  have h' : s.tst.inReset = false := h
  rw [he]
  simp [State.live, h']

/-- In reset it changes nothing (R400). -/
theorem exec_held (he : exec i s = s.live f) (h : s.tst.inReset = true) : exec i s = .next s := by
  rw [he]
  simp [State.live, h]

end Sys2Proof.Machine
end

