-- ==== Sys2Proof/Laws/Descriptors.lean ====
section
/-! SUPPORT. Descriptors: what a descriptor row of the table does, said once for all of them. -/

namespace Sys2Proof.Laws

open Sys2Proof.Machine

set_option Elab.async false

/-- A descriptor row of the table submits its header and operands. -/
theorem descriptor_exec (i : Instr) (h : DHdr) (d : Desc) (s : State) (e : descriptorOf i = some (h, d)) (hr : s.runs) : exec i s = .next (s.submit h d) := by
  unfold descriptorOf at e
  split at e
  all_goals first | (cases e; done) | skip
  all_goals
    obtain ⟨e1, e2⟩ := Prod.mk.inj (Option.some.inj e)
    subst e1
    subst e2
    exact exec_live (f := fun x => x.submit _ _) rfl hr

/-- No check of a descriptor reads where round-robin service stands. -/
theorem checksOf_served (k : Cls) (d : Desc) (s : State) (n : Nat) : checksOf k d (s.served n) = checksOf k d s := by
  cases d <;> rfl

theorem dataFault_served (d : Desc) (s : State) (n : Nat) : dataFault d (s.served n) = dataFault d s := by
  cases d <;> rfl

theorem examine_served (s : State) (h : DHdr) (d : Desc) (n : Nat) : (s.served n).examine h d = s.examine h d := by
  unfold State.examine
  rw [checksOf_served]
  rfl

/-- A descriptor that passes its examination is refused by no step of R269. -/
theorem takes_examine {s : State} {h : DHdr} {d : Desc} (t : s.takes h d) : s.examine h d = none := by
  unfold State.examine
  dsimp only
  rw [t.priv, t.range, t.state]
  exact t.time

/-- A descriptor that is taken and passes is accepted, and starts; a FENCE may wait. -/
theorem takes_submit {s : State} {h : DHdr} {d : Desc} (t : s.takes h d) (hd : ∀ a, d ≠ .fence a) : s.submit h d = startOf (s.mkPend h d) (s.accepted h d) := by
  unfold State.submit
  rw [if_pos t.can]
  unfold State.runDesc
  rw [examine_served, takes_examine t]
  dsimp only
  unfold State.receive
  split
  · exact absurd rfl (hd _)
  · rw [dataFault_served, t.data]
    rfl

theorem takes_fence {s : State} {h : DHdr} {a : Byte} (t : s.takes h (.fence a)) : s.submit h (.fence a) = (s.served h.ring.val).takeFence h a := by
  unfold State.submit
  rw [if_pos t.can]
  unfold State.runDesc
  rw [examine_served, takes_examine t]
  rfl

/-- A descriptor row whose descriptor is taken and passes. -/
theorem takes_exec {i : Instr} {s : State} {h : DHdr} {d : Desc} (t : s.takes h d) (e : descriptorOf i = some (h, d)) (hd : ∀ a, d ≠ .fence a) :
    exec i s = .next (startOf (s.mkPend h d) (s.accepted h d)) := by
  rw [descriptor_exec i h d s e t.runs, takes_submit t hd]

end Sys2Proof.Laws
end

