-- ==== Sys2Proof/Laws/Mismatch.lean ====
section
/-! SUPPORT. What a counted window, a step condition and a tuner search of aerial mismatch do to a chain (R92 to R95). -/

namespace Sys2Proof.Laws

open Sys2Proof.Machine

theorem txc_of {a b : State} (h : b.rfe = a.rfe) (j : Nat) : b.txc j = a.txc j := by unfold State.txc; rw [h]
theorem fecb_of {a b : State} (h : b.rfe = a.rfe) (j : Nat) : b.fecb j = a.fecb j := by unfold State.fecb; rw [h]
theorem chain_of {a b : State} (h : b.rfe = a.rfe) (j : Nat) : b.chain j = a.chain j := by unfold State.chain; rw [h]

theorem txc_updTx_at (s : State) (i : Nat) (f : TxCh → TxCh) (j : Nat) : (s.updTx i f).txc j = if i = j then f (s.txc i) else s.txc j := by
  by_cases h : i = j
  · subst h; rw [if_pos rfl, State.txc_updTx]
  · rw [if_neg h, State.txc_updTx_ne _ _ _ _ h]

theorem fecb_updFecb_at (s : State) (i : Nat) (f : Fecb → Fecb) (j : Nat) : (s.updFecb i f).fecb j = if i = j then f (s.fecb i) else s.fecb j := by
  by_cases h : i = j
  · subst h; rw [if_pos rfl, State.fecb_updFecb]
  · rw [if_neg h, State.fecb_updFecb_ne _ _ _ _ h]

theorem queueFrame_txc (s : State) (b : Nat) (f : Frame) (j : Nat) : (s.queueFrame b f).txc j = s.txc j := rfl
theorem searchFrame_txc (s : State) (c w j : Nat) : (s.searchFrame c w).txc j = s.txc j := rfl

theorem devStep_txc (s : State) (c : Nat) (a : PwrAsk) (j : Nat) : ∃ l, (s.devStep c a).txc j = { s.txc j with waiting := l } ∧ (j ≠ c → l = (s.txc j).waiting) := by
  unfold State.devStep
  dsimp only
  split
  · exact ⟨(s.txc j).waiting, rfl, fun _ => rfl⟩
  · rw [txc_updTx_at]
    by_cases h : c = j
    · subst h; rw [if_pos rfl]; exact ⟨_, rfl, fun h => absurd rfl h⟩
    · rw [if_neg h]; exact ⟨_, rfl, fun _ => rfl⟩

theorem updTx_chain (s : State) (c : Nat) (f : TxCh → TxCh) (j : Nat) : (s.updTx c f).chain j = s.chain j := rfl
theorem devStep_chain (s : State) (c : Nat) (a : PwrAsk) (j : Nat) : (s.devStep c a).chain j = s.chain j := by
  unfold State.devStep; dsimp only; split <;> rfl

theorem AlarmedRfe.queueFrame {a s : State} (h : AlarmedRfe a s) (b : Nat) (f : Frame) : AlarmedRfe a (s.queueFrame b f) := h.updFecb _ _
theorem AlarmedRfe.devStep {a s : State} (h : AlarmedRfe a s) (c : Nat) (q : PwrAsk) : AlarmedRfe a (s.devStep c q) := by
  unfold State.devStep; dsimp only; split
  · exact h.queueFrame _ _
  · exact h.updTx _ _
theorem AlarmedRfe.searchFrame {a s : State} (h : AlarmedRfe a s) (c w : Nat) : AlarmedRfe a (s.searchFrame c w) := h.queueFrame _ _
theorem AlarmedRfe.searchStop {a s : State} (h : AlarmedRfe a s) (c : Nat) : AlarmedRfe a (s.searchStop c) := by
  unfold State.searchStop; split
  · dsimp only
    split
    · exact h.updTx _ _
    · exact (h.updTx _ _).searchFrame _ _
  · exact h

theorem searchStop_txc (s : State) (c j : Nat) : (s.searchStop c).txc j = if j = c then { s.txc c with search := none } else s.txc j := by
  unfold State.searchStop
  split
  · dsimp only
    split
    · rw [txc_updTx_at]; by_cases h : c = j
      · rw [if_pos h, if_pos h.symm]
      · rw [if_neg h, if_neg (Ne.symm h)]
    · rw [searchFrame_txc, txc_updTx_at]; by_cases h : c = j
      · rw [if_pos h, if_pos h.symm]
      · rw [if_neg h, if_neg (Ne.symm h)]
  · rename_i hn
    split
    · rename_i h; subst h
      have : (s.txc j).search = none := hn
      rw [← this]
    · rfl
theorem searchStop_chain (s : State) (c j : Nat) : (s.searchStop c).chain j = s.chain j := by
  unfold State.searchStop
  split
  · dsimp only; split <;> rfl
  · rfl

/-- What a step condition does to the chain. -/
theorem vswrStep_spec (s : State) (c : Nat) : AlarmedRfe s (s.vswrStep c) ∧ (∀ j, (s.vswrStep c).chain j = s.chain j) ∧ (∀ j, j ≠ c → (s.vswrStep c).txc j = s.txc j) ∧
    ∃ w q l, (s.vswrStep c).txc c = { s.txc c with lowered := some (PwrAsk.target (.delta (-12)) (s.txc c).base), runStep := 0, waiting := w, search := q, lastSearch := l } ∧
      ((s.txc c).map.getLsbD 15 = true → (s.txc c).lastSearch = none → s.le.libRunning = true → ∃ q', q = some q' ∧ q'.trial = 0 ∧ q'.restore = (s.txc c).base) := by
  obtain ⟨s1, hs1⟩ : ∃ x : State, x = (s.updTx c (fun x => { x with lowered := some (PwrAsk.target (.delta (-12)) (s.txc c).base), runStep := 0 })).devStep c (.delta (-12)) := ⟨_, rfl⟩
  have a1 : AlarmedRfe s s1 := by rw [hs1]; exact ((AlarmedRfe.refl s).updTx _ _).devStep _ _
  have c1 : ∀ j, s1.chain j = s.chain j := by intro j; rw [hs1, devStep_chain]; rfl
  have le1 : s1.le = s.le := by rw [hs1]; unfold State.devStep; dsimp only; split <;> rfl
  have x1 : ∀ j, j ≠ c → s1.txc j = s.txc j := by
    intro j hj
    rw [hs1]
    obtain ⟨l, e, hl⟩ := devStep_txc (s.updTx c (fun x => { x with lowered := some (PwrAsk.target (.delta (-12)) (s.txc c).base), runStep := 0 })) c (.delta (-12)) j
    rw [e, hl hj, txc_updTx_at, if_neg (Ne.symm hj)]
  obtain ⟨w, y1⟩ : ∃ w, s1.txc c = { s.txc c with lowered := some (PwrAsk.target (.delta (-12)) (s.txc c).base), runStep := 0, waiting := w } := by
    obtain ⟨l, e, _⟩ := devStep_txc (s.updTx c (fun x => { x with lowered := some (PwrAsk.target (.delta (-12)) (s.txc c).base), runStep := 0 })) c (.delta (-12)) c
    refine ⟨l, ?_⟩
    rw [hs1, e, txc_updTx_at, if_pos rfl]
  obtain ⟨bb, e, hbb⟩ : ∃ bb : Bool, s.vswrStep c = (if bb = true then
      (s1.updTx c (fun x' => { x' with search := some { trial := 0, bestWord := 0, bestRl := none, coarse := 0, restore := (s.txc c).base }, lastSearch := some s.now })).searchFrame c (trialWord 0 0) else s1) ∧
      ((s.txc c).map.getLsbD 15 = true → (s.txc c).lastSearch = none → s.le.libRunning = true → bb = true) := by
    rw [hs1]
    exact ⟨_, rfl, fun h1 h2 h3 => by rw [h1, h2, h3]; rfl⟩
  rw [e]
  refine ⟨?_, ?_, ?_, ?_⟩
  · split
    · exact (a1.updTx _ _).searchFrame _ _
    · exact a1
  · intro j; split
    · exact c1 j
    · exact c1 j
  · intro j hj; split
    · rw [searchFrame_txc, txc_updTx_at, if_neg (Ne.symm hj), x1 j hj]
    · exact x1 j hj
  · split
    · refine ⟨w, some { trial := 0, bestWord := 0, bestRl := none, coarse := 0, restore := (s.txc c).base }, some s.now, ?_, fun _ _ _ => ⟨_, rfl, rfl, rfl⟩⟩
      rw [searchFrame_txc, txc_updTx_at, if_pos rfl, y1]
    · rename_i hn
      refine ⟨w, (s.txc c).search, (s.txc c).lastSearch, ?_, ?_⟩
      · rw [y1]
      · intro h1 h2 h3; exact absurd (hbb h1 h2 h3) hn

theorem vswrCount_spec (s : State) (c : Nat) (good : Bool) (rl : Int) (ra rs rw_ rg lvl : Nat)
    (hra : ra = if good then 0 else (s.txc c).runAlert + 1) (hrs : rs = if good ∨ (s.txc c).stepTh ≤ rl then 0 else (s.txc c).runStep + 1)
    (hrw : rw_ = if good ∨ (s.txc c).winterTh ≤ rl then 0 else (s.txc c).runWinter + 1) (hrg : rg = if good then (s.txc c).runGood + 1 else 0)
    (hl : lvl = if 50 ≤ rg then 0 else max (s.txc c).level (if 2 ≤ rw_ then 3 else if 50 ≤ rs then 2 else if 50 ≤ ra then 1 else 0)) :
    AlarmedRfe s (s.vswrCount c good rl) ∧ (∀ j, (s.vswrCount c good rl).chain j = s.chain j) ∧ (∀ j, j ≠ c → (s.vswrCount c good rl).txc j = s.txc j) ∧
    (∃ rs' rw' lo w q l, (s.vswrCount c good rl).txc c = { s.txc c with runAlert := ra, runStep := rs', runWinter := rw', runGood := rg, level := lvl, lowered := lo, waiting := w, search := q, lastSearch := l } ∧
      (50 ≤ rs → (s.txc c).search = none → lo = some (PwrAsk.target (.delta (-12)) (s.txc c).base)) ∧
      (50 ≤ rs → (s.txc c).search = none → rw_ < 2 → (s.txc c).map.getLsbD 15 = true → (s.txc c).lastSearch = none → s.le.libRunning = true → ∃ q', q = some q' ∧ q'.trial = 0 ∧ q'.restore = (s.txc c).base) ∧
      (2 ≤ rw_ → q = none)) ∧
    ((s.txc c).level = 0 → 1 ≤ lvl → rw_ < 2 → ((s.vswrCount c good rl).fsrc (16 * (6 + c / 8) + 6)).status = true) ∧
    (2 ≤ rw_ → (∃ u : State, s.vswrCount c good rl = (u.raise 13 8 (.tx c)).winterSet (objChain c) 4 0) ∧ ((s.vswrCount c good rl).wobj (objChain c)).cause.getLsbD 4 = true) := by
  obtain ⟨s1, hs1⟩ : ∃ x : State, x = s.updTx c (fun x => { x with runAlert := ra, runStep := rs, runWinter := rw_, runGood := rg, level := lvl, lowered := if lvl < 2 then none else x.lowered }) := ⟨_, rfl⟩
  obtain ⟨s2, hs2⟩ : ∃ x : State, x = if (s.txc c).level = 0 ∧ 1 ≤ lvl then s1.raise (6 + c / 8) 6 (.tx c) else s1 := ⟨_, rfl⟩
  obtain ⟨s3, hs3⟩ : ∃ x : State, x = if 50 ≤ rs ∧ !(s.txc c).searching then s2.vswrStep c else s2 := ⟨_, rfl⟩
  have e : s.vswrCount c good rl = if 2 ≤ rw_ then (((s3.updTx c (fun x => { x with runWinter := 0 })).searchStop c).raise 13 8 (.tx c)).winterSet (objChain c) 4 0 else s3 := by
    rw [hs3, hs2, hs1, hl, hra, hrs, hrw, hrg]; rfl
  have a1 : AlarmedRfe s s1 := by rw [hs1]; exact (AlarmedRfe.refl s).updTx _ _
  have k2 : s1.alarmed s2 := by rw [hs2]; exact State.alarmed_ite (State.alarmed_raise (State.alarmed_refl _)) (State.alarmed_refl _)
  have a2 := a1.of k2
  have r2 := State.alarmed_rfe k2
  have le2 : s2.le = s.le := by rw [State.alarmed_le k2, hs1]; rfl
  obtain ⟨b1, b2, b3, w, q, l, b4, b5⟩ := vswrStep_spec s2 c
  have x2 : ∀ j, j ≠ c → s2.txc j = s.txc j := by intro j hj; rw [txc_of r2, hs1, txc_updTx_at, if_neg (Ne.symm hj)]
  have y2 : s2.txc c = { s.txc c with runAlert := ra, runStep := rs, runWinter := rw_, runGood := rg, level := lvl, lowered := if lvl < 2 then none else (s.txc c).lowered } := by
    rw [txc_of r2, hs1, txc_updTx_at, if_pos rfl]
  have c2 : ∀ j, s2.chain j = s.chain j := by intro j; rw [chain_of r2, hs1]; rfl
  have a3 : AlarmedRfe s s3 := by rw [hs3]; split; exacts [a2.trans b1, a2]
  have c3 : ∀ j, s3.chain j = s.chain j := by intro j; rw [hs3]; split; exacts [(b2 j).trans (c2 j), c2 j]
  have x3 : ∀ j, j ≠ c → s3.txc j = s.txc j := by intro j hj; rw [hs3]; split; exacts [(b3 j hj).trans (x2 j hj), x2 j hj]
  obtain ⟨rs', lo, w', q', l', y3, lo3, q3⟩ : ∃ rs' lo w' q' l', s3.txc c = { s.txc c with runAlert := ra, runStep := rs', runWinter := rw_, runGood := rg, level := lvl, lowered := lo, waiting := w', search := q', lastSearch := l' } ∧
      (50 ≤ rs → (s.txc c).search = none → lo = some (PwrAsk.target (.delta (-12)) (s.txc c).base)) ∧
      (50 ≤ rs → (s.txc c).search = none → (s.txc c).map.getLsbD 15 = true → (s.txc c).lastSearch = none → s.le.libRunning = true → ∃ q'', q' = some q'' ∧ q''.trial = 0 ∧ q''.restore = (s.txc c).base) := by
    by_cases hc : 50 ≤ rs ∧ (!(s.txc c).searching) = true
    · rw [hs3, if_pos hc]
      rw [y2] at b4 b5
      refine ⟨_, _, w, q, l, b4, fun _ _ => rfl, fun _ _ h1 h2 h3 => b5 h1 h2 (by rw [le2]; exact h3)⟩
    · rw [hs3, if_neg hc]
      have : ∀ (h : 50 ≤ rs) (h' : (s.txc c).search = none), False := by
        intro h h'; exact hc ⟨h, by unfold TxCh.searching; rw [h']; rfl⟩
      exact ⟨rs, _, (s.txc c).waiting, (s.txc c).search, (s.txc c).lastSearch, y2, fun h h' => (this h h').elim, fun h h' => (this h h').elim⟩
  by_cases hw : 2 ≤ rw_
  · rw [if_pos hw] at e
    obtain ⟨u, hu⟩ : ∃ u : State, u = (s3.updTx c (fun x => { x with runWinter := 0 })).searchStop c := ⟨_, rfl⟩
    rw [← hu] at e
    have au : AlarmedRfe s u := by rw [hu]; exact (a3.updTx _ _).searchStop _
    have kt : u.alarmed (s.vswrCount c good rl) := by rw [e]; exact State.alarmed_winterSet (State.alarmed_raise (State.alarmed_refl _))
    have rt := State.alarmed_rfe kt
    refine ⟨au.of kt, ?_, ?_, ?_, fun _ _ h => absurd hw (by omega), fun _ => ⟨⟨u, e⟩, by rw [e]; exact State.winterSet_cause _ _ _ _ (by decide)⟩⟩
    · intro j; rw [chain_of rt, hu, searchStop_chain]; exact c3 j
    · intro j hj; rw [txc_of rt, hu, searchStop_txc, if_neg hj, txc_updTx_at, if_neg (Ne.symm hj), x3 j hj]
    · refine ⟨rs', 0, lo, w', none, l', ?_, lo3, fun _ _ h => absurd hw (by omega), fun _ => rfl⟩
      rw [txc_of rt, hu, searchStop_txc, if_pos rfl, txc_updTx_at, if_pos rfl, y3]
  · rw [if_neg hw] at e
    rw [e]
    refine ⟨a3, c3, x3, ⟨rs', rw_, lo, w', q', l', y3, lo3, fun h1 h2 _ => q3 h1 h2, fun h => absurd h hw⟩, ?_, fun h => absurd h hw⟩
    intro h0 h1 _
    have st2 : (s2.fsrc (16 * (6 + c / 8) + 6)).status = true := by rw [hs2, if_pos ⟨h0, h1⟩]; exact State.raise_status _ _ _ _
    rw [hs3]; split
    · have : (s2.vswrStep c).flt = s2.flt := by
        exact (Kept.vswrStep (p := { rfe := true }) (Kept.refl _ s2)).flt rfl
      unfold State.fsrc at st2 ⊢; rw [this]; exact st2
    · exact st2

end Sys2Proof.Laws
end

