-- ==== Sys2Proof/Laws/Ticks.lean ====
section
/-! SUPPORT. What one gain stage's share of a gain tick does (R134 to R139, R164), and folds of completions. -/

namespace Sys2Proof.Laws

open Sys2Proof.Machine

theorem slot_of {a b : State} (h : b.slots = a.slots) (j : Nat) : b.slot j = a.slot j := by unfold State.slot; rw [h]
theorem gain_of {a b : State} (h : b.gcl = a.gcl) (j : Nat) : b.gain j = a.gain j := by unfold State.gain; rw [h]
theorem inst_of {a b : State} (h : b.cx = a.cx) (j : Nat) : b.inst j = a.inst j := by unfold State.inst; rw [h]
theorem lut_of {a b : State} (h : b.luts = a.luts) (j : Nat) : b.lut j = a.lut j := by unfold State.lut; rw [h]

theorem slot_updSlot_at (s : State) (i : Nat) (f : Slot → Slot) (j : Nat) : (s.updSlot i f).slot j = if i = j then f (s.slot i) else s.slot j := by
  by_cases h : i = j
  · subst h; rw [if_pos rfl, State.slot_updSlot]
  · rw [if_neg h, State.slot_updSlot_ne _ _ _ _ h]

theorem gain_updGain_at (s : State) (i : Nat) (f : Gain → Gain) (j : Nat) : (s.updGain i f).gain j = if i = j then f (s.gain i) else s.gain j := by
  by_cases h : i = j
  · subst h; rw [if_pos rfl, State.gain_updGain]
  · rw [if_neg h, State.gain_updGain_ne _ _ _ _ h]

theorem inst_updInst_at (s : State) (i : Nat) (f : Inst → Inst) (j : Nat) : (s.updInst i f).inst j = if i = j then f (s.inst i) else s.inst j := by
  by_cases h : i = j
  · subst h; rw [if_pos rfl, State.inst_updInst]
  · rw [if_neg h, State.inst_updInst_ne _ _ _ _ h]

/-- A fold of completions leaves what was outstanding and is none of them. -/
theorem completed_fold (g : State → Pend → State) (hg : ∀ a p, (g a p).hif.outstanding = a.hif.outstanding.filter (fun q => decide (q.id ≠ p.id))) (l : List Pend) :
    ∀ (u : State) (q : Pend), q ∈ (l.foldl g u).hif.outstanding ↔ q ∈ u.hif.outstanding ∧ ∀ p ∈ l, q.id ≠ p.id := by
  induction l with
  | nil => intro u q; exact ⟨fun h => ⟨h, fun _ hp => nomatch hp⟩, fun h => h.1⟩
  | cons p r ih =>
    intro u q
    rw [List.foldl_cons, ih, hg, List.mem_filter, decide_eq_true_eq]
    constructor
    · rintro ⟨⟨h1, h2⟩, h3⟩
      exact ⟨h1, fun x hx => by rcases List.mem_cons.mp hx with rfl | hx; exacts [h2, h3 x hx]⟩
    · rintro ⟨h1, h2⟩
      exact ⟨⟨h1, h2 p List.mem_cons_self⟩, fun x hx => h2 x (List.mem_cons_of_mem _ hx)⟩

/-- The same, over the outstanding ones that f picks: none that f picks stays. -/
theorem completed_pends (g : State → Pend → State) (hg : ∀ a p, (g a p).hif.outstanding = a.hif.outstanding.filter (fun q => decide (q.id ≠ p.id))) (s u : State) (f : Pend → Bool) (hu : u.hif.outstanding = s.hif.outstanding) :
    ∀ q ∈ ((s.pends f).foldl g u).hif.outstanding, q ∈ s.hif.outstanding ∧ f q = false := by
  intro q hq
  rw [completed_fold g hg, hu] at hq
  refine ⟨hq.1, ?_⟩
  cases hf : f q with
  | false => rfl
  | true => exact absurd rfl (hq.2 q (List.mem_filter.mpr ⟨hq.1, hf⟩))

theorem Kept.mono {p q : Part} {a b : State} (h : Kept p a b) (hq : Part.sub p q = true := by decide) : Kept q a b := by
  obtain ⟨hhif, hintc, hflt, hrecd, hrfe, hslots, hcx, hcxPol, hgcl, hluts, hprot, htim, hle, hjl, htst, hfreeCnt, hn, hp⟩ := h
  simp only [Part.sub, Bool.and_eq_true, Bool.or_eq_true, Bool.not_eq_true', and_assoc] at hq
  obtain ⟨g1, g2, g3, g4, g5, g6, g7, g8, g9, g10, g11, g12, g13, g14, g15, g16⟩ := hq
  exact ⟨fun e => g1.elim hhif (fun k => absurd (k.symm.trans e) (by decide)), fun e => g2.elim hintc (fun k => absurd (k.symm.trans e) (by decide)), fun e => g3.elim hflt (fun k => absurd (k.symm.trans e) (by decide)),
    fun e => g4.elim hrecd (fun k => absurd (k.symm.trans e) (by decide)), fun e => g5.elim hrfe (fun k => absurd (k.symm.trans e) (by decide)), fun e => g6.elim hslots (fun k => absurd (k.symm.trans e) (by decide)),
    fun e => g7.elim hcx (fun k => absurd (k.symm.trans e) (by decide)), fun e => g8.elim hcxPol (fun k => absurd (k.symm.trans e) (by decide)), fun e => g9.elim hgcl (fun k => absurd (k.symm.trans e) (by decide)),
    fun e => g10.elim hluts (fun k => absurd (k.symm.trans e) (by decide)), fun e => g11.elim hprot (fun k => absurd (k.symm.trans e) (by decide)), fun e => g12.elim htim (fun k => absurd (k.symm.trans e) (by decide)),
    fun e => g13.elim hle (fun k => absurd (k.symm.trans e) (by decide)), fun e => g14.elim hjl (fun k => absurd (k.symm.trans e) (by decide)), fun e => g15.elim htst (fun k => absurd (k.symm.trans e) (by decide)),
    fun e => g16.elim hfreeCnt (fun k => absurd (k.symm.trans e) (by decide)), hn, hp⟩

/-- What the share of one gain stage leaves: only completions, records, interrupts and gain stages change. -/
abbrev tickPart : Part := { hif := true, intc := true, recd := true, gcl := true }

/-- The gain stage g with its cap formed again. -/
def recap (g : Gain) (cl c : Int) (ng : Bool) (gc mu : Nat) (co st cd : Bool) : Gain := { g with capl := cl, cap := c, nogov := ng, govCx := gc, marginUse := mu, cold := co, stale := st, cutDue := cd }

theorem capSlot_gain (s : State) (n j : Nat) : ∃ cl c ng gc mu co st cd, (s.capSlot n).gain j = recap (s.gain j) cl c ng gc mu co st cd ∧ (j ≠ n → recap (s.gain j) cl c ng gc mu co st cd = s.gain j) ∧
    (j = n → c ≤ cl ∧ ∀ b, (s.gain n).marginQ = some b → cl ≤ max (-1200) b) := by
  unfold State.capSlot
  dsimp only
  rw [gain_updGain_at]
  by_cases h : n = j
  · subst h
    rw [if_pos rfl]
    refine ⟨_, _, _, _, _, _, _, _, rfl, fun h => absurd rfl h, fun _ => ⟨?_, ?_⟩⟩
    · split
      · exact min_le_left _ _
      · exact le_refl _
    · intro b hb
      rw [hb]
      unfold clampI optMin
      dsimp only
      omega
  · rw [if_neg h]
    exact ⟨_, _, _, _, _, _, _, _, rfl, fun _ => rfl, fun e => absurd e.symm h⟩

theorem capAll_gain (s : State) (j : Nat) : ∃ cl c ng gc mu co st cd, (s.capAll).gain j = recap (s.gain j) cl c ng gc mu co st cd := by
  unfold State.capAll
  split
  · refine each_keep (fun u => ∃ cl c ng gc mu co st cd, u.gain j = recap (s.gain j) cl c ng gc mu co st cd) _ (fun n u hu => ?_) _ s ⟨_, _, _, _, _, _, _, _, rfl⟩
    obtain ⟨_, _, _, _, _, _, _, _, hg⟩ := hu
    obtain ⟨_, _, _, _, _, _, _, _, hg', _⟩ := capSlot_gain u n j
    exact ⟨_, _, _, _, _, _, _, _, by rw [hg', hg]; rfl⟩
  · exact ⟨_, _, _, _, _, _, _, _, rfl⟩

/-- The first half of a stage's share: its interval, and MARGIN where the slot is ACTIVE. -/
def tickMargin (s : State) (n : Nat) : State := if (s.slot n).st = .active then (s.updGain n Gain.newInterval).marginTick n else s.updGain n Gain.newInterval

theorem tickMargin_spec (s : State) (n : Nat) (hb : ∀ b, s.marginBound n = some b → (s.gain n).applied ≤ b) :
    Kept { gcl := true } s (tickMargin s n) ∧ (∀ j, j ≠ n → (tickMargin s n).gain j = s.gain j) ∧
    ∃ mq cl c ng gc mu co st cd, (tickMargin s n).gain n = recap { (s.gain n).newInterval with marginQ := mq } cl c ng gc mu co st cd ∧
      ((s.slot n).st = .active → mq = s.marginBound n ∧ c ≤ cl ∧ ∀ b, s.marginBound n = some b → cl ≤ max (-1200) b) := by
  unfold tickMargin
  obtain ⟨s1, hs1⟩ : ∃ x : State, x = s.updGain n Gain.newInterval := ⟨_, rfl⟩
  have k1 : Kept { gcl := true } s s1 := by rw [hs1]; exact Kept.updGain (Kept.refl _ _)
  have o1 : ∀ j, j ≠ n → s1.gain j = s.gain j := by intro j hj; rw [hs1, gain_updGain_at, if_neg (Ne.symm hj)]
  have g1 : s1.gain n = (s.gain n).newInterval := by rw [hs1, gain_updGain_at, if_pos rfl]
  rw [← hs1]
  by_cases ha : (s.slot n).st = .active
  · rw [if_pos ha]
    obtain ⟨s2, hs2⟩ : ∃ x : State, x = (s1.updGain n (fun g => { g with marginQ := s.marginBound n })).capSlot n := ⟨_, rfl⟩
    obtain ⟨cl, c, ng, gc, mu, co, st, cd, q1, _, q3⟩ := capSlot_gain (s1.updGain n (fun g => { g with marginQ := s.marginBound n })) n n
    have mb : s1.marginBound n = s.marginBound n := by rw [hs1]; rfl
    have g2 : s2.gain n = recap { (s.gain n).newInterval with marginQ := s.marginBound n } cl c ng gc mu co st cd := by
      rw [hs2, q1, gain_updGain_at, if_pos rfl, g1]
    have e : s1.marginTick n = s2 := by
      unfold State.marginTick
      rw [mb]
      dsimp only
      rw [← hs2]
      split
      · rename_i b hq
        rw [if_neg]
        have ap : (s2.gain n).applied = (s.gain n).applied := by rw [g2]; rfl
        rw [ap]; have := hb b hq; omega
      · rfl
    rw [e]
    refine ⟨?_, ?_, s.marginBound n, cl, c, ng, gc, mu, co, st, cd, g2, fun _ => ⟨rfl, ?_⟩⟩
    · rw [hs2]; exact Kept.capSlot (Kept.updGain k1)
    · intro j hj
      obtain ⟨cl', c', ng', gc', mu', co', st', cd', w1, w2, _⟩ := capSlot_gain (s1.updGain n (fun g => { g with marginQ := s.marginBound n })) n j
      rw [hs2, w1, w2 hj, gain_updGain_at, if_neg (Ne.symm hj), o1 j hj]
    · have := q3 rfl
      rw [gain_updGain_at, if_pos rfl] at this
      exact this
  · rw [if_neg ha]
    exact ⟨k1, o1, _, _, _, _, _, _, _, _, _, g1, fun h => absurd h ha⟩

/-- The move of R134 and R136 from a, towards lim. -/
def moved (a lim : Int) (up dn : Nat) (hold : Bool) : Int := if a < lim then (if hold then a else min lim (a + up)) else if lim < a then max lim (a - dn) else a

theorem gainMove_spec (s : State) (n : Nat) (hu : (s.gain n).used = false) :
    Kept { gcl := true } s (s.gainMove n) ∧ (∀ j, j ≠ n → (s.gainMove n).gain j = s.gain j) ∧
    ∃ u f r, (s.gainMove n).gain n = { (s.gain n).setAcc (moved (s.gain n).acc (min (s.gain n).target (s.gain n).cap * 100) (s.gain n).slewUp (s.gain n).slewDn (s.protHold n)) with used := u, fastNow := f, ramp := r } := by
  refine ⟨Kept.gainMove (Kept.refl _ _), ?_, ?_⟩
  · intro j hj
    unfold State.gainMove
    dsimp only
    rw [hu, if_neg (by decide), gain_updGain_at, if_neg (Ne.symm hj)]
  · unfold State.gainMove
    dsimp only
    rw [hu, if_neg (by decide), gain_updGain_at, if_pos rfl]
    exact ⟨_, _, _, rfl⟩

theorem endGainSets_out (s : State) (n : Nat) (st : Status) : ∀ q ∈ (s.endGainSets n st).hif.outstanding, q ∈ s.hif.outstanding ∧ isGainSet n q = false := by
  unfold State.endGainSets
  exact completed_pends _ (fun a p => complete_outstanding _ _ _ _ _) s s _ rfl

theorem gainSetCheck_out (s : State) (n : Nat) : (∀ q ∈ (s.gainSetCheck n).hif.outstanding, q ∈ s.hif.outstanding) ∧ (s.gainReached n = true → ∀ q ∈ (s.gainSetCheck n).hif.outstanding, isGainSet n q = false) ∧
    (s.gainReached n = false → s.gainSetCheck n = s) := by
  unfold State.gainSetCheck
  refine ⟨?_, ?_, ?_⟩
  · intro q hq
    split at hq
    · exact (endGainSets_out s n _ q hq).1
    · exact hq
  · intro h q hq
    rw [if_pos h] at hq
    exact (endGainSets_out s n _ q hq).2
  · intro h; rw [h]; rfl

theorem setpointCheck_out (s : State) (n : Nat) : ∀ q ∈ (s.setpointCheck n).hif.outstanding, q ∈ s.hif.outstanding := by
  intro q hq
  unfold State.setpointCheck at hq
  dsimp only at hq
  split at hq
  · exact (completed_pends _ (fun a p => complete_outstanding _ _ _ _ _) s s _ rfl q hq).1
  · exact hq

theorem spMove_spec (s : State) (n : Nat) (hu : (s.gain n).spUsed = false) :
    Kept tickPart s (s.spMove n) ∧ (∀ j, j ≠ n → (s.spMove n).gain j = s.gain j) ∧ (∀ q ∈ (s.spMove n).hif.outstanding, q ∈ s.hif.outstanding) ∧
    ∃ u, (s.spMove n).gain n = { (s.gain n).setSp (moved (s.gain n).spAcc ((s.gain n).spTarget * 20) (s.gain n).slewUp (s.gain n).slewDn false) with spUsed := u } := by
  have sc : ∀ (u : State) j, (u.setpointCheck n).gain j = u.gain j := fun u j => gain_of ((Kept.setpointCheck (p := { hif := true, intc := true, recd := true }) (Kept.refl _ u)).gcl rfl) j
  obtain ⟨u, e⟩ : ∃ u, s.spMove n = (s.updGain n (fun g => { g.setSp (moved (s.gain n).spAcc ((s.gain n).spTarget * 20) (s.gain n).slewUp (s.gain n).slewDn false) with spUsed := u })).setpointCheck n := by
    refine ⟨decide (moved (s.gain n).spAcc ((s.gain n).spTarget * 20) (s.gain n).slewUp (s.gain n).slewDn false ≠ (s.gain n).spAcc), ?_⟩
    unfold State.spMove
    dsimp only
    rw [hu, if_neg (by decide)]
    rfl
  refine ⟨Kept.spMove (Kept.refl _ _), ?_, ?_, u, ?_⟩
  · intro j hj
    rw [e, sc, gain_updGain_at, if_neg (Ne.symm hj)]
  · intro q hq
    rw [e] at hq
    exact setpointCheck_out (s.updGain n _) n q hq
  · rw [e, sc, gain_updGain_at, if_pos rfl]

theorem protHold_of {a b : State} (hs : b.slots = a.slots) (hr : b.rfe = a.rfe) (hp : b.prot = a.prot) (hg : ∀ j, (b.gain j).nrise = (a.gain j).nrise) (n : Nat) : b.protHold n = a.protHold n := by
  unfold State.protHold
  rw [slot_of hs]
  split
  · rename_i c _
    have e1 : b.txc c = a.txc c := txc_of hr c
    have e2 : b.net c = a.net c := by unfold State.net; rw [hp]
    have e3 : b.txSlots c = a.txSlots c := by unfold State.txSlots State.heldSlots State.slot; rw [hs]
    rw [e1, e2, e3]
    simp only [hg]
  · rfl

/-- What a tick does to a loop-less stage n where MARGIN cuts nothing (R134, R136, R139, R164). -/
def Ticked (s t : State) (n : Nat) : Prop :=
  (t.gain n).target = (s.gain n).target ∧ (t.gain n).host = (s.gain n).host ∧ (t.gain n).nrise = (s.gain n).nrise ∧
  (t.gain n).spAcc = moved (s.gain n).spAcc ((s.gain n).spTarget * 20) (s.gain n).slewUp (s.gain n).slewDn false ∧
  ((s.slot n).st = .active → s.slotMuted n = false → (t.gain n).marginQ = s.marginBound n ∧ (t.gain n).cap ≤ (t.gain n).capl ∧ (∀ b, s.marginBound n = some b → (t.gain n).capl ≤ max (-1200) b) ∧
    (t.gain n).acc = moved (s.gain n).acc (min (s.gain n).target (t.gain n).cap * 100) (s.gain n).slewUp (s.gain n).slewDn (s.protHold n) ∧
    ((t.gain n).applied = min (s.gain n).host (t.gain n).cap → ∀ q ∈ t.hif.outstanding, isGainSet n q = false)) ∧
  ((s.slot n).st ≠ .active ∨ s.slotMuted n = true → (t.gain n).acc = (s.gain n).acc ∧ (t.gain n).applied = (s.gain n).applied)

/-- One loop-less stage's share of a tick in which MARGIN cuts nothing. -/
theorem tickSlot_spec (s : State) (meas : List LoopMeas) (n : Nat) (ha : (s.gain n).agcEn = false) (hb : ∀ b, s.marginBound n = some b → (s.gain n).applied ≤ b) :
    Kept tickPart s (s.tickSlot meas n) ∧ (∀ j, j ≠ n → (s.tickSlot meas n).gain j = s.gain j) ∧ (∀ q ∈ (s.tickSlot meas n).hif.outstanding, q ∈ s.hif.outstanding) ∧
    Ticked s (s.tickSlot meas n) n := by
  obtain ⟨k2, o2, mq, cl, c, ng, gc, mu, co, st, cd, g2, c2⟩ := tickMargin_spec s n hb
  obtain ⟨s2, hs2⟩ : ∃ x : State, x = tickMargin s n := ⟨_, rfl⟩
  rw [← hs2] at k2 o2 g2
  obtain ⟨s4, hs4⟩ : ∃ x : State, x = if (s2.slot n).st = .active ∧ !s2.slotMuted n then (s2.gainMove n).gainSetCheck n else s2 := ⟨_, rfl⟩
  have lb : s2.loopBoundary n = false := by
    unfold State.loopBoundary
    rw [g2]
    show ((s.gain n).agcEn && _) = false
    rw [ha]; rfl
  have e : s.tickSlot meas n = s4.spMove n := by
    rw [hs4]
    unfold State.tickSlot
    have : (if (s.slot n).st = .active then (s.updGain n Gain.newInterval).marginTick n else s.updGain n Gain.newInterval) = s2 := by rw [hs2]; rfl
    dsimp only
    rw [this, lb]
    rfl
  have sl : s2.slot n = s.slot n := slot_of (k2.slots rfl) n
  have mt : s2.slotMuted n = s.slotMuted n := by rw [k2.frame]; rfl
  have ph : s2.protHold n = s.protHold n := protHold_of (k2.slots rfl) (k2.rfe rfl) (k2.prot rfl) (fun j => by
    by_cases hj : j = n
    · subst hj; rw [g2]; rfl
    · rw [o2 j hj]) n
  have us : (s2.gain n).used = false ∧ (s2.gain n).spUsed = false := by rw [g2]; exact ⟨rfl, rfl⟩
  obtain ⟨k3, o3, u3, f3, r3, g3⟩ := gainMove_spec s2 n us.1
  have gs : ∀ (u : State) j, (u.gainSetCheck n).gain j = u.gain j := fun u j => gain_of ((Kept.gainSetCheck (p := { hif := true, intc := true, recd := true }) (Kept.refl _ u)).gcl rfl) j
  have k4 : Kept tickPart s s4 := by
    rw [hs4]; split
    · refine Kept.gainSetCheck ?_; refine Kept.gainMove ?_; exact Kept.mono k2
    · exact Kept.mono k2
  have o4 : ∀ j, j ≠ n → s4.gain j = s.gain j := by
    intro j hj; rw [hs4]; split
    · rw [gs, o3 j hj, o2 j hj]
    · exact o2 j hj
  have q4 : ∀ q ∈ s4.hif.outstanding, q ∈ s.hif.outstanding := by
    intro q hq
    rw [← k2.hif rfl]
    rw [hs4] at hq
    split at hq
    · have := (gainSetCheck_out _ n).1 q hq
      rw [k3.hif rfl] at this; exact this
    · exact hq
  have su4 : (s4.gain n).spUsed = false ∧ (s4.gain n).spAcc = (s.gain n).spAcc ∧ (s4.gain n).spTarget = (s.gain n).spTarget ∧ (s4.gain n).slewUp = (s.gain n).slewUp ∧ (s4.gain n).slewDn = (s.gain n).slewDn ∧
      (s4.gain n).target = (s.gain n).target ∧ (s4.gain n).host = (s.gain n).host ∧ (s4.gain n).nrise = (s.gain n).nrise ∧ (s4.gain n).agcEn = false := by
    rw [hs4]; split
    · rw [gs, g3, g2]; exact ⟨rfl, rfl, rfl, rfl, rfl, rfl, rfl, rfl, ha⟩
    · rw [g2]; exact ⟨rfl, rfl, rfl, rfl, rfl, rfl, rfl, rfl, ha⟩
  obtain ⟨w1, w2, w3, w4, w5, w6, w7, w8, w9⟩ := su4
  obtain ⟨k5, o5, q5, u5, g5⟩ := spMove_spec s4 n w1
  rw [e]
  refine ⟨k4.trans k5, fun j hj => by rw [o5 j hj, o4 j hj], fun q hq => q4 q (q5 q hq), ?_⟩
  unfold Ticked
  rw [g5]
  refine ⟨w6, w7, w8, ?_, ?_, ?_⟩
  · show moved (s4.gain n).spAcc ((s4.gain n).spTarget * 20) (s4.gain n).slewUp (s4.gain n).slewDn false = _
    rw [w2, w3, w4, w5]
  · intro h1 h2
    obtain ⟨z1, z2, z3⟩ := c2 h1
    have e4 : s4 = (s2.gainMove n).gainSetCheck n := by rw [hs4, sl, mt, h2]; exact if_pos ⟨h1, rfl⟩
    have g4 : s4.gain n = (s2.gainMove n).gain n := by rw [e4, gs]
    rw [g4, g3, ph, g2]
    refine ⟨z1, z2, z3, rfl, ?_⟩
    intro hr q hq
    have hq4 := q5 q hq
    rw [e4] at hq4
    refine (gainSetCheck_out _ n).2.1 ?_ q hq4
    unfold State.gainReached
    rw [g3, ph, g2]
    show (if (s.gain n).agcEn then _ else _) = true
    rw [ha]
    exact decide_eq_true hr
  · intro h
    have e4 : s4 = s2 := by
      rw [hs4, sl, mt]
      refine if_neg ?_
      rintro ⟨h1, h2⟩
      rcases h with h | h
      · exact h h1
      · rw [h] at h2; cases h2
    show (s4.gain n).acc = _ ∧ (s4.gain n).applied = _
    rw [e4, g2]; exact ⟨rfl, rfl⟩

theorem tickFold (meas : List LoopMeas) : ∀ (l : List Nat) (s : State), l.Nodup → (∀ m ∈ l, (s.gain m).agcEn = false ∧ ∀ b, s.marginBound m = some b → (s.gain m).applied ≤ b) →
    Kept tickPart s (s.each l (fun n a => a.tickSlot meas n)) ∧ (∀ j, j ∉ l → (s.each l (fun n a => a.tickSlot meas n)).gain j = s.gain j) ∧
    (∀ q ∈ (s.each l (fun n a => a.tickSlot meas n)).hif.outstanding, q ∈ s.hif.outstanding) ∧ ∀ n ∈ l, Ticked s (s.each l (fun n a => a.tickSlot meas n)) n := by
  intro l
  induction l with
  | nil => intro s _ _; exact ⟨Kept.refl _ _, fun _ _ => rfl, fun _ h => h, fun _ h => nomatch h⟩
  | cons m r ih =>
    intro s hd hl
    obtain ⟨hm, hr⟩ := List.nodup_cons.mp hd
    obtain ⟨k1, o1, q1, c1⟩ := tickSlot_spec s meas m (hl m List.mem_cons_self).1 (hl m List.mem_cons_self).2
    obtain ⟨s1, hs1⟩ : ∃ x : State, x = s.tickSlot meas m := ⟨_, rfl⟩
    rw [← hs1] at k1 o1 q1 c1
    have mb : ∀ n, s1.marginBound n = s.marginBound n := by intro n; rw [k1.frame]; rfl
    have sl : ∀ n, s1.slot n = s.slot n := slot_of (k1.slots rfl)
    have mt : ∀ n, s1.slotMuted n = s.slotMuted n := by intro n; rw [k1.frame]; rfl
    have ph : ∀ n, s1.protHold n = s.protHold n := protHold_of (k1.slots rfl) (k1.rfe rfl) (k1.prot rfl) (fun j => by
      by_cases hj : j = m
      · subst hj; exact c1.2.2.1
      · rw [o1 j hj])
    obtain ⟨k2, o2, q2, c2⟩ := ih s1 hr (fun n hn => by
      have : n ≠ m := fun e => hm (e ▸ hn)
      rw [o1 n this, mb]
      exact hl n (List.mem_cons_of_mem _ hn))
    obtain ⟨t, ht⟩ : ∃ x : State, x = s1.each r (fun n a => a.tickSlot meas n) := ⟨_, rfl⟩
    have e : s.each (m :: r) (fun n a => a.tickSlot meas n) = t := by rw [ht, hs1]; rfl
    rw [← ht] at k2 o2 q2 c2
    rw [e]
    refine ⟨k1.trans k2, ?_, fun q hq => q1 q (q2 q hq), ?_⟩
    · intro j hj
      rw [List.mem_cons, not_or] at hj
      rw [o2 j hj.2, o1 j hj.1]
    · intro n hn
      rcases List.mem_cons.mp hn with rfl | hn
      · unfold Ticked at c1 ⊢
        rw [o2 n hm]
        obtain ⟨a1, a2, a3, a4, a5, a6⟩ := c1
        exact ⟨a1, a2, a3, a4, fun h1 h2 => ⟨(a5 h1 h2).1, (a5 h1 h2).2.1, (a5 h1 h2).2.2.1, (a5 h1 h2).2.2.2.1, fun h3 q hq => (a5 h1 h2).2.2.2.2 h3 q (q2 q hq)⟩, a6⟩
      · have hne : n ≠ m := fun e => hm (e ▸ hn)
        have := c2 n hn
        unfold Ticked at this ⊢
        rw [o1 n hne, sl, mt, mb, ph] at this
        exact this

end Sys2Proof.Laws
end

