-- ==== Sys2Proof/Tests/Slice0.lean ====
section
/-! SUPPORT. Tests of the model against the manual's worked examples, and witnesses for the statements. -/

open Sys2Proof Sys2Proof.Machine

theorem test_ukWord : uDecode 0x80401200 = some (.p .prd 1 0 0x1200) := by decide
end

section
/-! SUPPORT. What completions, held loads and a fade's end leave, as the slot events use them (R46 to R50, R275). -/

namespace Sys2Proof.Proofs

open Sys2Proof.Machine Sys2Proof.Laws

/-- The blocks that writing completions changes. -/
abbrev complPart : Part := { hif := true, intc := true, recd := true }

theorem kept_complete (s : State) (p : Pend) (st : Status) (r : Word) (x : Half) : Kept complPart s (s.complete p st r x) := Kept.complete (Kept.refl _ s)

theorem kept_completeId (s : State) (id : Nat) (st : Status) (r : Word) (x : Half) : Kept complPart s (s.completeId id st r x) := Kept.completeId (Kept.refl _ s)

theorem kept_completeAll (s : State) (f : Pend → Bool) (st : Status) : Kept complPart s (s.completeAll f st) := Kept.completeAll (Kept.refl _ s)

theorem kept_loadsStart (s : State) (n : Nat) : Kept complPart s (s.loadsStart n) := Kept.loadsStart (Kept.refl _ s)

/-- What an alarm may change includes the slots: it does not matter how they stood before. -/
theorem alarmed_slots {s t : State} (x : Tab Slot) (h : s.alarmed t) : ({ s with slots := x } : State).alarmed t := h

/-- Starting held loads leaves every descriptor its id. -/
theorem loadsStart_id (s : State) (n : Nat) : ∀ q ∈ (s.loadsStart n).hif.outstanding, ∃ r ∈ s.hif.outstanding, r.id = q.id := by
  intro q hq
  obtain ⟨r, hr, e⟩ := (Calm.loadsStart (Calm.refl noTol s)).opens rfl q hq
  exact ⟨r, hr, (Prod.mk.inj e).1⟩

/-- A descriptor that has ended before held loads start is not outstanding after it. -/
theorem completeId_loadsStart_gone (s : State) (id n : Nat) (st : Status) (r : Word) (x : Half) : ∀ q ∈ ((s.completeId id st r x).loadsStart n).hif.outstanding, q.id ≠ id := by
  intro q hq
  obtain ⟨p, hp, e⟩ := loadsStart_id _ _ q hq
  rw [completeId_outstanding, List.mem_filter, decide_eq_true_eq] at hp
  rw [← e]
  exact hp.2

/-- A fade that ends turns the banks of its slot (R47). -/
theorem fadeFinish_slot (s : State) (n : Nat) : (s.fadeFinish n).slot n = { s.slot n with fade := none, activeB := (s.slot n).activeB != (s.slot n).fade.isSome } := by
  unfold State.fadeFinish
  split
  · rename_i f hf
    rw [slot_of ((kept_loadsStart _ n).slots rfl), slot_of ((kept_completeId _ _ _ _ _).slots rfl), State.slot_updSlot, hf]
    simp
  · rename_i hf
    have hb : ((s.slot n).activeB != (s.slot n).fade.isSome) = (s.slot n).activeB := by rw [hf]; exact Bool.xor_false _
    rw [hb]
    exact hf ▸ rfl

theorem fadeFinish_slot_ne (s : State) (n j : Nat) (h : j ≠ n) : (s.fadeFinish n).slot j = s.slot j := by
  unfold State.fadeFinish
  split
  · rw [slot_of ((kept_loadsStart _ n).slots rfl), slot_of ((kept_completeId _ _ _ _ _).slots rfl), State.slot_updSlot_ne _ _ _ _ (Ne.symm h)]
  · rfl

theorem kept_fadeFinish (s : State) (n : Nat) : Kept { complPart with slots := true } s (s.fadeFinish n) := Kept.fadeFinish (Kept.refl _ s)

/-- The swap of a fade that ends is no longer outstanding. -/
theorem fadeFinish_gone (s : State) (n : Nat) (f : Fade) (hf : (s.slot n).fade = some f) : ∀ q ∈ (s.fadeFinish n).hif.outstanding, q.id ≠ f.id := by
  unfold State.fadeFinish
  rw [hf]
  exact completeId_loadsStart_gone _ _ _ _ _ _

end Sys2Proof.Proofs
end

section
/-! SUPPORT. Slot states at their boundaries (R36 to R38, R144). -/

namespace Sys2Proof.Proofs

open Sys2Proof.Machine Sys2Proof.Laws

/-- At the enable boundary the slot takes its state and the waiting descriptors end (R36). -/
theorem slotEnableBoundary_due (s : State) (n : Nat) (hc : (s.slot n).st = .configured) (hb : s.onSmp chainBlk = true) (hd : ∃ p ∈ s.hif.outstanding, isSlotEnable n p = true ∧ p.acc < s.now) :
    s.slotEnableBoundary n = (s.updSlot n (fun x => { x with st := if (s.chain (n / 8)).st = .rxOn then .settling else .held, settleAt := s.now })).completeAll (fun p => isSlotEnable n p && decide (p.acc < s.now)) .ok := by
  obtain ⟨p, hp, he, ha⟩ := hd
  have hne : (!(s.pends (fun p => isSlotEnable n p && decide (p.acc < s.now))).isEmpty) = true := by
    simp only [State.pends, Bool.not_eq_true', List.isEmpty_eq_false_iff_exists_mem, List.mem_filter]
    exact ⟨p, hp, by simp [he, ha]⟩
  unfold State.slotEnableBoundary
  dsimp only
  rw [if_pos ⟨hc, hb, hne⟩]
  simp only [decide_eq_true_eq]
  rfl

theorem slotEnableBoundary_spec (s : State) (n : Nat) (hc : (s.slot n).st = .configured) (hb : s.onSmp chainBlk = true) (hd : ∃ p ∈ s.hif.outstanding, isSlotEnable n p = true ∧ p.acc < s.now) :
    (s.slotEnableBoundary n).slot n = { s.slot n with st := if (s.chain (n / 8)).st = .rxOn then .settling else .held, settleAt := s.now } ∧
    (∀ j, j ≠ n → (s.slotEnableBoundary n).slot j = s.slot j) ∧
    (∀ q ∈ (s.slotEnableBoundary n).hif.outstanding, isSlotEnable n q = true → s.now ≤ q.acc) ∧
    (s.slotEnableBoundary n).flt = s.flt ∧ ({ s with slots := (s.slotEnableBoundary n).slots } : State).alarmed (s.slotEnableBoundary n) := by
  rw [slotEnableBoundary_due s n hc hb hd]
  have k := kept_completeAll (s.updSlot n (fun x => { x with st := if (s.chain (n / 8)).st = .rxOn then .settling else .held, settleAt := s.now })) (fun p => isSlotEnable n p && decide (p.acc < s.now)) .ok
  refine ⟨?_, ?_, ?_, k.flt rfl, alarmed_slots _ (State.alarmed_completeAll (State.alarmed_updSlot (State.alarmed_refl _)))⟩
  · rw [slot_of (k.slots rfl), State.slot_updSlot]
  · intro j hj
    rw [slot_of (k.slots rfl), State.slot_updSlot_ne _ _ _ _ (Ne.symm hj)]
  · intro q hq he
    have := completeAll_none _ _ _ q hq
    simpa [he] using this

theorem slotEnableBoundary_idle (s : State) (n : Nat) (h : (s.slot n).st ≠ .configured ∨ s.onSmp chainBlk = false ∨ (∀ p ∈ s.hif.outstanding, isSlotEnable n p = true → s.now ≤ p.acc)) :
    s.slotEnableBoundary n = s := by
  unfold State.slotEnableBoundary
  dsimp only
  rw [if_neg]
  rintro ⟨hc, hb, hd⟩
  rcases h with h | h | h
  · exact h hc
  · exact absurd (hb.symm.trans h) (by decide)
  · simp only [State.pends, Bool.not_eq_true', List.isEmpty_eq_false_iff_exists_mem, List.mem_filter, Bool.and_eq_true, decide_eq_true_eq] at hd
    obtain ⟨p, hp, he, ha⟩ := hd
    exact absurd (h p hp he) (by omega)

/-- A settled slot is ACTIVE, and its gain starts 20 dB below the lower of TARGET and CAP (R38, R144). -/
theorem slotSettled_spec (s : State) (n : Nat) (hs : (s.slot n).st = .settling) (hb : s.onSmp (slotBlk (s.slot n).rate) = true) (hd : (s.slot n).settledBy s.now = true) :
    let t := s.slotSettled n
    t = { s with slots := t.slots, gcl := t.gcl } ∧ t.slot n = { s.slot n with st := .active } ∧ (∀ j, j ≠ n → t.slot j = s.slot j) ∧
    (∀ j, j ≠ n → (t.gain j).acc = (s.gain j).acc ∧ (t.gain j).applied = (s.gain j).applied) ∧
    (t.gain n).target = (if (s.gain n).agcEn then (s.gain n).host else (s.gain n).target) ∧ (t.gain n).host = (s.gain n).host ∧
    (t.gain n).acc = max (-120000) ((min (t.gain n).target (t.gain n).cap - 400) * 100) ∧ (t.gain n).applied = max (-1200) (min (t.gain n).target (t.gain n).cap - 400) := by
  obtain ⟨u, hu⟩ : ∃ u : State, u = (s.updSlot n (fun x => { x with st := .active })).capAll := ⟨_, rfl⟩
  have ku : Kept { slots := true, gcl := true } s u := by rw [hu]; exact Kept.capAll (Kept.updSlot (Kept.refl _ s))
  have sl : u.slots = (s.updSlot n (fun x => { x with st := .active })).slots := by
    rw [hu]; exact (Kept.capAll (p := { gcl := true }) (Kept.refl _ _)).slots rfl
  have hg : ∀ j, ∃ cl c ng gc mu co st cd, u.gain j = recap (s.gain j) cl c ng gc mu co st cd := by
    intro j; rw [hu]; exact capAll_gain _ j
  have e : s.slotSettled n = u.gainStart n := by
    unfold State.slotSettled; dsimp only; rw [if_pos ⟨hs, hb, hd⟩, hu]
  rw [e]
  have kt : Kept { slots := true, gcl := true } s (u.gainStart n) := Kept.gainStart ku
  obtain ⟨_, _, _, _, _, _, _, _, hn⟩ := hg n
  have gn := State.gain_updGain u n (fun g =>
    let t := if g.agcEn then g.host else g.target
    { g with target := t, acc := max (-120000) ((min t g.cap - 400) * 100), applied := max (-1200) (min t g.cap - 400), used := false, quietLeft := g.quietLeft })
  refine ⟨kt.frame, ?_, ?_, ?_, ?_⟩
  · exact (slot_of (b := u.gainStart n) sl n).trans (State.slot_updSlot _ _ _)
  · intro j hj
    exact (slot_of (b := u.gainStart n) sl j).trans (State.slot_updSlot_ne _ _ _ _ (Ne.symm hj))
  · intro j hj
    obtain ⟨_, _, _, _, _, _, _, _, hj'⟩ := hg j
    have : (u.gainStart n).gain j = u.gain j := State.gain_updGain_ne _ _ _ _ (Ne.symm hj)
    rw [this, hj']
    exact ⟨rfl, rfl⟩
  · have : (u.gainStart n).gain n = _ := gn
    rw [this, hn]
    exact ⟨rfl, rfl, rfl, rfl⟩

theorem slotSettled_idle (s : State) (n : Nat) (h : (s.slot n).st ≠ .settling ∨ s.onSmp (slotBlk (s.slot n).rate) = false ∨ (s.slot n).settledBy s.now = false) : s.slotSettled n = s := by
  unfold State.slotSettled
  dsimp only
  rw [if_neg]
  rintro ⟨hs, hb, hd⟩
  rcases h with h | h | h
  · exact h hs
  · exact absurd (hb.symm.trans h) (by decide)
  · exact absurd (hd.symm.trans h) (by decide)

theorem updPend_slot (s : State) (id : Nat) (f : Pend → Pend) (j : Nat) : (s.updPend id f).slot j = s.slot j := rfl

/-- A change of the outstanding descriptor with an id shows on every one with that id. -/
theorem updPend_at (s : State) (id : Nat) (f : Pend → Pend) : ∀ q ∈ (s.updPend id f).hif.outstanding, q.id = id → ∃ p ∈ s.hif.outstanding, q = f p := by
  intro q hq hid
  obtain ⟨p, hp, rfl⟩ := List.mem_map.mp hq
  by_cases h : p.id = id
  · exact ⟨p, hp, if_pos h⟩
  · rw [if_neg h] at hid
    exact absurd hid h

/-- The ramp-down begins (R37). -/
theorem slotDisableBoundary_due (s : State) (n : Nat) (p : Pend) (hr : (s.slot n).ramp = none) (hp : (s.pends (fun p => isSlotDisable n p && decide (p.acc < s.now))).head? = some p) (hb : s.onSmp chainBlk = true)
    (hs : (s.slot n).st = .settling ∨ (s.slot n).st = .active ∨ (s.slot n).st = .held) :
    s.slotDisableBoundary n = (s.updSlot n (fun x => { x with ramp := some (s.now, p.id) })).updPend p.id (fun q => { q with committed := true }) := by
  unfold State.slotDisableBoundary
  dsimp only
  rw [hr, hp]
  dsimp only
  rw [hb, decide_eq_true hs]
  rfl

theorem slotDisableBoundary_idle (s : State) (n : Nat) (h : (s.slot n).ramp ≠ none ∨ s.pends (fun p => isSlotDisable n p && decide (p.acc < s.now)) = [] ∨ s.onSmp chainBlk = false ∨ (s.slot n).st = .free ∨ (s.slot n).st = .configured) :
    s.slotDisableBoundary n = s := by
  unfold State.slotDisableBoundary
  dsimp only
  split
  · rename_i p hr hp
    rw [if_neg]
    simp only [Bool.and_eq_true, decide_eq_true_eq, not_and]
    intro hb hs
    rcases h with h | h | h | h | h
    · exact h hr
    · rw [h] at hp; exact absurd hp (by simp)
    · exact absurd (hb.symm.trans h) (by decide)
    · rw [h] at hs; exact absurd hs (by decide)
    · rw [h] at hs; exact absurd hs (by decide)
  · rfl

/-- The end of a ramp-down (R37). -/
theorem slotDisableEnd_due (s : State) (n : Nat) (r : Nat × Nat) (hr : (s.slot n).ramp = some r) (ht : r.1 + chainBlk ≤ s.now) :
    s.slotDisableEnd n = ((s.fadeFinish n).updSlot n (fun x => { x with st := .configured, ramp := none })).completeAll (isSlotDisable n) .ok := by
  unfold State.slotDisableEnd
  rw [hr]
  dsimp only
  rw [if_pos ht]

theorem slotDisableEnd_spec (s : State) (n : Nat) (r : Nat × Nat) (hr : (s.slot n).ramp = some r) (ht : r.1 + chainBlk ≤ s.now) :
    let t := s.slotDisableEnd n
    t.slot n = { s.slot n with st := .configured, ramp := none, fade := none, activeB := (s.slot n).activeB != (s.slot n).fade.isSome } ∧ (∀ j, j ≠ n → t.slot j = s.slot j) ∧
    (∀ q ∈ t.hif.outstanding, isSlotDisable n q = false) ∧ t.flt = s.flt ∧ ({ s with slots := t.slots } : State).alarmed t := by
  rw [slotDisableEnd_due s n r hr ht]
  obtain ⟨u, hu⟩ : ∃ u : State, u = (s.fadeFinish n).updSlot n (fun x => { x with st := .configured, ramp := none }) := ⟨_, rfl⟩
  rw [← hu]
  have k := kept_completeAll u (isSlotDisable n) .ok
  refine ⟨?_, ?_, completeAll_none _ _ _, ?_, ?_⟩
  · rw [slot_of (k.slots rfl), hu, State.slot_updSlot, fadeFinish_slot]
  · intro j hj
    rw [slot_of (k.slots rfl), hu, State.slot_updSlot_ne _ _ _ _ (Ne.symm hj), fadeFinish_slot_ne _ _ _ hj]
  · rw [k.flt rfl, hu]
    exact (kept_fadeFinish s n).flt rfl
  · exact alarmed_slots _ (State.alarmed_completeAll (by rw [hu]; exact State.alarmed_updSlot (State.alarmed_fadeFinish (State.alarmed_refl _))))

theorem slotDisableEnd_idle (s : State) (n : Nat) (h : ∀ r ∈ (s.slot n).ramp, s.now < r.1 + chainBlk) : s.slotDisableEnd n = s := by
  unfold State.slotDisableEnd
  split
  · rename_i t i hr
    rw [if_neg (Nat.not_le.mpr (h (t, i) hr))]
  · rfl

end Sys2Proof.Proofs
end

section
namespace Sys2Proof.Proofs

open Sys2Proof.Machine Sys2Proof.Laws

/-! The rows of the slot events on a device out of reset. -/

variable {s : State} {n : Fin 256}

theorem exec_slotEnableBoundary (hr : s.runs) : exec (.slotEnableBoundary n) s = .next (s.slotEnableBoundary n.val) := exec_live (f := fun x => x.slotEnableBoundary n.val) rfl hr
theorem exec_slotSettled (hr : s.runs) : exec (.slotSettled n) s = .next (s.slotSettled n.val) := exec_live (f := fun x => x.slotSettled n.val) rfl hr
theorem exec_slotDisableBoundary (hr : s.runs) : exec (.slotDisableBoundary n) s = .next (s.slotDisableBoundary n.val) := exec_live (f := fun x => x.slotDisableBoundary n.val) rfl hr
theorem exec_slotDisableEnd (hr : s.runs) : exec (.slotDisableEnd n) s = .next (s.slotDisableEnd n.val) := exec_live (f := fun x => x.slotDisableEnd n.val) rfl hr

/-- Settles O29: each slot event is taken at its instant, and does nothing at any other. -/
theorem slotStateSteps : Obligations.SlotStateSteps := by
  refine ⟨?_, ?_, ?_, ?_, ?_, ?_, ?_, ?_⟩
  · intro s n hr hc hb hd
    exact ⟨_, exec_slotEnableBoundary hr, slotEnableBoundary_spec s n hc hb hd⟩
  · intro s n hr h
    rw [exec_slotEnableBoundary hr, slotEnableBoundary_idle s n h]
  · intro s n hr hs hb hd
    exact ⟨_, exec_slotSettled hr, slotSettled_spec s n hs hb hd⟩
  · intro s n hr h
    rw [exec_slotSettled hr, slotSettled_idle s n h]
  · intro s n p hr hm hp hb hs
    refine ⟨_, exec_slotDisableBoundary hr, ?_⟩
    rw [slotDisableBoundary_due s n p hm hp hb hs]
    refine ⟨rfl, (updPend_slot _ _ _ _).trans (State.slot_updSlot _ _ _), fun j hj => (updPend_slot _ _ _ _).trans (State.slot_updSlot_ne _ _ _ _ (Ne.symm hj)), ?_⟩
    intro q hq hid
    obtain ⟨_, _, rfl⟩ := updPend_at _ _ _ q hq hid
    rfl
  · intro s n hr h
    rw [exec_slotDisableBoundary hr, slotDisableBoundary_idle s n h]
  · intro s n r hr hm ht
    exact ⟨_, exec_slotDisableEnd hr, slotDisableEnd_spec s n r hm ht⟩
  · intro s n hr h
    rw [exec_slotDisableEnd hr, slotDisableEnd_idle s n h]

end Sys2Proof.Proofs
end

section
/-! SUPPORT. Coefficient loads, swaps, fades and lookup tables at their instants (R25, R46 to R52, R159). -/

namespace Sys2Proof.Proofs

open Sys2Proof.Machine Sys2Proof.Laws

theorem complete_gone (s : State) (p : Pend) (st : Status) (r : Word) (x : Half) : ∀ q ∈ (s.complete p st r x).hif.outstanding, q.id ≠ p.id := by
  intro q hq
  rw [complete_outstanding, List.mem_filter, decide_eq_true_eq] at hq
  exact hq.2

theorem memWritten_poisoned (s : State) (a : Nat) : ∀ x ∈ (s.memWritten a).flt.poisoned, x / 2 ^ 16 ≠ a / 2 ^ 16 := by
  intro x hx
  exact of_decide_eq_true (List.mem_filter.mp hx).2

theorem memWritten_lut (s : State) (a j : Nat) : (s.memWritten a).lut j = s.lut j := rfl

/-! ## Loads (R46) -/

/-- A load that has begun ends in the inactive bank. -/
theorem slotCoefWritten_due (s : State) (n : Nat) (p : Pend) (sl : Byte) (tag nb : Half) (a : Word64) (ws : List Word) (hp : (s.pends (fun p => isCoefLoad n p && decide (p.aux = 1))).head? = some p)
    (hd : p.desc = .slotCoefLoad sl tag nb a (.words ws)) :
    s.slotCoefWritten n = ((s.updSlot n (fun x => if x.activeB then { x with bankA := ws, tagA := tag } else { x with bankB := ws, tagB := tag })).memWritten (testBase 10 n (if (s.slot n).activeB then 0 else 1))).complete p .ok 0 0 := by
  unfold State.slotCoefWritten
  rw [hp]
  dsimp only
  rw [hd]

theorem slotCoefWritten_spec (s : State) (n : Nat) (p : Pend) (sl : Byte) (tag nb : Half) (a : Word64) (ws : List Word) (hp : (s.pends (fun p => isCoefLoad n p && decide (p.aux = 1))).head? = some p)
    (hd : p.desc = .slotCoefLoad sl tag nb a (.words ws)) (t : State) (ht : t = s.slotCoefWritten n) :
    t.slot n = (if (s.slot n).activeB then { s.slot n with bankA := ws, tagA := tag } else { s.slot n with bankB := ws, tagB := tag }) ∧ (∀ j, j ≠ n → t.slot j = s.slot j) ∧
    (∀ x ∈ t.flt.poisoned, x / 2 ^ 16 ≠ testBase 10 n (if (s.slot n).activeB then 0 else 1) / 2 ^ 16) ∧ (∀ q ∈ t.hif.outstanding, q.id ≠ p.id) ∧
    ({ s with slots := t.slots, flt := { s.flt with poisoned := t.flt.poisoned, flipped := t.flt.flipped } } : State).alarmed t := by
  rw [slotCoefWritten_due s n p sl tag nb a ws hp hd] at ht
  obtain ⟨v, hv⟩ : ∃ v : State, v = s.updSlot n (fun x => if x.activeB then { x with bankA := ws, tagA := tag } else { x with bankB := ws, tagB := tag }) := ⟨_, rfl⟩
  obtain ⟨u, hu⟩ : ∃ u : State, u = v.memWritten (testBase 10 n (if (s.slot n).activeB then 0 else 1)) := ⟨_, rfl⟩
  rw [← hv, ← hu] at ht
  have k : Kept complPart u t := ht ▸ kept_complete u p .ok 0 0
  have hut : u.slots = v.slots := by rw [hu]; rfl
  refine ⟨?_, ?_, ?_, ht ▸ complete_gone u p .ok 0 0, ?_⟩
  · rw [slot_of (k.slots rfl), slot_of hut, hv, State.slot_updSlot]
  · intro j hj
    rw [slot_of (k.slots rfl), slot_of hut, hv, State.slot_updSlot_ne _ _ _ _ (Ne.symm hj)]
  · rw [k.flt rfl, hu]
    exact memWritten_poisoned _ _
  · have hal : u.alarmed t := by rw [ht]; exact State.alarmed_complete (State.alarmed_refl _)
    have e : ({ s with slots := u.slots, flt := { s.flt with poisoned := t.flt.poisoned, flipped := t.flt.flipped } } : State) = u := by
      rw [k.flt rfl, hu, hv]; rfl
    exact alarmed_slots (s := { s with slots := u.slots, flt := { s.flt with poisoned := t.flt.poisoned, flipped := t.flt.flipped } }) t.slots (e ▸ hal)

theorem slotCoefWritten_idle (s : State) (n : Nat) (h : s.pends (fun p => isCoefLoad n p && decide (p.aux = 1)) = []) : s.slotCoefWritten n = s := by
  unfold State.slotCoefWritten
  rw [h]
  rfl

/-! ## Swaps (R47, R200) -/

/-- A swap whose boundary has come commits: a hard swap turns the banks at once, another begins its cross-fade. -/
theorem slotSwapBegin_due (s : State) (n : Nat) (p : Pend) (sl xf : Byte) (hp : (s.waitingSwaps n).head? = some p) (hd : p.desc = .slotBankSwap sl xf) (hs : (s.slot n).st ≠ .free) (hf : (s.slot n).fade = none)
    (ha : p.acc < s.now) (hb : s.onSmp (slotBlk (s.slot n).rate) = true) (hl : s.pends (fun q => isCoefLoad n q && decide (q.id < p.id)) = []) :
    s.slotSwapBegin n =
      if xfadeLen xf.toNat = 0 ∨ (s.slot n).st = .configured ∨ s.slotMuted n = true then
        (((s.updPend p.id (fun q => { q with committed := true, aux := 0 })).updSlot n (fun x => { x with activeB := !x.activeB })).completeId p.id .ok 0 0).loadsStart n
      else (s.updPend p.id (fun q => { q with committed := true, aux := 0 })).updSlot n (fun x => { x with fade := some { id := p.id, len := xfadeLen xf.toNat, start := s.now, paused := if s.onNow (n / 8) then none else some s.now, lost := 0 } }) := by
  unfold State.slotSwapBegin
  dsimp only
  rw [hp]
  dsimp only
  rw [if_pos (by rw [decide_eq_true ⟨hs, hf, ha⟩, hb, hl]; rfl), hd]

theorem slotSwapBegin_spec (s : State) (n : Nat) (p : Pend) (sl xf : Byte) (hp : (s.waitingSwaps n).head? = some p) (hd : p.desc = .slotBankSwap sl xf) (hs : (s.slot n).st ≠ .free) (hf : (s.slot n).fade = none)
    (ha : p.acc < s.now) (hb : s.onSmp (slotBlk (s.slot n).rate) = true) (hl : s.pends (fun q => isCoefLoad n q && decide (q.id < p.id)) = []) (t : State) (ht : t = s.slotSwapBegin n) :
    (∀ j, j ≠ n → t.slot j = s.slot j) ∧ t.flt = s.flt ∧ ({ s with slots := t.slots } : State).alarmed t ∧
    (xfadeLen xf.toNat = 0 ∨ (s.slot n).st = .configured ∨ s.slotMuted n = true → t.slot n = { s.slot n with activeB := !(s.slot n).activeB } ∧ ∀ q ∈ t.hif.outstanding, q.id ≠ p.id) ∧
    (xfadeLen xf.toNat ≠ 0 → (s.slot n).st ≠ .configured → s.slotMuted n = false → (∀ q ∈ t.hif.outstanding, q.id = p.id → q.committed = true) ∧
      t.slot n = { s.slot n with fade := some { id := p.id, len := xfadeLen xf.toNat, start := s.now, paused := if s.onNow (n / 8) then none else some s.now, lost := 0 } }) := by
  rw [slotSwapBegin_due s n p sl xf hp hd hs hf ha hb hl] at ht
  have hal : s.alarmed (s.updPend p.id (fun q => { q with committed := true, aux := 0 })) := State.alarmed_updPend (State.alarmed_refl _)
  by_cases hh : xfadeLen xf.toNat = 0 ∨ (s.slot n).st = .configured ∨ s.slotMuted n = true
  case pos =>
    rw [if_pos hh] at ht
    have sl : ∀ j, t.slot j = ((s.updPend p.id (fun q => { q with committed := true, aux := 0 })).updSlot n (fun x => { x with activeB := !x.activeB })).slot j := by
      intro j
      rw [ht, slot_of ((kept_loadsStart _ n).slots rfl), slot_of ((kept_completeId _ _ _ _ _).slots rfl)]
    refine ⟨fun j hj => ?_, ?_, ?_, fun _ => ⟨?_, ?_⟩, ?_⟩
    · rw [sl, State.slot_updSlot_ne _ _ _ _ (Ne.symm hj), updPend_slot]
    · rw [ht, (kept_loadsStart _ n).flt rfl, (kept_completeId _ _ _ _ _).flt rfl]
      rfl
    · rw [ht]
      exact alarmed_slots _ (State.alarmed_loadsStart (State.alarmed_completeId (State.alarmed_updSlot hal)))
    · rw [sl, State.slot_updSlot, updPend_slot]
    · rw [ht]
      exact completeId_loadsStart_gone _ _ _ _ _ _
    · intro h1 h2 h3
      rcases hh with h | h | h
      · exact absurd h h1
      · exact absurd h h2
      · exact absurd (h.symm.trans h3) (by decide)
  case neg =>
    rw [if_neg hh] at ht
    refine ⟨fun j hj => ?_, by rw [ht]; rfl, ?_, fun h => absurd h hh, fun _ _ _ => ⟨?_, ?_⟩⟩
    · rw [ht, State.slot_updSlot_ne _ _ _ _ (Ne.symm hj), updPend_slot]
    · rw [ht]
      exact alarmed_slots _ (State.alarmed_updSlot hal)
    · intro q hq hid
      rw [ht] at hq
      obtain ⟨_, _, rfl⟩ := updPend_at _ _ _ q hq hid
      rfl
    · rw [ht, State.slot_updSlot, updPend_slot]

theorem slotSwapBegin_idle (s : State) (n : Nat) (h : s.waitingSwaps n = [] ∨ (s.slot n).st = .free ∨ (s.slot n).fade ≠ none ∨ s.onSmp (slotBlk (s.slot n).rate) = false) : s.slotSwapBegin n = s := by
  unfold State.slotSwapBegin
  dsimp only
  split
  · rename_i p hp
    rw [if_neg]
    simp only [Bool.and_eq_true, decide_eq_true_eq]
    rintro ⟨⟨⟨hs, hf, _⟩, hb⟩, _⟩
    rcases h with h | h | h | h
    · rw [h] at hp; exact absurd hp (by simp)
    · exact hs h
    · exact h hf
    · exact absurd (hb.symm.trans h) (by decide)
  · rfl

/-! ## The end of a fade (R47, R52) -/

theorem slotFadeEnd_done (s : State) (n : Nat) (f : Fade) (hf : (s.slot n).fade = some f) (hp : f.paused = none) (hl : f.left (s.slot n).rate s.now = 0) : s.slotFadeEnd n = s.fadeFinish n := by
  unfold State.slotFadeEnd
  rw [hf]
  dsimp only
  rw [if_pos ⟨hp, hl⟩]

/-- The shortened end of R52. -/
theorem slotFadeEnd_short (s : State) (n : Nat) (f : Fade) (hf : (s.slot n).fade = some f) (hl : ¬ (f.paused = none ∧ f.left (s.slot n).rate s.now = 0)) (hs : s.fadeShort n f = true) :
    s.slotFadeEnd n = ((s.updSlot n (fun x => { x with shortCnt := satInc 0xFFFF x.shortCnt })).fadeFinish n).raise 10 6 (.slot n) := by
  unfold State.slotFadeEnd
  rw [hf]
  dsimp only
  rw [if_neg hl, if_pos hs]

theorem slotFadeEnd_idle (s : State) (n : Nat) (h : ∀ f ∈ (s.slot n).fade, ¬ (f.paused = none ∧ f.left (s.slot n).rate s.now = 0) ∧ s.fadeShort n f = false) : s.slotFadeEnd n = s := by
  unfold State.slotFadeEnd
  split
  · rename_i f hf
    obtain ⟨hl, hs⟩ := h f hf
    rw [if_neg hl, if_neg (by rw [hs]; decide)]
  · rfl

/-- What the end of a fade leaves. -/
theorem fadeFinish_spec (s : State) (n : Nat) (f : Fade) (hf : (s.slot n).fade = some f) :
    (s.fadeFinish n).slot n = { s.slot n with fade := none, activeB := !(s.slot n).activeB } ∧ (∀ j, j ≠ n → (s.fadeFinish n).slot j = s.slot j) ∧
    (∀ q ∈ (s.fadeFinish n).hif.outstanding, q.id ≠ f.id) ∧ (s.fadeFinish n).flt = s.flt ∧ s.alarmed (s.fadeFinish n) := by
  refine ⟨?_, fadeFinish_slot_ne s n, fadeFinish_gone s n f hf, (kept_fadeFinish s n).flt rfl, State.alarmed_fadeFinish (State.alarmed_refl _)⟩
  have hb : ((s.slot n).activeB != (s.slot n).fade.isSome) = !(s.slot n).activeB := by rw [hf]; exact Bool.xor_true _
  rw [fadeFinish_slot, hb]

/-! ## Lookup tables (R159) -/

/-- A run of writes to a table, each read with the default of its own index. -/
theorem get_foldl_set (t : Tab Half) (d v : Nat → Half) (o n i : Nat) :
    ((List.range n).foldl (fun t j => Tab.set t (d (o + j)) (o + j) (v j)) t).get (d i) i = if o ≤ i ∧ i < o + n then v (i - o) else t.get (d i) i := by
  induction n with
  | zero => rw [if_neg (by omega)]; rfl
  | succ n ih =>
    rw [List.range_succ, List.foldl_append]
    simp only [List.foldl_cons, List.foldl_nil]
    by_cases h : o + n = i
    · subst h
      rw [Tab.get_set_self, if_pos (by omega)]
      congr 1
      omega
    · rw [Tab.get_set_ne _ _ _ _ _ _ h, ih]
      exact if_congr (by omega) rfl rfl

/-- A filled bank reads as the list that filled it, the other bank as before. -/
theorem fill_entry (l : Lut) (b : Bool) (vs : List Int) (j : Nat) (hj : j < 64) :
    (l.fill b vs).entry b j = (half (vs.getD j 0)).toInt ∧ (l.fill b vs).entry (!b) j = l.entry (!b) j := by
  have h := get_foldl_set l.entries lutDefault (fun j => half (vs.getD j 0)) (64 * bit b) 64
  have other : ¬(64 * bit b ≤ 64 * bit (!b) + j ∧ 64 * bit (!b) + j < 64 * bit b + 64) := by
    cases b
    · show ¬(0 ≤ 64 + j ∧ 64 + j < 64)
      omega
    · show ¬(64 ≤ 0 + j ∧ 0 + j < 128)
      omega
  unfold Lut.entry Lut.fill
  dsimp only
  rw [h, h, if_pos (by omega), if_neg other, Nat.add_sub_cancel_left]
  exact ⟨rfl, rfl⟩

/-- A set whose load has ended: its inactive bank and that bank's tag are written. -/
def lutLoaded (l : Lut) (vs : List Int) (tag : Half) : Lut := if !l.activeB then { l.fill (!l.activeB) vs with tagB := tag } else { l.fill (!l.activeB) vs with tagA := tag }

theorem lutLoadEnd_due (s : State) (k : Nat) (p : Pend) (st : Byte) (tag : Half) (a : Word64) (ws : List Word) (hp : (s.pends (isLutLoad k)).head? = some p) (hd : p.desc = .gclLutLoad st tag a (.words ws)) :
    s.lutLoadEnd k = ((s.updLut k (fun _ => lutLoaded (s.lut k) (lutWords ws) tag)).memWritten (testBase 12 k (8 + bit (!(s.lut k).activeB)))).complete p .ok 0 0 := by
  unfold State.lutLoadEnd
  rw [hp]
  dsimp only
  rw [hd]
  rfl

theorem lutLoaded_entry (l : Lut) (vs : List Int) (tag : Half) (j : Nat) (hj : j < 64) :
    (lutLoaded l vs tag).entry (!l.activeB) j = (half (vs.getD j 0)).toInt ∧ (lutLoaded l vs tag).entry l.activeB j = l.entry l.activeB j := by
  have h := fill_entry l (!l.activeB) vs j hj
  rw [Bool.not_not] at h
  unfold lutLoaded
  split
  · exact h
  · exact h

theorem lutLoaded_tag (l : Lut) (vs : List Int) (tag : Half) :
    (lutLoaded l vs tag).activeB = l.activeB ∧ (if l.activeB then (lutLoaded l vs tag).tagA else (lutLoaded l vs tag).tagB) = tag := by
  obtain ⟨entries, tagA, tagB, b⟩ := l
  cases b
  · exact ⟨rfl, rfl⟩
  · exact ⟨rfl, rfl⟩

theorem lutLoadEnd_spec (s : State) (k : Nat) (p : Pend) (st : Byte) (tag : Half) (a : Word64) (ws : List Word) (hp : (s.pends (isLutLoad k)).head? = some p) (hd : p.desc = .gclLutLoad st tag a (.words ws)) :
    (s.lutLoadEnd k).lut k = lutLoaded (s.lut k) (lutWords ws) tag ∧ (∀ j, j ≠ k → (s.lutLoadEnd k).lut j = s.lut j) ∧ (∀ q ∈ (s.lutLoadEnd k).hif.outstanding, q.id ≠ p.id) := by
  rw [lutLoadEnd_due s k p st tag a ws hp hd]
  refine ⟨?_, fun j hj => ?_, complete_gone _ _ _ _ _⟩
  · rw [lut_of ((kept_complete _ _ _ _ _).luts rfl)]
    exact (memWritten_lut _ _ _).trans (State.lut_updLut _ _ _)
  · rw [lut_of ((kept_complete _ _ _ _ _).luts rfl)]
    exact (memWritten_lut _ _ _).trans (State.lut_updLut_ne _ _ _ _ (Ne.symm hj))

theorem lutLoadEnd_idle (s : State) (k : Nat) (h : s.pends (isLutLoad k) = []) : s.lutLoadEnd k = s := by
  unfold State.lutLoadEnd
  rw [h]
  rfl

/-! ## The rows of the bank events on a device out of reset -/

variable {s : State} {n : Fin 256}

theorem exec_slotCoefWritten (hr : s.runs) : exec (.slotCoefWritten n) s = .next (s.slotCoefWritten n.val) := exec_live (f := fun x => x.slotCoefWritten n.val) rfl hr
theorem exec_slotSwapBegin (hr : s.runs) : exec (.slotSwapBegin n) s = .next (s.slotSwapBegin n.val) := exec_live (f := fun x => x.slotSwapBegin n.val) rfl hr
theorem exec_slotFadeEnd (hr : s.runs) : exec (.slotFadeEnd n) s = .next (s.slotFadeEnd n.val) := exec_live (f := fun x => x.slotFadeEnd n.val) rfl hr
theorem exec_lutLoadEnd {k : Fin 16} (hr : s.runs) : exec (.lutLoadEnd k) s = .next (s.lutLoadEnd k.val) := exec_live (f := fun x => x.lutLoadEnd k.val) rfl hr
theorem exec_satSlot (hr : s.runs) : exec (.satSlot n) s = .next (s.satSlot n.val) := exec_live (f := fun x => x.satSlot n.val) rfl hr

/-- Settles O30: each bank event at its instant, by what it leaves; at any other instant it does nothing. -/
theorem banksAndFades : Obligations.BanksAndFades := by
  refine ⟨?_, ?_, ?_, ?_, ?_, ?_, ?_, ?_, ?_, ?_⟩
  · intro s n p sl tag nb a ws hr hp hd
    exact ⟨_, exec_slotCoefWritten hr, slotCoefWritten_spec s n p sl tag nb a ws hp hd _ rfl⟩
  · intro s n hr h
    rw [exec_slotCoefWritten hr, slotCoefWritten_idle s n h]
  · intro s n p sl xf hr hp hd hs hf ha hb hl
    exact ⟨_, exec_slotSwapBegin hr, slotSwapBegin_spec s n p sl xf hp hd hs hf ha hb hl _ rfl⟩
  · intro s n hr h
    rw [exec_slotSwapBegin hr, slotSwapBegin_idle s n h]
  · intro s n f hr hf hp hl
    obtain ⟨own, other, gone, flt, al⟩ := fadeFinish_spec s n f hf
    exact ⟨_, by rw [exec_slotFadeEnd hr, slotFadeEnd_done s n f hf hp hl], own, other, gone, flt, alarmed_slots _ al⟩
  · intro s n f hr hf hl hs
    have own := State.slot_updSlot s n (fun x => { x with shortCnt := satInc 0xFFFF x.shortCnt })
    obtain ⟨own', other, gone, flt, al⟩ := fadeFinish_spec (s.updSlot n (fun x => { x with shortCnt := satInc 0xFFFF x.shortCnt })) n f (by rw [own]; exact hf)
    refine ⟨_, by rw [exec_slotFadeEnd hr, slotFadeEnd_short s n f hf hl hs], State.raise_status _ _ _ _, ?_, fun j hj => ?_, gone, alarmed_slots _ (State.alarmed_trans (State.alarmed_updSlot (State.alarmed_refl _)) al)⟩
    · rw [own', own]
    · rw [other j hj, State.slot_updSlot_ne _ _ _ _ (Ne.symm hj)]
  · intro s n hr h
    rw [exec_slotFadeEnd hr, slotFadeEnd_idle s n h]
  · intro s k p st tag a ws hr hp hd
    obtain ⟨own, other, gone⟩ := lutLoadEnd_spec s k p st tag a ws hp hd
    obtain ⟨act, tg⟩ := lutLoaded_tag (s.lut k) (lutWords ws) tag
    refine ⟨_, exec_lutLoadEnd hr, fun j hj => ?_, ?_, ?_, other, gone⟩
    · rw [own]
      exact lutLoaded_entry _ _ _ j hj
    · rw [own, act]
    · rw [own]
      exact tg
  · intro s k hr h
    rw [exec_lutLoadEnd hr, lutLoadEnd_idle s k h]
  · intro s n hr
    exact ⟨_, exec_satSlot hr, State.raise_status _ _ _ _, State.updSlot_only s n _, State.slot_updSlot s n _⟩

end Sys2Proof.Proofs
end

section
/-! SUPPORT. Ring and slot descriptors at their acceptance (R34 to R39, R46, R47, R138, R141, R272, R277, R278). -/

namespace Sys2Proof.Proofs

open Sys2Proof.Machine Sys2Proof.Laws

/-! ## What is outstanding at an acceptance -/

/-- What is outstanding at an acceptance is the descriptor accepted and what was outstanding before. -/
theorem accepted_old (s : State) (h : DHdr) (d : Desc) : ∀ q ∈ (s.accepted h d).hif.outstanding, q.id ≠ s.hif.nextId → q ∈ s.hif.outstanding := by
  intro q hq hid
  rcases List.mem_append.mp hq with hq | hq
  · exact hq
  · rw [List.mem_singleton] at hq
    exact absurd (congrArg Pend.id hq) hid

theorem accepted_pends (s : State) (h : DHdr) (d : Desc) (f : Pend → Bool) : (s.accepted h d).pends f = s.pends f ++ [s.mkPend h d].filter f := List.filter_append ..

/-- No descriptor picked, none picked by a narrower choice. -/
theorem pends_nil_of_imp {s : State} {f g : Pend → Bool} (h : s.pends f = []) (hi : ∀ q, g q = true → f q = true) : s.pends g = [] := by
  unfold State.pends at h ⊢
  rw [List.filter_eq_nil_iff] at h ⊢
  exact fun q hq hg => h q hq (hi q hg)

/-- A fold whose every step keeps the ids and ends its own descriptor leaves none of the list outstanding. -/
theorem fold_gone (g : State → Pend → State) (hid : ∀ a x, ∀ q ∈ (g a x).hif.outstanding, ∃ r ∈ a.hif.outstanding, r.id = q.id) (hx : ∀ a x, ∀ q ∈ (g a x).hif.outstanding, q.id ≠ x.id) (l : List Pend) :
    ∀ u : State, (∀ q ∈ (l.foldl g u).hif.outstanding, ∃ r ∈ u.hif.outstanding, r.id = q.id) ∧ ∀ q ∈ (l.foldl g u).hif.outstanding, ∀ x ∈ l, q.id ≠ x.id := by
  induction l with
  | nil => exact fun u => ⟨fun q hq => ⟨q, hq, rfl⟩, fun _ _ _ h => nomatch h⟩
  | cons y l ih =>
    intro u
    obtain ⟨i1, i2⟩ := ih (g u y)
    refine ⟨fun q hq => ?_, fun q hq x hxl => ?_⟩
    · obtain ⟨r, hr, e⟩ := i1 q hq
      obtain ⟨r', hr', e'⟩ := hid u y r hr
      exact ⟨r', hr', e'.trans e⟩
    · rcases List.mem_cons.mp hxl with rfl | hxl
      · obtain ⟨r, hr, e⟩ := i1 q hq
        exact e ▸ hx u _ r hr
      · exact i2 q hq x hxl

/-! ## FENCE (R277) -/

theorem mem_fenceWaits (s : State) (r : Nat) (all : Byte) (id : Nat) : id ∈ s.fenceWaits r all ↔ ∃ q ∈ s.hif.outstanding, q.id = id ∧ (all = 1 ∨ (q.ring = r ∧ q.discard = false)) := by
  unfold State.fenceWaits
  simp only [List.mem_map, List.mem_filter, Bool.and_eq_true, Bool.or_eq_true, decide_eq_true_eq, Bool.not_eq_true']
  constructor
  · rintro ⟨q, ⟨hq, hr, hd⟩, e⟩
    refine ⟨q, hq, e, ?_⟩
    by_cases ha : all = 1
    · exact Or.inl ha
    · exact Or.inr ⟨hr.resolve_left ha, hd.resolve_right ha⟩
  · rintro ⟨q, hq, e, ha | ⟨hr, hd⟩⟩
    · exact ⟨q, ⟨hq, Or.inl ha, Or.inr ha⟩, e⟩
    · exact ⟨q, ⟨hq, Or.inr hr, Or.inl hd⟩, e⟩

theorem exec_fence {s : State} {h : DHdr} {all : Byte} (t : s.takes h (.fence all)) : exec (.fence h all) s = .next ((s.served h.ring.val).takeFence h all) := by
  rw [descriptor_exec (.fence h all) h (.fence all) s rfl t.runs, takes_fence t]

/-- A FENCE with nothing to wait for is accepted and completes. -/
theorem takeFence_clear (s : State) (h : DHdr) (all : Byte) (hw : ∀ q ∈ s.hif.outstanding, all ≠ 1 ∧ (q.ring ≠ h.ring.val ∨ q.discard = true)) :
    (s.served h.ring.val).takeFence h all = (s.accepted h (.fence all)).complete (s.mkPend h (.fence all)) .ok 0 0 := by
  have he : (s.fenceWaits h.ring.val all).isEmpty = true := by
    rw [List.isEmpty_iff, List.eq_nil_iff_forall_not_mem]
    intro id hid
    obtain ⟨q, hq, -, ha | ⟨hr, hd⟩⟩ := (mem_fenceWaits s _ all id).mp hid
    · exact (hw q hq).1 ha
    · rcases (hw q hq).2 with h1 | h1
      · exact h1 hr
      · exact absurd (h1.symm.trans hd) (by decide)
  unfold State.takeFence
  exact if_pos he

/-- Another waits at HEAD. -/
theorem takeFence_waits (s : State) (h : DHdr) (all : Byte) (hw : ∃ q ∈ s.hif.outstanding, all = 1 ∨ (q.ring = h.ring.val ∧ q.discard = false)) :
    (s.served h.ring.val).takeFence h all = (s.served h.ring.val).updRing h.ring.val (fun r => { r with fence := some { hdr := h, waits := s.fenceWaits h.ring.val all } }) := by
  obtain ⟨q, hq, hc⟩ := hw
  have hm := (mem_fenceWaits s h.ring.val all q.id).mpr ⟨q, hq, rfl, hc⟩
  unfold State.takeFence
  exact if_neg (fun he => absurd (List.isEmpty_iff.mp he ▸ hm) (List.not_mem_nil))

theorem canTake_fenced (s : State) (n : Nat) (w : FenceWait) : (s.updRing n (fun r => { r with fence := some w })).canTake n = false := by
  unfold State.canTake
  dsimp only
  rw [State.ring_updRing]
  simp

theorem exec_fenceAccept {s : State} {n : Fin 16} (hr : s.runs) : exec (.fenceAccept n) s = .next (s.fenceAccept n.val) := exec_live (f := fun x => x.fenceAccept n.val) rfl hr

theorem fenceAccept_waits (s : State) (n : Nat) (h : ∀ w ∈ (s.ring n).fence, s.takesDescs = false ∨ ∃ q ∈ s.hif.outstanding, q.id ∈ w.waits) : s.fenceAccept n = s := by
  unfold State.fenceAccept
  split
  · rfl
  · rename_i w hw
    refine if_pos ((h w hw).imp (fun h => by rw [h]; rfl) (fun ⟨q, hq, hi⟩ => ?_))
    exact List.any_eq_true.mpr ⟨q, hq, List.contains_iff_mem.mpr hi⟩

/-- A class that is not full refuses nothing that takes no time. -/
theorem timeRefuse_zero (s : State) (k : Cls) (h : s.classFull k = false) : s.timeRefuse k (some 0) = none := by
  have hb : beyondDeadline k (some 0) = false := by cases k <;> rfl
  unfold State.timeRefuse
  rw [h, hb]
  rfl

/-- A FENCE whose wait is over is accepted and completes. -/
theorem fenceAccept_clear (s : State) (n : Nat) (w : FenceWait) (hw : (s.ring n).fence = some w) (ht : s.takesDescs = true) (ho : ∀ q ∈ s.hif.outstanding, q.id ∉ w.waits) (hc : s.classFull w.hdr.cls = false) :
    s.fenceAccept n = (s.updRing n (fun r => { r with fence := none })).accept w.hdr (.fence 0) := by
  unfold State.fenceAccept
  rw [hw]
  dsimp only
  have hz : (s.updRing n (fun r => { r with fence := none })).timeRefuse w.hdr.cls (some 0) = none := timeRefuse_zero _ _ hc
  rw [if_neg, hz]
  rintro (h | h)
  · rw [ht] at h
    exact absurd h (by decide)
  · obtain ⟨q, hq, hi⟩ := List.any_eq_true.mp h
    exact ho q hq (List.contains_iff_mem.mp hi)

theorem fenceAccept_spec (s : State) (n : Fin 16) (w : FenceWait) (hw : (s.ring n.val).fence = some w) (hn : w.hdr.ring = n) (ht : s.takesDescs = true) (ho : ∀ q ∈ s.hif.outstanding, q.id ∉ w.waits) (hc : s.classFull w.hdr.cls = false) :
    ∃ (u : State) (p : Pend), s.fenceAccept n.val = u.complete p .ok 0 0 ∧
      p.id = s.hif.nextId ∧ p.ring = n.val ∧ p.tag = w.hdr.tag ∧ p.op = 2 ∧ p.index = (s.ring n.val).head ∧ p.notify = w.hdr.notify ∧ p.accDt = s.dtime ∧
      u = { s with hif := { s.hif with nextId := s.hif.nextId + 1, outstanding := s.hif.outstanding ++ [p], rings := u.hif.rings } } ∧ u.ring n.val = { s.ring n.val with head := (s.ring n.val).head + 1, fence := none } ∧ ∀ m, m ≠ n.val → u.ring m = s.ring m := by
  subst hn
  obtain ⟨v, hv⟩ : ∃ v : State, v = s.updRing w.hdr.ring.val (fun r => { r with fence := none }) := ⟨_, rfl⟩
  have own : v.ring w.hdr.ring.val = { s.ring w.hdr.ring.val with fence := none } := by rw [hv, State.ring_updRing]
  obtain ⟨p, hp⟩ : ∃ p : Pend, p = v.mkPend w.hdr (.fence 0) := ⟨_, rfl⟩
  obtain ⟨u, hu⟩ : ∃ u : State, u = { v.pass w.hdr.ring.val with hif := { (v.pass w.hdr.ring.val).hif with nextId := v.hif.nextId + 1, outstanding := v.hif.outstanding ++ [p] } } := ⟨_, rfl⟩
  have rings : ∀ m, u.ring m = (v.pass w.hdr.ring.val).ring m := fun m => by rw [hu]; rfl
  refine ⟨u, p, ?_, by rw [hp, hv]; rfl, by rw [hp]; rfl, by rw [hp]; rfl, by rw [hp]; rfl, ?_, by rw [hp]; rfl, by rw [hp, hv]; rfl, by rw [hu, hv]; rfl, ?_, fun m hm => ?_⟩
  · rw [fenceAccept_clear s _ w hw ht ho hc, ← hv, hu, hp]
    rfl
  · rw [hp]
    show (v.ring w.hdr.ring.val).head = _
    rw [own]
  · rw [rings]
    unfold State.pass
    rw [State.ring_updRing, own]
  · rw [rings]
    unfold State.pass
    rw [State.ring_updRing_ne _ _ _ _ (Ne.symm hm), hv, State.ring_updRing_ne _ _ _ _ (Ne.symm hm)]

/-! ## ABORT (R278) -/

theorem exec_abort {s : State} {h : DHdr} {r : Byte} {i : Half} (t : s.takes h (.abort r i)) : exec (.abort h r i) s = .next (startAbort (s.mkPend h (.abort r i)) r i (s.accepted h (.abort r i))) :=
  takes_exec (i := .abort h r i) t rfl (fun _ e => nomatch e)

/-- The opcodes whose abort ends the target and nothing else. -/
theorem abortPend_plain (s : State) (p : Pend) (h : opOf p.desc ∈ ([0x11, 0x12, 0x14, 0x21, 0x22, 0x32, 0x40, 0x62] : List Byte)) : s.abortPend p = s.complete p .aborted 0 0 := by
  unfold State.abortPend
  split
  case h_17 => rfl
  all_goals
    rename_i hd
    simp [hd, opOf] at h

/-- An ABORT whose target is gone, is the ABORT itself or is past its commit point comes too late. -/
theorem startAbort_late (p : Pend) (r : Byte) (i : Half) (s : State) (h : ∀ q, s.abortTarget r.toNat i = some q → s.pastCommit q = true ∨ q.id = p.id) :
    startAbort p r i s = s.complete p .abortTooLate (word (r.toNat % 16 * 65536 + i.toNat)) 0 := by
  unfold startAbort
  dsimp only
  split
  · rename_i q hq
    exact if_pos (h q hq).symm
  · rfl

/-- Another ends its target and completes. -/
theorem startAbort_target (p : Pend) (r : Byte) (i : Half) (s : State) (q : Pend) (hq : s.abortTarget r.toNat i = some q) (hid : q.id ≠ p.id) (hc : s.pastCommit q = false) :
    startAbort p r i s = (s.abortPend q).complete p .ok (word (r.toNat % 16 * 65536 + i.toNat)) 0 := by
  unfold startAbort
  rw [hq]
  dsimp only
  rw [if_neg]
  rintro (h | h)
  · exact hid h
  · exact absurd (h.symm.trans hc) (by decide)

/-! ## SLOT_DISABLE (R37) -/

theorem startSlotDisable_eq (p : Pend) (n : Nat) (s : State) : startSlotDisable p n s = if (s.slot n).st = .free ∨ (s.slot n).st = .configured then s.complete p .ok 0 0 else s := by
  unfold startSlotDisable
  cases (s.slot n).st with
  | free => exact (if_pos (Or.inl rfl)).symm
  | configured => exact (if_pos (Or.inr rfl)).symm
  | settling => rfl
  | active => rfl
  | held => rfl

/-! ## SLOT_CONFIG (R35) -/

/-- One descriptor of a CONFIGURED slot ends SUPERSEDED; a swap counts. -/
def supersedeOne (n : Nat) (a : State) (p : Pend) : State :=
  if isBankSwap n p then (a.complete p .superseded 0 0).updSlot n (fun x => { x with supCnt := satInc 0xFFFF x.supCnt }) else a.complete p .superseded 0 0

theorem supersedeOne_outstanding (n : Nat) (a : State) (p : Pend) : (supersedeOne n a p).hif.outstanding = a.hif.outstanding.filter (fun q => decide (q.id ≠ p.id)) := by
  rw [← complete_outstanding a p .superseded 0 0]
  unfold supersedeOne
  split
  · rfl
  · rfl

theorem supersedeOne_slot_ne (n m : Nat) (hm : m ≠ n) (a : State) (p : Pend) : (supersedeOne n a p).slot m = a.slot m := by
  have hk : (a.complete p .superseded 0 0).slot m = a.slot m := slot_of ((kept_complete _ _ _ _ _).slots rfl) m
  unfold supersedeOne
  split
  · exact (State.slot_updSlot_ne _ _ _ _ (Ne.symm hm)).trans hk
  · exact hk

/-- Only the slot's own count changes, and no load or swap of it stays outstanding. -/
theorem slotSupersede_spec (s : State) (n : Nat) : (∀ m, m ≠ n → (s.slotSupersede n).slot m = s.slot m) ∧
    ∀ q ∈ (s.slotSupersede n).hif.outstanding, q ∈ s.hif.outstanding ∧ isCoefLoad n q = false ∧ isBankSwap n q = false := by
  obtain ⟨f, hf, e⟩ : ∃ f : Pend → Bool, (∀ q, f q = false → isCoefLoad n q = false ∧ isBankSwap n q = false) ∧ s.slotSupersede n = (s.pends f).foldl (supersedeOne n) s := by
    refine ⟨_, fun q hq => ?_, rfl⟩
    simp only [Bool.or_eq_false_iff] at hq
    exact hq.1
  rw [e]
  refine ⟨fun m hm => ?_, fun q hq => ?_⟩
  · exact List.foldlRecOn (motive := fun a : State => a.slot m = s.slot m) _ _ rfl (fun a ha p _ => (supersedeOne_slot_ne n m hm a p).trans ha)
  · obtain ⟨h1, h2⟩ := completed_pends _ (supersedeOne_outstanding n) s s f rfl q hq
    exact ⟨h1, hf q h2⟩

/-- The slot that a SLOT_CONFIG with a bandwidth defines in place of slot c, in authorisation group g (R35). -/
def configSlot (c : Slot) (g : Option Nat) (pr rt dk : Byte) (ds bw : Half) (rx tx : Word) (pd : Half) : Slot :=
  { Slot.reset with
    satCnt := c.satCnt, supCnt := c.supCnt, shortCnt := c.shortCnt, group := g
    st := .configured, preset := pr.toNat, rate := rateIdx rt bw, bw := bw.toNat, rxfreq := rx.toInt, txfreq := tx.toInt, stream := decide (dk = 1), dest := ds, pdly := pd
    ntaps := ntapsOf pr.toNat (rateIdx rt bw) bw.toNat, bankA := Config.presetBank pr.toNat (ntapsOf pr.toNat (rateIdx rt bw) bw.toNat), bankB := Config.presetBank pr.toNat (ntapsOf pr.toNat (rateIdx rt bw) bw.toNat) }

/-- What a defined slot leaves to the margin task and the cascade: its caps are formed again and a report is due (R148, R390). -/
def configEnd (s : State) (n : Nat) (held : Bool) : State :=
  { (s.updGain n (fun g => { g with mcapValid := held, capm := -1200 })).capAll with jl := { (s.updGain n (fun g => { g with mcapValid := held, capm := -1200 })).capAll.jl with dirty := true } }

theorem configEnd_kept (s : State) (n : Nat) (held : Bool) : (configEnd s n held).hif = s.hif ∧ (configEnd s n held).slots = s.slots := by
  have k : Kept { gcl := true } s (s.updGain n (fun g => { g with mcapValid := held, capm := -1200 })).capAll := Kept.capAll (Kept.updGain (Kept.refl _ s))
  exact ⟨k.hif rfl, k.slots rfl⟩

/-- The state in which a SLOT_CONFIG acts: what a CONFIGURED slot had outstanding is superseded. -/
def configBase (s : State) (n : Nat) : State := if (s.slot n).st = .configured then s.slotSupersede n else s

theorem configBase_slot_ne (s : State) (n m : Nat) (hm : m ≠ n) : (configBase s n).slot m = s.slot m := by
  unfold configBase
  split
  · exact (slotSupersede_spec s n).1 m hm
  · rfl

theorem configBase_outstanding (s : State) (n : Nat) : ∀ q ∈ (configBase s n).hif.outstanding, q ∈ s.hif.outstanding ∧ ((s.slot n).st = .configured → isCoefLoad n q = false ∧ isBankSwap n q = false) := by
  intro q hq
  unfold configBase at hq
  split at hq
  · obtain ⟨h1, h2⟩ := (slotSupersede_spec s n).2 q hq
    exact ⟨h1, fun _ => h2⟩
  · rename_i hc
    exact ⟨hq, fun h => absurd h hc⟩

/-- With BW = 0 the slot is released, its counts kept. -/
theorem startSlotConfig_release (p : Pend) (n : Nat) (pr rt dk : Byte) (ds bw : Half) (rx tx : Word) (pd : Half) (s : State) (hb : bw = 0) :
    startSlotConfig p n pr rt dk ds bw rx tx pd s =
      (((configBase s n).updSlot n (fun _ => { Slot.reset with satCnt := ((configBase s n).slot n).satCnt, supCnt := ((configBase s n).slot n).supCnt, shortCnt := ((configBase s n).slot n).shortCnt })).capAll).complete p .ok 0 0 := by
  unfold startSlotConfig
  exact if_pos hb

/-- With a bandwidth the slot is defined. -/
theorem startSlotConfig_define (p : Pend) (n : Nat) (pr rt dk : Byte) (ds bw : Half) (rx tx : Word) (pd : Half) (s : State) (hb : bw ≠ 0) :
    ∃ (g : Option Nat) (held : Bool) (r : Word), startSlotConfig p n pr rt dk ds bw rx tx pd s =
      (configEnd ((configBase s n).updSlot n (fun _ => configSlot ((configBase s n).slot n) g pr rt dk ds bw rx tx pd)) n held).complete p .ok r 0 := by
  unfold startSlotConfig
  dsimp only
  rw [if_neg hb]
  by_cases hk : dk = 1
  case pos =>
    rw [if_pos hk]
    exact ⟨none, _, _, rfl⟩
  case neg =>
    rw [if_neg hk, State.updSlot_twice]
    exact ⟨_, _, _, rfl⟩

theorem kept_startSlotConfig (p : Pend) (n : Nat) (pr rt dk : Byte) (ds bw : Half) (rx tx : Word) (pd : Half) (s : State) :
    Kept { complPart with slots := true, gcl := true, jl := true } s (startSlotConfig p n pr rt dk ds bw rx tx pd s) := Kept.startSlotConfig (Kept.refl _ s)

theorem startSlotConfig_spec (p : Pend) (n : Nat) (pr rt dk : Byte) (ds bw : Half) (rx tx : Word) (pd : Half) (s t : State) (ht : t = startSlotConfig p n pr rt dk ds bw rx tx pd s) :
    (∀ m, m ≠ n → t.slot m = s.slot m) ∧
    (∀ q ∈ t.hif.outstanding, q.id ≠ p.id ∧ q ∈ s.hif.outstanding ∧ ((s.slot n).st = .configured → isCoefLoad n q = false ∧ isBankSwap n q = false)) ∧
    (bw = 0 → t.slot n = { Slot.reset with satCnt := (t.slot n).satCnt, supCnt := (t.slot n).supCnt, shortCnt := (t.slot n).shortCnt }) ∧
    (bw ≠ 0 → t.slot n = configSlot (t.slot n) (t.slot n).group pr rt dk ds bw rx tx pd) := by
  have fin : ∀ (u : State) (x : Slot) (r : Word), u.hif = (configBase s n).hif → u.slots = ((configBase s n).updSlot n (fun _ => x)).slots → t = u.complete p .ok r 0 →
      t.slot n = x ∧ (∀ m, m ≠ n → t.slot m = s.slot m) ∧
      ∀ q ∈ t.hif.outstanding, q.id ≠ p.id ∧ q ∈ s.hif.outstanding ∧ ((s.slot n).st = .configured → isCoefLoad n q = false ∧ isBankSwap n q = false) := by
    intro u x r hu hs e
    have sl : ∀ m, t.slot m = ((configBase s n).updSlot n (fun _ => x)).slot m := fun m => by rw [e, slot_of ((kept_complete _ _ _ _ _).slots rfl), slot_of hs]
    refine ⟨(sl n).trans (State.slot_updSlot _ _ _), fun m hm => (sl m).trans ((State.slot_updSlot_ne _ _ _ _ (Ne.symm hm)).trans (configBase_slot_ne s n m hm)), fun q hq => ?_⟩
    rw [e, complete_outstanding, List.mem_filter, decide_eq_true_eq, hu] at hq
    exact ⟨hq.2, configBase_outstanding s n q hq.1⟩
  by_cases hb : bw = 0
  case pos =>
    rw [startSlotConfig_release p n pr rt dk ds bw rx tx pd s hb] at ht
    have k : ∀ v : State, Kept { gcl := true } v v.capAll := fun v => Kept.capAll (Kept.refl _ v)
    obtain ⟨v, hv⟩ : ∃ v : State, v = (configBase s n).updSlot n (fun _ => { Slot.reset with satCnt := ((configBase s n).slot n).satCnt, supCnt := ((configBase s n).slot n).supCnt, shortCnt := ((configBase s n).slot n).shortCnt }) := ⟨_, rfl⟩
    rw [← hv] at ht
    obtain ⟨own, other, out⟩ := fin v.capAll _ 0 (((k v).hif rfl).trans (by rw [hv]; rfl)) (((k v).slots rfl).trans (by rw [hv])) ht
    exact ⟨other, out, fun _ => by rw [own], fun h => absurd hb h⟩
  case neg =>
    obtain ⟨g, held, r, e⟩ := startSlotConfig_define p n pr rt dk ds bw rx tx pd s hb
    obtain ⟨kh, ks⟩ := configEnd_kept ((configBase s n).updSlot n (fun _ => configSlot ((configBase s n).slot n) g pr rt dk ds bw rx tx pd)) n held
    obtain ⟨own, other, out⟩ := fin _ _ r kh ks (ht.trans e)
    exact ⟨other, out, fun h => absurd h hb, fun _ => by rw [own]; rfl⟩

/-! ## SLOT_GAIN_SET (R138, R139, R141) -/

/-- An earlier ramp of the slot ends SUPERSEDED and counts. -/
def supersedeGain (n : Nat) (a : State) (q : Pend) : State := (a.complete q .superseded 0 0).updGain n (fun g => { g with supCnt := satInc 0xFFFF g.supCnt })

theorem supersedeGain_outstanding (n : Nat) (a : State) (p : Pend) : (supersedeGain n a p).hif.outstanding = a.hif.outstanding.filter (fun q => decide (q.id ≠ p.id)) := complete_outstanding a p .superseded 0 0

theorem supersedeGain_gain (n : Nat) (a : State) (p : Pend) (m : Nat) : (supersedeGain n a p).gain m = if n = m then { a.gain m with supCnt := satInc 0xFFFF (a.gain m).supCnt } else a.gain m := by
  have hk : ∀ m, (a.complete p .superseded 0 0).gain m = a.gain m := gain_of ((kept_complete _ _ _ _ _).gcl rfl)
  unfold supersedeGain
  rw [gain_updGain_at, hk, hk]
  split
  · rename_i h
    rw [h]
  · rfl

/-- The state in which a SLOT_GAIN_SET is taken: HOST, and TARGET where no loop is enabled, are set, and the earlier ramps have ended. -/
def gainSetBase (p : Pend) (n : Nat) (code : Int) (s : State) : State :=
  (((s.pends (isGainSet n)).filter (fun q => decide (q.id ≠ p.id))).foldl (supersedeGain n) s).updGain n (fun g => { g with host := code, target := if g.agcEn then g.target else code })

theorem gainSetBase_gain (p : Pend) (n : Nat) (code : Int) (s : State) :
    (∃ k, (gainSetBase p n code s).gain n = { s.gain n with host := code, target := if (s.gain n).agcEn then (s.gain n).target else code, supCnt := k }) ∧ ∀ m, m ≠ n → (gainSetBase p n code s).gain m = s.gain m := by
  have own : ∀ l : List Pend, ∃ k, (l.foldl (supersedeGain n) s).gain n = { s.gain n with supCnt := k } := by
    intro l
    refine List.foldlRecOn (motive := fun a : State => ∃ k, a.gain n = { s.gain n with supCnt := k }) l _ ⟨_, rfl⟩ (fun a ha p _ => ?_)
    obtain ⟨k, hk⟩ := ha
    exact ⟨_, by rw [supersedeGain_gain, if_pos rfl, hk]⟩
  have other : ∀ (l : List Pend) m, m ≠ n → (l.foldl (supersedeGain n) s).gain m = s.gain m := fun l m hm =>
    List.foldlRecOn (motive := fun a : State => a.gain m = s.gain m) l _ rfl (fun a ha p _ => by rw [supersedeGain_gain, if_neg (Ne.symm hm)]; exact ha)
  unfold gainSetBase
  refine ⟨?_, fun m hm => ?_⟩
  · obtain ⟨k, hk⟩ := own ((s.pends (isGainSet n)).filter (fun q => decide (q.id ≠ p.id)))
    exact ⟨k, by rw [State.gain_updGain, hk]⟩
  · rw [State.gain_updGain_ne _ _ _ _ (Ne.symm hm), other _ _ hm]

theorem gainSetBase_outstanding (p : Pend) (n : Nat) (code : Int) (s : State) : ∀ q ∈ (gainSetBase p n code s).hif.outstanding, isGainSet n q = true → q.id = p.id := by
  intro q hq hg
  obtain ⟨h1, h2⟩ := (completed_fold _ (supersedeGain_outstanding n) _ s q).mp hq
  by_contra hid
  exact h2 q (List.mem_filter.mpr ⟨List.mem_filter.mpr ⟨h1, hg⟩, decide_eq_true hid⟩) rfl

/-- A gain set on an ACTIVE slot outside WINTER ends where its condition holds; any other ends at once. -/
theorem startSlotGainSet_ends (p : Pend) (n : Nat) (code : Int) (s : State) :
    ((s.slot n).st = .active ∧ s.slotMuted n = false ∧ startSlotGainSet p n code s = (gainSetBase p n code s).gainSetCheck n) ∨ ∃ st r x, startSlotGainSet p n code s = (gainSetBase p n code s).complete p st r x := by
  unfold startSlotGainSet
  dsimp only
  split
  · rename_i ha
    split
    · exact Or.inr ⟨_, _, _, rfl⟩
    · rename_i hm
      exact Or.inl ⟨ha, Bool.eq_false_iff.mpr hm, rfl⟩
  · exact Or.inr ⟨_, _, _, rfl⟩

theorem kept_startSlotGainSet (p : Pend) (n : Nat) (code : Int) (s : State) : Kept { complPart with gcl := true } s (startSlotGainSet p n code s) := Kept.startSlotGainSet (Kept.refl _ s)

theorem startSlotGainSet_spec (p : Pend) (n : Nat) (code : Int) (s t : State) (ht : t = startSlotGainSet p n code s) :
    t.gain n = { s.gain n with host := code, target := if (s.gain n).agcEn then (s.gain n).target else code, supCnt := (t.gain n).supCnt } ∧ (∀ m, m ≠ n → t.gain m = s.gain m) ∧
    (∀ q ∈ t.hif.outstanding, isGainSet n q = true → q.id = p.id) ∧ ((s.slot n).st ≠ .active ∨ s.slotMuted n = true → ∀ q ∈ t.hif.outstanding, isGainSet n q = false) := by
  obtain ⟨⟨k, own⟩, other⟩ := gainSetBase_gain p n code s
  have out := gainSetBase_outstanding p n code s
  have gains : t.gcl = (gainSetBase p n code s).gcl → t.gain n = { s.gain n with host := code, target := if (s.gain n).agcEn then (s.gain n).target else code, supCnt := (t.gain n).supCnt } ∧ ∀ m, m ≠ n → t.gain m = s.gain m := by
    intro hg
    exact ⟨by rw [gain_of hg, own], fun m hm => (gain_of hg m).trans (other m hm)⟩
  rcases startSlotGainSet_ends p n code s with ⟨ha, hm, e⟩ | ⟨st, r, x, e⟩
  · rw [e] at ht
    have kc : Kept complPart (gainSetBase p n code s) ((gainSetBase p n code s).gainSetCheck n) := Kept.gainSetCheck (Kept.refl _ _)
    obtain ⟨g1, g2⟩ := gains (by rw [ht]; exact kc.gcl rfl)
    refine ⟨g1, g2, fun q hq hg => out q ((gainSetCheck_out _ n).1 q (ht ▸ hq)) hg, fun h => ?_⟩
    rcases h with h | h
    · exact absurd ha h
    · exact absurd (h.symm.trans hm) (by decide)
  · rw [e] at ht
    obtain ⟨g1, g2⟩ := gains (by rw [ht]; exact (kept_complete _ _ _ _ _).gcl rfl)
    have hq' : ∀ q ∈ t.hif.outstanding, q ∈ (gainSetBase p n code s).hif.outstanding ∧ q.id ≠ p.id := by
      intro q hq
      rwa [ht, complete_outstanding, List.mem_filter, decide_eq_true_eq] at hq
    refine ⟨g1, g2, fun q hq hg => out q (hq' q hq).1 hg, fun _ q hq => ?_⟩
    exact Bool.eq_false_iff.mpr (fun hg => (hq' q hq).2 (out q (hq' q hq).1 hg))

/-! ## SLOT_COEF_LOAD and SLOT_BANK_SWAP (R46, R47, R49, R50) -/

/-- Held loads where only one is held: it begins where no earlier swap is outstanding. -/
theorem loadsStart_one (s : State) (n : Nat) (p : Pend) (h : s.pends (fun p => isCoefLoad n p && decide (p.aux = 0)) = [p]) :
    s.loadsStart n = if s.pends (fun q => isBankSwap n q && decide (q.id < p.id)) = [] then s.updPend p.id (fun q => { q with aux := 1, start := s.now }) else s := by
  unfold State.loadsStart
  rw [h, List.foldl_cons, List.foldl_nil]
  exact if_congr List.isEmpty_iff rfl rfl

/-- A load accepted with none before it is the only one held. -/
theorem accepted_coefLoad_held (s : State) (h : DHdr) (sl : Byte) (tag nb : Half) (addr : Word64) (data : HostData) (hc : s.pends (isCoefLoad sl.toNat) = []) :
    (s.accepted h (.slotCoefLoad sl tag nb addr data)).pends (fun p => isCoefLoad sl.toNat p && decide (p.aux = 0)) = [s.mkPend h (.slotCoefLoad sl tag nb addr data)] := by
  rw [accepted_pends, pends_nil_of_imp hc (fun q hq => (Bool.and_eq_true_iff.mp hq).1), List.nil_append]
  have hp : (fun p => isCoefLoad sl.toNat p && decide (p.aux = 0)) (s.mkPend h (.slotCoefLoad sl tag nb addr data)) = true := by
    show (decide (sl.toNat = sl.toNat) && decide (0 = 0)) = true
    rw [decide_eq_true rfl]
    rfl
  exact List.filter_cons_of_pos hp

/-- A load is not a swap. -/
theorem accepted_coefLoad_swaps (s : State) (h : DHdr) (sl : Byte) (tag nb : Half) (addr : Word64) (data : HostData) (n k : Nat) :
    (s.accepted h (.slotCoefLoad sl tag nb addr data)).pends (fun q => isBankSwap n q && decide (q.id < k)) = s.pends (fun q => isBankSwap n q && decide (q.id < k)) := by
  rw [accepted_pends]
  exact List.append_nil _

/-- A queued swap is superseded and counts, and what it held goes on. -/
def supersedeSwap (n : Nat) (a : State) (q : Pend) : State := ((a.complete q .superseded 0 0).updSlot n (fun x => { x with supCnt := satInc 0xFFFF x.supCnt })).loadsStart n

theorem supersedeSwap_slot (n : Nat) (a : State) (q : Pend) (m : Nat) : ∃ k, (supersedeSwap n a q).slot m = { a.slot m with supCnt := k } ∧ (m ≠ n → k = (a.slot m).supCnt) := by
  have hk : ∀ m, (a.complete q .superseded 0 0).slot m = a.slot m := slot_of ((kept_complete _ _ _ _ _).slots rfl)
  unfold supersedeSwap
  rw [slot_of ((kept_loadsStart _ _).slots rfl), slot_updSlot_at, hk, hk]
  by_cases h : n = m
  · subst h
    exact ⟨_, if_pos rfl, fun h => absurd rfl h⟩
  · exact ⟨_, if_neg h, fun _ => rfl⟩

theorem supersedeSwap_id (n : Nat) (a : State) (x : Pend) : ∀ q ∈ (supersedeSwap n a x).hif.outstanding, ∃ r ∈ a.hif.outstanding, r.id = q.id := by
  intro q hq
  obtain ⟨r, hr, e⟩ := loadsStart_id _ _ q hq
  rw [State.updSlot_hif, complete_outstanding, List.mem_filter] at hr
  exact ⟨r, hr.1, e⟩

theorem supersedeSwap_gone (n : Nat) (a : State) (x : Pend) : ∀ q ∈ (supersedeSwap n a x).hif.outstanding, q.id ≠ x.id := by
  intro q hq
  obtain ⟨r, hr, e⟩ := loadsStart_id _ _ q hq
  exact e ▸ complete_gone a x .superseded 0 0 r hr

/-- What is outstanding without one descriptor, as a swap sees the others at its acceptance. -/
def without (s : State) (id : Nat) : State := { s with hif := { s.hif with outstanding := s.hif.outstanding.filter (fun q => decide (q.id ≠ id)) } }

theorem kept_startSlotBankSwap (p : Pend) (n : Nat) (s : State) : Kept { complPart with slots := true } s (startSlotBankSwap p n s) := Kept.startSlotBankSwap (Kept.refl _ s)

/-- Without the descriptor accepted, what is outstanding at its acceptance is none where none was before. -/
theorem without_accepted_pends {s : State} {f : Pend → Bool} (h : DHdr) (d : Desc) (hf : s.pends f = []) : (without (s.accepted h d) s.hif.nextId).pends f = [] := by
  unfold State.pends at hf ⊢
  rw [List.filter_eq_nil_iff] at hf ⊢
  intro q hq
  obtain ⟨hm, hid⟩ := List.mem_filter.mp hq
  exact hf q (accepted_old s h d q hm (of_decide_eq_true hid))

/-- A swap with no fade, swap or load before it is not queued. -/
theorem swapQueues_accepted (s : State) (h : DHdr) (d : Desc) (n : Nat) (hf : (s.slot n).fade = none) (hw : s.waitingSwaps n = []) (hl : s.pends (isCoefLoad n) = []) :
    (without (s.accepted h d) s.hif.nextId).swapQueues n = false := by
  unfold State.swapQueues State.waitingSwaps at *
  rw [without_accepted_pends h d hw, without_accepted_pends h d hl, show ((without (s.accepted h d) s.hif.nextId).slot n).fade = none from hf]
  rfl

theorem startSlotBankSwap_alone (p : Pend) (n : Nat) (s : State) (h : (without s p.id).swapQueues n = false) : startSlotBankSwap p n s = s :=
  if_neg (Bool.eq_false_iff.mp h)

theorem startSlotBankSwap_queued (p : Pend) (n : Nat) (s : State) (h : (s.slot n).fade ≠ none) :
    startSlotBankSwap p n s = (((s.waitingSwaps n).filter (fun q => decide (q.aux = 1 ∧ q.id ≠ p.id))).foldl (supersedeSwap n) s).updPend p.id (fun q => { q with aux := 1 }) := by
  have hq : (without s p.id).swapQueues n = true := by
    unfold State.swapQueues
    rw [decide_eq_true (show ((without s p.id).slot n).fade ≠ none from h)]
    rfl
  exact if_pos hq

theorem startSlotBankSwap_spec (p : Pend) (n : Nat) (s t : State) (h : (s.slot n).fade ≠ none) (ht : t = startSlotBankSwap p n s) :
    (∀ q ∈ t.hif.outstanding, q.id = p.id → q.aux = 1) ∧ (∀ r ∈ s.waitingSwaps n, r.aux = 1 → r.id ≠ p.id → ∀ q ∈ t.hif.outstanding, q.id ≠ r.id) ∧
    (∀ m, t.slot m = { s.slot m with supCnt := (t.slot m).supCnt }) ∧ ∀ m, m ≠ n → t.slot m = s.slot m := by
  rw [startSlotBankSwap_queued p n s h] at ht
  obtain ⟨u, hu⟩ : ∃ u : State, u = ((s.waitingSwaps n).filter (fun q => decide (q.aux = 1 ∧ q.id ≠ p.id))).foldl (supersedeSwap n) s := ⟨_, rfl⟩
  rw [← hu] at ht
  have sl : ∀ m, ∃ k, u.slot m = { s.slot m with supCnt := k } ∧ (m ≠ n → k = (s.slot m).supCnt) := by
    intro m
    rw [hu]
    refine List.foldlRecOn (motive := fun a : State => ∃ k, a.slot m = { s.slot m with supCnt := k } ∧ (m ≠ n → k = (s.slot m).supCnt)) _ _ ⟨_, rfl, fun _ => rfl⟩ (fun a ha q _ => ?_)
    obtain ⟨k, e, hk⟩ := ha
    obtain ⟨k', e', hk'⟩ := supersedeSwap_slot n a q m
    refine ⟨k', by rw [e', e], fun hm => (hk' hm).trans ?_⟩
    rw [e]
    exact hk hm
  rw [ht]
  refine ⟨fun q hq hid => ?_, fun r hr ha hid q hq => ?_, fun m => ?_, fun m hm => ?_⟩
  · obtain ⟨_, _, rfl⟩ := updPend_at _ _ _ q hq hid
    rfl
  · obtain ⟨x, hx, e⟩ := List.mem_map.mp hq
    have hxr : x.id ≠ r.id := by
      rw [hu] at hx
      exact (fold_gone _ (supersedeSwap_id n) (supersedeSwap_gone n) _ s).2 x hx r (List.mem_filter.mpr ⟨hr, decide_eq_true ⟨ha, hid⟩⟩)
    have hqx : q.id = x.id := by
      rw [← e]
      split
      · rfl
      · rfl
    rw [hqx]
    exact hxr
  · obtain ⟨k, e, _⟩ := sl m
    rw [updPend_slot, e]
  · obtain ⟨k, e, hk⟩ := sl m
    rw [updPend_slot, e, hk hm]

/-- Settles O36: every row is the start of its descriptor on the state at its acceptance. -/
theorem ringAndSlotDescriptors : Obligations.RingAndSlotDescriptors := by
  refine ⟨?_, ?_, ?_, ?_, ?_, ?_, ?_, ?_, ?_, ?_, ?_⟩
  · intro s h t
    exact takes_exec (i := .nop h) t rfl (fun _ e => nomatch e)
  · intro s h all t
    refine ⟨fun hw => ?_, fun hw => ?_⟩
    · rw [exec_fence t, takeFence_clear s h all hw]
    · exact ⟨{ hdr := h, waits := s.fenceWaits h.ring.val all }, _, (exec_fence t).trans (congrArg _ (takeFence_waits s h all hw)), rfl, mem_fenceWaits s _ all, rfl, canTake_fenced _ _ _⟩
  · intro s n hr hw
    rw [exec_fenceAccept hr, fenceAccept_waits s n hw]
  · intro s n w hr hw hn ht ho hc
    obtain ⟨u, p, e, fields⟩ := fenceAccept_spec s n w hw hn ht ho hc
    exact ⟨u, p, (exec_fenceAccept hr).trans (congrArg _ e), fields⟩
  · intro s h r i A p t hA hp
    subst hA hp
    rw [exec_abort t]
    refine ⟨fun q hq hc => ?_, fun hn => ?_, fun q hq hid hc hop => ?_, fun q hq hid hc => ?_⟩
    · rw [startAbort_late _ _ _ _ (fun q' hq' => by rw [← Option.some.inj (hq.symm.trans hq')]; exact hc)]
    · rw [startAbort_late _ _ _ _ (fun q' hq' => nomatch hn.symm.trans hq')]
    · rw [startAbort_target _ _ _ _ q hq hid hc, abortPend_plain _ q hop]
    · rw [startAbort_target _ _ _ _ q hq hid hc]
  · intro s h sl pr rt dk ds bw rx tx pd t
    have e := takes_exec (i := .slotConfig h sl pr rt dk ds bw rx tx pd) t rfl (fun _ e => nomatch e)
    obtain ⟨other, out, rel, dfn⟩ := startSlotConfig_spec (s.mkPend h (.slotConfig sl pr rt dk ds bw rx tx pd)) sl.toNat pr rt dk ds bw rx tx pd (s.accepted h (.slotConfig sl pr rt dk ds bw rx tx pd)) _ rfl
    have k := kept_startSlotConfig (s.mkPend h (.slotConfig sl pr rt dk ds bw rx tx pd)) sl.toNat pr rt dk ds bw rx tx pd (s.accepted h (.slotConfig sl pr rt dk ds bw rx tx pd))
    refine ⟨_, e, other, fun q hq => ?_, k.rfe rfl, k.cx rfl, k.flt rfl, k.prot rfl, rel, fun hb k nt hk hnt => ?_⟩
    · obtain ⟨hid, hm, hc⟩ := out q hq
      exact ⟨accepted_old s h _ q hm hid, hc⟩
    · subst hk hnt
      exact dfn hb
  · intro s h sl t
    exact takes_exec (i := .slotEnable h sl) t rfl (fun _ e => nomatch e)
  · intro s h sl t
    exact (takes_exec (i := .slotDisable h sl) t rfl (fun _ e => nomatch e)).trans (congrArg _ (startSlotDisable_eq _ _ _))
  · intro s h sl g t
    have e := takes_exec (i := .slotGainSet h sl g) t rfl (fun _ e => nomatch e)
    obtain ⟨own, other, out, idle⟩ := startSlotGainSet_spec (s.mkPend h (.slotGainSet sl g)) sl.toNat (gainCode g) (s.accepted h (.slotGainSet sl g)) _ rfl
    have k := kept_startSlotGainSet (s.mkPend h (.slotGainSet sl g)) sl.toNat (gainCode g) (s.accepted h (.slotGainSet sl g))
    exact ⟨_, e, own, other, out, idle, k.slots rfl, k.rfe rfl, k.cx rfl, k.prot rfl, k.flt rfl⟩
  · intro s h sl tag nb addr data A t hA hc
    subst hA
    have e : exec (.slotCoefLoad h sl tag nb addr data) s = .next ((s.accepted h (.slotCoefLoad sl tag nb addr data)).loadsStart sl.toNat) :=
      takes_exec (i := .slotCoefLoad h sl tag nb addr data) t rfl (fun _ e => nomatch e)
    rw [e, loadsStart_one _ _ _ (accepted_coefLoad_held s h sl tag nb addr data hc), accepted_coefLoad_swaps]
    refine ⟨fun hs => ?_, fun ⟨q, hq, hid⟩ => ?_⟩
    · rw [if_pos (pends_nil_of_imp hs (fun q hq => (Bool.and_eq_true_iff.mp hq).1))]
      rfl
    · rw [if_neg]
      obtain ⟨hm, hb⟩ := List.mem_filter.mp hq
      exact List.ne_nil_of_mem (List.mem_filter.mpr ⟨hm, Bool.and_eq_true_iff.mpr ⟨hb, decide_eq_true hid⟩⟩)
  · intro s h sl x t
    have e := takes_exec (i := .slotBankSwap h sl x) t rfl (fun _ e => nomatch e)
    refine ⟨fun hf hw hl => ?_, fun hf => ?_⟩
    · exact e.trans (congrArg _ (startSlotBankSwap_alone _ _ _ (swapQueues_accepted s h _ _ hf hw hl)))
    · obtain ⟨marked, gone, own, other⟩ := startSlotBankSwap_spec (s.mkPend h (.slotBankSwap sl x)) sl.toNat (s.accepted h (.slotBankSwap sl x)) _ hf rfl
      have k := kept_startSlotBankSwap (s.mkPend h (.slotBankSwap sl x)) sl.toNat (s.accepted h (.slotBankSwap sl x))
      refine ⟨_, e, marked, fun r hr => gone r ?_, own, other, k.rfe rfl, k.gcl rfl, k.cx rfl, k.prot rfl, k.flt rfl⟩
      unfold State.waitingSwaps at hr ⊢
      rw [accepted_pends]
      exact List.mem_append_left _ hr

end Sys2Proof.Proofs
end

section
/-! SUPPORT. Aerial mismatch, saturation and DC blocking at their events (R26 to R29, R45, R92 to R95). -/

namespace Sys2Proof.Proofs

open Sys2Proof.Machine Sys2Proof.Laws

/-! ## Windows (R92, R93) -/

/-- The conditions under which a window is seen: a whole window of an on-period in TX_ON, outside WINTER, with the forward power high enough. -/
def windowSeen (s : State) (c : Nat) (whole : Bool) (psum : Int) : Bool :=
  whole && decide ((s.chain (32 + c)).st = .txOn) && s.onNow (32 + c) && !s.txMuted c && decide (-4000 ≤ psum)

/-- A window of which only PSUM is kept. -/
def withPSum (s : State) (c : Nat) (psum : Int) : State := s.updTx c (fun x => { x with pSum := psum })

theorem vswrWindow_eq (s : State) (c : Nat) (whole : Bool) (psum prfl : Int) : s.vswrWindow c whole psum prfl =
    if windowSeen s c whole psum = false then withPSum s c psum
    else if prfl < -3500 then
      if (s.txc c).alertTh ≤ expOut (s.txc c).entry + psum - (s.txc c).coupling + 3500 then (withPSum s c psum).vswrCount c true (s.txc c).alertTh else withPSum s c psum
    else if 500 < prfl then withPSum s c psum
    else ((withPSum s c psum).updTx c (fun x => { x with rlValid := true, rl := expOut (s.txc c).entry + psum - (prfl + (s.txc c).coupling) })).vswrCount c
      (decide ((s.txc c).alertTh ≤ expOut (s.txc c).entry + psum - (prfl + (s.txc c).coupling))) (expOut (s.txc c).entry + psum - (prfl + (s.txc c).coupling)) := by
  unfold State.vswrWindow
  exact if_congr (by rw [Bool.not_eq_true']; rfl) rfl rfl

theorem windowSeen_true {s : State} {c : Nat} {psum : Int} (ht : (s.chain (32 + c)).st = .txOn) (ho : s.onNow (32 + c) = true) (hm : s.txMuted c = false) (hp : -4000 ≤ psum) : windowSeen s c true psum = true := by
  unfold windowSeen
  rw [decide_eq_true ht, ho, hm, decide_eq_true hp]
  rfl

/-- A window outside the conditions counts for nothing. -/
theorem vswrWindow_void (s : State) (c : Nat) (whole : Bool) (psum prfl : Int)
    (h : whole = false ∨ (s.chain (32 + c)).st ≠ .txOn ∨ s.onNow (32 + c) = false ∨ s.txMuted c = true ∨ psum < -4000 ∨ 500 < prfl) : s.vswrWindow c whole psum prfl = withPSum s c psum := by
  rw [vswrWindow_eq]
  by_cases hs : windowSeen s c whole psum = false
  · rw [if_pos hs]
  · rw [if_neg hs]
    have hs' : windowSeen s c whole psum = true := by rwa [Bool.not_eq_false] at hs
    simp only [windowSeen, Bool.and_eq_true, decide_eq_true_eq, Bool.not_eq_true'] at hs'
    obtain ⟨⟨⟨⟨hw, ht⟩, ho⟩, hm⟩, hp⟩ := hs'
    have h500 : 500 < prfl := by
      rcases h with h | h | h | h | h | h
      · exact absurd (hw.symm.trans h) (by decide)
      · exact absurd ht h
      · exact absurd (ho.symm.trans h) (by decide)
      · exact absurd (hm.symm.trans h) (by decide)
      · omega
      · exact h
    rw [if_neg (by omega), if_pos h500]

theorem withPSum_txc (s : State) (c : Nat) (psum : Int) : (withPSum s c psum).txc c = { s.txc c with pSum := psum } := State.txc_updTx _ _ _

theorem withPSum_txc_ne (s : State) (c : Nat) (psum : Int) (j : Nat) (h : j ≠ c) : (withPSum s c psum).txc j = s.txc j := State.txc_updTx_ne _ _ _ _ (Ne.symm h)

/-- A window whose reflected power is too low for a return loss counts as a good one, or for nothing. -/
theorem vswrWindow_low (s : State) (c : Nat) (psum prfl : Int) (ht : (s.chain (32 + c)).st = .txOn) (ho : s.onNow (32 + c) = true) (hm : s.txMuted c = false) (hp : -4000 ≤ psum) (hl : prfl < -3500) (t : State)
    (e : t = s.vswrWindow c true psum prfl) :
    (t.txc c).pSum = psum ∧ (t.txc c).rl = (s.txc c).rl ∧
    ((t.txc c).runGood = if (s.txc c).alertTh ≤ expOut (s.txc c).entry + psum - (s.txc c).coupling + 3500 then (s.txc c).runGood + 1 else (s.txc c).runGood) ∧ AlarmedRfe s t := by
  have a1 : AlarmedRfe s (withPSum s c psum) := (AlarmedRfe.refl s).updTx _ _
  rw [vswrWindow_eq, if_neg (by rw [windowSeen_true ht ho hm hp]; decide), if_pos hl] at e
  by_cases hg : (s.txc c).alertTh ≤ expOut (s.txc c).entry + psum - (s.txc c).coupling + 3500
  case pos =>
    rw [if_pos hg] at e
    obtain ⟨al, -, -, ⟨rs, rw', lo, w, q, l, own, -⟩, -⟩ := vswrCount_spec (withPSum s c psum) c true (s.txc c).alertTh _ _ _ _ _ rfl rfl rfl rfl rfl
    rw [← e] at al own
    rw [own, withPSum_txc]
    exact ⟨rfl, rfl, (if_pos hg).symm, a1.trans al⟩
  case neg =>
    rw [if_neg hg] at e
    rw [e, withPSum_txc]
    exact ⟨rfl, rfl, (if_neg hg).symm, a1⟩

/-- A valid window sets RL and the runs, and what follows from them (Table 3-11). -/
theorem vswrWindow_valid (s : State) (c : Nat) (psum prfl rl : Int) (ra rs rw rg lvl : Nat) (ht : (s.chain (32 + c)).st = .txOn) (ho : s.onNow (32 + c) = true) (hm : s.txMuted c = false) (hp : -4000 ≤ psum)
    (hlo : -3500 ≤ prfl) (hhi : prfl ≤ 500) (hrl : rl = expOut (s.txc c).entry + psum - (prfl + (s.txc c).coupling))
    (hra : ra = (if (s.txc c).alertTh ≤ rl then 0 else (s.txc c).runAlert + 1)) (hrs : rs = (if (s.txc c).alertTh ≤ rl ∨ (s.txc c).stepTh ≤ rl then 0 else (s.txc c).runStep + 1))
    (hrw : rw = (if (s.txc c).alertTh ≤ rl ∨ (s.txc c).winterTh ≤ rl then 0 else (s.txc c).runWinter + 1)) (hrg : rg = (if (s.txc c).alertTh ≤ rl then (s.txc c).runGood + 1 else 0))
    (hlv : lvl = (if 50 ≤ rg then 0 else max (s.txc c).level (if 2 ≤ rw then 3 else if 50 ≤ rs then 2 else if 50 ≤ ra then 1 else 0))) (t : State) (e : t = s.vswrWindow c true psum prfl) :
    (t.txc c).rl = rl ∧ (t.txc c).rlValid = true ∧ (t.txc c).runAlert = ra ∧ (t.txc c).runGood = rg ∧ (t.txc c).level = lvl ∧ (∀ j, j ≠ c → t.txc j = s.txc j) ∧ (∀ j, t.chain j = s.chain j) ∧
    ((s.txc c).level = 0 → 1 ≤ lvl → rw < 2 → (t.fsrc (16 * (6 + c / 8) + 6)).status = true) ∧
    (50 ≤ rs → (s.txc c).search = none → (t.txc c).lowered = some (PwrAsk.target (.delta (-12)) (s.txc c).base)) ∧
    (50 ≤ rs → (s.txc c).search = none → rw < 2 → (s.txc c).map.getLsbD 15 = true → (s.txc c).lastSearch = none → s.le.libRunning = true → ∃ q, (t.txc c).search = some q ∧ q.trial = 0 ∧ q.restore = (s.txc c).base) ∧
    (2 ≤ rw → (∃ u : State, t = (u.raise 13 8 (.tx c)).winterSet (objChain c) 4 0) ∧ (t.wobj (objChain c)).cause.getLsbD 4 = true ∧ (t.txc c).search = none) ∧ AlarmedRfe s t := by
  rw [vswrWindow_eq, if_neg (by rw [windowSeen_true ht ho hm hp]; decide), if_neg (by omega), if_neg (by omega), ← hrl] at e
  obtain ⟨s1, hs1⟩ : ∃ s1 : State, s1 = (withPSum s c psum).updTx c (fun x => { x with rlValid := true, rl := rl }) := ⟨_, rfl⟩
  rw [← hs1] at e
  have a1 : AlarmedRfe s s1 := by rw [hs1]; exact ((AlarmedRfe.refl s).updTx _ _).updTx _ _
  have own1 : s1.txc c = { s.txc c with pSum := psum, rlValid := true, rl := rl } := by rw [hs1, State.txc_updTx, withPSum_txc]
  have other1 : ∀ j, j ≠ c → s1.txc j = s.txc j := fun j hj => by rw [hs1, State.txc_updTx_ne _ _ _ _ (Ne.symm hj), withPSum_txc_ne _ _ _ _ hj]
  have chain1 : ∀ j, s1.chain j = s.chain j := fun j => by rw [hs1]; rfl
  have le1 : s1.le = s.le := by rw [hs1]; rfl
  obtain ⟨al, chains, other, ⟨rs', rw', lo, w, q, l, own, low, srch, stop⟩, alert, win⟩ := vswrCount_spec s1 c (decide ((s.txc c).alertTh ≤ rl)) rl ra rs rw rg lvl
    (by rw [own1, hra]; simp only [decide_eq_true_eq]) (by rw [own1, hrs]; simp only [decide_eq_true_eq]; rfl) (by rw [own1, hrw]; simp only [decide_eq_true_eq]; rfl) (by rw [own1, hrg]; simp only [decide_eq_true_eq]) (by rw [own1, hlv])
  rw [← e] at al chains other own alert win
  rw [own1] at own low srch alert
  rw [own]
  refine ⟨rfl, rfl, rfl, rfl, rfl, fun j hj => (other j hj).trans (other1 j hj), fun j => (chains j).trans (chain1 j), alert, low, fun h1 h2 h3 h4 h5 h6 => srch h1 h2 h3 h4 h5 (le1 ▸ h6), fun h => ⟨(win h).1, (win h).2, stop h⟩, a1.trans al⟩

/-! ## A tuner search (R94) -/

/-- No frame of the chain's search waits or runs on the bus of its tuner. -/
def trialSent (s : State) (c : Nat) : Prop :=
  (s.fecb ((s.txc c).tunBus c)).queue.any (fun f => decide (f.chain = c ∧ f.prio = 1)) = false ∧
  ∀ f w e, (s.fecb ((s.txc c).tunBus c)).cur = some (f, w, e) → ¬ (f.chain = c ∧ f.prio = 1)

/-- The word and the return loss kept after a trial. -/
def keptWord (q : Search) (better : Bool) : Nat := if better then trialWord q.trial q.coarse else q.bestWord
def keptRl (q : Search) (better : Bool) (rl : Int) : Int := if better then rl else q.bestRl.getD rl

/-- The search after a trial that is not its last: trials 0 to 15 choose the coarse setting that the later trials keep. -/
def nextTrial (q : Search) (better : Bool) (rl : Int) : Search :=
  { q with trial := q.trial + 1, bestWord := keptWord q better, bestRl := some (keptRl q better rl), coarse := if q.trial = 15 then keptWord q better / 16 else q.coarse }

theorem searchTrial_eq (s : State) (c : Nat) (rl : Int) (q : Search) (better : Bool) (hq : (s.txc c).search = some q) (hs : trialSent s c) (hb : better = (match q.bestRl with | some b => decide (b < rl) | none => true)) :
    s.searchTrial c rl =
      if q.trial < 31 then
        (s.updTx c (fun x => { x with search := some (nextTrial q better rl) })).searchFrame c (trialWord (q.trial + 1) (nextTrial q better rl).coarse)
      else if (s.txc c).alertTh ≤ keptRl q better rl then
        (((s.updTx c (fun x => { x with search := none })).searchFrame c (keptWord q better)).updTx c (fun x => { x with lowered := some q.restore })).devStep c (.index q.restore)
      else (s.updTx c (fun x => { x with search := none })).searchFrame c (keptWord q better) := by
  subst hb
  unfold State.searchTrial
  dsimp only
  rw [hq]
  dsimp only
  rw [if_neg]
  · rfl
  · rw [hs.1]
    split
    · rename_i f w e hc
      rw [decide_eq_false (hs.2 f w e hc)]
      decide
    · decide

theorem searchTrial_idle (s : State) (c : Nat) (rl : Int) (h : (s.txc c).search = none) : s.searchTrial c rl = s := by
  unfold State.searchTrial
  dsimp only
  rw [h]

/-- The frame of a search goes to the end of the queue of its tuner's bus. -/
theorem searchFrame_queue (s : State) (c w b : Nat) (hb : b = (s.txc c).tunBus c) : ∃ f, ((s.searchFrame c w).fecb b).queue = (s.fecb b).queue ++ [f] ∧ f.kind = .tuner (BitVec.ofNat 8 w) := by
  subst hb
  unfold State.searchFrame State.queueFrame
  dsimp only
  rw [State.fecb_updFecb]
  exact ⟨_, rfl, rfl⟩

theorem searchTrial_spec (s : State) (c : Nat) (rl : Int) (q : Search) (better : Bool) (hq : (s.txc c).search = some q) (hs : trialSent s c) (hb : better = (match q.bestRl with | some b => decide (b < rl) | none => true)) (t : State)
    (ht : t = s.searchTrial c rl) :
    t = { s with rfe := t.rfe } ∧ (∀ j, j ≠ c → t.txc j = s.txc j) ∧ (∀ j, t.chain j = s.chain j) ∧
    (q.trial < 31 → ∃ q', (t.txc c).search = some q' ∧ q'.trial = q.trial + 1 ∧ q'.bestWord = keptWord q better ∧ q'.bestRl = some (keptRl q better rl) ∧ q'.restore = q.restore ∧
      ∃ f, (t.fecb ((s.txc c).tunBus c)).queue = (s.fecb ((s.txc c).tunBus c)).queue ++ [f] ∧ f.kind = .tuner (BitVec.ofNat 8 (trialWord (q.trial + 1) q'.coarse))) ∧
    (31 ≤ q.trial → (t.txc c).search = none ∧ ((s.txc c).alertTh ≤ keptRl q better rl → (t.txc c).lowered = some q.restore) ∧
      (keptRl q better rl < (s.txc c).alertTh → (t.txc c).lowered = (s.txc c).lowered ∧
        ∃ f, (t.fecb ((s.txc c).tunBus c)).queue = (s.fecb ((s.txc c).tunBus c)).queue ++ [f] ∧ f.kind = .tuner (BitVec.ofNat 8 (keptWord q better)))) := by
  have frame : t = { s with rfe := t.rfe } := by
    have k : Kept { rfe := true } s t := ht ▸ Kept.searchTrial (Kept.refl _ s)
    exact k.frame
  rw [searchTrial_eq s c rl q better hq hs hb] at ht
  refine ⟨frame, ?_⟩
  by_cases h31 : q.trial < 31
  case pos =>
    rw [if_pos h31] at ht
    refine ⟨fun j hj => ?_, fun j => by rw [ht]; rfl, fun _ => ?_, fun h => absurd h31 (by omega)⟩
    · rw [ht, searchFrame_txc, State.txc_updTx_ne _ _ _ _ (Ne.symm hj)]
    · refine ⟨nextTrial q better rl, by rw [ht, searchFrame_txc, State.txc_updTx], rfl, rfl, rfl, rfl, ?_⟩
      rw [ht]
      exact searchFrame_queue _ c _ _ (by rw [State.txc_updTx]; rfl)
  case neg =>
    rw [if_neg h31] at ht
    obtain ⟨u, hu⟩ : ∃ u : State, u = (s.updTx c (fun x => { x with search := none })).searchFrame c (keptWord q better) := ⟨_, rfl⟩
    rw [← hu] at ht
    have own : u.txc c = { s.txc c with search := none } := by rw [hu, searchFrame_txc, State.txc_updTx]
    have other : ∀ j, j ≠ c → u.txc j = s.txc j := fun j hj => by rw [hu, searchFrame_txc, State.txc_updTx_ne _ _ _ _ (Ne.symm hj)]
    have chains : ∀ j, u.chain j = s.chain j := fun j => by rw [hu]; rfl
    by_cases ha : (s.txc c).alertTh ≤ keptRl q better rl
    case pos =>
      rw [if_pos ha] at ht
      have step := devStep_txc (u.updTx c (fun x => { x with lowered := some q.restore })) c (.index q.restore)
      obtain ⟨l, e, -⟩ := step c
      rw [← ht, State.txc_updTx, own] at e
      refine ⟨fun j hj => ?_, fun j => by rw [ht, devStep_chain]; exact chains j, fun h => absurd h h31, fun _ => ⟨by rw [e], fun _ => by rw [e], fun h => absurd ha (by omega)⟩⟩
      obtain ⟨l, e, hl⟩ := step j
      rw [← ht, hl hj, State.txc_updTx_ne _ _ _ _ (Ne.symm hj), other j hj] at e
      exact e
    case neg =>
      rw [if_neg ha] at ht
      subst ht
      refine ⟨other, chains, fun h => absurd h h31, fun _ => ⟨by rw [own], fun h => absurd h ha, fun _ => ⟨by rw [own], ?_⟩⟩⟩
      rw [hu]
      exact searchFrame_queue _ c _ _ (by rw [State.txc_updTx]; rfl)

/-! ## Saturation at a chain, and DC blocking (R26, R27, R29, R45) -/

/-- A change of one transmit chain, then a fault raised: an alarm besides that chain. -/
theorem satChain_spec (s : State) (c : Nat) :
    ((s.satChain c).txc c).satCnt = (if (s.txc c).satCnt = 0xFFFFFFFF then (s.txc c).satCnt else (s.txc c).satCnt + 1) ∧ ((s.satChain c).fsrc (16 * 10 + 5)).status = true ∧
    (∀ j, j ≠ c → (s.satChain c).txc j = s.txc j) ∧ ({ s with rfe := { s.rfe with tx := (s.satChain c).rfe.tx } } : State).alarmed (s.satChain c) := by
  obtain ⟨u, hu⟩ : ∃ u : State, u = s.updTx c (fun x => { x with satCnt := if x.satCnt = 0xFFFFFFFF then x.satCnt else x.satCnt + 1 }) := ⟨_, rfl⟩
  have e : s.satChain c = u.raise 10 5 (.tx c) := by rw [hu]; rfl
  have al : u.alarmed (u.raise 10 5 (.tx c)) := State.alarmed_raise (State.alarmed_refl _)
  have hr := State.alarmed_rfe al
  rw [e]
  refine ⟨?_, State.raise_status _ _ _ _, fun j hj => ?_, ?_⟩
  · rw [txc_of hr, hu, State.txc_updTx]
  · rw [txc_of hr, hu, State.txc_updTx_ne _ _ _ _ (Ne.symm hj)]
  · have eu : ({ s with rfe := { s.rfe with tx := (u.raise 10 5 (.tx c)).rfe.tx } } : State) = u := by rw [hr, hu]; rfl
    rw [eu]
    exact al

theorem dcbRange_idle (s : State) (r : Nat) (i q : Half) (h : s.dcbIdle r = true ∨ s.dcbFrozen r = true ∨ (s.chain r).dcHold = true) : s.dcbRange r i q = s := by
  unfold State.dcbRange
  refine if_pos ?_
  simp only [Bool.or_eq_true]
  exact or_assoc.mpr h

/-- An estimate that moves is held, and above 0.1 of full scale raises DCB_RANGE. -/
theorem dcbRange_moved (s : State) (r : Nat) (i q : Half) (hi : s.dcbIdle r = false) (hf : s.dcbFrozen r = false) (hh : (s.chain r).dcHold = false) :
    s.dcbRange r i q = if dcbAbove i q then (s.updDcb r (fun d => { d with estI := i, estQ := q, range := dcbAbove i q })).raise 10 7 (.rx r) else s.updDcb r (fun d => { d with estI := i, estQ := q, range := dcbAbove i q }) := by
  unfold State.dcbRange
  exact if_neg (by rw [hi, hf, hh]; decide)

theorem dcbRange_spec (s : State) (r : Nat) (i q : Half) (hi : s.dcbIdle r = false) (hf : s.dcbFrozen r = false) (hh : (s.chain r).dcHold = false) (t : State) (ht : t = s.dcbRange r i q) :
    t.dcb r = { s.dcb r with estI := i, estQ := q, range := dcbAbove i q } ∧ (∀ j, j ≠ r → t.dcb j = s.dcb j) ∧
    (dcbAbove i q = true → (t.fsrc (16 * 10 + 7)).status = true) ∧ (dcbAbove i q = false → t.flt = s.flt) ∧ ({ s with rfe := { s.rfe with dcb := t.rfe.dcb } } : State).alarmed t := by
  rw [dcbRange_moved s r i q hi hf hh] at ht
  obtain ⟨u, hu⟩ : ∃ u : State, u = s.updDcb r (fun d => { d with estI := i, estQ := q, range := dcbAbove i q }) := ⟨_, rfl⟩
  rw [← hu] at ht
  have al : u.alarmed t := by rw [ht]; exact State.alarmed_ite (State.alarmed_raise (State.alarmed_refl _)) (State.alarmed_refl _)
  have hr := State.alarmed_rfe al
  have hd : ∀ j, t.dcb j = u.dcb j := fun j => by unfold State.dcb; rw [hr]
  refine ⟨?_, fun j hj => ?_, fun ha => ?_, fun ha => ?_, ?_⟩
  · rw [hd, hu, State.dcb_updDcb]
  · rw [hd, hu, State.dcb_updDcb_ne _ _ _ _ (Ne.symm hj)]
  · rw [ht, if_pos ha]
    exact State.raise_status _ _ _ _
  · rw [ht, if_neg (by rw [ha]; decide), hu]
    rfl
  · have eu : ({ s with rfe := { s.rfe with dcb := t.rfe.dcb } } : State) = u := by rw [hr, hu]; rfl
    rw [eu]
    exact al

/-! ## The rows of these events on a device out of reset -/

variable {s : State} {c : Fin 32}

theorem exec_vswrWindow {whole : Bool} {psum prfl : Int} (hr : s.runs) : exec (.vswrWindow c whole psum prfl) s = .next (s.vswrWindow c.val whole psum prfl) := exec_live (f := fun x => x.vswrWindow c.val whole psum prfl) rfl hr
theorem exec_tunerSearchTrial {rl : Int} (hr : s.runs) : exec (.tunerSearchTrial c rl) s = .next (s.searchTrial c.val rl) := exec_live (f := fun x => x.searchTrial c.val rl) rfl hr
theorem exec_satChain (hr : s.runs) : exec (.satChain c) s = .next (s.satChain c.val) := exec_live (f := fun x => x.satChain c.val) rfl hr
theorem exec_dcbRange {i q : Half} (hr : s.runs) : exec (.dcbRange c i q) s = .next (s.dcbRange c.val i q) := exec_live (f := fun x => x.dcbRange c.val i q) rfl hr

/-- Settles O28: a window by whether it is seen and what its powers give, a trial by its place in the search, and the events of saturation and of DC blocking. -/
theorem mismatchAndSaturation : Obligations.MismatchAndSaturation := by
  refine ⟨?_, ?_, ?_, ?_, ?_, ?_, ?_, ?_⟩
  · intro s c whole psum prfl hr h
    exact ⟨_, (exec_vswrWindow hr).trans (congrArg _ (vswrWindow_void s c whole psum prfl h)), State.updTx_only _ _ _, withPSum_txc _ _ _⟩
  · intro s c psum prfl rl ra rs rw rg lvl hr ht ho hm hp hlo hhi hrl hra hrs hrw hrg hlv
    exact ⟨_, exec_vswrWindow hr, vswrWindow_valid s c psum prfl rl ra rs rw rg lvl ht ho hm hp hlo hhi hrl hra hrs hrw hrg hlv _ rfl⟩
  · intro s c psum prfl hr ht ho hm hp hl
    exact ⟨_, exec_vswrWindow hr, vswrWindow_low s c psum prfl ht ho hm hp hl _ rfl⟩
  · intro s c rl q better hr hq hw hc hb
    exact ⟨_, exec_tunerSearchTrial hr, searchTrial_spec s c rl q better hq ⟨hw, hc⟩ hb _ rfl⟩
  · intro s c rl hr h
    rw [exec_tunerSearchTrial hr, searchTrial_idle s c rl h]
  · intro s c hr
    exact ⟨_, exec_satChain hr, satChain_spec s c⟩
  · intro s r i q hr h
    rw [exec_dcbRange hr, dcbRange_idle s r i q h]
  · intro s r i q hr hi hf hh
    obtain ⟨own, other, above, below, al⟩ := dcbRange_spec s r i q hi hf hh _ rfl
    exact ⟨_, exec_dcbRange hr, own, other, fun h => above (decide_eq_true h), fun h => below (decide_eq_false (by omega)), al⟩

end Sys2Proof.Proofs
end

section
/-! SUPPORT. Set-up registers of chains and TDD schedules: what an accepted and a refused write leave (R77, R82, R96). -/

namespace Sys2Proof.Proofs

open Sys2Proof.Machine Sys2Proof.Laws

/-! ## A refused write (R77) -/

theorem wrBlock_sched (s : State) (t k : Nat) : (s.wrBlock t).sched k = if t = k then { s.sched k with wrBlocked := true } else s.sched k := by
  unfold State.wrBlock
  rw [State.sched_updSched_at]
  split
  · rename_i h
    rw [h]
  · rfl

/-- The mark of a schedule stays, whatever else is marked. -/
theorem wrBlock_keeps (s : State) (t k : Nat) (h : (s.sched k).wrBlocked = true) : ((s.wrBlock t).sched k).wrBlocked = true := by
  rw [wrBlock_sched]
  split
  · rfl
  · exact h

/-- A TDD_SCHED of 1 to 4 names a schedule; 0 names none. -/
def blockNamed (s : State) (n : Nat) : State := if 1 ≤ n then s.wrBlock (n - 1) else s

theorem blockNamed_sched (s : State) (n k : Nat) : (blockNamed s n).sched k = if n = k + 1 then { s.sched k with wrBlocked := true } else s.sched k := by
  unfold blockNamed
  by_cases hn : 1 ≤ n
  · rw [if_pos hn, wrBlock_sched]
    exact if_congr (by omega) rfl rfl
  · rw [if_neg hn, if_neg (by omega)]

theorem blockNamed_frame (s : State) (n : Nat) : blockNamed s n = { s with rfe := { s.rfe with scheds := (blockNamed s n).rfe.scheds } } := by
  unfold blockNamed
  split
  · rfl
  · rfl

/-! ## CH_CFG -/

theorem chCfgWrite_low (s : State) (i : Nat) (v : Word) (ht : bitsOf v 4 3 ≤ 4) (hl : s.chainLow i = true) :
    s.chCfgWrite i v = s.updChain i (fun c => { c with role := bitsOf v 0 2, sched := bitsOf v 4 3 }) := by
  unfold State.chCfgWrite
  dsimp only
  rw [if_neg (by omega), if_pos hl]

theorem chCfgWrite_refused (s : State) (i : Nat) (v : Word) (ht : bitsOf v 4 3 ≤ 4) (hl : s.chainLow i = false) :
    s.chCfgWrite i v = blockNamed (blockNamed s (s.chain i).sched) (bitsOf v 4 3) := by
  unfold State.chCfgWrite
  dsimp only
  rw [if_neg (by omega), if_neg (by rw [hl]; decide)]
  rfl

theorem chCfgWrite_void (s : State) (i : Nat) (v : Word) (ht : 4 < bitsOf v 4 3) : s.chCfgWrite i v = s := by
  unfold State.chCfgWrite
  exact if_pos ht

/-- Marking two schedules marks each that one of the two names. -/
theorem blockNamed_twice (s : State) (m n k : Nat) : (blockNamed (blockNamed s m) n).sched k = if m = k + 1 ∨ n = k + 1 then { s.sched k with wrBlocked := true } else s.sched k := by
  rw [blockNamed_sched, blockNamed_sched]
  by_cases hm : m = k + 1 <;> by_cases hn : n = k + 1 <;> simp [hm, hn]

theorem blockNamed_twice_frame (s : State) (m n : Nat) : blockNamed (blockNamed s m) n = { s with rfe := { s.rfe with scheds := (blockNamed (blockNamed s m) n).rfe.scheds } } := by
  generalize hu : blockNamed s m = u
  have e : u = { s with rfe := { s.rfe with scheds := u.rfe.scheds } } := hu ▸ blockNamed_frame s m
  rw [blockNamed_frame u n, e]

/-! ## The registers of a schedule -/

/-- Every chain that follows a schedule is low, said of the chains. -/
theorem schedLow_iff (s : State) (k : Nat) : s.schedLow k = true ↔ ∀ i, i < 64 → (s.chain i).sched = k + 1 → s.chainLow i = true := by
  unfold State.schedLow State.followers
  simp only [List.all_eq_true, List.mem_filter, List.mem_range, decide_eq_true_eq, and_imp]

theorem tddRegWrite_low (s : State) (k r : Nat) (v : Word) (hr : schedReg r = true) (hl : s.schedLow k = true) : s.tddRegWrite k r v = s.updSched k (fun x => x.write r v) := by
  unfold State.tddRegWrite
  rw [if_neg (by rw [hr]; decide), if_pos hl]

theorem tddRegWrite_refused (s : State) (k r : Nat) (v : Word) (hr : schedReg r = true) (hl : s.schedLow k = false) : s.tddRegWrite k r v = s.wrBlock k := by
  unfold State.tddRegWrite
  rw [if_neg (by rw [hr]; decide), if_neg (by rw [hl]; decide)]

/-- The field of SSB_CASE lies outside the bits of TDD_CFG that are stored as written. -/
theorem cfgField_masked (b : Nat) (hb : b < 8) : word (b * 2 ^ 26) &&& 0xE3FFF000 = 0 := by
  have all : ∀ n : Fin 8, word (n.val * 2 ^ 26) &&& 0xE3FFF000 = 0 := by decide
  exact all ⟨b, hb⟩

theorem withCfg_cfg (x : Sched) (v : Word) : (x.withCfg v).cfg = (v &&& 0xE3FFF000) ||| word ((if 6 ≤ bitsOf v 26 3 then bitsOf x.cfg 26 3 else bitsOf v 26 3) * 2 ^ 26) :=
  (apply_ite Sched.cfg _ _ _).trans (ite_self _)

theorem withCfg_masked (x : Sched) (v : Word) : (x.withCfg v).cfg &&& 0xE3FFF000 = v &&& 0xE3FFF000 := by
  have hb : (if 6 ≤ bitsOf v 26 3 then bitsOf x.cfg 26 3 else bitsOf v 26 3) < 8 := ite_both (· < 8) (bitsOf_lt x.cfg 26 3) (bitsOf_lt v 26 3)
  have hm : (0xE3FFF000 : Word) &&& 0xE3FFF000 = 0xE3FFF000 := by decide
  rw [withCfg_cfg, BitVec.and_or_distrib_right, cfgField_masked _ hb, BitVec.and_assoc, hm]
  exact BitVec.or_zero

/-- What a write of each register leaves in the schedule (R77, R82, R96). -/
theorem write_ofs (x : Sched) (v : Word) : (x.write 4 v).ofs = if bitsOf v 0 24 ≤ 9999999 then v &&& 0x00FFFFFF else x.ofs := by
  unfold Sched.write
  rw [if_neg (by decide), if_pos rfl]
  split
  · rfl
  · rfl
theorem write_side (x : Sched) (v : Word) : (x.write 8 v).side = v := rfl
theorem write_tim (x : Sched) (v : Word) : (x.write 0xC v).tim =
    if 0 < bitsOf v 0 8 ∧ bitsOf v 0 8 < bitsOf v 8 8 ∧ bitsOf v 8 8 < bitsOf v 16 8 ∧ bitsOf v 16 8 < 200 then v &&& 0x00FFFFFF else x.tim := by
  unfold Sched.write timOk
  rw [if_neg (by decide), if_neg (by decide), if_neg (by decide), if_pos rfl]
  simp only [decide_eq_true_eq]
  split
  · rfl
  · rfl
theorem write_ssbf (x : Sched) (v : Word) : (x.write 0x14 v).ssbf = v := rfl
theorem write_pat (x : Sched) (v : Word) (j : Nat) (hj : j < 32) : (x.write (0x40 + 4 * j) v).pat.get 0 j = v &&& 0xC007FFFF := by
  unfold Sched.write
  rw [if_neg (by omega), if_neg (by omega), if_neg (by omega), if_neg (by omega), if_neg (by omega), if_pos (by omega)]
  have hq : (0x40 + 4 * j - 0x40) / 4 = j := by omega
  rw [hq]
  exact Tab.get_set_self _ _ _ _

/-- Only a write of TDD_CFG concerns SRC and SYNC. -/
theorem write_other (x : Sched) (r : Nat) (v : Word) (h : r ≠ 0) : (x.write r v).cfg = x.cfg ∧ (x.write r v).sync = x.sync := by
  unfold Sched.write
  rw [if_neg h]
  by_cases h4 : r = 4
  · rw [if_pos h4]
    split
    · exact ⟨rfl, rfl⟩
    · exact ⟨rfl, rfl⟩
  · rw [if_neg h4]
    by_cases h8 : r = 8
    · rw [if_pos h8]
      exact ⟨rfl, rfl⟩
    · rw [if_neg h8]
      by_cases hC : r = 0xC
      · rw [if_pos hC]
        split
        · exact ⟨rfl, rfl⟩
        · exact ⟨rfl, rfl⟩
      · rw [if_neg hC]
        split
        · exact ⟨rfl, rfl⟩
        · split
          · exact ⟨rfl, rfl⟩
          · exact ⟨rfl, rfl⟩

/-! ## TDDSW_CFG -/

theorem tddswWrite_low (s : State) (v : Word) (h : ∀ k, k < 4 → s.schedLow k = true) : s.tddswWrite v = { s with rfe := { s.rfe with tddsw := v } } := by
  have hb : s.tddswBlocks v = [] := by
    unfold State.tddswBlocks
    rw [List.filter_eq_nil_iff]
    intro k hk
    rw [h k (List.mem_range.mp hk), Bool.not_true, Bool.false_and]
    decide
  unfold State.tddswWrite
  rw [hb]
  rfl

/-- A schedule keeps the write from taking effect when a pin that changes names it and its chains are not low. -/
theorem mem_tddswBlocks (s : State) (v : Word) (p k : Nat) (hp : p < 8) (hk : k < 4) (hl : s.schedLow k = false) (hd : bitsOf v (4 * p) 4 ≠ bitsOf s.rfe.tddsw (4 * p) 4)
    (hn : bitsOf v (4 * p) 2 = k ∨ bitsOf s.rfe.tddsw (4 * p) 2 = k) : k ∈ s.tddswBlocks v := by
  unfold State.tddswBlocks
  rw [List.mem_filter, List.mem_range, hl]
  refine ⟨hk, ?_⟩
  rw [Bool.not_false, Bool.true_and, List.any_eq_true]
  exact ⟨p, List.mem_range.mpr hp, decide_eq_true ⟨hd, hn⟩⟩

theorem each_wrBlock_frame (s : State) (l : List Nat) : s.each l (fun t a => a.wrBlock t) = { s with rfe := { s.rfe with scheds := (s.each l (fun t a => a.wrBlock t)).rfe.scheds } } :=
  each_keep (fun u => u = { s with rfe := { s.rfe with scheds := u.rfe.scheds } }) _ (fun t c hc => by rw [hc]; rfl) l s rfl

theorem tddswWrite_refused (s : State) (v : Word) (k : Nat) (h : k ∈ s.tddswBlocks v) : s.tddswWrite v = s.each (s.tddswBlocks v) (fun t a => a.wrBlock t) := by
  unfold State.tddswWrite
  dsimp only
  rw [if_neg]
  intro he
  rw [List.isEmpty_iff.mp he] at h
  exact absurd h List.not_mem_nil

theorem each_wrBlock_marks (s : State) (l : List Nat) (k : Nat) (h : k ∈ l) : ((s.each l (fun t a => a.wrBlock t)).sched k).wrBlocked = true :=
  each_once (fun u => (u.sched k).wrBlocked = true) _ (fun t c hc => wrBlock_keeps c t k hc) l k h (fun c => by rw [wrBlock_sched, if_pos rfl]) s

/-! ## The rows of these writes on a device out of reset -/

variable {s : State}

theorem exec_chCfgWrite {d : Dir} {c : Fin 32} {v : Word} (hr : s.runs) : exec (.chCfgWrite d c v) s = .next (s.chCfgWrite (chIdx d c.val) v) := exec_live (f := fun x => x.chCfgWrite (chIdx d c.val) v) rfl hr
theorem exec_tddRegisterWrite {k : Fin 4} {r : Nat} {v : Word} (hr : s.runs) : exec (.tddRegisterWrite k r v) s = .next (s.tddRegWrite k.val r v) := exec_live (f := fun x => x.tddRegWrite k.val r v) rfl hr
theorem exec_tddswCfgWrite {v : Word} (hr : s.runs) : exec (.tddswCfgWrite v) s = .next (s.tddswWrite v) := exec_live (f := fun x => x.tddswWrite v) rfl hr

/-- Settles O18: each write by whether the chains concerned are low, and by the register it names. -/
theorem radioSetupWrites : Obligations.RadioSetupWrites := by
  refine ⟨?_, ?_, ?_, ?_, ?_, ?_, ?_⟩
  · intro s d c v hr ht hl
    refine ⟨_, exec_chCfgWrite hr, ?_⟩
    rw [chCfgWrite_low s _ v ht hl]
    exact ⟨State.updChain_only _ _ _, State.chain_updChain _ _ _⟩
  · intro s d c v hr ht hl
    refine ⟨_, exec_chCfgWrite hr, ?_⟩
    rw [chCfgWrite_refused s _ v ht hl]
    exact ⟨blockNamed_twice_frame s _ _, blockNamed_twice s _ _⟩
  · intro s d c v hr ht
    rw [exec_chCfgWrite hr, chCfgWrite_void s _ v ht]
  · intro s k r v hr hs hl
    refine ⟨_, exec_tddRegisterWrite hr, ?_⟩
    rw [tddRegWrite_low s _ r v hs ((schedLow_iff s k).mpr hl)]
    refine ⟨State.updSched_only _ _ _, ?_⟩
    rw [State.sched_updSched]
    refine ⟨?_, ?_, ?_, ?_, ?_, write_other _ r v, ?_⟩
    · rintro rfl; exact write_ofs _ v
    · rintro rfl; exact write_side _ v
    · rintro rfl; exact write_tim _ v
    · rintro rfl; exact write_ssbf _ v
    · rintro j hj rfl; exact write_pat _ v j hj
    · rintro rfl; exact withCfg_masked _ v
  · intro s k r v hr hs hf
    obtain ⟨i, hi, hk, hl⟩ := hf
    have low : s.schedLow k = false := by
      rw [← Bool.not_eq_true, schedLow_iff]
      intro h
      exact absurd ((h i hi hk).symm.trans hl) (by decide)
    refine ⟨_, exec_tddRegisterWrite hr, ?_⟩
    rw [tddRegWrite_refused s _ r v hs low]
    exact ⟨State.updSched_only _ _ _, State.sched_updSched _ _ _⟩
  · intro s v hr hl
    rw [exec_tddswCfgWrite hr, tddswWrite_low s v hl]
  · intro s v p k hr hp hk hl hd hn
    have hm := mem_tddswBlocks s v p k hp hk hl hd hn
    refine ⟨_, exec_tddswCfgWrite hr, ?_⟩
    rw [tddswWrite_refused s v k hm]
    exact ⟨each_wrBlock_frame s _, each_wrBlock_marks s _ k hm⟩

end Sys2Proof.Proofs
end

section
/-! SUPPORT. Clocks that are lost and return, and the buffers realigned at a frame edge (R59, R208, R209). -/

namespace Sys2Proof.Proofs

open Sys2Proof.Machine Sys2Proof.Laws

/-! ## The chains of a tile whose clock is lost (R59) -/

/-- A chain whose converter clock is lost: above SLEEP it stands in STANDBY with LOCK FAILED, without a transition, walk or calibration. -/
def fallen (c : Chain) : Chain :=
  if c.st = .sleep then c
  else { c with trans := none, cal := none, walk := none, st := .standby, lock := .failed, unmet := c.unmet ||| 2, fail := c.fail ||| 2, done := c.done &&& 13 }

theorem fallen_sleep {c : Chain} (h : c.st = .sleep) : fallen c = c := if_pos h

theorem fallen_awake {c : Chain} (h : c.st ≠ .sleep) :
    (fallen c).st = .standby ∧ (fallen c).lock = .failed ∧ (fallen c).trans = none ∧ (fallen c).walk = none ∧ (fallen c).cal = none := by
  unfold fallen
  rw [if_neg h]
  exact ⟨rfl, rfl, rfl, rfl, rfl⟩

theorem ckDrop_fallen (s : State) (i : Nat) : (s.ckDrop i).chain i = fallen (s.chainNow i) := (ckDrop_chain s i i).trans (if_pos rfl)

theorem ckDrop_other (s : State) (i j : Nat) (h : j ≠ i) : (s.ckDrop i).chain j = s.chain j := (ckDrop_chain s i j).trans (if_neg (Ne.symm h))

/-- The chains of a tile. -/
def tileChains (k : Nat) : List Nat := (List.range 64).filter (fun i => decide (chTile i = k))

theorem mem_tileChains (k i : Nat) : i ∈ tileChains k ↔ i < 64 ∧ chTile i = k := by
  unfold tileChains
  rw [List.mem_filter, List.mem_range, decide_eq_true_eq]

theorem tileChains_nodup (k : Nat) : (tileChains k).Nodup := List.nodup_range.filter _

/-- What the loss of one tile's clock does. -/
def tileDown (k : Nat) (a : State) : State := (a.raise (6 + k) 4 (.tile k)).each (tileChains k) (fun i b => b.ckDrop i)

theorem kept_tileDown (k : Nat) (a : State) : Kept { Part.alarms with rfe := true } a (tileDown k a) := Kept.each (Kept.raise (Kept.refl _ a)) (fun _ _ hb => Kept.ckDrop hb)

theorem calm_tileDown (k : Nat) (a : State) : Calm noTol a (tileDown k a) := Calm.each (Calm.raise (Calm.refl _ a)) (fun _ _ hb => Calm.ckDrop hb)

theorem tileDown_rfeChains (k : Nat) (a : State) : RfeChains a (tileDown k a) :=
  each_keep (RfeChains a) _ (fun i _ hc => hc.trans (ckDrop_rfeChains _ i)) _ _ (raise_rfeChains a _ _ _)

/-- CK_UNLOCK of the tile is raised. -/
theorem tileDown_status (k : Nat) (a : State) : ((tileDown k a).fsrc (16 * (6 + k) + 4)).status = true :=
  (Calm.each (p := noTol) (Calm.refl _ (a.raise (6 + k) 4 (.tile k))) (fun _ _ hb => Calm.ckDrop hb)).stat rfl _ (State.raise_status _ _ _ _)

/-- The chains of the tile have fallen. -/
theorem tileDown_own (k : Nat) (a : State) (i : Nat) (hi : i < 64) (hk : chTile i = k) : (tileDown k a).chain i = fallen (a.chainNow i) := by
  obtain ⟨d, hd, he, e⟩ := (each_at State.chain (fun u => u.now = a.now) (fun i b => b.ckDrop i) (fun i c => ckDrop_other c i)
    (fun i c hc => (Calm.ckDrop (p := noTol) (Calm.refl _ c)).now.trans hc) (tileChains k) (a.raise (6 + k) 4 (.tile k))
    ((Calm.raise (p := noTol) (Calm.refl _ a)).now) (tileChains_nodup k) i).2 ((mem_tileChains k i).mpr ⟨hi, hk⟩)
  have hnow : d.chainNow i = a.chainNow i := by
    unfold State.chainNow
    rw [hd, he, raise_chain]
  rw [← hnow, ← ckDrop_fallen]
  exact e

/-- No chain of another tile is concerned. -/
theorem tileDown_other (k : Nat) (a : State) (i : Nat) (hk : chTile i ≠ k) : (tileDown k a).chain i = a.chain i := by
  have e := (each_at State.chain (fun _ => True) (fun i b => b.ckDrop i) (fun i c => ckDrop_other c i) (fun _ _ h => h) (tileChains k) (a.raise (6 + k) 4 (.tile k)) trivial (tileChains_nodup k) i).1
    (fun h => hk ((mem_tileChains k i).mp h).2)
  exact e.trans (raise_chain a _ _ _ i)

/-! ## REFERENCE_LOSS -/

/-- The clocks of a set of tiles are lost. -/
def ckDown (s : State) (m : BitVec 4) (lost : Bool) : State :=
  { s with rfe := { s.rfe with refOk := s.rfe.refOk && !lost, ckLocked := s.rfe.ckLocked &&& ~~~m }, tim := { s.tim with tileOk := s.tim.tileOk &&& ~~~m } }

/-- The tiles of a set. -/
def tilesOf (m : BitVec 4) : List Nat := (List.range 4).filter (fun k => m.getLsbD k)

theorem mem_tilesOf (m : BitVec 4) (k : Nat) : k ∈ tilesOf m ↔ k < 4 ∧ m.getLsbD k = true := by
  unfold tilesOf
  rw [List.mem_filter, List.mem_range]

theorem tilesOf_nodup (m : BitVec 4) : (tilesOf m).Nodup := List.nodup_range.filter _

theorem referenceLoss_eq (s : State) (tiles : BitVec 4) (lost : Bool) :
    s.referenceLoss tiles lost = (ckDown s (if lost then s.rfe.ckLocked else tiles &&& s.rfe.ckLocked) lost).each (tilesOf (if lost then s.rfe.ckLocked else tiles &&& s.rfe.ckLocked)) tileDown := rfl

/-- The chains of one tile, as one value: what `each_at` follows through the tiles. -/
def chainsOn (s : State) (k : Nat) : Nat → Chain := fun i => if chTile i = k then s.chain i else Chain.reset i

theorem chainsOn_tileDown (k : Nat) (c : State) (j : Nat) (h : j ≠ k) : chainsOn (tileDown k c) j = chainsOn c j := by
  funext i
  unfold chainsOn
  by_cases hi : chTile i = j
  · rw [if_pos hi, if_pos hi, tileDown_other k c i (by rw [hi]; exact h)]
  · rw [if_neg hi, if_neg hi]

theorem chainsOn_at {a b : State} {i k : Nat} (hk : chTile i = k) (h : chainsOn a k = chainsOn b k) : a.chain i = b.chain i := by
  have e := congrFun h i
  unfold chainsOn at e
  rwa [if_pos hk, if_pos hk] at e

theorem chTile_lt (i : Nat) : chTile i < 4 := by
  unfold chTile
  omega

/-- The chains after the clocks of a set of tiles are lost. -/
theorem tilesDown_chains (m : BitVec 4) (s : State) (i : Nat) :
    (m.getLsbD (chTile i) = false → (s.each (tilesOf m) tileDown).chain i = s.chain i) ∧
    (i < 64 → m.getLsbD (chTile i) = true → (s.each (tilesOf m) tileDown).chain i = fallen (s.chainNow i)) := by
  obtain ⟨out, inn⟩ := each_at chainsOn (fun u => u.now = s.now) tileDown chainsOn_tileDown (fun k c hc => (calm_tileDown k c).now.trans hc) (tilesOf m) s rfl (tilesOf_nodup m) (chTile i)
  refine ⟨fun h => chainsOn_at rfl (out ?_), fun hi h => ?_⟩
  · intro hm
    exact absurd (((mem_tilesOf m _).mp hm).2.symm.trans h) (by decide)
  · obtain ⟨d, hd, he, e⟩ := inn ((mem_tilesOf m _).mpr ⟨chTile_lt i, h⟩)
    rw [chainsOn_at rfl e, tileDown_own _ d i hi rfl]
    unfold State.chainNow
    rw [hd, chainsOn_at rfl he]

theorem tilesDown_status (m : BitVec 4) (s : State) (k : Nat) (hk : k < 4) (hm : m.getLsbD k = true) : ((s.each (tilesOf m) tileDown).fsrc (16 * (6 + k) + 4)).status = true :=
  each_once (fun u => (u.fsrc (16 * (6 + k) + 4)).status = true) tileDown (fun j c hc => (calm_tileDown j c).stat rfl _ hc) (tilesOf m) k ((mem_tilesOf m k).mpr ⟨hk, hm⟩) (tileDown_status k) s

theorem kept_tilesDown (m : BitVec 4) (s : State) : Kept { Part.alarms with rfe := true } s (s.each (tilesOf m) tileDown) :=
  each_keep (Kept _ s) tileDown (fun k c hc => hc.trans (kept_tileDown k c)) _ _ (Kept.refl _ s)

theorem tilesDown_rfeChains (m : BitVec 4) (s : State) : RfeChains s (s.each (tilesOf m) tileDown) :=
  each_keep (RfeChains s) tileDown (fun k c hc => hc.trans (tileDown_rfeChains k c)) _ _ (RfeChains.refl s)

/-! ## REFERENCE_RETURN and TILE_REALIGN -/

/-- A tile awaits the next aligned frame edge. -/
def awaitEdge (k : Nat) (a : State) : State := a.updTile k (fun x => { x with realign := true })

theorem referenceReturn_eq (s : State) (tiles : BitVec 4) :
    s.referenceReturn tiles = ({ s with rfe := { s.rfe with refOk := true, ckLocked := s.rfe.ckLocked ||| (tiles &&& ~~~s.rfe.ckLocked) } } : State).each (tilesOf (tiles &&& ~~~s.rfe.ckLocked)) awaitEdge := rfl

theorem awaitEdge_tiles (m : BitVec 4) (s : State) (k : Nat) (hk : k < 4) :
    (s.each (tilesOf m) awaitEdge).tileT k = if m.getLsbD k then { s.tileT k with realign := true } else s.tileT k := by
  obtain ⟨out, inn⟩ := each_at State.tileT (fun _ => True) awaitEdge (fun i c j h => State.tileT_updTile_ne c i j _ (Ne.symm h)) (fun _ _ h => h) (tilesOf m) s trivial (tilesOf_nodup m) k
  by_cases h : m.getLsbD k = true
  · obtain ⟨d, _, he, e⟩ := inn ((mem_tilesOf m k).mpr ⟨hk, h⟩)
    rw [if_pos h, e, ← he]
    exact State.tileT_updTile d k _
  · rw [if_neg h, out (fun hm => h ((mem_tilesOf m k).mp hm).2)]

theorem awaitEdge_frame (m : BitVec 4) (s : State) : s.each (tilesOf m) awaitEdge = { s with tim := { s.tim with tiles := (s.each (tilesOf m) awaitEdge).tim.tiles } } :=
  each_keep (fun u => u = { s with tim := { s.tim with tiles := u.tim.tiles } }) awaitEdge (fun k c hc => by rw [hc]; rfl) _ s rfl

theorem tileRealign_due (s : State) (k : Nat) (hw : (s.tileT k).realign = true) (hc : s.rfe.ckLocked.getLsbD k = true) (ha : s.tim.align = 2) (hf : s.frameOfs = 0) :
    s.tileRealign k = ({ s with tim := { s.tim with tileOk := s.tim.tileOk ||| BitVec.twoPow 4 k } } : State).updTile k (fun x => { x with realign := false, rxSlip := 0, txSlip := 0 }) := by
  unfold State.tileRealign
  rw [if_pos]
  rw [hw, hc, decide_eq_true ⟨ha, hf⟩]
  rfl

theorem tileRealign_idle (s : State) (k : Nat) (h : (s.tileT k).realign = false ∨ s.rfe.ckLocked.getLsbD k = false ∨ s.tim.align ≠ 2 ∨ s.frameOfs ≠ 0) : s.tileRealign k = s := by
  unfold State.tileRealign
  rw [if_neg]
  simp only [Bool.and_eq_true, decide_eq_true_eq]
  rintro ⟨⟨hw, hc⟩, ha, hf⟩
  rcases h with h | h | h | h
  · exact absurd (hw.symm.trans h) (by decide)
  · exact absurd (hc.symm.trans h) (by decide)
  · exact h ha
  · exact h hf

/-! ## ELASTIC_BUFFER_SLIP (R209) -/

/-- The tile as a slip of chain i leaves it. -/
def slipped (i : Nat) (x : TileT) : TileT :=
  { x with rxSlip := if i < 32 then x.rxSlip ||| BitVec.twoPow 8 (i % 8) else x.rxSlip, txSlip := if i < 32 then x.txSlip else x.txSlip ||| BitVec.twoPow 8 (i % 8), realign := true }

/-- The state in which EB_SLIP is raised. -/
def slipState (s : State) (i : Nat) : State := ({ s with tim := { s.tim with tileOk := s.tim.tileOk &&& ~~~(BitVec.twoPow 4 (chTile i)) } } : State).updTile (chTile i) (slipped i)

theorem bufferSlip_near (s : State) (i n : Nat) (h4 : 4 ≤ n) (h60 : n ≤ 60) : s.bufferSlip i n = s := if_pos ⟨h4, h60⟩

theorem bufferSlip_far (s : State) (i n : Nat) (h : n < 4 ∨ 60 < n) : s.bufferSlip i n = (slipState s i).raise 5 3 (.tile (chTile i)) := if_neg (by omega)

theorem slipState_tile (s : State) (i : Nat) : (slipState s i).tileT (chTile i) = slipped i (s.tileT (chTile i)) := State.tileT_updTile _ _ _

theorem slipState_other (s : State) (i j : Nat) (h : j ≠ chTile i) : (slipState s i).tileT j = s.tileT j := State.tileT_updTile_ne _ _ _ _ (Ne.symm h)

theorem slipState_notOk (s : State) (i : Nat) : (slipState s i).tim.tileOk.getLsbD (chTile i) = false := by
  have hk := chTile_lt i
  change (s.tim.tileOk &&& ~~~(BitVec.twoPow 4 (chTile i))).getLsbD (chTile i) = false
  simp [hk]

theorem marked_bit (x : Byte) (n : Nat) (h : n < 8) : (x ||| BitVec.twoPow 8 n).getLsbD n = true := by simp [h]

theorem chTile_chIdx (d : Dir) (c : Fin 32) : chTile (chIdx d c.val) = c.val / 8 := by
  have hc := c.isLt
  cases d
  · change c.val % 32 / 8 = c.val / 8
    omega
  · change (32 + c.val) % 32 / 8 = c.val / 8
    omega

theorem slipped_rx (c : Fin 32) (x : TileT) : (slipped (chIdx .rx c.val) x).rxSlip.getLsbD (c.val % 8) = true := by
  unfold slipped chIdx
  dsimp only
  rw [if_pos c.isLt]
  exact marked_bit _ _ (Nat.mod_lt _ (by decide))

theorem slipped_tx (c : Fin 32) (x : TileT) : (slipped (chIdx .tx c.val) x).txSlip.getLsbD (c.val % 8) = true := by
  have hm : (32 + c.val) % 8 = c.val % 8 := by omega
  unfold slipped chIdx
  dsimp only
  rw [if_neg (by omega), hm]
  exact marked_bit _ _ (Nat.mod_lt _ (by decide))

/-! ## The rows of these events on a device out of reset -/

variable {s : State}

theorem exec_referenceLoss {tiles : BitVec 4} {lost : Bool} (hr : s.runs) : exec (.referenceLoss tiles lost) s = .next (s.referenceLoss tiles lost) := exec_live (f := fun x => x.referenceLoss tiles lost) rfl hr
theorem exec_referenceReturn {tiles : BitVec 4} (hr : s.runs) : exec (.referenceReturn tiles) s = .next (s.referenceReturn tiles) := exec_live (f := fun x => x.referenceReturn tiles) rfl hr
theorem exec_tileRealign {k : Fin 4} (hr : s.runs) : exec (.tileRealign k) s = .next (s.tileRealign k.val) := exec_live (f := fun x => x.tileRealign k.val) rfl hr
theorem exec_elasticBufferSlip {d : Dir} {c : Fin 32} {n : Nat} (hr : s.runs) : exec (.elasticBufferSlip d c n) s = .next (s.bufferSlip (chIdx d c.val) n) := exec_live (f := fun x => x.bufferSlip (chIdx d c.val) n) rfl hr

/-- Settles O21: a loss tile by tile and chain by chain, a return and a realignment tile by tile, a slip by its distance. -/
theorem clockLossAndRealignment : Obligations.ClockLossAndRealignment := by
  refine ⟨?_, ?_, ?_, ?_, ?_, ?_⟩
  · intro s tiles lost hr
    obtain ⟨m, hm⟩ : ∃ m : BitVec 4, m = if lost then s.rfe.ckLocked else tiles &&& s.rfe.ckLocked := ⟨_, rfl⟩
    obtain ⟨t, ht⟩ : ∃ t : State, t = (ckDown s m lost).each (tilesOf m) tileDown := ⟨_, rfl⟩
    have k : Kept _ (ckDown s m lost) t := ht ▸ kept_tilesDown m (ckDown s m lost)
    have hrfe : RfeChains (ckDown s m lost) t := ht ▸ tilesDown_rfeChains m (ckDown s m lost)
    have chains := fun i => ht ▸ tilesDown_chains m (ckDown s m lost) i
    refine ⟨t, m, ?_, hm, ?_, ?_, k.tim rfl, ?_, ?_, ?_, k.le rfl, k.jl rfl, k.tst rfl, k.cxPol rfl, k.luts rfl⟩
    · rw [exec_referenceLoss hr, referenceLoss_eq, ← hm, ht]
    · exact congrArg Rfe.refOk hrfe
    · exact congrArg Rfe.ckLocked hrfe
    · intro j hj hb
      rw [ht]
      exact tilesDown_status m _ j hj hb
    · intro i hi hb hs
      rw [(chains i).2 hi hb]
      exact fallen_awake hs
    · intro i hi hor
      by_cases hb : m.getLsbD (chTile i) = false
      · exact (chains i).1 hb
      · have hs := hor.resolve_left hb
        have hself : (ckDown s m lost).chainNow i = s.chain i := chain_at_self (s.chain i) s.now (.inl (by rw [hs]; decide))
        rw [(chains i).2 hi (by rwa [Bool.not_eq_false] at hb), hself]
        exact fallen_sleep hs
  · intro s tiles hr
    refine ⟨_, exec_referenceReturn hr, ?_⟩
    rw [referenceReturn_eq]
    have frame := awaitEdge_frame (tiles &&& ~~~s.rfe.ckLocked) { s with rfe := { s.rfe with refOk := true, ckLocked := s.rfe.ckLocked ||| (tiles &&& ~~~s.rfe.ckLocked) } }
    have hrfe := congrArg State.rfe frame
    refine ⟨hrfe, fun k hk => awaitEdge_tiles _ _ k hk, ?_⟩
    rw [hrfe]
    exact frame
  · intro s k hr hw hc ha hf
    refine ⟨_, exec_tileRealign hr, ?_⟩
    rw [tileRealign_due s k hw hc ha hf]
    exact ⟨State.tileT_updTile _ _ _, fun j hj => State.tileT_updTile_ne _ _ _ _ (Ne.symm hj), rfl⟩
  · intro s k hr h
    rw [exec_tileRealign hr, tileRealign_idle s k h]
  · intro s d c n hr h4 h60
    rw [exec_elasticBufferSlip hr, bufferSlip_near s _ n h4 h60]
  · intro s d c n hr h
    obtain ⟨t, ht⟩ : ∃ t : State, t = (slipState s (chIdx d c.val)).raise 5 3 (.tile (chTile (chIdx d c.val))) := ⟨_, rfl⟩
    have al : (slipState s (chIdx d c.val)).alarmed t := ht ▸ State.alarmed_raise (State.alarmed_refl _)
    have htim := State.alarmed_tim al
    have htile : ∀ j, t.tileT j = (slipState s (chIdx d c.val)).tileT j := fun j => by unfold State.tileT; rw [htim]
    have own : t.tileT (c.val / 8) = slipped (chIdx d c.val) (s.tileT (c.val / 8)) := by
      rw [htile, ← chTile_chIdx d c, slipState_tile]
    refine ⟨t, ?_, ?_, ?_, ?_, ?_, ?_, ?_, ?_⟩
    · rw [exec_elasticBufferSlip hr, bufferSlip_far s _ n h, ht]
    · rw [htim]
      exact al
    · rw [ht]
      exact State.raise_status _ _ _ _
    · rw [own]
      rfl
    · rw [htim, ← chTile_chIdx d c]
      exact slipState_notOk s _
    · rintro rfl
      rw [own]
      exact slipped_rx c _
    · rintro rfl
      rw [own]
      exact slipped_tx c _
    · intro j hj
      rw [htile]
      exact slipState_other s _ j (by rw [chTile_chIdx]; exact hj)

end Sys2Proof.Proofs
end

section
/-! SUPPORT. Edges of FRAME_IN and aligned frame edges (R79, R207, R208, R374). -/

namespace Sys2Proof.Proofs

open Sys2Proof.Machine Sys2Proof.Laws

/-! ## The schedules of source 1 (R79) -/

theorem sched_of {a b : State} (h : b.rfe = a.rfe) (j : Nat) : b.sched j = a.sched j := by unfold State.sched; rw [h]

theorem kept_schedSync (s : State) (k : Nat) : Kept { slots := true, cx := true } s (s.schedSync k) := Kept.schedSync (Kept.refl _ s)

/-- The edge reaches one schedule. -/
def edgeAt (now k : Nat) (a : State) : State := (a.updSched k (fun x => x.frameIn now)).schedSync k

theorem edgeAt_own (now k : Nat) (a : State) : (edgeAt now k a).sched k = (a.sched k).frameIn now := (sched_of ((kept_schedSync _ k).rfe rfl) k).trans (State.sched_updSched _ _ _)

theorem edgeAt_other (now k : Nat) (a : State) (j : Nat) (h : j ≠ k) : (edgeAt now k a).sched j = a.sched j :=
  (sched_of ((kept_schedSync _ k).rfe rfl) j).trans (State.sched_updSched_ne _ _ _ _ (Ne.symm h))

theorem kept_edgeAt (now k : Nat) (a : State) : Kept { rfe := true, slots := true, cx := true } a (edgeAt now k a) := Kept.schedSync (Kept.updSched (Kept.refl _ a))

/-- The edge reaches every schedule. -/
def edgeAll (s : State) : State := s.each (List.range 4) (edgeAt s.now)

theorem kept_edgeAll (s : State) : Kept { rfe := true, slots := true, cx := true } s (edgeAll s) :=
  each_keep (Kept _ s) (edgeAt s.now) (fun k c hc => hc.trans (kept_edgeAt s.now k c)) _ _ (Kept.refl _ s)

theorem edgeAll_sched (s : State) (k : Nat) (hk : k < 4) : (edgeAll s).sched k = (s.sched k).frameIn s.now := by
  obtain ⟨d, _, he, e⟩ := (each_at State.sched (fun _ => True) (edgeAt s.now) (edgeAt_other s.now) (fun _ _ h => h) (List.range 4) s trivial List.nodup_range k).2 (List.mem_range.mpr hk)
  rw [edgeAt_own, he] at e
  exact e

theorem frameIn_otherSource (x : Sched) (now : Nat) (h : x.src ≠ 1) : x.frameIn now = x := if_pos h

theorem lock_locked (x : Sched) (now : Nat) : (x.lock now).sync = .locked ∧ (x.lock now).refEv = now := by
  unfold Sched.lock
  dsimp only
  split
  · exact ⟨rfl, rfl⟩
  · exact ⟨rfl, rfl⟩

/-- A pair of edges 10 ms apart acquires a schedule of source 1. -/
theorem frameIn_acquires (x : Sched) (now e : Nat) (hs : x.src = 1) (hl : x.sync ≠ .locked) (he : x.lastEv = some e) (hd : absDiff (now - e) (10 * tms) ≤ tus) :
    (x.frameIn now).sync = .locked ∧ (x.frameIn now).refEv = now := by
  have eq : x.frameIn now = x.lock now := by
    unfold Sched.frameIn
    rw [if_neg (not_not.mpr hs), if_neg hl, he]
    dsimp only
    rw [if_pos hd]
  rw [eq]
  exact lock_locked x now

/-! ## Drift (R208) -/

/-- FRAME_DRIFT reaches one more tile. -/
def driftTile (k : Nat) (a : State) : State :=
  let b := a.updFsrc 85 (fun x => { x with scopes := a.addScope x.scopes (.tile k) })
  if (b.fsrc 85).level = 3 then b.faultWinter State.record 85 (.tile k) else b

theorem frameDrift_eq (s : State) : s.frameDrift = (s.raise 5 5 (.tile 0)).each [1, 2, 3] driftTile := rfl

theorem calm_driftTile (k : Nat) (a : State) : Calm noTol a (driftTile k a) := by
  have c : Calm noTol a (a.updFsrc 85 (fun x => { x with scopes := a.addScope x.scopes (.tile k) })) := Calm.updFsrc (Calm.refl _ a) (fun _ h => h)
  exact Calm.ite (fun _ => Calm.faultWinter Calm.record_rec c) (fun _ => c)

theorem alarmed_driftTile {a b : State} (k : Nat) (h : a.alarmed b) : a.alarmed (driftTile k b) :=
  State.alarmed_ite (State.alarmed_faultWinter State.alarmed_rec (State.alarmed_updFsrc h)) (State.alarmed_updFsrc h)

theorem frameDrift_status (s : State) : (s.frameDrift.fsrc (16 * 5 + 5)).status = true := by
  rw [frameDrift_eq]
  exact each_keep (fun u => (u.fsrc (16 * 5 + 5)).status = true) driftTile (fun k c hc => (calm_driftTile k c).stat rfl _ hc) _ _ (State.raise_status _ _ _ _)

theorem alarmed_frameDrift (s : State) : s.alarmed s.frameDrift := by
  rw [frameDrift_eq]
  exact each_keep s.alarmed driftTile (fun k _ hc => alarmed_driftTile k hc) _ _ (State.alarmed_raise (State.alarmed_refl _))

/-! ## FRAME_IN_EDGE -/

/-- Whether an earlier edge of the alignment stage lies 10 ms back (R207). -/
def edgePair (s : State) : Bool := match s.tim.frameIn with | some t => decide (absDiff (s.now - t) frameTk ≤ tus ∧ s.tst.stageAt ≤ t) | none => false

/-- What an edge leaves in the timing block. -/
def timAtEdge (s : State) : Tim :=
  if s.tim.align = 1 then
    if edgePair s && s.tst.straps.casMaster && decide (s.tim.srcUsed = 0) then { s.tim with frameIn := some s.now, srcUsed := 2, framePh := s.dtTicks % frameTk } else { s.tim with frameIn := some s.now }
  else if s.tim.align = 2 then { s.tim with frameIn := some s.now, edgeCnt := (s.tim.edgeCnt + 1) % 65536, ferr := s.frameOfs * 2 / (tns : Int) }
  else { s.tim with frameIn := some s.now }

/-- The state after an edge, before drift is judged. -/
def afterEdge (s : State) : State := { edgeAll s with tim := timAtEdge s }

/-- An edge drives the schedules and the alignment, and raises FRAME_DRIFT where it lies off the aligned grid. -/
theorem frameInEdge_eq (s : State) : s.frameInEdge = if s.tim.align = 2 ∧ 20 * tns < s.frameOfs.natAbs then (afterEdge s).frameDrift else afterEdge s := by
  have htim : (edgeAll s).tim = s.tim := (kept_edgeAll s).tim rfl
  obtain ⟨s2, h2⟩ : ∃ s2 : State, s2 = { edgeAll s with tim := { (edgeAll s).tim with frameIn := some s.now } } := ⟨_, rfl⟩
  have e : s.frameInEdge =
      (if s.tim.align = 1 then
        if edgePair s && s.tst.straps.casMaster && decide (s.tim.srcUsed = 0) then { s2 with tim := { s2.tim with srcUsed := 2, framePh := s.dtTicks % frameTk } } else s2
      else if s.tim.align = 2 then
        if 20 * tns < s.frameOfs.natAbs then ({ s2 with tim := { s2.tim with edgeCnt := (s2.tim.edgeCnt + 1) % 65536, ferr := s.frameOfs * 2 / (tns : Int) } } : State).frameDrift
        else { s2 with tim := { s2.tim with edgeCnt := (s2.tim.edgeCnt + 1) % 65536, ferr := s.frameOfs * 2 / (tns : Int) } }
      else s2) := by
    subst h2
    unfold State.frameInEdge edgePair edgeAll edgeAt
    dsimp only <;> rfl
  rw [htim] at h2
  rw [e, h2]
  unfold afterEdge timAtEdge
  generalize edgeAll s = a
  generalize s.dtTicks % frameTk = ph
  generalize s.frameOfs * 2 / (tns : Int) = fe
  generalize (edgePair s && s.tst.straps.casMaster && decide (s.tim.srcUsed = 0)) = pair
  by_cases h1 : s.tim.align = 1
  · have hn : ¬ (s.tim.align = 2 ∧ 20 * tns < s.frameOfs.natAbs) := fun h => absurd (h1.symm.trans h.1) (by decide)
    rw [if_pos h1, if_pos h1, if_neg hn]
    cases pair with
    | true => rfl
    | false => rfl
  · rw [if_neg h1, if_neg h1]
    by_cases h2' : s.tim.align = 2
    · rw [if_pos h2', if_pos h2']
      by_cases ho : 20 * tns < s.frameOfs.natAbs
      · rw [if_pos ho, if_pos ⟨h2', ho⟩]
      · rw [if_neg ho, if_neg (fun h => ho h.2)]
    · rw [if_neg h2', if_neg h2', if_neg (fun h => h2' h.1)]

theorem frameInEdge_alarmed (s : State) : (afterEdge s).alarmed s.frameInEdge := by
  rw [frameInEdge_eq]
  exact State.alarmed_ite (alarmed_frameDrift _) (State.alarmed_refl _)

theorem frameInEdge_near (s : State) (h : s.tim.align ≠ 2 ∨ s.frameOfs.natAbs ≤ 20 * tns) : s.frameInEdge = afterEdge s := by
  rw [frameInEdge_eq, if_neg]
  rintro ⟨h2, ho⟩
  rcases h with h | h
  · exact h h2
  · omega

theorem timAtEdge_frameIn (s : State) : (timAtEdge s).frameIn = some s.now := by
  unfold timAtEdge
  split
  · split
    · rfl
    · rfl
  · split
    · rfl
    · rfl

theorem timAtEdge_edgeCnt (s : State) (h : s.tim.align ≠ 2) : (timAtEdge s).edgeCnt = s.tim.edgeCnt := by
  unfold timAtEdge
  rw [if_neg h]
  split
  · split
    · rfl
    · rfl
  · rfl

theorem timAtEdge_aligned (s : State) (h : s.tim.align = 2) :
    timAtEdge s = { s.tim with frameIn := some s.now, edgeCnt := (s.tim.edgeCnt + 1) % 65536, ferr := s.frameOfs * 2 / (tns : Int) } := by
  unfold timAtEdge
  rw [if_neg (by omega), if_pos h]

/-- During alignment a pair of edges makes FRAME_IN the master's source. -/
theorem timAtEdge_pair (s : State) (e : Nat) (ha : s.tim.align = 1) (hm : s.tst.straps.casMaster = true) (hu : s.tim.srcUsed = 0) (he : s.tim.frameIn = some e)
    (hd : absDiff (s.now - e) (10 * tms) ≤ tus) (hst : s.tst.stageAt ≤ e) : (timAtEdge s).srcUsed = 2 := by
  have hp : edgePair s = true := by
    unfold edgePair
    rw [he]
    exact decide_eq_true ⟨hd, hst⟩
  unfold timAtEdge
  rw [if_pos ha, hp, hm, decide_eq_true hu]
  rfl

/-- Besides RFE and the timing block, a frame that allows only slots and cancellers is an alarm's frame. -/
theorem alarmed_of_kept {s a : State} (k : Kept { rfe := true, slots := true, cx := true } s a) (x : Tim) : ({ s with rfe := a.rfe, tim := x } : State).alarmed { a with tim := x } := by
  obtain ⟨r, sl, cx, e⟩ : ∃ r sl cx, a = { s with rfe := r, slots := sl, cx := cx } := ⟨_, _, _, k.frame⟩
  subst e
  rfl

theorem afterEdge_tim (s : State) : (afterEdge s).tim = timAtEdge s := by
  unfold afterEdge
  dsimp only

theorem afterEdge_rfe (s : State) : (afterEdge s).rfe = (edgeAll s).rfe := by
  unfold afterEdge
  dsimp only

theorem afterEdge_calm (s : State) : (afterEdge s).flt = s.flt ∧ (afterEdge s).recd = s.recd ∧ (afterEdge s).intc = s.intc := by
  have k := kept_edgeAll s
  have hf := k.flt rfl
  have hd := k.recd rfl
  have hi := k.intc rfl
  unfold afterEdge
  dsimp only
  exact ⟨hf, hd, hi⟩

theorem afterEdge_alarmed (s : State) : ({ s with rfe := (edgeAll s).rfe, tim := timAtEdge s } : State).alarmed (afterEdge s) :=
  alarmed_of_kept (kept_edgeAll s) (timAtEdge s)

/-! ## FRAME_EDGE (R374) -/

theorem frameEdge_due (s : State) (ha : s.tim.align = 2) (hr : s.tim.dtRun = true) (ho : s.frameOfs = 0) : s.frameEdge = ({ s with tim := { s.tim with frameOut := some s.now } } : State).irqEdge 23 := if_pos ⟨ha, hr, ho⟩

theorem frameEdge_idle (s : State) (h : s.tim.align ≠ 2 ∨ s.tim.dtRun = false ∨ s.frameOfs ≠ 0) : s.frameEdge = s := by
  refine if_neg ?_
  rintro ⟨ha, hr, ho⟩
  rcases h with h | h | h
  · exact h ha
  · rw [h] at hr
    exact absurd hr (by decide)
  · exact h ho

section
variable {s : State}

theorem exec_frameInEdge (hr : s.runs) : exec .frameInEdge s = .next s.frameInEdge := exec_live (f := fun x => x.frameInEdge) rfl hr

theorem exec_frameEdge (hr : s.runs) : exec .frameEdge s = .next s.frameEdge := exec_live (f := fun x => x.frameEdge) rfl hr

end

/-- Settles O22: an edge runs the schedules and the timing block, where only drift can add an alarm; an aligned edge is one assignment and one interrupt. -/
theorem frameEdges : Obligations.FrameEdges := by
  unfold Obligations.FrameEdges
  refine ⟨fun s hr => ?_, fun s hr ha hd ho => ⟨_, exec_frameEdge hr, frameEdge_due s ha hd ho, fun he => ?_⟩, fun s hr h => (exec_frameEdge hr).trans (congrArg _ (frameEdge_idle s h))⟩
  · have al := frameInEdge_alarmed s
    have hrfe : s.frameInEdge.rfe = (edgeAll s).rfe := (State.alarmed_rfe al).trans (afterEdge_rfe s)
    have htim : s.frameInEdge.tim = timAtEdge s := (State.alarmed_tim al).trans (afterEdge_tim s)
    have hs : ∀ k, k < 4 → s.frameInEdge.sched k = (s.sched k).frameIn s.now := fun k hk => (sched_of hrfe k).trans (edgeAll_sched s k hk)
    have calm : s.tim.align ≠ 2 ∨ s.frameOfs.natAbs ≤ 20 * tns → s.frameInEdge.flt = s.flt ∧ s.frameInEdge.recd = s.recd ∧ s.frameInEdge.intc = s.intc := fun h => by
      rw [frameInEdge_near s h]
      exact afterEdge_calm s
    refine ⟨_, exec_frameInEdge hr, hs, fun k hk h => (hs k hk).trans (frameIn_otherSource _ _ h), fun k e hk h1 h2 h3 h4 => ?_, ?_, fun h => ⟨?_, (calm (.inl h)).1⟩, fun e h1 h2 h3 h4 h5 h6 => ?_, fun h => htim.trans (timAtEdge_aligned s h), fun h ho => ?_, fun h => calm (.inr h), ?_⟩
    · rw [hs k hk]
      exact frameIn_acquires _ _ e h1 h2 h3 h4
    · rw [htim]
      exact timAtEdge_frameIn s
    · rw [htim]
      exact timAtEdge_edgeCnt s h
    · rw [htim]
      exact timAtEdge_pair s e h1 h2 h3 h4 h5 h6
    · rw [frameInEdge_eq, if_pos ⟨h, ho⟩]
      exact frameDrift_status _
    · rw [hrfe, htim]
      exact State.alarmed_trans (afterEdge_alarmed s) al
  · rw [frameEdge_due s ha hd ho, State.irqEdge_lat _ 23 (by decide)]
    simp [he]

end Sys2Proof.Proofs
end

section
/-! SUPPORT. TDD schedules: detections, loss of the reference and turnarounds (R79, R80, R82, Table 3-9). -/

namespace Sys2Proof.Proofs

open Sys2Proof.Machine Sys2Proof.Laws

/-! ## The frame of a change of one schedule and of what follows its switching -/

theorem sched_frame {s t : State} {k : Nat} {f : Sched → Sched} (h : Kept { slots := true, cx := true } (s.updSched k f) t) :
    t = { s with rfe := { s.rfe with scheds := t.rfe.scheds }, slots := t.slots, cx := t.cx } := by
  obtain ⟨sl, cx, e⟩ : ∃ sl cx, t = { s.updSched k f with slots := sl, cx := cx } := ⟨_, _, h.frame⟩
  subst e
  rfl

theorem sched_frame_own {s t : State} {k : Nat} {f : Sched → Sched} (h : Kept { slots := true, cx := true } (s.updSched k f) t) : t.sched k = f (s.sched k) :=
  (sched_of (h.rfe rfl) k).trans (State.sched_updSched _ _ _)

theorem sched_frame_other {s t : State} {k : Nat} {f : Sched → Sched} (h : Kept { slots := true, cx := true } (s.updSched k f) t) (j : Nat) (hj : j ≠ k) : t.sched j = s.sched j :=
  (sched_of (h.rfe rfl) j).trans (State.sched_updSched_ne _ _ _ _ (Ne.symm hj))

/-! ## SYNC_DETECTION (R79) -/

/-- The third detection in a row within 0.5 µs of prediction acquires. -/
theorem detect_acquires (x : Sched) (now e : Nat) (hs : 2 ≤ x.src) (hl : x.sync ≠ .locked) (hh : 2 ≤ x.hits) (he : x.lastEv = some e) (hd : absDiff (now - e) x.burst ≤ 500 * tns) :
    (x.detect now).sync = .locked ∧ (x.detect now).refEv = now := by
  have eq : x.detect now = { x.lock now with hits := 0 } := by
    unfold Sched.detect
    rw [if_neg (by omega), if_neg hl, he]
    dsimp only
    rw [if_pos (decide_eq_true (by rw [Nat.one_mul]; exact hd)), if_pos (by omega)]
  rw [eq]
  exact lock_locked x now

theorem syncDetection_on (s : State) (k : Nat) (h : (s.chain (bitsOf (s.sched k).cfg 21 5)).st = .rxOn) : s.syncDetection k = (s.updSched k (fun x => x.detect s.now)).schedSync k := if_pos h

theorem syncDetection_off (s : State) (k : Nat) (h : (s.chain (bitsOf (s.sched k).cfg 21 5)).st ≠ .rxOn) : s.syncDetection k = s := if_neg h

/-! ## SYNC_LOSS (R80, R183) -/

/-- A schedule after the loss of its reference. -/
def held (now : Nat) (x : Sched) : Sched := { x with sync := .holdover, lossCnt := satInc 0xFFFF x.lossCnt, hits := 0, lastEv := none, lossAt := some now, lockedAt := none }

/-- TDD_SYNC_LOSS in the scope of one transmit chain. -/
def raiseLoss (i : Nat) (a : State) : State := a.raise 13 9 (.tx (i - 32))

theorem syncLoss_due (s : State) (k d : Nat) (hl : (s.sched k).sync = .locked) (hd : (s.sched k).lostAt = some d) (hn : d ≤ s.now) :
    s.syncLoss k = (s.updSched k (held s.now)).each (((s.updSched k (held s.now)).followers k).filter (fun i => decide (32 ≤ i))) raiseLoss := by
  unfold State.syncLoss
  dsimp only
  rw [hd, hl]
  simp only [hn, decide_true, Bool.and_self, if_true]
  rfl

theorem syncLoss_idle (s : State) (k : Nat) (h : (s.sched k).sync ≠ .locked ∨ (s.sched k).lostAt = none ∨ (∃ d, (s.sched k).lostAt = some d ∧ s.now < d)) : s.syncLoss k = s := by
  refine if_neg ?_
  rintro e
  obtain ⟨hl, hd⟩ := Bool.and_eq_true_iff.mp e
  rcases h with h | h | ⟨d, h, hn⟩
  · exact h (of_decide_eq_true hl)
  · rw [h] at hd
    exact Bool.noConfusion hd
  · rw [h] at hd
    exact absurd (of_decide_eq_true hd) (by omega)

theorem alarmed_raiseLosses (u : State) (l : List Nat) : u.alarmed (u.each l raiseLoss) := State.alarmed_each (State.alarmed_refl u) (fun _ _ h => State.alarmed_raise h)

theorem alarmed_of_raiseLosses (s : State) (k : Nat) (f : Sched → Sched) (l : List Nat) :
    ({ s with rfe := { s.rfe with scheds := ((s.updSched k f).each l raiseLoss).rfe.scheds } } : State).alarmed ((s.updSched k f).each l raiseLoss) := by
  have al := alarmed_raiseLosses (s.updSched k f) l
  rw [State.alarmed_rfe al]
  exact al

theorem raiseLosses_status (u : State) (l : List Nat) (i : Nat) (hi : i ∈ l) : ((u.each l raiseLoss).fsrc (16 * 13 + 9)).status = true :=
  each_once (fun a => (a.fsrc (16 * 13 + 9)).status = true) raiseLoss (fun _ c hc => (Calm.raise (Calm.refl noTol c)).stat rfl _ hc) l i hi (fun c => State.raise_status c 13 9 _) u

theorem mem_followers (s : State) (k i : Nat) : i ∈ s.followers k ↔ i < 64 ∧ (s.chain i).sched = k + 1 := by simp [State.followers]

/-! ## Period edges and turnarounds (R80, R82, Table 3-9) -/

theorem antOf_setAnt (x : Sched) (sv : Bool) (a : Ant) : (x.setAnt sv a).antOf sv = a := by cases sv <;> rfl

theorem antOf_setAnt_other (x : Sched) (sv : Bool) (a : Ant) : (x.setAnt sv a).antOf (!sv) = x.antOf (!sv) := by cases sv <;> rfl

theorem setAnt_self (x : Sched) (sv : Bool) : x.setAnt sv (x.antOf sv) = x := by cases sv <;> rfl

/-- What a period edge leaves at one antenna: the end of transmission or of reception starts the turnaround. -/
def antAtEdge (x : Sched) (sv : Bool) (now : Nat) : Ant :=
  if x.ends sv (!sv) now then { x.antOf sv with txOpen := false, turn := some (true, now, 0) }
  else if x.ends sv sv now then { x.antOf sv with rxOpen := false, turn := some (false, now, 0) } else x.antOf sv

theorem tddPeriodEdge_running (s : State) (k : Nat) (sv : Bool) (h : (s.sched k).runs = true) :
    s.tddPeriodEdge k sv = (s.updSched k (fun y => y.setAnt sv (antAtEdge (s.sched k) sv s.now))).sideSync k sv := by
  unfold State.tddPeriodEdge
  dsimp only
  rw [h]
  rfl

theorem tddPeriodEdge_stopped (s : State) (k : Nat) (sv : Bool) (h : (s.sched k).runs = false) : s.tddPeriodEdge k sv = s := by
  unfold State.tddPeriodEdge
  dsimp only
  rw [h]
  rfl

/-- An antenna after step n of the turnaround it has run since t0. -/
def turned (a : Ant) (l : Bool) (t0 n : Nat) : Ant := { a.stepTurn l n with turn := if 3 ≤ n then none else some (l, t0, n + 1) }

theorem turnStep_due (s : State) (k : Nat) (sv l : Bool) (t0 n : Nat) (hr : (s.sched k).runs = true) (ht : ((s.sched k).antOf sv).turn = some (l, t0, n)) (hd : t0 + turnAt (s.sched k).tim n ≤ s.now) :
    s.turnStep k sv = s.updSched k (fun y => y.setAnt sv (turned ((s.sched k).antOf sv) l t0 n)) := by
  unfold State.turnStep
  dsimp only
  rw [ht]
  dsimp only
  rw [hr, decide_eq_true hd]
  rfl

theorem turnStep_stopped (s : State) (k : Nat) (sv : Bool) (h : (s.sched k).runs = false) : s.turnStep k sv = s := by
  unfold State.turnStep
  dsimp only
  split
  · rw [h]
    rfl
  · rfl

theorem turnStep_idle (s : State) (k : Nat) (sv : Bool) (h : ((s.sched k).antOf sv).turn = none ∨ (∃ l t0 n, ((s.sched k).antOf sv).turn = some (l, t0, n) ∧ s.now < t0 + turnAt (s.sched k).tim n)) :
    s.turnStep k sv = s := by
  unfold State.turnStep
  dsimp only
  rcases h with h | ⟨l, t0, n, h, hn⟩
  · rw [h]
  · rw [h]
    dsimp only
    rw [decide_eq_false (by omega), Bool.and_false]
    rfl

theorem stepTurn_last (a : Ant) (l : Bool) (n : Nat) (h : 3 ≤ n) : a.stepTurn l n = if l then { a with rxOpen := true } else { a with txOpen := true } := by
  obtain ⟨m, rfl⟩ := Nat.exists_eq_add_of_le' h
  cases l <;> rfl

section
variable {s : State} {k : Fin 4} {sv : Bool}

theorem exec_syncDetection (hr : s.runs) : exec (.syncDetection k) s = .next (s.syncDetection k) := exec_live (f := fun x => x.syncDetection k) rfl hr

theorem exec_syncLoss (hr : s.runs) : exec (.syncLoss k) s = .next (s.syncLoss k) := exec_live (f := fun x => x.syncLoss k) rfl hr

theorem exec_tddPeriodEdge (hr : s.runs) : exec (.tddPeriodEdge k sv) s = .next (s.tddPeriodEdge k sv) := exec_live (f := fun x => x.tddPeriodEdge k sv) rfl hr

theorem exec_turnaroundStep (hr : s.runs) : exec (.turnaroundStep k sv) s = .next (s.turnStep k sv) := exec_live (f := fun x => x.turnStep k sv) rfl hr

end

/-- Settles O24: each event writes one schedule; what follows its switching, or its loss, keeps that schedule. -/
theorem tddSwitching : Obligations.TddSwitching := by
  unfold Obligations.TddSwitching
  refine ⟨fun s k hr hon => ?_, fun s k hr hoff => (exec_syncDetection hr).trans (congrArg _ (syncDetection_off s k hoff)), fun s k d hr hl hd hn => ?_,
    fun s k hr h => (exec_syncLoss hr).trans (congrArg _ (syncLoss_idle s k h)), fun s k sv hr hrun => ?_,
    fun s k sv hr h => ⟨(exec_tddPeriodEdge hr).trans (congrArg _ (tddPeriodEdge_stopped s k sv h)), (exec_turnaroundStep hr).trans (congrArg _ (turnStep_stopped s k sv h))⟩,
    fun s k sv l t0 n hr hrun ht hd => ?_, fun s k sv hr h => (exec_turnaroundStep hr).trans (congrArg _ (turnStep_idle s k sv h))⟩
  · have kp : Kept { slots := true, cx := true } (s.updSched k (fun x => x.detect s.now)) (s.syncDetection k) := by
      rw [syncDetection_on s k hon]
      exact kept_schedSync _ _
    have own := sched_frame_own kp
    refine ⟨_, exec_syncDetection hr, own, fun e h1 h2 h3 h4 h5 => ?_, sched_frame_other kp, sched_frame kp⟩
    rw [own]
    exact detect_acquires _ _ e h1 h2 h3 h4 h5
  · refine ⟨_, (exec_syncLoss hr).trans (congrArg _ (syncLoss_due s k d hl hd hn)), ?_, fun j hj => ?_, fun c hc hf => ?_, alarmed_of_raiseLosses s k (held s.now) _⟩
    · exact (sched_of (State.alarmed_rfe (alarmed_raiseLosses _ _)) k).trans (State.sched_updSched _ _ _)
    · exact (sched_of (State.alarmed_rfe (alarmed_raiseLosses _ _)) j).trans (State.sched_updSched_ne _ _ _ _ (Ne.symm hj))
    · refine raiseLosses_status _ _ (32 + c) (List.mem_filter.mpr ⟨(mem_followers _ _ _).mpr ⟨by omega, hf⟩, decide_eq_true (by omega)⟩)
  · have kp : Kept { slots := true, cx := true } (s.updSched k (fun y => y.setAnt sv (antAtEdge (s.sched k) sv s.now))) (s.tddPeriodEdge k sv) := by
      rw [tddPeriodEdge_running s k sv hrun]
      exact Kept.sideSync (Kept.refl _ _)
    have own := sched_frame_own kp
    have ant : ((s.tddPeriodEdge k sv).sched k).antOf sv = antAtEdge (s.sched k) sv s.now := (congrArg (Sched.antOf · sv) own).trans (antOf_setAnt _ _ _)
    refine ⟨_, exec_tddPeriodEdge hr, sched_frame kp, sched_frame_other kp, (congrArg (Sched.antOf · (!sv)) own).trans (antOf_setAnt_other _ _ _), fun h => ?_, fun h1 h2 => ?_, fun h1 h2 => ?_⟩
    · rw [ant, antAtEdge, h]
      rfl
    · rw [ant, antAtEdge, h1, h2]
      rfl
    · rw [own, antAtEdge, h1, h2]
      exact setAnt_self _ _
  · have own := (congrArg (Sched.antOf · sv) (State.sched_updSched s k (fun y => y.setAnt sv (turned ((s.sched k).antOf sv) l t0 n)))).trans (antOf_setAnt _ _ _)
    refine ⟨_, (exec_turnaroundStep hr).trans (congrArg _ (turnStep_due s k sv l t0 n hrun ht hd)), State.updSched_only _ _ _, (congrArg (Sched.antOf · (!sv)) (State.sched_updSched _ _ _)).trans (antOf_setAnt_other _ _ _), ?_⟩
    rw [own, turned]
    refine ⟨rfl, ?_, ?_, ?_, fun hl h => ?_, ?_, ?_, ?_, fun hl h => ?_⟩
    case refine_4 => rw [stepTurn_last _ _ _ h, hl]; rfl
    case refine_8 => rw [stepTurn_last _ _ _ h, hl]; rfl
    all_goals rintro rfl rfl; rfl

end Sys2Proof.Proofs
end

section
/-! SUPPORT. Tuning and lock: commitment of a CHAIN_TUNE, lock reached, missed and lost (R63, R67, R72). -/

namespace Sys2Proof.Proofs

open Sys2Proof.Machine Sys2Proof.Laws

/-! ## Commitment (R63) -/

theorem chainSync_own (s : State) (i : Nat) : (s.chainSync i).chain i = s.chainNow i := (chainSync_chain s i i).trans (if_pos rfl)

theorem chainSync_other (s : State) (i j : Nat) (h : j ≠ i) : (s.chainSync i).chain j = s.chain j := (chainSync_chain s i j).trans (if_neg (Ne.symm h))

theorem isChainTune_desc {i : Nat} {p : Pend} (h : isChainTune i p = true) : ∃ ch dr mode losel fw ifofs pdly, p.desc = .chainTune ch dr mode losel fw ifofs pdly := by
  unfold isChainTune at h
  split at h
  · exact ⟨_, _, _, _, _, _, _, by assumption⟩
  · exact Bool.noConfusion h

/-- What every CHAIN_TUNE does beside its chain: it restarts the estimate of a receive chain, or stores the delay of a transmit chain. -/
def tuneSide (s : State) (i : Nat) (p : Pend) (pdly : Half) : State :=
  if i < 32 then s.updDcb i (fun d => { d with estI := 0, estQ := 0, range := false, tuned := d.tuned || decide (p.aux = 1) }) else s.updTx (i - 32) (fun x => { x with pdly := pdly })

theorem tuneSide_frame (s : State) (i : Nat) (p : Pend) (pdly : Half) : tuneSide s i p pdly = { s with rfe := (tuneSide s i p pdly).rfe } := by
  unfold tuneSide
  split
  · rfl
  · rfl

theorem tuneSide_chain (s : State) (i : Nat) (p : Pend) (pdly : Half) (j : Nat) : (tuneSide s i p pdly).chain j = s.chain j := by
  unfold tuneSide
  split
  · rfl
  · rfl

theorem tuneSide_pdly (s : State) (c : Nat) (p : Pend) (pdly : Half) : (tuneSide s (32 + c) p pdly).txc c = { s.txc c with pdly := pdly } := by
  unfold tuneSide
  rw [if_neg (by omega), Nat.add_sub_cancel_left, State.txc_updTx]

/-- The tuning change of a CHAIN_TUNE, before its completion. -/
def tuned (s : State) (i : Nat) (p : Pend) (mode losel : Byte) (fw ifofs : Word) (pdly : Half) : State :=
  ((tuneSide s i p pdly).updPend p.id (fun q => { q with committed := true })).tuneApply i mode losel fw ifofs

section
variable {s : State} {i : Nat} {p : Pend} {ch dr mode losel : Byte} {fw ifofs : Word} {pdly : Half}

theorem tuneOne_delay (hd : p.desc = .chainTune ch dr mode losel fw ifofs pdly) (ha : p.aux = 0) : s.tuneOne i p = (tuneSide s i p pdly).complete p .ok 0 0 := by
  unfold State.tuneOne
  rw [hd]
  exact if_pos ha

theorem tuneOne_change (hd : p.desc = .chainTune ch dr mode losel fw ifofs pdly) (ha : p.aux = 1) :
    s.tuneOne i p = if ((tuned s i p mode losel fw ifofs pdly).chain i).st = .synth then tuned s i p mode losel fw ifofs pdly else (tuned s i p mode losel fw ifofs pdly).completeId p.id .ok 0 0 := by
  unfold State.tuneOne
  rw [hd]
  exact if_neg (by rw [ha]; decide)

end

/-- The CHAIN_TUNEs due at a boundary. -/
def tunesDue (s : State) (i : Nat) : List Pend := (s.chainSync i).pends (fun p => isChainTune i p && !p.committed && decide (p.acc < s.now))

theorem tuningCommit_one (s : State) (i : Nat) (p : Pend) (hg : s.onSmp chainBlk = true) (h : tunesDue s i = [p]) : s.tuningCommit i = (s.chainSync i).tuneOne i p := by
  have e : s.tuningCommit i = (tunesDue s i).foldl (fun a p => a.tuneOne i p) (s.chainSync i) := if_pos hg
  rw [e, h]
  rfl

theorem tuningCommit_idle (s : State) (i : Nat) (h : s.onSmp chainBlk = false ∨ tunesDue s i = []) : s.tuningCommit i = s.chainSync i := by
  rcases h with h | h
  · exact if_neg (fun e => Bool.noConfusion (h.symm.trans e))
  · by_cases hg : s.onSmp chainBlk = true
    · have e : s.tuningCommit i = (tunesDue s i).foldl (fun a p => a.tuneOne i p) (s.chainSync i) := if_pos hg
      rw [e, h]
      rfl
    · exact if_neg hg

theorem tunesDue_desc {s : State} {i : Nat} {p : Pend} (h : tunesDue s i = [p]) : ∃ ch dr mode losel fw ifofs pdly, p.desc = .chainTune ch dr mode losel fw ifofs pdly := by
  have hm : p ∈ tunesDue s i := h ▸ List.mem_singleton_self p
  have hf := (List.mem_filter.mp hm).2
  exact isChainTune_desc (Bool.and_eq_true_iff.mp (Bool.and_eq_true_iff.mp hf).1).1

/-- The chain of a tuning change, before LOCK answers. -/
def retuned (c : Chain) (mode losel : Byte) (fw ifofs : Word) : Chain := { c with
  quad := decide (mode = 1), fw := fw.toNat, losel := decide (losel = 1), ifofs := if decide (mode = 1) then ifofs.toInt else 0
  unmet := if decide (mode = 1) then c.unmet ||| 9 else (c.unmet ||| 1) &&& 7
  done := if decide (mode = 1) then c.done &&& 6 else c.done &&& 14
  imgDb := if decide (mode = 1) then c.imgDb else 0 }

theorem retuned_unmet (c : Chain) (mode losel : Byte) (fw ifofs : Word) :
    (retuned c mode losel fw ifofs).unmet.getLsbD 0 = true ∧ (retuned c mode losel fw ifofs).unmet.getLsbD 3 = decide (mode = 1) := by
  unfold retuned
  dsimp only
  cases decide (mode = 1) with
  | true => simp
  | false => simp

theorem lockBit_cleared (u : BitVec 4) : (u &&& 13).getLsbD 0 = u.getLsbD 0 ∧ (u &&& 13).getLsbD 3 = u.getLsbD 3 := by simp

theorem loRuns_peer {u : State} {i : Nat} (h : u.loRuns i = true) : ∃ j, j ≠ i ∧ (u.chainNow j).lock = .locked ∧ (u.chainNow j).fLo = (u.chain i).fLo := by
  obtain ⟨j, _, hj⟩ := List.any_eq_true.mp (Bool.and_eq_true_iff.mp h).2
  exact ⟨j, of_decide_eq_true hj⟩

theorem chainNow_of {a b : State} (hn : b.now = a.now) {j : Nat} (hc : b.chain j = a.chain j) : b.chainNow j = a.chainNow j := by
  unfold State.chainNow
  rw [hc, hn]

section
variable {s : State} {i : Nat} {p : Pend} {mode losel : Byte} {fw ifofs : Word} {pdly : Half}

theorem tuned_other (j : Nat) (hj : j ≠ i) : (tuned s i p mode losel fw ifofs pdly).chain j = s.chain j :=
  ((tuneApply_chain _ i mode losel fw ifofs).1 j hj).trans (tuneSide_chain s i p pdly j)

/-- A chain below SYNTH takes the tuning; one in SYNTH settles, or shares the lock of a chain on the same LO. -/
theorem tuned_own : (tuned s i p mode losel fw ifofs pdly).chain i = retuned (s.chain i) mode losel fw ifofs ∧ (s.chain i).st ≠ .synth ∨ (s.chain i).st = .synth ∧
    ((tuned s i p mode losel fw ifofs pdly).chain i = { retuned (s.chain i) mode losel fw ifofs with lock := .settling, settleAt := s.now, trans := none } ∨
      (tuned s i p mode losel fw ifofs pdly).chain i = { retuned (s.chain i) mode losel fw ifofs with lock := .locked, settleAt := s.now, trans := none, unmet := (retuned (s.chain i) mode losel fw ifofs).unmet &&& 13 } ∧
        ∃ j, j ≠ i ∧ (s.chainNow j).lock = .locked ∧ (s.chainNow j).fLo = (retuned (s.chain i) mode losel fw ifofs).fLo) := by
  obtain ⟨u, hu⟩ : ∃ u, u = (tuneSide s i p pdly).updPend p.id (fun q => { q with committed := true }) := ⟨_, rfl⟩
  have hc : ∀ j, u.chain j = s.chain j := fun j => by rw [hu]; exact tuneSide_chain s i p pdly j
  have hn : u.now = s.now := by rw [hu, tuneSide_frame]; rfl
  obtain ⟨c, ec, e⟩ := (tuneApply_chain u i mode losel fw ifofs).2
  rw [hc i] at ec
  replace ec : c = retuned (s.chain i) mode losel fw ifofs := ec
  have et : (tuned s i p mode losel fw ifofs pdly).chain i = (u.tuneApply i mode losel fw ifofs).chain i := by rw [hu]; rfl
  have st : c.st = (s.chain i).st := by rw [ec]; rfl
  rw [et, e, st, hn]
  by_cases hs : (s.chain i).st = .synth
  · refine .inr ⟨hs, ?_⟩
    rw [if_pos hs]
    by_cases hr : (u.updChain i (fun _ => c)).loRuns i = true
    · rw [if_pos hr, ec]
      refine .inr ⟨rfl, ?_⟩
      obtain ⟨j, hj, hl, hf⟩ := loRuns_peer hr
      have hjc : (u.updChain i (fun _ => c)).chainNow j = s.chainNow j :=
        chainNow_of (b := u.updChain i (fun _ => c)) hn ((State.chain_updChain_ne _ _ _ _ (Ne.symm hj)).trans (hc j))
      rw [hjc] at hl hf
      rw [State.chain_updChain, ec] at hf
      exact ⟨j, hj, hl, hf⟩
    · rw [if_neg hr, ec]
      exact .inl rfl
  · rw [if_neg hs]
    exact .inl ⟨ec, hs⟩

end

section
variable {s : State} {i : Nat} {p : Pend} {ch dr mode losel : Byte} {fw ifofs : Word} {pdly : Half} (hg : s.onSmp chainBlk = true) (hp : tunesDue s i = [p]) (ha : p.aux = 1) (hd : p.desc = .chainTune ch dr mode losel fw ifofs pdly)
include hg hp ha hd

/-- A tuning change of a chain below SYNTH completes; one of a chain in SYNTH stays until lock. -/
theorem tuningCommit_change : s.tuningCommit i = if ((tuned (s.chainSync i) i p mode losel fw ifofs pdly).chain i).st = .synth then tuned (s.chainSync i) i p mode losel fw ifofs pdly
    else (tuned (s.chainSync i) i p mode losel fw ifofs pdly).completeId p.id .ok 0 0 := (tuningCommit_one s i p hg hp).trans (tuneOne_change hd ha)

theorem tuningCommit_other (j : Nat) (hj : j ≠ i) : (s.tuningCommit i).chain j = s.chain j := by
  have other : (tuned (s.chainSync i) i p mode losel fw ifofs pdly).chain j = s.chain j := (tuned_other j hj).trans (chainSync_other s i j hj)
  rw [tuningCommit_change hg hp ha hd]
  split
  · exact other
  · exact (completeId_chain _ _ _ _ _ _).trans other

/-- What the tuning leaves in its chain (Table 3-7). -/
theorem tuningCommit_own : ((s.chainNow i).st ≠ .synth ∧ (s.tuningCommit i).chain i = retuned (s.chainNow i) mode losel fw ifofs ∧ ∀ q ∈ (s.tuningCommit i).hif.outstanding, q.id ≠ p.id) ∨
    (s.chainNow i).st = .synth ∧ ((s.tuningCommit i).chain i = { retuned (s.chainNow i) mode losel fw ifofs with lock := .settling, settleAt := s.now, trans := none } ∨
      (s.tuningCommit i).chain i = { retuned (s.chainNow i) mode losel fw ifofs with lock := .locked, settleAt := s.now, trans := none, unmet := (retuned (s.chainNow i) mode losel fw ifofs).unmet &&& 13 } ∧
        ∃ j, j ≠ i ∧ (s.chainNow j).lock = .locked ∧ (s.chainNow j).fLo = (retuned (s.chainNow i) mode losel fw ifofs).fLo) := by
  have hc := chainSync_own s i
  have own := tuned_own (s := s.chainSync i) (i := i) (p := p) (mode := mode) (losel := losel) (fw := fw) (ifofs := ifofs) (pdly := pdly)
  rw [hc] at own
  rw [tuningCommit_change hg hp ha hd]
  obtain ⟨u, hu⟩ : ∃ u, u = tuned (s.chainSync i) i p mode losel fw ifofs pdly := ⟨_, rfl⟩
  rw [← hu] at own ⊢
  rcases own with ⟨e, hs⟩ | ⟨hs, e⟩
  · have st : (u.chain i).st ≠ .synth := by rw [e]; exact hs
    rw [if_neg st, completeId_chain]
    refine .inl ⟨hs, e, fun q hq => ?_⟩
    rw [completeId_outstanding, List.mem_filter, decide_eq_true_eq] at hq
    exact hq.2
  · have st : (u.chain i).st = .synth := by
      rcases e with e | ⟨e, _⟩ <;> (rw [e]; exact hs)
    rw [if_pos st]
    refine .inr ⟨hs, e.imp_right (And.imp_right ?_)⟩
    rintro ⟨j, hj, hl, hf⟩
    rw [chainNow_sync] at hl hf
    exact ⟨j, hj, hl, hf⟩

end

/-! ## The chains of an LO (R60, R72) -/

theorem loChains_sync (s : State) (i j : Nat) : (s.chainSync i).loChains j = s.loChains j := by
  unfold State.loChains
  simp only [chainNow_sync]

theorem loChains_nodup (s : State) (i : Nat) : (s.loChains i).Nodup := by
  unfold State.loChains
  dsimp only
  split
  · exact List.nodup_singleton i
  · exact (List.nodup_range.map (fun _ _ h => Nat.add_left_cancel h)).filter _

theorem mem_loChains_self (s : State) (i : Nat) : i ∈ s.loChains i := by
  unfold State.loChains
  dsimp only
  split
  · exact List.mem_singleton_self i
  · refine List.mem_filter.mpr ⟨List.mem_map.mpr ⟨i % 8, List.mem_range.mpr (Nat.mod_lt _ (by decide)), ?_⟩, ?_⟩
    · unfold chTile
      omega
    · rw [decide_eq_true rfl]
      rfl

/-! ## Lock reached (R63, R67) -/

/-- One chain of a settling LO locks at the present. -/
def lockStep (j : Nat) (a : State) : State := (a.chainSync j).lockOne j

theorem lockStep_other (i : Nat) (a : State) (j : Nat) (h : j ≠ i) : (lockStep i a).chain j = a.chain j := by
  unfold lockStep
  rw [lockOne_chain, if_neg (Ne.symm h), chainSync_chain, if_neg (Ne.symm h)]

theorem lockStep_own (i : Nat) (a : State) : (lockStep i a).chain i = { a.chainNow i with
    lock := .locked, settleAt := a.now, unmet := (a.chainNow i).unmet &&& 13, fail := (a.chainNow i).fail &&& 13, done := (a.chainNow i).done ||| 2
    walk := ((lockStep i a).chain i).walk, trans := ((lockStep i a).chain i).trans } := by
  have e := lockOne_chain (a.chainSync i) i i
  rw [if_pos rfl, chainSync_chain, if_pos rfl] at e
  exact e

theorem lockStep_rfeChains (i : Nat) (a : State) : RfeChains a (lockStep i a) := (chainSync_rfeChains a i).trans (lockOne_rfeChains _ i)

theorem kept_lockStep (i : Nat) (a : State) : Kept { hif := true, intc := true, recd := true, rfe := true } a (lockStep i a) := Kept.lockOne (Kept.chainSync (Kept.refl _ a))

/-- The settling chains of chain i's LO. -/
def settlers (s : State) (i : Nat) : List Nat := (s.loChains i).filter (fun j => decide ((s.chainNow j).lock = .settling ∧ (s.chainNow j).fLo = (s.chainNow i).fLo))

theorem syncFilter (s : State) (i : Nat) (P : Chain → Bool) : ((s.chainSync i).loChains i).filter (fun j => P ((s.chainSync i).chainNow j)) = (s.loChains i).filter (fun j => P (s.chainNow j)) := by
  rw [loChains_sync]
  simp only [chainNow_sync]

theorem lockReached_settling (s : State) (i : Nat) (hl : (s.chainNow i).lock = .settling) (ht : s.now ≤ (s.chainNow i).settleAt + 160 * tus) :
    s.lockReached i = (s.chainSync i).each (settlers s i) lockStep := by
  have hc := chainSync_own s i
  unfold State.lockReached
  dsimp only
  rw [hc, if_pos hl, chainSync_now, if_pos ht, syncFilter s i (fun d => decide (d.lock = .settling ∧ d.fLo = (s.chainNow i).fLo))]
  rfl

theorem settlers_nodup (s : State) (i : Nat) : (settlers s i).Nodup := (loChains_nodup s i).filter _

theorem lockSteps_frame (s : State) (i : Nat) : (s.chainSync i).each (settlers s i) lockStep = { s with
    hif := ((s.chainSync i).each (settlers s i) lockStep).hif, intc := ((s.chainSync i).each (settlers s i) lockStep).intc, recd := ((s.chainSync i).each (settlers s i) lockStep).recd
    rfe := { s.rfe with chains := ((s.chainSync i).each (settlers s i) lockStep).rfe.chains } } := by
  have k : Kept { hif := true, intc := true, recd := true, rfe := true } s ((s.chainSync i).each (settlers s i) lockStep) := each_keep (Kept _ s) lockStep (fun j a h => h.trans (kept_lockStep j a)) _ _ (Kept.chainSync (Kept.refl _ s))
  have r : RfeChains s ((s.chainSync i).each (settlers s i) lockStep) := each_keep (RfeChains s) lockStep (fun j a h => h.trans (lockStep_rfeChains j a)) _ _ (chainSync_rfeChains s i)
  generalize (s.chainSync i).each (settlers s i) lockStep = t at k r
  unfold RfeChains at r
  rw [← r]
  exact k.frame

/-- Each settling chain of the LO locks. -/
theorem lockSteps_own (s : State) (i j : Nat) (hj : j ∈ settlers s i) :
    (((s.chainSync i).each (settlers s i) lockStep).chain j).lock = .locked ∧ (((s.chainSync i).each (settlers s i) lockStep).chain j).settleAt = s.now ∧
    (((s.chainSync i).each (settlers s i) lockStep).chain j).unmet = (s.chainNow j).unmet &&& 13 ∧ (((s.chainSync i).each (settlers s i) lockStep).chain j).fail = (s.chainNow j).fail &&& 13 ∧
    (((s.chainSync i).each (settlers s i) lockStep).chain j).done = (s.chainNow j).done ||| 2 ∧ (((s.chainSync i).each (settlers s i) lockStep).chain j).st = (s.chainNow j).st := by
  obtain ⟨d, hd, hc, e⟩ := (each_at State.chain (fun a => a.now = s.now) lockStep lockStep_other (fun k a h => (kept_lockStep k a).now.trans h) (settlers s i) (s.chainSync i) rfl (settlers_nodup s i) j).2 hj
  have hn : d.chainNow j = s.chainNow j := (chainNow_of (a := s.chainSync i) hd hc).trans (chainNow_sync s i j)
  rw [e, lockStep_own, hn, hd]
  exact ⟨rfl, rfl, rfl, rfl, rfl, rfl⟩

theorem lockSteps_other (s : State) (i j : Nat) (hj : j ∉ s.loChains i) : ((s.chainSync i).each (settlers s i) lockStep).chain j = s.chain j := by
  have hn : j ∉ settlers s i := fun h => hj (List.mem_filter.mp h).1
  have hi : ¬ i = j := fun e => hj (e ▸ mem_loChains_self s i)
  exact ((each_at State.chain (fun _ => True) lockStep lockStep_other (fun _ _ h => h) (settlers s i) (s.chainSync i) trivial (settlers_nodup s i) j).1 hn).trans ((chainSync_chain s i j).trans (if_neg hi))

theorem lockReached_late (s : State) (i : Nat) (hl : (s.chainNow i).lock = .settling) (ht : (s.chainNow i).settleAt + 160 * tus < s.now) : s.lockReached i = s.chainSync i := by
  have hc := chainSync_own s i
  unfold State.lockReached
  dsimp only
  rw [hc, if_pos hl, chainSync_now, if_neg (by omega)]

/-- At the boundary after lock the committed tunes end. -/
def tunesEnd (s : State) (i : Nat) : State := (s.chainSync i).completeAll (fun p => isChainTune i p && p.committed) .ok

theorem lockReached_locked (s : State) (i : Nat) (hl : (s.chainNow i).lock = .locked) (ht : (s.chainNow i).settleAt < s.now) (hg : s.onSmp chainBlk = true) :
    s.lockReached i = if (s.chainNow i).trans = none then (tunesEnd s i).walkStep i (tunesEnd s i).now else tunesEnd s i := by
  have hc := chainSync_own s i
  have hg' : (s.chainSync i).onSmp chainBlk = true := hg
  unfold State.lockReached
  dsimp only
  rw [hc, hl, if_neg (by decide), chainSync_now, decide_eq_true ⟨rfl, ht⟩, hg', Bool.and_self, if_pos rfl]
  rfl

theorem tunesEnd_chain (s : State) (i j : Nat) : (tunesEnd s i).chain j = if i = j then s.chainNow i else s.chain j := (completeAll_chain _ _ _ _).trans (chainSync_chain s i j)

theorem tunesEnd_now (s : State) (i : Nat) : (tunesEnd s i).now = s.now := (Calm.completeAll (Calm.refl noTol (s.chainSync i))).now

theorem tunesEnd_none (s : State) (i : Nat) : ∀ q ∈ (tunesEnd s i).hif.outstanding, ¬ (isChainTune i q = true ∧ q.committed = true) := by
  rintro q hq ⟨h1, h2⟩
  have h := completeAll_none _ _ _ q hq
  rw [h1, h2] at h
  exact Bool.noConfusion h

theorem lockReached_locked_sub (s : State) (i : Nat) (hl : (s.chainNow i).lock = .locked) (ht : (s.chainNow i).settleAt < s.now) (hg : s.onSmp chainBlk = true) :
    ∀ q ∈ (s.lockReached i).hif.outstanding, q ∈ (tunesEnd s i).hif.outstanding := by
  rw [lockReached_locked s i hl ht hg]
  split
  · exact walkStep_sub _ _ _
  · exact fun _ h => h

theorem lockReached_locked_other (s : State) (i : Nat) (hl : (s.chainNow i).lock = .locked) (ht : (s.chainNow i).settleAt < s.now) (hg : s.onSmp chainBlk = true) (j : Nat) (hj : j ≠ i) :
    (s.lockReached i).chain j = s.chain j := by
  have h := (tunesEnd_chain s i j).trans (if_neg (Ne.symm hj))
  rw [lockReached_locked s i hl ht hg]
  split
  · exact (walkStep_ne _ _ _ _ hj).trans h
  · exact h

theorem lockReached_locked_own (s : State) (i : Nat) (hl : (s.chainNow i).lock = .locked) (ht : (s.chainNow i).settleAt < s.now) (hg : s.onSmp chainBlk = true) :
    ((s.lockReached i).chain i).lock = .locked ∧ ((s.lockReached i).chain i).st = (s.chainNow i).st := by
  have h := (tunesEnd_chain s i i).trans (if_pos rfl)
  rw [lockReached_locked s i hl ht hg]
  split
  · rw [walkStep_own, h]
    exact ⟨hl, rfl⟩
  · rw [h]
    exact ⟨hl, rfl⟩

theorem chNext_synth_up (g : ChSt) (h : 3 ≤ g.rank) : chNext .synth g = g := by
  cases g with
  | rxOn => rfl
  | txOn => rfl
  | _ => exact absurd h (by decide)

/-- A walk into RX_ON or TX_ON goes on at that boundary. -/
theorem lockReached_locked_walk (s : State) (i : Nat) (hl : (s.chainNow i).lock = .locked) (ht : (s.chainNow i).settleAt < s.now) (hg : s.onSmp chainBlk = true) (id : Nat) (g : ChSt)
    (hw : (s.chainNow i).walk = some (id, g)) (hn : (s.chainNow i).trans = none) (hs : (s.chainNow i).st = .synth) (hr : 3 ≤ g.rank) (hu : (s.chainNow i).unmet = 0) :
    ((s.lockReached i).chain i).trans = some (g, s.now) := by
  have h := (tunesEnd_chain s i i).trans (if_pos rfl)
  have hx : chNext (s.chainNow i).st g = g := by rw [hs, chNext_synth_up g hr]
  have e := walkStep_top (tunesEnd s i) i (tunesEnd s i).now id g (by rw [h, hw]) (by rw [h, hs]; rintro rfl; exact absurd hr (by decide)) (by rw [h, hx]; exact hr) (by rw [h, hl]) (by rw [h, hu])
  rw [h, hx, tunesEnd_now] at e
  rw [lockReached_locked s i hl ht hg, if_pos hn, tunesEnd_now, e]

/-! ## 160 µs without lock (R63, Table 3-4) -/

/-- LOCK FAILED and LO_UNLOCK. -/
def unlocked (s : State) (i : Nat) : State := ((s.chainSync i).lockFailed i).raise (6 + chTile i) 3 (chScope i)

/-- The tunes and calibrations of a chain that does not lock end. -/
def lockEnds (s : State) (i : Nat) : State := ((unlocked s i).completeAll (fun p => isChainTune i p && p.committed) .timeoutLock).completeAll (isCalRun i) .timeoutLock

theorem lockTimeout_due (s : State) (i : Nat) (hl : (s.chainNow i).lock = .settling) (ht : (s.chainNow i).settleAt + 160 * tus ≤ s.now) : s.lockTimeout i = (lockEnds s i).upFail i 2 := by
  have hc := chainSync_own s i
  unfold State.lockTimeout
  dsimp only
  rw [hc, if_pos ⟨hl, ht⟩]
  rfl

theorem lockTimeout_idle (s : State) (i : Nat) (h : (s.chainNow i).lock ≠ .settling ∨ s.now < (s.chainNow i).settleAt + 160 * tus) : s.lockTimeout i = s.chainSync i := by
  have hc := chainSync_own s i
  unfold State.lockTimeout
  dsimp only
  rw [hc, chainSync_now, if_neg]
  rintro ⟨hl, ht⟩
  rcases h with h | h
  · exact h hl
  · omega

theorem lockEnds_chain (s : State) (i j : Nat) : (lockEnds s i).chain j =
    if i = j then { s.chainNow i with lock := .failed, unmet := (s.chainNow i).unmet ||| 2, fail := (s.chainNow i).fail ||| 2, done := (s.chainNow i).done &&& 13 } else s.chain j := by
  unfold lockEnds unlocked
  rw [completeAll_chain, completeAll_chain, raise_chain, lockFailed_chain, chainSync_chain, chainSync_chain, if_pos rfl]
  by_cases h : i = j
  · rw [if_pos h, if_pos h]
  · rw [if_neg h, if_neg h, if_neg h]

theorem lockEnds_status (s : State) (i : Nat) : (((lockEnds s i).upFail i 2).fsrc (16 * (6 + chTile i) + 3)).status = true :=
  (Calm.upFail (Calm.completeAll (Calm.completeAll (Calm.refl noTol (unlocked s i))))).stat rfl _ (State.raise_status _ _ _ _)

theorem lockEnds_none (s : State) (i : Nat) (q : Pend) (hq : q ∈ ((lockEnds s i).upFail i 2).hif.outstanding) : isCalRun i q = false ∧ ¬ (isChainTune i q = true ∧ q.committed = true) := by
  have h := upFail_sub _ _ _ q hq
  unfold lockEnds at h
  refine ⟨completeAll_none _ _ _ q h, ?_⟩
  rintro ⟨h1, h2⟩
  have h3 := completeAll_none _ _ _ q (completeAll_sub _ _ _ q h)
  rw [h1, h2] at h3
  exact Bool.noConfusion h3

theorem lockEnds_alarmed (s : State) (i : Nat) : AlarmedRfe s ((lockEnds s i).upFail i 2) :=
  ((((((AlarmedRfe.refl s).chainSync i).lockFailed i).raise _ _ _).completeAll _ _).completeAll _ _).upFail i 2

/-! ## A lost lock (R72) -/

/-- A chain that runs on a locked LO. -/
def running (c : Chain) : Bool := decide (c.lock = .locked ∧ 2 ≤ c.st.rank)

/-- One chain of a lost LO. -/
def loseLock (j : Nat) (a : State) : State := a.lockLostOne j

theorem lockLost_running (s : State) (i : Nat) (h : running (s.chainNow i) = true) : s.lockLost i = (s.chainSync i).each ((s.loChains i).filter (fun j => running (s.chainNow j))) loseLock := by
  have hh : running ((s.chainSync i).chainNow i) = true := by rw [chainNow_sync]; exact h
  have e : s.lockLost i = (s.chainSync i).each (((s.chainSync i).loChains i).filter (fun j => running ((s.chainSync i).chainNow j))) loseLock := if_pos hh
  rw [e, syncFilter]

theorem lockLost_idle (s : State) (i : Nat) (h : running (s.chainNow i) = false) : s.lockLost i = s.chainSync i := by
  have hh : ¬ running ((s.chainSync i).chainNow i) = true := by rw [chainNow_sync, h]; exact Bool.noConfusion
  exact if_neg hh

theorem isCalRun_desc {i : Nat} {p q : Pend} (h : p.desc = q.desc) : isCalRun i p = isCalRun i q := by
  unfold isCalRun
  rw [h]

theorem calRuns_none_of_calm {a b : State} {i : Nat} (k : Calm noTol a b) (h : ∀ q ∈ a.hif.outstanding, isCalRun i q = false) : ∀ q ∈ b.hif.outstanding, isCalRun i q = false := by
  intro q hq
  obtain ⟨r, hr, e⟩ := k.opens rfl q hq
  rw [← isCalRun_desc (Prod.mk.inj e).2]
  exact h r hr

theorem calm_loseLock (j : Nat) (a : State) : Calm noTol a (loseLock j a) := Calm.lockLostOne (Calm.refl _ a)

/-- What the lost lock of an LO leaves in one of its chains. -/
theorem loseLocks_chain (u : State) (l : List Nat) (hl : l.Nodup) (j : Nat) :
    (j ∉ l → (u.each l loseLock).chain j = u.chain j) ∧
    (j ∈ l → ((u.each l loseLock).chain j).st = .synth ∧ ((u.each l loseLock).chain j).lock = .settling ∧ ((u.each l loseLock).chain j).settleAt = u.now ∧ ((u.each l loseLock).chain j).cal = none) := by
  obtain ⟨h1, h2⟩ := each_at State.chain (fun a => a.now = u.now) loseLock (fun i c j h => (lockLostOne_spec c i).1 j h) (fun i c h => (calm_loseLock i c).now.trans h) l u rfl hl j
  refine ⟨h1, fun hj => ?_⟩
  obtain ⟨d, hd, _, e⟩ := h2 hj
  obtain ⟨_, hst, hlock, hat, hcal, _⟩ := lockLostOne_spec d j
  rw [e]
  exact ⟨hst, hlock, hat.trans hd, hcal⟩

theorem loseLock_status (j : Nat) (a : State) : ((loseLock j a).fsrc (16 * (6 + chTile j) + 3)).status = true := by
  unfold loseLock
  obtain ⟨_, _, _, _, _, h, _⟩ := lockLostOne_spec a j
  exact h

theorem loseLocks_status (u : State) (l : List Nat) (j : Nat) (hj : j ∈ l) : ((u.each l loseLock).fsrc (16 * (6 + chTile j) + 3)).status = true :=
  each_once (fun a => (a.fsrc (16 * (6 + chTile j) + 3)).status = true) loseLock (fun i c h => (calm_loseLock i c).stat rfl _ h) l j hj (loseLock_status j) u

theorem loseLock_calRuns (j : Nat) (a : State) : ∀ q ∈ (loseLock j a).hif.outstanding, isCalRun j q = false := by
  unfold loseLock
  obtain ⟨_, _, _, _, _, _, h, _⟩ := lockLostOne_spec a j
  exact h

theorem loseLocks_calRuns (u : State) (l : List Nat) (j : Nat) (hj : j ∈ l) : ∀ q ∈ (u.each l loseLock).hif.outstanding, isCalRun j q = false :=
  each_once (fun a => ∀ q ∈ a.hif.outstanding, isCalRun j q = false) loseLock (fun i c h => calRuns_none_of_calm (calm_loseLock i c) h) l j hj (loseLock_calRuns j) u

theorem loseLocks_alarmed (s : State) (i : Nat) (l : List Nat) : AlarmedRfe s ((s.chainSync i).each l loseLock) :=
  each_keep (AlarmedRfe s) loseLock (fun j _ h => h.lockLostOne j) l _ ((AlarmedRfe.refl s).chainSync i)

section
variable {s : State} {d : Dir} {c : Fin 32}

theorem exec_tuningCommit (hr : s.runs) : exec (.tuningCommit d c) s = .next (s.tuningCommit (chIdx d c.val)) := exec_live (f := fun x => x.tuningCommit (chIdx d c.val)) rfl hr
theorem exec_lockReached (hr : s.runs) : exec (.lockReached d c) s = .next (s.lockReached (chIdx d c.val)) := exec_live (f := fun x => x.lockReached (chIdx d c.val)) rfl hr
theorem exec_lockTimeout (hr : s.runs) : exec (.lockTimeout d c) s = .next (s.lockTimeout (chIdx d c.val)) := exec_live (f := fun x => x.lockTimeout (chIdx d c.val)) rfl hr
theorem exec_lockLost (hr : s.runs) : exec (.lockLost d c) s = .next (s.lockLost (chIdx d c.val)) := exec_live (f := fun x => x.lockLost (chIdx d c.val)) rfl hr

end

/-- Settles O25: a due tune enters its chain; lock, its absence and its loss act on the chains of the LO, each once. -/
theorem tuningAndLock : Obligations.TuningAndLock := by
  unfold Obligations.TuningAndLock
  refine ⟨fun s d c p hr hg hp ha => ?_, fun s d c p ch dr mode losel fw ifofs pdly hr hg hp ha hd => ?_, fun s d c hr h => (exec_tuningCommit hr).trans (congrArg _ (tuningCommit_idle s _ h)),
    fun s d c hr hl ht => ?_, fun s d c hr hl ht => (exec_lockReached hr).trans (congrArg _ (lockReached_late s _ hl ht)), fun s d c hr hl ht hg => ?_,
    fun s d c hr hl ht => ?_, fun s d c hr h => (exec_lockTimeout hr).trans (congrArg _ (lockTimeout_idle s _ h)), fun s d c hr hl hk => ?_, fun s d c hr h => ?_⟩
  · obtain ⟨ch, dr, mode, losel, fw, ifofs, pdly, hd⟩ := tunesDue_desc hp
    refine ⟨tuneSide (s.chainSync (chIdx d c.val)) (chIdx d c.val) p pdly, (exec_tuningCommit hr).trans (congrArg _ ((tuningCommit_one s _ p hg hp).trans (tuneOne_delay hd ha))), ?_, tuneSide_chain _ _ _ _, ?_⟩
    · rw [tuneSide_frame]
      rfl
    · rintro m' l' f' o' y' c' r' h rfl
      obtain ⟨_, _, _, _, _, _, rfl⟩ := Desc.chainTune.inj (hd.symm.trans h)
      exact tuneSide_pdly _ _ _ _
  · obtain ⟨i, hi⟩ : ∃ i, i = chIdx d c.val := ⟨_, rfl⟩
    rw [← hi] at hp ⊢
    have un := retuned_unmet (s.chainNow i) mode losel fw ifofs
    refine ⟨_, (exec_tuningCommit hr).trans (congrArg _ (by rw [← hi])), tuningCommit_other hg hp ha hd, ?_⟩
    rcases tuningCommit_own hg hp ha hd with ⟨hs, e, gone⟩ | ⟨hs, e | ⟨e, peer⟩⟩
    · rw [e]
      exact ⟨rfl, rfl, rfl, rfl, un.1, un.2, fun _ => ⟨rfl, gone⟩, fun h => absurd h hs⟩
    · rw [e]
      exact ⟨rfl, rfl, rfl, rfl, un.1, un.2, fun h => absurd hs h, fun _ => ⟨rfl, rfl, .inl rfl⟩⟩
    · rw [e]
      exact ⟨rfl, rfl, rfl, rfl, (lockBit_cleared _).1.trans un.1, (lockBit_cleared _).2.trans un.2, fun h => absurd hs h, fun _ => ⟨rfl, rfl, .inr ⟨rfl, peer⟩⟩⟩
  · obtain ⟨i, hi⟩ : ∃ i, i = chIdx d c.val := ⟨_, rfl⟩
    rw [← hi] at hl ht ⊢
    refine ⟨_, (exec_lockReached hr).trans (congrArg _ (by rw [← hi, lockReached_settling s i hl ht])), lockSteps_frame s i, fun j hj => lockSteps_own s i j ?_, fun j hj => lockSteps_other s i j ?_⟩
    · refine List.mem_filter.mpr ?_
      rcases hj with rfl | ⟨hm, h1, h2⟩
      · exact ⟨mem_loChains_self s _, decide_eq_true ⟨hl, rfl⟩⟩
      · exact ⟨hm, decide_eq_true ⟨h1, h2⟩⟩
    · exact hj
  · exact ⟨_, exec_lockReached hr, fun q hq => tunesEnd_none s _ q (lockReached_locked_sub s _ hl ht hg q hq), (lockReached_locked_own s _ hl ht hg).1, (lockReached_locked_own s _ hl ht hg).2,
      lockReached_locked_other s _ hl ht hg, lockReached_locked_walk s _ hl ht hg⟩
  · obtain ⟨i, hi⟩ : ∃ i, i = chIdx d c.val := ⟨_, rfl⟩
    rw [← hi] at hl ht ⊢
    refine ⟨_, (exec_lockTimeout hr).trans (congrArg _ (by rw [← hi, lockTimeout_due s i hl ht])), ?_⟩
    have own : ((lockEnds s i).upFail i 2).chain i = _ := (upFail_chain _ _ _ _).trans (if_pos rfl)
    have ends := (lockEnds_chain s i i).trans (if_pos rfl)
    refine ⟨?_, ?_, ?_, fun j hj => ?_, lockEnds_status s i, lockEnds_none s i, lockEnds_alarmed s i⟩
    · rw [own, ends]
    · rw [own, ends]
    · rw [own, ends]
    · rw [upFail_chain, if_neg (Ne.symm hj), lockEnds_chain, if_neg (Ne.symm hj)]
  · obtain ⟨i, hi⟩ : ∃ i, i = chIdx d c.val := ⟨_, rfl⟩
    rw [← hi] at hl hk ⊢
    have run : running (s.chainNow i) = true := decide_eq_true ⟨hl, hk⟩
    obtain ⟨l, hll⟩ : ∃ l, l = (s.loChains i).filter (fun j => running (s.chainNow j)) := ⟨_, rfl⟩
    have nd : l.Nodup := hll ▸ (loChains_nodup s i).filter _
    refine ⟨_, (exec_lockLost hr).trans (congrArg _ (by rw [← hi, lockLost_running s i run, ← hll])), fun j hj => ?_, fun j hj => ?_, loseLocks_alarmed s i l⟩
    · have hm : j ∈ l := by
        rw [hll]
        refine List.mem_filter.mpr ?_
        rcases hj with rfl | ⟨hm, h1, h2⟩
        · exact ⟨mem_loChains_self s _, run⟩
        · exact ⟨hm, decide_eq_true ⟨h1, h2⟩⟩
      obtain ⟨hst, hlock, hat, hcal⟩ := (loseLocks_chain (s.chainSync i) l nd j).2 hm
      exact ⟨hst, hlock, hat, hcal, loseLocks_status _ l j hm, loseLocks_calRuns _ l j hm⟩
    · have hm : j ∉ l := fun h => hj (List.mem_filter.mp (hll ▸ h)).1
      have hji : ¬ i = j := fun e => hj (e ▸ mem_loChains_self s i)
      exact ((loseLocks_chain (s.chainSync i) l nd j).1 hm).trans ((chainSync_chain s i j).trans (if_neg hji))
  · refine (exec_lockLost hr).trans (congrArg _ (lockLost_idle s _ (decide_eq_false ?_)))
    rintro ⟨hl, hk⟩
    rcases h with h | h
    · exact h hl
    · omega

end Sys2Proof.Proofs
end

section
/-! SUPPORT. Chain walks and calibrations (R67 to R70, R74, R75). -/

namespace Sys2Proof.Proofs

open Sys2Proof.Machine Sys2Proof.Laws

/-! ## The end of a transition (R67, R70, Table 3-5) -/

/-- How long an entry to or an exit from TX_ON lasts. -/
def transNeed (c : Chain) (g : ChSt) : Nat := if g = .txOn then 18 * tus else if c.st = .txOn then 6 * tus else 0

/-- Chain i in the state its transition led to, before its walk goes on. -/
def arrived (s : State) (i : Nat) (g : ChSt) : State := ((s.chainSync i).updChain i (fun c => { c with trans := none })).moveChain i g

theorem chainTransitionEnd_due (s : State) (i t0 : Nat) (g : ChSt) (ht : (s.chainNow i).trans = some (g, t0)) (hd : t0 + transNeed (s.chainNow i) g ≤ s.now) (hg : g ≠ .synth ∨ 3 ≤ (s.chainNow i).st.rank) :
    s.chainTransitionEnd i = (arrived s i g).walkStep i (s.smpAtOrAfter chainBlk s.now) := by
  unfold State.chainTransitionEnd
  dsimp only
  rw [chainSync_own, ht]
  exact if_pos (hg.imp (⟨hd, ·⟩) (⟨hd, ·⟩))

theorem chainTransitionEnd_idle (s : State) (i : Nat) (h : (s.chainNow i).trans = none ∨ (∃ g t0, (s.chainNow i).trans = some (g, t0) ∧ s.now < t0)) : s.chainTransitionEnd i = s.chainSync i := by
  unfold State.chainTransitionEnd
  dsimp only
  rw [chainSync_own]
  rcases h with h | ⟨g, t0, h, hn⟩
  · rw [h]
  · rw [h]
    refine if_neg ?_
    rw [chainSync_now]
    rintro (⟨hd, _⟩ | ⟨hd, _⟩) <;> omega

theorem arrived_chain (s : State) (i : Nat) (g : ChSt) (j : Nat) : (arrived s i g).chain j =
    if i = j then { s.chainNow i with
      trans := none, st := g
      lock := if g = .standby ∧ 2 ≤ (s.chainNow i).st.rank then .none else (s.chainNow i).lock
      unmet := if (s.chainNow i).st = .sleep ∧ g ≠ .sleep then (s.chainNow i).unmet ||| 5 else (s.chainNow i).unmet
      done := if (s.chainNow i).st = .sleep ∧ g ≠ .sleep then (s.chainNow i).done &&& ~~~5 else (s.chainNow i).done } else s.chain j := by
  unfold arrived
  rw [moveChain_chain, updChain_chain, updChain_chain, if_pos rfl, chainSync_own]
  by_cases h : i = j
  · rw [if_pos h, if_pos h]
  · rw [if_neg h, if_neg h, if_neg h, chainSync_other s i j (Ne.symm h)]

theorem walkStep_idle (s : State) (i t : Nat) (h : (s.chain i).walk = none) : s.walkStep i t = s := by
  unfold State.walkStep
  dsimp only
  rw [h]

theorem arrival_frame (s : State) (i : Nat) (g : ChSt) (n : Nat) : (arrived s i g).walkStep i n = { s with
    hif := ((arrived s i g).walkStep i n).hif, intc := ((arrived s i g).walkStep i n).intc, recd := ((arrived s i g).walkStep i n).recd
    rfe := { s.rfe with chains := ((arrived s i g).walkStep i n).rfe.chains }, slots := ((arrived s i g).walkStep i n).slots, cx := ((arrived s i g).walkStep i n).cx } := by
  have k : Kept { hif := true, intc := true, recd := true, rfe := true, slots := true, cx := true } s ((arrived s i g).walkStep i n) :=
    Kept.walkStep (Kept.moveChain (Kept.updChain (Kept.chainSync (Kept.refl _ s))))
  have r : RfeChains s ((arrived s i g).walkStep i n) := (chainSync_rfeChains s i).trans ((updChain_rfeChains _ i _).trans ((moveChain_rfeChains _ i g).trans (walkStep_rfeChains _ i n)))
  generalize (arrived s i g).walkStep i n = t at k r
  unfold RfeChains at r
  rw [← r]
  exact k.frame

/-! ## A held CHAIN_STATE (R69) -/

/-- Chain i is through its transient, and no CAL_RUN older than the held descriptor is outstanding. -/
def heldDue (s : State) (i : Nat) (p : Pend) : Prop :=
  (s.chainNow i).walk = none ∧ (s.chainNow i).trans = none ∧ (s.chainNow i).lock ≠ .settling ∧ (s.chainNow i).cal = none ∧ p.acc < s.now ∧ s.pends (fun q => isCalRun i q && decide (q.id < p.id)) = []

theorem chainHeldStart_due (s : State) (i : Nat) (p : Pend) (r : List Pend) (hp : s.heldStates i = p :: r) (hg : s.onSmp chainBlk = true) (h : heldDue s i p) :
    s.chainHeldStart i = if (s.chainNow i).st = p.target then (s.chainSync i).complete p .ok 0 0
      else if 3 ≤ (chNext (s.chainNow i).st p.target).rank ∧ ((s.chainNow i).lock ≠ .locked ∨ (s.chainNow i).unmet ≠ 0) then (s.chainSync i).complete p .refusedState 0 0
      else (s.chainSync i).walkBegin i p s.now := by
  obtain ⟨hw, ht, hl, hc, ha, hq⟩ := h
  have hp' : (s.chainSync i).heldStates i = p :: r := hp
  have hg' : (s.chainSync i).onSmp chainBlk = true := hg
  have hq' : (s.chainSync i).pends (fun q => isCalRun i q && decide (q.id < p.id)) = [] := hq
  unfold State.chainHeldStart
  dsimp only
  rw [hp', chainSync_own, List.head?_cons]
  dsimp only
  rw [hg', hq', chainSync_now, decide_eq_true ⟨hw, ht, hl, hc, ha⟩]
  rfl

theorem chainHeldStart_idle (s : State) (i : Nat) (h : s.heldStates i = [] ∨ s.onSmp chainBlk = false) : s.chainHeldStart i = s.chainSync i := by
  unfold State.chainHeldStart
  dsimp only
  split
  · rename_i p hp
    rcases h with h | h
    · have h' : (s.chainSync i).heldStates i = [] := h
      rw [h'] at hp
      exact absurd hp (by simp)
    · have h' : (s.chainSync i).onSmp chainBlk = false := h
      rw [h']
      rfl
  · rfl

theorem walkBegin_own (s : State) (i : Nat) (p : Pend) (t : Nat) : (s.walkBegin i p t).chain i = { s.chain i with walk := some (p.id, p.target), trans := some (chNext (s.chain i).st p.target, t) } := State.chain_updChain _ _ _

theorem walkBegin_other (s : State) (i : Nat) (p : Pend) (t j : Nat) (h : j ≠ i) : (s.walkBegin i p t).chain j = s.chain j := State.chain_updChain_ne _ _ _ _ (Ne.symm h)

theorem walkBegin_frame (s : State) (i : Nat) (p : Pend) (t : Nat) : (s.chainSync i).walkBegin i p t = { s with
    rfe := { s.rfe with chains := ((s.chainSync i).walkBegin i p t).rfe.chains }, hif := { s.hif with outstanding := s.hif.outstanding.map (fun q => if q.id = p.id then { q with aux := 1, start := t } else q) } } := rfl

/-! ## Calibrations (R74, R75) -/

/-- The oldest ready CAL_RUN of chain i's tile. -/
def calNext (s : State) (i : Nat) : Option Pend := ((s.chainSync i).pends (fun p => isTileCal (chTile i) p && !p.committed && decide (p.acc < s.now))).find? (fun p => (s.chainSync i).calReady p.calChain)

/-- The chains of chain i's tile that calibrate. -/
def calBusy (s : State) (i : Nat) : List Nat := (List.range 64).filter (fun j => decide (chTile j = chTile i ∧ ((s.chainSync i).chain j).cal ≠ none))

/-- A calibration of chain i starts. -/
def calBegun (s : State) (i : Nat) (p : Pend) : State := ((s.chainSync i).updChain i (fun c => { c with cal := some (p.id, calFirst p.aux, s.now) })).updPend p.id (fun r => { r with committed := true, start := s.now })

theorem calStart_due (s : State) (i : Nat) (p : Pend) (hg : s.onSmp chainBlk = true) (hp : calNext s i = some p) (hi : p.calChain = i) (hb : (calBusy s i).length < 4) : s.calStart i = calBegun s i p := by
  unfold State.calStart
  dsimp only
  unfold calNext at hp
  rw [chainSync_now, hp]
  exact if_pos ⟨hi, hg, hb⟩

theorem calStart_idle (s : State) (i : Nat) (hg : s.onSmp chainBlk = false) : s.calStart i = s.chainSync i := by
  unfold State.calStart
  dsimp only
  split
  · refine if_neg ?_
    rintro ⟨_, h, _⟩
    exact Bool.noConfusion (hg.symm.trans h)
  · rfl

theorem calBegun_own (s : State) (i : Nat) (p : Pend) : (calBegun s i p).chain i = { s.chainNow i with cal := some (p.id, calFirst p.aux, s.now) } :=
  (State.chain_updChain _ _ _).trans (congrArg (fun c : Chain => { c with cal := some (p.id, calFirst p.aux, s.now) }) (chainSync_own s i))

theorem calBegun_other (s : State) (i : Nat) (p : Pend) (j : Nat) (h : j ≠ i) : (calBegun s i p).chain j = s.chain j := (State.chain_updChain_ne _ _ _ _ (Ne.symm h)).trans (chainSync_other s i j h)

theorem calBegun_frame (s : State) (i : Nat) (p : Pend) : calBegun s i p = { s with
    rfe := { s.rfe with chains := (calBegun s i p).rfe.chains }, hif := { s.hif with outstanding := s.hif.outstanding.map (fun q => if q.id = p.id then { q with committed := true, start := s.now } else q) } } := rfl

/-- A chain with one calibration's result. -/
def calScored (c : Chain) (b : Nat) (ok : Bool) (figure : Byte) : Chain := { c with
  imgDb := if b = 3 then figure else c.imgDb, resid := if b = 0 then figure else c.resid
  unmet := if ok then c.unmet &&& ~~~(BitVec.twoPow 4 b) else c.unmet, done := if ok then c.done ||| BitVec.twoPow 4 b else c.done, fail := if ok then c.fail &&& ~~~(BitVec.twoPow 4 b) else c.fail ||| BitVec.twoPow 4 b }

/-- The chain's part of a result. -/
def calMarked (s : State) (i b : Nat) (ok : Bool) (figure : Byte) : State := s.updChain i (fun c => calScored c b ok figure)

theorem calResult_passed (s : State) (i b : Nat) (figure : Byte) : s.calResult i b true figure = calMarked s i b true figure := by
  unfold State.calResult calMarked calScored
  dsimp only
  rw [if_pos rfl]

theorem calResult_failed (s : State) (i b : Nat) (figure : Byte) : s.calResult i b false figure = (calMarked s i b false figure).raise (6 + chTile i) 5 (chScope i) := by
  unfold State.calResult calMarked calScored
  dsimp only
  rw [if_neg Bool.noConfusion]

theorem calResult_chain (s : State) (i b : Nat) (ok : Bool) (figure : Byte) (j : Nat) : (s.calResult i b ok figure).chain j = if i = j then calScored (s.chain i) b ok figure else s.chain j := by
  cases ok with
  | true =>
    rw [calResult_passed]
    exact updChain_chain s i _ j
  | false =>
    rw [calResult_failed, raise_chain]
    exact updChain_chain s i _ j

theorem calResult_status (s : State) (i b : Nat) (figure : Byte) : ((s.calResult i b false figure).fsrc (16 * (6 + chTile i) + 5)).status = true := by
  rw [calResult_failed]
  exact State.raise_status _ _ _ _

theorem calResult_rfeChains (s : State) (i b : Nat) (ok : Bool) (figure : Byte) : RfeChains s (s.calResult i b ok figure) := by
  have h : RfeChains s (calMarked s i b ok figure) := updChain_rfeChains s i _
  cases ok with
  | true =>
    rw [calResult_passed]
    exact h
  | false =>
    rw [calResult_failed]
    exact h.trans (raise_rfeChains _ _ _ _)

theorem calResult_alarmed (s : State) (i b : Nat) (ok : Bool) (figure : Byte) : AlarmedRfe s (s.calResult i b ok figure) := by
  have h : AlarmedRfe s (calMarked s i b ok figure) := (AlarmedRfe.refl s).updChain i _
  cases ok with
  | true =>
    rw [calResult_passed]
    exact h
  | false =>
    rw [calResult_failed]
    exact h.raise _ _ _

/-- The calibrations a CAL_RUN has left after calibration b. -/
def calRest (s : State) (id b : Nat) : Nat := ((s.pend? id).map (fun p => p.aux - 2 ^ b)).getD 0

/-- Chain i and its CAL_RUN after a calibration's result, before the next one. -/
def calNoted (s : State) (i id b : Nat) (ok : Bool) (figure : Byte) : State := ((s.chainSync i).calResult i b ok figure).updPend id (fun p => { p with aux := calRest s id b })

/-- The CAL_RUN ends. -/
def calRunDone (s : State) (i id b : Nat) (ok : Bool) (figure : Byte) : State := ((calNoted s i id b ok figure).updChain i (fun c => { c with cal := none })).completeId id .ok 0 0

section
variable {s : State} {i id b t0 : Nat} {pass : Bool} {figure : Byte}

theorem calEnd_eq (hc : (s.chainNow i).cal = some (id, b, t0)) (ht : t0 < s.now) : s.calEnd i pass figure =
    if calRest s id b ≠ 0 then (calNoted s i id b (calPassed b pass figure) figure).updChain i (fun c => { c with cal := some (id, calFirst (calRest s id b), s.now) })
    else if ((calRunDone s i id b (calPassed b pass figure) figure).chain i).unmet ≠ 0 ∧ !(calRunDone s i id b (calPassed b pass figure) figure).calCovers i then
      (calRunDone s i id b (calPassed b pass figure) figure).completeAll (fun p => isChainState i p && decide (p.aux = 0 ∧ 3 ≤ p.target.rank)) .refusedState
    else calRunDone s i id b (calPassed b pass figure) figure := by
  unfold State.calEnd
  dsimp only
  rw [chainSync_own, hc]
  dsimp only
  rw [if_neg (by rw [chainSync_now]; omega)]
  rfl

end

theorem calNoted_chain (s : State) (i id b : Nat) (ok : Bool) (figure : Byte) (j : Nat) : (calNoted s i id b ok figure).chain j = if i = j then calScored (s.chainNow i) b ok figure else s.chain j := by
  have h : (calNoted s i id b ok figure).chain j = ((s.chainSync i).calResult i b ok figure).chain j := rfl
  rw [h, calResult_chain, chainSync_own]
  by_cases e : i = j
  · rw [if_pos e, if_pos e]
  · rw [if_neg e, if_neg e, chainSync_other s i j (Ne.symm e)]

/-- A chain after its calibration: the result, and the next calibration where one is left. -/
def calAfter (s : State) (i id b : Nat) (ok : Bool) (figure : Byte) : Chain :=
  { calScored (s.chainNow i) b ok figure with cal := if calRest s id b ≠ 0 then some (id, calFirst (calRest s id b), s.now) else none }

theorem calNoted_rfeChains (s : State) (i id b : Nat) (ok : Bool) (figure : Byte) : RfeChains s (calNoted s i id b ok figure) := (chainSync_rfeChains s i).trans (calResult_rfeChains _ i b ok figure)

theorem calNoted_alarmed (s : State) (i id b : Nat) (ok : Bool) (figure : Byte) : AlarmedRfe s (calNoted s i id b ok figure) :=
  (((AlarmedRfe.refl s).chainSync i).trans (calResult_alarmed _ i b ok figure)).updPend _ _

theorem calNoted_status (s : State) (i id b : Nat) (figure : Byte) : ((calNoted s i id b false figure).fsrc (16 * (6 + chTile i) + 5)).status = true := by
  have h := calResult_status (s.chainSync i) i b figure
  unfold calNoted
  generalize (s.chainSync i).calResult i b false figure = u at h ⊢
  exact h

/-- CAL_END goes on to the next calibration, or ends the CAL_RUN and, it may be, what was held on it. -/
theorem calEnd_cases (s : State) (i id b t0 : Nat) (pass : Bool) (figure : Byte) (hc : (s.chainNow i).cal = some (id, b, t0)) (ht : t0 < s.now) :
    calRest s id b ≠ 0 ∧ s.calEnd i pass figure = (calNoted s i id b (calPassed b pass figure) figure).updChain i (fun c => { c with cal := some (id, calFirst (calRest s id b), s.now) }) ∨
    calRest s id b = 0 ∧ (s.calEnd i pass figure = calRunDone s i id b (calPassed b pass figure) figure ∨
      ∃ f, s.calEnd i pass figure = (calRunDone s i id b (calPassed b pass figure) figure).completeAll f .refusedState) := by
  rw [calEnd_eq hc ht]
  by_cases hr : calRest s id b ≠ 0
  · rw [if_pos hr]
    exact .inl ⟨hr, rfl⟩
  · rw [if_neg hr]
    refine .inr ⟨not_not.mp hr, ?_⟩
    split
    · exact .inr ⟨_, rfl⟩
    · exact .inl rfl

section
variable {s : State} {i id b t0 : Nat} {pass : Bool} {figure : Byte} (hc : (s.chainNow i).cal = some (id, b, t0)) (ht : t0 < s.now)
include hc ht

theorem calEnd_chain (j : Nat) : (s.calEnd i pass figure).chain j = if i = j then calAfter s i id b (calPassed b pass figure) figure else s.chain j := by
  have done : calRest s id b = 0 → (calRunDone s i id b (calPassed b pass figure) figure).chain j = if i = j then calAfter s i id b (calPassed b pass figure) figure else s.chain j := fun hr => by
    unfold calRunDone calAfter
    rw [completeId_chain, updChain_chain, calNoted_chain, calNoted_chain, if_pos rfl, if_neg (not_not.mpr hr)]
    by_cases e : i = j
    · rw [if_pos e, if_pos e]
    · rw [if_neg e, if_neg e, if_neg e]
  rcases calEnd_cases s i id b t0 pass figure hc ht with ⟨hr, e⟩ | ⟨hr, e | ⟨f, e⟩⟩
  · rw [e, updChain_chain, calNoted_chain, calNoted_chain, if_pos rfl]
    unfold calAfter
    rw [if_pos hr]
    by_cases e : i = j
    · rw [if_pos e, if_pos e]
    · rw [if_neg e, if_neg e, if_neg e]
  · rw [e, done hr]
  · rw [e, completeAll_chain, done hr]

theorem calEnd_gone (hr : calRest s id b = 0) : ∀ q ∈ (s.calEnd i pass figure).hif.outstanding, q.id ≠ id := by
  have done : ∀ q ∈ (calRunDone s i id b (calPassed b pass figure) figure).hif.outstanding, q.id ≠ id := by
    intro q hq
    unfold calRunDone at hq
    rw [completeId_outstanding, List.mem_filter, decide_eq_true_eq] at hq
    exact hq.2
  rcases calEnd_cases s i id b t0 pass figure hc ht with ⟨h, _⟩ | ⟨_, e | ⟨f, e⟩⟩
  · exact absurd hr h
  · rw [e]
    exact done
  · rw [e]
    exact fun q hq => done q (completeAll_sub _ _ _ q hq)

theorem calEnd_calm : Calm noTol (calNoted s i id b (calPassed b pass figure) figure) (s.calEnd i pass figure) := by
  have k := Calm.refl noTol (calNoted s i id b (calPassed b pass figure) figure)
  rcases calEnd_cases s i id b t0 pass figure hc ht with ⟨_, e⟩ | ⟨_, e | ⟨f, e⟩⟩
  · rw [e]
    exact Calm.updChain k
  · rw [e]
    exact Calm.completeId (Calm.updChain k)
  · rw [e]
    exact Calm.completeAll (Calm.completeId (Calm.updChain k))

theorem calEnd_status (h : calPassed b pass figure = false) : ((s.calEnd i pass figure).fsrc (16 * (6 + chTile i) + 5)).status = true := by
  have k := calEnd_calm (pass := pass) (figure := figure) hc ht
  rw [h] at k
  exact k.stat rfl _ (calNoted_status s i id b figure)

theorem calEnd_alarmed : AlarmedRfe s (s.calEnd i pass figure) := by
  have k := calNoted_alarmed s i id b (calPassed b pass figure) figure
  rcases calEnd_cases s i id b t0 pass figure hc ht with ⟨_, e⟩ | ⟨_, e | ⟨f, e⟩⟩
  · rw [e]
    exact k.updChain _ _
  · rw [e]
    exact (k.updChain _ _).completeId _ _ _ _
  · rw [e]
    exact ((k.updChain _ _).completeId _ _ _ _).completeAll _ _

theorem calEnd_rfeChains : RfeChains s (s.calEnd i pass figure) := by
  have k := calNoted_rfeChains s i id b (calPassed b pass figure) figure
  rcases calEnd_cases s i id b t0 pass figure hc ht with ⟨_, e⟩ | ⟨_, e | ⟨f, e⟩⟩
  · rw [e]
    exact k.trans (updChain_rfeChains _ i _)
  · rw [e]
    exact k.trans ((updChain_rfeChains _ i _).trans (completeId_rfeChains _ _ _ _ _))
  · rw [e]
    exact (k.trans ((updChain_rfeChains _ i _).trans (completeId_rfeChains _ _ _ _ _))).trans (completeAll_rfeChains _ _ _)

end

theorem calRest_of {s : State} {id : Nat} {p : Pend} (h : s.pend? id = some p) (b : Nat) : calRest s id b = p.aux - 2 ^ b := by
  unfold calRest
  rw [h]
  rfl

/-- A passed calibration clears its bit in UNMET and FAIL and sets it in DONE. -/
theorem calScored_passed (c : Chain) (b : Nat) (hb : b < 4) (figure : Byte) :
    (calScored c b true figure).unmet.getLsbD b = false ∧ (calScored c b true figure).done.getLsbD b = true ∧ (calScored c b true figure).fail.getLsbD b = false := by
  simp [calScored, hb]

theorem calScored_failed (c : Chain) (b : Nat) (hb : b < 4) (figure : Byte) : (calScored c b false figure).unmet = c.unmet ∧ (calScored c b false figure).fail.getLsbD b = true := by
  simp [calScored, hb]

theorem calEnd_idle (s : State) (i : Nat) (pass : Bool) (figure : Byte) (hc : (s.chainNow i).cal = none) : s.calEnd i pass figure = s.chainSync i := by
  unfold State.calEnd
  dsimp only
  rw [chainSync_own, hc]

section
variable {s : State} {d : Dir} {c : Fin 32}

theorem exec_chainTransitionEnd (hr : s.runs) : exec (.chainTransitionEnd d c) s = .next (s.chainTransitionEnd (chIdx d c.val)) := exec_live (f := fun x => x.chainTransitionEnd (chIdx d c.val)) rfl hr
theorem exec_chainStateHeldStart (hr : s.runs) : exec (.chainStateHeldStart d c) s = .next (s.chainHeldStart (chIdx d c.val)) := exec_live (f := fun x => x.chainHeldStart (chIdx d c.val)) rfl hr
theorem exec_calStart (hr : s.runs) : exec (.calStart d c) s = .next (s.calStart (chIdx d c.val)) := exec_live (f := fun x => x.calStart (chIdx d c.val)) rfl hr
theorem exec_calEnd {pass : Bool} {figure : Byte} (hr : s.runs) : exec (.calEnd d c pass figure) s = .next (s.calEnd (chIdx d c.val) pass figure) := exec_live (f := fun x => x.calEnd (chIdx d c.val) pass figure) rfl hr

end

/-- Settles O26: a transition, a held CHAIN_STATE and a calibration act on their own chain, and the walk or the CAL_RUN goes on from there. -/
theorem walksAndCalibrations : Obligations.WalksAndCalibrations := by
  unfold Obligations.WalksAndCalibrations
  refine ⟨fun s d c g t0 hr ht hd hg => ?_, fun s d c hr h => (exec_chainTransitionEnd hr).trans (congrArg _ (chainTransitionEnd_idle s _ h)), fun s d c p r hr hp hg hw ht hl hc ha hq => ?_,
    fun s d c hr h => (exec_chainStateHeldStart hr).trans (congrArg _ (chainHeldStart_idle s _ h)), fun s d c p hr hg hp hi hb => ?_, fun s d c hr hg => (exec_calStart hr).trans (congrArg _ (calStart_idle s _ hg)),
    fun s d c pass fig id b t0 hr hc ht hb => ?_, fun s d c pass fig hr hc => (exec_calEnd hr).trans (congrArg _ (calEnd_idle s _ pass fig hc))⟩
  · obtain ⟨i, hi⟩ : ∃ i, i = chIdx d c.val := ⟨_, rfl⟩
    rw [← hi] at ht hd hg ⊢
    have own := (arrived_chain s i g i).trans (if_pos rfl)
    refine ⟨_, (exec_chainTransitionEnd hr).trans (congrArg _ (by rw [← hi, chainTransitionEnd_due s i t0 g ht hd hg])), ?_, fun j hj => ?_, fun h1 h2 => ?_, fun h1 h2 => ?_, fun hw => ?_, fun id hw => ?_, fun id g' hw hne hn => ?_, arrival_frame s i g _⟩
    · rw [walkStep_own, own]
    · rw [walkStep_ne _ _ _ _ hj, arrived_chain, if_neg (Ne.symm hj)]
    · rw [walkStep_own, own]
      exact if_pos ⟨h1, h2⟩
    · rw [walkStep_own, own]
      exact if_pos ⟨h1, h2⟩
    · rw [walkStep_idle _ _ _ (by rw [own]; exact hw), own]
    · obtain ⟨h1, h2, h3⟩ := walkStep_done (arrived s i g) i (s.smpAtOrAfter chainBlk s.now) id (by rw [own]; exact hw)
      exact ⟨h1, h2.trans (by rw [own]), h3⟩
    · have e := walkStep_next (arrived s i g) i (s.smpAtOrAfter chainBlk s.now) id g' (by rw [own]; exact hw) (by rw [own]; exact hne) (by rw [own]; exact hn)
      rw [e, own]
  · obtain ⟨i, hi⟩ : ∃ i, i = chIdx d c.val := ⟨_, rfl⟩
    rw [← hi] at hp hw ht hl hc hq ⊢
    have e := chainHeldStart_due s i p r hp hg ⟨hw, ht, hl, hc, ha, hq⟩
    have ex : exec (.chainStateHeldStart d c) s = .next (s.chainHeldStart i) := hi ▸ exec_chainStateHeldStart hr
    refine ⟨fun hs => ?_, fun hs h3 h4 => ?_, fun hs h => ?_⟩
    · rw [ex, e, if_pos hs]
    · rw [ex, e, if_neg hs, if_pos ⟨h3, h4⟩]
    · have hn : ¬ (3 ≤ (chNext (s.chainNow i).st p.target).rank ∧ ((s.chainNow i).lock ≠ .locked ∨ (s.chainNow i).unmet ≠ 0)) := by
        rintro ⟨h3, h4⟩
        rcases h with h | ⟨h5, h6⟩
        · omega
        · exact h4.elim (fun x => x h5) (fun x => x h6)
      rw [if_neg hs, if_neg hn] at e
      refine ⟨_, ex.trans (congrArg _ e), ?_, fun j hj => (walkBegin_other _ i p _ j hj).trans (chainSync_other s i j hj), walkBegin_frame s i p s.now⟩
      rw [walkBegin_own, chainSync_own]
  · exact ⟨_, (exec_calStart hr).trans (congrArg _ (calStart_due s _ p hg hp hi hb)), calBegun_own s _ p, calBegun_other s _ p, calBegun_frame s _ p⟩
  · obtain ⟨i, hi⟩ : ∃ i, i = chIdx d c.val := ⟨_, rfl⟩
    rw [← hi] at hc ⊢
    have own := (calEnd_chain (pass := pass) (figure := fig) hc ht i).trans (if_pos rfl)
    refine ⟨_, (exec_calEnd hr).trans (congrArg _ (by rw [← hi])), fun j hj => (calEnd_chain hc ht j).trans (if_neg (Ne.symm hj)), ?_, fun h => ?_, fun h => ?_, fun h => ?_, fun h => ?_, fun p hp hn => ?_, fun p hp h0 => ?_, ?_⟩
    · rw [own]
      rfl
    · rw [own]
      exact if_pos h
    · rw [own]
      exact if_pos h
    · rw [own, h]
      exact calScored_passed _ b hb fig
    · obtain ⟨h1, h2⟩ := calScored_failed (s.chainNow i) b hb fig
      refine ⟨?_, ?_, calEnd_status hc ht h⟩
      · rw [own, h]
        exact h1
      · rw [own, h]
        exact h2
    · rw [own, calAfter, calRest_of hp b]
      exact if_pos hn
    · refine ⟨?_, calEnd_gone hc ht ((calRest_of hp b).trans h0)⟩
      rw [own, calAfter, calRest_of hp b]
      exact if_neg (not_not.mpr h0)
    · have r := calEnd_rfeChains (pass := pass) (figure := fig) hc ht
      unfold RfeChains at r
      rw [← r]
      exact calEnd_alarmed hc ht

end Sys2Proof.Proofs
end

section
/-! SUPPORT. Front-end frames, power steps and power tables (R86 to R91). -/

namespace Sys2Proof.Proofs

open Sys2Proof.Machine Sys2Proof.Laws

/-! ## The start of a frame (R87, R91) -/

theorem frameBits_power {s : State} {b : Nat} {q : Frame} {a : PwrAsk} (h : q.kind = .power a) : (s.frameBits b q).2 = some (a.target (s.txc q.chain).base) := by
  unfold State.frameBits
  rw [h]

theorem frameBits_other {s : State} {b : Nat} {q : Frame} (h : ∀ a, q.kind ≠ .power a) : (s.frameBits b q).2 = none := by
  unfold State.frameBits
  cases hk : q.kind with
  | power a => exact absurd hk (h a)
  | tuner w => rfl
  | raw x l => rfl

/-- The picked frame off its queue. -/
def frameTaken (s : State) (b : Nat) (q : Frame) : State := s.updFecb b (fun x => { x with queue := dropFrame q x.queue })

/-- The end of a frame that starts now. -/
def frameEndAt (s : State) (b : Nat) (q : Frame) : Nat := s.now + (s.fecb b).frameTime (q.len (s.fecb b))

/-- The picked frame on the bus. -/
def frameOnBus (s : State) (b : Nat) (q : Frame) : State := (frameTaken s b q).updFecb b (fun x => { x with cur := some (q, (s.frameBits b q).1, frameEndAt s b q) })

/-- Its descriptor commits. -/
def frameOwned (s : State) (b : Nat) (q : Frame) : State :=
  match q.id with
  | some id => (frameOnBus s b q).updPend id (fun p => { p with committed := true, start := s.now })
  | none => frameOnBus s b q

/-- A power frame commits its step. -/
def frameStepped (s : State) (b : Nat) (q : Frame) : State :=
  match (s.frameBits b q).2 with
  | some i => (frameOwned s b q).updTx q.chain (fun x => { x with steps := x.steps ++ [{ index := i, at_ := s.sampleAfter (frameEndAt s b q + x.paDly), id := q.id }] })
  | none => frameOwned s b q

/-- A device frame that starts after its scheduled time raises FECB_LATE. -/
def frameStarted (s : State) (b : Nat) (q : Frame) : State :=
  match q.sched with
  | some t => if t < s.now then (frameStepped s b q).raise (6 + b / 2) 7 (.tile (b / 2)) else frameStepped s b q
  | none => frameStepped s b q

section
variable {s : State} {b : Nat} {q : Frame}

theorem frameStart_idle (h : (s.fecb b).cur ≠ none ∨ (s.fecb b).pick s.now = none ∨ s.now < (s.fecb b).freeAt) : s.frameStart b = s := by
  unfold State.frameStart
  dsimp only
  split
  · rename_i hc hp
    rcases h with h | h | h
    · exact absurd hc h
    · exact absurd (h.symm.trans hp) (by simp)
    · exact if_pos h
  · rfl

section
variable (hc : (s.fecb b).cur = none) (hp : (s.fecb b).pick s.now = some q) (hf : (s.fecb b).freeAt ≤ s.now)
include hc hp hf

theorem frameStart_barred {a : PwrAsk} {id : Nat} (hk : q.kind = .power a) (hi : q.id = some id) (hb : s.raiseBarred q.chain (a.target (s.txc q.chain).base) = true) :
    s.frameStart b = (frameTaken s b q).completeId id .refusedState 0 0 := by
  unfold State.frameStart
  dsimp only
  rw [hc, hp]
  dsimp only
  rw [if_neg (by omega), frameBits_power hk, hi]
  exact if_pos hb

theorem frameStart_runs (hb : ∀ a id, q.kind = .power a → q.id = some id → s.raiseBarred q.chain (a.target (s.txc q.chain).base) = false) : s.frameStart b = frameStarted s b q := by
  have bar : ∀ i id, (s.frameBits b q).2 = some i → q.id = some id → s.raiseBarred q.chain i = false := by
    intro i id h hi
    by_cases hk : ∃ a, q.kind = .power a
    · obtain ⟨a, hk⟩ := hk
      rw [frameBits_power hk] at h
      exact Option.some.inj h ▸ hb a id hk hi
    · rw [frameBits_other (fun a e => hk ⟨a, e⟩)] at h
      exact absurd h (by simp)
  unfold State.frameStart
  dsimp only
  rw [hc, hp]
  dsimp only
  rw [if_neg (by omega)]
  refine (if_neg ?_).trans ?_
  · intro h
    split at h
    · rename_i i id h2 hi
      rw [bar i id h2 hi] at h
      exact Bool.noConfusion h
    · exact Bool.noConfusion h
  · rfl

end

theorem frameOnBus_fecb (j : Nat) : (frameOnBus s b q).fecb j = if b = j then { s.fecb b with queue := dropFrame q (s.fecb b).queue, cur := some (q, (s.frameBits b q).1, frameEndAt s b q) } else s.fecb j := by
  unfold frameOnBus frameTaken
  rw [fecb_updFecb_at, fecb_updFecb_at, fecb_updFecb_at, if_pos rfl]
  by_cases h : b = j
  · rw [if_pos h, if_pos h]
  · rw [if_neg h, if_neg h, if_neg h]

theorem frameOwned_rfe : (frameOwned s b q).rfe = (frameOnBus s b q).rfe := by
  unfold frameOwned
  split
  · rfl
  · rfl

theorem frameStepped_fecb (j : Nat) : (frameStepped s b q).fecb j = (frameOnBus s b q).fecb j := by
  unfold frameStepped
  split
  · exact fecb_of (a := frameOnBus s b q) (b := frameOwned s b q) frameOwned_rfe j
  · exact fecb_of frameOwned_rfe j

theorem frameStepped_chain (j : Nat) : (frameStepped s b q).chain j = s.chain j := by
  unfold frameStepped
  split
  · exact chain_of (a := frameOnBus s b q) (b := frameOwned s b q) frameOwned_rfe j
  · exact chain_of (a := frameOnBus s b q) frameOwned_rfe j

theorem frameStepped_power {a : PwrAsk} (h : q.kind = .power a) (j : Nat) : (frameStepped s b q).txc j = if q.chain = j then { s.txc q.chain with steps := (s.txc q.chain).steps ++
    [{ index := a.target (s.txc q.chain).base, at_ := s.sampleAfter (frameEndAt s b q + (s.txc q.chain).paDly), id := q.id }] } else s.txc j := by
  have tx : ∀ j, (frameOwned s b q).txc j = s.txc j := fun j => txc_of (a := frameOnBus s b q) frameOwned_rfe j
  unfold frameStepped
  rw [frameBits_power h]
  dsimp only
  rw [txc_updTx_at, tx, tx]

theorem frameStepped_other (h : ∀ a, q.kind ≠ .power a) (j : Nat) : (frameStepped s b q).txc j = s.txc j := by
  unfold frameStepped
  rw [frameBits_other h]
  exact txc_of (a := frameOnBus s b q) frameOwned_rfe j

theorem frameStepped_flt : (frameStepped s b q).flt = s.flt := by
  have e : (frameOwned s b q).flt = s.flt := by
    unfold frameOwned
    split
    · rfl
    · rfl
  unfold frameStepped
  split
  · exact e
  · exact e

theorem frameStepped_alarmed : AlarmedRfe s (frameStepped s b q) := by
  have on : AlarmedRfe s (frameOnBus s b q) := ((AlarmedRfe.refl s).updFecb b _).updFecb b _
  have owned : AlarmedRfe s (frameOwned s b q) := by
    unfold frameOwned
    split
    · exact on.updPend _ _
    · exact on
  unfold frameStepped
  split
  · exact owned.updTx _ _
  · exact owned

theorem frameStarted_alarm : (frameStepped s b q).alarmed (frameStarted s b q) := by
  unfold frameStarted
  split
  · exact State.alarmed_ite (State.alarmed_raise (State.alarmed_refl _)) (State.alarmed_refl _)
  · exact State.alarmed_refl _

theorem frameStarted_late {d : Nat} (hs : q.sched = some d) (hd : d < s.now) : ((frameStarted s b q).fsrc (16 * (6 + b / 2) + 7)).status = true := by
  unfold frameStarted
  rw [hs]
  dsimp only
  rw [if_pos hd]
  exact State.raise_status _ _ _ _

theorem frameStarted_host (hs : q.sched = none) : frameStarted s b q = frameStepped s b q := by
  unfold frameStarted
  rw [hs]

end

/-! ## The end of a frame (R86 to R88) -/

/-- The bus after a frame. -/
def busFreed (s : State) (b e : Nat) : State := s.updFecb b (fun x => { x with cur := none, freeAt := e + x.gap * x.sck })

/-- A descriptor, where there is one, ends OK. -/
def endOk (u : State) (id : Option Nat) (res : Word) : State := match id with | some id => u.completeId id .ok res 0 | none => u

theorem endOk_kept {p : Part} {a u : State} (h : Kept p a u) (hp : Part.sub { hif := true, intc := true, recd := true } p = true) (id : Option Nat) (res : Word) : Kept p a (endOk u id res) := by
  unfold endOk
  split
  · exact Kept.completeId h hp
  · exact h

theorem endOk_rfe (u : State) (id : Option Nat) (res : Word) : (endOk u id res).rfe = u.rfe := (endOk_kept (p := { hif := true, intc := true, recd := true }) (Kept.refl _ u) rfl id res).rfe rfl

theorem endOk_gone (u : State) (id : Nat) (res : Word) : ∀ q ∈ (endOk u (some id) res).hif.outstanding, q.id ≠ id := by
  intro q hq
  have h : q ∈ (u.completeId id .ok res 0).hif.outstanding := hq
  rw [completeId_outstanding, List.mem_filter, decide_eq_true_eq] at h
  exact h.2

section
variable {s : State} {b e : Nat} {sdi : BitVec 24} {q : Frame} {w : BitVec 24}

theorem frameEnd_idle (h : (s.fecb b).cur = none ∨ (∃ q w e, (s.fecb b).cur = some (q, w, e) ∧ s.now < e)) : s.frameEnd b sdi = s := by
  unfold State.frameEnd
  dsimp only
  rcases h with h | ⟨q, w, e, h, hn⟩
  · rw [h]
  · rw [h]
    exact if_pos hn

section
variable (hc : (s.fecb b).cur = some (q, w, e)) (he : e ≤ s.now)
include hc he

theorem frameEnd_power {a : PwrAsk} (hk : q.kind = .power a) : s.frameEnd b sdi = busFreed s b e := by
  unfold State.frameEnd
  dsimp only
  rw [hc]
  dsimp only
  rw [if_neg (by omega), hk]
  rfl

theorem frameEnd_tuner {x : Byte} (hk : q.kind = .tuner x) : s.frameEnd b sdi = endOk ((busFreed s b e).updTx q.chain (fun y => { y with tuner := x })) q.id 0 := by
  unfold State.frameEnd
  dsimp only
  rw [hc]
  dsimp only
  rw [if_neg (by omega), hk]
  rfl

theorem frameEnd_raw {x : BitVec 24} {l : Nat} (hk : q.kind = .raw x l) : s.frameEnd b sdi = endOk (busFreed s b e) q.id (word (sdi.toNat % 2 ^ (8 * (l + 1)))) := by
  unfold State.frameEnd
  dsimp only
  rw [hc]
  dsimp only
  rw [if_neg (by omega), hk]
  rfl

end
end

/-! ## Power steps (R90, R91) -/

/-- The chain's part of a step: TX_PWR and the entry in use. -/
def powerSet (s : State) (c i : Nat) : State := s.updTx c (fun x => { x with pwr := cword (BitVec.ofNat 16 i), entry := (s.txc c).table.get 0 i, kept := if dacM ((s.txc c).table.get 0 i) = 0 then x.kept else some ((s.txc c).table.get 0 i) })

/-- The parts a step changes besides its chain: cancellers, gains, licences and its completion. -/
def stepPart : Part := { hif := true, intc := true, recd := true, cx := true, gcl := true, jl := true }

theorem applyPower_kept (s : State) (c i : Nat) (h : s.wordPoisoned (testBase (6 + c / 8) c 7 + i) = false) : Kept stepPart (powerSet s c i) (s.applyPower c i) := by
  unfold State.applyPower
  rw [if_neg (fun e => Bool.noConfusion (h.symm.trans e))]
  dsimp only
  obtain ⟨u, hu⟩ : ∃ u, u = powerSet s c i := ⟨_, rfl⟩
  have k : ∀ dK dE, Kept stepPart u ((u.cxRescale c dK dE).capAll) := fun _ _ => Kept.capAll (Kept.cxRescale (Kept.refl _ u))
  unfold powerSet at hu ⊢
  rw [← hu]
  split
  · exact { k _ _ with jl := fun e => Bool.noConfusion e }
  · exact k _ _

theorem applyPower_poisoned (s : State) (c i : Nat) (h : s.wordPoisoned (testBase (6 + c / 8) c 7 + i) = true) : s.applyPower c i = s := if_pos h

/-- The oldest step off its list. -/
def stepTaken (s : State) (c : Nat) (r : List PwrStep) : State := s.updTx c (fun x => { x with steps := r })

theorem powerApply_due {s : State} {c : Nat} {p : PwrStep} {r : List PwrStep} (hs : (s.txc c).steps = p :: r) (hp : p.at_ ≤ s.now) :
    s.powerApply c = endOk ((stepTaken s c r).applyPower c p.index) p.id (((stepTaken s c r).applyPower c p.index).txc c).pwr := by
  unfold State.powerApply
  dsimp only
  rw [hs]
  dsimp only
  rw [if_pos hp]
  rfl

/-- A step without a frame, off the waiting list. -/
def waitTaken (s : State) (c : Nat) (w : PwrAsk × Nat × Option Nat) : State := s.updTx c (fun x => { x with waiting := x.waiting.erase w })

/-- It commits, to take effect at the next sample. -/
def waitStepped (s : State) (c : Nat) (w : PwrAsk × Nat × Option Nat) : State :=
  (waitTaken s c w).updTx c (fun x => { x with steps := [{ index := w.1.target (s.txc c).base, at_ := s.sampleAfter s.now, id := w.2.2 }] })

section
variable {s : State} {c : Nat} {w : PwrAsk × Nat × Option Nat}

section
variable (hs : (s.txc c).steps = []) (hw : (s.txc c).waiting.find? (fun w => decide (w.2.1 ≤ s.now)) = some w) (hg : s.onSmp chainBlk = true)
include hs hw hg

theorem powerApply_device (hi : w.2.2 = none) : s.powerApply c = waitStepped s c w := by
  unfold State.powerApply
  dsimp only
  rw [hs]
  dsimp only
  rw [hw]
  dsimp only
  rw [if_pos hg, hi]
  dsimp only
  unfold waitStepped waitTaken
  rw [hi]

theorem powerApply_barred {id : Nat} (hi : w.2.2 = some id) (hb : s.raiseBarred c (w.1.target (s.txc c).base) = true) : s.powerApply c = (waitTaken s c w).completeId id .refusedState 0 0 := by
  unfold State.powerApply
  dsimp only
  rw [hs]
  dsimp only
  rw [hw]
  dsimp only
  rw [if_pos hg, hi]
  dsimp only
  rw [if_pos hb]
  rfl

theorem powerApply_commits {id : Nat} (hi : w.2.2 = some id) (hb : s.raiseBarred c (w.1.target (s.txc c).base) = false) :
    s.powerApply c = (waitStepped s c w).updPend id (fun p => { p with committed := true, start := s.now }) := by
  unfold State.powerApply
  dsimp only
  rw [hs]
  dsimp only
  rw [hw]
  dsimp only
  rw [if_pos hg, hi]
  dsimp only
  rw [if_neg (fun e => Bool.noConfusion (hb.symm.trans e))]
  unfold waitStepped waitTaken
  rw [hi]

end

theorem powerApply_idle (h1 : ∀ p ∈ (s.txc c).steps.head?, s.now < p.at_) (h2 : (s.txc c).steps = [] → (s.txc c).waiting.find? (fun w => decide (w.2.1 ≤ s.now)) = none ∨ s.onSmp chainBlk = false) :
    s.powerApply c = s := by
  unfold State.powerApply
  dsimp only
  cases hs : (s.txc c).steps with
  | cons p r =>
    rw [hs] at h1
    have hp : s.now < p.at_ := h1 p rfl
    exact if_neg (by omega)
  | nil =>
    dsimp only
    rcases h2 hs with h | h
    · rw [h]
    · split
      · exact if_neg (fun e => Bool.noConfusion (h.symm.trans e))
      · rfl

theorem waitTaken_txc (j : Nat) : (waitTaken s c w).txc j = if c = j then { s.txc c with waiting := (s.txc c).waiting.erase w } else s.txc j := txc_updTx_at _ _ _ _

theorem waitStepped_txc (j : Nat) : (waitStepped s c w).txc j =
    if c = j then { s.txc c with waiting := (s.txc c).waiting.erase w, steps := [{ index := w.1.target (s.txc c).base, at_ := s.sampleAfter s.now, id := w.2.2 }] } else s.txc j := by
  unfold waitStepped
  rw [txc_updTx_at, waitTaken_txc, waitTaken_txc, if_pos rfl]
  by_cases h : c = j
  · rw [if_pos h, if_pos h]
  · rw [if_neg h, if_neg h, if_neg h]

/-- A step that waits for its boundary leaves the list, and commits unless a raise is barred. -/
theorem powerApply_waits (hs : (s.txc c).steps = []) (hw : (s.txc c).waiting.find? (fun w => decide (w.2.1 ≤ s.now)) = some w) (hg : s.onSmp chainBlk = true) :
    (∀ j, j ≠ c → (s.powerApply c).txc j = s.txc j) ∧ ((s.powerApply c).txc c).waiting = (s.txc c).waiting.erase w ∧ ((s.powerApply c).txc c).pwr = (s.txc c).pwr ∧
    (w.2.2 = none ∨ s.raiseBarred c (w.1.target (s.txc c).base) = false → ((s.powerApply c).txc c).steps = [{ index := w.1.target (s.txc c).base, at_ := s.sampleAfter s.now, id := w.2.2 }]) ∧
    (∀ id, w.2.2 = some id → s.raiseBarred c (w.1.target (s.txc c).base) = true → ((s.powerApply c).txc c).steps = [] ∧ ∀ q ∈ (s.powerApply c).hif.outstanding, q.id ≠ id) := by
  have others : ∀ j, j ≠ c → (waitStepped s c w).txc j = s.txc j := fun j hj => (waitStepped_txc j).trans (if_neg (Ne.symm hj))
  have own := (waitStepped_txc (s := s) (w := w) c).trans (if_pos rfl)
  cases hi : w.2.2 with
  | none =>
    rw [powerApply_device hs hw hg hi, own, hi]
    exact ⟨others, rfl, rfl, fun _ => rfl, fun id h => absurd h (by simp)⟩
  | some id =>
    cases hb : s.raiseBarred c (w.1.target (s.txc c).base) with
    | true =>
      have kept : ∀ j, ((waitTaken s c w).completeId id .refusedState 0 0).txc j = (waitTaken s c w).txc j := (kept_completeId _ _ _ _ _).txc rfl
      rw [powerApply_barred hs hw hg hi hb, kept, waitTaken_txc, if_pos rfl]
      refine ⟨fun j hj => ?_, rfl, rfl, fun h => ?_, fun id' h _ => ⟨hs, fun q hq => ?_⟩⟩
      · rw [kept, waitTaken_txc, if_neg (Ne.symm hj)]
      · rcases h with h | h
        · exact absurd h (by simp)
        · exact Bool.noConfusion h
      · rw [completeId_outstanding, List.mem_filter, decide_eq_true_eq] at hq
        exact Option.some.inj h ▸ hq.2
    | false =>
      have tx : ∀ j, ((waitStepped s c w).updPend id (fun p => { p with committed := true, start := s.now })).txc j = (waitStepped s c w).txc j := fun _ => rfl
      rw [powerApply_commits hs hw hg hi hb, tx, own, hi]
      exact ⟨others, rfl, rfl, fun _ => rfl, fun _ _ h => Bool.noConfusion h⟩

end

/-! ## The check of the power words before a step (R326) -/

/-- From s to t at most the words due a check and what an alarm may change has changed. -/
def swept (s t : State) : Prop := ({ s with flt := { s.flt with badCompl := t.flt.badCompl } } : State).alarmed t

theorem swept_refl (s : State) : swept s s := rfl

theorem swept_trans {a b c : State} (h : swept a b) (h' : swept b c) : swept a c := by
  unfold swept at h h' ⊢
  have e : ({ a with flt := { a.flt with badCompl := c.flt.badCompl } } : State).alarmed { b with flt := { b.flt with badCompl := c.flt.badCompl } } := by
    unfold State.alarmed at h ⊢
    rw [h]
  exact State.alarmed_trans e h'

theorem alarmed_badCompl {a b : State} (h : a.alarmed b) : b.flt.badCompl = a.flt.badCompl := by
  rw [h]

theorem swept_of_alarmed {a b : State} (h : a.alarmed b) : swept a b := by
  unfold swept
  rw [alarmed_badCompl h]
  exact h

theorem checkCompl_swept (s : State) (a : Nat) (ha : 0x80000 ≤ a ∧ a < 0x90000) : swept s (s.checkCompl a) := by
  unfold State.checkCompl
  split
  · exact swept_refl s
  · refine swept_trans (b := { s with flt := { s.flt with badCompl := s.flt.badCompl.filter (fun x => decide (x ≠ a)) } }) rfl (swept_of_alarmed ?_)
    unfold State.complLost
    rw [if_neg (by omega), if_neg (by omega), if_pos ha]
    exact State.alarmed_raiseI (State.alarmed_refl _)

/-- A property that a step keeps for the elements of a list is kept by its repetition over it. -/
theorem each_keep_mem (P : State → Prop) (f : Nat → State → State) (l : List Nat) (hf : ∀ i ∈ l, ∀ c, P c → P (f i c)) : ∀ u : State, P u → P (u.each l f) := by
  induction l with
  | nil => exact fun u h => h
  | cons x r ih => exact fun u h => ih (fun i hi => hf i (List.mem_cons_of_mem x hi)) _ (hf x List.mem_cons_self u h)

/-- The sweep of the power words. -/
def powerSweep (s : State) : State := s.complSweep 0x80000 0x90000

theorem powerSweep_swept (s : State) : swept s (powerSweep s) :=
  each_keep_mem (swept s) (fun a x => x.checkCompl a) _ (fun a ha c hc => swept_trans hc (checkCompl_swept c a (of_decide_eq_true (List.mem_filter.mp ha).2))) s (swept_refl s)

theorem powerSweep_clean (s : State) (h : s.flt.badCompl = []) : powerSweep s = s := by
  unfold powerSweep State.complSweep
  rw [h]
  rfl

/-- The state with the words the sweep leaves to be checked. -/
def sweepBase (s : State) : State := { s with flt := { s.flt with badCompl := (powerSweep s).flt.badCompl } }

theorem powerSweep_alarmed (s : State) : (sweepBase s).alarmed (powerSweep s) := powerSweep_swept s

theorem powerSweep_rfe (s : State) : (powerSweep s).rfe = s.rfe := State.alarmed_rfe (a := sweepBase s) (powerSweep_alarmed s)
theorem powerSweep_now (s : State) : (powerSweep s).now = s.now := State.alarmed_now (a := sweepBase s) (powerSweep_alarmed s)
theorem powerSweep_tim (s : State) : (powerSweep s).tim = s.tim := State.alarmed_tim (a := sweepBase s) (powerSweep_alarmed s)
theorem powerSweep_le (s : State) : (powerSweep s).le = s.le := State.alarmed_le (a := sweepBase s) (powerSweep_alarmed s)
theorem powerSweep_jl (s : State) : (powerSweep s).jl = s.jl := State.alarmed_jl (a := sweepBase s) (powerSweep_alarmed s)
theorem powerSweep_tst (s : State) : (powerSweep s).tst = s.tst := State.alarmed_tst (a := sweepBase s) (powerSweep_alarmed s)
theorem powerSweep_cxPol (s : State) : (powerSweep s).cxPol = s.cxPol := State.alarmed_cxPol (a := sweepBase s) (powerSweep_alarmed s)
theorem powerSweep_txc (s : State) (j : Nat) : (powerSweep s).txc j = s.txc j := txc_of (powerSweep_rfe s) j
theorem powerSweep_chain (s : State) (j : Nat) : (powerSweep s).chain j = s.chain j := chain_of (powerSweep_rfe s) j

theorem powerSweep_poisoned (s : State) (a : Nat) : (powerSweep s).wordPoisoned a = s.wordPoisoned a := by
  unfold State.wordPoisoned
  have h : (powerSweep s).flt.poisoned = s.flt.poisoned := State.alarmed_poisoned (a := sweepBase s) (powerSweep_alarmed s)
  rw [h]

/-- The sample grid stands where the timing block does. -/
theorem onSmp_of {a b : State} (ht : b.tim = a.tim) (hn : b.now = a.now) (g : Nat) : b.onSmp g = a.onSmp g := by
  unfold State.onSmp State.smpAt State.dtAt
  rw [ht, hn]

theorem sampleAfter_of {a b : State} (ht : b.tim = a.tim) (hn : b.now = a.now) (t : Nat) : b.sampleAfter t = a.sampleAfter t := by
  unfold State.sampleAfter State.dtTicks State.dtAt
  rw [ht, hn]

/-! ## Power tables (R90) -/

theorem get_setRange {α : Type} [DecidableEq α] (f : Nat → α) (t : Tab α) (d : α) (n j : Nat) : ((List.range n).foldl (fun t i => Tab.set t d i (f i)) t).get d j = if j < n then f j else t.get d j := by
  induction n with
  | zero => rfl
  | succ n ih =>
    rw [List.range_succ, List.foldl_append, List.foldl_cons, List.foldl_nil, Tab.get_set, ih]
    by_cases h : n = j
    · rw [if_pos h, if_pos (by omega), h]
    · rw [if_neg h]
      by_cases hj : j < n
      · rw [if_pos hj, if_pos (by omega)]
      · rw [if_neg hj, if_neg (by omega)]

/-- A chain with a loaded table. -/
def tabled (x : TxCh) (ws : List Word) : TxCh := { x with table := (List.range 128).foldl (fun t i => Tab.set t 0 i ((tableOf ws).getD i 0)) x.table }

theorem tabled_entry (x : TxCh) (ws : List Word) (i : Nat) (hi : i < 128) : (tabled x ws).table.get 0 i = (tableOf ws).getD i 0 := by
  unfold tabled
  rw [get_setRange (fun i => (tableOf ws).getD i 0), if_pos hi]

/-- A chain's table in its memory. -/
def tableStored (s : State) (c : Nat) (ws : List Word) : State := (s.updTx c (fun x => tabled x ws)).memWritten (testBase (6 + c / 8) c 7)

theorem tableStored_txc (s : State) (c : Nat) (ws : List Word) (j : Nat) : (tableStored s c ws).txc j = if c = j then tabled (s.txc c) ws else s.txc j := txc_updTx_at s c (fun x => tabled x ws) j

theorem tableCommit_oldest {s : State} {c : Nat} {p : Pend} {ch : Byte} {a : Word64} {ws : List Word} (hp : (s.pends (isTableLoad c)).head? = some p) (hd : p.desc = .txPowerTableLoad ch a (.words ws)) :
    s.tableCommit c = (tableStored s c ws).complete p .ok (s.txc c).pwr 0 := by
  unfold State.tableCommit
  rw [hp]
  dsimp only
  rw [hd]
  rfl

theorem tableCommit_idle {s : State} {c : Nat} (h : s.pends (isTableLoad c) = []) : s.tableCommit c = s := by
  unfold State.tableCommit
  rw [h]
  rfl

/-! ## The steps as the events leave them -/

section
variable {s : State} {b e : Nat} {sdi : BitVec 24} {q : Frame} {w : BitVec 24} (hc : (s.fecb b).cur = some (q, w, e)) (he : e ≤ s.now)
include hc he

/-- Besides the bus, the end of a frame concerns its tuner and its descriptor alone. -/
theorem frameEnd_parts :
    (∀ j, (s.frameEnd b sdi).fecb j = (busFreed s b e).fecb j) ∧ (∀ j, (s.frameEnd b sdi).chain j = s.chain j) ∧ (∀ j, j ≠ q.chain → (s.frameEnd b sdi).txc j = s.txc j) := by
  cases hk : q.kind with
  | power a =>
    rw [frameEnd_power hc he hk]
    exact ⟨fun _ => rfl, fun _ => rfl, fun _ _ => rfl⟩
  | tuner x =>
    rw [frameEnd_tuner hc he hk]
    exact ⟨fecb_of (a := (busFreed s b e).updTx q.chain (fun y => { y with tuner := x })) (endOk_rfe _ _ _), chain_of (a := (busFreed s b e).updTx q.chain (fun y => { y with tuner := x })) (endOk_rfe _ _ _), fun j hj => (txc_of (endOk_rfe _ _ _) j).trans (State.txc_updTx_ne _ _ _ _ (Ne.symm hj))⟩
  | raw x l =>
    rw [frameEnd_raw hc he hk]
    exact ⟨fecb_of (endOk_rfe _ _ _), chain_of (a := busFreed s b e) (endOk_rfe _ _ _), fun j _ => txc_of (a := busFreed s b e) (endOk_rfe _ _ _) j⟩

theorem frameEnd_tuned {x : Byte} (hk : q.kind = .tuner x) : (s.frameEnd b sdi).txc q.chain = { s.txc q.chain with tuner := x } := by
  rw [frameEnd_tuner hc he hk, txc_of (endOk_rfe _ _ _), State.txc_updTx]
  rfl

theorem frameEnd_gone {id : Nat} (hi : q.id = some id) (hk : ∀ a, q.kind ≠ .power a) : ∀ p ∈ (s.frameEnd b sdi).hif.outstanding, p.id ≠ id := by
  cases h : q.kind with
  | power a => exact absurd h (hk a)
  | tuner x =>
    rw [frameEnd_tuner hc he h, hi]
    exact endOk_gone _ id _
  | raw x l =>
    rw [frameEnd_raw hc he h, hi]
    exact endOk_gone _ id _

end

theorem busFreed_own (s : State) (b e : Nat) : (busFreed s b e).fecb b = { s.fecb b with cur := none, freeAt := e + (s.fecb b).gap * (s.fecb b).sck } := State.fecb_updFecb _ _ _

theorem busFreed_other (s : State) (b e j : Nat) (h : j ≠ b) : (busFreed s b e).fecb j = s.fecb j := State.fecb_updFecb_ne _ _ _ _ (Ne.symm h)

/-- The chain whose step has taken effect. -/
theorem powerSet_txc (s : State) (c i : Nat) (r : List PwrStep) (j : Nat) : (powerSet (stepTaken s c r) c i).txc j =
    if c = j then { s.txc c with steps := r, pwr := cword (BitVec.ofNat 16 i), entry := (s.txc c).table.get 0 i, kept := if dacM ((s.txc c).table.get 0 i) = 0 then (s.txc c).kept else some ((s.txc c).table.get 0 i) } else s.txc j := by
  have own : (stepTaken s c r).txc c = { s.txc c with steps := r } := State.txc_updTx _ _ _
  unfold powerSet
  rw [txc_updTx_at, own]
  by_cases h : c = j
  · rw [if_pos h, if_pos h]
  · rw [if_neg h, if_neg h]
    exact State.txc_updTx_ne _ _ _ _ h

/-- A step that took effect, in the parts it leaves. -/
theorem stepApplied_kept (u : State) (c : Nat) (p : PwrStep) (r : List PwrStep) (hp : u.wordPoisoned (testBase (6 + c / 8) c 7 + p.index) = false) (res : Word) :
    Kept stepPart (powerSet (stepTaken u c r) c p.index) (endOk ((stepTaken u c r).applyPower c p.index) p.id res) :=
  endOk_kept (applyPower_kept (stepTaken u c r) c p.index hp) rfl _ _

section
variable {s : State} {b : Fin 8} {c : Fin 32}

theorem exec_fecbFrameStart (hr : s.runs) : exec (.fecbFrameStart b) s = .next (s.frameStart b.val) := exec_live (f := fun x => x.frameStart b.val) rfl hr
theorem exec_fecbFrameEnd {sdi : BitVec 24} (hr : s.runs) : exec (.fecbFrameEnd b sdi) s = .next (s.frameEnd b.val sdi) := exec_live (f := fun x => x.frameEnd b.val sdi) rfl hr
theorem exec_powerStepApply (hr : s.runs) : exec (.powerStepApply c) s = .next ((powerSweep s).powerApply c.val) := exec_live (f := fun x => (x.complSweep 0x80000 0x90000).powerApply c.val) rfl hr
theorem exec_powerTableCommit (hr : s.runs) : exec (.powerTableCommit c) s = .next (s.tableCommit c.val) := exec_live (f := fun x => x.tableCommit c.val) rfl hr

end

/-- Settles O27: a frame's start and end write one bus, one chain and one descriptor; a step takes effect on one chain, after the sweep of the power words; a table's load keeps the entry in use. -/
theorem framesAndPowerSteps : Obligations.FramesAndPowerSteps := by
  unfold Obligations.FramesAndPowerSteps
  refine ⟨fun s b hr h => (exec_fecbFrameStart hr).trans (congrArg _ (frameStart_idle h)), fun s b q a id hr hc hp hf hk hi hb => ?_, fun s b q hr hc hp hf hb => ?_,
    fun s b sdi hr h => (exec_fecbFrameEnd hr).trans (congrArg _ (frameEnd_idle h)), fun s b sdi q w e hr hc he => ?_, fun s c p r hr hs hp hw => ?_, fun s c p r hr hs hp hw => ?_,
    fun s c w hr hs hw hg => ?_, fun s c hr h1 h2 => ?_, fun s c p ch a ws hr hp hd => ?_, fun s c hr h => (exec_powerTableCommit hr).trans (congrArg _ (tableCommit_idle h))⟩
  · exact ⟨frameTaken s b q, (exec_fecbFrameStart hr).trans (congrArg _ (frameStart_barred hc hp hf hk hi hb)), State.updFecb_only _ _ _, State.fecb_updFecb _ _ _⟩
  · have al := frameStarted_alarm (s := s) (b := b) (q := q)
    have rfe := State.alarmed_rfe al
    refine ⟨_, (exec_fecbFrameStart hr).trans (congrArg _ (frameStart_runs hc hp hf hb)), ?_, fun j hj => ?_, fun a hk => ?_, fun hk j => ?_, fun j hj => ?_, fun j => ?_, fun d hs hd => frameStarted_late hs hd, fun hs => ?_, frameStepped_alarmed.of al⟩
    · exact (fecb_of rfe _).trans ((frameStepped_fecb _).trans ((frameOnBus_fecb _).trans (if_pos rfl)))
    · exact (fecb_of rfe _).trans ((frameStepped_fecb _).trans ((frameOnBus_fecb _).trans (if_neg (Ne.symm hj))))
    · exact (txc_of rfe _).trans ((frameStepped_power hk _).trans (if_pos rfl))
    · exact (txc_of rfe _).trans (frameStepped_other hk _)
    · refine (txc_of rfe _).trans ?_
      by_cases hk : ∃ a, q.kind = .power a
      · obtain ⟨a, hk⟩ := hk
        exact (frameStepped_power hk _).trans (if_neg (Ne.symm hj))
      · exact frameStepped_other (fun a h => hk ⟨a, h⟩) _
    · exact (chain_of rfe _).trans (frameStepped_chain _)
    · rw [frameStarted_host hs]
      exact frameStepped_flt
  · obtain ⟨fecbs, chains, others⟩ := frameEnd_parts (sdi := sdi) hc he
    refine ⟨_, exec_fecbFrameEnd hr, (fecbs _).trans (busFreed_own s b e), fun j hj => (fecbs j).trans (busFreed_other s b e j hj), chains, fun x hk => frameEnd_tuned hc he hk, others, fun a hk => ?_, fun id hi hk => frameEnd_gone hc he hi hk, fun x l id hk hi => ?_⟩
    · rw [frameEnd_power hc he hk]
      exact ⟨rfl, fun _ => rfl⟩
    · refine ⟨busFreed s b e, ?_, State.updFecb_only _ _ _⟩
      rw [frameEnd_raw hc he hk, hi]
      rfl
  · have hs' : ((powerSweep s).txc c).steps = p :: r := (congrArg TxCh.steps (powerSweep_txc s c)).trans hs
    have kept := stepApplied_kept (powerSweep s) c p r ((powerSweep_poisoned s _).trans hw)
    have tx : ∀ res j, (endOk ((stepTaken (powerSweep s) c r).applyPower c p.index) p.id res).txc j = (powerSet (stepTaken (powerSweep s) c r) c p.index).txc j := fun res j => (kept res).txc rfl j
    refine ⟨_, (exec_powerStepApply hr).trans (congrArg _ (powerApply_due hs' ((powerSweep_now s).symm ▸ hp))), ?_, ?_, ?_, ?_, fun j hj => ?_, fun id hi => ?_, fun j => ?_, ?_, ?_, ?_, ?_⟩
    · rw [tx, powerSet_txc, if_pos rfl]
    · rw [tx, powerSet_txc, if_pos rfl]
    · rw [tx, powerSet_txc, if_pos rfl, powerSweep_txc]
    · rw [tx, powerSet_txc, if_pos rfl, powerSweep_txc]
    · rw [tx, powerSet_txc, if_neg (Ne.symm hj), powerSweep_txc]
    · rw [hi]
      exact endOk_gone _ id _
    · exact ((kept _).chain rfl j).trans (powerSweep_chain s j)
    · exact ((kept _).le rfl).trans (powerSweep_le s)
    · exact ((kept _).tim rfl).trans (powerSweep_tim s)
    · exact ((kept _).cxPol rfl).trans (powerSweep_cxPol s)
    · exact ((kept _).tst rfl).trans (powerSweep_tst s)
  · have hs' : ((powerSweep s).txc c).steps = p :: r := (congrArg TxCh.steps (powerSweep_txc s c)).trans hs
    have e := powerApply_due hs' ((powerSweep_now s).symm ▸ hp)
    rw [applyPower_poisoned (stepTaken (powerSweep s) c r) c p.index ((powerSweep_poisoned s _).trans hw)] at e
    refine ⟨_, (exec_powerStepApply hr).trans (congrArg _ e), ?_, fun j hj => ?_, fun id hi => ?_⟩
    · rw [txc_of (endOk_rfe _ _ _), stepTaken, State.txc_updTx, powerSweep_txc]
    · rw [txc_of (endOk_rfe _ _ _), stepTaken, State.txc_updTx_ne _ _ _ _ (Ne.symm hj), powerSweep_txc]
    · rw [hi]
      exact endOk_gone _ id _
  · obtain ⟨u, hu⟩ : ∃ u, u = powerSweep s := ⟨_, rfl⟩
    have tx : ∀ j, u.txc j = s.txc j := fun j => hu ▸ powerSweep_txc s j
    have now : u.now = s.now := hu ▸ powerSweep_now s
    have tim : u.tim = s.tim := hu ▸ powerSweep_tim s
    have hs' : (u.txc c).steps = [] := (congrArg TxCh.steps (tx c)).trans hs
    have hw' : (u.txc c).waiting.find? (fun w => decide (w.2.1 ≤ u.now)) = some w := by rw [tx, now]; exact hw
    have hg' : u.onSmp chainBlk = true := (onSmp_of tim now _).trans hg
    obtain ⟨others, waiting, pwr, commits, barred⟩ := powerApply_waits hs' hw' hg'
    refine ⟨u.powerApply c, hu ▸ exec_powerStepApply hr, fun j hj => (others j hj).trans (tx j), ?_, ?_, fun h => ?_, fun id h1 h2 => ?_⟩
    · rw [waiting, tx]
    · rw [pwr, tx]
    · rw [commits (by rw [tx, hu]; exact h), tx, now, sampleAfter_of tim now]
    · exact barred id h1 (by rw [tx, hu]; exact h2)
  · have idle : (powerSweep s).powerApply c = powerSweep s :=
      powerApply_idle (by rw [powerSweep_txc, powerSweep_now]; exact h1) (by rw [powerSweep_txc, powerSweep_now, onSmp_of (powerSweep_tim s) (powerSweep_now s)]; exact h2)
    exact ⟨_, (exec_powerStepApply hr).trans (congrArg _ idle), powerSweep_rfe s, powerSweep_le s, powerSweep_tim s, powerSweep_jl s, powerSweep_tst s, powerSweep_clean s⟩
  · have tx : ∀ j, ((tableStored s c ws).complete p .ok (s.txc c).pwr 0).txc j = (tableStored s c ws).txc j := (kept_complete _ _ _ _ _).txc rfl
    refine ⟨_, (exec_powerTableCommit hr).trans (congrArg _ (tableCommit_oldest hp hd)), fun i hi => ?_, ?_, ?_, fun j hj => ?_, fun q hq => ?_⟩
    · rw [tx, tableStored_txc, if_pos rfl, tabled_entry _ _ i hi]
    · rw [tx, tableStored_txc, if_pos rfl]
      rfl
    · rw [tx, tableStored_txc, if_pos rfl]
      rfl
    · rw [tx, tableStored_txc, if_neg (Ne.symm hj)]
    · rw [complete_outstanding, List.mem_filter, decide_eq_true_eq] at hq
      exact hq.2

end Sys2Proof.Proofs
end

section
/-! SUPPORT. Chain descriptors accepted: states, tuning, calibrations, power steps and tuner words (R63, R67 to R70, R74, R88, R90, R91). -/

namespace Sys2Proof.Proofs

open Sys2Proof.Machine Sys2Proof.Laws

/-! ## CHAIN_STATE (R67 to R70) -/

/-- A chain with a CHAIN_STATE's operands. -/
def operated (i : Nat) (flags : Byte) (c : Chain) : Chain := { c with dcHold := flags.getLsbD 0, lnaByp := decide (i < 32) && flags.getLsbD 1 }

theorem at_operated (i : Nat) (flags : Byte) (c : Chain) (n : Nat) : (operated i flags c).at n = operated i flags (c.at n) := by
  unfold Chain.at operated
  dsimp only
  split
  · split
    · rfl
    · rfl
  · rfl

/-- Chain i with the operands taken. -/
def chainTaken (s : State) (i : Nat) (flags : Byte) : State := (s.chainSync i).updChain i (operated i flags)

theorem chainTaken_own (s : State) (i : Nat) (flags : Byte) : (chainTaken s i flags).chain i = operated i flags (s.chainNow i) := by
  unfold chainTaken
  rw [State.chain_updChain, chainSync_own]

theorem chainTaken_now (s : State) (i : Nat) (flags : Byte) : (chainTaken s i flags).chainNow i = operated i flags (s.chainNow i) := by
  unfold State.chainNow
  rw [chainTaken_own]
  exact (at_operated i flags _ _).trans (congrArg _ (chain_at_idem _ _))

theorem chainTaken_only (s : State) (i : Nat) (flags : Byte) : s.onlyChain (chainTaken s i flags) i :=
  ⟨rfl, fun j hj => (State.chain_updChain_ne _ _ _ _ (Ne.symm hj)).trans (chainSync_other s i j hj)⟩

/-- The same, as the descriptors other than p see it. -/
def chainOthers (s : State) (i id : Nat) (flags : Byte) : State := { chainTaken s i flags with hif := { s.hif with outstanding := s.hif.outstanding.filter (fun q => decide (q.id ≠ id)) } }

/-- The chain is through every transient. -/
def atRest (c : Chain) : Prop := c.trans = none ∧ c.walk = none ∧ c.lock ≠ .settling ∧ c.cal = none

theorem chQuiet_iff (s : State) (i : Nat) : s.chQuiet i = true ↔ atRest (s.chainNow i) ∧ s.pends (fun p => isCalRun i p || isChainState i p) = [] := by
  unfold State.chQuiet
  rw [Bool.and_eq_true_iff, List.isEmpty_iff]
  exact and_congr_left (fun _ => decide_eq_true_iff)

theorem chainOthers_now (s : State) (i id : Nat) (flags : Byte) : (chainOthers s i id flags).chainNow i = operated i flags (s.chainNow i) := chainTaken_now s i flags

/-- A quiescent chain is quiescent but for the descriptor that is taken. -/
theorem chainOthers_quiet (s : State) (h : DHdr) (d : Desc) (i : Nat) (flags : Byte) (hq : s.chQuiet i = true) : (chainOthers (s.accepted h d) i s.hif.nextId flags).chQuiet i = true := by
  rw [chQuiet_iff] at hq ⊢
  obtain ⟨hr, hp⟩ := hq
  refine ⟨?_, ?_⟩
  · rw [chainOthers_now]
    exact hr
  · unfold State.pends at hp ⊢
    rw [List.filter_eq_nil_iff] at hp ⊢
    intro q hm
    obtain ⟨h1, h2⟩ := List.mem_filter.mp hm
    exact hp q (accepted_old s h d q h1 (of_decide_eq_true h2))

theorem chainOthers_busy (s : State) (i id : Nat) (flags : Byte) (h : ¬ atRest (s.chainNow i)) : (chainOthers s i id flags).chQuiet i = false := by
  refine Bool.eq_false_iff.mpr (fun e => h ?_)
  have hr := ((chQuiet_iff _ _).mp e).1
  rw [chainOthers_now] at hr
  exact hr

theorem exec_chainState {s : State} {h : DHdr} {ch dr tg fl : Byte} {d : Desc} (hd : d = .chainState ch dr tg fl) (t : s.takes h d) : exec (.chainState h ch dr tg fl) s = .next
    (if (chainOthers (s.accepted h d) (chIdxB dr ch) s.hif.nextId fl).chQuiet (chIdxB dr ch) then
      if ((chainTaken (s.accepted h d) (chIdxB dr ch) fl).chain (chIdxB dr ch)).st = chStOf tg.toNat then (chainTaken (s.accepted h d) (chIdxB dr ch) fl).complete (s.mkPend h d) .ok 0 0
      else (chainTaken (s.accepted h d) (chIdxB dr ch) fl).walkBegin (chIdxB dr ch) (s.mkPend h d) (s.nextSmp chainBlk)
    else chainTaken (s.accepted h d) (chIdxB dr ch) fl) := by
  subst hd
  exact takes_exec t rfl nofun

/-- CHAIN_STATE as the statement of O37 gives it. -/
theorem chainState_accepted (s : State) (h : DHdr) (ch dr tg fl : Byte) (i : Nat) (c : Chain) (A : State) (d : Desc) (hd : d = .chainState ch dr tg fl) (t : s.takes h d) (hi : i = chIdxB dr ch) (hA : A = s.accepted h d)
    (hc : c = { s.chainNow i with dcHold := fl.getLsbD 0, lnaByp := decide (i < 32) && fl.getLsbD 1 }) :
    (s.chQuiet i = true → c.st = chStOf tg.toNat → ∃ u : State, exec (.chainState h ch dr tg fl) s = .next (u.complete (s.mkPend h d) .ok 0 0) ∧ A.onlyChain u i ∧ u.chain i = c) ∧
    (s.chQuiet i = true → c.st ≠ chStOf tg.toNat → ∃ u : State, exec (.chainState h ch dr tg fl) s = .next (u.updPend s.hif.nextId (fun q => { q with aux := 1, start := s.nextSmp chainBlk })) ∧ A.onlyChain u i ∧
      u.chain i = { c with walk := some (s.hif.nextId, chStOf tg.toNat), trans := some (chNext c.st (chStOf tg.toNat), s.nextSmp chainBlk) }) ∧
    (c.trans ≠ none ∨ c.walk ≠ none ∨ c.lock = .settling ∨ c.cal ≠ none → ∃ t, exec (.chainState h ch dr tg fl) s = .next t ∧ A.onlyChain t i ∧ t.chain i = c) := by
  subst hi
  have own : (chainTaken A (chIdxB dr ch) fl).chain (chIdxB dr ch) = c := by
    rw [chainTaken_own, hc, hA]
    rfl
  have ex := exec_chainState hd t
  have only := chainTaken_only A (chIdxB dr ch) fl
  refine ⟨fun hq hs => ?_, fun hq hs => ?_, fun hb => ?_⟩
  · rw [if_pos (chainOthers_quiet s h d _ fl hq), ← hA, own, if_pos hs] at ex
    exact ⟨_, ex, only, own⟩
  · rw [if_pos (chainOthers_quiet s h d _ fl hq), ← hA, own, if_neg hs] at ex
    refine ⟨_, ex, ⟨?_, fun j hj => ?_⟩, ?_⟩
    · rw [hA]
      rfl
    · exact (State.chain_updChain_ne _ _ _ _ (Ne.symm hj)).trans (only.2 j hj)
    · refine (State.chain_updChain _ _ _).trans ?_
      rw [own, hd]
      rfl
  · have busy : ¬ atRest (A.chainNow (chIdxB dr ch)) := by
      rw [hA]
      rintro ⟨h1, h2, h3, h4⟩
      rw [hc] at hb
      rcases hb with hb | hb | hb | hb
      · exact hb h1
      · exact hb h2
      · exact h3 hb
      · exact hb h4
    rw [← hA, if_neg (fun e => Bool.noConfusion ((chainOthers_busy A _ _ fl busy).symm.trans e))] at ex
    exact ⟨_, ex, only, own⟩

/-! ## CHAIN_TUNE, CAL_RUN, TX_POWER_STEP and TUNER_SET (R63, R74, R88, R91) -/

section
variable {s : State} {h : DHdr} {d : Desc}

theorem exec_chainTune {ch dr md lo : Byte} {fw fo : Word} {pd : Half} (hd : d = .chainTune ch dr md lo fw fo pd) (t : s.takes h d) : exec (.chainTune h ch dr md lo fw fo pd) s = .next
    (if (s.chainNow (chIdxB dr ch)).delayOnly md lo fw fo then s.accepted h d else (s.accepted h d).updPend s.hif.nextId (fun q => { q with aux := 1 })) := by
  subst hd
  exact takes_exec t rfl nofun

theorem exec_calRun {ch dr m : Byte} (hd : d = .calRun ch dr m) (t : s.takes h d) : exec (.calRun h ch dr m) s = .next
    (if calMask (s.chainNow (chIdxB dr ch)).quad m = 0 then (s.accepted h d).complete (s.mkPend h d) .ok 0 0
     else (s.accepted h d).updPend s.hif.nextId (fun q => { q with aux := calMask (s.chainNow (chIdxB dr ch)).quad m })) := by
  subst hd
  exact takes_exec t rfl nofun

/-- What a power step asks for. -/
def askOf (md dl : Byte) (ix : Word) : PwrAsk := if md = 0 then .index (bitsOf ix 0 7) else .delta dl.toInt

/-- The frame of a power step. -/
def powerFrame (s : State) (c : Nat) (a : PwrAsk) (tm : Word64) : Frame := { prio := 0, chain := c, cs := (s.txc c).paCs, kind := .power a, at_ := s.atTime tm, id := some s.hif.nextId, sched := none }

/-- A power step on its bus, or waiting for its boundary. -/
def stepAsked (s u : State) (c : Nat) (a : PwrAsk) (tm : Word64) : State :=
  if (s.txc c).paFecb then u.queueFrame ((s.txc c).paBus c) (powerFrame s c a tm) else u.updTx c (fun x => { x with waiting := x.waiting ++ [(a, s.atTime tm, some s.hif.nextId)] })

theorem exec_txPowerStep {c md dl : Byte} {ix : Word} {tm : Word64} (hd : d = .txPowerStep c md dl ix tm) (t : s.takes h d) :
    ∃ k, exec (.txPowerStep h c md dl ix tm) s = .next (stepAsked s ((s.accepted h d).updPend s.hif.nextId (fun q => { q with aux := k })) c.toNat (askOf md dl ix) tm) := by
  subst hd
  exact ⟨_, takes_exec t rfl nofun⟩

theorem updPend_ids (s : State) (id k : Nat) : (s.updPend id (fun q => { q with aux := k })).hif.outstanding.map (fun q => q.id) = s.hif.outstanding.map (fun q => q.id) := by
  refine (List.map_map ..).trans (List.map_congr_left (fun q _ => ?_))
  exact (apply_ite Pend.id _ _ _).trans (ite_self _)

theorem exec_tunerSet {c w : Byte} {tm : Word64} (hd : d = .tunerSet c w tm) (t : s.takes h d) : exec (.tunerSet h c w tm) s = .next
    ((s.accepted h d).queueFrame ((s.txc c.toNat).tunBus c.toNat) { prio := 1, chain := c.toNat, cs := (s.txc c.toNat).tunCs, kind := .tuner w, at_ := s.atTime tm, id := some s.hif.nextId, sched := none }) := by
  subst hd
  exact takes_exec t rfl nofun

theorem exec_tunerSetRaw {b cs ln : Byte} {raw : Word} {tm : Word64} (hd : d = .tunerSetRaw b cs ln raw tm) (t : s.takes h d) : exec (.tunerSetRaw h b cs ln raw tm) s = .next
    ((s.accepted h d).queueFrame b.toNat { prio := 2, chain := 0, cs := cs.toNat, kind := .raw (raw.extractLsb' 0 24) ln.toNat, at_ := s.atTime tm, id := some s.hif.nextId, sched := none }) := by
  subst hd
  exact takes_exec t rfl nofun

theorem queueFrame_own (u : State) (b : Nat) (f : Frame) : (u.queueFrame b f).fecb b = { u.fecb b with queue := (u.fecb b).queue ++ [f] } := State.fecb_updFecb _ _ _

end

/-- TX_POWER_STEP as the statement of O37 gives it. -/
theorem txPowerStep_accepted (s : State) (h : DHdr) (c md dl : Byte) (ix : Word) (tm : Word64) (d : Desc) (a : PwrAsk) (hd : d = .txPowerStep c md dl ix tm) (ht : s.takes h d) (ha : a = (if md = 0 then .index (bitsOf ix 0 7) else .delta dl.toInt)) :
    ∃ t, exec (.txPowerStep h c md dl ix tm) s = .next t ∧
    t.hif.outstanding.map (fun q => q.id) = (s.accepted h d).hif.outstanding.map (fun q => q.id) ∧ t = { s.accepted h d with hif := { (s.accepted h d).hif with outstanding := t.hif.outstanding }, rfe := t.rfe } ∧
    ((s.txc c.toNat).paFecb = true → t.rfe = { s.rfe with fecb := t.rfe.fecb } ∧ (∀ b, b ≠ (s.txc c.toNat).paBus c.toNat → t.fecb b = s.fecb b) ∧
      ∃ f : Frame, f = { prio := 0, chain := c.toNat, cs := (s.txc c.toNat).paCs, kind := .power a, at_ := s.atTime tm, id := some s.hif.nextId, sched := none } ∧ t.fecb ((s.txc c.toNat).paBus c.toNat) = { s.fecb ((s.txc c.toNat).paBus c.toNat) with queue := (s.fecb ((s.txc c.toNat).paBus c.toNat)).queue ++ [f] }) ∧
    ((s.txc c.toNat).paFecb = false → t.rfe = { s.rfe with tx := t.rfe.tx } ∧ (∀ b, b ≠ c.toNat → t.txc b = s.txc b) ∧ t.txc c.toNat = { s.txc c.toNat with waiting := (s.txc c.toNat).waiting ++ [(a, s.atTime tm, some s.hif.nextId)] }) := by
  obtain ⟨k, ex⟩ := exec_txPowerStep hd ht
  have ea : askOf md dl ix = a := ha.symm
  rw [ea] at ex
  refine ⟨_, ex, ?_⟩
  by_cases hf : (s.txc c.toNat).paFecb = true
  · unfold stepAsked
    rw [if_pos hf]
    refine ⟨updPend_ids _ _ _, rfl, fun _ => ⟨rfl, fun b hb => State.fecb_updFecb_ne _ _ _ _ (Ne.symm hb), _, rfl, queueFrame_own _ _ _⟩, fun h => absurd (h.symm.trans hf) (by decide)⟩
  · unfold stepAsked
    rw [if_neg hf]
    exact ⟨updPend_ids _ _ _, rfl, fun h => absurd h hf, fun _ => ⟨rfl, fun b hb => State.txc_updTx_ne _ _ _ _ (Ne.symm hb), State.txc_updTx _ _ _⟩⟩

/-! ## CX_ASSIGN and seeds (R103, R104, R118) -/

theorem seedDrop_inst (s : State) (i : Nat) (st : Status) (j : Nat) : (s.seedDrop i st).inst j = if i = j then { s.inst i with seed := none } else s.inst j := by
  unfold State.seedDrop
  split
  · rw [inst_of ((kept_completeId _ _ _ _ _).cx rfl), inst_updInst_at]
  · rename_i hn
    by_cases h : i = j
    · subst h
      rw [if_pos rfl, ← hn]
    · rw [if_neg h]

theorem seedDrop_sub (s : State) (i : Nat) (st : Status) : ∀ q ∈ (s.seedDrop i st).hif.outstanding, q ∈ s.hif.outstanding := by
  intro q hq
  unfold State.seedDrop at hq
  split at hq
  · rw [completeId_outstanding, List.mem_filter] at hq
    exact hq.1
  · exact hq

/-- A joined partner is released with its canceller. -/
def partnerFreed (s : State) (i : Nat) : State := if (s.inst i).join then s.updInst (i + 1) Inst.release else s

theorem partnerFreed_hif (s : State) (i : Nat) : (partnerFreed s i).hif = s.hif := (apply_ite State.hif _ _ _).trans (ite_self _)

theorem partnerFreed_inst (s : State) (i j : Nat) (h : j ≠ i + 1) : (partnerFreed s i).inst j = s.inst j := by
  unfold partnerFreed
  split
  · exact State.inst_updInst_ne _ _ _ _ (Ne.symm h)
  · rfl

/-- A canceller whose seed has ended and whose partner is free, changed as an assignment asks. -/
def reassigned (s : State) (i : Nat) (f : Inst → Inst) : State := (partnerFreed (s.seedDrop i .superseded) i).updInst i f

theorem reassigned_own (s : State) (i : Nat) (f : Inst → Inst) : (reassigned s i f).inst i = f { s.inst i with seed := none } := by
  unfold reassigned
  rw [State.inst_updInst, partnerFreed_inst _ _ _ (by omega), seedDrop_inst, if_pos rfl]

theorem reassigned_other (s : State) (i : Nat) (f : Inst → Inst) (j : Nat) (h : j ≠ i) (h' : j ≠ i + 1) : (reassigned s i f).inst j = s.inst j := by
  unfold reassigned
  rw [State.inst_updInst_ne _ _ _ _ (Ne.symm h), partnerFreed_inst _ _ _ h', seedDrop_inst, if_neg (Ne.symm h)]

theorem reassigned_sub (s : State) (i : Nat) (f : Inst → Inst) : ∀ q ∈ (reassigned s i f).hif.outstanding, q ∈ s.hif.outstanding := by
  intro q hq
  have h : q ∈ (partnerFreed (s.seedDrop i .superseded) i).hif.outstanding := hq
  rw [partnerFreed_hif] at h
  exact seedDrop_sub s i _ q h

/-- A fresh assignment. -/
def assignedInst (tx rx join : Byte) (bulk ext : Half) (x : Inst) : Inst := { x.release with
  st := .idle, tx := tx.toNat, rx := rx.toNat, join := decide (join = 1), auto := decide (bulk = 0xFFFF), bulk := if decide (bulk = 0xFFFF) then 0 else bulk.toNat, extRxg := ext.toInt }

/-- The partner of a joined canceller. -/
def partnerJoined (s : State) (i : Nat) (join : Byte) : State := if join = 1 then s.updInst (i + 1) (fun x => { x.release with st := .joined }) else s

theorem partnerJoined_hif (s : State) (i : Nat) (join : Byte) : (partnerJoined s i join).hif = s.hif := (apply_ite State.hif _ _ _).trans (ite_self _)

theorem partnerJoined_inst (s : State) (i : Nat) (join : Byte) (j : Nat) (h : j ≠ i + 1) : (partnerJoined s i join).inst j = s.inst j := by
  unfold partnerJoined
  split
  · exact State.inst_updInst_ne _ _ _ _ (Ne.symm h)
  · rfl

theorem partnerJoined_joined (s : State) (i : Nat) : ((partnerJoined s i 1).inst (i + 1)).st = .joined := by
  unfold partnerJoined
  rw [if_pos rfl, State.inst_updInst]

theorem cxRunSync_other (s : State) (i j : Nat) (h : j ≠ i) : (s.cxRunSync i).inst j = s.inst j := by
  have ne : ∀ f, (s.updInst i f).inst j = s.inst j := fun f => State.inst_updInst_ne _ _ _ _ (Ne.symm h)
  unfold State.cxRunSync
  dsimp only
  split
  · split
    · exact ne _
    · rfl
  · rfl
  · rfl
  · split
    · rfl
    · exact ne _

/-- A fresh assignment stays IDLE, or starts in SEARCH or ACQUIRE. -/
theorem cxRunSync_fresh (s : State) (i : Nat) (hi : (s.inst i).st = .idle) (hh : (s.inst i).heldSt = .acquire) : ∃ st go cy wi cp wp, st ≠ CxSt.unassigned ∧
    (s.cxRunSync i).inst i = { s.inst i with st := st, gradOk := go, cycleAt := cy, winAt := wi, cycPol := cp, winPol := wp } := by
  unfold State.cxRunSync
  dsimp only
  rw [hi]
  dsimp only
  split
  · refine ⟨_, _, _, _, _, _, ?_, State.inst_updInst _ _ _⟩
    rw [hh]
    split
    · decide
    · decide
  · exact ⟨(s.inst i).st, _, _, _, _, _, by rw [hi]; decide, rfl⟩

/-- The parts that the end of a CX_ASSIGN changes besides its cancellers. -/
def assignPart : Part := { hif := true, intc := true, recd := true, gcl := true, jl := true }

section
variable {s : State} {h : DHdr} {c rl tx rx j : Byte} {b e : Half} {d : Desc} (hd : d = .cxAssign c rl tx rx j b e) (t : s.takes h d)
include hd t

theorem exec_cxAssign : exec (.cxAssign h c rl tx rx j b e) s = .next (startCxAssign (s.mkPend h d) c.toNat rl tx rx j b e (s.accepted h d)) := by
  subst hd
  exact takes_exec t rfl nofun

end

/-- The same pair with the same options is assigned again. -/
def sameAssignment (x : Inst) (tx rx join : Byte) (bulk : Half) : Prop :=
  x.st ≠ .unassigned ∧ x.tx = tx.toNat ∧ x.rx = rx.toNat ∧ x.join = decide (join = 1) ∧ x.auto = decide (bulk = 0xFFFF) ∧ (decide (bulk = 0xFFFF) = true ∨ x.bulk = bulk.toNat)

section
variable (p : Pend) (i : Nat) (tx rx join : Byte) (bulk ext : Half) (s : State)

theorem startCxAssign_release : startCxAssign p i 1 tx rx join bulk ext s = (((reassigned s i Inst.release).cxReport i).capAll).complete p .ok 0 0 := by
  unfold startCxAssign
  dsimp only
  rw [if_pos rfl]
  rfl

theorem startCxAssign_same (h : sameAssignment (s.inst i) tx rx join bulk) : startCxAssign p i 0 tx rx join bulk ext s = ((s.updInst i (fun x => { x with extRxg := ext.toInt })).capAll).complete p .ok 0 0 := by
  unfold sameAssignment at h
  unfold startCxAssign
  dsimp only
  rw [if_neg (by decide), if_pos h]

theorem startCxAssign_fresh (h : ¬ sameAssignment (s.inst i) tx rx join bulk) :
    startCxAssign p i 0 tx rx join bulk ext s = (((partnerJoined (reassigned s i (assignedInst tx rx join bulk ext)) i join).cxRunSync i).capAll).complete p .ok 0 0 := by
  unfold sameAssignment at h
  unfold startCxAssign
  dsimp only
  rw [if_neg (by decide), if_neg h]
  rfl

end

/-- What ends a CX_ASSIGN leaves the cancellers as they were. -/
theorem capped_inst (u : State) (p : Pend) (j : Nat) : (u.capAll.complete p .ok 0 0).inst j = u.inst j := inst_of ((Kept.complete (p := assignPart) (Kept.capAll (Kept.refl _ u))).cx rfl) j

theorem capped_sub (u : State) (p : Pend) : ∀ q ∈ (u.capAll.complete p .ok 0 0).hif.outstanding, q ∈ u.hif.outstanding ∧ q.id ≠ p.id := by
  intro q hq
  rw [complete_outstanding, List.mem_filter, decide_eq_true_eq, (Kept.capAll (p := { gcl := true }) (Kept.refl _ u)).hif rfl] at hq
  exact hq

theorem cxReport_inst (u : State) (i j : Nat) : (u.cxReport i).inst j = u.inst j := inst_of ((Kept.cxReport (p := { jl := true }) (Kept.refl _ u)).cx rfl) j

theorem cxReport_hif (u : State) (i : Nat) : (u.cxReport i).hif = u.hif := (Kept.cxReport (p := { jl := true }) (Kept.refl _ u)).hif rfl

theorem cxRunSync_hif (u : State) (i : Nat) : (u.cxRunSync i).hif = u.hif := (Kept.cxRunSync (p := { cx := true }) (Kept.refl _ u)).hif rfl

section
variable (p : Pend) (i : Nat) (tx rx join : Byte) (bulk ext : Half) (s : State)

theorem cxRelease_spec : (∀ q ∈ (startCxAssign p i 1 tx rx join bulk ext s).hif.outstanding, q ∈ s.hif.outstanding ∧ q.id ≠ p.id) ∧
    (∀ m, m ≠ i → m ≠ i + 1 → (startCxAssign p i 1 tx rx join bulk ext s).inst m = s.inst m) ∧ (startCxAssign p i 1 tx rx join bulk ext s).inst i = ({ s.inst i with seed := none } : Inst).release := by
  rw [startCxAssign_release]
  refine ⟨fun q hq => ?_, fun m h1 h2 => ?_, ?_⟩
  · obtain ⟨h1, h2⟩ := capped_sub _ _ q hq
    rw [cxReport_hif] at h1
    exact ⟨reassigned_sub _ _ _ q h1, h2⟩
  · rw [capped_inst, cxReport_inst, reassigned_other _ _ _ _ h1 h2]
  · rw [capped_inst, cxReport_inst, reassigned_own]

/-- The options an assignment gives its canceller. -/
def assignedAs (x : Inst) : Prop := x.st ≠ .unassigned ∧ x.tx = tx.toNat ∧ x.rx = rx.toNat ∧ x.join = decide (join = 1) ∧ x.extRxg = ext.toInt

theorem cxAssign_again (h : sameAssignment (s.inst i) tx rx join bulk) : (∀ q ∈ (startCxAssign p i 0 tx rx join bulk ext s).hif.outstanding, q ∈ s.hif.outstanding ∧ q.id ≠ p.id) ∧
    (∀ m, m ≠ i → (startCxAssign p i 0 tx rx join bulk ext s).inst m = s.inst m) ∧ assignedAs tx rx join ext ((startCxAssign p i 0 tx rx join bulk ext s).inst i) := by
  rw [startCxAssign_same p i tx rx join bulk ext s h]
  obtain ⟨h1, h2, h3, h4, _⟩ := h
  refine ⟨capped_sub _ _, fun m hm => ?_, ?_⟩
  · rw [capped_inst, State.inst_updInst_ne _ _ _ _ (Ne.symm hm)]
  · rw [capped_inst, State.inst_updInst]
    exact ⟨h1, h2, h3, h4, rfl⟩

theorem cxAssign_fresh (h : ¬ sameAssignment (s.inst i) tx rx join bulk) : (∀ q ∈ (startCxAssign p i 0 tx rx join bulk ext s).hif.outstanding, q ∈ s.hif.outstanding ∧ q.id ≠ p.id) ∧
    (∀ m, m ≠ i → m ≠ i + 1 → (startCxAssign p i 0 tx rx join bulk ext s).inst m = s.inst m) ∧ assignedAs tx rx join ext ((startCxAssign p i 0 tx rx join bulk ext s).inst i) ∧
    ((startCxAssign p i 0 tx rx join bulk ext s).inst i).main = [] ∧ ((startCxAssign p i 0 tx rx join bulk ext s).inst i).valid = false ∧ ((startCxAssign p i 0 tx rx join bulk ext s).inst i).auto = decide (bulk = 0xFFFF) ∧
    ((startCxAssign p i 0 tx rx join bulk ext s).inst i).bulk = (if bulk = 0xFFFF then 0 else bulk.toNat) ∧ (join = 1 → ((startCxAssign p i 0 tx rx join bulk ext s).inst (i + 1)).st = .joined) := by
  rw [startCxAssign_fresh p i tx rx join bulk ext s h]
  obtain ⟨u, hu⟩ : ∃ u, u = partnerJoined (reassigned s i (assignedInst tx rx join bulk ext)) i join := ⟨_, rfl⟩
  have own : u.inst i = assignedInst tx rx join bulk ext { s.inst i with seed := none } := by rw [hu, partnerJoined_inst _ _ _ _ (by omega), reassigned_own]
  rw [← hu]
  obtain ⟨st, go, cy, wi, cp, wp, hst, e⟩ := cxRunSync_fresh u i (by rw [own]; rfl) (by rw [own]; rfl)
  have ti : ((u.cxRunSync i).capAll.complete p .ok 0 0).inst i = _ := (capped_inst _ _ _).trans e
  refine ⟨fun q hq => ?_, fun m h1 h2 => ?_, ?_, ?_, ?_, ?_, ?_, fun hj => ?_⟩
  · obtain ⟨h1, h2⟩ := capped_sub _ _ q hq
    rw [cxRunSync_hif, hu, partnerJoined_hif] at h1
    exact ⟨reassigned_sub _ _ _ q h1, h2⟩
  · rw [capped_inst, cxRunSync_other _ _ _ h1, hu, partnerJoined_inst _ _ _ _ h2, reassigned_other _ _ _ _ h1 h2]
  · rw [ti, own]
    exact ⟨hst, rfl, rfl, rfl, rfl⟩
  · rw [ti, own]
    rfl
  · rw [ti, own]
    rfl
  · rw [ti, own]
    rfl
  · rw [ti, own]
    dsimp only [assignedInst]
    simp only [decide_eq_true_eq]
  · rw [capped_inst, cxRunSync_other _ _ _ (by omega), hu, hj]
    exact partnerJoined_joined _ _

end

/-- A REL other than 1 assigns. -/
theorem startCxAssign_assigns (p : Pend) (i : Nat) (rl tx rx join : Byte) (bulk ext : Half) (s : State) (h : rl ≠ 1) : startCxAssign p i rl tx rx join bulk ext s = startCxAssign p i 0 tx rx join bulk ext s := by
  unfold startCxAssign
  dsimp only
  rw [if_neg h, if_neg (show ¬ (0 : Byte) = 1 by decide)]

/-- CX_ASSIGN as the statement of O37 gives it. -/
theorem cxAssign_accepted (s : State) (h : DHdr) (c rl tx rx j : Byte) (b e : Half) (d : Desc) (hd : d = .cxAssign c rl tx rx j b e) (ht : s.takes h d) :
    ∃ t, exec (.cxAssign h c rl tx rx j b e) s = .next t ∧ (∀ q ∈ t.hif.outstanding, q ∈ s.hif.outstanding) ∧ t.slots = s.slots ∧ t.rfe = s.rfe ∧ t.prot = s.prot ∧ t.flt = s.flt ∧
    (∀ m, m ≠ c.toNat → m ≠ c.toNat + 1 → t.inst m = s.inst m) ∧ (rl = 1 → t.inst c.toNat = ({ s.inst c.toNat with seed := none } : Inst).release) ∧
    (rl = 0 → (t.inst c.toNat).st ≠ .unassigned ∧ (t.inst c.toNat).tx = tx.toNat ∧ (t.inst c.toNat).rx = rx.toNat ∧ (t.inst c.toNat).join = decide (j = 1) ∧ (t.inst c.toNat).extRxg = e.toInt ∧
      ((s.inst c.toNat).st = .unassigned → (t.inst c.toNat).main = [] ∧ (t.inst c.toNat).valid = false ∧ (t.inst c.toNat).auto = decide (b = 0xFFFF) ∧ ((t.inst c.toNat).bulk = if b = 0xFFFF then 0 else b.toNat) ∧ (j = 1 → (t.inst (c.toNat + 1)).st = .joined))) := by
  obtain ⟨t, et⟩ : ∃ t, t = startCxAssign (s.mkPend h d) c.toNat rl tx rx j b e (s.accepted h d) := ⟨_, rfl⟩
  have ex := exec_cxAssign hd ht
  rw [← et] at ex
  have k : Kept { hif := true, intc := true, recd := true, cx := true, gcl := true, jl := true } (s.accepted h d) t := et ▸ Kept.startCxAssign (Kept.refl _ _)
  have old : (∀ q ∈ t.hif.outstanding, q ∈ (s.accepted h d).hif.outstanding ∧ q.id ≠ (s.mkPend h d).id) → ∀ q ∈ t.hif.outstanding, q ∈ s.hif.outstanding :=
    fun hq q hm => accepted_old s h d q (hq q hm).1 (hq q hm).2
  by_cases hr : rl = 1
  · subst hr
    obtain ⟨out, others, own⟩ := cxRelease_spec (s.mkPend h d) c.toNat tx rx j b e (s.accepted h d)
    rw [← et] at out others own
    exact ⟨t, ex, old out, k.slots rfl, k.rfe rfl, k.prot rfl, k.flt rfl, others, fun _ => own, fun h0 => absurd h0 (by decide)⟩
  · rw [startCxAssign_assigns _ _ _ _ _ _ _ _ _ hr] at et
    by_cases hs : sameAssignment ((s.accepted h d).inst c.toNat) tx rx j b
    · obtain ⟨out, others, h1, h2, h3, h4, h5⟩ := cxAssign_again (s.mkPend h d) c.toNat tx rx j b e (s.accepted h d) hs
      rw [← et] at out others h1 h2 h3 h4 h5
      exact ⟨t, ex, old out, k.slots rfl, k.rfe rfl, k.prot rfl, k.flt rfl, fun m hm _ => others m hm, fun h1 => absurd h1 hr, fun _ => ⟨h1, h2, h3, h4, h5, fun hu => absurd hu hs.1⟩⟩
    · obtain ⟨out, others, ⟨h1, h2, h3, h4, h5⟩, fresh⟩ := cxAssign_fresh (s.mkPend h d) c.toNat tx rx j b e (s.accepted h d) hs
      rw [← et] at out others h1 h2 h3 h4 h5 fresh
      exact ⟨t, ex, old out, k.slots rfl, k.rfe rfl, k.prot rfl, k.flt rfl, others, fun h1 => absurd h1 hr, fun _ => ⟨h1, h2, h3, h4, h5, fun _ => fresh⟩⟩

theorem exec_cxResetSeed {s : State} {h : DHdr} {c x : Byte} {len : Word} {addr : Word64} {ws : List Word} {d : Desc} (hd : d = .cxResetSeed c x len addr (.words ws)) (t : s.takes h d) :
    exec (.cxResetSeed h c x len addr (.words ws)) s = .next ((s.accepted h d).updInst c.toNat (fun y => { y with
      seed := some { id := s.hif.nextId, phase := .loading, screened := s.seedScreens c.toNat, since := s.now, set := coefSet ws, scale := 0, len := xfadeLen x.toNat, paused := none, lost := 0 } })) := by
  subst hd
  exact takes_exec t rfl nofun

/-! ## GCL_BANK_SWAP (R160, R161) -/

theorem mem_upd_table {α : Type} [DecidableEq α] (t : Tab α) (d : α) (i : Nat) (f : α → α) (e : Nat × α) (h : e ∈ t.upd d i f) : e.1 = i ∨ e ∈ t := by
  unfold Tab.upd Tab.set at h
  split at h
  · exact .inr (Tab.erase_subset t i e h)
  · rcases Tab.mem_insert _ _ _ _ h with rfl | h
    · exact .inl rfl
    · exact .inr (Tab.erase_subset t i e h)

/-- From s to u the loops have changed in their bank alone, and a changed one stands on bank b. -/
structure Switched (b : Bool) (s u : State) : Prop where
  kept : Kept { gcl := true } s u
  gain : ∀ m, u.gain m = { s.gain m with bankB := (u.gain m).bankB }
  bank : ∀ m, u.gain m = s.gain m ∨ (u.gain m).bankB = b
  entry : ∀ e ∈ u.gcl, e ∈ s.gcl ∨ (u.gain e.1).bankB = b

theorem Switched.refl (b : Bool) (s : State) : Switched b s s := ⟨Kept.refl _ s, fun _ => rfl, fun _ => .inl rfl, fun _ h => .inl h⟩

/-- A muted loop takes the bank at once (R161). -/
def bankSwitch (i n : Nat) (a : State) : State := a.updGain n (fun g => { g with bankB := (a.lut i).activeB })

theorem Switched.switch {s u : State} {i : Nat} (h : Switched (s.lut i).activeB s u) (n : Nat) : Switched (s.lut i).activeB s (bankSwitch i n u) := by
  have hl : (u.lut i).activeB = (s.lut i).activeB := congrArg Lut.activeB (lut_of (h.kept.luts rfl) i)
  have at_ : ∀ m, (bankSwitch i n u).gain m = if n = m then { u.gain n with bankB := (s.lut i).activeB } else u.gain m := fun m => by
    unfold bankSwitch
    rw [gain_updGain_at, hl]
  refine ⟨Kept.updGain h.kept, fun m => ?_, fun m => ?_, fun e (he : e ∈ u.gcl.upd Gain.reset n (fun g => { g with bankB := (u.lut i).activeB })) => ?_⟩
  · rw [at_]
    by_cases hm : n = m
    · subst hm
      rw [if_pos rfl]
      have g := h.gain n
      rw [g]
    · rw [if_neg hm]
      exact h.gain m
  · rw [at_]
    by_cases hm : n = m
    · rw [if_pos hm]
      exact .inr rfl
    · rw [if_neg hm]
      exact h.bank m
  · rw [at_]
    by_cases hm : n = e.1
    · rw [if_pos hm]
      exact .inr rfl
    · rw [if_neg hm]
      rcases mem_upd_table _ _ _ _ e he with h1 | h1
      · exact absurd h1.symm hm
      · exact h.entry e h1

/-- Every user of a set on its new bank before the muted ones switch, or switched with them, is on the new bank after. -/
theorem Switched.users {s u : State} {i : Nat} {b : Bool} (h : Switched b s u) (hs : ∀ m ∈ s.lutUsers i, (s.gain m).bankB = b) : ∀ m ∈ u.lutUsers i, (u.gain m).bankB = b := by
  intro m hm
  obtain ⟨e, he, rfl⟩ := List.mem_map.mp hm
  obtain ⟨h1, h2⟩ := List.mem_filter.mp he
  rcases h.entry e h1 with h3 | h3
  · rcases h.bank e.1 with h4 | h4
    · rw [h4]
      exact hs e.1 (List.mem_map.mpr ⟨e, List.mem_filter.mpr ⟨h3, h2⟩, rfl⟩)
    · exact h4
  · exact h3

/-- The older swaps of a set are superseded. -/
def swapsEnd (s : State) (i id : Nat) : State := ((s.pends (isLutSwap i)).filter (fun q => decide (q.id ≠ id))).foldl (fun a q => a.complete q .superseded 0 0) s

theorem swapsEnd_kept (s : State) (i id : Nat) : Kept complPart s (swapsEnd s i id) := Kept.foldl (Kept.refl _ s) (fun _ _ hb => Kept.complete hb)

theorem swapsEnd_own (s : State) (i id : Nat) : ∀ q ∈ (swapsEnd s i id).hif.outstanding, isLutSwap i q = true → q.id = id := by
  intro q hq hs
  obtain ⟨h1, h2⟩ := (completeAll_fold _ _ _ _).mp hq
  by_contra hne
  exact h2 q (List.mem_filter.mpr ⟨List.mem_filter.mpr ⟨h1, hs⟩, decide_eq_true hne⟩) rfl

/-- The set on its other bank, its muted users with it. -/
def bankSwapped (s : State) (i id : Nat) : State := (swapsEnd s i id).updLut i (fun l => { l with activeB := !l.activeB })

def mutedSwitched (s : State) (i id : Nat) : State :=
  (bankSwapped s i id).each (((bankSwapped s i id).lutUsers i).filter (fun n => (bankSwapped s i id).slotMuted n)) (bankSwitch i)

theorem startGclBankSwap_eq (p : Pend) (i : Nat) (s : State) : startGclBankSwap p i s = (mutedSwitched s i p.id).lutSwapCheck i := rfl

theorem mutedSwitched_switched (s : State) (i id : Nat) : Switched ((bankSwapped s i id).lut i).activeB (bankSwapped s i id) (mutedSwitched s i id) :=
  each_keep (Switched ((bankSwapped s i id).lut i).activeB (bankSwapped s i id)) (bankSwitch i) (fun n _ h => h.switch n) _ _ (Switched.refl _ _)

section
variable (s : State) (i id : Nat)

theorem bankSwapped_lut (j : Nat) : (bankSwapped s i id).lut j = if i = j then { s.lut i with activeB := !(s.lut i).activeB } else s.lut j := by
  have k : ∀ j, (swapsEnd s i id).lut j = s.lut j := lut_of ((swapsEnd_kept s i id).luts rfl)
  unfold bankSwapped
  by_cases h : i = j
  · subst h
    rw [if_pos rfl, State.lut_updLut, k]
  · rw [if_neg h, State.lut_updLut_ne _ _ _ _ h, k]

theorem bankSwapped_gcl : (bankSwapped s i id).gcl = s.gcl := (swapsEnd_kept s i id).gcl rfl

theorem kept_lutSwapCheck (u : State) : Kept complPart u (u.lutSwapCheck i) := Kept.lutSwapCheck (Kept.refl _ u)

theorem lutSwapCheck_sub (u : State) : ∀ q ∈ (u.lutSwapCheck i).hif.outstanding, q ∈ u.hif.outstanding := by
  unfold State.lutSwapCheck
  split
  · exact completeAll_sub _ _ _
  · exact fun _ h => h

theorem lutSwapCheck_done (u : State) (h : ∀ m ∈ u.lutUsers i, (u.gain m).bankB = (u.lut i).activeB) : ∀ q ∈ (u.lutSwapCheck i).hif.outstanding, isLutSwap i q = false := by
  unfold State.lutSwapCheck
  rw [if_pos (List.all_eq_true.mpr (fun m hm => decide_eq_true (h m hm)))]
  exact completeAll_none _ _ _

theorem bankSwap_lut (j : Nat) : ((mutedSwitched s i id).lutSwapCheck i).lut j = if i = j then { s.lut i with activeB := !(s.lut i).activeB } else s.lut j :=
  (lut_of ((kept_lutSwapCheck i _).luts rfl) j).trans ((lut_of ((mutedSwitched_switched s i id).kept.luts rfl) j).trans (bankSwapped_lut s i id j))

theorem bankSwap_gain (m : Nat) : ((mutedSwitched s i id).lutSwapCheck i).gain m = { s.gain m with bankB := (((mutedSwitched s i id).lutSwapCheck i).gain m).bankB } := by
  rw [gain_of ((kept_lutSwapCheck i _).gcl rfl), ← gain_of (bankSwapped_gcl s i id) m]
  exact (mutedSwitched_switched s i id).gain m

theorem bankSwap_own : ∀ q ∈ ((mutedSwitched s i id).lutSwapCheck i).hif.outstanding, isLutSwap i q = true → q.id = id := by
  intro q hq
  have h := lutSwapCheck_sub i _ q hq
  rw [(mutedSwitched_switched s i id).kept.hif rfl] at h
  exact swapsEnd_own s i id q h

/-- Where every user stood on the other bank, the swap is done at once. -/
theorem bankSwap_done (hs : ∀ m ∈ s.lutUsers i, (s.gain m).bankB ≠ (s.lut i).activeB) : ∀ q ∈ ((mutedSwitched s i id).lutSwapCheck i).hif.outstanding, isLutSwap i q = false := by
  have sw := mutedSwitched_switched s i id
  have hl : ((mutedSwitched s i id).lut i).activeB = ((bankSwapped s i id).lut i).activeB := congrArg Lut.activeB (lut_of (sw.kept.luts rfl) i)
  refine lutSwapCheck_done i _ ?_
  rw [hl]
  refine sw.users (fun m hm => ?_)
  have hm' : m ∈ s.lutUsers i := by
    unfold State.lutUsers at hm ⊢
    rw [bankSwapped_gcl] at hm
    exact hm
  rw [gain_of (bankSwapped_gcl s i id), bankSwapped_lut, if_pos rfl]
  exact Bool.eq_not.mpr (hs m hm')

end

theorem exec_gclBankSwap {s : State} {h : DHdr} {st : Byte} (t : s.takes h (.gclBankSwap st)) :
    exec (.gclBankSwap h st) s = .next ((mutedSwitched (s.accepted h (.gclBankSwap st)) st.toNat s.hif.nextId).lutSwapCheck st.toNat) := (takes_exec t rfl nofun).trans (congrArg _ (startGclBankSwap_eq _ _ _))

/-! ## GCL_SETPOINT (R163, R164) -/

/-- An outstanding ramp is superseded with a result, and counts. -/
def supersedeRamp (res : State → Word) (n : Nat) (a : State) (q : Pend) : State := (a.complete q .superseded (res a) 0).updGain n (fun g => { g with supCnt := satInc 0xFFFF g.supCnt })

theorem supersedeRamp_outstanding (res : State → Word) (n : Nat) (a : State) (q : Pend) : (supersedeRamp res n a q).hif.outstanding = a.hif.outstanding.filter (fun x => decide (x.id ≠ q.id)) := complete_outstanding a q _ _ _

theorem supersedeRamps_gain (res : State → Word) (n : Nat) (l : List Pend) : ∀ u : State, ∃ k, (l.foldl (supersedeRamp res n) u).gain n = { u.gain n with supCnt := k } := by
  induction l with
  | nil => exact fun u => ⟨_, rfl⟩
  | cons q r ih =>
    intro u
    obtain ⟨k, e⟩ := ih (supersedeRamp res n u q)
    have own : (supersedeRamp res n u q).gain n = { u.gain n with supCnt := satInc 0xFFFF (u.gain n).supCnt } := by
      unfold supersedeRamp
      rw [State.gain_updGain, gain_of ((kept_complete _ _ _ _ _).gcl rfl)]
    exact ⟨k, by rw [List.foldl_cons, e, own]⟩

/-- The figures of a loop that GCL_SETPOINT may set, with the host's. -/
def loopOf (g : Gain) : Bool × Bool × Bool × Nat × Nat × Nat × Nat × Nat × Int × Int × Int := (g.agcEn, g.agcSrc, g.spRef, g.win, g.lutset, g.slewUp, g.slewDn, g.margin, g.host, g.target, g.spTarget)

/-- The groups of a loop that FIELDS names. -/
def regrouped (f fl : Byte) (w : Half) (ls : Byte) (su sd m : Half) (g : Gain) : Gain := { g with
  agcEn := if f.getLsbD 1 then fl.getLsbD 0 else g.agcEn, agcSrc := if f.getLsbD 1 then fl.getLsbD 1 else g.agcSrc, spRef := if f.getLsbD 1 then fl.getLsbD 2 else g.spRef
  interp := if f.getLsbD 1 then fl.getLsbD 3 else g.interp, win := if f.getLsbD 1 then w.toNat else g.win, lutset := if f.getLsbD 1 then ls.toNat else g.lutset
  target := if f.getLsbD 1 && !fl.getLsbD 0 then g.host else g.target
  slewUp := if f.getLsbD 2 then su.toNat else g.slewUp, slewDn := if f.getLsbD 2 then sd.toNat else g.slewDn
  margin := if f.getLsbD 3 then m.toNat else g.margin }

/-- A change of AGC_EN supersedes the gain ramps. -/
def agcChanged (s : State) (n : Nat) (f fl : Byte) : State :=
  if f.getLsbD 1 ∧ fl.getLsbD 0 ≠ (s.gain n).agcEn then (s.pends (isGainSet n)).foldl (supersedeRamp (fun _ => 0) n) s else s

/-- The groups written, and the caps recomputed for a new margin. -/
def groupsWritten (s : State) (n : Nat) (f fl : Byte) (w : Half) (ls : Byte) (su sd m : Half) : State :=
  if f.getLsbD 3 then ((agcChanged s n f fl).updGain n (regrouped f fl w ls su sd m)).capAll else (agcChanged s n f fl).updGain n (regrouped f fl w ls su sd m)

/-- The older set-point ramps superseded. -/
def rampsEnd (s : State) (n id : Nat) : State := ((s.pends (isSetpoint n)).filter (fun q => decide (q.id ≠ id))).foldl (supersedeRamp (fun a => word (half (a.gain n).spEff).toNat) n) s

theorem startGclSetpoint_eq (p : Pend) (n : Nat) (f fl : Byte) (sp w : Half) (ls : Byte) (su sd m : Half) (s : State) : startGclSetpoint p n f fl sp w ls su sd m s =
    if f.getLsbD 0 then ((rampsEnd (groupsWritten s n f fl w ls su sd m) n p.id).updGain n (fun g => { g with spTarget := sp.toInt })).setpointCheck n
    else (groupsWritten s n f fl w ls su sd m).complete p .ok (word (half ((groupsWritten s n f fl w ls su sd m).gain n).spEff).toNat) 0 := rfl

section
variable (s : State) (n : Nat) (f fl : Byte) (w : Half) (ls : Byte) (su sd m : Half)

theorem agcChanged_gain : ∃ k, (agcChanged s n f fl).gain n = { s.gain n with supCnt := k } := by
  unfold agcChanged
  split
  · exact supersedeRamps_gain _ n _ s
  · exact ⟨_, rfl⟩

theorem groupsWritten_loop : loopOf ((groupsWritten s n f fl w ls su sd m).gain n) = loopOf (regrouped f fl w ls su sd m (s.gain n)) := by
  obtain ⟨k, e⟩ := agcChanged_gain s n f fl
  have own : ((agcChanged s n f fl).updGain n (regrouped f fl w ls su sd m)).gain n = regrouped f fl w ls su sd m { s.gain n with supCnt := k } := by rw [State.gain_updGain, e]
  unfold groupsWritten
  split
  · obtain ⟨_, _, _, _, _, _, _, _, g⟩ := capAll_gain ((agcChanged s n f fl).updGain n (regrouped f fl w ls su sd m)) n
    rw [g, own]
    rfl
  · rw [own]
    rfl

/-- Where the set point is written, its ramp begins, and the older ones have ended. -/
theorem setpointRamp_gain (id : Nat) (sp : Int) : ∃ k, (((rampsEnd s n id).updGain n (fun g => { g with spTarget := sp })).setpointCheck n).gain n = { s.gain n with supCnt := k, spTarget := sp } := by
  obtain ⟨k, e⟩ := supersedeRamps_gain (fun a => word (half (a.gain n).spEff).toNat) n ((s.pends (isSetpoint n)).filter (fun q => decide (q.id ≠ id))) s
  refine ⟨k, ?_⟩
  rw [gain_of ((Kept.setpointCheck (p := complPart) (Kept.refl _ _)).gcl rfl), State.gain_updGain]
  unfold rampsEnd
  rw [e]

theorem setpointRamp_own (id : Nat) (sp : Int) : ∀ q ∈ (((rampsEnd s n id).updGain n (fun g => { g with spTarget := sp })).setpointCheck n).hif.outstanding, isSetpoint n q = true → q.id = id := by
  intro q hq hs
  have h : q ∈ (rampsEnd s n id).hif.outstanding := setpointCheck_out ((rampsEnd s n id).updGain n (fun g => { g with spTarget := sp })) n q hq
  obtain ⟨h1, h2⟩ := (completed_fold _ (supersedeRamp_outstanding _ n) _ _ _).mp h
  by_contra hne
  exact h2 q (List.mem_filter.mpr ⟨List.mem_filter.mpr ⟨h1, hs⟩, decide_eq_true hne⟩) rfl

end

/-- What O37 asks of a loop's figures but for the set point. -/
def groupsAre (f fl : Byte) (w : Half) (ls : Byte) (su sd m : Half) (g x : Gain) : Prop :=
  (x.agcEn = if f.getLsbD 1 then fl.getLsbD 0 else g.agcEn) ∧ (x.agcSrc = if f.getLsbD 1 then fl.getLsbD 1 else g.agcSrc) ∧ (x.spRef = if f.getLsbD 1 then fl.getLsbD 2 else g.spRef) ∧ (x.win = if f.getLsbD 1 then w.toNat else g.win) ∧
    (x.lutset = if f.getLsbD 1 then ls.toNat else g.lutset) ∧ (x.slewUp = if f.getLsbD 2 then su.toNat else g.slewUp) ∧ (x.slewDn = if f.getLsbD 2 then sd.toNat else g.slewDn) ∧ (x.margin = if f.getLsbD 3 then m.toNat else g.margin) ∧ x.host = g.host ∧
    (f.getLsbD 1 = true → fl.getLsbD 0 = false → x.target = g.host)

theorem groupsAre_of_loop {f fl : Byte} {w : Half} {ls : Byte} {su sd m : Half} {g x : Gain} (h : loopOf x = loopOf (regrouped f fl w ls su sd m g)) : groupsAre f fl w ls su sd m g x ∧ x.spTarget = g.spTarget := by
  simp only [loopOf, Prod.mk.injEq] at h
  obtain ⟨h1, h2, h3, h4, h5, h6, h7, h8, h9, h10, h11⟩ := h
  refine ⟨⟨h1, h2, h3, h4, h5, h6, h7, h8, h9, fun e1 e2 => h10.trans ?_⟩, h11⟩
  unfold regrouped
  rw [e1, e2]
  rfl

/-- GCL_SETPOINT as the statement of O37 gives it. -/
theorem gclSetpoint_accepted (s : State) (h : DHdr) (sl f fl : Byte) (sp w : Half) (ls : Byte) (su sd m : Half) (d : Desc) (g : Gain) (hd : d = .gclSetpoint sl f fl sp w ls su sd m) (ht : s.takes h d) (hg : g = s.gain sl.toNat) :
    ∃ t, exec (.gclSetpoint h sl f fl sp w ls su sd m) s = .next t ∧ t.slots = s.slots ∧ t.cx = s.cx ∧ t.rfe = s.rfe ∧ t.flt = s.flt ∧ t.prot = s.prot ∧
    (f.getLsbD 0 = true → (t.gain sl.toNat).spTarget = sp.toInt ∧ ∀ q ∈ t.hif.outstanding, isSetpoint sl.toNat q = true → q.id = s.hif.nextId) ∧
    (f.getLsbD 0 = false → (t.gain sl.toNat).spTarget = g.spTarget ∧ ∀ q ∈ t.hif.outstanding, q.id ≠ s.hif.nextId) ∧ groupsAre f fl w ls su sd m g (t.gain sl.toNat) := by
  have ex : exec (.gclSetpoint h sl f fl sp w ls su sd m) s = .next (startGclSetpoint (s.mkPend h d) sl.toNat f fl sp w ls su sd m (s.accepted h d)) := by
    subst hd
    exact takes_exec ht rfl nofun
  have k : Kept { hif := true, intc := true, recd := true, gcl := true } (s.accepted h d) (startGclSetpoint (s.mkPend h d) sl.toNat f fl sp w ls su sd m (s.accepted h d)) := Kept.startGclSetpoint (Kept.refl _ _)
  refine ⟨_, ex, k.slots rfl, k.cx rfl, k.rfe rfl, k.flt rfl, k.prot rfl, ?_⟩
  obtain ⟨groups, target⟩ := groupsAre_of_loop (groupsWritten_loop (s.accepted h d) sl.toNat f fl w ls su sd m)
  have eg : (s.accepted h d).gain sl.toNat = g := hg.symm
  rw [eg] at groups target
  rw [startGclSetpoint_eq]
  by_cases h0 : f.getLsbD 0 = true
  · rw [if_pos h0]
    obtain ⟨c, e⟩ := setpointRamp_gain (groupsWritten (s.accepted h d) sl.toNat f fl w ls su sd m) sl.toNat (s.mkPend h d).id sp.toInt
    refine ⟨fun _ => ⟨?_, setpointRamp_own _ _ _ _⟩, fun h1 => Bool.noConfusion (h1.symm.trans h0), ?_⟩
    · rw [e]
    · rw [e]
      exact groups
  · rw [if_neg h0]
    have e : ∀ r, ((groupsWritten (s.accepted h d) sl.toNat f fl w ls su sd m).complete (s.mkPend h d) .ok r 0).gain sl.toNat = (groupsWritten (s.accepted h d) sl.toNat f fl w ls su sd m).gain sl.toNat := fun r => gain_of ((kept_complete _ _ _ _ _).gcl rfl) _
    refine ⟨fun h1 => absurd h1 h0, fun _ => ⟨?_, fun q hq => ?_⟩, ?_⟩
    · rw [e]
      exact target
    · rw [complete_outstanding, List.mem_filter, decide_eq_true_eq] at hq
      exact hq.2
    · rw [e]
      exact groups

/-! ## INSTALLATION_MODEL (R151, R162) -/

/-- A canceller with its installation model. -/
def modelled (mn mx rt : Half) (x : Inst) : Inst := { x with isoMin := mn.toNat, isoMax := mx.toNat, rateMax := rt.toNat, good := 0 }

/-- The model in its canceller, the caps recomputed. -/
def modelTaken (s : State) (i : Nat) (mn mx rt : Half) : State := (({ s with freeCnt := s.freeCnt + 1 } : State).updInst i (modelled mn mx rt)).capAll

theorem modelTaken_kept (s : State) (i : Nat) (mn mx rt : Half) : Kept { cx := true, gcl := true } { s with freeCnt := s.freeCnt + 1 } (modelTaken s i mn mx rt) := Kept.capAll (Kept.updInst (Kept.refl _ _))

theorem modelTaken_inst (s : State) (i : Nat) (mn mx rt : Half) (j : Nat) : (modelTaken s i mn mx rt).inst j = if i = j then modelled mn mx rt (s.inst i) else s.inst j := by
  unfold modelTaken
  rw [inst_of ((Kept.capAll (p := { gcl := true }) (Kept.refl _ _)).cx rfl), inst_updInst_at]
  rfl

theorem exec_installationModel {s : State} {h : DHdr} {c : Byte} {mn mx rt : Half} {d : Desc} (hd : d = .installationModel c mn mx rt) (t : s.takes h d) :
    exec (.installationModel h c mn mx rt) s = .next ((modelTaken (s.accepted h d) c.toNat mn mx rt).complete (s.mkPend h d) .ok (Config.freeValue s.freeCnt &&& 0xFFFF) 0) := by
  subst hd
  exact takes_exec t rfl nofun

/-- Settles O37: each descriptor's own step at acceptance, taken from its row; what it does to its chain, bus, canceller, set or loop stands in the lemma of its name. -/
theorem radioDescriptors : Obligations.RadioDescriptors := by
  unfold Obligations.RadioDescriptors
  refine ⟨chainState_accepted, fun s h ch dr md lo fw fo pd d hd t => exec_chainTune hd t, fun s h ch dr m d k hd t hk => ?_, txPowerStep_accepted, fun s h c w tm d b hd t hb => ?_,
    fun s h b cs ln raw tm d hd t => ⟨_, exec_tunerSetRaw hd t, State.updFecb_only _ _ _, queueFrame_own _ _ _⟩, fun s h c addr data t => takes_exec t rfl nofun, fun s h c t => takes_exec t rfl nofun,
    fun s h f m t => takes_exec t rfl nofun, fun s h st tag addr data t => takes_exec t rfl nofun, cxAssign_accepted,
    fun s h c x len addr ws d hd t => ⟨_, exec_cxResetSeed hd t, State.updInst_only _ _ _, State.inst_updInst _ _ _⟩, fun s h st t => ?_, gclSetpoint_accepted, fun s h c mn mx rt d hd t => ?_⟩
  · rw [hk]
    exact exec_calRun hd t
  · rw [hb]
    exact ⟨_, exec_tunerSet hd t, State.updFecb_only _ _ _, queueFrame_own _ _ _⟩
  · obtain ⟨A, hA⟩ : ∃ A, A = s.accepted h (.gclBankSwap st) := ⟨_, rfl⟩
    have gains : ∀ m, A.gain m = s.gain m := fun m => hA ▸ rfl
    have luts : ∀ m, A.lut m = s.lut m := fun m => hA ▸ rfl
    have users : A.lutUsers st.toNat = s.lutUsers st.toNat := hA ▸ rfl
    refine ⟨_, hA ▸ exec_gclBankSwap t, ?_, fun m hm => ?_, fun m => ?_, bankSwap_own A _ _, fun hs => bankSwap_done A _ _ ?_⟩
    · rw [bankSwap_lut, if_pos rfl, luts]
    · rw [bankSwap_lut, if_neg (Ne.symm hm), luts]
    · rw [← gains]
      exact bankSwap_gain A _ _ m
    · rw [users, luts]
      exact fun m hm => gains m ▸ hs m hm
  · refine ⟨modelTaken (s.accepted h d) c.toNat mn mx rt, exec_installationModel hd t, fun m hm => (modelTaken_inst _ _ _ _ _ _).trans (if_neg (Ne.symm hm)), (modelTaken_inst _ _ _ _ _ _).trans (if_pos rfl), (modelTaken_kept _ _ _ _ _).frame⟩

end Sys2Proof.Proofs
end

section
/-! SUPPORT. Speculation cycles of the cancellers (R107 to R114, Table 4-2). -/

namespace Sys2Proof.Proofs

open Sys2Proof.Machine Sys2Proof.Laws

/-- One more change of the canceller concerned is still a change of that canceller alone. -/
theorem onlyInst_updInst {s u : State} {i : Nat} (h : s.onlyInst u i) (f : Inst → Inst) : s.onlyInst (u.updInst i f) i := by
  obtain ⟨frame, others⟩ := h
  obtain ⟨x, rfl⟩ : ∃ x, u = { s with cx := x } := ⟨_, frame⟩
  exact ⟨rfl, fun j hj => (State.inst_updInst_ne _ _ _ _ (Ne.symm hj)).trans (others j hj)⟩

/-! ## The test of a candidate (R110 to R112) -/

/-- A canceller whose candidate has run its window, with what telemetry shows of it. -/
def shadowed (c : CycleMeas) (x : Inst) : Inst := { x with cand := some c.cand, specRatio := wordI (Config.ratioDb c.esh c.em), specEnergy := wordI (Config.energyDb (energyOf c.cand)) }

/-- A candidate that is blocked counts. -/
def blockedOnce (x : Inst) : Inst := { x with blocked := satInc 0xFFFF x.blocked }

/-- A candidate rejected for its residual counts. -/
def residualRejected (x : Inst) : Inst := { x with rejRes := satInc 0xFFFF x.rejRes }

/-- A candidate rejected for its growth counts. -/
def growthRejected (x : Inst) : Inst := { x with rejGrowth := satInc 0xFFFF x.rejGrowth }

/-- A promoted candidate is the main set, and PROMO counts. -/
def promotedTo (c : CycleMeas) (x : Inst) : Inst := { x with main := c.cand, scale := 0, promo := if x.promo = 0xFFFFFFFF then x.promo else x.promo + 1 }

section
variable (s : State) (i : Nat) (c : CycleMeas)

/-- The residual energy above the main set's is within the margin (R110). -/
def residualOk : Prop := c.esh * 1024 ≤ c.em * (1024 + (s.cycPolicy i).eps)

/-- The candidate's growth is within the bounds (R110). -/
def cycleGrowthOk : Bool := growthOk (s.cycPolicy i) (energyOf c.cand) (s.inst i).mainEnergy

theorem cxTest_invalid (h : (c.valid && s.cxBlocksOk i) = false) : s.cxTest i c = (s.updInst i (shadowed c)).updInst i blockedOnce := by
  unfold State.cxTest
  dsimp only
  rw [h]
  rfl

theorem cxTest_residual (h : (c.valid && s.cxBlocksOk i) = true) (hr : c.em * (1024 + (s.cycPolicy i).eps) < c.esh * 1024) : s.cxTest i c = (s.updInst i (shadowed c)).updInst i residualRejected := by
  unfold State.cxTest
  dsimp only
  rw [h, if_neg (by decide), if_pos hr]
  rfl

theorem cxTest_growth (h : (c.valid && s.cxBlocksOk i) = true) (hr : residualOk s i c) (hg : cycleGrowthOk s i c = false) : s.cxTest i c = (s.updInst i (shadowed c)).updInst i growthRejected := by
  unfold residualOk at hr
  unfold cycleGrowthOk at hg
  unfold State.cxTest
  dsimp only
  rw [h, if_neg (by decide), if_neg (Nat.not_lt.mpr hr), hg]
  rfl

theorem cxTest_held (h : (c.valid && s.cxBlocksOk i) = true) (hr : residualOk s i c) (hg : cycleGrowthOk s i c = true) (hb : s.blkRamp i = true ∨ (s.inst i).seed ≠ none ∨ c.stepped = true) :
    s.cxTest i c = (s.updInst i (shadowed c)).updInst i blockedOnce := by
  unfold residualOk at hr
  unfold cycleGrowthOk at hg
  have held : (s.blkRamp i || decide ((s.inst i).seed ≠ none) || c.stepped) = true := by
    simpa only [Bool.or_eq_true, decide_eq_true_eq, or_assoc] using hb
  unfold State.cxTest
  dsimp only
  rw [h, if_neg (by decide), if_neg (Nat.not_lt.mpr hr), hg, if_neg (by decide), if_pos held]
  rfl

theorem cxTest_promoted (h : (c.valid && s.cxBlocksOk i) = true) (hr : residualOk s i c) (hg : cycleGrowthOk s i c = true) (hb : s.blkRamp i = false) (hs : (s.inst i).seed = none) (hc : c.stepped = false) :
    s.cxTest i c = (s.updInst i (shadowed c)).updInst i (promotedTo c) := by
  unfold residualOk at hr
  unfold cycleGrowthOk at hg
  unfold State.cxTest
  dsimp only
  rw [h, if_neg (by decide), if_neg (Nat.not_lt.mpr hr), hg, if_neg (by decide), hb, hs, hc]
  rfl

/-- Whatever the verdict, a test is one change of its canceller. -/
theorem cxTest_only : s.onlyInst (s.cxTest i c) i := by
  have one : ∀ f, s.onlyInst ((s.updInst i (shadowed c)).updInst i f) i := fun f => onlyInst_updInst (State.updInst_only s i _) f
  unfold State.cxTest
  dsimp only
  split
  · exact one blockedOnce
  split
  · exact one residualRejected
  split
  · exact one growthRejected
  split
  · exact one blockedOnce
  · exact one (promotedTo c)

/-! ## The boundary that ends a cycle (R107, R113, R114) -/

/-- The boundary after block 4 of a cycle of a canceller that adapts. -/
def cycleEnds : Prop := ((s.inst i).st = .acquire ∨ (s.inst i).st = .track) ∧ (s.inst i).cycleAt < s.now ∧ (s.now - (s.inst i).cycleAt) % (5 * chainBlk) = 0

/-- No seed of the canceller fades. -/
def noFade (x : Inst) : Bool := match x.seed with | some d => decide (d.phase ≠ .fading) | none => true

/-- The gradient of this cycle is usable. -/
def gradientUsable : Bool := c.gradient && (c.valid && s.cxBlocksOk i) && !s.cxPaused i && noFade (s.inst i)

/-- A cycle ends: the next begins, with a candidate or without. -/
def cycled (now : Nat) (grad : Bool) (x : Inst) : Inst := { x with cycleAt := now, cycPol := none, gradOk := grad }

theorem cxCycle_idle (h : ¬ cycleEnds s i) : s.cxCycle i c = s := by
  unfold cycleEnds at h
  unfold State.cxCycle
  dsimp only
  rw [if_neg]
  rwa [decide_eq_true_eq]

theorem cxCycle_due (h : cycleEnds s i) : s.cxCycle i c = (if (s.inst i).gradOk && !s.cxPaused i then s.cxTest i c else s).updInst i (cycled s.now (gradientUsable s i c)) := by
  have usable : gradientUsable s i c = (c.gradient && c.valid && s.cxBlocksOk i && !s.cxPaused i && !(match (s.inst i).seed with | some d => decide (d.phase = .fading) | none => false)) := by
    unfold gradientUsable noFade
    cases (s.inst i).seed <;> simp [Bool.and_assoc]
  unfold cycleEnds at h
  unfold State.cxCycle
  dsimp only
  rw [if_pos (decide_eq_true h), usable]
  rfl

/-- Without a candidate, or while its tile is paused, the cycle only ends. -/
theorem cxCycle_untested (h : cycleEnds s i) (hg : (s.inst i).gradOk = false ∨ s.cxPaused i = true) : s.cxCycle i c = s.updInst i (cycled s.now (gradientUsable s i c)) := by
  rw [cxCycle_due s i c h, if_neg]
  rw [Bool.and_eq_true, Bool.not_eq_true']
  rintro ⟨hgrad, hrun⟩
  rcases hg with hg | hg
  · exact Bool.noConfusion (hg.symm.trans hgrad)
  · exact Bool.noConfusion (hg.symm.trans hrun)

/-- A candidate in flight is tested as its cycle ends. -/
theorem cxCycle_tested (h : cycleEnds s i) (hg : (s.inst i).gradOk = true) (hp : s.cxPaused i = false) : s.cxCycle i c = (s.cxTest i c).updInst i (cycled s.now (gradientUsable s i c)) := by
  rw [cxCycle_due s i c h, hg, hp]
  rfl

/-- The canceller after a cycle whose candidate was tested with one verdict. -/
theorem cxCycle_verdict (h : cycleEnds s i) (hg : (s.inst i).gradOk = true) (hp : s.cxPaused i = false) (f : Inst → Inst) (hf : s.cxTest i c = (s.updInst i (shadowed c)).updInst i f) :
    (s.cxCycle i c).inst i = cycled s.now (gradientUsable s i c) (f (shadowed c (s.inst i))) := by
  rw [cxCycle_tested s i c h hg hp, hf]
  simp only [State.inst_updInst]

theorem cxCycle_only : s.onlyInst (s.cxCycle i c) i := by
  by_cases h : cycleEnds s i
  · rw [cxCycle_due s i c h]
    split
    · exact onlyInst_updInst (cxTest_only s i c) _
    · exact State.updInst_only s i _
  · rw [cxCycle_idle s i c h]
    exact ⟨rfl, fun _ _ => rfl⟩

end

theorem exec_cxCycle {s : State} {i : Fin 64} {c : CycleMeas} (hr : s.runs) : exec (.cxCycle i c) s = .next (s.cxCycle i.val c) := exec_live (f := fun x => x.cxCycle i.val c) rfl hr

/-- Settles O32: a cycle ends with one verdict on the candidate in flight, and each verdict is one change of the canceller. -/
theorem speculationCycles : Obligations.SpeculationCycles := by
  unfold Obligations.SpeculationCycles
  refine ⟨?_, ?_⟩
  · intro s i c hr h
    rw [exec_cxCycle hr, cxCycle_idle]
    rintro ⟨hst, hlt, hmod⟩
    rcases h with ⟨h1, h2⟩ | h | h
    · exact hst.elim h1 h2
    · omega
    · exact h hmod
  · intro s i c ok grad hr hst hlt hmod hok hgrad
    have ends : cycleEnds s i.val := ⟨hst, hlt, hmod⟩
    have usable : grad = gradientUsable s i.val c := by rw [hgrad, hok]; rfl
    rw [usable, hok]
    refine ⟨_, exec_cxCycle hr, cxCycle_only s i.val c, fun h => ?_, fun hg hp => ?_⟩
    · rw [cxCycle_untested s i.val c ends h]
      exact State.inst_updInst _ _ _
    · have verdict := cxCycle_verdict s i.val c ends hg hp
      exact ⟨_, rfl, fun h => verdict blockedOnce (cxTest_invalid s i.val c h), fun h h1 => verdict residualRejected (cxTest_residual s i.val c h h1),
        fun h h1 h2 => verdict growthRejected (cxTest_growth s i.val c h h1 h2), fun h h1 h2 h3 => verdict blockedOnce (cxTest_held s i.val c h h1 h2 h3),
        fun h h1 h2 h3 h4 h5 => verdict (promotedTo c) (cxTest_promoted s i.val c h h1 h2 h3 h4 h5)⟩

end Sys2Proof.Proofs
end

section
/-! SUPPORT. Delay searches, measurement windows and their publications (R123 to R126, R150, R151, Table 4-4). -/

namespace Sys2Proof.Proofs

open Sys2Proof.Machine Sys2Proof.Laws

/-! ## The end of a delay search (R123) -/

/-- The largest lag a search covers, by whether its canceller is joined. -/
def lagEnd (x : Inst) : Nat := if x.join then 8958 else 8574

/-- A search ends: its canceller searches, has its samples, and its peak lies within the lags. -/
def searchEnds (s : State) (i peak n : Nat) : Prop := (s.inst i).st = .search ∧ 2 ^ (s.winPolicy i).srchExp ≤ n ∧ peak ≤ lagEnd (s.inst i)

section
variable (s : State) (i peak : Nat) (ovr : Int) (n : Nat)

theorem cxSearchEnd_idle (h : ¬ searchEnds s i peak n) : s.cxSearchEnd i peak ovr n = s := by
  unfold State.cxSearchEnd
  dsimp only
  rw [if_pos]
  by_contra hn
  simp only [not_or, not_not, Nat.not_lt] at hn
  exact h hn

theorem cxSearchEnd_ends (h : searchEnds s i peak n) : s.cxSearchEnd i peak ovr n =
    if ((s.winPolicy i).peakTh : Int) * 100 ≤ ovr then
      s.updInst i (fun x => { x with bulk := min 8191 (peak - (s.winPolicy i).pre), peak := peak, searched := true, st := .acquire, gradOk := false, cycleAt := s.smpAtOrAfter chainBlk s.now, winAt := s.now, cycPol := none, winPol := none })
    else (s.updInst i (fun x => { x with winPol := none })).raise 11 4 (.rx (s.inst i).rx) := by
  unfold State.cxSearchEnd
  dsimp only
  rw [if_neg]
  simp only [not_or, not_not, Nat.not_lt]
  exact h

end

/-! ## A publication against the installation model (R150, R151) -/

/-- A publication outside the model, or one that jumps or moves too fast. -/
def implausibleIso (now : Nat) (x : Inst) (iso : Int) : Prop :=
  iso < x.isoMin ∨ (x.isoMax : Int) < iso ∨ ∃ v t, x.prevIso = some (v, t) ∧ (1000 < (iso - v).natAbs ∨ x.rateMax * (now - t) < (iso - v).natAbs * tsec)

/-- What a plausible publication leaves: it counts towards the ten that end the implausibility. -/
def goodOnce (x : Inst) : Inst := { x with good := satInc 10 x.good, implaus := x.implaus && decide (x.good + 1 < 10) }

/-- A publication outside the bounds of the model. -/
def outOfModel (x : Inst) (iso : Int) : Bool := !decide ((x.isoMin : Int) ≤ iso ∧ iso ≤ x.isoMax)

/-- A publication more than 10 dB from the one before. -/
def isoJumps (x : Inst) (iso : Int) : Bool := match x.prevIso with | some (v, _) => decide (1000 < (iso - v).natAbs) | none => false

/-- A publication that has moved from the one before at more than the model's rate. -/
def isoRushes (now : Nat) (x : Inst) (iso : Int) : Bool := match x.prevIso with | some (v, t) => decide (x.rateMax * (now - t) < (iso - v).natAbs * tsec) | none => false

/-- A canceller whose publication has failed its tests. -/
def madeImplausible (now : Nat) (iso : Int) (x0 x : Inst) : Inst := { x with implaus := true, good := 0, failRange := outOfModel x0 iso, failJump := isoJumps x0 iso, failRate := isoRushes now x0 iso }

theorem implausibleIso_iff (now : Nat) (x : Inst) (iso : Int) : (outOfModel x iso || isoJumps x iso || isoRushes now x iso) = true ↔ implausibleIso now x iso := by
  unfold outOfModel isoJumps isoRushes implausibleIso
  cases x.prevIso with
  | none =>
    simp only [Bool.or_false, Bool.not_eq_true', decide_eq_false_iff_not, reduceCtorEq, false_and, exists_false, or_false]
    omega
  | some e =>
    obtain ⟨v, t⟩ := e
    simp only [Bool.or_eq_true, Bool.not_eq_true', decide_eq_false_iff_not, decide_eq_true_eq, Option.some.injEq, Prod.mk.injEq]
    constructor
    · rintro ((h | h) | h)
      · omega
      · exact .inr (.inr ⟨v, t, ⟨rfl, rfl⟩, .inl h⟩)
      · exact .inr (.inr ⟨v, t, ⟨rfl, rfl⟩, .inr h⟩)
    · rintro (h | h | ⟨_, _, ⟨rfl, rfl⟩, h | h⟩)
      · exact .inl (.inl (by omega))
      · exact .inl (.inl (by omega))
      · exact .inl (.inr h)
      · exact .inr h

section
variable (s : State) (i : Nat) (iso : Int)

theorem plausible_bad (h : implausibleIso s.now (s.inst i) iso) : s.plausible i iso = (s.updInst i (madeImplausible s.now iso (s.inst i))).raise 12 3 (.rx (s.inst i).rx) :=
  if_pos ((implausibleIso_iff _ _ _).mpr h)

theorem plausible_good (h : ¬ implausibleIso s.now (s.inst i) iso) : s.plausible i iso = s.updInst i goodOnce :=
  if_neg (fun ht => h ((implausibleIso_iff _ _ _).mp ht))

theorem plausible_alarmed : s.alarmed (s.plausible i iso) := by
  by_cases h : implausibleIso s.now (s.inst i) iso
  · rw [plausible_bad s i iso h]
    exact State.alarmed_raise (State.alarmed_updInst (State.alarmed_refl s))
  · rw [plausible_good s i iso h]
    exact State.alarmed_updInst (State.alarmed_refl s)

end

/-! ## The figures of Table 4-4 (R125, R126) -/

/-- DEPTH before its limit. -/
def depthOf (w : WindowMeas) : Int :=
  match w.eh, w.r with
  | _, none => 4000
  | none, some _ => -4000
  | some h, some r => clampI (-4000) 4000 (h - r)

/-- LOOPLOSS at a DAC gain. -/
def lossOf (w : WindowMeas) (dac : Int) : Int := match w.eh with | some h => clampI (-10000) 20000 (-h - dac) | none => 20000

/-- ISO at a power-table entry, its DAC gain and the external receive gain. -/
def isolationOf (w : WindowMeas) (e : Word64) (dac ext : Int) : Int := match w.eh with | some h => clampI 0 20000 (expOut e - dac + ext + 200 - h) | none => 20000

/-- A canceller with the figures of a window published. -/
def withFigures (now : Nat) (w : WindowMeas) (iso ll d : Int) (x : Inst) : Inst := { x with
  valid := true, iso := iso, ll := ll, depth := min d 3500, dmeas := d, tape := clampI (-10000) 10000 w.tape, pubAt := some now, staleSeen := false
  prevIso := some (iso, now), lastEh := w.eh, st := if x.st = .acquire then .track else x.st }

/-- A window has ended and the next begins. -/
def windowed (now : Nat) (x : Inst) : Inst := { x with winAt := now, winPol := none }

/-- The figures of a window judged by the installation model and published; what follows is DEPTH below 0, the report and the caps. -/
def figuresOut (s : State) (i : Nat) (w : WindowMeas) (iso ll d : Int) : State := ((s.updInst i (windowed s.now)).plausible i iso).updInst i (withFigures s.now w iso ll d)

/-- A window that is due ends. -/
def windowEnds (s : State) (i : Nat) : Prop := ((s.inst i).st = .acquire ∨ (s.inst i).st = .track) ∧ (s.inst i).winAt + (s.winPolicy i).dwin * tms ≤ s.now

section
variable (s : State) (i : Nat) (w : WindowMeas)

theorem cxWindowClose_idle (h : ¬ windowEnds s i) : s.cxWindowClose i w = s := by
  unfold State.cxWindowClose
  dsimp only
  rw [if_pos]
  by_contra hn
  exact h ⟨by_contra fun hs => hn (.inl (not_or.mp hs)), Nat.not_lt.mp fun hl => hn (.inr hl)⟩

theorem cxWindowClose_ends (h : windowEnds s i) : s.cxWindowClose i w =
    if w.samples < 2 ^ 20 ∨ dacM (s.txc (s.inst i).tx).entry = 0 then s.updInst i (windowed s.now) else (s.updInst i (windowed s.now)).publish i w := by
  unfold windowEnds at h
  unfold State.cxWindowClose
  dsimp only
  rw [if_neg]
  · rfl
  · rintro (⟨h1, h2⟩ | h3)
    · exact h.1.elim h1 h2
    · exact absurd h.2 (Nat.not_le.mpr h3)

end

section
variable (s : State) (i : Nat) (w : WindowMeas) (e : Word64) (dac : Int)

/-- A window that publishes: its figures, the alarm of a DEPTH below 0, the report, the caps. -/
theorem cxWindowClose_publishes (h : windowEnds s i) (hn : 2 ^ 20 ≤ w.samples) (he : e = (s.txc (s.inst i).tx).entry) (hm : dacM e ≠ 0) (hd : dac = Config.dacGainDb (dacM e) (dacE e)) :
    ∃ u, u = figuresOut s i w (isolationOf w e dac (s.inst i).extRxg) (lossOf w dac) (depthOf w) ∧
      s.cxWindowClose i w = (((if depthOf w < 0 then u.raise 11 3 (.rx (s.inst i).rx) else u).cxReport i).capAll) := by
  subst hd he
  refine ⟨_, rfl, ?_⟩
  rw [cxWindowClose_ends s i w h, if_neg (not_or.mpr ⟨Nat.not_lt.mpr hn, hm⟩)]
  unfold State.publish
  dsimp only
  rw [State.inst_updInst]
  rfl

end

section
variable (s : State) (i : Nat) (w : WindowMeas) (iso ll d : Int)

theorem figuresOut_inst : (figuresOut s i w iso ll d).inst i = withFigures s.now w iso ll d (((s.updInst i (windowed s.now)).plausible i iso).inst i) := State.inst_updInst _ _ _

theorem figuresOut_alarmed : s.alarmed (figuresOut s i w iso ll d) :=
  State.alarmed_updInst (State.alarmed_trans (State.alarmed_updInst (State.alarmed_refl s)) (plausible_alarmed _ i iso))

theorem figuresOut_implausible (h : implausibleIso s.now (s.inst i) iso) : ((figuresOut s i w iso ll d).fsrc (16 * 12 + 3)).status = true := by
  unfold figuresOut
  rw [State.fsrc_updInst, plausible_bad _ _ _ (by rw [State.inst_updInst]; exact h)]
  exact State.raise_status _ _ _ _

/-- Plausible figures change their canceller alone. -/
theorem figuresOut_plausible (h : ¬ implausibleIso s.now (s.inst i) iso) :
    s.onlyInst (figuresOut s i w iso ll d) i ∧ (figuresOut s i w iso ll d).inst i = withFigures s.now w iso ll d (goodOnce (windowed s.now (s.inst i))) := by
  unfold figuresOut
  rw [plausible_good _ _ _ (by rw [State.inst_updInst]; exact h)]
  exact ⟨onlyInst_updInst (onlyInst_updInst (State.updInst_only s i _) _) _, by simp only [State.inst_updInst]⟩

end

/-- A canceller that measures is in TRACK once its figures are out. -/
theorem measuring_tracks {x : Inst} (h : x.st = .acquire ∨ x.st = .track) : (if x.st = .acquire then CxSt.track else x.st) = .track := by
  rcases h with h | h <;> rw [h] <;> rfl

section
variable {s : State} {i : Fin 64}

theorem exec_cxSearchEnd {peak : Nat} {ovr : Int} {n : Nat} (hr : s.runs) : exec (.cxSearchEnd i peak ovr n) s = .next (s.cxSearchEnd i.val peak ovr n) := exec_live (f := fun x => x.cxSearchEnd i.val peak ovr n) rfl hr

theorem exec_cxWindowClose {w : WindowMeas} (hr : s.runs) : exec (.cxWindowClose i w) s = .next (s.cxWindowClose i.val w) := exec_live (f := fun x => x.cxWindowClose i.val w) rfl hr

end

/-- Settles O33: a search that ends finds its delay or raises; a window that ends is discarded, or publishes figures that the installation model judges. -/
theorem searchesAndWindows : Obligations.SearchesAndWindows := by
  unfold Obligations.SearchesAndWindows
  refine ⟨?_, ?_, ?_, ?_, ?_, ?_⟩
  · intro s i peak ovr n hr h
    rw [exec_cxSearchEnd hr, cxSearchEnd_idle]
    rintro ⟨h1, h2, h3⟩
    rcases h with h | h | h
    · exact h h1
    · omega
    · exact absurd h3 (Nat.not_le.mpr h)
  · intro s i peak ovr n hr h1 h2 h3 hp
    refine ⟨_, exec_cxSearchEnd hr, ?_⟩
    rw [cxSearchEnd_ends s i.val peak ovr n ⟨h1, h2, h3⟩, if_pos hp]
    exact ⟨State.updInst_only _ _ _, State.inst_updInst _ _ _⟩
  · intro s i peak ovr n hr h1 h2 h3 hp
    refine ⟨s.updInst i.val (fun x => { x with winPol := none }), ?_, State.updInst_only _ _ _, State.inst_updInst _ _ _, State.raise_status _ _ _ _⟩
    rw [exec_cxSearchEnd hr, cxSearchEnd_ends s i.val peak ovr n ⟨h1, h2, h3⟩, if_neg (Int.not_le.mpr hp)]
  · intro s i w hr h
    rw [exec_cxWindowClose hr, cxWindowClose_idle]
    rintro ⟨h1, h2⟩
    rcases h with ⟨h, h'⟩ | h
    · exact h1.elim h h'
    · omega
  · intro s i w hr h1 h2 h
    refine ⟨_, exec_cxWindowClose hr, ?_⟩
    rw [cxWindowClose_ends s i.val w ⟨h1, h2⟩, if_pos h]
    exact ⟨State.updInst_only _ _ _, State.inst_updInst _ _ _⟩
  · intro s i w e dac d iso ll bad hr h1 h2 hn he hm hdac hd hll hiso hbad
    obtain rfl : d = depthOf w := hd
    obtain rfl : ll = lossOf w dac := hll
    obtain rfl : iso = isolationOf w e dac (s.inst i.val).extRxg := hiso
    obtain ⟨u, hu, ex⟩ := cxWindowClose_publishes s i.val w e dac ⟨h1, h2⟩ hn he hm hdac
    have own : u.inst i.val = _ := hu ▸ figuresOut_inst s i.val w _ _ _
    refine ⟨u, (exec_cxWindowClose hr).trans (congrArg _ ex), hu ▸ figuresOut_alarmed s i.val w _ _ _, congrArg Inst.valid own, congrArg Inst.iso own, congrArg Inst.ll own, congrArg Inst.dmeas own,
      congrArg Inst.depth own, congrArg Inst.tape own, congrArg Inst.pubAt own, congrArg Inst.lastEh own, fun hb => ?_, fun hb => ?_, fun hneg => ?_⟩
    · rw [hu]
      exact figuresOut_implausible s i.val w _ _ _ (hbad.mp hb)
    · obtain ⟨only, own⟩ := figuresOut_plausible s i.val w _ (lossOf w dac) (depthOf w) (fun hi => Bool.noConfusion ((hbad.mpr hi).symm.trans hb))
      rw [← hu] at only own
      rw [own]
      exact ⟨only, measuring_tracks h1, rfl, rfl, rfl⟩
    · rw [if_pos hneg]
      exact (Calm.capAll (Calm.cxReport (Calm.refl noTol _))).stat rfl _ (State.raise_status _ _ _ _)

end Sys2Proof.Proofs
end

section
/-! SUPPORT. Seeds, freezes and resets of the cancellers (R116 to R121). -/

namespace Sys2Proof.Proofs

open Sys2Proof.Machine Sys2Proof.Laws

/-- What an alarm may change includes the cancellers: it does not matter how they stood before. -/
theorem alarmed_cx {s t : State} (x : Tab Inst) (h : s.alarmed t) : ({ s with cx := x } : State).alarmed t := h

/-- The report to the master and the caps leave the cancellers as they were. -/
theorem reported_inst (u : State) (i j : Nat) : ((u.cxReport i).capAll).inst j = u.inst j :=
  inst_of ((Kept.capAll (p := { gcl := true, jl := true }) (Kept.cxReport (Kept.refl _ u))).cx rfl) j

/-- The report to the master and the caps leave the host interface as it was. -/
theorem reported_hif (u : State) (i : Nat) : ((u.cxReport i).capAll).hif = u.hif :=
  (Kept.capAll (p := { gcl := true, jl := true }) (Kept.cxReport (Kept.refl _ u))).hif rfl

/-! ## The start of a seed's fade (R118) -/

/-- A canceller without its seed. -/
def unseeded (x : Inst) : Inst := { x with seed := none }

theorem seedDrop_some {s : State} {i : Nat} {d : Seed} (h : (s.inst i).seed = some d) (st : Status) : s.seedDrop i st = (s.updInst i unseeded).completeId d.id st 0 0 := by
  unfold State.seedDrop
  rw [h]
  rfl

/-- A canceller whose seed fades in from the next chain-grid boundary. -/
def fadingIn (s : State) (i : Nat) (d : Seed) (x : Inst) : Inst := { x with
  gradOk := false, seed := some { d with phase := .fading, since := s.smpAtOrAfter chainBlk s.now, paused := if s.cxBothOn i then none else some (s.smpAtOrAfter chainBlk s.now) } }

/-- A seed's fade starts, and its descriptor is committed. -/
def fadeStarted (s : State) (i : Nat) (d : Seed) : State := (s.updInst i (fadingIn s i d)).updPend d.id (fun q => { q with committed := true })

section
variable (s : State) (i : Nat) (d : Seed)

theorem seedFade_starts (h : d.screened = true ∨ s.cxRadiates i = false) : s.seedFade i d = fadeStarted s i d := by
  unfold State.seedFade
  rw [if_neg]
  · rfl
  · rw [Bool.and_eq_true, Bool.not_eq_true']
    rintro ⟨h1, h2⟩
    rcases h with h | h
    · exact Bool.noConfusion (h1.symm.trans h)
    · exact Bool.noConfusion (h2.symm.trans h)

theorem seedFade_refused (h1 : d.screened = false) (h2 : s.cxRadiates i = true) : s.seedFade i d = s.seedDrop i .refusedState := by
  unfold State.seedFade
  rw [h1, h2]
  rfl

theorem fadeStarted_spec : fadeStarted s i d = { s with cx := (fadeStarted s i d).cx, hif := { s.hif with outstanding := (fadeStarted s i d).hif.outstanding } } ∧
    (∀ j, j ≠ i → (fadeStarted s i d).inst j = s.inst j) ∧ (∀ q ∈ (fadeStarted s i d).hif.outstanding, q.id = d.id → q.committed = true) ∧ (fadeStarted s i d).inst i = fadingIn s i d (s.inst i) := by
  refine ⟨rfl, fun j hj => State.inst_updInst_ne s i j _ (Ne.symm hj), fun q hq hid => ?_, State.inst_updInst s i _⟩
  obtain ⟨_, _, rfl⟩ := updPend_at _ _ _ q hq hid
  rfl

/-! ## The events of a seed (R118, R119) -/

theorem cxSeedLoaded_due (h : (s.inst i).seed = some d) (hp : d.phase = .loading) : s.cxSeedLoaded i =
    if d.screened then s.updInst i (fun x => { x with seed := some { d with phase := .screening, since := s.now } }) else s.seedFade i d := by
  unfold State.cxSeedLoaded
  rw [h]
  exact if_neg (not_not.mpr hp)

theorem cxSeedLoaded_idle (h : ∀ d ∈ (s.inst i).seed, d.phase ≠ .loading) : s.cxSeedLoaded i = s := by
  unfold State.cxSeedLoaded
  split
  · rename_i d hd
    exact if_pos (h d hd)
  · rfl

/-- The screen has had its four valid blocks, or its 5 ms. -/
def screenEnds (b : Nat) : Prop := d.phase = .screening ∧ (4 ≤ b ∨ d.since + 5 * tms ≤ s.now)

/-- A screened seed passes: four valid blocks, its residual and its energy in bounds. -/
def screenPasses (b em esh : Nat) : Prop := 4 ≤ b ∧ esh * 1024 ≤ em * (1024 + s.cxPol.eps) ∧ energyOf d.set ≤ energyAt s.cxPol.eMax

/-- A canceller whose seed was rejected by its screen. -/
def seedRejected (x : Inst) : Inst := { x with seedRej := satInc 0xFFFF x.seedRej }

variable (b em esh : Nat)

theorem cxSeedScreenEnd_ends (h : (s.inst i).seed = some d) (he : screenEnds s d b) : s.cxSeedScreenEnd i b em esh =
    if 4 ≤ b ∧ esh * 1024 ≤ em * (1024 + s.cxPol.eps) ∧ energyOf d.set ≤ energyAt s.cxPol.eMax then s.seedFade i d
    else ((s.updInst i seedRejected).seedDrop i .refusedState).raise 11 6 (.rx (s.inst i).rx) := by
  obtain ⟨hs, ht⟩ := he
  unfold State.cxSeedScreenEnd
  rw [h]
  refine if_neg ?_
  rintro (h1 | h1)
  · exact h1 hs
  · omega

theorem cxSeedScreenEnd_passes (h : (s.inst i).seed = some d) (he : screenEnds s d b) (hp : screenPasses s d b em esh) : s.cxSeedScreenEnd i b em esh = s.seedFade i d :=
  (cxSeedScreenEnd_ends s i d b em esh h he).trans (if_pos hp)

theorem cxSeedScreenEnd_fails (h : (s.inst i).seed = some d) (he : screenEnds s d b) (hp : ¬ screenPasses s d b em esh) :
    s.cxSeedScreenEnd i b em esh = (((s.updInst i seedRejected).updInst i unseeded).completeId d.id .refusedState 0 0).raise 11 6 (.rx (s.inst i).rx) := by
  have kept : ((s.updInst i seedRejected).inst i).seed = some d := by rw [State.inst_updInst]; exact h
  rw [← seedDrop_some kept]
  exact (cxSeedScreenEnd_ends s i d b em esh h he).trans (if_neg hp)

theorem cxSeedScreenEnd_idle (h : ∀ d ∈ (s.inst i).seed, d.phase ≠ .screening ∨ (b < 4 ∧ s.now < d.since + 5 * tms)) : s.cxSeedScreenEnd i b em esh = s := by
  unfold State.cxSeedScreenEnd
  split
  · rename_i d hd
    exact if_pos (h d hd)
  · rfl

/-- A seed's fade has reached k = L. -/
def fadeEnds : Prop := d.phase = .fading ∧ d.paused = none ∧ d.since + d.len * chainSmp + d.lost ≤ s.now

/-- A canceller whose seed has become its main set. -/
def seeded (x : Inst) : Inst := { x.clearPub with
  main := d.set, scale := d.scale, gradOk := false, st := if x.st = .idle then .idle else .acquire, heldSt := .acquire, winAt := s.now, cycPol := none, winPol := none
  cycleAt := s.smpAtOrAfter chainBlk s.now, seed := none }

theorem cxSeedFadeEnd_due (h : (s.inst i).seed = some d) (he : fadeEnds s d) : s.cxSeedFadeEnd i = ((((s.updInst i (seeded s d)).completeId d.id .ok 0 0).cxReport i).capAll) := by
  unfold fadeEnds at he
  unfold State.cxSeedFadeEnd
  rw [h]
  dsimp only
  rw [if_pos he]
  unfold State.seedInstall
  rw [h]
  rfl

theorem cxSeedFadeEnd_idle (h : ∀ d ∈ (s.inst i).seed, d.phase ≠ .fading ∨ d.paused ≠ none ∨ s.now < d.since + d.len * chainSmp + d.lost) : s.cxSeedFadeEnd i = s := by
  unfold State.cxSeedFadeEnd
  split
  · rename_i d hd
    refine if_neg ?_
    rintro ⟨h1, h2, h3⟩
    rcases h d hd with h | h | h
    · exact h h1
    · exact h h2
    · omega
  · rfl

theorem cxSeedFadeEnd_inst (h : (s.inst i).seed = some d) (he : fadeEnds s d) (j : Nat) : (s.cxSeedFadeEnd i).inst j = if i = j then seeded s d (s.inst i) else s.inst j := by
  rw [cxSeedFadeEnd_due s i d h he, reported_inst, inst_of ((kept_completeId _ _ _ _ _).cx rfl), State.inst_updInst_at]

/-- The seed's descriptor has ended. -/
theorem cxSeedFadeEnd_gone (h : (s.inst i).seed = some d) (he : fadeEnds s d) : ∀ q ∈ (s.cxSeedFadeEnd i).hif.outstanding, q.id ≠ d.id := by
  intro q hq
  rw [cxSeedFadeEnd_due s i d h he, reported_hif, completeId_outstanding, List.mem_filter, decide_eq_true_eq] at hq
  exact hq.2

end

/-! ## CX_FREEZE (R116) -/

/-- A canceller that follows a CX_FREEZE. -/
def frozenBy (fr : Byte) (x : Inst) : Inst := { x with frozen := decide (fr = 1), gradOk := x.gradOk && decide (fr ≠ 1) }

/-- One canceller of the mask follows, if it is assigned. -/
def freezeOne (fr : Byte) (i : Nat) (a : State) : State := if (a.inst i).st = .unassigned ∨ (a.inst i).st = .joined then a else a.updInst i (frozenBy fr)

theorem freezeOne_ne (fr : Byte) (i : Nat) (a : State) (j : Nat) (h : j ≠ i) : (freezeOne fr i a).inst j = a.inst j := by
  unfold freezeOne
  split
  · rfl
  · exact State.inst_updInst_ne _ _ _ _ (Ne.symm h)

theorem freezeOne_own (fr : Byte) (i : Nat) (a : State) : (freezeOne fr i a).inst i = if (a.inst i).st ≠ .unassigned ∧ (a.inst i).st ≠ .joined then frozenBy fr (a.inst i) else a.inst i := by
  unfold freezeOne
  by_cases h : (a.inst i).st = .unassigned ∨ (a.inst i).st = .joined
  · rw [if_pos h, if_neg (fun hn => h.elim hn.1 hn.2)]
  · rw [if_neg h, if_pos (not_or.mp h), State.inst_updInst]

section
variable (s : State) (p : Pend) (fr : Byte) (mask : Word64) (hd : p.desc = .cxFreeze fr mask)
include hd

theorem cxFreezeApply_each : s.cxFreezeApply p = s.each ((List.range 64).filter (fun i => mask.getLsbD i)) (freezeOne fr) := by
  unfold State.cxFreezeApply
  rw [hd]
  rfl

theorem cxFreezeApply_inst (i : Nat) (hi : i < 64) :
    (s.cxFreezeApply p).inst i = if mask.getLsbD i = true ∧ (s.inst i).st ≠ .unassigned ∧ (s.inst i).st ≠ .joined then frozenBy fr (s.inst i) else s.inst i := by
  obtain ⟨out, masked⟩ := each_at State.inst (fun _ => True) (freezeOne fr) (freezeOne_ne fr) (fun _ _ _ => trivial) _ s trivial (List.Nodup.filter (fun i => mask.getLsbD i) List.nodup_range) i
  rw [cxFreezeApply_each s p fr mask hd]
  by_cases hm : mask.getLsbD i = true
  · obtain ⟨a, -, before, after⟩ := masked (List.mem_filter.mpr ⟨List.mem_range.mpr hi, hm⟩)
    rw [after, freezeOne_own, before]
    simp only [hm, true_and]
  · rw [out (fun h => hm (List.mem_filter.mp h).2), if_neg (fun h => hm h.1)]

theorem cxFreezeApply_alarmed : s.alarmed (s.cxFreezeApply p) := by
  rw [cxFreezeApply_each s p fr mask hd]
  exact State.alarmed_each (State.alarmed_refl s) (fun _ _ hb => State.alarmed_ite hb (State.alarmed_updInst hb))

end

/-- The CX_FREEZEs that have been accepted before now. -/
def freezesDue (s : State) : List Pend := s.pends (fun p => isCxFreeze p && decide (p.acc < s.now))

theorem cxFreezeBoundary_one (s : State) (p : Pend) (hb : s.onSmp chainBlk = true) (hp : freezesDue s = [p]) : s.cxFreezeBoundary = (s.cxFreezeApply p).complete p .ok 0 0 := by
  unfold freezesDue at hp
  unfold State.cxFreezeBoundary
  dsimp only
  rw [if_pos hb, hp]
  rfl

theorem cxFreezeBoundary_idle (s : State) (h : s.onSmp chainBlk = false ∨ freezesDue s = []) : s.cxFreezeBoundary = s := by
  unfold freezesDue at h
  unfold State.cxFreezeBoundary
  dsimp only
  rcases h with h | h
  · rw [h]
    rfl
  · rw [h]
    exact ite_self _

/-! ## CX_RESET (R117) -/

/-- A canceller reset: zeroed, its figures cleared, with its delay kept. -/
def zeroed (s : State) (i : Nat) (x : Inst) : Inst := { x.clearPub with
  main := [], scale := 0, cand := none, gradOk := false, st := if !s.cxRun i then CxSt.idle else if (s.inst i).auto && !(s.inst i).searched then .search else .acquire, heldSt := .acquire
  winAt := s.now, cycleAt := s.smpAtOrAfter chainBlk s.now, cycPol := none, winPol := none }

theorem cxZero_assigned (s : State) (i : Nat) (h1 : (s.inst i).st ≠ .unassigned) (h2 : (s.inst i).st ≠ .joined) : s.cxZero i = s.updInst i (zeroed s i) := if_neg (not_or.mpr ⟨h1, h2⟩)

theorem zeroed_st (s : State) (i : Nat) (x : Inst) : (zeroed s i x).st = if s.cxRun i = false then .idle else if (s.inst i).auto = true ∧ (s.inst i).searched = false then .search else .acquire := by
  simp only [zeroed, Bool.not_eq_true', Bool.and_eq_true]

/-- The CX_RESETs of a canceller that have been accepted before now. -/
def resetsDue (s : State) (i : Nat) : List Pend := s.pends (fun p => isCxReset i p && decide (p.acc < s.now))

section
variable (s : State) (i : Nat)

theorem cxResetBoundary_due (hb : s.onSmp chainBlk = true) (hd : ∃ p ∈ s.hif.outstanding, isCxReset i p = true ∧ p.acc < s.now) :
    s.cxResetBoundary i = (resetsDue s i).foldl (fun a p => a.complete p .ok 0 0) (((s.cxZero i).cxReport i).capAll) := by
  obtain ⟨p, hp, hr, ha⟩ := hd
  have pending : (!(resetsDue s i).isEmpty) = true := by
    simp only [resetsDue, State.pends, Bool.not_eq_true', List.isEmpty_eq_false_iff_exists_mem, List.mem_filter]
    exact ⟨p, hp, by simp [hr, ha]⟩
  exact if_pos ⟨hb, pending⟩

theorem cxResetBoundary_idle (h : s.onSmp chainBlk = false ∨ resetsDue s i = []) : s.cxResetBoundary i = s := by
  refine if_neg ?_
  rintro ⟨hb, hd⟩
  rcases h with h | h
  · exact Bool.noConfusion (hb.symm.trans h)
  · unfold resetsDue at h
    rw [h] at hd
    exact absurd hd (by decide)

section
variable (hb : s.onSmp chainBlk = true) (hd : ∃ p ∈ s.hif.outstanding, isCxReset i p = true ∧ p.acc < s.now)
include hb hd

theorem cxResetBoundary_inst (h1 : (s.inst i).st ≠ .unassigned) (h2 : (s.inst i).st ≠ .joined) (j : Nat) : (s.cxResetBoundary i).inst j = if i = j then zeroed s i (s.inst i) else s.inst j := by
  have fold : ∀ (l : List Pend) (u : State), Kept complPart u (l.foldl (fun a p => a.complete p .ok 0 0) u) := fun l u => Kept.foldl (Kept.refl _ u) (fun _ _ k => Kept.complete k)
  rw [cxResetBoundary_due s i hb hd, inst_of ((fold _ _).cx rfl), reported_inst, cxZero_assigned s i h1 h2, State.inst_updInst_at]

/-- No CX_RESET of the canceller that was due is outstanding. -/
theorem cxResetBoundary_gone : ∀ q ∈ (s.cxResetBoundary i).hif.outstanding, isCxReset i q = true → s.now ≤ q.acc := by
  have hif : (((s.cxZero i).cxReport i).capAll).hif = s.hif := (reported_hif _ _).trans ((Kept.cxZero (p := { cx := true }) (Kept.refl _ s)).hif rfl)
  intro q hq hr
  rw [cxResetBoundary_due s i hb hd] at hq
  obtain ⟨-, late⟩ := completed_pends _ (fun a p => complete_outstanding a p .ok 0 0) s _ _ (congrArg Hif.outstanding hif) q hq
  rw [hr, Bool.true_and, decide_eq_false_iff_not] at late
  exact Nat.not_lt.mp late

end
end

/-! ## The rows of these events on a device out of reset -/

section
variable {s : State} {i : Fin 64}

theorem exec_cxSeedLoaded (hr : s.runs) : exec (.cxSeedLoaded i) s = .next (s.cxSeedLoaded i.val) := exec_live (f := fun x => x.cxSeedLoaded i.val) rfl hr
theorem exec_cxSeedScreenEnd {b em esh : Nat} (hr : s.runs) : exec (.cxSeedScreenEnd i b em esh) s = .next (s.cxSeedScreenEnd i.val b em esh) := exec_live (f := fun x => x.cxSeedScreenEnd i.val b em esh) rfl hr
theorem exec_cxSeedFadeEnd (hr : s.runs) : exec (.cxSeedFadeEnd i) s = .next (s.cxSeedFadeEnd i.val) := exec_live (f := fun x => x.cxSeedFadeEnd i.val) rfl hr
theorem exec_cxFreezeBoundary (hr : s.runs) : exec .cxFreezeBoundary s = .next s.cxFreezeBoundary := exec_live (f := fun x => x.cxFreezeBoundary) rfl hr
theorem exec_cxResetBoundary (hr : s.runs) : exec (.cxResetBoundary i) s = .next (s.cxResetBoundary i.val) := exec_live (f := fun x => x.cxResetBoundary i.val) rfl hr

end

/-- Settles O34: a seed at each of its events, a CX_FREEZE and a CX_RESET at their boundary; at any other instant none of them does anything. -/
theorem seedsFreezesAndResets : Obligations.SeedsFreezesAndResets := by
  unfold Obligations.SeedsFreezesAndResets
  refine ⟨?_, ?_, ?_, ?_, ?_, ?_, ?_, ?_, ?_, ?_, ?_⟩
  · intro s i d hr h hp
    refine ⟨_, exec_cxSeedLoaded hr, ?_⟩
    rw [cxSeedLoaded_due s i.val d h hp]
    refine ⟨fun hs => ?_, fun hs hc => ⟨s.updInst i.val unseeded, ?_, State.updInst_only _ _ _, State.inst_updInst _ _ _⟩, fun hs hc => ?_⟩
    · rw [if_pos hs]
      exact ⟨State.updInst_only _ _ _, State.inst_updInst _ _ _⟩
    · rw [if_neg (by rw [hs]; decide), seedFade_refused s i.val d hs hc, seedDrop_some h]
    · rw [if_neg (by rw [hs]; decide), seedFade_starts s i.val d (.inr hc)]
      exact fadeStarted_spec s i.val d
  · intro s i hr h
    rw [exec_cxSeedLoaded hr, cxSeedLoaded_idle s i.val h]
  · intro s i d b em esh hr h hp h1 h2 h3 hs
    refine ⟨_, exec_cxSeedScreenEnd hr, ?_⟩
    rw [cxSeedScreenEnd_passes s i.val d b em esh h ⟨hp, .inl h1⟩ ⟨h1, h2, h3⟩, seedFade_starts s i.val d hs]
    exact fadeStarted_spec s i.val d
  · intro s i d b em esh hr h hp ht hf
    have fails : ¬ screenPasses s d b em esh := by
      rintro ⟨h1, h2, h3⟩
      omega
    refine ⟨(s.updInst i.val seedRejected).updInst i.val unseeded, ?_, onlyInst_updInst (State.updInst_only _ _ _) _, ?_, State.raise_status _ _ _ _⟩
    · rw [exec_cxSeedScreenEnd hr, cxSeedScreenEnd_fails s i.val d b em esh h ⟨hp, ht⟩ fails]
    · simp only [State.inst_updInst]
      rfl
  · intro s i b em esh hr h
    rw [exec_cxSeedScreenEnd hr, cxSeedScreenEnd_idle s i.val b em esh h]
  · intro s i d hr h hp hu ht
    have ends : fadeEnds s d := ⟨hp, hu, ht⟩
    have own : (s.cxSeedFadeEnd i.val).inst i.val = seeded s d (s.inst i.val) := (cxSeedFadeEnd_inst s i.val d h ends i.val).trans (if_pos rfl)
    have k : Kept { complPart with cx := true, gcl := true, jl := true } s (s.cxSeedFadeEnd i.val) := Kept.cxSeedFadeEnd (Kept.refl _ s)
    exact ⟨_, exec_cxSeedFadeEnd hr, congrArg Inst.main own, congrArg Inst.scale own, congrArg Inst.valid own, congrArg Inst.seed own, congrArg Inst.st own,
      fun j hj => (cxSeedFadeEnd_inst s i.val d h ends j).trans (if_neg (Ne.symm hj)), cxSeedFadeEnd_gone s i.val d h ends, k.flt rfl, k.rfe rfl, k.prot rfl, k.slots rfl⟩
  · intro s i hr h
    rw [exec_cxSeedFadeEnd hr, cxSeedFadeEnd_idle s i.val h]
  · intro s p fr mask i hr hb hp hd hi
    refine ⟨_, exec_cxFreezeBoundary hr, ?_⟩
    rw [cxFreezeBoundary_one s p hb hp]
    have k := kept_complete (s.cxFreezeApply p) p .ok 0 0
    exact ⟨(inst_of (k.cx rfl) i).trans (cxFreezeApply_inst s p fr mask hd i hi), complete_gone _ _ _ _ _, (k.flt rfl).trans ((Kept.cxFreezeApply (p := { cx := true }) (Kept.refl _ s)).flt rfl),
      alarmed_cx _ (State.alarmed_complete (cxFreezeApply_alarmed s p fr mask hd))⟩
  · intro s hr h
    rw [exec_cxFreezeBoundary hr, cxFreezeBoundary_idle s h]
  · intro s i hr hb hd h1 h2
    have own : (s.cxResetBoundary i.val).inst i.val = zeroed s i.val (s.inst i.val) := (cxResetBoundary_inst s i.val hb hd h1 h2 i.val).trans (if_pos rfl)
    have k : Kept { complPart with cx := true, gcl := true, jl := true } s (s.cxResetBoundary i.val) := Kept.cxResetBoundary (Kept.refl _ s)
    exact ⟨_, exec_cxResetBoundary hr, congrArg Inst.main own, congrArg Inst.valid own, congrArg Inst.cand own, (congrArg Inst.bulk own).trans rfl, (congrArg Inst.st own).trans (zeroed_st s i.val _),
      fun j hj => (cxResetBoundary_inst s i.val hb hd h1 h2 j).trans (if_neg (Ne.symm hj)), cxResetBoundary_gone s i.val hb hd, k.flt rfl, k.rfe rfl, k.prot rfl, k.slots rfl⟩
  · intro s i hr h
    rw [exec_cxResetBoundary hr, cxResetBoundary_idle s i.val h]

end Sys2Proof.Proofs
end

section
/-! SUPPORT. Gain ticks, loops at their boundaries, cuts to a lower cap and stale figures (R134 to R139, R148, R152 to R155, R160, R164). -/

namespace Sys2Proof.Proofs

open Sys2Proof.Machine Sys2Proof.Laws

/-! ## The tick and the sweep before it (R134, R326) -/

theorem onGrid_of {a b : State} (ht : b.tim = a.tim) (hn : b.now = a.now) (g : Nat) : b.onGrid g = a.onGrid g := by
  unfold State.onGrid State.dtAt
  rw [ht, hn]

theorem kept_complSweep (s : State) (lo hi : Nat) : Kept Part.alarms s (s.complSweep lo hi) := Kept.complSweep (Kept.refl _ s)

/-- With no corrupt word to find, a sweep does nothing. -/
theorem complSweep_clean (s : State) (lo hi : Nat) (h : s.flt.badCompl = []) : s.complSweep lo hi = s := by
  unfold State.complSweep
  rw [h]
  rfl

section
variable (s : State) (meas : List LoopMeas)

theorem gainTick_tick (h : s.onGrid gainTk = true) : s.gainTick meas = s.each s.gainSlots (fun n a => a.tickSlot meas n) := if_pos h

/-- Between ticks and chain-grid boundaries nothing moves. -/
theorem gainTick_between (h1 : s.onGrid gainTk = false) (h2 : s.onSmp chainBlk = false) : s.gainTick meas = s := by
  unfold State.gainTick
  rw [h1, h2]
  rfl

end

/-! ## SLOT_GAIN_SETs that have arrived (R139) -/

section
variable (s : State) (n : Nat)

theorem kept_gainSetCheck : Kept complPart s (s.gainSetCheck n) := Kept.gainSetCheck (Kept.refl _ s)

theorem gainSetCheck_gain (j : Nat) : (s.gainSetCheck n).gain j = s.gain j := gain_of ((kept_gainSetCheck s n).gcl rfl) j

theorem gainReached_of {a b : State} (hg : b.gain n = a.gain n) : b.gainReached n = a.gainReached n := by
  unfold State.gainReached
  rw [hg]

theorem gainSetCheck_alarmed : s.alarmed (s.gainSetCheck n) :=
  State.alarmed_ite (State.alarmed_foldl (State.alarmed_refl s) (fun _ _ h => State.alarmed_complete h)) (State.alarmed_refl s)

end

/-! ## A loop at its boundary (R152 to R155, R160) -/

section
variable (s : State) (n : Nat)

/-- The loop of slot n goes over to the active bank of its set (R160). -/
def bankTurned : State := s.updGain n (fun g => { g with bankB := (s.lut g.lutset).activeB })

/-- The bank swaps of set i that are outstanding are committed (R160). -/
def swapsCommitted (i : Nat) : State := (s.pends (isLutSwap i)).foldl (fun a p => a.updPend p.id (fun q => { q with committed := true })) s

/-- What a loop boundary does for the banks: the loop turns, and a swap that all its users have followed ends (R160). -/
def boundaryTurned : State :=
  let a := swapsCommitted (bankTurned s n) ((bankTurned s n).gain n).lutset
  a.lutSwapCheck (a.gain n).lutset

theorem kept_swapsCommitted (i : Nat) : Kept { hif := true } s (swapsCommitted s i) := Kept.foldl (Kept.refl _ s) (fun _ _ k => Kept.updPend k)

theorem kept_boundaryTurned : Kept tickPart s (boundaryTurned s n) :=
  Kept.lutSwapCheck ((Kept.updGain (Kept.refl tickPart s)).trans (Kept.mono (kept_swapsCommitted (bankTurned s n) _)))

theorem boundaryTurned_gain : (boundaryTurned s n).gain n = { s.gain n with bankB := (s.lut (s.gain n).lutset).activeB } := by
  unfold boundaryTurned
  dsimp only
  rw [gain_of ((kept_lutSwapCheck _ _).gcl rfl), gain_of ((kept_swapsCommitted _ _).gcl rfl)]
  exact State.gain_updGain s n _

variable (m : LoopMeas)

theorem agcPower_of {a b : State} (hs : b.slots = a.slots) (hr : b.rfe = a.rfe) (hg : (b.gain n).spRef = (a.gain n).spRef) : b.agcPower n m = a.agcPower n m := by
  unfold State.agcPower State.expOutOf
  simp only [slot_of hs, txc_of hr, hg]

theorem lutUse_of {a b : State} (hl : b.luts = a.luts) (hf : b.flt = a.flt) (i : Nat) : b.lutUse i = a.lutUse i := by
  unfold State.lutUse
  rw [lut_of hl, hf]

/-- The request of a hardware loop by bank b of its table l at the power p, clamped (R154, R155). -/
def loopRequest (l : Lut) (b : Bool) (p : Int) (g : Gain) : Int := clampI (-120000) (g.host * 100) (g.acc + 2 * lutStep l b g.interp (g.spEff - p))

/-- A stage whose loop has taken the measurement p. -/
def loopMeasured (p : Int) (g : Gain) : Gain := { g with pmeas := some p, pmeasSeq := g.pmeasSeq + 1 }

/-- A stage whose loop aims at the request r, and reports no limit. -/
def loopAimed (r : Int) (since : Option Nat) (g : Gain) : Gain := { g with target := min g.host (divNearest 2 r 100), request := none, limitSince := since, agcLimit := false }

/-- A hardware loop that no limit held at its last boundary aims at its request, and raises nothing. -/
theorem agcStep_unheld (hv : m.void = false) (hsrc : (s.gain n).agcSrc = false) (hlim : (s.gain n).limitSince = none) :
    ∃ since, s.agcStep n m = (s.updGain n (loopMeasured (s.agcPower n m))).updGain n (loopAimed (loopRequest (s.lutUse (s.gain n).lutset) (s.gain n).bankB (s.agcPower n m) (s.gain n)) since) := by
  have raw : (s.gain n).rawRequest (s.lutUse (s.gain n).lutset) ((s.gain n).spEff - s.agcPower n m) =
      some ((s.gain n).acc + 2 * lutStep (s.lutUse (s.gain n).lutset) (s.gain n).bankB (s.gain n).interp ((s.gain n).spEff - s.agcPower n m)) := by
    unfold Gain.rawRequest
    rw [hsrc]
    rfl
  have fresh : decide (tsec ≤ s.now - s.now) = false := by
    rw [Nat.sub_self]
    rfl
  unfold State.agcStep
  rw [hv]
  dsimp only
  rw [raw]
  dsimp only
  rw [hlim, if_neg Bool.false_ne_true]
  generalize (_ && decide (300 < _) : Bool) = bad
  cases bad with
  | false => exact ⟨none, rfl⟩
  | true =>
    refine ⟨some s.now, ?_⟩
    rw [if_pos rfl]
    simp only [fresh, Bool.false_and]
    rfl

theorem agcStep_spec (hv : m.void = false) (hsrc : (s.gain n).agcSrc = false) (hlim : (s.gain n).limitSince = none) :
    Kept { gcl := true } s (s.agcStep n m) ∧ ∃ since, (s.agcStep n m).gain n = loopAimed (loopRequest (s.lutUse (s.gain n).lutset) (s.gain n).bankB (s.agcPower n m) (s.gain n)) since (loopMeasured (s.agcPower n m) (s.gain n)) := by
  obtain ⟨since, e⟩ := agcStep_unheld s n m hv hsrc hlim
  rw [e]
  exact ⟨Kept.updGain (Kept.updGain (Kept.refl _ s)), since, by rw [State.gain_updGain, State.gain_updGain]⟩

end

section
variable (s : State) (meas : List LoopMeas) (n : Nat) (m : LoopMeas)
variable (ha : (s.slot n).st = .active) (hm : s.slotMuted n = false) (hb : s.loopBoundary n = true)
variable (hf : meas.find? (fun x => decide (x.slot.val = n)) = some m) (hq : ∀ b, s.marginBound n = some b → (s.gain n).applied ≤ b)
include ha hm hb hf hq

/-- An ACTIVE, unmuted slot whose loop stands at a boundary: the bank turns, the loop takes its measurement, and the ramps move (R136, R152, R160). -/
theorem tickSlot_boundary : s.tickSlot meas n = ((((boundaryTurned (tickMargin s n) n).agcStep n m).gainMove n).gainSetCheck n).spMove n := by
  obtain ⟨k2, -, _, _, _, _, _, _, _, _, _, g2, -⟩ := tickMargin_spec s n hq
  obtain ⟨s2, hs2⟩ : ∃ x : State, x = tickMargin s n := ⟨_, rfl⟩
  rw [← hs2] at k2 g2
  have due : s2.loopBoundary n = true := by
    rw [← hb]
    unfold State.loopBoundary
    rw [onGrid_of (k2.tim rfl) k2.now, g2]
    rfl
  obtain ⟨s3, hs3⟩ : ∃ x : State, x = boundaryTurned s2 n := ⟨_, rfl⟩
  have k3 : Kept tickPart s s3 := hs3 ▸ (Kept.mono k2).trans (kept_boundaryTurned s2 n)
  have live : (s3.slot n).st = .active ∧ !s3.slotMuted n := by
    have same : s3.slotMuted n = s.slotMuted n := by rw [k3.frame]; rfl
    rw [slot_of (k3.slots rfl), same, hm]
    exact ⟨ha, rfl⟩
  have e : s.tickSlot meas n = (if (s3.slot n).st = .active ∧ !s3.slotMuted n then ((s3.agcStep n m).gainMove n).gainSetCheck n else s3).spMove n := by
    have first : (if (s.slot n).st = .active then (s.updGain n Gain.newInterval).marginTick n else s.updGain n Gain.newInterval) = s2 := hs2.symm
    unfold State.tickSlot
    dsimp only
    rw [first, due, hf, hs3]
    rfl
  rw [e, if_pos live, hs3, hs2]

/-- A hardware loop at its boundary: what the tick leaves of it (R153 to R155, R160). -/
theorem tickSlot_loop (hv : m.void = false) (hsrc : (s.gain n).agcSrc = false) (hlim : (s.gain n).limitSince = none) :
    ((s.tickSlot meas n).gain n).pmeas = some (s.agcPower n m) ∧ ((s.tickSlot meas n).gain n).pmeasSeq = (s.gain n).pmeasSeq + 1 ∧
    ((s.tickSlot meas n).gain n).bankB = (s.lut (s.gain n).lutset).activeB ∧
    ((s.tickSlot meas n).gain n).target = min (s.gain n).host (divNearest 2 (loopRequest (s.lutUse (s.gain n).lutset) (s.lut (s.gain n).lutset).activeB (s.agcPower n m) (s.gain n)) 100) ∧
    (s.tickSlot meas n).slots = s.slots := by
  obtain ⟨k2, -, _, _, _, _, _, _, _, _, _, g2, -⟩ := tickMargin_spec s n hq
  have g3 := boundaryTurned_gain (tickMargin s n) n
  have k3 : Kept tickPart s (boundaryTurned (tickMargin s n) n) := (Kept.mono k2).trans (kept_boundaryTurned _ n)
  have e := tickSlot_boundary s meas n m ha hm hb hf hq
  rw [g2, lut_of (k2.luts rfl)] at g3
  generalize boundaryTurned (tickMargin s n) n = s3 at e g3 k3
  obtain ⟨k4, since, g4⟩ := agcStep_spec s3 n m hv (by rw [g3]; exact hsrc) (by rw [g3]; exact hlim)
  rw [agcPower_of n m (k3.slots rfl) (k3.rfe rfl) (by rw [g3]; rfl), g3, lutUse_of (k3.luts rfl) (k3.flt rfl)] at g4
  generalize s3.agcStep n m = s4 at e k4 g4
  obtain ⟨k5, -, _, _, _, g5⟩ := gainMove_spec s4 n (by rw [g4]; rfl)
  have k6 := kept_gainSetCheck (s4.gainMove n) n
  have g6 := gainSetCheck_gain (s4.gainMove n) n n
  obtain ⟨k7, -, -, _, g7⟩ := spMove_spec ((s4.gainMove n).gainSetCheck n) n (by rw [g6, g5, g4]; rfl)
  rw [e, g7, g6, g5, g4]
  exact ⟨rfl, rfl, rfl, rfl, by rw [k7.slots rfl, k6.slots rfl, k5.slots rfl, k4.slots rfl, k3.slots rfl]⟩

end

/-! ## The cut to a lower cap (R137, R139) -/

section
variable (s : State) (n : Nat)

/-- A stage cut to its cap, counted. -/
def cutToCap (g : Gain) : Gain := { g.setAcc (g.cap * 100) with cutDue := false, fastNow := true, cutCnt := satInc 0xFFFF g.cutCnt }

theorem capCut_above (hd : (s.gain n).cutDue = true) (hb : s.onSmp chainBlk = true) (h : (s.gain n).cap * 100 < (s.gain n).acc) : s.capCut n = (s.updGain n cutToCap).gainSetCheck n := by
  unfold State.capCut
  dsimp only
  rw [if_pos ⟨hd, hb⟩, if_pos h]
  rfl

theorem capCut_below (hd : (s.gain n).cutDue = true) (hb : s.onSmp chainBlk = true) (h : (s.gain n).acc ≤ (s.gain n).cap * 100) : s.capCut n = s.updGain n (fun g => { g with cutDue := false }) := by
  unfold State.capCut
  dsimp only
  rw [if_pos ⟨hd, hb⟩, if_neg (Int.not_lt.mpr h)]

theorem capCut_idle (h : (s.gain n).cutDue = false ∨ s.onSmp chainBlk = false) : s.capCut n = s := by
  refine if_neg ?_
  rintro ⟨hd, hb⟩
  rcases h with h | h
  · exact Bool.noConfusion (hd.symm.trans h)
  · exact Bool.noConfusion (hb.symm.trans h)

/-- What an alarm may change includes the gain stages: it does not matter how they stood before. -/
theorem alarmed_gcl {a t : State} (x : Tab Gain) (h : a.alarmed t) : ({ a with gcl := x } : State).alarmed t := h

end

/-! ## A figure that grows stale (R148) -/

section
variable (s : State) (i : Nat)

/-- A canceller whose stale figure has been seen. -/
def staleNoted (x : Inst) : Inst := { x with staleSeen := true }

theorem capStale_due (hv : (s.inst i).valid = true) (ha : 5000 < s.cxAge i) (hs : (s.inst i).staleSeen = false) : s.capStale i = ((s.updInst i staleNoted).raise 12 4 (.rx (s.inst i).rx)).capAll := by
  unfold State.capStale
  dsimp only
  rw [if_pos ⟨hv, ha, by rw [hs]; rfl⟩]
  rfl

theorem capStale_idle (h : (s.inst i).valid = false ∨ s.cxAge i ≤ 5000 ∨ (s.inst i).staleSeen = true) : s.capStale i = s := by
  refine if_neg ?_
  rintro ⟨hv, ha, hs⟩
  rcases h with h | h | h
  · exact Bool.noConfusion (hv.symm.trans h)
  · omega
  · rw [h] at hs
    exact Bool.noConfusion hs

end

/-! ## The rows of these events on a device out of reset -/

section
variable {s : State}

theorem exec_gainTick {meas : List LoopMeas} (hr : s.runs) : exec (.gainTick meas) s = .next ((s.complSweep 0xA0000 0xC2000).gainTick meas) := exec_live (f := fun x => (x.complSweep 0xA0000 0xC2000).gainTick meas) rfl hr
theorem exec_capCut {n : Fin 256} (hr : s.runs) : exec (.capCut n) s = .next (s.capCut n.val) := exec_live (f := fun x => x.capCut n.val) rfl hr
theorem exec_capStale {i : Fin 64} (hr : s.runs) : exec (.capStale i) s = .next ((s.capStale i.val).cxReport i.val) := exec_live (f := fun x => (x.capStale i.val).cxReport i.val) rfl hr

/-- A tick with no corrupt word to find is each visited slot's share of it. -/
theorem exec_gainTick_clean {meas : List LoopMeas} (hr : s.runs) (hc : s.flt.badCompl = []) (ht : s.onGrid gainTk = true) :
    exec (.gainTick meas) s = .next (s.each s.gainSlots (fun n a => a.tickSlot meas n)) := by
  rw [exec_gainTick hr, complSweep_clean s _ _ hc, gainTick_tick s meas ht]

end

/-- Settles O31: a tick slot by slot, a loop at its boundary, a cut and a stale figure at their instants; at any other instant none of them moves anything. -/
theorem gainTicksAndCaps : Obligations.GainTicksAndCaps := by
  unfold Obligations.GainTicksAndCaps
  refine ⟨?_, ?_, ?_, ?_, ?_, ?_, ?_, ?_⟩
  · intro s meas hr h1 h2
    have k := kept_complSweep s 0xA0000 0xC2000
    rw [exec_gainTick hr, gainTick_between _ meas ((onGrid_of (k.tim rfl) k.now _).trans h1) ((onSmp_of (k.tim rfl) k.now _).trans h2)]
  · intro s meas n hr hc ht hd hn hl
    obtain ⟨k, -, -, all⟩ := tickFold meas s.gainSlots s hd hl
    obtain ⟨target, host, -, sp, live, rest⟩ := all n hn
    exact ⟨_, exec_gainTick_clean hr hc ht, k.frame, target, host, live, rest, sp⟩
  · intro s meas m r hr hc ht hg ha hm hq hb hsrc hf hv hreq hlim
    refine ⟨_, exec_gainTick_clean hr hc ht, ?_⟩
    rw [hg]
    rw [hreq]
    exact tickSlot_loop s meas m.slot.val m ha hm hb hf hq hv hsrc hlim
  · intro s n hr hd hb h
    refine ⟨_, exec_capCut hr, ?_⟩
    obtain ⟨-, ended, waits⟩ := gainSetCheck_out (s.updGain n.val cutToCap) n.val
    rw [capCut_above s n.val hd hb h, gainReached_of n.val (gainSetCheck_gain _ n.val n.val)]
    refine ⟨(gainSetCheck_gain _ _ _).trans (State.gain_updGain s _ _), fun j hj => (gainSetCheck_gain _ _ _).trans (State.gain_updGain_ne s _ _ _ (Ne.symm hj)), ended,
      fun hn => (congrArg State.hif (waits hn)).trans rfl, (kept_gainSetCheck _ _).flt rfl, ?_⟩
    exact alarmed_gcl _ (State.alarmed_trans (State.alarmed_updGain (State.alarmed_refl s)) (gainSetCheck_alarmed _ _))
  · intro s n hr hd hb h
    refine ⟨_, exec_capCut hr, ?_⟩
    rw [capCut_below s n.val hd hb h]
    exact ⟨State.updGain_only _ _ _, State.gain_updGain _ _ _⟩
  · intro s n hr h
    rw [exec_capCut hr, capCut_idle s n.val h]
  · intro s i hr hv ha hs
    refine ⟨s.updInst i.val staleNoted, ?_, State.updInst_only _ _ _, State.inst_updInst _ _ _, ?_⟩
    · rw [exec_capStale hr, capStale_due s i.val hv ha hs]
    · exact (Calm.cxReport (Calm.capAll (Calm.refl noTol _))).stat rfl _ (State.raise_status _ _ _ _)
  · intro s i hr h
    rw [exec_capStale hr, capStale_idle s i.val h]

end Sys2Proof.Proofs
end

section
/-! ## What each command may touch of the guarded parts -/

namespace Sys2Proof.Proofs

open Sys2Proof.Machine Sys2Proof.Laws

/-- The tolerance of a command: which of the guarded parts its meaning may change. A descriptor puts itself out, and an AUTHORISATION_WRITE its entry; fetched bytes may hold either; of the rest only resets, acknowledgements, severity and policy writes, a mount and a release's commit touch any. -/
def tolOf (c : Instr) : Tol :=
  match descriptorOf c with
  | some (_, d) => { noTol with take := true, auth := isAuth d }
  | none => match c with
    | .sysRstNFall | .sysRstNRise | .railUndervoltage _ | .internalResetEnd => Tol.all
    | .fenceAccept _ => { noTol with take := true }
    | .descriptorFetch .. | .fetchRetry .. => { noTol with take := true, auth := true }
    | .functionReset => { noTol with sev := true, stat := true }
    | .registerWrite .. => { noTol with pol := true, sev := true, stat := true }
    | .sevWrite .. | .fltinjInvertSevN _ => { noTol with sev := true }
    | .fltinjInvertComplement _ => { noTol with sev := true, auth := true }
    | .faultAck .. | .tstaccFaultAck .. => { noTol with stat := true }
    | .recorderMount _ => { noTol with auth := true, seq := true }
    | .releaseCommit _ => { noTol with cause := true }
    | _ => noTol

variable {s t : State} {p : Tol}

/-- A meaning that acts out of reset is as calm as its effect there. -/
theorem calm_live {u : State} (h : (.next (if s.tst.inReset then s else u) : Out) = .next t) (hu : Calm p s s → Calm p s u) : Calm p s t := by
  obtain rfl := Host.Outcome.next.inj h
  exact Calm.ite (fun _ => Calm.refl p s) (fun _ => hu (Calm.refl p s))

/-- A meaning that acts at any time is as calm as its effect. -/
theorem calm_next {u : State} (h : (.next u : Out) = .next t) (hu : Calm p s s → Calm p s u) : Calm p s t := by
  obtain rfl := Host.Outcome.next.inj h
  exact hu (Calm.refl p s)

/-- Every command keeps the guarded parts but for its own tolerance: the law of its one operation, row by row. -/
theorem exec_calm (c : Instr) (h : exec c s = .next t) : Calm (tolOf c) s t := by
  cases c with
  | nop | fence | abort | slotConfig | slotEnable | slotDisable | slotGainSet | slotCoefLoad | slotBankSwap | chainState | chainTune | calRun | txPowerStep | txPowerTableLoad | tunerSet | tunerSetRaw | cxAssign | cxReset | cxResetSeed | cxFreeze | gclLutLoad | gclBankSwap | gclSetpoint | installationModel | protConfig | authorisationWrite | winterEnter | winterRelease | leImageLoad | leTaskStart | leTaskStop | capture | telemetrySubscribe | recNote | recFlush | jlStreamOpen | jlStreamClose => exact calm_live h (.submit rfl id)
  | fenceAccept => exact calm_live h (.fenceAccept rfl)
  | descriptorFetch => exact calm_live h (.fetch rfl rfl)
  | fetchRetry => exact calm_live h (.fetchRetry rfl rfl)
  | crTailDoorbell => exact calm_live h .crTail
  | cqHeadDoorbell => exact calm_live h .cqHead
  | trHeadDoorbell => exact calm_live h .trHead
  | erHeadDoorbell => exact calm_live h .erHead
  | crEnable | crDrain => exact calm_live h .crCfgWrite
  | crRestart => exact calm_live h .crRestart
  | trCfgWrite => exact calm_live h .trCfgWrite
  | erCfgWrite => exact calm_live h .erCfgWrite
  | functionReset => exact calm_live h (.functionReset rfl rfl)
  | busMasterDisable => exact calm_live h .busMasterOff
  | registerWrite => exact calm_live h (.regWrite rfl rfl rfl)
  | readClear => exact calm_live h .readClear
  | loHalfRead => exact calm_live h .portRead
  | sevWrite => exact calm_live h (.sevWrite rfl)
  | faultAck => exact calm_live h (.faultAck rfl)
  | fltPolicyWrite => exact calm_live h .policyWrite
  | timSlackClr => exact calm_live h .timSlackClr
  | chCfgWrite => exact calm_live h .chCfgWrite
  | tddRegisterWrite => exact calm_live h .tddRegWrite
  | tddswCfgWrite => exact calm_live h .tddswWrite
  | jlPortCfgWrite => exact calm_live h .portCfgWrite
  | jlAgrpWrite => exact calm_live h .agrpWrite
  | genVidWrite => exact calm_live h .genVidWrite
  | recCursorHiWrite => exact calm_live h .recCursorHi
  | tstTmuxWrite => exact calm_live h .tmuxWrite
  | intcClaim => exact calm_live h .intcClaim
  | intcEoi => exact calm_live h .intcEoi
  | vecMaskSet | vecMaskClr => exact calm_live h .vecMask
  | vecMaskRead => exact calm_live h .vecMaskRead
  | vecPendSet => exact calm_live h .vecPendSet
  | vecPendClr => exact calm_live h .vecPendClr
  | srcEnSet => exact calm_live h .srcEnSet
  | srcEnClr => exact calm_live h .srcEnClr
  | srcLatSet => exact calm_live h .srcLatSet
  | srcLatClr => exact calm_live h .srcLatClr
  | srcCfgWrite => exact calm_live h .srcCfgWrite
  | vecCfgWrite => exact calm_live h .vecCfgWrite
  | vecCoalWrite => exact calm_live h .vecCoalWrite
  | prigroupWrite => exact calm_live h .prigroupWrite
  | vectorLaunch => exact calm_live h .vectorLaunch
  | coalesceTimer => exact calm_live h .coalesceTimer
  | supervisorVector => exact calm_live h .supervisorVector
  | read32 => exact calm_live h .mpRead32
  | recCursor => exact calm_live h .mpRecCursor
  | recRead => exact calm_live h .mpRecRead
  | forceWinter => exact calm_live h .mpForce
  | forceWithdraw => exact calm_live h .mpWithdraw
  | ident => exact calm_live h .mpIdent
  | tmuxsel => exact calm_live h .tmuxSel
  | tstaccReadWord => exact calm_live h .tstRead
  | tstaccWriteWord => exact calm_live h .tstWrite
  | tstaccWriteOph => exact calm_live h .tstOph
  | tstaccStageImage => exact calm_live h .tstStage
  | tstaccRestoreImage => exact calm_live h .tstRestore
  | tstaccReadRegister => exact calm_live h .tstReg
  | tstaccFaultAck => exact calm_live h (.tstAck rfl)
  | fuseStageEnd => exact calm_live h .fuseEnd
  | recorderMount => exact calm_live h (.mountStage rfl rfl)
  | supervisorBoot => exact calm_live h .bootStage
  | memorySelfTest => exact calm_live h .bistStage
  | clockAlignment => exact calm_live h .alignStage
  | springFail => exact calm_live h .springFail
  | frameAbsent => exact calm_live h .frameAbsent
  | springProof => exact calm_live h .proofStage
  | releasePoint => exact calm_live h .releasePoint
  | pfailNFall => exact calm_live h .pfailFall
  | pfailNReturn => exact calm_live h .pfailReturn
  | referenceLoss => exact calm_live h .referenceLoss
  | tileRealign => exact calm_live h .tileRealign
  | elasticBufferSlip => exact calm_live h .bufferSlip
  | frameInEdge => exact calm_live h .frameInEdge
  | syncDetection => exact calm_live h .syncDetection
  | syncLoss => exact calm_live h .syncLoss
  | frameEdge => exact calm_live h .frameEdge
  | tuningCommit => exact calm_live h .tuningCommit
  | lockReached => exact calm_live h .lockReached
  | lockTimeout => exact calm_live h .lockTimeout
  | lockLost => exact calm_live h .lockLost
  | chainTransitionEnd => exact calm_live h .chainTransitionEnd
  | chainStateHeldStart => exact calm_live h .chainHeldStart
  | calStart => exact calm_live h .calStart
  | calEnd => exact calm_live h .calEnd
  | tddPeriodEdge => exact calm_live h .tddPeriodEdge
  | turnaroundStep => exact calm_live h .turnStep
  | fecbFrameStart => exact calm_live h .frameStart
  | fecbFrameEnd => exact calm_live h .frameEnd
  | powerTableCommit => exact calm_live h .tableCommit
  | vswrWindow => exact calm_live h .vswrWindow
  | tunerSearchTrial => exact calm_live h .searchTrial
  | slotEnableBoundary => exact calm_live h .slotEnableBoundary
  | slotSettled => exact calm_live h .slotSettled
  | slotDisableBoundary => exact calm_live h .slotDisableBoundary
  | slotDisableEnd => exact calm_live h .slotDisableEnd
  | slotCoefWritten => exact calm_live h .slotCoefWritten
  | slotSwapBegin => exact calm_live h .slotSwapBegin
  | slotFadeEnd => exact calm_live h .slotFadeEnd
  | deadlineMiss => exact calm_live h .deadlineMiss
  | slackCheck => exact calm_live h .slackCheck
  | autumnStageAdvance => exact calm_live h .autumnAdvance
  | autumnExit => exact calm_live h .autumnExit
  | vidRaise => exact calm_live h .vidRaise
  | vidLower => exact calm_live h .vidLower
  | capCut => exact calm_live h .capCut
  | cxCycle => exact calm_live h .cxCycle
  | cxWindowClose => exact calm_live h .cxWindowClose
  | cxSearchEnd => exact calm_live h .cxSearchEnd
  | cxSeedLoaded => exact calm_live h .cxSeedLoaded
  | cxSeedScreenEnd => exact calm_live h .cxSeedScreenEnd
  | cxSeedFadeEnd => exact calm_live h .cxSeedFadeEnd
  | oscWindow => exact calm_live h .oscWindow
  | bridgeReopen => exact calm_live h .bridgeReopen
  | nriseEval => exact calm_live h .nriseEval
  | donorLossEval => exact calm_live h .donorLossEval
  | oobeWindow => exact calm_live h .oobeWindow
  | tddSyncLossEntry => exact calm_live h .tddLossEntry
  | tempSample => exact calm_live h .tempSample
  | authStoreEnd => exact calm_live h .authStoreEnd
  | causeClearTimer => exact calm_live h .causeClear
  | releaseProofEnd => exact calm_live h .releaseProof
  | releaseCommit => exact calm_live h (.releaseCommit rfl)
  | netReadback => exact calm_live h .netReadback
  | graceExpiry => exact calm_live h .graceExpiry
  | scrubCheck => exact calm_live h .scrubCheck
  | scrubPassEnd => exact calm_live h .scrubPass
  | supervisorHeartbeat => exact calm_live h .heartbeatLe
  | supStall => exact calm_live h .supStall
  | aliveHalfPeriod => exact calm_live h .aliveHalf
  | taskRelease => exact calm_live h .taskRelease
  | taskDispatch => exact calm_live h .taskDispatch
  | taskTrap => exact calm_live h .taskTrap
  | leLoadEnd => exact calm_live h .loadEnd
  | add | sub | and_ | or_ | xor_ | sll | srl | sra | mul | mulh | slt | sltu | min_ | max_ | adds | subs | clz | lg2 | ex2 | addi | andi | ori | xori | slti | lui | slli | srli | srai | vext => exact calm_live h .ukReg
  | ldw | ldh => exact calm_live h .ukLoad
  | stw | sth => exact calm_live h .ukStore
  | beq | bne | blt | bge | bltu | bgeu => exact calm_live h .ukBranch
  | jal => exact calm_live h .ukJal
  | jalr => exact calm_live h .ukJalr
  | prd | prdc => exact calm_live h .ukPortRead
  | pwr | pwrc => exact calm_live h .ukPortWrite
  | vadd | vsub | vmul | vdot | vener | vshx | vmov | vins => exact calm_live h .ukVec
  | vcmul | vcmulj => exact calm_live h .ukCmul
  | vld => exact calm_live h .ukVld
  | vst => exact calm_live h .ukVst
  | wait => exact calm_live h .ukWait
  | telemetrySnapshot => exact calm_live h .telemetry
  | captureStart => exact calm_live h .captStart
  | captureEnd => exact calm_live h .captEnd
  | eventCopy => exact calm_live h .eventCopy
  | flushStart => exact calm_live h .flushStart
  | flushEnd => exact calm_live h .flushEnd
  | periodicFlush => exact calm_live h .periodicFlush
  | summaryRecord => exact calm_live h .summaryRecord
  | linkTrainingStep => exact calm_live h .trainStep
  | trainingRestart => exact calm_live h .trainStart
  | linkHeader => exact calm_live h .linkHeader
  | headerLoss => exact calm_live h .headerLoss
  | blockErrorRate => exact calm_live h .blockErrors
  | streamCell => exact calm_live h .streamCell
  | messageRetransmit => exact calm_live h .msgRetransmit
  | retryExhausted => exact calm_live h .retryExhausted
  | heartbeat => exact calm_live h .heartbeat
  | heartbeatSend => exact calm_live h .heartbeatSend
  | heartbeatLoss => exact calm_live h .heartbeatLoss
  | time => exact calm_live h .timeTake
  | timeSend => exact calm_live h .timeSend
  | delayReq => exact calm_live h .delayReq
  | delayResp => exact calm_live h .delayResp
  | join => exact calm_live h .joinTake
  | joinResponse => exact calm_live h .joinResponse
  | report => exact calm_live h .report
  | reportSend => exact calm_live h .reportSend
  | reportResponse => exact calm_live h .reportResponse
  | cap => exact calm_live h .capTake
  | capResponse => exact calm_live h .capResponse
  | streamReq => exact calm_live h .streamReq
  | streamReqResponse => exact calm_live h .streamReqResponse
  | streamReqRepeat => exact calm_live h .streamReqRepeat
  | streamClose => exact calm_live h .streamClose
  | streamStart => exact calm_live h .streamStart
  | streamStop => exact calm_live h .streamStop
  | requestReissue => exact calm_live h .reissue
  | masterLost => exact calm_live h .masterLost
  | cascadeHoldoverTimeout => exact calm_live h .holdoverTimeout
  | referenceReturn => exact calm_live h .referenceReturn
  | cxFreezeBoundary => exact calm_live h .cxFreezeBoundary
  | cxResetBoundary => exact calm_live h .cxResetBoundary
  | receiveStreamRampDown => exact calm_live h .streamRamp
  | lutLoadEnd => exact calm_live h .lutLoadEnd
  | badCmd => exact calm_live h .mpBad
  | satSlot => exact calm_live h .satSlot
  | satChain => exact calm_live h .satChain
  | dcbRange => exact calm_live h .dcbRange
  | symbolError => exact calm_live h .symFound
  | unsupportedAccess => exact calm_live h (fun r => Calm.ite (fun _ => Calm.unsupported r) (fun _ => r))
  | powerStepApply => exact calm_live h (fun r => Calm.powerApply (Calm.complSweep r))
  | gainTick => exact calm_live h (fun r => Calm.gainTick (Calm.complSweep r))
  | authCheck => exact calm_live h (fun r => Calm.authCheck (Calm.complSweep r))
  | capStale => exact calm_live h (fun r => Calm.cxReport (Calm.capStale r))
  | fltinjRaiseSource => exact calm_live h (.inject fun _ => .injRaise)
  | fltinjInvertSevN => exact calm_live h (.inject fun _ => .injSev rfl)
  | fltinjInvertStatusCopy => exact calm_live h (.inject fun _ => .injCopy)
  | fltinjInvertSymbols => exact calm_live h (.inject fun _ => .injSymbols)
  | fltinjInvertComplement => exact calm_live h (.inject fun _ => .injCompl rfl rfl)
  | fltinjSuppressHeartbeat => exact calm_live h (.inject fun _ => .injHeartbeat)
  | nopInstruction => exact calm_live h (fun r => Calm.ukRun (fun _ => Calm.ukNext r) r)
  | trap => exact calm_live h (fun r => Calm.ukRun (fun _ => r) r)
  | extest | extestPulse | extestTrain => exact calm_next h (fun r => Calm.bsrLoad (Calm.scanSelect r))
  | samplePreload => exact calm_next h (fun r => Calm.bsrLoad (Calm.tapIr r))
  | idcode => exact calm_next h (fun r => Calm.tapShow (Calm.tapIr r))
  | clamp | highz => exact calm_next h .scanSelect
  | bypass => exact calm_next h (fun r => Calm.ite (fun _ => r) (fun _ => Calm.tapShow (Calm.tapIr r)))
  | tapReset => exact calm_next h .tapIr
  | strapPinChange => exact calm_next h .strapChange
  | perstNDeassert => exact calm_next h .perstRise
  | sysRstNFall => exact calm_next h .resetFall
  | sysRstNRise => exact calm_next h .resetRise
  | railUndervoltage => exact calm_next h .railDown
  | internalResetEnd => exact calm_next h .railUp

/-- No command but a reset and a release's commit may end a WINTER cause. -/
theorem tolOf_cause (c : Instr) (hc : match c with | .sysRstNFall .. | .sysRstNRise .. | .railUndervoltage .. | .internalResetEnd .. | .releaseCommit .. => False | _ => True) :
    (tolOf c).cause = false := by
  cases c with
  | sysRstNFall | sysRstNRise | railUndervoltage | internalResetEnd | releaseCommit => exact hc.elim
  | _ => rfl

/-- No command but a reset, a function reset, a register write and an acknowledgement may drop a STATUS. -/
theorem tolOf_stat (c : Instr) (hc : match c with | .sysRstNFall .. | .sysRstNRise .. | .railUndervoltage .. | .internalResetEnd .. | .functionReset .. | .registerWrite .. | .faultAck .. | .tstaccFaultAck .. => False | _ => True) :
    (tolOf c).stat = false := by
  cases c with
  | sysRstNFall | sysRstNRise | railUndervoltage | internalResetEnd | functionReset | registerWrite | faultAck | tstaccFaultAck => exact hc.elim
  | _ => rfl

/-- Settles O58: every command keeps causes and STATUS bits but for its tolerance, and only the commands named tolerate their loss. -/
theorem causesAndFaultsStand : Obligations.CausesAndFaultsStand :=
  ⟨fun c _ _ h hc => (exec_calm c h).cause (tolOf_cause c hc), fun c _ _ h hc => (exec_calm c h).stat (tolOf_stat c hc)⟩

end Sys2Proof.Proofs
end

section
/-! SUPPORT. The band authorisation checks and the store write of an entry (R187 to R189, R379). -/

namespace Sys2Proof.Proofs

open Sys2Proof.Machine Sys2Proof.Laws

/-! ## Marking a cause cleared (R190) -/

section
variable (s : State) (i c : Nat)

theorem clearCause_held (h : (s.wobj i).cause.getLsbD c = true) : s.clearCause i c = s.updObj i (fun o => { o with cleared := o.cleared ||| BitVec.twoPow 16 c }) := by
  unfold State.clearCause
  rw [if_pos h]

theorem clearCause_absent (h : (s.wobj i).cause.getLsbD c = false) : s.clearCause i c = s := by
  unfold State.clearCause
  rw [h, if_neg (by decide)]

/-- It takes no cause away. -/
theorem clearCause_cause (j : Nat) : ((s.clearCause i c).wobj j).cause = (s.wobj j).cause := by
  unfold State.clearCause
  split
  · rw [State.wobj_updObj_at]
    split
    · subst j; rfl
    · rfl
  · rfl

theorem clearCause_cleared (hc : c < 16) (h : (s.wobj i).cause.getLsbD c = true) : ((s.clearCause i c).wobj i).cleared.getLsbD c = true := by
  rw [clearCause_held s i c h, State.wobj_updObj]
  simp [hc]

/-- It changes scope objects only. -/
theorem clearCause_frame : s.clearCause i c = { s with prot := { s.prot with objs := (s.clearCause i c).prot.objs } } := (State.clearCause_only s i c).1

theorem clearCause_slot (j : Nat) : (s.clearCause i c).slot j = s.slot j := by
  rw [clearCause_frame]
  rfl

end

/-! ## What the checks read -/

section
variable {a b : State}

theorem strm_of (h : b.jl = a.jl) (k : Nat) : b.strm k = a.strm k := by unfold State.strm; rw [h]
theorem placements_of (h : b.jl = a.jl) (d : Nat) : b.placements d = a.placements d := by unfold State.placements; rw [h]

/-- A check reads the chain and the authorisation table. -/
theorem authPass_of (hr : b.rfe = a.rfe) (ha : b.prot.auth = a.prot.auth) (c : Nat) (f : Int) (bw : Nat) : b.authPass c f bw = a.authPass c f bw := by
  unfold State.authPass State.authCover State.authValid State.authWord State.chain
  rw [hr, ha]

end

/-! ## One slot (R187) -/

section
variable {s : State} {n c : Nat}

/-- A slot with the GROUP its check has taken. -/
def grouped (g : Option Nat) (x : Slot) : Slot := { x with group := g }

theorem authSlot_covered {e : Nat} (hc : (s.slot n).txDest = some c) (he : s.authPass c (s.slot n).txfreq (s.slot n).bw = some e) :
    s.authSlot n = (s.updSlot n (grouped (some (s.authGroup e)))).clearCause n 6 := by
  unfold State.authSlot
  rw [hc]
  dsimp only
  rw [he]
  rfl

theorem authSlot_refused (hc : (s.slot n).txDest = some c) (he : s.authPass c (s.slot n).txfreq (s.slot n).bw = none) :
    s.authSlot n = if (s.wobj n).cause.getLsbD 6 && !(s.wobj n).cleared.getLsbD 6 then s.updSlot n (grouped none)
      else ((s.updSlot n (grouped none)).raise 13 10 (.slot n)).winterSet n 6 0 := by
  unfold State.authSlot
  rw [hc]
  dsimp only
  rw [he]
  rfl

/-- UNAUTH as it is entered: the fault raised, the cause held. -/
theorem unauth_entered (u : State) (n : Nat) : (((u.raise 13 10 (.slot n)).winterSet n 6 0).wobj n).cause.getLsbD 6 = true ∧
    (((u.raise 13 10 (.slot n)).winterSet n 6 0).fsrc (16 * 13 + 10)).status = true ∧ u.alarmed ((u.raise 13 10 (.slot n)).winterSet n 6 0) :=
  ⟨State.winterSet_cause _ _ _ _ (by decide), (Calm.winterSet (Calm.refl noTol _)).stat rfl _ (State.raise_status _ _ _ _), State.alarmed_winterSet (State.alarmed_raise (State.alarmed_refl u))⟩

end

/-! ## One placement (R379) -/

section
variable (s : State)

/-- The gate that the check of a stream asks for. -/
def gateShut (k : Nat) : Bool := (s.authPass (s.strm k).txch (s.strm k).txfreq (s.strm k).bw).isNone

/-- A stream whose gate is open or shut. -/
def gatedTo (g : Bool) (x : Strm) : Strm := { x with gated := g }

theorem authStream_passed (k : Nat) (h : gateShut s k = false) : s.authStream k = s.updStrm k (gatedTo false) := by
  obtain ⟨e, he⟩ := Option.isSome_iff_exists.mp (Option.isNone_eq_false_iff.mp h)
  unfold State.authStream
  dsimp only
  rw [he]
  rfl

theorem authStream_failed (k : Nat) (h : gateShut s k = true) :
    s.authStream k = if (s.strm k).gated then s else (s.updStrm k (gatedTo true)).raise 15 7 (.tx (s.strm k).txch) := by
  unfold State.authStream
  dsimp only
  rw [Option.isNone_iff_eq_none.mp h]
  rfl

/-- A check sets the gate of its own stream, and no more of any. -/
theorem authStream_strm (j k : Nat) : (s.authStream j).strm k = if j = k then gatedTo (gateShut s k) (s.strm k) else s.strm k := by
  cases h : gateShut s j with
  | false =>
    rw [authStream_passed s j h, State.strm_updStrm_at]
    split
    · subst k; rw [h]
    · rfl
  | true =>
    rw [authStream_failed s j h]
    split
    · rename_i hg
      split
      · subst k; rw [h, ← hg]; rfl
      · rfl
    · rw [strm_of (State.alarmed_jl (State.alarmed_raise (State.alarmed_refl _))), State.strm_updStrm_at]
      split
      · subst k; rw [h]
      · rfl

/-- A check leaves what every other check reads. -/
theorem authStream_gateShut (j k : Nat) : gateShut (s.authStream j) k = gateShut s k := by
  have fields : ((s.authStream j).strm k).txch = (s.strm k).txch ∧ ((s.authStream j).strm k).txfreq = (s.strm k).txfreq ∧ ((s.authStream j).strm k).bw = (s.strm k).bw := by
    rw [authStream_strm]
    split <;> exact ⟨rfl, rfl, rfl⟩
  obtain ⟨hc, hf, hb⟩ := fields
  unfold gateShut
  rw [hc, hf, hb, authPass_of ((Kept.authStream (p := { Part.alarms with jl := true }) (Kept.refl _ s) rfl).rfe rfl) ((Calm.authStream (Calm.refl noTol s)).auth rfl)]

/-- A gate that shuts raises STREAM_UNAUTH. -/
theorem authStream_status (k : Nat) (hg : (s.strm k).gated = false) (h : gateShut s k = true) : ((s.authStream k).fsrc (16 * 15 + 7)).status = true := by
  rw [authStream_failed s k h, hg, if_neg (by decide)]
  exact State.raise_status _ _ _ _

/-- The checks of a list of streams: each one listed has the gate its check asks for, and one that shuts has raised STREAM_UNAUTH. -/
theorem authStreams_strm (l : List Nat) (k : Nat) : ∀ s : State, (s.each l (fun k a => a.authStream k)).strm k = (if k ∈ l then gatedTo (gateShut s k) (s.strm k) else s.strm k) ∧
    (k ∈ l → (s.strm k).gated = false → gateShut s k = true → ((s.each l (fun k a => a.authStream k)).fsrc (16 * 15 + 7)).status = true) := by
  induction l with
  | nil => exact fun s => ⟨rfl, fun h => nomatch h⟩
  | cons j r ih =>
    intro s
    obtain ⟨own, status⟩ := ih (s.authStream j)
    rw [authStream_gateShut, authStream_strm] at own
    rw [authStream_gateShut, authStream_strm] at status
    have e : s.each (j :: r) (fun k a => a.authStream k) = (s.authStream j).each r (fun k a => a.authStream k) := rfl
    rw [e]
    by_cases hj : j = k
    · subst hj
      rw [if_pos rfl] at own
      refine ⟨?_, fun _ hg h => ?_⟩
      · rw [own, if_pos List.mem_cons_self]
        exact ite_self _
      · exact (Calm.each (Calm.refl noTol _) (fun _ _ hb => Calm.authStream hb)).stat rfl _ (authStream_status s j hg h)
    · rw [if_neg hj] at own status
      have mem : k ∈ j :: r ↔ k ∈ r := by rw [List.mem_cons]; exact or_iff_right (Ne.symm hj)
      simp only [mem]
      exact ⟨own, status⟩

end

/-! ## The periodic check (R187, R379) -/

section
variable {s : State} {n : Nat}

/-- The check of the slot, before that of the placements. -/
def slotChecked (s : State) (n : Nat) : State := if (s.slot n).st = .free then s else s.authSlot n

theorem slotChecked_kept (s : State) (n : Nat) : Kept Part.alarms s (slotChecked s n) :=
  Kept.ite (fun _ => Kept.refl _ s) (fun _ => Kept.authSlot (Kept.refl _ s) rfl)

theorem authCheck_eq (s : State) (n : Nat) : s.authCheck n = (slotChecked s n).each ((List.range 32).flatMap s.placements) (fun k a => a.authStream k) := by
  have h : (slotChecked s n).placements = s.placements := funext (placements_of ((slotChecked_kept s n).jl rfl))
  rw [← h]
  rfl

/-- With no stream placed it is the check of the slot alone. -/
theorem authCheck_unplaced (h : ∀ d, d < 32 → s.placements d = []) : s.authCheck n = slotChecked s n := by
  have none : (List.range 32).flatMap s.placements = [] := List.flatMap_eq_nil_iff.mpr (fun d hd => h d (List.mem_range.mp hd))
  rw [authCheck_eq, none]
  rfl

theorem authCheck_held (hs : (s.slot n).st ≠ .free) (h : ∀ d, d < 32 → s.placements d = []) : s.authCheck n = s.authSlot n := by
  rw [authCheck_unplaced h]
  exact if_neg hs

theorem slotChecked_gateShut (s : State) (n k : Nat) : gateShut (slotChecked s n) k = gateShut s k := by
  have kept := slotChecked_kept s n
  have auth : (slotChecked s n).prot.auth = s.prot.auth := (Calm.ite (fun _ => Calm.refl noTol s) (fun _ => Calm.authSlot (Calm.refl noTol s)) : Calm noTol s (slotChecked s n)).auth rfl
  unfold gateShut
  rw [strm_of (kept.jl rfl), authPass_of (kept.rfe rfl) auth]

/-- The gate of a placed stream follows its check. -/
theorem authCheck_placed {d k : Nat} (hd : d < 32) (hk : k ∈ s.placements d) : ((s.authCheck n).strm k).gated = gateShut s k ∧
    ((s.strm k).gated = false → gateShut s k = true → ((s.authCheck n).fsrc (16 * 15 + 7)).status = true) := by
  have mem : k ∈ (List.range 32).flatMap s.placements := List.mem_flatMap.mpr ⟨d, List.mem_range.mpr hd, hk⟩
  obtain ⟨own, status⟩ := authStreams_strm ((List.range 32).flatMap s.placements) k (slotChecked s n)
  rw [slotChecked_gateShut, if_pos mem] at own
  rw [slotChecked_gateShut, strm_of ((slotChecked_kept s n).jl rfl)] at status
  rw [authCheck_eq]
  exact ⟨congrArg Strm.gated own, status mem⟩

theorem exec_authCheck {n : Fin 256} (hr : s.runs) (hc : s.flt.badCompl = []) : exec (.authCheck n) s = .next (s.authCheck n.val) := by
  rw [exec_live (i := .authCheck n) (f := fun x => (x.complSweep 0xC5000 0xC5800).authCheck n.val) rfl hr, complSweep_clean s _ _ hc]

end

/-! ## The store write of an entry (R188) -/

section
variable {s : State} {e : Nat} {p : Pend} {b : Byte} {w0 w1 w2 w3 w4 : Word}

/-- An entry's five words in a table of words. -/
def entryPut (t : Tab Word) (e : Nat) (w0 w1 w2 w3 w4 : Word) : Tab Word :=
  ((((t.set (cword 0) (5 * e + 0) w0).set (cword 0) (5 * e + 1) w1).set (cword 0) (5 * e + 2) w2).set (cword 0) (5 * e + 3) w3).set (cword 0) (5 * e + 4) w4

theorem entryPut_own (t : Tab Word) {i : Nat} (hi : i < 5) : (entryPut t e w0 w1 w2 w3 w4).get (cword 0) (5 * e + i) = [w0, w1, w2, w3, w4].getD i 0 := by
  unfold entryPut
  simp only [Tab.get_set, Nat.add_left_cancel_iff]
  match i, hi with
  | 0, _ | 1, _ | 2, _ | 3, _ | 4, _ => rfl

theorem entryPut_other (t : Tab Word) {j : Nat} (hj : j / 5 ≠ e) : (entryPut t e w0 w1 w2 w3 w4).get (cword 0) j = t.get (cword 0) j := by
  have ne : ∀ i, i < 5 → 5 * e + i ≠ j := by omega
  unfold entryPut
  rw [Tab.get_set, if_neg (ne 4 (by decide)), Tab.get_set, if_neg (ne 3 (by decide)), Tab.get_set, if_neg (ne 2 (by decide)), Tab.get_set, if_neg (ne 1 (by decide)),
    Tab.get_set, if_neg (ne 0 (by decide))]

/-- The store with an entry written. -/
def entryStored (s : State) (e : Nat) (w0 w1 w2 w3 w4 : Word) : State :=
  { s with recd := { s.recd with store := { s.recd.store with auth := entryPut s.recd.store.auth e w0 w1 w2 w3 w4 } } }

theorem authStoreEnd_due (hp : (s.pends (isAuthWrite e)).head? = some p) (hd : p.desc = .authorisationWrite b w0 w1 w2 w3 w4) :
    s.authStoreEnd e = (entryStored s e w0 w1 w2 w3 w4).complete p .ok 0 0 := by
  unfold State.authStoreEnd
  rw [hp]
  dsimp only
  rw [hd]
  rfl

theorem authStoreEnd_idle (h : s.pends (isAuthWrite e) = []) : s.authStoreEnd e = s := by
  unfold State.authStoreEnd
  rw [h]
  rfl

theorem exec_authStoreEnd {e : Fin 64} (hr : s.runs) : exec (.authStoreEnd e) s = .next (s.authStoreEnd e.val) := exec_live (f := fun x => x.authStoreEnd e.val) rfl hr

end

/-- Settles O41: a check of the slot by whether an entry covers it, one gate for each placed stream, and the store write of the oldest AUTHORISATION_WRITE. -/
theorem authorisationSteps : Obligations.AuthorisationSteps := by
  unfold Obligations.AuthorisationSteps
  refine ⟨?_, ?_, ?_, ?_, ?_, ?_⟩
  · intro s n c e hr hb hl hs hc he
    refine ⟨_, exec_authCheck hr hb, ?_⟩
    rw [authCheck_held hs hl, authSlot_covered hc he]
    refine ⟨?_, fun j hj => ?_, fun h => clearCause_cleared _ _ _ (by decide) h, fun j => clearCause_cause _ _ _ j, ?_⟩
    · rw [clearCause_slot, State.slot_updSlot]
      rfl
    · rw [clearCause_slot, State.slot_updSlot_ne _ _ _ _ (Ne.symm hj)]
    · rw [clearCause_frame]
      rfl
  · intro s n c hr hb hl hs hc he
    refine ⟨_, exec_authCheck hr hb, ?_⟩
    rw [authCheck_held hs hl, authSlot_refused hc he]
    refine ⟨fun h1 h2 => ?_, fun h => ?_⟩
    · rw [h1, h2, if_pos (by decide)]
      exact ⟨State.updSlot_only _ _ _, State.slot_updSlot _ _ _⟩
    · have new : ((s.wobj n.val).cause.getLsbD 6 && !(s.wobj n.val).cleared.getLsbD 6) = false := by
        rcases h with h | h <;> rw [h]
        · rfl
        · exact Bool.and_false _
      rw [new, if_neg (by decide)]
      obtain ⟨cause, status, al⟩ := unauth_entered (s.updSlot n.val (grouped none)) n.val
      exact ⟨cause, status, State.alarmed_trans (State.alarmed_updSlot (State.alarmed_refl s)) al⟩
  · intro s n hr hb hl hs
    rw [exec_authCheck hr hb, authCheck_unplaced hl]
    exact congrArg _ (if_pos hs)
  · intro s n d k hr hb hd hk
    obtain ⟨gate, status⟩ := authCheck_placed (n := n.val) hd hk
    exact ⟨_, exec_authCheck hr hb, gate, fun hg h => status hg (Option.isNone_iff_eq_none.mpr h)⟩
  · intro s e p b w0 w1 w2 w3 w4 hr hp hd
    refine ⟨_, exec_authStoreEnd hr, ?_⟩
    rw [authStoreEnd_due hp hd]
    have al := State.alarmed_complete (x0 := p) (x1 := .ok) (x2 := 0) (x3 := 0) (State.alarmed_refl (entryStored s e.val w0 w1 w2 w3 w4))
    have store : _ = entryPut s.recd.store.auth e.val w0 w1 w2 w3 w4 := congrArg Store.auth (State.alarmed_store al)
    rw [store]
    exact ⟨fun i hi => entryPut_own _ hi, fun j hj => entryPut_other _ hj, (kept_complete _ _ _ _ _).prot rfl, complete_gone _ _ _ _ _⟩
  · intro s e hr h
    rw [exec_authStoreEnd hr, authStoreEnd_idle h]

end Sys2Proof.Proofs
end

section
/-! SUPPORT. Leaving WINTER: causes that clear by time, proofs of the mute mechanisms, releases, the read-back of the nets and their bridges (R172 to R174, R190, R192 to R200). -/

namespace Sys2Proof.Proofs

open Sys2Proof.Machine Sys2Proof.Laws

/-! ## Repetitions -/

/-- What one round of a repetition establishes and every other keeps, on states that an invariant describes, holds at its end. -/
theorem each_reach (I P : State → Prop) (f : Nat → State → State) (l : List Nat) (hI : ∀ i ∈ l, ∀ c, I c → I (f i c)) (hP : ∀ i ∈ l, ∀ c, I c → P c → P (f i c)) (k : Nat) (hk : k ∈ l)
    (h : ∀ c, I c → P (f k c)) : ∀ u : State, I u → P (u.each l f) := by
  induction l with
  | nil => exact absurd hk List.not_mem_nil
  | cons x r ih =>
    intro u hu
    have tailI : ∀ i ∈ r, ∀ c, I c → I (f i c) := fun i hi => hI i (List.mem_cons_of_mem x hi)
    have tailP : ∀ i ∈ r, ∀ c, I c → P c → P (f i c) := fun i hi => hP i (List.mem_cons_of_mem x hi)
    have next : I (f x u) := hI x List.mem_cons_self u hu
    by_cases hr : k ∈ r
    · exact ih tailI tailP hr _ next
    · obtain rfl : k = x := (List.mem_cons.mp hk).resolve_right hr
      exact (each_keep_mem (fun c => I c ∧ P c) f r (fun i hi c hc => ⟨tailI i hi c hc.1, tailP i hi c hc.1 hc.2⟩) _ ⟨next, h u hu⟩).2

/-! ## Causes that clear by time (R190) -/

section
variable {s : State} {o : WScope} {c : Fin 16}

theorem causeClear_over {i k : Nat} (h : s.causeOver i k = true) : s.causeClear i k = s.clearCause i k := if_pos h

theorem causeClear_idle {i k : Nat} (h : s.causeOver i k = false ∨ (s.wobj i).cause.getLsbD k = false) : s.causeClear i k = s := by
  unfold State.causeClear
  split
  · rename_i ho
    exact clearCause_absent _ _ _ (h.resolve_left (fun e => absurd (ho.symm.trans e) (by decide)))
  · rfl

theorem exec_causeClearTimer (hr : s.runs) : exec (.causeClearTimer o c) s = .next (s.causeClear (scopeOf o) c.val) := exec_live (f := fun x => x.causeClear (scopeOf o) c.val) rfl hr

end

/-! ## Proofs that fail (R192, R194) -/

/-- NET_PROOF has been raised and stands on TXc. -/
def netFailed (c : Nat) (t : State) : Prop := (t.wobj (objChain c)).cause.getLsbD 13 = true ∧ (t.fsrc (16 * 13 + 13)).status = true

theorem netFailed_calm {a b : State} {c : Nat} (k : Calm noTol a b) (h : netFailed c a) : netFailed c b := ⟨k.cause rfl _ _ h.1, k.stat rfl _ h.2⟩

/-- NET_PROOF as it is entered. -/
theorem netFailed_entered (u : State) (c : Nat) : netFailed c ((u.raise 13 13 (.tx c)).winterSet (objChain c) 13 0) :=
  ⟨State.winterSet_cause _ _ _ _ (by decide), (Calm.winterSet (Calm.refl noTol _)).stat rfl _ (State.raise_status _ _ _ _)⟩

/-- A chain's proof noted, before what follows from it. -/
def proofNoted (s : State) (c : Nat) (a b : Bool) : State :=
  (s.updNet c (fun x => { x with proofA := a, proofB := b, proofAt := some s.now })).updObj (objChain c) (fun o => { o with proofOk := a && b })

theorem chainProof_failed (s : State) (c : Nat) (a b : Bool) (h : (a && b) = false) :
    s.chainProof c a b = ((proofNoted s c a b).raise 13 13 (.tx c)).winterSet (objChain c) 13 0 := by
  unfold State.chainProof
  dsimp only
  rw [if_neg (by rw [h]; decide)]
  rfl

theorem chainProof_passed (s : State) (c : Nat) : s.chainProof c true true = (proofNoted s c true true).clearCause (objChain c) 13 := rfl

theorem chainProofs_failed (l : List Nat) (a b : Word) (c : Nat) (hc : c ∈ l) (h : a.getLsbD c = false ∨ b.getLsbD c = false) (s : State) : netFailed c (s.chainProofs l a b) := by
  have bad : (a.getLsbD c && b.getLsbD c) = false := Bool.and_eq_false_iff.mpr h
  refine each_once (netFailed c) _ (fun i u hu => netFailed_calm (Calm.chainProof (Calm.refl noTol u)) hu) l c hc (fun u => ?_) s
  rw [chainProof_failed u c _ _ bad]
  exact netFailed_entered _ c

/-- The proof of one tile: those of its chains, and PROOF_OK of the tile. -/
def tileProved (a b : Word) (k : Nat) (u : State) : State :=
  (u.chainProofs (objTx (objTile k)) a b).updObj (objTile k) (fun o => { o with proofOk := (objTx (objTile k)).all (fun c => a.getLsbD c && b.getLsbD c) })

theorem tileProofs_eq (s : State) (l : List Nat) (a b : Word) : s.tileProofs l a b = s.each l (tileProved a b) := rfl

theorem tileProved_calm (a b : Word) (k : Nat) (u : State) : Calm noTol u (tileProved a b k u) := Calm.updObj (Calm.chainProofs (Calm.refl noTol u)) (fun _ _ e => e)

theorem tileProved_failed {a b : Word} {c k : Nat} (hc : c ∈ objTx (objTile k)) (h : a.getLsbD c = false ∨ b.getLsbD c = false) (u : State) : netFailed c (tileProved a b k u) :=
  netFailed_calm (Calm.updObj (Calm.refl noTol _) (fun _ _ e => e)) (chainProofs_failed _ a b c hc h u)

theorem tileProofs_failed (l : List Nat) (a b : Word) (c k : Nat) (hk : k ∈ l) (hc : c ∈ objTx (objTile k)) (h : a.getLsbD c = false ∨ b.getLsbD c = false) (s : State) :
    netFailed c (s.tileProofs l a b) := by
  rw [tileProofs_eq]
  exact each_once (netFailed c) _ (fun j u hu => netFailed_calm (tileProved_calm a b j u) hu) l k hk (tileProved_failed hc h) s

/-! ## Proofs that pass (R192, R195) -/

/-- From s to t only scope objects and nets have changed, and no release of any object. -/
def proofsOnly (s t : State) : Prop := t = { s with prot := { s.prot with objs := t.prot.objs, nets := t.prot.nets } } ∧ ∀ j, (t.wobj j).release = (s.wobj j).release

section
variable {s t : State} {i : Nat}

theorem proofsOnly_refl (s : State) : proofsOnly s s := ⟨rfl, fun _ => rfl⟩

theorem proofsOnly_updObj {f : WObj → WObj} (h : proofsOnly s t) (hf : ∀ o, (f o).release = o.release) : proofsOnly s (t.updObj i f) := by
  obtain ⟨frame, rel⟩ := h
  refine ⟨?_, fun j => ?_⟩
  · rw [frame]
    rfl
  · rw [State.wobj_updObj_at]
    split
    · subst j; exact (hf _).trans (rel i)
    · exact rel j

theorem proofsOnly_updNet {f : Net → Net} (h : proofsOnly s t) : proofsOnly s (t.updNet i f) := by
  obtain ⟨frame, rel⟩ := h
  exact ⟨by rw [frame]; rfl, rel⟩

theorem proofsOnly_clearCause {c : Nat} (h : proofsOnly s t) : proofsOnly s (t.clearCause i c) := by
  unfold State.clearCause
  split
  · exact proofsOnly_updObj h (fun _ => rfl)
  · exact h

theorem proofsOnly_now (h : proofsOnly s t) : t.now = s.now := by
  rw [h.1]

theorem proofsOnly_flt (h : proofsOnly s t) : t.flt = s.flt := by
  rw [h.1]

theorem proofsOnly_hif (h : proofsOnly s t) : t.hif = s.hif := by
  rw [h.1]

/-- Both nets of TXc have passed at time n. -/
def netProved (n c : Nat) (t : State) : Prop := (t.net c).proofA = true ∧ (t.net c).proofB = true ∧ (t.net c).proofAt = some n

/-- A change of a scope object changes no net. -/
theorem netProved_updObj {n c i : Nat} {f : WObj → WObj} (h : netProved n c t) : netProved n c (t.updObj i f) := h

theorem chainProof_proofsOnly {c : Nat} (h : proofsOnly s t) : proofsOnly s (t.chainProof c true true) :=
  chainProof_passed t c ▸ proofsOnly_clearCause (proofsOnly_updObj (proofsOnly_updNet h) (fun _ => rfl))

theorem chainProof_net (c j : Nat) : (s.chainProof c true true).net j = if c = j then { s.net c with proofA := true, proofB := true, proofAt := some s.now } else s.net j := by
  have same : ((proofNoted s c true true).clearCause (objChain c) 13).net j = (proofNoted s c true true).net j := by
    rw [clearCause_frame]
    rfl
  rw [chainProof_passed, same]
  exact State.net_updNet_at s c j (fun x => { x with proofA := true, proofB := true, proofAt := some s.now })

theorem chainProof_netProved {c : Nat} (h : proofsOnly s t) : netProved s.now c (t.chainProof c true true) := by
  unfold netProved
  rw [chainProof_net, if_pos rfl]
  exact ⟨rfl, rfl, congrArg some (proofsOnly_now h)⟩

theorem netProved_chainProof {c j : Nat} (h : proofsOnly s t) (hj : netProved s.now j t) : netProved s.now j (t.chainProof c true true) := by
  by_cases hc : c = j
  · exact hc ▸ chainProof_netProved h
  · unfold netProved
    rw [chainProof_net, if_neg hc]
    exact hj

variable {a b : Word}

/-- The masks pass every chain of a list. -/
def passAll (a b : Word) (l : List Nat) : Prop := ∀ c ∈ l, a.getLsbD c = true ∧ b.getLsbD c = true

/-- One chain's proof by masks that pass it. -/
theorem chainProof_masks {c : Nat} (u : State) (h : a.getLsbD c = true ∧ b.getLsbD c = true) : u.chainProof c (a.getLsbD c) (b.getLsbD c) = u.chainProof c true true := by
  rw [h.1, h.2]

theorem chainProofs_proofsOnly {l : List Nat} (hp : passAll a b l) (h : proofsOnly s t) : proofsOnly s (t.chainProofs l a b) :=
  each_keep_mem (proofsOnly s) _ l (fun c hc u hu => chainProof_masks u (hp c hc) ▸ chainProof_proofsOnly hu) t h

theorem chainProofs_netProved {l : List Nat} {c : Nat} (hp : passAll a b l) (hc : c ∈ l) (h : proofsOnly s t) : netProved s.now c (t.chainProofs l a b) :=
  each_reach (proofsOnly s) (netProved s.now c) _ l (fun j hj u hu => chainProof_masks u (hp j hj) ▸ chainProof_proofsOnly hu)
    (fun j hj u hu hn => chainProof_masks u (hp j hj) ▸ netProved_chainProof hu hn) c hc (fun u hu => chainProof_masks u (hp c hc) ▸ chainProof_netProved hu) t h

theorem netProved_chainProofs {l : List Nat} {c : Nat} (hp : passAll a b l) (h : proofsOnly s t) (hn : netProved s.now c t) : netProved s.now c (t.chainProofs l a b) :=
  (each_keep_mem (fun u => proofsOnly s u ∧ netProved s.now c u) _ l
    (fun j hj u hu => chainProof_masks u (hp j hj) ▸ ⟨chainProof_proofsOnly hu.1, netProved_chainProof hu.1 hu.2⟩) t ⟨h, hn⟩).2

theorem tileProved_proofsOnly {k : Nat} (hp : passAll a b (objTx (objTile k))) (h : proofsOnly s t) : proofsOnly s (tileProved a b k t) :=
  proofsOnly_updObj (chainProofs_proofsOnly hp h) (fun _ => rfl)

theorem tileProved_netProved {k c : Nat} (hp : passAll a b (objTx (objTile k))) (hc : c ∈ objTx (objTile k)) (h : proofsOnly s t) : netProved s.now c (tileProved a b k t) :=
  netProved_updObj (chainProofs_netProved hp hc h)

theorem netProved_tileProved {k c : Nat} (hp : passAll a b (objTx (objTile k))) (h : proofsOnly s t) (hn : netProved s.now c t) : netProved s.now c (tileProved a b k t) :=
  netProved_updObj (netProved_chainProofs hp h hn)

variable {l : List Nat} (hp : ∀ k ∈ l, passAll a b (objTx (objTile k)))
include hp

theorem tileProofs_proofsOnly (h : proofsOnly s t) : proofsOnly s (t.tileProofs l a b) := by
  rw [tileProofs_eq]
  exact each_keep_mem (proofsOnly s) _ l (fun k hk _ hu => tileProved_proofsOnly (hp k hk) hu) t h

theorem tileProofs_netProved {c k : Nat} (hk : k ∈ l) (hc : c ∈ objTx (objTile k)) (h : proofsOnly s t) : netProved s.now c (t.tileProofs l a b) := by
  rw [tileProofs_eq]
  exact each_reach (proofsOnly s) (netProved s.now c) _ l (fun j hj _ hu => tileProved_proofsOnly (hp j hj) hu) (fun j hj _ hu hn => netProved_tileProved (hp j hj) hu hn) k hk
    (fun _ hu => tileProved_netProved (hp k hk) hc hu) t h

end

/-! ## The proof of a release (R193, R196) -/

section
variable {s : State} {i : Nat} {a b : Word}

/-- The tiles whose proofs a tile's or the device's release runs. -/
def provedTiles (i : Nat) : List Nat := if i < 292 then [i - 288] else List.range 4

/-- The mechanisms of an object proved, chain by chain or tile by tile. -/
def mechanismsProved (s : State) (i : Nat) (a b : Word) : State := if i < 288 then s.chainProofs (objTx i) a b else s.tileProofs (provedTiles i) a b

/-- Whether the masks pass an object: a slot by bit 0, others by their chains. -/
def mechanismsPass (i : Nat) (a b : Word) : Bool := if i < 256 then a.getLsbD 0 && b.getLsbD 0 else (objTx i).all (fun c => a.getLsbD c && b.getLsbD c)

/-- The chains of a tile or of the device are those of its tiles. -/
theorem objTx_tiles (h : 288 ≤ i) (c : Nat) : c ∈ objTx i ↔ ∃ k ∈ provedTiles i, c ∈ objTx (objTile k) := by
  have tile : ∀ k, k < 4 → (c ∈ objTx (objTile k) ↔ ∃ j < 8, 8 * k + j = c) := by
    intro k hk
    unfold objTx objTile
    rw [if_neg (by omega), if_neg (by omega), if_pos (by omega), Nat.add_sub_cancel_left]
    simp only [List.mem_map, List.mem_range]
  unfold provedTiles
  by_cases hi : i < 292
  · obtain ⟨k, rfl⟩ : ∃ k, i = objTile k := ⟨i - 288, (Nat.add_sub_cancel' h).symm⟩
    rw [if_pos hi]
    unfold objTile
    simp
  · have dev : c ∈ objTx i ↔ c < 32 := by
      unfold objTx
      rw [if_neg (by omega), if_neg (by omega), if_neg hi, List.mem_range]
    rw [if_neg hi, dev]
    constructor
    · exact fun hc => ⟨c / 8, List.mem_range.mpr (by omega), (tile _ (by omega)).mpr ⟨c % 8, by omega, by omega⟩⟩
    · rintro ⟨k, hk, hc⟩
      have hk := List.mem_range.mp hk
      obtain ⟨j, hj, e⟩ := (tile k hk).mp hc
      omega

theorem mechanismsProved_calm (s : State) (i : Nat) (a b : Word) : Calm noTol s (mechanismsProved s i a b) :=
  Calm.ite (fun _ => Calm.chainProofs (Calm.refl noTol s)) (fun _ => Calm.tileProofs (Calm.refl noTol s))

theorem mechanismsProved_failed {c : Nat} (hc : c ∈ objTx i) (h : a.getLsbD c = false ∨ b.getLsbD c = false) : netFailed c (mechanismsProved s i a b) := by
  unfold mechanismsProved
  split
  · exact chainProofs_failed _ a b c hc h s
  · rename_i hi
    obtain ⟨k, hk, hck⟩ := (objTx_tiles (Nat.not_lt.mp hi) c).mp hc
    exact tileProofs_failed _ a b c k hk hck h s

theorem mechanismsProved_passed (hp : passAll a b (objTx i)) : proofsOnly s (mechanismsProved s i a b) ∧ ∀ c ∈ objTx i, netProved s.now c (mechanismsProved s i a b) := by
  unfold mechanismsProved
  split
  · exact ⟨chainProofs_proofsOnly hp (proofsOnly_refl s), fun c hc => chainProofs_netProved hp hc (proofsOnly_refl s)⟩
  · rename_i hi
    have chains := objTx_tiles (Nat.not_lt.mp hi)
    have tiles : ∀ k ∈ provedTiles i, passAll a b (objTx (objTile k)) := fun k hk c hc => hp c ((chains c).mpr ⟨k, hk, hc⟩)
    refine ⟨tileProofs_proofsOnly tiles (proofsOnly_refl s), fun c hc => ?_⟩
    obtain ⟨k, hk, hck⟩ := (chains c).mp hc
    exact tileProofs_netProved tiles hk hck (proofsOnly_refl s)

/-- The result noted in the object. -/
def resultNoted (s : State) (i : Nat) (a b : Word) : State := (mechanismsProved s i a b).updObj i (fun o => { o with proofOk := mechanismsPass i a b })

/-- What a failure does to a slot: NET_PROOF in slot scope. -/
def slotFailed (u : State) (i : Nat) : State := if i < 256 then (u.raise 13 13 (.slot i)).winterSet i 13 0 else u

theorem slotFailed_calm (u : State) (i : Nat) : Calm noTol u (slotFailed u i) := Calm.ite (fun _ => Calm.winterSet (Calm.raise (Calm.refl noTol u))) (fun _ => Calm.refl noTol u)

variable {r : Release}

theorem releaseProof_eq (hs : (s.wobj i).release = some r) (hp : r.passed = false) (ht : r.since < s.now) :
    s.releaseProof i a b = if mechanismsPass i a b then (resultNoted s i a b).updObj i (fun o => { o with release := o.release.map (fun q => { q with passed := true, since := s.now }) })
      else (slotFailed (resultNoted s i a b) i).endReleases i .winterActive := by
  unfold State.releaseProof
  rw [hs]
  dsimp only
  rw [if_neg (by simp only [hp, not_or]; exact ⟨by decide, Nat.not_le.mpr ht⟩)]
  rfl

theorem releaseProof_idle (h : ∀ r ∈ (s.wobj i).release, r.passed = true ∨ s.now ≤ r.since) : s.releaseProof i a b = s := by
  unfold State.releaseProof
  split
  · rename_i r hr
    rw [if_pos (h r hr)]
  · rfl

theorem resultNoted_calm (s : State) (i : Nat) (a b : Word) : Calm noTol (mechanismsProved s i a b) (resultNoted s i a b) := Calm.updObj (Calm.refl noTol _) (fun _ _ e => e)

/-- What follows the mechanisms' proofs takes no cause and no STATUS away. -/
theorem releaseProof_calm (hs : (s.wobj i).release = some r) (hp : r.passed = false) (ht : r.since < s.now) : Calm noTol (mechanismsProved s i a b) (s.releaseProof i a b) := by
  rw [releaseProof_eq hs hp ht]
  exact (resultNoted_calm s i a b).trans (Calm.ite (fun _ => Calm.updObj (Calm.refl noTol _) (fun _ _ e => e)) (fun _ => Calm.endReleases (slotFailed_calm _ i)))

/-- A release whose mechanisms all pass is marked so. -/
theorem releaseProof_passed (hs : (s.wobj i).release = some r) (hp : r.passed = false) (ht : r.since < s.now) (hm : mechanismsPass i a b = true) (hl : passAll a b (objTx i)) :
    ((s.releaseProof i a b).wobj i).release = some { r with passed := true, since := s.now } ∧ ((s.releaseProof i a b).wobj i).proofOk = true ∧
    (∀ c ∈ objTx i, netProved s.now c (s.releaseProof i a b)) ∧ (s.releaseProof i a b).flt = s.flt ∧ (s.releaseProof i a b).hif = s.hif := by
  obtain ⟨only, nets⟩ := mechanismsProved_passed (s := s) hl
  have rel : ((mechanismsProved s i a b).wobj i).release = some r := (only.2 i).trans hs
  have flt : (mechanismsProved s i a b).flt = s.flt := proofsOnly_flt only
  have hif : (mechanismsProved s i a b).hif = s.hif := proofsOnly_hif only
  rw [releaseProof_eq hs hp ht, if_pos hm, State.wobj_updObj]
  unfold resultNoted
  generalize mechanismsProved s i a b = u at nets rel flt hif ⊢
  rw [State.wobj_updObj]
  refine ⟨?_, hm, fun c hc => netProved_updObj (netProved_updObj (nets c hc)), flt, hif⟩
  dsimp only
  rw [rel]
  rfl

end

/-! ## The end of an object's releases (R196) -/

section
variable {s : State} {i : Nat} {st : Status}

/-- What is outstanding after a list of descriptors has been completed. -/
theorem completeEach_outstanding (l : List Pend) (st : Status) (res : State → Word) (q : Pend) : ∀ u : State,
    q ∈ (l.foldl (fun a p => a.complete p st (res a) 0) u).hif.outstanding ↔ q ∈ u.hif.outstanding ∧ ∀ r ∈ l, q.id ≠ r.id := by
  induction l with
  | nil => exact fun u => by simp
  | cons p r ih =>
    intro u
    rw [List.foldl_cons, ih, complete_outstanding, List.mem_filter, decide_eq_true_eq, List.forall_mem_cons, and_assoc]

theorem endReleases_none (s : State) (i : Nat) (st : Status) : ∀ q ∈ (s.endReleases i st).hif.outstanding, isRelease i q = false := by
  intro q hq
  obtain ⟨hm, hid⟩ := (completeEach_outstanding _ st (fun a => a.pwCause i) q _).mp hq
  cases h : isRelease i q with
  | false => rfl
  | true => exact absurd rfl (hid q (List.mem_filter.mpr ⟨hm, h⟩))

/-- The object's release is over, and completions are all else it does. -/
theorem endReleases_kept (s : State) (i : Nat) (st : Status) : Kept complPart (s.updObj i (fun o => { o with release := none })) (s.endReleases i st) :=
  Kept.foldl (Kept.refl _ _) (fun _ _ h => Kept.complete h rfl)

theorem wobj_of {a b : State} (h : b.prot.objs = a.prot.objs) (j : Nat) : b.wobj j = a.wobj j := by unfold State.wobj; rw [h]

theorem endReleases_wobj (s : State) (i : Nat) (st : Status) (j : Nat) : (s.endReleases i st).wobj j = if i = j then { s.wobj i with release := none } else s.wobj j := by
  rw [wobj_of (congrArg Prot.objs ((endReleases_kept s i st).prot rfl)), State.wobj_updObj_at]

/-- A proof that fails ends the object's releases, and keeps its causes. -/
theorem releaseProof_failed {a b : Word} {r : Release} (hs : (s.wobj i).release = some r) (hp : r.passed = false) (ht : r.since < s.now) (hm : mechanismsPass i a b = false) :
    ((s.releaseProof i a b).wobj i).release = none ∧ (∀ q ∈ (s.releaseProof i a b).hif.outstanding, isRelease i q = false) := by
  rw [releaseProof_eq hs hp ht, if_neg (by rw [hm]; decide)]
  refine ⟨?_, endReleases_none _ _ _⟩
  rw [endReleases_wobj, if_pos rfl]

/-- A cause word that has lost no bit of another holds all of it. -/
theorem eq_or_of_bits {x y : Half} (h : ∀ k, y.getLsbD k = true → x.getLsbD k = true) : x = x ||| y := by
  refine BitVec.eq_of_getLsbD_eq (fun k _ => ?_)
  rw [BitVec.getLsbD_or]
  cases hy : y.getLsbD k with
  | false => exact (Bool.or_false _).symm
  | true => rw [h k hy]; rfl

theorem exec_releaseProofEnd {o : WScope} {a b : Word} (hr : s.runs) : exec (.releaseProofEnd o a b) s = .next (s.releaseProof (scopeOf o) a b) := exec_live (f := fun x => x.releaseProof (scopeOf o) a b) rfl hr

end

/-! ## The commit of a release (R196 to R199) -/

section
variable {s : State} {i : Nat} {ovr : Bool}

/-- From a to b mutes have ended and gains restarted: scope objects, faults and cancellers have not changed. -/
def unmuted (a b : State) : Prop := b.prot.objs = a.prot.objs ∧ b.flt = a.flt ∧ b.cx = a.cx

theorem unmuted_of_kept {a b c : State} {p : Part} (h : unmuted a b) (k : Kept p b c) (hf : p.flt = false) (hc : p.cx = false) (hp : p.prot = false) : unmuted a c :=
  ⟨(congrArg Prot.objs (k.prot hp)).trans h.1, (k.flt hf).trans h.2.1, (k.cx hc).trans h.2.2⟩

theorem unmuted_updNet {a b : State} {c : Nat} {f : Net → Net} (h : unmuted a b) : unmuted a (b.updNet c f) := h

theorem unmuted_txLeaves {a b : State} (c : Nat) (h : unmuted a b) : unmuted a (b.txLeaves c) :=
  unmuted_of_kept (p := { intc := true }) (unmuted_updNet h) (Kept.irqEdge (Kept.refl _ _) rfl) rfl rfl rfl

/-- The object as its release leaves it: no cause, no source, no release. -/
def objReleased (ovr : Bool) (o : WObj) : WObj := { o with cause := 0, cleared := 0, faultBy := [], oscBy := [], overBy := [], release := none, oscTimes := if ovr then [] else o.oscTimes }

/-- A slot at the end of its mute: it leaves WINTER, or another mute still holds it. -/
def slotUnmuted (osc : Bool) (n : Nat) (u : State) : State := if u.slotMuted n then u.updGain n (fun g => { g with oscHeld := g.oscHeld || osc }) else u.slotLeaves n osc

theorem unmuted_slotUnmuted {a b : State} (osc : Bool) (n : Nat) (h : unmuted a b) : unmuted a (slotUnmuted osc n b) :=
  unmuted_of_kept (p := { gcl := true }) h (Kept.ite (fun _ => Kept.updGain (Kept.refl _ _) rfl) (fun _ => Kept.slotLeaves (Kept.refl _ _) rfl)) rfl rfl rfl

theorem unmuted_devStep {a b : State} (c : Nat) (x : PwrAsk) (h : unmuted a b) : unmuted a (b.devStep c x) := unmuted_of_kept (p := { rfe := true }) h (Kept.devStep (Kept.refl _ _) rfl) rfl rfl rfl

/-- The mutes of an object end, once its causes are gone and its record is written. -/
def mutesEnded (s : State) (i : Nat) (ovr : Bool) : State :=
  let u := (s.updObj i (objReleased ovr)).record 0x201 1 0x0D true (fld 0 (objCode i).1 + fld 1 (objCode i).2 + fld 2 (bit ovr) + fld 4 (s.wobj i).cause.toNat)
  (u.each (((objTx i).filter s.txMuted).filter (fun c => !u.txMuted c)) (fun c a => a.txLeaves c)).each ((s.objSlots i).filter s.slotMuted) (slotUnmuted ((s.wobj i).cause.getLsbD 0))

/-- A transmit chain after OOBE or VSWR: the hold of OOBE ends, and the power restarts low. -/
def chainRestarted (cause : Half) (c : Nat) (u : State) : State :=
  let v := if cause.getLsbD 3 then u.updNet c (fun x => { x with oHold := false, oSteps := 0, oRun := 0, oGood := none }) else u
  if cause.getLsbD 4 then v.devStep c (.delta (-12)) else v

theorem releaseObj_eq (s : State) (i : Nat) (ovr : Bool) :
    s.releaseObj i ovr = if 256 ≤ i ∧ i < 288 then chainRestarted (s.wobj i).cause (i - 256) (mutesEnded s i ovr) else mutesEnded s i ovr := rfl

theorem mutesEnded_unmuted (s : State) (i : Nat) (ovr : Bool) (h : s.recd.buf.length < 1024) : unmuted (s.updObj i (objReleased ovr)) (mutesEnded s i ovr) := by
  unfold mutesEnded
  dsimp only
  rw [State.record_room (s.updObj i (objReleased ovr)) _ _ _ _ _ h]
  have noted : ∀ d, unmuted (s.updObj i (objReleased ovr)) ((s.updObj i (objReleased ovr)).recordQ 0x201 1 0x0D true d) :=
    fun d => unmuted_of_kept (p := { recd := true }) ⟨rfl, rfl, rfl⟩ (Kept.recordQ (Kept.refl _ _) rfl) rfl rfl rfl
  exact each_keep _ _ (fun n _ => unmuted_slotUnmuted _ n) _ _ (each_keep _ _ (fun c _ => unmuted_txLeaves c) _ _ (noted _))

theorem unmuted_chainRestarted {a b : State} (cause : Half) (c : Nat) (h : unmuted a b) : unmuted a (chainRestarted cause c b) := by
  have held : unmuted a (if cause.getLsbD 3 then b.updNet c (fun x => { x with oHold := false, oSteps := 0, oRun := 0, oGood := none }) else b) := ite_both (unmuted a) (unmuted_updNet h) h
  exact ite_both (unmuted a) (unmuted_devStep c _ held) held

/-- With room for its record, a release clears its object and then only ends mutes. -/
theorem releaseObj_unmuted (s : State) (i : Nat) (ovr : Bool) (h : s.recd.buf.length < 1024) : unmuted (s.updObj i (objReleased ovr)) (s.releaseObj i ovr) := by
  rw [releaseObj_eq]
  exact ite_both _ (unmuted_chainRestarted _ _ (mutesEnded_unmuted s i ovr h)) (mutesEnded_unmuted s i ovr h)

/-- An outstanding release of the object that asks for OVERRIDE. -/
def overridden (s : State) (i : Nat) : Bool := (s.pends (isRelease i)).any (fun p => match p.desc with | .winterRelease _ _ o => decide (o = 1) | _ => false)

theorem overridden_iff (s : State) (i : Nat) : overridden s i = true ↔ ∃ p ∈ s.hif.outstanding, isRelease i p = true ∧ ∃ x y, p.desc = .winterRelease x y 1 := by
  unfold overridden State.pends
  simp only [List.any_eq_true, List.mem_filter, and_assoc]
  refine exists_congr (fun p => and_congr_right (fun _ => and_congr_right (fun _ => ?_)))
  split
  · rename_i x y o hd
    rw [hd, decide_eq_true_eq]
    exact ⟨fun h => ⟨x, y, h ▸ rfl⟩, fun ⟨_, _, e⟩ => by cases e; rfl⟩
  · rename_i hn
    exact ⟨fun h => absurd h (by decide), fun ⟨x, y, e⟩ => absurd e (hn x y 1)⟩

variable {r : Release}

theorem releaseCommit_due (hs : (s.wobj i).release = some r) (hp : r.passed = true) (ht : r.since < s.now) (hb : s.onSmp chainBlk = true) :
    s.releaseCommit i = if s.releasable i (overridden s i) then (s.releaseObj i (overridden s i)).endReleases i .ok else s.endReleases i .winterActive := by
  unfold State.releaseCommit
  rw [hs]
  dsimp only
  rw [if_pos ⟨hp, ht, hb⟩]
  rfl

theorem releaseCommit_idle (h : (∀ r ∈ (s.wobj i).release, r.passed = false ∨ s.now ≤ r.since) ∨ s.onSmp chainBlk = false) : s.releaseCommit i = s := by
  unfold State.releaseCommit
  split
  · rename_i r hr
    rw [if_neg]
    rintro ⟨hp, ht, hb⟩
    rcases h with h | h
    · rcases h r hr with h | h
      · exact absurd (hp.symm.trans h) (by decide)
      · exact absurd ht (Nat.not_lt.mpr h)
    · exact absurd (hb.symm.trans h) (by decide)
  · rfl

/-- Whatever its status, the end of an object's releases leaves the causes, the faults and the cancellers to what came before it. -/
theorem endReleases_unmuted {u : State} (h : unmuted (s.updObj i (objReleased ovr)) u) (st : Status) :
    ((u.endReleases i st).wobj i).release = none ∧ (∀ j, j ≠ i → (u.endReleases i st).wobj j = s.wobj j) ∧ (u.endReleases i st).flt = s.flt ∧ (u.endReleases i st).cx = s.cx ∧
    ((u.endReleases i st).wobj i).cause = 0 ∧ ((u.endReleases i st).wobj i).cleared = 0 := by
  obtain ⟨objs, flt, cx⟩ := h
  have kept := endReleases_kept u i st
  have own : (u.endReleases i st).wobj i = { objReleased ovr (s.wobj i) with release := none } := by
    rw [endReleases_wobj, if_pos rfl, wobj_of objs, State.wobj_updObj]
  refine ⟨congrArg WObj.release own, fun j hj => ?_, (kept.flt rfl).trans flt, (kept.cx rfl).trans cx, congrArg WObj.cause own, congrArg WObj.cleared own⟩
  rw [endReleases_wobj, if_neg (Ne.symm hj), wobj_of objs, State.wobj_updObj_ne _ _ _ _ (Ne.symm hj)]

theorem exec_releaseCommit {o : WScope} (hr : s.runs) : exec (.releaseCommit o) s = .next (s.releaseCommit (scopeOf o)) := exec_live (f := fun x => x.releaseCommit (scopeOf o)) rfl hr

end

/-! ## The read-back of the nets (R194) -/

section
variable {s : State} {f c : Word}

/-- What the read-back says of TXn: a net that does not follow is NET_PROOF, a complement that fails POLICY. -/
def netRead (f c : Word) (n : Nat) (u : State) : State :=
  let b := if f.getLsbD n then u else (u.raise 13 13 (.tx n)).winterSet (objChain n) 13 0
  if c.getLsbD n then b else b.raise 13 0 (.tx n)

/-- The state at a read-back. -/
def readbackNow (s : State) : State := { s with prot := { s.prot with readbackAt := s.now } }

theorem netReadback_due (h : s.prot.readbackAt + 899 * tsec ≤ s.now) : s.netReadback f c = (readbackNow s).each (List.range 32) (netRead f c) := by
  unfold State.netReadback
  rw [if_neg (Nat.not_lt.mpr h)]
  rfl

theorem netReadback_early (h : s.now < s.prot.readbackAt + 899 * tsec) : s.netReadback f c = s := if_pos h

theorem netRead_alarmed {a : State} (n : Nat) (u : State) (h : a.alarmed u) : a.alarmed (netRead f c n u) := by
  have net : a.alarmed (if f.getLsbD n then u else (u.raise 13 13 (.tx n)).winterSet (objChain n) 13 0) := State.alarmed_ite h (State.alarmed_winterSet (State.alarmed_raise h))
  exact State.alarmed_ite net (State.alarmed_raise net)

theorem netRead_calm (n : Nat) (u : State) : Calm noTol u (netRead f c n u) := by
  have net : Calm noTol u (if f.getLsbD n then u else (u.raise 13 13 (.tx n)).winterSet (objChain n) 13 0) :=
    Calm.ite (fun _ => Calm.refl noTol u) (fun _ => Calm.winterSet (Calm.raise (Calm.refl noTol u)))
  exact Calm.ite (fun _ => net) (fun _ => Calm.raise net)

theorem netRead_failed {n : Nat} (h : f.getLsbD n = false) (u : State) : netFailed n (netRead f c n u) := by
  simp only [netRead, h, Bool.false_eq_true, if_false]
  exact netFailed_calm (Calm.ite (fun _ => Calm.refl noTol _) (fun _ => Calm.raise (Calm.refl noTol _))) (netFailed_entered u n)

theorem netRead_policy {n : Nat} (h : c.getLsbD n = false) (u : State) : ((netRead f c n u).fsrc (16 * 13)).status = true := by
  simp only [netRead, h, Bool.false_eq_true, if_false]
  exact State.raise_status _ 13 0 _

theorem netRead_passed {n : Nat} (hf : f.getLsbD n = true) (hc : c.getLsbD n = true) (u : State) : netRead f c n u = u := by
  unfold netRead
  rw [hf, hc]
  rfl

theorem netReadback_alarmed (h : s.prot.readbackAt + 899 * tsec ≤ s.now) : (readbackNow s).alarmed (s.netReadback f c) := by
  rw [netReadback_due h]
  exact State.alarmed_each (State.alarmed_refl _) (fun n u hu => netRead_alarmed n u hu)

theorem alarmed_readbackAt {a b : State} (h : a.alarmed b) : b.prot.readbackAt = a.prot.readbackAt := congrArg (fun x => x.prot.readbackAt) h

theorem exec_netReadback (hr : s.runs) : exec (.netReadback f c) s = .next (s.netReadback f c) := exec_live (f := fun x => x.netReadback f c) rfl hr

end

/-! ## The bridge of net A (R174) -/

section
variable {s : State} {c : Nat}

theorem bridgeReopen_due {b : Nat} (h : (s.net c).bridge = some b) (hb : b ≤ s.now) : s.bridgeReopen c = s.updNet c (fun x => { x with bridge := none }) := by
  unfold State.bridgeReopen
  rw [h]
  exact if_pos hb

theorem bridgeReopen_idle (h : ∀ b ∈ (s.net c).bridge, s.now < b) : s.bridgeReopen c = s := by
  unfold State.bridgeReopen
  split
  · rename_i b hb
    exact if_neg (Nat.not_le.mpr (h b hb))
  · rfl

theorem exec_bridgeReopen {c : Fin 32} (hr : s.runs) : exec (.bridgeReopen c) s = .next (s.bridgeReopen c.val) := exec_live (f := fun x => x.bridgeReopen c.val) rfl hr

end

/-- A scope's masks pass where they pass bit 0 of a slot, or every chain of a larger object. -/
theorem mechanismsPass_iff (i : Nat) (a b : Word) : mechanismsPass i a b = true ↔ (256 ≤ i → passAll a b (objTx i)) ∧ (i < 256 → a.getLsbD 0 = true ∧ b.getLsbD 0 = true) := by
  unfold mechanismsPass passAll
  by_cases h : i < 256
  · rw [if_pos h, Bool.and_eq_true]
    exact ⟨fun e => ⟨fun hi => absurd h (Nat.not_lt.mpr hi), fun _ => e⟩, fun e => e.2 h⟩
  · rw [if_neg h]
    simp only [List.all_eq_true, Bool.and_eq_true]
    exact ⟨fun e => ⟨fun _ => e, fun hi => absurd hi h⟩, fun e => e.1 (Nat.not_lt.mp h)⟩

/-- A slot mutes no chain by its nets. -/
theorem passAll_objTx {i : Nat} {a b : Word} (h : 256 ≤ i → passAll a b (objTx i)) : passAll a b (objTx i) := by
  by_cases hi : i < 256
  · have none : objTx i = [] := if_pos hi
    rw [none]
    exact fun c hc => absurd hc List.not_mem_nil
  · exact h (Nat.not_lt.mp hi)

/-- Settles O40: each event by whether it is due; a proof by its masks, a commit by whether the release is still allowed. -/
theorem leavingWinter : Obligations.LeavingWinter := by
  unfold Obligations.LeavingWinter
  refine ⟨?_, ?_, ?_, ?_, ?_, ?_, ?_, ?_, ?_, ?_, ?_⟩
  · intro s o c hr ho hc
    refine ⟨_, exec_causeClearTimer hr, ?_⟩
    rw [causeClear_over ho, clearCause_held _ _ _ hc]
    exact ⟨State.updObj_only _ _ _, State.wobj_updObj _ _ _⟩
  · intro s o c hr h
    rw [exec_causeClearTimer hr, causeClear_idle h]
  · intro s o a b hr h
    rw [exec_releaseProofEnd hr, releaseProof_idle h]
  · intro s o a b r hr hs hp ht
    have kept : Kept Part.alarms s (s.releaseProof (scopeOf o) a b) := Kept.releaseProof (Kept.refl _ s) rfl
    have calm := releaseProof_calm (a := a) (b := b) hs hp ht
    refine ⟨_, exec_releaseProofEnd hr, kept.rfe rfl, fun c hc h => ?_, fun hl h0 => ?_, fun h => ?_⟩
    · exact netFailed_calm calm (mechanismsProved_failed hc h)
    · exact releaseProof_passed hs hp ht ((mechanismsPass_iff _ a b).mpr ⟨hl, h0⟩) (passAll_objTx hl)
    · have fails : mechanismsPass (scopeOf o) a b = false := by
        rw [← Bool.not_eq_true, mechanismsPass_iff]
        rintro ⟨hl, h0⟩
        rcases h with ⟨hi, h⟩ | ⟨hi, c, hc, h⟩
        · exact absurd ((Bool.and_eq_true_iff.mpr (h0 hi)).symm.trans (Bool.and_eq_false_iff.mpr h)) (by decide)
        · exact absurd ((Bool.and_eq_true_iff.mpr (hl hi c hc)).symm.trans (Bool.and_eq_false_iff.mpr h)) (by decide)
      obtain ⟨none, ended⟩ := releaseProof_failed hs hp ht fails
      exact ⟨none, eq_or_of_bits (fun k hk => ((mechanismsProved_calm s _ a b).trans calm).cause rfl _ k hk), ended⟩
  · intro s o hr h
    rw [exec_releaseCommit hr, releaseCommit_idle h]
  · intro s o r ovr hr hs hp ht hb room ho
    obtain rfl : ovr = overridden s (scopeOf o) := Bool.eq_iff_iff.mpr (ho.trans (overridden_iff s _).symm)
    refine ⟨_, exec_releaseCommit hr, ?_⟩
    rw [releaseCommit_due hs hp ht hb]
    split
    · rename_i allowed
      obtain ⟨none, others, flt, cx, cause, cleared⟩ := endReleases_unmuted (releaseObj_unmuted s (scopeOf o) (overridden s (scopeOf o)) room) .ok
      exact ⟨none, endReleases_none _ _ _, others, flt, cx, fun _ => ⟨cause, cleared⟩, fun h => absurd (allowed.symm.trans h) (by decide)⟩
    · rename_i refused
      have kept := endReleases_kept s (scopeOf o) .winterActive
      have own := endReleases_wobj s (scopeOf o) .winterActive (scopeOf o)
      rw [if_pos rfl] at own
      exact ⟨by rw [own], endReleases_none _ _ _, fun j hj => (endReleases_wobj _ _ _ j).trans (if_neg (Ne.symm hj)), kept.flt rfl, kept.cx rfl,
        fun h => absurd h refused, fun _ => ⟨by rw [own], kept.rfe rfl, kept.gcl rfl⟩⟩
  · intro s f c hr h
    rw [exec_netReadback hr, netReadback_early h]
  · intro s f c hr h
    have al := netReadback_alarmed (f := f) (c := c) h
    refine ⟨_, exec_netReadback hr, alarmed_readbackAt al, State.alarmed_rfe (a := readbackNow s) al, fun n hn => ?_⟩
    have mem := List.mem_range.mpr hn
    rw [netReadback_due h]
    exact ⟨fun hf => each_once (netFailed n) _ (fun i u hu => netFailed_calm (netRead_calm i u) hu) _ n mem (netRead_failed hf) _,
      fun hc => each_once (fun u => (u.fsrc (16 * 13)).status = true) _ (fun i u hu => (netRead_calm i u).stat rfl _ hu) _ n mem (netRead_policy hc) _⟩
  · intro s f c hr h all
    rw [exec_netReadback hr, netReadback_due h]
    exact congrArg _ (each_keep_mem (· = readbackNow s) _ _ (fun n hn u hu => (netRead_passed (all n (List.mem_range.mp hn)).1 (all n (List.mem_range.mp hn)).2 u).trans hu) _ rfl)
  · intro s c b hr h hb
    refine ⟨_, exec_bridgeReopen hr, ?_⟩
    rw [bridgeReopen_due h hb]
    exact ⟨State.updNet_only _ _ _, State.net_updNet _ _ _⟩
  · intro s c hr h
    rw [exec_bridgeReopen hr, bridgeReopen_idle h]

end Sys2Proof.Proofs
end

section
/-! SUPPORT. Protection, engine, host and cascade descriptors at their acceptance (R185, R188, R190, R191, R195, R242, R247, R279, R283, R355, R356, R379). -/

namespace Sys2Proof.Proofs

open Sys2Proof.Machine Sys2Proof.Laws

/-! ## Operand checks -/

/-- Operands without a bad one pass every check. -/
theorem firstBad_none {l : List (Nat × Bool)} (h : firstBad l = none) : ∀ e ∈ l, e.2 = true := by
  intro e he
  have := List.find?_eq_none.mp (Option.map_eq_none_iff.mp h) e he
  simpa using this

/-! ## Parameters (R185) -/

section
variable {s : State} {p q j k : Nat}

/-- A parameter set is read back at its object, and every other stands. -/
theorem setParam_param (v : Int) (hj : j < 32) (hk : k < 32) : (s.setParam p j v).param q k = if p = q ∧ j = k then v else s.param q k := by
  unfold State.param State.setParam
  by_cases h : p = q ∧ j = k
  · obtain ⟨rfl, rfl⟩ := h
    have attached : ¬ (p = 9 ∧ (!(if p = 9 then s.prot.attachSet.set false j true else s.prot.attachSet).get false j) = true) := by
      rintro ⟨e, h⟩
      rw [if_pos e, Tab.get_set_self] at h
      exact absurd h (by decide)
    rw [if_neg attached, Tab.get_set_self, if_pos ⟨rfl, rfl⟩]
  · have key : 32 * p + j ≠ 32 * q + k := by omega
    have attach : q = 9 → (if p = 9 then s.prot.attachSet.set false j true else s.prot.attachSet).get false k = s.prot.attachSet.get false k := by
      intro e
      split
      · exact Tab.get_set_ne _ _ _ _ _ _ (by omega)
      · rfl
    rw [if_neg h, Tab.get_set_ne _ _ _ _ _ _ key]
    by_cases e : q = 9
    · rw [attach e]
      rfl
    · rw [if_neg (fun x => e x.1), if_neg (fun x => e x.1)]

/-- A parameter set on a list of objects. -/
theorem setParams_param (v : Int) (l : List Nat) (hl : ∀ j ∈ l, j < 32) (hk : k < 32) : ∀ s : State, (s.each l (fun j a => a.setParam p j v)).param q k = if p = q ∧ k ∈ l then v else s.param q k := by
  induction l with
  | nil => exact fun s => by rw [if_neg (fun h => nomatch h.2)]; rfl
  | cons j r ih =>
    intro s
    have e : (s.each (j :: r) (fun j a => a.setParam p j v)).param q k = _ := ih (fun i hi => hl i (List.mem_cons_of_mem j hi)) (s.setParam p j v)
    have mem : k ∈ j :: r ↔ j = k ∨ k ∈ r := by rw [List.mem_cons, eq_comm]
    rw [e, setParam_param v (hl j List.mem_cons_self) hk]
    simp only [mem]
    by_cases h : p = q ∧ k ∈ r
    · rw [if_pos h, if_pos ⟨h.1, Or.inr h.2⟩]
    · rw [if_neg h]
      exact if_congr ⟨fun x => ⟨x.1, Or.inl x.2⟩, fun x => ⟨x.1, x.2.resolve_right (fun m => h ⟨x.1, m⟩)⟩⟩ rfl rfl

/-- Parameters are all that it writes. -/
theorem setParams_frame (v : Int) (l : List Nat) (s : State) :
    s.each l (fun j a => a.setParam p j v) = { s with prot := { s.prot with params := (s.each l (fun j a => a.setParam p j v)).prot.params, attachSet := (s.each l (fun j a => a.setParam p j v)).prot.attachSet } } := by
  refine each_keep (fun u => u = { s with prot := { s.prot with params := u.prot.params, attachSet := u.prot.attachSet } }) _ ?_ l s rfl
  intro j u hu
  rw [hu]
  rfl

/-- The objects that PROT_CONFIG names. -/
def paramTargets (pm ob : Byte) : List Nat := if ob = 0xFF then List.range (paramObjs pm.toNat) else [ob.toNat]

theorem mem_paramTargets (pm ob : Byte) (j : Nat) : j ∈ paramTargets pm ob ↔ (ob ≠ 0xFF ∧ ob.toNat = j) ∨ (ob = 0xFF ∧ j < paramObjs pm.toNat) := by
  unfold paramTargets
  by_cases h : ob = 0xFF
  · simp [h]
  · rw [if_neg h, List.mem_singleton, eq_comm, or_iff_left (fun x => h x.1), and_iff_right h]

theorem paramTargets_lt {s : State} {h : DHdr} {pm ob : Byte} {v : Word} (t : s.takes h (.protConfig pm ob v)) : ∀ j ∈ paramTargets pm ob, j < 32 := by
  intro j hj
  have named : decide (ob.toNat < paramObjs pm.toNat ∨ ob = 0xFF) = true := firstBad_none t.range _ (List.mem_cons_of_mem _ List.mem_cons_self)
  have objs : paramObjs pm.toNat ≤ 32 := by
    unfold paramObjs
    split <;> decide
  rcases (mem_paramTargets pm ob j).mp hj with ⟨ne, rfl⟩ | ⟨_, lt⟩
  · exact ((of_decide_eq_true named).resolve_right ne).trans_le objs
  · exact lt.trans_le objs

end

/-! ## Entries of WINTER (R190, R191, R196) -/

section
variable {a b c : State}

/-- From a to b causes of WINTER may have been entered: none has been marked cleared, a release stands or is over, and an age stands or begins now. -/
def entriesOnly (a b : State) : Prop := b.now = a.now ∧ ∀ j, (∀ k, (b.wobj j).cleared.getLsbD k = true → (a.wobj j).cleared.getLsbD k = true) ∧
  ((b.wobj j).release = (a.wobj j).release ∨ (b.wobj j).release = none) ∧ ((b.wobj j).age = (a.wobj j).age ∨ (b.wobj j).age = some a.now)

theorem entriesOnly_refl (a : State) : entriesOnly a a := ⟨rfl, fun _ => ⟨fun _ h => h, Or.inl rfl, Or.inl rfl⟩⟩

theorem entriesOnly_trans (h : entriesOnly a b) (h' : entriesOnly b c) : entriesOnly a c := by
  obtain ⟨now, objs⟩ := h
  obtain ⟨now', objs'⟩ := h'
  refine ⟨now'.trans now, fun j => ?_⟩
  obtain ⟨cl, rel, age⟩ := objs j
  obtain ⟨cl', rel', age'⟩ := objs' j
  refine ⟨fun k hk => cl k (cl' k hk), ?_, ?_⟩
  · rcases rel' with e | e
    · rw [e]; exact rel
    · exact Or.inr e
  · rcases age' with e | e
    · rw [e]; exact age
    · exact Or.inr (e.trans (congrArg some now))

/-- What leaves the scope objects alone enters nothing. -/
theorem entriesOnly_of_kept {p : Part} (h : Kept p a b) (hp : p.prot = false) : entriesOnly a b := by
  refine ⟨h.now, fun j => ?_⟩
  rw [wobj_of (congrArg Prot.objs (h.prot hp))]
  exact ⟨fun _ h => h, Or.inl rfl, Or.inl rfl⟩

theorem entriesOnly_updObj (i : Nat) (f : WObj → WObj) (hc : ∀ o k, (f o).cleared.getLsbD k = true → o.cleared.getLsbD k = true) (hr : ∀ o, (f o).release = o.release ∨ (f o).release = none)
    (ha : ∀ o, (f o).age = o.age ∨ (f o).age = some a.now) : entriesOnly a (a.updObj i f) := by
  refine ⟨rfl, fun j => ?_⟩
  rw [State.wobj_updObj_at]
  split
  · subst j; exact ⟨hc _, hr _, ha _⟩
  · exact ⟨fun _ h => h, Or.inl rfl, Or.inl rfl⟩

theorem entriesOnly_updNet (i : Nat) (f : Net → Net) : entriesOnly a (a.updNet i f) := ⟨rfl, fun _ => ⟨fun _ h => h, Or.inl rfl, Or.inl rfl⟩⟩

theorem entriesOnly_each {l : List Nat} {f : Nat → State → State} (h : entriesOnly a b) (hf : ∀ i u, entriesOnly u (f i u)) : entriesOnly a (b.each l f) :=
  each_keep (entriesOnly a) f (fun i u hu => entriesOnly_trans hu (hf i u)) l b h

theorem entriesOnly_txEntersWinter (a : State) (n : Nat) : entriesOnly a (a.txEntersWinter n) :=
  entriesOnly_trans (entriesOnly_updNet n _) (entriesOnly_of_kept (p := { hif := true, intc := true, recd := true, cx := true }) (Kept.each (Kept.irqEdge (Kept.refl _ _) rfl) (fun _ _ h => Kept.seedInstall h rfl)) rfl)

theorem entriesOnly_slotEntersWinter (a : State) (n : Nat) : entriesOnly a (a.slotEntersWinter n) :=
  entriesOnly_of_kept (p := { hif := true, intc := true, recd := true, slots := true, gcl := true }) (Kept.slotEntersWinter (Kept.refl _ _) rfl) rfl

theorem entriesOnly_bridgeNet (a : State) (n : Nat) : entriesOnly a (a.bridgeNet n) := by
  unfold State.bridgeNet
  split
  · exact ite_both (entriesOnly a) (entriesOnly_refl a) (entriesOnly_updNet _ _)
  · exact entriesOnly_refl a

/-- A record writer that only enters. -/
def EntriesRec (F : RecF) : Prop := ∀ s code sev src bypass data, entriesOnly s (F s code sev src bypass data)

/-- An object at the entry of a cause. -/
def objEntered (now cause : Nat) (reason : Half) (o : WObj) : WObj :=
  { o with cause := o.cause ||| BitVec.twoPow 16 cause, cleared := o.cleared &&& ~~~(BitVec.twoPow 16 cause), age := some now,
           entries := o.entries.set 0 cause now, oscAge := if cause = 0 then some now else o.oscAge,
           oscTimes := if cause = 0 then (o.oscTimes.filter (fun t => decide (now - t ≤ 600 * tsec))) ++ [now] else o.oscTimes,
           release := none, reason := reason }

/-- The state at the entry of a cause, before its record and what its mute ends. -/
def causeEntered (s : State) (i cause : Nat) (reason : Half) : State := (if i < 256 then s.bridgeNet i else s).updObj i (objEntered s.now cause reason)

theorem uncleared (x : Half) (c k : Nat) (h : (x &&& ~~~(BitVec.twoPow 16 c)).getLsbD k = true) : x.getLsbD k = true := by
  rw [BitVec.getLsbD_and, Bool.and_eq_true] at h
  exact h.1

theorem causeEntered_entriesOnly (s : State) (i cause : Nat) (reason : Half) : entriesOnly s (causeEntered s i cause reason) := by
  have bridged : entriesOnly s (if i < 256 then s.bridgeNet i else s) := ite_both (entriesOnly s) (entriesOnly_bridgeNet s i) (entriesOnly_refl s)
  exact entriesOnly_trans bridged (entriesOnly_updObj i _ (fun _ k h => uncleared _ _ k h) (fun _ => Or.inr rfl) (fun _ => Or.inr (congrArg some bridged.1.symm)))

variable {F : RecF}

/-- After the entry itself nothing more is done to the object than further entries. -/
theorem winterSetWith_new (hF : EntriesRec F) {s : State} {i cause : Nat} {reason : Half} (h : (s.wobj i).cause.getLsbD cause = false) :
    entriesOnly (causeEntered s i cause reason) (s.winterSetWith F i cause reason) := by
  unfold State.winterSetWith
  dsimp only
  rw [h, if_neg (by decide)]
  refine entriesOnly_trans ?_ (entriesOnly_of_kept (p := { hif := true }) (Kept.captTrigger (Kept.refl _ _) rfl) rfl)
  refine entriesOnly_each (entriesOnly_each ?_ (fun n u => entriesOnly_slotEntersWinter u n)) (fun n u => entriesOnly_txEntersWinter u n)
  have recorded := hF (causeEntered s i cause reason) 0x200 2 0x0D true (fld 0 (objCode i).1 + fld 1 (objCode i).2 + fld 2 (2 ^ cause) + fld 4 reason.toNat)
  split
  · exact entriesOnly_trans recorded (entriesOnly_of_kept (kept_completeId _ _ _ _ _) rfl)
  · exact recorded

theorem winterSetWith_held (s : State) {i cause : Nat} {reason : Half} (h : (s.wobj i).cause.getLsbD cause = true) :
    s.winterSetWith F i cause reason = s.updObj i (fun o => { o with cleared := o.cleared &&& ~~~(BitVec.twoPow 16 cause) }) := by
  unfold State.winterSetWith
  exact if_pos h

theorem entriesOnly_winterSetWith (hF : EntriesRec F) (s : State) (i cause : Nat) (reason : Half) : entriesOnly s (s.winterSetWith F i cause reason) := by
  cases h : (s.wobj i).cause.getLsbD cause with
  | false => exact entriesOnly_trans (causeEntered_entriesOnly s i cause reason) (winterSetWith_new hF h)
  | true =>
    rw [winterSetWith_held s h]
    exact entriesOnly_updObj i _ (fun _ k h => uncleared _ _ k h) (fun _ => Or.inl rfl) (fun _ => Or.inl rfl)

theorem entriesOnly_faultWinter (hF : EntriesRec F) (s : State) (k : Nat) (f : FScope) : entriesOnly s (s.faultWinter F k f) := by
  unfold State.faultWinter
  refine ite_both (entriesOnly s) (entriesOnly_refl s) (entriesOnly_each (entriesOnly_refl s) (fun i u => ?_))
  exact entriesOnly_trans (entriesOnly_winterSetWith hF u i 8 0) (entriesOnly_updObj i _ (fun _ _ h => h) (fun _ => Or.inl rfl) (fun _ => Or.inl rfl))

theorem entriesOnly_escalateWinter (hF : EntriesRec F) (s : State) (k : Nat) : entriesOnly s (s.escalateWinter F k) := by
  unfold State.escalateWinter
  exact List.foldlRecOn _ _ (entriesOnly_refl s) (fun u hu f _ => entriesOnly_trans hu (entriesOnly_faultWinter hF u k f))

theorem entriesOnly_updFsrc (s : State) (k : Nat) (f : FSrc → FSrc) : entriesOnly s (s.updFsrc k f) := entriesOnly_of_kept (p := { flt := true }) (Kept.updFsrc (Kept.refl _ _) rfl) rfl

theorem entriesOnly_faultRecord (hF : EntriesRec F) (s : State) (k kind : Nat) (f : FScope) (inj : Bool) : entriesOnly s (s.faultRecord F k kind f inj) := hF _ _ _ _ _ _

theorem entriesOnly_firstOccur (hF : EntriesRec F) (s : State) (k kind : Nat) (f : FScope) (inj : Bool) : entriesOnly s (s.firstOccur F k kind f inj) := by
  have risen : ∀ u : State, entriesOnly u (if 1 ≤ s.sev (k / 16) (k % 16) then u.irqRise (64 + k) else u) := fun u =>
    ite_both (entriesOnly u) (entriesOnly_of_kept (p := { intc := true }) (Kept.irqRise (Kept.refl _ _) rfl) rfl) (entriesOnly_refl u)
  unfold State.firstOccur
  dsimp only
  have recorded := fun g : FSrc → FSrc => entriesOnly_trans (entriesOnly_trans (entriesOnly_updFsrc s k g) (risen _)) (entriesOnly_faultRecord hF _ k kind f inj)
  exact ite_both (entriesOnly s) (entriesOnly_trans (recorded _) (entriesOnly_faultWinter hF _ k f)) (recorded _)

theorem entriesOnly_repeatOccur (hF : EntriesRec F) (s : State) (k : Nat) (f : FScope) (inj : Bool) : entriesOnly s (s.repeatOccur F k f inj) := by
  unfold State.repeatOccur
  dsimp only
  have recorded := entriesOnly_trans (entriesOnly_updFsrc s k (fun x => { x with repeats := satInc 0xFFFF x.repeats, scopes := s.addScope x.scopes f, inj := inj })) (entriesOnly_faultRecord hF _ k 1 f inj)
  have escalated := fun g : FSrc → FSrc => entriesOnly_trans recorded (entriesOnly_trans (entriesOnly_updFsrc _ k g) (entriesOnly_faultRecord hF _ k 3 f inj))
  refine ite_both (entriesOnly s) (ite_both (entriesOnly s) ?_ ?_) (ite_both (entriesOnly s) ?_ recorded)
  · exact entriesOnly_trans (escalated _) (entriesOnly_escalateWinter hF _ k)
  · exact escalated _
  · exact entriesOnly_trans recorded (entriesOnly_faultWinter hF _ k f)

theorem entriesRec_recordQ : EntriesRec State.recordQ := fun _ _ _ _ _ _ => entriesOnly_of_kept (p := { recd := true }) (Kept.recordQ (Kept.refl _ _) rfl) rfl

/-- A record enters only what its own loss enters. -/
theorem entriesRec_record : EntriesRec State.record := by
  intro s code sev src bypass data
  have intake : entriesOnly s (s.record0 code sev src bypass data).2 := entriesRec_recordQ s code sev src bypass data
  unfold State.record
  split <;> rename_i u hu <;> rw [hu] at intake
  · exact entriesOnly_trans intake (ite_both (entriesOnly u) (entriesOnly_repeatOccur entriesRec_recordQ u _ _ _) (entriesOnly_firstOccur entriesRec_recordQ u _ _ _ _))
  · exact intake

/-- A cause as it is entered is not cleared. -/
theorem winterSet_uncleared (s : State) (i cause : Nat) (reason : Half) : ((s.winterSet i cause reason).wobj i).cleared.getLsbD cause = false := by
  have off : ∀ x : Half, (x &&& ~~~(BitVec.twoPow 16 cause)).getLsbD cause = false := by
    intro x
    by_cases h : cause < 16
    · simp [h]
    · exact BitVec.getLsbD_of_ge _ _ (Nat.not_lt.mp h)
  unfold State.winterSet
  cases h : (s.wobj i).cause.getLsbD cause with
  | true =>
    rw [winterSetWith_held s h, State.wobj_updObj]
    exact off _
  | false =>
    refine Bool.eq_false_iff.mpr (fun on => ?_)
    have := ((winterSetWith_new entriesRec_record h).2 i).1 cause on
    unfold causeEntered at this
    rw [State.wobj_updObj] at this
    exact absurd (this.symm.trans (off _)) (by decide)

/-- A new cause ends the object's release and restarts its age. -/
theorem winterSet_new (s : State) (i cause : Nat) (reason : Half) (h : (s.wobj i).cause.getLsbD cause = false) :
    ((s.winterSet i cause reason).wobj i).release = none ∧ ((s.winterSet i cause reason).wobj i).age = some s.now := by
  obtain ⟨_, objs⟩ := winterSetWith_new (reason := reason) entriesRec_record h
  obtain ⟨_, rel, age⟩ := objs i
  have now : (causeEntered s i cause reason).now = s.now := (causeEntered_entriesOnly s i cause reason).1
  have entered : ((causeEntered s i cause reason).wobj i).release = none ∧ ((causeEntered s i cause reason).wobj i).age = some s.now := by
    unfold causeEntered
    rw [State.wobj_updObj]
    exact ⟨rfl, rfl⟩
  rw [entered.1, or_self] at rel
  rw [entered.2, now, or_self] at age
  exact ⟨rel, age⟩

end

/-! ## Tasks (R230, R247) -/

section
variable {s : State} {e k : Nat}

theorem task_of {a b : State} (h : b.le.tasks = a.le.tasks) (j : Nat) : b.task j = a.task j := by unfold State.task; rw [h]

/-- A stop writes its own task. -/
theorem stopTask_task (s : State) (e t j : Nat) : (s.stopTask e t).task j = if taskKey e t = j then { s.task (taskKey e t) with st := .stopped, startId := none } else s.task j := by
  have ran : (if (s.eng e).running = some t then s.updEng e (fun x => { x with running := none, writes := [] }) else s).le.tasks = s.le.tasks := ite_both (fun u : State => u.le.tasks = s.le.tasks) rfl rfl
  unfold State.stopTask
  dsimp only
  split
  · have superseded := fun id => (congrArg Le.tasks ((kept_completeId _ id .superseded 0 0).le rfl)).trans ran
    rw [State.task_updTask_at, task_of (superseded _), task_of (superseded _)]
  · rw [State.task_updTask_at, task_of ran, task_of ran]

/-- A task is STOPPED. -/
def taskStopped (k : Nat) (s : State) : Prop := (s.task k).st = .stopped

theorem stopTask_stops (s : State) (e t : Nat) : taskStopped (taskKey e t) (s.stopTask e t) := by
  unfold taskStopped
  rw [stopTask_task, if_pos rfl]

theorem taskStopped_stopTask (e t : Nat) (h : taskStopped k s) : taskStopped k (s.stopTask e t) := by
  unfold taskStopped
  rw [stopTask_task]
  exact ite_both (fun x : Task => x.st = .stopped) rfl h

/-- The stops of an engine's started tasks leave none of its tasks started. -/
theorem stopEngine_stops (u : State) (hk : k < 8) : taskStopped (taskKey e k) (u.each (u.startedTasks e) (fun t b => b.stopTask e t)) := by
  have keep : ∀ t c, taskStopped (taskKey e k) c → taskStopped (taskKey e k) (c.stopTask e t) := fun t _ h => taskStopped_stopTask e t h
  by_cases h : (u.task (taskKey e k)).st = .stopped
  · exact each_keep _ _ keep _ u h
  · have started : k ∈ u.startedTasks e := List.mem_filter.mpr ⟨List.mem_range.mpr hk, decide_eq_true h⟩
    exact each_once _ _ keep _ k started (fun c => stopTask_stops c e k) u

/-- The stop of the library leaves every task of the closed engines STOPPED (R230). -/
theorem libStop_stops (s : State) (he : 4 ≤ e) (he' : e < 64) (hk : k < 8) : taskStopped (taskKey e k) s.libStop := by
  have listed : e ∈ (List.range 60).map (fun k => k + 4) := List.mem_map.mpr ⟨e - 4, List.mem_range.mpr (by omega), by omega⟩
  have stopped : taskStopped (taskKey e k) (s.each ((List.range 60).map (fun k => k + 4)) (fun e a => a.each (a.startedTasks e) (fun t b => b.stopTask e t))) :=
    each_once _ _ (fun i c h => each_keep _ _ (fun t _ h => taskStopped_stopTask i t h) _ c h) _ e listed (fun c => stopEngine_stops c hk) s
  have kept : ∀ u : State, taskStopped (taskKey e k) u → taskStopped (taskKey e k) { u with le := { u.le with libRunning := false } } := fun _ h => h
  unfold State.libStop
  exact kept _ stopped

end

/-! ## Records (R355, R356) -/

section
variable {s : State}

/-- A record that passes its bucket by and finds room stands in the buffer under the next number. -/
theorem recordQ_written (code sev : Nat) (src : Byte) (data : Nat) (hm : s.recd.mounted = true) (hi : s.recd.intakeClosed = false) (hb : s.recd.buf.length < 1024) :
    ∃ r ∈ (s.recordQ code sev src true data).recd.buf, r.code = code ∧ r.seq = s.recd.nextSeq := by
  have e : s.recordQ code sev src true data = s.bufferPut code sev false src (BitVec.ofNat 256 data) := by
    unfold State.recordQ State.record0
    rw [hm, hi, if_neg (by decide), if_neg (by decide), if_pos rfl]
    unfold State.bufferEnter
    rw [if_pos hb]
  rw [e]
  unfold State.bufferPut
  dsimp only
  exact ite_both (fun u : State => ∃ r ∈ u.recd.buf, r.code = code ∧ r.seq = s.recd.nextSeq) ⟨_, List.mem_append_right _ List.mem_cons_self, rfl, rfl⟩ ⟨_, List.mem_append_right _ List.mem_cons_self, rfl, rfl⟩

/-- A flush is wanted. -/
def flushWanted (s : State) : Prop := s.recd.want = true

theorem flushWanted_of {a b : State} (h : b.recd = a.recd) (w : flushWanted a) : flushWanted b := (congrArg Recd.want h).trans w

theorem flushWanted_bufferPut (code sev : Nat) (sm : Bool) (src : Byte) (data : BitVec 256) (w : flushWanted s) : flushWanted (s.bufferPut code sev sm src data) := by
  unfold State.bufferPut
  exact ite_both flushWanted rfl w

theorem flushWanted_countDrop (sev : Nat) (w : flushWanted s) : flushWanted (s.countDrop sev) := by
  unfold State.countDrop
  exact ite_both flushWanted w w

theorem flushWanted_bufferEnter (code sev : Nat) (sm : Bool) (src : Byte) (data : BitVec 256) (w : flushWanted s) : flushWanted (s.bufferEnter code sev sm src data).2 := by
  unfold State.bufferEnter
  split
  · exact flushWanted_bufferPut _ _ _ _ _ w
  · split
    · exact flushWanted_bufferPut _ _ _ _ _ w
    · exact flushWanted_countDrop _ w

/-- No record takes a wanted flush back. -/
theorem flushWanted_recordQ (code sev : Nat) (src : Byte) (bypass : Bool) (data : Nat) (w : flushWanted s) : flushWanted (s.recordQ code sev src bypass data) := by
  unfold State.recordQ State.record0
  dsimp only
  rw [apply_ite Prod.snd, apply_ite Prod.snd, apply_ite Prod.snd, apply_ite Prod.snd]
  exact ite_both flushWanted w (ite_both flushWanted (flushWanted_countDrop _ w) (ite_both flushWanted (flushWanted_bufferEnter _ _ _ _ _ w)
    (ite_both flushWanted w (flushWanted_bufferEnter _ _ _ _ _ w))))

theorem flushWanted_complete (p : Pend) (st : Status) (r : Word) (x : Half) (w : flushWanted s) : flushWanted (s.complete p st r x) := by
  have put : ∀ (u : State) (c : Compl), flushWanted u → flushWanted (u.sendCompl c) := by
    intro u c hu
    have sent : flushWanted (if u.hif.busMaster && !decide ((u.ring c.ring).st = .stopped ∧ (u.ring c.ring).cause = 3) then u.putCompl c else { u with hif := { u.hif with held := u.hif.held ++ [c] } }) :=
      ite_both flushWanted (flushWanted_of ((Kept.putCompl (p := { hif := true, intc := true }) (Kept.refl _ u) rfl).recd rfl) hu) hu
    unfold State.sendCompl
    exact flushWanted_of ((Kept.drainCheck (p := { hif := true }) (Kept.refl _ _) rfl).recd rfl) (ite_both flushWanted sent (flushWanted_recordQ _ _ _ _ _ sent))
  unfold State.complete
  exact ite_both flushWanted w (put _ _ w)

theorem flushWanted_completeAll (f : Pend → Bool) (st : Status) (w : flushWanted s) : flushWanted (s.completeAll f st) := by
  unfold State.completeAll
  exact List.foldlRecOn _ _ w (fun _ hu p _ => flushWanted_complete p st 0 0 hu)

/-- The REC_FLUSHes that have what they wait for. -/
def flushDone (x : Recd) (p : Pend) : Bool := isRecFlush p && (x.intakeClosed || x.committedTo p.aux)

theorem recFlushCheck_open (hi : s.recd.intakeClosed = false) : s.recFlushCheck = s.completeAll (flushDone s.recd) .ok := by
  unfold State.recFlushCheck
  exact if_neg (fun h => absurd (hi.symm.trans h.1) (by decide))

/-- A REC_FLUSH while the intake is open notes the last number given, asks for a flush, and ends what is committed. -/
theorem startRecFlush_open (p : Pend) (hi : s.recd.intakeClosed = false) :
    startRecFlush p s = ((s.updPend p.id (fun q => { q with aux := s.recd.nextSeq - 1 })).askFlush false).completeAll (flushDone ((s.updPend p.id (fun q => { q with aux := s.recd.nextSeq - 1 })).askFlush false).recd) .ok := by
  unfold startRecFlush
  dsimp only
  rw [hi, if_neg (by decide)]
  exact recFlushCheck_open hi

end

/-! ## Streams (R378, R380, Table 13-8) -/

section
variable {s : State}

/-- A STREAM_REQ writes its own stream, and sends. -/
theorem streamReqSend_strm (s : State) (p n j : Nat) : (s.streamReqSend p n).strm j = if strIdx p false n = j then { s.strm (strIdx p false n) with start := some s.startTime, agreed := false, reqAt := s.now } else s.strm j := by
  unfold State.streamReqSend State.portSend
  dsimp only
  rw [apply_ite (fun u : State => u.strm j), State.strm_updPort, ite_self, State.strm_updStrm_at]

theorem streamReqSend_dirty (s : State) (p n : Nat) : (s.streamReqSend p n).jl.dirty = s.jl.dirty := by
  unfold State.streamReqSend State.portSend
  exact ite_both (fun u : State => u.jl.dirty = s.jl.dirty) rfl rfl

/-- The report of a stream's change is due. -/
def reportDue (s : State) : State := { s with jl := { s.jl with dirty := true } }

/-- A receive stream as it is opened. -/
def listening (rate txch : Byte) (bw : Half) (txfreq : Word) (pdly : Half) (x : Strm) : Strm :=
  { Strm.reset with st := .listen, rate := rate.toNat, txch := txch.toNat, bw := bw.toNat, txfreq := txfreq.toInt, pdly := pdly, sat := x.sat, err := x.err }

/-- A send stream as it is opened, in its column and phase. -/
def requested (rate : Byte) (col phase id : Nat) (x : Strm) : Strm :=
  { Strm.reset with st := .pending, rate := rate.toNat, col := col, phase := phase, id := some id, sat := x.sat, err := x.err }

/-- A stream that a close waits for: the first one asked stands. -/
def closingFor (id : Nat) (x : Strm) : Strm := { x with closing := some (x.closing.getD id) }

variable {p : Pend} {port stream dir rate txch : Byte} {bw : Half} {txfreq : Word} {pdly : Half}

theorem startStreamOpen_kept : Kept { complPart with jl := true } s (startStreamOpen p port stream dir rate txch bw txfreq pdly s) := Kept.startStreamOpen (Kept.refl _ s) rfl

/-- A receive stream listens at once, and its descriptor ends. -/
theorem startStreamOpen_receive : startStreamOpen p port stream 1 rate txch bw txfreq pdly s =
    ((reportDue s).updStrm (strIdx port.toNat true stream.toNat) (listening rate txch bw txfreq pdly)).complete p .ok 0 0 := rfl

theorem startStreamOpen_receive_jl : (startStreamOpen p port stream 1 rate txch bw txfreq pdly s).jl = ((reportDue s).updStrm (strIdx port.toNat true stream.toNat) (listening rate txch bw txfreq pdly)).jl := by
  rw [startStreamOpen_receive]
  exact (kept_complete _ _ _ _ _).jl rfl

theorem startStreamOpen_receive_strm (j : Nat) : (startStreamOpen p port stream 1 rate txch bw txfreq pdly s).strm j =
    if strIdx port.toNat true stream.toNat = j then listening rate txch bw txfreq pdly (s.strm (strIdx port.toNat true stream.toNat)) else s.strm j := by
  rw [strm_of startStreamOpen_receive_jl, State.strm_updStrm_at]
  rfl

section
variable {c f : Nat} (hd : dir ≠ 1) (hf : s.strFit port.toNat false stream.toNat rate.toNat = some (c, f))
include hd hf

/-- A send stream takes its column and sends its STREAM_REQ. -/
theorem startStreamOpen_send : startStreamOpen p port stream dir rate txch bw txfreq pdly s =
    ((reportDue s).updStrm (strIdx port.toNat false stream.toNat) (requested rate c f p.id)).streamReqSend port.toNat stream.toNat := by
  unfold startStreamOpen
  dsimp only
  rw [decide_eq_false hd, if_neg (by decide), hf]
  rfl

theorem startStreamOpen_send_dirty : (startStreamOpen p port stream dir rate txch bw txfreq pdly s).jl.dirty = true := by
  rw [startStreamOpen_send hd hf, streamReqSend_dirty]
  rfl

theorem startStreamOpen_send_own : (startStreamOpen p port stream dir rate txch bw txfreq pdly s).strm (strIdx port.toNat false stream.toNat) =
    { requested rate c f p.id (s.strm (strIdx port.toNat false stream.toNat)) with start := some s.startTime, agreed := false, reqAt := s.now } := by
  rw [startStreamOpen_send hd hf, streamReqSend_strm, if_pos rfl, State.strm_updStrm]
  rfl

theorem startStreamOpen_send_other {j : Nat} (hj : j ≠ strIdx port.toNat false stream.toNat) : (startStreamOpen p port stream dir rate txch bw txfreq pdly s).strm j = s.strm j := by
  rw [startStreamOpen_send hd hf, streamReqSend_strm, if_neg (Ne.symm hj), State.strm_updStrm_ne _ _ _ _ (Ne.symm hj)]
  rfl

end

theorem startStreamClose_closed (h : (s.strm (strIdx port.toNat (stream.getLsbD 7) (stream.toNat % 16))).st = .closed) : startStreamClose p port stream s = s.complete p .ok 0 0 := by
  unfold startStreamClose
  exact if_pos h

theorem startStreamClose_waits (h : (s.strm (strIdx port.toNat (stream.getLsbD 7) (stream.toNat % 16))).st ≠ .closed) :
    startStreamClose p port stream s = s.updStrm (strIdx port.toNat (stream.getLsbD 7) (stream.toNat % 16)) (closingFor p.id) := by
  unfold startStreamClose
  dsimp only
  rw [if_neg h]
  refine congrArg _ (funext fun x => ?_)
  unfold closingFor
  cases x.closing <;> rfl

end

/-! ## Captures (R283) -/

theorem captNext_busy {s : State} (h : s.hif.captRun ≠ none) : s.captNext = s := by
  obtain ⟨r, hr⟩ := Option.ne_none_iff_exists'.mp h
  unfold State.captNext
  rw [hr]

theorem captNext_starts {s : State} {p : Pend} (h : s.hif.captRun = none) (hp : (s.pends isCapture).head? = some p) :
    s.captNext = { s with hif := { s.hif with captRun := some { id := p.id, triggered := false, since := s.now }, captDone := false, captValid := false } } := by
  unfold State.captNext
  rw [h, hp]

/-! ## Releases, starts and stops -/

section
variable {s : State} {p : Pend} {i : Nat} {e t : Byte}

theorem startWinterRelease_idle (h : s.inWinter i = false) : startWinterRelease p i s = s.complete p .ok (s.pwCause i) 0 := by
  unfold startWinterRelease
  rw [h]
  rfl

theorem startWinterRelease_first (h : s.inWinter i = true) (hr : (s.wobj i).release = none) :
    startWinterRelease p i s = s.updObj i (fun o => { o with release := some { id := p.id, since := s.now, passed := false } }) := by
  unfold startWinterRelease
  rw [h, if_neg (by decide), if_pos hr]

theorem startWinterRelease_joined (h : s.inWinter i = true) (hr : (s.wobj i).release ≠ none) : startWinterRelease p i s = s := by
  unfold startWinterRelease
  rw [h, if_neg (by decide), if_neg hr]

theorem startTaskStart_task (en sv : Byte) (pe ph : Word) (nb : Byte) (ws : List Word) : (startTaskStart p e t en sv pe ph nb ws s).task (taskKey e.toNat t.toNat) =
    Task.started false en.toNat sv.toNat pe.toNat ph.toNat (ws.take 16) ((ws.drop 16).take nb.toNat) s.now (some p.id) := State.task_updTask _ _ _

theorem startTaskStop_stopped (h : (s.task (taskKey e.toNat t.toNat)).st = .stopped) : startTaskStop p e t s = s.complete p .ok 0 0 := by
  unfold startTaskStop
  rw [h]

theorem startTaskStop_running (h : (s.task (taskKey e.toNat t.toNat)).st = .running) : startTaskStop p e t s = s := by
  unfold startTaskStop
  rw [h]

theorem startTaskStop_now (hs : (s.task (taskKey e.toNat t.toNat)).st ≠ .stopped) (hr : (s.task (taskKey e.toNat t.toNat)).st ≠ .running) :
    startTaskStop p e t s = (s.stopTask e.toNat t.toNat).complete p .ok 0 0 := by
  unfold startTaskStop
  split
  · exact absurd ‹_› hs
  · exact absurd ‹_› hr
  · rfl

end

/-! ## State checks -/

section
variable {s : State} {h : DHdr}

/-- A note is accepted while the intake is open only. -/
theorem recNote_open {n : Half} {ws : List Word} (t : s.takes h (.recNote n ws)) : s.recd.intakeClosed = false := by
  have state : (if 1024 ≤ s.recd.buf.length ∨ s.recd.intakeClosed then refState else none) = none := t.state
  cases hc : s.recd.intakeClosed with
  | false => rfl
  | true =>
    rw [hc, if_pos (Or.inr rfl)] at state
    exact absurd state (by decide)

/-- A stream is opened where a column fits it only. -/
theorem streamOpen_fits {pt st dr rt tc : Byte} {bw : Half} {tf : Word} {pd : Half} (t : s.takes h (.jlStreamOpen pt st dr rt tc bw tf pd)) : (s.strFit pt.toNat (decide (dr = 1)) st.toNat rt.toNat).isSome = true := by
  have state : (chkStreamOpen pt st dr rt tc bw tf pd s).state = none := t.state
  unfold chkStreamOpen at state
  dsimp only at state
  cases hf : s.strFit pt.toNat (decide (dr = 1)) st.toNat rt.toNat with
  | some x => rfl
  | none =>
    rw [hf] at state
    split at state
    · exact absurd state (by decide)
    · rw [if_pos Option.isNone_none] at state
      exact absurd state (by decide)

end

/-! ## At the acceptance -/

section
variable {s : State} {h : DHdr} {d : Desc}

/-- The first of its kind is the head of its kind. -/
theorem accepted_head (f : Pend → Bool) (hf : f (s.mkPend h d) = true) (hn : s.pends f = []) : ((s.accepted h d).pends f).head? = some (s.mkPend h d) := by
  rw [accepted_pends, hn, List.filter_cons_of_pos hf]
  rfl

/-- A REC_FLUSH that has records to wait for stays outstanding with the last number given, and its flush is wanted (R356). -/
theorem startRecFlush_waits (hi : s.recd.intakeClosed = false) (hc : s.recd.committedTo (s.recd.nextSeq - 1) = false) :
    (startRecFlush (s.mkPend h .recFlush) (s.accepted h .recFlush)).recd.want = true ∧ (startRecFlush (s.mkPend h .recFlush) (s.accepted h .recFlush)).recd.store = s.recd.store ∧
    ∃ q ∈ (startRecFlush (s.mkPend h .recFlush) (s.accepted h .recFlush)).hif.outstanding, q.id = s.hif.nextId ∧ q.aux = s.recd.nextSeq - 1 := by
  rw [startRecFlush_open (s.mkPend h .recFlush) (s := s.accepted h .recFlush) hi]
  refine ⟨flushWanted_completeAll _ _ rfl, (State.alarmed_store (State.alarmed_completeAll (State.alarmed_refl _))).trans rfl, { s.mkPend h .recFlush with aux := s.recd.nextSeq - 1 }, ?_, rfl, rfl⟩
  have own : s.mkPend h .recFlush ∈ (s.accepted h .recFlush).hif.outstanding := List.mem_append_right _ List.mem_cons_self
  rw [completeAll_outstanding]
  refine ⟨List.mem_map.mpr ⟨_, own, if_pos rfl⟩, fun r hr done e => ?_⟩
  obtain ⟨q, hq, rfl⟩ := updPend_at _ _ _ r hr e.symm
  have waits : s.recd.committedTo (s.recd.nextSeq - 1) = true := by
    have := (Bool.and_eq_true_iff.mp done).2
    rcases Bool.or_eq_true_iff.mp this with closed | committed
    · exact absurd (hi.symm.trans closed) (by decide)
    · exact committed
  exact absurd (hc.symm.trans waits) (by decide)

end

/-- Settles O38: each row is the start of its descriptor on the state at its acceptance; what the start does stands in the lemmas above, a family of descriptors at a time. -/
theorem serviceDescriptors : Obligations.ServiceDescriptors := by
  unfold Obligations.ServiceDescriptors
  refine ⟨?_, ?_, ?_, ?_, ?_, ?_, ?_, ?_, ?_, ?_, ?_, ?_, ?_⟩
  · rintro s h pm ob v _ rfl t
    have small := paramTargets_lt t
    refine ⟨(s.accepted h _).each (paramTargets pm ob) (fun j a => a.setParam pm.toNat j v.toInt), takes_exec (i := .protConfig h pm ob v) t rfl nofun, setParams_frame _ _ _, fun j hj => ?_, fun p j _ hj hn => ?_⟩
    · have mem := (mem_paramTargets pm ob j).mpr hj
      rw [setParams_param _ _ small (small j mem), if_pos ⟨rfl, mem⟩]
    · rw [setParams_param _ _ small hj, if_neg]
      · rfl
      · rintro ⟨rfl, mem⟩
        obtain ⟨ne, nf⟩ := hn.resolve_left (fun e => e rfl)
        rcases (mem_paramTargets pm ob j).mp mem with ⟨_, e⟩ | ⟨e, _⟩
        · exact ne e
        · exact nf e
  · rintro s h e w0 w1 w2 w3 w4 _ rfl t
    have own := fun i hi => entryPut_own (e := e.toNat) (w0 := w0) (w1 := w1) (w2 := w2) (w3 := w3) (w4 := w4) s.prot.auth (i := i) hi
    exact ⟨_, takes_exec (i := .authorisationWrite h e w0 w1 w2 w3 w4) t rfl nofun, rfl, own 0 (by decide), own 1 (by decide), own 2 (by decide), own 3 (by decide), own 4 (by decide),
      fun x k hx hk => entryPut_other s.prot.auth (by omega)⟩
  · rintro s h sc ix rs _ i rfl t rfl
    exact ⟨_, takes_exec (i := .winterEnter h sc ix rs) t rfl nofun, State.alarmed_winterSet (State.alarmed_refl _), State.winterSet_cause _ _ _ _ (by decide), winterSet_uncleared _ _ _ _,
      fun j c hj => (Calm.winterSet (Calm.refl noTol _)).cause rfl j c hj, fun hc => winterSet_new (s.accepted h _) _ _ _ hc⟩
  · rintro s h sc ix ov _ i rfl t rfl
    have row := takes_exec (i := .winterRelease h sc ix ov) t rfl nofun
    refine ⟨fun hw => ?_, fun hw hr => ?_, fun hw hr => ?_⟩
    · rw [row]
      exact congrArg _ (startWinterRelease_idle hw)
    · exact ⟨_, row.trans (congrArg _ (startWinterRelease_first hw hr)), State.updObj_only _ _ _, State.wobj_updObj _ _ _⟩
    · rw [row]
      exact congrArg _ (startWinterRelease_joined hw hr)
  · rintro s h f c len addr data _ rfl t
    have row := takes_exec (i := .leImageLoad h f c len addr data) t rfl nofun
    refine ⟨fun hf => ?_, ?_⟩
    · rw [row]
      exact congrArg _ (if_neg (fun e => hf (BitVec.eq_of_toNat_eq e)))
    · rintro rfl
      have kept := Kept.libStop (p := { hif := true, intc := true, recd := true, le := true }) (Kept.refl _ (s.accepted h (.leImageLoad 4 c len addr data))) rfl
      exact ⟨_, row, rfl, fun e k he he' hk => libStop_stops _ he he' hk, kept.rfe rfl, kept.slots rfl, kept.cx rfl, kept.prot rfl⟩
  · rintro s h e t en sv pe ph nb pm ws _ k rfl tk rfl
    refine ⟨_, takes_exec (i := .leTaskStart h e t en sv pe ph nb pm (.words ws)) tk rfl nofun, State.updTask_only _ _ _, ?_⟩
    have own := startTaskStart_task (p := s.mkPend h (.leTaskStart e t en sv pe ph nb pm (.words ws))) (s := s.accepted h (.leTaskStart e t en sv pe ph nb pm (.words ws))) (e := e) (t := t) en sv pe ph nb ws
    exact ⟨congrArg Task.st own, congrArg Task.prot own, congrArg Task.entry own, congrArg Task.sev own, congrArg Task.period own, congrArg Task.phase own, congrArg Task.args own, congrArg Task.objs own, congrArg Task.startId own⟩
  · rintro s h e t _ k rfl tk rfl
    have row := takes_exec (i := .leTaskStop h e t) tk rfl nofun
    refine ⟨fun hs => ?_, fun hs => ?_, fun hs hr => ?_⟩
    · rw [row]
      exact congrArg _ (startTaskStop_stopped hs)
    · rw [row]
      exact congrArg _ (startTaskStop_running hs)
    · refine ⟨_, row.trans (congrArg _ (startTaskStop_now hs hr)), ?_, fun j hj => ?_, complete_gone _ _ _ _ _⟩
      · rw [task_of (congrArg Le.tasks ((kept_complete _ _ _ _ _).le rfl))]
        exact stopTask_stops _ _ _
      · rw [task_of (congrArg Le.tasks ((kept_complete _ _ _ _ _).le rfl)), stopTask_task, if_neg (Ne.symm hj)]
        rfl
  · rintro s h pt ix tr sh ln pr tm ad _ rfl t
    have row := takes_exec (i := .capture h pt ix tr sh ln pr tm ad) t rfl nofun
    refine ⟨fun hb => ?_, fun hf hn => ?_⟩
    · rw [row]
      exact congrArg _ (captNext_busy (s := s.accepted h _) hb)
    · exact ⟨_, row.trans (congrArg _ (captNext_starts (s := s.accepted h _) hf (accepted_head isCapture rfl hn))), rfl⟩
  · rintro s h sb rg kd ix mk pe _ rfl t
    exact ⟨_, takes_exec (i := .telemetrySubscribe h sb rg kd ix mk pe) t rfl nofun, rfl, fun m hm => Tab.get_set_ne _ _ _ _ _ _ (Ne.symm hm), Tab.get_set_self _ _ _ _⟩
  · rintro s h n ws _ rfl t hm hb
    have room : s.recd.buf.length < 1024 := by omega
    have closed : s.recd.intakeClosed = false := recNote_open t
    refine ⟨_, (takes_exec (i := .recNote h n ws) t rfl nofun), State.alarmed_record (State.alarmed_refl _), ?_⟩
    rw [State.record_room _ _ _ _ _ _ (show (s.accepted h (.recNote n ws)).recd.buf.length < 1024 from room)]
    exact recordQ_written (s := s.accepted h (.recNote n ws)) _ _ _ _ hm closed room
  · rintro s h _ rfl t hi hc _
    obtain ⟨want, store, own⟩ := startRecFlush_waits (h := h) hi hc
    have kept := Kept.startRecFlush (p := complPart) (x1 := s.mkPend h .recFlush) (Kept.refl _ (s.accepted h .recFlush)) rfl
    exact ⟨_, takes_exec (i := .recFlush h) t rfl nofun, want, store, own, kept.rfe rfl, kept.prot rfl⟩
  · rintro s h pt st dr rt tc bw tf pd _ k rfl t rfl
    have row := takes_exec (i := .jlStreamOpen h pt st dr rt tc bw tf pd) t rfl nofun
    have kept : Kept { complPart with jl := true } (s.accepted h (.jlStreamOpen pt st dr rt tc bw tf pd)) (startOf (s.mkPend h (.jlStreamOpen pt st dr rt tc bw tf pd)) (s.accepted h (.jlStreamOpen pt st dr rt tc bw tf pd))) := startStreamOpen_kept
    have fit := streamOpen_fits t
    by_cases hd : dr = 1
    · subst hd
      refine ⟨_, row, (congrArg Jl.dirty startStreamOpen_receive_jl).trans rfl, fun j hj => ?_, kept.rfe rfl, kept.slots rfl, kept.prot rfl, fun _ => ⟨?_, complete_gone _ (s.mkPend h _) _ _ _⟩, fun e => absurd e (by decide)⟩
      · exact (startStreamOpen_receive_strm j).trans (if_neg (Ne.symm hj))
      · exact (startStreamOpen_receive_strm _).trans (if_pos rfl)
    · rw [decide_eq_false hd] at fit ⊢
      obtain ⟨⟨c, f⟩, fits⟩ := Option.isSome_iff_exists.mp fit
      refine ⟨_, row, startStreamOpen_send_dirty hd fits, fun j hj => startStreamOpen_send_other (s := s.accepted h _) hd fits hj, kept.rfe rfl, kept.slots rfl, kept.prot rfl, fun e => absurd e hd, fun _ => ⟨c, f, fits, ?_⟩⟩
      have own := startStreamOpen_send_own (p := s.mkPend h (.jlStreamOpen pt st dr rt tc bw tf pd)) (s := s.accepted h (.jlStreamOpen pt st dr rt tc bw tf pd)) (txch := tc) (bw := bw) (txfreq := tf) (pdly := pd) hd fits
      exact ⟨congrArg Strm.st own, congrArg Strm.rate own, congrArg Strm.col own, congrArg Strm.phase own, congrArg Strm.id own, congrArg Strm.agreed own, congrArg Strm.reqAt own, congrArg Strm.start own⟩
  · rintro s h pt st _ k rfl t rfl
    have row := takes_exec (i := .jlStreamClose h pt st) t rfl nofun
    refine ⟨fun hc => ?_, fun hc => ?_⟩
    · rw [row]
      exact congrArg _ (startStreamClose_closed hc)
    · exact ⟨_, row.trans (congrArg _ (startStreamClose_waits hc)), State.updStrm_only _ _ _, State.strm_updStrm _ _ _⟩

end Sys2Proof.Proofs
end

section
/-! SUPPORT. Missed deadlines, slack, AUTUMN and the core supply request (R211, R213 to R217). -/

namespace Sys2Proof.Proofs

open Sys2Proof.Machine Sys2Proof.Laws

/-! ## Alarms beside the timing block -/

/-- From a to t at most the timing block and what an alarm may change has changed. -/
def AlarmedTim (a t : State) : Prop := ({ a with tim := t.tim } : State).alarmed t

section
variable {a s : State}

theorem AlarmedTim.refl (a : State) : AlarmedTim a a := rfl

theorem AlarmedTim.set (h : AlarmedTim a s) (x : Tim) : AlarmedTim a { s with tim := x } := by
  unfold AlarmedTim State.alarmed at h ⊢
  rw [h]

theorem AlarmedTim.of {t : State} (h : AlarmedTim a s) (k : s.alarmed t) : AlarmedTim a t := by
  unfold AlarmedTim at h ⊢
  rw [State.alarmed_tim k]
  exact State.alarmed_trans h k

theorem AlarmedTim.updTile (h : AlarmedTim a s) (k : Nat) (f : TileT → TileT) : AlarmedTim a (s.updTile k f) := h.set _

theorem AlarmedTim.raise (h : AlarmedTim a s) (b n : Nat) (f : FScope) : AlarmedTim a (s.raise b n f) := h.of (State.alarmed_raise (State.alarmed_refl _))

end

theorem tileT_of {a b : State} (h : b.tim = a.tim) (j : Nat) : b.tileT j = a.tileT j := by unfold State.tileT; rw [h]

theorem raise_tim (s : State) (b n : Nat) (f : FScope) : (s.raise b n f).tim = s.tim := State.alarmed_tim (State.alarmed_raise (State.alarmed_refl s))

/-! ## A source that is raised where a threshold is crossed -/

/-- The source is raised where the condition holds. -/
def raiseIf (c : Prop) [Decidable c] (b n : Nat) (f : FScope) (s : State) : State := if c then s.raise b n f else s

section
variable (c : Prop) [Decidable c] (b n : Nat) (f : FScope) (s : State)

theorem raiseIf_alarmed : s.alarmed (raiseIf c b n f s) := State.alarmed_ite (State.alarmed_raise (State.alarmed_refl s)) (State.alarmed_refl s)

theorem raiseIf_tim : (raiseIf c b n f s).tim = s.tim := State.alarmed_tim (raiseIf_alarmed c b n f s)

theorem raiseIf_calm : Calm noTol s (raiseIf c b n f s) := Calm.ite (fun _ => Calm.raise (Calm.refl _ s)) (fun _ => Calm.refl _ s)

/-- A source that is set stays set. -/
theorem raiseIf_keeps {k : Nat} (h : (s.fsrc k).status = true) : ((raiseIf c b n f s).fsrc k).status = true := (raiseIf_calm c b n f s).stat rfl k h

variable {c}

theorem raiseIf_pos (h : c) : raiseIf c b n f s = s.raise b n f := if_pos h

theorem raiseIf_neg (h : ¬ c) : raiseIf c b n f s = s := if_neg h

theorem raiseIf_status (h : c) : ((raiseIf c b n f s).fsrc (16 * b + n)).status = true := by
  rw [raiseIf_pos b n f s h]
  exact State.raise_status s b n f

end

/-! ## DEADLINE_MISS (R211) -/

/-- A tile whose up-converter takes one more zeroed block. -/
def zeroBlock (x : TileT) : TileT := { x with zbCnt := satInc 0xFFFF x.zbCnt }

/-- A tile whose datapath has missed: a slack of 0. -/
def noSlack (x : TileT) : TileT := { x with slackDp := 0, slackAll := 0, goodAt := none, dpGoodAt := none }

theorem noSlack_zbCnt (x : TileT) : (noSlack x).zbCnt = x.zbCnt := rfl

theorem zeroBlock_slackDp (x : TileT) : (zeroBlock x).slackDp = x.slackDp := rfl

/-- DEADLINE of the missed level is raised after the zeroed block. -/
def missRaised (s : State) (l : MissLevel) : State := (s.updTile (s.missOf l).1 zeroBlock).raise (s.missOf l).2.2.1 (s.missOf l).2.2.2.1 (s.missOf l).2.2.2.2

/-- The miss stands as a slack of 0. -/
def missJudged (s : State) (l : MissLevel) : State := (missRaised s l).updTile (s.missOf l).2.1 noSlack

theorem missRaised_tileT (s : State) (l : MissLevel) (j : Nat) : (missRaised s l).tileT j = if (s.missOf l).1 = j then zeroBlock (s.tileT (s.missOf l).1) else s.tileT j :=
  (tileT_of (raise_tim _ _ _ _) j).trans (State.tileT_updTile_at s _ j zeroBlock)

theorem missRaised_slackDp (s : State) (l : MissLevel) (j : Nat) : ((missRaised s l).tileT j).slackDp = (s.tileT j).slackDp := by
  rw [missRaised_tileT]
  split
  · subst j
    exact zeroBlock_slackDp _
  · rfl

theorem deadlineMiss_eq (s : State) (l : MissLevel) :
    s.deadlineMiss l = raiseIf (2 ≤ (s.tileT (s.missOf l).2.1).slackDp) 5 2 (.tile (s.missOf l).2.1) (missJudged s l) := by
  rw [← missRaised_slackDp s l (s.missOf l).2.1]
  rfl

theorem deadlineMiss_tileT (s : State) (l : MissLevel) (j : Nat) : (s.deadlineMiss l).tileT j = (missJudged s l).tileT j := by
  rw [deadlineMiss_eq]
  exact tileT_of (raiseIf_tim _ _ _ _ _) j

theorem missJudged_datapath (s : State) (l : MissLevel) : (missJudged s l).tileT (s.missOf l).2.1 = noSlack ((missRaised s l).tileT (s.missOf l).2.1) := State.tileT_updTile _ _ _

theorem missJudged_other (s : State) (l : MissLevel) (j : Nat) (h : j ≠ (s.missOf l).2.1) : (missJudged s l).tileT j = (missRaised s l).tileT j := State.tileT_updTile_ne _ _ _ _ (Ne.symm h)

/-- The slack of 0 leaves the count of zeroed blocks alone. -/
theorem missJudged_zbCnt (s : State) (l : MissLevel) (j : Nat) : ((missJudged s l).tileT j).zbCnt = ((missRaised s l).tileT j).zbCnt := by
  by_cases h : j = (s.missOf l).2.1
  · subst h
    rw [missJudged_datapath, noSlack_zbCnt]
  · rw [missJudged_other s l j h]

theorem missJudged_status (s : State) (l : MissLevel) : ((missJudged s l).fsrc (16 * (s.missOf l).2.2.1 + (s.missOf l).2.2.2.1)).status = true := by
  unfold missJudged
  rw [State.fsrc_updTile]
  exact State.raise_status _ _ _ _

theorem deadlineMiss_alarmed (s : State) (l : MissLevel) : AlarmedTim s (s.deadlineMiss l) := by
  rw [deadlineMiss_eq]
  exact ((((AlarmedTim.refl s).updTile _ _).raise _ _ _).updTile _ _).of (raiseIf_alarmed _ _ _ _ _)

/-! ## SLACK_CHECK (R213 to R215) -/

/-- The least slack that a block's reports leave of a tile's sensors. -/
def allOf (s : State) (k : Nat) (r : List (Fin 64 × Fin 101 × Bool)) : Nat := leastOr (s.tileT k).slackAll (r.map (fun e => e.2.1.val))

/-- The least slack that a block's reports leave of a tile's datapath sensors. -/
def dpOf (s : State) (k : Nat) (r : List (Fin 64 × Fin 101 × Bool)) : Nat := leastOr (s.tileT k).slackDp ((r.filter (fun e => decide (e.1.val < 56))).map (fun e => e.2.1.val))

/-- Since when a slack has been good: the present block where it becomes so. -/
def goodSince (now : Nat) (ok : Bool) (o : Option Nat) : Option Nat := if !ok then none else match o with | some t => some t | none => some now

/-- A tile in no AUTUMN stage enters the first below 8 percent (R215). -/
abbrev entersAutumn (x : TileT) (all : Nat) : Prop := x.stage = 0 ∧ all < 8

/-- A tile as the block's least slacks leave it. -/
def judged (now all dp : Nat) (enter : Bool) (x : TileT) : TileT :=
  { x with
    slackAll := all, slackDp := dp, goodAt := goodSince now (decide (12 ≤ all)) x.goodAt, dpGoodAt := goodSince now (decide (8 ≤ dp)) x.dpGoodAt
    stage := if enter then 1 else x.stage, stageAt := if enter then now else x.stageAt, autCnt := if enter then satInc 0xFFFF x.autCnt else x.autCnt }

/-- The reports stand in the sensors' registers. -/
def reported (s : State) (k : Nat) (r : List (Fin 64 × Fin 101 × Bool)) : Tab Slack :=
  r.foldl (fun t e => Tab.upd t Slack.reset (64 * k + e.1.val) (fun y => y.report e.2.1.val (e.2.2 && decide (e.1.val < 56)))) s.tim.slack

/-- The sensors and the core supply's view of the slack after a block. -/
def slackNoted (s : State) (k : Nat) (r : List (Fin 64 × Fin 101 × Bool)) : State :=
  { s with tim := { s.tim with slack := reported s k r, vidLow := s.tim.vidLow || decide (allOf s k r < 20), vidHigh := s.tim.vidHigh && decide (40 ≤ allOf s k r) } }

/-- The state in which the thresholds' sources are raised. -/
def slackJudged (s : State) (k : Nat) (r : List (Fin 64 × Fin 101 × Bool)) : State :=
  (slackNoted s k r).updTile k (judged s.now (allOf s k r) (dpOf s k r) (decide (entersAutumn (s.tileT k) (allOf s k r))))

/-- SLACK_WARN where the slack falls below 20. -/
def slackWarned (s : State) (k : Nat) (r : List (Fin 64 × Fin 101 × Bool)) : State :=
  raiseIf (allOf s k r < 20 ∧ 20 ≤ (s.tileT k).slackAll) 5 0 .device (slackJudged s k r)

/-- The source AUTUMN where the tile enters it. -/
def autumnRaised (s : State) (k : Nat) (r : List (Fin 64 × Fin 101 × Bool)) : State :=
  raiseIf (decide (entersAutumn (s.tileT k) (allOf s k r)) = true) 5 1 .device (slackWarned s k r)

section
variable (s : State) (k : Nat) (r : List (Fin 64 × Fin 101 × Bool))

theorem slackCheck_offGrid (h : s.onSmp chainBlk = false) : s.slackCheck k r = s := if_pos (by rw [h]; rfl)

theorem slackCheck_onGrid (h : s.onSmp chainBlk = true) : s.slackCheck k r = raiseIf (dpOf s k r < 2 ∧ 2 ≤ (s.tileT k).slackDp) 5 2 (.tile k) (autumnRaised s k r) := if_neg (by rw [h]; decide)

theorem slackWarned_tim : (slackWarned s k r).tim = (slackJudged s k r).tim := raiseIf_tim _ _ _ _ _

theorem autumnRaised_tim : (autumnRaised s k r).tim = (slackJudged s k r).tim := (raiseIf_tim _ _ _ _ _).trans (slackWarned_tim s k r)

theorem autumnRaised_alarmed : AlarmedTim s (autumnRaised s k r) :=
  ((((AlarmedTim.refl s).set _).updTile _ _).of (raiseIf_alarmed _ _ _ _ _)).of (raiseIf_alarmed _ _ _ _ _)

theorem slackJudged_own : (slackJudged s k r).tileT k = judged s.now (allOf s k r) (dpOf s k r) (decide (entersAutumn (s.tileT k) (allOf s k r))) (s.tileT k) := State.tileT_updTile _ _ _

theorem slackJudged_other (j : Nat) (h : j ≠ k) : (slackJudged s k r).tileT j = s.tileT j := State.tileT_updTile_ne _ _ _ _ (Ne.symm h)

theorem slackJudged_stage : ((slackJudged s k r).tileT k).stage = if (s.tileT k).stage = 0 ∧ allOf s k r < 8 then 1 else (s.tileT k).stage := by
  rw [slackJudged_own]
  unfold judged
  simp only [decide_eq_true_eq]

theorem slackJudged_vidLow (h : allOf s k r < 20) : (slackJudged s k r).tim.vidLow = true := by
  change (s.tim.vidLow || decide (allOf s k r < 20)) = true
  rw [decide_eq_true h, Bool.or_true]

theorem slackJudged_vidHigh (h : allOf s k r < 40) : (slackJudged s k r).tim.vidHigh = false := by
  change (s.tim.vidHigh && decide (40 ≤ allOf s k r)) = false
  rw [decide_eq_false (by omega), Bool.and_false]

theorem autumnRaised_warns (h : allOf s k r < 20) (h' : 20 ≤ (s.tileT k).slackAll) : ((autumnRaised s k r).fsrc (16 * 5)).status = true :=
  raiseIf_keeps _ _ _ _ _ (raiseIf_status 5 0 _ _ ⟨h, h'⟩)

theorem autumnRaised_enters (h : allOf s k r < 8) (h' : (s.tileT k).stage = 0) : ((autumnRaised s k r).fsrc (16 * 5 + 1)).status = true :=
  raiseIf_status 5 1 _ _ (decide_eq_true ⟨h', h⟩)

end

/-! ## AUTUMN's stages and its end (R215, R216) -/

section
variable (s : State) (k : Nat)

theorem autumnAdvance_due (h : (s.tileT k).stage = 1 ∨ (s.tileT k).stage = 2) (ha : (s.tileT k).stageAt < s.now) (hm : (s.now - (s.tileT k).stageAt) % tms = 0) (hl : (s.tileT k).slackAll < 8) :
    s.autumnAdvance k = s.updTile k (fun x => { x with stage := x.stage + 1, stageAt := s.now }) := if_pos ⟨by omega, by omega, ha, hm, hl⟩

theorem autumnAdvance_idle (h : (s.tileT k).stage = 0 ∨ (s.tileT k).stage = 3 ∨ 8 ≤ (s.tileT k).slackAll) : s.autumnAdvance k = s := by
  refine if_neg ?_
  rintro ⟨h1, h3, -, -, hl⟩
  omega

theorem autumnExit_due (g : Nat) (h : 1 ≤ (s.tileT k).stage) (hg : (s.tileT k).goodAt = some g) (ht : g + 100 * tms ≤ s.now) :
    s.autumnExit k = s.updTile k (fun x => { x with stage := 0, stageAt := s.now }) := by
  unfold State.autumnExit
  dsimp only
  rw [hg]
  exact if_pos ⟨h, ht⟩

theorem autumnExit_idle (h : (s.tileT k).goodAt = none ∨ ∃ g, (s.tileT k).goodAt = some g ∧ s.now < g + 100 * tms) : s.autumnExit k = s := by
  unfold State.autumnExit
  dsimp only
  rcases h with h | ⟨g, hg, ht⟩
  · rw [h]
  · rw [hg]
    exact if_neg (fun due => absurd due.2 (by omega))

end

/-! ## The core supply request (R217) -/

/-- The code that a millisecond leaves. -/
def vidNext (x : Tim) : Nat := if x.vidMode then x.vidClamped else if x.vidLow ∧ x.vidNow < x.vidCeil then x.vidNow + 1 else min x.vidNow x.vidCeil

/-- The request has followed its rule. -/
def vidStepped (s : State) : State := { s with tim := { s.tim with vidLow := false, vidNow := vidNext s.tim } }

/-- An adaptive request that should rise stands at its ceiling. -/
abbrev atCeiling (x : Tim) : Bool := !x.vidMode && x.vidLow && decide (x.vidCeil ≤ x.vidNow)

section
variable {s : State}

/-- No event of a grid falls due off that grid or before SPRING stage 2. -/
theorem grid_idle {g : Nat} (h : s.onGrid g = false ∨ s.tst.stage ≤ 1) : (!s.onGrid g || decide (s.tst.stage ≤ 1)) = true := by
  rcases h with h | h
  · rw [h]
    rfl
  · rw [decide_eq_true h, Bool.or_true]

theorem grid_due {g : Nat} (h : s.onGrid g = true) (h' : 2 ≤ s.tst.stage) : ¬ (!s.onGrid g || decide (s.tst.stage ≤ 1)) = true := by
  rw [h, decide_eq_false (by omega)]
  decide

theorem vidRaise_due (h : s.onGrid tms = true) (h' : 2 ≤ s.tst.stage) : s.vidRaise = raiseIf (atCeiling s.tim = true) 5 6 .device (vidStepped s) := if_neg (grid_due h h')

theorem vidLower_due (h : s.onGrid tsec = true) (h' : 2 ≤ s.tst.stage) :
    s.vidLower = { s with tim := { s.tim with vidHigh := true, vidNow := if s.tim.vidMode = false ∧ s.tim.vidHigh = true ∧ s.tim.vidFloor < s.tim.vidNow then s.tim.vidNow - 1 else s.tim.vidNow } } := by
  have e : s.vidLower = { s with tim := { s.tim with vidHigh := true, vidNow := if !s.tim.vidMode && s.tim.vidHigh && decide (s.tim.vidFloor < s.tim.vidNow) then s.tim.vidNow - 1 else s.tim.vidNow } } := if_neg (grid_due h h')
  simp only [e, Bool.and_eq_true, Bool.not_eq_true', decide_eq_true_eq, and_assoc]

theorem vidRaise_idle (h : s.onGrid tms = false ∨ s.tst.stage ≤ 1) : s.vidRaise = s := if_pos (grid_idle h)

theorem vidLower_idle (h : s.onGrid tsec = false ∨ s.tst.stage ≤ 1) : s.vidLower = s := if_pos (grid_idle h)

end

section
variable {x : Tim}

theorem vidNext_fixed (h : x.vidMode = true) : vidNext x = min x.vidCeil (max x.vidFloor x.vidFixed) := if_pos h

theorem vidNext_rises (h : x.vidMode = false) (hl : x.vidLow = true) (hc : x.vidNow < x.vidCeil) : vidNext x = x.vidNow + 1 := by
  unfold vidNext
  rw [h, if_neg (by decide), if_pos ⟨hl, hc⟩]

theorem vidNext_ceiling (h : x.vidMode = false) (hc : x.vidCeil ≤ x.vidNow) : vidNext x = x.vidCeil := by
  unfold vidNext
  rw [h, if_neg (by decide), if_neg (by omega), Nat.min_eq_right hc]

theorem atCeiling_of (h : x.vidMode = false) (hl : x.vidLow = true) (hc : x.vidCeil ≤ x.vidNow) : atCeiling x = true := by
  unfold atCeiling
  rw [h, hl, decide_eq_true hc]
  rfl

theorem not_atCeiling (h : x.vidMode = true ∨ x.vidLow = false ∨ x.vidNow < x.vidCeil) : ¬ atCeiling x = true := by
  simp only [atCeiling, Bool.and_eq_true, Bool.not_eq_true', decide_eq_true_eq]
  rintro ⟨⟨hm, hl⟩, hc⟩
  rcases h with h | h | h
  · exact absurd (hm.symm.trans h) (by decide)
  · exact absurd (hl.symm.trans h) (by decide)
  · omega

end

/-! ## The rows of these events on a device out of reset -/

section
variable {s : State}

theorem exec_deadlineMiss {l : MissLevel} (hr : s.runs) : exec (.deadlineMiss l) s = .next (s.deadlineMiss l) := exec_live (f := fun x => x.deadlineMiss l) rfl hr
theorem exec_slackCheck {k : Fin 4} {r : List (Fin 64 × Fin 101 × Bool)} (hr : s.runs) : exec (.slackCheck k r) s = .next (s.slackCheck k.val r) := exec_live (f := fun x => x.slackCheck k.val r) rfl hr
theorem exec_autumnStageAdvance {k : Fin 4} (hr : s.runs) : exec (.autumnStageAdvance k) s = .next (s.autumnAdvance k.val) := exec_live (f := fun x => x.autumnAdvance k.val) rfl hr
theorem exec_autumnExit {k : Fin 4} (hr : s.runs) : exec (.autumnExit k) s = .next (s.autumnExit k.val) := exec_live (f := fun x => x.autumnExit k.val) rfl hr
theorem exec_vidRaise (hr : s.runs) : exec .vidRaise s = .next s.vidRaise := exec_live (f := fun x => x.vidRaise) rfl hr
theorem exec_vidLower (hr : s.runs) : exec .vidLower s = .next s.vidLower := exec_live (f := fun x => x.vidLower) rfl hr

end

/-- Settles O23: each event is an update of the timing block, after which only the sources of the thresholds it crosses are raised. -/
theorem deadlinesSlackAndSupply : Obligations.DeadlinesSlackAndSupply := by
  unfold Obligations.DeadlinesSlackAndSupply
  refine ⟨fun s l hr => ?miss, fun s k r hr h => ?offGrid, fun s k r hr h => ?slack, fun s k hr h ha hm hl => ?advance, fun s k hr h => ?stays, fun s k g hr h hg ht => ?exit, fun s k hr h => ?waits,
    fun s hr h h' => ?raise, fun s hr h => ?noRaise, fun s hr h h' => ?lower, fun s hr h => ?noLower⟩
  case miss =>
    have tiles := deadlineMiss_tileT s l
    refine ⟨_, exec_deadlineMiss hr, deadlineMiss_alarmed s l, ?_, ?_, ?_, ?_, fun h => ?_, fun j h1 h2 => ?_⟩
    · rw [deadlineMiss_eq]
      exact raiseIf_keeps _ _ _ _ _ (missJudged_status s l)
    · rw [tiles, missJudged_zbCnt, missRaised_tileT, if_pos rfl]
      rfl
    · rw [tiles, missJudged_datapath]
      rfl
    · rw [tiles, missJudged_datapath]
      rfl
    · rw [deadlineMiss_eq]
      exact raiseIf_status 5 2 _ _ h
    · rw [tiles, missJudged_other s l j h2, missRaised_tileT, if_neg (Ne.symm h1)]
  case offGrid => exact (exec_slackCheck hr).trans (congrArg _ (slackCheck_offGrid s k r h))
  case slack =>
    have htim := (raiseIf_tim (dpOf s k r < 2 ∧ 2 ≤ (s.tileT k).slackDp) 5 2 (.tile k) _).trans (autumnRaised_tim s k r)
    have own := (tileT_of htim k).trans (slackJudged_own s k r)
    refine ⟨_, allOf s k r, dpOf s k r, (exec_slackCheck hr).trans (congrArg _ (slackCheck_onGrid s k r h)), (autumnRaised_alarmed s k r).of (raiseIf_alarmed _ _ _ _ _), rfl, rfl,
      congrArg TileT.slackAll own, congrArg TileT.slackDp own, fun j hj => (tileT_of htim j).trans (slackJudged_other s k r j hj), ?_,
      fun h1 h2 => raiseIf_keeps _ _ _ _ _ (autumnRaised_warns s k r h1 h2), fun h1 h2 => raiseIf_keeps _ _ _ _ _ (autumnRaised_enters s k r h1 h2), fun h1 h2 => raiseIf_status 5 2 _ _ ⟨h1, h2⟩,
      fun h1 => ?_, fun h1 => ?_⟩
    · rw [tileT_of htim]
      exact slackJudged_stage s k r
    · rw [htim]
      exact slackJudged_vidLow s k r h1
    · rw [htim]
      exact slackJudged_vidHigh s k r h1
  case advance => exact ⟨_, (exec_autumnStageAdvance hr).trans (congrArg _ (autumnAdvance_due s k h ha hm hl)), State.tileT_updTile _ _ _, State.updTile_only _ _ _⟩
  case stays => exact (exec_autumnStageAdvance hr).trans (congrArg _ (autumnAdvance_idle s k h))
  case exit => exact ⟨_, (exec_autumnExit hr).trans (congrArg _ (autumnExit_due s k g h hg ht)), State.tileT_updTile _ _ _, State.updTile_only _ _ _⟩
  case waits => exact (exec_autumnExit hr).trans (congrArg _ (autumnExit_idle s k h))
  case raise =>
    have htim := raiseIf_tim (atCeiling s.tim = true) 5 6 .device (vidStepped s)
    have code := congrArg Tim.vidNow htim
    refine ⟨_, (exec_vidRaise hr).trans (congrArg _ (vidRaise_due h h')), ((AlarmedTim.refl s).set _).of (raiseIf_alarmed _ _ _ _ _), ?_, fun h1 => code.trans (vidNext_fixed h1),
      fun h1 h2 h3 => code.trans (vidNext_rises h1 h2 h3), fun h1 h2 h3 => ⟨code.trans (vidNext_ceiling h1 h3), raiseIf_status 5 6 _ _ (atCeiling_of h1 h2 h3)⟩, fun h1 => ?_⟩
    · rw [htim]
      rfl
    · rw [raiseIf_neg _ _ _ _ (not_atCeiling h1)]
      rfl
  case noRaise => exact (exec_vidRaise hr).trans (congrArg _ (vidRaise_idle h))
  case lower => exact (exec_vidLower hr).trans (congrArg _ (vidLower_due h h'))
  case noLower => exact (exec_vidLower hr).trans (congrArg _ (vidLower_idle h))

end Sys2Proof.Proofs
end

section
/-! SUPPORT. What one Uskihar instruction does to its engine (R231, R232): its effect or its trap, and the registers it writes. -/

namespace Sys2Proof.Proofs

open Sys2Proof.Machine Sys2Proof.Laws

section
variable {s : State} {e t : Nat} {u : UIns} {f : Nat → State → State}

/-- The instruction at the PC takes its effect, where it does not trap. -/
theorem ukRun_effect (h : s.ukAt e = some (t, u)) (hn : s.ukTraps e t u = none) : s.ukRun e u f = f t s := by
  unfold State.ukRun
  rw [h]
  dsimp only
  rw [if_pos rfl, hn]

theorem ukRun_trap {c : TrapCause} (h : s.ukAt e = some (t, u)) (hc : s.ukTraps e t u = some c) : s.ukRun e u f = s.ukTrap e t u c := by
  unfold State.ukRun
  rw [h]
  dsimp only
  rw [if_pos rfl, hc]

/-- An instruction other than PRDC that traps does so and nothing else. -/
theorem exec_traps {i : Instr} {c : TrapCause} (he : exec i s = s.live (fun x => x.ukRun e u f)) (hr : s.runs) (h : s.ukAt e = some (t, u)) (hc : s.ukTraps e t u = some c)
    (hu : s.ukTrap e t u c = s.takeTrap e t c) : exec i s = .next (s.takeTrap e t c) :=
  (exec_live he hr).trans (congrArg _ ((ukRun_trap h hc).trans hu))

theorem onlyEng_updEng {a : State} {g : Eng → Eng} (h : s.onlyEng a e) : s.onlyEng (a.updEng e g) e := by
  obtain ⟨hs, hj⟩ := h
  refine ⟨?_, fun j hne => (State.eng_updEng_ne _ _ _ _ (Ne.symm hne)).trans (hj j hne)⟩
  conv => lhs; rw [hs]
  rfl

end

/-! ## General registers (R231) -/

/-- The general registers after a write of one: G0 takes none. -/
def gWritten (r : Reg) (w : Word) (g : Tab Word) : Tab Word := if r.val = 0 then g else g.set 0 r.val w

section
variable (s : State) (e : Nat) (r : Reg) (w : Word)

theorem eSetReg_eng : (s.eSetReg e r w).eng e = { s.eng e with g := gWritten r w (s.eng e).g } := by
  unfold State.eSetReg gWritten
  split
  · rfl
  · exact State.eng_updEng _ _ _

theorem eSetReg_only : s.onlyEng (s.eSetReg e r w) e := by
  unfold State.eSetReg
  split
  · exact ⟨rfl, fun _ _ => rfl⟩
  · exact State.updEng_only _ _ _

/-- What an engine with a written register reads: G0 as 0, that register as written, the others as before. -/
theorem eReg_written {a : State} (h : (a.eng e).g = gWritten r w (s.eng e).g) (x : Reg) : a.eReg e x = if x = r ∧ r.val ≠ 0 then w else s.eReg e x := by
  unfold State.eReg
  rw [h]
  unfold gWritten
  by_cases hr : r.val = 0
  · rw [if_pos hr, if_neg (c := x = r ∧ r.val ≠ 0) (fun h => h.2 hr)]
  · rw [if_neg hr, Tab.get_set]
    by_cases hx : x = r
    · subst hx
      rw [if_neg hr, if_pos rfl, if_pos ⟨rfl, hr⟩]
    · rw [if_neg (c := r.val = x.val) (fun h => hx (Fin.ext h.symm)), if_neg (c := x = r ∧ r.val ≠ 0) (fun h => hx h.1)]

/-- A register write with the move to another word: the engine's registers, PC and time. -/
theorem eSetReg_ukNext_eng (pc n : Nat) : ((s.eSetReg e r w).ukNext e pc n).eng e = { s.eng e with g := gWritten r w (s.eng e).g, pc := pc, ran := (s.eng e).ran + n } := by
  unfold State.ukNext
  rw [State.eng_updEng, eSetReg_eng]

theorem eSetReg_ukNext_wroteG (n : Nat) : s.WroteG e r w n ((s.eSetReg e r w).ukNext e (s.pcNext e) n) := by
  have own := eSetReg_ukNext_eng s e r w (s.pcNext e) n
  refine ⟨onlyEng_updEng (eSetReg_only s e r w), ?_, eReg_written s e r w (by rw [own])⟩
  rw [own]
  rfl

end

/-- A register instruction that does not trap writes its result, moves to the next word and takes its times. -/
theorem exec_wroteG {s : State} {e t n : Nat} {u : UIns} {i : Instr} {gd : Reg} {val : State → Word} {w : Word} (he : exec i s = s.live (fun x => x.ukReg e u gd val)) (hr : s.runs)
    (h : s.ukAt e = some (t, u)) (hn : s.ukTraps e t u = none) (hc : u.cost false = n) (hv : val s = w) : ∃ a, exec i s = .next a ∧ s.WroteG e gd w n a := by
  subst hc hv
  exact ⟨_, (exec_live he hr).trans (congrArg _ (ukRun_effect h hn)), eSetReg_ukNext_wroteG s e gd (val s) _⟩

/-! ## Results of register instructions (R232, R233) -/

theorem boolWord_decide (p : Prop) [Decidable p] : boolWord (decide p) = if p then 1 else 0 := by
  by_cases h : p <;> simp [boolWord, h]

/-- CLZ counts the zeros above the highest one. -/
theorem clzOf_spec (a : Word) : ∃ n, clzOf a = BitVec.ofNat 32 n ∧ n ≤ 32 ∧ a.toNat < 2 ^ (32 - n) ∧ (n < 32 → 2 ^ (31 - n) ≤ a.toNat) := by
  unfold clzOf
  by_cases h : a = 0
  · subst h
    exact ⟨32, rfl, Nat.le_refl _, by decide, fun h => absurd h (by decide)⟩
  · have h0 : a.toNat ≠ 0 := fun e => h (BitVec.eq_of_toNat_eq e)
    have hl : Nat.log2 a.toNat < 32 := (Nat.log2_lt h0).mpr a.isLt
    rw [if_neg h]
    refine ⟨_, rfl, by omega, ?_, fun _ => ?_⟩
    · rw [show 32 - (31 - Nat.log2 a.toNat) = Nat.log2 a.toNat + 1 by omega]
      exact Nat.lt_log2_self
    · rw [show 31 - (31 - Nat.log2 a.toNat) = Nat.log2 a.toNat by omega]
      exact Nat.log2_self_le h0

/-- Half the logarithm of a number, to nearest. -/
theorem log2_half (m : Nat) (h : m ≠ 0) : 2 ^ (2 * ((Nat.log2 m + 1) / 2)) ≤ 2 * m ∧ m < 2 ^ (2 * ((Nat.log2 m + 1) / 2) + 1) := by
  constructor
  · calc 2 ^ (2 * ((Nat.log2 m + 1) / 2)) ≤ 2 ^ (Nat.log2 m + 1) := Nat.pow_le_pow_right (by decide) (by omega)
      _ = 2 * 2 ^ Nat.log2 m := by rw [Nat.pow_succ, Nat.mul_comm]
      _ ≤ 2 * m := Nat.mul_le_mul_left 2 (Nat.log2_self_le h)
  · calc m < 2 ^ (Nat.log2 m + 1) := Nat.lt_log2_self
      _ ≤ 2 ^ (2 * ((Nat.log2 m + 1) / 2) + 1) := Nat.pow_le_pow_right (by decide) (by omega)

/-- LG2 of a number other than 0 rounds 65,536 times its logarithm to nearest. -/
theorem lg2Of_spec (a : Word) (h : a ≠ 0) : ∃ n, lg2Of a = BitVec.ofNat 32 n ∧ 2 ^ (2 * n) ≤ 2 * a.toNat ^ 131072 ∧ a.toNat ^ 131072 < 2 ^ (2 * n + 1) := by
  have h0 : a.toNat ≠ 0 := fun e => h (BitVec.eq_of_toNat_eq e)
  unfold lg2Of
  rw [if_neg h]
  exact ⟨_, rfl, log2_half _ (pow_ne_zero _ h0)⟩

end Sys2Proof.Proofs
end

section
/-! SUPPORT. Register instructions: EX2, and the rows one by one (R231 to R233, Table 8-4). -/

namespace Sys2Proof.Proofs

open Sys2Proof.Machine Sys2Proof.Laws

/-- The search bit by bit keeps a result that is not too large, and that is too large one higher. -/
theorem ex2Bits_spec (g n acc : Nat) (h0 : acc = 0 ∨ (2 * acc - 1) ^ 65536 ≤ 2 ^ (g + 65536)) (h1 : 2 ^ (g + 65536) < (2 * (acc + 2 ^ n) - 1) ^ 65536) :
    (ex2Bits g n acc = 0 ∨ (2 * ex2Bits g n acc - 1) ^ 65536 ≤ 2 ^ (g + 65536)) ∧ 2 ^ (g + 65536) < (2 * ex2Bits g n acc + 1) ^ 65536 := by
  induction n generalizing acc with
  | zero =>
    rw [show 2 * (acc + 2 ^ 0) - 1 = 2 * acc + 1 by omega] at h1
    unfold ex2Bits
    exact ⟨h0, h1⟩
  | succ n ih =>
    unfold ex2Bits
    dsimp only
    have two : acc + 2 ^ (n + 1) = acc + 2 ^ n + 2 ^ n := by rw [Nat.pow_succ]; omega
    split
    · exact ih _ (Or.inr ‹_›) (by rw [← two]; exact h1)
    · exact ih _ h0 (Nat.lt_of_not_le ‹_›)

/-- The search begins with a bound above every result in range. -/
theorem ex2_top (g k : Nat) (hk : k ≠ 0) (hg : g < 32 * k) : 2 ^ (g + k) < (2 * (0 + 2 ^ 33) - 1) ^ k := calc
  2 ^ (g + k) ≤ 2 ^ (33 * k) := Nat.pow_le_pow_right (by decide) (by omega)
  _ = (2 ^ 33) ^ k := Nat.pow_mul 2 33 k
  _ < (2 * (0 + 2 ^ 33) - 1) ^ k := Nat.pow_lt_pow_left (by norm_num) hk

/-- The least result in range is below three halves. -/
theorem ex2_least (x k : Nat) (h : x < k) : (2 * 1 - 1) ^ k ≤ 2 ^ x ∧ 2 ^ x < (2 * 1 + 1) ^ k := by
  refine ⟨(Nat.one_pow k).symm ▸ Nat.one_le_two_pow, ?_⟩
  calc 2 ^ x < 2 ^ k := Nat.pow_lt_pow_right (by decide) h
    _ ≤ (2 * 1 + 1) ^ k := Nat.pow_le_pow_left (by decide) k

theorem ex2Bits_round (g : Nat) (hg : g < 32 * 65536) :
    1 ≤ ex2Bits g 33 0 ∧ (2 * ex2Bits g 33 0 - 1) ^ 65536 ≤ 2 ^ (g + 65536) ∧ 2 ^ (g + 65536) < (2 * ex2Bits g 33 0 + 1) ^ 65536 := by
  obtain ⟨low, high⟩ := ex2Bits_spec g 33 0 (Or.inl rfl) (ex2_top g 65536 (by decide) hg)
  generalize ex2Bits g 33 0 = r at low high
  have pos : r ≠ 0 := by
    rintro rfl
    rw [Nat.mul_zero, Nat.zero_add, Nat.one_pow] at high
    exact (Nat.two_pow_pos (g + 65536)).ne' (Nat.lt_one_iff.mp high)
  exact ⟨Nat.pos_of_ne_zero pos, low.resolve_left pos, high⟩

/-- EX2 rounds to nearest between the operands at which its result is 0 and at which it saturates. -/
theorem ex2Of_spec (a : Word) (x : Nat) (hx : a.toInt + 65536 = x) (h0 : 0 < x) (h1 : x < 33 * 65536) :
    ∃ n, ex2Of a = BitVec.ofNat 32 (min 0xFFFFFFFF n) ∧ 1 ≤ n ∧ (2 * n - 1) ^ 65536 ≤ 2 ^ x ∧ 2 ^ x < (2 * n + 1) ^ 65536 := by
  unfold ex2Of
  dsimp only
  rw [if_neg (by omega), if_neg (by omega)]
  split
  · exact ⟨1, rfl, Nat.le_refl _, ex2_least x 65536 (by omega)⟩
  · rw [if_neg (by omega)]
    have hg : x = a.toInt.toNat + 65536 := by omega
    rw [hg]
    exact ⟨_, rfl, ex2Bits_round _ (by omega)⟩

/-- At the one exact half EX2 gives 0 or 1 (log 15). -/
theorem ex2Of_half (a : Word) (h : a.toInt = -65536) : ex2Of a = 0 ∨ ex2Of a = 1 := by
  unfold ex2Of
  dsimp only
  rw [if_neg (by omega), if_pos h]
  cases Config.ex2HalfUp
  · exact Or.inl rfl
  · exact Or.inr rfl

theorem ex2Of_low (a : Word) (h : a.toInt < -65536) : ex2Of a = 0 := if_pos h

theorem ex2Of_high (a : Word) (h : 32 * 65536 ≤ a.toInt) : ex2Of a = 0xFFFFFFFF := by
  unfold ex2Of
  dsimp only
  rw [if_neg (by omega), if_neg (by omega), if_neg (by omega), if_pos h]

/-- Settles O43: every row is the one register instruction with its own result, whose arithmetic the lemmas above give. -/
theorem registerInstructions : Obligations.RegisterInstructions := by
  unfold Obligations.RegisterInstructions
  refine ⟨fun s e t gd ga gb a b hr ha hb => ?three, fun s e t gd ga a hr ha => ?one, fun s e t gd ga imm sh a hr ha => ?immediate⟩
  case three =>
    subst ha hb
    and_intros <;> exact fun h => exec_wroteG rfl hr h rfl rfl (by simp only [ROp.eval, boolWord_decide, satWord, clampI])
  case one =>
    subst ha
    refine ⟨fun h => ?clz, fun h h0 => ?_, fun h h0 => ?lg2, fun h h0 => ?_, fun h h0 => ?half, fun x h hx h0 h1 => ?ex2, fun h h0 => ?_⟩
    case clz =>
      obtain ⟨n, hn, bounds⟩ := clzOf_spec (s.eReg e.val ga)
      obtain ⟨u, hu, hw⟩ := exec_wroteG (i := .clz e gd ga) rfl hr h rfl rfl hn
      exact ⟨u, n, hu, hw, bounds⟩
    case lg2 =>
      obtain ⟨n, hn, bounds⟩ := lg2Of_spec (s.eReg e.val ga) h0
      obtain ⟨u, hu, hw⟩ := exec_wroteG (i := .lg2 e gd ga) rfl hr h rfl rfl hn
      exact ⟨u, n, hu, hw, bounds⟩
    case half =>
      obtain ⟨u, hu, hw⟩ := exec_wroteG (i := .ex2 e gd ga) rfl hr h rfl rfl rfl
      refine ⟨u, hu, (ex2Of_half _ h0).imp (fun hv => ?_) (fun hv => ?_)⟩ <;> exact hv ▸ hw
    case ex2 =>
      obtain ⟨n, hn, bounds⟩ := ex2Of_spec (s.eReg e.val ga) x hx h0 h1
      obtain ⟨u, hu, hw⟩ := exec_wroteG (i := .ex2 e gd ga) rfl hr h rfl rfl hn
      exact ⟨u, n, hu, hw, bounds⟩
    · exact exec_wroteG rfl hr h rfl rfl (if_pos h0)
    · exact exec_wroteG rfl hr h rfl rfl (ex2Of_low _ h0)
    · exact exec_wroteG rfl hr h rfl rfl (ex2Of_high _ h0)
  case immediate =>
    subst ha
    and_intros <;> exact fun h => exec_wroteG rfl hr h rfl rfl (by simp only [IOp.eval, ShOp.eval, boolWord_decide])

end Sys2Proof.Proofs
end

section
/-! SUPPORT. Data memory: loads, stores and the vectors it holds (R234, R236). -/

namespace Sys2Proof.Proofs

open Sys2Proof.Machine Sys2Proof.Laws

/-! ## Addresses (R234) -/

section
variable {a n : Nat}

theorem dataTrap_none (h : a % n = 0) (h' : a + n ≤ 0x8000) : dataTrap a n = none := by
  unfold dataTrap
  rw [if_neg (not_not.mpr h), if_neg (by omega)]

theorem dataTrap_align (h : a % n ≠ 0) : dataTrap a n = some .align := if_pos h

theorem dataTrap_daddr (hn : 0 < n) (h : a % n = 0) (h' : 0x8000 ≤ a) : dataTrap a n = some .daddr := by
  unfold dataTrap
  rw [if_neg (not_not.mpr h), if_pos (by omega)]

end

/-! ## Bytes and words -/

/-- A byte below the bits above it. -/
theorem append_byte {w : Nat} (h : BitVec w) (b : Byte) : (h ++ b).toNat = 256 * h.toNat + b.toNat := by
  rw [BitVec.toNat_append, ← Nat.shiftLeft_add_eq_or_of_lt b.isLt, Nat.shiftLeft_eq, Nat.mul_comm]

/-- The four bytes of a word make the word. -/
theorem bytes_of_word (w : Word) : BitVec.ofNat 8 (w.toNat / 256 ^ 3) ++ BitVec.ofNat 8 (w.toNat / 256 ^ 2) ++ BitVec.ofNat 8 (w.toNat / 256 ^ 1) ++ BitVec.ofNat 8 (w.toNat / 256 ^ 0) = w := by
  refine BitVec.eq_of_toNat_eq ?_
  have hw := w.isLt
  simp only [append_byte, BitVec.toNat_ofNat]
  omega

section
variable (x : Eng) (a : Nat)

theorem load_word : word (x.load? a 4) = x.byte (a + 3) ++ x.byte (a + 2) ++ x.byte (a + 1) ++ x.byte a := by
  refine BitVec.eq_of_toNat_eq ?_
  have h0 := (x.byte a).isLt
  have h1 := (x.byte (a + 1)).isLt
  have h2 := (x.byte (a + 2)).isLt
  have h3 := (x.byte (a + 3)).isLt
  simp only [append_byte, word, BitVec.toNat_ofNat, Eng.load?, Nat.add_assoc, Nat.reduceAdd]
  omega

theorem load_half : BitVec.ofNat 16 (x.load? a 2) = x.byte (a + 1) ++ x.byte a := by
  refine BitVec.eq_of_toNat_eq ?_
  have h0 := (x.byte a).isLt
  have h1 := (x.byte (a + 1)).isLt
  simp only [append_byte, BitVec.toNat_ofNat, Eng.load?]
  omega

/-- A store changes data memory alone. -/
theorem store_frame (v n : Nat) : x.store a v n = { x with dmem := (x.store a v n).dmem } := by
  induction n generalizing x a v with
  | zero => rfl
  | succ n ih =>
    unfold Eng.store
    rw [ih]

/-- After a store its bytes are those of the number, least significant first, and the others are as before. -/
theorem byte_store (v n j : Nat) : (x.store a v n).byte j = if a ≤ j ∧ j < a + n then BitVec.ofNat 8 (v / 256 ^ (j - a)) else x.byte j := by
  induction n generalizing x a v with
  | zero => rw [if_neg (by omega)]; rfl
  | succ n ih =>
    unfold Eng.store
    rw [ih]
    have first : ({ x with dmem := x.dmem.set 0 a (BitVec.ofNat 8 v) } : Eng).byte j = if a = j then BitVec.ofNat 8 v else x.byte j := Tab.get_set _ _ _ _ _
    rw [first]
    by_cases hj : a = j
    · subst hj
      rw [if_neg (by omega), if_pos rfl, if_pos (by omega), Nat.sub_self, Nat.pow_zero, Nat.div_one]
    · rw [if_neg hj]
      by_cases h : a + 1 ≤ j ∧ j < a + 1 + n
      · rw [if_pos h, if_pos (by omega), show j - a = (j - (a + 1)) + 1 by omega, Nat.pow_succ', Nat.div_div_eq_div_mul]
      · rw [if_neg h, if_neg (by omega)]

/-- Words stored in line. -/
def wordsStored (w : Nat → Word) (n : Nat) : Eng := (List.range n).foldl (fun y j => y.store (a + 4 * j) (w j).toNat 4) x

theorem wordsStored_succ (w : Nat → Word) (n : Nat) : wordsStored x a w (n + 1) = (wordsStored x a w n).store (a + 4 * n) (w n).toNat 4 := by
  unfold wordsStored
  rw [List.range_succ, List.foldl_append]
  rfl

theorem wordsStored_frame (w : Nat → Word) (n : Nat) : wordsStored x a w n = { x with dmem := (wordsStored x a w n).dmem } := by
  induction n with
  | zero => rfl
  | succ n ih =>
    rw [wordsStored_succ]
    exact (store_frame _ _ _ _).trans (congrArg (fun y : Eng => { y with dmem := ((wordsStored x a w n).store (a + 4 * n) (w n).toNat 4).dmem }) ih)

theorem wordsStored_other (w : Nat → Word) (n j : Nat) (h : j < a ∨ a + 4 * n ≤ j) : (wordsStored x a w n).byte j = x.byte j := by
  induction n with
  | zero => rfl
  | succ n ih => rw [wordsStored_succ, byte_store, if_neg (by omega), ih (by omega)]

theorem wordsStored_byte (w : Nat → Word) (n j i : Nat) (hj : j < n) (hi : i < 4) : (wordsStored x a w n).byte (a + 4 * j + i) = BitVec.ofNat 8 ((w j).toNat / 256 ^ i) := by
  induction n with
  | zero => omega
  | succ n ih =>
    rw [wordsStored_succ, byte_store]
    by_cases h : j = n
    · subst h
      rw [if_pos (by omega), Nat.add_sub_cancel_left]
    · rw [if_neg (by omega), ih (by omega)]

/-- Each of the words reads back. -/
theorem wordsStored_word (w : Nat → Word) (n j : Nat) (hj : j < n) :
    (wordsStored x a w n).byte (a + 4 * j + 3) ++ (wordsStored x a w n).byte (a + 4 * j + 2) ++ (wordsStored x a w n).byte (a + 4 * j + 1) ++ (wordsStored x a w n).byte (a + 4 * j) = w j := by
  have low := wordsStored_byte x a w n j 0 hj (by decide)
  rw [Nat.add_zero] at low
  rw [wordsStored_byte x a w n j 3 hj (by decide), wordsStored_byte x a w n j 2 hj (by decide), wordsStored_byte x a w n j 1 hj (by decide), low]
  exact bytes_of_word (w j)

end

/-! ## Vectors in data memory (R236) -/

theorem getD_mapRange {α : Type} (f : Nat → α) (d : α) {n j : Nat} (h : j < n) : ((List.range n).map f).getD j d = f j := by
  rw [List.getD_eq_getElem?_getD, List.getElem?_map, List.getElem?_range h]
  rfl

/-- The vector that data memory holds at an address. -/
def blkAt (x : Eng) (a : Nat) : VBlk := blkOf ((List.range 16).map (fun j => word (x.load? (a + 4 * j) 4)))

theorem blkAt_exponent (x : Eng) (a : Nat) : (blkAt x a).e = (x.byte (a + 3)).toNat / 4 := by
  unfold blkAt blkOf
  dsimp only
  rw [getD_mapRange _ _ (by decide), load_word]
  unfold bitsOf
  have h0 := (x.byte (a + 4 * 0)).isLt
  have h1 := (x.byte (a + 4 * 0 + 1)).isLt
  have h2 := (x.byte (a + 4 * 0 + 2)).isLt
  have h3 := (x.byte (a + 4 * 0 + 3)).isLt
  simp only [append_byte, Nat.shiftRight_eq_div_pow, Nat.mul_zero, Nat.add_zero] at *
  omega

theorem blkAt_mantissa (x : Eng) (a j : Nat) (hj : j < 16) :
    (blkAt x a).m.getD j 0 = ((x.byte (a + 4 * j + 2) ++ x.byte (a + 4 * j + 1) ++ x.byte (a + 4 * j)).setWidth 20).toInt := by
  unfold blkAt blkOf
  dsimp only
  rw [getD_mapRange _ _ hj, getD_mapRange _ _ hj, load_word]
  refine congrArg _ (BitVec.eq_of_toNat_eq ?_)
  simp only [append_byte, BitVec.extractLsb'_toNat, BitVec.toNat_setWidth, Nat.shiftRight_zero]
  omega

/-- The word of a lane: six bits of exponent, six of zero, twenty of mantissa. -/
theorem laneWord_fields (b : VBlk) (j : Nat) (h : b.e < 64) : laneWord b j = BitVec.ofNat 6 b.e ++ (0 : BitVec 6) ++ BitVec.ofInt 20 (b.m.getD j 0) := by
  unfold laneWord
  generalize BitVec.ofInt 20 (b.m.getD j 0) = m
  refine BitVec.eq_of_toNat_eq ?_
  have hm := m.isLt
  have left : (BitVec.ofNat 32 (b.e * 2 ^ 26) ||| m.setWidth 32).toNat = b.e * 2 ^ 26 + m.toNat := by
    rw [BitVec.toNat_or, BitVec.toNat_ofNat, BitVec.toNat_setWidth, Nat.mod_eq_of_lt (by omega), Nat.mod_eq_of_lt (by omega), ← Nat.shiftLeft_eq, ← Nat.shiftLeft_add_eq_or_of_lt (by omega)]
  rw [left, BitVec.toNat_append, ← Nat.shiftLeft_add_eq_or_of_lt m.isLt, BitVec.toNat_append, Nat.shiftLeft_eq, Nat.shiftLeft_eq, BitVec.toNat_ofNat, Nat.mod_eq_of_lt (by omega)]
  simp only [BitVec.toNat_zero, Nat.or_zero, BitVec.ofNat_eq_ofNat]
  omega

/-! ## The rows of data memory -/

section
variable {s : State} {e t n : Nat} {u : UIns} {i : Instr}

/-- A load that does not trap is a register instruction. -/
theorem exec_load {gd ga : Reg} {imm : BitVec 18} {k : Nat} {ext : Nat → Word} {w : Word} (he : exec i s = s.live (fun x => x.ukLoad e u gd ga imm k ext)) (hr : s.runs) (h : s.ukAt e = some (t, u))
    (hn : s.ukTraps e t u = none) (hc : u.cost false = n) (hv : ext ((s.eng e).load? (s.uAddr e ga imm.toInt) k) = w) : ∃ a, exec i s = .next a ∧ s.WroteG e gd w n a :=
  exec_wroteG he hr h hn hc hv

/-- A store that does not trap writes the bytes of its register. -/
theorem exec_store {gs ga : Reg} {imm : BitVec 18} {k a : Nat} (he : exec i s = s.live (fun x => x.ukStore e u gs ga imm k)) (hr : s.runs) (h : s.ukAt e = some (t, u))
    (hn : s.ukTraps e t u = none) (ha : s.uAddr e ga imm.toInt = a) : ∃ v, exec i s = .next v ∧ s.WroteM e a k (s.eReg e gs).toNat 1 v := by
  subst ha
  refine ⟨_, (exec_live he hr).trans (congrArg _ (ukRun_effect h hn)), onlyEng_updEng (State.updEng_only _ _ _), ?_, fun j => ?_⟩
  · unfold State.ukNext
    rw [State.eng_updEng, State.eng_updEng]
    exact congrArg (fun y : Eng => { y with pc := (s.eng e).pc + 4, ran := y.ran + 1 }) (store_frame _ _ _ _)
  · unfold State.ukNext
    rw [State.eng_updEng, State.eng_updEng]
    exact byte_store _ _ _ _ j

end

end Sys2Proof.Proofs
end

section
/-! SUPPORT. Vector registers (R231, R235), and the rows that read and write data memory (R234, R236). -/

namespace Sys2Proof.Proofs

open Sys2Proof.Machine Sys2Proof.Laws

section
variable (s : State) (e : Nat) (r : VReg) (b : VBlk × Bool)

theorem eSetVec_eng : (s.eSetVec e r b).eng e = { s.eng e with v := (s.eng e).v.set VBlk.zero r.val b.1, vsat := (s.eng e).vsat || b.2 } := State.eng_updEng _ _ _

theorem eSetVec_only : s.onlyEng (s.eSetVec e r b) e := State.updEng_only _ _ _

/-- What an engine with a written vector register reads. -/
theorem eVec_written {a : State} {w : VBlk} (h : (a.eng e).v = (s.eng e).v.set VBlk.zero r.val w) (x : VReg) : a.eVec e x = if x = r then w else s.eVec e x := by
  unfold State.eVec
  rw [h, Tab.get_set]
  by_cases hx : x = r
  · subst hx
    rw [if_pos rfl, if_pos rfl]
  · rw [if_neg (c := r.val = x.val) (fun h => hx (Fin.ext h.symm)), if_neg hx]

theorem eSetVec_ukNext_wroteV (n : Nat) : s.WroteV e r b.1 b.2 n ((s.eSetVec e r b).ukNext e (s.pcNext e) n) := by
  have own : ((s.eSetVec e r b).ukNext e (s.pcNext e) n).eng e =
      { s.eng e with v := (s.eng e).v.set VBlk.zero r.val b.1, vsat := (s.eng e).vsat || b.2, pc := (s.eng e).pc + 4, ran := (s.eng e).ran + n } := by
    unfold State.ukNext
    rw [State.eng_updEng, eSetVec_eng]
    rfl
  exact ⟨onlyEng_updEng (eSetVec_only s e r b), by rw [own], eVec_written s e r (by rw [own])⟩

end

section
variable {s : State} {e t n : Nat} {u : UIns} {i : Instr}

/-- A vector instruction that does not trap writes its block, moves to the next word and takes its times. -/
theorem exec_wroteV {vd : VReg} {val : State → VBlk × Bool} {b : VBlk} {sat : Bool} (he : exec i s = s.live (fun x => x.ukVec e u vd val)) (hr : s.runs)
    (h : s.ukAt e = some (t, u)) (hn : s.ukTraps e t u = none) (hc : u.cost false = n) (hv : val s = (b, sat)) : ∃ a, exec i s = .next a ∧ s.WroteV e vd b sat n a := by
  subst hc
  have w := eSetVec_ukNext_wroteV s e vd (val s) (u.cost false)
  rw [hv] at w
  exact ⟨_, (exec_live he hr).trans (congrArg _ ((ukRun_effect h hn).trans (by rw [hv]))), w⟩

end

section
variable {s : State} {e t : Nat} {u : UIns} {i : Instr} {c : TrapCause}

theorem exec_regTraps {gd : Reg} {val : State → Word} (he : exec i s = s.live (fun x => x.ukReg e u gd val)) (hr : s.runs) (h : s.ukAt e = some (t, u)) (hc : s.ukTraps e t u = some c)
    (hu : s.ukTrap e t u c = s.takeTrap e t c) : exec i s = .next (s.takeTrap e t c) := exec_traps he hr h hc hu

theorem exec_vecTraps {vd : VReg} {val : State → VBlk × Bool} (he : exec i s = s.live (fun x => x.ukVec e u vd val)) (hr : s.runs) (h : s.ukAt e = some (t, u)) (hc : s.ukTraps e t u = some c)
    (hu : s.ukTrap e t u c = s.takeTrap e t c) : exec i s = .next (s.takeTrap e t c) := exec_traps he hr h hc hu

end

theorem byte_moved (x : Eng) (pc n j : Nat) : ({ x with pc := pc, ran := n } : Eng).byte j = x.byte j := rfl

/-- VST writes the sixteen words of its register's lanes. -/
theorem exec_vst {s : State} {e : Fin 128} {t : Nat} {v : VReg} {ga : Reg} {imm : BitVec 19} (hr : s.runs) (h : s.ukAt e.val = some (t, .vst v ga imm)) (hn : s.ukTraps e.val t (.vst v ga imm) = none) :
    exec (.vst e v ga imm) s = .next ((s.updEng e.val (fun x => wordsStored x (s.uAddr e.val ga imm.toInt) (laneWord (s.eVec e.val v)) 16)).ukNext e.val (s.pcNext e.val) 4) :=
  (exec_live (f := fun x => x.ukVst e.val v ga imm) rfl hr).trans (congrArg _ (ukRun_effect h hn))

/-- Settles O44: an address is misaligned, too high or good; a good load reads `Eng.load?`, a good store is `Eng.store`, and VST is sixteen of them. -/
theorem memoryInstructions : Obligations.MemoryInstructions := by
  unfold Obligations.MemoryInstructions
  refine ⟨fun s e t a r ga imm hr ha => ?scalar, fun s e t a v ga imm hr ha => ?vector⟩
  case scalar =>
    subst ha
    refine ⟨fun h h0 h1 => exec_load rfl hr h (dataTrap_none h0 h1) rfl (load_word _ _), fun h h0 h1 => exec_load rfl hr h (dataTrap_none h0 h1) rfl (congrArg _ (load_half _ _)),
      fun h h0 h1 => exec_store rfl hr h (dataTrap_none h0 h1) rfl, fun h h0 h1 => exec_store rfl hr h (dataTrap_none h0 h1) rfl,
      fun h0 => ⟨fun h => ?_, fun h => ?_⟩, fun h0 => ⟨fun h => ?_, fun h => ?_⟩, fun h1 h0 => ⟨fun h => ?_, fun h => ?_⟩, fun h1 h0 => ⟨fun h => ?_, fun h => ?_⟩⟩
    · exact exec_regTraps rfl hr h (dataTrap_align h0) rfl
    · exact exec_traps rfl hr h (dataTrap_align h0) rfl
    · exact exec_regTraps rfl hr h (dataTrap_align h0) rfl
    · exact exec_traps rfl hr h (dataTrap_align h0) rfl
    · exact exec_regTraps rfl hr h (dataTrap_daddr (by decide) h0 h1) rfl
    · exact exec_traps rfl hr h (dataTrap_daddr (by decide) h0 h1) rfl
    · exact exec_regTraps rfl hr h (dataTrap_daddr (by decide) h0 h1) rfl
    · exact exec_traps rfl hr h (dataTrap_daddr (by decide) h0 h1) rfl
  case vector =>
    subst ha
    refine ⟨fun h h0 h1 => ?load, fun h h0 h1 he => ?store, fun h0 => ⟨fun h => ?_, fun h => ?_⟩, fun h1 h0 => ⟨fun h => ?_, fun h => ?_⟩⟩
    case load =>
      obtain ⟨u, hu, hw⟩ := exec_wroteV (i := .vld e v ga imm) rfl hr h (dataTrap_none h0 h1) rfl rfl
      refine ⟨u, blkAt (s.eng e.val) _, hu, hw, blkAt_exponent _ _, ?_, blkAt_mantissa _ _⟩
      exact (List.length_map _).trans List.length_range
    case store =>
      refine ⟨_, exec_vst hr h (dataTrap_none h0 h1), onlyEng_updEng (State.updEng_only _ _ _), ?_, fun j hj => ?_, fun j hj => ?_⟩
      all_goals simp only [State.ukNext, State.eng_updEng, byte_moved]
      · exact congrArg (fun y : Eng => { y with pc := (s.eng e.val).pc + 4, ran := y.ran + 4 }) (wordsStored_frame _ _ _ _)
      · exact wordsStored_other _ _ _ _ _ hj
      · exact (wordsStored_word _ _ _ _ _ hj).trans (laneWord_fields _ _ he)
    · exact exec_vecTraps rfl hr h (dataTrap_align h0) rfl
    · exact exec_traps rfl hr h (dataTrap_align h0) rfl
    · exact exec_vecTraps rfl hr h (dataTrap_daddr (by decide) h0 h1) rfl
    · exact exec_traps rfl hr h (dataTrap_daddr (by decide) h0 h1) rfl

end Sys2Proof.Proofs
end

section
/-! SUPPORT. Vector instructions: normalised blocks, complex products, extracted lanes (R235). -/

namespace Sys2Proof.Proofs

open Sys2Proof.Machine Sys2Proof.Laws

/-! ## Normalisation -/

theorem fits_iff (m : Int) : fits m = true ↔ -524288 ≤ m ∧ m ≤ 524287 := decide_eq_true_iff

/-- An exponent at which not every lane fits has a lane outside the range of a mantissa. -/
theorem exists_unfit {sh x : Nat} {l : List Int} (h : ¬ l.all (fun n => fits (laneAt sh x n)) = true) : ∃ n ∈ l, roundEven n (x + sh) < -524288 ∨ 524287 < roundEven n (x + sh) := by
  rw [List.all_eq_true] at h
  push Not at h
  obtain ⟨n, hn, hf⟩ := h
  rw [Ne, fits_iff] at hf
  unfold laneAt at hf
  exact ⟨n, hn, by omega⟩

/-- The block that is formed of exact lanes is theirs, or the saturated one where none is. -/
theorem vNorm_normed (sh : Nat) (l : List Int) : Normed sh l (vNorm sh l).1 (vNorm sh l).2 := by
  unfold vNorm
  split
  · rename_i e h
    obtain ⟨hp, hm, hlt⟩ := List.find?_range_eq_some.mp h
    refine Or.inl ⟨rfl, Nat.le_of_lt_succ (List.mem_range.mp hm), rfl, fun m hmem => ?_, fun x hx => exists_unfit (by simpa using hlt x hx)⟩
    obtain ⟨n, hn, rfl⟩ := List.mem_map.mp hmem
    exact (fits_iff _).mp (List.all_eq_true.mp hp n hn)
  · rename_i h
    exact Or.inr ⟨rfl, rfl, rfl, fun x hx => exists_unfit (List.find?_eq_none.mp h x (List.mem_range.mpr (Nat.lt_succ_of_le hx)))⟩

section
variable {s : State} {e t n : Nat} {u : UIns} {i : Instr}

/-- A vector instruction that normalises its exact lanes. -/
theorem exec_normed {vd : VReg} {val : State → VBlk × Bool} {sh : Nat} {l : List Int} (he : exec i s = s.live (fun x => x.ukVec e u vd val)) (hr : s.runs)
    (h : s.ukAt e = some (t, u)) (hn : s.ukTraps e t u = none) (hc : u.cost false = n) (hv : val s = vNorm sh l) : ∃ a r sat, exec i s = .next a ∧ s.WroteV e vd r sat n a ∧ Normed sh l r sat := by
  obtain ⟨a, ha, hw⟩ := exec_wroteV he hr h hn hc hv
  exact ⟨a, _, _, ha, hw, vNorm_normed sh l⟩

end

/-- VDOT: the sum of the lanes' products, alone in lane 0. -/
theorem vdot_eval (a b : VBlk) : VOp.eval .vdot a b = vNorm 51 (((List.range 16).map (fun j => a.lane j * b.lane j)).sum :: List.replicate 15 0) := by
  rw [List.sum_eq_foldl]
  rfl

/-! ## Complex products -/

theorem vNext_eq (v : VReg) : vNext v = v + 1 := Fin.ext (Fin.val_add v 1).symm

theorem cmulEval_product (ai aq bi bq : VBlk) : cmulEval false ai aq bi bq =
    (vNorm 51 ((List.range 16).map (fun j => ai.lane j * bi.lane j - aq.lane j * bq.lane j)), vNorm 51 ((List.range 16).map (fun j => aq.lane j * bi.lane j + ai.lane j * bq.lane j))) := by
  unfold cmulEval
  simp only [Bool.false_eq_true, if_false, one_mul]

theorem cmulEval_conjugate (ai aq bi bq : VBlk) : cmulEval true ai aq bi bq =
    (vNorm 51 ((List.range 16).map (fun j => ai.lane j * bi.lane j + aq.lane j * bq.lane j)), vNorm 51 ((List.range 16).map (fun j => aq.lane j * bi.lane j - ai.lane j * bq.lane j))) := by
  unfold cmulEval
  simp only [if_true, neg_one_mul, sub_neg_eq_add, ← sub_eq_add_neg]

/-- After a complex product: both registers written, the next word. -/
def cmulWritten (s : State) (e : Nat) (vd : VReg) (x y : VBlk × Bool) : State := ((s.eSetVec e vd x).eSetVec e (vd + 1) y).ukNext e (s.pcNext e) 8

theorem cmulWritten_eng (s : State) (e : Nat) (vd : VReg) (x y : VBlk × Bool) : (cmulWritten s e vd x y).eng e = { s.eng e with
    v := ((s.eng e).v.set VBlk.zero vd.val x.1).set VBlk.zero (vd + 1).val y.1, vsat := (s.eng e).vsat || x.2 || y.2, pc := (s.eng e).pc + 4, ran := (s.eng e).ran + 8 } := by
  unfold cmulWritten State.ukNext
  rw [State.eng_updEng, eSetVec_eng, eSetVec_eng]
  rfl

section
variable {s : State} {e t : Nat} {u : UIns} {i : Instr}

/-- A complex product writes its register and the next one. -/
theorem exec_cmul {conj : Bool} {vd va vb : VReg} {re im : List Int} (he : exec i s = s.live (fun x => x.ukCmul e u conj vd va vb)) (hr : s.runs)
    (h : s.ukAt e = some (t, u)) (hn : s.ukTraps e t u = none) (hc : u.cost false = 8)
    (hv : cmulEval conj (s.eVec e va) (s.eVec e (va + 1)) (s.eVec e vb) (s.eVec e (vb + 1)) = (vNorm 51 re, vNorm 51 im)) :
    ∃ (a : State) (x y : VBlk) (p q : Bool), exec i s = .next a ∧ s.onlyEng a e ∧
      a.eng e = { s.eng e with v := (a.eng e).v, vsat := (s.eng e).vsat || p || q, pc := (s.eng e).pc + 4, ran := (s.eng e).ran + 8 } ∧
      (∀ r : VReg, a.eVec e r = if r = vd + 1 then y else if r = vd then x else s.eVec e r) ∧ Normed 51 re x p ∧ Normed 51 im y q := by
  have step : s.ukCmul e u conj vd va vb = cmulWritten s e vd (vNorm 51 re) (vNorm 51 im) := by
    unfold State.ukCmul cmulWritten
    rw [ukRun_effect h hn]
    dsimp only
    rw [vNext_eq, vNext_eq, vNext_eq, hv, hc]
  have own := cmulWritten_eng s e vd (vNorm 51 re) (vNorm 51 im)
  refine ⟨_, _, _, _, _, (exec_live he hr).trans (congrArg _ step), onlyEng_updEng (onlyEng_updEng (eSetVec_only _ _ _ _)), by rw [own], fun r => ?_, vNorm_normed 51 re, vNorm_normed 51 im⟩
  rw [eVec_written (s.eSetVec e vd (vNorm 51 re)) e (vd + 1) (by rw [own, eSetVec_eng]), eVec_written s e vd (by rw [eSetVec_eng])]

end

/-! ## VSHX and VEXT -/

theorem vshxEval_in (a : VBlk) (g : Word) (h : (a.e : Int) + g.toInt ≤ 63) : vshxEval a g = ({ a with e := ((a.e : Int) + g.toInt).toNat }, false) := if_neg (by omega)

theorem vshxEval_over (a : VBlk) (g : Word) (h : 63 < (a.e : Int) + g.toInt) :
    vshxEval a g = ({ e := 63, m := a.m.map (fun n => if n < 0 then -524288 else if n = 0 then 0 else 524287) }, true) := if_pos h

/-- VEXT rounds to nearest, either way at an exact half (log 15), and saturates. -/
theorem vextEval_spec (a : VBlk) (lane frac : Nat) : ∃ q : Int, vextEval a lane frac = BitVec.ofInt 32 (max (-2147483648) (min 2147483647 q)) ∧
    2 * q * 2 ^ 51 - 2 ^ 51 ≤ 2 * (a.lane lane * 2 ^ frac) ∧ 2 * (a.lane lane * 2 ^ frac) ≤ 2 * q * 2 ^ 51 + 2 ^ 51 := by
  unfold vextEval
  generalize a.lane lane * 2 ^ frac = n
  dsimp only
  refine ⟨_, rfl, ?_⟩
  split_ifs <;> omega

/-- Settles O45: each row writes the block that its exact lanes make. -/
theorem vectorInstructions : Obligations.VectorInstructions := by
  unfold Obligations.VectorInstructions
  refine ⟨fun s e t vd va vb a b hr ha hb => ?plain, fun s e t vd va vb ai aq bi bq hr hai haq hbi hbq => ?complex, fun s e t vd va g lane frac a hr ha => ?lanes⟩
  case plain =>
    subst ha hb
    exact ⟨fun h => exec_normed rfl hr h rfl rfl rfl, fun h => exec_normed rfl hr h rfl rfl rfl, fun h => exec_normed rfl hr h rfl rfl rfl, fun h => exec_normed rfl hr h rfl rfl (vdot_eval _ _),
      fun h => exec_normed rfl hr h rfl rfl (vdot_eval _ _), fun h => exec_wroteV rfl hr h rfl rfl rfl⟩
  case complex =>
    subst hai haq hbi hbq
    exact ⟨fun h => exec_cmul rfl hr h rfl rfl (cmulEval_product _ _ _ _), fun h => exec_cmul rfl hr h rfl rfl (cmulEval_conjugate _ _ _ _)⟩
  case lanes =>
    subst ha
    refine ⟨fun h h0 => exec_wroteV rfl hr h rfl rfl (vshxEval_in _ _ h0), fun h h0 => exec_wroteV rfl hr h rfl rfl (vshxEval_over _ _ h0), fun h => ?ext, fun h => exec_normed rfl hr h rfl rfl rfl⟩
    obtain ⟨q, hq, bounds⟩ := vextEval_spec (s.eVec e.val va) lane.val frac.toNat
    obtain ⟨u, hu, hw⟩ := exec_wroteG (i := .vext e g va lane frac) rfl hr h rfl rfl hq
    exact ⟨u, q, hu, hw, bounds⟩

end Sys2Proof.Proofs
end

section
/-! SUPPORT. Control instructions, loop ports and WAIT (R232, R234, R237 to R240, R249, R250). -/

namespace Sys2Proof.Proofs

open Sys2Proof.Machine Sys2Proof.Laws

/-! ## Branches and jumps (R232, R234) -/

section
variable {s : State} {e t : Nat} {i : Instr}

/-- A branch that is taken goes to its target in two instruction times, one that is not goes on in one. -/
theorem exec_branch {op : BOp} {ga gb : Reg} {ofs : BitVec 18} {n c : Nat} {taken : Prop} (he : exec i s = s.live (fun x => x.ukBranch e (.b op ga gb ofs) op ga gb ofs)) (hr : s.runs)
    (h : s.ukAt e = some (t, .b op ga gb ofs)) (ht : taken ↔ op.taken (s.eReg e ga) (s.eReg e gb) = true)
    (hn : (taken ∧ c = 2 ∧ (n : Int) = ((s.eng e).pc + 4 + 4 * ofs.toInt) % 2 ^ 32) ∨ (¬taken ∧ c = 1 ∧ n = (s.eng e).pc + 4)) :
    exec i s = .next (s.updEng e (fun x => { x with pc := n, ran := x.ran + c })) := by
  refine (exec_live he hr).trans (congrArg _ ((ukRun_effect h rfl).trans ?_))
  dsimp only
  rcases hn with ⟨hy, rfl, hn⟩ | ⟨hy, rfl, hn⟩
  · rw [ht.mp hy, if_pos rfl]
    have target : (((s.pcNext e : Int) + 4 * ofs.toInt) % 2 ^ 32).toNat = n := by
      rw [show (s.pcNext e : Int) = (s.eng e).pc + 4 from rfl, ← hn]
      rfl
    rw [target]
    rfl
  · rw [Bool.eq_false_iff.mpr (mt ht.mpr hy), if_neg Bool.false_ne_true, hn]
    rfl

end

/-- JAL links G15 and goes to its target. -/
theorem exec_jal {s : State} {e : Fin 128} {t : Nat} {ofs : BitVec 26} (hr : s.runs) (h : s.ukAt e.val = some (t, .jal ofs)) :
    exec (.jal e ofs) s = .next ((s.eSetReg e.val 15 (word (s.pcNext e.val))).ukNext e.val (((s.pcNext e.val : Int) + 4 * ofs.toInt) % 2 ^ 32).toNat 2) :=
  (exec_live (f := fun x => x.ukJal e.val ofs) rfl hr).trans (congrArg _ (ukRun_effect h rfl))

/-- JALR links its register and goes to a target on a word. -/
theorem exec_jalr {s : State} {e : Fin 128} {t : Nat} {gd ga : Reg} {imm : BitVec 18} (hr : s.runs) (h : s.ukAt e.val = some (t, .i .jalr gd ga imm))
    (ha : (s.eReg e.val ga + imm.signExtend 32).toNat % 4 = 0) :
    exec (.jalr e gd ga imm) s = .next ((s.eSetReg e.val gd (word (s.pcNext e.val))).ukNext e.val (s.eReg e.val ga + imm.signExtend 32).toNat 2) :=
  (exec_live (f := fun x => x.ukJalr e.val gd ga imm) rfl hr).trans (congrArg _ (ukRun_effect h (if_neg (not_not.mpr ha))))

/-! ## Traps (R246) -/

section
variable (s : State) (e t : Nat)

/-- The execution of a task is abandoned, if it runs. -/
def abandoned (s : State) (e t : Nat) : State := if (s.eng e).running = some t then s.updEng e (fun x => { x with running := none, writes := [] }) else s

theorem abandoned_eng (h : (s.eng e).running = some t) : (abandoned s e t).eng e = { s.eng e with running := none, writes := [] } := by
  unfold abandoned
  rw [if_pos h, State.eng_updEng]

theorem abandoned_eng_other {j : Nat} (h : j ≠ e) : (abandoned s e t).eng j = s.eng j :=
  ite_both (fun u : State => u.eng j = s.eng j) (State.eng_updEng_ne _ _ _ _ (Ne.symm h)) rfl

theorem abandoned_task (j : Nat) : (abandoned s e t).task j = s.task j := ite_both (fun u : State => u.task j = s.task j) rfl rfl

theorem abandoned_frame : abandoned s e t = { s with le := (abandoned s e t).le } := ite_both (fun u : State => u = { s with le := u.le }) rfl rfl

end

section
variable (s : State) (e t : Nat) (c : TrapCause) (inj : Bool)

/-- A trapping task before its fault is raised: its execution is abandoned. -/
def trapped (s : State) (e t : Nat) (c : TrapCause) : State := (abandoned s e t).updTask (taskKey e t) (fun x => { x with st := .trapped, trap := trapCode c })

theorem takeTrapI_eq : s.takeTrapI e t c inj = (trapped s e t c).raiseI 14 (if e < 64 then 5 else 6) (.task e t) inj := rfl

theorem takeTrapI_le : (s.takeTrapI e t c inj).le = (trapped s e t c).le := State.alarmed_le (State.alarmed_raiseI (State.alarmed_refl _))

theorem trapped_task : (trapped s e t c).task (taskKey e t) = { s.task (taskKey e t) with st := .trapped, trap := trapCode c } := by
  unfold trapped
  rw [State.task_updTask, abandoned_task]

theorem takeTrapI_task : (s.takeTrapI e t c inj).task (taskKey e t) = { s.task (taskKey e t) with st := .trapped, trap := trapCode c } :=
  (task_of (congrArg Le.tasks (takeTrapI_le s e t c inj)) _).trans (trapped_task s e t c)

end

/-! ## Loop ports (R237 to R240) -/

theorem cwordOk_iff (w : Word) : cwordOk w = true ↔ w.extractLsb' 16 16 = ~~~(w.extractLsb' 0 16) := decide_eq_true_iff

section
variable {s : State} {e t : Nat} {i : Instr} {g gi : Reg} {p : Half}

theorem ukTraps_prdc_port (h : (s.task (taskKey e t)).mayRead e (s.uPort e gi p) = false) : s.ukTraps e t (.p .prdc g gi p) = some .port := if_pos (by rw [h]; rfl)

theorem ukTraps_prdc (h : (s.task (taskKey e t)).mayRead e (s.uPort e gi p) = true) :
    s.ukTraps e t (.p .prdc g gi p) = if cwordOk (s.portValue e t (s.uPort e gi p) none) then none else some .cw := if_neg (by rw [h]; decide)

/-- A port read that does not trap is a register instruction. -/
theorem exec_portRead {checked : Bool} {live : Option Word} {w : Word} (he : exec i s = s.live (fun x => x.ukPortRead e checked g gi p live)) (hr : s.runs)
    (h : s.ukAt e = some (t, .p (if checked then .prdc else .prd) g gi p)) (hn : s.ukTraps e t (.p (if checked then .prdc else .prd) g gi p) = none)
    (hv : (if checked then (lowHalf (s.portValue e t (s.uPort e gi p) live)).signExtend 32 else s.portValue e t (s.uPort e gi p) live) = w) : ∃ u, exec i s = .next u ∧ s.WroteG e g w 8 u := by
  subst hv
  exact ⟨_, (exec_live he hr).trans (congrArg _ (ukRun_effect h hn)), eSetReg_ukNext_wroteG s e g _ 8⟩

/-- A port write that does not trap is buffered. -/
theorem exec_portWrite {compl : Bool} {w : Word} (he : exec i s = s.live (fun x => x.ukPortWrite e compl g gi p)) (hr : s.runs)
    (h : s.ukAt e = some (t, .p (if compl then .pwrc else .pwr) g gi p)) (hn : s.ukTraps e t (.p (if compl then .pwrc else .pwr) g gi p) = none)
    (hv : (if compl then cword (lowHalf (s.eReg e g)) else s.eReg e g) = w) :
    exec i s = .next (s.updEng e (fun y => { y with writes := y.writes ++ [(s.uPort e gi p, w)], pc := y.pc + 4, ran := y.ran + 2 })) := by
  subst hv
  refine (exec_live he hr).trans (congrArg _ ((ukRun_effect h hn).trans ?_))
  unfold State.ukNext State.pcNext
  rw [State.updEng_twice]
  rfl

/-- A port read that traps. -/
theorem ukPortRead_trap {checked : Bool} {live : Option Word} {c : TrapCause} (h : s.ukAt e = some (t, .p (if checked then .prdc else .prd) g gi p))
    (hc : s.ukTraps e t (.p (if checked then .prdc else .prd) g gi p) = some c) : s.ukPortRead e checked g gi p live = s.ukTrap e t (.p (if checked then .prdc else .prd) g gi p) c := ukRun_trap h hc

theorem ukTrap_prdc_cw : s.ukTrap e t (.p .prdc g gi p) .cw = (s.takeTrapI e t .cw true).raiseI 14 0 (portScope e t (s.uPort e gi p)) true := by
  unfold State.ukTrap
  dsimp only
  rw [if_pos rfl]

theorem ukTrap_prdc_port : s.ukTrap e t (.p .prdc g gi p) .port = s.takeTrap e t .port := by
  unfold State.ukTrap
  dsimp only
  rw [if_neg (by decide)]

/-- PRDC of a word that fails its complement check traps CW and raises CW_MISMATCH. -/
theorem ukTrap_prdc_cw_spec : ((s.ukTrap e t (.p .prdc g gi p) .cw).task (taskKey e t)).st = .trapped ∧ ((s.ukTrap e t (.p .prdc g gi p) .cw).task (taskKey e t)).trap = 6 ∧
    ((s.ukTrap e t (.p .prdc g gi p) .cw).fsrc (16 * 14)).status = true := by
  rw [ukTrap_prdc_cw]
  have own : ((s.takeTrapI e t .cw true).raiseI 14 0 (portScope e t (s.uPort e gi p)) true).task (taskKey e t) = _ :=
    (task_of (congrArg Le.tasks (State.alarmed_le (State.alarmed_raiseI (State.alarmed_refl _)))) _).trans (takeTrapI_task s e t .cw true)
  rw [own]
  exact ⟨rfl, rfl, State.raiseI_status _ 14 0 _ _⟩

end

/-! ## WAIT (R238, R240, R244, R245, R247) -/

/-- The check of a buffered write: a complemented word with its right value. -/
theorem writeOk_iff (w : Nat × Word) : writeOk w = true ↔
    (cwPort w.1 = true → w.2.extractLsb' 16 16 = ~~~(w.2.extractLsb' 0 16) ∧ ((∃ n, portObj w.1 = some (0, n, 8)) ∨ w.2.extractLsb' 0 16 = 1)) := by
  unfold writeOk
  rw [Bool.or_eq_true, Bool.and_eq_true, cwordOk_iff, Bool.not_eq_true', Bool.eq_false_iff, ← imp_iff_not_or]
  refine imp_congr_right fun _ => and_congr_right fun _ => ?_
  split
  · rename_i n h
    exact iff_of_true rfl (Or.inl ⟨n, h⟩)
  · rename_i h
    rw [decide_eq_true_iff, or_iff_right (fun hn => hn.elim fun n hn => h n hn)]
    rfl

theorem writes_all_iff (l : List (Nat × Word)) : l.all writeOk = true ↔
    ∀ w ∈ l, cwPort w.1 = true → w.2.extractLsb' 16 16 = ~~~(w.2.extractLsb' 0 16) ∧ ((∃ n, portObj w.1 = some (0, n, 8)) ∨ w.2.extractLsb' 0 16 = 1) := by
  rw [List.all_eq_true]
  exact forall₂_congr fun w _ => writeOk_iff w

section
variable {s : State} {e t : Nat}

theorem ukTraps_wait (h : (s.eng e).writes.all writeOk = true) : s.ukTraps e t .wait = none := if_pos h

theorem ukWait_late (h : s.ukAt e = some (t, .wait)) (hw : (s.eng e).writes.all writeOk = true) (hd : s.releaseDue (s.task (taskKey e t)) = true) : s.ukWait e = s :=
  (ukRun_effect h (ukTraps_wait hw)).trans (if_pos hd)

/-- The buffered writes of an engine, committed in order. -/
def committed (s : State) (e t : Nat) : State := (s.eng e).writes.foldl (fun b w => b.commitWrite e t w) s

/-- The end of a release whose writes have been committed. -/
def releaseEnded (u : State) (e t ran : Nat) : State :=
  (u.updEng e (fun x => { x with running := none, writes := [], ran := ran, pc := x.pc + 4 })).updTask (taskKey e t) (fun x => { x.longest ran with st := .waiting, consec := 0 })

theorem ukWait_ends (h : s.ukAt e = some (t, .wait)) (hw : (s.eng e).writes.all writeOk = true) (hd : s.releaseDue (s.task (taskKey e t)) = false)
    (hp : (committed s e t).pends (isTaskStop e t) = []) : s.ukWait e = releaseEnded (committed s e t) e t ((s.eng e).ran + 1) := by
  refine (ukRun_effect h (ukTraps_wait hw)).trans ((if_neg (by rw [hd]; decide)).trans (if_neg ?_))
  have hs : State.stopWaits (releaseEnded (committed s e t) e t ((s.eng e).ran + 1)) e t = false := by
    unfold State.stopWaits
    rw [show State.pends (releaseEnded (committed s e t) e t ((s.eng e).ran + 1)) (isTaskStop e t) = [] from hp]
    rfl
  exact (Bool.eq_false_iff.mp hs)

end

/-! ## Commitment of one write (R237, R249, R250) -/

section
variable (s : State) (e t : Nat) (w : Word) {n : Nat}

theorem commitWrite_out (h : n < 16) : s.commitWrite e t (0x20 + n, w) = s.updTask (taskKey e t) (fun x => { x with outs := x.outs.set 0 n w }) := by
  unfold State.commitWrite
  rw [if_pos (by dsimp only; omega)]
  dsimp only
  rw [Nat.add_sub_cancel_left]

theorem portObj_slot {k : Nat} (h : n < 256) (hk : k < 16) : portObj (0x1000 + k + 16 * n) = some (0, n, k) := by
  unfold portObj
  rw [if_pos (by omega), show (0x1000 + k + 16 * n - 0x1000) / 16 = n by omega, show (0x1000 + k + 16 * n) % 16 = k by omega]

theorem portObj_tx {k : Nat} (h : n < 32) (hk : k < 16) : portObj (0x2000 + k + 16 * n) = some (1, n, k) := by
  unfold portObj
  rw [if_neg (by omega), if_pos (by omega), show (0x2000 + k + 16 * n - 0x2000) / 16 = n by omega, show (0x2000 + k + 16 * n) % 16 = k by omega]

/-- A write above the task's own ports goes by the object of its address. -/
theorem commitWrite_request (h : n < 256) : s.commitWrite e t (0x1008 + 16 * n, w) = if (s.gain n).agcSrc then s.updGain n (fun g => { g with request := some (gainCode w) }) else s := by
  unfold State.commitWrite
  rw [if_neg (by dsimp only; omega), if_neg (by dsimp only; omega)]
  dsimp only
  rw [portObj_slot h (k := 8) (by decide)]
  rfl

theorem commitWrite_slotWinter (h : n < 256) : s.commitWrite e t (0x1009 + 16 * n, w) = s.winterSet n 9 (BitVec.ofNat 16 (0xE000 + 16 * (e - 64) + t)) := by
  unfold State.commitWrite
  rw [if_neg (by dsimp only; omega), if_neg (by dsimp only; omega)]
  dsimp only
  rw [portObj_slot h (k := 9) (by decide)]
  rfl

theorem commitWrite_chainWinter (h : n < 32) : s.commitWrite e t (0x2008 + 16 * n, w) = s.winterSet (objChain n) 9 (BitVec.ofNat 16 (0xE000 + 16 * (e - 64) + t)) := by
  unfold State.commitWrite
  rw [if_neg (by dsimp only; omega), if_neg (by dsimp only; omega)]
  dsimp only
  rw [portObj_tx h (k := 8) (by decide)]
  rfl

end

end Sys2Proof.Proofs
end

section
/-! SUPPORT. Control instructions, loop ports and WAIT, row by row (R232, R234, R237 to R240, R249, R250). -/

namespace Sys2Proof.Proofs

open Sys2Proof.Machine Sys2Proof.Laws

section
variable (s : State) (e : Nat) (r : Reg) (w : Word) (pc n : Nat)

/-- What a jump leaves: its link, its target and its times. -/
theorem linked_spec : s.onlyEng ((s.eSetReg e r w).ukNext e pc n) e ∧ (∀ x : Reg, ((s.eSetReg e r w).ukNext e pc n).eReg e x = if x = r ∧ r.val ≠ 0 then w else s.eReg e x) ∧
    ((s.eSetReg e r w).ukNext e pc n).eng e = { s.eng e with g := (((s.eSetReg e r w).ukNext e pc n).eng e).g, pc := pc, ran := (s.eng e).ran + n } := by
  have own := eSetReg_ukNext_eng s e r w pc n
  exact ⟨onlyEng_updEng (eSetReg_only s e r w), eReg_written s e r w (by rw [own]), by rw [own]⟩

end

section
variable {s : State} {e : Fin 128} {t : Nat}

/-- JAL: the link in G15, the target and its time. -/
theorem jal_spec {ofs : BitVec 26} (hr : s.runs) (h : s.ukAt e.val = some (t, .jal ofs)) : ∃ u, exec (.jal e ofs) s = .next u ∧ s.onlyEng u e.val ∧
    (∀ x : Reg, u.eReg e.val x = if x = 15 then BitVec.ofNat 32 ((s.eng e.val).pc + 4) else s.eReg e.val x) ∧
    ((u.eng e.val).pc : Int) = ((s.eng e.val).pc + 4 + 4 * ofs.toInt) % 2 ^ 32 ∧ u.eng e.val = { s.eng e.val with g := (u.eng e.val).g, pc := (u.eng e.val).pc, ran := (s.eng e.val).ran + 2 } := by
  have target : (0 : Int) ≤ ((s.pcNext e.val : Int) + 4 * ofs.toInt) % 2 ^ 32 := Int.emod_nonneg _ (by decide)
  obtain ⟨only, regs, own⟩ := linked_spec s e.val 15 (word (s.pcNext e.val)) (((s.pcNext e.val : Int) + 4 * ofs.toInt) % 2 ^ 32).toNat 2
  refine ⟨_, exec_jal hr h, only, fun x => (regs x).trans ?_, ?_, ?_⟩
  · simp only [and_iff_left (show (15 : Reg).val ≠ 0 by decide)]
    rfl
  · rw [own]
    exact Int.toNat_of_nonneg target
  · rw [own]

/-- JALR: the link, the target and its time. -/
theorem jalr_spec {gd ga : Reg} {imm : BitVec 18} (hr : s.runs) (h : s.ukAt e.val = some (t, .i .jalr gd ga imm)) (ha : (s.eReg e.val ga + imm.signExtend 32).toNat % 4 = 0) :
    ∃ u, exec (.jalr e gd ga imm) s = .next u ∧ s.onlyEng u e.val ∧ (∀ x : Reg, u.eReg e.val x = if x = gd ∧ gd.val ≠ 0 then BitVec.ofNat 32 ((s.eng e.val).pc + 4) else s.eReg e.val x) ∧
      u.eng e.val = { s.eng e.val with g := (u.eng e.val).g, pc := (s.eReg e.val ga + imm.signExtend 32).toNat, ran := (s.eng e.val).ran + 2 } :=
  ⟨_, exec_jalr hr h ha, linked_spec s e.val gd (word (s.pcNext e.val)) _ 2⟩

theorem exec_jalr_trap {gd ga : Reg} {imm : BitVec 18} (hr : s.runs) (h : s.ukAt e.val = some (t, .i .jalr gd ga imm)) (ha : (s.eReg e.val ga + imm.signExtend 32).toNat % 4 ≠ 0) :
    exec (.jalr e gd ga imm) s = .next (s.takeTrap e.val t .align) :=
  (exec_live (f := fun x => x.ukJalr e.val gd ga imm) rfl hr).trans (congrArg _ (ukRun_trap h (if_pos ha)))

theorem exec_wait (hr : s.runs) : exec (.wait e) s = .next (s.ukWait e.val) := exec_live (f := fun x => x.ukWait e.val) rfl hr

end

/-- The end of a release changes its task and its engine alone. -/
theorem releaseEnded_spec (u : State) (e t ran : Nat) : releaseEnded u e t ran = { u with le := (releaseEnded u e t ran).le } ∧ (∀ j, j ≠ taskKey e t → (releaseEnded u e t ran).task j = u.task j) ∧
    (releaseEnded u e t ran).task (taskKey e t) = { u.task (taskKey e t) with st := .waiting, consec := 0, maxrun := ((releaseEnded u e t ran).task (taskKey e t)).maxrun } ∧
    (u.task (taskKey e t)).maxrun ≤ ((releaseEnded u e t ran).task (taskKey e t)).maxrun ∧
    (releaseEnded u e t ran).eng e = { u.eng e with running := none, writes := [], ran := ran, pc := (u.eng e).pc + 4 } ∧ ∀ j, j ≠ e → (releaseEnded u e t ran).eng j = u.eng j := by
  have own : (releaseEnded u e t ran).task (taskKey e t) = { (u.task (taskKey e t)).longest ran with st := .waiting, consec := 0 } := State.task_updTask _ _ _
  refine ⟨rfl, fun j hj => State.task_updTask_ne _ _ _ _ (Ne.symm hj), ?_, ?_, (State.eng_updTask ..).trans (State.eng_updEng ..), fun j hj => (State.eng_updTask ..).trans (State.eng_updEng_ne _ _ _ _ (Ne.symm hj))⟩
  · rw [own]
    rfl
  · rw [own]
    exact le_max_left _ _

/-- Settles O46: branches and jumps move the PC, port accesses are register instructions or buffered writes, and WAIT commits the buffer; each traps as `State.ukTraps` says. -/
theorem controlAndPorts : Obligations.ControlAndPorts := by
  unfold Obligations.ControlAndPorts
  refine ⟨fun s e t n c ga gb ofs a b taken hr ha hb hn => ?branches, fun s e t gd ga ofs imm hr => ?jumps, fun s e t a g gi p live x v hr ha hx => ?ports, fun s e t u hr h hu => ?wait, fun s e t n w => ?commits⟩
  case branches =>
    subst ha hb
    and_intros <;> exact fun h ht => exec_branch rfl hr h (ht.trans decide_eq_true_iff.symm) hn
  case jumps =>
    exact ⟨jal_spec hr, jalr_spec hr, exec_jalr_trap hr, fun h => (exec_live (f := fun x => x.ukRun e.val .nop (fun _ a => a.ukNext e.val (a.pcNext e.val) 1)) rfl hr).trans (congrArg _ (ukRun_effect h rfl)),
      fun h => exec_traps rfl hr h rfl rfl⟩
  case ports =>
    subst ha hx
    refine ⟨fun h hm hv => ?_, fun h hm => ?_, fun h hm hv hc => ?_, fun h hm hv hc => ?_, fun h hm => ?_, fun h hm => ?_, fun h hm => ?_, fun h hm => ?_, fun h hm => ?_⟩
    · exact exec_portRead rfl hr h (if_pos hm) hv.symm
    · exact exec_traps rfl hr h (if_neg (Bool.eq_false_iff.mp hm)) rfl
    · subst hv
      exact exec_portRead rfl hr h ((ukTraps_prdc hm).trans (if_pos ((cwordOk_iff _).mpr hc))) rfl
    · subst hv
      have ht : s.ukTraps e.val t (.p .prdc g gi p) = some .cw := (ukTraps_prdc hm).trans (if_neg (mt (cwordOk_iff _).mp hc))
      exact ⟨_, (exec_live (f := fun x => x.ukPortRead e.val true g gi p none) rfl hr).trans (congrArg _ (ukPortRead_trap h ht)), ukTrap_prdc_cw_spec⟩
    · exact (exec_live (f := fun x => x.ukPortRead e.val true g gi p none) rfl hr).trans (congrArg _ ((ukPortRead_trap h (ukTraps_prdc_port hm)).trans ukTrap_prdc_port))
    · exact exec_portWrite rfl hr h (if_pos hm) rfl
    · exact exec_traps rfl hr h (if_neg (Bool.eq_false_iff.mp hm)) rfl
    · exact exec_portWrite rfl hr h (if_pos hm) rfl
    · exact exec_traps rfl hr h (if_neg (Bool.eq_false_iff.mp hm)) rfl
  case wait =>
    subst hu
    simp only [← writes_all_iff]
    refine ⟨fun hw => (exec_wait hr).trans (congrArg _ (ukRun_trap h (if_neg hw))), fun hw hd => (exec_wait hr).trans (congrArg _ (ukWait_late h hw hd)),
      fun hw hd hp => ⟨_, (exec_wait hr).trans (congrArg _ (ukWait_ends h hw hd hp)), releaseEnded_spec _ _ _ _⟩⟩
  case commits =>
    refine ⟨fun h => ?_, rfl, fun h hg => ?_, fun h hg => ?_, commitWrite_slotWinter s e t w, commitWrite_chainWinter s e t w⟩
    · rw [commitWrite_out s e t w h]
      exact ⟨State.task_updTask _ _ _, State.updTask_only _ _ _⟩
    · rw [commitWrite_request s e t w h, if_pos hg]
      exact ⟨State.updGain_only _ _ _, State.gain_updGain _ _ _⟩
    · rw [commitWrite_request s e t w h, if_neg (Bool.eq_false_iff.mp hg)]

end Sys2Proof.Proofs
end

section
/-! SUPPORT. Releases of tasks and the overrun rule (R243 to R245, R247). -/

namespace Sys2Proof.Proofs

open Sys2Proof.Machine Sys2Proof.Laws

section
variable {a b : State}

theorem eng_of (h : b.le.engs = a.le.engs) (j : Nat) : b.eng j = a.eng j := by unfold State.eng; rw [h]

theorem fsrc_of (h : b.flt.srcs = a.flt.srcs) (k : Nat) : b.fsrc k = a.fsrc k := by unfold State.fsrc; rw [h]

end

/-! ## A release on time (R243, R244) -/

/-- The task notes its release: its count, DTIME and the present. -/
def releaseNoted (s u : State) (k : Nat) : State := u.updTask k (fun x => { x with runs := (x.runs + 1) % 65536, relDt := s.dtime, lastRel := s.now, startId := none })

/-- A release as it is taken: on time, or as an overrun. -/
def releaseTaken (s : State) (e t : Nat) : State := releaseNoted s (if (s.task (taskKey e t)).st = .waiting then s.cleanRelease e t else s.overrun e t) (taskKey e t)

section
variable {s : State} {e t : Nat}

theorem taskRelease_idle (h : (s.task (taskKey e t)).st = .stopped ∨ (s.task (taskKey e t)).st = .trapped ∨ s.releaseDue (s.task (taskKey e t)) = false) : s.taskRelease e t = s :=
  if_pos (by simpa only [Bool.not_eq_true'] using h)

theorem taskRelease_due (hd : s.releaseDue (s.task (taskKey e t)) = true) (hs : (s.task (taskKey e t)).st ≠ .stopped) (ht : (s.task (taskKey e t)).st ≠ .trapped) :
    s.taskRelease e t = if (s.task (taskKey e t)).st = .running ∧ s.stopWaits e t then s.stopNow e t
      else match (s.task (taskKey e t)).startId with | some id => (releaseTaken s e t).completeId id .ok 0 0 | none => releaseTaken s e t := by
  have due : ¬ ((s.task (taskKey e t)).st = .stopped ∨ (s.task (taskKey e t)).st = .trapped ∨ (!s.releaseDue (s.task (taskKey e t))) = true) := by
    rw [hd]
    simp [hs, ht]
  exact (if_neg due).trans rfl

theorem taskRelease_none (hd : s.releaseDue (s.task (taskKey e t)) = true) (hw : (s.task (taskKey e t)).st = .waiting) (hi : (s.task (taskKey e t)).startId = none) :
    s.taskRelease e t = releaseNoted s (s.cleanRelease e t) (taskKey e t) := by
  rw [taskRelease_due hd (by rw [hw]; decide) (by rw [hw]; decide), if_neg (by rw [hw]; simp), hi]
  unfold releaseTaken
  rw [if_pos hw]

theorem taskRelease_started {id : Nat} (hd : s.releaseDue (s.task (taskKey e t)) = true) (hw : (s.task (taskKey e t)).st = .waiting) (hi : (s.task (taskKey e t)).startId = some id) :
    s.taskRelease e t = (releaseNoted s (s.cleanRelease e t) (taskKey e t)).completeId id .ok 0 0 := by
  rw [taskRelease_due hd (by rw [hw]; decide) (by rw [hw]; decide), if_neg (by rw [hw]; simp), hi]
  unfold releaseTaken
  rw [if_pos hw]

end

/-- A task READY after a release without an overrun. -/
def readied (x : Task) : Task := { x with st := .ready, good := x.good + 1 }

/-- An object is no longer held in OVERRUN by a task; where none else holds it, the cause is marked cleared. -/
def overDropped (k i : Nat) (a : State) : State :=
  let b := a.updObj i (fun o => { o with overBy := o.overBy.filter (fun j => decide (j ≠ k)) })
  if (b.wobj i).overBy = [] then b.clearCause i 12 else b

/-- The objects that a task is listed to hold in OVERRUN. -/
def overHeld (s : State) (k : Nat) : List Nat := (s.prot.objs.filter (fun o => o.2.overBy.contains k)).map (fun o => o.1)

section
variable {s : State} {e t : Nat}

theorem cleanRelease_first (h : (s.task (taskKey e t)).good = 0) : s.cleanRelease e t = s.updTask (taskKey e t) readied :=
  if_neg (by rw [State.task_updTask, h]; exact Nat.not_succ_le_self 1)

theorem cleanRelease_again (h : 1 ≤ (s.task (taskKey e t)).good) : s.cleanRelease e t = (s.updTask (taskKey e t) readied).each (overHeld s (taskKey e t)) (overDropped (taskKey e t)) :=
  if_pos (by rw [State.task_updTask]; exact Nat.succ_le_succ h)

/-- The release of a task on time, in its parts. -/
theorem releaseNoted_readied (k : Nat) : s.onlyTask (releaseNoted s (s.updTask k readied) k) k ∧
    (releaseNoted s (s.updTask k readied) k).task k =
      { s.task k with st := .ready, runs := ((s.task k).runs + 1) % 65536, relDt := s.dtime, lastRel := s.now, good := (s.task k).good + 1, startId := none } := by
  unfold releaseNoted
  rw [State.updTask_twice]
  exact ⟨State.updTask_only _ _ _, State.task_updTask _ _ _⟩

end

/-! ## The cause OVERRUN cleared (R245) -/

section
variable (k i : Nat) (a : State)

theorem overDropped_frame : overDropped k i a = { a with prot := { a.prot with objs := (overDropped k i a).prot.objs } } := by
  unfold overDropped State.clearCause
  dsimp only
  split
  · split <;> rfl
  · rfl

theorem overDropped_other {j : Nat} (h : j ≠ i) : (overDropped k i a).wobj j = a.wobj j := by
  have drop := State.wobj_updObj_ne a i j (fun o => { o with overBy := o.overBy.filter (fun j => decide (j ≠ k)) }) (Ne.symm h)
  unfold overDropped
  dsimp only
  split
  · exact ((State.clearCause_only _ i 12).2 j h).trans drop
  · exact drop

/-- The object itself: its causes stay, and one that no other task holds has OVERRUN marked cleared. -/
theorem overDropped_own : ((overDropped k i a).wobj i).cause = (a.wobj i).cause ∧ ((overDropped k i a).wobj i).overBy = (a.wobj i).overBy.filter (fun j => decide (j ≠ k)) ∧
    ((a.wobj i).cleared.getLsbD 12 = true → ((overDropped k i a).wobj i).cleared.getLsbD 12 = true) ∧
    ((a.wobj i).overBy.filter (fun j => decide (j ≠ k)) = [] → (a.wobj i).cause.getLsbD 12 = true → ((overDropped k i a).wobj i).cleared.getLsbD 12 = true) := by
  unfold overDropped State.clearCause
  dsimp only
  rw [State.wobj_updObj]
  dsimp only
  split
  · split
    · rw [State.wobj_updObj, State.wobj_updObj]
      exact ⟨rfl, rfl, fun _ => by simp, fun _ _ => by simp⟩
    · rw [State.wobj_updObj]
      exact ⟨rfl, rfl, id, fun _ hc => absurd hc ‹_›⟩
  · rw [State.wobj_updObj]
    exact ⟨rfl, rfl, id, fun he => absurd he ‹_›⟩

theorem overDropped_cause (j : Nat) : ((overDropped k i a).wobj j).cause = (a.wobj j).cause := by
  by_cases h : j = i
  · subst h
    exact (overDropped_own k j a).1
  · rw [overDropped_other k i a h]

end

/-- What a table reads at an index is listed, or is the default. -/
theorem mem_or_default {α : Type} (l : Tab α) (d : α) (i : Nat) : (i, l.get d i) ∈ l ∨ l.get d i = d := by
  induction l with
  | nil => exact Or.inr rfl
  | cons x r ih =>
    obtain ⟨k, v⟩ := x
    rw [Tab.get_cons]
    by_cases h : k = i
    · subst h
      rw [if_pos rfl]
      exact Or.inl List.mem_cons_self
    · rw [if_neg h]
      exact ih.imp (List.mem_cons_of_mem _) id

theorem wobjDefault_overBy (i : Nat) : (wobjDefault i).overBy = [] := by
  unfold wobjDefault
  exact ite_both (fun o : WObj => o.overBy = []) rfl rfl

theorem mem_overHeld {s : State} {i k : Nat} (h : (s.wobj i).overBy = [k]) : i ∈ overHeld s k := by
  have listed : (i, s.wobj i) ∈ s.prot.objs := (mem_or_default s.prot.objs (wobjDefault i) i).resolve_right (fun hd => by
    have e : (s.wobj i).overBy = [] := (congrArg WObj.overBy hd).trans (wobjDefault_overBy i)
    rw [h] at e
    exact absurd e (List.cons_ne_nil _ _))
  exact List.mem_map.mpr ⟨_, List.mem_filter.mpr ⟨listed, by dsimp only; rw [h]; simp⟩, rfl⟩

section
variable (k : Nat) (l : List Nat) (u : State)

theorem each_overDropped_frame : u.each l (overDropped k) = { u with prot := { u.prot with objs := (u.each l (overDropped k)).prot.objs } } :=
  each_keep (fun c => c = { u with prot := { u.prot with objs := c.prot.objs } }) _ (fun i c hc => by
    have step := overDropped_frame k i c
    obtain ⟨x, hx⟩ : ∃ x, c = { u with prot := { u.prot with objs := x } } := ⟨_, hc⟩
    obtain ⟨y, hy⟩ : ∃ y, overDropped k i c = { c with prot := { c.prot with objs := y } } := ⟨_, step⟩
    rw [hy, hx]) l u rfl

theorem each_overDropped_cause (j : Nat) : ((u.each l (overDropped k)).wobj j).cause = (u.wobj j).cause :=
  each_keep (fun c => (c.wobj j).cause = (u.wobj j).cause) _ (fun i c hc => (overDropped_cause k i c j).trans hc) l u rfl

/-- An object that the task alone holds in OVERRUN has the cause marked cleared. -/
theorem each_overDropped_clears {i : Nat} (hl : i ∈ l) (ho : (u.wobj i).overBy.filter (fun j => decide (j ≠ k)) = []) (hc : (u.wobj i).cause.getLsbD 12 = true) :
    ((u.each l (overDropped k)).wobj i).cleared.getLsbD 12 = true := by
  refine each_reach (fun c => (c.wobj i).overBy.filter (fun j => decide (j ≠ k)) = [] ∧ (c.wobj i).cause.getLsbD 12 = true) (fun c => (c.wobj i).cleared.getLsbD 12 = true) (overDropped k) l
    (fun m _ c hi => ?_) (fun m _ c _ hp => ?_) i hl (fun c hi => ?_) u ⟨ho, hc⟩
  · by_cases h : i = m
    · subst h
      obtain ⟨cause, left, _, _⟩ := overDropped_own k i c
      rw [cause, left, hi.1]
      exact ⟨rfl, hi.2⟩
    · rw [overDropped_other k m c h]
      exact hi
  · by_cases h : i = m
    · subst h
      obtain ⟨_, _, stays, _⟩ := overDropped_own k i c
      exact stays hp
    · rw [overDropped_other k m c h]
      exact hp
  · obtain ⟨_, _, _, clears⟩ := overDropped_own k i c
    exact clears hi.1 hi.2

end

end Sys2Proof.Proofs
end

section
/-! SUPPORT. Stops that wait, overruns, dispatch and traps (R231, R243 to R247). -/

namespace Sys2Proof.Proofs

open Sys2Proof.Machine Sys2Proof.Laws

/-! ## Stops (R247) -/

section
variable (s : State) (e t : Nat)

/-- A stop leaves the engines as the abandoned execution does. -/
theorem stopTask_eng (j : Nat) : (s.stopTask e t).eng j = (abandoned s e t).eng j := by
  unfold State.stopTask
  dsimp only
  rw [State.eng_updTask]
  split
  · exact eng_of (congrArg Le.engs ((kept_completeId _ _ _ _ _).le rfl)) j
  · rfl

theorem stopTask_libRunning : (s.stopTask e t).le.libRunning = s.le.libRunning := by
  have ran : (abandoned s e t).le.libRunning = s.le.libRunning := ite_both (fun u : State => u.le.libRunning = s.le.libRunning) rfl rfl
  unfold State.stopTask
  dsimp only
  rw [State.updTask_le_libRunning]
  split
  · exact (congrArg Le.libRunning ((kept_completeId _ _ _ _ _).le rfl)).trans ran
  · exact ran

/-- A stop that has waited leaves its task STOPPED, its engine idle and no stop of the task outstanding. -/
theorem stopNow_spec : ((s.stopNow e t).task (taskKey e t)).st = .stopped ∧ ((s.stopNow e t).task (taskKey e t)).ovr = (s.task (taskKey e t)).ovr ∧
    ((s.eng e).running = some t → ((s.stopNow e t).eng e).running = none) ∧ ∀ q ∈ (s.stopNow e t).hif.outstanding, isTaskStop e t q = false := by
  have kept : (s.stopNow e t).le = (s.stopTask e t).le := (kept_completeAll _ _ _).le rfl
  have own : (s.stopNow e t).task (taskKey e t) = { s.task (taskKey e t) with st := .stopped, startId := none } :=
    (task_of (congrArg Le.tasks kept) _).trans ((stopTask_task s e t _).trans (if_pos rfl))
  refine ⟨by rw [own], by rw [own], fun h => ?_, completeAll_none _ _ _⟩
  rw [eng_of (congrArg Le.engs kept), stopTask_eng, abandoned_eng s e t h]

end

section
variable {s : State} {e t : Nat}

theorem stopWaits_iff : s.stopWaits e t = true ↔ s.pends (isTaskStop e t) ≠ [] := by
  unfold State.stopWaits
  rw [Bool.not_eq_true', Bool.eq_false_iff, Ne, List.isEmpty_iff]

theorem taskRelease_stops (hd : s.releaseDue (s.task (taskKey e t)) = true) (hr : (s.task (taskKey e t)).st = .running) (hp : s.pends (isTaskStop e t) ≠ []) : s.taskRelease e t = s.stopNow e t := by
  rw [taskRelease_due hd (by rw [hr]; decide) (by rw [hr]; decide), if_pos ⟨hr, stopWaits_iff.mpr hp⟩]

end

/-! ## Overruns (R245) -/

/-- A task READY after an overrun. -/
def overrunNoted (x : Task) : Task :=
  { x with st := .ready, ovrCnt := satInc 0xFFFF x.ovrCnt, ovr := satInc 0xFFFFFFFF x.ovr, overrun := true, consec := min 3 (x.consec + 1), good := 0 }

/-- An overrun before what it raises: the execution abandoned, the task READY. -/
def overrunBase (s : State) (e t : Nat) : State := (abandoned s e t).updTask (taskKey e t) overrunNoted

/-- An object held in OVERRUN by a task. -/
def overHeldBy (k i : Nat) (a : State) : State := (a.winterSet i 12 0).updObj i (fun o => { o with overBy := if o.overBy.contains k then o.overBy else o.overBy ++ [k] })

section
variable (s : State) (e t : Nat)

theorem overrunBase_task : (overrunBase s e t).task (taskKey e t) = overrunNoted (s.task (taskKey e t)) :=
  (State.task_updTask _ _ _).trans (congrArg _ (abandoned_task s e t _))

/-- The second overrun in a row of a protection task raises its fault and holds its objects in WINTER; the third of another raises TASK_OVR. -/
theorem overrun_eq : s.overrun e t =
    if (s.task (taskKey e t)).prot = true ∧ min 3 ((s.task (taskKey e t)).consec + 1) = 2 then
      ((overrunBase s e t).raise 14 4 (.task e t)).each (s.task (taskKey e t)).scopeObjs (overHeldBy (taskKey e t))
    else if (!(s.task (taskKey e t)).prot) = true ∧ min 3 ((s.task (taskKey e t)).consec + 1) = 3 ∧ (s.task (taskKey e t)).consec = 2 then (overrunBase s e t).raiseOvr e t
    else overrunBase s e t := by
  have own := overrunBase_task s e t
  have eq : s.overrun e t =
      if ((overrunBase s e t).task (taskKey e t)).prot = true ∧ ((overrunBase s e t).task (taskKey e t)).consec = 2 then
        ((overrunBase s e t).raise 14 4 (.task e t)).each ((overrunBase s e t).task (taskKey e t)).scopeObjs (overHeldBy (taskKey e t))
      else if (!((overrunBase s e t).task (taskKey e t)).prot) = true ∧ ((overrunBase s e t).task (taskKey e t)).consec = 3 ∧ (s.task (taskKey e t)).consec = 2 then (overrunBase s e t).raiseOvr e t
      else overrunBase s e t := rfl
  rw [eq, own]
  rfl

/-- What an overrun raises leaves the engines and their tasks. -/
theorem overrun_le : (s.overrun e t).le = (overrunBase s e t).le := by
  have winters : Kept Part.alarms (overrunBase s e t) (((overrunBase s e t).raise 14 4 (.task e t)).each (s.task (taskKey e t)).scopeObjs (overHeldBy (taskKey e t))) :=
    Kept.each (Kept.raise (Kept.refl _ _)) (fun i b hb => Kept.updObj (Kept.winterSet hb))
  have fault : Kept Part.alarms (overrunBase s e t) ((overrunBase s e t).raiseOvr e t) := Kept.raiseOvr (Kept.refl _ _)
  rw [overrun_eq]
  exact ite_both (fun u : State => u.le = (overrunBase s e t).le) (winters.le rfl) (ite_both (fun u : State => u.le = (overrunBase s e t).le) (fault.le rfl) rfl)

theorem calm_overHeldBy {p : Tol} {a b : State} (k i : Nat) (h : Calm p a b) : Calm p a (overHeldBy k i b) := Calm.updObj (Calm.winterSet h) (fun _ _ h => h)

theorem overHeldBy_cause (k i : Nat) (a : State) : ((overHeldBy k i a).wobj i).cause.getLsbD 12 = true := by
  unfold overHeldBy
  rw [State.wobj_updObj]
  exact State.winterSet_cause a i 12 0 (by decide)

/-- The second overrun in a row of a protection task. -/
theorem overrun_protection (hp : (s.task (taskKey e t)).prot = true) (hc : (s.task (taskKey e t)).consec = 1) :
    ((s.overrun e t).fsrc (16 * 14 + 4)).status = true ∧ ∀ i ∈ (s.task (taskKey e t)).scopeObjs, ((s.overrun e t).wobj i).cause.getLsbD 12 = true := by
  rw [overrun_eq, if_pos ⟨hp, by rw [hc]; rfl⟩]
  refine ⟨?_, fun i hi => ?_⟩
  · exact (Calm.each (Calm.refl noTol _) (fun i b hb => calm_overHeldBy _ i hb)).stat rfl _ (State.raise_status _ 14 4 _)
  · exact each_once (fun c => (c.wobj i).cause.getLsbD 12 = true) _ (fun j c h => (calm_overHeldBy _ j (Calm.refl noTol c)).cause rfl i 12 h) _ i hi (fun c => overHeldBy_cause _ i c) _

theorem raiseOvr_status : ((s.raiseOvr e t).fsrc (16 * 14 + 3)).status = true := by
  unfold State.raiseOvr
  dsimp only
  generalize h : State.occurWith State.record _ (16 * 14 + 3) (.task e t) false = u
  have raised : (u.fsrc (16 * 14 + 3)).status = true := by
    rw [← h]
    exact State.occurWith_status _ _ _ _
  unfold State.fsrc at raised ⊢
  exact raised

/-- The third overrun in a row of another task. -/
theorem overrun_loop (hp : (s.task (taskKey e t)).prot = false) (hc : (s.task (taskKey e t)).consec = 2) : ((s.overrun e t).fsrc (16 * 14 + 3)).status = true := by
  rw [overrun_eq, if_neg (by rw [hp]; simp), if_pos ⟨by rw [hp]; rfl, by rw [hc]; rfl, hc⟩]
  exact raiseOvr_status _ e t

/-- An overrun with its release noted. -/
theorem overrunTaken_task : (releaseNoted s (s.overrun e t) (taskKey e t)).task (taskKey e t) = { s.task (taskKey e t) with
    st := .ready, ovrCnt := satInc 0xFFFF (s.task (taskKey e t)).ovrCnt, ovr := satInc 0xFFFFFFFF (s.task (taskKey e t)).ovr, overrun := true, consec := min 3 ((s.task (taskKey e t)).consec + 1), good := 0,
    runs := ((s.task (taskKey e t)).runs + 1) % 65536, relDt := s.dtime, lastRel := s.now, startId := none } := by
  unfold releaseNoted
  rw [State.task_updTask, task_of (congrArg Le.tasks (overrun_le s e t)), overrunBase_task]
  rfl

theorem overrunTaken_eng (h : (s.eng e).running = some t) : (releaseNoted s (s.overrun e t) (taskKey e t)).eng e = { s.eng e with running := none, writes := [] } := by
  unfold releaseNoted
  rw [State.eng_updTask, eng_of (congrArg Le.engs (overrun_le s e t))]
  exact abandoned_eng s e t h

end

section
variable {s : State} {e t : Nat}

/-- A release that finds its task READY or RUNNING is an overrun; the start that waits for its first release ends. -/
theorem taskRelease_overruns (hd : s.releaseDue (s.task (taskKey e t)) = true)
    (hs : (s.task (taskKey e t)).st = .ready ∨ ((s.task (taskKey e t)).st = .running ∧ s.pends (isTaskStop e t) = [])) :
    ∃ u, u = releaseNoted s (s.overrun e t) (taskKey e t) ∧ (s.taskRelease e t = u ∨ ∃ id, s.taskRelease e t = u.completeId id .ok 0 0) := by
  have live : (s.task (taskKey e t)).st = .ready ∨ (s.task (taskKey e t)).st = .running := hs.imp_right And.left
  have stays : ¬ ((s.task (taskKey e t)).st = .running ∧ s.stopWaits e t = true) := by
    rintro ⟨hr, hw⟩
    rcases hs with hs | hs
    · exact absurd (hr.symm.trans hs) (by decide)
    · exact stopWaits_iff.mp hw hs.2
  have taken : releaseTaken s e t = releaseNoted s (s.overrun e t) (taskKey e t) := by
    unfold releaseTaken
    rw [if_neg (by rcases live with h | h <;> rw [h] <;> decide)]
  refine ⟨_, rfl, ?_⟩
  rw [taskRelease_due hd (by rcases live with h | h <;> rw [h] <;> decide) (by rcases live with h | h <;> rw [h] <;> decide), if_neg stays, taken]
  cases hi : (s.task (taskKey e t)).startId with
  | none => exact Or.inl rfl
  | some id => exact Or.inr ⟨id, rfl⟩

/-- What the end of a descriptor leaves of a state: engines, tasks, the sources and the causes. -/
def endKept (u v : State) : Prop := v.le = u.le ∧ v.flt = u.flt ∧ v.prot = u.prot

theorem endKept_completeId (u : State) (id : Nat) (st : Status) : endKept u (u.completeId id st 0 0) :=
  ⟨(kept_completeId u id st 0 0).le rfl, (kept_completeId u id st 0 0).flt rfl, (kept_completeId u id st 0 0).prot rfl⟩

/-- An overrun in full: the task counts it and is READY again, its execution is abandoned, and what it raises stands. -/
theorem taskRelease_overrun_spec (hd : s.releaseDue (s.task (taskKey e t)) = true)
    (hs : (s.task (taskKey e t)).st = .ready ∨ ((s.task (taskKey e t)).st = .running ∧ s.pends (isTaskStop e t) = [])) :
    (s.taskRelease e t).task (taskKey e t) = { s.task (taskKey e t) with
      st := .ready, ovrCnt := satInc 0xFFFF (s.task (taskKey e t)).ovrCnt, ovr := satInc 0xFFFFFFFF (s.task (taskKey e t)).ovr, overrun := true, consec := min 3 ((s.task (taskKey e t)).consec + 1), good := 0,
      runs := ((s.task (taskKey e t)).runs + 1) % 65536, relDt := s.dtime, lastRel := s.now, startId := none } ∧
    ((s.eng e).running = some t → ((s.taskRelease e t).eng e).running = none ∧ ((s.taskRelease e t).eng e).writes = []) ∧
    ((s.task (taskKey e t)).prot = true → (s.task (taskKey e t)).consec = 1 → ((s.taskRelease e t).fsrc (16 * 14 + 4)).status = true ∧
      ∀ i ∈ (s.task (taskKey e t)).scopeObjs, ((s.taskRelease e t).wobj i).cause.getLsbD 12 = true) ∧
    ((s.task (taskKey e t)).prot = false → (s.task (taskKey e t)).consec = 2 → ((s.taskRelease e t).fsrc (16 * 14 + 3)).status = true) := by
  obtain ⟨u, hu, hv⟩ := taskRelease_overruns hd hs
  obtain ⟨le, flt, prot⟩ : endKept u (s.taskRelease e t) := by
    rcases hv with hv | ⟨id, hv⟩ <;> rw [hv]
    · exact ⟨rfl, rfl, rfl⟩
    · exact endKept_completeId u id .ok
  rw [task_of (congrArg Le.tasks le), eng_of (congrArg Le.engs le), fsrc_of (congrArg Flt.srcs flt), fsrc_of (congrArg Flt.srcs flt)]
  simp only [wobj_of (congrArg Prot.objs prot)]
  subst hu
  exact ⟨overrunTaken_task s e t, fun h => by rw [overrunTaken_eng s e t h]; exact ⟨rfl, rfl⟩, overrun_protection s e t, overrun_loop s e t⟩

end

end Sys2Proof.Proofs
end

section
/-! SUPPORT. Dispatch, traps and image loads (R230, R231, R243, R246, R248). -/

namespace Sys2Proof.Proofs

open Sys2Proof.Machine Sys2Proof.Laws

/-! ## Dispatch (R231, R243) -/

theorem pickTask_mem {l : List (Nat × Nat)} {x : Nat × Nat} (h : pickTask l = some x) : x ∈ l := by
  induction l generalizing x with
  | nil => exact absurd h (by simp [pickTask])
  | cons y r ih =>
    obtain ⟨t, p⟩ := y
    unfold pickTask at h
    split at h
    · rename_i u q hr
      split at h
      · obtain rfl := Option.some.inj h
        exact List.mem_cons_self
      · obtain rfl := Option.some.inj h
        exact List.mem_cons_of_mem _ (ih hr)
    · obtain rfl := Option.some.inj h
      exact List.mem_cons_self

/-- Of a list in rising order the entry of shortest period is picked, the lowest one of several. -/
theorem pickTask_least {l : List (Nat × Nat)} {t p : Nat} (hs : l.Pairwise (fun a b => a.1 < b.1)) (hm : (t, p) ∈ l) (hl : ∀ x ∈ l, p < x.2 ∨ (p = x.2 ∧ t ≤ x.1)) : pickTask l = some (t, p) := by
  induction l with
  | nil => exact absurd hm List.not_mem_nil
  | cons y r ih =>
    obtain ⟨a, b⟩ := y
    obtain ⟨above, hs⟩ := List.pairwise_cons.mp hs
    have least : ∀ x ∈ r, p < x.2 ∨ (p = x.2 ∧ t ≤ x.1) := fun x hx => hl x (List.mem_cons_of_mem _ hx)
    unfold pickTask
    rcases List.mem_cons.mp hm with hm | hm
    · obtain ⟨rfl, rfl⟩ := Prod.mk.inj hm
      split
      · rename_i u q hr
        have := least _ (pickTask_mem hr)
        rw [if_pos (by dsimp only at this; omega)]
      · rfl
    · rw [ih hs hm least]
      dsimp only
      have first := hl (a, b) List.mem_cons_self
      have after := above _ hm
      dsimp only at first after
      rw [if_neg (by omega)]

/-- The READY tasks of an engine with their periods. -/
def readyTasks (s : State) (e : Nat) : List (Nat × Nat) := ((List.range 8).filter (fun t => decide ((s.task (taskKey e t)).st = .ready))).map (fun t => (t, (s.task (taskKey e t)).period))

section
variable {s : State} {e : Nat}

theorem mem_readyTasks {x : Nat × Nat} : x ∈ readyTasks s e ↔ x.1 < 8 ∧ (s.task (taskKey e x.1)).st = .ready ∧ x.2 = (s.task (taskKey e x.1)).period := by
  unfold readyTasks
  simp only [List.mem_map, List.mem_filter, List.mem_range, decide_eq_true_eq]
  constructor
  · rintro ⟨t, ⟨ht, hr⟩, rfl⟩
    exact ⟨ht, hr, rfl⟩
  · rintro ⟨ht, hr, hp⟩
    exact ⟨x.1, ⟨ht, hr⟩, Prod.ext rfl hp.symm⟩

theorem readyTasks_sorted : (readyTasks s e).Pairwise (fun a b => a.1 < b.1) := List.pairwise_map.mpr (List.pairwise_lt_range.filter _)

/-- The registers a task starts with: G13 its index, G14 the top of data memory, the others 0. -/
def startRegs (t : Nat) : Tab Word := (Tab.set [] (0 : Word) 13 (word t)).set 0 14 0x8000

/-- An engine that begins a task. -/
def begun (x : Eng) (entry t : Nat) : Eng := { x with running := some t, pc := 4 * (x.entries.getD entry (0, 0)).2, ran := 0, writes := [], v := [], g := startRegs t }

theorem taskDispatch_idle (h : (s.eng e).running ≠ none ∨ ∀ t, t < 8 → (s.task (taskKey e t)).st ≠ .ready) : s.taskDispatch e = s := by
  by_cases hr : (s.eng e).running ≠ none
  · exact if_pos hr
  · have none_ready : readyTasks s e = [] := List.eq_nil_iff_forall_not_mem.mpr (fun x hx => by
      obtain ⟨ht, hr', _⟩ := mem_readyTasks.mp hx
      exact (h.resolve_left hr) x.1 ht hr')
    unfold readyTasks at none_ready
    unfold State.taskDispatch
    rw [if_neg hr, none_ready]
    rfl

theorem taskDispatch_starts {t : Nat} (hn : (s.eng e).running = none) (ht : t < 8) (hr : (s.task (taskKey e t)).st = .ready)
    (hl : ∀ j, j < 8 → (s.task (taskKey e j)).st = .ready → (s.task (taskKey e t)).period < (s.task (taskKey e j)).period ∨ ((s.task (taskKey e t)).period = (s.task (taskKey e j)).period ∧ t ≤ j)) :
    s.taskDispatch e = (s.updEng e (fun x => begun x (s.task (taskKey e t)).entry t)).updTask (taskKey e t) (fun x => { x with st := .running }) := by
  have picked : pickTask (readyTasks s e) = some (t, (s.task (taskKey e t)).period) := by
    refine pickTask_least readyTasks_sorted (mem_readyTasks.mpr ⟨ht, hr, rfl⟩) (fun x hx => ?_)
    obtain ⟨hj, hrj, hp⟩ := mem_readyTasks.mp hx
    rw [hp]
    exact hl x.1 hj hrj
  unfold readyTasks at picked
  unfold State.taskDispatch
  rw [if_neg (not_not.mpr hn), picked]
  rfl

theorem eReg_begun {a : State} {t : Nat} (h : (a.eng e).g = startRegs t) (r : Reg) : a.eReg e r = if r = 13 then BitVec.ofNat 32 t else if r = 14 then 0x8000 else 0 := by
  have index : ∀ n : Reg, n.val = r.val ↔ r = n := fun n => ⟨fun h => Fin.ext h.symm, fun h => h ▸ rfl⟩
  unfold State.eReg
  rw [h]
  unfold startRegs
  rw [Tab.get_set, Tab.get_set]
  simp only [show (14 = r.val) = (r = 14) from propext (index 14), show (13 = r.val) = (r = 13) from propext (index 13), Tab.get_nil]
  by_cases h14 : r = 14
  · subst h14
    rfl
  · by_cases h13 : r = 13
    · subst h13
      rfl
    · rw [if_neg h14, if_neg h13, if_neg h13, if_neg h14, ite_self]

/-- What a dispatch leaves. -/
theorem begun_spec (s : State) (e t k : Nat) (u : State) (hu : u = (s.updEng e (fun x => begun x (s.task k).entry t)).updTask k (fun x => { x with st := .running })) :
    u = { s with le := u.le } ∧ (∀ j, j ≠ k → u.task j = s.task j) ∧ (∀ j, j ≠ e → u.eng j = s.eng j) ∧ u.task k = { s.task k with st := .running } ∧
    u.eng e = { s.eng e with running := some t, pc := 4 * ((s.eng e).entries.getD (s.task k).entry (0, 0)).2, ran := 0, writes := [], v := [], g := (u.eng e).g } ∧
    (∀ r : Reg, u.eReg e r = if r = 13 then BitVec.ofNat 32 t else if r = 14 then 0x8000 else 0) := by
  have own : u.eng e = begun (s.eng e) (s.task k).entry t := by
    rw [hu, State.eng_updTask, State.eng_updEng]
  refine ⟨?_, fun j hj => ?_, fun j hj => ?_, ?_, ?_, eReg_begun (by rw [own]; rfl)⟩
  · rw [hu]
    rfl
  · rw [hu, State.task_updTask_ne _ _ _ _ (Ne.symm hj), State.task_updEng]
  · rw [hu, State.eng_updTask, State.eng_updEng_ne _ _ _ _ (Ne.symm hj)]
  · rw [hu, State.task_updTask, State.task_updEng]
  · rw [own]
    rfl

end

/-! ## Traps (R246) -/

section
variable {s : State} {e t : Nat} {c : TrapCause}

theorem taskTrap_none (hc : c ≠ .mem) (hn : (s.eng e).running = none) : s.taskTrap e c = s := by
  unfold State.taskTrap
  rw [if_neg hc]
  dsimp only
  rw [hn]

theorem taskTrap_outside (hr : (s.eng e).running = some t) (hp : 4 * (s.eng e).ninstr ≤ (s.eng e).pc) (hc : c ≠ .mem) : s.taskTrap e c = if c = .iaddr then s.takeTrap e t c else s := by
  unfold State.taskTrap
  rw [if_neg hc]
  dsimp only
  rw [hr]
  exact if_pos hp

theorem taskTrap_undefined (hr : (s.eng e).running = some t) (hp : (s.eng e).pc < 4 * (s.eng e).ninstr) (hd : uDecode ((s.eng e).imem.get 0 ((s.eng e).pc / 4)).toNat = none) (hc : c ≠ .mem) :
    s.taskTrap e c = if c = .illegal then s.takeTrap e t c else s := by
  unfold State.taskTrap
  rw [if_neg hc]
  dsimp only
  rw [hr]
  dsimp only
  rw [if_neg (Nat.not_le.mpr hp), hd]

theorem taskTrap_decoded {u : UIns} (hr : (s.eng e).running = some t) (hp : (s.eng e).pc < 4 * (s.eng e).ninstr) (hd : uDecode ((s.eng e).imem.get 0 ((s.eng e).pc / 4)).toNat = some u)
    (hc : c ≠ .mem) : s.taskTrap e c = if s.ukTraps e t u = some c then s.ukTrap e t u c else s := by
  unfold State.taskTrap
  rw [if_neg hc]
  dsimp only
  rw [hr]
  dsimp only
  rw [if_neg (Nat.not_le.mpr hp), hd]

end

theorem dataTrap_ne_iaddr (a n : Nat) : dataTrap a n ≠ some .iaddr := by
  unfold dataTrap
  split_ifs <;> exact nofun

/-- No instruction traps with the cause of an address outside its image. -/
theorem ukTraps_ne_iaddr (s : State) (e t : Nat) (u : UIns) : s.ukTraps e t u ≠ some .iaddr := by
  have either : ∀ (p : Prop) [Decidable p] (a b : Option TrapCause), a ≠ some .iaddr → b ≠ some .iaddr → (if p then a else b) ≠ some .iaddr :=
    fun p _ a b ha hb => ite_both (fun x => x ≠ some TrapCause.iaddr) ha hb
  cases u with
  | i op gd ga imm =>
    cases op with
    | ldw | stw | ldh | sth => exact dataTrap_ne_iaddr _ _
    | jalr => exact either _ _ _ nofun nofun
    | addi | andi | ori | xori | slti => exact nofun
  | p op g gi a =>
    cases op with
    | prd | pwr | pwrc => exact either _ _ _ nofun nofun
    | prdc => exact either _ _ _ nofun (either _ _ _ nofun nofun)
  | vld vd ga imm | vst vd ga imm => exact dataTrap_ne_iaddr _ _
  | wait => exact either _ _ _ nofun nofun
  | trap | nop => exact nofun
  | r | r1 | lui | sh | b | jal | v | v1 | vshx | vext | vins => exact nofun

theorem taskTrap_inside (s : State) (e t : Nat) (hr : (s.eng e).running = some t) (hp : (s.eng e).pc < 4 * (s.eng e).ninstr) : s.taskTrap e .iaddr = s := by
  cases hd : uDecode ((s.eng e).imem.get 0 ((s.eng e).pc / 4)).toNat with
  | none => rw [taskTrap_undefined hr hp hd (by decide), if_neg (by decide)]
  | some u => rw [taskTrap_decoded hr hp hd (by decide), if_neg (ukTraps_ne_iaddr s e t u)]

theorem takeTrap_eq (s : State) (e t : Nat) (c : TrapCause) : s.takeTrap e t c = (trapped s e t c).raiseI 14 (if e < 64 then 5 else 6) (.task e t) false := takeTrapI_eq s e t c false

/-- What a trap leaves: its task and its engine, and what the fault raised may change. -/
theorem takeTrap_spec (s : State) (e t : Nat) (c : TrapCause) :
    (s.takeTrap e t c).task (taskKey e t) = { s.task (taskKey e t) with st := .trapped, trap := trapCode c } ∧
    ((s.eng e).running = some t → ((s.takeTrap e t c).eng e).running = none ∧ ((s.takeTrap e t c).eng e).writes = []) ∧ (∀ j, j ≠ e → (s.takeTrap e t c).eng j = s.eng j) ∧
    (∀ j, j ≠ taskKey e t → (s.takeTrap e t c).task j = s.task j) ∧ ((s.takeTrap e t c).fsrc (16 * 14 + if e < 64 then 5 else 6)).status = true ∧
    ({ s with le := (s.takeTrap e t c).le } : State).alarmed (s.takeTrap e t c) := by
  have le : (s.takeTrap e t c).le = (trapped s e t c).le := takeTrapI_le s e t c false
  have engs : ∀ j, (s.takeTrap e t c).eng j = (abandoned s e t).eng j := fun j => (eng_of (congrArg Le.engs le) j).trans (State.eng_updTask ..)
  refine ⟨takeTrapI_task s e t c false, fun h => ?_, fun j hj => (engs j).trans (abandoned_eng_other s e t hj), fun j hj => ?_, ?_, ?_⟩
  · rw [engs, abandoned_eng s e t h]
    exact ⟨rfl, rfl⟩
  · rw [task_of (congrArg Le.tasks le)]
    exact (State.task_updTask_ne _ _ _ _ (Ne.symm hj)).trans (abandoned_task s e t j)
  · rw [takeTrap_eq]
    exact State.raiseI_status _ _ _ _ _
  · have base : ({ s with le := (s.takeTrap e t c).le } : State) = trapped s e t c := by
      have frame := abandoned_frame s e t
      rw [le]
      unfold trapped
      conv => rhs; rw [frame]
      rfl
    rw [base]
    rw [takeTrap_eq]
    exact State.alarmed_raiseI (State.alarmed_refl _)

/-! ## Image loads (R230, R248) -/

section
variable {α : Type} [DecidableEq α]

/-- Values numbered from k, the default left out: no index below k is listed, and index k + j reads value j. -/
theorem numbered_get (d : α) (l : List α) (k : Nat) :
    (∀ x ∈ ((List.range' k l.length).zip l).filter (fun e => decide (e.2 ≠ d)), k ≤ x.1) ∧ ∀ j, Tab.get (((List.range' k l.length).zip l).filter (fun e => decide (e.2 ≠ d))) d (k + j) = l.getD j d := by
  induction l generalizing k with
  | nil => exact ⟨fun x hx => absurd hx List.not_mem_nil, fun j => rfl⟩
  | cons v r ih =>
    obtain ⟨above, reads⟩ := ih (k + 1)
    rw [List.length_cons, List.range'_succ, List.zip_cons_cons, List.filter_cons]
    have tail : ∀ j, Tab.get (((List.range' (k + 1) r.length).zip r).filter (fun e => decide (e.2 ≠ d))) d (k + (j + 1)) = r.getD j d := fun j => by
      rw [show k + (j + 1) = k + 1 + j by omega]
      exact reads j
    have absent : Tab.get (((List.range' (k + 1) r.length).zip r).filter (fun e => decide (e.2 ≠ d))) d k = d := Tab.get_absent _ _ _ (fun x hx => by
      have := above x hx
      omega)
    by_cases h : v = d
    · subst h
      rw [if_neg (by simp)]
      refine ⟨fun x hx => Nat.le_of_succ_le (above x hx), fun j => ?_⟩
      cases j with
      | zero => exact absent
      | succ j => exact tail j
    · rw [if_pos (by simp [h])]
      refine ⟨fun x hx => ?_, fun j => ?_⟩
      · rcases List.mem_cons.mp hx with rfl | hx
        · exact Nat.le_refl k
        · exact Nat.le_of_succ_le (above x hx)
      · rw [Tab.get_cons]
        cases j with
        | zero => exact if_pos rfl
        | succ j => exact (if_neg (by omega)).trans (tail j)

theorem tabOf_get (d : α) (l : List α) (j : Nat) : (tabOf d l).get d j = l.getD j d := by
  have reads := (numbered_get d l 0).2 j
  rw [Nat.zero_add, ← List.range_eq_range'] at reads
  exact reads

end

/-- What a load leaves of its engine is the image's alone. -/
theorem load_load (x : Eng) (ws : List Word) : (x.load ws).load ws = x.load ws := rfl

/-- An engine's image by its words. -/
theorem load_spec (x : Eng) (ws : List Word) (n j : Nat) (ht : imgText ws = 4 * n) :
    (x.load ws).loaded = true ∧ (x.load ws).imgId = ws.getD 3 0 ∧ (x.load ws).ninstr = n ∧ (j < n → (x.load ws).imem.get 0 j = ws.getD (16 + j) 0) ∧ (x.load ws).vsat = false := by
  have count : imgText ws / 4 = n := by omega
  refine ⟨rfl, rfl, count, fun hj => ?_, rfl⟩
  have text : (x.load ws).imem = tabOf 0 ((ws.drop 16).take n) := by
    unfold Eng.load
    rw [count]
  rw [text, tabOf_get, List.getD_eq_getElem?_getD, List.getElem?_take_of_lt hj, List.getElem?_drop, List.getD_eq_getElem?_getD]

/-- The image written to one engine: both its memories are correctly coded again. -/
def imageWritten (ws : List Word) (e : Nat) (a : State) : State := ((a.updEng e (fun x => x.load ws)).memWritten (testBase 14 e 5)).memWritten (testBase 14 e 6)

/-- The engines of a load. -/
def loadedRange (first count : Nat) : List Nat := (List.range count).map (fun k => first + k)

theorem mem_loadedRange {first count k : Nat} : k ∈ loadedRange first count ↔ first ≤ k ∧ k < first + count := by
  unfold loadedRange
  simp only [List.mem_map, List.mem_range]
  constructor
  · rintro ⟨j, hj, rfl⟩
    omega
  · rintro ⟨h1, h2⟩
    exact ⟨k - first, by omega, by omega⟩

section
variable (s : State) (ws : List Word) (l : List Nat)

/-- Images written to several engines. -/
def imagesWritten (s : State) (ws : List Word) (l : List Nat) : State := s.each l (imageWritten ws)

theorem memWritten_eng (a : State) (b j : Nat) : (a.memWritten b).eng j = a.eng j := rfl

theorem imageWritten_own (e : Nat) (a : State) : (imageWritten ws e a).eng e = (a.eng e).load ws := by
  unfold imageWritten
  rw [memWritten_eng, memWritten_eng, State.eng_updEng]

theorem imageWritten_other {e j : Nat} (a : State) (h : j ≠ e) : (imageWritten ws e a).eng j = a.eng j := by
  unfold imageWritten
  rw [memWritten_eng, memWritten_eng, State.eng_updEng_ne _ _ _ _ (Ne.symm h)]

/-- From s to c at most the loop engines, not their tasks, and the marks of coded words have changed. -/
def imagesOnly (s c : State) : Prop := c = { s with le := c.le, flt := { s.flt with poisoned := c.flt.poisoned, flipped := c.flt.flipped } } ∧ c.le.tasks = s.le.tasks

theorem imagesOnly_memWritten {s c : State} (b : Nat) (h : imagesOnly s c) : imagesOnly s (c.memWritten b) := by
  obtain ⟨hc, tasks⟩ := h
  obtain ⟨x, y, z, rfl⟩ : ∃ x y z, c = { s with le := x, flt := { s.flt with poisoned := y, flipped := z } } := ⟨_, _, _, hc⟩
  exact ⟨rfl, tasks⟩

theorem imagesOnly_updEng {s c : State} (e : Nat) (f : Eng → Eng) (h : imagesOnly s c) : imagesOnly s (c.updEng e f) := by
  obtain ⟨hc, tasks⟩ := h
  obtain ⟨x, y, z, rfl⟩ : ∃ x y z, c = { s with le := x, flt := { s.flt with poisoned := y, flipped := z } } := ⟨_, _, _, hc⟩
  exact ⟨rfl, tasks⟩

theorem imagesWritten_only : imagesOnly s (imagesWritten s ws l) :=
  each_keep (imagesOnly s) (imageWritten ws) (fun _ _ hc => imagesOnly_memWritten _ (imagesOnly_memWritten _ (imagesOnly_updEng _ _ hc))) l s ⟨rfl, rfl⟩

theorem imagesWritten_listed {k : Nat} (h : k ∈ l) : (imagesWritten s ws l).eng k = (s.eng k).load ws := by
  refine each_reach (fun c => (c.eng k).load ws = (s.eng k).load ws) (fun c => c.eng k = (s.eng k).load ws) (imageWritten ws) l (fun i _ c hc => ?_) (fun i _ c _ hp => ?_) k h
    (fun c hc => (imageWritten_own ws k c).trans hc) s rfl
  · by_cases hk : k = i
    · subst hk
      rw [imageWritten_own, load_load, hc]
    · rw [imageWritten_other ws c hk, hc]
  · by_cases hk : k = i
    · subst hk
      rw [imageWritten_own, hp, load_load]
    · rw [imageWritten_other ws c hk, hp]

theorem imagesWritten_other {k : Nat} (h : k ∉ l) : (imagesWritten s ws l).eng k = s.eng k :=
  each_keep_mem (fun c => c.eng k = s.eng k) (imageWritten ws) l (fun i hi c hc => (imageWritten_other ws c (fun e : k = i => h (by rw [e]; exact hi))).trans hc) s rfl

end

theorem loadEnd_idle {s : State} (h : s.pends isImageLoad = []) : s.loadEnd = s := by
  unfold State.loadEnd
  rw [h]
  rfl

/-- The oldest load: its engines are written and it completes; a library load places the library. -/
theorem loadEnd_oldest {s : State} {p : Pend} {first count : Byte} {len : Word} {addr : Word64} {ws : List Word} (hp : (s.pends isImageLoad).head? = some p)
    (hd : p.desc = .leImageLoad first count len addr (.words ws)) : s.loadEnd = if s.now ≤ p.acc then s else
      if first.toNat = 4 then ((imagesWritten s ws (loadedRange first.toNat count.toNat)).complete p .ok 0 0).libPlace else (imagesWritten s ws (loadedRange first.toNat count.toNat)).complete p .ok 0 0 := by
  unfold State.loadEnd
  rw [hp]
  dsimp only
  rw [hd]
  rfl

theorem libAgcSync_libRunning (s : State) (n : Nat) : (s.libAgcSync n).le.libRunning = s.le.libRunning := by
  unfold State.libAgcSync
  dsimp only
  split
  · split <;> rfl
  · split
    · rfl
    · exact stopTask_libRunning _ _ _

/-- A library that is placed runs (R248). -/
theorem libPlace_runs (s : State) : s.libPlace.le.libRunning = true := by
  unfold State.libPlace
  dsimp only
  rw [(Kept.capAll (p := { gcl := true }) (Kept.refl _ _)).le rfl]
  exact each_keep (fun c => c.le.libRunning = true) _ (fun n c hc => (libAgcSync_libRunning c n).trans hc) _ _ rfl

end Sys2Proof.Proofs
end

section
/-! SUPPORT and the settlement of O47: the schedule of tasks (R230, R231, R243 to R248). -/

namespace Sys2Proof.Proofs

open Sys2Proof.Machine Sys2Proof.Laws

section
variable {s : State} {e : Fin 128} {t : Fin 8}

theorem exec_taskRelease (hr : s.runs) : exec (.taskRelease e t) s = .next (s.taskRelease e.val t.val) := exec_live (f := fun x => x.taskRelease e.val t.val) rfl hr

theorem exec_taskDispatch (hr : s.runs) : exec (.taskDispatch e) s = .next (s.taskDispatch e.val) := exec_live (f := fun x => x.taskDispatch e.val) rfl hr

theorem exec_taskTrap {c : TrapCause} (hr : s.runs) : exec (.taskTrap e c) s = .next (s.taskTrap e.val c) := exec_live (f := fun x => x.taskTrap e.val c) rfl hr

theorem exec_leLoadEnd (hr : s.runs) : exec .leLoadEnd s = .next s.loadEnd := exec_live (f := fun x => x.loadEnd) rfl hr

end

theorem taskTrap_mem (s : State) (e : Nat) : s.taskTrap e .mem = s.memTrap e := by
  unfold State.taskTrap
  rw [if_pos rfl]

section
variable (s : State) (e t : Nat)

/-- The first release on time after an overrun or a start. -/
theorem firstRelease_spec (h : (s.task (taskKey e t)).good = 0) :
    s.onlyTask (releaseNoted s (s.cleanRelease e t) (taskKey e t)) (taskKey e t) ∧
    (releaseNoted s (s.cleanRelease e t) (taskKey e t)).task (taskKey e t) =
      { s.task (taskKey e t) with st := .ready, runs := ((s.task (taskKey e t)).runs + 1) % 65536, relDt := s.dtime, lastRel := s.now, good := 1, startId := none } := by
  obtain ⟨only, own⟩ := releaseNoted_readied (s := s) (taskKey e t)
  rw [h] at own
  rw [cleanRelease_first h]
  exact ⟨only, own⟩

/-- A release on time after another on time: the objects that the task alone holds in OVERRUN have the cause marked cleared. -/
theorem laterRelease_spec (h : 1 ≤ (s.task (taskKey e t)).good) (u : State) (hu : u = releaseNoted s (s.cleanRelease e t) (taskKey e t)) :
    u = { s with le := { s.le with tasks := u.le.tasks }, prot := { s.prot with objs := u.prot.objs } } ∧
    u.task (taskKey e t) =
      { s.task (taskKey e t) with st := .ready, runs := ((s.task (taskKey e t)).runs + 1) % 65536, relDt := s.dtime, lastRel := s.now, good := (s.task (taskKey e t)).good + 1, startId := none } ∧
    (∀ i, (u.wobj i).cause = (s.wobj i).cause) ∧
    ∀ i, (s.wobj i).overBy = [taskKey e t] → (s.wobj i).cause.getLsbD 12 = true → (u.wobj i).cleared.getLsbD 12 = true := by
  rw [cleanRelease_again h] at hu
  have frame := each_overDropped_frame (taskKey e t) (overHeld s (taskKey e t)) (s.updTask (taskKey e t) readied)
  have cause := each_overDropped_cause (taskKey e t) (overHeld s (taskKey e t)) (s.updTask (taskKey e t) readied)
  have clears := fun i => each_overDropped_clears (taskKey e t) (overHeld s (taskKey e t)) (s.updTask (taskKey e t) readied) (i := i)
  generalize (s.updTask (taskKey e t) readied).each (overHeld s (taskKey e t)) (overDropped (taskKey e t)) = c at hu frame cause clears
  have objs : u.prot.objs = c.prot.objs := by
    rw [hu]
    rfl
  have ready : c.task (taskKey e t) = readied (s.task (taskKey e t)) := (task_of (congrArg (fun a : State => a.le.tasks) frame) _).trans (State.task_updTask ..)
  refine ⟨?_, ?_, fun i => ?_, fun i ho hc => ?_⟩
  · rw [hu]
    unfold releaseNoted
    rw [frame]
    rfl
  · rw [hu]
    unfold releaseNoted
    rw [State.task_updTask, ready]
    rfl
  · rw [wobj_of objs]
    exact cause i
  · rw [wobj_of objs]
    exact clears i (mem_overHeld ho) (by
      show (s.wobj i).overBy.filter _ = []
      rw [ho]
      simp) hc

end

/-- The oldest image load, once it is due. -/
theorem loadEnd_spec {s : State} {p : Pend} {first count : Byte} {len : Word} {addr : Word64} {ws : List Word} (hp : (s.pends isImageLoad).head? = some p)
    (hd : p.desc = .leImageLoad first count len addr (.words ws)) (hn : p.acc < s.now) :
    ∃ u v : State, s.loadEnd = (if first.toNat = 4 then v.libPlace else v) ∧ v = u.complete p .ok 0 0 ∧
      u = { s with le := u.le, flt := { s.flt with poisoned := u.flt.poisoned, flipped := u.flt.flipped } } ∧ u.le.tasks = s.le.tasks ∧
      (∀ k, first.toNat ≤ k → k < first.toNat + count.toNat → u.eng k = (s.eng k).load ws) ∧ (∀ k, k < first.toNat ∨ first.toNat + count.toNat ≤ k → u.eng k = s.eng k) ∧ (v.libPlace).le.libRunning = true := by
  obtain ⟨only, tasks⟩ := imagesWritten_only s ws (loadedRange first.toNat count.toNat)
  refine ⟨imagesWritten s ws (loadedRange first.toNat count.toNat), _, (loadEnd_oldest hp hd).trans (if_neg (Nat.not_le.mpr hn)), rfl, only, tasks, fun k h1 h2 => ?_, fun k hk => ?_, libPlace_runs _⟩
  · exact imagesWritten_listed s ws _ (mem_loadedRange.mpr ⟨h1, h2⟩)
  · refine imagesWritten_other s ws _ (fun hm => ?_)
    obtain ⟨h1, h2⟩ := mem_loadedRange.mp hm
    omega

/-- Settles O47: the rules of the schedule, one for each way a release, a dispatch, a trap and the end of a load can go. -/
theorem taskSchedule : Obligations.TaskSchedule := by
  unfold Obligations.TaskSchedule
  refine ⟨fun s e t hr h => ?idle, fun s e t x hr hx hd hw hi hg => ?first, fun s e t x hr hx hd hw hi hg => ?later, fun s e t x id hr hx hd hw hi hg => ?started,
    fun s e t x hr hx hd hs hp => ?stops, fun s e t x hr hx hd hs => ?overruns, fun s e hr h => ?noDispatch, fun s e t x hr hn ht hx hs hl => ?dispatch,
    fun s e hr => ?trapIdle, fun s e t hr hn => ?traps, fun s e t c => ?trapTaken, fun s hr h => ?noLoad, fun s p first count len addr ws hr hp hd _ => ?loadEnds, fun x ws n j ht _ => load_spec x ws n j ht⟩
  case idle => exact (exec_taskRelease hr).trans (congrArg _ (taskRelease_idle h))
  case first =>
    subst hx
    obtain ⟨only, own⟩ := firstRelease_spec s e.val t.val hg
    refine ⟨_, (exec_taskRelease hr).trans (congrArg _ (taskRelease_none hd hw hi)), only, own.trans ?_⟩
    rw [← hi]
  case later =>
    subst hx
    obtain ⟨frame, own, causes, clears⟩ := laterRelease_spec s e.val t.val hg _ rfl
    refine ⟨_, (exec_taskRelease hr).trans (congrArg _ (taskRelease_none hd hw hi)), frame, own.trans ?_, causes, clears⟩
    rw [← hi]
  case started =>
    subst hx
    exact ⟨_, (exec_taskRelease hr).trans (congrArg _ (taskRelease_started hd hw hi)), firstRelease_spec s e.val t.val hg⟩
  case stops =>
    subst hx
    exact ⟨_, (exec_taskRelease hr).trans (congrArg _ (taskRelease_stops hd hs hp)), stopNow_spec s e.val t.val⟩
  case overruns =>
    subst hx
    exact ⟨_, exec_taskRelease hr, taskRelease_overrun_spec hd hs⟩
  case noDispatch => exact (exec_taskDispatch hr).trans (congrArg _ (taskDispatch_idle h))
  case dispatch =>
    subst hx
    exact ⟨_, (exec_taskDispatch hr).trans (congrArg _ (taskDispatch_starts hn ht hs hl)), begun_spec s e.val t (taskKey e.val t) _ rfl⟩
  case trapIdle => exact ⟨fun c hc hn => (exec_taskTrap hr).trans (congrArg _ (taskTrap_none hc hn)), (exec_taskTrap hr).trans (congrArg _ (taskTrap_mem s e.val))⟩
  case traps =>
    refine ⟨fun hp => ?_, fun hp => ?_, fun hp hd => ?_, fun u c hc hp hd => ?_⟩
    · exact (exec_taskTrap hr).trans (congrArg _ ((taskTrap_outside hn hp (by decide)).trans (if_pos rfl)))
    · exact (exec_taskTrap hr).trans (congrArg _ (taskTrap_inside s e.val t hn hp))
    · exact (exec_taskTrap hr).trans (congrArg _ ((taskTrap_undefined hn hp hd (by decide)).trans (if_pos rfl)))
    · exact (exec_taskTrap hr).trans (congrArg _ (taskTrap_decoded hn hp hd hc))
  case trapTaken =>
    obtain ⟨own, rest⟩ := takeTrap_spec s e t c
    refine ⟨own.trans ?_, rest⟩
    cases c <;> rfl
  case noLoad => exact (exec_leLoadEnd hr).trans (congrArg _ (loadEnd_idle h))
  case loadEnds =>
    refine ⟨fun hn => (exec_leLoadEnd hr).trans (congrArg _ ((loadEnd_oldest hp hd).trans (if_pos hn))), fun hn => ?_⟩
    obtain ⟨u, v, ends, rest⟩ := loadEnd_spec hp hd hn
    exact ⟨u, v, (exec_leLoadEnd hr).trans (congrArg _ ends), rest⟩

end Sys2Proof.Proofs
end

section
/-! SUPPORT and the settlement of O12: doorbells and their range (R262). -/

namespace Sys2Proof.Proofs

open Sys2Proof.Machine Sys2Proof.Laws

/-! ## The value of a doorbell -/

section
variable {v : Word}

/-- A doorbell whose upper half is 0 and whose count is in range is taken. -/
theorem doorbell_taken {ok : Half → Prop} [DecidablePred ok] (f : Half → State) (x : State) (hv : highHalf v = 0) (h : ok (lowHalf v)) :
    (match doorbell v with | some c => if ok c then f c else x | none => x) = f (lowHalf v) := by
  unfold doorbell
  rw [if_pos hv]
  exact if_pos h

/-- Every other doorbell is refused. -/
theorem doorbell_refused {ok : Half → Prop} [DecidablePred ok] (f : Half → State) (x : State) (h : highHalf v ≠ 0 ∨ ¬ ok (lowHalf v)) :
    (match doorbell v with | some c => if ok c then f c else x | none => x) = x := by
  unfold doorbell
  by_cases hv : highHalf v = 0
  · rw [if_pos hv]
    exact if_neg (h.resolve_left (not_not_intro hv))
  · rw [if_neg hv]

end

/-! ## Rings that stop (R262, R266) -/

section
variable (s : State) (n k : Nat)

theorem stopRing_only : s.onlyRing (s.stopRing n k) n := by
  unfold State.stopRing
  split
  · exact State.updRing_only _ _ _
  · exact ⟨rfl, fun _ _ => rfl⟩

theorem stopRing_own : (s.stopRing n k).ring n =
    if (s.ring n).st = .running then { s.ring n with st := .stopped, cause := k, fence := none, retry := none } else s.ring n := by
  unfold State.stopRing
  split
  · exact State.ring_updRing _ _ _
  · rfl

end

/-! ## Each doorbell, valid and invalid -/

section
variable {s : State} {n : Nat} {v : Word}

theorem crTail_valid (hv : highHalf v = 0) (h : (lowHalf v - (s.ring n).tail).toNat ≤ 2 ^ (s.ring n).size - ((s.ring n).tail - (s.ring n).head).toNat) :
    s.crTail n v = s.updRing n (fun r => { r with tail := lowHalf v }) := doorbell_taken (ok := fun c => (c - (s.ring n).tail).toNat ≤ _) (fun c => s.updRing n (fun r => { r with tail := c })) _ hv h

theorem crTail_invalid (h : highHalf v ≠ 0 ∨ 2 ^ (s.ring n).size - ((s.ring n).tail - (s.ring n).head).toNat < (lowHalf v - (s.ring n).tail).toNat) :
    s.crTail n v = (s.stopRing n 2).dbRange := doorbell_refused (ok := fun c => (c - (s.ring n).tail).toNat ≤ _) (fun c => s.updRing n (fun r => { r with tail := c })) _ (h.imp_right Nat.not_le.mpr)

theorem cqHead_valid (hv : highHalf v = 0) (h : (lowHalf v - (s.ring n).chead).toNat ≤ ((s.ring n).ctail - (s.ring n).chead).toNat) :
    s.cqHead n v = s.updRing n (fun r => { r with chead := lowHalf v }) := doorbell_taken (ok := fun c => (c - (s.ring n).chead).toNat ≤ _) (fun c => s.updRing n (fun r => { r with chead := c })) _ hv h

theorem cqHead_invalid (h : highHalf v ≠ 0 ∨ ((s.ring n).ctail - (s.ring n).chead).toNat < (lowHalf v - (s.ring n).chead).toNat) :
    s.cqHead n v = s.dbRange := doorbell_refused (ok := fun c => (c - (s.ring n).chead).toNat ≤ _) (fun c => s.updRing n (fun r => { r with chead := c })) _ (h.imp_right Nat.not_le.mpr)

theorem trHead_valid (hv : highHalf v = 0) (h : (lowHalf v - (s.trRing n).head).toNat ≤ ((s.trRing n).tail - (s.trRing n).head).toNat) :
    s.trHead n v = s.updTr n (fun r => { r with head := lowHalf v }) := doorbell_taken (ok := fun c => (c - (s.trRing n).head).toNat ≤ _) (fun c => s.updTr n (fun r => { r with head := c })) _ hv h

theorem trHead_invalid (h : highHalf v ≠ 0 ∨ ((s.trRing n).tail - (s.trRing n).head).toNat < (lowHalf v - (s.trRing n).head).toNat) :
    s.trHead n v = s.dbRange := doorbell_refused (ok := fun c => (c - (s.trRing n).head).toNat ≤ _) (fun c => s.updTr n (fun r => { r with head := c })) _ (h.imp_right Nat.not_le.mpr)

theorem erHead_valid (hv : highHalf v = 0) (h : (lowHalf v - s.hif.er.head).toNat ≤ (s.hif.er.tail - s.hif.er.head).toNat) :
    s.erHead v = { s with hif := { s.hif with er := { s.hif.er with head := lowHalf v } } } :=
  doorbell_taken (ok := fun c => (c - s.hif.er.head).toNat ≤ _) (fun c => { s with hif := { s.hif with er := { s.hif.er with head := c } } }) _ hv h

theorem erHead_invalid (h : highHalf v ≠ 0 ∨ (s.hif.er.tail - s.hif.er.head).toNat < (lowHalf v - s.hif.er.head).toNat) :
    s.erHead v = s.dbRange := doorbell_refused (ok := fun c => (c - s.hif.er.head).toNat ≤ _) (fun c => { s with hif := { s.hif with er := { s.hif.er with head := c } } }) _ (h.imp_right Nat.not_le.mpr)

end

/-! ## The rows of the doorbells on a device out of reset -/

section
variable {s : State} {v : Word}

theorem exec_crTailDoorbell {n : Fin 16} (hr : s.runs) : exec (.crTailDoorbell n v) s = .next (s.crTail n.val v) := exec_live (f := fun x => x.crTail n.val v) rfl hr
theorem exec_cqHeadDoorbell {n : Fin 16} (hr : s.runs) : exec (.cqHeadDoorbell n v) s = .next (s.cqHead n.val v) := exec_live (f := fun x => x.cqHead n.val v) rfl hr
theorem exec_trHeadDoorbell {n : Fin 4} (hr : s.runs) : exec (.trHeadDoorbell n v) s = .next (s.trHead n.val v) := exec_live (f := fun x => x.trHead n.val v) rfl hr
theorem exec_erHeadDoorbell (hr : s.runs) : exec (.erHeadDoorbell v) s = .next (s.erHead v) := exec_live (f := fun x => x.erHead v) rfl hr

end

/-- Settles O12: a valid doorbell is an update of its ring alone; an invalid one raises DB_RANGE, and an invalid CR_TAIL stops its ring first. -/
theorem doorbellsChecked : Obligations.DoorbellsChecked := by
  unfold Obligations.DoorbellsChecked
  refine ⟨fun s n v hr hv h => ?crValid, fun s n v hr h => ?crInvalid, fun s n v hr hv h => ?cqValid, fun s n v hr h => ?cqInvalid,
    fun s n v hr hv h => ?trValid, fun s n v hr h => ?trInvalid, fun s v hr hv h => ?erValid, fun s v hr h => ?erInvalid⟩
  case crValid => exact ⟨_, (exec_crTailDoorbell hr).trans (congrArg _ (crTail_valid hv h)), State.updRing_only _ _ _, State.ring_updRing _ _ _⟩
  case crInvalid => exact ⟨_, (exec_crTailDoorbell hr).trans (congrArg _ (crTail_invalid h)), stopRing_only s n 2, stopRing_own s n 2⟩
  case cqValid => exact ⟨_, (exec_cqHeadDoorbell hr).trans (congrArg _ (cqHead_valid hv h)), State.updRing_only _ _ _, State.ring_updRing _ _ _⟩
  case cqInvalid => exact (exec_cqHeadDoorbell hr).trans (congrArg _ (cqHead_invalid h))
  case trValid => exact ⟨_, (exec_trHeadDoorbell hr).trans (congrArg _ (trHead_valid hv h)), State.updTr_only _ _ _, State.trRing_updTr _ _ _⟩
  case trInvalid => exact (exec_trHeadDoorbell hr).trans (congrArg _ (trHead_invalid h))
  case erValid => exact (exec_erHeadDoorbell hr).trans (congrArg _ (erHead_valid hv h))
  case erInvalid => exact (exec_erHeadDoorbell hr).trans (congrArg _ (erHead_invalid h))

end Sys2Proof.Proofs
end

section
/-! SUPPORT and the settlement of O13: the states of a command ring and the events that move it (R257, R266, Table 9-6). -/

namespace Sys2Proof.Proofs

open Sys2Proof.Machine Sys2Proof.Laws

/-! ## Changes of one ring, one after another -/

section
variable {s t u : State} {n : Nat}

theorem onlyRing_trans (h : s.onlyRing t n) (h' : t.onlyRing u n) : s.onlyRing u n := by
  obtain ⟨frame, others⟩ := h
  obtain ⟨frame', others'⟩ := h'
  refine ⟨?_, fun m hm => (others' m hm).trans (others m hm)⟩
  rw [frame', frame]

theorem onlyRing_rung (h : s.onlyRing t n) : s.rung t := by
  unfold State.rung
  rw [h.1]

/-- What a ring owes depends on what is outstanding and what is held. -/
theorem onlyRing_ringWork (h : s.onlyRing t n) (m : Nat) : t.ringWork m = s.ringWork m := by
  unfold State.ringWork
  rw [h.1]

/-- Two changes of a ring that make the same of it are one. -/
theorem updRing_congr {f g : CmdRing → CmdRing} (h : f (s.ring n) = g (s.ring n)) : s.updRing n f = s.updRing n g :=
  congrArg (fun r => { s with hif := { s.hif with rings := s.hif.rings.set CmdRing.reset n r } }) h

end

/-! ## CR_CFG (R266, R285, R288) -/

/-- The privileges and the size of a ring after a write of CR_CFG. -/
def ringConfigured (v : Word) (r : CmdRing) : CmdRing :=
  { r with privOper := v.getLsbD 30 && (r.privOper || decide (r.st = .disabled)), privCfg := v.getLsbD 29 && (r.privCfg || decide (r.st = .disabled))
           size := sizeWrite (decide (r.st = .disabled)) r.size v }

/-- A ring that starts anew. -/
def ringStarted (r : CmdRing) : CmdRing := { r with st := .running, cause := 0, head := 0, tail := 0, ctail := 0, chead := 0, fence := none, retry := none }

/-- A ring that takes no more descriptors and still owes completions. -/
def ringDrains (r : CmdRing) : CmdRing := { r with st := .draining, cause := 0, fence := none, retry := none }

section
variable {s : State} {n : Nat} {v : Word}

theorem crCfgWrite_starts (hv : v.getLsbD 31 = true) (h : (s.ring n).st = .disabled) : s.crCfgWrite n v = s.updRing n (fun r => ringStarted (ringConfigured v r)) := by
  unfold State.crCfgWrite
  dsimp only
  rw [if_pos hv, if_pos (decide_eq_true h), State.updRing_twice]
  rfl

theorem crCfgWrite_on (hv : v.getLsbD 31 = true) (h : (s.ring n).st ≠ .disabled) : s.crCfgWrite n v = s.updRing n (ringConfigured v) := by
  unfold State.crCfgWrite
  dsimp only
  rw [if_pos hv, decide_eq_false h, if_neg (by decide), ← decide_eq_false h]
  rfl

theorem crCfgWrite_off_running (hv : v.getLsbD 31 = false) (h : (s.ring n).st = .running) :
    s.crCfgWrite n v = (s.updRing n (fun r => ringDrains (ringConfigured v r))).drainCheck n := by
  unfold State.crCfgWrite
  dsimp only
  rw [hv, if_neg (by decide), State.updRing_twice, ← updRing_congr (f := fun r => ringDrains (ringConfigured v r)) rfl, h]

theorem crCfgWrite_off_stopped (hv : v.getLsbD 31 = false) (h : (s.ring n).st = .stopped) :
    s.crCfgWrite n v = ((s.updRing n (fun r => ringDrains (ringConfigured v r))).flushHeldIf n).drainCheck n := by
  unfold State.crCfgWrite
  dsimp only
  rw [hv, if_neg (by decide), State.updRing_twice, ← updRing_congr (f := fun r => ringDrains (ringConfigured v r)) rfl, h]

/-- A ring that drains, before what it holds is written. -/
theorem draining_own : (s.updRing n (fun r => ringDrains (ringConfigured v r))).ring n = ringDrains (ringConfigured v (s.ring n)) := State.ring_updRing _ _ _

/-- Held completions that leave, or stay while Bus Master Enable is clear: the ring itself changes in CTAIL alone, but for the end of DRAINING. -/
theorem flushHeldIf_spec (s : State) (n : Nat) :
    s.rung (s.flushHeldIf n) ∧ (∀ m, m ≠ n → (s.flushHeldIf n).ring m = s.ring m) ∧
    ∃ k x, (s.flushHeldIf n).ring n = { s.ring n with ctail := k, st := x } ∧ (x = (s.ring n).st ∨ x = .disabled ∧ (s.flushHeldIf n).ringWork n = 0) := by
  unfold State.flushHeldIf
  split
  · obtain ⟨frame, _, _, others, k, x, own, st⟩ := State.flushHeld_spec s n
    refine ⟨frame, others, k, x, own, ?_⟩
    rw [st]
    split
    · exact Or.inr ⟨rfl, ‹_ ∧ _ ∧ _›.2.1⟩
    · exact Or.inl rfl
  · exact ⟨rfl, fun _ _ => rfl, _, _, rfl, Or.inl rfl⟩

/-- A ring that drains without a FENCE is DISABLED as soon as it owes nothing (Table 9-6). -/
theorem drainCheck_drained (c : State) (n : Nat) (hf : (c.ring n).fence = none) (hs : (c.ring n).st = .draining ∨ (c.ring n).st = .disabled ∧ c.ringWork n = 0) :
    ((c.drainCheck n).ring n).st = if (c.drainCheck n).ringWork n = 0 then .disabled else .draining := by
  obtain ⟨only, own⟩ := State.drainCheck_spec c n
  rw [own, onlyRing_ringWork only]
  dsimp only
  rcases hs with hs | ⟨hs, hw⟩
  · simp only [hs, hf, true_and, and_true]
  · rw [hs, if_neg (by simp), if_pos hw]

/-- EN written 0 on a ring that runs or has stopped: the ring drains, its held completions leave, and last the end of DRAINING is judged. -/
theorem crCfgWrite_off (hv : v.getLsbD 31 = false) (h : (s.ring n).st = .running ∨ (s.ring n).st = .stopped) :
    ∃ c : State, s.crCfgWrite n v = c.drainCheck n ∧ s.rung c ∧ (∀ m, m ≠ n → c.ring m = s.ring m) ∧
      (∃ k x, c.ring n = { ringDrains (ringConfigured v (s.ring n)) with ctail := k, st := x } ∧ (x = .draining ∨ x = .disabled ∧ c.ringWork n = 0)) ∧
      ((s.ring n).st = .running → c.hif.held = s.hif.held ∧ c.hif.hostWrites = s.hif.hostWrites) := by
  have only : s.onlyRing (s.updRing n (fun r => ringDrains (ringConfigured v r))) n := State.updRing_only s n _
  have own := draining_own (s := s) (n := n) (v := v)
  rcases h with h | h
  · exact ⟨_, crCfgWrite_off_running hv h, onlyRing_rung only, only.2, ⟨_, _, own, Or.inl rfl⟩, fun _ => ⟨rfl, rfl⟩⟩
  · obtain ⟨frame, others, k, x, left, st⟩ := flushHeldIf_spec (s.updRing n (fun r => ringDrains (ringConfigured v r))) n
    rw [own] at left st
    exact ⟨_, crCfgWrite_off_stopped hv h, State.rung_trans (onlyRing_rung only) frame, fun m hm => (others m hm).trans (only.2 m hm), ⟨k, x, left, st⟩,
      fun e => absurd (e.symm.trans h) (by decide)⟩

/-- What EN written 0 leaves of the ring and of the others. -/
theorem crCfgWrite_off_spec (hv : v.getLsbD 31 = false) (h : (s.ring n).st = .running ∨ (s.ring n).st = .stopped) (t : State) (ht : t = s.crCfgWrite n v) :
    s.rung t ∧ (t.ring n).st = (if t.ringWork n = 0 then .disabled else .draining) ∧ (t.ring n).head = (s.ring n).head ∧ (t.ring n).tail = (s.ring n).tail ∧
      (∀ m, m ≠ n → t.ring m = s.ring m) ∧ ((s.ring n).st = .running → t.hif.held = s.hif.held ∧ t.hif.hostWrites = s.hif.hostWrites) := by
  obtain ⟨c, e, frame, others, ⟨k, x, own, st⟩, writes⟩ := crCfgWrite_off hv h
  obtain ⟨only, last⟩ := State.drainCheck_spec c n
  have judged := drainCheck_drained c n (by rw [own]; rfl) (by rw [own]; exact st)
  rw [own] at last
  rw [← e, ← ht] at only last judged
  refine ⟨State.rung_trans frame (onlyRing_rung only), judged, by rw [last]; rfl, by rw [last]; rfl, fun m hm => (only.2 m hm).trans (others m hm), fun hs => ?_⟩
  rw [only.1]
  exact writes hs

/-! ## CR_CTL.RESTART (R257, R266) -/

theorem crRestart_runs (hv : v.getLsbD 0 = true) (h : (s.ring n).st = .stopped) (hb : s.hif.busMaster = true) :
    s.crRestart n v = (s.updRing n (fun r => { r with st := .running, cause := 0 })).flushHeld n := if_pos ⟨hv, h, hb⟩

theorem crRestart_idle (h : v.getLsbD 0 = false ∨ (s.ring n).st ≠ .stopped ∨ s.hif.busMaster = false) : s.crRestart n v = s := by
  unfold State.crRestart
  rw [if_neg]
  rintro ⟨restart, stopped, master⟩
  rcases h with h | h | h
  · exact absurd (restart.symm.trans h) (by decide)
  · exact h stopped
  · exact absurd (master.symm.trans h) (by decide)

/-- A restarted ring: it runs on from HEAD, and its held completions are written. -/
theorem crRestart_spec (hv : v.getLsbD 0 = true) (h : (s.ring n).st = .stopped) (hb : s.hif.busMaster = true) (t : State) (ht : t = s.crRestart n v) :
    s.rung t ∧ (t.ring n).st = .running ∧ (t.ring n).cause = 0 ∧ (t.ring n).head = (s.ring n).head ∧ (t.ring n).tail = (s.ring n).tail ∧
      (∀ m, m ≠ n → t.ring m = s.ring m) ∧ t.hif.held = s.hif.held.filter (fun c => decide (c.ring ≠ n)) ∧
      ∃ l, t.hif.hostWrites = s.hif.hostWrites ++ l ∧ l.length = (s.hif.held.filter (fun c => decide (c.ring = n))).length := by
  have only : s.onlyRing (s.updRing n (fun r => { r with st := .running, cause := 0 })) n := State.updRing_only s n _
  obtain ⟨frame, held, writes, others, k, x, own, st⟩ := State.flushHeld_spec (s.updRing n (fun r => { r with st := .running, cause := 0 })) n
  rw [State.ring_updRing] at own st
  rw [crRestart_runs hv h hb] at ht
  rw [← ht] at frame held writes others own
  have runs : x = .running := st.trans (if_neg (fun e => nomatch e.1))
  refine ⟨State.rung_trans (onlyRing_rung only) frame, ?_, ?_, ?_, ?_, fun m hm => (others m hm).trans (only.2 m hm), held, writes⟩
  · rw [own]; exact runs
  all_goals rw [own]

end

/-! ## Bus Master Enable cleared (R257) -/

/-- A list of rings stops where they run. -/
theorem stopRings_spec (k : Nat) (l : List Nat) (s : State) :
    s.each l (fun n a => a.stopRing n k) = { s with hif := { s.hif with rings := (s.each l (fun n a => a.stopRing n k)).hif.rings } } ∧
    ∀ m, (s.each l (fun n a => a.stopRing n k)).ring m =
      if m ∈ l ∧ (s.ring m).st = .running then { s.ring m with st := .stopped, cause := k, fence := none, retry := none } else s.ring m := by
  constructor
  · refine each_keep (fun u => u = { s with hif := { s.hif with rings := u.hif.rings } }) _ (fun n u hu => ?_) l s rfl
    rw [(stopRing_only u n k).1, hu]
  · induction l generalizing s with
    | nil => exact fun m => (if_neg (fun h => nomatch h.1)).symm
    | cons n r ih =>
      intro m
      refine (ih (s.stopRing n k) m).trans ?_
      by_cases hm : m = n
      · subst hm
        rw [stopRing_own]
        by_cases hs : (s.ring m).st = .running
        · rw [if_pos hs, if_neg (fun e => nomatch e.2), if_pos ⟨List.mem_cons_self, hs⟩]
        · rw [if_neg hs, if_neg (fun e => hs e.2), if_neg (fun e => hs e.2)]
      · rw [(stopRing_only s n k).2 m hm]
        exact if_congr (by rw [List.mem_cons, or_iff_right hm]) rfl rfl

/-- Clearing Bus Master Enable stops the sixteen rings where they run. -/
theorem busMasterOff_spec (s : State) : s.busMasterOff = { s with hif := { s.hif with busMaster := false, rings := s.busMasterOff.hif.rings } } ∧
    ∀ n, s.busMasterOff.ring n = if n < 16 ∧ (s.ring n).st = .running then { s.ring n with st := .stopped, cause := 3, fence := none, retry := none } else s.ring n := by
  obtain ⟨frame, rings⟩ := stopRings_spec 3 (List.range 16) { s with hif := { s.hif with busMaster := false } }
  unfold State.busMasterOff
  generalize State.each _ (List.range 16) _ = t at frame rings ⊢
  exact ⟨frame, fun n => (rings n).trans (if_congr (by rw [List.mem_range]; rfl) rfl rfl)⟩

/-! ## The rows of these events on a device out of reset -/

section
variable {s : State} {n : Fin 16} {v : Word}

theorem exec_crEnable (hr : s.runs) : exec (.crEnable n v) s = .next (s.crCfgWrite n.val v) := exec_live (f := fun x => x.crCfgWrite n.val v) rfl hr
theorem exec_crDrain (hr : s.runs) : exec (.crDrain n v) s = .next (s.crCfgWrite n.val v) := exec_live (f := fun x => x.crCfgWrite n.val v) rfl hr
theorem exec_crRestart (hr : s.runs) : exec (.crRestart n v) s = .next (s.crRestart n.val v) := exec_live (f := fun x => x.crRestart n.val v) rfl hr
theorem exec_busMasterDisable (hr : s.runs) : exec .busMasterDisable s = .next s.busMasterOff := exec_live (f := fun x => x.busMasterOff) rfl hr

end

/-- Settles O13: each write of CR_CFG or CR_CTL moves its own ring as Table 9-6 says, and clearing Bus Master Enable stops the rings one after another. -/
theorem commandRingStates : Obligations.CommandRingStates := by
  unfold Obligations.CommandRingStates
  refine ⟨fun s n v hr hv h => ?enable, fun s n v hr hv h => ?enabled, fun s n v hr hv h => ?drain, fun s n v hr hv h hb => ?restart, fun s n v hr h => ?noRestart, fun s hr => ?busMaster⟩
  case enable =>
    have own : ((s.updRing n (fun r => ringStarted (ringConfigured v r))).ring n) = ringStarted (ringConfigured v (s.ring n)) := State.ring_updRing _ _ _
    refine ⟨_, (exec_crEnable hr).trans (congrArg _ (crCfgWrite_starts hv h)), State.updRing_only _ _ _, ?_⟩
    rw [own]
    unfold ringStarted ringConfigured sizeWrite
    simp [h]
  case enabled =>
    refine ⟨_, (exec_crEnable hr).trans (congrArg _ (crCfgWrite_on hv h)), State.updRing_only _ _ _, (State.ring_updRing _ _ _).trans ?_⟩
    unfold ringConfigured sizeWrite
    simp [h]
  case drain => exact ⟨_, exec_crDrain hr, crCfgWrite_off_spec hv h _ rfl⟩
  case restart => exact ⟨_, exec_crRestart hr, crRestart_spec hv h hb _ rfl⟩
  case noRestart => exact (exec_crRestart hr).trans (congrArg _ (crRestart_idle h))
  case busMaster =>
    exact ⟨_, exec_busMasterDisable hr, busMasterOff_spec s⟩

end Sys2Proof.Proofs
end

section
/-! SUPPORT and the settlement of O14: telemetry and event rings, and the reset of the function (R256, R289). -/

namespace Sys2Proof.Proofs

open Sys2Proof.Machine Sys2Proof.Laws

/-! ## TR_CFG and ER_CFG (R288, R289) -/

section
variable {v : Word} (r : OutRing)

theorem outRing_cfg_on (h : v.getLsbD 31 = true) : r.cfg v = { r with en := true, size := (r.cfg v).size } := by
  unfold OutRing.cfg
  dsimp only
  rw [if_pos h]

theorem outRing_cfg_off (h : v.getLsbD 31 = false) : r.cfg v = { r with en := false, tail := 0, head := 0, size := (r.cfg v).size } := by
  unfold OutRing.cfg
  dsimp only
  rw [h, if_neg (by decide)]

/-- SIZE is written while the ring is disabled. -/
theorem outRing_cfg_size : (r.cfg v).size = if r.en = false ∧ 6 ≤ bitsOf v 0 4 ∧ bitsOf v 0 4 ≤ 12 then bitsOf v 0 4 else r.size := by
  unfold OutRing.cfg sizeWrite
  rw [apply_ite OutRing.size, ite_self]
  simp only [Bool.not_eq_true']

end

/-! ## An event of R256 -/

/-- HIF after an event of R256: its reset values, but for the numbers it has given, what it has written, what MP and the reads show, and capture memory; work accepted before is outstanding without a completion, and the capture under way is over. -/
def hifRestarted (h : Hif) : Hif :=
  let cap := match h.captRun with | some r => some r.id | none => none
  { Hif.reset with
    outstanding := (h.outstanding.filter (fun p => decide (cap ≠ some p.id))).map (fun p => { p with discard := true })
    nextId := h.nextId, hostWrites := h.hostWrites, mgmtForce := h.mgmtForce, mpStatus := h.mpStatus, mpData := h.mpData, mpCursor := h.mpCursor
    captMem := h.captMem, captValid := h.captValid && decide (cap = none), captLen := h.captLen, captCount := h.captCount, captOldest := h.captOldest
    hiLatch := h.hiLatch, rdData := h.rdData, urCount := h.urCount }

/-- The WINTER that FLR_WINTER asks for at an event of R256. -/
def resetWinter (s : State) : State := if s.hif.flrWinter then s.winterSet objDevice 9 0 else s

/-- The state with HIF restarted, before its faults are reset. -/
def hifReset (a : State) : State := { a with hif := hifRestarted a.hif }

theorem functionReset_eq (s : State) : s.functionReset = (((hifReset (resetWinter s)).hifFaultsReset).intcFlr).raise 1 6 .device := rfl

theorem hifRestarted_discards (h : Hif) : ∀ q ∈ (hifRestarted h).outstanding, q.discard = true := by
  intro q hq
  obtain ⟨p, _, rfl⟩ := List.mem_map.mp hq
  rfl

/-- With FLR_WINTER the device has entered WINTER with cause HOST, and nothing after it ends that (R190, R256). -/
theorem functionReset_winter {s : State} (h : s.hif.flrWinter = true) : (s.functionReset.wobj objDevice).cause.getLsbD 9 = true := by
  have entered : ((resetWinter s).wobj objDevice).cause.getLsbD 9 = true := by
    unfold resetWinter
    rw [if_pos h]
    exact State.winterSet_cause s objDevice 9 0 (by decide)
  have kept : Calm { noTol with sev := true, stat := true } (hifReset (resetWinter s)) s.functionReset :=
    Calm.raise (Calm.intcFlr (Calm.hifFaultsReset rfl rfl (Calm.refl _ _)))
  exact kept.cause rfl objDevice 9 entered

/-! ## The rows of these events on a device out of reset -/

section
variable {s : State} {v : Word}

theorem exec_trCfgWrite {n : Fin 4} (hr : s.runs) : exec (.trCfgWrite n v) s = .next (s.trCfgWrite n.val v) := exec_live (f := fun x => x.trCfgWrite n.val v) rfl hr
theorem exec_erCfgWrite (hr : s.runs) : exec (.erCfgWrite v) s = .next (s.erCfgWrite v) := exec_live (f := fun x => x.erCfgWrite v) rfl hr
theorem exec_functionReset (hr : s.runs) : exec .functionReset s = .next s.functionReset := exec_live (f := fun x => x.functionReset) rfl hr

end

/-- Settles O14: a configuration write is an update of its ring; an event of R256 restarts HIF after the WINTER it is asked for, then resets its faults and raises LINK_DOWN. -/
theorem outRingsAndFunctionReset : Obligations.OutRingsAndFunctionReset := by
  unfold Obligations.OutRingsAndFunctionReset
  refine ⟨fun s n v hr => ?telemetry, fun s v hr => ?event, fun s hr => ?reset⟩
  case telemetry =>
    have own : (s.trCfgWrite n v).trRing n = (s.trRing n).cfg v := State.trRing_updTr _ _ _
    refine ⟨_, exec_trCfgWrite hr, State.updTr_only _ _ _, ?_⟩
    rw [own]
    exact ⟨outRing_cfg_on _, outRing_cfg_off _, outRing_cfg_size _⟩
  case event =>
    refine ⟨{ s.hif.er.cfg v with minsev := bitsOf v 4 2 }, exec_erCfgWrite hr, rfl, fun h => ?_, fun h => ?_, outRing_cfg_size _⟩
    · exact congrArg (fun e : OutRing => { e with minsev := bitsOf v 4 2 }) (outRing_cfg_on s.hif.er h)
    · exact congrArg (fun e : OutRing => { e with minsev := bitsOf v 4 2 }) (outRing_cfg_off s.hif.er h)
  case reset =>
    exact ⟨resetWinter s, hifReset (resetWinter s), s.functionReset, rfl, rfl, fun _ => rfl, fun _ => rfl, rfl, rfl, rfl, rfl, rfl, hifRestarted_discards _, rfl, functionReset_eq s, exec_functionReset hr,
      State.raise_status _ 1 6 _, functionReset_winter⟩

end Sys2Proof.Proofs
end

section
/-! SUPPORT and the settlement of O4: the management port (R286, R287, R405). -/

namespace Sys2Proof.Proofs

open Sys2Proof.Machine Sys2Proof.Laws

/-! ## Frames (R286, R405) -/

section
variable {s : State} {cmd : Byte} {args : List Byte} {pec : Byte} {f : State → State}

theorem mpFrame_silent (h : s.tst.mpAnswers = false) : s.mpFrame cmd args pec f = s := by
  unfold State.mpFrame
  rw [h]
  rfl

theorem mpFrame_right (hr : s.runs) (ha : s.tst.mpAnswers = true) (h : s.pecRight cmd args pec = true) : s.mpFrame cmd args pec f = f s := by
  have reset : s.tst.inReset = false := hr
  unfold State.mpFrame
  rw [ha, reset, if_neg (by decide), if_neg (not_not_intro (of_decide_eq_true h))]

/-- A frame with a wrong PEC counts and raises MP_PEC, and that is all it does. -/
theorem mpFrame_wrong (hr : s.runs) (ha : s.tst.mpAnswers = true) (h : s.pecRight cmd args pec = false) :
    s.mpFrame cmd args pec f = (({ s with hif := { s.hif with pecErr := satInc 0xFFFF s.hif.pecErr } }).raise 1 7 .device).mpAnswer .badPec [] := by
  have reset : s.tst.inReset = false := hr
  unfold State.mpFrame
  rw [ha, reset, if_neg (by decide), if_pos (of_decide_eq_false h)]

end

/-- The commands of Table 9-17, and BAD_CMD, are each a frame with their CMD and arguments. -/
theorem exec_mpFrames {s : State} {off : BitVec 24} {seq : BitVec 48} {win : Half} {key pec bad : Byte} {l : List Byte} {f : Instr × Byte × List Byte} (hr : s.runs)
    (hf : f ∈ [(Instr.read32 off pec, (0x01 : Byte), leBytes 3 off.toNat), (.recCursor seq pec, 0x10, leBytes 6 seq.toNat), (.recRead win pec, 0x11, leBytes 2 win.toNat),
      (.forceWinter key pec, 0x40, [key]), (.forceWithdraw key pec, 0x41, [key]), (.ident pec, 0x7F, []), (.badCmd bad l pec, bad, l)]) :
    ∃ g, exec f.1 s = .next (s.mpFrame f.2.1 f.2.2 pec g) := by
  simp only [List.mem_cons, List.not_mem_nil, or_false] at hf
  rcases hf with rfl | rfl | rfl | rfl | rfl | rfl | rfl
  · exact ⟨_, exec_live (f := fun x => x.mpRead32 off pec) rfl hr⟩
  · exact ⟨_, exec_live (f := fun x => x.mpRecCursor seq pec) rfl hr⟩
  · exact ⟨_, exec_live (f := fun x => x.mpRecRead win pec) rfl hr⟩
  · exact ⟨_, exec_live (f := fun x => x.mpForce key pec) rfl hr⟩
  · exact ⟨_, exec_live (f := fun x => x.mpWithdraw key pec) rfl hr⟩
  · exact ⟨_, exec_live (f := fun x => x.mpIdent pec) rfl hr⟩
  · exact ⟨_, exec_live (f := fun x => x.mpBad bad l pec) rfl hr⟩

/-! ## What a right frame does (R286, R287) -/

/-- A read through a port changes the port's data and its latch alone (R206). -/
theorem portRead_frame (s : State) (port : RdPort) (off : Nat) :
    s.portRead port off = { s with hif := { s.hif with rdData := s.hif.rdData.set 0 (portKey port) (s.regShow port off), hiLatch := (s.portRead port off).hif.hiLatch } } := by
  unfold State.portRead State.readReg
  dsimp only
  split <;> rfl

theorem leBytes_length (n v : Nat) : (leBytes n v).length = n := by simp [leBytes]

/-- An entry of the recorder's window has sixteen words (R353, Table 12-1). -/
theorem windowEntry_length (s : State) (c i : Nat) : (s.windowEntry c i).length = 16 := by
  unfold State.windowEntry
  dsimp only
  split
  · exact List.length_replicate
  · simp [Rec.words, Rec.rawWords]

/-- 32 bytes of a window entry from an aligned offset (R353). -/
theorem window_bytes (l : List Word) (hl : l.length = 16) (off : Nat) (h : off % 32 = 0) : (((l.drop (off % 64 / 4)).take 8).flatMap (fun w => leBytes 4 w.toNat)).length = 32 := by
  have eight : ((l.drop (off % 64 / 4)).take 8).length = 8 := by
    rw [List.length_take, List.length_drop, hl]
    omega
  rw [List.length_flatMap, List.map_congr_left (g := fun _ => 4) (fun w _ => leBytes_length 4 _), List.map_const', eight]
  rfl

/-- FORCE_WINTER before its response. -/
def mgmtForced (s : State) : State := (({ s with hif := { s.hif with mgmtForce := true } }).winterSet objDevice 10 0).irqEdge 21

/-- FORCE_WITHDRAW before its response. -/
def mgmtWithdrawn (s : State) : State := (({ s with hif := { s.hif with mgmtForce := false } }).clearCause objDevice 10).irqEdge 21

theorem mgmtForced_alarmed (s : State) : ({ s with hif := { s.hif with mgmtForce := true } } : State).alarmed (mgmtForced s) := State.alarmed_irqEdge (State.alarmed_winterSet (State.alarmed_refl _))

theorem mgmtForced_cause (s : State) : ((mgmtForced s).wobj objDevice).cause.getLsbD 10 = true :=
  (Calm.irqEdge (Calm.refl noTol _)).cause rfl _ _ (State.winterSet_cause _ objDevice 10 0 (by decide))

/-- The fields of the management port that an alarm does not touch may be put back. -/
theorem alarmed_mgmt {s t : State} {b : Bool} (h : ({ s with hif := { s.hif with mgmtForce := b } } : State).alarmed t) :
    s.alarmed { t with hif := { t.hif with mgmtForce := s.hif.mgmtForce, mpStatus := s.hif.mpStatus, mpData := s.hif.mpData } } := by
  have back := congrArg (fun z : State => ({ z with hif := { z.hif with mgmtForce := s.hif.mgmtForce, mpStatus := s.hif.mpStatus, mpData := s.hif.mpData } } : State)) h
  exact back

/-- The withdrawal marks one cause of the device cleared (R287); the interrupt of the port touches no scope object. -/
theorem mgmtWithdrawn_spec (s : State) : (mgmtWithdrawn s).hif.mgmtForce = false ∧ ((mgmtWithdrawn s).wobj objDevice).cause = (s.wobj objDevice).cause ∧
    ((s.wobj objDevice).cause.getLsbD 10 = true → ((mgmtWithdrawn s).wobj objDevice).cleared.getLsbD 10 = true) ∧ ∀ i, i ≠ objDevice → (mgmtWithdrawn s).wobj i = s.wobj i := by
  unfold mgmtWithdrawn
  rw [State.irqEdge_frame]
  refine ⟨?_, clearCause_cause _ _ _ _, fun held => ?_, fun i hi => ?_⟩
  · rw [clearCause_frame]
  · exact clearCause_cleared { s with hif := { s.hif with mgmtForce := false } } objDevice 10 (by decide) held
  · exact (State.clearCause_only { s with hif := { s.hif with mgmtForce := false } } objDevice 10).2 i hi

/-! ## The rows of the management port on a device out of reset -/

section
variable {s : State} {pec : Byte}

theorem exec_read32 {off : BitVec 24} (hr : s.runs) (ha : s.tst.mpAnswers = true) (hp : s.pecRight 1 (leBytes 3 off.toNat) pec = true) :
    exec (.read32 off pec) s = .next (if off.toNat % 4 ≠ 0 ∨ 2 ^ 20 ≤ off.toNat then s.mpAnswer .refused []
      else (s.portRead .mp off.toNat).mpAnswer .ok (leBytes 4 ((s.portRead .mp off.toNat).hif.rdData.get 0 1).toNat)) :=
  (exec_live (f := fun x => x.mpRead32 off pec) rfl hr).trans (congrArg _ (mpFrame_right hr ha hp))

theorem exec_recCursor {seq : BitVec 48} (hr : s.runs) (ha : s.tst.mpAnswers = true) (hp : s.pecRight 0x10 (leBytes 6 seq.toNat) pec = true) :
    exec (.recCursor seq pec) s = .next (({ s with hif := { s.hif with mpCursor := seq.toNat } } : State).mpAnswer .ok []) :=
  (exec_live (f := fun x => x.mpRecCursor seq pec) rfl hr).trans (congrArg _ (mpFrame_right hr ha hp))

theorem exec_recRead {off : Half} (hr : s.runs) (ha : s.tst.mpAnswers = true) (hp : s.pecRight 0x11 (leBytes 2 off.toNat) pec = true) :
    exec (.recRead off pec) s = .next (if off.toNat % 32 ≠ 0 ∨ 4064 < off.toNat then s.mpAnswer .refused []
      else s.mpAnswer .ok ((((s.windowEntry s.hif.mpCursor (off.toNat / 64)).drop (off.toNat % 64 / 4)).take 8).flatMap (fun w => leBytes 4 w.toNat))) :=
  (exec_live (f := fun x => x.mpRecRead off pec) rfl hr).trans (congrArg _ (mpFrame_right hr ha hp))

theorem exec_forceWinter {key : Byte} (hr : s.runs) (ha : s.tst.mpAnswers = true) (hp : s.pecRight 0x40 [key] pec = true) :
    exec (.forceWinter key pec) s = .next (if key ≠ 0xA5 then s.mpAnswer .refused [] else (mgmtForced s).mpAnswer .ok []) :=
  (exec_live (f := fun x => x.mpForce key pec) rfl hr).trans (congrArg _ (mpFrame_right hr ha hp))

theorem exec_forceWithdraw {key : Byte} (hr : s.runs) (ha : s.tst.mpAnswers = true) (hp : s.pecRight 0x41 [key] pec = true) :
    exec (.forceWithdraw key pec) s = .next (if key ≠ 0x5A then s.mpAnswer .refused [] else (mgmtWithdrawn s).mpAnswer .ok []) :=
  (exec_live (f := fun x => x.mpWithdraw key pec) rfl hr).trans (congrArg _ (mpFrame_right hr ha hp))

theorem exec_ident (hr : s.runs) (ha : s.tst.mpAnswers = true) (hp : s.pecRight 0x7F [] pec = true) :
    exec (.ident pec) s = .next (s.mpAnswer .ok (leBytes 4 0x9632 ++ [0xB0, BitVec.ofNat 8 s.ownId])) :=
  (exec_live (f := fun x => x.mpIdent pec) rfl hr).trans (congrArg _ (mpFrame_right hr ha hp))

theorem exec_badCmd {cmd : Byte} {args : List Byte} (hr : s.runs) (ha : s.tst.mpAnswers = true) (hp : s.pecRight cmd args pec = true) :
    exec (.badCmd cmd args pec) s = .next (s.mpAnswer .badCmd []) :=
  (exec_live (f := fun x => x.mpBad cmd args pec) rfl hr).trans (congrArg _ (mpFrame_right hr ha hp))

end

/-- Settles O4: every frame with a wrong PEC ends in the same way, and a right one runs its command. -/
theorem managementPort : Obligations.ManagementPort := by
  unfold Obligations.ManagementPort
  refine ⟨fun s off seq win key pec bad l f hr ha hf hp => ?wrong, fun s off seq win key pec bad l f hr ha hf => ?silent, fun s off pec hr ha hp h4 h20 => ?read, fun s off pec hr ha hp h => ?noRead,
    fun s seq pec hr ha hp => ?cursor, fun s off pec hr ha hp h32 hm => ?window, fun s off pec hr ha hp h => ?noWindow, fun s pec hr ha hp => ?force, fun s pec hr ha hp => ?withdraw,
    fun s key pec hr ha => ⟨fun hk hp => ?noForce, fun hk hp => ?noWithdraw⟩, fun s pec hr ha hp => ?ident, fun s cmd args pec hr ha hp => ?unknown⟩
  case wrong =>
    obtain ⟨g, row⟩ := exec_mpFrames hr hf
    exact ⟨_, rfl, row.trans (congrArg _ (mpFrame_wrong hr ha hp))⟩
  case silent =>
    obtain ⟨g, row⟩ := exec_mpFrames hr hf
    exact row.trans (congrArg _ (mpFrame_silent ha))
  case read =>
    have row := (exec_read32 hr ha hp).trans (congrArg _ (if_neg (not_or.mpr ⟨not_not_intro h4, Nat.not_le.mpr h20⟩)))
    rw [portRead_frame] at row
    exact ⟨_, row, rfl, congrArg (fun w : Word => leBytes 4 w.toNat) (Tab.get_set_self _ _ _ _), rfl⟩
  case noRead => exact (exec_read32 hr ha hp).trans (congrArg _ (if_pos h))
  case cursor => exact exec_recCursor hr ha hp
  case window =>
    exact ⟨_, window_bytes _ (windowEntry_length _ _ _) _ h32, (exec_recRead hr ha hp).trans (congrArg _ (if_neg (not_or.mpr ⟨not_not_intro h32, Nat.not_lt.mpr hm⟩)))⟩
  case noWindow => exact (exec_recRead hr ha hp).trans (congrArg _ (if_pos h))
  case force =>
    have alarm := mgmtForced_alarmed s
    exact ⟨_, (exec_forceWinter hr ha hp).trans (congrArg _ (if_neg (not_not_intro rfl))), mgmtForced_cause s, congrArg (fun z : State => z.hif.mgmtForce) alarm, rfl, alarmed_mgmt (t := mgmtForced s) alarm⟩
  case withdraw =>
    obtain ⟨force, cause, cleared, others⟩ := mgmtWithdrawn_spec s
    exact ⟨_, (exec_forceWithdraw hr ha hp).trans (congrArg _ (if_neg (not_not_intro rfl))), force, rfl, cause, cleared, others⟩
  case noForce => exact (exec_forceWinter hr ha hp).trans (congrArg _ (if_pos hk))
  case noWithdraw => exact (exec_forceWithdraw hr ha hp).trans (congrArg _ (if_pos hk))
  case ident => exact exec_ident hr ha hp
  case unknown => exact exec_badCmd hr ha hp

end Sys2Proof.Proofs
end

section
/-! SUPPORT and the settlement of O35: taking and examining descriptors, and the fetches that bring them (R220, R264, R265, R267, R269, R272, R276, R285). -/

namespace Sys2Proof.Proofs

open Sys2Proof.Machine Sys2Proof.Laws

/-! ## The steps of the examination (R269) -/

section
variable {s : State} {h : DHdr} {d : Desc} {r : Refuse}

/-- Step 2: the four ways in which a descriptor lacks a privilege (R227, R272, R285). -/
theorem privRefuse_lacks {ring n : Nat}
    (lacks : (privNeed d = 1 ∧ (s.ring ring).privOper = false ∧ n = 1) ∨ (privNeed d = 2 ∧ (s.ring ring).privCfg = false ∧ n = 2) ∨
      ((s.ring ring).lacks (privNeed d) = none ∧ isAuth d = true ∧ s.tst.pins.authWe = false ∧ n = 3) ∨ ((s.ring ring).lacks (privNeed d) = none ∧ isAuth d = false ∧ closedEngine d = true ∧ n = 4)) :
    s.privRefuse ring d = some { st := .refusedPort, res := word n, res2 := 0 } := by
  unfold State.privRefuse
  rcases lacks with ⟨need, priv, rfl⟩ | ⟨need, priv, rfl⟩ | ⟨held, auth, pin, rfl⟩ | ⟨held, auth, closed, rfl⟩
  · rw [show (s.ring ring).lacks (privNeed d) = refPort 1 from if_pos ⟨need, by rw [priv]; rfl⟩]
    rfl
  · rw [show (s.ring ring).lacks (privNeed d) = refPort 2 from (if_neg (by rw [need]; exact fun e => nomatch e.1)).trans (if_pos ⟨need, by rw [priv]; rfl⟩)]
    rfl
  · rw [held]
    exact if_pos ⟨auth, by rw [pin]; rfl⟩
  · rw [held]
    exact (if_neg (fun e => absurd (auth.symm.trans e.1) (by decide))).trans (if_pos closed)

theorem examine_priv (h2 : s.privRefuse h.ring.val d = some r) : s.examine h d = some r := by
  unfold State.examine
  dsimp only
  rw [h2]

theorem examine_range {off : Nat} (h2 : s.privRefuse h.ring.val d = none) (h3 : (checksOf h.cls d s).range = some off) :
    s.examine h d = some { st := .badDescriptor, res := word off, res2 := 0 } := by
  unfold State.examine
  dsimp only
  rw [h2, h3]
  rfl

theorem examine_state (h2 : s.privRefuse h.ring.val d = none) (h3 : (checksOf h.cls d s).range = none) (h4 : (checksOf h.cls d s).state = some r) : s.examine h d = some r := by
  unfold State.examine
  dsimp only
  rw [h2, h3, h4]

/-- Step 5: a full class, or a worst case beyond the deadline (R220). -/
theorem examine_time {w : Option Nat} (h2 : s.privRefuse h.ring.val d = none) (h3 : (checksOf h.cls d s).range = none) (h4 : (checksOf h.cls d s).state = none) (hw : (checksOf h.cls d s).worst = w)
    (h5 : s.classFull h.cls = true ∨ (∃ x, clsDeadline h.cls = some x ∧ ∀ y, w = some y → x < y)) :
    s.examine h d = some { st := .refusedDeadline, res := worstUs w, res2 := BitVec.ofNat 16 (bit (s.classFull h.cls)) } := by
  have late : (s.classFull h.cls || beyondDeadline h.cls w) = true := by
    rcases h5 with full | ⟨x, deadline, beyond⟩
    · rw [full, Bool.true_or]
    · unfold beyondDeadline
      rw [deadline]
      cases w with
      | none => exact Bool.or_true _
      | some y => exact Bool.or_eq_true_iff.mpr (Or.inr (decide_eq_true (beyond y rfl)))
  unfold State.examine
  dsimp only
  rw [h2, h3, h4, hw]
  exact if_pos late

end

/-! ## Answers (R263, R275, R276) -/

section
variable (s : State) (h : DHdr) (d : Desc) (r : Refuse)

/-- A refusal counts in HIF_REF: those for their deadline apart from the others, each by its class. -/
theorem countRefuse_spec (k : Cls) : ∃ dl other : Tab Nat, s.countRefuse k r = { s with hif := { s.hif with refDl := dl, refOther := other } } ∧
    (∀ j, dl.get 0 j = if r.st = .refusedDeadline ∧ j = clsNumber k then satInc 0xFFFF (s.hif.refDl.get 0 j) else s.hif.refDl.get 0 j) ∧
    ∀ j, other.get 0 j = if r.st ≠ .refusedDeadline ∧ j = clsNumber k then satInc 0xFFFF (s.hif.refOther.get 0 j) else s.hif.refOther.get 0 j := by
  have counted : ∀ (t : Tab Nat) (j : Nat), (t.upd 0 (clsNumber k) (satInc 0xFFFF)).get 0 j = if j = clsNumber k then satInc 0xFFFF (t.get 0 j) else t.get 0 j := by
    intro t j
    unfold Tab.upd
    rw [Tab.get_set]
    by_cases e : clsNumber k = j
    · rw [if_pos e, if_pos e.symm, e]
    · rw [if_neg e, if_neg (Ne.symm e)]
  by_cases e : r.st = .refusedDeadline
  · exact ⟨_, s.hif.refOther, if_pos e, fun j => (counted _ j).trans (if_congr (and_iff_right e).symm rfl rfl), fun j => (if_neg (fun x => x.1 e)).symm⟩
  · exact ⟨s.hif.refDl, _, if_neg e, fun j => (if_neg (fun x => e x.1)).symm, fun j => (counted _ j).trans (if_congr (and_iff_right e).symm rfl rfl)⟩

theorem served_pass_own (n : Nat) : ((s.served n).pass n).ring n = { s.ring n with head := (s.ring n).head + 1 } := State.ring_updRing (s.served n) n _

theorem served_pass_other (n m : Nat) (hm : m ≠ n) : ((s.served n).pass n).ring m = s.ring m := State.ring_updRing_ne (s.served n) n m _ (Ne.symm hm)

/-- A descriptor refused at its examination is answered, and counts. -/
theorem refuse_answered : s.Answered h d r true ((s.served h.ring.val).refuse h.ring.val h.tag (opOf d) h.cls h.notify r) := by
  obtain ⟨dl, other, frame, dls, others⟩ := countRefuse_spec ((s.served h.ring.val).pass h.ring.val) r h.cls
  refine ⟨((s.served h.ring.val).pass h.ring.val).countRefuse h.cls r, ?_⟩
  unfold State.refuse
  rw [frame]
  exact ⟨rfl, served_pass_own s h.ring.val, served_pass_other s h.ring.val,
    fun k => (dls k).trans (if_congr (and_iff_right rfl).symm rfl rfl), fun k => (others k).trans (if_congr (and_iff_right rfl).symm rfl rfl), rfl⟩

/-- A descriptor whose host data fail is answered without being counted. -/
theorem pass_answered : s.Answered h d r false (((s.served h.ring.val).pass h.ring.val).answerNow h.ring.val h.tag (opOf d) (s.ring h.ring.val).head h.notify r) :=
  ⟨(s.served h.ring.val).pass h.ring.val, rfl, served_pass_own s h.ring.val, served_pass_other s h.ring.val,
    fun _ => (if_neg (fun e => nomatch e.1)).symm, fun _ => (if_neg (fun e => nomatch e.1)).symm, rfl⟩

variable {s h d r}

theorem submit_waits (hc : s.canTake h.ring.val = false) : s.submit h d = s := by
  unfold State.submit
  rw [hc]
  rfl

theorem submit_taken (hc : s.canTake h.ring.val = true) : s.submit h d = (s.served h.ring.val).runDesc h d := if_pos hc

theorem submit_refused (hc : s.canTake h.ring.val = true) (he : s.examine h d = some r) : s.Answered h d r true (s.submit h d) := by
  rw [submit_taken hc]
  unfold State.runDesc
  rw [examine_served, he]
  exact refuse_answered s h d r

theorem submit_dataFault (hc : s.canTake h.ring.val = true) (he : s.examine h d = none) (hf : dataFault d s = some r) (hi : ∀ a b c e x, d ≠ .leImageLoad a b c e x) :
    s.Answered h d r false (s.submit h d) := by
  have quiet : ∀ u : State, u.imgReject d r = u := by
    intro u
    unfold State.imgReject
    split
    · exact absurd rfl (hi _ _ _ _ _)
    · rfl
  rw [submit_taken hc]
  unfold State.runDesc
  rw [examine_served, he]
  dsimp only
  unfold State.receive
  split
  · exact nomatch hf
  · rw [dataFault_served, hf]
    dsimp only
    rw [quiet]
    exact pass_answered s h d r

end

/-! ## Fetches (R264, R265, R267) -/

section
variable {s : State} {n : Fin 16}

theorem nextRing_none (h : ∀ n : Fin 16, s.canTake n.val = false) : s.nextRing = none :=
  List.find?_eq_none.mpr (fun n _ => by rw [h n]; decide)

/-- Round-robin service comes first to the ring nearest after its pointer. -/
theorem nextRing_nearest (hc : s.canTake n.val = true)
    (hn : ∀ m : Fin 16, s.canTake m.val = true → (n.val + 16 - s.hif.rr % 16) % 16 ≤ (m.val + 16 - s.hif.rr % 16) % 16) : s.nextRing = some n := by
  have here : Fin.ofNat 16 (s.hif.rr + (n.val + 16 - s.hif.rr % 16) % 16) = n := Fin.ext (by
    show (s.hif.rr + (n.val + 16 - s.hif.rr % 16) % 16) % 16 = n.val
    omega)
  unfold State.nextRing
  rw [List.find?_map, List.find?_range_eq_some.mpr ⟨?_, ?_, ?_⟩, Option.map_some, here]
  · exact (congrArg (fun m : Fin 16 => s.canTake m.val) here).trans hc
  · exact List.mem_range.mpr (Nat.mod_lt _ (by decide))
  · intro j hj
    rw [Bool.not_eq_true']
    refine Bool.eq_false_iff.mpr (fun taken => ?_)
    have near := hn _ taken
    have at_ : (Fin.ofNat 16 (s.hif.rr + j)).val = (s.hif.rr + j) % 16 := rfl
    rw [at_] at near
    omega

variable {bs : List Byte} {data : HostData}

theorem takeBytes_good (h1 : headerFault bs = none) (h2 : selectorFault bs = none) : s.takeBytes n bs data = s.runDesc (hdrOf n bs) (operandsOf bs data) := by
  unfold State.takeBytes
  dsimp only
  rw [h1, h2]

/-- Round-robin service that stands past a ring stays there. -/
theorem served_self {s : State} {n : Nat} (h : s.hif.rr = (n + 1) % 16) : s.served n = s := by
  unfold State.served
  rw [← h]

/-- A fetch that brings a good descriptor is that descriptor at HEAD of its ring. -/
theorem fetch_bytes (hn : s.nextRing = some n) (hc : s.canTake n.val = true) (h1 : headerFault bs = none) (h2 : selectorFault bs = none) :
    s.fetch (.bytes bs) data = s.submit (hdrOf n bs) (operandsOf bs data) := by
  unfold State.fetch
  rw [hn]
  exact (takeBytes_good h1 h2).trans (submit_taken (h := hdrOf n bs) hc).symm

theorem fetch_failed (hn : s.nextRing = some n) (c : Fin 6) :
    s.fetch (.failed c) data = { s with hif := { s.hif with rr := (n.val + 1) % 16, rings := s.hif.rings.upd CmdRing.reset n.val (fun r => { r with retry := some s.now }) } } := by
  unfold State.fetch
  rw [hn]
  rfl

/-- No retry before 10 µs have passed. -/
theorem fetchRetry_early {f : Fetch} (h : ∀ x ∈ (s.ring n.val).retry, s.now < x + 10 * tus) : s.fetchRetry n f data = s := by
  unfold State.fetchRetry
  split
  · rfl
  · exact if_pos (Or.inl (h _ ‹_›))

section
variable {x : Nat} (hx : (s.ring n.val).retry = some x) (hn : x + 10 * tus ≤ s.now) (hc : (s.updRing n.val (fun r => { r with retry := none })).canTake n.val = true)
include hx hn hc

theorem fetchRetry_bytes : s.fetchRetry n (.bytes bs) data = (s.updRing n.val (fun r => { r with retry := none })).takeBytes n bs data := by
  unfold State.fetchRetry
  rw [hx]
  dsimp only
  rw [hc, if_neg (by simpa using hn)]

theorem fetchRetry_failed (c : Fin 6) : s.fetchRetry n (.failed c) data = (s.updRing n.val (fun r => { r with retry := none })).fetchError n.val c := by
  unfold State.fetchRetry
  rw [hx]
  dsimp only
  rw [hc, if_neg (by simpa using hn)]

end

/-- A ring from which a descriptor can be taken is RUNNING. -/
theorem canTake_running {n : Nat} (h : s.canTake n = true) : (s.ring n).st = .running := by
  unfold State.canTake at h
  simp only [Bool.and_eq_true, decide_eq_true_eq] at h
  exact h.1.2.1

/-- Sending a completion moves CTAIL of a RUNNING ring, or holds the completion, and changes nothing else of the ring. -/
theorem sendCompl_running (s : State) (c : Compl) (h : (s.ring c.ring).st = .running) : ∃ k, (s.sendCompl c).ring c.ring = { s.ring c.ring with ctail := k } := by
  unfold State.sendCompl
  dsimp only
  obtain ⟨u, hu⟩ : ∃ u : State, u = if s.hif.busMaster && !decide ((s.ring c.ring).st = .stopped ∧ (s.ring c.ring).cause = 3) then s.putCompl c else { s with hif := { s.hif with held := s.hif.held ++ [c] } } := ⟨_, rfl⟩
  have sent : ∃ k, u.ring c.ring = { s.ring c.ring with ctail := k } := by
    rw [hu]
    split
    · exact ⟨_, (State.putCompl_spec s c).2.2.2.2⟩
    · exact ⟨(s.ring c.ring).ctail, rfl⟩
  rw [← hu]
  obtain ⟨k, own⟩ := sent
  refine ⟨k, ?_⟩
  have runs : ∀ v : State, v.ring c.ring = u.ring c.ring → (v.drainCheck c.ring).ring c.ring = { s.ring c.ring with ctail := k } := by
    intro v hv
    rw [(State.drainCheck_spec v c.ring).2, hv, own]
    dsimp only
    rw [h, if_neg (fun e => nomatch e.1)]
  refine runs _ ?_
  split
  · rfl
  · rw [State.recordQ_frame]
    rfl

/-- The completion of a read that has failed twice. -/
def fetchFailure (u : State) (n : Nat) (c : Fin 6) : Compl :=
  { ring := n, tag := 0xFFFFFFFF, op := 0, status := .fetchError, index := (u.ring n).head, accDt := u.dtime, doneDt := u.dtime, res := word c.val, res2 := 0, notify := false }

/-- The second failure of a read: FETCH_ERROR is written, and the ring stops (R267). -/
theorem fetchError_spec (u : State) (n : Nat) (c : Fin 6) (hc : u.canTake n = true) (v : State) (hv : v = (u.sendCompl (fetchFailure u n c)).stopRing n 1) :
    u.fetchError n c = v.raise 1 2 .device ∧ (v.ring n).st = .stopped ∧ (v.ring n).cause = 1 ∧ (v.ring n).head = (u.ring n).head ∧ (v.ring n).retry = none := by
  obtain ⟨k, own⟩ := sendCompl_running u (fetchFailure u n c) (canTake_running hc)
  have sent : (u.sendCompl (fetchFailure u n c)).ring n = { u.ring n with ctail := k } := own
  have stopped := stopRing_own (u.sendCompl (fetchFailure u n c)) n 1
  rw [sent, if_pos (canTake_running hc), ← hv] at stopped
  refine ⟨congrArg (fun a : State => a.raise 1 2 .device) hv.symm, ?_, ?_, ?_, ?_⟩
  all_goals rw [stopped]

end

/-! ## The rows of the fetches on a device out of reset -/

section
variable {s : State} {f : Fetch} {data : HostData}

theorem exec_descriptorFetch (hr : s.runs) : exec (.descriptorFetch f data) s = .next (s.fetch f data) := exec_live (f := fun x => x.fetch f data) rfl hr
theorem exec_fetchRetry {n : Fin 16} (hr : s.runs) : exec (.fetchRetry n f data) s = .next (s.fetchRetry n f data) := exec_live (f := fun x => x.fetchRetry n f data) rfl hr

end

/-- Settles O35: every descriptor row submits its descriptor, whose examination answers at its first failing step; a fetch submits what its bytes spell. -/
theorem descriptorExamination : Obligations.DescriptorExamination := by
  unfold Obligations.DescriptorExamination
  refine ⟨fun s i h d hr e hc => ?waits, fun s i h d hr e hc => ⟨fun n lacks => ?priv, fun off h2 h3 => ?range, fun r h2 h3 h4 => ?state, fun w h2 h3 h4 hw h5 => ?time, fun r he hf hi => ?data⟩,
    fun s f data hr h => ?noFetch, fun s n bs data i hr hc hn => ⟨fun h1 h2 e => ?fetched, fun c => ?fails⟩, fun s n f data hr h => ?noRetry, fun s n x c data u hr hx hn hu hc => ?retry⟩
  case waits => exact (descriptor_exec i h d s e hr).trans (congrArg _ (submit_waits hc))
  case priv => exact ⟨_, descriptor_exec i h d s e hr, submit_refused hc (examine_priv (privRefuse_lacks lacks))⟩
  case range => exact ⟨_, descriptor_exec i h d s e hr, submit_refused hc (examine_range h2 h3)⟩
  case state => exact ⟨_, descriptor_exec i h d s e hr, submit_refused hc (examine_state h2 h3 h4)⟩
  case time => exact ⟨_, descriptor_exec i h d s e hr, submit_refused hc (examine_time h2 h3 h4 hw h5)⟩
  case data => exact ⟨_, descriptor_exec i h d s e hr, submit_dataFault hc he hf hi⟩
  case noFetch =>
    rw [exec_descriptorFetch hr]
    unfold State.fetch
    rw [nextRing_none h]
  case fetched => exact ((exec_descriptorFetch hr).trans (congrArg _ (fetch_bytes (nextRing_nearest hc hn) hc h1 h2))).trans (descriptor_exec i _ _ s e hr).symm
  case fails => exact (exec_descriptorFetch hr).trans (congrArg _ (fetch_failed (nextRing_nearest hc hn) c))
  case noRetry => exact (exec_fetchRetry hr).trans (congrArg _ (fetchRetry_early h))
  case retry =>
    subst hu
    refine ⟨?_, fun bs i h1 h2 e rr => ?_⟩
    · obtain ⟨error, st, cause, head, retry⟩ := fetchError_spec (s.updRing n.val (fun r => { r with retry := none })) n.val c hc _ rfl
      rw [State.ring_updRing] at head
      refine ⟨_, (exec_fetchRetry hr).trans (congrArg _ ((fetchRetry_failed hx hn hc c).trans error)), st, cause, head, retry, State.raise_status _ 1 2 _, ?_⟩
      unfold fetchFailure
      rw [State.ring_updRing]
      rfl
    · have again : (s.updRing n.val (fun r => { r with retry := none })).served n.val = s.updRing n.val (fun r => { r with retry := none }) := served_self rr
      have row := descriptor_exec i (hdrOf n bs) (operandsOf bs data) (s.updRing n.val (fun r => { r with retry := none })) e hr
      rw [submit_taken (h := hdrOf n bs) hc] at row
      refine ((exec_fetchRetry hr).trans (congrArg _ ((fetchRetry_bytes hx hn hc).trans (takeBytes_good h1 h2)))).trans (row.trans ?_).symm
      exact congrArg (fun a : State => Host.Outcome.next (a.runDesc (hdrOf n bs) (operandsOf bs data))) again

end Sys2Proof.Proofs
end

section
/-! SUPPORT. Telemetry snapshots and the event ring (R279 to R282). -/

namespace Sys2Proof.Proofs

open Sys2Proof.Machine Sys2Proof.Laws

/-! ## Snapshots (R281) -/

/-- A subscription that stands anew in its place. -/
def subNoted (s : State) (i : Nat) (x : Sub) : State := { s with hif := { s.hif with subs := s.hif.subs.set Sub.reset i x } }

/-- A loss counted by its ring. -/
def dropNoted (r : OutRing) : OutRing := { r with drop := if r.drop = 0xFFFFFFFF then r.drop else r.drop + 1 }

/-- A snapshot at the tail of its ring. -/
def snapshotWritten (s : State) (i : Nat) (x : Sub) (l : List (Fin 32 × Word)) (decim : Bool) : State :=
  (s.hostWrite (entryAddr (s.trRing x.ring).lo (s.trRing x.ring).hi 64 (s.trRing x.ring).size (s.trRing x.ring).tail)
    (teleEntry i x s.dtime (s.teleValues x l) decim (phaseBit (s.trRing x.ring).size (s.trRing x.ring).tail))).updTr x.ring (fun r => { r with tail := r.tail + 1 })

section
variable {s : State} {i : Nat} {l : List (Fin 32 × Word)} {x : Sub} {autumn : Bool} (hx : s.hif.subs.get Sub.reset i = x)
include hx

theorem telemetry_idle (h : x.active = false ∨ s.onGrid (x.period.toNat * tus) = false) : s.telemetry i l = s := by
  unfold State.telemetry
  dsimp only
  rw [hx, if_pos]
  rcases h with h | h
  · rw [h]
    rfl
  · rw [h]
    exact Bool.or_true _

variable (ha : x.active = true) (hg : s.onGrid (x.period.toNat * tus) = true) (ht : autumn = true ↔ (s.tileT (s.teleTile x)).stage ≠ 0)
include ha hg ht

/-- A due snapshot: only counted, dropped at a full ring, or written. -/
theorem telemetry_due : s.telemetry i l =
    if ((autumn && decide (x.count % 4 ≠ 0)) || !(s.trRing x.ring).en || !s.hif.busMaster) = true then subNoted s i { x with count := x.count + 1 }
    else if ((s.trRing x.ring).tail - (s.trRing x.ring).head).toNat = 2 ^ (s.trRing x.ring).size then
      (subNoted (s.updTr x.ring dropNoted) i { x with count := x.count + 1, gap := true }).raise 1 4 .device
    else (subNoted (snapshotWritten s i x l autumn) i { x with count := x.count + 1, gap := false }).irqEdge (16 + x.ring) := by
  have stage : decide ((s.tileT (s.teleTile x)).stage ≠ 0) = autumn := by
    rw [Bool.eq_iff_iff, decide_eq_true_eq]
    exact ht.symm
  unfold State.telemetry
  dsimp only
  rw [hx, stage, ha, hg, if_neg (by decide)]
  rfl

theorem telemetry_counts (h : (autumn = true ∧ x.count % 4 ≠ 0) ∨ (s.trRing x.ring).en = false) : s.telemetry i l = subNoted s i { x with count := x.count + 1 } := by
  rw [telemetry_due hx ha hg ht, if_pos]
  rcases h with ⟨h1, h2⟩ | h
  · rw [h1, decide_eq_true h2]
    rfl
  · rw [h, Bool.not_false, Bool.or_true, Bool.true_or]

variable (hw : autumn = false ∨ x.count % 4 = 0) (he : (s.trRing x.ring).en = true) (hb : s.hif.busMaster = true)
include hw he hb

theorem telemetry_leaves : s.telemetry i l =
    if ((s.trRing x.ring).tail - (s.trRing x.ring).head).toNat = 2 ^ (s.trRing x.ring).size then
      (subNoted (s.updTr x.ring dropNoted) i { x with count := x.count + 1, gap := true }).raise 1 4 .device
    else (subNoted (snapshotWritten s i x l autumn) i { x with count := x.count + 1, gap := false }).irqEdge (16 + x.ring) := by
  have turn : (autumn && decide (x.count % 4 ≠ 0)) = false := by
    rcases hw with h | h
    · rw [h]
      rfl
    · rw [decide_eq_false (not_not_intro h)]
      exact Bool.and_false _
  rw [telemetry_due hx ha hg ht, turn, he, hb, if_neg (by decide)]

end

/-! ## EVENT_COPY (R282) -/

theorem not_bnot {b : Bool} (h : b = true) : ¬ (!b) = true := by simp [h]

/-- The oldest waiting record is no longer waiting. -/
def copyTaken (s : State) (q : List Rec) : State := { s with recd := { s.recd with copyq := q } }

/-- The record is dropped, and the ring counts the loss. -/
def copyDropped (s : State) (q : List Rec) : State := { copyTaken s q with hif := { s.hif with er := dropNoted s.hif.er } }

/-- The event ring moves on, and host memory holds these writes. -/
def copyWritten (s : State) (q : List Rec) (ws : List HostWrite) : State :=
  { copyTaken s q with hif := { s.hif with er := { s.hif.er with tail := s.hif.er.tail + 1 }, hostWrites := ws } }

/-- The write of a record at the tail of the event ring. -/
def copyEntry (s : State) (r : Rec) : HostWrite := { addr := entryAddr s.hif.er.lo s.hif.er.hi 64 s.hif.er.size s.hif.er.tail, words := r.words }

/-- The write of the event ring's new TAIL to its write-back address. -/
def tailEntry (s : State) : HostWrite := { addr := s.hif.er.wbHi.toNat * 2 ^ 32 + s.hif.er.wbLo.toNat, words := [word (s.hif.er.tail + 1).toNat] }

section
variable {s : State} {r : Rec} {q : List Rec}

theorem eventCopy_idle (h : s.recd.copyq = [] ∨ (s.hif.er.en = true ∧ s.hif.busMaster = false)) : s.eventCopy = s := by
  unfold State.eventCopy
  split
  · rfl
  · rename_i r q hq
    rcases h with h | ⟨h1, h2⟩
    · exact nomatch hq.symm.trans h
    · dsimp only
      rw [h1, h2]
      rfl

theorem eventCopy_forgets (hq : s.recd.copyq = r :: q) (h : s.hif.er.en = false) : s.eventCopy = copyTaken s q := by
  unfold State.eventCopy
  rw [hq]
  dsimp only
  rw [h]
  rfl

variable (hq : s.recd.copyq = r :: q) (he : s.hif.er.en = true) (hb : s.hif.busMaster = true)
include hq he hb

theorem eventCopy_full (h : (s.hif.er.tail - s.hif.er.head).toNat = 2 ^ s.hif.er.size) : s.eventCopy = (copyDropped s q).raise 1 5 .device := by
  unfold State.eventCopy
  rw [hq]
  dsimp only
  rw [if_neg (not_bnot he), if_neg (not_bnot hb), if_pos h]
  exact congrArg (fun a : State => a.raise 1 5 .device) rfl

/-- The record goes to the tail of the ring, and the new TAIL to the write-back address. -/
theorem eventCopy_writes (h : (s.hif.er.tail - s.hif.er.head).toNat ≠ 2 ^ s.hif.er.size) :
    s.eventCopy = (copyWritten s q (s.hif.hostWrites ++ [copyEntry s r, tailEntry s])).irqEdge 20 := by
  have two : s.hif.hostWrites ++ [copyEntry s r] ++ [tailEntry s] = s.hif.hostWrites ++ [copyEntry s r, tailEntry s] := List.append_assoc _ [_] [_]
  unfold State.eventCopy
  rw [hq, ← two]
  dsimp only
  rw [if_neg (not_bnot he), if_neg (not_bnot hb), if_neg h]
  exact congrArg (fun a : State => a.irqEdge 20) rfl

end

end Sys2Proof.Proofs
end

section
/-! SUPPORT. Captures (R283), and the settlement of telemetry, the event ring and capture. -/

namespace Sys2Proof.Proofs

open Sys2Proof.Machine Sys2Proof.Laws

/-! ## What capture memory holds -/

/-- An index to which no sample goes keeps its word. -/
theorem captPut_other (t : Tab Word) (a i : Nat) (l : List Word) (h : ∀ j, j < l.length → (a + j) % captCap ≠ i) : (captPut t a l).get 0 i = t.get 0 i := by
  induction l generalizing t a with
  | nil => rfl
  | cons w r ih =>
    have rest : ∀ j, j < r.length → (a + 1 + j) % captCap ≠ i := fun j hj => Nat.add_right_comm a j 1 ▸ h (j + 1) (Nat.succ_lt_succ hj)
    exact (ih _ _ rest).trans (Tab.get_set_ne _ _ _ _ _ _ (h 0 (Nat.succ_pos _)))

/-- Samples that fit into capture memory stand there one after another, around its end. -/
theorem captPut_get (t : Tab Word) (a j : Nat) (l : List Word) (fit : l.length ≤ captCap) (hj : j < l.length) : (captPut t a l).get 0 ((a + j) % captCap) = l.getD j 0 := by
  induction l generalizing t a j with
  | nil => exact absurd hj (Nat.not_lt_zero j)
  | cons w r ih =>
    rw [List.length_cons] at fit hj
    cases j with
    | zero =>
      have others : ∀ m, m < r.length → (a + 1 + m) % captCap ≠ a % captCap := by
        intro m hm
        unfold captCap at *
        omega
      exact (captPut_other _ _ _ r others).trans (Tab.get_set_self _ _ _ _)
    | succ j =>
      have next : a + (j + 1) = a + 1 + j := Nat.add_right_comm a j 1
      rw [next]
      exact ih _ _ _ (Nat.le_of_succ_le fit) (Nat.lt_of_succ_lt_succ hj)

/-- A full capture stands in memory from word k on, and in host memory where an address was given. -/
def captFilled (s : State) (ad : Word64) (k : Nat) (w : List Word) : State :=
  { s with hif := { s.hif with
    hostWrites := if ad = 0 then s.hif.hostWrites else s.hif.hostWrites ++ [{ addr := ad.toNat, words := w }]
    captMem := captPut s.hif.captMem k w, captValid := true, captLen := w.length, captCount := s.hif.captCount + 1, captOldest := BitVec.ofNat 24 k
    captRun := none, captDone := true } }

theorem captFilled_oldest {s : State} {ad : Word64} {k : Nat} {w : List Word} (hk : k < 3145728) : (captFilled s ad k w).hif.captOldest.toNat = k := by
  have fits : k % 2 ^ 24 = k := by omega
  exact (BitVec.toNat_ofNat k 24).trans fits

/-- The samples are read back from the oldest on. -/
theorem captFilled_captWord {s : State} {ad : Word64} {k j : Nat} {w : List Word} (hk : k < 3145728) (hj : j < w.length) (fit : w.length ≤ 3145728) :
    (captFilled s ad k w).captWord ((k + j) % 3145728) = w.getD j 0 := by
  have place : ((k + j) % 3145728 + 3145728 - k) % 3145728 = j := by omega
  have stands := captPut_get s.hif.captMem k j w fit hj
  unfold State.captWord
  unfold captCap at *
  rw [captFilled_oldest hk]
  dsimp only
  rw [place]
  exact (if_pos (decide_eq_true hj)).trans stands

/-! ## The start of a capture -/

/-- The start of a capture that waits for its trigger, or has it already. -/
def captBegun (s : State) (p : Pend) (trig : Bool) : State :=
  { s with hif := { s.hif with captRun := some { id := p.id, triggered := trig, since := s.now }, captDone := false, captValid := false } }

section
variable {s : State} (hc : s.hif.captRun = none)
include hc

theorem captStart_none (h : s.pends isCapture = []) : s.captStart = s := by
  have same : s.captNext = s := by
    unfold State.captNext
    rw [hc, h]
    rfl
  unfold State.captStart
  rw [same]
  dsimp only
  rw [hc]

variable {p : Pend} {pt ix tr sh : Byte} {n pre : Word} {at_ ad : Word64} (hp : (s.pends isCapture).head? = some p) (hd : p.desc = .capture pt ix tr sh n pre at_ ad) (hi : s.pend? p.id = some p)
include hp hd hi

/-- The oldest queued capture begins, and one that is triggered by time commits at its first sample. -/
theorem captStart_eq : s.captStart =
    if (decide (pt = 5 ∨ tr = 0) && decide (at_.toNat * tns ≤ s.dtTicks)) = true then (captBegun s p true).updPend p.id (fun q => { q with committed := true })
    else captBegun s p false := by
  have next : s.captNext = captBegun s p false := captNext_starts hc hp
  have run : (captBegun s p false).hif.captRun = some { id := p.id, triggered := false, since := s.now } := rfl
  have found : (captBegun s p false).pend? p.id = some p := hi
  unfold State.captStart
  rw [next]
  dsimp only
  rw [run]
  dsimp only
  rw [found]
  dsimp only
  rw [hd]
  rfl

end

/-! ## The end of a capture -/

theorem captEnd_idle {s : State} {o : BitVec 24} {l : List Word} (h : s.hif.captRun = none) : s.captEnd o l = s := by
  unfold State.captEnd
  rw [h]

section
variable {s : State} {o : BitVec 24} {l w : List Word} {k : Nat} {r : CapRun} {p : Pend} {pt ix tr sh : Byte} {n pre : Word} {at_ ad : Word64}
  (hr : s.hif.captRun = some r) (hp : s.pend? r.id = some p) (hd : p.desc = .capture pt ix tr sh n pre at_ ad)
  (hw : w = if pt = 5 then (s.inst ix.toNat).mainWords else l) (hk : k = if pt = 5 ∨ tr = 0 then 0 else o.toNat)
include hr hp hd hw hk

/-- A capture that is not full waits, as does one whose copy may not leave. -/
theorem captEnd_eq : s.captEnd o l =
    if (!s.captFull r pt.toNat ix.toNat tr.toNat n.toNat pre.toNat || decide (w.length ≠ s.captWords pt.toNat ix.toNat n.toNat) || decide (captCap ≤ k)) = true then s
    else if ad ≠ 0 ∧ (!s.hif.busMaster) = true then s
    else ((captFilled s ad k w).complete p .ok (word (0x400000 + 4 * k)) 0).captNext := by
  have stored : ∀ s1, s1 = (if ad = 0 then s else s.hostWrite ad.toNat w) → ({ s1 with hif := { s1.hif with
      captMem := captPut s1.hif.captMem k w, captValid := true, captLen := w.length, captCount := s1.hif.captCount + 1, captOldest := BitVec.ofNat 24 k
      captRun := none, captDone := true } } : State) = captFilled s ad k w := by
    rintro s1 rfl
    unfold captFilled
    split <;> rfl
  unfold State.captEnd
  rw [hr]
  dsimp only
  rw [hp]
  dsimp only
  rw [hd]
  dsimp only
  rw [← hw, ← hk, stored _ rfl]

theorem captEnd_waits (h : s.captFull r pt.toNat ix.toNat tr.toNat n.toNat pre.toNat = false ∨ (ad ≠ 0 ∧ s.hif.busMaster = false)) : s.captEnd o l = s := by
  rw [captEnd_eq hr hp hd hw hk]
  rcases h with h | ⟨h1, h2⟩
  · rw [h]
    rfl
  · rw [if_pos (c := _ ∧ _) ⟨h1, by rw [h2]; rfl⟩]
    exact ite_self _

theorem captEnd_full (hf : s.captFull r pt.toNat ix.toNat tr.toNat n.toNat pre.toNat = true) (hl : w.length = if pt = 5 then 2 * (s.inst ix.toNat).ntaps else n.toNat)
    (hk' : k < 3145728) (hb : ad = 0 ∨ s.hif.busMaster = true) : s.captEnd o l = ((captFilled s ad k w).complete p .ok (word (0x400000 + 4 * k)) 0).captNext := by
  have five : pt.toNat = 5 ↔ pt = 5 := by bv_omega
  have len : w.length = s.captWords pt.toNat ix.toNat n.toNat := by
    unfold State.captWords
    rw [hl]
    exact if_congr five.symm rfl rfl
  have short : ¬ captCap ≤ k := Nat.not_le.mpr hk'
  rw [captEnd_eq hr hp hd hw hk, if_neg (by simp [hf, len, short]), if_neg]
  rintro ⟨h1, h2⟩
  rcases hb with h | h
  · exact h1 h
  · exact not_bnot h h2

end

end Sys2Proof.Proofs
end

section
/-! SUPPORT. The settlement of telemetry, the event ring and capture (R280 to R283). -/

namespace Sys2Proof.Proofs

open Sys2Proof.Machine Sys2Proof.Laws

section
variable {s : State} (hr : s.runs)
include hr

theorem exec_telemetrySnapshot (i : Fin 64) (l : List (Fin 32 × Word)) : exec (.telemetrySnapshot i l) s = .next (s.telemetry i.val l) :=
  exec_live (f := fun a => a.telemetry i.val l) rfl hr

theorem exec_eventCopy : exec .eventCopy s = .next s.eventCopy := exec_live (f := State.eventCopy) rfl hr

theorem exec_captureStart : exec .captureStart s = .next s.captStart := exec_live (f := State.captStart) rfl hr

theorem exec_captureEnd (o : BitVec 24) (l : List Word) : exec (.captureEnd o l) s = .next (s.captEnd o l) :=
  exec_live (f := fun a => a.captEnd o l) rfl hr

end

theorem subNoted_get (s : State) (i : Nat) (x : Sub) : (subNoted s i x).hif.subs.get Sub.reset i = x := Tab.get_set_self _ _ _ _

theorem subNoted_get_ne (s : State) {i j : Nat} (x : Sub) (h : j ≠ i) : (subNoted s i x).hif.subs.get Sub.reset j = s.hif.subs.get Sub.reset j :=
  Tab.get_set_ne _ _ _ _ _ _ h.symm

/-- Settles O48, one clause for each outcome of a snapshot, of a copied record, and of the start and the end of a capture. -/
theorem telemetryAndCapture : Obligations.TelemetryAndCapture := by
  unfold Obligations.TelemetryAndCapture
  refine ⟨?notDue, ?snapshot, ?noCopy, ?copy, ?noCapture, ?captureBegins, ?noneRuns, ?captureEnds⟩
  case notDue =>
    intro s i l x hr hx h
    rw [exec_telemetrySnapshot hr, telemetry_idle hx h]
  case snapshot =>
    intro s i l x autumn hr hx ha hg ht
    have row := exec_telemetrySnapshot hr i l
    refine ⟨fun h => ?counted, fun hw he hb full => ?dropped, fun hw he hb room => ?written⟩
    case counted => exact ⟨_, row.trans (congrArg _ (telemetry_counts hx ha hg ht h)), rfl, subNoted_get _ _ _⟩
    case dropped =>
      have loss : s.telemetry i.val l = (subNoted (s.updTr x.ring dropNoted) i.val { x with count := x.count + 1, gap := true }).raise 1 4 .device :=
        (telemetry_leaves hx ha hg ht hw he hb).trans (if_pos full)
      have own : (s.updTr x.ring dropNoted).trRing x.ring = dropNoted (s.trRing x.ring) := State.trRing_updTr _ _ _
      exact ⟨_, row.trans (congrArg _ loss), State.raise_status _ 1 4 _, rfl, subNoted_get _ _ _, own, fun m hm => State.trRing_updTr_ne _ _ _ _ hm.symm⟩
    case written =>
      have entry : s.telemetry i.val l = (subNoted (snapshotWritten s i.val x l autumn) i.val { x with count := x.count + 1, gap := false }).irqEdge (16 + x.ring) :=
        (telemetry_leaves hx ha hg ht hw he hb).trans (if_neg room)
      have own : (snapshotWritten s i.val x l autumn).trRing x.ring = { s.trRing x.ring with tail := (s.trRing x.ring).tail + 1 } := State.trRing_updTr _ _ _
      have others : ∀ m, m ≠ x.ring → (snapshotWritten s i.val x l autumn).trRing m = s.trRing m := fun m hm => State.trRing_updTr_ne _ _ _ _ hm.symm
      exact ⟨_, row.trans (congrArg _ entry), rfl, subNoted_get _ _ _, fun j hj => subNoted_get_ne _ _ hj, own, others, rfl⟩
  case noCopy =>
    intro s hr h
    rw [exec_eventCopy hr, eventCopy_idle h]
  case copy =>
    intro s r q hr hq
    have row := exec_eventCopy hr
    refine ⟨fun h => ?forgotten, fun he hb full => ?dropped, fun he hb room => ?written⟩
    case forgotten => exact row.trans (congrArg _ (eventCopy_forgets hq h))
    case dropped => exact ⟨copyDropped s q, row.trans (congrArg _ (eventCopy_full hq he hb full)), State.raise_status _ 1 5 _, rfl⟩
    case written => exact ⟨copyWritten s q _, row.trans (congrArg _ (eventCopy_writes hq he hb room)), rfl⟩
  case noCapture =>
    intro s hr hc h
    rw [exec_captureStart hr, captStart_none hc h]
  case captureBegins =>
    intro s p pt ix tr sh n pre at_ ad hr hc hp hd hi
    refine ⟨_, exec_captureStart hr, ?_⟩
    rw [captStart_eq hc hp hd hi]
    by_cases timed : (pt = 5 ∨ tr = 0) ∧ at_.toNat * tns ≤ s.dtTicks
    · rw [if_pos (by simpa using timed)]
      refine ⟨rfl, rfl, rfl, fun _ _ => ⟨rfl, rfl⟩, fun h => ?_⟩
      obtain ⟨point, reached⟩ := timed
      rcases h with ⟨h1, h2⟩ | h
      · exact absurd point (not_or.mpr ⟨h1, h2⟩)
      · exact absurd reached (Nat.not_le.mpr h)
    · rw [if_neg (by simpa using timed)]
      exact ⟨rfl, rfl, rfl, fun h1 h2 => absurd ⟨h1, h2⟩ timed, fun _ => ⟨rfl, rfl⟩⟩
  case noneRuns =>
    intro s o l hr h
    rw [exec_captureEnd hr, captEnd_idle h]
  case captureEnds =>
    intro s o l w k r p pt ix tr sh n pre at_ ad hr hc hp hd hw hk
    have row := exec_captureEnd hr o l
    refine ⟨fun h => ?waits, fun full len hk' hb => ?ends⟩
    case waits => rw [row, captEnd_waits hc hp hd hw hk h]
    case ends =>
      exact ⟨captFilled s ad k w, row.trans (congrArg _ (captEnd_full hc hp hd hw hk full len hk' hb)), rfl, rfl, rfl, captFilled_oldest hk', rfl, rfl,
        fun j hj fit => captFilled_captWord hk' hj fit⟩

end Sys2Proof.Proofs
end

section
/-! SUPPORT and the settlement of O8: writes to the source registers of INTC (R293, R302). -/

namespace Sys2Proof.Proofs

open Sys2Proof.Machine Sys2Proof.Laws

/-! ## Bits set and cleared -/

/-- Clearing the bits of a word clears those that it holds and no other. -/
theorem getLsbD_and_not {k : Nat} (x y : BitVec k) (n : Nat) : (x &&& ~~~y).getLsbD n = (x.getLsbD n && !y.getLsbD n) := by
  by_cases h : n < k
  · simp [h]
  · simp [BitVec.getLsbD_of_ge _ _ (Nat.le_of_not_lt h)]

/-- A source that a written word names is one of the 512. -/
theorem named_lt {w : Fin 16} {v : Word} {n : Nat} (h : named w v n = true) : n < 512 := by
  unfold named at h
  rw [Bool.and_eq_true, decide_eq_true_eq] at h
  omega

/-! ## SRC_EN_SET (R293, R302) -/

section
variable (s : State) (w : Fin 16) (v : Word)

/-- The sampling of SEEN leaves the sources of every vector as hot as they were. -/
theorem seenSync_vecHot (u : Nat) : s.seenSync.vecHot u = s.vecHot u := by
  rw [State.seenSync_frame, State.vecHot_vecs]

theorem srcEnSet_frame : s.srcEnSet w v = { s with intc := { s.intc with en := (s.srcEnSet w v).intc.en, vecs := (s.srcEnSet w v).intc.vecs } } := by
  unfold State.srcEnSet
  rw [State.seenSync_frame]

theorem srcEnSet_en (n : Nat) : (s.srcEnSet w v).intc.en.getLsbD n = (s.intc.en.getLsbD n || named w v n) := by
  unfold State.srcEnSet
  rw [State.seenSync_frame]
  dsimp only
  rw [BitVec.getLsbD_or, srcMask_bit _ w.isLt]

/-- Enabling a source changes SEEN alone of a vector, and samples it where the vector is ACTIVE. -/
theorem srcEnSet_vec (u : Nat) : (s.srcEnSet w v).vec u = { s.vec u with seen := ((s.srcEnSet w v).vec u).seen } ∧
    ((s.vec u).active = true → ((s.srcEnSet w v).vec u).seen = ((s.vec u).seen || (s.srcEnSet w v).vecHot u)) := by
  unfold State.srcEnSet
  rw [seenSync_vecHot]
  exact State.seenSync_vec _ u

end

/-! ## Events of the named edge sources (R293) -/

section
variable (s : State) (n : Nat)

theorem irqEdge_en : (s.irqEdge n).intc.en = s.intc.en := by rw [State.irqEdge_frame]

theorem irqEdge_srcs : (s.irqEdge n).intc.srcs = s.intc.srcs := by rw [State.irqEdge_frame]

/-- An event leaves a pending vector pending, and the event of an enabled source makes its vector so. -/
theorem irqEdge_pend (u : Nat) : ((s.irqEdge n).vec u).pend = ((s.vec u).pend || decide (s.intc.en.getLsbD n = true ∧ (s.srcCfg n).vector = u)) := by
  rw [State.irqEdge_vec]
  dsimp only
  split
  · rename_i h; simp [Vec.event, h]
  · rename_i h; simp [h]

/-- An event leaves a ripe vector ripe, and the event of an enabled urgent source makes its vector so. -/
theorem irqEdge_ripe (u : Nat) (h : (s.vec u).ripe = true ∨ (s.intc.en.getLsbD n = true ∧ (s.srcCfg n).vector = u ∧ (s.srcCfg n).urgent = true)) :
    ((s.irqEdge n).vec u).ripe = true := by
  rw [State.irqEdge_vec]
  dsimp only
  split
  · rcases h with h | ⟨_, _, h⟩ <;> simp [Vec.event, h]
  · rename_i hn
    exact h.resolve_right fun ⟨he, hv, _⟩ => hn ⟨he, hv⟩

end

section
variable (s : State) (l : List Nat)

/-- Events of edge sources one after another. -/
def edgeEvents : State := s.each l (fun n a => a.irqEdge n)

/-- The enables and the configurations of the sources stand as in s. -/
def SameSources (c : State) : Prop := c.intc.en = s.intc.en ∧ c.intc.srcs = s.intc.srcs

variable {s} in
theorem SameSources.irqEdge {c : State} (h : SameSources s c) (n : Nat) : SameSources s (c.irqEdge n) :=
  ⟨(irqEdge_en c n).trans h.1, (irqEdge_srcs c n).trans h.2⟩

variable {s} in
theorem SameSources.srcCfg {c : State} (h : SameSources s c) (n : Nat) : c.srcCfg n = s.srcCfg n := congrArg (fun t => Tab.get t SrcCfg.reset n) h.2

theorem edgeEvents_frame : edgeEvents s l = { s with intc := { s.intc with lat := (edgeEvents s l).intc.lat, vecs := (edgeEvents s l).intc.vecs } } :=
  each_keep (fun c => c = { s with intc := { s.intc with lat := c.intc.lat, vecs := c.intc.vecs } }) _ (fun n c hc => by
    obtain ⟨x, y, hx⟩ : ∃ x y, c = { s with intc := { s.intc with lat := x, vecs := y } } := ⟨_, _, hc⟩
    obtain ⟨p, q, hp⟩ : ∃ p q, c.irqEdge n = { c with intc := { c.intc with lat := p, vecs := q } } := ⟨_, _, State.irqEdge_frame c n⟩
    rw [hp, hx]) l s rfl

theorem edgeEvents_lat (hl : ∀ n ∈ l, n < 512) (m : Nat) :
    (edgeEvents s l).intc.lat.getLsbD m = (s.intc.lat.getLsbD m || (decide (m ∈ l) && s.intc.en.getLsbD m)) := by
  unfold edgeEvents State.each
  induction l generalizing s with
  | nil => simp
  | cons n r ih =>
    rw [List.foldl_cons, ih _ (fun x hx => hl x (List.mem_cons_of_mem n hx)), State.irqEdge_lat s n (hl n List.mem_cons_self), irqEdge_en]
    by_cases h : m = n
    · subst h; cases s.intc.en.getLsbD m <;> simp
    · simp [h]

/-- The vector of an enabled source that has had an event is pending, and ripe when the source is urgent. -/
theorem edgeEvents_pends {n : Nat} (hn : n ∈ l) (he : s.intc.en.getLsbD n = true) :
    ((edgeEvents s l).vec (s.srcCfg n).vector).pend = true ∧ ((s.srcCfg n).urgent = true → ((edgeEvents s l).vec (s.srcCfg n).vector).ripe = true) := by
  have enabled : ∀ c, SameSources s c → c.intc.en.getLsbD n = true ∧ (c.srcCfg n).vector = (s.srcCfg n).vector ∧ (c.srcCfg n).urgent = (s.srcCfg n).urgent :=
    fun c hc => ⟨hc.1 ▸ he, by rw [hc.srcCfg], by rw [hc.srcCfg]⟩
  constructor
  · refine each_reach (SameSources s) (fun c => (c.vec (s.srcCfg n).vector).pend = true) _ l (fun m _ c hc => hc.irqEdge m) (fun m _ c _ hp => ?_) n hn (fun c hc => ?_) s ⟨rfl, rfl⟩
    · rw [irqEdge_pend, hp, Bool.true_or]
    · obtain ⟨en, vector, _⟩ := enabled c hc
      rw [irqEdge_pend, decide_eq_true ⟨en, vector⟩, Bool.or_true]
  · intro urgent
    refine each_reach (SameSources s) (fun c => (c.vec (s.srcCfg n).vector).ripe = true) _ l (fun m _ c hc => hc.irqEdge m) (fun m _ c _ hp => ?_) n hn (fun c hc => ?_) s ⟨rfl, rfl⟩
    · exact irqEdge_ripe c m _ (.inl hp)
    · obtain ⟨en, vector, same⟩ := enabled c hc
      exact irqEdge_ripe c n _ (.inr ⟨en, vector, same.trans urgent⟩)

/-- A vector that is the vector of no enabled source among them changes in SEEN alone. -/
theorem edgeEvents_other {u : Nat} (h : ∀ n ∈ l, s.intc.en.getLsbD n = true → (s.srcCfg n).vector ≠ u) :
    (edgeEvents s l).vec u = { s.vec u with seen := ((edgeEvents s l).vec u).seen } := by
  refine (each_keep_mem (fun c => SameSources s c ∧ c.vec u = { s.vec u with seen := (c.vec u).seen }) _ l (fun n hn c hc => ?_) s ⟨⟨rfl, rfl⟩, rfl⟩).2
  obtain ⟨same, vec⟩ := hc
  have quiet : ¬ (c.intc.en.getLsbD n = true ∧ (c.srcCfg n).vector = u) := by
    rw [same.1, same.srcCfg]
    exact not_and.mpr (h n hn)
  have event := State.irqEdge_vec c n u
  rw [if_neg quiet] at event
  exact ⟨same.irqEdge n, event.trans (by rw [vec])⟩

end

section
variable (s : State) (w : Nat) (v : Word)

/-- SRC_LAT_SET is an event of each edge source that the written word names. -/
theorem srcLatSet_eq : s.srcLatSet w v = edgeEvents s ((wordBits (32 * w) v).filter edgeSrc) := rfl

theorem mem_namedEdges (n : Nat) : n ∈ (wordBits (32 * w) v).filter edgeSrc ↔ named w v n = true ∧ edgeSrc n = true := by
  rw [List.mem_filter, mem_wordBits]

end

/-! ## SRC_CFG (R291, R293) -/

section
variable {s : State} {n : Nat} (v : Word)

theorem srcCfgWrite_reserved (h : (edgeSrc n || levelSrc n) = false) : s.srcCfgWrite n v = s := by
  unfold State.srcCfgWrite
  rw [h]
  rfl

theorem srcCfgWrite_blocked (h : (edgeSrc n || levelSrc n) = true) (he : s.intc.en.getLsbD n = true) : s.srcCfgWrite n v = s.intcBlocked := by
  unfold State.srcCfgWrite
  rw [h, if_pos he]
  rfl

theorem srcCfgWrite_taken (h : (edgeSrc n || levelSrc n) = true) (he : s.intc.en.getLsbD n = false) :
    s.srcCfgWrite n v = { s with intc := { s.intc with srcs := s.intc.srcs.set SrcCfg.reset n { urgent := v.getLsbD 30, vector := bitsOf v 0 6 } } } := by
  unfold State.srcCfgWrite
  rw [h, he]
  rfl

end

/-! ## The rows of these writes on a device out of reset -/

section
variable {s : State} {w : Fin 16} {v : Word}

theorem exec_srcEnSet (hr : s.runs) : exec (.srcEnSet w v) s = .next (s.srcEnSet w.val v) := exec_live (f := fun x => x.srcEnSet w.val v) rfl hr
theorem exec_srcEnClr (hr : s.runs) : exec (.srcEnClr w v) s = .next (s.srcEnClr w.val v) := exec_live (f := fun x => x.srcEnClr w.val v) rfl hr
theorem exec_srcLatSet (hr : s.runs) : exec (.srcLatSet w v) s = .next (s.srcLatSet w.val v) := exec_live (f := fun x => x.srcLatSet w.val v) rfl hr
theorem exec_srcLatClr (hr : s.runs) : exec (.srcLatClr w v) s = .next (s.srcLatClr w.val v) := exec_live (f := fun x => x.srcLatClr w.val v) rfl hr
theorem exec_srcCfgWrite {n : Fin 512} (hr : s.runs) : exec (.srcCfgWrite n v) s = .next (s.srcCfgWrite n.val v) := exec_live (f := fun x => x.srcCfgWrite n.val v) rfl hr

end

/-- Settles O8: enables and latches are set and cleared bit by bit, SRC_LAT_SET is an event of each edge source that it names, and SRC_CFG is written while its source is disabled. -/
theorem interruptSourceWrites : Obligations.InterruptSourceWrites := by
  unfold Obligations.InterruptSourceWrites
  refine ⟨fun s w v hr => ?enable, fun s w v hr => ?disable, fun s w v hr => ?unlatch, fun s w v hr => ?latch, fun s n v hr => ?config⟩
  case enable => exact ⟨_, exec_srcEnSet hr, srcEnSet_frame s w v, srcEnSet_en s w v, srcEnSet_vec s w v⟩
  case disable => exact ⟨_, exec_srcEnClr hr, rfl, fun n => (getLsbD_and_not _ _ n).trans (by rw [srcMask_bit _ w.isLt])⟩
  case unlatch => exact ⟨_, exec_srcLatClr hr, rfl, fun n => (getLsbD_and_not _ _ n).trans (by rw [srcMask_bit _ w.isLt])⟩
  case latch =>
    have named_edge := mem_namedEdges w.val v
    refine ⟨_, exec_srcLatSet hr, ?_⟩
    rw [srcLatSet_eq]
    refine ⟨edgeEvents_frame s _, fun n => ?latches, fun n hn he en => ?pends, fun u h => ?other⟩
    case latches =>
      rw [edgeEvents_lat s _ (fun m hm => named_lt ((named_edge m).mp hm).1), decide_eq_decide.mpr (named_edge n), Bool.decide_and, Bool.decide_eq_true, Bool.decide_eq_true]
    case pends => exact edgeEvents_pends s _ ((named_edge n).mpr ⟨hn, he⟩) en
    case other => exact edgeEvents_other s _ fun n hn en => h n ((named_edge n).mp hn).1 ((named_edge n).mp hn).2 en
  case config =>
    refine ⟨_, exec_srcCfgWrite hr, fun h he => ?taken, fun h he => ?blocked, fun h => ?reserved⟩
    case taken =>
      rw [srcCfgWrite_taken v h he]
      exact ⟨rfl, Tab.get_set_self _ _ _ _, fun m hm => Tab.get_set_ne _ _ _ _ _ _ (Ne.symm hm)⟩
    case blocked => exact srcCfgWrite_blocked v h he
    case reserved => exact srcCfgWrite_reserved v h

end Sys2Proof.Proofs
end

section
/-! SUPPORT and the settlement of O9: writes to the vector registers of INTC (R294, R297, R303, R304, R307). -/

namespace Sys2Proof.Proofs

open Sys2Proof.Machine Sys2Proof.Laws

/-! ## One change of each named vector (R294, R304) -/

section
variable (s : State) (h : Nat) (v : Word) (f : Vec → Vec)

theorem eachVec_frame (l : List Nat) : s.each l (fun n a => a.updVec n f) = { s with intc := { s.intc with vecs := (s.each l (fun n a => a.updVec n f)).intc.vecs } } :=
  State.foldl_vecs s l _ fun _ _ => rfl

/-- A change that its repetition does not alter, of each vector that a written word names. -/
theorem eachVec_named (hf : ∀ x, f (f x) = f x) (u : Nat) :
    (s.each (wordBits (32 * h) v) (fun n a => a.updVec n f)).vec u = if named h v u then f (s.vec u) else s.vec u := by
  rw [State.vec_each s _ f hf, if_congr (mem_wordBits h v u) rfl rfl]

end

/-! ## VEC_PEND_CLR (R294) -/

/-- A vector that VEC_PEND_CLR names: no longer pending, and pending again where an enabled level source is asserted. -/
def pendCleared (level : Bool) (now : Nat) (x : Vec) : Vec :=
  if level then ({ x with pend := false, ripe := false } : Vec).rePend now else { x with pend := false, ripe := false }

/-- What VEC_PEND_CLR does to the state for one vector that it names. -/
def clearPend (n : Nat) (a : State) : State := a.updVec n (pendCleared (a.vecLevel n) a.now)

section
variable (s : State)

/-- Whether a vector has an asserted level source does not depend on the vectors. -/
theorem updVec_vecLevel (n u : Nat) (f : Vec → Vec) : (s.updVec n f).vecLevel u = s.vecLevel u := rfl

/-- The two changes of VEC_PEND_CLR to a vector are one. -/
theorem vecPendClr_eq (h : Nat) (v : Word) : s.vecPendClr h v = s.each (wordBits (32 * h) v) clearPend := by
  have same : (fun (n : Nat) (a : State) =>
      let b := a.updVec n (fun x => { x with pend := false, ripe := false })
      if b.vecLevel n then b.updVec n (fun x => x.rePend b.now) else b) = clearPend := by
    funext n a
    unfold clearPend pendCleared
    dsimp only
    rw [updVec_vecLevel]
    split
    · exact State.updVec_twice _ _ _ _
    · rfl
  exact congrArg (s.each (wordBits (32 * h) v)) same

theorem clearPends_frame (l : List Nat) : s.each l clearPend = { s with intc := { s.intc with vecs := (s.each l clearPend).intc.vecs } } :=
  State.foldl_vecs s l (fun a n => clearPend n a) fun a n => (State.updVec_only a n _).1

/-- Time and the level sources stand as in s. -/
def SameLevels (c : State) : Prop := c.now = s.now ∧ ∀ u, c.vecLevel u = s.vecLevel u

variable {s} in
theorem SameLevels.clearPend {c : State} (h : SameLevels s c) (n : Nat) : SameLevels s (clearPend n c) :=
  ⟨(State.updVec_now c n _).trans h.1, fun u => (updVec_vecLevel c n u _).trans (h.2 u)⟩

theorem clearPends_vec (h : Nat) (v : Word) (u : Nat) :
    (s.each (wordBits (32 * h) v) clearPend).vec u = if named h v u then pendCleared (s.vecLevel u) s.now (s.vec u) else s.vec u := by
  have changes := State.vec_each_of s (SameLevels s) clearPend (fun n x => pendCleared (s.vecLevel n) s.now x) (fun n _ ha => ha.clearPend n)
    (fun n a ha => by
      obtain ⟨now, level⟩ := ha
      exact (State.vec_updVec _ _ _).trans (by rw [now, level]))
    (fun n a u _ hu => State.vec_updVec_ne _ _ _ _ hu) _ (wordBits_nodup (32 * h) v) ⟨rfl, fun _ => rfl⟩ u
  rw [changes, if_congr (mem_wordBits h v u) rfl rfl]

end

/-! ## VEC_CFG (R307) -/

section
variable {s : State} {n : Nat} {w : Word}

theorem vecCfgWrite_blocked (h : (s.vec n).mask = false ∨ (s.vec n).active = true) : s.vecCfgWrite n w = s.intcBlocked := by
  unfold State.vecCfgWrite
  rw [if_pos (by simpa using h)]

section
variable (hm : (s.vec n).mask = true) (ha : (s.vec n).active = false)
include hm ha

theorem vecCfgWrite_reserved (h : bitsOf w 30 2 = 3) : s.vecCfgWrite n w = s := by
  unfold State.vecCfgWrite
  rw [hm, ha, if_pos h]
  rfl

theorem vecCfgWrite_taken (h : bitsOf w 30 2 ≠ 3) : s.vecCfgWrite n w = s.updVec n (fun x => { x with target := bitsOf w 30 2, prio := w.extractLsb' 0 8 }) := by
  unfold State.vecCfgWrite
  rw [hm, ha, if_neg h]
  rfl

end

end

/-! ## PRIGROUP (R297) -/

section
variable {s : State} {v : Word}

theorem intnRuns_iff : s.intnRuns = true ↔ ∃ u, u < 64 ∧ (s.vec u).active = true ∧ (s.vec u).target = 1 := by
  simp [State.intnRuns]

theorem prigroupWrite_blocked (h : ∃ u, u < 64 ∧ (s.vec u).active = true ∧ (s.vec u).target = 1) : s.prigroupWrite v = s.intcBlocked := if_pos (intnRuns_iff.mpr h)

theorem prigroupWrite_taken (h : ∀ u, u < 64 → (s.vec u).active = true → (s.vec u).target ≠ 1) :
    s.prigroupWrite v = { s with intc := { s.intc with prigroup := v.extractLsb' 0 8 } } :=
  if_neg fun runs => by
    obtain ⟨u, hu, active, target⟩ := intnRuns_iff.mp runs
    exact h u hu active target

end

/-! ## The rows of these writes on a device out of reset -/

section
variable {s : State} {h : Fin 2} {n : Fin 64} {v : Word}

theorem exec_vecMaskSet (hr : s.runs) : exec (.vecMaskSet h v) s = .next (s.vecMask h.val v true) := exec_live (f := fun x => x.vecMask h.val v true) rfl hr
theorem exec_vecMaskClr (hr : s.runs) : exec (.vecMaskClr h v) s = .next (s.vecMask h.val v false) := exec_live (f := fun x => x.vecMask h.val v false) rfl hr
theorem exec_vecMaskRead (hr : s.runs) : exec (.vecMaskRead h) s = .next (s.vecMaskRead h.val) := exec_live (f := fun x => x.vecMaskRead h.val) rfl hr
theorem exec_vecPendSet (hr : s.runs) : exec (.vecPendSet h v) s = .next (s.vecPendSet h.val v) := exec_live (f := fun x => x.vecPendSet h.val v) rfl hr
theorem exec_vecPendClr (hr : s.runs) : exec (.vecPendClr h v) s = .next (s.vecPendClr h.val v) := exec_live (f := fun x => x.vecPendClr h.val v) rfl hr
theorem exec_vecCfgWrite (hr : s.runs) : exec (.vecCfgWrite n v) s = .next (s.vecCfgWrite n.val v) := exec_live (f := fun x => x.vecCfgWrite n.val v) rfl hr
theorem exec_vecCoalWrite (hr : s.runs) : exec (.vecCoalWrite n v) s = .next (s.vecCoalWrite n.val v) := exec_live (f := fun x => x.vecCoalWrite n.val v) rfl hr
theorem exec_prigroupWrite (hr : s.runs) : exec (.prigroupWrite v) s = .next (s.prigroupWrite v) := exec_live (f := fun x => x.prigroupWrite v) rfl hr

end

/-- Settles O9: the array writes are one change of each vector that they name, the others an update of one vector or of PRIGROUP, or WR_BLOCKED alone. -/
theorem interruptVectorWrites : Obligations.InterruptVectorWrites := by
  unfold Obligations.InterruptVectorWrites
  refine ⟨fun s h v hr => ?mask, fun s h v hr => ?unmask, fun s h hr => ?read, fun s h v hr => ?pend, fun s h v hr => ?unpend, fun s n w hr => ?config, fun s n w hr => ?coalesce, fun s v hr => ?group⟩
  case mask => exact ⟨_, exec_vecMaskSet hr, eachVec_frame s _ _, eachVec_named s h v _ fun _ => rfl⟩
  case unmask => exact ⟨_, exec_vecMaskClr hr, eachVec_frame s _ _, eachVec_named s h v _ fun _ => rfl⟩
  case read =>
    refine ⟨_, exec_vecMaskRead hr, rfl, fun p hp => Tab.get_set_ne _ _ _ _ _ _ (Ne.symm hp), fun i hi => ?_⟩
    have shown : (s.vecMaskRead h.val).hif.rdData.get 0 0 = s.vecWord h.val (fun v => (s.vec v).mask) := Tab.get_set_self _ _ _ _
    rw [shown]
    exact State.vecWord_bit s h.val _ i hi
  case pend => exact ⟨_, exec_vecPendSet hr, eachVec_frame s _ _, eachVec_named s h v _ fun _ => rfl⟩
  case unpend =>
    refine ⟨_, exec_vecPendClr hr, ?_⟩
    rw [vecPendClr_eq]
    exact ⟨clearPends_frame s _, clearPends_vec s h v⟩
  case config =>
    refine ⟨_, exec_vecCfgWrite hr, fun hm ha h => ?taken, fun hm ha h => vecCfgWrite_reserved hm ha h, fun h => vecCfgWrite_blocked h⟩
    case taken =>
      rw [vecCfgWrite_taken hm ha h]
      exact ⟨rfl, (State.updVec_only s n.val _).2, State.vec_updVec _ _ _⟩
  case coalesce => exact ⟨_, exec_vecCoalWrite hr, rfl, (State.updVec_only s n.val _).2, State.vec_updVec _ _ _⟩
  case group => exact ⟨_, exec_prigroupWrite hr, fun h => prigroupWrite_blocked h, fun h => prigroupWrite_taken h⟩

end Sys2Proof.Proofs
end

section
/-! SUPPORT and the settlement of O10: the launch points of interrupt vectors and their coalescing timers (R295 to R299, R302). -/

namespace Sys2Proof.Proofs

open Sys2Proof.Machine Sys2Proof.Laws

/-! ## The launch is the claim (R296) -/

section
variable (s : State)

/-- A claim claims its vector, on every state whose vectors and whose vector's sources stand as in s. -/
theorem claim_claims {a : State} (v : Nat) (vecs : a.intc.vecs = s.intc.vecs) (hot : a.vecHot v = s.vecHot v) : s.Claimed v (a.claim v) := by
  have same : ∀ u, a.vec u = s.vec u := fun u => congrArg (fun t => Tab.get t Vec.reset u) vecs
  constructor
  · exact fun u hu => (State.vec_updVec_ne _ _ _ _ (Ne.symm hu)).trans (same u)
  · unfold State.claim
    rw [State.vec_updVec, same, hot]

/-- What holds where nothing is picked holds where no vector is ready; with one ready, what holds of the vector picked holds of a ready vector before which no other goes. -/
theorem pickVec_cases {target : Nat} {idle : Prop} {taken : Nat → Prop} (idles : s.pickVec target = none → idle) (takes : ∀ v, s.pickVec target = some v → taken v) :
    ((∀ v, v < 64 → s.vecReady target v = false) → idle) ∧
    ((∃ v, v < 64 ∧ s.vecReady target v = true) → ∃ v, v < 64 ∧ s.vecReady target v = true ∧ (∀ u, u < 64 → s.vecReady target u = true → u ≠ v → s.vecBefore v u = true) ∧ taken v) := by
  rcases State.pickVec_spec s target with ⟨pick, unready⟩ | ⟨v, pick, hv, ready, first⟩
  · exact ⟨fun _ => idles pick, fun ⟨v, hv, ready⟩ => absurd ((unready v hv).symm.trans ready) Bool.false_ne_true⟩
  · exact ⟨fun unready => absurd ((unready v hv).symm.trans ready) Bool.false_ne_true, fun _ => ⟨v, hv, ready, first, takes v pick⟩⟩

end

/-! ## INTC_CLAIM (R299) -/

/-- The state with the value that INTC_CLAIM returns for a claim. -/
def claimShown (s : State) (c : Option Nat) : State :=
  { s with intc := { s.intc with claimed := c }, hif := { s.hif with rdData := s.hif.rdData.set 0 0 (claimWord c) } }

section
variable {s : State}

theorem claimShown_value (c : Option Nat) : (claimShown s c).hif.rdData.get 0 0 = claimWord c := Tab.get_set_self _ _ _ _

theorem intcClaim_none (h : s.pickVec 1 = none) : s.intcClaim = claimShown s none := by
  unfold State.intcClaim
  rw [h]
  rfl

theorem intcClaim_some {v : Nat} (h : s.pickVec 1 = some v) : s.intcClaim = (claimShown s (some v)).claim v := by
  unfold State.intcClaim
  rw [h]
  rfl

variable (s) in
theorem intcClaim_frame : s.intcClaim = { s with
    intc := { s.intc with vecs := s.intcClaim.intc.vecs, claimed := s.intcClaim.intc.claimed }, hif := { s.hif with rdData := s.intcClaim.hif.rdData } } := by
  cases h : s.pickVec 1 with
  | none => rw [intcClaim_none h]; rfl
  | some v => rw [intcClaim_some h]; rfl

/-- INTC_CLAIM returns its value at place 0 of the reads and leaves the other places alone. -/
theorem intcClaim_rdData (s : State) : s.intcClaim.hif.rdData = s.hif.rdData.set 0 0 (claimWord (s.pickVec 1)) := by
  cases h : s.pickVec 1 with
  | none => rw [intcClaim_none h]; rfl
  | some v => rw [intcClaim_some h]; rfl

end

/-! ## VECTOR_LAUNCH (R296, R298, R305) -/

/-- The message of MSI-X vector v has left (R298). -/
def msixSent (s : State) (v : Nat) : State :=
  s.hostWrite ((s.msixWord (4 * v + 1)).toNat * 2 ^ 32 + (s.msixWord (4 * v)).toNat) [s.msixWord (4 * v + 2)]

section
variable {s : State}

theorem supervisorLaunch_none (h : s.pickVec 2 = none) : s.vectorLaunch true = s := by
  unfold State.vectorLaunch
  rw [if_pos rfl, h]

theorem supervisorLaunch_some {v : Nat} (h : s.pickVec 2 = some v) : s.vectorLaunch true = s.claim v := by
  unfold State.vectorLaunch
  rw [if_pos rfl, h]

theorem msixLaunch_none (h : s.pickVec 0 = none) : s.vectorLaunch false = s := by
  unfold State.vectorLaunch
  rw [if_neg Bool.false_ne_true, h]

theorem msixLaunch_some {v : Nat} (h : s.pickVec 0 = some v) : s.vectorLaunch false = (msixSent s v).claim v := by
  unfold State.vectorLaunch
  rw [if_neg Bool.false_ne_true, h]
  rfl

variable (s)

theorem supervisorLaunch_frame : s.vectorLaunch true = { s with intc := { s.intc with vecs := (s.vectorLaunch true).intc.vecs } } := by
  cases h : s.pickVec 2 with
  | none => rw [supervisorLaunch_none h]
  | some v => rw [supervisorLaunch_some h]; rfl

theorem msixLaunch_frame : s.vectorLaunch false = { s with
    intc := { s.intc with vecs := (s.vectorLaunch false).intc.vecs }, hif := { s.hif with hostWrites := (s.vectorLaunch false).hif.hostWrites } } := by
  cases h : s.pickVec 0 with
  | none => rw [msixLaunch_none h]
  | some v => rw [msixLaunch_some h]; rfl

end

/-! ## COALESCE_TIMER (R295) -/

section
variable {s : State} {v f : Nat}

theorem coalesceTimer_idle (h : (s.vec v).first = none) : s.coalesceTimer v = s := by
  unfold State.coalesceTimer
  dsimp only
  rw [h]

theorem coalesceTimer_runs (h : (s.vec v).first = some f) :
    s.coalesceTimer v = if (s.vec v).pend = true ∧ f + (s.vec v).timeUse * tus ≤ s.now then s.updVec v (fun x => { x with ripe := true }) else s := by
  unfold State.coalesceTimer
  dsimp only
  rw [h]

theorem coalesceTimer_waits (h : (s.vec v).first = some f) (hw : (s.vec v).pend = false ∨ s.now < f + (s.vec v).timeUse * tus) : s.coalesceTimer v = s := by
  rw [coalesceTimer_runs h, if_neg]
  rintro ⟨pend, due⟩
  exact hw.elim (fun off => Bool.false_ne_true (off.symm.trans pend)) (fun early => Nat.not_le.mpr early due)

variable (s v) in
theorem coalesceTimer_only : s.onlyVec (s.coalesceTimer v) v := by
  cases h : (s.vec v).first with
  | none => rw [coalesceTimer_idle h]; exact ⟨rfl, fun _ _ => rfl⟩
  | some f =>
    rw [coalesceTimer_runs h]
    exact ite_both (s.onlyVec · v) (State.updVec_only s v _) ⟨rfl, fun _ _ => rfl⟩

end

/-! ## The rows of the launch points on a device out of reset -/

section
variable {s : State}

theorem exec_intcClaim (hr : s.runs) : exec .intcClaim s = .next s.intcClaim := exec_live (f := fun x => x.intcClaim) rfl hr
theorem exec_vectorLaunch {sv : Bool} (hr : s.runs) : exec (.vectorLaunch sv) s = .next (s.vectorLaunch sv) := exec_live (f := fun x => x.vectorLaunch sv) rfl hr
theorem exec_coalesceTimer {v : Fin 64} (hr : s.runs) : exec (.coalesceTimer v) s = .next (s.coalesceTimer v.val) := exec_live (f := fun x => x.coalesceTimer v.val) rfl hr

end

/-- Settles O10: each launch point claims the vector that `pickVec` picks, which is ready and goes before every other ready one; a timer makes its pending vector ripe. -/
theorem interruptLaunches : Obligations.InterruptLaunches := by
  unfold Obligations.InterruptLaunches
  refine ⟨fun s hr => ?claim, fun s hr => ?supervisor, fun s hr => ?msix, fun s v hr => ?timer⟩
  case claim =>
    have shown := intcClaim_rdData s
    refine ⟨_, exec_intcClaim hr, intcClaim_frame s, fun p hp => by rw [shown, Tab.get_set_ne _ _ _ _ _ _ (Ne.symm hp)], pickVec_cases s (fun pick => ?idle) (fun v pick => ?taken)⟩
    case idle =>
      rw [intcClaim_none pick]
      exact ⟨claimShown_value none, rfl, rfl⟩
    case taken =>
      rw [intcClaim_some pick]
      exact ⟨claimShown_value (some v), rfl, claim_claims s v rfl rfl⟩
  case supervisor =>
    exact ⟨_, exec_vectorLaunch hr, supervisorLaunch_frame s, pickVec_cases s supervisorLaunch_none fun v pick => by
      rw [supervisorLaunch_some pick]
      exact claim_claims s v rfl rfl⟩
  case msix =>
    exact ⟨_, exec_vectorLaunch hr, msixLaunch_frame s, pickVec_cases s msixLaunch_none fun v pick => by
      rw [msixLaunch_some pick]
      exact ⟨claim_claims s v rfl rfl, rfl⟩⟩
  case timer =>
    obtain ⟨frame, others⟩ := coalesceTimer_only s v.val
    refine ⟨_, exec_coalesceTimer hr, frame, others, fun f hf pend due => ?_, fun f hf hw => coalesceTimer_waits hf hw, fun h => coalesceTimer_idle h⟩
    rw [coalesceTimer_runs hf, if_pos ⟨pend, due⟩]
    exact State.vec_updVec _ _ _

end Sys2Proof.Proofs
end

section
/-! SUPPORT and the settlement of O11: completion of interrupt vectors (R300 to R302, R305). -/

namespace Sys2Proof.Proofs

open Sys2Proof.Machine Sys2Proof.Laws

/-! ## A vector that ends (R300 to R302) -/

/-- A completed vector, with SEEN as it stands at the completion: not ACTIVE, pending again where a level source is asserted, counted in SPUR without SEEN. -/
def endedVec (level seen : Bool) (now : Nat) (x : Vec) : Vec :=
  let y : Vec := { x with active := false, seen := seen }
  let z := if level then y.rePend now else y
  if seen then z else { z with spur := satInc 0xFFFF z.spur }

section
variable (level seen : Bool) (now : Nat) (x : Vec)

theorem endedVec_active : (endedVec level seen now x).active = false := by cases level <;> cases seen <;> rfl
theorem endedVec_seen : (endedVec level seen now x).seen = seen := by cases level <;> cases seen <;> rfl
theorem endedVec_spur : (endedVec level seen now x).spur = if seen then x.spur else satInc 0xFFFF x.spur := by cases level <;> cases seen <;> rfl

/-- It is pending again where a level source is asserted (R301). -/
theorem endedVec_pend : (endedVec level seen now x).pend = (x.pend || level) := by
  cases level
  · cases seen <;> exact (Bool.or_false _).symm
  · cases seen <;> exact (Bool.or_true _).symm

theorem endedVec_keeps_ripe (h : x.ripe = true) : (endedVec level seen now x).ripe = true := by
  cases level <;> cases seen <;> simp [endedVec, Vec.rePend, h]

theorem endedVec_ripe : (endedVec false seen now x).ripe = x.ripe := by cases seen <;> rfl

end

/-- The state once a vector has ended, before SPURIOUS is raised. -/
def vecEnded (s : State) (v : Nat) : State := s.updVec v (endedVec (s.vecLevel v) ((s.vec v).seen || s.vecHot v) s.now)

section
variable (s : State) (v : Nat)

theorem vecEnded_ends : s.Ended v (vecEnded s v) := by
  have own : (vecEnded s v).vec v = endedVec (s.vecLevel v) ((s.vec v).seen || s.vecHot v) s.now (s.vec v) := State.vec_updVec _ _ _
  obtain ⟨frame, others⟩ := State.updVec_only s v (endedVec (s.vecLevel v) ((s.vec v).seen || s.vecHot v) s.now)
  refine ⟨frame, others, ?_⟩
  rw [own]
  exact ⟨endedVec_active _ _ _ _, endedVec_seen _ _ _ _, endedVec_pend _ _ _ _, endedVec_keeps_ripe _ _ _ _, fun h => by rw [h]; exact endedVec_ripe _ _ _, endedVec_spur _ _ _ _⟩

/-- A completion ends its vector, and raises SPURIOUS where SEEN is not set: whether it is pending again and whether it counts in SPUR, its updates of the vector make one. -/
theorem vecComplete_eq : s.vecComplete v = if (s.vec v).seen || s.vecHot v then vecEnded s v else (vecEnded s v).raise 2 3 .device := by
  unfold State.vecComplete vecEnded
  generalize ((s.vec v).seen || s.vecHot v) = seen
  dsimp only
  rw [updVec_vecLevel]
  generalize s.vecLevel v = level
  cases level <;> cases seen <;> simp only [Bool.false_eq_true, if_false, if_true, State.updVec_twice] <;> rfl

end

/-! ## What the supervisor does before its completion (R305) -/

/-- The latches of the sources of a list are cleared. -/
def latchesCleared (s : State) (l : List Nat) : State := s.each l (fun n a => { a with intc := { a.intc with lat := a.intc.lat &&& ~~~(BitVec.twoPow 512 n) } })

section
variable (s : State) (l : List Nat)

theorem latchesCleared_frame : latchesCleared s l = { s with intc := { s.intc with lat := (latchesCleared s l).intc.lat } } :=
  each_keep (fun c => c = { s with intc := { s.intc with lat := c.intc.lat } }) _ (fun n c hc => by
    obtain ⟨x, hx⟩ : ∃ x, c = { s with intc := { s.intc with lat := x } } := ⟨_, hc⟩
    rw [hx]) l s rfl

theorem latchesCleared_lat (m : Nat) : (latchesCleared s l).intc.lat.getLsbD m = (s.intc.lat.getLsbD m && !decide (m ∈ l)) := by
  unfold latchesCleared State.each
  induction l generalizing s with
  | nil => simp
  | cons n r ih =>
    rw [List.foldl_cons, ih, getLsbD_and_not, BitVec.getLsbD_twoPow]
    by_cases h : m = n
    · subst h
      by_cases hm : m < 512
      · simp [hm]
      · simp [BitVec.getLsbD_of_ge _ _ (Nat.le_of_not_lt hm)]
    · simp [h, Ne.symm h]

end

section
variable (s : State) (v : Nat)

/-- The sources that the supervisor logs: the first eight of its vector. -/
def loggedSources : List Nat := (s.vecSources v).take 8

/-- The supervisor's record of a vector and its sources (R305). -/
def supervisorRecorded : State :=
  s.record (0xE00 + v) 0 0x02 false ((List.range 8).foldl (fun a i => a + fld (2 * i) ((loggedSources s v).getD i 0xFFFF)) 0)

/-- The supervisor has written its record of a vector and cleared the latches of the edge sources in it (R305). -/
def supervisorLogged : State := latchesCleared (supervisorRecorded s v) ((loggedSources s v).filter edgeSrc)

theorem supervisorRecorded_frame : supervisorRecorded s v = { s with recd := (supervisorRecorded s v).recd } := by
  unfold supervisorRecorded
  rw [State.record_low _ _ _ _ _ _ (by decide)]
  exact State.recordQ_frame _ _ _ _ _ _

theorem supervisorLogged_recd : (supervisorLogged s v).recd = (supervisorRecorded s v).recd := by
  unfold supervisorLogged
  rw [latchesCleared_frame]

theorem supervisorLogged_frame : supervisorLogged s v = { s with recd := (supervisorLogged s v).recd, intc := { s.intc with lat := (supervisorLogged s v).intc.lat } } := by
  obtain ⟨r, hr⟩ : ∃ r, supervisorRecorded s v = { s with recd := r } := ⟨_, supervisorRecorded_frame s v⟩
  obtain ⟨x, hx⟩ : ∃ x, supervisorLogged s v = { supervisorRecorded s v with intc := { (supervisorRecorded s v).intc with lat := x } } := ⟨_, latchesCleared_frame _ _⟩
  rw [hx, hr]

theorem supervisorLogged_lat (n : Nat) : (supervisorLogged s v).intc.lat.getLsbD n = (s.intc.lat.getLsbD n && !((loggedSources s v).contains n && edgeSrc n)) := by
  unfold supervisorLogged
  rw [latchesCleared_lat, supervisorRecorded_frame]
  simp [List.mem_filter]

end

section
variable {s : State} {v : Nat}

theorem supervisorVector_completes (ha : (s.vec v).active = true) (ht : (s.vec v).target = 2) : s.supervisorVector v = (supervisorLogged s v).vecComplete v := if_pos ⟨ha, ht⟩

theorem supervisorVector_idle (h : (s.vec v).active = false ∨ (s.vec v).target ≠ 2) : s.supervisorVector v = s :=
  if_neg fun ⟨active, target⟩ => h.elim (fun off => Bool.false_ne_true (off.symm.trans active)) (fun other => other target)

end

/-! ## INTC_EOI (R300) -/

section
variable {s : State} {v : Word}

theorem intcEoi_completes (ha : (s.vec (bitsOf v 0 6)).active = true) (ht : (s.vec (bitsOf v 0 6)).target ≠ 2) : s.intcEoi v = s.vecComplete (bitsOf v 0 6) := if_pos ⟨ha, ht⟩

theorem intcEoi_refused (h : (s.vec (bitsOf v 0 6)).active = false ∨ (s.vec (bitsOf v 0 6)).target = 2) : s.intcEoi v = s.raise 2 2 .device :=
  if_neg fun ⟨active, target⟩ => h.elim (fun off => Bool.false_ne_true (off.symm.trans active)) target

end

/-! ## The rows of completion on a device out of reset -/

section
variable {s : State}

theorem exec_intcEoi {v : Word} (hr : s.runs) : exec (.intcEoi v) s = .next (s.intcEoi v) := exec_live (f := fun x => x.intcEoi v) rfl hr
theorem exec_supervisorVector {v : Fin 64} (hr : s.runs) : exec (.supervisorVector v) s = .next (s.supervisorVector v.val) := exec_live (f := fun x => x.supervisorVector v.val) rfl hr

end

/-- Settles O11: both completions end their vector as `vecComplete_eq` says, the supervisor's after its record; INTC_EOI of another vector raises EOI_ERR. -/
theorem interruptCompletion : Obligations.InterruptCompletion := by
  unfold Obligations.InterruptCompletion
  refine ⟨fun s v hr ha ht => ?eoi, fun s v hr h => ?refused, fun s v hr ha ht => ?supervisor, fun s v hr h => ?idle⟩
  case eoi =>
    refine ⟨vecEnded s (bitsOf v 0 6), vecEnded_ends s _, ?_⟩
    rw [exec_intcEoi hr, intcEoi_completes ha ht, vecComplete_eq]
  case refused => rw [exec_intcEoi hr, intcEoi_refused h]
  case supervisor =>
    refine ⟨supervisorLogged s v.val, vecEnded (supervisorLogged s v.val) v.val, supervisorLogged_frame s _, supervisorLogged_recd s _, supervisorLogged_lat s _, vecEnded_ends _ _, ?_⟩
    rw [exec_supervisorVector hr, supervisorVector_completes ha ht, vecComplete_eq]
  case idle => rw [exec_supervisorVector hr, supervisorVector_idle h]

end Sys2Proof.Proofs
end

section
/-! SUPPORT and the settlement of O15, O55 and O56: severity registers and their floors (R309, R310, R315, R321). -/

namespace Sys2Proof.Proofs

open Sys2Proof.Machine Sys2Proof.Laws

/-! ## The fields of a severity register -/

section
variable {b c i : Nat} {hi k : Bool}

theorem floors_lt_four (b : Nat) : ∀ f ∈ floors b, f < 4 := by
  unfold floors
  split <;> decide

/-- Only PROT has sources beyond the eight fields of one register. -/
theorem floors_length_le (b : Nat) : (floors b).length ≤ if b = 13 then 16 else 8 := by
  unfold floors
  split
  case h_16 => exact ite_both (8 ≤ ·) (by decide) le_rfl
  all_goals decide

theorem sevKey_inj (h : sevKey c k = sevKey b hi) : c = b ∧ k = hi := by
  unfold sevKey bit at h
  cases k <;> cases hi <;> simp at h ⊢ <;> omega

/-- Field i of a register is source i of its half of the block's list. -/
theorem floors_of_half (hb : hi = true → b = 13) (h8 : i < 8) :
    (if b = 13 then (if hi then (floors b).drop 8 else (floors b).take 8) else floors b)[i]? = (floors b)[i + 8 * bit hi]? := by
  by_cases h13 : b = 13
  · rw [if_pos h13]
    cases hi with
    | false => exact List.getElem?_take_of_lt h8
    | true => exact List.getElem?_drop.trans (congrArg _ (Nat.add_comm 8 i))
  · obtain rfl : hi = false := by simpa using mt hb h13
    rw [if_neg h13]
    rfl

/-- Field i of a register is the place of source i of its half of the block. -/
theorem field_place (hb : hi = true → b = 13) (h8 : i < 8) :
    decide (8 ≤ i + 8 * bit hi ∧ b = 13) = hi ∧ (i + 8 * bit hi) % (if b = 13 then 8 else 16) = i := by
  cases hi with
  | false =>
    refine ⟨decide_eq_false fun h => absurd h.1 (by simpa [bit] using h8), ?_⟩
    exact Nat.mod_eq_of_lt (by split <;> simp [bit] <;> omega)
  | true =>
    refine ⟨decide_eq_true ⟨by simp [bit], hb rfl⟩, ?_⟩
    rw [if_pos (hb rfl)]
    simp only [bit, if_true]
    omega

/-- Every source of a block has its field. -/
theorem source_place {n : Nat} (hn : n < (floors b).length) : ∃ i hi, i < 8 ∧ (hi = true → b = 13) ∧ n = i + 8 * bit hi := by
  have hlen := hn.trans_le (floors_length_le b)
  by_cases h8 : n < 8
  · exact ⟨n, false, h8, nofun, rfl⟩
  · have h13 : b = 13 := by
      by_contra h13
      rw [if_neg h13] at hlen
      exact h8 hlen
    rw [if_pos h13] at hlen
    exact ⟨n - 8, true, by omega, fun _ => h13, by simp only [bit, if_true]; omega⟩

/-- The severity of a source is read from its field of the register in force. -/
theorem sev_field (s : State) (hb : hi = true → b = 13) (h8 : i < 8) : s.sev b (i + 8 * bit hi) = bitsOf (s.sevUse b hi) (2 * i) 2 := by
  obtain ⟨half, place⟩ := field_place hb h8
  unfold State.sev
  rw [half, place]

end

/-! ## Reads after a write of one register -/

section
variable {s t : State} {b c : Nat} {hi k : Bool} {w : Word} {x : Bool}

theorem sevReg_congr (h : t.flt.sev = s.flt.sev) : t.sevReg b hi = s.sevReg b hi := by
  unfold State.sevReg
  rw [h]

theorem sevReg_set_self (h : t.flt.sev = s.flt.sev.set (cword (sevReset b hi)) (sevKey b hi) w) : t.sevReg b hi = w := by
  unfold State.sevReg
  rw [h, Tab.get_set_self]

theorem sevReg_set_other (h : t.flt.sev = s.flt.sev.set (cword (sevReset b hi)) (sevKey b hi) w) (hk : sevKey c k ≠ sevKey b hi) : t.sevReg c k = s.sevReg c k := by
  unfold State.sevReg
  rw [h, Tab.get_set_ne _ _ _ _ _ _ hk.symm]

theorem sevLost_set_other (h : t.flt.sevLost = s.flt.sevLost.set false (sevKey b hi) x) (hr : t.sevReg c k = s.sevReg c k) (hk : sevKey c k ≠ sevKey b hi) :
    t.sevIsLost c k = s.sevIsLost c k := by
  unfold State.sevIsLost
  rw [h, hr, Tab.get_set_ne _ _ _ _ _ _ hk.symm]

/-- A register that holds a complemented word and is not marked lost is in force. -/
theorem sevIsLost_clear (h : t.flt.sevLost = s.flt.sevLost.set false (sevKey b hi) false) (hr : cwordOk (t.sevReg b hi) = true) : t.sevIsLost b hi = false := by
  unfold State.sevIsLost
  rw [h, hr, Tab.get_set_self]
  rfl

theorem sevUse_good (h : s.sevIsLost b hi = false) : s.sevUse b hi = lowHalf (s.sevReg b hi) := by
  unfold State.sevUse
  rw [h]
  rfl

/-- An inverted complement leaves the value. -/
theorem lowHalf_flip (v : Word) : lowHalf (v ^^^ 0xFFFF0000) = lowHalf v := by
  have value : lowHalf 0xFFFF0000 = 0#16 := by decide
  unfold lowHalf at value ⊢
  rw [BitVec.extractLsb'_xor, value, BitVec.xor_zero]

end

/-! ## SEV_WRITE (R315) -/

section
variable {s : State} {b : Nat} {hi : Bool} {v : Word}

theorem sevWrite_unused (hb : b ≠ 13) : s.sevWrite b true v = s := if_pos ⟨rfl, hb⟩

theorem sevWrite_bad (hb : hi = true → b = 13) (hv : cwordOk v = false) : s.sevWrite b hi v = s.writeRejected :=
  (if_neg fun h => h.2 (hb h.1)).trans (if_pos (by rw [hv]; rfl))

theorem sevWrite_good (hb : hi = true → b = 13) (hv : cwordOk v = true) :
    s.sevWrite b hi v = { s with flt := { s.flt with
      sev := s.flt.sev.set (cword (sevReset b hi)) (sevKey b hi) (cword (floorSev b hi (lowHalf v))), sevLost := s.flt.sevLost.set false (sevKey b hi) false } } :=
  (if_neg fun h => h.2 (hb h.1)).trans (if_neg (by rw [hv]; decide))

theorem exec_sevWrite {b : Fin 16} (hr : s.runs) : exec (.sevWrite b hi v) s = .next (s.sevWrite b.val hi v) := exec_live (f := fun x => x.sevWrite b.val hi v) rfl hr

end

/-- Settles O15: an accepted write leaves `floorSev` in its register, as `floorSev_field` reads it; every other key of the tables reads as before. -/
theorem severityWrites : Obligations.SeverityWrites := by
  unfold Obligations.SeverityWrites
  refine ⟨fun s b hi v hr hb hv => ?rejected, fun s b hi v hr hb hv => ?accepted, fun s b v hr hb => ?unused⟩
  case rejected =>
    rw [exec_sevWrite hr, sevWrite_bad (fun h => congrArg Fin.val (hb h)) hv]
    rfl
  case accepted =>
    have hb' : hi = true → b.val = 13 := fun h => congrArg Fin.val (hb h)
    obtain ⟨t, ht⟩ : ∃ t, t = s.sevWrite b.val hi v := ⟨_, rfl⟩
    rw [sevWrite_good hb' hv] at ht
    have sevs : t.flt.sev = s.flt.sev.set (cword (sevReset b.val hi)) (sevKey b.val hi) (cword (floorSev b.val hi (lowHalf v))) := by rw [ht]
    have losts : t.flt.sevLost = s.flt.sevLost.set false (sevKey b.val hi) false := by rw [ht]
    have own : t.sevReg b.val hi = cword (floorSev b.val hi (lowHalf v)) := sevReg_set_self sevs
    have whole : cwordOk (t.sevReg b.val hi) = true := by rw [own, cwordOk_cword]
    have inForce := sevIsLost_clear losts whole
    refine ⟨t, by rw [exec_sevWrite hr, sevWrite_good hb' hv, ht], by rw [ht], whole, inForce, fun i h8 => ?_, fun c k hk => ?_⟩
    · rw [sev_field t hb' h8, sevUse_good inForce, own, lowHalf_cword, floorSev_field _ _ _ _ h8 (floors_lt_four _), floors_of_half hb' h8]
    · exact ⟨sevReg_set_other sevs hk, sevLost_set_other losts (sevReg_set_other sevs hk) hk⟩
  case unused => rw [exec_sevWrite hr, sevWrite_unused fun h => hb (Fin.ext h)]

/-! ## Floors -/

/-- Every source of a register stands in its field at its floor or above. -/
def AtFloors (b : Nat) (hi : Bool) (v : Half) : Prop := ∀ i, i < 8 → ∀ f ∈ (floors b)[i + 8 * bit hi]?, f ≤ bitsOf v (2 * i) 2

/-- Every severity register holds at least the floors of its sources. -/
def FloorsHeld (s : State) : Prop := ∀ b hi, b < 16 → AtFloors b hi (lowHalf (s.sevReg b hi))

section
variable {s t : State} {b : Nat} {hi : Bool} {v : Half}

theorem atFloors_sevReset (hb : b < 16) : AtFloors b hi (sevReset b hi) := by
  have table : ∀ b < 16, ∀ hi, ∀ i < 8, ∀ f ∈ (floors b)[i + 8 * bit hi]?, f ≤ bitsOf (sevReset b hi) (2 * i) 2 := by decide
  exact table b hb hi

theorem atFloors_floorSev (hb : hi = true → b = 13) : AtFloors b hi (floorSev b hi v) := by
  intro i h8 f hf
  rw [floorSev_field _ _ _ _ h8 (floors_lt_four _), floors_of_half hb h8, Option.mem_def.mp hf]
  exact Nat.le_max_left _ _

/-- The register view of `FloorsHeld`, source by source. -/
theorem floorsHeld_iff : FloorsHeld s ↔ ∀ b n, b < 16 → n < (floors b).length →
    (floors b).getD n 0 ≤ bitsOf (lowHalf (s.sevReg b (decide (8 ≤ n ∧ b = 13)))) (2 * (n % (if b = 13 then 8 else 16))) 2 := by
  constructor
  · intro h b n hb hn
    obtain ⟨i, hi, h8, prot, rfl⟩ := source_place hn
    obtain ⟨half, place⟩ := field_place prot h8
    rw [half, place, List.getD_eq_getElem _ _ hn]
    exact h b hi hb i h8 _ (List.getElem?_eq_getElem hn)
  · intro h b hi hb i h8 f hf
    obtain ⟨hn, rfl⟩ := List.getElem?_eq_some_iff.mp hf
    have prot : hi = true → b = 13 := by
      rintro rfl
      by_contra h13
      have := hn.trans_le (floors_length_le b)
      rw [if_neg h13] at this
      exact absurd this (by simp [bit])
    obtain ⟨half, place⟩ := field_place prot h8
    have held := h b _ hb hn
    rwa [half, place, List.getD_eq_getElem _ _ hn] at held

/-- Where the registers hold the floors, so does the severity in force: a lost register stands at its reset value (R321). -/
theorem FloorsHeld.inForce (h : FloorsHeld s) {n : Nat} (hb : b < 16) (hn : n < (floors b).length) : (floors b).getD n 0 ≤ s.sev b n := by
  obtain ⟨i, hi, h8, prot, rfl⟩ := source_place hn
  have use : AtFloors b hi (s.sevUse b hi) := ite_both (AtFloors b hi) (atFloors_sevReset hb) (h b hi hb)
  rw [sev_field s prot h8, List.getD_eq_getElem _ _ hn]
  exact use i h8 _ (List.getElem?_eq_getElem hn)

theorem floorsHeld_congr (e : t.flt.sev = s.flt.sev) (h : FloorsHeld s) : FloorsHeld t := fun b hi hb => by
  rw [sevReg_congr e]
  exact h b hi hb

theorem floorsHeld_calm {p : Tol} (hp : p.sev = false) (c : Calm p s t) (h : FloorsHeld s) : FloorsHeld t := floorsHeld_congr (c.sev hp) h

/-- Registers at reset hold the floors. -/
theorem floorsHeld_blank (e : t.flt.sev = []) : FloorsHeld t := fun b hi hb => by
  unfold State.sevReg
  rw [e, Tab.get_nil, lowHalf_cword]
  exact atFloors_sevReset hb

/-- One register written with a word at its floors. -/
theorem floorsHeld_set {w : Word} (e : t.flt.sev = s.flt.sev.set (cword (sevReset b hi)) (sevKey b hi) w) (hw : b < 16 → AtFloors b hi (lowHalf w)) (h : FloorsHeld s) :
    FloorsHeld t := fun c k hc => by
  by_cases hk : sevKey c k = sevKey b hi
  · obtain ⟨rfl, rfl⟩ := sevKey_inj hk
    rw [sevReg_set_self e]
    exact hw hc
  · rw [sevReg_set_other e hk]
    exact h c k hc

/-- One register whose complement is inverted. -/
theorem floorsHeld_flip (e : t.flt.sev = s.flt.sev.set (cword (sevReset b hi)) (sevKey b hi) (s.sevReg b hi ^^^ 0xFFFF0000)) (h : FloorsHeld s) : FloorsHeld t :=
  floorsHeld_set e (fun hb => by rw [lowHalf_flip]; exact h b hi hb) h

end

/-! ## The operations that write severity registers -/

section
variable {s : State} {b : Nat} {hi : Bool} {v : Word}

theorem floorsHeld_sevWrite (h : FloorsHeld s) : FloorsHeld (s.sevWrite b hi v) := by
  by_cases hb : hi = true ∧ b ≠ 13
  · obtain ⟨rfl, hb⟩ := hb
    rwa [sevWrite_unused hb]
  · have prot : hi = true → b = 13 := fun e => not_not.mp fun hn => hb ⟨e, hn⟩
    cases hv : cwordOk v with
    | false =>
      rw [sevWrite_bad prot hv]
      exact floorsHeld_calm (p := noTol) rfl (.writeRejected (.refl _ s)) h
    | true =>
      rw [sevWrite_good prot hv]
      exact floorsHeld_set rfl (fun _ => by rw [lowHalf_cword]; exact atFloors_floorSev prot) h

theorem floorsHeld_hifFaultsReset (h : FloorsHeld s) : FloorsHeld s.hifFaultsReset := by
  have dropped : Calm { noTol with stat := true } s (s.each ((List.range 16).map (fun n => 16 + n)) (fun k a => (a.updFsrc k (fun _ => FSrc.reset)).faultDrop k [])) :=
    .each (.refl _ s) fun _ _ c => .faultDrop (.updFsrc_any rfl c)
  unfold State.hifFaultsReset
  generalize s.each _ _ = d at dropped ⊢
  refine floorsHeld_set (s := d) (b := 1) (hi := false) (w := cword (sevReset 1 false)) rfl (fun hb => ?_) (floorsHeld_calm rfl dropped h)
  rw [lowHalf_cword]
  exact atFloors_sevReset hb

theorem floorsHeld_functionReset (h : FloorsHeld s) : FloorsHeld s.functionReset := by
  have entered : Calm noTol s (if s.hif.flrWinter then s.winterSet objDevice 9 0 else s) := .ite (fun _ => .winterSet (.refl _ s)) (fun _ => .refl _ s)
  unfold State.functionReset
  generalize (if s.hif.flrWinter then s.winterSet objDevice 9 0 else s) = d at entered ⊢
  refine floorsHeld_calm (p := noTol) rfl (.raise (.intcFlr (.refl _ _))) (floorsHeld_hifFaultsReset ?_)
  exact floorsHeld_congr (s := d) rfl (floorsHeld_calm rfl entered h)

/-- A write of BAR0 that is none of a fault register leaves every severity register. -/
theorem bar0Write_calm {off : Nat} (hf : fltRegAt off = none) : Calm { noTol with pol := true } s (s.bar0Write off v) := by
  have r := Calm.refl { noTol with pol := true } s
  unfold State.bar0Write
  rw [hf]
  dsimp only
  split
  · exact .ite (fun _ => .genVidWrite r) (fun _ => r)
  · exact .hifWrite r
  · exact .intcWrite r
  · exact .ite (fun _ => .policyWrite r) (fun _ => r)
  · exact .recWrite r
  · exact .ite (fun _ => .timSlackClr r) (fun _ => r)
  · exact .rfeWrite r
  · exact .ite (fun _ => .dcbCfgWrite r) (fun _ => r)
  · exact .ite (fun _ => .cxPolWrite rfl r) (fun _ => r)
  · exact .jlWrite r
  · exact .ite (fun _ => .tmuxWrite r) (fun _ => r)
  · exact r

theorem floorsHeld_bar0Write {off : Nat} (h : FloorsHeld s) : FloorsHeld (s.bar0Write off v) := by
  cases hf : fltRegAt off with
  | none => exact floorsHeld_calm rfl (bar0Write_calm hf) h
  | some r =>
    have acts : s.bar0Write off v = s.fltRegWrite r v := by
      unfold State.bar0Write
      rw [hf]
    rw [acts]
    cases r with
    | status => exact h
    | sev => exact floorsHeld_sevWrite h
    | ack => exact floorsHeld_calm (p := { noTol with stat := true }) rfl (.faultAck rfl (.refl _ s)) h
    | grace => exact floorsHeld_calm (p := noTol) rfl (.graceWrite (.refl _ s)) h

theorem floorsHeld_regWrite {sp : RegSpace} {off : Nat} (h : FloorsHeld s) : FloorsHeld (s.regWrite sp off v) := by
  have r := Calm.refl noTol s
  cases sp with
  | bar0 => exact ite_both FloorsHeld (floorsHeld_bar0Write h) h
  | bar2 => exact floorsHeld_calm rfl (.ite (fun _ => .bar2Write r) (fun _ => .unsupported r)) h
  | bar4 => exact h
  | pciCommand => exact floorsHeld_calm rfl (.ite (fun _ => .busMasterOn r) (fun _ => .busMasterOff r)) h
  | msixControl => exact floorsHeld_congr rfl h

theorem floorsHeld_injSev (h : FloorsHeld s) : FloorsHeld (s.injSev b) := by
  unfold State.injSev
  exact ite_both FloorsHeld (floorsHeld_flip rfl (floorsHeld_flip rfl h)) (floorsHeld_flip rfl h)

theorem floorsHeld_injCompl {a : Nat} (h : FloorsHeld s) : FloorsHeld (s.injCompl a) := by
  unfold State.injCompl
  split
  · exact floorsHeld_congr rfl h
  · split
    · exact floorsHeld_flip rfl h
    · exact ite_both FloorsHeld h (ite_both FloorsHeld (floorsHeld_congr rfl h) (floorsHeld_congr rfl h))

theorem floorsHeld_inject {f : State → State} (hf : ∀ {a}, FloorsHeld a → FloorsHeld (f a)) (h : FloorsHeld s) : FloorsHeld (s.inject f) := by
  have armed : FloorsHeld (s.tapIr 0x20) := floorsHeld_congr rfl h
  unfold State.inject
  exact ite_both FloorsHeld (floorsHeld_calm (p := noTol) rfl (.raiseI (.refl _ _)) (hf armed)) (floorsHeld_congr rfl armed)

end

/-! ## Every command -/

section
variable {s t u : State}

theorem floorsHeld_next (e : (.next u : Out) = .next t) (hu : FloorsHeld u) : FloorsHeld t := by
  obtain rfl := Host.Outcome.next.inj e
  exact hu

theorem floorsHeld_live (h : FloorsHeld s) (e : (.next (if s.tst.inReset then s else u) : Out) = .next t) (hu : FloorsHeld u) : FloorsHeld t :=
  floorsHeld_next e (ite_both FloorsHeld h hu)

/-- A command that does not write severity registers keeps them (`exec_calm`); those that do are taken one by one. -/
theorem exec_floorsHeld (c : Instr) (e : exec c s = .next t) (h : FloorsHeld s) : FloorsHeld t := by
  by_cases hp : (tolOf c).sev = false
  · exact floorsHeld_calm hp (exec_calm c e) h
  · cases c with
    | sevWrite => exact floorsHeld_live h e (floorsHeld_sevWrite h)
    | functionReset => exact floorsHeld_live h e (floorsHeld_functionReset h)
    | registerWrite => exact floorsHeld_live h e (floorsHeld_regWrite h)
    | fltinjInvertSevN => exact floorsHeld_live h e (floorsHeld_inject floorsHeld_injSev h)
    | fltinjInvertComplement => exact floorsHeld_live h e (floorsHeld_inject floorsHeld_injCompl h)
    | sysRstNFall => exact floorsHeld_next e (floorsHeld_blank rfl)
    | railUndervoltage => exact floorsHeld_next e (ite_both FloorsHeld h (floorsHeld_blank rfl))
    | sysRstNRise | internalResetEnd => exact floorsHeld_next e (ite_both FloorsHeld (floorsHeld_blank rfl) h)
    | _ => exact absurd rfl hp

end

/-- Settles O56: at reset no severity register has been written. -/
theorem floorsAtReset : Obligations.FloorsAtReset := by
  have held : FloorsHeld State.reset := floorsHeld_blank rfl
  exact fun b n hb hn => ⟨floorsHeld_iff.mp held b n hb hn, held.inForce hb hn⟩

/-- Settles O55: `FloorsHeld` is kept by every command, and the severities in force follow from it. -/
theorem floorsKept : Obligations.FloorsKept := fun c s t hs e b n hb hn => by
  have held : FloorsHeld t := exec_floorsHeld c e (floorsHeld_iff.mpr hs)
  exact ⟨floorsHeld_iff.mp held b n hb hn, held.inForce hb hn⟩

end Sys2Proof.Proofs
end

section
/-! SUPPORT and the settlement of O16: the policy word (R323). -/

namespace Sys2Proof.Proofs

open Sys2Proof.Machine Sys2Proof.Laws

section
variable {s : State} {v : Word}

theorem policyWrite_locked (hl : s.policyBit 15 = true) : s.policyWrite v = s := if_pos hl

theorem policyWrite_bad (hl : s.policyBit 15 = false) (hv : cwordOk v = false) : s.policyWrite v = s.writeRejected :=
  (if_neg (by rw [hl]; decide)).trans (if_pos (by rw [hv]; rfl))

theorem policyWrite_good (hl : s.policyBit 15 = false) (hv : cwordOk v = true) :
    s.policyWrite v = { s with flt := { s.flt with policy := cword (lowHalf v &&& 0x8003) } } :=
  (if_neg (by rw [hl]; decide)).trans (if_neg (by rw [hv]; decide))

/-- A complemented policy word is in force as it stands. -/
theorem policyBit_cword {x : Half} {i : Nat} (h : s.flt.policy = cword x) (hi : i < 16) : s.policyBit i = x.getLsbD i := by
  unfold State.policyBit
  rw [h, cwordOk_cword, cword_bit, if_pos hi]
  rfl

/-- The bits that a write of the policy keeps: the two policies and LOCK. -/
theorem policy_mask_bit {i : Nat} (hi : i < 16) : (lowHalf v &&& 0x8003).getLsbD i = (v.getLsbD i && (i == 0 || i == 1 || i == 15)) := by
  have mask : ∀ i < 16, (0x8003 : Half).getLsbD i = (i == 0 || i == 1 || i == 15) := by decide
  rw [BitVec.getLsbD_and, mask i hi, lowHalf, BitVec.getLsbD_extractLsb', Nat.zero_add, decide_eq_true hi, Bool.true_and]

theorem exec_fltPolicyWrite (hr : s.runs) : exec (.fltPolicyWrite v) s = .next (s.policyWrite v) := exec_live (f := fun x => x.policyWrite v) rfl hr

end

/-- Settles O16: the three outcomes of a write, and the bits of the word that an accepted one stores. -/
theorem policyWrites : Obligations.PolicyWrites := by
  unfold Obligations.PolicyWrites
  refine ⟨fun s v hr hl => ?locked, fun s v hr hl hv => ?rejected, fun s v hr hl hv => ?accepted⟩
  case locked => rw [exec_fltPolicyWrite hr, policyWrite_locked hl]
  case rejected =>
    rw [exec_fltPolicyWrite hr, policyWrite_bad hl hv]
    rfl
  case accepted =>
    refine ⟨_, (exec_fltPolicyWrite hr).trans (congrArg _ (policyWrite_good hl hv)), rfl, cwordOk_cword _, fun i hi => ?_⟩
    rw [policyBit_cword rfl hi, policy_mask_bit hi]

end Sys2Proof.Proofs
end

section
/-! SUPPORT and the settlement of O17: acknowledgement (R312, R313, R321). -/

namespace Sys2Proof.Proofs

open Sys2Proof.Machine Sys2Proof.Laws

section
variable {s : State} {k : Nat}

/-- A word with one bit acknowledges that bit's source: an expiry that is due comes first, and a clear source is left (R312, R320). -/
theorem faultAck_one (s : State) (b : Nat) (n : Fin 16) :
    s.faultAck b (BitVec.twoPow 32 n.val) =
      if (((s.checkCopies b).graceExpiry (16 * b + n.val)).fsrc (16 * b + n.val)).status then ((s.checkCopies b).graceExpiry (16 * b + n.val)).ackOne (16 * b + n.val)
      else (s.checkCopies b).graceExpiry (16 * b + n.val) := by
  have bits : ∀ n : Fin 16, (List.range 16).filter (fun m => (BitVec.twoPow 32 n.val).getLsbD m) = [n.val] := by decide
  unfold State.faultAck
  simp only [bits n, List.map_cons, List.map_nil, State.each, List.foldl_cons, List.foldl_nil]

theorem faultAck_zero (s : State) (b : Nat) : s.faultAck b 0 = s.checkCopies b := by
  have bits : (List.range 16).filter (fun m => (0 : Word).getLsbD m) = [] := by decide
  unfold State.faultAck
  simp only [bits, List.map_nil, State.each, List.foldl_nil]

/-- Where no condition lasts and the record finds room, the source is clear before FAULT is dropped from its objects. -/
theorem ackOne_clears (hq : s.condScopes k = []) (room : s.recd.buf.length < 1024) :
    ∃ d : State, s.ackOne k = d.faultDrop k [] ∧ d.prot = s.prot ∧ d.fsrc k = FSrc.reset := by
  obtain ⟨level, block, data, acked⟩ := State.ackOne_quiet s k hq
  rw [State.record_room _ _ _ _ _ _ (show (s.updFsrc k _).recd.buf.length < 1024 from room), State.recordQ_frame] at acked
  exact ⟨_, acked, rfl, State.fsrc_updFsrc _ _ _⟩

/-- A source whose condition lasts is set anew (R313). -/
theorem ackOne_stands (hq : s.condScopes k ≠ []) : ((s.ackOne k).fsrc k).status = true := by
  unfold State.ackOne
  exact State.occurIn_status _ _ _ _ hq

theorem fsrc_faultDrop (keep : List Nat) : (s.faultDrop k keep).fsrc k = s.fsrc k := by
  rw [(State.faultDrop_spec s k keep).1]
  rfl

/-- An object that the dropped source alone held in FAULT is held by none. -/
theorem faultDrop_frees {i : Nat} {o : WObj} (hm : (i, o) ∈ s.prot.objs) (ho : s.wobj i = o) (hby : o.faultBy = [k]) (hc : o.cause.getLsbD 8 = true) :
    ((s.faultDrop k []).wobj i).cleared.getLsbD 8 = true ∧ ((s.faultDrop k []).wobj i).faultBy = [] := by
  subst ho
  exact (State.faultDrop_spec s k []).2 i _ hm (by simp [hby]) rfl (by simp [hby]) hc

theorem exec_faultAck {b : Fin 16} {v : Word} (hr : s.runs) : exec (.faultAck b v) s = .next (s.faultAck b.val v) := exec_live (f := fun x => x.faultAck b.val v) rfl hr

end

/-- Settles O17: `faultAck_one` reduces each case to the acknowledgement of one source after the checks and the expiry. -/
theorem faultAcknowledge : Obligations.FaultAcknowledge := by
  unfold Obligations.FaultAcknowledge
  refine ⟨fun s b n u hr hu hset hq room => ?clears, fun s b n u hr hu hset hq => ?stands, fun s b n u hr hu hclear => ?clear, fun s b hr => ?none⟩
  case clears =>
    obtain ⟨d, acked, objects, source⟩ := ackOne_clears hq room
    refine ⟨d.faultDrop (16 * b + n) [], ?_, (fsrc_faultDrop []).trans source, fun i o hm ho hby hc => ?_⟩
    · rw [exec_faultAck hr, faultAck_one, ← hu, if_pos hset, acked]
    · rw [← objects] at hm
      refine faultDrop_frees hm ?_ hby hc
      rw [← ho, State.wobj, State.wobj, objects]
  case stands => exact ⟨_, by rw [exec_faultAck hr, faultAck_one, ← hu, if_pos hset], ackOne_stands hq⟩
  case clear => rw [exec_faultAck hr, faultAck_one, ← hu, hclear, if_neg Bool.false_ne_true]
  case none => rw [exec_faultAck hr, faultAck_zero]

end Sys2Proof.Proofs
end

section
/-! SUPPORT and the settlement of O6: fault injection (R330, R331, Table 11-6). -/

namespace Sys2Proof.Proofs

open Sys2Proof.Machine Sys2Proof.Laws

/-! ## The gate of TEST_EN (R330) -/

section
variable {s : State} {f : State → State}

theorem inject_low (ht : s.tst.straps.testEn = false) : s.inject f = { s with tst := { s.tst with ir := 0x20, tapOut := 0 } } :=
  if_neg (by simpa [State.tapIr] using ht)

theorem inject_high (ht : s.tst.straps.testEn = true) : s.inject f = (f (s.tapIr 0x20)).raiseI 3 5 .device true := if_pos ht

end

/-! ## The rows of fault injection on a device out of reset -/

section
variable {s : State} {b n : Fin 16} {o : Byte} {m : BitVec 10} {a : Word} {le : Fin 4}

theorem exec_raiseSource (hr : s.runs) : exec (.fltinjRaiseSource b n o) s = .next (s.inject fun y => y.injRaise b.val n.val o.toNat) :=
  exec_live (f := fun x => x.inject fun y => y.injRaise b.val n.val o.toNat) rfl hr
theorem exec_invertSevN (hr : s.runs) : exec (.fltinjInvertSevN b) s = .next (s.inject fun y => y.injSev b.val) :=
  exec_live (f := fun x => x.inject fun y => y.injSev b.val) rfl hr
theorem exec_invertStatusCopy (hr : s.runs) : exec (.fltinjInvertStatusCopy b n) s = .next (s.inject fun y => y.injCopy (16 * b.val + n.val)) :=
  exec_live (f := fun x => x.inject fun y => y.injCopy (16 * b.val + n.val)) rfl hr
theorem exec_invertSymbols (hr : s.runs) : exec (.fltinjInvertSymbols m a) s = .next (s.inject fun y => y.injSymbols m a.toNat) :=
  exec_live (f := fun x => x.inject fun y => y.injSymbols m a.toNat) rfl hr
theorem exec_invertComplement (hr : s.runs) : exec (.fltinjInvertComplement a) s = .next (s.inject fun y => y.injCompl a.toNat) :=
  exec_live (f := fun x => x.inject fun y => y.injCompl a.toNat) rfl hr
theorem exec_suppressHeartbeat (hr : s.runs) : exec (.fltinjSuppressHeartbeat le) s = .next (s.inject fun y => y.injHeartbeat le.val) :=
  exec_live (f := fun x => x.inject fun y => y.injHeartbeat le.val) rfl hr

/-- Every kind of injection passes the gate of TEST_EN. -/
theorem exec_injection {c : Instr} (hr : s.runs)
    (hc : c ∈ [Instr.fltinjRaiseSource b n o, .fltinjInvertSevN b, .fltinjInvertStatusCopy b n, .fltinjInvertSymbols m a, .fltinjInvertComplement a, .fltinjSuppressHeartbeat le]) :
    ∃ f, exec c s = .next (s.inject f) := by
  simp only [List.mem_cons, List.not_mem_nil, or_false] at hc
  obtain rfl | rfl | rfl | rfl | rfl | rfl := hc
  · exact ⟨_, exec_raiseSource hr⟩
  · exact ⟨_, exec_invertSevN hr⟩
  · exact ⟨_, exec_invertStatusCopy hr⟩
  · exact ⟨_, exec_invertSymbols hr⟩
  · exact ⟨_, exec_invertComplement hr⟩
  · exact ⟨_, exec_suppressHeartbeat hr⟩

end

/-! ## What each kind injects -/

section
variable (s : State) {b n o : Nat}

/-- An injected source is set; the WINTER of its own that a PROT source takes leaves it set (R177). -/
theorem injRaise_status (hn : n < (floors b).length) (hosc : ¬(b = 13 ∧ n = 3)) : ((s.injRaise b n o).fsrc (16 * b + n)).status = true := by
  unfold State.injRaise
  rw [if_neg (Nat.not_le.mpr hn), if_neg hosc]
  have raised := State.raiseI_status s b n (s.injScope b n o) true
  refine (?_ : Calm noTol (s.raiseI b n (s.injScope b n o) true) _).stat rfl _ raised
  dsimp only
  split
  · exact .each (.refl _ _) fun _ _ c => .winterSet c
  · exact .refl _ _

/-- One severity register whose complement is inverted in storage. -/
def flipSev (s : State) (b : Nat) (hi : Bool) : State :=
  { s with flt := { s.flt with sev := s.flt.sev.set (cword (sevReset b hi)) (sevKey b hi) (s.sevReg b hi ^^^ 0xFFFF0000) } }

theorem injSev_eq : s.injSev b = if b = 13 then flipSev (flipSev s b false) b true else flipSev s b false := rfl

theorem injSev_frame : s.injSev b = { s with flt := { s.flt with sev := (s.injSev b).flt.sev } } := by
  rw [injSev_eq]
  split <;> rfl

theorem injSev_reg : (s.injSev b).sevReg b false = s.sevReg b false ^^^ 0xFFFF0000 := by
  have low : (flipSev s b false).sevReg b false = s.sevReg b false ^^^ 0xFFFF0000 := sevReg_set_self rfl
  have apart : sevKey b false ≠ sevKey b true := fun h => Bool.false_ne_true (sevKey_inj h).2
  rw [injSev_eq]
  split
  · exact (sevReg_set_other (s := flipSev s b false) rfl apart).trans low
  · exact low

/-- One inverted symbol: a second inversion restores it. -/
def flipSymbol (a : Nat) (t : List (Nat × Nat)) (i : Nat) : List (Nat × Nat) :=
  if t.contains (a, i) then t.filter (fun e => decide (e ≠ (a, i))) else t ++ [(a, i)]

theorem mem_flipSymbol {a i : Nat} {t : List (Nat × Nat)} {e : Nat × Nat} : e ∈ flipSymbol a t i ↔ ¬(e ∈ t ↔ e = (a, i)) := by
  unfold flipSymbol
  by_cases h : (a, i) ∈ t
  · rw [if_pos (List.contains_iff_mem.mpr h), List.mem_filter, decide_eq_true_eq]
    by_cases he : e = (a, i)
    · subst he; simp [h]
    · simp [he]
  · rw [if_neg (mt List.contains_iff_mem.mp h), List.mem_append, List.mem_singleton]
    by_cases he : e = (a, i)
    · subst he; simp [h]
    · simp [he]

/-- Inversions of different symbols do not meet. -/
theorem mem_flipSymbols {a : Nat} {l : List Nat} (hl : l.Nodup) (t : List (Nat × Nat)) {e : Nat × Nat} :
    e ∈ l.foldl (flipSymbol a) t ↔ ¬(e ∈ t ↔ ∃ i ∈ l, e = (a, i)) := by
  induction l generalizing t with
  | nil => simp
  | cons i r ih =>
    obtain ⟨hi, hr⟩ := List.nodup_cons.mp hl
    have apart : e = (a, i) → ¬∃ j ∈ r, e = (a, j) := by
      rintro rfl ⟨j, hj, he⟩
      obtain rfl := (Prod.mk.inj he).2
      exact hi hj
    rw [List.foldl_cons, ih hr, mem_flipSymbol, List.exists_mem_cons_iff]
    generalize (∃ j ∈ r, e = (a, j)) = later at apart ⊢
    tauto

theorem injSymbols_flips {m : BitVec 10} {a : Nat} (h : (s.symHolder a).isSome = true) :
    s.injSymbols m a = { s with flt := { s.flt with flipped := ((List.range 10).filter (fun i => m.getLsbD i)).foldl (flipSymbol a) s.flt.flipped } } :=
  if_neg (by rw [Option.isNone_eq_false_iff.mpr h]; exact Bool.false_ne_true)

theorem mem_selected {m : BitVec 10} {a b i : Nat} :
    (∃ j ∈ (List.range 10).filter (fun j => m.getLsbD j), (b, i) = (a, j)) ↔ b = a ∧ i < 10 ∧ m.getLsbD i = true := by
  constructor
  · rintro ⟨j, hj, he⟩
    obtain ⟨rfl, rfl⟩ := Prod.mk.inj he
    obtain ⟨hlt, hbit⟩ := List.mem_filter.mp hj
    exact ⟨rfl, List.mem_range.mp hlt, hbit⟩
  · rintro ⟨rfl, hlt, hbit⟩
    exact ⟨i, List.mem_filter.mpr ⟨List.mem_range.mpr hlt, hbit⟩, rfl⟩

end

/-- Settles O6: every injection passes the gate of TEST_EN; then each kind's effect, before INJECTED is raised. -/
theorem faultInjection : Obligations.FaultInjection := by
  unfold Obligations.FaultInjection
  refine ⟨fun s b n o m a le c hr hc ht => ?low, fun s b n o m a le c hr hc ht => ?raised, fun s b n o hr ht hn hosc => ?source, fun s b hr ht => ?sevN,
    fun s b n hr ht => ?copy, fun s m a hr ht hh => ?symbols, fun s hr ht => ?policy, fun s n hr ht => ?heartbeat⟩
  case low =>
    obtain ⟨f, hf⟩ := exec_injection hr hc
    rw [hf, inject_low ht]
  case raised =>
    obtain ⟨f, hf⟩ := exec_injection hr hc
    exact ⟨_, by rw [hf, inject_high ht], State.raiseI_status _ 3 5 _ _⟩
  case source =>
    refine ⟨_, by rw [exec_raiseSource hr, inject_high ht], ?_⟩
    have set := injRaise_status (s.tapIr 0x20) (o := o.toNat) hn (fun h => hosc ⟨Fin.ext h.1, Fin.ext h.2⟩)
    exact (Calm.raiseI (p := noTol) (Calm.refl _ _)).stat rfl _ set
  case sevN =>
    refine ⟨(s.tapIr 0x20).injSev b.val, by rw [exec_invertSevN hr, inject_high ht], ?_, injSev_reg (s.tapIr 0x20)⟩
    exact injSev_frame (s.tapIr 0x20)
  case copy =>
    refine ⟨(s.tapIr 0x20).injCopy (16 * b.val + n.val), by rw [exec_invertStatusCopy hr, inject_high ht], rfl, fun k => ?_⟩
    rw [State.injCopy, State.fsrc_updFsrc_at]
    by_cases hk : k = 16 * b.val + n.val
    · subst hk
      rw [if_pos rfl, if_pos rfl]
      rfl
    · rw [if_neg (Ne.symm hk), if_neg hk]
      rfl
  case symbols =>
    have flips := injSymbols_flips (s.tapIr 0x20) (m := m) hh
    refine ⟨(s.tapIr 0x20).injSymbols m a.toNat, by rw [exec_invertSymbols hr, inject_high ht], by rw [flips]; rfl, fun b i => ?_⟩
    rw [flips, ← mem_selected]
    exact mem_flipSymbols (List.nodup_range.filter _) _
  case policy => rw [exec_invertComplement hr, inject_high ht]; rfl
  case heartbeat =>
    refine ⟨(s.tapIr 0x20).injHeartbeat n.val, by rw [exec_suppressHeartbeat hr, inject_high ht], rfl, fun k => ?_⟩
    rw [State.injHeartbeat, Tab.get_set]
    exact if_congr eq_comm rfl rfl

end Sys2Proof.Proofs
end

section
/-! SUPPORT. Grace timers that end (R317, R318). -/

namespace Sys2Proof.Proofs

open Sys2Proof.Machine Sys2Proof.Laws

section
variable {s : State} {k x : Nat}

/-- A source lifted to level 3 at the end of its grace timer. -/
def lifted (s : State) (k : Nat) : State := s.updFsrc k (fun x => { x with level := 3, grace := none })

theorem graceExpiry_waits (h : ∀ x ∈ (s.fsrc k).grace, s.now < x) : s.graceExpiry k = s := by
  unfold State.graceExpiry
  cases hg : (s.fsrc k).grace with
  | none => rfl
  | some x => exact if_neg (Nat.not_le.mpr (h x hg))

/-- A timer that the check of the copies has moved is not expired. -/
theorem graceExpiry_moved (hg : (s.fsrc k).grace = some x) (hx : x ≤ s.now) (hm : ((s.checkCopies (k / 16)).fsrc k).grace ≠ some x) :
    s.graceExpiry k = s.checkCopies (k / 16) := by
  unfold State.graceExpiry
  rw [hg]
  exact (if_pos hx).trans (if_neg hm)

/-- An expired timer lifts its source, records it, and enters WINTER in its scopes. -/
theorem graceExpiry_due (hg : (s.fsrc k).grace = some x) (hx : x ≤ s.now) (hm : ((s.checkCopies (k / 16)).fsrc k).grace = some x) :
    ∃ f inj, s.graceExpiry k = ((lifted (s.checkCopies (k / 16)) k).faultRecord State.record k 2 f inj).escalateWinter State.record k := by
  unfold State.graceExpiry
  rw [hg]
  exact ⟨_, _, (if_pos hx).trans (if_pos hm)⟩

/-- A fault's record that finds room changes no source. -/
theorem faultRecord_room (j kind : Nat) (f : FScope) (inj : Bool) (room : s.recd.buf.length < 1024) : (s.faultRecord State.record k kind f inj).fsrc j = s.fsrc j := by
  unfold State.faultRecord
  dsimp only
  rw [State.record_room _ _ _ _ _ _ room, State.recordQ_frame]
  rfl

variable {f : FScope} {i : Nat}

/-- A source whose action is no WINTER of its own holds FAULT on the object of its scope (R313). -/
theorem faultWinter_cause (own : ownWinter k = false) (hi : s.scopeObjs f = [i]) : ((s.faultWinter State.record k f).wobj i).cause.getLsbD 8 = true := by
  unfold State.faultWinter
  rw [own, if_neg Bool.false_ne_true, hi]
  simp only [State.each, List.foldl_cons, List.foldl_nil, State.wobj_updObj]
  exact State.winterSet_cause s i 8 0 (by decide)

/-- An escalation enters WINTER in every recorded scope, and no later scope ends what an earlier one has set. -/
theorem escalateWinter_cause (own : ownWinter k = false) (hf : f ∈ (s.fsrc k).scopes) (hi : ∀ a : State, a.scopeObjs f = [i]) :
    ((s.escalateWinter State.record k).wobj i).cause.getLsbD 8 = true := by
  obtain ⟨before, after, hl⟩ := List.append_of_mem hf
  unfold State.escalateWinter
  rw [hl, List.foldl_append, List.foldl_cons]
  have later := fun a : State => Calm.foldl (l := after) (f := fun b g => b.faultWinter State.record k g) (Calm.refl noTol a) fun _ _ c => Calm.faultWinter Calm.record_rec c
  exact (later _).cause rfl i 8 (faultWinter_cause own (hi _))

end

end Sys2Proof.Proofs
end

section
/-! SUPPORT. Words of symbol-coded memories that are read or scrubbed (R327 to R329). -/

namespace Sys2Proof.Proofs

open Sys2Proof.Machine Sys2Proof.Laws

section
variable {s : State} {a b n m : Nat} {fs : List FScope} {scrub : Bool}

theorem symFound_clean (h : s.symHolder a = none ∨ ∀ e ∈ s.flt.flipped, e.1 ≠ a) : s.symFound a scrub = s := by
  unfold State.symFound
  cases hh : s.symHolder a with
  | none => rfl
  | some holder =>
    have whole : s.flt.flipped.filter (fun e => decide (e.1 = a)) = [] :=
      List.filter_eq_nil_iff.mpr fun e he => by simpa using h.resolve_left (by simp [hh]) e he
    exact if_pos (by rw [whole]; rfl)

/-- The word's wrong symbols are gone: corrected, or poisoned with the word. -/
def unflipped (s : State) (a : Nat) : State := { s with flt := { s.flt with flipped := s.flt.flipped.filter (fun e => decide (e.1 ≠ a)) } }

/-- One wrong symbol is corrected, and counted by the scrubber. -/
theorem symFound_one (hh : s.symHolder a = some (b, n, m, fs)) (h1 : (s.flt.flipped.filter (fun e => decide (e.1 = a))).length = 1) :
    s.symFound a scrub = State.raiseIn (if scrub then { unflipped s a with flt := { (unflipped s a).flt with corr := s.flt.corr + (if s.flt.corr = 0xFFFFFFFF then 0 else 1) } } else unflipped s a) b m fs true := by
  unfold State.symFound
  rw [hh]
  dsimp only
  rw [h1]
  exact (if_neg Nat.one_ne_zero).trans (if_pos (Or.inl rfl))

/-- Two wrong symbols poison the word, and the scrubber counts it. -/
theorem symFound_two (hh : s.symHolder a = some (b, n, m, fs)) (h2 : (s.flt.flipped.filter (fun e => decide (e.1 = a))).length = 2) :
    s.symFound a scrub = (State.symLost { unflipped s a with flt := { (unflipped s a).flt with
      poisoned := if s.flt.poisoned.contains a then s.flt.poisoned else s.flt.poisoned ++ [a]
      unc := if scrub ∧ s.flt.unc ≠ 0xFFFFFFFF then s.flt.unc + 1 else s.flt.unc } } a).raiseIn b n fs true := by
  unfold State.symFound
  rw [hh]
  dsimp only
  rw [h2]
  exact (if_neg two_ne_zero).trans (if_neg (by omega))

theorem checkCompl_clean (h : a ∉ s.flt.badCompl) : s.checkCompl a = s := if_pos (by simpa using h)

end

end Sys2Proof.Proofs
end

section
/-! SUPPORT and the settlement of O42: the device's checks of itself (R317, R318, R321, R324, R325, R327 to R329). -/

namespace Sys2Proof.Proofs

open Sys2Proof.Machine Sys2Proof.Laws

/-! ## The watchdog (R325) -/

section
variable {s : State} {n : Nat}

theorem heartbeatLe_suppressed (h : s.now < s.flt.hbOff.get 0 n) : s.heartbeatLe n = s := if_pos h

theorem heartbeatLe_noted (h : s.flt.hbOff.get 0 n ≤ s.now) :
    s.heartbeatLe n = { s with flt := { s.flt with hbRun := true, hb := s.flt.hb.set 0 n s.now, hbMiss := s.flt.hbMiss &&& ~~~(BitVec.twoPow 4 n) } } :=
  if_neg (Nat.not_lt.mpr h)

/-- A cleared bit, and no other, is clear. -/
theorem cleared_bit (x : BitVec 4) (n j : Nat) : (x &&& ~~~(BitVec.twoPow 4 n)).getLsbD j = (x.getLsbD j && decide (j ≠ n)) := by
  by_cases hj : j < 4
  · by_cases hn : j = n <;> simp [hj, hn]
  · simp [BitVec.getLsbD_of_ge x j (Nat.not_lt.mp hj)]

theorem supStall_due (hrun : s.flt.hbRun = true) (hm : s.flt.hbMiss.getLsbD n = false) (ht : s.flt.hb.get 0 n + tms ≤ s.now) :
    s.supStall n = State.raiseI { s with flt := { s.flt with hbMiss := s.flt.hbMiss ||| BitVec.twoPow 4 n, stall := true } } 3 2 .device (decide (s.flt.hb.get 0 n < s.flt.hbOff.get 0 n)) :=
  if_pos (by simp [hrun, hm, ht])

/-- An alarm leaves the watchdog's state. -/
theorem alarmed_hbMiss {t : State} (h : s.alarmed t) : t.flt.hbMiss = s.flt.hbMiss := by
  have same := congrArg (fun z : State => z.flt.hbMiss) h
  exact same
theorem alarmed_stall {t : State} (h : s.alarmed t) : t.flt.stall = s.flt.stall := by
  have same := congrArg (fun z : State => z.flt.stall) h
  exact same

theorem supStall_idle (h : s.flt.hbRun = false ∨ s.flt.hbMiss.getLsbD n = true ∨ s.now < s.flt.hb.get 0 n + tms) : s.supStall n = s := by
  refine if_neg ?_
  obtain h | h | h := h
  · simp [h]
  · simp [h]
  · simp [Nat.not_le.mpr h]

end

/-! ## ALIVE (R324) -/

section
variable {s : State}

theorem aliveOk_iff : s.aliveOk = true ↔ (s.wobj objDevice).cause = 0 ∧ s.flt.stall = false := by
  simp [State.aliveOk, State.inWinter]

theorem aliveHalf_early (h : s.now < s.flt.halfAt + 495 * tus) : s.aliveHalf = s := if_pos (Or.inr h)

theorem aliveHalf_due (hr : s.runs) (h : s.flt.halfAt + 495 * tus ≤ s.now) :
    s.aliveHalf = if s.aliveOk then { s with flt := { s.flt with halfAt := s.now, toggling := true, alive := if s.flt.toggling then !s.flt.alive else true } }
      else { s with flt := { s.flt with halfAt := s.now, toggling := false, alive := false, stops := if s.flt.toggling then satInc 0xFFFF s.flt.stops else s.flt.stops } } := by
  have notHeld : s.tst.inReset = false := hr
  exact if_neg (by simp [notHeld, Nat.not_lt.mpr h])

end

/-! ## The rows of these checks on a device out of reset -/

section
variable {s : State}

theorem exec_graceExpiry {b n : Fin 16} (hr : s.runs) : exec (.graceExpiry b n) s = .next (s.graceExpiry (16 * b.val + n.val)) := exec_live (f := fun x => x.graceExpiry (16 * b.val + n.val)) rfl hr
theorem exec_scrubCheck {t : ScrubTarget} (hr : s.runs) : exec (.scrubCheck t) s = .next (s.scrubCheck t) := exec_live (f := fun x => x.scrubCheck t) rfl hr
theorem exec_symbolError {a : Word} (hr : s.runs) : exec (.symbolError a) s = .next (s.symFound a.toNat false) := exec_live (f := fun x => x.symFound a.toNat false) rfl hr
theorem exec_scrubPassEnd {ms : Half} (hr : s.runs) : exec (.scrubPassEnd ms) s = .next (s.scrubPass ms) := exec_live (f := fun x => x.scrubPass ms) rfl hr
theorem exec_supervisorHeartbeat {n : Fin 4} (hr : s.runs) : exec (.supervisorHeartbeat n) s = .next (s.heartbeatLe n.val) := exec_live (f := fun x => x.heartbeatLe n.val) rfl hr
theorem exec_supStall {n : Fin 4} (hr : s.runs) : exec (.supStall n) s = .next (s.supStall n.val) := exec_live (f := fun x => x.supStall n.val) rfl hr
theorem exec_aliveHalfPeriod (hr : s.runs) : exec .aliveHalfPeriod s = .next s.aliveHalf := exec_live (f := fun x => x.aliveHalf) rfl hr

end

/-- Settles O42: each check by the equations of its operation; what follows an expiry or a stall stays within an alarm. -/
theorem selfChecks : Obligations.SelfChecks := by
  unfold Obligations.SelfChecks
  refine ⟨fun s b n x hr hg hx => ?expires, fun s b n hr hg => ?waits, fun s a hr h => ?clean, fun s a b n m fs hr hh h1 => ?correctable, fun s a b n m fs hr hh h2 => ?uncorrectable,
    fun s b a hr => ?registers, fun s ms hr => ?pass, fun s n hr => ?heartbeat, fun s n hr hrun hm ht => ?stalled, fun s n hr h => ?beating, fun s hr => ?alive⟩
  case expires =>
    have block : (16 * b.val + n.val) / 16 = b.val := by omega
    refine ⟨_, rfl, fun moved => ?_, fun due => ⟨lifted (s.checkCopies b.val) (16 * b.val + n.val), State.updFsrc_only _ _ _, State.fsrc_updFsrc _ _ _, ?_⟩⟩
    · rw [exec_graceExpiry hr, graceExpiry_moved hg hx (by rwa [block]), block]
    · obtain ⟨f, inj, expired⟩ := graceExpiry_due hg hx (by rwa [block])
      rw [block] at expired
      refine ⟨_, by rw [exec_graceExpiry hr, expired], State.alarmed_escalateWinter State.alarmed_rec (State.alarmed_faultRecord State.alarmed_rec (State.alarmed_refl _)),
        (Calm.escalateWinter (p := noTol) Calm.record_rec (Calm.faultRecord Calm.record_rec (Calm.refl _ _))).seq rfl, fun own room g hgs i hi => ?_⟩
      refine escalateWinter_cause own (by rwa [faultRecord_room _ _ _ _ room]) fun a => ?_
      obtain ⟨rfl, rfl⟩ | rfl | ⟨c, rfl, rfl⟩ | ⟨t, rfl, rfl⟩ := hi <;> rfl
  case waits => rw [exec_graceExpiry hr, graceExpiry_waits hg]
  case clean => exact ⟨by rw [exec_scrubCheck hr, State.scrubCheck, symFound_clean h], by rw [exec_symbolError hr, symFound_clean h]⟩
  case correctable =>
    have count : s.flt.corr + (if s.flt.corr = 0xFFFFFFFF then 0 else 1) = if s.flt.corr = 0xFFFFFFFF then s.flt.corr else s.flt.corr + 1 := by
      split
      · exact BitVec.add_zero _
      · rfl
    refine ⟨_, _, ?_, ?_, rfl, rfl⟩
    · rw [exec_scrubCheck hr, State.scrubCheck, symFound_one hh h1, count]
      rfl
    · rw [exec_symbolError hr, symFound_one hh h1]
      rfl
  case uncorrectable =>
    have count : (if true = true ∧ s.flt.unc ≠ 0xFFFFFFFF then s.flt.unc + 1 else s.flt.unc) = if s.flt.unc = 0xFFFFFFFF then s.flt.unc else s.flt.unc + 1 := by
      simp only [true_and, ne_eq, ite_not]
    have uncounted : (if false = true ∧ s.flt.unc ≠ 0xFFFFFFFF then s.flt.unc + 1 else s.flt.unc) = s.flt.unc := if_neg fun h => Bool.false_ne_true h.1
    refine ⟨_, _, ?_, ?_, rfl, rfl⟩
    · rw [exec_scrubCheck hr, State.scrubCheck, symFound_two hh h2, count]
      rfl
    · rw [exec_symbolError hr, symFound_two hh h2, uncounted]
      rfl
  case registers => exact ⟨exec_scrubCheck hr, exec_scrubCheck hr, fun h => by rw [exec_scrubCheck hr, State.scrubCheck, checkCompl_clean h]⟩
  case pass => exact ⟨_, exec_scrubPassEnd hr, rfl, State.raise_status _ 3 3 _⟩
  case heartbeat =>
    refine ⟨fun h => by rw [exec_supervisorHeartbeat hr, heartbeatLe_suppressed h], fun h => ?_⟩
    refine ⟨_, by rw [exec_supervisorHeartbeat hr, heartbeatLe_noted h], rfl, Tab.get_set_self _ _ _ _, fun j hj => Tab.get_set_ne _ _ _ _ _ _ (Ne.symm hj), fun j => cleared_bit _ _ _⟩
  case stalled =>
    obtain ⟨marked, hmarked⟩ : ∃ d : State, d = { s with flt := { s.flt with hbMiss := s.flt.hbMiss ||| BitVec.twoPow 4 n.val, stall := true } } := ⟨_, rfl⟩
    have due := supStall_due hrun hm ht
    rw [← hmarked] at due
    have alarm := State.alarmed_raiseI (x0 := 3) (x1 := 2) (x2 := .device) (x3 := decide (s.flt.hb.get 0 n.val < s.flt.hbOff.get 0 n.val)) (State.alarmed_refl marked)
    refine ⟨_, by rw [exec_supStall hr, due], State.raiseI_status marked 3 2 _ _, ?_, ?_, ?_⟩
    · rw [alarmed_hbMiss alarm, hmarked]
      simp [n.isLt]
    · rw [alarmed_stall alarm, hmarked]
    · rw [State.alarmed_rfe alarm, hmarked]
  case beating => rw [exec_supStall hr, supStall_idle h]
  case alive =>
    refine ⟨fun h => by rw [exec_aliveHalfPeriod hr, aliveHalf_early h], fun h => ?_⟩
    cases ok : s.aliveOk with
    | true =>
      obtain ⟨cause, stall⟩ := aliveOk_iff.mp ok
      exact ⟨_, (exec_aliveHalfPeriod hr).trans (congrArg _ ((aliveHalf_due hr h).trans (if_pos ok))), rfl, rfl, rfl, fun _ _ => ⟨rfl, rfl, rfl⟩,
        fun bad => bad.elim (absurd cause) fun e => absurd (stall.symm.trans e) Bool.false_ne_true⟩
    | false =>
      have bad : ¬((s.wobj objDevice).cause = 0 ∧ s.flt.stall = false) := fun good => Bool.false_ne_true (ok.symm.trans (aliveOk_iff.mpr good))
      exact ⟨_, (exec_aliveHalfPeriod hr).trans (congrArg _ ((aliveHalf_due hr h).trans (if_neg (ok.trans_ne Bool.false_ne_true)))), rfl, rfl, rfl,
        fun cause stall => absurd ⟨cause, stall⟩ bad, fun _ => ⟨rfl, rfl, rfl⟩⟩

end Sys2Proof.Proofs
end

section
/-! SUPPORT and the settlement of O57: record numbers only grow (R337, R340). -/

namespace Sys2Proof.Proofs

open Sys2Proof.Machine Sys2Proof.Laws

/-- No command but a reset and the mount may take the next number back. -/
theorem tolOf_seq (c : Instr) (hc : match c with | .sysRstNFall .. | .sysRstNRise .. | .railUndervoltage .. | .internalResetEnd .. | .recorderMount .. => False | _ => True) :
    (tolOf c).seq = false := by
  cases c with
  | sysRstNFall | sysRstNRise | railUndervoltage | internalResetEnd | recorderMount => exact hc.elim
  | _ => rfl

section
variable {s : State}

/-- A fall of SYS_RST_N keeps the last number given in the store, beside the one it held (R337). -/
theorem resetFall_lastSeq : s.resetFall.recd.store.lastSeq = max s.recd.store.lastSeq (s.recd.nextSeq - 1) := rfl

/-- The recorder with its store taken, before the mount's own record: SEQ, OPH and PCC continue (R337, R338, R340). -/
def storeTaken (s : State) : State :=
  { s with recd := { s.recd with
    mounted := true, nextSeq := max s.recd.store.newest s.recd.store.lastSeq + 1, ophBase := if !s.recd.store.used then 0 else s.recd.store.resume, ophAt := s.now
    store := { s.recd.store with pcc := word (min 0xFFFFFFFF (s.recd.store.pcc.toNat + 1)), used := true } } }

/-- The mount's record, and the fault of a store that lost its own, keep what the store gave. -/
theorem mount_calm : Calm noTol (storeTaken s) s.mount := by
  unfold State.mount
  exact .ite (fun _ => .raise (.record (.refl _ (storeTaken s)))) (fun _ => .record (.refl _ (storeTaken s)))

/-- The mount goes on above every number of its store (R337, R340). -/
theorem mount_nextSeq : max s.recd.store.newest s.recd.store.lastSeq + 1 ≤ s.mount.recd.nextSeq := mount_calm.seq rfl

theorem mountStage_nextSeq {ok : Bool} (h : s.inStage 2 = true) : s.mount.recd.nextSeq ≤ (s.mountStage ok).recd.nextSeq := by
  have staged : s.mountStage ok = (s.mount.authRestore ok).stageTo 3 := if_neg (by simp [h])
  rw [staged]
  exact (Calm.stageTo (Calm.authRestore (p := { noTol with auth := true }) rfl (.refl _ _))).seq rfl

theorem exec_recorderMount {ok : Bool} (hr : s.runs) : exec (.recorderMount ok) s = .next (s.mountStage ok) := exec_live (f := fun x => x.mountStage ok) rfl hr

end

/-- Settles O57: every command is calm but for its own tolerance (`exec_calm`), and only resets and the mount tolerate a number taken back; those are taken one by one. -/
theorem recordNumbersGrow : Obligations.RecordNumbersGrow := by
  unfold Obligations.RecordNumbersGrow
  refine ⟨fun c s t e hc => (exec_calm c e).seq (tolOf_seq c hc), fun s t e => ?fall, fun s t ok hr hs hrun e => ?mount⟩
  case fall =>
    obtain rfl : s.resetFall = t := Host.Outcome.next.inj e
    rw [resetFall_lastSeq]
    omega
  case mount =>
    obtain rfl := Host.Outcome.next.inj ((exec_recorderMount hr).symm.trans e)
    have inReset : s.tst.inReset = false := hr
    have staged : s.mount.recd.nextSeq ≤ (s.mountStage ok).recd.nextSeq := mountStage_nextSeq (by simp [State.inStage, inReset, hs, hrun])
    have above := mount_nextSeq (s := s)
    omega

end Sys2Proof.Proofs
end

section
/-! SUPPORT. What the intake of records changes, and what becomes of the buffer while it has room (R337, R342 to R345). -/

namespace Sys2Proof.Proofs

open Sys2Proof.Machine Sys2Proof.Laws

/-! ## The frame of the intake -/

/-- From s to t only what the intake of records writes has changed: the numbers, the buffer with its tombstones, copies and buckets, the asking for a flush without a checkpoint, and the counts of losses. -/
def onlyIntake (s t : State) : Prop :=
  t = { s with recd := { s.recd with nextSeq := t.recd.nextSeq, buf := t.recd.buf, tombs := t.recd.tombs, copyq := t.recd.copyq, buckets := t.recd.buckets, want := t.recd.want, dropHi := t.recd.dropHi, dropLo := t.recd.dropLo } }

theorem onlyIntake_refl (s : State) : onlyIntake s s := rfl

section
variable {a s t : State}

theorem onlyIntake_trans (h : onlyIntake a s) (h' : onlyIntake s t) : onlyIntake a t := by
  obtain ⟨n, b, o, c, k, w, hi, lo, rfl⟩ : ∃ n b o c k w hi lo, s = { a with recd := { a.recd with nextSeq := n, buf := b, tombs := o, copyq := c, buckets := k, want := w, dropHi := hi, dropLo := lo } } :=
    ⟨_, _, _, _, _, _, _, _, h⟩
  exact h'

theorem onlyIntake_frame (h : onlyIntake s t) : t = { s with recd := t.recd } := by
  obtain ⟨r, rfl⟩ : ∃ r, t = { s with recd := r } := ⟨_, h⟩
  rfl

theorem onlyIntake_store (h : onlyIntake s t) : t.recd.store = s.recd.store := by
  have same := congrArg (fun z : State => z.recd.store) h
  exact same
theorem onlyIntake_flush (h : onlyIntake s t) : t.recd.flush = s.recd.flush := by
  have same := congrArg (fun z : State => z.recd.flush) h
  exact same
theorem onlyIntake_wantCkpt (h : onlyIntake s t) : t.recd.wantCkpt = s.recd.wantCkpt := by
  have same := congrArg (fun z : State => z.recd.wantCkpt) h
  exact same
theorem onlyIntake_intakeClosed (h : onlyIntake s t) : t.recd.intakeClosed = s.recd.intakeClosed := by
  have same := congrArg (fun z : State => z.recd.intakeClosed) h
  exact same
theorem onlyIntake_pfailLow (h : onlyIntake s t) : t.recd.pfailLow = s.recd.pfailLow := by
  have same := congrArg (fun z : State => z.recd.pfailLow) h
  exact same

/-- A flush asked for without a checkpoint is one more that the intake asks for. -/
theorem onlyIntake_askFlush (h : onlyIntake a s) : onlyIntake a (s.askFlush false) := by
  refine onlyIntake_trans h ?_
  unfold State.askFlush
  rw [Bool.or_false]
  rfl

theorem onlyIntake_updBucket {c : Nat} {f : Bucket → Bucket} (h : onlyIntake a s) : onlyIntake a (s.updBucket c f) := onlyIntake_trans h rfl

variable {code sev : Nat} {sm : Bool} {src : Byte} {data : BitVec 256}

theorem onlyIntake_countDrop (h : onlyIntake a s) : onlyIntake a (s.countDrop sev) :=
  onlyIntake_trans h (ite_both (onlyIntake s) rfl rfl)

theorem onlyIntake_bufferPut (h : onlyIntake a s) : onlyIntake a (s.bufferPut code sev sm src data) :=
  onlyIntake_trans h (ite_both (onlyIntake s) (onlyIntake_askFlush rfl) rfl)

theorem onlyIntake_bufferEnter (h : onlyIntake a s) : onlyIntake a (s.bufferEnter code sev sm src data).2 := by
  unfold State.bufferEnter
  split
  · exact onlyIntake_bufferPut h
  · split
    · exact onlyIntake_bufferPut (onlyIntake_trans h rfl)
    · exact onlyIntake_countDrop (onlyIntake_updBucket h)

theorem onlyIntake_recordQ {bypass : Bool} {d : Nat} (h : onlyIntake a s) : onlyIntake a (s.recordQ code sev src bypass d) :=
  State.record0_cases (onlyIntake a) code sev src bypass d h (onlyIntake_countDrop h) (fun _ => onlyIntake_bufferEnter h) (fun _ => onlyIntake_updBucket h)
    (fun _ _ => onlyIntake_bufferEnter (onlyIntake_updBucket h))

theorem onlyIntake_summary {c : Nat} (h : onlyIntake a s) : onlyIntake a (s.summary c) :=
  ite_both (onlyIntake a) h (ite_both (onlyIntake a) (onlyIntake_updBucket (onlyIntake_bufferEnter h)) (onlyIntake_bufferEnter h))

theorem onlyIntake_summaries (h : onlyIntake a s) : onlyIntake a s.summaries :=
  List.foldlRecOn _ _ h (fun _ hb _ _ => onlyIntake_summary hb)

end

/-! ## A record that finds room -/

/-- The record that enters the buffer next (R335, R337). -/
def nextRecord (s : State) (code sev : Nat) (summary : Bool) (src : Byte) (data : BitVec 256) : Rec :=
  { seq := s.recd.nextSeq, code := code, oph := s.oph, sev := sev, summary := summary, src := src, pcc := s.recd.store.pcc, dtime := s.dtime, data := data }

section
variable {s : State} {code sev : Nat} {sm : Bool} {src : Byte} {data : BitVec 256}

theorem bufferPut_buf : (s.bufferPut code sev sm src data).recd.buf = s.recd.buf ++ [nextRecord s code sev sm src data] :=
  ite_both (fun t : State => t.recd.buf = s.recd.buf ++ [nextRecord s code sev sm src data]) rfl rfl

theorem bufferPut_nextSeq : (s.bufferPut code sev sm src data).recd.nextSeq = s.recd.nextSeq + 1 :=
  ite_both (fun t : State => t.recd.nextSeq = s.recd.nextSeq + 1) rfl rfl

theorem bufferPut_buckets : (s.bufferPut code sev sm src data).recd.buckets = s.recd.buckets :=
  ite_both (fun t : State => t.recd.buckets = s.recd.buckets) rfl rfl

/-- Putting a record in the buffer changes no bucket. -/
theorem bufferPut_bucket (c : Nat) : (s.bufferPut code sev sm src data).bucket c = s.bucket c := by
  unfold State.bucket
  rw [bufferPut_buckets]

theorem bufferEnter_room (room : s.recd.buf.length < 1024) : (s.bufferEnter code sev sm src data).2 = s.bufferPut code sev sm src data :=
  congrArg Prod.snd (if_pos room)

/-- A record that passes its bucket by enters the buffer. -/
theorem recordQ_room {d : Nat} (hm : s.recd.mounted = true) (hi : s.recd.intakeClosed = false) (room : s.recd.buf.length < 1024) :
    s.recordQ code sev src true d = s.bufferPut code sev false src (BitVec.ofNat 256 d) := by
  unfold State.recordQ State.record0
  rw [hm, hi, if_neg (by decide), if_neg (by decide), if_pos rfl]
  exact bufferEnter_room room

/-! ## Summaries (R343) -/

/-- A bucket whose losses a summary has told. -/
def bucketTold (b : Bucket) : Bucket := { b with supp := 0, drop := 0, firstOph := 0, lastOph := 0, maxSev := 0, src := 0 }

variable {c : Nat}

theorem summary_none (h : (s.bucket c).supp = 0 ∧ (s.bucket c).drop = 0) : s.summary c = s := if_pos h

/-- An owed summary that finds room stands in the buffer, and its counts begin again. -/
theorem summary_room (owed : ¬((s.bucket c).supp = 0 ∧ (s.bucket c).drop = 0)) (room : s.recd.buf.length < 1024) :
    s.summary c = (s.bufferPut c (s.bucket c).maxSev true (s.bucket c).src (BitVec.ofNat 256 (s.bucket c).summaryData)).updBucket c bucketTold := by
  have takes : s.bufferTakes (s.bucket c).maxSev = true := by simp [State.bufferTakes, room]
  unfold State.summary
  dsimp only
  rw [if_neg owed, if_pos takes, bufferEnter_room room]
  rfl

/-- While there is room a summary adds at most one record behind those of the buffer. -/
theorem summary_buf (room : s.recd.buf.length < 1024) : s.recd.buf <+: (s.summary c).recd.buf ∧ (s.summary c).recd.buf.length ≤ s.recd.buf.length + 1 := by
  by_cases none : (s.bucket c).supp = 0 ∧ (s.bucket c).drop = 0
  · rw [summary_none none]
    exact ⟨⟨[], List.append_nil _⟩, Nat.le_succ _⟩
  · rw [summary_room none room, State.updBucket_recd_buf, bufferPut_buf]
    exact ⟨⟨_, rfl⟩, by simp⟩

/-- While there is room for all of them the summaries only add records behind those of the buffer. -/
theorem each_summary_buf (l : List Nat) (room : s.recd.buf.length + l.length ≤ 1024) : s.recd.buf <+: (s.each l (fun c a => a.summary c)).recd.buf := by
  induction l generalizing s with
  | nil => exact ⟨[], List.append_nil _⟩
  | cons c l ih =>
    rw [List.length_cons] at room
    obtain ⟨kept, one⟩ := summary_buf (s := s) (c := c) (by omega)
    exact kept.trans (ih (by omega))

theorem summaries_buf (room : s.recd.buf.length + s.recd.buckets.length ≤ 1024) : s.recd.buf <+: s.summaries.recd.buf :=
  each_summary_buf _ (by rwa [List.length_map])

end

end Sys2Proof.Proofs
end

section
/-! SUPPORT and the settlement of O3: the power-fail warning and its return (R349, R350). -/

namespace Sys2Proof.Proofs

open Sys2Proof.Machine Sys2Proof.Laws

/-- Record 0x0004 and every owed summary, as the fall of PFAIL_N writes them (R349). -/
def pfailWritten (s : State) : State := (s.bufferEnter 4 2 false 4 (BitVec.ofNat 256 (fld 0 s.recd.buf.length))).2.summaries

section
variable {s : State}

theorem onlyIntake_pfailWritten : onlyIntake s (pfailWritten s) := onlyIntake_summaries (onlyIntake_bufferEnter (onlyIntake_refl s))

/-- With room for it and for every summary record 0x0004 stands in the buffer, behind what was there. -/
theorem pfailWritten_buf (room : s.recd.buf.length + s.recd.buckets.length < 1024) :
    s.recd.buf ++ [nextRecord s 4 2 false 4 (BitVec.ofNat 256 (fld 0 s.recd.buf.length))] <+: (pfailWritten s).recd.buf := by
  unfold pfailWritten
  rw [bufferEnter_room (by omega), ← bufferPut_buf]
  refine summaries_buf ?_
  rw [bufferPut_buf, bufferPut_buckets, List.length_append, List.length_singleton]
  omega

theorem pfailFall_mounted (hm : s.recd.mounted = true) :
    s.pfailFall = { pfailWritten (s.irqEdge 22) with recd := { (pfailWritten (s.irqEdge 22)).recd with intakeClosed := true, pfailLow := true, pfailAt := s.now, pfailOph := s.oph, want := true, wantCkpt := true } } := by
  have mounted : (s.irqEdge 22).recd.mounted = true := by rwa [State.irqEdge_frame]
  unfold State.pfailFall State.askFlush
  dsimp only
  rw [mounted, if_neg (by decide), Bool.or_true]
  rfl

theorem pfailFall_unmounted (hm : s.recd.mounted = false) : s.pfailFall = { s.irqEdge 22 with recd := { s.recd with pfailLow := true, pfailAt := s.now } } := by
  have same : (s.irqEdge 22).recd = s.recd ∧ (s.irqEdge 22).now = s.now := by rw [State.irqEdge_frame]; exact ⟨rfl, rfl⟩
  obtain ⟨recd, now⟩ := same
  unfold State.pfailFall
  dsimp only
  rw [recd, now]
  exact if_pos (by rw [hm]; rfl)

/-- The intake opens again (R350). -/
def intakeOpened (s : State) : State := { s with recd := { s.recd with intakeClosed := false, pfailLow := false } }

theorem pfailReturn_due (hl : s.recd.pfailLow = true) (ht : s.recd.pfailAt + 10 * tms ≤ s.now) :
    s.pfailReturn = (intakeOpened s).recordQ 7 1 4 true (fld 0 s.recd.pfailOph) :=
  (if_pos ⟨hl, ht⟩).trans (State.record_low (intakeOpened s) _ _ _ _ _ (by decide))

theorem pfailReturn_waits (h : s.recd.pfailLow = false ∨ s.now < s.recd.pfailAt + 10 * tms) : s.pfailReturn = s := by
  refine if_neg fun due => ?_
  obtain ⟨low, waited⟩ := due
  exact h.elim (fun e => Bool.false_ne_true (e.symm.trans low)) (fun e => absurd waited (Nat.not_le.mpr e))

theorem exec_pfailNFall (hr : s.runs) : exec .pfailNFall s = .next s.pfailFall := exec_live (f := fun x => x.pfailFall) rfl hr
theorem exec_pfailNReturn (hr : s.runs) : exec .pfailNReturn s = .next s.pfailReturn := exec_live (f := fun x => x.pfailReturn) rfl hr

end

/-- Settles O3: the warning writes its record and the owed summaries, which touch only the intake, and closes it; the return opens it and writes its record. -/
theorem powerFail : Obligations.PowerFail := by
  unfold Obligations.PowerFail
  refine ⟨fun s hr hm => ?mounted, fun s hr hm => ?unmounted, fun s hr hl ht => ?opened, fun s hr h => by rw [exec_pfailNReturn hr, pfailReturn_waits h]⟩
  case mounted =>
    have written := onlyIntake_pfailWritten (s := s.irqEdge 22)
    have fall := pfailFall_mounted hm
    obtain ⟨lat, vecs, edge⟩ : ∃ lat vecs, s.irqEdge 22 = { s with intc := { s.intc with lat := lat, vecs := vecs } } := ⟨_, _, State.irqEdge_frame s 22⟩
    refine ⟨_, exec_pfailNFall hr, ?_⟩
    rw [fall]
    refine ⟨rfl, rfl, rfl, rfl, rfl, (onlyIntake_store written).trans (by rw [edge]), (onlyIntake_flush written).trans (by rw [edge]), ?_, fun room => ?_⟩
    · rw [onlyIntake_frame written, edge]
    · have stands := pfailWritten_buf (s := s.irqEdge 22) (by rwa [edge])
      have subset := stands.subset
      refine ⟨⟨_, subset (List.mem_append_right _ List.mem_cons_self), rfl, ?_, rfl⟩, fun r hr => subset (List.mem_append_left _ ?_)⟩
      · rw [nextRecord, edge]
      · rwa [edge]
  case unmounted =>
    refine ⟨_, exec_pfailNFall hr, ?_⟩
    rw [pfailFall_unmounted hm]
    refine ⟨rfl, ?_⟩
    rw [State.irqEdge_frame]
  case opened =>
    have written : onlyIntake (intakeOpened s) s.pfailReturn := by
      rw [pfailReturn_due hl ht]
      exact onlyIntake_recordQ (onlyIntake_refl _)
    refine ⟨_, exec_pfailNReturn hr, onlyIntake_intakeClosed written, onlyIntake_pfailLow written, (onlyIntake_store written).trans rfl, (onlyIntake_frame written).trans rfl, fun hm room => ?_⟩
    have put := (pfailReturn_due hl ht).trans (recordQ_room (s := intakeOpened s) hm rfl room)
    rw [put]
    exact ⟨_, bufferPut_buf, rfl, rfl, rfl, bufferPut_nextSeq⟩

end Sys2Proof.Proofs
end

section
/-! SUPPORT. Flushes of the recorder: when they begin, what they commit and how they end (R345 to R348, R356). -/

namespace Sys2Proof.Proofs

open Sys2Proof.Machine Sys2Proof.Laws

/-! ## The slots of the store (R346, R348) -/

/-- Records laid into the slots of their numbers, one after another. -/
def slotsWith (t : Tab Rec) (l : List Rec) : Tab Rec := l.foldl (fun t r => Tab.set t Rec.blank (r.seq % storeSlots) r) t

section
variable {t : Tab Rec} {l : List Rec} {i : Nat}

theorem slotsWith_append {r : Rec} : slotsWith t (l ++ [r]) = Tab.set (slotsWith t l) Rec.blank (r.seq % storeSlots) r := List.foldl_append

/-- A slot that no number of the records names holds what it held. -/
theorem slotsWith_other (h : ∀ r ∈ l, r.seq % storeSlots ≠ i) : (slotsWith t l).get Rec.blank i = t.get Rec.blank i := by
  induction l using List.reverseRecOn with
  | nil => rfl
  | append_singleton l x ih =>
    rw [List.forall_mem_append] at h
    obtain ⟨before, last⟩ := h
    rw [slotsWith_append, Tab.get_set_ne _ _ _ _ _ _ (last x List.mem_cons_self), ih before]

/-- The one record whose number names a slot is what the slot holds. -/
theorem slotsWith_own {r : Rec} (hr : r ∈ l) (only : ∀ q ∈ l, q.seq % storeSlots = r.seq % storeSlots → q = r) :
    (slotsWith t l).get Rec.blank (r.seq % storeSlots) = r := by
  induction l using List.reverseRecOn with
  | nil => cases hr
  | append_singleton l x ih =>
    rw [List.forall_mem_append] at only
    obtain ⟨before, last⟩ := only
    rw [slotsWith_append]
    by_cases same : x.seq % storeSlots = r.seq % storeSlots
    · rw [same, Tab.get_set_self]
      exact last x List.mem_cons_self same
    · rw [Tab.get_set_ne _ _ _ _ _ _ same]
      refine ih ((List.mem_append.mp hr).resolve_right fun isLast => same ?_) before
      rw [List.mem_singleton.mp isLast]

end

/-! ## The beginning of a flush (R346, R347) -/

section
variable {s : State}

theorem flushStart_idle (h : s.recd.mounted = false ∨ s.recd.want = false ∨ s.recd.flush ≠ none) : s.flushStart = s := by
  refine if_neg fun due => ?_
  obtain ⟨mounted, want, free⟩ := due
  obtain h | h | h := h
  · exact Bool.false_ne_true (h.symm.trans mounted)
  · exact Bool.false_ne_true (h.symm.trans want)
  · exact h free

theorem flushStart_due (hm : s.recd.mounted = true) (hw : s.recd.want = true) (hf : s.recd.flush = none) : s.flushStart = s.flushBegin := if_pos ⟨hm, hw, hf⟩

theorem flushBegin_plain (h : s.recd.wantCkpt = false) :
    s.flushBegin = { s with recd := { s.recd with
      flush := some { start := s.now, upTo := s.recd.nextSeq - 1, n := s.recd.buf.length + s.recd.tombs.length, ckpt := false, pfail := s.recd.intakeClosed }, want := false } } := by
  unfold State.flushBegin
  dsimp only
  rw [h, if_neg Bool.false_ne_true, h]

/-- A flush with a checkpoint first writes the owed summaries, and holds them too. -/
theorem flushBegin_ckpt (h : s.recd.wantCkpt = true) :
    s.flushBegin = { s with recd := { s.summaries.recd with
      flush := some { start := s.now, upTo := s.summaries.recd.nextSeq - 1, n := s.summaries.recd.buf.length + s.summaries.recd.tombs.length, ckpt := true, pfail := s.recd.intakeClosed }
      want := false, wantCkpt := false } } := by
  have told : onlyIntake s s.summaries := onlyIntake_summaries (onlyIntake_refl s)
  unfold State.flushBegin
  dsimp only
  rw [h, if_pos rfl, onlyIntake_wantCkpt told, onlyIntake_intakeClosed told, h]
  obtain ⟨r, same⟩ : ∃ r, s.summaries = { s with recd := r } := ⟨_, onlyIntake_frame told⟩
  rw [same]

theorem periodicFlush_idle (h : s.recd.mounted = false ∨ s.onGrid tsec = false) : s.periodicFlush = s := by
  refine if_neg ?_
  obtain h | h := h <;> simp [h]

theorem periodicFlush_due (hm : s.recd.mounted = true) (hg : s.onGrid tsec = true) : s.periodicFlush = (s.askFlush true).flushStart :=
  if_pos (by simp [hm, hg])

/-- A flush asked for with its checkpoint. -/
theorem askFlush_ckpt : s.askFlush true = { s with recd := { s.recd with want := true, wantCkpt := true } } := by
  unfold State.askFlush
  rw [Bool.or_true]

end

/-! ## The end of a flush (R345, R346, R348) -/

/-- A flush has committed its records, and its checkpoint with them. -/
def flushCommitted (s : State) (f : Flush) : State :=
  { s with recd := { s.recd with
    store := { s.recd.store with
      slots := slotsWith s.recd.store.slots (s.recd.flushed f.upTo)
      ckpts := if f.ckpt then (s.recd.store.ckpts ++ [s.oph]).drop (s.recd.store.ckpts.length + 1 - 64) else s.recd.store.ckpts }
    buf := s.recd.buf.filter (fun r => decide (f.upTo < r.seq)), tombs := s.recd.tombs.filter (fun r => decide (f.upTo < r.seq))
    flush := none, lastFlush := min 0xFFFF ((s.now - f.start) / (10 * tns)) } }

/-- The slots of a flush whose write failed its verify twice. -/
def failedSlots (l : List Rec) (bad : List Nat) : List Nat := (bad.filter (fun q => l.any (fun r => decide (r.seq = q)))).map (fun q => q % storeSlots)

/-- A spare takes the place of a slot (R348). -/
def spareTaken (s : State) (i : Nat) : State := { s with recd := { s.recd with store := { s.recd.store with spares := s.recd.store.spares ++ [i] } } }

section
variable {s : State} {f : Flush} {bad : List Nat}

theorem flushCommitted_own {r : Rec} (hr : r ∈ s.recd.flushed f.upTo) (only : ∀ q ∈ s.recd.flushed f.upTo, q.seq % storeSlots = r.seq % storeSlots → q = r) :
    (flushCommitted s f).recd.store.slot r.seq = r := slotsWith_own hr only

theorem flushCommitted_other {i : Nat} (h : ∀ r ∈ s.recd.flushed f.upTo, r.seq % storeSlots ≠ i % storeSlots) :
    (flushCommitted s f).recd.store.slot i = s.recd.store.slot i := slotsWith_other h

/-- A checkpoint joins those of the store while it holds fewer than 64 (R347). -/
theorem flushCommitted_ckpt (h : f.ckpt = true) (room : s.recd.store.ckpts.length < 64) : (flushCommitted s f).recd.store.ckpts = s.recd.store.ckpts ++ [s.oph] := by
  have all : s.recd.store.ckpts.length + 1 - 64 = 0 := by omega
  exact (if_pos h).trans (by rw [all, List.drop_zero])

theorem flushCommitted_plain (h : f.ckpt = false) : (flushCommitted s f).recd.store.ckpts = s.recd.store.ckpts :=
  if_neg (by rw [h]; decide)

theorem failedSlots_one {l : List Rec} {r : Rec} (hr : r ∈ l) : failedSlots l [r.seq] = [r.seq % storeSlots] := by
  have held : (l.any fun q => decide (q.seq = r.seq)) = true := List.any_eq_true.mpr ⟨r, hr, decide_eq_true rfl⟩
  exact congrArg _ (List.filter_cons_of_pos (p := fun q => l.any fun r => decide (r.seq = q)) held)

/-- The spare that a failed slot takes raises the use of a spare, and the last one the end of the spares. -/
theorem storeFail_eq (i : Nat) : s.storeFail i = if s.recd.store.spares.length = 767 then ((spareTaken s i).raise 4 2 .device).raise 4 3 .device else (spareTaken s i).raise 4 2 .device := by
  have last : (s.recd.store.spares ++ [i]).length = 768 ↔ s.recd.store.spares.length = 767 := by simp
  exact if_congr last rfl rfl

theorem flushEnd_early (h : ∀ f ∈ s.recd.flush, s.now ≤ f.start) : s.flushEnd bad = s := by
  unfold State.flushEnd
  split
  · rfl
  · rename_i f hf
    exact if_pos (h f hf)

/-- A flush ends with its records committed, the faults of failed slots and of its lateness, and the REC_FLUSHes that waited. -/
theorem flushEnd_due (hf : s.recd.flush = some f) (ht : f.start < s.now) :
    s.flushEnd bad = (if flushBound f.n < s.now - f.start
      then ((flushCommitted s f).each (failedSlots (s.recd.flushed f.upTo) bad) (fun i a => a.storeFail i)).raise 4 6 .device
      else (flushCommitted s f).each (failedSlots (s.recd.flushed f.upTo) bad) (fun i a => a.storeFail i)).recFlushCheck := by
  unfold State.flushEnd
  rw [hf]
  exact if_neg (Nat.not_le.mpr ht)

/-- A flush in time and without a failed slot. -/
theorem flushEnd_clean (hf : s.recd.flush = some f) (ht : f.start < s.now) (hb : s.now - f.start ≤ flushBound f.n) : s.flushEnd [] = (flushCommitted s f).recFlushCheck :=
  (flushEnd_due hf ht).trans (congrArg State.recFlushCheck (if_neg (Nat.not_lt.mpr hb)))

/-- A late flush raises its fault (R346). -/
theorem flushEnd_late (hf : s.recd.flush = some f) (ht : f.start < s.now) (hb : flushBound f.n < s.now - f.start) :
    s.flushEnd [] = ((flushCommitted s f).raise 4 6 .device).recFlushCheck :=
  (flushEnd_due hf ht).trans (congrArg State.recFlushCheck (if_pos hb))

/-- A record of the flush whose write failed its verify twice has its slot mapped to a spare. -/
theorem flushEnd_failed {r : Rec} (hf : s.recd.flush = some f) (ht : f.start < s.now) (hb : s.now - f.start ≤ flushBound f.n) (hr : r ∈ s.recd.flushed f.upTo) :
    s.flushEnd [r.seq] = ((flushCommitted s f).storeFail (r.seq % storeSlots)).recFlushCheck := by
  refine (flushEnd_due hf ht).trans (congrArg State.recFlushCheck ?_)
  rw [if_neg (Nat.not_lt.mpr hb), failedSlots_one hr]
  rfl

/-! ## REC_FLUSHes that wait (R356) -/

theorem recFlushCheck_none (h : ∀ p ∈ s.hif.outstanding, isRecFlush p = false) : s.recFlushCheck = s := by
  refine ite_both (fun t : State => t = s) rfl ?_
  have noneDone : s.hif.outstanding.filter (fun p => isRecFlush p && (s.recd.intakeClosed || s.recd.committedTo p.aux)) = [] :=
    List.filter_eq_nil_iff.mpr fun p hp => by simp [h p hp]
  unfold State.completeAll
  rw [noneDone]
  rfl

/-- The REC_FLUSHes that stay have records to wait for. -/
theorem recFlushCheck_waits (hi : s.recd.intakeClosed = false) {q : Pend} (hq : q ∈ s.recFlushCheck.hif.outstanding) (hk : isRecFlush q = true) : s.recd.committedTo q.aux = false := by
  rw [recFlushCheck_open hi] at hq
  have undone := completeAll_none _ _ _ q hq
  rwa [flushDone, hk, hi, Bool.true_and, Bool.false_or] at undone

end

end Sys2Proof.Proofs
end

section
/-! SUPPORT and the settlement of O49: the flushes and summaries of the recorder (R343, R346 to R348, R356). -/

namespace Sys2Proof.Proofs

open Sys2Proof.Machine Sys2Proof.Laws

/-! ## The summary of a code whose bucket holds a token again (R343) -/

section
variable {s : State} {c : Nat}

/-- A bucket with another fill at another time. The facts below hold the fill as a variable: given `fillNow` itself, the kernel would evaluate its product with `tokenUnit` by unary recursion. -/
def refilled (b : Bucket) (fill now : Nat) : Bucket := { b with fill := fill, at_ := now }

section
variable {b : Bucket} {fill now : Nat}

theorem refilled_supp : (refilled b fill now).supp = b.supp := rfl
theorem refilled_drop : (refilled b fill now).drop = b.drop := rfl
theorem refilled_maxSev : (refilled b fill now).maxSev = b.maxSev := rfl
theorem refilled_src : (refilled b fill now).src = b.src := rfl
theorem refilled_summaryData : (refilled b fill now).summaryData = b.summaryData := rfl

theorem sync_refilled : b.sync now = refilled b (b.fillNow now) now := rfl

theorem bucketTold_refilled : bucketTold (refilled b fill now) = { b with fill := fill, at_ := now, supp := 0, drop := 0, firstOph := 0, lastOph := 0, maxSev := 0, src := 0 } := rfl

end

/-- The token of a summary is taken from the fill of the present instant. -/
def summaryPaid (s : State) (c : Nat) : State := s.updBucket c (fun _ => refilled (s.bucket c) ((s.bucket c).fillNow s.now - tokenUnit) s.now)

theorem summaryPaid_bucket : (summaryPaid s c).bucket c = refilled (s.bucket c) ((s.bucket c).fillNow s.now - tokenUnit) s.now := State.bucket_updBucket s c _

theorem summaryPaid_buf : (summaryPaid s c).recd.buf = s.recd.buf := rfl

theorem summaryRecord_of_sync {fill : Nat} (h : (s.bucket c).sync s.now = refilled (s.bucket c) fill s.now) :
    s.summaryRecord c = if (!s.recd.mounted) = true ∨ ((s.bucket c).supp = 0 ∧ (s.bucket c).drop = 0) ∨ fill < tokenUnit then s
      else (s.updBucket c (fun _ => refilled (s.bucket c) (fill - tokenUnit) s.now)).summary c := by
  unfold State.summaryRecord
  rw [h]
  rfl

theorem summaryRecord_eq :
    s.summaryRecord c = if (!s.recd.mounted) = true ∨ ((s.bucket c).supp = 0 ∧ (s.bucket c).drop = 0) ∨ (s.bucket c).fillNow s.now < tokenUnit then s else (summaryPaid s c).summary c :=
  summaryRecord_of_sync sync_refilled

theorem summaryRecord_idle (h : s.recd.mounted = false ∨ ((s.bucket c).supp = 0 ∧ (s.bucket c).drop = 0) ∨ (s.bucket c).fillNow s.now < tokenUnit) : s.summaryRecord c = s := by
  rw [summaryRecord_eq]
  refine if_pos (h.imp_left fun unmounted => ?_)
  rw [unmounted]
  rfl

theorem summaryRecord_due (hm : s.recd.mounted = true) (owed : ¬((s.bucket c).supp = 0 ∧ (s.bucket c).drop = 0)) (token : tokenUnit ≤ (s.bucket c).fillNow s.now) :
    s.summaryRecord c = (summaryPaid s c).summary c := by
  rw [summaryRecord_eq]
  refine if_neg fun idle => ?_
  obtain unmounted | none | short := idle
  · exact absurd unmounted (by rw [hm]; decide)
  · exact owed none
  · exact absurd token (Nat.not_le.mpr short)

/-- With room the summary tells what the bucket lost, and the bucket begins again without its token. -/
theorem summaryRecord_room (hm : s.recd.mounted = true) (owed : ¬((s.bucket c).supp = 0 ∧ (s.bucket c).drop = 0)) (token : tokenUnit ≤ (s.bucket c).fillNow s.now)
    (room : s.recd.buf.length < 1024) :
    s.summaryRecord c = ((summaryPaid s c).bufferPut c (s.bucket c).maxSev true (s.bucket c).src (BitVec.ofNat 256 (s.bucket c).summaryData)).updBucket c bucketTold := by
  have owed' : ¬(((summaryPaid s c).bucket c).supp = 0 ∧ ((summaryPaid s c).bucket c).drop = 0) := by
    rwa [summaryPaid_bucket, refilled_supp, refilled_drop]
  rw [summaryRecord_due hm owed token, summary_room owed' (by rwa [summaryPaid_buf]), summaryPaid_bucket, refilled_maxSev, refilled_src, refilled_summaryData]

end

/-! ## The rows of the recorder on a device out of reset -/

section
variable {s : State}

theorem exec_flushStart (hr : s.runs) : exec .flushStart s = .next s.flushStart := exec_live (f := fun x => x.flushStart) rfl hr
theorem exec_periodicFlush (hr : s.runs) : exec .periodicFlush s = .next s.periodicFlush := exec_live (f := fun x => x.periodicFlush) rfl hr
theorem exec_flushEnd {bad : List Nat} (hr : s.runs) : exec (.flushEnd bad) s = .next (s.flushEnd bad) := exec_live (f := fun x => x.flushEnd bad) rfl hr
theorem exec_summaryRecord {c : BitVec 12} (hr : s.runs) : exec (.summaryRecord c) s = .next (s.summaryRecord c.toNat) := exec_live (f := fun x => x.summaryRecord c.toNat) rfl hr

end

/-- Settles O49: each event by the equations of its operation; the store after a flush is read slot by slot. -/
theorem recorderFlushes : Obligations.RecorderFlushes := by
  unfold Obligations.RecorderFlushes
  refine ⟨fun s hr h => by rw [exec_flushStart hr, flushStart_idle h], fun s hr hm hw hf hc => by rw [exec_flushStart hr, flushStart_due hm hw hf, flushBegin_plain hc],
    fun s hr hm hw hf hc => ?checkpointed, fun s hr h => by rw [exec_periodicFlush hr, periodicFlush_idle h], fun s f hr hm hg hf => ?running, fun s hr hm hg hf => ?second,
    fun s l hr h => by rw [exec_flushEnd hr, flushEnd_early h], fun s l f hr hf ht => ?ended, fun s c hr h => by rw [exec_summaryRecord hr, summaryRecord_idle h], fun s c hr hm owed token room => ?summary⟩
  case checkpointed =>
    refine ⟨_, exec_flushStart hr, ?_⟩
    rw [flushStart_due hm hw hf, flushBegin_ckpt hc]
    exact ⟨rfl, (Calm.summaries (.refl noTol s)).seq rfl, rfl, rfl, rfl⟩
  case running => rw [exec_periodicFlush hr, periodicFlush_due hm hg, flushStart_idle (s := s.askFlush true) (.inr (.inr (hf.trans_ne nofun))), askFlush_ckpt]
  case second =>
    refine ⟨_, exec_periodicFlush hr, ?_⟩
    rw [periodicFlush_due hm hg, flushStart_due (s := s.askFlush true) hm rfl hf, flushBegin_ckpt (Bool.or_true _)]
    exact ⟨rfl, _, rfl, rfl, rfl, rfl⟩
  case ended =>
    refine ⟨flushCommitted s f, rfl, fun r hr only => flushCommitted_own hr only, fun i => flushCommitted_other, flushCommitted_ckpt, flushCommitted_plain, ?inTime, ?late, ?failed⟩
    case inTime =>
      rintro rfl hb
      exact ⟨by rw [exec_flushEnd hr, flushEnd_clean hf ht hb], recFlushCheck_none (s := flushCommitted s f), fun hi q => recFlushCheck_waits (s := flushCommitted s f) hi⟩
    case late =>
      rintro rfl hb
      exact ⟨by rw [exec_flushEnd hr, flushEnd_late hf ht hb], State.raise_status _ 4 6 _⟩
    case failed =>
      rintro r member rfl hb
      exact ⟨spareTaken (flushCommitted s f) (r.seq % storeSlots), by rw [exec_flushEnd hr, flushEnd_failed hf ht hb member, storeFail_eq]; rfl, State.raise_status _ 4 2 _, rfl⟩
  case summary =>
    have told : onlyIntake s (s.summaryRecord c.toNat) := by
      rw [summaryRecord_due hm owed token]
      exact onlyIntake_summary (onlyIntake_updBucket (onlyIntake_refl s))
    rw [summaryRecord_room hm owed token room] at told
    refine ⟨_, _, (exec_summaryRecord hr).trans (congrArg _ (summaryRecord_room hm owed token room)), bufferPut_buf, rfl, rfl, rfl, rfl, rfl, rfl, bufferPut_nextSeq, onlyIntake_frame told, fun j hj => ?_, ?_⟩
    · rw [State.bucket_updBucket_ne _ _ _ _ (Ne.symm hj), bufferPut_bucket, summaryPaid, State.bucket_updBucket_ne _ _ _ _ (Ne.symm hj)]
    · rw [State.bucket_updBucket, bufferPut_bucket, summaryPaid_bucket, bucketTold_refilled]

end Sys2Proof.Proofs
end

section
/-! SUPPORT and the settlement of O59 and O60: the words of Uskihar instructions (Tables 8-3 and 8-4). -/

namespace Sys2Proof.Proofs

open Sys2Proof.Machine

set_option Elab.async false

/-! ## Fields of a word -/

section
variable {w lo : Nat}

theorem regAt_eq {r : Reg} (h : w / 2 ^ lo % 16 = r.val) : regAt w lo = r := Fin.ext h

theorem vregAt_eq {v : VReg} (h : w / 2 ^ lo % 8 = v.val) : vregAt w lo = v := Fin.ext h

theorem ofNat_eq {n : Nat} {v : BitVec n} (h : w % 2 ^ n = v.toNat) : BitVec.ofNat n w = v := BitVec.eq_of_toNat_eq ((BitVec.toNat_ofNat w n).trans h)

end

/-! ## The rows of Table 8-3: what the fields of a word decode to -/

section
variable {w : Nat} {gd ga gb : Reg} {vd va vb : VReg}

theorem uDecode_three {op : ROp} (ho : w / 2 ^ 26 % 64 = 0) (hz : w / 64 % 256 = 0) (hf : w % 64 = op.fn) (hd : w / 2 ^ 22 % 16 = gd.val) (ha : w / 2 ^ 18 % 16 = ga.val)
    (hb : w / 2 ^ 14 % 16 = gb.val) : uDecode w = some (.r op gd ga gb) := by
  have h : decR w = some (.r op gd ga gb) := by
    unfold decR
    rw [if_neg (not_not_intro hz), hf, regAt_eq hd, regAt_eq ha, regAt_eq hb]
    cases op <;> rfl
  unfold uDecode
  rw [ho]
  exact h

theorem uDecode_one {op : R1Op} (ho : w / 2 ^ 26 % 64 = 0) (hz : w / 64 % 256 = 0) (hf : w % 64 = op.fn) (hd : w / 2 ^ 22 % 16 = gd.val) (ha : w / 2 ^ 18 % 16 = ga.val)
    (hb : w / 2 ^ 14 % 16 = 0) : uDecode w = some (.r1 op gd ga) := by
  have h : decR w = some (.r1 op gd ga) := by
    unfold decR
    rw [if_neg (not_not_intro hz), hf, regAt_eq hd, regAt_eq ha]
    cases op with
    | clz => exact if_pos hb
    | lg2 | ex2 => rfl
  unfold uDecode
  rw [ho]
  exact h

theorem uDecode_imm {op : IOp} {i : BitVec 18} (ho : w / 2 ^ 26 % 64 = op.op) (hd : w / 2 ^ 22 % 16 = gd.val) (ha : w / 2 ^ 18 % 16 = ga.val) (hi : w % 2 ^ 18 = i.toNat) :
    uDecode w = some (.i op gd ga i) := by
  unfold uDecode
  rw [ho, regAt_eq hd, regAt_eq ha, ofNat_eq hi]
  cases op <;> rfl

theorem uDecode_lui {i : BitVec 18} (ho : w / 2 ^ 26 % 64 = 6) (hz : w / 2 ^ 18 % 16 = 0) (hd : w / 2 ^ 22 % 16 = gd.val) (hi : w % 2 ^ 18 = i.toNat) : uDecode w = some (.lui gd i) := by
  unfold uDecode
  rw [ho, regAt_eq hd, ofNat_eq hi]
  exact if_pos hz

theorem uDecode_shift {op : ShOp} {n : BitVec 5} (ho : w / 2 ^ 26 % 64 = op.op) (hz : w / 32 % 8192 = 0) (hd : w / 2 ^ 22 % 16 = gd.val) (ha : w / 2 ^ 18 % 16 = ga.val) (hn : w % 2 ^ 5 = n.toNat) :
    uDecode w = some (.sh op gd ga n) := by
  unfold uDecode
  rw [ho, regAt_eq hd, regAt_eq ha, ofNat_eq hn]
  cases op <;> exact if_pos hz

theorem uDecode_branch {op : BOp} {i : BitVec 18} (ho : w / 2 ^ 26 % 64 = op.op) (ha : w / 2 ^ 22 % 16 = ga.val) (hb : w / 2 ^ 18 % 16 = gb.val) (hi : w % 2 ^ 18 = i.toNat) :
    uDecode w = some (.b op ga gb i) := by
  unfold uDecode
  rw [ho, regAt_eq ha, regAt_eq hb, ofNat_eq hi]
  cases op <;> rfl

theorem uDecode_jal {i : BitVec 26} (ho : w / 2 ^ 26 % 64 = 0x1E) (hi : w % 2 ^ 26 = i.toNat) : uDecode w = some (.jal i) := by
  unfold uDecode
  rw [ho, ofNat_eq hi]
  rfl

theorem uDecode_port {op : POp} {a : Half} (ho : w / 2 ^ 26 % 64 = op.op) (hz : w / 2 ^ 16 % 4 = 0) (hd : w / 2 ^ 22 % 16 = gd.val) (hi : w / 2 ^ 18 % 16 = ga.val) (ha : w % 2 ^ 16 = a.toNat) :
    uDecode w = some (.p op gd ga a) := by
  unfold uDecode
  rw [ho, regAt_eq hd, regAt_eq hi, ofNat_eq ha]
  cases op <;> exact if_pos hz

/-- A vector operation of two sources; the complex products name even registers (R232). -/
theorem uDecode_vtwo {op : VOp} (ho : w / 2 ^ 26 % 64 = 0x30) (hz : w / 64 % 128 = 0) (hf : w % 64 = op.fn) (hg : w / 2 ^ 13 % 16 = 0) (hd : w / 2 ^ 23 % 8 = vd.val) (ha : w / 2 ^ 20 % 8 = va.val)
    (hb : w / 2 ^ 17 % 8 = vb.val) (hw : UIns.wf (.v op vd va vb) = true) : uDecode w = some (.v op vd va vb) := by
  have h : decV w = some (.v op vd va vb) := by
    have hr : (decide (w / 2 ^ 13 % 16 = 0) && UIns.wf (.v op vd va vb)) = true := Bool.and_eq_true_iff.mpr ⟨decide_eq_true hg, hw⟩
    unfold decV
    rw [if_neg (not_not_intro hz), hf, vregAt_eq hd, vregAt_eq ha, vregAt_eq hb]
    cases op <;> exact if_pos hr
  unfold uDecode
  rw [ho]
  exact h

/-- FN of a vector operation of one source. -/
def v1Fn : V1Op → Nat | .vener => 6 | .vmov => 8

theorem uDecode_vone {op : V1Op} (ho : w / 2 ^ 26 % 64 = 0x30) (hz : w / 64 % 128 = 0) (hf : w % 64 = v1Fn op) (hg : w / 2 ^ 13 % 16 = 0) (hb : w / 2 ^ 17 % 8 = 0) (hd : w / 2 ^ 23 % 8 = vd.val)
    (ha : w / 2 ^ 20 % 8 = va.val) : uDecode w = some (.v1 op vd va) := by
  have h : decV w = some (.v1 op vd va) := by
    have hr : (decide (w / 2 ^ 13 % 16 = 0) && decide (w / 2 ^ 17 % 8 = 0)) = true := Bool.and_eq_true_iff.mpr ⟨decide_eq_true hg, decide_eq_true hb⟩
    unfold decV
    rw [if_neg (not_not_intro hz), hf, vregAt_eq hd, vregAt_eq ha]
    cases op <;> exact if_pos hr
  unfold uDecode
  rw [ho]
  exact h

theorem uDecode_vshx (ho : w / 2 ^ 26 % 64 = 0x30) (hz : w / 64 % 128 = 0) (hf : w % 64 = 7) (hb : w / 2 ^ 17 % 8 = 0) (hd : w / 2 ^ 23 % 8 = vd.val) (ha : w / 2 ^ 20 % 8 = va.val)
    (hg : w / 2 ^ 13 % 16 = gb.val) : uDecode w = some (.vshx vd va gb) := by
  have h : decV w = some (.vshx vd va gb) := by
    unfold decV
    rw [if_neg (not_not_intro hz), hf, vregAt_eq hd, vregAt_eq ha, regAt_eq hg]
    exact if_pos (decide_eq_true hb)
  unfold uDecode
  rw [ho]
  exact h

theorem uDecode_vext {lane : Fin 16} {frac : BitVec 5} (ho : w / 2 ^ 26 % 64 = 0x32) (hz : w % 1024 = 0) (hd : w / 2 ^ 22 % 16 = gd.val) (ha : w / 2 ^ 19 % 8 = va.val) (hl : w / 2 ^ 15 % 16 = lane.val)
    (hf : w / 2 ^ 10 % 2 ^ 5 = frac.toNat) : uDecode w = some (.vext gd va lane frac) := by
  unfold uDecode
  rw [ho, regAt_eq hd, vregAt_eq ha, regAt_eq hl, ofNat_eq hf]
  exact if_pos hz

theorem uDecode_vins {lane : Fin 16} {frac : BitVec 5} (ho : w / 2 ^ 26 % 64 = 0x33) (hz : w % 1024 = 0) (hd : w / 2 ^ 23 % 8 = vd.val) (ha : w / 2 ^ 19 % 16 = ga.val) (hl : w / 2 ^ 15 % 16 = lane.val)
    (hf : w / 2 ^ 10 % 2 ^ 5 = frac.toNat) : uDecode w = some (.vins vd ga lane frac) := by
  unfold uDecode
  rw [ho, vregAt_eq hd, regAt_eq ha, regAt_eq hl, ofNat_eq hf]
  exact if_pos hz

theorem uDecode_vld {i : BitVec 19} (ho : w / 2 ^ 26 % 64 = 0x34) (hd : w / 2 ^ 23 % 8 = vd.val) (ha : w / 2 ^ 19 % 16 = ga.val) (hi : w % 2 ^ 19 = i.toNat) : uDecode w = some (.vld vd ga i) := by
  unfold uDecode
  rw [ho, vregAt_eq hd, regAt_eq ha, ofNat_eq hi]
  rfl

theorem uDecode_vst {i : BitVec 19} (ho : w / 2 ^ 26 % 64 = 0x35) (hd : w / 2 ^ 23 % 8 = vd.val) (ha : w / 2 ^ 19 % 16 = ga.val) (hi : w % 2 ^ 19 = i.toNat) : uDecode w = some (.vst vd ga i) := by
  unfold uDecode
  rw [ho, vregAt_eq hd, regAt_eq ha, ofNat_eq hi]
  rfl

end

/-! ## The codes of the operations fit their fields -/

theorem rOp_fn_lt (op : ROp) : op.fn < 16 := by cases op <;> decide
theorem r1Op_fn_lt (op : R1Op) : op.fn < 64 := by cases op <;> decide
theorem iOp_op_lt (op : IOp) : op.op < 64 := by cases op <;> decide
theorem shOp_op_lt (op : ShOp) : op.op < 64 := by cases op <;> decide
theorem bOp_op_lt (op : BOp) : op.op < 64 := by cases op <;> decide
theorem pOp_op_lt (op : POp) : op.op < 64 := by cases op <;> decide
theorem vOp_fn_lt (op : VOp) : op.fn < 6 := by cases op <;> decide
theorem v1Fn_lt (op : V1Op) : v1Fn op < 9 := by cases op <;> decide

theorem enc_vone (op : V1Op) (vd va : VReg) : (UIns.v1 op vd va).enc = 0x30 * 2 ^ 26 + vd.val * 2 ^ 23 + va.val * 2 ^ 20 + v1Fn op := by cases op <;> rfl

/-- Settles O59: each field of an encoded word is where its row of Table 8-3 reads it. -/
theorem uskiharRoundTrip : Obligations.UskiharRoundTrip := by
  unfold Obligations.UskiharRoundTrip
  intro u hu
  obtain ⟨w, hw⟩ : ∃ w, w = u.enc := ⟨_, rfl⟩
  rw [← hw]
  cases u with
  | r op gd ga gb =>
    have := rOp_fn_lt op
    simp only [UIns.enc] at hw
    exact ⟨by omega, uDecode_three (by omega) (by omega) (by omega) (by omega) (by omega) (by omega)⟩
  | r1 op gd ga =>
    have := r1Op_fn_lt op
    simp only [UIns.enc] at hw
    exact ⟨by omega, uDecode_one (by omega) (by omega) (by omega) (by omega) (by omega) (by omega)⟩
  | i op gd ga imm =>
    have := iOp_op_lt op
    simp only [UIns.enc] at hw
    exact ⟨by omega, uDecode_imm (by omega) (by omega) (by omega) (by omega)⟩
  | lui gd imm =>
    simp only [UIns.enc] at hw
    exact ⟨by omega, uDecode_lui (by omega) (by omega) (by omega) (by omega)⟩
  | sh op gd ga n =>
    have := shOp_op_lt op
    simp only [UIns.enc] at hw
    exact ⟨by omega, uDecode_shift (by omega) (by omega) (by omega) (by omega) (by omega)⟩
  | b op ga gb ofs =>
    have := bOp_op_lt op
    simp only [UIns.enc] at hw
    exact ⟨by omega, uDecode_branch (by omega) (by omega) (by omega) (by omega)⟩
  | jal ofs =>
    simp only [UIns.enc] at hw
    exact ⟨by omega, uDecode_jal (by omega) (by omega)⟩
  | p op g gi paddr =>
    have := pOp_op_lt op
    simp only [UIns.enc] at hw
    exact ⟨by omega, uDecode_port (by omega) (by omega) (by omega) (by omega) (by omega)⟩
  | v op vd va vb =>
    have := vOp_fn_lt op
    simp only [UIns.enc] at hw
    exact ⟨by omega, uDecode_vtwo (by omega) (by omega) (by omega) (by omega) (by omega) (by omega) (by omega) hu⟩
  | v1 op vd va =>
    have := v1Fn_lt op
    rw [enc_vone] at hw
    exact ⟨by omega, uDecode_vone (by omega) (by omega) (by omega) (by omega) (by omega) (by omega) (by omega)⟩
  | vshx vd va gb =>
    simp only [UIns.enc] at hw
    exact ⟨by omega, uDecode_vshx (by omega) (by omega) (by omega) (by omega) (by omega) (by omega) (by omega)⟩
  | vext gd va lane frac =>
    simp only [UIns.enc] at hw
    exact ⟨by omega, uDecode_vext (by omega) (by omega) (by omega) (by omega) (by omega) (by omega)⟩
  | vins vd ga lane frac =>
    simp only [UIns.enc] at hw
    exact ⟨by omega, uDecode_vins (by omega) (by omega) (by omega) (by omega) (by omega) (by omega)⟩
  | vld vd ga imm =>
    simp only [UIns.enc] at hw
    exact ⟨by omega, uDecode_vld (by omega) (by omega) (by omega) (by omega)⟩
  | vst vd ga imm =>
    simp only [UIns.enc] at hw
    exact ⟨by omega, uDecode_vst (by omega) (by omega) (by omega) (by omega)⟩
  | nop | wait | trap =>
    rw [hw]
    decide

/-- Settles O60: the six words, decoded. -/
theorem uskiharWords : Obligations.UskiharWords := by
  unfold Obligations.UskiharWords
  decide

end Sys2Proof.Proofs
end

section
/-! SUPPORT and the settlement of O52 and O53: one step, and commands on a device held in reset (logs 1 and 43). -/

namespace Sys2Proof.Proofs

open Sys2Proof.Machine

set_option Elab.async false

section
variable {s : State} {c : Instr} {l : List Instr}

theorem step_idle (h : s.pending = []) : step s = .next { s with now := s.now + 1 } := by
  unfold step
  rw [h]

theorem step_front (h : s.pending = c :: l) : step s = exec c { s with pending := l } := by
  unfold step
  rw [h]

/-- Every row of the table answers a next state. -/
theorem exec_answers (c : Instr) (s : State) : ∃ t, exec c s = .next t := by
  cases c <;> exact ⟨_, rfl⟩

end

/-- A meaning that acts out of reset, on a device in reset. -/
theorem held_live {s u : State} (h : s.tst.inReset = true) : (.next (if s.tst.inReset then s else u) : Out) = .next s := by rw [if_pos h]

/-- Settles O52. -/
theorem stepRunsFront : Obligations.StepRunsFront := fun _ _ _ => step_front

/-- Settles O53: time and queue by the law of every command (`exec_calm`); in reset every row but those named is one that acts on a device out of reset. -/
theorem idleAndHeld : Obligations.IdleAndHeld := by
  unfold Obligations.IdleAndHeld
  refine ⟨fun s => step_idle, fun c s => ?time, fun c s hr hc => ?held⟩
  case time =>
    obtain ⟨t, h⟩ := exec_answers c s
    exact ⟨t, h, (exec_calm c h).now, (exec_calm c h).queue⟩
  case held =>
    cases c with
    | extest | samplePreload | idcode | clamp | highz | extestPulse | extestTrain | bypass | tapReset | sysRstNRise | sysRstNFall | strapPinChange | perstNDeassert | railUndervoltage | internalResetEnd => exact hc.elim
    | _ => exact held_live hr

end Sys2Proof.Proofs
end

section
/-! SUPPORT and the settlement of O54: what registers read at reset (R440, R441, Table 16-2). -/

namespace Sys2Proof.Proofs

set_option Elab.async false

/-- Settles O54: the four lists of registers, each evaluated. -/
theorem resetRegisters : Obligations.ResetRegisters := by
  unfold Obligations.ResetRegisters
  exact ⟨by decide, by decide, by decide, by decide⟩

end Sys2Proof.Proofs
end

section
/-! SUPPORT and the settlement of O19: set-up registers of JL, GEN, REC, TIM and TST (R224, R353, R361, R387, R413, R440). -/

namespace Sys2Proof.Proofs

open Sys2Proof.Machine Sys2Proof.Laws

set_option Elab.async false

/-! ## JL_PORT_CFG and JL_AGRP (R361, R387) -/

section
variable {s : State} {p i : Nat} {v : Word}

/-- ROLE 1 is refused on the master and where another port has it (R361). -/
theorem upstreamTaken_iff : (s.isMaster = true ∨ (List.range 4).any (fun q => decide (q ≠ p ∧ (s.port q).cfgRole = 1)) = true) ↔
    s.isMaster = true ∨ ∃ q, q < 4 ∧ q ≠ p ∧ (s.port q).cfgRole = 1 := by
  simp only [List.any_eq_true, List.mem_range, decide_eq_true_eq]

theorem portCfgWrite_void (h : bitsOf v 0 2 = 3 ∨ (bitsOf v 0 2 = 1 ∧ (s.isMaster = true ∨ ∃ q, q < 4 ∧ q ≠ p ∧ (s.port q).cfgRole = 1))) : s.portCfgWrite p v = s :=
  if_pos (h.imp_right (fun r => ⟨r.1, upstreamTaken_iff.mpr r.2⟩))

theorem portCfgWrite_takes (h3 : bitsOf v 0 2 ≠ 3) (h1 : bitsOf v 0 2 = 1 → s.isMaster = false ∧ ∀ q, q < 4 → q ≠ p → (s.port q).cfgRole ≠ 1) :
    s.portCfgWrite p v = s.updPort p (fun x => { x with cfgRole := bitsOf v 0 2, jl2En := v.getLsbD 3 }) := by
  refine if_neg ?_
  rintro (h | ⟨h, taken⟩)
  · exact h3 h
  · obtain ⟨member, free⟩ := h1 h
    rcases upstreamTaken_iff.mp taken with master | ⟨q, hq, hp, hr⟩
    · exact Bool.noConfusion (member.symm.trans master)
    · exact free q hq hp hr

theorem agrpWrite_takes (ht : (s.chainNow i).trans = none) (hs : (s.chainNow i).st = .sleep ∨ (s.chainNow i).st = .standby) :
    s.agrpWrite i v = { s with jl := { s.jl with agrp := s.jl.agrp.set 0 i (bitsOf v 0 6), dirty := true } } := if_pos ⟨hs, ht⟩

theorem agrpWrite_void (h : (s.chainNow i).trans ≠ none ∨ ((s.chainNow i).st ≠ .sleep ∧ (s.chainNow i).st ≠ .standby)) : s.agrpWrite i v = s := by
  refine if_neg ?_
  rintro ⟨hs, ht⟩
  rcases h with h | ⟨h1, h2⟩
  · exact h ht
  · exact hs.elim h1 h2

end

/-! ## TIM_SLACK_CLR (R224) -/

/-- A sensor's figures without its lowest slack and its miss. -/
def slackCleared (x : Slack) : Slack := { x with min := 100, miss := false }

/-- What the write leaves of a table of sensors, from the table as it is. -/
def slackSwept (l t : Tab Slack) : Tab Slack := l.foldl (fun a e => Tab.set a Slack.reset e.1 (slackCleared e.2)) t

theorem timSlackClr_set (s : State) {v : Word} (h : v.getLsbD 0 = true) : s.timSlackClr v = { s with tim := { s.tim with slack := slackSwept s.tim.slack s.tim.slack } } := if_pos h

theorem slackSwept_clear (l t : Tab Slack) (i : Nat) (h : (∃ x, t.get Slack.reset i = slackCleared x) ∨ ∃ e ∈ l, e.1 = i) : ∃ x, (slackSwept l t).get Slack.reset i = slackCleared x := by
  induction l generalizing t with
  | nil => exact h.elim id (fun ⟨_, he, _⟩ => absurd he List.not_mem_nil)
  | cons e r ih =>
    refine ih _ ?_
    by_cases hi : e.1 = i
    · subst hi
      exact .inl ⟨e.2, Tab.get_set_self _ _ _ _⟩
    · refine h.imp (fun ⟨x, hx⟩ => ⟨x, (Tab.get_set_ne _ _ _ _ _ _ hi).trans hx⟩) (fun ⟨d, hd, hdi⟩ => ⟨d, ?_, hdi⟩)
      exact (List.mem_cons.mp hd).resolve_left (fun eq => hi (eq ▸ hdi))

/-- Every sensor is cleared: one that the table does not list reads its reset figures. -/
theorem slackSwept_all (t : Tab Slack) (i : Nat) : ∃ x, (slackSwept t t).get Slack.reset i = slackCleared x := by
  refine slackSwept_clear t t i ?_
  by_cases h : ∃ e ∈ t, e.1 = i
  · exact .inr h
  · exact .inl ⟨Slack.reset, Tab.get_absent t _ i (fun e he hi => h ⟨e, he, hi⟩)⟩

theorem slackSwept_now (t : Tab Slack) (i : Nat) (hw : t.wf Slack.reset = true) : ((slackSwept t t).get Slack.reset i).now = (t.get Slack.reset i).now := by
  have swept : (slackSwept t t).get Slack.reset i = slackCleared (t.get Slack.reset i) := Tab.get_map t slackCleared t Slack.reset i hw rfl (Tab.get_absent t _ i)
  rw [swept, slackCleared]

/-! ## The rows of these writes on a device out of reset -/

section
variable {s : State} {d : Dir} {c : Fin 32} {p : Fin 4} {q : Fin 8} {v : Word}

theorem exec_jlPortCfgWrite (hr : s.runs) : exec (.jlPortCfgWrite p v) s = .next (s.portCfgWrite p.val v) := exec_live (f := fun x => x.portCfgWrite p.val v) rfl hr
theorem exec_jlAgrpWrite (hr : s.runs) : exec (.jlAgrpWrite d c v) s = .next (s.agrpWrite (chIdx d c.val) v) := exec_live (f := fun x => x.agrpWrite (chIdx d c.val) v) rfl hr
theorem exec_genVidWrite (hr : s.runs) : exec (.genVidWrite v) s = .next (s.genVidWrite v) := exec_live (f := fun x => x.genVidWrite v) rfl hr
theorem exec_recCursorHiWrite (hr : s.runs) : exec (.recCursorHiWrite v) s = .next (s.recCursorHi v) := exec_live (f := fun x => x.recCursorHi v) rfl hr
theorem exec_tstTmuxWrite (hr : s.runs) : exec (.tstTmuxWrite q v) s = .next (s.tmuxWrite q.val v) := exec_live (f := fun x => x.tmuxWrite q.val v) rfl hr
theorem exec_timSlackClr (hr : s.runs) : exec (.timSlackClr v) s = .next (s.timSlackClr v) := exec_live (f := fun x => x.timSlackClr v) rfl hr

end

/-! ## The test multiplexers (R410, R413) -/

section
variable {s : State} {p : Nat} {v : Word}

theorem tmuxPut_takes (h : tmuxOk (v.toNat % 65536) = true) : s.tmuxPut p v = { s with tst := { s.tst with tmux := s.tst.tmux.set 0 p (word (v.toNat % 65536)) } } := if_pos h

theorem tmuxPut_void (h : tmuxOk (v.toNat % 65536) = false) : s.tmuxPut p v = s := if_neg (by rw [h]; exact Bool.false_ne_true)

theorem tmuxWrite_void (h : s.tst.straps.devEn = false ∨ tmuxOk (v.toNat % 65536) = false) : s.tmuxWrite p v = s := by
  unfold State.tmuxWrite
  by_cases hd : s.tst.straps.devEn = true
  · rw [if_pos hd]
    exact tmuxPut_void (h.resolve_left (by rw [hd]; decide))
  · exact if_neg hd

theorem tmuxWrite_takes (hd : s.tst.straps.devEn = true) (h : tmuxOk (v.toNat % 65536) = true) :
    s.tmuxWrite p v = { s with tst := { s.tst with tmux := s.tst.tmux.set 0 p (word (v.toNat % 65536)) } } := (if_pos hd).trans (tmuxPut_takes h)

end

/-- Settles O19: each write where it takes effect and where it does not. -/
theorem otherSetupWrites : Obligations.OtherSetupWrites := by
  unfold Obligations.OtherSetupWrites
  refine ⟨fun s p v hr h3 h1 => ?port, fun s p v hr h => by rw [exec_jlPortCfgWrite hr, portCfgWrite_void h], fun s d c v hr ht hs => ?group,
    fun s d c v hr h => by rw [exec_jlAgrpWrite hr, agrpWrite_void h], fun s v hr => exec_genVidWrite hr, fun s v hr => exec_recCursorHiWrite hr, fun s p v hr hd ho => ?tmux,
    fun s p v hr h => by rw [exec_tstTmuxWrite hr, tmuxWrite_void h], fun s v hr h => ?slack, fun s v hr h => ?kept⟩
  case port =>
    refine ⟨_, exec_jlPortCfgWrite hr, ?_⟩
    rw [portCfgWrite_takes h3 h1]
    exact ⟨State.updPort_only s _ _, State.port_updPort s _ _⟩
  case group =>
    refine ⟨_, exec_jlAgrpWrite hr, ?_⟩
    rw [agrpWrite_takes ht hs]
    exact ⟨rfl, Tab.get_set_self _ _ _ _, fun j hj => Tab.get_set_ne _ _ _ _ _ _ (Ne.symm hj)⟩
  case tmux =>
    refine ⟨_, exec_tstTmuxWrite hr, ?_⟩
    rw [tmuxWrite_takes hd ho]
    exact ⟨rfl, Tab.get_set_self _ _ _ _, fun q hq => Tab.get_set_ne _ _ _ _ _ _ (Ne.symm hq)⟩
  case slack =>
    refine ⟨_, exec_timSlackClr hr, ?_⟩
    rw [timSlackClr_set s h]
    refine ⟨rfl, fun i => ?_, fun hw i => slackSwept_now _ i hw⟩
    obtain ⟨x, hx⟩ := slackSwept_all s.tim.slack i
    rw [hx]
    exact ⟨rfl, rfl⟩
  case kept => rw [exec_timSlackClr hr, State.timSlackClr, if_neg (by rw [h]; exact Bool.false_ne_true)]

end Sys2Proof.Proofs
end

section
/-! SUPPORT and the settlement of O5: the test access port (R408 to R410). -/

namespace Sys2Proof.Proofs

open Sys2Proof.Machine Sys2Proof.Laws

set_option Elab.async false

/-- An alarm beside the test block. -/
theorem alarmed_besideTst {s t : State} {x : Tst} (h : ({ s with tst := x } : State).alarmed t) : s.alarmed { t with tst := s.tst } := by
  unfold State.alarmed at h ⊢
  exact congrArg (fun u : State => { u with tst := s.tst }) h

/-! ## Scan instructions that drive pins (R409) -/

section
variable {s : State} {c : Byte} {b v : BitVec 3412} {i : Instr}

/-- The device once a scan instruction drives its pins: the RESET cause in device scope, and the boundary register b. -/
def scanWinter (s : State) (c : Byte) (b : BitVec 3412) : State :=
  { (s.tapIr c).winterSet objDevice 15 0 with tst := { s.tst with ir := c, scanned := true, bsr := b } }

theorem scanWinter_alarmed : s.alarmed { scanWinter s c b with tst := s.tst } :=
  alarmed_besideTst (x := (s.tapIr c).tst) (t := (s.tapIr c).winterSet objDevice 15 0) (State.alarmed_winterSet (State.alarmed_refl (s.tapIr c)))

theorem scanWinter_cause : ((scanWinter s c b).wobj objDevice).cause.getLsbD 15 = true := State.winterSet_cause (s.tapIr c) objDevice 15 0 (by decide)

theorem scanSelect_high (h : s.tst.straps.testEn = true) : s.scanSelect c = s.tapIr c := if_pos h

theorem scanSelect_low (h : s.tst.straps.testEn = false) : s.scanSelect c = scanWinter s c s.tst.bsr := by
  have same : ((s.tapIr c).winterSet objDevice 15 0).tst = (s.tapIr c).tst := State.alarmed_tst (State.alarmed_winterSet (State.alarmed_refl _))
  unfold State.scanSelect scanWinter
  dsimp only
  rw [if_neg (by rw [h]; exact Bool.false_ne_true), same]
  rfl

/-- The rows of R409: those with a boundary register of their own load it. -/
theorem exec_scan (hi : (i, c) ∈ [(Instr.extest v, (0 : Byte)), (.clamp, 3), (.highz, 4), (.extestPulse v, 5), (.extestTrain v, 6)]) (h : s.tst.straps.testEn = false) :
    ∃ b, exec i s = .next (scanWinter s c b) ∧ (c ∉ [(3 : Byte), 4] → b = v) := by
  have loaded (c : Byte) : (.next ((s.scanSelect c).bsrLoad v) : Out) = .next (scanWinter s c v) := by rw [scanSelect_low h]; rfl
  have unloaded (c : Byte) : (.next (s.scanSelect c) : Out) = .next (scanWinter s c s.tst.bsr) := by rw [scanSelect_low h]
  simp only [List.mem_cons, List.not_mem_nil, or_false, Prod.mk.injEq] at hi
  obtain ⟨rfl, rfl⟩ | ⟨rfl, rfl⟩ | ⟨rfl, rfl⟩ | ⟨rfl, rfl⟩ | ⟨rfl, rfl⟩ := hi
  · exact ⟨v, loaded 0, fun _ => rfl⟩
  · exact ⟨_, unloaded 3, fun hn => absurd (by decide) hn⟩
  · exact ⟨_, unloaded 4, fun hn => absurd (by decide) hn⟩
  · exact ⟨v, loaded 5, fun _ => rfl⟩
  · exact ⟨v, loaded 6, fun _ => rfl⟩

/-- A scan that loads the boundary register and disturbs nothing. -/
theorem exec_scan_quiet (hi : (i, c) ∈ [(Instr.extest v, (0 : Byte)), (.extestPulse v, 5), (.extestTrain v, 6), (.samplePreload v, 1)]) (h : s.tst.straps.testEn = true ∨ c = 1) :
    exec i s = .next ((s.tapIr c).bsrLoad v) := by
  have loaded (c : Byte) (hc : c ≠ 1) (h : s.tst.straps.testEn = true ∨ c = 1) : (.next ((s.scanSelect c).bsrLoad v) : Out) = .next ((s.tapIr c).bsrLoad v) := by
    rw [scanSelect_high (h.resolve_right hc)]
  simp only [List.mem_cons, List.not_mem_nil, or_false, Prod.mk.injEq] at hi
  obtain ⟨rfl, rfl⟩ | ⟨rfl, rfl⟩ | ⟨rfl, rfl⟩ | ⟨rfl, rfl⟩ := hi
  · exact loaded 0 (by decide) h
  · exact loaded 5 (by decide) h
  · exact loaded 6 (by decide) h
  · rfl

theorem exec_pins_quiet (hi : (i, c) ∈ [(Instr.clamp, (3 : Byte)), (.highz, 4)]) (h : s.tst.straps.testEn = true) : exec i s = .next (s.tapIr c) := by
  have quiet (c : Byte) : (.next (s.scanSelect c) : Out) = .next (s.tapIr c) := by rw [scanSelect_high h]
  simp only [List.mem_cons, List.not_mem_nil, or_false, Prod.mk.injEq] at hi
  obtain ⟨rfl, rfl⟩ | ⟨rfl, rfl⟩ := hi
  · exact quiet 3
  · exact quiet 4

end

/-! ## TMUXSEL (R410) -/

section
variable {s : State} {v : Word}

theorem exec_tmuxsel (hr : s.runs) : exec (.tmuxsel v) s = .next (s.tmuxSel v) := exec_live (f := fun x => x.tmuxSel v) rfl hr

theorem tmuxSel_low (h : s.tst.straps.testEn = false) : s.tmuxSel v = (s.tapIr 0x21).tapShow 0 := if_neg (by rw [h]; exact Bool.false_ne_true)

theorem tmuxSel_high (h : s.tst.straps.testEn = true) : s.tmuxSel v = (s.tapIr 0x21).tmuxPut (bitsOf v 24 3) v := if_pos h

theorem tmuxPut_frame (s : State) (p : Nat) (v : Word) : s.tmuxPut p v = { s with tst := { s.tst with tmux := (s.tmuxPut p v).tst.tmux } } := by
  unfold State.tmuxPut
  exact ite_both (fun u : State => u = { s with tst := { s.tst with tmux := u.tst.tmux } }) rfl rfl

theorem tmuxPut_get (s : State) (p q : Nat) (v : Word) :
    (s.tmuxPut p v).tst.tmux.get 0 q = if q = p ∧ tmuxOk (v.toNat % 65536) = true then word (v.toNat % 65536) else s.tst.tmux.get 0 q := by
  cases ho : tmuxOk (v.toNat % 65536) with
  | false => rw [tmuxPut_void ho, if_neg (fun h => Bool.false_ne_true h.2)]
  | true =>
    rw [tmuxPut_takes ho, Tab.get_set]
    exact if_congr (by rw [and_iff_left rfl, eq_comm]) rfl rfl

end

/-- Settles O5: each instruction by its row; those that drive pins through the gate of TEST_EN. -/
theorem testAccessPort : Obligations.TestAccessPort := by
  unfold Obligations.TestAccessPort
  refine ⟨fun s v i c hi h => ?scan, fun s v i c hi h => exec_scan_quiet hi h, fun s i c hi h => exec_pins_quiet hi h, fun s => ⟨rfl, rfl⟩, fun s c h => ?bypass, fun s v hr h => ?off, fun s v hr h => ?on⟩
  case scan =>
    obtain ⟨b, he, hb⟩ := exec_scan hi h
    exact ⟨_, he, scanWinter_cause, rfl, rfl, hb, scanWinter_alarmed, rfl, rfl⟩
  case bypass =>
    show (.next (if tapListed c = true then s else (s.tapIr c).tapShow 0) : Out) = _
    rw [if_neg (by rw [h]; exact Bool.false_ne_true)]
    rfl
  case off =>
    rw [exec_tmuxsel hr, tmuxSel_low h]
    rfl
  case on =>
    refine ⟨_, exec_tmuxsel hr, ?_, fun p => ?_⟩
    · rw [tmuxSel_high h]
      exact tmuxPut_frame (s.tapIr 0x21) _ v
    · rw [tmuxSel_high h]
      exact tmuxPut_get (s.tapIr 0x21) _ p v

end Sys2Proof.Proofs
end

section
/-! SUPPORT and the settlement of O7: factory access (R339, R341, R411, R412). -/

namespace Sys2Proof.Proofs

open Sys2Proof.Machine Sys2Proof.Laws

set_option Elab.async false

/-! ## The gate of TEST_EN (R412) -/

section
variable {s : State} {f : State → Nat × Word64 × State}

/-- The result of a factory operation, and the state it leaves. -/
def factoryDone (r : Nat × Word64 × State) : State := { r.2.2 with tst := { r.2.2.tst with tapOut := r.2.1, tstStatus := r.1 } }

theorem tstacc_low (h : s.tst.straps.testEn = false) : s.tstacc f = { s with tst := { s.tst with ir := 0x22, tapOut := 0, tstStatus := 0 } } :=
  if_neg (by simpa [State.tapIr] using h)

theorem tstacc_high (h : s.tst.straps.testEn = true) : s.tstacc f = factoryDone (f (s.tapIr 0x22)) := if_pos h

end

/-! ## The rows of factory access on a device out of reset -/

section
variable {s : State} {a : Word} {v : Word64}

theorem exec_readWord (hr : s.runs) : exec (.tstaccReadWord a) s = .next (s.tstRead a.toNat) := exec_live (f := fun x => x.tstRead a.toNat) rfl hr
theorem exec_writeWord (hr : s.runs) : exec (.tstaccWriteWord a v) s = .next (s.tstWrite a.toNat v) := exec_live (f := fun x => x.tstWrite a.toNat v) rfl hr
theorem exec_writeOph (hr : s.runs) : exec (.tstaccWriteOph v) s = .next (s.tstOph v) := exec_live (f := fun x => x.tstOph v) rfl hr
theorem exec_stageImage (hr : s.runs) : exec (.tstaccStageImage a v) s = .next (s.tstStage a.toNat v) := exec_live (f := fun x => x.tstStage a.toNat v) rfl hr
theorem exec_restoreImage (hr : s.runs) : exec .tstaccRestoreImage s = .next s.tstRestore := exec_live (f := fun x => x.tstRestore) rfl hr
theorem exec_readRegister (hr : s.runs) : exec (.tstaccReadRegister a) s = .next (s.tstReg a.toNat) := exec_live (f := fun x => x.tstReg a.toNat) rfl hr
theorem exec_tstaccFaultAck (hr : s.runs) : exec (.tstaccFaultAck a v) s = .next (s.tstAck a.toNat v) := exec_live (f := fun x => x.tstAck a.toNat v) rfl hr

/-- Every factory operation passes the gate of TEST_EN. -/
theorem exec_factory {c : Instr} (hr : s.runs)
    (hc : c ∈ [Instr.tstaccReadWord a, .tstaccWriteWord a v, .tstaccWriteOph v, .tstaccStageImage a v, .tstaccRestoreImage, .tstaccReadRegister a, .tstaccFaultAck a v]) :
    ∃ f, exec c s = .next (s.tstacc f) := by
  simp only [List.mem_cons, List.not_mem_nil, or_false] at hc
  obtain rfl | rfl | rfl | rfl | rfl | rfl | rfl := hc
  · exact ⟨_, exec_readWord hr⟩
  · exact ⟨_, exec_writeWord hr⟩
  · exact ⟨_, exec_writeOph hr⟩
  · exact ⟨_, exec_stageImage hr⟩
  · exact ⟨_, exec_restoreImage hr⟩
  · exact ⟨_, exec_readRegister hr⟩
  · exact ⟨_, exec_tstaccFaultAck hr⟩

end

/-! ## Words (R411, R412) -/

section
variable {s : State} {a : Nat} {v : Word64}

theorem tstRead_none (ht : s.tst.straps.testEn = true) (h : s.tstWord a = none) : s.tstRead a = factoryDone (2, 0, s.tapIr 0x22) := by
  have h' : (s.tapIr 0x22).tstWord a = none := h
  unfold State.tstRead
  rw [tstacc_high ht]
  dsimp only
  rw [h']

theorem tstRead_clean (ht : s.tst.straps.testEn = true) (h : s.tstWord a = some v) (hf : s.flt.flipped = []) (hp : s.wordPoisoned a = false) :
    s.tstRead a = factoryDone (0, v, s.tapIr 0x22) := by
  have h' : (s.tapIr 0x22).tstWord a = some v := h
  have sound : (s.tapIr 0x22).symFound a false = s.tapIr 0x22 := symFound_clean (.inr (by rw [show (s.tapIr 0x22).flt.flipped = [] from hf]; simp))
  unfold State.tstRead
  rw [tstacc_high ht]
  dsimp only
  rw [h']
  dsimp only
  rw [sound]
  exact congrArg factoryDone (if_neg (by rw [show (s.tapIr 0x22).wordPoisoned a = false from hp]; exact Bool.false_ne_true))

theorem tstWrite_none (ht : s.tst.straps.testEn = true) (h : s.tstWord a = none) : s.tstWrite a v = factoryDone (2, 0, s.tapIr 0x22) := by
  have h' : (s.tapIr 0x22).tstWord a = none := h
  unfold State.tstWrite
  rw [tstacc_high ht, h']
  rfl

theorem tstWrite_some (ht : s.tst.straps.testEn = true) (h : (s.tstWord a).isNone = false) : s.tstWrite a v = factoryDone (0, v, ((s.tapIr 0x22).tstPut a v).wordFresh a) := by
  have h' : ((s.tapIr 0x22).tstWord a).isNone = false := h
  unfold State.tstWrite
  rw [tstacc_high ht, h']
  rfl

theorem wordFresh_sound : (s.wordFresh a).wordPoisoned a = false := by
  simp [State.wordFresh, State.wordPoisoned]

end

/-! ## Engine data memory (R411) -/

section
variable {s : State} {e w : Nat} {v : Word64}

/-- A word of engine data memory: block 14, memory kind 6. -/
theorem dataAddress (he : e < 128) (hw : w < 4096) :
    (testBase 14 e 6 + w) / 2 ^ 28 = 14 ∧ (testBase 14 e 6 + w) / 2 ^ 20 % 256 = e ∧ (testBase 14 e 6 + w) / 2 ^ 16 % 16 = 6 ∧ (testBase 14 e 6 + w) % 2 ^ 16 = w := by
  unfold testBase
  omega

theorem tstWord_data (he : e < 128) (hw : w < 4096) : (s.tstWord (testBase 14 e 6 + w)).isNone = false := by
  obtain ⟨hb, ho, hk, hl⟩ := dataAddress he hw
  unfold State.tstWord
  rw [hb, ho, hk, hl]
  show Option.isNone (if 128 ≤ e then none else if w < 4096 then some (bytes64 fun j => (s.eng e).dmem.get 0 (8 * w + j)) else none) = false
  rw [if_neg (Nat.not_le.mpr he), if_pos hw]
  rfl

/-- Data memory with eight bytes of a word written from byte 8 * w. -/
def eightBytes (w : Nat) (v : Word64) (t : Tab Byte) : Tab Byte := (List.range 8).foldl (fun t j => Tab.set t 0 (8 * w + j) (v.extractLsb' (8 * j) 8)) t

theorem tstPut_data (he : e < 128) (hw : w < 4096) : s.tstPut (testBase 14 e 6 + w) v = s.updEng e (fun x => { x with dmem := eightBytes w v x.dmem }) := by
  obtain ⟨hb, ho, hk, hl⟩ := dataAddress he hw
  unfold State.tstPut
  rw [hb, ho, hk, hl]
  rfl

/-- Bytes written one after another, each in its own place. -/
theorem get_setBytes (w : Nat) (v : Word64) (t : Tab Byte) (n k : Nat) :
    ((List.range n).foldl (fun t j => Tab.set t 0 (8 * w + j) (v.extractLsb' (8 * j) 8)) t).get 0 k = if 8 * w ≤ k ∧ k < 8 * w + n then v.extractLsb' (8 * (k - 8 * w)) 8 else t.get 0 k := by
  induction n with
  | zero => rw [if_neg (by omega)]; rfl
  | succ n ih =>
    rw [List.range_succ, List.foldl_append, List.foldl_cons, List.foldl_nil, Tab.get_set, ih]
    by_cases hk : 8 * w + n = k
    · subst hk
      rw [if_pos rfl, if_pos (by omega), Nat.add_sub_cancel_left]
    · rw [if_neg hk]
      exact if_congr (by omega) rfl rfl

theorem eightBytes_in {t : Tab Byte} {j : Nat} (hj : j < 8) : (eightBytes w v t).get 0 (8 * w + j) = v.extractLsb' (8 * j) 8 := by
  unfold eightBytes
  rw [get_setBytes, if_pos (by omega), Nat.add_sub_cancel_left]

theorem eightBytes_out {t : Tab Byte} {k : Nat} (hk : k < 8 * w ∨ 8 * w + 8 ≤ k) : (eightBytes w v t).get 0 k = t.get 0 k := by
  unfold eightBytes
  rw [get_setBytes, if_neg (by omega)]

end

/-! ## OPH and the store image (R339, R341) -/

section
variable {s : State} {n : Nat}

theorem writeOph_frame : s.writeOph n = { s with recd := { s.recd with ophBase := (s.writeOph n).recd.ophBase, ophAt := (s.writeOph n).recd.ophAt } } := by
  unfold State.writeOph
  exact ite_both (fun u : State => u = { s with recd := { s.recd with ophBase := u.recd.ophBase, ophAt := u.recd.ophAt } }) rfl rfl

/-- OPH that starts now. -/
theorem oph_starts {t : State} (hm : t.recd.mounted = true) (ha : t.recd.ophAt = t.now) : t.oph = t.recd.ophBase := by
  unfold State.oph
  rw [if_pos hm, ha, Nat.sub_self, Nat.zero_div, Nat.add_zero]

theorem writeOph_oph (hm : s.recd.mounted = true) : (s.writeOph n).oph = max s.oph n := by
  unfold State.writeOph
  by_cases h : n < s.oph
  · rw [if_pos h, Nat.max_eq_left h.le]
  · rw [if_neg h, Nat.max_eq_right (Nat.not_lt.mp h)]
    exact oph_starts (t := { s with recd := { s.recd with ophBase := n, ophAt := s.now } }) hm rfl

/-- The staged image, as the store it becomes (R341, R412). -/
def stagedStore (s : State) : Store :=
  { slots := s.recd.imageSlots, spares := s.recd.store.spares, ckpts := [Config.imageMeta 1 s.recd.staging], pcc := word (Config.imageMeta 0 s.recd.staging), used := true, lastSeq := s.recd.store.lastSeq
    auth := (List.range 320).foldl (fun t i => Tab.set t (cword 0) i (word (Config.imageMeta (16 + i) s.recd.staging))) [] }

/-- The recorder with the image as its store, before record 0x0002. -/
def imageTaken (s : State) : State :=
  { s with recd := { s.recd with
    nextSeq := max (s.recd.nextSeq - 1) (stagedStore s).newest + 1, ophBase := max s.oph ((stagedStore s).resume - 1) + 1, ophAt := s.now
    store := { stagedStore s with pcc := word (max (stagedStore s).pcc.toNat s.recd.store.pcc.toNat) } } }

theorem restoreImage_alarmed : (imageTaken s).alarmed s.restoreImage := State.alarmed_record (State.alarmed_refl (imageTaken s))

theorem restoreImage_calm : Calm noTol (imageTaken s) s.restoreImage := Calm.record (Calm.refl _ (imageTaken s))

theorem restoreImage_store : s.restoreImage.recd.store = (imageTaken s).recd.store := State.alarmed_store restoreImage_alarmed

/-- An alarm leaves OPH as it runs. -/
theorem alarmed_oph {a b : State} (h : a.alarmed b) : b.oph = a.oph := by
  unfold State.alarmed at h
  rw [h]
  rfl

theorem restoreImage_nextSeq : s.recd.nextSeq ≤ s.restoreImage.recd.nextSeq := by
  refine Nat.le_trans ?_ (restoreImage_calm.seq rfl)
  show s.recd.nextSeq ≤ max (s.recd.nextSeq - 1) _ + 1
  omega

/-- PCC is the larger one. -/
theorem toNat_word_max (x y : Word) : (word (max x.toNat y.toNat)).toNat = max x.toNat y.toNat := BitVec.toNat_ofNat .. ▸ Nat.mod_eq_of_lt (Nat.max_lt.mpr ⟨x.isLt, y.isLt⟩)

theorem restoreImage_pcc : s.recd.store.pcc.toNat ≤ s.restoreImage.recd.store.pcc.toNat := by
  rw [restoreImage_store]
  exact (toNat_word_max _ _).symm ▸ Nat.le_max_right _ _

theorem restoreImage_oph (hm : s.recd.mounted = true) : s.oph < s.restoreImage.oph := by
  rw [alarmed_oph restoreImage_alarmed, oph_starts (t := imageTaken s) hm rfl]
  exact Nat.lt_succ_of_le (Nat.le_max_left _ _)

end

/-! ## Registers (R412) -/

section
variable {s : State} {a : Nat}

theorem portRead_value (s : State) (p : RdPort) (off : Nat) : (s.portRead p off).hif.rdData.get 0 (portKey p) = s.regShow p off := by
  unfold State.portRead State.readReg
  exact Tab.get_set_self _ _ _ _

theorem tstReg_word (ht : s.tst.straps.testEn = true) (h4 : a % 4 = 0) (h : a < 2 ^ 20) :
    s.tstReg a = factoryDone (0, ((s.tapIr 0x22).regShow .tp a).setWidth 64, (s.tapIr 0x22).portRead .tp a) := by
  unfold State.tstReg
  rw [tstacc_high ht, if_neg (by omega)]
  dsimp only
  exact congrArg (fun d : Word => factoryDone (0, d.setWidth 64, _)) (portRead_value _ .tp a)

theorem tstAck_register {b : Fin 16} {v : Word64} (ht : s.tst.straps.testEn = true) (ha : a = b.val * 2 ^ 28) : s.tstAck a v = factoryDone (0, v, (s.tapIr 0x22).faultAck b.val (v.extractLsb' 0 32)) := by
  have hb : a / 2 ^ 28 = b.val := by omega
  unfold State.tstAck
  rw [tstacc_high ht, if_pos (by omega), hb]

end

/-- Settles O7: every operation passes the gate of TEST_EN; then each by what it leaves. -/
theorem factoryAccess : Obligations.FactoryAccess := by
  unfold Obligations.FactoryAccess
  refine ⟨fun s a v c hr hc ht => ?low, fun s a v hr ht hn => ?unnamed, fun s a v hr ht hw hf hp => ?read, fun s e w a v hr ht he hw ha => ?write, fun s v hr ht => ?oph, fun s a v hr ht => ?stage,
    fun s hr ht hw => ?refused, fun s hr ht hw => ?restored, fun s a hr ht h4 hlt => ?register, fun s b a v u hr ht ha hu => ?ack⟩
  case low =>
    obtain ⟨f, hf⟩ := exec_factory hr hc
    rw [hf, tstacc_low ht]
  case unnamed => exact ⟨by rw [exec_readWord hr, tstRead_none ht hn]; rfl, by rw [exec_writeWord hr, tstWrite_none ht hn]; rfl⟩
  case read => rw [exec_readWord hr, tstRead_clean ht hw hf hp]; rfl
  case write =>
    refine ⟨_, by rw [exec_writeWord hr, ha, tstWrite_some ht (tstWord_data he hw), tstPut_data he hw], fun j hj => ?_, fun k hk => ?_, fun d hd => ?_, ?_, rfl⟩
    · exact (congrArg (fun x : Eng => x.dmem.get 0 (8 * w + j)) (State.eng_updEng (s.tapIr 0x22) e _)).trans (eightBytes_in hj)
    · exact (congrArg (fun x : Eng => x.dmem.get 0 k) (State.eng_updEng (s.tapIr 0x22) e _)).trans (eightBytes_out hk)
    · exact State.eng_updEng_ne (s.tapIr 0x22) _ _ _ (Ne.symm hd)
    · rw [ha]
      exact wordFresh_sound
  case oph =>
    refine ⟨factoryDone (0, v, (s.tapIr 0x22).writeOph (bitsOf v 0 48)), by rw [exec_writeOph hr, State.tstOph, tstacc_high ht], rfl, ?_, ?_, writeOph_oph (s := s.tapIr 0x22)⟩
    · exact (congrArg (fun x : State => x.recd.store) (writeOph_frame (s := s.tapIr 0x22)) :)
    · exact (congrArg (fun x : State => x.recd.buf) (writeOph_frame (s := s.tapIr 0x22)) :)
  case stage =>
    exact ⟨_, by rw [exec_stageImage hr, State.tstStage, tstacc_high ht], rfl, Tab.get_set_self _ _ _ _, fun b hb => Tab.get_set_ne _ _ _ _ _ _ (Ne.symm hb)⟩
  case refused =>
    have out : (s.tapIr 0x22).inWinter objDevice = false := hw
    rw [exec_restoreImage hr, State.tstRestore, tstacc_high ht, out]
    rfl
  case restored =>
    have winter : (s.tapIr 0x22).inWinter objDevice = true := hw
    refine ⟨factoryDone (0, 0, (s.tapIr 0x22).restoreImage), by rw [exec_restoreImage hr, State.tstRestore, tstacc_high ht, winter, if_pos rfl], rfl, ?_, restoreImage_nextSeq (s := s.tapIr 0x22), restoreImage_pcc (s := s.tapIr 0x22),
      restoreImage_oph (s := s.tapIr 0x22)⟩
    exact congrArg Store.slots (restoreImage_store (s := s.tapIr 0x22))
  case register =>
    refine ⟨_, by rw [exec_readRegister hr, tstReg_word ht h4 hlt, portRead_frame], rfl, rfl, rfl⟩
  case ack =>
    obtain rfl := Host.Outcome.next.inj ((exec_live (f := fun x => x.faultAck b.val (v.extractLsb' 0 32)) (s := s.tapIr 0x22) rfl hr).symm.trans hu)
    rw [exec_tstaccFaultAck hr, tstAck_register ht ha]
    rfl

end Sys2Proof.Proofs
end

section
/-! SUPPORT and the settlement of O1: reset, straps and the rail (R400, R402, R423). -/

namespace Sys2Proof.Proofs

open Sys2Proof.Machine Sys2Proof.Laws

set_option Elab.async false

/-! ## The end of a reset (R402, R403) -/

section
variable {s : State}

/-- The device object as SPRING begins: WINTER with cause RESET alone, entered now. -/
def resetObject (s : State) : WObj := { wobjDefault objDevice with entries := [(15, s.now)], age := some s.now }

theorem springStart_device : s.springStart.wobj objDevice = resetObject s := by
  unfold State.springStart
  exact (State.wobj_updObj _ _ _).trans rfl

theorem springStart_others {i : Nat} (h : i ≠ objDevice) : s.springStart.wobj i = wobjDefault i := by
  unfold State.springStart
  exact (State.wobj_updObj_ne _ _ _ _ (Ne.symm h)).trans rfl

theorem springStart_tst : s.springStart.tst = s.tst.afterReset s.now := rfl

/-- On a master DTIME starts at 0. -/
theorem springStart_dtime (h : s.tst.pins.casMaster = true) : s.springStart.dtime = 0 := by
  have run : s.springStart.tim.dtRun = true := h
  have zero : s.springStart.dtAt s.springStart.now = 0 := by
    unfold State.dtAt
    have still : s.springStart.tim.slewed s.springStart.now = 0 := by simp [Tim.slewed, State.springStart, State.resetBlocks, Tim.reset]
    rw [still]
    exact (add_zero _).trans (sub_self _)
  unfold State.dtime State.dtNs State.dtTicks
  rw [zero, if_pos run]
  rfl

theorem resetRise_starts (hr : s.tst.inReset = true) (hh : s.tst.railHold = false) : s.resetRise = s.springStart := if_pos ⟨hr, by rw [hh]; rfl⟩

theorem resetRise_void (h : s.tst.inReset = false ∨ s.tst.railHold = true) : s.resetRise = s := if_neg (by rintro ⟨hr, hh⟩; simp_all)

theorem railDown_live (hr : s.runs) : s.railDown = { s.resetFall with tst := { s.resetFall.tst with railHold := true } } := if_neg (by rw [show s.tst.inReset = false from hr]; exact Bool.false_ne_true)

theorem railUp_starts (hr : s.tst.inReset = true) (hh : s.tst.railHold = true) : s.railUp = s.springStart := if_pos ⟨hr, hh⟩

theorem railUp_void (h : s.runs ∨ s.tst.railHold = false) : s.railUp = s := by
  refine if_neg ?_
  rintro ⟨hr, hh⟩
  exact h.elim (fun live => absurd (live.symm.trans hr) (by decide)) (fun free => absurd (free.symm.trans hh) (by decide))

end

/-! ## A strap pin that changes after the latch (R402) -/

section
variable {s : State} {p : Straps}

/-- The machine with the pins at new levels and CHANGED set. -/
def strapsChanged (s : State) (p : Straps) : State := { s with tst := { s.tst with pins := p, changed := true } }

theorem exec_strapPinChange : exec (.strapPinChange p) s = .next (s.strapChange p) := rfl

theorem strapChange_raises (hr : s.runs) (h : strapLevels p ≠ strapLevels s.tst.pins) : s.strapChange p = (strapsChanged s p).raise 0 3 .device :=
  if_neg (not_or.mpr ⟨by rw [show s.tst.inReset = false from hr]; exact Bool.false_ne_true, h⟩)

theorem strapChange_level (h : strapLevels p = strapLevels s.tst.pins) : s.strapChange p = { s with tst := { s.tst with pins := p } } := if_pos (.inr h)

theorem strapRaise_alarmed : (strapsChanged s p).alarmed ((strapsChanged s p).raise 0 3 .device) := State.alarmed_raise (State.alarmed_refl _)

end

/-- Settles O1: the two resets by the state they leave, the pins by the fault they raise. -/
theorem resetAndStraps : Obligations.ResetAndStraps := by
  unfold Obligations.ResetAndStraps
  refine ⟨fun s => ?fall, fun s hr hh => ?rise, fun s h => congrArg Host.Outcome.next (resetRise_void h), fun s r hr => ?rail, fun s r hr => congrArg Host.Outcome.next (if_pos hr), fun s hr hh => ?railEnd,
    fun s h => congrArg Host.Outcome.next (railUp_void h), fun s p hr => ?straps, fun s => rfl⟩
  case fall => exact ⟨s.resetFall, rfl, rfl, rfl, rfl, rfl, rfl, rfl, rfl, rfl, rfl, rfl, rfl, rfl, rfl, rfl, rfl, rfl, rfl, rfl, rfl, rfl, rfl, rfl, rfl, rfl, rfl⟩
  case rise =>
    refine ⟨_, congrArg Host.Outcome.next (resetRise_starts hr hh), rfl, rfl, rfl, rfl, rfl, rfl, ?_, ?_, fun i => springStart_others, rfl, rfl, springStart_dtime⟩
    · rw [springStart_device]
      rfl
    · rw [springStart_device]
      rfl
  case rail => exact ⟨_, s.resetFall, congrArg Host.Outcome.next (railDown_live hr), rfl, rfl, rfl⟩
  case railEnd =>
    exact congrArg Host.Outcome.next ((railUp_starts hr hh).trans (resetRise_starts (s := { s with tst := { s.tst with railHold := false } }) hr rfl).symm)
  case straps =>
    by_cases h : strapLevels p = strapLevels s.tst.pins
    · exact ⟨_, exec_strapPinChange.trans (congrArg _ (strapChange_level h)), rfl, rfl, fun hn => absurd h hn, fun _ => rfl⟩
    · have same : ((strapsChanged s p).raise 0 3 .device).tst = (strapsChanged s p).tst := State.alarmed_tst strapRaise_alarmed
      refine ⟨_, exec_strapPinChange.trans (congrArg _ (strapChange_raises hr h)), ?_, ?_, fun _ => ⟨?_, State.raise_status _ 0 3 .device, alarmed_besideTst (x := (strapsChanged s p).tst) strapRaise_alarmed⟩,
        fun heq => absurd heq h⟩
      · rw [same]
        rfl
      · rw [same]
        rfl
      · rw [same]
        rfl

end Sys2Proof.Proofs
end

section
/-! SUPPORT and the settlement of O2: the stages of SPRING (R403, Table 14-2). -/

namespace Sys2Proof.Proofs

open Sys2Proof.Machine Sys2Proof.Laws

set_option Elab.async false

/-! ## The stage SPRING is in -/

section
variable {s : State} {n : Nat}

theorem inStage_iff : s.inStage n = true ↔ s.tst.inReset = false ∧ s.tst.stopped = false ∧ s.tst.stage = n := by
  simp [State.inStage, and_assoc]

theorem inStage_runs (h : s.inStage n = true) : s.runs := (inStage_iff.mp h).1

/-- The guard of a stage's own event is passed in that stage. -/
theorem stage_passed (h : s.inStage n = true) : ¬((!s.inStage n) = true) := by rw [h]; exact Bool.false_ne_true

end

/-! ## Stage 1: fuses (R403, R404) -/

section
variable {s : State} {f : BitVec 6}

theorem exec_fuseStageEnd {ok : Bool} (hr : s.runs) : exec (.fuseStageEnd ok f) s = .next (s.fuseEnd ok f) := exec_live (f := fun x => x.fuseEnd ok f) rfl hr

/-- Link training begins where PERST_N is high (R404). -/
def linkReleased (s : State) : State := { s with tst := { s.tst with linkTraining := s.tst.perstHigh } }

theorem fuseEnd_bad (h : s.inStage 1 = true) : s.fuseEnd false f = ((linkReleased s).raise 0 0 .device).springStop := if_neg (stage_passed h)

theorem fuseEnd_good (h : s.inStage 1 = true) : s.fuseEnd true f = ({ linkReleased s with tim := { s.tim with vidFloor := f.toNat } } : State).stageTo 2 := if_neg (stage_passed h)

end

/-- A fault that stops SPRING: it is raised, and of the test block only the stop is new. -/
theorem alarmed_springStop {s u : State} {k : Nat} (alarm : s.alarmed u) (status : (u.fsrc k).status = true) :
    u.springStop.tst = { s.tst with stopped := true } ∧ (u.springStop.fsrc k).status = true ∧ s.alarmed { u.springStop with tst := s.tst } :=
  ⟨congrArg (fun x : Tst => { x with stopped := true }) (State.alarmed_tst alarm), status, alarmed_besideTst (x := s.tst) (t := u) alarm⟩

/-- An alarm seen beside the test block stays one whatever stood there. -/
theorem alarmed_retest {s u : State} {x y : Tst} (h : ({ s with tst := x } : State).alarmed { u with tst := y }) : s.alarmed { u with tst := s.tst } := by
  unfold State.alarmed at h ⊢
  exact congrArg (fun v : State => { v with tst := s.tst }) h

theorem raise_springStop (s : State) (b n : Nat) : (s.raise b n .device).springStop.tst = { s.tst with stopped := true } ∧ ((s.raise b n .device).springStop.fsrc (16 * b + n)).status = true ∧
    s.alarmed { (s.raise b n .device).springStop with tst := s.tst } :=
  alarmed_springStop (State.alarmed_raise (State.alarmed_refl s)) (State.raise_status s b n .device)

/-! ## Stage 2: the recorder mounts (R188, R189, R340) -/

section
variable {s t : State} {ok : Bool}

theorem mountStage_eq (h : s.inStage 2 = true) : s.mountStage ok = (s.mount.authRestore ok).stageTo 3 := if_neg (stage_passed h)

theorem mount_alarmed : (storeTaken s).alarmed s.mount := by
  unfold State.mount
  exact State.alarmed_ite (State.alarmed_raise (State.alarmed_record (State.alarmed_refl (storeTaken s)))) (State.alarmed_record (State.alarmed_refl (storeTaken s)))

theorem authRestore_good (hok : ok = true) (h : ∀ e ∈ t.recd.store.auth, cwordOk e.2 = true) : t.authRestore ok = { t with prot := { t.prot with auth := t.recd.store.auth, restoreFail := false } } :=
  if_pos (by rw [hok, List.all_eq_true.mpr h]; rfl)

/-- The table restored empty, as the device marks it before the fault (R189). -/
def authLost (t : State) : State := { t with prot := { t.prot with auth := [], restoreFail := true } }

theorem authRestore_bad (h : ok = false ∨ ∃ e ∈ t.recd.store.auth, cwordOk e.2 = false) : t.authRestore ok = (authLost t).raise 13 1 .device := by
  refine if_neg fun all => ?_
  obtain ⟨hok, hall⟩ := Bool.and_eq_true_iff.mp all
  obtain rfl | ⟨e, he, hbad⟩ := h
  · exact absurd hok Bool.false_ne_true
  · exact absurd (hbad.symm.trans (List.all_eq_true.mp hall e he)) Bool.false_ne_true

theorem authRestore_eq : t.authRestore ok =
    if ok && t.recd.store.auth.all (fun e => cwordOk e.2) then { t with prot := { t.prot with auth := t.recd.store.auth, restoreFail := false } } else (authLost t).raise 13 1 .device := rfl

/-- Either way the recorder's store and its mount stay. -/
theorem authRestore_recd : (t.authRestore ok).recd.store = t.recd.store ∧ (t.authRestore ok).recd.mounted = t.recd.mounted := by
  have alarm : (authLost t).alarmed ((authLost t).raise 13 1 .device) := State.alarmed_raise (State.alarmed_refl _)
  have store : _ = (authLost t).recd.store := State.alarmed_store alarm
  have mounted : _ = (authLost t).recd.mounted := State.alarmed_mounted alarm
  rw [authRestore_eq]
  split
  · exact ⟨rfl, rfl⟩
  · exact ⟨store, mounted⟩

/-- A table that cannot be restored is empty, and its fault is raised (R189). -/
theorem authRestore_lost (h : ok = false ∨ ∃ e ∈ t.recd.store.auth, cwordOk e.2 = false) :
    (t.authRestore ok).prot.auth = [] ∧ (t.authRestore ok).prot.restoreFail = true ∧ ((t.authRestore ok).fsrc (16 * 13 + 1)).status = true := by
  have alarm : (authLost t).alarmed ((authLost t).raise 13 1 .device) := State.alarmed_raise (State.alarmed_refl _)
  rw [authRestore_bad h]
  exact ⟨State.alarmed_auth alarm, State.alarmed_restoreFail alarm, State.raise_status _ 13 1 .device⟩

theorem stageTo_prot (u : State) (n : Nat) : (u.stageTo n).prot = u.prot := rfl

theorem stageTo_fsrc (u : State) (n k : Nat) : (u.stageTo n).fsrc k = u.fsrc k := rfl

theorem mount_store : s.mount.recd.store = (storeTaken s).recd.store := State.alarmed_store mount_alarmed

theorem mount_words : s.mount.recd.store.auth = s.recd.store.auth := (congrArg Store.auth mount_store).trans rfl

theorem mount_tst : s.mount.tst = s.tst := (Kept.mount (p := Part.alarms) (Kept.refl _ s)).tst rfl

theorem mount_now : s.mount.now = s.now := (Kept.mount (p := Part.alarms) (Kept.refl _ s)).now

theorem authRestore_tst : (t.authRestore ok).tst = t.tst := (Kept.authRestore (p := Part.alarms) (Kept.refl _ t)).tst rfl

end

/-! ## Stage 3: the supervisor boots (R328, R367, R405) -/

section
variable {s : State}

theorem exec_supervisorBoot {ok : Bool} (hr : s.runs) : exec (.supervisorBoot ok) s = .next (s.bootStage ok) := exec_live (f := fun x => x.bootStage ok) rfl hr

/-- The four heartbeats counted from now. -/
def heartbeats (now : Nat) : Tab Nat := (List.range 4).foldl (fun t n => Tab.set t 0 n now) []

theorem heartbeats_get (now n : Nat) (h : n < 4) : (heartbeats now).get 0 n = now := by
  have listed : n ∈ List.range 4 := List.mem_range.mpr h
  unfold heartbeats
  simp only [show List.range 4 = [0, 1, 2, 3] from rfl, List.foldl_cons, List.foldl_nil, Tab.get_set, List.mem_cons, List.not_mem_nil, or_false] at listed ⊢
  obtain rfl | rfl | rfl | rfl := listed <;> rfl

/-- Heartbeats and the management port have begun. -/
def supervised (s : State) : State := { s with flt := { s.flt with hbRun := true, hb := heartbeats s.now }, tst := { s.tst with mpAnswers := true } }

theorem bootStage_good (h : s.inStage 3 = true) : s.bootStage true = ((supervised s).each (List.range 4) (fun p a => a.trainStart p)).stageTo 4 := if_neg (stage_passed h)

theorem bootStage_bad (h : s.inStage 3 = true) : s.bootStage false = (s.raise 3 2 .device).springStop := if_neg (stage_passed h)

/-- A port that is down with a role and no cause begins its training. -/
theorem trainStart_begins {p : Nat} (hr : s.runs) (hd : (s.port p).st = .down) (hc : (s.port p).cfgRole ≠ 0) (hn : (s.port p).downCause = 0) :
    s.trainStart p = s.updPort p (fun x => { x with st := .training, role := x.cfgRole, step := 1, final := false, stepAt := s.now, jl2 := false }) :=
  if_neg (by rintro (hx | hx | hx | hx) <;> simp_all [State.runs])

theorem trainStart_others {p j : Nat} (h : j ≠ p) : (s.trainStart p).port j = s.port j :=
  ite_both (fun u : State => u.port j = s.port j) rfl (State.port_updPort_ne _ _ _ _ (Ne.symm h))

theorem trainStart_kept {p : Nat} : Kept { jl := true } s (s.trainStart p) := Kept.trainStart (Kept.refl _ s)

/-- Each of the four ports that may train does. -/
theorem portsTrain (hr : s.runs) {p : Nat} (hp : p < 4) (hd : (s.port p).st = .down) (hc : (s.port p).cfgRole ≠ 0) (hn : (s.port p).downCause = 0) :
    ((s.each (List.range 4) (fun p a => a.trainStart p)).port p).st = .training ∧ ((s.each (List.range 4) (fun p a => a.trainStart p)).port p).role = (s.port p).cfgRole := by
  obtain ⟨d, live, before, after⟩ := (each_at State.port State.runs (fun p a => a.trainStart p) (fun i c j => trainStart_others) (fun i c hc => (congrArg Tst.inReset (trainStart_kept.tst rfl)).trans hc)
    (List.range 4) s hr List.nodup_range p).2 (List.mem_range.mpr hp)
  rw [← before] at hd hc hn ⊢
  rw [after, trainStart_begins live hd hc hn, State.port_updPort]
  exact ⟨rfl, rfl⟩

end

/-! ## Stage 4: the memories test themselves (R403, R412) -/

section
variable {s : State} {l : List Word}

theorem exec_memorySelfTest (hr : s.runs) : exec (.memorySelfTest l) s = .next (s.bistStage l) := exec_live (f := fun x => x.bistStage l) rfl hr

/-- The failing addresses of memories that the device has. -/
def heldFails (s : State) (l : List Word) : List Nat := (l.map (fun w => w.toNat)).filter (fun a => (s.symHolder a).isSome)

/-- Every word correctly coded, and the result noted. -/
def bistNoted (s : State) (l : List Word) : State :=
  { s with flt := { s.flt with flipped := [], poisoned := [] }
           tst := { s.tst with bistCnt := (failedMems (heldFails s l)).length, bistMs := (s.now - s.tst.stageAt) * 100 / tms, bistAddr := word ((heldFails s l).headD 0) }
           tim := { s.tim with align := 1 } }

/-- BIST_FAIL for the memory of one address. -/
def bistFault (a : State) (x : Nat) : State := match a.symHolder x with | some h => a.raiseIn 0 1 h.2.2.2 false | none => a

theorem bistStage_eq (h : s.inStage 4 = true) : s.bistStage l = ((failedMems (heldFails s l)).foldl bistFault (bistNoted s l)).stageTo 5 := if_neg (stage_passed h)

theorem bistFault_alarmed {a b : State} {x : Nat} (h : a.alarmed b) : a.alarmed (bistFault b x) := by
  unfold bistFault
  split
  · exact State.alarmed_raiseIn h
  · exact h

theorem bistFaults_alarmed {l : List Nat} {a : State} : a.alarmed (l.foldl bistFault a) := State.alarmed_foldl (State.alarmed_refl a) fun _ _ => bistFault_alarmed

theorem bistFault_calm (a : State) (x : Nat) : Calm noTol a (bistFault a x) := by
  unfold bistFault
  split
  · exact Calm.raiseIn (Calm.refl _ a)
  · exact Calm.refl _ a

/-- Whether a memory stands at an address does not depend on the state. -/
theorem symHolder_isSome (a b : State) (x : Nat) : (a.symHolder x).isSome = (b.symHolder x).isSome := by
  unfold State.symHolder
  dsimp only
  split <;> rfl

/-- A memory's holder names a scope. -/
theorem symHolder_scopes {a : State} {x : Nat} {h : Nat × Nat × Nat × List FScope} (hs : a.symHolder x = some h) : h.2.2.2 ≠ [] := by
  unfold State.symHolder at hs
  dsimp only at hs
  split at hs
  case h_10 => split at hs <;> cases hs; exact List.cons_ne_nil _ _
  case h_3 =>
    cases hs
    dsimp only
    split
    · exact List.cons_ne_nil _ _
    · rename_i hne
      exact fun he => hne (List.map_eq_nil_iff.mp he)
  case h_5 =>
    cases hs
    dsimp only
    split
    · exact List.cons_ne_nil _ _
    · split
      · exact List.cons_ne_nil _ _
      · rename_i hne
        exact fun he => hne (List.map_eq_nil_iff.mp he)
  all_goals cases hs; exact List.cons_ne_nil _ _

theorem bistFault_status {a : State} {x : Nat} (h : (a.symHolder x).isSome = true) : ((bistFault a x).fsrc 1).status = true := by
  obtain ⟨holder, hs⟩ := Option.isSome_iff_exists.mp h
  unfold bistFault
  rw [hs]
  exact State.occurIn_status _ 1 _ false (symHolder_scopes hs)

/-- One failing memory is enough for BIST_FAIL. -/
theorem bistFaults_status {x : Nat} (s : State) (hx : (s.symHolder x).isSome = true) (l : List Nat) (hl : x ∈ l) (a : State) : ((l.foldl bistFault a).fsrc 1).status = true :=
  each_once (fun c => (c.fsrc 1).status = true) (fun x c => bistFault c x) (fun i c hc => (bistFault_calm c i).stat rfl 1 hc) l x hl (fun c => bistFault_status ((symHolder_isSome c s x).trans hx)) a

/-- The addresses kept are among the failing ones, and the first of them is kept. -/
theorem failedMems_step (l : List Nat) : ∀ a : List Nat,
    (∀ x ∈ l.foldl (fun a x => if a.any (fun y => decide (y / 2 ^ 16 = x / 2 ^ 16)) then a else a ++ [x]) a, x ∈ a ∨ x ∈ l) ∧
    (a ≠ [] ∨ l ≠ [] → l.foldl (fun a x => if a.any (fun y => decide (y / 2 ^ 16 = x / 2 ^ 16)) then a else a ++ [x]) a ≠ []) := by
  induction l with
  | nil => exact fun a => ⟨fun x hx => .inl hx, fun h => h.resolve_right (fun hn => hn rfl)⟩
  | cons y r ih =>
    intro a
    rw [List.foldl_cons]
    split
    · rename_i hany
      obtain ⟨z, hz, -⟩ := List.any_eq_true.mp hany
      exact ⟨fun x hx => ((ih a).1 x hx).imp_right (List.mem_cons_of_mem y), fun _ => (ih a).2 (.inl (List.ne_nil_of_mem hz))⟩
    · refine ⟨fun x hx => ?_, fun _ => (ih _).2 (.inl (by simp))⟩
      obtain old | late := (ih _).1 x hx
      · obtain ha | rfl := (List.mem_append.mp old).imp_right List.mem_singleton.mp
        · exact .inl ha
        · exact .inr List.mem_cons_self
      · exact .inr (List.mem_cons_of_mem y late)

theorem failedMems_mem {l : List Nat} {x : Nat} (h : x ∈ failedMems l) : x ∈ l := ((failedMems_step l []).1 x h).resolve_left List.not_mem_nil

theorem failedMems_ne_nil {l : List Nat} (h : l ≠ []) : failedMems l ≠ [] := (failedMems_step l []).2 (.inr h)

theorem bistStage_fails (h : s.inStage 4 = true) (hf : ∃ w ∈ l, (s.symHolder w.toNat).isSome = true) : ((s.bistStage l).fsrc 1).status = true := by
  obtain ⟨w, hw, hs⟩ := hf
  have held : w.toNat ∈ heldFails s l := List.mem_filter.mpr ⟨List.mem_map_of_mem hw, hs⟩
  obtain ⟨x, hx⟩ := List.exists_mem_of_ne_nil _ (failedMems_ne_nil (List.ne_nil_of_mem held))
  rw [bistStage_eq h]
  exact bistFaults_status s (List.mem_filter.mp (failedMems_mem hx)).2 _ hx (bistNoted s l)

end

/-! ## Stage 5: clocks and the frame (R207, R403) -/

section
variable {s : State}

theorem exec_springFail (hr : s.runs) : exec .springFail s = .next s.springFail := exec_live (f := fun x => x.springFail) rfl hr
theorem exec_frameAbsent (hr : s.runs) : exec .frameAbsent s = .next s.frameAbsent := exec_live (f := fun x => x.frameAbsent) rfl hr
theorem exec_clockAlignment (hr : s.runs) : exec .clockAlignment s = .next s.alignStage := exec_live (f := fun x => x.alignStage) rfl hr

/-- The device with every clock locked and every tile aligned, as stage 6 begins. -/
def frameAligned (s : State) : State :=
  ({ s with rfe := { s.rfe with refOk := true, ckLocked := 0xF }, tim := { s.tim with tileOk := 0xF, align := 2 }, tst := { s.tst with frameInt := decide (s.tim.srcUsed = 1) } } : State).stageTo 6

theorem alignStage_master (h : s.inStage 5 = true) (hm : s.isMaster = true) (hs : s.tim.srcUsed = 1 ∨ s.tim.srcUsed = 2) : s.alignStage = frameAligned s := by
  have ready : s.alignReady = true := (if_pos hm).trans (decide_eq_true hs.symm)
  exact (if_pos (by rw [h, ready]; rfl)).trans (if_pos hm)

end

/-! ## Stage 6: the tile proofs, and the release point (R192, R194, R403) -/

section
variable {s : State} {a b : Word}

theorem exec_springProof (hr : s.runs) : exec (.springProof a b) s = .next (s.proofStage a b) := exec_live (f := fun x => x.proofStage a b) rfl hr
theorem exec_releasePoint (hr : s.runs) : exec .releasePoint s = .next s.releasePoint := exec_live (f := fun x => x.releasePoint) rfl hr

/-- Both paths of every chain of tile k passed. -/
def tilePasses (a b : Word) (k : Nat) : Bool := (List.range 8).all (fun c => a.getLsbD (8 * k + c) && b.getLsbD (8 * k + c))

/-- The tiles that failed, as a mask. -/
def tilesFailed (a b : Word) : BitVec 4 := (List.range 4).foldl (fun m k => if tilePasses a b k then m else m ||| BitVec.twoPow 4 k) 0

theorem failedMask_getLsbD (ok : Nat → Bool) (n : Nat) (hn : n ≤ 4) (k : Nat) (hk : k < 4) :
    ((List.range n).foldl (fun (m : BitVec 4) k => if ok k then m else m ||| BitVec.twoPow 4 k) 0).getLsbD k = (decide (k < n) && !ok k) := by
  induction n with
  | zero => simp
  | succ n ih =>
    rw [List.range_succ, List.foldl_append, List.foldl_cons, List.foldl_nil]
    obtain hlt | rfl | hgt := Nat.lt_trichotomy k n
    · split
      · rw [ih (by omega), decide_eq_true hlt, decide_eq_true (by omega)]
      · rw [BitVec.getLsbD_or, ih (by omega), BitVec.getLsbD_twoPow, decide_eq_true hlt, decide_eq_true (show k < n + 1 by omega), decide_eq_false (show ¬n = k by omega), Bool.and_false, Bool.or_false]
    · split
      · rename_i hok
        rw [ih (by omega), hok, Bool.not_true, Bool.and_false, Bool.and_false]
      · rename_i hok
        rw [BitVec.getLsbD_or, BitVec.getLsbD_twoPow, Bool.eq_false_iff.mpr hok]
        simp [hk]
    · split
      · rw [ih (by omega), decide_eq_false (by omega), decide_eq_false (by omega)]
      · rw [BitVec.getLsbD_or, ih (by omega), BitVec.getLsbD_twoPow, decide_eq_false (show ¬k < n by omega), decide_eq_false (show ¬k < n + 1 by omega), decide_eq_false (show ¬n = k by omega)]
        simp

theorem tilesFailed_getLsbD {k : Nat} (hk : k < 4) : (tilesFailed a b).getLsbD k = !tilePasses a b k := by
  rw [tilesFailed, failedMask_getLsbD (tilePasses a b) 4 (Nat.le_refl 4) k hk, decide_eq_true hk, Bool.true_and]

/-- The device's own proof noted beside those of the tiles. -/
def deviceProved (s : State) (a b : Word) : State := (s.tileProofs (List.range 4) a b).updObj objDevice (fun o => { o with proofOk := decide (tilesFailed a b = 0) })

theorem deviceProved_tst : (deviceProved s a b).tst = s.tst := (Kept.updObj (Kept.tileProofs (p := Part.alarms) (Kept.refl _ s))).tst rfl

/-- The test block once the tiles are proved. -/
def tilesNoted (t : State) (x : Tst) (m : BitVec 4) : State := { t with tst := { x with proofFail := m, proved := true } }

theorem tilesNoted_wobj (t : State) (x : Tst) (m : BitVec 4) (i : Nat) : (tilesNoted t x m).wobj i = t.wobj i := rfl

theorem proofStage_eq (h : s.inStage 6 = true) (hp : s.tst.proved = false) : s.proofStage a b = tilesNoted (deviceProved s a b) s.tst (tilesFailed a b) := by
  have staged : s.proofStage a b = tilesNoted (deviceProved s a b) (deviceProved s a b).tst (tilesFailed a b) := if_neg (by rw [h, hp]; decide)
  rw [staged, deviceProved_tst]

theorem deviceProved_cause {c : Nat} (hc : c < 32) (h : (a.getLsbD c && b.getLsbD c) = false) : ((deviceProved s a b).wobj (objChain c)).cause.getLsbD 13 = true := by
  have listed : c ∈ objTx objDevice := List.mem_range.mpr hc
  obtain ⟨k, hk, hck⟩ := (objTx_tiles (i := objDevice) (by decide) c).mp listed
  have tile : k ∈ List.range 4 := hk
  have noted : Calm noTol (s.tileProofs (List.range 4) a b) (deviceProved s a b) := Calm.updObj (Calm.refl noTol _) (fun _ _ e => e)
  exact noted.cause rfl _ _ (tileProofs_failed _ a b c k tile hck ((Bool.and_eq_false_iff).mp h) s).1

/-- The release point reached. -/
def springReady (s : State) : State := { s with tst := { s.tst with stage := 7, readyMs := min 0xFFFF ((s.now - s.tst.riseAt) / tms) } }

theorem releasePoint_eq (h : s.inStage 6 = true) (hp : s.tst.proved = true) (hs : s.tst.scanned = false) : s.releasePoint = (springReady s).clearCause objDevice 15 :=
  (if_pos (by rw [h, hp]; rfl)).trans (if_neg (by rw [hs]; exact Bool.false_ne_true))

end

/-- Settles O2: each stage by the equation of its event. -/
theorem springStages : Obligations.SpringStages := by
  unfold Obligations.SpringStages
  refine ⟨fun s f h => ?fuse, fun s f h => ?noFuse, fun s ok h => ?mount, fun s h => ?boot, fun s h => ?noBoot, fun s h => ?clean, fun s l h => ?bist, fun s h ht hl => ?fail, fun s h hm hu ht => ?absent,
    fun s h hm hu => ?align, fun s a b h hp => ?proof, fun s h hp hs => ?release⟩
  case fuse => rw [exec_fuseStageEnd (inStage_runs h), fuseEnd_good h]; rfl
  case noFuse =>
    have ⟨stop, status, alarm⟩ := raise_springStop (linkReleased s) 0 0
    exact ⟨_, (exec_fuseStageEnd (inStage_runs h)).trans (congrArg _ (fuseEnd_bad h)), stop, status, alarmed_retest (x := (linkReleased s).tst) (u := ((linkReleased s).raise 0 0 .device).springStop) alarm⟩
  case mount =>
    have recd := authRestore_recd (t := s.mount) (ok := ok)
    have mounted : s.mount.recd.mounted = (storeTaken s).recd.mounted := State.alarmed_mounted mount_alarmed
    refine ⟨_, (exec_recorderMount (inStage_runs h)).trans (congrArg _ (mountStage_eq h)), ?_, recd.2.trans mounted, congrArg Store.pcc (recd.1.trans mount_store), ?_, fun hok hall => ?_, fun hbad => ?_⟩
    · have now : (s.mount.authRestore ok).now = s.now := (Kept.authRestore (p := Part.alarms) (Kept.refl _ s.mount)).now.trans mount_now
      unfold State.stageTo
      rw [authRestore_tst, mount_tst, now]
    · have grows := mount_nextSeq (s := s)
      have later := mountStage_nextSeq (ok := ok) h
      rw [mountStage_eq h] at later
      omega
    · rw [authRestore_good hok (by rw [mount_words]; exact hall)]
      exact ⟨mount_words, rfl⟩
    · rw [stageTo_prot, stageTo_fsrc]
      exact authRestore_lost (hbad.imp_right (fun bad => by rw [mount_words]; exact bad))
  case boot =>
    have kept : Kept { jl := true } (supervised s) ((supervised s).each (List.range 4) (fun p a => a.trainStart p)) := Kept.each (Kept.refl _ _) fun _ _ hb => Kept.trainStart hb
    refine ⟨_, (exec_supervisorBoot (inStage_runs h)).trans (congrArg _ (bootStage_good h)), ?_, ?_, fun n hn => ?_, fun p hp hd hc hn => ?_⟩
    · unfold State.stageTo
      rw [kept.tst rfl, kept.now]
      rfl
    · exact congrArg Flt.hbRun (kept.flt rfl)
    · exact (congrArg (fun x : Flt => x.hb.get 0 n) (kept.flt rfl)).trans (heartbeats_get s.now n hn)
    · exact portsTrain (s := supervised s) (inStage_runs h) hp hd hc hn
  case noBoot => exact ⟨_, (exec_supervisorBoot (inStage_runs h)).trans (congrArg _ (bootStage_bad h)), raise_springStop s 3 2⟩
  case clean => rw [exec_memorySelfTest (inStage_runs h), bistStage_eq h]; rfl
  case bist =>
    have alarm : (bistNoted s l).alarmed ((failedMems (heldFails s l)).foldl bistFault (bistNoted s l)) := bistFaults_alarmed
    refine ⟨_, exec_memorySelfTest (inStage_runs h), ?_, ?_, ?_, ?_, ?_, bistStage_fails h⟩
    · rw [bistStage_eq h]
      rfl
    · rw [bistStage_eq h]
      exact congrArg Tst.bistCnt (State.alarmed_tst alarm)
    · rw [bistStage_eq h]
      exact (congrArg (fun x : State => x.flt.flipped) alarm :)
    · rw [bistStage_eq h]
      exact (congrArg (fun x : State => x.flt.poisoned) alarm :)
    · rw [bistStage_eq h]
      exact State.alarmed_tim alarm
  case fail =>
    rw [exec_springFail (inStage_runs h)]
    exact congrArg _ (if_pos (by rw [h, decide_eq_true ⟨ht, hl⟩]; rfl))
  case absent =>
    rw [exec_frameAbsent (inStage_runs h)]
    exact congrArg _ (if_pos (by rw [h, hm]; exact decide_eq_true ⟨hu, ht⟩))
  case align => exact ⟨_, (exec_clockAlignment (inStage_runs h)).trans (congrArg _ (alignStage_master h hm hu)), rfl, rfl, rfl, rfl⟩
  case proof =>
    refine ⟨_, (exec_springProof (inStage_runs h)).trans (congrArg _ (proofStage_eq h hp)), rfl, (inStage_iff.mp h).2.2, fun k hk => tilesFailed_getLsbD hk, fun c hc hf => ?_⟩
    rw [tilesNoted_wobj]
    exact deviceProved_cause hc hf
  case release =>
    refine ⟨_, (exec_releasePoint (inStage_runs h)).trans (congrArg _ (releasePoint_eq h hp hs)), ?_, fun hc => clearCause_cleared (springReady s) objDevice 15 (by decide) hc, clearCause_cause _ _ _ _, ?_⟩
    · rw [clearCause_frame]
      rfl
    · rw [clearCause_frame]
      rfl

end Sys2Proof.Proofs
end

section
/-! SUPPORT: messages on a Jarond link, what sending changes, and a link that goes down (R366, R373, R382). -/

namespace Sys2Proof.Proofs

open Sys2Proof.Machine Sys2Proof.Laws

set_option Elab.async false

/-! ## What sending changes of a port (R382) -/

/-- From x to y messages have been sent on a port or wait there; a port that carries no messages keeps its unacknowledged ones. -/
structure PortSent (x y : Port) : Prop where
  frame : y = { x with txSeq := y.txSeq, unacked := y.unacked, waitq := y.waitq }
  shut : x.open_ = false → y.unacked = x.unacked

namespace PortSent

variable {x y z : Port}

theorem refl (x : Port) : PortSent x x := ⟨rfl, fun _ => rfl⟩

theorem waits (q : List JMsg) : PortSent x { x with waitq := q } := ⟨rfl, fun _ => rfl⟩

theorem st (h : PortSent x y) : y.st = x.st := (congrArg Port.st h.frame).trans rfl

theorem role (h : PortSent x y) : y.role = x.role := (congrArg Port.role h.frame).trans rfl

theorem carries (h : PortSent x y) : y.open_ = x.open_ := (congrArg Port.open_ h.frame).trans rfl

theorem trans (h : PortSent x y) (k : PortSent y z) : PortSent x z where
  frame := by
    have frame := k.frame
    rw [h.frame] at frame
    exact frame
  shut hx := (k.shut (h.carries.trans hx)).trans (h.shut hx)

theorem drain (now : Nat) (q : List JMsg) : ∀ x : Port, PortSent x (x.drain now q) := by
  induction q with
  | nil => exact fun x => waits []
  | cons m r ih =>
    intro x
    unfold Port.drain
    split
    · rename_i go
      have pushed : PortSent x (x.push now m) := ⟨rfl, fun shut => absurd (go.1.symm.trans shut) (by decide)⟩
      exact pushed.trans (ih _)
    · exact waits _

end PortSent

/-! ## What sending changes of the device -/

/-- From s to t messages have been sent or wait on the ports and streams may have ended; no link, and nothing else of the Jarond block, has changed. -/
structure LinksSame (s t : State) : Prop where
  ports : ∀ q, PortSent (s.port q) (t.port q)
  jl : t.jl = { s.jl with ports := t.jl.ports, strs := t.jl.strs }
  tst : t.tst = s.tst

namespace LinksSame

variable {s t u : State}

theorem refl (s : State) : LinksSame s s := ⟨fun _ => .refl _, rfl, rfl⟩

theorem trans (h : LinksSame s t) (k : LinksSame t u) : LinksSame s u where
  ports q := (h.ports q).trans (k.ports q)
  jl := by
    have frame := k.jl
    rw [h.jl] at frame
    exact frame
  tst := k.tst.trans h.tst

theorem time (h : LinksSame s t) : t.jl.time = s.jl.time := (congrArg Jl.time h.jl).trans rfl

/-- Nothing but the streams has changed. -/
theorem of_same (hp : t.jl.ports = s.jl.ports) (hj : t.jl = { s.jl with ports := t.jl.ports, strs := t.jl.strs }) (hs : t.tst = s.tst) : LinksSame s t := by
  refine ⟨fun q => ?_, hj, hs⟩
  have same : t.port q = s.port q := by
    unfold State.port
    rw [hp, hs]
  rw [same]
  exact .refl _

theorem of_jl (hj : t.jl = s.jl) (hs : t.tst = s.tst) : LinksSame s t := of_same (congrArg Jl.ports hj) (by rw [hj]) hs

theorem updPort {p : Nat} {f : Port → Port} (hf : PortSent (s.port p) (f (s.port p))) : LinksSame s (s.updPort p f) := by
  refine ⟨fun q => ?_, rfl, rfl⟩
  rw [State.port_updPort_at]
  split
  · rename_i hq
    exact hq ▸ hf
  · exact .refl _

theorem portSend (p : Nat) (m : JMsg) : LinksSame s (s.portSend p m) := by
  unfold State.portSend
  split
  · exact updPort (.drain _ _ _)
  · exact refl s

theorem updStrm (k : Nat) (f : Strm → Strm) : LinksSame s (s.updStrm k f) := of_same rfl rfl rfl

theorem completeId (id : Nat) (st : Status) (r : Word) (x : Half) : LinksSame s (s.completeId id st r x) := of_jl ((kept_completeId s id st r x).jl rfl) ((kept_completeId s id st r x).tst rfl)

theorem alarm (h : s.alarmed t) : LinksSame s t := of_jl (State.alarmed_jl h) (State.alarmed_tst h)

theorem raise (b n : Nat) (f : FScope) : LinksSame s (s.raise b n f) := alarm (State.alarmed_raise (State.alarmed_refl s))

theorem each (l : List Nat) (f : Nat → State → State) (hf : ∀ i c, LinksSame c (f i c)) : LinksSame s (s.each l f) :=
  each_keep (LinksSame s) f (fun i c hc => hc.trans (hf i c)) l s (refl s)

end LinksSame

/-! ## A pending open that ends (Table 13-8, R394) -/

/-- A stream as its end leaves it: CLOSED, with its counts. -/
def Strm.ended (x : Strm) : Strm := { Strm.reset with sat := x.sat, err := x.err }

/-- A descriptor ends if one waits. -/
def endsId (s : State) (id : Option Nat) (st : Status) : State := match id with | some id => s.completeId id st 0 0 | none => s

section
variable {s : State} {p n : Nat} {id : Option Nat} {st : Status} {tell : Bool}

theorem endsId_kept : Kept complPart s (endsId s id st) := by
  unfold endsId
  split
  · exact kept_completeId _ _ _ _ _
  · exact Kept.refl _ s

theorem endsId_links : LinksSame s (endsId s id st) := .of_jl (endsId_kept.jl rfl) (endsId_kept.tst rfl)

theorem endsId_strm (k : Nat) : (endsId s id st).strm k = s.strm k := congrArg (fun x : Jl => x.strs.get Strm.reset k) (endsId_kept.jl rfl)

theorem endsId_gone : ∀ q ∈ (endsId s id st).hif.outstanding, some q.id ≠ id := by
  intro q hq
  unfold endsId at hq
  split at hq
  · rw [completeId_outstanding, List.mem_filter, decide_eq_true_eq] at hq
    exact fun he => hq.2 (Option.some.inj he)
  · exact Option.some_ne_none _

theorem portSend_strm {m : JMsg} (k : Nat) : (s.portSend p m).strm k = s.strm k := ite_both (fun u : State => u.strm k = s.strm k) rfl rfl

theorem portSend_hif {m : JMsg} : (s.portSend p m).hif = s.hif := ite_both (fun u : State => u.hif = s.hif) rfl rfl

/-- The partner is told by STREAM_CLOSE: at once, or when the link carries messages again. -/
def closeTold (s : State) (p n : Nat) : State :=
  if (s.port p).open_ then s.portSend p (s.closeMsg p false n) else s.updPort p (fun y => { y with waitq := y.waitq ++ [s.closeMsg p false n] })

theorem closeTold_links : LinksSame s (closeTold s p n) := by
  unfold closeTold
  split
  · exact .portSend _ _
  · exact .updPort (.waits _)

theorem closeTold_strm (k : Nat) : (closeTold s p n).strm k = s.strm k := by
  unfold closeTold
  split
  · exact portSend_strm k
  · rfl

theorem closeTold_hif : (closeTold s p n).hif = s.hif := by
  unfold closeTold
  split
  · exact portSend_hif
  · rfl

/-- The open's stream is over and its descriptor ended. -/
def openOver (s : State) (p n : Nat) (st : Status) : State := endsId (s.updStrm (strIdx p false n) (fun x => Strm.ended x)) (s.strm (strIdx p false n)).id st

theorem openFails_eq : s.openFails p n st tell = if !tell then openOver s p n st else closeTold (openOver s p n st) p n := by
  have done : s.updStrm (strIdx p false n) (fun _ => Strm.ended (s.strm (strIdx p false n))) = s.updStrm (strIdx p false n) (fun x => Strm.ended x) := by
    unfold State.updStrm State.strm Tab.upd
    rfl
  unfold openOver
  rw [← done]
  rfl

theorem openOver_links : LinksSame s (openOver s p n st) := (LinksSame.updStrm _ _).trans endsId_links

theorem openFails_links : LinksSame s (s.openFails p n st tell) := by
  rw [openFails_eq]
  split
  · exact openOver_links
  · exact openOver_links.trans closeTold_links

theorem openFails_strm (k : Nat) : (s.openFails p n st tell).strm k = if strIdx p false n = k then Strm.ended (s.strm k) else s.strm k := by
  have done : (openOver s p n st).strm k = if strIdx p false n = k then Strm.ended (s.strm k) else s.strm k := by
    unfold openOver
    rw [endsId_strm, State.strm_updStrm_at]
    split
    · rename_i hk
      rw [hk]
    · rfl
  rw [openFails_eq]
  split
  · exact done
  · rw [closeTold_strm, done]

theorem openFails_gone : ∀ q ∈ (s.openFails p n st tell).hif.outstanding, some q.id ≠ (s.strm (strIdx p false n)).id := by
  rw [openFails_eq]
  split
  · exact endsId_gone
  · rw [closeTold_hif]
    exact endsId_gone

theorem opensEnd_links (l : List Nat) : LinksSame s (s.opensEnd l) := by
  refine LinksSame.each l _ fun p a => LinksSame.each _ _ fun n b => ?_
  split
  · exact openFails_links
  · exact .refl b

theorem strDown_links : LinksSame s (s.strDown p) :=
  (opensEnd_links [p]).trans (LinksSame.each _ _ fun _ _ => (LinksSame.updStrm _ _).trans (LinksSame.updStrm _ _))

end

/-! ## HOLDOVER (R373, R392) -/

section
variable {s : State}

/-- A member enters HOLDOVER. -/
def heldOver (s : State) : State := { s with jl := { s.jl with time := .holdover, caphold := true, holdAt := some s.now, joined := false, diffs := [] } }

theorem toHoldover_void (h : s.isMaster = true ∨ s.jl.time ≠ .locked) : s.toHoldover = s := if_pos h

theorem toHoldover_locked (hm : s.isMaster = false) (ht : s.jl.time = .locked) : s.toHoldover = ((heldOver s).raise 15 4 .device).opensEnd (List.range 4) :=
  if_neg (not_or.mpr ⟨by rw [hm]; exact Bool.false_ne_true, not_not_intro ht⟩)

theorem heldOver_port (q : Nat) : (heldOver s).port q = s.port q := rfl

theorem heldOver_links : LinksSame (heldOver s) (((heldOver s).raise 15 4 .device).opensEnd (List.range 4)) := (LinksSame.raise 15 4 .device).trans (opensEnd_links _)

/-- The links stay; TIME does not. -/
theorem toHoldover_ports (q : Nat) : PortSent (s.port q) (s.toHoldover.port q) := by
  by_cases h : s.isMaster = true ∨ s.jl.time ≠ .locked
  · rw [toHoldover_void h]
    exact .refl _
  · obtain ⟨hm, ht⟩ := not_or.mp h
    rw [toHoldover_locked (Bool.eq_false_iff.mpr hm) (not_not.mp ht), ← heldOver_port]
    exact heldOver_links.ports q

theorem toHoldover_time : s.toHoldover.jl.time = if s.isMaster = false ∧ s.jl.time = .locked then .holdover else s.jl.time := by
  by_cases h : s.isMaster = false ∧ s.jl.time = .locked
  · rw [if_pos h, toHoldover_locked h.1 h.2]
    exact ((LinksSame.raise 15 4 .device).trans (opensEnd_links _)).time
  · rw [if_neg h, toHoldover_void ((not_and_or.mp h).imp_left (fun hm => (Bool.not_eq_false _).mp hm))]

end

/-! ## A link that goes down (R366) -/

section
variable {s : State} {p cause : Nat}

/-- The port as its link goes down. -/
def Port.downed (now cause : Nat) (x : Port) : Port :=
  { x with st := .down, step := 0, final := false, downCause := cause, downAt := now, waitq := [], unacked := [], nakOwed := false, timeAt := none, beyond := 0 }

/-- The link down and its fault raised, before what that means for TIME. -/
def linkLost (s : State) (p cause : Nat) : State := ((s.updPort p (Port.downed s.now cause)).strDown p).raise 15 3 .device

theorem linkDown_eq (h : (s.port p).st ≠ .down) : s.linkDown p cause = if (s.port p).isUp then (linkLost s p cause).toHoldover else linkLost s p cause := if_neg h

theorem linkLost_links : LinksSame (s.updPort p (Port.downed s.now cause)) (linkLost s p cause) := strDown_links.trans (.raise 15 3 .device)

theorem linkLost_isMaster : (linkLost s p cause).isMaster = s.isMaster := congrArg (fun x : Tst => x.straps.casMaster) linkLost_links.tst

theorem linkDown_ports (h : (s.port p).st ≠ .down) (q : Nat) : PortSent ((s.updPort p (Port.downed s.now cause)).port q) ((s.linkDown p cause).port q) := by
  rw [linkDown_eq h]
  split
  · exact (linkLost_links.ports q).trans (toHoldover_ports q)
  · exact linkLost_links.ports q

theorem linkDown_status (h : (s.port p).st ≠ .down) : ((s.linkDown p cause).fsrc (16 * 15 + 3)).status = true := by
  have raised : ((linkLost s p cause).fsrc (16 * 15 + 3)).status = true := State.raise_status _ 15 3 .device
  rw [linkDown_eq h]
  split
  · exact (Calm.toHoldover (p := noTol) (Calm.refl _ _)).stat rfl _ raised
  · exact raised

theorem linkDown_time (h : (s.port p).st ≠ .down) : (s.linkDown p cause).jl.time = if (s.port p).role = 1 ∧ s.isMaster = false ∧ s.jl.time = .locked then .holdover else s.jl.time := by
  have same : (linkLost s p cause).jl.time = s.jl.time := linkLost_links.time
  rw [linkDown_eq h]
  split
  · rename_i up
    rw [toHoldover_time, same, linkLost_isMaster]
    exact if_congr (and_iff_right (of_decide_eq_true up)).symm rfl rfl
  · rename_i up
    rw [if_neg (fun all => up (decide_eq_true all.1)), same]

/-- A link that was not down goes down. -/
theorem linkDown_wentDown (h : (s.port p).st ≠ .down) : s.wentDown p cause (s.linkDown p cause) := by
  have own := linkDown_ports (cause := cause) h p
  rw [State.port_updPort] at own
  have frame := own.frame
  refine ⟨congrArg Port.st frame, congrArg Port.downCause frame, congrArg Port.downAt frame, own.shut rfl, linkDown_status h, fun q hq => ?_, linkDown_time h⟩
  have other := linkDown_ports (cause := cause) h q
  rw [State.port_updPort_ne _ _ _ _ (Ne.symm hq)] at other
  exact other.st

/-- The negotiated version stays written (R367). -/
theorem linkDown_pver (h : (s.port p).st ≠ .down) : ((s.linkDown p cause).port p).pver = (s.port p).pver := by
  have own := linkDown_ports (cause := cause) h p
  rw [State.port_updPort] at own
  exact (congrArg Port.pver own.frame).trans rfl

end

end Sys2Proof.Proofs
end

section
/-! SUPPORT: messages that a link takes, training and headers of a Jarond link (R365 to R367, R369, R382, Table 13-5). -/

namespace Sys2Proof.Proofs

open Sys2Proof.Machine Sys2Proof.Laws

set_option Elab.async false

/-! ## The rows of the messages (Table 13-10) -/

section
variable {s : State} {h : MsgHdr}

theorem exec_heartbeat {e : Word} {n : Byte} (hr : s.runs) : exec (.heartbeat h e n) s = .next (s.heartbeat h e n) := exec_live (f := fun x => x.heartbeat h e n) rfl hr
theorem exec_time {d : Word64} {f : Word} {n : Byte} (hr : s.runs) : exec (.time h d f n) s = .next (s.timeTake h d f n) := exec_live (f := fun x => x.timeTake h d f n) rfl hr
theorem exec_delayReq {t1 t2 t3 : Word64} (hr : s.runs) : exec (.delayReq h t1 t2 t3) s = .next (s.delayReq h t1 t2 t3) := exec_live (f := fun x => x.delayReq h t1 t2 t3) rfl hr
theorem exec_delayResp {t1 t2 t3 t4 : Word64} (hr : s.runs) : exec (.delayResp h t1 t2 t3 t4) s = .next (s.delayResp h t1 t2 t3 t4) := exec_live (f := fun x => x.delayResp h t1 t2 t3 t4) rfl hr
theorem exec_join {v u : Byte} {l : List Half} (hr : s.runs) : exec (.join h v u l) s = .next (s.joinTake h v u l) := exec_live (f := fun x => x.joinTake h v u l) rfl hr
theorem exec_joinResponse {r : Byte} (hr : s.runs) : exec (.joinResponse h r) s = .next (s.joinResponse h r) := exec_live (f := fun x => x.joinResponse h r) rfl hr
theorem exec_report {q : Half} {full : Bool} {l : List Word64} (hr : s.runs) : exec (.report h q full l) s = .next (s.report h q full l) := exec_live (f := fun x => x.report h q full l) rfl hr
theorem exec_reportResponse (hr : s.runs) : exec (.reportResponse h) s = .next (s.reportResponse h) := exec_live (f := fun x => x.reportResponse h) rfl hr
theorem exec_cap {q : Half} {last : Bool} {l : List CapEntry} (hr : s.runs) : exec (.cap h q last l) s = .next (s.capTake h q last l) := exec_live (f := fun x => x.capTake h q last l) rfl hr
theorem exec_capResponse {q : Half} (hr : s.runs) : exec (.capResponse h q) s = .next (s.capResponse h q) := exec_live (f := fun x => x.capResponse h q) rfl hr
theorem exec_streamReq {n r c f : Byte} {st : Word64} (hr : s.runs) : exec (.streamReq h n r c f st) s = .next (s.streamReq h n r c f st) := exec_live (f := fun x => x.streamReq h n r c f st) rfl hr
theorem exec_streamReqResponse {r : Byte} (hr : s.runs) : exec (.streamReqResponse h r) s = .next (s.streamReqResponse h r) := exec_live (f := fun x => x.streamReqResponse h r) rfl hr
theorem exec_streamClose {b : Byte} (hr : s.runs) : exec (.streamClose h b) s = .next (s.streamClose h b) := exec_live (f := fun x => x.streamClose h b) rfl hr

end

/-! ## Messages at the link (R382) -/

section
variable {s : State} {h : MsgHdr} {f : State → State} {i : Instr}

theorem linkTake_closed (ho : (s.port h.port.val).open_ = false) : s.linkTake h f = s := if_pos (by rw [ho]; rfl)

theorem linkTake_refused (ho : (s.port h.port.val).open_ = true) (hr : h.crcOk = false ∨ h.lseq.toNat ≠ ((s.port h.port.val).rxSeq + 1) % 256) :
    s.linkTake h f = s.updPort h.port.val (fun x => { x with nakOwed := true }) :=
  (if_neg (by rw [ho]; exact Bool.false_ne_true)).trans (if_pos (hr.imp_left (fun hc => by rw [hc]; rfl)))

theorem linkTake_right (hr : s.linkRight h) : s.linkTake h f = f (s.linkTook h) := by
  obtain ⟨ho, hc, hl⟩ := hr
  exact (if_neg (by rw [ho]; exact Bool.false_ne_true)).trans (if_neg (not_or.mpr ⟨by rw [hc]; exact Bool.false_ne_true, not_not_intro hl⟩))

theorem takeLocal_any (hr : s.linkRight h) : s.takeLocal h false f = f (s.linkTook h) := (linkTake_right hr).trans (if_neg (fun hn => Bool.false_ne_true hn.1))

theorem linkTook_isUp : ((s.linkTook h).port h.port.val).isUp = (s.port h.port.val).isUp := (congrArg Port.isUp (State.port_updPort s _ _)).trans rfl

theorem takeLocal_up (hr : s.linkRight h) (hu : (s.port h.port.val).role = 1) : s.takeLocal h true f = f (s.linkTook h) :=
  (linkTake_right hr).trans (if_neg (fun hn => by rw [linkTook_isUp, show (s.port h.port.val).isUp = true from decide_eq_true hu] at hn; exact Bool.false_ne_true hn.2))

theorem takeLocal_wrong (hr : s.linkRight h) (hu : (s.port h.port.val).role ≠ 1) : s.takeLocal h true f = (s.linkTook h).discardMsg h.port.val :=
  (linkTake_right hr).trans (if_pos ⟨rfl, by rw [linkTook_isUp, show (s.port h.port.val).isUp = false from decide_eq_false hu]; rfl⟩)

theorem linkTook_only : s.onlyPort (s.linkTook h) h.port.val := State.updPort_only _ _ _

/-- A routed message passes the link. -/
theorem takeRouted_link (s : State) (h : MsgHdr) (m : Nat) (b : List Byte) (ok : State → Bool) (learn g : State → State) : ∃ f, s.takeRouted h m b ok learn g = s.linkTake h f := ⟨_, rfl⟩

/-- So does a message of the link alone. -/
theorem takeLocal_link (s : State) (h : MsgHdr) (up : Bool) (g : State → State) : ∃ f, s.takeLocal h up g = s.linkTake h f := ⟨_, rfl⟩

/-- Every message of Table 13-10 passes the link. -/
theorem exec_message (hr : s.runs) (hm : messageOf i = some h) : ∃ f, exec i s = .next (s.linkTake h f) := by
  have passes {t : State} (row : exec i s = .next t) (link : ∃ f, t = s.linkTake h f) : ∃ f, exec i s = .next (s.linkTake h f) := link.imp fun _ e => row.trans (congrArg _ e)
  unfold messageOf at hm
  split at hm
  case h_14 => exact absurd hm (by simp)
  all_goals obtain rfl := Option.some.inj hm
  case h_1 => exact passes (exec_heartbeat hr) (by unfold State.heartbeat; exact takeRouted_link ..)
  case h_2 => exact passes (exec_time hr) (by unfold State.timeTake; exact takeLocal_link ..)
  case h_3 => exact passes (exec_delayReq hr) (by unfold State.delayReq; exact takeLocal_link ..)
  case h_4 => exact passes (exec_delayResp hr) (by unfold State.delayResp; exact takeLocal_link ..)
  case h_5 => exact passes (exec_join hr) (by unfold State.joinTake; exact takeRouted_link ..)
  case h_6 => exact passes (exec_joinResponse hr) (by unfold State.joinResponse; exact takeRouted_link ..)
  case h_7 => exact passes (exec_report hr) (by unfold State.report; exact takeRouted_link ..)
  case h_8 => exact passes (exec_reportResponse hr) (by unfold State.reportResponse; exact takeRouted_link ..)
  case h_9 => exact passes (exec_cap hr) (by unfold State.capTake; exact takeRouted_link ..)
  case h_10 => exact passes (exec_capResponse hr) (by unfold State.capResponse; exact takeRouted_link ..)
  case h_11 => exact passes (exec_streamReq hr) (by unfold State.streamReq; exact takeLocal_link ..)
  case h_12 => exact passes (exec_streamReqResponse hr) (by unfold State.streamReqResponse; exact takeLocal_link ..)
  case h_13 => exact passes (exec_streamClose hr) (by unfold State.streamClose; exact takeLocal_link ..)

end

/-! ## One port changed, and then that port again -/

section
variable {s w t : State} {p : Nat} {f : Port → Port}

theorem onlyPort_updPort (h : s.onlyPort w p) : s.onlyPort (w.updPort p f) p := by
  obtain ⟨hw, hn⟩ := h
  obtain ⟨ports, rfl⟩ : ∃ ports, w = { s with jl := { s.jl with ports := ports } } := ⟨_, hw⟩
  exact ⟨rfl, fun j hj => (State.port_updPort_ne _ _ _ f (Ne.symm hj)).trans (hn j hj)⟩

/-- A link goes down as it would have before its own port was written, its role apart. -/
theorem wentDown_of_only {c : Nat} (h : s.onlyPort w p) (hr : (w.port p).role = (s.port p).role) (hd : w.wentDown p c t) : s.wentDown p c t := by
  obtain ⟨hst, hcause, hat, hun, hfsrc, hothers, htime⟩ := hd
  obtain ⟨hw, hn⟩ := h
  have now : w.now = s.now := (congrArg State.now hw).trans rfl
  have master : w.isMaster = s.isMaster := (congrArg State.isMaster hw).trans rfl
  have time : w.jl.time = s.jl.time := (congrArg (fun x : State => x.jl.time) hw).trans rfl
  rw [hr, master, time] at htime
  exact ⟨hst, hcause, hat.trans now, hun, hfsrc, fun q hq => (hothers q hq).trans (congrArg Port.st (hn q hq)), htime⟩

end

/-! ## Training (R366, R367, R369, Table 13-5) -/

section
variable {s w : State} {p a b : Nat}

theorem exec_trainingRestart {p : Fin 4} (hr : s.runs) : exec (.trainingRestart p) s = .next (s.trainStart p.val) := exec_live (f := fun x => x.trainStart p.val) rfl hr
theorem exec_linkTrainingStep {p : Fin 4} {r : TrainResult} (hr : s.runs) : exec (.linkTrainingStep p r) s = .next (s.trainStep p.val r) := exec_live (f := fun x => x.trainStep p.val r) rfl hr

theorem trainStart_void (h : (s.port p).st ≠ .down ∨ (s.port p).cfgRole = 0 ∨ ((s.port p).downCause ≠ 0 ∧ s.now < (s.port p).downAt + 100 * tms)) : s.trainStart p = s := if_pos (.inr h)

theorem trainStart_again (hr : s.runs) (hd : (s.port p).st = .down) (hc : (s.port p).cfgRole ≠ 0) (hn : (s.port p).downCause = 0 ∨ (s.port p).downAt + 100 * tms ≤ s.now) :
    s.trainStart p = s.updPort p (fun x => { x with st := .training, role := x.cfgRole, step := 1, final := false, stepAt := s.now, jl2 := false }) := by
  have live : ¬s.tst.inReset = true := by
    rw [show s.tst.inReset = false from hr]
    exact Bool.false_ne_true
  refine if_neg (not_or.mpr ⟨live, not_or.mpr ⟨not_not_intro hd, not_or.mpr ⟨hc, fun early => ?_⟩⟩⟩)
  exact hn.elim early.1 (Nat.not_le.mpr early.2)

theorem trainStep_idle {r : TrainResult} (h : (s.port p).st ≠ .training) : s.trainStep p r = s := if_pos h

theorem trainStep_skew (h : (s.port p).st = .training) (hs : (s.port p).step = 2 ∨ (s.port p).step = 3) : s.trainStep p .skew = s.linkDown p 2 := (if_neg (not_not_intro h)).trans (if_pos hs)

/-- A step with a limit: past it the link goes down. -/
theorem trainStep_exceeded {n l : Nat} (h : (s.port p).st = .training) (hs : (s.port p).step = n) (hl : stepLimit n = some l) :
    s.trainStep p .exceeded = if (s.port p).stepAt + l ≤ s.now then s.linkDown p (if n = 5 then 1 else 2) else s := by
  unfold State.trainStep
  dsimp only
  rw [if_neg (not_not_intro h), hs, hl]

section
variable {g : Nat} {id : BitVec 4} {pp : BitVec 2} {pm j : Bool}

theorem trainStep_one (h : (s.port p).st = .training) (hs : (s.port p).step = 1) : s.trainStep p (.passed g a b id pp pm j) = s.updPort p (fun x => { x with step := 2, stepAt := s.now }) := by
  unfold State.trainStep
  dsimp only
  rw [if_neg (not_not_intro h), hs]
  rfl

/-- The partner's answer noted (R367). -/
def Port.partnered (id : BitVec 4) (pp : BitVec 2) (pm fast : Bool) (x : Port) : Port := { x with pid := id.toNat, pport := pp.toNat, pmaster := pm, jl2 := fast }

/-- Both sides agree on JL2. -/
def fastAgreed (x : Port) (g : Nat) (j : Bool) : Bool := x.jl2En && j && decide (2 ≤ g)

theorem trainStep_two (h : (s.port p).st = .training) (hs : (s.port p).step = 2) : s.trainStep p (.passed g a b id pp pm j) =
    if fastAgreed (s.port p) g j then (s.updPort p (Port.partnered id pp pm (fastAgreed (s.port p) g j))).updPort p (fun x => { x with step := 3, stepAt := s.now })
    else (s.updPort p (Port.partnered id pp pm (fastAgreed (s.port p) g j))).trainVersion p a b := by
  unfold State.trainStep
  dsimp only
  rw [if_neg (not_not_intro h), hs]
  rfl

theorem fastAgreed_false {x : Port} (h : x.jl2En = false ∨ j = false ∨ g < 2) : fastAgreed x g j = false := by
  unfold fastAgreed
  obtain h | h | h := h
  · rw [h]; rfl
  · rw [h, Bool.and_false]; rfl
  · rw [decide_eq_false (Nat.not_le.mpr h), Bool.and_false]

theorem trainStep_three (h : (s.port p).st = .training) (hs : (s.port p).step = 3) : s.trainStep p (.passed g a b id pp pm j) = s.trainVersion p a b := by
  unfold State.trainStep
  dsimp only
  rw [if_neg (not_not_intro h), hs]
  rfl

theorem trainStep_five (h : (s.port p).st = .training) (hs : (s.port p).step = 5) : s.trainStep p (.passed g a b id pp pm j) =
    if (s.port p).exN < 16 then s else if (s.port p).isUp ∧ 40 * 65536 * 32 < (s.port p).exSum then s.linkDown p 4
    else (s.updPort p (fun x => { x with dPs := if x.isUp then min 0xFFFF (x.exSum * 1000 / (65536 * 32)).toNat else x.dPs })).linkUp p := by
  unfold State.trainStep
  dsimp only
  rw [if_neg (not_not_intro h), hs]
  rfl

/-- The state in which the version is negotiated: of this port only what step 2 notes may differ. -/
structure VersionDue (s w : State) (p : Nat) (id : BitVec 4) (pp : BitVec 2) : Prop where
  only : s.onlyPort w p
  st : (w.port p).st = .training
  role : (w.port p).role = (s.port p).role
  two : (s.port p).step = 2 → (w.port p).pid = id.toNat ∧ (w.port p).pport = pp.toNat ∧ (w.port p).jl2 = false
  three : (s.port p).step = 3 → (w.port p).jl2 = (s.port p).jl2

/-- Without JL2, steps 2 and 3 both lead to the version. -/
theorem trainStep_version (h : (s.port p).st = .training) (hs : ((s.port p).step = 2 ∧ ((s.port p).jl2En = false ∨ j = false ∨ g < 2)) ∨ (s.port p).step = 3) :
    ∃ w, s.trainStep p (.passed g a b id pp pm j) = w.trainVersion p a b ∧ VersionDue s w p id pp := by
  obtain ⟨h2, hslow⟩ | h3 := hs
  · refine ⟨s.updPort p (Port.partnered id pp pm false), ?_, State.updPort_only _ _ _, ?_, ?_, fun _ => ?_, fun h3 => absurd (h2.symm.trans h3) (by decide)⟩
    · rw [trainStep_two h h2, fastAgreed_false hslow]
      exact if_neg Bool.false_ne_true
    · rw [State.port_updPort]
      exact h
    · rw [State.port_updPort]
      rfl
    · rw [State.port_updPort]
      exact ⟨rfl, rfl, rfl⟩
  · exact ⟨s, trainStep_three h h3, ⟨rfl, fun _ _ => rfl⟩, h, rfl, fun h2 => absurd (h2.symm.trans h3) (by decide), fun _ => rfl⟩

end

/-- The port once the version is agreed: step 5 begins. -/
def Port.versioned (now b : Nat) (x : Port) : Port :=
  { x with pver := min 2 b, step := 5, final := true, stepAt := now, exSum := 0, exN := 0, txSeq := 0, rxSeq := 255, freed := 0, credit := 0, unacked := [] }

theorem trainVersion_bad (h : min 2 b < max 1 a) : w.trainVersion p a b = (w.updPort p (fun x => { x with pver := min 2 b })).linkDown p 3 := if_pos h

theorem trainVersion_good (h : max 1 a ≤ min 2 b) : w.trainVersion p a b = if (w.port p).role = 1 then
      (w.updPort p (Port.versioned w.now b)).each (List.range 16) (fun _ c => c.portSend p (c.localMsg p 3 false (leBytes 12 c.stamp)))
    else w.updPort p (Port.versioned w.now b) := by
  refine (if_neg (Nat.not_lt.mpr h)).trans (if_congr ?_ rfl rfl)
  rw [State.port_updPort]
  exact decide_eq_true_iff

theorem version_refused {id : BitVec 4} {pp : BitVec 2} (h : min 2 b < max 1 a) (hw : VersionDue s w p id pp) :
    s.wentDown p 3 (w.trainVersion p a b) ∧ ((w.trainVersion p a b).port p).pver = min 2 b := by
  have own : (w.updPort p (fun x => { x with pver := min 2 b })).port p = { w.port p with pver := min 2 b } := State.port_updPort _ _ _
  have live : ((w.updPort p (fun x => { x with pver := min 2 b })).port p).st ≠ .down := by
    rw [own]
    exact fun hd => absurd (hw.st.symm.trans hd) (by decide)
  rw [trainVersion_bad h]
  refine ⟨wentDown_of_only (onlyPort_updPort hw.only) ?_ (linkDown_wentDown live), (linkDown_pver live).trans ?_⟩
  · rw [own]
    exact hw.role
  · rw [own]

theorem version_agreed {id : BitVec 4} {pp : BitVec 2} (h : max 1 a ≤ min 2 b) (hw : VersionDue s w p id pp) :
    ∃ u : State, s.onlyPort u p ∧ u.port p = Port.versioned s.now b (w.port p) ∧
      w.trainVersion p a b = if (s.port p).role = 1 then u.each (List.range 16) (fun _ c => c.portSend p (c.localMsg p 3 false (leBytes 12 c.stamp))) else u := by
  have now : w.now = s.now := (congrArg State.now hw.only.1).trans rfl
  refine ⟨w.updPort p (Port.versioned s.now b), onlyPort_updPort hw.only, State.port_updPort _ _ _, ?_⟩
  rw [trainVersion_good h, hw.role, now]

/-- The port as its link comes UP, before waiting messages leave. -/
def Port.upped (now : Nat) (x : Port) : Port :=
  { x with dPs := if x.isUp then min 0xFFFF (x.exSum * 1000 / (65536 * 32)).toNat else x.dPs, st := .up, step := 6, upCnt := satInc 0xFFFF x.upCnt, lastHdr := now, timeAt := none, downCause := 0 }

theorem linkUp_measured : (s.updPort p (fun x => { x with dPs := if x.isUp then min 0xFFFF (x.exSum * 1000 / (65536 * 32)).toNat else x.dPs })).linkUp p =
    s.updPort p (fun x => (Port.upped s.now x).drain s.now x.waitq) := State.updPort_twice _ _ _ _

end

/-! ## Headers and retries (R365, R366, R382) -/

section
variable {s : State} {p : Nat}

theorem exec_linkHeader {p : Fin 4} {h : LinkHdr} (hr : s.runs) : exec (.linkHeader p h) s = .next (s.linkHeader p.val h) := exec_live (f := fun x => x.linkHeader p.val h) rfl hr
theorem exec_headerLoss {p : Fin 4} (hr : s.runs) : exec (.headerLoss p) s = .next (s.headerLoss p.val) := exec_live (f := fun x => x.headerLoss p.val) rfl hr
theorem exec_blockErrorRate {p : Fin 4} {n : Nat} (hr : s.runs) : exec (.blockErrorRate p n) s = .next (s.blockErrors p.val n) := exec_live (f := fun x => x.blockErrors p.val n) rfl hr
theorem exec_messageRetransmit {p : Fin 4} (hr : s.runs) : exec (.messageRetransmit p) s = .next (s.msgRetransmit p.val) := exec_live (f := fun x => x.msgRetransmit p.val) rfl hr
theorem exec_retryExhausted {p : Fin 4} (hr : s.runs) : exec (.retryExhausted p) s = .next (s.retryExhausted p.val) := exec_live (f := fun x => x.retryExhausted p.val) rfl hr

/-- One more attempt of a message, at most four in all. -/
def JTx.again (now : Nat) (t : JTx) : JTx := if t.tries < 4 then { t with tries := t.tries + 1, last := now } else t

/-- The port with its unacknowledged messages sent again. -/
def Port.resent (now : Nat) (x : Port) : Port :=
  { x with unacked := x.unacked.map (JTx.again now), retryCnt := min 0xFFFF (x.retryCnt + (x.unacked.filter (fun t => decide (t.tries < 4))).length) }

theorem retransmit_eq : s.retransmit p = s.updPort p (Port.resent s.now) := rfl

/-- The port as a good header leaves it, before waiting messages leave. -/
def Port.headed (now : Nat) (h : LinkHdr) (x : Port) : Port := { x with lastHdr := now, fn := h.fn.toNat, credit := h.credit.toNat, unacked := ackDrop h.ack.toNat x.unacked }

section
variable {h : LinkHdr}

theorem linkHeader_closed (ho : (s.port p).open_ = false) : s.linkHeader p h = s := if_pos (by rw [ho]; rfl)

theorem linkHeader_bad (ho : (s.port p).open_ = true) (hk : h.ok = false) : s.linkHeader p h = s.updPort p (fun x => { x with blkErr := satInc 0xFFFF x.blkErr }) :=
  (if_neg (by rw [ho]; exact Bool.false_ne_true)).trans (if_pos (by rw [hk]; rfl))

/-- The port that a good header leaves. -/
def headerTaken (now : Nat) (h : LinkHdr) (x : Port) : Port := if h.nak then Port.resent now ((Port.headed now h x).drain now x.waitq) else (Port.headed now h x).drain now x.waitq

theorem linkHeader_good (ho : (s.port p).open_ = true) (hk : h.ok = true) : s.linkHeader p h = s.updPort p (headerTaken s.now h) := by
  refine (if_neg (by rw [ho]; exact Bool.false_ne_true)).trans ((if_neg (by rw [hk]; exact Bool.false_ne_true)).trans ?_)
  unfold headerTaken
  cases h.nak
  · rfl
  · exact State.updPort_twice _ _ _ _

/-- What a good header says is noted; the link's state stays. -/
theorem headerTaken_notes (now : Nat) (x : Port) : (headerTaken now h x).lastHdr = now ∧ (headerTaken now h x).fn = h.fn.toNat ∧ (headerTaken now h x).credit = h.credit.toNat ∧ (headerTaken now h x).st = x.st := by
  have frame := (PortSent.drain now x.waitq (Port.headed now h x)).frame
  have drained := And.intro (congrArg Port.lastHdr frame) (And.intro (congrArg Port.fn frame) (And.intro (congrArg Port.credit frame) (congrArg Port.st frame)))
  exact ite_both (fun y : Port => y.lastHdr = now ∧ y.fn = h.fn.toNat ∧ y.credit = h.credit.toNat ∧ y.st = x.st) drained drained

theorem drain_empty (now : Nat) (x : Port) : x.drain now [] = { x with waitq := [] } := rfl

theorem headerTaken_acks {now : Nat} {x : Port} (hn : h.nak = false) :
    (headerTaken now h x).retryCnt = x.retryCnt ∧ (x.waitq = [] → (headerTaken now h x).unacked = ackDrop h.ack.toNat x.unacked) := by
  unfold headerTaken
  rw [hn, if_neg Bool.false_ne_true]
  refine ⟨(congrArg Port.retryCnt (PortSent.drain now x.waitq (Port.headed now h x)).frame).trans rfl, fun hw => ?_⟩
  rw [hw]
  rfl

theorem headerTaken_naks {now : Nat} {x : Port} (hn : h.nak = true) (hw : x.waitq = []) : (headerTaken now h x).unacked = (ackDrop h.ack.toNat x.unacked).map (JTx.again now) := by
  unfold headerTaken
  rw [hn, if_pos rfl, hw]
  rfl

end

section
variable {x : JTx} {l : List JTx}

theorem retryExhausted_none (h : (s.port p).unacked = []) : s.retryExhausted p = s := by
  unfold State.retryExhausted
  rw [h]

theorem msgRetransmit_none (h : (s.port p).unacked = []) : s.msgRetransmit p = s := by
  unfold State.msgRetransmit
  rw [h]

theorem retryExhausted_some (h : (s.port p).unacked = x :: l) : s.retryExhausted p = if x.first + 2 * tus ≤ s.now then s.linkDown p 5 else s := by
  unfold State.retryExhausted
  rw [h]

theorem msgRetransmit_some (h : (s.port p).unacked = x :: l) :
    s.msgRetransmit p = if x.tries < 4 ∧ x.last + 500 * tns ≤ s.now ∧ s.now ≤ x.first + 1500 * tns then s.retransmit p else s := by
  unfold State.msgRetransmit
  rw [h]

end

end

/-! ## Delay (R369) -/

section
variable {s : State} {h : MsgHdr} {t1 t2 t3 t4 : Word64}

/-- One exchange more on the port that was asked. -/
def delayNoted (s : State) (h : MsgHdr) : State := (s.linkTook h).updPort h.port.val (fun x => { x with exN := min 16 (x.exN + 1) })

theorem delayNoted_port : (delayNoted s h).port h.port.val = { (s.linkTook h).port h.port.val with exN := min 16 (((s.linkTook h).port h.port.val).exN + 1) } := State.port_updPort _ _ _

/-- The partner's ID is the one known before. -/
theorem localMsg_delayNoted (m : Nat) (r : Bool) (l : List Byte) : (s.linkTook h).localMsg h.port.val m r l = (delayNoted s h).localMsg h.port.val m r l := by
  unfold State.localMsg
  rw [delayNoted_port]
  rfl

theorem delayReq_answered (hr : s.linkRight h) : s.delayReq h t1 t2 t3 =
    (delayNoted s h).portSend h.port.val ((delayNoted s h).localMsg h.port.val 4 true (leBytes 8 t1.toNat ++ leBytes 8 t2.toNat ++ leBytes 12 t3.toNat)) := by
  rw [← localMsg_delayNoted]
  exact takeLocal_any hr

end

end Sys2Proof.Proofs
end

section
/-! SUPPORT: the streams of a Jarond link (R376, R380, R381, Table 13-8). -/

namespace Sys2Proof.Proofs

open Sys2Proof.Machine Sys2Proof.Laws

set_option Elab.async false

/-! ## Rows -/

section
variable {s : State} {p : Fin 4} {n : Fin 12}

theorem exec_streamReqRepeat (hr : s.runs) : exec (.streamReqRepeat p n) s = .next (s.streamReqRepeat p.val n.val) := exec_live (f := fun x => x.streamReqRepeat p.val n.val) rfl hr
theorem exec_streamStart {rc : Bool} (hr : s.runs) : exec (.streamStart p rc n) s = .next (s.streamStart p.val rc n.val) := exec_live (f := fun x => x.streamStart p.val rc n.val) rfl hr
theorem exec_streamStop (hr : s.runs) : exec (.streamStop p n) s = .next (s.streamStop p.val n.val) := exec_live (f := fun x => x.streamStop p.val n.val) rfl hr
theorem exec_receiveStreamRampDown (hr : s.runs) : exec (.receiveStreamRampDown p n) s = .next (s.streamRamp p.val n.val) := exec_live (f := fun x => x.streamRamp p.val n.val) rfl hr
theorem exec_streamCell {c : Cell} (hr : s.runs) : exec (.streamCell p n c) s = .next (s.streamCell p.val n.val c) := exec_live (f := fun x => x.streamCell p.val n.val c) rfl hr

end

/-! ## Requests and their answers (Table 13-8) -/

section
variable {s : State} {h : MsgHdr}

theorem linkTook_strm (k : Nat) : (s.linkTook h).strm k = s.strm k := rfl

theorem linkTook_oldestReq (p : Nat) : (s.linkTook h).oldestReq p = s.oldestReq p := rfl

section
variable {n rate col ph : Byte} {st : Word64} {r : Nat}

/-- The result with which a STREAM_REQ is answered. -/
def reqResult (x : Strm) (n rate : Byte) : Nat := if x.st ≠ .listen ∨ 11 < n.toNat then 1 else if x.rate ≠ rate.toNat then 2 else 0

/-- A stream asked for with a START it agrees to. -/
def Strm.asked (col ph : Byte) (start : Nat) (x : Strm) : Strm := { x with col := col.toNat, phase := ph.toNat, start := some start, agreed := true }

/-- The device once a STREAM_REQ has been judged. -/
def reqJudged (s : State) (h : MsgHdr) (n rate col ph : Byte) (st : Word64) : State :=
  let k := strIdx h.port.val true (n.toNat % 12)
  if reqResult (s.strm k) n rate = 0 then (s.linkTook h).updStrm k (Strm.asked col ph (s.ofDtime st.toNat)) else s.linkTook h

theorem streamReq_answered (hr : s.linkRight h) : s.streamReq h n rate col ph st =
    (reqJudged s h n rate col ph st).portSend h.port.val ((s.linkTook h).localMsg h.port.val 0x20 true (leBytes 4 (reqResult (s.strm (strIdx h.port.val true (n.toNat % 12))) n rate))) := by
  unfold State.streamReq
  rw [takeLocal_any hr]
  rfl

theorem reqJudged_msg (m : Nat) (b : Bool) (l : List Byte) : (s.linkTook h).localMsg h.port.val m b l = (reqJudged s h n rate col ph st).localMsg h.port.val m b l := by
  unfold reqJudged
  exact ite_both (fun u : State => (s.linkTook h).localMsg h.port.val m b l = u.localMsg h.port.val m b l) rfl rfl

theorem reqJudged_only : (s.linkTook h).onlyStrm (reqJudged s h n rate col ph st) (strIdx h.port.val true (n.toNat % 12)) := by
  unfold reqJudged
  exact ite_both (fun u : State => (s.linkTook h).onlyStrm u (strIdx h.port.val true (n.toNat % 12))) (State.updStrm_only _ _ _) ⟨rfl, fun _ _ => rfl⟩

theorem reqJudged_strm : (reqJudged s h n rate col ph st).strm (strIdx h.port.val true (n.toNat % 12)) =
    if reqResult (s.strm (strIdx h.port.val true (n.toNat % 12))) n rate = 0 then Strm.asked col ph (s.ofDtime st.toNat) (s.strm (strIdx h.port.val true (n.toNat % 12)))
    else s.strm (strIdx h.port.val true (n.toNat % 12)) := by
  unfold reqJudged
  dsimp only
  split
  · exact State.strm_updStrm _ _ _
  · rfl

end

section
variable {r : Byte} {n : Nat}

theorem streamReqResponse_none (hr : s.linkRight h) (ho : s.oldestReq h.port.val = none) : s.streamReqResponse h r = s.linkTook h := by
  unfold State.streamReqResponse
  rw [takeLocal_any hr]
  dsimp only
  rw [linkTook_oldestReq, ho]

/-- A response agrees while its START is still to come. -/
def Strm.answered (now : Nat) (x : Strm) : Strm := { x with agreed := match x.start with | some t => decide (now < t) | none => false }

theorem streamReqResponse_some (hr : s.linkRight h) (ho : s.oldestReq h.port.val = some n) : s.streamReqResponse h r =
    if r = 0 then (s.linkTook h).updStrm (strIdx h.port.val false n) (Strm.answered s.now)
    else if (s.strm (strIdx h.port.val false n)).st = .pending then (s.linkTook h).openFails h.port.val n .refusedState false
    else (s.linkTook h).updStrm (strIdx h.port.val false n) (fun x => { x with start := none }) := by
  unfold State.streamReqResponse
  rw [takeLocal_any hr]
  dsimp only
  rw [linkTook_oldestReq, ho]
  rfl

end

end

/-! ## A request repeated (Table 13-8) -/

section
variable {s : State} {p n : Nat}

/-- A request under way with a new START. -/
def Strm.requested (start now : Nat) (x : Strm) : Strm := { x with start := some start, agreed := false, reqAt := now }

/-- The stream as its request leaves it. -/
def reqSent (s : State) (p n : Nat) : State := s.updStrm (strIdx p false n) (Strm.requested s.startTime s.now)

theorem streamReqSend_eq : ∃ b : List Byte, s.streamReqSend p n = (reqSent s p n).portSend p ((reqSent s p n).localMsg p 0x20 false
    (leBytes 1 n ++ leBytes 1 (s.strm (strIdx p false n)).rate ++ leBytes 1 (s.strm (strIdx p false n)).col ++ leBytes 1 (s.strm (strIdx p false n)).phase ++ leBytes 4 0 ++ b)) := ⟨_, rfl⟩

theorem streamReqRepeat_void (h : (s.strm (strIdx p false n)).st ≠ .unmatched ∨ (s.port p).st ≠ .up ∨ s.now < (s.strm (strIdx p false n)).reqAt + 10 * tms) : s.streamReqRepeat p n = s := by
  refine if_neg ?_
  rintro ⟨hu, hp, ht⟩
  exact h.elim (fun hn => hn hu) (fun hn => hn.elim (fun hn => hn hp) (Nat.not_lt.mpr ht))

theorem streamReqRepeat_due (hu : (s.strm (strIdx p false n)).st = .unmatched) (hp : (s.port p).st = .up) (ht : (s.strm (strIdx p false n)).reqAt + 10 * tms ≤ s.now) :
    s.streamReqRepeat p n = s.streamReqSend p n := if_pos ⟨hu, hp, ht⟩

end

/-! ## STREAM_CLOSE received (Table 13-8) -/

section
variable {s : State} {h : MsgHdr} {b : Byte}

/-- A send stream whose partner has closed. -/
def Strm.partnerClosed (x : Strm) : Strm := if x.st = .active then { x with st := .unmatched, start := none, agreed := false } else { x with agreed := false }

/-- A receive stream whose sender has closed. -/
def Strm.senderClosed (x : Strm) : Strm := if x.st = .active ∨ x.st = .listen then { x with st := .listen, start := none, agreed := false, pair := none } else x

theorem streamClose_beyond (hr : s.linkRight h) (hn : 12 ≤ b.toNat % 16) : s.streamClose h b = s.linkTook h := by
  unfold State.streamClose
  rw [takeLocal_any hr]
  exact if_pos hn

theorem streamClose_eq (hr : s.linkRight h) (hn : b.toNat % 16 < 12) : s.streamClose h b =
    (s.linkTook h).updStrm (strIdx h.port.val (!b.getLsbD 7) (b.toNat % 16)) (if b.getLsbD 7 then Strm.partnerClosed else Strm.senderClosed) := by
  unfold State.streamClose
  rw [takeLocal_any hr]
  refine (if_neg (Nat.not_le.mpr hn)).trans ?_
  cases b.getLsbD 7 <;> rfl

end

/-! ## START (Table 13-8) -/

section
variable {s : State} {p n a : Nat} {rc : Bool}

/-- A stream as it becomes ACTIVE. -/
def Strm.begun (x : Strm) : Strm := { x with st := .active, start := none, pairs := 0 }

theorem streamStart_early (h : ∀ a ∈ (s.strm (strIdx p rc n)).start, s.now < a) : s.streamStart p rc n = s := by
  unfold State.streamStart
  dsimp only
  split
  · rfl
  · rename_i t ht
    exact if_pos (h t ht)

/-- At START the direction and the state decide. -/
theorem streamStart_at (hs : (s.strm (strIdx p rc n)).start = some a) (ha : a ≤ s.now) : s.streamStart p rc n =
    if rc then (if (s.strm (strIdx p rc n)).st = .listen ∧ (s.strm (strIdx p rc n)).agreed then s.updStrm (strIdx p rc n) Strm.begun else s)
    else if (s.strm (strIdx p rc n)).st = .pending then
      if (s.strm (strIdx p rc n)).agreed ∧ s.jl.time = .locked then endsId (s.updStrm (strIdx p rc n) (fun x => { x with st := .active, start := none, id := none, pairs := 0 })) (s.strm (strIdx p rc n)).id .ok
      else s.openFails p n .timeoutLock true
    else if (s.strm (strIdx p rc n)).st = .unmatched then
      (if (s.strm (strIdx p rc n)).agreed then s.updStrm (strIdx p rc n) Strm.begun else s.updStrm (strIdx p rc n) (fun x => { x with start := none }))
    else s := by
  unfold State.streamStart
  dsimp only
  rw [hs]
  exact if_neg (Nat.not_lt.mpr ha)

theorem streamStart_begins (hs : (s.strm (strIdx p rc n)).start = some a) (ha : a ≤ s.now) (hg : (s.strm (strIdx p rc n)).agreed = true)
    (hc : (rc = true ∧ (s.strm (strIdx p rc n)).st = .listen) ∨ (rc = false ∧ (s.strm (strIdx p rc n)).st = .unmatched)) : s.streamStart p rc n = s.updStrm (strIdx p rc n) Strm.begun := by
  rw [streamStart_at hs ha]
  obtain ⟨rfl, hst⟩ | ⟨rfl, hst⟩ := hc
  · rw [if_pos rfl, if_pos ⟨hst, hg⟩]
  · rw [if_neg Bool.false_ne_true, hst, if_neg (by decide), if_pos rfl, if_pos hg]

theorem streamStart_opens (hs : (s.strm (strIdx p false n)).start = some a) (ha : a ≤ s.now) (hp : (s.strm (strIdx p false n)).st = .pending) (hg : (s.strm (strIdx p false n)).agreed = true)
    (ht : s.jl.time = .locked) :
    s.streamStart p false n = endsId (s.updStrm (strIdx p false n) (fun x => { x with st := .active, start := none, id := none, pairs := 0 })) (s.strm (strIdx p false n)).id .ok := by
  rw [streamStart_at hs ha, if_neg Bool.false_ne_true, if_pos hp, if_pos ⟨hg, ht⟩]

theorem streamStart_fails (hs : (s.strm (strIdx p false n)).start = some a) (ha : a ≤ s.now) (hp : (s.strm (strIdx p false n)).st = .pending)
    (hn : (s.strm (strIdx p false n)).agreed = false ∨ s.jl.time ≠ .locked) : s.streamStart p false n = s.openFails p n .timeoutLock true := by
  rw [streamStart_at hs ha, if_neg Bool.false_ne_true, if_pos hp]
  refine if_neg fun ok => ?_
  exact hn.elim (fun hg => absurd (hg.symm.trans ok.1) (by decide)) (fun ht => ht ok.2)

end

/-! ## Closing (R381) -/

section
variable {s : State} {p n : Nat} {rc : Bool}

/-- The stream over, and every close of it ended. -/
def closesEnded (s : State) (p : Nat) (rc : Bool) (n : Nat) : State :=
  let k := strIdx p rc n
  let t := endsId (s.updStrm k (fun _ => Strm.ended (s.strm k))) (s.strm k).id .superseded
  ({ t with jl := { t.jl with dirty := true } } : State).completeAll (isStreamClose k) .ok

theorem streamClosed_eq : ∃ m, s.streamClosed p rc n = (closesEnded s p rc n).portSend p m := ⟨_, rfl⟩

theorem closesEnded_jl : (closesEnded s p rc n).jl = { s.jl with strs := (s.updStrm (strIdx p rc n) (fun _ => Strm.ended (s.strm (strIdx p rc n)))).jl.strs, dirty := true } := by
  unfold closesEnded
  dsimp only
  rw [(kept_completeAll _ _ _).jl rfl]
  dsimp only
  rw [endsId_kept.jl rfl]
  rfl

theorem closesEnded_strm (k : Nat) : (closesEnded s p rc n).strm k = if strIdx p rc n = k then Strm.ended (s.strm k) else s.strm k := by
  have strs : (closesEnded s p rc n).strm k = (s.updStrm (strIdx p rc n) (fun _ => Strm.ended (s.strm (strIdx p rc n)))).strm k := by
    unfold State.strm
    rw [closesEnded_jl]
    rfl
  rw [strs, State.strm_updStrm_at]
  split
  · rename_i hk
    rw [hk]
  · rfl

/-- A stream that has closed. -/
theorem streamClosed_spec : (s.streamClosed p rc n).strm (strIdx p rc n) = Strm.ended (s.strm (strIdx p rc n)) ∧ (∀ j, j ≠ strIdx p rc n → (s.streamClosed p rc n).strm j = s.strm j) ∧
    (s.streamClosed p rc n).jl.dirty = true ∧ ∀ q ∈ (s.streamClosed p rc n).hif.outstanding, isStreamClose (strIdx p rc n) q = false := by
  obtain ⟨m, hm⟩ := streamClosed_eq (s := s) (p := p) (rc := rc) (n := n)
  rw [hm]
  refine ⟨?_, fun j hj => ?_, ?_, ?_⟩
  · rw [portSend_strm, closesEnded_strm, if_pos rfl]
  · rw [portSend_strm, closesEnded_strm, if_neg (Ne.symm hj)]
  · have dirty : (closesEnded s p rc n).jl.dirty = true := congrArg Jl.dirty closesEnded_jl
    exact ite_both (fun u : State => u.jl.dirty = true) dirty dirty
  · rw [portSend_hif]
    exact completeAll_none _ _ _

/-- A send stream stops at a schedule boundary after a close of it was accepted. -/
theorem streamStop_due (hc : (s.strm (strIdx p false n)).closing ≠ none) (hg : s.onGrid schedTk = true) (hq : ∃ q ∈ s.pends (isStreamClose (strIdx p false n)), q.acc < s.now) :
    s.streamStop p n = s.streamClosed p false n :=
  if_pos ⟨hc, hg, List.any_eq_true.mpr (hq.imp fun _ h => ⟨h.1, decide_eq_true h.2⟩)⟩

theorem streamStop_void (h : (s.strm (strIdx p false n)).closing = none ∨ s.onGrid schedTk = false ∨ ∀ q ∈ s.pends (isStreamClose (strIdx p false n)), s.now ≤ q.acc) : s.streamStop p n = s := by
  refine if_neg ?_
  rintro ⟨hc, hg, hq⟩
  obtain h | h | h := h
  · exact hc h
  · exact absurd (h.symm.trans hg) (by decide)
  · obtain ⟨q, hm, hlt⟩ := List.any_eq_true.mp hq
    exact absurd (of_decide_eq_true hlt) (Nat.not_lt.mpr (h q hm))

theorem streamRamp_void (h : (s.strm (strIdx p true n)).closing = none ∨ s.onSmp chainBlk = false) : s.streamRamp p n = s := if_pos (h.imp_right (fun e => by rw [e]; rfl))

/-- The oldest close of a receive stream ramps it down and then ends it. -/
theorem streamRamp_eq {q : Pend} {l : List Pend} (hc : (s.strm (strIdx p true n)).closing ≠ none) (hg : s.onSmp chainBlk = true) (hq : s.pends (isStreamClose (strIdx p true n)) = q :: l) :
    s.streamRamp p n = if s.now ≤ q.acc then s else if q.committed then s.streamClosed p true n else s.updPend q.id (fun q => { q with committed := true, start := s.now }) := by
  unfold State.streamRamp
  dsimp only
  rw [if_neg (not_or.mpr ⟨hc, by rw [hg]; exact Bool.false_ne_true⟩), hq]
  rfl

end

/-! ## Cells (R376) -/

section
variable {s : State} {p n : Nat} {c : Cell}

theorem streamCell_idle (hs : (s.strm (strIdx p true n)).st ≠ .active) (hc : c ≠ .blockError) : s.streamCell p n c = s := by
  cases c with
  | blockError => exact absurd rfl hc
  | pair a b d e => exact if_pos hs
  | idle => exact if_pos hs

theorem streamCell_pair {a b d e : Half} (hs : (s.strm (strIdx p true n)).st = .active) : s.streamCell p n (.pair a b d e) = s.updStrm (strIdx p true n) (fun x => { x with pair := some (a, b, d, e), pairs := x.pairs + 1 }) :=
  if_neg (not_not_intro hs)

theorem streamCell_none (hs : (s.strm (strIdx p true n)).st = .active) : s.streamCell p n .idle = s.updStrm (strIdx p true n) (fun x => { x with pair := none }) := if_neg (not_not_intro hs)

theorem streamCell_damaged (hs : (s.strm (strIdx p true n)).st = .active) : s.streamCell p n .blockError =
    (s.updPort p (fun x => { x with blkErr := satInc 0xFFFF x.blkErr })).updStrm (strIdx p true n) (fun x => { x with pair := some (0, 0, 0, 0), pairs := x.pairs + 1, err := satInc 0xFFFF x.err }) :=
  if_neg (not_not_intro hs)

end

end Sys2Proof.Proofs
end

section
/-! The settlement of O50: Jarond links and streams. -/

namespace Sys2Proof.Proofs

open Sys2Proof.Machine Sys2Proof.Laws

set_option Elab.async false

/-! ## Training with a passed step -/

section
variable {s : State} {p : Fin 4} {g a b : Nat} {id : BitVec 4} {pp : BitVec 2} {pm j : Bool}

/-- Step 2 with JL2 on both sides goes on to step 3. -/
theorem training_fast (hr : s.runs) (ht : (s.port p.val).st = .training) (hs : (s.port p.val).step = 2) (hj : fastAgreed (s.port p.val) g j = true) :
    ∃ t, exec (.linkTrainingStep p (.passed g a b id pp pm j)) s = .next t ∧ s.onlyPort t p.val ∧
      t.port p.val = { s.port p.val with pid := id.toNat, pport := pp.toNat, pmaster := pm, jl2 := true, step := 3, stepAt := s.now } := by
  refine ⟨_, (exec_linkTrainingStep hr).trans (congrArg _ ((trainStep_two ht hs).trans (if_pos hj))), onlyPort_updPort (State.updPort_only _ _ _), ?_⟩
  rw [State.port_updPort, State.port_updPort, hj]
  rfl

/-- A refused version takes the link down. -/
theorem training_refused (hr : s.runs) (ht : (s.port p.val).st = .training) (hs : ((s.port p.val).step = 2 ∧ ((s.port p.val).jl2En = false ∨ j = false ∨ g < 2)) ∨ (s.port p.val).step = 3) (hv : min 2 b < max 1 a) :
    ∃ t, exec (.linkTrainingStep p (.passed g a b id pp pm j)) s = .next t ∧ s.wentDown p.val 3 t ∧ (t.port p.val).pver = min 2 b := by
  obtain ⟨w, hw, due⟩ := trainStep_version (a := a) (b := b) (id := id) (pp := pp) (pm := pm) ht hs
  exact ⟨_, (exec_linkTrainingStep hr).trans (congrArg _ hw), version_refused hv due⟩

/-- An agreed version begins step 5. -/
theorem training_agreed (hr : s.runs) (ht : (s.port p.val).st = .training) (hs : ((s.port p.val).step = 2 ∧ ((s.port p.val).jl2En = false ∨ j = false ∨ g < 2)) ∨ (s.port p.val).step = 3) (hv : max 1 a ≤ min 2 b) :
    ∃ u : State, s.onlyPort u p.val ∧ (u.port p.val).st = .training ∧ (u.port p.val).step = 5 ∧ (u.port p.val).pver = min 2 b ∧ (u.port p.val).final = true ∧ (u.port p.val).exN = 0 ∧ (u.port p.val).exSum = 0 ∧
      (u.port p.val).stepAt = s.now ∧ ((s.port p.val).step = 2 → (u.port p.val).pid = id.toNat ∧ (u.port p.val).pport = pp.toNat ∧ (u.port p.val).jl2 = false) ∧
      ((s.port p.val).step = 3 → (u.port p.val).jl2 = (s.port p.val).jl2) ∧
      exec (.linkTrainingStep p (.passed g a b id pp pm j)) s = .next (if (s.port p.val).role = 1 then u.each (List.range 16) (fun _ c => c.portSend p.val (c.localMsg p.val 3 false (leBytes 12 c.stamp))) else u) := by
  obtain ⟨w, hw, due⟩ := trainStep_version (a := a) (b := b) (id := id) (pp := pp) (pm := pm) ht hs
  obtain ⟨u, only, own, sends⟩ := version_agreed hv due
  refine ⟨u, only, ?_⟩
  rw [own]
  exact ⟨due.st, rfl, rfl, rfl, rfl, rfl, rfl, due.two, due.three, (exec_linkTrainingStep hr).trans (congrArg _ (hw.trans sends))⟩

/-- Step 5 measured: the link comes UP. -/
theorem training_up (hr : s.runs) (ht : (s.port p.val).st = .training) (hs : (s.port p.val).step = 5) (hn : 16 ≤ (s.port p.val).exN) (hd : (s.port p.val).role ≠ 1 ∨ (s.port p.val).exSum ≤ 40 * 65536 * 32) :
    exec (.linkTrainingStep p (.passed g a b id pp pm j)) s = .next (s.updPort p.val (fun x => (Port.upped s.now x).drain s.now x.waitq)) := by
  have near : ¬((s.port p.val).isUp = true ∧ 40 * 65536 * 32 < (s.port p.val).exSum) := fun far => hd.elim (fun hr => hr (of_decide_eq_true far.1)) (Int.not_le.mpr far.2)
  exact (exec_linkTrainingStep hr).trans (congrArg _ ((trainStep_five ht hs).trans ((if_neg (Nat.not_lt.mpr hn)).trans ((if_neg near).trans linkUp_measured))))

end

/-- Settles O50: links by the equations of their events, streams by those of theirs. -/
theorem linksAndStreams : Obligations.LinksAndStreams := by
  unfold Obligations.LinksAndStreams
  refine ⟨fun s i h hr hm => ?message, fun s p hr => ⟨fun hv => ?noTrain, fun hd hc hn => ?train⟩, fun s p r hr ht => ?notTraining, fun s p hr ht => ⟨fun hs => ?skew, fun n l hnl hs => ?limit⟩,
    fun s p g a b id pp pm j x hr hx ht => ?passed, fun s p h hr => ⟨fun ho => ?closed, fun ho hk => ?badHeader, fun ho hk => ?header⟩, fun s p hr => ⟨fun hu hl => ?loss, fun hn => ?noLoss⟩,
    fun s p n l hr hl => ⟨fun hu hn => ?errors, fun hn => ?noErrors⟩, fun s p hr hu => ?nothing, fun s p x l hr hu => ⟨fun hd ht => ?exhausted, fun ht => ?notExhausted, fun hn => ?notAgain, fun h4 ht hf => ?again⟩,
    fun s h t1 t2 t3 hr hl => ?delayReq, fun s h t1 t2 t3 t4 x hr hl hx => ?delayResp, fun s h n rate col ph st k r x hr hl hk hx hres => ?request, fun s h r hr hl => ⟨fun ho => ?noRequest, fun n k ho hk => ?response⟩,
    fun s p n k x hr hk hx => ⟨fun hv => ?noRepeat, fun hu hp ht => ?asksAgain⟩, fun s h b k hr hl hk => ⟨fun hn => ?closeBeyond, fun hn => ?close⟩,
    fun s p rc n k x hr hk hx => ⟨fun he => ?early, fun a hs ha hg hc => ?start, fun a hs ha hrc hp hg ht => ?opens, fun a hs ha hrc hp hn => ?fails⟩,
    fun s p n k hr hk => ⟨fun hv => ?noStop, fun hc hg hq => ?stop⟩, fun s p n k hr hk => ⟨fun hv => ?noRamp, fun q l hc hg hq => ?ramp⟩, fun s p n k hr hk hs => ?cell, fun s p n c hr hs hc => ?noCell⟩
  case message =>
    obtain ⟨f, hf⟩ := exec_message hr hm
    exact ⟨fun ho => hf.trans (congrArg _ (linkTake_closed ho)), fun ho hbad => hf.trans (congrArg _ (linkTake_refused ho hbad))⟩
  case noTrain => exact (exec_trainingRestart hr).trans (congrArg _ (trainStart_void hv))
  case train => exact (exec_trainingRestart hr).trans (congrArg _ (trainStart_again hr hd hc hn))
  case notTraining => exact (exec_linkTrainingStep hr).trans (congrArg _ (trainStep_idle ht))
  case skew =>
    have live : (s.port p.val).st ≠ .down := fun hd => absurd (ht.symm.trans hd) (by decide)
    exact ⟨_, (exec_linkTrainingStep hr).trans (congrArg _ (trainStep_skew ht hs)), linkDown_wentDown live⟩
  case limit =>
    have live : (s.port p.val).st ≠ .down := fun hd => absurd (ht.symm.trans hd) (by decide)
    have known : stepLimit n = some l := by
      simp only [List.mem_cons, List.not_mem_nil, or_false, Prod.mk.injEq] at hnl
      obtain ⟨rfl, rfl⟩ | ⟨rfl, rfl⟩ | ⟨rfl, rfl⟩ := hnl <;> rfl
    have row := (exec_linkTrainingStep (p := p) hr).trans (congrArg Host.Outcome.next (trainStep_exceeded ht hs known))
    exact ⟨fun early => row.trans (congrArg _ (if_neg (Nat.not_le.mpr early))), fun late => ⟨_, row.trans (congrArg _ (if_pos late)), linkDown_wentDown live⟩⟩
  case passed =>
    subst hx
    have live : (s.port p.val).st ≠ .down := fun hd => absurd (ht.symm.trans hd) (by decide)
    refine ⟨fun hs => (exec_linkTrainingStep hr).trans (congrArg _ (trainStep_one ht hs)), fun hs he hj hg => training_fast hr ht hs ?_, fun hs hv => training_refused hr ht hs hv, fun hs hv => training_agreed hr ht hs hv,
      fun hs hn => (exec_linkTrainingStep hr).trans (congrArg _ ((trainStep_five ht hs).trans (if_pos hn))), fun hs hn hu hd => ?_, fun hs hn hd => ⟨_, training_up hr ht hs hn hd, State.updPort_only _ _ _, ?_⟩⟩
    · unfold fastAgreed
      rw [he, hj, decide_eq_true hg]
      rfl
    · exact ⟨_, (exec_linkTrainingStep hr).trans (congrArg _ ((trainStep_five ht hs).trans ((if_neg (Nat.not_lt.mpr hn)).trans (if_pos ⟨decide_eq_true hu, hd⟩)))), linkDown_wentDown live⟩
    · rw [State.port_updPort]
      have frame := (PortSent.drain s.now (s.port p.val).waitq (Port.upped s.now (s.port p.val))).frame
      exact ⟨congrArg Port.st frame, congrArg Port.step frame, congrArg Port.upCnt frame, congrArg Port.downCause frame, congrArg Port.timeAt frame, congrArg Port.lastHdr frame,
        (congrArg Port.dPs frame).trans (if_congr decide_eq_true_iff rfl rfl)⟩
  case closed => exact (exec_linkHeader hr).trans (congrArg _ (linkHeader_closed ho))
  case badHeader => exact (exec_linkHeader hr).trans (congrArg _ (linkHeader_bad ho hk))
  case header =>
    refine ⟨_, (exec_linkHeader hr).trans (congrArg _ (linkHeader_good ho hk)), State.updPort_only _ _ _, ?_⟩
    rw [State.port_updPort]
    obtain ⟨hdr, fn, credit, st⟩ := headerTaken_notes (h := h) s.now (s.port p.val)
    exact ⟨hdr, fn, credit, st, fun hn => headerTaken_acks hn, fun hn hw => headerTaken_naks hn hw⟩
  case loss =>
    have live : (s.port p.val).st ≠ .down := fun hd => absurd (hu.symm.trans hd) (by decide)
    exact ⟨_, (exec_headerLoss hr).trans (congrArg _ (if_pos ⟨hu, hl⟩)), linkDown_wentDown live⟩
  case noLoss => exact (exec_headerLoss hr).trans (congrArg _ (if_neg (fun ok => hn.elim (fun hs => hs ok.1) (Nat.not_lt.mpr ok.2))))
  case errors =>
    subst hl
    have live : (s.port p.val).st ≠ .down := fun hd => absurd (hu.symm.trans hd) (by decide)
    exact ⟨_, (exec_blockErrorRate hr).trans (congrArg _ (if_pos ⟨hu, hn⟩)), linkDown_wentDown live⟩
  case noErrors =>
    subst hl
    exact (exec_blockErrorRate hr).trans (congrArg _ (if_neg (fun ok => hn.elim (fun hs => hs ok.1) (Nat.not_le.mpr ok.2))))
  case nothing => exact ⟨(exec_messageRetransmit hr).trans (congrArg _ (msgRetransmit_none hu)), (exec_retryExhausted hr).trans (congrArg _ (retryExhausted_none hu))⟩
  case exhausted => exact ⟨_, (exec_retryExhausted hr).trans (congrArg _ ((retryExhausted_some hu).trans (if_pos ht))), linkDown_wentDown hd⟩
  case notExhausted => exact (exec_retryExhausted hr).trans (congrArg _ ((retryExhausted_some hu).trans (if_neg (Nat.not_le.mpr ht))))
  case notAgain =>
    refine (exec_messageRetransmit hr).trans (congrArg _ ((msgRetransmit_some hu).trans (if_neg ?_)))
    rintro ⟨h4, ht, hf⟩
    omega
  case again =>
    refine ⟨_, (exec_messageRetransmit hr).trans (congrArg _ ((msgRetransmit_some hu).trans (if_pos ⟨h4, ht, hf⟩))), State.updPort_only _ _ _, ?_⟩
    rw [retransmit_eq, State.port_updPort, ← hu]
    rfl
  case delayReq =>
    refine ⟨delayNoted s h, (exec_delayReq hr).trans (congrArg _ (delayReq_answered hl)), onlyPort_updPort linkTook_only, delayNoted_port.trans ?_⟩
    rw [show ((s.linkTook h).port h.port.val).exN = (s.port h.port.val).exN from (congrArg Port.exN (State.port_updPort s _ _)).trans rfl]
  case delayResp =>
    subst hx
    by_cases hu : (s.port h.port.val).role = 1
    · have role : ((s.linkTook h).port h.port.val).role = 1 := (congrArg Port.role (State.port_updPort s _ _)).trans hu
      refine ⟨_, (exec_delayResp hr).trans (congrArg _ (takeLocal_up hl hu)), onlyPort_updPort linkTook_only, ?_⟩
      rw [State.port_updPort, if_neg (not_not_intro role)]
    · have role : ((s.linkTook h).port h.port.val).role ≠ 1 := fun hn => hu ((congrArg Port.role (State.port_updPort s _ _)).symm.trans hn)
      refine ⟨_, (exec_delayResp hr).trans (congrArg _ (takeLocal_wrong hl hu)), onlyPort_updPort linkTook_only, ?_⟩
      rw [if_pos role]
      exact State.port_updPort _ _ _
  case request =>
    subst hk hx hres
    refine ⟨reqJudged s h n rate col ph st, ?_, reqJudged_only, reqJudged_strm⟩
    rw [exec_streamReq hr, streamReq_answered hl, reqJudged_msg]
    rfl
  case noRequest => exact (exec_streamReqResponse hr).trans (congrArg _ (streamReqResponse_none hl ho))
  case response =>
    subst hk
    have row := (exec_streamReqResponse (r := r) hr).trans (congrArg Host.Outcome.next (streamReqResponse_some hl ho))
    by_cases h0 : r = 0
    · rw [if_pos h0] at row
      exact ⟨_, row, fun j hj => State.strm_updStrm_ne _ _ _ _ (Ne.symm hj), fun _ => State.strm_updStrm _ _ _, fun hn => absurd h0 hn, fun hn => absurd h0 hn⟩
    · rw [if_neg h0] at row
      by_cases hp : (s.strm (strIdx h.port.val false n)).st = .pending
      · rw [if_pos hp] at row
        refine ⟨_, row, fun j hj => ?_, fun hn => absurd hn h0, fun _ hn => absurd hp hn, fun _ _ => ⟨?_, openFails_gone⟩⟩
        · exact (openFails_strm j).trans (if_neg (Ne.symm hj))
        · exact (openFails_strm _).trans (if_pos rfl)
      · rw [if_neg hp] at row
        exact ⟨_, row, fun j hj => State.strm_updStrm_ne _ _ _ _ (Ne.symm hj), fun hn => absurd hn h0, fun _ _ => State.strm_updStrm _ _ _, fun _ hn => absurd hn hp⟩
  case noRepeat =>
    subst hk hx
    exact (exec_streamReqRepeat hr).trans (congrArg _ (streamReqRepeat_void hv))
  case asksAgain =>
    subst hk hx
    obtain ⟨b, hb⟩ := streamReqSend_eq (s := s) (p := p.val) (n := n.val)
    exact ⟨reqSent s p.val n.val, b, (exec_streamReqRepeat hr).trans (congrArg _ ((streamReqRepeat_due hu hp ht).trans hb)), State.updStrm_only _ _ _, State.strm_updStrm _ _ _⟩
  case closeBeyond => exact (exec_streamClose hr).trans (congrArg _ (streamClose_beyond hl hn))
  case close =>
    subst hk
    refine ⟨_, (exec_streamClose hr).trans (congrArg _ (streamClose_eq hl hn)), State.updStrm_only _ _ _, (State.strm_updStrm _ _ _).trans ?_⟩
    cases b.getLsbD 7 <;> rfl
  case early =>
    subst hk hx
    exact (exec_streamStart hr).trans (congrArg _ (streamStart_early he))
  case start =>
    subst hk hx
    exact (exec_streamStart hr).trans (congrArg _ (streamStart_begins hs ha hg hc))
  case opens =>
    subst hk hx hrc
    refine ⟨_, (exec_streamStart hr).trans (congrArg _ (streamStart_opens hs ha hp hg ht)), ?_, fun j hj => ?_, endsId_gone⟩
    · exact (endsId_strm _).trans (State.strm_updStrm _ _ _)
    · exact (endsId_strm _).trans (State.strm_updStrm_ne _ _ _ _ (Ne.symm hj))
  case fails =>
    subst hk hx hrc
    refine ⟨_, (exec_streamStart hr).trans (congrArg _ (streamStart_fails hs ha hp hn)), ?_, fun j hj => ?_, openFails_gone⟩
    · exact (openFails_strm _).trans (if_pos rfl)
    · exact (openFails_strm _).trans (if_neg (Ne.symm hj))
  case noStop =>
    subst hk
    exact (exec_streamStop hr).trans (congrArg _ (streamStop_void hv))
  case stop =>
    subst hk
    exact ⟨_, (exec_streamStop hr).trans (congrArg _ (streamStop_due hc hg hq)), streamClosed_spec⟩
  case noRamp =>
    subst hk
    exact (exec_receiveStreamRampDown hr).trans (congrArg _ (streamRamp_void hv))
  case ramp =>
    subst hk
    have row := (exec_receiveStreamRampDown hr).trans (congrArg Host.Outcome.next (streamRamp_eq hc hg hq))
    refine ⟨fun early => row.trans (congrArg _ (if_pos early)), fun late hcm => ?_, fun late hcm => ?_⟩
    · rw [if_neg (Nat.not_le.mpr late), hcm, if_neg Bool.false_ne_true] at row
      exact row
    · rw [if_neg (Nat.not_le.mpr late), if_pos hcm] at row
      exact ⟨_, row, streamClosed_spec⟩
  case cell =>
    subst hk
    exact ⟨fun a b c d => (exec_streamCell hr).trans (congrArg _ (streamCell_pair hs)), (exec_streamCell hr).trans (congrArg _ (streamCell_none hs)), (exec_streamCell hr).trans (congrArg _ (streamCell_damaged hs))⟩
  case noCell => exact (exec_streamCell hr).trans (congrArg _ (streamCell_idle hs hc))

end Sys2Proof.Proofs
end

section
/-! SUPPORT: raising a fault keeps every master cap (R390): an alarm touches of a gain stage only the bank it uses. -/

namespace Sys2Proof.Proofs

open Sys2Proof.Machine Sys2Proof.Laws

set_option Elab.async false

/-- From s to t no slot's master cap has changed. -/
def CapsHeld (s t : State) : Prop := ∀ n, (t.gain n).mcapValid = (s.gain n).mcapValid ∧ (t.gain n).capm = (s.gain n).capm

namespace CapsHeld

variable {a s t : State}

theorem refl (s : State) : CapsHeld s s := fun _ => ⟨rfl, rfl⟩

theorem trans (h : CapsHeld a s) (k : CapsHeld s t) : CapsHeld a t := fun n => ⟨(k n).1.trans (h n).1, (k n).2.trans (h n).2⟩

theorem of_gcl (h : t.gcl = s.gcl) : CapsHeld s t := by
  intro n
  unfold State.gain
  rw [h]
  exact ⟨rfl, rfl⟩

/-- What leaves the loops alone keeps the caps. -/
theorem kept {p : Part} (h : CapsHeld a s) (k : Kept p s t) (hp : p.gcl = false := by rfl) : CapsHeld a t := h.trans (of_gcl (k.gcl hp))

theorem ite {c : Prop} [Decidable c] {x y : State} (h1 : CapsHeld a x) (h2 : CapsHeld a y) : CapsHeld a (if c then x else y) := ite_both (CapsHeld a) h1 h2

theorem each {l : List Nat} {f : Nat → State → State} (h : CapsHeld a s) (hf : ∀ i b, CapsHeld a b → CapsHeld a (f i b)) : CapsHeld a (s.each l f) := each_keep (CapsHeld a) f hf l s h

theorem foldl {α : Type} {l : List α} {f : State → α → State} (h : CapsHeld a s) (hf : ∀ b x, CapsHeld a b → CapsHeld a (f b x)) : CapsHeld a (l.foldl f s) := by
  induction l generalizing s with
  | nil => exact h
  | cons x r ih => exact ih (hf s x h)

/-- A change of a gain stage beside its master cap. -/
theorem updGain {n : Nat} {f : Gain → Gain} (h : CapsHeld a s) (hf : ∀ g, (f g).mcapValid = g.mcapValid ∧ (f g).capm = g.capm) : CapsHeld a (s.updGain n f) := by
  refine h.trans fun m => ?_
  rw [State.gain_updGain_at]
  split
  · rename_i hm
    exact hm ▸ hf _
  · exact ⟨rfl, rfl⟩

theorem updObj {i : Nat} {f : WObj → WObj} (h : CapsHeld a s) : CapsHeld a (s.updObj i f) := h.trans (of_gcl rfl)

theorem updFsrc {k : Nat} {f : FSrc → FSrc} (h : CapsHeld a s) : CapsHeld a (s.updFsrc k f) := h.trans (of_gcl rfl)

theorem irqRise {n : Nat} (h : CapsHeld a s) : CapsHeld a (s.irqRise n) := h.kept (Kept.irqRise (p := { intc := true }) (Kept.refl _ s))

/-! ## WINTER -/

theorem lutSuspend {n : Nat} (h : CapsHeld a s) : CapsHeld a (s.lutSuspend n) := by
  have switched : CapsHeld a (s.updGain n fun g => { g with bankB := (s.lut g.lutset).activeB }) := h.updGain fun _ => ⟨rfl, rfl⟩
  exact ite (switched.kept (Kept.lutSwapCheck (p := complPart) (Kept.refl _ _))) h

theorem slotEntersWinter {n : Nat} (h : CapsHeld a s) : CapsHeld a (s.slotEntersWinter n) :=
  lutSuspend ((h.kept (Kept.fadeFinish (p := { complPart with slots := true }) (Kept.refl _ s))).kept (kept_completeAll _ _ _))

theorem txEntersWinter {c : Nat} (h : CapsHeld a s) : CapsHeld a (s.txEntersWinter c) := h.kept (Kept.txEntersWinter (p := { complPart with cx := true, prot := true }) (Kept.refl _ s))

/-- A record writer keeps the master caps. -/
def Writer (F : RecF) : Prop := ∀ a s x0 x1 x2 x3 x4, CapsHeld a s → CapsHeld a (F s x0 x1 x2 x3 x4)

section
variable {F : RecF} (hF : Writer F)
include hF

theorem winterSetWith {i c : Nat} {r : Half} (h : CapsHeld a s) : CapsHeld a (State.winterSetWith F s i c r) := by
  unfold State.winterSetWith
  dsimp only
  split
  · exact h.updObj
  · have bridged : CapsHeld a (if i < 256 then s.bridgeNet i else s) := ite (h.kept (Kept.bridgeNet (p := { prot := true }) (Kept.refl _ s))) h
    refine CapsHeld.kept (each (each ?_ fun _ _ => slotEntersWinter) fun _ _ => txEntersWinter) (Kept.captTrigger (p := { hif := true }) (Kept.refl _ _))
    split
    · exact CapsHeld.kept (hF _ _ _ _ _ _ _ bridged.updObj) (kept_completeId _ _ _ _ _)
    · exact hF _ _ _ _ _ _ _ bridged.updObj

theorem faultWinter {k : Nat} {f : FScope} (h : CapsHeld a s) : CapsHeld a (State.faultWinter F s k f) := ite h (each h fun _ _ hb => (winterSetWith hF hb).updObj)

theorem faultRecord {k kind : Nat} {f : FScope} {inj : Bool} (h : CapsHeld a s) : CapsHeld a (State.faultRecord F s k kind f inj) := hF _ _ _ _ _ _ _ h

theorem firstOccur {k kind : Nat} {f : FScope} {inj : Bool} (h : CapsHeld a s) : CapsHeld a (State.firstOccur F s k kind f inj) := by
  have edge {c : Prop} [Decidable c] {u : State} {m : Nat} (hu : CapsHeld a u) : CapsHeld a (if c then u.irqRise m else u) := ite hu.irqRise hu
  unfold State.firstOccur
  exact ite (faultWinter hF (faultRecord hF (edge (updFsrc h)))) (faultRecord hF (edge (updFsrc h)))

theorem escalateWinter {k : Nat} (h : CapsHeld a s) : CapsHeld a (State.escalateWinter F s k) := foldl h fun _ _ => faultWinter hF

theorem repeatOccur {k : Nat} {f : FScope} {inj : Bool} (h : CapsHeld a s) : CapsHeld a (State.repeatOccur F s k f inj) := by
  have repeated : CapsHeld a (State.faultRecord F (s.updFsrc k (fun x => { x with repeats := satInc 0xFFFF x.repeats, scopes := s.addScope x.scopes f, inj := inj })) k 1 f inj) := faultRecord hF (updFsrc h)
  unfold State.repeatOccur
  exact ite (ite (escalateWinter hF (faultRecord hF (updFsrc repeated))) (faultRecord hF (updFsrc repeated))) (ite (faultWinter hF repeated) repeated)

theorem occurWith {k : Nat} {f : FScope} {inj : Bool} (h : CapsHeld a s) : CapsHeld a (State.occurWith F s k f inj) := ite (repeatOccur hF h) (firstOccur hF h)

end

theorem quiet : Writer State.recordQ := fun _ s _ _ _ _ _ h => h.kept (Kept.recordQ (p := { recd := true }) (Kept.refl _ s))

theorem record : Writer State.record := by
  intro a s code sev src bypass data h
  have entered : CapsHeld a (s.record0 code sev src bypass data).2 := h.kept (Kept.record0 (p := { recd := true }) (Kept.refl _ s))
  unfold State.record
  split
  · rename_i hs
    rw [hs] at entered
    exact occurWith quiet entered
  · rename_i hs
    rw [hs] at entered
    exact entered

theorem regfault (h : CapsHeld a s) : CapsHeld a s.regfault := by
  have counted : CapsHeld a { s with flt := { s.flt with regfault := satInc 0xFFFF s.flt.regfault } } := h.trans (of_gcl rfl)
  have raised := occurWith record (k := 16 * 3 + 1) (f := .device) (inj := true) counted
  exact ite (winterSetWith record raised).updObj raised

theorem checkSev {b : Nat} {hi : Bool} (h : CapsHeld a s) : CapsHeld a (s.checkSev b hi) := by
  have lost : CapsHeld a { s with flt := { s.flt with sevLost := s.flt.sevLost.set false (sevKey b hi) true } } := h.trans (of_gcl rfl)
  exact ite lost.regfault h

theorem checkCopy {k : Nat} (h : CapsHeld a s) : CapsHeld a (s.checkCopy k) := ite (firstOccur record h).regfault h

/-- Raising a fault keeps every master cap. -/
theorem raise {b n : Nat} {f : FScope} (h : CapsHeld a s) : CapsHeld a (s.raise b n f) := by
  have policy : CapsHeld a s.checkPolicy := ite h (occurWith record h)
  have copies : CapsHeld a (s.checkPolicy.checkCopies b) := each policy.checkSev.checkSev fun _ _ => checkCopy
  unfold State.raise State.raiseI
  exact occurWith record copies

/-- Forming the caps again keeps the master caps they are formed from. -/
theorem capAll (h : CapsHeld a s) : CapsHeld a s.capAll := by
  refine h.trans fun n => ?_
  obtain ⟨_, _, _, _, _, _, _, _, hg⟩ := capAll_gain s n
  rw [hg]
  exact ⟨rfl, rfl⟩

end CapsHeld

end Sys2Proof.Proofs
end

section
/-! SUPPORT: what requests, responses, caps and reports change of the device (R384 to R391), and when a routed message executes here. -/

namespace Sys2Proof.Proofs

open Sys2Proof.Machine Sys2Proof.Laws

set_option Elab.async false

/-! ## Messages that go out -/

/-- From s to t only Jarond ports have changed. -/
def PortsOnly (s t : State) : Prop := t = { s with jl := { s.jl with ports := t.jl.ports } }

/-- From s to t only ports, requests under way and stored responses have changed. -/
def Asked (s t : State) : Prop := t = { s with jl := { s.jl with ports := t.jl.ports, reqs := t.jl.reqs, reqq := t.jl.reqq, nextSeq := t.jl.nextSeq, resps := t.jl.resps } }

/-- From s to t, beside that, only the caps in force and sent and the answers they hold up have changed. -/
def Talked (s t : State) : Prop :=
  t = { s with gcl := t.gcl, jl := { s.jl with
    ports := t.jl.ports, reqs := t.jl.reqs, reqq := t.jl.reqq, nextSeq := t.jl.nextSeq, resps := t.jl.resps, caps := t.jl.caps, capSeq := t.jl.capSeq, owed := t.jl.owed, raises := t.jl.raises } }

section
variable {s t u : State}

theorem PortsOnly.refl (s : State) : PortsOnly s s := rfl

theorem PortsOnly.trans (h : PortsOnly s t) (k : PortsOnly t u) : PortsOnly s u := by
  unfold PortsOnly at h k ⊢
  rw [h] at k
  exact k

theorem PortsOnly.asked (h : PortsOnly s t) : Asked s t := by
  unfold PortsOnly at h
  rw [h]
  rfl

theorem PortsOnly.portSend (p : Nat) (m : JMsg) : PortsOnly s (s.portSend p m) := ite_both (PortsOnly s) rfl rfl

theorem PortsOnly.each {l : List Nat} {f : Nat → State → State} (hf : ∀ i c, PortsOnly c (f i c)) : PortsOnly s (s.each l f) :=
  each_keep (PortsOnly s) f (fun i c hc => hc.trans (hf i c)) l s (refl s)

theorem PortsOnly.routeSend (m : JMsg) : PortsOnly s (s.routeSend m) := by
  unfold State.routeSend
  split
  · exact portSend _ _
  · exact refl s

theorem Asked.refl (s : State) : Asked s s := rfl

theorem Asked.trans (h : Asked s t) (k : Asked t u) : Asked s u := by
  unfold Asked at h k ⊢
  rw [h] at k
  exact k

theorem Asked.talked (h : Asked s t) : Talked s t := by
  unfold Asked at h
  rw [h]
  rfl

theorem Asked.routeSend (m : JMsg) : Asked s (s.routeSend m) := (PortsOnly.routeSend m).asked

theorem Asked.foldl {α : Type} {l : List α} {f : State → α → State} (hf : ∀ c x, Asked c (f c x)) : Asked s (l.foldl f s) := by
  induction l generalizing s with
  | nil => exact refl s
  | cons x r ih => exact (hf s x).trans ih

theorem Asked.reqRelease (d : Nat) : Asked s (s.reqRelease d) := by
  unfold State.reqRelease
  dsimp only
  exact Asked.trans (t := { s with jl := { s.jl with reqq := _, reqs := _ } }) rfl (Asked.foldl fun _ m => Asked.routeSend m)

theorem Asked.request (d m : Nat) (b : List Byte) : Asked s (s.request d m b).2 := by
  unfold State.request
  dsimp only
  exact Asked.trans (t := { s with jl := { s.jl with nextSeq := _, reqq := _ } }) rfl (Asked.reqRelease d)

theorem Asked.answered (d m q : Nat) : Asked s (s.answered d m q) := by
  unfold State.answered
  exact Asked.trans (t := { s with jl := { s.jl with reqs := _ } }) rfl (Asked.reqRelease d)

theorem Asked.respond (m : JMsg) : Asked s (s.respond m) := by
  unfold State.respond
  exact Asked.trans (t := { s with jl := { s.jl with resps := _ } }) rfl (Asked.routeSend m)

theorem Asked.flt (h : Asked s t) : t.flt = s.flt := (congrArg State.flt h).trans rfl
theorem Asked.rfe (h : Asked s t) : t.rfe = s.rfe := (congrArg State.rfe h).trans rfl
theorem Asked.tim (h : Asked s t) : t.tim = s.tim := (congrArg State.tim h).trans rfl
theorem Asked.gcl (h : Asked s t) : t.gcl = s.gcl := (congrArg State.gcl h).trans rfl
theorem Asked.jl (h : Asked s t) : t.jl = { s.jl with ports := t.jl.ports, reqs := t.jl.reqs, reqq := t.jl.reqq, nextSeq := t.jl.nextSeq, resps := t.jl.resps } := (congrArg State.jl h).trans rfl

theorem Talked.refl (s : State) : Talked s s := rfl

theorem Talked.trans (h : Talked s t) (k : Talked t u) : Talked s u := by
  unfold Talked at h k ⊢
  rw [h] at k
  exact k

theorem Talked.foldl {α : Type} {l : List α} {f : State → α → State} (hf : ∀ c x, Talked c (f c x)) : Talked s (l.foldl f s) := by
  induction l generalizing s with
  | nil => exact refl s
  | cons x r ih => exact (hf s x).trans ih

/-- The same for a round that carries a list of requests along. -/
theorem Talked.foldl_snd {α β : Type} {l : List α} {f : β × State → α → β × State} (hf : ∀ c x, Talked c.2 (f c x).2) (b : β × State) : Talked b.2 (l.foldl f b).2 := by
  induction l generalizing b with
  | nil => exact refl b.2
  | cons x r ih => exact (hf b x).trans (ih _)

theorem Talked.flt (h : Talked s t) : t.flt = s.flt := (congrArg State.flt h).trans rfl
theorem Talked.rfe (h : Talked s t) : t.rfe = s.rfe := (congrArg State.rfe h).trans rfl
theorem Talked.slots (h : Talked s t) : t.slots = s.slots := (congrArg State.slots h).trans rfl
theorem Talked.cx (h : Talked s t) : t.cx = s.cx := (congrArg State.cx h).trans rfl
theorem Talked.tst (h : Talked s t) : t.tst = s.tst := (congrArg State.tst h).trans rfl
theorem Talked.figs (h : Talked s t) : t.jl.figs = s.jl.figs := (congrArg (fun x : State => x.jl.figs) h).trans rfl
theorem Talked.members (h : Talked s t) : t.jl.members = s.jl.members := (congrArg (fun x : State => x.jl.members) h).trans rfl
theorem Talked.reach (h : Talked s t) : t.jl.reach = s.jl.reach := (congrArg (fun x : State => x.jl.reach) h).trans rfl
theorem Talked.exp (h : Talked s t) : t.jl.exp = s.jl.exp := (congrArg (fun x : State => x.jl.exp) h).trans rfl
theorem Talked.cseq (h : Talked s t) : t.jl.cseq = s.jl.cseq := (congrArg (fun x : State => x.jl.cseq) h).trans rfl
theorem Talked.dirty (h : Talked s t) : t.jl.dirty = s.jl.dirty := (congrArg (fun x : State => x.jl.dirty) h).trans rfl
theorem Talked.rseq (h : Talked s t) : t.jl.rseq = s.jl.rseq := (congrArg (fun x : State => x.jl.rseq) h).trans rfl
theorem Talked.reportAt (h : Talked s t) : t.jl.reportAt = s.jl.reportAt := (congrArg (fun x : State => x.jl.reportAt) h).trans rfl
theorem Talked.needFull (h : Talked s t) : t.jl.needFull = s.jl.needFull := (congrArg (fun x : State => x.jl.needFull) h).trans rfl
theorem Talked.raisesNew (h : Talked s t) : t.jl.raisesNew = s.jl.raisesNew := (congrArg (fun x : State => x.jl.raisesNew) h).trans rfl

/-! ## Caps (R389, R390) -/

theorem Talked.of_kept (k : Kept { gcl := true } s t) : Talked s t := by
  obtain ⟨hif, intc, flt, recd, rfe, slots, cx, cxPol, -, luts, prot, tim, le, jl, tst, freeCnt, now, queue⟩ := k
  have frame : t = { s with gcl := t.gcl } := by
    cases t
    exact (State.mk.injEq ..).mpr ⟨now, hif rfl, intc rfl, flt rfl, recd rfl, rfe rfl, slots rfl, cx rfl, cxPol rfl, rfl, luts rfl, prot rfl, tim rfl, le rfl, jl rfl, tst rfl, freeCnt rfl, queue⟩
  rw [frame]
  rfl

theorem capExec_good {e : CapEntry} (h : e.clear = true ∨ cwordOk e.cap = true) : Kept { gcl := true } s (s.capExec e) := by
  unfold State.capExec
  dsimp only
  split
  · exact Kept.updGain (Kept.refl _ s)
  · rename_i hc
    rw [if_pos (h.resolve_left hc)]
    exact Kept.updGain (Kept.refl _ s)

/-- An entry that the master writes is never damaged. -/
theorem capEntry_good (n : Nat) (c : Int) : (capEntry n c).clear = true ∨ cwordOk (capEntry n c).cap = true := by
  unfold capEntry
  dsimp only
  by_cases h : c = capClear
  · exact .inl (decide_eq_true h)
  · rw [if_neg h]
    exact .inr (cwordOk_cword _)

theorem Talked.capsSend (d : Nat) (full : Bool) : Talked s (s.capsSend d full).2 := by
  unfold State.capsSend
  dsimp only
  split
  · exact refl s
  · split
    · refine Talked.trans (t := { s with jl := { s.jl with caps := _ } }) rfl (Talked.trans ?_ (Talked.of_kept (Kept.capAll (Kept.refl _ _))))
      exact Talked.foldl fun c e => Talked.of_kept (capExec_good (capEntry_good e.1 e.2))
    · refine Talked.trans (t := { s with jl := { s.jl with caps := _, capSeq := _ } }) rfl ?_
      refine Talked.foldl_snd ?_ (_, _)
      exact fun c e => (Asked.request _ _ _).talked

theorem Talked.capsUpdate : Talked s s.capsUpdate.2 := by
  unfold State.capsUpdate
  refine Talked.foldl_snd ?_ ([], s)
  exact fun c d => Talked.capsSend d false

theorem Talked.owedCheck : Talked s s.owedCheck := by
  unfold State.owedCheck
  dsimp only
  refine Talked.trans (t := { s with jl := { s.jl with owed := _ } }) rfl (Talked.foldl fun c o => ?_)
  exact ite_both (Talked c) rfl (Asked.respond _).talked

theorem Talked.owe (m : JMsg) (w : List (Nat × Nat)) : Talked s (s.owe m w) := by
  unfold State.owe
  exact Talked.trans (t := { s with jl := { s.jl with owed := _ } }) rfl Talked.owedCheck

/-- What is owed still waits for something. -/
theorem owedCheck_owed : s.owedCheck.jl.owed = s.jl.owed.filter (fun o => !o.waits.isEmpty) := by
  have keeps (l : List Owed) : ∀ c : State, (l.foldl (fun a o => if o.resp.dst = a.ownId then ({ a with jl := { a.jl with raises := a.jl.raises.filter (fun e => decide (e.2 ≠ o.resp.mseq)) } } : State) else a.respond o.resp) c).jl.owed = c.jl.owed := by
    induction l with
    | nil => exact fun c => rfl
    | cons o r ih =>
      intro c
      rw [List.foldl_cons, ih]
      exact ite_both (fun u : State => u.jl.owed = c.jl.owed) rfl ((congrArg Jl.owed (Asked.respond (s := c) o.resp).jl).trans rfl)
  unfold State.owedCheck
  dsimp only
  rw [keeps]

end

/-! ## A routed message that is for this device (R384) -/

section
variable {s : State} {h : MsgHdr} {m : Nat} {b : List Byte} {ok : State → Bool} {learn f : State → State}

theorem ownId_lt (s : State) : s.ownId < 16 := s.tst.straps.casId.isLt

/-- A message for this device is no broadcast. -/
theorem own_single (hd : h.dst.toNat = s.ownId) : h.dst ≠ 0xFF := by
  intro all
  have lt := ownId_lt s
  rw [← hd, all] at lt
  exact absurd lt (by decide)

/-- It goes on by its route. -/
theorem takeRouted_away (hr : s.linkRight h) (hb : h.dst ≠ 0xFF) (hd : h.dst.toNat ≠ s.ownId) :
    s.takeRouted h m b ok id f = (s.linkTook h).routeSend { mtype := m, resp := h.resp, src := h.src.toNat, dst := h.dst.toNat, mseq := h.mseq.toNat, body := b } :=
  (linkTake_right hr).trans ((if_neg hb).trans (if_pos hd))

/-- It executes here. -/
theorem takeRouted_here (hr : s.linkRight h) (hd : h.dst.toNat = s.ownId) (hl : (learn (s.linkTook h)).ownId = s.ownId) (hok : ok (learn (s.linkTook h)) = true) :
    s.takeRouted h m b ok learn f = f (learn (s.linkTook h)) :=
  (linkTake_right hr).trans ((if_neg (own_single hd)).trans ((if_neg (not_not_intro (hd.trans hl.symm))).trans (if_pos hok)))

/-- It came by a port by which this device takes no such message. -/
theorem takeRouted_wrong (hr : s.linkRight h) (hd : h.dst.toNat = s.ownId) (hl : (learn (s.linkTook h)).ownId = s.ownId) (hok : ok (learn (s.linkTook h)) = false) :
    s.takeRouted h m b ok learn f = (learn (s.linkTook h)).discardMsg h.port.val :=
  (linkTake_right hr).trans ((if_neg (own_single hd)).trans ((if_neg (not_not_intro (hd.trans hl.symm))).trans (if_neg (by rw [hok]; exact Bool.false_ne_true))))

theorem linkTook_up (hu : (s.port h.port.val).role = 1) : ((s.linkTook h).port h.port.val).isUp = true := linkTook_isUp.trans (decide_eq_true hu)

theorem linkTook_notUp (hu : (s.port h.port.val).role ≠ 1) : ((s.linkTook h).port h.port.val).isUp = false := linkTook_isUp.trans (decide_eq_false hu)

/-! ## Exactly once (R385) -/

/-- The next MSEQ is expected of the sender. -/
def expectsNext (s : State) (h : MsgHdr) : State := { s with jl := { s.jl with exp := s.jl.exp.set 0 h.src.toNat ((s.jl.exp.get 0 h.src.toNat + 1) % 65536) } }

theorem once_next {e : Nat} (he : e = s.jl.exp.get 0 h.src.toNat) (hm : h.mseq.toNat = e) (h16 : e < 65536) : s.once h f = f (expectsNext s h) := by
  subst he
  refine if_pos ?_
  rw [hm]
  omega

theorem once_far {e : Nat} (he : e = s.jl.exp.get 0 h.src.toNat) (hm : 8 < (e + 65536 - h.mseq.toNat) % 65536) : s.once h f = s.discardMsg h.port.val := by
  subst he
  exact (if_neg (fun hz => absurd (hz ▸ hm) (by decide))).trans (if_neg (Nat.not_le.mpr hm))

theorem expectsNext_exp {e : Nat} (he : e = s.jl.exp.get 0 h.src.toNat) : (expectsNext s h).jl.exp.get 0 h.src.toNat = (e + 1) % 65536 := by
  subst he
  exact Tab.get_set_self _ _ _ _

end

end Sys2Proof.Proofs
end

section
/-! SUPPORT: HEARTBEAT, TIME and HOLDOVER of a domain (R370 to R373, R384, R392). -/

namespace Sys2Proof.Proofs

open Sys2Proof.Machine Sys2Proof.Laws

set_option Elab.async false

/-! ## Rows -/

section
variable {s : State}

theorem exec_heartbeatSend (hr : s.runs) : exec .heartbeatSend s = .next s.heartbeatSend := exec_live (f := fun x => x.heartbeatSend) rfl hr
theorem exec_heartbeatLoss (hr : s.runs) : exec .heartbeatLoss s = .next s.heartbeatLoss := exec_live (f := fun x => x.heartbeatLoss) rfl hr
theorem exec_timeSend {p : Fin 4} (hr : s.runs) : exec (.timeSend p) s = .next (s.timeSend p.val) := exec_live (f := fun x => x.timeSend p.val) rfl hr
theorem exec_masterLost (hr : s.runs) : exec .masterLost s = .next s.masterLost := exec_live (f := fun x => x.masterLost) rfl hr
theorem exec_cascadeHoldoverTimeout (hr : s.runs) : exec .cascadeHoldoverTimeout s = .next s.holdoverTimeout := exec_live (f := fun x => x.holdoverTimeout) rfl hr

end

/-! ## HEARTBEAT (R370, R384) -/

section
variable {s : State} {h : MsgHdr} {e : Word} {n : Byte}

theorem linkTook_ports : PortsOnly s (s.linkTook h) := rfl

theorem linkTook_st (q : Nat) : ((s.linkTook h).port q).st = (s.port q).st := by
  unfold State.linkTook
  rw [State.port_updPort_at]
  split
  · rename_i hq
    rw [hq]
  · rfl

/-- A broadcast goes on by every other downstream port. -/
def broadcast (a : State) (p : Nat) (m : JMsg) : State := a.each ((List.range 4).filter (fun q => decide (q ≠ p ∧ (a.port q).role = 2))) (fun q c => c.portSend q m)

theorem broadcast_ports {a : State} {p : Nat} {m : JMsg} : PortsOnly a (broadcast a p m) := PortsOnly.each fun _ _ => PortsOnly.portSend _ _

theorem broadcast_links {a : State} {p : Nat} {m : JMsg} : LinksSame a (broadcast a p m) := LinksSame.each _ _ fun _ _ => LinksSame.portSend _ _

/-- The domain heard from. -/
def heard (a : State) (h : MsgHdr) (e : Word) (n : Byte) : State := { a with jl := { a.jl with lastHb := a.now, epoch := e, ndev := n, masterId := h.src.toNat } }

theorem heartbeat_wrong (hr : s.linkRight h) (hd : h.dst = 0xFF) (hu : (s.port h.port.val).role ≠ 1) : s.heartbeat h e n = (s.linkTook h).discardMsg h.port.val := by
  have notUp : ¬((s.linkTook h).port h.port.val).isUp = true := by
    rw [linkTook_notUp hu]
    exact Bool.false_ne_true
  unfold State.heartbeat State.takeRouted
  rw [linkTake_right hr]
  exact (if_pos hd).trans (if_neg notUp)

theorem heartbeat_up (hr : s.linkRight h) (hd : h.dst = 0xFF) (hu : (s.port h.port.val).role = 1) : ∃ m, s.heartbeat h e n = heard (broadcast (s.linkTook h) h.port.val m) h e n := by
  refine ⟨{ mtype := 1, resp := h.resp, src := h.src.toNat, dst := h.dst.toNat, mseq := h.mseq.toNat, body := leBytes 4 e.toNat ++ leBytes 8 n.toNat }, ?_⟩
  unfold State.heartbeat State.takeRouted
  rw [linkTake_right hr]
  exact (if_pos hd).trans (if_pos (linkTook_up hu))

theorem heard_frame {b : State} (hb : PortsOnly s b) : heard b h e n = { s with jl := { s.jl with ports := (heard b h e n).jl.ports, lastHb := s.now, epoch := e, ndev := n, masterId := h.src.toNat } } := by
  unfold PortsOnly at hb
  rw [hb]
  rfl

/-- The master's heartbeat as it is about to leave. -/
def beating (s : State) : State := { s with jl := { s.jl with hbAt := s.now, ndev := BitVec.ofNat 8 s.jl.devices } }

/-- The ports by which it leaves. -/
def beatPorts (s : State) : List Nat := (List.range 4).filter (fun p => decide ((s.port p).role = 2 ∧ (s.port p).st = PortSt.up))

theorem heartbeatSend_void (h : s.isMaster = false ∨ s.now < s.jl.hbAt + tms) : s.heartbeatSend = s :=
  if_neg (fun due => h.elim (fun hm => absurd (hm.symm.trans due.1) (by decide)) (Nat.not_lt.mpr due.2))

theorem heartbeatSend_due (hm : s.isMaster = true) (ht : s.jl.hbAt + tms ≤ s.now) : ∃ m, s.heartbeatSend = (beating s).each (beatPorts s) (fun p a => a.portSend p m) := ⟨_, if_pos ⟨hm, ht⟩⟩

theorem beats_frame {l : List Nat} {m : JMsg} : (beating s).each l (fun p a => a.portSend p m) =
    { s with jl := { s.jl with hbAt := s.now, ndev := BitVec.ofNat 8 s.jl.devices, ports := ((beating s).each l (fun p a => a.portSend p m)).jl.ports } } :=
  PortsOnly.each (s := beating s) fun _ _ => PortsOnly.portSend _ _

theorem portSend_others {p q : Nat} {m : JMsg} (hq : q ≠ p) : (s.portSend p m).port q = s.port q := ite_both (fun u : State => u.port q = s.port q) (State.port_updPort_ne _ _ _ _ (Ne.symm hq)) rfl

/-- Other ports stay. -/
theorem beats_others {q : Nat} {m : JMsg} (hq : (s.port q).role ≠ 2 ∨ (s.port q).st ≠ .up) : ((beating s).each (beatPorts s) (fun p a => a.portSend p m)).port q = s.port q := by
  refine each_keep_mem (fun c => c.port q = s.port q) _ (beatPorts s) (fun p hp c hc => (portSend_others ?_).trans hc) (beating s) rfl
  rintro rfl
  obtain ⟨hrole, hst⟩ := of_decide_eq_true (List.mem_filter.mp hp).2
  exact hq.elim (fun hn => hn hrole) (fun hn => hn hst)

end

/-! ## HOLDOVER (R373, R392) -/

section
variable {s : State}

/-- A member that loses its domain is in HOLDOVER, with DOMAIN raised (R373). -/
theorem toHoldover_spec (hm : s.isMaster = false) (ht : s.jl.time = .locked) : s.toHoldover.jl.time = .holdover ∧ s.toHoldover.jl.caphold = true ∧ s.toHoldover.jl.holdAt = some s.now ∧
    s.toHoldover.jl.joined = false ∧ (s.toHoldover.fsrc (16 * 15 + 4)).status = true := by
  have jl := (heldOver_links (s := s)).jl
  rw [toHoldover_locked hm ht]
  refine ⟨(congrArg Jl.time jl).trans rfl, (congrArg Jl.caphold jl).trans rfl, (congrArg Jl.holdAt jl).trans rfl, (congrArg Jl.joined jl).trans rfl, ?_⟩
  exact (Calm.opensEnd (p := noTol) (Calm.refl _ _)).stat rfl _ (State.raise_status (heldOver s) 15 4 .device)

theorem heartbeatLoss_void (h : s.now < s.jl.lastHb + 3 * tms ∨ s.isMaster = true ∨ s.jl.time ≠ .locked) : s.heartbeatLoss = s := by
  unfold State.heartbeatLoss
  split
  · rename_i late
    exact toHoldover_void (h.resolve_left (Nat.not_lt.mpr late))
  · rfl

theorem heartbeatLoss_late (h : s.jl.lastHb + 3 * tms ≤ s.now) : s.heartbeatLoss = s.toHoldover := if_pos h

theorem masterLost_raises (h : s.isMaster = false ∧ (s.jl.time = .none ∨ s.jl.time = .locking) ∧ s.tst.riseAt + 100 * tms ≤ s.now) : s.masterLost = s.raise 15 4 .device :=
  if_pos ⟨by rw [h.1]; rfl, h.2⟩

theorem masterLost_void (h : s.isMaster = true ∨ s.jl.time = .locked ∨ s.jl.time = .holdover ∨ s.now < s.tst.riseAt + 100 * tms) : s.masterLost = s := by
  refine if_neg ?_
  rintro ⟨hm, ht, hl⟩
  obtain h | h | h | h := h
  · rw [h] at hm
    exact absurd hm (by decide)
  · exact ht.elim (fun e => absurd (h.symm.trans e) (by decide)) (fun e => absurd (h.symm.trans e) (by decide))
  · exact ht.elim (fun e => absurd (h.symm.trans e) (by decide)) (fun e => absurd (h.symm.trans e) (by decide))
  · exact absurd hl (Nat.not_le.mpr h)

/-- The slots with a master cap. -/
def cappedSlots (s : State) : List Nat := (s.gcl.filter (fun e => e.2.mcapValid)).map (fun e => e.1)

/-- They enter WINTER with cause CASCADE. -/
def cascadeEntered (s : State) : State := s.each (cappedSlots s) (fun n a => a.winterSet n 11 0)

theorem holdoverTimeout_void (h : s.jl.time ≠ .holdover ∨ ∀ a ∈ s.jl.holdAt, s.now < a + 100 * tms) : s.holdoverTimeout = s := by
  unfold State.holdoverTimeout
  split
  · rename_i t ht
    exact if_neg (fun due => h.elim (fun hn => hn due.1) (fun he => absurd due.2 (Nat.not_le.mpr (he t ht))))
  · rfl

theorem holdoverTimeout_due {a : Nat} (ha : s.jl.holdAt = some a) (ht : s.jl.time = .holdover) (hl : a + 100 * tms ≤ s.now) : s.holdoverTimeout = cascadeEntered s := by
  unfold State.holdoverTimeout
  rw [ha]
  exact if_pos ⟨ht, hl⟩

theorem cascadeEntered_alarmed : s.alarmed (cascadeEntered s) := State.alarmed_each (State.alarmed_refl s) fun _ _ hb => State.alarmed_winterSet hb

theorem cascadeEntered_cause {e : Nat × Gain} (he : e ∈ s.gcl) (hv : e.2.mcapValid = true) : ((cascadeEntered s).wobj e.1).cause.getLsbD 11 = true :=
  each_once (fun c => (c.wobj e.1).cause.getLsbD 11 = true) (fun n a => a.winterSet n 11 0) (fun i c hc => (Calm.winterSet (p := noTol) (Calm.refl _ c)).cause rfl _ _ hc) (cappedSlots s) e.1
    (List.mem_map_of_mem (List.mem_filter.mpr ⟨he, hv⟩)) (fun c => State.winterSet_cause c e.1 11 0 (by decide)) s

end

/-! ## TIME received (R370 to R373) -/

section
variable {s : State} {h : MsgHdr} {d : Word64} {f : Word} {n : Byte} {w : Int}

/-- DTIME taken from the first TIME: the member is LOCKING. -/
def timeBegun (a : State) (w : Int) (f : Word) (n : Byte) : State :=
  { a with tim := { a.tim with dtRun := true, dtOrigin := a.now - w, slew := 0, slewAt := a.now, framePh := f.toNat * tns, srcUsed := 3 }
           jl := { a.jl with time := .locking, depth := n.toNat + 1 } }

/-- The offsets of the last 16 TIME messages. -/
def timeDiffs (a : State) (off : Int) : List (Nat × Int) := (a.jl.diffs ++ [(a.now, off)]).drop (a.jl.diffs.length + 1 - 16)

/-- TIME that is far off, noted. -/
def timeFar (a : State) (off : Int) : State := { a with jl := { a.jl with diffs := timeDiffs a off } }

/-- TIME of a LOCKED member, slewed in. -/
def timeSlewed (a : State) (off : Int) : State := { a with tim := a.tim.slewTo a.now off, jl := { a.jl with diffs := timeDiffs a off } }

/-- TIME of a member in HOLDOVER, slewed in. -/
def timeResumed (a : State) (off : Int) (n : Byte) : State := { a with tim := a.tim.slewTo a.now off, jl := { a.jl with depth := n.toNat + 1 } }

theorem linkTook_delay : ((s.linkTook h).port h.port.val).delay = (s.port h.port.val).delay := (congrArg Port.delay (State.port_updPort s _ _)).trans rfl

theorem timeTake_wrong (hr : s.linkRight h) (hu : (s.port h.port.val).role ≠ 1) : s.timeTake h d f n = (s.linkTook h).discardMsg h.port.val := takeLocal_wrong hr hu

/-- A member in HOLDOVER hears a time that is far off. -/
def timeRefused (a : State) : State := { a with jl := { a.jl with farHeld := true } }

/-- TIME that came from upstream, w the master's time now. -/
def timeTaken (a : State) (w : Int) (f : Word) (n : Byte) : State :=
  if a.isMaster = true ∨ a.jl.conflict = true then a
  else
    match a.jl.time with
    | .none => timeBegun a w f n
    | .locking => a
    | .locked =>
      if 20 * tns < (w - a.dtAt a.now).natAbs || (decide ((timeDiffs a (w - a.dtAt a.now)).length = 16) && Config.rateFar (timeDiffs a (w - a.dtAt a.now))) then
        ((timeFar a (w - a.dtAt a.now)).raise 15 6 .device).toHoldover
      else timeSlewed a (w - a.dtAt a.now)
    | .holdover =>
      if a.jl.farHeld then a
      else if 20 * tns < (w - a.dtAt a.now).natAbs then (timeRefused a).raise 15 6 .device
      else if (w - a.dtAt a.now).natAbs ≤ 576 then (timeResumed a (w - a.dtAt a.now) n).lockedJoin else timeResumed a (w - a.dtAt a.now) n

theorem timeTake_eq : s.timeTake h d f n = s.takeLocal h true (fun a => timeTaken a (d.toNat * tns + (a.port h.port.val).delay) f n) := rfl

theorem timeTake_up (hr : s.linkRight h) (hu : (s.port h.port.val).role = 1) (hw : w = d.toNat * tns + (s.port h.port.val).delay) : s.timeTake h d f n = timeTaken (s.linkTook h) w f n := by
  rw [timeTake_eq, takeLocal_up hr hu, linkTook_delay, ← hw]

section
variable {a : State}

theorem timeTaken_ignored (hi : a.isMaster = true ∨ a.jl.conflict = true ∨ a.jl.time = .locking) : timeTaken a w f n = a := by
  unfold timeTaken
  split
  · rfl
  · rename_i hm
    rw [(hi.resolve_left fun e => hm (.inl e)).resolve_left fun e => hm (.inr e)]

section
variable (hm : a.isMaster = false) (hc : a.jl.conflict = false)
include hm hc

theorem time_judged : ¬(a.isMaster = true ∨ a.jl.conflict = true) := by simp [hm, hc]

theorem timeTaken_none (ht : a.jl.time = .none) : timeTaken a w f n = timeBegun a w f n := by
  unfold timeTaken
  rw [if_neg (time_judged hm hc), ht]

theorem timeTaken_far (ht : a.jl.time = .locked) (hf : 20 * tns < (w - a.dtAt a.now).natAbs) : timeTaken a w f n = ((timeFar a (w - a.dtAt a.now)).raise 15 6 .device).toHoldover := by
  unfold timeTaken
  rw [if_neg (time_judged hm hc), ht]
  exact if_pos (by simp [hf])

theorem timeTaken_near (ht : a.jl.time = .locked) (hf : (w - a.dtAt a.now).natAbs ≤ 20 * tns) (hl : (timeDiffs a (w - a.dtAt a.now)).length ≠ 16) : timeTaken a w f n = timeSlewed a (w - a.dtAt a.now) := by
  unfold timeTaken
  rw [if_neg (time_judged hm hc), ht]
  exact if_neg (by simp [hf, hl])

theorem timeTaken_holdover (ht : a.jl.time = .holdover) : timeTaken a w f n = if a.jl.farHeld then a
    else if 20 * tns < (w - a.dtAt a.now).natAbs then (timeRefused a).raise 15 6 .device
    else if (w - a.dtAt a.now).natAbs ≤ 576 then (timeResumed a (w - a.dtAt a.now) n).lockedJoin else timeResumed a (w - a.dtAt a.now) n := by
  unfold timeTaken
  rw [if_neg (time_judged hm hc), ht]

end

end

/-- Far off, a LOCKED member raises TIME_FAR and enters HOLDOVER (R371, R373). -/
theorem timeFar_holds {a : State} {off : Int} (hm : a.isMaster = false) (ht : a.jl.time = .locked) :
    (((timeFar a off).raise 15 6 .device).toHoldover).jl.time = .holdover ∧ ((((timeFar a off).raise 15 6 .device).toHoldover).fsrc (16 * 15 + 6)).status = true ∧
    ((((timeFar a off).raise 15 6 .device).toHoldover).fsrc (16 * 15 + 4)).status = true := by
  have alarm : (timeFar a off).alarmed ((timeFar a off).raise 15 6 .device) := State.alarmed_raise (State.alarmed_refl _)
  have jl : ((timeFar a off).raise 15 6 .device).jl = (timeFar a off).jl := State.alarmed_jl alarm
  have tst : ((timeFar a off).raise 15 6 .device).tst = (timeFar a off).tst := State.alarmed_tst alarm
  obtain ⟨held, -, -, -, domain⟩ := toHoldover_spec (s := (timeFar a off).raise 15 6 .device) ((congrArg (fun x : Tst => x.straps.casMaster) tst).trans hm) ((congrArg Jl.time jl).trans ht)
  exact ⟨held, (Calm.toHoldover (p := noTol) (Calm.refl _ _)).stat rfl _ (State.raise_status (timeFar a off) 15 6 .device), domain⟩

/-- LOCKED again, a member joins: nothing but its requests and its place in the domain changes (R370). -/
theorem lockedJoin_spec {a : State} : a.lockedJoin.tim = a.tim ∧ a.lockedJoin.jl.time = .locked ∧ a.lockedJoin.jl.depth = a.jl.depth := by
  have asked : Asked { a with jl := { a.jl with time := .locked, caphold := false, holdAt := none, lastHb := a.now, joined := true, needFull := true } } a.lockedJoin := Asked.request _ _ _
  exact ⟨asked.tim.trans rfl, (congrArg Jl.time asked.jl).trans rfl, (congrArg Jl.depth asked.jl).trans rfl⟩

/-- Fewer than 16 offsets are all kept. -/
theorem timeDiffs_short {a : State} {off : Int} (h : a.jl.diffs.length < 15) : timeDiffs a off = a.jl.diffs ++ [(a.now, off)] ∧ (timeDiffs a off).length ≠ 16 := by
  have all : timeDiffs a off = a.jl.diffs ++ [(a.now, off)] := by
    unfold timeDiffs
    rw [Nat.sub_eq_zero_of_le (by omega), List.drop_zero]
  refine ⟨all, ?_⟩
  rw [all, List.length_append, List.length_singleton]
  omega

end

/-! ## TIME sent (R370) -/

section
variable {s : State} {p : Nat}

/-- TIME is due on a port. -/
def timeDue (x : Port) (now : Nat) : Bool := match x.timeAt with | none => true | some t => decide (t + tms ≤ now)

theorem timeDue_iff {x : Port} {now : Nat} : timeDue x now = true ↔ ∀ t ∈ x.timeAt, t + tms ≤ now := by
  unfold timeDue
  split
  · rename_i hn
    simp [hn]
  · rename_i t ht
    simp [ht]

theorem timeSend_eq : s.timeSend p = if (s.port p).st = .up ∧ (s.port p).role = 2 ∧ (s.isMaster = true ∨ s.jl.time = .locked) ∧ s.jl.depth < 4 ∧ timeDue (s.port p) s.now = true then
    (s.updPort p (fun x => { x with timeAt := some s.now })).portSend p (s.localMsg p 2 false (leBytes 8 (s.dtNs / 64 * 64) ++ leBytes 4 (s.tim.framePh / tns) ++ leBytes 8 s.jl.depth)) else s := rfl

end

end Sys2Proof.Proofs
end

section
/-! SUPPORT: JOIN, REPORT, CAP and their answers, and requests that stay unanswered (R362, R385 to R391). -/

namespace Sys2Proof.Proofs

open Sys2Proof.Machine Sys2Proof.Laws

set_option Elab.async false

/-! ## Rows and what stays -/

section
variable {s c : State} {h : MsgHdr} {m e : Nat} {b : List Byte} {ok : State → Bool} {learn g : State → State}

theorem exec_reportSend {f : Bool} (hr : s.runs) : exec (.reportSend f) s = .next (s.reportSend f) := exec_live (f := fun x => x.reportSend f) rfl hr
theorem exec_requestReissue {d : Fin 16} (hr : s.runs) : exec (.requestReissue d) s = .next (s.reissue d.val) := exec_live (f := fun x => x.reissue d.val) rfl hr

theorem PortsOnly.exists_ports (h : PortsOnly s c) : ∃ ports, c = { s with jl := { s.jl with ports := ports } } := ⟨_, h⟩

theorem linkTook_exp : (s.linkTook h).jl.exp = s.jl.exp := rfl

/-- A request taken from the link counts in the sender's MSEQ. -/
theorem tookNext_exp (he : e = s.jl.exp.get 0 h.src.toNat) : (expectsNext (s.linkTook h) h).jl.exp.get 0 h.src.toNat = (e + 1) % 65536 := by
  rw [← linkTook_exp (h := h)] at he
  exact expectsNext_exp he

/-- A request for this device with the MSEQ expected of its sender is executed (R385). -/
theorem takeRouted_next (hr : s.linkRight h) (hd : h.dst.toNat = s.ownId) (hl : learn (s.linkTook h) = c) (hc : PortsOnly s c) (hok : ok c = true)
    (he : e = s.jl.exp.get 0 h.src.toNat) (hm : h.mseq.toNat = e) (h16 : e < 65536) : s.takeRouted h m b ok learn (fun a => a.once h g) = g (expectsNext c h) := by
  obtain ⟨ports, rfl⟩ := hc.exists_ports
  have own : (learn (s.linkTook h)).ownId = s.ownId := (congrArg State.ownId hl).trans rfl
  refine (takeRouted_here hr hd own (by rw [hl]; exact hok)).trans ?_
  rw [hl]
  exact once_next he hm h16

end

/-! ## JOIN (R362, R389) -/

section
variable {s a : State} {h : MsgHdr} {v up : Byte} {r : List Half} {e : Nat}

/-- A new member known to the master. -/
def welcomed (b : State) (i : Nat) (r : List Half) : State := { b with jl := { b.jl with members := b.jl.members ||| 2 ^ i, reach := b.jl.reach.set [] i r } }

theorem joinLearn_ports : PortsOnly a (a.joinLearn h up r) := ite_both (PortsOnly a) rfl rfl

section
variable (hr : s.linkRight h) (hd : h.dst.toNat = s.ownId) (hm : s.isMaster = true) (he : e = s.jl.exp.get 0 h.src.toNat) (hq : h.mseq.toNat = e) (h16 : e < 65536)
include hr hd hm he hq h16

/-- An ID conflict is refused: the answer says so, and nothing else is noted. -/
theorem joinTake_taken (ht : s.idTaken h = true) :
    s.joinTake h v up r = (expectsNext (s.linkTook h) h).respond { mtype := 5, resp := true, src := s.ownId, dst := h.src.toNat, mseq := h.mseq.toNat, body := leBytes 4 1 } := by
  unfold State.joinTake
  dsimp only
  rw [ht]
  exact takeRouted_next hr hd (if_pos ⟨hm, rfl⟩) linkTook_ports hm he hq h16

/-- A new member is noted, answered and sent its caps. -/
theorem joinTake_new (ht : s.idTaken h = false) : ∃ c, PortsOnly s c ∧ Talked (welcomed (expectsNext c h) h.src.toNat r) (s.joinTake h v up r) := by
  have learned : PortsOnly s ((s.linkTook h).joinLearn h up r) := linkTook_ports.trans joinLearn_ports
  refine ⟨_, learned, ?_⟩
  have master : ((s.linkTook h).joinLearn h up r).isMaster = true := ((congrArg State.isMaster learned).trans rfl).trans hm
  unfold State.joinTake
  dsimp only
  rw [ht, takeRouted_next (c := (s.linkTook h).joinLearn h up r) hr hd (if_neg (fun both => Bool.false_ne_true both.2)) learned master he hq h16]
  exact (Asked.respond _).talked.trans (Talked.capsSend _ _)

end

/-- A refused member. -/
def joinRefused (b : State) : State := { b with jl := { b.jl with conflict := true, joined := false } }

theorem joinResponse_up {x : Byte} (hr : s.linkRight h) (hd : h.dst.toNat = s.ownId) (hu : (s.port h.port.val).role = 1) : s.joinResponse h x =
    if x = 1 then (joinRefused ((s.linkTook h).answered h.src.toNat 5 h.mseq.toNat)).raise 15 5 .device else (s.linkTook h).answered h.src.toNat 5 h.mseq.toNat :=
  takeRouted_here (learn := id) hr hd rfl (linkTook_up hu)

theorem joinResponse_wrong {x : Byte} (hr : s.linkRight h) (hd : h.dst.toNat = s.ownId) (hu : (s.port h.port.val).role ≠ 1) : s.joinResponse h x = (s.linkTook h).discardMsg h.port.val :=
  takeRouted_wrong (learn := id) hr hd rfl (linkTook_notUp hu)

theorem joinRefused_raises {b : State} : ((joinRefused b).raise 15 5 .device).jl.conflict = true ∧ ((joinRefused b).raise 15 5 .device).jl.joined = false ∧
    (((joinRefused b).raise 15 5 .device).fsrc (16 * 15 + 5)).status = true := by
  have jl : ((joinRefused b).raise 15 5 .device).jl = (joinRefused b).jl := State.alarmed_jl (State.alarmed_raise (State.alarmed_refl _))
  exact ⟨congrArg Jl.conflict jl, congrArg Jl.joined jl, State.raise_status (joinRefused b) 15 5 .device⟩

/-- An answer to a request changes nothing but requests. -/
theorem answered_asked {m : Nat} : Asked s ((s.linkTook h).answered h.src.toNat m h.mseq.toNat) := linkTook_ports.asked.trans (Asked.answered _ _ _)

end

/-! ## REPORT (R385, R388, R389, R391) -/

section
variable {s : State} {h : MsgHdr} {q : Half} {f : Bool} {l : List Word64} {e : Nat}

/-- The figures of a device with a report laid over them. -/
def figuresTaken (b : State) (i : Nat) (l : List Word64) (f : Bool) : State := { b with jl := { b.jl with figs := b.jl.figs.upd [] i (fun x => mergeEntries x l f) } }

theorem figuresTaken_own {b : State} {i : Nat} : (figuresTaken b i l f).jl.figs.get [] i = mergeEntries (b.jl.figs.get [] i) l f := Tab.get_upd_self b.jl.figs [] i (fun x => mergeEntries x l f)

theorem figuresTaken_other {b : State} {i d : Nat} (h : d ≠ i) : (figuresTaken b i l f).jl.figs.get [] d = b.jl.figs.get [] d := Tab.get_upd_ne b.jl.figs [] [] i d (fun x => mergeEntries x l f) (Ne.symm h)

theorem tookNext_radio : (expectsNext (s.linkTook h) h).rfe = s.rfe ∧ (expectsNext (s.linkTook h) h).slots = s.slots := ⟨rfl, rfl⟩

theorem figuresTaken_radio {b : State} {i : Nat} : (figuresTaken b i l f).rfe = b.rfe ∧ (figuresTaken b i l f).slots = b.slots := ⟨rfl, rfl⟩

theorem tookNext_figs : (expectsNext (s.linkTook h) h).jl.figs = s.jl.figs := rfl

theorem figuresTaken_exp {b : State} {i : Nat} : (figuresTaken b i l f).jl.exp = b.jl.exp := rfl

theorem report_wrong (hr : s.linkRight h) (hd : h.dst.toNat = s.ownId) (hm : s.isMaster = false) : s.report h q f l = (s.linkTook h).discardMsg h.port.val :=
  takeRouted_wrong (ok := fun a => a.isMaster) (learn := id) (f := fun a => a.once h _) hr hd rfl hm

theorem report_next (hr : s.linkRight h) (hd : h.dst.toNat = s.ownId) (hm : s.isMaster = true) (he : e = s.jl.exp.get 0 h.src.toNat) (hq : h.mseq.toNat = e) (h16 : e < 65536) :
    Talked (figuresTaken (expectsNext (s.linkTook h) h) h.src.toNat l f) (s.report h q f l) := by
  unfold State.report
  dsimp only
  rw [takeRouted_next hr hd (id_eq _) linkTook_ports hm he hq h16]
  exact Talked.capsUpdate.trans (Talked.owe _ _)

theorem report_far (hr : s.linkRight h) (hd : h.dst.toNat = s.ownId) (hm : s.isMaster = true) (he : e = s.jl.exp.get 0 h.src.toNat) (hq : 8 < (e + 65536 - h.mseq.toNat) % 65536) :
    s.report h q f l = (s.linkTook h).discardMsg h.port.val := by
  unfold State.report
  dsimp only
  rw [takeRouted_here (learn := id) hr hd rfl hm]
  exact once_far he hq

/-- The report about to leave is noted. -/
def reportNoted (s : State) (f : Bool) : State :=
  { s with jl := { s.jl with dirty := false, needFull := s.jl.needFull && !f, reportAt := if f then s.now else s.jl.reportAt, rseq := (s.jl.rseq + 1) % 65536, raisesNew := [] } }

/-- The master's own figures, and the chains that wait for their caps. -/
def ownNoted (s : State) (f : Bool) : State :=
  { reportNoted s f with jl := { (reportNoted s f).jl with figs := s.jl.figs.set [] s.ownId s.ownEntries, raises := s.jl.raises ++ s.jl.raisesNew.map (fun c => (c, (reportNoted s f).jl.rseq)) } }

/-- The entries of this device, in pieces of one message. -/
def reportPieces (s : State) : List (List Word64) := if s.ownEntries.isEmpty then [] else chunks (s.perMsg s.jl.masterId) 300 s.ownEntries

/-- The messages of a member's report, with the number of its last request. -/
def reportParts (s : State) (f : Bool) : Nat × State :=
  ((List.range (reportPieces s).length).zip (reportPieces s)).foldl (fun a e =>
    ((a.2.request s.jl.masterId 0x10 (leBytes 2 (reportNoted s f).jl.rseq ++ [if f ∧ e.1 = 0 then 1 else 0, BitVec.ofNat 8 e.2.length] ++ e.2.flatMap (fun w => leBytes 8 w.toNat))).1,
     (a.2.request s.jl.masterId 0x10 (leBytes 2 (reportNoted s f).jl.rseq ++ [if f ∧ e.1 = 0 then 1 else 0, BitVec.ofNat 8 e.2.length] ++ e.2.flatMap (fun w => leBytes 8 w.toNat))).2)) (0, reportNoted s f)

theorem reportParts_talked : Talked (reportNoted s f) (reportParts s f).2 := Talked.foldl_snd (fun _ _ => (Asked.request _ _ _).talked) (0, reportNoted s f)

/-- More chains that wait for the answer to a report. -/
def raisesAdded (b : State) (l : List (Nat × Nat)) : State := { b with jl := { b.jl with raises := b.jl.raises ++ l } }

theorem raisesAdded_talked {b : State} {l : List (Nat × Nat)} : Talked b (raisesAdded b l) := rfl

/-- A member's report with the chains that wait for its answer. -/
def partsNoted (s : State) (f : Bool) : State := raisesAdded (reportParts s f).2 (if (reportPieces s).isEmpty then [] else s.jl.raisesNew.map (fun c => (c, (reportParts s f).1)))

/-- A report is due. -/
def reportSendDue (s : State) (f : Bool) : Bool := if f then s.jl.needFull || decide (s.jl.reportAt + tsec ≤ s.now) else s.jl.dirty

/-- Reports may leave this device. -/
def reportOn (s : State) : Bool := s.isMaster || (decide (s.jl.time = .locked) && s.jl.joined && !s.jl.conflict)

theorem reportSendDue_iff : reportSendDue s f = true ↔ if f then s.jl.needFull = true ∨ s.jl.reportAt + tsec ≤ s.now else s.jl.dirty = true := by
  unfold reportSendDue
  cases f
  · simp
  · simp

theorem reportSendDue_false (h : if f then s.jl.needFull = false ∧ s.now < s.jl.reportAt + tsec else s.jl.dirty = false) : reportSendDue s f = false := by
  unfold reportSendDue
  cases f
  · simpa using h
  · simpa using h

theorem reportOn_iff : reportOn s = true ↔ s.isMaster = true ∨ (s.jl.time = .locked ∧ s.jl.joined = true ∧ s.jl.conflict = false) := by simp [reportOn, and_assoc]

theorem reportOn_false (h : s.isMaster = false ∧ (s.jl.time ≠ .locked ∨ s.jl.joined = false ∨ s.jl.conflict = true)) : reportOn s = false := by
  obtain ⟨hm, hoff⟩ := h
  unfold reportOn
  rw [hm]
  obtain ht | hj | hc := hoff
  · simp [ht]
  · simp [hj]
  · simp [hc]

theorem reportSend_void (h : reportSendDue s f = false ∨ reportOn s = false) : s.reportSend f = s := by
  have shut : (!reportSendDue s f || !reportOn s) = true := by
    obtain h | h := h
    · simp [h]
    · simp [h]
  exact if_pos shut

section
variable (hd : reportSendDue s f = true) (ho : reportOn s = true)
include hd ho

theorem report_leaves : ¬(!reportSendDue s f || !reportOn s) = true := by simp [hd, ho]

theorem reportSend_master (hm : s.isMaster = true) : Talked (ownNoted s f) (s.reportSend f) := by
  have sent : s.reportSend f = ((ownNoted s f).capsUpdate.2).owe { mtype := 0x10, resp := true, src := s.ownId, dst := s.ownId, mseq := (reportNoted s f).jl.rseq, body := [] } (ownNoted s f).capsUpdate.1 :=
    (if_neg (report_leaves hd ho)).trans (if_pos hm)
  rw [sent]
  exact Talked.capsUpdate.trans (Talked.owe _ _)

theorem reportSend_member (hm : s.isMaster = false) : Talked (reportNoted s f) (s.reportSend f) := by
  have sent : s.reportSend f = partsNoted s f := (if_neg (report_leaves hd ho)).trans (if_neg (by rw [hm]; exact Bool.false_ne_true))
  rw [sent]
  exact reportParts_talked.trans raisesAdded_talked

end

/-- The chains whose wait an answered report ends. -/
def raisesEnded (b : State) (q : Nat) : State := { b with jl := { b.jl with raises := b.jl.raises.filter (fun e => decide (e.2 ≠ q)) } }

theorem reportResponse_up (hr : s.linkRight h) (hd : h.dst.toNat = s.ownId) (hu : (s.port h.port.val).role = 1) :
    s.reportResponse h = raisesEnded ((s.linkTook h).answered h.src.toNat 0x10 h.mseq.toNat) h.mseq.toNat := takeRouted_here (learn := id) hr hd rfl (linkTook_up hu)

theorem reportResponse_wrong (hr : s.linkRight h) (hd : h.dst.toNat = s.ownId) (hu : (s.port h.port.val).role ≠ 1) : s.reportResponse h = (s.linkTook h).discardMsg h.port.val :=
  takeRouted_wrong (learn := id) hr hd rfl (linkTook_notUp hu)

end

/-! ## CAP (R385, R390, R391, R393) -/

section
variable {s b : State} {h : MsgHdr} {q : Half} {l : Bool} {x : CapEntry} {e : Nat}

/-- A gain stage with the master cap of an entry. -/
def capSet (x : CapEntry) (g : Gain) : Gain := { g with mcapValid := !x.clear, capm := if x.clear = false ∧ cwordOk x.cap = true then gainCode x.cap else -1200 }

theorem capExec_held : CapsHeld (b.updGain x.slot.toNat (capSet x)) (b.capExec x) := by
  unfold State.capExec
  dsimp only
  have same {g : Gain → Gain} (hg : ∀ y, capSet x y = g y) : CapsHeld (b.updGain x.slot.toNat (capSet x)) (b.updGain x.slot.toNat g) := by
    rw [funext hg]
    exact CapsHeld.refl _
  split
  · rename_i hc
    exact same fun y => by simp [capSet, hc]
  · rename_i hc
    split
    · rename_i hk
      exact same fun y => by simp [capSet, hc, hk]
    · rename_i hk
      exact CapsHeld.raise (same fun y => by simp [capSet, hc, hk])

theorem capExec_bad (hc : x.clear = false) (hk : cwordOk x.cap = false) : ((b.capExec x).fsrc (16 * 15 + 0)).status = true := by
  unfold State.capExec
  dsimp only
  rw [if_neg (by rw [hc]; exact Bool.false_ne_true), if_neg (by rw [hk]; exact Bool.false_ne_true)]
  exact State.raise_status _ 15 0 _

/-- The entry executed, and a LAST set noted (R393). -/
def capTaken (b : State) (x : CapEntry) (l : Bool) (q : Half) : State :=
  if l then ({ (b.capExec x).capAll with jl := { (b.capExec x).capAll.jl with cseq := q.toNat } } : State).cascadeClear else (b.capExec x).capAll

/-- A LAST set is noted in the cascade alone. -/
theorem lastNoted_flt {c : State} : (({ c with jl := { c.jl with cseq := q.toNat } } : State).cascadeClear).flt = c.flt := (Kept.cascadeClear (p := { prot := true }) (Kept.refl _ _)).flt rfl

theorem lastNoted_gcl {c : State} : (({ c with jl := { c.jl with cseq := q.toNat } } : State).cascadeClear).gcl = c.gcl := (Kept.cascadeClear (p := { prot := true }) (Kept.refl _ _)).gcl rfl

theorem lastNoted_jl {c : State} : (({ c with jl := { c.jl with cseq := q.toNat } } : State).cascadeClear).jl = { c.jl with cseq := q.toNat } := (Kept.cascadeClear (p := { prot := true }) (Kept.refl _ _)).jl rfl

theorem capped_jl : ((b.capExec x).capAll).jl = b.jl := ((Kept.capAll (p := { gcl := true }) (Kept.refl _ _)).jl rfl).trans ((Kept.capExec (p := Part.alarms) (Kept.refl _ b)).jl rfl)

theorem capped_flt : ((b.capExec x).capAll).flt = (b.capExec x).flt := (Kept.capAll (p := { gcl := true }) (Kept.refl _ _)).flt rfl

theorem capTaken_jl : (capTaken b x l q).jl = { b.jl with cseq := if l then q.toNat else b.jl.cseq } := by
  unfold capTaken
  cases l
  · exact capped_jl
  · rw [if_pos rfl, lastNoted_jl, capped_jl]
    rfl

theorem capTaken_flt : (capTaken b x l q).flt = (b.capExec x).flt := by
  unfold capTaken
  split
  · exact lastNoted_flt.trans capped_flt
  · exact capped_flt

theorem capTaken_held : CapsHeld (b.updGain x.slot.toNat (capSet x)) (capTaken b x l q) := by
  unfold capTaken
  split
  · exact capExec_held.capAll.trans (CapsHeld.of_gcl lastNoted_gcl)
  · exact capExec_held.capAll

theorem capTake_next (hr : s.linkRight h) (hd : h.dst.toNat = s.ownId) (hu : (s.port h.port.val).role = 1) (he : e = s.jl.exp.get 0 h.src.toNat) (hq : h.mseq.toNat = e) (h16 : e < 65536) :
    Asked (capTaken (expectsNext (s.linkTook h) h) x l q) (s.capTake h q l [x]) := by
  unfold State.capTake
  rw [takeRouted_next hr hd (id_eq _) linkTook_ports (linkTook_up hu) he hq h16]
  exact Asked.respond _

theorem capResponse_wrong (hr : s.linkRight h) (hd : h.dst.toNat = s.ownId) (hm : s.isMaster = false) : s.capResponse h q = (s.linkTook h).discardMsg h.port.val :=
  takeRouted_wrong (ok := fun a => a.isMaster) (learn := id) hr hd rfl hm

theorem capResponse_master (hr : s.linkRight h) (hd : h.dst.toNat = s.ownId) (hm : s.isMaster = true) :
    s.capResponse h q = (((s.linkTook h).answered h.src.toNat 0x11 h.mseq.toNat).owedWithout h.src.toNat h.mseq.toNat).owedCheck := takeRouted_here (learn := id) hr hd rfl hm

theorem owedWithout_talked {d m : Nat} : Talked b (b.owedWithout d m) := rfl

/-- No owed answer waits for a request that has been answered (R391). -/
theorem owedWithout_free {d m : Nat} : ∀ o ∈ (b.owedWithout d m).owedCheck.jl.owed, (d, m) ∉ o.waits := by
  intro o ho
  rw [owedCheck_owed] at ho
  obtain ⟨o', -, rfl⟩ := List.mem_map.mp (List.mem_filter.mp ho).1
  simp

end

/-! ## Requests that stay unanswered (R386) -/

section
variable {s : State} {d : Nat} {r : JReq} {l : List JReq}

/-- The first request under way to a destination is to that destination. -/
theorem reqsTo_dst (h : s.reqsTo d = r :: l) : r.msg.dst = d := by
  have listed : r ∈ s.reqsTo d := by
    rw [h]
    exact List.mem_cons_self
  exact of_decide_eq_true (List.mem_filter.mp listed).2

theorem reissue_none (h : s.reqsTo d = []) : s.reissue d = s := by
  unfold State.reissue
  rw [h]
  rfl

theorem reissue_some (h : s.reqsTo d = r :: l) : s.reissue d =
    if s.now < r.at_ + s.jl.timeout * tus then s
    else if r.tries < 3 then ({ s with jl := { s.jl with reqs := s.jl.reqs.map (fun q => if q = r then { q with at_ := s.now, tries := q.tries + 1 } else q) } } : State).routeSend r.msg
    else (s.requestLost r).reqRelease d := by
  unfold State.reissue
  rw [h]
  rfl

/-- A member without its bit. -/
theorem testBit_removed (m d : Nat) : (if m.testBit d then m - 2 ^ d else m).testBit d = false := by
  split
  · rename_i hb
    rw [Nat.testBit_eq_decide_div_mod_eq, decide_eq_true_eq] at hb
    have less : (m - 2 ^ d) / 2 ^ d = m / 2 ^ d - 1 := by
      have step := Nat.sub_mul_div m (2 ^ d) 1
      rwa [Nat.mul_one] at step
    rw [Nat.testBit_eq_decide_div_mod_eq, less]
    exact decide_eq_false (by omega)
  · exact Bool.eq_false_iff.mpr ‹_›

/-- A device that the master has lost: its figures and its membership are gone. -/
def memberLost (s : State) (r : JReq) : State :=
  { s with jl := { s.jl with
    reqs := s.jl.reqs.filter (fun q => decide (q ≠ r)), figs := s.jl.figs.set [] r.msg.dst [], members := if s.jl.members.testBit r.msg.dst then s.jl.members - 2 ^ r.msg.dst else s.jl.members } }

theorem memberLost_gone : (memberLost s r).jl.figs.get [] r.msg.dst = [] ∧ (memberLost s r).jl.members.testBit r.msg.dst = false :=
  ⟨Tab.get_set_self s.jl.figs [] r.msg.dst [], testBit_removed s.jl.members r.msg.dst⟩

theorem requestLost_master (hm : s.isMaster = true) : Talked (memberLost s r) (s.requestLost r) := by
  have lost : s.requestLost r = (((memberLost s r).owedWithout r.msg.dst r.msg.mseq).capsUpdate.2).owedCheck := if_pos hm
  rw [lost]
  exact (owedWithout_talked.trans Talked.capsUpdate).trans Talked.owedCheck

theorem requestLost_member (hm : s.isMaster = false) : (s.requestLost r).jl.needFull = true := by
  have lost : s.requestLost r = { s with jl := { s.jl with reqs := s.jl.reqs.filter (fun q => decide (q ≠ r)), needFull := true } } := if_neg (by rw [hm]; exact Bool.false_ne_true)
  rw [lost]

end

end Sys2Proof.Proofs
end

section
/-! The settlement of O51: the messages of the domain. -/

namespace Sys2Proof.Proofs

open Sys2Proof.Machine Sys2Proof.Laws

set_option Elab.async false

/-! ## Routed messages and HEARTBEAT -/

section
variable {s : State} {i : Instr} {h : MsgHdr}

/-- A routed message for another device goes on by its route (R384). -/
theorem message_forwarded (hr : s.runs) (hl : s.linkRight h) (hb : h.dst ≠ 0xFF) (hd : h.dst.toNat ≠ s.ownId)
    (hi : (∃ a b, i = .heartbeat h a b) ∨ (∃ a, i = .joinResponse h a) ∨ (∃ a b c, i = .report h a b c) ∨ i = .reportResponse h ∨ (∃ a b c, i = .cap h a b c) ∨ (∃ a, i = .capResponse h a)) :
    ∃ m : JMsg, m.resp = h.resp ∧ m.src = h.src.toNat ∧ m.dst = h.dst.toNat ∧ m.mseq = h.mseq.toNat ∧ exec i s = .next ((s.linkTook h).routeSend m) := by
  have away {t : State} {m : Nat} {b : List Byte} {ok : State → Bool} {f : State → State} (row : exec i s = .next t) (routed : t = s.takeRouted h m b ok id f) :
      ∃ m : JMsg, m.resp = h.resp ∧ m.src = h.src.toNat ∧ m.dst = h.dst.toNat ∧ m.mseq = h.mseq.toNat ∧ exec i s = .next ((s.linkTook h).routeSend m) :=
    ⟨_, rfl, rfl, rfl, rfl, row.trans (congrArg _ (routed.trans (takeRouted_away hl hb hd)))⟩
  obtain ⟨a, b, rfl⟩ | ⟨a, rfl⟩ | ⟨a, b, c, rfl⟩ | rfl | ⟨a, b, c, rfl⟩ | ⟨a, rfl⟩ := hi
  · exact away (exec_heartbeat hr) rfl
  · exact away (exec_joinResponse hr) rfl
  · exact away (exec_report hr) (by unfold State.report; rfl)
  · exact away (exec_reportResponse hr) rfl
  · exact away (exec_cap hr) rfl
  · exact away (exec_capResponse hr) rfl

theorem heartbeat_heard {e : Word} {n : Byte} (hr : s.runs) (hl : s.linkRight h) (hd : h.dst = 0xFF) (hu : (s.port h.port.val).role = 1) :
    ∃ t, exec (.heartbeat h e n) s = .next t ∧ t = { s with jl := { s.jl with ports := t.jl.ports, lastHb := s.now, epoch := e, ndev := n, masterId := h.src.toNat } } ∧ ∀ q, (t.port q).st = (s.port q).st := by
  obtain ⟨m, hm⟩ := heartbeat_up (e := e) (n := n) hl hd hu
  refine ⟨_, (exec_heartbeat hr).trans (congrArg _ hm), heard_frame (linkTook_ports.trans broadcast_ports), fun q => ?_⟩
  exact (broadcast_links.ports q).st.trans (linkTook_st q)

theorem heartbeat_sent (hr : s.runs) (hm : s.isMaster = true) (ht : s.jl.hbAt + tms ≤ s.now) : ∃ t, exec .heartbeatSend s = .next t ∧
    t = { s with jl := { s.jl with hbAt := s.now, ndev := BitVec.ofNat 8 s.jl.devices, ports := t.jl.ports } } ∧ ∀ q, (s.port q).role ≠ 2 ∨ (s.port q).st ≠ .up → t.port q = s.port q := by
  obtain ⟨m, hs⟩ := heartbeatSend_due hm ht
  exact ⟨_, (exec_heartbeatSend hr).trans (congrArg _ hs), beats_frame, fun q hq => beats_others hq⟩

end

/-! ## TIME -/

section
variable {s : State} {h : MsgHdr} {d : Word64} {f : Word} {n : Byte} {w : Int}
variable (hr : s.runs) (hl : s.linkRight h) (hw : w = d.toNat * tns + (s.port h.port.val).delay) (hu : (s.port h.port.val).role = 1)
include hr hl hw hu

theorem exec_time_up : exec (.time h d f n) s = .next (timeTaken (s.linkTook h) w f n) := (exec_time hr).trans (congrArg _ (timeTake_up hl hu hw))

variable (hm : s.isMaster = false) (hc : s.jl.conflict = false)
include hm hc

theorem time_first (ht : s.jl.time = .none) : ∃ t, exec (.time h d f n) s = .next t ∧
    t.tim = { s.tim with dtRun := true, dtOrigin := s.now - w, slew := 0, slewAt := s.now, framePh := f.toNat * tns, srcUsed := 3 } ∧ t.jl.time = .locking ∧ t.jl.depth = n.toNat + 1 :=
  ⟨_, (exec_time_up hr hl hw hu).trans (congrArg _ (timeTaken_none hm hc ht)), rfl, rfl, rfl⟩

theorem time_far (ht : s.jl.time = .locked) (hf : 20 * tns < (w - s.dtAt s.now).natAbs) : ∃ t, exec (.time h d f n) s = .next t ∧ t.jl.time = .holdover ∧
    (t.fsrc (16 * 15 + 6)).status = true ∧ (t.fsrc (16 * 15 + 4)).status = true :=
  ⟨_, (exec_time_up hr hl hw hu).trans (congrArg _ (timeTaken_far hm hc ht hf)), timeFar_holds hm ht⟩

theorem time_near (ht : s.jl.time = .locked) (hf : (w - s.dtAt s.now).natAbs ≤ 20 * tns) (hn : s.jl.diffs.length < 15) : ∃ t, exec (.time h d f n) s = .next t ∧
    t.tim = s.tim.slewTo s.now (w - s.dtAt s.now) ∧ t.jl.time = .locked ∧ t.jl.diffs = s.jl.diffs ++ [(s.now, w - s.dtAt s.now)] := by
  obtain ⟨all, few⟩ := timeDiffs_short (a := s.linkTook h) (off := w - s.dtAt s.now) hn
  exact ⟨_, (exec_time_up hr hl hw hu).trans (congrArg _ (timeTaken_near hm hc ht hf few)), rfl, ht, all⟩

theorem time_refused (ht : s.jl.time = .holdover) (hh : s.jl.farHeld = false) (hf : 20 * tns < (w - s.dtAt s.now).natAbs) : ∃ t, exec (.time h d f n) s = .next t ∧
    t.jl.farHeld = true ∧ t.jl.time = .holdover ∧ (t.fsrc (16 * 15 + 6)).status = true := by
  have jl : ((timeRefused (s.linkTook h)).raise 15 6 .device).jl = (timeRefused (s.linkTook h)).jl := State.alarmed_jl (State.alarmed_raise (State.alarmed_refl _))
  refine ⟨_, (exec_time_up hr hl hw hu).trans (congrArg _ ((timeTaken_holdover (a := s.linkTook h) hm hc ht).trans ((if_neg ?_).trans (if_pos hf)))), congrArg Jl.farHeld jl, (congrArg Jl.time jl).trans ht,
    State.raise_status (timeRefused (s.linkTook h)) 15 6 .device⟩
  exact Bool.eq_false_iff.mp hh

theorem time_resumed (ht : s.jl.time = .holdover) (hh : s.jl.farHeld = false) (hf : (w - s.dtAt s.now).natAbs ≤ 20 * tns) : ∃ t, exec (.time h d f n) s = .next t ∧
    t.tim = s.tim.slewTo s.now (w - s.dtAt s.now) ∧ t.jl.depth = n.toNat + 1 ∧ (t.jl.time = if (w - s.dtAt s.now).natAbs ≤ 576 then .locked else .holdover) := by
  have taken := (timeTaken_holdover (f := f) (n := n) (w := w) (a := s.linkTook h) hm hc ht).trans ((if_neg (Bool.eq_false_iff.mp hh)).trans (if_neg (Nat.not_lt.mpr hf)))
  by_cases near : (w - s.dtAt s.now).natAbs ≤ 576
  · obtain ⟨tim, time, depth⟩ := lockedJoin_spec (a := timeResumed (s.linkTook h) (w - s.dtAt s.now) n)
    rw [if_pos near]
    exact ⟨_, (exec_time_up hr hl hw hu).trans (congrArg _ (taken.trans (if_pos near))), tim, depth, time⟩
  · rw [if_neg near]
    exact ⟨_, (exec_time_up hr hl hw hu).trans (congrArg _ (taken.trans (if_neg near))), rfl, rfl, ht⟩

end

/-! ## JOIN, REPORT and CAP -/

section
variable {s : State} {h : MsgHdr} {e : Nat}
variable (hr : s.runs) (hl : s.linkRight h) (hd : h.dst.toNat = s.ownId)
include hr hl hd

section
variable (he : e = s.jl.exp.get 0 h.src.toNat) (hq : h.mseq.toNat = e) (h16 : e < 65536)
include he hq h16

theorem join_conflict {v up : Byte} {r : List Half} (hm : s.isMaster = true) (ht : s.idTaken h = true) :
    ∃ u : State, exec (.join h v up r) s = .next (u.respond { mtype := 5, resp := true, src := s.ownId, dst := h.src.toNat, mseq := h.mseq.toNat, body := leBytes 4 1 }) ∧ u.jl.members = s.jl.members ∧
      u.jl.exp.get 0 h.src.toNat = (e + 1) % 65536 :=
  ⟨_, (exec_join hr).trans (congrArg _ (joinTake_taken hl hd hm he hq h16 ht)), rfl, tookNext_exp he⟩

theorem join_welcomed {v up : Byte} {r : List Half} (hm : s.isMaster = true) (ht : s.idTaken h = false) : ∃ t, exec (.join h v up r) s = .next t ∧ t.jl.members = s.jl.members ||| 2 ^ h.src.toNat ∧
    t.jl.reach.get [] h.src.toNat = r ∧ t.jl.exp.get 0 h.src.toNat = (e + 1) % 65536 ∧ t.rfe = s.rfe ∧ t.slots = s.slots ∧ t.cx = s.cx := by
  obtain ⟨c, hc, talked⟩ := joinTake_new (v := v) (up := up) (r := r) hl hd hm he hq h16 ht
  obtain ⟨ports, rfl⟩ := hc.exists_ports
  refine ⟨_, exec_join hr, talked.members, ?_, ?_, talked.rfe, talked.slots, talked.cx⟩
  · rw [talked.reach]
    exact Tab.get_set_self _ _ _ _
  · rw [talked.exp]
    exact expectsNext_exp (s := { s with jl := { s.jl with ports := ports } }) he

theorem report_taken {q : Half} {f : Bool} {l : List Word64} (hm : s.isMaster = true) : ∃ t, exec (.report h q f l) s = .next t ∧
    t.jl.figs.get [] h.src.toNat = mergeEntries (s.jl.figs.get [] h.src.toNat) l f ∧ (∀ d, d ≠ h.src.toNat → t.jl.figs.get [] d = s.jl.figs.get [] d) ∧
    t.jl.exp.get 0 h.src.toNat = (e + 1) % 65536 ∧ t.rfe = s.rfe ∧ t.slots = s.slots := by
  have talked := report_next (q := q) (f := f) (l := l) hl hd hm he hq h16
  obtain ⟨rfe, slots⟩ := figuresTaken_radio (b := expectsNext (s.linkTook h) h) (i := h.src.toNat) (l := l) (f := f)
  obtain ⟨rfe', slots'⟩ := tookNext_radio (s := s) (h := h)
  refine ⟨_, exec_report hr, ?_, fun d hne => ?_, ?_, talked.rfe.trans (rfe.trans rfe'), talked.slots.trans (slots.trans slots')⟩
  · rw [talked.figs]
    exact figuresTaken_own.trans (by rw [tookNext_figs])
  · rw [talked.figs]
    exact (figuresTaken_other hne).trans (by rw [tookNext_figs])
  · rw [talked.exp, figuresTaken_exp]
    exact tookNext_exp he

theorem cap_taken {q : Half} {l : Bool} {x : CapEntry} (hu : (s.port h.port.val).role = 1) : ∃ t, exec (.cap h q l [x]) s = .next t ∧ t.jl.exp.get 0 h.src.toNat = (e + 1) % 65536 ∧
    (t.jl.cseq = if l then q.toNat else s.jl.cseq) ∧ ((t.gain x.slot.toNat).mcapValid = !x.clear) ∧
    ((t.gain x.slot.toNat).capm = if x.clear = false ∧ cwordOk x.cap = true then gainCode x.cap else -1200) ∧ (x.clear = false → cwordOk x.cap = false → (t.fsrc (16 * 15 + 0)).status = true) ∧
    (∀ n, n ≠ x.slot.toNat → (t.gain n).mcapValid = (s.gain n).mcapValid ∧ (t.gain n).capm = (s.gain n).capm) := by
  have asked := capTake_next (q := q) (l := l) (x := x) hl hd hu he hq h16
  have held := capTaken_held.trans (CapsHeld.of_gcl asked.gcl)
  have own := held x.slot.toNat
  rw [State.gain_updGain] at own
  refine ⟨_, exec_cap hr, ?_, ?_, own.1, own.2, fun hc hk => ?_, fun n hn => ?_⟩
  · rw [asked.jl, capTaken_jl]
    exact tookNext_exp he
  · rw [asked.jl, capTaken_jl]
    rfl
  · unfold State.fsrc
    rw [asked.flt, capTaken_flt]
    exact capExec_bad hc hk
  · have other := held n
    rw [State.gain_updGain_ne _ _ _ _ (Ne.symm hn)] at other
    exact other

end

theorem joinResponse_refused (hu : (s.port h.port.val).role = 1) : ∃ t, exec (.joinResponse h 1) s = .next t ∧ t.jl.conflict = true ∧ t.jl.joined = false ∧ (t.fsrc (16 * 15 + 5)).status = true :=
  ⟨_, (exec_joinResponse hr).trans (congrArg _ ((joinResponse_up hl hd hu).trans (if_pos rfl))), joinRefused_raises⟩

theorem joinResponse_accepted {r : Byte} (hu : (s.port h.port.val).role = 1) (h1 : r ≠ 1) : ∃ t, exec (.joinResponse h r) s = .next t ∧ t.jl.conflict = s.jl.conflict ∧ t.jl.joined = s.jl.joined ∧
    t.jl.time = s.jl.time ∧ t.flt = s.flt ∧ t.tim = s.tim := by
  have asked : Asked s ((s.linkTook h).answered h.src.toNat 5 h.mseq.toNat) := answered_asked
  exact ⟨_, (exec_joinResponse hr).trans (congrArg _ ((joinResponse_up hl hd hu).trans (if_neg h1))), (congrArg Jl.conflict asked.jl).trans rfl, (congrArg Jl.joined asked.jl).trans rfl,
    (congrArg Jl.time asked.jl).trans rfl, asked.flt, asked.tim⟩

theorem reportResponse_taken (hu : (s.port h.port.val).role = 1) : ∃ t, exec (.reportResponse h) s = .next t ∧ t.jl.raises = s.jl.raises.filter (fun e => decide (e.2 ≠ h.mseq.toNat)) ∧
    t.flt = s.flt ∧ t.rfe = s.rfe ∧ t.tim = s.tim := by
  have asked : Asked s ((s.linkTook h).answered h.src.toNat 0x10 h.mseq.toNat) := answered_asked
  have raises : ((s.linkTook h).answered h.src.toNat 0x10 h.mseq.toNat).jl.raises = s.jl.raises := (congrArg Jl.raises asked.jl).trans rfl
  exact ⟨_, (exec_reportResponse hr).trans (congrArg _ (reportResponse_up hl hd hu)), congrArg (List.filter _) raises, asked.flt, asked.rfe, asked.tim⟩

theorem capResponse_taken {q : Half} (hm : s.isMaster = true) : ∃ t, exec (.capResponse h q) s = .next t ∧ t.flt = s.flt ∧ t.rfe = s.rfe ∧ t.jl.figs = s.jl.figs ∧
    ∀ o ∈ t.jl.owed, (h.src.toNat, h.mseq.toNat) ∉ o.waits := by
  have asked : Asked s ((s.linkTook h).answered h.src.toNat 0x11 h.mseq.toNat) := answered_asked
  have talked := (asked.talked.trans (owedWithout_talked (d := h.src.toNat) (m := h.mseq.toNat))).trans Talked.owedCheck
  exact ⟨_, (exec_capResponse hr).trans (congrArg _ (capResponse_master hl hd hm)), talked.flt, talked.rfe, talked.figs, owedWithout_free⟩

end

/-! ## Reports sent and requests lost -/

section
variable {s : State}

theorem report_sent {f : Bool} (hr : s.runs) (hd : reportSendDue s f = true) (ho : reportOn s = true) : ∃ t, exec (.reportSend f) s = .next t ∧ t.jl.dirty = false ∧ t.jl.rseq = (s.jl.rseq + 1) % 65536 ∧
    (t.jl.reportAt = if f then s.now else s.jl.reportAt) ∧ t.jl.needFull = (s.jl.needFull && !f) ∧ t.jl.raisesNew = [] ∧ (s.isMaster = true → t.jl.figs.get [] s.ownId = s.ownEntries) ∧
    t.rfe = s.rfe ∧ t.slots = s.slots ∧ t.cx = s.cx := by
  refine ⟨_, exec_reportSend hr, ?_⟩
  cases hm : s.isMaster
  · have talked := reportSend_member hd ho hm
    exact ⟨talked.dirty, talked.rseq, talked.reportAt, talked.needFull, talked.raisesNew, fun hn => absurd hn (by decide), talked.rfe, talked.slots, talked.cx⟩
  · have talked := reportSend_master hd ho hm
    refine ⟨talked.dirty, talked.rseq, talked.reportAt, talked.needFull, talked.raisesNew, fun _ => ?_, talked.rfe, talked.slots, talked.cx⟩
    rw [talked.figs]
    exact Tab.get_set_self _ _ _ _

theorem request_lost {d : Fin 16} {r : JReq} {l : List JReq} (hr : s.runs) (hq : s.reqsTo d.val = r :: l) (ht : r.at_ + s.jl.timeout * tus ≤ s.now) (hn : 3 ≤ r.tries) :
    ∃ t, exec (.requestReissue d) s = .next t ∧ (s.isMaster = true → t.jl.figs.get [] d.val = [] ∧ t.jl.members.testBit d.val = false) ∧ (s.isMaster = false → t.jl.needFull = true) := by
  have released : Asked (s.requestLost r) ((s.requestLost r).reqRelease d.val) := Asked.reqRelease _
  refine ⟨_, (exec_requestReissue hr).trans (congrArg _ ((reissue_some hq).trans ((if_neg (Nat.not_lt.mpr ht)).trans (if_neg (Nat.not_lt.mpr hn))))), fun hm => ?_, fun hm => ?_⟩
  · have talked := (requestLost_master (r := r) hm).trans released.talked
    rw [talked.figs, talked.members, ← reqsTo_dst hq]
    exact memberLost_gone
  · rw [released.talked.needFull]
    exact requestLost_member hm

end

/-- Settles O51: each message of the domain by the lemma about its event. -/
theorem domainMessages : Obligations.DomainMessages := by
  unfold Obligations.DomainMessages
  refine ⟨fun s i h hr _ hl hb hd hi => message_forwarded hr hl hb hd hi, fun s h e n hr hl hd => ⟨fun hu => ?notHeard, heartbeat_heard hr hl hd⟩,
    fun s hr => ⟨fun hv => ?noBeat, heartbeat_sent hr⟩, fun s hr => ⟨fun hv => ?noLoss, fun ht hm hk => ?loss⟩,
    fun s h d f n w hr hl hw => ⟨fun hu => ?notTimed, fun hu hi => ?ignored, fun hu hm hc => ⟨time_first hr hl hw hu hm hc, time_far hr hl hw hu hm hc, time_near hr hl hw hu hm hc, fun ht hh => ?heldFar,
      time_refused hr hl hw hu hm hc, time_resumed hr hl hw hu hm hc⟩⟩,
    fun s p due hr hdue => ⟨fun hn => ?noTime, fun hd => ?timeSent⟩, fun s hr => ⟨fun hl => ⟨?masterLost, State.raise_status _ _ _ _⟩, fun hv => ?masterKept⟩,
    fun s hr => ⟨fun hv => ?noTimeout, fun a ha ht hl => ?timeout⟩,
    fun s h v up r e hr hl hd hm he hq h16 => ⟨join_conflict hr hl hd he hq h16 hm, join_welcomed hr hl hd he hq h16 hm⟩,
    fun s h r hr hl hd => ⟨fun hu => ?noAnswer, fun hu h1 => ?refused, joinResponse_accepted hr hl hd⟩,
    fun s h q f l e hr hl hd he h16 => ⟨fun hm => ?noReport, fun hm hq => report_taken hr hl hd he hq h16 hm, fun hm hq => ?farReport⟩,
    fun s f hr => ⟨fun hv => ?nothingSent, fun hd ho => report_sent hr (reportSendDue_iff.mpr hd) (reportOn_iff.mpr ho)⟩,
    fun s h hr hl hd => ⟨fun hu => ?noReportAnswer, reportResponse_taken hr hl hd⟩,
    fun s h q l x e hr hl hd hu he hq h16 => cap_taken hr hl hd he hq h16 hu, fun s h q hr hl hd => ⟨fun hm => ?noCapAnswer, capResponse_taken hr hl hd⟩,
    fun s d hr => ⟨fun hn => ?noRequest, fun r l hq => ⟨fun ht => ?early, fun ht h3 => ?again, request_lost hr hq⟩⟩⟩
  case notHeard => exact (exec_heartbeat hr).trans (congrArg _ (heartbeat_wrong hl hd hu))
  case noBeat => exact (exec_heartbeatSend hr).trans (congrArg _ (heartbeatSend_void hv))
  case noLoss => exact (exec_heartbeatLoss hr).trans (congrArg _ (heartbeatLoss_void hv))
  case loss => exact ⟨_, (exec_heartbeatLoss hr).trans (congrArg _ (heartbeatLoss_late ht)), toHoldover_spec hm hk⟩
  case notTimed => exact (exec_time hr).trans (congrArg _ (timeTake_wrong hl hu))
  case ignored => exact (exec_time_up hr hl hw hu).trans (congrArg _ (timeTaken_ignored (a := s.linkTook h) hi))
  case heldFar => exact (exec_time_up hr hl hw hu).trans (congrArg _ ((timeTaken_holdover (a := s.linkTook h) hm hc ht).trans (if_pos hh)))
  case noTime =>
    rw [hdue, ← timeDue_iff] at hn
    exact (exec_timeSend hr).trans (congrArg _ (timeSend_eq.trans (if_neg hn)))
  case timeSent =>
    rw [hdue, ← timeDue_iff] at hd
    exact ⟨_, State.updPort_only _ _ _, State.port_updPort _ _ _, (exec_timeSend hr).trans (congrArg _ (timeSend_eq.trans (if_pos hd)))⟩
  case masterLost => exact (exec_masterLost hr).trans (congrArg _ (masterLost_raises hl))
  case masterKept => exact (exec_masterLost hr).trans (congrArg _ (masterLost_void hv))
  case noTimeout => exact (exec_cascadeHoldoverTimeout hr).trans (congrArg _ (holdoverTimeout_void hv))
  case timeout => exact ⟨_, (exec_cascadeHoldoverTimeout hr).trans (congrArg _ (holdoverTimeout_due ha ht hl)), cascadeEntered_alarmed, fun e he hv => cascadeEntered_cause he hv⟩
  case noAnswer => exact (exec_joinResponse hr).trans (congrArg _ (joinResponse_wrong hl hd hu))
  case refused =>
    subst h1
    exact joinResponse_refused hr hl hd hu
  case noReport => exact (exec_report hr).trans (congrArg _ (report_wrong hl hd hm))
  case farReport => exact (exec_report hr).trans (congrArg _ (report_far hl hd hm he hq))
  case nothingSent => exact (exec_reportSend hr).trans (congrArg _ (reportSend_void (hv.imp reportSendDue_false reportOn_false)))
  case noReportAnswer => exact (exec_reportResponse hr).trans (congrArg _ (reportResponse_wrong hl hd hu))
  case noCapAnswer => exact (exec_capResponse hr).trans (congrArg _ (capResponse_wrong hl hd hm))
  case noRequest => exact (exec_requestReissue hr).trans (congrArg _ (reissue_none hn))
  case early => exact (exec_requestReissue hr).trans (congrArg _ ((reissue_some hq).trans (if_pos ht)))
  case again => exact ⟨_, (exec_requestReissue hr).trans (congrArg _ ((reissue_some hq).trans ((if_neg (Nat.not_lt.mpr ht)).trans (if_pos h3)))), rfl⟩

end Sys2Proof.Proofs
end
